-- ==== Sys2Proof/Word.lean ====
section
/-! DEFINITION. The machine's word types: a register is 32 bits (R9), an engine register 64, a memory cell one byte. -/

namespace Sys2Proof

/-- A BAR0 register (R9). -/
abbrev Word := BitVec 32

/-- An engine register or a memory word (R187, R283). -/
abbrev DWord := BitVec 64

/-- One byte of a store, a frame or a message. -/
abbrev Byte := BitVec 8

end Sys2Proof
end

