-- ==== Sys2Proof/Args.lean ====
section
/-! DEFINITION. The types of the operands commands carry: the objects they name, and what the part measures or receives when
an event occurs. -/

namespace Sys2Proof

/-! Objects. -/

/-- An engine, 8 * cluster + engine (R187). -/
abbrev EngId := Fin 96

/-- A general register of an engine (R195). -/
abbrev GReg := Fin 32

/-- A global lane, 8 * octet + lane (R5). -/
abbrev Lane := Fin 256

/-- An octet. -/
abbrev Oct := Fin 32

/-- A port slot or a lane within an octet. -/
abbrev Slot := Fin 8

/-- The octet of a lane (R5). -/
def Lane.oct (g : Lane) : Oct := ⟨g.val / 8, by omega⟩

/-- The number of a lane within its octet (R5). -/
def Lane.slot (g : Lane) : Slot := ⟨g.val % 8, by omega⟩

/-- A requester of a BAR0 access: the host, the REG channel of an engine, the debug port (R9, R395). -/
inductive Src where
  | host
  | reg (eng : EngId)
  | dbg
  deriving DecidableEq, Repr

/-! Measurements. -/

/-- What the converter of a lane delivers in one L-cycle (R37): the codes of positions 0 to 127, the spare's two codes at the instant of the
slice it is assigned to, and the three thresholds, low to high and in 1/524,288 code, by which the lane classifies corrected samples
(R43 names the lane's common decision thresholds and states no value in codes; log 96). -/
structure LaneWord where
  x : List (BitVec 8)
  spare : List (BitVec 8)
  thr : List Int
  deriving DecidableEq, Repr

/-- An instant of the time base as a lane captures it: seconds, and 1/65,536 ps of the second. -/
structure Instant where
  sec : Nat
  sub : Nat
  deriving DecidableEq, Repr

/-- What arrives at a marker position of a lane (R102, R103): the 64 bits there, first bit most significant, the parity of the
lane bits since the last marker, the C-cycle in which it left the sluice, the capture at the clock tap and the junction
temperature (R116), and the measured aperture outcomes of the lane's two crossings (R25). -/
structure MarkerArrival where
  word : BitVec 64
  parity : BitVec 8
  cycle : Nat
  tap : Instant
  temp : Int
  aptRx : Bool
  aptTx : Bool
  deriving DecidableEq, Repr

/-- A correlator at a symbol end (R131): SF code; the resampler's outputs over its last 4 symbols and the 32 before them, oldest first (the
resampler's coefficients and the loops that steer it are not in the spec, log 106); the mixer's phase and the sample phase; its metric in 1/4 dB (an
estimate whose formula the spec does not state, log 106); whether its symbol boundaries lie within 2 chips of those of the current frame. -/
structure TlDetect where
  sf : Fin 5
  res : List Int
  rot : Fin 4
  phase : Fin 4
  metric : Int
  near : Bool
  deriving DecidableEq, Repr

/-- A frame as it reaches the fabric (R149, R160): the bytes so far with the FCS at the end, whether it has ended, the
numbers of the first and last codeword it touches, counted from its port's entry to UP (R95), whether the port's exit from UP cut it short
(R104), whether the octet's line store was full, the lane and the symbol count of its timestamp point, and the
cell bank whose free list meets a parity error in its allocations (R161). -/
structure RxFrame where
  bytes : List Byte
  done : Bool
  cw : Nat × Nat
  cut : Bool
  full : Bool
  lane : Slot
  k : Nat
  badBank : Option (Fin 256)
  deriving DecidableEq, Repr

/-- What a row acts on, together with what its event brings to it. -/
structure With (α β : Type) where
  obj : α
  inp : β
  deriving DecidableEq, Repr

/-- The launch of a marker by the lanes of an octet (R99, R116): one subcarrier sample number for each L-cycle since the last
marker, and per lane the capture at its clock tap. -/
structure MarkerLaunch where
  ks : List Nat
  caps : List Instant
  deriving DecidableEq, Repr

/-- What a spill write meets (R172, R286, R287): how long it has waited, and the words of the chunk map and of the transfer
that fail parity. -/
structure SpillMeets where
  wait : Nat
  chm : List Nat
  slu : List Nat
  deriving DecidableEq, Repr

/-- A requester of a DRAM channel (R278). -/
inductive DramReq where
  | refresh
  | spillRead
  | spillWrite
  | dma (e : EngId)
  | bar2
  | dump
  | capture
  | scrub
  deriving DecidableEq, Repr

/-- The order of a requester (R278). -/
def DramReq.order : DramReq → Nat
  | .refresh => 1 | .spillRead => 2 | .spillWrite => 3 | .dma _ => 4 | .bar2 => 4 | .dump => 5 | .capture => 6 | .scrub => 7

/-- What a self-test found (R366, R374, R375): whether logic BIST or a DRAM loop-back passed, repairs and faults left of the march test,
the signature, and per lane of an octet the failed slices and the failure bits in SLICE_RES layout. -/
structure BistResult where
  pass : Bool
  repaired : Nat
  unrepaired : Nat
  sig : BitVec 64
  lanes : List (BitVec 64 × BitVec 8)
  deriving DecidableEq, Repr

/-- How a command that both a register write and a channel request give arrives. -/
inductive Via where
  | reg (src : Src) (val : BitVec 32)
  | chan (e : EngId)
  deriving DecidableEq, Repr

/-- A BAR2 access (R382): a read of a number of bytes, up to the largest read request, or a write of bytes from the offset on, none where
the byte is not enabled. -/
inductive B2Op where
  | read (len : Fin 4097)
  | write (l : List (Option Byte))
  deriving DecidableEq, Repr

/-- A configuration request (R381, R384, R390): a read or a write with no effect outside configuration space, a write of
Command.Interrupt Disable, a write of PMCSR with PME_En and whether it clears PME_Status. -/
inductive CfgReq where
  | other
  | command (intDis : Bool)
  | pmcsr (pmeEn clear : Bool)
  deriving DecidableEq, Repr

/-- The boot flash on the board (R402): whether it responds, whether its SFDP header is valid, and its bytes by offset in runs; others read
0xFF, as erased flash does. -/
structure Flash where
  responds : Bool
  sfdp : Bool
  runs : List (Nat × List Byte)
  deriving DecidableEq, Repr

/-- A TLP read of a submitted frame (R388): the bytes read, or an error or EP. -/
abbrev FrameRead := Option (List Byte)

end Sys2Proof
end

