-- ==== Sys2Proof/Syntax.lean ====
section
/-! DEFINITION. The commands the part takes: one constructor per row of spec/opcode_table.json. An operand names an object
(an engine, a lane, an octet), gives a register word, or carries what the part measured or received when the event occurred. -/

namespace Sys2Proof



/-- The commands of spec/opcode_table.json, one constructor per row. -/
inductive Instr where
  -- Engine: integer, compare, shift and bit-field instructions (R200, R201, R202)
  | add (e : EngId) (gd ga gb : GReg)
  | sub (e : EngId) (gd ga gb : GReg)
  | and (e : EngId) (gd ga gb : GReg)
  | or (e : EngId) (gd ga gb : GReg)
  | xor (e : EngId) (gd ga gb : GReg)
  | nor (e : EngId) (gd ga gb : GReg)
  | andn (e : EngId) (gd ga gb : GReg)
  | seq (e : EngId) (gd ga gb : GReg)
  | sne (e : EngId) (gd ga gb : GReg)
  | slt (e : EngId) (gd ga gb : GReg)
  | sltu (e : EngId) (gd ga gb : GReg)
  | sle (e : EngId) (gd ga gb : GReg)
  | sleu (e : EngId) (gd ga gb : GReg)
  | sll (e : EngId) (gd ga gb : GReg)
  | srl (e : EngId) (gd ga gb : GReg)
  | sra (e : EngId) (gd ga gb : GReg)
  | rol (e : EngId) (gd ga gb : GReg)
  | clz (e : EngId) (gd ga : GReg)
  | ctz (e : EngId) (gd ga : GReg)
  | popc (e : EngId) (gd ga : GReg)
  | addi (e : EngId) (gd ga : GReg) (imm : BitVec 16)
  | andi (e : EngId) (gd ga : GReg) (imm : BitVec 16)
  | ori (e : EngId) (gd ga : GReg) (imm : BitVec 16)
  | xori (e : EngId) (gd ga : GReg) (imm : BitVec 16)
  | slti (e : EngId) (gd ga : GReg) (imm : BitVec 16)
  | sltiu (e : EngId) (gd ga : GReg) (imm : BitVec 16)
  | seqi (e : EngId) (gd ga : GReg) (imm : BitVec 16)
  | insh1 (e : EngId) (gd ga : GReg) (imm : BitVec 16)
  | insh2 (e : EngId) (gd ga : GReg) (imm : BitVec 16)
  | insh3 (e : EngId) (gd ga : GReg) (imm : BitVec 16)
  | slli (e : EngId) (gd ga : GReg) (sh : Fin 64)
  | srli (e : EngId) (gd ga : GReg) (sh : Fin 64)
  | srai (e : EngId) (gd ga : GReg) (sh : Fin 64)
  | extF (e : EngId) (gd ga : GReg) (pos lenM1 : Fin 64)
  | extsF (e : EngId) (gd ga : GReg) (pos lenM1 : Fin 64)
  | insF (e : EngId) (gd ga : GReg) (pos lenM1 : Fin 64)
  | mul (e : EngId) (gd ga gb : GReg)
  | mulhs (e : EngId) (gd ga gb : GReg)
  | mulhu (e : EngId) (gd ga gb : GReg)
  | mulhsu (e : EngId) (gd ga gb : GReg)
  -- Engine: byte-lane instructions (R203, R204)
  | addb (e : EngId) (gd ga gb : GReg) (mask : BitVec 8)
  | subb (e : EngId) (gd ga gb : GReg) (mask : BitVec 8)
  | addbs (e : EngId) (gd ga gb : GReg) (mask : BitVec 8)
  | subbs (e : EngId) (gd ga gb : GReg) (mask : BitVec 8)
  | addbu (e : EngId) (gd ga gb : GReg) (mask : BitVec 8)
  | subbu (e : EngId) (gd ga gb : GReg) (mask : BitVec 8)
  | avgbu (e : EngId) (gd ga gb : GReg) (mask : BitVec 8)
  | absdb (e : EngId) (gd ga gb : GReg) (mask : BitVec 8)
  | minbu (e : EngId) (gd ga gb : GReg) (mask : BitVec 8)
  | maxbu (e : EngId) (gd ga gb : GReg) (mask : BitVec 8)
  | minbs (e : EngId) (gd ga gb : GReg) (mask : BitVec 8)
  | maxbs (e : EngId) (gd ga gb : GReg) (mask : BitVec 8)
  | sadb (e : EngId) (gd ga gb : GReg) (mask : BitVec 8)
  | ceqb (e : EngId) (gd ga gb : GReg) (mask : BitVec 8)
  | cgtbu (e : EngId) (gd ga gb : GReg) (mask : BitVec 8)
  | selb (e : EngId) (gd ga gb : GReg) (mask : BitVec 8)
  | macuu (e : EngId) (gd ga gb : GReg) (mask : BitVec 8)
  | macss (e : EngId) (gd ga gb : GReg) (mask : BitVec 8)
  | macsu (e : EngId) (gd ga gb : GReg) (mask : BitVec 8)
  | macsss (e : EngId) (gd ga gb : GReg) (mask : BitVec 8)
  | mulpuu (e : EngId) (gd ga gb : GReg) (mask : BitVec 8)
  | mulpss (e : EngId) (gd ga gb : GReg) (mask : BitVec 8)
  -- Engine: loads, stores and atomics (R205, R206)
  | ldB (e : EngId) (gd ga : GReg) (imm : BitVec 16)
  | ldBu (e : EngId) (gd ga : GReg) (imm : BitVec 16)
  | ldH (e : EngId) (gd ga : GReg) (imm : BitVec 16)
  | ldHu (e : EngId) (gd ga : GReg) (imm : BitVec 16)
  | ldW (e : EngId) (gd ga : GReg) (imm : BitVec 16)
  | ldWu (e : EngId) (gd ga : GReg) (imm : BitVec 16)
  | ldD (e : EngId) (gd ga : GReg) (imm : BitVec 16)
  | stB (e : EngId) (gd ga : GReg) (imm : BitVec 16)
  | stH (e : EngId) (gd ga : GReg) (imm : BitVec 16)
  | stW (e : EngId) (gd ga : GReg) (imm : BitVec 16)
  | stD (e : EngId) (gd ga : GReg) (imm : BitVec 16)
  | aadd (e : EngId) (gd ga gb : GReg) (w32 : Bool)
  | aswap (e : EngId) (gd ga gb : GReg) (w32 : Bool)
  | aand (e : EngId) (gd ga gb : GReg) (w32 : Bool)
  | aor (e : EngId) (gd ga gb : GReg) (w32 : Bool)
  | axor (e : EngId) (gd ga gb : GReg) (w32 : Bool)
  | acas (e : EngId) (gd ga gb : GReg) (w32 : Bool)
  -- Engine: control flow and system instructions (R207, R208)
  | bz (e : EngId) (ga : GReg) (imm : BitVec 16)
  | bnz (e : EngId) (ga : GReg) (imm : BitVec 16)
  | j (e : EngId) (off : BitVec 26)
  | jal (e : EngId) (off : BitVec 26)
  | jr (e : EngId) (ga : GReg)
  | jalr (e : EngId) (gd ga : GReg)
  | mfsy (e : EngId) (gd : GReg) (sy : Fin 64)
  | mtsy (e : EngId) (sy : Fin 64) (ga : GReg)
  | eret (e : EngId)
  | trap (e : EngId) (code : Fin 32)
  | ewait (e : EngId) (gd ga : GReg)
  | halt (e : EngId)
  | csend (e : EngId) (gd ga : GReg) (chan : Fin 1024) (cmd : Fin 64)
  | crecv (e : EngId) (gd ga : GReg) (chan : With (Fin 1024) Bool)
  | channelClose (e : EngId) (gd ga : GReg) (chan : Fin 1024) (cmd : Fin 64)
  -- Engine: exceptions and events between instructions (R188, R195, R198, R212, R216, R218, R227, R228)
  | interruptEntry (e : EngId)
  | watchdogExpiry (e : EngId)
  | timerExpiry (e : EngId)
  | ewaitWake (e : EngId)
  | crecvWake (e : With EngId Bool)
  | channelReply (e : EngId) (chan : Fin 1024) (parity : Bool)
  | illegalInstruction (e : EngId) (word : BitVec 32)
  | instructionFetchFault (e : EngId)
  -- Lane receive (spec/01, spec/02)
  | freqWindowEnd (g : Lane) (dep : Int)
  | elasticSwitch (g : Lane)
  | elasticSlip (g : Lane)
  | cdrLockSet (g : Lane) (err : Nat)
  | cdrLockClear (g : Lane) (err : Nat)
  | losSet (g : Lane) (rms : Nat)
  | losClear (g : Lane) (rms : Nat)
  | updatePoint (x : With Lane (List LaneWord))
  | calCoefWrite (src : Src) (g : Lane) (slice : Fin 65) (val : BitVec 32)
  | calWindowEnd (g : Lane) (ws : List LaneWord)
  | calFreeze (src : Src) (g : Lane) (val : BitVec 32)
  | calUnfreeze (src : Src) (g : Lane) (val : BitVec 32)
  | repairRequest (src : Src) (g : Lane) (val : BitVec 32)
  | spareTakeover (g : Lane)
  | repairRelease (src : Src) (g : Lane) (val : BitVec 32)
  | ffeTapWrite (src : Src) (g : Lane) (tap : Option (Bool × Fin 48)) (val : BitVec 32)
  | swapRequest (src : Src) (g : Lane) (val : BitVec 32)
  | fadeEnd (x : With Lane (List LaneWord))
  | lmsUpdate (g : Lane) (ws : List LaneWord)
  | mseBlockEnd (g : Lane) (ws : List LaneWord)
  | lmsCtrlWrite (src : Src) (g : Lane) (val : BitVec 32)
  -- Lane transmit, training and test access (spec/03)
  | txFfeWrite (src : Src) (g : Lane) (val : BitVec 32)
  | pdPageSelect (src : Src) (g : Lane) (val : BitVec 32)
  | pdEntryWrite (src : Src) (g : Lane) (page : Bool) (i : Fin 64) (val : BitVec 32)
  | trainStart (src : Src) (g : Lane) (val : BitVec 32)
  | trainStop (src : Src) (g : Lane) (val : BitVec 32)
  | localReadySet (src : Src) (g : Lane) (val : BitVec 32)
  | localReadyClear (src : Src) (g : Lane) (val : BitVec 32)
  | trainLimitExpiry (g : Lane)
  | trainRequest (src : Src) (g : Lane) (val : BitVec 32)
  | trainResend (g : Lane)
  | trainingMessageReceive (o : Oct) (msg : BitVec 256)
  | lanePowerRequest (src : Src) (g : Lane) (val : BitVec 32)
  | lanePowerTransitionEnd (g : Lane)
  | loopbackSelect (src : Src) (g : Lane) (val : BitVec 32)
  | loopbackEngage (g : Lane)
  | loopbackSlip (x : With Lane (List LaneWord))
  | patternSync (x : With Lane (List LaneWord))
  | patErrRead (src : Src) (o : Oct) (l : Slot) (ws : List LaneWord)
  | eyeScanStart (src : Src) (g : Lane) (val : BitVec 32)
  | eyeScanAbort (src : Src) (g : Lane) (val : BitVec 32)
  | eyeScanEnd (g : Lane) (ws : List LaneWord)
  | captureEnable (src : Src) (g : Lane) (val : BitVec 32)
  | captureMark (src : Src) (g : Lane) (val : BitVec 32)
  | captureRewind (src : Src) (g : Lane) (val : BitVec 32)
  | captureTrigger (g : Lane) (k : Fin 5)
  | capturePageStart (g : Lane) (data : List (BitVec 8))
  | captureWordDrop (g : Lane)
  -- Octet mode, markers, ports and FEC (spec/01, spec/04)
  | modeCommit (src : Src) (o : Oct) (val : BitVec 32)
  | modeBoundary (o : Oct)
  | markerSend (o : Oct) (x : MarkerLaunch) (temp : Int)
  | markerReceive (g : Lane) (m : MarkerArrival)
  | codewordDecode (o : Oct) (p : Slot) (r : List (BitVec 10))
  | innerBlockDecode (g : Lane) (llr : List Int)
  | fecSnapshot (src : Src) (o : Oct) (val : BitVec 32)
  | berWindowEnd (g : Lane)
  -- Time base, PPS, time of day and time stamps (spec/04)
  | timeStep (src : Src) (val : BitVec 32)
  | timeSetCommit (src : Src) (val : BitVec 32)
  | timeSetLoad
  | ppsInEdge (x : With Bool (Fin 501))
  | ppsOutPulse
  | ppsOutEnd
  | todSend
  | todReceive (msg : List (BitVec 8)) (soon : Bool)
  | timeReadLatch (src : Src)
  | txtsPop (src : Src) (o : Oct)
  | tscStart (src : Src) (g : Lane) (val : BitVec 32)
  | tscDone (g : Lane) (rx tx temp : Int)
  -- Tideline (spec/05)
  | modemEnable (o : Oct) (w : Option (Src × BitVec 32))
  | modemDisable (o : Oct) (w : Option (Src × BitVec 32))
  | tlLaneChange (src : Src) (o : Oct) (val : BitVec 32)
  | gaspCommand (src : Src) (o : Oct) (val : BitVec 32)
  | wardenGasp (e : EngId)
  | muteClear (src : Src) (o : Oct) (val : BitVec 32)
  | maskBlockEnd (o : Oct) (pwr : List Int)
  | detection (o : Oct) (dets : List TlDetect) (cur : With Int Nat)
  | delimiterMiss (o : Oct) (signs : BitVec 8)
  | headerDecision (o : Oct) (header : BitVec 32)
  | ldpcBlockRelease (o : Oct) (ch : List Int)
  | frameResult (o : Oct) (crc : BitVec 32)
  | searchReady (o : Oct)
  | rxPop (src : Src) (o : Oct)
  | txFrameQueue (src : Src) (o : Oct) (val : BitVec 32)
  | txFrameStart (o : Oct)
  | txFrameEnd (o : Oct)
  -- Flow fabric (spec/06)
  | frameIngress (o : Oct) (p : Slot) (fr : RxFrame)
  | lookupServe (o : Oct) (wait : Nat)
  | schedulerDecision (o : Oct) (p : Slot) (now : Nat) (bad : Bool)
  | frameEgress (o : Oct) (p lane : Slot) (k : Nat) (bad : Option (Nat × Bool))
  | agePromotion (lvl : Fin 4) (i : BitVec 20) (now : Nat)
  | portFlush (o : Oct) (p : With Slot (Option (Nat × Nat × Bool)))
  | schedCommit (w : Via)
  | schedChamberBoundary (lvl : Fin 3) (i : BitVec 18)
  | schedIndAccess (src : Src) (val : BitVec 32)
  | schedIndDone
  | reclaimStart (src : Src) (val : BitVec 32)
  | reclaimDone
  | hashKeyWrite (src : Src) (w : Fin 8) (val : BitVec 32)
  | gaugeCrossing (g : Fin 64)
  | flInstall (e : EngId)
  | installCommit (e : EngId)
  | flLookup (e : EngId)
  | flRead (e : EngId)
  | flModify (e : EngId)
  | flRelease (e : EngId)
  | flRemove (e : With EngId (Option (Nat × Bool)))
  | flowRemoveComplete (f : BitVec 20)
  | flEnq (e : EngId)
  | puntPop (e : EngId)
  | puntPopComplete (e : EngId)
  | puntDispose (e : EngId)
  | schedRead (e : EngId)
  | schedWrite (e : EngId)
  | spillWrite (x : SpillMeets)
  | spillFetch (f : With (BitVec 20) (List Nat))
  -- Photonic control loops and analog edge (spec/08, spec/09)
  | weirTick (o : Oct) (ins : List (List (BitVec 14)))
  | modeSet (src : Src) (o : Oct) (val : BitVec 32)
  | lCtrlWrite (src : Src) (o : Oct) (j : Fin 20) (val : BitVec 32)
  | dwInit (src : Src) (o : Oct) (j : Fin 20) (val : BitVec 32)
  | targetWrite (src : Src) (o : Oct) (j : Fin 20) (val : BitVec 32)
  | integLoStage (src : Src) (o : Oct) (j : Fin 20) (val : BitVec 32)
  | integPreset (src : Src) (o : Oct) (j : Fin 20) (val : BitVec 32)
  | rcDataRead (src : Src) (o : Oct)
  | rcDataWrite (src : Src) (o : Oct) (val : BitVec 32)
  | weirSnap (e : EngId) (o : Oct)
  | weirMode (e : EngId) (o : Oct)
  | weirTarget (e : EngId) (o : Oct)
  | weirPreset (e : EngId) (o : Oct)
  | rcClear (e : EngId) (o : Oct)
  | scanStart (src : Src) (o : Oct) (val : BitVec 32)
  | scanStop (src : Src) (o : Oct) (val : BitVec 32)
  | scanModeChange (src : Src) (o : Oct) (val : BitVec 32)
  | scanMaskWrite (src : Src) (o : Oct) (val : BitVec 32)
  | chainConfigWrite (src : Src) (o : Oct) (i : Fin 20) (val : BitVec 32)
  | refSelect (src : Src) (o : Oct) (val : BitVec 32)
  | refSettled (o : Oct)
  | refFail (o : Oct)
  | outputEnableWrite (src : Src) (o : Oct) (val : BitVec 32)
  | heaterDropout (o : Oct) (j : Fin 16)
  | heaterRegulation (o : Oct) (j : Fin 16)
  | refCalStart (src : Src) (o : Oct) (val : BitVec 32)
  | refCalDone (o : Oct) (range : Bool) (z f : Int)
  -- Register accesses (spec/00, spec/15)
  | registerWrite (src : Src) (off : BitVec 26) (whole : Bool) (val : BitVec 32)
  | readClear (src : Src) (off : BitVec 26) (whole : Bool)
  -- DMA, counters, registers and images over channels (spec/07)
  | dmaCopy (e : EngId)
  | dmaCopyDone (e : With EngId (List Nat))
  | ctrRead (e : EngId)
  | regRead (e : EngId)
  | regWrite (e : EngId)
  | regAccessArrive (e : EngId)
  | imgHalt (e : EngId)
  | imgDrain (e : EngId)
  | imgDrainDone (e : EngId)
  | imgLoad (e : EngId)
  | imgLoadDone (e : EngId)
  | imgStart (e : EngId)
  | imgState (e : EngId)
  -- Memory and integrity (spec/10)
  | regionWrite (src : Src) (k : Fin 16) (which : Fin 3) (val : BitVec 32)
  | dramGrant (c : With (Fin 32) (Option Nat)) (waiting : List DramReq)
  | refresh
  | mr4Read (mult : Fin 4) (hot : Bool)
  | rewrite (src : Src) (val : BitVec 32)
  | rewriteDone
  | scrubRead (space : Fin 5) (raced : Bool)
  | eccTestAccess (src : Src) (val : BitVec 32)
  | scrubLogPop (src : Src)
  -- Interrupts and counters (spec/11)
  | sourceLevelChange (n : Fin 512)
  | swpendWrite (src : Src) (w : Fin 16) (val : BitVec 32)
  | swclrWrite (src : Src) (w : Fin 16) (val : BitVec 32)
  | hostClaim
  | hostEoi
  | targetFlush (src : Src) (t : Fin 9) (val : BitVec 32)
  | counterGroupClear (src : Src) (val : BitVec 32)
  | counterReadLatch (src : Src) (n : Fin 8192)
  | counterSnapshot (src : Src) (val : BitVec 32)
  | dumpEnable (src : Src) (val : BitVec 32)
  | dumpDisable (src : Src) (val : BitVec 32)
  | dumpLatch
  | dumpNow (src : Src) (val : BitVec 32)
  | dumpRecordDone
  -- Power and thermal (spec/12)
  | profileRequest (src : Src) (val : BitVec 32)
  | polderRequest (src : Src) (val : BitVec 32)
  | polderEntry
  | drainEnd
  | drainTimeout
  | polderExit
  | entryAbandon
  | dramIdleTimeout
  | dramDemand
  | dramWakeDone
  | padRelease (src : Src) (dram : Bool) (val : BitVec 32)
  | acctModeWrite (src : Src) (val : BitVec 32)
  | pwrChRequest (e : EngId)
  | pwrChPark (e : EngId)
  | pwrChStatus (e : EngId)
  | pwrChRelease (e : EngId)
  | thmChRead (e : EngId)
  | thmChCap (e : EngId)
  | pfailAssert
  | autoGasp
  | autoNvRecord
  | pfailClear
  | thermalScan (r : List (Option Int))
  | sensorInclude (src : Src) (n : Fin 176) (val : BitVec 32)
  | throttleStep (p : Fin 48)
  | forcedStop (p : Fin 48)
  | forcedStopRun (p : Fin 48)
  | sentinelRead (r0 r1 r2 r3 : Int)
  -- Security, NV store and debug port (spec/13)
  | lcToManufacture
  | secRandom (e : EngId)
  | keyLoad (e : EngId)
  | keyClear (e : EngId)
  | rrCheck (e : EngId)
  | lcAdvance (e : EngId)
  | rollbackSet (e : EngId)
  | fuseWrite (e : EngId)
  | trngHealthFail
  | secretDestruction
  | nvRead (e : EngId)
  | nvWrite (e : EngId)
  | nvRecord (e : EngId)
  | nvDataLoRead (src : Src)
  | nvDataHiRead (src : Src)
  | nvDataHiWrite (val : BitVec 32)
  | tapReset
  | extest (pins shift : Nat)
  | samplePreload (pins shift : Nat)
  | idcode
  | bypass
  | dbgChal
  | dbgResp (resp : BitVec 1568)
  | dbgRespChecked
  | dbgStatus
  | dbgLock (b : Bool)
  | dbgHold (mask : BitVec 49)
  | dbgNop
  | dbgRegRead (addr : BitVec 32)
  | dbgRegWrite (addr data : BitVec 32)
  | dbgEngHalt (sel : BitVec 8)
  | dbgEngResume (sel : BitVec 8)
  | dbgEngStep (sel : BitVec 8)
  | dbgEngRegRead (sel : BitVec 8) (addr : BitVec 32)
  | dbgEngRegWrite (sel : BitVec 8) (addr : BitVec 32) (data : DWord)
  | dbgStoreRead (sel : BitVec 8) (addr : BitVec 32)
  | dbgStoreWrite (sel : BitVec 8) (addr : BitVec 32) (data : DWord)
  | dbgFuseStage (addr data : BitVec 32)
  | dbgFuseWrite (addr : BitVec 32)
  -- Self-test (spec/14)
  | bistMem (w : Via)
  | bistLbist (w : Via)
  | bistAnalog (w : Via)
  | bistAon (w : Via)
  | bistTestEnd (t : Fin 49) (x : BistResult)
  | bistStatus (e : EngId)
  | fuseRepairs (e : EngId)
  -- Host, resets and boot (spec/15, spec/16)
  | bar2Access (off : BitVec 34) (op : B2Op)
  | sqDoorbell (src : Src) (q : Fin 64) (val : BitVec 32)
  | cqHeadWrite (src : Src) (q : Fin 64) (val : BitVec 32)
  | queueEnable (src : Src) (q : Fin 64) (val : BitVec 32)
  | queueDisable (src : Src) (q : Fin 64) (val : BitVec 32)
  | hostFrameDelivery (q : Fin 64) (entry : BitVec 256)
  | hostFrameInject (q : Fin 64) (entry : BitVec 256) (fr : FrameRead)
  | queueTimerExpiry (q : Fin 64)
  | queueStop (q : Fin 64)
  | d3hotEntry
  | d0Entry
  | pmeResend
  | errLogPop (src : Src)
  | coldReset
  | warmReset (w : Option (Src × BitVec 32))
  | functionReset (kind : Fin 4)
  | polderReset (src : Src) (val : BitVec 32)
  | polderResetDone
  | healthyKick (src : Src) (val : BitVec 32)
  | healthyTimeout
  | bootRomStart (fl : Flash) (bist : List (Fin 49 × Fin 4 × BistResult))
  | ddrTrainStart (src : Src) (val : BitVec 32)
  | ddrTrainDone (fail : BitVec 32) (mr8 : Byte)
  | smbTempMax
  | smbTempSent
  | smbTempEngine
  | smbProfile
  | smbHealth
  | smbBootErr
  | smbVcore
  | vcoreRequestChange (mv : BitVec 10)
  | pcieLinkUp (speed : Fin 5) (width : Fin 4)
  | configurationRequest (r : CfgReq)
  | trngOutputResume
  | dbgCommandComplete
  deriving DecidableEq, Repr

end Sys2Proof
end

