-- ==== Sys2Proof/Config.lean ====
section
/-! DEFINITION. What one part fixes and the spec leaves open: opaque constants with no body, so that no proof can use a
value of them. Each is named in the assumption log. -/

namespace Sys2Proof

/-- The n-th value of the machine's free-value stream (log 2). -/
opaque Config.freeValue : Nat → BitVec 64

/-- The random reset value of word w of HASH_KEY (R155: drawn at reset; log 4). -/
opaque Config.hashKeyReset : Nat → BitVec 32

/-- The trim or training result the PHY register at BAR0 offset a holds (R395; log 5). -/
opaque Config.phyTrim : Nat → BitVec 16

/-- Whether the tokens a shaper of this RATE gains in a C-cycle are rounded up to 2^-32 byte (R178 gives the resolution only; log 10). -/
opaque Config.rateUp : Nat → Bool

/-- Whether a result that falls between two steps, and whose rounding the spec does not state, is rounded up: by the place in the
data path, the numerator and the denominator (log 91). -/
opaque Config.roundUp : Nat → Int → Nat → Bool

/-- Whether a value equal to a decision threshold counts as above it (R58 does not say; log 92). -/
opaque Config.tieUp : Int → Bool

/-- The data by which the LMS multiplies the error for DFE H1, MLSE H1 and H2 and the three thresholds (R62 names none): by the
parameter, the decision and the two before it (log 93). -/
opaque Config.lmsData : Nat → Int → Int → Int → Int

/-- The magnitude of a log-likelihood ratio: from the distance or metric difference it is derived from and LMS_MSE.MSE (R61 states
no formula; log 94). -/
opaque Config.llrMag : Nat → Nat → Nat → Nat

/-- Coefficient n of one half of the monitor resampler's symmetric prototype filter (R261 states its properties and no coefficient; log 118). -/
opaque Config.filterTap : Nat → Rat

/-- The fused silicon revision, manufacturer identity and Vendor ID (R356, R380; log 22). -/
opaque Config.revision : BitVec 4
opaque Config.manufacturer : BitVec 11
opaque Config.vendor : BitVec 16

end Sys2Proof
end

