-- ==== Sys2Proof/Machine/Bits.lean ====
section
/-! DEFINITION. Bit fields, signed readings, clamping and rounding: the arithmetic every family uses. -/

namespace Sys2Proof.Machine

/-- Bits hi down to lo of v. -/
def getBits (v hi lo : Nat) : Nat := v / 2 ^ lo % 2 ^ (hi + 1 - lo)

/-- v with bits hi down to lo replaced by the low bits of x. -/
def putBits (v hi lo x : Nat) : Nat :=
  v / 2 ^ (hi + 1) * 2 ^ (hi + 1) + x % 2 ^ (hi + 1 - lo) * 2 ^ lo + v % 2 ^ lo

/-- Bit i of v. -/
def bit (v i : Nat) : Bool := v / 2 ^ i % 2 == 1

/-- v with bit i set to b. -/
def putBit (v i : Nat) (b : Bool) : Nat := putBits v i i (if b then 1 else 0)

/-- The two's complement reading of a w-bit value. -/
def toS (w v : Nat) : Int := if 2 * v < 2 ^ w then (v : Int) else (v : Int) - 2 ^ w

/-- The w-bit two's complement form of an integer. -/
def ofS (w : Nat) (i : Int) : Nat := (i % 2 ^ w).toNat

/-- i limited to the range lo to hi. -/
def clampI (lo hi i : Int) : Int := if i < lo then lo else if hi < i then hi else i

/-- v limited to the range lo to hi. -/
def clampN (lo hi v : Nat) : Nat := if v < lo then lo else if hi < v then hi else v

/-- num / den rounded to the nearest integer, halves away from zero (R44); den positive. -/
def roundDiv (num : Int) (den : Nat) : Int :=
  if 0 ≤ num then ((2 * num.toNat + den) / (2 * den) : Nat) else - (((2 * (-num).toNat + den) / (2 * den) : Nat) : Int)

/-- num / den truncated toward minus infinity; den positive. -/
def floorDiv (num : Int) (den : Nat) : Int := num.fdiv den

/-- A rational rounded to the nearest integer, halves away from zero (R44). -/
def roundRat (r : Rat) : Int := roundDiv r.num r.den

/-- num / den as an integer where the spec states no rounding: exact where it divides, else up or down as the part does (log 91). -/
def openDiv (site : Nat) (num : Int) (den : Nat) : Int :=
  num.fdiv den + (if num % den = 0 then 0 else if Config.roundUp site num den then 1 else 0)

/-- Add n to v and stop at top. -/
def satAdd (top v n : Nat) : Nat := if top < v + n then top else v + n

/-- 1 for true, 0 for false. -/
def b2n (b : Bool) : Nat := if b then 1 else 0

/-- The number of ones among bits 0 to n - 1 of v. -/
def popCount (v : Nat) : Nat → Nat
  | 0 => 0
  | n + 1 => popCount v n + b2n (bit v n)

/-- Bit i of a bitmap held in two 32-bit words. -/
def bit2 (lo hi i : Nat) : Bool := if i < 32 then bit lo i else bit hi (i - 32)

/-- The bytes of the low n bytes of v, least significant first. -/
def bytesLE (v : Nat) : Nat → List Byte
  | 0 => []
  | n + 1 => BitVec.ofNat 8 v :: bytesLE (v / 256) n

/-- The value of bytes given least significant first. -/
def leNat : List Byte → Nat
  | [] => 0
  | b :: t => b.toNat + 256 * leNat t

/-- The value of bytes given most significant first. -/
def beNat (l : List Byte) : Nat := l.foldl (fun v b => v * 256 + b.toNat) 0

end Sys2Proof.Machine
end

