-- ==== Sys2Proof/Machine/Tbl.lean ====
section
/-! DEFINITION. Sparse tables: a list of key and value pairs with rising keys and no entry equal to what an unlisted key
reads as, so that equal contents are equal lists. `Tbl.set` keeps that form. -/

namespace Sys2Proof.Machine

/-- A table from numbers to values of α. -/
abbrev Tbl (α : Type) := List (Nat × α)

/-- The value at key k; d where k is not listed. -/
def Tbl.get {α : Type} (d : α) : Tbl α → Nat → α
  | [], _ => d
  | (a, v) :: t, k => if a = k then v else Tbl.get d t k

/-- The table with k listed as v. -/
def Tbl.ins {α : Type} (k : Nat) (v : α) : Tbl α → Tbl α
  | [] => [(k, v)]
  | (a, w) :: t => if k < a then (k, v) :: (a, w) :: t else if a = k then (k, v) :: t else (a, w) :: Tbl.ins k v t

/-- The table with k no longer listed. -/
def Tbl.del {α : Type} (k : Nat) : Tbl α → Tbl α
  | [] => []
  | (a, w) :: t => if a = k then Tbl.del k t else (a, w) :: Tbl.del k t

/-- The table with v at k, where d is what an unlisted k reads as. -/
def Tbl.set {α : Type} [DecidableEq α] (d : α) (t : Tbl α) (k : Nat) (v : α) : Tbl α :=
  if v = d then Tbl.del k t else Tbl.ins k v t

/-- The canonical form: keys strictly rising, no entry equal to the default of its key. -/
def Tbl.wf {α : Type} [DecidableEq α] (d : Nat → α) : Tbl α → Bool
  | [] => true
  | (a, v) :: t => (v != d a) && t.all (fun e => decide (a < e.1)) && Tbl.wf d t

end Sys2Proof.Machine
end

