-- ==== Sys2Proof/Machine/Mem.lean ====
section
/-! DEFINITION. Byte stores protected word by word (R282, R283): the bytes, and the syndrome of every 64-bit word whose
stored check byte does not match its data. A store's addresses are its own; `Space` says which store an address is in. -/

namespace Sys2Proof.Machine

/-- A protected store: its bytes, and per 64-bit word the stored check byte XOR the computed one (0 = clean). -/
structure Store where
  data : List Host.Cell := []
  synd : List Host.Cell := []
  deriving DecidableEq, Repr

/-- What a byte that nothing has written reads as: 0. The engine stores are cleared by reset (R188); for the other
stores the spec gives no contents (log 3). -/
def Store.unlisted : Byte := 0

/-- The canonical form of a memory: rising addresses, and no entry equal to what an unlisted address reads as. -/
def Memory.wf (m : List Host.Cell) : Bool := Tbl.wf (fun _ => Store.unlisted) m

/-- Both lists of a store are canonical. -/
def Store.wf (s : Store) : Bool := Memory.wf s.data && Memory.wf s.synd

/-- The byte at an address. -/
def Store.byte (s : Store) (a : Nat) : Byte := Tbl.get Store.unlisted s.data a

/-- The syndrome of word i. -/
def Store.syndrome (s : Store) (i : Nat) : Byte := Tbl.get Store.unlisted s.synd i

/-- The store with one byte replaced; the syndromes are kept. -/
def Store.setByte (s : Store) (a : Nat) (b : Byte) : Store := { s with data := Tbl.set Store.unlisted s.data a b }

/-- The store with the syndrome of word i replaced. -/
def Store.setSynd (s : Store) (i : Nat) (b : Byte) : Store := { s with synd := Tbl.set Store.unlisted s.synd i b }

/-- n bytes from address a upward. -/
def Store.bytes (s : Store) (a : Nat) : Nat → List Byte
  | 0 => []
  | n + 1 => s.byte a :: Store.bytes s (a + 1) n

/-- The store with the bytes of a list written from address a upward; the syndromes are kept. -/
def Store.putBytes (s : Store) (a : Nat) : List Byte → Store
  | [] => s
  | b :: t => Store.putBytes (s.setByte a b) (a + 1) t

/-- The 64-bit word i as stored, little-endian. -/
def Store.raw (s : Store) (i : Nat) : Nat := leNat (s.bytes (8 * i) 8)

/-- The store with word i written whole and clean (R284: a full-word write clears poison). -/
def Store.putWord (s : Store) (i v : Nat) : Store := (s.putBytes (8 * i) (bytesLE v 8)).setSynd i 0

/-- The store with word i written and its check byte that of the data XOR 0xFF (R283). -/
def Store.poisonWord (s : Store) (i v : Nat) : Store := (s.putBytes (8 * i) (bytesLE v 8)).setSynd i 0xFF

/-- The 8-bit values of weight w below n, ascending. -/
def weightCodes (w : Nat) : Nat → List Nat
  | 0 => []
  | n + 1 => weightCodes w n ++ (if popCount n 8 = w then [n] else [])

/-- R283: the column codes h(0) to h(63): the 56 values of weight 3, then the first 8 of weight 5, ascending. -/
def colCodes : List Nat := weightCodes 3 256 ++ (weightCodes 5 256).take 8

/-- R283: the check byte of a 64-bit word: the XOR of the column codes of its one bits. -/
def checkByte (v : Nat) : Nat :=
  (List.range 64).foldl (fun c i => if bit v i then c ^^^ colCodes.getD i 0 else c) 0

/-- The four readings of a syndrome (R283). -/
inductive Reading where
  | clean | single | poisoned | uncorrectable
  deriving DecidableEq, Repr

/-- R283: what a syndrome says of the word read. -/
def readingOf (s : Nat) : Reading :=
  if s = 0 then .clean
  else if s = 0xFF then .poisoned
  else if popCount s 8 = 1 || colCodes.contains s then .single
  else .uncorrectable

/-- R283: the data a read delivers: corrected for a single data-bit error, otherwise as stored. -/
def corrected (s v : Nat) : Nat :=
  match colCodes.findIdx? (· == s) with
  | some i => v ^^^ 2 ^ i
  | none => v

/-- One read of word i: the data delivered and what its syndrome says. -/
def Store.read (s : Store) (i : Nat) : Nat × Reading :=
  (corrected (s.syndrome i).toNat (s.raw i), readingOf (s.syndrome i).toNat)

/-- R279: n low bytes of v stored at byte offset o of word i: merged onto corrected data and written clean, or onto a
word that stays poisoned. -/
def Store.merge (s : Store) (i o n v : Nat) : Store :=
  let (w, r) := s.read i
  let m := putBits w (8 * (o + n) - 1) (8 * o) v
  match r with
  | .clean | .single => s.putWord i m
  | .poisoned | .uncorrectable => s.poisonWord i m

/-- The spaces of the memory block (spec/10, SPACE encoding). -/
inductive Space where
  | dram | flow | cell | loc | shared
  deriving DecidableEq, Repr

/-- The SPACE code. -/
def Space.code : Space → Nat
  | .dram => 0 | .flow => 1 | .cell => 2 | .loc => 3 | .shared => 4

/-- The space of a code; codes above 4 are replaced by 4 (R12). -/
def Space.ofCode : Nat → Space
  | 0 => .dram | 1 => .flow | 2 => .cell | 3 => .loc | _ => .shared

/-- The word of a store that holds word idx of a space: the local stores of the 96 engines and the shared stores of the
12 clusters stand one after another. -/
def Space.word (sp : Space) (cluster engine idx : Nat) : Nat :=
  match sp with
  | .dram | .flow | .cell => idx
  | .loc => (8 * cluster + engine) * 32768 + idx
  | .shared => cluster * 524288 + idx

/-- The number of words of a space; DRAM by its 37-bit addresses (R275). -/
def Space.words : Space → Nat
  | .dram => 2 ^ 34 | .flow => 8388608 | .cell => 33554432 | .loc => 32768 | .shared => 524288

end Sys2Proof.Machine
end

