-- ==== Sys2Proof/Machine/RegMap.lean ====
section
/-! DEFINITION. The BAR0 register map: one row per register of the register tables of spec/01 to spec/15, in the order
of the spec's chapters: its block offset, its replication, and its fields with bits, access code (R10), reset value and
legal values. `RegMap.find` reads the map; `A.<REGISTER>` is a register's BAR0 offset and `R.<REGISTER>.<FIELD>` one of its fields. -/

namespace Sys2Proof.Machine

/-- The access codes of R10; reserved bits are the bits no field covers. -/
inductive Acc where
  | rw | ro | wo | w1c | w1s | rc | rws
  deriving DecidableEq, Repr

/-- The values a field lists as legal (R12, R392): all of them, or an unsigned or signed range. -/
inductive Lim where
  | any
  | range (lo hi : Nat)
  | signed (lo hi : Int)
  deriving DecidableEq, Repr

/-- One field of a register table: bits hi down to lo, access, reset value, legal values. -/
structure RegField where
  hi : Nat
  lo : Nat
  acc : Acc
  reset : Nat
  lim : Lim
  deriving DecidableEq, Repr

/-- One register of a block, replicated n1 times at stride s1 and, within each copy, n2 times at stride s2. -/
structure RegRow where
  off : Nat
  n1 : Nat
  s1 : Nat
  n2 : Nat
  s2 : Nat
  fields : List RegField
  deriving DecidableEq, Repr

/-- A field of one register instance, named by BAR0 offset and bits. -/
structure Fld where
  addr : Nat
  hi : Nat
  lo : Nat
  deriving DecidableEq, Repr

/-- The octet block of R14. -/
def octBase (o : Nat) : Nat := 0x01000000 + o * 0x20000

/-- The lane block of global lane g (R5, R14). -/
def laneBase (g : Nat) : Nat := octBase (g / 8) + (g % 8) * 0x2000

/-! Rows of the lane block (spec/01, 02, 03). -/

/-- RX_STATUS: SCAN_UNAVAIL, SPARE_REPAIR, LMS_DIVERGED, LMS_FROZEN, SWAP_HELD, FADING, ACTIVE_BANK, CAL_STARVED, CAL_STATE, MARKER_LOCK, CDR_LOCK, LOS, MODE. -/
def Row.RX_STATUS : RegRow := ⟨0x0, 1, 4, 1, 4, [⟨15, 15, .ro, 0, .any⟩, ⟨14, 14, .ro, 0, .any⟩, ⟨13, 13, .ro, 0, .any⟩, ⟨12, 12, .ro, 0, .any⟩, ⟨11, 11, .ro, 0, .any⟩, ⟨10, 10, .ro, 0, .any⟩, ⟨9, 9, .ro, 0, .any⟩, ⟨8, 8, .ro, 0, .any⟩, ⟨7, 5, .ro, 0, .any⟩, ⟨4, 4, .ro, 0, .any⟩, ⟨3, 3, .ro, 0, .any⟩, ⟨2, 2, .ro, 1, .any⟩, ⟨1, 0, .ro, 1, .any⟩]⟩
/-- LOS_CTRL: HYST, THR. -/
def Row.LOS_CTRL : RegRow := ⟨0x4, 1, 4, 1, 4, [⟨13, 8, .rw, 4, .range 0 32⟩, ⟨7, 0, .rw, 12, .range 1 64⟩]⟩
/-- CDR_CTRL: BW. -/
def Row.CDR_CTRL : RegRow := ⟨0x8, 1, 4, 1, 4, [⟨1, 0, .rw, 1, .any⟩]⟩
/-- CAL_CTRL: RESUME, TRK_WIN, ACQ_WIN, TRK_SHIFT, ACQ_SHIFT, OFS_EN, GAIN_EN, SKEW_EN, EN. -/
def Row.CAL_CTRL : RegRow := ⟨0x10, 1, 4, 1, 4, [⟨23, 20, .rw, 4, .range 1 15⟩, ⟨19, 16, .rw, 4, .range 0 8⟩, ⟨15, 12, .rw, 0, .range 0 8⟩, ⟨11, 9, .rw, 2, .range 1 7⟩, ⟨8, 6, .rw, 1, .range 1 7⟩, ⟨3, 3, .rw, 1, .any⟩, ⟨2, 2, .rw, 1, .any⟩, ⟨1, 1, .rw, 1, .any⟩, ⟨0, 0, .rw, 1, .any⟩]⟩
/-- CAL_LIMIT: SKEW_STEP, GAIN_STEP, OFS_STEP. -/
def Row.CAL_LIMIT : RegRow := ⟨0x14, 1, 4, 1, 4, [⟨26, 18, .rw, 64, .range 1 511⟩, ⟨17, 9, .rw, 256, .range 1 511⟩, ⟨8, 0, .rw, 64, .range 1 511⟩]⟩
/-- CAL_STATUS: UPDATES, PASS_RUN, WR_PENDING, SW_OVERRIDE, SUSPECT, STARVED_SEEN, STARVED, STATE. -/
def Row.CAL_STATUS : RegRow := ⟨0x18, 1, 4, 1, 4, [⟨31, 16, .ro, 0, .any⟩, ⟨11, 8, .ro, 0, .any⟩, ⟨7, 7, .ro, 0, .any⟩, ⟨6, 6, .w1c, 0, .any⟩, ⟨5, 5, .w1c, 0, .any⟩, ⟨4, 4, .w1c, 0, .any⟩, ⟨3, 3, .ro, 0, .any⟩, ⟨2, 0, .ro, 0, .any⟩]⟩
/-- CAL_SUSPECT_LO: SLICE. -/
def Row.CAL_SUSPECT_LO : RegRow := ⟨0x1C, 1, 4, 1, 4, [⟨31, 0, .w1c, 0, .any⟩]⟩
/-- CAL_SUSPECT_HI: SLICE. -/
def Row.CAL_SUSPECT_HI : RegRow := ⟨0x20, 1, 4, 1, 4, [⟨31, 0, .w1c, 0, .any⟩]⟩
/-- CAL_COEF: SKEW, GAIN, OFFSET. -/
def Row.CAL_COEF : RegRow := ⟨0x100, 65, 4, 1, 4, [⟨31, 22, .rw, 0, .any⟩, ⟨21, 10, .rw, 2048, .any⟩, ⟨9, 0, .rw, 0, .any⟩]⟩
/-- SPARE_CTRL: XCHK_LIMIT, REPAIR_SLICE, XCHK_EN, REPAIR_EN. -/
def Row.SPARE_CTRL : RegRow := ⟨0x300, 1, 4, 1, 4, [⟨23, 20, .rw, 2, .range 1 15⟩, ⟨13, 8, .rw, 0, .any⟩, ⟨1, 1, .rw, 1, .any⟩, ⟨0, 0, .rw, 0, .any⟩]⟩
/-- SPARE_STATUS: MODE, SLICE, TAKEOVER_PEND, FUSED, SPARE_SUSPECT, XCHK_FAILS. -/
def Row.SPARE_STATUS : RegRow := ⟨0x304, 1, 4, 1, 4, [⟨31, 30, .ro, 0, .any⟩, ⟨29, 24, .ro, 0, .any⟩, ⟨23, 23, .ro, 0, .any⟩, ⟨22, 22, .ro, 0, .any⟩, ⟨21, 21, .w1c, 0, .any⟩, ⟨15, 0, .rc, 0, .any⟩]⟩
/-- FFE_CTRL: CURSOR_B, CURSOR_A. -/
def Row.FFE_CTRL : RegRow := ⟨0x400, 1, 4, 1, 4, [⟨21, 16, .rw, 8, .range 0 47⟩, ⟨13, 8, .rw, 8, .range 0 47⟩]⟩
/-- FFE_BANK_SEL: SEL, FADE_K. -/
def Row.FFE_BANK_SEL : RegRow := ⟨0x404, 1, 4, 1, 4, [⟨8, 8, .rw, 0, .any⟩, ⟨4, 0, .rw, 10, .range 4 16⟩]⟩
/-- FFE_STATUS: DROP_CNT, HELD_K, HELD_BANK, SWAP_HELD, ACTIVE_WR, FADING, TARGET, ACTIVE. -/
def Row.FFE_STATUS : RegRow := ⟨0x408, 1, 4, 1, 4, [⟨31, 16, .rc, 0, .any⟩, ⟨12, 8, .ro, 0, .any⟩, ⟨7, 7, .ro, 0, .any⟩, ⟨6, 6, .ro, 0, .any⟩, ⟨5, 5, .w1c, 0, .any⟩, ⟨4, 4, .ro, 0, .any⟩, ⟨3, 3, .ro, 0, .any⟩, ⟨2, 2, .ro, 0, .any⟩]⟩
/-- FFE_A: COEF. -/
def Row.FFE_A : RegRow := ⟨0x500, 48, 4, 1, 4, [⟨9, 0, .rw, 0, .any⟩]⟩
/-- FFE_B: COEF. -/
def Row.FFE_B : RegRow := ⟨0x600, 48, 4, 1, 4, [⟨9, 0, .rw, 0, .any⟩]⟩
/-- DFE_CTRL: H1, ADAPT, EN. -/
def Row.DFE_CTRL : RegRow := ⟨0x700, 1, 4, 1, 4, [⟨15, 8, .rw, 0, .range 0 128⟩, ⟨1, 1, .rw, 1, .any⟩, ⟨0, 0, .rw, 0, .any⟩]⟩
/-- MLSE_CTRL: H2, H1, ADAPT. -/
def Row.MLSE_CTRL : RegRow := ⟨0x710, 1, 4, 1, 4, [⟨23, 16, .rw, 0, .any⟩, ⟨15, 8, .rw, 0, .any⟩, ⟨0, 0, .rw, 1, .any⟩]⟩
/-- LMS_CTRL: LEAK, UPD, MU_TRK, MU_ACQ, THR_ADAPT, CURSOR_ADAPT, EN. -/
def Row.LMS_CTRL : RegRow := ⟨0x800, 1, 4, 1, 4, [⟨23, 20, .rw, 0, .any⟩, ⟨19, 16, .rw, 4, .range 0 10⟩, ⟨15, 11, .rw, 16, .range 8 24⟩, ⟨10, 6, .rw, 12, .range 8 24⟩, ⟨5, 5, .rw, 0, .any⟩, ⟨4, 4, .rw, 1, .any⟩, ⟨0, 0, .rw, 1, .any⟩]⟩
/-- LMS_STATUS: UPDATES, DIVERGED, FROZEN, TAP_LIMIT, BY_FADE, BY_CAL, BY_SW. -/
def Row.LMS_STATUS : RegRow := ⟨0x804, 1, 4, 1, 4, [⟨31, 16, .ro, 0, .any⟩, ⟨7, 7, .ro, 0, .any⟩, ⟨6, 6, .ro, 1, .any⟩, ⟨5, 5, .w1c, 0, .any⟩, ⟨4, 4, .ro, 0, .any⟩, ⟨3, 3, .ro, 1, .any⟩, ⟨2, 2, .ro, 0, .any⟩]⟩
/-- LMS_MSE: ALARM_THR, MSE. -/
def Row.LMS_MSE : RegRow := ⟨0x808, 1, 4, 1, 4, [⟨31, 16, .rw, 8192, .any⟩, ⟨15, 0, .ro, 0, .any⟩]⟩
/-- DEC_THR: THR_HI, THR_MID, THR_LO. -/
def Row.DEC_THR : RegRow := ⟨0x810, 1, 4, 1, 4, [⟨23, 16, .rw, 0, .signed (-32) 31⟩, ⟨15, 8, .rw, 0, .signed (-32) 31⟩, ⟨7, 0, .rw, 0, .signed (-32) 31⟩]⟩
/-- LAT_RX: VALID, ELASTIC, DESKEW, APT_LATE, RX_L. -/
def Row.LAT_RX : RegRow := ⟨0x1F00, 1, 4, 1, 4, [⟨31, 31, .ro, 0, .any⟩, ⟨30, 30, .ro, 0, .any⟩, ⟨29, 23, .ro, 0, .any⟩, ⟨22, 22, .ro, 0, .any⟩, ⟨21, 13, .ro, 0, .any⟩]⟩
/-- LAT_TX: VALID, APT_LATE, TX_L. -/
def Row.LAT_TX : RegRow := ⟨0x1F04, 1, 4, 1, 4, [⟨31, 31, .ro, 0, .any⟩, ⟨22, 22, .ro, 0, .any⟩, ⟨21, 13, .ro, 0, .any⟩]⟩
/-- TX_CTRL: AMP, INVERT. -/
def Row.TX_CTRL : RegRow := ⟨0x1000, 1, 4, 1, 4, [⟨15, 8, .rw, 80, .range 1 84⟩, ⟨0, 0, .rw, 0, .any⟩]⟩
/-- TX_FFE: PRE2, PRE1, MAIN, POST1, POST2. -/
def Row.TX_FFE : RegRow := ⟨0x1004, 1, 4, 1, 4, [⟨28, 24, .rw, 0, .signed (-8) 8⟩, ⟨23, 18, .rw, 0, .signed (-16) 16⟩, ⟨17, 11, .rw, 64, .range 16 64⟩, ⟨10, 5, .rw, 0, .signed (-16) 16⟩, ⟨4, 0, .rw, 0, .signed (-8) 8⟩]⟩
/-- TX_STATUS: SAT_CNT, FFE_CLAMP, PD_WR_IGN, PD_PAGE. -/
def Row.TX_STATUS : RegRow := ⟨0x1008, 1, 4, 1, 4, [⟨31, 16, .rc, 0, .any⟩, ⟨2, 2, .w1c, 0, .any⟩, ⟨1, 1, .w1c, 0, .any⟩, ⟨0, 0, .ro, 0, .any⟩]⟩
/-- TX_PRESET2: PRE2, PRE1, MAIN, POST1, POST2. -/
def Row.TX_PRESET2 : RegRow := ⟨0x1010, 1, 4, 1, 4, [⟨28, 24, .rw, 0, .signed (-8) 8⟩, ⟨23, 18, .rw, 0, .signed (-16) 16⟩, ⟨17, 11, .rw, 64, .range 16 64⟩, ⟨10, 5, .rw, 0, .signed (-16) 16⟩, ⟨4, 0, .rw, 0, .signed (-8) 8⟩]⟩
/-- TX_PRESET3: PRE2, PRE1, MAIN, POST1, POST2. -/
def Row.TX_PRESET3 : RegRow := ⟨0x1014, 1, 4, 1, 4, [⟨28, 24, .rw, 0, .signed (-8) 8⟩, ⟨23, 18, .rw, 0, .signed (-16) 16⟩, ⟨17, 11, .rw, 64, .range 16 64⟩, ⟨10, 5, .rw, 0, .signed (-16) 16⟩, ⟨4, 0, .rw, 0, .signed (-8) 8⟩]⟩
/-- PD_CTRL: EN, PAGE. -/
def Row.PD_CTRL : RegRow := ⟨0x1020, 1, 4, 1, 4, [⟨1, 1, .rw, 0, .any⟩, ⟨0, 0, .rw, 0, .any⟩]⟩
/-- PD_P0: CORR. -/
def Row.PD_P0 : RegRow := ⟨0x1100, 64, 4, 1, 4, [⟨7, 0, .rw, 0, .any⟩]⟩
/-- PD_P1: CORR. -/
def Row.PD_P1 : RegRow := ⟨0x1200, 64, 4, 1, 4, [⟨7, 0, .rw, 0, .any⟩]⟩
/-- PWR_CTRL: DEEP, RXQ, TXQ. -/
def Row.PWR_CTRL : RegRow := ⟨0x1300, 1, 4, 1, 4, [⟨2, 2, .rw, 1, .any⟩, ⟨1, 1, .rw, 0, .any⟩, ⟨0, 0, .rw, 0, .any⟩]⟩
/-- LPWR_STATUS: BUSY, QUEUED, RX_STATE, TX_STATE. -/
def Row.LPWR_STATUS : RegRow := ⟨0x1304, 1, 4, 1, 4, [⟨7, 7, .ro, 0, .any⟩, ⟨6, 6, .ro, 0, .any⟩, ⟨5, 4, .ro, 2, .any⟩, ⟨3, 2, .ro, 2, .any⟩]⟩
/-- TRN_CTRL: START, LOCAL_READY, RETRIES, RESEND, LIMIT. -/
def Row.TRN_CTRL : RegRow := ⟨0x1400, 1, 4, 1, 4, [⟨31, 31, .rw, 0, .any⟩, ⟨30, 30, .rw, 0, .any⟩, ⟨27, 24, .rw, 5, .range 1 15⟩, ⟨23, 16, .rw, 20, .range 5 255⟩, ⟨15, 8, .rw, 100, .range 1 255⟩]⟩
/-- TRN_REQ: SEQ, PRESET, CMD tap by tap: 0b11 is reserved in each (R12). -/
def Row.TRN_REQ : RegRow := ⟨0x1404, 1, 4, 1, 4, [⟨14, 12, .ro, 0, .any⟩, ⟨11, 10, .rw, 0, .any⟩, ⟨9, 8, .rw, 0, .range 0 2⟩, ⟨7, 6, .rw, 0, .range 0 2⟩, ⟨5, 4, .rw, 0, .range 0 2⟩, ⟨3, 2, .rw, 0, .range 0 2⟩, ⟨1, 0, .rw, 0, .range 0 2⟩]⟩
/-- TRN_STATUS: REQ_PEND, REQ_BUSY, REQ_TIMEOUT, STATE, CAUSE, FAR_READY, FAR_SEEN, SEEN_SENT, RETRAIN, RETRY_CNT, RSP_SEQ, ST. -/
def Row.TRN_STATUS : RegRow := ⟨0x1408, 1, 4, 1, 4, [⟨31, 31, .ro, 0, .any⟩, ⟨30, 30, .w1c, 0, .any⟩, ⟨29, 29, .w1c, 0, .any⟩, ⟨28, 26, .ro, 0, .any⟩, ⟨25, 24, .ro, 0, .any⟩, ⟨23, 23, .ro, 0, .any⟩, ⟨22, 22, .ro, 0, .any⟩, ⟨21, 21, .ro, 0, .any⟩, ⟨20, 20, .w1c, 0, .any⟩, ⟨19, 16, .ro, 0, .any⟩, ⟨15, 13, .ro, 0, .any⟩, ⟨9, 0, .ro, 0, .any⟩]⟩
/-- TRN_FAR: VALID, LAST_SEQ, LAST_PRESET, LAST_ST. -/
def Row.TRN_FAR : RegRow := ⟨0x140C, 1, 4, 1, 4, [⟨31, 31, .ro, 0, .any⟩, ⟨14, 12, .ro, 0, .any⟩, ⟨11, 10, .ro, 0, .any⟩, ⟨9, 0, .ro, 0, .any⟩]⟩
/-- LB_CTRL: PAD_MUTE, MODE. -/
def Row.LB_CTRL : RegRow := ⟨0x1500, 1, 4, 1, 4, [⟨3, 3, .rw, 0, .any⟩, ⟨2, 0, .rw, 0, .range 0 3⟩]⟩
/-- LB_STATUS: SLIPS, ACTIVE. -/
def Row.LB_STATUS : RegRow := ⟨0x1504, 1, 4, 1, 4, [⟨31, 16, .rc, 0, .any⟩, ⟨2, 0, .ro, 0, .any⟩]⟩
/-- PAT_CTRL: SYNC, CHK, GEN. -/
def Row.PAT_CTRL : RegRow := ⟨0x1600, 1, 4, 1, 4, [⟨31, 31, .ro, 0, .any⟩, ⟨6, 4, .rw, 0, .range 0 3⟩, ⟨2, 0, .rw, 0, .range 0 3⟩]⟩
/-- PAT_ERR: ERR. -/
def Row.PAT_ERR : RegRow := ⟨0x1604, 1, 4, 1, 4, [⟨31, 0, .rc, 0, .any⟩]⟩
/-- PAT_BITS: UNITS. -/
def Row.PAT_BITS : RegRow := ⟨0x1608, 1, 4, 1, 4, [⟨31, 0, .ro, 0, .any⟩]⟩
/-- EYE_CTRL: START, ABORT, DWELL, THR, PHASE, VOFS. -/
def Row.EYE_CTRL : RegRow := ⟨0x1700, 1, 4, 1, 4, [⟨31, 31, .wo, 0, .any⟩, ⟨30, 30, .wo, 0, .any⟩, ⟨29, 24, .rw, 20, .range 8 36⟩, ⟨23, 22, .rw, 1, .range 0 2⟩, ⟨21, 15, .rw, 0, .any⟩, ⟨7, 0, .rw, 0, .signed (-127) 127⟩]⟩
/-- EYE_STATUS: RESULT. -/
def Row.EYE_STATUS : RegRow := ⟨0x1704, 1, 4, 1, 4, [⟨2, 0, .ro, 0, .any⟩]⟩
/-- EYE_ERR: ERR. -/
def Row.EYE_ERR : RegRow := ⟨0x1708, 1, 4, 1, 4, [⟨31, 0, .ro, 0, .any⟩]⟩
/-- CAP_CTRL: EN, MARK, REWIND, TRIG_SW, SRC, DEC, TRIG_SEL, STOP, SIZE, POST. -/
def Row.CAP_CTRL : RegRow := ⟨0x1800, 1, 4, 1, 4, [⟨31, 31, .rw, 0, .any⟩, ⟨30, 30, .wo, 0, .any⟩, ⟨29, 29, .wo, 0, .any⟩, ⟨28, 28, .wo, 0, .any⟩, ⟨27, 26, .rw, 0, .any⟩, ⟨25, 22, .rw, 3, .any⟩, ⟨21, 18, .rw, 0, .any⟩, ⟨17, 17, .rw, 0, .any⟩, ⟨16, 12, .rw, 8, .range 4 20⟩, ⟨7, 0, .rw, 128, .any⟩]⟩
/-- CAP_BASE_LO: ADDR. -/
def Row.CAP_BASE_LO : RegRow := ⟨0x1804, 1, 4, 1, 4, [⟨31, 12, .rw, 0, .any⟩]⟩
/-- CAP_BASE_HI: ADDR. -/
def Row.CAP_BASE_HI : RegRow := ⟨0x1808, 1, 4, 1, 4, [⟨4, 0, .rw, 0, .any⟩]⟩
/-- CAP_WR: PAGE. -/
def Row.CAP_WR : RegRow := ⟨0x1810, 1, 4, 1, 4, [⟨19, 0, .ro, 0, .any⟩]⟩
/-- CAP_RD: PAGE. -/
def Row.CAP_RD : RegRow := ⟨0x1814, 1, 4, 1, 4, [⟨19, 0, .rw, 0, .any⟩]⟩
/-- CAP_MARK: VALID, PAGE. -/
def Row.CAP_MARK : RegRow := ⟨0x1818, 1, 4, 1, 4, [⟨31, 31, .ro, 0, .any⟩, ⟨19, 0, .ro, 0, .any⟩]⟩
/-- CAP_STATUS: RUNNING, TRIGGERED, STOPPED, MARK_LOST, OVERRUN, REW_RESULT, DROP. -/
def Row.CAP_STATUS : RegRow := ⟨0x181C, 1, 4, 1, 4, [⟨31, 31, .ro, 0, .any⟩, ⟨30, 30, .ro, 0, .any⟩, ⟨29, 29, .ro, 0, .any⟩, ⟨28, 28, .w1c, 0, .any⟩, ⟨27, 27, .w1c, 0, .any⟩, ⟨26, 24, .ro, 0, .any⟩, ⟨15, 0, .rc, 0, .any⟩]⟩

/-- Every row of the lane block (spec/01, 02, 03). -/
def rows_lane : List RegRow := [
  Row.RX_STATUS, Row.LOS_CTRL, Row.CDR_CTRL, Row.CAL_CTRL, Row.CAL_LIMIT, Row.CAL_STATUS, Row.CAL_SUSPECT_LO, Row.CAL_SUSPECT_HI,
  Row.CAL_COEF, Row.SPARE_CTRL, Row.SPARE_STATUS, Row.FFE_CTRL, Row.FFE_BANK_SEL, Row.FFE_STATUS, Row.FFE_A, Row.FFE_B,
  Row.DFE_CTRL, Row.MLSE_CTRL, Row.LMS_CTRL, Row.LMS_STATUS, Row.LMS_MSE, Row.DEC_THR, Row.LAT_RX, Row.LAT_TX,
  Row.TX_CTRL, Row.TX_FFE, Row.TX_STATUS, Row.TX_PRESET2, Row.TX_PRESET3, Row.PD_CTRL, Row.PD_P0, Row.PD_P1,
  Row.PWR_CTRL, Row.LPWR_STATUS, Row.TRN_CTRL, Row.TRN_REQ, Row.TRN_STATUS, Row.TRN_FAR, Row.LB_CTRL, Row.LB_STATUS,
  Row.PAT_CTRL, Row.PAT_ERR, Row.PAT_BITS, Row.EYE_CTRL, Row.EYE_STATUS, Row.EYE_ERR, Row.CAP_CTRL, Row.CAP_BASE_LO,
  Row.CAP_BASE_HI, Row.CAP_WR, Row.CAP_RD, Row.CAP_MARK, Row.CAP_STATUS]

/-! Rows of the octet block: port and FEC, Tideline, analog edge, loops (spec/01, 04, 05, 08, 09). -/

/-- MODE: TIMING, SPLIT, FEC_MODE, LANE_MODE. -/
def Row.MODE : RegRow := ⟨0x10000, 1, 4, 1, 4, [⟨8, 8, .rw, 1, .any⟩, ⟨5, 4, .rw, 0, .any⟩, ⟨3, 2, .rw, 1, .range 0 1⟩, ⟨1, 0, .rw, 1, .range 0 2⟩]⟩
/-- MODE_COMMIT: REPLACED, PENDING, COMMIT. -/
def Row.MODE_COMMIT : RegRow := ⟨0x10004, 1, 4, 1, 4, [⟨2, 2, .ro, 0, .any⟩, ⟨1, 1, .ro, 0, .any⟩, ⟨0, 0, .wo, 0, .any⟩]⟩
/-- MODE_ACTIVE: TIMING, SPLIT, FEC_MODE, LANE_MODE. -/
def Row.MODE_ACTIVE : RegRow := ⟨0x10008, 1, 4, 1, 4, [⟨8, 8, .ro, 1, .any⟩, ⟨5, 4, .ro, 0, .any⟩, ⟨3, 2, .ro, 1, .any⟩, ⟨1, 0, .ro, 1, .any⟩]⟩
/-- PORT_CTRL: IPG, BER_EN, BER_SHIFT, MAX_FRAME. -/
def Row.PORT_CTRL : RegRow := ⟨0x10010, 1, 4, 1, 4, [⟨23, 20, .rw, 12, .range 8 12⟩, ⟨19, 19, .rw, 1, .any⟩, ⟨18, 16, .rw, 1, .any⟩, ⟨13, 0, .rw, 9728, .range 1518 10240⟩]⟩
/-- FEC_SNAP: CLEAR, SNAP. -/
def Row.FEC_SNAP : RegRow := ⟨0x10014, 1, 4, 1, 4, [⟨8, 8, .wo, 0, .any⟩, ⟨7, 0, .wo, 0, .any⟩]⟩
/-- PORT_STATUS: UP, STATE, MISWIRE, DESKEW_FAIL, SKEW_CHANGE, BER_ALARM, HI_SER, DOWN_CNT. -/
def Row.PORT_STATUS : RegRow := ⟨0x10020, 8, 4, 1, 4, [⟨31, 31, .ro, 0, .any⟩, ⟨30, 28, .ro, 0, .any⟩, ⟨27, 27, .ro, 0, .any⟩, ⟨26, 26, .w1c, 0, .any⟩, ⟨25, 25, .w1c, 0, .any⟩, ⟨24, 24, .w1c, 0, .any⟩, ⟨23, 23, .w1c, 0, .any⟩, ⟨15, 8, .rc, 0, .any⟩]⟩
/-- CW_LO: COUNT. -/
def Row.CW_LO : RegRow := ⟨0x10100, 8, 128, 1, 4, [⟨31, 0, .ro, 0, .any⟩]⟩
/-- CW_HI: COUNT. -/
def Row.CW_HI : RegRow := ⟨0x10104, 8, 128, 1, 4, [⟨31, 0, .ro, 0, .any⟩]⟩
/-- CORR_LO: COUNT. -/
def Row.CORR_LO : RegRow := ⟨0x10108, 8, 128, 1, 4, [⟨31, 0, .ro, 0, .any⟩]⟩
/-- CORR_HI: COUNT. -/
def Row.CORR_HI : RegRow := ⟨0x1010C, 8, 128, 1, 4, [⟨31, 0, .ro, 0, .any⟩]⟩
/-- UNCORR: COUNT. -/
def Row.UNCORR : RegRow := ⟨0x10110, 8, 128, 1, 4, [⟨31, 0, .ro, 0, .any⟩]⟩
/-- SYM_LO: COUNT. -/
def Row.SYM_LO : RegRow := ⟨0x10114, 8, 128, 1, 4, [⟨31, 0, .ro, 0, .any⟩]⟩
/-- SYM_HI: COUNT. -/
def Row.SYM_HI : RegRow := ⟨0x10118, 8, 128, 1, 4, [⟨31, 0, .ro, 0, .any⟩]⟩
/-- HIST: COUNT. -/
def Row.HIST : RegRow := ⟨0x10120, 8, 128, 16, 4, [⟨31, 0, .ro, 0, .any⟩]⟩
/-- BIP_ERR: COUNT. -/
def Row.BIP_ERR : RegRow := ⟨0x10500, 8, 32, 1, 4, [⟨31, 0, .rc, 0, .any⟩]⟩
/-- SYM_ERR: COUNT. -/
def Row.SYM_ERR : RegRow := ⟨0x10504, 8, 32, 1, 4, [⟨31, 0, .rc, 0, .any⟩]⟩
/-- INNER_CORR: COUNT. -/
def Row.INNER_CORR : RegRow := ⟨0x10508, 8, 32, 1, 4, [⟨31, 0, .rc, 0, .any⟩]⟩
/-- INNER_FAIL: COUNT. -/
def Row.INNER_FAIL : RegRow := ⟨0x1050C, 8, 32, 1, 4, [⟨31, 0, .rc, 0, .any⟩]⟩
/-- BER_CNT: COUNT. -/
def Row.BER_CNT : RegRow := ⟨0x10510, 8, 32, 1, 4, [⟨31, 0, .ro, 0, .any⟩]⟩
/-- BER_LIMIT: COUNT. -/
def Row.BER_LIMIT : RegRow := ⟨0x10514, 8, 32, 1, 4, [⟨31, 0, .ro, 9663676, .any⟩]⟩
/-- TSC_CTRL: START. -/
def Row.TSC_CTRL : RegRow := ⟨0x10600, 8, 32, 1, 4, [⟨31, 31, .wo, 0, .any⟩]⟩
/-- TSC_STATUS: VALID, RESULT, TC, TEMP. -/
def Row.TSC_STATUS : RegRow := ⟨0x10604, 8, 32, 1, 4, [⟨31, 31, .ro, 0, .any⟩, ⟨30, 28, .ro, 0, .any⟩, ⟨15, 8, .ro, 0, .any⟩, ⟨7, 0, .ro, 0, .any⟩]⟩
/-- TSC_RX: DELAY. -/
def Row.TSC_RX : RegRow := ⟨0x10608, 8, 32, 1, 4, [⟨19, 0, .ro, 0, .any⟩]⟩
/-- TSC_TX: DELAY. -/
def Row.TSC_TX : RegRow := ⟨0x1060C, 8, 32, 1, 4, [⟨19, 0, .ro, 0, .any⟩]⟩
/-- TS_ADJ_RX: ADJ. -/
def Row.TS_ADJ_RX : RegRow := ⟨0x10610, 8, 32, 1, 4, [⟨31, 0, .rw, 0, .any⟩]⟩
/-- TS_ADJ_TX: ADJ. -/
def Row.TS_ADJ_TX : RegRow := ⟨0x10614, 8, 32, 1, 4, [⟨31, 0, .rw, 0, .any⟩]⟩
/-- TXTS_0: VALID, SLOT, STEPPED, TAG. -/
def Row.TXTS_0 : RegRow := ⟨0x10700, 1, 4, 1, 4, [⟨31, 31, .ro, 0, .any⟩, ⟨26, 24, .ro, 0, .any⟩, ⟨23, 23, .ro, 0, .any⟩, ⟨15, 0, .ro, 0, .any⟩]⟩
/-- TXTS_1: PS. -/
def Row.TXTS_1 : RegRow := ⟨0x10704, 1, 4, 1, 4, [⟨31, 0, .ro, 0, .any⟩]⟩
/-- TXTS_2: PS, SEC. -/
def Row.TXTS_2 : RegRow := ⟨0x10708, 1, 4, 1, 4, [⟨31, 24, .ro, 0, .any⟩, ⟨23, 0, .ro, 0, .any⟩]⟩
/-- TXTS_STATUS: OVF, FILL. -/
def Row.TXTS_STATUS : RegRow := ⟨0x1070C, 1, 4, 1, 4, [⟨31, 16, .rc, 0, .any⟩, ⟨6, 0, .ro, 0, .any⟩]⟩
/-- TL_CTRL: EN, CAPTURE, ACCEPT_ALL, GASP, MUTE_CLR, LANE. -/
def Row.TL_CTRL : RegRow := ⟨0x14000, 1, 4, 1, 4, [⟨31, 31, .rw, 0, .any⟩, ⟨19, 16, .rw, 6, .any⟩, ⟨8, 8, .rw, 0, .any⟩, ⟨7, 7, .wo, 0, .any⟩, ⟨6, 6, .wo, 0, .any⟩, ⟨2, 0, .rw, 0, .any⟩]⟩
/-- TL_ADDR: ADDR. -/
def Row.TL_ADDR : RegRow := ⟨0x14004, 1, 4, 1, 4, [⟨11, 0, .rw, 0, .range 0 4094⟩]⟩
/-- TL_TX_CTRL: GASP_SF, TRN_MOD, TRN_SF, DEPTH. -/
def Row.TL_TX_CTRL : RegRow := ⟨0x14008, 1, 4, 1, 4, [⟨12, 10, .rw, 1, .range 0 1⟩, ⟨9, 9, .rw, 1, .any⟩, ⟨8, 6, .rw, 0, .range 0 4⟩, ⟨4, 0, .rw, 20, .range 0 30⟩]⟩
/-- TL_STATUS: RX_STATE, TX_STATE, AGC_FROZEN, MUTED, CUR_SF, TX_FILL, RX_FILL, CUR_METRIC. -/
def Row.TL_STATUS : RegRow := ⟨0x1400C, 1, 4, 1, 4, [⟨31, 29, .ro, 0, .any⟩, ⟨28, 27, .ro, 0, .any⟩, ⟨26, 26, .ro, 0, .any⟩, ⟨25, 25, .ro, 0, .any⟩, ⟨24, 22, .ro, 0, .any⟩, ⟨19, 16, .ro, 0, .any⟩, ⟨15, 13, .ro, 0, .any⟩, ⟨7, 0, .ro, 128, .any⟩]⟩
/-- DET_THR_LO: SF128, SF64, SF32, SF16. -/
def Row.DET_THR_LO : RegRow := ⟨0x14010, 1, 4, 1, 4, [⟨31, 24, .rw, 184, .any⟩, ⟨23, 16, .rw, 196, .any⟩, ⟨15, 8, .rw, 208, .any⟩, ⟨7, 0, .rw, 220, .any⟩]⟩
/-- DET_THR_HI: SF256. -/
def Row.DET_THR_HI : RegRow := ⟨0x14014, 1, 4, 1, 4, [⟨7, 0, .rw, 172, .any⟩]⟩
/-- TX_DESC: GO, BUSY, TYPE_REJ, SEQ, ADDR, LEN, MOD, SF. -/
def Row.TX_DESC : RegRow := ⟨0x14020, 1, 4, 1, 4, [⟨31, 31, .wo, 0, .any⟩, ⟨30, 30, .w1c, 0, .any⟩, ⟨29, 29, .w1c, 0, .any⟩, ⟨23, 20, .rw, 0, .any⟩, ⟨19, 8, .rw, 4095, .any⟩, ⟨7, 5, .rw, 0, .any⟩, ⟨4, 4, .rw, 1, .any⟩, ⟨2, 0, .rw, 0, .range 0 4⟩]⟩
/-- RX_DESC: VALID, STATUS, SEQ, ADDR, LEN, MOD, SF. -/
def Row.RX_DESC : RegRow := ⟨0x14030, 1, 4, 1, 4, [⟨31, 31, .ro, 0, .any⟩, ⟨30, 28, .ro, 0, .any⟩, ⟨27, 24, .ro, 0, .any⟩, ⟨23, 12, .ro, 0, .any⟩, ⟨11, 9, .ro, 0, .any⟩, ⟨8, 8, .ro, 0, .any⟩, ⟨7, 5, .ro, 0, .any⟩]⟩
/-- RX_INFO: METRIC, BLOCKS_OK. -/
def Row.RX_INFO : RegRow := ⟨0x14034, 1, 4, 1, 4, [⟨31, 24, .ro, 128, .any⟩, ⟨23, 16, .ro, 0, .any⟩]⟩
/-- RX_POP: POP. -/
def Row.RX_POP : RegRow := ⟨0x14038, 1, 4, 1, 4, [⟨0, 0, .wo, 0, .any⟩]⟩
/-- GASP_RX: VALID, REASON, SF, ADDR, COUNT. -/
def Row.GASP_RX : RegRow := ⟨0x14040, 1, 4, 1, 4, [⟨31, 31, .w1c, 0, .any⟩, ⟨30, 27, .ro, 0, .any⟩, ⟨26, 24, .ro, 0, .any⟩, ⟨23, 12, .ro, 0, .any⟩, ⟨7, 0, .rc, 0, .any⟩]⟩
/-- MASK_CTRL: VIOL_BIN, EN. -/
def Row.MASK_CTRL : RegRow := ⟨0x14044, 1, 4, 1, 4, [⟨7, 4, .ro, 0, .any⟩, ⟨0, 0, .rw, 1, .any⟩]⟩
/-- TX_FIR: COEF. -/
def Row.TX_FIR : RegRow := ⟨0x14080, 17, 4, 1, 4, [⟨11, 0, .rw, 0, .any⟩]⟩
/-- TX_BUF: DATA. -/
def Row.TX_BUF : RegRow := ⟨0x14100, 64, 4, 1, 4, [⟨31, 0, .rw, 0, .any⟩]⟩
/-- RX_BUF: DATA. -/
def Row.RX_BUF : RegRow := ⟨0x14200, 64, 4, 1, 4, [⟨31, 0, .ro, 0, .any⟩]⟩
/-- MASK_LIM: LIM. -/
def Row.MASK_LIM : RegRow := ⟨0x14300, 16, 4, 1, 4, [⟨7, 0, .rw, 0, .any⟩]⟩
/-- MASK_PWR: PWR. -/
def Row.MASK_PWR : RegRow := ⟨0x14340, 16, 4, 1, 4, [⟨7, 0, .ro, 128, .any⟩]⟩
/-- TLC: COUNT. -/
def Row.TLC : RegRow := ⟨0x14400, 14, 4, 1, 4, [⟨31, 0, .rc, 0, .any⟩]⟩
/-- AE_CTRL: SCAN_EN, MODE, ALIGN, REF_SEL, SKIP, BLK_EXP. -/
def Row.AE_CTRL : RegRow := ⟨0x18000, 1, 4, 1, 4, [⟨31, 31, .rw, 0, .any⟩, ⟨30, 30, .rw, 0, .any⟩, ⟨29, 29, .rw, 0, .any⟩, ⟨25, 24, .rw, 0, .range 0 2⟩, ⟨23, 18, .rw, 2, .any⟩, ⟨15, 12, .rw, 4, .range 0 12⟩]⟩
/-- AE_SCAN_MASK: MASK. -/
def Row.AE_SCAN_MASK : RegRow := ⟨0x18004, 1, 4, 1, 4, [⟨19, 0, .rw, 1048575, .any⟩]⟩
/-- AE_STATUS: REF_SETTLED, REF_FAIL, ROUND_OVR, SCANNING, RESULT, CAL_VALID, VALID. -/
def Row.AE_STATUS : RegRow := ⟨0x18008, 1, 4, 1, 4, [⟨31, 31, .ro, 0, .any⟩, ⟨30, 30, .w1c, 0, .any⟩, ⟨29, 29, .w1c, 0, .any⟩, ⟨28, 28, .ro, 0, .any⟩, ⟨27, 25, .ro, 0, .any⟩, ⟨24, 22, .ro, 0, .any⟩, ⟨19, 0, .ro, 0, .any⟩]⟩
/-- AE_CAL_CTRL: START. -/
def Row.AE_CAL_CTRL : RegRow := ⟨0x1800C, 1, 4, 1, 4, [⟨31, 31, .wo, 0, .any⟩]⟩
/-- AE_OVR: OVR. -/
def Row.AE_OVR : RegRow := ⟨0x18010, 1, 4, 1, 4, [⟨19, 0, .w1c, 0, .any⟩]⟩
/-- AE_OUT_CTRL: CMD_EN, HTR_EN. -/
def Row.AE_OUT_CTRL : RegRow := ⟨0x18014, 1, 4, 1, 4, [⟨19, 16, .rw, 0, .any⟩, ⟨15, 0, .rw, 0, .any⟩]⟩
/-- AE_DROPOUT: SEEN, LIVE. -/
def Row.AE_DROPOUT : RegRow := ⟨0x18018, 1, 4, 1, 4, [⟨31, 16, .w1c, 0, .any⟩, ⟨15, 0, .ro, 0, .any⟩]⟩
/-- THR_ABOVE: LIVE. -/
def Row.THR_ABOVE : RegRow := ⟨0x18020, 1, 4, 1, 4, [⟨19, 0, .ro, 0, .any⟩]⟩
/-- THR_BELOW: LIVE. -/
def Row.THR_BELOW : RegRow := ⟨0x18024, 1, 4, 1, 4, [⟨19, 0, .ro, 0, .any⟩]⟩
/-- THR_UP_SEEN: SEEN. -/
def Row.THR_UP_SEEN : RegRow := ⟨0x18028, 1, 4, 1, 4, [⟨19, 0, .w1c, 0, .any⟩]⟩
/-- THR_DN_SEEN: SEEN. -/
def Row.THR_DN_SEEN : RegRow := ⟨0x1802C, 1, 4, 1, 4, [⟨19, 0, .w1c, 0, .any⟩]⟩
/-- AE_IRQ_EN: EN. -/
def Row.AE_IRQ_EN : RegRow := ⟨0x18030, 1, 4, 1, 4, [⟨5, 0, .rw, 0, .any⟩]⟩
/-- AE_CAL: GAIN, OFS. -/
def Row.AE_CAL : RegRow := ⟨0x18040, 3, 4, 1, 4, [⟨31, 16, .rw, 32768, .any⟩, ⟨15, 0, .rw, 0, .signed (-8192) 8191⟩]⟩
/-- CH_CFG: RATIO, AVG. -/
def Row.CH_CFG : RegRow := ⟨0x18100, 20, 32, 1, 4, [⟨28, 16, .rw, 4, .range 1 4096⟩, ⟨12, 0, .rw, 2, .range 1 4096⟩]⟩
/-- CH_VALUE: VALID, VALUE. -/
def Row.CH_VALUE : RegRow := ⟨0x18104, 20, 32, 1, 4, [⟨31, 31, .ro, 0, .any⟩, ⟨23, 0, .ro, 0, .any⟩]⟩
/-- CH_RAW: RAW. -/
def Row.CH_RAW : RegRow := ⟨0x18108, 20, 32, 1, 4, [⟨15, 0, .ro, 0, .any⟩]⟩
/-- CH_THR_HI: LEVEL. -/
def Row.CH_THR_HI : RegRow := ⟨0x1810C, 20, 32, 1, 4, [⟨23, 0, .rw, 8388607, .any⟩]⟩
/-- CH_THR_LO: LEVEL. -/
def Row.CH_THR_LO : RegRow := ⟨0x18110, 20, 32, 1, 4, [⟨23, 0, .rw, 8388608, .any⟩]⟩
/-- CH_THR_CFG: HI_EN, LO_EN, HYST. -/
def Row.CH_THR_CFG : RegRow := ⟨0x18114, 20, 32, 1, 4, [⟨31, 31, .rw, 0, .any⟩, ⟨30, 30, .rw, 0, .any⟩, ⟨23, 0, .rw, 0, .range 0 8388607⟩]⟩
/-- CH_DELAY: D2. -/
def Row.CH_DELAY : RegRow := ⟨0x18118, 20, 32, 1, 4, [⟨31, 0, .ro, 0, .any⟩]⟩
/-- WEIR_CTRL: DIV. -/
def Row.WEIR_CTRL : RegRow := ⟨0x1C000, 1, 4, 1, 4, [⟨12, 0, .rw, 655, .range 328 6553⟩]⟩
/-- WEIR_STATUS: PARKED, LOOP_PEND. -/
def Row.WEIR_STATUS : RegRow := ⟨0x1C004, 1, 4, 1, 4, [⟨31, 31, .ro, 1, .any⟩, ⟨19, 0, .ro, 0, .any⟩]⟩
/-- TICK: COUNT. -/
def Row.TICK : RegRow := ⟨0x1C008, 1, 4, 1, 4, [⟨31, 0, .ro, 0, .any⟩]⟩
/-- WEIR_IRQ_EN: EN. -/
def Row.WEIR_IRQ_EN : RegRow := ⟨0x1C00C, 1, 4, 1, 4, [⟨5, 0, .rw, 7, .any⟩]⟩
/-- MODE_SET: MODE, PARK, MASK. -/
def Row.MODE_SET : RegRow := ⟨0x1C010, 1, 4, 1, 4, [⟨31, 30, .wo, 0, .range 0 2⟩, ⟨29, 29, .wo, 0, .any⟩, ⟨19, 0, .wo, 0, .any⟩]⟩
/-- RC_ADDR: ADDR. -/
def Row.RC_ADDR : RegRow := ⟨0x1C020, 1, 4, 1, 4, [⟨14, 0, .rw, 0, .any⟩]⟩
/-- RC_DATA: DATA. -/
def Row.RC_DATA : RegRow := ⟨0x1C024, 1, 4, 1, 4, [⟨31, 0, .rw, 0, .any⟩]⟩
/-- L_CTRL: MODE, DIR, NORM, OUT_MAP, BUMPLESS, SP_TRACK, RC_EN, DW_EN, DW_ACT, DW_INIT, RDIV_EXP. -/
def Row.L_CTRL : RegRow := ⟨0x1C100, 20, 128, 1, 4, [⟨31, 30, .rw, 0, .range 0 2⟩, ⟨29, 29, .rw, 0, .any⟩, ⟨28, 27, .rw, 0, .range 0 2⟩, ⟨26, 26, .rw, 0, .any⟩, ⟨25, 25, .rw, 1, .any⟩, ⟨24, 24, .rw, 1, .any⟩, ⟨23, 23, .rw, 0, .any⟩, ⟨22, 22, .rw, 0, .any⟩, ⟨21, 20, .rw, 0, .range 0 2⟩, ⟨19, 19, .wo, 0, .any⟩, ⟨18, 16, .rw, 0, .any⟩]⟩
/-- L_STATUS: MODE, CAUSE, LOCK, ARRIVED, BREACH, I_SAT, OUT_SAT, COMPLIANCE, INPUT_BAD, AT_PARK, BREACH_SEEN, HWMODE, LOCK_LOST, TGT_PASSED, BUMP_CLIP, MODE_REF, SAT_SEEN. -/
def Row.L_STATUS : RegRow := ⟨0x1C104, 20, 128, 1, 4, [⟨31, 30, .ro, 0, .any⟩, ⟨29, 28, .ro, 0, .any⟩, ⟨27, 27, .ro, 0, .any⟩, ⟨26, 26, .ro, 1, .any⟩, ⟨25, 25, .ro, 0, .any⟩, ⟨24, 24, .ro, 0, .any⟩, ⟨23, 23, .ro, 0, .any⟩, ⟨22, 22, .ro, 0, .any⟩, ⟨21, 21, .ro, 0, .any⟩, ⟨20, 20, .ro, 1, .any⟩, ⟨15, 15, .w1c, 0, .any⟩, ⟨14, 14, .w1c, 0, .any⟩, ⟨13, 13, .w1c, 0, .any⟩, ⟨12, 12, .w1c, 0, .any⟩, ⟨11, 11, .w1c, 0, .any⟩, ⟨10, 10, .w1c, 0, .any⟩, ⟨9, 9, .w1c, 0, .any⟩]⟩
/-- TARGET: T. -/
def Row.TARGET : RegRow := ⟨0x1C108, 20, 128, 1, 4, [⟨23, 0, .rw, 0, .any⟩]⟩
/-- RAMP_RATE: RATE. -/
def Row.RAMP_RATE : RegRow := ⟨0x1C10C, 20, 128, 1, 4, [⟨30, 0, .rw, 65536, .range 1 1073741824⟩]⟩
/-- RAMP_ACC: ACC. -/
def Row.RAMP_ACC : RegRow := ⟨0x1C110, 20, 128, 1, 4, [⟨30, 0, .rw, 4096, .range 1 1073741824⟩]⟩
/-- KP: M, E. -/
def Row.KP : RegRow := ⟨0x1C114, 20, 128, 1, 4, [⟨31, 16, .rw, 0, .any⟩, ⟨4, 0, .rw, 0, .any⟩]⟩
/-- KI: M, E. -/
def Row.KI : RegRow := ⟨0x1C118, 20, 128, 1, 4, [⟨31, 16, .rw, 0, .any⟩, ⟨4, 0, .rw, 0, .any⟩]⟩
/-- KD: M, DF, E. -/
def Row.KD : RegRow := ⟨0x1C11C, 20, 128, 1, 4, [⟨31, 16, .rw, 0, .any⟩, ⟨12, 8, .rw, 4, .range 0 15⟩, ⟨4, 0, .rw, 0, .any⟩]⟩
/-- I_LO: VAL. -/
def Row.I_LO : RegRow := ⟨0x1C120, 20, 128, 1, 4, [⟨23, 0, .rw, 0, .any⟩]⟩
/-- I_HI: VAL. -/
def Row.I_HI : RegRow := ⟨0x1C124, 20, 128, 1, 4, [⟨23, 0, .rw, 16777215, .any⟩]⟩
/-- OUT_LO: VAL. -/
def Row.OUT_LO : RegRow := ⟨0x1C128, 20, 128, 1, 4, [⟨23, 0, .rw, 0, .any⟩]⟩
/-- OUT_HI: VAL. -/
def Row.OUT_HI : RegRow := ⟨0x1C12C, 20, 128, 1, 4, [⟨23, 0, .rw, 16777215, .any⟩]⟩
/-- MAN_OUT: VAL. -/
def Row.MAN_OUT : RegRow := ⟨0x1C130, 20, 128, 1, 4, [⟨23, 0, .rw, 0, .any⟩]⟩
/-- PARK: VAL. -/
def Row.PARK : RegRow := ⟨0x1C134, 20, 128, 1, 4, [⟨23, 0, .rw, 0, .any⟩]⟩
/-- MAN_RATE: VAL. -/
def Row.MAN_RATE : RegRow := ⟨0x1C138, 20, 128, 1, 4, [⟨23, 0, .rw, 256, .range 1 16777215⟩]⟩
/-- LOCK_CFG: N, TOL. -/
def Row.LOCK_CFG : RegRow := ⟨0x1C13C, 20, 128, 1, 4, [⟨31, 20, .rw, 64, .range 1 4095⟩, ⟨19, 0, .rw, 4096, .any⟩]⟩
/-- RC_WIN: PERIOD, BASE. -/
def Row.RC_WIN : RegRow := ⟨0x1C140, 20, 128, 1, 4, [⟨29, 16, .rw, 1000, .range 1 8192⟩, ⟨14, 0, .rw, 0, .any⟩]⟩
/-- RC_LEARN: LG_M, LG_E. -/
def Row.RC_LEARN : RegRow := ⟨0x1C144, 20, 128, 1, 4, [⟨31, 16, .rw, 0, .any⟩, ⟨4, 0, .rw, 0, .any⟩]⟩
/-- RC_PHASE: LEAD, FGT. -/
def Row.RC_PHASE : RegRow := ⟨0x1C148, 20, 128, 1, 4, [⟨28, 16, .rw, 0, .any⟩, ⟨15, 0, .rw, 0, .any⟩]⟩
/-- RC_QLIM: QLIM. -/
def Row.RC_QLIM : RegRow := ⟨0x1C14C, 20, 128, 1, 4, [⟨23, 0, .rw, 65536, .any⟩]⟩
/-- DW_MODEL: A, DLY. -/
def Row.DW_MODEL : RegRow := ⟨0x1C150, 20, 128, 1, 4, [⟨31, 16, .rw, 6554, .range 1 65535⟩, ⟨5, 0, .rw, 0, .any⟩]⟩
/-- DW_GAIN: G_M, G_E. -/
def Row.DW_GAIN : RegRow := ⟨0x1C154, 20, 128, 1, 4, [⟨31, 16, .rw, 0, .any⟩, ⟨4, 0, .rw, 0, .any⟩]⟩
/-- DW_CFG: N, BIAS_SH. -/
def Row.DW_CFG : RegRow := ⟨0x1C158, 20, 128, 1, 4, [⟨27, 16, .rw, 16, .range 1 4095⟩, ⟨4, 0, .rw, 12, .any⟩]⟩
/-- DW_BOUND: BOUND. -/
def Row.DW_BOUND : RegRow := ⟨0x1C15C, 20, 128, 1, 4, [⟨23, 0, .rw, 65536, .any⟩]⟩
/-- SETPOINT: R. -/
def Row.SETPOINT : RegRow := ⟨0x1C160, 20, 128, 1, 4, [⟨23, 0, .ro, 0, .any⟩]⟩
/-- VELOCITY: V. -/
def Row.VELOCITY : RegRow := ⟨0x1C164, 20, 128, 1, 4, [⟨31, 0, .ro, 0, .any⟩]⟩
/-- MEAS: Y. -/
def Row.MEAS : RegRow := ⟨0x1C168, 20, 128, 1, 4, [⟨23, 0, .ro, 0, .any⟩]⟩
/-- ERROR: E. -/
def Row.ERROR : RegRow := ⟨0x1C16C, 20, 128, 1, 4, [⟨23, 0, .ro, 0, .any⟩]⟩
/-- INTEG_LO: I. -/
def Row.INTEG_LO : RegRow := ⟨0x1C170, 20, 128, 1, 4, [⟨31, 0, .rw, 0, .any⟩]⟩
/-- INTEG_HI: I. -/
def Row.INTEG_HI : RegRow := ⟨0x1C174, 20, 128, 1, 4, [⟨7, 0, .rw, 0, .any⟩]⟩
/-- OUTPUT: O. -/
def Row.OUTPUT : RegRow := ⟨0x1C178, 20, 128, 1, 4, [⟨23, 0, .ro, 0, .any⟩]⟩
/-- DW_RESID: RES. -/
def Row.DW_RESID : RegRow := ⟨0x1C17C, 20, 128, 1, 4, [⟨23, 0, .ro, 0, .any⟩]⟩

/-- Every row of the octet block: port and FEC, Tideline, analog edge, loops (spec/01, 04, 05, 08, 09). -/
def rows_oct : List RegRow := [
  Row.MODE, Row.MODE_COMMIT, Row.MODE_ACTIVE, Row.PORT_CTRL, Row.FEC_SNAP, Row.PORT_STATUS, Row.CW_LO, Row.CW_HI,
  Row.CORR_LO, Row.CORR_HI, Row.UNCORR, Row.SYM_LO, Row.SYM_HI, Row.HIST, Row.BIP_ERR, Row.SYM_ERR,
  Row.INNER_CORR, Row.INNER_FAIL, Row.BER_CNT, Row.BER_LIMIT, Row.TSC_CTRL, Row.TSC_STATUS, Row.TSC_RX, Row.TSC_TX,
  Row.TS_ADJ_RX, Row.TS_ADJ_TX, Row.TXTS_0, Row.TXTS_1, Row.TXTS_2, Row.TXTS_STATUS, Row.TL_CTRL, Row.TL_ADDR,
  Row.TL_TX_CTRL, Row.TL_STATUS, Row.DET_THR_LO, Row.DET_THR_HI, Row.TX_DESC, Row.RX_DESC, Row.RX_INFO, Row.RX_POP,
  Row.GASP_RX, Row.MASK_CTRL, Row.TX_FIR, Row.TX_BUF, Row.RX_BUF, Row.MASK_LIM, Row.MASK_PWR, Row.TLC,
  Row.AE_CTRL, Row.AE_SCAN_MASK, Row.AE_STATUS, Row.AE_CAL_CTRL, Row.AE_OVR, Row.AE_OUT_CTRL, Row.AE_DROPOUT, Row.THR_ABOVE,
  Row.THR_BELOW, Row.THR_UP_SEEN, Row.THR_DN_SEEN, Row.AE_IRQ_EN, Row.AE_CAL, Row.CH_CFG, Row.CH_VALUE, Row.CH_RAW,
  Row.CH_THR_HI, Row.CH_THR_LO, Row.CH_THR_CFG, Row.CH_DELAY, Row.WEIR_CTRL, Row.WEIR_STATUS, Row.TICK, Row.WEIR_IRQ_EN,
  Row.MODE_SET, Row.RC_ADDR, Row.RC_DATA, Row.L_CTRL, Row.L_STATUS, Row.TARGET, Row.RAMP_RATE, Row.RAMP_ACC,
  Row.KP, Row.KI, Row.KD, Row.I_LO, Row.I_HI, Row.OUT_LO, Row.OUT_HI, Row.MAN_OUT,
  Row.PARK, Row.MAN_RATE, Row.LOCK_CFG, Row.RC_WIN, Row.RC_LEARN, Row.RC_PHASE, Row.RC_QLIM, Row.DW_MODEL,
  Row.DW_GAIN, Row.DW_CFG, Row.DW_BOUND, Row.SETPOINT, Row.VELOCITY, Row.MEAS, Row.ERROR, Row.INTEG_LO,
  Row.INTEG_HI, Row.OUTPUT, Row.DW_RESID]

/-! Rows of the FLOW block (spec/06). -/

/-- FL_CTRL: MODE, RECLAIM, FLUSH_MS, RUN. -/
def Row.FL_CTRL : RegRow := ⟨0x0, 1, 4, 1, 4, [⟨31, 30, .ro, 0, .any⟩, ⟨16, 16, .wo, 0, .any⟩, ⟨15, 8, .rw, 10, .range 1 255⟩, ⟨0, 0, .rw, 0, .any⟩]⟩
/-- FL_STATUS: RECLAIM_BUSY, KEY_LOCKED, FLOWS. -/
def Row.FL_STATUS : RegRow := ⟨0x4, 1, 4, 1, 4, [⟨31, 31, .ro, 0, .any⟩, ⟨30, 30, .w1c, 0, .any⟩, ⟨20, 0, .ro, 0, .any⟩]⟩
/-- RECLAIM_RESULT: CELLS. -/
def Row.RECLAIM_RESULT : RegRow := ⟨0x8, 1, 4, 1, 4, [⟨20, 0, .ro, 0, .any⟩]⟩
/-- HASH_KEY: KEY. -/
def Row.HASH_KEY : RegRow := ⟨0x10, 8, 4, 1, 4, [⟨31, 0, .wo, 0, .any⟩]⟩
/-- CTRL_ETYPE: EN, ETYPE. -/
def Row.CTRL_ETYPE : RegRow := ⟨0x40, 8, 4, 1, 4, [⟨31, 31, .rw, 0, .any⟩, ⟨15, 0, .rw, 0, .any⟩]⟩
/-- CTRL_MATCH: CLASS. -/
def Row.CTRL_MATCH : RegRow := ⟨0x60, 1, 4, 1, 4, [⟨5, 0, .rw, 63, .any⟩]⟩
/-- PUNT_MAP: E7, E6, E5, E4, E3, E2, E1, E0. -/
def Row.PUNT_MAP : RegRow := ⟨0x80, 8, 4, 1, 4, [⟨30, 28, .rw, 0, .range 0 6⟩, ⟨26, 24, .rw, 0, .range 0 6⟩, ⟨22, 20, .rw, 0, .range 0 6⟩, ⟨18, 16, .rw, 0, .range 0 6⟩, ⟨14, 12, .rw, 0, .range 0 6⟩, ⟨10, 8, .rw, 0, .range 0 6⟩, ⟨6, 4, .rw, 0, .range 0 6⟩, ⟨2, 0, .rw, 0, .range 0 6⟩]⟩
/-- PUNT_BASE: OFS. -/
def Row.PUNT_BASE : RegRow := ⟨0xC0, 7, 4, 1, 4, [⟨21, 8, .rw, 0, .any⟩]⟩
/-- PUNT_CFG: EN, SIZE_EXP. -/
def Row.PUNT_CFG : RegRow := ⟨0xE0, 7, 4, 1, 4, [⟨31, 31, .rw, 0, .any⟩, ⟨3, 0, .rw, 10, .range 6 12⟩]⟩
/-- PUNT_STATUS: FILL. -/
def Row.PUNT_STATUS : RegRow := ⟨0x100, 7, 4, 1, 4, [⟨12, 0, .ro, 0, .any⟩]⟩
/-- BERM_RSV_CTRL: CELLS. -/
def Row.BERM_RSV_CTRL : RegRow := ⟨0x200, 1, 4, 1, 4, [⟨17, 0, .rw, 8192, .any⟩]⟩
/-- BERM_RSV_ENG: CELLS. -/
def Row.BERM_RSV_ENG : RegRow := ⟨0x204, 1, 4, 1, 4, [⟨17, 0, .rw, 16384, .any⟩]⟩
/-- BERM_RSV_RET: CELLS. -/
def Row.BERM_RSV_RET : RegRow := ⟨0x208, 1, 4, 1, 4, [⟨17, 0, .rw, 32768, .any⟩]⟩
/-- BERM_USE_CTRL: CELLS. -/
def Row.BERM_USE_CTRL : RegRow := ⟨0x210, 1, 4, 1, 4, [⟨20, 0, .ro, 0, .any⟩]⟩
/-- BERM_USE_ENG: CELLS. -/
def Row.BERM_USE_ENG : RegRow := ⟨0x214, 1, 4, 1, 4, [⟨20, 0, .ro, 0, .any⟩]⟩
/-- BERM_USE_RET: CELLS. -/
def Row.BERM_USE_RET : RegRow := ⟨0x218, 1, 4, 1, 4, [⟨20, 0, .ro, 0, .any⟩]⟩
/-- POOL_FREE: CELLS. -/
def Row.POOL_FREE : RegRow := ⟨0x220, 1, 4, 1, 4, [⟨20, 0, .ro, 1048576, .any⟩]⟩
/-- SHARED_FREE: CELLS. -/
def Row.SHARED_FREE : RegRow := ⟨0x224, 1, 4, 1, 4, [⟨20, 0, .ro, 991232, .any⟩]⟩
/-- SPILL_CTRL: EN, SIZE_GIB, FLOW_CAP_EXP, STAGE_LIM. -/
def Row.SPILL_CTRL : RegRow := ⟨0x300, 1, 4, 1, 4, [⟨31, 31, .rw, 0, .any⟩, ⟨21, 16, .rw, 0, .range 0 48⟩, ⟨12, 8, .rw, 20, .range 10 27⟩, ⟨7, 0, .rw, 64, .range 1 255⟩]⟩
/-- SPILL_BASE: ADDR. -/
def Row.SPILL_BASE : RegRow := ⟨0x304, 1, 4, 1, 4, [⟨6, 0, .rw, 0, .any⟩]⟩
/-- SPILL_STATUS: CELLS. -/
def Row.SPILL_STATUS : RegRow := ⟨0x308, 1, 4, 1, 4, [⟨27, 0, .ro, 0, .any⟩]⟩
/-- SPILL_CHUNKS: FREE. -/
def Row.SPILL_CHUNKS : RegRow := ⟨0x30C, 1, 4, 1, 4, [⟨23, 0, .ro, 0, .any⟩]⟩
/-- SCHED_IND: GO, WRITE, STAGED, LEVEL, INDEX. -/
def Row.SCHED_IND : RegRow := ⟨0x400, 1, 4, 1, 4, [⟨31, 31, .wo, 0, .any⟩, ⟨30, 30, .rw, 0, .any⟩, ⟨29, 29, .rw, 0, .any⟩, ⟨21, 20, .rw, 0, .any⟩, ⟨19, 0, .rw, 0, .any⟩]⟩
/-- SCHED_IND_STATUS: BUSY, RESULT. -/
def Row.SCHED_IND_STATUS : RegRow := ⟨0x404, 1, 4, 1, 4, [⟨31, 31, .ro, 0, .any⟩, ⟨3, 0, .ro, 0, .any⟩]⟩
/-- SCHED_DATA0: VALID, BAND, WEIGHT, PARENT. -/
def Row.SCHED_DATA0 : RegRow := ⟨0x410, 1, 4, 1, 4, [⟨31, 31, .rw, 0, .any⟩, ⟨30, 29, .rw, 3, .any⟩, ⟨28, 18, .rw, 1, .range 1 2047⟩, ⟨17, 0, .rw, 0, .any⟩]⟩
/-- SCHED_DATA1: RATE. -/
def Row.SCHED_DATA1 : RegRow := ⟨0x414, 1, 4, 1, 4, [⟨31, 0, .rw, 1000000, .range 1000 3200000000⟩]⟩
/-- SCHED_DATA2: SHAPE_EN, OVH, BURST. -/
def Row.SCHED_DATA2 : RegRow := ⟨0x418, 1, 4, 1, 4, [⟨31, 31, .rw, 0, .any⟩, ⟨30, 24, .rw, 0, .any⟩, ⟨23, 8, .rw, 64, .range 1 65535⟩]⟩
/-- SCHED_DATA3: QB3, QB2, QB1, QB0. -/
def Row.SCHED_DATA3 : RegRow := ⟨0x41C, 1, 4, 1, 4, [⟨31, 24, .rw, 8, .range 1 255⟩, ⟨23, 16, .rw, 8, .range 1 255⟩, ⟨15, 8, .rw, 8, .range 1 255⟩, ⟨7, 0, .rw, 8, .range 1 255⟩]⟩
/-- SCHED_DATA4: AGE_T. -/
def Row.SCHED_DATA4 : RegRow := ⟨0x420, 1, 4, 1, 4, [⟨31, 16, .rw, 0, .any⟩]⟩
/-- SCHED_DATA5: BACKLOG, ELIGIBLE, PROMOTED, COMMIT_PEND, DEFICIT. -/
def Row.SCHED_DATA5 : RegRow := ⟨0x424, 1, 4, 1, 4, [⟨31, 31, .ro, 0, .any⟩, ⟨30, 30, .ro, 0, .any⟩, ⟨29, 29, .ro, 0, .any⟩, ⟨28, 28, .ro, 0, .any⟩, ⟨24, 0, .ro, 0, .any⟩]⟩
/-- SCHED_DATA6: TOKENS. -/
def Row.SCHED_DATA6 : RegRow := ⟨0x428, 1, 4, 1, 4, [⟨31, 0, .ro, 0, .any⟩]⟩
/-- SCHED_COMMIT: GO, LEVEL, INDEX. -/
def Row.SCHED_COMMIT : RegRow := ⟨0x440, 1, 4, 1, 4, [⟨31, 31, .wo, 0, .any⟩, ⟨21, 20, .rw, 0, .range 0 2⟩, ⟨17, 0, .rw, 0, .any⟩]⟩
/-- PORT_CFG: KEY_SEL, CT_IN, CTRL_PUNT, CSUM_CHK. -/
def Row.PORT_CFG : RegRow := ⟨0x1000, 256, 4, 1, 4, [⟨31, 19, .rw, 6529, .any⟩, ⟨18, 18, .rw, 1, .any⟩, ⟨17, 17, .rw, 1, .any⟩, ⟨16, 16, .rw, 1, .any⟩]⟩
/-- GAUGE_SRC: EN, SRC, HYST_EXP, INDEX. -/
def Row.GAUGE_SRC : RegRow := ⟨0x2000, 64, 16, 1, 4, [⟨31, 31, .rw, 0, .any⟩, ⟨27, 24, .rw, 0, .range 0 9⟩, ⟨23, 20, .rw, 0, .any⟩, ⟨19, 0, .rw, 0, .any⟩]⟩
/-- GAUGE_LVL: LEVEL. -/
def Row.GAUGE_LVL : RegRow := ⟨0x2004, 64, 16, 1, 4, [⟨27, 0, .rw, 0, .any⟩]⟩
/-- GAUGE_STAT: ABOVE, CROSSED_UP, CROSSED_DOWN, COUNT. -/
def Row.GAUGE_STAT : RegRow := ⟨0x2008, 64, 16, 1, 4, [⟨31, 31, .ro, 0, .any⟩, ⟨30, 30, .w1c, 0, .any⟩, ⟨29, 29, .w1c, 0, .any⟩, ⟨15, 0, .rc, 0, .any⟩]⟩
/-- DROP: COUNT. -/
def Row.DROP : RegRow := ⟨0x8004, 18, 4, 1, 4, [⟨31, 0, .rc, 0, .any⟩]⟩
/-- CT_STOMP: COUNT. -/
def Row.CT_STOMP : RegRow := ⟨0x8080, 1, 4, 1, 4, [⟨31, 0, .rc, 0, .any⟩]⟩
/-- FL_OVERRUN: COUNT. -/
def Row.FL_OVERRUN : RegRow := ⟨0x8084, 1, 4, 1, 4, [⟨31, 0, .rc, 0, .any⟩]⟩
/-- REDIRECT: COUNT. -/
def Row.REDIRECT : RegRow := ⟨0x8088, 1, 4, 1, 4, [⟨31, 0, .rc, 0, .any⟩]⟩
/-- SPILL_WAIT: COUNT. -/
def Row.SPILL_WAIT : RegRow := ⟨0x808C, 1, 4, 1, 4, [⟨31, 0, .rc, 0, .any⟩]⟩

/-- Every row of the FLOW block (spec/06). -/
def rows_flow : List RegRow := [
  Row.FL_CTRL, Row.FL_STATUS, Row.RECLAIM_RESULT, Row.HASH_KEY, Row.CTRL_ETYPE, Row.CTRL_MATCH, Row.PUNT_MAP, Row.PUNT_BASE,
  Row.PUNT_CFG, Row.PUNT_STATUS, Row.BERM_RSV_CTRL, Row.BERM_RSV_ENG, Row.BERM_RSV_RET, Row.BERM_USE_CTRL, Row.BERM_USE_ENG, Row.BERM_USE_RET,
  Row.POOL_FREE, Row.SHARED_FREE, Row.SPILL_CTRL, Row.SPILL_BASE, Row.SPILL_STATUS, Row.SPILL_CHUNKS, Row.SCHED_IND, Row.SCHED_IND_STATUS,
  Row.SCHED_DATA0, Row.SCHED_DATA1, Row.SCHED_DATA2, Row.SCHED_DATA3, Row.SCHED_DATA4, Row.SCHED_DATA5, Row.SCHED_DATA6, Row.SCHED_COMMIT,
  Row.PORT_CFG, Row.GAUGE_SRC, Row.GAUGE_LVL, Row.GAUGE_STAT, Row.DROP, Row.CT_STOMP, Row.FL_OVERRUN, Row.REDIRECT,
  Row.SPILL_WAIT]

/-! Rows of the ENG block (spec/07). -/

/-- CL_MODE: MODE. -/
def Row.CL_MODE : RegRow := ⟨0x0, 12, 65536, 1, 4, [⟨1, 0, .rw, 1, .any⟩]⟩
/-- CL_STATE: STATE. -/
def Row.CL_STATE : RegRow := ⟨0x4, 12, 65536, 1, 4, [⟨23, 0, .ro, 0, .any⟩]⟩
/-- CL_SH_ECC: UE, CE. -/
def Row.CL_SH_ECC : RegRow := ⟨0x8, 12, 65536, 1, 4, [⟨31, 16, .rc, 0, .any⟩, ⟨15, 0, .rc, 0, .any⟩]⟩
/-- CL_STALE: COUNT. -/
def Row.CL_STALE : RegRow := ⟨0xC, 12, 65536, 1, 4, [⟨31, 0, .rc, 0, .any⟩]⟩
/-- E_PC: PC. -/
def Row.E_PC : RegRow := ⟨0x100, 12, 65536, 8, 32, [⟨15, 0, .ro, 0, .any⟩]⟩
/-- E_CAUSE: FAULT, STATE, DETAIL, VECTOR. -/
def Row.E_CAUSE : RegRow := ⟨0x104, 12, 65536, 8, 32, [⟨31, 31, .ro, 0, .any⟩, ⟨30, 28, .ro, 0, .any⟩, ⟨15, 8, .ro, 0, .any⟩, ⟨4, 0, .ro, 0, .any⟩]⟩
/-- E_EVAL: EVAL. -/
def Row.E_EVAL : RegRow := ⟨0x108, 12, 65536, 8, 32, [⟨31, 0, .ro, 0, .any⟩]⟩
/-- E_ECC: UE, CE. -/
def Row.E_ECC : RegRow := ⟨0x10C, 12, 65536, 8, 32, [⟨31, 16, .rc, 0, .any⟩, ⟨15, 0, .rc, 0, .any⟩]⟩

/-- Every row of the ENG block (spec/07). -/
def rows_eng : List RegRow := [
  Row.CL_MODE, Row.CL_STATE, Row.CL_SH_ECC, Row.CL_STALE, Row.E_PC, Row.E_CAUSE, Row.E_EVAL, Row.E_ECC]

/-! Rows of the MEM block (spec/10). -/

/-- MEM_CFG: KEEP_SR, DENSITY, RATE, EN. -/
def Row.MEM_CFG : RegRow := ⟨0x0, 1, 4, 1, 4, [⟨31, 31, .rws, 0, .any⟩, ⟨26, 24, .rw, 0, .range 0 5⟩, ⟨17, 16, .rw, 0, .any⟩, ⟨0, 0, .rw, 0, .any⟩]⟩
/-- MEM_STATUS: TRAINED, SELF_REF, KEPT, REGION_LOCKED, HOT, MULT, BAND, USABLE. -/
def Row.MEM_STATUS : RegRow := ⟨0x4, 1, 4, 1, 4, [⟨31, 31, .ro, 0, .any⟩, ⟨30, 30, .ro, 0, .any⟩, ⟨29, 29, .ro, 0, .any⟩, ⟨28, 28, .w1c, 0, .any⟩, ⟨27, 27, .w1c, 0, .any⟩, ⟨19, 18, .ro, 0, .any⟩, ⟨17, 16, .ro, 0, .any⟩, ⟨7, 0, .ro, 0, .any⟩]⟩
/-- REFRESH_CTRL: MULT_B. -/
def Row.REFRESH_CTRL : RegRow := ⟨0x8, 1, 4, 1, 4, [⟨7, 0, .rw, 144, .any⟩]⟩
/-- MEM_IRQ_EN: CE_EXP, EN. -/
def Row.MEM_IRQ_EN : RegRow := ⟨0xC, 1, 4, 1, 4, [⟨12, 8, .rw, 10, .any⟩, ⟨7, 0, .rw, 255, .any⟩]⟩
/-- SPILL_LOST: COUNT. -/
def Row.SPILL_LOST : RegRow := ⟨0x10, 1, 4, 1, 4, [⟨31, 0, .rc, 0, .any⟩]⟩
/-- REGION_VIOL: COUNT. -/
def Row.REGION_VIOL : RegRow := ⟨0x14, 1, 4, 1, 4, [⟨31, 0, .rc, 0, .any⟩]⟩
/-- MEM_EVT: EVT. -/
def Row.MEM_EVT : RegRow := ⟨0x18, 1, 4, 1, 4, [⟨7, 0, .w1c, 0, .any⟩]⟩
/-- REGION_BASE: MIB. -/
def Row.REGION_BASE : RegRow := ⟨0x100, 16, 16, 1, 4, [⟨16, 0, .rw, 0, .any⟩]⟩
/-- REGION_LIMIT: MIB. -/
def Row.REGION_LIMIT : RegRow := ⟨0x104, 16, 16, 1, 4, [⟨16, 0, .rw, 0, .any⟩]⟩
/-- REGION_USE: USE. -/
def Row.REGION_USE : RegRow := ⟨0x108, 16, 16, 1, 4, [⟨4, 0, .rw, 0, .any⟩]⟩
/-- ECC_CE: COUNT. -/
def Row.ECC_CE : RegRow := ⟨0x200, 5, 32, 1, 4, [⟨31, 0, .rc, 0, .any⟩]⟩
/-- ECC_UE: COUNT. -/
def Row.ECC_UE : RegRow := ⟨0x204, 5, 32, 1, 4, [⟨31, 0, .rc, 0, .any⟩]⟩
/-- ECC_POISON: COUNT. -/
def Row.ECC_POISON : RegRow := ⟨0x208, 5, 32, 1, 4, [⟨31, 0, .rc, 0, .any⟩]⟩
/-- ECC_LAST_LO: INDEX. -/
def Row.ECC_LAST_LO : RegRow := ⟨0x20C, 5, 32, 1, 4, [⟨31, 0, .ro, 0, .any⟩]⟩
/-- ECC_LAST_HI: VALID, KIND, CLUSTER, ENGINE, INDEX. -/
def Row.ECC_LAST_HI : RegRow := ⟨0x210, 5, 32, 1, 4, [⟨31, 31, .ro, 0, .any⟩, ⟨30, 30, .ro, 0, .any⟩, ⟨27, 24, .ro, 0, .any⟩, ⟨23, 21, .ro, 0, .any⟩, ⟨1, 0, .ro, 0, .any⟩]⟩
/-- PARITY_CNT: COUNT. -/
def Row.PARITY_CNT : RegRow := ⟨0x300, 4, 4, 1, 4, [⟨31, 0, .rc, 0, .any⟩]⟩
/-- POISON_TX: COUNT. -/
def Row.POISON_TX : RegRow := ⟨0x310, 1, 4, 1, 4, [⟨31, 0, .rc, 0, .any⟩]⟩
/-- REWRITE_CTRL: GO, BUSY, RESULT, CLUSTER, ENGINE, SPACE. -/
def Row.REWRITE_CTRL : RegRow := ⟨0x400, 1, 4, 1, 4, [⟨31, 31, .wo, 0, .any⟩, ⟨30, 30, .ro, 0, .any⟩, ⟨29, 27, .ro, 0, .any⟩, ⟨23, 20, .rw, 0, .range 0 11⟩, ⟨18, 16, .rw, 0, .any⟩, ⟨2, 0, .rw, 0, .range 0 4⟩]⟩
/-- REWRITE_ADDR_LO: INDEX. -/
def Row.REWRITE_ADDR_LO : RegRow := ⟨0x404, 1, 4, 1, 4, [⟨31, 0, .rw, 0, .any⟩]⟩
/-- REWRITE_ADDR_HI: INDEX. -/
def Row.REWRITE_ADDR_HI : RegRow := ⟨0x408, 1, 4, 1, 4, [⟨1, 0, .rw, 0, .any⟩]⟩
/-- SCRUB_CTRL: FIX_CE, EN. -/
def Row.SCRUB_CTRL : RegRow := ⟨0x500, 1, 4, 1, 4, [⟨8, 8, .rw, 1, .any⟩, ⟨4, 0, .rw, 27, .any⟩]⟩
/-- SCRUB_INT: ONCHIP_EXP, DRAM_EXP. -/
def Row.SCRUB_INT : RegRow := ⟨0x504, 1, 4, 1, 4, [⟨12, 8, .rw, 4, .range 0 16⟩, ⟨4, 0, .rw, 10, .range 4 16⟩]⟩
/-- SCRUB_LAPNO: COUNT. -/
def Row.SCRUB_LAPNO : RegRow := ⟨0x510, 5, 8, 1, 4, [⟨31, 0, .ro, 0, .any⟩]⟩
/-- SCRUB_LAPTIME: MS. -/
def Row.SCRUB_LAPTIME : RegRow := ⟨0x514, 5, 8, 1, 4, [⟨31, 0, .ro, 0, .any⟩]⟩
/-- SCRUB_LOG_0: VALID, SPACE, CLUSTER, ENGINE, LAP. -/
def Row.SCRUB_LOG_0 : RegRow := ⟨0x540, 1, 4, 1, 4, [⟨31, 31, .ro, 0, .any⟩, ⟨30, 28, .ro, 0, .any⟩, ⟨27, 24, .ro, 0, .any⟩, ⟨23, 21, .ro, 0, .any⟩, ⟨15, 0, .ro, 0, .any⟩]⟩
/-- SCRUB_LOG_1: INDEX. -/
def Row.SCRUB_LOG_1 : RegRow := ⟨0x544, 1, 4, 1, 4, [⟨31, 0, .ro, 0, .any⟩]⟩
/-- SCRUB_LOG_2: INDEX. -/
def Row.SCRUB_LOG_2 : RegRow := ⟨0x548, 1, 4, 1, 4, [⟨1, 0, .ro, 0, .any⟩]⟩
/-- SCRUB_LOG_STATUS: OVF, FILL. -/
def Row.SCRUB_LOG_STATUS : RegRow := ⟨0x54C, 1, 4, 1, 4, [⟨31, 16, .rc, 0, .any⟩, ⟨4, 0, .ro, 0, .any⟩]⟩
/-- ECCT_CTRL: GO, BUSY, RESULT, WRITE, CLUSTER, ENGINE, SPACE. -/
def Row.ECCT_CTRL : RegRow := ⟨0x600, 1, 4, 1, 4, [⟨31, 31, .wo, 0, .any⟩, ⟨30, 30, .ro, 0, .any⟩, ⟨29, 28, .ro, 0, .any⟩, ⟨27, 27, .rw, 0, .any⟩, ⟨23, 20, .rw, 0, .range 0 11⟩, ⟨18, 16, .rw, 0, .any⟩, ⟨2, 0, .rw, 0, .range 0 4⟩]⟩
/-- ECCT_ADDR_LO: INDEX. -/
def Row.ECCT_ADDR_LO : RegRow := ⟨0x604, 1, 4, 1, 4, [⟨31, 0, .rw, 0, .any⟩]⟩
/-- ECCT_ADDR_HI: INDEX. -/
def Row.ECCT_ADDR_HI : RegRow := ⟨0x608, 1, 4, 1, 4, [⟨1, 0, .rw, 0, .any⟩]⟩
/-- ECCT_DATA_LO: DATA. -/
def Row.ECCT_DATA_LO : RegRow := ⟨0x60C, 1, 4, 1, 4, [⟨31, 0, .rw, 0, .any⟩]⟩
/-- ECCT_DATA_HI: DATA. -/
def Row.ECCT_DATA_HI : RegRow := ⟨0x610, 1, 4, 1, 4, [⟨31, 0, .rw, 0, .any⟩]⟩
/-- ECCT_CHECK: SYND, CHECK. -/
def Row.ECCT_CHECK : RegRow := ⟨0x614, 1, 4, 1, 4, [⟨15, 8, .ro, 0, .any⟩, ⟨7, 0, .rw, 0, .any⟩]⟩

/-- Every row of the MEM block (spec/10). -/
def rows_mem : List RegRow := [
  Row.MEM_CFG, Row.MEM_STATUS, Row.REFRESH_CTRL, Row.MEM_IRQ_EN, Row.SPILL_LOST, Row.REGION_VIOL, Row.MEM_EVT, Row.REGION_BASE,
  Row.REGION_LIMIT, Row.REGION_USE, Row.ECC_CE, Row.ECC_UE, Row.ECC_POISON, Row.ECC_LAST_LO, Row.ECC_LAST_HI, Row.PARITY_CNT,
  Row.POISON_TX, Row.REWRITE_CTRL, Row.REWRITE_ADDR_LO, Row.REWRITE_ADDR_HI, Row.SCRUB_CTRL, Row.SCRUB_INT, Row.SCRUB_LAPNO, Row.SCRUB_LAPTIME,
  Row.SCRUB_LOG_0, Row.SCRUB_LOG_1, Row.SCRUB_LOG_2, Row.SCRUB_LOG_STATUS, Row.ECCT_CTRL, Row.ECCT_ADDR_LO, Row.ECCT_ADDR_HI, Row.ECCT_DATA_LO,
  Row.ECCT_DATA_HI, Row.ECCT_CHECK]

/-! Rows of the DSP_INT block (spec/11). -/

/-- PRIO: P7, P6, P5, P4, P3, P2, P1, P0. -/
def Row.PRIO : RegRow := ⟨0x100, 64, 4, 1, 4, [⟨31, 28, .rw, 0, .any⟩, ⟨27, 24, .rw, 0, .any⟩, ⟨23, 20, .rw, 0, .any⟩, ⟨19, 16, .rw, 0, .any⟩, ⟨15, 12, .rw, 0, .any⟩, ⟨11, 8, .rw, 0, .any⟩, ⟨7, 4, .rw, 0, .any⟩, ⟨3, 0, .rw, 0, .any⟩]⟩
/-- LEVEL: LEVEL. -/
def Row.LEVEL : RegRow := ⟨0x200, 16, 4, 1, 4, [⟨31, 0, .ro, 0, .any⟩]⟩
/-- PEND: PEND. -/
def Row.PEND : RegRow := ⟨0x240, 16, 4, 1, 4, [⟨31, 0, .ro, 0, .any⟩]⟩
/-- SWPEND: SW. -/
def Row.SWPEND : RegRow := ⟨0x280, 16, 4, 1, 4, [⟨31, 0, .w1s, 0, .any⟩]⟩
/-- SWCLR: CLR. -/
def Row.SWCLR : RegRow := ⟨0x2C0, 16, 4, 1, 4, [⟨31, 0, .wo, 0, .any⟩]⟩
/-- CLAIMED: CLAIMED. -/
def Row.CLAIMED : RegRow := ⟨0x300, 16, 4, 1, 4, [⟨31, 0, .ro, 0, .any⟩]⟩
/-- TGT_EN: EN. -/
def Row.TGT_EN : RegRow := ⟨0x1000, 9, 256, 16, 4, [⟨31, 0, .rw, 0, .any⟩]⟩
/-- THRESH: THR. -/
def Row.THRESH : RegRow := ⟨0x1040, 9, 256, 1, 4, [⟨3, 0, .rw, 0, .any⟩]⟩
/-- TGT_STATUS: LINE, LINE_SEEN, EOI_EMPTY, DEPTH, RUNPRIO. -/
def Row.TGT_STATUS : RegRow := ⟨0x1044, 9, 256, 1, 4, [⟨31, 31, .ro, 0, .any⟩, ⟨30, 30, .ro, 0, .any⟩, ⟨29, 29, .w1c, 0, .any⟩, ⟨20, 16, .ro, 0, .any⟩, ⟨3, 0, .ro, 0, .any⟩]⟩
/-- TGT_CTRL: FLUSH. -/
def Row.TGT_CTRL : RegRow := ⟨0x1048, 9, 256, 1, 4, [⟨0, 0, .wo, 0, .any⟩]⟩
/-- SPUR_CNT: COUNT. -/
def Row.SPUR_CNT : RegRow := ⟨0x104C, 9, 256, 1, 4, [⟨15, 0, .rc, 0, .any⟩]⟩
/-- STACK: VALID, SOURCE, PRIO. -/
def Row.STACK : RegRow := ⟨0x1080, 9, 256, 16, 4, [⟨31, 31, .ro, 0, .any⟩, ⟨12, 4, .ro, 0, .any⟩, ⟨3, 0, .ro, 0, .any⟩]⟩
/-- HOST_CLAIM: SOURCE. -/
def Row.HOST_CLAIM : RegRow := ⟨0x2000, 1, 4, 1, 4, [⟨8, 0, .ro, 0, .any⟩]⟩
/-- HOST_EOI: EOI. -/
def Row.HOST_EOI : RegRow := ⟨0x2004, 1, 4, 1, 4, [⟨31, 0, .wo, 0, .any⟩]⟩
/-- OCT_EN: EN_HI, EN_LO. -/
def Row.OCT_EN : RegRow := ⟨0x3000, 32, 16, 1, 4, [⟨23, 12, .rw, 4095, .any⟩, ⟨10, 0, .rw, 2047, .any⟩]⟩
/-- PORT_CHG: SLOT. -/
def Row.PORT_CHG : RegRow := ⟨0x3004, 32, 16, 1, 4, [⟨7, 0, .w1c, 0, .any⟩]⟩
/-- TIMING_EVT: LANE. -/
def Row.TIMING_EVT : RegRow := ⟨0x3008, 32, 16, 1, 4, [⟨7, 0, .w1c, 0, .any⟩]⟩
/-- OPWR_EVT: EVT. -/
def Row.OPWR_EVT : RegRow := ⟨0x300C, 32, 16, 1, 4, [⟨1, 0, .w1c, 0, .any⟩]⟩
/-- DEV_EVT: EVT. -/
def Row.DEV_EVT : RegRow := ⟨0x3400, 1, 4, 1, 4, [⟨5, 0, .w1c, 0, .any⟩]⟩

/-- Every row of the DSP_INT block (spec/11). -/
def rows_dint : List RegRow := [
  Row.PRIO, Row.LEVEL, Row.PEND, Row.SWPEND, Row.SWCLR, Row.CLAIMED, Row.TGT_EN, Row.THRESH,
  Row.TGT_STATUS, Row.TGT_CTRL, Row.SPUR_CNT, Row.STACK, Row.HOST_CLAIM, Row.HOST_EOI, Row.OCT_EN, Row.PORT_CHG,
  Row.TIMING_EVT, Row.OPWR_EVT, Row.DEV_EVT]

/-! Rows of the CTR block (spec/11). -/

/-- CTR_CTRL: DUMP_EN, DUMP_NOW, SNAP, READ_SRC, SIZE, INTERVAL. -/
def Row.CTR_CTRL : RegRow := ⟨0x0, 1, 4, 1, 4, [⟨31, 31, .rw, 0, .any⟩, ⟨30, 30, .wo, 0, .any⟩, ⟨29, 29, .wo, 0, .any⟩, ⟨28, 28, .rw, 0, .any⟩, ⟨17, 14, .rw, 4, .range 1 12⟩, ⟨13, 0, .rw, 1000, .range 1 10000⟩]⟩
/-- CTR_PERM: GROUP. -/
def Row.CTR_PERM : RegRow := ⟨0x4, 1, 4, 1, 4, [⟨31, 0, .rw, 0, .any⟩]⟩
/-- CTR_CLEAR: GROUP. -/
def Row.CTR_CLEAR : RegRow := ⟨0x8, 1, 4, 1, 4, [⟨31, 0, .wo, 0, .any⟩]⟩
/-- DUMP_BASE_LO: ADDR. -/
def Row.DUMP_BASE_LO : RegRow := ⟨0x10, 1, 4, 1, 4, [⟨31, 12, .rw, 0, .any⟩]⟩
/-- DUMP_BASE_HI: ADDR. -/
def Row.DUMP_BASE_HI : RegRow := ⟨0x14, 1, 4, 1, 4, [⟨4, 0, .rw, 0, .any⟩]⟩
/-- DUMP_WR: REC. -/
def Row.DUMP_WR : RegRow := ⟨0x18, 1, 4, 1, 4, [⟨11, 0, .ro, 0, .any⟩]⟩
/-- DUMP_RD: REC. -/
def Row.DUMP_RD : RegRow := ⟨0x1C, 1, 4, 1, 4, [⟨11, 0, .rw, 0, .any⟩]⟩
/-- DUMP_STATUS: BUSY, OVERRUN, SKIPPED. -/
def Row.DUMP_STATUS : RegRow := ⟨0x20, 1, 4, 1, 4, [⟨31, 31, .ro, 0, .any⟩, ⟨30, 30, .w1c, 0, .any⟩, ⟨15, 0, .rc, 0, .any⟩]⟩
/-- DUMP_LATCH: LATCH. -/
def Row.DUMP_LATCH : RegRow := ⟨0x24, 1, 4, 1, 4, [⟨31, 0, .ro, 0, .any⟩]⟩
/-- CNT_LO: COUNT. -/
def Row.CNT_LO : RegRow := ⟨0x10000, 8192, 8, 1, 4, [⟨31, 0, .ro, 0, .any⟩]⟩
/-- CNT_HI: COUNT. -/
def Row.CNT_HI : RegRow := ⟨0x10004, 8192, 8, 1, 4, [⟨31, 0, .ro, 0, .any⟩]⟩

/-- Every row of the CTR block (spec/11). -/
def rows_ctr : List RegRow := [
  Row.CTR_CTRL, Row.CTR_PERM, Row.CTR_CLEAR, Row.DUMP_BASE_LO, Row.DUMP_BASE_HI, Row.DUMP_WR, Row.DUMP_RD, Row.DUMP_STATUS,
  Row.DUMP_LATCH, Row.CNT_LO, Row.CNT_HI]

/-! Rows of the PWR block (spec/12). -/

/-- PWR_REQ: GO, KIND, PROFILE, POLDER, STATE. -/
def Row.PWR_REQ : RegRow := ⟨0x0, 1, 4, 1, 4, [⟨31, 31, .wo, 0, .any⟩, ⟨30, 30, .rw, 0, .any⟩, ⟨29, 28, .rw, 0, .any⟩, ⟨21, 16, .rw, 0, .range 0 48⟩, ⟨13, 12, .rw, 0, .range 0 2⟩]⟩
/-- PWR_STATUS: BUSY, QUEUED, PROFILE, PREV, REPLACED, QREPLACED, RESULT, CAUSE, POLDER, STEP, SEQ. -/
def Row.PWR_STATUS : RegRow := ⟨0x4, 1, 4, 1, 4, [⟨31, 31, .ro, 0, .any⟩, ⟨30, 30, .ro, 0, .any⟩, ⟨29, 28, .ro, 0, .any⟩, ⟨27, 26, .ro, 0, .any⟩, ⟨25, 25, .w1c, 0, .any⟩, ⟨24, 24, .w1c, 0, .any⟩, ⟨23, 21, .ro, 0, .any⟩, ⟨20, 18, .ro, 0, .any⟩, ⟨17, 12, .ro, 0, .any⟩, ⟨11, 8, .ro, 0, .any⟩, ⟨7, 0, .ro, 0, .any⟩]⟩
/-- PARK_OCT: OCT. -/
def Row.PARK_OCT : RegRow := ⟨0x8, 1, 4, 1, 4, [⟨31, 0, .rw, 0, .any⟩]⟩
/-- PARK_CL: CL. -/
def Row.PARK_CL : RegRow := ⟨0xC, 1, 4, 1, 4, [⟨6, 0, .rw, 0, .any⟩]⟩
/-- PWR_EVT: EVT. -/
def Row.PWR_EVT : RegRow := ⟨0x10, 1, 4, 1, 4, [⟨4, 0, .w1c, 0, .any⟩]⟩
/-- PWR_IRQ_EN: EN. -/
def Row.PWR_IRQ_EN : RegRow := ⟨0x14, 1, 4, 1, 4, [⟨4, 0, .rw, 15, .any⟩]⟩
/-- PWR_CFG: ACCT_MODE, HALT_WAKE, AUTO_IDLE, DRAM_IDLE. -/
def Row.PWR_CFG : RegRow := ⟨0x18, 1, 4, 1, 4, [⟨31, 31, .rw, 0, .any⟩, ⟨30, 30, .rw, 1, .any⟩, ⟨26, 16, .rw, 2047, .any⟩, ⟨15, 0, .rw, 1000, .range 10 65535⟩]⟩
/-- PFAIL_STATUS: LIVE, AUTO_GASP, AUTO_NV, GASP_US. -/
def Row.PFAIL_STATUS : RegRow := ⟨0x1C, 1, 4, 1, 4, [⟨31, 31, .ro, 0, .any⟩, ⟨30, 30, .ro, 0, .any⟩, ⟨29, 29, .ro, 0, .any⟩, ⟨15, 0, .ro, 0, .any⟩]⟩
/-- PAD_HOLD: OCT. -/
def Row.PAD_HOLD : RegRow := ⟨0x20, 1, 4, 1, 4, [⟨31, 0, .w1c, 0, .any⟩]⟩
/-- PAD_HOLD_DRAM: DRAM. -/
def Row.PAD_HOLD_DRAM : RegRow := ⟨0x24, 1, 4, 1, 4, [⟨0, 0, .w1c, 0, .any⟩]⟩
/-- POLDER_STATE: S7, S6, S5, S4, S3, S2, S1, S0. -/
def Row.POLDER_STATE : RegRow := ⟨0x40, 7, 4, 1, 4, [⟨30, 28, .ro, 0, .any⟩, ⟨26, 24, .ro, 0, .any⟩, ⟨22, 20, .ro, 0, .any⟩, ⟨18, 16, .ro, 0, .any⟩, ⟨14, 12, .ro, 0, .any⟩, ⟨10, 8, .ro, 0, .any⟩, ⟨6, 4, .ro, 0, .any⟩, ⟨2, 0, .ro, 0, .any⟩]⟩
/-- WAKE_EN: EN. -/
def Row.WAKE_EN : RegRow := ⟨0x80, 16, 4, 1, 4, [⟨31, 0, .rw, 0, .any⟩]⟩
/-- ACCT_0: V. -/
def Row.ACCT_0 : RegRow := ⟨0x200, 49, 16, 1, 4, [⟨31, 0, .rc, 0, .any⟩]⟩
/-- ACCT_1: V. -/
def Row.ACCT_1 : RegRow := ⟨0x204, 49, 16, 1, 4, [⟨31, 0, .rc, 0, .any⟩]⟩
/-- ACCT_2: V. -/
def Row.ACCT_2 : RegRow := ⟨0x208, 49, 16, 1, 4, [⟨31, 0, .rc, 0, .any⟩]⟩
/-- ACCT_3: V. -/
def Row.ACCT_3 : RegRow := ⟨0x20C, 49, 16, 1, 4, [⟨31, 0, .rc, 0, .any⟩]⟩

/-- Every row of the PWR block (spec/12). -/
def rows_pwr : List RegRow := [
  Row.PWR_REQ, Row.PWR_STATUS, Row.PARK_OCT, Row.PARK_CL, Row.PWR_EVT, Row.PWR_IRQ_EN, Row.PWR_CFG, Row.PFAIL_STATUS,
  Row.PAD_HOLD, Row.PAD_HOLD_DRAM, Row.POLDER_STATE, Row.WAKE_EN, Row.ACCT_0, Row.ACCT_1, Row.ACCT_2, Row.ACCT_3]

/-! Rows of the THM block (spec/12). -/

/-- THM_CTRL: EN, BRIDGE_EN, BAND_HYST, STRAY, STRAY_N, STOP_GRACE. -/
def Row.THM_CTRL : RegRow := ⟨0x0, 1, 4, 1, 4, [⟨31, 31, .rw, 1, .any⟩, ⟨30, 30, .rw, 0, .any⟩, ⟨27, 24, .rw, 2, .any⟩, ⟨23, 16, .rw, 8, .range 1 63⟩, ⟨15, 8, .rw, 16, .range 1 255⟩, ⟨7, 0, .rw, 20, .range 1 255⟩]⟩
/-- THM_TIMING: RECOVER, DWELL. -/
def Row.THM_TIMING : RegRow := ⟨0x4, 1, 4, 1, 4, [⟨31, 16, .rw, 10, .range 1 1000⟩, ⟨15, 0, .rw, 1, .range 1 1000⟩]⟩
/-- THM_EVT: EVT. -/
def Row.THM_EVT : RegRow := ⟨0x8, 1, 4, 1, 4, [⟨7, 0, .w1c, 0, .any⟩]⟩
/-- THM_IRQ_EN: EN. -/
def Row.THM_IRQ_EN : RegRow := ⟨0xC, 1, 4, 1, 4, [⟨7, 0, .rw, 255, .any⟩]⟩
/-- BAND_THR: THR3, THR2, THR1. -/
def Row.BAND_THR : RegRow := ⟨0x10, 1, 4, 1, 4, [⟨23, 16, .rw, 95, .any⟩, ⟨15, 8, .rw, 85, .any⟩, ⟨7, 0, .rw, 45, .any⟩]⟩
/-- SENT_CTRL: TRIPPED, DISAGREE, TRIP. -/
def Row.SENT_CTRL : RegRow := ⟨0x14, 1, 4, 1, 4, [⟨31, 31, .ro, 0, .any⟩, ⟨11, 8, .ro, 0, .any⟩, ⟨7, 0, .rw, 120, .any⟩]⟩
/-- SENT_READ: TEMP. -/
def Row.SENT_READ : RegRow := ⟨0x18, 4, 4, 1, 4, [⟨11, 0, .ro, 0, .any⟩]⟩
/-- COMPL: LIMIT. -/
def Row.COMPL : RegRow := ⟨0x30, 4, 4, 1, 4, [⟨23, 0, .rw, 16777215, .any⟩]⟩
/-- BRIDGE_LUT: TEMP. -/
def Row.BRIDGE_LUT : RegRow := ⟨0x40, 33, 4, 1, 4, [⟨11, 0, .rw, 0, .any⟩]⟩
/-- SCFG: EN, EXCL, GROUP, POLDER, RATE, HYST. -/
def Row.SCFG : RegRow := ⟨0x1000, 176, 16, 1, 4, [⟨31, 31, .rw, 1, .any⟩, ⟨30, 30, .w1c, 0, .any⟩, ⟨29, 24, .rw, 0, .any⟩, ⟨21, 16, .ro, 0, .any⟩, ⟨15, 8, .rw, 0, .any⟩, ⟨7, 4, .rw, 0, .any⟩]⟩
/-- SLVL: CRIT, HOT, WARN. -/
def Row.SLVL : RegRow := ⟨0x1004, 176, 16, 1, 4, [⟨23, 16, .rw, 0, .any⟩, ⟨15, 8, .rw, 0, .any⟩, ⟨7, 0, .rw, 0, .any⟩]⟩
/-- READ: VALID, WARN, HOT, CRIT, RATE_HI, WARN_SEEN, HOT_SEEN, CRIT_SEEN, RATE_SEEN, RATE, TEMP. -/
def Row.READ : RegRow := ⟨0x1008, 176, 16, 1, 4, [⟨31, 31, .ro, 0, .any⟩, ⟨30, 30, .ro, 0, .any⟩, ⟨29, 29, .ro, 0, .any⟩, ⟨28, 28, .ro, 0, .any⟩, ⟨27, 27, .ro, 0, .any⟩, ⟨26, 26, .w1c, 0, .any⟩, ⟨25, 25, .w1c, 0, .any⟩, ⟨24, 24, .w1c, 0, .any⟩, ⟨23, 23, .w1c, 0, .any⟩, ⟨21, 12, .ro, 0, .any⟩, ⟨11, 0, .ro, 0, .any⟩]⟩
/-- CAP: CAP_ACTIVE, STOP_PEND, FORCED, BAND, STEP, FLOOR, CAP_MAX. -/
def Row.CAP : RegRow := ⟨0x4000, 48, 4, 1, 4, [⟨31, 31, .ro, 0, .any⟩, ⟨30, 30, .ro, 0, .any⟩, ⟨29, 29, .w1c, 0, .any⟩, ⟨25, 24, .ro, 3, .any⟩, ⟨19, 16, .ro, 15, .any⟩, ⟨11, 8, .rw, 4, .any⟩, ⟨3, 0, .rw, 15, .any⟩]⟩

/-- Every row of the THM block (spec/12). -/
def rows_thm : List RegRow := [
  Row.THM_CTRL, Row.THM_TIMING, Row.THM_EVT, Row.THM_IRQ_EN, Row.BAND_THR, Row.SENT_CTRL, Row.SENT_READ, Row.COMPL,
  Row.BRIDGE_LUT, Row.SCFG, Row.SLVL, Row.READ, Row.CAP]

/-! Rows of the SEC block (spec/13). -/

/-- LC_STATE: PEND, NEXT, STATE. -/
def Row.LC_STATE : RegRow := ⟨0x0, 1, 4, 1, 4, [⟨31, 31, .ro, 0, .any⟩, ⟨10, 8, .ro, 0, .any⟩, ⟨2, 0, .ro, 0, .any⟩]⟩
/-- LC_CTRL: TO_MFG. -/
def Row.LC_CTRL : RegRow := ⟨0x4, 1, 4, 1, 4, [⟨0, 0, .wo, 0, .any⟩]⟩
/-- DBG_STATUS: LOCKOUT, HOLD_OVR, FAILS, SLOT, LAST_RESULT, LEVEL. -/
def Row.DBG_STATUS : RegRow := ⟨0x8, 1, 4, 1, 4, [⟨31, 31, .ro, 0, .any⟩, ⟨30, 30, .w1c, 0, .any⟩, ⟨27, 24, .ro, 0, .any⟩, ⟨19, 18, .ro, 0, .any⟩, ⟨15, 12, .ro, 0, .any⟩, ⟨1, 0, .ro, 2, .any⟩]⟩
/-- DBG_HOLD_LO: POLDER. -/
def Row.DBG_HOLD_LO : RegRow := ⟨0xC, 1, 4, 1, 4, [⟨31, 0, .ro, 0, .any⟩]⟩
/-- DBG_HOLD_HI: POLDER. -/
def Row.DBG_HOLD_HI : RegRow := ⟨0x10, 1, 4, 1, 4, [⟨16, 0, .ro, 0, .any⟩]⟩
/-- FUSE_STATUS: I_REV, I_FUSED, D_REV, D_FUSED, OIK_DEAD, OIK. -/
def Row.FUSE_STATUS : RegRow := ⟨0x14, 1, 4, 1, 4, [⟨31, 24, .ro, 0, .any⟩, ⟨23, 16, .ro, 0, .any⟩, ⟨14, 12, .ro, 0, .any⟩, ⟨10, 8, .ro, 0, .any⟩, ⟨1, 1, .ro, 0, .any⟩, ⟨0, 0, .ro, 0, .any⟩]⟩
/-- POLICY: ENC_REQ, BOOT_BIST, DBG_FULL_OK. -/
def Row.POLICY : RegRow := ⟨0x18, 1, 4, 1, 4, [⟨4, 4, .ro, 0, .any⟩, ⟨3, 1, .ro, 0, .any⟩, ⟨0, 0, .ro, 0, .any⟩]⟩
/-- ROLLBACK: COUNT. -/
def Row.ROLLBACK : RegRow := ⟨0x1C, 1, 4, 1, 4, [⟨6, 0, .ro, 0, .any⟩]⟩
/-- SERIAL_LO: SERIAL. -/
def Row.SERIAL_LO : RegRow := ⟨0x20, 1, 4, 1, 4, [⟨31, 0, .ro, 0, .any⟩]⟩
/-- SERIAL_HI: SERIAL. -/
def Row.SERIAL_HI : RegRow := ⟨0x24, 1, 4, 1, 4, [⟨31, 0, .ro, 0, .any⟩]⟩
/-- RR_COUNT: COUNT. -/
def Row.RR_COUNT : RegRow := ⟨0x28, 1, 4, 1, 4, [⟨31, 0, .ro, 0, .any⟩]⟩
/-- SEC_EVT: EVT. -/
def Row.SEC_EVT : RegRow := ⟨0x30, 1, 4, 1, 4, [⟨7, 0, .w1c, 0, .any⟩]⟩
/-- SEC_IRQ_EN: EN. -/
def Row.SEC_IRQ_EN : RegRow := ⟨0x34, 1, 4, 1, 4, [⟨7, 0, .rw, 255, .any⟩]⟩
/-- VERIFY_LAST: VALID, REFUSED, DETAIL, KEY_INDEX, CLUSTER. -/
def Row.VERIFY_LAST : RegRow := ⟨0x38, 1, 4, 1, 4, [⟨31, 31, .ro, 0, .any⟩, ⟨30, 30, .ro, 0, .any⟩, ⟨27, 24, .ro, 0, .any⟩, ⟨19, 16, .ro, 0, .any⟩, ⟨15, 12, .ro, 0, .any⟩]⟩
/-- VERIFY_FAILS: COUNT. -/
def Row.VERIFY_FAILS : RegRow := ⟨0x3C, 1, 4, 1, 4, [⟨31, 0, .rc, 0, .any⟩]⟩
/-- NV_ADDR: WORD. -/
def Row.NV_ADDR : RegRow := ⟨0x40, 1, 4, 1, 4, [⟨12, 0, .rw, 0, .any⟩]⟩
/-- NV_DATA_LO: DATA. -/
def Row.NV_DATA_LO : RegRow := ⟨0x44, 1, 4, 1, 4, [⟨31, 0, .rw, 0, .any⟩]⟩
/-- NV_DATA_HI: DATA. -/
def Row.NV_DATA_HI : RegRow := ⟨0x48, 1, 4, 1, 4, [⟨31, 0, .rw, 0, .any⟩]⟩
/-- NV_STATUS: BUSY, DENIED, UE, CE. -/
def Row.NV_STATUS : RegRow := ⟨0x4C, 1, 4, 1, 4, [⟨31, 31, .ro, 0, .any⟩, ⟨30, 30, .w1c, 0, .any⟩, ⟨29, 29, .w1c, 0, .any⟩, ⟨28, 28, .w1c, 0, .any⟩]⟩
/-- NV_SEQ: SEQ. -/
def Row.NV_SEQ : RegRow := ⟨0x50, 1, 4, 1, 4, [⟨31, 0, .ro, 0, .any⟩]⟩

/-- Every row of the SEC block (spec/13). -/
def rows_sec : List RegRow := [
  Row.LC_STATE, Row.LC_CTRL, Row.DBG_STATUS, Row.DBG_HOLD_LO, Row.DBG_HOLD_HI, Row.FUSE_STATUS, Row.POLICY, Row.ROLLBACK,
  Row.SERIAL_LO, Row.SERIAL_HI, Row.RR_COUNT, Row.SEC_EVT, Row.SEC_IRQ_EN, Row.VERIFY_LAST, Row.VERIFY_FAILS, Row.NV_ADDR,
  Row.NV_DATA_LO, Row.NV_DATA_HI, Row.NV_STATUS, Row.NV_SEQ]

/-! Rows of the BIST block (spec/14). -/

/-- BIST_CMD: GO, SUBSET, SCOPE, LANE, TARGET. -/
def Row.BIST_CMD : RegRow := ⟨0x0, 1, 4, 1, 4, [⟨31, 31, .wo, 0, .any⟩, ⟨25, 24, .rw, 0, .any⟩, ⟨20, 20, .rw, 0, .any⟩, ⟨18, 16, .rw, 0, .any⟩, ⟨5, 0, .rw, 0, .range 0 48⟩]⟩
/-- BIST_CMD_STATUS: REFUSED, DETAIL. -/
def Row.BIST_CMD_STATUS : RegRow := ⟨0x4, 1, 4, 1, 4, [⟨3, 3, .ro, 0, .any⟩, ⟨2, 0, .ro, 0, .any⟩]⟩
/-- REPAIR_COUNT: FUSED, SOFT. -/
def Row.REPAIR_COUNT : RegRow := ⟨0x8, 1, 4, 1, 4, [⟨25, 16, .ro, 0, .any⟩, ⟨9, 0, .ro, 0, .any⟩]⟩
/-- BIST_BUSY_LO: POLDER. -/
def Row.BIST_BUSY_LO : RegRow := ⟨0x10, 1, 4, 1, 4, [⟨31, 0, .ro, 0, .any⟩]⟩
/-- BIST_BUSY_HI: POLDER. -/
def Row.BIST_BUSY_HI : RegRow := ⟨0x14, 1, 4, 1, 4, [⟨16, 0, .ro, 0, .any⟩]⟩
/-- T_STATUS: STATE, SUBSET, SCOPE, LANE, REPAIRED, UNREPAIRED. -/
def Row.T_STATUS : RegRow := ⟨0x100, 49, 16, 1, 4, [⟨31, 29, .ro, 0, .any⟩, ⟨28, 27, .ro, 0, .any⟩, ⟨26, 26, .ro, 0, .any⟩, ⟨25, 23, .ro, 0, .any⟩, ⟨19, 10, .ro, 0, .any⟩, ⟨9, 0, .ro, 0, .any⟩]⟩
/-- T_SIG_LO: SIG. -/
def Row.T_SIG_LO : RegRow := ⟨0x104, 49, 16, 1, 4, [⟨31, 0, .ro, 0, .any⟩]⟩
/-- T_SIG_HI: SIG. -/
def Row.T_SIG_HI : RegRow := ⟨0x108, 49, 16, 1, 4, [⟨31, 0, .ro, 0, .any⟩]⟩
/-- T_TIME: US. -/
def Row.T_TIME : RegRow := ⟨0x10C, 49, 16, 1, 4, [⟨31, 0, .ro, 0, .any⟩]⟩
/-- SLICE_FAIL_LO: SLICE. -/
def Row.SLICE_FAIL_LO : RegRow := ⟨0x1000, 256, 16, 1, 4, [⟨31, 0, .ro, 0, .any⟩]⟩
/-- SLICE_FAIL_HI: SLICE. -/
def Row.SLICE_FAIL_HI : RegRow := ⟨0x1004, 256, 16, 1, 4, [⟨31, 0, .ro, 0, .any⟩]⟩
/-- SLICE_RES: SPARE_FAIL, CHAIN_FAIL, TL_FAIL, HTR_FAIL, CMD_FAIL, ADC_FAIL, IN_FAIL, TESTED. -/
def Row.SLICE_RES : RegRow := ⟨0x1008, 256, 16, 1, 4, [⟨7, 7, .ro, 0, .any⟩, ⟨6, 6, .ro, 0, .any⟩, ⟨5, 5, .ro, 0, .any⟩, ⟨4, 4, .ro, 0, .any⟩, ⟨3, 3, .ro, 0, .any⟩, ⟨2, 2, .ro, 0, .any⟩, ⟨1, 1, .ro, 0, .any⟩, ⟨0, 0, .ro, 0, .any⟩]⟩

/-- Every row of the BIST block (spec/14). -/
def rows_bist : List RegRow := [
  Row.BIST_CMD, Row.BIST_CMD_STATUS, Row.REPAIR_COUNT, Row.BIST_BUSY_LO, Row.BIST_BUSY_HI, Row.T_STATUS, Row.T_SIG_LO, Row.T_SIG_HI,
  Row.T_TIME, Row.SLICE_FAIL_LO, Row.SLICE_FAIL_HI, Row.SLICE_RES]

/-! Rows of the DEV block (spec/04, 15). -/

/-- ID: REV, PART, MFG, ONE. -/
def Row.ID : RegRow := ⟨0x0, 1, 4, 1, 4, [⟨31, 28, .ro, 0, .any⟩, ⟨27, 12, .ro, 38450, .any⟩, ⟨11, 1, .ro, 0, .any⟩, ⟨0, 0, .ro, 1, .any⟩]⟩
/-- PCI_ID: DEVICE, VENDOR. -/
def Row.PCI_ID : RegRow := ⟨0x4, 1, 4, 1, 4, [⟨31, 16, .ro, 38450, .any⟩, ⟨15, 0, .ro, 0, .any⟩]⟩
/-- RST_CAUSE: LC_APPLIED, CAUSE. -/
def Row.RST_CAUSE : RegRow := ⟨0x10, 1, 4, 1, 4, [⟨31, 31, .ro, 0, .any⟩, ⟨1, 0, .ro, 0, .any⟩]⟩
/-- RST_CTRL: GO, WARM, POLDER. -/
def Row.RST_CTRL : RegRow := ⟨0x14, 1, 4, 1, 4, [⟨31, 31, .wo, 0, .any⟩, ⟨30, 30, .wo, 0, .any⟩, ⟨5, 0, .rw, 0, .range 0 47⟩]⟩
/-- RST_STATUS: BUSY, RESULT, POLDER. -/
def Row.RST_STATUS : RegRow := ⟨0x18, 1, 4, 1, 4, [⟨31, 31, .ro, 0, .any⟩, ⟨30, 28, .ro, 0, .any⟩, ⟨5, 0, .ro, 0, .any⟩]⟩
/-- EPOCH: E3, E2, E1, E0. -/
def Row.EPOCH : RegRow := ⟨0x40, 13, 4, 1, 4, [⟨31, 24, .ro, 0, .any⟩, ⟨23, 16, .ro, 0, .any⟩, ⟨15, 8, .ro, 0, .any⟩, ⟨7, 0, .ro, 0, .any⟩]⟩
/-- BOOT_STATUS: STEP, SFDP, DIR, ENTRY. -/
def Row.BOOT_STATUS : RegRow := ⟨0x100, 1, 4, 1, 4, [⟨31, 28, .rw, 1, .any⟩, ⟨27, 27, .ro, 0, .any⟩, ⟨26, 26, .ro, 0, .any⟩, ⟨25, 22, .ro, 0, .any⟩]⟩
/-- BOOT_ERR: HALTED, CAUSE, DETAIL. -/
def Row.BOOT_ERR : RegRow := ⟨0x104, 1, 4, 1, 4, [⟨31, 31, .ro, 0, .any⟩, ⟨26, 24, .ro, 0, .any⟩, ⟨23, 20, .ro, 0, .any⟩]⟩
/-- HEALTHY_CTRL: EN, KICK, TIMEOUT. -/
def Row.HEALTHY_CTRL : RegRow := ⟨0x120, 1, 4, 1, 4, [⟨31, 31, .rw, 0, .any⟩, ⟨30, 30, .wo, 0, .any⟩, ⟨7, 0, .rw, 100, .range 1 255⟩]⟩
/-- SCRATCH: DATA. -/
def Row.SCRATCH : RegRow := ⟨0x200, 8, 4, 1, 4, [⟨31, 0, .rws, 0, .any⟩]⟩
/-- TB_SEC_LO: SEC. -/
def Row.TB_SEC_LO : RegRow := ⟨0x4000, 1, 4, 1, 4, [⟨31, 0, .ro, 0, .any⟩]⟩
/-- TB_SEC_HI: SEC. -/
def Row.TB_SEC_HI : RegRow := ⟨0x4004, 1, 4, 1, 4, [⟨15, 0, .ro, 0, .any⟩]⟩
/-- TB_PS_LO: PS. -/
def Row.TB_PS_LO : RegRow := ⟨0x4008, 1, 4, 1, 4, [⟨31, 0, .ro, 0, .any⟩]⟩
/-- TB_PS_HI: PS. -/
def Row.TB_PS_HI : RegRow := ⟨0x400C, 1, 4, 1, 4, [⟨7, 0, .ro, 0, .any⟩]⟩
/-- TB_RATE: RATE. -/
def Row.TB_RATE : RegRow := ⟨0x4010, 1, 4, 1, 4, [⟨31, 0, .rw, 0, .signed (-2147483647) 2147483647⟩]⟩
/-- TB_STEP: STEP. -/
def Row.TB_STEP : RegRow := ⟨0x4014, 1, 4, 1, 4, [⟨31, 0, .wo, 0, .signed (-2147483647) 2147483647⟩]⟩
/-- TB_SET_SEC_LO: SEC. -/
def Row.TB_SET_SEC_LO : RegRow := ⟨0x4018, 1, 4, 1, 4, [⟨31, 0, .rw, 0, .any⟩]⟩
/-- TB_SET_SEC_HI: SEC. -/
def Row.TB_SET_SEC_HI : RegRow := ⟨0x401C, 1, 4, 1, 4, [⟨15, 0, .rw, 0, .any⟩]⟩
/-- TB_SET_PS_LO: PS. -/
def Row.TB_SET_PS_LO : RegRow := ⟨0x4020, 1, 4, 1, 4, [⟨31, 0, .rw, 0, .any⟩]⟩
/-- TB_SET_PS_HI: PS. -/
def Row.TB_SET_PS_HI : RegRow := ⟨0x4024, 1, 4, 1, 4, [⟨7, 0, .rw, 0, .any⟩]⟩
/-- TB_CTRL: SET_AT_PPS, SET. -/
def Row.TB_CTRL : RegRow := ⟨0x4028, 1, 4, 1, 4, [⟨1, 1, .rw, 0, .any⟩, ⟨0, 0, .wo, 0, .any⟩]⟩
/-- PPS_IN_TS_0: SEC. -/
def Row.PPS_IN_TS_0 : RegRow := ⟨0x4030, 1, 4, 1, 4, [⟨31, 0, .ro, 0, .any⟩]⟩
/-- PPS_IN_TS_1: SEC. -/
def Row.PPS_IN_TS_1 : RegRow := ⟨0x4034, 1, 4, 1, 4, [⟨15, 0, .ro, 0, .any⟩]⟩
/-- PPS_IN_TS_2: PS. -/
def Row.PPS_IN_TS_2 : RegRow := ⟨0x4038, 1, 4, 1, 4, [⟨31, 0, .ro, 0, .any⟩]⟩
/-- PPS_IN_TS_3: PS. -/
def Row.PPS_IN_TS_3 : RegRow := ⟨0x403C, 1, 4, 1, 4, [⟨7, 0, .ro, 0, .any⟩]⟩
/-- PPS_CTRL: WIDTH, IN_FALL, OUT_EN. -/
def Row.PPS_CTRL : RegRow := ⟨0x4040, 1, 4, 1, 4, [⟨17, 9, .rw, 100, .range 1 500⟩, ⟨1, 1, .rw, 0, .any⟩, ⟨0, 0, .rw, 0, .any⟩]⟩
/-- PPS_OUT_OFS: OFS. -/
def Row.PPS_OUT_OFS : RegRow := ⟨0x4044, 1, 4, 1, 4, [⟨31, 0, .rw, 0, .signed (-2147483647) 2147483647⟩]⟩
/-- TOD_CTRL: LEAP, OUT_EN, UTC_OFS. -/
def Row.TOD_CTRL : RegRow := ⟨0x4048, 1, 4, 1, 4, [⟨17, 17, .rw, 0, .any⟩, ⟨16, 16, .rw, 0, .any⟩, ⟨15, 0, .rw, 37, .any⟩]⟩
/-- TOD_RX_0: SEC. -/
def Row.TOD_RX_0 : RegRow := ⟨0x4050, 1, 4, 1, 4, [⟨31, 0, .ro, 0, .any⟩]⟩
/-- TOD_RX_1: UTC, SEC. -/
def Row.TOD_RX_1 : RegRow := ⟨0x4054, 1, 4, 1, 4, [⟨31, 16, .ro, 0, .any⟩, ⟨15, 0, .ro, 0, .any⟩]⟩
/-- TOD_RX_2: ASSOC, FLAGS, BAD. -/
def Row.TOD_RX_2 : RegRow := ⟨0x4058, 1, 4, 1, 4, [⟨31, 31, .ro, 0, .any⟩, ⟨23, 16, .ro, 0, .any⟩, ⟨15, 0, .rc, 0, .any⟩]⟩
/-- TB_STATUS: SET_PEND, STEP_LOST, SET_DONE. -/
def Row.TB_STATUS : RegRow := ⟨0x4060, 1, 4, 1, 4, [⟨2, 2, .ro, 0, .any⟩, ⟨1, 1, .w1c, 0, .any⟩, ⟨0, 0, .ro, 0, .any⟩]⟩

/-- Every row of the DEV block (spec/04, 15). -/
def rows_dev : List RegRow := [
  Row.ID, Row.PCI_ID, Row.RST_CAUSE, Row.RST_CTRL, Row.RST_STATUS, Row.EPOCH, Row.BOOT_STATUS, Row.BOOT_ERR,
  Row.HEALTHY_CTRL, Row.SCRATCH, Row.TB_SEC_LO, Row.TB_SEC_HI, Row.TB_PS_LO, Row.TB_PS_HI, Row.TB_RATE, Row.TB_STEP,
  Row.TB_SET_SEC_LO, Row.TB_SET_SEC_HI, Row.TB_SET_PS_LO, Row.TB_SET_PS_HI, Row.TB_CTRL, Row.PPS_IN_TS_0, Row.PPS_IN_TS_1, Row.PPS_IN_TS_2,
  Row.PPS_IN_TS_3, Row.PPS_CTRL, Row.PPS_OUT_OFS, Row.TOD_CTRL, Row.TOD_RX_0, Row.TOD_RX_1, Row.TOD_RX_2, Row.TB_STATUS]

/-! Rows of the HOST block (spec/15). -/

/-- HOST_CTRL: IRQN_EN, BAR2_EN. -/
def Row.HOST_CTRL : RegRow := ⟨0x0, 1, 4, 1, 4, [⟨31, 31, .rw, 1, .any⟩, ⟨30, 30, .rw, 0, .any⟩]⟩
/-- HOST_STATUS: LINK_UP, SPEED, WIDTH, PSTATE, L1, PME_STATUS. -/
def Row.HOST_STATUS : RegRow := ⟨0x4, 1, 4, 1, 4, [⟨31, 31, .ro, 0, .any⟩, ⟨30, 28, .ro, 0, .any⟩, ⟨27, 24, .ro, 0, .any⟩, ⟨23, 22, .ro, 0, .any⟩, ⟨21, 21, .ro, 0, .any⟩, ⟨20, 20, .ro, 0, .any⟩]⟩
/-- HOST_EVT: EVT. -/
def Row.HOST_EVT : RegRow := ⟨0x8, 1, 4, 1, 4, [⟨6, 0, .w1c, 0, .any⟩]⟩
/-- HOST_IRQ_EN: EN. -/
def Row.HOST_IRQ_EN : RegRow := ⟨0xC, 1, 4, 1, 4, [⟨6, 0, .rw, 127, .any⟩]⟩
/-- ERR_LOG_0: VALID, SOURCE, CODE, CLUSTER, ENGINE. -/
def Row.ERR_LOG_0 : RegRow := ⟨0x10, 1, 4, 1, 4, [⟨31, 31, .ro, 0, .any⟩, ⟨30, 28, .ro, 0, .any⟩, ⟨27, 24, .ro, 0, .any⟩, ⟨23, 20, .ro, 0, .any⟩, ⟨19, 17, .ro, 0, .any⟩]⟩
/-- ERR_LOG_1: OFFSET. -/
def Row.ERR_LOG_1 : RegRow := ⟨0x14, 1, 4, 1, 4, [⟨31, 0, .ro, 0, .any⟩]⟩
/-- ERR_LOG_STATUS: OVF, FILL. -/
def Row.ERR_LOG_STATUS : RegRow := ⟨0x18, 1, 4, 1, 4, [⟨31, 16, .rc, 0, .any⟩, ⟨4, 0, .ro, 0, .any⟩]⟩
/-- BAR2_PAGE: BASE. -/
def Row.BAR2_PAGE : RegRow := ⟨0x20, 1, 4, 1, 4, [⟨6, 0, .rw, 0, .range 0 112⟩]⟩
/-- Q_CTRL: EN, DIR, GROUP, SQ_SIZE, CQ_SIZE, HOLD_LIM. -/
def Row.Q_CTRL : RegRow := ⟨0x1000, 64, 64, 1, 4, [⟨31, 31, .rw, 0, .any⟩, ⟨30, 30, .rw, 0, .any⟩, ⟨29, 27, .rw, 0, .range 0 6⟩, ⟨23, 20, .rw, 6, .range 4 12⟩, ⟨19, 16, .rw, 6, .range 4 12⟩, ⟨15, 0, .rw, 256, .range 1 65535⟩]⟩
/-- Q_SQ_BASE_LO: ADDR. -/
def Row.Q_SQ_BASE_LO : RegRow := ⟨0x1004, 64, 64, 1, 4, [⟨31, 6, .rw, 0, .any⟩]⟩
/-- Q_SQ_BASE_HI: ADDR. -/
def Row.Q_SQ_BASE_HI : RegRow := ⟨0x1008, 64, 64, 1, 4, [⟨31, 0, .rw, 0, .any⟩]⟩
/-- Q_CQ_BASE_LO: ADDR. -/
def Row.Q_CQ_BASE_LO : RegRow := ⟨0x100C, 64, 64, 1, 4, [⟨31, 6, .rw, 0, .any⟩]⟩
/-- Q_CQ_BASE_HI: ADDR. -/
def Row.Q_CQ_BASE_HI : RegRow := ⟨0x1010, 64, 64, 1, 4, [⟨31, 0, .rw, 0, .any⟩]⟩
/-- Q_SQ_TAIL: IDX. -/
def Row.Q_SQ_TAIL : RegRow := ⟨0x1014, 64, 64, 1, 4, [⟨11, 0, .rw, 0, .any⟩]⟩
/-- Q_SQ_HEAD: IDX. -/
def Row.Q_SQ_HEAD : RegRow := ⟨0x1018, 64, 64, 1, 4, [⟨11, 0, .ro, 0, .any⟩]⟩
/-- Q_CQ_TAIL: IDX. -/
def Row.Q_CQ_TAIL : RegRow := ⟨0x101C, 64, 64, 1, 4, [⟨11, 0, .ro, 0, .any⟩]⟩
/-- Q_CQ_HEAD: IDX. -/
def Row.Q_CQ_HEAD : RegRow := ⟨0x1020, 64, 64, 1, 4, [⟨11, 0, .rw, 0, .any⟩]⟩
/-- Q_MOD: TIME, COUNT. -/
def Row.Q_MOD : RegRow := ⟨0x1024, 64, 64, 1, 4, [⟨25, 16, .rw, 50, .range 1 1000⟩, ⟨8, 0, .rw, 16, .range 1 256⟩]⟩
/-- Q_STATUS: SIGNAL, STOPPED, DROPS. -/
def Row.Q_STATUS : RegRow := ⟨0x1028, 64, 64, 1, 4, [⟨31, 31, .w1c, 0, .any⟩, ⟨30, 30, .w1c, 0, .any⟩, ⟨15, 0, .rc, 0, .any⟩]⟩

/-- Every row of the HOST block (spec/15). -/
def rows_host : List RegRow := [
  Row.HOST_CTRL, Row.HOST_STATUS, Row.HOST_EVT, Row.HOST_IRQ_EN, Row.ERR_LOG_0, Row.ERR_LOG_1, Row.ERR_LOG_STATUS, Row.BAR2_PAGE,
  Row.Q_CTRL, Row.Q_SQ_BASE_LO, Row.Q_SQ_BASE_HI, Row.Q_CQ_BASE_LO, Row.Q_CQ_BASE_HI, Row.Q_SQ_TAIL, Row.Q_SQ_HEAD, Row.Q_CQ_TAIL,
  Row.Q_CQ_HEAD, Row.Q_MOD, Row.Q_STATUS]

/-! Rows of the PHY control group (spec/15). -/

/-- DDR_TRAIN: GO. -/
def Row.DDR_TRAIN : RegRow := ⟨0x0, 1, 4, 1, 4, [⟨31, 31, .wo, 0, .any⟩]⟩
/-- DDR_TRAIN_STATUS: BUSY, DONE, FAIL, MR8. -/
def Row.DDR_TRAIN_STATUS : RegRow := ⟨0x4, 1, 4, 1, 4, [⟨31, 31, .ro, 0, .any⟩, ⟨30, 30, .ro, 0, .any⟩, ⟨29, 29, .ro, 0, .any⟩, ⟨7, 0, .ro, 0, .any⟩]⟩
/-- DDR_TRAIN_FAIL: CH. -/
def Row.DDR_TRAIN_FAIL : RegRow := ⟨0x8, 1, 4, 1, 4, [⟨31, 0, .ro, 0, .any⟩]⟩
/-- PLL_LOCK: LOCK. -/
def Row.PLL_LOCK : RegRow := ⟨0xC, 6, 4, 1, 4, [⟨31, 0, .ro, 0, .any⟩]⟩

/-- Every row of the PHY control group (spec/15). -/
def rows_phyc : List RegRow := [
  Row.DDR_TRAIN, Row.DDR_TRAIN_STATUS, Row.DDR_TRAIN_FAIL, Row.PLL_LOCK]

/-! BAR0 offsets of the registers. -/

def A.RX_STATUS (g : Nat) : Nat := laneBase g + 0x0
def A.LOS_CTRL (g : Nat) : Nat := laneBase g + 0x4
def A.CDR_CTRL (g : Nat) : Nat := laneBase g + 0x8
def A.CAL_CTRL (g : Nat) : Nat := laneBase g + 0x10
def A.CAL_LIMIT (g : Nat) : Nat := laneBase g + 0x14
def A.CAL_STATUS (g : Nat) : Nat := laneBase g + 0x18
def A.CAL_SUSPECT_LO (g : Nat) : Nat := laneBase g + 0x1C
def A.CAL_SUSPECT_HI (g : Nat) : Nat := laneBase g + 0x20
def A.CAL_COEF (g : Nat) (s : Nat) : Nat := laneBase g + 0x100 + s * 4
def A.SPARE_CTRL (g : Nat) : Nat := laneBase g + 0x300
def A.SPARE_STATUS (g : Nat) : Nat := laneBase g + 0x304
def A.FFE_CTRL (g : Nat) : Nat := laneBase g + 0x400
def A.FFE_BANK_SEL (g : Nat) : Nat := laneBase g + 0x404
def A.FFE_STATUS (g : Nat) : Nat := laneBase g + 0x408
def A.FFE_A (g : Nat) (t : Nat) : Nat := laneBase g + 0x500 + t * 4
def A.FFE_B (g : Nat) (t : Nat) : Nat := laneBase g + 0x600 + t * 4
def A.DFE_CTRL (g : Nat) : Nat := laneBase g + 0x700
def A.MLSE_CTRL (g : Nat) : Nat := laneBase g + 0x710
def A.LMS_CTRL (g : Nat) : Nat := laneBase g + 0x800
def A.LMS_STATUS (g : Nat) : Nat := laneBase g + 0x804
def A.LMS_MSE (g : Nat) : Nat := laneBase g + 0x808
def A.DEC_THR (g : Nat) : Nat := laneBase g + 0x810
def A.LAT_RX (g : Nat) : Nat := laneBase g + 0x1F00
def A.LAT_TX (g : Nat) : Nat := laneBase g + 0x1F04
def A.TX_CTRL (g : Nat) : Nat := laneBase g + 0x1000
def A.TX_FFE (g : Nat) : Nat := laneBase g + 0x1004
def A.TX_STATUS (g : Nat) : Nat := laneBase g + 0x1008
def A.TX_PRESET2 (g : Nat) : Nat := laneBase g + 0x1010
def A.TX_PRESET3 (g : Nat) : Nat := laneBase g + 0x1014
def A.PD_CTRL (g : Nat) : Nat := laneBase g + 0x1020
def A.PD_P0 (g : Nat) (i : Nat) : Nat := laneBase g + 0x1100 + i * 4
def A.PD_P1 (g : Nat) (i : Nat) : Nat := laneBase g + 0x1200 + i * 4
def A.PWR_CTRL (g : Nat) : Nat := laneBase g + 0x1300
def A.LPWR_STATUS (g : Nat) : Nat := laneBase g + 0x1304
def A.TRN_CTRL (g : Nat) : Nat := laneBase g + 0x1400
def A.TRN_REQ (g : Nat) : Nat := laneBase g + 0x1404
def A.TRN_STATUS (g : Nat) : Nat := laneBase g + 0x1408
def A.TRN_FAR (g : Nat) : Nat := laneBase g + 0x140C
def A.LB_CTRL (g : Nat) : Nat := laneBase g + 0x1500
def A.LB_STATUS (g : Nat) : Nat := laneBase g + 0x1504
def A.PAT_CTRL (g : Nat) : Nat := laneBase g + 0x1600
def A.PAT_ERR (g : Nat) : Nat := laneBase g + 0x1604
def A.PAT_BITS (g : Nat) : Nat := laneBase g + 0x1608
def A.EYE_CTRL (g : Nat) : Nat := laneBase g + 0x1700
def A.EYE_STATUS (g : Nat) : Nat := laneBase g + 0x1704
def A.EYE_ERR (g : Nat) : Nat := laneBase g + 0x1708
def A.CAP_CTRL (g : Nat) : Nat := laneBase g + 0x1800
def A.CAP_BASE_LO (g : Nat) : Nat := laneBase g + 0x1804
def A.CAP_BASE_HI (g : Nat) : Nat := laneBase g + 0x1808
def A.CAP_WR (g : Nat) : Nat := laneBase g + 0x1810
def A.CAP_RD (g : Nat) : Nat := laneBase g + 0x1814
def A.CAP_MARK (g : Nat) : Nat := laneBase g + 0x1818
def A.CAP_STATUS (g : Nat) : Nat := laneBase g + 0x181C
def A.MODE (o : Nat) : Nat := octBase o + 0x10000
def A.MODE_COMMIT (o : Nat) : Nat := octBase o + 0x10004
def A.MODE_ACTIVE (o : Nat) : Nat := octBase o + 0x10008
def A.PORT_CTRL (o : Nat) : Nat := octBase o + 0x10010
def A.FEC_SNAP (o : Nat) : Nat := octBase o + 0x10014
def A.PORT_STATUS (o : Nat) (p : Nat) : Nat := octBase o + 0x10020 + p * 4
def A.CW_LO (o : Nat) (p : Nat) : Nat := octBase o + 0x10100 + p * 128
def A.CW_HI (o : Nat) (p : Nat) : Nat := octBase o + 0x10104 + p * 128
def A.CORR_LO (o : Nat) (p : Nat) : Nat := octBase o + 0x10108 + p * 128
def A.CORR_HI (o : Nat) (p : Nat) : Nat := octBase o + 0x1010C + p * 128
def A.UNCORR (o : Nat) (p : Nat) : Nat := octBase o + 0x10110 + p * 128
def A.SYM_LO (o : Nat) (p : Nat) : Nat := octBase o + 0x10114 + p * 128
def A.SYM_HI (o : Nat) (p : Nat) : Nat := octBase o + 0x10118 + p * 128
def A.HIST (o : Nat) (p : Nat) (k : Nat) : Nat := octBase o + 0x10120 + p * 128 + k * 4
def A.BIP_ERR (o : Nat) (n : Nat) : Nat := octBase o + 0x10500 + n * 32
def A.SYM_ERR (o : Nat) (n : Nat) : Nat := octBase o + 0x10504 + n * 32
def A.INNER_CORR (o : Nat) (n : Nat) : Nat := octBase o + 0x10508 + n * 32
def A.INNER_FAIL (o : Nat) (n : Nat) : Nat := octBase o + 0x1050C + n * 32
def A.BER_CNT (o : Nat) (n : Nat) : Nat := octBase o + 0x10510 + n * 32
def A.BER_LIMIT (o : Nat) (n : Nat) : Nat := octBase o + 0x10514 + n * 32
def A.TSC_CTRL (o : Nat) (n : Nat) : Nat := octBase o + 0x10600 + n * 32
def A.TSC_STATUS (o : Nat) (n : Nat) : Nat := octBase o + 0x10604 + n * 32
def A.TSC_RX (o : Nat) (n : Nat) : Nat := octBase o + 0x10608 + n * 32
def A.TSC_TX (o : Nat) (n : Nat) : Nat := octBase o + 0x1060C + n * 32
def A.TS_ADJ_RX (o : Nat) (n : Nat) : Nat := octBase o + 0x10610 + n * 32
def A.TS_ADJ_TX (o : Nat) (n : Nat) : Nat := octBase o + 0x10614 + n * 32
def A.TXTS_0 (o : Nat) : Nat := octBase o + 0x10700
def A.TXTS_1 (o : Nat) : Nat := octBase o + 0x10704
def A.TXTS_2 (o : Nat) : Nat := octBase o + 0x10708
def A.TXTS_STATUS (o : Nat) : Nat := octBase o + 0x1070C
def A.TL_CTRL (o : Nat) : Nat := octBase o + 0x14000
def A.TL_ADDR (o : Nat) : Nat := octBase o + 0x14004
def A.TL_TX_CTRL (o : Nat) : Nat := octBase o + 0x14008
def A.TL_STATUS (o : Nat) : Nat := octBase o + 0x1400C
def A.DET_THR_LO (o : Nat) : Nat := octBase o + 0x14010
def A.DET_THR_HI (o : Nat) : Nat := octBase o + 0x14014
def A.TX_DESC (o : Nat) : Nat := octBase o + 0x14020
def A.RX_DESC (o : Nat) : Nat := octBase o + 0x14030
def A.RX_INFO (o : Nat) : Nat := octBase o + 0x14034
def A.RX_POP (o : Nat) : Nat := octBase o + 0x14038
def A.GASP_RX (o : Nat) : Nat := octBase o + 0x14040
def A.MASK_CTRL (o : Nat) : Nat := octBase o + 0x14044
def A.TX_FIR (o : Nat) (i : Nat) : Nat := octBase o + 0x14080 + i * 4
def A.TX_BUF (o : Nat) (w : Nat) : Nat := octBase o + 0x14100 + w * 4
def A.RX_BUF (o : Nat) (w : Nat) : Nat := octBase o + 0x14200 + w * 4
def A.MASK_LIM (o : Nat) (b : Nat) : Nat := octBase o + 0x14300 + b * 4
def A.MASK_PWR (o : Nat) (b : Nat) : Nat := octBase o + 0x14340 + b * 4
def A.TLC (o : Nat) (k : Nat) : Nat := octBase o + 0x14400 + k * 4
def A.AE_CTRL (o : Nat) : Nat := octBase o + 0x18000
def A.AE_SCAN_MASK (o : Nat) : Nat := octBase o + 0x18004
def A.AE_STATUS (o : Nat) : Nat := octBase o + 0x18008
def A.AE_CAL_CTRL (o : Nat) : Nat := octBase o + 0x1800C
def A.AE_OVR (o : Nat) : Nat := octBase o + 0x18010
def A.AE_OUT_CTRL (o : Nat) : Nat := octBase o + 0x18014
def A.AE_DROPOUT (o : Nat) : Nat := octBase o + 0x18018
def A.THR_ABOVE (o : Nat) : Nat := octBase o + 0x18020
def A.THR_BELOW (o : Nat) : Nat := octBase o + 0x18024
def A.THR_UP_SEEN (o : Nat) : Nat := octBase o + 0x18028
def A.THR_DN_SEEN (o : Nat) : Nat := octBase o + 0x1802C
def A.AE_IRQ_EN (o : Nat) : Nat := octBase o + 0x18030
def A.AE_CAL (o : Nat) (r : Nat) : Nat := octBase o + 0x18040 + r * 4
def A.CH_CFG (o : Nat) (c : Nat) : Nat := octBase o + 0x18100 + c * 32
def A.CH_VALUE (o : Nat) (c : Nat) : Nat := octBase o + 0x18104 + c * 32
def A.CH_RAW (o : Nat) (c : Nat) : Nat := octBase o + 0x18108 + c * 32
def A.CH_THR_HI (o : Nat) (c : Nat) : Nat := octBase o + 0x1810C + c * 32
def A.CH_THR_LO (o : Nat) (c : Nat) : Nat := octBase o + 0x18110 + c * 32
def A.CH_THR_CFG (o : Nat) (c : Nat) : Nat := octBase o + 0x18114 + c * 32
def A.CH_DELAY (o : Nat) (c : Nat) : Nat := octBase o + 0x18118 + c * 32
def A.WEIR_CTRL (o : Nat) : Nat := octBase o + 0x1C000
def A.WEIR_STATUS (o : Nat) : Nat := octBase o + 0x1C004
def A.TICK (o : Nat) : Nat := octBase o + 0x1C008
def A.WEIR_IRQ_EN (o : Nat) : Nat := octBase o + 0x1C00C
def A.MODE_SET (o : Nat) : Nat := octBase o + 0x1C010
def A.RC_ADDR (o : Nat) : Nat := octBase o + 0x1C020
def A.RC_DATA (o : Nat) : Nat := octBase o + 0x1C024
def A.L_CTRL (o : Nat) (j : Nat) : Nat := octBase o + 0x1C100 + j * 128
def A.L_STATUS (o : Nat) (j : Nat) : Nat := octBase o + 0x1C104 + j * 128
def A.TARGET (o : Nat) (j : Nat) : Nat := octBase o + 0x1C108 + j * 128
def A.RAMP_RATE (o : Nat) (j : Nat) : Nat := octBase o + 0x1C10C + j * 128
def A.RAMP_ACC (o : Nat) (j : Nat) : Nat := octBase o + 0x1C110 + j * 128
def A.KP (o : Nat) (j : Nat) : Nat := octBase o + 0x1C114 + j * 128
def A.KI (o : Nat) (j : Nat) : Nat := octBase o + 0x1C118 + j * 128
def A.KD (o : Nat) (j : Nat) : Nat := octBase o + 0x1C11C + j * 128
def A.I_LO (o : Nat) (j : Nat) : Nat := octBase o + 0x1C120 + j * 128
def A.I_HI (o : Nat) (j : Nat) : Nat := octBase o + 0x1C124 + j * 128
def A.OUT_LO (o : Nat) (j : Nat) : Nat := octBase o + 0x1C128 + j * 128
def A.OUT_HI (o : Nat) (j : Nat) : Nat := octBase o + 0x1C12C + j * 128
def A.MAN_OUT (o : Nat) (j : Nat) : Nat := octBase o + 0x1C130 + j * 128
def A.PARK (o : Nat) (j : Nat) : Nat := octBase o + 0x1C134 + j * 128
def A.MAN_RATE (o : Nat) (j : Nat) : Nat := octBase o + 0x1C138 + j * 128
def A.LOCK_CFG (o : Nat) (j : Nat) : Nat := octBase o + 0x1C13C + j * 128
def A.RC_WIN (o : Nat) (j : Nat) : Nat := octBase o + 0x1C140 + j * 128
def A.RC_LEARN (o : Nat) (j : Nat) : Nat := octBase o + 0x1C144 + j * 128
def A.RC_PHASE (o : Nat) (j : Nat) : Nat := octBase o + 0x1C148 + j * 128
def A.RC_QLIM (o : Nat) (j : Nat) : Nat := octBase o + 0x1C14C + j * 128
def A.DW_MODEL (o : Nat) (j : Nat) : Nat := octBase o + 0x1C150 + j * 128
def A.DW_GAIN (o : Nat) (j : Nat) : Nat := octBase o + 0x1C154 + j * 128
def A.DW_CFG (o : Nat) (j : Nat) : Nat := octBase o + 0x1C158 + j * 128
def A.DW_BOUND (o : Nat) (j : Nat) : Nat := octBase o + 0x1C15C + j * 128
def A.SETPOINT (o : Nat) (j : Nat) : Nat := octBase o + 0x1C160 + j * 128
def A.VELOCITY (o : Nat) (j : Nat) : Nat := octBase o + 0x1C164 + j * 128
def A.MEAS (o : Nat) (j : Nat) : Nat := octBase o + 0x1C168 + j * 128
def A.ERROR (o : Nat) (j : Nat) : Nat := octBase o + 0x1C16C + j * 128
def A.INTEG_LO (o : Nat) (j : Nat) : Nat := octBase o + 0x1C170 + j * 128
def A.INTEG_HI (o : Nat) (j : Nat) : Nat := octBase o + 0x1C174 + j * 128
def A.OUTPUT (o : Nat) (j : Nat) : Nat := octBase o + 0x1C178 + j * 128
def A.DW_RESID (o : Nat) (j : Nat) : Nat := octBase o + 0x1C17C + j * 128
def A.FL_CTRL : Nat := 0x100000
def A.FL_STATUS : Nat := 0x100004
def A.RECLAIM_RESULT : Nat := 0x100008
def A.HASH_KEY (w : Nat) : Nat := 0x100010 + w * 4
def A.CTRL_ETYPE (i : Nat) : Nat := 0x100040 + i * 4
def A.CTRL_MATCH : Nat := 0x100060
def A.PUNT_MAP (r : Nat) : Nat := 0x100080 + r * 4
def A.PUNT_BASE (c : Nat) : Nat := 0x1000C0 + c * 4
def A.PUNT_CFG (c : Nat) : Nat := 0x1000E0 + c * 4
def A.PUNT_STATUS (c : Nat) : Nat := 0x100100 + c * 4
def A.BERM_RSV_CTRL : Nat := 0x100200
def A.BERM_RSV_ENG : Nat := 0x100204
def A.BERM_RSV_RET : Nat := 0x100208
def A.BERM_USE_CTRL : Nat := 0x100210
def A.BERM_USE_ENG : Nat := 0x100214
def A.BERM_USE_RET : Nat := 0x100218
def A.POOL_FREE : Nat := 0x100220
def A.SHARED_FREE : Nat := 0x100224
def A.SPILL_CTRL : Nat := 0x100300
def A.SPILL_BASE : Nat := 0x100304
def A.SPILL_STATUS : Nat := 0x100308
def A.SPILL_CHUNKS : Nat := 0x10030C
def A.SCHED_IND : Nat := 0x100400
def A.SCHED_IND_STATUS : Nat := 0x100404
def A.SCHED_DATA0 : Nat := 0x100410
def A.SCHED_DATA1 : Nat := 0x100414
def A.SCHED_DATA2 : Nat := 0x100418
def A.SCHED_DATA3 : Nat := 0x10041C
def A.SCHED_DATA4 : Nat := 0x100420
def A.SCHED_DATA5 : Nat := 0x100424
def A.SCHED_DATA6 : Nat := 0x100428
def A.SCHED_COMMIT : Nat := 0x100440
def A.PORT_CFG (p : Nat) : Nat := 0x101000 + p * 4
def A.GAUGE_SRC (g : Nat) : Nat := 0x102000 + g * 16
def A.GAUGE_LVL (g : Nat) : Nat := 0x102004 + g * 16
def A.GAUGE_STAT (g : Nat) : Nat := 0x102008 + g * 16
def A.DROP (r : Nat) : Nat := 0x108004 + r * 4
def A.CT_STOMP : Nat := 0x108080
def A.FL_OVERRUN : Nat := 0x108084
def A.REDIRECT : Nat := 0x108088
def A.SPILL_WAIT : Nat := 0x10808C
def A.CL_MODE (c : Nat) : Nat := 0x200000 + c * 65536
def A.CL_STATE (c : Nat) : Nat := 0x200004 + c * 65536
def A.CL_SH_ECC (c : Nat) : Nat := 0x200008 + c * 65536
def A.CL_STALE (c : Nat) : Nat := 0x20000C + c * 65536
def A.E_PC (c : Nat) (e : Nat) : Nat := 0x200100 + c * 65536 + e * 32
def A.E_CAUSE (c : Nat) (e : Nat) : Nat := 0x200104 + c * 65536 + e * 32
def A.E_EVAL (c : Nat) (e : Nat) : Nat := 0x200108 + c * 65536 + e * 32
def A.E_ECC (c : Nat) (e : Nat) : Nat := 0x20010C + c * 65536 + e * 32
def A.MEM_CFG : Nat := 0x80000
def A.MEM_STATUS : Nat := 0x80004
def A.REFRESH_CTRL : Nat := 0x80008
def A.MEM_IRQ_EN : Nat := 0x8000C
def A.SPILL_LOST : Nat := 0x80010
def A.REGION_VIOL : Nat := 0x80014
def A.MEM_EVT : Nat := 0x80018
def A.REGION_BASE (k : Nat) : Nat := 0x80100 + k * 16
def A.REGION_LIMIT (k : Nat) : Nat := 0x80104 + k * 16
def A.REGION_USE (k : Nat) : Nat := 0x80108 + k * 16
def A.ECC_CE (s : Nat) : Nat := 0x80200 + s * 32
def A.ECC_UE (s : Nat) : Nat := 0x80204 + s * 32
def A.ECC_POISON (s : Nat) : Nat := 0x80208 + s * 32
def A.ECC_LAST_LO (s : Nat) : Nat := 0x8020C + s * 32
def A.ECC_LAST_HI (s : Nat) : Nat := 0x80210 + s * 32
def A.PARITY_CNT (n : Nat) : Nat := 0x80300 + n * 4
def A.POISON_TX : Nat := 0x80310
def A.REWRITE_CTRL : Nat := 0x80400
def A.REWRITE_ADDR_LO : Nat := 0x80404
def A.REWRITE_ADDR_HI : Nat := 0x80408
def A.SCRUB_CTRL : Nat := 0x80500
def A.SCRUB_INT : Nat := 0x80504
def A.SCRUB_LAPNO (s : Nat) : Nat := 0x80510 + s * 8
def A.SCRUB_LAPTIME (s : Nat) : Nat := 0x80514 + s * 8
def A.SCRUB_LOG_0 : Nat := 0x80540
def A.SCRUB_LOG_1 : Nat := 0x80544
def A.SCRUB_LOG_2 : Nat := 0x80548
def A.SCRUB_LOG_STATUS : Nat := 0x8054C
def A.ECCT_CTRL : Nat := 0x80600
def A.ECCT_ADDR_LO : Nat := 0x80604
def A.ECCT_ADDR_HI : Nat := 0x80608
def A.ECCT_DATA_LO : Nat := 0x8060C
def A.ECCT_DATA_HI : Nat := 0x80610
def A.ECCT_CHECK : Nat := 0x80614
def A.PRIO (w : Nat) : Nat := 0x30100 + w * 4
def A.LEVEL (w : Nat) : Nat := 0x30200 + w * 4
def A.PEND (w : Nat) : Nat := 0x30240 + w * 4
def A.SWPEND (w : Nat) : Nat := 0x30280 + w * 4
def A.SWCLR (w : Nat) : Nat := 0x302C0 + w * 4
def A.CLAIMED (w : Nat) : Nat := 0x30300 + w * 4
def A.TGT_EN (t : Nat) (w : Nat) : Nat := 0x31000 + t * 256 + w * 4
def A.THRESH (t : Nat) : Nat := 0x31040 + t * 256
def A.TGT_STATUS (t : Nat) : Nat := 0x31044 + t * 256
def A.TGT_CTRL (t : Nat) : Nat := 0x31048 + t * 256
def A.SPUR_CNT (t : Nat) : Nat := 0x3104C + t * 256
def A.STACK (t : Nat) (i : Nat) : Nat := 0x31080 + t * 256 + i * 4
def A.HOST_CLAIM : Nat := 0x32000
def A.HOST_EOI : Nat := 0x32004
def A.OCT_EN (o : Nat) : Nat := 0x33000 + o * 16
def A.PORT_CHG (o : Nat) : Nat := 0x33004 + o * 16
def A.TIMING_EVT (o : Nat) : Nat := 0x33008 + o * 16
def A.OPWR_EVT (o : Nat) : Nat := 0x3300C + o * 16
def A.DEV_EVT : Nat := 0x33400
def A.CTR_CTRL : Nat := 0x400000
def A.CTR_PERM : Nat := 0x400004
def A.CTR_CLEAR : Nat := 0x400008
def A.DUMP_BASE_LO : Nat := 0x400010
def A.DUMP_BASE_HI : Nat := 0x400014
def A.DUMP_WR : Nat := 0x400018
def A.DUMP_RD : Nat := 0x40001C
def A.DUMP_STATUS : Nat := 0x400020
def A.DUMP_LATCH : Nat := 0x400024
def A.CNT_LO (n : Nat) : Nat := 0x410000 + n * 8
def A.CNT_HI (n : Nat) : Nat := 0x410004 + n * 8
def A.PWR_REQ : Nat := 0x10000
def A.PWR_STATUS : Nat := 0x10004
def A.PARK_OCT : Nat := 0x10008
def A.PARK_CL : Nat := 0x1000C
def A.PWR_EVT : Nat := 0x10010
def A.PWR_IRQ_EN : Nat := 0x10014
def A.PWR_CFG : Nat := 0x10018
def A.PFAIL_STATUS : Nat := 0x1001C
def A.PAD_HOLD : Nat := 0x10020
def A.PAD_HOLD_DRAM : Nat := 0x10024
def A.POLDER_STATE (w : Nat) : Nat := 0x10040 + w * 4
def A.WAKE_EN (w : Nat) : Nat := 0x10080 + w * 4
def A.ACCT_0 (p : Nat) : Nat := 0x10200 + p * 16
def A.ACCT_1 (p : Nat) : Nat := 0x10204 + p * 16
def A.ACCT_2 (p : Nat) : Nat := 0x10208 + p * 16
def A.ACCT_3 (p : Nat) : Nat := 0x1020C + p * 16
def A.THM_CTRL : Nat := 0x20000
def A.THM_TIMING : Nat := 0x20004
def A.THM_EVT : Nat := 0x20008
def A.THM_IRQ_EN : Nat := 0x2000C
def A.BAND_THR : Nat := 0x20010
def A.SENT_CTRL : Nat := 0x20014
def A.SENT_READ (i : Nat) : Nat := 0x20018 + i * 4
def A.COMPL (b : Nat) : Nat := 0x20030 + b * 4
def A.BRIDGE_LUT (k : Nat) : Nat := 0x20040 + k * 4
def A.SCFG (n : Nat) : Nat := 0x21000 + n * 16
def A.SLVL (n : Nat) : Nat := 0x21004 + n * 16
def A.READ (n : Nat) : Nat := 0x21008 + n * 16
def A.CAP (p : Nat) : Nat := 0x24000 + p * 4
def A.LC_STATE : Nat := 0x50000
def A.LC_CTRL : Nat := 0x50004
def A.DBG_STATUS : Nat := 0x50008
def A.DBG_HOLD_LO : Nat := 0x5000C
def A.DBG_HOLD_HI : Nat := 0x50010
def A.FUSE_STATUS : Nat := 0x50014
def A.POLICY : Nat := 0x50018
def A.ROLLBACK : Nat := 0x5001C
def A.SERIAL_LO : Nat := 0x50020
def A.SERIAL_HI : Nat := 0x50024
def A.RR_COUNT : Nat := 0x50028
def A.SEC_EVT : Nat := 0x50030
def A.SEC_IRQ_EN : Nat := 0x50034
def A.VERIFY_LAST : Nat := 0x50038
def A.VERIFY_FAILS : Nat := 0x5003C
def A.NV_ADDR : Nat := 0x50040
def A.NV_DATA_LO : Nat := 0x50044
def A.NV_DATA_HI : Nat := 0x50048
def A.NV_STATUS : Nat := 0x5004C
def A.NV_SEQ : Nat := 0x50050
def A.BIST_CMD : Nat := 0x60000
def A.BIST_CMD_STATUS : Nat := 0x60004
def A.REPAIR_COUNT : Nat := 0x60008
def A.BIST_BUSY_LO : Nat := 0x60010
def A.BIST_BUSY_HI : Nat := 0x60014
def A.T_STATUS (t : Nat) : Nat := 0x60100 + t * 16
def A.T_SIG_LO (t : Nat) : Nat := 0x60104 + t * 16
def A.T_SIG_HI (t : Nat) : Nat := 0x60108 + t * 16
def A.T_TIME (t : Nat) : Nat := 0x6010C + t * 16
def A.SLICE_FAIL_LO (g : Nat) : Nat := 0x61000 + g * 16
def A.SLICE_FAIL_HI (g : Nat) : Nat := 0x61004 + g * 16
def A.SLICE_RES (g : Nat) : Nat := 0x61008 + g * 16
def A.ID : Nat := 0x0
def A.PCI_ID : Nat := 0x4
def A.RST_CAUSE : Nat := 0x10
def A.RST_CTRL : Nat := 0x14
def A.RST_STATUS : Nat := 0x18
def A.EPOCH (w : Nat) : Nat := 0x40 + w * 4
def A.BOOT_STATUS : Nat := 0x100
def A.BOOT_ERR : Nat := 0x104
def A.HEALTHY_CTRL : Nat := 0x120
def A.SCRATCH (i : Nat) : Nat := 0x200 + i * 4
def A.TB_SEC_LO : Nat := 0x4000
def A.TB_SEC_HI : Nat := 0x4004
def A.TB_PS_LO : Nat := 0x4008
def A.TB_PS_HI : Nat := 0x400C
def A.TB_RATE : Nat := 0x4010
def A.TB_STEP : Nat := 0x4014
def A.TB_SET_SEC_LO : Nat := 0x4018
def A.TB_SET_SEC_HI : Nat := 0x401C
def A.TB_SET_PS_LO : Nat := 0x4020
def A.TB_SET_PS_HI : Nat := 0x4024
def A.TB_CTRL : Nat := 0x4028
def A.PPS_IN_TS_0 : Nat := 0x4030
def A.PPS_IN_TS_1 : Nat := 0x4034
def A.PPS_IN_TS_2 : Nat := 0x4038
def A.PPS_IN_TS_3 : Nat := 0x403C
def A.PPS_CTRL : Nat := 0x4040
def A.PPS_OUT_OFS : Nat := 0x4044
def A.TOD_CTRL : Nat := 0x4048
def A.TOD_RX_0 : Nat := 0x4050
def A.TOD_RX_1 : Nat := 0x4054
def A.TOD_RX_2 : Nat := 0x4058
def A.TB_STATUS : Nat := 0x4060
def A.HOST_CTRL : Nat := 0x40000
def A.HOST_STATUS : Nat := 0x40004
def A.HOST_EVT : Nat := 0x40008
def A.HOST_IRQ_EN : Nat := 0x4000C
def A.ERR_LOG_0 : Nat := 0x40010
def A.ERR_LOG_1 : Nat := 0x40014
def A.ERR_LOG_STATUS : Nat := 0x40018
def A.BAR2_PAGE : Nat := 0x40020
def A.Q_CTRL (q : Nat) : Nat := 0x41000 + q * 64
def A.Q_SQ_BASE_LO (q : Nat) : Nat := 0x41004 + q * 64
def A.Q_SQ_BASE_HI (q : Nat) : Nat := 0x41008 + q * 64
def A.Q_CQ_BASE_LO (q : Nat) : Nat := 0x4100C + q * 64
def A.Q_CQ_BASE_HI (q : Nat) : Nat := 0x41010 + q * 64
def A.Q_SQ_TAIL (q : Nat) : Nat := 0x41014 + q * 64
def A.Q_SQ_HEAD (q : Nat) : Nat := 0x41018 + q * 64
def A.Q_CQ_TAIL (q : Nat) : Nat := 0x4101C + q * 64
def A.Q_CQ_HEAD (q : Nat) : Nat := 0x41020 + q * 64
def A.Q_MOD (q : Nat) : Nat := 0x41024 + q * 64
def A.Q_STATUS (q : Nat) : Nat := 0x41028 + q * 64
def A.DDR_TRAIN : Nat := 0xC00000
def A.DDR_TRAIN_STATUS : Nat := 0xC00004
def A.DDR_TRAIN_FAIL : Nat := 0xC00008
def A.PLL_LOCK (n : Nat) : Nat := 0xC0000C + n * 4

/-! The fields of the registers. -/

def R.RX_STATUS.SCAN_UNAVAIL (g : Nat) : Fld := ⟨A.RX_STATUS g, 15, 15⟩
def R.RX_STATUS.SPARE_REPAIR (g : Nat) : Fld := ⟨A.RX_STATUS g, 14, 14⟩
def R.RX_STATUS.LMS_DIVERGED (g : Nat) : Fld := ⟨A.RX_STATUS g, 13, 13⟩
def R.RX_STATUS.LMS_FROZEN (g : Nat) : Fld := ⟨A.RX_STATUS g, 12, 12⟩
def R.RX_STATUS.SWAP_HELD (g : Nat) : Fld := ⟨A.RX_STATUS g, 11, 11⟩
def R.RX_STATUS.FADING (g : Nat) : Fld := ⟨A.RX_STATUS g, 10, 10⟩
def R.RX_STATUS.ACTIVE_BANK (g : Nat) : Fld := ⟨A.RX_STATUS g, 9, 9⟩
def R.RX_STATUS.CAL_STARVED (g : Nat) : Fld := ⟨A.RX_STATUS g, 8, 8⟩
def R.RX_STATUS.CAL_STATE (g : Nat) : Fld := ⟨A.RX_STATUS g, 7, 5⟩
def R.RX_STATUS.MARKER_LOCK (g : Nat) : Fld := ⟨A.RX_STATUS g, 4, 4⟩
def R.RX_STATUS.CDR_LOCK (g : Nat) : Fld := ⟨A.RX_STATUS g, 3, 3⟩
def R.RX_STATUS.LOS (g : Nat) : Fld := ⟨A.RX_STATUS g, 2, 2⟩
def R.RX_STATUS.MODE (g : Nat) : Fld := ⟨A.RX_STATUS g, 1, 0⟩
def R.LOS_CTRL.HYST (g : Nat) : Fld := ⟨A.LOS_CTRL g, 13, 8⟩
def R.LOS_CTRL.THR (g : Nat) : Fld := ⟨A.LOS_CTRL g, 7, 0⟩
def R.CDR_CTRL.BW (g : Nat) : Fld := ⟨A.CDR_CTRL g, 1, 0⟩
def R.CAL_CTRL.RESUME (g : Nat) : Fld := ⟨A.CAL_CTRL g, 23, 20⟩
def R.CAL_CTRL.TRK_WIN (g : Nat) : Fld := ⟨A.CAL_CTRL g, 19, 16⟩
def R.CAL_CTRL.ACQ_WIN (g : Nat) : Fld := ⟨A.CAL_CTRL g, 15, 12⟩
def R.CAL_CTRL.TRK_SHIFT (g : Nat) : Fld := ⟨A.CAL_CTRL g, 11, 9⟩
def R.CAL_CTRL.ACQ_SHIFT (g : Nat) : Fld := ⟨A.CAL_CTRL g, 8, 6⟩
def R.CAL_CTRL.OFS_EN (g : Nat) : Fld := ⟨A.CAL_CTRL g, 3, 3⟩
def R.CAL_CTRL.GAIN_EN (g : Nat) : Fld := ⟨A.CAL_CTRL g, 2, 2⟩
def R.CAL_CTRL.SKEW_EN (g : Nat) : Fld := ⟨A.CAL_CTRL g, 1, 1⟩
def R.CAL_CTRL.EN (g : Nat) : Fld := ⟨A.CAL_CTRL g, 0, 0⟩
def R.CAL_LIMIT.SKEW_STEP (g : Nat) : Fld := ⟨A.CAL_LIMIT g, 26, 18⟩
def R.CAL_LIMIT.GAIN_STEP (g : Nat) : Fld := ⟨A.CAL_LIMIT g, 17, 9⟩
def R.CAL_LIMIT.OFS_STEP (g : Nat) : Fld := ⟨A.CAL_LIMIT g, 8, 0⟩
def R.CAL_STATUS.UPDATES (g : Nat) : Fld := ⟨A.CAL_STATUS g, 31, 16⟩
def R.CAL_STATUS.PASS_RUN (g : Nat) : Fld := ⟨A.CAL_STATUS g, 11, 8⟩
def R.CAL_STATUS.WR_PENDING (g : Nat) : Fld := ⟨A.CAL_STATUS g, 7, 7⟩
def R.CAL_STATUS.SW_OVERRIDE (g : Nat) : Fld := ⟨A.CAL_STATUS g, 6, 6⟩
def R.CAL_STATUS.SUSPECT (g : Nat) : Fld := ⟨A.CAL_STATUS g, 5, 5⟩
def R.CAL_STATUS.STARVED_SEEN (g : Nat) : Fld := ⟨A.CAL_STATUS g, 4, 4⟩
def R.CAL_STATUS.STARVED (g : Nat) : Fld := ⟨A.CAL_STATUS g, 3, 3⟩
def R.CAL_STATUS.STATE (g : Nat) : Fld := ⟨A.CAL_STATUS g, 2, 0⟩
def R.CAL_SUSPECT_LO.SLICE (g : Nat) : Fld := ⟨A.CAL_SUSPECT_LO g, 31, 0⟩
def R.CAL_SUSPECT_HI.SLICE (g : Nat) : Fld := ⟨A.CAL_SUSPECT_HI g, 31, 0⟩
def R.CAL_COEF.SKEW (g : Nat) (s : Nat) : Fld := ⟨A.CAL_COEF g s, 31, 22⟩
def R.CAL_COEF.GAIN (g : Nat) (s : Nat) : Fld := ⟨A.CAL_COEF g s, 21, 10⟩
def R.CAL_COEF.OFFSET (g : Nat) (s : Nat) : Fld := ⟨A.CAL_COEF g s, 9, 0⟩
def R.SPARE_CTRL.XCHK_LIMIT (g : Nat) : Fld := ⟨A.SPARE_CTRL g, 23, 20⟩
def R.SPARE_CTRL.REPAIR_SLICE (g : Nat) : Fld := ⟨A.SPARE_CTRL g, 13, 8⟩
def R.SPARE_CTRL.XCHK_EN (g : Nat) : Fld := ⟨A.SPARE_CTRL g, 1, 1⟩
def R.SPARE_CTRL.REPAIR_EN (g : Nat) : Fld := ⟨A.SPARE_CTRL g, 0, 0⟩
def R.SPARE_STATUS.MODE (g : Nat) : Fld := ⟨A.SPARE_STATUS g, 31, 30⟩
def R.SPARE_STATUS.SLICE (g : Nat) : Fld := ⟨A.SPARE_STATUS g, 29, 24⟩
def R.SPARE_STATUS.TAKEOVER_PEND (g : Nat) : Fld := ⟨A.SPARE_STATUS g, 23, 23⟩
def R.SPARE_STATUS.FUSED (g : Nat) : Fld := ⟨A.SPARE_STATUS g, 22, 22⟩
def R.SPARE_STATUS.SPARE_SUSPECT (g : Nat) : Fld := ⟨A.SPARE_STATUS g, 21, 21⟩
def R.SPARE_STATUS.XCHK_FAILS (g : Nat) : Fld := ⟨A.SPARE_STATUS g, 15, 0⟩
def R.FFE_CTRL.CURSOR_B (g : Nat) : Fld := ⟨A.FFE_CTRL g, 21, 16⟩
def R.FFE_CTRL.CURSOR_A (g : Nat) : Fld := ⟨A.FFE_CTRL g, 13, 8⟩
def R.FFE_BANK_SEL.SEL (g : Nat) : Fld := ⟨A.FFE_BANK_SEL g, 8, 8⟩
def R.FFE_BANK_SEL.FADE_K (g : Nat) : Fld := ⟨A.FFE_BANK_SEL g, 4, 0⟩
def R.FFE_STATUS.DROP_CNT (g : Nat) : Fld := ⟨A.FFE_STATUS g, 31, 16⟩
def R.FFE_STATUS.HELD_K (g : Nat) : Fld := ⟨A.FFE_STATUS g, 12, 8⟩
def R.FFE_STATUS.HELD_BANK (g : Nat) : Fld := ⟨A.FFE_STATUS g, 7, 7⟩
def R.FFE_STATUS.SWAP_HELD (g : Nat) : Fld := ⟨A.FFE_STATUS g, 6, 6⟩
def R.FFE_STATUS.ACTIVE_WR (g : Nat) : Fld := ⟨A.FFE_STATUS g, 5, 5⟩
def R.FFE_STATUS.FADING (g : Nat) : Fld := ⟨A.FFE_STATUS g, 4, 4⟩
def R.FFE_STATUS.TARGET (g : Nat) : Fld := ⟨A.FFE_STATUS g, 3, 3⟩
def R.FFE_STATUS.ACTIVE (g : Nat) : Fld := ⟨A.FFE_STATUS g, 2, 2⟩
def R.FFE_A.COEF (g : Nat) (t : Nat) : Fld := ⟨A.FFE_A g t, 9, 0⟩
def R.FFE_B.COEF (g : Nat) (t : Nat) : Fld := ⟨A.FFE_B g t, 9, 0⟩
def R.DFE_CTRL.H1 (g : Nat) : Fld := ⟨A.DFE_CTRL g, 15, 8⟩
def R.DFE_CTRL.ADAPT (g : Nat) : Fld := ⟨A.DFE_CTRL g, 1, 1⟩
def R.DFE_CTRL.EN (g : Nat) : Fld := ⟨A.DFE_CTRL g, 0, 0⟩
def R.MLSE_CTRL.H2 (g : Nat) : Fld := ⟨A.MLSE_CTRL g, 23, 16⟩
def R.MLSE_CTRL.H1 (g : Nat) : Fld := ⟨A.MLSE_CTRL g, 15, 8⟩
def R.MLSE_CTRL.ADAPT (g : Nat) : Fld := ⟨A.MLSE_CTRL g, 0, 0⟩
def R.LMS_CTRL.LEAK (g : Nat) : Fld := ⟨A.LMS_CTRL g, 23, 20⟩
def R.LMS_CTRL.UPD (g : Nat) : Fld := ⟨A.LMS_CTRL g, 19, 16⟩
def R.LMS_CTRL.MU_TRK (g : Nat) : Fld := ⟨A.LMS_CTRL g, 15, 11⟩
def R.LMS_CTRL.MU_ACQ (g : Nat) : Fld := ⟨A.LMS_CTRL g, 10, 6⟩
def R.LMS_CTRL.THR_ADAPT (g : Nat) : Fld := ⟨A.LMS_CTRL g, 5, 5⟩
def R.LMS_CTRL.CURSOR_ADAPT (g : Nat) : Fld := ⟨A.LMS_CTRL g, 4, 4⟩
def R.LMS_CTRL.EN (g : Nat) : Fld := ⟨A.LMS_CTRL g, 0, 0⟩
def R.LMS_STATUS.UPDATES (g : Nat) : Fld := ⟨A.LMS_STATUS g, 31, 16⟩
def R.LMS_STATUS.DIVERGED (g : Nat) : Fld := ⟨A.LMS_STATUS g, 7, 7⟩
def R.LMS_STATUS.FROZEN (g : Nat) : Fld := ⟨A.LMS_STATUS g, 6, 6⟩
def R.LMS_STATUS.TAP_LIMIT (g : Nat) : Fld := ⟨A.LMS_STATUS g, 5, 5⟩
def R.LMS_STATUS.BY_FADE (g : Nat) : Fld := ⟨A.LMS_STATUS g, 4, 4⟩
def R.LMS_STATUS.BY_CAL (g : Nat) : Fld := ⟨A.LMS_STATUS g, 3, 3⟩
def R.LMS_STATUS.BY_SW (g : Nat) : Fld := ⟨A.LMS_STATUS g, 2, 2⟩
def R.LMS_MSE.ALARM_THR (g : Nat) : Fld := ⟨A.LMS_MSE g, 31, 16⟩
def R.LMS_MSE.MSE (g : Nat) : Fld := ⟨A.LMS_MSE g, 15, 0⟩
def R.DEC_THR.THR_HI (g : Nat) : Fld := ⟨A.DEC_THR g, 23, 16⟩
def R.DEC_THR.THR_MID (g : Nat) : Fld := ⟨A.DEC_THR g, 15, 8⟩
def R.DEC_THR.THR_LO (g : Nat) : Fld := ⟨A.DEC_THR g, 7, 0⟩
def R.LAT_RX.VALID (g : Nat) : Fld := ⟨A.LAT_RX g, 31, 31⟩
def R.LAT_RX.ELASTIC (g : Nat) : Fld := ⟨A.LAT_RX g, 30, 30⟩
def R.LAT_RX.DESKEW (g : Nat) : Fld := ⟨A.LAT_RX g, 29, 23⟩
def R.LAT_RX.APT_LATE (g : Nat) : Fld := ⟨A.LAT_RX g, 22, 22⟩
def R.LAT_RX.RX_L (g : Nat) : Fld := ⟨A.LAT_RX g, 21, 13⟩
def R.LAT_TX.VALID (g : Nat) : Fld := ⟨A.LAT_TX g, 31, 31⟩
def R.LAT_TX.APT_LATE (g : Nat) : Fld := ⟨A.LAT_TX g, 22, 22⟩
def R.LAT_TX.TX_L (g : Nat) : Fld := ⟨A.LAT_TX g, 21, 13⟩
def R.TX_CTRL.AMP (g : Nat) : Fld := ⟨A.TX_CTRL g, 15, 8⟩
def R.TX_CTRL.INVERT (g : Nat) : Fld := ⟨A.TX_CTRL g, 0, 0⟩
def R.TX_FFE.PRE2 (g : Nat) : Fld := ⟨A.TX_FFE g, 28, 24⟩
def R.TX_FFE.PRE1 (g : Nat) : Fld := ⟨A.TX_FFE g, 23, 18⟩
def R.TX_FFE.MAIN (g : Nat) : Fld := ⟨A.TX_FFE g, 17, 11⟩
def R.TX_FFE.POST1 (g : Nat) : Fld := ⟨A.TX_FFE g, 10, 5⟩
def R.TX_FFE.POST2 (g : Nat) : Fld := ⟨A.TX_FFE g, 4, 0⟩
def R.TX_STATUS.SAT_CNT (g : Nat) : Fld := ⟨A.TX_STATUS g, 31, 16⟩
def R.TX_STATUS.FFE_CLAMP (g : Nat) : Fld := ⟨A.TX_STATUS g, 2, 2⟩
def R.TX_STATUS.PD_WR_IGN (g : Nat) : Fld := ⟨A.TX_STATUS g, 1, 1⟩
def R.TX_STATUS.PD_PAGE (g : Nat) : Fld := ⟨A.TX_STATUS g, 0, 0⟩
def R.TX_PRESET2.PRE2 (g : Nat) : Fld := ⟨A.TX_PRESET2 g, 28, 24⟩
def R.TX_PRESET2.PRE1 (g : Nat) : Fld := ⟨A.TX_PRESET2 g, 23, 18⟩
def R.TX_PRESET2.MAIN (g : Nat) : Fld := ⟨A.TX_PRESET2 g, 17, 11⟩
def R.TX_PRESET2.POST1 (g : Nat) : Fld := ⟨A.TX_PRESET2 g, 10, 5⟩
def R.TX_PRESET2.POST2 (g : Nat) : Fld := ⟨A.TX_PRESET2 g, 4, 0⟩
def R.TX_PRESET3.PRE2 (g : Nat) : Fld := ⟨A.TX_PRESET3 g, 28, 24⟩
def R.TX_PRESET3.PRE1 (g : Nat) : Fld := ⟨A.TX_PRESET3 g, 23, 18⟩
def R.TX_PRESET3.MAIN (g : Nat) : Fld := ⟨A.TX_PRESET3 g, 17, 11⟩
def R.TX_PRESET3.POST1 (g : Nat) : Fld := ⟨A.TX_PRESET3 g, 10, 5⟩
def R.TX_PRESET3.POST2 (g : Nat) : Fld := ⟨A.TX_PRESET3 g, 4, 0⟩
def R.PD_CTRL.EN (g : Nat) : Fld := ⟨A.PD_CTRL g, 1, 1⟩
def R.PD_CTRL.PAGE (g : Nat) : Fld := ⟨A.PD_CTRL g, 0, 0⟩
def R.PD_P0.CORR (g : Nat) (i : Nat) : Fld := ⟨A.PD_P0 g i, 7, 0⟩
def R.PD_P1.CORR (g : Nat) (i : Nat) : Fld := ⟨A.PD_P1 g i, 7, 0⟩
def R.PWR_CTRL.DEEP (g : Nat) : Fld := ⟨A.PWR_CTRL g, 2, 2⟩
def R.PWR_CTRL.RXQ (g : Nat) : Fld := ⟨A.PWR_CTRL g, 1, 1⟩
def R.PWR_CTRL.TXQ (g : Nat) : Fld := ⟨A.PWR_CTRL g, 0, 0⟩
def R.LPWR_STATUS.BUSY (g : Nat) : Fld := ⟨A.LPWR_STATUS g, 7, 7⟩
def R.LPWR_STATUS.QUEUED (g : Nat) : Fld := ⟨A.LPWR_STATUS g, 6, 6⟩
def R.LPWR_STATUS.RX_STATE (g : Nat) : Fld := ⟨A.LPWR_STATUS g, 5, 4⟩
def R.LPWR_STATUS.TX_STATE (g : Nat) : Fld := ⟨A.LPWR_STATUS g, 3, 2⟩
def R.TRN_CTRL.START (g : Nat) : Fld := ⟨A.TRN_CTRL g, 31, 31⟩
def R.TRN_CTRL.LOCAL_READY (g : Nat) : Fld := ⟨A.TRN_CTRL g, 30, 30⟩
def R.TRN_CTRL.RETRIES (g : Nat) : Fld := ⟨A.TRN_CTRL g, 27, 24⟩
def R.TRN_CTRL.RESEND (g : Nat) : Fld := ⟨A.TRN_CTRL g, 23, 16⟩
def R.TRN_CTRL.LIMIT (g : Nat) : Fld := ⟨A.TRN_CTRL g, 15, 8⟩
def R.TRN_REQ.SEQ (g : Nat) : Fld := ⟨A.TRN_REQ g, 14, 12⟩
def R.TRN_REQ.PRESET (g : Nat) : Fld := ⟨A.TRN_REQ g, 11, 10⟩
def R.TRN_REQ.CMD (g : Nat) : Fld := ⟨A.TRN_REQ g, 9, 0⟩
def R.TRN_STATUS.REQ_PEND (g : Nat) : Fld := ⟨A.TRN_STATUS g, 31, 31⟩
def R.TRN_STATUS.REQ_BUSY (g : Nat) : Fld := ⟨A.TRN_STATUS g, 30, 30⟩
def R.TRN_STATUS.REQ_TIMEOUT (g : Nat) : Fld := ⟨A.TRN_STATUS g, 29, 29⟩
def R.TRN_STATUS.STATE (g : Nat) : Fld := ⟨A.TRN_STATUS g, 28, 26⟩
def R.TRN_STATUS.CAUSE (g : Nat) : Fld := ⟨A.TRN_STATUS g, 25, 24⟩
def R.TRN_STATUS.FAR_READY (g : Nat) : Fld := ⟨A.TRN_STATUS g, 23, 23⟩
def R.TRN_STATUS.FAR_SEEN (g : Nat) : Fld := ⟨A.TRN_STATUS g, 22, 22⟩
def R.TRN_STATUS.SEEN_SENT (g : Nat) : Fld := ⟨A.TRN_STATUS g, 21, 21⟩
def R.TRN_STATUS.RETRAIN (g : Nat) : Fld := ⟨A.TRN_STATUS g, 20, 20⟩
def R.TRN_STATUS.RETRY_CNT (g : Nat) : Fld := ⟨A.TRN_STATUS g, 19, 16⟩
def R.TRN_STATUS.RSP_SEQ (g : Nat) : Fld := ⟨A.TRN_STATUS g, 15, 13⟩
def R.TRN_STATUS.ST (g : Nat) : Fld := ⟨A.TRN_STATUS g, 9, 0⟩
def R.TRN_FAR.VALID (g : Nat) : Fld := ⟨A.TRN_FAR g, 31, 31⟩
def R.TRN_FAR.LAST_SEQ (g : Nat) : Fld := ⟨A.TRN_FAR g, 14, 12⟩
def R.TRN_FAR.LAST_PRESET (g : Nat) : Fld := ⟨A.TRN_FAR g, 11, 10⟩
def R.TRN_FAR.LAST_ST (g : Nat) : Fld := ⟨A.TRN_FAR g, 9, 0⟩
def R.LB_CTRL.PAD_MUTE (g : Nat) : Fld := ⟨A.LB_CTRL g, 3, 3⟩
def R.LB_CTRL.MODE (g : Nat) : Fld := ⟨A.LB_CTRL g, 2, 0⟩
def R.LB_STATUS.SLIPS (g : Nat) : Fld := ⟨A.LB_STATUS g, 31, 16⟩
def R.LB_STATUS.ACTIVE (g : Nat) : Fld := ⟨A.LB_STATUS g, 2, 0⟩
def R.PAT_CTRL.SYNC (g : Nat) : Fld := ⟨A.PAT_CTRL g, 31, 31⟩
def R.PAT_CTRL.CHK (g : Nat) : Fld := ⟨A.PAT_CTRL g, 6, 4⟩
def R.PAT_CTRL.GEN (g : Nat) : Fld := ⟨A.PAT_CTRL g, 2, 0⟩
def R.PAT_ERR.ERR (g : Nat) : Fld := ⟨A.PAT_ERR g, 31, 0⟩
def R.PAT_BITS.UNITS (g : Nat) : Fld := ⟨A.PAT_BITS g, 31, 0⟩
def R.EYE_CTRL.START (g : Nat) : Fld := ⟨A.EYE_CTRL g, 31, 31⟩
def R.EYE_CTRL.ABORT (g : Nat) : Fld := ⟨A.EYE_CTRL g, 30, 30⟩
def R.EYE_CTRL.DWELL (g : Nat) : Fld := ⟨A.EYE_CTRL g, 29, 24⟩
def R.EYE_CTRL.THR (g : Nat) : Fld := ⟨A.EYE_CTRL g, 23, 22⟩
def R.EYE_CTRL.PHASE (g : Nat) : Fld := ⟨A.EYE_CTRL g, 21, 15⟩
def R.EYE_CTRL.VOFS (g : Nat) : Fld := ⟨A.EYE_CTRL g, 7, 0⟩
def R.EYE_STATUS.RESULT (g : Nat) : Fld := ⟨A.EYE_STATUS g, 2, 0⟩
def R.EYE_ERR.ERR (g : Nat) : Fld := ⟨A.EYE_ERR g, 31, 0⟩
def R.CAP_CTRL.EN (g : Nat) : Fld := ⟨A.CAP_CTRL g, 31, 31⟩
def R.CAP_CTRL.MARK (g : Nat) : Fld := ⟨A.CAP_CTRL g, 30, 30⟩
def R.CAP_CTRL.REWIND (g : Nat) : Fld := ⟨A.CAP_CTRL g, 29, 29⟩
def R.CAP_CTRL.TRIG_SW (g : Nat) : Fld := ⟨A.CAP_CTRL g, 28, 28⟩
def R.CAP_CTRL.SRC (g : Nat) : Fld := ⟨A.CAP_CTRL g, 27, 26⟩
def R.CAP_CTRL.DEC (g : Nat) : Fld := ⟨A.CAP_CTRL g, 25, 22⟩
def R.CAP_CTRL.TRIG_SEL (g : Nat) : Fld := ⟨A.CAP_CTRL g, 21, 18⟩
def R.CAP_CTRL.STOP (g : Nat) : Fld := ⟨A.CAP_CTRL g, 17, 17⟩
def R.CAP_CTRL.SIZE (g : Nat) : Fld := ⟨A.CAP_CTRL g, 16, 12⟩
def R.CAP_CTRL.POST (g : Nat) : Fld := ⟨A.CAP_CTRL g, 7, 0⟩
def R.CAP_BASE_LO.ADDR (g : Nat) : Fld := ⟨A.CAP_BASE_LO g, 31, 12⟩
def R.CAP_BASE_HI.ADDR (g : Nat) : Fld := ⟨A.CAP_BASE_HI g, 4, 0⟩
def R.CAP_WR.PAGE (g : Nat) : Fld := ⟨A.CAP_WR g, 19, 0⟩
def R.CAP_RD.PAGE (g : Nat) : Fld := ⟨A.CAP_RD g, 19, 0⟩
def R.CAP_MARK.VALID (g : Nat) : Fld := ⟨A.CAP_MARK g, 31, 31⟩
def R.CAP_MARK.PAGE (g : Nat) : Fld := ⟨A.CAP_MARK g, 19, 0⟩
def R.CAP_STATUS.RUNNING (g : Nat) : Fld := ⟨A.CAP_STATUS g, 31, 31⟩
def R.CAP_STATUS.TRIGGERED (g : Nat) : Fld := ⟨A.CAP_STATUS g, 30, 30⟩
def R.CAP_STATUS.STOPPED (g : Nat) : Fld := ⟨A.CAP_STATUS g, 29, 29⟩
def R.CAP_STATUS.MARK_LOST (g : Nat) : Fld := ⟨A.CAP_STATUS g, 28, 28⟩
def R.CAP_STATUS.OVERRUN (g : Nat) : Fld := ⟨A.CAP_STATUS g, 27, 27⟩
def R.CAP_STATUS.REW_RESULT (g : Nat) : Fld := ⟨A.CAP_STATUS g, 26, 24⟩
def R.CAP_STATUS.DROP (g : Nat) : Fld := ⟨A.CAP_STATUS g, 15, 0⟩
def R.MODE.TIMING (o : Nat) : Fld := ⟨A.MODE o, 8, 8⟩
def R.MODE.SPLIT (o : Nat) : Fld := ⟨A.MODE o, 5, 4⟩
def R.MODE.FEC_MODE (o : Nat) : Fld := ⟨A.MODE o, 3, 2⟩
def R.MODE.LANE_MODE (o : Nat) : Fld := ⟨A.MODE o, 1, 0⟩
def R.MODE_COMMIT.REPLACED (o : Nat) : Fld := ⟨A.MODE_COMMIT o, 2, 2⟩
def R.MODE_COMMIT.PENDING (o : Nat) : Fld := ⟨A.MODE_COMMIT o, 1, 1⟩
def R.MODE_COMMIT.COMMIT (o : Nat) : Fld := ⟨A.MODE_COMMIT o, 0, 0⟩
def R.MODE_ACTIVE.TIMING (o : Nat) : Fld := ⟨A.MODE_ACTIVE o, 8, 8⟩
def R.MODE_ACTIVE.SPLIT (o : Nat) : Fld := ⟨A.MODE_ACTIVE o, 5, 4⟩
def R.MODE_ACTIVE.FEC_MODE (o : Nat) : Fld := ⟨A.MODE_ACTIVE o, 3, 2⟩
def R.MODE_ACTIVE.LANE_MODE (o : Nat) : Fld := ⟨A.MODE_ACTIVE o, 1, 0⟩
def R.PORT_CTRL.IPG (o : Nat) : Fld := ⟨A.PORT_CTRL o, 23, 20⟩
def R.PORT_CTRL.BER_EN (o : Nat) : Fld := ⟨A.PORT_CTRL o, 19, 19⟩
def R.PORT_CTRL.BER_SHIFT (o : Nat) : Fld := ⟨A.PORT_CTRL o, 18, 16⟩
def R.PORT_CTRL.MAX_FRAME (o : Nat) : Fld := ⟨A.PORT_CTRL o, 13, 0⟩
def R.FEC_SNAP.CLEAR (o : Nat) : Fld := ⟨A.FEC_SNAP o, 8, 8⟩
def R.FEC_SNAP.SNAP (o : Nat) : Fld := ⟨A.FEC_SNAP o, 7, 0⟩
def R.PORT_STATUS.UP (o : Nat) (p : Nat) : Fld := ⟨A.PORT_STATUS o p, 31, 31⟩
def R.PORT_STATUS.STATE (o : Nat) (p : Nat) : Fld := ⟨A.PORT_STATUS o p, 30, 28⟩
def R.PORT_STATUS.MISWIRE (o : Nat) (p : Nat) : Fld := ⟨A.PORT_STATUS o p, 27, 27⟩
def R.PORT_STATUS.DESKEW_FAIL (o : Nat) (p : Nat) : Fld := ⟨A.PORT_STATUS o p, 26, 26⟩
def R.PORT_STATUS.SKEW_CHANGE (o : Nat) (p : Nat) : Fld := ⟨A.PORT_STATUS o p, 25, 25⟩
def R.PORT_STATUS.BER_ALARM (o : Nat) (p : Nat) : Fld := ⟨A.PORT_STATUS o p, 24, 24⟩
def R.PORT_STATUS.HI_SER (o : Nat) (p : Nat) : Fld := ⟨A.PORT_STATUS o p, 23, 23⟩
def R.PORT_STATUS.DOWN_CNT (o : Nat) (p : Nat) : Fld := ⟨A.PORT_STATUS o p, 15, 8⟩
def R.CW_LO.COUNT (o : Nat) (p : Nat) : Fld := ⟨A.CW_LO o p, 31, 0⟩
def R.CW_HI.COUNT (o : Nat) (p : Nat) : Fld := ⟨A.CW_HI o p, 31, 0⟩
def R.CORR_LO.COUNT (o : Nat) (p : Nat) : Fld := ⟨A.CORR_LO o p, 31, 0⟩
def R.CORR_HI.COUNT (o : Nat) (p : Nat) : Fld := ⟨A.CORR_HI o p, 31, 0⟩
def R.UNCORR.COUNT (o : Nat) (p : Nat) : Fld := ⟨A.UNCORR o p, 31, 0⟩
def R.SYM_LO.COUNT (o : Nat) (p : Nat) : Fld := ⟨A.SYM_LO o p, 31, 0⟩
def R.SYM_HI.COUNT (o : Nat) (p : Nat) : Fld := ⟨A.SYM_HI o p, 31, 0⟩
def R.HIST.COUNT (o : Nat) (p : Nat) (k : Nat) : Fld := ⟨A.HIST o p k, 31, 0⟩
def R.BIP_ERR.COUNT (o : Nat) (n : Nat) : Fld := ⟨A.BIP_ERR o n, 31, 0⟩
def R.SYM_ERR.COUNT (o : Nat) (n : Nat) : Fld := ⟨A.SYM_ERR o n, 31, 0⟩
def R.INNER_CORR.COUNT (o : Nat) (n : Nat) : Fld := ⟨A.INNER_CORR o n, 31, 0⟩
def R.INNER_FAIL.COUNT (o : Nat) (n : Nat) : Fld := ⟨A.INNER_FAIL o n, 31, 0⟩
def R.BER_CNT.COUNT (o : Nat) (n : Nat) : Fld := ⟨A.BER_CNT o n, 31, 0⟩
def R.BER_LIMIT.COUNT (o : Nat) (n : Nat) : Fld := ⟨A.BER_LIMIT o n, 31, 0⟩
def R.TSC_CTRL.START (o : Nat) (n : Nat) : Fld := ⟨A.TSC_CTRL o n, 31, 31⟩
def R.TSC_STATUS.VALID (o : Nat) (n : Nat) : Fld := ⟨A.TSC_STATUS o n, 31, 31⟩
def R.TSC_STATUS.RESULT (o : Nat) (n : Nat) : Fld := ⟨A.TSC_STATUS o n, 30, 28⟩
def R.TSC_STATUS.TC (o : Nat) (n : Nat) : Fld := ⟨A.TSC_STATUS o n, 15, 8⟩
def R.TSC_STATUS.TEMP (o : Nat) (n : Nat) : Fld := ⟨A.TSC_STATUS o n, 7, 0⟩
def R.TSC_RX.DELAY (o : Nat) (n : Nat) : Fld := ⟨A.TSC_RX o n, 19, 0⟩
def R.TSC_TX.DELAY (o : Nat) (n : Nat) : Fld := ⟨A.TSC_TX o n, 19, 0⟩
def R.TS_ADJ_RX.ADJ (o : Nat) (n : Nat) : Fld := ⟨A.TS_ADJ_RX o n, 31, 0⟩
def R.TS_ADJ_TX.ADJ (o : Nat) (n : Nat) : Fld := ⟨A.TS_ADJ_TX o n, 31, 0⟩
def R.TXTS_0.VALID (o : Nat) : Fld := ⟨A.TXTS_0 o, 31, 31⟩
def R.TXTS_0.SLOT (o : Nat) : Fld := ⟨A.TXTS_0 o, 26, 24⟩
def R.TXTS_0.STEPPED (o : Nat) : Fld := ⟨A.TXTS_0 o, 23, 23⟩
def R.TXTS_0.TAG (o : Nat) : Fld := ⟨A.TXTS_0 o, 15, 0⟩
def R.TXTS_1.PS (o : Nat) : Fld := ⟨A.TXTS_1 o, 31, 0⟩
def R.TXTS_2.PS (o : Nat) : Fld := ⟨A.TXTS_2 o, 31, 24⟩
def R.TXTS_2.SEC (o : Nat) : Fld := ⟨A.TXTS_2 o, 23, 0⟩
def R.TXTS_STATUS.OVF (o : Nat) : Fld := ⟨A.TXTS_STATUS o, 31, 16⟩
def R.TXTS_STATUS.FILL (o : Nat) : Fld := ⟨A.TXTS_STATUS o, 6, 0⟩
def R.TL_CTRL.EN (o : Nat) : Fld := ⟨A.TL_CTRL o, 31, 31⟩
def R.TL_CTRL.CAPTURE (o : Nat) : Fld := ⟨A.TL_CTRL o, 19, 16⟩
def R.TL_CTRL.ACCEPT_ALL (o : Nat) : Fld := ⟨A.TL_CTRL o, 8, 8⟩
def R.TL_CTRL.GASP (o : Nat) : Fld := ⟨A.TL_CTRL o, 7, 7⟩
def R.TL_CTRL.MUTE_CLR (o : Nat) : Fld := ⟨A.TL_CTRL o, 6, 6⟩
def R.TL_CTRL.LANE (o : Nat) : Fld := ⟨A.TL_CTRL o, 2, 0⟩
def R.TL_ADDR.ADDR (o : Nat) : Fld := ⟨A.TL_ADDR o, 11, 0⟩
def R.TL_TX_CTRL.GASP_SF (o : Nat) : Fld := ⟨A.TL_TX_CTRL o, 12, 10⟩
def R.TL_TX_CTRL.TRN_MOD (o : Nat) : Fld := ⟨A.TL_TX_CTRL o, 9, 9⟩
def R.TL_TX_CTRL.TRN_SF (o : Nat) : Fld := ⟨A.TL_TX_CTRL o, 8, 6⟩
def R.TL_TX_CTRL.DEPTH (o : Nat) : Fld := ⟨A.TL_TX_CTRL o, 4, 0⟩
def R.TL_STATUS.RX_STATE (o : Nat) : Fld := ⟨A.TL_STATUS o, 31, 29⟩
def R.TL_STATUS.TX_STATE (o : Nat) : Fld := ⟨A.TL_STATUS o, 28, 27⟩
def R.TL_STATUS.AGC_FROZEN (o : Nat) : Fld := ⟨A.TL_STATUS o, 26, 26⟩
def R.TL_STATUS.MUTED (o : Nat) : Fld := ⟨A.TL_STATUS o, 25, 25⟩
def R.TL_STATUS.CUR_SF (o : Nat) : Fld := ⟨A.TL_STATUS o, 24, 22⟩
def R.TL_STATUS.TX_FILL (o : Nat) : Fld := ⟨A.TL_STATUS o, 19, 16⟩
def R.TL_STATUS.RX_FILL (o : Nat) : Fld := ⟨A.TL_STATUS o, 15, 13⟩
def R.TL_STATUS.CUR_METRIC (o : Nat) : Fld := ⟨A.TL_STATUS o, 7, 0⟩
def R.DET_THR_LO.SF128 (o : Nat) : Fld := ⟨A.DET_THR_LO o, 31, 24⟩
def R.DET_THR_LO.SF64 (o : Nat) : Fld := ⟨A.DET_THR_LO o, 23, 16⟩
def R.DET_THR_LO.SF32 (o : Nat) : Fld := ⟨A.DET_THR_LO o, 15, 8⟩
def R.DET_THR_LO.SF16 (o : Nat) : Fld := ⟨A.DET_THR_LO o, 7, 0⟩
def R.DET_THR_HI.SF256 (o : Nat) : Fld := ⟨A.DET_THR_HI o, 7, 0⟩
def R.TX_DESC.GO (o : Nat) : Fld := ⟨A.TX_DESC o, 31, 31⟩
def R.TX_DESC.BUSY (o : Nat) : Fld := ⟨A.TX_DESC o, 30, 30⟩
def R.TX_DESC.TYPE_REJ (o : Nat) : Fld := ⟨A.TX_DESC o, 29, 29⟩
def R.TX_DESC.SEQ (o : Nat) : Fld := ⟨A.TX_DESC o, 23, 20⟩
def R.TX_DESC.ADDR (o : Nat) : Fld := ⟨A.TX_DESC o, 19, 8⟩
def R.TX_DESC.LEN (o : Nat) : Fld := ⟨A.TX_DESC o, 7, 5⟩
def R.TX_DESC.MOD (o : Nat) : Fld := ⟨A.TX_DESC o, 4, 4⟩
def R.TX_DESC.SF (o : Nat) : Fld := ⟨A.TX_DESC o, 2, 0⟩
def R.RX_DESC.VALID (o : Nat) : Fld := ⟨A.RX_DESC o, 31, 31⟩
def R.RX_DESC.STATUS (o : Nat) : Fld := ⟨A.RX_DESC o, 30, 28⟩
def R.RX_DESC.SEQ (o : Nat) : Fld := ⟨A.RX_DESC o, 27, 24⟩
def R.RX_DESC.ADDR (o : Nat) : Fld := ⟨A.RX_DESC o, 23, 12⟩
def R.RX_DESC.LEN (o : Nat) : Fld := ⟨A.RX_DESC o, 11, 9⟩
def R.RX_DESC.MOD (o : Nat) : Fld := ⟨A.RX_DESC o, 8, 8⟩
def R.RX_DESC.SF (o : Nat) : Fld := ⟨A.RX_DESC o, 7, 5⟩
def R.RX_INFO.METRIC (o : Nat) : Fld := ⟨A.RX_INFO o, 31, 24⟩
def R.RX_INFO.BLOCKS_OK (o : Nat) : Fld := ⟨A.RX_INFO o, 23, 16⟩
def R.RX_POP.POP (o : Nat) : Fld := ⟨A.RX_POP o, 0, 0⟩
def R.GASP_RX.VALID (o : Nat) : Fld := ⟨A.GASP_RX o, 31, 31⟩
def R.GASP_RX.REASON (o : Nat) : Fld := ⟨A.GASP_RX o, 30, 27⟩
def R.GASP_RX.SF (o : Nat) : Fld := ⟨A.GASP_RX o, 26, 24⟩
def R.GASP_RX.ADDR (o : Nat) : Fld := ⟨A.GASP_RX o, 23, 12⟩
def R.GASP_RX.COUNT (o : Nat) : Fld := ⟨A.GASP_RX o, 7, 0⟩
def R.MASK_CTRL.VIOL_BIN (o : Nat) : Fld := ⟨A.MASK_CTRL o, 7, 4⟩
def R.MASK_CTRL.EN (o : Nat) : Fld := ⟨A.MASK_CTRL o, 0, 0⟩
def R.TX_FIR.COEF (o : Nat) (i : Nat) : Fld := ⟨A.TX_FIR o i, 11, 0⟩
def R.TX_BUF.DATA (o : Nat) (w : Nat) : Fld := ⟨A.TX_BUF o w, 31, 0⟩
def R.RX_BUF.DATA (o : Nat) (w : Nat) : Fld := ⟨A.RX_BUF o w, 31, 0⟩
def R.MASK_LIM.LIM (o : Nat) (b : Nat) : Fld := ⟨A.MASK_LIM o b, 7, 0⟩
def R.MASK_PWR.PWR (o : Nat) (b : Nat) : Fld := ⟨A.MASK_PWR o b, 7, 0⟩
def R.TLC.COUNT (o : Nat) (k : Nat) : Fld := ⟨A.TLC o k, 31, 0⟩
def R.AE_CTRL.SCAN_EN (o : Nat) : Fld := ⟨A.AE_CTRL o, 31, 31⟩
def R.AE_CTRL.MODE (o : Nat) : Fld := ⟨A.AE_CTRL o, 30, 30⟩
def R.AE_CTRL.ALIGN (o : Nat) : Fld := ⟨A.AE_CTRL o, 29, 29⟩
def R.AE_CTRL.REF_SEL (o : Nat) : Fld := ⟨A.AE_CTRL o, 25, 24⟩
def R.AE_CTRL.SKIP (o : Nat) : Fld := ⟨A.AE_CTRL o, 23, 18⟩
def R.AE_CTRL.BLK_EXP (o : Nat) : Fld := ⟨A.AE_CTRL o, 15, 12⟩
def R.AE_SCAN_MASK.MASK (o : Nat) : Fld := ⟨A.AE_SCAN_MASK o, 19, 0⟩
def R.AE_STATUS.REF_SETTLED (o : Nat) : Fld := ⟨A.AE_STATUS o, 31, 31⟩
def R.AE_STATUS.REF_FAIL (o : Nat) : Fld := ⟨A.AE_STATUS o, 30, 30⟩
def R.AE_STATUS.ROUND_OVR (o : Nat) : Fld := ⟨A.AE_STATUS o, 29, 29⟩
def R.AE_STATUS.SCANNING (o : Nat) : Fld := ⟨A.AE_STATUS o, 28, 28⟩
def R.AE_STATUS.RESULT (o : Nat) : Fld := ⟨A.AE_STATUS o, 27, 25⟩
def R.AE_STATUS.CAL_VALID (o : Nat) : Fld := ⟨A.AE_STATUS o, 24, 22⟩
def R.AE_STATUS.VALID (o : Nat) : Fld := ⟨A.AE_STATUS o, 19, 0⟩
def R.AE_CAL_CTRL.START (o : Nat) : Fld := ⟨A.AE_CAL_CTRL o, 31, 31⟩
def R.AE_OVR.OVR (o : Nat) : Fld := ⟨A.AE_OVR o, 19, 0⟩
def R.AE_OUT_CTRL.CMD_EN (o : Nat) : Fld := ⟨A.AE_OUT_CTRL o, 19, 16⟩
def R.AE_OUT_CTRL.HTR_EN (o : Nat) : Fld := ⟨A.AE_OUT_CTRL o, 15, 0⟩
def R.AE_DROPOUT.SEEN (o : Nat) : Fld := ⟨A.AE_DROPOUT o, 31, 16⟩
def R.AE_DROPOUT.LIVE (o : Nat) : Fld := ⟨A.AE_DROPOUT o, 15, 0⟩
def R.THR_ABOVE.LIVE (o : Nat) : Fld := ⟨A.THR_ABOVE o, 19, 0⟩
def R.THR_BELOW.LIVE (o : Nat) : Fld := ⟨A.THR_BELOW o, 19, 0⟩
def R.THR_UP_SEEN.SEEN (o : Nat) : Fld := ⟨A.THR_UP_SEEN o, 19, 0⟩
def R.THR_DN_SEEN.SEEN (o : Nat) : Fld := ⟨A.THR_DN_SEEN o, 19, 0⟩
def R.AE_IRQ_EN.EN (o : Nat) : Fld := ⟨A.AE_IRQ_EN o, 5, 0⟩
def R.AE_CAL.GAIN (o : Nat) (r : Nat) : Fld := ⟨A.AE_CAL o r, 31, 16⟩
def R.AE_CAL.OFS (o : Nat) (r : Nat) : Fld := ⟨A.AE_CAL o r, 15, 0⟩
def R.CH_CFG.RATIO (o : Nat) (c : Nat) : Fld := ⟨A.CH_CFG o c, 28, 16⟩
def R.CH_CFG.AVG (o : Nat) (c : Nat) : Fld := ⟨A.CH_CFG o c, 12, 0⟩
def R.CH_VALUE.VALID (o : Nat) (c : Nat) : Fld := ⟨A.CH_VALUE o c, 31, 31⟩
def R.CH_VALUE.VALUE (o : Nat) (c : Nat) : Fld := ⟨A.CH_VALUE o c, 23, 0⟩
def R.CH_RAW.RAW (o : Nat) (c : Nat) : Fld := ⟨A.CH_RAW o c, 15, 0⟩
def R.CH_THR_HI.LEVEL (o : Nat) (c : Nat) : Fld := ⟨A.CH_THR_HI o c, 23, 0⟩
def R.CH_THR_LO.LEVEL (o : Nat) (c : Nat) : Fld := ⟨A.CH_THR_LO o c, 23, 0⟩
def R.CH_THR_CFG.HI_EN (o : Nat) (c : Nat) : Fld := ⟨A.CH_THR_CFG o c, 31, 31⟩
def R.CH_THR_CFG.LO_EN (o : Nat) (c : Nat) : Fld := ⟨A.CH_THR_CFG o c, 30, 30⟩
def R.CH_THR_CFG.HYST (o : Nat) (c : Nat) : Fld := ⟨A.CH_THR_CFG o c, 23, 0⟩
def R.CH_DELAY.D2 (o : Nat) (c : Nat) : Fld := ⟨A.CH_DELAY o c, 31, 0⟩
def R.WEIR_CTRL.DIV (o : Nat) : Fld := ⟨A.WEIR_CTRL o, 12, 0⟩
def R.WEIR_STATUS.PARKED (o : Nat) : Fld := ⟨A.WEIR_STATUS o, 31, 31⟩
def R.WEIR_STATUS.LOOP_PEND (o : Nat) : Fld := ⟨A.WEIR_STATUS o, 19, 0⟩
def R.TICK.COUNT (o : Nat) : Fld := ⟨A.TICK o, 31, 0⟩
def R.WEIR_IRQ_EN.EN (o : Nat) : Fld := ⟨A.WEIR_IRQ_EN o, 5, 0⟩
def R.MODE_SET.MODE (o : Nat) : Fld := ⟨A.MODE_SET o, 31, 30⟩
def R.MODE_SET.PARK (o : Nat) : Fld := ⟨A.MODE_SET o, 29, 29⟩
def R.MODE_SET.MASK (o : Nat) : Fld := ⟨A.MODE_SET o, 19, 0⟩
def R.RC_ADDR.ADDR (o : Nat) : Fld := ⟨A.RC_ADDR o, 14, 0⟩
def R.RC_DATA.DATA (o : Nat) : Fld := ⟨A.RC_DATA o, 31, 0⟩
def R.L_CTRL.MODE (o : Nat) (j : Nat) : Fld := ⟨A.L_CTRL o j, 31, 30⟩
def R.L_CTRL.DIR (o : Nat) (j : Nat) : Fld := ⟨A.L_CTRL o j, 29, 29⟩
def R.L_CTRL.NORM (o : Nat) (j : Nat) : Fld := ⟨A.L_CTRL o j, 28, 27⟩
def R.L_CTRL.OUT_MAP (o : Nat) (j : Nat) : Fld := ⟨A.L_CTRL o j, 26, 26⟩
def R.L_CTRL.BUMPLESS (o : Nat) (j : Nat) : Fld := ⟨A.L_CTRL o j, 25, 25⟩
def R.L_CTRL.SP_TRACK (o : Nat) (j : Nat) : Fld := ⟨A.L_CTRL o j, 24, 24⟩
def R.L_CTRL.RC_EN (o : Nat) (j : Nat) : Fld := ⟨A.L_CTRL o j, 23, 23⟩
def R.L_CTRL.DW_EN (o : Nat) (j : Nat) : Fld := ⟨A.L_CTRL o j, 22, 22⟩
def R.L_CTRL.DW_ACT (o : Nat) (j : Nat) : Fld := ⟨A.L_CTRL o j, 21, 20⟩
def R.L_CTRL.DW_INIT (o : Nat) (j : Nat) : Fld := ⟨A.L_CTRL o j, 19, 19⟩
def R.L_CTRL.RDIV_EXP (o : Nat) (j : Nat) : Fld := ⟨A.L_CTRL o j, 18, 16⟩
def R.L_STATUS.MODE (o : Nat) (j : Nat) : Fld := ⟨A.L_STATUS o j, 31, 30⟩
def R.L_STATUS.CAUSE (o : Nat) (j : Nat) : Fld := ⟨A.L_STATUS o j, 29, 28⟩
def R.L_STATUS.LOCK (o : Nat) (j : Nat) : Fld := ⟨A.L_STATUS o j, 27, 27⟩
def R.L_STATUS.ARRIVED (o : Nat) (j : Nat) : Fld := ⟨A.L_STATUS o j, 26, 26⟩
def R.L_STATUS.BREACH (o : Nat) (j : Nat) : Fld := ⟨A.L_STATUS o j, 25, 25⟩
def R.L_STATUS.I_SAT (o : Nat) (j : Nat) : Fld := ⟨A.L_STATUS o j, 24, 24⟩
def R.L_STATUS.OUT_SAT (o : Nat) (j : Nat) : Fld := ⟨A.L_STATUS o j, 23, 23⟩
def R.L_STATUS.COMPLIANCE (o : Nat) (j : Nat) : Fld := ⟨A.L_STATUS o j, 22, 22⟩
def R.L_STATUS.INPUT_BAD (o : Nat) (j : Nat) : Fld := ⟨A.L_STATUS o j, 21, 21⟩
def R.L_STATUS.AT_PARK (o : Nat) (j : Nat) : Fld := ⟨A.L_STATUS o j, 20, 20⟩
def R.L_STATUS.BREACH_SEEN (o : Nat) (j : Nat) : Fld := ⟨A.L_STATUS o j, 15, 15⟩
def R.L_STATUS.HWMODE (o : Nat) (j : Nat) : Fld := ⟨A.L_STATUS o j, 14, 14⟩
def R.L_STATUS.LOCK_LOST (o : Nat) (j : Nat) : Fld := ⟨A.L_STATUS o j, 13, 13⟩
def R.L_STATUS.TGT_PASSED (o : Nat) (j : Nat) : Fld := ⟨A.L_STATUS o j, 12, 12⟩
def R.L_STATUS.BUMP_CLIP (o : Nat) (j : Nat) : Fld := ⟨A.L_STATUS o j, 11, 11⟩
def R.L_STATUS.MODE_REF (o : Nat) (j : Nat) : Fld := ⟨A.L_STATUS o j, 10, 10⟩
def R.L_STATUS.SAT_SEEN (o : Nat) (j : Nat) : Fld := ⟨A.L_STATUS o j, 9, 9⟩
def R.TARGET.T (o : Nat) (j : Nat) : Fld := ⟨A.TARGET o j, 23, 0⟩
def R.RAMP_RATE.RATE (o : Nat) (j : Nat) : Fld := ⟨A.RAMP_RATE o j, 30, 0⟩
def R.RAMP_ACC.ACC (o : Nat) (j : Nat) : Fld := ⟨A.RAMP_ACC o j, 30, 0⟩
def R.KP.M (o : Nat) (j : Nat) : Fld := ⟨A.KP o j, 31, 16⟩
def R.KP.E (o : Nat) (j : Nat) : Fld := ⟨A.KP o j, 4, 0⟩
def R.KI.M (o : Nat) (j : Nat) : Fld := ⟨A.KI o j, 31, 16⟩
def R.KI.E (o : Nat) (j : Nat) : Fld := ⟨A.KI o j, 4, 0⟩
def R.KD.M (o : Nat) (j : Nat) : Fld := ⟨A.KD o j, 31, 16⟩
def R.KD.DF (o : Nat) (j : Nat) : Fld := ⟨A.KD o j, 12, 8⟩
def R.KD.E (o : Nat) (j : Nat) : Fld := ⟨A.KD o j, 4, 0⟩
def R.I_LO.VAL (o : Nat) (j : Nat) : Fld := ⟨A.I_LO o j, 23, 0⟩
def R.I_HI.VAL (o : Nat) (j : Nat) : Fld := ⟨A.I_HI o j, 23, 0⟩
def R.OUT_LO.VAL (o : Nat) (j : Nat) : Fld := ⟨A.OUT_LO o j, 23, 0⟩
def R.OUT_HI.VAL (o : Nat) (j : Nat) : Fld := ⟨A.OUT_HI o j, 23, 0⟩
def R.MAN_OUT.VAL (o : Nat) (j : Nat) : Fld := ⟨A.MAN_OUT o j, 23, 0⟩
def R.PARK.VAL (o : Nat) (j : Nat) : Fld := ⟨A.PARK o j, 23, 0⟩
def R.MAN_RATE.VAL (o : Nat) (j : Nat) : Fld := ⟨A.MAN_RATE o j, 23, 0⟩
def R.LOCK_CFG.N (o : Nat) (j : Nat) : Fld := ⟨A.LOCK_CFG o j, 31, 20⟩
def R.LOCK_CFG.TOL (o : Nat) (j : Nat) : Fld := ⟨A.LOCK_CFG o j, 19, 0⟩
def R.RC_WIN.PERIOD (o : Nat) (j : Nat) : Fld := ⟨A.RC_WIN o j, 29, 16⟩
def R.RC_WIN.BASE (o : Nat) (j : Nat) : Fld := ⟨A.RC_WIN o j, 14, 0⟩
def R.RC_LEARN.LG_M (o : Nat) (j : Nat) : Fld := ⟨A.RC_LEARN o j, 31, 16⟩
def R.RC_LEARN.LG_E (o : Nat) (j : Nat) : Fld := ⟨A.RC_LEARN o j, 4, 0⟩
def R.RC_PHASE.LEAD (o : Nat) (j : Nat) : Fld := ⟨A.RC_PHASE o j, 28, 16⟩
def R.RC_PHASE.FGT (o : Nat) (j : Nat) : Fld := ⟨A.RC_PHASE o j, 15, 0⟩
def R.RC_QLIM.QLIM (o : Nat) (j : Nat) : Fld := ⟨A.RC_QLIM o j, 23, 0⟩
def R.DW_MODEL.A (o : Nat) (j : Nat) : Fld := ⟨A.DW_MODEL o j, 31, 16⟩
def R.DW_MODEL.DLY (o : Nat) (j : Nat) : Fld := ⟨A.DW_MODEL o j, 5, 0⟩
def R.DW_GAIN.G_M (o : Nat) (j : Nat) : Fld := ⟨A.DW_GAIN o j, 31, 16⟩
def R.DW_GAIN.G_E (o : Nat) (j : Nat) : Fld := ⟨A.DW_GAIN o j, 4, 0⟩
def R.DW_CFG.N (o : Nat) (j : Nat) : Fld := ⟨A.DW_CFG o j, 27, 16⟩
def R.DW_CFG.BIAS_SH (o : Nat) (j : Nat) : Fld := ⟨A.DW_CFG o j, 4, 0⟩
def R.DW_BOUND.BOUND (o : Nat) (j : Nat) : Fld := ⟨A.DW_BOUND o j, 23, 0⟩
def R.SETPOINT.R (o : Nat) (j : Nat) : Fld := ⟨A.SETPOINT o j, 23, 0⟩
def R.VELOCITY.V (o : Nat) (j : Nat) : Fld := ⟨A.VELOCITY o j, 31, 0⟩
def R.MEAS.Y (o : Nat) (j : Nat) : Fld := ⟨A.MEAS o j, 23, 0⟩
def R.ERROR.E (o : Nat) (j : Nat) : Fld := ⟨A.ERROR o j, 23, 0⟩
def R.INTEG_LO.I (o : Nat) (j : Nat) : Fld := ⟨A.INTEG_LO o j, 31, 0⟩
def R.INTEG_HI.I (o : Nat) (j : Nat) : Fld := ⟨A.INTEG_HI o j, 7, 0⟩
def R.OUTPUT.O (o : Nat) (j : Nat) : Fld := ⟨A.OUTPUT o j, 23, 0⟩
def R.DW_RESID.RES (o : Nat) (j : Nat) : Fld := ⟨A.DW_RESID o j, 23, 0⟩
def R.FL_CTRL.MODE : Fld := ⟨A.FL_CTRL, 31, 30⟩
def R.FL_CTRL.RECLAIM : Fld := ⟨A.FL_CTRL, 16, 16⟩
def R.FL_CTRL.FLUSH_MS : Fld := ⟨A.FL_CTRL, 15, 8⟩
def R.FL_CTRL.RUN : Fld := ⟨A.FL_CTRL, 0, 0⟩
def R.FL_STATUS.RECLAIM_BUSY : Fld := ⟨A.FL_STATUS, 31, 31⟩
def R.FL_STATUS.KEY_LOCKED : Fld := ⟨A.FL_STATUS, 30, 30⟩
def R.FL_STATUS.FLOWS : Fld := ⟨A.FL_STATUS, 20, 0⟩
def R.RECLAIM_RESULT.CELLS : Fld := ⟨A.RECLAIM_RESULT, 20, 0⟩
def R.HASH_KEY.KEY (w : Nat) : Fld := ⟨A.HASH_KEY w, 31, 0⟩
def R.CTRL_ETYPE.EN (i : Nat) : Fld := ⟨A.CTRL_ETYPE i, 31, 31⟩
def R.CTRL_ETYPE.ETYPE (i : Nat) : Fld := ⟨A.CTRL_ETYPE i, 15, 0⟩
def R.CTRL_MATCH.CLASS : Fld := ⟨A.CTRL_MATCH, 5, 0⟩
def R.PUNT_MAP.E7 (r : Nat) : Fld := ⟨A.PUNT_MAP r, 30, 28⟩
def R.PUNT_MAP.E6 (r : Nat) : Fld := ⟨A.PUNT_MAP r, 26, 24⟩
def R.PUNT_MAP.E5 (r : Nat) : Fld := ⟨A.PUNT_MAP r, 22, 20⟩
def R.PUNT_MAP.E4 (r : Nat) : Fld := ⟨A.PUNT_MAP r, 18, 16⟩
def R.PUNT_MAP.E3 (r : Nat) : Fld := ⟨A.PUNT_MAP r, 14, 12⟩
def R.PUNT_MAP.E2 (r : Nat) : Fld := ⟨A.PUNT_MAP r, 10, 8⟩
def R.PUNT_MAP.E1 (r : Nat) : Fld := ⟨A.PUNT_MAP r, 6, 4⟩
def R.PUNT_MAP.E0 (r : Nat) : Fld := ⟨A.PUNT_MAP r, 2, 0⟩
def R.PUNT_BASE.OFS (c : Nat) : Fld := ⟨A.PUNT_BASE c, 21, 8⟩
def R.PUNT_CFG.EN (c : Nat) : Fld := ⟨A.PUNT_CFG c, 31, 31⟩
def R.PUNT_CFG.SIZE_EXP (c : Nat) : Fld := ⟨A.PUNT_CFG c, 3, 0⟩
def R.PUNT_STATUS.FILL (c : Nat) : Fld := ⟨A.PUNT_STATUS c, 12, 0⟩
def R.BERM_RSV_CTRL.CELLS : Fld := ⟨A.BERM_RSV_CTRL, 17, 0⟩
def R.BERM_RSV_ENG.CELLS : Fld := ⟨A.BERM_RSV_ENG, 17, 0⟩
def R.BERM_RSV_RET.CELLS : Fld := ⟨A.BERM_RSV_RET, 17, 0⟩
def R.BERM_USE_CTRL.CELLS : Fld := ⟨A.BERM_USE_CTRL, 20, 0⟩
def R.BERM_USE_ENG.CELLS : Fld := ⟨A.BERM_USE_ENG, 20, 0⟩
def R.BERM_USE_RET.CELLS : Fld := ⟨A.BERM_USE_RET, 20, 0⟩
def R.POOL_FREE.CELLS : Fld := ⟨A.POOL_FREE, 20, 0⟩
def R.SHARED_FREE.CELLS : Fld := ⟨A.SHARED_FREE, 20, 0⟩
def R.SPILL_CTRL.EN : Fld := ⟨A.SPILL_CTRL, 31, 31⟩
def R.SPILL_CTRL.SIZE_GIB : Fld := ⟨A.SPILL_CTRL, 21, 16⟩
def R.SPILL_CTRL.FLOW_CAP_EXP : Fld := ⟨A.SPILL_CTRL, 12, 8⟩
def R.SPILL_CTRL.STAGE_LIM : Fld := ⟨A.SPILL_CTRL, 7, 0⟩
def R.SPILL_BASE.ADDR : Fld := ⟨A.SPILL_BASE, 6, 0⟩
def R.SPILL_STATUS.CELLS : Fld := ⟨A.SPILL_STATUS, 27, 0⟩
def R.SPILL_CHUNKS.FREE : Fld := ⟨A.SPILL_CHUNKS, 23, 0⟩
def R.SCHED_IND.GO : Fld := ⟨A.SCHED_IND, 31, 31⟩
def R.SCHED_IND.WRITE : Fld := ⟨A.SCHED_IND, 30, 30⟩
def R.SCHED_IND.STAGED : Fld := ⟨A.SCHED_IND, 29, 29⟩
def R.SCHED_IND.LEVEL : Fld := ⟨A.SCHED_IND, 21, 20⟩
def R.SCHED_IND.INDEX : Fld := ⟨A.SCHED_IND, 19, 0⟩
def R.SCHED_IND_STATUS.BUSY : Fld := ⟨A.SCHED_IND_STATUS, 31, 31⟩
def R.SCHED_IND_STATUS.RESULT : Fld := ⟨A.SCHED_IND_STATUS, 3, 0⟩
def R.SCHED_DATA0.VALID : Fld := ⟨A.SCHED_DATA0, 31, 31⟩
def R.SCHED_DATA0.BAND : Fld := ⟨A.SCHED_DATA0, 30, 29⟩
def R.SCHED_DATA0.WEIGHT : Fld := ⟨A.SCHED_DATA0, 28, 18⟩
def R.SCHED_DATA0.PARENT : Fld := ⟨A.SCHED_DATA0, 17, 0⟩
def R.SCHED_DATA1.RATE : Fld := ⟨A.SCHED_DATA1, 31, 0⟩
def R.SCHED_DATA2.SHAPE_EN : Fld := ⟨A.SCHED_DATA2, 31, 31⟩
def R.SCHED_DATA2.OVH : Fld := ⟨A.SCHED_DATA2, 30, 24⟩
def R.SCHED_DATA2.BURST : Fld := ⟨A.SCHED_DATA2, 23, 8⟩
def R.SCHED_DATA3.QB3 : Fld := ⟨A.SCHED_DATA3, 31, 24⟩
def R.SCHED_DATA3.QB2 : Fld := ⟨A.SCHED_DATA3, 23, 16⟩
def R.SCHED_DATA3.QB1 : Fld := ⟨A.SCHED_DATA3, 15, 8⟩
def R.SCHED_DATA3.QB0 : Fld := ⟨A.SCHED_DATA3, 7, 0⟩
def R.SCHED_DATA4.AGE_T : Fld := ⟨A.SCHED_DATA4, 31, 16⟩
def R.SCHED_DATA5.BACKLOG : Fld := ⟨A.SCHED_DATA5, 31, 31⟩
def R.SCHED_DATA5.ELIGIBLE : Fld := ⟨A.SCHED_DATA5, 30, 30⟩
def R.SCHED_DATA5.PROMOTED : Fld := ⟨A.SCHED_DATA5, 29, 29⟩
def R.SCHED_DATA5.COMMIT_PEND : Fld := ⟨A.SCHED_DATA5, 28, 28⟩
def R.SCHED_DATA5.DEFICIT : Fld := ⟨A.SCHED_DATA5, 24, 0⟩
def R.SCHED_DATA6.TOKENS : Fld := ⟨A.SCHED_DATA6, 31, 0⟩
def R.SCHED_COMMIT.GO : Fld := ⟨A.SCHED_COMMIT, 31, 31⟩
def R.SCHED_COMMIT.LEVEL : Fld := ⟨A.SCHED_COMMIT, 21, 20⟩
def R.SCHED_COMMIT.INDEX : Fld := ⟨A.SCHED_COMMIT, 17, 0⟩
def R.PORT_CFG.KEY_SEL (p : Nat) : Fld := ⟨A.PORT_CFG p, 31, 19⟩
def R.PORT_CFG.CT_IN (p : Nat) : Fld := ⟨A.PORT_CFG p, 18, 18⟩
def R.PORT_CFG.CTRL_PUNT (p : Nat) : Fld := ⟨A.PORT_CFG p, 17, 17⟩
def R.PORT_CFG.CSUM_CHK (p : Nat) : Fld := ⟨A.PORT_CFG p, 16, 16⟩
def R.GAUGE_SRC.EN (g : Nat) : Fld := ⟨A.GAUGE_SRC g, 31, 31⟩
def R.GAUGE_SRC.SRC (g : Nat) : Fld := ⟨A.GAUGE_SRC g, 27, 24⟩
def R.GAUGE_SRC.HYST_EXP (g : Nat) : Fld := ⟨A.GAUGE_SRC g, 23, 20⟩
def R.GAUGE_SRC.INDEX (g : Nat) : Fld := ⟨A.GAUGE_SRC g, 19, 0⟩
def R.GAUGE_LVL.LEVEL (g : Nat) : Fld := ⟨A.GAUGE_LVL g, 27, 0⟩
def R.GAUGE_STAT.ABOVE (g : Nat) : Fld := ⟨A.GAUGE_STAT g, 31, 31⟩
def R.GAUGE_STAT.CROSSED_UP (g : Nat) : Fld := ⟨A.GAUGE_STAT g, 30, 30⟩
def R.GAUGE_STAT.CROSSED_DOWN (g : Nat) : Fld := ⟨A.GAUGE_STAT g, 29, 29⟩
def R.GAUGE_STAT.COUNT (g : Nat) : Fld := ⟨A.GAUGE_STAT g, 15, 0⟩
def R.DROP.COUNT (r : Nat) : Fld := ⟨A.DROP r, 31, 0⟩
def R.CT_STOMP.COUNT : Fld := ⟨A.CT_STOMP, 31, 0⟩
def R.FL_OVERRUN.COUNT : Fld := ⟨A.FL_OVERRUN, 31, 0⟩
def R.REDIRECT.COUNT : Fld := ⟨A.REDIRECT, 31, 0⟩
def R.SPILL_WAIT.COUNT : Fld := ⟨A.SPILL_WAIT, 31, 0⟩
def R.CL_MODE.MODE (c : Nat) : Fld := ⟨A.CL_MODE c, 1, 0⟩
def R.CL_STATE.STATE (c : Nat) : Fld := ⟨A.CL_STATE c, 23, 0⟩
def R.CL_SH_ECC.UE (c : Nat) : Fld := ⟨A.CL_SH_ECC c, 31, 16⟩
def R.CL_SH_ECC.CE (c : Nat) : Fld := ⟨A.CL_SH_ECC c, 15, 0⟩
def R.CL_STALE.COUNT (c : Nat) : Fld := ⟨A.CL_STALE c, 31, 0⟩
def R.E_PC.PC (c : Nat) (e : Nat) : Fld := ⟨A.E_PC c e, 15, 0⟩
def R.E_CAUSE.FAULT (c : Nat) (e : Nat) : Fld := ⟨A.E_CAUSE c e, 31, 31⟩
def R.E_CAUSE.STATE (c : Nat) (e : Nat) : Fld := ⟨A.E_CAUSE c e, 30, 28⟩
def R.E_CAUSE.DETAIL (c : Nat) (e : Nat) : Fld := ⟨A.E_CAUSE c e, 15, 8⟩
def R.E_CAUSE.VECTOR (c : Nat) (e : Nat) : Fld := ⟨A.E_CAUSE c e, 4, 0⟩
def R.E_EVAL.EVAL (c : Nat) (e : Nat) : Fld := ⟨A.E_EVAL c e, 31, 0⟩
def R.E_ECC.UE (c : Nat) (e : Nat) : Fld := ⟨A.E_ECC c e, 31, 16⟩
def R.E_ECC.CE (c : Nat) (e : Nat) : Fld := ⟨A.E_ECC c e, 15, 0⟩
def R.MEM_CFG.KEEP_SR : Fld := ⟨A.MEM_CFG, 31, 31⟩
def R.MEM_CFG.DENSITY : Fld := ⟨A.MEM_CFG, 26, 24⟩
def R.MEM_CFG.RATE : Fld := ⟨A.MEM_CFG, 17, 16⟩
def R.MEM_CFG.EN : Fld := ⟨A.MEM_CFG, 0, 0⟩
def R.MEM_STATUS.TRAINED : Fld := ⟨A.MEM_STATUS, 31, 31⟩
def R.MEM_STATUS.SELF_REF : Fld := ⟨A.MEM_STATUS, 30, 30⟩
def R.MEM_STATUS.KEPT : Fld := ⟨A.MEM_STATUS, 29, 29⟩
def R.MEM_STATUS.REGION_LOCKED : Fld := ⟨A.MEM_STATUS, 28, 28⟩
def R.MEM_STATUS.HOT : Fld := ⟨A.MEM_STATUS, 27, 27⟩
def R.MEM_STATUS.MULT : Fld := ⟨A.MEM_STATUS, 19, 18⟩
def R.MEM_STATUS.BAND : Fld := ⟨A.MEM_STATUS, 17, 16⟩
def R.MEM_STATUS.USABLE : Fld := ⟨A.MEM_STATUS, 7, 0⟩
def R.REFRESH_CTRL.MULT_B : Fld := ⟨A.REFRESH_CTRL, 7, 0⟩
def R.MEM_IRQ_EN.CE_EXP : Fld := ⟨A.MEM_IRQ_EN, 12, 8⟩
def R.MEM_IRQ_EN.EN : Fld := ⟨A.MEM_IRQ_EN, 7, 0⟩
def R.SPILL_LOST.COUNT : Fld := ⟨A.SPILL_LOST, 31, 0⟩
def R.REGION_VIOL.COUNT : Fld := ⟨A.REGION_VIOL, 31, 0⟩
def R.MEM_EVT.EVT : Fld := ⟨A.MEM_EVT, 7, 0⟩
def R.REGION_BASE.MIB (k : Nat) : Fld := ⟨A.REGION_BASE k, 16, 0⟩
def R.REGION_LIMIT.MIB (k : Nat) : Fld := ⟨A.REGION_LIMIT k, 16, 0⟩
def R.REGION_USE.USE (k : Nat) : Fld := ⟨A.REGION_USE k, 4, 0⟩
def R.ECC_CE.COUNT (s : Nat) : Fld := ⟨A.ECC_CE s, 31, 0⟩
def R.ECC_UE.COUNT (s : Nat) : Fld := ⟨A.ECC_UE s, 31, 0⟩
def R.ECC_POISON.COUNT (s : Nat) : Fld := ⟨A.ECC_POISON s, 31, 0⟩
def R.ECC_LAST_LO.INDEX (s : Nat) : Fld := ⟨A.ECC_LAST_LO s, 31, 0⟩
def R.ECC_LAST_HI.VALID (s : Nat) : Fld := ⟨A.ECC_LAST_HI s, 31, 31⟩
def R.ECC_LAST_HI.KIND (s : Nat) : Fld := ⟨A.ECC_LAST_HI s, 30, 30⟩
def R.ECC_LAST_HI.CLUSTER (s : Nat) : Fld := ⟨A.ECC_LAST_HI s, 27, 24⟩
def R.ECC_LAST_HI.ENGINE (s : Nat) : Fld := ⟨A.ECC_LAST_HI s, 23, 21⟩
def R.ECC_LAST_HI.INDEX (s : Nat) : Fld := ⟨A.ECC_LAST_HI s, 1, 0⟩
def R.PARITY_CNT.COUNT (n : Nat) : Fld := ⟨A.PARITY_CNT n, 31, 0⟩
def R.POISON_TX.COUNT : Fld := ⟨A.POISON_TX, 31, 0⟩
def R.REWRITE_CTRL.GO : Fld := ⟨A.REWRITE_CTRL, 31, 31⟩
def R.REWRITE_CTRL.BUSY : Fld := ⟨A.REWRITE_CTRL, 30, 30⟩
def R.REWRITE_CTRL.RESULT : Fld := ⟨A.REWRITE_CTRL, 29, 27⟩
def R.REWRITE_CTRL.CLUSTER : Fld := ⟨A.REWRITE_CTRL, 23, 20⟩
def R.REWRITE_CTRL.ENGINE : Fld := ⟨A.REWRITE_CTRL, 18, 16⟩
def R.REWRITE_CTRL.SPACE : Fld := ⟨A.REWRITE_CTRL, 2, 0⟩
def R.REWRITE_ADDR_LO.INDEX : Fld := ⟨A.REWRITE_ADDR_LO, 31, 0⟩
def R.REWRITE_ADDR_HI.INDEX : Fld := ⟨A.REWRITE_ADDR_HI, 1, 0⟩
def R.SCRUB_CTRL.FIX_CE : Fld := ⟨A.SCRUB_CTRL, 8, 8⟩
def R.SCRUB_CTRL.EN : Fld := ⟨A.SCRUB_CTRL, 4, 0⟩
def R.SCRUB_INT.ONCHIP_EXP : Fld := ⟨A.SCRUB_INT, 12, 8⟩
def R.SCRUB_INT.DRAM_EXP : Fld := ⟨A.SCRUB_INT, 4, 0⟩
def R.SCRUB_LAPNO.COUNT (s : Nat) : Fld := ⟨A.SCRUB_LAPNO s, 31, 0⟩
def R.SCRUB_LAPTIME.MS (s : Nat) : Fld := ⟨A.SCRUB_LAPTIME s, 31, 0⟩
def R.SCRUB_LOG_0.VALID : Fld := ⟨A.SCRUB_LOG_0, 31, 31⟩
def R.SCRUB_LOG_0.SPACE : Fld := ⟨A.SCRUB_LOG_0, 30, 28⟩
def R.SCRUB_LOG_0.CLUSTER : Fld := ⟨A.SCRUB_LOG_0, 27, 24⟩
def R.SCRUB_LOG_0.ENGINE : Fld := ⟨A.SCRUB_LOG_0, 23, 21⟩
def R.SCRUB_LOG_0.LAP : Fld := ⟨A.SCRUB_LOG_0, 15, 0⟩
def R.SCRUB_LOG_1.INDEX : Fld := ⟨A.SCRUB_LOG_1, 31, 0⟩
def R.SCRUB_LOG_2.INDEX : Fld := ⟨A.SCRUB_LOG_2, 1, 0⟩
def R.SCRUB_LOG_STATUS.OVF : Fld := ⟨A.SCRUB_LOG_STATUS, 31, 16⟩
def R.SCRUB_LOG_STATUS.FILL : Fld := ⟨A.SCRUB_LOG_STATUS, 4, 0⟩
def R.ECCT_CTRL.GO : Fld := ⟨A.ECCT_CTRL, 31, 31⟩
def R.ECCT_CTRL.BUSY : Fld := ⟨A.ECCT_CTRL, 30, 30⟩
def R.ECCT_CTRL.RESULT : Fld := ⟨A.ECCT_CTRL, 29, 28⟩
def R.ECCT_CTRL.WRITE : Fld := ⟨A.ECCT_CTRL, 27, 27⟩
def R.ECCT_CTRL.CLUSTER : Fld := ⟨A.ECCT_CTRL, 23, 20⟩
def R.ECCT_CTRL.ENGINE : Fld := ⟨A.ECCT_CTRL, 18, 16⟩
def R.ECCT_CTRL.SPACE : Fld := ⟨A.ECCT_CTRL, 2, 0⟩
def R.ECCT_ADDR_LO.INDEX : Fld := ⟨A.ECCT_ADDR_LO, 31, 0⟩
def R.ECCT_ADDR_HI.INDEX : Fld := ⟨A.ECCT_ADDR_HI, 1, 0⟩
def R.ECCT_DATA_LO.DATA : Fld := ⟨A.ECCT_DATA_LO, 31, 0⟩
def R.ECCT_DATA_HI.DATA : Fld := ⟨A.ECCT_DATA_HI, 31, 0⟩
def R.ECCT_CHECK.SYND : Fld := ⟨A.ECCT_CHECK, 15, 8⟩
def R.ECCT_CHECK.CHECK : Fld := ⟨A.ECCT_CHECK, 7, 0⟩
def R.PRIO.P7 (w : Nat) : Fld := ⟨A.PRIO w, 31, 28⟩
def R.PRIO.P6 (w : Nat) : Fld := ⟨A.PRIO w, 27, 24⟩
def R.PRIO.P5 (w : Nat) : Fld := ⟨A.PRIO w, 23, 20⟩
def R.PRIO.P4 (w : Nat) : Fld := ⟨A.PRIO w, 19, 16⟩
def R.PRIO.P3 (w : Nat) : Fld := ⟨A.PRIO w, 15, 12⟩
def R.PRIO.P2 (w : Nat) : Fld := ⟨A.PRIO w, 11, 8⟩
def R.PRIO.P1 (w : Nat) : Fld := ⟨A.PRIO w, 7, 4⟩
def R.PRIO.P0 (w : Nat) : Fld := ⟨A.PRIO w, 3, 0⟩
def R.LEVEL.LEVEL (w : Nat) : Fld := ⟨A.LEVEL w, 31, 0⟩
def R.PEND.PEND (w : Nat) : Fld := ⟨A.PEND w, 31, 0⟩
def R.SWPEND.SW (w : Nat) : Fld := ⟨A.SWPEND w, 31, 0⟩
def R.SWCLR.CLR (w : Nat) : Fld := ⟨A.SWCLR w, 31, 0⟩
def R.CLAIMED.CLAIMED (w : Nat) : Fld := ⟨A.CLAIMED w, 31, 0⟩
def R.TGT_EN.EN (t : Nat) (w : Nat) : Fld := ⟨A.TGT_EN t w, 31, 0⟩
def R.THRESH.THR (t : Nat) : Fld := ⟨A.THRESH t, 3, 0⟩
def R.TGT_STATUS.LINE (t : Nat) : Fld := ⟨A.TGT_STATUS t, 31, 31⟩
def R.TGT_STATUS.LINE_SEEN (t : Nat) : Fld := ⟨A.TGT_STATUS t, 30, 30⟩
def R.TGT_STATUS.EOI_EMPTY (t : Nat) : Fld := ⟨A.TGT_STATUS t, 29, 29⟩
def R.TGT_STATUS.DEPTH (t : Nat) : Fld := ⟨A.TGT_STATUS t, 20, 16⟩
def R.TGT_STATUS.RUNPRIO (t : Nat) : Fld := ⟨A.TGT_STATUS t, 3, 0⟩
def R.TGT_CTRL.FLUSH (t : Nat) : Fld := ⟨A.TGT_CTRL t, 0, 0⟩
def R.SPUR_CNT.COUNT (t : Nat) : Fld := ⟨A.SPUR_CNT t, 15, 0⟩
def R.STACK.VALID (t : Nat) (i : Nat) : Fld := ⟨A.STACK t i, 31, 31⟩
def R.STACK.SOURCE (t : Nat) (i : Nat) : Fld := ⟨A.STACK t i, 12, 4⟩
def R.STACK.PRIO (t : Nat) (i : Nat) : Fld := ⟨A.STACK t i, 3, 0⟩
def R.HOST_CLAIM.SOURCE : Fld := ⟨A.HOST_CLAIM, 8, 0⟩
def R.HOST_EOI.EOI : Fld := ⟨A.HOST_EOI, 31, 0⟩
def R.OCT_EN.EN_HI (o : Nat) : Fld := ⟨A.OCT_EN o, 23, 12⟩
def R.OCT_EN.EN_LO (o : Nat) : Fld := ⟨A.OCT_EN o, 10, 0⟩
def R.PORT_CHG.SLOT (o : Nat) : Fld := ⟨A.PORT_CHG o, 7, 0⟩
def R.TIMING_EVT.LANE (o : Nat) : Fld := ⟨A.TIMING_EVT o, 7, 0⟩
def R.OPWR_EVT.EVT (o : Nat) : Fld := ⟨A.OPWR_EVT o, 1, 0⟩
def R.DEV_EVT.EVT : Fld := ⟨A.DEV_EVT, 5, 0⟩
def R.CTR_CTRL.DUMP_EN : Fld := ⟨A.CTR_CTRL, 31, 31⟩
def R.CTR_CTRL.DUMP_NOW : Fld := ⟨A.CTR_CTRL, 30, 30⟩
def R.CTR_CTRL.SNAP : Fld := ⟨A.CTR_CTRL, 29, 29⟩
def R.CTR_CTRL.READ_SRC : Fld := ⟨A.CTR_CTRL, 28, 28⟩
def R.CTR_CTRL.SIZE : Fld := ⟨A.CTR_CTRL, 17, 14⟩
def R.CTR_CTRL.INTERVAL : Fld := ⟨A.CTR_CTRL, 13, 0⟩
def R.CTR_PERM.GROUP : Fld := ⟨A.CTR_PERM, 31, 0⟩
def R.CTR_CLEAR.GROUP : Fld := ⟨A.CTR_CLEAR, 31, 0⟩
def R.DUMP_BASE_LO.ADDR : Fld := ⟨A.DUMP_BASE_LO, 31, 12⟩
def R.DUMP_BASE_HI.ADDR : Fld := ⟨A.DUMP_BASE_HI, 4, 0⟩
def R.DUMP_WR.REC : Fld := ⟨A.DUMP_WR, 11, 0⟩
def R.DUMP_RD.REC : Fld := ⟨A.DUMP_RD, 11, 0⟩
def R.DUMP_STATUS.BUSY : Fld := ⟨A.DUMP_STATUS, 31, 31⟩
def R.DUMP_STATUS.OVERRUN : Fld := ⟨A.DUMP_STATUS, 30, 30⟩
def R.DUMP_STATUS.SKIPPED : Fld := ⟨A.DUMP_STATUS, 15, 0⟩
def R.DUMP_LATCH.LATCH : Fld := ⟨A.DUMP_LATCH, 31, 0⟩
def R.CNT_LO.COUNT (n : Nat) : Fld := ⟨A.CNT_LO n, 31, 0⟩
def R.CNT_HI.COUNT (n : Nat) : Fld := ⟨A.CNT_HI n, 31, 0⟩
def R.PWR_REQ.GO : Fld := ⟨A.PWR_REQ, 31, 31⟩
def R.PWR_REQ.KIND : Fld := ⟨A.PWR_REQ, 30, 30⟩
def R.PWR_REQ.PROFILE : Fld := ⟨A.PWR_REQ, 29, 28⟩
def R.PWR_REQ.POLDER : Fld := ⟨A.PWR_REQ, 21, 16⟩
def R.PWR_REQ.STATE : Fld := ⟨A.PWR_REQ, 13, 12⟩
def R.PWR_STATUS.BUSY : Fld := ⟨A.PWR_STATUS, 31, 31⟩
def R.PWR_STATUS.QUEUED : Fld := ⟨A.PWR_STATUS, 30, 30⟩
def R.PWR_STATUS.PROFILE : Fld := ⟨A.PWR_STATUS, 29, 28⟩
def R.PWR_STATUS.PREV : Fld := ⟨A.PWR_STATUS, 27, 26⟩
def R.PWR_STATUS.REPLACED : Fld := ⟨A.PWR_STATUS, 25, 25⟩
def R.PWR_STATUS.QREPLACED : Fld := ⟨A.PWR_STATUS, 24, 24⟩
def R.PWR_STATUS.RESULT : Fld := ⟨A.PWR_STATUS, 23, 21⟩
def R.PWR_STATUS.CAUSE : Fld := ⟨A.PWR_STATUS, 20, 18⟩
def R.PWR_STATUS.POLDER : Fld := ⟨A.PWR_STATUS, 17, 12⟩
def R.PWR_STATUS.STEP : Fld := ⟨A.PWR_STATUS, 11, 8⟩
def R.PWR_STATUS.SEQ : Fld := ⟨A.PWR_STATUS, 7, 0⟩
def R.PARK_OCT.OCT : Fld := ⟨A.PARK_OCT, 31, 0⟩
def R.PARK_CL.CL : Fld := ⟨A.PARK_CL, 6, 0⟩
def R.PWR_EVT.EVT : Fld := ⟨A.PWR_EVT, 4, 0⟩
def R.PWR_IRQ_EN.EN : Fld := ⟨A.PWR_IRQ_EN, 4, 0⟩
def R.PWR_CFG.ACCT_MODE : Fld := ⟨A.PWR_CFG, 31, 31⟩
def R.PWR_CFG.HALT_WAKE : Fld := ⟨A.PWR_CFG, 30, 30⟩
def R.PWR_CFG.AUTO_IDLE : Fld := ⟨A.PWR_CFG, 26, 16⟩
def R.PWR_CFG.DRAM_IDLE : Fld := ⟨A.PWR_CFG, 15, 0⟩
def R.PFAIL_STATUS.LIVE : Fld := ⟨A.PFAIL_STATUS, 31, 31⟩
def R.PFAIL_STATUS.AUTO_GASP : Fld := ⟨A.PFAIL_STATUS, 30, 30⟩
def R.PFAIL_STATUS.AUTO_NV : Fld := ⟨A.PFAIL_STATUS, 29, 29⟩
def R.PFAIL_STATUS.GASP_US : Fld := ⟨A.PFAIL_STATUS, 15, 0⟩
def R.PAD_HOLD.OCT : Fld := ⟨A.PAD_HOLD, 31, 0⟩
def R.PAD_HOLD_DRAM.DRAM : Fld := ⟨A.PAD_HOLD_DRAM, 0, 0⟩
def R.POLDER_STATE.S7 (w : Nat) : Fld := ⟨A.POLDER_STATE w, 30, 28⟩
def R.POLDER_STATE.S6 (w : Nat) : Fld := ⟨A.POLDER_STATE w, 26, 24⟩
def R.POLDER_STATE.S5 (w : Nat) : Fld := ⟨A.POLDER_STATE w, 22, 20⟩
def R.POLDER_STATE.S4 (w : Nat) : Fld := ⟨A.POLDER_STATE w, 18, 16⟩
def R.POLDER_STATE.S3 (w : Nat) : Fld := ⟨A.POLDER_STATE w, 14, 12⟩
def R.POLDER_STATE.S2 (w : Nat) : Fld := ⟨A.POLDER_STATE w, 10, 8⟩
def R.POLDER_STATE.S1 (w : Nat) : Fld := ⟨A.POLDER_STATE w, 6, 4⟩
def R.POLDER_STATE.S0 (w : Nat) : Fld := ⟨A.POLDER_STATE w, 2, 0⟩
def R.WAKE_EN.EN (w : Nat) : Fld := ⟨A.WAKE_EN w, 31, 0⟩
def R.ACCT_0.V (p : Nat) : Fld := ⟨A.ACCT_0 p, 31, 0⟩
def R.ACCT_1.V (p : Nat) : Fld := ⟨A.ACCT_1 p, 31, 0⟩
def R.ACCT_2.V (p : Nat) : Fld := ⟨A.ACCT_2 p, 31, 0⟩
def R.ACCT_3.V (p : Nat) : Fld := ⟨A.ACCT_3 p, 31, 0⟩
def R.THM_CTRL.EN : Fld := ⟨A.THM_CTRL, 31, 31⟩
def R.THM_CTRL.BRIDGE_EN : Fld := ⟨A.THM_CTRL, 30, 30⟩
def R.THM_CTRL.BAND_HYST : Fld := ⟨A.THM_CTRL, 27, 24⟩
def R.THM_CTRL.STRAY : Fld := ⟨A.THM_CTRL, 23, 16⟩
def R.THM_CTRL.STRAY_N : Fld := ⟨A.THM_CTRL, 15, 8⟩
def R.THM_CTRL.STOP_GRACE : Fld := ⟨A.THM_CTRL, 7, 0⟩
def R.THM_TIMING.RECOVER : Fld := ⟨A.THM_TIMING, 31, 16⟩
def R.THM_TIMING.DWELL : Fld := ⟨A.THM_TIMING, 15, 0⟩
def R.THM_EVT.EVT : Fld := ⟨A.THM_EVT, 7, 0⟩
def R.THM_IRQ_EN.EN : Fld := ⟨A.THM_IRQ_EN, 7, 0⟩
def R.BAND_THR.THR3 : Fld := ⟨A.BAND_THR, 23, 16⟩
def R.BAND_THR.THR2 : Fld := ⟨A.BAND_THR, 15, 8⟩
def R.BAND_THR.THR1 : Fld := ⟨A.BAND_THR, 7, 0⟩
def R.SENT_CTRL.TRIPPED : Fld := ⟨A.SENT_CTRL, 31, 31⟩
def R.SENT_CTRL.DISAGREE : Fld := ⟨A.SENT_CTRL, 11, 8⟩
def R.SENT_CTRL.TRIP : Fld := ⟨A.SENT_CTRL, 7, 0⟩
def R.SENT_READ.TEMP (i : Nat) : Fld := ⟨A.SENT_READ i, 11, 0⟩
def R.COMPL.LIMIT (b : Nat) : Fld := ⟨A.COMPL b, 23, 0⟩
def R.BRIDGE_LUT.TEMP (k : Nat) : Fld := ⟨A.BRIDGE_LUT k, 11, 0⟩
def R.SCFG.EN (n : Nat) : Fld := ⟨A.SCFG n, 31, 31⟩
def R.SCFG.EXCL (n : Nat) : Fld := ⟨A.SCFG n, 30, 30⟩
def R.SCFG.GROUP (n : Nat) : Fld := ⟨A.SCFG n, 29, 24⟩
def R.SCFG.POLDER (n : Nat) : Fld := ⟨A.SCFG n, 21, 16⟩
def R.SCFG.RATE (n : Nat) : Fld := ⟨A.SCFG n, 15, 8⟩
def R.SCFG.HYST (n : Nat) : Fld := ⟨A.SCFG n, 7, 4⟩
def R.SLVL.CRIT (n : Nat) : Fld := ⟨A.SLVL n, 23, 16⟩
def R.SLVL.HOT (n : Nat) : Fld := ⟨A.SLVL n, 15, 8⟩
def R.SLVL.WARN (n : Nat) : Fld := ⟨A.SLVL n, 7, 0⟩
def R.READ.VALID (n : Nat) : Fld := ⟨A.READ n, 31, 31⟩
def R.READ.WARN (n : Nat) : Fld := ⟨A.READ n, 30, 30⟩
def R.READ.HOT (n : Nat) : Fld := ⟨A.READ n, 29, 29⟩
def R.READ.CRIT (n : Nat) : Fld := ⟨A.READ n, 28, 28⟩
def R.READ.RATE_HI (n : Nat) : Fld := ⟨A.READ n, 27, 27⟩
def R.READ.WARN_SEEN (n : Nat) : Fld := ⟨A.READ n, 26, 26⟩
def R.READ.HOT_SEEN (n : Nat) : Fld := ⟨A.READ n, 25, 25⟩
def R.READ.CRIT_SEEN (n : Nat) : Fld := ⟨A.READ n, 24, 24⟩
def R.READ.RATE_SEEN (n : Nat) : Fld := ⟨A.READ n, 23, 23⟩
def R.READ.RATE (n : Nat) : Fld := ⟨A.READ n, 21, 12⟩
def R.READ.TEMP (n : Nat) : Fld := ⟨A.READ n, 11, 0⟩
def R.CAP.CAP_ACTIVE (p : Nat) : Fld := ⟨A.CAP p, 31, 31⟩
def R.CAP.STOP_PEND (p : Nat) : Fld := ⟨A.CAP p, 30, 30⟩
def R.CAP.FORCED (p : Nat) : Fld := ⟨A.CAP p, 29, 29⟩
def R.CAP.BAND (p : Nat) : Fld := ⟨A.CAP p, 25, 24⟩
def R.CAP.STEP (p : Nat) : Fld := ⟨A.CAP p, 19, 16⟩
def R.CAP.FLOOR (p : Nat) : Fld := ⟨A.CAP p, 11, 8⟩
def R.CAP.CAP_MAX (p : Nat) : Fld := ⟨A.CAP p, 3, 0⟩
def R.LC_STATE.PEND : Fld := ⟨A.LC_STATE, 31, 31⟩
def R.LC_STATE.NEXT : Fld := ⟨A.LC_STATE, 10, 8⟩
def R.LC_STATE.STATE : Fld := ⟨A.LC_STATE, 2, 0⟩
def R.LC_CTRL.TO_MFG : Fld := ⟨A.LC_CTRL, 0, 0⟩
def R.DBG_STATUS.LOCKOUT : Fld := ⟨A.DBG_STATUS, 31, 31⟩
def R.DBG_STATUS.HOLD_OVR : Fld := ⟨A.DBG_STATUS, 30, 30⟩
def R.DBG_STATUS.FAILS : Fld := ⟨A.DBG_STATUS, 27, 24⟩
def R.DBG_STATUS.SLOT : Fld := ⟨A.DBG_STATUS, 19, 18⟩
def R.DBG_STATUS.LAST_RESULT : Fld := ⟨A.DBG_STATUS, 15, 12⟩
def R.DBG_STATUS.LEVEL : Fld := ⟨A.DBG_STATUS, 1, 0⟩
def R.DBG_HOLD_LO.POLDER : Fld := ⟨A.DBG_HOLD_LO, 31, 0⟩
def R.DBG_HOLD_HI.POLDER : Fld := ⟨A.DBG_HOLD_HI, 16, 0⟩
def R.FUSE_STATUS.I_REV : Fld := ⟨A.FUSE_STATUS, 31, 24⟩
def R.FUSE_STATUS.I_FUSED : Fld := ⟨A.FUSE_STATUS, 23, 16⟩
def R.FUSE_STATUS.D_REV : Fld := ⟨A.FUSE_STATUS, 14, 12⟩
def R.FUSE_STATUS.D_FUSED : Fld := ⟨A.FUSE_STATUS, 10, 8⟩
def R.FUSE_STATUS.OIK_DEAD : Fld := ⟨A.FUSE_STATUS, 1, 1⟩
def R.FUSE_STATUS.OIK : Fld := ⟨A.FUSE_STATUS, 0, 0⟩
def R.POLICY.ENC_REQ : Fld := ⟨A.POLICY, 4, 4⟩
def R.POLICY.BOOT_BIST : Fld := ⟨A.POLICY, 3, 1⟩
def R.POLICY.DBG_FULL_OK : Fld := ⟨A.POLICY, 0, 0⟩
def R.ROLLBACK.COUNT : Fld := ⟨A.ROLLBACK, 6, 0⟩
def R.SERIAL_LO.SERIAL : Fld := ⟨A.SERIAL_LO, 31, 0⟩
def R.SERIAL_HI.SERIAL : Fld := ⟨A.SERIAL_HI, 31, 0⟩
def R.RR_COUNT.COUNT : Fld := ⟨A.RR_COUNT, 31, 0⟩
def R.SEC_EVT.EVT : Fld := ⟨A.SEC_EVT, 7, 0⟩
def R.SEC_IRQ_EN.EN : Fld := ⟨A.SEC_IRQ_EN, 7, 0⟩
def R.VERIFY_LAST.VALID : Fld := ⟨A.VERIFY_LAST, 31, 31⟩
def R.VERIFY_LAST.REFUSED : Fld := ⟨A.VERIFY_LAST, 30, 30⟩
def R.VERIFY_LAST.DETAIL : Fld := ⟨A.VERIFY_LAST, 27, 24⟩
def R.VERIFY_LAST.KEY_INDEX : Fld := ⟨A.VERIFY_LAST, 19, 16⟩
def R.VERIFY_LAST.CLUSTER : Fld := ⟨A.VERIFY_LAST, 15, 12⟩
def R.VERIFY_FAILS.COUNT : Fld := ⟨A.VERIFY_FAILS, 31, 0⟩
def R.NV_ADDR.WORD : Fld := ⟨A.NV_ADDR, 12, 0⟩
def R.NV_DATA_LO.DATA : Fld := ⟨A.NV_DATA_LO, 31, 0⟩
def R.NV_DATA_HI.DATA : Fld := ⟨A.NV_DATA_HI, 31, 0⟩
def R.NV_STATUS.BUSY : Fld := ⟨A.NV_STATUS, 31, 31⟩
def R.NV_STATUS.DENIED : Fld := ⟨A.NV_STATUS, 30, 30⟩
def R.NV_STATUS.UE : Fld := ⟨A.NV_STATUS, 29, 29⟩
def R.NV_STATUS.CE : Fld := ⟨A.NV_STATUS, 28, 28⟩
def R.NV_SEQ.SEQ : Fld := ⟨A.NV_SEQ, 31, 0⟩
def R.BIST_CMD.GO : Fld := ⟨A.BIST_CMD, 31, 31⟩
def R.BIST_CMD.SUBSET : Fld := ⟨A.BIST_CMD, 25, 24⟩
def R.BIST_CMD.SCOPE : Fld := ⟨A.BIST_CMD, 20, 20⟩
def R.BIST_CMD.LANE : Fld := ⟨A.BIST_CMD, 18, 16⟩
def R.BIST_CMD.TARGET : Fld := ⟨A.BIST_CMD, 5, 0⟩
def R.BIST_CMD_STATUS.REFUSED : Fld := ⟨A.BIST_CMD_STATUS, 3, 3⟩
def R.BIST_CMD_STATUS.DETAIL : Fld := ⟨A.BIST_CMD_STATUS, 2, 0⟩
def R.REPAIR_COUNT.FUSED : Fld := ⟨A.REPAIR_COUNT, 25, 16⟩
def R.REPAIR_COUNT.SOFT : Fld := ⟨A.REPAIR_COUNT, 9, 0⟩
def R.BIST_BUSY_LO.POLDER : Fld := ⟨A.BIST_BUSY_LO, 31, 0⟩
def R.BIST_BUSY_HI.POLDER : Fld := ⟨A.BIST_BUSY_HI, 16, 0⟩
def R.T_STATUS.STATE (t : Nat) : Fld := ⟨A.T_STATUS t, 31, 29⟩
def R.T_STATUS.SUBSET (t : Nat) : Fld := ⟨A.T_STATUS t, 28, 27⟩
def R.T_STATUS.SCOPE (t : Nat) : Fld := ⟨A.T_STATUS t, 26, 26⟩
def R.T_STATUS.LANE (t : Nat) : Fld := ⟨A.T_STATUS t, 25, 23⟩
def R.T_STATUS.REPAIRED (t : Nat) : Fld := ⟨A.T_STATUS t, 19, 10⟩
def R.T_STATUS.UNREPAIRED (t : Nat) : Fld := ⟨A.T_STATUS t, 9, 0⟩
def R.T_SIG_LO.SIG (t : Nat) : Fld := ⟨A.T_SIG_LO t, 31, 0⟩
def R.T_SIG_HI.SIG (t : Nat) : Fld := ⟨A.T_SIG_HI t, 31, 0⟩
def R.T_TIME.US (t : Nat) : Fld := ⟨A.T_TIME t, 31, 0⟩
def R.SLICE_FAIL_LO.SLICE (g : Nat) : Fld := ⟨A.SLICE_FAIL_LO g, 31, 0⟩
def R.SLICE_FAIL_HI.SLICE (g : Nat) : Fld := ⟨A.SLICE_FAIL_HI g, 31, 0⟩
def R.SLICE_RES.SPARE_FAIL (g : Nat) : Fld := ⟨A.SLICE_RES g, 7, 7⟩
def R.SLICE_RES.CHAIN_FAIL (g : Nat) : Fld := ⟨A.SLICE_RES g, 6, 6⟩
def R.SLICE_RES.TL_FAIL (g : Nat) : Fld := ⟨A.SLICE_RES g, 5, 5⟩
def R.SLICE_RES.HTR_FAIL (g : Nat) : Fld := ⟨A.SLICE_RES g, 4, 4⟩
def R.SLICE_RES.CMD_FAIL (g : Nat) : Fld := ⟨A.SLICE_RES g, 3, 3⟩
def R.SLICE_RES.ADC_FAIL (g : Nat) : Fld := ⟨A.SLICE_RES g, 2, 2⟩
def R.SLICE_RES.IN_FAIL (g : Nat) : Fld := ⟨A.SLICE_RES g, 1, 1⟩
def R.SLICE_RES.TESTED (g : Nat) : Fld := ⟨A.SLICE_RES g, 0, 0⟩
def R.ID.REV : Fld := ⟨A.ID, 31, 28⟩
def R.ID.PART : Fld := ⟨A.ID, 27, 12⟩
def R.ID.MFG : Fld := ⟨A.ID, 11, 1⟩
def R.ID.ONE : Fld := ⟨A.ID, 0, 0⟩
def R.PCI_ID.DEVICE : Fld := ⟨A.PCI_ID, 31, 16⟩
def R.PCI_ID.VENDOR : Fld := ⟨A.PCI_ID, 15, 0⟩
def R.RST_CAUSE.LC_APPLIED : Fld := ⟨A.RST_CAUSE, 31, 31⟩
def R.RST_CAUSE.CAUSE : Fld := ⟨A.RST_CAUSE, 1, 0⟩
def R.RST_CTRL.GO : Fld := ⟨A.RST_CTRL, 31, 31⟩
def R.RST_CTRL.WARM : Fld := ⟨A.RST_CTRL, 30, 30⟩
def R.RST_CTRL.POLDER : Fld := ⟨A.RST_CTRL, 5, 0⟩
def R.RST_STATUS.BUSY : Fld := ⟨A.RST_STATUS, 31, 31⟩
def R.RST_STATUS.RESULT : Fld := ⟨A.RST_STATUS, 30, 28⟩
def R.RST_STATUS.POLDER : Fld := ⟨A.RST_STATUS, 5, 0⟩
def R.EPOCH.E3 (w : Nat) : Fld := ⟨A.EPOCH w, 31, 24⟩
def R.EPOCH.E2 (w : Nat) : Fld := ⟨A.EPOCH w, 23, 16⟩
def R.EPOCH.E1 (w : Nat) : Fld := ⟨A.EPOCH w, 15, 8⟩
def R.EPOCH.E0 (w : Nat) : Fld := ⟨A.EPOCH w, 7, 0⟩
def R.BOOT_STATUS.STEP : Fld := ⟨A.BOOT_STATUS, 31, 28⟩
def R.BOOT_STATUS.SFDP : Fld := ⟨A.BOOT_STATUS, 27, 27⟩
def R.BOOT_STATUS.DIR : Fld := ⟨A.BOOT_STATUS, 26, 26⟩
def R.BOOT_STATUS.ENTRY : Fld := ⟨A.BOOT_STATUS, 25, 22⟩
def R.BOOT_ERR.HALTED : Fld := ⟨A.BOOT_ERR, 31, 31⟩
def R.BOOT_ERR.CAUSE : Fld := ⟨A.BOOT_ERR, 26, 24⟩
def R.BOOT_ERR.DETAIL : Fld := ⟨A.BOOT_ERR, 23, 20⟩
def R.HEALTHY_CTRL.EN : Fld := ⟨A.HEALTHY_CTRL, 31, 31⟩
def R.HEALTHY_CTRL.KICK : Fld := ⟨A.HEALTHY_CTRL, 30, 30⟩
def R.HEALTHY_CTRL.TIMEOUT : Fld := ⟨A.HEALTHY_CTRL, 7, 0⟩
def R.SCRATCH.DATA (i : Nat) : Fld := ⟨A.SCRATCH i, 31, 0⟩
def R.TB_SEC_LO.SEC : Fld := ⟨A.TB_SEC_LO, 31, 0⟩
def R.TB_SEC_HI.SEC : Fld := ⟨A.TB_SEC_HI, 15, 0⟩
def R.TB_PS_LO.PS : Fld := ⟨A.TB_PS_LO, 31, 0⟩
def R.TB_PS_HI.PS : Fld := ⟨A.TB_PS_HI, 7, 0⟩
def R.TB_RATE.RATE : Fld := ⟨A.TB_RATE, 31, 0⟩
def R.TB_STEP.STEP : Fld := ⟨A.TB_STEP, 31, 0⟩
def R.TB_SET_SEC_LO.SEC : Fld := ⟨A.TB_SET_SEC_LO, 31, 0⟩
def R.TB_SET_SEC_HI.SEC : Fld := ⟨A.TB_SET_SEC_HI, 15, 0⟩
def R.TB_SET_PS_LO.PS : Fld := ⟨A.TB_SET_PS_LO, 31, 0⟩
def R.TB_SET_PS_HI.PS : Fld := ⟨A.TB_SET_PS_HI, 7, 0⟩
def R.TB_CTRL.SET_AT_PPS : Fld := ⟨A.TB_CTRL, 1, 1⟩
def R.TB_CTRL.SET : Fld := ⟨A.TB_CTRL, 0, 0⟩
def R.PPS_IN_TS_0.SEC : Fld := ⟨A.PPS_IN_TS_0, 31, 0⟩
def R.PPS_IN_TS_1.SEC : Fld := ⟨A.PPS_IN_TS_1, 15, 0⟩
def R.PPS_IN_TS_2.PS : Fld := ⟨A.PPS_IN_TS_2, 31, 0⟩
def R.PPS_IN_TS_3.PS : Fld := ⟨A.PPS_IN_TS_3, 7, 0⟩
def R.PPS_CTRL.WIDTH : Fld := ⟨A.PPS_CTRL, 17, 9⟩
def R.PPS_CTRL.IN_FALL : Fld := ⟨A.PPS_CTRL, 1, 1⟩
def R.PPS_CTRL.OUT_EN : Fld := ⟨A.PPS_CTRL, 0, 0⟩
def R.PPS_OUT_OFS.OFS : Fld := ⟨A.PPS_OUT_OFS, 31, 0⟩
def R.TOD_CTRL.LEAP : Fld := ⟨A.TOD_CTRL, 17, 17⟩
def R.TOD_CTRL.OUT_EN : Fld := ⟨A.TOD_CTRL, 16, 16⟩
def R.TOD_CTRL.UTC_OFS : Fld := ⟨A.TOD_CTRL, 15, 0⟩
def R.TOD_RX_0.SEC : Fld := ⟨A.TOD_RX_0, 31, 0⟩
def R.TOD_RX_1.UTC : Fld := ⟨A.TOD_RX_1, 31, 16⟩
def R.TOD_RX_1.SEC : Fld := ⟨A.TOD_RX_1, 15, 0⟩
def R.TOD_RX_2.ASSOC : Fld := ⟨A.TOD_RX_2, 31, 31⟩
def R.TOD_RX_2.FLAGS : Fld := ⟨A.TOD_RX_2, 23, 16⟩
def R.TOD_RX_2.BAD : Fld := ⟨A.TOD_RX_2, 15, 0⟩
def R.TB_STATUS.SET_PEND : Fld := ⟨A.TB_STATUS, 2, 2⟩
def R.TB_STATUS.STEP_LOST : Fld := ⟨A.TB_STATUS, 1, 1⟩
def R.TB_STATUS.SET_DONE : Fld := ⟨A.TB_STATUS, 0, 0⟩
def R.HOST_CTRL.IRQN_EN : Fld := ⟨A.HOST_CTRL, 31, 31⟩
def R.HOST_CTRL.BAR2_EN : Fld := ⟨A.HOST_CTRL, 30, 30⟩
def R.HOST_STATUS.LINK_UP : Fld := ⟨A.HOST_STATUS, 31, 31⟩
def R.HOST_STATUS.SPEED : Fld := ⟨A.HOST_STATUS, 30, 28⟩
def R.HOST_STATUS.WIDTH : Fld := ⟨A.HOST_STATUS, 27, 24⟩
def R.HOST_STATUS.PSTATE : Fld := ⟨A.HOST_STATUS, 23, 22⟩
def R.HOST_STATUS.L1 : Fld := ⟨A.HOST_STATUS, 21, 21⟩
def R.HOST_STATUS.PME_STATUS : Fld := ⟨A.HOST_STATUS, 20, 20⟩
def R.HOST_EVT.EVT : Fld := ⟨A.HOST_EVT, 6, 0⟩
def R.HOST_IRQ_EN.EN : Fld := ⟨A.HOST_IRQ_EN, 6, 0⟩
def R.ERR_LOG_0.VALID : Fld := ⟨A.ERR_LOG_0, 31, 31⟩
def R.ERR_LOG_0.SOURCE : Fld := ⟨A.ERR_LOG_0, 30, 28⟩
def R.ERR_LOG_0.CODE : Fld := ⟨A.ERR_LOG_0, 27, 24⟩
def R.ERR_LOG_0.CLUSTER : Fld := ⟨A.ERR_LOG_0, 23, 20⟩
def R.ERR_LOG_0.ENGINE : Fld := ⟨A.ERR_LOG_0, 19, 17⟩
def R.ERR_LOG_1.OFFSET : Fld := ⟨A.ERR_LOG_1, 31, 0⟩
def R.ERR_LOG_STATUS.OVF : Fld := ⟨A.ERR_LOG_STATUS, 31, 16⟩
def R.ERR_LOG_STATUS.FILL : Fld := ⟨A.ERR_LOG_STATUS, 4, 0⟩
def R.BAR2_PAGE.BASE : Fld := ⟨A.BAR2_PAGE, 6, 0⟩
def R.Q_CTRL.EN (q : Nat) : Fld := ⟨A.Q_CTRL q, 31, 31⟩
def R.Q_CTRL.DIR (q : Nat) : Fld := ⟨A.Q_CTRL q, 30, 30⟩
def R.Q_CTRL.GROUP (q : Nat) : Fld := ⟨A.Q_CTRL q, 29, 27⟩
def R.Q_CTRL.SQ_SIZE (q : Nat) : Fld := ⟨A.Q_CTRL q, 23, 20⟩
def R.Q_CTRL.CQ_SIZE (q : Nat) : Fld := ⟨A.Q_CTRL q, 19, 16⟩
def R.Q_CTRL.HOLD_LIM (q : Nat) : Fld := ⟨A.Q_CTRL q, 15, 0⟩
def R.Q_SQ_BASE_LO.ADDR (q : Nat) : Fld := ⟨A.Q_SQ_BASE_LO q, 31, 6⟩
def R.Q_SQ_BASE_HI.ADDR (q : Nat) : Fld := ⟨A.Q_SQ_BASE_HI q, 31, 0⟩
def R.Q_CQ_BASE_LO.ADDR (q : Nat) : Fld := ⟨A.Q_CQ_BASE_LO q, 31, 6⟩
def R.Q_CQ_BASE_HI.ADDR (q : Nat) : Fld := ⟨A.Q_CQ_BASE_HI q, 31, 0⟩
def R.Q_SQ_TAIL.IDX (q : Nat) : Fld := ⟨A.Q_SQ_TAIL q, 11, 0⟩
def R.Q_SQ_HEAD.IDX (q : Nat) : Fld := ⟨A.Q_SQ_HEAD q, 11, 0⟩
def R.Q_CQ_TAIL.IDX (q : Nat) : Fld := ⟨A.Q_CQ_TAIL q, 11, 0⟩
def R.Q_CQ_HEAD.IDX (q : Nat) : Fld := ⟨A.Q_CQ_HEAD q, 11, 0⟩
def R.Q_MOD.TIME (q : Nat) : Fld := ⟨A.Q_MOD q, 25, 16⟩
def R.Q_MOD.COUNT (q : Nat) : Fld := ⟨A.Q_MOD q, 8, 0⟩
def R.Q_STATUS.SIGNAL (q : Nat) : Fld := ⟨A.Q_STATUS q, 31, 31⟩
def R.Q_STATUS.STOPPED (q : Nat) : Fld := ⟨A.Q_STATUS q, 30, 30⟩
def R.Q_STATUS.DROPS (q : Nat) : Fld := ⟨A.Q_STATUS q, 15, 0⟩
def R.DDR_TRAIN.GO : Fld := ⟨A.DDR_TRAIN, 31, 31⟩
def R.DDR_TRAIN_STATUS.BUSY : Fld := ⟨A.DDR_TRAIN_STATUS, 31, 31⟩
def R.DDR_TRAIN_STATUS.DONE : Fld := ⟨A.DDR_TRAIN_STATUS, 30, 30⟩
def R.DDR_TRAIN_STATUS.FAIL : Fld := ⟨A.DDR_TRAIN_STATUS, 29, 29⟩
def R.DDR_TRAIN_STATUS.MR8 : Fld := ⟨A.DDR_TRAIN_STATUS, 7, 0⟩
def R.DDR_TRAIN_FAIL.CH : Fld := ⟨A.DDR_TRAIN_FAIL, 31, 0⟩
def R.PLL_LOCK.LOCK (n : Nat) : Fld := ⟨A.PLL_LOCK n, 31, 0⟩

/-! Reading the map. -/

/-- The copy of a row that holds BAR0 block offset x, if the row covers x. -/
def RegRow.covers (r : RegRow) (x : Nat) : Bool :=
  r.off ≤ x && ((x - r.off) / r.s1 < r.n1) && ((x - r.off) % r.s1 / r.s2 < r.n2) && ((x - r.off) % r.s1 % r.s2 == 0)

/-- The first row of a block that covers block offset x. -/
def findRow : List RegRow → Nat → Option RegRow
  | [], _ => none
  | r :: t, x => if r.covers x then some r else findRow t x

/-- R14: the register at BAR0 offset a; none for an offset no chapter lists (R405). -/
def RegMap.find (a : Nat) : Option RegRow :=
  if a % 4 ≠ 0 then none
  else if a < 0x10000 then findRow rows_dev a
  else if a < 0x20000 then findRow rows_pwr (a - 0x10000)
  else if a < 0x30000 then findRow rows_thm (a - 0x20000)
  else if a < 0x40000 then findRow rows_dint (a - 0x30000)
  else if a < 0x50000 then findRow rows_host (a - 0x40000)
  else if a < 0x60000 then findRow rows_sec (a - 0x50000)
  else if a < 0x80000 then findRow rows_bist (a - 0x60000)
  else if a < 0x100000 then findRow rows_mem (a - 0x80000)
  else if a < 0x200000 then findRow rows_flow (a - 0x100000)
  else if a < 0x400000 then findRow rows_eng (a - 0x200000)
  else if a < 0x800000 then findRow rows_ctr (a - 0x400000)
  else if a < 0xC00000 then none
  else if a < 0xC10000 then findRow rows_phyc (a - 0xC00000)
  else if a < 0x1000000 then none
  else if a < 0x1400000 then
    if (a - 0x1000000) % 0x20000 < 0x10000 then findRow rows_lane ((a - 0x1000000) % 0x2000)
    else findRow rows_oct ((a - 0x1000000) % 0x20000)
  else none

/-- R396: the PHY registers outside the control group. The spec gives how many each group holds and where the group
begins; consecutive 4-byte offsets within a group are the model's reading (log 5). -/
def RegMap.isPhy (a : Nat) : Bool :=
  a % 4 == 0 &&
  ((0x800000 ≤ a && a < 0xA00000 && (a - 0x800000) % 0x10000 < 1792 * 4) ||
   (0xA00000 ≤ a && a < 0xA00000 + 96 * 4) ||
   (0xA10000 ≤ a && a < 0xA18000 && (a - 0xA10000) % 0x1000 < 160 * 4) ||
   (0xB00000 ≤ a && a < 0xB20000 && (a - 0xB00000) % 0x1000 < 85 * 4))

/-- The value the reset columns of a row's fields give. -/
def RegRow.resetNat (r : RegRow) : Nat := r.fields.foldl (fun v f => v + f.reset * 2 ^ f.lo) 0

/-- Reset values of TX_FIR[0] to TX_FIR[16] (spec/05). -/
def txFirReset : List Nat := [4082, 4091, 15, 23, 4, 4073, 4075, 22, 59, 22, 3991, 3876, 3947, 220, 811, 1366, 1593]

/-- R329, R332: the reset value of SCFG[n]: in use, its group, its guarded polder, rate threshold and hysteresis. -/
def sensorCfgReset (n : Nat) : Nat :=
  let group := if n < 32 then n / 4 else if n < 40 then 8 else if n < 48 then 9 else if n < 112 then 10 + (n - 48) / 2 / 4 else 63
  let polder := if n < 48 then n else if n < 112 then (n - 48) / 2 else (n - 112) / 2
  let rate := if n < 48 then 16 else 0
  let hyst := if n < 112 then 2 else 1
  2 ^ 31 + group * 2 ^ 24 + polder * 2 ^ 16 + rate * 2 ^ 8 + hyst * 2 ^ 4

/-- R332: the reset value of SLVL[n]. -/
def sensorLevelReset (n : Nat) : Nat :=
  if n < 48 then 112 * 2 ^ 16 + 102 * 2 ^ 8 + 95
  else if n < 112 then 85 * 2 ^ 16 + 75 * 2 ^ 8 + 70
  else 70 * 2 ^ 16 + 60 * 2 ^ 8 + 55

/-- The registers whose reset value depends on the copy, each as its chapter states. -/
def RegMap.special (a : Nat) : Option Nat :=
  if a < 0x1000000 then
    if 0x100040 ≤ a ∧ a < 0x100060 then   -- CTRL_ETYPE, R152
      [0x80008863, 0x80000806, 0x80008809, 0x800088CC, 0x800088F7].getD ((a - 0x100040) / 4) 0 |> some
    else if 0x100080 ≤ a ∧ a < 0x1000A0 then   -- PUNT_MAP: entry e is e mod 7
      let r := (a - 0x100080) / 4
      some ((List.range 8).foldl (fun v j => v + ((8 * r + j) % 7) * 2 ^ (4 * j)) 0)
    else if a = 0x20038 then some 15099494   -- COMPL[2]
    else if a = 0x2003C then some 13421772   -- COMPL[3]
    else if 0x21000 ≤ a ∧ a < 0x21B00 then
      let n := (a - 0x21000) / 16
      if a % 16 = 0 then some (sensorCfgReset n) else if a % 16 = 4 then some (sensorLevelReset n) else none
    else if a = 0 then some (Config.revision.toNat * 2 ^ 28 + 0x9632 * 2 ^ 12 + Config.manufacturer.toNat * 2 + 1)   -- ID
    else if a = 4 then some (0x9632 * 2 ^ 16 + Config.vendor.toNat)   -- PCI_ID
    else if 0x100010 ≤ a ∧ a < 0x100030 then some (Config.hashKeyReset ((a - 0x100010) / 4)).toNat
    else none
  else if a < 0x1400000 then
    let x := (a - 0x1000000) % 0x20000
    if x < 0x10000 then
      let y := x % 0x2000
      if y = 0x0520 ∨ y = 0x0620 then some 256   -- FFE tap 8 of each bank, R53
      else if y = 0x1010 then some 0xE9A740   -- TX_PRESET2
      else if y = 0x1014 then some 0x2D96700   -- TX_PRESET3
      else none
    else if 0x14080 ≤ x ∧ x < 0x140C4 then some (txFirReset.getD ((x - 0x14080) / 4) 0)
    else if 0x14300 ≤ x ∧ x < 0x14340 then   -- MASK_LIM
      some (if x < 0x14308 ∨ 0x14338 ≤ x then 0x88 else 0)
    else if x = 0x1C100 + 18 * 128 ∨ x = 0x1C100 + 19 * 128 then some (2 ^ 25 + 2 ^ 24 + 7 * 2 ^ 16)   -- L_CTRL, loops 18 and 19
    else none
  else none

/-- The reset value of the register at BAR0 offset a; 0 where no register stands; a PHY trim is the part's own. -/
def RegMap.reset (a : Nat) : BitVec 32 :=
  match RegMap.special a with
  | some v => BitVec.ofNat 32 v
  | none =>
    match RegMap.find a with
    | some r => BitVec.ofNat 32 r.resetNat
    | none => if RegMap.isPhy a then (Config.phyTrim a).setWidth 32 else 0

/-- The legal value nearest to v for a field (R12, R392). -/
def RegField.clamp (f : RegField) (v : Nat) : Nat :=
  match f.lim with
  | .any => v
  | .range a b => if v < a then a else if b < v then b else v
  | .signed a b => ofS (f.hi + 1 - f.lo) (clampI a b (toS (f.hi + 1 - f.lo) v))

/-- What a software write of value v does to one field of a register that holds old (R10, R392). -/
def RegField.write (v old acc : Nat) (f : RegField) : Nat :=
  let o := getBits old f.hi f.lo
  let x := getBits v f.hi f.lo
  putBits acc f.hi f.lo
    (match f.acc with
     | .rw | .rws => f.clamp x
     | .ro | .rc => o
     | .wo => 0
     | .w1c => o &&& (2 ^ (f.hi + 1 - f.lo) - 1 - x)
     | .w1s => o ||| x)

/-- What a software write of v leaves in a register that holds old: every field by its access code, reserved bits 0. -/
def RegRow.merge (r : RegRow) (old v : Nat) : Nat := r.fields.foldl (fun acc f => f.write v old acc) 0

/-- What a software read returns: WO fields and reserved bits read 0 (R10). -/
def RegRow.view (r : RegRow) (old : Nat) : Nat :=
  r.fields.foldl (fun acc f => putBits acc f.hi f.lo (match f.acc with | .wo => 0 | _ => getBits old f.hi f.lo)) 0

/-- What an RC read leaves: RC fields cleared, the rest kept (R10, R11). -/
def RegRow.afterRead (r : RegRow) (old : Nat) : Nat :=
  r.fields.foldl (fun acc f => putBits acc f.hi f.lo (match f.acc with | .rc => 0 | _ => getBits acc f.hi f.lo)) old


end Sys2Proof.Machine
end

