-- ==== Sys2Proof/Machine/Dev.lean ====
section
/-! DEFINITION. The state of the part as plain data, block by block: the BAR0 registers, and in records of their own the
state that no register shows. -/

namespace Sys2Proof.Machine

/-! Engines (spec/07). -/

/-- E_STATE (R188). -/
inductive EState where
  | halted | running | waiting | fault | loading
  deriving DecidableEq, Repr

/-- The E_STATE code. -/
def EState.code : EState → Nat
  | .halted => 0 | .running => 1 | .waiting => 2 | .fault => 3 | .loading => 4

/-- What a WAITING engine waits for: an ewait (destination, mask) or a crecv (word and tag registers, channel, command). -/
inductive Wait where
  | event (gd : Nat) (mask : DWord)
  | word (gd ga : Nat) (chan cmd : Nat)
  deriving DecidableEq, Repr

/-- How far an outstanding request has come: sent, taken up by its target, answered but not yet delivered. -/
inductive Phase where
  | sent | taken | answered
  deriving DecidableEq, Repr

/-- An outstanding request (R215, R218): channel, command, operand, target polder and the target's epoch at the send;
its progress, its reply word and whether the reply is marked poisoned (R216, R284); the target's notes on it, and whether it was
sent in task mode (R220). -/
structure Req where
  chan : Nat
  cmd : Nat
  op : DWord
  tgt : Nat
  epoch : Nat
  phase : Phase := .sent
  rep : DWord := 0
  poison : Bool := false
  aux : Nat := 0
  task : Bool := false
  deriving DecidableEq, Repr

/-- A word queued for an engine on a channel, with its parity mark (R216); at is the E-cycle in which a mailbox word
arrives (R221). -/
structure QWord where
  chan : Nat
  word : DWord
  poison : Bool := false
  at_ : Nat := 0
  deriving DecidableEq, Repr

/-- One Neloc engine (R187, R188, R195, R196, R212, R215, R222). Times are E-cycles of its cluster's CYCLE. -/
structure EngSt where
  g : Tbl DWord := []            -- g1 to g31 (R195)
  pc : Word := 0
  lastPc : Word := 0             -- E_PC
  st : EState := .halted
  wait : Option Wait := none
  ready : Nat := 0               -- the E-cycle from which the next instruction may issue
  exl : Bool := false            -- STATUS
  ie : Bool := false
  task : Bool := false
  estatus : BitVec 3 := 0
  epc : DWord := 0
  vec : Nat := 0                 -- ECAUSE
  det : Nat := 0
  eval : DWord := 0
  lastVec : Nat := 0             -- E_CAUSE, E_EVAL
  lastDet : Nat := 0
  lastEval : DWord := 0
  vbase : Word := 0
  timerAt : Option Nat := none   -- the E-cycle in which TIMER expires; none: stopped
  timerExp : Bool := false       -- TIMER has expired and has not been rewritten
  wdogEn : Bool := true
  wdogExp : Nat := 26
  wdogStart : Nat := 0           -- the E-cycle of the last restart of the period
  wdogMissed : Bool := false     -- an expiry with no kick since
  winLBase : Nat := 16
  winLLimit : Nat := 17
  winSBase : Nat := 0
  winSLimit : Nat := 1
  scratch : Tbl DWord := []
  image : Option Word := none    -- the ENTRY of the image loaded, if any (R223)
  reqs : List Req := []          -- outstanding requests, oldest first
  replies : List QWord := []     -- replies not yet read
  notices : List QWord := []
  lost : List Nat := []          -- notice channels whose next notice carries LOST
  mbox : List QWord := []        -- mailbox words, chan = sender
  deriving DecidableEq, Repr

/-- An engine after a reset of its polder. -/
def EngSt.reset : EngSt := {}

/-- An engine cluster: CYCLE (R196), and whether a DRAIN has completed since the last of its engines halted (R223). -/
structure ClSt where
  cycle : Nat := 0
  drained : Bool := true
  deriving DecidableEq, Repr

/-- A cluster after a reset of its polder. -/
def ClSt.reset : ClSt := {}

/-! Lanes and ports (spec/01 to spec/04). -/

/-- The steps of a spare takeover (R51): requested, waiting for its window, calibrating, ready to take over, in service,
and the release's wait and window. -/
inductive RepSt where
  | none | step1 | step2 | calib | ready | inService | release | returning
  deriving DecidableEq, Repr

/-- The settings a capture ring runs on, sampled at its enable (R89), and where it stands. -/
structure CapSt where
  src : Nat := 0
  dec : Nat := 0
  trigSel : Nat := 0
  stop : Bool := false
  size : Nat := 4
  post : Nat := 0
  base : Nat := 0
  left : Option Nat := none      -- pages still to write after a trigger in stop mode
  trig : Bool := false           -- a trigger fell in the page being written
  index : Nat := 0               -- WORD_INDEX of the page being written
  drop : Nat := 0                -- words dropped since the page began
  lost : Bool := false           -- the mark was lost and not set again
  deriving DecidableEq, Repr

/-- A time of the time base as frames carry it: seconds, picoseconds, and 1/65,536 ps. -/
structure Stamp where
  sec : Nat := 0
  ps : Nat := 0
  sub : Nat := 0
  deriving DecidableEq, Repr

/-- What a calibration window has accumulated (R43): by entry (64 the spare) samples and the sum of corrected samples at each level,
4 * entry + level; the sums of products with the position before and after and their numbers; the sums of P₀ and P₂ over the included
positions. Corrected samples in 1/524,288 code. -/
structure CalAcc where
  n : Tbl Nat := []
  sum : Tbl Int := []
  cm : Tbl Int := []
  cmN : Tbl Nat := []
  cp : Tbl Int := []
  cpN : Tbl Nat := []
  p0 : Int := 0
  p0N : Nat := 0
  p2 : Int := 0
  p2N : Nat := 0
  deriving DecidableEq, Repr

/-- The LMS's gradient accumulator (R62): for the taps in 1/1,048,576 of output unit times code, for the other parameters (DFE H1,
MLSE H1 and H2, the thresholds from low to high) in half output units times their data. -/
structure GradAcc where
  taps : List Int := List.replicate 48 0
  rest : List Int := List.replicate 6 0
  deriving DecidableEq, Repr

/-- The receive data path of a lane (R41 to R64): corrected samples, newest first, in 1/524,288 code; equaliser outputs, newest first;
the samples converted beside the delivered one at the last position; symbols of the running fade so far; the position the LMS takes
next; the last two decisions as levels −3 to +3; its accumulators; and what the decision stage passed on for the last word, hard bits
(0, 1) in Mode S, log-likelihood ratios in Modes M and L, the bit pairs in symbol order. -/
structure RxSt where
  ys : List Int := []
  zs : List Int := []
  alt : List (Nat × Int) := []
  fadeAt : Nat := 0
  pos : Nat := 0
  a1 : Int := -3
  a2 : Int := -3
  grad : GradAcc := {}
  sse : Nat := 0                       -- squared errors of the running block, in 1/4 output unit²
  sseN : Nat := 0
  out : List Int := []
  dec : List Nat := []                 -- levels the last word decided (R58)
  far : List (List Nat) := []          -- far-end loop: words of levels in its store, oldest first (R82)
  chk : List Bool := []                -- pattern checker: its reference, newest bit first, error-free symbols so far, bits compared and
  chkRun : Nat := 0                    -- errors found while in SYNC (R84)
  chkBits : Nat := 0
  chkErr : Nat := 0
  eyeQ : List (Nat × Bool) := []       -- eye scan: comparisons that await the main decision (R85): symbols to go, above the boundary
  eyeAt : Nat := 0                     -- slice position it samples next
  eyeSet : Nat × Int × Nat := (1, 0, 20)    -- THR, VOFS and DWELL it was started with
  eyeN : Nat := 0                      -- samples and errors so far
  eyeErr : Nat := 0
  inner : List Bool := []              -- the 128 bits the inner decoder passed on last (R98)
  deriving DecidableEq, Repr

/-- The transmit data path of a lane (R68, R82, R84): level indices, newest first; the pattern generators' histories (PRBS13Q, PRBS31Q,
square wave; log 99); the levels sent and the DAC codes launched in the last L-cycle; saturations not yet in SAT_CNT; words for the
near-end loops, oldest first; what the pad sends (R82); the last far-end word. -/
structure TxSt where
  cs : List Nat := []
  gens : List (List Bool) :=
    [List.replicate 31 true, List.replicate 31 false, (List.replicate 8 [false, true]).flatten]
  sent : List Nat := []
  dac : List Int := []
  sat : Nat := 0
  loop : List (List Int) := []
  pad : List Int := []
  farLast : List Nat := List.replicate 128 0
  deriving DecidableEq, Repr

/-- The state of a lane that its registers do not show. -/
structure LaneSt where
  freqBad : Bool := false              -- a failing window has ended; the switch waits for a marker (R24)
  winOpen : Bool := false              -- a calibration window runs (R43, R47)
  winPts : Nat := 0                    -- its update points so far
  winLos : Bool := false               -- LOS was set at some time in it
  prevSpread : Option Rat := none      -- outer spread of the previous window in codes, none after HOLD (R45)
  acc : CalAcc := {}                   -- the running window's statistics (R43)
  sus : List Nat := []                 -- entries suspect when it began: a mark cleared since counts from the next one (R48, R52)
  rx : RxSt := {}
  tx : TxSt := {}
  ref : List Rat := [0, 0, 0, 0]       -- lane references M₀ to M₃ of the last window, in codes (R43, R85)
  lims : List Nat := []                -- slices with a coefficient at a limit since the window began (R44)
  pend : List (Nat × Word) := []       -- CAL_COEF writes awaiting an update point (R48)
  dfePend : Option Bool := none        -- DFE enable awaiting an update point (R59)
  dfeOn : Bool := false                -- DFE in force
  xslice : Nat := 0                    -- slice of the current or next XCHECK visit (R50)
  visit : Bool := false                -- the visit covers the running window
  xfail : Tbl Nat := []                -- consecutive failed visits of a slice
  scanReq : Bool := false              -- a scan waits for its update point (R49, R85)
  rep : RepSt := .none
  served : Option Nat := none          -- slice whose positions the spare delivers
  fadeK : Nat := 0                     -- the running fade lasts 2^fadeK symbols (R55)
  mseRun : Nat := 0                    -- consecutive blocks over ALARM_THR (R64)
  blkLos : Bool := true                -- LOS was set at some time in the block
  pwrTo : Nat × Nat := (2, 2)          -- TX and RX state the running power transition goes to (R79)
  pwrNext : Option (Nat × Nat) := none -- the queued request (R80)
  rspSeq : Nat := 0                    -- responder: last sequence processed, 0 for none (R74)
  rspSt : Nat := 0
  zeroDue : Bool := false              -- the next valid record carries REQ_SEQ = 0 (R75)
  reqSent : Bool := false              -- a message carrying the request has gone out
  resendOff : Bool := false            -- REQ_TIMEOUT has ended the resends
  cap : CapSt := {}
  inData : Bool := false               -- has entered DATA since its port entered DOWN (R104)
  mkIndex : Option Nat := none         -- INDEX at the last marker position, none before a valid marker (R102)
  mkMiss : Nat := 0                    -- consecutive positions without a valid marker
  mkBad : Bool := false                -- the last valid marker's LANE, SPLIT or MODE differed
  mkCyc : Nat := 0                     -- C-cycle in which the last marker left the sluice (R103)
  aptRx : Bool := false                -- measured aperture outcomes (R25)
  aptTx : Bool := false
  tmRx : Stamp := {}                   -- T_m of the last valid received marker (R116)
  tmTx : Stamp := {}                   -- and of the last transmitted one
  stepRx : Nat := 0                    -- time steps so far when they were captured (R120)
  stepTx : Nat := 0
  ber : Nat := 0                       -- pre-FEC errors of the running window (R110)
  tscRun : Bool := false               -- a delay measurement runs (R118)
  deriving DecidableEq, Repr

/-- A lane after a reset of its octet's polder. -/
def LaneSt.reset : LaneSt := {}

/-- A 64B/66B block (R106): control or data, and its 64 bits in transmission order. -/
structure Blk where
  ctrl : Bool
  bits : List Bool
  deriving DecidableEq, Repr

/-- A port: the live counts of R108, the run of uncorrectable codewords, and the first of the two skew measurements
(R104). Its transmit PCS: blocks of frames that wait to be sent, octets its gaps are ahead of the average asked, the scrambler's last 58
bits, and per lane the coded bits dealt and not yet sent. Its receive PCS: whether the next codeword is B of its pair, the codewords
since UP, the numbers of those that were uncorrectable, the descrambler's last 58 bits, and the blocks the last codeword released. -/
structure PortSt where
  cw : Nat := 0
  corr : Nat := 0
  uncorr : Nat := 0
  sym : Nat := 0
  hist : Tbl Nat := []
  uncRun : Nat := 0
  skews : Option (List Nat) := none
  txq : List Blk := []
  credit : Nat := 0
  scr : List Bool := []
  fifo : List (List Bool) := []
  half : Bool := false
  cwNo : Nat := 0
  badCw : List Nat := []
  dsc : List Bool := []
  blks : List Blk := []
  deriving DecidableEq, Repr

/-- A port after a reset of its octet's polder. -/
def PortSt.reset : PortSt := {}

/-- An entry of the transmit-timestamp queue (R121). -/
structure TxTs where
  slot : Nat
  stepped : Bool
  tag : Nat
  sec : Nat
  ps : Nat
  deriving DecidableEq, Repr

/-- The state of an octet's port logic that its registers do not show. -/
structure OctSt where
  modePend : Nat := 0                  -- the pending copy of MODE (R33)
  mkTx : Nat := 0                      -- INDEX of the next marker to send (R100)
  mkOut : List DWord := []             -- the markers sent last, one per lane
  txts : List TxTs := []               -- transmit-timestamp queue, oldest first
  trnDue : Bool := false               -- a training message is due (R76)
  pll : Bool := false                  -- the transmit PLL runs: it stops once all eight lanes are in DEEP (R79)
  deriving DecidableEq, Repr

/-- An octet after a reset of its polder. -/
def OctSt.reset : OctSt := {}

/-- The registers of a third-order integrating decimator (R129, R261) and the samples since its last output. -/
structure Cic where
  i1 : Nat := 0
  i2 : Nat := 0
  i3 : Nat := 0
  c1 : Nat := 0
  c2 : Nat := 0
  c3 : Nat := 0
  n : Nat := 0
  deriving DecidableEq, Repr

/-- A received Tideline frame with its descriptor (R141): the header as received, metric, BLOCKS_OK, status, and the payload kept
while the status is OK, first bit most significant. -/
structure TlRx where
  status : Nat
  header : Nat
  metric : Nat
  blocksOk : Nat
  bits : Nat
  deriving DecidableEq, Repr

/-- A queued software frame (R145): its TX_DESC fields and its payload of 256 bits per block, first bit most significant. -/
structure TlTx where
  desc : Nat
  bits : Nat
  deriving DecidableEq, Repr

/-- The frame being sent: a gasp with its REASON, a training message, or the oldest software frame. -/
inductive TlCur where
  | gasp (reason : Nat)
  | train (msg : BitVec 256)
  | soft
  deriving DecidableEq, Repr

/-- The state of an octet's Tideline modem that its registers do not show (spec/05). -/
structure TlSt where
  wait : Bool := false                 -- back in SEARCH but not ready yet (R139)
  held : Option (Nat × Nat) := none    -- the held detection: SF code and metric (8-bit form)
  header : Nat := 0                    -- header of the CONF frame
  blocks : List (BitVec 256 × Bool) := []   -- its released blocks and whether each satisfied every check
  rxq : List TlRx := []                -- receive queue, oldest first
  txq : List TlTx := []                -- software transmit queue, oldest first
  cur : Option TlCur := none
  gaspReq : Option Nat := none         -- a gasp waits to start, with its REASON
  trnCount : Nat := 0                  -- training messages sent since reset, modulo 16
  header_tx : Nat := 0                 -- the header of the frame being sent
  depth : Nat := 0                     -- captured at its first chip (R127)
  fir : List Nat := []
  cic : Cic := {}                      -- the receive decimator (R129), and its latest outputs, newest first, 16 of them
  dec : List Int := []
  gain : Nat := 0                      -- the AGC gain in force (R130)
  agcAt : Option Nat := none           -- the E-cycle by which the AGC, re-acquiring after a preemption, has frozen again
  delim : Bool := false                -- the delimiter of the UNCONF reception has matched (R134)
  deriving DecidableEq, Repr

/-- A modem after a reset of its polder. -/
def TlSt.reset : TlSt := {}

/-- The time base and its interfaces (R111 to R114). -/
structure TimeSt where
  sec : Nat := 0
  ps : Nat := 0
  frac : Nat := 0                      -- 2^-24 ps
  steps : Nat := 0                     -- steps and loads so far (R120)
  stepPend : Option Int := none        -- a TB_STEP awaiting the next E-cycle
  setVal : Option (Nat × Nat) := none  -- the committed TB_SET value, seconds and picoseconds
  setDue : Bool := false               -- it loads at the next E-cycle
  ppsOut : Bool := false               -- PPS_OUT
  ppsSec : Option Nat := none          -- the second of the last PPS_OUT edge
  todOut : List Byte := []             -- the last message sent on TOD_OUT
  deriving DecidableEq, Repr

/-! Control loops and the analog edge (spec/08, spec/09). -/

/-- The coefficients whose writes R243 compensates, as registers. -/
structure Coef where
  kp : Nat := 0
  kd : Nat := 0x400
  win : Nat := 0x03E80000
  phase : Nat := 0
  rcEn : Bool := false
  deriving DecidableEq, Repr

/-- A loop beside its registers. Set-point, velocity and derivative state in 1/256 m-unit. -/
structure LoopSt where
  r : Int := 0
  v : Int := 0
  w : Int := 0
  y : Int := 0                         -- the last valid measurement
  e : Int := 0
  i : Int := 0                         -- integrator, fine units
  q : Int := 0
  o : Nat := 0
  hist : List Nat := []                -- previous outputs, newest first, 64 of them
  k : Nat := 0                         -- repetitive phase
  yhat : Rat := 0
  b0 : Rat := 0
  res : Rat := 0
  lockRun : Nat := 0                   -- consecutive samples inside LOCK_TOL, and outside
  offRun : Nat := 0
  brRun : Nat := 0                     -- consecutive samples beyond DW_BOUND, and within
  okRun : Nat := 0
  staged : Nat := 0                    -- staged INTEG_LO
  preset : Option Int := none          -- an integrator preset for the next sample
  prev : Coef := {}                    -- coefficients of the last sample
  rcOld : Tbl Int := []                -- words of the memory as the last sample saw them, where written since
  rcWr : Bool := false                 -- RC_WIN written since the last sample
  dwOn : Bool := false                 -- DW_EN of the last sample
  dwInit : Bool := false
  dwOff : Bool := false                -- a write of DW_EN = 0 since the last sample (R248)
  tgt : Bool := false                  -- a write has changed TARGET since the last sample
  deriving DecidableEq, Repr

/-- A loop after a reset of its octet's polder. -/
def LoopSt.reset : LoopSt := {}

/-- A write or request waiting for the next tick (R231): a register, a memory word, a WEIR request. -/
inductive WOp where
  | reg (off v : Nat)
  | mem (addr v : Nat)
  | req (e ch cmd op : Nat)
  deriving DecidableEq, Repr

/-- A filter chain beside its registers (R261, R264, R269). Codes arrive in the X-cycles of a tick period, counted from 0. -/
structure ChainSt where
  n : Nat := 0                         -- samples received since its clearing
  cut : Nat := 0                       -- the arrival X-cycle, in this period, of the first code that counts since its clearing
  cic : Cic := {}                      -- the decimator, and its outputs since the clearing, newest first
  hist : List Int := []
  age : Nat := 0                       -- X-cycles from the arrival of the code that gave the newest output to the last tick
  raw : Option Nat := none             -- the latest code
  hiOn : Bool := false                 -- threshold enables in force
  loOn : Bool := false
  deriving DecidableEq, Repr

/-- A chain after a reset of its octet's polder. -/
def ChainSt.reset : ChainSt := {}

/-- The loop coprocessor and the analog edge of an octet beside their registers. -/
structure WeirSt where
  ops : List WOp := []                 -- waiting for the next tick, oldest first
  tick : Nat := 0                      -- number of the next tick
  period : Nat := 655                  -- X-cycles of the running tick period
  mem : Tbl Int := []                  -- the repetitive controller's 32,768 words
  tickUp : Nat := 0                    -- the elapsed time (up) at the last tick
  scan : Bool := false                 -- the scan runs (SCAN_EN, and no calibration holds it)
  lead : Nat := 0                      -- the X-cycle of this period in which its first code arrives
  pos : Nat := 0                       -- the place in its round of the next code to arrive
  mask : Nat := 0                      -- inputs of the round in progress
  maskCut : Nat := 0                   -- the arrival X-cycle from which a round takes up the mask written
  refCut : Nat := 0                    -- the arrival X-cycle of the first code since REF_SETTLED rose
  round : Bool := false                -- a block-mode round runs, with its SKIP and BLK_EXP
  skip : Nat := 0
  blk : Nat := 0
  owed : List (Nat × Nat × Nat × Nat × List Nat) := []   -- requests that wait for their reply (R251): engine, channel, command, operand,
                                                         -- and the loops not sampled since
  scanWait : Bool := false             -- scanning starts at the next tick
  cal : Bool := false                  -- a reference calibration runs
  drive : Nat := 0                     -- outputs that drive (R256)
  code : Tbl Nat := []                 -- DAC codes presented, by loop
  pads : Option (Nat × Tbl Nat) := none    -- held pads: what drove and the codes at isolation (R326)
  deriving DecidableEq, Repr

/-- The same after a reset of the octet's polder. -/
def WeirSt.reset : WeirSt := {}

/-! The flow fabric (spec/06). -/

/-- A scheduler node (R175 to R181): its record, the staged and pending copies of its chamber, its balances, and its children by
band in turn order with the pointer of each band and whether that child's turn has begun. -/
structure Node where
  valid : Bool := false
  band : Nat := 3
  weight : Nat := 1
  parent : Nat := 0
  rate : Nat := 1000000
  shape : Bool := false
  ovh : Nat := 0                       -- 7-bit two's complement
  burst : Nat := 64
  qb : List Nat := [8, 8, 8, 8]        -- QB0 to QB3
  age : Nat := 0                       -- AGE_T
  aged : Nat := 0                      -- C-cycles it has been eligible and unselected (R179)
  sBand : Nat := 3                     -- staged
  sWeight : Nat := 1
  sQb : List Nat := [8, 8, 8, 8]
  sAge : Nat := 0
  pend : Option (List Nat × Nat × List (Nat × Nat × Nat)) := none   -- committed QB, AGE_T, and child, BAND, WEIGHT
  deficit : Int := 0
  tokens : Int := 0                    -- 2^-32 byte
  tokAt : Nat := 0                     -- C-cycle of the balance
  promoted : Bool := false
  kids : List (List Nat) := [[], [], [], []]
  ptr : List Nat := [0, 0, 0, 0]
  turn : List Bool := [false, false, false, false]
  deriving DecidableEq, Repr

/-- A node whose record has not been written. -/
def Node.reset : Node := {}

/-- The free list of a cell bank (R158): cells never used from fresh on, then the returned ones, oldest first; and what a parity
error has cut off (R161). -/
structure BankSt where
  fresh : Nat := 0
  back : List Nat := []
  lostFrom : Option Nat := none
  lost : List Nat := []
  deriving DecidableEq, Repr

/-- A bank after a reset of the fabric. -/
def BankSt.reset : BankSt := {}

/-- An install accepted and not yet committed (R167): the engine, the flow, its context and its node. -/
structure Inst where
  eng : Nat
  flow : Nat
  words : List Nat
  parent : Nat
  band : Nat
  weight : Nat
  deriving DecidableEq, Repr

/-- A frame selected for a port (R176): flow, first cell, cells, charged length before OVH, still arriving, selected before its end. -/
structure EgFr where
  flow : Nat
  first : Nat
  cells : Nat
  chg : Nat
  open_ : Bool := false
  ct : Bool := false
  deriving DecidableEq, Repr

/-- A cut-through frame still arriving (R159): flow, first and last cell so far, cells, charged length, MAX_FRAME as it began (R110),
selected; dead: its cells are gone, and what follows of it is discarded (R161, R177). -/
structure RxFr where
  flow : Nat
  first : Nat
  last : Nat
  cells : Nat
  chg : Nat
  max : Nat := 9728
  sel : Bool := false
  dead : Bool := false
  deriving DecidableEq, Repr

/-- A spill chunk in use (R170): next chunk, link flags and descriptors of its slots. -/
structure Chunk where
  next : Nat := 0
  flags : Tbl Nat := []
  descs : Tbl Nat := []
  deriving DecidableEq, Repr

/-- A frame out of every list (R165, R387): 1 punted, 2 + q with DMA queue q; its punt reason, and the hit word of its entry. -/
structure Held where
  st : Nat := 0
  reason : Nat := 0
  hit : Nat := 0
  deriving DecidableEq, Repr

/-- A first cell that holds no such frame. -/
def Held.none : Held := {}

/-- The flow fabric beside its registers, the flow store and the cell data. -/
structure FabSt where
  links : Tbl Nat := []                -- link words by cell (R158)
  descs : Tbl Nat := []                -- descriptor words by cell
  cls : Tbl Nat := []                  -- class + 1 of an allocated cell
  young : List Nat := []               -- cells allocated since the sweep began (R162)
  banks : Tbl BankSt := []
  rot : Nat := 0                       -- the bank the next allocation takes
  nodes : Tbl Node := []               -- 2^20 * level + index
  inst : List Inst := []
  rings : Tbl (Nat × Nat) := []        -- punt rings: next entry to write, next to read
  held : Tbl Held := []                -- by first cell
  stage : List (Nat × Nat × Nat) := [] -- spilled frames awaiting the writer: flow, first cell, cells
  chunks : Tbl (Option Chunk) := []
  fetchQ : List Nat := []              -- flows with a spillway fetch requested, oldest first (R172)
  egr : Tbl (List EgFr) := []          -- by port, oldest first
  rx : Tbl (Option RxFr) := []         -- by port
  sent : Tbl (List Byte) := []         -- by port: the frame delivered last
  flushed : List Nat := []             -- ports past FLUSH_MS (R177)
  ind : Option (Nat × List Nat) := none    -- SCHED_IND access in progress: the word written and DATA0 to DATA4
  cyc : Nat := 0                       -- the latest C-cycle a decision named
  deriving DecidableEq, Repr

/-- The fabric after a reset of the quadrant polders. -/
def FabSt.reset : FabSt := {}

/-! The host interface (spec/15). -/

/-- A DMA queue pair beside its registers (R386 to R389): frames held for the host, oldest first; submissions the part has read up to;
completions written since the last signal, whether the timer runs, and the lap of the completion ring. -/
structure QSt where
  hold : List Nat := []
  u : Nat := 0
  timer : Bool := false
  lap : Nat := 0
  deriving DecidableEq, Repr

/-- A queue pair after a function reset. -/
def QSt.reset : QSt := {}

/-- A BAR2 access: its offset, the DRAM address of the window it was sent through, and what it does. -/
structure B2Req where
  off : Nat
  page : Nat
  op : B2Op
  deriving DecidableEq, Repr

/-- A BAR2 completion: 0 none, 1 successful, 2 Unsupported Request, 3 with EP; the bytes of a read. -/
structure B2Done where
  st : Nat := 0
  bytes : List Byte := []
  deriving DecidableEq, Repr

/-- The PCIe function beside its registers (R381, R384, R390). -/
structure HostSt where
  ready : Bool := false                -- configuration requests are answered (R381)
  retry : Bool := false                -- the last one was answered with Retry Status
  intDis : Bool := false               -- Command.Interrupt Disable
  pmeEn : Bool := false
  inta : Bool := false                 -- the last INTx message sent was Assert_INTA
  pmeSent : Nat := 0                   -- PM_PME messages sent
  b2wait : List B2Req := []            -- BAR2 accesses waiting for the DRAM, oldest first (R383)
  b2 : B2Done := {}                    -- the last BAR2 completion
  subsys : Nat := 0                    -- Subsystem Vendor ID and Subsystem ID (R403)
  wrs : List (Nat × List Byte) := []   -- the part's last writes to host memory, one delivery: addresses and bytes
  deriving DecidableEq, Repr

/-! Memory and counters (spec/10, spec/11). -/

/-- A DRAM channel's arbiter (R278, R333): what the last slot granted, the grants that orders 4 and 5 have waited for, the place in the sixteen
slots of the thermal limit and the grants of orders 2 to 7 in them. -/
structure GrantSt where
  last : Option DramReq := none
  w4 : Nat := 0
  w5 : Nat := 0
  slot : Nat := 0
  used : Nat := 0
  deriving DecidableEq, Repr

/-- A channel's arbiter after a reset of the DRAM polder. -/
def GrantSt.reset : GrantSt := {}

/-- The memory block beside its registers. Only accesses to the DRAM space wait (R288, R291). -/
structure MemSt where
  rw : Option Nat := none              -- the word a rewrite waits for
  ecct : Option (Bool × Nat × DWord × Byte) := none   -- an ECC test access that waits: write, word, data, check byte
  scrub : Tbl Nat := []                -- by space: words the lap has passed (R289)
  lapAt : Nat := 0                     -- when the lap began
  mr4 : Nat := 0                       -- the refresh exponent MR4 asks for (R280)
  grant : Tbl GrantSt := []            -- by channel
  log : List (Nat × Nat) := []         -- scrub log, oldest first: SCRUB_LOG_0 and word index
  deriving DecidableEq, Repr

/-- A counter dump record being written (R311). -/
structure DumpRec where
  no : Nat
  sec : Nat
  ps : Nat
  flags : Nat
  skipped : Nat
  interval : Nat
  perm : Nat
  ctr : Tbl DWord
  deriving DecidableEq, Repr

/-- The counter block beside its registers (R309, R311). -/
structure CtrSt where
  shadow : Tbl (Option (Nat × DWord)) := []   -- by requester: the counter latched last and its value
  snap : Tbl DWord := []               -- the host snapshot bank
  next : Nat := 0                      -- the next latch number
  dump : Option DumpRec := none        -- the record being written
  skipped : Nat := 0                   -- latches skipped since the previous record
  full : Bool := false                 -- DUMP_WR has come round to DUMP_RD
  cleared : Bool := false              -- a group cleared since the previous record
  deriving DecidableEq, Repr

/-! Polders, power and temperature (spec/12). -/

/-- A polder beside its registers: closed (R317), in reset (R398), under self-test (R369), forced to stop (R334), being prepared for
it; E-cycles toward the next millisecond of ACTIVE, IDLE and RETAIN (R327). -/
structure PolSt where
  closed : Bool := false
  inReset : Bool := false
  test : Bool := false
  forced : Bool := false
  prep : Bool := false
  act : Nat := 0
  idle : Nat := 0
  ret : Nat := 0
  deriving DecidableEq, Repr

/-- A polder after reset. -/
def PolSt.reset : PolSt := {}

/-- A power request (R318): a profile with its park masks, or one polder's state; the source and interrupt an ACCT register
records (R327). -/
structure PReq where
  polder : Option (Nat × Nat) := none
  profile : Nat := 0
  parkOct : Nat := 0
  parkCl : Nat := 0
  src : Nat := 0
  irq : Nat := 0
  deriving DecidableEq, Repr

/-- A running transition (R319 to R323): its request, every polder's state before it, the exits and entries still to carry out with
their target states, the polder in entry with its former state, what has been taken down (latest first), the polders changed, the
restores still to carry out; and once it is decided, RESULT, CAUSE and the polder concerned. -/
structure Trans where
  req : PReq
  pre : List Nat
  exits : List (Nat × Nat)
  entries : List (Nat × Nat)
  cur : Option (Nat × Nat) := none
  down : List (Nat × Nat) := []
  touched : List Nat := []
  aband : List Nat := []
  restore : Option (List (Nat × Nat)) := none
  wake : Option Nat := none            -- a wake or reversal not yet acted on: its RESULT
  res : Nat := 1
  cause : Nat := 0
  who : Option Nat := none
  deriving DecidableEq, Repr

/-- The pumping station beside its registers. -/
structure PwrSt where
  run : Option Trans := none
  next : Option PReq := none           -- the queued request (R324)
  masks : Nat × Nat := (0, 0)          -- park masks of the last profile other than HALT (R325)
  demand : Bool := false               -- the DRAM polder returns on demand (R316)
  pfAt : Option Nat := none            -- PFAIL asserted and its PFAIL_N edge still the last one (R328)
  pfGasp : Bool := false               -- a gasp command since that edge
  pfRec : Bool := false                -- a power-fail record since that edge
  vcore : Nat := 750                   -- requested VDD_CORE in mV (R409)
  alert : Bool := false                -- SMB_ALERT_N asserted
  deriving DecidableEq, Repr

/-- A sensor beside its registers: its last readings, newest first, at most 10, and consecutive failed cross-checks (R329, R331). -/
structure SensSt where
  hist : List Int := []
  stray : Nat := 0
  incl : Bool := false                 -- to be included from the next scan
  deriving DecidableEq, Repr

/-- A sensor after reset. -/
def SensSt.reset : SensSt := {}

/-- Thermal sensing beside its registers (R335). -/
structure ThmSt where
  sens : Tbl SensSt := []
  trips : Nat := 0                     -- consecutive sentinel readings with two at TRIP
  dis : List Nat := [0, 0, 0, 0]       -- consecutive readings of each sentinel away from the median
  tripped : Bool := false              -- THERMTRIP_N is low
  deriving DecidableEq, Repr

/-! Security, debug, self-test and boot (spec/13 to spec/16). -/

/-- Security, debug port and random numbers beside their registers and the fuses. -/
structure SecSt where
  rrk : Option (List Byte) := none     -- RRK (R346)
  nonce : List DWord := []             -- the challenge nonce, drawn when it is first used (R357)
  stage : List Word := List.replicate 12 0    -- fuse staging words (R359)
  resp : Option (List Byte) := none    -- a response being checked
  trngBad : Bool := false              -- output is withheld (R347)
  rollImg : Nat := 0                   -- ROLLBACK of the image warden 0 runs (R350)
  nvFree : Nat := 0                    -- when the word write in progress ends (R352)
  nvWord : DWord := 0                  -- the word NV_DATA_LO read
  nvWait : List DWord := []            -- host writes held while BUSY
  ir : Nat := 2                        -- the TAP instruction in force (R356)
  bscan : Nat := 0                     -- boundary-scan outputs preloaded
  tdo : Nat := 0                       -- what the last TAP instruction returns
  busy : Option (Nat × DWord) := none  -- a DBG_ACCESS command in progress: the status and data it will end with
  st : Nat := 0                        -- status and data of the last command
  data : DWord := 0
  deriving DecidableEq, Repr

/-- A running test (R368): its subset, its lane if it is a lane test, the engine owed a reply, when it began, and the registers saved
(a lane's, or a cluster's CL_MODE). -/
structure BistRun where
  subset : Nat
  lane : Option Nat
  eng : Option Nat
  start : Nat
  saved : Tbl Word := []
  deriving DecidableEq, Repr

/-- Self-test beside its registers: running tests by target, and the soft repair table: target and whether fused (R375). -/
structure BistSt where
  run : Tbl (Option BistRun) := []
  soft : List (Nat × Bool) := []
  deriving DecidableEq, Repr

/-- Boot and the board's pins. -/
structure BootSt where
  romDone : Bool := false
  kick : Bool := false                 -- KICK within the last TIMEOUT ms (R401)
  smb : Nat := 0                       -- the data of the last SMBus read (R418)
  deriving DecidableEq, Repr

/-! The part. -/

/-- The state of the part but for the fuses and the queue of waiting commands. -/
structure Dev where
  regs : Tbl Word := []          -- BAR0 registers by offset; an unlisted one holds its reset value
  freeCtr : Nat := 0             -- the model's own: how many free values have been drawn
  eng : Tbl EngSt := []          -- engines 0 to 95, eight per cluster
  cl : Tbl ClSt := []            -- clusters 0 to 11
  dram : Store := {}
  flowS : Store := {}
  cellS : Store := {}
  locS : Store := {}
  sharedS : Store := {}
  ctr : Tbl DWord := []           -- the 8,192 event counters (R306)
  lane : Tbl LaneSt := []         -- global lanes 0 to 255
  port : Tbl PortSt := []         -- ports by octet and slot, 8 * octet + slot
  oct : Tbl OctSt := []           -- octets 0 to 31
  tl : Tbl TlSt := []             -- Tideline modems 0 to 31
  time : TimeSt := {}
  loop : Tbl LoopSt := []         -- loops, 20 * octet + loop
  chain : Tbl ChainSt := []       -- filter chains, 20 * octet + input
  weir : Tbl WeirSt := []         -- octets 0 to 31
  fab : FabSt := {}
  q : Tbl QSt := []               -- DMA queue pairs 0 to 63
  host : HostSt := {}
  mem : MemSt := {}
  cnt : CtrSt := {}
  pwr : PwrSt := {}
  thm : ThmSt := {}
  sec : SecSt := {}
  bist : BistSt := {}
  boot : BootSt := {}
  up : Nat := 0                   -- the model's own: E-cycles of elapsed time, as idle steps count them
  reads : Tbl Word := []          -- the last word a BAR0 read returned: 0 the host, 1 the debug port, 2 + e engine e's REG channel
  ur : Tbl Nat := []              -- by requester, as in reads: its BAR0 accesses completed with Unsupported Request (R9)
  pol : Tbl PolSt := []           -- polders 0 to 48
  errLog : List (Nat × Nat) := [] -- HOST.ERR_LOG, oldest first: ERR_LOG_0 and ERR_LOG_1 of each entry (R394)
  holders : Tbl Nat := []         -- octet notice channel 8 * octet + k: the holding warden + 1, 0 for none (R214)
  deriving DecidableEq, Repr

end Sys2Proof.Machine
end

