-- ==== Sys2Proof/Machine/Ops.lean ====
section
/-! DEFINITION. The named operations every family uses: registers and their fields, free values, event counters, notices,
reads of the protected stores, error logging and the gate every BAR0 access passes. -/

namespace Sys2Proof.Machine

/-! Registers. -/

/-- The register at BAR0 offset a. -/
def Dev.reg (d : Dev) (a : Nat) : Nat := (Tbl.get (RegMap.reset a) d.regs a).toNat

/-- The register at BAR0 offset a replaced. -/
def Dev.setReg (d : Dev) (a v : Nat) : Dev := { d with regs := Tbl.set (RegMap.reset a) d.regs a (BitVec.ofNat 32 v) }

/-- The value of a field. -/
def Dev.get (d : Dev) (f : Fld) : Nat := getBits (d.reg f.addr) f.hi f.lo

/-- A field replaced by the low bits of v. -/
def Dev.set (d : Dev) (f : Fld) (v : Nat) : Dev := d.setReg f.addr (putBits (d.reg f.addr) f.hi f.lo v)

/-- A one-bit field as a Bool. -/
def Dev.on (d : Dev) (f : Fld) : Bool := d.get f != 0

/-- A one-bit field set or cleared. -/
def Dev.flag (d : Dev) (f : Fld) (b : Bool) : Dev := d.set f (b2n b)

/-- The width of a field. -/
def Fld.width (f : Fld) : Nat := f.hi + 1 - f.lo

/-- A field read as two's complement. -/
def Dev.getI (d : Dev) (f : Fld) : Int := toS f.width (d.get f)

/-- A field written in two's complement. -/
def Dev.setI (d : Dev) (f : Fld) (i : Int) : Dev := d.set f (ofS f.width i)

/-- A counting field raised by n, saturating at its largest value. -/
def Dev.inc (d : Dev) (f : Fld) (n : Nat := 1) : Dev := d.set f (satAdd (2 ^ f.width - 1) (d.get f) n)

/-- A counting field raised by n, wrapping. -/
def Dev.incW (d : Dev) (f : Fld) (n : Nat := 1) : Dev := d.set f (d.get f + n)

/-- Bits of a field set (an event bit, a sticky bitmap). -/
def Dev.orF (d : Dev) (f : Fld) (m : Nat) : Dev := d.set f (d.get f ||| m)

/-- Bits of a field cleared. -/
def Dev.clrF (d : Dev) (f : Fld) (m : Nat) : Dev := d.set f (d.get f &&& (2 ^ f.width - 1 - m % 2 ^ f.width))

/-- A software write to a register: every field by its access code, clamped (R10, R392). -/
def Dev.sw (d : Dev) (row : RegRow) (a v : Nat) : Dev := d.setReg a (row.merge (d.reg a) v)

/-- The registers from offset a up to (not including) b set back to their reset values. -/
def Dev.resetRegs (d : Dev) (keep : Nat → Bool) : Dev := { d with regs := d.regs.filter (fun e => keep e.1) }

/-! Free values (log 2). -/

/-- A fresh free value, and the state with the stream advanced. -/
def Dev.draw (d : Dev) : DWord × Dev := (Config.freeValue d.freeCtr, { d with freeCtr := d.freeCtr + 1 })

/-! Event counters (R306, R307). -/

/-- Counter n. -/
def Dev.count (d : Dev) (n : Nat) : DWord := Tbl.get 0 d.ctr n

/-- Counter n raised by k, saturating at 2^64 - 1. -/
def Dev.bump (d : Dev) (n : Nat) (k : Nat := 1) : Dev :=
  { d with ctr := Tbl.set 0 d.ctr n (BitVec.ofNat 64 (satAdd (2 ^ 64 - 1) (d.count n).toNat k)) }

/-- R307: counter k of port p. -/
def Ctr.port (p k : Nat) : Nat := 16 * p + k

/-- R307: counter k of global lane g. -/
def Ctr.lane (g k : Nat) : Nat := 4096 + 8 * g + k

/-- R307: counter k of octet o. -/
def Ctr.oct (o k : Nat) : Nat := 6144 + 16 * o + k

/-- R307: drop cause k = 1 to 18. -/
def Ctr.drop (k : Nat) : Nat := 6655 + k

/-- R307: counter k of cluster c. -/
def Ctr.cluster (c k : Nat) : Nat := 6912 + 16 * c + k

/-! Engines and clusters. -/

/-- Engine e. -/
def Dev.e (d : Dev) (e : Nat) : EngSt := Tbl.get EngSt.reset d.eng e

/-- Engine e replaced. -/
def Dev.setE (d : Dev) (e : Nat) (x : EngSt) : Dev := { d with eng := Tbl.set EngSt.reset d.eng e x }

/-- Engine e changed by f. -/
def Dev.onE (d : Dev) (e : Nat) (f : EngSt → EngSt) : Dev := d.setE e (f (d.e e))

/-- Cluster c. -/
def Dev.c (d : Dev) (c : Nat) : ClSt := Tbl.get ClSt.reset d.cl c

/-- Cluster c changed by f. -/
def Dev.onC (d : Dev) (c : Nat) (f : ClSt → ClSt) : Dev := { d with cl := Tbl.set ClSt.reset d.cl c (f (d.c c)) }

/-- R187: the roles of the clusters. -/
inductive Role where
  | flow | keeper | warden
  deriving DecidableEq, Repr

/-- The role of engine e. -/
def roleOf (e : Nat) : Role := if e < 56 then .flow else if e < 88 then .keeper else .warden

/-- The ID code of a role (R196). -/
def Role.code : Role → Nat
  | .flow => 0 | .keeper => 1 | .warden => 2

/-- R187: the keeper engine of octet o. -/
def keeperOf (o : Nat) : Nat := 56 + o

/-- R222: a notice of code and index queued for engine e on channel ch: dropped when 32 are queued, and the next one
queued carries LOST. -/
def Dev.noticeTo (d : Dev) (e ch code index : Nat) : Dev :=
  d.onE e fun x =>
    if 32 ≤ (x.notices.filter (·.chan == ch)).length then
      { x with lost := if x.lost.contains ch then x.lost else ch :: x.lost }
    else
      let w := (if x.lost.contains ch then 2 ^ 59 else 0) + code % 256 * 256 + index % 256
      { x with notices := x.notices ++ [{ chan := ch, word := BitVec.ofNat 64 w }], lost := x.lost.filter (· != ch) }

/-- R214: the warden that holds octet o's notice channel 0x020 + k, if any. -/
def Dev.holder (d : Dev) (o k : Nat) : Option Nat :=
  match Tbl.get 0 d.holders (8 * o + k) with
  | 0 => none
  | n + 1 => some n

/-- R214, R222: a notice of octet o on its channel 0x020 + k: to the warden that holds the channel, else to the keeper. -/
def Dev.notice (d : Dev) (o k code index : Nat) : Dev :=
  match d.holder o k with
  | some w => d.noticeTo (88 + w) (0x100 + 8 * o + k) code index
  | none => d.noticeTo (keeperOf o) (0x020 + k) code index

/-- A notice of lane g on its octet's LANE_EVT channel; the index is the lane within the octet. -/
def Dev.laneNotice (d : Dev) (g code : Nat) : Dev := d.notice (g / 8) 0 code (g % 8)

/-! Polders (R313, R399). -/

/-- The epoch of polder p. -/
def Dev.epoch (d : Dev) (p : Nat) : Nat := getBits (d.reg (A.EPOCH (p / 4))) (8 * (p % 4) + 7) (8 * (p % 4))

/-- The epoch of polder p raised by 1, modulo 256 (R399). -/
def Dev.bumpEpoch (d : Dev) (p : Nat) : Dev :=
  d.setReg (A.EPOCH (p / 4)) (putBits (d.reg (A.EPOCH (p / 4))) (8 * (p % 4) + 7) (8 * (p % 4)) (d.epoch p + 1))

/-- The POLDER_STATE code of polder p: 0 ACTIVE, 1 IDLE, 2 RETAIN (R314). -/
def Dev.polder (d : Dev) (p : Nat) : Nat := getBits (d.reg (A.POLDER_STATE (p / 8))) (4 * (p % 8) + 2) (4 * (p % 8))

/-- The state of polder p replaced. -/
def Dev.setPolder (d : Dev) (p s : Nat) : Dev :=
  d.setReg (A.POLDER_STATE (p / 8)) (putBits (d.reg (A.POLDER_STATE (p / 8))) (4 * (p % 8) + 2) (4 * (p % 8)) s)

/-- R313: the polder of engine cluster c. -/
def clPolder (c : Nat) : Nat := if c < 11 then 36 + c else 48

/-- The state of polder p lets its own logic work: not in RETAIN, not in reset (R306, R314) and not under self-test (R370). -/
def Dev.powered (d : Dev) (p : Nat) : Bool :=
  d.polder p != 2 && !(Tbl.get PolSt.reset d.pol p).inReset && !(Tbl.get PolSt.reset d.pol p).test

/-- R16, R17: the blocks of polder p work: an octet's only while its keeper cluster is not in RETAIN, a fabric quadrant's only while all four
quadrants work. -/
def Dev.awake (d : Dev) (p : Nat) : Bool :=
  if p < 32 then d.powered p && d.polder (43 + p / 8) != 2
  else if p < 36 then [32, 33, 34, 35].all d.powered
  else d.powered p

/-- An event of polder p: nothing occurs in RETAIN, in reset or under self-test (R306, R370). -/
def Dev.live (d : Dev) (p : Nat) (f : Dev → Dev) : Dev := if d.awake p then f d else d

/-! Lanes, ports and octets. -/

/-- Global lane g beside its registers. -/
def Dev.ln (d : Dev) (g : Nat) : LaneSt := Tbl.get LaneSt.reset d.lane g

/-- Lane g changed by f. -/
def Dev.onL (d : Dev) (g : Nat) (f : LaneSt → LaneSt) : Dev := { d with lane := Tbl.set LaneSt.reset d.lane g (f (d.ln g)) }

/-- The port of slot p in octet o beside its registers. -/
def Dev.pt (d : Dev) (o p : Nat) : PortSt := Tbl.get PortSt.reset d.port (8 * o + p)

/-- That port changed by f. -/
def Dev.onPt (d : Dev) (o p : Nat) (f : PortSt → PortSt) : Dev :=
  { d with port := Tbl.set PortSt.reset d.port (8 * o + p) (f (d.pt o p)) }

/-- Octet o beside its registers. -/
def Dev.oc (d : Dev) (o : Nat) : OctSt := Tbl.get OctSt.reset d.oct o

/-- Octet o changed by f. -/
def Dev.onO (d : Dev) (o : Nat) (f : OctSt → OctSt) : Dev := { d with oct := Tbl.set OctSt.reset d.oct o (f (d.oc o)) }

/-- The Tideline modem of octet o beside its registers. -/
def Dev.t (d : Dev) (o : Nat) : TlSt := Tbl.get TlSt.reset d.tl o

/-- That modem changed by f. -/
def Dev.onT (d : Dev) (o : Nat) (f : TlSt → TlSt) : Dev := { d with tl := Tbl.set TlSt.reset d.tl o (f (d.t o)) }

/-- Loop j of octet o beside its registers. -/
def Dev.lp (d : Dev) (o j : Nat) : LoopSt := Tbl.get LoopSt.reset d.loop (20 * o + j)

/-- That loop changed by f. -/
def Dev.onLp (d : Dev) (o j : Nat) (f : LoopSt → LoopSt) : Dev :=
  { d with loop := Tbl.set LoopSt.reset d.loop (20 * o + j) (f (d.lp o j)) }

/-- Chain i of octet o beside its registers. -/
def Dev.ch (d : Dev) (o i : Nat) : ChainSt := Tbl.get ChainSt.reset d.chain (20 * o + i)

/-- That chain changed by f. -/
def Dev.onCh (d : Dev) (o i : Nat) (f : ChainSt → ChainSt) : Dev :=
  { d with chain := Tbl.set ChainSt.reset d.chain (20 * o + i) (f (d.ch o i)) }

/-- The weir and the analog edge of octet o beside their registers. -/
def Dev.w (d : Dev) (o : Nat) : WeirSt := Tbl.get WeirSt.reset d.weir o

/-- Those changed by f. -/
def Dev.onW (d : Dev) (o : Nat) (f : WeirSt → WeirSt) : Dev := { d with weir := Tbl.set WeirSt.reset d.weir o (f (d.w o)) }

/-- The global lanes of octet o. -/
def lanesOf (o : Nat) : List Nat := (List.range 8).map (8 * o + ·)

/-- DMA queue pair q beside its registers. -/
def Dev.qp (d : Dev) (q : Nat) : QSt := Tbl.get QSt.reset d.q q

/-- That queue pair changed by f. -/
def Dev.onQ (d : Dev) (q : Nat) (f : QSt → QSt) : Dev := { d with q := Tbl.set QSt.reset d.q q (f (d.qp q)) }

/-! Blocks beside their registers. -/

/-- The memory block changed by f. -/
def Dev.onMem (d : Dev) (f : MemSt → MemSt) : Dev := { d with mem := f d.mem }

/-- The counter block changed by f. -/
def Dev.onCnt (d : Dev) (f : CtrSt → CtrSt) : Dev := { d with cnt := f d.cnt }

/-- The pumping station changed by f. -/
def Dev.onPwr (d : Dev) (f : PwrSt → PwrSt) : Dev := { d with pwr := f d.pwr }

/-- Thermal sensing changed by f. -/
def Dev.onThm (d : Dev) (f : ThmSt → ThmSt) : Dev := { d with thm := f d.thm }

/-- Security changed by f. -/
def Dev.onSec (d : Dev) (f : SecSt → SecSt) : Dev := { d with sec := f d.sec }

/-- The PCIe function changed by f. -/
def Dev.onHost (d : Dev) (f : HostSt → HostSt) : Dev := { d with host := f d.host }

/-- Self-test changed by f. -/
def Dev.onBist (d : Dev) (f : BistSt → BistSt) : Dev := { d with bist := f d.bist }

/-! Protected stores (R282, R283, R284). -/

/-- The store of a space. -/
def Dev.store (d : Dev) : Space → Store
  | .dram => d.dram | .flow => d.flowS | .cell => d.cellS | .loc => d.locS | .shared => d.sharedS

/-- The store of a space replaced. -/
def Dev.setStore (d : Dev) (sp : Space) (s : Store) : Dev :=
  match sp with
  | .dram => { d with dram := s }
  | .flow => { d with flowS := s }
  | .cell => { d with cellS := s }
  | .loc => { d with locS := s }
  | .shared => { d with sharedS := s }

/-- The MEM_EVT bits set (R294: the memory source follows). -/
def Dev.memEvt (d : Dev) (m : Nat) : Dev := d.orF R.MEM_EVT.EVT m

/-- R283, spec/10: one error found by a read of word idx of a space is counted and, unless it was poison already, logged. -/
def Dev.countEcc (d : Dev) (sp : Space) (cluster engine idx : Nat) (r : Reading) : Dev :=
  let s := sp.code
  let log (d : Dev) (kind : Nat) : Dev :=
    (d.setReg (A.ECC_LAST_LO s) (idx % 2 ^ 32)).setReg (A.ECC_LAST_HI s)
      (2 ^ 31 + kind * 2 ^ 30 + (if sp = .loc ∨ sp = .shared then cluster * 2 ^ 24 else 0)
        + (if sp = .loc then engine * 2 ^ 21 else 0) + idx / 2 ^ 32 % 4)
  match r with
  | .clean => d
  | .single =>
    let d := (log (d.inc (R.ECC_CE.COUNT s)) 0).bump (7168 + 3 * s)
    let d := if d.get (R.ECC_CE.COUNT s) % 2 ^ d.get R.MEM_IRQ_EN.CE_EXP = 0 then d.memEvt 4 else d
    match sp with
    | .loc => d.inc (R.E_ECC.CE cluster engine)
    | .shared => d.inc (R.CL_SH_ECC.CE cluster)
    | _ => d
  | .uncorrectable =>
    let d := ((log (d.inc (R.ECC_UE.COUNT s)) 1).bump (7168 + 3 * s + 1)).memEvt 1
    match sp with
    | .loc => d.inc (R.E_ECC.UE cluster engine)
    | .shared => (d.inc (R.CL_SH_ECC.UE cluster)).bump (Ctr.cluster cluster 11)
    | _ => d
  | .poisoned => ((d.inc (R.ECC_POISON.COUNT s)).bump (7168 + 3 * s + 2)).memEvt 2

/-- One read of word idx of a space by a consumer: the data, whether it carries the poison mark, and the state with the
error counted (R282, R284). -/
def Dev.readWord (d : Dev) (sp : Space) (cluster engine idx : Nat) : Nat × Bool × Dev :=
  let (v, r) := (d.store sp).read (sp.word cluster engine idx)
  (v, r == .poisoned || r == .uncorrectable, d.countEcc sp cluster engine idx r)

/-- A word of a space written whole and clean. -/
def Dev.putWord (d : Dev) (sp : Space) (cluster engine idx v : Nat) : Dev :=
  d.setStore sp ((d.store sp).putWord (sp.word cluster engine idx) v)

/-- A word of a space written whole, poisoned if bad. -/
def Dev.putWordP (d : Dev) (sp : Space) (cluster engine idx v : Nat) (bad : Bool) : Dev :=
  d.setStore sp (if bad then (d.store sp).poisonWord (sp.word cluster engine idx) v
    else (d.store sp).putWord (sp.word cluster engine idx) v)

/-- n low bytes of v merged at byte offset o into word idx, which has been read; whole words are written clean (R279). -/
def Dev.mergeWord (d : Dev) (sp : Space) (cluster engine idx o n v : Nat) : Dev :=
  if n = 8 then d.putWord sp cluster engine idx v
  else d.setStore sp ((d.store sp).merge (sp.word cluster engine idx) o n v)

/-- n low bytes of v stored at byte offset o within word idx: a part of a word is merged after a read that counts like any other (R279, R282,
R284). -/
def Dev.putPart (d : Dev) (sp : Space) (cluster engine idx o n v : Nat) : Dev :=
  (if n = 8 then d else (d.readWord sp cluster engine idx).2.2).mergeWord sp cluster engine idx o n v

/-- n bytes of cluster c's shared store from byte offset off, wrapped within the store, as words are read by a hub
agent: the bytes, whether any word was poisoned, the state with the errors counted (R193, R284). -/
def Dev.hubRead (d : Dev) (c off : Nat) : Nat → List Byte × Bool × Dev
  | 0 => ([], false, d)
  | n + 1 =>
    let (l, p, d) := Dev.hubRead d c off n
    let (v, q, d) := d.readWord .shared c 0 ((off / 8 + n) % 524288)
    (l ++ bytesLE v 8, p || q, d)

/-- Words of cluster c's shared store written from byte offset off (8-byte aligned) by a hub agent, wrapped. -/
def Dev.hubWrite (d : Dev) (c off : Nat) : List (Nat × Bool) → Dev
  | [] => d
  | (v, p) :: t => Dev.hubWrite (d.putWordP .shared c 0 (off / 8 % 524288) v p) c (off + 8) t

/-! Errors and the gate of a BAR0 access (R9, R317, R394). -/

/-- The SOURCE, CLUSTER and ENGINE an error log entry shows for a requester (R394). -/
def srcLog : Src → Nat × Nat × Nat
  | .host => (0, 0, 0)
  | .reg e => (2, e.val / 8, e.val % 8)
  | .dbg => (3, 0, 0)

/-- Polder p beside its registers. -/
def Dev.p (d : Dev) (p : Nat) : PolSt := Tbl.get PolSt.reset d.pol p

/-- Polder p changed by f. -/
def Dev.onP (d : Dev) (p : Nat) (f : PolSt → PolSt) : Dev := { d with pol := Tbl.set PolSt.reset d.pol p (f (d.p p)) }

/-- R394: an access of code c at offset a is logged: 16 entries are kept, a further one is counted in OVF, and
HOST_EVT.ERR sets. -/
def Dev.logErr (d : Dev) (source cluster engine code a : Nat) : Dev :=
  let d := d.orF R.HOST_EVT.EVT 1
  if 16 ≤ d.errLog.length then d.inc R.ERR_LOG_STATUS.OVF
  else { d with errLog := d.errLog ++
    [(2 ^ 31 + source * 2 ^ 28 + code * 2 ^ 24 + cluster * 2 ^ 20 + engine * 2 ^ 17, a % 2 ^ 32)] }

/-- R394: an access of a requester is logged. -/
def Dev.logAccess (d : Dev) (src : Src) (code a : Nat) : Dev :=
  let (s, c, e) := srcLog src
  d.logErr s c e code a

/-- R15, R313, R317: the polder that holds the registers at BAR0 offset a; 48 is always on. The ENG registers of a cluster
lie in its polder, MEM and the DRAM PHY in the DRAM polder, FLOW in the fabric quadrants, of which 32 stands for all four
(log 6). -/
def polderAt (a : Nat) : Nat :=
  if 0x1000000 ≤ a ∧ a < 0x1400000 then (a - 0x1000000) / 0x20000
  else if 0x200000 ≤ a ∧ a < 0x400000 then clPolder ((a - 0x200000) / 0x10000)
  else if 0x100000 ≤ a ∧ a < 0x200000 then 32
  else if 0x80000 ≤ a ∧ a < 0x100000 then 47
  else if 0x800000 ≤ a ∧ a < 0xA00000 then 47
  else 48

/-- The polders a block's polder number stands for: 32 stands for the four fabric quadrants (R16; log 6). -/
def polderGroup (p : Nat) : List Nat := if p = 32 then [32, 33, 34, 35] else [p]

/-- R317, R370, R394: why a polder takes no access: 4 RESET, 3 TEST_BUSY, 2 CLOSED. -/
def Dev.barredPolder (d : Dev) (p : Nat) : Option Nat :=
  let l := polderGroup p
  if l.any fun q => (d.p q).inReset then some 4
  else if l.any fun q => (d.p q).test then some 3
  else if l.any fun q => (d.p q).closed then some 2
  else none

/-- R370: the global lane whose own registers lie at offset a: its lane block, or its entries in the port and FEC block. -/
def laneAt (a : Nat) : Option Nat :=
  if 0x1000000 ≤ a ∧ a < 0x1400000 then
    let o := (a - 0x1000000) / 0x20000
    let x := (a - 0x1000000) % 0x20000
    if x < 0x10000 then some (8 * o + x / 0x2000)
    else if 0x10500 ≤ x ∧ x < 0x10700 then some (8 * o + (x - 0x10500) / 32 % 8)
    else none
  else none

/-- R370: lane g alone is under test. -/
def Dev.laneTest (d : Dev) (g : Nat) : Bool :=
  match Tbl.get none d.bist.run (g / 8) with
  | some r => r.lane == some (g % 8)
  | none => false

/-- R317, R370, R394: why an access to the register at offset a does not take place; the BIST block is always accessible. -/
def Dev.barred (d : Dev) (a : Nat) : Option Nat :=
  if 0x60000 ≤ a ∧ a < 0x80000 then none
  else match d.barredPolder (polderAt a) with
  | some c => some c
  | none => if (laneAt a).any d.laneTest then some 3 else none

/-- A write by src to the register at offset a: f where the target takes it, otherwise ignored and logged (R394). -/
def Dev.gate (d : Dev) (src : Src) (a : Nat) (f : Dev → Dev) : Dev :=
  match d.barred a with
  | none => f d
  | some code => d.logAccess src code a

/-- The place of a requester in the table of read results. -/
def srcKey : Src → Nat
  | .host => 0
  | .dbg => 1
  | .reg e => 2 + e.val

/-- R9: an access by src completes with Unsupported Request. -/
def Dev.unsupported (d : Dev) (src : Src) : Dev := { d with ur := Tbl.set 0 d.ur (srcKey src) (Tbl.get 0 d.ur (srcKey src) + 1) }

/-- A read by src returns v. -/
def Dev.respond (d : Dev) (src : Src) (v : Nat) : Dev :=
  { d with reads := Tbl.set 0 d.reads (srcKey src) (BitVec.ofNat 32 v) }

/-- A read by src of the register at offset a: f gives the value and the side effects where the target takes it; otherwise it
returns 0 and is logged (R394). -/
def Dev.gateRead (d : Dev) (src : Src) (a : Nat) (f : Dev → Nat × Dev) : Dev :=
  match d.barred a with
  | none => let (v, d) := f d; d.respond src v
  | some code => (d.logAccess src code a).respond src 0

/-! The ports of an octet. -/

/-- R6, R32: the lanes of each port of octet o under the committed split. -/
def Dev.portWidth (d : Dev) (o : Nat) : Nat := 8 / 2 ^ d.get (R.MODE_ACTIVE.SPLIT o)

/-- The slot of the port that lane l of octet o belongs to. -/
def Dev.slotOf (d : Dev) (o l : Nat) : Nat := l / d.portWidth o * d.portWidth o

/-- The global lanes of the port of slot p. -/
def Dev.portLanes (d : Dev) (o p : Nat) : List Nat := (List.range (d.portWidth o)).map (8 * o + p + ·)

/-- R107, R178: the largest RATE of port p in kbit/s: the payload capacity of its lanes. -/
def Dev.portRateMax (d : Dev) (p : Nat) : Nat := d.portWidth (p / 8) * 400000000 * 65535 / 65536

/-- The slots that hold a port under the committed split. -/
def Dev.slots (d : Dev) (o : Nat) : List Nat := (List.range 8).filter fun p => p % d.portWidth o == 0

end Sys2Proof.Machine
end

