-- ==== Sys2Proof/Machine/DramOps.lean ====
section
/-! DEFINITION. Accesses of byte runs to the protected stores, and the DRAM regions (spec/10, R275 to R279). -/

namespace Sys2Proof.Machine

/-- R287: a parity error in a word of structure n (PARITY_CNT). -/
def Dev.parityError (d : Dev) (n : Nat) : Dev := ((d.inc (R.PARITY_CNT.COUNT n)).memEvt 16).bump (7183 + n)

/-- Bytes written to a space from byte address a upward: whole words clean, parts merged (R279, R284). The first argument bounds
the number of words. -/
def Dev.putBytesN (d : Dev) (sp : Space) (cluster engine a : Nat) : Nat → List Byte → Dev
  | 0, _ => d
  | _, [] => d
  | n + 1, l =>
    let k := min (8 - a % 8) l.length
    Dev.putBytesN (d.putPart sp cluster engine (a / 8) (a % 8) k (leNat (l.take k))) sp cluster engine (a + k) n (l.drop k)

/-- Bytes written to a space from byte address a upward. -/
def Dev.putBytes (d : Dev) (sp : Space) (cluster engine a : Nat) (l : List Byte) : Dev :=
  d.putBytesN sp cluster engine a l.length l

/-- Words w, w + 1, … of a space read by a consumer: the bytes, whether a word was poisoned, the state. -/
def Dev.getWords (d : Dev) (sp : Space) (cluster engine w : Nat) : Nat → List Byte × Bool × Dev
  | 0 => ([], false, d)
  | n + 1 =>
    let (l, p, d) := Dev.getWords d sp cluster engine w n
    let (v, q, d) := d.readWord sp cluster engine (w + n)
    (l ++ bytesLE v 8, p || q, d)

/-- len bytes of a space from byte address a upward, read by a consumer. -/
def Dev.getBytes (d : Dev) (sp : Space) (cluster engine a len : Nat) : List Byte × Bool × Dev :=
  if len = 0 then ([], false, d)
  else
    let (l, p, d) := d.getWords sp cluster engine (a / 8) ((a % 8 + len + 7) / 8)
    ((l.drop (a % 8)).take len, p, d)

/-- Bytes of a space from byte address a upward, each with whether its word is poisoned or fails its parity check in a sluice; slu lists the
words that do (R287). -/
def Dev.getMarked (d : Dev) (slu : List Nat) (sp : Space) (cluster engine a len : Nat) : List (Byte × Bool) × Dev :=
  let n := if len = 0 then 0 else (a % 8 + len + 7) / 8
  let (l, d) := (List.range n).foldl (fun (l, d) i =>
    let (v, bad, d) := d.readWord sp cluster engine (a / 8 + i)
    let d := if slu.contains i then d.parityError 2 else d
    let bad := bad || slu.contains i
    (l ++ (bytesLE v 8).map (·, bad), d)) ([], d)
  ((l.drop (a % 8)).take len, d)

/-- Marked bytes written from byte address a upward: a word that takes a marked byte is poisoned (R220, R284). The first argument bounds
the number of words. -/
def Dev.putMarkedN (d : Dev) (sp : Space) (cluster engine a : Nat) : Nat → List (Byte × Bool) → Dev
  | 0, _ => d
  | _, [] => d
  | n + 1, l =>
    let k := min (8 - a % 8) l.length
    let w := l.take k
    let d := d.putPart sp cluster engine (a / 8) (a % 8) k (leNat (w.map (·.1)))
    let d := if w.any (·.2) then d.putWordP sp cluster engine (a / 8) ((d.store sp).raw (sp.word cluster engine (a / 8))) true else d
    Dev.putMarkedN d sp cluster engine (a + k) n (l.drop k)

/-- The users of R276. -/
def useSpill : Nat := 0
def useCapture : Nat := 1
def useDump : Nat := 2
def useDma : Nat := 3
def useBar2 : Nat := 4

/-- R274: the usable bytes of DRAM. -/
def Dev.usable (d : Dev) : Nat := d.get R.MEM_STATUS.USABLE * 2 ^ 30

/-- R276: one region covers the whole extent and admits the user; LIMIT is clamped to the usable size. -/
def Dev.admits (d : Dev) (user a len : Nat) : Bool :=
  (List.range 16).any fun k =>
    bit (d.get (R.REGION_USE.USE k)) user && decide (d.get (R.REGION_BASE.MIB k) * 2 ^ 20 ≤ a)
      && decide (a + len ≤ min (d.get (R.REGION_LIMIT.MIB k) * 2 ^ 20) d.usable)

/-- R276: a refused access. -/
def Dev.regionViol (d : Dev) : Dev := ((d.inc R.REGION_VIOL.COUNT).memEvt 64).bump 7189

/-- R316: a request makes a demand on the DRAM polder in IDLE: its return to ACTIVE starts and PWR_EVT.DEMAND sets. -/
def Dev.demand (d : Dev) : Dev :=
  if d.polder 47 = 1 then
    let d := (d.setPolder 47 4).orF R.PWR_EVT.EVT 16
    d.onPwr fun x => { x with demand := true }
  else d

/-- The DRAM polder is ACTIVE. -/
def Dev.dramActive (d : Dev) : Bool := d.polder 47 == 0

end Sys2Proof.Machine
end

