-- ==== Sys2Proof/Machine/Intc.lean ====
section
/-! DEFINITION. The dispatch controller (spec/11, R293 to R304): pending and claimable sources, the request lines, claim,
end of interrupt and flush. -/

namespace Sys2Proof.Machine

/-- The level of source n as the controller sees it. -/
def Dev.level (d : Dev) (n : Nat) : Bool := bit (d.get (R.LEVEL.LEVEL (n / 32))) (n % 32)

/-- The software pending bit of source n. -/
def Dev.swPend (d : Dev) (n : Nat) : Bool := bit (d.get (R.SWPEND.SW (n / 32))) (n % 32)

/-- R297: source n is pending. -/
def Dev.pending (d : Dev) (n : Nat) : Bool := d.level n || d.swPend n

/-- R297: word w of PEND. -/
def Dev.pendWord (d : Dev) (w : Nat) : Nat := d.get (R.LEVEL.LEVEL w) ||| d.get (R.SWPEND.SW w)

/-- The priority of source n. -/
def Dev.prio (d : Dev) (n : Nat) : Nat := getBits (d.reg (A.PRIO (n / 8))) (4 * (n % 8) + 3) (4 * (n % 8))

/-- The entries on target t's stack. -/
def Dev.depth (d : Dev) (t : Nat) : Nat := d.get (R.TGT_STATUS.DEPTH t)

/-- R298: the running priority of target t: the priority at the top of its stack, 0 when it is empty. -/
def Dev.runPrio (d : Dev) (t : Nat) : Nat := if d.depth t = 0 then 0 else d.get (R.STACK.PRIO t (d.depth t - 1))

/-- R298: source n is claimable by target t. -/
def Dev.claimable (d : Dev) (t n : Nat) : Bool :=
  d.pending n && bit (d.get (R.TGT_EN.EN t (n / 32))) (n % 32) && !bit (d.get (R.CLAIMED.CLAIMED (n / 32))) (n % 32)
    && decide (d.get (R.THRESH.THR t) < d.prio n) && decide (d.runPrio t < d.prio n)

/-- The sources claimable by t, in ascending number; words with nothing pending are passed over. -/
def Dev.claimables (d : Dev) (t : Nat) : List Nat :=
  (List.range 16).flatMap fun w =>
    if d.pendWord w = 0 then [] else ((List.range 32).map (32 * w + ·)).filter fun n => d.claimable t n

/-- R300: of the claimable sources the one with the highest priority, the lowest number among equals; 0 for none. -/
def Dev.best (d : Dev) (t : Nat) : Nat :=
  (d.claimables t).foldl (fun b n => if b = 0 ∨ d.prio b < d.prio n then n else b) 0

/-- R298: the request line of target t. -/
def Dev.line (d : Dev) (t : Nat) : Bool := d.best t != 0

/-- The request line of t follows the claimable set, and LINE_SEEN sets while it is asserted (R298, R300). -/
def Dev.refreshLine (d : Dev) (t : Nat) : Dev :=
  let l := d.line t
  let d := d.flag (R.TGT_STATUS.LINE t) l
  if l then d.set (R.TGT_STATUS.LINE_SEEN t) 1 else d

/-- R384: INTA may be sent: D0, link up, Interrupt Disable clear. -/
def Dev.intaOpen (d : Dev) : Bool := d.get R.HOST_STATUS.PSTATE == 0 && d.on R.HOST_STATUS.LINK_UP && !d.host.intDis

/-- R384: the message that matches the line is sent on a change. -/
def Dev.syncInta (d : Dev) : Dev :=
  if d.intaOpen then d.onHost fun h => { h with inta := d.on (R.TGT_STATUS.LINE 8) } else d

/-- Every request line follows a change of the claimable set, and INTA the host line. -/
def Dev.refreshLines (d : Dev) : Dev := ((List.range 9).foldl Dev.refreshLine d).syncInta

/-- A source's claimed bit set or cleared. -/
def Dev.setClaimed (d : Dev) (n : Nat) (b : Bool) : Dev :=
  d.setReg (A.CLAIMED (n / 32)) (putBit (d.reg (A.CLAIMED (n / 32))) (n % 32) b)

/-- R300: the evaluation of a claim by target t: what it returns, and its effect. -/
def Dev.claim (d : Dev) (t : Nat) : Nat × Dev :=
  let n := d.best t
  if n ≠ 0 then
    let k := d.depth t
    let d' := d.setClaimed n true
    let d' := d'.setReg (A.STACK t k) (2 ^ 31 + n * 16 + d.prio n)
    let d' := d'.set (R.TGT_STATUS.DEPTH t) (k + 1)
    let d' := d'.setReg (A.SWPEND (n / 32)) (putBit (d'.reg (A.SWPEND (n / 32))) (n % 32) false)
    (n, (d'.set (R.TGT_STATUS.LINE_SEEN t) 0).refreshLines)
  else if d.on (R.TGT_STATUS.LINE_SEEN t) then
    (511, (d.set (R.TGT_STATUS.LINE_SEEN t) 0).inc (R.SPUR_CNT.COUNT t))
  else (0, d)

/-- What a claim by t would return, with no effect (R359). -/
def Dev.peekClaim (d : Dev) (t : Nat) : Nat :=
  if d.best t ≠ 0 then d.best t else if d.on (R.TGT_STATUS.LINE_SEEN t) then 511 else 0

/-- R301: an end of interrupt by target t: the top entry is popped and its source released; on an empty stack only
EOI_EMPTY sets. -/
def Dev.eoi (d : Dev) (t : Nat) : Dev :=
  let k := d.depth t
  if k = 0 then d.set (R.TGT_STATUS.EOI_EMPTY t) 1
  else
    let n := d.get (R.STACK.SOURCE t (k - 1))
    (((d.setClaimed n false).setReg (A.STACK t (k - 1)) 0).set (R.TGT_STATUS.DEPTH t) (k - 1)).refreshLines

/-- R303: target t's stack emptied and all of its sources released. -/
def Dev.flushTarget (d : Dev) (t : Nat) : Dev :=
  let d := (List.range (d.depth t)).foldl
    (fun d i => (d.setClaimed (d.get (R.STACK.SOURCE t i)) false).setReg (A.STACK t i) 0) d
  (d.set (R.TGT_STATUS.DEPTH t) 0).refreshLines

/-- The level of source n set as the controller sees it; the request lines follow (R293, R298). -/
def Dev.setLevel (d : Dev) (n : Nat) (b : Bool) : Dev :=
  (d.setReg (A.LEVEL (n / 32)) (putBit (d.reg (A.LEVEL (n / 32))) (n % 32) b)).refreshLines

/-! PME (R390). -/

/-- R390: PME_Status sets; PM_PME is sent with it where PME_En = 1. While it stays set the message is only resent every 100 ms. -/
def Dev.raisePme (d : Dev) : Dev :=
  if d.on R.HOST_STATUS.PME_STATUS then d
  else
    let d := d.set R.HOST_STATUS.PME_STATUS 1
    if d.host.pmeEn then d.onHost fun h => { h with pmeSent := h.pmeSent + 1 } else d

/-- R390: a reason to wake the host has arisen: it counts in D3hot. -/
def Dev.noteWork (d : Dev) : Dev := if d.get R.HOST_STATUS.PSTATE = 3 then d.raisePme else d

end Sys2Proof.Machine
end

