-- ==== Sys2Proof/Machine/Operands.lean ====
section
/-! DEFINITION. The operand forms of the engine instructions and the results they compute, as functions of 64-bit values
(spec/07, R200 to R206). -/

namespace Sys2Proof.Machine

/-- sext of a 16-bit immediate. -/
def sext16 (i : BitVec 16) : DWord := i.signExtend 64

/-- zext of a 16-bit immediate. -/
def zext16 (i : BitVec 16) : DWord := i.setWidth 64

/-- 1 or 0. -/
def boolD (b : Bool) : DWord := if b then 1 else 0

/-- Leading zero bits among bits n - 1 to 0. -/
def leadZeros (v : DWord) : Nat → Nat
  | 0 => 0
  | n + 1 => if v.getLsbD n then 0 else leadZeros v n + 1

/-- Trailing zero bits, counting k bits upward from bit i. -/
def trailZeros (v : DWord) (i : Nat) : Nat → Nat
  | 0 => 0
  | k + 1 => if v.getLsbD i then 0 else trailZeros v (i + 1) k + 1

/-- The low 6 bits of a register, a shift count. -/
def shCount (v : DWord) : Nat := v.toNat % 64

/-- R201: the length of a field of LEN bits at POS, cut at bit 63. -/
def fieldLen (pos len : Nat) : Nat := min len (64 - pos)

/-- R201 ext: LEN bits from POS, zero-extended. -/
def extField (v : DWord) (pos len : Nat) : DWord := BitVec.ofNat 64 (v.toNat / 2 ^ pos % 2 ^ fieldLen pos len)

/-- R201 exts: LEN bits from POS, sign-extended from the last bit taken. -/
def extsField (v : DWord) (pos len : Nat) : DWord :=
  BitVec.ofInt 64 (toS (fieldLen pos len) (v.toNat / 2 ^ pos % 2 ^ fieldLen pos len))

/-- R201 ins: bits POS upward of g replaced by the low LEN bits of v. -/
def insField (g v : DWord) (pos len : Nat) : DWord :=
  BitVec.ofNat 64 (putBits g.toNat (pos + fieldLen pos len - 1) pos v.toNat)

/-- A 16-bit part of a register replaced (insh1 to insh3: k = 1 to 3). -/
def insHalf (k : Nat) (v : DWord) (i : BitVec 16) : DWord :=
  BitVec.ofNat 64 (putBits v.toNat (16 * k + 15) (16 * k) i.toNat)

/-- The high 64 bits of an exact product. -/
def highPart (p : Int) : DWord := BitVec.ofInt 64 (p.fdiv (2 ^ 64))

/-- Byte lane i, unsigned. -/
def laneU (v : DWord) (i : Nat) : Nat := v.toNat / 2 ^ (8 * i) % 256

/-- Byte lane i, signed. -/
def laneS (v : DWord) (i : Nat) : Int := toS 8 (laneU v i)

/-- R203: the lanes of d whose mask bit is 1 replaced by f of the lane number, modulo 256. -/
def mapLanes (d : DWord) (mask : BitVec 8) (f : Nat → Int) : DWord :=
  BitVec.ofNat 64 ((List.range 8).foldl
    (fun v i => if mask.getLsbD i then putBits v (8 * i + 7) (8 * i) (ofS 8 (f i)) else v) d.toNat)

/-- R203 sadb: the sum of the absolute differences of the unmasked lanes. -/
def sumAbs (a b : DWord) (mask : BitVec 8) : Nat :=
  (List.range 8).foldl
    (fun s i => if mask.getLsbD i then s + ((laneU a i : Int) - laneU b i).natAbs else s) 0

/-- R204: P_j, the masked sum of two lane products under the readings given for a and b. -/
def pairProduct (ra rb : DWord → Nat → Int) (a b : DWord) (mask : BitVec 8) (j : Nat) : Int :=
  (if mask.getLsbD (2 * j) then ra a (2 * j) * rb b (2 * j) else 0)
    + (if mask.getLsbD (2 * j + 1) then ra a (2 * j + 1) * rb b (2 * j + 1) else 0)

/-- Byte lane i read unsigned, as an integer. -/
def laneUI (v : DWord) (i : Nat) : Int := laneU v i

/-- R204: the 16-bit lanes of d with a mask bit set replaced by f of the lane number and the lane's value read signed. -/
def mapPairs (d : DWord) (mask : BitVec 8) (f : Nat → Int → Int) : DWord :=
  BitVec.ofNat 64 ((List.range 4).foldl
    (fun v j => if mask.getLsbD (2 * j) || mask.getLsbD (2 * j + 1) then
        putBits v (16 * j + 15) (16 * j) (ofS 16 (f j (toS 16 (d.toNat / 2 ^ (16 * j) % 65536)))) else v) d.toNat)

/-- A loaded value of n bytes extended to 64 bits. -/
def extendLoad (signed : Bool) (n v : Nat) : DWord :=
  if signed then BitVec.ofInt 64 (toS (8 * n) v) else BitVec.ofNat 64 v

end Sys2Proof.Machine
end

