-- ==== Sys2Proof/Machine/Engine.lean ====
section
/-! DEFINITION. What every engine instruction rests on (spec/07): registers, time, exception entry, the issue of an
instruction, the address map, and accesses to the stores. -/

namespace Sys2Proof.Machine

/-! Registers. -/

/-- General register n; g0 reads as zero (R195). -/
def EngSt.r (x : EngSt) (n : Nat) : DWord := if n = 0 then 0 else Tbl.get 0 x.g n

/-- General register n written; g0 ignores writes (R195). -/
def EngSt.w (x : EngSt) (n : Nat) (v : DWord) : EngSt := if n = 0 then x else { x with g := Tbl.set 0 x.g n v }

/-- STATUS: bit 2 EXL, bit 1 IE, bit 0 MODE (R196). -/
def EngSt.status (x : EngSt) : BitVec 3 := BitVec.ofNat 3 (4 * b2n x.exl + 2 * b2n x.ie + b2n x.task)

/-- The STATUS bits engine e has: IE on wardens only, MODE task on flow engines only (R187, R196). -/
def statusMask (e : Nat) (v : BitVec 3) : BitVec 3 :=
  match roleOf e with
  | .flow => v &&& 5
  | .keeper => v &&& 4
  | .warden => v &&& 6

/-- STATUS written whole. -/
def EngSt.setStatus (x : EngSt) (v : BitVec 3) : EngSt :=
  { x with exl := v.getLsbD 2, ie := v.getLsbD 1, task := v.getLsbD 0 }

/-- R195: pc set from outside the engine, to a multiple of 4: bits 1:0 are dropped (log 116). -/
def EngSt.setPc (x : EngSt) (v : Nat) : EngSt := { x with pc := BitVec.ofNat 32 (v / 4 * 4) }

/-- The instruction that issued in E-cycle i ends after n E-cycles and the next one follows it. -/
def EngSt.next (x : EngSt) (i n : Nat) : EngSt := { x with pc := x.pc + 4, ready := i + n }

/-- The same with the next instruction at t. -/
def EngSt.jump (x : EngSt) (i n : Nat) (t : Word) : EngSt := { x with pc := t, ready := i + n }

/-! Stops and exceptions (R188, R210 to R212). -/

/-- Engine e enters HALTED or FAULT: its wait ends, its cluster needs a new DRAIN (R223), and a warden's stack is
flushed (R303). -/
def Dev.stopEngine (d : Dev) (e : Nat) (st : EState) : Dev :=
  let d := d.onE e fun x => { x with st := st, wait := none }
  let d := d.onC (e / 8) fun c => { c with drained := false }
  if 88 ≤ e then d.flushTarget (e - 88) else d

/-- R212: engine e takes an exception whose entry starts in E-cycle start: the saved registers are written, STATUS goes to
system mode with EXL set, and pc to the vector. An exception other than INTERRUPT while EXL = 1 sends it to FAULT. -/
def Dev.except (d : Dev) (e vec det : Nat) (epc ev : DWord) (start : Nat) : Dev :=
  let d := d.bump (Ctr.cluster (e / 8) 8)
  let d := d.onE e fun x => { x with lastVec := vec, lastDet := det, lastEval := ev }
  if (d.e e).exl && vec != 7 then d.stopEngine e .fault
  else d.onE e fun x =>
    { x with st := .running, wait := none, estatus := x.status, epc := epc, vec := vec, det := det, eval := ev,
             exl := true, ie := false, task := false,
             pc := x.vbase + BitVec.ofNat 32 (64 * vec), ready := start + 6 }

/-- The exception vectors (R210). -/
def vIllegal : Nat := 1
def vPrivilege : Nat := 2
def vPoison : Nat := 3
def vChannel : Nat := 4
def vWatchdog : Nat := 5
def vAddress : Nat := 6
def vInterrupt : Nat := 7
def vTrap : Nat := 8

/-- The E-cycle in which engine e's next instruction issues, or its wait is judged. -/
def Dev.issueAt (d : Dev) (e : Nat) : Nat := max (d.e e).ready (d.c (e / 8)).cycle

/-- The pc of engine e as a 64-bit value. -/
def Dev.pc64 (d : Dev) (e : Nat) : DWord := (d.e e).pc.setWidth 64

/-- Engine e takes an exception caused by the instruction at its pc, which issued in cycle i. -/
def Dev.faulting (d : Dev) (e vec det : Nat) (ev : DWord) (i : Nat) : Dev := d.except e vec det (d.pc64 e) ev i

/-- The engine's polder lets it run: not in RETAIN, not in reset (R189). -/
def Dev.clAwake (d : Dev) (e : Nat) : Bool :=
  d.polder (clPolder (e / 8)) != 2 && !(d.p (clPolder (e / 8))).inReset

/-- The cluster of engine e reaches E-cycle t, if it had not (log 1). -/
def Dev.reach (d : Dev) (e t : Nat) : Dev := d.onC (e / 8) fun c => { c with cycle := max c.cycle t }

/-- R188, R212: the watchdog period of engine e ends. The first expiry takes WATCHDOG, an expiry with no kick since the
previous one sends the engine to FAULT; each restarts the period. -/
def Dev.watchdog (d : Dev) (e : Nat) : Dev :=
  let t := (d.e e).wdogStart + 2 ^ (d.e e).wdogExp
  let missed := (d.e e).wdogMissed
  let d := ((d.bump (Ctr.cluster (e / 8) 9)).reach e t).onE e fun x => { x with wdogStart := t, wdogMissed := true }
  if missed then (d.onE e fun x => { x with lastVec := vWatchdog, lastDet := 0, lastEval := 0 }).stopEngine e .fault
  else d.except e vWatchdog 0 (d.pc64 e) 0 (max (d.issueAt e) t)

/-- R211: the exception due between instructions as engine e's next one would issue, WATCHDOG before INTERRUPT. -/
def Dev.entryDue (d : Dev) (e : Nat) : Option Nat :=
  let x := d.e e
  if x.wdogEn && decide (x.wdogStart + 2 ^ x.wdogExp ≤ d.issueAt e) then some vWatchdog
  else if decide (88 ≤ e) && x.ie && !x.exl && d.line (e - 88) then some vInterrupt
  else none

/-- R211 to R213: an exception due between instructions is taken. A WAITING engine's pc is its ewait or crecv. -/
def Dev.takeDue (d : Dev) (e vec : Nat) : Dev :=
  if vec = vWatchdog then d.watchdog e else d.except e vInterrupt 0 (d.pc64 e) 0 (d.issueAt e)

/-- Engine e issues the instruction at its pc in cycle i and f is its effect. Nothing happens unless the engine is
RUNNING. An exception due between instructions is taken in its place (R211). A fetch beyond the instruction store raises ADDRESS (R195), a
poisoned one POISON (R194), before any decoding. -/
def Dev.issue (d : Dev) (e : Nat) (f : Nat → Dev → Dev) : Dev :=
  if (d.e e).st = .running ∧ d.clAwake e then
    match d.entryDue e with
    | some vec => d.takeDue e vec
    | none =>
    let i := d.issueAt e
    let pc := (d.e e).pc
    let d := d.onE e fun x => { x with lastPc := pc }
    if 0xFFFC < pc.toNat then d.faulting e vAddress 1 (d.pc64 e) i
    else
      let (_, bad, d) := d.readWord .loc (e / 8) (e % 8) (pc.toNat / 8)
      if bad then d.faulting e vPoison 1 (d.pc64 e) i else f i d
  else d

/-- An instruction that writes one register and takes n E-cycles. -/
def Dev.compute (d : Dev) (e gd n : Nat) (v : EngSt → DWord) : Dev :=
  d.issue e fun i d => d.onE e fun x => (x.w gd (v x)).next i n

/-! The address map and the stores (R190 to R194). -/

/-- The store an engine address lies in. -/
inductive Region where
  | text | data | shared | outside
  deriving DecidableEq, Repr

/-- R190: the region of an address. -/
def regionOf (a : DWord) : Region :=
  if a.toNat < 0x10000 then .text
  else if a.toNat < 0x40000 then .data
  else if 0x10000000 ≤ a.toNat ∧ a.toNat < 0x10400000 then .shared
  else .outside

/-- R190, R191, R196, R206, R210, R211: the exception an access of n bytes at a meets before it reaches a store: vector,
DETAIL and EVAL. -/
def accessFault (x : EngSt) (a : DWord) (n : Nat) (atomic : Bool) : Option (Nat × Nat × DWord) :=
  let v := a.toNat
  let priv : Option (Nat × Nat × DWord) :=
    if x.task then
      match regionOf a with
      | .text => some (vPrivilege, 1, 0)
      | .data => if x.winLBase * 4096 ≤ v ∧ v < x.winLLimit * 4096 then none else some (vPrivilege, 2, a)
      | .shared =>
        let o := v - 0x10000000
        if x.winSBase * 4096 ≤ o ∧ o < x.winSLimit * 4096 then none else some (vPrivilege, 3, a)
      | .outside => none
    else none
  match priv with
  | some p => some p
  | none =>
    if regionOf a = .outside then some (vAddress, 1, a)
    else if v % n ≠ 0 then some (vAddress, 2, a)
    else if atomic ∧ regionOf a ≠ .shared then some (vAddress, 3, a)
    else none

/-- The space and word index of a mapped engine address. -/
def wordAt (a : DWord) : Space × Nat :=
  if regionOf a = .shared then (.shared, (a.toNat - 0x10000000) / 8) else (.loc, a.toNat / 8)

/-- R192: the E-cycle in which engine e's slot comes for an access issued in cycle i. -/
def slotAt (e i : Nat) : Nat := i + (e % 8 + 8 - i % 8) % 8

/-- The count of an access: n for a local store, the slot wait plus 14 for the shared store (R192). -/
def accessTime (e i : Nat) (a : DWord) (n : Nat) : Nat :=
  if regionOf a = .shared then slotAt e i + 14 - i else n

/-- A load of n bytes at a by engine e (R191, R194, R205): into gd extended; a poisoned word raises POISON after the
access's full count (R212). -/
def Dev.load (d : Dev) (e gd : Nat) (signed : Bool) (n : Nat) (addr : EngSt → DWord) : Dev :=
  d.issue e fun i d =>
    let a := addr (d.e e)
    match accessFault (d.e e) a n false with
    | some (vec, det, ev) => d.faulting e vec det ev i
    | none =>
      let (sp, w) := wordAt a
      let (v, bad, d) := d.readWord sp (e / 8) (e % 8) w
      let t := accessTime e i a 2
      if bad then d.faulting e vPoison 2 a (i + t)
      else d.onE e fun x => (x.w gd (extendLoad signed n (v / 2 ^ (8 * (a.toNat % 8)) % 2 ^ (8 * n)))).next i t

/-- A store of the low n bytes of gd at a by engine e (R191, R194, R205): a partial store into a poisoned word raises
POISON and leaves the word; a store of 8 bytes replaces it. -/
def Dev.storeOp (d : Dev) (e gd n : Nat) (addr : EngSt → DWord) : Dev :=
  d.issue e fun i d =>
    let a := addr (d.e e)
    match accessFault (d.e e) a n false with
    | some (vec, det, ev) => d.faulting e vec det ev i
    | none =>
      let (sp, w) := wordAt a
      let t := accessTime e i a 1
      let v := ((d.e e).r gd).toNat
      if n = 8 then (d.putWord sp (e / 8) (e % 8) w v).onE e fun x => x.next i t
      else
        let (_, bad, d) := d.readWord sp (e / 8) (e % 8) w
        if bad then d.faulting e vPoison 3 a (i + t)
        else (d.mergeWord sp (e / 8) (e % 8) w (a.toNat % 8) n v).onE e fun x => x.next i t

/-- An atomic on the shared store (R206): gd takes the old value, zero-extended, and memory what f of the old value and
gb gives, if anything. -/
def Dev.atomic (d : Dev) (e gd ga gb : Nat) (w32 : Bool) (f : (old gb gd : Nat) → Option Nat) : Dev :=
  d.issue e fun i d =>
    let a := (d.e e).r ga
    let n := if w32 then 4 else 8
    match accessFault (d.e e) a n true with
    | some (vec, det, ev) => d.faulting e vec det ev i
    | none =>
      let (sp, w) := wordAt a
      let t := accessTime e i a 1
      let (v, bad, d) := d.readWord sp (e / 8) (e % 8) w
      if bad then d.faulting e vPoison 4 a (i + t)
      else
        let old := v / 2 ^ (8 * (a.toNat % 8)) % 2 ^ (8 * n)
        let gv := ((d.e e).r gb).toNat % 2 ^ (8 * n)
        let dv := ((d.e e).r gd).toNat % 2 ^ (8 * n)
        let d := match f old gv dv with
          | some new => d.mergeWord sp (e / 8) (e % 8) w (a.toNat % 8) n (new % 2 ^ (8 * n))
          | none => d
        d.onE e fun x => (x.w gd (BitVec.ofNat 64 old)).next i t

/-- R195: a jump target that raises no exception. -/
def goodTarget (t : DWord) : Bool := t.toNat % 4 == 0 && decide (t.toNat ≤ 0xFFFC)

/-- A jump to t from the instruction that issued in cycle i, taking n E-cycles; a bad target raises ADDRESS at the jump,
with EVAL the target (R195, R210). f is applied to the engine before the jump when it is taken. -/
def Dev.jumpTo (d : Dev) (e i n : Nat) (t : DWord) (f : EngSt → EngSt) : Dev :=
  if goodTarget t then d.onE e fun x => (f x).jump i n (t.setWidth 32) else d.faulting e vAddress 4 t i

end Sys2Proof.Machine
end

