-- ==== Sys2Proof/Machine/Channel.lean ====
section
/-! DEFINITION. The hardware channels of the engines (spec/07, R214 to R222): which channel an engine may use, sending,
receiving, and the requests and replies every block serves. -/

namespace Sys2Proof.Machine

/-- R214: the kinds of channel. -/
inductive ChanKind where
  | mbox | request | notice | reserved
  deriving DecidableEq, Repr

/-- R214: the kind of a channel number. -/
def chanKind (ch : Nat) : ChanKind :=
  if ch < 8 then .mbox
  else if 0x10 ≤ ch ∧ ch ≤ 0x15 then .request
  else if 0x20 ≤ ch ∧ ch ≤ 0x24 then (if ch = 0x23 then .request else .notice)
  else if 0x100 ≤ ch ∧ ch < 0x200 then
    (if ch % 8 = 3 then .request else if ch % 8 ≤ 4 then .notice else .reserved)
  else if 0x200 ≤ ch ∧ ch ≤ 0x206 then .request
  else .reserved

/-- R214: the channel is open to the role. -/
def chanOpen (r : Role) (ch : Nat) : Bool :=
  if ch < 8 then true
  else if ch ≤ 0x12 then r != .keeper
  else if ch ≤ 0x14 then true
  else if ch = 0x15 then r != .flow
  else if ch ≤ 0x24 then r == .keeper
  else r == .warden

/-- R214: the channel is open to task mode. -/
def chanTask (ch : Nat) : Bool := decide (ch < 8) || [0x10, 0x11, 0x12, 0x14].contains ch

/-- R214, R221: a channel that carries octet notices to the wardens. -/
def octNotice (ch : Nat) : Bool := decide (0x100 ≤ ch ∧ ch < 0x200) && chanKind ch == .notice

/-- R214, R217: the commands csend may send on a channel are those below this number. -/
def chanCmds (ch : Nat) : Nat :=
  if ch < 8 then 1
  else if ch = 0x10 then 7
  else if ch = 0x11 then 2
  else if ch = 0x12 then 3
  else if ch = 0x13 then 1
  else if ch = 0x14 then 1
  else if ch = 0x15 then 2
  else if ch = 0x200 then 4
  else if ch = 0x201 then 2
  else if ch = 0x202 then 7
  else if ch = 0x203 then 3
  else if ch = 0x204 then 3
  else if ch = 0x205 then 1
  else if ch = 0x206 then 5
  else if chanKind ch = .request then 5   -- WEIR
  else 0

/-- R210, R211, R214, R216: the exception a csend or crecv meets: vector, DETAIL and EVAL. -/
def chanFault (x : EngSt) (e ch cmd : Nat) (recv : Bool) : Option (Nat × Nat × DWord) :=
  let ev : DWord := BitVec.ofNat 64 ch
  if chanKind ch = .reserved then some (vChannel, 1, ev)
  else if x.task ∧ !chanTask ch then some (vPrivilege, 5, ev)
  else if !chanOpen (roleOf e) ch then some (vChannel, 2, ev)
  else if recv then
    if cmd = 0 ∨ (cmd = 1 ∧ octNotice ch) then none else some (vChannel, 3, ev)
  else if cmd < chanCmds ch then none
  else some (vChannel, 3, ev)

/-- The octet a WEIR channel reaches: a keeper's own, or the one a warden names (R187, R214). -/
def weirOct (e ch : Nat) : Nat := if ch < 0x100 then e - 56 else (ch - 0x100) / 8

/-- R218: the polder a request on a channel is aimed at (log 6). -/
def reqTarget (e ch : Nat) (op : DWord) : Nat :=
  if ch ≤ 0x12 then 32
  else if ch = 0x13 then 47
  else if ch = 0x14 then 48
  else if ch = 0x15 then polderAt (op.toNat % 2 ^ 26 / 4 * 4)
  else if ch < 0x200 then weirOct e ch
  else if ch = 0x206 then clPolder (min (getBits op.toNat 11 8) 11)
  else 48

/-- R215: the credits engine e uses on a channel: requests not yet answered and replies not yet read. -/
def EngSt.credits (x : EngSt) (ch : Nat) : Nat :=
  (x.reqs.filter (·.chan == ch)).length + (x.replies.filter (·.chan == ch)).length

/-- R221: the words engine x holds from sender n. -/
def EngSt.mboxFrom (x : EngSt) (n : Nat) : List QWord := x.mbox.filter (·.chan == n)

/-! The status values of a reply (R166, R217). -/

def stOK : Nat := 0
def stNotValid : Nat := 1
def stNoCell : Nat := 2
def stBucketFull : Nat := 3
def stDuplicate : Nat := 4
def stNoFlow : Nat := 5
def stBadState : Nat := 6
def stParentBusy : Nat := 7
def stNoNode : Nat := 8
def stTestBusy : Nat := 9
def stTargetReset : Nat := 10
def stPoison : Nat := 11
def stBadAddr : Nat := 12
def stRefused : Nat := 13

/-- A reply word: STATUS in bits 63:60, the result in bits 59:0 (R217). -/
def replyWord (status result : Nat) : DWord := BitVec.ofNat 64 (status * 2 ^ 60 + result % 2 ^ 60)

/-- R218, R317: a request that its target cannot serve: TARGET_RESET while the target is in reset or closed or has been reset since,
TEST_BUSY while it is under self-test. -/
def Dev.refusal (d : Dev) (r : Req) : Option Nat :=
  if r.epoch != d.epoch r.tgt then some stTargetReset
  else match d.barredPolder r.tgt with
    | some 3 => some stTestBusy
    | some _ => some stTargetReset
    | none => none

/-- R218: a request as it is sent: its answer stands where its target cannot serve it then. A REG access is judged when it arrives (R220). -/
def Dev.sentReq (d : Dev) (r : Req) : Req :=
  if r.chan = 0x15 then r
  else match d.refusal r with
    | some st => { r with phase := .answered, rep := replyWord st 0 }
    | none => r

/-- R215, R221: csend. -/
def Dev.csend (d : Dev) (e gd ga ch cmd : Nat) : Dev :=
  d.issue e fun i d =>
    let x := d.e e
    match chanFault x e ch cmd false with
    | some (vec, det, ev) => d.faulting e vec det ev i
    | none =>
      let v := x.r ga
      let ok (d : Dev) : Dev := d.onE e fun x => (x.w gd 0).next i 4
      let full (d : Dev) : Dev := d.onE e fun x => (x.w gd 1).next i 4
      if ch < 8 then
        let t := e / 8 * 8 + ch
        if 8 ≤ ((d.e t).mboxFrom (e % 8)).length then full d
        else ok (d.onE t fun y => { y with mbox := y.mbox ++ [⟨e % 8, v, false, i + 4⟩] })
      else if 8 ≤ x.credits ch then full d
      else
        let tgt := reqTarget e ch v
        let r : Req := { chan := ch, cmd := cmd, op := v, tgt := tgt, epoch := d.epoch tgt, task := x.task }
        ok (d.onE e fun x => { x with reqs := x.reqs ++ [d.sentReq r] })

/-- The words a crecv of engine x on a channel can take, as seen in E-cycle i. -/
def EngSt.wordsOn (x : EngSt) (ch i : Nat) : List QWord :=
  match chanKind ch with
  | .mbox => (x.mboxFrom ch).filter fun w => decide (w.at_ ≤ i)
  | .request => x.replies.filter (·.chan == ch)
  | .notice => x.notices.filter (·.chan == ch)
  | .reserved => []

/-- The oldest word of a channel taken off its queue. -/
def EngSt.dropWord (x : EngSt) (ch : Nat) : EngSt :=
  match chanKind ch with
  | .mbox => { x with mbox := x.mbox.eraseP (·.chan == ch) }
  | .request => { x with replies := x.replies.eraseP (·.chan == ch) }
  | .notice => { x with notices := x.notices.eraseP (·.chan == ch) }
  | .reserved => x

/-- CL_MODE of engine e's cluster (R224). -/
def Dev.chmode (d : Dev) (e : Nat) : Nat := d.get (R.CL_MODE.MODE (e / 8))

/-- The result of a crecv that completes: gd, then ga (log 8), with the next instruction after n E-cycles. -/
def EngSt.received (x : EngSt) (gd ga i n : Nat) (v tag : DWord) : EngSt := ((x.w gd v).w ga tag).next i n

/-- The oldest word of a channel into gd with its tag in ga. -/
def EngSt.take (x : EngSt) (gd ga ch i n : Nat) (w : QWord) : EngSt :=
  (x.dropWord ch).received gd ga i n w.word (if w.poison then 2 else 0)

/-- R216: a word of a channel as it is taken; a reply has been checked as it arrived. -/
def QWord.checked (w : QWord) (ch : Nat) (parity : Bool) : QWord :=
  { w with poison := w.poison || (chanKind ch != .request && !parity) }

/-- R287: the parity check of the mailbox word or notice taken from a channel. -/
def Dev.checkWord (d : Dev) (ch : Nat) (parity : Bool) : Dev := if chanKind ch != .request && !parity then d.parityError 2 else d

/-- R214, R216: crecv with command 0 or 1; parity: the word it takes passes its parity check. -/
def Dev.crecv (d : Dev) (e gd ga ch cmd : Nat) (parity : Bool) : Dev :=
  d.issue e fun i d =>
    let x := d.e e
    match chanFault x e ch cmd true with
    | some (vec, det, ev) => d.faulting e vec det ev i
    | none =>
      let k := ch - 0x100
      let nothing (d : Dev) : Dev := d.onE e fun x => x.received gd ga i 2 0 1
      if cmd = 1 then
        nothing (if d.holder (k / 8) (k % 8) = some (e - 88) then { d with holders := Tbl.set 0 d.holders k 0 } else d)
      else if octNotice ch ∧ (d.holder (k / 8) (k % 8)).any (· != e - 88) then nothing d
      else
        let d := if octNotice ch then { d with holders := Tbl.set 0 d.holders k (e - 88 + 1) } else d
        match x.wordsOn ch i with
        | w :: _ => (d.checkWord ch parity).onE e fun x => x.take gd ga ch i 2 (w.checked ch parity)
        | [] =>
          if d.chmode e = 0 ∨ (chanKind ch = .request ∧ x.credits ch = 0) then nothing d
          else d.onE e fun x => { x with st := .waiting, wait := some (.word gd ga ch cmd), ready := i }

/-- R226: EVPEND of engine e as sampled in E-cycle i. -/
def Dev.evpend (d : Dev) (e i : Nat) : DWord :=
  let x := d.e e
  let has (ch : Nat) : Bool := !(x.wordsOn ch i).isEmpty
  let bits : List (Nat × Bool) :=
    ((List.range 8).map fun n => (n, has n))
      ++ [(8, x.timerExp || x.timerAt.any (· ≤ i)), (9, decide (88 ≤ e) && d.line (e - 88))]
      ++ ((List.range 6).map fun n => (10 + n, has (0x200 + n)))
      ++ ((List.range 6).map fun n => (16 + n, has (0x10 + n)))
      ++ [(22, has 0x206)]
      ++ ((List.range 5).map fun n => (24 + n, has (0x20 + n)))
      ++ ((List.range 32).map fun o =>
          (32 + o, decide (88 ≤ e) && (x.replies ++ x.notices).any fun w => decide (0x100 ≤ w.chan ∧ (w.chan - 0x100) / 8 = o)))
  BitVec.ofNat 64 (bits.foldl (fun v b => v + b2n b.2 * 2 ^ b.1) 0)

/-! What a block does with a request. -/

/-- Change the first element of a list that p selects. -/
def modifyFirst {α : Type} (p : α → Bool) (f : α → α) : List α → List α
  | [] => []
  | a :: t => if p a then f a :: t else a :: modifyFirst p f t

/-- The oldest request of engine e on a channel with a command that is in the given phase. -/
def Dev.req (d : Dev) (e ch cmd : Nat) (ph : Phase) : Option Req :=
  (d.e e).reqs.find? fun r => r.chan == ch && r.cmd == cmd && r.phase == ph

/-- That request changed by f. -/
def Dev.onReq (d : Dev) (e ch cmd : Nat) (ph : Phase) (f : Req → Req) : Dev :=
  d.onE e fun x => { x with reqs := modifyFirst (fun r => r.chan == ch && r.cmd == cmd && r.phase == ph) f x.reqs }

/-- The oldest request of engine e on a channel with a command that is in the given phase is answered. -/
def Dev.answer (d : Dev) (e ch cmd : Nat) (ph : Phase) (status : Nat) (result : Nat := 0) : Dev :=
  d.onReq e ch cmd ph fun r => { r with phase := .answered, rep := replyWord status result }

/-- The target of engine e's oldest unserved request (ch, cmd) takes it up: f gives the state after the request's effect
and the status and result of the reply, or no reply yet. Nothing happens when the engine has no such request. -/
def Dev.serve (d : Dev) (e ch cmd : Nat) (f : Nat → Dev → Dev × Option (Nat × Nat)) : Dev :=
  match d.req e ch cmd .sent with
  | none => d
  | some r =>
    match d.refusal r with
    | some st => d.answer e ch cmd .sent st
    | none =>
      match f r.op.toNat d with
      | (d, some (st, v)) => d.answer e ch cmd .sent st v
      | (d, none) => d.onReq e ch cmd .sent fun r => { r with phase := .taken }

/-- R219: the shared-store offset in bits 63:42 of an operand. -/
def opOffset (op : Nat) : Nat := getBits op 63 42 / 64 * 64

/-- R219, R284: a request whose argument block of n words lies in the sender's shared store: with a poisoned word the command is not
carried out and the reply is marked. -/
def Dev.serveBlock (d : Dev) (e ch cmd n : Nat) (f : List Byte → Nat → Dev → Dev × Option (Nat × Nat)) : Dev :=
  d.serve e ch cmd fun op d =>
    let (l, bad, d) := d.hubRead (e / 8) (opOffset op) n
    if bad then (d.onReq e ch cmd .sent fun r => { r with poison := true }, some (0, 0)) else f l op d

/-- n bytes of a block from byte i, as a number. -/
def blk (l : List Byte) (i n : Nat) : Nat := leNat ((l.drop i).take n)

/-- A status alone. -/
def rep (d : Dev) (st : Nat) (v : Nat := 0) : Dev × Option (Nat × Nat) := (d, some (st, v))

/-- A request taken up earlier is completed: f gives the state and the reply. -/
def Dev.finish (d : Dev) (e ch cmd : Nat) (f : Req → Dev → Dev × (Nat × Nat)) : Dev :=
  match d.req e ch cmd .taken with
  | none => d
  | some r =>
    match f r d with
    | (d, (st, v)) => d.answer e ch cmd .taken st v

/-- R216, R218, R287: the reply to engine e's oldest request on a channel arrives. A request still unanswered is
answered TARGET_RESET or TEST_BUSY where R218 says so; an answer of a past epoch is discarded, counted in CL_STALE and
replaced. A word that fails its parity check is marked. -/
def Dev.deliver (d : Dev) (e ch : Nat) (parity : Bool) : Dev :=
  match (d.e e).reqs.find? (·.chan == ch) with
  | none => d
  | some r =>
    let push (d : Dev) (w : DWord) (marked : Bool) : Dev :=
      let d := if parity then d else d.parityError 2
      d.onE e fun x => { x with reqs := x.reqs.eraseP (·.chan == ch), replies := x.replies ++ [⟨ch, w, !parity || marked, 0⟩] }
    if r.epoch ≠ d.epoch r.tgt then
      push (if r.phase = .answered then (d.inc (R.CL_STALE.COUNT (e / 8))).bump (Ctr.cluster (e / 8) 10) else d) (replyWord stTargetReset 0) false
    else
      match r.phase with
      | .answered => push d r.rep r.poison
      | .sent =>
        match d.refusal r with
        | some st => push d (replyWord st 0) false
        | none => d
      | .taken => d

end Sys2Proof.Machine
end

