-- ==== Sys2Proof/Machine/Parse.lean ====
section
/-! DEFINITION. What the ingress pipeline computes from a frame alone (spec/06, R151 to R154): the parse window, the control
classes, the 64-byte key record, SipHash-2-4 and the frame check sequence. -/

namespace Sys2Proof.Machine

/-- Byte i of a frame; 0 beyond its end. -/
def fb (l : List Byte) (i : Nat) : Nat := (l.getD i 0).toNat

/-- The 16-bit network-order value at byte i. -/
def fh (l : List Byte) (i : Nat) : Nat := fb l i * 256 + fb l (i + 1)

/-- R151: the bytes the parser examines. -/
def parseWindow : Nat := 128

/-- What the parser finds in a frame. -/
structure Parsed where
  l3 : Nat := 0            -- 0 none, 1 IPv4, 2 IPv6
  pppoe : Bool := false
  outer : Nat := 0         -- tag control of the outer tag
  inner : Nat := 0
  session : Nat := 0
  etype : Nat := 0         -- outermost EtherType after the tags
  pppCtl : Bool := false
  l3Off : Nat := 0
  l4Off : Nat := 0
  l3Len : Nat := 0         -- header and payload of the IP packet
  proto : Nat := 0
  dscp : Nat := 0
  frag : Bool := false
  badSum : Bool := false
  chain : Bool := false    -- an IPv6 extension chain leaves the parse window
  ported : Bool := false   -- a protocol with ports, not a fragment
  deriving DecidableEq, Repr

/-- The ones' complement sum of n 16-bit words from byte i. -/
def onesSum (l : List Byte) (i : Nat) : Nat → Nat
  | 0 => 0
  | n + 1 => fh l i + onesSum l (i + 2) n

/-- R151: the IPv4 header checksum of ihl words at byte i is good. -/
def ipv4SumOk (l : List Byte) (i ihl : Nat) : Bool :=
  let s := onesSum l i (2 * ihl)
  let s := s % 65536 + s / 65536
  let s := s % 65536 + s / 65536
  s == 65535

/-- R151: the protocols whose ports are read: TCP, UDP, SCTP and UDP-Lite. -/
def hasPorts (proto : Nat) : Bool := [6, 17, 132, 136].contains proto

/-- R151: the IPv6 extension headers from byte i on: final next header, its offset, a fragment seen, the chain left the window.
The first argument bounds the walk: each header takes 8 bytes or more of the window. -/
def ipv6Walk (l : List Byte) : Nat → Nat → Nat → Bool → Nat × Nat × Bool × Bool
  | 0, nh, i, frag => (nh, i, frag, true)
  | n + 1, nh, i, frag =>
    if [0, 43, 44, 60].contains nh then
      if parseWindow < i + 8 ∨ l.length < i + 8 then (nh, i, frag, true)
      else if nh = 44 then ipv6Walk l n (fb l i) (i + 8) true
      else ipv6Walk l n (fb l i) (i + 8 * (fb l (i + 1) + 1)) frag
    else (nh, i, frag, decide (parseWindow ≤ i))

/-- R151: an IPv4 packet at byte i. -/
def parseIPv4 (l : List Byte) (p : Parsed) (i : Nat) : Parsed :=
  let ihl := fb l i % 16
  if fb l i / 16 ≠ 4 ∨ ihl < 5 ∨ l.length < i + 4 * ihl then p
  else
    let proto := fb l (i + 9)
    let frag := fh l (i + 6) % 16384 != 0
    { p with l3 := 1, l3Off := i, l4Off := i + 4 * ihl, l3Len := fh l (i + 2), proto := proto, dscp := fb l (i + 1) / 4,
             frag := frag, badSum := !ipv4SumOk l i ihl, ported := hasPorts proto && !frag }

/-- R151: an IPv6 packet at byte i. -/
def parseIPv6 (l : List Byte) (p : Parsed) (i : Nat) : Parsed :=
  if fb l i / 16 ≠ 6 ∨ l.length < i + 40 then p
  else
    let (nh, off, frag, left) := ipv6Walk l 17 (fb l (i + 6)) (i + 40) false
    { p with l3 := 2, l3Off := i, l4Off := if left then 0 else off, l3Len := 40 + fh l (i + 4), proto := nh,
             dscp := fh l i / 64 % 64, frag := frag, chain := left, ported := hasPorts nh && !frag && !left }

/-- R151: what an EtherType or its payload at byte i announces. -/
def parseL3 (l : List Byte) (p : Parsed) (etype i : Nat) : Parsed :=
  if etype = 0x0800 then parseIPv4 l p i
  else if etype = 0x86DD then parseIPv6 l p i
  else if etype = 0x8864 ∧ fb l i = 0x11 ∧ fb l (i + 1) = 0 then
    let p := { p with pppoe := true, session := fh l (i + 2) }
    if fh l (i + 6) = 0x0021 then parseIPv4 l p (i + 8)
    else if fh l (i + 6) = 0x0057 then parseIPv6 l p (i + 8)
    else { p with pppCtl := true }
  else p

/-- The frame carries an outer tag. -/
def outerTagged (l : List Byte) : Bool := fh l 12 == 0x8100 || fh l 12 == 0x88A8

/-- R151: the parse of a frame. -/
def parseFrame (l : List Byte) : Parsed :=
  if !outerTagged l then parseL3 l { etype := fh l 12 } (fh l 12) 14
  else if fh l 16 ≠ 0x8100 then parseL3 l { outer := fh l 14, etype := fh l 16 } (fh l 16) 18
  else parseL3 l { outer := fh l 14, inner := fh l 18, etype := fh l 20 } (fh l 20) 22

/-- The L4 ports of a frame as R151 reads them: source, then destination; 0 where none. -/
def Parsed.ports (p : Parsed) (l : List Byte) : Nat × Nat :=
  if p.ported && decide (p.l4Off + 4 ≤ parseWindow) then (fh l p.l4Off, fh l (p.l4Off + 2)) else (0, 0)

/-- R152: the CTRL_MATCH classes the frame is in, as a bitmap. -/
def Parsed.classes (p : Parsed) (l : List Byte) : Nat :=
  let (s, t) := p.ports l
  let has (a b : Nat) : Bool := s == a || s == b || t == a || t == b
  let udp := p.proto == 17
  let icmp := p.l3 == 2 && p.proto == 58 && !p.chain && !p.frag
  let ty := fb l p.l4Off
  b2n (p.l3 == 1 && udp && has 67 68) + 2 * b2n (p.l3 == 2 && udp && has 546 547)
    + 4 * b2n (icmp && decide (133 ≤ ty ∧ ty ≤ 137)) + 8 * b2n (p.l3 == 1 && p.proto == 2)
    + 16 * b2n (icmp && (decide (130 ≤ ty ∧ ty ≤ 132) || ty == 143)) + 32 * b2n p.pppCtl

/-- n bytes of a frame from byte i, where a key field is selected and present; zeros otherwise. -/
def keyPart (l : List Byte) (sel : Bool) (i n : Nat) : List Byte :=
  (List.range n).map fun j => if sel then l.getD (i + j) 0 else 0

/-- A 16-bit key field in network order. -/
def key16 (v : Nat) : List Byte := [BitVec.ofNat 8 (v / 256), BitVec.ofNat 8 v]

/-- R153: the 64-byte key record of a frame from ingress port n under KEY_SEL. -/
def keyRecord (l : List Byte) (p : Parsed) (n sel : Nat) : List Byte :=
  let on (k : Nat) : Bool := bit sel k
  let v4 := p.l3 == 1
  let v6 := p.l3 == 2
  let ip := v4 || v6
  let addr (k o4 o6 : Nat) : List Byte :=
    if v4 then List.replicate 12 0 ++ keyPart l (on k) (p.l3Off + o4) 4 else keyPart l (on k && v6) (p.l3Off + o6) 16
  let (sp, dp) := p.ports l
  [BitVec.ofNat 8 n, BitVec.ofNat 8 (p.l3 + 4 * b2n p.pppoe)]
    ++ key16 ((if on 1 then p.outer % 4096 else 0) + (if on 2 then p.outer / 8192 * 8192 else 0))
    ++ key16 (if on 3 then p.inner % 4096 else 0)
    ++ key16 (if on 4 then p.session else 0)
    ++ keyPart l (on 5) 6 6 ++ keyPart l (on 6) 0 6
    ++ addr 7 12 8 ++ addr 8 16 24
    ++ [BitVec.ofNat 8 (if on 9 && ip then p.proto else 0), BitVec.ofNat 8 (if on 10 && ip then p.dscp else 0)]
    ++ key16 (if on 11 then sp else 0) ++ key16 (if on 12 then dp else 0) ++ key16 sel
    ++ List.replicate 4 0

/-! SipHash-2-4 (R154). -/

/-- One SipRound. -/
def sipRound (v : DWord × DWord × DWord × DWord) : DWord × DWord × DWord × DWord :=
  let (a, b, c, e) := v
  let a := a + b
  let b := b.rotateLeft 13 ^^^ a
  let a := a.rotateLeft 32
  let c := c + e
  let e := e.rotateLeft 16 ^^^ c
  let a := a + e
  let e := e.rotateLeft 21 ^^^ a
  let c := c + b
  let b := b.rotateLeft 17 ^^^ c
  let c := c.rotateLeft 32
  (a, b, c, e)

/-- One message word: two rounds between the two additions. -/
def sipWord (v : DWord × DWord × DWord × DWord) (m : DWord) : DWord × DWord × DWord × DWord :=
  let (a, b, c, e) := v
  let (a, b, c, e) := sipRound (sipRound (a, b, c, e ^^^ m))
  (a ^^^ m, b, c, e)

/-- The little-endian words of a message of n words. -/
def leWords (l : List Byte) : Nat → List Nat
  | 0 => []
  | n + 1 => leNat (l.take 8) :: leWords (l.drop 8) n

/-- SipHash-2-4 of the 64-byte record under the key k0, k1. -/
def sipHash (k0 k1 : DWord) (l : List Byte) : DWord :=
  let v := (k0 ^^^ 0x736f6d6570736575#64, k1 ^^^ 0x646f72616e646f6d#64, k0 ^^^ 0x6c7967656e657261#64, k1 ^^^ 0x7465646279746573#64)
  let v := ((leWords l 8).map (BitVec.ofNat 64)).foldl sipWord v
  let (a, b, c, e) := sipWord v (BitVec.ofNat 64 (64 * 2 ^ 56))
  let (a, b, c, e) := sipRound (sipRound (sipRound (sipRound (a, b, c ^^^ 0xFF, e))))
  a ^^^ b ^^^ c ^^^ e

/-! The frame check sequence of IEEE 802.3. -/

/-- One byte through the reflected CRC-32. -/
def crcByte (c : Nat) (b : Byte) : Nat :=
  (List.range 8).foldl (fun c _ => if c % 2 = 1 then (c / 2) ^^^ 0xEDB88320 else c / 2) (c ^^^ b.toNat)

/-- The FCS of the bytes of a frame, as a little-endian number. -/
def fcsOf (l : List Byte) : Nat := (l.foldl crcByte 0xFFFFFFFF) ^^^ 0xFFFFFFFF

/-- The frame ends with the FCS of its other bytes. -/
def fcsOk (l : List Byte) : Bool := leNat (l.drop (l.length - 4)) == fcsOf (l.take (l.length - 4))

/-- R157: the egress edit of a frame without its FCS. -/
def editFrame (edit tci : Nat) (l : List Byte) : List Byte :=
  if edit = 1 then (if outerTagged l then l.take 12 ++ l.drop 16 else l)
  else if edit = 2 then l.take 12 ++ key16 0x8100 ++ key16 tci ++ l.drop 12
  else if edit = 3 then (if outerTagged l then l.take 14 ++ key16 tci ++ l.drop 16 else l)
  else l

end Sys2Proof.Machine
end

