-- ==== Sys2Proof/Machine/Vault.lean ====
section
/-! DEFINITION. What resets keep outside the registers (R344, R352, R377): the fuses and the NV store. -/

namespace Sys2Proof.Machine

/-- The fuses and the NV store. Life-cycle states: 0 BLANK, 1 MANUFACTURE, 2 PROVISIONED, 3 DEPLOYED, 4 RETURNED, 5 SCRAPPED
(R340). Signing keys: 0 to 7 the image slots, 8 to 10 the debug slots. -/
structure Vault where
  life : Nat := 0
  next : Option Nat := none            -- the life-cycle fuses blown that await a reset (R342)
  serial : Option DWord := none
  keys : Tbl (Option Nat) := []        -- SHA-384 of the public key
  revoked : List Nat := []             -- revoked key slots
  oik : Option (List Byte) := none     -- 32 bytes
  oikDead : Bool := false
  policy : Option Nat := none
  rollback : Nat := 0
  wiped : List Nat := []               -- RETURNED, SCRAPPED: the destruction of R343 has completed
  spares : Tbl Nat := []               -- by global lane: the slice repaired by fuse + 1 (R52)
  cals : Tbl Word := []                -- manufacturing calibration record: CAL_COEF of entry s of lane g at 65 * g + s (R41), where recorded
  aeCals : Tbl Word := []              -- and AE_CAL r of octet o at 4 * o + r (R267)
  repairs : Nat := 0                   -- fused array repairs (R377)
  nv : Store := {}
  deriving DecidableEq, Repr

/-- The fuses and NV store of a part that nothing has been written to. -/
def Vault.blank : Vault := {}

/-- The hash of a key slot, if fused. -/
def Vault.key (v : Vault) (k : Nat) : Option Nat := Tbl.get none v.keys k

/-- A key slot fused and not revoked. -/
def Vault.usable (v : Vault) (k : Nat) : Bool := (v.key k).isSome && !v.revoked.contains k

/-- POLICY in its register layout; 0 until fused. -/
def Vault.pol (v : Vault) : Nat := v.policy.getD 0

/-- The serial number; 0 until fused. -/
def Vault.serialNo (v : Vault) : DWord := v.serial.getD 0

end Sys2Proof.Machine
end

