-- ==== Sys2Proof/Machine/State.lean ====
section
/-! DEFINITION. The state of the machine: the part, its fuses, and the queue of waiting commands; the state after reset;
the reasons a step can stop. -/

namespace Sys2Proof.Machine

/-- The machine: the part's state, the fuses and life-cycle record that resets keep, and the commands that wait, first in
first out. -/
structure State where
  dev : Dev := {}
  vault : Vault := {}
  pending : List Instr := []
  deriving DecidableEq, Repr

/-- The machine right after PORST_N: every register at its reset value, the fuses blank, no command waiting. -/
def State.reset : State := {}

/-- Why a step stops with a fault. No command of this part does: every command has an effect the spec describes. -/
inductive Fault where
  /-- Raised by no meaning; kept so that the type has a value. Safe: a stop proves nothing about the hardware. -/
  | none
  deriving DecidableEq, Repr

/-- Why a step has no meaning. -/
inductive Refusal where
  /-- Answered by a dispatch arm whose command has no meaning yet. Safe: nothing can be proved of a refused step. -/
  | notModelled (mnemonic : String)
  deriving DecidableEq, Repr

/-- The outcome of a command that changes the fuses or the NV store too. -/
def State.onV (s : State) (f : Dev → Vault → Dev × Vault) : Host.Outcome State Fault Refusal :=
  let (d, v) := f s.dev s.vault
  .next { s with dev := d, vault := v }

/-- The outcome of a command whose effect on the part is f. -/
def State.on (s : State) (f : Dev → Dev) : Host.Outcome State Fault Refusal := .next { s with dev := f s.dev }

end Sys2Proof.Machine
end

