-- ==== Sys2Proof/Machine/Nv.lean ====
section
/-! DEFINITION. The non-volatile record store (spec/13, R352 to R355). -/

namespace Sys2Proof.Machine

/-- A request whose effect reaches the fuses or the NV store too. -/
def Dev.serveV (d : Dev) (v : Vault) (e ch cmd : Nat)
    (f : Nat → Dev → Vault → (Dev × Vault) × Option (Nat × Nat)) : Dev × Vault :=
  match d.req e ch cmd .sent with
  | none => (d, v)
  | some r =>
    match d.refusal r with
    | some st => (d.answer e ch cmd .sent st, v)
    | none =>
      match f r.op.toNat d v with
      | ((d, v), some (st, x)) => (d.answer e ch cmd .sent st x, v)
      | ((d, v), none) => (d.onReq e ch cmd .sent fun r => { r with phase := .taken }, v)

/-- R219, R284: the same with an argument block, of a size the operand gives. -/
def Dev.serveBlockV (d : Dev) (v : Vault) (e ch cmd : Nat) (n : Nat → Nat)
    (f : List Byte → Nat → Dev → Vault → (Dev × Vault) × Option (Nat × Nat)) : Dev × Vault :=
  d.serveV v e ch cmd fun op d v =>
    let (l, bad, d) := d.hubRead (e / 8) (opOffset op) (n op)
    if bad then ((d.onReq e ch cmd .sent fun r => { r with poison := true }, v), some (0, 0)) else f l op d v

/-- A status alone. -/
def repV (d : Dev) (v : Vault) (st : Nat) (x : Nat := 0) : (Dev × Vault) × Option (Nat × Nat) := ((d, v), some (st, x))

/-! Words. -/

/-- R352: a word write takes 200 ns. -/
def Dev.nvBusy (d : Dev) (n : Nat) : Dev := d.onSec fun s => { s with nvFree := max d.up s.nvFree + 400 * n }

/-- R355: NV_STATUS.BUSY. -/
def Dev.nvIsBusy (d : Dev) : Bool := decide (d.up < d.sec.nvFree)

/-- R355: a read of a word: its value, CE or UE. -/
def Dev.nvRead (d : Dev) (v : Vault) (w : Nat) : Nat × Dev :=
  let (x, r) := v.nv.read w
  match r with
  | .clean => (x, d)
  | .single => (x, d.set R.NV_STATUS.CE 1)
  | .poisoned | .uncorrectable => (x, (d.set R.NV_STATUS.UE 1).orF R.SEC_EVT.EVT 128)

/-- The software area (R352). -/
def nvSoft (w : Nat) : Bool := decide (1032 ≤ w ∧ w < 8192)

/-! Records (R353, R354). -/

/-- The 64 bytes of record slot k, 0 to 63 the life-cycle log, 64 to 127 the event records. -/
def Vault.slot (v : Vault) (k : Nat) : List Byte := (List.range 8).flatMap fun i => bytesLE (v.nv.read (8 * k + i)).1 8

/-- The SEQ of slot k, if its CRC holds. -/
def Vault.slotSeq (v : Vault) (k : Nat) : Option Nat :=
  let l := v.slot k
  if blk l 60 4 = fcsOf (l.take 60) then some (blk l 4 4) else none

/-- The slot of an area (0 log, 1 events) with the highest valid SEQ, and that SEQ. -/
def Vault.newest (v : Vault) (area : Nat) : Option (Nat × Nat) :=
  (List.range 64).foldl (fun b i =>
    match v.slotSeq (64 * area + i), b with
    | some s, some (_, t) => if t < s then some (i, s) else b
    | some s, none => some (i, s)
    | none, _ => b) none

/-- R354: the last SEQ written; 0 while no record is valid. -/
def Vault.seq (v : Vault) : Nat := max ((v.newest 0).elim 0 (·.2)) ((v.newest 1).elim 0 (·.2))

/-- R353, R354: a record of a TYPE with its DATA appended to an area. -/
def nvAppend (d : Dev) (v : Vault) (area type : Nat) (data : List Byte) : Dev × Vault :=
  let k := 64 * area + (v.newest area).elim 0 (fun b => (b.1 + 1) % 64)
  let body := bytesLE type 4 ++ bytesLE (v.seq + 1) 4 ++ bytesLE (d.time.ps + d.time.sec % 2 ^ 24 * 2 ^ 40) 8
    ++ ((data ++ List.replicate 44 0).take 44)
  let l := body ++ bytesLE (fcsOf body) 4
  (d.nvBusy 8, { v with nv := (List.range 8).foldl (fun st i => st.putWord (8 * k + i) (blk l (8 * i) 8)) v.nv })

/-! The NV channel (R355). -/

/-- The words an operand names, clamped to the store: the first and how many. -/
def nvRange (op : Nat) : Nat × Nat := (op % 8192, min (getBits op 28 16 + 1) (8192 - op % 8192))

/-- R355 READ. -/
def nvChRead (d : Dev) (v : Vault) (e : Nat) : Dev × Vault :=
  d.serveV v e 0x204 0 fun op d v =>
    let (w, n) := nvRange op
    let (l, d) := (List.range n).foldl (fun (l, d) i => let (x, d) := d.nvRead v (w + i); (l ++ [(x, false)], d)) ([], d)
    repV (d.hubWrite (e / 8) (opOffset op) l) v stOK

/-- R355 WRITE. -/
def nvChWrite (d : Dev) (v : Vault) (e : Nat) : Dev × Vault :=
  d.serveBlockV v e 0x204 1 (fun op => (nvRange op).2) fun l op d v =>
    let (w, n) := nvRange op
    if w < 1032 then repV d v stRefused
    else
      repV (d.nvBusy n) { v with nv := (List.range n).foldl (fun st i => st.putWord (w + i) (blk l (8 * i) 8)) v.nv } stOK

/-- R355 RECORD; a power-fail record is noted (R328). -/
def nvChRecord (d : Dev) (v : Vault) (e : Nat) : Dev × Vault :=
  d.serveBlockV v e 0x204 2 (fun _ => 8) fun l _ d v =>
    let t := blk l 0 1
    if t = 1 ∨ 128 ≤ t then
      let d := if t = 1 ∧ d.pwr.pfAt.isSome then d.onPwr fun p => { p with pfRec := true } else d
      let n := v.seq + 1
      let (d, v) := nvAppend d v 1 t ((l.drop 16).take 44)
      repV d v stOK (n % 2 ^ 32)
    else repV d v stRefused

/-! NV_ADDR and NV_DATA (R355). -/

/-- A read of NV_DATA_LO. -/
def Dev.nvDataLo (d : Dev) (v : Vault) : Nat × Dev :=
  let (x, d) := d.nvRead v (d.get R.NV_ADDR.WORD)
  (x % 2 ^ 32, d.onSec fun s => { s with nvWord := BitVec.ofNat 64 x })

/-- A read of NV_DATA_HI: the word the last read of NV_DATA_LO took. -/
def Dev.nvDataHi (d : Dev) : Nat × Dev := (d.sec.nvWord.toNat / 2 ^ 32, d.incW R.NV_ADDR.WORD)

/-- One word stored at NV_ADDR. -/
def nvStore (d : Dev) (v : Vault) (x : DWord) : Dev × Vault :=
  let w := d.get R.NV_ADDR.WORD
  let d := d.incW R.NV_ADDR.WORD
  if nvSoft w then (d.nvBusy 1, { v with nv := v.nv.putWord w x.toNat }) else (d.set R.NV_STATUS.DENIED 1, v)

/-- A write of NV_DATA_HI, held while a word write is in progress. -/
def nvDataHiWrite (d : Dev) (v : Vault) (x : Nat) : Dev × Vault :=
  let d := d.setReg A.NV_DATA_HI (x % 2 ^ 32)
  let w : DWord := BitVec.ofNat 64 (x % 2 ^ 32 * 2 ^ 32 + d.reg A.NV_DATA_LO)
  if d.nvIsBusy then (d.onSec fun s => { s with nvWait := s.nvWait ++ [w] }, v) else nvStore d v w

/-- The oldest held write, once the word write in progress has ended. -/
def nvResume (d : Dev) (v : Vault) : Dev × Vault :=
  match d.sec.nvWait with
  | w :: t => if d.nvIsBusy then (d, v) else nvStore (d.onSec fun s => { s with nvWait := t }) v w
  | [] => (d, v)

/-! The commands. -/

def execNvRead (e : EngId) (s : State) : Host.Outcome State Fault Refusal := s.onV fun d v => nvChRead d v e

def execNvWrite (e : EngId) (s : State) : Host.Outcome State Fault Refusal := s.onV fun d v => nvChWrite d v e

def execNvRecord (e : EngId) (s : State) : Host.Outcome State Fault Refusal := s.onV fun d v => nvChRecord d v e

def execNvDataLoRead (src : Src) (s : State) : Host.Outcome State Fault Refusal :=
  s.on fun d => d.gateRead src A.NV_DATA_LO fun d => d.nvDataLo s.vault

def execNvDataHiRead (src : Src) (s : State) : Host.Outcome State Fault Refusal :=
  s.on fun d => d.gateRead src A.NV_DATA_HI Dev.nvDataHi

def execNvDataHiWrite (val : BitVec 32) (s : State) : Host.Outcome State Fault Refusal :=
  s.onV fun d v => nvDataHiWrite d v val.toNat

end Sys2Proof.Machine
end

