-- ==== Sys2Proof/Machine/FlowCells.lean ====
section
/-! DEFINITION. Flow contexts, cells, free lists, berms and the on-chip frame lists of the fabric (spec/06, R154 to R163;
spec/10, R285). -/

namespace Sys2Proof.Machine

/-- The fabric changed by f. -/
def Dev.onF (d : Dev) (f : FabSt → FabSt) : Dev := { d with fab := f d.fab }

/-! Modes and drops (R184, R185). -/

/-- One of the fabric quadrants is under self-test. -/
def Dev.fabTest (d : Dev) : Bool := [32, 33, 34, 35].any fun q => (d.p q).test

/-- R184: CTRL.MODE: 0 START, 1 NORMAL, 2 TEST, 3 RECOVERY. -/
def Dev.fabMode (d : Dev) : Nat :=
  if d.fabTest then 2
  else if d.on R.FL_STATUS.RECLAIM_BUSY then 3
  else if d.on R.FL_CTRL.RUN then 1
  else 0

/-- The causes of R185. -/
def dcRUNT : Nat := 1
def dcGIANT : Nat := 2
def dcFCS : Nat := 3
def dcCODEWORD : Nat := 4
def dcNOT_NORMAL : Nat := 5
def dcNO_CELL : Nat := 6
def dcSPILL_FULL : Nat := 7
def dcSPILL_BW : Nat := 8
def dcFLOW_CAP : Nat := 9
def dcFLOW_DROP : Nat := 10
def dcPUNT_FULL : Nat := 11
def dcPORT_FLUSH : Nat := 12
def dcOCTET_TEST : Nat := 13
def dcOCTET_RESET : Nat := 14
def dcLINK_PARITY : Nat := 15
def dcREMOVE_FLUSH : Nat := 16
def dcNO_PATH : Nat := 17
def dcPIPE_FULL : Nat := 18

/-- R307: the port counter a cause counts in. -/
def dropGroup (cause : Nat) : Nat :=
  if cause ≤ 4 then 4
  else if cause ≤ 6 ∨ cause = 10 ∨ 17 ≤ cause then 5
  else if cause ≤ 9 then 6
  else if cause = 11 then 7
  else if cause ≤ 14 then 8
  else 9

/-- R185: one frame dropped with a cause, against a port where one is concerned. -/
def Dev.dropFrame (d : Dev) (cause : Nat) (port : Option Nat) : Dev :=
  let d := (d.inc (R.DROP.COUNT (cause - 1))).bump (Ctr.drop cause)
  match port with
  | some p => d.bump (Ctr.port p (dropGroup cause))
  | none => d

/-- R307: counter k of the fabric's own: 0 CT_STOMP, 1 OVERRUN, 2 REDIRECT, 3 SPILL_WAIT, 4 frames spilled, 5 cells returned,
6 flows installed, 7 flows removed, 8 frames punted, 9 cells freed by reclaim. -/
def Ctr.fab (k : Nat) : Nat := 6674 + k

/-! Cells (R158, R163). -/

/-- The class codes of a cell: 0 ordinary, 1 control, 2 engine-originated, 3 spillway return. -/
def clOrd : Nat := 0
def clCtrl : Nat := 1
def clEng : Nat := 2
def clRet : Nat := 3

/-- The reserve and the in-use register of a reserved class. -/
def bermRsv : Nat → Fld
  | 1 => R.BERM_RSV_CTRL.CELLS
  | 2 => R.BERM_RSV_ENG.CELLS
  | _ => R.BERM_RSV_RET.CELLS
def bermUse : Nat → Fld
  | 1 => R.BERM_USE_CTRL.CELLS
  | 2 => R.BERM_USE_ENG.CELLS
  | _ => R.BERM_USE_RET.CELLS

/-- R163: the shared availability S. -/
def Dev.shared (d : Dev) : Int :=
  [1, 2, 3].foldl (fun s c => s - ((d.get (bermRsv c) - d.get (bermUse c) : Nat) : Int)) (d.get R.POOL_FREE.CELLS : Int)

/-- SHARED_FREE follows S; a negative S reads 0. -/
def Dev.syncPool (d : Dev) : Dev := d.set R.SHARED_FREE.CELLS d.shared.toNat

/-- R163: a cell request of a class is granted. -/
def Dev.granted (d : Dev) (c : Nat) : Bool :=
  decide (0 < d.shared) || (c != 0 && decide (d.get (bermUse c) < d.get (bermRsv c)))

/-- Cell i of a bank and the bank of a cell: cells lie across the banks in turn (log 11). -/
def bankCell (b i : Nat) : Nat := b + 256 * i

/-- The oldest cell of a bank's free list. -/
def BankSt.pop (b : Nat) (x : BankSt) : Option (Nat × BankSt) :=
  if x.fresh < 4096 then some (bankCell b x.fresh, { x with fresh := x.fresh + 1 })
  else match x.back with
    | [] => none
    | c :: t => some (c, { x with back := t })

/-- The first bank from rot on, in rotation, that has a cell. -/
def FabSt.popFrom (x : FabSt) : Nat → Nat → Option (Nat × FabSt)
  | 0, _ => none
  | n + 1, b =>
    match (Tbl.get BankSt.reset x.banks b).pop b with
    | some (c, y) => some (c, { x with banks := Tbl.set BankSt.reset x.banks b y, rot := (b + 1) % 256 })
    | none => x.popFrom n ((b + 1) % 256)

/-- R163: one cell of a class, if granted. -/
def Dev.allocCell (d : Dev) (c : Nat) : Option (Nat × Dev) :=
  if !d.granted c then none
  else match d.fab.popFrom 256 d.fab.rot with
    | none => none
    | some (cell, x) =>
      let x := { x with cls := Tbl.set 0 x.cls cell (c + 1) }
      let x := if d.on R.FL_STATUS.RECLAIM_BUSY then { x with young := cell :: x.young } else x
      let d := ({ d with fab := x }).set R.POOL_FREE.CELLS (d.get R.POOL_FREE.CELLS - 1)
      let d := if c = 0 then d else d.set (bermUse c) (d.get (bermUse c) + 1)
      some (cell, d.syncPool)

/-- R161: a parity error on the free list of bank b: the list is truncated there. -/
def Dev.truncateBank (d : Dev) (b : Nat) : Dev :=
  let y := Tbl.get BankSt.reset d.fab.banks b
  let n := (4096 - y.fresh) + y.back.length
  let y' : BankSt :=
    { fresh := 4096, back := [], lost := y.lost ++ y.back, lostFrom := if y.fresh < 4096 then some y.fresh else y.lostFrom }
  let d := d.onF fun x => { x with banks := Tbl.set BankSt.reset x.banks b y' }
  let d := (d.set R.POOL_FREE.CELLS (d.get R.POOL_FREE.CELLS - n)).syncPool
  (d.parityError 0).orF R.DEV_EVT.EVT 1

/-- Up to n cells of a class, in order; fewer where a request is refused. -/
def Dev.allocCells (d : Dev) (c : Nat) : Nat → List Nat × Dev
  | 0 => ([], d)
  | n + 1 =>
    match d.allocCell c with
    | none => ([], d)
    | some (cell, d) =>
      let (l, d) := Dev.allocCells d c n
      (cell :: l, d)

/-- A cell back on its bank's free list. -/
def Dev.freeCell (d : Dev) (cell : Nat) : Dev :=
  let c := Tbl.get 0 d.fab.cls cell
  if c = 0 then d
  else
    let b := cell % 256
    let y := Tbl.get BankSt.reset d.fab.banks b
    let d := d.onF fun x =>
      { x with cls := Tbl.set 0 x.cls cell 0, banks := Tbl.set BankSt.reset x.banks b { y with back := y.back ++ [cell] }
               links := Tbl.set 0 x.links cell 0, descs := Tbl.set 0 x.descs cell 0 }
    let d := d.set R.POOL_FREE.CELLS (d.get R.POOL_FREE.CELLS + 1)
    let d := if c = 1 then d else d.set (bermUse (c - 1)) (d.get (bermUse (c - 1)) - 1)
    d.syncPool

/-- Cells back on their free lists. -/
def Dev.freeCells (d : Dev) (l : List Nat) : Dev := l.foldl Dev.freeCell d

/-- The link word of a cell: SOF 23, EOF 22, STOMP 21, RET 20, NEXT 19:0. -/
def Dev.link (d : Dev) (c : Nat) : Nat := Tbl.get 0 d.fab.links c

/-- The link word of a cell written. -/
def Dev.setLink (d : Dev) (c v : Nat) : Dev := d.onF fun x => { x with links := Tbl.set 0 x.links c v }

/-- The NEXT of a cell. -/
def Dev.next (d : Dev) (c : Nat) : Nat := d.link c % 2 ^ 20

/-- The NEXT of a cell written. -/
def Dev.setNext (d : Dev) (c n : Nat) : Dev := d.setLink c (putBits (d.link c) 19 0 n)

/-- The descriptor word of a cell. -/
def Dev.desc (d : Dev) (c : Nat) : Nat := Tbl.get 0 d.fab.descs c

/-- The descriptor word of a cell written. -/
def Dev.setDesc (d : Dev) (c v : Nat) : Dev := d.onF fun x => { x with descs := Tbl.set 0 x.descs c v }

/-- LENGTH, CLASS and PORT of a descriptor. -/
def descLen (v : Nat) : Nat := getBits v 127 114
def descClass (v : Nat) : Nat := getBits v 113 112
def descPort (v : Nat) : Nat := getBits v 111 104

/-- The port a drop of the frame at a cell is counted against: its ingress port; none for an engine's frame. -/
def Dev.framePort (d : Dev) (c : Nat) : Option Nat :=
  if descClass (d.desc c) = clEng then none else some (descPort (d.desc c))

/-- A descriptor word. -/
def descWord (len cls port : Nat) (stepped ct : Bool) (sec ps : Nat) : Nat :=
  len % 2 ^ 14 * 2 ^ 114 + cls * 2 ^ 112 + port % 256 * 2 ^ 104 + b2n stepped * 2 ^ 103 + b2n ct * 2 ^ 102
    + sec % 2 ^ 24 * 2 ^ 40 + ps % 2 ^ 40

/-- n cells of a list from cell c on, following NEXT. -/
def Dev.walk (d : Dev) (c : Nat) : Nat → List Nat
  | 0 => []
  | n + 1 => c :: Dev.walk d (d.next c) n

/-- The cells of the frame that begins at c, to its EOF; the last argument bounds the walk. -/
def Dev.frameCells (d : Dev) (c : Nat) : Nat → List Nat
  | 0 => []
  | n + 1 => if bit (d.link c) 22 then [c] else c :: Dev.frameCells d (d.next c) n

/-- The frames whose first cells lie among the cells of a list. -/
def Dev.framesIn (d : Dev) (l : List Nat) : List Nat := l.filter fun c => bit (d.link c) 23

/-- The cells of a frame linked one after another: SOF on the first, EOF on the last where the frame has ended. -/
def Dev.linkCells (d : Dev) (sof done : Bool) : List Nat → Dev
  | [] => d
  | [c] => d.setLink c (b2n sof * 2 ^ 23 + b2n done * 2 ^ 22)
  | c :: n :: t => Dev.linkCells (d.setLink c (b2n sof * 2 ^ 23 + n)) false done (n :: t)

/-- R284: bytes written to cells in whole words, 256 to a cell, the last word padded. -/
def Dev.fillCells (d : Dev) : List Nat → List Byte → Dev
  | [], _ => d
  | c :: t, l =>
    let ws := leWords (l.take 256 ++ List.replicate 7 0) (((l.take 256).length + 7) / 8)
    let (d, _) := ws.foldl (fun (x : Dev × Nat) w => (x.1.putWord .cell 0 0 x.2 w, x.2 + 1)) (d, 32 * c)
    Dev.fillCells d t (l.drop 256)

/-- len bytes of a frame read from its cells by a consumer, and whether a word was poisoned. -/
def Dev.frameData (d : Dev) : List Nat → Nat → List Byte × Bool × Dev
  | [], _ => ([], false, d)
  | c :: t, len =>
    let (l, p, d) := d.getBytes .cell 0 0 (256 * c) (min len 256)
    let (m, q, d) := Dev.frameData d t (len - 256)
    (l ++ m, p || q, d)

/-- The first bytes of a stored frame as the scheduler's length computation sees them; no consumer read. -/
def Dev.frameHead (d : Dev) (c n : Nat) : List Byte := d.cellS.bytes (256 * c) n

/-! Flow contexts (R157). -/

/-- A flow context by its fields. -/
structure Ctx where
  digest : Nat := 0
  ctrl : Nat := 0
  tci : Nat := 0
  allow : Nat := 0
  head : Nat := 0
  tail : Nat := 0
  onchip : Nat := 0
  sHead : Nat := 0
  sTail : Nat := 0
  pkts : Nat := 0
  bytes : Nat := 0
  sCount : Nat := 0
  tag : Nat := 0
  cookie : Nat := 0
  deriving DecidableEq, Repr

/-- The eight words of a context (R157; the digest as one 96-bit number, log 9). -/
def Ctx.words (x : Ctx) : List Nat :=
  [x.digest % 2 ^ 64, x.digest / 2 ^ 64 % 2 ^ 32 + x.ctrl % 2 ^ 32 * 2 ^ 32,
   x.tci % 2 ^ 16 + x.allow % 2 ^ 16 * 2 ^ 16 + x.head % 2 ^ 20 * 2 ^ 32, x.tail % 2 ^ 20 + x.onchip % 2 ^ 21 * 2 ^ 32,
   x.sHead % 2 ^ 28 + x.sTail % 2 ^ 28 * 2 ^ 32, x.pkts % 2 ^ 64, x.bytes % 2 ^ 64,
   x.sCount % 2 ^ 28 + x.tag % 2 ^ 16 * 2 ^ 32 + x.cookie % 2 ^ 16 * 2 ^ 48]

/-- A context from its eight words. -/
def Ctx.ofWords (l : List Nat) : Ctx :=
  let w (i : Nat) : Nat := l.getD i 0
  { digest := w 0 + getBits (w 1) 31 0 * 2 ^ 64, ctrl := getBits (w 1) 63 32, tci := getBits (w 2) 15 0, allow := getBits (w 2) 31 16,
    head := getBits (w 2) 51 32, tail := getBits (w 3) 19 0, onchip := getBits (w 3) 52 32, sHead := getBits (w 4) 27 0,
    sTail := getBits (w 4) 59 32, pkts := w 5, bytes := w 6, sCount := getBits (w 7) 27 0, tag := getBits (w 7) 47 32,
    cookie := getBits (w 7) 63 48 }

/-- CTRL.VALID, STATE, CTRL_CLASS, CT_EN, TS_MARK, EDIT, SPILLED, PUNT_ALL and DROP. -/
def Ctx.valid (x : Ctx) : Bool := bit x.ctrl 31
def Ctx.state (x : Ctx) : Nat := getBits x.ctrl 30 28
def Ctx.ctrlClass (x : Ctx) : Bool := bit x.ctrl 27
def Ctx.ctEn (x : Ctx) : Bool := bit x.ctrl 26
def Ctx.tsMark (x : Ctx) : Bool := bit x.ctrl 25
def Ctx.edit (x : Ctx) : Nat := getBits x.ctrl 24 23
def Ctx.spilled (x : Ctx) : Bool := bit x.ctrl 22
def Ctx.puntAll (x : Ctx) : Bool := bit x.ctrl 21
def Ctx.dropAll (x : Ctx) : Bool := bit x.ctrl 20

/-- STATE codes. -/
def fsActive : Nat := 1
def fsHeld : Nat := 2
def fsRemoving : Nat := 3

/-- STATE replaced. -/
def Ctx.setState (x : Ctx) (n : Nat) : Ctx := { x with ctrl := putBits x.ctrl 30 28 n }

/-- SPILLED replaced. -/
def Ctx.setSpilled (x : Ctx) (b : Bool) : Ctx := { x with ctrl := putBit x.ctrl 22 b }

/-- Flow f's context as stored; no consumer read. -/
def Dev.peekCtx (d : Dev) (f : Nat) : Ctx :=
  Ctx.ofWords ((List.range 8).map fun w => (d.flowS.read (8 * f + w)).1)

/-- R172: a flow asks the spillway for a fetch: SPILLED, with cells in DRAM and fewer than half its allowance on chip. -/
def Ctx.wants (x : Ctx) : Bool := x.spilled && x.sCount != 0 && decide (x.onchip < (x.allow + 1) / 2)

/-- R172: flow f's place among the fetch requests: the last, once it asks; none where it does not. -/
def FabSt.request (x : FabSt) (f : Nat) (want : Bool) : FabSt :=
  if want then (if x.fetchQ.contains f then x else { x with fetchQ := x.fetchQ ++ [f] }) else { x with fetchQ := x.fetchQ.filter (· != f) }

/-- Flow f's context written: the words that change, clean; its fetch request follows. -/
def Dev.putCtx (d : Dev) (f : Nat) (old new : Ctx) : Dev :=
  (((List.range 8).zip (old.words.zip new.words)).foldl
    (fun d e => if e.2.1 = e.2.2 then d else d.putWord .flow 0 0 (8 * f + e.1) e.2.2) d).onF fun x => x.request f new.wants

/-- The key of a scheduler node in the node table: level 0 port, 1 group, 2 subscriber, 3 flow. -/
def nodeKey (lvl i : Nat) : Nat := lvl * 2 ^ 20 + i

/-- Node i of a level; a port's RATE is clamped to what its lanes carry (R178). -/
def Dev.node (d : Dev) (lvl i : Nat) : Node :=
  let n := Tbl.get Node.reset d.fab.nodes (nodeKey lvl i)
  if lvl = 0 then { n with rate := min n.rate (d.portRateMax i) } else n

/-- That node changed by f. -/
def Dev.onN (d : Dev) (lvl i : Nat) (f : Node → Node) : Dev :=
  d.onF fun x => { x with nodes := Tbl.set Node.reset x.nodes (nodeKey lvl i) (f (d.node lvl i)) }

/-! The children of a node (R176). -/

/-- A list with place b changed. -/
def setAt {α : Type} (l : List α) (b : Nat) (v : α) : List α := l.set b v

/-- Child i appended to band b of a parent. -/
def Node.addKid (n : Node) (b i : Nat) : Node := { n with kids := setAt n.kids b (n.kids.getD b [] ++ [i]) }

/-- Child i taken out of band b of a parent; the pointer stays at the same child, or moves to the next where i was it. -/
def Node.delKid (n : Node) (b i : Nat) : Node :=
  let l := n.kids.getD b []
  match l.findIdx? (· == i) with
  | none => n
  | some k =>
    let p := n.ptr.getD b 0
    let l' := l.eraseIdx k
    let p' := if k < p then p - 1 else if l'.length ≤ p then 0 else p
    { n with kids := setAt n.kids b l', ptr := setAt n.ptr b p', turn := if k = p then setAt n.turn b false else n.turn }

/-- The band a child is listed in. -/
def Node.listBand (n : Node) : Nat := if n.promoted then 0 else n.band

/-- Node i of a level joins its parent's list. -/
def Dev.joinParent (d : Dev) (lvl i : Nat) : Dev :=
  let n := d.node lvl i
  d.onN (lvl - 1) n.parent fun p => p.addKid n.listBand i

/-- Node i of a level leaves its parent's list. -/
def Dev.leaveParent (d : Dev) (lvl i : Nat) : Dev :=
  let n := d.node lvl i
  d.onN (lvl - 1) n.parent fun p => p.delKid n.listBand i

/-! Dropping and retiring. -/

/-- A flow's staged frames: taken off the spill writer's queue. -/
def Dev.unstage (d : Dev) (f : Nat) : List Nat × Dev :=
  ((d.fab.stage.filter (·.1 == f)).map (·.2.1), d.onF fun x => { x with stage := x.stage.filter (·.1 != f) })

/-- The frames that begin at cells of a list dropped with a cause, their cells freed. -/
def Dev.dropList (d : Dev) (cells : List Nat) (cause port : Nat) : Dev :=
  ((d.framesIn cells).foldl (fun x _ => x.dropFrame cause (some port)) d).freeCells cells

/-- Every on-chip cell of a flow that can be reached, those staged for the spillway with them: bad is the place in the list whose link or
descriptor word fails parity, the last that counts (R161). -/
def Dev.onchipCells (d : Dev) (f : Nat) (x : Ctx) (bad : Option (Nat × Bool)) : List Nat :=
  d.walk x.head (match bad with | some (i, _) => min x.onchip (i + 1) | none => x.onchip) ++ (d.fab.stage.filter (·.1 == f)).flatMap fun s => d.walk s.2.1 s.2.2

/-- Cut-through frames still arriving that sel picks have lost their cells: what follows of them is discarded (R161, R177). -/
def Dev.killRx (d : Dev) (sel : RxFr → Bool) : Dev :=
  d.onF fun x => { x with rx := x.rx.map fun e => (e.1, e.2.map fun r => if sel r then { r with dead := true, cells := 0 } else r) }

/-- A cut-through frame of flow f that is still arriving and not selected has lost its cells. -/
def Dev.cutRx (d : Dev) (f : Nat) : Dev := d.killRx fun r => r.flow == f && !r.sel

/-- The port node above a flow (R308): the port concerned with a drop of a frame the flow holds. -/
def Dev.flowRoot (d : Dev) (f : Nat) : Nat := (d.node 1 (d.node 2 (d.node 3 f).parent).parent).parent

/-- R161, R287: a link (false) or descriptor (true) word that fails parity is counted, and the fabric's list-error source raised. -/
def Dev.listParity (d : Dev) (isDesc : Bool) : Dev := (d.parityError (b2n isDesc)).orF R.DEV_EVT.EVT 1

/-- A flow's on-chip cells dropped with a cause, its on-chip list and staging emptied. -/
def Dev.dropOnchip (d : Dev) (f : Nat) (x : Ctx) (cause : Nat) (bad : Option (Nat × Bool) := none) : Dev × Ctx :=
  let bad := bad.filter fun b => decide (b.1 < x.onchip)
  let d := d.dropList (d.onchipCells f x bad) cause (d.flowRoot f)
  let d := match bad with
    | some b => d.listParity b.2
    | none => d
  (((d.unstage f).2).cutRx f, { x with onchip := 0, head := 0, tail := 0 })

/-! The spill region's chunks (R170, R286). -/

/-- Chunk n of the region, if in use. -/
def Dev.chunk (d : Dev) (n : Nat) : Option Chunk := Tbl.get none d.fab.chunks n

/-- Chunk n replaced. -/
def Dev.setChunk (d : Dev) (n : Nat) (c : Option Chunk) : Dev := d.onF fun x => { x with chunks := Tbl.set none x.chunks n c }

/-- The chunks the region holds. -/
def Dev.regionChunks (d : Dev) : Nat := d.get R.SPILL_CTRL.SIZE_GIB * 262144

/-- SPILL_CHUNKS.FREE follows the chunks in use. -/
def Dev.syncChunks (d : Dev) : Dev := d.set R.SPILL_CHUNKS.FREE (d.regionChunks - d.fab.chunks.length)

/-- The place after a slot of a chunk: the next slot, or slot 0 of the next chunk. -/
def Dev.spillNext (d : Dev) (pos : Nat) : Nat :=
  if pos % 16 = 14 then ((d.chunk (pos / 16)).getD {}).next * 16 else pos + 1

/-- n places of a flow's DRAM tail from a place on. -/
def Dev.spillWalk (d : Dev) (pos : Nat) : Nat → List Nat
  | 0 => []
  | n + 1 => pos :: Dev.spillWalk d (d.spillNext pos) n

/-- The link flags of a place: bit 0 SOF, bit 1 EOF, bit 2 STOMP. -/
def Dev.spillFlags (d : Dev) (pos : Nat) : Nat := Tbl.get 0 ((d.chunk (pos / 16)).getD {}).flags (pos % 16)

/-- R286: with no cell left in the region every chunk is free. -/
def Dev.emptyRegion (d : Dev) : Dev :=
  if d.get R.SPILL_STATUS.CELLS = 0 then (d.onF fun x => { x with chunks := [] }).syncChunks else d

/-- The frames that begin among places of the region. -/
def Dev.spillFrames (d : Dev) (l : List Nat) : Nat := (l.filter fun p => bit (d.spillFlags p) 0).length

/-- A list without the frame at its end, whose first element is the last that begins one. -/
def dropTorn (begins : Nat → Bool) (l : List Nat) : List Nat := ((l.reverse.dropWhile fun c => !begins c).drop 1).reverse

/-- The frame at the end of a flow's on-chip list, whose rest is lost, dropped (log 115). -/
def Dev.dropTornCells (d : Dev) (x : Ctx) : Dev × Ctx :=
  let l := d.walk x.head x.onchip
  let keep := dropTorn (fun c => bit (d.link c) 23) l
  (d.freeCells (l.drop keep.length),
    { x with onchip := keep.length, tail := keep.getLastD 0, head := if keep.isEmpty then 0 else x.head })

/-- R286: the flow's DRAM cells from the k-th on discarded: their frames counted in SPILL_LOST, their cells subtracted. A frame that began
before them goes with them (DESIGN CHOICE, log 115). -/
def Dev.discardFrom (d : Dev) (x : Ctx) (k : Nat) : Dev × Ctx :=
  let l := d.spillWalk x.sHead x.sCount
  match l.drop k with
  | [] => (d, x)
  | p :: _ =>
    let begins (q : Nat) : Bool := bit (d.spillFlags q) 0
    let keep := if begins p then l.take k else dropTorn begins (l.take k)
    let onChip := !begins p && !(l.take k).any begins && x.onchip != 0 && !bit (d.link x.tail) 22
    let n := d.spillFrames (l.drop keep.length) + b2n onChip
    let d := ((d.inc R.SPILL_LOST.COUNT n).bump 7188 n).memEvt 128
    let d := (d.set R.SPILL_STATUS.CELLS (d.get R.SPILL_STATUS.CELLS - (x.sCount - keep.length))).emptyRegion
    let x := { x with sCount := keep.length, sHead := if keep.isEmpty then 0 else x.sHead, sTail := keep.getLastD 0 }
    if onChip then d.dropTornCells x else (d, x)

/-- R286: the whole of a flow's DRAM tail discarded. -/
def Dev.discardTail (d : Dev) (x : Ctx) : Dev × Ctx := d.discardFrom x 0

/-- A flow's DRAM cells dropped with REMOVE_FLUSH, its chunks freed. -/
def Dev.flushTail (d : Dev) (f : Nat) (x : Ctx) : Dev × Ctx :=
  let l := d.spillWalk x.sHead x.sCount
  let n := d.spillFrames l
  let d := (List.range n).foldl (fun d _ => d.dropFrame dcREMOVE_FLUSH (some (d.flowRoot f))) d
  let d := d.onF fun y => { y with chunks := y.chunks.filter fun e => !(l.map (· / 16)).contains e.1 }
  let d := (d.set R.SPILL_STATUS.CELLS (d.get R.SPILL_STATUS.CELLS - x.sCount)).syncChunks
  (d.emptyRegion, { x with sCount := 0, sHead := 0, sTail := 0 })

/-- A flow's context cleared to FREE and its node no longer valid (R166, R285). -/
def Dev.clearFlow (d : Dev) (f : Nat) : Dev :=
  let d := ((List.range 8).foldl (fun d w => d.putWord .flow 0 0 (8 * f + w) 0) d).onF fun x => x.request f false
  if (d.node 3 f).valid then
    let d := (d.leaveParent 3 f).onN 3 f fun n => { n with valid := false, promoted := false }
    (d.set R.FL_STATUS.FLOWS (d.get R.FL_STATUS.FLOWS - 1)).bump (Ctr.fab 7)
  else d

/-- R285: a flow retired. -/
def Dev.retire (d : Dev) (f w : Nat) (x : Ctx) : Dev :=
  let d := if (d.node 3 f).valid then
    let (d, x) := d.dropOnchip f x dcREMOVE_FLUSH
    (d.discardTail x).1
  else d
  ((d.setReg (A.ECC_LAST_LO 1) (8 * f + w)).setReg (A.ECC_LAST_HI 1) (2 ^ 31 + 2 ^ 30)).clearFlow f

/-- R285: words w, w + 1, … of flow f's context read by the fabric: none once a poisoned word has retired the flow. A poisoned PKTS
or BYTES word restarts at 0. -/
def Dev.ctxWords (d : Dev) (f w : Nat) : Nat → Option (List Nat) × Dev
  | 0 => (some [], d)
  | n + 1 =>
    let (v, bad, d) := d.readWord .flow 0 0 (8 * f + w)
    if bad ∧ (w = 5 ∨ w = 6) then
      let d := (d.setReg (A.ECC_LAST_LO 1) (8 * f + w)).setReg (A.ECC_LAST_HI 1) (2 ^ 31 + 2 ^ 30)
      let (l, d) := Dev.ctxWords (d.putWord .flow 0 0 (8 * f + w) 0) f (w + 1) n
      (l.map (0 :: ·), d)
    else if bad then (none, d.retire f w (d.peekCtx f))
    else
      let (l, d) := Dev.ctxWords d f (w + 1) n
      (l.map (v :: ·), d)

/-- Flow f's context as the fabric reads it: none where it holds no valid flow. -/
def Dev.ctx (d : Dev) (f : Nat) : Option Ctx × Dev :=
  let (l, d) := d.ctxWords f 0 8
  (match l with
   | some l => if (Ctx.ofWords l).valid then some (Ctx.ofWords l) else none
   | none => none, d)

/-! Frames still arriving (R159, R160). -/

/-- The frame still arriving on a port. -/
def Dev.rxOpen (d : Dev) (port : Nat) : Option RxFr := Tbl.get none d.fab.rx port

/-- R158, R160: what follows of a cut-through frame has gone wrong. Where it was selected, egress ends it with a corrupted FCS: STOMP is set on
the last cell it has (DEDUCED, log 109); otherwise it is dropped and its cells are freed. -/
def Dev.ctFail (d : Dev) (port : Nat) (r : RxFr) (cause : Nat) : Dev :=
  let d := d.onF fun s => { s with rx := Tbl.set none s.rx port none }
  if r.dead then d
  else if r.sel then
    (d.setLink r.last (putBit (d.link r.last) 21 true)).onF fun s => { s with egr := s.egr.map fun e =>
      (e.1, e.2.map fun g => if g.first = r.first then { g with open_ := false, cells := r.cells } else g) }
  else
    match d.ctx r.flow with
    | (none, d) => (d.dropFrame cause (some port)).freeCells (d.walk r.first r.cells)
    | (some x, d) =>
      let d := d.dropFrame cause (some port)
      let rest := x.onchip - r.cells
      let y := { x with onchip := rest, head := if rest = 0 then 0 else d.next r.last, tail := if rest = 0 then 0 else x.tail }
      (d.putCtx r.flow x y).freeCells (d.walk r.first r.cells)

/-- R104, R105: the port leaves UP, DESKEW or MARKER: a frame in progress on it ends in error, with the cause of a frame whose codewords
failed (DESIGN CHOICE, log 110). -/
def Dev.cutFrames (d : Dev) (port : Nat) : Dev :=
  match d.rxOpen port with
  | some r => d.ctFail port r dcCODEWORD
  | none => d

/-! Lookup (R154). -/

/-- The two keys of HASH_KEY. -/
def Dev.hashKey (d : Dev) (w : Nat) : DWord := BitVec.ofNat 64 (d.reg (A.HASH_KEY w) + d.reg (A.HASH_KEY (w + 1)) * 2 ^ 32)

/-- R154: the two hashes of a key record. -/
def Dev.hashes (d : Dev) (key : List Byte) : Nat × Nat :=
  ((sipHash (d.hashKey 0) (d.hashKey 2) key).toNat, (sipHash (d.hashKey 4) (d.hashKey 6) key).toNat)

/-- R154: the bucket and the digest of a pair of hashes. -/
def bucketOf (h : Nat × Nat) : Nat := h.1 % 2 ^ 18
def digestOf (h : Nat × Nat) : Nat := h.1 / 2 ^ 32 * 2 ^ 64 + h.2

/-- The ways from w on of a bucket searched for a digest, n of them. -/
def Dev.searchWays (d : Dev) (f digest : Nat) : Nat → Option Nat × Dev
  | 0 => (none, d)
  | n + 1 =>
    let (l, d) := d.ctxWords f 0 2
    match l with
    | some l =>
      let x := Ctx.ofWords l
      if x.valid && x.digest == digest then (some f, d) else Dev.searchWays d (f + 1) digest n
    | none => Dev.searchWays d (f + 1) digest n

/-- R154: the flow a key record hits. -/
def Dev.lookup (d : Dev) (h : Nat × Nat) : Option Nat × Dev := d.searchWays (4 * bucketOf h) (digestOf h) 4

/-! The list of a flow. -/

/-- A frame linked at the tail of a flow's on-chip list. -/
def Dev.linkTail (d : Dev) (x : Ctx) (first last n : Nat) : Dev × Ctx :=
  if x.onchip = 0 then (d, { x with head := first, tail := last, onchip := n })
  else (d.setNext x.tail first, { x with tail := last, onchip := x.onchip + n })

/-- A frame linked at the head. -/
def Dev.linkHead (d : Dev) (x : Ctx) (first last n : Nat) : Dev × Ctx :=
  if x.onchip = 0 then (d, { x with head := first, tail := last, onchip := n })
  else (d.setNext last x.head, { x with head := first, onchip := x.onchip + n })

/-- PKTS and BYTES of a frame linked into the flow (R157). -/
def Ctx.counted (x : Ctx) (len : Nat) : Ctx :=
  { x with pkts := satAdd (2 ^ 64 - 1) x.pkts 1, bytes := satAdd (2 ^ 64 - 1) x.bytes len }

/-! Paths and ports (R175, R177). -/

/-- Node i of a level is VALID: a port where the octet's split makes it one. -/
def Dev.nodeValid (d : Dev) (lvl i : Nat) : Bool :=
  if lvl = 0 then decide (i < 256) && (d.slots (i / 8)).contains (i % 8) else (d.node lvl i).valid

/-- The port at the root of a flow's path, where every ancestor is VALID. -/
def Dev.pathPort (d : Dev) (f : Nat) : Option Nat :=
  let s := (d.node 3 f).parent
  let g := (d.node 2 s).parent
  let p := (d.node 1 g).parent
  if (d.node 3 f).valid && d.nodeValid 2 s && d.nodeValid 1 g && d.nodeValid 0 p then some p else none

/-- R171, R174: what admission says of a frame of n cells for a flow: linked on chip, spilled, or dropped with a cause. -/
inductive Fate where
  | link | spill | drop (cause : Nat) (port : Option Nat)
  deriving DecidableEq, Repr

/-- The cells waiting for the spill writer. -/
def Dev.staged (d : Dev) : Nat := d.fab.stage.foldl (fun n s => n + s.2.2) 0

/-- The chunks the staged frames can still need. -/
def Dev.promised (d : Dev) : Nat := d.fab.stage.foldl (fun n s => n + (s.2.2 + 14) / 15) 0

/-- R171: a frame of this flow takes the spill path. -/
def Dev.spills (d : Dev) (x : Ctx) : Bool := x.spilled || (d.on R.SPILL_CTRL.EN && decide (x.allow ≤ x.onchip))

/-- R175, R177: the cause and port with which a frame for flow f is dropped whatever its size and place in the list. -/
def Dev.barredPath (d : Dev) (f : Nat) : Option (Nat × Option Nat) :=
  match d.pathPort f with
  | none => some (dcNO_PATH, none)
  | some p =>
    if (d.p (p / 8)).test then some (dcOCTET_TEST, some p)
    else if d.fab.flushed.contains p then some (dcPORT_FLUSH, some p)
    else none

/-- R175, R177, R171, R174: admission of a frame of n cells to flow f. -/
def Dev.fate (d : Dev) (f : Nat) (x : Ctx) (n : Nat) : Fate :=
  match d.barredPath f with
  | some (cause, p) => .drop cause p
  | none =>
    if d.spills x then
      if d.get R.SPILL_CTRL.STAGE_LIM * 1024 < d.staged then .drop dcSPILL_BW none
      else if d.get R.SPILL_CHUNKS.FREE < d.promised + (n + 14) / 15 then .drop dcSPILL_FULL none
      else if 2 ^ d.get R.SPILL_CTRL.FLOW_CAP_EXP < x.sCount + n then .drop dcFLOW_CAP none
      else .spill
    else .link

/-- A frame whose cells are written joins flow f at the tail: on chip or queued for the spill writer. -/
def Dev.joinFlow (d : Dev) (f : Nat) (x : Ctx) (spill : Bool) (cells : List Nat) (len : Nat) : Dev :=
  let first := cells.headD 0
  let y := x.counted len
  if spill then
    let d := (d.onF fun s => { s with stage := s.stage ++ [(f, first, cells.length)] }).bump (Ctr.fab 4)
    let d := match d.framePort first with
      | some p => d.bump (Ctr.port p 13)
      | none => d
    d.putCtx f x (y.setSpilled true)
  else
    let (d, y) := d.linkTail y first (cells.getLastD 0) cells.length
    d.putCtx f x y

end Sys2Proof.Machine
end

