-- ==== Sys2Proof/Machine/RxPath.lean ====
section
/-! DEFINITION. The receive data path of a lane (R41, R43, R53, R55, R58 to R64): what one L-cycle's converter codes do, symbol by symbol. -/

namespace Sys2Proof.Machine

/-! Samples to decisions, as functions of numbers. -/

/-- R41: the corrected sample, in 1/524,288 code, of raw code x. -/
def sampleOf (offset gain x : Int) : Int := (32 * x - offset) * (14336 + gain)

/-- The unit of corrected samples: 1 code. -/
def codeUnit : Nat := 524288

/-- R43: the PAM4 level of a corrected sample, by three thresholds from low to high. -/
def classify (thr : List Int) (y : Int) : Nat := (thr.filter fun t => decide (t ≤ y)).length

/-- R53: the sum of taps over samples, both in tap order. -/
def fir (taps ys : List Int) : Int := (List.zipWith (· * ·) taps ys).foldl (· + ·) 0

/-- R53: tap t multiplies the sample at n + CURSOR − t, where ys, newest first, begins at n + 47. -/
def tapData (cursor : Nat) (ys : List Int) : List Int := ys.drop (47 - cursor)

/-- R53: the output of a bank, saturated at ±511. Taps are in 1/256; the unit of the output is the code (log 95). -/
def ffe (taps : List Int) (cursor : Nat) (ys : List Int) : Int :=
  clampI (-511) 511 (openDiv 1 (fir taps (tapData cursor ys)) (256 * codeUnit))

/-- R55: the mixture at symbol j of a fade of 2^k symbols; past its end, the target bank alone. -/
def fadeMix (k j : Nat) (yF yT : Int) : Int :=
  if 2 ^ k ≤ j then yT else openDiv 2 ((2 ^ k - (j + 1)) * yF + (j + 1) * yT) (2 ^ k)

/-- R58: v lies above threshold t. -/
def above (t v : Int) : Bool := decide (t < v) || (t == v && Config.tieUp t)

/-- R58: the level 0 to 3 decided for v. -/
def slice (thr : List Int) (v : Int) : Nat := (thr.filter fun t => above t v).length

/-- The PAM4 amplitude −3, −1, +1, +3 of level i. -/
def amp (i : Nat) : Int := 2 * i - 3

/-- R58: the Gray mapping of level i: 00, 01, 11, 10 from the lowest. -/
def gray (i : Nat) : List Int := [b2n (decide (2 ≤ i)), b2n (decide (i = 1 ∨ i = 2))]

/-- R59: the four candidate decisions, by previous amplitude −3, −1, +1, +3. -/
def dfeCandidates (thr : List Int) (h1 : Nat) (z : Int) : List Nat :=
  [-3, -1, 1, 3].map fun a => slice (thr.map (4 * ·)) (4 * z - h1 * a)

/-- R59: the candidate the previous decision names. -/
def dfeSelect (cs : List Nat) (a1 : Int) : Nat := cs.getD ((a1 + 3) / 2).toNat 0

/-- R60: twice the partial-response target for the amplitudes of a symbol and the two before it. -/
def mlseTarget (h1 h2 a a1 a2 : Int) : Int := 128 * a + h1 * a1 + h2 * a2

/-- The lesser of two metrics; none is no path. -/
def minO : Option Nat → Option Nat → Option Nat
  | some a, some b => some (min a b)
  | some a, none => some a
  | none, b => b

/-- R60: one step of the 16-state trellis: the metrics of states (aₙ₋₁, aₙ₋₂), 4 * level + level, extended by output z over the levels
allowed, with squared Euclidean branch metrics (in 1/4 output unit²). -/
def mlseStep (h1 h2 : Int) (ok : Nat → Bool) (z : Int) (m : List (Option Nat)) : List (Option Nat) :=
  (List.range 16).map fun s =>
    if ok (s / 4) then
      (List.range 4).foldl (fun best l =>
        minO best ((m.getD (4 * (s % 4) + l) none).map (· + (2 * z - mlseTarget h1 h2 (amp (s / 4)) (amp (s % 4)) (amp l)).natAbs ^ 2))) none
    else none

/-- R60: the metric of the best path through a block of outputs, oldest first, whose symbol j has a level allowed by ok. -/
def mlseBest (h1 h2 : Int) (zs : List Int) (j : Nat) (ok : Nat → Bool) : Option Nat :=
  let last := zs.foldl (fun (p : Nat × List (Option Nat)) z =>
    (p.1 + 1, mlseStep h1 h2 (if p.1 = j then ok else fun _ => true) z p.2)) (0, List.replicate 16 (some 0))
  last.2.foldl minO none

/-- R61: a 6-bit log-likelihood ratio from a signed distance, positive for a 1 (log 94). -/
def llr (site mse : Nat) (v : Int) : Int :=
  let m := min 31 (Config.llrMag site v.natAbs mse)
  if v < 0 then - (m : Int) else m

/-- R61: Mode M: the ratios of the two bits of a symbol from the distance of z to the nearest threshold of each. -/
def llrM (thr : List Int) (mse : Nat) (z : Int) : List Int :=
  [llr 0 mse (z - thr.getD 1 0), llr 0 mse (min (z - thr.getD 0 0) (thr.getD 2 0 - z))]

/-- R61: Mode L: the max-log metric differences of the two bits of the symbol in the middle of a block of 97 outputs, oldest first:
48 before it and the survivor depth of 48 after it (log 94). -/
def llrL (h1 h2 : Int) (mse : Nat) (zs : List Int) : List Int :=
  [0, 1].map fun b =>
    let best (v : Int) := ((mlseBest h1 h2 zs 48 fun i => (gray i).getD b 0 == v).getD 0 : Int)
    llr 1 mse (best 0 - best 1)

/-! Patterns (R84). Bits of a history are newest first. -/

/-- The next bit of PRBS13, x¹³ + x¹² + x² + x + 1 (PRESUMED from IEEE 802.3, log 99). -/
def prbs13 (h : List Bool) : Bool := [0, 1, 11, 12].foldl (fun b i => b ^^ h.getD i false) false

/-- The next bit of PRBS31, x³¹ + x²⁸ + 1, inverted (PRESUMED from IEEE 802.3, log 99). -/
def prbs31 (h : List Bool) : Bool := !(h.getD 27 false ^^ h.getD 30 false)

/-- R84: the next bit pair of pattern 1 PRBS13Q, 2 PRBS31Q, 3 the square wave: eight symbols at level 0, eight at level 3. -/
def patPair (pat : Nat) (h : List Bool) : Bool × Bool :=
  if pat = 1 then let a := prbs13 h; (a, prbs13 (a :: h))
  else if pat = 2 then let a := prbs31 h; (a, prbs31 (a :: h))
  else (!h.getD 15 false, false)

/-- A history with a pair, first bit first, added; 31 bits are kept. -/
def patPush (p : Bool × Bool) (h : List Bool) : List Bool := (p.2 :: p.1 :: h).take 31

/-- R58: the level of a Gray-coded bit pair. -/
def levelOf (p : Bool × Bool) : Nat := if p.1 then (if p.2 then 2 else 3) else (if p.2 then 1 else 0)

/-- The bit pair of a level (R58). -/
def pairOf (i : Nat) : Bool × Bool := (decide (2 ≤ i), decide (i = 1 ∨ i = 2))

/-! One symbol. -/

/-- What the registers of a lane set for its data path. -/
structure RxCfg where
  coef : List (Int × Int)          -- OFFSET and GAIN of entries 0 to 64
  served : Option Nat              -- the slice whose positions the spare delivers
  spareAt : Option Nat             -- the slice at whose instant it calibrates
  down : Bool                      -- that slice is powered down
  inc : List Nat                   -- slices whose positions are included
  meas : Bool                      -- a calibration window runs
  taps : List Int                  -- the bank in use and the bank faded to
  cursor : Nat
  tapsT : List Int
  cursorT : Nat
  fade : Option Nat                -- FADE_K of a running fade
  thr : List Int
  mode : Nat
  dfe : Option Nat                 -- H1 while the DFE is on
  h1 : Int                         -- MLSE
  h2 : Int
  mse : Nat
  lms : Bool                       -- the LMS is not frozen
  chk : Nat                        -- PAT_CTRL.CHK and SYNC
  sync : Bool
  eye : Option (Nat × Rat × Nat)   -- a running scan: THR, its boundary in codes, 2^DWELL (R85)
  loop : Nat                       -- LB_STATUS.ACTIVE

/-- The entry that delivers position p. -/
def RxCfg.entry (c : RxCfg) (p : Nat) : Nat := if c.served = some (p % 64) then 64 else p % 64

/-- The entries that convert position p beside it (R50, R51). -/
def RxCfg.others (c : RxCfg) (p : Nat) : List Nat :=
  (if c.spareAt = some (p % 64) ∧ c.served ≠ some (p % 64) then [64] else [])
    ++ (if c.served = some (p % 64) ∧ !c.down then [p % 64] else [])

/-- The corrected sample of entry e at position p. -/
def RxCfg.sample (c : RxCfg) (w : LaneWord) (e p : Nat) : Int :=
  let x := if e = 64 then w.spare.getD (p / 64) 0 else w.x.getD p 0
  let k := c.coef.getD e (0, 2048)
  sampleOf k.1 k.2 x.toInt

/-- A sum of a table raised by v. -/
def Tbl.addI (t : Tbl Int) (k : Nat) (v : Int) : Tbl Int := Tbl.set 0 t k (Tbl.get 0 t k + v)

/-- A count of a table raised by 1. -/
def Tbl.count (t : Tbl Nat) (k : Nat) : Tbl Nat := Tbl.set 0 t k (Tbl.get 0 t k + 1)

/-- R43: sample y of entry e counts at its level, with the sample before it. -/
def CalAcc.take (a : CalAcc) (thr : List Int) (e : Nat) (y : Int) (before : Option Int) : CalAcc :=
  let k := 4 * e + classify thr y
  let a := { a with n := Tbl.count a.n k, sum := Tbl.addI a.sum k y }
  match before with
  | some b => { a with cm := Tbl.addI a.cm e (y * b), cmN := Tbl.count a.cmN e }
  | none => a

/-- R43: sample y follows sample b of entry e. -/
def CalAcc.follow (a : CalAcc) (e : Nat) (b y : Int) : CalAcc :=
  { a with cp := Tbl.addI a.cp e (b * y), cpN := Tbl.count a.cpN e }

/-- R43: position p of a lane word adds to the statistics of the window. -/
def RxCfg.measure (c : RxCfg) (w : LaneWord) (p : Nat) (x : RxSt) (a : CalAcc) : CalAcc :=
  let e := c.entry p
  let y := c.sample w e p
  let a := a.take w.thr e y x.ys.head?
  let a := (c.others p).foldl (fun a e => a.take w.thr e (c.sample w e p) x.ys.head?) a
  let a := match x.ys.head? with
    | some b => a.follow (c.entry ((p + 127) % 128)) b y
    | none => a
  let a := x.alt.foldl (fun a s => a.follow s.1 s.2 y) a
  let a := if c.inc.contains (p % 64) then { a with p0 := a.p0 + y * y, p0N := a.p0N + 1 } else a
  match x.ys with
  | _ :: b :: _ => if c.inc.contains ((p + 126) % 64) then { a with p2 := a.p2 + b * y, p2N := a.p2N + 1 } else a
  | _ => a

/-- R53, R55: the equaliser output for samples ys. -/
def RxCfg.output (c : RxCfg) (x : RxSt) (ys : List Int) : Int :=
  let z := ffe c.taps c.cursor ys
  match c.fade with
  | some k => fadeMix k x.fadeAt z (ffe c.tapsT c.cursorT ys)
  | none => z

/-- R58, R59: the level decided for output z. -/
def RxCfg.level (c : RxCfg) (x : RxSt) (z : Int) : Nat :=
  match c.dfe with
  | some h => dfeSelect (dfeCandidates c.thr h z) x.a1
  | none => slice c.thr z

/-- R62: twice the error of a decision: the output minus the target level, in Mode L minus the MLSE model for the decisions. -/
def RxCfg.error (c : RxCfg) (x : RxSt) (z a : Int) : Int :=
  2 * z - (if c.mode = 2 then mlseTarget c.h1 c.h2 a x.a1 x.a2 else 128 * a)

/-- R62: the error-times-data products of one symbol added. -/
def GradAcc.add (q : GradAcc) (c : RxCfg) (ys : List Int) (e a a1 a2 : Int) : GradAcc :=
  let data := tapData c.cursor ys
  { taps := (List.range 48).map fun t => q.taps.getD t 0 + e * data.getD t 0,
    rest := (List.range 6).map fun i => q.rest.getD i 0 + if e = 0 then 0 else e * Config.lmsData i a a1 a2 }

/-- R61: what the decision stage passes on for output z decided as level i, outputs zs newest first. -/
def RxCfg.pass (c : RxCfg) (z : Int) (i : Nat) (zs : List Int) : List Int :=
  if c.mode = 0 then gray i
  else if c.mode = 1 then llrM c.thr c.mse z
  else if zs.length = 97 then llrL c.h1 c.h2 c.mse zs.reverse
  else []

/-- R84: the checker takes the pair of one decided level. -/
def RxCfg.check (c : RxCfg) (x : RxSt) (i : Nat) : RxSt :=
  if c.chk = 0 then x
  else
    let want := patPair c.chk x.chk
    let e := b2n (want.1 ^^ (pairOf i).1) + b2n (want.2 ^^ (pairOf i).2)
    if c.sync then { x with chk := patPush want x.chk, chkBits := x.chkBits + 2, chkErr := x.chkErr + e }
    else { x with chk := patPush (pairOf i) x.chk, chkRun := if e = 0 then x.chkRun + 1 else 0 }

/-- R85: the scan's comparisons one symbol on: those 47 symbols old meet the main decision i, and position p is sampled if it is its turn. -/
def RxCfg.scan (c : RxCfg) (w : LaneWord) (p : Nat) (x : RxSt) (i : Nat) : RxSt :=
  match c.eye with
  | none => x
  | some (v, b, n) =>
    let q := x.eyeQ.map fun e => (e.1 - 1, e.2)
    let due := q.filter (·.1 == 0)
    let bad := due.filter fun e => e.2 != decide (v < i)
    let x := { x with eyeQ := q.filter (·.1 != 0), eyeN := x.eyeN + due.length, eyeErr := x.eyeErr + bad.length }
    if p % 64 = x.eyeAt ∧ x.eyeN + x.eyeQ.length < n then
      let y := mkRat (c.sample w 64 p) codeUnit
      { x with eyeQ := x.eyeQ ++ [(47, decide (b < y) || (decide (b = y) && Config.tieUp 0))] }
    else x

/-- One symbol through stages 2 to 5: corrected sample y; p is its position. The output formed is that of the symbol 47 before it. -/
def RxCfg.symbol (c : RxCfg) (w : LaneWord) (p : Nat) (x : RxSt) : RxSt :=
  let y := c.sample w (c.entry p) p
  let ys := (y :: x.ys).take 95
  let z := c.output x ys
  let zs := (z :: x.zs).take 97
  let i := c.level x z
  let a := amp i
  let e := c.error x z a
  let x := c.scan w p (if c.loop = 2 then x else c.check x i) i
  { x with
    ys, zs,
    alt := (c.others p).map fun e => (e, c.sample w e p),
    fadeAt := x.fadeAt + 1,
    a1 := a, a2 := x.a1,
    grad := if c.lms ∧ (p + 81) % 128 = x.pos then x.grad.add c ys e a x.a1 x.a2 else x.grad,
    sse := x.sse + e.natAbs ^ 2, sseN := x.sseN + 1,
    out := x.out ++ c.pass z i zs, dec := x.dec ++ [i] }

/-- One L-cycle: the 128 positions in order; the positions of the LMS and of the scan advance (R62, R85). -/
def RxCfg.word (c : RxCfg) (s : RxSt × CalAcc) (w : LaneWord) : RxSt × CalAcc :=
  let s := (List.range 128).foldl (fun (s : RxSt × CalAcc) p =>
    (c.symbol w p s.1, if c.meas then c.measure w p s.1 s.2 else s.2)) ({ s.1 with out := [], dec := [] }, s.2)
  ({ s.1 with pos := (s.1.pos + 1) % 128, eyeAt := (s.1.eyeAt + 1) % 64 }, s.2)

/-- R82: levels looped from transmit stage 1: what stage 7 or the inner decoder receives, and the checker, take them. -/
def RxCfg.looped (c : RxCfg) (x : RxSt) (l : List Nat) : RxSt :=
  let full (b : Int) : Int := if c.mode = 0 then b else if b = 0 then -31 else 31
  { l.foldl c.check x with dec := l, out := (l.map gray).flatten.map full }

/-- One L-cycle of a lane; in near-end parallel loopback the levels sent take the decisions' place; in the far-end loop the decisions enter
its store of four words (R82). -/
def RxCfg.lane (c : RxCfg) (x : LaneSt) (w : LaneWord) : LaneSt :=
  let front := x.tx.loop.headD (List.replicate 128 0)
  let tx := { x.tx with loop := x.tx.loop.tail }
  let (rx, acc) := c.word (x.rx, x.acc) w
  if c.loop = 1 then { x with rx, acc, tx }
  else
    if c.loop = 2 then { x with rx := c.looped rx (front.map Int.toNat), acc, tx }
    else if c.loop = 3 then
      let far := rx.far ++ [rx.dec]
      { x with rx := { rx with far := far.drop (far.length - 4) }, acc }
    else { x with rx, acc }

/-! The statistics of a window. -/

/-- What a window measured of one entry (R43): samples at each level, mean corrected sample at each level in codes, C⁺ and C⁻ in
codes². -/
structure SliceStat where
  n : List Nat
  m : List Rat
  cp : Rat
  cm : Rat
  deriving DecidableEq, Repr

/-- A sum in 1/524,288 code divided by a count. -/
def mean1 (s : Int) (n : Nat) : Rat := mkRat s (n * codeUnit)

/-- A sum of products divided by a count. -/
def mean2 (s : Int) (n : Nat) : Rat := mkRat s (n * codeUnit ^ 2)

/-- The statistics of entry e. -/
def CalAcc.of (a : CalAcc) (e : Nat) : SliceStat :=
  { n := (List.range 4).map fun v => Tbl.get 0 a.n (4 * e + v),
    m := (List.range 4).map fun v => mean1 (Tbl.get 0 a.sum (4 * e + v)) (Tbl.get 0 a.n (4 * e + v)),
    cp := mean2 (Tbl.get 0 a.cp e) (Tbl.get 0 a.cpN e),
    cm := mean2 (Tbl.get 0 a.cm e) (Tbl.get 0 a.cmN e) }

/-- R43: the correlation slope K and P₀ of the window. -/
def CalAcc.p0Mean (a : CalAcc) : Rat := mean2 a.p0 a.p0N
def CalAcc.slope (a : CalAcc) : Rat := a.p0Mean - mean2 a.p2 a.p2N

/-- Mean corrected sample at level v. -/
def SliceStat.mean (x : SliceStat) (v : Nat) : Rat := x.m.getD v 0

/-- Outer spread of an entry. -/
def SliceStat.spread (x : SliceStat) : Rat := x.mean 3 - x.mean 0

/-- R43: the average over positions, given as slice and the entry that delivers it, of a quantity of the entries. -/
def CalAcc.avg (a : CalAcc) (inc : List (Nat × Nat)) (f : SliceStat → Rat) : Rat :=
  inc.foldl (fun t p => t + f (a.of p.2)) 0 / (inc.length : Int)

/-- R64: the mean squared error of a block in 1/16 output unit²; 0 for one without a symbol. -/
def RxSt.mse (x : RxSt) : Nat := if x.sseN = 0 then 0 else (openDiv 3 (4 * x.sse) x.sseN).toNat

end Sys2Proof.Machine
end

