-- ==== Sys2Proof/Machine/Filter.lean ====
section
/-! DEFINITION. The decimator that the Tideline receiver and the monitor's filter chains share (R129, R261). -/

namespace Sys2Proof.Machine

/-- A third-order wrap-around integrating decimator of bits-wide registers takes sample x (two's complement in the registers): every
ratio-th sample gives an output. The integrators add in turn within the sample, and the combs at the output rate. -/
def Cic.step (s : Cic) (bits ratio : Nat) (x : Int) : Option Int × Cic :=
  let w (i : Int) : Nat := ofS bits i
  let i1 := w (s.i1 + x)
  let i2 := w (s.i2 + i1)
  let i3 := w (s.i3 + i2)
  if ratio ≤ s.n + 1 then
    let d1 := w ((i3 : Int) - s.c1)
    let d2 := w ((d1 : Int) - s.c2)
    let d3 := w ((d2 : Int) - s.c3)
    (some (toS bits d3), { i1, i2, i3, c1 := i3, c2 := d1, c3 := d2, n := 0 })
  else (none, { s with i1, i2, i3, n := s.n + 1 })

end Sys2Proof.Machine
end

