-- ==== Sys2Proof/Machine/TlPath.lean ====
section
/-! DEFINITION. The Tideline data path (R124 to R126, R129, R131, R133 to R138): the chips and symbols of a frame, the subcarrier, the payload
code and its decoder, envelope and despreading. -/

namespace Sys2Proof.Machine

/-! Codes (R124, R135, R136, R138). -/

/-- CRC-8 with x^8 + x^2 + x + 1 and initial value 0 over the low n bits of v, most significant first. -/
def crc8 (v : Nat) : Nat → Nat
  | n => (List.range n).foldl (fun c i =>
      let t := (c / 128 % 2) != b2n (bit v (n - 1 - i))
      (if t then (c * 2 % 256) ^^^ 7 else c * 2 % 256)) 0

/-- R124: the first n bits a(0), a(1), … of the chip sequence of a seed, oldest first. -/
def chipBits (seed : Nat) : Nat → List Bool
  | 0 => []
  | n + 1 =>
    let l := chipBits seed n
    let b := if n < 8 then bit seed (7 - n)
      else (l.getD (n - 4) false) ^^ (l.getD (n - 5) false) ^^ (l.getD (n - 6) false) ^^ (l.getD (n - 8) false)
    l ++ [b]

/-- R124: the seeds of the spreading factors. -/
def sfSeed (sf : Nat) : Nat := [0x1D, 0x4B, 0x72, 0xA6, 0xE1].getD sf 0

/-- R138: the CRC-32 of IEEE 802.3 over the low n bits of v, most significant first; coefficient of x^31 most significant. -/
def crc32 (v n : Nat) : Nat :=
  ((List.range n).foldl (fun c i =>
    let t := bit c 31 != bit v (n - 1 - i)
    if t then (c * 2 % 2 ^ 32) ^^^ 0x04C11DB7 else c * 2 % 2 ^ 32) (2 ^ 32 - 1)) ^^^ (2 ^ 32 - 1)

/-- R136: the base matrix, row by row: column block and shift of each entry. -/
def ldpcRows : List (List (Nat × Nat)) := [
  [(0, 5), (2, 17), (4, 28), (6, 9), (8, 1), (9, 0)],
  [(1, 12), (3, 30), (5, 3), (7, 21), (9, 0), (10, 0)],
  [(0, 24), (2, 6), (4, 14), (7, 27), (10, 0), (11, 0)],
  [(1, 19), (3, 8), (5, 25), (6, 2), (11, 0), (12, 0)],
  [(0, 11), (2, 29), (5, 16), (7, 4), (8, 0), (12, 0), (13, 0)],
  [(1, 7), (3, 22), (4, 31), (6, 13), (13, 0), (14, 0)],
  [(0, 18), (1, 26), (4, 10), (6, 20), (14, 0), (15, 0)],
  [(2, 3), (3, 15), (5, 23), (7, 11), (8, 1), (15, 0)]]

/-- R136: every parity check of a codeword holds; bit 0 is the most significant of the 512. -/
def ldpcOk (c : BitVec 512) : Bool :=
  ldpcRows.all fun row => (List.range 32).all fun i =>
    !(row.foldl (fun p e => p ^^ c.getLsbD (511 - (32 * e.1 + (i + e.2) % 32))) false)

/-! The payload code (R136). -/

/-- A codeword as sixteen column blocks of 32 bits, in transmission order. -/
def colsOf (c : BitVec 512) : List (List Bool) :=
  (List.range 16).map fun j => (List.range 32).map fun i => c.getLsbD (511 - (32 * j + i))

/-- A column block seen by the rows of a circulant of shift s: row i meets column (i + s) mod 32. -/
def turn {α : Type} (s : Nat) (l : List α) : List α := l.drop s ++ l.take s

/-- Column blocks added bit by bit. -/
def xorCols (a b : List Bool) : List Bool := List.zipWith (· ^^ ·) a b

/-- The sum over a row's entries among the columns that sel picks. -/
def rowSum (cols : List (List Bool)) (row : List (Nat × Nat)) (sel : Nat → Bool) : List Bool :=
  (row.filter fun e => sel e.1).foldl (fun a e => xorCols a (turn e.2 (cols.getD e.1 []))) (List.replicate 32 false)

/-- R136: the codeword of 256 information bits: column block 8 is the sum of all rows, and blocks 9 to 15 follow by
back-substitution along the dual diagonal. -/
def ldpcEncode (info : BitVec 256) : List (List Bool) :=
  let inf := (List.range 8).map fun j => (List.range 32).map fun i => info.getLsbD (255 - (32 * j + i))
  let p8 := ldpcRows.foldl (fun a row => xorCols a (rowSum inf row fun j => decide (j < 8))) (List.replicate 32 false)
  (List.range 7).foldl (fun cols r => cols ++ [rowSum cols (ldpcRows.getD r []) fun j => decide (j < 9 + r)]) (inf ++ [p8])

/-! The decoder (R137). -/

/-- A value limited to 6 bits. -/
def sat6 (i : Int) : Int := clampI (-32) 31 i

/-- R137: the message of one check to one of its edges, from the messages of the others: the product of signs and 3/4 of the least
magnitude (its rounding log 91). -/
def minSum (l : List Int) : Int :=
  let m := l.foldl (fun a x => min a x.natAbs) 32
  let v := openDiv 4 (3 * m) 4
  if (l.filter (· < 0)).length % 2 = 1 then -v else v

/-- One row of the base matrix: the values of its columns and its messages, by entry, each of 32 checks; the new ones. -/
def ldpcLayer (row : List (Nat × Nat)) (s : List (List Int) × List (List Int)) : List (List Int) × List (List Int) :=
  let q := (List.range row.length).map fun k =>
    let e := row.getD k (0, 0)
    List.zipWith (fun l r => sat6 (l - r)) (turn e.2 (s.1.getD e.1 [])) (s.2.getD k [])
  let r := (List.range row.length).map fun k =>
    (List.range 32).map fun i => sat6 (minSum (((List.range row.length).filter (· ≠ k)).map fun j => (q.getD j []).getD i 0))
  let cols := (List.range row.length).foldl (fun cols k =>
    let e := row.getD k (0, 0)
    cols.set e.1 (turn (32 - e.2) (List.zipWith (· + ·) (q.getD k []) (r.getD k [])))) s.1
  (cols, r)

/-- R137: one iteration over the eight layers. -/
def ldpcIterate (s : List (List Int) × List (List (List Int))) : List (List Int) × List (List (List Int)) :=
  (List.range 8).foldl (fun s k =>
    let (cols, r) := ldpcLayer (ldpcRows.getD k []) (s.1, s.2.getD k [])
    (cols, s.2.set k r)) s

/-- R137: the codeword decided after exactly 12 iterations from 512 channel values, in transmission order, not negative for a bit 0
(R125); the first bit is the most significant. -/
def ldpcDecode (ch : List Int) : BitVec 512 :=
  let cols := (List.range 16).map fun j => (List.range 32).map fun i => sat6 (ch.getD (32 * j + i) 0)
  let msgs := ldpcRows.map fun row => row.map fun _ => List.replicate 32 (0 : Int)
  let s := (List.range 12).foldl (fun s _ => ldpcIterate s) (cols, msgs)
  BitVec.ofNat 512 (s.1.flatten.foldl (fun v x => v * 2 + b2n (decide (x < 0))) 0)

/-! A frame's symbols and the subcarrier (R125, R126, R133, R134). -/

/-- R125: the value of a bit. -/
def bitVal (b : Bool) : Int := if b then -1 else 1

/-- The low n bits of v, most significant first. -/
def bitsOf (v n : Nat) : List Bool := (List.range n).map fun i => bit v (n - 1 - i)

/-- R125: BPSK symbols on I, Q nothing. -/
def bpsk (l : List Bool) : List (Int × Int) := l.map fun b => (bitVal b, 0)

/-- R125: QPSK symbols: the even-numbered bit of each pair on I, the odd-numbered on Q. -/
def qpsk : List Bool → List (Int × Int)
  | a :: b :: t => (bitVal a, bitVal b) :: qpsk t
  | _ => []

/-- R134: the preamble: the run and the delimiter. -/
def preamble : List (Int × Int) := [1, 1, 1, 1, 1, 1, 1, 1, -1, 1, -1, -1, 1, 1, -1, 1].map fun v => (v, 0)

/-- R133: the symbols of a frame with header h and the payload of 256 * blocks bits, first bit most significant; a gasp has no payload. -/
def frameSymbols (h payload blocks : Nat) : List (Int × Int) :=
  let head := preamble ++ bpsk (bitsOf h 32)
  if bit h 24 then head
  else
    let coded := ((List.range blocks).map fun b =>
      (ldpcEncode (BitVec.ofNat 256 (payload / 2 ^ (256 * (blocks - 1 - b))))).flatten).flatten
    head ++ (if bit h 28 then qpsk coded else bpsk coded) ++ bpsk (bitsOf (crc32 payload (256 * blocks)) 32)

/-- R124: the chips of spreading factor code sf. -/
def chips (sf : Nat) : List Int := (chipBits (sfSeed sf) (16 * 2 ^ sf)).map bitVal

/-- R124 to R126: sample x(k), I and Q, of a frame's symbols: a chip every fourth sample, zeros between. -/
def tlSample (sf : Nat) (symbols : List (Int × Int)) (k : Nat) : Int × Int :=
  if k % 4 ≠ 0 then (0, 0)
  else
    let n := 16 * 2 ^ sf
    let s := symbols.getD (k / 4 / n) (0, 0)
    let c := (chips sf).getD (k / 4 % n) 0
    (s.1 * c, s.2 * c)

/-- R126: tap H[i] of 33, from the 17 held, as 12-bit two's complement. -/
def tlTap (fir : List Nat) (i : Nat) : Int := toS 12 (fir.getD (if i ≤ 16 then i else 32 - i) 0)

/-- R126: v(k) in 1/2,048 of one branch of samples x, saturated at ±1; the filter holds nothing of an earlier frame (log 105). -/
def tlFilter (fir : List Nat) (x : Nat → Int) (k : Nat) : Int :=
  clampI (-2048) 2048 ((List.range 33).foldl (fun t i => if i ≤ k then t + tlTap fir i * x (k - i) else t) 0)

/-- R126: r(k) in 1/2,048: the branches on carriers a quarter period apart. -/
def tlCarrier (k : Nat) (vi vq : Int) : Int :=
  if k % 4 = 0 then vi else if k % 4 = 1 then -vq else if k % 4 = 2 then -vi else vq

/-- R126: m(k) = DEPTH / 1,000 × r(k) of a frame. -/
def tlSub (sf depth : Nat) (fir : List Nat) (symbols : List (Int × Int)) (k : Nat) : Rat :=
  let x := tlSample sf symbols
  mkRat (depth * tlCarrier k (tlFilter fir (fun k => (x k).1) k) (tlFilter fir (fun k => (x k).2) k)) (1000 * 2048)

/-! Receive extraction (R129, R131). -/

/-- R129: the envelope of an L-cycle. -/
def envelope (w : LaneWord) : Nat := w.x.foldl (fun t b => t + b.toInt.natAbs) 0

/-- R129: resampler output k, mixed to baseband by e^(−jπk/2). -/
def mixDown (k : Nat) (x : Int) : Int × Int :=
  if k % 4 = 0 then (x, 0) else if k % 4 = 1 then (0, -x) else if k % 4 = 2 then (-x, 0) else (0, x)

/-- R129: the matched filter, equal to the reset TX_FIR pulse, over mixed samples oldest first; the output at index k, whose filter
reaches 32 samples back. -/
def matched (fir : List Nat) (l : List Int) : List Int :=
  (List.range (l.length - 32)).map fun k => (List.range 33).foldl (fun t i => t + tlTap fir i * (l.drop k).getD (32 - i) 0) 0

/-- R131: the symbols of spreading factor code sf despread at a sample phase from matched-filter outputs, four to a chip. -/
def despread (sf phase : Nat) (l : List Int) : List Int :=
  let n := 16 * 2 ^ sf
  (List.range (l.length / (4 * n))).map fun s =>
    (List.zipWith (fun c i => c * l.getD (4 * (s * n + i) + phase) 0) (chips sf) (List.range n)).foldl (· + ·) 0

/-- R131: the last 4 symbol decisions all agree in sign. -/
def agree (l : List Int) : Bool := l.length == 4 && (l.all (0 < ·) || l.all (· < 0))

/-- R129, R131: the despread symbols of a detection's window from the resampler's outputs: in-phase, with the AGC gain. -/
def detSymbols (t : TlDetect) (fir : List Nat) (gain : Nat) : List Int :=
  let mixed := (List.range t.res.length).map fun k => gain * (mixDown (k + t.rot) (t.res.getD k 0)).1
  despread t.sf t.phase (matched fir mixed)

end Sys2Proof.Machine
end

