-- ==== Sys2Proof/Machine/LaneRx.lean ====
section
/-! DEFINITION. The receive half of a lane (spec/01, spec/02): frequency measurement, CDR and LOS, calibration and the roaming
spare slice, the FFE banks, the LMS and its supervision. -/

namespace Sys2Proof.Machine

/-! Calibration states and the LMS freeze. -/

/-- CAL_STATUS.STATE (R47). -/
def calHold : Nat := 0
def calAcquire : Nat := 1
def calTrack : Nat := 2
def calStarved : Nat := 3
def calFrozen : Nat := 4

/-- The calibration state of lane g. -/
def Dev.cal (d : Dev) (g : Nat) : Nat := d.get (R.CAL_STATUS.STATE g)

/-- R63: the freeze causes and FROZEN follow the fade, the calibration state, EN and DIVERGED; frozen, the accumulator is clear. -/
def Dev.lmsSync (d : Dev) (g : Nat) : Dev :=
  let fade := d.on (R.FFE_STATUS.FADING g)
  let cal := [calHold, calStarved, calFrozen].contains (d.cal g)
  let sw := !d.on (R.LMS_CTRL.EN g)
  let d := ((d.flag (R.LMS_STATUS.BY_FADE g) fade).flag (R.LMS_STATUS.BY_CAL g) cal).flag (R.LMS_STATUS.BY_SW g) sw
  let frozen := fade || cal || sw || d.on (R.LMS_STATUS.DIVERGED g)
  let d := d.flag (R.LMS_STATUS.FROZEN g) frozen
  if frozen then d.onL g fun x => { x with rx := { x.rx with grad := {} } } else d

/-- R47, R65: calibration of lane g enters a state; the notices of entering and leaving STARVED. -/
def Dev.setCal (d : Dev) (g s : Nat) : Dev :=
  let old := d.cal g
  if old = s then d
  else
    let d := d.set (R.CAL_STATUS.STATE g) s
    let d := d.flag (R.CAL_STATUS.STARVED g) (s == calStarved)
    let d := if old = calStarved then d.laneNotice g 2 else d
    let d := if s = calStarved then (d.set (R.CAL_STATUS.STARVED_SEEN g) 1).laneNotice g 1 else d
    d.lmsSync g

/-- The current window of lane g is discarded without a result; a visit of the spare keeps its place (R47, R50). -/
def Dev.dropWindow (d : Dev) (g : Nat) : Dev := d.onL g fun x => { x with winOpen := false, visit := false }

/-- MARKER_LOCK of lane g. -/
def Dev.mlock (d : Dev) (g : Nat) : Bool := d.on (R.RX_STATUS.MARKER_LOCK g)

/-- ACQUIRE or TRACK as MARKER_LOCK. -/
def Dev.calByLock (d : Dev) (g : Nat) : Nat := if d.mlock g then calTrack else calAcquire

/-- R47: MARKER_LOCK of lane g rises or falls. -/
def Dev.setMlock (d : Dev) (g : Nat) (b : Bool) : Dev :=
  if d.mlock g = b then d
  else
    let d := d.flag (R.RX_STATUS.MARKER_LOCK g) b
    let s := d.cal g
    if s = calStarved then d.dropWindow g
    else if (s = calAcquire ∧ b) ∨ (s = calTrack ∧ !b) then (d.dropWindow g).setCal g (d.calByLock g)
    else d

/-! Suspect marks (R44, R46, R50). -/

/-- Slice s of lane g is marked suspect; 64 is the spare. -/
def Dev.suspect (d : Dev) (g s : Nat) : Bool :=
  if s = 64 then d.on (R.SPARE_STATUS.SPARE_SUSPECT g)
  else bit2 (d.get (R.CAL_SUSPECT_LO.SLICE g)) (d.get (R.CAL_SUSPECT_HI.SLICE g)) s

/-- Slice s of lane g becomes suspect, with its notice. -/
def Dev.markSuspect (d : Dev) (g s : Nat) : Dev :=
  if d.suspect g s then d
  else
    let d := if s = 64 then d.set (R.SPARE_STATUS.SPARE_SUSPECT g) 1
      else if s < 32 then d.orF (R.CAL_SUSPECT_LO.SLICE g) (2 ^ s) else d.orF (R.CAL_SUSPECT_HI.SLICE g) (2 ^ (s - 32))
    (d.set (R.CAL_STATUS.SUSPECT g) 1).laneNotice g 3

/-! The spare slice (R49 to R51). -/

/-- SPARE_STATUS.MODE: 0 IDLE, 1 XCHECK, 2 SCAN, 3 REPAIR. -/
def Dev.spareMode (d : Dev) (g : Nat) : Nat := d.get (R.SPARE_STATUS.MODE g)

/-- The spare returns to IDLE; XCHECK resumes at an update point (R49). -/
def Dev.spareIdle (d : Dev) (g : Nat) : Dev :=
  (d.set (R.SPARE_STATUS.MODE g) 0).onL g fun x => { x with visit := false }

/-- The slice is powered down: the spare delivers its positions and no new takeover has powered it up (R51). -/
def Dev.sliceDown (d : Dev) (g s : Nat) : Bool := (d.ln g).rep == .inService && (d.ln g).served == some s

/-- A scan of lane g runs or awaits its update point (R85). -/
def Dev.scanning (d : Dev) (g : Nat) : Bool := (d.ln g).scanReq || d.spareMode g == 2

/-- R85, R86: a running or awaited scan ends with a result and the errors it counted; the keeper is told. -/
def Dev.endScan (d : Dev) (g result : Nat) : Dev :=
  (((d.set (R.EYE_STATUS.RESULT g) result).set (R.EYE_ERR.ERR g) (min (d.ln g).rx.eyeErr (2 ^ 32 - 1))).onL g
    fun x => { x with scanReq := false }).laneNotice g 12

/-- R51 step 1: the spare leaves its mode for the takeover of slice s; a scan is pre-empted, a visit abandoned. -/
def Dev.startRepair (d : Dev) (g s : Nat) : Dev :=
  let d := if d.scanning g then d.endScan g 3 else d
  let d := ((d.set (R.SPARE_STATUS.MODE g) 3).set (R.SPARE_STATUS.SLICE g) s).set (R.SPARE_STATUS.TAKEOVER_PEND g) 1
  d.onL g fun x => { x with rep := .step1, visit := false }

/-- R51: a repair is given up or released. -/
def Dev.stopRepair (d : Dev) (g : Nat) : Dev :=
  let d := d.set (R.SPARE_STATUS.TAKEOVER_PEND g) 0
  match (d.ln g).served with
  | some s => (d.set (R.SPARE_STATUS.SLICE g) s).onL g fun x => { x with rep := .release }
  | none => (d.onL g fun x => { x with rep := .none }).spareIdle g

/-- R49, R50, R51: the spare's mode at an update point. -/
def Dev.sparePoint (d : Dev) (g : Nat) : Dev :=
  let x := d.ln g
  if x.rep = .step1 then d.onL g fun x => { x with rep := .step2 }
  else if x.rep ≠ .none then d
  else if x.scanReq then (d.set (R.SPARE_STATUS.MODE g) 2).onL g fun x => { x with scanReq := false, visit := false }
  else
    let en := d.on (R.SPARE_CTRL.XCHK_EN g) && !d.suspect g 64 && !d.on (R.SPARE_STATUS.FUSED g)
    if d.spareMode g = 0 ∧ en ∧ (d.cal g = calAcquire ∨ d.cal g = calTrack) then
      (d.set (R.SPARE_STATUS.MODE g) 1).set (R.SPARE_STATUS.SLICE g) x.xslice
    else if d.spareMode g = 1 ∧ !en then d.spareIdle g
    else d

/-! Update points (R42, R48). -/

/-- R48: one pending CAL_COEF write applied. -/
def Dev.putCoef (d : Dev) (g s : Nat) (v : Word) : Dev := d.setReg (A.CAL_COEF g s) v.toNat

/-- R48, R59: pending coefficient writes and a pending DFE enable take effect. -/
def Dev.applyPending (d : Dev) (g : Nat) : Dev :=
  let x := d.ln g
  let d := x.pend.foldl (fun d w => d.putCoef g w.1 w.2) d
  let d := d.set (R.CAL_STATUS.WR_PENDING g) 0
  d.onL g fun x => { x with pend := [], dfeOn := x.dfePend.getD x.dfeOn, dfePend := none }

/-- R47: the update points a window of lane g spans. The spec gives the length for ACQUIRE and TRACK; in STARVED and FROZEN the model takes
that of the state MARKER_LOCK names (DESIGN CHOICE, log 97). -/
def Dev.winLen (d : Dev) (g : Nat) : Nat :=
  2 ^ (if d.cal g = calTrack ∨ (d.cal g ≠ calAcquire ∧ d.mlock g) then d.get (R.CAL_CTRL.TRK_WIN g)
    else d.get (R.CAL_CTRL.ACQ_WIN g))

/-- A coefficient of entry s stands at a limit of its range (R44). -/
def Dev.atLimit (d : Dev) (g s : Nat) : Bool :=
  [(-512 : Int), 511].contains (d.getI (R.CAL_COEF.OFFSET g s)) || [(-512 : Int), 511].contains (d.getI (R.CAL_COEF.SKEW g s))
    || [0, 4095].contains (d.get (R.CAL_COEF.GAIN g s))

/-- A window of lane g starts at an update point, with nothing accumulated. A takeover whose step 1 ends inside a window waits for this
one, the next whole window, and a release likewise (R51 does not say which window it takes: DESIGN CHOICE, log 97). -/
def Dev.startWindow (d : Dev) (g : Nat) : Dev :=
  let mode := d.spareMode g
  let los := d.on (R.RX_STATUS.LOS g)
  let lims := (List.range 65).filter fun s => d.atLimit g s
  let sus := (List.range 65).filter fun s => d.suspect g s
  let ok := d.cal g = calAcquire ∨ d.cal g = calTrack
  d.onL g fun x =>
    { x with winOpen := true, winPts := 0, winLos := los, lims := lims, sus := sus, acc := {}, visit := mode == 1 && decide ok,
             rep := match x.rep with | .step2 => .calib | .release => .returning | r => r }

/-- R42: an update point of lane g at which no window ends. -/
def Dev.updatePoint (d : Dev) (g : Nat) : Dev :=
  let x := d.ln g
  if d.cal g = calHold then d
  else if x.winOpen ∧ d.winLen g ≤ x.winPts + 1 then d
  else
    let d := (d.applyPending g).sparePoint g
    if x.winOpen then d.onL g fun x => { x with winPts := x.winPts + 1, lims := x.lims.filter fun s => d.atLimit g s }
    else d.startWindow g

/-- R48: a software write to CAL_COEF[s]: pending until the next update point, at once in HOLD. -/
def Dev.writeCoef (d : Dev) (g s : Nat) (v : Word) : Dev :=
  if d.cal g = calHold then d.putCoef g s v
  else (d.set (R.CAL_STATUS.WR_PENDING g) 1).onL g fun x =>
    { x with pend := x.pend.filter (fun w => w.1 ≠ s) ++ [(s, v)] }

/-! The end of a window (R43 to R46, R50). -/

/-- Entry s is out of the references and of updating: marked, or marked when the running window began (R48, R52: a mark cleared since
returns it from the next window). -/
def Dev.out (d : Dev) (g s : Nat) : Bool := d.suspect g s || (d.ln g).sus.contains s

/-- R43: the included positions of lane g: each slice number with the entry that delivers its samples. -/
def Dev.included (d : Dev) (g : Nat) : List (Nat × Nat) :=
  (List.range 64).filterMap fun s =>
    if (d.ln g).served = some s then (if d.out g 64 then none else some (s, 64))
    else if d.out g s then none
    else if d.on (R.SPARE_STATUS.TAKEOVER_PEND g) ∧ d.get (R.SPARE_STATUS.SLICE g) = s then none
    else some (s, s)

/-- R45, R46: the level populations of a list of counts lie within 12.5 % and 37.5 %. -/
def popsOk (n : Nat → Nat) : Bool :=
  let t := n 0 + n 1 + n 2 + n 3
  (List.range 4).all fun v => decide (t ≤ 8 * n v ∧ 8 * n v ≤ 3 * t)

/-- R45: the lane passes, by the averages over the included positions. -/
def Dev.lanePasses (d : Dev) (g : Nat) (inc : List (Nat × Nat)) : Bool :=
  let a := (d.ln g).acc
  !(d.ln g).winLos && !inc.isEmpty
    && popsOk (fun v => inc.foldl (fun t p => t + (a.of p.2).n.getD v 0) 0)
    && match (d.ln g).prevSpread with
       | none => true
       | some b => decide (16 * (a.avg inc SliceStat.spread - b).abs ≤ b.abs)

/-- R44: round(residual × 2^-SHIFT) limited to ±STEP. -/
def calStep (residual : Rat) (shift lim : Nat) : Int := clampI (-(lim : Int)) lim (roundRat (residual / (2 ^ shift : Nat)))

/-- R43: the offset residual of an entry with gain factor (14,336 + gain) / 16,384 against the references, in OFFSET steps. -/
def offsetResidual (x : SliceStat) (ref : Nat → Rat) (gain : Nat) : Rat :=
  (List.range 4).foldl (fun t v => t + (x.mean v - ref v)) 0 / 4 * mkRat 16384 (14336 + gain) * 32

/-- R43: the gain residual, in GAIN steps; the spread is not 0. -/
def gainResidual (x : SliceStat) (ref : Nat → Rat) : Rat := ((ref 3 - ref 0) / x.spread - 1) * 16384

/-- R43: the skew residual, in SKEW steps: 0 for every slice when K is less than P₀ / 16. -/
def skewResidual (a : CalAcc) (x : SliceStat) : Rat :=
  if a.slope < a.p0Mean / 16 ∨ a.slope ≤ 0 then 0 else 2048 * (x.cp - x.cm) / a.slope

/-- R43, R44: the update of entry s (64: the spare, at slice at's instant) from one window. A slice whose own outer spread is 0
has a gain residual the spec does not state: a free value (log 2). -/
def Dev.calUpdate (d : Dev) (g : Nat) (inc : List (Nat × Nat)) (s at_ : Nat) : Dev :=
  let a := (d.ln g).acc
  let x := a.of s
  let refs := inc.filter fun p => p.1 ≠ at_
  let ref (v : Nat) : Rat := a.avg refs (·.mean v)
  let shift := if d.cal g = calTrack then d.get (R.CAL_CTRL.TRK_SHIFT g) else d.get (R.CAL_CTRL.ACQ_SHIFT g)
  if refs.isEmpty then d
  else
    let gain := d.get (R.CAL_COEF.GAIN g s)
    let ofsStep := calStep (offsetResidual x ref gain) shift (d.get (R.CAL_LIMIT.OFS_STEP g))
    let gStep := d.get (R.CAL_LIMIT.GAIN_STEP g)
    let (gainStep, d) : Int × Dev :=
      if x.spread = 0 then
        let (f, d) := d.draw
        (clampI (-(gStep : Int)) gStep f.toInt, d)
      else (calStep (gainResidual x ref) shift gStep, d)
    let skewStep := calStep (skewResidual a x) shift (d.get (R.CAL_LIMIT.SKEW_STEP g))
    let d := if d.on (R.CAL_CTRL.OFS_EN g) then
      d.setI (R.CAL_COEF.OFFSET g s) (clampI (-512) 511 (d.getI (R.CAL_COEF.OFFSET g s) + ofsStep)) else d
    let d := if d.on (R.CAL_CTRL.GAIN_EN g) then
      d.set (R.CAL_COEF.GAIN g s) (clampI 0 4095 ((gain : Int) + gainStep)).toNat else d
    if d.on (R.CAL_CTRL.SKEW_EN g) then
      d.setI (R.CAL_COEF.SKEW g s) (clampI (-512) 511 (d.getI (R.CAL_COEF.SKEW g s) + skewStep)) else d

/-- R46: in a window that passes R45, in any state, entry s is marked suspect by its own level populations. -/
def Dev.calPops (d : Dev) (g s : Nat) : Dev :=
  if d.out g s ∨ d.sliceDown g s then d
  else if popsOk (fun v => ((d.ln g).acc.of s).n.getD v 0) then d
  else d.markSuspect g s

/-- R44, R48: entry s at the end of a passing window in ACQUIRE or TRACK: marked suspect by a limit held all window, superseded by a
pending software write, or updated. -/
def Dev.calSlice (d : Dev) (g : Nat) (inc : List (Nat × Nat)) (s at_ : Nat) : Dev :=
  if d.out g s ∨ d.sliceDown g s then d
  else if (d.ln g).lims.contains s ∧ d.atLimit g s then d.markSuspect g s
  else if (d.ln g).pend.any (·.1 == s) then d.set (R.CAL_STATUS.SW_OVERRIDE g) 1
  else d.calUpdate g inc s at_

/-- R50: the end of the spare's visit to slice s: the corrected level means of the two are compared, and the next slice
follows. The gain factors differ by the difference of the outer spreads relative to the spare's (R50 does not name the reference of
1/256: DESIGN CHOICE, log 97). -/
def Dev.endVisit (d : Dev) (g : Nat) : Dev :=
  let s := (d.ln g).xslice
  let a := (d.ln g).acc.of s
  let b := (d.ln g).acc.of 64
  let ofs := (List.range 4).foldl (fun t v => t + (a.mean v - b.mean v)) 0
  let bad := decide (2 * ofs.abs > 4 ∨ (a.spread - b.spread).abs * 256 > b.spread.abs)
  let n := if bad then Tbl.get 0 (d.ln g).xfail s + 1 else 0
  let d := if bad then d.inc (R.SPARE_STATUS.XCHK_FAILS g) else d
  let d := if bad ∧ d.get (R.SPARE_CTRL.XCHK_LIMIT g) ≤ n then d.markSuspect g s else d
  let d := d.onL g fun x => { x with xfail := Tbl.set 0 x.xfail s n, xslice := (s + 1) % 64 }
  if d.spareMode g = 1 then d.set (R.SPARE_STATUS.SLICE g) ((s + 1) % 64) else d

/-- R51: the calibration window of a takeover or a release has ended. It counts also where it failed R45 or fell in STARVED or FROZEN
(R51 names no condition on the window: DESIGN CHOICE, log 97). -/
def Dev.repairWindow (d : Dev) (g : Nat) : Dev :=
  match (d.ln g).rep with
  | .calib => d.onL g fun x => { x with rep := .ready }
  | .returning =>
    ((d.set (R.RX_STATUS.SCAN_UNAVAIL g) 0).onL g fun x => { x with rep := .none, served := none }).spareIdle g
  | _ => d

/-- The entry the spare calibrates as, if it is assigned to a position (R44, R50, R51). -/
def Dev.spareAt (d : Dev) (g : Nat) : Option Nat :=
  let x := d.ln g
  if x.visit then some x.xslice
  else match x.rep with
    | .none | .step1 | .step2 => none
    | .calib | .ready | .inService | .release | .returning => some (d.get (R.SPARE_STATUS.SLICE g))

/-- R45 to R47, R50: the judgement of a window: it fails, or passes and marks slices by their populations; in ACQUIRE and TRACK it then
updates; in STARVED passing windows lead out; in FROZEN it is measured only. -/
def Dev.judgeWindow (d : Dev) (g : Nat) : Dev :=
  let inc := d.included g
  let pass := d.lanePasses g inc
  let s := d.cal g
  let spread := (d.ln g).acc.avg inc SliceStat.spread
  let ref := (List.range 4).map fun v => (d.ln g).acc.avg inc (·.mean v)
  let d := d.onL g fun x => { x with prevSpread := some spread, ref := ref }
  if !pass then
    let d := d.set (R.CAL_STATUS.PASS_RUN g) 0
    if s = calStarved ∨ s = calFrozen then d else d.setCal g calStarved
  else
    let visit := (d.ln g).visit
    let sp := d.spareAt g
    let d := d.inc (R.CAL_STATUS.PASS_RUN g)
    let d := (List.range 64).foldl (fun d s => d.calPops g s) d
    let d := if sp.isSome then d.calPops g 64 else d
    if s = calStarved then
      if d.get (R.CAL_CTRL.RESUME g) ≤ d.get (R.CAL_STATUS.PASS_RUN g) then d.setCal g (d.calByLock g) else d
    else if s = calFrozen then d
    else
      let d := (List.range 64).foldl (fun d s => d.calSlice g inc s s) d
      let d := match sp with | some a => d.calSlice g inc 64 a | none => d
      let d := d.incW (R.CAL_STATUS.UPDATES g)
      if visit then d.endVisit g else d

/-- R44, R47: a calibration window of lane g ends at its last update point; the next one starts. -/
def Dev.windowEnd (d : Dev) (g : Nat) : Dev :=
  let x := d.ln g
  if d.cal g = calHold ∨ !x.winOpen ∨ x.winPts + 1 < d.winLen g then d
  else ((((d.judgeWindow g).repairWindow g).applyPending g).sparePoint g).startWindow g

/-- R51 step 3: the spare's output replaces the slice, which powers down. -/
def Dev.takeover (d : Dev) (g : Nat) : Dev :=
  if (d.ln g).rep = .ready then
    let s := d.get (R.SPARE_STATUS.SLICE g)
    let d := (d.set (R.SPARE_STATUS.TAKEOVER_PEND g) 0).set (R.RX_STATUS.SCAN_UNAVAIL g) 1
    ((d.onL g fun x => { x with rep := .inService, served := some s }).bump (Ctr.lane g 7)).laneNotice g 4
  else d

/-- R47: a write to CAL_CTRL. -/
def Dev.calCtrl (d : Dev) (g v : Nat) : Dev :=
  let d := d.sw Row.CAL_CTRL (A.CAL_CTRL g) v
  let s := d.cal g
  if s = calHold then d
  else if !d.on (R.CAL_CTRL.EN g) then (if s = calFrozen then d else (d.dropWindow g).setCal g calFrozen)
  else if s = calFrozen then (d.dropWindow g).setCal g (d.calByLock g)
  else d

/-- R51, R52: a write to SPARE_CTRL; on a lane repaired by fuse the repair fields keep their values. -/
def Dev.spareCtrl (d : Dev) (g v : Nat) : Dev :=
  let en := d.get (R.SPARE_CTRL.REPAIR_EN g)
  let slice := d.get (R.SPARE_CTRL.REPAIR_SLICE g)
  let d := d.sw Row.SPARE_CTRL (A.SPARE_CTRL g) v
  if d.on (R.SPARE_STATUS.FUSED g) then (d.set (R.SPARE_CTRL.REPAIR_EN g) en).set (R.SPARE_CTRL.REPAIR_SLICE g) slice
  else
    let s := d.get (R.SPARE_CTRL.REPAIR_SLICE g)
    let rep := (d.ln g).rep
    let busy := decide (rep ≠ .none ∧ rep ≠ .release ∧ rep ≠ .returning)
    if d.on (R.SPARE_CTRL.REPAIR_EN g) then
      if busy ∧ d.get (R.SPARE_STATUS.SLICE g) = s then d else d.startRepair g s
    else if busy then d.stopRepair g
    else d

/-! CDR and LOS (R38, R39). -/

/-- The receive direction of lane g: 0 active, 1 quiet, 2 DEEP. -/
def Dev.rxState (d : Dev) (g : Nat) : Nat := d.get (R.LPWR_STATUS.RX_STATE g)

/-- The transmit direction of lane g. -/
def Dev.txState (d : Dev) (g : Nat) : Nat := d.get (R.LPWR_STATUS.TX_STATE g)

/-- The timing loop of lane g updates: receive stage 2 runs, or starts again in an exit in progress (R38, R79). -/
def Dev.cdrRuns (d : Dev) (g : Nat) : Bool :=
  d.rxState g == 0 || (d.on (R.LPWR_STATUS.BUSY g) && (d.ln g).pwrTo.2 == 0)

/-- R39: LOS of lane g sets, which counts as a rise. -/
def Dev.losSet (d : Dev) (g : Nat) : Dev :=
  if d.on (R.RX_STATUS.LOS g) then d
  else ((d.set (R.RX_STATUS.LOS g) 1).bump (Ctr.lane g 0)).onL g fun x => { x with winLos := true, blkLos := true }

/-- R38: CDR_LOCK of lane g clears. -/
def Dev.cdrClear (d : Dev) (g : Nat) : Dev :=
  if d.on (R.RX_STATUS.CDR_LOCK g) then (d.set (R.RX_STATUS.CDR_LOCK g) 0).bump (Ctr.lane g 1) else d

/-! Equaliser banks (R54 to R57). -/

/-- R54: a write to tap t of bank b (false A, true B), ignored on the active bank and during a fade; ACTIVE_WR sets only when
the value differs. -/
def Dev.ffeTap (d : Dev) (g : Nat) (b : Bool) (t : Nat) (v : Nat) : Dev :=
  let f := if b then R.FFE_B.COEF g t else R.FFE_A.COEF g t
  let x := v % 1024
  if d.on (R.FFE_STATUS.FADING g) ∨ d.on (R.FFE_STATUS.ACTIVE g) = b then
    if d.get f = x then d else d.set (R.FFE_STATUS.ACTIVE_WR g) 1
  else d.set f x

/-- R54: a write to FFE_CTRL applies to each cursor field that accepts writes. -/
def Dev.ffeCtrl (d : Dev) (g v : Nat) : Dev :=
  let cursor (d : Dev) (b : Bool) (f : Fld) (x : Nat) : Dev :=
    if d.on (R.FFE_STATUS.FADING g) ∨ d.on (R.FFE_STATUS.ACTIVE g) = b then
      if d.get f = x then d else d.set (R.FFE_STATUS.ACTIVE_WR g) 1
    else d.set f x
  let c (n : Nat) := min n 47
  cursor (cursor d false (R.FFE_CTRL.CURSOR_A g) (c (getBits v 13 8))) true (R.FFE_CTRL.CURSOR_B g) (c (getBits v 21 16))

/-- A fade from the bank in use to bank b, 2^k symbols long, starts. -/
def Dev.startFade (d : Dev) (g b k : Nat) : Dev :=
  (((d.set (R.FFE_STATUS.FADING g) 1).set (R.FFE_STATUS.TARGET g) b).onL g fun x => { x with fadeK := k, rx := { x.rx with fadeAt := 0 } }).lmsSync g

/-- R56, R57: a swap request for bank b with FADE_K = k. -/
def Dev.swapRequest (d : Dev) (g b k : Nat) : Dev :=
  let active := d.get (R.FFE_STATUS.ACTIVE g)
  if d.rxState g ≠ 0 then
    if b = active then d.inc (R.FFE_STATUS.DROP_CNT g)
    else (d.set (R.FFE_STATUS.ACTIVE g) b).set (R.FFE_STATUS.TARGET g) b
  else if !d.on (R.FFE_STATUS.FADING g) then
    if b = active then d.inc (R.FFE_STATUS.DROP_CNT g) else d.startFade g b k
  else if b = active then
    ((d.set (R.FFE_STATUS.SWAP_HELD g) 1).set (R.FFE_STATUS.HELD_BANK g) b).set (R.FFE_STATUS.HELD_K g) k
  else (d.inc (R.FFE_STATUS.DROP_CNT g)).set (R.FFE_STATUS.SWAP_HELD g) 0

/-- R56: a fade ends; a held request starts the next, or the LMS resumes and the keeper is told. -/
def Dev.fadeEnd (d : Dev) (g : Nat) : Dev :=
  if d.on (R.FFE_STATUS.FADING g) then
    let d := d.set (R.FFE_STATUS.ACTIVE g) (d.get (R.FFE_STATUS.TARGET g))
    if d.on (R.FFE_STATUS.SWAP_HELD g) then
      (d.set (R.FFE_STATUS.SWAP_HELD g) 0).startFade g (d.get (R.FFE_STATUS.HELD_BANK g)) (d.get (R.FFE_STATUS.HELD_K g))
    else ((d.set (R.FFE_STATUS.FADING g) 0).lmsSync g).laneNotice g 5
  else d

/-- R57, R65: a lane that enters RXQ or DEEP completes a running fade and then a held request at once; the keeper is told. -/
def Dev.flushFade (d : Dev) (g : Nat) : Dev :=
  if d.on (R.FFE_STATUS.FADING g) then
    let b := if d.on (R.FFE_STATUS.SWAP_HELD g) then d.get (R.FFE_STATUS.HELD_BANK g) else d.get (R.FFE_STATUS.TARGET g)
    ((((d.set (R.FFE_STATUS.ACTIVE g) b).set (R.FFE_STATUS.TARGET g) b).set (R.FFE_STATUS.SWAP_HELD g) 0).set
      (R.FFE_STATUS.FADING g) 0).laneNotice g 5
  else d

/-! HOLD (R47, R48, R63, R64). -/

/-- Lane g enters RXQ or DEEP: calibration goes to HOLD, pending writes apply, DIVERGED clears, CDR_LOCK clears. The run of error blocks
ends (R64 does not say whether it outlasts HOLD: DESIGN CHOICE, log 36). -/
def Dev.enterHold (d : Dev) (g : Nat) : Dev :=
  let d := (((d.flushFade g).applyPending g).set (R.LMS_STATUS.DIVERGED g) 0).cdrClear g
  let d := d.onL g fun x => { x with winOpen := false, visit := false, prevSpread := none, mseRun := 0 }
  (d.setCal g calHold).lmsSync g

/-- Lane g leaves RXQ or DEEP; a new error block begins (R64). -/
def Dev.leaveHold (d : Dev) (g : Nat) : Dev :=
  let los := d.on (R.RX_STATUS.LOS g)
  let d := d.onL g fun x => { x with blkLos := los, rx := { x.rx with sse := 0, sseN := 0 } }
  if d.cal g = calHold then d.setCal g (if d.on (R.CAL_CTRL.EN g) then calAcquire else calFrozen) else d

/-! LMS (R62 to R64). -/

/-- MODE_ACTIVE.LANE_MODE of lane g's octet: 0 S, 1 M, 2 L. -/
def Dev.laneMode (d : Dev) (g : Nat) : Nat := d.get (R.MODE_ACTIVE.LANE_MODE (g / 8))

/-- One adapted parameter stepped by i and clamped; TAP_LIMIT sets when the clamp changed it. -/
def Dev.lmsStep (d : Dev) (g : Nat) (f : Fld) (signed : Bool) (lo hi i : Int) : Dev :=
  let v := (if signed then d.getI f else (d.get f : Int)) + i
  let d := if v < lo ∨ hi < v then
    (if d.on (R.LMS_STATUS.TAP_LIMIT g) then d else (d.set (R.LMS_STATUS.TAP_LIMIT g) 1).laneNotice g 8) else d
  d.setI f (clampI lo hi v)

/-- R62: one update of the LMS of lane g with the gradients accumulated. The leak is rounded as the step is (R62 states the rounding of
the step only: DESIGN CHOICE, log 35). -/
def Dev.lmsUpdate (d : Dev) (g : Nat) : Dev :=
  if d.on (R.LMS_STATUS.FROZEN g) then d
  else
    let q := (d.ln g).rx.grad
    let mu := if d.cal g = calTrack then d.get (R.LMS_CTRL.MU_TRK g) else d.get (R.LMS_CTRL.MU_ACQ g)
    let step (i : Int) (unit : Nat) : Int := - roundDiv i (unit * 2 ^ mu)
    let rest (i : Nat) : Int := step (q.rest.getD i 0) 2
    let b := d.on (R.FFE_STATUS.ACTIVE g)
    let cursor := d.get (if b then R.FFE_CTRL.CURSOR_B g else R.FFE_CTRL.CURSOR_A g)
    let leak := d.get (R.LMS_CTRL.LEAK g)
    let tap (d : Dev) (t : Nat) : Dev :=
      let f := if b then R.FFE_B.COEF g t else R.FFE_A.COEF g t
      if t = cursor ∧ !d.on (R.LMS_CTRL.CURSOR_ADAPT g) then d
      else
        let l := if leak = 0 ∨ t = cursor then 0 else - roundDiv (d.getI f) (2 ^ (leak + 8))
        d.lmsStep g f true (-512) 511 (step (q.taps.getD t 0) (2 * codeUnit) + l)
    let d := (List.range 48).foldl tap d
    let d := if d.laneMode g = 0 ∧ (d.ln g).dfeOn ∧ d.on (R.DFE_CTRL.ADAPT g) then
      d.lmsStep g (R.DFE_CTRL.H1 g) false 0 128 (rest 0) else d
    let d := if d.laneMode g = 2 ∧ d.on (R.MLSE_CTRL.ADAPT g) then
      (d.lmsStep g (R.MLSE_CTRL.H1 g) true (-128) 127 (rest 1)).lmsStep g (R.MLSE_CTRL.H2 g) true (-128) 127 (rest 2) else d
    let d := if d.on (R.LMS_CTRL.THR_ADAPT g) then
      ((d.lmsStep g (R.DEC_THR.THR_LO g) true (-32) 31 (rest 3)).lmsStep g (R.DEC_THR.THR_MID g) true (-32) 31
        (rest 4)).lmsStep g (R.DEC_THR.THR_HI g) true (-32) 31 (rest 5) else d
    (d.incW (R.LMS_STATUS.UPDATES g)).onL g fun x => { x with rx := { x.rx with grad := {} } }

/-- R64: a block of 4,096 L-cycles ends; the next begins. -/
def Dev.mseBlock (d : Dev) (g : Nat) : Dev :=
  if d.cal g = calHold then d
  else
    let los := d.on (R.RX_STATUS.LOS g)
    let v := min (d.ln g).rx.mse 65535
    let above := decide (d.get (R.LMS_MSE.ALARM_THR g) < v) && !(d.ln g).blkLos
    let n := if above then (d.ln g).mseRun + 1 else 0
    let d := (d.set (R.LMS_MSE.MSE g) v).laneNotice g 6
    let d := d.onL g fun x => { x with mseRun := min 4 n, blkLos := los, rx := { x.rx with sse := 0, sseN := 0 } }
    if 4 ≤ n ∧ !d.on (R.LMS_STATUS.DIVERGED g) then
      ((d.set (R.LMS_STATUS.DIVERGED g) 1).lmsSync g).laneNotice g 7
    else d

/-- R64: a write to LMS_CTRL sets the controls and clears DIVERGED; the count of error blocks starts again (log 36). -/
def Dev.lmsCtrl (d : Dev) (g v : Nat) : Dev :=
  (((d.sw Row.LMS_CTRL (A.LMS_CTRL g) v).set (R.LMS_STATUS.DIVERGED g) 0).onL g fun x => { x with mseRun := 0 }).lmsSync g

/-- R34, R59: a write to DFE_CTRL; EN reads back 0 outside Mode S, and a change of it waits for an update point but in HOLD. -/
def Dev.dfeCtrl (d : Dev) (g v : Nat) : Dev :=
  let d := d.sw Row.DFE_CTRL (A.DFE_CTRL g) v
  let d := if d.laneMode g = 0 then d else d.set (R.DFE_CTRL.EN g) 0
  let en := d.on (R.DFE_CTRL.EN g)
  if d.cal g = calHold then d.onL g fun x => { x with dfeOn := en, dfePend := none }
  else d.onL g fun x => { x with dfePend := if en = x.dfeOn then none else some en }

/-! Receive frequency (R23, R24). -/

/-- R24: a 1 ms window ends with an average departure of dep parts in 10^12. -/
def Dev.freqWindow (d : Dev) (g : Nat) (dep : Int) : Dev :=
  if d.on (R.LAT_RX.VALID g) ∧ !d.on (R.LAT_RX.ELASTIC g) ∧ d.get (R.MODE_ACTIVE.TIMING (g / 8)) = 0 ∧ 50000 < dep.natAbs then
    d.onL g fun x => { x with freqBad := true }
  else d

/-- R24: at the first marker after a failing window the lane's crossing switches to the elastic stage. -/
def Dev.elasticSwitch (d : Dev) (g : Nat) : Dev :=
  if (d.ln g).freqBad then
    let d := (d.set (R.LAT_RX.VALID g) 0).set (R.LAT_RX.ELASTIC g) 1
    (d.orF (R.TIMING_EVT.LANE (g / 8)) (2 ^ (g % 8))).onL g fun x => { x with freqBad := false }
  else d

/-- The value of RX_STATUS as read: the mirrors of R40 beside the bits the lane keeps there. LMS_FROZEN shows LMS_STATUS.FROZEN, so 1 at
reset although the table of R40 gives 0 (DESIGN CHOICE, log 98); SPARE_REPAIR shows MODE = 0b11, so from step 1 of R51 although R51 sets
it at step 3 (DESIGN CHOICE, log 98). -/
def Dev.rxStatusView (d : Dev) (g : Nat) : Nat :=
  let own := d.reg (A.RX_STATUS g)
  b2n (bit own 15) * 2 ^ 15 + b2n (d.spareMode g == 3) * 2 ^ 14 + d.get (R.LMS_STATUS.DIVERGED g) * 2 ^ 13
    + d.get (R.LMS_STATUS.FROZEN g) * 2 ^ 12 + d.get (R.FFE_STATUS.SWAP_HELD g) * 2 ^ 11 + d.get (R.FFE_STATUS.FADING g) * 2 ^ 10
    + d.get (R.FFE_STATUS.ACTIVE g) * 2 ^ 9 + d.get (R.CAL_STATUS.STARVED g) * 2 ^ 8 + d.cal g * 2 ^ 5
    + b2n (bit own 4) * 16 + b2n (bit own 3) * 8 + b2n (bit own 2) * 4 + d.laneMode g

/-! The samples of a lane. -/

/-- What the registers and the state of lane g set for its data path. -/
def Dev.rxCfg (d : Dev) (g : Nat) : RxCfg :=
  let bank (b : Bool) : List Int := (List.range 48).map fun t => d.getI (if b then R.FFE_B.COEF g t else R.FFE_A.COEF g t)
  let cursor (b : Bool) : Nat := d.get (if b then R.FFE_CTRL.CURSOR_B g else R.FFE_CTRL.CURSOR_A g)
  let act := d.on (R.FFE_STATUS.ACTIVE g)
  let tgt := d.on (R.FFE_STATUS.TARGET g)
  let x := d.ln g
  { coef := (List.range 65).map fun s => (d.getI (R.CAL_COEF.OFFSET g s), (d.get (R.CAL_COEF.GAIN g s) : Int)),
    served := x.served, spareAt := d.spareAt g, down := x.rep == .inService,
    inc := (d.included g).map (·.1), meas := x.winOpen,
    taps := bank act, cursor := cursor act, tapsT := bank tgt, cursorT := cursor tgt,
    fade := if d.on (R.FFE_STATUS.FADING g) then some x.fadeK else none,
    thr := [-128 + d.getI (R.DEC_THR.THR_LO g), d.getI (R.DEC_THR.THR_MID g), 128 + d.getI (R.DEC_THR.THR_HI g)],
    mode := d.laneMode g,
    dfe := if d.laneMode g = 0 ∧ x.dfeOn then some (d.get (R.DFE_CTRL.H1 g)) else none,
    h1 := d.getI (R.MLSE_CTRL.H1 g), h2 := d.getI (R.MLSE_CTRL.H2 g), mse := d.get (R.LMS_MSE.MSE g),
    lms := !d.on (R.LMS_STATUS.FROZEN g), chk := d.get (R.PAT_CTRL.CHK g), sync := d.on (R.PAT_CTRL.SYNC g),
    eye := if d.spareMode g = 2 then
      let (v, ofs, dwell) := x.rx.eyeSet
      some (v, (x.ref.getD v 0 + x.ref.getD (v + 1) 0) / 2 + ofs, 2 ^ dwell) else none,
    loop := d.get (R.LB_STATUS.ACTIVE g) }

/-- The global lane the modem rides on. -/
def Dev.tlLane (d : Dev) (o : Nat) : Nat := 8 * o + d.get (R.TL_CTRL.LANE o)

/-- R123: the selected lane lets the modem run: not in DEEP, no timestamp calibration. -/
def Dev.tlLaneOk (d : Dev) (o : Nat) : Bool :=
  let g := d.tlLane o
  !(d.txState g == 2 && d.rxState g == 2) && !(d.ln g).tscRun

/-- R123: the modem of octet o runs. -/
def Dev.tlRuns (d : Dev) (o : Nat) : Bool := d.on (R.TL_CTRL.EN o) && d.tlLaneOk o

/-- R129: the Tideline receiver of lane g's octet, riding on it, takes the envelope of each L-cycle: RXQ does not stop it (R18). -/
def Dev.tlWords (d : Dev) (g : Nat) (ws : List LaneWord) : Dev :=
  if d.tlRuns (g / 8) ∧ d.tlLane (g / 8) = g then
    d.onT (g / 8) fun x => ws.foldl (fun x w =>
      let (v, cic) := x.cic.step 40 256 (envelope w)
      { x with cic, dec := match v with | some v => (v :: x.dec).take 16 | none => x.dec }) x
  else d

/-- R82: what the converter of lane g takes: the pins, or in near-end serial loopback the codes launched. -/
def Dev.rxInput (d : Dev) (g : Nat) (ws : List LaneWord) : List LaneWord :=
  if d.get (R.LB_STATUS.ACTIVE g) = 1 then
    let q := (d.ln g).tx.loop
    (List.range ws.length).map fun i =>
      { ws.getD i ⟨[], [], []⟩ with x := (q.getD i (List.replicate 128 0)).map (BitVec.ofInt 8) }
  else ws

/-- The lane words ws, oldest first, pass through the receive path of lane g: nothing but its data path, its window's statistics and the
Tideline decimator changes. In RXQ and DEEP stages 2 and later stand still (R18, R47). -/
def Dev.rxWords (d : Dev) (g : Nat) (ws : List LaneWord) : Dev :=
  if ws.isEmpty ∨ d.rxState g = 2 then d
  else
    let ws := d.rxInput g ws
    let d := d.tlWords g ws
    if d.cal g = calHold then d
    else
      let c := d.rxCfg g
      d.onL g fun x => ws.foldl c.lane x

/-! The commands. The lane words a command carries are those since the last command of the lane that carried any. -/

def execFreqWindowEnd (g : Lane) (dep : Int) (s : State) : Host.Outcome State Fault Refusal :=
  s.on fun d => d.live (g / 8) fun d => d.freqWindow g dep

def execElasticSwitch (g : Lane) (s : State) : Host.Outcome State Fault Refusal :=
  s.on fun d => d.live (g / 8) fun d => d.elasticSwitch g

/-- R23: the elastic stage slips one C-cycle, counted per octet (R307). -/
def execElasticSlip (g : Lane) (s : State) : Host.Outcome State Fault Refusal :=
  s.on fun d => d.live (g / 8) fun d => if d.on (R.LAT_RX.ELASTIC g) then d.bump (Ctr.oct (g / 8) 11) else d

/-- R38: 1,024 L-cycles pass with an RMS phase error of err / 65,536 UI. -/
def execCdrLockSet (g : Lane) (err : Nat) (s : State) : Host.Outcome State Fault Refusal :=
  s.on fun d => d.live (g / 8) fun d => if d.cdrRuns g ∧ 32 * err < 65536 then d.set (R.RX_STATUS.CDR_LOCK g) 1 else d

/-- R38: 1,024 L-cycles pass with an RMS phase error of err / 65,536 UI. -/
def execCdrLockClear (g : Lane) (err : Nat) (s : State) : Host.Outcome State Fault Refusal :=
  s.on fun d => d.live (g / 8) fun d => if 65536 < 16 * err then d.cdrClear g else d

/-- R39: over 256 L-cycles the RMS of the codes stays at or below rms / 16. -/
def execLosSet (g : Lane) (rms : Nat) (s : State) : Host.Outcome State Fault Refusal :=
  s.on fun d => d.live (g / 8) fun d => if rms < 16 * d.get (R.LOS_CTRL.THR g) then d.losSet g else d

/-- R39: over 4,096 L-cycles the RMS of the codes stays at or above rms / 16. -/
def execLosClear (g : Lane) (rms : Nat) (s : State) : Host.Outcome State Fault Refusal :=
  s.on fun d => d.live (g / 8) fun d =>
    if d.rxState g ≠ 2 ∧ 16 * (d.get (R.LOS_CTRL.THR g) + d.get (R.LOS_CTRL.HYST g)) < rms then d.set (R.RX_STATUS.LOS g) 0 else d

def execUpdatePoint (x : With Lane (List LaneWord)) (s : State) : Host.Outcome State Fault Refusal :=
  s.on fun d => d.live (x.obj / 8) fun d => (d.rxWords x.obj x.inp).updatePoint x.obj

def execCalCoefWrite (src : Src) (g : Lane) (slice : Fin 65) (val : BitVec 32) (s : State) : Host.Outcome State Fault Refusal :=
  s.on fun d => d.gate src (A.CAL_COEF g slice) fun d => d.writeCoef g slice val

def execCalWindowEnd (g : Lane) (ws : List LaneWord) (s : State) : Host.Outcome State Fault Refusal :=
  s.on fun d => d.live (g / 8) fun d => (d.rxWords g ws).windowEnd g

/-- R47: a write of CAL_CTRL with EN = 0. -/
def execCalFreeze (src : Src) (g : Lane) (val : BitVec 32) (s : State) : Host.Outcome State Fault Refusal :=
  s.on fun d => d.gate src (A.CAL_CTRL g) fun d => d.calCtrl g (putBit val.toNat 0 false)

/-- R47: a write of CAL_CTRL with EN = 1. -/
def execCalUnfreeze (src : Src) (g : Lane) (val : BitVec 32) (s : State) : Host.Outcome State Fault Refusal :=
  s.on fun d => d.gate src (A.CAL_CTRL g) fun d => d.calCtrl g (putBit val.toNat 0 true)

/-- R51: a write of SPARE_CTRL with REPAIR_EN = 1. -/
def execRepairRequest (src : Src) (g : Lane) (val : BitVec 32) (s : State) : Host.Outcome State Fault Refusal :=
  s.on fun d => d.gate src (A.SPARE_CTRL g) fun d => d.spareCtrl g (putBit val.toNat 0 true)

def execSpareTakeover (g : Lane) (s : State) : Host.Outcome State Fault Refusal :=
  s.on fun d => d.live (g / 8) fun d => d.takeover g

/-- R51: a write of SPARE_CTRL with REPAIR_EN = 0. -/
def execRepairRelease (src : Src) (g : Lane) (val : BitVec 32) (s : State) : Host.Outcome State Fault Refusal :=
  s.on fun d => d.gate src (A.SPARE_CTRL g) fun d => d.spareCtrl g (putBit val.toNat 0 false)

/-- R54: a write to a tap of bank A (false) or B (true), or to FFE_CTRL. -/
def execFfeTapWrite (src : Src) (g : Lane) (tap : Option (Bool × Fin 48)) (val : BitVec 32) (s : State) :
    Host.Outcome State Fault Refusal :=
  s.on fun d =>
    match tap with
    | some (b, t) => d.gate src (if b then A.FFE_B g t else A.FFE_A g t) fun d => d.ffeTap g b t val.toNat
    | none => d.gate src (A.FFE_CTRL g) fun d => d.ffeCtrl g val.toNat

/-- A write to FFE_BANK_SEL. -/
def Dev.bankSel (d : Dev) (g v : Nat) : Dev :=
  let d := d.sw Row.FFE_BANK_SEL (A.FFE_BANK_SEL g) v
  d.swapRequest g (d.get (R.FFE_BANK_SEL.SEL g)) (d.get (R.FFE_BANK_SEL.FADE_K g))

def execSwapRequest (src : Src) (g : Lane) (val : BitVec 32) (s : State) : Host.Outcome State Fault Refusal :=
  s.on fun d => d.gate src (A.FFE_BANK_SEL g) fun d => d.bankSel g val.toNat

def execFadeEnd (x : With Lane (List LaneWord)) (s : State) : Host.Outcome State Fault Refusal :=
  s.on fun d => d.live (x.obj / 8) fun d => (d.rxWords x.obj x.inp).fadeEnd x.obj

def execLmsUpdate (g : Lane) (ws : List LaneWord) (s : State) : Host.Outcome State Fault Refusal :=
  s.on fun d => d.live (g / 8) fun d => (d.rxWords g ws).lmsUpdate g

def execMseBlockEnd (g : Lane) (ws : List LaneWord) (s : State) : Host.Outcome State Fault Refusal :=
  s.on fun d => d.live (g / 8) fun d => (d.rxWords g ws).mseBlock g

def execLmsCtrlWrite (src : Src) (g : Lane) (val : BitVec 32) (s : State) : Host.Outcome State Fault Refusal :=
  s.on fun d => d.gate src (A.LMS_CTRL g) fun d => d.lmsCtrl g val.toNat

end Sys2Proof.Machine
end

