-- ==== Sys2Proof/Machine/PortOps.lean ====
section
/-! DEFINITION. The ports of an octet and their state machine (spec/04, R104, R105), as the training, marker and mode families
use them. -/

namespace Sys2Proof.Machine

/-- PORT_STATUS.STATE: 0 DOWN, 1 MARKER, 2 DESKEW, 3 UP. -/
def Dev.portState (d : Dev) (o p : Nat) : Nat := d.get (R.PORT_STATUS.STATE o p)

/-- The port of slot p is UP. -/
def Dev.portUp (d : Dev) (o p : Nat) : Bool := d.portState o p == 3

/-- R104, R177: the port enters a state; UP ends a flush of its queues and finds codeword lock, a codeword A next (R101); the
change raises the octet's port source and tells the keeper. -/
def Dev.setPort (d : Dev) (o p st : Nat) : Dev :=
  if d.portState o p = st then d
  else
    let d := (d.set (R.PORT_STATUS.STATE o p) st).flag (R.PORT_STATUS.UP o p) (st == 3)
    let d := d.set (R.PORT_STATUS.MISWIRE o p) 0
    let d := if st = 3 then { d with fab := { d.fab with flushed := d.fab.flushed.filter (· != 8 * o + p) } } else d
    let d := (d.onPt o p fun x =>
      let x := { x with skews := none, uncRun := 0 }
      if st = 3 then { x with half := false, cwNo := 0, badCw := [] } else x).orF (R.PORT_CHG.SLOT o) (2 ^ p)
    d.notice o 1 1 p

/-- No lane of the port counts as having entered DATA, and its BER windows are discarded (R104, R110). -/
def Dev.forgetData (d : Dev) (o p : Nat) : Dev :=
  (d.portLanes o p).foldl (fun d g => d.onL g fun x => { x with inData := false, ber := 0 }) d

/-- R104: the port exits to DOWN; a frame in progress ends in error. -/
def Dev.portDown (d : Dev) (o p : Nat) : Dev :=
  if d.portState o p = 0 then d
  else ((((d.cutFrames (8 * o + p)).setPort o p 0).inc (R.PORT_STATUS.DOWN_CNT o p)).bump (Ctr.oct o 10)).forgetData o p

/-- TRN_STATUS.STATE of lane g: 0 OFF, 1 TRAIN, 2 READY, 3 DATA, 4 FAIL. -/
def Dev.trn (d : Dev) (g : Nat) : Nat := d.get (R.TRN_STATUS.STATE g)

/-- R104: the events of the port that follow from the training states and the markers of its lanes. -/
def Dev.portStep (d : Dev) (o p : Nat) : Dev :=
  let ls := d.portLanes o p
  if d.portState o p = 0 then
    if ls.all fun g => d.trn g == 3 && (d.ln g).inData then d.setPort o p 1 else d
  else if d.portState o p = 1 then
    let bad := ls.any fun g => d.mlock g && (d.ln g).mkBad
    let d := d.flag (R.PORT_STATUS.MISWIRE o p) bad
    if !bad && ls.all fun g => d.mlock g then d.setPort o p 2 else d
  else d

/-- The port of lane g. -/
def Dev.laneSlot (d : Dev) (g : Nat) : Nat := d.slotOf (g / 8) (g % 8)

/-- R102, R104: lane g enters DATA; its marker search starts. -/
def Dev.enterData (d : Dev) (g : Nat) : Dev :=
  (d.onL g fun x => { x with inData := true, mkIndex := none, mkMiss := 0, mkBad := false }).portStep (g / 8) (d.laneSlot g)

/-- R104: lane g leaves DATA. -/
def Dev.leaveData (d : Dev) (g : Nat) : Dev :=
  (d.onL g fun x => { x with inData := false }).portDown (g / 8) (d.laneSlot g)

end Sys2Proof.Machine
end

