-- ==== Sys2Proof/Machine/Edge.lean ====
section
/-! DEFINITION. The analog edge of an octet (spec/09): scan and reference control, filter chains, calibration, thresholds, outputs. -/

namespace Sys2Proof.Machine

/-- The number of loops and of monitor inputs of an octet. -/
def loopsN : Nat := 20

/-- The inputs a mask enables. -/
def maskInputs (m : Nat) : List Nat := (List.range loopsN).filter (bit m)

/-- The inputs in AE_SCAN_MASK. -/
def Dev.scanMask (d : Dev) (o : Nat) : Nat := d.get (R.AE_SCAN_MASK.MASK o)

/-- The X-cycles of octet o's tick period that have passed, 65.536 MHz against the engines' 2 GHz (R18). -/
def Dev.xNow (d : Dev) (o : Nat) : Nat := min (d.w o).period ((d.up - (d.w o).tickUp) * 4096 / 125000)

/-- R231, R242: a tick period of octet o begins: after a tick, a reset, an exit from RETAIN. -/
def Dev.startPeriod (d : Dev) (o : Nat) : Dev := d.onW o fun w => { w with tickUp := d.up }

/-- R258: the arrival X-cycle of the code of a conversion that takes place now. -/
def Dev.arriveNow (d : Dev) (o : Nat) : Nat := d.xNow o + 9

/-- R264: chain i loses its validity and history. -/
def Dev.clearChain (d : Dev) (o i : Nat) : Dev :=
  let x := d.arriveNow o
  let d := (d.onCh o i fun c => { c with n := 0, cut := x, cic := {}, hist := [], age := 0 }).clrF (R.AE_STATUS.VALID o) (2 ^ i)
  d.setReg (A.CH_VALUE o i) 0

/-- R264: every chain is cleared. -/
def Dev.clearChains (d : Dev) (o : Nat) : Dev := (List.range loopsN).foldl (fun d i => d.clearChain o i) d

/-- R258: SCANNING shows that conversions take place: the scan runs with some input in the mask. -/
def Dev.showScan (d : Dev) (o : Nat) : Dev := d.flag (R.AE_STATUS.SCANNING o) ((d.w o).scan && d.scanMask o != 0)

/-- R258: rounds begin anew, the first code arriving in X-cycle x of the period; block mode waits for the next tick (R265). -/
def Dev.freshRounds (d : Dev) (o x : Nat) : Dev :=
  let m := d.scanMask o
  d.onW o fun w => { w with lead := x, pos := 0, mask := m, maskCut := 0, round := false }

/-- R258, R264: the scan starts. -/
def Dev.runScan (d : Dev) (o x : Nat) : Dev :=
  (((d.onW o fun w => { w with scan := true, scanWait := false }).freshRounds o x).clearChains o).showScan o

/-- R258, R268: conversions start, or wait for the tick after a calibration. -/
def Dev.startScan (d : Dev) (o : Nat) : Dev :=
  if (d.w o).cal then d.onW o fun w => { w with scanWait := true } else d.runScan o (d.arriveNow o)

/-- Conversions stop. -/
def Dev.stopScan (d : Dev) (o : Nat) : Dev :=
  ((d.onW o fun w => { w with scan := false, round := false, scanWait := false }).clearChains o).showScan o

/-- R260: REF_SETTLED clears. -/
def Dev.unsettle (d : Dev) (o : Nat) : Dev := (d.set (R.AE_STATUS.REF_SETTLED o) 0).clearChains o

/-- R259: CH_RAW for a code. -/
def Dev.rawView (d : Dev) (o i code : Nat) : Nat :=
  let v := if i < 18 then code else ofS 14 ((code : Int) - 8192)
  if d.on (R.AE_CTRL.ALIGN o) then v * 4 else if i < 18 then v else ofS 16 (toS 14 v)

/-- R259: CH_RAW shows the latest code of input i under ALIGN. -/
def Dev.showRaw (d : Dev) (o i : Nat) : Dev :=
  match (d.ch o i).raw with
  | some code => d.set (R.CH_RAW.RAW o i) (d.rawView o i code)
  | none => d

/-- R259, R260, R264, R268: a write to AE_CTRL. -/
def Dev.aeCtrl (d : Dev) (o v : Nat) : Dev :=
  let on := d.on (R.AE_CTRL.SCAN_EN o)
  let mode := d.get (R.AE_CTRL.MODE o)
  let ref := d.get (R.AE_CTRL.REF_SEL o)
  let d := d.sw Row.AE_CTRL (A.AE_CTRL o) v
  let d := (List.range loopsN).foldl (fun d i => d.showRaw o i) d
  let d := if d.on (R.AE_CTRL.SCAN_EN o) ∧ !on then d.startScan o else if !d.on (R.AE_CTRL.SCAN_EN o) ∧ on then d.stopScan o else d
  let d := if d.get (R.AE_CTRL.MODE o) ≠ mode then (d.clearChains o).freshRounds o (d.arriveNow o) else d
  if d.get (R.AE_CTRL.REF_SEL o) ≠ ref then
    let d := d.unsettle o
    if (d.w o).cal then
      let d := (d.set (R.AE_STATUS.RESULT o) 4).onW o fun w => { w with cal := false }
      d
    else d
  else d

/-- R258, R264: a write to AE_SCAN_MASK: the chains it touches are cleared, and the next round takes it up. -/
def Dev.aeMask (d : Dev) (o v : Nat) : Dev :=
  let old := d.scanMask o
  let d := d.sw Row.AE_SCAN_MASK (A.AE_SCAN_MASK o) v
  let new := d.scanMask o
  let x := d.arriveNow o
  let d := if old = new then d else d.onW o fun w => { w with maskCut := x }
  (if (maskInputs old).length ≠ (maskInputs new).length then d.clearChains o
  else (maskInputs (old ^^^ new)).foldl (fun d i => d.clearChain o i) d).showScan o

/-- R264: a write to CH_CFG of chain i. -/
def Dev.chCfg (d : Dev) (o i v : Nat) : Dev := (d.sw Row.CH_CFG (A.CH_CFG o i) v).clearChain o i

/-- R256: a write to AE_OUT_CTRL: a cleared enable acts at once, a set one at the next tick. -/
def Dev.aeOut (d : Dev) (o v : Nat) : Dev :=
  let d := d.sw Row.AE_OUT_CTRL (A.AE_OUT_CTRL o) v
  d.onW o fun w => { w with drive := w.drive &&& d.reg (A.AE_OUT_CTRL o) }

/-- R268: a write to AE_CAL_CTRL. -/
def Dev.aeCal (d : Dev) (o v : Nat) : Dev :=
  if !bit v 31 ∨ (d.w o).cal then d
  else if d.on (R.AE_CTRL.SCAN_EN o) ∨ d.on (R.AE_STATUS.SCANNING o) ∨ !d.on (R.AE_STATUS.REF_SETTLED o) then
    d.set (R.AE_STATUS.RESULT o) 4
  else (d.set (R.AE_STATUS.RESULT o) 1).onW o fun w => { w with cal := true }

/-- A coefficient of R268 that its field can hold; the spec states no result beyond the field (log 16). -/
def Dev.fitOr (d : Dev) (lo hi x : Int) (w : Nat) : Nat × Dev :=
  if lo ≤ x ∧ x ≤ hi then (ofS w x, d) else (let (v, d) := d.draw; (v.toNat % 2 ^ w, d))

/-- R268: the calibration ends: range is the outcome of step 2, which the bandgap passes by construction, z and f the sums of the 1,024 conversions of steps 3 and 4. -/
def Dev.calDone (d : Dev) (o : Nat) (range : Bool) (z f : Int) : Dev :=
  if !(d.w o).cal then d
  else
    let d := d.onW o fun w => { w with cal := false }
    let r := d.get (R.AE_CTRL.REF_SEL o)
    if (range ∨ r = 0) ∧ (z - 8192 * 1024).natAbs ≤ 512 * 1024 ∧ (f - z - 6144 * 1024).natAbs ≤ 768 * 1024 then
      let (ofs, d) := d.fitOr (-8192) 8191 (roundDiv (16 * (z - 8192 * 1024)) 1024) 16
      let (gain, d) := d.fitOr 0 65535 (32768 + roundDiv ((6144 * 1024 - (f - z)) * 262144) (f - z).toNat) 16
      let d := (d.set (R.AE_CAL.OFS o r) ofs).set (R.AE_CAL.GAIN o r) gain
      (d.orF (R.AE_STATUS.CAL_VALID o) (2 ^ r)).set (R.AE_STATUS.RESULT o) 2
    else d.set (R.AE_STATUS.RESULT o) 3

/-- R260, R264: the reference buffer has settled: codes of conversions from now on count. -/
def Dev.refSettled (d : Dev) (o : Nat) : Dev :=
  if d.on (R.AE_STATUS.REF_SETTLED o) then d
  else
    let x := d.arriveNow o
    (d.set (R.AE_STATUS.REF_SETTLED o) 1).onW o fun w => { w with refCut := x }

/-- R260: the reference is not settled 200 µs after it cleared. -/
def Dev.refFail (d : Dev) (o : Nat) : Dev :=
  if d.on (R.AE_STATUS.REF_SETTLED o) then d else d.set (R.AE_STATUS.REF_FAIL o) 1

/-- R257: heater j has been out of regulation for 16 X-cycles. -/
def Dev.dropout (d : Dev) (o j : Nat) : Dev :=
  if bit (d.get (R.AE_DROPOUT.LIVE o)) j then d
  else ((d.orF (R.AE_DROPOUT.LIVE o) (2 ^ j)).orF (R.AE_DROPOUT.SEEN o) (2 ^ j)).bump (Ctr.oct o 8)

/-- R257: it is back in regulation. -/
def Dev.regulated (d : Dev) (o j : Nat) : Dev := d.clrF (R.AE_DROPOUT.LIVE o) (2 ^ j)

/-! At a tick. -/

/-- R262: the channel value of input i for a chain output a, in codes relative to mid-scale. -/
def Dev.channelValue (d : Dev) (o i : Nat) (a : Rat) : Int :=
  let r := d.get (R.AE_CTRL.REF_SEL o)
  let c := (a - (d.getI (R.AE_CAL.OFS o r) : Rat) / 16) * (1 + ((d.get (R.AE_CAL.GAIN o r) : Int) - 32768 : Int) / 262144)
  let v := 512 * (if i < 18 then 8192 + c else c)
  clampI (-8388608) 8388607 (roundDiv v.num v.den)

/-- Conversions of one input in a block-mode round that begins now. -/
def Dev.dwell (d : Dev) (o : Nat) : Nat := d.get (R.AE_CTRL.SKIP o) + 2 ^ d.get (R.AE_CTRL.BLK_EXP o)

/-- Conversions of one input in the round of octet o that has run. -/
def WeirSt.dwell (w : WeirSt) : Nat := w.skip + 2 ^ w.blk

/-- The position of input i in a mask's order. -/
def maskPos (m i : Nat) : Nat := ((maskInputs m).filter (· < i)).length

/-- R263, R265: CH_DELAY of input i: twice its group delay; in block mode that of the round that has run, or of the one that begins. -/
def Dev.delay2 (d : Dev) (o i : Nat) : Nat :=
  let w := d.w o
  if d.on (R.AE_CTRL.MODE o) then
    let (m, skip, blk) := if w.round then (w.mask, w.skip, w.blk) else (d.scanMask o, d.get (R.AE_CTRL.SKIP o), d.get (R.AE_CTRL.BLK_EXP o))
    2 * w.period - 2 * maskPos m i * (skip + 2 ^ blk) - 2 * skip - (2 ^ blk - 1)
  else
    let n := (maskInputs w.mask).length
    let r := d.get (R.CH_CFG.RATIO o i)
    26 + n * (3 * (r - 1) + r * (d.get (R.CH_CFG.AVG o i) - 1) + 15 * r)

/-- R258: the arrivals of a continuous scan from X-cycle x on, n of them: X-cycle and input; then the mask in force and the place in its
round. A mask written takes effect at the first round boundary from X-cycle cut on (R264). -/
def scanOrder (new cut : Nat) : Nat → Nat → Nat → Nat → List (Nat × Nat) × Nat × Nat
  | 0, _, mask, pos => ([], mask, pos)
  | n + 1, x, mask, pos =>
    let mask := if pos = 0 ∧ cut ≤ x then new else mask
    let l := maskInputs mask
    let rest := scanOrder new cut n (x + 1) mask ((pos + 1) % max 1 l.length)
    match l[pos]? with
    | some i => ((x, i) :: rest.1, rest.2)
    | none => rest

/-- The k-th code an input delivers in a period; one that the list does not give repeats the last. -/
def codeAt (l : List (BitVec 14)) (k : Nat) : Nat := (l.getD k (l.getLastD 0)).toNat

/-- R261, R264: a chain takes a code that arrives in X-cycle x of a period of p; counts says whether it counts. -/
def ChainSt.take (c : ChainSt) (ratio avg p x code : Nat) (counts : Bool) : ChainSt :=
  let c := { c with raw := some code }
  if !counts || decide (x < c.cut) then c
  else
    let (out, s) := c.cic.step 50 ratio ((code : Int) - 8192)
    let c := { c with n := c.n + 1, cic := s }
    match out with
    | some y => { c with hist := (y :: c.hist).take (avg + 20), age := p - x }
    | none => c

/-- R261: coefficient t of phase p of the resampler: a symmetric prototype, each phase with a DC gain of 1 (log 118). -/
def resTap (p t : Nat) : Rat :=
  let g (t : Nat) : Rat := Config.filterTap (min (32 * t + p) (511 - (32 * t + p)))
  g t + (1 - (List.range 16).foldl (fun s t => s + g t) 0) / 16

/-- R261, R263: the output of chain c at a tick, in codes: the phase is the nearest to the instant tick − D, the newest outputs used being those
whose code arrived at least 4 X-cycles before the tick; n inputs are scanned. -/
def ChainSt.out (c : ChainSt) (ratio avg n : Nat) : Rat :=
  let step := ratio * n
  let k := (4 - c.age + (step - 1)) / step
  let phase := min 31 (32 * (c.age + k * step - 4) / step)
  let mean (t : Nat) : Int := ((c.hist.drop (k + t)).take avg).sum
  let s : Rat := (List.range 16).foldl (fun s t => s + resTap phase t * (mean t : Rat)) 0
  s / (avg * ratio ^ 3 : Nat)

/-- R265, R266: input i in a block-mode round that has run: whether its block completed, with codes that count; the codes it kept; the codes
that arrived. -/
def Dev.aeBlock (d : Dev) (o i : Nat) (l : List (BitVec 14)) : Bool × List Nat × Nat :=
  let w := d.w o
  let s := w.dwell
  let p := maskPos w.mask i
  let done := decide ((p + 1) * s + 11 ≤ w.period)
  let clean := d.on (R.AE_STATUS.REF_SETTLED o) && decide (max w.refCut (d.ch o i).cut ≤ p * s + 9)
  (done && clean, if done then (List.range (2 ^ w.blk)).map fun k => codeAt l (w.skip + k) else [], min s (w.period - 9 - p * s))

/-- R269: the thresholds of chain i at a tick. -/
def Dev.thresholds (d : Dev) (o i : Nat) (valid : Bool) (v : Int) : Dev :=
  let hyst : Int := d.get (R.CH_THR_CFG.HYST o i)
  let hi := d.getI (R.CH_THR_HI.LEVEL o i)
  let lo := d.getI (R.CH_THR_LO.LEVEL o i)
  let hiEn := d.on (R.CH_THR_CFG.HI_EN o i)
  let loEn := d.on (R.CH_THR_CFG.LO_EN o i)
  let above := bit (d.get (R.THR_ABOVE.LIVE o)) i
  let below := bit (d.get (R.THR_BELOW.LIVE o)) i
  let c := d.ch o i
  let d := d.onCh o i fun c => { c with hiOn := hiEn, loOn := loEn }
  let live (d : Dev) (f : Fld) (b : Bool) : Dev := if b then d.orF f (2 ^ i) else d.clrF f (2 ^ i)
  let d :=
    if !hiEn then live d (R.THR_ABOVE.LIVE o) false
    else if !valid then d
    else if !c.hiOn then live d (R.THR_ABOVE.LIVE o) (decide (hi ≤ v))
    else if !above ∧ hi ≤ v then (live d (R.THR_ABOVE.LIVE o) true).orF (R.THR_UP_SEEN.SEEN o) (2 ^ i)
    else if above ∧ v < hi - hyst then live d (R.THR_ABOVE.LIVE o) false
    else d
  if !loEn then live d (R.THR_BELOW.LIVE o) false
  else if !valid then d
  else if !c.loOn then live d (R.THR_BELOW.LIVE o) (decide (v ≤ lo))
  else if !below ∧ v ≤ lo then (live d (R.THR_BELOW.LIVE o) true).orF (R.THR_DN_SEEN.SEEN o) (2 ^ i)
  else if below ∧ lo + hyst < v then live d (R.THR_BELOW.LIVE o) false
  else d

/-- R259, R261 to R266: chain i at a tick: its state, what the input converted since the last tick set in OVR, its output if it is valid. -/
def Dev.chainRun (d : Dev) (o i : Nat) (arrivals : List (Nat × Nat)) (l : List (BitVec 14)) : ChainSt × Bool × Option Rat :=
  let w := d.w o
  let c := d.ch o i
  let extreme (x : Nat) : Bool := x == 0 || x == 16383
  if !w.scan then (c, false, none)
  else if d.on (R.AE_CTRL.MODE o) then
    if !w.round || !bit w.mask i then (c, false, none)
    else
      let (ok, kept, n) := d.aeBlock o i l
      let c := if n = 0 then c else { c with raw := some (codeAt l (n - 1)) }
      (c, kept.any extreme, if ok && bit (d.scanMask o) i then some ((kept.sum : Int) / (2 ^ w.blk : Nat) - 8192 : Rat) else none)
  else
    let ratio := d.get (R.CH_CFG.RATIO o i)
    let avg := d.get (R.CH_CFG.AVG o i)
    let settled := d.on (R.AE_STATUS.REF_SETTLED o)
    let xs := (arrivals.filter (·.2 == i)).map (·.1)
    let codes := xs.zip ((List.range xs.length).map (codeAt l))
    let e := codes.foldl (fun e x => e.take ratio avg w.period x.1 x.2 (settled && decide (w.refCut ≤ x.1))) { c with age := c.age + w.period }
    let counted := codes.filter fun x => settled && decide (max w.refCut c.cut ≤ x.1)
    (e, counted.any fun x => extreme x.2,
      if settled && bit (d.scanMask o) i && bit w.mask i && decide (ratio * (avg + 18) ≤ e.n) then
        some (e.out ratio avg (maskInputs w.mask).length)
      else none)

/-- R259, R261 to R266: chain i at a tick. -/
def Dev.chainTick (d : Dev) (o i : Nat) (arrivals : List (Nat × Nat)) (l : List (BitVec 14)) : Dev :=
  let (c, ovr, out) := d.chainRun o i arrivals l
  let p := (d.w o).period
  let d := (d.onCh o i fun _ => { c with cut := c.cut - p }).showRaw o i
  let d := if ovr then d.orF (R.AE_OVR.OVR o) (2 ^ i) else d
  let d := d.setReg (A.CH_DELAY o i) (d.delay2 o i)
  match out with
  | some a =>
    let v := d.channelValue o i a
    ((d.setReg (A.CH_VALUE o i) (2 ^ 31 + ofS 24 v)).orF (R.AE_STATUS.VALID o) (2 ^ i)).thresholds o i true v
  | none => ((d.setReg (A.CH_VALUE o i) 0).clrF (R.AE_STATUS.VALID o) (2 ^ i)).thresholds o i false 0

/-- R258, R264 to R266, R268: the analog edge at a tick: the codes of the period are taken, a round that did not fit is reported, a held scan
starts, the next round begins. ins gives, per input, the codes it delivered in the period in the order of its conversions. -/
def Dev.edgeTick (d : Dev) (o : Nat) (ins : List (List (BitVec 14))) : Dev :=
  let w := d.w o
  let over_ := w.round && decide (w.period < (maskInputs w.mask).length * w.dwell + 11)
  let d := if over_ then (d.set (R.AE_STATUS.ROUND_OVR o) 1).bump (Ctr.oct o 9) else d
  let continuous := w.scan && !d.on (R.AE_CTRL.MODE o)
  let (arrivals, mask, pos) :=
    if continuous then scanOrder (d.scanMask o) w.maskCut (w.period - w.lead) w.lead w.mask w.pos else ([], w.mask, w.pos)
  let d := if continuous then d.onW o fun w => { w with mask, pos } else d
  let d := ((List.range loopsN).zip ins).foldl (fun d e => d.chainTick o e.1 arrivals e.2) d
  let d := d.onW o fun w => { w with lead := w.lead - w.period, maskCut := w.maskCut - w.period, refCut := w.refCut - w.period }
  let d := d.startPeriod o
  let d := if w.scanWait ∧ !w.cal then d.runScan o 9 else d
  let m := d.scanMask o
  let skip := d.get (R.AE_CTRL.SKIP o)
  let blk := d.get (R.AE_CTRL.BLK_EXP o)
  if (d.w o).scan && d.on (R.AE_CTRL.MODE o) then d.onW o fun w => { w with round := true, mask := m, skip, blk }
  else d.onW o fun w => { w with round := false }

end Sys2Proof.Machine
end

