-- ==== Sys2Proof/Machine/Weir.lean ====
section
/-! DEFINITION. The loop coprocessor (spec/08): writes latched for a tick, the loop sample, the outputs. -/

namespace Sys2Proof.Machine

/-! Latched writes (R231, R233). -/

/-- A write or request that waits for the next tick of octet o. -/
def Dev.latch (d : Dev) (o : Nat) (x : WOp) : Dev := d.onW o fun w => { w with ops := w.ops ++ [x] }

/-- The code of a mode (R240). -/
def lmMANUAL : Nat := 0
def lmAUTO : Nat := 1
def lmHOLD : Nat := 2

/-- The mode in force of loop j. -/
def Dev.lmode (d : Dev) (o j : Nat) : Nat := d.get (R.L_STATUS.MODE o j)

/-- The loops of a mask. -/
def loopsOf (m : Nat) : List Nat := (List.range loopsN).filter (bit m)

/-- R240, R242: a mode requested for the loops of a mask, with PARK. -/
def Dev.modeSet (d : Dev) (o mode : Nat) (park : Bool) (mask : Nat) : Dev :=
  let mode := min mode lmHOLD
  (loopsOf mask).foldl (fun d j =>
    let d := d.set (R.L_CTRL.MODE o j) mode
    if park ∧ mode = lmMANUAL then d.set (R.MAN_OUT.VAL o j) (d.get (R.PARK.VAL o j)) else d) d

/-- R239: a target written; ARRIVED clears where it changes. -/
def Dev.setTarget (d : Dev) (o j v : Nat) : Dev :=
  if d.get (R.TARGET.T o j) = v % 2 ^ 24 then d
  else (d.set (R.TARGET.T o j) v).onLp o j fun x => { x with tgt := true }

/-- The word of the memory at an address. -/
def Dev.rcWord (d : Dev) (o a : Nat) : Int := Tbl.get 0 (d.w o).mem (a % 32768)

/-- A word written to the memory by software: the loops remember the word their last sample saw (R243). -/
def Dev.rcWrite (d : Dev) (o a : Nat) (v : Int) : Dev :=
  let a := a % 32768
  let old := d.rcWord o a
  let d := (List.range loopsN).foldl (fun d j =>
    d.onLp o j fun x => if !x.prev.rcEn || x.rcOld.any (·.1 == a) then x else { x with rcOld := Tbl.ins a old x.rcOld }) d
  d.onW o fun w => { w with mem := Tbl.set 0 w.mem a v }

/-- R246: the windows of the named loops zeroed. -/
def Dev.rcClear (d : Dev) (o mask : Nat) : Dev :=
  (loopsOf mask).foldl (fun d j =>
    (List.range (d.get (R.RC_WIN.PERIOD o j))).foldl (fun d x => d.rcWrite o (d.get (R.RC_WIN.BASE o j) + x) 0) d) d

/-- The row of a loop register by its offset within the loop (spec/08). -/
def loopRow : Nat → RegRow
  | 0x00 => Row.L_CTRL | 0x04 => Row.L_STATUS | 0x08 => Row.TARGET | 0x0C => Row.RAMP_RATE | 0x10 => Row.RAMP_ACC | 0x14 => Row.KP
  | 0x18 => Row.KI | 0x1C => Row.KD | 0x20 => Row.I_LO | 0x24 => Row.I_HI | 0x28 => Row.OUT_LO | 0x2C => Row.OUT_HI
  | 0x30 => Row.MAN_OUT | 0x34 => Row.PARK | 0x38 => Row.MAN_RATE | 0x3C => Row.LOCK_CFG | 0x40 => Row.RC_WIN | 0x44 => Row.RC_LEARN
  | 0x48 => Row.RC_PHASE | 0x4C => Row.RC_QLIM | 0x50 => Row.DW_MODEL | 0x54 => Row.DW_GAIN | 0x58 => Row.DW_CFG
  | _ => Row.DW_BOUND

/-- A latched write to loop register x of loop j takes effect. -/
def Dev.loopWrite (d : Dev) (o j x v : Nat) : Dev :=
  let a := A.L_CTRL o j + x
  let w (d : Dev) : Dev := d.sw (loopRow x) a v
  if x = 0x00 then
    let d := if bit v 19 then d.onLp o j fun l => { l with dwInit := true } else d
    let d := w d
    let d := if d.on (R.L_CTRL.DW_EN o j) then d else d.onLp o j fun l => { l with dwOff := true }
    if 16 ≤ j then (d.set (R.L_CTRL.NORM o j) 0).set (R.L_CTRL.OUT_MAP o j) 0 else d
  else if x = 0x08 then d.setTarget o j v
  else if x = 0x24 then
    let d := w d
    d.set (R.I_HI.VAL o j) (max (d.get (R.I_HI.VAL o j)) (d.get (R.I_LO.VAL o j)))
  else if x = 0x2C then
    let d := w d
    d.set (R.OUT_HI.VAL o j) (max (d.get (R.OUT_HI.VAL o j)) (d.get (R.OUT_LO.VAL o j)))
  else if x = 0x40 then (w d).onLp o j fun l => { l with rcWr := true }
  else if x = 0x70 then d.onLp o j fun l => { l with staged := v }
  else if x = 0x74 then
    d.onLp o j fun l => { l with preset := some (toS 40 (v % 256 * 2 ^ 32 + l.staged)), staged := 0 }
  else if x ≤ 0x5C then w d
  else d

/-- A latched register write takes effect: off is the offset within the loop block. -/
def Dev.weirWrite (d : Dev) (o off v : Nat) : Dev :=
  let base := A.WEIR_CTRL o
  if off = 0x00 then d.sw Row.WEIR_CTRL base v
  else if off = 0x0C then d.sw Row.WEIR_IRQ_EN (base + off) v
  else if off = 0x10 then d.modeSet o (getBits v 31 30) (bit v 29) (getBits v 19 0)
  else if 0x100 ≤ off then d.loopWrite o ((off - 0x100) / 128) ((off - 0x100) % 128) v
  else d

/-- R251: the loop an operand names. -/
def opLoop (op : Nat) : Nat := min 19 (op % 32)

/-- A latched write or request takes effect; a request's reply follows at X 256. -/
def Dev.weirOp (d : Dev) (o : Nat) : WOp → Dev
  | .reg off v => d.weirWrite o off v
  | .mem a v => d.rcWrite o a (toS 32 v)
  | .req _ _ cmd op =>
    if cmd = 1 then d.modeSet o (getBits op 31 30) (bit op 29) (getBits op 19 0)
    else if cmd = 2 then d.setTarget o (opLoop op) (getBits op 63 40)
    else if cmd = 3 then d.onLp o (opLoop op) fun l => { l with preset := some (toS 40 (getBits op 63 24)) }
    else if cmd = 4 then d.rcClear o (getBits op 19 0)
    else d

/-! The loop sample. -/

/-- x / 2^n rounded to the nearest, halves away from zero (R234). -/
def rsh (x : Int) (n : Nat) : Int := roundDiv x (2 ^ n)

/-- The square root of n, truncated: bit b and those below it added to r where the square allows. -/
def isqrtFrom (n : Nat) : Nat → Nat → Nat
  | 0, r => r
  | b + 1, r => isqrtFrom n b (if (r + 2 ^ b) * (r + 2 ^ b) ≤ n then r + 2 ^ b else r)

/-- The square root of n < 2^128, truncated. -/
def isqrt (n : Nat) : Nat := isqrtFrom n 64 0

/-- R235: the measurement of loop j, if its input is valid. -/
def Dev.measure (d : Dev) (o j : Nat) : Option Int :=
  let value (i : Nat) : Option Int := if d.on (R.CH_VALUE.VALID o i) then some (d.getI (R.CH_VALUE.VALUE o i)) else none
  match d.get (R.L_CTRL.NORM o j) with
  | 0 => value j
  | n => match value j, value (15 + n) with
    | some x, some x0 => if x0 < 1024 then none else some (clampI (-8388608) 8388607 (roundDiv (x * 2 ^ 22) x0.toNat))
    | _, _ => none

/-- The compensated coefficients of loop j as its registers hold them. -/
def Dev.coef (d : Dev) (o j : Nat) : Coef :=
  { kp := d.reg (A.KP o j), kd := d.reg (A.KD o j), win := d.reg (A.RC_WIN o j), phase := d.reg (A.RC_PHASE o j),
    rcEn := d.on (R.L_CTRL.RC_EN o j) }

/-- R236: p for an error. -/
def Coef.p (c : Coef) (e : Int) : Int := rsh (getBits c.kp 31 16 * e) (getBits c.kp 4 0)

/-- R236: the derivative state after a change of the measurement; sg is σ. -/
def Coef.wNext (c : Coef) (w sg y0 y : Int) : Int := w + rsh (sg * (y0 - y) * 256 - w) (getBits c.kd 12 8)

/-- R236: d for a derivative state. -/
def Coef.d (c : Coef) (w : Int) : Int := rsh (getBits c.kd 31 16 * w) (getBits c.kd 4 0 + 8)

/-- PERIOD and BASE of a window. -/
def Coef.period (c : Coef) : Nat := getBits c.win 29 16
def Coef.base (c : Coef) : Nat := getBits c.win 14 0

/-- R245: q at phase k, the memory read by m. -/
def Coef.q (c : Coef) (m : Nat → Int) (k : Nat) (ql : Int) : Int :=
  if c.rcEn then clampI (-ql) ql (m (c.base + (k + min (getBits c.phase 28 16) (c.period - 1)) % c.period)) else 0

/-- R245: the phase of a sample: 0 where RC_EN becomes 1 or RC_WIN was written. -/
def Coef.startPhase (c : Coef) (x : LoopSt) : Nat := if c.rcEn ∧ (!x.prev.rcEn ∨ x.rcWr) then 0 else x.k

/-- A notice of the octet's weir (R252). -/
def Dev.weirNotice (d : Dev) (o code j : Nat) : Dev := d.notice o 4 code j

/-- A sticky bit of L_STATUS set. -/
def Dev.stick (d : Dev) (f : Fld) : Dev := d.set f 1

/-- R238, R239: one step of the ramp. -/
def Dev.ramp (d : Dev) (o j : Nat) : Dev :=
  let x := d.lp o j
  let t := d.getI (R.TARGET.T o j) * 256
  let rate : Int := d.get (R.RAMP_RATE.RATE o j)
  let acc : Int := d.get (R.RAMP_ACC.ACC o j)
  let dist := t - x.r
  let root : Int := isqrt (8 * acc.toNat * dist.natAbs + acc.toNat * acc.toNat)
  let mag := min rate ((root - acc) / 2)
  let vdes := if dist < 0 then -mag else if dist = 0 then 0 else mag
  let v := x.v + clampI (-acc) acc (vdes - x.v)
  let r := x.r + v
  let reach := (0 < dist ∧ 0 < v ∧ t ≤ r) ∨ (dist < 0 ∧ v < 0 ∧ r ≤ t)
  let (r, v, pass) :=
    if reach then (if (x.v.natAbs : Int) ≤ 2 * acc then (t, 0, false) else (r, v, true)) else (r, v, false)
  let d := d.onLp o j fun x => { x with r := r, v := v }
  if pass then (d.stick (R.L_STATUS.TGT_PASSED o j)).weirNotice o 7 j else d

/-- R239: ARRIVED sets at the first sample after which r = T and v = 0. -/
def Dev.arrive (d : Dev) (o j : Nat) : Dev :=
  let x := d.lp o j
  if !d.on (R.L_STATUS.ARRIVED o j) ∧ x.r = d.getI (R.TARGET.T o j) * 256 ∧ x.v = 0 then
    (d.set (R.L_STATUS.ARRIVED o j) 1).weirNotice o 6 j
  else d

/-- R236: OUT_HIeff and whether the compliance limit binds. -/
def Dev.outHi (d : Dev) (o j : Nat) : Nat × Bool :=
  let hi := d.get (R.OUT_HI.VAL o j)
  let lim := d.get (R.COMPL.LIMIT (d.get (R.CAP.BAND o)))
  if j < 16 ∧ lim < hi then (lim, true) else (hi, false)

/-- G of R247 in m-units per output unit. -/
def Dev.dwGain (d : Dev) (o j : Nat) : Rat := (d.getI (R.DW_GAIN.G_M o j) : Rat) / (2 ^ d.get (R.DW_GAIN.G_E o j) : Nat)

/-- R247, R248: the dike watch of loop j at a sample; the result says whether BREACH rises. -/
def Dev.dikeWatch (d : Dev) (o j : Nat) (y : Option Int) : Bool × Dev :=
  let d :=
    if (d.lp o j).dwOff then
      let d := d.onLp o j fun x => { x with dwOff := false, dwOn := false, brRun := 0, okRun := 0 }
      if d.on (R.L_STATUS.BREACH o j) then (d.set (R.L_STATUS.BREACH o j) 0).weirNotice o 2 j else d
    else d
  let x := d.lp o j
  let was := d.on (R.L_STATUS.BREACH o j)
  if !d.on (R.L_CTRL.DW_EN o j) then (false, d.onLp o j fun x => { x with dwOn := false, dwInit := false, brRun := 0, okRun := 0 })
  else
    let init := !x.dwOn || x.dwInit
    match y with
    | none => (false, d.onLp o j fun x => { x with dwOn := true, dwInit := init })
    | some y =>
      let g := d.dwGain o j
      let x :=
        if init then { x with hist := List.replicate 64 x.o, yhat := y, b0 := y - g * x.o, res := 0 }
        else
          let z := x.b0 + g * ((x.hist.getD (d.get (R.DW_MODEL.DLY o j)) x.o : Nat) : Rat)
          let yhat := x.yhat + (d.get (R.DW_MODEL.A o j) : Rat) / 65536 * (z - x.yhat)
          let res := (y : Rat) - yhat
          let sh := d.get (R.DW_CFG.BIAS_SH o j)
          { x with yhat := yhat, res := res, b0 := if sh = 0 then x.b0 else x.b0 + res / (2 ^ sh : Nat) }
      let bound : Rat := d.get (R.DW_BOUND.BOUND o j)
      let out := decide (bound < x.res) || decide (x.res < -bound)
      let n := d.get (R.DW_CFG.N o j)
      let x := { x with dwOn := true, dwInit := false, brRun := if out then x.brRun + 1 else 0, okRun := if out then 0 else x.okRun + 1 }
      let d := d.onLp o j fun _ => x
      if !was ∧ n ≤ x.brRun then
        let d := ((d.set (R.L_STATUS.BREACH o j) 1).stick (R.L_STATUS.BREACH_SEEN o j)).weirNotice o 1 j
        (true, d.bump (Ctr.oct o 5))
      else if was ∧ n ≤ x.okRun then (false, (d.set (R.L_STATUS.BREACH o j) 0).weirNotice o 2 j)
      else (false, d)

/-- R240: the mode changes; hardware says the weir did it. -/
def Dev.toMode (d : Dev) (o j mode cause : Nat) (hardware : Bool) : Dev :=
  let d := (d.set (R.L_STATUS.MODE o j) mode).set (R.L_STATUS.CAUSE o j) cause
  if hardware then
    (((d.set (R.L_CTRL.MODE o j) mode).stick (R.L_STATUS.HWMODE o j)).weirNotice o 3 j).bump (Ctr.oct o 7)
  else d

/-- R240: the first row of the mode table that applies. -/
def Dev.modeStep (d : Dev) (o j : Nat) (valid rise : Bool) : Dev :=
  let mode := d.lmode o j
  let req := d.get (R.L_CTRL.MODE o j)
  let act := d.get (R.L_CTRL.DW_ACT o j)
  if rise ∧ act = 2 then
    (d.set (R.MAN_OUT.VAL o j) (d.get (R.PARK.VAL o j))).toMode o j lmMANUAL 1 true
  else if mode = lmAUTO ∧ !valid then d.toMode o j lmHOLD 2 true
  else if mode = lmAUTO ∧ rise ∧ act = 1 then d.toMode o j lmHOLD 1 true
  else if req = mode then d
  else if req = lmAUTO ∧ (!valid ∨ (d.on (R.L_STATUS.BREACH o j) ∧ act ≠ 0)) then
    ((d.set (R.L_CTRL.MODE o j) mode).stick (R.L_STATUS.MODE_REF o j)).weirNotice o 9 j
  else d.toMode o j req 0 false

/-- R236, R237, R241, R243: the control law in AUTO; entry says that this sample enters AUTO. -/
def Dev.control (d : Dev) (o j : Nat) (entry : Bool) (y e : Int) : Dev :=
  let x := d.lp o j
  let c := d.coef o j
  let sg : Int := if d.on (R.L_CTRL.DIR o j) then -1 else 1
  let ql : Int := d.get (R.RC_QLIM.QLIM o j) * 256
  let k := c.startPhase x
  let lo : Int := d.get (R.OUT_LO.VAL o j)
  let hi : Int := (d.outHi o j).1
  let iLo : Int := d.get (R.I_LO.VAL o j) * 256
  let iHi : Int := d.get (R.I_HI.VAL o j) * 256
  let w := if entry then 0 else c.wNext x.w sg x.y y
  let p := c.p e
  let dd := if entry then 0 else c.d w
  let q := c.q (d.rcWord o) k ql
  let old (a : Nat) : Int := Tbl.get (d.rcWord o a) x.rcOld (a % 32768)
  let was := x.prev.p e + x.prev.d (x.prev.wNext x.w sg x.y y) + x.prev.q old x.k ql
  let comp := if d.on (R.L_CTRL.BUMPLESS o j) then was - (p + dd + q) else 0
  let di := rsh (d.get (R.KI.M o j) * e) (d.get (R.KI.E o j))
  let (raw, cut, clip) : Int × Bool × Bool := match x.preset with
    | some v => (v, false, false)
    | none =>
      if entry then (x.o * 256 - p - q, false, true)
      else
        let s := x.i + di + comp + p + dd + q
        let discard := (hi * 256 < s ∧ 0 < di) ∨ (s < lo * 256 ∧ di < 0)
        (x.i + (if discard then 0 else di) + comp, discard, comp != 0)
  let i := clampI iLo iHi raw
  let u := i + p + dd + q
  let o0 := rsh u 8
  let out := clampI lo hi o0
  let isat := cut || i != raw
  let osat := out != o0
  let d := if clip ∧ i ≠ raw ∧ (entry ∨ 0 < comp * (raw - i)) then (d.stick (R.L_STATUS.BUMP_CLIP o j)).weirNotice o 8 j else d
  let d := (d.flag (R.L_STATUS.I_SAT o j) isat).flag (R.L_STATUS.OUT_SAT o j) osat
  let d := if isat ∨ osat then d.stick (R.L_STATUS.SAT_SEEN o j) else d
  let d := d.onLp o j fun x => { x with i := i, w := w, q := q, o := out.toNat }
  -- R245: learning
  if c.rcEn ∧ !d.on (R.L_STATUS.BREACH o j) then
    let a := c.base + k
    let m := d.rcWord o a
    let fgt : Int := 65536 - getBits c.phase 15 0
    let m' := clampI (-ql) ql (rsh (fgt * m) 16 + rsh (d.get (R.RC_LEARN.LG_M o j) * e) (d.get (R.RC_LEARN.LG_E o j)))
    let m' := clampI (-2147483648) 2147483647 m'
    if osat ∧ ((out < o0 ∧ m < m') ∨ (o0 < out ∧ m' < m)) then d
    else d.onW o fun w => { w with mem := Tbl.set 0 w.mem (a % 32768) m' }
  else d

/-- R241, R242: a sample in MANUAL or HOLD. -/
def Dev.offAuto (d : Dev) (o j : Nat) : Dev :=
  let x := d.lp o j
  let iLo : Int := d.get (R.I_LO.VAL o j) * 256
  let iHi : Int := d.get (R.I_HI.VAL o j) * 256
  let i := match x.preset with
    | some v => clampI iLo iHi v
    | none => x.i
  let isat := x.preset.any fun v => clampI iLo iHi v != v
  let rate : Int := d.get (R.MAN_RATE.VAL o j)
  let out := if d.lmode o j = lmMANUAL then x.o + clampI (-rate) rate (d.get (R.MAN_OUT.VAL o j) - x.o) else x.o
  let d := (d.flag (R.L_STATUS.I_SAT o j) isat).set (R.L_STATUS.OUT_SAT o j) 0
  let d := if isat then d.stick (R.L_STATUS.SAT_SEEN o j) else d
  let c := d.coef o j
  let q := c.q (d.rcWord o) (c.startPhase x) (d.get (R.RC_QLIM.QLIM o j) * 256)
  d.onLp o j fun x => { x with i := i, o := out.toNat, q := q }

/-- R249: LOCK after a sample; fell says that ARRIVED cleared at it, soft that a software mode request or TARGET write took effect. -/
def Dev.lockStep (d : Dev) (o j : Nat) (fell soft : Bool) : Dev :=
  let x := d.lp o j
  let inTol := decide ((x.e.natAbs : Int) ≤ d.get (R.LOCK_CFG.TOL o j))
  let ok := d.lmode o j == lmAUTO && d.on (R.L_STATUS.ARRIVED o j) && !fell && !d.on (R.L_STATUS.BREACH o j)
  let lockRun := if ok && inTol then x.lockRun + 1 else 0
  let offRun := if inTol then 0 else x.offRun + 1
  let n := d.get (R.LOCK_CFG.N o j)
  let d := d.onLp o j fun x => { x with lockRun := lockRun, offRun := offRun }
  if d.on (R.L_STATUS.LOCK o j) then
    if !ok ∨ n ≤ offRun then
      let d := d.set (R.L_STATUS.LOCK o j) 0
      if soft then d else ((d.stick (R.L_STATUS.LOCK_LOST o j)).weirNotice o 5 j).bump (Ctr.oct o 6)
    else d
  else if ok ∧ n ≤ lockRun then (d.set (R.L_STATUS.LOCK o j) 1).weirNotice o 4 j
  else d

/-- R245: the phase counter and what the next sample compares with. -/
def Dev.closeSample (d : Dev) (o j : Nat) : Dev :=
  let c := d.coef o j
  d.onLp o j fun x =>
    let k := c.startPhase x
    { x with k := if c.rcEn then (k + 1) % c.period else 0, prev := c, rcOld := [], rcWr := false, tgt := false, preset := none,
             hist := (x.o :: x.hist).take 64 }

/-- The state registers of loop j (R233). -/
def Dev.showLoop (d : Dev) (o j : Nat) : Dev :=
  let x := d.lp o j
  let d := (d.setReg (A.SETPOINT o j) (ofS 24 (rsh x.r 8))).setReg (A.VELOCITY o j) (ofS 32 x.v)
  let d := (d.setReg (A.MEAS o j) (ofS 24 x.y)).setReg (A.ERROR o j) (ofS 24 x.e)
  let d := (d.setReg (A.INTEG_LO o j) (ofS 40 x.i % 2 ^ 32)).setReg (A.INTEG_HI o j) (ofS 40 x.i / 2 ^ 32)
  let d := (d.setReg (A.OUTPUT o j) x.o).setReg (A.DW_RESID o j) (ofS 24 (clampI (-8388608) 8388607 (roundDiv x.res.num x.res.den)))
  d.flag (R.L_STATUS.AT_PARK o j) (d.lmode o j == lmMANUAL && x.o == d.get (R.PARK.VAL o j))

/-- R235 to R249: one sample of loop j. -/
def Dev.loopSample (d : Dev) (o j : Nat) : Dev :=
  let y := d.measure o j
  let mode0 := d.lmode o j
  let d := d.flag (R.L_STATUS.INPUT_BAD o j) y.isNone
  let (rise, d) := d.dikeWatch o j y
  let d := d.modeStep o j y.isSome rise
  let mode := d.lmode o j
  let x := d.lp o j
  let fell := x.tgt && d.on (R.L_STATUS.ARRIVED o j)
  let d := if x.tgt then d.set (R.L_STATUS.ARRIVED o j) 0 else d
  let d :=
    if mode = lmMANUAL ∧ d.on (R.L_CTRL.SP_TRACK o j) then
      d.onLp o j fun x => { x with r := match y with | some y => y * 256 | none => x.r, v := 0 }
    else d.ramp o j
  let d := d.arrive o j
  let sg : Int := if d.on (R.L_CTRL.DIR o j) then -1 else 1
  let e := match y with
    | some y => clampI (-8388608) 8388607 (rsh (sg * ((d.lp o j).r - y * 256)) 8)
    | none => x.e
  let d := d.onLp o j fun x => { x with e := e }
  let d := d.flag (R.L_STATUS.COMPLIANCE o j) (d.outHi o j).2
  let d := if mode = lmAUTO then d.control o j (mode0 != lmAUTO) (y.getD x.y) e else d.offAuto o j
  let d := d.onLp o j fun x => { x with y := y.getD x.y }
  let soft := x.tgt || (mode != mode0 && d.get (R.L_STATUS.CAUSE o j) == 0)
  (((d.lockStep o j fell soft).closeSample o j).showLoop o j)

/-- R232: loop j is due at tick n. -/
def Dev.due (d : Dev) (o j n : Nat) : Bool := n % 2 ^ d.get (R.L_CTRL.RDIV_EXP o j) == 0

/-- R234: the DAC code of loop j for its output. -/
def Dev.dacCode (d : Dev) (o j : Nat) : Nat :=
  let x := (d.lp o j).o
  if 16 ≤ j then min 65535 (roundDiv x 256).toNat
  else if d.on (R.L_CTRL.OUT_MAP o j) then min 262143 ((isqrt (4 * 4096 * x) + 1) / 2)
  else min 262143 (roundDiv x 64).toNat

/-- R253: the loops that assert the octet's loop source. -/
def Dev.loopPend (d : Dev) (o : Nat) : Nat :=
  let en := d.get (R.WEIR_IRQ_EN.EN o)
  (List.range loopsN).foldl (fun v j =>
    let s := d.reg (A.L_STATUS o j)
    v + b2n ((List.range 6).any fun b => bit en b && bit s (15 - b)) * 2 ^ j) 0

/-- R251: the state record of loop j. -/
def Dev.loopRecord (d : Dev) (o j : Nat) : List Nat :=
  let two (a b : Nat) : Nat := a + b * 2 ^ 32
  [two (d.reg (A.TICK o)) (d.reg (A.L_STATUS o j)), two (d.reg (A.TARGET o j)) (d.reg (A.SETPOINT o j)),
   two (d.reg (A.VELOCITY o j)) (d.reg (A.MEAS o j)), two (d.reg (A.ERROR o j)) (d.reg (A.OUTPUT o j)),
   ofS 64 (d.lp o j).i, two (ofS 32 (d.lp o j).q) (d.reg (A.DW_RESID o j)), 0, 0]

/-- R251: the reply to a request that has taken effect, by a tick's X 256. -/
def Dev.weirReply (d : Dev) (o e ch cmd op : Nat) : Dev :=
  let d := if cmd = 0 then d.hubWrite (e / 8) (getBits op 63 42 / 64 * 64) ((d.loopRecord o (opLoop op)).map (·, false)) else d
  let mine (r : Req) : Bool := r.chan == ch && r.cmd == cmd && r.phase == .taken && r.op.toNat == op
  d.onE e fun x => { x with reqs := modifyFirst mine (fun r => { r with phase := .answered, rep := replyWord stOK (d.reg (A.TICK o)) }) x.reqs }

/-- R233, R251: the loops at whose next samples a request takes effect; SNAP and RC_CLEAR take effect at the tick. -/
def reqLoops (cmd op : Nat) : List Nat :=
  match cmd with
  | 1 => loopsOf (getBits op 19 0)
  | 2 | 3 => [opLoop op]
  | _ => []

/-- R233, R251: the requests latched at this tick join those that wait; each is answered at the first tick by which all its loops have been
sampled (log 119). -/
def Dev.weirReplies (d : Dev) (o n : Nat) (ops : List WOp) : Dev :=
  let new := ops.filterMap fun
    | .req e ch cmd op => some (e, ch, cmd, op, reqLoops cmd op)
    | _ => none
  let all := ((d.w o).owed ++ new).map fun x => (x.1, x.2.1, x.2.2.1, x.2.2.2.1, x.2.2.2.2.filter fun j => !d.due o j n)
  let d := d.onW o fun w => { w with owed := all.filter fun x => !x.2.2.2.2.isEmpty }
  (all.filter fun x => x.2.2.2.2.isEmpty).foldl (fun d x => d.weirReply o x.1 x.2.1 x.2.2.1 x.2.2.2.1) d

/-- R231: WEIR_TICK: the chains deliver their values, the waiting writes take effect, every due loop is computed, and at X 256 the
outputs, the status and the replies follow. -/
def Dev.weirTick (d : Dev) (o : Nat) (ins : List (List (BitVec 14))) : Dev :=
  let n := (d.w o).tick
  let d := d.edgeTick o ins
  let ops := (d.w o).ops
  let d := d.onW o fun w => { w with ops := [] }
  let d := ops.foldl (fun d x => d.weirOp o x) d
  let d := (List.range loopsN).foldl (fun d j => if d.due o j n then d.loopSample o j else d) d
  let d := (List.range loopsN).foldl (fun d j =>
    if d.due o j n then d.onW o fun w => { w with code := Tbl.set 0 w.code j (d.dacCode o j) } else d) d
  let d := d.setReg (A.TICK o) n
  let d := d.flag (R.WEIR_STATUS.PARKED o) ((List.range loopsN).all fun j => d.on (R.L_STATUS.AT_PARK o j))
  let d := d.set (R.WEIR_STATUS.LOOP_PEND o) (d.loopPend o)
  let d := d.onW o fun w =>
    { w with tick := (n + 1) % 2 ^ 32, period := d.get (R.WEIR_CTRL.DIV o), drive := d.reg (A.AE_OUT_CTRL o) % 2 ^ 20 }
  d.weirReplies o n ops

/-! Accesses. -/

/-- R233: a register write to offset off of the loop block of octet o waits for the next tick. -/
def Dev.weirLatch (d : Dev) (o off v : Nat) : Dev := d.latch o (.reg off v)

/-- R246: a read of RC_DATA. -/
def Dev.rcRead (d : Dev) (o : Nat) : Nat × Dev :=
  let a := d.get (R.RC_ADDR.ADDR o)
  (ofS 32 (d.rcWord o a), d.set (R.RC_ADDR.ADDR o) (a + 1))

/-- R246: a write to RC_DATA. -/
def Dev.rcDataWrite (d : Dev) (o v : Nat) : Dev :=
  let a := d.get (R.RC_ADDR.ADDR o)
  (d.latch o (.mem a v)).set (R.RC_ADDR.ADDR o) (a + 1)

/-- R214: the WEIR channel on which engine e reaches octet o. -/
def weirChan (e o : Nat) : Nat := if e < 88 then 0x23 else 0x103 + 8 * o

/-- R251: the weir of octet o takes up a request. -/
def Dev.weirReq (d : Dev) (e o cmd : Nat) : Dev :=
  if roleOf e = .keeper ∧ e ≠ keeperOf o then d
  else d.serve e (weirChan e o) cmd fun op d => (d.latch o (.req e (weirChan e o) cmd op), none)

end Sys2Proof.Machine
end

