-- ==== Sys2Proof/Machine/Flags.lean ====
section
/-! DEFINITION. The level of every interrupt source as its condition stands (R253, R270, R294 to R296, R337, R364, R385), and INTA, the
message that follows the host line (R384). -/

namespace Sys2Proof.Machine

/-- Bit b of octet o's condition enables (R295). -/
def Dev.octEn (d : Dev) (o b : Nat) : Bool := bit (d.reg (A.OCT_EN o)) b

/-- R295: condition bit b of octet o holds for lane or slot i. -/
def Dev.octCond (d : Dev) (o b i : Nat) : Bool :=
  let g := 8 * o + i
  match b with
  | 0 => d.on (R.CAL_STATUS.STARVED_SEEN g)
  | 1 => d.on (R.CAL_STATUS.SUSPECT g)
  | 2 => d.on (R.LMS_STATUS.DIVERGED g)
  | 3 => d.on (R.LMS_STATUS.TAP_LIMIT g)
  | 4 => d.on (R.TX_STATUS.FFE_CLAMP g)
  | 5 => d.on (R.TRN_STATUS.REQ_TIMEOUT g)
  | 6 => d.on (R.TRN_STATUS.RETRAIN g)
  | 7 => d.get (R.TRN_STATUS.STATE g) == 4
  | 8 => d.on (R.CAP_STATUS.MARK_LOST g)
  | 9 => d.on (R.CAP_STATUS.OVERRUN g)
  | 10 => d.on (R.CAP_STATUS.STOPPED g)
  | 12 => bit (d.get (R.PORT_CHG.SLOT o)) i
  | 13 => d.on (R.PORT_STATUS.DESKEW_FAIL o i)
  | 14 => d.on (R.PORT_STATUS.SKEW_CHANGE o i)
  | 15 => d.on (R.PORT_STATUS.BER_ALARM o i)
  | 16 => d.on (R.PORT_STATUS.HI_SER o i)
  | 17 => bit (d.get (R.TIMING_EVT.LANE o)) i
  | 18 => d.get (R.TL_STATUS.RX_FILL o) != 0
  | 19 => d.on (R.TL_STATUS.MUTED o)
  | 20 => d.on (R.GASP_RX.VALID o)
  | 21 => d.get (R.TXTS_STATUS.FILL o) != 0
  | 22 => bit (d.get (R.OPWR_EVT.EVT o)) 0
  | 23 => bit (d.get (R.OPWR_EVT.EVT o)) 1
  | _ => false

/-- R295: the condition bits of source 12 * o + k. -/
def octBits : Nat → List Nat
  | 1 => [0, 1, 2, 3] | 2 => [4, 5, 6, 7] | 3 => [8, 9, 10] | 4 => [12, 13, 14, 15, 16] | 5 => [17]
  | 6 => [18, 19, 20] | 9 => [21] | 10 => [22, 23] | _ => []

/-- R270: the sticky analog-edge conditions of octet o, as AE_IRQ_EN numbers them. -/
def Dev.edgeCond (d : Dev) (o : Nat) : Nat → Bool
  | 0 => d.get (R.THR_UP_SEEN.SEEN o) != 0
  | 1 => d.get (R.THR_DN_SEEN.SEEN o) != 0
  | 2 => d.get (R.AE_OVR.OVR o) != 0
  | 3 => d.get (R.AE_DROPOUT.SEEN o) != 0
  | 4 => d.on (R.AE_STATUS.ROUND_OVR o)
  | 5 => d.on (R.AE_STATUS.REF_FAIL o)
  | _ => false

/-- R295: source k = 1 to 12 of octet o. -/
def Dev.octSource (d : Dev) (o k : Nat) : Bool :=
  if k = 7 then d.loopPend o != 0
  else if k = 8 then (List.range 6).any fun b => bit (d.get (R.AE_IRQ_EN.EN o)) b && d.edgeCond o b
  else (octBits k).any fun b => d.octEn o b && (List.range 8).any (d.octCond o b)

/-- R385: source 470 + g. -/
def Dev.queueSource (d : Dev) (g : Nat) : Bool :=
  (List.range 64).any fun q => d.on (R.Q_CTRL.EN q) && d.get (R.Q_CTRL.GROUP q) == g && d.on (R.Q_STATUS.SIGNAL q)

/-- The condition of source n; false for numbers that name none. -/
def Dev.condition (d : Dev) (n : Nat) : Bool :=
  if n = 0 ∨ 500 < n then false
  else if n ≤ 384 then d.octSource ((n - 1) / 12) ((n - 1) % 12 + 1)
  else if n = 385 then bit (d.get R.DEV_EVT.EVT) 0
  else if n = 386 then (List.range 64).any fun g =>
    d.on (R.GAUGE_SRC.EN g) && (d.on (R.GAUGE_STAT.CROSSED_UP g) || d.on (R.GAUGE_STAT.CROSSED_DOWN g))
  else if n = 387 then bit (d.get R.DEV_EVT.EVT) 1
  else if 388 ≤ n ∧ n ≤ 394 then d.on (R.PUNT_CFG.EN (n - 388)) && d.get (R.PUNT_STATUS.FILL (n - 388)) != 0
  else if n = 425 then d.get R.MEM_EVT.EVT &&& d.get R.MEM_IRQ_EN.EN != 0
  else if 441 ≤ n ∧ n ≤ 448 then bit (d.get R.THM_EVT.EVT &&& d.get R.THM_IRQ_EN.EN) (n - 441)
  else if 461 ≤ n ∧ n ≤ 465 then bit (d.get R.PWR_EVT.EVT &&& d.get R.PWR_IRQ_EN.EN) (n - 461)
  else if n = 469 then d.get R.HOST_EVT.EVT &&& d.get R.HOST_IRQ_EN.EN != 0
  else if 470 ≤ n ∧ n ≤ 476 then d.queueSource (n - 470)
  else if 477 ≤ n ∧ n ≤ 484 then bit (d.get R.SEC_EVT.EVT &&& d.get R.SEC_IRQ_EN.EN) (n - 477)
  else if 485 ≤ n ∧ n ≤ 496 then (List.range 8).any fun e => (d.e (8 * (n - 485) + e)).st == .fault
  else if n = 497 then bit (d.get R.DEV_EVT.EVT) 2
  else if n = 498 then bit (d.get R.DEV_EVT.EVT) 3
  else if n = 499 then bit (d.get R.DEV_EVT.EVT) 4
  else if n = 500 then bit (d.get R.DEV_EVT.EVT) 5
  else false

/-- The polder a source belongs to. -/
def sourcePolder (n : Nat) : Nat :=
  if 1 ≤ n ∧ n ≤ 384 then (n - 1) / 12
  else if 385 ≤ n ∧ n ≤ 394 then 32
  else if n = 425 then 47
  else if 485 ≤ n ∧ n ≤ 496 then clPolder (n - 485)
  else 48

/-- R293, R370: the level source n should show: as on entry for a polder in RETAIN, deasserted for one in reset or under test. -/
def Dev.sourceLevel (d : Dev) (n : Nat) : Bool :=
  let l := polderGroup (sourcePolder n)
  if l.any fun q => (d.p q).inReset || (d.p q).test then false
  else if l.any fun q => d.polder q == 2 then d.level n
  else d.condition n

/-- R384: IRQ_N is low. -/
def Dev.irqLow (d : Dev) : Bool := d.on (R.TGT_STATUS.LINE 8) && d.on R.HOST_CTRL.IRQN_EN

end Sys2Proof.Machine
end

