-- ==== Sys2Proof/Machine/Fec.lean ====
section
/-! DEFINITION. The line coding of a port and its lanes (R92 to R98, R101, R106): PCS blocks, the outer code and its distribution, the inner
code and its decoder. Bit lists are in transmission order. What R93 and R106 take from IEEE 802.3 by name stands as that standard has it
(PRESUMED, log 107). -/

namespace Sys2Proof.Machine

/-! PCS (R92, R106). -/

/-- Octets as bits, least significant first. -/
def octetBits (l : List Byte) : List Bool := (l.map fun b => (List.range 8).map b.getLsbD).flatten

/-- A control block: its type, octets, and zeros to the end, which code idle. -/
def ctrlBlk (type : Byte) (l : List Byte) : Blk := ⟨true, (octetBits (type :: l) ++ List.replicate 64 false).take 64⟩

/-- The idle block. -/
def idleBlk : Blk := ctrlBlk 0x1E []

/-- The error block: eight error codes (R95). -/
def errorBlk : Blk := ⟨true, octetBits [0x1E] ++ (List.replicate 8 [false, true, true, true, true, false, false]).flatten⟩

/-- The type of a block that ends a frame after n octets of it. -/
def endType (n : Nat) : Byte := [0x87, 0x99, 0xAA, 0xB4, 0xCC, 0xD2, 0xE1, 0xFF].getD n 0x87

/-- The data blocks of a frame's octets and the block that ends it; fuel bounds the blocks. -/
def bodyBlks : Nat → List Byte → List Blk
  | 0, _ => []
  | n + 1, l => if l.length < 8 then [ctrlBlk (endType l.length) l] else ⟨false, octetBits (l.take 8)⟩ :: bodyBlks n (l.drop 8)

/-- R106: the blocks of a frame: the 7-octet preamble, whose first octet the start block codes, and the SFD; the octets; the end. -/
def frameBlks (l : List Byte) : List Blk :=
  ctrlBlk 0x78 (List.replicate 6 0x55 ++ [0xD5]) :: bodyBlks (l.length / 8 + 1) l

/-- R106: the idle octets after a frame of n octets with its preamble, so that the next starts on a block and the average gap is at least
ipg, where earlier gaps were credit octets longer than asked; and the new credit. -/
def gapAfter (n ipg credit : Nat) : Nat × Nat :=
  let r := (n + ipg) % 8
  if r ≤ credit then (ipg - r, credit - r) else (ipg + (8 - r), credit + (8 - r))

/-- R106: the idle blocks of a gap of g octets after a frame of n octets, whose end block holds its first 8 − n mod 8. -/
def gapBlks (n g : Nat) : List Blk := List.replicate ((g - (8 - n % 8)) / 8) idleBlk

/-- R106: one bit of the self-synchronising scrambler 1 + x³⁹ + x⁵⁸; the history is of scrambled bits, newest first, 58 of them. -/
def scramBit (h : List Bool) (b : Bool) : Bool := b ^^ h.getD 38 false ^^ h.getD 57 false

/-- A block scrambled, and the history after it. -/
def scramble (h : List Bool) (b : Blk) : Blk × List Bool :=
  let (l, h) := b.bits.foldl (fun (s : List Bool × List Bool) x =>
    let y := scramBit s.2 x
    (s.1 ++ [y], (y :: s.2).take 58)) ([], h)
  ({ b with bits := l }, h)

/-- A block descrambled, and the history after it. -/
def descramble (h : List Bool) (b : Blk) : Blk × List Bool :=
  let (l, h) := b.bits.foldl (fun (s : List Bool × List Bool) y => (s.1 ++ [scramBit s.2 y], (y :: s.2).take 58)) ([], h)
  ({ b with bits := l }, h)

/-- Every block of a list by f, with a history. -/
def mapHist (f : List Bool → Blk → Blk × List Bool) (h : List Bool) (l : List Blk) : List Blk × List Bool :=
  l.foldl (fun (s : List Blk × List Bool) b => let (x, h) := f s.2 b; (s.1 ++ [x], h)) ([], h)

/-- R106: 256B/257B transcoding of four blocks: all data, or a flag each and the second type nibble of the first control block left out. -/
def transcode (l : List Blk) : List Bool :=
  if l.all (!·.ctrl) then true :: (l.map (·.bits)).flatten
  else
    let c := l.findIdx (·.ctrl)
    false :: l.map (!·.ctrl) ++ ((List.range 4).map fun j =>
      let b := (l.getD j idleBlk).bits
      if j = c then b.take 4 ++ b.drop 8 else b).flatten

/-- The blocks of 257 bits; the type nibble left out is restored from the other by nib. -/
def untranscode (nib : List Bool → List Bool → List Bool) (h : List Bool) (l : List Bool) : List Blk × List Bool :=
  if l.headD true then mapHist descramble h ((List.range 4).map fun j => ⟨false, (l.drop (1 + 64 * j)).take 64⟩)
  else
    let flags := (l.drop 1).take 4
    let c := flags.findIdx (!·)
    let rest := l.drop 5
    (List.range 4).foldl (fun (s : List Blk × List Bool) j =>
      let at_ := 64 * j - (if c < j then 4 else 0)
      let b := (rest.drop at_).take (if j = c then 60 else 64)
      let b := if j = c then b.take 4 ++ nib s.2 (b.take 4) ++ b.drop 4 else b
      let (x, h) := descramble s.2 ⟨!flags.getD j true, b⟩
      (s.1 ++ [x], h)) ([], h)

/-- The block types: the low nibble of a type, sent first, tells the high one. -/
def blkTypes : List Nat := [0x1E, 0x78, 0x87, 0x99, 0xAA, 0xB4, 0xCC, 0xD2, 0xE1, 0xFF]

/-- The scrambled high nibble of a type whose scrambled low nibble is low. -/
def typeNibble (h low : List Bool) : List Bool :=
  let (b, h) := descramble h ⟨true, low⟩
  let v := (List.range 4).foldl (fun t i => t + b2n (b.bits.getD i false) * 2 ^ i) 0
  let t := (blkTypes.find? fun t => t % 16 == v).getD 0
  (scramble h ⟨true, (List.range 4).map fun i => bit t (4 + i)⟩).1.bits

/-! The outer code (R93). -/

/-- The product in GF(2¹⁰) with x¹⁰ + x³ + 1. -/
def rsMul (a b : Nat) : Nat :=
  ((List.range 10).foldl (fun (s : Nat × Nat) i =>
    (if bit b i then s.1 ^^^ s.2 else s.1, if 512 ≤ s.2 then (2 * s.2) ^^^ 0x409 else 2 * s.2)) (0, a)).1

/-- A power in the field. -/
def rsPow (a : Nat) : Nat → Nat
  | 0 => 1
  | n + 1 => rsMul a (rsPow a n)

/-- αⁿ. -/
def rsExp (n : Nat) : Nat := rsPow 2 (n % 1023)

/-- The inverse: a^1022 = (a² a⁴ … a⁵¹²). -/
def rsInv (a : Nat) : Nat :=
  ((List.range 9).foldl (fun (s : Nat × Nat) _ => let q := rsMul s.2 s.2; (rsMul s.1 q, q)) (1, a)).1

/-- A polynomial, highest coefficient first, at x. -/
def rsEval (p : List Nat) (x : Nat) : Nat := p.foldl (fun v c => rsMul v x ^^^ c) 0

/-- R93: the generator polynomial with roots α⁰ to α²⁹, highest coefficient first. -/
def rsGen : List Nat :=
  (List.range 30).foldl (fun g i =>
    let r := rsExp i
    List.zipWith (· ^^^ ·) (g ++ [0]) (0 :: g.map (rsMul r))) [1]

/-- R93: the 30 parity symbols of a message, first symbol of the highest degree. -/
def rsParity (m : List Nat) : List Nat :=
  m.foldl (fun p c =>
    let f := c ^^^ p.headD 0
    List.zipWith (· ^^^ ·) (p.tail ++ [0]) (rsGen.tail.map (rsMul f))) (List.replicate 30 0)

/-- R93: a codeword of 514 message symbols. -/
def rsEncode (m : List Nat) : List Nat := m ++ rsParity m

/-- The syndromes of a received word at α⁰ to α²⁹. -/
def rsSyndromes (r : List Nat) : List Nat := (List.range 30).map fun j => rsEval r (rsExp j)

/-- The state of the search for the error locator (Berlekamp and Massey): locator, previous one, its length, steps since, previous
discrepancy; coefficients lowest first. -/
structure Bm where
  c : List Nat := [1]
  b : List Nat := [1]
  l : Nat := 0
  m : Nat := 1
  db : Nat := 1

/-- Two polynomials added, lowest coefficient first. -/
def polyAdd : List Nat → List Nat → List Nat
  | [], q => q
  | p, [] => p
  | a :: p, b :: q => (a ^^^ b) :: polyAdd p q

/-- One step with the syndromes s. -/
def Bm.step (s : List Nat) (x : Bm) (n : Nat) : Bm :=
  let d := (List.range (x.l + 1)).foldl (fun t i => t ^^^ rsMul (x.c.getD i 0) (s.getD (n - i) 0)) 0
  if d = 0 then { x with m := x.m + 1 }
  else
    let k := rsMul d (rsInv x.db)
    let c := polyAdd x.c (List.replicate x.m 0 ++ x.b.map (rsMul k))
    if 2 * x.l ≤ n then { c, b := x.c, l := n + 1 - x.l, m := 1, db := d } else { x with c, m := x.m + 1 }

/-- R93, R95: the errors of a received word, as positions and values: at most 15 that make it a codeword, or none such. -/
def rsErrors (r : List Nat) : Option (List (Nat × Nat)) :=
  let s := rsSyndromes r
  if s.all (· == 0) then some []
  else
    let x := (List.range 30).foldl (Bm.step s) {}
    let omega := (List.range 30).map fun k =>
      (List.range (k + 1)).foldl (fun t i => t ^^^ rsMul (x.c.getD i 0) (s.getD (k - i) 0)) 0
    let odd := (List.range x.c.length).map fun i => if i % 2 = 1 then x.c.getD i 0 else 0
    let errs := (List.range r.length).filterMap fun i =>
      let inv := rsExp (1023 - (r.length - 1 - i))
      if rsEval x.c.reverse inv = 0 then some (i, rsMul (rsEval omega.reverse inv) (rsInv (rsEval odd.reverse inv)))
      else none
    let fixed := errs.foldl (fun l e => l.set e.1 (l.getD e.1 0 ^^^ e.2)) r
    if 15 < errs.length ∨ errs.length ≠ x.l ∨ !(rsSyndromes fixed).all (· == 0) then none else some errs

/-- R93: twenty transcoded blocks as 514 symbols of 10 bits, first bit least significant. -/
def symbolsOf (l : List Bool) : List Nat :=
  (List.range (l.length / 10)).map fun i => (List.range 10).foldl (fun v k => v + b2n (l.getD (10 * i + k) false) * 2 ^ k) 0

/-- The bits of a symbol. -/
def symbolBits (s : Nat) : List Bool := (List.range 10).map (bit s)

/-- R93: a codeword pair of 160 scrambled blocks: blocks fill A, then B; sent as A0, B0, A1, B1 and so on. -/
def rsPair (l : List Blk) : List Nat :=
  let half (k : Nat) : List Nat := rsEncode (symbolsOf (((List.range 20).map fun i => transcode ((l.drop (80 * k + 4 * i)).take 4)).flatten))
  (List.zipWith (fun a b => [a, b]) (half 0) (half 1)).flatten

/-- R94: the lane of a port of n lanes that carries symbol i of a pair. -/
def laneOfSymbol (n i : Nat) : Nat := i % n

/-- R94: the symbols of a pair dealt to the n lanes of a port, as bits. -/
def dealLanes (n : Nat) (pair : List Nat) : List (List Bool) :=
  (List.range n).map fun l => ((List.range pair.length).filterMap fun i =>
    if laneOfSymbol n i = l then some (symbolBits (pair.getD i 0)) else none).flatten

/-! Codeword and inner-block boundaries (R99, R101). -/

/-- R101: P of a port of n lanes. -/
def pairPeriod (mode n : Nat) : Nat := if mode ≠ 0 then 17 else if n = 1 then 2 else 1

/-- R99: RS bits per lane in a marker period. -/
def rsBits (mode : Nat) : Nat := if mode = 0 then 4194240 else 3947520

/-- R101: RS bits on each lane from the first coded bit after a marker of INDEX index to the next codeword-pair boundary; 0 where it lies
there. -/
def pairOffset (mode n index : Nat) : Nat :=
  let len := 10880 / n
  (len - index % pairPeriod mode n * rsBits mode % len) % len

/-! The inner code (R97, R98). -/

/-- The remainder modulo x⁸ + x⁴ + x³ + x² + 1 of bits, first bit of the highest degree. -/
def hamRem (l : List Bool) : Nat := l.foldl (fun v b => let w := 2 * v + b2n b; if 256 ≤ w then w ^^^ 0x11D else w) 0

/-- R97: the block of 128 bits: its 8 parity bits follow. -/
def hamEncode (l : List Bool) : List Bool :=
  let p := hamRem (l ++ List.replicate 8 false)
  l ++ (List.range 8).map fun i => bit p (7 - i)

/-- R97, R98: the codeword a word of 136 bits decodes to by its syndrome: itself, or with one bit flipped; none where the syndrome names a
position that the shortening removed. -/
def hamDecode (l : List Bool) : Option (List Bool) :=
  let s := hamRem l
  if s = 0 then some l
  else match (List.range 136).find? fun i => hamRem (true :: List.replicate (135 - i) false) == s with
    | some i => some (l.set i (!l.getD i false))
    | none => none

/-- The hard decisions of log-likelihood ratios: positive for a 1 (log 94). -/
def hard (llr : List Int) : List Bool := llr.map fun x => decide (0 < x)

/-- R98: the 4 least reliable positions, a tie to the lower (log 108). -/
def leastReliable (llr : List Int) : List Nat :=
  ((List.range 4).foldl (fun (s : List Nat) _ =>
    match (List.range llr.length).filter (fun i => !s.contains i) with
    | [] => s
    | a :: t => s ++ [t.foldl (fun b i => if (llr.getD i 0).natAbs < (llr.getD b 0).natAbs then i else b) a]) [])

/-- R98: the soft distance of a word from the hard decisions. -/
def softDist (llr : List Int) (w : List Bool) : Nat :=
  (List.zipWith (fun x b => if decide (0 < x) = b then 0 else x.natAbs) llr w).foldl (· + ·) 0

/-- R98: the codeword nearest in soft distance among those the 16 test patterns decode to; the first of equals (log 108). -/
def chase (llr : List Int) : Option (List Bool) :=
  let h := hard llr
  let ps := leastReliable llr
  let cands := (List.range 16).filterMap fun k =>
    hamDecode ((List.range 4).foldl (fun w i => if bit k i then (let p := ps.getD i 0; w.set p (!w.getD p false)) else w) h)
  match cands with
  | [] => none
  | a :: t => some (t.foldl (fun b w => if softDist llr w < softDist llr b then w else b) a)

/-- Positions where two bit lists differ. -/
def hamming (a b : List Bool) : Nat := ((List.zipWith (· != ·) a b).filter id).length

end Sys2Proof.Machine
end

