-- ==== Sys2Proof/Machine/TxPath.lean ====
section
/-! DEFINITION. The transmit data path of a lane (R68, R71, R78, R82, R84): from port data or a pattern to DAC codes. -/

namespace Sys2Proof.Machine

/-! The DAC (R68). -/

/-- The five taps of TX_FFE: PRE2, PRE1, MAIN, POST1, POST2. -/
structure Taps where
  pre2 : Int
  pre1 : Int
  main : Int
  post1 : Int
  post2 : Int
  deriving DecidableEq, Repr

/-- R68: the DAC code of symbol n from the level indices of symbols n + 3 down to n − 3, the entries of the active page, the taps, AMP
and the subcarrier value m; and whether it saturated. -/
def dacCode (cs : List Nat) (pd : List Int) (t : Taps) (amp : Nat) (m : Rat) : Int × Bool :=
  let p (k : Nat) : Int := 64 * (2 * (cs.getD k 0 : Int) - 3) + pd.getD (16 * cs.getD (k + 1) 0 + 4 * cs.getD k 0 + cs.getD (k - 1) 0) 0
  let s := t.pre2 * p 1 + t.pre1 * p 2 + t.main * p 3 + t.post1 * p 4 + t.post2 * p 5
  let v := roundRat (mkRat (s * amp) (64 * 128) * (1 + m))
  (clampI (-128) 127 v, decide (v < -128 ∨ 127 < v))

/-- What the transmitter of a lane sends (R78, R79, R82, R84). -/
inductive TxSource where
  | quiet
  | far
  | pattern (n : Nat)
  | port
  deriving DecidableEq, Repr

/-- What the registers of a lane set for its transmit path. -/
structure TxCfg where
  src : TxSource
  invert : Bool
  pd : List Int
  taps : Taps
  amp : Nat

/-- One symbol: level c enters stage 2, and the code of the symbol 3 before it is launched with subcarrier value m. -/
def TxCfg.symbol (k : TxCfg) (m : Rat) (x : TxSt) (c : Nat) : TxSt :=
  let cs := (c :: x.cs).take 7
  let (v, sat) := dacCode cs k.pd k.taps k.amp m
  { x with cs, dac := x.dac ++ [v], sat := x.sat + b2n sat }

/-- The levels stage 1 hands on for a word of port data, and the generators after it. -/
def TxCfg.levels (k : TxCfg) (x : TxSt) (w : BitVec 256) (far : List Nat) : List Nat × TxSt :=
  let inv (l : List Nat) := if k.invert then l.map (3 - ·) else l
  match k.src with
  | .quiet => ([], x)
  | .far => (far, x)
  | .port => (inv ((List.range 128).map fun i => levelOf (w.getLsbD (255 - 2 * i), w.getLsbD (254 - 2 * i))), x)
  | .pattern n =>
    let (l, h) := (List.range 128).foldl (fun (s : List Nat × List Bool) _ =>
      let p := patPair n s.2
      (s.1 ++ [levelOf p], patPush p s.2)) ([], x.gens.getD (n - 1) [])
    (inv l, { x with gens := x.gens.set (n - 1) h })

/-- One L-cycle of the transmitter: the 128 codes launched. Quiet, the DAC stands at code 0 and sends the subcarrier alone (R79, R81):
a multiple of 0. -/
def TxCfg.word (k : TxCfg) (m : Rat) (x : TxSt) (w : BitVec 256) (far : List Nat) : TxSt :=
  let (l, x) := k.levels x w far
  let x := { x with sent := l, dac := [] }
  if k.src = .quiet then { x with dac := List.replicate 128 0 } else l.foldl (k.symbol m) x

end Sys2Proof.Machine
end

