-- ==== Sys2Proof/Machine/LaneTx.lean ====
section
/-! DEFINITION. The transmit half of a lane, link training, lane power states and the lane's test access (spec/03). -/

namespace Sys2Proof.Machine

/-! Transmit taps and predistortion (R69 to R71). -/

/-- The taps a word of the TX_FFE layout holds. -/
def tapsOf (v : Nat) : Taps :=
  ⟨toS 5 (getBits v 28 24), toS 6 (getBits v 23 18), getBits v 17 11, toS 6 (getBits v 10 5), toS 5 (getBits v 4 0)⟩

/-- The word of the TX_FFE layout that holds the taps. -/
def tapsWord (t : Taps) : Nat :=
  ofS 5 t.pre2 * 2 ^ 24 + ofS 6 t.pre1 * 2 ^ 18 + ofS 7 t.main * 2 ^ 11 + ofS 6 t.post1 * 2 ^ 5 + ofS 5 t.post2

/-- The magnitude sum of the four side taps. -/
def sideSum (t : Taps) : Int := t.pre2.natAbs + t.pre1.natAbs + t.post1.natAbs + t.post2.natAbs

/-- R69: each field clamped to its range, then MAIN to what the sum rule leaves. -/
def clampTaps (t : Taps) : Taps :=
  let u : Taps := ⟨clampI (-8) 8 t.pre2, clampI (-16) 16 t.pre1, t.main, clampI (-16) 16 t.post1, clampI (-8) 8 t.post2⟩
  { u with main := clampI 16 (64 - sideSum u) (clampI 16 64 t.main) }

/-- R69, R70: a software write to TX_FFE. -/
def Dev.txFfe (d : Dev) (g v : Nat) : Dev :=
  let t := tapsOf v
  let d := d.setReg (A.TX_FFE g) (tapsWord (clampTaps t))
  if clampTaps t = t then d else d.set (R.TX_STATUS.FFE_CLAMP g) 1

/-- R71: a write to PD_CTRL; the page in use follows. -/
def Dev.pdCtrl (d : Dev) (g v : Nat) : Dev :=
  let d := d.sw Row.PD_CTRL (A.PD_CTRL g) v
  d.set (R.TX_STATUS.PD_PAGE g) (d.get (R.PD_CTRL.PAGE g))

/-- R71: a write to entry i of page p, ignored on the active page. -/
def Dev.pdEntry (d : Dev) (g : Nat) (p : Bool) (i v : Nat) : Dev :=
  if d.on (R.PD_CTRL.PAGE g) = p then d.set (R.TX_STATUS.PD_WR_IGN g) 1
  else d.set (if p then R.PD_P1.CORR g i else R.PD_P0.CORR g i) v

/-- R71: the entries of the active page; 0 each with EN = 0. -/
def Dev.pdPage (d : Dev) (g : Nat) : List Int :=
  if d.on (R.PD_CTRL.EN g) then
    (List.range 64).map fun i => d.getI (if d.on (R.PD_CTRL.PAGE g) then R.PD_P1.CORR g i else R.PD_P0.CORR g i)
  else []

/-! Training state machine (R77). -/

/-- TRN_STATUS.STATE. -/
def trnOff : Nat := 0
def trnTrain : Nat := 1
def trnReady : Nat := 2
def trnData : Nat := 3
def trnFail : Nat := 4

/-- R76: a training message of octet o becomes due. -/
def Dev.trnMsg (d : Dev) (o : Nat) : Dev := d.onO o fun x => { x with trnDue := true }

/-- The lane trains or is ready: its requests and its responder act. -/
def training (s : Nat) : Bool := s == trnTrain || s == trnReady

/-- R75: the outstanding request of lane g ends. -/
def Dev.endRequest (d : Dev) (g : Nat) : Dev :=
  ((d.set (R.TRN_STATUS.REQ_PEND g) 0).set (R.TRN_STATUS.RETRY_CNT g) 0).onL g fun x =>
    { x with reqSent := false, resendOff := false }

/-- The record of a lane in state s is valid, and its READY bit (R73). -/
def trnShows (s : Nat) : Bool × Bool := (training s || s == trnData, s == trnReady || s == trnData)

/-- R77: lane g enters a training state: the keeper is told, a message is due where its validity or READY changed (R76), the port learns
of DATA. -/
def Dev.trnGo (d : Dev) (g s : Nat) : Dev :=
  let old := d.trn g
  if old = s then d
  else
    let d := (d.set (R.TRN_STATUS.STATE g) s).laneNotice g 11
    let d := if trnShows old = trnShows s then d else d.trnMsg (g / 8)
    let d := if training old ∧ !training s then d.endRequest g else d
    let d := if old = trnData then d.leaveData g else d
    if s = trnData then d.enterData g else d

/-- R77: lane g fails training with a cause, if it is in TRAIN or READY. -/
def Dev.trnFailBy (d : Dev) (g cause : Nat) : Dev :=
  if training (d.trn g) then (d.set (R.TRN_STATUS.CAUSE g) cause).trnGo g trnFail else d

/-- R74, R75, R77: lane g leaves OFF for TRAIN. -/
def Dev.trnStart (d : Dev) (g : Nat) : Dev :=
  let d := (d.set (R.TRN_FAR.VALID g) 0).onL g fun x => { x with rspSeq := 0, rspSt := 0, zeroDue := true, reqSent := false }
  d.trnGo g trnTrain

/-- R77: a write to TRN_CTRL; the highest row of the table that applies is taken. -/
def Dev.trnCtrl (d : Dev) (g v : Nat) : Dev :=
  let d := d.sw Row.TRN_CTRL (A.TRN_CTRL g) v
  let s := d.trn g
  let ready := d.on (R.TRN_CTRL.LOCAL_READY g)
  if !d.on (R.TRN_CTRL.START g) then
    if s = trnOff then d else (d.set (R.TRN_CTRL.LOCAL_READY g) 0).trnGo g trnOff
  else if s = trnOff then d.trnStart g
  else if s = trnTrain ∧ ready then d.trnGo g trnReady
  else if s = trnReady ∧ !ready then d.trnGo g trnTrain
  else d

/-! Requests and the responder (R73 to R75). -/

/-- R75: a write to TRN_REQ: a request, or ignored while one is outstanding. -/
def Dev.trnReq (d : Dev) (g v : Nat) : Dev :=
  if d.on (R.TRN_STATUS.REQ_PEND g) then d.set (R.TRN_STATUS.REQ_BUSY g) 1
  else
    let seq := d.get (R.TRN_REQ.SEQ g) % 7 + 1
    let d := (d.sw Row.TRN_REQ (A.TRN_REQ g) v).set (R.TRN_REQ.SEQ g) seq
    let d := (d.set (R.TRN_STATUS.REQ_PEND g) 1).onL g fun x => { x with reqSent := false, resendOff := false }
    if training (d.trn g) ∨ d.trn g = trnData then d.trnMsg (g / 8) else d

/-- R75: the RESEND interval of lane g's request expires. -/
def Dev.trnResend (d : Dev) (g : Nat) : Dev :=
  let x := d.ln g
  if d.on (R.TRN_STATUS.REQ_PEND g) ∧ x.reqSent ∧ !x.resendOff then
    if d.get (R.TRN_STATUS.RETRY_CNT g) < d.get (R.TRN_CTRL.RETRIES g) then
      ((d.incW (R.TRN_STATUS.RETRY_CNT g)).onL g fun x => { x with reqSent := false }).trnMsg (g / 8)
    else ((d.set (R.TRN_STATUS.REQ_TIMEOUT g) 1).onL g fun x => { x with resendOff := true }).laneNotice g 10
  else d

/-- The record of a lane in a training message (R73). -/
structure TrnRec where
  reqSeq : Nat
  preset : Nat
  cmd : Nat
  rspSeq : Nat
  st : Nat
  ready : Bool
  seen : Bool
  deriving DecidableEq, Repr

/-- The record's 30 bits, first bit most significant. -/
def TrnRec.bits (r : TrnRec) : Nat :=
  r.reqSeq * 2 ^ 27 + r.preset * 2 ^ 25 + r.cmd * 2 ^ 15 + r.rspSeq * 2 ^ 12 + r.st * 4 + b2n r.ready * 2 + b2n r.seen

/-- The record 30 bits spell. -/
def trnRecOf (v : Nat) : TrnRec :=
  ⟨getBits v 29 27, getBits v 26 25, getBits v 24 15, getBits v 14 12, getBits v 11 2, bit v 1, bit v 0⟩

/-- R73: the record of lane l in a message whose first transmitted bit is the most significant; none if not valid. -/
def trnRecIn (m : BitVec 256) (l : Nat) : Option TrnRec :=
  if bit m.toNat (247 - l) then some (trnRecOf (getBits m.toNat (239 - 30 * l) (210 - 30 * l))) else none

/-- R73 to R77: the record lane g sends, if it is valid. -/
def Dev.trnRecord (d : Dev) (g : Nat) : Option TrnRec :=
  let s := d.trn g
  if training s ∨ s = trnData then
    let x := d.ln g
    some ⟨if x.zeroDue then 0 else d.get (R.TRN_REQ.SEQ g), d.get (R.TRN_REQ.PRESET g), d.get (R.TRN_REQ.CMD g), x.rspSeq, x.rspSt,
      s == trnReady || s == trnData, d.on (R.TRN_STATUS.FAR_READY g)⟩
  else none

/-- R73: the message octet o would send now. -/
def Dev.trnMessage (d : Dev) (o : Nat) : BitVec 256 :=
  BitVec.ofNat 256 ((List.range 8).foldl (fun m l =>
    match d.trnRecord (8 * o + l) with
    | some r => m + 2 ^ (247 - l) + r.bits * 2 ^ (210 - 30 * l)
    | none => m) (2 ^ 248))

/-- R75, R77: a message of octet o has been sent: what it carried counts as told. -/
def Dev.trnSent (d : Dev) (o : Nat) (m : BitVec 256) : Dev :=
  (List.range 8).foldl (fun d l =>
    let g := 8 * o + l
    match trnRecIn m l with
    | none => d
    | some r =>
      let d := if r.seen ∧ d.on (R.TRN_STATUS.FAR_READY g) then d.set (R.TRN_STATUS.SEEN_SENT g) 1 else d
      let zero := (d.ln g).zeroDue
      let d := d.onL g fun x =>
        { x with zeroDue := x.zeroDue && r.reqSeq != 0, reqSent := x.reqSent || (r.reqSeq != 0 && r.reqSeq == d.get (R.TRN_REQ.SEQ g)) }
      if zero ∧ r.reqSeq = 0 ∧ d.on (R.TRN_STATUS.REQ_PEND g) then d.trnMsg o else d) d

/-- R74: one command on one tap: the new value of the tap and its status; sum tests the taps with the new value. -/
def trnTap (cmd : Nat) (v lo hi : Int) (sum : Int → Int) : Int × Nat :=
  let w := if cmd = 1 then v + 1 else if cmd = 2 then v - 1 else v
  if cmd = 0 ∨ cmd = 3 then (v, 0)
  else if w < lo ∨ hi < w then (v, 2)
  else if 64 < sum w then (v, 3)
  else (w, 1)

/-- The magnitude sum of all five taps. -/
def tapSum (t : Taps) : Int := sideSum t + t.main.natAbs

/-- R74: the five commands, each checked against the taps as the earlier ones left them; the statuses as ST. -/
def trnCommands (cmd : Nat) (t : Taps) : Taps × Nat :=
  let (a, s4) := trnTap (getBits cmd 9 8) t.pre2 (-8) 8 fun v => tapSum { t with pre2 := v }
  let t := { t with pre2 := a }
  let (a, s3) := trnTap (getBits cmd 7 6) t.pre1 (-16) 16 fun v => tapSum { t with pre1 := v }
  let t := { t with pre1 := a }
  let (a, s2) := trnTap (getBits cmd 5 4) t.main 16 64 fun v => tapSum { t with main := v }
  let t := { t with main := a }
  let (a, s1) := trnTap (getBits cmd 3 2) t.post1 (-16) 16 fun v => tapSum { t with post1 := v }
  let t := { t with post1 := a }
  let (a, s0) := trnTap (getBits cmd 1 0) t.post2 (-8) 8 fun v => tapSum { t with post2 := v }
  ({ t with post2 := a }, s4 * 256 + s3 * 64 + s2 * 16 + s1 * 4 + s0)

/-- R74: the responder of lane g acts on a valid record. -/
def Dev.trnRespond (d : Dev) (g : Nat) (r : TrnRec) : Dev :=
  if r.reqSeq = 0 then d.onL g fun x => { x with rspSeq := 0, rspSt := 0 }
  else if !training (d.trn g) ∨ r.reqSeq = (d.ln g).rspSeq then d
  else
    let t := tapsOf (d.reg (A.TX_FFE g))
    let (t, st) : Taps × Nat :=
      if r.preset = 1 then (⟨0, 0, 64, 0, 0⟩, 0x155)
      else if r.preset = 2 then (tapsOf (d.reg (A.TX_PRESET2 g)), 0x155)
      else if r.preset = 3 then (tapsOf (d.reg (A.TX_PRESET3 g)), 0x155)
      else trnCommands r.cmd t
    let d := d.setReg (A.TX_FFE g) (tapsWord t)
    let d := (((d.set (R.TRN_FAR.VALID g) 1).set (R.TRN_FAR.LAST_SEQ g) r.reqSeq).set (R.TRN_FAR.LAST_PRESET g) r.preset).set
      (R.TRN_FAR.LAST_ST g) st
    (d.onL g fun x => { x with rspSeq := r.reqSeq, rspSt := st }).trnMsg (g / 8)

/-- R75: the requester of lane g reads a response. -/
def Dev.trnResponse (d : Dev) (g : Nat) (r : TrnRec) : Dev :=
  if d.on (R.TRN_STATUS.REQ_PEND g) ∧ r.rspSeq ≠ 0 ∧ r.rspSeq = d.get (R.TRN_REQ.SEQ g) then
    (((d.endRequest g).set (R.TRN_STATUS.RSP_SEQ g) r.rspSeq).set (R.TRN_STATUS.ST g) r.st).laneNotice g 9
  else d

/-- R77: the state rows of lane g on a valid record. -/
def Dev.trnStates (d : Dev) (g : Nat) (r : TrnRec) : Dev :=
  let d := if d.on (R.TRN_STATUS.FAR_READY g) = r.ready then d else d.trnMsg (g / 8)
  let d := (d.flag (R.TRN_STATUS.FAR_READY g) r.ready).flag (R.TRN_STATUS.FAR_SEEN g) r.seen
  let d := if r.ready then d else d.set (R.TRN_STATUS.SEEN_SENT g) 0
  let d := if training (d.trn g) then d.trnMsg (g / 8) else d
  if d.trn g = trnReady ∧ d.on (R.TRN_STATUS.SEEN_SENT g) ∧ r.ready ∧ r.seen then d.trnGo g trnData
  else if d.trn g = trnData ∧ !r.ready then
    (((d.set (R.TRN_STATUS.RETRAIN g) 1).set (R.TRN_CTRL.LOCAL_READY g) 0).bump (Ctr.lane g 6)).trnGo g trnTrain
  else d

/-- R73, R77: a training message received by octet o: for each valid record the state rows, the responder, the requester. -/
def Dev.trnReceive (d : Dev) (o : Nat) (m : BitVec 256) : Dev :=
  if getBits m.toNat 255 248 ≠ 1 then d
  else (List.range 8).foldl (fun d l =>
    match trnRecIn m l with
    | none => d
    | some r => ((d.trnStates (8 * o + l) r).trnRespond (8 * o + l) r).trnResponse (8 * o + l) r) d

/-! Lane power (R79, R80). -/

/-- R79: the transmit PLL of lane g's octet stops once all eight lanes are in DEEP. -/
def Dev.pllFollow (d : Dev) (o : Nat) : Dev :=
  if (lanesOf o).all fun g => d.txState g == 2 then d.onO o fun x => { x with pll := false } else d

/-- R79: the directions of lane g reach the given states. A quiet or DEEP request counts as carried out here, at the end of its transition
(R77 does not say when: DESIGN CHOICE, log 100). -/
def Dev.lanePower (d : Dev) (g tx rx : Nat) : Dev :=
  let otx := d.txState g
  let orx := d.rxState g
  let d := (d.set (R.LPWR_STATUS.TX_STATE g) tx).set (R.LPWR_STATUS.RX_STATE g) rx
  let d := if orx = 0 ∧ rx ≠ 0 then d.enterHold g else if orx ≠ 0 ∧ rx = 0 then d.leaveHold g else d
  let d := if rx = 2 ∧ orx ≠ 2 then (d.cdrClear g).losSet g else d
  let d := d.pllFollow (g / 8)
  if (tx ≠ otx ∧ tx ≠ 0) ∨ (rx ≠ orx ∧ rx ≠ 0) then d.trnFailBy g 1 else d

/-- A transition to (tx, rx) starts; on the way out of DEEP the transmit PLL runs again (R79). -/
def Dev.startPower (d : Dev) (g : Nat) (dst : Nat × Nat) : Dev :=
  let d := (d.set (R.LPWR_STATUS.BUSY g) 1).onL g fun x => { x with pwrTo := dst }
  if dst.1 = 2 then d else d.onO (g / 8) fun x => { x with pll := true }

/-- R80: a power request for lane g. -/
def Dev.powerRequest (d : Dev) (g : Nat) (dst : Nat × Nat) : Dev :=
  if d.on (R.LPWR_STATUS.BUSY g) then
    (d.set (R.LPWR_STATUS.QUEUED g) 1).onL g fun x => { x with pwrNext := some dst }
  else if dst = (d.txState g, d.rxState g) then d
  else d.startPower g dst

/-- R79, R80: a write to PWR_CTRL. -/
def Dev.pwrCtrl (d : Dev) (g v : Nat) : Dev :=
  let d := d.sw Row.PWR_CTRL (A.PWR_CTRL g) v
  d.powerRequest g (if d.on (R.PWR_CTRL.DEEP g) then (2, 2) else (d.get (R.PWR_CTRL.TXQ g), d.get (R.PWR_CTRL.RXQ g)))

/-- R79: the running transition of lane g may end: an exit of the receive direction ends with CDR_LOCK, if the far transmitter is sending;
LOS stands for one that is not (DEDUCED, log 100). -/
def Dev.powerDone (d : Dev) (g : Nat) : Bool :=
  d.on (R.LPWR_STATUS.BUSY g)
    && ((d.ln g).pwrTo.2 != 0 || d.rxState g == 0 || d.on (R.RX_STATUS.CDR_LOCK g) || d.on (R.RX_STATUS.LOS g))

/-- R79, R80: the running transition of lane g completes and a queued request starts. -/
def Dev.powerEnd (d : Dev) (g : Nat) : Dev :=
  if d.powerDone g then
    let dst := (d.ln g).pwrTo
    let next := (d.ln g).pwrNext
    let d := (d.lanePower g dst.1 dst.2).set (R.LPWR_STATUS.BUSY g) 0
    let d := (d.set (R.LPWR_STATUS.QUEUED g) 0).onL g fun x => { x with pwrNext := none }
    match next with
    | some t => d.powerRequest g t
    | none => d
  else d

/-! Loopback, patterns, eye scan (R82 to R86). -/

/-- R82: the far-end store as it begins: half full of level 0 (DESIGN CHOICE, log 101). -/
def farStart : List (List Nat) := List.replicate 2 (List.replicate 128 0)

/-- R83: at an update point with both directions active the selected loopback comes into force. -/
def Dev.loopEngage (d : Dev) (g : Nat) : Dev :=
  let m := d.get (R.LB_CTRL.MODE g)
  if m ≠ d.get (R.LB_STATUS.ACTIVE g) ∧ d.txState g = 0 ∧ d.rxState g = 0 then
    let d := (d.set (R.LB_STATUS.ACTIVE g) m).onL g fun x =>
      { x with tx := { x.tx with loop := [] }, rx := { x.rx with far := if m = 3 then farStart else [] } }
    if m = 0 then d else d.trnFailBy g 2
  else d

/-- R82: in plesiochronous timing the far-end store, full or empty, slips one word: it drops one, or repeats the last one sent. -/
def Dev.loopSlip (d : Dev) (g : Nat) : Dev :=
  let f := (d.ln g).rx.far
  if d.get (R.LB_STATUS.ACTIVE g) = 3 ∧ d.on (R.MODE_ACTIVE.TIMING (g / 8)) ∧ (f.length = 0 ∨ 4 ≤ f.length) then
    (d.inc (R.LB_STATUS.SLIPS g)).onL g fun x =>
      { x with rx := { x.rx with far := if f.length = 0 then [x.tx.farLast] else f.tail } }
  else d

/-- R84: the checker takes SYNC after 64 consecutive error-free symbols. The spec names no loss of SYNC: it lasts until CHK changes
(DESIGN CHOICE, log 102). -/
def Dev.patSync (d : Dev) (g : Nat) : Dev :=
  if d.get (R.PAT_CTRL.CHK g) ≠ 0 ∧ 64 ≤ (d.ln g).rx.chkRun then d.set (R.PAT_CTRL.SYNC g) 1 else d

/-- R84: a read of PAT_ERR: the value read, and the state with PAT_BITS written and both counters cleared. -/
def Dev.patRead (d : Dev) (g : Nat) : Nat × Dev :=
  let x := (d.ln g).rx
  (min (2 ^ 32 - 1) x.chkErr, ((d.set (R.PAT_BITS.UNITS g) (x.chkBits / 256)).set (R.PAT_ERR.ERR g) 0).onL g fun x =>
    { x with rx := { x.rx with chkErr := 0, chkBits := 0 } })

/-- R85, R86: a write to EYE_CTRL: ABORT first, then START. A START refused while a scan runs or waits leaves that scan alone: only RESULT
shows the refusal (the spec does not say what becomes of it: DESIGN CHOICE, log 103). -/
def Dev.eyeCtrl (d : Dev) (g v : Nat) : Dev :=
  let d := d.sw Row.EYE_CTRL (A.EYE_CTRL g) v
  let d := if bit v 30 ∧ d.scanning g then
    (d.endScan g 6) |> fun d => if d.spareMode g = 2 then d.spareIdle g else d
    else d
  if bit v 31 then
    let d := d.set (R.EYE_ERR.ERR g) 0
    if d.spareMode g = 3 then d.set (R.EYE_STATUS.RESULT g) 4
    else if d.rxState g ≠ 0 ∨ !d.on (R.RX_STATUS.CDR_LOCK g) then d.set (R.EYE_STATUS.RESULT g) 5
    else
      let set := (d.get (R.EYE_CTRL.THR g), d.getI (R.EYE_CTRL.VOFS g), d.get (R.EYE_CTRL.DWELL g))
      (d.set (R.EYE_STATUS.RESULT g) 1).onL g fun x =>
        { x with scanReq := d.spareMode g != 2, rx := { x.rx with eyeQ := [], eyeAt := 0, eyeN := 0, eyeErr := 0, eyeSet := set } }
  else d

/-- R85: the running scan of lane g ends after exactly 2^DWELL samples. -/
def Dev.eyeEnd (d : Dev) (g : Nat) : Dev :=
  if d.spareMode g = 2 ∧ 2 ^ (d.ln g).rx.eyeSet.2.2 ≤ (d.ln g).rx.eyeN then (d.endScan g 2).spareIdle g else d

/-! Capture rings (R87 to R90). -/

/-- Bytes per word of a capture source (R87). -/
def capWordBytes (src : Nat) : Nat := if src = 2 then 256 else if src = 3 then 32 else 128

/-- Words per page of a capture source (R87). -/
def capPageWords (src : Nat) : Nat := if src = 2 then 15 else if src = 3 then 126 else 31

/-- The ring base as CAP_BASE gives it for rings of 2^size pages; bits below the ring size are 0 (R89). -/
def Dev.capBase (d : Dev) (g size : Nat) : Nat :=
  let a := d.get (R.CAP_BASE_HI.ADDR g) * 2 ^ 32 + d.get (R.CAP_BASE_LO.ADDR g) * 4096
  a / (4096 * 2 ^ size) * (4096 * 2 ^ size)

/-- R89, R90: a trigger of lane g's capture. -/
def Dev.capTrigger (d : Dev) (g : Nat) : Dev :=
  if d.on (R.CAP_STATUS.RUNNING g) then
    let first := !d.on (R.CAP_STATUS.TRIGGERED g)
    let d := (d.set (R.CAP_STATUS.TRIGGERED g) 1).laneNotice g 13
    d.onL g fun x => { x with cap := { x.cap with
      trig := true, left := if x.cap.stop ∧ first then some (x.cap.post * 2 ^ x.cap.size / 256) else x.cap.left } }
  else d

/-- R89: EN goes from 0 to 1. -/
def Dev.capEnable (d : Dev) (g : Nat) : Dev :=
  let size := d.get (R.CAP_CTRL.SIZE g)
  let c : CapSt := { src := d.get (R.CAP_CTRL.SRC g), dec := d.get (R.CAP_CTRL.DEC g), trigSel := d.get (R.CAP_CTRL.TRIG_SEL g),
                     stop := d.on (R.CAP_CTRL.STOP g), size := size, post := d.get (R.CAP_CTRL.POST g), base := d.capBase g size }
  let d := ((d.set (R.CAP_WR.PAGE g) 0).set (R.CAP_RD.PAGE g) 0).set (R.CAP_MARK.VALID g) 0
  let d := ((d.set (R.CAP_STATUS.RUNNING g) 1).set (R.CAP_STATUS.TRIGGERED g) 0).set (R.CAP_STATUS.STOPPED g) 0
  d.onL g fun x => { x with cap := c }

/-- R90: the mark is set. -/
def Dev.capMark (d : Dev) (g : Nat) : Dev :=
  let p := d.get (R.CAP_WR.PAGE g)
  let p := if d.on (R.CAP_STATUS.RUNNING g) then p else (p + 1) % 2 ^ (d.ln g).cap.size
  ((d.set (R.CAP_MARK.PAGE g) p).set (R.CAP_MARK.VALID g) 1).onL g fun x => { x with cap := { x.cap with lost := false } }

/-- R90: a rewind to the mark, or its refusal. -/
def Dev.capRewind (d : Dev) (g : Nat) : Dev :=
  if d.on (R.CAP_MARK.VALID g) then
    (d.set (R.CAP_RD.PAGE g) (d.get (R.CAP_MARK.PAGE g))).set (R.CAP_STATUS.REW_RESULT g) 1
  else d.set (R.CAP_STATUS.REW_RESULT g) (if (d.ln g).cap.lost then 2 else 3)

/-- R89, R90: a write to CAP_CTRL: the enable, then MARK, REWIND and the software trigger. EN written 1 to 0 ends the capture at once and
the page in progress is not written (the spec does not say: DESIGN CHOICE, log 104). -/
def Dev.capCtrl (d : Dev) (g v : Nat) : Dev :=
  let was := d.on (R.CAP_CTRL.EN g)
  let d := d.sw Row.CAP_CTRL (A.CAP_CTRL g) v
  let d := if d.on (R.CAP_CTRL.EN g) ∧ !was then d.capEnable g
    else if !d.on (R.CAP_CTRL.EN g) then d.set (R.CAP_STATUS.RUNNING g) 0 else d
  let d := if bit v 30 then d.capMark g else d
  let d := if bit v 29 then d.capRewind g else d
  if bit v 28 then d.capTrigger g else d

/-- R88: a word is dropped whole. -/
def Dev.capDrop (d : Dev) (g : Nat) : Dev :=
  if d.on (R.CAP_STATUS.RUNNING g) then
    (d.inc (R.CAP_STATUS.DROP g)).onL g fun x => { x with cap := { x.cap with drop := x.cap.drop + 1 } }
  else d

/-- R87: the page being written is completed in DRAM with its header and the words in data; outside a region that admits
captures its words are dropped and counted (R276). -/
def Dev.capFinish (d : Dev) (g : Nat) (data : List Byte) : Dev :=
  let c := (d.ln g).cap
  let page := d.get (R.CAP_WR.PAGE g)
  let wb := capWordBytes c.src
  let n := min (data.length / wb) (capPageWords c.src)
  let a := c.base + 4096 * page
  let d :=
    if d.admits useCapture a 4096 then
      let marked := d.on (R.CAP_MARK.VALID g) && d.get (R.CAP_MARK.PAGE g) == page
      let head := bytesLE c.index 8 ++ bytesLE g 2 ++ bytesLE c.src 1 ++ bytesLE (b2n c.trig + 2 * b2n marked) 1
        ++ bytesLE c.drop 4 ++ bytesLE n 2 ++ bytesLE 0 46
      let body := data.take (n * wb)
      d.putBytes .dram 0 0 a (head ++ body ++ List.replicate (4032 - n * wb) 0)
    else (List.range n).foldl (fun d _ => d.regionViol) (d.inc (R.CAP_STATUS.DROP g) n)
  let lost := if d.admits useCapture a 4096 then 0 else n
  d.onL g fun x => { x with cap := { x.cap with trig := false, drop := lost, index := c.index + (n + c.drop) * 2 ^ c.dec } }

/-- R89, R90: the writer completes its page and starts the next one, overrunning CAP_RD, losing the mark or stopping. -/
def Dev.capPage (d : Dev) (g : Nat) (data : List Byte) : Dev :=
  if !d.on (R.CAP_STATUS.RUNNING g) then d
  else
    let d := d.capFinish g data
    let c := (d.ln g).cap
    if c.left = some 0 then
      ((d.set (R.CAP_STATUS.STOPPED g) 1).set (R.CAP_STATUS.RUNNING g) 0).laneNotice g 14
    else
      let p := (d.get (R.CAP_WR.PAGE g) + 1) % 2 ^ c.size
      let d := (d.set (R.CAP_WR.PAGE g) p).onL g fun x => { x with cap := { x.cap with left := x.cap.left.map (· - 1) } }
      let d := if p = d.get (R.CAP_RD.PAGE g) then
        ((d.set (R.CAP_STATUS.OVERRUN g) 1).set (R.CAP_RD.PAGE g) ((p + 1) % 2 ^ c.size)).laneNotice g 16 else d
      if d.on (R.CAP_MARK.VALID g) ∧ d.get (R.CAP_MARK.PAGE g) = p then
        (((d.set (R.CAP_MARK.VALID g) 0).set (R.CAP_STATUS.MARK_LOST g) 1).laneNotice g 15).onL g fun x =>
          { x with cap := { x.cap with lost := true } }
      else d

/-! The commands. -/

def execTxFfeWrite (src : Src) (g : Lane) (val : BitVec 32) (s : State) : Host.Outcome State Fault Refusal :=
  s.on fun d => d.gate src (A.TX_FFE g) fun d => d.txFfe g val.toNat

def execPdPageSelect (src : Src) (g : Lane) (val : BitVec 32) (s : State) : Host.Outcome State Fault Refusal :=
  s.on fun d => d.gate src (A.PD_CTRL g) fun d => d.pdCtrl g val.toNat

def execPdEntryWrite (src : Src) (g : Lane) (page : Bool) (i : Fin 64) (val : BitVec 32) (s : State) :
    Host.Outcome State Fault Refusal :=
  s.on fun d => d.gate src (if page then A.PD_P1 g i else A.PD_P0 g i) fun d => d.pdEntry g page i val.toNat

/-- R77: a write of TRN_CTRL with START = 1. -/
def execTrainStart (src : Src) (g : Lane) (val : BitVec 32) (s : State) : Host.Outcome State Fault Refusal :=
  s.on fun d => d.gate src (A.TRN_CTRL g) fun d => d.trnCtrl g (putBit val.toNat 31 true)

/-- R77: a write of TRN_CTRL with START = 0. -/
def execTrainStop (src : Src) (g : Lane) (val : BitVec 32) (s : State) : Host.Outcome State Fault Refusal :=
  s.on fun d => d.gate src (A.TRN_CTRL g) fun d => d.trnCtrl g (putBit val.toNat 31 false)

/-- R77: a write of TRN_CTRL with START = 1 and LOCAL_READY = 1. -/
def execLocalReadySet (src : Src) (g : Lane) (val : BitVec 32) (s : State) : Host.Outcome State Fault Refusal :=
  s.on fun d => d.gate src (A.TRN_CTRL g) fun d => d.trnCtrl g (putBit (putBit val.toNat 31 true) 30 true)

/-- R77: a write of TRN_CTRL with START = 1 and LOCAL_READY = 0. -/
def execLocalReadyClear (src : Src) (g : Lane) (val : BitVec 32) (s : State) : Host.Outcome State Fault Refusal :=
  s.on fun d => d.gate src (A.TRN_CTRL g) fun d => d.trnCtrl g (putBit (putBit val.toNat 31 true) 30 false)

def execTrainLimitExpiry (g : Lane) (s : State) : Host.Outcome State Fault Refusal :=
  s.on fun d => d.live (g / 8) fun d => d.trnFailBy g 0

def execTrainRequest (src : Src) (g : Lane) (val : BitVec 32) (s : State) : Host.Outcome State Fault Refusal :=
  s.on fun d => d.gate src (A.TRN_REQ g) fun d => d.trnReq g val.toNat

def execTrainResend (g : Lane) (s : State) : Host.Outcome State Fault Refusal :=
  s.on fun d => d.live (g / 8) fun d => d.trnResend g

def execTrainingMessageReceive (o : Oct) (msg : BitVec 256) (s : State) : Host.Outcome State Fault Refusal :=
  s.on fun d => d.live o fun d => d.trnReceive o msg

def execLanePowerRequest (src : Src) (g : Lane) (val : BitVec 32) (s : State) : Host.Outcome State Fault Refusal :=
  s.on fun d => d.gate src (A.PWR_CTRL g) fun d => d.pwrCtrl g val.toNat

/-- R83: a write to LB_CTRL is stored; the mode comes into force at LOOPBACK_ENGAGE. -/
def execLoopbackSelect (src : Src) (g : Lane) (val : BitVec 32) (s : State) : Host.Outcome State Fault Refusal :=
  s.on fun d => d.gate src (A.LB_CTRL g) fun d => d.sw Row.LB_CTRL (A.LB_CTRL g) val.toNat

def execLoopbackEngage (g : Lane) (s : State) : Host.Outcome State Fault Refusal :=
  s.on fun d => d.live (g / 8) fun d => d.loopEngage g

def execLoopbackSlip (x : With Lane (List LaneWord)) (s : State) : Host.Outcome State Fault Refusal :=
  s.on fun d => d.live (x.obj / 8) fun d => (d.rxWords x.obj x.inp).loopSlip x.obj

def execPatternSync (x : With Lane (List LaneWord)) (s : State) : Host.Outcome State Fault Refusal :=
  s.on fun d => d.live (x.obj / 8) fun d => (d.rxWords x.obj x.inp).patSync x.obj

def execPatErrRead (src : Src) (o : Oct) (l : Slot) (ws : List LaneWord) (s : State) : Host.Outcome State Fault Refusal :=
  let g := 8 * o.val + l.val
  s.on fun d => d.gateRead src (A.PAT_ERR g) fun d => (d.rxWords g ws).patRead g

def execEyeScanStart (src : Src) (g : Lane) (val : BitVec 32) (s : State) : Host.Outcome State Fault Refusal :=
  s.on fun d => d.gate src (A.EYE_CTRL g) fun d => d.eyeCtrl g (putBit val.toNat 31 true)

def execEyeScanAbort (src : Src) (g : Lane) (val : BitVec 32) (s : State) : Host.Outcome State Fault Refusal :=
  s.on fun d => d.gate src (A.EYE_CTRL g) fun d => d.eyeCtrl g (putBit val.toNat 30 true)

def execEyeScanEnd (g : Lane) (ws : List LaneWord) (s : State) : Host.Outcome State Fault Refusal :=
  s.on fun d => d.live (g / 8) fun d => (d.rxWords g ws).eyeEnd g

/-- R89: a write of CAP_CTRL with EN = 1. -/
def execCaptureEnable (src : Src) (g : Lane) (val : BitVec 32) (s : State) : Host.Outcome State Fault Refusal :=
  s.on fun d => d.gate src (A.CAP_CTRL g) fun d => d.capCtrl g (putBit val.toNat 31 true)

/-- R90: a write of CAP_CTRL with MARK = 1. -/
def execCaptureMark (src : Src) (g : Lane) (val : BitVec 32) (s : State) : Host.Outcome State Fault Refusal :=
  s.on fun d => d.gate src (A.CAP_CTRL g) fun d => d.capCtrl g (putBit val.toNat 30 true)

/-- R90: a write of CAP_CTRL with REWIND = 1. -/
def execCaptureRewind (src : Src) (g : Lane) (val : BitVec 32) (s : State) : Host.Outcome State Fault Refusal :=
  s.on fun d => d.gate src (A.CAP_CTRL g) fun d => d.capCtrl g (putBit val.toNat 29 true)

/-- R89: a trigger: 0 to 3 the hardware triggers of TRIG_SEL, which count only when selected; 4 the software trigger. -/
def execCaptureTrigger (g : Lane) (k : Fin 5) (s : State) : Host.Outcome State Fault Refusal :=
  s.on fun d => d.live (g / 8) fun d => if k.val = 4 ∨ bit (d.ln g).cap.trigSel k then d.capTrigger g else d

def execCapturePageStart (g : Lane) (data : List (BitVec 8)) (s : State) : Host.Outcome State Fault Refusal :=
  s.on fun d => d.live (g / 8) fun d => d.capPage g data

def execCaptureWordDrop (g : Lane) (s : State) : Host.Outcome State Fault Refusal :=
  s.on fun d => d.live (g / 8) fun d => d.capDrop g

end Sys2Proof.Machine
end

