-- ==== Sys2Proof/Machine/Port.lean ====
section
/-! DEFINITION. Octet modes, alignment markers, deskew and port state, FEC statistics, frame time stamps (spec/01, spec/04). -/

namespace Sys2Proof.Machine

/-! The octet mode chamber (R31 to R34, R105). -/

/-- R33: a write to MODE_COMMIT. -/
def Dev.modeCommit (d : Dev) (o v : Nat) : Dev :=
  if bit v 0 then (d.onO o fun x => { x with modePend := d.reg (A.MODE o) }).set (R.MODE_COMMIT.PENDING o) 1 else d

/-- R31: the FEC mode a lane mode requires. -/
def fecOf (mode : Nat) : Nat := if mode = 0 then 0 else 1

/-- R110: the alarm limit of a lane mode over 2^32 bits. -/
def berLimit (mode shift : Nat) : Nat :=
  (if mode = 0 then 1030792 else if mode = 1 then 19327353 else 47244640) / 2 ^ shift

/-- R110: BER_LIMIT of lane l of octet o takes the value the mode and BER_SHIFT give. -/
def Dev.newBerLimit (d : Dev) (o l : Nat) : Dev :=
  d.set (R.BER_LIMIT.COUNT o l) (berLimit (d.get (R.MODE_ACTIVE.LANE_MODE o)) (d.get (R.PORT_CTRL.BER_SHIFT o)))

/-- R105: the slots that hold no port read 0. -/
def Dev.clearSlot (d : Dev) (o p : Nat) : Dev :=
  let lo := A.CW_LO o p
  let d := { d with regs := d.regs.filter fun e => !(decide (lo ≤ e.1) && decide (e.1 < lo + 0x80)) }
  (d.setReg (A.PORT_STATUS o p) 0).onPt o p fun _ => PortSt.reset

/-- R33: the boundary at which a pending mode may become active. -/
def Dev.modeFree (d : Dev) (o : Nat) : Bool :=
  (lanesOf o).all fun g => (d.txState g == 2 && d.rxState g == 2) || d.portState o (d.laneSlot g) == 0

/-- R33, R34, R105, R110: the pending mode of octet o becomes active at its boundary. -/
def Dev.modeBoundary (d : Dev) (o : Nat) : Dev :=
  if d.on (R.MODE_COMMIT.PENDING o) ∧ d.modeFree o then
    let d := (d.slots o).foldl (fun d p => d.portDown o p) d
    let m := (d.oc o).modePend
    let mode := getBits m 1 0
    let bad := getBits m 3 2 ≠ fecOf mode
    let d := d.setReg (A.MODE_ACTIVE o) (putBits m 3 2 (fecOf mode))
    let d := (d.flag (R.MODE_COMMIT.REPLACED o) bad).set (R.MODE_COMMIT.PENDING o) 0
    let d := (List.range 8).foldl (fun d p =>
      if p % d.portWidth o = 0 then d.onPt o p fun x => { x with fifo := [] } else d.clearSlot o p) d
    (List.range 8).foldl (fun d l =>
      let d := (d.newBerLimit o l).onL (8 * o + l) fun x => { x with inData := false, ber := 0, dfePend := if mode = 0 then x.dfePend else none, dfeOn := x.dfeOn && mode == 0 }
      if mode = 0 then d else d.set (R.DFE_CTRL.EN (8 * o + l)) 0) d
  else d

/-! Alignment markers (R99 to R104). -/

/-- R100: the marker of lane l, first bit most significant. -/
def markerWord (lane split mode index bip : Nat) : Nat :=
  let body := lane * 2 ^ 29 + split * 2 ^ 27 + mode * 2 ^ 25 + index * 2 ^ 19 + bip % 256 * 2 ^ 11
  0xE35A1C * 2 ^ 40 + body * 2 ^ 8 + crc8 body 32

/-- R102: at least 21 of the 24 SYNC bits match and the CRC passes. -/
def markerValid (w : Nat) : Bool :=
  decide (popCount (getBits w 63 40 ^^^ 0xE35A1C) 24 ≤ 3) && crc8 (getBits w 39 8) 32 == getBits w 7 0

/-- An instant with 1/65,536 ps, carried into the seconds. -/
def stampOf (sec : Nat) (sub : Int) : Stamp :=
  let t : Int := sec * (10 ^ 12 * 65536) + sub
  let n := t.toNat
  ⟨n / (10 ^ 12 * 65536) % 2 ^ 48, n / 65536 % 10 ^ 12, n % 65536⟩

/-- R116: T_m of lane g: the capture at the clock tap, the calibrated delay (signed, 1/16 ps) and the temperature term. -/
def Dev.tmOf (d : Dev) (g : Nat) (tap : Instant) (delay : Int) (temp : Int) : Stamp :=
  let tc := d.getI (R.TSC_STATUS.TC (g / 8) (g % 8))
  let t0 := d.getI (R.TSC_STATUS.TEMP (g / 8) (g % 8))
  stampOf tap.sec (tap.sub + delay * 4096 + tc * (temp - t0) * 256)

/-- R102: the marker search and lock of lane g at one marker position. -/
def Dev.markerLane (d : Dev) (g : Nat) (m : MarkerArrival) : Dev :=
  let w := m.word.toNat
  let o := g / 8
  let valid := markerValid w
  let x := d.ln g
  if valid then
    let index := getBits w 32 27
    let bad := getBits w 39 37 ≠ g % 8 ∨ getBits w 36 35 ≠ d.get (R.MODE_ACTIVE.SPLIT o) ∨ getBits w 34 33 ≠ d.laneMode g
    let bips := popCount (getBits w 26 19 ^^^ m.parity.toNat) 8
    let d := if d.mlock g ∧ bips ≠ 0 then (d.inc (R.BIP_ERR.COUNT o (g % 8)) bips).bump (Ctr.lane g 5) bips else d
    let tm := d.tmOf g m.tap (d.getI (R.TSC_RX.DELAY o (g % 8))) m.temp
    let d := d.onL g fun x => { x with mkIndex := some index, mkMiss := 0, mkBad := bad, mkCyc := m.cycle, aptRx := m.aptRx,
                                       aptTx := m.aptTx, tmRx := tm, stepRx := d.time.steps }
    if !d.mlock g ∧ d.trn g = trnData ∧ x.mkIndex.any fun i => index = (i + 1) % 34 then d.setMlock g true else d
  else if d.mlock g then
    let d := (d.inc (R.BIP_ERR.COUNT o (g % 8))).bump (Ctr.lane g 5)
    let d := d.onL g fun x => { x with mkMiss := x.mkMiss + 1 }
    if 3 ≤ x.mkMiss + 1 then ((d.setMlock g false).portDown o (d.laneSlot g)).onL g fun x => { x with mkIndex := none } else d
  else d.onL g fun x => { x with mkIndex := none }

/-- R25: LAT_RX and LAT_TX of lane g as measured at the end of link training. -/
def Dev.writeLat (d : Dev) (g skew : Nat) : Dev :=
  let plesio := d.get (R.MODE_ACTIVE.TIMING (g / 8))
  let x := d.ln g
  let count := if d.laneMode g = 0 then 150 else if d.laneMode g = 1 then 190 else 286
  let d := ((d.set (R.LAT_RX.VALID g) (1 - plesio)).set (R.LAT_RX.ELASTIC g) plesio).set (R.LAT_RX.DESKEW g) skew
  let d := (d.flag (R.LAT_RX.APT_LATE g) x.aptRx).set (R.LAT_RX.RX_L g) count
  let d := ((d.set (R.LAT_TX.VALID g) 1).flag (R.LAT_TX.APT_LATE g) x.aptTx).set (R.LAT_TX.TX_L g) 48
  (d.newBerLimit (g / 8) (g % 8)).onL g fun x => { x with freqBad := false, ber := 0 }

/-- R103, R104: the skew of the port once every lane's marker of one INDEX has left its sluice. -/
def Dev.portSkew (d : Dev) (o p : Nat) : Dev :=
  let ls := d.portLanes o p
  let i := ((ls.head?.map fun g => (d.ln g).mkIndex).getD none)
  if i.isSome ∧ ls.all fun g => d.mlock g && (d.ln g).mkMiss == 0 && (d.ln g).mkIndex == i then
    let last := ls.foldl (fun c g => max c (d.ln g).mkCyc) 0
    let sk := ls.map fun g => last - (d.ln g).mkCyc
    let fail := (d.setPort o p 1).set (R.PORT_STATUS.DESKEW_FAIL o p) 1
    if d.portState o p = 2 then
      if sk.any fun k => 64 < k then fail
      else match (d.pt o p).skews with
        | none => d.onPt o p fun x => { x with skews := some sk }
        | some first =>
          if first ≠ sk then fail
          else ((ls.zip sk).foldl (fun d e => d.writeLat e.1 e.2) d).setPort o p 3
    else if d.portState o p = 3 then
      if sk = ls.map fun g => d.get (R.LAT_RX.DESKEW g) then d
      else (d.portDown o p).set (R.PORT_STATUS.SKEW_CHANGE o p) 1
    else d
  else d

/-- R102 to R104: a marker position arrives on lane g. -/
def Dev.markerReceive (d : Dev) (g : Nat) (m : MarkerArrival) : Dev :=
  let o := g / 8
  let p := d.laneSlot g
  let searching := d.portState o p ≤ 1
  let d := d.markerLane g m
  if searching then d.portStep o p else d.portSkew o p

/-! FEC statistics (R95, R98, R108 to R110). -/

/-- R110: n pre-FEC bit errors on lane g while its port is UP. -/
def Dev.berErrors (d : Dev) (g n : Nat) : Dev :=
  let d := d.bump (Ctr.lane g 2) n
  if d.portUp (g / 8) (d.laneSlot g) then d.onL g fun x => { x with ber := x.ber + n } else d

/-- R93, R106: the blocks of the message symbols of a codeword, and the descrambler's history after it. -/
def messageBlks (h : List Bool) (r : List Nat) : List Blk × List Bool :=
  let bits := ((r.take 514).map symbolBits).flatten
  (List.range 20).foldl (fun (s : List Blk × List Bool) i =>
    let (l, h) := untranscode typeNibble s.2 ((bits.drop (257 * i)).take 257)
    (s.1 ++ l, h)) ([], h)

/-- A word with its errors corrected. -/
def fixErrors (r : List Nat) (l : List (Nat × Nat)) : List Nat := l.foldl (fun r e => r.set e.1 (r.getD e.1 0 ^^^ e.2)) r

/-- R94, R108, R110: one corrected symbol, of index i in its pair, with error value v: it counts against the lane that carried it. -/
def Dev.symbolFixed (d : Dev) (o p i v : Nat) : Dev :=
  let l := p + laneOfSymbol (d.portWidth o) i
  ((d.inc (R.SYM_ERR.COUNT o l)).bump (Ctr.lane (8 * o + l) 3)).berErrors (8 * o + l) (popCount v 10)

/-- R93 to R95, R104, R108: a codeword of the port, its 544 symbols as received, is decoded and released: corrected, or with error blocks in
place of its 20 transcoded ones. -/
def Dev.codeword (d : Dev) (o p : Nat) (r : List Nat) : Dev :=
  if !d.portUp o p then d
  else
    let sat (w v n : Nat) := satAdd (2 ^ w - 1) v n
    let half := (d.pt o p).half
    let fix := rsErrors r
    let (blks, dsc) := messageBlks (d.pt o p).dsc (fixErrors r (fix.getD []))
    let d := d.onPt o p fun x => { x with half := !half, cwNo := x.cwNo + 1, dsc }
    match fix with
    | some l =>
      let k := l.length
      let d := d.onPt o p fun x =>
        { x with cw := sat 64 x.cw 1, corr := sat 64 x.corr (if k = 0 then 0 else 1), sym := sat 64 x.sym k,
                 hist := Tbl.set 0 x.hist k (sat 32 (Tbl.get 0 x.hist k) 1), uncRun := 0, blks }
      l.foldl (fun d e => d.symbolFixed o p (2 * e.1 + b2n half) e.2) d
    | none =>
      let d := d.onPt o p fun x =>
        { x with cw := sat 64 x.cw 1, uncorr := sat 32 x.uncorr 1, uncRun := x.uncRun + 1, blks := List.replicate 80 errorBlk,
                 badCw := x.badCw ++ [x.cwNo - 1] }
      if 16 ≤ (d.pt o p).uncRun then (d.portDown o p).set (R.PORT_STATUS.HI_SER o p) 1 else d

/-- R98, R108: an inner block of lane g is decoded from the log-likelihood ratios of its 136 bits: the bits flipped are counted, or the
block that has no codeword; 128 bits are passed on. A lane in RXQ or DEEP decodes none (R18, R79). -/
def Dev.innerBlock (d : Dev) (g : Nat) (llr : List Int) : Dev :=
  if d.laneMode g = 0 ∨ d.rxState g ≠ 0 then d
  else
    let pass (d : Dev) (l : List Bool) : Dev := d.onL g fun x => { x with rx := { x.rx with inner := l.take 128 } }
    match chase llr with
    | some w =>
      let n := hamming (hard llr) w
      (((pass d w).inc (R.INNER_CORR.COUNT (g / 8) (g % 8)) n).bump (Ctr.lane g 4) n).berErrors g n
    | none => (pass d (hard llr)).inc (R.INNER_FAIL.COUNT (g / 8) (g % 8))

/-- R109: the live counts of one slot copied, and cleared if asked. -/
def Dev.snapSlot (d : Dev) (o p : Nat) (clear : Bool) : Dev :=
  let x := d.pt o p
  let d := ((d.set (R.CW_LO.COUNT o p) x.cw).set (R.CW_HI.COUNT o p) (x.cw / 2 ^ 32)).set (R.CORR_LO.COUNT o p) x.corr
  let d := ((d.set (R.CORR_HI.COUNT o p) (x.corr / 2 ^ 32)).set (R.UNCORR.COUNT o p) x.uncorr).set (R.SYM_LO.COUNT o p) x.sym
  let d := d.set (R.SYM_HI.COUNT o p) (x.sym / 2 ^ 32)
  let d := (List.range 16).foldl (fun d k => d.set (R.HIST.COUNT o p k) (Tbl.get 0 x.hist k)) d
  if clear then d.onPt o p fun x => { x with cw := 0, corr := 0, uncorr := 0, sym := 0, hist := [] } else d

/-- R109: a write to FEC_SNAP. -/
def Dev.fecSnap (d : Dev) (o v : Nat) : Dev :=
  (d.slots o).foldl (fun d p => if bit v p then d.snapSlot o p (bit v 8) else d) d

/-- R110: a window of 2^32 line bits of lane g ends. -/
def Dev.berWindow (d : Dev) (g : Nat) : Dev :=
  let o := g / 8
  let l := g % 8
  let p := d.laneSlot g
  if d.portUp o p then
    let n := (d.ln g).ber
    let alarm := decide (d.get (R.BER_LIMIT.COUNT o l) < n) && d.on (R.PORT_CTRL.BER_EN o)
    let d := d.set (R.BER_CNT.COUNT o l) (min n (2 ^ 32 - 1))
    let d := if alarm then d.set (R.PORT_STATUS.BER_ALARM o p) 1 else d
    (d.newBerLimit o l).onL g fun x => { x with ber := 0 }
  else d

/-! Time stamps (R116 to R121). -/

/-- R116: UI as a fraction of a picosecond: 1/212.5 ns in Mode S, 32/7,225 ns otherwise. -/
def uiPs (mode : Nat) : Nat × Nat := if mode = 0 then (80, 17) else (32000, 7225)

/-- R116: the timestamp of a frame whose point lies k symbols after the lane's last valid marker, rounded to the nearest
picosecond: seconds and picoseconds. -/
def Dev.frameStamp (d : Dev) (g k : Nat) (tx : Bool) : Nat × Nat :=
  let x := d.ln g
  let tm := if tx then x.tmTx else x.tmRx
  let adj := d.getI (if tx then R.TS_ADJ_TX.ADJ (g / 8) (g % 8) else R.TS_ADJ_RX.ADJ (g / 8) (g % 8))
  let (un, ud) := uiPs (d.laneMode g)
  let den : Nat := ud * 2 ^ 40
  let base : Int := tm.ps * 65536 + tm.sub + adj * 65536
  let ps := roundDiv (base * den + (k * un : Nat) * (2 ^ 40 + d.getI R.TB_RATE.RATE) * 65536) (65536 * den)
  let s := stampOf tm.sec (ps * 65536)
  (s.sec, s.ps)

/-- R120: the frame's marker lies before the last step or load of the time base. -/
def Dev.stepped (d : Dev) (g : Nat) (tx : Bool) : Bool :=
  (if tx then (d.ln g).stepTx else (d.ln g).stepRx) != d.time.steps

/-- R121: a transmit timestamp is pushed, or discarded with the queue full. -/
def Dev.pushTxts (d : Dev) (o : Nat) (t : TxTs) : Dev :=
  if 64 ≤ (d.oc o).txts.length then (d.inc (R.TXTS_STATUS.OVF o)).bump (Ctr.oct o 12)
  else (d.onO o fun x => { x with txts := x.txts ++ [t] }).set (R.TXTS_STATUS.FILL o) ((d.oc o).txts.length + 1)

/-- R121: a read of TXTS_0 pops the oldest entry: the value read, and the state. -/
def Dev.popTxts (d : Dev) (o : Nat) : Nat × Dev :=
  match (d.oc o).txts with
  | [] => (0, d)
  | t :: r =>
    let d := (d.onO o fun x => { x with txts := r }).set (R.TXTS_STATUS.FILL o) r.length
    let d := (d.setReg (A.TXTS_1 o) (t.ps % 2 ^ 32)).setReg (A.TXTS_2 o) (t.ps / 2 ^ 32 % 256 * 2 ^ 24 + t.sec % 2 ^ 24)
    (2 ^ 31 + t.slot * 2 ^ 24 + b2n t.stepped * 2 ^ 23 + t.tag % 65536, d)

/-- R118: a write to TSC_CTRL of lane g. -/
def Dev.tscCtrl (d : Dev) (g v : Nat) : Dev :=
  if !bit v 31 then d
  else if (d.trn g = trnOff ∨ d.trn g = trnFail) ∧ d.txState g = 0 ∧ d.rxState g = 0 ∧ d.get (R.LB_STATUS.ACTIVE g) = 0 then
    (d.set (R.TSC_STATUS.RESULT (g / 8) (g % 8)) 1).onL g fun x => { x with tscRun := true }
  else d.set (R.TSC_STATUS.RESULT (g / 8) (g % 8)) 3

/-- R118: the measurement of lane g ends with its two delays, in 1/16 ps, at a junction temperature. -/
def Dev.tscDone (d : Dev) (g : Nat) (rx tx temp : Int) : Dev :=
  if (d.ln g).tscRun then
    let o := g / 8
    let l := g % 8
    let d := ((d.setI (R.TSC_RX.DELAY o l) rx).setI (R.TSC_TX.DELAY o l) tx).setI (R.TSC_STATUS.TEMP o l) temp
    ((d.set (R.TSC_STATUS.VALID o l) 1).set (R.TSC_STATUS.RESULT o l) 2).onL g fun x => { x with tscRun := false }
  else d

/-! The commands. -/

def execModeCommit (src : Src) (o : Oct) (val : BitVec 32) (s : State) : Host.Outcome State Fault Refusal :=
  s.on fun d => d.gate src (A.MODE_COMMIT o) fun d => d.modeCommit o val.toNat

def execModeBoundary (o : Oct) (s : State) : Host.Outcome State Fault Refusal :=
  s.on fun d => d.live o fun d => d.modeBoundary o

def execMarkerReceive (g : Lane) (m : MarkerArrival) (s : State) : Host.Outcome State Fault Refusal :=
  s.on fun d => d.live (g / 8) fun d => d.markerReceive g m

def execCodewordDecode (o : Oct) (p : Slot) (r : List (BitVec 10)) (s : State) : Host.Outcome State Fault Refusal :=
  s.on fun d => d.live o fun d => d.codeword o p (r.map (·.toNat))

def execInnerBlockDecode (g : Lane) (llr : List Int) (s : State) : Host.Outcome State Fault Refusal :=
  s.on fun d => d.live (g / 8) fun d => d.innerBlock g llr

def execFecSnapshot (src : Src) (o : Oct) (val : BitVec 32) (s : State) : Host.Outcome State Fault Refusal :=
  s.on fun d => d.gate src (A.FEC_SNAP o) fun d => d.fecSnap o val.toNat

def execBerWindowEnd (g : Lane) (s : State) : Host.Outcome State Fault Refusal :=
  s.on fun d => d.live (g / 8) fun d => d.berWindow g

def execTxtsPop (src : Src) (o : Oct) (s : State) : Host.Outcome State Fault Refusal :=
  s.on fun d => d.gateRead src (A.TXTS_0 o) fun d => d.popTxts o

end Sys2Proof.Machine
end

