-- ==== Sys2Proof/Machine/Sched.lean ====
section
/-! DEFINITION. The scheduler (spec/06, R175 to R181): token buckets, eligibility, the DWRR walk, ageing, lock chambers and node
records. -/

namespace Sys2Proof.Machine

/-! Token buckets (R178). -/

/-- R178: the 2^-32 bytes a bucket of RATE kbit/s gains in a C-cycle; RATE / 12,800,000 bytes, of which the rounding is open (log 10). -/
def tokenInc (rate : Nat) : Nat :=
  rate * 2 ^ 32 / 12800000 + (if rate * 2 ^ 32 % 12800000 ≠ 0 ∧ Config.rateUp rate then 1 else 0)

/-- The balance of a node in C-cycle t, in 2^-32 byte, capped at BURST. -/
def Node.balance (n : Node) (t : Nat) : Int :=
  let cap : Int := n.burst * 256 * 2 ^ 32
  let v := n.tokens + (tokenInc n.rate * (t - n.tokAt) : Nat)
  if cap < v then cap else v

/-- The balance brought up to C-cycle t. -/
def Node.settle (n : Node) (t : Nat) : Node := { n with tokens := n.balance t, tokAt := t }

/-- R176, R178: the shaper holds zero tokens or more. -/
def Node.conforms (n : Node) (t : Nat) : Bool := !n.shape || decide (0 ≤ n.balance t)

/-- The node's OVH in bytes. -/
def Node.ovhI (n : Node) : Int := toS 7 n.ovh

/-- R178: a selection of a charged length. -/
def Node.charge (n : Node) (t : Nat) (len : Int) : Node :=
  let n := n.settle t
  { n with tokens := n.tokens - len * 2 ^ 32 }

/-! Backlog and eligibility (R176). -/

/-- The cut-through frame of flow f that is still arriving and not selected. -/
def Dev.openOf (d : Dev) (f : Nat) : Option RxFr :=
  (d.fab.rx.findSome? fun e => match e.2 with
    | some r => if r.flow = f ∧ !r.sel ∧ !r.dead then some r else none
    | none => none)

/-- The first frame of a flow's on-chip list: its cells, where the list holds the whole of it or it cuts through. -/
def Dev.headFrame (d : Dev) (f : Nat) (x : Ctx) : Option (List Nat) :=
  if x.onchip = 0 then none
  else match d.openOf f with
    | some r => some (d.walk r.first r.cells)
    | none =>
      let l := d.frameCells x.head x.onchip
      if l.any fun c => bit (d.link c) 22 then some l else none

/-- A flow's queue holds a frame. -/
def Dev.flowBacklog (d : Dev) (f : Nat) : Bool := (d.node 3 f).valid && decide (0 < (d.peekCtx f).onchip)

/-- R176: the flow is served: ACTIVE, or REMOVING until it is empty (log 12), with an eligible frame, its shaper conforming. -/
def Dev.flowEligible (d : Dev) (t f : Nat) : Bool :=
  let x := d.peekCtx f
  (d.node 3 f).valid && (x.state == fsActive || x.state == fsRemoving) && (d.headFrame f x).isSome && (d.node 3 f).conforms t

/-- Frames queued below node i; the first argument is 3 - level. -/
def Dev.backlogN (d : Dev) : Nat → Nat → Bool
  | 0, f => d.flowBacklog f
  | n + 1, i => ((d.node (2 - n) i).kids.any fun l => l.any fun k => Dev.backlogN d n k)

/-- Frames queued below node i of a level. -/
def Dev.backlog (d : Dev) (lvl i : Nat) : Bool := d.backlogN (3 - lvl) i

/-- R176, R177: node i is eligible in C-cycle t; the first argument is 3 - level. -/
def Dev.eligibleN (d : Dev) (t : Nat) : Nat → Nat → Bool
  | 0, f => d.flowEligible t f
  | n + 1, i =>
    d.nodeValid (2 - n) i && (d.node (2 - n) i).conforms t && (n != 2 || d.portUp (i / 8) (i % 8))
      && (d.node (2 - n) i).kids.any fun l => l.any fun k => Dev.eligibleN d t n k

/-- R176: node i of a level is eligible in C-cycle t. -/
def Dev.eligible (d : Dev) (t lvl i : Nat) : Bool := d.eligibleN t (3 - lvl) i

/-! Lock chambers (R180). -/

/-- R180: the committed values of parent i become active. -/
def Dev.chamberApply (d : Dev) (lvl i : Nat) : Dev :=
  match (d.node lvl i).pend with
  | none => d
  | some (qb, age, kids) =>
    let d := kids.foldl (fun d k =>
      let c := d.node (lvl + 1) k.1
      if !c.valid ∨ c.parent ≠ i then d
      else if c.band = k.2.1 then d.onN (lvl + 1) k.1 fun c => { c with weight := k.2.2 }
      else
        let d := if c.promoted then d else d.onN lvl i fun p => (p.delKid c.band k.1).addKid k.2.1 k.1
        d.onN (lvl + 1) k.1 fun c => { c with weight := k.2.2, band := k.2.1, deficit := 0 }) d
    d.onN lvl i fun p => { p with qb := qb, age := age, pend := none }

/-- R176: the band a decision at node i of a level serves, children judged by elig: the lowest-numbered that holds an eligible one. -/
def Node.band? (n : Node) (elig : Nat → Bool) : Option Nat := (List.range 4).find? fun b => (n.kids.getD b []).any elig

/-- A decision in band b of a node starts a new round. -/
def Node.newRound (n : Node) (b : Nat) : Bool := n.ptr.getD b 0 == 0 && !n.turn.getD b false

/-- R180: a pending copy's boundary has come: the parent has no backlog, or the decision it makes now starts a new round in its band. -/
def Dev.atBoundary (d : Dev) (lvl i : Nat) : Bool :=
  let n := d.node lvl i
  n.pend.isSome && (!d.backlog lvl i || (n.band? (d.eligible d.fab.cyc (lvl + 1))).any n.newRound)

/-- R180: a commit naming parent i of a level: its staged values and those of its children become the pending copy. -/
def Dev.chamberCommit (d : Dev) (lvl i : Nat) : Dev :=
  let p := d.node lvl i
  let own := d.fab.nodes.filter fun e =>
    decide (e.1 / 2 ^ 20 = lvl + 1) && e.2.valid && e.2.parent == i
  d.onN lvl i fun p' => { p' with pend := some (p.sQb, p.sAge, own.map fun e => (e.1 % 2 ^ 20, e.2.sBand, e.2.sWeight)) }

/-! The walk (R176). -/

/-- A frame chosen: its flow, cells, charged length before OVH, and the path of nodes below the one that asked: level and index. -/
structure Pick where
  flow : Nat
  cells : List Nat
  len : Nat
  path : List (Nat × Nat)
  deriving DecidableEq, Repr

/-- The pointer of band b moves past the child it stands at; the turn is over. -/
def Node.advance (n : Node) (b : Nat) : Node :=
  let k := (n.kids.getD b []).length
  let p := n.ptr.getD b 0 + 1
  { n with ptr := setAt n.ptr b (if k ≤ p then 0 else p), turn := setAt n.turn b false }

/-- R176, R179: the turn of child c, at the pointer of band b of node i, ends: an emptied child's deficit is 0, a promoted child
returns to its band. -/
def Dev.endTurn (d : Dev) (lvl i b c : Nat) : Dev :=
  let d := if d.backlog (lvl + 1) c then d else d.onN (lvl + 1) c fun n => { n with deficit := 0 }
  let n := d.node (lvl + 1) c
  if n.promoted then
    let d := d.onN lvl i fun p => (p.delKid 0 c).addKid n.band c
    d.onN (lvl + 1) c fun n => { n with promoted := false }
  else d.onN lvl i fun p => p.advance b

/-- R176, R179: the quantum of child c at parent p: that of its own band, promoted or not. -/
def quantum (p c : Node) : Int := (c.weight * p.qb.getD c.band 0 * 16 : Nat)

/-- One decision at node i of a level: sub decides at a child. The last argument bounds the turns tried. -/
def Dev.serveKids (t : Nat) (elig : Dev → Nat → Bool) (sub : Dev → Nat → Option (Pick × Dev)) (lvl i : Nat) :
    Nat → Dev → Option (Pick × Dev)
  | 0, _ => none
  | n + 1, d =>
    let p := d.node lvl i
    match p.band? (elig d) with
    | none => none
    | some b =>
      if p.pend.isSome && p.newRound b then Dev.serveKids t elig sub lvl i n (d.chamberApply lvl i)
      else match (p.kids.getD b [])[p.ptr.getD b 0]? with
      | none => none
      | some c =>
        if !elig d c then
          Dev.serveKids t elig sub lvl i n
            (if p.turn.getD b false then d.endTurn lvl i b c else d.onN lvl i fun p => p.advance b)
        else
          let kid := d.node (lvl + 1) c
          let d := if p.turn.getD b false then d
            else (d.onN (lvl + 1) c fun k => { k with deficit := k.deficit + quantum p kid }).onN lvl i
              fun p => { p with turn := setAt p.turn b true }
          match sub d c with
          | none => none
          | some (pick, e) =>
            let len : Int := pick.len + kid.ovhI
            if len ≤ (d.node (lvl + 1) c).deficit then
              let e := e.onN (lvl + 1) c fun k => (k.charge t len) |> fun k => { k with deficit := k.deficit - len, aged := 0 }
              let e := if elig e c then e else e.endTurn lvl i b c
              some ({ pick with path := (lvl + 1, c) :: pick.path }, e)
            else Dev.serveKids t elig sub lvl i n (d.endTurn lvl i b c)

/-- R159: the length charged for the frame at the head of a flow's list: after the edit (R157). -/
def Dev.chargedLen (d : Dev) (x : Ctx) (c len : Nat) : Nat :=
  if x.edit = 1 then (if outerTagged (d.frameHead c 14) then len - 4 else len)
  else if x.edit = 2 then len + 4
  else len

/-- The frame at the head of flow f taken off its on-chip list. -/
def Dev.takeFrame (d : Dev) (f : Nat) : Option (Pick × Dev) :=
  let x := d.peekCtx f
  match d.headFrame f x with
  | none => none
  | some cells =>
    let n := cells.length
    let last := cells.getLastD 0
    let y := { x with onchip := x.onchip - n, head := if x.onchip = n then 0 else d.next last, tail := if x.onchip = n then 0 else x.tail }
    let len := match d.openOf f with
      | some r => r.chg
      | none => descLen (d.desc x.head)
    some (⟨f, cells, d.chargedLen x x.head len, []⟩, d.putCtx f x y)

/-- The turns a decision can need: every child of the node is visited in each round, and no deficit needs 2,048 rounds. -/
def Dev.turnBound (d : Dev) (lvl i : Nat) : Nat := ((d.node lvl i).kids.foldl (fun n l => n + l.length) 1) * 2048

/-- The decision at node i in C-cycle t; the first argument is 3 - level. -/
def Dev.pickN (t : Nat) : Nat → Dev → Nat → Option (Pick × Dev)
  | 0, d, f => d.takeFrame f
  | n + 1, d, i => Dev.serveKids t (fun d k => d.eligibleN t n k) (Dev.pickN t n) (2 - n) i (d.turnBound (2 - n) i) d

/-- R176: a decision for port p in C-cycle t. -/
def Dev.pickPort (d : Dev) (t p : Nat) : Option (Pick × Dev) :=
  if d.eligible t 0 p then
    (Dev.pickN t 3 d p).map fun (pick, e) =>
      ({ pick with path := (0, p) :: pick.path }, e.onN 0 p fun n => n.charge t (pick.len + n.ovhI))
  else none

/-- R179: C-cycles from t on, before u, in which node i of a level ages: eligible, in a band other than 0 and not promoted; eligibility that
only tokens bring is found cycle by cycle. -/
def Dev.ageing (d : Dev) (lvl i t u : Nat) : Nat :=
  let n := d.node lvl i
  if lvl = 0 ∨ n.band = 0 ∨ n.promoted ∨ !d.backlog lvl i then 0
  else if d.eligible t lvl i then u - t
  else ((List.range (u - t)).filter fun k => d.eligible (t + k) lvl i).length

/-- R179: the fabric's C-cycle moves on to now; nodes that wait age, and one with no backlog starts anew. -/
def Dev.toCycle (d : Dev) (now : Nat) : Dev :=
  let t := d.fab.cyc
  d.onF fun x => { x with
    cyc := max t now,
    nodes := x.nodes.map fun e =>
      let (lvl, i) := (e.1 / 2 ^ 20, e.1 % 2 ^ 20)
      (e.1, if d.backlog lvl i then { e.2 with aged := e.2.aged + d.ageing lvl i t now } else { e.2 with aged := 0 }) }

/-- A frame on a flow's list is selected: the cut-through mark of a frame still arriving (R158, R159). -/
def Dev.markSelected (d : Dev) (f : Nat) : Dev :=
  d.onF fun x => { x with rx := x.rx.map fun e => (e.1, e.2.map fun r => if r.flow = f then { r with sel := true } else r) }

/-- R161: a link-word or descriptor-word parity error met in a flow's list: the list is emptied, the cells beyond unreachable. -/
def Dev.listError (d : Dev) (f : Nat) (isDesc : Bool) : Dev :=
  let d := match d.ctx f with
    | (some x, d) => (d.putCtx f x { x with onchip := 0, head := 0, tail := 0 }).cutRx f
    | (none, d) => d
  d.listParity isDesc

/-- R176: SCHEDULER_DECISION: port p selects a frame in C-cycle now. bad tells of a parity error in the descriptor word of the
frame (R161): it has not started, is dropped, and its first cell, the last that counts, is freed. -/
def Dev.schedDecision (d : Dev) (p now : Nat) (bad : Bool) : Dev :=
  let d := d.toCycle now
  match d.pickPort d.fab.cyc p with
  | none => d
  | some (pick, _) =>
    match d.ctx pick.flow with
    | (none, d) => d
    | (some _, d) =>
      if bad then ((d.dropFrame dcLINK_PARITY (some (d.flowRoot pick.flow))).listError pick.flow true).freeCells (pick.cells.take 1)
      else match d.pickPort d.fab.cyc p with
        | none => d
        | some (pick, e) =>
          let open_ := (d.openOf pick.flow).isSome
          let first := pick.cells.headD 0
          let e := if open_ then (e.markSelected pick.flow).setDesc first (putBit (e.desc first) 102 true) else e
          e.onF fun x => { x with egr := Tbl.set [] x.egr p (Tbl.get [] x.egr p ++
            [{ flow := pick.flow, first := first, cells := pick.cells.length, chg := pick.len, open_ := open_, ct := open_ }]) }

/-- R159: a frame charged ch at its selection ended at len: the difference is charged along its path. -/
def Dev.chargeDiff (d : Dev) (f : Nat) (diff : Int) : Dev :=
  let s := (d.node 3 f).parent
  let g := (d.node 2 s).parent
  let p := (d.node 1 g).parent
  let sub (n : Node) : Node := { (n.charge d.fab.cyc diff) with deficit := n.deficit - diff }
  (((d.onN 3 f sub).onN 2 s sub).onN 1 g sub).onN 0 p fun n => n.charge d.fab.cyc diff

/-- R179: AGE_PROMOTION of node i of a level: it has been eligible and unselected for its parent's AGE_T microseconds, 1,600 C-cycles each,
and joins band 0 for one turn. -/
def Dev.agePromotion (d : Dev) (lvl i now : Nat) : Dev :=
  let d := d.toCycle now
  let n := d.node lvl i
  let p := d.node (lvl - 1) n.parent
  if lvl = 0 ∨ n.band = 0 ∨ n.promoted ∨ p.age = 0 ∨ n.aged < p.age * 1600 ∨ !d.eligible d.fab.cyc lvl i then d
  else
    let d := d.onN (lvl - 1) n.parent fun p => (p.delKid n.band i).addKid 0 i
    d.onN lvl i fun n => { n with promoted := true }

/-- R180: SCHED_CHAMBER_BOUNDARY at parent i of a level. -/
def Dev.chamberBoundary (d : Dev) (lvl i : Nat) : Dev := if d.atBoundary lvl i then d.chamberApply lvl i else d

/-! Node records (R181). -/

/-- The largest index of a level. -/
def levelMax (lvl : Nat) : Nat := [255, 8191, 262143, 1048575].getD lvl 1048575

/-- An index clamped to its level's range. -/
def clampIndex (lvl i : Nat) : Nat := min i (levelMax lvl)

/-- QB3 to QB0 as SCHED_DATA3 holds them. -/
def qbWord (l : List Nat) : Nat := l.getD 0 0 + l.getD 1 0 * 2 ^ 8 + l.getD 2 0 * 2 ^ 16 + l.getD 3 0 * 2 ^ 24

/-- QB[0] to QB[3] of SCHED_DATA3. -/
def qbList (v : Nat) : List Nat := [getBits v 7 0, getBits v 15 8, getBits v 23 16, getBits v 31 24]

/-- R181: SCHED_DATA0 to SCHED_DATA6 of node i; staged asks for the staged values. -/
def Dev.nodeRecord (d : Dev) (lvl i : Nat) (staged : Bool) : List Nat :=
  let n := d.node lvl i
  let t := d.fab.cyc
  let up (v : Nat) : Nat := if lvl = 0 then 0 else v
  let down (v : Nat) : Nat := if lvl = 3 then 0 else v
  [b2n (d.nodeValid lvl i) * 2 ^ 31 + up ((if staged then n.sBand else n.band) * 2 ^ 29
      + (if staged then n.sWeight else n.weight) * 2 ^ 18 + n.parent),
   if lvl = 0 then min n.rate (d.portRateMax i) else n.rate,
   b2n n.shape * 2 ^ 31 + n.ovh * 2 ^ 24 + n.burst * 2 ^ 8,
   down (qbWord (if staged then n.sQb else n.qb)),
   down ((if staged then n.sAge else n.age) * 2 ^ 16),
   b2n (d.backlog lvl i) * 2 ^ 31 + b2n (d.eligible t lvl i) * 2 ^ 30 + b2n n.promoted * 2 ^ 29 + b2n n.pend.isSome * 2 ^ 28
     + ofS 25 n.deficit,
   ofS 32 (n.balance t / 2 ^ 32)]

/-- R181: DATA0 to DATA4 written to node i: the status, and the state. -/
def Dev.nodeWrite (d : Dev) (lvl i : Nat) (w : List Nat) : Nat × Dev :=
  let n := d.node lvl i
  let v0 := Row.SCHED_DATA0.merge 0 (w.getD 0 0)
  let v2 := Row.SCHED_DATA2.merge 0 (w.getD 2 0)
  let parent := if lvl = 0 then 0 else clampIndex (lvl - 1) (getBits v0 17 0)
  if lvl = 0 ∧ !d.nodeValid 0 i then (stNoNode, d)
  else if lvl ≠ 0 ∧ parent ≠ n.parent ∧ d.backlog lvl i then (stParentBusy, d)
  else if lvl ≠ 0 ∧ parent ≠ n.parent ∧ !d.nodeValid (lvl - 1) parent then (stNoNode, d)
  else
    let valid := if lvl = 1 ∨ lvl = 2 then bit v0 31 else n.valid
    let rate := Row.SCHED_DATA1.merge 0 (w.getD 1 0)
    let rate := if lvl = 0 then min rate (d.portRateMax i) else rate
    let d := if n.valid ∧ lvl ≠ 0 ∧ (!valid ∨ parent ≠ n.parent) then d.leaveParent lvl i else d
    let d := d.onN lvl i fun n =>
      let n := n.settle d.fab.cyc
      let n := { n with valid := valid, parent := parent, rate := rate, shape := bit v2 31, ovh := getBits v2 30 24, burst := getBits v2 23 8 }
      let n := { n with tokens := n.balance d.fab.cyc, promoted := n.promoted && valid && parent == (d.node lvl i).parent }
      let n := if lvl = 0 then n else { n with sBand := getBits v0 30 29, sWeight := getBits v0 28 18 }
      if lvl = 3 then n
      else { n with sQb := qbList (Row.SCHED_DATA3.merge 0 (w.getD 3 0)), sAge := getBits (Row.SCHED_DATA4.merge 0 (w.getD 4 0)) 31 16 }
    (stOK, if valid ∧ lvl ≠ 0 ∧ (!n.valid ∨ parent ≠ n.parent) then d.joinParent lvl i else d)

/-- R181: a write to SCHED_IND. -/
def Dev.schedInd (d : Dev) (v : Nat) : Dev :=
  let busy := d.on R.SCHED_IND_STATUS.BUSY
  let d := d.sw Row.SCHED_IND A.SCHED_IND v
  let d := d.set R.SCHED_IND.INDEX (clampIndex (d.get R.SCHED_IND.LEVEL) (d.get R.SCHED_IND.INDEX))
  if bit v 31 ∧ !busy then
    let data := [d.reg A.SCHED_DATA0, d.reg A.SCHED_DATA1, d.reg A.SCHED_DATA2, d.reg A.SCHED_DATA3, d.reg A.SCHED_DATA4]
    (d.set R.SCHED_IND_STATUS.BUSY 1).onF fun x => { x with ind := some (d.reg A.SCHED_IND, data) }
  else d

/-- R181: the access in progress completes. -/
def Dev.schedIndDone (d : Dev) : Dev :=
  match d.fab.ind with
  | none => d
  | some (v, data) =>
    let lvl := getBits v 21 20
    let i := getBits v 19 0
    let d := (d.onF fun x => { x with ind := none }).set R.SCHED_IND_STATUS.BUSY 0
    if bit v 30 then
      let (st, d) := d.nodeWrite lvl i data
      d.set R.SCHED_IND_STATUS.RESULT st
    else
      let l := d.nodeRecord lvl i (bit v 29)
      let regs := [A.SCHED_DATA0, A.SCHED_DATA1, A.SCHED_DATA2, A.SCHED_DATA3, A.SCHED_DATA4, A.SCHED_DATA5, A.SCHED_DATA6]
      ((regs.zip l).foldl (fun d e => d.setReg e.1 e.2) d).set R.SCHED_IND_STATUS.RESULT stOK

/-- R180: a write to SCHED_COMMIT. -/
def Dev.schedCommitReg (d : Dev) (v : Nat) : Dev :=
  let d := d.sw Row.SCHED_COMMIT A.SCHED_COMMIT v
  let lvl := d.get R.SCHED_COMMIT.LEVEL
  let d := d.set R.SCHED_COMMIT.INDEX (clampIndex lvl (d.get R.SCHED_COMMIT.INDEX))
  if bit v 31 ∧ d.nodeValid lvl (d.get R.SCHED_COMMIT.INDEX) then d.chamberCommit lvl (d.get R.SCHED_COMMIT.INDEX) else d

end Sys2Proof.Machine
end

