-- ==== Sys2Proof/Machine/Flow.lean ====
section
/-! DEFINITION. The per-packet pipeline and the configuration of the fabric (spec/06): ingress, punts, egress, flushes, reclaim,
spillway, gauge marks. -/

namespace Sys2Proof.Machine

/-! Punts (R165). -/

/-- The punt reasons. -/
def prMISS : Nat := 1
def prCONTROL : Nat := 2
def prPARSE_EXC : Nat := 3
def prPUNT_ALL : Nat := 4

/-- R165: flow cluster c can take punts. -/
def Dev.canPunt (d : Dev) (c : Nat) : Bool :=
  let p := clPolder c
  d.polder p != 2 && !(d.p p).inReset && !(d.p p).closed
    && (List.range 8).any fun k => (d.e (8 * c + k)).st == .running || (d.e (8 * c + k)).st == .waiting

/-- The cluster PUNT_MAP names for a hash. -/
def Dev.puntMap (d : Dev) (h : Nat) : Nat := getBits (d.reg (A.PUNT_MAP (h % 64 / 8))) (4 * (h % 8) + 2) (4 * (h % 8))

/-- The entries of ring c and its unread entries. -/
def Dev.ringSize (d : Dev) (c : Nat) : Nat := 2 ^ d.get (R.PUNT_CFG.SIZE_EXP c)
def Dev.ringFill (d : Dev) (c : Nat) : Nat := d.get (R.PUNT_STATUS.FILL c)

/-- R165: the ring that takes a punt of this hash, and whether it is a redirection. -/
def Dev.puntRing (d : Dev) (h : Nat) : Option (Nat × Bool) :=
  let c := d.puntMap h
  if d.canPunt c then some (c, false) else ((List.range 7).find? d.canPunt).map (·, true)

/-- The little-endian bytes of a number. -/
def le (v n : Nat) : List Byte := bytesLE v n

/-- R165: the word of an entry that says which flow was hit. -/
def hitWord : Option Nat → Nat
  | some f => 2 ^ 31 + f
  | none => 0

/-- R165: a punt ring entry. -/
def puntEntry (handle len reason port : Nat) (hit : Option Nat) (bucket ps sec : Nat) (stepped : Bool) (p : Parsed) (key l : List Byte) :
    List Byte :=
  le handle 4 ++ le len 2 ++ le reason 1 ++ le port 1
    ++ le (hitWord hit) 4 ++ le bucket 4
    ++ le (ps % 2 ^ 40 + sec % 2 ^ 24 * 2 ^ 40) 8
    ++ le (b2n stepped + 2 * b2n (p.l3 == 1 && p.badSum)) 1 ++ le p.l3Off 1 ++ le p.l4Off 1 ++ List.replicate 37 0
    ++ key ++ (List.range 128).map fun i => l.getD i 0

/-- R165: a frame in its cells punted: the entry written and the frame held; PUNT_FULL with no ring or no room. -/
def Dev.punt (d : Dev) (h : Nat) (cells : List Nat) (port reason : Nat) (hit : Option Nat) (entry : List Byte) : Dev :=
  let full (d : Dev) : Dev := (d.dropFrame dcPUNT_FULL (some port)).freeCells cells
  match d.puntRing h with
  | none => full d
  | some (c, re) =>
    let d := if re then (d.inc R.REDIRECT.COUNT).bump (Ctr.fab 2) else d
    if !d.on (R.PUNT_CFG.EN c) ∨ d.ringSize c ≤ d.ringFill c then full d
    else
      let (wr, rd) := Tbl.get (0, 0) d.fab.rings c
      let i := wr % d.ringSize c
      let d := d.hubWrite c (d.get (R.PUNT_BASE.OFS c) * 256 + 256 * i) ((leWords entry 32).map (·, false))
      let d := d.onF fun x => { x with rings := Tbl.set (0, 0) x.rings c ((i + 1) % d.ringSize c, rd)
                                       held := Tbl.set Held.none x.held (cells.headD 0) ⟨1, reason, hitWord hit⟩ }
      let d := d.set (R.PUNT_STATUS.FILL c) (d.ringFill c + 1)
      (d.bump (Ctr.fab 8)).bump (Ctr.port port 10)

/-! Ingress (R149 to R160). -/

/-- The number of cells of a frame of n bytes. -/
def cellsOf (n : Nat) : Nat := (n + 255) / 256

/-- R95, R104, R160: what is wrong with a frame that has ended on the port of slot p: too long, cut short by the port's exit from UP or touching
an uncorrectable codeword, a bad FCS. -/
def Dev.frameFault (d : Dev) (o p longest : Nat) (fr : RxFrame) : Option Nat :=
  if longest < fr.bytes.length then some dcGIANT
  else if fr.cut || (d.pt o p).badCw.any fun n => decide (fr.cw.1 ≤ n ∧ n ≤ fr.cw.2) then some dcCODEWORD
  else if !fcsOk fr.bytes then some dcFCS
  else none

/-- R152, R165: where a parsed frame goes: a punt reason, a flow, or a flow that drops it. -/
inductive Route where
  | punt (reason : Nat)
  | flow (f : Nat) (x : Ctx)
  | dropped
  deriving DecidableEq, Repr

/-- R151, R152, R157, R165: the route of a frame; control frames first, then parse exceptions, misses, and the flow's own
flags, DROP before PUNT_ALL (log 13). -/
def Dev.route (d : Dev) (port : Nat) (ctl : Bool) (p : Parsed) (hit : Option (Nat × Ctx)) : Route :=
  if ctl ∧ d.on (R.PORT_CFG.CTRL_PUNT port) then .punt prCONTROL
  else if (p.l3 = 1 ∧ p.badSum ∧ d.on (R.PORT_CFG.CSUM_CHK port)) ∨ p.chain then .punt prPARSE_EXC
  else match hit with
    | none => .punt prMISS
    | some (f, x) => if x.dropAll then .dropped else if x.puntAll then .punt prPUNT_ALL else .flow f x

/-- R152: the frame is control traffic. -/
def Dev.isControl (d : Dev) (p : Parsed) (l : List Byte) : Bool :=
  ((List.range 8).any fun i => d.on (R.CTRL_ETYPE.EN i) && d.get (R.CTRL_ETYPE.ETYPE i) == p.etype)
    || d.get R.CTRL_MATCH.CLASS &&& p.classes l != 0

/-- R159: a frame of this flow from this port may cut through to its egress port. -/
def Dev.qualifies (d : Dev) (port f : Nat) (x : Ctx) (p : Parsed) : Bool :=
  d.on (R.PORT_CFG.CT_IN port) && x.ctEn && x.state == fsActive && !x.spilled && x.onchip == 0 && p.l3 != 0
    && match d.pathPort f with
       | some q => decide (d.portWidth (q / 8) ≤ d.portWidth (port / 8))
       | none => false

/-- R149, R155: the flow a key hits, with its context. -/
def Dev.hitOf (d : Dev) (h : Nat × Nat) : Option (Nat × Ctx) × Dev :=
  match d.lookup h with
  | (none, d) => (none, d)
  | (some f, d) =>
    match d.ctx f with
    | (some x, d) => (some (f, x), d)
    | (none, d) => (none, d)

/-- The receive time of a frame: picoseconds and seconds as its descriptor holds them, and STEPPED (R116, R120). -/
def Dev.rxTime (d : Dev) (o : Nat) (fr : RxFrame) : Nat × Nat × Bool :=
  let g := 8 * o + fr.lane
  let (s, p) := d.frameStamp g fr.k false
  (s % 2 ^ 24, p, d.stepped g false)

/-- Cells of a class taken and written with bytes; none where the frame cannot obtain them all (R160). -/
def Dev.storeFrame (d : Dev) (cls : Nat) (l : List Byte) : Option (List Nat) × Dev :=
  let n := cellsOf l.length
  let (cells, d) := d.allocCells cls n
  if cells.length < n then (none, d.freeCells cells) else (some cells, d.fillCells cells l)

/-- R149 to R165: a frame that has ended, none of it stored before. -/
def Dev.ingressWhole (d : Dev) (o port : Nat) (fr : RxFrame) : Dev :=
  let l := fr.bytes.take (d.get (R.PORT_CTRL.MAX_FRAME o) + 1)
  let p := parseFrame fr.bytes
  let ctl := d.isControl p fr.bytes
  let d := if ctl then d.bump (Ctr.port port 15) else d
  let key := keyRecord fr.bytes p port (d.get (R.PORT_CFG.KEY_SEL port))
  let h := d.hashes key
  let (hit, d) := d.hitOf h
  let (sec, ps, stepped) := d.rxTime o fr
  let len := fr.bytes.length
  let drop (d : Dev) (cause : Nat) (q : Option Nat) : Dev := d.dropFrame cause (some (q.getD port))
  let finish (d : Dev) (cls : Nat) (f : List Nat → Dev → Dev) : Dev :=
    match d.storeFrame cls l with
    | (none, d) => drop d dcNO_CELL none
    | (some cells, d) =>
      match d.frameFault o (port % 8) (d.get (R.PORT_CTRL.MAX_FRAME o)) fr with
      | some cause => (drop d cause none).freeCells cells
      | none => f cells ((d.linkCells true true cells).setDesc (cells.headD 0) (descWord len cls port stepped false sec ps))
  match d.route port ctl p hit with
  | .dropped => drop d dcFLOW_DROP none
  | .punt reason =>
    finish d (if ctl || hit.any (·.2.ctrlClass) then clCtrl else clOrd) fun cells d =>
      d.punt h.1 cells port reason (hit.map (·.1))
        (puntEntry (cells.headD 0) len reason port (hit.map (·.1)) (bucketOf h) ps sec stepped p key fr.bytes)
  | .flow f x =>
    match d.fate f x (cellsOf l.length) with
    | .drop cause q => drop d cause q
    | fate => finish d (if fate != .spill && (x.ctrlClass || ctl) then clCtrl else clOrd) fun cells d =>
        d.joinFlow f x (fate == .spill) cells len

/-- R159: the first cell of a frame that has not ended: linked at once where the frame qualifies for cut-through; any other frame
waits for its end. -/
def Dev.ingressFirst (d : Dev) (o port : Nat) (fr : RxFrame) : Dev :=
  let p := parseFrame fr.bytes
  let ctl := d.isControl p fr.bytes
  let h := d.hashes (keyRecord fr.bytes p port (d.get (R.PORT_CFG.KEY_SEL port)))
  let (hit, e) := d.hitOf h
  let (sec, ps, stepped) := d.rxTime o fr
  match e.route port ctl p hit with
  | .flow f x =>
    if e.qualifies port f x p && e.fate f x 1 == .link && (fr.bytes.length == 256) then
      let cls := if x.ctrlClass || ctl then clCtrl else clOrd
      match e.storeFrame cls fr.bytes with
      | (none, _) => d
      | (some cells, e) =>
        let c := cells.headD 0
        let e := (e.linkCells true false cells).setDesc c (descWord 0 cls port stepped false sec ps)
        let (e, y) := e.linkTail x c c 1
        let e := e.putCtx f x y
        let r : RxFr := { flow := f, first := c, last := c, cells := 1, chg := max 64 (p.l3Off + p.l3Len + 4),
                           max := d.get (R.PORT_CTRL.MAX_FRAME o) }
        e.onF fun s => { s with rx := Tbl.set none s.rx port (some r) }
    else d
  | _ => d

/-- R110, R159, R160: a cut-through frame ends, judged by MAX_FRAME as it began: its other cells are written, and a difference to the length charged is charged. -/
def Dev.ingressRest (d : Dev) (o port : Nat) (r : RxFr) (fr : RxFrame) : Dev :=
  let l := (fr.bytes.take (r.max + 1)).drop 256
  if r.dead then d.ctFail port r 0
  else match d.storeFrame (descClass (d.desc r.first)) l with
  | (none, d) => d.ctFail port r dcNO_CELL
  | (some cells, d) =>
    match d.frameFault o (port % 8) r.max fr with
    | some cause => (d.ctFail port r cause).freeCells cells
    | none =>
      let len := fr.bytes.length
      let d := d.onF fun s => { s with rx := Tbl.set none s.rx port none }
      let nx := d.next r.last
      let d := d.linkCells false true cells
      let d := match cells with
        | [] => d.setLink r.last (putBit (d.link r.last) 22 true)
        | c :: _ => (d.setNext r.last c).setNext (cells.getLastD 0) nx
      let d := d.setDesc r.first (putBits (d.desc r.first) 127 114 len)
      let d := match d.ctx r.flow with
        | (none, d) => d
        | (some x, d) =>
          let y := x.counted len
          d.putCtx r.flow x (if r.sel then y else
            { y with onchip := y.onchip + cells.length, tail := if y.tail = r.last ∧ cells ≠ [] then cells.getLastD 0 else y.tail })
      if r.sel then
        let d := d.chargeDiff r.flow ((len : Int) - r.chg)
        d.onF fun s => { s with egr := s.egr.map fun e =>
          (e.1, e.2.map fun g => if g.first = r.first then { g with open_ := false, cells := r.cells + cells.length } else g) }
      else d

/-- FRAME_INGRESS: a frame reaches the fabric from the port of slot p of octet o. -/
def Dev.ingress (d : Dev) (o p : Nat) (fr : RxFrame) : Dev :=
  let port := 8 * o + p
  let d := match fr.badBank with
    | some b => d.truncateBank b
    | none => d
  if !d.nodeValid 0 port then d
  else if !fr.done then
    if fr.full ∨ d.fabMode = 0 ∨ d.fabMode = 2 ∨ (d.rxOpen port).isSome then d else d.ingressFirst o port fr
  else
    let d := (d.bump (Ctr.port port 0)).bump (Ctr.port port 1) fr.bytes.length
    match d.rxOpen port with
    | some r => d.ingressRest o port r fr
    | none =>
      if fr.full then d.dropFrame dcPIPE_FULL (some port)
      else if d.fabMode = 0 ∨ d.fabMode = 2 then d.dropFrame dcNOT_NORMAL (some port)
      else if fr.bytes.length < 64 then d.dropFrame dcRUNT (some port)
      else d.ingressWhole o port fr

/-- R156: LOOKUP_SERVE: a lookup of an octet's pipeline is served after wait C-cycles at its bank; each beyond the window of 8 stalls
the pipeline. -/
def Dev.lookupServe (d : Dev) (wait : Nat) : Dev :=
  if wait ≤ 8 then d else (d.inc R.FL_OVERRUN.COUNT (wait - 8)).bump (Ctr.fab 1) (wait - 8)

/-! Egress (R149, R157, R160, R161, R284). -/

/-- The bytes with a corrupted FCS (R160). -/
def stompFcs (l : List Byte) : List Byte := l ++ le ((fcsOf l) ^^^ 0xFFFFFFFF) 4

/-- R106: the blocks of a frame join those the transmit PCS of the port of slot p of octet o has to send, with the idle blocks of its gap. -/
def Dev.sendFrame (d : Dev) (o p : Nat) (l : List Byte) : Dev :=
  let (g, credit) := gapAfter l.length (d.get (R.PORT_CTRL.IPG o)) (d.pt o p).credit
  d.onPt o p fun x => { x with txq := x.txq ++ frameBlks l ++ gapBlks l.length g, credit }

/-- FRAME_EGRESS: the oldest frame selected for the port of slot p of octet o is delivered. lane and k give its transmit timestamp point;
bad is the first cell whose link (false) or descriptor (true) word fails parity. -/
def Dev.egress (d : Dev) (o p lane k : Nat) (bad : Option (Nat × Bool)) : Dev :=
  let port := 8 * o + p
  match Tbl.get [] d.fab.egr port with
  | [] => d
  | g :: rest =>
    if g.open_ then d
    else
      let d := d.onF fun s => { s with egr := Tbl.set [] s.egr port rest }
      let all := d.walk g.first g.cells
      let len := descLen (d.desc g.first)
      let cut := match bad with
        | some (i, _) => decide (i < g.cells)
        | none => false
      let cells := match bad with
        | some (i, _) => all.take (i + 1)
        | none => all
      let failed := all.any fun c => bit (d.link c) 21
      let stomp := failed || cut
      let total := if stomp then min (if failed then 256 * g.cells else len) (256 * cells.length) else len
      let (bytes, poison, d) := d.frameData cells total
      let (x, d) := d.ctx g.flow
      let x := x.getD {}
      let body := editFrame x.edit x.tci (if stomp then bytes else bytes.take (len - 4))
      let wrong := stomp || poison
      let out := if wrong then stompFcs body else body ++ le (fcsOf body) 4
      let d := (d.onF fun s => { s with sent := Tbl.set [] s.sent port out }).sendFrame o p out
      let d := (d.bump (Ctr.port port 2)).bump (Ctr.port port 3) out.length
      let d := if g.ct then d.bump (Ctr.port port 11) else d
      let d := if wrong then d.bump (Ctr.port port 12) else d
      let d := if stomp then (d.inc R.CT_STOMP.COUNT).bump (Ctr.fab 0) else d
      let d := if poison then (d.inc R.POISON_TX.COUNT).bump 7187 else d
      let d := if cut then d.listError g.flow (bad.any (·.2)) else d
      let d := if x.tsMark then
        let t := 8 * o + lane
        let (s, ps) := d.frameStamp t k true
        (d.bump (Ctr.port port 14)).pushTxts o { slot := p, stepped := d.stepped t true, tag := x.tag, sec := s % 2 ^ 24, ps := ps }
      else d
      d.freeCells cells

/-! Flushes (R177). -/

/-- The valid flows below port p. -/
def Dev.flowsBelow (d : Dev) (p : Nat) : List Nat :=
  ((d.fab.nodes.filter fun e => decide (3 * 2 ^ 20 ≤ e.1) && e.2.valid).map (·.1 - 3 * 2 ^ 20)).filter fun f =>
    decide ((d.node 1 (d.node 2 (d.node 3 f).parent).parent).parent = p)

/-- Every frame queued below port p dropped with a cause, on chip and in DRAM; bad is a flow and the place in its list whose link (false) or
descriptor (true) word fails parity. -/
def Dev.flushPort (d : Dev) (p cause : Nat) (bad : Option (Nat × Nat × Bool)) : Dev :=
  (d.flowsBelow p).foldl (fun d f =>
    match d.ctx f with
    | (none, d) => d
    | (some x, d) =>
      let (d, y) := d.dropOnchip f x cause ((bad.filter (·.1 == f)).map (·.2))
      let n := d.spillFrames (d.spillWalk y.sHead y.sCount)
      let d := (List.range n).foldl (fun d _ => d.dropFrame cause (some p)) d
      let l := d.spillWalk y.sHead y.sCount
      let d := d.onF fun s => { s with chunks := s.chunks.filter fun e => !(l.map (· / 16)).contains e.1 }
      let d := ((d.set R.SPILL_STATUS.CELLS (d.get R.SPILL_STATUS.CELLS - y.sCount)).syncChunks).emptyRegion
      d.putCtx f x ({ y with sCount := 0, sHead := 0, sTail := 0 }.setSpilled false)) d

/-- R177: PORT_FLUSH: a port not UP for FLUSH_MS, or one whose octet is under self-test at once. -/
def Dev.portFlush (d : Dev) (o p : Nat) (bad : Option (Nat × Nat × Bool)) : Dev :=
  let port := 8 * o + p
  if !d.nodeValid 0 port then d
  else if (d.p o).test then d.flushPort port dcOCTET_TEST bad
  else if d.portUp o p then d
  else (d.flushPort port dcPORT_FLUSH bad).onF fun s =>
    { s with flushed := if s.flushed.contains port then s.flushed else port :: s.flushed }

/-- R160, R177: an octet polder is reset: frames being received from it are dropped, or ended by egress where they have been selected, and
frames in egress fetch toward it are dropped. -/
def Dev.octetFrames (d : Dev) (o : Nat) : Dev :=
  (lanesOf o).foldl (fun d port =>
    let d := match d.rxOpen port with
      | some r => d.ctFail port r dcOCTET_RESET
      | none => d
    let l := Tbl.get [] d.fab.egr port
    let d := d.onF fun s => { s with egr := Tbl.set [] s.egr port [] }
    l.foldl (fun d g => ((d.dropFrame dcOCTET_RESET (some port)).freeCells (d.walk g.first g.cells)).killRx fun r =>
      r.sel && r.first == g.first) d) d

/-! Reclaim (R162). -/

/-- R162: a write to CTRL. -/
def Dev.flCtrl (d : Dev) (v : Nat) : Dev :=
  let d := d.sw Row.FL_CTRL A.FL_CTRL v
  if bit v 16 ∧ !d.on R.FL_STATUS.RECLAIM_BUSY then (d.set R.FL_STATUS.RECLAIM_BUSY 1).onF fun s => { s with young := [] }
  else d

/-- R162, R285: the sweep reads the context of every valid flow; a poisoned one retires its flow. -/
def Dev.sweepFlows (d : Dev) : Dev :=
  (d.fab.nodes.filter fun e => decide (3 * 2 ^ 20 ≤ e.1) && e.2.valid).foldl (fun d e => (d.ctx (e.1 - 3 * 2 ^ 20)).2) d

/-- R162: every cell the sweep reaches. -/
def Dev.reachable (d : Dev) : List Nat :=
  let flows := (d.fab.nodes.filter fun e => decide (3 * 2 ^ 20 ≤ e.1) && e.2.valid).flatMap fun e =>
    let x := d.peekCtx (e.1 - 3 * 2 ^ 20)
    d.walk x.head x.onchip
  flows ++ (d.fab.held.flatMap fun e => d.frameCells e.1 64) ++ (d.fab.stage.flatMap fun s => d.walk s.2.1 s.2.2)
    ++ (d.fab.egr.flatMap fun e => e.2.flatMap fun g => d.walk g.first g.cells)
    ++ (d.fab.rx.flatMap fun e => match e.2 with | some r => d.walk r.first r.cells | none => []) ++ d.fab.young

/-- The cells a truncated free list has lost. -/
def BankSt.lostCells (x : BankSt) : Nat := (match x.lostFrom with | some k => 4096 - k | none => 0) + x.lost.length

/-- A truncated free list made whole. -/
def BankSt.restore (x : BankSt) : BankSt :=
  { fresh := x.lostFrom.getD x.fresh, back := x.back ++ x.lost, lostFrom := none, lost := [] }

/-- R162: RECLAIM_DONE: every unmarked allocated cell, and every cell a free list has lost, is free again. -/
def Dev.reclaimDone (d : Dev) : Dev :=
  if !d.on R.FL_STATUS.RECLAIM_BUSY then d
  else
    let d := d.sweepFlows
    let keep := d.reachable
    let gone := (d.fab.cls.map (·.1)).filter fun c => !keep.contains c
    let lost := d.fab.banks.foldl (fun n e => n + e.2.lostCells) 0
    let d := d.onF fun s => { s with banks := s.banks.map fun e => (e.1, e.2.restore), young := [] }
    let d := (d.set R.POOL_FREE.CELLS (d.get R.POOL_FREE.CELLS + lost)).syncPool.freeCells gone
    let n := gone.length + lost
    let d := (d.set R.RECLAIM_RESULT.CELLS n).set R.FL_STATUS.RECLAIM_BUSY 0
    (d.bump (Ctr.fab 9) n).orF R.DEV_EVT.EVT 2

/-! Configuration. -/

/-- R155: a write to HASH_KEY word w. -/
def Dev.hashKeyWrite (d : Dev) (w v : Nat) : Dev :=
  if d.get R.FL_STATUS.FLOWS = 0 then d.setReg (A.HASH_KEY w) v else d.set R.FL_STATUS.KEY_LOCKED 1

/-- R170, R276: a write to SPILL_CTRL: SIZE_GIB only while the spillway is off and empty, EN only inside a region that admits it. -/
def Dev.spillCtrl (d : Dev) (v : Nat) : Dev :=
  let locked := d.on R.SPILL_CTRL.EN || d.get R.SPILL_STATUS.CELLS != 0
  let size := d.get R.SPILL_CTRL.SIZE_GIB
  let d := d.sw Row.SPILL_CTRL A.SPILL_CTRL v
  let d := if locked then d.set R.SPILL_CTRL.SIZE_GIB size else d
  let d := if d.on R.SPILL_CTRL.EN ∧ !d.admits useSpill (d.get R.SPILL_BASE.ADDR * 2 ^ 30) (d.get R.SPILL_CTRL.SIZE_GIB * 2 ^ 30) then
    (d.set R.SPILL_CTRL.EN 0).regionViol
  else d
  d.syncChunks

/-- R170: a write to SPILL_BASE. -/
def Dev.spillBase (d : Dev) (v : Nat) : Dev :=
  if d.on R.SPILL_CTRL.EN || d.get R.SPILL_STATUS.CELLS != 0 then d else d.sw Row.SPILL_BASE A.SPILL_BASE v

/-! The spillway (R170 to R174, R286). -/

/-- The DRAM byte address of a place of the region: the header takes the first 256 bytes of a chunk. -/
def Dev.spillAddr (d : Dev) (pos : Nat) : Nat :=
  d.get R.SPILL_BASE.ADDR * 2 ^ 30 + pos / 16 * 4096 + 256 + pos % 16 * 256

/-- The lowest chunk number from n on that a rising list of chunks in use leaves free. -/
def firstFree (n : Nat) : List Nat → Nat
  | [] => n
  | a :: t => if a = n then firstFree (n + 1) t else if a < n then firstFree n t else n

/-- A new chunk (the lowest free one, log 14) after the place pos of a flow's tail. -/
def Dev.newChunk (d : Dev) (prev : Option Nat) : Nat × Dev :=
  let n := firstFree 0 (d.fab.chunks.map (·.1))
  let d := d.setChunk n (some {})
  (n, match prev with
    | some q => (d.setChunk q ((d.chunk q).map fun c => { c with next := n })).syncChunks
    | none => d.syncChunks)

/-- R170: the header of chunk n written: its 32 words, of a layout the spec does not give (log 14). -/
def Dev.putHeader (d : Dev) (n : Nat) : Dev :=
  let a := (d.get R.SPILL_BASE.ADDR * 2 ^ 30 + n * 4096) / 8
  (List.range 32).foldl (fun d i => let (v, d) := d.draw; d.putWord .dram 0 0 (a + i) v.toNat) d

/-- R287: the i-th word that crosses a sluice arrives, poisoned if it was or if its parity check fails; slu lists the words that fail. -/
def Dev.sluice (d : Dev) (slu : List Nat) (i : Nat) (bad : Bool) : Bool × Dev :=
  if slu.contains i then (true, d.parityError 2) else (bad, d)

/-- The words of cell c, which begin with word n of a transfer, copied to the place pos of the region, poison with them. -/
def Dev.spillCell (d : Dev) (slu : List Nat) (n c pos : Nat) : Dev :=
  let a := d.spillAddr pos / 8
  (List.range 32).foldl (fun d i =>
    let (v, bad, d) := d.readWord .cell 0 0 (32 * c + i)
    let (bad, d) := d.sluice slu (n + i) bad
    d.putWordP .dram 0 0 (a + i) v bad) d

/-- Word g of the chunk map fails its parity check as it is read: its 64 chunks that are not in use stay marked in use (log 114). -/
def Dev.loseChunks (d : Dev) (g : Nat) : Dev :=
  if d.regionChunks ≤ 64 * g then d
  else
    let lost := (List.range (min 64 (d.regionChunks - 64 * g))).map (64 * g + ·)
    let take (l : Tbl (Option Chunk)) (i : Nat) : Tbl (Option Chunk) := if (Tbl.get none l i).isSome then l else Tbl.set none l i (some {})
    ((d.parityError 3).onF fun x => { x with chunks := lost.foldl take x.chunks }).syncChunks

/-- Some word of the header of chunk n is poisoned; its 32 words are read. -/
def Dev.readHeader (d : Dev) (n : Nat) : Bool × Dev :=
  let (_, p, d) := d.getWords .dram 0 0 ((d.get R.SPILL_BASE.ADDR * 2 ^ 30 + n * 4096) / 8) 32
  (p, d)

/-- R286: the header of a flow's tail chunk read before cells join it: while a word of it is poisoned, the cells from that chunk on are
discarded. The first argument bounds the chunks. -/
def Dev.goodTail (d : Dev) (x : Ctx) : Nat → Dev × Ctx
  | 0 => (d, x)
  | n + 1 =>
    if x.sCount = 0 then (d, x)
    else
      let (bad, d) := d.readHeader (x.sTail / 16)
      if bad then
        let inTail := if x.sHead / 16 = x.sTail / 16 then x.sCount else x.sTail % 16 + 1
        let (d, x) := d.discardFrom x (x.sCount - inTail)
        Dev.goodTail d x n
      else (d, x)

/-- R171: SPILLED clears once nothing of the flow is in DRAM or staged for it. -/
def Dev.spillEnd (d : Dev) (f : Nat) (x : Ctx) : Ctx :=
  if x.sCount = 0 ∧ !(d.fab.stage.any (·.1 == f)) then x.setSpilled false else x

/-- The chunks n cells need beyond the flow's tail chunk. -/
def Ctx.newChunks (x : Ctx) (n : Nat) : Nat := (n - (if x.sCount = 0 then 0 else 14 - x.sTail % 16) + 14) / 15

/-- The cells of a staged frame copied to the flow's tail chunk one after another, from word w of the transfer on. -/
def Dev.spillCells (d : Dev) (slu : List Nat) (w : Nat) (x : Ctx) : List Nat → Dev × Ctx
  | [] => (d, x)
  | c :: t =>
    let (pos, d) :=
      if x.sCount = 0 then (let (n, d) := d.newChunk none; (16 * n, d))
      else if x.sTail % 16 = 14 then (let (n, d) := d.newChunk (some (x.sTail / 16)); (16 * n, d))
      else (x.sTail + 1, d)
    let lk := d.link c
    let ch := (d.chunk (pos / 16)).getD {}
    let fl := b2n (bit lk 23) + 2 * b2n (bit lk 22) + 4 * b2n (bit lk 21)
    let ch := { ch with flags := Tbl.set 0 ch.flags (pos % 16) fl
                        descs := if bit lk 23 then Tbl.set 0 ch.descs (pos % 16) (d.desc c) else ch.descs }
    let d := ((d.setChunk (pos / 16) (some ch)).putHeader (pos / 16)).spillCell slu w c pos
    let x := { x with sHead := if x.sCount = 0 then pos else x.sHead, sTail := pos, sCount := x.sCount + 1 }
    Dev.spillCells d slu (w + 32) x t

/-- R171, R173, R286: SPILL_WRITE: the spill writer takes the oldest staged frame; with the DRAM polder not ACTIVE it waits, for the C-cycles
given. chm lists the words of the chunk map and slu the words of the transfer that fail parity; a frame for which no chunk is left then is
dropped (log 114). -/
def Dev.spillWrite (d : Dev) (wait : Nat) (chm slu : List Nat) : Dev :=
  match d.fab.stage with
  | [] => d
  | (f, c, n) :: rest =>
    if !d.dramActive then ((d.inc R.SPILL_WAIT.COUNT wait).bump (Ctr.fab 3) wait).demand
    else
      let d := d.onF fun s => { s with stage := rest }
      let cells := d.walk c n
      match d.ctx f with
      | (none, d) => d.freeCells cells
      | (some x, d) =>
        let d := chm.foldl (fun d g => d.loseChunks g) d
        let (d, y) := d.goodTail x x.sCount
        if d.get R.SPILL_CHUNKS.FREE < y.newChunks n then
          ((d.dropFrame dcSPILL_FULL (some (d.flowRoot f))).putCtx f x (d.spillEnd f y)).freeCells cells
        else
          let (d, y) := d.spillCells slu 0 y cells
          let d := d.set R.SPILL_STATUS.CELLS (d.get R.SPILL_STATUS.CELLS + n)
          (d.putCtx f x y).freeCells cells

/-- A place of the region, whose words begin with word n of a transfer, copied to cell c, poison with it; its link flags with RET, and its
descriptor. -/
def Dev.returnCell (d : Dev) (slu : List Nat) (n pos c : Nat) : Dev :=
  let a := d.spillAddr pos / 8
  let d := (List.range 32).foldl (fun d i =>
    let (v, bad, d) := d.readWord .dram 0 0 (a + i)
    let (bad, d) := d.sluice slu (n + i) bad
    d.putWordP .cell 0 0 (32 * c + i) v bad) d
  let fl := d.spillFlags pos
  let d := d.setLink c (b2n (bit fl 0) * 2 ^ 23 + b2n (bit fl 1) * 2 ^ 22 + b2n (bit fl 2) * 2 ^ 21 + 2 ^ 20)
  if bit fl 0 then d.setDesc c (putBits (Tbl.get 0 ((d.chunk (pos / 16)).getD {}).descs (pos % 16)) 113 112 clRet) else d

/-- R172, R286: SPILL_FETCH: one fetch for flow f, whose request is the oldest, of the remaining cells of its head chunk; slu lists the words
of the transfer that fail parity. A flow that needs more asks anew, after the others. -/
def Dev.spillFetch (d : Dev) (f : Nat) (slu : List Nat) : Dev :=
  if d.fab.fetchQ.head? != some f || !d.dramActive then d
  else match d.ctx f with
  | (none, d) => d.onF fun s => s.request f false
  | (some x, d) =>
    if !x.wants then d.onF fun s => s.request f false
    else
      let ch := x.sHead / 16
      let (bad, d) := d.readHeader ch
      if bad then
        let (d, y) := d.discardTail x
        (d.onF fun s => s.request f false).putCtx f x (d.spillEnd f y)
      else
        let n := min (15 - x.sHead % 16) x.sCount
        let (cells, e) := d.allocCells clRet n
        if cells.length < n then d
        else
          let places := d.spillWalk x.sHead n
          let e := ((places.zip cells).zip (List.range n)).foldl (fun e x => e.returnCell slu (32 * x.2) x.1.1 x.1.2) e
          let e := (cells.zip (cells.drop 1)).foldl (fun e cn => e.setNext cn.1 cn.2) e
          let (e, y) := e.linkTail x (cells.headD 0) (cells.getLastD 0) n
          let left := x.sCount - n
          let next := d.spillNext (x.sHead + n - 1)
          let gone := left = 0 ∨ (x.sHead + n - 1) % 16 = 14
          let e := if gone then (e.setChunk ch none).syncChunks else e
          let y := { y with sCount := left, sHead := if left = 0 then 0 else next, sTail := if left = 0 then 0 else y.sTail }
          let e := (e.set R.SPILL_STATUS.CELLS (e.get R.SPILL_STATUS.CELLS - n)).emptyRegion
          let e := e.bump (Ctr.fab 5) n
          (e.onF fun s => s.request f false).putCtx f x (e.spillEnd f y)

/-! Gauge marks (R183). -/

/-- R183: the quantity mark g watches. -/
def Dev.gaugeValue (d : Dev) (g : Nat) : Nat :=
  let i := d.get (R.GAUGE_SRC.INDEX g)
  match d.get (R.GAUGE_SRC.SRC g) with
  | 0 => d.get R.POOL_FREE.CELLS
  | 1 => d.shared.toNat
  | 2 => d.get R.BERM_USE_CTRL.CELLS
  | 3 => d.get R.BERM_USE_ENG.CELLS
  | 4 => d.get R.BERM_USE_RET.CELLS
  | 5 => (d.flowsBelow i).foldl (fun n f => n + (d.peekCtx f).onchip) 0
  | 6 => (d.peekCtx i).onchip
  | 7 => (d.peekCtx i).sCount
  | 8 => d.get R.SPILL_STATUS.CELLS
  | _ => d.ringFill (min i 6)

/-- R183: GAUGE_CROSSING: mark g at the end of a C-cycle. -/
def Dev.gaugeStep (d : Dev) (g : Nat) : Dev :=
  if !d.on (R.GAUGE_SRC.EN g) then d
  else
    let v := d.gaugeValue g
    let lvl := d.get (R.GAUGE_LVL.LEVEL g)
    if !d.on (R.GAUGE_STAT.ABOVE g) ∧ lvl ≤ v then
      ((d.set (R.GAUGE_STAT.ABOVE g) 1).set (R.GAUGE_STAT.CROSSED_UP g) 1).inc (R.GAUGE_STAT.COUNT g)
    else if d.on (R.GAUGE_STAT.ABOVE g) ∧ v + 2 ^ d.get (R.GAUGE_SRC.HYST_EXP g) < lvl then
      (d.set (R.GAUGE_STAT.ABOVE g) 0).set (R.GAUGE_STAT.CROSSED_DOWN g) 1
    else d

/-- R183: a write to GAUGE_SRC of mark g: enabling it sets ABOVE from the present value, without a crossing. -/
def Dev.gaugeSrc (d : Dev) (g v : Nat) : Dev :=
  let was := d.on (R.GAUGE_SRC.EN g)
  let d := d.sw Row.GAUGE_SRC (A.GAUGE_SRC g) v
  if !was ∧ d.on (R.GAUGE_SRC.EN g) then d.flag (R.GAUGE_STAT.ABOVE g) (decide (d.get (R.GAUGE_LVL.LEVEL g) ≤ d.gaugeValue g)) else d

end Sys2Proof.Machine
end

