-- ==== Sys2Proof/Machine/Reset.lean ====
section
/-! DEFINITION. What a reset of a polder does to its blocks (R188, R285, R372, R397, R398), for commanded resets and for the end of a
self-test. -/

namespace Sys2Proof.Machine

/-- The registers whose offset sel picks take their reset values. -/
def Dev.clearRegs (d : Dev) (sel : Nat → Bool) : Dev := d.resetRegs fun a => !sel a

/-- Entries of a table below lo or from hi on. -/
def Tbl.outside {α : Type} (t : Tbl α) (lo hi : Nat) : Tbl α := t.filter fun e => !decide (lo ≤ e.1 ∧ e.1 < hi)

/-- Bytes lo to hi - 1 of a store, and their check bits, cleared. -/
def Store.clear (s : Store) (lo hi : Nat) : Store :=
  { data := Tbl.outside s.data lo hi, synd := Tbl.outside s.synd (lo / 8) (hi / 8) }

/-- R52: lane g starts with the repair its fuses hold. -/
def Dev.fusedSpare (d : Dev) (v : Vault) (g : Nat) : Dev :=
  match Tbl.get 0 v.spares g with
  | 0 => d
  | s + 1 =>
    let d := ((d.set (R.SPARE_STATUS.MODE g) 3).set (R.SPARE_STATUS.SLICE g) s).set (R.SPARE_STATUS.FUSED g) 1
    let d := (d.set (R.SPARE_CTRL.REPAIR_EN g) 1).set (R.SPARE_CTRL.REPAIR_SLICE g) s
    (d.set (R.RX_STATUS.SCAN_UNAVAIL g) 1).onL g fun x => { x with rep := .inService, served := some s }

/-- R41: the coefficients of lane g take the values of the manufacturing calibration record; an entry without one its reset value. -/
def Dev.fusedCal (d : Dev) (v : Vault) (g : Nat) : Dev :=
  v.cals.foldl (fun d e => if e.1 / 65 = g then d.setReg (A.CAL_COEF g (e.1 % 65)) e.2.toNat else d) d

/-- R267: the calibration sets of the analog edge of octet o take the values of the record. -/
def Dev.fusedEdge (d : Dev) (v : Vault) (o : Nat) : Dev :=
  v.aeCals.foldl (fun d e => if e.1 / 4 = o then d.setReg (A.AE_CAL o (e.1 % 4)) e.2.toNat else d) d

/-- What fuses and record give lane g at a reset. -/
def Dev.fusedLane (d : Dev) (v : Vault) (g : Nat) : Dev := (d.fusedCal v g).fusedSpare v g

/-- The blocks of octet o after a reset of its polder. -/
def Dev.resetOctet (d : Dev) (v : Vault) (o : Nat) : Dev :=
  let d := d.octetFrames o
  let d := d.clearRegs fun a => decide (0x1000000 + 0x20000 * o ≤ a ∧ a < 0x1000000 + 0x20000 * (o + 1))
  let d := { d with
    lane := Tbl.outside d.lane (8 * o) (8 * o + 8), port := Tbl.outside d.port (8 * o) (8 * o + 8),
    oct := Tbl.del o d.oct, tl := Tbl.del o d.tl, weir := Tbl.del o d.weir,
    loop := Tbl.outside d.loop (20 * o) (20 * o + 20), chain := Tbl.outside d.chain (20 * o) (20 * o + 20) }
  let d := (lanesOf o).foldl (fun d g => d.fusedLane v g) (d.fusedEdge v o)
  ((d.clrF R.PAD_HOLD.OCT (2 ^ o)).startPeriod o).unsettle o

/-- The blocks of cluster c after a reset of its polder: engines HALTED, stores cleared (R188). -/
def Dev.resetCluster (d : Dev) (c : Nat) : Dev :=
  let d := d.clearRegs fun a => decide (0x200000 + 0x10000 * c ≤ a ∧ a < 0x200000 + 0x10000 * (c + 1))
  { d with
    eng := Tbl.outside d.eng (8 * c) (8 * c + 8), cl := Tbl.del c d.cl,
    locS := d.locS.clear (8 * c * 262144) ((8 * c + 8) * 262144),
    sharedS := d.sharedS.clear (c * 4194304) ((c + 1) * 4194304) }

/-- A fresh hash key is drawn (R155). -/
def Dev.drawHashKey (d : Dev) : Dev :=
  (List.range 8).foldl (fun d w => let (x, d) := d.draw; d.setReg (A.HASH_KEY w) (x.toNat % 2 ^ 32)) d

/-- The fabric after a reset of its four quadrants: every flow and cell is lost, those held for the host with them (R372). -/
def Dev.resetFabric (d : Dev) : Dev :=
  let d := d.clearRegs fun a => decide (0x100000 ≤ a ∧ a < 0x200000)
  let d := { d with fab := FabSt.reset, flowS := {}, cellS := {} }
  ((List.range 64).foldl (fun d q => d.onQ q fun x => { x with hold := [] }) d).drawHashKey

/-- The DRAM polder after a reset: the DRAM stays in self-refresh and must be retrained; KEEP_SR keeps its value (R10, R398). -/
def Dev.resetDram (d : Dev) : Dev :=
  let keep := d.get R.MEM_CFG.KEEP_SR
  let d := d.clearRegs fun a => decide (0x80000 ≤ a ∧ a < 0x100000 ∨ 0x800000 ≤ a ∧ a < 0xA00000)
  let d := (d.set R.MEM_CFG.KEEP_SR keep).set R.MEM_STATUS.SELF_REF 1
  (d.setReg A.PAD_HOLD_DRAM 0).onMem fun _ => { lapAt := d.up }

/-- The polders a reset or test of polder p holds: the four quadrants go together (R372, R398). -/
def resetGroup (p : Nat) : List Nat := if 32 ≤ p ∧ p < 36 then [32, 33, 34, 35] else [p]

/-- R398: requests a polder had taken up and not answered are answered TARGET_RESET (R218): their epoch is stale. -/
def Dev.dropTaken (d : Dev) (l : List Nat) : Dev :=
  let f (r : Req) : Req := if (polderGroup r.tgt).any l.contains && r.phase == .taken then { r with phase := .sent } else r
  { d with eng := d.eng.map fun e => (e.1, { e.2 with reqs := e.2.reqs.map f }) }

/-- The blocks of polder p reset, its epoch raised (R399); a quadrant takes all four with it. -/
def Dev.resetBlocks (d : Dev) (v : Vault) (p : Nat) : Dev :=
  let d :=
    if p < 32 then (d.resetOctet v p).bumpEpoch p
    else if p < 36 then [32, 33, 34, 35].foldl Dev.bumpEpoch d.resetFabric
    else if p < 47 then (d.resetCluster (p - 36)).bumpEpoch p
    else if p = 47 then d.resetDram.bumpEpoch p
    else d
  d.dropTaken (resetGroup p)

end Sys2Proof.Machine
end

