-- ==== Sys2Proof/Machine/Time.lean ====
section
/-! DEFINITION. The time base, PPS and time of day (spec/04, R111 to R114). -/

namespace Sys2Proof.Machine

/-- The picoseconds of a second. -/
def psPerSec : Nat := 10 ^ 12

/-- The time base set to a second and picosecond; frames stamped from earlier markers count as stepped (R120). -/
def Dev.putTime (d : Dev) (sec ps frac : Nat) : Dev :=
  { d with time := { d.time with sec := sec % 2 ^ 48, ps := ps, frac := frac, steps := d.time.steps + 1 } }

/-- R112: a signed number of picoseconds added, carried into the seconds. -/
def Dev.stepTime (d : Dev) (i : Int) : Dev :=
  let t : Int := d.time.sec * psPerSec + d.time.ps + i
  let n := (t % (2 ^ 48 * psPerSec)).toNat
  d.putTime (n / psPerSec) (n % psPerSec) d.time.frac

/-- The advance of one E-cycle in 2^-64 ps. -/
def Dev.timeAdvance (d : Dev) : Int := 500 * (2 ^ 40 + d.getI R.TB_RATE.RATE)

/-- R111: the advance of one E-cycle, 500 ps × (1 + TB_RATE × 2^-40). Where it is no whole number of 2^-24 ps the spec does not
say how the 24-bit fraction is rounded: down or up by a free value (log 2). -/
def Dev.advanceTime (d : Dev) : Dev :=
  let num := d.timeAdvance
  let q := (num.fdiv (2 ^ 16)).toNat
  let exact := num % 2 ^ 16 == 0
  let (up, d) : Nat × Dev :=
    if exact then (0, d)
    else
      let (f, d) := d.draw
      (b2n (f.getLsbD 0), d)
  let n := d.time.ps * 2 ^ 24 + d.time.frac + q + up
  let ps := n / 2 ^ 24
  { d with time := { d.time with frac := n % 2 ^ 24, ps := ps % psPerSec, sec := (d.time.sec + ps / psPerSec) % 2 ^ 48 } }

/-- R112: the committed value is loaded; a step that falls due with it is discarded. -/
def Dev.loadTime (d : Dev) : Dev :=
  match d.time.setVal, d.time.setDue with
  | some (sec, ps), true =>
    let d := if d.time.stepPend.isSome then d.set R.TB_STATUS.STEP_LOST 1 else d
    let d := (d.putTime sec ps 0).set R.TB_STATUS.SET_DONE 1
    let d := d.set R.TB_STATUS.SET_PEND 0
    { d with time := { d.time with setVal := none, setDue := false, stepPend := none } }
  | _, _ => d

/-- R111, R112: one E-cycle of the time base: the advance, then a load that is due or else a step. -/
def Dev.tickTime (d : Dev) : Dev :=
  let d := d.advanceTime
  if d.time.setDue then d.loadTime
  else match d.time.stepPend with
    | some i =>
      let d := d.stepTime i
      { d with time := { d.time with stepPend := none } }
    | none => d

/-- R112: a write to TB_STEP: the step falls due at the next E-cycle. -/
def Dev.tbStep (d : Dev) (v : Nat) : Dev :=
  { d with time := { d.time with stepPend := some (clampI (-2147483647) 2147483647 (toS 32 v)) } }

/-- R112: a write to TB_CTRL; SET commits the TB_SET chamber. -/
def Dev.tbCtrl (d : Dev) (v : Nat) : Dev :=
  let d := d.sw Row.TB_CTRL A.TB_CTRL v
  if bit v 0 then
    let sec := d.get R.TB_SET_SEC_HI.SEC * 2 ^ 32 + d.get R.TB_SET_SEC_LO.SEC
    let ps := d.get R.TB_SET_PS_HI.PS * 2 ^ 32 + d.get R.TB_SET_PS_LO.PS
    let atPps := d.on R.TB_CTRL.SET_AT_PPS
    let d := d.flag R.TB_STATUS.SET_PEND atPps
    { d with time := { d.time with setVal := some (sec, ps), setDue := !atPps } }
  else d

/-- R112: a write to a TB_SET picosecond register; the value is clamped to 999,999,999,999. -/
def Dev.tbSetPs (d : Dev) (hi : Bool) (v : Nat) : Dev :=
  let d := if hi then d.set R.TB_SET_PS_HI.PS v else d.set R.TB_SET_PS_LO.PS v
  if psPerSec ≤ d.get R.TB_SET_PS_HI.PS * 2 ^ 32 + d.get R.TB_SET_PS_LO.PS then
    (d.set R.TB_SET_PS_HI.PS ((psPerSec - 1) / 2 ^ 32)).set R.TB_SET_PS_LO.PS ((psPerSec - 1) % 2 ^ 32)
  else d

/-- R113: an edge of PPS_IN (fall: a falling one), off ps into the E-cycle; the active edge latches the time base with 1 ps resolution, raises the time source and makes a
value committed for it due. -/
def Dev.ppsIn (d : Dev) (fall : Bool) (off : Nat) : Dev :=
  if d.on R.PPS_CTRL.IN_FALL = fall then
    let ps := d.time.ps + off
    let (sec, ps) := (d.time.sec + ps / psPerSec, ps % psPerSec)
    let d := (d.setReg A.PPS_IN_TS_0 (sec % 2 ^ 32)).setReg A.PPS_IN_TS_1 (sec / 2 ^ 32 % 65536)
    let d := (d.setReg A.PPS_IN_TS_2 (ps % 2 ^ 32)).setReg A.PPS_IN_TS_3 (ps / 2 ^ 32 % 256)
    let d := d.orF R.DEV_EVT.EVT 16
    if d.on R.TB_STATUS.SET_PEND then { d with time := { d.time with setDue := true } } else d
  else d

/-- The time base less PPS_OUT_OFS, in picoseconds. -/
def Dev.ppsTime (d : Dev) : Int := d.time.sec * psPerSec + d.time.ps - d.getI R.PPS_OUT_OFS.OFS

/-- R113: the time base has passed a whole second plus PPS_OUT_OFS within the last E-cycle. -/
def Dev.ppsDue (d : Dev) : Bool :=
  decide ((d.ppsTime % psPerSec * 2 ^ 24 + d.time.frac) * 2 ^ 16 < d.timeAdvance + 2 ^ 16)

/-- R113: PPS_OUT rises as the time base passes a whole second plus PPS_OUT_OFS; the edge stands for that second. -/
def Dev.ppsRise (d : Dev) : Dev :=
  if d.on R.PPS_CTRL.OUT_EN ∧ d.ppsDue then
    let t := d.ppsTime
    { d with time := { d.time with ppsOut := true, ppsSec := some (t.fdiv psPerSec).toNat } }
  else d

/-- R113: a write to PPS_CTRL; PPS_OUT is low while OUT_EN = 0. -/
def Dev.ppsCtrl (d : Dev) (v : Nat) : Dev :=
  let d := d.sw Row.PPS_CTRL A.PPS_CTRL v
  if d.on R.PPS_CTRL.OUT_EN then d else { d with time := { d.time with ppsOut := false } }

/-- The CRC-8 of bytes (R114). -/
def crc8Bytes (l : List Byte) : Nat := crc8 (beNat l) (8 * l.length)

/-- R114: the message that describes a PPS_OUT edge at second sec. -/
def Dev.todMessage (d : Dev) (sec : Nat) : List Byte :=
  let l := [0xA5, 0x01] ++ bytesLE sec 6 ++ bytesLE (d.get R.TOD_CTRL.UTC_OFS) 2
    ++ bytesLE (d.get R.TB_STATUS.SET_DONE + 2 * d.get R.TOD_CTRL.LEAP) 1
  l ++ bytesLE (crc8Bytes l) 1

/-- R114: 10 ms after a PPS_OUT edge the message is sent. -/
def Dev.todSend (d : Dev) : Dev :=
  match d.time.ppsSec, d.on R.TOD_CTRL.OUT_EN with
  | some sec, true => { d with time := { d.time with todOut := d.todMessage sec } }
  | _, _ => d

/-- R114: a message of TOD_IN; soon: it ended within 900 ms after the last PPS_IN edge. -/
def Dev.todReceive (d : Dev) (l : List Byte) (soon : Bool) : Dev :=
  if l.length = 12 ∧ l.take 2 = [0xA5, 0x01] ∧ crc8Bytes (l.take 11) = (l.getD 11 0).toNat then
    let d := (d.setReg A.TOD_RX_0 (leNat ((l.drop 2).take 4))).setReg A.TOD_RX_1
      (leNat ((l.drop 8).take 2) * 65536 + leNat ((l.drop 6).take 2))
    let d := (d.flag R.TOD_RX_2.ASSOC soon).set R.TOD_RX_2.FLAGS (l.getD 10 0).toNat
    d.orF R.DEV_EVT.EVT 32
  else d.inc R.TOD_RX_2.BAD

/-- R114: a read of TB_SEC_LO copies the time base into the four registers: the value read, and the state. -/
def Dev.latchTime (d : Dev) : Nat × Dev :=
  let t := d.time
  let d := (d.setReg A.TB_SEC_LO (t.sec % 2 ^ 32)).setReg A.TB_SEC_HI (t.sec / 2 ^ 32 % 65536)
  let d := (d.setReg A.TB_PS_LO (t.ps % 2 ^ 32)).setReg A.TB_PS_HI (t.ps / 2 ^ 32 % 256)
  (t.sec % 2 ^ 32, d)

/-! The commands. -/

def execTimeStep (src : Src) (val : BitVec 32) (s : State) : Host.Outcome State Fault Refusal :=
  s.on fun d => d.gate src A.TB_STEP fun d => d.tbStep val.toNat

/-- R112: a write of TB_CTRL with SET = 1. -/
def execTimeSetCommit (src : Src) (val : BitVec 32) (s : State) : Host.Outcome State Fault Refusal :=
  s.on fun d => d.gate src A.TB_CTRL fun d => d.tbCtrl (putBit val.toNat 0 true)

def execTimeSetLoad (s : State) : Host.Outcome State Fault Refusal := s.on Dev.loadTime

def execPpsInEdge (x : With Bool (Fin 501)) (s : State) : Host.Outcome State Fault Refusal := s.on fun d => d.ppsIn x.obj x.inp

def execPpsOutPulse (s : State) : Host.Outcome State Fault Refusal := s.on Dev.ppsRise

/-- R113: PPS_OUT falls. -/
def execPpsOutEnd (s : State) : Host.Outcome State Fault Refusal :=
  s.on fun d => { d with time := { d.time with ppsOut := false } }

def execTodSend (s : State) : Host.Outcome State Fault Refusal := s.on Dev.todSend

def execTodReceive (msg : List (BitVec 8)) (soon : Bool) (s : State) : Host.Outcome State Fault Refusal :=
  s.on fun d => d.todReceive msg soon

def execTimeReadLatch (src : Src) (s : State) : Host.Outcome State Fault Refusal :=
  s.on fun d => d.gateRead src A.TB_SEC_LO Dev.latchTime

end Sys2Proof.Machine
end

