-- ==== Sys2Proof/Machine/Tideline.lean ====
section
/-! DEFINITION. The Tideline modem of an octet (spec/05): running and stopping, reception, the transmit order, the mask monitor. -/

namespace Sys2Proof.Machine

/-! Running (R123). -/

/-- TL_STATUS.RX_STATE: 0 OFF, 1 SEARCH, 2 UNCONF, 3 CONF. -/
def Dev.tlRx (d : Dev) (o : Nat) : Nat := d.get (R.TL_STATUS.RX_STATE o)

/-- Tideline counter k of octet o (R147). -/
def Dev.tlCount (d : Dev) (o k : Nat) (n : Nat := 1) : Dev := d.inc (R.TLC.COUNT o k) n

/-- TX_STATE follows the frame being sent and MUTED. -/
def Dev.tlTxState (d : Dev) (o : Nat) : Dev :=
  d.set (R.TL_STATUS.TX_STATE o) (match (d.t o).cur with
    | some (.gasp _) => 2
    | some _ => 1
    | none => if d.on (R.TL_STATUS.MUTED o) then 3 else 0)

/-- The receive queue of octet o replaced; RX_FILL follows. -/
def Dev.setRxq (d : Dev) (o : Nat) (l : List TlRx) : Dev :=
  (d.onT o fun x => { x with rxq := l }).set (R.TL_STATUS.RX_FILL o) l.length

/-- R141: a descriptor is queued, or the frame is lost to a full queue. -/
def Dev.queueRx (d : Dev) (o status : Nat) : Dev :=
  let x := d.t o
  if 4 ≤ x.rxq.length then d.tlCount o 10
  else
    let bits := if status = 0 then x.blocks.foldl (fun v b => v * 2 ^ 256 + b.1.toNat) 0 else 0
    let oks := (List.range x.blocks.length).foldl (fun v i => v + b2n ((x.blocks.getD i (0, false)).2) * 2 ^ i) 0
    (d.setRxq o (x.rxq ++ [⟨status, x.header, d.get (R.TL_STATUS.CUR_METRIC o), oks, bits⟩])).notice o 2 1 0

/-- R139: reception returns to SEARCH; it is ready some chips later. -/
def Dev.toSearch (d : Dev) (o : Nat) : Dev :=
  ((d.set (R.TL_STATUS.RX_STATE o) 1).set (R.TL_STATUS.AGC_FROZEN o) 0).onT o fun x =>
    { x with wait := true, held := none, header := 0, blocks := [], agcAt := none, delim := false }

/-- R139: reception turns to a detected signal. From SEARCH the AGC freezes at its gain; on a preemption it re-acquires and has frozen again
8 chip times, 15,625 E-cycles, later (R130). -/
def Dev.toUnconf (d : Dev) (o sf metric gain : Nat) : Dev :=
  let preempts := decide (2 ≤ d.get (R.TL_STATUS.RX_STATE o))
  let d := (d.set (R.TL_STATUS.RX_STATE o) 2).flag (R.TL_STATUS.AGC_FROZEN o) !preempts
  ((d.set (R.TL_STATUS.CUR_SF o) sf).set (R.TL_STATUS.CUR_METRIC o) metric).onT o fun x =>
    { x with wait := false, held := none, header := 0, blocks := [], delim := false, gain := gain,
             agcAt := if preempts then some (d.up + 15625) else none }

/-- R130: the AGC is frozen: while a reception lasts, but for a re-acquisition in progress. -/
def Dev.agcFrozen (d : Dev) (o : Nat) : Bool := d.on (R.TL_STATUS.AGC_FROZEN o) || (d.t o).agcAt.any (· ≤ d.up)

/-- R130: delimiter and header come more than 8 chip times after a preemption: the AGC stands frozen. -/
def Dev.agcSettle (d : Dev) (o : Nat) : Dev :=
  if (d.t o).agcAt.isSome then (d.set (R.TL_STATUS.AGC_FROZEN o) 1).onT o fun x => { x with agcAt := none } else d

/-! Transmission (R143 to R145). -/

/-- R145: the frame in progress is cut short: a software frame leaves the queue, a training message becomes due again. -/
def Dev.cutFrame (d : Dev) (o : Nat) : Dev :=
  match (d.t o).cur with
  | none => d
  | some c =>
    let d := (d.tlCount o 12).onT o fun x => { x with cur := none, txq := if c = .soft then x.txq.tail else x.txq }
    let d := d.set (R.TL_STATUS.TX_FILL o) (d.t o).txq.length
    let d := match c with | .train _ => d.trnMsg o | _ => d
    d.tlTxState o

/-- R144: a gasp with a REASON is started on octet o, if its modem runs and no gasp is under way. -/
def Dev.gaspStart (d : Dev) (o reason : Nat) : Dev :=
  let x := d.t o
  let busy := x.gaspReq.isSome || match x.cur with | some (.gasp _) => true | _ => false
  if d.tlRuns o ∧ !busy then (d.cutFrame o).onT o fun x => { x with gaspReq := some reason } else d

/-- R144: a device-wide gasp. -/
def Dev.gaspAll (d : Dev) (reason : Nat) : Dev :=
  (List.range 32).foldl (fun d o => d.live o fun d => d.gaspStart o reason) d

/-- R139, R145: the modem stops: a reception ends ABANDONED, the frame in progress is cut. -/
def Dev.tlStop (d : Dev) (o : Nat) : Dev :=
  let d := if d.tlRx o = 3 then (d.tlCount o 3).queueRx o 3 else if d.tlRx o = 2 then d.tlCount o 3 else d
  let d := ((d.toSearch o).set (R.TL_STATUS.RX_STATE o) 0).onT o fun x => { x with wait := false }
  ((d.cutFrame o).onT o fun x => { x with gaspReq := none }).tlTxState o

/-- R139: the modem runs (again): OFF to SEARCH. -/
def Dev.tlStart (d : Dev) (o : Nat) : Dev :=
  if d.tlRuns o ∧ d.tlRx o = 0 then
    ((d.toSearch o).onT o fun x => { x with wait := false }).tlTxState o
  else d

/-- R123, R128, R144: a write to TL_CTRL: EN and LANE, then MUTE_CLR, then GASP. -/
def Dev.tlCtrl (d : Dev) (o v : Nat) : Dev :=
  let was := d.on (R.TL_CTRL.EN o)
  let lane := d.get (R.TL_CTRL.LANE o)
  let d := d.sw Row.TL_CTRL (A.TL_CTRL o) v
  let d := if was ∧ (!d.on (R.TL_CTRL.EN o) ∨ d.get (R.TL_CTRL.LANE o) ≠ lane) then d.tlStop o else d
  let d := d.tlStart o
  let d := if bit v 6 then (d.set (R.TL_STATUS.MUTED o) 0).tlTxState o else d
  if bit v 7 then d.gaspStart o 1 else d

/-- The stop conditions of the selected lane are followed: the modem stops, or runs again (R123). -/
def Dev.tlFollow (d : Dev) (o : Nat) : Dev :=
  if d.tlRuns o then d.tlStart o else if d.tlRx o ≠ 0 then d.tlStop o else d

/-- R143: message types a software frame may not carry and a receiver discards. -/
def typeReserved (t : Nat) : Bool := t == 0 || decide (5 ≤ t ∧ t < 0x80)

/-- The payload TX_BUF holds: len blocks, first bit most significant. -/
def Dev.txBuf (d : Dev) (o blocks : Nat) : Nat :=
  (List.range (8 * blocks)).foldl (fun v w => v * 2 ^ 32 + d.reg (A.TX_BUF o w)) 0

/-- R145: a write to TX_DESC; with GO it queues a frame or is ignored with BUSY or TYPE_REJ. -/
def Dev.txDesc (d : Dev) (o v : Nat) : Dev :=
  if bit v 31 then
    let full := decide (2 ≤ (d.t o).txq.length)
    let ty := d.reg (A.TX_BUF o 0) / 2 ^ 24
    let rej := ty == 1 || typeReserved ty
    if full || rej then
      let d := if full then d.set (R.TX_DESC.BUSY o) 1 else d
      if rej then d.set (R.TX_DESC.TYPE_REJ o) 1 else d
    else
      let d := d.sw Row.TX_DESC (A.TX_DESC o) v
      let f : TlTx := ⟨d.reg (A.TX_DESC o), d.txBuf o (d.get (R.TX_DESC.LEN o) + 1)⟩
      let d := d.onT o fun x => { x with txq := x.txq ++ [f] }
      d.set (R.TL_STATUS.TX_FILL o) (d.t o).txq.length
  else d.sw Row.TX_DESC (A.TX_DESC o) v

/-- R135: a header with its CRC, first bit most significant. -/
def headerWord (sf mod len gasp addr seq : Nat) : Nat :=
  let h := sf * 2 ^ 21 + mod * 2 ^ 20 + len * 2 ^ 17 + gasp * 2 ^ 16 + addr * 16 + seq
  h * 256 + crc8 h 24

/-- R127, R145: the transmitter starts the next frame by precedence, capturing its settings. -/
def Dev.txStart (d : Dev) (o : Nat) : Dev :=
  let x := d.t o
  if !d.tlRuns o ∨ x.cur.isSome then d
  else
    let depth := d.get (R.TL_TX_CTRL.DEPTH o)
    let fir := (List.range 17).map fun i => d.get (R.TX_FIR.COEF o i)
    let go (d : Dev) (c : TlCur) (h : Nat) (f : List Nat) : Dev :=
      (d.onT o fun x => { x with cur := some c, header_tx := h, depth := depth, fir := f }).tlTxState o
    match x.gaspReq with
    | some r =>
      (go d (.gasp r) (headerWord (d.get (R.TL_TX_CTRL.GASP_SF o)) 0 0 1 (d.get (R.TL_ADDR.ADDR o)) r) txFirReset).onT o
        fun x => { x with gaspReq := none }
    | none =>
      if d.on (R.TL_STATUS.MUTED o) then d
      else if (d.oc o).trnDue then
        let m := d.trnMessage o
        let h := headerWord (d.get (R.TL_TX_CTRL.TRN_SF o)) (d.get (R.TL_TX_CTRL.TRN_MOD o)) 0 0 0xFFF x.trnCount
        (go (d.onO o fun x => { x with trnDue := false }) (.train m) h fir).onT o fun x =>
          { x with trnCount := (x.trnCount + 1) % 16 }
      else match x.txq with
        | f :: _ =>
          go d .soft (headerWord (f.desc % 8) (getBits f.desc 4 4) (getBits f.desc 7 5) 0 (getBits f.desc 19 8) (getBits f.desc 23 20)) fir
        | [] => d

/-- R145: the last chip of the frame has been produced. -/
def Dev.txEnd (d : Dev) (o : Nat) : Dev :=
  match (d.t o).cur with
  | none => d
  | some c =>
    let d := ((d.tlCount o 11).bump (Ctr.oct o 3)).onT o fun x =>
      { x with cur := none, txq := if c = .soft then x.txq.tail else x.txq }
    let d := (d.set (R.TL_STATUS.TX_FILL o) (d.t o).txq.length).tlTxState o
    match c with
    | .train m => d.trnSent o m
    | _ => d

/-- R133: the symbols of the frame being sent; a software frame is the oldest queued. -/
def TlSt.symbols (x : TlSt) : List (Int × Int) :=
  match x.cur with
  | none => []
  | some (.gasp _) => frameSymbols x.header_tx 0 0
  | some (.train m) => frameSymbols x.header_tx m.toNat 1
  | some .soft => frameSymbols x.header_tx ((x.txq.head?.map (·.bits)).getD 0) (getBits x.header_tx 27 25 + 1)

/-- R126: the subcarrier value m of sample k of the frame octet o sends; 0 with none. -/
def Dev.tlM (d : Dev) (o k : Nat) : Rat :=
  let x := d.t o
  if x.cur.isSome then tlSub (getBits x.header_tx 31 29) x.depth x.fir x.symbols k else 0

/-- R128: a block of the monitor ends with the powers of its 16 bins in 1/4 dB. -/
def Dev.maskBlock (d : Dev) (o : Nat) (pwr : List Int) : Dev :=
  if !d.on (R.MASK_CTRL.EN o) then d
  else
    let p (b : Nat) : Int := clampI (-128) 127 (pwr.getD b (-128))
    let d := (List.range 16).foldl (fun d b => d.setI (R.MASK_PWR.PWR o b) (p b)) d
    let gasp := match (d.t o).cur with | some (.gasp _) => true | _ => false
    match (List.range 16).find? fun b => decide (d.getI (R.MASK_LIM.LIM o b) < p b) with
    | some b =>
      if gasp then d
      else
        let d := (d.set (R.TL_STATUS.MUTED o) 1).set (R.MASK_CTRL.VIOL_BIN o) b
        (((d.cutFrame o).tlCount o 13).tlTxState o).notice o 2 3 b
    | none => d

/-! Reception (R131 to R142). -/

/-- R131: the detection threshold of a spreading factor, in 1/4 dB. -/
def Dev.detThr (d : Dev) (o sf : Nat) : Int :=
  if sf = 4 then d.getI (R.DET_THR_HI.SF256 o)
  else toS 8 (getBits (d.reg (A.DET_THR_LO o)) (8 * sf + 7) (8 * sf))

/-- R132: the better of two detections: the higher metric, a tie to the lower SF. -/
def betterDetect (a b : Nat × Int) : Nat × Int :=
  if a.2 < b.2 ∨ (a.2 = b.2 ∧ b.1 < a.1) then b else a

/-- R131, R132, R139, R140: correlators detect at a symbol end, where the last four symbol decisions agree in sign and the metric reaches
its threshold; cur is the current reception's metric over the same window, gain that of the AGC while it tracks. -/
def Dev.detection (d : Dev) (o : Nat) (dets : List TlDetect) (cur : Int) (gain : Nat) : Dev :=
  let s := d.tlRx o
  let cur := clampI (-128) 127 cur
  let gain := if d.agcFrozen o then (d.t o).gain else gain
  let l := dets.filter fun t =>
    agree (detSymbols t txFirReset gain) && decide (d.detThr o t.sf ≤ clampI (-128) 127 t.metric) && !(decide (2 ≤ s) && t.near && t.sf.val == d.get (R.TL_STATUS.CUR_SF o))
  match l.map fun t => (t.sf.val, clampI (-128) 127 t.metric) with
  | [] => d
  | a :: r =>
    if s = 0 then d
    else
      let best := r.foldl betterDetect a
      let d := if r.length = 0 then d else d.tlCount o 6 r.length
      let m := ofS 8 best.2
      if s = 1 then
        if (d.t o).wait then
          match (d.t o).held with
          | none => d.onT o fun x => { x with held := some (best.1, m) }
          | some (hs, hm) =>
            let k := betterDetect (hs, toS 8 hm) best
            (d.tlCount o 6).onT o fun x => { x with held := some (k.1, ofS 8 k.2) }
        else d.toUnconf o best.1 m gain
      else if s = 2 then
        if 0 < best.2 - cur then (d.tlCount o 5).toUnconf o best.1 m gain else d.tlCount o 6
      else if 4 * (d.get (R.TL_CTRL.CAPTURE o) : Int) < best.2 - cur then
        ((d.tlCount o 2).queueRx o 2).toUnconf o best.1 m gain
      else d.tlCount o 6

/-- R139: the receiver is ready in SEARCH and acts on a held detection. -/
def Dev.searchReady (d : Dev) (o : Nat) : Dev :=
  if d.tlRx o = 1 ∧ (d.t o).wait then
    match (d.t o).held with
    | some (sf, m) => d.toUnconf o sf m (d.t o).gain
    | none => d.onT o fun x => { x with wait := false }
  else d

/-- A false start (R139). -/
def Dev.falseStart (d : Dev) (o : Nat) : Dev := ((d.tlCount o 4).bump (Ctr.oct o 2)).toSearch o

/-- R134, R139: the eight sign decisions at the delimiter, a 1 for -1, first most significant: with 7 that agree it is matched, and the header
follows; with fewer the reception was a false start. -/
def Dev.delimiter (d : Dev) (o : Nat) (signs : BitVec 8) : Dev :=
  if d.tlRx o ≠ 2 then d
  else if 1 < popCount (signs.toNat ^^^ 0xB2) 8 then (d.agcSettle o).falseStart o
  else (d.agcSettle o).onT o fun x => { x with delim := true }

/-- R135, R139, R142, R144: the decision on the header after a matched delimiter, first bit most significant. -/
def Dev.headerDecision (d : Dev) (o : Nat) (h : BitVec 32) : Dev :=
  if d.tlRx o ≠ 2 ∨ !(d.t o).delim then d
  else
    let v := h.toNat
    let addr := getBits v 23 12
    if crc8 (v / 256) 24 ≠ v % 256 ∨ getBits v 31 29 ≠ d.get (R.TL_STATUS.CUR_SF o) then d.falseStart o
    else if bit v 24 then
      let d := ((d.set (R.GASP_RX.VALID o) 1).set (R.GASP_RX.REASON o) (getBits v 11 8)).set (R.GASP_RX.SF o) (getBits v 31 29)
      let d := ((d.set (R.GASP_RX.ADDR o) addr).inc (R.GASP_RX.COUNT o)).bump (Ctr.oct o 4)
      (d.notice o 2 2 0).toSearch o
    else if addr ≠ d.get (R.TL_ADDR.ADDR o) ∧ addr ≠ 0xFFF ∧ !d.on (R.TL_CTRL.ACCEPT_ALL o) then (d.tlCount o 7).toSearch o
    else (d.set (R.TL_STATUS.RX_STATE o) 3).onT o fun x => { x with header := v, blocks := [] }

/-- R137: the decoder releases a block of 512 channel values as decided after 12 iterations. -/
def Dev.ldpcRelease (d : Dev) (o : Nat) (ch : List Int) : Dev :=
  if d.tlRx o = 3 ∧ (d.t o).blocks.length < getBits (d.t o).header 27 25 + 1 then
    let c := ldpcDecode ch
    let ok := ldpcOk c
    let d := if ok then d else d.tlCount o 9
    d.onT o fun x => { x with blocks := x.blocks ++ [(BitVec.ofNat 256 (c.toNat / 2 ^ 256), ok)] }
  else d

/-- R138, R139, R141, R143: the result of a frame whose trailer reads crc, first bit most significant. -/
def Dev.frameResult (d : Dev) (o : Nat) (crc : BitVec 32) : Dev :=
  let x := d.t o
  let n := getBits x.header 27 25 + 1
  if d.tlRx o = 3 ∧ x.blocks.length = n then
    let bits := x.blocks.foldl (fun v b => v * 2 ^ 256 + b.1.toNat) 0
    if crc32 bits (256 * n) = crc.toNat then
      let d := (d.tlCount o 0).bump (Ctr.oct o 0)
      let ty := bits / 2 ^ (256 * n - 8)
      let d :=
        if ty = 1 ∧ n = 1 then d.trnReceive o (BitVec.ofNat 256 bits)
        else if ty = 1 ∨ typeReserved ty then d.tlCount o 8
        else d.queueRx o 0
      d.toSearch o
    else (((d.tlCount o 1).bump (Ctr.oct o 1)).queueRx o 1).toSearch o
  else d

/-- R141: a write to RX_POP. -/
def Dev.rxPop (d : Dev) (o v : Nat) : Dev := if bit v 0 then d.setRxq o (d.t o).rxq.tail else d

/-- RX_DESC as read: the oldest queued frame. -/
def Dev.rxDescView (d : Dev) (o : Nat) : Nat :=
  match (d.t o).rxq with
  | [] => 0
  | f :: _ =>
    2 ^ 31 + f.status * 2 ^ 28 + getBits f.header 11 8 * 2 ^ 24 + getBits f.header 23 12 * 2 ^ 12 + getBits f.header 27 25 * 2 ^ 9
      + getBits f.header 28 28 * 2 ^ 8 + getBits f.header 31 29 * 2 ^ 5

/-- RX_INFO as read. -/
def Dev.rxInfoView (d : Dev) (o : Nat) : Nat :=
  match (d.t o).rxq with
  | [] => 0x80 * 2 ^ 24
  | f :: _ => f.metric * 2 ^ 24 + f.blocksOk * 2 ^ 16

/-- RX_BUF[w] as read: payload bits 32w to 32w + 31 of the oldest frame, 0 unless its status is OK. -/
def Dev.rxBufView (d : Dev) (o w : Nat) : Nat :=
  match (d.t o).rxq with
  | [] => 0
  | f :: _ =>
    let n := 8 * (getBits f.header 27 25 + 1)
    if f.status = 0 ∧ w < n then f.bits / 2 ^ (32 * (n - 1 - w)) % 2 ^ 32 else 0

/-! The commands. -/

/-- An event of octet o's modem while it runs. -/
def Dev.tlLive (d : Dev) (o : Nat) (f : Dev → Dev) : Dev := d.live o fun d => if d.tlRuns o then f d else d

/-- R123: a write of TL_CTRL with EN = 1, or (none) the lane lets the modem run again. -/
def execModemEnable (o : Oct) (w : Option (Src × BitVec 32)) (s : State) : Host.Outcome State Fault Refusal :=
  s.on fun d =>
    match w with
    | some (src, val) => d.gate src (A.TL_CTRL o) fun d => d.tlCtrl o (putBit val.toNat 31 true)
    | none => d.live o fun d => d.tlFollow o

/-- R139: a write of TL_CTRL with EN = 0, or (none) the lane's DEEP or a calibration stops the modem. -/
def execModemDisable (o : Oct) (w : Option (Src × BitVec 32)) (s : State) : Host.Outcome State Fault Refusal :=
  s.on fun d =>
    match w with
    | some (src, val) => d.gate src (A.TL_CTRL o) fun d => d.tlCtrl o (putBit val.toNat 31 false)
    | none => d.live o fun d => d.tlFollow o

/-- R123: a write of TL_CTRL that names a lane. -/
def execTlLaneChange (src : Src) (o : Oct) (val : BitVec 32) (s : State) : Host.Outcome State Fault Refusal :=
  s.on fun d => d.gate src (A.TL_CTRL o) fun d => d.tlCtrl o val.toNat

/-- R144: a write of TL_CTRL with GASP = 1. -/
def execGaspCommand (src : Src) (o : Oct) (val : BitVec 32) (s : State) : Host.Outcome State Fault Refusal :=
  s.on fun d => d.gate src (A.TL_CTRL o) fun d => d.tlCtrl o (putBit val.toNat 7 true)

/-- R128: a write of TL_CTRL with MUTE_CLR = 1. -/
def execMuteClear (src : Src) (o : Oct) (val : BitVec 32) (s : State) : Host.Outcome State Fault Refusal :=
  s.on fun d => d.gate src (A.TL_CTRL o) fun d => d.tlCtrl o (putBit val.toNat 6 true)

def execMaskBlockEnd (o : Oct) (pwr : List Int) (s : State) : Host.Outcome State Fault Refusal :=
  s.on fun d => d.live o fun d => d.maskBlock o pwr

def execDetection (o : Oct) (dets : List TlDetect) (cur : With Int Nat) (s : State) : Host.Outcome State Fault Refusal :=
  s.on fun d => d.tlLive o fun d => d.detection o dets cur.obj cur.inp

def execDelimiterMiss (o : Oct) (signs : BitVec 8) (s : State) : Host.Outcome State Fault Refusal :=
  s.on fun d => d.tlLive o fun d => d.delimiter o signs

def execHeaderDecision (o : Oct) (header : BitVec 32) (s : State) : Host.Outcome State Fault Refusal :=
  s.on fun d => d.tlLive o fun d => d.headerDecision o header

def execLdpcBlockRelease (o : Oct) (ch : List Int) (s : State) : Host.Outcome State Fault Refusal :=
  s.on fun d => d.tlLive o fun d => d.ldpcRelease o ch

def execFrameResult (o : Oct) (crc : BitVec 32) (s : State) : Host.Outcome State Fault Refusal :=
  s.on fun d => d.tlLive o fun d => d.frameResult o crc

def execSearchReady (o : Oct) (s : State) : Host.Outcome State Fault Refusal :=
  s.on fun d => d.tlLive o fun d => d.searchReady o

/-- R141: a write of RX_POP with POP = 1. -/
def execRxPop (src : Src) (o : Oct) (s : State) : Host.Outcome State Fault Refusal :=
  s.on fun d => d.gate src (A.RX_POP o) fun d => d.rxPop o 1

/-- R145: a write of TX_DESC with GO = 1. -/
def execTxFrameQueue (src : Src) (o : Oct) (val : BitVec 32) (s : State) : Host.Outcome State Fault Refusal :=
  s.on fun d => d.gate src (A.TX_DESC o) fun d => d.txDesc o (putBit val.toNat 31 true)

def execTxFrameStart (o : Oct) (s : State) : Host.Outcome State Fault Refusal :=
  s.on fun d => d.live o fun d => d.txStart o

def execTxFrameEnd (o : Oct) (s : State) : Host.Outcome State Fault Refusal :=
  s.on fun d => d.tlLive o fun d => d.txEnd o

/-- R79, R81, R123: a power transition of a lane ends; the modem that rides on it follows. -/
def execLanePowerTransitionEnd (g : Lane) (s : State) : Host.Outcome State Fault Refusal :=
  s.on fun d => d.live (g / 8) fun d => (d.powerEnd g).tlFollow (g / 8)

/-- R118, R123: a write of TSC_CTRL with START = 1; the modem that rides on the lane stops. -/
def execTscStart (src : Src) (g : Lane) (val : BitVec 32) (s : State) : Host.Outcome State Fault Refusal :=
  s.on fun d => d.gate src (A.TSC_CTRL (g / 8) (g % 8)) fun d => (d.tscCtrl g (putBit val.toNat 31 true)).tlFollow (g / 8)

/-- R118, R123: the measured delays of a calibration; the modem runs again. -/
def execTscDone (g : Lane) (rx tx temp : Int) (s : State) : Host.Outcome State Fault Refusal :=
  s.on fun d => d.live (g / 8) fun d => (d.tscDone g rx tx temp).tlFollow (g / 8)

end Sys2Proof.Machine
end

