-- ==== Sys2Proof/Machine/Power.lean ====
section
/-! DEFINITION. The pumping station (spec/12, R313 to R328): requests, transitions step by step, refusals, wakes, accounting, DRAM
IDLE, pads, and power failure. -/

namespace Sys2Proof.Machine

/-! States (R314 to R317). -/

/-- R360: debug keeps polder p awake. -/
def Dev.debugHeld (d : Dev) (p : Nat) : Bool :=
  if p < 32 then bit (d.reg A.DBG_HOLD_LO) p else bit (d.reg A.DBG_HOLD_HI) (p - 32)

/-- R315, R360: cluster c is in automatic IDLE. -/
def Dev.autoIdle (d : Dev) (c : Nat) : Bool :=
  bit (d.get R.PWR_CFG.AUTO_IDLE) c && !d.debugHeld (36 + c)
    && (List.range 8).all fun k => [EState.waiting, .halted, .fault].contains (d.e (8 * c + k)).st

/-- The POLDER_STATE code of polder p. -/
def Dev.shownPolder (d : Dev) (p : Nat) : Nat :=
  if d.polder p = 0 ∧ 36 ≤ p ∧ p ≤ 46 ∧ d.autoIdle (p - 36) then 1 else d.polder p

/-- Word w of POLDER_STATE as it reads. -/
def Dev.polderWord (d : Dev) (w : Nat) : Nat :=
  (List.range 8).foldl (fun acc j => if 8 * w + j ≤ 48 then acc + d.shownPolder (8 * w + j) * 16 ^ j else acc) 0

/-- The sensors that guard polder p (R329). -/
def guards (p : Nat) : List Nat :=
  if p < 32 then [p, 48 + 2 * p, 49 + 2 * p, 112 + 2 * p, 113 + 2 * p] else [p]

/-- R322, R334: polder p may not leave its forced stop yet. -/
def Dev.tooHot (d : Dev) (p : Nat) : Bool :=
  (d.p p).forced && (guards p).any fun n => d.on (R.READ.HOT n) || d.on (R.READ.CRIT n)

/-- R17, R316: the DRAM condition but for self-refresh. -/
def Dev.dramQuiet (d : Dev) : Bool :=
  d.get R.SPILL_STATUS.CELLS == 0 && d.fab.stage.isEmpty && d.cnt.dump.isNone
    && !d.eng.any fun e => e.2.reqs.any fun r => r.chan == 0x13 && r.phase == .taken

/-! Requests (R318, R324). -/

/-- R29, R318: the masks a profile uses: replaced where they break R29. -/
def profileMasks (profile oct cl : Nat) : Nat × Nat :=
  let cl := if (profile = 1 ∨ profile = 2) ∧ cl = 0x7F then 0x7E else cl
  let cl := if profile = 2 then
    ((List.range 7).reverse).foldl (fun c k => if 3 < 7 - popCount c 7 ∧ !bit c k then c + 2 ^ k else c) cl else cl
  (if profile = 2 ∧ oct = 2 ^ 32 - 1 then oct - 1 else oct, cl)

/-- R29, R318, R319: the state a request gives polder q, now in state cur. -/
def PReq.target (r : PReq) (q cur : Nat) : Nat :=
  match r.polder with
  | some (p, st) => if q = p then st else cur
  | none =>
    if r.profile = 3 then 2
    else if q < 32 then (if r.profile ≠ 0 ∧ bit r.parkOct q then 2 else if cur = 1 then 1 else 0)
    else if q < 36 then 0
    else if q < 43 then (if r.profile ≠ 0 ∧ bit r.parkCl (q - 36) then 2 else 0)
    else if q < 47 then (if r.profile ≠ 0 ∧ r.parkOct / 2 ^ (8 * (q - 43)) % 256 = 255 then 2 else 0)
    else if r.profile = 2 then 1 else 0

/-- R319: the orders of exits and entries. -/
def exitOrder : List Nat := 47 :: (List.range 15).map (32 + ·) ++ List.range 32
def entryOrder : List Nat :=
  List.range 32 ++ [43, 44, 45, 46] ++ (List.range 7).map (36 + ·) ++ [32, 33, 34, 35] ++ [47]

/-- A request enters HALT. -/
def PReq.halts (r : PReq) : Bool := r.polder.isNone && r.profile == 3

/-- The polders of a list whose state a request lowers or raises, with their targets. -/
def Dev.changes (d : Dev) (r : PReq) (l : List Nat) (down : Bool) : List (Nat × Nat) :=
  l.filterMap fun q =>
    let cur := d.polder q
    let to_ := r.target q cur
    if cur ≤ 2 ∧ (if down then cur < to_ else to_ < cur) then some (q, to_) else none

/-! Accounting (R327). -/

/-- The RESULT and refuser of polder p's last entry, and its counts. -/
def Dev.acctEntry (d : Dev) (p res who : Nat) (done : Bool) : Dev :=
  if 48 < p then d
  else if d.on R.PWR_CFG.ACCT_MODE then d.setReg (A.ACCT_3 p) (res * 2 ^ 29 + who)
  else
    let v := d.reg (A.ACCT_3 p)
    d.setReg (A.ACCT_3 p) (if done then putBits v 31 16 (satAdd 65535 (getBits v 31 16) 1) else putBits v 15 0 (satAdd 65535 (v % 65536) 1))

/-- The source and time of polder p's exit from RETAIN or IDLE. -/
def Dev.acctWake (d : Dev) (p src irq : Nat) : Dev :=
  if d.on R.PWR_CFG.ACCT_MODE then
    let d := (d.setReg (A.ACCT_0 p) (src * 2 ^ 29 + irq)).setReg (A.ACCT_1 p) (d.time.ps % 2 ^ 32)
    d.setReg (A.ACCT_2 p) (d.time.sec % 2 ^ 24 * 256 + d.time.ps / 2 ^ 32)
  else d

/-- One E-cycle of residency for polder p, when it is in a state that counts (R327). -/
def Dev.acctTick (d : Dev) (p : Nat) : Dev :=
  let x := d.p p
  match d.shownPolder p with
  | 0 => if x.act + 1 = 2000000 then (d.inc (R.ACCT_0.V p)).onP p fun x => { x with act := 0 } else d.onP p fun x => { x with act := x.act + 1 }
  | 1 => if x.idle + 1 = 2000000 then (d.inc (R.ACCT_1.V p)).onP p fun x => { x with idle := 0 } else d.onP p fun x => { x with idle := x.idle + 1 }
  | 2 => if x.ret + 1 = 2000000 then (d.inc (R.ACCT_2.V p)).onP p fun x => { x with ret := 0 } else d.onP p fun x => { x with ret := x.ret + 1 }
  | _ => d

/-- R327: a write to PWR_CFG; a change of ACCT_MODE clears every ACCT register. -/
def Dev.pwrCfg (d : Dev) (v : Nat) : Dev :=
  let old := d.on R.PWR_CFG.ACCT_MODE
  let d := d.sw Row.PWR_CFG A.PWR_CFG v
  if d.on R.PWR_CFG.ACCT_MODE = old then d
  else (List.range 49).foldl (fun d p => d.onP p fun x => { x with act := 0, idle := 0, ret := 0 })
    (d.clearRegs fun a => decide (0x10200 ≤ a ∧ a < 0x10510))

/-! Pads (R326). -/

/-- Polder p's pads latch their values. -/
def Dev.holdPads (d : Dev) (p : Nat) : Dev :=
  if p < 32 then (d.orF R.PAD_HOLD.OCT (2 ^ p)).onW p fun w => { w with pads := some (w.drive, w.code) }
  else if p = 47 then d.set R.PAD_HOLD_DRAM.DRAM 1 else d

/-- The pads of the octets in a mask released, those of the DRAM with them if dram is set. -/
def Dev.releasePads (d : Dev) (octs : Nat) (dram : Bool) : Dev :=
  let d := (List.range 32).foldl (fun d o => if bit octs o then d.onW o fun w => { w with pads := none } else d) d
  let d := d.clrF R.PAD_HOLD.OCT octs
  if dram then d.set R.PAD_HOLD_DRAM.DRAM 0 else d

/-! Steps of a transition (R320 to R323). -/

/-- R189: polder p is a cluster with an engine that is not HALTED, WAITING or FAULT. -/
def Dev.clBusy (d : Dev) (p : Nat) : Bool :=
  decide (36 ≤ p ∧ p ≤ 46) && (List.range 8).any fun k => [EState.running, .loading].contains (d.e (8 * (p - 36) + k)).st

/-- R17, R189, R321: why polder p refuses entry to state to_ at E1. -/
def Dev.entryCause (d : Dev) (t : Trans) (p to_ : Nat) : Option Nat :=
  let halt := t.req.halts
  let deep := (lanesOf p).all fun g => d.get (R.LPWR_STATUS.TX_STATE g) == 2 && d.get (R.LPWR_STATUS.RX_STATE g) == 2
  let others := (List.range 7).any fun c =>
    c != p - 36 && (d.polder (36 + c) == 0 || d.polder (36 + c) == 1) && t.req.target (36 + c) (d.polder (36 + c)) != 2
  let cond : Bool :=
    if p < 32 then deep && (to_ != 2 || d.on (R.WEIR_STATUS.PARKED p))
    else if 43 ≤ p ∧ p ≤ 46 then (List.range 8).all fun k => d.polder (8 * (p - 43) + k) == 2
    else if p = 47 then d.dramQuiet && (to_ != 2 || d.on R.MEM_STATUS.SELF_REF)
    else true
  if !cond then some 0
  else if d.clBusy p then some 1
  else if 36 ≤ p ∧ p ≤ 42 ∧ !halt ∧ !others then some 3
  else if 32 ≤ p ∧ p ≤ 35 ∧ !halt then some 5
  else if d.debugHeld p then some 6
  else none

/-- Polder p reaches RETAIN or IDLE: E4 to E7. -/
def Dev.polderDown (d : Dev) (p to_ : Nat) : Dev :=
  let d := d.setPolder p to_
  let d := if to_ = 2 then (d.holdPads p).onP p fun x => { x with closed := true } else d.onP p fun x => { x with closed := false }
  let d := if p = 47 then d.set R.MEM_STATUS.SELF_REF 1 else d
  if to_ = 2 ∧ p < 48 then d.set (R.CAP.STOP_PEND p) 0 else d

/-- X1 to X5: polder p leaves RETAIN or IDLE for state to_; restore: as part of a refused or abandoned transition. -/
def Dev.polderUp (d : Dev) (p to_ src irq : Nat) (restore : Bool) : Dev :=
  let old := d.polder p
  let d := (d.setPolder p to_).onP p fun x => { x with closed := false, forced := false }
  let d := d.acctWake p src irq
  let d := if restore then (if p < 32 then d.releasePads (2 ^ p) false else if p = 47 then d.releasePads 0 true else d) else d
  let d := if p = 47 ∧ to_ = 0 ∧ d.on R.MEM_CFG.EN then d.set R.MEM_STATUS.SELF_REF 0 else d
  if p < 32 ∧ old = 2 then (((d.orF (R.OPWR_EVT.EVT p) 1).modeBoundary p).startPeriod p).unsettle p else d

/-- The running transition replaced. -/
def Dev.setRun (d : Dev) (t : Option Trans) : Dev := d.onPwr fun x => { x with run := t }

/-- The queued request consumed. -/
def Dev.dropQueued (d : Dev) : Dev := (d.set R.PWR_STATUS.QUEUED 0).onPwr fun x => { x with next := none }

/-- R319: a request starts: its exits and entries are laid out. -/
def Dev.startTrans (d : Dev) (r : PReq) : Dev :=
  let d := if r.halts then d.set R.PWR_STATUS.PREV (d.get R.PWR_STATUS.PROFILE) else d
  let t : Trans := { req := r, pre := (List.range 49).map d.polder,
                     exits := d.changes r exitOrder false, entries := d.changes r entryOrder true }
  (d.set R.PWR_STATUS.BUSY 1).setRun (some t)

/-- R319, R321 to R323, R327: transition t ends; a queued request then starts. -/
def Dev.endTrans (d : Dev) (t : Trans) : Dev :=
  let who := t.who.getD 0
  let d := d.setRun none
  let d := ((d.set R.PWR_STATUS.BUSY 0).set R.PWR_STATUS.STEP 0).incW R.PWR_STATUS.SEQ
  let d := (d.set R.PWR_STATUS.RESULT t.res).set R.PWR_STATUS.CAUSE t.cause
  let d := match t.who with | some p => d.set R.PWR_STATUS.POLDER p | none => d
  let kept := t.res = 1 ∨ t.cause = 4
  let d := t.down.foldl (fun d e => if kept then d.acctEntry e.1 1 0 true else d.acctEntry e.1 t.res who false) d
  let d := t.aband.foldl (fun d p => d.acctEntry p t.res who false) d
  let d := if t.res = 1 then
      let d := d.orF R.PWR_EVT.EVT 2
      if t.req.polder.isNone then
        let d := d.set R.PWR_STATUS.PROFILE t.req.profile
        if t.req.profile = 3 then d else d.onPwr fun x => { x with masks := (t.req.parkOct, t.req.parkCl) }
      else d
    else d.orF R.PWR_EVT.EVT 4
  match d.pwr.next with
  | some r => d.dropQueued.startTrans r
  | none => d

/-- A transition with nothing left to do ends. -/
def Dev.checkTrans (d : Dev) : Dev :=
  match d.pwr.run with
  | none => d
  | some t =>
    let left := match t.restore with
      | some l => !l.isEmpty
      | none => !t.exits.isEmpty || !t.entries.isEmpty || t.cur.isSome
    if left then d else d.endTrans t

/-- A transition and the queued one after it, when neither has anything to do. -/
def Dev.settleTrans (d : Dev) : Dev := d.checkTrans.checkTrans

/-- R321, R323: the transition turns back: the polder in entry is restored at once and what went down is to be restored in reverse
order. -/
def Dev.turnBack (d : Dev) (t : Trans) (res cause : Nat) (who : Option Nat) : Dev :=
  let (d, t) := match t.cur with
    | some (p, st) => ((d.setPolder p st).onP p fun x => { x with closed := false }, { t with cur := none, aband := t.aband ++ [p] })
    | none => (d, t)
  (d.setRun (some { t with res := res, cause := cause, who := who, restore := some t.down, wake := none })).settleTrans

/-- R324: the queued request undoes what transition t has changed. -/
def Dev.reverses (d : Dev) (t : Trans) : Bool :=
  match d.pwr.next with
  | some r => !t.touched.isEmpty && t.touched.all fun q => r.target q (d.polder q) == t.pre.getD q 0
  | none => false

/-- R323: what ends an entry early: a wake noted, or a reversal in the queue. -/
def Dev.wakeOf (d : Dev) (t : Trans) : Option Nat := if t.wake.isSome then t.wake else if d.reverses t then some 3 else none

/-- R323: the transition is abandoned with a RESULT; a reversal is consumed. -/
def Dev.abandon (d : Dev) (t : Trans) (res : Nat) : Dev :=
  let who := t.cur.map (·.1)
  (if res = 3 then d.dropQueued else d).turnBack t res 0 who

/-- R320: the entry of the next polder starts: E1 and E2, and E4 for IDLE. -/
def Dev.polderEntry (d : Dev) : Dev :=
  match d.pwr.run with
  | none => d
  | some t =>
    match t.entries with
    | [] => d
    | (p, to_) :: rest =>
      if !t.exits.isEmpty ∨ t.cur.isSome ∨ t.restore.isSome then d
      else match d.wakeOf t with
      | some w => d.abandon t w
      | none =>
        if (d.p p).test ∨ (p = 47 ∧ to_ = 1 ∧ t.req.polder.isNone) then d
        else
          let t := { t with touched := t.touched ++ [p] }
          let d := (d.set R.PWR_STATUS.POLDER p).set R.PWR_STATUS.STEP 1
          match d.entryCause t p to_ with
          | some c => d.turnBack { t with aband := t.aband ++ [p] } 4 c (some p)
          | none =>
            let old := d.polder p
            if to_ = 1 then
              ((d.polderDown p 1).setRun (some { t with entries := rest, down := (p, old) :: t.down })).settleTrans
            else
              let d := ((d.setPolder p 3).onP p fun x => { x with closed := true }).set R.PWR_STATUS.STEP 3
              d.setRun (some { t with entries := rest, cur := some (p, old) })

/-- R189, R320: the drain of the polder in entry completes, E4 to E7 follow; abort point 2 comes first. A cluster with an engine that was woken
meanwhile does not enter RETAIN: it is refused as at E1 (DEDUCED, log 113). -/
def Dev.drainEnd (d : Dev) : Dev :=
  match d.pwr.run with
  | none => d
  | some t =>
    match t.cur with
    | none => d
    | some (p, old) =>
      match d.wakeOf t with
      | some w => d.abandon t w
      | none =>
        if d.clBusy p ∧ !(d.p p).forced then d.turnBack t 4 1 (some p)
        else
          let d := (d.polderDown p 2).set R.PWR_STATUS.STEP 0
          (d.setRun (some { t with cur := none, down := (p, old) :: t.down })).settleTrans

/-- R321: the drain of the polder in entry exceeds 1,000 A-cycles. -/
def Dev.drainTimeout (d : Dev) : Dev :=
  match d.pwr.run with
  | none => d
  | some t => match t.cur with
    | none => d
    | some (p, _) => d.turnBack t 4 2 (some p)

/-- R323: the pumping station reaches an abort point with a wake or reversal outstanding. -/
def Dev.entryAbandon (d : Dev) : Dev :=
  match d.pwr.run with
  | none => d
  | some t =>
    if t.cur.isSome ∧ t.restore.isNone then
      match d.wakeOf t with
      | some w => d.abandon t w
      | none => d
    else d

/-- R322: the exits that would break R17 while polder p stays in RETAIN. -/
def skippedBy (p q : Nat) : Bool :=
  if 43 ≤ p ∧ p ≤ 46 then decide (8 * (p - 43) ≤ q ∧ q < 8 * (p - 43) + 8)
  else decide (32 ≤ p ∧ p ≤ 35) || p == 47

/-- R17: polder q may not leave RETAIN on a request of its own: a polder it depends on, by R322's list, stays in RETAIN (DEDUCED, log 113). -/
def Dev.exitBreaks (d : Dev) (q : Nat) : Bool := (List.range 48).any fun p => p != q && d.polder p == 2 && skippedBy p q

/-- R17, R320, R322: the next polder exits, or refuses with HOT, or with CONDITION where its request would break R17. -/
def Dev.polderExit (d : Dev) : Dev :=
  match d.pwr.run with
  | none => d
  | some t =>
    match t.restore, t.exits with
    | some ((p, st) :: rest), _ =>
      let d := (d.set R.PWR_STATUS.POLDER p).set R.PWR_STATUS.STEP 12
      ((d.polderUp p st 5 0 true).setRun (some { t with restore := some rest })).settleTrans
    | some [], _ => d.settleTrans
    | none, (p, st) :: rest =>
      let d := (d.set R.PWR_STATUS.POLDER p).set R.PWR_STATUS.STEP 12
      if d.tooHot p then
        let t := { t with res := 4, cause := 4, who := some p,
                          exits := rest.filter (fun e => !skippedBy p e.1), entries := t.entries.filter (fun e => !skippedBy p e.1) }
        (d.setRun (some t)).settleTrans
      else if t.req.polder.isSome ∧ d.exitBreaks p then
        (d.setRun (some { t with res := 4, cause := 0, who := some p, exits := rest })).settleTrans
      else
        ((d.polderUp p st t.req.src t.req.irq false).setRun
          (some { t with exits := rest, touched := t.touched ++ [p] })).settleTrans
    | none, [] => d

/-- R318: a request word from a PWR_REQ write or the PWR channel (src 2 or 1). -/
def Dev.submit (d : Dev) (v src : Nat) : Dev :=
  let d := d.sw Row.PWR_REQ A.PWR_REQ v
  let (d, r, replaced) :=
    if d.on R.PWR_REQ.KIND then
      let p := d.get R.PWR_REQ.POLDER
      let st := d.get R.PWR_REQ.STATE
      let st' := if p = 48 ∨ (st = 1 ∧ 32 ≤ p ∧ p ≤ 46) then 0 else st
      (d.set R.PWR_REQ.STATE st', ({ polder := some (p, st'), src := src } : PReq), decide (st ≠ st'))
    else
      let o := d.reg A.PARK_OCT
      let c := d.get R.PARK_CL.CL
      let m := profileMasks (d.get R.PWR_REQ.PROFILE) o c
      (d, ({ profile := d.get R.PWR_REQ.PROFILE, parkOct := m.1, parkCl := m.2, src := src } : PReq), decide (m ≠ (o, c)))
  let d := if replaced then d.set R.PWR_STATUS.REPLACED 1 else d
  if d.pwr.run.isSome then
    let d := if d.pwr.next.isSome then d.set R.PWR_STATUS.QREPLACED 1 else d
    (d.set R.PWR_STATUS.QUEUED 1).onPwr fun x => { x with next := some r }
  else (d.startTrans r).settleTrans

/-- R323, R325: source n is asserted. -/
def Dev.wakeSource (d : Dev) (n : Nat) : Dev :=
  if !bit (d.reg (A.WAKE_EN (n / 32))) (n % 32) then d
  else match d.pwr.run with
  | some t =>
    if t.exits.isEmpty ∧ t.restore.isNone ∧ (t.cur.isSome ∨ !t.entries.isEmpty) ∧ t.wake.isNone then
      d.setRun (some { t with wake := some 2 })
    else d
  | none =>
    if d.get R.PWR_STATUS.PROFILE = 3 ∧ d.on R.PWR_CFG.HALT_WAKE then
      ((d.orF R.PWR_EVT.EVT 8).startTrans { profile := d.get R.PWR_STATUS.PREV, parkOct := d.pwr.masks.1, parkCl := d.pwr.masks.2,
                                             src := 4, irq := n }).settleTrans
    else d

/-- A PWR_REQ write: submitted with GO. -/
def Dev.pwrReq (d : Dev) (v : Nat) : Dev := if bit v 31 then d.submit v 2 else d.sw Row.PWR_REQ A.PWR_REQ v

/-! DRAM IDLE (R316). -/

/-- R316: DRAM_IDLE microseconds have passed without a DRAM request: in NIGHT, or as the last entry to NIGHT. Where the DRAM condition
does not hold the polder stays ACTIVE, which NIGHT allows (R29). -/
def Dev.dramIdle (d : Dev) : Dev :=
  let may := d.dramActive && d.dramQuiet && !d.debugHeld 47 && (d.barredPolder 47).isNone
  match d.pwr.run with
  | some t =>
    if t.entries = [(47, 1)] ∧ t.exits.isEmpty ∧ t.cur.isNone ∧ t.restore.isNone ∧ t.req.polder.isNone then
      match d.wakeOf t with
      | some w => d.abandon t w
      | none =>
        if may then ((d.polderDown 47 1).setRun (some { t with entries := [], down := (47, 0) :: t.down })).settleTrans
        else (d.setRun (some { t with entries := [] })).settleTrans
    else d
  | none => if d.get R.PWR_STATUS.PROFILE = 2 ∧ may then (d.polderDown 47 1).acctEntry 47 1 0 true else d

/-- R316: the DRAM polder is ACTIVE again. -/
def Dev.dramUp (d : Dev) : Dev :=
  if d.pwr.demand ∧ d.polder 47 = 4 then
    let d := d.onPwr fun x => { x with demand := false }
    d.polderUp 47 0 3 0 false
  else d

/-! Power failure (R328). -/

/-- R328: a GASP command of a warden or of the pumping station. -/
def Dev.noteGasp (d : Dev) (us : Nat) : Dev :=
  if d.pwr.pfAt.isSome ∧ !d.pwr.pfGasp then
    (d.set R.PFAIL_STATUS.GASP_US (min 65535 us)).onPwr fun x => { x with pfGasp := true }
  else d

/-- R328: microseconds since the PFAIL_N edge. -/
def Dev.pfailUs (d : Dev) : Nat := (d.up - d.pwr.pfAt.getD d.up + 640) / 2000

/-- R144, R328: the warden's device-wide gasp. -/
def Dev.wardenGasp (d : Dev) (e : Nat) : Dev :=
  d.serve e 0x205 0 fun op d => rep ((d.noteGasp d.pfailUs).gaspAll (op % 2)) stOK

/-- R328 step 3: without a GASP command the pumping station issues it. -/
def Dev.autoGasp (d : Dev) : Dev :=
  if d.pwr.pfAt.isSome ∧ !d.pwr.pfGasp then ((d.noteGasp 190).set R.PFAIL_STATUS.AUTO_GASP 1).gaspAll 0 else d

/-- R328: PFAIL is asserted. -/
def Dev.pfailAssert (d : Dev) : Dev :=
  let d := d.orF R.PWR_EVT.EVT 1
  let d := d.setReg A.PFAIL_STATUS (2 ^ 31)
  d.onPwr fun x => { x with pfAt := some d.up, pfGasp := false, pfRec := false }

/-- R328: PFAIL_N returns high. -/
def Dev.pfailClear (d : Dev) : Dev := (d.set R.PFAIL_STATUS.LIVE 0).onPwr fun x => { x with pfAt := none }

/-! The commands. -/

/-- R318: a write of PWR_REQ with GO = 1 and KIND = 0. -/
def execProfileRequest (src : Src) (val : BitVec 32) (s : State) : Host.Outcome State Fault Refusal :=
  s.on fun d => d.gate src A.PWR_REQ fun d => d.submit (putBits val.toNat 31 30 2) 2

/-- R318: a write of PWR_REQ with GO = 1 and KIND = 1. -/
def execPolderRequest (src : Src) (val : BitVec 32) (s : State) : Host.Outcome State Fault Refusal :=
  s.on fun d => d.gate src A.PWR_REQ fun d => d.submit (putBits val.toNat 31 30 3) 2

def execPolderEntry (s : State) : Host.Outcome State Fault Refusal := s.on Dev.polderEntry

def execDrainEnd (s : State) : Host.Outcome State Fault Refusal := s.on Dev.drainEnd

def execDrainTimeout (s : State) : Host.Outcome State Fault Refusal := s.on Dev.drainTimeout

def execPolderExit (s : State) : Host.Outcome State Fault Refusal := s.on Dev.polderExit

def execEntryAbandon (s : State) : Host.Outcome State Fault Refusal := s.on Dev.entryAbandon

def execDramIdleTimeout (s : State) : Host.Outcome State Fault Refusal := s.on Dev.dramIdle

def execDramDemand (s : State) : Host.Outcome State Fault Refusal := s.on fun d => d.demand

/-- R326: a write of PAD_HOLD, or of PAD_HOLD_DRAM. -/
def execPadRelease (src : Src) (dram : Bool) (val : BitVec 32) (s : State) : Host.Outcome State Fault Refusal :=
  s.on fun d => d.gate src (if dram then A.PAD_HOLD_DRAM else A.PAD_HOLD) fun d =>
    if dram then d.releasePads 0 (bit val.toNat 0) else d.releasePads val.toNat false

/-- R327: a write of PWR_CFG. -/
def execAcctModeWrite (src : Src) (val : BitVec 32) (s : State) : Host.Outcome State Fault Refusal :=
  s.on fun d => d.gate src A.PWR_CFG fun d => d.pwrCfg val.toNat

/-- R338 PWR REQUEST: replied to when it is started or queued. -/
def execPwrChRequest (e : EngId) (s : State) : Host.Outcome State Fault Refusal :=
  s.on fun d => d.serve e 0x200 0 fun op d => let d := d.submit (op % 2 ^ 31) 1; rep d stOK (d.reg A.PWR_STATUS)

/-- R338 PWR PARK. -/
def execPwrChPark (e : EngId) (s : State) : Host.Outcome State Fault Refusal :=
  s.on fun d => d.serve e 0x200 1 fun op d => rep ((d.setReg A.PARK_OCT (op / 2 ^ 32)).setReg A.PARK_CL (op % 128)) stOK

/-- R338 PWR STATUS. -/
def execPwrChStatus (e : EngId) (s : State) : Host.Outcome State Fault Refusal :=
  s.on fun d => d.serve e 0x200 2 fun _ d => rep d stOK (d.reg A.PWR_STATUS)

/-- R338 PWR RELEASE. -/
def execPwrChRelease (e : EngId) (s : State) : Host.Outcome State Fault Refusal :=
  s.on fun d => d.serve e 0x200 3 fun op d => rep (d.releasePads (op % 2 ^ 32) (bit op 32)) stOK

def execWardenGasp (e : EngId) (s : State) : Host.Outcome State Fault Refusal := s.on fun d => d.wardenGasp e

def execAutoGasp (s : State) : Host.Outcome State Fault Refusal := s.on fun d => d.autoGasp

def execPfailClear (s : State) : Host.Outcome State Fault Refusal := s.on fun d => d.pfailClear

end Sys2Proof.Machine
end

