-- ==== Sys2Proof/Machine/Bist.lean ====
section
/-! DEFINITION. Self-test and repair (spec/14). -/

namespace Sys2Proof.Machine

/-! Starting a test (R366 to R369). -/

/-- R361: a subset is permitted on request in a life-cycle state. -/
def bistPermits (life subset : Nat) (dbg : Bool) : Bool :=
  match life with
  | 0 => dbg
  | 1 | 2 | 4 => true
  | 3 => subset != 3
  | _ => false

/-- The test running on target t. -/
def Dev.testRun (d : Dev) (t : Nat) : Option BistRun := Tbl.get none d.bist.run t

/-- R367: octets that run LBIST or ANALOG. -/
def Dev.octTests (d : Dev) : Nat := ((List.range 32).filter fun o => (d.testRun o).any fun r => r.subset == 1 || r.subset == 2).length

/-- R366: a target accepts a subset. -/
def bistAccepts (t subset : Nat) : Bool :=
  match subset with
  | 0 | 1 => decide (t < 48)
  | 2 => decide (t < 32) || t == 47
  | _ => t == 48

/-- R368: the precondition of a target, or of one lane of it. -/
def Dev.quiet (d : Dev) (t : Nat) (lane : Option Nat) : Bool :=
  let deep (g : Nat) : Bool := d.get (R.LPWR_STATUS.TX_STATE g) == 2 && d.get (R.LPWR_STATUS.RX_STATE g) == 2
  if t < 32 then
    match lane with
    | none => (lanesOf t).all deep && d.on (R.WEIR_STATUS.PARKED t)
    | some l =>
      let g := 8 * t + l
      deep g && [0, 4].contains (d.get (R.TRN_STATUS.STATE g)) && d.get (R.LB_CTRL.MODE g) == 0 && !d.on (R.CAP_CTRL.EN g)
  else if t < 36 then !d.on R.FL_CTRL.RUN && !d.on R.FL_STATUS.RECLAIM_BUSY
  else if t < 47 then
    (List.range 8).all (fun k => [EState.halted, .fault].contains (d.e (8 * (t - 36) + k)).st) && (d.c (t - 36)).drained
  else if t = 47 then !d.on R.MEM_CFG.EN && d.on R.MEM_STATUS.SELF_REF && d.get R.SPILL_STATUS.CELLS == 0
  else true

/-- R368: the first DETAIL whose condition holds. -/
def Dev.bistDetail (d : Dev) (life t subset : Nat) (lane : Option Nat) (dbg : Bool) : Option Nat :=
  if !bistPermits life subset dbg then some 1
  else if (d.testRun t).isSome ∨ (t < 32 ∧ (subset = 1 ∨ subset = 2) ∧ 8 ≤ d.octTests) then some 2
  else if 1 < d.polder t ∨ (d.p t).closed ∨ (d.p t).inReset then some 3
  else if !d.quiet t lane then some 4
  else if !bistAccepts t subset ∨ (lane.isSome ∧ (subset ≠ 2 ∨ 32 ≤ t))
      ∨ (subset = 3 ∧ !(dbg && (List.range 8).all fun k => (d.e (88 + k)).st == .halted)) then some 5
  else none

/-- The BIST_BUSY bit of target t. -/
def Dev.bistBusy (d : Dev) (t : Nat) (b : Bool) : Dev :=
  let a := if t < 32 then A.BIST_BUSY_LO else A.BIST_BUSY_HI
  d.setReg a (putBit (d.reg a) (t % 32) b)

/-- The RW fields of a register that holds v, over reset values elsewhere. -/
def RegRow.rwOnly (r : RegRow) (v : Nat) : Nat :=
  r.fields.foldl (fun acc f => match f.acc with
    | .rw | .rws => putBits acc f.hi f.lo (getBits v f.hi f.lo)
    | _ => acc) r.resetNat

/-- R169: every PUNT_POP that waits completes with TEST_BUSY. -/
def Dev.busyPunts (d : Dev) : Dev :=
  (List.range 96).foldl (fun d e => d.onE e fun x => { x with reqs := x.reqs.map fun r =>
    if r.chan == 0x11 && r.cmd == 0 && r.phase == .taken then { r with phase := .answered, rep := replyWord stTestBusy 0 } else r }) d

/-- R169, R369, R371, R372: a test of a target starts. -/
def Dev.bistStart (d : Dev) (t subset : Nat) (lane : Option Nat) (eng : Option Nat) : Dev :=
  let saved : Tbl Word :=
    match lane with
    | some l => d.regs.filter fun e => laneAt e.1 == some (8 * t + l)
    | none => if 36 ≤ t ∧ t < 47 then [(A.CL_MODE (t - 36), BitVec.ofNat 32 (d.reg (A.CL_MODE (t - 36))))] else []
  let r : BistRun := { subset := subset, lane := lane, eng := eng, start := d.up, saved := saved }
  let d := d.onBist fun b => { b with run := Tbl.set none b.run t (some r) }
  let d := (((d.set (R.T_STATUS.STATE t) 1).set (R.T_STATUS.SUBSET t) subset).set (R.T_STATUS.SCOPE t) (b2n lane.isSome)).set
    (R.T_STATUS.LANE t) (lane.getD 0)
  let d := d.bistBusy t true
  match lane with
  | some _ => d
  | none =>
    let d := d.onP t fun p => { p with test := true }
    let d := if 32 ≤ t ∧ t < 36 then d.busyPunts else d
    let d := if t < 32 then d.onW t fun w => { w with drive := 0, code := [], pads := none } else d
    if 36 ≤ t ∧ t < 47 then d.set (R.CL_MODE.MODE (t - 36)) 2 else d

/-- R368: a request, as a BIST_CMD word: accepted or refused with DETAIL. -/
def Dev.bistRequest (d : Dev) (life v : Nat) (dbg : Bool) (eng : Option Nat) : Dev × Option Nat :=
  let t := min (v % 64) 48
  let lane := if bit v 20 then some (getBits v 18 16) else none
  match d.bistDetail life t (getBits v 25 24) lane dbg with
  | some x => (d, some x)
  | none => (d.bistStart t (getBits v 25 24) lane eng, none)

/-- R368: a write to BIST_CMD. -/
def Dev.bistCmd (d : Dev) (life v : Nat) (dbg : Bool) : Dev :=
  let d := d.sw Row.BIST_CMD A.BIST_CMD v
  if bit v 31 then
    let (d, x) := d.bistRequest life v dbg none
    (d.set R.BIST_CMD_STATUS.REFUSED (b2n x.isSome)).set R.BIST_CMD_STATUS.DETAIL (x.getD 0)
  else d

/-- R369: the channel command RUN. -/
def Dev.bistRun (d : Dev) (life e : Nat) : Dev :=
  d.serve e 0x203 0 fun op d =>
    match d.bistRequest life (op % 2 ^ 26) false (some e) with
    | (d, some x) => rep d stRefused x
    | (d, none) => (d, none)

/-- A request for one subset, however it arrives. -/
def Dev.bistCommand (d : Dev) (life subset : Nat) (w : Via) : Dev :=
  match w with
  | .reg src v => d.gate src A.BIST_CMD fun d => d.bistCmd life (putBit (putBits v.toNat 25 24 subset) 31 true) (src == .dbg)
  | .chan e =>
    match d.req e 0x203 0 .sent with
    | some r => if getBits r.op.toNat 25 24 = subset then d.bistRun life e else d
    | none => d

/-! The end of a test (R372 to R375). -/

/-- R372: the target re-initialised. -/
def Dev.bistReinit (d : Dev) (v : Vault) (t : Nat) (r : BistRun) : Dev :=
  match r.lane with
  | some l =>
    let g := 8 * t + l
    let d := d.clearRegs fun a => laneAt a == some g
    let d := (r.saved.filter fun e => laneAt e.1 == some g).foldl
      (fun d e => match RegMap.find e.1 with | some row => d.setReg e.1 (row.rwOnly e.2.toNat) | none => d) d
    (d.onL g fun _ => LaneSt.reset).fusedSpare v g
  | none =>
    if t = 48 then d
    else (r.saved.filter fun e => e.1 == A.CL_MODE (t - 36)).foldl (fun d e => d.setReg e.1 e.2.toNat) (d.resetBlocks v t)

/-- A running test ends in a STATE: re-initialisation, BIST_BUSY, T_TIME, the RUN reply. -/
def Dev.bistEnd (d : Dev) (v : Vault) (t : Nat) (r : BistRun) (state : Nat) : Dev :=
  let d := d.bistReinit v t r
  let d := (d.onP t fun p => { p with test := false }).onBist fun b => { b with run := Tbl.set none b.run t none }
  let d := ((d.bistBusy t false).set (R.T_STATUS.STATE t) state).setReg (A.T_TIME t) (min (2 ^ 32 - 1) ((d.up - r.start) / 2000))
  match r.eng with
  | none => d
  | some e =>
    let w := replyWord stOK (d.reg (A.T_STATUS t))
    let mine (q : Req) : Bool := q.chan == 0x203 && q.cmd == 0 && q.phase == .taken && min (q.op.toNat % 64) 48 == t
    d.onE e fun x => { x with reqs := modifyFirst mine (fun q => { q with phase := .answered, rep := w }) x.reqs }

/-- R373: the test of target t, if any, is aborted. -/
def Dev.bistAbort (d : Dev) (v : Vault) (t : Nat) : Dev :=
  match d.testRun t with
  | some r => d.bistEnd v t r 4
  | none => d

/-- R373: every test is aborted. -/
def Dev.abortTests (d : Dev) (v : Vault) : Dev := (List.range 49).foldl (fun d t => d.bistAbort v t) d

/-- R375: the repairs and the faults left by a march test of target t. -/
def Dev.softRepair (d : Dev) (t : Nat) (x : BistResult) : Dev × Bool :=
  let n := min x.repaired (512 - d.bist.soft.length)
  let left := x.unrepaired + (x.repaired - n)
  let d := d.onBist fun b => { b with soft := b.soft ++ List.replicate n (t, false) }
  let d := (d.set R.REPAIR_COUNT.SOFT d.bist.soft.length).set (R.T_STATUS.REPAIRED t) (min 1023 n)
  (d.set (R.T_STATUS.UNREPAIRED t) (min 1023 left), left == 0)

/-- R374, R376: the results of one lane: failed slices, and SLICE_RES bits; only lane 0 of an octet shows the checks of the octet, and a
lane test those of the lane. -/
def Dev.laneResult (d : Dev) (v : Vault) (g : Nat) (alone : Bool) (fail : Nat) (res : Nat) : Dev × Bool :=
  let fused := match Tbl.get 0 v.spares g with | 0 => 0 | s + 1 => 2 ^ s
  let fail := fail ||| fused
  let mask := if alone then 0xC0 else if g % 8 = 0 then 0xFE else 0xD2
  let res := res &&& mask
  let d := (d.setReg (A.SLICE_FAIL_LO g) (fail % 2 ^ 32)).setReg (A.SLICE_FAIL_HI g) (fail / 2 ^ 32)
  (d.setReg (A.SLICE_RES g) (res + 1), fail == 0 && res == 0)

/-- R374: the results of an ANALOG test. -/
def Dev.analogResult (d : Dev) (v : Vault) (t : Nat) (r : BistRun) (x : BistResult) : Dev × Bool :=
  if 32 ≤ t then (d, x.pass)
  else
    let one (d : Dev) (l : Nat) : Dev × Bool :=
      let (f, s) := x.lanes.getD l (0, 0)
      d.laneResult v (8 * t + l) r.lane.isSome f.toNat s.toNat
    match r.lane with
    | some l => one d l
    | none => (List.range 8).foldl (fun (d, ok) l => let (d, b) := one d l; (d, ok && b)) (d, true)

/-- R372: a test ends with its results. -/
def Dev.bistTestEnd (d : Dev) (v : Vault) (t : Nat) (x : BistResult) : Dev :=
  match d.testRun t with
  | none => d
  | some r =>
    let (d, ok) :=
      match r.subset with
      | 0 => d.softRepair t x
      | 2 => d.analogResult v t r x
      | _ => ((d.setReg (A.T_SIG_LO t) (x.sig.toNat % 2 ^ 32)).setReg (A.T_SIG_HI t) (x.sig.toNat / 2 ^ 32), x.pass)
    d.bistEnd v t r (if ok then 2 else 3)

/-- R378: a test the ROM asks for at boot runs to its end at once. -/
def Dev.bistBoot (d : Dev) (v : Vault) (t subset : Nat) (x : BistResult) : Dev :=
  if bistAccepts t subset then (d.bistStart t subset none none).bistTestEnd v t x else d

/-! Fuses (R377). -/

/-- R377: soft repairs and software spare repairs blown; how many. -/
def fuseRepairs (d : Dev) (v : Vault) : (Dev × Vault) × Nat :=
  let soft := (d.bist.soft.filter (!·.2)).length
  let lanes := (List.range 256).filter fun g => d.get (R.SPARE_STATUS.MODE g) == 3 && !d.on (R.SPARE_STATUS.FUSED g)
  let v := lanes.foldl (fun v g => { v with spares := Tbl.set 0 v.spares g (d.get (R.SPARE_STATUS.SLICE g) + 1) }) v
  let d := lanes.foldl (fun d g => d.set (R.SPARE_STATUS.FUSED g) 1) d
  ((d.onBist fun b => { b with soft := b.soft.map fun e => (e.1, true) }, { v with repairs := v.repairs + soft }), soft + lanes.length)

/-! The commands. -/

def execBistMem (w : Via) (s : State) : Host.Outcome State Fault Refusal := s.on fun d => d.bistCommand s.vault.life 0 w

def execBistLbist (w : Via) (s : State) : Host.Outcome State Fault Refusal := s.on fun d => d.bistCommand s.vault.life 1 w

def execBistAnalog (w : Via) (s : State) : Host.Outcome State Fault Refusal := s.on fun d => d.bistCommand s.vault.life 2 w

def execBistAon (w : Via) (s : State) : Host.Outcome State Fault Refusal := s.on fun d => d.bistCommand s.vault.life 3 w

def execBistTestEnd (t : Fin 49) (x : BistResult) (s : State) : Host.Outcome State Fault Refusal :=
  s.on fun d => d.bistTestEnd s.vault t x

/-- R378 STATUS. -/
def execBistStatus (e : EngId) (s : State) : Host.Outcome State Fault Refusal :=
  s.on fun d => d.serve e 0x203 1 fun op d => rep d stOK (d.reg (A.T_STATUS (min (op % 64) 48)))

/-- R377 FUSE_REPAIRS; refused with DETAIL 1 STATE outside BLANK and MANUFACTURE. -/
def execFuseRepairs (e : EngId) (s : State) : Host.Outcome State Fault Refusal :=
  s.onV fun d v => d.serveV v e 0x203 2 fun _ d v =>
    if v.life = 0 ∨ v.life = 1 then
      let (x, n) := fuseRepairs d v
      (x, some (stOK, n))
    else repV d v stRefused 1

end Sys2Proof.Machine
end

