-- ==== Sys2Proof/Machine/FlowCmd.lean ====
section
/-! DEFINITION. The fabric's commands (spec/06, R166 to R169, R181; spec/07, R219): the channel requests of the flow engines and
the wardens, and the meanings of the fabric's events. -/

namespace Sys2Proof.Machine

/-! Installs (R166, R167). -/

/-- The lowest way of a bucket that holds no valid flow and no install in progress. -/
def Dev.freeWay (d : Dev) (b : Nat) : Option Nat :=
  ((List.range 4).map (4 * b + ·)).find? fun f => !(d.node 3 f).valid && !d.fab.inst.any (·.flow == f)

/-- The CTRL flags software gives: bits 27:20 but SPILLED (R157, R219). -/
def ctrlFlags (v : Nat) : Nat := getBits v 27 23 * 2 ^ 23 + getBits v 21 20 * 2 ^ 20

/-- R166: FL_INSTALL: taken up where the bucket has a free way, the digest is new and the parent VALID; committed later. -/
def Dev.flInstall (d : Dev) (e : Nat) : Dev :=
  d.serveBlock e 0x10 0 16 fun l _ d =>
    let h := d.hashes (l.take 64)
    let parent := blk l 64 4 % 2 ^ 18
    let (hit, d) := d.lookup h
    let pending := d.fab.inst.any fun i => i.flow / 4 == bucketOf h && (Ctx.ofWords i.words).digest == digestOf h
    if hit.isSome ∨ pending then rep d stDuplicate
    else match d.freeWay (bucketOf h) with
      | none => rep d stBucketFull
      | some f =>
        if !d.nodeValid 2 parent then rep d stNoNode
        else
          let held := blk l 69 1 != 0
          let x : Ctx := { digest := digestOf h, allow := max 1 (blk l 76 2), tci := blk l 78 2, tag := blk l 80 2, cookie := blk l 82 2,
                           ctrl := 2 ^ 31 + (if held then fsHeld else fsActive) * 2 ^ 28 + ctrlFlags (blk l 72 4) }
          let i : Inst := { eng := e, flow := f, words := x.words, parent := parent, band := min 3 (blk l 68 1),
                            weight := clampN 1 2047 (blk l 70 2) }
          (d.onF fun s => { s with inst := s.inst ++ [i] }, none)

/-- R167: INSTALL_COMMIT: the oldest install engine e has in progress is written and its result posted. -/
def Dev.installCommit (d : Dev) (e : Nat) : Dev :=
  match d.fab.inst.find? (·.eng == e) with
  | none => d
  | some i =>
    d.finish e 0x10 0 fun _ d =>
      let d := d.onF fun s => { s with inst := s.inst.eraseP (·.eng == e) }
      let d := ((List.range 8).zip i.words).foldl (fun d w => d.putWord .flow 0 0 (8 * i.flow + w.1) w.2) d
      let d := d.onN 3 i.flow fun _ => { valid := true, band := i.band, weight := i.weight, sBand := i.band, sWeight := i.weight,
                                         parent := i.parent, tokAt := d.fab.cyc }
      let d := (d.joinParent 3 i.flow).set R.FL_STATUS.FLOWS (d.get R.FL_STATUS.FLOWS + 1)
      (d.bump (Ctr.fab 6), (stOK, i.flow))

/-- FL_LOOKUP. -/
def Dev.flLookup (d : Dev) (e : Nat) : Dev :=
  d.serveBlock e 0x10 1 8 fun l _ d =>
    let (hit, d) := d.lookup (d.hashes l)
    match hit with
    | some f => rep d stOK f
    | none => rep d stNoFlow

/-- A request about flow f: NO_FLOW where it is not valid. -/
def Dev.withFlow (d : Dev) (f : Nat) (g : Ctx → Dev → Dev × Option (Nat × Nat)) : Dev × Option (Nat × Nat) :=
  match d.ctx f with
  | (some x, d) => g x d
  | (none, d) => rep d stNoFlow

/-- FL_READ. -/
def Dev.flRead (d : Dev) (e : Nat) : Dev :=
  d.serve e 0x10 2 fun op d => d.withFlow (op % 2 ^ 20) fun x d =>
    rep (d.hubWrite (e / 8) (opOffset op) (x.words.map (·, false))) stOK

/-- FL_MODIFY. -/
def Dev.flModify (d : Dev) (e : Nat) : Dev :=
  d.serveBlock e 0x10 3 4 fun l _ d =>
    let f := blk l 0 4 % 2 ^ 20
    let m := blk l 4 4
    d.withFlow f fun x d =>
      let keep := x.ctrl - ctrlFlags x.ctrl
      let y := { x with
        ctrl := if bit m 0 then keep + ctrlFlags (blk l 8 4) else x.ctrl,
        allow := if bit m 1 then max 1 (blk l 12 2) else x.allow,
        tci := if bit m 2 then blk l 14 2 else x.tci,
        tag := if bit m 3 then blk l 16 2 else x.tag,
        cookie := if bit m 4 then blk l 18 2 else x.cookie }
      rep (d.putCtx f x y) stOK

/-- FL_RELEASE. -/
def Dev.flRelease (d : Dev) (e : Nat) : Dev :=
  d.serve e 0x10 4 fun op d => d.withFlow (op % 2 ^ 20) fun x d =>
    if x.state = fsHeld then rep (d.putCtx (op % 2 ^ 20) x (x.setState fsActive)) stOK else rep d stBadState

/-- FL_REMOVE; bad is the place in the flow's list whose link (false) or descriptor (true) word fails parity as a FLUSH follows it (R161). -/
def Dev.flRemove (d : Dev) (e : Nat) (bad : Option (Nat × Bool)) : Dev :=
  d.serve e 0x10 5 fun op d =>
    let f := op % 2 ^ 20
    d.withFlow f fun x d =>
      if bit op 20 then
        let (d, x) := d.dropOnchip f x dcREMOVE_FLUSH bad
        rep ((d.flushTail f x).1.clearFlow f) stOK
      else rep (d.putCtx f x (x.setState fsRemoving)) stOK

/-- FLOW_REMOVE_COMPLETE: the context of a REMOVING flow that is empty clears. -/
def Dev.removeComplete (d : Dev) (f : Nat) : Dev :=
  match d.ctx f with
  | (some x, e) => if x.state = fsRemoving ∧ x.onchip = 0 ∧ x.sCount = 0 ∧ !(d.fab.stage.any (·.1 == f)) then e.clearFlow f else d
  | (none, e) => if (d.node 3 f).valid then e else d

/-- R166, R169, R388: a frame without its FCS copied into engine-originated cells and linked to flow f: status, first cell. -/
def Dev.enqueue (d : Dev) (f : Nat) (hd : Bool) (body : List Byte) : Dev × (Nat × Nat) :=
  match d.ctx f with
  | (none, d) => (d, (stNoFlow, 0))
  | (some x, d) =>
    if hd ∧ x.state ≠ fsHeld then (d, (stBadState, 0))
    else
      let l := body ++ le (fcsOf body) 4
      let finish (d : Dev) (spill : Bool) : Dev × (Nat × Nat) :=
        match d.storeFrame clEng l with
        | (none, d) => (d, (stNoCell, 0))
        | (some cells, d) =>
          let c := cells.headD 0
          let (v, d) := d.draw
          let d := (d.linkCells true true cells).setDesc c
            (putBits (putBits (descWord l.length clEng 0 false false 0 0) 63 0 v.toNat) 111 103 (v.toNat / 2 ^ 32))
          if hd then
            let (d, y) := d.linkHead (x.counted l.length) c (cells.getLastD 0) cells.length
            (d.putCtx f x y, (stOK, c))
          else (d.joinFlow f x spill cells l.length, (stOK, c))
      match (if hd then d.barredPath f else none) with
      | some (cause, q) => (d.dropFrame cause q, (stOK, 0))
      | none =>
      if hd then finish d false
      else match d.fate f x (cellsOf l.length) with
        | .drop cause q => (d.dropFrame cause q, (stOK, 0))
        | fate => finish d (fate == .spill)

/-- FL_ENQ. -/
def Dev.flEnq (d : Dev) (e : Nat) : Dev :=
  d.serveBlock e 0x10 6 2 fun l op d =>
    let len := clampN 64 10240 (blk l 4 2)
    let (body, bad, d) := d.hubRead (e / 8) (opOffset op) ((16 + len - 4 + 7) / 8)
    if bad then (d.onReq e 0x10 6 .sent fun r => { r with poison := true }, some (0, 0))
    else
      let (d, st, c) := d.enqueue (blk l 0 4 % 2 ^ 20) (bit (blk l 6 1) 0) ((body.drop 16).take (len - 4))
      rep d st c

/-! Punted frames (R166, R169). -/

/-- The oldest unread entry of ring c taken. -/
def Dev.popPunt (d : Dev) (c : Nat) : Nat × Dev :=
  let (wr, rd) := Tbl.get (0, 0) d.fab.rings c
  (rd, (d.onF fun x => { x with rings := Tbl.set (0, 0) x.rings c (wr, (rd + 1) % d.ringSize c) }).set (R.PUNT_STATUS.FILL c)
    (d.ringFill c - 1))

/-- R166: cluster 0 to 6 of a PUNT_POP operand; 7 is replaced by 6 (R12). -/
def puntCluster (op : Nat) : Nat := min 6 (op % 8)

/-- R169: PUNT_POP. -/
def Dev.puntPop (d : Dev) (e : Nat) : Dev :=
  d.serve e 0x11 0 fun op d =>
    let c := puntCluster op
    if d.fabTest then rep d stTestBusy
    else if 0 < d.ringFill c then (let (i, d) := d.popPunt c; rep d stOK i)
    else if d.fabMode = 1 then rep d stNotValid
    else (d, none)

/-- R169: PUNT_POP_COMPLETE: a waiting PUNT_POP of engine e completes. -/
def Dev.puntPopComplete (d : Dev) (e : Nat) : Dev :=
  match d.req e 0x11 0 .taken with
  | none => d
  | some r =>
    let c := puntCluster r.op.toNat
    if d.fabTest then d.answer e 0x11 0 .taken stTestBusy
    else if 0 < d.ringFill c then (let (i, d) := d.popPunt c; d.answer e 0x11 0 .taken stOK i)
    else d

/-- A frame no longer punted. -/
def Dev.unhold (d : Dev) (h : Nat) : Dev := d.onF fun x => { x with held := Tbl.set Held.none x.held h Held.none }

/-- R387: a punted frame given to DMA queue q; in D3hot the first frame held calls for PME (R390). -/
def Dev.puntToHost (d : Dev) (q h : Nat) : Dev :=
  if !d.on (R.Q_CTRL.EN q) ∨ d.on (R.Q_CTRL.DIR q) ∨ d.get (R.Q_CTRL.HOLD_LIM q) ≤ (d.qp q).hold.length then
    ((d.unhold h).inc (R.Q_STATUS.DROPS q)).freeCells (d.frameCells h 64)
  else
    let d := if (d.qp q).hold.isEmpty then d.noteWork else d
    (d.onF fun x => { x with held := Tbl.set Held.none x.held h { Tbl.get Held.none x.held h with st := 2 + q } }).onQ q
      fun s => { s with hold := s.hold ++ [h] }

/-- R166: PUNT_DISPOSE. A handle of no punted frame changes nothing, and its status is a free value (log 15). -/
def Dev.puntDispose (d : Dev) (e : Nat) : Dev :=
  d.serve e 0x11 1 fun op d =>
    let h := op % 2 ^ 20
    let f := getBits op 51 32
    let act := min 3 (getBits op 22 20)
    if (Tbl.get Held.none d.fab.held h).st ≠ 1 then (let (v, d) := d.draw; rep d (v.toNat % 11))
    else if act = 0 then rep ((d.unhold h).freeCells (d.frameCells h 64)) stOK
    else if act = 3 then rep (d.puntToHost (getBits op 37 32) h) stOK
    else d.withFlow f fun x d =>
      let cells := d.frameCells h 64
      let len := descLen (d.desc h)
      if act = 2 then
        if x.state ≠ fsHeld then rep d stBadState
        else match d.barredPath f with
        | some (cause, q) => rep (((d.unhold h).dropFrame cause (if q.isSome then q else d.framePort h)).freeCells cells) stOK
        | none =>
          let (d, y) := (d.unhold h).linkHead (x.counted len) h (cells.getLastD 0) cells.length
          rep (d.putCtx f x y) stOK
      else match d.fate f x cells.length with
        | .drop cause q => rep (((d.unhold h).dropFrame cause (if q.isSome then q else d.framePort h)).freeCells cells) stOK
        | fate => rep ((d.unhold h).joinFlow f x (fate == .spill) cells len) stOK

/-! Scheduler requests (R181, R219). -/

/-- SCHED_READ. -/
def Dev.schedRead (d : Dev) (e : Nat) : Dev :=
  d.serve e 0x12 0 fun op d =>
    let lvl := getBits op 21 20
    let l := d.nodeRecord lvl (clampIndex lvl (op % 2 ^ 20)) (bit op 29)
    let w (i : Nat) : Nat := l.getD i 0
    let d := d.hubWrite (e / 8) (opOffset op) [(w 0 + w 1 * 2 ^ 32, false), (w 2 + w 3 * 2 ^ 32, false), (w 4 + w 5 * 2 ^ 32, false)]
    rep (d.putPart .shared (e / 8) 0 ((opOffset op + 24) / 8 % 524288) 0 4 (w 6)) stOK

/-- SCHED_WRITE. -/
def Dev.schedWrite (d : Dev) (e : Nat) : Dev :=
  d.serveBlock e 0x12 1 4 fun l _ d =>
    let lvl := getBits (blk l 0 4) 21 20
    let (st, d) := d.nodeWrite lvl (clampIndex lvl (blk l 0 4 % 2 ^ 20)) ((List.range 5).map fun i => blk l (4 + 4 * i) 4)
    rep d st

/-- SCHED_COMMIT as a request. -/
def Dev.schedCommitReq (d : Dev) (e : Nat) : Dev :=
  d.serve e 0x12 2 fun op d =>
    let lvl := min 2 (getBits op 21 20)
    let i := clampIndex lvl (op % 2 ^ 18)
    if d.nodeValid lvl i then rep (d.chamberCommit lvl i) stOK else rep d stNoNode

/-! The commands. -/

/-- An event of the fabric: every flow and cell depends on all four quadrants (R16). -/
def Dev.liveFab (d : Dev) (f : Dev → Dev) : Dev := d.live 32 f

/-- R184: admission works on while the fabric is under self-test: it drops what arrives. -/
def Dev.liveIngress (d : Dev) (f : Dev → Dev) : Dev :=
  if [32, 33, 34, 35].all fun q => d.polder q != 2 && !(d.p q).inReset then f d else d

def execFrameIngress (o : Oct) (p : Slot) (fr : RxFrame) (s : State) : Host.Outcome State Fault Refusal :=
  s.on fun d => d.liveIngress fun d => d.live o fun d => d.ingress o p fr

def execLookupServe (o : Oct) (wait : Nat) (s : State) : Host.Outcome State Fault Refusal :=
  s.on fun d => d.liveFab fun d => d.live o fun d => d.lookupServe wait

def execSchedulerDecision (o : Oct) (p : Slot) (now : Nat) (bad : Bool) (s : State) : Host.Outcome State Fault Refusal :=
  s.on fun d => d.liveFab fun d => d.schedDecision (8 * o + p) now bad

def execFrameEgress (o : Oct) (p lane : Slot) (k : Nat) (bad : Option (Nat × Bool)) (s : State) : Host.Outcome State Fault Refusal :=
  s.on fun d => d.liveFab fun d => d.egress o p lane k bad

def execAgePromotion (lvl : Fin 4) (i : BitVec 20) (now : Nat) (s : State) : Host.Outcome State Fault Refusal :=
  s.on fun d => d.liveFab fun d => d.agePromotion lvl i.toNat now

def execPortFlush (o : Oct) (p : With Slot (Option (Nat × Nat × Bool))) (s : State) : Host.Outcome State Fault Refusal :=
  s.on fun d => d.liveFab fun d => d.portFlush o p.obj p.inp

def execSchedCommit (w : Via) (s : State) : Host.Outcome State Fault Refusal :=
  match w with
  | .reg src val => s.on fun d => d.gate src A.SCHED_COMMIT fun d => d.schedCommitReg val.toNat
  | .chan e => s.on fun d => d.schedCommitReq e

def execSchedChamberBoundary (lvl : Fin 3) (i : BitVec 18) (s : State) : Host.Outcome State Fault Refusal :=
  s.on fun d => d.liveFab fun d => d.chamberBoundary lvl i.toNat

def execSchedIndAccess (src : Src) (val : BitVec 32) (s : State) : Host.Outcome State Fault Refusal :=
  s.on fun d => d.gate src A.SCHED_IND fun d => d.schedInd val.toNat

def execSchedIndDone (s : State) : Host.Outcome State Fault Refusal := s.on fun d => d.liveFab Dev.schedIndDone

def execReclaimStart (src : Src) (val : BitVec 32) (s : State) : Host.Outcome State Fault Refusal :=
  s.on fun d => d.gate src A.FL_CTRL fun d => d.flCtrl (putBit val.toNat 16 true)

def execReclaimDone (s : State) : Host.Outcome State Fault Refusal := s.on fun d => d.liveFab Dev.reclaimDone

def execHashKeyWrite (src : Src) (w : Fin 8) (val : BitVec 32) (s : State) : Host.Outcome State Fault Refusal :=
  s.on fun d => d.gate src (A.HASH_KEY w) fun d => d.hashKeyWrite w val.toNat

def execGaugeCrossing (g : Fin 64) (s : State) : Host.Outcome State Fault Refusal := s.on fun d => d.liveFab fun d => d.gaugeStep g

def execFlInstall (e : EngId) (s : State) : Host.Outcome State Fault Refusal := s.on fun d => d.flInstall e

def execInstallCommit (e : EngId) (s : State) : Host.Outcome State Fault Refusal := s.on fun d => d.liveFab fun d => d.installCommit e

def execFlLookup (e : EngId) (s : State) : Host.Outcome State Fault Refusal := s.on fun d => d.flLookup e

def execFlRead (e : EngId) (s : State) : Host.Outcome State Fault Refusal := s.on fun d => d.flRead e

def execFlModify (e : EngId) (s : State) : Host.Outcome State Fault Refusal := s.on fun d => d.flModify e

def execFlRelease (e : EngId) (s : State) : Host.Outcome State Fault Refusal := s.on fun d => d.flRelease e

def execFlRemove (e : With EngId (Option (Nat × Bool))) (s : State) : Host.Outcome State Fault Refusal := s.on fun d => d.flRemove e.obj e.inp

def execFlowRemoveComplete (f : BitVec 20) (s : State) : Host.Outcome State Fault Refusal :=
  s.on fun d => d.liveFab fun d => d.removeComplete f.toNat

def execFlEnq (e : EngId) (s : State) : Host.Outcome State Fault Refusal := s.on fun d => d.flEnq e

def execPuntPop (e : EngId) (s : State) : Host.Outcome State Fault Refusal := s.on fun d => d.puntPop e

def execPuntPopComplete (e : EngId) (s : State) : Host.Outcome State Fault Refusal := s.on fun d => d.puntPopComplete e

def execPuntDispose (e : EngId) (s : State) : Host.Outcome State Fault Refusal := s.on fun d => d.puntDispose e

def execSchedRead (e : EngId) (s : State) : Host.Outcome State Fault Refusal := s.on fun d => d.schedRead e

def execSchedWrite (e : EngId) (s : State) : Host.Outcome State Fault Refusal := s.on fun d => d.schedWrite e

def execSpillWrite (x : SpillMeets) (s : State) : Host.Outcome State Fault Refusal :=
  s.on fun d => d.liveFab fun d => d.spillWrite x.wait x.chm x.slu

def execSpillFetch (f : With (BitVec 20) (List Nat)) (s : State) : Host.Outcome State Fault Refusal :=
  s.on fun d => d.liveFab fun d => d.spillFetch f.obj.toNat f.inp

end Sys2Proof.Machine
end

