-- ==== Sys2Proof/Machine/MemCmd.lean ====
section
/-! DEFINITION. Memory commands (spec/10): regions, arbitration, refresh, rewrite, the scrubber, the ECC test window. -/

namespace Sys2Proof.Machine

/-! The controller (R273, R274, R276, R277). -/

/-- R274: usable GiB of a DENSITY. -/
def usableGiB (density : Nat) : Nat := [14, 28, 42, 56, 84, 112].getD density 112

/-- R273, R274: a write to MEM_CFG: RATE and DENSITY only while EN = 0. Taking the controller into service shows USABLE and leaves
self-refresh; taking it out of service enters self-refresh (log 18). -/
def Dev.memCfg (d : Dev) (v : Nat) : Dev :=
  let on := d.on R.MEM_CFG.EN
  let old := d.reg A.MEM_CFG
  let v := if on then putBits (putBits v 26 24 (getBits old 26 24)) 17 16 (getBits old 17 16) else v
  let d := d.sw Row.MEM_CFG A.MEM_CFG v
  if !on ∧ d.on R.MEM_CFG.EN then
    (d.set R.MEM_STATUS.USABLE (usableGiB (d.get R.MEM_CFG.DENSITY))).set R.MEM_STATUS.SELF_REF 0
  else if on ∧ !d.on R.MEM_CFG.EN then d.set R.MEM_STATUS.SELF_REF 1
  else d

/-- A region with spillway permission covers MiB m. -/
def Dev.spillMiB (d : Dev) (m : Nat) : Bool :=
  (List.range 16).any fun k => bit (d.get (R.REGION_USE.USE k)) useSpill
    && decide (d.get (R.REGION_BASE.MIB k) ≤ m ∧ m < min (d.get (R.REGION_LIMIT.MIB k)) (d.get R.MEM_STATUS.USABLE * 1024))

/-- The MiB at which the cover of a region set can change, and the first MiB of the spill region. -/
def Dev.edges (d : Dev) : List Nat :=
  d.get R.SPILL_BASE.ADDR * 1024 :: (List.range 16).flatMap fun k => [d.get (R.REGION_BASE.MIB k), d.get (R.REGION_LIMIT.MIB k)]

/-- R277: the change from d to e would withdraw spillway permission from a byte of the spill region. -/
def Dev.withdraws (d e : Dev) : Bool :=
  let lo := d.get R.SPILL_BASE.ADDR * 1024
  let hi := lo + d.get R.SPILL_CTRL.SIZE_GIB * 1024
  (d.edges ++ e.edges).any fun m => decide (lo ≤ m ∧ m < hi) && d.spillMiB m && !e.spillMiB m

/-- R276, R277: a write to register i (0 BASE, 1 LIMIT, 2 USE) of region k. -/
def Dev.regionWrite (d : Dev) (k i v : Nat) : Dev :=
  let e :=
    if i = 0 then d.sw Row.REGION_BASE (A.REGION_BASE k) v
    else if i = 1 then
      d.sw Row.REGION_LIMIT (A.REGION_LIMIT k) (min (v % 2 ^ 17) (d.get R.MEM_STATUS.USABLE * 1024))
    else d.sw Row.REGION_USE (A.REGION_USE k) v
  if (d.on R.SPILL_CTRL.EN || d.get R.SPILL_STATUS.CELLS != 0) && d.withdraws e then d.set R.MEM_STATUS.REGION_LOCKED 1
  else e

/-- R278: what a channel's slot is granted to: the first order that waits, the oldest of it, where the thermal limit leaves one; but orders 4
and 5 get one grant in 8, 4 first. waiting lists the requesters, oldest first. -/
def grantOf (g : GrantSt) (step : Nat) (waiting : List DramReq) : Option DramReq :=
  let oldest (k : Nat) : Option DramReq := waiting.find? (·.order == k)
  let has (k : Nat) : Bool := (oldest k).isSome
  if !decide (g.used < step + 1) then oldest 1
  else if has 4 && (decide (7 ≤ g.w4) || (decide (6 ≤ g.w4) && has 5 && g.w5 == 6)) then oldest 4
  else if has 5 && decide (7 ≤ g.w5) then oldest 5
  else [1, 2, 3, 4, 5, 6, 7].findSome? oldest

/-- R333: the step in force of polder p. -/
def Dev.step (d : Dev) (p : Nat) : Nat := min (d.get (R.CAP.CAP_MAX p)) (d.get (R.CAP.STEP p))

/-- R275: the channel of a DRAM address, its channel-local offset, and the offset of the check byte of the word at local offset x, U being the
usable size of a channel. -/
def dramChannel (a : Nat) : Nat := getBits a 12 8 ^^^ getBits a 17 13
def dramOffset (a : Nat) : Nat := a / 2 ^ 13 * 2 ^ 8 + a % 2 ^ 8
def checkOffset (u x : Nat) : Nat := u + x / 8

/-- R275: the DRAM address of local offset x of channel c. -/
def dramAddr (c x : Nat) : Nat := x / 2 ^ 8 * 2 ^ 13 + (c ^^^ getBits x 12 8) * 2 ^ 8 + x % 2 ^ 8

/-- R272, R275: the DRAM words whose data or check bytes lie in the 64-byte burst b of channel c. -/
def Dev.burstWords (d : Dev) (c b : Nat) : List Nat :=
  let u := d.usable / 32
  if 64 * b < u then (List.range 8).map fun k => dramAddr c (64 * b + 8 * k) / 8
  else (((List.range 64).map fun k => 8 * (64 * b - u + k)).filter (· < u)).map fun x => dramAddr c x / 8

/-- R272: link ECC detects a transfer error it cannot correct: every word of the burst holds an uncorrectable error, until it is written anew; its
syndrome is a free one (log 120). -/
def Dev.linkError (d : Dev) (c b : Nat) : Dev :=
  (d.burstWords c b).foldl (fun d w =>
    let (v, d) := d.draw
    let s := v.toNat % 256
    { d with dram := d.dram.setSynd w (BitVec.ofNat 8 (if readingOf s = .uncorrectable then s else 3)) }) d

/-- R278, R333: channel c grants one burst; err is a burst of the channel whose transfer fails (R272). -/
def Dev.dramGrant (d : Dev) (c : Nat) (waiting : List DramReq) (err : Option Nat) : Dev :=
  if d.dramActive ∧ d.on R.MEM_CFG.EN then
    let g := Tbl.get GrantSt.reset d.mem.grant c
    let s := if g.slot = 15 then 0 else g.slot + 1
    let r := grantOf g (d.step 47) waiting
    let wait (k n : Nat) : Nat :=
      if !(waiting.any (·.order == k)) then 0
      else match r with
        | none => n
        | some x => if x.order = k then 0 else n + 1
    let used := g.used + b2n (r.any fun x => decide (2 ≤ x.order))
    let g : GrantSt := { last := r, w4 := wait 4 g.w4, w5 := wait 5 g.w5, slot := s, used := if s = 0 then 0 else used }
    let d := d.onMem fun m => { m with grant := Tbl.set GrantSt.reset m.grant c g }
    match err with
    | some b => if r.any fun x => decide (2 ≤ x.order) then d.linkError c b else d
    | none => d
  else d

/-- R280: the refresh multiplier follows the band in force and MR4. -/
def Dev.setMult (d : Dev) : Dev :=
  let b := d.get R.MEM_STATUS.BAND
  d.set R.MEM_STATUS.MULT (max (getBits (d.get R.REFRESH_CTRL.MULT_B) (2 * b + 1) (2 * b)) d.mem.mr4)

/-- R280, R336: a refresh falls due: the band of polder 47 applies from here on. -/
def Dev.refresh (d : Dev) : Dev :=
  if d.dramActive ∧ d.on R.MEM_CFG.EN ∧ !d.on R.MEM_STATUS.SELF_REF then
    (d.set R.MEM_STATUS.BAND (d.get (R.CAP.BAND 47))).setMult
  else d

/-- R280: MR4 read on every channel: the largest exponent reported, and whether a device is above its range. -/
def Dev.mr4Read (d : Dev) (mult : Nat) (hot : Bool) : Dev :=
  if d.dramActive ∧ d.on R.MEM_CFG.EN ∧ !d.on R.MEM_STATUS.SELF_REF then
    let d := d.onMem fun m => { m with mr4 := if hot then 3 else min 3 mult }
    (if hot then (d.set R.MEM_STATUS.HOT 1).memEvt 32 else d).setMult
  else d

/-! One word of a space (R288, R291). -/

/-- The polder that holds a space. -/
def Space.polder (sp : Space) (c : Nat) : Nat :=
  match sp with
  | .dram => 47
  | .flow | .cell => 32
  | .loc | .shared => clPolder c

/-- The legal word index nearest to idx. -/
def Dev.clampIdx (d : Dev) (sp : Space) (idx : Nat) : Nat :=
  let n := if sp = .dram ∧ d.usable ≠ 0 then d.usable / 8 else sp.words
  min idx (n - 1)

/-- R288: the polder takes the access: ACTIVE or IDLE (returning on demand for DRAM), open and not under test. -/
def Dev.wordOpen (d : Dev) (sp : Space) (c : Nat) : Bool :=
  let p := sp.polder c
  (d.barredPolder p).isNone &&
    (polderGroup p).all fun q => d.polder q == 0 || d.polder q == 1 || (q == 47 && d.pwr.demand)

/-- R288: the rewrite of one word: the state and RESULT. -/
def Dev.rewriteWord (d : Dev) (sp : Space) (c e idx : Nat) : Dev × Nat :=
  let (v, r) := (d.store sp).read (sp.word c e idx)
  let d := d.countEcc sp c e idx r
  match r with
  | .clean => (d, 1)
  | .single => (d.putWord sp c e idx v, 2)
  | .uncorrectable => (d, 3)
  | .poisoned => (d, 4)

/-- R288: a write to REWRITE_CTRL. -/
def Dev.rewriteCtrl (d : Dev) (v : Nat) : Dev :=
  let busy := d.on R.REWRITE_CTRL.BUSY
  let d := d.sw Row.REWRITE_CTRL A.REWRITE_CTRL v
  if busy ∨ !bit v 31 then d
  else
    let sp := Space.ofCode (d.get R.REWRITE_CTRL.SPACE)
    let c := d.get R.REWRITE_CTRL.CLUSTER
    let e := d.get R.REWRITE_CTRL.ENGINE
    let idx := d.clampIdx sp (d.get R.REWRITE_ADDR_HI.INDEX * 2 ^ 32 + d.reg A.REWRITE_ADDR_LO)
    if !d.wordOpen sp c then d.set R.REWRITE_CTRL.RESULT 5
    else if sp = .dram ∧ !d.dramActive then
      let d := (d.set R.REWRITE_CTRL.BUSY 1).demand
      d.onMem fun m => { m with rw := some idx }
    else
      let (d, r) := d.rewriteWord sp c e idx
      d.set R.REWRITE_CTRL.RESULT r

/-- R288: a rewrite that waited for the DRAM completes. -/
def Dev.rewriteDone (d : Dev) : Dev :=
  match d.mem.rw with
  | some idx =>
    if d.dramActive then
      let (d, r) := d.rewriteWord .dram 0 0 idx
      let d := (d.set R.REWRITE_CTRL.RESULT r).set R.REWRITE_CTRL.BUSY 0
      d.onMem fun m => { m with rw := none }
    else d
  | none => d

/-- R361: the ECC test window is open in this life-cycle state. -/
def Dev.ecctOpen (d : Dev) (life : Nat) : Bool :=
  life == 0 || life == 1 || life == 4 || ((life == 2 || life == 3) && d.get R.DBG_STATUS.LEVEL == 2)

/-- R291: the raw access to one word. -/
def Dev.ecctWord (d : Dev) (sp : Space) (c e idx : Nat) (write : Bool) (data : DWord) (check : Byte) : Dev :=
  let w := sp.word c e idx
  let st := d.store sp
  let d :=
    if write then
      d.setStore sp ((st.putWord w data.toNat).setSynd w (BitVec.ofNat 8 (check.toNat ^^^ checkByte data.toNat)))
    else
      let v := st.raw w
      let s := (st.syndrome w).toNat
      let d := (d.setReg A.ECCT_DATA_LO (v % 2 ^ 32)).setReg A.ECCT_DATA_HI (v / 2 ^ 32)
      (d.set R.ECCT_CHECK.SYND s).set R.ECCT_CHECK.CHECK (s ^^^ checkByte v)
  (d.set R.ECCT_CTRL.RESULT 1).set R.ECCT_CTRL.BUSY 0

/-- R291: a write to ECCT_CTRL. -/
def Dev.ecctCtrl (d : Dev) (life v : Nat) : Dev :=
  let busy := d.on R.ECCT_CTRL.BUSY
  let d := d.sw Row.ECCT_CTRL A.ECCT_CTRL v
  if busy ∨ !bit v 31 then d
  else
    let sp := Space.ofCode (d.get R.ECCT_CTRL.SPACE)
    let c := d.get R.ECCT_CTRL.CLUSTER
    let e := d.get R.ECCT_CTRL.ENGINE
    let idx := d.clampIdx sp (d.get R.ECCT_ADDR_HI.INDEX * 2 ^ 32 + d.reg A.ECCT_ADDR_LO)
    let write := d.on R.ECCT_CTRL.WRITE
    let data : DWord := BitVec.ofNat 64 (d.reg A.ECCT_DATA_HI * 2 ^ 32 + d.reg A.ECCT_DATA_LO)
    let check : Byte := BitVec.ofNat 8 (d.get R.ECCT_CHECK.CHECK)
    if !d.ecctOpen life ∨ !d.wordOpen sp c then d.set R.ECCT_CTRL.RESULT 2
    else if sp = .dram ∧ !d.dramActive then
      let d := (d.set R.ECCT_CTRL.BUSY 1).demand
      d.onMem fun m => { m with ecct := some (write, idx, data, check) }
    else d.ecctWord sp c e idx write data check

/-- R291: a test access that waited for the DRAM takes place. -/
def Dev.ecctDone (d : Dev) : Dev :=
  match d.mem.ecct with
  | some (write, idx, data, check) =>
    let d := d.ecctWord .dram 0 0 idx write data check
    d.onMem fun m => { m with ecct := none }
  | none => d

/-! The scrubber (R289, R290). -/

/-- The words of a space the scrubber reads in a lap. -/
def Dev.scrubWords (d : Dev) : Space → Nat
  | .dram => d.usable / 8
  | .flow => 8388608
  | .cell => 0
  | .loc => 96 * 32768
  | .shared => 12 * 524288

/-- The words of a space that share the polder of word n: how many there are, and the polder. -/
def Dev.scrubPart (d : Dev) (sp : Space) (n : Nat) : Nat × Nat :=
  match sp with
  | .loc => (8 * 32768, clPolder (n / (8 * 32768)))
  | .shared => (524288, clPolder (n / 524288))
  | _ => (d.scrubWords sp, sp.polder 0)

/-- R289: a polder the scrubber passes over. -/
def Dev.scrubSkips (d : Dev) (p : Nat) : Bool :=
  (polderGroup p).any (fun q => !d.awake q) || (p == 47 && (d.on R.MEM_STATUS.SELF_REF || !d.dramActive))

/-- The next word of a space, from n on, whose polder is not passed over; the space's end where there is none. -/
def Dev.scrubFrom (d : Dev) (sp : Space) (n : Nat) : Nat → Nat
  | 0 => n
  | k + 1 =>
    if d.scrubWords sp ≤ n then d.scrubWords sp
    else
      let (len, p) := d.scrubPart sp n
      if d.scrubSkips p then Dev.scrubFrom d sp ((n / len + 1) * len) k else n

/-- R289: a lap ends once every enabled space has been passed. -/
def Dev.lapEnd (d : Dev) : Dev :=
  let on := [Space.dram, .flow, .loc, .shared].filter fun sp => bit (d.get R.SCRUB_CTRL.EN) sp.code
  if on.all fun sp => d.scrubWords sp ≤ Tbl.get 0 d.mem.scrub sp.code then
    let ms := min (2 ^ 32 - 1) ((d.up - d.mem.lapAt) / 2000000)
    let d := on.foldl (fun d sp =>
      ((d.incW (R.SCRUB_LAPNO.COUNT sp.code)).setReg (A.SCRUB_LAPTIME sp.code) ms).bump (7190 + sp.code)) d
    d.onMem fun m => { m with scrub := [], lapAt := d.up }
  else d

/-- R290: the scrubber's uncorrectable word is logged. -/
def Dev.scrubLog (d : Dev) (sp : Space) (c e idx : Nat) : Dev :=
  let d := d.memEvt 8
  if 16 ≤ d.mem.log.length then d.inc R.SCRUB_LOG_STATUS.OVF
  else
    let w := sp.code * 2 ^ 28 + c * 2 ^ 24 + e * 2 ^ 21 + d.get (R.SCRUB_LAPNO.COUNT sp.code) % 65536
    let d := d.onMem fun m => { m with log := d.mem.log ++ [(w, idx)] }
    d.set R.SCRUB_LOG_STATUS.FILL d.mem.log.length

/-- R289, R290: the scrubber reads the next word of a space; words are passed in ascending order (log 19). raced: another agent writes
the word before the scrubber's own write. -/
def Dev.scrubRead (d : Dev) (sp : Space) (raced : Bool) : Dev :=
  if sp = .cell ∨ !bit (d.get R.SCRUB_CTRL.EN) sp.code then d
  else
    let n := d.scrubFrom sp (Tbl.get 0 d.mem.scrub sp.code) 16
    let put (d : Dev) (n : Nat) : Dev := d.onMem fun m => { m with scrub := Tbl.set 0 d.mem.scrub sp.code n }
    if d.scrubWords sp ≤ n then (put d n).lapEnd
    else
      let (c, e, idx) := match sp with
        | .loc => (n / (8 * 32768), n / 32768 % 8, n % 32768)
        | .shared => (n / 524288, 0, n % 524288)
        | _ => (0, 0, n)
      let eng := d.e (8 * c + e)
      if sp = .loc ∧ idx < 8192 ∧ (eng.st = .running ∨ eng.st = .loading) then d
      else
        let (v, r) := (d.store sp).read (sp.word c e idx)
        let d := match r with
          | .clean => d
          | .single =>
            let d := d.countEcc sp c e idx r
            if d.on R.SCRUB_CTRL.FIX_CE ∧ !raced then d.putWord sp c e idx v else d
          | .uncorrectable =>
            if raced then d.countEcc sp c e idx r
            else ((d.countEcc sp c e idx r).scrubLog sp c e idx).putWordP sp c e idx v true
          | .poisoned => d.countEcc sp c e idx r
        (put d (d.scrubFrom sp (n + 1) 16)).lapEnd

/-- R290: a read of SCRUB_LOG_0 pops the oldest entry and latches its word index. -/
def Dev.scrubPop (d : Dev) : Nat × Dev :=
  match d.mem.log with
  | (w, idx) :: t =>
    let d := (d.setReg A.SCRUB_LOG_1 (idx % 2 ^ 32)).setReg A.SCRUB_LOG_2 (idx / 2 ^ 32)
    let d := d.onMem fun m => { m with log := t }
    (2 ^ 31 + w, d.set R.SCRUB_LOG_STATUS.FILL t.length)
  | [] => (0, d)

/-! The commands. -/

def execRegionWrite (src : Src) (k : Fin 16) (which : Fin 3) (val : BitVec 32) (s : State) : Host.Outcome State Fault Refusal :=
  s.on fun d => d.gate src (A.REGION_BASE k + 4 * which) fun d => d.regionWrite k which val.toNat

def execDramGrant (c : With (Fin 32) (Option Nat)) (waiting : List DramReq) (s : State) : Host.Outcome State Fault Refusal :=
  s.on fun d => d.dramGrant c.obj waiting c.inp

def execRefresh (s : State) : Host.Outcome State Fault Refusal := s.on fun d => d.refresh

def execMr4Read (mult : Fin 4) (hot : Bool) (s : State) : Host.Outcome State Fault Refusal := s.on fun d => d.mr4Read mult hot

/-- R288: a write of REWRITE_CTRL with GO = 1. -/
def execRewrite (src : Src) (val : BitVec 32) (s : State) : Host.Outcome State Fault Refusal :=
  s.on fun d => d.gate src A.REWRITE_CTRL fun d => d.rewriteCtrl (putBit val.toNat 31 true)

def execRewriteDone (s : State) : Host.Outcome State Fault Refusal := s.on fun d => d.rewriteDone

def execScrubRead (space : Fin 5) (raced : Bool) (s : State) : Host.Outcome State Fault Refusal :=
  s.on fun d => d.scrubRead (Space.ofCode space) raced

/-- R291: a write of ECCT_CTRL with GO = 1. -/
def execEccTestAccess (src : Src) (val : BitVec 32) (s : State) : Host.Outcome State Fault Refusal :=
  s.on fun d => d.gate src A.ECCT_CTRL fun d => d.ecctCtrl s.vault.life (putBit val.toNat 31 true)

def execScrubLogPop (src : Src) (s : State) : Host.Outcome State Fault Refusal :=
  s.on fun d => d.gateRead src A.SCRUB_LOG_0 Dev.scrubPop

end Sys2Proof.Machine
end

