-- ==== Sys2Proof/Machine/Host.lean ====
section
/-! DEFINITION. The host interface (spec/15, R380 to R391): the DMA queue pairs, BAR2, INTA and PME, the function reset. -/

namespace Sys2Proof.Machine

/-! Rings (R386). -/

/-- The entries of queue q's submission and completion rings. -/
def Dev.sqLen (d : Dev) (q : Nat) : Nat := 2 ^ d.get (R.Q_CTRL.SQ_SIZE q)
def Dev.cqLen (d : Dev) (q : Nat) : Nat := 2 ^ d.get (R.Q_CTRL.CQ_SIZE q)

/-- A submission waits to be read. -/
def Dev.sqReady (d : Dev) (q : Nat) : Bool := d.get (R.Q_SQ_HEAD.IDX q) != d.get (R.Q_SQ_TAIL.IDX q)

/-- The completion ring is full. -/
def Dev.cqFull (d : Dev) (q : Nat) : Bool := (d.get (R.Q_CQ_TAIL.IDX q) + 1) % d.cqLen q == d.get (R.Q_CQ_HEAD.IDX q)

/-- R386: a write of Q_SQ_TAIL or Q_CQ_HEAD: below the ring's size (R392). -/
def Dev.sqDoorbell (d : Dev) (q v : Nat) : Dev := d.set (R.Q_SQ_TAIL.IDX q) (min (v % 4096) (d.sqLen q - 1))
def Dev.cqHead (d : Dev) (q v : Nat) : Dev := d.set (R.Q_CQ_HEAD.IDX q) (min (v % 4096) (d.cqLen q - 1))

/-- R391: what writing EN = 0 does. -/
def Dev.stopQueue (d : Dev) (q : Nat) : Dev :=
  let l := (d.qp q).hold
  let d := l.foldl (fun d h => (d.unhold h).freeCells (d.frameCells h 64)) d
  let d := (d.inc (R.Q_STATUS.DROPS q) l.length).onQ q fun _ => QSt.reset
  let d := (d.set (R.Q_SQ_TAIL.IDX q) 0).set (R.Q_SQ_HEAD.IDX q) 0
  let d := (d.set (R.Q_CQ_TAIL.IDX q) 0).set (R.Q_CQ_HEAD.IDX q) 0
  ((d.set (R.Q_STATUS.STOPPED q) 0).set (R.Q_STATUS.SIGNAL q) 0).set (R.Q_CTRL.EN q) 0

/-- R386, R391: a write of Q_CTRL: its other fields are taken only while EN = 0. -/
def Dev.qCtrl (d : Dev) (q v : Nat) : Dev :=
  let d' := if d.on (R.Q_CTRL.EN q) then d else d.sw Row.Q_CTRL (A.Q_CTRL q) v
  if bit v 31 then d' else d'.stopQueue q

/-- R386: a write of a ring base: taken only while EN = 0. -/
def Dev.ringBase (d : Dev) (row : RegRow) (a q v : Nat) : Dev := if d.on (R.Q_CTRL.EN q) then d else d.sw row a v

/-! Signals (R389, R390). -/

/-- R389: queue q signals. -/
def Dev.signalQueue (d : Dev) (q : Nat) : Dev :=
  (d.set (R.Q_STATUS.SIGNAL q) 1).onQ q fun s => { s with u := 0, timer := false }

/-- R389: queue q has written one more completion: the timer starts with the first, and COUNT of them signal. -/
def Dev.countDone (d : Dev) (q : Nat) : Dev :=
  let n := (d.qp q).u + 1
  let d := d.onQ q fun s => { s with u := n, timer := true }
  if d.get (R.Q_MOD.COUNT q) ≤ n then d.signalQueue q else d

/-- R390: enabled queue q gives a reason to wake the host. -/
def Dev.queueWork (d : Dev) (q : Nat) : Bool :=
  d.on (R.Q_CTRL.EN q) && (decide (0 < (d.qp q).u) || d.on (R.Q_STATUS.SIGNAL q) || !(d.qp q).hold.isEmpty
    || (d.on (R.Q_CTRL.DIR q) && d.sqReady q && d.cqFull q))

/-- R389: the timer of queue q expires. -/
def Dev.timerExpiry (d : Dev) (q : Nat) : Dev := if (d.qp q).timer then (d.signalQueue q).noteWork else d

/-- R391: a request of queue q fails: the queue stops. -/
def Dev.queueStop (d : Dev) (q : Nat) : Dev :=
  if d.on (R.Q_CTRL.EN q) then (d.set (R.Q_STATUS.STOPPED q) 1).orF R.HOST_EVT.EVT 64 else d

/-! Delivery and injection (R387, R388). -/

/-- Queue q may issue requests in a direction: enabled, not stopped, D0, a submission to use and room for its completion. -/
def Dev.queueRuns (d : Dev) (q : Nat) (dir : Bool) : Bool :=
  d.on (R.Q_CTRL.EN q) && d.on (R.Q_CTRL.DIR q) == dir && !d.on (R.Q_STATUS.STOPPED q) && d.get R.HOST_STATUS.PSTATE == 0
    && d.sqReady q && !d.cqFull q

/-- R386: a completion entry but for PHASE. -/
structure Cpl where
  cookie : Nat
  len : Nat
  status : Nat := 0
  poison : Bool := false
  trunc : Bool := false
  stepped : Bool := false
  time : Nat := 0
  reason : Nat := 0
  port : Nat := 0
  hit : Nat := 0

/-- The 32 bytes of a completion. -/
def Cpl.bytes (c : Cpl) (phase : Bool) : List Byte :=
  bytesLE c.cookie 4 ++ bytesLE c.len 2 ++ bytesLE c.status 1
    ++ bytesLE (b2n phase + 2 * b2n c.poison + 4 * b2n c.trunc + 8 * b2n c.stepped) 1
    ++ bytesLE c.time 8 ++ bytesLE c.reason 1 ++ bytesLE c.port 1 ++ bytesLE 0 2 ++ bytesLE c.hit 4 ++ bytesLE 0 8

/-- R386, R389: queue q writes a completion, after the writes given; both rings advance. -/
def Dev.complete (d : Dev) (q : Nat) (c : Cpl) (wrs : List (Nat × List Byte)) : Dev :=
  let t := d.get (R.Q_CQ_TAIL.IDX q)
  let base := d.reg (A.Q_CQ_BASE_HI q) * 2 ^ 32 + d.reg (A.Q_CQ_BASE_LO q)
  let d := d.onHost fun h => { h with wrs := wrs ++ [(base + 32 * t, c.bytes ((d.qp q).lap % 2 == 0))] }
  let d := d.set (R.Q_SQ_HEAD.IDX q) ((d.get (R.Q_SQ_HEAD.IDX q) + 1) % d.sqLen q)
  let n := (t + 1) % d.cqLen q
  let d := (d.set (R.Q_CQ_TAIL.IDX q) n).onQ q fun s => { s with lap := if n = 0 then s.lap + 1 else s.lap }
  d.countDone q

/-- R387: the oldest frame held for queue q goes to the buffer of the submission entry x. -/
def Dev.deliverFrame (d : Dev) (q : Nat) (x : List Byte) : Dev :=
  match d.queueRuns q false, (d.qp q).hold with
  | true, h :: rest =>
    let k := Tbl.get Held.none d.fab.held h
    let desc := d.desc h
    let cells := d.frameCells h 64
    let room := clampN 256 16384 (blk x 8 4)
    let (l, bad, d) := d.frameData cells (descLen desc)
    let d := ((d.unhold h).onQ q fun s => { s with hold := rest }).freeCells cells
    d.complete q
      { cookie := blk x 16 4, len := l.length, poison := bad, trunc := decide (room < l.length), stepped := bit desc 103,
        time := getBits desc 63 0, reason := k.reason, port := descPort desc, hit := k.hit }
      [(blk x 0 8, l.take room)]
  | _, _ => d

/-- R388: the submitted frame of entry x, as read from host memory, is linked to its flow. While its cells are refused the part waits. -/
def Dev.injectFrame (d : Dev) (q : Nat) (x : List Byte) (fr : FrameRead) : Dev :=
  if !d.queueRuns q true then d
  else
    let len := clampN 64 10240 (blk x 12 2)
    let done (d : Dev) (st : Nat) : Dev := d.complete q { cookie := blk x 16 4, len := len, status := st } []
    match fr with
    | none => done d stPoison
    | some l =>
      match d.barredPolder 32 with
      | some 3 => done d stTestBusy
      | some _ => done d stTargetReset
      | none =>
        let (e, st, _) := d.enqueue (blk x 8 4 % 2 ^ 20) (bit (blk x 8 4) 24) ((l ++ List.replicate (len - 4) 0).take (len - 4))
        if st = stNoCell then d else done e st

/-! BAR2 (R382, R383). -/

/-- The bytes a BAR2 access covers. -/
def B2Req.len (r : B2Req) : Nat :=
  match r.op with
  | .read n => n
  | .write l => l.length

/-- Bytes written one by one from address a on; none where not enabled (R279). -/
def Dev.putEnabled (d : Dev) (a : Nat) : List (Option Byte) → Dev
  | [] => d
  | b :: t => Dev.putEnabled (match b with | some b => d.putPart .dram 0 0 (a / 8) (a % 8) 1 b.toNat | none => d) (a + 1) t

/-- A BAR2 write: words covered whole are written whole. The first argument bounds the number of words. -/
def Dev.bar2Put (d : Dev) (a : Nat) : Nat → List (Option Byte) → Dev
  | 0, _ => d
  | _, [] => d
  | n + 1, l =>
    let k := min (8 - a % 8) l.length
    let w := l.take k
    let d := if k = 8 ∧ w.all (·.isSome) then d.putWord .dram 0 0 (a / 8) (leNat (w.map (·.getD 0))) else d.putEnabled a w
    Dev.bar2Put d (a + k) n (l.drop k)

/-- A BAR2 access completes. -/
def Dev.bar2Done (d : Dev) (st : Nat) (l : List Byte := []) : Dev := d.onHost fun h => { h with b2 := { st := st, bytes := l } }

/-- The DRAM address of a BAR2 access (R382). -/
def B2Req.addr (r : B2Req) : Nat := r.page + r.off

/-- R383, R394: a BAR2 access that reaches the DRAM. -/
def Dev.bar2Run (d : Dev) (r : B2Req) : Dev :=
  match r.op with
  | .read n =>
    let (l, bad, d) := d.getBytes .dram 0 0 r.addr n
    if bad then (d.logErr 1 0 0 8 r.off).bar2Done 3 l else d.bar2Done 1 l
  | .write l => (d.bar2Put r.addr l.length l).bar2Done 1

/-- R382, R383: a BAR2 access: Unsupported Request with its log entry, a wait for the DRAM, or the access. -/
def Dev.bar2 (d : Dev) (off : Nat) (op : B2Op) : Dev :=
  let r : B2Req := { off := off, page := d.get R.BAR2_PAGE.BASE * 2 ^ 30, op := op }
  let ur (d : Dev) (code : Nat) : Dev := (d.logErr 1 0 0 code off).bar2Done 2
  if !d.on R.HOST_CTRL.BAR2_EN ∨ !d.on R.MEM_CFG.EN ∨ d.usable < r.addr + r.len then ur d 6
  else if !d.admits useBar2 r.addr r.len then ur d.regionViol 5
  else match d.barredPolder 47 with
    | some c => ur d c
    | none => if d.dramActive then d.bar2Run r else d.demand.onHost fun h => { h with b2wait := h.b2wait ++ [r] }

/-- R316: the DRAM polder is ACTIVE again: what waited for it proceeds, oldest first. -/
def Dev.dramWake (d : Dev) : Dev :=
  let d := d.dramUp
  if d.dramActive then
    let l := d.host.b2wait
    let d := d.onHost fun h => { h with b2wait := [] }
    l.foldl Dev.bar2Run d.ecctDone
  else d

/-! The PCIe function (R381, R384, R390, R397). -/

/-- PCIE_LINK_UP: SPEED 1 to 5 and WIDTH. -/
def Dev.linkUp (d : Dev) (speed width : Nat) : Dev :=
  let d := ((d.set R.HOST_STATUS.LINK_UP 1).set R.HOST_STATUS.SPEED speed).set R.HOST_STATUS.WIDTH width
  (d.orF R.HOST_EVT.EVT 4).syncInta

/-- R390: the function enters D3hot. -/
def Dev.d3Entry (d : Dev) : Dev :=
  if d.get R.HOST_STATUS.PSTATE = 0 then
    let d := (d.set R.HOST_STATUS.PSTATE 3).orF R.HOST_EVT.EVT 16
    if (List.range 64).any d.queueWork then d.raisePme else d
  else d

/-- R390: the function returns to D0. -/
def Dev.d0Entry (d : Dev) : Dev :=
  if d.get R.HOST_STATUS.PSTATE = 3 then ((d.set R.HOST_STATUS.PSTATE 0).orF R.HOST_EVT.EVT 32).syncInta else d

/-- R390: PM_PME is resent. -/
def Dev.pmeResend (d : Dev) : Dev :=
  if d.get R.HOST_STATUS.PSTATE = 3 ∧ d.on R.HOST_STATUS.PME_STATUS ∧ d.host.pmeEn then
    d.onHost fun h => { h with pmeSent := h.pmeSent + 1 }
  else d

/-- R381: a configuration request. -/
def Dev.config (d : Dev) (r : CfgReq) : Dev :=
  if !d.host.ready then d.onHost fun h => { h with retry := true }
  else
    let d := d.onHost fun h => { h with retry := false }
    match r with
    | .other => d
    | .command b => (d.onHost fun h => { h with intDis := b }).syncInta
    | .pmcsr en clear =>
      let d := d.onHost fun h => { h with pmeEn := en }
      if clear then d.set R.HOST_STATUS.PME_STATUS 0 else d

/-- R397: what a reset of the function resets; lost: the link goes down with it. -/
def Dev.functionReset (d : Dev) (lost : Bool) : Dev :=
  let d := (List.range 64).foldl Dev.stopQueue d
  let d := d.onHost fun h => { h with intDis := false, pmeEn := false, b2wait := [], inta := false, retry := false }
  let d := d.setReg A.BAR2_PAGE 0
  let d := if lost then d.setReg A.HOST_STATUS 0 else (d.set R.HOST_STATUS.PSTATE 0).set R.HOST_STATUS.PME_STATUS 0
  (d.orF R.HOST_EVT.EVT (if lost then 2 else 8)).flushTarget 8

/-- R394: a read of ERR_LOG_0 pops the oldest entry and shows its offset in ERR_LOG_1. -/
def Dev.errPop (d : Dev) : Nat × Dev :=
  match d.errLog with
  | (w, a) :: t => (w, { d.setReg A.ERR_LOG_1 a with errLog := t })
  | [] => (0, d)

/-! The commands. -/

def execBar2Access (off : BitVec 34) (op : B2Op) (s : State) : Host.Outcome State Fault Refusal := s.on fun d => d.bar2 off.toNat op

def execSqDoorbell (src : Src) (q : Fin 64) (val : BitVec 32) (s : State) : Host.Outcome State Fault Refusal :=
  s.on fun d => d.gate src (A.Q_SQ_TAIL q) fun d => d.sqDoorbell q val.toNat

def execCqHeadWrite (src : Src) (q : Fin 64) (val : BitVec 32) (s : State) : Host.Outcome State Fault Refusal :=
  s.on fun d => d.gate src (A.Q_CQ_HEAD q) fun d => d.cqHead q val.toNat

/-- R386: a write of Q_CTRL with EN = 1. -/
def execQueueEnable (src : Src) (q : Fin 64) (val : BitVec 32) (s : State) : Host.Outcome State Fault Refusal :=
  s.on fun d => d.gate src (A.Q_CTRL q) fun d => d.qCtrl q (putBit val.toNat 31 true)

/-- R391: a write of Q_CTRL with EN = 0. -/
def execQueueDisable (src : Src) (q : Fin 64) (val : BitVec 32) (s : State) : Host.Outcome State Fault Refusal :=
  s.on fun d => d.gate src (A.Q_CTRL q) fun d => d.qCtrl q (putBit val.toNat 31 false)

def execHostFrameDelivery (q : Fin 64) (entry : BitVec 256) (s : State) : Host.Outcome State Fault Refusal :=
  s.on fun d => d.liveFab fun d => d.deliverFrame q (bytesLE entry.toNat 32)

def execHostFrameInject (q : Fin 64) (entry : BitVec 256) (fr : FrameRead) (s : State) : Host.Outcome State Fault Refusal :=
  s.on fun d => d.injectFrame q (bytesLE entry.toNat 32) fr

def execQueueTimerExpiry (q : Fin 64) (s : State) : Host.Outcome State Fault Refusal := s.on fun d => d.timerExpiry q

def execQueueStop (q : Fin 64) (s : State) : Host.Outcome State Fault Refusal := s.on fun d => d.queueStop q

def execD3hotEntry (s : State) : Host.Outcome State Fault Refusal := s.on Dev.d3Entry

def execD0Entry (s : State) : Host.Outcome State Fault Refusal := s.on Dev.d0Entry

def execPmeResend (s : State) : Host.Outcome State Fault Refusal := s.on Dev.pmeResend

def execConfigurationRequest (r : CfgReq) (s : State) : Host.Outcome State Fault Refusal := s.on fun d => d.config r

def execPcieLinkUp (speed : Fin 5) (width : Fin 4) (s : State) : Host.Outcome State Fault Refusal :=
  s.on fun d => d.linkUp (speed + 1) (2 ^ width.val)

/-- kind: 0 PCIE_PERST_N, 1 hot reset, 2 link down, 3 Function Level Reset. -/
def execFunctionReset (kind : Fin 4) (s : State) : Host.Outcome State Fault Refusal := s.on fun d => d.functionReset (decide (kind.val ≠ 3))

def execErrLogPop (src : Src) (s : State) : Host.Outcome State Fault Refusal := s.on fun d => d.gateRead src A.ERR_LOG_0 Dev.errPop

def execDramWakeDone (s : State) : Host.Outcome State Fault Refusal := s.on Dev.dramWake

end Sys2Proof.Machine
end

