-- ==== Sys2Proof/Machine/Crypto.lean ====
section
/-! DEFINITION. The algorithms spec/13 names by their standards (R341, R348, R351): SHA-384 of FIPS 180-4, HMAC of FIPS 198-1,
ECDSA verification over P-384 of FIPS 186-5, AES-256-GCM of SP 800-38D. Their content is taken from those standards (log 17). -/

namespace Sys2Proof.Machine

/-! SHA-384. -/

/-- The 80 round constants. -/
def shaK : List DWord :=
  [0x428A2F98D728AE22, 0x7137449123EF65CD, 0xB5C0FBCFEC4D3B2F, 0xE9B5DBA58189DBBC,
   0x3956C25BF348B538, 0x59F111F1B605D019, 0x923F82A4AF194F9B, 0xAB1C5ED5DA6D8118,
   0xD807AA98A3030242, 0x12835B0145706FBE, 0x243185BE4EE4B28C, 0x550C7DC3D5FFB4E2,
   0x72BE5D74F27B896F, 0x80DEB1FE3B1696B1, 0x9BDC06A725C71235, 0xC19BF174CF692694]
  ++ [0xE49B69C19EF14AD2, 0xEFBE4786384F25E3, 0x0FC19DC68B8CD5B5, 0x240CA1CC77AC9C65,
   0x2DE92C6F592B0275, 0x4A7484AA6EA6E483, 0x5CB0A9DCBD41FBD4, 0x76F988DA831153B5,
   0x983E5152EE66DFAB, 0xA831C66D2DB43210, 0xB00327C898FB213F, 0xBF597FC7BEEF0EE4,
   0xC6E00BF33DA88FC2, 0xD5A79147930AA725, 0x06CA6351E003826F, 0x142929670A0E6E70]
  ++ [0x27B70A8546D22FFC, 0x2E1B21385C26C926, 0x4D2C6DFC5AC42AED, 0x53380D139D95B3DF,
   0x650A73548BAF63DE, 0x766A0ABB3C77B2A8, 0x81C2C92E47EDAEE6, 0x92722C851482353B,
   0xA2BFE8A14CF10364, 0xA81A664BBC423001, 0xC24B8B70D0F89791, 0xC76C51A30654BE30,
   0xD192E819D6EF5218, 0xD69906245565A910, 0xF40E35855771202A, 0x106AA07032BBD1B8]
  ++ [0x19A4C116B8D2D0C8, 0x1E376C085141AB53, 0x2748774CDF8EEB99, 0x34B0BCB5E19B48A8,
   0x391C0CB3C5C95A63, 0x4ED8AA4AE3418ACB, 0x5B9CCA4F7763E373, 0x682E6FF3D6B2B8A3,
   0x748F82EE5DEFB2FC, 0x78A5636F43172F60, 0x84C87814A1F0AB72, 0x8CC702081A6439EC,
   0x90BEFFFA23631E28, 0xA4506CEBDE82BDE9, 0xBEF9A3F7B2C67915, 0xC67178F2E372532B]
  ++ [0xCA273ECEEA26619C, 0xD186B8C721C0C207, 0xEADA7DD6CDE0EB1E, 0xF57D4F7FEE6ED178,
   0x06F067AA72176FBA, 0x0A637DC5A2C898A6, 0x113F9804BEF90DAE, 0x1B710B35131C471B,
   0x28DB77F523047D84, 0x32CAAB7B40C72493, 0x3C9EBE0A15C9BEBC, 0x431D67C49C100D4C,
   0x4CC5D4BECB3E42B6, 0x597F299CFC657E2A, 0x5FCB6FAB3AD6FAEC, 0x6C44198C4A475817]

/-- The initial hash value. -/
def shaInit : List DWord :=
  [0xCBBB9D5DC1059ED8, 0x629A292A367CD507, 0x9159015A3070DD17, 0x152FECD8F70E5939,
   0x67332667FFC00B31, 0x8EB44A8768581511, 0xDB0C2E0D64F98FA7, 0x47B5481DBEFA4FA4]

/-- σ0 of the message schedule. -/
def shaS0 (x : DWord) : DWord := x.rotateRight 1 ^^^ x.rotateRight 8 ^^^ x >>> 7

/-- σ1 of the message schedule. -/
def shaS1 (x : DWord) : DWord := x.rotateRight 19 ^^^ x.rotateRight 61 ^^^ x >>> 6

/-- n words appended to the message schedule, held latest first. -/
def shaExtend : Nat → List DWord → List DWord
  | 0, w => w
  | n + 1, w => shaExtend n ((shaS1 (w.getD 1 0) + w.getD 6 0 + shaS0 (w.getD 14 0) + w.getD 15 0) :: w)

/-- One round on the eight working variables. -/
def shaRound (v : List DWord) (kw : DWord × DWord) : List DWord :=
  match v with
  | [a, b, c, d, e, f, g, h] =>
    let t1 := h + (e.rotateRight 14 ^^^ e.rotateRight 18 ^^^ e.rotateRight 41) + (e &&& f ^^^ ~~~e &&& g) + kw.1 + kw.2
    let t2 := (a.rotateRight 28 ^^^ a.rotateRight 34 ^^^ a.rotateRight 39) + (a &&& b ^^^ a &&& c ^^^ b &&& c)
    [t1 + t2, a, b, c, d + t1, e, f, g]
  | _ => v

/-- One block of 16 words. -/
def shaBlock (v w : List DWord) : List DWord :=
  List.zipWith (· + ·) v ((shaK.zip (shaExtend 64 w.reverse).reverse).foldl shaRound v)

/-- n blocks of 128 bytes. -/
def shaBlocks : Nat → List DWord → List Byte → List DWord
  | 0, v, _ => v
  | n + 1, v, l =>
    shaBlocks n (shaBlock v ((List.range 16).map fun i => BitVec.ofNat 64 (beNat ((l.drop (8 * i)).take 8)))) (l.drop 128)

/-- n bytes of v, most significant first. -/
def bytesBE (v n : Nat) : List Byte := (bytesLE v n).reverse

/-- SHA-384 of a byte string, 48 bytes. -/
def sha384 (l : List Byte) : List Byte :=
  let z := (239 - l.length % 128) % 128
  let m := l ++ [0x80] ++ List.replicate z 0 ++ bytesBE (8 * l.length) 16
  ((shaBlocks (m.length / 128) shaInit m).take 6).flatMap fun w => bytesBE w.toNat 8

/-- HMAC-SHA-384 for keys of at most 128 bytes. -/
def hmac384 (key l : List Byte) : List Byte :=
  let k := key ++ List.replicate (128 - key.length) 0
  sha384 (k.map (· ^^^ 0x5C) ++ sha384 (k.map (· ^^^ 0x36) ++ l))

/-! ECDSA over P-384. -/

/-- The field prime. -/
def p384 : Nat := 2 ^ 384 - 2 ^ 128 - 2 ^ 96 + 2 ^ 32 - 1

/-- The group order. -/
def n384 : Nat :=
  0xFFFFFFFFFFFFFFFFFFFFFFFFFFFFFFFFFFFFFFFFFFFFFFFFC7634D81F4372DDF581A0DB248B0A77AECEC196ACCC52973

/-- The coefficient b. -/
def b384 : Nat :=
  0xB3312FA7E23EE7E4988E056BE3F82D19181D9C6EFE8141120314088F5013875AC656398D8A2ED19D2A85C8EDD3EC2AEF

/-- The base point. -/
def g384 : Nat × Nat :=
  (0xAA87CA22BE8B05378EB1C71EF320AD746E1D3B628BA79B9859F741E082542A385502F25DBF55296C3A545E3872760AB7,
   0x3617DE4A96262C6F5D9E98BF9292DC29F8F41DBD289A147CE9DA3113B5F0B8C00A60B1CE1D7E819D7A431D7C90EA0E5F)

/-- x to the e modulo m, e below 2^n. -/
def powMod (m x e : Nat) : Nat → Nat
  | 0 => 1 % m
  | n + 1 => let r := powMod m x e n; let s := r * r % m; if bit e (384 - 1 - n) then s * x % m else s

/-- The inverse of x modulo the prime m. -/
def invMod (m x : Nat) : Nat := powMod m x (m - 2) 384

/-- The sum of two points; none is the point at infinity. -/
def ecAdd (a b : Option (Nat × Nat)) : Option (Nat × Nat) :=
  match a, b with
  | none, q => q
  | p, none => p
  | some (x1, y1), some (x2, y2) =>
    let p := p384
    if x1 = x2 ∧ (y1 + y2) % p = 0 then none
    else
      let l := if x1 = x2 then 3 * (x1 * x1 + p - 1) * invMod p (2 * y1 % p) % p
        else (y2 + p - y1) * invMod p ((x2 + p - x1) % p) % p
      let x := (l * l + 2 * p - x1 - x2) % p
      some (x, (l * (x1 + p - x) + p - y1) % p)

/-- k times a point, k below 2^n. -/
def ecMul (k : Nat) (q : Option (Nat × Nat)) : Nat → Option (Nat × Nat)
  | 0 => none
  | n + 1 => let r := ecMul k q n; let d := ecAdd r r; if bit k (384 - 1 - n) then ecAdd d q else d

/-- ECDSA verification: the public key x, y, the signature r, s, and the digest. -/
def ecdsaOk (x y r s : Nat) (digest : List Byte) : Bool :=
  let onCurve := decide (x < p384 ∧ y < p384) && (y * y) % p384 == (x * x * x + (p384 - 3) * x + b384) % p384
  if onCurve && decide (0 < r ∧ r < n384 ∧ 0 < s ∧ s < n384) then
    let w := invMod n384 s
    match ecAdd (ecMul (beNat digest * w % n384) (some g384) 384) (ecMul (r * w % n384) (some (x, y)) 384) with
    | some (v, _) => v % n384 == r
    | none => false
  else false

/-- A signature over bytes by the key X, Y, each value 48 bytes big-endian: key is X followed by Y, sig is r followed by s. -/
def signatureOk (key sig l : List Byte) : Bool :=
  ecdsaOk (beNat (key.take 48)) (beNat ((key.drop 48).take 48)) (beNat (sig.take 48)) (beNat ((sig.drop 48).take 48)) (sha384 l)

/-! AES-256-GCM. -/

/-- Product in GF(2^8) of AES, n bits of b still to go. -/
def gfMul (a b : Nat) : Nat → Nat
  | 0 => 0
  | n + 1 =>
    (if b % 2 = 1 then a else 0) ^^^ gfMul (if 128 ≤ a then (2 * a) ^^^ 0x11B else 2 * a) (b / 2) n

/-- x to the 254th power: the inverse of x, 0 for 0. -/
def gfInv (x : Nat) : Nat :=
  let m (a b : Nat) : Nat := gfMul a b 8
  let x2 := m x x
  let x4 := m x2 x2
  let x8 := m x4 x4
  let x16 := m x8 x8
  let x32 := m x16 x16
  let x64 := m x32 x32
  m (m (m x2 x4) (m x8 x16)) (m (m x32 x64) (m x64 x64))

/-- The S-box. -/
def sbox (x : Nat) : Nat :=
  let i := gfInv x
  let r (k : Nat) : Nat := i * 2 ^ k % 256 ^^^ i / 2 ^ (8 - k)
  i ^^^ r 1 ^^^ r 2 ^^^ r 3 ^^^ r 4 ^^^ 0x63

/-- n words appended to the key schedule, held latest first; i is the number of the next word. -/
def keyExtend : Nat → Nat → List (List Nat) → List (List Nat)
  | 0, _, w => w
  | n + 1, i, w =>
    let t := w.getD 0 []
    let t := if i % 8 = 0 then
        let u := ((t.drop 1) ++ (t.take 1)).map sbox
        (u.headD 0 ^^^ 2 ^ (i / 8 - 1)) :: u.drop 1
      else if i % 8 = 4 then t.map sbox else t
    keyExtend n (i + 1) (List.zipWith (· ^^^ ·) (w.getD 7 []) t :: w)

/-- The 15 round keys of a 32-byte key, 16 bytes each. -/
def roundKeys (key : List Byte) : List (List Nat) :=
  let k := key.map (·.toNat)
  let w := (keyExtend 52 8 ((List.range 8).map fun i => (k.drop (4 * i)).take 4).reverse).reverse
  (List.range 15).map fun r => ((w.drop (4 * r)).take 4).flatten

/-- ShiftRows on a block in column order. -/
def shiftRows (b : List Nat) : List Nat := (List.range 16).map fun i => b.getD ((i + 4 * (i % 4)) % 16) 0

/-- MixColumns. -/
def mixColumns (b : List Nat) : List Nat :=
  (List.range 16).map fun i =>
    let c (k : Nat) : Nat := b.getD (i / 4 * 4 + (i + k) % 4) 0
    gfMul (c 0) 2 8 ^^^ gfMul (c 1) 3 8 ^^^ c 2 ^^^ c 3

/-- AES-256 of one block. -/
def aesBlock (rk : List (List Nat)) (b : List Nat) : List Nat :=
  let x := List.zipWith (· ^^^ ·) b (rk.getD 0 [])
  let x := (List.range 13).foldl (fun x r => List.zipWith (· ^^^ ·) (mixColumns (shiftRows (x.map sbox))) (rk.getD (r + 1) [])) x
  List.zipWith (· ^^^ ·) (shiftRows (x.map sbox)) (rk.getD 14 [])

/-- Product in GF(2^128) of GHASH, bit 0 the most significant: n bits of y still to go, v the running multiple of x. -/
def ghashMul (y : Nat) : Nat → Nat → Nat
  | 0, _ => 0
  | n + 1, v => (if bit y n then v else 0) ^^^ ghashMul y n (if v % 2 = 1 then v / 2 ^^^ 0xE1 * 2 ^ 120 else v / 2)

/-- GHASH of n blocks. -/
def ghash (h : Nat) : Nat → Nat → List Byte → Nat
  | 0, acc, _ => acc
  | n + 1, acc, l =>
    let blk := l.take 16
    ghash h n (ghashMul (acc ^^^ beNat (blk ++ List.replicate (16 - blk.length) 0)) 128 h) (l.drop 16)

/-- n key-stream blocks applied to a text, from a counter on. -/
def ctrMode (rk : List (List Nat)) (iv : List Byte) : Nat → Nat → List Byte → List Byte
  | 0, _, _ => []
  | n + 1, c, l =>
    let ks := aesBlock rk ((iv ++ bytesBE c 4).map (·.toNat))
    List.zipWith (fun a k => a ^^^ BitVec.ofNat 8 k) (l.take 16) ks ++ ctrMode rk iv n (c + 1) (l.drop 16)

/-- AES-256-GCM decryption with a 12-byte IV: the plaintext and whether the tag holds. -/
def gcmOpen (key iv aad tag l : List Byte) : List Byte × Bool :=
  let rk := roundKeys key
  let h := (aesBlock rk (List.replicate 16 0)).foldl (fun v b => v * 256 + b) 0
  let a := ghash h ((aad.length + 15) / 16) 0 aad
  let s := ghash h ((l.length + 15) / 16) a l
  let s := ghashMul (s ^^^ (8 * aad.length * 2 ^ 64 + 8 * l.length)) 128 h
  let t := (aesBlock rk ((iv ++ bytesBE 1 4).map (·.toNat))).foldl (fun v b => v * 256 + b) 0
  (ctrMode rk iv ((l.length + 15) / 16) 2 l, (s ^^^ t) == beNat tag)

end Sys2Proof.Machine
end

