-- ==== Sys2Proof/Machine/Thermal.lean ====
section
/-! DEFINITION. Thermal sensing, throttling, the forced stop and the sentinels (spec/12, R329 to R338), and power failure's last
steps (R328). -/

namespace Sys2Proof.Machine

/-! Sensors (R329 to R332). -/

/-- Sensor n beside its registers. -/
def Dev.sen (d : Dev) (n : Nat) : SensSt := Tbl.get SensSt.reset d.thm.sens n

/-- Sensor n changed by f. -/
def Dev.onSen (d : Dev) (n : Nat) (f : SensSt → SensSt) : Dev :=
  d.onThm fun t => { t with sens := Tbl.set SensSt.reset t.sens n (f (d.sen n)) }

/-- An enabled, included and valid sensor. -/
def Dev.senUsed (d : Dev) (n : Nat) : Bool :=
  d.on (R.SCFG.EN n) && !d.on (R.SCFG.EXCL n) && !(d.sen n).incl && d.on (R.READ.VALID n)

/-- The sensor's reading in 1/16 degrees. -/
def Dev.temp (d : Dev) (n : Nat) : Int := d.getI (R.READ.TEMP n)

/-- R330: the temperature a channel value gives; a part of 1/16 degree goes up or down freely (log 21). -/
def Dev.bridgeTemp (d : Dev) (value : Int) : Int × Dev :=
  let x := (value + 8388608).toNat
  let k := x / 524288
  let lo := d.getI (R.BRIDGE_LUT.TEMP k)
  let num := (d.getI (R.BRIDGE_LUT.TEMP (k + 1)) - lo) * ((x % 524288 : Nat) : Int)
  let q := floorDiv num 524288
  if num = q * 524288 then (lo + q, d)
  else
    let (r, d) := d.draw
    (lo + q + (if r.getLsbD 0 then 1 else 0), d)

/-- R330: the reading of bridge k of octet o, if it is valid. -/
def Dev.bridge (d : Dev) (o k : Nat) : Option Int × Dev :=
  if d.on R.THM_CTRL.BRIDGE_EN ∧ d.on (R.CH_VALUE.VALID o (18 + k)) then
    let (t, d) := d.bridgeTemp (d.getI (R.CH_VALUE.VALUE o (18 + k)))
    (some t, d)
  else (none, d)

/-- R329: sensor n is read. -/
def Dev.sense (d : Dev) (n : Nat) (r : Option Int) : Dev :=
  match r with
  | none =>
    ((d.set (R.READ.VALID n) 0).set (R.READ.RATE n) 0).onSen n fun s => { s with hist := [], incl := false }
  | some t =>
    let t := clampI (-2048) 2047 t
    let h := (d.sen n).hist
    let rate := if h.length = 10 then clampI (-512) 511 (t - h.getD 9 0) else 0
    let d := ((d.set (R.READ.VALID n) 1).setI (R.READ.TEMP n) t).setI (R.READ.RATE n) rate
    d.onSen n fun s => { s with hist := (t :: s.hist).take 10, incl := false }

/-- Values in rising order. -/
def insertInt (x : Int) : List Int → List Int
  | [] => [x]
  | y :: t => if x ≤ y then x :: y :: t else y :: insertInt x t

/-- R331: the median; of an even number the mean of the middle two, truncated toward zero. -/
def median (l : List Int) : Int :=
  let s := l.foldr insertInt []
  let n := s.length
  if n % 2 = 1 then s.getD (n / 2) 0 else (s.getD (n / 2 - 1) 0 + s.getD (n / 2) 0).tdiv 2

/-- The used sensors of group g other than n. -/
def Dev.others (d : Dev) (n g : Nat) : List Nat :=
  (List.range 176).filter fun m => m != n && d.get (R.SCFG.GROUP m) == g && d.senUsed m

/-- R331: the outcome of sensor n's cross-check: none without one. -/
def Dev.strays (d : Dev) (n : Nat) : Option Bool :=
  let g := d.get (R.SCFG.GROUP n)
  let l := d.others n g
  if g = 63 ∨ !d.senUsed n ∨ l.length < 3 then none
  else some (decide (((d.get R.THM_CTRL.STRAY * 16 : Nat) : Int) < (((d.temp n - median (l.map d.temp)).natAbs : Nat) : Int)))

/-- R331: the cross-check applied. -/
def Dev.checkStray (d : Dev) (n : Nat) (x : Option Bool) : Dev :=
  match x with
  | none => d
  | some false => d.onSen n fun s => { s with stray := 0 }
  | some true =>
    if d.get R.THM_CTRL.STRAY_N ≤ (d.sen n).stray + 1 then
      ((d.set (R.SCFG.EXCL n) 1).orF R.THM_EVT.EVT 16).onSen n fun s => { s with stray := 0 }
    else d.onSen n fun s => { s with stray := s.stray + 1 }

/-- One live bit and its sticky bit: the state, and whether it rose. -/
def Dev.liveBit (d : Dev) (live seen : Fld) (now : Bool) : Dev × Bool :=
  let old := d.on live
  let d := d.flag live now
  if now && !old then (d.set seen 1, true) else (d, false)

/-- R332: the live bits of sensor n against its levels. -/
def Dev.levels (d : Dev) (n : Nat) : Dev :=
  let used := d.senUsed n
  let t := d.temp n
  let hyst : Int := d.get (R.SCFG.HYST n)
  let at_ (lvl : Fld) (live : Fld) : Bool :=
    used && (decide (16 * d.getI lvl ≤ t) || (d.on live && decide (16 * (d.getI lvl - hyst) ≤ t)))
  let lim := d.get (R.SCFG.RATE n)
  let rate := used && lim != 0 && decide ((lim : Int) < d.getI (R.READ.RATE n))
  let w := at_ (R.SLVL.WARN n) (R.READ.WARN n)
  let h := at_ (R.SLVL.HOT n) (R.READ.HOT n)
  let c := at_ (R.SLVL.CRIT n) (R.READ.CRIT n)
  let (d, rw) := d.liveBit (R.READ.WARN n) (R.READ.WARN_SEEN n) w
  let (d, _) := d.liveBit (R.READ.HOT n) (R.READ.HOT_SEEN n) h
  let (d, rc) := d.liveBit (R.READ.CRIT n) (R.READ.CRIT_SEEN n) c
  let (d, rr) := d.liveBit (R.READ.RATE_HI n) (R.READ.RATE_SEEN n) rate
  let d := d.orF R.THM_EVT.EVT (b2n rw + 4 * b2n rc + 8 * b2n rr)
  if rc ∧ d.get (R.SCFG.POLDER n) < 48 then d.set (R.CAP.STOP_PEND (d.get (R.SCFG.POLDER n))) 1 else d

/-- R336: the reading polder p's band follows. -/
def Dev.bandTemp (d : Dev) (p : Nat) : Option Int :=
  if d.senUsed p then some (d.temp p)
  else
    let g := d.get (R.SCFG.GROUP p)
    if g = 63 then none
    else match (d.others p g).map d.temp with
      | [] => none
      | x :: t => some (t.foldl max x)

/-- R336: the band of a reading, from the band so far. -/
def Dev.bandOf (d : Dev) (cur : Nat) (t : Int) : Nat :=
  let h : Int := d.get R.THM_CTRL.BAND_HYST
  let in_ (b : Nat) (f : Fld) : Bool :=
    decide (16 * d.getI f ≤ t) || (decide (b ≤ cur) && decide (16 * (d.getI f - h) ≤ t))
  if in_ 3 R.BAND_THR.THR3 then 3 else if in_ 2 R.BAND_THR.THR2 then 2 else if in_ 1 R.BAND_THR.THR1 then 1 else 0

/-- R336: polder p's band follows. -/
def Dev.follow (d : Dev) (p : Nat) : Dev :=
  let cur := d.get (R.CAP.BAND p)
  let b := match d.bandTemp p with | none => 3 | some t => d.bandOf cur t
  if b = cur then d else (d.set (R.CAP.BAND p) b).orF R.THM_EVT.EVT 32

/-- R329 to R332, R336: one scan; the readings of sensors 0 to 111. -/
def Dev.thermalScan (d : Dev) (r : List (Option Int)) : Dev :=
  if d.on R.THM_CTRL.EN then
    let d := (List.range 112).foldl (fun d n => d.sense n (r.getD n none)) d
    let d := (List.range 64).foldl (fun d i => let (x, d) := d.bridge (i / 2) (i % 2); d.sense (112 + i) x) d
    let e := d
    let d := (List.range 176).foldl (fun d n => d.checkStray n (e.strays n)) d
    let d := (List.range 176).foldl Dev.levels d
    (List.range 48).foldl Dev.follow d
  else d

/-- R331: a write to SCFG; an excluded sensor is included again from the next scan. -/
def Dev.scfg (d : Dev) (n v : Nat) : Dev :=
  let ex := d.on (R.SCFG.EXCL n)
  let d := d.sw Row.SCFG (A.SCFG n) v
  if ex ∧ !d.on (R.SCFG.EXCL n) then d.onSen n fun s => { s with incl := true, stray := 0 } else d

/-- A write to SLVL: WARN ≤ HOT ≤ CRIT. -/
def Dev.slvl (d : Dev) (n v : Nat) : Dev :=
  let d := d.sw Row.SLVL (A.SLVL n) v
  let d := d.setI (R.SLVL.HOT n) (max (d.getI (R.SLVL.WARN n)) (d.getI (R.SLVL.HOT n)))
  d.setI (R.SLVL.CRIT n) (max (d.getI (R.SLVL.HOT n)) (d.getI (R.SLVL.CRIT n)))

/-- A write to BAND_THR: THR1 ≤ THR2 ≤ THR3. -/
def Dev.bandThr (d : Dev) (v : Nat) : Dev :=
  let d := d.sw Row.BAND_THR A.BAND_THR v
  let d := d.setI R.BAND_THR.THR2 (max (d.getI R.BAND_THR.THR1) (d.getI R.BAND_THR.THR2))
  d.setI R.BAND_THR.THR3 (max (d.getI R.BAND_THR.THR2) (d.getI R.BAND_THR.THR3))

/-- R335: a write to SENT_CTRL: TRIP may only be lowered, to no less than 110. -/
def Dev.sentCtrl (d : Dev) (v : Nat) : Dev := d.set R.SENT_CTRL.TRIP (clampN 110 (d.get R.SENT_CTRL.TRIP) (v % 256))

/-! Throttling (R333). -/

/-- R333: CAP_ACTIVE follows the step in force. -/
def Dev.capSync (d : Dev) (p : Nat) : Dev := d.flag (R.CAP.CAP_ACTIVE p) (decide (d.step p < 15))

/-- A write to CAP. -/
def Dev.capWrite (d : Dev) (p v : Nat) : Dev := (d.sw Row.CAP (A.CAP p) v).capSync p

/-- R333: polder p is hot. -/
def Dev.isHot (d : Dev) (p : Nat) : Bool := (guards p).any fun n => d.on (R.READ.HOT n) || d.on (R.READ.RATE_HI n)

/-- R333: a DWELL interval ends while polder p is hot, or a RECOVER interval while it is not. -/
def Dev.throttle (d : Dev) (p : Nat) : Dev :=
  let s := d.get (R.CAP.STEP p)
  if d.isHot p then
    if d.get (R.CAP.FLOOR p) < s then ((d.set (R.CAP.STEP p) (s - 1)).orF R.THM_EVT.EVT 2).capSync p else d
  else if s < 15 then (d.set (R.CAP.STEP p) (s + 1)).capSync p
  else d

/-! The forced stop (R334). -/

/-- R188: an engine named by IMG HALT. -/
def Dev.haltEngine (d : Dev) (e : Nat) : Dev :=
  if [EState.running, .waiting, .fault].contains (d.e e).st then d.stopEngine e .halted else d

/-- R334 step 1: the running transition is abandoned under R323 and carries its restores out; the queued request is discarded. -/
def Dev.stopTrans (d : Dev) : Dev :=
  let d := if d.pwr.next.isSome then d.dropQueued else d
  match d.pwr.run with
  | none => d
  | some t =>
    if t.res = 5 then d
    else
      let d := if t.restore.isSome then d else d.turnBack { t with exits := [], entries := [] } 2 0 (t.cur.map (·.1))
      (List.range 49).foldl (fun d _ => if d.pwr.run.isSome then d.polderExit else d) d

/-- R334 step 2: polder p is prepared. -/
def Dev.prepare (d : Dev) (p : Nat) : Dev :=
  if 1 < d.polder p then d
  else if p < 32 then
    let d := (lanesOf p).foldl (fun d g => d.pwrCtrl g (d.reg (A.PWR_CTRL g) ||| 4)) d
    d.weirLatch p 0x10 (2 ^ 29 + 0xFFFFF)
  else if 36 ≤ p ∧ p ≤ 46 then (List.range 8).foldl (fun d k => d.haltEngine (8 * (p - 36) + k)) d
  else d

/-- The polders a forced stop of p takes down: for a quadrant or the DRAM the transition is one to HALT. -/
def Dev.stopSet (d : Dev) (p : Nat) : List Nat :=
  (if p < 32 ∨ (36 ≤ p ∧ p ≤ 46) then [p] else entryOrder).filter fun q => d.polder q != 2 && d.polder q != 5

/-- R334, R360: HOLD_OVR where debug holds a polder. -/
def Dev.overrideHold (d : Dev) (l : List Nat) : Dev := if l.any d.debugHeld then d.set R.DBG_STATUS.HOLD_OVR 1 else d

/-- R334: the grace ends with STOP_PEND set: the forced stop begins. -/
def Dev.forcedStop (d : Dev) (v : Vault) (p : Nat) : Dev :=
  if !d.on (R.CAP.STOP_PEND p) ∨ (d.p p).prep ∨ (d.p p).inReset then d
  else if d.polder p = 2 then d.set (R.CAP.STOP_PEND p) 0
  else
    let d := d.stopTrans
    let l := d.stopSet p
    let d := (resetGroup p ++ l).foldl (fun d q => d.bistAbort v q) d
    let d := (d.overrideHold l).onP p fun x => { x with prep := true }
    let d := l.foldl Dev.prepare d
    let d := if l = [p] then d else d.set R.PWR_STATUS.PREV (d.get R.PWR_STATUS.PROFILE)
    let t : Trans := { req := { polder := some (p, 2) }, pre := [], exits := [], entries := [], res := 5, who := some p }
    ((d.set R.PWR_STATUS.BUSY 1).set R.PWR_STATUS.POLDER p).setRun (some t)

/-- R334 step 3: requests still undelivered to polder q complete with TARGET_RESET. -/
def Dev.cutDrain (d : Dev) (q : Nat) : Dev :=
  let cut (r : Req) : Req :=
    if (polderGroup r.tgt).contains q && r.phase != .answered then { r with phase := .answered, rep := replyWord stTargetReset 0 } else r
  { d with eng := d.eng.map fun e => (e.1, { e.2 with reqs := e.2.reqs.map cut }) }

/-- R334 step 3: E1 to E7 without the checks, and the marks of a forced stop. -/
def Dev.forcedRun (d : Dev) (p : Nat) : Dev :=
  match d.pwr.run with
  | some t =>
    if (d.p p).prep ∧ t.res = 5 ∧ t.who = some p then
      let l := d.stopSet p
      let d := l.foldl (fun d q => ((d.cutDrain q).polderDown q 2).acctEntry q 5 p true) d
      let d := if l = [p] then d else d.set R.PWR_STATUS.PROFILE 3
      let d := d.onP p fun x => { x with prep := false, forced := true }
      let d := ((d.set (R.CAP.FORCED p) 1).set (R.CAP.STOP_PEND p) 0).orF R.THM_EVT.EVT 64
      d.endTrans t
    else d
  | none => d

/-! Sentinels (R335). -/

/-- R335: the trip: THERMTRIP_N low, wardens halted, every other polder held in reset, a trip record. -/
def thermTrip (d : Dev) (v : Vault) : Dev × Vault :=
  let d := (d.onThm fun t => { t with tripped := true }).overrideHold (List.range 48)
  let d := d.abortTests v
  let d := (List.range 8).foldl (fun d k => if (d.e (88 + k)).st = .halted then d else d.stopEngine (88 + k) .halted) d
  let d := (((d.setRun none).onPwr fun x => { x with next := none }).set R.PWR_STATUS.BUSY 0).set R.PWR_STATUS.QUEUED 0
  let d := (List.range 48).foldl (fun d p => if 33 ≤ p ∧ p < 36 then d else d.resetBlocks v p) d
  let d := (List.range 48).foldl (fun d p => (d.setPolder p 5).onP p fun _ => { inReset := true }) d
  let data := (List.range 4).flatMap (fun i => bytesLE (d.reg (A.SENT_READ i)) 2) ++ bytesLE (d.get R.SENT_CTRL.TRIP) 1
  nvAppend d v 1 3 data

/-- R335: sentinel i away from the median for 16 consecutive readings disagrees. -/
def Dev.sentDisagree (d : Dev) (m : Int) (i : Nat) (t : Int) : Dev :=
  let n := if 128 < (t - m).natAbs then min 16 (d.thm.dis.getD i 0 + 1) else 0
  let d := d.onThm fun x => { x with dis := x.dis.set i n }
  if n = 16 ∧ !bit (d.get R.SENT_CTRL.DISAGREE) i then (d.orF R.SENT_CTRL.DISAGREE (2 ^ i)).orF R.THM_EVT.EVT 128 else d

/-- R335: the four sentinels are read. -/
def sentinels (d : Dev) (v : Vault) (r : List Int) : Dev × Vault :=
  let l := (List.range 4).map fun i => clampI (-2048) 2047 (r.getD i 0)
  let d := (List.range 4).foldl (fun d i => d.setI (R.SENT_READ.TEMP i) (l.getD i 0)) d
  let m := median l
  let d := (List.range 4).foldl (fun d i => d.sentDisagree m i (l.getD i 0)) d
  let hot := (l.filter fun t => decide (((16 * d.get R.SENT_CTRL.TRIP : Nat) : Int) ≤ t)).length
  let n := if 2 ≤ hot then min 4 (d.thm.trips + 1) else 0
  let d := d.onThm fun x => { x with trips := n }
  if n = 4 ∧ !d.thm.tripped then thermTrip d v else (d, v)

/-! Power failure and the return of the DRAM. -/

/-- R328, R373: PFAIL is asserted, and every test is aborted. -/
def Dev.pfail (d : Dev) (v : Vault) : Dev := d.pfailAssert.abortTests v

/-- R328 step 5: without a power-fail record the pumping station writes a minimal one. -/
def autoRecord (d : Dev) (v : Vault) : Dev × Vault :=
  if d.pwr.pfAt.isSome ∧ !d.pwr.pfRec then
    let d := (d.set R.PFAIL_STATUS.AUTO_NV 1).onPwr fun x => { x with pfRec := true }
    let data := bytesLE (d.reg A.PWR_STATUS) 4 ++ bytesLE (d.reg A.PFAIL_STATUS) 4
      ++ (List.range 7).flatMap fun w => bytesLE (d.polderWord w) 4
    nvAppend d v 1 2 data
  else (d, v)

/-! The commands. -/

def execThmChRead (e : EngId) (s : State) : Host.Outcome State Fault Refusal :=
  s.on fun d => d.serve e 0x201 0 fun op d => rep d stOK (d.reg (A.READ (min (op % 256) 175)))

def execThmChCap (e : EngId) (s : State) : Host.Outcome State Fault Refusal :=
  s.on fun d => d.serve e 0x201 1 fun op d =>
    let p := min (getBits op 13 8) 47
    rep ((d.set (R.CAP.CAP_MAX p) (op % 16)).capSync p) stOK

def execThermalScan (r : List (Option Int)) (s : State) : Host.Outcome State Fault Refusal := s.on fun d => d.thermalScan r

/-- R331: a write of SCFG with EXCL = 1. -/
def execSensorInclude (src : Src) (n : Fin 176) (val : BitVec 32) (s : State) : Host.Outcome State Fault Refusal :=
  s.on fun d => d.gate src (A.SCFG n) fun d => d.scfg n (putBit val.toNat 30 true)

def execThrottleStep (p : Fin 48) (s : State) : Host.Outcome State Fault Refusal := s.on fun d => d.throttle p

def execForcedStop (p : Fin 48) (s : State) : Host.Outcome State Fault Refusal := s.on fun d => d.forcedStop s.vault p

def execForcedStopRun (p : Fin 48) (s : State) : Host.Outcome State Fault Refusal := s.on fun d => d.forcedRun p

def execSentinelRead (r0 r1 r2 r3 : Int) (s : State) : Host.Outcome State Fault Refusal :=
  s.onV fun d v => sentinels d v [r0, r1, r2, r3]

def execPfailAssert (s : State) : Host.Outcome State Fault Refusal := s.on fun d => d.pfail s.vault

def execAutoNvRecord (s : State) : Host.Outcome State Fault Refusal := s.onV autoRecord

end Sys2Proof.Machine
end

