-- ==== Sys2Proof/Machine/Img.lean ====
section
/-! DEFINITION. Engine images (spec/07, R223, R225; spec/13, R348, R349). -/

namespace Sys2Proof.Machine

/-- R225: the fields of an image header. -/
structure ImgHead where
  magic : Nat
  version : Nat
  enc : Bool
  role : Nat
  clusters : Nat
  entry : Nat
  text : Nat
  data : Nat
  shared : Nat
  ofs : Nat
  rollback : Nat
  key : Nat
  deriving DecidableEq, Repr

/-- The header in 128 bytes. -/
def imgHead (l : List Byte) : ImgHead :=
  { magic := blk l 0 4, version := blk l 4 2, enc := bit (blk l 6 2) 0, role := blk l 8 1, clusters := blk l 10 2, entry := blk l 12 4,
    text := blk l 16 4, data := blk l 20 4, shared := blk l 24 4, ofs := blk l 28 4, rollback := blk l 32 1, key := blk l 40 1 }

/-- n padded to a multiple of 64. -/
def pad64 (n : Nat) : Nat := (n + 63) / 64 * 64

/-- The bytes of the sections as stored. -/
def ImgHead.body (h : ImgHead) : Nat := pad64 h.text + pad64 h.data + pad64 h.shared

/-- R225: the header rules for cluster c. -/
def ImgHead.fits (h : ImgHead) (c : Nat) : Bool :=
  h.magic == 0x4E4C0001 && h.version == 1 && h.role == (roleOf (8 * c)).code && bit h.clusters c
    && decide (h.text ≤ 65536) && decide (h.data ≤ 196608) && decide (h.shared ≤ 4194304) && decide (h.ofs + h.shared ≤ 4194304)

/-- R348: the image key slots a life-cycle state accepts. -/
def imgSlots : Nat → List Nat
  | 1 | 4 => [0, 1]
  | 2 => [0, 1, 2, 3, 4, 5, 6, 7]
  | 3 => [2, 3, 4, 5, 6, 7]
  | _ => []

/-- R348: the hash of a public key X, Y. -/
def keyHash (key : List Byte) : Nat := leNat (sha384 key)

/-- R349: the checks up to 5 for cluster c: the DETAIL of the first that fails. -/
def Vault.earlyCheck (v : Vault) (h : ImgHead) (c : Nat) (sig : List Byte) : Option Nat :=
  if !h.fits c then some 1
  else if !(v.usable h.key && (imgSlots v.life).contains h.key) then some 2
  else if v.key h.key ≠ some (keyHash (sig.take 96)) then some 3
  else if h.rollback < v.rollback then some 4
  else if (!h.enc ∧ v.life = 3 ∧ bit v.pol 4) ∨ (h.enc ∧ (v.oik.isNone ∨ v.oikDead)) then some 5
  else none

/-- R348, R349: the whole verification of an image: DETAIL, or the plaintext of its sections. -/
def Vault.verify (v : Vault) (head body sig : List Byte) (c : Nat) : Nat ⊕ List Byte :=
  let h := imgHead head
  match v.earlyCheck h c sig with
  | some x => .inl x
  | none =>
    if !signatureOk (sig.take 96) ((sig.drop 96).take 96) (head ++ body) then .inl 6
    else if h.enc then
      let (p, ok) := gcmOpen (v.oik.getD []) ((head.drop 64).take 12) (head.take 64) ((head.drop 76).take 16) body
      if ok then .inr p else .inl 7
    else .inr body

/-- R349: the record of a verification. -/
def Dev.verifyLast (d : Dev) (key c : Nat) (x : Option Nat) : Dev :=
  let d := d.setReg A.VERIFY_LAST (2 ^ 31 + 2 ^ 30 * b2n x.isSome + 2 ^ 24 * x.getD 0 + 2 ^ 16 * (key % 16) + 2 ^ 12 * c)
  if x.isSome then (d.inc R.VERIFY_FAILS.COUNT).orF R.SEC_EVT.EVT 1 else d

/-- The sections written into the local stores of the engines named and the shared store, each byte with the poison of its word (R284). -/
def Dev.placeImage (d : Dev) (h : ImgHead) (c mask : Nat) (p : List (Byte × Bool)) : Dev :=
  let put (d : Dev) (sp : Space) (k a : Nat) (l : List (Byte × Bool)) : Dev := d.putMarkedN sp c k a (l.length + 1) l
  let d := (List.range 8).foldl (fun d k =>
    if bit mask k then
      let d := put d .loc k 0 (p.take h.text)
      (put d .loc k 0x10000 ((p.drop (pad64 h.text)).take h.data)).onE (8 * c + k) fun x => { x with image := some (BitVec.ofNat 32 h.entry) }
    else d) d
  put d .shared 0 h.ofs ((p.drop (pad64 h.text + pad64 h.data)).take h.shared)

/-- R223: on a refusal the local stores named and the shared store are cleared; their engines hold no image. -/
def Dev.wipeImage (d : Dev) (c mask : Nat) : Dev :=
  let d := (List.range 8).foldl (fun d k =>
    if bit mask k then
      let e := 8 * c + k
      ({ d with locS := d.locS.clear (e * 262144) ((e + 1) * 262144) }).onE e fun x => { x with image := none }
    else d) d
  { d with sharedS := d.sharedS.clear (c * 4194304) ((c + 1) * 4194304) }

/-! The IMG channel (R223). -/

/-- The cluster an operand names. -/
def imgCluster (op : Nat) : Nat := min (getBits op 11 8) 11

/-- The engines an operand names. -/
def imgEngines (op : Nat) : List Nat := ((List.range 8).filter (bit op)).map (8 * imgCluster op + ·)

/-- R223: LOAD and START aimed at cluster 11 are refused for engine 0 and the sender. -/
def imgOwn (e op : Nat) : Bool := imgCluster op == 11 && ((imgEngines op).contains 88 || (imgEngines op).contains e)

/-- R223: the DRAM address of an image. -/
def imgAddr (op : Nat) : Nat := op / 65536 % 2 ^ 33 * 16

/-- IMG HALT. -/
def Dev.imgHalt (d : Dev) (e : Nat) : Dev :=
  d.serve e 0x206 0 fun op d => rep ((imgEngines op).foldl Dev.haltEngine d) stOK

/-- IMG DRAIN: it waits. -/
def Dev.imgDrain (d : Dev) (e : Nat) : Dev := d.serve e 0x206 1 fun _ d => (d, none)

/-- The drain completes once no reply but those of IMG is outstanding: queued words are discarded and their credits return. -/
def Dev.imgDrainDone (d : Dev) (e : Nat) : Dev :=
  match d.req e 0x206 1 .taken with
  | none => d
  | some r =>
    let c := imgCluster r.op.toNat
    let l := (List.range 8).map (8 * c + ·)
    if l.any fun k => (d.e k).reqs.any (·.chan != 0x206) then d
    else
      d.finish e 0x206 1 fun _ d =>
        let d := l.foldl (fun d k => d.onE k fun x =>
          { x with replies := x.replies.filter (·.chan == 0x206), notices := [], mbox := [] }) d
        (d.onC c fun x => { x with drained := true }, (stOK, 0))

/-- IMG LOAD: BAD_STATE or BAD_ADDR at once, else the engines named load. -/
def Dev.imgLoad (d : Dev) (e : Nat) : Dev :=
  d.serve e 0x206 2 fun op d =>
    let c := imgCluster op
    let ready := (List.range 8).all (fun k => [EState.halted, .fault].contains (d.e (8 * c + k)).st) && (d.c c).drained
    if imgOwn e op ∨ !ready then rep d stBadState
    else if d.usable < imgAddr op + 128 then rep d stBadAddr
    else
      let d := (imgEngines op).foldl (fun d k => if (d.e k).st = .halted then d.onE k fun x => { x with st := .loading } else d) d
      (d.demand, none)

/-- R349: the load ends: the image is accepted, or refused with its stores cleared. -/
def Dev.imgLoadDone (d : Dev) (v : Vault) (e : Nat) : Dev :=
  match d.req e 0x206 2 .taken with
  | none => d
  | some r =>
    if !d.dramActive then d.demand
    else
      d.finish e 0x206 2 fun _ d =>
        let op := r.op.toNat
        let c := imgCluster op
        let a := imgAddr op
        let d := (imgEngines op).foldl (fun d k => if (d.e k).st = .loading then d.onE k fun x => { x with st := .halted } else d) d
        let (head, _, d) := d.getBytes .dram 0 0 a 128
        let h := imgHead head
        if h.fits c ∧ d.usable < a + 128 + h.body + 256 then (d, (stBadAddr, 0))
        else
          let n := if h.fits c then h.body else 0
          let (body, d) := d.getMarked [] .dram 0 0 (a + 128) n
          let (sig, _, d) := d.getBytes .dram 0 0 (a + 128 + n) (if h.fits c then 256 else 0)
          match v.verify head (body.map (·.1)) sig c with
          | .inr p => ((d.placeImage h c (op % 256) (p.zip (body.map (·.2)))).verifyLast h.key c none, (stOK, 0))
          | .inl x => ((d.wipeImage c (op % 256)).verifyLast h.key c (some x), (stRefused, 0))

/-- R188, R212: engine e enters RUNNING from HALTED: the watchdog period restarts and earlier expiries are forgotten. -/
def Dev.runEngine (d : Dev) (e : Nat) : Dev :=
  let i := d.issueAt e
  d.onE e fun x => { x with st := .running, ready := i, wdogStart := i, wdogMissed := false }

/-- IMG START. -/
def Dev.imgStart (d : Dev) (e : Nat) : Dev :=
  d.serve e 0x206 3 fun op d =>
    let l := imgEngines op
    if imgOwn e op ∨ l.any (fun k => (d.e k).st != .halted || (d.e k).image.isNone) then rep d stBadState
    else
      let n := getBits op 31 16
      rep (l.foldl (fun d k => (d.onE k fun x => x.setPc (if n = 0 then (x.image.getD 0).toNat else n)).runEngine k) d) stOK

/-- IMG STATE. -/
def Dev.imgState (d : Dev) (e : Nat) : Dev :=
  d.serve e 0x206 4 fun op d =>
    rep d stOK ((List.range 8).foldl (fun v k => v + (d.e (8 * imgCluster op + k)).st.code * 8 ^ k) 0)

/-! The commands. -/

def execImgHalt (e : EngId) (s : State) : Host.Outcome State Fault Refusal := s.on fun d => d.imgHalt e

def execImgDrain (e : EngId) (s : State) : Host.Outcome State Fault Refusal := s.on fun d => d.imgDrain e

def execImgDrainDone (e : EngId) (s : State) : Host.Outcome State Fault Refusal := s.on fun d => d.imgDrainDone e

def execImgLoad (e : EngId) (s : State) : Host.Outcome State Fault Refusal := s.on fun d => d.imgLoad e

def execImgLoadDone (e : EngId) (s : State) : Host.Outcome State Fault Refusal := s.on fun d => d.imgLoadDone s.vault e

def execImgStart (e : EngId) (s : State) : Host.Outcome State Fault Refusal := s.on fun d => d.imgStart e

def execImgState (e : EngId) (s : State) : Host.Outcome State Fault Refusal := s.on fun d => d.imgState e

end Sys2Proof.Machine
end

