-- ==== Sys2Proof/Machine/Sec.lean ====
section
/-! DEFINITION. Life cycle, fuses, keys, reset requests, random numbers and the debug session (spec/13, R340 to R351, R357, R358). -/

namespace Sys2Proof.Machine

/-! The life cycle (R340 to R343). -/

/-- R357: the debug level from reset in a life-cycle state. -/
def levelReset (life : Nat) : Nat := if life ≤ 1 then 2 else 0

/-- R358: the debug session ends. -/
def Dev.endSession (d : Dev) (life : Nat) : Dev :=
  let d := (d.set R.DBG_STATUS.LEVEL (levelReset life)).set R.DBG_STATUS.SLOT 0
  (d.setReg A.DBG_HOLD_LO 0).setReg A.DBG_HOLD_HI 0

/-- R341: the slots that authorise a transition. -/
def lcSlots (from_ to_ : Nat) : List Nat :=
  if to_ = 5 ∧ 1 ≤ from_ ∧ from_ ≤ 4 then imgSlots from_
  else if from_ = 1 ∧ to_ = 2 then [0, 1]
  else if from_ = 2 ∧ to_ = 3 then [2, 3, 4, 5, 6, 7]
  else if from_ = 2 ∧ to_ = 4 then [0, 1, 2, 3, 4, 5, 6, 7]
  else if from_ = 3 ∧ to_ = 4 then [2, 3, 4, 5, 6, 7]
  else []

/-- R341: a token is accepted. -/
def Vault.tokenOk (v : Vault) (l : List Byte) : Bool :=
  let slot := blk l 6 1
  blk l 4 1 == v.life && (lcSlots v.life (blk l 5 1)).contains slot
    && (v.life != 1 || blk l 5 1 != 2 || v.serial.isSome)
    && blk l 8 8 == v.serialNo.toNat && v.usable slot && v.key slot == some (keyHash ((l.drop 64).take 96))
    && signatureOk ((l.drop 64).take 96) ((l.drop 160).take 96) (l.take 64) && v.next.isNone

/-- R342: an accepted transition. -/
def lcAdvance (d : Dev) (v : Vault) (to_ slot : Nat) : Dev × Vault :=
  let data := bytesLE v.life 1 ++ bytesLE to_ 1 ++ bytesLE slot 1 ++ bytesLE v.serialNo.toNat 8
  let (d, v) := nvAppend d { v with next := some to_ } 0 0x10 data
  (((d.orF R.SEC_EVT.EVT 16).endSession v.life).onSec fun s => { s with rrk := none }, v)

/-- R341, R342 LC_ADVANCE. -/
def secAdvance (d : Dev) (v : Vault) (e : Nat) : Dev × Vault :=
  d.serveBlockV v e 0x202 4 (fun _ => 32) fun l _ d v =>
    if v.tokenOk l then
      let (d, v) := lcAdvance d v (blk l 5 1) (blk l 6 1)
      repV d v stOK
    else repV d v stRefused

/-- R341: a write to LC_CTRL: effective only through the debug port in BLANK, with slot I0 fused. -/
def lcCtrl (d : Dev) (v : Vault) (src : Src) (x : Nat) : Dev × Vault :=
  if src = .dbg ∧ bit x 0 ∧ v.life = 0 ∧ (v.key 0).isSome ∧ v.next.isNone then lcAdvance d v 1 0 else (d, v)

/-- R343: the destruction of the owner's secrets, where it is due. -/
def Vault.destroy (v : Vault) : Vault :=
  if (v.life = 4 ∨ v.life = 5) ∧ !v.wiped.contains v.life then
    let more := [2, 3, 4, 5, 6, 7, 9, 10] ++ (if v.life = 5 then [0, 1, 8] else [])
    { v with
      oik := some (List.replicate 32 0xFF), oikDead := true,
      revoked := v.revoked ++ more.filter (!v.revoked.contains ·),
      nv := (v.nv.clear 0x2040 0x10000).clear 0x2000 0x2008,
      wiped := v.wiped ++ [v.life] }
  else v

/-! Fuses (R344, R345, R350). -/

/-- R345: the states that permit a field; none for a reserved FIELD. -/
def fieldStates (f : Nat) : Option (List Nat) :=
  if f ≤ 0x01 then some [0, 1]
  else if f ≤ 0x07 then some [2]
  else if f = 0x08 then some [0, 1]
  else if f = 0x09 ∨ f = 0x0A then some [2]
  else if f = 0x0B ∨ f = 0x0C then some [2]
  else if f = 0x0D then some [0, 1]
  else if f = 0x10 ∨ f = 0x11 then some []
  else if 0x12 ≤ f ∧ f ≤ 0x17 then some [2, 3]
  else if f = 0x18 then some []
  else if f = 0x19 ∨ f = 0x1A then some [2, 3]
  else none

/-- The revocation fuse of a FIELD from 0x10 on, as a key slot. -/
def revokeSlot (f : Nat) : Nat := f - 0x10

/-- R345: the field is already fused. -/
def Vault.fused (v : Vault) (f : Nat) : Bool :=
  if f ≤ 0x0A then (v.key f).isSome
  else if f = 0x0B then v.oik.isSome
  else if f = 0x0C then v.policy.isSome
  else if f = 0x0D then v.serial.isSome
  else v.revoked.contains (revokeSlot f)

/-- R345: a revocation that would leave no unrevoked owner image slot in DEPLOYED. -/
def Vault.lastOwner (v : Vault) (f : Nat) : Bool :=
  v.life == 3 && decide (0x12 ≤ f ∧ f ≤ 0x17) && [2, 3, 4, 5, 6, 7].all fun k => k == revokeSlot f || !v.usable k

/-- R345: DETAIL of a refusal. -/
def Vault.fuseDetail (v : Vault) (f : Nat) : Option Nat :=
  match fieldStates f with
  | none => some 4
  | some l =>
    if !l.contains v.life then some 1
    else if v.fused f then some 2
    else if v.lastOwner f then some 3
    else none

/-- R12: POLICY with a reserved BOOT_BIST replaced. -/
def policyOf (x : Nat) : Nat := putBits (x % 32) 3 1 (min 3 (getBits x 3 1))

/-- R345: a field takes its 48 bytes of value. -/
def Vault.blow (v : Vault) (f : Nat) (l : List Byte) : Vault :=
  if f ≤ 0x0A then { v with keys := Tbl.set none v.keys f (some (blk l 0 48)) }
  else if f = 0x0B then { v with oik := some (l.take 32) }
  else if f = 0x0C then { v with policy := some (policyOf (blk l 0 1)) }
  else if f = 0x0D then { v with serial := some (BitVec.ofNat 64 (blk l 0 8)) }
  else { v with revoked := v.revoked ++ [revokeSlot f] }

/-- R345: a field written, by either path: DETAIL of a refusal. -/
def fuseWrite (d : Dev) (v : Vault) (f : Nat) (l : List Byte) : (Dev × Vault) × Option Nat :=
  match v.fuseDetail f with
  | some x => ((d, v), some x)
  | none => (nvAppend d (v.blow f l) 0 0x12 (bytesLE f 1), none)

/-- R345 FUSE_WRITE. -/
def secFuse (d : Dev) (v : Vault) (e : Nat) : Dev × Vault :=
  d.serveBlockV v e 0x202 6 (fun _ => 8) fun l _ d v =>
    match fuseWrite d v (blk l 0 1) (l.drop 16) with
    | (x, none) => (x, some (stOK, 0))
    | (x, some det) => (x, some (stRefused, det))

/-- R350 ROLLBACK_SET. -/
def secRollback (d : Dev) (v : Vault) (e : Nat) : Dev × Vault :=
  d.serveV v e 0x202 5 fun op d v =>
    let n := op % 128
    if v.rollback < n ∧ n ≤ 64 ∧ n ≤ d.sec.rollImg ∧ 1 ≤ v.life ∧ v.life ≤ 3 then
      let (d, v) := nvAppend d { v with rollback := n } 0 0x11 (bytesLE v.rollback 1 ++ bytesLE n 1)
      repV d v stOK
    else repV d v stRefused

/-! Keys, reset requests, random numbers (R346, R347, R351). -/

/-- R351: the reset-request counter. -/
def Vault.rrCount (v : Vault) : Nat := (v.nv.read 1024).1 % 2 ^ 32

/-- R351: DETAIL of the refusal of a payload. -/
def rrDetail (d : Dev) (v : Vault) (l : List Byte) : Option Nat :=
  match d.sec.rrk with
  | none => some 1
  | some k =>
    if (hmac384 k (l.take 16)).take 16 ≠ (l.drop 16).take 16 then some 2
    else if beNat ((l.drop 3).take 4) ≤ v.rrCount then some 3
    else if 1 < blk l 1 1 ∨ 31 < blk l 2 1 then some 4
    else none

/-- R351 RR_CHECK. -/
def secRrCheck (d : Dev) (v : Vault) (e : Nat) : Dev × Vault :=
  d.serveBlockV v e 0x202 3 (fun _ => 4) fun l _ d v =>
    match rrDetail d v l with
    | some x => repV (d.orF R.SEC_EVT.EVT 32) v stRefused x
    | none => repV (d.nvBusy 1) { v with nv := v.nv.putWord 1024 (beNat ((l.drop 3).take 4)) } stOK

/-- R363 RANDOM: it waits while output is withheld. -/
def Dev.secRandom (d : Dev) (e : Nat) : Dev :=
  d.serve e 0x202 0 fun _ d =>
    if d.sec.trngBad then (d, none)
    else
      let (x, d) := d.draw
      rep d stOK (x.toNat % 2 ^ 32)

/-- R347: one waiting RANDOM completes. -/
def Dev.randomDone (d : Dev) (e : Nat) : Dev :=
  d.finish e 0x202 0 fun _ d =>
    let (x, d) := d.draw
    (d, (stOK, x.toNat % 2 ^ 32))

/-- R347: 1,024 consecutive samples pass: output resumes, and every waiting RANDOM completes. -/
def Dev.trngResume (d : Dev) : Dev :=
  if d.sec.trngBad then
    let d := d.onSec fun s => { s with trngBad := false }
    (List.range 64).foldl (fun d i => d.randomDone (88 + i / 8)) d
  else d

/-! The debug challenge (R357, R361). -/

/-- The nonce, drawn when it is first used. -/
def Dev.nonce (d : Dev) : List DWord × Dev :=
  if d.sec.nonce.length = 4 then (d.sec.nonce, d)
  else
    let (l, d) := (List.range 4).foldl (fun (l, d) _ => let (x, d) := d.draw; (l ++ [x], d)) ([], d)
    (l, d.onSec fun s => { s with nonce := l })

/-- R357: the challenge of 64 bytes. -/
def Dev.challenge (d : Dev) (v : Vault) : List Byte × Dev :=
  let (n, d) := d.nonce
  (n.flatMap (fun x => bytesLE x.toNat 8) ++ bytesLE v.serialNo.toNat 8 ++ bytesLE v.life 1 ++ bytesLE (d.get R.DBG_STATUS.FAILS) 1
    ++ List.replicate 22 0, d)

/-- R361: a state lets debug slot k have a level. -/
def Vault.dbgAllows (v : Vault) (k level : Nat) : Bool :=
  match v.life with
  | 2 => decide (1 ≤ level ∧ level ≤ 2)
  | 3 => decide (1 ≤ k) && (level == 1 || (level == 2 && bit v.pol 0))
  | 4 => if k = 0 then level == 2 else level == 1
  | _ => false

/-- R357: the result of a response: 1 granted, else why not. -/
def Dev.respResult (d : Dev) (v : Vault) (chal l : List Byte) : Nat :=
  let level := blk l 0 1
  let k := blk l 1 1
  let key := (l.drop 4).take 96
  if d.on R.DBG_STATUS.LOCKOUT then 6
  else if 2 < k ∨ !v.usable (8 + k) then 4
  else if !v.dbgAllows k level then 5
  else if v.key (8 + k) ≠ some (keyHash key) then 3
  else if !signatureOk key ((l.drop 100).take 96) (chal ++ l.take 2) then 2
  else 1

/-- R357: a response that waits is checked; a new nonce follows. -/
def dbgChecked (d : Dev) (v : Vault) : Dev × Vault :=
  match d.sec.resp with
  | none => (d, v)
  | some l =>
    let (chal, d) := d.challenge v
    let r := d.respResult v chal l
    let d := (d.set R.DBG_STATUS.LAST_RESULT r).onSec fun s => { s with resp := none, nonce := [] }
    if r = 1 then
      let d := ((d.set R.DBG_STATUS.LEVEL (blk l 0 1)).set R.DBG_STATUS.SLOT (blk l 1 1 + 1)).set R.DBG_STATUS.FAILS 0
      nvAppend (d.orF R.SEC_EVT.EVT 2) v 0 0x13 (l.take 2)
    else if r = 6 then (d, v)
    else
      let n := d.get R.DBG_STATUS.FAILS + 1
      let d := (d.set R.DBG_STATUS.FAILS n).orF R.SEC_EVT.EVT 4
      if n = 8 then nvAppend ((d.set R.DBG_STATUS.LOCKOUT 1).orF R.SEC_EVT.EVT 8) v 0 0x14 (bytesLE n 1) else (d, v)

/-! The commands. -/

def execLcToManufacture (s : State) : Host.Outcome State Fault Refusal :=
  s.onV fun d v => if d.get R.DBG_STATUS.LEVEL = 2 then lcCtrl d v .dbg 1 else (d, v)

def execSecRandom (e : EngId) (s : State) : Host.Outcome State Fault Refusal := s.on fun d => d.secRandom e

/-- R346 KEY_LOAD. -/
def execKeyLoad (e : EngId) (s : State) : Host.Outcome State Fault Refusal :=
  s.on fun d => d.serveBlock e 0x202 1 4 fun l _ d => rep (d.onSec fun x => { x with rrk := some l }) stOK

/-- R346 KEY_CLEAR. -/
def execKeyClear (e : EngId) (s : State) : Host.Outcome State Fault Refusal :=
  s.on fun d => d.serve e 0x202 2 fun _ d => rep (d.onSec fun x => { x with rrk := none }) stOK

def execRrCheck (e : EngId) (s : State) : Host.Outcome State Fault Refusal := s.onV fun d v => secRrCheck d v e

def execLcAdvance (e : EngId) (s : State) : Host.Outcome State Fault Refusal := s.onV fun d v => secAdvance d v e

def execRollbackSet (e : EngId) (s : State) : Host.Outcome State Fault Refusal := s.onV fun d v => secRollback d v e

def execFuseWrite (e : EngId) (s : State) : Host.Outcome State Fault Refusal := s.onV fun d v => secFuse d v e

/-- R347: a health test fails. -/
def execTrngHealthFail (s : State) : Host.Outcome State Fault Refusal :=
  s.on fun d => (d.orF R.SEC_EVT.EVT 64).onSec fun x => { x with trngBad := true }

def execTrngOutputResume (s : State) : Host.Outcome State Fault Refusal := s.on fun d => d.trngResume

def execSecretDestruction (s : State) : Host.Outcome State Fault Refusal := s.onV fun d v => (d, v.destroy)

end Sys2Proof.Machine
end

