-- ==== Sys2Proof/Machine/Boot.lean ====
section
/-! DEFINITION. Resets, start-up, the heartbeat and the SMBus (spec/15, R397 to R404; spec/16, R409, R418). -/

namespace Sys2Proof.Machine

/-! Cold and warm reset (R397). -/

/-- R342: a pending life-cycle transition takes effect; whether there was one. -/
def Vault.applyLife (v : Vault) : Vault × Bool := ({ v with life := v.next.getD v.life, next := none }, v.next.isSome)

/-- What fuse load sets in a part just reset (R41, R52, R155, R267, R357, R377). -/
def Dev.loadFuses (d : Dev) (v : Vault) (applied : Bool) (cause : Nat) : Dev :=
  let d := (d.flag R.RST_CAUSE.LC_APPLIED applied).set R.RST_CAUSE.CAUSE cause
  let d := (d.set R.DBG_STATUS.LEVEL (levelReset v.life)).set R.REPAIR_COUNT.FUSED v.repairs
  let d := (List.range 32).foldl (fun d o => d.fusedEdge v o) d
  ((List.range 256).foldl (fun d g => d.fusedLane v g) d).drawHashKey

/-- R397: PORST_N. -/
def coldReset (d : Dev) (v : Vault) : Dev × Vault :=
  let (v, applied) := v.applyLife
  (({ freeCtr := d.freeCtr, up := d.up } : Dev).loadFuses v applied 0, v)

/-- R111, R397: the registers a warm reset keeps whole: the time base and SCRATCH. -/
def warmKeeps (a : Nat) : Bool :=
  decide (0x4000 ≤ a ∧ a < 0x402C) || a == A.TB_STATUS || decide (0x200 ≤ a ∧ a < 0x220) || decide (0x40 ≤ a ∧ a < 0x74)

/-- R397: SYSRST_N (CAUSE 1) or RST_CTRL.WARM (CAUSE 2). -/
def warmReset (d : Dev) (v : Vault) (cause : Nat) : Dev × Vault :=
  let (v, applied) := v.applyLife
  let keep := d.get R.MEM_CFG.KEEP_SR
  let trip := d.thm.tripped
  let n : Dev := {
    regs := d.regs.filter (fun e => warmKeeps e.1), freeCtr := d.freeCtr, up := d.up, dram := if keep = 1 then d.dram else {},
    time := { d.time with ppsOut := false, ppsSec := none }, thm := { tripped := trip },
    bist := { soft := d.bist.soft }, pwr := { vcore := d.pwr.vcore }, mem := { lapAt := d.up } }
  let n := (List.range 49).foldl Dev.bumpEpoch n
  let n := (n.set R.MEM_CFG.KEEP_SR keep).set R.SENT_CTRL.TRIP (d.get R.SENT_CTRL.TRIP)
  let n := if keep = 1 then (n.set R.MEM_STATUS.KEPT 1).set R.MEM_STATUS.SELF_REF 1 else n
  let n := (n.set R.DBG_STATUS.FAILS (d.get R.DBG_STATUS.FAILS)).set R.DBG_STATUS.LOCKOUT (d.get R.DBG_STATUS.LOCKOUT)
  let n := n.set R.REPAIR_COUNT.SOFT (d.get R.REPAIR_COUNT.SOFT)
  let n := (d.bist.run.filter fun r => decide (r.1 < 49)).foldl (fun n r => (n.setReg (A.T_STATUS r.1) (d.reg (A.T_STATUS r.1))).set (R.T_STATUS.STATE r.1) 4) n
  let n := if trip then (List.range 48).foldl (fun n p => (n.setPolder p 5).onP p fun _ => { inReset := true }) n else n
  (n.loadFuses v applied cause, v)

/-! Polder resets (R398). -/

/-- R398: why a reset of polder p is refused: RESULT. -/
def Dev.resetRefusal (d : Dev) (p : Nat) : Option Nat :=
  let l := resetGroup p
  if d.on R.RST_STATUS.BUSY ∨ d.pwr.run.isSome then some 2
  else if l.any fun q => (d.p q).test || (d.testRun q).isSome then some 3
  else if l.any fun q => d.polder q == 2 || (d.p q).closed || (d.p q).inReset then some 4
  else if p = 47 ∧ !(d.dramQuiet && d.on R.MEM_STATUS.SELF_REF) then some 5
  else none

/-- R398: a reset of polder p: refused, or accepted and carried out up to step 4. -/
def Dev.polderReset (d : Dev) (v : Vault) (p : Nat) : Dev :=
  let e := d.set R.RST_STATUS.POLDER p
  match d.resetRefusal p with
  | some r => e.set R.RST_STATUS.RESULT r
  | none =>
    let e := ((e.set R.RST_STATUS.BUSY 1).set R.RST_STATUS.RESULT 0).resetBlocks v p
    (resetGroup p).foldl (fun d q => (d.setPolder q 5).onP q fun _ => { closed := true, inReset := true }) e

/-- R398 step 5: the polder is released. -/
def Dev.polderResetDone (d : Dev) : Dev :=
  if d.on R.RST_STATUS.BUSY then
    let p := d.get R.RST_STATUS.POLDER
    let d := if d.thm.tripped then d else
      (resetGroup p).foldl (fun d q => (d.setPolder q 0).onP q fun x => { x with closed := false, inReset := false }) d
    let d := if p < 32 then d.orF (R.OPWR_EVT.EVT p) 2 else d
    (d.set R.RST_STATUS.RESULT 1).set R.RST_STATUS.BUSY 0
  else d

/-- A write of RST_CTRL: WARM before GO. -/
def rstCtrl (d : Dev) (v : Vault) (x : Nat) : Dev × Vault :=
  if bit x 30 then warmReset d v 2
  else
    let d := d.sw Row.RST_CTRL A.RST_CTRL x
    if bit x 31 then (d.polderReset v (d.get R.RST_CTRL.POLDER), v) else (d, v)

/-- A write gated as `Dev.gate` does, for registers whose write reaches the fuses too. -/
def Dev.gateV (d : Dev) (v : Vault) (src : Src) (a : Nat) (f : Dev → Vault → Dev × Vault) : Dev × Vault :=
  match d.barred a with
  | none => f d v
  | some code => (d.logAccess src code a, v)

/-! The boot ROM (R402 to R404). -/

/-- The flash byte at an offset. -/
def flashByte (l : List (Nat × List Byte)) (a : Nat) : Byte :=
  match l with
  | [] => 0xFF
  | (o, bs) :: t => if o ≤ a ∧ a < o + bs.length then bs.getD (a - o) 0xFF else flashByte t a

/-- n flash bytes from an offset. -/
def flashBytes (l : List (Nat × List Byte)) (a n : Nat) : List Byte := (List.range n).map fun i => flashByte l (a + i)

/-- R403: a directory copy is valid. -/
def dirValid (l : List Byte) : Bool := blk l 0 4 == 0x43440001 && blk l 252 4 == fcsOf (l.take 252)

/-- R403: the valid copies in the order the ROM uses them: 0 A, 1 B. -/
def dirOrder (a b : List Byte) : List (Nat × List Byte) :=
  match dirValid a, dirValid b with
  | true, true => if blk a 4 4 < blk b 4 4 then [(1, b), (0, a)] else [(0, a), (1, b)]
  | true, false => [(0, a)]
  | false, true => [(1, b)]
  | false, false => []

/-- R403: the warden boot entries of a copy: entry number and flash offset. -/
def bootEntries (dir : List Byte) : List (Nat × Nat) :=
  ((List.range (clampN 1 14 (blk dir 12 4))).filter fun i => bit (blk dir (16 + 16 * i + 9) 1) 0).map fun i => (i, blk dir (16 + 16 * i) 4)

/-- R349, R403: one entry tried: the image accepted with its place, or DETAIL. -/
def tryEntry (d : Dev) (v : Vault) (fl : List (Nat × List Byte)) (ofs : Nat) : Dev × Option Nat :=
  let head := flashBytes fl ofs 128
  let h := imgHead head
  let n := if h.fits 11 then h.body else 0
  match v.verify head (flashBytes fl (ofs + 128) n) (flashBytes fl (ofs + 128 + n) 256) 11 with
  | .inl x => ((d.wipeImage 11 255).verifyLast h.key 11 (some x), some x)
  | .inr p => (((d.placeImage h 11 255 (p.map (·, false))).verifyLast h.key 11 none).onSec fun s => { s with rollImg := h.rollback }, none)

/-- R403: entries tried in order; the wardens start at the ENTRY of the first accepted. Otherwise the last DETAIL. -/
def tryEntries (d : Dev) (v : Vault) (fl : List (Nat × List Byte)) : List (Nat × Nat × Nat) → Nat → Dev × Option Nat
  | [], det => (d, some det)
  | (copy, i, ofs) :: t, _ =>
    match tryEntry d v fl ofs with
    | (d, some x) => tryEntries d v fl t x
    | (d, none) =>
      let d := (d.set R.BOOT_STATUS.DIR copy).set R.BOOT_STATUS.ENTRY i
      ((List.range 8).foldl (fun d k => (d.onE (88 + k) fun x => x.setPc (x.image.getD 0).toNat).runEngine (88 + k)) d, none)

/-- R361, R378: the subsets run at boot, in order. -/
def bootSubsets (v : Vault) : List Nat :=
  match v.life with
  | 1 | 4 => [3, 0, 1, 2]
  | 2 | 3 => [[], [0], [0, 1], [3, 0, 1, 2]].getD (getBits v.pol 3 1) []
  | _ => []

/-- A test that finds nothing. -/
def cleanResult : BistResult := { pass := true, repaired := 0, unrepaired := 0, sig := 0, lanes := [] }

/-- What the board's tests find, by target and subset; the others find nothing. -/
def bootResult (l : List (Fin 49 × Fin 4 × BistResult)) (t s : Nat) : BistResult :=
  match l.find? fun e => e.1.val == t && e.2.1.val == s with
  | some e => e.2.2
  | none => cleanResult

/-- The ROM halts (R403). -/
def Dev.bootHalt (d : Dev) (cause : Nat) (det : Nat := 0) : Dev :=
  ((d.set R.BOOT_ERR.HALTED 1).set R.BOOT_ERR.CAUSE cause).set R.BOOT_ERR.DETAIL det

/-- R404 steps 4 and 5: self-test, then the warden image. -/
def bootImage (d : Dev) (v : Vault) (fl : List (Nat × List Byte)) (bist : List (Fin 49 × Fin 4 × BistResult))
    (dirs : List (Nat × List Byte)) : Dev :=
  let d := d.set R.BOOT_STATUS.STEP 4
  let d := (bootSubsets v).foldl (fun d s => (List.range 49).foldl (fun d t => d.bistBoot v t s (bootResult bist t s)) d) d
  let d := d.set R.BOOT_STATUS.STEP 5
  let l := dirs.flatMap fun e => (bootEntries e.2).map fun x => (e.1, x.1, x.2)
  match tryEntries d v fl l 0 with
  | (d, none) => d
  | (d, some det) => d.bootHalt 2 det

/-- R404: the ROM runs, once after a reset, and not while a sentinel trip holds the part. Configuration requests are answered from the
end of step 3 on. -/
def bootRom (d : Dev) (v : Vault) (fl : Flash) (bist : List (Fin 49 × Fin 4 × BistResult)) : Dev × Vault :=
  if d.boot.romDone ∨ d.thm.tripped then (d, v)
  else
    let v := v.destroy
    let d := ({ d with boot := { d.boot with romDone := true } }.set R.BOOT_STATUS.STEP 3).onHost fun h => { h with ready := true }
    if v.life = 5 then (d.bootHalt 4, v)
    else if !fl.responds then (d.bootHalt 3, v)
    else
      let d := d.flag R.BOOT_STATUS.SFDP fl.sfdp
      match dirOrder (flashBytes fl.runs 0 256) (flashBytes fl.runs 0x10000 256) with
      | [] => (d.bootHalt 1, v)
      | (copy, dir) :: t =>
        let d := (d.set R.BOOT_STATUS.DIR copy).onHost fun h => { h with subsys := blk dir 8 4 }
        (bootImage d v fl.runs bist ((copy, dir) :: t), v)

/-! DRAM training (spec/15, PHY control group). -/

/-- A write of DDR_TRAIN with GO. -/
def Dev.ddrTrain (d : Dev) (x : Nat) : Dev :=
  if bit x 31 ∧ !d.on R.MEM_CFG.EN ∧ d.dramActive ∧ (d.barredPolder 47).isNone then d.setReg A.DDR_TRAIN_STATUS (2 ^ 31) else d

/-- Training ends: the channels that failed, and MR8 of channel 0. -/
def Dev.ddrTrainDone (d : Dev) (fail mr8 : Nat) : Dev :=
  if d.on R.DDR_TRAIN_STATUS.BUSY then
    let d := (d.setReg A.DDR_TRAIN_STATUS ((if fail = 0 then 2 ^ 30 else 2 ^ 29) + mr8 % 256)).setReg A.DDR_TRAIN_FAIL fail
    if fail = 0 then d.set R.MEM_STATUS.TRAINED 1 else d
  else d

/-! The heartbeat (R401). -/

/-- A write of HEALTHY_CTRL. -/
def Dev.healthyCtrl (d : Dev) (x : Nat) : Dev :=
  let d := d.sw Row.HEALTHY_CTRL A.HEALTHY_CTRL x
  if bit x 30 then { d with boot := { d.boot with kick := true } } else d

/-- HEALTHY toggles at 1 kHz; otherwise it is held low. -/
def Dev.healthy (d : Dev) : Bool := d.on R.HEALTHY_CTRL.EN && d.boot.kick

/-! The SMBus (R409, R418). -/

/-- An SMBus read returns v. -/
def Dev.smbReply (d : Dev) (v : Nat) : Dev := { d with boot := { d.boot with smb := v } }

/-- The highest of some temperatures, as a Read Word; a free value where there is none. -/
def Dev.smbMax (d : Dev) (l : List Int) : Dev :=
  match l with
  | [] => (let (x, d) := d.draw; d.smbReply (x.toNat % 65536))
  | t :: r => d.smbReply (ofS 16 (r.foldl max t))

/-- TEMP_MAX, TEMP_SENT and TEMP_ENGINE. -/
def Dev.smbTempMax (d : Dev) : Dev := d.smbMax (((List.range 176).filter d.senUsed).map d.temp)
def Dev.smbTempSent (d : Dev) : Dev := d.smbMax ((List.range 4).map fun i => d.getI (R.SENT_READ.TEMP i))
def Dev.smbTempEngine (d : Dev) : Dev :=
  d.smbMax ((((List.range 64).map (48 + ·)).filter d.senUsed).map d.temp)

/-- PROFILE. -/
def Dev.smbProfile (d : Dev) : Dev :=
  d.smbReply (d.get R.PWR_STATUS.PROFILE * 64 + d.get R.PWR_STATUS.BUSY * 32 + d.get R.PWR_STATUS.RESULT)

/-- HEALTH. -/
def Dev.smbHealth (d : Dev) : Dev :=
  d.smbReply (d.get R.BOOT_STATUS.STEP * 16 + d.get R.PFAIL_STATUS.LIVE * 8 + b2n d.thm.tripped * 4 + d.get R.BOOT_ERR.HALTED * 2
    + d.get R.HEALTHY_CTRL.EN)

/-- BOOT_ERR. -/
def Dev.smbBootErr (d : Dev) : Dev := d.smbReply (d.reg A.BOOT_ERR / 65536)

/-- VCORE: the read releases SMB_ALERT_N. -/
def Dev.smbVcore (d : Dev) : Dev := (d.smbReply d.pwr.vcore).onPwr fun x => { x with alert := false }

/-- R409: the request moves toward mv by at most 10 mV, within the rail's range, and SMB_ALERT_N is asserted. -/
def Dev.vcoreChange (d : Dev) (mv : Nat) : Dev :=
  let n := clampN (d.pwr.vcore - 10) (d.pwr.vcore + 10) (clampN 600 750 mv)
  if n = d.pwr.vcore then d else d.onPwr fun x => { x with vcore := n, alert := true }

/-! The commands. -/

def execColdReset (s : State) : Host.Outcome State Fault Refusal := s.onV coldReset

/-- R397: SYSRST_N, or a write of RST_CTRL with WARM = 1. -/
def execWarmReset (w : Option (Src × BitVec 32)) (s : State) : Host.Outcome State Fault Refusal :=
  match w with
  | none => s.onV fun d v => warmReset d v 1
  | some (src, val) => s.onV fun d v => d.gateV v src A.RST_CTRL fun d v => rstCtrl d v (putBit val.toNat 30 true)

/-- R398: a write of RST_CTRL with GO = 1 and WARM = 0. -/
def execPolderReset (src : Src) (val : BitVec 32) (s : State) : Host.Outcome State Fault Refusal :=
  s.onV fun d v => d.gateV v src A.RST_CTRL fun d v => rstCtrl d v (putBits val.toNat 31 30 2)

def execPolderResetDone (s : State) : Host.Outcome State Fault Refusal := s.on Dev.polderResetDone

/-- R401: a write of HEALTHY_CTRL with KICK = 1. -/
def execHealthyKick (src : Src) (val : BitVec 32) (s : State) : Host.Outcome State Fault Refusal :=
  s.on fun d => d.gate src A.HEALTHY_CTRL fun d => d.healthyCtrl (putBit val.toNat 30 true)

def execHealthyTimeout (s : State) : Host.Outcome State Fault Refusal := s.on fun d => { d with boot := { d.boot with kick := false } }

def execBootRomStart (fl : Flash) (bist : List (Fin 49 × Fin 4 × BistResult)) (s : State) : Host.Outcome State Fault Refusal :=
  s.onV fun d v => bootRom d v fl bist

def execDdrTrainStart (src : Src) (val : BitVec 32) (s : State) : Host.Outcome State Fault Refusal :=
  s.on fun d => d.gate src A.DDR_TRAIN fun d => d.ddrTrain (putBit val.toNat 31 true)

def execDdrTrainDone (fail : BitVec 32) (mr8 : Byte) (s : State) : Host.Outcome State Fault Refusal :=
  s.on fun d => d.ddrTrainDone fail.toNat mr8.toNat

def execSmbTempMax (s : State) : Host.Outcome State Fault Refusal := s.on Dev.smbTempMax

def execSmbTempSent (s : State) : Host.Outcome State Fault Refusal := s.on Dev.smbTempSent

def execSmbTempEngine (s : State) : Host.Outcome State Fault Refusal := s.on Dev.smbTempEngine

def execSmbProfile (s : State) : Host.Outcome State Fault Refusal := s.on Dev.smbProfile

def execSmbHealth (s : State) : Host.Outcome State Fault Refusal := s.on Dev.smbHealth

def execSmbBootErr (s : State) : Host.Outcome State Fault Refusal := s.on Dev.smbBootErr

def execSmbVcore (s : State) : Host.Outcome State Fault Refusal := s.on Dev.smbVcore

def execVcoreRequestChange (mv : BitVec 10) (s : State) : Host.Outcome State Fault Refusal := s.on fun d => d.vcoreChange mv.toNat

end Sys2Proof.Machine
end

