-- ==== Sys2Proof/Machine/CtrCmd.lean ====
section
/-! DEFINITION. Counter commands (spec/11, R306 to R311; R220): clearing, reads, snapshots, dumps, CTR READ. -/

namespace Sys2Proof.Machine

/-- R306: the groups named in m cleared in one C-cycle. -/
def Dev.ctrClear (d : Dev) (m : Nat) : Dev :=
  if m = 0 then d
  else { d with ctr := d.ctr.filter (fun e => !bit m (e.1 / 256)), cnt := { d.cnt with cleared := true } }

/-- R309: the value counter n has for a requester. -/
def Dev.ctrValue (d : Dev) (src : Src) (n : Nat) : DWord :=
  if src = .host ∧ d.on R.CTR_CTRL.READ_SRC then Tbl.get 0 d.cnt.snap n else d.count n

/-- R309: counter n latched into a requester's shadow. -/
def Dev.latchCtr (d : Dev) (src : Src) (n : Nat) : Dev :=
  d.onCnt fun c => { c with shadow := Tbl.set none c.shadow (srcKey src) (some (n, d.ctrValue src n)) }

/-- A requester's shadow. -/
def Dev.ctrShadow (d : Dev) (src : Src) : Option (Nat × DWord) := Tbl.get none d.cnt.shadow (srcKey src)

/-- R309: a read of CNT_LO[n]. -/
def Dev.cntLo (d : Dev) (src : Src) (n : Nat) : Nat × Dev := ((d.ctrValue src n).toNat % 2 ^ 32, d.latchCtr src n)

/-- R309: a read of CNT_HI[n]: the shadow's upper half if the last CNT_LO read named n, else counter n latched afresh (log 26). -/
def Dev.cntHi (d : Dev) (src : Src) (n : Nat) : Nat × Dev :=
  let (m, v) := (d.ctrShadow src).getD (8192, 0)
  if m = n then (v.toNat / 2 ^ 32, d)
  else
    let v := d.ctrValue src n
    (v.toNat / 2 ^ 32, d.onCnt fun c => { c with shadow := Tbl.set none c.shadow (srcKey src) (some (m, v)) })

/-- R311: one latch of the counters, the one DUMP_NOW adds or one that falls due. A skipped latch takes no number (log 20). -/
def Dev.dumpLatch (d : Dev) (now : Bool) : Dev :=
  if d.cnt.dump.isSome then
    (d.inc R.DUMP_STATUS.SKIPPED).onCnt fun c => { c with skipped := c.skipped + 1 }
  else
    let c := d.cnt
    let r : DumpRec :=
      { no := c.next, sec := d.time.sec, ps := d.time.ps,
        flags := b2n (decide (0 < c.skipped)) + 2 * b2n now + 4 * b2n c.cleared,
        skipped := c.skipped, interval := d.get R.CTR_CTRL.INTERVAL, perm := d.reg A.CTR_PERM, ctr := d.ctr }
    (d.set R.DUMP_STATUS.BUSY 1).onCnt fun c => { c with dump := some r, next := c.next + 1, skipped := 0, cleared := false }

/-- R311: a write to CTR_CTRL: DUMP_EN, SIZE while DUMP_EN = 0, INTERVAL, READ_SRC, SNAP and DUMP_NOW. -/
def Dev.ctrCtrl (d : Dev) (v : Nat) : Dev :=
  let on := d.on R.CTR_CTRL.DUMP_EN
  let v := if on then putBits v 17 14 (d.get R.CTR_CTRL.SIZE) else v
  let d := d.sw Row.CTR_CTRL A.CTR_CTRL v
  let d := if bit v 29 then d.onCnt fun c => { c with snap := d.ctr } else d
  let d :=
    if !on ∧ d.on R.CTR_CTRL.DUMP_EN then
      ((d.setReg A.DUMP_WR 0).setReg A.DUMP_RD 0).onCnt fun c => { c with next := 0, skipped := 0, cleared := false, full := false }
    else d
  if bit v 30 ∧ d.on R.CTR_CTRL.DUMP_EN then d.dumpLatch true else d

/-- R311: DUMP_BASE accepts writes only while DUMP_EN = 0. -/
def Dev.dumpBase (d : Dev) (row : RegRow) (a v : Nat) : Dev := if d.on R.CTR_CTRL.DUMP_EN then d else d.sw row a v

/-- R311: a write to DUMP_RD, below 2^SIZE. -/
def Dev.dumpRd (d : Dev) (v : Nat) : Dev :=
  (d.sw Row.DUMP_RD A.DUMP_RD (min (v % 4096) (2 ^ d.get R.CTR_CTRL.SIZE - 1))).onCnt fun c => { c with full := false }

/-- The bytes of a dump record. -/
def DumpRec.bytes (r : DumpRec) : List Byte :=
  bytesLE r.no 8 ++ bytesLE (r.ps + r.sec % 2 ^ 24 * 2 ^ 40) 8 ++ bytesLE r.flags 4 ++ bytesLE r.skipped 4
    ++ bytesLE r.interval 4 ++ bytesLE r.perm 4 ++ List.replicate 4064 0
    ++ (List.range 8192).flatMap fun n => bytesLE (Tbl.get (0 : DWord) r.ctr n).toNat 8

/-- R311, R276: the record being written is completed, or not written outside every region that admits it. -/
def Dev.dumpDone (d : Dev) : Dev :=
  match d.cnt.dump with
  | none => d
  | some r =>
    if !d.dramActive then d.demand
    else
      let n := 2 ^ d.get R.CTR_CTRL.SIZE
      let wr := d.get R.DUMP_WR.REC
      let a := d.get R.DUMP_BASE_HI.ADDR * 2 ^ 32 + d.get R.DUMP_BASE_LO.ADDR * 4096 + 69632 * wr
      let d := (d.set R.DUMP_STATUS.BUSY 0).onCnt fun c => { c with dump := none }
      if !d.admits useDump a 69632 then d.regionViol.orF R.DEV_EVT.EVT 8
      else
        let rd := d.get R.DUMP_RD.REC
        let over_ := d.cnt.full && wr == rd
        let d := if over_ then (d.set R.DUMP_STATUS.OVERRUN 1).set R.DUMP_RD.REC ((rd + 1) % n) else d
        let d := d.putBytes .dram 0 0 a r.bytes
        let wr := (wr + 1) % n
        let d := (d.set R.DUMP_WR.REC wr).setReg A.DUMP_LATCH (r.no % 2 ^ 32)
        (d.orF R.DEV_EVT.EVT 4).onCnt fun c => { c with full := wr == d.get R.DUMP_RD.REC }

/-- R220: CTR READ: the counters named, latched in one C-cycle, into the sender's shared store; a count past its group's end is
clamped, and task mode needs the group's permission bit (R310). -/
def Dev.ctrRead (d : Dev) (e : Nat) : Dev :=
  let task := (d.req e 0x14 0 .sent).any (·.task)
  d.serve e 0x14 0 fun op d =>
    let first := op % 8192
    let n := min (getBits op 20 13 + 1) (256 - first % 256)
    if task ∧ !bit (d.reg A.CTR_PERM) (first / 256) then rep d stRefused
    else
      let dst := getBits op 63 42 / 8 * 8
      rep (d.hubWrite (e / 8) dst ((List.range n).map fun i => ((d.count (first + i)).toNat, false))) stOK

/-! The commands. -/

def execCounterGroupClear (src : Src) (val : BitVec 32) (s : State) : Host.Outcome State Fault Refusal :=
  s.on fun d => d.gate src A.CTR_CLEAR fun d => d.ctrClear val.toNat

def execCounterReadLatch (src : Src) (n : Fin 8192) (s : State) : Host.Outcome State Fault Refusal :=
  s.on fun d => d.gateRead src (A.CNT_LO n) fun d => d.cntLo src n

/-- R309: a write of CTR_CTRL with SNAP = 1. -/
def execCounterSnapshot (src : Src) (val : BitVec 32) (s : State) : Host.Outcome State Fault Refusal :=
  s.on fun d => d.gate src A.CTR_CTRL fun d => d.ctrCtrl (putBit val.toNat 29 true)

/-- R311: a write of CTR_CTRL with DUMP_EN = 1. -/
def execDumpEnable (src : Src) (val : BitVec 32) (s : State) : Host.Outcome State Fault Refusal :=
  s.on fun d => d.gate src A.CTR_CTRL fun d => d.ctrCtrl (putBit val.toNat 31 true)

/-- R311: a write of CTR_CTRL with DUMP_EN = 0. -/
def execDumpDisable (src : Src) (val : BitVec 32) (s : State) : Host.Outcome State Fault Refusal :=
  s.on fun d => d.gate src A.CTR_CTRL fun d => d.ctrCtrl (putBit val.toNat 31 false)

/-- R311: a latch falls due. -/
def execDumpLatch (s : State) : Host.Outcome State Fault Refusal :=
  s.on fun d => if d.on R.CTR_CTRL.DUMP_EN then d.dumpLatch false else d

/-- R311: a write of CTR_CTRL with DUMP_NOW = 1. -/
def execDumpNow (src : Src) (val : BitVec 32) (s : State) : Host.Outcome State Fault Refusal :=
  s.on fun d => d.gate src A.CTR_CTRL fun d => d.ctrCtrl (putBit val.toNat 30 true)

def execDumpRecordDone (s : State) : Host.Outcome State Fault Refusal := s.on fun d => d.dumpDone

def execCtrRead (e : EngId) (s : State) : Host.Outcome State Fault Refusal := s.on fun d => d.ctrRead e

end Sys2Proof.Machine
end

