-- ==== Sys2Proof/Machine/EngineAlu.lean ====
section
/-! DEFINITION. The engine instructions that compute one register from registers and immediates (spec/07, R200 to R204).
`Neloc.<name>` is an instruction's effect on the part; `exec<Name>` the command's meaning. -/

namespace Sys2Proof.Machine

/-! Register ALU, major opcode 0x00, 1 E-cycle each (R200). -/

/-- R200 add: gd ← ga + gb. -/
def Neloc.add (e gd ga gb : Nat) (d : Dev) : Dev := d.compute e gd 1 fun x => x.r ga + x.r gb

/-- R200 sub: gd ← ga − gb. -/
def Neloc.sub (e gd ga gb : Nat) (d : Dev) : Dev := d.compute e gd 1 fun x => x.r ga - x.r gb

/-- R200 and: gd ← ga ∧ gb. -/
def Neloc.and (e gd ga gb : Nat) (d : Dev) : Dev := d.compute e gd 1 fun x => x.r ga &&& x.r gb

/-- R200 or: gd ← ga ∨ gb. -/
def Neloc.or (e gd ga gb : Nat) (d : Dev) : Dev := d.compute e gd 1 fun x => x.r ga ||| x.r gb

/-- R200 xor: gd ← ga ⊕ gb. -/
def Neloc.xor (e gd ga gb : Nat) (d : Dev) : Dev := d.compute e gd 1 fun x => x.r ga ^^^ x.r gb

/-- R200 nor: gd ← ¬(ga ∨ gb). -/
def Neloc.nor (e gd ga gb : Nat) (d : Dev) : Dev := d.compute e gd 1 fun x => ~~~(x.r ga ||| x.r gb)

/-- R200 andn: gd ← ga ∧ ¬gb. -/
def Neloc.andn (e gd ga gb : Nat) (d : Dev) : Dev := d.compute e gd 1 fun x => x.r ga &&& ~~~(x.r gb)

/-- R200 seq: 1 if ga = gb. -/
def Neloc.seq (e gd ga gb : Nat) (d : Dev) : Dev := d.compute e gd 1 fun x => boolD (x.r ga == x.r gb)

/-- R200 sne: 1 if ga ≠ gb. -/
def Neloc.sne (e gd ga gb : Nat) (d : Dev) : Dev := d.compute e gd 1 fun x => boolD (x.r ga != x.r gb)

/-- R200 slt: 1 if ga <s gb. -/
def Neloc.slt (e gd ga gb : Nat) (d : Dev) : Dev := d.compute e gd 1 fun x => boolD ((x.r ga).slt (x.r gb))

/-- R200 sltu: 1 if ga <u gb. -/
def Neloc.sltu (e gd ga gb : Nat) (d : Dev) : Dev := d.compute e gd 1 fun x => boolD ((x.r ga).ult (x.r gb))

/-- R200 sle: 1 if ga ≤s gb. -/
def Neloc.sle (e gd ga gb : Nat) (d : Dev) : Dev := d.compute e gd 1 fun x => boolD ((x.r ga).sle (x.r gb))

/-- R200 sleu: 1 if ga ≤u gb. -/
def Neloc.sleu (e gd ga gb : Nat) (d : Dev) : Dev := d.compute e gd 1 fun x => boolD ((x.r ga).ule (x.r gb))

/-- R200 sll: gd ← ga << gb[5:0]. -/
def Neloc.sll (e gd ga gb : Nat) (d : Dev) : Dev := d.compute e gd 1 fun x => x.r ga <<< shCount (x.r gb)

/-- R200 srl: gd ← ga >>u gb[5:0]. -/
def Neloc.srl (e gd ga gb : Nat) (d : Dev) : Dev := d.compute e gd 1 fun x => x.r ga >>> shCount (x.r gb)

/-- R200 sra: gd ← ga >>s gb[5:0]. -/
def Neloc.sra (e gd ga gb : Nat) (d : Dev) : Dev := d.compute e gd 1 fun x => (x.r ga).sshiftRight (shCount (x.r gb))

/-- R200 rol: gd ← ga rotated left by gb[5:0]. -/
def Neloc.rol (e gd ga gb : Nat) (d : Dev) : Dev := d.compute e gd 1 fun x => (x.r ga).rotateLeft (shCount (x.r gb))

/-- R200 clz: leading zero bits of ga. -/
def Neloc.clz (e gd ga : Nat) (d : Dev) : Dev := d.compute e gd 1 fun x => BitVec.ofNat 64 (leadZeros (x.r ga) 64)

/-- R200 ctz: trailing zero bits of ga. -/
def Neloc.ctz (e gd ga : Nat) (d : Dev) : Dev := d.compute e gd 1 fun x => BitVec.ofNat 64 (trailZeros (x.r ga) 0 64)

/-- R200 popc: number of one bits of ga. -/
def Neloc.popc (e gd ga : Nat) (d : Dev) : Dev := d.compute e gd 1 fun x => BitVec.ofNat 64 (popCount (x.r ga).toNat 64)

/-! Immediates and bit fields, 1 E-cycle each (R201). -/

/-- R201 addi: gd ← ga + sext(imm). -/
def Neloc.addi (e gd ga : Nat) (imm : BitVec 16) (d : Dev) : Dev := d.compute e gd 1 fun x => x.r ga + sext16 imm

/-- R201 andi: gd ← ga ∧ zext(imm). -/
def Neloc.andi (e gd ga : Nat) (imm : BitVec 16) (d : Dev) : Dev := d.compute e gd 1 fun x => x.r ga &&& zext16 imm

/-- R201 ori: gd ← ga ∨ zext(imm). -/
def Neloc.ori (e gd ga : Nat) (imm : BitVec 16) (d : Dev) : Dev := d.compute e gd 1 fun x => x.r ga ||| zext16 imm

/-- R201 xori: gd ← ga ⊕ zext(imm). -/
def Neloc.xori (e gd ga : Nat) (imm : BitVec 16) (d : Dev) : Dev := d.compute e gd 1 fun x => x.r ga ^^^ zext16 imm

/-- R201 slti: 1 if ga <s sext(imm). -/
def Neloc.slti (e gd ga : Nat) (imm : BitVec 16) (d : Dev) : Dev := d.compute e gd 1 fun x => boolD ((x.r ga).slt (sext16 imm))

/-- R201 sltiu: 1 if ga <u sext(imm). -/
def Neloc.sltiu (e gd ga : Nat) (imm : BitVec 16) (d : Dev) : Dev := d.compute e gd 1 fun x => boolD ((x.r ga).ult (sext16 imm))

/-- R201 seqi: 1 if ga = sext(imm). -/
def Neloc.seqi (e gd ga : Nat) (imm : BitVec 16) (d : Dev) : Dev := d.compute e gd 1 fun x => boolD (x.r ga == sext16 imm)

/-- R201 insh1: bits 31:16 replaced by imm. -/
def Neloc.insh1 (e gd ga : Nat) (imm : BitVec 16) (d : Dev) : Dev := d.compute e gd 1 fun x => insHalf 1 (x.r ga) imm

/-- R201 insh2: bits 47:32 replaced by imm. -/
def Neloc.insh2 (e gd ga : Nat) (imm : BitVec 16) (d : Dev) : Dev := d.compute e gd 1 fun x => insHalf 2 (x.r ga) imm

/-- R201 insh3: bits 63:48 replaced by imm. -/
def Neloc.insh3 (e gd ga : Nat) (imm : BitVec 16) (d : Dev) : Dev := d.compute e gd 1 fun x => insHalf 3 (x.r ga) imm

/-- R201 slli: gd ← ga << imm[5:0]. -/
def Neloc.slli (e gd ga sh : Nat) (d : Dev) : Dev := d.compute e gd 1 fun x => x.r ga <<< sh

/-- R201 srli: gd ← ga >>u imm[5:0]. -/
def Neloc.srli (e gd ga sh : Nat) (d : Dev) : Dev := d.compute e gd 1 fun x => x.r ga >>> sh

/-- R201 srai: gd ← ga >>s imm[5:0]. -/
def Neloc.srai (e gd ga sh : Nat) (d : Dev) : Dev := d.compute e gd 1 fun x => (x.r ga).sshiftRight sh

/-- R201 extF: zext of LEN bits of ga from POS. -/
def Neloc.extF (e gd ga pos lenM1 : Nat) (d : Dev) : Dev := d.compute e gd 1 fun x => extField (x.r ga) pos (lenM1 + 1)

/-- R201 extsF: sext of LEN bits of ga from POS. -/
def Neloc.extsF (e gd ga pos lenM1 : Nat) (d : Dev) : Dev := d.compute e gd 1 fun x => extsField (x.r ga) pos (lenM1 + 1)

/-- R201 insF: LEN bits of gd from POS replaced by the low bits of ga. -/
def Neloc.insF (e gd ga pos lenM1 : Nat) (d : Dev) : Dev := d.compute e gd 1 fun x => insField (x.r gd) (x.r ga) pos (lenM1 + 1)

/-! Multiplies, major opcode 0x01, 3 E-cycles each (R202). -/

/-- R202 mul: low 64 bits of the product. -/
def Neloc.mul (e gd ga gb : Nat) (d : Dev) : Dev := d.compute e gd 3 fun x => x.r ga * x.r gb

/-- R202 mulhs: high 64 bits of the signed product. -/
def Neloc.mulhs (e gd ga gb : Nat) (d : Dev) : Dev := d.compute e gd 3 fun x => highPart ((x.r ga).toInt * (x.r gb).toInt)

/-- R202 mulhu: high 64 bits of the unsigned product. -/
def Neloc.mulhu (e gd ga gb : Nat) (d : Dev) : Dev := d.compute e gd 3 fun x => highPart ((x.r ga).toNat * (x.r gb).toNat : Int)

/-- R202 mulhsu: high 64 bits of the signed by unsigned product. -/
def Neloc.mulhsu (e gd ga gb : Nat) (d : Dev) : Dev := d.compute e gd 3 fun x => highPart ((x.r ga).toInt * ((x.r gb).toNat : Int))

/-! Byte lanes, opcodes 0x30 and 0x31, 1 E-cycle each (R203). -/

/-- R203 addb: in each unmasked lane, (a + b) mod 256. -/
def Neloc.addb (e gd ga gb : Nat) (mask : BitVec 8) (d : Dev) : Dev :=
  d.compute e gd 1 fun x => mapLanes (x.r gd) mask fun i => laneU (x.r ga) i + laneU (x.r gb) i

/-- R203 subb: in each unmasked lane, (a − b) mod 256. -/
def Neloc.subb (e gd ga gb : Nat) (mask : BitVec 8) (d : Dev) : Dev :=
  d.compute e gd 1 fun x => mapLanes (x.r gd) mask fun i => (laneU (x.r ga) i : Int) - laneU (x.r gb) i

/-- R203 addbs: in each unmasked lane, a + b, signed, saturated. -/
def Neloc.addbs (e gd ga gb : Nat) (mask : BitVec 8) (d : Dev) : Dev :=
  d.compute e gd 1 fun x => mapLanes (x.r gd) mask fun i => clampI (-128) 127 (laneS (x.r ga) i + laneS (x.r gb) i)

/-- R203 subbs: in each unmasked lane, a − b, signed, saturated. -/
def Neloc.subbs (e gd ga gb : Nat) (mask : BitVec 8) (d : Dev) : Dev :=
  d.compute e gd 1 fun x => mapLanes (x.r gd) mask fun i => clampI (-128) 127 (laneS (x.r ga) i - laneS (x.r gb) i)

/-- R203 addbu: in each unmasked lane, a + b, unsigned, saturated. -/
def Neloc.addbu (e gd ga gb : Nat) (mask : BitVec 8) (d : Dev) : Dev :=
  d.compute e gd 1 fun x => mapLanes (x.r gd) mask fun i => clampI 0 255 (laneU (x.r ga) i + laneU (x.r gb) i)

/-- R203 subbu: in each unmasked lane, a − b, unsigned, saturated. -/
def Neloc.subbu (e gd ga gb : Nat) (mask : BitVec 8) (d : Dev) : Dev :=
  d.compute e gd 1 fun x => mapLanes (x.r gd) mask fun i => clampI 0 255 ((laneU (x.r ga) i : Int) - laneU (x.r gb) i)

/-- R203 avgbu: in each unmasked lane, (a + b + 1) >> 1. -/
def Neloc.avgbu (e gd ga gb : Nat) (mask : BitVec 8) (d : Dev) : Dev :=
  d.compute e gd 1 fun x => mapLanes (x.r gd) mask fun i => ((laneU (x.r ga) i + laneU (x.r gb) i + 1) / 2 : Nat)

/-- R203 absdb: in each unmasked lane, |a − b|. -/
def Neloc.absdb (e gd ga gb : Nat) (mask : BitVec 8) (d : Dev) : Dev :=
  d.compute e gd 1 fun x => mapLanes (x.r gd) mask fun i => (((laneU (x.r ga) i : Int) - laneU (x.r gb) i).natAbs : Int)

/-- R203 minbu: in each unmasked lane, unsigned minimum. -/
def Neloc.minbu (e gd ga gb : Nat) (mask : BitVec 8) (d : Dev) : Dev :=
  d.compute e gd 1 fun x => mapLanes (x.r gd) mask fun i => min (laneUI (x.r ga) i) (laneUI (x.r gb) i)

/-- R203 maxbu: in each unmasked lane, unsigned maximum. -/
def Neloc.maxbu (e gd ga gb : Nat) (mask : BitVec 8) (d : Dev) : Dev :=
  d.compute e gd 1 fun x => mapLanes (x.r gd) mask fun i => max (laneUI (x.r ga) i) (laneUI (x.r gb) i)

/-- R203 minbs: in each unmasked lane, signed minimum. -/
def Neloc.minbs (e gd ga gb : Nat) (mask : BitVec 8) (d : Dev) : Dev :=
  d.compute e gd 1 fun x => mapLanes (x.r gd) mask fun i => min (laneS (x.r ga) i) (laneS (x.r gb) i)

/-- R203 maxbs: in each unmasked lane, signed maximum. -/
def Neloc.maxbs (e gd ga gb : Nat) (mask : BitVec 8) (d : Dev) : Dev :=
  d.compute e gd 1 fun x => mapLanes (x.r gd) mask fun i => max (laneS (x.r ga) i) (laneS (x.r gb) i)

/-- R203 ceqb: in each unmasked lane, 0xFF if equal. -/
def Neloc.ceqb (e gd ga gb : Nat) (mask : BitVec 8) (d : Dev) : Dev :=
  d.compute e gd 1 fun x => mapLanes (x.r gd) mask fun i => if laneU (x.r ga) i = laneU (x.r gb) i then 255 else 0

/-- R203 cgtbu: in each unmasked lane, 0xFF if a >u b. -/
def Neloc.cgtbu (e gd ga gb : Nat) (mask : BitVec 8) (d : Dev) : Dev :=
  d.compute e gd 1 fun x => mapLanes (x.r gd) mask fun i => if laneU (x.r gb) i < laneU (x.r ga) i then 255 else 0

/-- R203 selb: in each unmasked lane, (b ∧ a) ∨ (d ∧ ¬a). -/
def Neloc.selb (e gd ga gb : Nat) (mask : BitVec 8) (d : Dev) : Dev :=
  d.compute e gd 1 fun x => mapLanes (x.r gd) mask fun i => ((laneU (x.r gb) i &&& laneU (x.r ga) i) ||| (laneU (x.r gd) i &&& (255 - laneU (x.r ga) i)) : Nat)

/-- R203 sadb: gd plus the sum of |a − b| over the unmasked lanes. -/
def Neloc.sadb (e gd ga gb : Nat) (mask : BitVec 8) (d : Dev) : Dev :=
  d.compute e gd 1 fun x => x.r gd + BitVec.ofNat 64 (sumAbs (x.r ga) (x.r gb) mask)

/-! Lane pairs, opcode 0x32, 2 E-cycles each (R204). -/

/-- R204 macuu: 16-bit lane j of gd becomes h + P_j. -/
def Neloc.macuu (e gd ga gb : Nat) (mask : BitVec 8) (d : Dev) : Dev :=
  d.compute e gd 2 fun x => mapPairs (x.r gd) mask fun j h => h + pairProduct laneUI laneUI (x.r ga) (x.r gb) mask j

/-- R204 macss: 16-bit lane j of gd becomes h + P_j. -/
def Neloc.macss (e gd ga gb : Nat) (mask : BitVec 8) (d : Dev) : Dev :=
  d.compute e gd 2 fun x => mapPairs (x.r gd) mask fun j h => h + pairProduct laneS laneS (x.r ga) (x.r gb) mask j

/-- R204 macsu: 16-bit lane j of gd becomes h + P_j. -/
def Neloc.macsu (e gd ga gb : Nat) (mask : BitVec 8) (d : Dev) : Dev :=
  d.compute e gd 2 fun x => mapPairs (x.r gd) mask fun j h => h + pairProduct laneS laneUI (x.r ga) (x.r gb) mask j

/-- R204 macsss: 16-bit lane j of gd becomes saturated (h + P_j). -/
def Neloc.macsss (e gd ga gb : Nat) (mask : BitVec 8) (d : Dev) : Dev :=
  d.compute e gd 2 fun x => mapPairs (x.r gd) mask fun j h => clampI (-32768) 32767 (h + pairProduct laneS laneS (x.r ga) (x.r gb) mask j)

/-- R204 mulpuu: 16-bit lane j of gd becomes P_j. -/
def Neloc.mulpuu (e gd ga gb : Nat) (mask : BitVec 8) (d : Dev) : Dev :=
  d.compute e gd 2 fun x => mapPairs (x.r gd) mask fun j _ => pairProduct laneUI laneUI (x.r ga) (x.r gb) mask j

/-- R204 mulpss: 16-bit lane j of gd becomes P_j. -/
def Neloc.mulpss (e gd ga gb : Nat) (mask : BitVec 8) (d : Dev) : Dev :=
  d.compute e gd 2 fun x => mapPairs (x.r gd) mask fun j _ => pairProduct laneS laneS (x.r ga) (x.r gb) mask j

/-! The meanings of the commands. -/

def execAdd (e : EngId) (gd ga gb : GReg) (s : State) : Host.Outcome State Fault Refusal :=
  s.on (Neloc.add e gd ga gb)

def execSub (e : EngId) (gd ga gb : GReg) (s : State) : Host.Outcome State Fault Refusal :=
  s.on (Neloc.sub e gd ga gb)

def execAnd (e : EngId) (gd ga gb : GReg) (s : State) : Host.Outcome State Fault Refusal :=
  s.on (Neloc.and e gd ga gb)

def execOr (e : EngId) (gd ga gb : GReg) (s : State) : Host.Outcome State Fault Refusal :=
  s.on (Neloc.or e gd ga gb)

def execXor (e : EngId) (gd ga gb : GReg) (s : State) : Host.Outcome State Fault Refusal :=
  s.on (Neloc.xor e gd ga gb)

def execNor (e : EngId) (gd ga gb : GReg) (s : State) : Host.Outcome State Fault Refusal :=
  s.on (Neloc.nor e gd ga gb)

def execAndn (e : EngId) (gd ga gb : GReg) (s : State) : Host.Outcome State Fault Refusal :=
  s.on (Neloc.andn e gd ga gb)

def execSeq (e : EngId) (gd ga gb : GReg) (s : State) : Host.Outcome State Fault Refusal :=
  s.on (Neloc.seq e gd ga gb)

def execSne (e : EngId) (gd ga gb : GReg) (s : State) : Host.Outcome State Fault Refusal :=
  s.on (Neloc.sne e gd ga gb)

def execSlt (e : EngId) (gd ga gb : GReg) (s : State) : Host.Outcome State Fault Refusal :=
  s.on (Neloc.slt e gd ga gb)

def execSltu (e : EngId) (gd ga gb : GReg) (s : State) : Host.Outcome State Fault Refusal :=
  s.on (Neloc.sltu e gd ga gb)

def execSle (e : EngId) (gd ga gb : GReg) (s : State) : Host.Outcome State Fault Refusal :=
  s.on (Neloc.sle e gd ga gb)

def execSleu (e : EngId) (gd ga gb : GReg) (s : State) : Host.Outcome State Fault Refusal :=
  s.on (Neloc.sleu e gd ga gb)

def execSll (e : EngId) (gd ga gb : GReg) (s : State) : Host.Outcome State Fault Refusal :=
  s.on (Neloc.sll e gd ga gb)

def execSrl (e : EngId) (gd ga gb : GReg) (s : State) : Host.Outcome State Fault Refusal :=
  s.on (Neloc.srl e gd ga gb)

def execSra (e : EngId) (gd ga gb : GReg) (s : State) : Host.Outcome State Fault Refusal :=
  s.on (Neloc.sra e gd ga gb)

def execRol (e : EngId) (gd ga gb : GReg) (s : State) : Host.Outcome State Fault Refusal :=
  s.on (Neloc.rol e gd ga gb)

def execMul (e : EngId) (gd ga gb : GReg) (s : State) : Host.Outcome State Fault Refusal :=
  s.on (Neloc.mul e gd ga gb)

def execMulhs (e : EngId) (gd ga gb : GReg) (s : State) : Host.Outcome State Fault Refusal :=
  s.on (Neloc.mulhs e gd ga gb)

def execMulhu (e : EngId) (gd ga gb : GReg) (s : State) : Host.Outcome State Fault Refusal :=
  s.on (Neloc.mulhu e gd ga gb)

def execMulhsu (e : EngId) (gd ga gb : GReg) (s : State) : Host.Outcome State Fault Refusal :=
  s.on (Neloc.mulhsu e gd ga gb)

def execClz (e : EngId) (gd ga : GReg) (s : State) : Host.Outcome State Fault Refusal :=
  s.on (Neloc.clz e gd ga)

def execCtz (e : EngId) (gd ga : GReg) (s : State) : Host.Outcome State Fault Refusal :=
  s.on (Neloc.ctz e gd ga)

def execPopc (e : EngId) (gd ga : GReg) (s : State) : Host.Outcome State Fault Refusal :=
  s.on (Neloc.popc e gd ga)

def execAddi (e : EngId) (gd ga : GReg) (imm : BitVec 16) (s : State) : Host.Outcome State Fault Refusal :=
  s.on (Neloc.addi e gd ga imm)

def execAndi (e : EngId) (gd ga : GReg) (imm : BitVec 16) (s : State) : Host.Outcome State Fault Refusal :=
  s.on (Neloc.andi e gd ga imm)

def execOri (e : EngId) (gd ga : GReg) (imm : BitVec 16) (s : State) : Host.Outcome State Fault Refusal :=
  s.on (Neloc.ori e gd ga imm)

def execXori (e : EngId) (gd ga : GReg) (imm : BitVec 16) (s : State) : Host.Outcome State Fault Refusal :=
  s.on (Neloc.xori e gd ga imm)

def execSlti (e : EngId) (gd ga : GReg) (imm : BitVec 16) (s : State) : Host.Outcome State Fault Refusal :=
  s.on (Neloc.slti e gd ga imm)

def execSltiu (e : EngId) (gd ga : GReg) (imm : BitVec 16) (s : State) : Host.Outcome State Fault Refusal :=
  s.on (Neloc.sltiu e gd ga imm)

def execSeqi (e : EngId) (gd ga : GReg) (imm : BitVec 16) (s : State) : Host.Outcome State Fault Refusal :=
  s.on (Neloc.seqi e gd ga imm)

def execInsh1 (e : EngId) (gd ga : GReg) (imm : BitVec 16) (s : State) : Host.Outcome State Fault Refusal :=
  s.on (Neloc.insh1 e gd ga imm)

def execInsh2 (e : EngId) (gd ga : GReg) (imm : BitVec 16) (s : State) : Host.Outcome State Fault Refusal :=
  s.on (Neloc.insh2 e gd ga imm)

def execInsh3 (e : EngId) (gd ga : GReg) (imm : BitVec 16) (s : State) : Host.Outcome State Fault Refusal :=
  s.on (Neloc.insh3 e gd ga imm)

def execSlli (e : EngId) (gd ga : GReg) (sh : Fin 64) (s : State) : Host.Outcome State Fault Refusal :=
  s.on (Neloc.slli e gd ga sh)

def execSrli (e : EngId) (gd ga : GReg) (sh : Fin 64) (s : State) : Host.Outcome State Fault Refusal :=
  s.on (Neloc.srli e gd ga sh)

def execSrai (e : EngId) (gd ga : GReg) (sh : Fin 64) (s : State) : Host.Outcome State Fault Refusal :=
  s.on (Neloc.srai e gd ga sh)

def execExtF (e : EngId) (gd ga : GReg) (pos lenM1 : Fin 64) (s : State) : Host.Outcome State Fault Refusal :=
  s.on (Neloc.extF e gd ga pos lenM1)

def execExtsF (e : EngId) (gd ga : GReg) (pos lenM1 : Fin 64) (s : State) : Host.Outcome State Fault Refusal :=
  s.on (Neloc.extsF e gd ga pos lenM1)

def execInsF (e : EngId) (gd ga : GReg) (pos lenM1 : Fin 64) (s : State) : Host.Outcome State Fault Refusal :=
  s.on (Neloc.insF e gd ga pos lenM1)

def execAddb (e : EngId) (gd ga gb : GReg) (mask : BitVec 8) (s : State) : Host.Outcome State Fault Refusal :=
  s.on (Neloc.addb e gd ga gb mask)

def execSubb (e : EngId) (gd ga gb : GReg) (mask : BitVec 8) (s : State) : Host.Outcome State Fault Refusal :=
  s.on (Neloc.subb e gd ga gb mask)

def execAddbs (e : EngId) (gd ga gb : GReg) (mask : BitVec 8) (s : State) : Host.Outcome State Fault Refusal :=
  s.on (Neloc.addbs e gd ga gb mask)

def execSubbs (e : EngId) (gd ga gb : GReg) (mask : BitVec 8) (s : State) : Host.Outcome State Fault Refusal :=
  s.on (Neloc.subbs e gd ga gb mask)

def execAddbu (e : EngId) (gd ga gb : GReg) (mask : BitVec 8) (s : State) : Host.Outcome State Fault Refusal :=
  s.on (Neloc.addbu e gd ga gb mask)

def execSubbu (e : EngId) (gd ga gb : GReg) (mask : BitVec 8) (s : State) : Host.Outcome State Fault Refusal :=
  s.on (Neloc.subbu e gd ga gb mask)

def execAvgbu (e : EngId) (gd ga gb : GReg) (mask : BitVec 8) (s : State) : Host.Outcome State Fault Refusal :=
  s.on (Neloc.avgbu e gd ga gb mask)

def execAbsdb (e : EngId) (gd ga gb : GReg) (mask : BitVec 8) (s : State) : Host.Outcome State Fault Refusal :=
  s.on (Neloc.absdb e gd ga gb mask)

def execMinbu (e : EngId) (gd ga gb : GReg) (mask : BitVec 8) (s : State) : Host.Outcome State Fault Refusal :=
  s.on (Neloc.minbu e gd ga gb mask)

def execMaxbu (e : EngId) (gd ga gb : GReg) (mask : BitVec 8) (s : State) : Host.Outcome State Fault Refusal :=
  s.on (Neloc.maxbu e gd ga gb mask)

def execMinbs (e : EngId) (gd ga gb : GReg) (mask : BitVec 8) (s : State) : Host.Outcome State Fault Refusal :=
  s.on (Neloc.minbs e gd ga gb mask)

def execMaxbs (e : EngId) (gd ga gb : GReg) (mask : BitVec 8) (s : State) : Host.Outcome State Fault Refusal :=
  s.on (Neloc.maxbs e gd ga gb mask)

def execCeqb (e : EngId) (gd ga gb : GReg) (mask : BitVec 8) (s : State) : Host.Outcome State Fault Refusal :=
  s.on (Neloc.ceqb e gd ga gb mask)

def execCgtbu (e : EngId) (gd ga gb : GReg) (mask : BitVec 8) (s : State) : Host.Outcome State Fault Refusal :=
  s.on (Neloc.cgtbu e gd ga gb mask)

def execSelb (e : EngId) (gd ga gb : GReg) (mask : BitVec 8) (s : State) : Host.Outcome State Fault Refusal :=
  s.on (Neloc.selb e gd ga gb mask)

def execSadb (e : EngId) (gd ga gb : GReg) (mask : BitVec 8) (s : State) : Host.Outcome State Fault Refusal :=
  s.on (Neloc.sadb e gd ga gb mask)

def execMacuu (e : EngId) (gd ga gb : GReg) (mask : BitVec 8) (s : State) : Host.Outcome State Fault Refusal :=
  s.on (Neloc.macuu e gd ga gb mask)

def execMacss (e : EngId) (gd ga gb : GReg) (mask : BitVec 8) (s : State) : Host.Outcome State Fault Refusal :=
  s.on (Neloc.macss e gd ga gb mask)

def execMacsu (e : EngId) (gd ga gb : GReg) (mask : BitVec 8) (s : State) : Host.Outcome State Fault Refusal :=
  s.on (Neloc.macsu e gd ga gb mask)

def execMacsss (e : EngId) (gd ga gb : GReg) (mask : BitVec 8) (s : State) : Host.Outcome State Fault Refusal :=
  s.on (Neloc.macsss e gd ga gb mask)

def execMulpuu (e : EngId) (gd ga gb : GReg) (mask : BitVec 8) (s : State) : Host.Outcome State Fault Refusal :=
  s.on (Neloc.mulpuu e gd ga gb mask)

def execMulpss (e : EngId) (gd ga gb : GReg) (mask : BitVec 8) (s : State) : Host.Outcome State Fault Refusal :=
  s.on (Neloc.mulpss e gd ga gb mask)

end Sys2Proof.Machine
end

