-- ==== Sys2Proof/Machine/EngineMem.lean ====
section
/-! DEFINITION. The loads, stores and atomics of the engines (spec/07, R205, R206). -/

namespace Sys2Proof.Machine

/-- R205 ldB: gd ← sext(mem8) at ga + sext(imm). -/
def Neloc.ldB (e gd ga : Nat) (imm : BitVec 16) (d : Dev) : Dev := d.load e gd true 1 fun x => x.r ga + sext16 imm

/-- R205 ldBu: gd ← zext(mem8) at ga + sext(imm). -/
def Neloc.ldBu (e gd ga : Nat) (imm : BitVec 16) (d : Dev) : Dev := d.load e gd false 1 fun x => x.r ga + sext16 imm

/-- R205 ldH: gd ← sext(mem16) at ga + sext(imm). -/
def Neloc.ldH (e gd ga : Nat) (imm : BitVec 16) (d : Dev) : Dev := d.load e gd true 2 fun x => x.r ga + sext16 imm

/-- R205 ldHu: gd ← zext(mem16) at ga + sext(imm). -/
def Neloc.ldHu (e gd ga : Nat) (imm : BitVec 16) (d : Dev) : Dev := d.load e gd false 2 fun x => x.r ga + sext16 imm

/-- R205 ldW: gd ← sext(mem32) at ga + sext(imm). -/
def Neloc.ldW (e gd ga : Nat) (imm : BitVec 16) (d : Dev) : Dev := d.load e gd true 4 fun x => x.r ga + sext16 imm

/-- R205 ldWu: gd ← zext(mem32) at ga + sext(imm). -/
def Neloc.ldWu (e gd ga : Nat) (imm : BitVec 16) (d : Dev) : Dev := d.load e gd false 4 fun x => x.r ga + sext16 imm

/-- R205 ldD: gd ← mem64 at ga + sext(imm). -/
def Neloc.ldD (e gd ga : Nat) (imm : BitVec 16) (d : Dev) : Dev := d.load e gd false 8 fun x => x.r ga + sext16 imm

/-- R205 stB: the low 1 bytes of gd to ga + sext(imm). -/
def Neloc.stB (e gd ga : Nat) (imm : BitVec 16) (d : Dev) : Dev := d.storeOp e gd 1 fun x => x.r ga + sext16 imm

/-- R205 stH: the low 2 bytes of gd to ga + sext(imm). -/
def Neloc.stH (e gd ga : Nat) (imm : BitVec 16) (d : Dev) : Dev := d.storeOp e gd 2 fun x => x.r ga + sext16 imm

/-- R205 stW: the low 4 bytes of gd to ga + sext(imm). -/
def Neloc.stW (e gd ga : Nat) (imm : BitVec 16) (d : Dev) : Dev := d.storeOp e gd 4 fun x => x.r ga + sext16 imm

/-- R205 stD: the low 8 bytes of gd to ga + sext(imm). -/
def Neloc.stD (e gd ga : Nat) (imm : BitVec 16) (d : Dev) : Dev := d.storeOp e gd 8 fun x => x.r ga + sext16 imm

/-- R206 aadd: gd ← mem; mem ← mem + gb. -/
def Neloc.aadd (e gd ga gb : Nat) (w32 : Bool) (d : Dev) : Dev := d.atomic e gd ga gb w32 (fun old g _ => some (old + g))

/-- R206 aswap: gd ← mem; mem ← gb. -/
def Neloc.aswap (e gd ga gb : Nat) (w32 : Bool) (d : Dev) : Dev := d.atomic e gd ga gb w32 (fun _ g _ => some g)

/-- R206 aand: gd ← mem; mem ← mem ∧ gb. -/
def Neloc.aand (e gd ga gb : Nat) (w32 : Bool) (d : Dev) : Dev := d.atomic e gd ga gb w32 (fun old g _ => some (old &&& g))

/-- R206 aor: gd ← mem; mem ← mem ∨ gb. -/
def Neloc.aor (e gd ga gb : Nat) (w32 : Bool) (d : Dev) : Dev := d.atomic e gd ga gb w32 (fun old g _ => some (old ||| g))

/-- R206 axor: gd ← mem; mem ← mem ⊕ gb. -/
def Neloc.axor (e gd ga gb : Nat) (w32 : Bool) (d : Dev) : Dev := d.atomic e gd ga gb w32 (fun old g _ => some (old ^^^ g))

/-- R206 acas: gd ← mem; mem ← gb if mem = gd, else kept. -/
def Neloc.acas (e gd ga gb : Nat) (w32 : Bool) (d : Dev) : Dev := d.atomic e gd ga gb w32 (fun old g c => if old = c then some g else none)

/-! The meanings of the commands. -/

def execLdB (e : EngId) (gd ga : GReg) (imm : BitVec 16) (s : State) : Host.Outcome State Fault Refusal :=
  s.on (Neloc.ldB e gd ga imm)

def execLdBu (e : EngId) (gd ga : GReg) (imm : BitVec 16) (s : State) : Host.Outcome State Fault Refusal :=
  s.on (Neloc.ldBu e gd ga imm)

def execLdH (e : EngId) (gd ga : GReg) (imm : BitVec 16) (s : State) : Host.Outcome State Fault Refusal :=
  s.on (Neloc.ldH e gd ga imm)

def execLdHu (e : EngId) (gd ga : GReg) (imm : BitVec 16) (s : State) : Host.Outcome State Fault Refusal :=
  s.on (Neloc.ldHu e gd ga imm)

def execLdW (e : EngId) (gd ga : GReg) (imm : BitVec 16) (s : State) : Host.Outcome State Fault Refusal :=
  s.on (Neloc.ldW e gd ga imm)

def execLdWu (e : EngId) (gd ga : GReg) (imm : BitVec 16) (s : State) : Host.Outcome State Fault Refusal :=
  s.on (Neloc.ldWu e gd ga imm)

def execLdD (e : EngId) (gd ga : GReg) (imm : BitVec 16) (s : State) : Host.Outcome State Fault Refusal :=
  s.on (Neloc.ldD e gd ga imm)

def execStB (e : EngId) (gd ga : GReg) (imm : BitVec 16) (s : State) : Host.Outcome State Fault Refusal :=
  s.on (Neloc.stB e gd ga imm)

def execStH (e : EngId) (gd ga : GReg) (imm : BitVec 16) (s : State) : Host.Outcome State Fault Refusal :=
  s.on (Neloc.stH e gd ga imm)

def execStW (e : EngId) (gd ga : GReg) (imm : BitVec 16) (s : State) : Host.Outcome State Fault Refusal :=
  s.on (Neloc.stW e gd ga imm)

def execStD (e : EngId) (gd ga : GReg) (imm : BitVec 16) (s : State) : Host.Outcome State Fault Refusal :=
  s.on (Neloc.stD e gd ga imm)

def execAadd (e : EngId) (gd ga gb : GReg) (w32 : Bool) (s : State) : Host.Outcome State Fault Refusal :=
  s.on (Neloc.aadd e gd ga gb w32)

def execAswap (e : EngId) (gd ga gb : GReg) (w32 : Bool) (s : State) : Host.Outcome State Fault Refusal :=
  s.on (Neloc.aswap e gd ga gb w32)

def execAand (e : EngId) (gd ga gb : GReg) (w32 : Bool) (s : State) : Host.Outcome State Fault Refusal :=
  s.on (Neloc.aand e gd ga gb w32)

def execAor (e : EngId) (gd ga gb : GReg) (w32 : Bool) (s : State) : Host.Outcome State Fault Refusal :=
  s.on (Neloc.aor e gd ga gb w32)

def execAxor (e : EngId) (gd ga gb : GReg) (w32 : Bool) (s : State) : Host.Outcome State Fault Refusal :=
  s.on (Neloc.axor e gd ga gb w32)

def execAcas (e : EngId) (gd ga gb : GReg) (w32 : Bool) (s : State) : Host.Outcome State Fault Refusal :=
  s.on (Neloc.acas e gd ga gb w32)

end Sys2Proof.Machine
end

