-- ==== Sys2Proof/Machine/EngineCtl.lean ====
section
/-! DEFINITION. Control flow, system registers, channels and the events between instructions of the engines (spec/07, R195,
R196, R207, R208, R212, R214 to R216, R226 to R228). -/

namespace Sys2Proof.Machine

/-! Branches and jumps (R207). -/

/-- A branch target: words of offset from the branch itself. -/
def relTarget (x : EngSt) (off : DWord) : DWord := x.pc.setWidth 64 + 4 * off

/-- A conditional branch: 3 E-cycles taken, 1 not taken. -/
def Dev.branch (d : Dev) (e : Nat) (c : EngSt → Bool) (imm : BitVec 16) : Dev :=
  d.issue e fun i d =>
    if c (d.e e) then d.jumpTo e i 3 (relTarget (d.e e) (sext16 imm)) id else d.onE e fun x => x.next i 1

/-- R207 bz. -/
def Neloc.bz (e ga : Nat) (imm : BitVec 16) (d : Dev) : Dev := d.branch e (fun x => x.r ga == 0) imm

/-- R207 bnz. -/
def Neloc.bnz (e ga : Nat) (imm : BitVec 16) (d : Dev) : Dev := d.branch e (fun x => x.r ga != 0) imm

/-- R207 j. -/
def Neloc.j (e : Nat) (off : BitVec 26) (d : Dev) : Dev :=
  d.issue e fun i d => d.jumpTo e i 3 (relTarget (d.e e) (off.signExtend 64)) id

/-- R207 jal: g31 takes the address of the next instruction. -/
def Neloc.jal (e : Nat) (off : BitVec 26) (d : Dev) : Dev :=
  d.issue e fun i d => d.jumpTo e i 3 (relTarget (d.e e) (off.signExtend 64)) fun x => x.w 31 ((x.pc + 4).setWidth 64)

/-- R207 jr. -/
def Neloc.jr (e ga : Nat) (d : Dev) : Dev := d.issue e fun i d => d.jumpTo e i 3 ((d.e e).r ga) id

/-- R207 jalr: the target is read before gd is written. -/
def Neloc.jalr (e gd ga : Nat) (d : Dev) : Dev :=
  d.issue e fun i d => d.jumpTo e i 3 ((d.e e).r ga) fun x => x.w gd ((x.pc + 4).setWidth 64)

/-! System registers (R196). -/

/-- R196: the sy numbers that exist. -/
def syListed (n : Nat) : Bool := decide (n ≤ 7) || [9, 10, 11, 12, 13, 14, 16, 40, 41, 42].contains n || decide (32 ≤ n ∧ n < 40)

/-- R196: the sy numbers only a warden has. -/
def syWarden (n : Nat) : Bool := [40, 41, 42].contains n

/-- R196: the sy numbers a task may read. -/
def syTaskRead (n : Nat) : Bool := [0, 1, 2, 9, 12, 16].contains n || decide (32 ≤ n ∧ n < 40)

/-- R208: the sy numbers a task may write. -/
def syTaskWrite (n : Nat) : Bool := n == 12 || decide (32 ≤ n ∧ n < 40)

/-- R196, R210, R211: the exception an access to sy n meets. -/
def syFault (x : EngSt) (e n : Nat) (write : Bool) : Option (Nat × Nat × DWord) :=
  if !syListed n || (syWarden n && decide (e < 88)) then some (vIllegal, 0, 0)
  else if x.task && !(if write then syTaskWrite n else syTaskRead n) then some (vPrivilege, 4, 0)
  else none

/-- R196: the value of sy n (CLAIM apart) read in E-cycle i. -/
def Dev.syRead (d : Dev) (e n i : Nat) : DWord :=
  let x := d.e e
  if n = 0 then BitVec.ofNat 64 ((roleOf e).code * 256 + e / 8 * 16 + e % 8)
  else if n = 1 then BitVec.ofNat 64 i
  else if n = 2 then x.status.setWidth 64
  else if n = 3 then x.estatus.setWidth 64
  else if n = 4 then x.epc
  else if n = 5 then BitVec.ofNat 64 (x.det * 256 + x.vec)
  else if n = 6 then x.eval
  else if n = 7 then x.vbase.setWidth 64
  else if n = 9 then d.evpend e i
  else if n = 10 then (match x.timerAt with | some t => BitVec.ofNat 64 (t - i) | none => 0)
  else if n = 11 then BitVec.ofNat 64 (b2n x.wdogEn * 2 ^ 31 + x.wdogExp)
  else if n = 13 then BitVec.ofNat 64 (x.winLLimit * 65536 + x.winLBase)
  else if n = 14 then BitVec.ofNat 64 (x.winSLimit * 65536 + x.winSBase)
  else if n = 16 then BitVec.ofNat 64 (d.chmode e)
  else if 32 ≤ n ∧ n < 40 then Tbl.get 0 x.scratch n
  else if n = 42 then BitVec.ofNat 64 (d.runPrio (e - 88))
  else 0

/-- R196, R212, R228: sy n (EOI apart) written with v in E-cycle i; values are clamped, RO registers ignore the write. -/
def EngSt.syWrite (x : EngSt) (e n i : Nat) (v : DWord) : EngSt :=
  let w := v.toNat
  if n = 2 then x.setStatus (statusMask e (v.setWidth 3))
  else if n = 3 then { x with estatus := statusMask e (v.setWidth 3) }
  else if n = 4 then { x with epc := v }
  else if n = 7 then { x with vbase := BitVec.ofNat 32 (w % 65536 / 1024 * 1024) }
  else if n = 10 then { x with timerExp := false, timerAt := if w % 2 ^ 32 = 0 then none else some (i + w % 2 ^ 32) }
  else if n = 11 then
    { x with wdogEn := bit w 31, wdogExp := clampN 10 30 (w % 32),
             wdogStart := if bit w 31 && !x.wdogEn then i else x.wdogStart }
  else if n = 12 then { x with wdogStart := i, wdogMissed := false }
  else if n = 13 then
    let base := clampN 16 63 (w % 64)
    { x with winLBase := base, winLLimit := max (clampN 17 64 (getBits w 22 16)) (base + 1) }
  else if n = 14 then
    let base := w % 1024
    { x with winSBase := base, winSLimit := max (clampN 1 1024 (getBits w 26 16)) (base + 1) }
  else if 32 ≤ n ∧ n < 40 then { x with scratch := Tbl.set 0 x.scratch n v }
  else x

/-- R208 mfsy: 1 E-cycle, 4 for CLAIM, which claims (R300). -/
def Neloc.mfsy (e gd n : Nat) (d : Dev) : Dev :=
  d.issue e fun i d =>
    match syFault (d.e e) e n false with
    | some (vec, det, ev) => d.faulting e vec det ev i
    | none =>
      if n = 40 then
        let (v, d) := d.claim (e - 88)
        d.onE e fun x => (x.w gd (BitVec.ofNat 64 v)).next i 4
      else d.onE e fun x => (x.w gd (d.syRead e n i)).next i 1

/-- R208 mtsy; EOI ends an interrupt (R301). -/
def Neloc.mtsy (e n ga : Nat) (d : Dev) : Dev :=
  d.issue e fun i d =>
    match syFault (d.e e) e n true with
    | some (vec, det, ev) => d.faulting e vec det ev i
    | none =>
      if n = 41 then (d.eoi (e - 88)).onE e fun x => x.next i 1
      else d.onE e fun x => (x.syWrite e n i (x.r ga)).next i 1

/-- R208 eret: STATUS ← ESTATUS, pc ← EPC; in task mode PRIVILEGE. -/
def Neloc.eret (e : Nat) (d : Dev) : Dev :=
  d.issue e fun i d =>
    if (d.e e).task then d.faulting e vPrivilege 1 0 i
    else d.jumpTo e i 3 (d.e e).epc fun x => x.setStatus x.estatus

/-- R208, R212 trap: the exception's entry starts 1 E-cycle after the issue, with EPC the next instruction. -/
def Neloc.trap (e code : Nat) (d : Dev) : Dev :=
  d.issue e fun i d => d.except e vTrap code (d.pc64 e + 4) 0 (i + 1)

/-- R227 ewait: with a selected event pending the result is in gd and the next instruction issues 6 E-cycles later;
otherwise the engine waits. -/
def Neloc.ewait (e gd ga : Nat) (d : Dev) : Dev :=
  d.issue e fun i d =>
    let m := (d.e e).r ga
    let v := d.evpend e i &&& m
    if v != 0 then d.onE e fun x => (x.w gd v).next i 6
    else d.onE e fun x => { x with st := .waiting, wait := some (.event gd m), ready := i }

/-- R208 halt: the engine enters HALTED after 1 E-cycle; in task mode PRIVILEGE. -/
def Neloc.halt (e : Nat) (d : Dev) : Dev :=
  d.issue e fun i d =>
    if (d.e e).task then d.faulting e vPrivilege 1 0 i
    else (d.onE e fun x => x.next i 1).stopEngine e .halted

/-- R215 csend. -/
def Neloc.csend (e gd ga ch cmd : Nat) (d : Dev) : Dev := d.csend e gd ga ch cmd

/-- R216 crecv with command 0; parity: the word taken passes its parity check. -/
def Neloc.crecv (e gd ga ch : Nat) (parity : Bool) (d : Dev) : Dev := d.crecv e gd ga ch 0 parity

/-- R214 crecv with another command: 1 closes an octet notice channel, any other raises CHANNEL. -/
def Neloc.channelClose (e gd ga ch cmd : Nat) (d : Dev) : Dev := d.crecv e gd ga ch cmd true

/-! Between instructions. -/

/-- R211 to R213: a warden takes INTERRUPT while its request line is asserted, IE = 1 and EXL = 0; a WATCHDOG due goes first. -/
def Neloc.interruptEntry (e : Nat) (d : Dev) : Dev :=
  let x := d.e e
  if 88 ≤ e ∧ (x.st = .running ∨ x.st = .waiting) ∧ d.clAwake e ∧ x.ie ∧ !x.exl ∧ d.line (e - 88) then
    d.takeDue e ((d.entryDue e).getD vInterrupt)
  else d

/-- R188, R212: the watchdog period of engine e ends. -/
def Neloc.watchdogExpiry (e : Nat) (d : Dev) : Dev :=
  let x := d.e e
  if (x.st = .running ∨ x.st = .waiting) ∧ d.clAwake e ∧ x.wdogEn then d.watchdog e else d

/-- R228: TIMER of engine e counts to zero and EVPEND bit 8 sets. -/
def Neloc.timerExpiry (e : Nat) (d : Dev) : Dev :=
  match (d.e e).timerAt with
  | some t => if d.clAwake e then (d.reach e t).onE e fun x => { x with timerAt := none, timerExp := true } else d
  | none => d

/-- R211: a wait of engine e ends as f says, unless an exception is due first. -/
def Dev.wake (d : Dev) (e : Nat) (f : Dev → Dev) : Dev :=
  if !d.clAwake e then d
  else match d.entryDue e with
  | some vec => d.takeDue e vec
  | none => f d

/-- R227: a waiting ewait completes: gd ← EVPEND ∧ mask as sampled, and the next instruction issues 6 E-cycles later. -/
def Neloc.ewaitWake (e : Nat) (d : Dev) : Dev :=
  let x := d.e e
  match x.st, x.wait with
  | .waiting, some (.event gd m) =>
    let i := d.issueAt e
    let v := d.evpend e i &&& m
    if v != 0 then d.wake e fun d => d.onE e fun x => { (x.w gd v).next i 6 with st := .running, wait := none } else d
  | _, _ => d

/-- R216: a waiting crecv completes 2 E-cycles after a word arrived; parity: the word passes its parity check. -/
def Neloc.crecvWake (e : Nat) (parity : Bool) (d : Dev) : Dev :=
  let x := d.e e
  match x.st, x.wait with
  | .waiting, some (.word gd ga ch _) =>
    let i := max (d.issueAt e) (((x.mboxFrom ch).head?.map (·.at_)).getD 0)
    match x.wordsOn ch i with
    | w :: _ => d.wake e fun d =>
      (d.checkWord ch parity).onE e fun x => { x.take gd ga ch i 2 (w.checked ch parity) with st := .running, wait := none }
    | [] => d
  | _, _ => d

/-- R195, R210: the next fetch of engine e finds a poisoned word or lies past 0x0000_FFFC. -/
def Neloc.fetchFault (e : Nat) (d : Dev) : Dev :=
  let x := d.e e
  let bad := decide (0xFFFC < x.pc.toNat) ||
    (d.readWord .loc (e / 8) (e % 8) (x.pc.toNat / 8)).2.1
  if bad then d.issue e fun _ d => d else d

/-! The instruction words (R197, R198). -/

/-- R200: major opcode 0x00, by fn bits 5:0. -/
def aluRun (e gd ga gb : Nat) : Nat → Option (Dev → Dev)
  | 0x00 => some (Neloc.add e gd ga gb)
  | 0x01 => some (Neloc.sub e gd ga gb)
  | 0x02 => some (Neloc.and e gd ga gb)
  | 0x03 => some (Neloc.or e gd ga gb)
  | 0x04 => some (Neloc.xor e gd ga gb)
  | 0x05 => some (Neloc.nor e gd ga gb)
  | 0x06 => some (Neloc.andn e gd ga gb)
  | 0x10 => some (Neloc.seq e gd ga gb)
  | 0x11 => some (Neloc.sne e gd ga gb)
  | 0x12 => some (Neloc.slt e gd ga gb)
  | 0x13 => some (Neloc.sltu e gd ga gb)
  | 0x14 => some (Neloc.sle e gd ga gb)
  | 0x15 => some (Neloc.sleu e gd ga gb)
  | 0x20 => some (Neloc.sll e gd ga gb)
  | 0x21 => some (Neloc.srl e gd ga gb)
  | 0x22 => some (Neloc.sra e gd ga gb)
  | 0x23 => some (Neloc.rol e gd ga gb)
  | 0x30 => some (Neloc.clz e gd ga)
  | 0x31 => some (Neloc.ctz e gd ga)
  | 0x32 => some (Neloc.popc e gd ga)
  | _ => none

/-- R206: major opcode 0x03, by fn bits 3:0; fn bit 4 selects 32 bits. -/
def atomicRun (e gd ga gb : Nat) (w32 : Bool) : Nat → Option (Dev → Dev)
  | 0 => some (Neloc.aadd e gd ga gb w32)
  | 1 => some (Neloc.aswap e gd ga gb w32)
  | 2 => some (Neloc.aand e gd ga gb w32)
  | 3 => some (Neloc.aor e gd ga gb w32)
  | 4 => some (Neloc.axor e gd ga gb w32)
  | 5 => some (Neloc.acas e gd ga gb w32)
  | _ => none

/-- R208: major opcode 0x02, by fn bits 1:0. -/
def sysRun (e gd ga gb : Nat) : Nat → Option (Dev → Dev)
  | 0 => some (Neloc.eret e)
  | 1 => some (Neloc.trap e gb)
  | 2 => some (Neloc.ewait e gd ga)
  | _ => some (Neloc.halt e)

/-- R202: major opcode 0x01, by fn bits 1:0. -/
def mulRun (e gd ga gb : Nat) : Nat → Option (Dev → Dev)
  | 0 => some (Neloc.mul e gd ga gb)
  | 1 => some (Neloc.mulhs e gd ga gb)
  | 2 => some (Neloc.mulhu e gd ga gb)
  | _ => some (Neloc.mulhsu e gd ga gb)

/-- R203, R204: major opcode 0x30, by sub-op. -/
def lanes30Run (e gd ga gb : Nat) (mask : BitVec 8) : Nat → Option (Dev → Dev)
  | 0 => some (Neloc.addb e gd ga gb mask)
  | 1 => some (Neloc.subb e gd ga gb mask)
  | 2 => some (Neloc.addbs e gd ga gb mask)
  | 3 => some (Neloc.subbs e gd ga gb mask)
  | 4 => some (Neloc.addbu e gd ga gb mask)
  | 5 => some (Neloc.subbu e gd ga gb mask)
  | 6 => some (Neloc.avgbu e gd ga gb mask)
  | 7 => some (Neloc.absdb e gd ga gb mask)
  | _ => none

/-- R203, R204: major opcode 0x31, by sub-op. -/
def lanes31Run (e gd ga gb : Nat) (mask : BitVec 8) : Nat → Option (Dev → Dev)
  | 0 => some (Neloc.minbu e gd ga gb mask)
  | 1 => some (Neloc.maxbu e gd ga gb mask)
  | 2 => some (Neloc.minbs e gd ga gb mask)
  | 3 => some (Neloc.maxbs e gd ga gb mask)
  | 4 => some (Neloc.sadb e gd ga gb mask)
  | 5 => some (Neloc.ceqb e gd ga gb mask)
  | 6 => some (Neloc.cgtbu e gd ga gb mask)
  | 7 => some (Neloc.selb e gd ga gb mask)
  | _ => none

/-- R203, R204: major opcode 0x32, by sub-op. -/
def lanes32Run (e gd ga gb : Nat) (mask : BitVec 8) : Nat → Option (Dev → Dev)
  | 0 => some (Neloc.macuu e gd ga gb mask)
  | 1 => some (Neloc.macss e gd ga gb mask)
  | 2 => some (Neloc.macsu e gd ga gb mask)
  | 3 => some (Neloc.macsss e gd ga gb mask)
  | 4 => some (Neloc.mulpuu e gd ga gb mask)
  | 5 => some (Neloc.mulpss e gd ga gb mask)
  | _ => none

/-- The effect on the part of the instruction word w issued by engine e; none where R198 gives it no meaning. -/
def nelocRun (e w : Nat) : Option (Dev → Dev) :=
  let d := getBits w 25 21
  let a := getBits w 20 16
  let b := getBits w 15 11
  let imm := BitVec.ofNat 16 w
  let off := BitVec.ofNat 26 w
  let mask := BitVec.ofNat 8 (w / 8)
  match getBits w 31 26 with
  | 0x00 => aluRun e d a b (w % 64)
  | 0x01 => mulRun e d a b (w % 4)
  | 0x02 => sysRun e d a b (w % 4)
  | 0x03 => atomicRun e d a b (bit w 4) (w % 16)
  | 0x04 => some (if bit w 0 then Neloc.jalr e d a else Neloc.jr e a)
  | 0x08 => some (Neloc.addi e d a imm)
  | 0x09 => some (Neloc.andi e d a imm)
  | 0x0A => some (Neloc.ori e d a imm)
  | 0x0B => some (Neloc.xori e d a imm)
  | 0x0C => some (Neloc.slti e d a imm)
  | 0x0D => some (Neloc.sltiu e d a imm)
  | 0x0E => some (Neloc.seqi e d a imm)
  | 0x10 => some (Neloc.insh1 e d a imm)
  | 0x11 => some (Neloc.insh2 e d a imm)
  | 0x12 => some (Neloc.insh3 e d a imm)
  | 0x13 => some (Neloc.slli e d a (w % 64))
  | 0x14 => some (Neloc.srli e d a (w % 64))
  | 0x15 => some (Neloc.srai e d a (w % 64))
  | 0x16 => some (Neloc.extF e d a (w % 64) (getBits w 11 6))
  | 0x17 => some (Neloc.extsF e d a (w % 64) (getBits w 11 6))
  | 0x18 => some (Neloc.insF e d a (w % 64) (getBits w 11 6))
  | 0x19 => some (Neloc.mfsy e d (w % 64))
  | 0x1A => some (Neloc.mtsy e (w % 64) a)
  | 0x1C => some (Neloc.bz e a imm)
  | 0x1D => some (Neloc.bnz e a imm)
  | 0x1E => some (Neloc.j e off)
  | 0x1F => some (Neloc.jal e off)
  | 0x20 => some (Neloc.ldB e d a imm)
  | 0x21 => some (Neloc.ldBu e d a imm)
  | 0x22 => some (Neloc.ldH e d a imm)
  | 0x23 => some (Neloc.ldHu e d a imm)
  | 0x24 => some (Neloc.ldW e d a imm)
  | 0x25 => some (Neloc.ldWu e d a imm)
  | 0x26 => some (Neloc.ldD e d a imm)
  | 0x28 => some (Neloc.stB e d a imm)
  | 0x29 => some (Neloc.stH e d a imm)
  | 0x2A => some (Neloc.stW e d a imm)
  | 0x2B => some (Neloc.stD e d a imm)
  | 0x30 => lanes30Run e d a b mask (w % 8)
  | 0x31 => lanes31Run e d a b mask (w % 8)
  | 0x32 => lanes32Run e d a b mask (w % 8)
  | 0x38 => some (Neloc.csend e d a (getBits w 15 6) (w % 64))
  | 0x39 => some (if w % 64 = 0 then Neloc.crecv e d a (getBits w 15 6) true else Neloc.channelClose e d a (getBits w 15 6) (w % 64))
  | _ => none

/-- R198: engine e issues the word w. A word with no meaning takes ILLEGAL and changes nothing else; a word with one has
rows of its own, and here changes nothing. -/
def Neloc.illegal (e w : Nat) (d : Dev) : Dev :=
  match nelocRun e w with
  | none => d.issue e fun i d => d.faulting e vIllegal 0 0 i
  | some _ => d

/-- The instruction word at engine e's pc, as its local store holds it after correction. -/
def Dev.wordAtPc (d : Dev) (e : Nat) : Nat :=
  let a := (d.e e).pc.toNat
  (d.readWord .loc (e / 8) (e % 8) (a / 8)).1 / 2 ^ (8 * (a % 8)) % 2 ^ 32

/-- Engine e runs the instruction its local store holds at its pc. -/
def Dev.runAtPc (d : Dev) (e : Nat) : Dev :=
  match nelocRun e (d.wordAtPc e) with
  | some f => f d
  | none => d.issue e fun i d => d.faulting e vIllegal 0 0 i

/-! The commands. -/

def execBz (e : EngId) (ga : GReg) (imm : BitVec 16) (s : State) : Host.Outcome State Fault Refusal := s.on (Neloc.bz e ga imm)

def execBnz (e : EngId) (ga : GReg) (imm : BitVec 16) (s : State) : Host.Outcome State Fault Refusal := s.on (Neloc.bnz e ga imm)

def execJ (e : EngId) (off : BitVec 26) (s : State) : Host.Outcome State Fault Refusal := s.on (Neloc.j e off)

def execJal (e : EngId) (off : BitVec 26) (s : State) : Host.Outcome State Fault Refusal := s.on (Neloc.jal e off)

def execJr (e : EngId) (ga : GReg) (s : State) : Host.Outcome State Fault Refusal := s.on (Neloc.jr e ga)

def execJalr (e : EngId) (gd ga : GReg) (s : State) : Host.Outcome State Fault Refusal := s.on (Neloc.jalr e gd ga)

def execMfsy (e : EngId) (gd : GReg) (sy : Fin 64) (s : State) : Host.Outcome State Fault Refusal := s.on (Neloc.mfsy e gd sy)

def execMtsy (e : EngId) (sy : Fin 64) (ga : GReg) (s : State) : Host.Outcome State Fault Refusal := s.on (Neloc.mtsy e sy ga)

def execEret (e : EngId) (s : State) : Host.Outcome State Fault Refusal := s.on (Neloc.eret e)

def execTrap (e : EngId) (code : Fin 32) (s : State) : Host.Outcome State Fault Refusal := s.on (Neloc.trap e code)

def execEwait (e : EngId) (gd ga : GReg) (s : State) : Host.Outcome State Fault Refusal := s.on (Neloc.ewait e gd ga)

def execHalt (e : EngId) (s : State) : Host.Outcome State Fault Refusal := s.on (Neloc.halt e)

def execCsend (e : EngId) (gd ga : GReg) (chan : Fin 1024) (cmd : Fin 64) (s : State) : Host.Outcome State Fault Refusal := s.on (Neloc.csend e gd ga chan cmd)

def execCrecv (e : EngId) (gd ga : GReg) (chan : With (Fin 1024) Bool) (s : State) : Host.Outcome State Fault Refusal :=
  s.on (Neloc.crecv e gd ga chan.obj chan.inp)

def execChannelClose (e : EngId) (gd ga : GReg) (chan : Fin 1024) (cmd : Fin 64) (s : State) : Host.Outcome State Fault Refusal := s.on (Neloc.channelClose e gd ga chan cmd)

def execInterruptEntry (e : EngId) (s : State) : Host.Outcome State Fault Refusal := s.on (Neloc.interruptEntry e)

def execWatchdogExpiry (e : EngId) (s : State) : Host.Outcome State Fault Refusal := s.on (Neloc.watchdogExpiry e)

def execTimerExpiry (e : EngId) (s : State) : Host.Outcome State Fault Refusal := s.on (Neloc.timerExpiry e)

def execEwaitWake (e : EngId) (s : State) : Host.Outcome State Fault Refusal := s.on (Neloc.ewaitWake e)

def execCrecvWake (e : With EngId Bool) (s : State) : Host.Outcome State Fault Refusal := s.on (Neloc.crecvWake e.obj e.inp)

def execChannelReply (e : EngId) (chan : Fin 1024) (parity : Bool) (s : State) : Host.Outcome State Fault Refusal :=
  s.on fun d => d.deliver e chan parity

def execIllegalInstruction (e : EngId) (word : BitVec 32) (s : State) : Host.Outcome State Fault Refusal :=
  s.on (Neloc.illegal e word.toNat)

def execInstructionFetchFault (e : EngId) (s : State) : Host.Outcome State Fault Refusal := s.on (Neloc.fetchFault e)

end Sys2Proof.Machine
end

