-- ==== Sys2Proof/Machine/Dma.lean ====
section
/-! DEFINITION. DMA COPY (spec/07, R220; spec/10, R276, R284). -/

namespace Sys2Proof.Machine

/-- The descriptor of a copy. -/
structure CopyDesc where
  src : Nat
  dst : Nat
  len : Nat
  srcDram : Bool
  dstDram : Bool
  deriving DecidableEq, Repr

/-- R220: the 32-byte descriptor; LEN is 1 to 1,048,576. -/
def copyDesc (l : List Byte) : CopyDesc :=
  { src := blk l 0 8, dst := blk l 8 8, len := clampN 1 1048576 (blk l 16 4), srcDram := bit (blk l 20 4) 0, dstDram := bit (blk l 20 4) 1 }

/-- A descriptor as a request notes it, and back. -/
def CopyDesc.pack (c : CopyDesc) : Nat :=
  c.src + 2 ^ 64 * c.dst + 2 ^ 128 * c.len + 2 ^ 149 * b2n c.srcDram + 2 ^ 150 * b2n c.dstDram

def CopyDesc.unpack (n : Nat) : CopyDesc :=
  { src := n % 2 ^ 64, dst := n / 2 ^ 64 % 2 ^ 64, len := n / 2 ^ 128 % 2 ^ 21, srcDram := bit n 149, dstDram := bit n 150 }

/-- R220, R276: one side of a copy lies where engine e may reach: 0 yes, 1 outside the memory, 2 refused by the regions. -/
def Dev.copySide (d : Dev) (e a len : Nat) (dram : Bool) : Nat :=
  if dram then
    if d.usable < a + len then 1
    else if roleOf e = .warden ∨ d.admits useDma a len then 0 else 2
  else if 4194304 < a + len then 1 else 0

/-- R220: COPY is taken up, and calls for the DRAM polder. -/
def Dev.dmaCopy (d : Dev) (e : Nat) : Dev :=
  d.serveBlock e 0x13 0 4 fun l _ d =>
    let x := copyDesc l
    let a := d.copySide e x.src x.len x.srcDram
    let b := d.copySide e x.dst x.len x.dstDram
    if a = 1 ∨ b = 1 then rep d stBadAddr
    else if a = 2 ∨ b = 2 then rep d.regionViol stBadAddr
    else
      let d := d.onReq e 0x13 0 .sent fun r => { r with aux := x.pack }
      (d.demand, none)

/-- R220: the copy completes, once the DRAM polder is ACTIVE. -/
def Dev.dmaDone (d : Dev) (e : Nat) (slu : List Nat) : Dev :=
  match d.req e 0x13 0 .taken with
  | none => d
  | some r =>
    let x := CopyDesc.unpack r.aux
    if !d.dramActive then d.demand
    else
      d.finish e 0x13 0 fun _ d =>
        let c := e / 8
        let (l, d) := d.getMarked slu (if x.srcDram then .dram else .shared) c 0 x.src x.len
        let d := d.putMarkedN (if x.dstDram then .dram else .shared) c 0 x.dst (x.len + 1) l
        (d, (if l.any (·.2) then stPoison else stOK, x.len))

def execDmaCopy (e : EngId) (s : State) : Host.Outcome State Fault Refusal := s.on fun d => d.dmaCopy e

def execDmaCopyDone (e : With EngId (List Nat)) (s : State) : Host.Outcome State Fault Refusal := s.on fun d => d.dmaDone e.obj e.inp

end Sys2Proof.Machine
end

