-- ==== Sys2Proof/Machine/IntCmd.lean ====
section
/-! DEFINITION. Commands of the dispatch controller (spec/11, R293 to R304). -/

namespace Sys2Proof.Machine

/-- The bits of word w that stand for sources 1 to 500; the others are reserved. -/
def sourceMask (w : Nat) : Nat := if w = 0 then 2 ^ 32 - 2 else if w = 15 then 2 ^ 21 - 1 else 2 ^ 32 - 1

/-- R293, R298: the level of source n follows its condition; INTA follows the host line and a rise can wake (R323, R325, R384). -/
def Dev.sourceChange (d : Dev) (n : Nat) : Dev :=
  let old := d.level n
  let now := d.sourceLevel n
  let d := d.setLevel n now
  if now && !old then d.wakeSource n else d

/-- R299: software pending bits of word w set; the sources behave as asserted. -/
def Dev.swPendWrite (d : Dev) (w v : Nat) : Dev :=
  let m := v &&& sourceMask w
  let old := d.pendWord w
  let d := (d.setReg (A.SWPEND w) (d.reg (A.SWPEND w) ||| m)).refreshLines
  (List.range 32).foldl (fun d i => if bit m i && !bit old i then d.wakeSource (32 * w + i) else d) d

/-- R299: software pending bits of word w cleared. -/
def Dev.swClrWrite (d : Dev) (w v : Nat) : Dev :=
  (d.setReg (A.SWPEND w) (d.reg (A.SWPEND w) &&& (2 ^ 32 - 1 - v % 2 ^ 32))).refreshLines

/-- R300, R304: a read of HOST_CLAIM: the host claims for target 8, an engine's read returns 0. -/
def Dev.hostClaim (d : Dev) (src : Src) : Nat × Dev :=
  match src with
  | .host => d.claim 8
  | .dbg => (d.peekClaim 8, d)
  | .reg _ => (0, d)

/-- R301, R304: a write to HOST_EOI; an engine's is ignored. -/
def Dev.hostEoi (d : Dev) (src : Src) : Dev :=
  match src with
  | .reg _ => d
  | _ => d.eoi 8

/-- R303: a write to TGT_CTRL. -/
def Dev.tgtCtrl (d : Dev) (t v : Nat) : Dev := if bit v 0 then d.flushTarget t else d

/-- R302: a write to PRIO, EN or THRESH: the request lines follow. The bits of sources 0 and 501 to 511 are reserved. -/
def Dev.intWrite (d : Dev) (row : RegRow) (a v : Nat) : Dev :=
  let v :=
    if A.PRIO 0 ≤ a ∧ a < A.PRIO 64 then
      let w := (a - A.PRIO 0) / 4
      if w = 0 then putBits v 3 0 0 else if w = 62 then v % 2 ^ 20 else if w = 63 then 0 else v
    else if 0x31000 ≤ a ∧ (a - 0x31000) % 256 < 64 then v &&& sourceMask ((a - 0x31000) % 256 / 4)
    else v
  (d.sw row a v).refreshLines

/-! The commands. -/

def execSourceLevelChange (n : Fin 512) (s : State) : Host.Outcome State Fault Refusal := s.on fun d => d.sourceChange n

def execSwpendWrite (src : Src) (w : Fin 16) (val : BitVec 32) (s : State) : Host.Outcome State Fault Refusal :=
  s.on fun d => d.gate src (A.SWPEND w) fun d => d.swPendWrite w val.toNat

def execSwclrWrite (src : Src) (w : Fin 16) (val : BitVec 32) (s : State) : Host.Outcome State Fault Refusal :=
  s.on fun d => d.gate src (A.SWCLR w) fun d => d.swClrWrite w val.toNat

def execHostClaim (s : State) : Host.Outcome State Fault Refusal :=
  s.on fun d => d.gateRead .host A.HOST_CLAIM fun d => d.hostClaim .host

def execHostEoi (s : State) : Host.Outcome State Fault Refusal :=
  s.on fun d => d.gate .host A.HOST_EOI fun d => d.hostEoi .host

/-- R303: a write of TGT_CTRL with FLUSH = 1. -/
def execTargetFlush (src : Src) (t : Fin 9) (val : BitVec 32) (s : State) : Host.Outcome State Fault Refusal :=
  s.on fun d => d.gate src (A.TGT_CTRL t) fun d => d.tgtCtrl t (putBit val.toNat 0 true)

end Sys2Proof.Machine
end

