-- ==== Sys2Proof/Machine/LoopCmd.lean ====
section
/-! DEFINITION. The commands of the photonic loops and the analog edge (spec/08, spec/09). -/

namespace Sys2Proof.Machine

/-- R242: no tick starts once the octet drains toward RETAIN. -/
def execWeirTick (o : Oct) (ins : List (List (BitVec 14))) (s : State) : Host.Outcome State Fault Refusal :=
  s.on fun d => d.live o fun d => if d.polder o = 3 then d else d.weirTick o ins

def execModeSet (src : Src) (o : Oct) (val : BitVec 32) (s : State) : Host.Outcome State Fault Refusal :=
  s.on fun d => d.gate src (A.MODE_SET o) fun d => d.weirLatch o 0x10 val.toNat

def execLCtrlWrite (src : Src) (o : Oct) (j : Fin 20) (val : BitVec 32) (s : State) : Host.Outcome State Fault Refusal :=
  s.on fun d => d.gate src (A.L_CTRL o j) fun d => d.weirLatch o (0x100 + 128 * j) val.toNat

def execDwInit (src : Src) (o : Oct) (j : Fin 20) (val : BitVec 32) (s : State) : Host.Outcome State Fault Refusal :=
  s.on fun d => d.gate src (A.L_CTRL o j) fun d => d.weirLatch o (0x100 + 128 * j) (putBit val.toNat 19 true)

def execTargetWrite (src : Src) (o : Oct) (j : Fin 20) (val : BitVec 32) (s : State) : Host.Outcome State Fault Refusal :=
  s.on fun d => d.gate src (A.TARGET o j) fun d => d.weirLatch o (0x108 + 128 * j) val.toNat

def execIntegLoStage (src : Src) (o : Oct) (j : Fin 20) (val : BitVec 32) (s : State) : Host.Outcome State Fault Refusal :=
  s.on fun d => d.gate src (A.INTEG_LO o j) fun d => d.weirLatch o (0x170 + 128 * j) val.toNat

def execIntegPreset (src : Src) (o : Oct) (j : Fin 20) (val : BitVec 32) (s : State) : Host.Outcome State Fault Refusal :=
  s.on fun d => d.gate src (A.INTEG_HI o j) fun d => d.weirLatch o (0x174 + 128 * j) val.toNat

def execRcDataRead (src : Src) (o : Oct) (s : State) : Host.Outcome State Fault Refusal :=
  s.on fun d => d.gateRead src (A.RC_DATA o) fun d => d.rcRead o

def execRcDataWrite (src : Src) (o : Oct) (val : BitVec 32) (s : State) : Host.Outcome State Fault Refusal :=
  s.on fun d => d.gate src (A.RC_DATA o) fun d => d.rcDataWrite o val.toNat

def execWeirSnap (e : EngId) (o : Oct) (s : State) : Host.Outcome State Fault Refusal := s.on fun d => d.weirReq e o 0

def execWeirMode (e : EngId) (o : Oct) (s : State) : Host.Outcome State Fault Refusal := s.on fun d => d.weirReq e o 1

def execWeirTarget (e : EngId) (o : Oct) (s : State) : Host.Outcome State Fault Refusal := s.on fun d => d.weirReq e o 2

def execWeirPreset (e : EngId) (o : Oct) (s : State) : Host.Outcome State Fault Refusal := s.on fun d => d.weirReq e o 3

def execRcClear (e : EngId) (o : Oct) (s : State) : Host.Outcome State Fault Refusal := s.on fun d => d.weirReq e o 4

def execScanStart (src : Src) (o : Oct) (val : BitVec 32) (s : State) : Host.Outcome State Fault Refusal :=
  s.on fun d => d.gate src (A.AE_CTRL o) fun d => d.aeCtrl o (putBit val.toNat 31 true)

def execScanStop (src : Src) (o : Oct) (val : BitVec 32) (s : State) : Host.Outcome State Fault Refusal :=
  s.on fun d => d.gate src (A.AE_CTRL o) fun d => d.aeCtrl o (putBit val.toNat 31 false)

def execScanModeChange (src : Src) (o : Oct) (val : BitVec 32) (s : State) : Host.Outcome State Fault Refusal :=
  s.on fun d => d.gate src (A.AE_CTRL o) fun d => d.aeCtrl o (putBit val.toNat 30 (!d.on (R.AE_CTRL.MODE o)))

def execScanMaskWrite (src : Src) (o : Oct) (val : BitVec 32) (s : State) : Host.Outcome State Fault Refusal :=
  s.on fun d => d.gate src (A.AE_SCAN_MASK o) fun d => d.aeMask o val.toNat

def execChainConfigWrite (src : Src) (o : Oct) (i : Fin 20) (val : BitVec 32) (s : State) : Host.Outcome State Fault Refusal :=
  s.on fun d => d.gate src (A.CH_CFG o i) fun d => d.chCfg o i val.toNat

def execRefSelect (src : Src) (o : Oct) (val : BitVec 32) (s : State) : Host.Outcome State Fault Refusal :=
  s.on fun d => d.gate src (A.AE_CTRL o) fun d => d.aeCtrl o val.toNat

def execRefSettled (o : Oct) (s : State) : Host.Outcome State Fault Refusal := s.on fun d => d.live o fun d => d.refSettled o

def execRefFail (o : Oct) (s : State) : Host.Outcome State Fault Refusal := s.on fun d => d.live o fun d => d.refFail o

def execOutputEnableWrite (src : Src) (o : Oct) (val : BitVec 32) (s : State) : Host.Outcome State Fault Refusal :=
  s.on fun d => d.gate src (A.AE_OUT_CTRL o) fun d => d.aeOut o val.toNat

def execHeaterDropout (o : Oct) (j : Fin 16) (s : State) : Host.Outcome State Fault Refusal :=
  s.on fun d => d.live o fun d => d.dropout o j

def execHeaterRegulation (o : Oct) (j : Fin 16) (s : State) : Host.Outcome State Fault Refusal :=
  s.on fun d => d.live o fun d => d.regulated o j

def execRefCalStart (src : Src) (o : Oct) (val : BitVec 32) (s : State) : Host.Outcome State Fault Refusal :=
  s.on fun d => d.gate src (A.AE_CAL_CTRL o) fun d => d.aeCal o (putBit val.toNat 31 true)

def execRefCalDone (o : Oct) (range : Bool) (z f : Int) (s : State) : Host.Outcome State Fault Refusal :=
  s.on fun d => d.live o fun d => d.calDone o range z f

end Sys2Proof.Machine
end

