-- ==== Sys2Proof/Machine/Bus.lean ====
section
/-! DEFINITION. A BAR0 access by address (R9 to R12, R392, R394, R395): what a write to any register does, what a read returns and
what it changes. The commands that name a register of their own reach the same operations. -/

namespace Sys2Proof.Machine

/-- The index of offset x in an array of n registers from base on. -/
def arrIdx (x base stride n : Nat) : Option Nat :=
  if base ≤ x ∧ x < base + stride * n ∧ (x - base) % stride = 0 then some ((x - base) / stride) else none

/-! Writes, block by block; x is the offset within the block, row the register's row. -/

/-- R69: a preset is held as TX_FFE is. -/
def Dev.presetWrite (d : Dev) (a v : Nat) : Dev := d.setReg a (tapsWord (clampTaps (tapsOf v)))

/-- R84: a write to PAT_CTRL; a change of CHK starts the search for the pattern afresh, and nothing else clears SYNC (log 102). -/
def Dev.patCtrl (d : Dev) (g v : Nat) : Dev :=
  let old := d.get (R.PAT_CTRL.CHK g)
  let d := d.sw Row.PAT_CTRL (A.PAT_CTRL g) v
  if d.get (R.PAT_CTRL.CHK g) = old then d
  else (d.set (R.PAT_CTRL.SYNC g) 0).onL g fun x => { x with rx := { x.rx with chk := [], chkRun := 0 } }

/-- R89: CAP_RD stays below the size of the ring, sampled at the enable while EN = 1. -/
def Dev.capRd (d : Dev) (g v : Nat) : Dev :=
  let size := if d.on (R.CAP_CTRL.EN g) then (d.ln g).cap.size else d.get (R.CAP_CTRL.SIZE g)
  d.set (R.CAP_RD.PAGE g) (min (v % 2 ^ 20) (2 ^ size - 1))

/-- A write to a register of lane g. -/
def Dev.writeLane (d : Dev) (g x v : Nat) (row : RegRow) : Dev :=
  let a := laneBase g + x
  match arrIdx x 0x100 4 65, arrIdx x 0x500 4 48, arrIdx x 0x600 4 48, arrIdx x 0x1100 4 64, arrIdx x 0x1200 4 64 with
  | some s, _, _, _, _ => d.writeCoef g s (BitVec.ofNat 32 v)
  | _, some t, _, _, _ => d.ffeTap g false t v
  | _, _, some t, _, _ => d.ffeTap g true t v
  | _, _, _, some i, _ => d.pdEntry g false i v
  | _, _, _, _, some i => d.pdEntry g true i v
  | none, none, none, none, none =>
    if x = 0x10 then d.calCtrl g v
    else if x = 0x300 then d.spareCtrl g v
    else if x = 0x400 then d.ffeCtrl g v
    else if x = 0x404 then d.bankSel g v
    else if x = 0x700 then d.dfeCtrl g v
    else if x = 0x800 then d.lmsCtrl g v
    else if x = 0x1004 then d.txFfe g v
    else if x = 0x1010 ∨ x = 0x1014 then d.presetWrite a v
    else if x = 0x1020 then d.pdCtrl g v
    else if x = 0x1300 then d.pwrCtrl g v
    else if x = 0x1400 then d.trnCtrl g v
    else if x = 0x1404 then d.trnReq g v
    else if x = 0x1600 then d.patCtrl g v
    else if x = 0x1700 then d.eyeCtrl g v
    else if x = 0x1800 then d.capCtrl g v
    else if x = 0x1814 then d.capRd g v
    else d.sw row a v

/-- R105: the slot whose register at octet offset x it is, if it is a slot's. -/
def slotAtOff (x : Nat) : Option Nat :=
  if 0x10020 ≤ x ∧ x < 0x10040 then some ((x - 0x10020) / 4)
  else if 0x10100 ≤ x ∧ x < 0x10500 then some ((x - 0x10100) / 128)
  else none

/-- R105: the register lies in the slot of a lane that is not the first of its port. -/
def Dev.deadSlot (d : Dev) (o x : Nat) : Bool := (slotAtOff x).any fun p => !(d.slots o).contains p

/-- A write to a register of octet o outside its lanes. -/
def Dev.writeOct (d : Dev) (o x v : Nat) (row : RegRow) : Dev :=
  let a := octBase o + x
  if d.deadSlot o x then d
  else if x = 0x10004 then d.modeCommit o v
  else if x = 0x10014 then d.fecSnap o v
  else if x = 0x14000 then d.tlCtrl o v
  else if x = 0x14020 then d.txDesc o v
  else if x = 0x14038 then d.rxPop o v
  else if x = 0x18000 then d.aeCtrl o v
  else if x = 0x18004 then d.aeMask o v
  else if x = 0x1800C then d.aeCal o v
  else if x = 0x18014 then d.aeOut o v
  else if x = 0x1C024 then d.rcDataWrite o v
  else if 0x1C000 ≤ x ∧ x ≠ 0x1C020 then d.weirLatch o (x - 0x1C000) v
  else match arrIdx x 0x10600 32 8, arrIdx x 0x18100 32 20 with
    | some l, _ => (d.tscCtrl (8 * o + l) v).tlFollow o
    | _, some i => d.chCfg o i v
    | none, none => d.sw row a v

/-- R163: a write to a reserve; the shared pool follows. -/
def Dev.bermWrite (d : Dev) (row : RegRow) (a lo v : Nat) : Dev := (d.sw row a (clampN lo 131072 (v % 2 ^ 18))).syncPool

/-- A write to PORT_CFG[p]: ignored where p names no port; KEY_SEL bit 0 stays set. -/
def Dev.portCfg (d : Dev) (p v : Nat) : Dev :=
  if (d.slots (p / 8)).contains (p % 8) then d.sw Row.PORT_CFG (A.PORT_CFG p) (putBit v 19 true) else d

/-- A write to a register of the FLOW block. -/
def Dev.writeFlow (d : Dev) (x v : Nat) (row : RegRow) : Dev :=
  let a := 0x100000 + x
  if x = 0 then d.flCtrl v
  else if x = 0x200 then d.bermWrite row a 0 v
  else if x = 0x204 ∨ x = 0x208 then d.bermWrite row a 64 v
  else if x = 0x300 then d.spillCtrl v
  else if x = 0x304 then d.spillBase v
  else if x = 0x400 then d.schedInd v
  else if x = 0x440 then d.schedCommitReg v
  else match arrIdx x 0x10 4 8, arrIdx x 0x1000 4 256, arrIdx x 0x2000 16 64 with
    | some w, _, _ => d.hashKeyWrite w v
    | _, some p, _ => d.portCfg p v
    | _, _, some g => d.gaugeSrc g v
    | none, none, none => d.sw row a v

/-- A write to a register of the MEM block. -/
def Dev.writeMem (d : Dev) (life x v : Nat) (row : RegRow) : Dev :=
  let a := 0x80000 + x
  if x = 0 then d.memCfg v
  else if 0x100 ≤ x ∧ x < 0x200 then d.regionWrite ((x - 0x100) / 16) ((x - 0x100) % 16 / 4) v
  else if x = 0x400 then d.rewriteCtrl v
  else if x = 0x500 then d.sw row a (putBit v 2 false)
  else if x = 0x600 then d.ecctCtrl life v
  else d.sw row a v

/-- A write to a register of the DSP_INT block. -/
def Dev.writeInt (d : Dev) (src : Src) (x v : Nat) (row : RegRow) : Dev :=
  let a := 0x30000 + x
  match arrIdx x 0x280 4 16, arrIdx x 0x2C0 4 16, arrIdx x 0x1048 256 9 with
  | some w, _, _ => d.swPendWrite w v
  | _, some w, _ => d.swClrWrite w v
  | _, _, some t => d.tgtCtrl t v
  | none, none, none =>
    if x = 0x2004 then d.hostEoi src
    else if x < 0x200 ∨ (0x1000 ≤ x ∧ x < 0x1900 ∧ x % 256 < 0x44) then d.intWrite row a v
    else d.sw row a v

/-- A write to a register of the CTR block. -/
def Dev.writeCtr (d : Dev) (x v : Nat) (row : RegRow) : Dev :=
  let a := 0x400000 + x
  if x = 0 then d.ctrCtrl v
  else if x = 8 then d.ctrClear v
  else if x = 0x10 ∨ x = 0x14 then d.dumpBase row a v
  else if x = 0x1C then d.dumpRd v
  else d.sw row a v

/-- A write to a register of the PWR block. -/
def Dev.writePwr (d : Dev) (x v : Nat) (row : RegRow) : Dev :=
  if x = 0 then d.pwrReq v
  else if x = 0x18 then d.pwrCfg v
  else if x = 0x20 then d.releasePads v false
  else if x = 0x24 then d.releasePads 0 (bit v 0)
  else d.sw row (0x10000 + x) v

/-- A write to a register of the THM block. -/
def Dev.writeThm (d : Dev) (x v : Nat) (row : RegRow) : Dev :=
  if x = 0x10 then d.bandThr v
  else if x = 0x14 then d.sentCtrl v
  else match arrIdx x 0x1000 16 176, arrIdx x 0x1004 16 176, arrIdx x 0x4000 4 48 with
    | some n, _, _ => d.scfg n v
    | _, some n, _ => d.slvl n v
    | _, _, some p => d.capWrite p v
    | none, none, none => d.sw row (0x20000 + x) v

/-- A write to a register of the HOST block. -/
def Dev.writeHost (d : Dev) (x v : Nat) (row : RegRow) : Dev :=
  let a := 0x40000 + x
  if x < 0x1000 then d.sw row a v
  else
    let q := (x - 0x1000) / 64
    let y := (x - 0x1000) % 64
    if y = 0 then d.qCtrl q v
    else if 4 ≤ y ∧ y ≤ 0x10 then d.ringBase row a q v
    else if y = 0x14 then d.sqDoorbell q v
    else if y = 0x20 then d.cqHead q v
    else d.sw row a v

/-- A write to a register of the DEV block but for RST_CTRL. -/
def Dev.writeDev (d : Dev) (x v : Nat) (row : RegRow) : Dev :=
  if x = 0x120 then d.healthyCtrl v
  else if x = 0x4014 then d.tbStep v
  else if x = 0x4020 then d.tbSetPs false v
  else if x = 0x4024 then d.tbSetPs true v
  else if x = 0x4028 then d.tbCtrl v
  else if x = 0x4040 then d.ppsCtrl v
  else d.sw row x v

/-- R392, R395: a write of v by src to the register at offset a, whose target takes it. -/
def busWrite (d : Dev) (v : Vault) (src : Src) (a x : Nat) : Dev × Vault :=
  match RegMap.find a with
  | none =>
    if RegMap.isPhy a then (if src = .dbg then d.setReg a (x % 65536) else d.logAccess src 7 a, v) else (d, v)
  | some row =>
    if a = A.RST_CTRL then rstCtrl d v x
    else if a = A.LC_CTRL then lcCtrl d v src x
    else if a = A.NV_DATA_HI then nvDataHiWrite d v x
    else
      let d :=
        if a < 0x10000 then d.writeDev a x row
        else if a < 0x20000 then d.writePwr (a - 0x10000) x row
        else if a < 0x30000 then d.writeThm (a - 0x20000) x row
        else if a < 0x40000 then d.writeInt src (a - 0x30000) x row
        else if a < 0x50000 then d.writeHost (a - 0x40000) x row
        else if a = A.BIST_CMD then d.bistCmd v.life x (src == .dbg)
        else if a < 0x80000 then d.sw row a x
        else if a < 0x100000 then d.writeMem v.life (a - 0x80000) x row
        else if a < 0x200000 then d.writeFlow (a - 0x100000) x row
        else if a < 0x400000 then d.sw row a x
        else if a < 0x800000 then d.writeCtr (a - 0x400000) x row
        else if a = A.DDR_TRAIN then d.ddrTrain x
        else if a < 0x1000000 then d.sw row a x
        else
          let o := (a - 0x1000000) / 0x20000
          let y := (a - 0x1000000) % 0x20000
          if y < 0x10000 then d.writeLane (8 * o + y / 0x2000) (y % 0x2000) x row else d.writeOct o y x row
      (d, v)

/-! Reads. -/

/-- The value a register of lane g shows, before WO and reserved bits are masked. -/
def Dev.showLane (d : Dev) (g x : Nat) : Nat :=
  let base := d.capBase g (d.get (R.CAP_CTRL.SIZE g))
  if x = 0 then d.rxStatusView g
  else if x = 0x1804 then base % 2 ^ 32
  else if x = 0x1808 then base / 2 ^ 32
  else d.reg (laneBase g + x)

/-- A register of octet o outside its lanes. -/
def Dev.showOct (d : Dev) (o x : Nat) : Nat :=
  if d.deadSlot o x then 0
  else if x = 0x10700 then (d.popTxts o).1
  else if x = 0x1400C then putBit (d.reg (octBase o + x)) 26 (d.agcFrozen o)
  else if x = 0x14030 then d.rxDescView o
  else if x = 0x14034 then d.rxInfoView o
  else if x = 0x1C024 then (d.rcRead o).1
  else match arrIdx x 0x14200 4 64 with
    | some w => d.rxBufView o w
    | none => d.reg (octBase o + x)

/-- A register of the ENG block. -/
def Dev.showEng (d : Dev) (x : Nat) : Nat :=
  let c := x / 0x10000
  let y := x % 0x10000
  let e := 8 * c + (y - 0x100) / 32
  if y = 4 then (List.range 8).foldl (fun v k => v + (d.e (8 * c + k)).st.code * 8 ^ k) 0
  else if y < 0x100 then d.reg (0x200000 + x)
  else if y % 32 = 0 then ((d.e e).lastPc.toNat) % 65536
  else if y % 32 = 4 then
    b2n (decide ((d.e e).st = .fault)) * 2 ^ 31 + (d.e e).st.code * 2 ^ 28 + (d.e e).lastDet * 2 ^ 8 + (d.e e).lastVec
  else if y % 32 = 8 then (d.e e).lastEval.toNat % 2 ^ 32
  else d.reg (0x200000 + x)

/-- A register of the DSP_INT block. -/
def Dev.showInt (d : Dev) (x : Nat) : Nat :=
  match arrIdx x 0x240 4 16, arrIdx x 0x1044 256 9 with
  | some w, _ => d.pendWord w
  | _, some t => putBits (d.reg (0x30000 + x)) 3 0 (d.runPrio t)
  | none, none => if x = 0x2000 then d.peekClaim 8 else d.reg (0x30000 + x)

/-- A register of the SEC block: the fuses show through it (R345, R350). -/
def Dev.showSec (d : Dev) (v : Vault) (a : Nat) : Nat :=
  let slots (p : Nat → Bool) (k n : Nat) : Nat := (List.range n).foldl (fun acc i => acc + b2n (p (k + i)) * 2 ^ i) 0
  if a = A.LC_STATE then b2n v.next.isSome * 2 ^ 31 + v.next.getD 0 * 2 ^ 8 + v.life
  else if a = A.FUSE_STATUS then
    slots v.revoked.contains 0 8 * 2 ^ 24 + slots (fun k => (v.key k).isSome) 0 8 * 2 ^ 16
      + slots v.revoked.contains 8 3 * 2 ^ 12 + slots (fun k => (v.key k).isSome) 8 3 * 2 ^ 8 + b2n v.oikDead * 2 + b2n v.oik.isSome
  else if a = A.POLICY then v.pol
  else if a = A.ROLLBACK then v.rollback
  else if a = A.SERIAL_LO then v.serialNo.toNat % 2 ^ 32
  else if a = A.SERIAL_HI then v.serialNo.toNat / 2 ^ 32
  else if a = A.RR_COUNT then v.rrCount
  else if a = A.NV_SEQ then v.seq
  else if a = A.NV_STATUS then putBit (d.reg a) 31 d.nvIsBusy
  else if a = A.NV_DATA_LO then (d.nvDataLo v).1
  else if a = A.NV_DATA_HI then d.nvDataHi.1
  else d.reg a

/-- A register of the PWR block. -/
def Dev.showPwr (d : Dev) (x : Nat) : Nat :=
  match arrIdx x 0x40 4 7 with
  | some w => d.polderWord w
  | none => d.reg (0x10000 + x)

/-- A register of the HOST block. -/
def Dev.showHost (d : Dev) (x : Nat) : Nat :=
  if x = 0x10 then d.errPop.1 else if x = 0x18 then putBits (d.reg A.ERR_LOG_STATUS) 4 0 d.errLog.length else d.reg (0x40000 + x)

/-- What the register at offset a shows to a requester, with no side effect: WO fields and reserved bits read 0 (R10). -/
def Dev.show_ (d : Dev) (v : Vault) (src : Src) (a : Nat) : Nat :=
  match RegMap.find a with
  | none => if RegMap.isPhy a then d.reg a % 65536 else 0
  | some row =>
    row.view
      (if 0x10000 ≤ a ∧ a < 0x20000 then d.showPwr (a - 0x10000)
       else if 0x30000 ≤ a ∧ a < 0x40000 then d.showInt (a - 0x30000)
       else if 0x40000 ≤ a ∧ a < 0x50000 then d.showHost (a - 0x40000)
       else if 0x50000 ≤ a ∧ a < 0x60000 then d.showSec v a
       else if a = A.SCRUB_LOG_0 then d.scrubPop.1
       else if a = A.FL_CTRL then putBits (d.reg a) 31 30 d.fabMode
       else if 0x101000 ≤ a ∧ a < 0x101400 then
         (let p := (a - 0x101000) / 4; if (d.slots (p / 8)).contains (p % 8) then d.reg a else 0)
       else if 0x200000 ≤ a ∧ a < 0x400000 then d.showEng (a - 0x200000)
       else if 0x410000 ≤ a ∧ a < 0x420000 then
         (let n := (a - 0x410000) / 8; if a % 8 = 0 then (d.cntLo src n).1 else (d.cntHi src n).1)
       else if 0x1000000 ≤ a then
         (let o := (a - 0x1000000) / 0x20000
          let y := (a - 0x1000000) % 0x20000
          if y < 0x10000 then d.showLane (8 * o + y / 0x2000) (y % 0x2000) else d.showOct o y)
       else d.reg a)

/-- The lane whose PAT_ERR lies at offset a. -/
def patErrAt (a : Nat) : Option Nat := (laneAt a).filter fun g => a == A.PAT_ERR g

/-- The octet whose register of one kind lies at offset a. -/
def octAt (f : Nat → Nat) (a : Nat) : Option Nat :=
  if 0x1000000 ≤ a ∧ a < 0x1400000 ∧ f ((a - 0x1000000) / 0x20000) = a then some ((a - 0x1000000) / 0x20000) else none

/-- R327: an ACCT register: its fields are RC in residency mode only. -/
def isAcct (a : Nat) : Bool := decide (0x10200 ≤ a ∧ a < 0x10510)

/-- A PLL lock indicator: which PLLs are locked is a free value (log 22). -/
def isPllLock (a : Nat) : Bool := decide (A.PLL_LOCK 0 ≤ a ∧ a < A.PLL_LOCK 6)

/-- What a read of the register at offset a returns without a side effect; a free value advances the stream only. -/
def Dev.peek (d : Dev) (v : Vault) (src : Src) (a : Nat) : Nat × Dev :=
  if isPllLock a then (let (x, d) := d.draw; (x.toNat % 2 ^ 32, d)) else (d.show_ v src a, d)

/-- R11, R395: a read by src of the register at offset a, whose target takes it: the value and the side effects. -/
def Dev.busRead (d : Dev) (v : Vault) (src : Src) (a : Nat) : Nat × Dev :=
  match patErrAt a, octAt A.TXTS_0 a, octAt A.RC_DATA a with
  | some g, _, _ => d.patRead g
  | _, some o, _ => d.popTxts o
  | _, _, some o => d.rcRead o
  | none, none, none =>
    if a = A.TB_SEC_LO then d.latchTime
    else if a = A.HOST_CLAIM then d.hostClaim src
    else if a = A.ERR_LOG_0 then d.errPop
    else if a = A.NV_DATA_LO then d.nvDataLo v
    else if a = A.NV_DATA_HI then d.nvDataHi
    else if a = A.SCRUB_LOG_0 then d.scrubPop
    else if 0x410000 ≤ a ∧ a < 0x420000 then
      (let n := (a - 0x410000) / 8; if a % 8 = 0 then d.cntLo src n else d.cntHi src n)
    else
      let (x, d) := d.peek v src a
      match RegMap.find a with
      | some row => (x, if isAcct a && d.on R.PWR_CFG.ACCT_MODE then d else d.setReg a (row.afterRead (d.reg a)))
      | none => (x, d)

end Sys2Proof.Machine
end

