-- ==== Sys2Proof/Machine/RegCmd.lean ====
section
/-! DEFINITION. Register accesses of the host, the debug port and the REG channel (R9 to R12, R220, R392 to R395). -/

namespace Sys2Proof.Machine

/-- R9, R394: an access that is not an aligned 32-bit one completes with Unsupported Request: it is logged and does nothing. -/
def sizeOk (a : Nat) (whole : Bool) : Bool := whole && a % 4 == 0

/-- R9, R392, R394, R395: a write of x by src at offset a. -/
def regWrite (d : Dev) (v : Vault) (src : Src) (a : Nat) (whole : Bool) (x : Nat) : Dev × Vault :=
  if sizeOk a whole then
    match d.barred a with
    | none => busWrite d v src a x
    | some code => (d.logAccess src code a, v)
  else ((d.logAccess src 1 a).unsupported src, v)

/-- R9, R11, R394: a read by src at offset a; what it returns is kept for its requester. -/
def regRead (d : Dev) (v : Vault) (src : Src) (a : Nat) (whole : Bool) : Dev :=
  if sizeOk a whole then
    match d.barred a with
    | none => let (x, d) := d.busRead v src a; d.respond src x
    | some code => (d.logAccess src code a).respond src 0
  else (d.logAccess src 1 a).unsupported src

/-- The number of the REG channel (R214). -/
def chReg : Nat := 0x15

/-- R220: the byte offset a REG operand names. -/
def regOff (op : Nat) : Nat := op % 2 ^ 26 / 4 * 4

/-- R14, R217: offset a lies in the BAR0 map. -/
def inMap (a : Nat) : Bool := !(decide (0xC10000 ≤ a ∧ a < 0x1000000) || decide (0x1400000 ≤ a))

/-- R220: a keeper's access outside its own octet's block. -/
def foreign (e a : Nat) : Bool :=
  roleOf e == .keeper && !decide (octBase (e - 56) ≤ a ∧ a < octBase (e - 56) + 0x20000)

/-- R217, R220: the part takes up engine e's oldest REG request of one command. It is answered REFUSED or BAD_ADDR, or is on its
way to its target. -/
def Dev.regTake (d : Dev) (e cmd : Nat) : Dev :=
  match d.req e chReg cmd .sent with
  | none => d
  | some r =>
    let a := regOff r.op.toNat
    if foreign e a then d.answer e chReg cmd .sent stRefused
    else if !inMap a then d.answer e chReg cmd .sent stBadAddr
    else d.onReq e chReg cmd .sent fun r => { r with phase := .taken }

/-- R218, R220, R394, R395: engine e's oldest REG request that is on its way arrives, in the order of the csends. -/
def regArrive (d : Dev) (v : Vault) (e : EngId) : Dev × Vault :=
  match (d.e e).reqs.find? fun r => r.chan == chReg && r.phase != .answered with
  | none => (d, v)
  | some r =>
    if r.phase ≠ .taken then (d, v)
    else
      let a := regOff r.op.toNat
      let src : Src := .reg e
      if r.epoch ≠ d.epoch r.tgt then (d.answer e chReg r.cmd .taken stTargetReset, v)
      else
        match d.barred a with
        | some code =>
          ((d.logAccess src code a).answer e chReg r.cmd .taken (if code = 3 then stTestBusy else stTargetReset), v)
        | none =>
          if r.cmd = 0 then
            let (x, d) := d.busRead v src a
            ((d.respond src x).answer e chReg 0 .taken stOK x, v)
          else
            let (d, v) := busWrite d v src a (r.op.toNat / 2 ^ 32)
            (d.answer e chReg 1 .taken stOK, v)

/-! The commands. -/

/-- R392: a write of a register. -/
def execRegisterWrite (src : Src) (off : BitVec 26) (whole : Bool) (val : BitVec 32) (s : State) : Host.Outcome State Fault Refusal :=
  s.onV fun d v => regWrite d v src off.toNat whole val.toNat

/-- R11: a read of a register, which clears its RC fields. -/
def execReadClear (src : Src) (off : BitVec 26) (whole : Bool) (s : State) : Host.Outcome State Fault Refusal :=
  s.on fun d => regRead d s.vault src off.toNat whole

/-- R220: READ on the REG channel. -/
def execRegRead (e : EngId) (s : State) : Host.Outcome State Fault Refusal := s.on fun d => d.regTake e 0

/-- R220: WRITE on the REG channel. -/
def execRegWrite (e : EngId) (s : State) : Host.Outcome State Fault Refusal := s.on fun d => d.regTake e 1

/-- R220: a REG access reaches its target. -/
def execRegAccessArrive (e : EngId) (s : State) : Host.Outcome State Fault Refusal := s.onV fun d v => regArrive d v e

end Sys2Proof.Machine
end

