-- ==== Sys2Proof/Machine/Debug.lean ====
section
/-! DEFINITION. The debug port: its TAP instructions and the commands of DBG_ACCESS (spec/13, R356 to R361). -/

namespace Sys2Proof.Machine

/-! The TAP (R356). -/

/-- The TAP instruction n is in force, and its data register returned x. -/
def Dev.tap (d : Dev) (n x : Nat) : Dev := d.onSec fun s => { s with ir := n, tdo := x }

/-- An instruction that is not allowed acts as BYPASS. -/
def Dev.bypass (d : Dev) : Dev := d.tap 0xFF 0

/-- R357: the debug level: 0 CLOSED, 1 OBSERVE, 2 FULL. -/
def Dev.dbgLevel (d : Dev) : Nat := d.get R.DBG_STATUS.LEVEL

/-- R356, R361: boundary scan is open. -/
def Dev.scanOpen (d : Dev) (v : Vault) : Bool := d.dbgLevel == 2 && [0, 1, 4].contains v.life

/-- R356: a boundary-scan instruction n: the pins are captured and the shifted value is kept for the pins. -/
def Dev.boundary (d : Dev) (v : Vault) (n pins shift : Nat) : Dev :=
  if d.scanOpen v then (d.tap n pins).onSec fun s => { s with bscan := shift } else d.bypass

/-- R357: the debug port takes challenge and response: not in SCRAPPED, and not while random output is withheld (R347). -/
def Dev.chalOpen (d : Dev) (v : Vault) : Bool := v.life != 5 && !d.sec.trngBad

/-- R357 DBG_CHAL. -/
def Dev.dbgChal (d : Dev) (v : Vault) : Dev :=
  if d.chalOpen v then
    let (l, d) := d.challenge v
    d.tap 0x10 (leNat l)
  else d.bypass

/-- R357 DBG_RESP: a response waits to be checked; one at a time. -/
def Dev.dbgResp (d : Dev) (v : Vault) (x : Nat) : Dev :=
  if v.life = 5 then d.bypass
  else (d.tap 0x11 0).onSec fun s => if s.resp.isSome then s else { s with resp := some (bytesLE x 196) }

/-- R360 DBG_HOLD: the old mask shifts out as the new one shifts in. -/
def Dev.dbgHold (d : Dev) (m : Nat) : Dev :=
  if d.dbgLevel = 2 then
    let d := d.tap 0x14 (d.reg A.DBG_HOLD_LO + d.reg A.DBG_HOLD_HI * 2 ^ 32)
    (d.setReg A.DBG_HOLD_LO (m % 2 ^ 32)).setReg A.DBG_HOLD_HI (m / 2 ^ 32)
  else d.bypass

/-! DBG_ACCESS (R359). -/

/-- What a command leaves: the part, its fuses, the status and the read data. -/
abbrev DbgOut := (Dev × Vault) × Nat × Nat

def dbgOk : Nat := 0
def dbgBusy : Nat := 1
def dbgDenied : Nat := 2
def dbgClosed : Nat := 3
def dbgTest : Nat := 4
def dbgError : Nat := 5
def dbgPoison : Nat := 6

/-- R359, R394: the status that tells of a block which takes no access. -/
def dbgBar (code : Nat) : Nat := if code = 3 then dbgTest else dbgClosed

/-- A command that touches the part only. -/
def dbgRet (d : Dev) (v : Vault) (st : Nat) (x : Nat := 0) : DbgOut := ((d, v), st, x)

/-- R356, R359: Update-DR of DBG_ACCESS with a command of the given level; Capture-DR returns the status and data of the last one. The
effect is that of f, and the status stays BUSY until the command completes. -/
def dbgAccess (lv : Nat) (f : Dev → Vault → DbgOut) (d : Dev) (v : Vault) : Dev × Vault :=
  if d.dbgLevel = 0 then (d.bypass, v)
  else
    let st := if d.sec.busy.isSome then dbgBusy else d.sec.st
    let idle := d.sec.busy.isNone
    let d := d.tap 0x13 (st + d.sec.data.toNat * 2 ^ 44)
    if idle then
      let ((d, v), st, x) := if d.dbgLevel < lv then dbgRet d v dbgDenied else f d v
      (if d.sec.ir = 0x13 then d.onSec fun s => { s with busy := some (st, BitVec.ofNat 64 x) } else d, v)
    else (d, v)

/-- R359: the command in progress completes. -/
def Dev.dbgComplete (d : Dev) : Dev :=
  match d.sec.busy with
  | none => d
  | some (st, x) => d.onSec fun s => { s with busy := none, st := st, data := x }

/-- A register offset a debug command may name. -/
def dbgOff (a : Nat) : Bool := decide (a < 2 ^ 26) && a % 4 == 0

/-- R359 REG_READ. -/
def dbgRegRead (a : Nat) (d : Dev) (v : Vault) : DbgOut :=
  if dbgOff a then
    match d.barred a with
    | some c => dbgRet (d.logAccess .dbg c a) v (dbgBar c)
    | none => let (x, d) := d.peek v .dbg a; dbgRet d v dbgOk x
  else dbgRet d v dbgError

/-- R359 REG_WRITE: the effects of a host write, in every block. -/
def dbgRegWrite (a x : Nat) (d : Dev) (v : Vault) : DbgOut :=
  if dbgOff a then
    match d.barred a with
    | some c => dbgRet (d.logAccess .dbg c a) v (dbgBar c)
    | none => (busWrite d v .dbg a x, dbgOk, 0)
  else dbgRet d v dbgError

/-- The engine that SEL names: the cluster in bits 7:4, the engine in bits 2:0; none past cluster 11. -/
def selEngine (sel : Nat) : Option Nat := if sel / 16 < 12 then some (8 * (sel / 16) + sel % 8) else none

/-- R317, R359: a command on the engine SEL names, whose cluster takes it. -/
def onSel (sel : Nat) (f : Nat → Dev → Vault → DbgOut) (d : Dev) (v : Vault) : DbgOut :=
  match selEngine sel with
  | none => dbgRet d v dbgError
  | some e =>
    match d.barredPolder (clPolder (e / 8)) with
    | some c => dbgRet d v (dbgBar c)
    | none => f e d v

/-- R359 ENG_HALT: as IMG HALT (R188). -/
def dbgHalt (sel : Nat) : Dev → Vault → DbgOut := onSel sel fun e d v => dbgRet (d.haltEngine e) v dbgOk

/-- R359 ENG_RESUME: a HALTED engine starts at its pc. -/
def dbgResume (sel : Nat) : Dev → Vault → DbgOut :=
  onSel sel fun e d v => dbgRet (if (d.e e).st = .halted then d.runEngine e else d) v dbgOk

/-- R359 ENG_STEP: one instruction of a HALTED engine, which then returns to HALTED unless it is in FAULT. -/
def dbgStep (sel : Nat) : Dev → Vault → DbgOut :=
  onSel sel fun e d v =>
    if (d.e e).st = .halted then
      let d := (d.runEngine e).runAtPc e
      dbgRet (if (d.e e).st = .fault then d else d.stopEngine e .halted) v dbgOk
    else dbgRet d v dbgOk

/-- R359: a system register number the port may name on engine e: CLAIM, EOI and the running priority on wardens only. -/
def dbgSy (e a : Nat) : Bool := decide (64 ≤ a ∧ a < 128) && syListed (a - 64) && (decide (88 ≤ e) || !syWarden (a - 64))

/-- R359 ENG_REG_READ. -/
def dbgEngRead (sel a : Nat) : Dev → Vault → DbgOut :=
  onSel sel fun e d v =>
    if (d.e e).st ≠ .halted then dbgRet d v dbgError
    else if a < 32 then dbgRet d v dbgOk ((d.e e).r a).toNat
    else if a = 32 then dbgRet d v dbgOk (d.e e).pc.toNat
    else if dbgSy e a then
      dbgRet d v dbgOk (if a - 64 = 40 then d.peekClaim (e - 88) else (d.syRead e (a - 64) (d.issueAt e)).toNat)
    else dbgRet d v dbgError

/-- R359 ENG_REG_WRITE. -/
def dbgEngWrite (sel a x : Nat) : Dev → Vault → DbgOut :=
  onSel sel fun e d v =>
    let w : DWord := BitVec.ofNat 64 x
    if (d.e e).st ≠ .halted then dbgRet d v dbgError
    else if a < 32 then dbgRet (d.onE e fun y => y.w a w) v dbgOk
    else if a = 32 then dbgRet (d.onE e fun y => y.setPc x) v dbgOk
    else if dbgSy e a then
      dbgRet (if a - 64 = 41 then d.eoi (e - 88) else d.onE e fun y => y.syWrite e (a - 64) (d.issueAt e) w) v dbgOk
    else dbgRet d v dbgError

/-- R190, R359: a command on the store word at engine address a; the instruction store is open at FULL only. -/
def dbgStore (sel a : Nat) (f : Nat → Space → Nat → Dev → Vault → DbgOut) : Dev → Vault → DbgOut :=
  onSel sel fun e d v =>
    let w : DWord := BitVec.ofNat 64 a
    if a % 8 ≠ 0 ∨ regionOf w = .outside then dbgRet d v dbgError
    else if regionOf w = .text ∧ d.dbgLevel ≠ 2 then dbgRet d v dbgDenied
    else f e (wordAt w).1 (wordAt w).2 d v

/-- R359 STORE_READ. -/
def dbgStoreRead (sel a : Nat) : Dev → Vault → DbgOut :=
  dbgStore sel a fun e sp w d v =>
    let (x, bad, d) := d.readWord sp (e / 8) (e % 8) w
    dbgRet d v (if bad then dbgPoison else dbgOk) x

/-- R359 STORE_WRITE. -/
def dbgStoreWrite (sel a x : Nat) : Dev → Vault → DbgOut :=
  dbgStore sel a fun e sp w d v => dbgRet (d.putWord sp (e / 8) (e % 8) w x) v dbgOk

/-- R359: a command accepted in BLANK and MANUFACTURE only. -/
def dbgFuse (f : Dev → Vault → DbgOut) (d : Dev) (v : Vault) : DbgOut := if v.life ≤ 1 then f d v else dbgRet d v dbgError

/-- R359 FUSE_STAGE. -/
def dbgFuseStage (a x : Nat) : Dev → Vault → DbgOut :=
  dbgFuse fun d v =>
    if 11 < a % 16 then dbgRet d v dbgError
    else dbgRet (d.onSec fun s => { s with stage := s.stage.set (a % 16) (BitVec.ofNat 32 x) }) v dbgOk

/-- R345, R359 FUSE_WRITE. -/
def dbgFuseWrite (a : Nat) : Dev → Vault → DbgOut :=
  dbgFuse fun d v =>
    match fuseWrite d v (a % 256) (d.sec.stage.flatMap fun w => bytesLE w.toNat 4) with
    | ((d, v), none) => dbgRet (d.onSec fun s => { s with stage := List.replicate 12 0 }) v dbgOk
    | ((d, v), some det) => dbgRet d v dbgError det

/-! The commands. -/

/-- R356: TRST_N or the reset state selects IDCODE. -/
def execTapReset (s : State) : Host.Outcome State Fault Refusal := s.on fun d => d.tap 2 0

def execExtest (pins shift : Nat) (s : State) : Host.Outcome State Fault Refusal := s.on fun d => d.boundary s.vault 0 pins shift

def execSamplePreload (pins shift : Nat) (s : State) : Host.Outcome State Fault Refusal := s.on fun d => d.boundary s.vault 1 pins shift

/-- R356: the identity value, laid out as DEV.ID is. -/
def execIdcode (s : State) : Host.Outcome State Fault Refusal := s.on fun d => d.tap 2 (d.reg A.ID)

def execBypass (s : State) : Host.Outcome State Fault Refusal := s.on fun d => d.bypass

def execDbgChal (s : State) : Host.Outcome State Fault Refusal := s.on fun d => d.dbgChal s.vault

def execDbgResp (resp : BitVec 1568) (s : State) : Host.Outcome State Fault Refusal := s.on fun d => d.dbgResp s.vault resp.toNat

def execDbgRespChecked (s : State) : Host.Outcome State Fault Refusal := s.onV dbgChecked

def execDbgStatus (s : State) : Host.Outcome State Fault Refusal := s.on fun d => d.tap 0x12 (d.reg A.DBG_STATUS)

/-- R358: Update-DR with 1 ends the session. -/
def execDbgLock (b : Bool) (s : State) : Host.Outcome State Fault Refusal :=
  s.on fun d => (if b then d.endSession s.vault.life else d).tap 0x15 0

def execDbgHold (mask : BitVec 49) (s : State) : Host.Outcome State Fault Refusal := s.on fun d => d.dbgHold mask.toNat

def execDbgNop (s : State) : Host.Outcome State Fault Refusal := s.onV (dbgAccess 1 fun d v => dbgRet d v dbgOk)

def execDbgRegRead (addr : BitVec 32) (s : State) : Host.Outcome State Fault Refusal := s.onV (dbgAccess 1 (dbgRegRead addr.toNat))

def execDbgRegWrite (addr data : BitVec 32) (s : State) : Host.Outcome State Fault Refusal :=
  s.onV (dbgAccess 2 (dbgRegWrite addr.toNat data.toNat))

def execDbgEngHalt (sel : BitVec 8) (s : State) : Host.Outcome State Fault Refusal := s.onV (dbgAccess 2 (dbgHalt sel.toNat))

def execDbgEngResume (sel : BitVec 8) (s : State) : Host.Outcome State Fault Refusal := s.onV (dbgAccess 2 (dbgResume sel.toNat))

def execDbgEngStep (sel : BitVec 8) (s : State) : Host.Outcome State Fault Refusal := s.onV (dbgAccess 2 (dbgStep sel.toNat))

def execDbgEngRegRead (sel : BitVec 8) (addr : BitVec 32) (s : State) : Host.Outcome State Fault Refusal :=
  s.onV (dbgAccess 1 (dbgEngRead sel.toNat addr.toNat))

def execDbgEngRegWrite (sel : BitVec 8) (addr : BitVec 32) (data : DWord) (s : State) : Host.Outcome State Fault Refusal :=
  s.onV (dbgAccess 2 (dbgEngWrite sel.toNat addr.toNat data.toNat))

def execDbgStoreRead (sel : BitVec 8) (addr : BitVec 32) (s : State) : Host.Outcome State Fault Refusal :=
  s.onV (dbgAccess 1 (dbgStoreRead sel.toNat addr.toNat))

def execDbgStoreWrite (sel : BitVec 8) (addr : BitVec 32) (data : DWord) (s : State) : Host.Outcome State Fault Refusal :=
  s.onV (dbgAccess 2 (dbgStoreWrite sel.toNat addr.toNat data.toNat))

def execDbgFuseStage (addr data : BitVec 32) (s : State) : Host.Outcome State Fault Refusal :=
  s.onV (dbgAccess 2 (dbgFuseStage addr.toNat data.toNat))

def execDbgFuseWrite (addr : BitVec 32) (s : State) : Host.Outcome State Fault Refusal := s.onV (dbgAccess 2 (dbgFuseWrite addr.toNat))

def execDbgCommandComplete (s : State) : Host.Outcome State Fault Refusal := s.on Dev.dbgComplete

end Sys2Proof.Machine
end

