-- ==== Sys2Proof/Machine/LineTx.lean ====
section
/-! DEFINITION. What the lanes of an octet send between two alignment markers (R78, R82, R84, R92 to R107): the coded stream of each port, the
source each transmitter takes, and the marker. -/

namespace Sys2Proof.Machine

/-! The coded stream of a port. -/

/-- R93, R94, R106, R107: one codeword pair: 160 blocks, idle where no frame's block waits (idle blocks stand only between frames, and as many
are made as the marker leaves room for), scrambled, encoded and dealt to n lanes. -/
def PortSt.pair (n : Nat) (x : PortSt) : PortSt :=
  let (l, h) := mapHist scramble x.scr (x.txq.take 160 ++ List.replicate (160 - x.txq.length) idleBlk)
  let dealt := dealLanes n (rsPair l)
  { x with txq := x.txq.drop 160, scr := h, fifo := (List.range n).map fun i => x.fifo.getD i [] ++ dealt.getD i [] }

/-- Pairs until each of n lanes has need bits to send. -/
def PortSt.fill (n need : Nat) (x : PortSt) : PortSt :=
  let len := 10880 / n
  (List.range ((need - (x.fifo.headD []).length + (len - 1)) / len)).foldl (fun x _ => x.pair n) x

/-- R97: the lane's bits from its RS bits, n lane bits in all: as they are in Mode S, in inner blocks otherwise. -/
def laneBits (mode n : Nat) (rs : List Bool) : List Bool :=
  if mode = 0 then rs.take n
  else ((List.range (n / 136)).map fun i => hamEncode ((rs.drop (128 * i)).take 128)).flatten

/-- R99, R101: the coded bits of each lane of a port of n lanes, room for cap bits on each, after a marker of INDEX index; at a codeword-pair
boundary a pair starts. -/
def PortSt.period (mode n index cap : Nat) (x : PortSt) : List (List Bool) × PortSt :=
  let need := if mode = 0 then cap else cap / 136 * 128
  let x := if pairOffset mode n index = 0 ∧ index % pairPeriod mode n = 0 then { x with fifo := [] } else x
  let x := x.fill n need
  ((List.range n).map fun i => laneBits mode cap ((x.fifo.getD i []).take need),
   { x with fifo := x.fifo.map (·.drop need) })

/-- R100: BIP: the parity of bit positions modulo 8, position 0 in the field's first bit (DEDUCED, log 111). -/
def bipOf (l : List Bool) : Nat :=
  (l.foldl (fun (s : Nat × Nat) b => (if b then s.1 ^^^ 2 ^ (7 - s.2 % 8) else s.1, s.2 + 1)) (0, 0)).1

/-! Source and launch. -/

/-- R78, R79, R82, R84: what lane g's transmitter sends. -/
def Dev.txSource (d : Dev) (g : Nat) : TxSource :=
  if d.txState g ≠ 0 then .quiet
  else if d.get (R.LB_STATUS.ACTIVE g) = 3 then .far
  else if training (d.trn g) then .pattern 2
  else if d.get (R.PAT_CTRL.GEN g) ≠ 0 then .pattern (d.get (R.PAT_CTRL.GEN g))
  else .port

/-- The registers of lane g's transmit path. -/
def Dev.txCfg (d : Dev) (g : Nat) : TxCfg :=
  { src := d.txSource g, invert := d.on (R.TX_CTRL.INVERT g), pd := d.pdPage g, taps := tapsOf (d.reg (A.TX_FFE g)),
    amp := d.get (R.TX_CTRL.AMP g) }

/-- R82: the word the far-end loop sends next: the oldest in its store, or the last one again. -/
def LaneSt.farPop (x : LaneSt) : List Nat × LaneSt :=
  let l := x.rx.far.headD x.tx.farLast
  (l, { x with rx := { x.rx with far := x.rx.far.tail }, tx := { x.tx with farLast := l } })

/-- One L-cycle of a lane's transmitter: the word w of port data, the subcarrier value m; loop is LB_STATUS.ACTIVE, mute PAD_MUTE (R82). -/
def TxCfg.lane (k : TxCfg) (loop : Nat) (mute : Bool) (x : LaneSt) (w : BitVec 256) (m : Rat) : LaneSt :=
  let (far, x) := if k.src = .far then x.farPop else ([], x)
  let tx := k.word m x.tx w far
  let tx := { tx with pad := if loop = 1 ∧ mute then List.replicate 128 0 else tx.dac }
  let tx := if loop = 1 then { tx with loop := tx.loop ++ [tx.dac] }
    else if loop = 2 then { tx with loop := tx.loop ++ [tx.sent.map Int.ofNat] }
    else tx
  { x with tx }

/-- Bits as words of an L-cycle, first bit most significant. -/
def lineWord (l : List Bool) : BitVec 256 := BitVec.ofNat 256 (l.foldl (fun v b => 2 * v + b2n b) 0)

/-- R67, R68: lane g launches a stretch of L-cycles with the port's bits; ks gives the subcarrier sample of each L-cycle. The registers are
taken as they stand at its end (log 112). -/
def Dev.txWords (d : Dev) (g : Nat) (bits : List Bool) (ks : List Nat) : Dev :=
  let k := d.txCfg g
  let loop := d.get (R.LB_STATUS.ACTIVE g)
  let mute := d.on (R.LB_CTRL.PAD_MUTE g)
  let sel := d.get (R.TL_CTRL.LANE (g / 8)) == g % 8
  let m (i : Nat) : Rat := if sel then d.tlM (g / 8) i else 0
  let d := d.onL g fun x => (ks.foldl (fun (s : List Bool × LaneSt) i =>
    (s.1.drop 256, k.lane loop mute s.2 (lineWord (s.1.take 256)) (m i))) (bits, x)).2
  (d.inc (R.TX_STATUS.SAT_CNT g) (d.ln g).tx.sat).onL g fun x => { x with tx := { x.tx with sat := 0 } }

/-- The bits of a marker. -/
def markerBits (w : DWord) : List Bool := (List.range 64).map fun i => w.getLsbD (63 - i)

/-- R99 to R101: the period a port of slot p of octet o sends after the last marker, cap coded bits on a lane, and its lanes' parities. -/
def Dev.portPeriod (d : Dev) (o p : Nat) (cap : Nat) : List (List Bool) × Dev :=
  let mode := d.get (R.MODE_ACTIVE.LANE_MODE o)
  let (l, x) := (d.pt o p).period mode (d.portWidth o) (((d.oc o).mkTx + 33) % 34) cap
  (l, d.onPt o p fun _ => x)

/-- R99, R100, R116: octet o launches the L-cycles since its last marker, one subcarrier sample number each, and then a marker on every lane
that sends its port's data; captures at the clock taps and the junction temperature are measured. -/
def Dev.markerSend (d : Dev) (o : Nat) (ks : List Nat) (caps : List Instant) (temp : Int) : Dev :=
  if !(d.oc o).pll then d
  else
    let old := (d.oc o).mkOut
    let cap := 256 * ks.length - (if old = [] then 0 else 64)
    let (bits, d) := (d.slots o).foldl (fun (s : List (List Bool) × Dev) p =>
      let (l, d) := s.2.portPeriod o p cap
      (s.1 ++ l, d)) ([], d)
    let d := (List.range 8).foldl (fun d l =>
      d.txWords (8 * o + l) ((match old[l]? with | some w => markerBits w | none => []) ++ bits.getD l []) ks) d
    let i := (d.oc o).mkTx
    let word (l : Nat) : DWord := BitVec.ofNat 64
      (markerWord l (d.get (R.MODE_ACTIVE.SPLIT o)) (d.get (R.MODE_ACTIVE.LANE_MODE o)) i (bipOf (bits.getD l [])))
    let d := d.onO o fun x => { x with mkTx := (i + 1) % 34, mkOut := (List.range 8).map word }
    (List.range 8).foldl (fun d l =>
      let g := 8 * o + l
      if d.txSource g = .port then
        let tm := d.tmOf g (caps.getD l ⟨0, 0⟩) (d.getI (R.TSC_TX.DELAY o l)) temp
        d.onL g fun x => { x with tmTx := tm, stepTx := d.time.steps }
      else d) d

/-! The commands. -/

def execMarkerSend (o : Oct) (x : MarkerLaunch) (temp : Int) (s : State) : Host.Outcome State Fault Refusal :=
  s.on fun d => d.live o fun d => d.markerSend o x.ks x.caps temp

end Sys2Proof.Machine
end

