-- ==== Sys2Proof/Machine/Dispatch.lean ====
section
/-! DEFINITION. One arm per command of Instr, each a direct call of its meaning. -/

namespace Sys2Proof.Machine

def exec (i : Instr) (s : State) : Host.Outcome State Fault Refusal :=
  match i with
  | .add e gd ga gb => Sys2Proof.Machine.execAdd e gd ga gb s
  | .sub e gd ga gb => Sys2Proof.Machine.execSub e gd ga gb s
  | .and e gd ga gb => Sys2Proof.Machine.execAnd e gd ga gb s
  | .or e gd ga gb => Sys2Proof.Machine.execOr e gd ga gb s
  | .xor e gd ga gb => Sys2Proof.Machine.execXor e gd ga gb s
  | .nor e gd ga gb => Sys2Proof.Machine.execNor e gd ga gb s
  | .andn e gd ga gb => Sys2Proof.Machine.execAndn e gd ga gb s
  | .seq e gd ga gb => Sys2Proof.Machine.execSeq e gd ga gb s
  | .sne e gd ga gb => Sys2Proof.Machine.execSne e gd ga gb s
  | .slt e gd ga gb => Sys2Proof.Machine.execSlt e gd ga gb s
  | .sltu e gd ga gb => Sys2Proof.Machine.execSltu e gd ga gb s
  | .sle e gd ga gb => Sys2Proof.Machine.execSle e gd ga gb s
  | .sleu e gd ga gb => Sys2Proof.Machine.execSleu e gd ga gb s
  | .sll e gd ga gb => Sys2Proof.Machine.execSll e gd ga gb s
  | .srl e gd ga gb => Sys2Proof.Machine.execSrl e gd ga gb s
  | .sra e gd ga gb => Sys2Proof.Machine.execSra e gd ga gb s
  | .rol e gd ga gb => Sys2Proof.Machine.execRol e gd ga gb s
  | .clz e gd ga => Sys2Proof.Machine.execClz e gd ga s
  | .ctz e gd ga => Sys2Proof.Machine.execCtz e gd ga s
  | .popc e gd ga => Sys2Proof.Machine.execPopc e gd ga s
  | .addi e gd ga imm => Sys2Proof.Machine.execAddi e gd ga imm s
  | .andi e gd ga imm => Sys2Proof.Machine.execAndi e gd ga imm s
  | .ori e gd ga imm => Sys2Proof.Machine.execOri e gd ga imm s
  | .xori e gd ga imm => Sys2Proof.Machine.execXori e gd ga imm s
  | .slti e gd ga imm => Sys2Proof.Machine.execSlti e gd ga imm s
  | .sltiu e gd ga imm => Sys2Proof.Machine.execSltiu e gd ga imm s
  | .seqi e gd ga imm => Sys2Proof.Machine.execSeqi e gd ga imm s
  | .insh1 e gd ga imm => Sys2Proof.Machine.execInsh1 e gd ga imm s
  | .insh2 e gd ga imm => Sys2Proof.Machine.execInsh2 e gd ga imm s
  | .insh3 e gd ga imm => Sys2Proof.Machine.execInsh3 e gd ga imm s
  | .slli e gd ga sh => Sys2Proof.Machine.execSlli e gd ga sh s
  | .srli e gd ga sh => Sys2Proof.Machine.execSrli e gd ga sh s
  | .srai e gd ga sh => Sys2Proof.Machine.execSrai e gd ga sh s
  | .extF e gd ga pos lenM1 => Sys2Proof.Machine.execExtF e gd ga pos lenM1 s
  | .extsF e gd ga pos lenM1 => Sys2Proof.Machine.execExtsF e gd ga pos lenM1 s
  | .insF e gd ga pos lenM1 => Sys2Proof.Machine.execInsF e gd ga pos lenM1 s
  | .mul e gd ga gb => Sys2Proof.Machine.execMul e gd ga gb s
  | .mulhs e gd ga gb => Sys2Proof.Machine.execMulhs e gd ga gb s
  | .mulhu e gd ga gb => Sys2Proof.Machine.execMulhu e gd ga gb s
  | .mulhsu e gd ga gb => Sys2Proof.Machine.execMulhsu e gd ga gb s
  | .addb e gd ga gb mask => Sys2Proof.Machine.execAddb e gd ga gb mask s
  | .subb e gd ga gb mask => Sys2Proof.Machine.execSubb e gd ga gb mask s
  | .addbs e gd ga gb mask => Sys2Proof.Machine.execAddbs e gd ga gb mask s
  | .subbs e gd ga gb mask => Sys2Proof.Machine.execSubbs e gd ga gb mask s
  | .addbu e gd ga gb mask => Sys2Proof.Machine.execAddbu e gd ga gb mask s
  | .subbu e gd ga gb mask => Sys2Proof.Machine.execSubbu e gd ga gb mask s
  | .avgbu e gd ga gb mask => Sys2Proof.Machine.execAvgbu e gd ga gb mask s
  | .absdb e gd ga gb mask => Sys2Proof.Machine.execAbsdb e gd ga gb mask s
  | .minbu e gd ga gb mask => Sys2Proof.Machine.execMinbu e gd ga gb mask s
  | .maxbu e gd ga gb mask => Sys2Proof.Machine.execMaxbu e gd ga gb mask s
  | .minbs e gd ga gb mask => Sys2Proof.Machine.execMinbs e gd ga gb mask s
  | .maxbs e gd ga gb mask => Sys2Proof.Machine.execMaxbs e gd ga gb mask s
  | .sadb e gd ga gb mask => Sys2Proof.Machine.execSadb e gd ga gb mask s
  | .ceqb e gd ga gb mask => Sys2Proof.Machine.execCeqb e gd ga gb mask s
  | .cgtbu e gd ga gb mask => Sys2Proof.Machine.execCgtbu e gd ga gb mask s
  | .selb e gd ga gb mask => Sys2Proof.Machine.execSelb e gd ga gb mask s
  | .macuu e gd ga gb mask => Sys2Proof.Machine.execMacuu e gd ga gb mask s
  | .macss e gd ga gb mask => Sys2Proof.Machine.execMacss e gd ga gb mask s
  | .macsu e gd ga gb mask => Sys2Proof.Machine.execMacsu e gd ga gb mask s
  | .macsss e gd ga gb mask => Sys2Proof.Machine.execMacsss e gd ga gb mask s
  | .mulpuu e gd ga gb mask => Sys2Proof.Machine.execMulpuu e gd ga gb mask s
  | .mulpss e gd ga gb mask => Sys2Proof.Machine.execMulpss e gd ga gb mask s
  | .ldB e gd ga imm => Sys2Proof.Machine.execLdB e gd ga imm s
  | .ldBu e gd ga imm => Sys2Proof.Machine.execLdBu e gd ga imm s
  | .ldH e gd ga imm => Sys2Proof.Machine.execLdH e gd ga imm s
  | .ldHu e gd ga imm => Sys2Proof.Machine.execLdHu e gd ga imm s
  | .ldW e gd ga imm => Sys2Proof.Machine.execLdW e gd ga imm s
  | .ldWu e gd ga imm => Sys2Proof.Machine.execLdWu e gd ga imm s
  | .ldD e gd ga imm => Sys2Proof.Machine.execLdD e gd ga imm s
  | .stB e gd ga imm => Sys2Proof.Machine.execStB e gd ga imm s
  | .stH e gd ga imm => Sys2Proof.Machine.execStH e gd ga imm s
  | .stW e gd ga imm => Sys2Proof.Machine.execStW e gd ga imm s
  | .stD e gd ga imm => Sys2Proof.Machine.execStD e gd ga imm s
  | .aadd e gd ga gb w32 => Sys2Proof.Machine.execAadd e gd ga gb w32 s
  | .aswap e gd ga gb w32 => Sys2Proof.Machine.execAswap e gd ga gb w32 s
  | .aand e gd ga gb w32 => Sys2Proof.Machine.execAand e gd ga gb w32 s
  | .aor e gd ga gb w32 => Sys2Proof.Machine.execAor e gd ga gb w32 s
  | .axor e gd ga gb w32 => Sys2Proof.Machine.execAxor e gd ga gb w32 s
  | .acas e gd ga gb w32 => Sys2Proof.Machine.execAcas e gd ga gb w32 s
  | .bz e ga imm => Sys2Proof.Machine.execBz e ga imm s
  | .bnz e ga imm => Sys2Proof.Machine.execBnz e ga imm s
  | .j e off => Sys2Proof.Machine.execJ e off s
  | .jal e off => Sys2Proof.Machine.execJal e off s
  | .jr e ga => Sys2Proof.Machine.execJr e ga s
  | .jalr e gd ga => Sys2Proof.Machine.execJalr e gd ga s
  | .mfsy e gd sy => Sys2Proof.Machine.execMfsy e gd sy s
  | .mtsy e sy ga => Sys2Proof.Machine.execMtsy e sy ga s
  | .eret e => Sys2Proof.Machine.execEret e s
  | .trap e code => Sys2Proof.Machine.execTrap e code s
  | .ewait e gd ga => Sys2Proof.Machine.execEwait e gd ga s
  | .halt e => Sys2Proof.Machine.execHalt e s
  | .csend e gd ga chan cmd => Sys2Proof.Machine.execCsend e gd ga chan cmd s
  | .crecv e gd ga chan => Sys2Proof.Machine.execCrecv e gd ga chan s
  | .channelClose e gd ga chan cmd => Sys2Proof.Machine.execChannelClose e gd ga chan cmd s
  | .interruptEntry e => Sys2Proof.Machine.execInterruptEntry e s
  | .watchdogExpiry e => Sys2Proof.Machine.execWatchdogExpiry e s
  | .timerExpiry e => Sys2Proof.Machine.execTimerExpiry e s
  | .ewaitWake e => Sys2Proof.Machine.execEwaitWake e s
  | .crecvWake e => Sys2Proof.Machine.execCrecvWake e s
  | .channelReply e chan parity => Sys2Proof.Machine.execChannelReply e chan parity s
  | .illegalInstruction e word => Sys2Proof.Machine.execIllegalInstruction e word s
  | .instructionFetchFault e => Sys2Proof.Machine.execInstructionFetchFault e s
  | .freqWindowEnd g dep => Sys2Proof.Machine.execFreqWindowEnd g dep s
  | .elasticSwitch g => Sys2Proof.Machine.execElasticSwitch g s
  | .elasticSlip g => Sys2Proof.Machine.execElasticSlip g s
  | .cdrLockSet g err => Sys2Proof.Machine.execCdrLockSet g err s
  | .cdrLockClear g err => Sys2Proof.Machine.execCdrLockClear g err s
  | .losSet g rms => Sys2Proof.Machine.execLosSet g rms s
  | .losClear g rms => Sys2Proof.Machine.execLosClear g rms s
  | .updatePoint x => Sys2Proof.Machine.execUpdatePoint x s
  | .calCoefWrite src g slice val => Sys2Proof.Machine.execCalCoefWrite src g slice val s
  | .calWindowEnd g ws => Sys2Proof.Machine.execCalWindowEnd g ws s
  | .calFreeze src g val => Sys2Proof.Machine.execCalFreeze src g val s
  | .calUnfreeze src g val => Sys2Proof.Machine.execCalUnfreeze src g val s
  | .repairRequest src g val => Sys2Proof.Machine.execRepairRequest src g val s
  | .spareTakeover g => Sys2Proof.Machine.execSpareTakeover g s
  | .repairRelease src g val => Sys2Proof.Machine.execRepairRelease src g val s
  | .ffeTapWrite src g tap val => Sys2Proof.Machine.execFfeTapWrite src g tap val s
  | .swapRequest src g val => Sys2Proof.Machine.execSwapRequest src g val s
  | .fadeEnd x => Sys2Proof.Machine.execFadeEnd x s
  | .lmsUpdate g ws => Sys2Proof.Machine.execLmsUpdate g ws s
  | .mseBlockEnd g ws => Sys2Proof.Machine.execMseBlockEnd g ws s
  | .lmsCtrlWrite src g val => Sys2Proof.Machine.execLmsCtrlWrite src g val s
  | .txFfeWrite src g val => Sys2Proof.Machine.execTxFfeWrite src g val s
  | .pdPageSelect src g val => Sys2Proof.Machine.execPdPageSelect src g val s
  | .pdEntryWrite src g page ix val => Sys2Proof.Machine.execPdEntryWrite src g page ix val s
  | .trainStart src g val => Sys2Proof.Machine.execTrainStart src g val s
  | .trainStop src g val => Sys2Proof.Machine.execTrainStop src g val s
  | .localReadySet src g val => Sys2Proof.Machine.execLocalReadySet src g val s
  | .localReadyClear src g val => Sys2Proof.Machine.execLocalReadyClear src g val s
  | .trainLimitExpiry g => Sys2Proof.Machine.execTrainLimitExpiry g s
  | .trainRequest src g val => Sys2Proof.Machine.execTrainRequest src g val s
  | .trainResend g => Sys2Proof.Machine.execTrainResend g s
  | .trainingMessageReceive o msg => Sys2Proof.Machine.execTrainingMessageReceive o msg s
  | .lanePowerRequest src g val => Sys2Proof.Machine.execLanePowerRequest src g val s
  | .lanePowerTransitionEnd g => Sys2Proof.Machine.execLanePowerTransitionEnd g s
  | .loopbackSelect src g val => Sys2Proof.Machine.execLoopbackSelect src g val s
  | .loopbackEngage g => Sys2Proof.Machine.execLoopbackEngage g s
  | .loopbackSlip x => Sys2Proof.Machine.execLoopbackSlip x s
  | .patternSync x => Sys2Proof.Machine.execPatternSync x s
  | .patErrRead src o l ws => Sys2Proof.Machine.execPatErrRead src o l ws s
  | .eyeScanStart src g val => Sys2Proof.Machine.execEyeScanStart src g val s
  | .eyeScanAbort src g val => Sys2Proof.Machine.execEyeScanAbort src g val s
  | .eyeScanEnd g ws => Sys2Proof.Machine.execEyeScanEnd g ws s
  | .captureEnable src g val => Sys2Proof.Machine.execCaptureEnable src g val s
  | .captureMark src g val => Sys2Proof.Machine.execCaptureMark src g val s
  | .captureRewind src g val => Sys2Proof.Machine.execCaptureRewind src g val s
  | .captureTrigger g k => Sys2Proof.Machine.execCaptureTrigger g k s
  | .capturePageStart g data => Sys2Proof.Machine.execCapturePageStart g data s
  | .captureWordDrop g => Sys2Proof.Machine.execCaptureWordDrop g s
  | .modeCommit src o val => Sys2Proof.Machine.execModeCommit src o val s
  | .modeBoundary o => Sys2Proof.Machine.execModeBoundary o s
  | .markerSend o x temp => Sys2Proof.Machine.execMarkerSend o x temp s
  | .markerReceive g m => Sys2Proof.Machine.execMarkerReceive g m s
  | .codewordDecode o p r => Sys2Proof.Machine.execCodewordDecode o p r s
  | .innerBlockDecode g llr => Sys2Proof.Machine.execInnerBlockDecode g llr s
  | .fecSnapshot src o val => Sys2Proof.Machine.execFecSnapshot src o val s
  | .berWindowEnd g => Sys2Proof.Machine.execBerWindowEnd g s
  | .timeStep src val => Sys2Proof.Machine.execTimeStep src val s
  | .timeSetCommit src val => Sys2Proof.Machine.execTimeSetCommit src val s
  | .timeSetLoad => Sys2Proof.Machine.execTimeSetLoad s
  | .ppsInEdge x => Sys2Proof.Machine.execPpsInEdge x s
  | .ppsOutPulse => Sys2Proof.Machine.execPpsOutPulse s
  | .ppsOutEnd => Sys2Proof.Machine.execPpsOutEnd s
  | .todSend => Sys2Proof.Machine.execTodSend s
  | .todReceive msg soon => Sys2Proof.Machine.execTodReceive msg soon s
  | .timeReadLatch src => Sys2Proof.Machine.execTimeReadLatch src s
  | .txtsPop src o => Sys2Proof.Machine.execTxtsPop src o s
  | .tscStart src g val => Sys2Proof.Machine.execTscStart src g val s
  | .tscDone g rx tx temp => Sys2Proof.Machine.execTscDone g rx tx temp s
  | .modemEnable o w => Sys2Proof.Machine.execModemEnable o w s
  | .modemDisable o w => Sys2Proof.Machine.execModemDisable o w s
  | .tlLaneChange src o val => Sys2Proof.Machine.execTlLaneChange src o val s
  | .gaspCommand src o val => Sys2Proof.Machine.execGaspCommand src o val s
  | .wardenGasp e => Sys2Proof.Machine.execWardenGasp e s
  | .muteClear src o val => Sys2Proof.Machine.execMuteClear src o val s
  | .maskBlockEnd o pwr => Sys2Proof.Machine.execMaskBlockEnd o pwr s
  | .detection o dets cur => Sys2Proof.Machine.execDetection o dets cur s
  | .delimiterMiss o signs => Sys2Proof.Machine.execDelimiterMiss o signs s
  | .headerDecision o header => Sys2Proof.Machine.execHeaderDecision o header s
  | .ldpcBlockRelease o ch => Sys2Proof.Machine.execLdpcBlockRelease o ch s
  | .frameResult o crc => Sys2Proof.Machine.execFrameResult o crc s
  | .searchReady o => Sys2Proof.Machine.execSearchReady o s
  | .rxPop src o => Sys2Proof.Machine.execRxPop src o s
  | .txFrameQueue src o val => Sys2Proof.Machine.execTxFrameQueue src o val s
  | .txFrameStart o => Sys2Proof.Machine.execTxFrameStart o s
  | .txFrameEnd o => Sys2Proof.Machine.execTxFrameEnd o s
  | .frameIngress o p fr => Sys2Proof.Machine.execFrameIngress o p fr s
  | .lookupServe o wait => Sys2Proof.Machine.execLookupServe o wait s
  | .schedulerDecision o p now bad => Sys2Proof.Machine.execSchedulerDecision o p now bad s
  | .frameEgress o p lane k bad => Sys2Proof.Machine.execFrameEgress o p lane k bad s
  | .agePromotion lvl ix now => Sys2Proof.Machine.execAgePromotion lvl ix now s
  | .portFlush o p => Sys2Proof.Machine.execPortFlush o p s
  | .schedCommit w => Sys2Proof.Machine.execSchedCommit w s
  | .schedChamberBoundary lvl ix => Sys2Proof.Machine.execSchedChamberBoundary lvl ix s
  | .schedIndAccess src val => Sys2Proof.Machine.execSchedIndAccess src val s
  | .schedIndDone => Sys2Proof.Machine.execSchedIndDone s
  | .reclaimStart src val => Sys2Proof.Machine.execReclaimStart src val s
  | .reclaimDone => Sys2Proof.Machine.execReclaimDone s
  | .hashKeyWrite src w val => Sys2Proof.Machine.execHashKeyWrite src w val s
  | .gaugeCrossing g => Sys2Proof.Machine.execGaugeCrossing g s
  | .flInstall e => Sys2Proof.Machine.execFlInstall e s
  | .installCommit e => Sys2Proof.Machine.execInstallCommit e s
  | .flLookup e => Sys2Proof.Machine.execFlLookup e s
  | .flRead e => Sys2Proof.Machine.execFlRead e s
  | .flModify e => Sys2Proof.Machine.execFlModify e s
  | .flRelease e => Sys2Proof.Machine.execFlRelease e s
  | .flRemove e => Sys2Proof.Machine.execFlRemove e s
  | .flowRemoveComplete f => Sys2Proof.Machine.execFlowRemoveComplete f s
  | .flEnq e => Sys2Proof.Machine.execFlEnq e s
  | .puntPop e => Sys2Proof.Machine.execPuntPop e s
  | .puntPopComplete e => Sys2Proof.Machine.execPuntPopComplete e s
  | .puntDispose e => Sys2Proof.Machine.execPuntDispose e s
  | .schedRead e => Sys2Proof.Machine.execSchedRead e s
  | .schedWrite e => Sys2Proof.Machine.execSchedWrite e s
  | .spillWrite x => Sys2Proof.Machine.execSpillWrite x s
  | .spillFetch f => Sys2Proof.Machine.execSpillFetch f s
  | .weirTick o ins => Sys2Proof.Machine.execWeirTick o ins s
  | .modeSet src o val => Sys2Proof.Machine.execModeSet src o val s
  | .lCtrlWrite src o j val => Sys2Proof.Machine.execLCtrlWrite src o j val s
  | .dwInit src o j val => Sys2Proof.Machine.execDwInit src o j val s
  | .targetWrite src o j val => Sys2Proof.Machine.execTargetWrite src o j val s
  | .integLoStage src o j val => Sys2Proof.Machine.execIntegLoStage src o j val s
  | .integPreset src o j val => Sys2Proof.Machine.execIntegPreset src o j val s
  | .rcDataRead src o => Sys2Proof.Machine.execRcDataRead src o s
  | .rcDataWrite src o val => Sys2Proof.Machine.execRcDataWrite src o val s
  | .weirSnap e o => Sys2Proof.Machine.execWeirSnap e o s
  | .weirMode e o => Sys2Proof.Machine.execWeirMode e o s
  | .weirTarget e o => Sys2Proof.Machine.execWeirTarget e o s
  | .weirPreset e o => Sys2Proof.Machine.execWeirPreset e o s
  | .rcClear e o => Sys2Proof.Machine.execRcClear e o s
  | .scanStart src o val => Sys2Proof.Machine.execScanStart src o val s
  | .scanStop src o val => Sys2Proof.Machine.execScanStop src o val s
  | .scanModeChange src o val => Sys2Proof.Machine.execScanModeChange src o val s
  | .scanMaskWrite src o val => Sys2Proof.Machine.execScanMaskWrite src o val s
  | .chainConfigWrite src o ix val => Sys2Proof.Machine.execChainConfigWrite src o ix val s
  | .refSelect src o val => Sys2Proof.Machine.execRefSelect src o val s
  | .refSettled o => Sys2Proof.Machine.execRefSettled o s
  | .refFail o => Sys2Proof.Machine.execRefFail o s
  | .outputEnableWrite src o val => Sys2Proof.Machine.execOutputEnableWrite src o val s
  | .heaterDropout o j => Sys2Proof.Machine.execHeaterDropout o j s
  | .heaterRegulation o j => Sys2Proof.Machine.execHeaterRegulation o j s
  | .refCalStart src o val => Sys2Proof.Machine.execRefCalStart src o val s
  | .refCalDone o range z f => Sys2Proof.Machine.execRefCalDone o range z f s
  | .registerWrite src off whole val => Sys2Proof.Machine.execRegisterWrite src off whole val s
  | .readClear src off whole => Sys2Proof.Machine.execReadClear src off whole s
  | .dmaCopy e => Sys2Proof.Machine.execDmaCopy e s
  | .dmaCopyDone e => Sys2Proof.Machine.execDmaCopyDone e s
  | .ctrRead e => Sys2Proof.Machine.execCtrRead e s
  | .regRead e => Sys2Proof.Machine.execRegRead e s
  | .regWrite e => Sys2Proof.Machine.execRegWrite e s
  | .regAccessArrive e => Sys2Proof.Machine.execRegAccessArrive e s
  | .imgHalt e => Sys2Proof.Machine.execImgHalt e s
  | .imgDrain e => Sys2Proof.Machine.execImgDrain e s
  | .imgDrainDone e => Sys2Proof.Machine.execImgDrainDone e s
  | .imgLoad e => Sys2Proof.Machine.execImgLoad e s
  | .imgLoadDone e => Sys2Proof.Machine.execImgLoadDone e s
  | .imgStart e => Sys2Proof.Machine.execImgStart e s
  | .imgState e => Sys2Proof.Machine.execImgState e s
  | .regionWrite src k which val => Sys2Proof.Machine.execRegionWrite src k which val s
  | .dramGrant c waiting => Sys2Proof.Machine.execDramGrant c waiting s
  | .refresh => Sys2Proof.Machine.execRefresh s
  | .mr4Read mult hot => Sys2Proof.Machine.execMr4Read mult hot s
  | .rewrite src val => Sys2Proof.Machine.execRewrite src val s
  | .rewriteDone => Sys2Proof.Machine.execRewriteDone s
  | .scrubRead space raced => Sys2Proof.Machine.execScrubRead space raced s
  | .eccTestAccess src val => Sys2Proof.Machine.execEccTestAccess src val s
  | .scrubLogPop src => Sys2Proof.Machine.execScrubLogPop src s
  | .sourceLevelChange n => Sys2Proof.Machine.execSourceLevelChange n s
  | .swpendWrite src w val => Sys2Proof.Machine.execSwpendWrite src w val s
  | .swclrWrite src w val => Sys2Proof.Machine.execSwclrWrite src w val s
  | .hostClaim => Sys2Proof.Machine.execHostClaim s
  | .hostEoi => Sys2Proof.Machine.execHostEoi s
  | .targetFlush src t val => Sys2Proof.Machine.execTargetFlush src t val s
  | .counterGroupClear src val => Sys2Proof.Machine.execCounterGroupClear src val s
  | .counterReadLatch src n => Sys2Proof.Machine.execCounterReadLatch src n s
  | .counterSnapshot src val => Sys2Proof.Machine.execCounterSnapshot src val s
  | .dumpEnable src val => Sys2Proof.Machine.execDumpEnable src val s
  | .dumpDisable src val => Sys2Proof.Machine.execDumpDisable src val s
  | .dumpLatch => Sys2Proof.Machine.execDumpLatch s
  | .dumpNow src val => Sys2Proof.Machine.execDumpNow src val s
  | .dumpRecordDone => Sys2Proof.Machine.execDumpRecordDone s
  | .profileRequest src val => Sys2Proof.Machine.execProfileRequest src val s
  | .polderRequest src val => Sys2Proof.Machine.execPolderRequest src val s
  | .polderEntry => Sys2Proof.Machine.execPolderEntry s
  | .drainEnd => Sys2Proof.Machine.execDrainEnd s
  | .drainTimeout => Sys2Proof.Machine.execDrainTimeout s
  | .polderExit => Sys2Proof.Machine.execPolderExit s
  | .entryAbandon => Sys2Proof.Machine.execEntryAbandon s
  | .dramIdleTimeout => Sys2Proof.Machine.execDramIdleTimeout s
  | .dramDemand => Sys2Proof.Machine.execDramDemand s
  | .dramWakeDone => Sys2Proof.Machine.execDramWakeDone s
  | .padRelease src dram val => Sys2Proof.Machine.execPadRelease src dram val s
  | .acctModeWrite src val => Sys2Proof.Machine.execAcctModeWrite src val s
  | .pwrChRequest e => Sys2Proof.Machine.execPwrChRequest e s
  | .pwrChPark e => Sys2Proof.Machine.execPwrChPark e s
  | .pwrChStatus e => Sys2Proof.Machine.execPwrChStatus e s
  | .pwrChRelease e => Sys2Proof.Machine.execPwrChRelease e s
  | .thmChRead e => Sys2Proof.Machine.execThmChRead e s
  | .thmChCap e => Sys2Proof.Machine.execThmChCap e s
  | .pfailAssert => Sys2Proof.Machine.execPfailAssert s
  | .autoGasp => Sys2Proof.Machine.execAutoGasp s
  | .autoNvRecord => Sys2Proof.Machine.execAutoNvRecord s
  | .pfailClear => Sys2Proof.Machine.execPfailClear s
  | .thermalScan r => Sys2Proof.Machine.execThermalScan r s
  | .sensorInclude src n val => Sys2Proof.Machine.execSensorInclude src n val s
  | .throttleStep p => Sys2Proof.Machine.execThrottleStep p s
  | .forcedStop p => Sys2Proof.Machine.execForcedStop p s
  | .forcedStopRun p => Sys2Proof.Machine.execForcedStopRun p s
  | .sentinelRead r0 r1 r2 r3 => Sys2Proof.Machine.execSentinelRead r0 r1 r2 r3 s
  | .lcToManufacture => Sys2Proof.Machine.execLcToManufacture s
  | .secRandom e => Sys2Proof.Machine.execSecRandom e s
  | .keyLoad e => Sys2Proof.Machine.execKeyLoad e s
  | .keyClear e => Sys2Proof.Machine.execKeyClear e s
  | .rrCheck e => Sys2Proof.Machine.execRrCheck e s
  | .lcAdvance e => Sys2Proof.Machine.execLcAdvance e s
  | .rollbackSet e => Sys2Proof.Machine.execRollbackSet e s
  | .fuseWrite e => Sys2Proof.Machine.execFuseWrite e s
  | .trngHealthFail => Sys2Proof.Machine.execTrngHealthFail s
  | .secretDestruction => Sys2Proof.Machine.execSecretDestruction s
  | .nvRead e => Sys2Proof.Machine.execNvRead e s
  | .nvWrite e => Sys2Proof.Machine.execNvWrite e s
  | .nvRecord e => Sys2Proof.Machine.execNvRecord e s
  | .nvDataLoRead src => Sys2Proof.Machine.execNvDataLoRead src s
  | .nvDataHiRead src => Sys2Proof.Machine.execNvDataHiRead src s
  | .nvDataHiWrite val => Sys2Proof.Machine.execNvDataHiWrite val s
  | .tapReset => Sys2Proof.Machine.execTapReset s
  | .extest pins shift => Sys2Proof.Machine.execExtest pins shift s
  | .samplePreload pins shift => Sys2Proof.Machine.execSamplePreload pins shift s
  | .idcode => Sys2Proof.Machine.execIdcode s
  | .bypass => Sys2Proof.Machine.execBypass s
  | .dbgChal => Sys2Proof.Machine.execDbgChal s
  | .dbgResp resp => Sys2Proof.Machine.execDbgResp resp s
  | .dbgRespChecked => Sys2Proof.Machine.execDbgRespChecked s
  | .dbgStatus => Sys2Proof.Machine.execDbgStatus s
  | .dbgLock b => Sys2Proof.Machine.execDbgLock b s
  | .dbgHold mask => Sys2Proof.Machine.execDbgHold mask s
  | .dbgNop => Sys2Proof.Machine.execDbgNop s
  | .dbgRegRead addr => Sys2Proof.Machine.execDbgRegRead addr s
  | .dbgRegWrite addr data => Sys2Proof.Machine.execDbgRegWrite addr data s
  | .dbgEngHalt sel => Sys2Proof.Machine.execDbgEngHalt sel s
  | .dbgEngResume sel => Sys2Proof.Machine.execDbgEngResume sel s
  | .dbgEngStep sel => Sys2Proof.Machine.execDbgEngStep sel s
  | .dbgEngRegRead sel addr => Sys2Proof.Machine.execDbgEngRegRead sel addr s
  | .dbgEngRegWrite sel addr data => Sys2Proof.Machine.execDbgEngRegWrite sel addr data s
  | .dbgStoreRead sel addr => Sys2Proof.Machine.execDbgStoreRead sel addr s
  | .dbgStoreWrite sel addr data => Sys2Proof.Machine.execDbgStoreWrite sel addr data s
  | .dbgFuseStage addr data => Sys2Proof.Machine.execDbgFuseStage addr data s
  | .dbgFuseWrite addr => Sys2Proof.Machine.execDbgFuseWrite addr s
  | .bistMem w => Sys2Proof.Machine.execBistMem w s
  | .bistLbist w => Sys2Proof.Machine.execBistLbist w s
  | .bistAnalog w => Sys2Proof.Machine.execBistAnalog w s
  | .bistAon w => Sys2Proof.Machine.execBistAon w s
  | .bistTestEnd t x => Sys2Proof.Machine.execBistTestEnd t x s
  | .bistStatus e => Sys2Proof.Machine.execBistStatus e s
  | .fuseRepairs e => Sys2Proof.Machine.execFuseRepairs e s
  | .bar2Access off op => Sys2Proof.Machine.execBar2Access off op s
  | .sqDoorbell src q val => Sys2Proof.Machine.execSqDoorbell src q val s
  | .cqHeadWrite src q val => Sys2Proof.Machine.execCqHeadWrite src q val s
  | .queueEnable src q val => Sys2Proof.Machine.execQueueEnable src q val s
  | .queueDisable src q val => Sys2Proof.Machine.execQueueDisable src q val s
  | .hostFrameDelivery q entry => Sys2Proof.Machine.execHostFrameDelivery q entry s
  | .hostFrameInject q entry fr => Sys2Proof.Machine.execHostFrameInject q entry fr s
  | .queueTimerExpiry q => Sys2Proof.Machine.execQueueTimerExpiry q s
  | .queueStop q => Sys2Proof.Machine.execQueueStop q s
  | .d3hotEntry => Sys2Proof.Machine.execD3hotEntry s
  | .d0Entry => Sys2Proof.Machine.execD0Entry s
  | .pmeResend => Sys2Proof.Machine.execPmeResend s
  | .errLogPop src => Sys2Proof.Machine.execErrLogPop src s
  | .coldReset => Sys2Proof.Machine.execColdReset s
  | .warmReset w => Sys2Proof.Machine.execWarmReset w s
  | .functionReset kind => Sys2Proof.Machine.execFunctionReset kind s
  | .polderReset src val => Sys2Proof.Machine.execPolderReset src val s
  | .polderResetDone => Sys2Proof.Machine.execPolderResetDone s
  | .healthyKick src val => Sys2Proof.Machine.execHealthyKick src val s
  | .healthyTimeout => Sys2Proof.Machine.execHealthyTimeout s
  | .bootRomStart fl bist => Sys2Proof.Machine.execBootRomStart fl bist s
  | .ddrTrainStart src val => Sys2Proof.Machine.execDdrTrainStart src val s
  | .ddrTrainDone fail mr8 => Sys2Proof.Machine.execDdrTrainDone fail mr8 s
  | .smbTempMax => Sys2Proof.Machine.execSmbTempMax s
  | .smbTempSent => Sys2Proof.Machine.execSmbTempSent s
  | .smbTempEngine => Sys2Proof.Machine.execSmbTempEngine s
  | .smbProfile => Sys2Proof.Machine.execSmbProfile s
  | .smbHealth => Sys2Proof.Machine.execSmbHealth s
  | .smbBootErr => Sys2Proof.Machine.execSmbBootErr s
  | .smbVcore => Sys2Proof.Machine.execSmbVcore s
  | .vcoreRequestChange mv => Sys2Proof.Machine.execVcoreRequestChange mv s
  | .pcieLinkUp speed width => Sys2Proof.Machine.execPcieLinkUp speed width s
  | .configurationRequest r => Sys2Proof.Machine.execConfigurationRequest r s
  | .trngOutputResume => Sys2Proof.Machine.execTrngOutputResume s
  | .dbgCommandComplete => Sys2Proof.Machine.execDbgCommandComplete s

end Sys2Proof.Machine
end

