-- ==== Sys2Proof/Machine/Tick.lean ====
section
/-! DEFINITION. What an E-cycle with no command does: the time base advances (R111), the clusters' CYCLE counters run (R196,
R315, R333), residency is counted (R327), and a held NV write follows the one in progress (R355). -/

namespace Sys2Proof.Machine

/-- R189, R333: CYCLE of cluster c counts: its polder lets it run (R189), and its clock is enabled, in STEP + 1 of every 16 E-cycles
(log 24); the always-on polder has no cap. -/
def Dev.clCounts (d : Dev) (c : Nat) : Bool :=
  d.clAwake (8 * c) && (clPolder c == 48 || decide (d.up % 16 ≤ d.step (clPolder c)))

/-- R196: one E-cycle of cluster c. -/
def Dev.tickCluster (d : Dev) (c : Nat) : Dev :=
  if d.clCounts c then d.onC c fun x => { x with cycle := x.cycle + 1 } else d

/-- R327: one E-cycle of residency of every polder, in residency mode. -/
def Dev.tickAcct (d : Dev) : Dev :=
  if d.on R.PWR_CFG.ACCT_MODE then d else (List.range 49).foldl Dev.acctTick d

/-- One E-cycle of the part. -/
def Dev.tick (d : Dev) : Dev :=
  let d := d.tickTime
  let d := (List.range 12).foldl Dev.tickCluster { d with up := d.up + 1 }
  d.tickAcct

/-- One E-cycle of the part and its NV store. -/
def tickV (d : Dev) (v : Vault) : Dev × Vault := nvResume d.tick v

end Sys2Proof.Machine
end

