-- ==== Sys2Proof/Safety.lean ====
section
/-! DEFINITION. The terms claims use: what a command completes with, when an engine can issue, and what stays lawful about the fuses. -/

namespace Sys2Proof.Machine

/-- A command completes in s with a next state that satisfies p, and the queue waits on. -/
def Gives (c : Instr) (s : State) (p : State → Prop) : Prop := ∃ t, exec c s = .next t ∧ t.pending = s.pending ∧ p t

/-- A command completes in s, changes the part to d and leaves fuses, NV store and queue as they were. -/
def Makes (c : Instr) (s : State) (d : Dev) : Prop := exec c s = .next { s with dev := d }

/-- Engine e can issue the instruction at its pc: it is RUNNING in a cluster that lets it run, no WATCHDOG or INTERRUPT is due, its pc lies in
the instruction store and the word fetched there is clean (R188, R189, R194, R195, R211). -/
def Dev.canIssue (d : Dev) (e : Nat) : Prop :=
  (d.e e).st = .running ∧ d.clAwake e = true ∧ d.entryDue e = none ∧ (d.e e).pc.toNat ≤ 0xFFFC ∧
    d.locS.syndrome (Space.loc.word (e / 8) (e % 8) ((d.e e).pc.toNat / 8)) = 0

/-- Engine x after an instruction that issued in E-cycle i, took n E-cycles, changed its record to y and went on at pc. -/
def EngSt.done (x y : EngSt) (i n : Nat) (pc : Word) : EngSt := { y with pc := pc, ready := i + n, lastPc := x.pc }

/-- The command c is an instruction of engine e that takes n E-cycles, writes v of the engine to general register gd and goes on at the next
word; of the whole machine it changes engine e alone. -/
def Computes (c : Instr) (e gd n : Nat) (v : EngSt → DWord) : Prop :=
  ∀ s : State, s.dev.canIssue e →
    Makes c s (s.dev.setE e ((s.dev.e e).done ((s.dev.e e).w gd (v (s.dev.e e))) (s.dev.issueAt e) n ((s.dev.e e).pc + 4)))

/-- The store and the first byte of address a of engine e's map (R190): the local stores follow one another by 256 KiB, the shared stores by
4 MiB. -/
def cellOf (e : Nat) (a : DWord) : Space × Nat :=
  if regionOf a = .shared then (.shared, 4194304 * (e / 8) + (a.toNat - 0x10000000)) else (.loc, 262144 * e + a.toNat)

/-- R190, R191, R196: an access of n bytes at a is inside the map, aligned, and in task mode inside the task's window. -/
def Permitted (x : EngSt) (a : DWord) (n : Nat) : Prop :=
  a.toNat % n = 0 ∧
  match regionOf a with
  | .text => x.task = false
  | .data => x.task = true → x.winLBase * 4096 ≤ a.toNat ∧ a.toNat < x.winLLimit * 4096
  | .shared => x.task = true → x.winSBase * 4096 ≤ a.toNat - 0x10000000 ∧ a.toNat - 0x10000000 < x.winSLimit * 4096
  | .outside => False

/-- The word that holds address a of engine e is clean. -/
def Dev.cleanAt (d : Dev) (e : Nat) (a : DWord) : Prop := (d.store (cellOf e a).1).syndrome ((cellOf e a).2 / 8) = 0

/-- The n bytes at address a of engine e, least significant first, as a number (R191). -/
def Dev.memAt (d : Dev) (e n : Nat) (a : DWord) : Nat := leNat ((d.store (cellOf e a).1).bytes (cellOf e a).2 n)

/-- The store t is s with the n low bytes of v written at address a of engine e, the word clean, and nothing else changed. -/
def StoredAt (s t : Store) (e n : Nat) (a : DWord) (v : Nat) : Prop :=
  (∀ i, i < n → t.byte ((cellOf e a).2 + i) = BitVec.ofNat 8 (v / 256 ^ i)) ∧
  (∀ b, b < (cellOf e a).2 ∨ (cellOf e a).2 + n ≤ b → t.byte b = s.byte b) ∧
  ∀ w, t.syndrome w = if w = (cellOf e a).2 / 8 then 0 else s.syndrome w

/-- R192: when the next instruction issues after an access by engine e at a that issued in E-cycle i: n E-cycles later in the local store; 14
after the engine's next slot in the shared store. -/
def accessEnd (e i n : Nat) (a : DWord) : Nat :=
  if regionOf a = .shared then i + (e % 8 + 8 - i % 8) % 8 + 14 else i + n

/-- R212: engine x after the entry into exception vec with detail det: EPC is epc, EVAL is ev, and the entry starts in E-cycle start. -/
def EngSt.entered (x : EngSt) (vec det : Nat) (epc ev : DWord) (start : Nat) : EngSt :=
  { x with st := .running, wait := none, estatus := x.status, epc := epc, vec := vec, det := det, eval := ev, exl := true, ie := false,
           task := false, pc := x.vbase + BitVec.ofNat 32 (64 * vec), ready := start + 6, lastVec := vec, lastDet := det, lastEval := ev }

/-- R210 to R212: of the part, an exception of engine e changes that engine and its cluster's exception counter, and nothing else. -/
def Dev.entry (d : Dev) (e : Nat) (y : EngSt) : Dev := (d.bump (Ctr.cluster (e / 8) 8)).setE e y

/-- From d to d' registers of the list l change, and nothing else of the part. -/
def RegsOnly (d d' : Dev) (l : List Nat) : Prop := d' = { d with regs := d'.regs } ∧ ∀ a, a ∉ l → d'.reg a = d.reg a

/-- From d to d' registers of the list l and the records of lanes and engines change (a notice goes to an engine), and nothing else. -/
def LanesOnly (d d' : Dev) (l : List Nat) : Prop :=
  d' = { d with regs := d'.regs, lane := d'.lane, eng := d'.eng } ∧ ∀ a, a ∉ l → d'.reg a = d.reg a

/-- From d to d' registers of the list l and the records of lanes, octets and engines change, and nothing else. -/
def OctetOnly (d d' : Dev) (l : List Nat) : Prop :=
  d' = { d with regs := d'.regs, lane := d'.lane, oct := d'.oct, eng := d'.eng } ∧ ∀ a, a ∉ l → d'.reg a = d.reg a

/-- The notice of event code i on channel k of octet o as it reaches its reader, when neither a loss is owed nor the queue is full: a warden that
holds the channel, else the keeper (R214, R222). -/
def Notified (d d' : Dev) (o k code i : Nat) : Prop :=
  let e := match d.holder o k with | some w => 88 + w | none => 56 + o
  let ch := match d.holder o k with | some _ => 0x100 + 8 * o + k | none => 0x20 + k
  ((d.e e).notices.filter (·.chan == ch)).length < 32 → (d.e e).lost = [] →
    (d'.e e).notices = (d.e e).notices ++ [{ chan := ch, word := BitVec.ofNat 64 (256 * code + i) }]

/-- Engine e's oldest unserved request on channel ch with command cmd has operand op, and its target can serve it (R215, R218). -/
def Dev.Asks (d : Dev) (e ch cmd op : Nat) : Prop := ∃ r, d.req e ch cmd .sent = some r ∧ d.refusal r = none ∧ r.op.toNat = op

/-- From d to d' the oldest request of engine e on channel ch with command cmd in phase ph has been answered with status st and result v, and the engine's
other requests are as they were (R217). -/
def Answered (d d' : Dev) (e ch cmd : Nat) (ph : Phase) (st v : Nat) : Prop :=
  (d'.e e).reqs = modifyFirst (fun r => r.chan == ch && r.cmd == cmd && r.phase == ph)
    (fun r => { r with phase := .answered, rep := BitVec.ofNat 64 (st * 2 ^ 60 + v % 2 ^ 60) }) (d.e e).reqs

/-- The command c serves engine e's request on channel ch with command cmd and operand op: it is answered with status st and result v, and the part
satisfies p. -/
def Serves (c : Instr) (s : State) (e ch cmd op st v : Nat) (p : Dev → Prop) : Prop :=
  s.dev.Asks e ch cmd op → Gives c s fun t => Answered s.dev t.dev e ch cmd .sent st v ∧ p t.dev

/-- Every word of a protected store is clean (R283). -/
def Dev.clean (d : Dev) (sp : Space) : Prop := ∀ w, (d.store sp).syndrome w = 0

/-- The n words of the argument block that operand op of engine e names (R219). -/
def Dev.block (d : Dev) (e op n : Nat) : List Byte := (d.hubRead (e / 8) (opOffset op) n).1

/-- R353, R354: from v to w a record of a TYPE with its DATA has been written to the slot of an area (0 the life-cycle log, 1 the event records)
after the one with its highest SEQ, and every other record is as it was. -/
def Recorded (v w : Vault) (area type : Nat) (data : List Byte) : Prop :=
  let k := 64 * area + (v.newest area).elim 0 (fun b => (b.1 + 1) % 64)
  blk (w.slot k) 0 4 = type ∧ blk (w.slot k) 4 4 = (v.seq + 1) % 2 ^ 32 ∧ blk (w.slot k) 60 4 = fcsOf ((w.slot k).take 60) ∧
    ((w.slot k).drop 16).take data.length = data ∧ ∀ i, i < 128 → i ≠ k → w.slot i = v.slot i

/-- A jump target that raises no exception (R195). -/
abbrev GoodPc (t : DWord) : Prop := t.toNat % 4 = 0 ∧ t.toNat ≤ 0xFFFC

/-- R341: the transitions of the life cycle. -/
def lifeEdge : Nat → Nat → Prop
  | 0, n => n = 1
  | 1, n => n = 2 ∨ n = 5
  | 2, n => n = 3 ∨ n = 4 ∨ n = 5
  | 3, n => n = 4 ∨ n = 5
  | 4, n => n = 5
  | _, _ => False

/-- What is always so of the fuses and the NV store (R340 to R345, R350): a state that exists, a pending transition the life cycle has, at
most 64 rollback counts, a POLICY with no reserved value, revocations of slots that exist, and a canonical NV store. -/
structure Vault.Lawful (v : Vault) : Prop where
  life : v.life ≤ 5
  next : ∀ n, v.next = some n → lifeEdge v.life n
  rollback : v.rollback ≤ 64
  policy : v.pol < 32 ∧ getBits v.pol 3 1 ≤ 3
  slots : ∀ k, k ∈ v.revoked → k ≤ 10
  nv : v.nv.wf = true

/-- What fuses that have been blown keep: w comes after v (R344). -/
structure Vault.After (w v : Vault) : Prop where
  key : ∀ k h, v.key k = some h → w.key k = some h
  revoked : ∀ k, k ∈ v.revoked → k ∈ w.revoked
  serial : ∀ n, v.serial = some n → w.serial = some n
  policy : ∀ p, v.policy = some p → w.policy = some p
  rollback : v.rollback ≤ w.rollback
  life : v.life ≤ w.life
  dead : v.oikDead = true → w.oikDead = true

end Sys2Proof.Machine
end

