-- ==== Sys2Proof/Certificates/Slice0/Obligations.lean ====
section
/-! DEFINITION. The statements for the provers. -/

open Sys2Proof Sys2Proof.Machine

/-! The queue and the whole machine. -/

/-- Every step with a command in front runs that command with the rest of the queue waiting; with none in front one E-cycle passes
(the model's own choice, log 25). -/
def Obligations.StepTakesFront : Prop :=
  (∀ (c : Instr) (s : State) (rest : List Instr), step { s with pending := c :: rest } = exec c { s with pending := rest }) ∧
  ∀ s : State, s.pending = [] → ∃ t, step s = .next t ∧ t.pending = [] ∧ t.dev.up = s.dev.up + 1

/-- No command stops the machine, and none touches the queue. -/
def Obligations.CommandsKeepQueue : Prop := ∀ (c : Instr) (s : State), Gives c s fun _ => True

/-! Engine instructions that write one register (R195, R197 to R204). -/

/-- R195, R200: the register ALU, one E-cycle each: the destination's value, pc on to the next word, and nothing else of the machine. R200: clz, ctz and popc, by the bits of the operand: every leading (trailing) bit counted is 0 and the next is 1; the ones are counted. R201: the immediates and shifts by an immediate, one E-cycle each. R201: the bit-field instructions, bit by bit: a field of LEN bits at POS is cut at bit 63; ext fills with 0, exts with the last bit taken,
ins and insh keep the bits outside the field. R202: the multiplies, three E-cycles each: the low or the high 64 bits of the exact product. -/
def Obligations.AluResult : Prop :=
  (∀ (e : EngId) (gd ga gb : GReg),
    Computes (.add e gd ga gb) e gd 1 (fun x => x.r ga + x.r gb) ∧
    Computes (.sub e gd ga gb) e gd 1 (fun x => x.r ga - x.r gb) ∧
    Computes (.and e gd ga gb) e gd 1 (fun x => x.r ga &&& x.r gb) ∧
    Computes (.or e gd ga gb) e gd 1 (fun x => x.r ga ||| x.r gb) ∧
    Computes (.xor e gd ga gb) e gd 1 (fun x => x.r ga ^^^ x.r gb) ∧
    Computes (.nor e gd ga gb) e gd 1 (fun x => ~~~(x.r ga ||| x.r gb)) ∧
    Computes (.andn e gd ga gb) e gd 1 (fun x => x.r ga &&& ~~~(x.r gb)) ∧
    Computes (.seq e gd ga gb) e gd 1 (fun x => if x.r ga = x.r gb then 1 else 0) ∧
    Computes (.sne e gd ga gb) e gd 1 (fun x => if x.r ga = x.r gb then 0 else 1) ∧
    Computes (.slt e gd ga gb) e gd 1 (fun x => if (x.r ga).toInt < (x.r gb).toInt then 1 else 0) ∧
    Computes (.sltu e gd ga gb) e gd 1 (fun x => if (x.r ga).toNat < (x.r gb).toNat then 1 else 0) ∧
    Computes (.sle e gd ga gb) e gd 1 (fun x => if (x.r ga).toInt ≤ (x.r gb).toInt then 1 else 0) ∧
    Computes (.sleu e gd ga gb) e gd 1 (fun x => if (x.r ga).toNat ≤ (x.r gb).toNat then 1 else 0) ∧
    Computes (.sll e gd ga gb) e gd 1 (fun x => BitVec.ofNat 64 ((x.r ga).toNat * 2 ^ ((x.r gb).toNat % 64))) ∧
    Computes (.srl e gd ga gb) e gd 1 (fun x => BitVec.ofNat 64 ((x.r ga).toNat / 2 ^ ((x.r gb).toNat % 64))) ∧
    Computes (.sra e gd ga gb) e gd 1 (fun x => BitVec.ofInt 64 ((x.r ga).toInt / 2 ^ ((x.r gb).toNat % 64))) ∧
    Computes (.rol e gd ga gb) e gd 1 (fun x => x.r ga <<< ((x.r gb).toNat % 64) ||| x.r ga >>> (64 - (x.r gb).toNat % 64))) ∧
  (∀ (e : EngId) (gd ga : GReg),
    (∃ f : DWord → Nat, Computes (.clz e gd ga) e gd 1 (fun x => BitVec.ofNat 64 (f (x.r ga))) ∧
      ∀ v, f v ≤ 64 ∧ (∀ i, i < f v → v.getLsbD (63 - i) = false) ∧ (f v < 64 → v.getLsbD (63 - f v) = true)) ∧
    (∃ f : DWord → Nat, Computes (.ctz e gd ga) e gd 1 (fun x => BitVec.ofNat 64 (f (x.r ga))) ∧
      ∀ v, f v ≤ 64 ∧ (∀ i, i < f v → v.getLsbD i = false) ∧ (f v < 64 → v.getLsbD (f v) = true)) ∧
    Computes (.popc e gd ga) e gd 1 (fun x => BitVec.ofNat 64 ((List.range 64).countP (fun i => (x.r ga).getLsbD i)))) ∧
  (∀ (e : EngId) (gd ga : GReg) (imm : BitVec 16) (sh : Fin 64),
    Computes (.addi e gd ga imm) e gd 1 (fun x => x.r ga + imm.signExtend 64) ∧
    Computes (.andi e gd ga imm) e gd 1 (fun x => x.r ga &&& imm.zeroExtend 64) ∧
    Computes (.ori e gd ga imm) e gd 1 (fun x => x.r ga ||| imm.zeroExtend 64) ∧
    Computes (.xori e gd ga imm) e gd 1 (fun x => x.r ga ^^^ imm.zeroExtend 64) ∧
    Computes (.slti e gd ga imm) e gd 1 (fun x => if (x.r ga).toInt < imm.toInt then 1 else 0) ∧
    Computes (.sltiu e gd ga imm) e gd 1 (fun x => if (x.r ga).toNat < (imm.signExtend 64).toNat then 1 else 0) ∧
    Computes (.seqi e gd ga imm) e gd 1 (fun x => if x.r ga = imm.signExtend 64 then 1 else 0) ∧
    Computes (.slli e gd ga sh) e gd 1 (fun x => BitVec.ofNat 64 ((x.r ga).toNat * 2 ^ sh.val)) ∧
    Computes (.srli e gd ga sh) e gd 1 (fun x => BitVec.ofNat 64 ((x.r ga).toNat / 2 ^ sh.val)) ∧
    Computes (.srai e gd ga sh) e gd 1 (fun x => BitVec.ofInt 64 ((x.r ga).toInt / 2 ^ sh.val))) ∧
  (∀ (e : EngId) (gd ga : GReg) (pos lenM1 : Fin 64) (imm : BitVec 16),
    let last : Nat := min (pos.val + lenM1.val) 63
    (∃ f : DWord → DWord, Computes (.extF e gd ga pos lenM1) e gd 1 (fun x => f (x.r ga)) ∧
      ∀ v i, i < 64 → (f v).getLsbD i = (decide (pos.val + i ≤ last) && v.getLsbD (pos.val + i))) ∧
    (∃ f : DWord → DWord, Computes (.extsF e gd ga pos lenM1) e gd 1 (fun x => f (x.r ga)) ∧
      ∀ v i, i < 64 → (f v).getLsbD i = v.getLsbD (min (pos.val + i) last)) ∧
    (∃ f : DWord → DWord → DWord, Computes (.insF e gd ga pos lenM1) e gd 1 (fun x => f (x.r gd) (x.r ga)) ∧
      ∀ g v i, i < 64 → (f g v).getLsbD i = if pos.val ≤ i ∧ i ≤ last then v.getLsbD (i - pos.val) else g.getLsbD i) ∧
    ∃ f : Nat → DWord → DWord,
      Computes (.insh1 e gd ga imm) e gd 1 (fun x => f 1 (x.r ga)) ∧
      Computes (.insh2 e gd ga imm) e gd 1 (fun x => f 2 (x.r ga)) ∧
      Computes (.insh3 e gd ga imm) e gd 1 (fun x => f 3 (x.r ga)) ∧
      ∀ k v i, 1 ≤ k → k ≤ 3 → i < 64 →
        (f k v).getLsbD i = if 16 * k ≤ i ∧ i < 16 * k + 16 then imm.getLsbD (i - 16 * k) else v.getLsbD i) ∧
  (∀ (e : EngId) (gd ga gb : GReg),
    Computes (.mul e gd ga gb) e gd 3 (fun x => BitVec.ofNat 64 ((x.r ga).toNat * (x.r gb).toNat)) ∧
    Computes (.mulhs e gd ga gb) e gd 3 (fun x => BitVec.ofInt 64 ((x.r ga).toInt * (x.r gb).toInt / 2 ^ 64)) ∧
    Computes (.mulhu e gd ga gb) e gd 3 (fun x => BitVec.ofNat 64 ((x.r ga).toNat * (x.r gb).toNat / 2 ^ 64)) ∧
    Computes (.mulhsu e gd ga gb) e gd 3 (fun x => BitVec.ofInt 64 ((x.r ga).toInt * ((x.r gb).toNat : Int) / 2 ^ 64)))

/-- R203: the byte-lane instructions, lane by lane: a lane whose mask bit is 0 keeps its value, any other takes f of the lanes of a, b and d. R203 sadb and R204: the sum of differences, and the pair products into 16-bit lanes: a 16-bit lane whose two mask bits are 0 keeps its
value, any other takes f of its value and P. -/
def Obligations.ByteLanes : Prop :=
  (∀ (e : EngId) (gd ga gb : GReg) (mask : BitVec 8),
    let Lanes (c : Instr) (f : (a b d : Nat) → Int) : Prop :=
      ∃ g : (a b d : DWord) → DWord, Computes c e gd 1 (fun x => g (x.r ga) (x.r gb) (x.r gd)) ∧
        ∀ a b d i, i < 8 → (laneU (g a b d) i : Int) =
          if mask.getLsbD i then f (laneU a i) (laneU b i) (laneU d i) % 256 else (laneU d i : Int)
    let sg (n : Nat) : Int := if n < 128 then n else (n : Int) - 256
    Lanes (.addb e gd ga gb mask) (fun a b _ => a + b) ∧
    Lanes (.subb e gd ga gb mask) (fun a b _ => (a : Int) - b) ∧
    Lanes (.addbs e gd ga gb mask) (fun a b _ => max (-128) (min 127 (sg a + sg b))) ∧
    Lanes (.subbs e gd ga gb mask) (fun a b _ => max (-128) (min 127 (sg a - sg b))) ∧
    Lanes (.addbu e gd ga gb mask) (fun a b _ => min 255 (a + b)) ∧
    Lanes (.subbu e gd ga gb mask) (fun a b _ => max 0 ((a : Int) - b)) ∧
    Lanes (.avgbu e gd ga gb mask) (fun a b _ => (a + b + 1) / 2) ∧
    Lanes (.absdb e gd ga gb mask) (fun a b _ => max ((a : Int) - b) ((b : Int) - a)) ∧
    Lanes (.minbu e gd ga gb mask) (fun a b _ => min a b) ∧
    Lanes (.maxbu e gd ga gb mask) (fun a b _ => max a b) ∧
    Lanes (.minbs e gd ga gb mask) (fun a b _ => min (sg a) (sg b)) ∧
    Lanes (.maxbs e gd ga gb mask) (fun a b _ => max (sg a) (sg b)) ∧
    Lanes (.ceqb e gd ga gb mask) (fun a b _ => if a = b then 255 else 0) ∧
    Lanes (.cgtbu e gd ga gb mask) (fun a b _ => if b < a then 255 else 0) ∧
    Lanes (.selb e gd ga gb mask) (fun a b d => ((b &&& a) ||| (d &&& (255 - a)) : Nat))) ∧
  (∀ (e : EngId) (gd ga gb : GReg) (mask : BitVec 8),
    Computes (.sadb e gd ga gb mask) e gd 1 (fun x => x.r gd + BitVec.ofNat 64
      (((List.range 8).map fun i => if mask.getLsbD i then ((laneU (x.r ga) i : Int) - laneU (x.r gb) i).natAbs else 0).sum)) ∧
    let sg (n : Nat) : Int := if n < 128 then n else (n : Int) - 256
    let sh (n : Nat) : Int := if n < 32768 then n else (n : Int) - 65536
    let pair (ra rb : Nat → Int) (a b : DWord) (j : Nat) : Int :=
      (if mask.getLsbD (2 * j) then ra (laneU a (2 * j)) * rb (laneU b (2 * j)) else 0)
        + if mask.getLsbD (2 * j + 1) then ra (laneU a (2 * j + 1)) * rb (laneU b (2 * j + 1)) else 0
    let half (v : DWord) (j : Nat) : Nat := v.toNat / 2 ^ (16 * j) % 65536
    let Pairs (c : Instr) (ra rb : Nat → Int) (f : (h p : Int) → Int) : Prop :=
      ∃ g : (a b d : DWord) → DWord, Computes c e gd 2 (fun x => g (x.r ga) (x.r gb) (x.r gd)) ∧
        ∀ a b d j, j < 4 → (half (g a b d) j : Int) =
          if mask.getLsbD (2 * j) = true ∨ mask.getLsbD (2 * j + 1) = true then f (sh (half d j)) (pair ra rb a b j) % 65536 else (half d j : Int)
    let un (n : Nat) : Int := n
    Pairs (.macuu e gd ga gb mask) un un (fun h p => h + p) ∧
    Pairs (.macss e gd ga gb mask) sg sg (fun h p => h + p) ∧
    Pairs (.macsu e gd ga gb mask) sg un (fun h p => h + p) ∧
    Pairs (.macsss e gd ga gb mask) sg sg (fun h p => max (-32768) (min 32767 (h + p))) ∧
    Pairs (.mulpuu e gd ga gb mask) un un (fun _ p => p) ∧
    Pairs (.mulpss e gd ga gb mask) sg sg (fun _ p => p))

/-! Engine loads, stores and atomics (R190 to R194, R205, R206). -/

/-- R191, R192, R205: a permitted load of a clean word writes gd with the bytes at the address, extended; nothing is stored, and of the whole
machine engine e alone changes. -/
def Obligations.LoadResult : Prop :=
  ∀ (e : EngId) (gd ga : GReg) (imm : BitVec 16),
    let Loads (c : Instr) (n : Nat) (f : Nat → DWord) : Prop :=
      ∀ s : State, s.dev.canIssue e →
        let x := s.dev.e e
        let a := x.r ga + imm.signExtend 64
        Permitted x a n → s.dev.cleanAt e a →
          Makes c s (s.dev.setE e { x.w gd (f (s.dev.memAt e n a)) with
            pc := x.pc + 4, ready := accessEnd e (s.dev.issueAt e) 2 a, lastPc := x.pc })
    Loads (.ldB e gd ga imm) 1 (fun v => (BitVec.ofNat 8 v).signExtend 64) ∧
    Loads (.ldBu e gd ga imm) 1 (fun v => BitVec.ofNat 64 v) ∧
    Loads (.ldH e gd ga imm) 2 (fun v => (BitVec.ofNat 16 v).signExtend 64) ∧
    Loads (.ldHu e gd ga imm) 2 (fun v => BitVec.ofNat 64 v) ∧
    Loads (.ldW e gd ga imm) 4 (fun v => (BitVec.ofNat 32 v).signExtend 64) ∧
    Loads (.ldWu e gd ga imm) 4 (fun v => BitVec.ofNat 64 v) ∧
    Loads (.ldD e gd ga imm) 8 (fun v => BitVec.ofNat 64 v)

/-- R191, R192, R205: a permitted store writes the low bytes of gd at the address, and no other byte, register or field but pc and the time of
the next instruction; the bytes stored to are those from ga + sext(imm) on. -/
def Obligations.StoreResult : Prop :=
  ∀ (e : EngId) (gd ga : GReg) (imm : BitVec 16),
    let Stores (c : Instr) (n : Nat) : Prop :=
      ∀ s : State, s.dev.canIssue e →
        let x := s.dev.e e
        let a := x.r ga + imm.signExtend 64
        Permitted x a n → (n < 8 → s.dev.cleanAt e a) →
          ∃ t : Store, StoredAt (s.dev.store (cellOf e a).1) t e n a (x.r gd).toNat ∧
            Makes c s ((s.dev.setStore (cellOf e a).1 t).setE e { x with
              pc := x.pc + 4, ready := accessEnd e (s.dev.issueAt e) 1 a, lastPc := x.pc })
    Stores (.stB e gd ga imm) 1 ∧ Stores (.stH e gd ga imm) 2 ∧ Stores (.stW e gd ga imm) 4 ∧ Stores (.stD e gd ga imm) 8

/-- R192, R206: a permitted atomic on a clean word of the shared store: gd takes the old value, zero-extended, and memory the new one, in 8 or 4
bytes; acas stores only where the old value equals gd. -/
def Obligations.AtomicResult : Prop :=
  ∀ (e : EngId) (gd ga gb : GReg) (w32 : Bool),
    let n := if w32 then 4 else 8
    let Atomic (c : Instr) (f : (old g d : Nat) → Option Nat) : Prop :=
      ∀ s : State, s.dev.canIssue e →
        let x := s.dev.e e
        let a := x.r ga
        let old := s.dev.memAt e n a
        let y : EngSt := { x.w gd (BitVec.ofNat 64 old) with
          pc := x.pc + 4, ready := accessEnd e (s.dev.issueAt e) 0 a, lastPc := x.pc }
        Permitted x a n → regionOf a = .shared → s.dev.cleanAt e a →
          match f old ((x.r gb).toNat % 256 ^ n) ((x.r gd).toNat % 256 ^ n) with
          | some v => ∃ t : Store, StoredAt s.dev.sharedS t e n a v ∧ Makes c s ((s.dev.setStore .shared t).setE e y)
          | none => Makes c s (s.dev.setE e y)
    Atomic (.aadd e gd ga gb w32) (fun old g _ => some (old + g)) ∧
    Atomic (.aswap e gd ga gb w32) (fun _ g _ => some g) ∧
    Atomic (.aand e gd ga gb w32) (fun old g _ => some (old &&& g)) ∧
    Atomic (.aor e gd ga gb w32) (fun old g _ => some (old ||| g)) ∧
    Atomic (.axor e gd ga gb w32) (fun old g _ => some (old ^^^ g)) ∧
    Atomic (.acas e gd ga gb w32) (fun old g d => if old = d then some g else none)

/-- R190, R191, R196, R210: in task mode a load or store outside the task's window, and in any mode one outside the map or
misaligned, takes PRIVILEGE or ADDRESS: with EXL = 0 the part changes in the entry alone, so no store and no general register changes. -/
def Obligations.AccessTrap : Prop :=
  ∀ (e : EngId) (gd ga : GReg) (imm : BitVec 16) (s : State), s.dev.canIssue e →
    let x := s.dev.e e
    let a := x.r ga + imm.signExtend 64
    x.exl = false →
      let Traps (vec det : Nat) (ev : DWord) (n : Nat) : Prop :=
        let d := s.dev.entry e ({ x with lastPc := x.pc }.entered vec det (x.pc.setWidth 64) ev (s.dev.issueAt e))
        (n = 1 → Makes (.ldB e gd ga imm) s d ∧ Makes (.ldBu e gd ga imm) s d ∧ Makes (.stB e gd ga imm) s d) ∧
        (n = 2 → Makes (.ldH e gd ga imm) s d ∧ Makes (.ldHu e gd ga imm) s d ∧ Makes (.stH e gd ga imm) s d) ∧
        (n = 4 → Makes (.ldW e gd ga imm) s d ∧ Makes (.ldWu e gd ga imm) s d ∧ Makes (.stW e gd ga imm) s d) ∧
        (n = 8 → Makes (.ldD e gd ga imm) s d ∧ Makes (.stD e gd ga imm) s d)
      ∀ n, (x.task = true → a.toNat < 0x10000 → Traps 2 1 0 n) ∧
        (x.task = true → 0x10000 ≤ a.toNat → a.toNat < 0x40000 →
          (a.toNat < x.winLBase * 4096 ∨ x.winLLimit * 4096 ≤ a.toNat) → Traps 2 2 a n) ∧
        (x.task = true → 0x10000000 ≤ a.toNat → a.toNat < 0x10400000 →
          (a.toNat - 0x10000000 < x.winSBase * 4096 ∨ x.winSLimit * 4096 ≤ a.toNat - 0x10000000) → Traps 2 3 a n) ∧
        (0x40000 ≤ a.toNat → (a.toNat < 0x10000000 ∨ 0x10400000 ≤ a.toNat) → Traps 6 1 a n) ∧
        (x.task = false → a.toNat % n ≠ 0 → (a.toNat < 0x40000 ∨ (0x10000000 ≤ a.toNat ∧ a.toNat < 0x10400000)) → Traps 6 2 a n)

/-! Control flow and the system instructions (R195, R207, R208, R210 to R212). -/

/-- R195, R207: a jump to a good target goes there in three E-cycles, a branch not taken goes on in one; jal and jalr write the address of the
next word, jalr after it has read its target. A jump or taken branch to a bad target takes ADDRESS with DETAIL 4 at the jump and EVAL the target. -/
def Obligations.JumpResult : Prop :=
  ∀ (e : EngId) (ga gd : GReg) (imm : BitVec 16) (off : BitVec 26) (s : State), s.dev.canIssue e →
    let x := s.dev.e e
    let i := s.dev.issueAt e
    let rel (k : DWord) : DWord := x.pc.setWidth 64 + 4 * k
    let link : DWord := (x.pc + 4).setWidth 64
    let Goes (c : Instr) (t : DWord) (y : EngSt) : Prop :=
      (GoodPc t → Makes c s (s.dev.setE e (x.done y i 3 (t.setWidth 32)))) ∧
      (¬ GoodPc t → x.exl = false →
        Makes c s (s.dev.entry e ({ x with lastPc := x.pc }.entered 6 4 (x.pc.setWidth 64) t i)))
    let Falls (c : Instr) : Prop := Makes c s (s.dev.setE e (x.done x i 1 (x.pc + 4)))
    Goes (.j e off) (rel (off.signExtend 64)) x ∧
    Goes (.jal e off) (rel (off.signExtend 64)) (x.w 31 link) ∧
    Goes (.jr e ga) (x.r ga) x ∧
    Goes (.jalr e gd ga) (x.r ga) (x.w gd link) ∧
    (x.r ga = 0 → Goes (.bz e ga imm) (rel (imm.signExtend 64)) x ∧ Falls (.bnz e ga imm)) ∧
    (x.r ga ≠ 0 → Goes (.bnz e ga imm) (rel (imm.signExtend 64)) x ∧ Falls (.bz e ga imm))

/-- R208, R210 to R212: trap, eret and halt in system mode; trap's entry starts one E-cycle after its issue, and in a handler it sends the engine to
FAULT, as does an eret whose EPC is no good target; with EXL = 0 that eret takes ADDRESS. In task mode eret and halt take PRIVILEGE with DETAIL 1. R196, R208: every system register. mfsy of one that exists and that the mode may read writes gd with its value, in one E-cycle, CLAIM claims in
four (what a claim does, Interrupts states of the host's); mtsy of one the mode may write writes it clamped, and a read-only one not at all; EOI ends an
interrupt. A number that does not exist, or that only a warden has, takes ILLEGAL, and a task's access to a register of the system PRIVILEGE with
DETAIL 4. -/
def Obligations.SystemResult : Prop :=
  (∀ (e : EngId) (code : Fin 32) (s : State), s.dev.canIssue e →
    let x := s.dev.e e
    let i := s.dev.issueAt e
    let z : EngSt := { x with lastPc := x.pc }
    let Faults (c : Instr) (vec det : Nat) : Prop := Gives c s fun t =>
      (t.dev.e e).st = .fault ∧ (t.dev.e e).lastVec = vec ∧ (t.dev.e e).lastDet = det ∧ (t.dev.e e).g = x.g ∧ (t.dev.e e).pc = x.pc
    (x.exl = false → Makes (.trap e code) s (s.dev.entry e (z.entered 8 code (x.pc.setWidth 64 + 4) 0 (i + 1)))) ∧
    (x.exl = true → Faults (.trap e code) 8 code) ∧
    (x.task = false → ¬ GoodPc x.epc → x.exl = false →
      Makes (.eret e) s (s.dev.entry e (z.entered 6 4 (x.pc.setWidth 64) x.epc i))) ∧
    (x.task = false → ¬ GoodPc x.epc → x.exl = true → Faults (.eret e) 6 4) ∧
    (x.task = false → GoodPc x.epc →
      Makes (.eret e) s (s.dev.setE e (x.done { x with exl := x.estatus.getLsbD 2, ie := x.estatus.getLsbD 1, task := x.estatus.getLsbD 0 }
        i 3 (x.epc.setWidth 32)))) ∧
    (x.task = false → Gives (.halt e) s fun t =>
      (t.dev.e e).st = .halted ∧ (t.dev.e e).pc = x.pc + 4 ∧ (t.dev.e e).ready = i + 1 ∧ (t.dev.e e).g = x.g ∧
        (t.dev.c (e / 8)).drained = false ∧ (88 ≤ e.val → t.dev.depth (e - 88) = 0)) ∧
    (x.task = true → x.exl = false →
      let d := s.dev.entry e (z.entered 2 1 (x.pc.setWidth 64) 0 i)
      Makes (.eret e) s d ∧ Makes (.halt e) s d)) ∧
  (∀ (e : EngId) (gd ga : GReg) (n : Fin 64) (s : State), s.dev.canIssue e →
    let x := s.dev.e e
    let i := s.dev.issueAt e
    let v := x.r ga
    let w := v.toNat
    let z : EngSt := { x with lastPc := x.pc }
    let Reads (y : DWord) : Prop := Makes (.mfsy e gd n) s (s.dev.setE e (x.done (x.w gd y) i 1 (x.pc + 4)))
    let Writes (y : EngSt) : Prop := Makes (.mtsy e n ga) s (s.dev.setE e (x.done y i 1 (x.pc + 4)))
    let There : Prop := n.val ∈ [0, 1, 2, 3, 4, 5, 6, 7, 9, 10, 11, 12, 13, 14, 16] ∨ (32 ≤ n.val ∧ n.val < 40) ∨ (n.val ∈ [40, 41, 42] ∧ 88 ≤ e.val)
    let TaskReads : Prop := n.val ∈ [0, 1, 2, 9, 12, 16] ∨ (32 ≤ n.val ∧ n.val < 40)
    let TaskWrites : Prop := n.val = 12 ∨ (32 ≤ n.val ∧ n.val < 40)
    let Illegal (c : Instr) : Prop := Makes c s (s.dev.entry e (z.entered 1 0 (x.pc.setWidth 64) 0 i))
    let Private (c : Instr) : Prop := Makes c s (s.dev.entry e (z.entered 2 4 (x.pc.setWidth 64) 0 i))
    (¬ There → x.exl = false → Illegal (.mfsy e gd n) ∧ Illegal (.mtsy e n ga)) ∧
    (There → x.task = true → x.exl = false → (¬ TaskReads → Private (.mfsy e gd n)) ∧ (¬ TaskWrites → Private (.mtsy e n ga))) ∧
    (There → (x.task = true → TaskReads) →
      (n.val = 0 → Reads (BitVec.ofNat 64 ((if e < 56 then 0 else if e < 88 then 256 else 512) + 16 * (e / 8) + e % 8))) ∧
      (n.val = 1 → Reads (BitVec.ofNat 64 i)) ∧
      (n.val = 2 → Reads (x.status.setWidth 64)) ∧
      (n.val = 3 → Reads (x.estatus.setWidth 64)) ∧
      (n.val = 4 → Reads x.epc) ∧
      (n.val = 5 → Reads (BitVec.ofNat 64 (256 * x.det + x.vec))) ∧
      (n.val = 6 → Reads x.eval) ∧
      (n.val = 7 → Reads (x.vbase.setWidth 64)) ∧
      (n.val = 9 → Reads (s.dev.evpend e i)) ∧
      (n.val = 10 → Reads (BitVec.ofNat 64 ((x.timerAt.map (· - i)).getD 0))) ∧
      (n.val = 11 → Reads (BitVec.ofNat 64 ((if x.wdogEn then 2147483648 else 0) + x.wdogExp))) ∧
      (n.val = 12 ∨ n.val = 41 → Reads 0) ∧
      (n.val = 13 → Reads (BitVec.ofNat 64 (65536 * x.winLLimit + x.winLBase))) ∧
      (n.val = 14 → Reads (BitVec.ofNat 64 (65536 * x.winSLimit + x.winSBase))) ∧
      (n.val = 16 → Reads (BitVec.ofNat 64 (s.dev.get (R.CL_MODE.MODE (e / 8))))) ∧
      (32 ≤ n.val → n.val < 40 → Reads (Tbl.get 0 x.scratch n)) ∧
      (n.val = 40 → let c := s.dev.claim (e - 88)
        Makes (.mfsy e gd n) s (c.2.setE e (x.done (x.w gd (BitVec.ofNat 64 c.1)) i 4 (x.pc + 4)))) ∧
      (n.val = 42 → Reads (BitVec.ofNat 64 (s.dev.runPrio (e - 88))))) ∧
    (There → (x.task = true → TaskWrites) →
      let mode (b : BitVec 64) : BitVec 3 := BitVec.ofNat 3
        (4 * (if b.getLsbD 2 then 1 else 0) + 2 * (if b.getLsbD 1 && decide (88 ≤ e.val) then 1 else 0) + if b.getLsbD 0 && decide (e.val < 56) then 1 else 0)
      (n.val ∈ [0, 1, 5, 6, 9, 16, 40, 42] → Writes x) ∧
      (n.val = 2 → Writes { x with exl := (mode v).getLsbD 2, ie := (mode v).getLsbD 1, task := (mode v).getLsbD 0 }) ∧
      (n.val = 3 → Writes { x with estatus := mode v }) ∧
      (n.val = 4 → Writes { x with epc := v }) ∧
      (n.val = 7 → Writes { x with vbase := BitVec.ofNat 32 (w % 65536 / 1024 * 1024) }) ∧
      (n.val = 10 → Writes { x with timerExp := false, timerAt := if w % 2 ^ 32 = 0 then none else some (i + w % 2 ^ 32) }) ∧
      (n.val = 11 → Writes { x with
        wdogEn := v.getLsbD 31, wdogExp := max 10 (min 30 (w % 32)), wdogStart := if v.getLsbD 31 && !x.wdogEn then i else x.wdogStart }) ∧
      (n.val = 12 → Writes { x with wdogStart := i, wdogMissed := false }) ∧
      (n.val = 13 → let b := max 16 (min 63 (w % 64))
        Writes { x with winLBase := b, winLLimit := max (max 17 (min 64 (w / 65536 % 128))) (b + 1) }) ∧
      (n.val = 14 → let b := w % 1024
        Writes { x with winSBase := b, winSLimit := max (max 1 (min 1024 (w / 65536 % 2048))) (b + 1) }) ∧
      (32 ≤ n.val → n.val < 40 → Writes { x with scratch := Tbl.set 0 x.scratch n v }) ∧
      (n.val = 41 → Makes (.mtsy e n ga) s ((s.dev.eoi (e - 88)).setE e (x.done x i 1 (x.pc + 4))))))

/-- R194, R195, R198, R210, R212: a word with no meaning takes ILLEGAL, a fetch past the instruction store ADDRESS with
DETAIL 1, a fetch of a poisoned word POISON with DETAIL 1, each unless a WATCHDOG or INTERRUPT is due first; an exception in a handler sends the engine to FAULT. -/
def Obligations.ExceptionEntry : Prop :=
  ∀ (e : EngId) (w : BitVec 32) (s : State),
    let x := s.dev.e e
    let i := s.dev.issueAt e
    let z : EngSt := { x with lastPc := x.pc }
    (s.dev.canIssue e → nelocRun e w.toNat = none → x.exl = false →
      Makes (.illegalInstruction e w) s (s.dev.entry e (z.entered 1 0 (x.pc.setWidth 64) 0 i))) ∧
    (x.st = .running → s.dev.clAwake e = true → s.dev.entryDue e = none → 0xFFFC < x.pc.toNat → x.exl = false →
      Makes (.instructionFetchFault e) s (s.dev.entry e (z.entered 6 1 (x.pc.setWidth 64) (x.pc.setWidth 64) i))) ∧
    (x.st = .running → s.dev.clAwake e = true → s.dev.entryDue e = none → x.pc.toNat ≤ 0xFFFC →
      (s.dev.readWord .loc (e / 8) (e % 8) (x.pc.toNat / 8)).2.1 = true → x.exl = false → Gives (.instructionFetchFault e) s fun t =>
        t.dev.e e = z.entered 3 1 (x.pc.setWidth 64) 0 i) ∧
    (s.dev.canIssue e → nelocRun e w.toNat = none → x.exl = true →
      Gives (.illegalInstruction e w) s fun t =>
        (t.dev.e e).st = .fault ∧ (t.dev.e e).lastVec = 1 ∧ (t.dev.e e).lastDet = 0 ∧ (t.dev.e e).g = x.g ∧ (t.dev.e e).pc = x.pc)

/-! Events between instructions (R188, R210 to R213, R216, R226 to R228). -/

/-- R210 to R213: a warden takes INTERRUPT with IE = 1 and EXL = 0 while its request line is asserted and no WATCHDOG is due; the first watchdog expiry takes
WATCHDOG and restarts the period, one with no kick since the last sends the engine to FAULT; TIMER's expiry sets its event. R211, R227: ewait with a selected event pending writes gd and goes on six E-cycles later; with none it waits, and the wake of an engine so waiting
writes gd with the events as sampled then, unless an exception is due first. -/
def Obligations.EngineEvents : Prop :=
  (∀ (e : EngId) (s : State),
    let x := s.dev.e e
    let i := s.dev.issueAt e
    (88 ≤ e.val → x.st = .running ∨ x.st = .waiting → s.dev.clAwake e = true → x.ie = true → x.exl = false →
      s.dev.line (e - 88) = true → (x.wdogEn = true → i < x.wdogStart + 2 ^ x.wdogExp) →
        Makes (.interruptEntry e) s (s.dev.entry e (x.entered 7 0 (x.pc.setWidth 64) 0 i))) ∧
    (x.st = .running ∨ x.st = .waiting → s.dev.clAwake e = true → x.wdogEn = true →
      let t0 := x.wdogStart + 2 ^ x.wdogExp
      (x.wdogMissed = false → x.exl = false → Gives (.watchdogExpiry e) s fun t =>
        let y := t.dev.e e
        y.wdogStart = t0 ∧ y.wdogMissed = true ∧ y.vec = 5 ∧ y.det = 0 ∧ y.epc = x.pc.setWidth 64 ∧ y.estatus = x.status ∧
          y.exl = true ∧ y.ie = false ∧ y.task = false ∧ y.pc = x.vbase + 320 ∧ y.st = .running ∧ y.g = x.g) ∧
      (x.wdogMissed = true → Gives (.watchdogExpiry e) s fun t => (t.dev.e e).st = .fault ∧ (t.dev.e e).lastVec = 5 ∧ (t.dev.e e).g = x.g)) ∧
    (∀ n, x.timerAt = some n → s.dev.clAwake e = true → Gives (.timerExpiry e) s fun t =>
      (t.dev.e e).timerExp = true ∧ (t.dev.e e).timerAt = none)) ∧
  (∀ (e : EngId) (gd ga : GReg) (s : State),
    let x := s.dev.e e
    let i := s.dev.issueAt e
    (s.dev.canIssue e →
      let v := s.dev.evpend e i &&& x.r ga
      (v ≠ 0 → Makes (.ewait e gd ga) s (s.dev.setE e (x.done (x.w gd v) i 6 (x.pc + 4)))) ∧
      (v = 0 → Gives (.ewait e gd ga) s fun t =>
        (t.dev.e e).st = .waiting ∧ (t.dev.e e).g = x.g ∧ (t.dev.e e).pc = x.pc ∧ (t.dev.e e).wait = some (.event gd (x.r ga)))) ∧
    (∀ m : DWord, x.st = .waiting → x.wait = some (.event gd m) → s.dev.clAwake e = true → s.dev.entryDue e = none → s.dev.evpend e i &&& m ≠ 0 →
      Makes (.ewaitWake e) s (s.dev.setE e { x.w gd (s.dev.evpend e i &&& m) with
        pc := x.pc + 4, ready := i + 6, st := .running, wait := none })))

/-! Hardware channels (R214 to R216, R218, R221). -/

/-- R214, R215, R218, R221: csend on a mailbox puts the word in the receiver's queue, unless eight words of this sender wait there; on a request channel
it queues the request, with the target's epoch and, where the target cannot serve it (a REG access is judged as it arrives), its answer, unless eight of
the channel are outstanding. It takes four E-cycles and sets gd to 0 or 1. A channel or command that is not open to the engine takes the exception
R214 names; which are open in system mode is R214's table. R214: a warden that holds an octet's notice channel closes it with command 1 and gets NOT_VALID; another warden's command changes the holder
not. -/
def Obligations.ChannelSend : Prop :=
  (∀ (e : EngId) (gd ga : GReg) (ch : Fin 1024) (cmd : Fin 64) (s : State), s.dev.canIssue e →
    let x := s.dev.e e
    let i := s.dev.issueAt e
    let Sent (t : State) : Prop := (t.dev.e e).ready = i + 4 ∧ (t.dev.e e).pc = x.pc + 4 ∧ (0 < gd.val → (t.dev.e e).r gd = 0)
    let full : Prop := Makes (.csend e gd ga ch cmd) s (s.dev.setE e (x.done (x.w gd 1) i 4 (x.pc + 4)))
    (ch.val < 8 → cmd.val = 0 →
      let m := 8 * (e.val / 8) + ch.val
      let k := ((s.dev.e m).mbox.filter (·.chan == e.val % 8)).length
      (k < 8 → Gives (.csend e gd ga ch cmd) s fun t => (t.dev.e m).mbox = (s.dev.e m).mbox ++ [⟨e.val % 8, x.r ga, false, i + 4⟩] ∧ Sent t) ∧
      (8 ≤ k → full)) ∧
    (8 ≤ ch.val → chanFault x e ch cmd false = none →
      let k := (x.reqs.filter (·.chan == ch.val)).length + (x.replies.filter (·.chan == ch.val)).length
      let tgt := reqTarget e ch (x.r ga)
      let r : Req := { chan := ch, cmd := cmd, op := x.r ga, tgt := tgt, epoch := s.dev.epoch tgt, task := x.task }
      let no (st : Nat) : Req := { r with phase := .answered, rep := BitVec.ofNat 64 (st * 2 ^ 60) }
      let q : Req := if ch.val = 0x15 then r else match s.dev.barredPolder tgt with | none => r | some 3 => no 9 | some _ => no 10
      (k < 8 → Gives (.csend e gd ga ch cmd) s fun t => (t.dev.e e).reqs = x.reqs ++ [q] ∧ Sent t) ∧
      (8 ≤ k → full)) ∧
    (x.exl = false → ∀ f, chanFault x e ch cmd false = some f →
      Makes (.csend e gd ga ch cmd) s (s.dev.entry e ({ x with lastPc := x.pc }.entered f.1 f.2.1 (x.pc.setWidth 64) f.2.2 i))) ∧
    (x.task = false →
      let cmds : Nat :=
        if ch.val < 8 then 1
        else if ch.val = 0x10 ∧ (e.val < 56 ∨ 88 ≤ e.val) then 7 else if ch.val = 0x11 ∧ (e.val < 56 ∨ 88 ≤ e.val) then 2
        else if ch.val = 0x12 ∧ (e.val < 56 ∨ 88 ≤ e.val) then 3 else if ch.val = 0x13 ∨ ch.val = 0x14 then 1
        else if ch.val = 0x15 ∧ 56 ≤ e.val then 2 else if ch.val = 0x23 ∧ 56 ≤ e.val ∧ e.val < 88 then 5
        else if e.val < 88 then 0
        else if 0x100 ≤ ch.val ∧ ch.val < 0x200 ∧ ch.val % 8 = 3 then 5
        else if ch.val = 0x200 then 4 else if ch.val = 0x201 then 2 else if ch.val = 0x202 then 7 else if ch.val = 0x203 ∨ ch.val = 0x204 then 3
        else if ch.val = 0x205 then 1 else if ch.val = 0x206 then 5 else 0
      (chanFault x e ch cmd false = none ↔ cmd.val < cmds)) ∧
    (8 ≤ ch.val → ch.val < 16 → chanFault x e ch cmd false = some (4, 1, BitVec.ofNat 64 ch)) ∧
    (x.task = true → 8 ≤ ch.val → ch.val ∉ [0x10, 0x11, 0x12, 0x14] → chanFault x e ch cmd false ≠ none)) ∧
  (∀ (e : EngId) (gd ga : GReg) (o : Oct) (ch : Fin 1024) (cmd : Fin 64) (s : State), s.dev.canIssue e → 88 ≤ e.val → (s.dev.e e).task = false → cmd.val = 1 →
    ∀ k : Nat, k ∈ [0, 1, 2, 4] → ch.val = 0x100 + 8 * o + k →
      let x := s.dev.e e
      Gives (.channelClose e gd ga ch cmd) s fun t =>
        (s.dev.holder o k = some (e - 88) → t.dev.holder o k = none) ∧
        (s.dev.holder o k ≠ some (e - 88) → t.dev.holder o k = s.dev.holder o k) ∧
        (∀ p j, p * 8 + j ≠ 8 * o.val + k → j < 8 → t.dev.holder p j = s.dev.holder p j) ∧
        t.dev.e e = x.done ((x.w gd 0).w ga 1) (s.dev.issueAt e) 2 (x.pc + 4))

/-- R214, R216: crecv on a channel open to the engine (an octet notice channel, when no other warden holds it, is then held) takes the oldest mailbox word,
reply or notice with its tag, in two E-cycles; with none it answers NOT_VALID in mode NORMAL or where no reply can come, and else waits. A word that arrives
completes the wait, unless an exception is due first. Where another warden holds the channel the answer is NOT_VALID; a channel or command not open
takes its exception. R216 to R218: an answered request whose target has not been reset since arrives as a reply in request order and leaves the outstanding requests; one
of a past epoch arrives as TARGET_RESET and is counted; an unanswered one whose target cannot serve it arrives as TARGET_RESET or TEST_BUSY; a word that fails its parity check is marked. -/
def Obligations.ChannelReceive : Prop :=
  (∀ (e : EngId) (gd ga : GReg) (ch : Fin 1024) (cmd : Fin 64) (p : Bool) (s : State),
    let x := s.dev.e e
    let i := s.dev.issueAt e
    let k := ch.val - 0x100
    let tag (w : QWord) : DWord := if w.poison = true ∨ (p = false ∧ chanKind ch ≠ .request) then 2 else 0
    (s.dev.canIssue e → chanFault x e ch 0 true = none →
      (octNotice ch = true → s.dev.holder (k / 8) (k % 8) = none ∨ s.dev.holder (k / 8) (k % 8) = some (e.val - 88)) →
      let Holds (t : State) : Prop := octNotice ch = true → t.dev.holder (k / 8) (k % 8) = some (e.val - 88)
      (∀ w rest, x.wordsOn ch i = w :: rest → Gives (.crecv e gd ga ⟨ch, p⟩) s fun t =>
        t.dev.e e = { (x.dropWord ch).received gd ga i 2 w.word (tag w) with lastPc := x.pc } ∧ Holds t) ∧
      (x.wordsOn ch i = [] →
        (s.dev.get (R.CL_MODE.MODE (e / 8)) = 0 ∨
          (chanKind ch = .request ∧ (x.reqs.filter (·.chan == ch.val)) = [] ∧ (x.replies.filter (·.chan == ch.val)) = []) →
            Gives (.crecv e gd ga ⟨ch, p⟩) s fun t => t.dev.e e = x.done ((x.w gd 0).w ga 1) i 2 (x.pc + 4) ∧ Holds t) ∧
        (s.dev.get (R.CL_MODE.MODE (e / 8)) ≠ 0 →
          (chanKind ch = .request → (x.reqs.filter (·.chan == ch.val)) ≠ [] ∨ (x.replies.filter (·.chan == ch.val)) ≠ []) →
            Gives (.crecv e gd ga ⟨ch, p⟩) s fun t =>
              (t.dev.e e).st = .waiting ∧ (t.dev.e e).g = x.g ∧ (t.dev.e e).pc = x.pc ∧ (t.dev.e e).wait = some (.word gd ga ch 0) ∧ Holds t))) ∧
    (s.dev.canIssue e → chanFault x e ch 0 true = none → octNotice ch = true →
      s.dev.holder (k / 8) (k % 8) ≠ none → s.dev.holder (k / 8) (k % 8) ≠ some (e.val - 88) →
        Makes (.crecv e gd ga ⟨ch, p⟩) s (s.dev.setE e (x.done ((x.w gd 0).w ga 1) i 2 (x.pc + 4)))) ∧
    (s.dev.canIssue e → x.exl = false →
      let Refused (c : Instr) (f : Option (Nat × Nat × DWord)) : Prop := ∀ g, f = some g →
        Makes c s (s.dev.entry e ({ x with lastPc := x.pc }.entered g.1 g.2.1 (x.pc.setWidth 64) g.2.2 i))
      Refused (.crecv e gd ga ⟨ch, p⟩) (chanFault x e ch 0 true) ∧ Refused (.channelClose e gd ga ch cmd) (chanFault x e ch cmd true)) ∧
    (cmd.val ≠ 0 → chanFault x e ch 0 true = none → ¬ (cmd.val = 1 ∧ octNotice ch = true) →
      chanFault x e ch cmd true = some (4, 3, BitVec.ofNat 64 ch)) ∧
    ∀ w rest n, x.st = .waiting → x.wait = some (.word gd ga ch n) → s.dev.clAwake e = true → s.dev.entryDue e = none →
      let j := max i (((x.mboxFrom ch).head?.map (·.at_)).getD 0)
      x.wordsOn ch j = w :: rest → Gives (.crecvWake ⟨e, p⟩) s fun t =>
        t.dev.e e = { (x.dropWord ch).received gd ga j 2 w.word (tag w) with st := .running, wait := none }) ∧
  (∀ (e : EngId) (ch : Fin 1024) (r : Req) (s : State), (s.dev.e e).reqs.find? (·.chan == ch.val) = some r →
    let x := s.dev.e e
    let After (p : Bool) (w : DWord) : State → Prop := fun t =>
      (t.dev.e e).replies = x.replies ++ [⟨ch.val, w, p, 0⟩] ∧ (t.dev.e e).reqs = x.reqs.eraseP (·.chan == ch.val) ∧ (t.dev.e e).g = x.g
    (r.phase = .answered → r.epoch = s.dev.epoch r.tgt →
      Gives (.channelReply e ch true) s (After r.poison r.rep) ∧ Gives (.channelReply e ch false) s (After true r.rep)) ∧
    (r.phase = .sent → r.epoch = s.dev.epoch r.tgt → ∀ why, s.dev.barredPolder r.tgt = some why →
      Gives (.channelReply e ch true) s (After false (BitVec.ofNat 64 ((if why = 3 then 9 else 10) * 2 ^ 60)))) ∧
    (r.phase = .answered → r.epoch ≠ s.dev.epoch r.tgt → Gives (.channelReply e ch true) s fun t =>
      After false (BitVec.ofNat 64 (10 * 2 ^ 60)) t ∧ t.dev.get (R.CL_STALE.COUNT (e / 8)) =
        min (2 ^ (R.CL_STALE.COUNT (e / 8)).width - 1) (s.dev.get (R.CL_STALE.COUNT (e / 8)) + 1)))

/-! Lane receive (spec/01, spec/02). -/

/-- R23, R24, R38, R39: the frequency, lock and loss judgements of a lane whose octet works. A failing 1 ms window makes the next marker switch the
crossing to its elastic stage; a slip is counted; CDR_LOCK and LOS follow their thresholds. -/
def Obligations.LaneJudgements : Prop :=
  ∀ (g : Lane) (dep : Int) (n : Nat) (s : State), s.dev.awake (g / 8) = true →
    let d := s.dev
    let o := g.val / 8
    (d.on (R.LAT_RX.VALID g) = true → d.on (R.LAT_RX.ELASTIC g) = false → d.get (R.MODE_ACTIVE.TIMING o) = 0 → 50000 < dep.natAbs →
      Makes (.freqWindowEnd g dep) s (d.onL g fun x => { x with freqBad := true })) ∧
    (dep.natAbs ≤ 50000 → Makes (.freqWindowEnd g dep) s d) ∧
    ((d.ln g).freqBad = true → Gives (.elasticSwitch g) s fun t =>
      t.dev.on (R.LAT_RX.VALID g) = false ∧ t.dev.on (R.LAT_RX.ELASTIC g) = true ∧
        bit (t.dev.get (R.TIMING_EVT.LANE o)) (g % 8) = true ∧ (t.dev.ln g).freqBad = false ∧
        LanesOnly d t.dev [A.LAT_RX g, A.TIMING_EVT o]) ∧
    (d.on (R.LAT_RX.ELASTIC g) = true → Makes (.elasticSlip g) s (d.bump (6144 + 16 * o + 11))) ∧
    (d.rxState g = 0 → 32 * n < 65536 → Gives (.cdrLockSet g n) s fun t =>
      t.dev.on (R.RX_STATUS.CDR_LOCK g) = true ∧ RegsOnly d t.dev [A.RX_STATUS g]) ∧
    (d.on (R.RX_STATUS.CDR_LOCK g) = true → 65536 < 16 * n → Gives (.cdrLockClear g n) s fun t =>
      t.dev.on (R.RX_STATUS.CDR_LOCK g) = false ∧ RegsOnly (d.bump (4096 + 8 * g + 1)) t.dev [A.RX_STATUS g]) ∧
    (d.on (R.RX_STATUS.LOS g) = false → n < 16 * d.get (R.LOS_CTRL.THR g) → Gives (.losSet g n) s fun t =>
      t.dev.on (R.RX_STATUS.LOS g) = true ∧ (t.dev.ln g).winLos = true ∧ (t.dev.ln g).blkLos = true ∧
        LanesOnly (d.bump (4096 + 8 * g)) t.dev [A.RX_STATUS g]) ∧
    (d.rxState g ≠ 2 → 16 * (d.get (R.LOS_CTRL.THR g) + d.get (R.LOS_CTRL.HYST g)) < n → Gives (.losClear g n) s fun t =>
      t.dev.on (R.RX_STATUS.LOS g) = false ∧ RegsOnly d t.dev [A.RX_STATUS g])

/-- R42, R47, R48: a write to CAL_COEF is applied at once in HOLD; elsewhere it waits, replacing an earlier one to the same entry, and the next
update point applies it; that point opens a window or counts in the one that runs. EN written 0 freezes calibration, EN written 1 in FROZEN starts it as
MARKER_LOCK; in no other state does EN = 1 change the state, and in HOLD neither does. R44, R45, R47: a window in which LOS was set fails: calibration of the lane goes from ACQUIRE or TRACK to STARVED, STARVED_SEEN sets, the pass
run ends, and no coefficient of the lane changes but by a pending write. A window that passes R45 by what it measured adds to the pass run; in ACQUIRE
or TRACK it counts an update and keeps the state, in STARVED the run that reaches RESUME leads out, as MARKER_LOCK, in FROZEN no coefficient moves. The
next window starts. -/
def Obligations.CalibrationControl : Prop :=
  (∀ (g : Lane) (src : Src) (j : Fin 65) (v : BitVec 32) (ws : List LaneWord) (s : State),
    let d := s.dev
    (d.barred (A.CAL_COEF g j) = none →
      (d.cal g = 0 → Makes (.calCoefWrite src g j v) s (d.setReg (A.CAL_COEF g j) v.toNat)) ∧
      (d.cal g ≠ 0 → Gives (.calCoefWrite src g j v) s fun t =>
        t.dev.on (R.CAL_STATUS.WR_PENDING g) = true ∧ (t.dev.ln g).pend = (d.ln g).pend.filter (fun w => w.1 ≠ j.val) ++ [(j.val, v)] ∧
          LanesOnly d t.dev [A.CAL_STATUS g])) ∧
    (d.awake (g / 8) = true → d.cal g ≠ 0 → ((d.ln g).winOpen = true → (d.ln g).winPts + 1 < d.winLen g) →
      Gives (.updatePoint ⟨g, ws⟩) s fun t =>
        ((d.ln g).pend = [(j.val, v)] → t.dev.reg (A.CAL_COEF g j) = v.toNat) ∧
        (t.dev.ln g).pend = [] ∧ t.dev.on (R.CAL_STATUS.WR_PENDING g) = false ∧ (t.dev.ln g).winOpen = true ∧
        (t.dev.ln g).winPts = (if (d.ln g).winOpen then (d.ln g).winPts + 1 else 0)) ∧
    (d.barred (A.CAL_CTRL g) = none →
      (d.cal g ≠ 0 → Gives (.calFreeze src g v) s fun t =>
        t.dev.cal g = 4 ∧ t.dev.on (R.CAL_CTRL.EN g) = false ∧ ∀ k, k < 65 → t.dev.reg (A.CAL_COEF g k) = d.reg (A.CAL_COEF g k)) ∧
      (d.cal g = 4 → Gives (.calUnfreeze src g v) s fun t =>
        t.dev.cal g = (if d.on (R.RX_STATUS.MARKER_LOCK g) then 2 else 1) ∧ t.dev.on (R.CAL_CTRL.EN g) = true ∧ (t.dev.ln g).winOpen = false) ∧
      (d.cal g ≠ 4 → Gives (.calUnfreeze src g v) s fun t => t.dev.cal g = d.cal g ∧ t.dev.on (R.CAL_CTRL.EN g) = true) ∧
      (d.cal g = 0 → Gives (.calFreeze src g v) s (fun t => t.dev.cal g = 0)))) ∧
  (∀ (g : Lane) (ws : List LaneWord) (s : State),
    let d := s.dev
    let m := d.rxWords g ws
    let run := min 15 (d.get (R.CAL_STATUS.PASS_RUN g) + 1)
    d.awake (g / 8) = true → (d.ln g).winOpen = true → d.winLen g ≤ (d.ln g).winPts + 1 →
      ((d.cal g = 1 ∨ d.cal g = 2) → (d.ln g).winLos = true → (d.ln g).pend = [] →
        Gives (.calWindowEnd g ws) s fun t =>
          t.dev.cal g = 3 ∧ t.dev.on (R.CAL_STATUS.STARVED g) = true ∧ t.dev.on (R.CAL_STATUS.STARVED_SEEN g) = true ∧
            t.dev.get (R.CAL_STATUS.PASS_RUN g) = 0 ∧ (t.dev.ln g).winOpen = true ∧ (t.dev.ln g).winPts = 0 ∧
            ∀ k, k < 65 → t.dev.reg (A.CAL_COEF g k) = d.reg (A.CAL_COEF g k)) ∧
      (d.cal g ≠ 0 → m.lanePasses g (m.included g) = true →
        Gives (.calWindowEnd g ws) s fun t =>
          (d.cal g = 1 ∨ d.cal g = 2 → t.dev.cal g = d.cal g ∧ t.dev.get (R.CAL_STATUS.PASS_RUN g) = run ∧
            t.dev.get (R.CAL_STATUS.UPDATES g) = (d.get (R.CAL_STATUS.UPDATES g) + 1) % 65536) ∧
          (d.cal g = 3 → t.dev.cal g = if run < d.get (R.CAL_CTRL.RESUME g) then 3 else if d.on (R.RX_STATUS.MARKER_LOCK g) then 2 else 1) ∧
          (d.cal g = 4 → t.dev.cal g = 4 ∧ t.dev.get (R.CAL_STATUS.PASS_RUN g) = run ∧
            ((d.ln g).pend = [] → ∀ k, k < 65 → t.dev.reg (A.CAL_COEF g k) = d.reg (A.CAL_COEF g k))) ∧
          (t.dev.ln g).winOpen = true ∧ (t.dev.ln g).winPts = 0 ∧ (t.dev.ln g).pend = []))

/-- R49, R51, R52: REPAIR_EN = 1 takes the spare into REPAIR for the slice named, unless it already works on it; the takeover replaces the slice, and
REPAIR_EN = 0 starts the return; on a lane repaired by fuse the repair fields keep their values. -/
def Obligations.SpareRepair : Prop :=
  ∀ (g : Lane) (src : Src) (v : BitVec 32) (s : State),
    let d := s.dev
    (d.barred (A.SPARE_CTRL g) = none →
      (d.on (R.SPARE_STATUS.FUSED g) = false → (d.ln g).rep = .none ∨ (d.ln g).rep = .release ∨ (d.ln g).rep = .returning ∨
          d.get (R.SPARE_STATUS.SLICE g) ≠ getBits v.toNat 13 8 →
        Gives (.repairRequest src g v) s fun t =>
          t.dev.get (R.SPARE_STATUS.MODE g) = 3 ∧ t.dev.get (R.SPARE_STATUS.SLICE g) = getBits v.toNat 13 8 ∧
            t.dev.on (R.SPARE_STATUS.TAKEOVER_PEND g) = true ∧ (t.dev.ln g).rep = .step1 ∧
            (d.scanning g = false → LanesOnly d t.dev [A.SPARE_CTRL g, A.SPARE_STATUS g]) ∧
            (d.scanning g = true → t.dev.get (R.EYE_STATUS.RESULT g) = 3 ∧ t.dev.scanning g = false)) ∧
      (d.on (R.SPARE_STATUS.FUSED g) = false → (d.ln g).rep ≠ .none → (d.ln g).rep ≠ .release → (d.ln g).rep ≠ .returning →
        d.get (R.SPARE_STATUS.SLICE g) = getBits v.toNat 13 8 →
          Gives (.repairRequest src g v) s fun t => RegsOnly d t.dev [A.SPARE_CTRL g]) ∧
      (d.on (R.SPARE_STATUS.FUSED g) = false → (d.ln g).rep = .inService → (d.ln g).served.isSome = true →
        Gives (.repairRelease src g v) s fun t =>
          (t.dev.ln g).rep = .release ∧ (t.dev.ln g).served = (d.ln g).served ∧ t.dev.on (R.SPARE_STATUS.TAKEOVER_PEND g) = false) ∧
      (d.on (R.SPARE_STATUS.FUSED g) = true →
        Gives (.repairRequest src g v) s (fun t => t.dev.get (R.SPARE_CTRL.REPAIR_EN g) = d.get (R.SPARE_CTRL.REPAIR_EN g) ∧
          t.dev.get (R.SPARE_CTRL.REPAIR_SLICE g) = d.get (R.SPARE_CTRL.REPAIR_SLICE g) ∧ t.dev.lane = d.lane))) ∧
    (d.awake (g / 8) = true → (d.ln g).rep = .ready → Gives (.spareTakeover g) s fun t =>
      (t.dev.ln g).rep = .inService ∧ (t.dev.ln g).served = some (d.get (R.SPARE_STATUS.SLICE g)) ∧
        t.dev.on (R.SPARE_STATUS.TAKEOVER_PEND g) = false ∧ t.dev.on (R.RX_STATUS.SCAN_UNAVAIL g) = true ∧ Notified d t.dev (g / 8) 0 4 (g % 8))

/-- R54: a write to a tap of the inactive bank with no fade running is taken; on the active bank, or during a fade, it is ignored, and ACTIVE_WR sets
only when the value differs; a write to FFE_CTRL does the same to each bank's cursor, at most 47. R55 to R57, R63: a swap request by the four rows of R56, and outside service at once; the end of a fade makes its target the bank in use and starts a
held request's fade or tells the keeper; the LMS is frozen by the fade and released after the last. -/
def Obligations.TapBanks : Prop :=
  (∀ (g : Lane) (src : Src) (b : Bool) (t : Fin 48) (v : BitVec 32) (s : State),
    let d := s.dev
    let f := if b then R.FFE_B.COEF g t else R.FFE_A.COEF g t
    d.barred f.addr = none →
      (d.on (R.FFE_STATUS.FADING g) = false → d.on (R.FFE_STATUS.ACTIVE g) ≠ b → Gives (.ffeTapWrite src g (some (b, t)) v) s fun u =>
        u.dev.get f = v.toNat % 1024 ∧ RegsOnly d u.dev [f.addr]) ∧
      (d.on (R.FFE_STATUS.FADING g) = true ∨ d.on (R.FFE_STATUS.ACTIVE g) = b →
        (d.get f = v.toNat % 1024 → Makes (.ffeTapWrite src g (some (b, t)) v) s d) ∧
        (d.get f ≠ v.toNat % 1024 → Gives (.ffeTapWrite src g (some (b, t)) v) s fun u =>
          u.dev.on (R.FFE_STATUS.ACTIVE_WR g) = true ∧ u.dev.get f = d.get f ∧ RegsOnly d u.dev [A.FFE_STATUS g])) ∧
      (d.barred (A.FFE_CTRL g) = none → Gives (.ffeTapWrite src g none v) s fun u =>
        let fits (c : Bool) : Prop := d.on (R.FFE_STATUS.FADING g) = false ∧ d.on (R.FFE_STATUS.ACTIVE g) ≠ c
        let a := min 47 (v.toNat / 256 % 64)
        let z := min 47 (v.toNat / 65536 % 64)
        (fits false → u.dev.get (R.FFE_CTRL.CURSOR_A g) = a) ∧
        (¬ fits false → u.dev.get (R.FFE_CTRL.CURSOR_A g) = d.get (R.FFE_CTRL.CURSOR_A g) ∧
          (d.get (R.FFE_CTRL.CURSOR_A g) ≠ a → u.dev.on (R.FFE_STATUS.ACTIVE_WR g) = true)) ∧
        (fits true → u.dev.get (R.FFE_CTRL.CURSOR_B g) = z) ∧
        (¬ fits true → u.dev.get (R.FFE_CTRL.CURSOR_B g) = d.get (R.FFE_CTRL.CURSOR_B g) ∧
          (d.get (R.FFE_CTRL.CURSOR_B g) ≠ z → u.dev.on (R.FFE_STATUS.ACTIVE_WR g) = true)) ∧
        RegsOnly d u.dev [A.FFE_CTRL g, A.FFE_STATUS g])) ∧
  (∀ (g : Lane) (src : Src) (v : BitVec 32) (ws : List LaneWord) (s : State),
    let d := s.dev
    let b := getBits v.toNat 8 8
    let k := max 4 (min 16 (v.toNat % 32))
    let act := d.get (R.FFE_STATUS.ACTIVE g)
    let drop := d.get (R.FFE_STATUS.DROP_CNT g)
    let fading := d.on (R.FFE_STATUS.FADING g)
    (d.barred (A.FFE_BANK_SEL g) = none →
      (d.rxState g = 0 → fading = false → b = act → Gives (.swapRequest src g v) s fun t =>
        t.dev.get (R.FFE_STATUS.DROP_CNT g) = min 65535 (drop + 1) ∧ t.dev.get (R.FFE_STATUS.ACTIVE g) = act ∧
          RegsOnly d t.dev [A.FFE_BANK_SEL g, A.FFE_STATUS g]) ∧
      (d.rxState g = 0 → fading = false → b ≠ act → Gives (.swapRequest src g v) s fun t =>
        t.dev.on (R.FFE_STATUS.FADING g) = true ∧ t.dev.get (R.FFE_STATUS.TARGET g) = b ∧ t.dev.get (R.FFE_STATUS.ACTIVE g) = act ∧
          (t.dev.ln g).fadeK = k ∧ t.dev.on (R.LMS_STATUS.BY_FADE g) = true ∧ t.dev.on (R.LMS_STATUS.FROZEN g) = true) ∧
      (d.rxState g = 0 → fading = true → b = act → Gives (.swapRequest src g v) s fun t =>
        t.dev.on (R.FFE_STATUS.SWAP_HELD g) = true ∧ t.dev.get (R.FFE_STATUS.HELD_BANK g) = b ∧ t.dev.get (R.FFE_STATUS.HELD_K g) = k ∧
          RegsOnly d t.dev [A.FFE_BANK_SEL g, A.FFE_STATUS g]) ∧
      (d.rxState g = 0 → fading = true → b ≠ act → Gives (.swapRequest src g v) s fun t =>
        t.dev.get (R.FFE_STATUS.DROP_CNT g) = min 65535 (drop + 1) ∧ t.dev.on (R.FFE_STATUS.SWAP_HELD g) = false ∧
          RegsOnly d t.dev [A.FFE_BANK_SEL g, A.FFE_STATUS g]) ∧
      (d.rxState g ≠ 0 → b = act → Gives (.swapRequest src g v) s fun t =>
        t.dev.get (R.FFE_STATUS.DROP_CNT g) = min 65535 (drop + 1) ∧ t.dev.get (R.FFE_STATUS.ACTIVE g) = act ∧
          RegsOnly d t.dev [A.FFE_BANK_SEL g, A.FFE_STATUS g]) ∧
      (d.rxState g ≠ 0 → b ≠ act → Gives (.swapRequest src g v) s fun t =>
        t.dev.get (R.FFE_STATUS.ACTIVE g) = b ∧ RegsOnly d t.dev [A.FFE_BANK_SEL g, A.FFE_STATUS g])) ∧
    (d.awake (g / 8) = true → fading = true →
      (d.on (R.FFE_STATUS.SWAP_HELD g) = true → Gives (.fadeEnd ⟨g, ws⟩) s fun t =>
        t.dev.get (R.FFE_STATUS.ACTIVE g) = d.get (R.FFE_STATUS.TARGET g) ∧ t.dev.on (R.FFE_STATUS.FADING g) = true ∧
          t.dev.get (R.FFE_STATUS.TARGET g) = d.get (R.FFE_STATUS.HELD_BANK g) ∧ (t.dev.ln g).fadeK = d.get (R.FFE_STATUS.HELD_K g) ∧
          t.dev.on (R.FFE_STATUS.SWAP_HELD g) = false) ∧
      (d.on (R.FFE_STATUS.SWAP_HELD g) = false → Gives (.fadeEnd ⟨g, ws⟩) s fun t =>
        t.dev.get (R.FFE_STATUS.ACTIVE g) = d.get (R.FFE_STATUS.TARGET g) ∧ t.dev.on (R.FFE_STATUS.FADING g) = false ∧
          t.dev.on (R.LMS_STATUS.BY_FADE g) = false ∧ Notified d t.dev (g / 8) 0 5 (g % 8))))

/-- R62 to R64: a frozen LMS changes nothing but what the lane words of its data path do; one that runs counts its updates and starts
its sums again. An error
block's mean squared error, as the lane words formed it, is shown; the fourth consecutive one above the threshold sets DIVERGED, which freezes the LMS until LMS_CTRL is written. -/
def Obligations.LmsSupervision : Prop :=
  ∀ (g : Lane) (src : Src) (v : BitVec 32) (ws : List LaneWord) (s : State),
    let d := s.dev
    let n := ((d.rxWords g ws).ln g).rx.mse
    (d.awake (g / 8) = true →
      (d.on (R.LMS_STATUS.FROZEN g) = true → Makes (.lmsUpdate g ws) s (d.rxWords g ws)) ∧
      (d.on (R.LMS_STATUS.FROZEN g) = false → Gives (.lmsUpdate g ws) s fun t =>
        t.dev.get (R.LMS_STATUS.UPDATES g) = (d.get (R.LMS_STATUS.UPDATES g) + 1) % 65536 ∧ (t.dev.ln g).rx.grad = {}) ∧
      (d.cal g ≠ 0 → Gives (.mseBlockEnd g ws) s fun t =>
        t.dev.get (R.LMS_MSE.MSE g) = min n 65535 ∧
        (d.get (R.LMS_MSE.ALARM_THR g) < min n 65535 → (d.ln g).blkLos = false → (d.ln g).mseRun = 3 →
          t.dev.on (R.LMS_STATUS.DIVERGED g) = true ∧ (d.on (R.LMS_STATUS.DIVERGED g) = false → t.dev.on (R.LMS_STATUS.FROZEN g) = true)) ∧
        ((d.ln g).blkLos = true → (t.dev.ln g).mseRun = 0 ∧ t.dev.on (R.LMS_STATUS.DIVERGED g) = d.on (R.LMS_STATUS.DIVERGED g)))) ∧
    (d.barred (A.LMS_CTRL g) = none → Gives (.lmsCtrlWrite src g v) s fun t =>
      t.dev.on (R.LMS_STATUS.DIVERGED g) = false ∧ t.dev.on (R.LMS_CTRL.EN g) = bit v.toNat 0 ∧
        t.dev.on (R.LMS_STATUS.BY_SW g) = !bit v.toNat 0 ∧ (t.dev.ln g).mseRun = 0 ∧ LanesOnly d t.dev [A.LMS_CTRL g, A.LMS_STATUS g])

/-! Lane transmit, training, power and test access (spec/03). -/

/-- R69, R71: a write to TX_FFE clamps each tap to its range and MAIN to what the others leave of 64, and FFE_CLAMP shows that it did; a write to
PD_CTRL selects the page; an entry of the active page is not written. -/
def Obligations.TransmitTaps : Prop :=
  ∀ (g : Lane) (src : Src) (page : Bool) (i : Fin 64) (v : BitVec 32) (s : State),
    let d := s.dev
    let n := v.toNat
    let entry := if page then R.PD_P1.CORR g i else R.PD_P0.CORR g i
    (d.barred (A.TX_FFE g) = none → Gives (.txFfeWrite src g v) s fun t =>
      let lim (w hi lo : Nat) (m : Int) : Int := max (-m) (min m (toS w (getBits n hi lo)))
      let side := (lim 5 28 24 8).natAbs + (lim 6 23 18 16).natAbs + (lim 6 10 5 16).natAbs + (lim 5 4 0 8).natAbs
      let u := t.dev
      u.getI (R.TX_FFE.PRE2 g) = lim 5 28 24 8 ∧ u.getI (R.TX_FFE.PRE1 g) = lim 6 23 18 16 ∧
      u.get (R.TX_FFE.MAIN g) = max 16 (min (64 - side) (getBits n 17 11)) ∧
      u.getI (R.TX_FFE.POST1 g) = lim 6 10 5 16 ∧ u.getI (R.TX_FFE.POST2 g) = lim 5 4 0 8 ∧
      (u.on (R.TX_STATUS.FFE_CLAMP g) = true ↔ d.on (R.TX_STATUS.FFE_CLAMP g) = true ∨ getBits (u.reg (A.TX_FFE g)) 28 0 ≠ getBits n 28 0) ∧
      RegsOnly d u [A.TX_FFE g, A.TX_STATUS g]) ∧
    (d.barred (A.PD_CTRL g) = none → Gives (.pdPageSelect src g v) s fun t =>
      t.dev.on (R.PD_CTRL.PAGE g) = bit n 0 ∧ t.dev.on (R.PD_CTRL.EN g) = bit n 1 ∧ t.dev.on (R.TX_STATUS.PD_PAGE g) = bit n 0 ∧
        RegsOnly d t.dev [A.PD_CTRL g, A.TX_STATUS g]) ∧
    (d.barred entry.addr = none → Gives (.pdEntryWrite src g page i v) s fun t =>
      if d.on (R.PD_CTRL.PAGE g) = page then
        t.dev.get entry = d.get entry ∧ t.dev.on (R.TX_STATUS.PD_WR_IGN g) = true ∧ RegsOnly d t.dev [A.TX_STATUS g]
      else t.dev.get entry = n % 256 ∧ RegsOnly d t.dev [entry.addr])

/-- R75 to R77: the commands that move a lane through OFF, TRAIN, READY and FAIL, each with its notice, and a message due where the
validity of the lane's record or its READY changes; a request counts SEQ from 1 to 7, waits alone, its command's reserved values taken as 0b10, and is sent again
until the retries are used up. R73 to R77: a received training message with one valid record, that of lane l, while the lane is in TRAIN or READY: a preset or an increment of MAIN is
carried out once per sequence number and answered; a response to the outstanding request completes it; a lane that has told and learnt enough goes on
to DATA, and a lane in DATA whose far side is not ready returns to TRAIN. A message of another type does nothing. -/
def Obligations.Training : Prop :=
  (∀ (g : Lane) (src : Src) (v : BitVec 32) (s : State),
    let d := s.dev
    let n := v.toNat
    let told (t : State) := Notified d t.dev (g / 8) 0 11 (g % 8) ∧ (t.dev.oc (g / 8)).trnDue = true
    (d.barred (A.TRN_CTRL g) = none →
      (d.trn g = 0 → Gives (.trainStart src g v) s fun t =>
        t.dev.trn g = 1 ∧ (t.dev.ln g).zeroDue = true ∧ (t.dev.ln g).rspSeq = 0 ∧ told t ∧
          OctetOnly d t.dev [A.TRN_CTRL g, A.TRN_STATUS g, A.TRN_FAR g]) ∧
      (d.trn g ≠ 0 → Gives (.trainStop src g v) s fun t =>
        t.dev.trn g = 0 ∧ t.dev.on (R.TRN_CTRL.LOCAL_READY g) = false ∧ (d.trn g = 1 ∨ d.trn g = 2 → told t) ∧
          (d.trn g = 4 → Notified d t.dev (g / 8) 0 11 (g % 8) ∧ (t.dev.oc (g / 8)).trnDue = (d.oc (g / 8)).trnDue)) ∧
      (d.trn g = 1 → Gives (.localReadySet src g v) s fun t =>
        t.dev.trn g = 2 ∧ told t ∧ OctetOnly d t.dev [A.TRN_CTRL g, A.TRN_STATUS g]) ∧
      (d.trn g = 2 → Gives (.localReadyClear src g v) s fun t =>
        t.dev.trn g = 1 ∧ told t ∧ OctetOnly d t.dev [A.TRN_CTRL g, A.TRN_STATUS g])) ∧
    (d.awake (g / 8) = true → d.trn g = 1 ∨ d.trn g = 2 → Gives (.trainLimitExpiry g) s fun t =>
      t.dev.trn g = 4 ∧ t.dev.get (R.TRN_STATUS.CAUSE g) = 0 ∧ t.dev.on (R.TRN_STATUS.REQ_PEND g) = false ∧
        t.dev.get (R.TRN_STATUS.RETRY_CNT g) = 0 ∧ told t ∧ OctetOnly d t.dev [A.TRN_STATUS g]) ∧
    (d.barred (A.TRN_REQ g) = none →
      (d.on (R.TRN_STATUS.REQ_PEND g) = true → Gives (.trainRequest src g v) s fun t =>
        t.dev.on (R.TRN_STATUS.REQ_BUSY g) = true ∧ RegsOnly d t.dev [A.TRN_STATUS g]) ∧
      (d.on (R.TRN_STATUS.REQ_PEND g) = false → Gives (.trainRequest src g v) s fun t =>
        t.dev.get (R.TRN_REQ.SEQ g) = d.get (R.TRN_REQ.SEQ g) % 7 + 1 ∧ t.dev.get (R.TRN_REQ.PRESET g) = getBits n 11 10 ∧
          (∀ k, k < 5 → t.dev.get (R.TRN_REQ.CMD g) / 4 ^ k % 4 = min 2 (n / 4 ^ k % 4)) ∧ t.dev.on (R.TRN_STATUS.REQ_PEND g) = true ∧ (t.dev.ln g).reqSent = false ∧
          OctetOnly d t.dev [A.TRN_REQ g, A.TRN_STATUS g])) ∧
    (d.awake (g / 8) = true → d.on (R.TRN_STATUS.REQ_PEND g) = true → (d.ln g).reqSent = true → (d.ln g).resendOff = false →
      (d.get (R.TRN_STATUS.RETRY_CNT g) < d.get (R.TRN_CTRL.RETRIES g) → Gives (.trainResend g) s fun t =>
        t.dev.get (R.TRN_STATUS.RETRY_CNT g) = d.get (R.TRN_STATUS.RETRY_CNT g) + 1 ∧ (t.dev.oc (g / 8)).trnDue = true ∧
          OctetOnly d t.dev [A.TRN_STATUS g]) ∧
      (d.get (R.TRN_CTRL.RETRIES g) ≤ d.get (R.TRN_STATUS.RETRY_CNT g) → Gives (.trainResend g) s fun t =>
        t.dev.on (R.TRN_STATUS.REQ_TIMEOUT g) = true ∧ (t.dev.ln g).resendOff = true ∧ Notified d t.dev (g / 8) 0 10 (g % 8) ∧
          LanesOnly d t.dev [A.TRN_STATUS g]))) ∧
  (∀ (o : Oct) (l : Fin 8) (m : BitVec 256) (s : State), s.dev.awake o = true →
    let d := s.dev
    let g := 8 * o.val + l.val
    let fld (k w : Nat) : Nat := m.toNat / 2 ^ (256 - k - w) % 2 ^ w
    let f (k w : Nat) : Nat := fld (16 + 30 * l.val + k) w
    let c := Instr.trainingMessageReceive o m
    let main := d.get (R.TX_FFE.MAIN g)
    let sum := (d.getI (R.TX_FFE.PRE2 g)).natAbs + (d.getI (R.TX_FFE.PRE1 g)).natAbs + main + (d.getI (R.TX_FFE.POST1 g)).natAbs +
      (d.getI (R.TX_FFE.POST2 g)).natAbs
    (fld 0 8 ≠ 1 → Makes c s d) ∧
    (fld 0 8 = 1 → fld 8 8 = 2 ^ (7 - l.val) →
      (d.trn g = 1 → f 0 3 ≠ 0 → f 0 3 ≠ (d.ln g).rspSeq → f 3 2 = 1 → Gives c s fun t =>
        t.dev.reg (A.TX_FFE g) = 64 * 2 ^ 11 ∧ t.dev.get (R.TRN_FAR.LAST_SEQ g) = f 0 3 ∧ t.dev.get (R.TRN_FAR.LAST_ST g) = 0x155 ∧
          (t.dev.ln g).rspSeq = f 0 3 ∧ (t.dev.ln g).rspSt = 0x155 ∧ (t.dev.oc o).trnDue = true) ∧
      (d.trn g = 1 → f 0 3 ≠ 0 → f 0 3 ≠ (d.ln g).rspSeq → f 3 2 = 0 → f 5 10 = 0b0000010000 → 15 ≤ main → Gives c s fun t =>
        (t.dev.ln g).rspSeq = f 0 3 ∧
        if 64 ≤ main then t.dev.get (R.TX_FFE.MAIN g) = main ∧ (t.dev.ln g).rspSt = 0b0000100000
        else if 64 ≤ sum then t.dev.get (R.TX_FFE.MAIN g) = main ∧ (t.dev.ln g).rspSt = 0b0000110000
        else t.dev.get (R.TX_FFE.MAIN g) = main + 1 ∧ (t.dev.ln g).rspSt = 0b0000010000) ∧
      (d.trn g = 1 → f 0 3 ≠ 0 → f 0 3 = (d.ln g).rspSeq → Gives c s fun t =>
        t.dev.reg (A.TX_FFE g) = d.reg (A.TX_FFE g) ∧ (t.dev.ln g).rspSeq = (d.ln g).rspSeq ∧ (t.dev.ln g).rspSt = (d.ln g).rspSt) ∧
      (d.trn g = 1 → f 0 3 = 0 → d.on (R.TRN_STATUS.REQ_PEND g) = true → f 15 3 ≠ 0 → f 15 3 = d.get (R.TRN_REQ.SEQ g) → Gives c s fun t =>
        t.dev.on (R.TRN_STATUS.REQ_PEND g) = false ∧ t.dev.get (R.TRN_STATUS.RETRY_CNT g) = 0 ∧ t.dev.get (R.TRN_STATUS.ST g) = f 18 10 ∧
          t.dev.reg (A.TX_FFE g) = d.reg (A.TX_FFE g) ∧ (t.dev.ln g).rspSeq = 0 ∧ Notified d t.dev o 0 9 l) ∧
      (d.trn g = 2 → d.on (R.TRN_STATUS.SEEN_SENT g) = true → f 28 1 = 1 → f 29 1 = 1 → Gives c s fun t => t.dev.trn g = 3) ∧
      (d.trn g = 3 → f 28 1 = 0 → Gives c s fun t =>
        t.dev.trn g = 1 ∧ t.dev.on (R.TRN_STATUS.RETRAIN g) = true ∧ t.dev.on (R.TRN_CTRL.LOCAL_READY g) = false ∧
          t.dev.on (R.TRN_STATUS.FAR_READY g) = false)))

/-- R79, R80: a power request starts a transition, waits behind a running one, or is ignored when the lane is there already; the end of the transition
puts the lane into the state asked for, ends training with CAUSE POWER, and on entry to DEEP clears CDR_LOCK, sets LOS and holds calibration. An exit of the
receive direction ends with CDR_LOCK, or LOS, which stands for a far transmitter that does not send (the model's reading, log 100). The octet's transmit
PLL stops once all eight lanes are in DEEP. R82 to R84: a loopback is selected by a write and comes into force while both directions are active, which ends training; the far-end store, full or empty,
slips only in plesiochronous timing; the checker takes SYNC after 64 symbols without an error, and a read of PAT_ERR returns its count, copies the compare count and clears both. -/
def Obligations.LanePowerAndLoopback : Prop :=
  (∀ (g : Lane) (src : Src) (v : BitVec 32) (a b : Fin 3) (s : State),
    let d := s.dev
    let dst : Nat × Nat := if bit v.toNat 2 then (2, 2) else (b2n (bit v.toNat 0), b2n (bit v.toNat 1))
    (d.barred (A.PWR_CTRL g) = none → Gives (.lanePowerRequest src g v) s fun t =>
      OctetOnly d t.dev [A.PWR_CTRL g, A.LPWR_STATUS g] ∧
      if d.on (R.LPWR_STATUS.BUSY g) then t.dev.on (R.LPWR_STATUS.QUEUED g) = true ∧ (t.dev.ln g).pwrNext = some dst
      else if dst = (d.txState g, d.rxState g) then t.dev.on (R.LPWR_STATUS.BUSY g) = false ∧ t.dev.lane = d.lane
      else t.dev.on (R.LPWR_STATUS.BUSY g) = true ∧ (t.dev.ln g).pwrTo = dst) ∧
    (d.awake (g / 8) = true → d.on (R.LPWR_STATUS.BUSY g) = true → (d.ln g).pwrTo = (a.val, b.val) → (d.ln g).pwrNext = none →
      (b.val = 0 → d.rxState g ≠ 0 → d.on (R.RX_STATUS.CDR_LOCK g) = true ∨ d.on (R.RX_STATUS.LOS g) = true) →
      Gives (.lanePowerTransitionEnd g) s fun t =>
        t.dev.txState g = a ∧ t.dev.rxState g = b ∧ t.dev.on (R.LPWR_STATUS.BUSY g) = false ∧
        (b.val = 2 → d.rxState g ≠ 2 → t.dev.on (R.RX_STATUS.CDR_LOCK g) = false ∧ t.dev.on (R.RX_STATUS.LOS g) = true) ∧
        (b.val ≠ 0 → d.rxState g = 0 → t.dev.cal g = 0) ∧
        ((∀ l : Fin 8, t.dev.txState (g / 8 * 8 + l) = 2) → (t.dev.oc (g / 8)).pll = false) ∧
        (a.val ≠ 0 → d.txState g ≠ a → d.trn g = 1 ∨ d.trn g = 2 → t.dev.trn g = 4 ∧ t.dev.get (R.TRN_STATUS.CAUSE g) = 1))) ∧
  (∀ (g : Lane) (src : Src) (v : BitVec 32) (ws : List LaneWord) (s : State),
    let d := s.dev
    let m := d.rxWords g ws
    let mode := d.get (R.LB_CTRL.MODE g)
    (d.barred (A.LB_CTRL g) = none → Gives (.loopbackSelect src g v) s fun t =>
      t.dev.get (R.LB_CTRL.MODE g) = min 3 (v.toNat % 8) ∧ t.dev.get (R.LB_STATUS.ACTIVE g) = d.get (R.LB_STATUS.ACTIVE g) ∧
        RegsOnly d t.dev [A.LB_CTRL g]) ∧
    (d.awake (g / 8) = true →
      (d.txState g = 0 → d.rxState g = 0 → mode ≠ d.get (R.LB_STATUS.ACTIVE g) → Gives (.loopbackEngage g) s fun t =>
        t.dev.get (R.LB_STATUS.ACTIVE g) = mode ∧
          (mode ≠ 0 → d.trn g = 1 ∨ d.trn g = 2 → t.dev.trn g = 4 ∧ t.dev.get (R.TRN_STATUS.CAUSE g) = 2)) ∧
      (d.txState g ≠ 0 ∨ d.rxState g ≠ 0 → Makes (.loopbackEngage g) s d) ∧
      (d.get (R.LB_STATUS.ACTIVE g) = 3 → d.get (R.MODE_ACTIVE.TIMING (g / 8)) = 1 →
          (m.ln g).rx.far.length = 0 ∨ 4 ≤ (m.ln g).rx.far.length → Gives (.loopbackSlip ⟨g, ws⟩) s fun t =>
        t.dev.get (R.LB_STATUS.SLIPS g) = min 65535 (d.get (R.LB_STATUS.SLIPS g) + 1) ∧
          (t.dev.ln g).rx.far.length = ((m.ln g).rx.far.length - 1 + if (m.ln g).rx.far.length = 0 then 1 else 0) ∧
          LanesOnly m t.dev [A.LB_STATUS g]) ∧
      (d.get (R.LB_STATUS.ACTIVE g) ≠ 3 ∨ d.get (R.MODE_ACTIVE.TIMING (g / 8)) = 0 → Makes (.loopbackSlip ⟨g, ws⟩) s m) ∧
      (d.get (R.PAT_CTRL.CHK g) ≠ 0 → 64 ≤ (m.ln g).rx.chkRun → Gives (.patternSync ⟨g, ws⟩) s fun t =>
        t.dev.on (R.PAT_CTRL.SYNC g) = true ∧ RegsOnly m t.dev [A.PAT_CTRL g])) ∧
    (d.barred (A.PAT_ERR g) = none → Gives (.patErrRead src (Lane.oct g) (Lane.slot g) ws) s fun t =>
      Tbl.get 0 t.dev.reads (srcKey src) = BitVec.ofNat 32 (min (2 ^ 32 - 1) (m.ln g).rx.chkErr) ∧
        t.dev.get (R.PAT_BITS.UNITS g) = (m.ln g).rx.chkBits / 256 % 2 ^ 32 ∧ (t.dev.ln g).rx.chkErr = 0 ∧ (t.dev.ln g).rx.chkBits = 0))

/-- R85, R86: an eye scan is refused while the spare repairs or the receiver is not ready, else it runs; its end, when
2^DWELL samples have been compared, or ABORT, gives the result and the errors counted, returns the spare and tells the keeper. R87 to R90: a capture ring from its enable to its stop: the enable clears the pointers and the mark; the writer passes page after page, overruns CAP_RD,
loses the mark it comes round to, and stops when the pages after a trigger are written; a completed page starts with its header. -/
def Obligations.EyeScanAndCapture : Prop :=
  (∀ (g : Lane) (src : Src) (v : BitVec 32) (ws : List LaneWord) (s : State),
    let d := s.dev
    let m := (d.rxWords g ws).ln g
    let errs (x : LaneSt) : Nat := min x.rx.eyeErr (2 ^ 32 - 1)
    let fits := d.rxState g = 0 ∧ d.on (R.RX_STATUS.CDR_LOCK g) = true
    (d.barred (A.EYE_CTRL g) = none →
      (bit v.toNat 30 = false → Gives (.eyeScanStart src g v) s fun t =>
        t.dev.get (R.EYE_ERR.ERR g) = 0 ∧ t.dev.spareMode g = d.spareMode g ∧ LanesOnly d t.dev [A.EYE_CTRL g, A.EYE_STATUS g, A.EYE_ERR g] ∧
        (d.spareMode g = 3 → t.dev.get (R.EYE_STATUS.RESULT g) = 4) ∧
        (d.spareMode g ≠ 3 → ¬ fits → t.dev.get (R.EYE_STATUS.RESULT g) = 5) ∧
        (d.spareMode g ≠ 3 → fits → t.dev.get (R.EYE_STATUS.RESULT g) = 1 ∧
          (t.dev.ln g).scanReq = decide (d.spareMode g ≠ 2) ∧ t.dev.get (R.EYE_CTRL.DWELL g) = max 8 (min 36 (getBits v.toNat 29 24)))) ∧
      (bit v.toNat 31 = false → d.scanning g = true → Gives (.eyeScanAbort src g v) s fun t =>
        t.dev.get (R.EYE_STATUS.RESULT g) = 6 ∧ t.dev.get (R.EYE_ERR.ERR g) = errs (d.ln g) ∧ t.dev.scanning g = false ∧
          t.dev.spareMode g = (if d.spareMode g = 2 then 0 else d.spareMode g) ∧ Notified d t.dev (g / 8) 0 12 (g % 8)) ∧
      (bit v.toNat 31 = false → d.scanning g = false → Gives (.eyeScanAbort src g v) s fun t => RegsOnly d t.dev [A.EYE_CTRL g])) ∧
    (d.awake (g / 8) = true → d.spareMode g = 2 → 2 ^ m.rx.eyeSet.2.2 ≤ m.rx.eyeN → Gives (.eyeScanEnd g ws) s fun t =>
      t.dev.get (R.EYE_STATUS.RESULT g) = 2 ∧ t.dev.get (R.EYE_ERR.ERR g) = errs m ∧ t.dev.spareMode g = 0 ∧
        Notified d t.dev (g / 8) 0 12 (g % 8) ∧ LanesOnly (d.rxWords g ws) t.dev [A.EYE_STATUS g, A.EYE_ERR g, A.SPARE_STATUS g])) ∧
  (∀ (g : Lane) (src : Src) (v : BitVec 32) (k : Fin 5) (data : List (BitVec 8)) (s : State),
    let d := s.dev
    let n := v.toNat
    let c := (d.ln g).cap
    let wr := d.get (R.CAP_WR.PAGE g)
    let rd := d.get (R.CAP_RD.PAGE g)
    let next := (wr + 1) % 2 ^ c.size
    let running := d.on (R.CAP_STATUS.RUNNING g)
    let mark := d.get (R.CAP_MARK.PAGE g)
    let marked := d.on (R.CAP_MARK.VALID g)
    (d.barred (A.CAP_CTRL g) = none →
      (d.on (R.CAP_CTRL.EN g) = false → getBits n 30 28 = 0 → Gives (.captureEnable src g v) s fun t =>
        t.dev.on (R.CAP_STATUS.RUNNING g) = true ∧ t.dev.get (R.CAP_WR.PAGE g) = 0 ∧ t.dev.get (R.CAP_RD.PAGE g) = 0 ∧
          t.dev.on (R.CAP_MARK.VALID g) = false ∧ t.dev.on (R.CAP_STATUS.STOPPED g) = false ∧ (t.dev.ln g).cap.index = 0 ∧
          (t.dev.ln g).cap.src = getBits n 27 26 ∧ (t.dev.ln g).cap.dec = getBits n 25 22 ∧
          (t.dev.ln g).cap.size = max 4 (min 20 (getBits n 16 12))) ∧
      (d.on (R.CAP_CTRL.EN g) = true → bit n 31 = true → getBits n 29 28 = 0 → Gives (.captureMark src g v) s fun t =>
        t.dev.on (R.CAP_MARK.VALID g) = true ∧ t.dev.get (R.CAP_MARK.PAGE g) = (if running then wr else next) % 2 ^ 20 ∧
          t.dev.get (R.CAP_RD.PAGE g) = rd) ∧
      (d.on (R.CAP_CTRL.EN g) = true → bit n 31 = true → bit n 30 = false → bit n 28 = false → Gives (.captureRewind src g v) s fun t =>
        (t.dev.on (R.CAP_MARK.VALID g) = marked) ∧
        if marked then t.dev.get (R.CAP_RD.PAGE g) = mark ∧ t.dev.get (R.CAP_STATUS.REW_RESULT g) = 1
        else t.dev.get (R.CAP_RD.PAGE g) = rd ∧ t.dev.get (R.CAP_STATUS.REW_RESULT g) = if c.lost then 2 else 3)) ∧
    (d.awake (g / 8) = true → running = true →
      (bit c.trigSel k = true ∨ k.val = 4 → Gives (.captureTrigger g k) s fun t =>
        t.dev.on (R.CAP_STATUS.TRIGGERED g) = true ∧ (t.dev.ln g).cap.trig = true ∧ Notified d t.dev (g / 8) 0 13 (g % 8) ∧
          (c.stop = true → d.on (R.CAP_STATUS.TRIGGERED g) = false → (t.dev.ln g).cap.left = some (c.post * 2 ^ c.size / 256))) ∧
      (c.left = some 0 → Gives (.capturePageStart g data) s fun t =>
        t.dev.on (R.CAP_STATUS.STOPPED g) = true ∧ t.dev.on (R.CAP_STATUS.RUNNING g) = false) ∧
      (c.left ≠ some 0 → Gives (.capturePageStart g data) s fun t =>
        t.dev.get (R.CAP_WR.PAGE g) = next % 2 ^ 20 ∧
        (next = rd → t.dev.on (R.CAP_STATUS.OVERRUN g) = true ∧ t.dev.get (R.CAP_RD.PAGE g) = (next + 1) % 2 ^ c.size % 2 ^ 20) ∧
        (next ≠ rd → t.dev.get (R.CAP_RD.PAGE g) = rd) ∧
        (marked = true → mark = next → t.dev.on (R.CAP_MARK.VALID g) = false ∧ t.dev.on (R.CAP_STATUS.MARK_LOST g) = true)) ∧
      (d.admits 1 (c.base + 4096 * wr) 4096 = true → c.base % 4096 = 0 → Gives (.capturePageStart g data) s fun t =>
        let at_ := c.base + 4096 * wr
        leNat (t.dev.dram.bytes at_ 8) = c.index % 2 ^ 64 ∧ leNat (t.dev.dram.bytes (at_ + 8) 2) = g.val ∧
          leNat (t.dev.dram.bytes (at_ + 12) 4) = c.drop % 2 ^ 32 ∧
          (∀ a, a < at_ ∨ at_ + 4096 ≤ a → t.dev.dram.byte a = d.dram.byte a)) ∧
      (d.admits 1 (c.base + 4096 * wr) 4096 = false → Gives (.capturePageStart g data) s fun t =>
        t.dev.dram = d.dram ∧ (t.dev.ln g).cap.drop = min (data.length / (if c.src = 2 then 256 else if c.src = 3 then 32 else 128))
          (if c.src = 2 then 15 else if c.src = 3 then 126 else 31)) ∧
      Gives (.captureWordDrop g) s fun t =>
        t.dev.get (R.CAP_STATUS.DROP g) = min 65535 (d.get (R.CAP_STATUS.DROP g) + 1) ∧ (t.dev.ln g).cap.drop = c.drop + 1 ∧
          LanesOnly d t.dev [A.CAP_STATUS g]))

/-! Octet modes, markers, ports, FEC and time (spec/01, spec/04). -/

/-- R31 to R34, R105, R110: a commit copies MODE; at a boundary at which every lane is in DEEP or its port is DOWN the copy becomes the mode in use, its FEC mode
the one the lane mode requires, every port of the octet is DOWN, no lane counts as having entered DATA, and BER_LIMIT follows; anywhere else it waits. -/
def Obligations.OctetMode : Prop :=
  ∀ (o : Oct) (src : Src) (v : BitVec 32) (s : State),
    let d := s.dev
    let m := (d.oc o).modePend
    let free := ∀ l, l < 8 → (d.txState (8 * o + l) = 2 ∧ d.rxState (8 * o + l) = 2) ∨ d.portState o (d.slotOf o l) = 0
    (d.barred (A.MODE_COMMIT o) = none → bit v.toNat 0 = true → Gives (.modeCommit src o v) s fun t =>
      (t.dev.oc o).modePend = d.reg (A.MODE o) ∧ t.dev.on (R.MODE_COMMIT.PENDING o) = true ∧
        t.dev.reg (A.MODE_ACTIVE o) = d.reg (A.MODE_ACTIVE o)) ∧
    (d.awake o = true →
      (d.on (R.MODE_COMMIT.PENDING o) = true → free → Gives (.modeBoundary o) s fun t =>
        let u := t.dev
        u.get (R.MODE_ACTIVE.LANE_MODE o) = m % 4 ∧ u.get (R.MODE_ACTIVE.FEC_MODE o) = (if m % 4 = 0 then 0 else 1) ∧
        u.get (R.MODE_ACTIVE.SPLIT o) = getBits m 5 4 ∧ u.on (R.MODE_ACTIVE.TIMING o) = bit m 8 ∧
        u.on (R.MODE_COMMIT.PENDING o) = false ∧ u.on (R.MODE_COMMIT.REPLACED o) = decide (getBits m 3 2 ≠ if m % 4 = 0 then 0 else 1) ∧
        (∀ p, p < 8 → p % d.portWidth o = 0 → u.portState o p = 0) ∧
        ∀ l, l < 8 → (u.ln (8 * o + l)).inData = false ∧ u.get (R.BER_LIMIT.COUNT o l) =
          (if m % 4 = 0 then 1030792 else if m % 4 = 1 then 19327353 else 47244640) / 2 ^ d.get (R.PORT_CTRL.BER_SHIFT o)) ∧
      (d.on (R.MODE_COMMIT.PENDING o) = false ∨ ¬ free → Makes (.modeBoundary o) s d))

/-- R99 to R104, R116: the markers an octet with a running PLL sends carry lane, split, mode and index, pass the check of R102, count on modulo 34, and a lane
that sends its port's data takes T_m from its capture; a lane locks on a second valid marker
of the next index, counts a position without a valid marker as an error, and after the third in a row loses the lock and takes its port DOWN; a mismatch shows
as MISWIRE and keeps the port in MARKER. -/
def Obligations.AlignmentMarkers : Prop :=
  ∀ (o : Oct) (ks : List Nat) (caps : List Instant) (temp : Int) (g : Lane) (m : MarkerArrival) (s : State),
    let d := s.dev
    let i := (d.oc o).mkTx
    let w := m.word.toNat
    let x := d.ln g
    let bip := d.get (R.BIP_ERR.COUNT (g / 8) (g % 8))
    (d.awake o = true → (d.oc o).pll = false → Makes (.markerSend o ⟨ks, caps⟩ temp) s d) ∧
    (d.awake o = true → (d.oc o).pll = true → i < 34 → Gives (.markerSend o ⟨ks, caps⟩ temp) s fun t =>
      (t.dev.oc o).mkTx = (i + 1) % 34 ∧ ∀ l, l < 8 →
        let k := (((t.dev.oc o).mkOut.getD l 0) : DWord).toNat
        getBits k 63 40 = 0xE35A1C ∧ getBits k 39 37 = l ∧ getBits k 36 35 = d.get (R.MODE_ACTIVE.SPLIT o) ∧
          getBits k 34 33 = d.get (R.MODE_ACTIVE.LANE_MODE o) ∧ getBits k 32 27 = i ∧
          getBits k 18 8 = 0 ∧ markerValid k = true ∧
          (d.txSource (8 * o + l) = .port → (t.dev.ln (8 * o + l)).stepTx = d.time.steps ∧
            (t.dev.ln (8 * o + l)).tmTx = d.tmOf (8 * o + l) (caps.getD l ⟨0, 0⟩) (d.getI (R.TSC_TX.DELAY o l)) temp)) ∧
    (d.awake (g / 8) = true →
      (markerValid w = true → d.mlock g = false → d.trn g = 3 → (∃ k, x.mkIndex = some k ∧ getBits w 32 27 = (k + 1) % 34) →
        Gives (.markerReceive g m) s fun t => t.dev.mlock g = true ∧ (t.dev.ln g).mkIndex = some (getBits w 32 27) ∧
          t.dev.get (R.BIP_ERR.COUNT (g / 8) (g % 8)) = bip) ∧
      (markerValid w = false → d.mlock g = true → x.mkMiss < 2 → Gives (.markerReceive g m) s fun t =>
        t.dev.mlock g = true ∧ (t.dev.ln g).mkMiss = x.mkMiss + 1 ∧ (t.dev.ln g).mkIndex = x.mkIndex ∧
          t.dev.get (R.BIP_ERR.COUNT (g / 8) (g % 8)) = min (2 ^ 32 - 1) (bip + 1)) ∧
      (markerValid w = false → d.mlock g = true → x.mkMiss = 2 → d.portState (g / 8) (d.laneSlot g) ≠ 0 →
        Gives (.markerReceive g m) s fun t =>
          t.dev.mlock g = false ∧ t.dev.portState (g / 8) (d.laneSlot g) = 0 ∧ t.dev.on (R.PORT_STATUS.UP (g / 8) (d.laneSlot g)) = false ∧
            t.dev.get (R.PORT_STATUS.DOWN_CNT (g / 8) (d.laneSlot g)) = min 255 (d.get (R.PORT_STATUS.DOWN_CNT (g / 8) (d.laneSlot g)) + 1)) ∧
      (markerValid w = true → d.mlock g = true → d.portState (g / 8) (d.laneSlot g) = 1 → getBits w 39 37 ≠ g % 8 →
        Gives (.markerReceive g m) s fun t =>
          t.dev.on (R.PORT_STATUS.MISWIRE (g / 8) (d.laneSlot g)) = true ∧ t.dev.portState (g / 8) (d.laneSlot g) = 1))

/-- R93, R95, R98, R104, R108 to R110: a codeword, by what the decoder of R93 finds in its symbols, counts in its port's live counts and an uncorrectable one more in a row, the 16th of which takes the port DOWN; an inner block
counts on its lane; a snapshot copies, and clears if asked; the end of a window copies the errors and raises the alarm above the limit. -/
def Obligations.FecCounts : Prop :=
  ∀ (o : Oct) (p : Slot) (g : Lane) (src : Src) (v : BitVec 32) (r : List (BitVec 10)) (llr : List Int) (s : State),
    let d := s.dev
    let x := d.pt o p
    let fix := rsErrors (r.map (·.toNat))
    let hit := chase llr
    let up1 (w v : Nat) := min (2 ^ w - 1) (v + 1)
    let gp := d.laneSlot g
    let c := g.val / 8
    let j := g.val % 8
    (d.awake o = true → d.portUp o p = true →
      (∀ l, fix = some l → Gives (.codewordDecode o p r) s fun t =>
        let k := l.length
        let y := t.dev.pt o p
        y.cw = up1 64 x.cw ∧ y.corr = (if k = 0 then min (2 ^ 64 - 1) x.corr else up1 64 x.corr) ∧ y.sym = min (2 ^ 64 - 1) (x.sym + k) ∧
          y.uncorr = x.uncorr ∧ y.uncRun = 0 ∧ y.half = !x.half ∧ Tbl.get 0 y.hist k = up1 32 (Tbl.get 0 x.hist k)) ∧
      (fix = none → x.uncRun < 15 → Gives (.codewordDecode o p r) s fun t =>
        let y := t.dev.pt o p
        y.cw = up1 64 x.cw ∧ y.uncorr = up1 32 x.uncorr ∧ y.uncRun = x.uncRun + 1 ∧ y.corr = x.corr ∧ y.sym = x.sym ∧ y.hist = x.hist ∧
          y.half = !x.half ∧ y.blks = List.replicate 80 errorBlk ∧ t.dev.regs = d.regs ∧ t.dev.lane = d.lane) ∧
      (fix = none → x.uncRun = 15 → Gives (.codewordDecode o p r) s fun t =>
        t.dev.portState o p = 0 ∧ t.dev.on (R.PORT_STATUS.HI_SER o p) = true)) ∧
    (d.awake c = true →
      (d.laneMode g = 0 ∨ d.rxState g ≠ 0 → Makes (.innerBlockDecode g llr) s d) ∧
      (∀ w, hit = some w → d.laneMode g ≠ 0 → d.rxState g = 0 → Gives (.innerBlockDecode g llr) s fun t =>
        t.dev.get (R.INNER_CORR.COUNT c j) = min (2 ^ 32 - 1) (d.get (R.INNER_CORR.COUNT c j) + hamming (hard llr) w) ∧
          (t.dev.ln g).rx.inner = w.take 128) ∧
      (hit = none → d.laneMode g ≠ 0 → d.rxState g = 0 → Gives (.innerBlockDecode g llr) s fun t =>
        t.dev.get (R.INNER_FAIL.COUNT c j) = min (2 ^ 32 - 1) (d.get (R.INNER_FAIL.COUNT c j) + 1) ∧
          (t.dev.ln g).rx.inner = (hard llr).take 128 ∧ LanesOnly d t.dev [A.INNER_FAIL c j]) ∧
      (d.portUp c gp = true → Gives (.berWindowEnd g) s fun t =>
        t.dev.get (R.BER_CNT.COUNT c j) = min (d.ln g).ber (2 ^ 32 - 1) ∧ (t.dev.ln g).ber = 0 ∧
          t.dev.on (R.PORT_STATUS.BER_ALARM c gp) = (d.on (R.PORT_STATUS.BER_ALARM c gp) ||
            (decide (d.get (R.BER_LIMIT.COUNT c j) < (d.ln g).ber) && d.on (R.PORT_CTRL.BER_EN c)))) ∧
      (d.portUp c gp = false → Makes (.berWindowEnd g) s d)) ∧
    (d.barred (A.FEC_SNAP o) = none → p.val % d.portWidth o = 0 → bit v.toNat p = true → Gives (.fecSnapshot src o v) s fun t =>
      t.dev.get (R.CW_LO.COUNT o p) = x.cw % 2 ^ 32 ∧ t.dev.get (R.CW_HI.COUNT o p) = x.cw / 2 ^ 32 % 2 ^ 32 ∧
      t.dev.get (R.CORR_LO.COUNT o p) = x.corr % 2 ^ 32 ∧ t.dev.get (R.UNCORR.COUNT o p) = x.uncorr % 2 ^ 32 ∧
      t.dev.get (R.SYM_LO.COUNT o p) = x.sym % 2 ^ 32 ∧ (∀ h, h < 16 → t.dev.get (R.HIST.COUNT o p h) = Tbl.get 0 x.hist h % 2 ^ 32) ∧
      if bit v.toNat 8 then (t.dev.pt o p).cw = 0 ∧ (t.dev.pt o p).uncorr = 0 ∧ (t.dev.pt o p).sym = 0 ∧ (t.dev.pt o p).hist = []
      else t.dev.pt o p = x)

/-- R111 to R114: the time base: a step waits for the next E-cycle, a committed value for it or for PPS_IN; a load takes the value and loses a step that is due; the
active edge latches the time at its instant, to 1 ps; a read latches all four registers; and at rate 0 one E-cycle is 500 ps (the E-cycle is the idle step, the model's own choice, log 25). R113, R114, R118, R121: PPS_OUT, while enabled, rises as the time base passes a whole second plus PPS_OUT_OFS, and falls; the message sent describes its edge; a message received with type and CRC right is latched, any other
counted; a transmit timestamp is popped oldest first; a delay measurement is refused unless the lane is idle and active, and its end gives the delays; while it runs the modem that rides on the lane is stopped. -/
def Obligations.TimeBase : Prop :=
  (∀ (src : Src) (v : BitVec 32) (fall : Bool) (off : Fin 501) (s : State),
    let d := s.dev
    let x := d.time
    let sec := d.get R.TB_SET_SEC_HI.SEC * 2 ^ 32 + d.get R.TB_SET_SEC_LO.SEC
    let ps := d.get R.TB_SET_PS_HI.PS * 2 ^ 32 + d.get R.TB_SET_PS_LO.PS
    let at_ (sec ps : Nat) (u : Dev) (lo hi plo phi : Nat) := u.reg lo = sec % 2 ^ 32 ∧ u.reg hi = sec / 2 ^ 32 % 2 ^ 16 ∧
      u.reg plo = ps % 2 ^ 32 ∧ u.reg phi = ps / 2 ^ 32 % 256
    let edge := x.sec * 10 ^ 12 + x.ps + off
    (d.barred A.TB_STEP = none →
      Makes (.timeStep src v) s { d with time := { x with stepPend := some (max (-2147483647) v.toInt) } }) ∧
    (d.barred A.TB_CTRL = none → Gives (.timeSetCommit src v) s fun t =>
      t.dev.time = { x with setVal := some (sec, ps), setDue := !bit v.toNat 1 } ∧ t.dev.on R.TB_STATUS.SET_PEND = bit v.toNat 1) ∧
    (∀ a b, x.setVal = some (a, b) → x.setDue = true → Gives .timeSetLoad s fun t =>
      t.dev.time.sec = a % 2 ^ 48 ∧ t.dev.time.ps = b ∧ t.dev.time.frac = 0 ∧ t.dev.time.stepPend = none ∧ t.dev.time.setVal = none ∧
        t.dev.on R.TB_STATUS.SET_DONE = true ∧ t.dev.on R.TB_STATUS.SET_PEND = false ∧
        (x.stepPend ≠ none → t.dev.on R.TB_STATUS.STEP_LOST = true)) ∧
    (d.on R.PPS_CTRL.IN_FALL = fall → Gives (.ppsInEdge ⟨fall, off⟩) s fun t =>
      at_ (edge / 10 ^ 12) (edge % 10 ^ 12) t.dev A.PPS_IN_TS_0 A.PPS_IN_TS_1 A.PPS_IN_TS_2 A.PPS_IN_TS_3 ∧ bit (t.dev.get R.DEV_EVT.EVT) 4 = true ∧
        t.dev.time = { x with setDue := x.setDue || d.on R.TB_STATUS.SET_PEND } ∧
        RegsOnly { d with time := t.dev.time } t.dev [A.PPS_IN_TS_0, A.PPS_IN_TS_1, A.PPS_IN_TS_2, A.PPS_IN_TS_3, A.DEV_EVT]) ∧
    (d.on R.PPS_CTRL.IN_FALL ≠ fall → Makes (.ppsInEdge ⟨fall, off⟩) s d) ∧
    (d.barred A.TB_SEC_LO = none → Gives (.timeReadLatch src) s fun t =>
      at_ x.sec x.ps t.dev A.TB_SEC_LO A.TB_SEC_HI A.TB_PS_LO A.TB_PS_HI ∧ (Tbl.get 0 t.dev.reads (srcKey src)).toNat = x.sec % 2 ^ 32 ∧
        t.dev.time = x) ∧
    (s.pending = [] → d.get R.TB_RATE.RATE = 0 → x.setDue = false → x.stepPend = none → x.ps < 10 ^ 12 → x.sec < 2 ^ 48 - 1 → x.frac < 2 ^ 24 →
      ∃ t, step s = .next t ∧ t.dev.time.frac = x.frac ∧
        t.dev.time.sec * 10 ^ 12 + t.dev.time.ps = x.sec * 10 ^ 12 + x.ps + 500 ∧ t.dev.time.ps < 10 ^ 12)) ∧
  (∀ (src : Src) (o : Oct) (g : Lane) (v : BitVec 32) (msg : List (BitVec 8)) (soon : Bool) (rx tx temp : Int) (s : State),
    let d := s.dev
    let x := d.time
    let c := g.val / 8
    let l := g.val % 8
    let good := msg.length = 12 ∧ msg.take 2 = [0xA5, 0x01] ∧ crc8 (beNat (msg.take 11)) 88 = beNat (msg.drop 11)
    (d.on R.PPS_CTRL.OUT_EN = true → d.ppsDue = true → Makes .ppsOutPulse s { d with time := { x with
      ppsOut := true, ppsSec := some ((x.sec * 10 ^ 12 + x.ps - d.getI R.PPS_OUT_OFS.OFS : Int) / 10 ^ 12).toNat } }) ∧
    (d.on R.PPS_CTRL.OUT_EN = false ∨ d.ppsDue = false → Makes .ppsOutPulse s d) ∧
    Makes .ppsOutEnd s { d with time := { x with ppsOut := false } } ∧
    (∀ sec, x.ppsSec = some sec → d.on R.TOD_CTRL.OUT_EN = true → Gives .todSend s fun t =>
      let m := t.dev.time.todOut
      m.length = 12 ∧ m.take 2 = [0xA5, 0x01] ∧ leNat ((m.drop 2).take 6) = sec % 2 ^ 48 ∧
        leNat ((m.drop 8).take 2) = d.get R.TOD_CTRL.UTC_OFS ∧ crc8 (beNat (m.take 11)) 88 = beNat (m.drop 11) ∧
        t.dev = { d with time := { x with todOut := m } }) ∧
    (good → Gives (.todReceive msg soon) s fun t =>
      t.dev.reg A.TOD_RX_0 = leNat ((msg.drop 2).take 4) ∧ t.dev.get R.TOD_RX_1.SEC = leNat ((msg.drop 6).take 2) ∧
        t.dev.get R.TOD_RX_1.UTC = leNat ((msg.drop 8).take 2) ∧ t.dev.on R.TOD_RX_2.ASSOC = soon ∧
        t.dev.get R.TOD_RX_2.FLAGS = leNat ((msg.drop 10).take 1) ∧
        RegsOnly d t.dev [A.TOD_RX_0, A.TOD_RX_1, A.TOD_RX_2, A.DEV_EVT]) ∧
    (¬ good → Gives (.todReceive msg soon) s fun t =>
      t.dev.get R.TOD_RX_2.BAD = min 65535 (d.get R.TOD_RX_2.BAD + 1) ∧ RegsOnly d t.dev [A.TOD_RX_2]) ∧
    (d.barred (A.TXTS_0 o) = none →
      ((d.oc o).txts = [] → Gives (.txtsPop src o) s fun t => Tbl.get 0 t.dev.reads (srcKey src) = 0 ∧ t.dev.oct = d.oct) ∧
      (∀ e r, (d.oc o).txts = e :: r → e.slot < 8 → Gives (.txtsPop src o) s fun t =>
        let w := (Tbl.get 0 t.dev.reads (srcKey src)).toNat
        bit w 31 = true ∧ w % 65536 = e.tag % 65536 ∧ (t.dev.oc o).txts = r ∧ t.dev.get (R.TXTS_1.PS o) = e.ps % 2 ^ 32 ∧
          t.dev.get (R.TXTS_2.PS o) = e.ps / 2 ^ 32 % 256 ∧ t.dev.get (R.TXTS_2.SEC o) = e.sec % 2 ^ 24)) ∧
    (d.barred (A.TSC_CTRL c l) = none → Gives (.tscStart src g v) s fun t =>
      (d.on (R.TL_CTRL.EN c) = false → d.tlRx c = 0 → RegsOnly { d with lane := t.dev.lane } t.dev [A.TSC_STATUS c l]) ∧
      if (d.trn g = 0 ∨ d.trn g = 4) ∧ d.txState g = 0 ∧ d.rxState g = 0 ∧ d.get (R.LB_STATUS.ACTIVE g) = 0 then
        t.dev.get (R.TSC_STATUS.RESULT c l) = 1 ∧ (t.dev.ln g).tscRun = true ∧ (d.tlLane c = g.val → t.dev.tlRx c = 0)
      else t.dev.get (R.TSC_STATUS.RESULT c l) = 3 ∧ t.dev.lane = d.lane) ∧
    (d.awake c = true → (d.ln g).tscRun = true → Gives (.tscDone g rx tx temp) s fun t =>
      t.dev.get (R.TSC_STATUS.RESULT c l) = 2 ∧ t.dev.on (R.TSC_STATUS.VALID c l) = true ∧
        (t.dev.get (R.TSC_RX.DELAY c l) : Int) = rx % 2 ^ 20 ∧ (t.dev.get (R.TSC_TX.DELAY c l) : Int) = tx % 2 ^ 20 ∧
        (t.dev.get (R.TSC_STATUS.TEMP c l) : Int) = temp % 256 ∧ (t.dev.ln g).tscRun = false))

/-! Tideline (spec/05). -/

/-- R123, R128, R139, R144: the modem leaves OFF when it is enabled on a lane that lets it run, and goes OFF when disabled: a frame in reception ends ABANDONED with a
descriptor; a change of lane is both; where the lane stops letting it run, or lets it run again, the modem follows. A gasp command waits to start once; MUTE_CLR ends the muting that a mask violation set. -/
def Obligations.ModemControl : Prop :=
  ∀ (o : Oct) (src : Src) (v : BitVec 32) (e : EngId) (op : Nat) (pwr : List Int) (s : State),
    let d := s.dev
    let x := d.t o
    let idle (p : Nat) := (d.t p).gaspReq = none ∧ ∀ r, (d.t p).cur ≠ some (.gasp r)
    let same := v.toNat % 8 = d.get (R.TL_CTRL.LANE o)
    let aband := d.get (R.TLC.COUNT o 3)
    (d.barred (A.TL_CTRL o) = none →
      (d.on (R.TL_CTRL.EN o) = false → same → bit v.toNat 7 = false → d.tlLaneOk o = true → d.tlRx o = 0 → Gives (.modemEnable o (some (src, v))) s fun t =>
        t.dev.tlRx o = 1 ∧ t.dev.on (R.TL_CTRL.EN o) = true ∧ (t.dev.t o).rxq = x.rxq ∧ (t.dev.t o).txq = x.txq) ∧
      (d.on (R.TL_CTRL.EN o) = true → d.tlRx o = 3 → x.rxq.length < 4 → bit v.toNat 7 = false → Gives (.modemDisable o (some (src, v))) s fun t =>
        t.dev.tlRx o = 0 ∧ t.dev.get (R.TLC.COUNT o 3) = min (2 ^ 32 - 1) (aband + 1) ∧ (t.dev.t o).cur = none ∧
          ∃ f, (t.dev.t o).rxq = x.rxq ++ [f] ∧ f.status = 3 ∧ f.header = x.header) ∧
      (d.on (R.TL_CTRL.EN o) = true → Gives (.modemDisable o (some (src, v))) s fun t =>
        t.dev.tlRx o = 0 ∧ t.dev.on (R.TL_CTRL.EN o) = false ∧ (t.dev.t o).cur = none ∧ (t.dev.t o).gaspReq = none) ∧
      (d.on (R.TL_CTRL.EN o) = true → bit v.toNat 31 = true → ¬ same →
        (d.ln (8 * o + v.toNat % 8)).tscRun = false → d.rxState (8 * o + v.toNat % 8) ≠ 2 → Gives (.tlLaneChange src o v) s fun t =>
          t.dev.tlRx o = 1 ∧ t.dev.get (R.TL_CTRL.LANE o) = v.toNat % 8 ∧ (t.dev.t o).cur = none ∧
          (d.tlRx o = 2 ∨ d.tlRx o = 3 → t.dev.get (R.TLC.COUNT o 3) = min (2 ^ 32 - 1) (aband + 1))) ∧
      (d.on (R.TL_CTRL.EN o) = true → bit v.toNat 31 = true → same → d.tlLaneOk o = true → idle o → Gives (.gaspCommand src o v) s fun t =>
        (t.dev.t o).gaspReq = some 1 ∧ (t.dev.t o).cur = none) ∧
      Gives (.muteClear src o v) s (fun t => t.dev.on (R.TL_STATUS.MUTED o) = false)) ∧
    (d.awake o = true →
      (d.tlRuns o = true → d.tlRx o = 0 → Gives (.modemEnable o none) s fun t => t.dev.tlRx o = 1) ∧
      (d.tlRuns o = false → d.tlRx o ≠ 0 → Gives (.modemDisable o none) s fun t => t.dev.tlRx o = 0 ∧ (t.dev.t o).cur = none)) ∧
    Serves (.wardenGasp e) s e 0x205 0 op 0 0 (fun u => ∀ p, p < 32 → d.awake p = true → d.tlRuns p = true → idle p →
      (u.t p).gaspReq = some (op % 2) ∧ (u.t p).cur = none) ∧
    (d.awake o = true → d.on (R.MASK_CTRL.EN o) = false → Makes (.maskBlockEnd o pwr) s d) ∧
    (d.awake o = true → d.on (R.MASK_CTRL.EN o) = true → (∀ r, x.cur ≠ some (.gasp r)) → Gives (.maskBlockEnd o pwr) s fun t =>
      let p (b : Nat) : Int := max (-128) (min 127 (pwr.getD b (-128)))
      let above (b : Nat) : Prop := d.getI (R.MASK_LIM.LIM o b) < p b
      (∀ b, b < 16 → t.dev.getI (R.MASK_PWR.PWR o b) = p b) ∧
      ((∀ b, b < 16 → ¬ above b) → t.dev.on (R.TL_STATUS.MUTED o) = d.on (R.TL_STATUS.MUTED o) ∧ (t.dev.t o).cur = x.cur) ∧
      (∀ b, b < 16 → above b → (∀ c, c < b → ¬ above c) → t.dev.on (R.TL_STATUS.MUTED o) = true ∧ t.dev.get (R.MASK_CTRL.VIOL_BIN o) = b ∧
        (t.dev.t o).cur = none ∧ t.dev.get (R.TLC.COUNT o 13) = min (2 ^ 32 - 1) (d.get (R.TLC.COUNT o 13) + 1)))

/-- R130 to R142: reception: a correlator whose last four symbol decisions agree detects where its metric reaches its threshold; that starts a reception
from SEARCH, or is held until the receiver is ready, displaces a weaker one in UNCONF, and in CONF only beyond the capture margin; the AGC freezes, after a preemption
8 chip times later; a delimiter or header that fails is a false start; a header that passes goes on to CONF, or records a gasp, or is missed by its address; blocks, as the
decoder of R137 decides them, and trailer then give the frame's result. -/
def Obligations.TidelineReception : Prop :=
  ∀ (o : Oct) (c : TlDetect) (cur : Int) (gain : Nat) (signs : BitVec 8) (h : BitVec 32) (ch : List Int) (crc : BitVec 32) (s : State),
    s.dev.awake o = true → s.dev.tlRuns o = true →
    let d := s.dev
    let x := d.t o
    let k := c.sf
    let m := c.metric
    let code := ldpcDecode ch
    let heard := agree (detSymbols c txFirReset (if d.agcFrozen o then x.gain else gain))
    let n (i : Nat) := min (2 ^ 32 - 1) (d.get (R.TLC.COUNT o i) + 1)
    let took (t : State) := t.dev.tlRx o = 2 ∧ t.dev.get (R.TL_STATUS.CUR_SF o) = k ∧ (t.dev.get (R.TL_STATUS.CUR_METRIC o) : Int) = m % 256 ∧
      (t.dev.t o).wait = false ∧ (t.dev.t o).held = none ∧ (t.dev.t o).delim = false ∧
      if d.tlRx o = 1 then t.dev.on (R.TL_STATUS.AGC_FROZEN o) = true
      else t.dev.on (R.TL_STATUS.AGC_FROZEN o) = false ∧ (t.dev.t o).agcAt = some (d.up + 15625)
    let hit := -128 ≤ m ∧ m ≤ 127 ∧ d.detThr o k ≤ m ∧ heard = true ∧ c.near = false ∧ -128 ≤ cur ∧ cur ≤ 127
    let a := h.toNat / 4096 % 4096
    let passes := crc8 (h.toNat / 256) 24 = h.toNat % 256 ∧ h.toNat / 2 ^ 29 = d.get (R.TL_STATUS.CUR_SF o)
    let mine := a = d.get (R.TL_ADDR.ADDR o) ∨ a = 0xFFF ∨ d.on (R.TL_CTRL.ACCEPT_ALL o) = true
    let len := x.header / 2 ^ 25 % 8 + 1
    let bits := x.blocks.foldl (fun v b => v * 2 ^ 256 + b.1.toNat) 0
    (hit →
      (d.tlRx o = 1 → x.wait = false → Gives (.detection o [c] ⟨cur, gain⟩) s took) ∧
      (d.tlRx o = 1 → x.wait = true → x.held = none → Makes (.detection o [c] ⟨cur, gain⟩) s
        (d.onT o fun x => { x with held := some (k.val, (m % 256).toNat) })) ∧
      (d.tlRx o = 2 → cur < m → Gives (.detection o [c] ⟨cur, gain⟩) s fun t => took t ∧ t.dev.get (R.TLC.COUNT o 5) = n 5) ∧
      (d.tlRx o = 3 → cur + 4 * d.get (R.TL_CTRL.CAPTURE o) < m → Gives (.detection o [c] ⟨cur, gain⟩) s fun t =>
        took t ∧ t.dev.get (R.TLC.COUNT o 2) = n 2) ∧
      ((d.tlRx o = 2 ∧ m ≤ cur) ∨ (d.tlRx o = 3 ∧ m ≤ cur + 4 * d.get (R.TL_CTRL.CAPTURE o)) → Gives (.detection o [c] ⟨cur, gain⟩) s fun t =>
        t.dev.get (R.TLC.COUNT o 6) = n 6 ∧ RegsOnly d t.dev [A.TLC o 6])) ∧
    (heard = false ∨ (m < d.detThr o k ∧ -128 ≤ m ∧ m ≤ 127) → Makes (.detection o [c] ⟨cur, gain⟩) s d) ∧
    (d.tlRx o = 1 → x.wait = true →
      (x.held = none → Makes (.searchReady o) s (d.onT o fun x => { x with wait := false })) ∧
      (x.held = some (k.val, (m % 256).toNat) → Gives (.searchReady o) s took)) ∧
    (d.tlRx o = 2 →
      (2 ≤ popCount (signs.toNat ^^^ 0b10110010) 8 → Gives (.delimiterMiss o signs) s fun t => t.dev.tlRx o = 1 ∧ t.dev.get (R.TLC.COUNT o 4) = n 4) ∧
      (popCount (signs.toNat ^^^ 0b10110010) 8 ≤ 1 → Gives (.delimiterMiss o signs) s fun t => t.dev.tlRx o = 2 ∧ (t.dev.t o).delim = true) ∧
      (x.delim = false → Makes (.headerDecision o h) s d)) ∧
    (d.tlRx o = 2 → x.delim = true →
      (¬ passes → Gives (.headerDecision o h) s fun t => t.dev.tlRx o = 1 ∧ t.dev.get (R.TLC.COUNT o 4) = n 4) ∧
      (passes → bit h.toNat 24 = true → Gives (.headerDecision o h) s fun t =>
        t.dev.tlRx o = 1 ∧ t.dev.on (R.GASP_RX.VALID o) = true ∧ t.dev.get (R.GASP_RX.ADDR o) = a ∧
          t.dev.get (R.GASP_RX.REASON o) = h.toNat / 256 % 16 ∧ t.dev.get (R.GASP_RX.COUNT o) = min 255 (d.get (R.GASP_RX.COUNT o) + 1)) ∧
      (passes → bit h.toNat 24 = false → mine → Gives (.headerDecision o h) s fun t =>
        t.dev.tlRx o = 3 ∧ (t.dev.t o).header = h.toNat ∧ (t.dev.t o).blocks = []) ∧
      (passes → bit h.toNat 24 = false → ¬ mine → Gives (.headerDecision o h) s fun t =>
        t.dev.tlRx o = 1 ∧ t.dev.get (R.TLC.COUNT o 7) = n 7)) ∧
    (d.tlRx o = 3 →
      (x.blocks.length < len → Gives (.ldpcBlockRelease o ch) s fun t =>
        (t.dev.t o).blocks = x.blocks ++ [(BitVec.ofNat 256 (code.toNat / 2 ^ 256), ldpcOk code)] ∧
          t.dev.get (R.TLC.COUNT o 9) = if ldpcOk code then d.get (R.TLC.COUNT o 9) else n 9) ∧
      (x.blocks.length = len → x.rxq.length < 4 → crc32 bits (256 * len) ≠ crc.toNat → Gives (.frameResult o crc) s fun t =>
        t.dev.tlRx o = 1 ∧ t.dev.get (R.TLC.COUNT o 1) = n 1 ∧ ∃ f, (t.dev.t o).rxq = x.rxq ++ [f] ∧ f.status = 1 ∧ f.header = x.header) ∧
      (x.blocks.length = len → x.rxq.length < 4 → crc32 bits (256 * len) = crc.toNat → bits / 2 ^ (256 * len - 8) = 2 →
        Gives (.frameResult o crc) s fun t =>
          t.dev.tlRx o = 1 ∧ t.dev.get (R.TLC.COUNT o 0) = n 0 ∧
            ∃ f, (t.dev.t o).rxq = x.rxq ++ [f] ∧ f.status = 0 ∧ f.header = x.header ∧ f.bits = bits) ∧
      (x.blocks.length = len → crc32 bits (256 * len) = crc.toNat →
        bits / 2 ^ (256 * len - 8) = 0 ∨ (5 ≤ bits / 2 ^ (256 * len - 8) ∧ bits / 2 ^ (256 * len - 8) < 128) → Gives (.frameResult o crc) s fun t =>
          t.dev.tlRx o = 1 ∧ t.dev.get (R.TLC.COUNT o 0) = n 0 ∧ t.dev.get (R.TLC.COUNT o 8) = n 8 ∧ (t.dev.t o).rxq = x.rxq))

/-- R141, R144, R145: the queues and the transmitter: a pop drops the oldest descriptor; a frame is queued unless the queue is full or its type is kept; the next frame is
a gasp, else a training message, else the oldest software frame, nothing but a gasp while muted; the end of a frame is counted, and takes a software frame out of the queue. -/
def Obligations.TidelineQueues : Prop :=
  ∀ (o : Oct) (src : Src) (v : BitVec 32) (s : State),
    let d := s.dev
    let x := d.t o
    let ty := d.reg (A.TX_BUF o 0) / 2 ^ 24
    let kept := ty = 0 ∨ ty = 1 ∨ (5 ≤ ty ∧ ty < 0x80)
    let quiet := d.on (R.TL_STATUS.MUTED o) = false
    (d.barred (A.RX_POP o) = none → Gives (.rxPop src o) s fun t =>
      (t.dev.t o).rxq = x.rxq.tail ∧ t.dev.get (R.TL_STATUS.RX_FILL o) = x.rxq.tail.length % 8 ∧ (t.dev.t o).txq = x.txq) ∧
    (d.barred (A.TX_DESC o) = none →
      (x.txq.length < 2 → ¬ kept → Gives (.txFrameQueue src o v) s fun t =>
        (∃ f, (t.dev.t o).txq = x.txq ++ [f] ∧ getBits f.desc 19 8 = getBits v.toNat 19 8 ∧ getBits f.desc 7 5 = getBits v.toNat 7 5) ∧
          t.dev.get (R.TL_STATUS.TX_FILL o) = x.txq.length + 1) ∧
      (2 ≤ x.txq.length ∨ kept → Gives (.txFrameQueue src o v) s fun t =>
        t.dev.tl = d.tl ∧ (2 ≤ x.txq.length → t.dev.on (R.TX_DESC.BUSY o) = true) ∧ (kept → t.dev.on (R.TX_DESC.TYPE_REJ o) = true) ∧
          RegsOnly d t.dev [A.TX_DESC o])) ∧
    (d.awake o = true → d.tlRuns o = true →
      (x.cur = none →
        (∀ r, x.gaspReq = some r → r < 16 → Gives (.txFrameStart o) s fun t => (t.dev.t o).cur = some (.gasp r) ∧ (t.dev.t o).gaspReq = none ∧
          t.dev.get (R.TL_STATUS.TX_STATE o) = 2 ∧ bit (t.dev.t o).header_tx 24 = true) ∧
        (x.gaspReq = none → d.on (R.TL_STATUS.MUTED o) = true → Makes (.txFrameStart o) s d) ∧
        (x.gaspReq = none → quiet → (d.oc o).trnDue = true → Gives (.txFrameStart o) s fun t =>
          (t.dev.t o).cur = some (.train (d.trnMessage o)) ∧ (t.dev.oc o).trnDue = false ∧ (t.dev.t o).txq = x.txq) ∧
        (x.gaspReq = none → quiet → (d.oc o).trnDue = false → x.txq ≠ [] → Gives (.txFrameStart o) s fun t =>
          (t.dev.t o).cur = some .soft ∧ (t.dev.t o).txq = x.txq)) ∧
      (x.cur = some .soft → Gives (.txFrameEnd o) s fun t =>
        (t.dev.t o).cur = none ∧ (t.dev.t o).txq = x.txq.tail ∧
          t.dev.get (R.TLC.COUNT o 11) = min (2 ^ 32 - 1) (d.get (R.TLC.COUNT o 11) + 1)) ∧
      (x.cur ≠ none → x.cur ≠ some .soft → Gives (.txFrameEnd o) s fun t =>
        (t.dev.t o).cur = none ∧ (t.dev.t o).txq = x.txq ∧
          t.dev.get (R.TLC.COUNT o 11) = min (2 ^ 32 - 1) (d.get (R.TLC.COUNT o 11) + 1)))

/-! The flow fabric (spec/06). -/

/-- R154, R157, R166, R167: the flow commands of an engine whose argument block and the flow store are clean: an install is taken up for the lowest free way of its
bucket and, at its commit, makes the flow valid and answers its number; a lookup answers the flow its key hits; a read copies the context; a modify, a
release and a removal change what the spec names; an enqueue links a frame of engine cells. R165, R166, R169: a pop gives the index of the oldest entry of the ring, NOT_VALID on an empty one in NORMAL, and waits in START and RECOVERY until an entry arrives;
a punted frame is dropped, relinked at the head of a HELD flow, or given to a queue of the host. -/
def Obligations.FlowCommands : Prop :=
  (∀ (e : EngId) (op f g : Nat) (bad : Option (Nat × Bool)) (x : Ctx) (i : Inst) (s : State), s.dev.clean .flow → s.dev.clean .shared → f < 2 ^ 20 →
    let d := s.dev
    let b := d.block e op
    let num (j n : Nat) := leNat (((b 16).drop j).take n)
    let mod (j n : Nat) := leNat (((b 4).drop j).take n)
    let valid (f : Nat) := (d.peekCtx f).valid = true
    let h := d.hashes ((b 16).take 64)
    let new := (d.lookup h).1 = none ∧ ∀ j ∈ d.fab.inst, j.flow / 4 = bucketOf h → (Ctx.ofWords j.words).digest ≠ digestOf h
    (new → d.Asks e 0x10 0 op → d.req e 0x10 0 .taken = none →
      d.freeWay (bucketOf h) = some g → d.nodeValid 2 (num 64 4 % 2 ^ 18) = true → Gives (.flInstall e) s fun t =>
        ∃ j : Inst, t.dev.fab.inst = d.fab.inst ++ [j] ∧ j.eng = e.val ∧ j.flow = g ∧ j.parent = num 64 4 % 2 ^ 18 ∧ j.band = min 3 (num 68 1) ∧
          j.weight = max 1 (min 2047 (num 70 2)) ∧ ∃ r, t.dev.req e 0x10 0 .taken = some r ∧ r.op.toNat = op) ∧
    (¬ new → Serves (.flInstall e) s e 0x10 0 op 4 0 fun u => u.fab = d.fab) ∧
    (new → d.freeWay (bucketOf h) = none → Serves (.flInstall e) s e 0x10 0 op 3 0 fun u => u.fab = d.fab) ∧
    (new → d.freeWay (bucketOf h) = some g → d.nodeValid 2 (num 64 4 % 2 ^ 18) = false → Serves (.flInstall e) s e 0x10 0 op 8 0 fun u => u.fab = d.fab) ∧
    (d.awake 32 = true → d.fab.inst.find? (·.eng == e.val) = some i → i.flow = f → i.words.length = 8 → i.parent < 2 ^ 18 →
      (d.req e 0x10 0 .taken).isSome = true → Gives (.installCommit e) s fun t =>
        Answered d t.dev e 0x10 0 .taken 0 f ∧ (∀ w, w < 8 → t.dev.flowS.raw (8 * f + w) = i.words.getD w 0 % 2 ^ 64) ∧
          (t.dev.node 3 f).valid = true ∧ (t.dev.node 3 f).parent = i.parent ∧ (t.dev.node 3 f).band = i.band ∧
          (t.dev.node 3 f).weight = i.weight ∧ t.dev.get R.FL_STATUS.FLOWS = (d.get R.FL_STATUS.FLOWS + 1) % 2 ^ 21) ∧
    (∀ r, (d.lookup (d.hashes (b 8))).1 = r → Serves (.flLookup e) s e 0x10 1 op (if r.isSome then 0 else 5) (r.getD 0) fun u => u.fab = d.fab) ∧
    (op % 2 ^ 20 = f →
      (valid f → Serves (.flRead e) s e 0x10 2 op 0 0 fun u => ∀ w, w < 8 →
        u.sharedS.raw (524288 * (e / 8) + (op / 2 ^ 42 / 64 * 8 + w)) = (d.peekCtx f).words.getD w 0) ∧
      (¬ valid f → Serves (.flRead e) s e 0x10 2 op 5 0 fun u => u.sharedS = d.sharedS) ∧
      (valid f → (d.peekCtx f).state = 2 → Serves (.flRelease e) s e 0x10 4 op 0 0 fun u =>
        u.peekCtx f = (d.peekCtx f).setState 1 ∧ ∀ h, h ≠ f → u.peekCtx h = d.peekCtx h) ∧
      (valid f → (d.peekCtx f).state ≠ 2 → Serves (.flRelease e) s e 0x10 4 op 6 0 fun u => u.flowS = d.flowS) ∧
      (¬ valid f → Serves (.flRelease e) s e 0x10 4 op 5 0 (fun u => u.fab = d.fab) ∧ Serves (.flRemove ⟨e, bad⟩) s e 0x10 5 op 5 0 fun u => u.fab = d.fab) ∧
      (valid f → bit op 20 = false → Serves (.flRemove ⟨e, bad⟩) s e 0x10 5 op 0 0 fun u =>
        u.peekCtx f = (d.peekCtx f).setState 3 ∧ u.fab = d.fab) ∧
      (valid f → bit op 20 = true → Serves (.flRemove ⟨e, bad⟩) s e 0x10 5 op 0 0 fun u =>
        u.peekCtx f = {} ∧ ((d.node 3 f).parent < 2 ^ 18 → (u.node 3 f).valid = false))) ∧
    (¬ valid (mod 0 4 % 2 ^ 20) → Serves (.flModify e) s e 0x10 3 op 5 0 fun u => u.flowS = d.flowS) ∧
    (mod 0 4 % 2 ^ 20 = f → valid f → Serves (.flModify e) s e 0x10 3 op 0 0 fun u =>
      let y := u.peekCtx f
      let m := mod 4 4
      y.allow = (if bit m 1 then max 1 (mod 12 2) else (d.peekCtx f).allow) ∧ y.tci = (if bit m 2 then mod 14 2 else (d.peekCtx f).tci) ∧
      y.tag = (if bit m 3 then mod 16 2 else (d.peekCtx f).tag) ∧ y.cookie = (if bit m 4 then mod 18 2 else (d.peekCtx f).cookie) ∧
      y.state = (d.peekCtx f).state ∧ y.spilled = (d.peekCtx f).spilled ∧ y.digest = (d.peekCtx f).digest ∧
      y.dropAll = (if bit m 0 then bit (mod 8 4) 20 else (d.peekCtx f).dropAll) ∧ u.fab = d.fab) ∧
    (d.awake 32 = true → d.peekCtx f = x → x.valid = true → x.state = 3 → x.onchip = 0 → x.sCount = 0 → (∀ e ∈ d.fab.stage, e.1 ≠ f) →
      Gives (.flowRemoveComplete (BitVec.ofNat 20 f)) s fun t => t.dev.peekCtx f = {}) ∧
    (let len := max 64 (min 10240 (leNat (((b 2).drop 4).take 2)))
     let body := (((b ((16 + len - 4 + 7) / 8)).drop 16).take (len - 4))
     let frame := body ++ bytesLE (fcsOf body) 4
     let hd := bit (leNat (((b 2).drop 6).take 1)) 0
     let n := (len + 255) / 256
     leNat ((b 2).take 4) % 2 ^ 20 = f → d.peekCtx f = x →
       (x.valid = false → Serves (.flEnq e) s e 0x10 6 op 5 0 fun u => u.fab = d.fab) ∧
       (x.valid = true → hd = true → x.state ≠ 2 → Serves (.flEnq e) s e 0x10 6 op 6 0 fun u => u.fab = d.fab) ∧
       (x.valid = true → (hd = true → x.state = 2 ∧ d.barredPath f = none) → (hd = false → d.fate f x n = .link) → x.onchip + n < 2 ^ 21 →
         (∀ cells, (d.storeFrame 2 frame).1 = some cells → Serves (.flEnq e) s e 0x10 6 op 0 (cells.headD 0) fun u =>
           let y := u.peekCtx f
           y.onchip = x.onchip + cells.length ∧ (hd = true ∨ x.onchip = 0 → y.head = cells.headD 0 % 2 ^ 20) ∧
             (hd = false ∨ x.onchip = 0 → y.tail = cells.getLastD 0 % 2 ^ 20) ∧ y.pkts = min (2 ^ 64 - 1) (x.pkts + 1) ∧
             y.bytes = min (2 ^ 64 - 1) (x.bytes + len) ∧ y.state = x.state) ∧
         ((d.storeFrame 2 frame).1 = none → Serves (.flEnq e) s e 0x10 6 op 2 0 fun u => u.flowS = d.flowS)) ∧
       (x.valid = true → hd = false → ∀ c q, d.fate f x n = .drop c q → Serves (.flEnq e) s e 0x10 6 op 0 0 fun u =>
         u.fab = d.fab ∧ u.get (R.DROP.COUNT (c - 1)) = min (2 ^ 32 - 1) (d.get (R.DROP.COUNT (c - 1)) + 1)))) ∧
  (∀ (e : EngId) (op : Nat) (s : State), s.dev.clean .flow →
    let d := s.dev
    let c := min 6 (op % 8)
    let fill := d.get (R.PUNT_STATUS.FILL c)
    let rd := (Tbl.get (0, 0) d.fab.rings c).2
    let popped (u : Dev) := u.get (R.PUNT_STATUS.FILL c) = fill - 1 ∧
      (Tbl.get (0, 0) u.fab.rings c).2 = (rd + 1) % 2 ^ d.get (R.PUNT_CFG.SIZE_EXP c)
    let h := op % 2 ^ 20
    let held := (Tbl.get Held.none d.fab.held h).st = 1
    let cells := d.frameCells h 64
    let q := op / 2 ^ 32 % 64
    (d.fabTest = false →
      (0 < fill → Serves (.puntPop e) s e 0x11 0 op 0 rd popped) ∧
      (fill = 0 → d.fabMode = 1 → Serves (.puntPop e) s e 0x11 0 op 1 0 fun u => u.fab = d.fab) ∧
      (fill = 0 → d.fabMode ≠ 1 → d.Asks e 0x11 0 op → d.req e 0x11 0 .taken = none → Gives (.puntPop e) s fun t =>
        (∃ r, t.dev.req e 0x11 0 .taken = some r ∧ r.op.toNat = op) ∧ t.dev.fab = d.fab ∧ t.dev.regs = d.regs) ∧
      (∀ r, d.req e 0x11 0 .taken = some r → r.op.toNat = op → 0 < fill → Gives (.puntPopComplete e) s fun t =>
        Answered d t.dev e 0x11 0 .taken 0 rd ∧ popped t.dev) ∧
      (fill = 0 → ∀ r, d.req e 0x11 0 .taken = some r → r.op.toNat = op → Makes (.puntPopComplete e) s d)) ∧
    (¬ held → d.Asks e 0x11 1 op → Gives (.puntDispose e) s fun t => t.dev.fab = d.fab ∧
      ∃ st, st ≤ 10 ∧ Answered d t.dev e 0x11 1 .sent st 0) ∧
    (held →
      (op / 2 ^ 20 % 8 = 0 → Serves (.puntDispose e) s e 0x11 1 op 0 0 fun u =>
        (Tbl.get Held.none u.fab.held h).st = 0 ∧ ∀ k, k ∈ cells → Tbl.get 0 u.fab.cls k = 0) ∧
      (∀ f, op / 2 ^ 32 % 2 ^ 20 = f → op / 2 ^ 20 % 8 = 1 ∨ op / 2 ^ 20 % 8 = 2 →
        let x := d.peekCtx f
        let two := op / 2 ^ 20 % 8 = 2
        (x.valid = false → Serves (.puntDispose e) s e 0x11 1 op 5 0 fun u => u.fab = d.fab) ∧
        (x.valid = true → two → x.state ≠ 2 → Serves (.puntDispose e) s e 0x11 1 op 6 0 fun u => u.fab = d.fab) ∧
        (x.valid = true → (two → x.state = 2 ∧ d.barredPath f = none) → (¬ two → d.fate f x cells.length = .link) →
          x.onchip + cells.length < 2 ^ 21 → Serves (.puntDispose e) s e 0x11 1 op 0 0 fun u =>
            let y := u.peekCtx f
            (Tbl.get Held.none u.fab.held h).st = 0 ∧ (two ∨ x.onchip = 0 → y.head = h) ∧ y.onchip = x.onchip + cells.length ∧
              y.pkts = min (2 ^ 64 - 1) (x.pkts + 1) ∧ y.state = x.state)) ∧
      (3 ≤ op / 2 ^ 20 % 8 →
        let takes := d.on (R.Q_CTRL.EN q) = true ∧ d.on (R.Q_CTRL.DIR q) = false ∧ (d.qp q).hold.length < d.get (R.Q_CTRL.HOLD_LIM q)
        (takes → Serves (.puntDispose e) s e 0x11 1 op 0 0 fun u =>
          (u.qp q).hold = (d.qp q).hold ++ [h] ∧ (Tbl.get Held.none u.fab.held h).st = 2 + q) ∧
        (¬ takes → Serves (.puntDispose e) s e 0x11 1 op 0 0 fun u =>
          (Tbl.get Held.none u.fab.held h).st = 0 ∧ (u.qp q).hold = (d.qp q).hold))))

/-- R175 to R181: the scheduler: a decision queues the frame picked for egress; an aged child joins the tail of band 0; a commit keeps a pending copy that becomes active at
the boundary; a record is read and written, the staged fields apart, by engines and through the window. -/
def Obligations.Scheduling : Prop :=
  ∀ (e : EngId) (op i now v0 : Nat) (lvl : Fin 4) (p : Oct) (sl : Slot) (src : Src) (v : BitVec 32) (s : State),
    s.dev.clean .flow → s.dev.clean .shared →
    let d := s.dev
    let port := 8 * p.val + sl.val
    let d1 := d.toCycle now
    let n := d1.node lvl i
    let up := d1.node (lvl - 1) n.parent
    let rec_ (l k : Nat) (st : Bool) := (d.nodeRecord l k st)
    let w (k : Nat) := leNat (((d.block e op 4).drop (4 * k)).take 4)
    (d.awake 32 = true →
      (d1.pickPort d1.fab.cyc port = none → ∀ b, Makes (.schedulerDecision p sl now b) s d1) ∧
      (∀ pick x, d1.pickPort d1.fab.cyc port = some (pick, x) → (d.peekCtx pick.flow).valid = true →
        (Gives (.schedulerDecision p sl now false) s fun t =>
          ∃ fr, Tbl.get [] t.dev.fab.egr port = Tbl.get [] x.fab.egr port ++ [fr] ∧ fr.flow = pick.flow ∧ fr.first = pick.cells.headD 0 ∧
            fr.cells = pick.cells.length ∧ fr.chg = pick.len ∧ fr.ct = fr.open_ ∧ fr.open_ = (d.openOf pick.flow).isSome) ∧
        Gives (.schedulerDecision p sl now true) s fun t =>
          (pick.flow < 2 ^ 20 → (t.dev.peekCtx pick.flow).onchip = 0) ∧ Tbl.get [] t.dev.fab.egr port = Tbl.get [] d.fab.egr port ∧
            t.dev.get (R.DROP.COUNT 14) = min (2 ^ 32 - 1) (d.get (R.DROP.COUNT 14) + 1) ∧ bit (t.dev.get R.DEV_EVT.EVT) 0 = true) ∧
      (i < 2 ^ 20 →
        let ages := 1 ≤ lvl.val ∧ n.band ≠ 0 ∧ n.promoted = false ∧ up.age ≠ 0 ∧ up.age * 1600 ≤ n.aged ∧ d1.eligible d1.fab.cyc lvl i = true
        (ages → n.parent < 2 ^ 18 → up.kids.length = 4 → Gives (.agePromotion lvl (BitVec.ofNat 20 i) now) s fun t =>
          (t.dev.node lvl i).promoted = true ∧ ∃ l, (t.dev.node (lvl - 1) n.parent).kids.getD 0 [] = l ++ [i]) ∧
        (¬ ages → Makes (.agePromotion lvl (BitVec.ofNat 20 i) now) s d1)) ∧
      (∀ j : BitVec 18, ∀ l : Fin 3,
        (∀ qb age kids, (d.node l j.toNat).pend = some (qb, age, kids) → d.atBoundary l j.toNat = true → Gives (.schedChamberBoundary l j) s fun t =>
          (t.dev.node l j.toNat).qb = qb ∧ (t.dev.node l j.toNat).age = age ∧ (t.dev.node l j.toNat).pend = none) ∧
        (d.atBoundary l j.toNat = false → Makes (.schedChamberBoundary l j) s d)) ∧
      (∀ a data, d.fab.ind = some (a, data) →
        (bit a 30 = false → Gives .schedIndDone s fun t =>
          t.dev.on R.SCHED_IND_STATUS.BUSY = false ∧ t.dev.get R.SCHED_IND_STATUS.RESULT = 0 ∧ t.dev.fab.ind = none ∧
            t.dev.reg A.SCHED_DATA1 = (rec_ (getBits a 21 20) (getBits a 19 0) (bit a 29)).getD 1 0 % 2 ^ 32) ∧
        (bit a 30 = true → Gives .schedIndDone s fun t =>
          t.dev.on R.SCHED_IND_STATUS.BUSY = false ∧ t.dev.get R.SCHED_IND_STATUS.RESULT = (d.nodeWrite (getBits a 21 20) (getBits a 19 0) data).1 ∧
            t.dev.fab.ind = none)) ∧
      (d.fab.ind = none → Makes .schedIndDone s d)) ∧
    (let l := min 2 (op / 2 ^ 20 % 4)
      let k := clampIndex l (op % 2 ^ 18)
      let y := d.node l k
      (d.nodeValid l k = true → Serves (.schedCommit (.chan e)) s e 0x12 2 op 0 0 fun u =>
        ∃ kids, (u.node l k).pend = some (y.sQb, y.sAge, kids) ∧ (u.node l k).qb = y.qb) ∧
      (d.nodeValid l k = false → Serves (.schedCommit (.chan e)) s e 0x12 2 op 8 0 fun u => u.fab = d.fab)) ∧
    (d.barred A.SCHED_COMMIT = none →
      let l := min 2 (getBits v.toNat 21 20)
      let k := clampIndex l (getBits v.toNat 17 0)
      let y := d.node l k
      (bit v.toNat 31 = true → d.nodeValid l k = true → Gives (.schedCommit (.reg src v)) s fun t =>
        ∃ kids, (t.dev.node l k).pend = some (y.sQb, y.sAge, kids) ∧ (t.dev.node l k).qb = y.qb) ∧
      (bit v.toNat 31 = false ∨ d.nodeValid l k = false → Gives (.schedCommit (.reg src v)) s fun t => t.dev.fab = d.fab)) ∧
    (let l := op / 2 ^ 20 % 4
      let k := clampIndex l (op % 2 ^ 20)
      (∀ j, j < 7 → (rec_ l k (bit op 29)).getD j 0 < 2 ^ 32) → Serves (.schedRead e) s e 0x12 0 op 0 0 fun u => ∀ j, j < 7 →
        leNat (u.sharedS.bytes (8 * (524288 * (e / 8)) + op / 2 ^ 42 / 64 * 64 + 4 * j) 4) = (rec_ l k (bit op 29)).getD j 0) ∧
    (let l := w 0 / 2 ^ 20 % 4
      let k := clampIndex l (w 0 % 2 ^ 20)
      let o := d.node l k
      let parent := clampIndex (l - 1) (v0 % 2 ^ 18)
      let rate := max 1000 (min 3200000000 (w 2))
      w 1 = v0 →
        (if l = 0 then d.nodeValid 0 k = true else o.valid = true ∧ parent = o.parent ∧ (l = 3 ∨ bit v0 31 = true)) →
          Serves (.schedWrite e) s e 0x12 1 op 0 0 fun u =>
            let y := u.node l k
            y.rate = (if l = 0 then min rate (d.portRateMax k) else rate) ∧ y.shape = bit (w 3) 31 ∧ y.burst = max 1 (getBits (w 3) 23 8) ∧
            (l ≠ 0 → y.sBand = getBits v0 30 29 ∧ y.sWeight = max 1 (getBits v0 28 18)) ∧ y.band = o.band ∧ y.weight = o.weight ∧
            y.qb = o.qb ∧ y.deficit = o.deficit ∧ y.valid = o.valid) ∧
    (let l := w 0 / 2 ^ 20 % 4
      let k := clampIndex l (w 0 % 2 ^ 20)
      let parent := clampIndex (l - 1) (w 1 % 2 ^ 18)
      let moves := l ≠ 0 ∧ parent ≠ (d.node l k).parent
      (moves ∧ d.backlog l k = true → Serves (.schedWrite e) s e 0x12 1 op 7 0 fun u => u.fab = d.fab) ∧
      (l = 0 ∧ d.nodeValid 0 k = false ∨ moves ∧ d.backlog l k = false ∧ d.nodeValid (l - 1) parent = false →
        Serves (.schedWrite e) s e 0x12 1 op 8 0 fun u => u.fab = d.fab)) ∧
    (d.barred A.SCHED_IND = none →
      (bit v.toNat 31 = true → d.on R.SCHED_IND_STATUS.BUSY = false → Gives (.schedIndAccess src v) s fun t =>
        t.dev.on R.SCHED_IND_STATUS.BUSY = true ∧ t.dev.get R.SCHED_IND.LEVEL = getBits v.toNat 21 20 ∧ ∃ a l, t.dev.fab.ind = some (a, l) ∧
          bit a 30 = bit v.toNat 30 ∧ l = [d.reg A.SCHED_DATA0, d.reg A.SCHED_DATA1, d.reg A.SCHED_DATA2, d.reg A.SCHED_DATA3, d.reg A.SCHED_DATA4]) ∧
      (bit v.toNat 31 = false ∨ d.on R.SCHED_IND_STATUS.BUSY = true → Gives (.schedIndAccess src v) s fun t => t.dev.fab = d.fab))

/-- R149, R156, R160, R165, R177, R184, R185: frames through the fabric: a frame of a flow that is linked counts in its context and takes cells; a short one, one in START, and one
without a flow's path are dropped with their cause; a delivered frame carries its data and FCS; a port not UP is flushed; a late lookup counts its stall. -/
def Obligations.Frames : Prop :=
  ∀ (o : Oct) (p lane : Slot) (k wait : Nat) (fr : RxFrame) (f : Nat) (x : Ctx) (s : State), s.dev.clean .flow → s.dev.clean .cell →
    let d := s.dev
    let port := 8 * o.val + p.val
    let parsed := parseFrame fr.bytes
    let n := (fr.bytes.length + 255) / 256
    let sat (b v : Nat) := min (2 ^ b - 1) v
    let ctl := d.isControl parsed fr.bytes
    let h := d.hashes (keyRecord fr.bytes parsed port (d.get (R.PORT_CFG.KEY_SEL port)))
    let hit := ((d.lookup h).1.map fun g => (g, d.peekCtx g)).filter (·.2.valid)
    let cls := if x.ctrlClass || ctl then 1 else 0
    let sound := fr.cut = false ∧ (∀ c ∈ (d.pt o p).badCw, c < fr.cw.1 ∨ fr.cw.2 < c) ∧ fcsOk fr.bytes = true
    let drop (c : Nat) (t : State) := t.dev.get (R.DROP.COUNT (c - 1)) = sat 32 (d.get (R.DROP.COUNT (c - 1)) + 1) ∧ t.dev.flowS = d.flowS ∧
      t.dev.fab = d.fab
    (d.awake 32 = true → d.awake o = true →
      (wait ≤ 8 → Makes (.lookupServe o wait) s d) ∧
      (8 < wait → Gives (.lookupServe o wait) s fun t =>
        t.dev.get R.FL_OVERRUN.COUNT = sat 32 (d.get R.FL_OVERRUN.COUNT + (wait - 8)) ∧ RegsOnly { d with ctr := t.dev.ctr } t.dev [A.FL_OVERRUN]) ∧
      (d.nodeValid 0 port = true → fr.badBank = none → fr.done = true → d.rxOpen port = none →
        (fr.full = true → Gives (.frameIngress o p fr) s (drop 18)) ∧
        (fr.full = false → d.fabMode = 0 → Gives (.frameIngress o p fr) s (drop 5)) ∧
        (fr.full = false → (d.fabMode = 1 ∨ d.fabMode = 3) → fr.bytes.length < 64 → Gives (.frameIngress o p fr) s (drop 1)) ∧
        (fr.full = false → (d.fabMode = 1 ∨ d.fabMode = 3) → 64 ≤ fr.bytes.length → fr.bytes.length ≤ d.get (R.PORT_CTRL.MAX_FRAME o) →
          (d.route port ctl parsed hit = .dropped → Gives (.frameIngress o p fr) s (drop 10)) ∧
          (d.route port ctl parsed hit = .flow f x → f < 2 ^ 20 →
            (∀ c q, d.fate f x n = .drop c q → Gives (.frameIngress o p fr) s (drop c)) ∧
            (d.fate f x n = .link → (d.allocCells cls n).1.length < n → Gives (.frameIngress o p fr) s fun t =>
              t.dev.flowS = d.flowS ∧ t.dev.get (R.DROP.COUNT 5) = sat 32 (d.get (R.DROP.COUNT 5) + 1)) ∧
            (sound → x.onchip + n < 2 ^ 21 → d.fate f x n = .link → (d.allocCells cls n).1.length = n →
              Gives (.frameIngress o p fr) s fun t =>
                let y := t.dev.peekCtx f
                y.pkts = sat 64 (x.pkts + 1) ∧ y.bytes = sat 64 (x.bytes + fr.bytes.length) ∧ y.onchip = x.onchip + n ∧ y.ctrl = x.ctrl ∧
                  ∀ g, g ≠ f → t.dev.peekCtx g = d.peekCtx g)) ∧
          (∀ r c, d.route port ctl parsed hit = .punt r → d.puntRing h.1 = some (c, false) → d.on (R.PUNT_CFG.EN c) = true →
            d.ringFill c < d.ringSize c → sound →
              ∀ cells, (d.storeFrame (if ctl || hit.any (·.2.ctrlClass) then 1 else 0) fr.bytes).1 = some cells →
                Gives (.frameIngress o p fr) s fun t =>
                  (Tbl.get Held.none t.dev.fab.held (cells.headD 0)).st = 1 ∧ t.dev.ringFill c = d.ringFill c + 1 ∧ t.dev.flowS = d.flowS))) ∧
      (d.nodeValid 0 port = true → fr.badBank = none → fr.done = false →
        (fr.full = true ∨ d.fabMode = 0 ∨ (d.rxOpen port).isSome = true → Makes (.frameIngress o p fr) s d) ∧
        (fr.full = false → (d.fabMode = 1 ∨ d.fabMode = 3) → d.rxOpen port = none → fr.bytes.length = 256 →
          d.route port ctl parsed hit = .flow f x → f < 2 ^ 20 → d.qualifies port f x parsed = true → d.fate f x 1 = .link →
            (d.allocCells cls 1).1.length = 1 → Gives (.frameIngress o p fr) s fun t =>
              (t.dev.peekCtx f).onchip = 1 ∧ ∃ r, t.dev.rxOpen port = some r ∧ r.flow = f ∧ r.cells = 1 ∧ r.sel = false ∧
                r.chg = max 64 (parsed.l3Off + parsed.l3Len + 4))) ∧
      (d.nodeValid 0 port = true → fr.badBank = none → fr.done = true → ∀ r, d.rxOpen port = some r → r.dead = false → r.flow = f → f < 2 ^ 20 →
        x = d.peekCtx f → x.valid = true → sound → fr.bytes.length ≤ r.max → r.sel = false → x.onchip + (fr.bytes.length - 256 + 255) / 256 < 2 ^ 21 →
          ∀ cells, (d.storeFrame (descClass (d.desc r.first)) (fr.bytes.drop 256)).1 = some cells → Gives (.frameIngress o p fr) s fun t =>
            let y := t.dev.peekCtx f
            t.dev.rxOpen port = none ∧ y.onchip = x.onchip + cells.length ∧ y.pkts = sat 64 (x.pkts + 1) ∧
              y.bytes = sat 64 (x.bytes + fr.bytes.length))) ∧
    (d.awake 32 = true →
      (Tbl.get [] d.fab.egr port = [] → ∀ b, Makes (.frameEgress o p lane k b) s d) ∧
      (∀ g rest, Tbl.get [] d.fab.egr port = g :: rest →
        (g.open_ = true → ∀ b, Makes (.frameEgress o p lane k b) s d) ∧
        (g.open_ = false →
          let len := descLen (d.desc g.first)
          let cells := d.walk g.first g.cells
          let y := if (d.peekCtx g.flow).valid then d.peekCtx g.flow else {}
          let sent (t : State) (l : List Byte) := Tbl.get [] t.dev.fab.egr port = rest ∧ Tbl.get [] t.dev.fab.sent port = l ∧ t.dev.flowS = d.flowS ∧
            t.dev.count (Ctr.port port 2) = BitVec.ofNat 64 (sat 64 ((d.count (Ctr.port port 2)).toNat + 1))
          (cells.any (fun c => bit (d.link c) 21) = false → Gives (.frameEgress o p lane k none) s fun t =>
            let body := editFrame y.edit y.tci (((d.frameData cells len).1).take (len - 4))
            sent t (body ++ bytesLE (fcsOf body) 4)) ∧
          (cells.any (fun c => bit (d.link c) 21) = true → Gives (.frameEgress o p lane k none) s fun t =>
            let body := editFrame y.edit y.tci (d.frameData cells (256 * g.cells)).1
            sent t (body ++ bytesLE (2 ^ 32 - 1 - fcsOf body) 4) ∧ t.dev.get R.CT_STOMP.COUNT = sat 32 (d.get R.CT_STOMP.COUNT + 1))))) ∧
    (d.awake 32 = true → d.nodeValid 0 port = true → ∀ b,
      ((d.p o).test = true ∨ d.portUp o p = false → Gives (.portFlush o ⟨p, b⟩) s fun t =>
        ((d.p o).test = false → port ∈ t.dev.fab.flushed) ∧ (f ∈ d.flowsBelow port → f < 2 ^ 20 → (d.peekCtx f).valid = true →
          (t.dev.peekCtx f).onchip = 0 ∧ (t.dev.peekCtx f).sCount = 0 ∧ (t.dev.peekCtx f).state = (d.peekCtx f).state)) ∧
      ((d.p o).test = false → d.portUp o p = true → Makes (.portFlush o ⟨p, b⟩) s d))

/-- R155, R162, R171 to R173, R183: the pool, the spillway and the gauge marks: a sweep starts once and ends with the count of cells freed; HASH_KEY is written only with no
valid flow; the spill writer waits for the DRAM, and with it moves the oldest staged frame; a mark crosses up at its level and down below its hysteresis. -/
def Obligations.PoolSpillGauge : Prop :=
  ∀ (src : Src) (v : BitVec 32) (w : Fin 8) (g : Fin 64) (wait f : Nat) (slu : List Nat) (s : State), s.dev.clean .flow → s.dev.clean .cell →
    let d := s.dev
    let lvl := d.get (R.GAUGE_LVL.LEVEL g)
    let val := d.gaugeValue g
    let above := d.on (R.GAUGE_STAT.ABOVE g)
    (d.barred A.FL_CTRL = none → Gives (.reclaimStart src v) s fun t =>
      t.dev.on R.FL_STATUS.RECLAIM_BUSY = true ∧ t.dev.on R.FL_CTRL.RUN = bit v.toNat 0 ∧
        (d.on R.FL_STATUS.RECLAIM_BUSY = true → t.dev.fab = d.fab)) ∧
    (d.barred (A.HASH_KEY w) = none → Gives (.hashKeyWrite src w v) s fun t =>
      if d.get R.FL_STATUS.FLOWS = 0 then t.dev.reg (A.HASH_KEY w) = v.toNat ∧ RegsOnly d t.dev [A.HASH_KEY w]
      else t.dev.on R.FL_STATUS.KEY_LOCKED = true ∧ t.dev.reg (A.HASH_KEY w) = d.reg (A.HASH_KEY w) ∧ RegsOnly d t.dev [A.FL_STATUS]) ∧
    (d.awake 32 = true →
      (d.on R.FL_STATUS.RECLAIM_BUSY = true → Gives .reclaimDone s fun t =>
        t.dev.on R.FL_STATUS.RECLAIM_BUSY = false ∧ bit (t.dev.get R.DEV_EVT.EVT) 1 = true ∧
          t.dev.get R.RECLAIM_RESULT.CELLS = (((d.fab.cls.map (·.1)).filter fun c => !d.reachable.contains c).length
            + d.fab.banks.foldl (fun n b => n + b.2.lostCells) 0) % 2 ^ 21 ∧
          ∀ c, c ∈ d.reachable → Tbl.get 0 t.dev.fab.cls c = Tbl.get 0 d.fab.cls c) ∧
      (d.on R.FL_STATUS.RECLAIM_BUSY = false → Makes .reclaimDone s d) ∧
      (d.fab.stage = [] → ∀ chm, Makes (.spillWrite ⟨wait, chm, slu⟩) s d) ∧
      (∀ c n rest, d.fab.stage = (f, c, n) :: rest →
        (d.dramActive = false → ∀ chm, Gives (.spillWrite ⟨wait, chm, slu⟩) s fun t =>
          t.dev.fab.stage = d.fab.stage ∧ t.dev.get R.SPILL_WAIT.COUNT = min (2 ^ 32 - 1) (d.get R.SPILL_WAIT.COUNT + wait) ∧
            (d.polder 47 = 1 → t.dev.polder 47 = 4)) ∧
        (d.clean .dram → d.dramActive = true → f < 2 ^ 20 →
          let x := d.peekCtx f
          (x.valid = false → ∀ chm, Gives (.spillWrite ⟨wait, chm, slu⟩) s fun t => t.dev.fab.stage = rest ∧ t.dev.flowS = d.flowS) ∧
          (x.valid = true → x.newChunks n ≤ d.get R.SPILL_CHUNKS.FREE → x.sCount + n < 2 ^ 28 → Gives (.spillWrite ⟨wait, [], slu⟩) s fun t =>
            t.dev.fab.stage = rest ∧ (t.dev.peekCtx f).sCount = x.sCount + n ∧
              t.dev.get R.SPILL_STATUS.CELLS = (d.get R.SPILL_STATUS.CELLS + n) % 2 ^ 28 ∧ (t.dev.peekCtx f).onchip = x.onchip) ∧
          (x.valid = true → d.get R.SPILL_CHUNKS.FREE < x.newChunks n → Gives (.spillWrite ⟨wait, [], slu⟩) s fun t =>
            t.dev.fab.stage = rest ∧ (t.dev.peekCtx f).sCount = x.sCount ∧
              t.dev.get (R.DROP.COUNT 6) = min (2 ^ 32 - 1) (d.get (R.DROP.COUNT 6) + 1)))) ∧
      (d.clean .dram → d.dramActive = true → f < 2 ^ 20 → d.fab.fetchQ.head? = some f → (d.peekCtx f).valid = true →
        let x := d.peekCtx f
        let n := min (15 - x.sHead % 16) x.sCount
        (x.wants = true → x.sHead % 16 < 15 → (d.allocCells 3 n).1.length = n →
          Gives (.spillFetch ⟨BitVec.ofNat 20 f, slu⟩) s fun t =>
            (t.dev.peekCtx f).onchip = x.onchip + n ∧ (t.dev.peekCtx f).sCount = x.sCount - n ∧
              t.dev.get R.SPILL_STATUS.CELLS = d.get R.SPILL_STATUS.CELLS - n) ∧
        (x.wants = false → Gives (.spillFetch ⟨BitVec.ofNat 20 f, slu⟩) s fun t =>
          t.dev.fab.fetchQ = d.fab.fetchQ.filter (· != f) ∧ t.dev.flowS = d.flowS)) ∧
      (f < 2 ^ 20 → d.fab.fetchQ.head? ≠ some f ∨ d.dramActive = false → Makes (.spillFetch ⟨BitVec.ofNat 20 f, slu⟩) s d) ∧
      (d.on (R.GAUGE_SRC.EN g) = false → Makes (.gaugeCrossing g) s d) ∧
      (d.on (R.GAUGE_SRC.EN g) = true →
        (above = false → lvl ≤ val → Gives (.gaugeCrossing g) s fun t =>
          t.dev.on (R.GAUGE_STAT.ABOVE g) = true ∧ t.dev.on (R.GAUGE_STAT.CROSSED_UP g) = true ∧
            t.dev.get (R.GAUGE_STAT.COUNT g) = min 65535 (d.get (R.GAUGE_STAT.COUNT g) + 1) ∧ RegsOnly d t.dev [A.GAUGE_STAT g]) ∧
        (above = true → val + 2 ^ d.get (R.GAUGE_SRC.HYST_EXP g) < lvl → Gives (.gaugeCrossing g) s fun t =>
          t.dev.on (R.GAUGE_STAT.ABOVE g) = false ∧ t.dev.on (R.GAUGE_STAT.CROSSED_DOWN g) = true ∧
            t.dev.get (R.GAUGE_STAT.COUNT g) = d.get (R.GAUGE_STAT.COUNT g) ∧ RegsOnly d t.dev [A.GAUGE_STAT g])))

/-! Photonic loops and analog edge (spec/08, spec/09). -/

/-- R231, R233, R246, R251: a write to a loop register waits, in the order of arrival, for the next tick, and so does a request of the octet's keeper or of a
warden; an access to RC_DATA names the word at RC_ADDR, which goes on by one at once. -/
def Obligations.LoopCommands : Prop :=
  ∀ (src : Src) (e : EngId) (o : Oct) (j : Fin 20) (v : BitVec 32) (op : Nat) (s : State),
    let d := s.dev
    let w := d.w o
    let a := d.get (R.RC_ADDR.ADDR o)
    let Waits (c : Instr) (addr off x : Nat) : Prop := d.barred addr = none → Makes c s (d.onW o fun w => { w with ops := w.ops ++ [.reg off x] })
    let Asked (c : Instr) (k : Nat) : Prop :=
      let ch := weirChan e o
      e.val = 56 + o ∨ 88 ≤ e.val → d.Asks e ch k op → d.req e ch k .taken = none → Gives c s fun t =>
        (t.dev.w o).ops = w.ops ++ [.req e ch k op] ∧ (∃ r, t.dev.req e ch k .taken = some r ∧ r.op.toNat = op) ∧ t.dev.regs = d.regs ∧
          t.dev.loop = d.loop
    Waits (.modeSet src o v) (A.MODE_SET o) 0x10 v.toNat ∧
    Waits (.lCtrlWrite src o j v) (A.L_CTRL o j) (0x100 + 0x80 * j) v.toNat ∧
    Waits (.dwInit src o j v) (A.L_CTRL o j) (0x100 + 0x80 * j) (v ||| 0x80000#32).toNat ∧
    Waits (.targetWrite src o j v) (A.TARGET o j) (0x108 + 0x80 * j) v.toNat ∧
    Waits (.integLoStage src o j v) (A.INTEG_LO o j) (0x170 + 0x80 * j) v.toNat ∧
    Waits (.integPreset src o j v) (A.INTEG_HI o j) (0x174 + 0x80 * j) v.toNat ∧
    (d.barred (A.RC_DATA o) = none →
      (Gives (.rcDataRead src o) s fun t =>
        Tbl.get 0 t.dev.reads (srcKey src) = BitVec.ofInt 32 (Tbl.get 0 w.mem a) ∧ t.dev.get (R.RC_ADDR.ADDR o) = (a + 1) % 32768 ∧
          RegsOnly { d with reads := t.dev.reads } t.dev [A.RC_ADDR o]) ∧
      Gives (.rcDataWrite src o v) s fun t =>
        (t.dev.w o).ops = w.ops ++ [.mem a v.toNat] ∧ (t.dev.w o).mem = w.mem ∧ t.dev.get (R.RC_ADDR.ADDR o) = (a + 1) % 32768 ∧
          RegsOnly { d with weir := t.dev.weir } t.dev [A.RC_ADDR o]) ∧
    Asked (.weirSnap e o) 0 ∧ Asked (.weirMode e o) 1 ∧ Asked (.weirTarget e o) 2 ∧ Asked (.weirPreset e o) 3 ∧ Asked (.rcClear e o) 4

/-- R231, R232, R235 to R242, R251: a tick is numbered and takes up what waits; a loop that is not due keeps its state; in MANUAL the output moves to MAN_OUT by at most
MAN_RATE; in AUTO with the target at rest the control law gives the integrator and the output; a loop in AUTO whose input is invalid enters HOLD; a request is answered
with TICK once the loops it names have been sampled. The dike watch and the repetitive controller are off in the clauses on one loop. -/
def Obligations.LoopTick : Prop :=
  ∀ (o : Oct) (ins : List (List (BitVec 14))) (j : Fin 20) (s : State), s.dev.awake o = true →
    let d := s.dev
    let w := d.w o
    let n := w.tick
    let x := d.lp o j
    let g (f : Nat → Nat → Fld) : Int := d.get (f o j)
    let Tick (p : State → Prop) : Prop := d.polder o ≠ 3 → Gives (.weirTick o ins) s p
    let alone := w.ops = [] ∧ d.due o j n = true ∧ d.on (R.L_CTRL.DW_EN o j) = false ∧ x.dwOff = false ∧ x.preset = none
    let y := (d.edgeTick o ins).measure o j
    (d.polder o = 3 → Makes (.weirTick o ins) s d) ∧
    (Tick fun t => (t.dev.w o).tick = (n + 1) % 2 ^ 32 ∧ t.dev.reg (A.TICK o) = n % 2 ^ 32 ∧ (t.dev.w o).ops = [] ∧
      (t.dev.w o).period = t.dev.get (R.WEIR_CTRL.DIV o) ∧ (t.dev.w o).drive = t.dev.reg (A.AE_OUT_CTRL o) % 2 ^ 20) ∧
    (w.ops = [] → d.due o j n = false → Tick fun t => t.dev.lp o j = x ∧ t.dev.reg (A.OUTPUT o j) = d.reg (A.OUTPUT o j) ∧
      t.dev.reg (A.L_STATUS o j) = d.reg (A.L_STATUS o j) ∧ Tbl.get 0 (t.dev.w o).code j = Tbl.get 0 w.code j) ∧
    (alone → d.lmode o j = 0 → d.get (R.L_CTRL.MODE o j) = 0 → Tick fun t =>
      let z := t.dev.lp o j
      z.i = x.i ∧ (d.on (R.L_CTRL.RC_EN o j) = false → z.q = 0) ∧ t.dev.lmode o j = 0 ∧ t.dev.reg (A.OUTPUT o j) = z.o % 2 ^ 32 ∧
        (z.o : Int) = x.o + clampI (-g R.MAN_RATE.VAL) (g R.MAN_RATE.VAL) (g R.MAN_OUT.VAL - x.o)) ∧
    (alone → d.lmode o j = 1 → y = none → Tick fun t =>
      t.dev.lmode o j = 2 ∧ t.dev.get (R.L_CTRL.MODE o j) = 2 ∧ t.dev.get (R.L_STATUS.CAUSE o j) = 2 ∧ t.dev.on (R.L_STATUS.HWMODE o j) = true ∧
        t.dev.on (R.L_STATUS.INPUT_BAD o j) = true ∧ t.dev.on (R.L_STATUS.LOCK o j) = false ∧ (t.dev.lp o j).o = x.o ∧ (t.dev.lp o j).i = x.i) ∧
    (∀ m, alone → d.lmode o j = 1 → d.get (R.L_CTRL.MODE o j) = 1 → y = some m → d.on (R.L_CTRL.RC_EN o j) = false →
      d.on (R.L_CTRL.BUMPLESS o j) = false → x.r = d.getI (R.TARGET.T o j) * 256 → x.v = 0 → Tick fun t =>
        let z := t.dev.lp o j
        let sg : Int := if d.on (R.L_CTRL.DIR o j) then -1 else 1
        let e := clampI (-8388608) 8388607 (sg * (d.getI (R.TARGET.T o j) - m))
        let p := rsh (g R.KP.M * e) (d.get (R.KP.E o j))
        let v := x.w + rsh (sg * (x.y - m) * 256 - x.w) (d.get (R.KD.DF o j))
        let dd := rsh (g R.KD.M * v) (d.get (R.KD.E o j) + 8)
        let di := rsh (g R.KI.M * e) (d.get (R.KI.E o j))
        let lo := g R.OUT_LO.VAL
        let hi := if j.val < 16 then min (g R.OUT_HI.VAL) (d.get (R.COMPL.LIMIT (d.get (R.CAP.BAND o)))) else g R.OUT_HI.VAL
        let sum := x.i + di + p + dd
        let lost := (hi * 256 < sum ∧ 0 < di) ∨ (sum < lo * 256 ∧ di < 0)
        z.e = e ∧ z.w = v ∧ z.y = m ∧ z.q = 0 ∧ t.dev.lmode o j = 1 ∧
          z.i = clampI (g R.I_LO.VAL * 256) (g R.I_HI.VAL * 256) (if lost then x.i else x.i + di) ∧
          (z.o : Int) = clampI lo hi (rsh (z.i + p + dd) 8) ∧
          (16 ≤ j.val → Tbl.get 0 (t.dev.w o).code j = min 65535 ((z.o + 128) / 256))) ∧
    (∀ v, w.ops = [.reg 0x10 v] → getBits v 31 30 = 0 → bit v 29 = true → bit v j = true → Tick fun t =>
      t.dev.get (R.MAN_OUT.VAL o j) = d.get (R.PARK.VAL o j)) ∧
    (∀ (e : EngId) ch k op, w.ops = [.req e ch k op] → w.owed = [] → (∀ r, d.req e ch k .taken = some r → r.op.toNat = op) →
      ((∀ l ∈ reqLoops k op, d.due o l n = true) → Tick fun t => Answered d t.dev e ch k .taken 0 (n % 2 ^ 32) ∧ (t.dev.w o).owed = []) ∧
      ((∃ l ∈ reqLoops k op, d.due o l n = false) → Tick fun t => (t.dev.e e).reqs = (d.e e).reqs ∧
        (t.dev.w o).owed = [(e.val, ch, k, op, (reqLoops k op).filter fun l => !d.due o l n)]) ∧
      (k = 2 → min 19 (op % 32) = j.val → Tick fun t => t.dev.get (R.TARGET.T o j) = op / 2 ^ 40 % 2 ^ 24))

/-- R256 to R260, R262, R264, R267, R268: the analog edge: a scan starts and stops; the mode, the mask, a chain's configuration and the reference clear the chains they
touch; the reference settles or fails; an output switched off stops at once; dropouts are held; a calibration is refused or run and writes its coefficients. -/
def Obligations.AnalogEdge : Prop :=
  ∀ (src : Src) (o : Oct) (i : Fin 20) (h : Fin 16) (v : BitVec 32) (range : Bool) (z f : Int) (s : State),
    let d := s.dev
    let w := d.w o
    let nv := v.toNat
    let none_ (t : State) : Prop := t.dev.get (R.AE_STATUS.VALID o) = 0 ∧ ∀ k : Fin 20, t.dev.reg (A.CH_VALUE o k) = 0
    let valid (x : Dev) (k : Nat) : Bool := bit (x.get (R.AE_STATUS.VALID o)) k
    let count (m : Nat) : Nat := (List.range 20).countP (bit m)
    let ref := d.get (R.AE_CTRL.REF_SEL o)
    let result (x : Dev) := x.get (R.AE_STATUS.RESULT o)
    (d.barred (A.AE_CTRL o) = none →
      (d.on (R.AE_CTRL.SCAN_EN o) = false → w.cal = false → Gives (.scanStart src o v) s fun t =>
        t.dev.on (R.AE_CTRL.SCAN_EN o) = true ∧ t.dev.on (R.AE_STATUS.SCANNING o) = decide (d.get (R.AE_SCAN_MASK.MASK o) ≠ 0) ∧ (t.dev.w o).scan = true ∧
          none_ t) ∧
      (d.on (R.AE_CTRL.SCAN_EN o) = false → w.cal = true → Gives (.scanStart src o v) s fun t =>
        (t.dev.w o).scanWait = true ∧ t.dev.on (R.AE_STATUS.SCANNING o) = d.on (R.AE_STATUS.SCANNING o)) ∧
      (d.on (R.AE_CTRL.SCAN_EN o) = true → Gives (.scanStop src o v) s fun t =>
        t.dev.on (R.AE_CTRL.SCAN_EN o) = false ∧ t.dev.on (R.AE_STATUS.SCANNING o) = false ∧ (t.dev.w o).scan = false ∧ none_ t) ∧
      (Gives (.scanModeChange src o v) s fun t => t.dev.on (R.AE_CTRL.MODE o) = !d.on (R.AE_CTRL.MODE o) ∧ none_ t) ∧
      (min 2 (getBits nv 25 24) ≠ ref → Gives (.refSelect src o v) s fun t =>
        t.dev.get (R.AE_CTRL.REF_SEL o) = min 2 (getBits nv 25 24) ∧ t.dev.on (R.AE_STATUS.REF_SETTLED o) = false ∧ none_ t ∧
          (w.cal = true → (t.dev.w o).cal = false ∧ result t.dev = 4))) ∧
    (d.barred (A.AE_SCAN_MASK o) = none → Gives (.scanMaskWrite src o v) s fun t =>
      let old := d.get (R.AE_SCAN_MASK.MASK o)
      t.dev.get (R.AE_SCAN_MASK.MASK o) = nv % 2 ^ 20 ∧ t.dev.on (R.AE_STATUS.SCANNING o) = (w.scan && decide (nv % 2 ^ 20 ≠ 0)) ∧
        valid t.dev i = (valid d i && decide (count old = count (nv % 2 ^ 20)) && (bit old i == bit nv i))) ∧
    (d.barred (A.CH_CFG o i) = none → Gives (.chainConfigWrite src o i v) s fun t =>
      valid t.dev i = false ∧ t.dev.reg (A.CH_VALUE o i) = 0 ∧ (t.dev.ch o i).n = 0 ∧ (t.dev.ch o i).cic = {} ∧ (t.dev.ch o i).hist = [] ∧
        t.dev.get (R.CH_CFG.RATIO o i) = max 1 (min 4096 (getBits nv 28 16)) ∧ t.dev.get (R.CH_CFG.AVG o i) = max 1 (min 4096 (getBits nv 12 0)) ∧
        (∀ k : Fin 20, k ≠ i → valid t.dev k = valid d k ∧ t.dev.ch o k = d.ch o k) ∧
        RegsOnly { d with chain := t.dev.chain } t.dev [A.CH_CFG o i, A.CH_VALUE o i, A.AE_STATUS o]) ∧
    (d.barred (A.AE_OUT_CTRL o) = none → Gives (.outputEnableWrite src o v) s fun t =>
      t.dev.reg (A.AE_OUT_CTRL o) = nv % 2 ^ 20 ∧ (t.dev.w o).drive = w.drive &&& (nv % 2 ^ 20) ∧ t.dev.loop = d.loop ∧
        RegsOnly { d with weir := t.dev.weir } t.dev [A.AE_OUT_CTRL o]) ∧
    (d.awake o = true →
      (d.on (R.AE_STATUS.REF_SETTLED o) = false →
        (Gives (.refSettled o) s fun t => t.dev.on (R.AE_STATUS.REF_SETTLED o) = true ∧ (t.dev.w o).refCut = d.arriveNow o ∧
          RegsOnly { d with weir := t.dev.weir } t.dev [A.AE_STATUS o]) ∧
        Gives (.refFail o) s fun t => t.dev.on (R.AE_STATUS.REF_FAIL o) = true ∧ t.dev.on (R.AE_STATUS.REF_SETTLED o) = false ∧
          RegsOnly d t.dev [A.AE_STATUS o]) ∧
      (d.on (R.AE_STATUS.REF_SETTLED o) = true → Makes (.refSettled o) s d ∧ Makes (.refFail o) s d) ∧
      (bit (d.get (R.AE_DROPOUT.LIVE o)) h = false → Gives (.heaterDropout o h) s fun t =>
        bit (t.dev.get (R.AE_DROPOUT.LIVE o)) h = true ∧ bit (t.dev.get (R.AE_DROPOUT.SEEN o)) h = true ∧
          RegsOnly (d.bump (6144 + 16 * o + 8)) t.dev [A.AE_DROPOUT o]) ∧
      (bit (d.get (R.AE_DROPOUT.LIVE o)) h = true → Makes (.heaterDropout o h) s d) ∧
      (Gives (.heaterRegulation o h) s fun t => bit (t.dev.get (R.AE_DROPOUT.LIVE o)) h = false ∧
        t.dev.get (R.AE_DROPOUT.SEEN o) = d.get (R.AE_DROPOUT.SEEN o) ∧ RegsOnly d t.dev [A.AE_DROPOUT o]) ∧
      (w.cal = false → Makes (.refCalDone o range z f) s d) ∧
      (w.cal = true →
        let passes := (range = true ∨ ref = 0) ∧ (z - 8192 * 1024).natAbs ≤ 512 * 1024 ∧ (f - z - 6144 * 1024).natAbs ≤ 768 * 1024
        (¬ passes → Gives (.refCalDone o range z f) s fun t =>
          result t.dev = 3 ∧ (t.dev.w o).cal = false ∧ RegsOnly { d with weir := t.dev.weir } t.dev [A.AE_STATUS o]) ∧
        (passes → Gives (.refCalDone o range z f) s fun t =>
          ((z - 8192 * 1024).natAbs ≤ 511 * 1024 → t.dev.getI (R.AE_CAL.OFS o ref) = roundDiv (16 * (z - 8192 * 1024)) 1024) ∧
            ((f - z - 6144 * 1024).natAbs ≤ 512 * 1024 → (t.dev.get (R.AE_CAL.GAIN o ref) : Int) =
              32768 + roundDiv ((6144 * 1024 - (f - z)) * 262144) (f - z).toNat) ∧
            (ref < 3 → bit (t.dev.get (R.AE_STATUS.CAL_VALID o)) ref = true) ∧ result t.dev = 2 ∧ (t.dev.w o).cal = false ∧
            RegsOnly { d with weir := t.dev.weir, freeCtr := t.dev.freeCtr } t.dev [A.AE_CAL o ref, A.AE_STATUS o]))) ∧
    (d.barred (A.AE_CAL_CTRL o) = none →
      (w.cal = true → Makes (.refCalStart src o v) s d) ∧
      (w.cal = false → Gives (.refCalStart src o v) s fun t => RegsOnly { d with weir := t.dev.weir } t.dev [A.AE_STATUS o] ∧
        if d.on (R.AE_CTRL.SCAN_EN o) = false ∧ d.on (R.AE_STATUS.SCANNING o) = false ∧ d.on (R.AE_STATUS.REF_SETTLED o) = true then
          result t.dev = 1 ∧ (t.dev.w o).cal = true
        else result t.dev = 4 ∧ (t.dev.w o).cal = false))

/-! Register accesses and the channels DMA, CTR, REG and IMG (spec/00, spec/07, spec/15). -/

/-- R9 to R12, R220, R392, R394: an access that is not an aligned whole word is answered Unsupported Request; it, and one that the target does not take, is logged and does nothing else; a reserved offset reads
0 and ignores writes; a field takes the legal value nearest to what is written, a W1C bit is cleared by 1, an RC field is cleared by its read; an access over the REG
channel is refused outside a keeper's octet, answered BAD_ADDR outside the map, and on its arrival does what the same access of the host does. -/
def Obligations.RegisterAccess : Prop :=
  ∀ (src : Src) (off : BitVec 26) (whole : Bool) (v : BitVec 32) (k : Fin 64) (g : Lane) (e : EngId) (r : Req) (s : State),
    let d := s.dev
    let a := off.toNat
    let back (t : State) : Nat := (Tbl.get 0 t.dev.reads (srcKey src)).toNat
    let Logged (c : Instr) (code un : Nat) : Prop := Gives c s fun t =>
      bit (t.dev.get R.HOST_EVT.EVT) 0 = true ∧ t.vault = s.vault ∧
        RegsOnly { d with errLog := t.dev.errLog, reads := t.dev.reads, ur := t.dev.ur } t.dev [A.HOST_EVT, A.ERR_LOG_STATUS] ∧
        Tbl.get 0 t.dev.ur (srcKey src) = Tbl.get 0 d.ur (srcKey src) + un ∧
        (d.errLog.length < 16 → t.dev.errLog = d.errLog ++
          [(2 ^ 31 + (srcLog src).1 * 2 ^ 28 + code * 2 ^ 24 + (srcLog src).2.1 * 2 ^ 20 + (srcLog src).2.2 * 2 ^ 17, a)]) ∧
        (16 ≤ d.errLog.length → t.dev.errLog = d.errLog ∧ t.dev.get R.ERR_LOG_STATUS.OVF = min 65535 (d.get R.ERR_LOG_STATUS.OVF + 1))
    let wr (v : BitVec 32) (a : Nat) : Instr := .registerWrite src (BitVec.ofNat 26 a) true v
    let rd (a : Nat) : Instr := .readClear src (BitVec.ofNat 26 a) true
    (whole = false ∨ a % 4 ≠ 0 → Logged (.registerWrite src off whole v) 1 1 ∧ Logged (.readClear src off whole) 1 1) ∧
    (∀ c, a % 4 = 0 → d.barred a = some c → Logged (.registerWrite src off true v) c 0 ∧ Logged (.readClear src off true) c 0) ∧
    (a % 4 = 0 → d.barred a = none → RegMap.find a = none → RegMap.isPhy a = false →
      Makes (.registerWrite src off true v) s d ∧ Gives (.readClear src off true) s fun t => back t = 0 ∧ t.dev = { d with reads := t.dev.reads }) ∧
    (d.barred (A.LOS_CTRL g) = none → Gives (wr v (A.LOS_CTRL g)) s fun t =>
      t.dev.get (R.LOS_CTRL.THR g) = max 1 (min 64 (getBits v.toNat 7 0)) ∧ t.dev.get (R.LOS_CTRL.HYST g) = min 32 (getBits v.toNat 13 8) ∧
        RegsOnly d t.dev [A.LOS_CTRL g]) ∧
    (d.barred (A.GAUGE_STAT k) = none →
      (Gives (wr v (A.GAUGE_STAT k)) s fun t =>
        t.dev.on (R.GAUGE_STAT.ABOVE k) = d.on (R.GAUGE_STAT.ABOVE k) ∧
          t.dev.on (R.GAUGE_STAT.CROSSED_UP k) = (d.on (R.GAUGE_STAT.CROSSED_UP k) && !bit v.toNat 30) ∧
          t.dev.on (R.GAUGE_STAT.CROSSED_DOWN k) = (d.on (R.GAUGE_STAT.CROSSED_DOWN k) && !bit v.toNat 29) ∧
          t.dev.get (R.GAUGE_STAT.COUNT k) = d.get (R.GAUGE_STAT.COUNT k) ∧ RegsOnly d t.dev [A.GAUGE_STAT k]) ∧
      Gives (rd (A.GAUGE_STAT k)) s fun t =>
        back t % 2 ^ 16 = d.get (R.GAUGE_STAT.COUNT k) ∧ bit (back t) 31 = d.on (R.GAUGE_STAT.ABOVE k) ∧
          t.dev.get (R.GAUGE_STAT.COUNT k) = 0 ∧ t.dev.on (R.GAUGE_STAT.CROSSED_UP k) = d.on (R.GAUGE_STAT.CROSSED_UP k) ∧
          RegsOnly { d with reads := t.dev.reads } t.dev [A.GAUGE_STAT k]) ∧
    (let Take (c : Instr) (n : Nat) : Prop := d.req e 0x15 n .sent = some r →
       let b := r.op.toNat % 2 ^ 26 / 4 * 4
       let mine := 56 ≤ e.val ∧ e.val < 88 → 0x1000000 + 0x20000 * (e.val - 56) ≤ b ∧ b < 0x1000000 + 0x20000 * (e.val - 56) + 0x20000
       (¬ mine → Gives c s fun t => Answered d t.dev e 0x15 n .sent 13 0 ∧ t.dev.regs = d.regs) ∧
       (mine → (0xC10000 ≤ b ∧ b < 0x1000000) ∨ 0x1400000 ≤ b → Gives c s fun t => Answered d t.dev e 0x15 n .sent 12 0 ∧ t.dev.regs = d.regs) ∧
       (mine → b < 0xC10000 ∨ (0x1000000 ≤ b ∧ b < 0x1400000) → d.req e 0x15 n .taken = none → Gives c s fun t =>
         (∃ q, t.dev.req e 0x15 n .taken = some q ∧ q.op = r.op) ∧ t.dev.regs = d.regs)
     Take (.regRead e) 0 ∧ Take (.regWrite e) 1) ∧
    ((d.e e).reqs.find? (fun q => q.chan == 0x15 && q.phase != .answered) = some r → r.phase = .taken →
      let b := r.op.toNat % 2 ^ 26 / 4 * 4
      (r.epoch ≠ d.epoch r.tgt → Gives (.regAccessArrive e) s fun t => Answered d t.dev e 0x15 r.cmd .taken 10 0 ∧ t.dev.regs = d.regs) ∧
      (r.epoch = d.epoch r.tgt → ∀ c, d.barred b = some c → Gives (.regAccessArrive e) s fun t =>
        Answered d t.dev e 0x15 r.cmd .taken (if c = 3 then 9 else 10) 0) ∧
      (r.epoch = d.epoch r.tgt → d.barred b = none →
        (r.cmd = 0 → ∃ u x, exec (.readClear (.reg e) (BitVec.ofNat 26 b) true) s = .next u ∧
          x % 2 ^ 32 = (Tbl.get 0 u.dev.reads (srcKey (.reg e))).toNat ∧
          exec (.regAccessArrive e) s = .next { u with dev := u.dev.answer e 0x15 0 .taken 0 x }) ∧
        (r.cmd = 1 → ∃ u, exec (.registerWrite (.reg e) (BitVec.ofNat 26 b) true (BitVec.ofNat 32 (r.op.toNat / 2 ^ 32))) s = .next u ∧
          exec (.regAccessArrive e) s = .next { u with dev := u.dev.answer e 0x15 1 .taken 0 0 })))

/-- R220, R276, R284, R310, R316: COPY is refused outside the memory or its regions before any byte is copied, waits for the DRAM polder, and at its end has copied
the bytes, the reply telling of poison; CTR READ writes the counters named, up to the end of the first one's group, and in task mode needs the group's permission. -/
def Obligations.CopyAndCounters : Prop :=
  ∀ (e : EngId) (op : Nat) (r : Req) (s : State), s.dev.clean .shared →
    let d := s.dev
    let b := d.block e op 4
    let num (j n : Nat) := leNat ((b.drop j).take n)
    let len := max 1 (min 1048576 (num 16 4))
    let out (dram : Bool) (a : Nat) := (if dram then d.usable else 4194304) < a + len
    let ends := out (bit (num 20 4) 0) (num 0 8) ∨ out (bit (num 20 4) 1) (num 8 8)
    let barred (dram : Bool) (a : Nat) := dram = true ∧ e.val < 88 ∧ d.admits useDma a len = false
    let refused := barred (bit (num 20 4) 0) (num 0 8) ∨ barred (bit (num 20 4) 1) (num 8 8)
    let x := CopyDesc.unpack r.aux
    let store (y : Dev) (dram : Bool) := if dram then y.dram else y.sharedS
    let at_ (dram : Bool) (i : Nat) := if dram then i else 4194304 * (e / 8) + i
    let bound (dram : Bool) := if dram then d.usable else 4194304
    let first := op % 8192
    let n := min (op / 2 ^ 13 % 256 + 1) (256 - first % 256)
    let may := (∀ q, d.req e 0x14 0 .sent = some q → q.task = false) ∨ bit (d.reg A.CTR_PERM) (first / 256) = true
    (ends → Serves (.dmaCopy e) s e 0x13 0 op 12 0 fun u => u.dram = d.dram ∧ u.sharedS = d.sharedS ∧ u.regs = d.regs) ∧
    (¬ ends → refused → Serves (.dmaCopy e) s e 0x13 0 op 12 0 fun u => u.dram = d.dram ∧ u.sharedS = d.sharedS ∧
      u.get R.REGION_VIOL.COUNT = min (2 ^ 32 - 1) (d.get R.REGION_VIOL.COUNT + 1)) ∧
    (¬ ends → ¬ refused → d.Asks e 0x13 0 op → d.req e 0x13 0 .taken = none → Gives (.dmaCopy e) s fun t =>
      (∃ q, t.dev.req e 0x13 0 .taken = some q ∧ q.op.toNat = op ∧ (CopyDesc.unpack q.aux).src = num 0 8 ∧ (CopyDesc.unpack q.aux).dst = num 8 8 ∧
        (CopyDesc.unpack q.aux).len = len ∧ (CopyDesc.unpack q.aux).srcDram = bit (num 20 4) 0 ∧ (CopyDesc.unpack q.aux).dstDram = bit (num 20 4) 1) ∧
      t.dev.sharedS = d.sharedS ∧ t.dev.dram = d.dram ∧ (d.polder 47 = 1 → t.dev.polder 47 = 4)) ∧
    (d.clean .dram → d.dramActive = true → d.req e 0x13 0 .taken = some r → x.src + x.len ≤ bound x.srcDram → x.dst + x.len ≤ bound x.dstDram →
      Gives (.dmaCopyDone ⟨e, []⟩) s fun t => Answered d t.dev e 0x13 0 .taken 0 x.len ∧ store t.dev (!x.dstDram) = store d (!x.dstDram) ∧
        (∀ i, i < x.len → (store t.dev x.dstDram).byte (at_ x.dstDram (x.dst + i)) = (store d x.srcDram).byte (at_ x.srcDram (x.src + i))) ∧
        ∀ i, i < at_ x.dstDram x.dst ∨ at_ x.dstDram (x.dst + x.len) ≤ i → (store t.dev x.dstDram).byte i = (store d x.dstDram).byte i) ∧
    (d.req e 0x13 0 .taken = some r → x.srcDram = true → d.dramActive = true →
      (∃ i, i < x.len ∧ d.dram.syndrome ((x.src + i) / 8) = 0xFF) → Gives (.dmaCopyDone ⟨e, []⟩) s fun t => Answered d t.dev e 0x13 0 .taken 11 x.len) ∧
    (d.dramActive = true → d.req e 0x13 0 .taken = some r → 0 < x.len → Gives (.dmaCopyDone ⟨e, [0]⟩) s fun t => Answered d t.dev e 0x13 0 .taken 11 x.len) ∧
    (d.dramActive = false → ∀ slu, Gives (.dmaCopyDone ⟨e, slu⟩) s fun t =>
      t.dev.eng = d.eng ∧ t.dev.dram = d.dram ∧ t.dev.sharedS = d.sharedS ∧
        (d.req e 0x13 0 .taken = some r → d.polder 47 = 1 → t.dev.polder 47 = 4)) ∧
    (may → Serves (.ctrRead e) s e 0x14 0 op 0 0 fun u => u.ctr = d.ctr ∧
      ∀ i, i < n → u.sharedS.raw (524288 * (e / 8) + (op / 2 ^ 42 / 8 + i) % 524288) = (d.count (first + i)).toNat) ∧
    (¬ may → Serves (.ctrRead e) s e 0x14 0 op 13 0 fun u => u.sharedS = d.sharedS)

/-- R188, R223, R225, R348, R349: the IMG commands: HALT halts, STATE shows the states, DRAIN waits for the replies and empties the queues, LOAD needs a drained cluster
that stands still, loads a verified image into the engines named and otherwise clears their stores, START sets halted engines with an image running. -/
def Obligations.EngineImages : Prop :=
  ∀ (e : EngId) (op : Nat) (r : Req) (s : State),
    let d := s.dev
    let c := min 11 (op / 256 % 16)
    let addr := op / 65536 % 2 ^ 33 * 16
    let named (k : Nat) : Prop := k < 8 ∧ bit op k = true
    let st (k : Nat) := (d.e (8 * c + k)).st
    let own := c = 11 ∧ (bit op 0 = true ∨ ∃ k, named k ∧ e.val = 88 + k)
    let still := (∀ k, k < 8 → st k = .halted ∨ st k = .fault) ∧ (d.c c).drained = true
    (Serves (.imgHalt e) s e 0x206 0 op 0 0 fun u =>
      ∀ k, named k → (u.e (8 * c + k)).st = if st k = .loading then .loading else .halted) ∧
    (∃ v, (∀ k, k < 8 → v / 8 ^ k % 8 = (st k).code) ∧ Serves (.imgState e) s e 0x206 4 op 0 v fun u => u.regs = d.regs ∧ u.locS = d.locS) ∧
    (d.Asks e 0x206 1 op → d.req e 0x206 1 .taken = none → Gives (.imgDrain e) s fun t =>
      ∃ q, t.dev.req e 0x206 1 .taken = some q ∧ q.op.toNat = op) ∧
    (d.req e 0x206 1 .taken = some r → r.op.toNat = op →
      ((∀ k q, k < 8 → q ∈ (d.e (8 * c + k)).reqs → q.chan = 0x206) → Gives (.imgDrainDone e) s fun t =>
        Answered d t.dev e 0x206 1 .taken 0 0 ∧ (t.dev.c c).drained = true ∧ ∀ k, k < 8 →
          (t.dev.e (8 * c + k)).notices = [] ∧ (t.dev.e (8 * c + k)).mbox = [] ∧ ∀ q ∈ (t.dev.e (8 * c + k)).replies, q.chan = 0x206) ∧
      (∀ k q, k < 8 → q ∈ (d.e (8 * c + k)).reqs → q.chan ≠ 0x206 → Makes (.imgDrainDone e) s d)) ∧
    (own ∨ ¬ still → Serves (.imgLoad e) s e 0x206 2 op 6 0 fun u => u.locS = d.locS ∧ u.regs = d.regs) ∧
    (¬ own → still → d.usable < addr + 128 → Serves (.imgLoad e) s e 0x206 2 op 12 0 fun u => u.locS = d.locS) ∧
    (¬ own → still → addr + 128 ≤ d.usable → d.Asks e 0x206 2 op → d.req e 0x206 2 .taken = none → Gives (.imgLoad e) s fun t =>
      (∃ q, t.dev.req e 0x206 2 .taken = some q ∧ q.op.toNat = op) ∧ ∀ k, named k → st k = .halted → (t.dev.e (8 * c + k)).st = .loading) ∧
    (d.clean .dram → d.dramActive = true → d.req e 0x206 2 .taken = some r → r.op.toNat = op →
      let head := d.dram.bytes addr 128
      let h := imgHead head
      let n := if h.fits c then h.body else 0
      let body := d.dram.bytes (addr + 128) n
      let sig := d.dram.bytes (addr + 128 + n) (if h.fits c then 256 else 0)
      (h.fits c = true → d.usable < addr + 128 + h.body + 256 → Gives (.imgLoadDone e) s fun t => Answered d t.dev e 0x206 2 .taken 12 0 ∧
        t.dev.locS = d.locS ∧ t.dev.sharedS = d.sharedS ∧ ∀ k, named k → st k = .loading → (t.dev.e (8 * c + k)).st = .halted) ∧
      ((h.fits c = true → addr + 128 + h.body + 256 ≤ d.usable) →
        (∀ p, s.vault.verify head body sig c = .inr p → Gives (.imgLoadDone e) s fun t => Answered d t.dev e 0x206 2 .taken 0 0 ∧
          (∀ k, named k → (t.dev.e (8 * c + k)).image = some (BitVec.ofNat 32 h.entry) ∧
            (∀ i, i < h.text → i < p.length → t.dev.locS.byte (262144 * (8 * c + k) + i) = p.getD i 0) ∧
            (∀ i, i < h.data → pad64 h.text + i < p.length →
              t.dev.locS.byte (262144 * (8 * c + k) + 65536 + i) = p.getD (pad64 h.text + i) 0) ∧
            (st k = .loading → (t.dev.e (8 * c + k)).st = .halted)) ∧
          ∀ i, i < h.shared → pad64 h.text + pad64 h.data + i < p.length →
            t.dev.sharedS.byte (4194304 * c + h.ofs + i) = p.getD (pad64 h.text + pad64 h.data + i) 0) ∧
        (∀ x, s.vault.verify head body sig c = .inl x → Gives (.imgLoadDone e) s fun t => Answered d t.dev e 0x206 2 .taken 13 0 ∧
          t.dev.get R.VERIFY_FAILS.COUNT = min (2 ^ 32 - 1) (d.get R.VERIFY_FAILS.COUNT + 1) ∧ t.dev.get R.VERIFY_LAST.DETAIL = x % 16 ∧
          (∀ k, named k → (t.dev.e (8 * c + k)).image = none ∧ (st k = .loading → (t.dev.e (8 * c + k)).st = .halted) ∧
            ∀ i, i < 262144 → t.dev.locS.byte (262144 * (8 * c + k) + i) = 0) ∧
          ∀ i, i < 4194304 → t.dev.sharedS.byte (4194304 * c + i) = 0))) ∧
    (d.dramActive = false → Gives (.imgLoadDone e) s fun t => t.dev.eng = d.eng ∧ t.dev.locS = d.locS ∧ t.dev.sharedS = d.sharedS) ∧
    (¬ own → (∀ k, named k → st k = .halted ∧ (d.e (8 * c + k)).image.isSome = true) → Serves (.imgStart e) s e 0x206 3 op 0 0 fun u =>
      ∀ k, named k → (u.e (8 * c + k)).st = .running ∧
        (u.e (8 * c + k)).pc = (let n := op / 65536 % 65536; if n = 0 then (d.e (8 * c + k)).image.getD 0 else BitVec.ofNat 32 n) &&& ~~~3#32) ∧
    (own ∨ (∃ k, named k ∧ (st k ≠ .halted ∨ (d.e (8 * c + k)).image = none)) → Serves (.imgStart e) s e 0x206 3 op 6 0 fun u =>
      u.regs = d.regs ∧ ∀ k, k < 8 → (u.e (8 * c + k)).st = st k)

/-! Memory and integrity (spec/10). -/

/-- R272, R276 to R280, R283, R288 to R291: a region register takes its value unless that would withdraw the spillway's permission; a channel grants to the first waiting order, the
oldest of it, but to orders 4 and 5 once in eight, and a burst whose transfer fails is uncorrectable; the refresh multiplier follows the band and MR4; a rewrite mends a single error only; the scrubber poisons what cannot be corrected and logs it; the test window reads and
writes a word raw where the life cycle allows it. Clauses on one word take the flow store. -/
def Obligations.MemoryIntegrity : Prop :=
  ∀ (src : Src) (k : Fin 16) (v : BitVec 32) (c : Fin 32) (wait : List DramReq) (mult : Fin 4) (i : Nat) (s : State),
    let d := s.dev
    let nv := v.toNat
    let spilling := d.on R.SPILL_CTRL.EN = true ∨ d.get R.SPILL_STATUS.CELLS ≠ 0
    let use := d.setReg (A.REGION_USE k) (nv % 32)
    let lo := d.get R.SPILL_BASE.ADDR * 1024
    let lost := ∃ m, lo ≤ m ∧ m < lo + d.get R.SPILL_CTRL.SIZE_GIB * 1024 ∧ d.spillMiB m = true ∧ use.spillMiB m = false
    let g := Tbl.get GrantSt.reset d.mem.grant c
    let oldest (k : Nat) := wait.find? (·.order == k)
    let serves (r : Option DramReq) : Prop :=
      (Gives (.dramGrant ⟨c, none⟩ wait) s fun t =>
        (Tbl.get GrantSt.reset t.dev.mem.grant c).last = r ∧ t.dev = { d with mem := t.dev.mem }) ∧
      ∀ b, Gives (.dramGrant ⟨c, some b⟩ wait) s fun t =>
        (Tbl.get GrantSt.reset t.dev.mem.grant c).last = r ∧ t.dev = { d with mem := t.dev.mem, dram := t.dev.dram, freeCtr := t.dev.freeCtr } ∧
          (∀ x, t.dev.dram.raw x = d.dram.raw x) ∧
          (∀ q, r = some q → 2 ≤ q.order → ∀ w ∈ d.burstWords c b, readingOf (t.dev.dram.syndrome w).toNat = .uncorrectable) ∧
          ∀ w, w ∉ d.burstWords c b → t.dev.dram.syndrome w = d.dram.syndrome w
    let four := (oldest 4).isSome = true ∧ (7 ≤ g.w4 ∨ 6 ≤ g.w4 ∧ (oldest 5).isSome = true ∧ g.w5 = 6)
    let five := (oldest 5).isSome = true ∧ 7 ≤ g.w5
    let band (b : Nat) := d.get R.REFRESH_CTRL.MULT_B / 4 ^ b % 4
    let fabric := d.barredPolder 32 = none ∧ ∀ q, 32 ≤ q → q ≤ 35 → d.polder q ≤ 1
    let at_ (lo hi : Nat) := min (hi % 4 * 2 ^ 32 + lo) 8388607
    let one (w : Nat) := i < 64 ∧ d.flowS.syndrome w = BitVec.ofNat 8 (colCodes.getD i 0)
    let bad (w : Nat) := readingOf (d.flowS.syndrome w).toNat = .uncorrectable
    let mended (t : State) (w : Nat) := t.dev.flowS.raw w = d.flowS.raw w ^^^ 2 ^ i ∧ t.dev.flowS.syndrome w = 0 ∧
      ∀ x, x ≠ w → t.dev.flowS.raw x = d.flowS.raw x ∧ t.dev.flowS.syndrome x = d.flowS.syndrome x
    let more (t : State) (f : Fld) := t.dev.get f = min (2 ^ 32 - 1) (d.get f + 1)
    (d.barred (A.REGION_BASE k) = none → ¬ spilling →
      Makes (.regionWrite src k 0 v) s (d.setReg (A.REGION_BASE k) (nv % 2 ^ 17)) ∧
      Makes (.regionWrite src k 1 v) s (d.setReg (A.REGION_LIMIT k) (min (nv % 2 ^ 17) (d.get R.MEM_STATUS.USABLE * 1024))) ∧
      Makes (.regionWrite src k 2 v) s use) ∧
    (d.barred (A.REGION_USE k) = none → spilling →
      (¬ lost → Makes (.regionWrite src k 2 v) s use) ∧
      (lost → Gives (.regionWrite src k 2 v) s fun t => t.dev.on R.MEM_STATUS.REGION_LOCKED = true ∧ RegsOnly d t.dev [A.MEM_STATUS])) ∧
    (d.dramActive = true → d.on R.MEM_CFG.EN = true →
      (d.step 47 < g.used → serves (oldest 1)) ∧
      (g.used ≤ d.step 47 → four → serves (oldest 4)) ∧
      (g.used ≤ d.step 47 → ¬ four → five → serves (oldest 5)) ∧
      (g.used ≤ d.step 47 → ¬ four → ¬ five → ∀ k, 1 ≤ k → k ≤ 7 → (oldest k).isSome = true → (∀ j, 1 ≤ j → j < k → oldest j = none) → serves (oldest k)) ∧
      (wait = [] → serves none)) ∧
    (d.dramActive = false ∨ d.on R.MEM_CFG.EN = false → ∀ err, Makes (.dramGrant ⟨c, err⟩ wait) s d) ∧
    (d.dramActive = false ∨ d.on R.MEM_CFG.EN = false ∨ d.on R.MEM_STATUS.SELF_REF = true → Makes .refresh s d ∧ ∀ hot, Makes (.mr4Read mult hot) s d) ∧
    (d.dramActive = true → d.on R.MEM_CFG.EN = true → d.on R.MEM_STATUS.SELF_REF = false →
      (Gives .refresh s fun t => t.dev.get R.MEM_STATUS.BAND = d.get (R.CAP.BAND 47) % 4 ∧
        t.dev.get R.MEM_STATUS.MULT = max (band (d.get (R.CAP.BAND 47) % 4)) d.mem.mr4 % 4 ∧ RegsOnly d t.dev [A.MEM_STATUS]) ∧
      (Gives (.mr4Read mult false) s fun t => t.dev.get R.MEM_STATUS.MULT = max (band (d.get R.MEM_STATUS.BAND)) mult ∧
        t.dev.on R.MEM_STATUS.HOT = d.on R.MEM_STATUS.HOT ∧ RegsOnly { d with mem := t.dev.mem } t.dev [A.MEM_STATUS]) ∧
      Gives (.mr4Read mult true) s fun t => t.dev.get R.MEM_STATUS.MULT = 3 ∧ t.dev.on R.MEM_STATUS.HOT = true ∧
        bit (t.dev.get R.MEM_EVT.EVT) 5 = true ∧ RegsOnly { d with mem := t.dev.mem } t.dev [A.MEM_STATUS, A.MEM_EVT]) ∧
    (d.barred A.REWRITE_CTRL = none → d.on R.REWRITE_CTRL.BUSY = false →
      let w := at_ (d.reg A.REWRITE_ADDR_LO) (d.get R.REWRITE_ADDR_HI.INDEX)
      let Ends (r : Nat) (p : State → Prop) : Prop := Gives (.rewrite src v) s fun t => t.dev.get R.REWRITE_CTRL.RESULT = r ∧ p t
      (nv % 8 = 1 → fabric →
        (d.flowS.syndrome w = 0 → Ends 1 fun t => t.dev.flowS = d.flowS) ∧ (one w → Ends 2 fun t => mended t w) ∧
        (bad w → Ends 3 fun t => t.dev.flowS = d.flowS ∧ more t (R.ECC_UE.COUNT 1)) ∧
        (d.flowS.syndrome w = 0xFF → Ends 4 fun t => t.dev.flowS = d.flowS ∧ more t (R.ECC_POISON.COUNT 1))) ∧
      (nv % 8 = 1 → d.barredPolder 32 ≠ none → Ends 5 fun t => t.dev.flowS = d.flowS) ∧
      (nv % 8 = 0 → d.barredPolder 47 = none → d.polder 47 = 1 → Gives (.rewrite src v) s fun t =>
        t.dev.on R.REWRITE_CTRL.BUSY = true ∧ t.dev.mem.rw.isSome = true ∧ t.dev.polder 47 = 4 ∧ t.dev.dram = d.dram)) ∧
    (d.mem.rw = none ∨ d.dramActive = false → Makes .rewriteDone s d) ∧
    (∀ w, d.mem.rw = some w → d.dramActive = true → Gives .rewriteDone s fun t =>
      t.dev.on R.REWRITE_CTRL.BUSY = false ∧ t.dev.mem.rw = none ∧ t.dev.get R.REWRITE_CTRL.RESULT =
        (match readingOf (d.dram.syndrome w).toNat with | .clean => 1 | .single => 2 | .uncorrectable => 3 | .poisoned => 4) ∧
        ∀ x, x ≠ w → t.dev.dram.raw x = d.dram.raw x ∧ t.dev.dram.syndrome x = d.dram.syndrome x) ∧
    (d.barred A.ECCT_CTRL = none → d.on R.ECCT_CTRL.BUSY = false →
      let w := at_ (d.reg A.ECCT_ADDR_LO) (d.get R.ECCT_ADDR_HI.INDEX)
      let data := d.reg A.ECCT_DATA_HI * 2 ^ 32 + d.reg A.ECCT_DATA_LO
      let may := s.vault.life ∈ [0, 1, 4] ∨ (s.vault.life ∈ [2, 3] ∧ d.get R.DBG_STATUS.LEVEL = 2)
      (may → fabric → nv % 8 = 1 →
        (bit nv 27 = true → Gives (.eccTestAccess src v) s fun t => t.dev.get R.ECCT_CTRL.RESULT = 1 ∧ t.dev.flowS.raw w = data ∧
          (t.dev.flowS.syndrome w).toNat = d.get R.ECCT_CHECK.CHECK ^^^ checkByte data ∧ RegsOnly { d with flowS := t.dev.flowS } t.dev [A.ECCT_CTRL]) ∧
        (bit nv 27 = false → Gives (.eccTestAccess src v) s fun t => t.dev.get R.ECCT_CTRL.RESULT = 1 ∧
          t.dev.reg A.ECCT_DATA_HI * 2 ^ 32 + t.dev.reg A.ECCT_DATA_LO = d.flowS.raw w ∧
          t.dev.get R.ECCT_CHECK.SYND = (d.flowS.syndrome w).toNat ∧ RegsOnly d t.dev [A.ECCT_CTRL, A.ECCT_DATA_LO, A.ECCT_DATA_HI, A.ECCT_CHECK])) ∧
      (¬ may → Gives (.eccTestAccess src v) s fun t => t.dev.get R.ECCT_CTRL.RESULT = 2 ∧ RegsOnly d t.dev [A.ECCT_CTRL])) ∧
    (let w := Tbl.get 0 d.mem.scrub 1
     let Scrubs (raced : Bool) (p : State → Prop) : Prop := Gives (.scrubRead 1 raced) s fun t => Tbl.get 0 t.dev.mem.scrub 1 = w + 1 ∧ p t
     (∀ sp : Fin 5, sp = 2 ∨ bit (d.get R.SCRUB_CTRL.EN) sp = false → ∀ raced, Makes (.scrubRead sp raced) s d) ∧
     (bit (d.get R.SCRUB_CTRL.EN) 1 = true → (∀ q, 32 ≤ q → q ≤ 35 → d.awake q = true) → w < 8388607 →
       (∀ raced, d.flowS.syndrome w = 0 → Scrubs raced fun t => t.dev.flowS = d.flowS ∧ t.dev.regs = d.regs) ∧
       (one w → d.on R.SCRUB_CTRL.FIX_CE = true → Scrubs false fun t => mended t w ∧ more t (R.ECC_CE.COUNT 1)) ∧
       (one w → Scrubs true fun t => t.dev.flowS = d.flowS ∧ more t (R.ECC_CE.COUNT 1)) ∧
       (bad w → Scrubs true fun t => t.dev.flowS = d.flowS ∧ t.dev.mem.log = d.mem.log ∧ more t (R.ECC_UE.COUNT 1)) ∧
       (bad w → d.mem.log.length < 16 → Scrubs false fun t => t.dev.flowS.syndrome w = 0xFF ∧ t.dev.flowS.raw w = d.flowS.raw w ∧
         more t (R.ECC_UE.COUNT 1) ∧ bit (t.dev.get R.MEM_EVT.EVT) 3 = true ∧
         t.dev.mem.log = d.mem.log ++ [(2 ^ 28 + d.get (R.SCRUB_LAPNO.COUNT 1) % 65536, w)]) ∧
       (∀ raced, d.flowS.syndrome w = 0xFF → Scrubs raced fun t => t.dev.flowS = d.flowS ∧ t.dev.mem.log = d.mem.log ∧ more t (R.ECC_POISON.COUNT 1)))) ∧
    (d.barred A.SCRUB_LOG_0 = none →
      (d.mem.log = [] → Gives (.scrubLogPop src) s fun t => Tbl.get 0 t.dev.reads (srcKey src) = 0 ∧ t.dev.mem = d.mem ∧ t.dev.regs = d.regs) ∧
      (∀ x w r, d.mem.log = (x, w) :: r → w < 2 ^ 34 → Gives (.scrubLogPop src) s fun t =>
        Tbl.get 0 t.dev.reads (srcKey src) = BitVec.ofNat 32 (2 ^ 31 + x) ∧ t.dev.reg A.SCRUB_LOG_2 * 2 ^ 32 + t.dev.reg A.SCRUB_LOG_1 = w ∧
          t.dev.mem = { d.mem with log := r } ∧ t.dev.get R.SCRUB_LOG_STATUS.FILL = r.length % 32 ∧
          RegsOnly { d with reads := t.dev.reads, mem := t.dev.mem } t.dev [A.SCRUB_LOG_1, A.SCRUB_LOG_2, A.SCRUB_LOG_STATUS]))

/-! Interrupts and counters (spec/11). -/

/-- R293, R295 to R304: a source's level follows its condition; software pending bits are set and cleared; the host's claim takes the claimable source of highest priority,
the lowest number among equals, or returns 511 or 0; an end of interrupt pops the stack and a flush empties it; every request line follows. -/
def Obligations.Interrupts : Prop :=
  ∀ (src : Src) (n : Fin 512) (w : Fin 16) (v : BitVec 32) (t : Fin 9) (s : State),
    let d := s.dev
    let lines (x : Dev) : Prop := ∀ k : Fin 9, x.on (R.TGT_STATUS.LINE k) = x.line k
    let claimed (x : Dev) (n : Nat) : Bool := bit (x.get (R.CLAIMED.CLAIMED (n / 32))) (n % 32)
    let sw (x : Dev) (i : Nat) : Bool := bit (x.get (R.SWPEND.SW w)) i
    let back (t : State) := (Tbl.get 0 t.dev.reads (srcKey .host)).toNat
    let wakes := bit (d.reg (A.WAKE_EN (n / 32))) (n % 32) = true
    let up := (d.p 48).inReset = false ∧ (d.p 48).test = false ∧ d.polder 48 ≠ 2
    (Gives (.sourceLevelChange n) s fun u => u.dev.level n = d.sourceLevel n ∧ lines u.dev ∧
      (¬ wakes → u.dev.pwr = d.pwr)) ∧
    (¬ wakes → Gives (.sourceLevelChange n) s fun u =>
      u.dev.level n = d.sourceLevel n ∧ (∀ m : Fin 512, m ≠ n → u.dev.level m = d.level m) ∧ lines u.dev ∧ u.dev = { d with regs := u.dev.regs, host := u.dev.host }) ∧
    (up → d.sourceLevel 500 = bit (d.get R.DEV_EVT.EVT) 5 ∧ d.sourceLevel 0 = false ∧
      (d.sourceLevel 469 = true ↔ ∃ i, i < 32 ∧ bit (d.get R.HOST_EVT.EVT) i = true ∧ bit (d.get R.HOST_IRQ_EN.EN) i = true)) ∧
    (∀ o : Oct, (d.p o).inReset = false → (d.p o).test = false → d.polder o ≠ 2 →
      (d.sourceLevel (12 * o + 5) = true ↔ d.get (R.TIMING_EVT.LANE o) ≠ 0 ∧ bit (d.reg (A.OCT_EN o)) 17 = true) ∧
        d.sourceLevel (12 * o + 11) = false) ∧
    (d.barred (A.SWPEND w) = none → Gives (.swpendWrite src w v) s fun u =>
      lines u.dev ∧ ∀ i, i < 32 → sw u.dev i = (sw d i || (bit v.toNat i && decide (1 ≤ 32 * w.val + i ∧ 32 * w.val + i ≤ 500)))) ∧
    (d.barred (A.SWCLR w) = none → Gives (.swclrWrite src w v) s fun u =>
      lines u.dev ∧ ∀ i, i < 32 → sw u.dev i = (sw d i && !bit v.toNat i)) ∧
    (d.barred A.HOST_CLAIM = none →
      (n ≠ 0 → d.depth 8 < 16 → d.claimable 8 n = true →
        (∀ m : Fin 512, m ≠ 0 → d.claimable 8 m = true → d.prio m < d.prio n ∨ (d.prio m = d.prio n ∧ n ≤ m)) → Gives .hostClaim s fun u =>
          back u = n ∧ claimed u.dev n = true ∧ (∀ m : Fin 512, m ≠ n → claimed u.dev m = claimed d m) ∧ u.dev.swPend n = false ∧
            u.dev.depth 8 = d.depth 8 + 1 ∧ u.dev.get (R.STACK.SOURCE 8 (d.depth 8)) = n ∧ u.dev.runPrio 8 = d.prio n ∧
            u.dev.on (R.TGT_STATUS.LINE_SEEN 8) = false ∧ lines u.dev) ∧
      ((∀ m : Fin 512, m ≠ 0 → d.claimable 8 m = false) →
        (d.on (R.TGT_STATUS.LINE_SEEN 8) = true → Gives .hostClaim s fun u =>
          back u = 511 ∧ u.dev.on (R.TGT_STATUS.LINE_SEEN 8) = false ∧ u.dev.get (R.SPUR_CNT.COUNT 8) = min 65535 (d.get (R.SPUR_CNT.COUNT 8) + 1) ∧
            RegsOnly { d with reads := u.dev.reads } u.dev [A.TGT_STATUS 8, A.SPUR_CNT 8]) ∧
        (d.on (R.TGT_STATUS.LINE_SEEN 8) = false → Gives .hostClaim s fun u => back u = 0 ∧ u.dev = { d with reads := u.dev.reads }))) ∧
    (d.barred A.HOST_EOI = none →
      (d.depth 8 = 0 → Gives .hostEoi s fun u => u.dev.on (R.TGT_STATUS.EOI_EMPTY 8) = true ∧ RegsOnly d u.dev [A.TGT_STATUS 8]) ∧
      (0 < d.depth 8 → d.depth 8 ≤ 16 → Gives .hostEoi s fun u =>
        u.dev.depth 8 = d.depth 8 - 1 ∧ claimed u.dev (d.get (R.STACK.SOURCE 8 (d.depth 8 - 1))) = false ∧ lines u.dev ∧
          ∀ i, i + 1 < d.depth 8 → u.dev.reg (A.STACK 8 i) = d.reg (A.STACK 8 i))) ∧
    (d.barred (A.TGT_CTRL t) = none → d.depth t ≤ 16 → Gives (.targetFlush src t v) s fun u =>
      u.dev.depth t = 0 ∧ lines u.dev ∧ ∀ i, i < d.depth t → claimed u.dev (d.get (R.STACK.SOURCE t i)) = false)

/-- R306, R309 to R311: groups are cleared; a read of CNT_LO latches the counter for its requester; a snapshot keeps all counters; dumps start with an empty ring, are
latched or skipped, and a completed record lies in the DRAM with all counters, or is lost outside every region that admits it. -/
def Obligations.Counters : Prop :=
  ∀ (src : Src) (n : Fin 8192) (v : BitVec 32) (r : DumpRec) (s : State),
    let d := s.dev
    let nv := v.toNat
    let c := d.cnt
    let due (x : Dev) (now : Bool) : Prop := ∃ q, x.cnt.dump = some q ∧ q.no = c.next ∧ (∀ k, Tbl.get 0 q.ctr k = d.count k) ∧ q.skipped = c.skipped ∧
      bit q.flags 1 = now ∧ bit q.flags 0 = decide (0 < c.skipped) ∧ bit q.flags 2 = c.cleared ∧ x.cnt.next = c.next + 1 ∧ x.cnt.skipped = 0 ∧ x.on R.DUMP_STATUS.BUSY = true
    let skip (x : Dev) : Prop := x.cnt = { c with skipped := c.skipped + 1, snap := x.cnt.snap } ∧ x.get R.DUMP_STATUS.SKIPPED = min 65535 (d.get R.DUMP_STATUS.SKIPPED + 1)
    let wr := d.get R.DUMP_WR.REC
    let a := d.get R.DUMP_BASE_HI.ADDR * 2 ^ 32 + d.get R.DUMP_BASE_LO.ADDR * 4096 + 69632 * wr
    (d.barred A.CTR_CLEAR = none → Gives (.counterGroupClear src v) s fun t =>
      (∀ k, t.dev.count k = if bit nv (k / 256) then 0 else d.count k) ∧ t.dev.regs = d.regs) ∧
    (d.barred (A.CNT_LO n) = none → Gives (.counterReadLatch src n) s fun t =>
      let x := if src = .host ∧ d.on R.CTR_CTRL.READ_SRC = true then Tbl.get 0 c.snap n else d.count n
      (Tbl.get 0 t.dev.reads (srcKey src)).toNat = x.toNat % 2 ^ 32 ∧ Tbl.get none t.dev.cnt.shadow (srcKey src) = some (n.val, x) ∧
        t.dev.ctr = d.ctr ∧ t.dev.regs = d.regs) ∧
    (d.barred A.CTR_CTRL = none →
      (Gives (.counterSnapshot src v) s fun t => t.dev.cnt.snap = d.ctr ∧ t.dev.ctr = d.ctr) ∧
      (d.on R.CTR_CTRL.DUMP_EN = false → bit nv 30 = false → Gives (.dumpEnable src v) s fun t =>
        t.dev.on R.CTR_CTRL.DUMP_EN = true ∧ t.dev.reg A.DUMP_WR = 0 ∧ t.dev.reg A.DUMP_RD = 0 ∧ t.dev.cnt.next = 0 ∧ t.dev.cnt.dump = c.dump ∧
          t.dev.get R.CTR_CTRL.SIZE = max 1 (min 12 (getBits nv 17 14)) ∧ t.dev.get R.CTR_CTRL.INTERVAL = max 1 (min 10000 (getBits nv 13 0))) ∧
      (Gives (.dumpDisable src v) s fun t => t.dev.on R.CTR_CTRL.DUMP_EN = false ∧ t.dev.cnt.dump = c.dump ∧
        (d.on R.CTR_CTRL.DUMP_EN = true → 1 ≤ d.get R.CTR_CTRL.SIZE → d.get R.CTR_CTRL.SIZE ≤ 12 → t.dev.get R.CTR_CTRL.SIZE = d.get R.CTR_CTRL.SIZE)) ∧
      (d.on R.CTR_CTRL.DUMP_EN = true → bit nv 30 = false → Gives (.dumpEnable src v) s fun t =>
        t.dev.on R.CTR_CTRL.DUMP_EN = true ∧ t.dev.reg A.DUMP_WR = d.reg A.DUMP_WR ∧ t.dev.reg A.DUMP_RD = d.reg A.DUMP_RD ∧
          t.dev.cnt.next = c.next ∧ t.dev.cnt.dump = c.dump) ∧
      (bit nv 31 = false → Gives (.dumpNow src v) s fun t => t.dev.on R.CTR_CTRL.DUMP_EN = false ∧ t.dev.cnt.dump = c.dump) ∧
      (d.on R.CTR_CTRL.DUMP_EN = false → bit nv 31 = true → c.dump = none → Gives (.dumpNow src v) s fun t =>
        ∃ q, t.dev.cnt.dump = some q ∧ q.no = 0 ∧ bit q.flags 1 = true ∧ t.dev.cnt.next = 1 ∧ ∀ k, Tbl.get 0 q.ctr k = d.count k) ∧
      (d.on R.CTR_CTRL.DUMP_EN = true → bit nv 31 = true →
        (c.dump = none → Gives (.dumpNow src v) s fun t => due t.dev true) ∧ (c.dump ≠ none → Gives (.dumpNow src v) s fun t => skip t.dev))) ∧
    (d.on R.CTR_CTRL.DUMP_EN = true →
      (c.dump = none → Gives .dumpLatch s fun t => due t.dev false ∧ RegsOnly { d with cnt := t.dev.cnt } t.dev [A.DUMP_STATUS]) ∧
      (c.dump ≠ none → Gives .dumpLatch s fun t => skip t.dev ∧ RegsOnly { d with cnt := t.dev.cnt } t.dev [A.DUMP_STATUS])) ∧
    (d.on R.CTR_CTRL.DUMP_EN = false → Makes .dumpLatch s d) ∧
    (c.dump = none → Makes .dumpRecordDone s d) ∧
    (c.dump = some r → d.dramActive = true →
      (d.admits 2 a 69632 = true → c.full = false → Gives .dumpRecordDone s fun t =>
        t.dev.reg A.DUMP_LATCH = r.no % 2 ^ 32 ∧ t.dev.get R.DUMP_WR.REC = (wr + 1) % 2 ^ d.get R.CTR_CTRL.SIZE % 4096 ∧
          t.dev.get R.DUMP_RD.REC = d.get R.DUMP_RD.REC ∧ bit (t.dev.get R.DEV_EVT.EVT) 2 = true ∧ t.dev.cnt.dump = none ∧
          t.dev.on R.DUMP_STATUS.BUSY = false ∧ leNat (t.dev.dram.bytes a 8) = r.no % 2 ^ 64 ∧
          (∀ k, k < 8192 → leNat (t.dev.dram.bytes (a + 4096 + 8 * k) 8) = (Tbl.get (0 : DWord) r.ctr k).toNat) ∧
          ∀ b, b < a ∨ a + 69632 ≤ b → t.dev.dram.byte b = d.dram.byte b) ∧
      (d.admits 2 a 69632 = true → c.full = true → wr = d.get R.DUMP_RD.REC → Gives .dumpRecordDone s fun t =>
        t.dev.on R.DUMP_STATUS.OVERRUN = true ∧ t.dev.get R.DUMP_RD.REC = (wr + 1) % 2 ^ d.get R.CTR_CTRL.SIZE % 4096) ∧
      (d.admits 2 a 69632 = false → Gives .dumpRecordDone s fun t =>
        bit (t.dev.get R.DEV_EVT.EVT) 3 = true ∧ t.dev.dram = d.dram ∧ t.dev.cnt.dump = none ∧ t.dev.get R.DUMP_WR.REC = wr)) ∧
    (c.dump = some r → d.dramActive = false → Gives .dumpRecordDone s fun t => t.dev.cnt = c ∧ t.dev.dram = d.dram)

/-! Power and thermal (spec/12). -/

/-- R314 to R326: the pumping station: a request is queued while a transition runs; HALT takes down every polder; an octet in DEEP and parked is closed and goes through its
drain to RETAIN with its pads held; a running engine refuses; a drain that takes too long and a wake turn the transition back; an exit opens the polder unless a forced
stop keeps it; the DRAM idles in NIGHT and returns on demand. -/
def Obligations.PowerTransitions : Prop :=
  ∀ (src : Src) (v : BitVec 32) (p : Fin 48) (t : Trans) (st old : Nat) (rest : List (Nat × Nat)) (s : State),
    let d := s.dev
    let nv := v.toNat
    let status (u : State) (f : Fld) := u.dev.get f
    let ends (u : State) (res cause : Nat) : Prop := u.dev.pwr.run = none ∧ status u R.PWR_STATUS.RESULT = res ∧ status u R.PWR_STATUS.CAUSE = cause ∧
      u.dev.on R.PWR_STATUS.BUSY = false ∧ status u R.PWR_STATUS.SEQ = (d.get R.PWR_STATUS.SEQ + 1) % 256 ∧
      bit (u.dev.get R.PWR_EVT.EVT) (if res = 1 then 1 else 2) = true
    let calm := d.pwr.next = none ∧ t.wake = none
    let enters := d.pwr.run = some t ∧ calm ∧ t.exits = [] ∧ t.cur = none ∧ t.restore = none ∧ t.entries = (p.val, st) :: rest ∧ (d.p p).test = false
    let deep := p.val < 32 ∧ (∀ l, l < 8 → d.get (R.LPWR_STATUS.TX_STATE (8 * p + l)) = 2 ∧ d.get (R.LPWR_STATUS.RX_STATE (8 * p + l)) = 2) ∧
      bit (d.reg A.DBG_HOLD_LO) p = false
    let quiet := d.get R.SPILL_STATUS.CELLS = 0 ∧ d.fab.stage = [] ∧ d.cnt.dump = none ∧
      (∀ e, e ∈ d.eng → ∀ r, r ∈ e.2.reqs → r.chan = 0x13 → r.phase ≠ .taken) ∧ bit (d.reg A.DBG_HOLD_HI) 15 = false
    (d.barred A.PWR_REQ = none →
      (d.pwr.run = some t → Gives (.profileRequest src v) s fun u => u.dev.pwr.run = some t ∧ u.dev.on R.PWR_STATUS.QUEUED = true ∧
        u.dev.on R.PWR_STATUS.QREPLACED = (d.on R.PWR_STATUS.QREPLACED || d.pwr.next.isSome) ∧
        ∃ r, u.dev.pwr.next = some r ∧ r.polder = none ∧ r.profile = getBits nv 29 28 ∧
          (r.profile = 0 ∨ r.profile = 3 → r.parkOct = d.reg A.PARK_OCT ∧ r.parkCl = d.get R.PARK_CL.CL) ∧
          (r.profile = 1 → r.parkCl = if d.get R.PARK_CL.CL = 127 then 126 else d.get R.PARK_CL.CL) ∧
          (r.profile = 2 → r.parkOct ≠ 2 ^ 32 - 1 ∧ 4 ≤ popCount r.parkCl 7 ∧ popCount r.parkCl 7 ≤ 6)) ∧
      (d.pwr.run = none → d.polder p ≤ 1 → getBits nv 29 28 = 3 → Gives (.profileRequest src v) s fun u =>
        ∃ x, u.dev.pwr.run = some x ∧ x.exits = [] ∧ (∀ q : Fin 48, (q.val, 2) ∈ x.entries ↔ d.polder q ≤ 1) ∧ u.dev.on R.PWR_STATUS.BUSY = true ∧
          status u R.PWR_STATUS.PREV = d.get R.PWR_STATUS.PROFILE ∧ ∀ q : Fin 49, u.dev.polder q = d.polder q) ∧
      (d.pwr.run = some t → Gives (.polderRequest src v) s fun u => u.dev.pwr.run = some t ∧ u.dev.on R.PWR_STATUS.QUEUED = true ∧
        ∃ r, u.dev.pwr.next = some r ∧ r.polder.isSome = true) ∧
      (d.pwr.run = none → d.pwr.next = none → 48 ≤ getBits nv 21 16 → Gives (.polderRequest src v) s fun u => ends u 1 0 ∧
        u.dev.get R.PWR_REQ.STATE = 0 ∧ status u R.PWR_STATUS.PROFILE = d.get R.PWR_STATUS.PROFILE) ∧
      (d.pwr.run = none → p.val < 32 → getBits nv 21 16 = p.val → getBits nv 13 12 = 2 → d.polder p = 0 → Gives (.polderRequest src v) s fun u =>
        ∃ x, u.dev.pwr.run = some x ∧ x.exits = [] ∧ x.entries = [(p.val, 2)] ∧ x.req.polder = some (p.val, 2))) ∧
    (enters → deep → st = 2 → d.on (R.WEIR_STATUS.PARKED p) = true → Gives .polderEntry s fun u =>
      u.dev.polder p = 3 ∧ (u.dev.p p).closed = true ∧ status u R.PWR_STATUS.STEP = 3 ∧ status u R.PWR_STATUS.POLDER = p ∧
        ∃ x, u.dev.pwr.run = some x ∧ x.cur = some (p.val, d.polder p) ∧ x.entries = rest) ∧
    (enters → deep → st = 1 → Gives .polderEntry s fun u => u.dev.polder p = 1 ∧ (u.dev.p p).closed = false) ∧
    (enters → d.entryCause t p st = none →
      (st = 2 → Gives .polderEntry s fun u => u.dev.polder p = 3 ∧ (u.dev.p p).closed = true ∧ status u R.PWR_STATUS.STEP = 3 ∧
        ∃ x, u.dev.pwr.run = some x ∧ x.cur = some (p.val, d.polder p) ∧ x.entries = rest) ∧
      (st = 1 → p.val ≠ 47 → Gives .polderEntry s fun u => u.dev.polder p = 1 ∧ (u.dev.p p).closed = false)) ∧
    (enters → st = 2 → ∀ c, d.entryCause t p st = some c → t.down = [] → Gives .polderEntry s fun u =>
      ends u 4 c ∧ status u R.PWR_STATUS.POLDER = p ∧ u.dev.polder p = d.polder p) ∧
    (enters → st = 2 → 36 ≤ p.val → p.val ≤ 42 → t.down = [] → (∃ k, k < 8 ∧ (d.e (8 * (p - 36) + k)).st = .running) → Gives .polderEntry s fun u =>
      ends u 4 1 ∧ status u R.PWR_STATUS.POLDER = p ∧ u.dev.polder p = d.polder p) ∧
    (d.pwr.run = some t → t.cur = some (p.val, old) →
      (calm → d.clBusy p = false ∨ (d.p p).forced = true → Gives .drainEnd s fun u =>
        u.dev.polder p = 2 ∧ (u.dev.p p).closed = true ∧ (p.val < 32 → bit (u.dev.get R.PAD_HOLD.OCT) p = true ∧
        (u.dev.w p).pads = some ((d.w p).drive, (d.w p).code))) ∧
      (calm → d.clBusy p = true → (d.p p).forced = false → Gives .drainEnd s fun u =>
        u.dev.polder p = old % 8 ∧ (u.dev.p p).closed = false ∧ (t.down = [] → ends u 4 1 ∧ status u R.PWR_STATUS.POLDER = p)) ∧
      (d.pwr.next = none → Gives .drainTimeout s fun u =>
        u.dev.polder p = old % 8 ∧ (u.dev.p p).closed = false ∧ (t.down = [] → ends u 4 2 ∧ status u R.PWR_STATUS.POLDER = p)) ∧
      (d.pwr.next = none → t.restore = none → ∀ w, t.wake = some w → w < 8 → Gives .entryAbandon s fun u =>
        u.dev.polder p = old % 8 ∧ (u.dev.p p).closed = false ∧ (t.down = [] → w ≠ 3 → w ≠ 1 → ends u w 0))) ∧
    (d.pwr.run = some t → t.restore = none → t.exits = (p.val, st) :: rest →
      let breaks := t.req.polder.isSome = true ∧ d.exitBreaks p = true
      ((d.p p).forced = false → ¬ breaks → Gives .polderExit s fun u => u.dev.polder p = st % 8 ∧ (u.dev.p p).closed = false ∧
        (p.val < 32 → d.polder p = 2 → bit (u.dev.get (R.OPWR_EVT.EVT p)) 0 = true)) ∧
      ((d.p p).forced = false → breaks → rest = [] → t.entries = [] → t.cur = none → d.pwr.next = none → Gives .polderExit s fun u =>
        ends u 4 0 ∧ status u R.PWR_STATUS.POLDER = p ∧ u.dev.polder p = d.polder p) ∧
      ((d.p p).forced = true → d.on (R.READ.HOT p) = true → rest = [] → t.entries = [] → t.cur = none → d.pwr.next = none → Gives .polderExit s fun u =>
        ends u 4 4 ∧ status u R.PWR_STATUS.POLDER = p ∧ u.dev.polder p = d.polder p ∧ (u.dev.p p).forced = true)) ∧
    (d.pwr.run = some t → t.restore = some ((p.val, st) :: rest) → Gives .polderExit s fun u =>
      u.dev.polder p = st % 8 ∧ (u.dev.p p).closed = false ∧ (p.val < 32 → (u.dev.w p).pads = none)) ∧
    (d.pwr.run = none → d.get R.PWR_STATUS.PROFILE = 2 → d.polder 47 = 0 →
      (quiet → d.barredPolder 47 = none → Gives .dramIdleTimeout s fun u => u.dev.polder 47 = 1 ∧ u.dev.on R.MEM_STATUS.SELF_REF = true) ∧
      (d.get R.SPILL_STATUS.CELLS ≠ 0 → Makes .dramIdleTimeout s d)) ∧
    (d.pwr.run = none → d.get R.PWR_STATUS.PROFILE ≠ 2 → Makes .dramIdleTimeout s d) ∧
    (d.polder 47 = 1 → Gives .dramDemand s fun u => u.dev.polder 47 = 4 ∧ bit (u.dev.get R.PWR_EVT.EVT) 4 = true ∧ u.dev.pwr.demand = true) ∧
    (d.polder 47 ≠ 1 → Makes .dramDemand s d) ∧
    (d.pwr.demand = true → d.polder 47 = 4 → Gives .dramWakeDone s fun u =>
      u.dev.polder 47 = 0 ∧ u.dev.pwr.demand = false)

/-- R326 to R328, R338: pads are released by a 1; a change of ACCT_MODE clears the ACCT registers; the PWR and THM channels; and power failure: PFAIL is noted, the pumping
station gasps and writes a record where the firmware has not, and nothing is undone when PFAIL_N returns high. -/
def Obligations.PowerServices : Prop :=
  ∀ (src : Src) (e : EngId) (v : BitVec 32) (op : Nat) (o : Oct) (p : Fin 49) (s : State),
    let d := s.dev
    let nv := v.toNat
    let acct (x : Dev) (p : Nat) := [x.reg (A.ACCT_0 p), x.reg (A.ACCT_1 p), x.reg (A.ACCT_2 p), x.reg (A.ACCT_3 p)]
    let released (u : Dev) (m : Nat) : Prop := bit (u.get R.PAD_HOLD.OCT) o = (bit (d.get R.PAD_HOLD.OCT) o && !bit m o) ∧
      (u.w o).pads = (if bit m o then none else (d.w o).pads) ∧ u.loop = d.loop
    let q := min 47 (getBits op 13 8)
    let late := d.pwr.pfAt.isSome = true
    (d.barred A.PAD_HOLD = none → Gives (.padRelease src false v) s fun u => released u.dev nv ∧ u.dev.on R.PAD_HOLD_DRAM.DRAM = d.on R.PAD_HOLD_DRAM.DRAM) ∧
    (d.barred A.PAD_HOLD_DRAM = none → Gives (.padRelease src true v) s fun u =>
      released u.dev 0 ∧ u.dev.on R.PAD_HOLD_DRAM.DRAM = (d.on R.PAD_HOLD_DRAM.DRAM && !bit nv 0)) ∧
    (d.barred A.PWR_CFG = none → Gives (.acctModeWrite src v) s fun u =>
      u.dev.on R.PWR_CFG.ACCT_MODE = bit nv 31 ∧ u.dev.get R.PWR_CFG.AUTO_IDLE = getBits nv 26 16 ∧
        u.dev.get R.PWR_CFG.DRAM_IDLE = max 10 (nv % 2 ^ 16) ∧
        acct u.dev p = if bit nv 31 = d.on R.PWR_CFG.ACCT_MODE then acct d p else [0, 0, 0, 0]) ∧
    (d.Asks e 0x200 0 op → Gives (.pwrChRequest e) s fun u => Answered d u.dev e 0x200 0 .sent 0 (u.dev.reg A.PWR_STATUS) ∧
      (d.pwr.run.isSome = true → u.dev.on R.PWR_STATUS.QUEUED = true ∧ u.dev.pwr.run = d.pwr.run)) ∧
    Serves (.pwrChPark e) s e 0x200 1 op 0 0 (fun u => u.reg A.PARK_OCT = op / 2 ^ 32 ∧ u.reg A.PARK_CL = op % 128 ∧
      RegsOnly { d with eng := u.eng } u [A.PARK_OCT, A.PARK_CL]) ∧
    Serves (.pwrChStatus e) s e 0x200 2 op 0 (d.reg A.PWR_STATUS) (fun u => u.regs = d.regs) ∧
    Serves (.pwrChRelease e) s e 0x200 3 op 0 0 (fun u => released u (op % 2 ^ 32) ∧
      u.on R.PAD_HOLD_DRAM.DRAM = (d.on R.PAD_HOLD_DRAM.DRAM && !bit op 32)) ∧
    Serves (.thmChRead e) s e 0x201 0 op 0 (d.reg (A.READ (min (op % 256) 175))) (fun u => u.regs = d.regs) ∧
    Serves (.thmChCap e) s e 0x201 1 op 0 0 (fun u => u.get (R.CAP.CAP_MAX q) = op % 16 ∧
      u.on (R.CAP.CAP_ACTIVE q) = decide (min (op % 16) (d.get (R.CAP.STEP q)) < 15) ∧ RegsOnly { d with eng := u.eng } u [A.CAP q]) ∧
    (Gives .pfailAssert s fun u => bit (u.dev.get R.PWR_EVT.EVT) 0 = true ∧ u.dev.on R.PFAIL_STATUS.LIVE = true ∧
      u.dev.on R.PFAIL_STATUS.AUTO_GASP = false ∧ u.dev.on R.PFAIL_STATUS.AUTO_NV = false ∧ u.dev.pwr.pfAt = some d.up ∧ u.dev.pwr.pfGasp = false) ∧
    (late → d.pwr.pfGasp = false → Gives .autoGasp s fun u => u.dev.on R.PFAIL_STATUS.AUTO_GASP = true ∧
      u.dev.get R.PFAIL_STATUS.GASP_US = 190 ∧ u.dev.pwr.pfGasp = true) ∧
    (¬ late ∨ d.pwr.pfGasp = true → Makes .autoGasp s d) ∧
    (late → d.pwr.pfRec = false → Gives .autoNvRecord s fun u => u.dev.on R.PFAIL_STATUS.AUTO_NV = true ∧ u.dev.pwr.pfRec = true ∧
      u.vault = { s.vault with nv := u.vault.nv } ∧
      (∃ l, l.length = 44 ∧ Recorded s.vault u.vault 1 2 l)) ∧
    (¬ late ∨ d.pwr.pfRec = true → Makes .autoNvRecord s d) ∧
    (Gives .pfailClear s fun u => u.dev.on R.PFAIL_STATUS.LIVE = false ∧ u.dev.on R.PFAIL_STATUS.AUTO_GASP = d.on R.PFAIL_STATUS.AUTO_GASP ∧
      u.dev.pwr.pfAt = none ∧ RegsOnly { d with pwr := u.dev.pwr } u.dev [A.PFAIL_STATUS])

/-- R329, R331 to R336: a scan takes the readings and sets the live bits by level and hysteresis, a CRIT that rises leaves a stop pending, and the band follows the
reading; a sensor excluded is included again; throttling steps down to its floor while hot and up while not; a forced stop prepares its polder and takes it down; two
sentinels at TRIP for four readings trip the device. -/
def Obligations.ThermalControl : Prop :=
  ∀ (src : Src) (r : List (Option Int)) (n : Fin 176) (p : Fin 48) (v : BitVec 32) (t : Trans) (x : Int) (rs : List Int) (s : State),
    let d := s.dev
    let guard (f : Nat → Fld) : Bool :=
      d.on (f p) || (decide (p.val < 32) && (d.on (f (48 + 2 * p)) || d.on (f (49 + 2 * p)) || d.on (f (112 + 2 * p)) || d.on (f (113 + 2 * p))))
    let hot : Prop := guard R.READ.HOT = true ∨ guard R.READ.RATE_HI = true
    let step := d.get (R.CAP.STEP p)
    let stepped (u : State) (k : Nat) : Prop := u.dev.get (R.CAP.STEP p) = k ∧
      u.dev.on (R.CAP.CAP_ACTIVE p) = decide (min (d.get (R.CAP.CAP_MAX p)) k < 15) ∧ RegsOnly d u.dev [A.CAP p, A.THM_EVT]
    let near (u : Dev) (lvl live : Nat → Fld) (n : Nat) : Bool := u.senUsed n &&
      (decide (16 * u.getI (lvl n) ≤ u.temp n) || (d.on (live n) && decide (16 * (u.getI (lvl n) - u.get (R.SCFG.HYST n)) ≤ u.temp n)))
    let above : Nat := rs.countP fun y => decide (((16 * d.get R.SENT_CTRL.TRIP : Nat) : Int) ≤ y)
    (d.on R.THM_CTRL.EN = false → Makes (.thermalScan r) s d) ∧
    (d.on R.THM_CTRL.EN = true → Gives (.thermalScan r) s fun u =>
      (n.val < 112 → r.getD n none = some x → u.dev.on (R.READ.VALID n) = true ∧ u.dev.temp n = max (-2048) (min 2047 x) ∧
        ((d.sen n).hist.length < 10 → u.dev.get (R.READ.RATE n) = 0)) ∧
      (n.val < 112 → r.getD n none = none → u.dev.on (R.READ.VALID n) = false ∧ u.dev.get (R.READ.RATE n) = 0) ∧
      u.dev.on (R.READ.WARN n) = near u.dev R.SLVL.WARN R.READ.WARN n ∧ u.dev.on (R.READ.HOT n) = near u.dev R.SLVL.HOT R.READ.HOT n ∧
      u.dev.on (R.READ.CRIT n) = near u.dev R.SLVL.CRIT R.READ.CRIT n ∧
      (u.dev.on (R.READ.CRIT n) = true → d.on (R.READ.CRIT n) = false → u.dev.on (R.READ.CRIT_SEEN n) = true ∧
        (d.get (R.SCFG.POLDER n) < 48 → u.dev.on (R.CAP.STOP_PEND (d.get (R.SCFG.POLDER n))) = true)) ∧
      (u.dev.senUsed p = true → 16 * d.getI R.BAND_THR.THR3 ≤ u.dev.temp p → u.dev.get (R.CAP.BAND p) = 3)) ∧
    (d.barred (A.SCFG n) = none → d.on (R.SCFG.EXCL n) = true → Gives (.sensorInclude src n v) s fun u =>
      u.dev.on (R.SCFG.EXCL n) = false ∧ u.dev.sen n = { d.sen n with incl := true, stray := 0 } ∧ u.dev.get (R.SCFG.POLDER n) = d.get (R.SCFG.POLDER n) ∧
        RegsOnly { d with thm := u.dev.thm } u.dev [A.SCFG n]) ∧
    (hot → d.get (R.CAP.FLOOR p) < step → Gives (.throttleStep p) s fun u => stepped u (step - 1) ∧ bit (u.dev.get R.THM_EVT.EVT) 1 = true) ∧
    (hot → step ≤ d.get (R.CAP.FLOOR p) → Makes (.throttleStep p) s d) ∧
    (¬ hot → step < 15 → Gives (.throttleStep p) s fun u => stepped u (step + 1)) ∧
    (¬ hot → step = 15 → Makes (.throttleStep p) s d) ∧
    (d.on (R.CAP.STOP_PEND p) = false ∨ (d.p p).prep = true ∨ (d.p p).inReset = true → Makes (.forcedStop p) s d) ∧
    (d.on (R.CAP.STOP_PEND p) = true → (d.p p).prep = false → (d.p p).inReset = false → d.polder p ≠ 2 → Gives (.forcedStop p) s fun u =>
      (u.dev.p p).prep = true ∧ u.dev.on R.PWR_STATUS.BUSY = true ∧ u.dev.pwr.next = none ∧ ∃ t, u.dev.pwr.run = some t ∧ t.res = 5 ∧ t.who = some p.val) ∧
    (d.on (R.CAP.STOP_PEND p) = true → (d.p p).prep = false → (d.p p).inReset = false →
      (d.polder p = 2 → Gives (.forcedStop p) s fun u => u.dev.on (R.CAP.STOP_PEND p) = false ∧ RegsOnly d u.dev [A.CAP p]) ∧
      (d.polder p ≤ 1 → p.val < 32 → d.pwr.run = none → (∀ q, d.testRun q = none) → Gives (.forcedStop p) s fun u =>
        (u.dev.p p).prep = true ∧ u.dev.on R.PWR_STATUS.BUSY = true ∧ (u.dev.w p).ops = (d.w p).ops ++ [.reg 0x10 0x200FFFFF] ∧
          ∃ t, u.dev.pwr.run = some t ∧ t.res = 5 ∧ t.who = some p.val)) ∧
    (d.pwr.run = some t → (d.p p).prep = true → t.res = 5 → t.who = some p.val → p.val < 32 → d.polder p ≤ 1 → d.pwr.next = none →
      Gives (.forcedStopRun p) s fun u => u.dev.polder p = 2 ∧ (u.dev.p p).forced = true ∧ (u.dev.p p).prep = false ∧ u.dev.on (R.CAP.FORCED p) = true ∧
        u.dev.on (R.CAP.STOP_PEND p) = false ∧ u.dev.get R.PWR_STATUS.RESULT = 5 ∧ u.dev.pwr.run = none ∧ bit (u.dev.get R.THM_EVT.EVT) 6 = true ∧
        bit (u.dev.get R.PAD_HOLD.OCT) p = true) ∧
    (d.pwr.run = some t → (d.p p).prep = true → t.res = 5 → t.who = some p.val → Gives (.forcedStopRun p) s fun u => (u.dev.p p).forced = true ∧
      (u.dev.p p).prep = false ∧ u.dev.on (R.CAP.FORCED p) = true ∧ u.dev.on (R.CAP.STOP_PEND p) = false ∧ u.dev.get R.PWR_STATUS.RESULT = 5) ∧
    (d.pwr.run = none ∨ (d.p p).prep = false → Makes (.forcedStopRun p) s d) ∧
    (∀ r0 r1 r2 r3, rs = [r0, r1, r2, r3] → (∀ y, y ∈ rs → -2048 ≤ y ∧ y ≤ 2047) →
      (above < 2 → Gives (.sentinelRead r0 r1 r2 r3) s fun u => u.dev.thm.trips = 0 ∧ u.vault = s.vault ∧ u.dev.getI (R.SENT_READ.TEMP 0) = r0 ∧
        u.dev.getI (R.SENT_READ.TEMP 3) = r3 ∧ u.dev.thm.tripped = d.thm.tripped) ∧
      (2 ≤ above → d.thm.trips < 3 → Gives (.sentinelRead r0 r1 r2 r3) s fun u => u.dev.thm.trips = d.thm.trips + 1 ∧ u.vault = s.vault) ∧
      (2 ≤ above → d.thm.trips = 3 → d.thm.tripped = false → Gives (.sentinelRead r0 r1 r2 r3) s fun u => u.dev.thm.tripped = true ∧
        (∀ q : Fin 48, u.dev.polder q = 5 ∧ (u.dev.p q).inReset = true) ∧ ∀ k : Fin 8, (u.dev.e (88 + k)).st = .halted))

/-! Life cycle, security, NV store and debug port (spec/13). -/

/-- R341 to R346, R349 to R351, R363: a transition needs the state, the pair, the serial, the slot, the signature and no other pending, and then blows the fuses, logs the
transition, ends the session and clears RRK; a field is fused once, where the state permits; ROLLBACK only rises; a reset request needs its key, its MAC and a new counter;
RETURNED and SCRAPPED destroy the owner's secrets. -/
def Obligations.LifeCycleAndFuses : Prop :=
  ∀ (e : EngId) (op : Nat) (s : State), s.dev.clean .shared →
    let d := s.dev
    let v := s.vault
    let own (k : Nat) : Prop := 2 ≤ k ∧ k ≤ 7
    let advanced (u : State) (to_ slot : Nat) : Prop := u.vault = { v with next := some to_, nv := u.vault.nv } ∧
      Recorded v u.vault 0 0x10 (bytesLE v.life 1 ++ bytesLE to_ 1 ++ bytesLE slot 1 ++ bytesLE v.serialNo.toNat 8) ∧
      bit (u.dev.get R.SEC_EVT.EVT) 4 = true ∧ u.dev.sec.rrk = none ∧ u.dev.get R.DBG_STATUS.LEVEL = (if v.life ≤ 1 then 2 else 0) ∧
      u.dev.get R.DBG_STATUS.SLOT = 0 ∧ u.dev.reg A.DBG_HOLD_LO = 0 ∧ u.dev.reg A.DBG_HOLD_HI = 0 ∧
      RegsOnly { d with sec := u.dev.sec, eng := u.dev.eng } u.dev [A.SEC_EVT, A.DBG_STATUS, A.DBG_HOLD_LO, A.DBG_HOLD_HI]
    let mfg := d.get R.DBG_STATUS.LEVEL = 2 ∧ v.life = 0 ∧ (v.key 0).isSome = true ∧ v.next = none
    let t := d.block e op 32
    let x := blk t 5 1
    let k := blk t 6 1
    let sig := (t.drop 64).take 96
    let authorised := (v.life = 1 ∧ x = 2 ∧ k ≤ 1 ∧ v.serial.isSome = true) ∨ (v.life = 2 ∧ x = 3 ∧ own k) ∨ (v.life = 2 ∧ x = 4 ∧ k ≤ 7) ∨
      (v.life = 3 ∧ x = 4 ∧ own k) ∨ (x = 5 ∧ ((v.life = 1 ∨ v.life = 4) ∧ k ≤ 1 ∨ v.life = 2 ∧ k ≤ 7 ∨ v.life = 3 ∧ own k))
    let good := blk t 4 1 = v.life ∧ authorised ∧ blk t 8 8 = v.serialNo.toNat ∧ v.usable k = true ∧ v.key k = some (keyHash sig) ∧
      signatureOk sig ((t.drop 160).take 96) (t.take 64) = true ∧ v.next = none
    let b := d.block e op 8
    let f := blk b 0 1
    let val := b.drop 16
    let reserved := f = 14 ∨ f = 15 ∨ 0x1A < f
    let allowed := (f ≤ 1 ∨ f = 8 ∨ f = 13) ∧ v.life ≤ 1 ∨ ((2 ≤ f ∧ f ≤ 7) ∨ (9 ≤ f ∧ f ≤ 12)) ∧ v.life = 2 ∨
      ((0x12 ≤ f ∧ f ≤ 0x17) ∨ f = 0x19 ∨ f = 0x1A) ∧ (v.life = 2 ∨ v.life = 3)
    let fused := (f ≤ 10 ∧ (v.key f).isSome = true) ∨ (f = 11 ∧ v.oik.isSome = true) ∨ (f = 12 ∧ v.policy.isSome = true) ∨
      (f = 13 ∧ v.serial.isSome = true) ∨ (16 ≤ f ∧ f - 16 ∈ v.revoked)
    let last := v.life = 3 ∧ 0x12 ≤ f ∧ f ≤ 0x17 ∧ ∀ j, own j → j ≠ f - 16 → v.usable j = false
    let n := op % 128
    let up := v.rollback < n ∧ n ≤ 64 ∧ n ≤ d.sec.rollImg ∧ 1 ≤ v.life ∧ v.life ≤ 3
    let p := d.block e op 4
    let cnt := beNat ((p.drop 3).take 4)
    let mac (key : List Byte) : Prop := (hmac384 key (p.take 16)).take 16 = (p.drop 16).take 16
    let refused (c : Instr) (cmd det : Nat) : Prop := d.Asks e 0x202 cmd op → Gives c s fun u => Answered d u.dev e 0x202 cmd .sent 13 det ∧ u.vault = v ∧
      RegsOnly { d with eng := u.dev.eng } u.dev (if cmd = 3 then [A.SEC_EVT] else []) ∧ (cmd = 3 → bit (u.dev.get R.SEC_EVT.EVT) 5 = true)
    let done (c : Instr) (cmd : Nat) (q : State → Prop) : Prop := d.Asks e 0x202 cmd op → Gives c s fun u => Answered d u.dev e 0x202 cmd .sent 0 0 ∧ q u
    (mfg → Gives .lcToManufacture s fun u => advanced u 1 0) ∧
    (¬ mfg → exec .lcToManufacture s = .next s) ∧
    (good → done (.lcAdvance e) 4 fun u => advanced u x k) ∧
    (¬ good → refused (.lcAdvance e) 4 0) ∧
    (reserved → refused (.fuseWrite e) 6 4) ∧
    (¬ reserved → ¬ allowed → refused (.fuseWrite e) 6 1) ∧
    (allowed → fused → refused (.fuseWrite e) 6 2) ∧
    (allowed → ¬ fused → last → refused (.fuseWrite e) 6 3) ∧
    (allowed → ¬ fused → ¬ last → done (.fuseWrite e) 6 fun u => Recorded v u.vault 0 0x12 [BitVec.ofNat 8 f] ∧
      (f ≤ 10 → u.vault = { v with keys := u.vault.keys, nv := u.vault.nv } ∧ ∀ j, u.vault.key j = if j = f then some (blk val 0 48) else v.key j) ∧
      (f = 11 → u.vault = { v with oik := some (val.take 32), nv := u.vault.nv }) ∧
      (f = 12 → ∃ y, y < 32 ∧ bit y 0 = bit (blk val 0 1) 0 ∧ bit y 4 = bit (blk val 0 1) 4 ∧ getBits y 3 1 = min 3 (getBits (blk val 0 1) 3 1) ∧
        u.vault = { v with policy := some y, nv := u.vault.nv }) ∧
      (f = 13 → u.vault = { v with serial := some (BitVec.ofNat 64 (blk val 0 8)), nv := u.vault.nv }) ∧
      (16 ≤ f → u.vault = { v with revoked := v.revoked ++ [f - 16], nv := u.vault.nv })) ∧
    (up → done (.rollbackSet e) 5 fun u => u.vault = { v with rollback := n, nv := u.vault.nv } ∧
      Recorded v u.vault 0 0x11 (bytesLE v.rollback 1 ++ bytesLE n 1)) ∧
    (¬ up → refused (.rollbackSet e) 5 0) ∧
    (d.sec.rrk = none → refused (.rrCheck e) 3 1) ∧
    (∀ key, d.sec.rrk = some key →
      (¬ mac key → refused (.rrCheck e) 3 2) ∧
      (mac key → cnt ≤ v.rrCount → refused (.rrCheck e) 3 3) ∧
      (mac key → v.rrCount < cnt → 1 < blk p 1 1 ∨ 31 < blk p 2 1 → refused (.rrCheck e) 3 4) ∧
      (mac key → v.rrCount < cnt → blk p 1 1 ≤ 1 → blk p 2 1 ≤ 31 → done (.rrCheck e) 3 fun u => u.vault = { v with nv := u.vault.nv } ∧
        u.vault.rrCount = cnt ∧ u.dev.regs = d.regs ∧ ∀ w, w ≠ 1024 → u.vault.nv.read w = v.nv.read w)) ∧
    ((v.life = 4 ∨ v.life = 5) → v.life ∉ v.wiped → Gives .secretDestruction s fun u => u.dev = d ∧ u.vault.oikDead = true ∧
      u.vault.life = v.life ∧ u.vault.keys = v.keys ∧ v.life ∈ u.vault.wiped ∧
      (∀ j, own j ∨ j = 9 ∨ j = 10 → j ∈ u.vault.revoked) ∧ (v.life = 5 → ∀ j, j ≤ 10 → j ∈ u.vault.revoked) ∧
      ∀ i, u.vault.nv.byte i = if (0x2040 ≤ i ∧ i < 0x10000) ∨ (0x2000 ≤ i ∧ i < 0x2008) then 0 else v.nv.byte i) ∧
    (v.life < 4 ∨ v.life ∈ v.wiped → exec .secretDestruction s = .next s)

/-- R346, R347, R352 to R355: RRK is loaded and cleared; random numbers wait while a health test fails; the NV channel reads any word, writes the software area alone
and appends records; NV_DATA reads and stores the word at NV_ADDR and moves on. -/
def Obligations.KeysAndRecords : Prop :=
  ∀ (e : EngId) (op : Nat) (src : Src) (x : BitVec 32) (s : State), s.dev.clean .shared → (∀ w, s.vault.nv.syndrome w = 0) →
    let d := s.dev
    let v := s.vault
    let fst := op % 8192
    let n := min (getBits op 28 16 + 1) (8192 - fst)
    let b (n : Nat) := d.block e op n
    let t := blk (b 8) 0 1
    let w := d.get R.NV_ADDR.WORD
    let back (u : State) : Nat := (Tbl.get 0 u.dev.reads (srcKey src)).toNat
    let moved (u : State) : Prop := u.dev.get R.NV_ADDR.WORD = (w + 1) % 8192
    let waits (q : Req) : Bool := q.chan == 0x202 && q.cmd == 0 && q.phase == .taken
    (Serves (.keyLoad e) s e 0x202 1 op 0 0 fun u => u = { d with eng := u.eng, sec := { d.sec with rrk := some (b 4) } }) ∧
    (Serves (.keyClear e) s e 0x202 2 op 0 0 fun u => u = { d with eng := u.eng, sec := { d.sec with rrk := none } }) ∧
    (Gives .trngHealthFail s fun u => bit (u.dev.get R.SEC_EVT.EVT) 6 = true ∧ RegsOnly { d with sec := { d.sec with trngBad := true } } u.dev [A.SEC_EVT]) ∧
    (d.sec.trngBad = false → d.Asks e 0x202 0 op → Gives (.secRandom e) s fun u => ∃ y, y < 2 ^ 32 ∧ Answered d u.dev e 0x202 0 .sent 0 y ∧
      u.dev = { d with eng := u.dev.eng, freeCtr := d.freeCtr + 1 }) ∧
    (d.sec.trngBad = true → d.Asks e 0x202 0 op → Gives (.secRandom e) s fun u => (∃ q, u.dev.req e 0x202 0 .taken = some q) ∧ u.dev = { d with eng := u.dev.eng }) ∧
    (d.sec.trngBad = false → Makes .trngOutputResume s d) ∧
    (d.sec.trngBad = true → Gives .trngOutputResume s fun u => u.dev.sec = { d.sec with trngBad := false } ∧ u.dev.regs = d.regs ∧
      (88 ≤ e.val → ((d.e e).reqs.filter waits).length ≤ 8 → u.dev.req e 0x202 0 .taken = none) ∧ (e.val < 88 → u.dev.e e = d.e e)) ∧
    (d.Asks e 0x204 0 op → Gives (.nvRead e) s fun u => Answered d u.dev e 0x204 0 .sent 0 0 ∧ u.vault = v ∧ u.dev.regs = d.regs ∧
      ∀ i, i < n → u.dev.sharedS.raw (524288 * (e / 8) + (opOffset op / 8 + i) % 524288) = v.nv.raw (fst + i)) ∧
    (fst < 1032 → d.Asks e 0x204 1 op → Gives (.nvWrite e) s fun u => Answered d u.dev e 0x204 1 .sent 13 0 ∧ u.vault = v) ∧
    (1032 ≤ fst → d.Asks e 0x204 1 op → Gives (.nvWrite e) s fun u => Answered d u.dev e 0x204 1 .sent 0 0 ∧ u.vault = { v with nv := u.vault.nv } ∧
      (∀ i, i < n → u.vault.nv.raw (fst + i) = blk (b n) (8 * i) 8) ∧ ∀ i, i < fst ∨ fst + n ≤ i → u.vault.nv.raw i = v.nv.raw i) ∧
    (t = 1 ∨ 128 ≤ t → d.Asks e 0x204 2 op → Gives (.nvRecord e) s fun u => Answered d u.dev e 0x204 2 .sent 0 ((v.seq + 1) % 2 ^ 32) ∧
      u.vault = { v with nv := u.vault.nv } ∧ Recorded v u.vault 1 t (((b 8).drop 16).take 44)) ∧
    (t ≠ 1 → t < 128 → d.Asks e 0x204 2 op → Gives (.nvRecord e) s fun u => Answered d u.dev e 0x204 2 .sent 13 0 ∧ u.vault = v) ∧
    (d.barred A.NV_DATA_LO = none → Gives (.nvDataLoRead src) s fun u => back u = v.nv.raw w % 2 ^ 32 ∧ u.dev.sec.nvWord = BitVec.ofNat 64 (v.nv.raw w) ∧
      u.dev.regs = d.regs ∧ u.vault = v) ∧
    (d.barred A.NV_DATA_HI = none → Gives (.nvDataHiRead src) s fun u => back u = d.sec.nvWord.toNat / 2 ^ 32 ∧ moved u ∧ u.vault = v ∧
      RegsOnly { d with reads := u.dev.reads } u.dev [A.NV_ADDR]) ∧
    (d.sec.nvFree ≤ d.up → Gives (.nvDataHiWrite x) s fun u => moved u ∧ u.dev.reg A.NV_DATA_HI = x.toNat ∧
      (1032 ≤ w → u.vault = { v with nv := v.nv.putWord w (x.toNat * 2 ^ 32 + d.reg A.NV_DATA_LO) } ∧ u.dev.on R.NV_STATUS.DENIED = d.on R.NV_STATUS.DENIED) ∧
      (w < 1032 → u.vault = v ∧ u.dev.on R.NV_STATUS.DENIED = true)) ∧
    (d.up < d.sec.nvFree → Gives (.nvDataHiWrite x) s fun u => u.vault = v ∧ u.dev.reg A.NV_ADDR = d.reg A.NV_ADDR ∧
      u.dev.sec.nvWait = d.sec.nvWait ++ [BitVec.ofNat 64 (x.toNat * 2 ^ 32 + d.reg A.NV_DATA_LO)])

/-- R356 to R358, R360: an instruction that is not allowed acts as BYPASS; a response grants a level or counts a failure, and the eighth failure locks the port; the session
ends on DBG_LOCK; DBG_HOLD takes its mask at FULL. -/
def Obligations.DebugPort : Prop :=
  ∀ (pins shift : Nat) (r : BitVec 1568) (l : List Byte) (m : BitVec 49) (s : State),
    let d := s.dev
    let v := s.vault
    let tap (d : Dev) (n x : Nat) : Dev := { d with sec := { d.sec with ir := n, tdo := x } }
    let level := d.get R.DBG_STATUS.LEVEL
    let scan := level = 2 ∧ (v.life = 0 ∨ v.life = 1 ∨ v.life = 4)
    let lv := blk l 0 1
    let k := blk l 1 1
    let key := (l.drop 4).take 96
    let slotOk := k ≤ 2 ∧ v.usable (8 + k) = true
    let allowed := (v.life = 2 ∧ 1 ≤ lv ∧ lv ≤ 2) ∨ (v.life = 3 ∧ 1 ≤ k ∧ (lv = 1 ∨ (lv = 2 ∧ bit v.pol 0 = true))) ∨
      (v.life = 4 ∧ ((k = 0 ∧ lv = 2) ∨ (1 ≤ k ∧ lv = 1)))
    let hashOk := v.key (8 + k) = some (keyHash key)
    let sigOk := signatureOk key ((l.drop 100).take 96) ((d.challenge v).1 ++ l.take 2) = true
    let fails := d.get R.DBG_STATUS.FAILS
    let result (u : State) (n : Nat) : Prop := u.dev.get R.DBG_STATUS.LAST_RESULT = n ∧ u.dev.sec.resp = none ∧ u.dev.sec.nonce = []
    let failed (n : Nat) : Prop := Gives .dbgRespChecked s fun u => result u n ∧ u.dev.get R.DBG_STATUS.FAILS = fails + 1 ∧
      u.dev.get R.DBG_STATUS.LEVEL = level ∧ bit (u.dev.get R.SEC_EVT.EVT) 2 = true ∧
      (fails = 7 → u.dev.on R.DBG_STATUS.LOCKOUT = true ∧ bit (u.dev.get R.SEC_EVT.EVT) 3 = true ∧ Recorded v u.vault 0 0x14 (bytesLE 8 1)) ∧
      (fails < 7 → u.dev.on R.DBG_STATUS.LOCKOUT = false ∧ u.vault = v)
    (Makes .tapReset s (tap d 2 0)) ∧
    (scan → Makes (.extest pins shift) s (tap { d with sec := { d.sec with bscan := shift } } 0 pins) ∧
      Makes (.samplePreload pins shift) s (tap { d with sec := { d.sec with bscan := shift } } 1 pins)) ∧
    (¬ scan → Makes (.extest pins shift) s (tap d 0xFF 0) ∧ Makes (.samplePreload pins shift) s (tap d 0xFF 0)) ∧
    (Makes .idcode s (tap d 2 (d.reg A.ID))) ∧
    (Makes .bypass s (tap d 0xFF 0)) ∧
    (v.life = 5 ∨ d.sec.trngBad = true → Makes .dbgChal s (tap d 0xFF 0)) ∧
    (v.life ≠ 5 → d.sec.trngBad = false → Gives .dbgChal s fun u => u.dev.sec.ir = 0x10 ∧ u.dev.sec.nonce.length = 4 ∧
      (d.sec.nonce.length = 4 → u.dev.sec.nonce = d.sec.nonce) ∧ u.dev.regs = d.regs ∧
      u.dev.sec.tdo = leNat (u.dev.sec.nonce.flatMap (fun x => bytesLE x.toNat 8) ++ bytesLE v.serialNo.toNat 8 ++ bytesLE v.life 1 ++ bytesLE fails 1)) ∧
    (v.life = 5 → Makes (.dbgResp r) s (tap d 0xFF 0)) ∧
    (v.life ≠ 5 → Gives (.dbgResp r) s fun u => u.dev.sec.resp = some (d.sec.resp.getD (bytesLE r.toNat 196)) ∧ u.dev.regs = d.regs) ∧
    (d.sec.resp = none → Makes .dbgRespChecked s d) ∧
    (d.sec.resp = some l →
      (Gives .dbgRespChecked s fun u => 1 ≤ u.dev.get R.DBG_STATUS.LAST_RESULT ∧ u.dev.get R.DBG_STATUS.LAST_RESULT ≤ 6 ∧ u.dev.sec.resp = none ∧ u.dev.sec.nonce = []) ∧
      (d.on R.DBG_STATUS.LOCKOUT = true → Gives .dbgRespChecked s fun u => result u 6 ∧ u.vault = v ∧ RegsOnly { d with sec := u.dev.sec, freeCtr := u.dev.freeCtr } u.dev [A.DBG_STATUS]) ∧
      (d.on R.DBG_STATUS.LOCKOUT = false → fails ≤ 7 →
        (¬ slotOk → failed 4) ∧ (slotOk → ¬ allowed → failed 5) ∧ (slotOk → allowed → ¬ hashOk → failed 3) ∧
        (slotOk → allowed → hashOk → ¬ sigOk → failed 2) ∧
        (slotOk → allowed → hashOk → sigOk → Gives .dbgRespChecked s fun u => result u 1 ∧ u.dev.get R.DBG_STATUS.LEVEL = lv ∧
          u.dev.get R.DBG_STATUS.SLOT = k + 1 ∧ u.dev.get R.DBG_STATUS.FAILS = 0 ∧ bit (u.dev.get R.SEC_EVT.EVT) 1 = true ∧
          Recorded v u.vault 0 0x13 (l.take 2)))) ∧
    (Makes .dbgStatus s (tap d 0x12 (d.reg A.DBG_STATUS))) ∧
    (Makes (.dbgLock false) s (tap d 0x15 0)) ∧
    (Gives (.dbgLock true) s fun u => u.dev.get R.DBG_STATUS.LEVEL = (if v.life ≤ 1 then 2 else 0) ∧ u.dev.get R.DBG_STATUS.SLOT = 0 ∧
      u.dev.get R.DBG_STATUS.FAILS = fails ∧ u.dev.reg A.DBG_HOLD_LO = 0 ∧ u.dev.reg A.DBG_HOLD_HI = 0 ∧
      RegsOnly (tap d 0x15 0) u.dev [A.DBG_STATUS, A.DBG_HOLD_LO, A.DBG_HOLD_HI]) ∧
    (level = 2 → Gives (.dbgHold m) s fun u => u.dev.reg A.DBG_HOLD_LO = m.toNat % 2 ^ 32 ∧ u.dev.reg A.DBG_HOLD_HI = m.toNat / 2 ^ 32 ∧
      RegsOnly (tap d 0x14 (d.reg A.DBG_HOLD_LO + d.reg A.DBG_HOLD_HI * 2 ^ 32)) u.dev [A.DBG_HOLD_LO, A.DBG_HOLD_HI]) ∧
    (level ≠ 2 → Makes (.dbgHold m) s (tap d 0xFF 0))

/-- R359: every DBG_ACCESS command acts as BYPASS at CLOSED, is ignored while another is BUSY, answers DENIED below its level, and otherwise has its effect and leaves the
status and data that Capture-DR returns once it completes. -/
def Obligations.DebugAccess : Prop :=
  ∀ (sel : BitVec 8) (addr data : BitVec 32) (w : DWord) (s : State), s.dev.clean .loc → s.dev.clean .shared →
    let d := s.dev
    let v := s.vault
    let a := addr.toNat
    let level := d.get R.DBG_STATUS.LEVEL
    let tapped (st : Nat) : Dev := { d with sec := { d.sec with ir := 0x13, tdo := st + d.sec.data.toNat * 2 ^ 44 } }
    let ends (u : State) (st x : Nat) : Prop := u.dev.sec.busy = some (st, BitVec.ofNat 64 x)
    let nothing (u : State) : Prop := u.vault = v ∧ u.dev = { tapped d.sec.st with sec := u.dev.sec }
    let Entry (c : Instr) (lv : Nat) : Prop :=
      (level = 0 → Makes c s { d with sec := { d.sec with ir := 0xFF, tdo := 0 } }) ∧
      (1 ≤ level → d.sec.busy.isSome = true → Makes c s (tapped 1)) ∧
      (1 ≤ level → level < lv → d.sec.busy = none → Gives c s fun u => ends u 2 0 ∧ nothing u)
    let Does (c : Instr) (p : State → Prop) : Prop := d.sec.busy = none → Gives c s p
    let bad (c : Instr) : Prop := Does c fun u => ends u 5 0 ∧ nothing u
    let closed (b : Nat) (c : Instr) : Prop := Does c fun u => ends u (if b = 3 then 4 else 3) 0 ∧ nothing u
    let e := 8 * (sel.toNat / 16) + sel.toNat % 8
    let named := sel.toNat / 16 < 12
    let there := named ∧ d.barredPolder (clPolder (sel.toNat / 16)) = none
    let st := (d.e e).st
    let mapped := a % 8 = 0 ∧ regionOf (BitVec.ofNat 64 a) ≠ .outside
    let listed := a ≤ 71 ∨ (73 ≤ a ∧ a ≤ 78) ∨ a = 80 ∨ (96 ≤ a ∧ a ≤ 103) ∨ (88 ≤ e ∧ 104 ≤ a ∧ a ≤ 106)
    let engReg := a ≤ 32 ∨ (64 ≤ a ∧ listed)
    let text := regionOf (BitVec.ofNat 64 a) = .text
    let field := v.fuseDetail (a % 256)
    let staged := d.sec.stage.flatMap fun w => bytesLE w.toNat 4
    (Entry .dbgNop 1 ∧ Entry (.dbgRegRead addr) 1 ∧ Entry (.dbgRegWrite addr data) 2 ∧ Entry (.dbgEngHalt sel) 2 ∧ Entry (.dbgEngResume sel) 2 ∧
      Entry (.dbgEngStep sel) 2 ∧ Entry (.dbgEngRegRead sel addr) 1 ∧ Entry (.dbgEngRegWrite sel addr w) 2 ∧ Entry (.dbgStoreRead sel addr) 1 ∧
      Entry (.dbgStoreWrite sel addr w) 2 ∧ Entry (.dbgFuseStage addr data) 2 ∧ Entry (.dbgFuseWrite addr) 2) ∧
    (1 ≤ level → Does .dbgNop fun u => ends u 0 0 ∧ nothing u) ∧
    (1 ≤ level → 2 ^ 26 ≤ a ∨ a % 4 ≠ 0 → bad (.dbgRegRead addr) ∧ (level = 2 → bad (.dbgRegWrite addr data))) ∧
    (1 ≤ level → a < 2 ^ 26 → a % 4 = 0 → d.barred a = none →
      (Does (.dbgRegRead addr) fun u => (∃ x, x < 2 ^ 32 ∧ ends u 0 x) ∧ u.vault = v ∧ u.dev.regs = d.regs) ∧
      (isPllLock a = false → Does (.dbgRegRead addr) fun u => ends u 0 (({ d with sec := (tapped d.sec.st).sec } : Dev).show_ v .dbg a) ∧ nothing u) ∧
      (level = 2 → d.sec.busy = none → ∃ t u, exec (.registerWrite .dbg (BitVec.ofNat 26 a) true data) { s with dev := tapped d.sec.st } = .next t ∧
        exec (.dbgRegWrite addr data) s = .next u ∧ u.vault = t.vault ∧ (t.dev.sec.ir = 0x13 → ends u 0 0 ∧ u.dev = { t.dev with sec := u.dev.sec }))) ∧
    (1 ≤ level → a < 2 ^ 26 → a % 4 = 0 → ∀ c, d.barred a = some c →
      (Does (.dbgRegRead addr) fun u => ends u (if c = 3 then 4 else 3) 0 ∧ bit (u.dev.get R.HOST_EVT.EVT) 0 = true ∧ u.vault = v) ∧
      (level = 2 → Does (.dbgRegWrite addr data) fun u => ends u (if c = 3 then 4 else 3) 0 ∧ bit (u.dev.get R.HOST_EVT.EVT) 0 = true ∧ u.vault = v)) ∧
    (level = 2 → ¬ named → bad (.dbgEngHalt sel) ∧ bad (.dbgEngResume sel) ∧ bad (.dbgEngStep sel) ∧ bad (.dbgEngRegRead sel addr) ∧
      bad (.dbgEngRegWrite sel addr w) ∧ bad (.dbgStoreRead sel addr) ∧ bad (.dbgStoreWrite sel addr w)) ∧
    (level = 2 → there →
      (Does (.dbgEngHalt sel) fun u => ends u 0 0 ∧ (u.dev.e e).st = if st = .loading then .loading else .halted) ∧
      (st = .halted → Does (.dbgEngResume sel) fun u => ends u 0 0 ∧ (u.dev.e e).st = .running ∧ (u.dev.e e).pc = (d.e e).pc ∧ ∀ n, (u.dev.e e).r n = (d.e e).r n) ∧
      (st ≠ .halted → (Does (.dbgEngResume sel) fun u => ends u 0 0 ∧ nothing u) ∧ (Does (.dbgEngStep sel) fun u => ends u 0 0 ∧ nothing u)) ∧
      (st = .halted → (d.runEngine e).canIssue e → ∀ gd ga gb : GReg,
        d.wordAtPc e = gd.val * 2 ^ 21 + ga.val * 2 ^ 16 + gb.val * 2 ^ 11 → Does (.dbgEngStep sel) fun u => ends u 0 0 ∧ (u.dev.e e).st = .halted ∧
          (u.dev.e e).pc = (d.e e).pc + 4 ∧ ∀ n, (u.dev.e e).r n = if gd.val = n ∧ n ≠ 0 then (d.e e).r ga + (d.e e).r gb else (d.e e).r n) ∧
      (st = .halted → Does (.dbgEngStep sel) fun u => ends u 0 0 ∧ ((u.dev.e e).st = .halted ∨ (u.dev.e e).st = .fault)) ∧
      (st ≠ .halted → bad (.dbgEngRegWrite sel addr w)) ∧
      (st = .halted →
        (a < 32 → Does (.dbgEngRegWrite sel addr w) fun u => ends u 0 0 ∧ u.dev = { d with eng := u.dev.eng, sec := u.dev.sec } ∧ u.dev.e e = (d.e e).w a w) ∧
        (a = 32 → Does (.dbgEngRegWrite sel addr w) fun u => ends u 0 0 ∧ u.dev.e e = { d.e e with pc := BitVec.ofNat 32 (w.toNat / 4 * 4) }) ∧
        (¬ engReg → bad (.dbgEngRegWrite sel addr w)) ∧
        (64 ≤ a → engReg → Does (.dbgEngRegWrite sel addr w) fun u => ends u 0 0 ∧ u.vault = v ∧
          (a ≠ 105 → u.dev = { d with eng := u.dev.eng, sec := u.dev.sec } ∧ u.dev.e e = (d.e e).syWrite e (a - 64) (d.issueAt e) w))) ∧
      (¬ mapped → bad (.dbgStoreWrite sel addr w)) ∧
      (mapped → Does (.dbgStoreWrite sel addr w) fun u => ends u 0 0 ∧ u.vault = v ∧
          let sp := (cellOf e (BitVec.ofNat 64 a)).1
          StoredAt (d.store sp) (u.dev.store sp) e 8 (BitVec.ofNat 64 a) w.toNat)) ∧
    (1 ≤ level → there →
      (st ≠ .halted → bad (.dbgEngRegRead sel addr)) ∧
      (st = .halted →
        (a < 32 → Does (.dbgEngRegRead sel addr) fun u => ends u 0 ((d.e e).r a).toNat ∧ nothing u) ∧
        (a = 32 → Does (.dbgEngRegRead sel addr) fun u => ends u 0 (d.e e).pc.toNat ∧ nothing u) ∧
        (¬ engReg → bad (.dbgEngRegRead sel addr)) ∧
        (64 ≤ a → engReg → Does (.dbgEngRegRead sel addr) fun u =>
          ends u 0 (if a = 104 then d.peekClaim (e - 88) else (d.syRead e (a - 64) (d.issueAt e)).toNat) ∧ nothing u)) ∧
      (¬ mapped → bad (.dbgStoreRead sel addr)) ∧
      (mapped → (level = 2 ∨ ¬ text) → Does (.dbgStoreRead sel addr) fun u => ends u 0 (d.memAt e 8 (BitVec.ofNat 64 a)) ∧ nothing u)) ∧
    (level = 1 → there → mapped → text → Does (.dbgStoreRead sel addr) fun u => ends u 2 0 ∧ nothing u) ∧
    (level = 2 → named → ∀ c, d.barredPolder (clPolder (sel.toNat / 16)) = some c → closed c (.dbgEngHalt sel) ∧ closed c (.dbgEngResume sel) ∧
      closed c (.dbgEngStep sel) ∧ closed c (.dbgEngRegRead sel addr) ∧ closed c (.dbgEngRegWrite sel addr w) ∧ closed c (.dbgStoreRead sel addr) ∧
      closed c (.dbgStoreWrite sel addr w)) ∧
    (level = 2 → 2 ≤ v.life → bad (.dbgFuseStage addr data) ∧ bad (.dbgFuseWrite addr)) ∧
    (level = 2 → v.life ≤ 1 →
      (11 < a % 16 → bad (.dbgFuseStage addr data)) ∧
      (a % 16 ≤ 11 → Does (.dbgFuseStage addr data) fun u => ends u 0 0 ∧ nothing u ∧ u.dev.sec.stage = d.sec.stage.set (a % 16) data) ∧
      (∀ x, field = some x → Does (.dbgFuseWrite addr) fun u => ends u 5 x ∧ nothing u) ∧
      (field = none → Does (.dbgFuseWrite addr) fun u => ends u 0 0 ∧ u.dev.sec.stage = List.replicate 12 0 ∧
        u.vault = { v.blow (a % 256) staged with nv := u.vault.nv } ∧ Recorded v u.vault 0 0x12 [BitVec.ofNat 8 a])) ∧
    (d.sec.busy = none → Makes .dbgCommandComplete s d) ∧
    (∀ x, d.sec.busy = some x → Makes .dbgCommandComplete s { d with sec := { d.sec with busy := none, st := x.1, data := x.2 } })

/-! Self-test (spec/14) and the host interface, resets and start-up (spec/15, spec/16). -/

/-- R366 to R369, R372 to R377: a self-test request, by a register write or over the channel, is refused with the first DETAIL whose condition holds and then changes
nothing, or starts; at its end the results stand, the target is released and the RUN reply is made; soft repairs take entries of the table; fuse repairs are for BLANK and
MANUFACTURE. -/
def Obligations.SelfTest : Prop :=
  ∀ (src : Src) (e : EngId) (val : BitVec 32) (op : Nat) (tgt : Fin 49) (x : BistResult) (r : BistRun) (s : State),
    let d := s.dev
    let life := s.vault.life
    let cmd (k : Nat) (w : Via) : Instr := if k = 0 then .bistMem w else if k = 1 then .bistLbist w else if k = 2 then .bistAnalog w else .bistAon w
    let trg (w : Nat) : Nat := min (w % 64) 48
    let ln (w : Nat) : Option Nat := if bit w 20 then some (getBits w 18 16) else none
    let deep (g : Nat) : Prop := d.get (R.LPWR_STATUS.TX_STATE g) = 2 ∧ d.get (R.LPWR_STATUS.RX_STATE g) = 2
    let bad (k w : Nat) (dbg : Prop) : Nat → Prop
      | 1 => ¬ ((life = 0 ∧ dbg) ∨ life = 1 ∨ life = 2 ∨ life = 4 ∨ (life = 3 ∧ k ≠ 3))
      | 2 => (d.testRun (trg w)).isSome = true ∨ (trg w < 32 ∧ (k = 1 ∨ k = 2) ∧ 8 ≤ d.octTests)
      | 3 => 1 < d.polder (trg w) ∨ (d.p (trg w)).closed = true ∨ (d.p (trg w)).inReset = true
      | 4 => (trg w < 32 ∧ ln w = none ∧ ¬ ((∀ l, l < 8 → deep (8 * trg w + l)) ∧ d.on (R.WEIR_STATUS.PARKED (trg w)) = true)) ∨
          (∃ l, trg w < 32 ∧ ln w = some l ∧ ¬ (deep (8 * trg w + l) ∧ (d.get (R.TRN_STATUS.STATE (8 * trg w + l)) = 0 ∨ d.get (R.TRN_STATUS.STATE (8 * trg w + l)) = 4) ∧
            d.get (R.LB_CTRL.MODE (8 * trg w + l)) = 0 ∧ d.on (R.CAP_CTRL.EN (8 * trg w + l)) = false)) ∨
          (32 ≤ trg w ∧ trg w < 36 ∧ (d.on R.FL_CTRL.RUN = true ∨ d.on R.FL_STATUS.RECLAIM_BUSY = true)) ∨
          (36 ≤ trg w ∧ trg w < 47 ∧ ¬ ((d.c (trg w - 36)).drained = true ∧ ∀ n, n < 8 → (d.e (8 * (trg w - 36) + n)).st = .halted ∨ (d.e (8 * (trg w - 36) + n)).st = .fault)) ∨
          (trg w = 47 ∧ (d.on R.MEM_CFG.EN = true ∨ d.on R.MEM_STATUS.SELF_REF = false ∨ d.get R.SPILL_STATUS.CELLS ≠ 0))
      | _ => (k ≤ 1 ∧ trg w = 48) ∨ (k = 2 ∧ 32 ≤ trg w ∧ trg w ≠ 47) ∨ (k = 3 ∧ trg w ≠ 48) ∨ ((ln w).isSome = true ∧ (k ≠ 2 ∨ 32 ≤ trg w)) ∨
          (k = 3 ∧ ¬ (dbg ∧ ∀ n, n < 8 → (d.e (88 + n)).st = .halted))
    let refused (k w : Nat) (dbg : Prop) (n : Nat) : Prop := 1 ≤ n ∧ n ≤ 5 ∧ bad k w dbg n ∧ ∀ m, 1 ≤ m → m < n → ¬ bad k w dbg m
    let ok (k w : Nat) (dbg : Prop) : Prop := ∀ m, 1 ≤ m → m ≤ 5 → ¬ bad k w dbg m
    let starts (u : Dev) (k w : Nat) (eng : Option Nat) : Prop :=
      (∃ r, u.testRun (trg w) = some r ∧ r.subset = k ∧ r.lane = ln w ∧ r.eng = eng ∧ r.start = d.up) ∧ u.get (R.T_STATUS.STATE (trg w)) = 1 ∧
        u.get (R.T_STATUS.SUBSET (trg w)) = k ∧ u.on (R.T_STATUS.SCOPE (trg w)) = (ln w).isSome ∧
        bit (u.reg (if trg w < 32 then A.BIST_BUSY_LO else A.BIST_BUSY_HI)) (trg w % 32) = true ∧ (u.p (trg w)).test = ((d.p (trg w)).test || (ln w).isNone)
    let word := op % 2 ^ 26
    let soft := d.bist.soft.length
    let n := min x.repaired (512 - soft)
    let left := x.unrepaired + (x.repaired - n)
    let t := tgt.val
    let ends (c : Instr) (state : Nat) (p : Dev → Prop) : Prop := Gives c s fun u => u.dev.get (R.T_STATUS.STATE t) = state ∧ u.dev.testRun t = none ∧
      (u.dev.p t).test = false ∧ bit (u.dev.reg (if t < 32 then A.BIST_BUSY_LO else A.BIST_BUSY_HI)) (t % 32) = false ∧ p u.dev
    let run := d.testRun t = some r ∧ r.eng = none
    let found (l : Nat) := x.lanes.getD l (0, 0)
    let mask (l : Nat) : Nat := if l = 0 then 0xFE else 0xD2
    let clean (l m : Nat) : Prop := (found l).1 = 0 ∧ (found l).2.toNat &&& m = 0
    let shown (u : Dev) (l m : Nat) : Prop := u.reg (A.SLICE_FAIL_LO (8 * t + l)) = (found l).1.toNat % 2 ^ 32 ∧
      u.reg (A.SLICE_FAIL_HI (8 * t + l)) = (found l).1.toNat / 2 ^ 32 ∧ u.reg (A.SLICE_RES (8 * t + l)) = ((found l).2.toNat &&& m) + 1
    (∀ k, k < 4 →
      (∀ j, refused k val.toNat (src = .dbg) j → Gives (cmd k (.reg src val)) s fun u => u.dev.on R.BIST_CMD_STATUS.REFUSED = true ∧
        u.dev.get R.BIST_CMD_STATUS.DETAIL = j ∧ RegsOnly d u.dev [A.BIST_CMD, A.BIST_CMD_STATUS]) ∧
      (ok k val.toNat (src = .dbg) → Gives (cmd k (.reg src val)) s fun u => u.dev.on R.BIST_CMD_STATUS.REFUSED = false ∧ starts u.dev k val.toNat none) ∧
      (getBits op 25 24 = k → d.Asks e 0x203 0 op →
        (∀ j, refused k word False j → Gives (cmd k (.chan e)) s fun u => Answered d u.dev e 0x203 0 .sent 13 j ∧ u.dev.regs = d.regs ∧ u.dev.bist = d.bist) ∧
        (ok k word False → Gives (cmd k (.chan e)) s fun u => starts u.dev k word (some e.val) ∧ ∃ q, u.dev.req e 0x203 0 .taken = some q))) ∧
    (d.testRun t = none → Makes (.bistTestEnd tgt x) s d) ∧
    (d.testRun t = some r → Gives (.bistTestEnd tgt x) s fun u => (u.dev.get (R.T_STATUS.STATE t) = 2 ∨ u.dev.get (R.T_STATUS.STATE t) = 3) ∧ u.dev.testRun t = none ∧
      (u.dev.p t).test = false ∧ bit (u.dev.reg (if t < 32 then A.BIST_BUSY_LO else A.BIST_BUSY_HI)) (t % 32) = false) ∧
    (run → r.subset = 0 → soft ≤ 512 → ends (.bistTestEnd tgt x) (if left = 0 then 2 else 3) fun u => u.get (R.T_STATUS.REPAIRED t) = n ∧
      u.get (R.T_STATUS.UNREPAIRED t) = min 1023 left ∧ u.get R.REPAIR_COUNT.SOFT = soft + n ∧ u.bist.soft = d.bist.soft ++ List.replicate n (t, false)) ∧
    (run → r.subset = 1 ∨ r.subset = 3 → ends (.bistTestEnd tgt x) (if x.pass then 2 else 3) fun u =>
      u.reg (A.T_SIG_LO t) = x.sig.toNat % 2 ^ 32 ∧ u.reg (A.T_SIG_HI t) = x.sig.toNat / 2 ^ 32) ∧
    (run → r.lane = none → t < 47 → (t < 32 ∨ 36 ≤ t) → r.subset ≤ 2 → Gives (.bistTestEnd tgt x) s fun u => u.dev.epoch t = (d.epoch t + 1) % 256) ∧
    (run → r.subset = 2 → t < 32 → s.vault.spares = [] →
      (∀ l, r.lane = some l → l < 8 →
        (clean l 0xC0 → ends (.bistTestEnd tgt x) 2 fun u => shown u l 0xC0) ∧ (¬ clean l 0xC0 → ends (.bistTestEnd tgt x) 3 fun u => shown u l 0xC0)) ∧
      (r.lane = none →
        ((∀ l, l < 8 → clean l (mask l)) → ends (.bistTestEnd tgt x) 2 fun u => ∀ l, l < 8 → shown u l (mask l)) ∧
        ((∃ l, l < 8 ∧ ¬ clean l (mask l)) → ends (.bistTestEnd tgt x) 3 fun u => ∀ l, l < 8 → shown u l (mask l)))) ∧
    (∀ q, d.testRun t = some r → r.eng = some e.val → 88 ≤ e.val → (d.e e).reqs = [q] → q.chan = 0x203 → q.cmd = 0 → q.phase = .taken → q.tgt = 48 →
      min (q.op.toNat % 64) 48 = t → Gives (.bistTestEnd tgt x) s fun u =>
        (u.dev.e e).reqs = [{ q with phase := .answered, rep := BitVec.ofNat 64 (u.dev.reg (A.T_STATUS t)) }]) ∧
    Serves (.bistStatus e) s e 0x203 1 op 0 (d.reg (A.T_STATUS (trg op))) (fun u => u.regs = d.regs) ∧
    (life ≤ 1 → d.Asks e 0x203 2 op → Gives (.fuseRepairs e) s fun u =>
      (∃ m, Answered d u.dev e 0x203 2 .sent 0 m ∧ u.vault.repairs = s.vault.repairs + (d.bist.soft.filter (!·.2)).length) ∧
      (∀ y, y ∈ u.dev.bist.soft → y.2 = true) ∧ u.vault.life = life ∧
      ∀ g : Lane, d.get (R.SPARE_STATUS.MODE g) = 3 → d.on (R.SPARE_STATUS.FUSED g) = false →
        u.dev.on (R.SPARE_STATUS.FUSED g) = true ∧ Tbl.get 0 u.vault.spares g.val = d.get (R.SPARE_STATUS.SLICE g) + 1) ∧
    (2 ≤ life → d.Asks e 0x203 2 op → Gives (.fuseRepairs e) s fun u => Answered d u.dev e 0x203 2 .sent 13 1 ∧ u.vault = s.vault)

/-- R386 to R389, R391: the rings' indices stay below their sizes; a queue takes its settings only while EN = 0; writing EN = 0 empties it; a delivery writes the frame and
then its completion and counts it toward a signal; an injection completes with the status of its enqueue; the timer signals; a failed request stops the queue. -/
def Obligations.HostQueues : Prop :=
  ∀ (src : Src) (q : Fin 64) (val : BitVec 32) (entry : BitVec 256) (fr : FrameRead) (h : Nat) (rest : List Nat) (s : State), s.dev.clean .cell →
    let d := s.dev
    let v := val.toNat
    let sq := 2 ^ d.get (R.Q_CTRL.SQ_SIZE q)
    let cq := 2 ^ d.get (R.Q_CTRL.CQ_SIZE q)
    let head := d.get (R.Q_SQ_HEAD.IDX q)
    let tail := d.get (R.Q_CQ_TAIL.IDX q)
    let x := bytesLE entry.toNat 32
    let ready (dir : Bool) := d.on (R.Q_CTRL.EN q) = true ∧ d.on (R.Q_CTRL.DIR q) = dir ∧ d.on (R.Q_STATUS.STOPPED q) = false ∧ d.get R.HOST_STATUS.PSTATE = 0 ∧
      head ≠ d.get (R.Q_SQ_TAIL.IDX q) ∧ (tail + 1) % cq ≠ d.get (R.Q_CQ_HEAD.IDX q)
    let count := (d.qp q).u + 1
    let place := d.reg (A.Q_CQ_BASE_HI q) * 2 ^ 32 + d.reg (A.Q_CQ_BASE_LO q) + 32 * tail
    let completed (u : Dev) (wrs : List (Nat × List Byte)) (len status : Nat) (c : List Byte) : Prop := u.host.wrs = wrs ++ [(place, c)] ∧ c.length = 32 ∧
      blk c 0 4 = blk x 16 4 ∧ blk c 4 2 = len ∧ blk c 6 1 = status ∧ bit (blk c 7 1) 0 = decide ((d.qp q).lap % 2 = 0) ∧
      u.get (R.Q_SQ_HEAD.IDX q) = (head + 1) % sq ∧ u.get (R.Q_CQ_TAIL.IDX q) = (tail + 1) % cq ∧
      (d.get (R.Q_MOD.COUNT q) ≤ count → u.on (R.Q_STATUS.SIGNAL q) = true ∧ (u.qp q).u = 0 ∧ (u.qp q).timer = false) ∧
      (count < d.get (R.Q_MOD.COUNT q) → u.on (R.Q_STATUS.SIGNAL q) = d.on (R.Q_STATUS.SIGNAL q) ∧ (u.qp q).u = count ∧ (u.qp q).timer = true) ∧
      (u.qp q).lap = (d.qp q).lap + (if (tail + 1) % cq = 0 then 1 else 0)
    let data := (d.frameData (d.frameCells h 64) (descLen (d.desc h))).1
    let room := max 256 (min 16384 (blk x 8 4))
    let fits := d.get (R.Q_CTRL.SQ_SIZE q) ≤ 12 ∧ d.get (R.Q_CTRL.CQ_SIZE q) ≤ 12
    (d.barred (A.Q_SQ_TAIL q) = none → Gives (.sqDoorbell src q val) s fun u => u.dev.get (R.Q_SQ_TAIL.IDX q) = min (v % 4096) (sq - 1) ∧
      RegsOnly d u.dev [A.Q_SQ_TAIL q]) ∧
    (d.barred (A.Q_CQ_HEAD q) = none → Gives (.cqHeadWrite src q val) s fun u => u.dev.get (R.Q_CQ_HEAD.IDX q) = min (v % 4096) (cq - 1) ∧
      RegsOnly d u.dev [A.Q_CQ_HEAD q]) ∧
    (d.barred (A.Q_CTRL q) = none →
      (d.on (R.Q_CTRL.EN q) = true → Makes (.queueEnable src q val) s d) ∧
      (d.on (R.Q_CTRL.EN q) = false → Gives (.queueEnable src q val) s fun u => u.dev.on (R.Q_CTRL.EN q) = true ∧ u.dev.on (R.Q_CTRL.DIR q) = bit v 30 ∧
        u.dev.get (R.Q_CTRL.GROUP q) = min 6 (getBits v 29 27) ∧ u.dev.get (R.Q_CTRL.SQ_SIZE q) = max 4 (min 12 (getBits v 23 20)) ∧
        u.dev.get (R.Q_CTRL.CQ_SIZE q) = max 4 (min 12 (getBits v 19 16)) ∧ u.dev.get (R.Q_CTRL.HOLD_LIM q) = max 1 (v % 2 ^ 16) ∧ RegsOnly d u.dev [A.Q_CTRL q]) ∧
      Gives (.queueDisable src q val) s fun u => u.dev.on (R.Q_CTRL.EN q) = false ∧ u.dev.get (R.Q_SQ_TAIL.IDX q) = 0 ∧ u.dev.get (R.Q_SQ_HEAD.IDX q) = 0 ∧
        u.dev.get (R.Q_CQ_TAIL.IDX q) = 0 ∧ u.dev.get (R.Q_CQ_HEAD.IDX q) = 0 ∧ u.dev.on (R.Q_STATUS.STOPPED q) = false ∧ u.dev.on (R.Q_STATUS.SIGNAL q) = false ∧
        u.dev.qp q = {} ∧ u.dev.get (R.Q_STATUS.DROPS q) = min 65535 (d.get (R.Q_STATUS.DROPS q) + (d.qp q).hold.length) ∧
        (d.on (R.Q_CTRL.EN q) = true → u.dev.on (R.Q_CTRL.DIR q) = d.on (R.Q_CTRL.DIR q) ∧ u.dev.get (R.Q_CTRL.HOLD_LIM q) = d.get (R.Q_CTRL.HOLD_LIM q))) ∧
    (d.awake 32 = true → ready false → fits → (d.qp q).hold = h :: rest → Gives (.hostFrameDelivery q entry) s fun u =>
      (∃ c, completed u.dev [(blk x 0 8, data.take room)] data.length 0 c ∧ bit (blk c 7 1) 2 = decide (room < data.length) ∧
        bit (blk c 7 1) 1 = false ∧ blk c 16 1 = (Tbl.get Held.none d.fab.held h).reason % 256 ∧ blk c 17 1 = descPort (d.desc h)) ∧ (u.dev.qp q).hold = rest) ∧
    (d.awake 32 = true → ready false → (d.qp q).hold = h :: rest → Gives (.hostFrameDelivery q entry) s fun u => (u.dev.qp q).hold = rest) ∧
    ((d.qp q).hold = [] ∨ ¬ ready false ∨ d.awake 32 = false → Makes (.hostFrameDelivery q entry) s d) ∧
    (¬ ready true → Makes (.hostFrameInject q entry fr) s d) ∧
    (ready true → fr = none → Gives (.hostFrameInject q entry fr) s fun u => u.dev.fab = d.fab ∧ u.dev.cellS = d.cellS) ∧
    (ready true → fits →
      let len := max 64 (min 10240 (blk x 12 2))
      (fr = none → Gives (.hostFrameInject q entry fr) s fun u => (∃ c, completed u.dev [] len 11 c) ∧ u.dev.fab = d.fab ∧ u.dev.cellS = d.cellS) ∧
      (∀ l b, fr = some l → d.barredPolder 32 = some b → Gives (.hostFrameInject q entry fr) s fun u =>
        (∃ c, completed u.dev [] len (if b = 3 then 9 else 10) c) ∧ u.dev.fab = d.fab ∧ u.dev.cellS = d.cellS) ∧
      (∀ l, fr = some l → d.barredPolder 32 = none →
        let out := d.enqueue (blk x 8 4 % 2 ^ 20) (bit (blk x 8 4) 24) ((l ++ List.replicate (len - 4) 0).take (len - 4))
        (out.2.1 = 2 → Makes (.hostFrameInject q entry fr) s d) ∧
        (out.2.1 ≠ 2 → Gives (.hostFrameInject q entry fr) s fun u => (∃ c, completed u.dev [] len (out.2.1 % 256) c) ∧ u.dev.fab = out.1.fab ∧
          u.dev.cellS = out.1.cellS))) ∧
    ((d.qp q).timer = true → Gives (.queueTimerExpiry q) s fun u => u.dev.on (R.Q_STATUS.SIGNAL q) = true ∧ (u.dev.qp q).u = 0 ∧ (u.dev.qp q).timer = false ∧
      (d.get R.HOST_STATUS.PSTATE = 3 → u.dev.on R.HOST_STATUS.PME_STATUS = true)) ∧
    ((d.qp q).timer = false → Makes (.queueTimerExpiry q) s d) ∧
    (d.on (R.Q_CTRL.EN q) = false → Makes (.queueStop q) s d) ∧
    (d.on (R.Q_CTRL.EN q) = true → Gives (.queueStop q) s fun u => u.dev.on (R.Q_STATUS.STOPPED q) = true ∧ bit (u.dev.get R.HOST_EVT.EVT) 6 = true ∧
      RegsOnly d u.dev [A.Q_STATUS q, A.HOST_EVT])

/-- R381 to R384, R390, R394, R397: a BAR2 access that is not allowed completes with Unsupported Request, is logged and touches nothing; another reads or writes its bytes,
or waits for a DRAM in IDLE; PME tells the host of work in D3hot; a function reset stops every queue and clears BAR2_PAGE; a configuration request is retried until the ROM
has read the flash. -/
def Obligations.HostFunction : Prop :=
  ∀ (src : Src) (off : BitVec 34) (n : Fin 4097) (l : List (Option Byte)) (kind : Fin 4) (speed : Fin 5) (width : Fin 4) (b c : Bool) (s : State),
    let d := s.dev
    let a := d.get R.BAR2_PAGE.BASE * 2 ^ 30 + off.toNat
    let ur (c : Instr) (code : Nat) : Prop := Gives c s fun u => u.dev.host.b2.st = 2 ∧ u.dev.dram = d.dram ∧ bit (u.dev.get R.HOST_EVT.EVT) 0 = true ∧
      (d.errLog.length < 16 → u.dev.errLog = d.errLog ++ [(2 ^ 31 + 2 ^ 28 + code * 2 ^ 24, off.toNat % 2 ^ 32)])
    let rd : Instr := .bar2Access off (.read n)
    let wr : Instr := .bar2Access off (.write l)
    let on := d.on R.HOST_CTRL.BAR2_EN = true ∧ d.on R.MEM_CFG.EN = true
    let covered (len : Nat) : Prop := ∃ k, k < 16 ∧ bit (d.get (R.REGION_USE.USE k)) 4 = true ∧ d.get (R.REGION_BASE.MIB k) * 2 ^ 20 ≤ a ∧
      a + len ≤ min (d.get (R.REGION_LIMIT.MIB k) * 2 ^ 20) d.usable
    let may (len : Nat) := on ∧ a + len ≤ d.usable ∧ covered len ∧ d.barredPolder 47 = none
    let line := d.on (R.TGT_STATUS.LINE 8)
    let work := ∃ q, q < 64 ∧ d.on (R.Q_CTRL.EN q) = true ∧ (0 < (d.qp q).u ∨ d.on (R.Q_STATUS.SIGNAL q) = true ∨ (d.qp q).hold ≠ [] ∨
      (d.on (R.Q_CTRL.DIR q) = true ∧ d.get (R.Q_SQ_HEAD.IDX q) ≠ d.get (R.Q_SQ_TAIL.IDX q) ∧
        (d.get (R.Q_CQ_TAIL.IDX q) + 1) % 2 ^ d.get (R.Q_CTRL.CQ_SIZE q) = d.get (R.Q_CQ_HEAD.IDX q)))
    let pstate := d.get R.HOST_STATUS.PSTATE
    (¬ on ∨ d.usable < a + n.val → ur rd 6) ∧
    (¬ on ∨ d.usable < a + l.length → ur wr 6) ∧
    (on → a + n.val ≤ d.usable → ¬ covered n.val → ur rd 5) ∧
    (on → a + l.length ≤ d.usable → ¬ covered l.length → ur wr 5) ∧
    (∀ code, on → a + n.val ≤ d.usable → covered n.val → d.barredPolder 47 = some code → ur rd code) ∧
    (∀ code, on → a + l.length ≤ d.usable → covered l.length → d.barredPolder 47 = some code → ur wr code) ∧
    (may n.val → d.polder 47 = 0 → Gives rd s fun u => (u.dev.host.b2.st = 1 ∨ u.dev.host.b2.st = 3) ∧ u.dev.host.b2wait = d.host.b2wait) ∧
    (may l.length → d.polder 47 = 0 → Gives wr s fun u => u.dev.host.b2.st = 1 ∧ u.dev.host.b2wait = d.host.b2wait) ∧
    (may l.length → d.polder 47 ≠ 0 → Gives wr s fun u => u.dev.host.b2wait = d.host.b2wait ++ [{ off := off.toNat, page := a - off.toNat, op := .write l }] ∧
      u.dev.dram = d.dram) ∧
    (may n.val → d.polder 47 ≠ 0 → Gives rd s fun u => u.dev.host.b2wait = d.host.b2wait ++ [{ off := off.toNat, page := a - off.toNat, op := .read n }] ∧
      u.dev.dram = d.dram) ∧
    (may n.val → d.polder 47 = 0 → d.clean .dram → Makes rd s { d with host := { d.host with b2 := { st := 1, bytes := d.dram.bytes a n.val } } }) ∧
    (may n.val → d.polder 47 = 0 → (∃ w, a / 8 ≤ w ∧ w * 8 < a + n.val ∧ d.dram.syndrome w = 0xFF) → 0 < n.val → Gives rd s fun u => u.dev.host.b2.st = 3 ∧
      u.dev.dram = d.dram ∧ bit (u.dev.get R.HOST_EVT.EVT) 0 = true) ∧
    (may l.length → d.polder 47 = 0 → d.clean .dram → Gives wr s fun u => u.dev.host.b2.st = 1 ∧ (∀ w, u.dev.dram.syndrome w = 0) ∧
      (∀ i, i < l.length → u.dev.dram.byte (a + i) = ((l.getD i none).getD (d.dram.byte (a + i)))) ∧
      ∀ i, i < a ∨ a + l.length ≤ i → u.dev.dram.byte i = d.dram.byte i) ∧
    (may n.val → d.polder 47 = 1 → Gives rd s fun u => u.dev.host.b2wait = d.host.b2wait ++ [{ off := off.toNat, page := a - off.toNat, op := .read n }] ∧
      u.dev.polder 47 = 4 ∧ bit (u.dev.get R.PWR_EVT.EVT) 4 = true ∧ u.dev.host.b2 = d.host.b2) ∧
    (pstate = 0 → Gives .d3hotEntry s fun u => u.dev.get R.HOST_STATUS.PSTATE = 3 ∧ bit (u.dev.get R.HOST_EVT.EVT) 4 = true ∧
      (work → u.dev.on R.HOST_STATUS.PME_STATUS = true ∧ (d.on R.HOST_STATUS.PME_STATUS = false → d.host.pmeEn = true → u.dev.host.pmeSent = d.host.pmeSent + 1)) ∧
      (¬ work → u.dev.on R.HOST_STATUS.PME_STATUS = d.on R.HOST_STATUS.PME_STATUS ∧ u.dev.host = d.host)) ∧
    (pstate = 3 → Gives .d0Entry s fun u => u.dev.get R.HOST_STATUS.PSTATE = 0 ∧ bit (u.dev.get R.HOST_EVT.EVT) 5 = true ∧ u.dev.q = d.q ∧
      (d.on R.HOST_STATUS.LINK_UP = true → d.host.intDis = false → u.dev.host.inta = line)) ∧
    (pstate ≠ 0 → Makes .d3hotEntry s d) ∧ (pstate ≠ 3 → Makes .d0Entry s d) ∧
    (pstate = 3 → d.on R.HOST_STATUS.PME_STATUS = true → d.host.pmeEn = true → Makes .pmeResend s { d with host := { d.host with pmeSent := d.host.pmeSent + 1 } }) ∧
    (pstate ≠ 3 ∨ d.on R.HOST_STATUS.PME_STATUS = false ∨ d.host.pmeEn = false → Makes .pmeResend s d) ∧
    (d.barred A.ERR_LOG_0 = none → ∀ e t, (d.errLog = e :: t → Gives (.errLogPop src) s fun u =>
      (Tbl.get 0 u.dev.reads (srcKey src)).toNat = e.1 % 2 ^ 32 ∧ u.dev.reg A.ERR_LOG_1 = e.2 % 2 ^ 32 ∧ u.dev.errLog = t) ∧
      (d.errLog = [] → Gives (.errLogPop src) s fun u => (Tbl.get 0 u.dev.reads (srcKey src)).toNat = 0 ∧ u.dev.regs = d.regs)) ∧
    (Gives (.functionReset kind) s fun u => u.dev.reg A.BAR2_PAGE = 0 ∧ u.dev.host.b2wait = [] ∧ u.dev.host.intDis = false ∧ u.dev.host.pmeEn = false ∧
      u.dev.get (R.TGT_STATUS.DEPTH 8) = 0 ∧ u.dev.get R.HOST_STATUS.PSTATE = 0 ∧
      (kind.val = 3 → bit (u.dev.get R.HOST_EVT.EVT) 3 = true ∧ u.dev.on R.HOST_STATUS.LINK_UP = d.on R.HOST_STATUS.LINK_UP) ∧
      (kind.val ≠ 3 → bit (u.dev.get R.HOST_EVT.EVT) 1 = true ∧ u.dev.on R.HOST_STATUS.LINK_UP = false) ∧
      ∀ q : Fin 64, u.dev.on (R.Q_CTRL.EN q) = false ∧ u.dev.qp q = {} ∧ u.dev.get (R.Q_SQ_HEAD.IDX q) = 0 ∧ u.dev.get (R.Q_CQ_TAIL.IDX q) = 0) ∧
    (Gives (.pcieLinkUp speed width) s fun u => u.dev.on R.HOST_STATUS.LINK_UP = true ∧ u.dev.get R.HOST_STATUS.SPEED = speed.val + 1 ∧
      u.dev.get R.HOST_STATUS.WIDTH = 2 ^ width.val ∧ bit (u.dev.get R.HOST_EVT.EVT) 2 = true ∧ (pstate = 0 → d.host.intDis = false → u.dev.host.inta = line)) ∧
    (d.host.ready = false → ∀ k, Makes (.configurationRequest k) s { d with host := { d.host with retry := true } }) ∧
    (d.host.ready = true →
      Makes (.configurationRequest .other) s { d with host := { d.host with retry := false } } ∧
      (Gives (.configurationRequest (.command b)) s fun u => u.dev.host.intDis = b ∧ u.dev.host.retry = false ∧ u.dev.regs = d.regs ∧
        (pstate = 0 → d.on R.HOST_STATUS.LINK_UP = true → b = false → u.dev.host.inta = line)) ∧
      (Gives (.configurationRequest (.pmcsr b c)) s fun u => u.dev.host = { d.host with pmeEn := b, retry := false } ∧
        u.dev.on R.HOST_STATUS.PME_STATUS = (d.on R.HOST_STATUS.PME_STATUS && !c) ∧ RegsOnly { d with host := u.dev.host } u.dev [A.HOST_STATUS]))

/-- R111, R281, R285, R342, R357, R375, R397 to R399: PORST_N resets everything but the fuses and the NV store; a warm reset raises every epoch and keeps the time base, SCRATCH, FAILS, LOCKOUT,
the soft repairs, the trip and, where KEEP_SR says so, the DRAM; a polder reset is refused, or holds its polder in reset until it is released. -/
def Obligations.Resets : Prop :=
  ∀ (src : Src) (val : BitVec 32) (p : Fin 48) (q : Fin 49) (i : Fin 8) (w : Option (Src × BitVec 32)) (s : State),
    let d := s.dev
    let v := s.vault
    let applied (u : State) : Prop := u.vault = { v with life := v.next.getD v.life, next := none } ∧ u.dev.on R.RST_CAUSE.LC_APPLIED = v.next.isSome ∧
      u.dev.get R.DBG_STATUS.LEVEL = (if v.next.getD v.life ≤ 1 then 2 else 0)
    let group (k : Nat) : List Nat := if 32 ≤ k ∧ k < 36 then [32, 33, 34, 35] else [k]
    let pol := p.val
    let go : Instr := .polderReset src val
    let open_ := d.barred A.RST_CTRL = none
    let busy := d.on R.RST_STATUS.BUSY = true ∨ d.pwr.run.isSome = true
    let test := ∃ k, k ∈ group pol ∧ ((d.p k).test = true ∨ (d.testRun k).isSome = true)
    let shut := ∃ k, k ∈ group pol ∧ (d.polder k = 2 ∨ (d.p k).closed = true ∨ (d.p k).inReset = true)
    let dram := pol = 47 → d.get R.SPILL_STATUS.CELLS = 0 ∧ d.fab.stage = [] ∧ d.cnt.dump = none ∧ d.on R.MEM_STATUS.SELF_REF = true ∧
      ∀ e, e ∈ d.eng → ∀ r, r ∈ e.2.reqs → r.chan = 0x13 → r.phase ≠ .taken
    let refused (n : Nat) : Prop := Gives go s fun u => u.dev.get R.RST_STATUS.RESULT = n ∧ u.dev.get R.RST_STATUS.POLDER = pol ∧
      RegsOnly d u.dev [A.RST_CTRL, A.RST_STATUS]
    (Gives .coldReset s fun u => applied u ∧ u.dev.get R.RST_CAUSE.CAUSE = 0 ∧ u.dev.eng = [] ∧ u.dev.ctr = [] ∧ u.dev.dram = {} ∧ u.dev.locS = {} ∧
      u.dev.sharedS = {} ∧ u.dev.time = {} ∧ u.dev.sec = {} ∧ u.dev.bist = {} ∧ u.dev.fab = {}) ∧
    (v.spares = [] → v.cals = [] → v.aeCals = [] → Gives .coldReset s fun u =>
      ∀ a, a ∉ [A.RST_CAUSE, A.DBG_STATUS, A.REPAIR_COUNT] → (∀ k, k < 8 → a ≠ A.HASH_KEY k) → u.dev.reg a = (RegMap.reset a).toNat) ∧
    ((w = none ∨ open_) → Gives (.warmReset w) s fun u => applied u ∧ u.dev.get R.RST_CAUSE.CAUSE = (if w.isSome then 2 else 1) ∧
      u.dev.epoch q = (d.epoch q + 1) % 256 ∧ u.dev.reg (A.SCRATCH i) = d.reg (A.SCRATCH i) ∧ u.dev.time.sec = d.time.sec ∧ u.dev.time.ps = d.time.ps ∧
      u.dev.get R.DBG_STATUS.FAILS = d.get R.DBG_STATUS.FAILS ∧ u.dev.on R.DBG_STATUS.LOCKOUT = d.on R.DBG_STATUS.LOCKOUT ∧ u.dev.bist.soft = d.bist.soft ∧
      u.dev.bist.run = [] ∧ u.dev.sec = {} ∧ u.dev.ctr = [] ∧ u.dev.thm.tripped = d.thm.tripped ∧ u.dev.eng = [] ∧ u.dev.locS = {} ∧
      (d.get R.MEM_CFG.KEEP_SR = 1 → u.dev.dram = d.dram ∧ u.dev.on R.MEM_STATUS.KEPT = true ∧ u.dev.on R.MEM_STATUS.SELF_REF = true) ∧
      (d.get R.MEM_CFG.KEEP_SR = 0 → u.dev.dram = {}) ∧
      (d.thm.tripped = true → u.dev.polder pol = 5 ∧ (u.dev.p pol).inReset = true) ∧
      (d.thm.tripped = false → u.dev.polder pol = 0 ∧ (u.dev.p pol).inReset = false)) ∧
    (open_ → min 47 (val.toNat % 64) = pol →
      (busy → refused 2) ∧ (¬ busy → test → refused 3) ∧ (¬ busy → ¬ test → shut → refused 4) ∧ (¬ busy → ¬ test → ¬ shut → ¬ dram → refused 5) ∧
      (¬ busy → ¬ test → ¬ shut → dram → Gives go s fun u => u.vault = v ∧ u.dev.on R.RST_STATUS.BUSY = true ∧ u.dev.get R.RST_STATUS.POLDER = pol ∧
        (∀ k, k ∈ group pol → u.dev.polder k = 5 ∧ (u.dev.p k).inReset = true ∧ (u.dev.p k).closed = true ∧ u.dev.epoch k = (d.epoch k + 1) % 256) ∧
        (∀ k : Fin 48, k.val ∉ group pol → u.dev.polder k = d.polder k ∧ u.dev.epoch k = d.epoch k) ∧
        (pol < 32 → bit (u.dev.get R.PAD_HOLD.OCT) pol = false) ∧
        (36 ≤ pol → pol < 47 → ∀ k, k < 8 → u.dev.e (8 * (pol - 36) + k) = {} ∧
          ∀ a, a < 262144 → u.dev.locS.byte (262144 * (8 * (pol - 36) + k) + a) = 0) ∧
        (pol = 47 → u.dev.on R.MEM_STATUS.SELF_REF = true ∧ u.dev.on R.MEM_STATUS.TRAINED = false))) ∧
    (d.on R.RST_STATUS.BUSY = false → Makes .polderResetDone s d) ∧
    (d.on R.RST_STATUS.BUSY = true → Gives .polderResetDone s fun u => u.dev.on R.RST_STATUS.BUSY = false ∧ u.dev.get R.RST_STATUS.RESULT = 1 ∧ u.vault = v ∧
      (d.thm.tripped = true → ∀ k : Fin 49, u.dev.polder k = d.polder k)) ∧
    (d.on R.RST_STATUS.BUSY = true → d.get R.RST_STATUS.POLDER = pol → d.thm.tripped = false → Gives .polderResetDone s fun u =>
      u.dev.on R.RST_STATUS.BUSY = false ∧ u.dev.get R.RST_STATUS.RESULT = 1 ∧ (pol < 32 → bit (u.dev.get (R.OPWR_EVT.EVT pol)) 1 = true) ∧
      ∀ k, k ∈ group pol → u.dev.polder k = 0 ∧ (u.dev.p k).inReset = false ∧ (u.dev.p k).closed = false)

/-- R361, R401 to R404, R409, R418: the ROM reads the flash once, takes the valid directory and starts the wardens at the ENTRY of a verified image, or halts with its
cause; DRAM training; the heartbeat needs its kicks; what the SMBus reads; VDD_CORE moves in steps of 10 mV. -/
def Obligations.StartUp : Prop :=
  ∀ (src : Src) (fl : Flash) (res : List (Fin 49 × Fin 4 × BistResult)) (val fail : BitVec 32) (mr8 : Byte) (mv : BitVec 10) (s : State),
    let d := s.dev
    let v := s.vault
    let boot : Instr := .bootRomStart fl res
    let byte (a : Nat) : Byte := flashByte fl.runs a
    let bytes (a n : Nat) : List Byte := (List.range n).map fun i => byte (a + i)
    let valid (a : Nat) : Prop := blk (bytes a 256) 0 4 = 0x43440001 ∧ blk (bytes a 256) 252 4 = fcsOf (bytes a 252)
    let halts (cause : Nat) : Prop := Gives boot s fun u => u.dev.on R.BOOT_ERR.HALTED = true ∧ u.dev.get R.BOOT_ERR.CAUSE = cause ∧ u.dev.boot.romDone = true ∧
      u.dev.host.ready = true ∧ u.dev.eng = d.eng
    let go := d.boot.romDone = false ∧ d.thm.tripped = false
    let at_ := blk (bytes 0 256) 16 4
    let head := bytes at_ 128
    let m := imgHead head
    let only := valid 0 ∧ ¬ valid 0x10000 ∧ blk (bytes 0 256) 12 4 = 1 ∧ bit (blk (bytes 0 256) 25 1) 0 = true
    let smb (c : Instr) (n : Nat) : Prop := Makes c s { d with boot := { d.boot with smb := n } }
    let word (t : Int) : Nat := (t % 65536).toNat
    let tops (l : List Int) (t : Int) : Prop := t ∈ l ∧ ∀ x, x ∈ l → x ≤ t
    let sents := [d.getI (R.SENT_READ.TEMP 0), d.getI (R.SENT_READ.TEMP 1), d.getI (R.SENT_READ.TEMP 2), d.getI (R.SENT_READ.TEMP 3)]
    let read (lo n : Nat) : List Int := ((List.range n).map (lo + ·)).filterMap fun k => if d.senUsed k then some (d.getI (R.READ.TEMP k)) else none
    let train := d.on R.MEM_CFG.EN = false ∧ d.polder 47 = 0 ∧ d.barredPolder 47 = none
    (d.boot.romDone = true ∨ d.thm.tripped = true → exec boot s = .next s) ∧
    (go → Gives boot s fun u => u.dev.boot.romDone = true ∧ u.dev.host.ready = true ∧ 3 ≤ u.dev.get R.BOOT_STATUS.STEP ∧
      (u.dev.on R.BOOT_ERR.HALTED = false → u.dev.get R.BOOT_STATUS.STEP = 5)) ∧
    (go → v.life = 5 → halts 4) ∧
    (go → v.life ≠ 5 → fl.responds = false → halts 3) ∧
    (go → v.life ≠ 5 → fl.responds = true → ¬ valid 0 → ¬ valid 0x10000 → halts 1) ∧
    (go → v.life = 2 → getBits v.pol 3 1 = 0 → fl.responds = true → only →
      let n := if m.fits 11 then m.body else 0
      (∀ x, v.verify head (bytes (at_ + 128) n) (bytes (at_ + 128 + n) 256) 11 = .inl x → Gives boot s fun u => u.dev.on R.BOOT_ERR.HALTED = true ∧
        u.dev.get R.BOOT_ERR.CAUSE = 2 ∧ u.dev.get R.BOOT_ERR.DETAIL = x % 16 ∧ u.vault = v) ∧
      (∀ y, v.verify head (bytes (at_ + 128) n) (bytes (at_ + 128 + n) 256) 11 = .inr y → Gives boot s fun u => u.vault = v ∧ u.dev.boot.romDone = true ∧
        u.dev.get R.BOOT_STATUS.STEP = 5 ∧ u.dev.get R.BOOT_STATUS.DIR = 0 ∧ u.dev.get R.BOOT_STATUS.ENTRY = 0 ∧ u.dev.on R.BOOT_STATUS.SFDP = fl.sfdp ∧
        u.dev.sec.rollImg = m.rollback ∧ u.dev.host.ready = true ∧ u.dev.host.subsys = blk (bytes 0 256) 8 4 ∧
        ∀ k, k < 8 → (u.dev.e (88 + k)).st = .running ∧ (u.dev.e (88 + k)).pc = BitVec.ofNat 32 (m.entry / 4 * 4) ∧
          ∀ i, i < m.text → i < y.length → u.dev.locS.byte (262144 * (88 + k) + i) = y.getD i 0)) ∧
    (d.barred A.DDR_TRAIN = none →
      (train → Gives (.ddrTrainStart src val) s fun u => u.dev.reg A.DDR_TRAIN_STATUS = 2 ^ 31 ∧ RegsOnly d u.dev [A.DDR_TRAIN_STATUS]) ∧
      (¬ train → Makes (.ddrTrainStart src val) s d)) ∧
    (d.on R.DDR_TRAIN_STATUS.BUSY = false → Makes (.ddrTrainDone fail mr8) s d) ∧
    (d.on R.DDR_TRAIN_STATUS.BUSY = true → Gives (.ddrTrainDone fail mr8) s fun u => u.dev.on R.DDR_TRAIN_STATUS.BUSY = false ∧
      u.dev.on R.DDR_TRAIN_STATUS.DONE = decide (fail = 0) ∧ u.dev.on R.DDR_TRAIN_STATUS.FAIL = decide (fail ≠ 0) ∧
      u.dev.get R.DDR_TRAIN_STATUS.MR8 = mr8.toNat ∧ u.dev.reg A.DDR_TRAIN_FAIL = fail.toNat ∧
      u.dev.on R.MEM_STATUS.TRAINED = (d.on R.MEM_STATUS.TRAINED || decide (fail = 0)) ∧ RegsOnly d u.dev [A.DDR_TRAIN_STATUS, A.DDR_TRAIN_FAIL, A.MEM_STATUS]) ∧
    (d.barred A.HEALTHY_CTRL = none → Gives (.healthyKick src val) s fun u => u.dev.healthy = bit val.toNat 31 ∧
      u.dev.get R.HEALTHY_CTRL.TIMEOUT = max 1 (val.toNat % 256) ∧ RegsOnly { d with boot := { d.boot with kick := true } } u.dev [A.HEALTHY_CTRL]) ∧
    (Gives .healthyTimeout s fun u => u.dev.healthy = false ∧ u.dev = { d with boot := { d.boot with kick := false } }) ∧
    (∀ t, tops (read 0 176) t → smb .smbTempMax (word t)) ∧
    (∀ t, tops sents t → smb .smbTempSent (word t)) ∧
    (∀ t, tops (read 48 64) t → smb .smbTempEngine (word t)) ∧
    (read 0 176 = [] → Gives .smbTempMax s fun u => u.dev.regs = d.regs) ∧ (read 48 64 = [] → Gives .smbTempEngine s fun u => u.dev.regs = d.regs) ∧
    smb .smbProfile (d.get R.PWR_STATUS.PROFILE * 64 + d.get R.PWR_STATUS.BUSY * 32 + d.get R.PWR_STATUS.RESULT) ∧
    smb .smbHealth (d.get R.BOOT_STATUS.STEP * 16 + d.get R.PFAIL_STATUS.LIVE * 8 + (if d.thm.tripped then 4 else 0) + d.get R.BOOT_ERR.HALTED * 2 +
      d.get R.HEALTHY_CTRL.EN) ∧
    smb .smbBootErr (d.reg A.BOOT_ERR / 65536) ∧
    (Makes .smbVcore s { d with boot := { d.boot with smb := d.pwr.vcore }, pwr := { d.pwr with alert := false } }) ∧
    (Gives (.vcoreRequestChange mv) s fun u => u.dev.pwr.vcore = max (d.pwr.vcore - 10) (min (d.pwr.vcore + 10) (max 600 (min 750 mv.toNat))) ∧
      u.dev = { d with pwr := { d.pwr with vcore := u.dev.pwr.vcore, alert := d.pwr.alert || decide (u.dev.pwr.vcore ≠ d.pwr.vcore) } })

/-! The fuses and the NV store (R340 to R345, R349, R352). -/

/-- The fuses of the state after reset are lawful. -/
def Obligations.ResetLawful : Prop := State.reset.vault.Lawful

/-- R340, R341, R344, R345, R350: an invariant every step keeps: the life-cycle state exists, a pending transition is one the life cycle has, at most 64 rollback counts,
POLICY without a reserved value, revocations of slots that exist, and the NV store in canonical form. -/
def Obligations.StepKeepsVault : Prop := ∀ s t : State, s.vault.Lawful → step s = .next t → t.vault.Lawful

/-- R340, R342, R344, R345, R350: no step undoes a fuse: hashes, serial, policy and revocations stay, the rollback count and the life-cycle state never fall, and the
life-cycle state changes only to the one that was pending. -/
def Obligations.FusesOnlyForward : Prop :=
  ∀ s t : State, s.vault.Lawful → step s = .next t →
    t.vault.After s.vault ∧ (t.vault.life = s.vault.life ∨ s.vault.next = some t.vault.life)
end

