-- ==== Sys2Proof/Laws/Bits.lean ====
section
/-! SUPPORT. Bit fields: a field just written reads as written, other fields keep their values. -/

namespace Sys2Proof.Machine

theorem getBits_lt (v hi lo : Nat) : getBits v hi lo < 2 ^ (hi + 1 - lo) := Nat.mod_lt _ (Nat.two_pow_pos _)

theorem testBit_getBits (v hi lo i : Nat) : (getBits v hi lo).testBit i = (decide (i < hi + 1 - lo) && v.testBit (i + lo)) := by
  simp [getBits, Nat.testBit_mod_two_pow, Nat.testBit_div_two_pow]

/-- Every bit of a value with one field replaced. -/
theorem testBit_putBits (v hi lo x i : Nat) (h : lo ≤ hi) :
    (putBits v hi lo x).testBit i = if lo ≤ i ∧ i ≤ hi then x.testBit (i - lo) else v.testBit i := by
  have hl : v % 2 ^ lo < 2 ^ lo := Nat.mod_lt _ (Nat.two_pow_pos _)
  have hx : x % 2 ^ (hi + 1 - lo) < 2 ^ (hi + 1 - lo) := Nat.mod_lt _ (Nat.two_pow_pos _)
  have hm : 2 ^ lo * (x % 2 ^ (hi + 1 - lo)) + v % 2 ^ lo < 2 ^ (hi + 1) := by
    have e : 2 ^ (hi + 1) = 2 ^ lo * 2 ^ (hi + 1 - lo) := by rw [← pow_add]; congr 1; omega
    rw [e]
    nlinarith [Nat.two_pow_pos lo]
  have e : putBits v hi lo x = 2 ^ (hi + 1) * (v / 2 ^ (hi + 1)) + (2 ^ lo * (x % 2 ^ (hi + 1 - lo)) + v % 2 ^ lo) := by
    simp only [putBits]
    ring
  rw [e, Nat.testBit_two_pow_mul_add _ hm]
  by_cases h1 : i < hi + 1
  · rw [if_pos h1, Nat.testBit_two_pow_mul_add _ hl]
    by_cases h2 : i < lo
    · rw [if_pos h2, if_neg (by omega), Nat.testBit_mod_two_pow]
      simp [h2]
    · rw [if_neg h2, if_pos (by omega), Nat.testBit_mod_two_pow]
      simp [show i - lo < hi + 1 - lo by omega]
  · rw [if_neg h1, if_neg (by omega), Nat.testBit_div_two_pow]
    congr 1
    omega

/-- The field just written. -/
theorem getBits_putBits_same (v hi lo x : Nat) (h : lo ≤ hi) : getBits (putBits v hi lo x) hi lo = x % 2 ^ (hi + 1 - lo) := by
  apply Nat.eq_of_testBit_eq
  intro i
  rw [testBit_getBits, testBit_putBits _ _ _ _ _ h, Nat.testBit_mod_two_pow]
  by_cases h1 : i < hi + 1 - lo
  · rw [if_pos (by omega)]
    simp
  · simp [h1]

/-- A field apart from the one written. -/
theorem getBits_putBits_ne (v hi lo x a b : Nat) (h : lo ≤ hi) (hd : a < lo ∨ hi < b) :
    getBits (putBits v hi lo x) a b = getBits v a b := by
  apply Nat.eq_of_testBit_eq
  intro i
  rw [testBit_getBits, testBit_getBits, testBit_putBits _ _ _ _ _ h]
  by_cases h1 : i < a + 1 - b
  · rw [if_neg (by omega)]
  · simp [h1]

theorem lt_two_pow_of_testBit {v n : Nat} (h : ∀ i, n ≤ i → v.testBit i = false) : v < 2 ^ n := Nat.lt_pow_two_of_testBit v h

/-- A write of a field keeps the width of the value. -/
theorem putBits_lt {v hi lo x n : Nat} (h : lo ≤ hi) (hn : hi < n) (hv : v < 2 ^ n) : putBits v hi lo x < 2 ^ n := by
  apply lt_two_pow_of_testBit
  intro i hi'
  rw [testBit_putBits _ _ _ _ _ h, if_neg (by omega)]
  exact Nat.testBit_lt_two_pow (Nat.lt_of_lt_of_le hv (Nat.pow_le_pow_right (by omega) hi'))

theorem getBits_mod (v n hi lo : Nat) (h : hi < n) : getBits (v % 2 ^ n) hi lo = getBits v hi lo := by
  apply Nat.eq_of_testBit_eq
  intro i
  rw [testBit_getBits, testBit_getBits, Nat.testBit_mod_two_pow]
  by_cases h1 : i < hi + 1 - lo
  · simp [h1, show i + lo < n by omega]
  · simp [h1]

theorem bit_eq_testBit (v i : Nat) : bit v i = v.testBit i := by
  simp only [bit, Nat.testBit, Nat.shiftRight_eq_div_pow, Nat.one_and_eq_mod_two]
  rcases Nat.mod_two_eq_zero_or_one (v / 2 ^ i) with h | h <;> simp [h]

@[simp] theorem b2n_true : b2n true = 1 := rfl

@[simp] theorem b2n_false : b2n false = 0 := rfl

theorem b2n_le (b : Bool) : b2n b ≤ 1 := by cases b <;> decide

/-- A count that saturates never passes its top. -/
theorem satAdd_le (top v n : Nat) : satAdd top v n ≤ top := by
  unfold satAdd
  split <;> omega

theorem satAdd_eq {top v n : Nat} (h : v + n ≤ top) : satAdd top v n = v + n := by
  unfold satAdd
  rw [if_neg (by omega)]

/-- Clamping lands in the range. -/
theorem clampN_mem {lo hi : Nat} (v : Nat) (h : lo ≤ hi) : lo ≤ clampN lo hi v ∧ clampN lo hi v ≤ hi := by
  unfold clampN
  split
  · omega
  · split <;> omega

theorem clampI_mem {lo hi : Int} (v : Int) (h : lo ≤ hi) : lo ≤ clampI lo hi v ∧ clampI lo hi v ≤ hi := by
  unfold clampI
  split
  · omega
  · split <;> omega

@[simp] theorem length_bytesLE (v n : Nat) : (bytesLE v n).length = n := by
  induction n generalizing v with
  | zero => rfl
  | succ n ih => simp [bytesLE, ih]

/-- The value of n bytes is below 256^n. -/
theorem leNat_lt (l : List Byte) : leNat l < 256 ^ l.length := by
  induction l with
  | nil => simp [leNat]
  | cons b t ih =>
    have := b.isLt
    simp only [leNat, List.length_cons, pow_succ]
    omega

/-- The bytes of a value, put together again. -/
theorem leNat_bytesLE (v n : Nat) : leNat (bytesLE v n) = v % 256 ^ n := by
  induction n generalizing v with
  | zero => simp [bytesLE, leNat, Nat.mod_one]
  | succ n ih =>
    simp only [bytesLE, leNat, ih, BitVec.toNat_ofNat]
    rw [show 256 ^ (n + 1) = 256 * 256 ^ n by ring, Nat.mod_mul]

end Sys2Proof.Machine
end

