-- ==== Sys2Proof/Laws/Tbl.lean ====
section
/-! SUPPORT. Sparse tables: what a read after an update gives, and that updates keep the canonical form. -/

namespace Sys2Proof.Machine

theorem Tbl.get_ins_same {α : Type} (d : α) (k : Nat) (v : α) (t : Tbl α) : Tbl.get d (Tbl.ins k v t) k = v := by
  induction t with
  | nil => simp [Tbl.ins, Tbl.get]
  | cons e t ih =>
    obtain ⟨a, w⟩ := e
    unfold Tbl.ins
    split
    · simp [Tbl.get]
    · split
      · simp [Tbl.get]
      · rename_i h
        simp [Tbl.get, h, ih]

theorem Tbl.get_ins_ne {α : Type} (d : α) {k j : Nat} (v : α) (t : Tbl α) (h : k ≠ j) :
    Tbl.get d (Tbl.ins k v t) j = Tbl.get d t j := by
  induction t with
  | nil => simp [Tbl.ins, Tbl.get, h]
  | cons e t ih =>
    obtain ⟨a, w⟩ := e
    unfold Tbl.ins
    split
    · simp [Tbl.get, h]
    · split
      · rename_i h1
        subst h1
        simp [Tbl.get, h]
      · by_cases h2 : a = j <;> simp [Tbl.get, h2, ih]

theorem Tbl.get_del_same {α : Type} (d : α) (k : Nat) (t : Tbl α) : Tbl.get d (Tbl.del k t) k = d := by
  induction t with
  | nil => rfl
  | cons e t ih =>
    obtain ⟨a, w⟩ := e
    unfold Tbl.del
    split
    · exact ih
    · rename_i h
      simp [Tbl.get, h, ih]

theorem Tbl.get_del_ne {α : Type} (d : α) {k j : Nat} (t : Tbl α) (h : k ≠ j) : Tbl.get d (Tbl.del k t) j = Tbl.get d t j := by
  induction t with
  | nil => rfl
  | cons e t ih =>
    obtain ⟨a, w⟩ := e
    unfold Tbl.del
    split
    · rename_i h1
      subst h1
      simp [Tbl.get, h, ih]
    · by_cases h2 : a = j <;> simp [Tbl.get, h2, ih]

/-- A read of the key just written. -/
@[simp] theorem Tbl.get_set_same {α : Type} [DecidableEq α] (d : α) (t : Tbl α) (k : Nat) (v : α) :
    Tbl.get d (Tbl.set d t k v) k = v := by
  unfold Tbl.set
  split
  · rename_i h
    rw [Tbl.get_del_same, h]
  · exact Tbl.get_ins_same d k v t

/-- A read of another key, whatever the two defaults. -/
theorem Tbl.get_set_ne {α : Type} [DecidableEq α] (d d' : α) (t : Tbl α) {k j : Nat} (v : α) (h : k ≠ j) :
    Tbl.get d (Tbl.set d' t k v) j = Tbl.get d t j := by
  unfold Tbl.set
  split
  · exact Tbl.get_del_ne d t h
  · exact Tbl.get_ins_ne d v t h

/-- A read after a write, in one. -/
theorem Tbl.get_set {α : Type} [DecidableEq α] (d : α) (t : Tbl α) (k j : Nat) (v : α) :
    Tbl.get d (Tbl.set d t k v) j = if k = j then v else Tbl.get d t j := by
  by_cases h : k = j
  · subst h
    simp
  · simp [h, Tbl.get_set_ne d d t v h]

@[simp] theorem Tbl.get_nil {α : Type} (d : α) (k : Nat) : Tbl.get d ([] : Tbl α) k = d := rfl

theorem Tbl.ins_ins {α : Type} (k : Nat) (v w : α) (t : Tbl α) : Tbl.ins k w (Tbl.ins k v t) = Tbl.ins k w t := by
  induction t with
  | nil => simp [Tbl.ins]
  | cons e t ih =>
    obtain ⟨a, x⟩ := e
    by_cases h1 : k < a
    · simp [Tbl.ins, h1]
    · by_cases h2 : a = k
      · simp [Tbl.ins, h2]
      · simp [Tbl.ins, h1, h2, ih]

theorem Tbl.del_ins {α : Type} (k : Nat) (v : α) (t : Tbl α) : Tbl.del k (Tbl.ins k v t) = Tbl.del k t := by
  induction t with
  | nil => simp [Tbl.ins, Tbl.del]
  | cons e t ih =>
    obtain ⟨a, x⟩ := e
    by_cases h1 : k < a
    · simp [Tbl.ins, Tbl.del, h1]
    · by_cases h2 : a = k
      · simp [Tbl.ins, Tbl.del, h2]
      · simp [Tbl.ins, Tbl.del, h1, h2, ih]

/-- Two writes of one key are the second, where the first is listed. -/
theorem Tbl.set_set {α : Type} [DecidableEq α] (d : α) (t : Tbl α) (k : Nat) {v : α} (w : α) (h : v ≠ d) :
    Tbl.set d (Tbl.set d t k v) k w = Tbl.set d t k w := by
  unfold Tbl.set
  rw [if_neg h]
  split
  · exact Tbl.del_ins k v t
  · exact Tbl.ins_ins k v w t

/-! The canonical form. -/

theorem Tbl.wf_cons {α : Type} [DecidableEq α] (d : Nat → α) (a : Nat) (v : α) (t : Tbl α) :
    Tbl.wf d ((a, v) :: t) = true ↔ v ≠ d a ∧ (∀ e ∈ t, a < e.1) ∧ Tbl.wf d t = true := by
  simp [Tbl.wf, and_assoc]

theorem Tbl.mem_del {α : Type} {k : Nat} {t : Tbl α} {e : Nat × α} (h : e ∈ Tbl.del k t) : e ∈ t := by
  induction t with
  | nil => exact h
  | cons x t ih =>
    obtain ⟨a, w⟩ := x
    unfold Tbl.del at h
    split at h
    · exact List.mem_cons_of_mem _ (ih h)
    · rcases List.mem_cons.1 h with rfl | h
      · exact List.mem_cons_self
      · exact List.mem_cons_of_mem _ (ih h)

theorem Tbl.mem_ins {α : Type} {k : Nat} {v : α} {t : Tbl α} {e : Nat × α} (h : e ∈ Tbl.ins k v t) : e = (k, v) ∨ e ∈ t := by
  induction t with
  | nil => simpa [Tbl.ins] using h
  | cons x t ih =>
    obtain ⟨a, w⟩ := x
    unfold Tbl.ins at h
    split at h
    · simpa using h
    · split at h
      · rcases List.mem_cons.1 h with h | h
        · exact .inl h
        · exact .inr (List.mem_cons_of_mem _ h)
      · rcases List.mem_cons.1 h with h | h
        · exact .inr (h ▸ List.mem_cons_self)
        · rcases ih h with h | h
          · exact .inl h
          · exact .inr (List.mem_cons_of_mem _ h)

theorem Tbl.wf_del {α : Type} [DecidableEq α] (d : Nat → α) (k : Nat) {t : Tbl α} (h : Tbl.wf d t = true) :
    Tbl.wf d (Tbl.del k t) = true := by
  induction t with
  | nil => rfl
  | cons x t ih =>
    obtain ⟨a, w⟩ := x
    rw [Tbl.wf_cons] at h
    unfold Tbl.del
    split
    · exact ih h.2.2
    · rw [Tbl.wf_cons]
      exact ⟨h.1, fun e he => h.2.1 e (Tbl.mem_del he), ih h.2.2⟩

theorem Tbl.wf_ins {α : Type} [DecidableEq α] (d : Nat → α) {k : Nat} {v : α} (hv : v ≠ d k) {t : Tbl α}
    (h : Tbl.wf d t = true) : Tbl.wf d (Tbl.ins k v t) = true := by
  induction t with
  | nil => simp [Tbl.ins, Tbl.wf, hv]
  | cons x t ih =>
    obtain ⟨a, w⟩ := x
    have h' := (Tbl.wf_cons d a w t).1 h
    unfold Tbl.ins
    split
    · rename_i hk
      rw [Tbl.wf_cons]
      refine ⟨hv, fun e he => ?_, h⟩
      rcases List.mem_cons.1 he with rfl | he
      · exact hk
      · exact Nat.lt_trans hk (h'.2.1 e he)
    · split
      · rename_i h1
        subst h1
        rw [Tbl.wf_cons]
        exact ⟨hv, h'.2.1, h'.2.2⟩
      · rw [Tbl.wf_cons]
        refine ⟨h'.1, fun e he => ?_, ih h'.2.2⟩
        rcases Tbl.mem_ins he with rfl | he
        · simp only
          omega
        · exact h'.2.1 e he

/-- Every update keeps the canonical form. -/
theorem Tbl.wf_set {α : Type} [DecidableEq α] (d : Nat → α) {t : Tbl α} (h : Tbl.wf d t = true) (k : Nat) (v : α) :
    Tbl.wf d (Tbl.set (d k) t k v) = true := by
  unfold Tbl.set
  split
  · exact Tbl.wf_del d k h
  · rename_i hv
    exact Tbl.wf_ins d hv h

theorem Tbl.wf_filter {α : Type} [DecidableEq α] (d : Nat → α) (p : Nat × α → Bool) {t : Tbl α} (h : Tbl.wf d t = true) :
    Tbl.wf d (t.filter p) = true := by
  induction t with
  | nil => rfl
  | cons x t ih =>
    obtain ⟨a, w⟩ := x
    rw [Tbl.wf_cons] at h
    rw [List.filter_cons]
    split
    · rw [Tbl.wf_cons]
      exact ⟨h.1, fun e he => h.2.1 e (List.mem_of_mem_filter he), ih h.2.2⟩
    · exact ih h.2.2

end Sys2Proof.Machine
end

