-- ==== Sys2Proof/Laws/Regs.lean ====
section
/-! SUPPORT. Registers and their fields: what a read after a write gives. -/

namespace Sys2Proof.Machine

/-- A field lies in a 32-bit register. -/
abbrev Fld.ok (f : Fld) : Prop := f.lo ≤ f.hi ∧ f.hi < 32

theorem Dev.reg_lt (d : Dev) (a : Nat) : d.reg a < 2 ^ 32 := (Tbl.get (RegMap.reset a) d.regs a).isLt

@[simp] theorem Dev.reg_setReg_same (d : Dev) (a v : Nat) : (d.setReg a v).reg a = v % 2 ^ 32 := by
  simp [Dev.reg, Dev.setReg]

theorem Dev.reg_setReg_ne (d : Dev) {a b : Nat} (v : Nat) (h : a ≠ b) : (d.setReg a v).reg b = d.reg b := by
  simp [Dev.reg, Dev.setReg, Tbl.get_set_ne _ _ _ _ h]

theorem Dev.set_eq (d : Dev) (f : Fld) (v : Nat) : d.set f v = d.setReg f.addr (putBits (d.reg f.addr) f.hi f.lo v) := rfl

theorem Dev.reg_set_same (d : Dev) (f : Fld) (v : Nat) (h : f.ok) :
    (d.set f v).reg f.addr = putBits (d.reg f.addr) f.hi f.lo v := by
  rw [Dev.set_eq, Dev.reg_setReg_same, Nat.mod_eq_of_lt (putBits_lt h.1 h.2 (d.reg_lt _))]

theorem Dev.reg_set_ne (d : Dev) (f : Fld) (v : Nat) {a : Nat} (h : f.addr ≠ a) : (d.set f v).reg a = d.reg a :=
  Dev.reg_setReg_ne d _ h

/-- A field just written. -/
theorem Dev.get_set_same (d : Dev) (f : Fld) (v : Nat) (h : f.ok) : (d.set f v).get f = v % 2 ^ f.width := by
  rw [Dev.get, Dev.reg_set_same d f v h, getBits_putBits_same _ _ _ _ h.1, Fld.width]

/-- A field of another register. -/
theorem Dev.get_set_reg (d : Dev) (f g : Fld) (v : Nat) (h : f.addr ≠ g.addr) : (d.set f v).get g = d.get g := by
  rw [Dev.get, Dev.reg_set_ne d f v h, Dev.get]

/-- Another field of the same register. -/
theorem Dev.get_set_bits (d : Dev) (f g : Fld) (v : Nat) (h : f.ok) (hd : g.hi < f.lo ∨ f.hi < g.lo) : (d.set f v).get g = d.get g := by
  by_cases ha : f.addr = g.addr
  · rw [Dev.get, ← ha, Dev.reg_set_same d f v h, getBits_putBits_ne _ _ _ _ _ _ h.1 hd, Dev.get, ha]
  · exact Dev.get_set_reg d f g v ha

theorem Dev.get_setReg_ne (d : Dev) {a : Nat} (v : Nat) (g : Fld) (h : a ≠ g.addr) : (d.setReg a v).get g = d.get g := by
  rw [Dev.get, Dev.reg_setReg_ne d v h, Dev.get]

theorem Dev.get_setReg_same (d : Dev) (v : Nat) (g : Fld) (h : g.hi < 32) : (d.setReg g.addr v).get g = getBits v g.hi g.lo := by
  rw [Dev.get, Dev.reg_setReg_same, getBits_mod _ _ _ _ h]

theorem Dev.get_lt (d : Dev) (f : Fld) : d.get f < 2 ^ f.width := getBits_lt _ _ _

/-- A one-bit field just set or cleared. -/
theorem Dev.on_flag_same (d : Dev) (f : Fld) (b : Bool) (h : f.ok) (hw : f.hi = f.lo) : (d.flag f b).on f = b := by
  have w : f.width = 1 := by
    unfold Fld.width
    omega
  rw [Dev.on, Dev.flag, Dev.get_set_same d f _ h, w]
  cases b <;> rfl

/-- A register put back as it was. -/
theorem Dev.inc_eq (d : Dev) (f : Fld) (n : Nat) : d.inc f n = d.set f (satAdd (2 ^ f.width - 1) (d.get f) n) := rfl

/-- A counting field goes up by n and stops at its top. -/
theorem Dev.get_inc_same (d : Dev) (f : Fld) (n : Nat) (h : f.ok) : (d.inc f n).get f = min (2 ^ f.width - 1) (d.get f + n) := by
  have hw : 0 < 2 ^ f.width := Nat.two_pow_pos _
  have hg := d.get_lt f
  rw [Dev.inc_eq, Dev.get_set_same d f _ h]
  unfold satAdd
  split
  · rw [Nat.mod_eq_of_lt (by omega)]
    omega
  · rw [Nat.mod_eq_of_lt (by omega)]
    omega

/-- Bits of a field just set. -/
theorem Dev.get_orF_same (d : Dev) (f : Fld) (m : Nat) (h : f.ok) : (d.orF f m).get f = (d.get f ||| m) % 2 ^ f.width :=
  Dev.get_set_same d f _ h

end Sys2Proof.Machine
end

