-- ==== Sys2Proof/Laws/State.lean ====
section
/-! SUPPORT. What each update of the state leaves as it was, one lemma per field, and what it writes. -/

namespace Sys2Proof.Machine

@[simp] theorem Dev.freeCtr_setReg (d : Dev) (a v : Nat) : (d.setReg a v).freeCtr = d.freeCtr := rfl
@[simp] theorem Dev.eng_setReg (d : Dev) (a v : Nat) : (d.setReg a v).eng = d.eng := rfl
@[simp] theorem Dev.cl_setReg (d : Dev) (a v : Nat) : (d.setReg a v).cl = d.cl := rfl
@[simp] theorem Dev.dram_setReg (d : Dev) (a v : Nat) : (d.setReg a v).dram = d.dram := rfl
@[simp] theorem Dev.flowS_setReg (d : Dev) (a v : Nat) : (d.setReg a v).flowS = d.flowS := rfl
@[simp] theorem Dev.cellS_setReg (d : Dev) (a v : Nat) : (d.setReg a v).cellS = d.cellS := rfl
@[simp] theorem Dev.locS_setReg (d : Dev) (a v : Nat) : (d.setReg a v).locS = d.locS := rfl
@[simp] theorem Dev.sharedS_setReg (d : Dev) (a v : Nat) : (d.setReg a v).sharedS = d.sharedS := rfl
@[simp] theorem Dev.ctr_setReg (d : Dev) (a v : Nat) : (d.setReg a v).ctr = d.ctr := rfl
@[simp] theorem Dev.lane_setReg (d : Dev) (a v : Nat) : (d.setReg a v).lane = d.lane := rfl
@[simp] theorem Dev.port_setReg (d : Dev) (a v : Nat) : (d.setReg a v).port = d.port := rfl
@[simp] theorem Dev.oct_setReg (d : Dev) (a v : Nat) : (d.setReg a v).oct = d.oct := rfl
@[simp] theorem Dev.tl_setReg (d : Dev) (a v : Nat) : (d.setReg a v).tl = d.tl := rfl
@[simp] theorem Dev.time_setReg (d : Dev) (a v : Nat) : (d.setReg a v).time = d.time := rfl
@[simp] theorem Dev.loop_setReg (d : Dev) (a v : Nat) : (d.setReg a v).loop = d.loop := rfl
@[simp] theorem Dev.chain_setReg (d : Dev) (a v : Nat) : (d.setReg a v).chain = d.chain := rfl
@[simp] theorem Dev.weir_setReg (d : Dev) (a v : Nat) : (d.setReg a v).weir = d.weir := rfl
@[simp] theorem Dev.fab_setReg (d : Dev) (a v : Nat) : (d.setReg a v).fab = d.fab := rfl
@[simp] theorem Dev.q_setReg (d : Dev) (a v : Nat) : (d.setReg a v).q = d.q := rfl
@[simp] theorem Dev.host_setReg (d : Dev) (a v : Nat) : (d.setReg a v).host = d.host := rfl
@[simp] theorem Dev.mem_setReg (d : Dev) (a v : Nat) : (d.setReg a v).mem = d.mem := rfl
@[simp] theorem Dev.cnt_setReg (d : Dev) (a v : Nat) : (d.setReg a v).cnt = d.cnt := rfl
@[simp] theorem Dev.pwr_setReg (d : Dev) (a v : Nat) : (d.setReg a v).pwr = d.pwr := rfl
@[simp] theorem Dev.thm_setReg (d : Dev) (a v : Nat) : (d.setReg a v).thm = d.thm := rfl
@[simp] theorem Dev.sec_setReg (d : Dev) (a v : Nat) : (d.setReg a v).sec = d.sec := rfl
@[simp] theorem Dev.bist_setReg (d : Dev) (a v : Nat) : (d.setReg a v).bist = d.bist := rfl
@[simp] theorem Dev.boot_setReg (d : Dev) (a v : Nat) : (d.setReg a v).boot = d.boot := rfl
@[simp] theorem Dev.up_setReg (d : Dev) (a v : Nat) : (d.setReg a v).up = d.up := rfl
@[simp] theorem Dev.reads_setReg (d : Dev) (a v : Nat) : (d.setReg a v).reads = d.reads := rfl
@[simp] theorem Dev.ur_setReg (d : Dev) (a v : Nat) : (d.setReg a v).ur = d.ur := rfl
@[simp] theorem Dev.pol_setReg (d : Dev) (a v : Nat) : (d.setReg a v).pol = d.pol := rfl
@[simp] theorem Dev.errLog_setReg (d : Dev) (a v : Nat) : (d.setReg a v).errLog = d.errLog := rfl
@[simp] theorem Dev.holders_setReg (d : Dev) (a v : Nat) : (d.setReg a v).holders = d.holders := rfl

@[simp] theorem Dev.freeCtr_set (d : Dev) (f : Fld) (v : Nat) : (d.set f v).freeCtr = d.freeCtr := rfl
@[simp] theorem Dev.eng_set (d : Dev) (f : Fld) (v : Nat) : (d.set f v).eng = d.eng := rfl
@[simp] theorem Dev.cl_set (d : Dev) (f : Fld) (v : Nat) : (d.set f v).cl = d.cl := rfl
@[simp] theorem Dev.dram_set (d : Dev) (f : Fld) (v : Nat) : (d.set f v).dram = d.dram := rfl
@[simp] theorem Dev.flowS_set (d : Dev) (f : Fld) (v : Nat) : (d.set f v).flowS = d.flowS := rfl
@[simp] theorem Dev.cellS_set (d : Dev) (f : Fld) (v : Nat) : (d.set f v).cellS = d.cellS := rfl
@[simp] theorem Dev.locS_set (d : Dev) (f : Fld) (v : Nat) : (d.set f v).locS = d.locS := rfl
@[simp] theorem Dev.sharedS_set (d : Dev) (f : Fld) (v : Nat) : (d.set f v).sharedS = d.sharedS := rfl
@[simp] theorem Dev.ctr_set (d : Dev) (f : Fld) (v : Nat) : (d.set f v).ctr = d.ctr := rfl
@[simp] theorem Dev.lane_set (d : Dev) (f : Fld) (v : Nat) : (d.set f v).lane = d.lane := rfl
@[simp] theorem Dev.port_set (d : Dev) (f : Fld) (v : Nat) : (d.set f v).port = d.port := rfl
@[simp] theorem Dev.oct_set (d : Dev) (f : Fld) (v : Nat) : (d.set f v).oct = d.oct := rfl
@[simp] theorem Dev.tl_set (d : Dev) (f : Fld) (v : Nat) : (d.set f v).tl = d.tl := rfl
@[simp] theorem Dev.time_set (d : Dev) (f : Fld) (v : Nat) : (d.set f v).time = d.time := rfl
@[simp] theorem Dev.loop_set (d : Dev) (f : Fld) (v : Nat) : (d.set f v).loop = d.loop := rfl
@[simp] theorem Dev.chain_set (d : Dev) (f : Fld) (v : Nat) : (d.set f v).chain = d.chain := rfl
@[simp] theorem Dev.weir_set (d : Dev) (f : Fld) (v : Nat) : (d.set f v).weir = d.weir := rfl
@[simp] theorem Dev.fab_set (d : Dev) (f : Fld) (v : Nat) : (d.set f v).fab = d.fab := rfl
@[simp] theorem Dev.q_set (d : Dev) (f : Fld) (v : Nat) : (d.set f v).q = d.q := rfl
@[simp] theorem Dev.host_set (d : Dev) (f : Fld) (v : Nat) : (d.set f v).host = d.host := rfl
@[simp] theorem Dev.mem_set (d : Dev) (f : Fld) (v : Nat) : (d.set f v).mem = d.mem := rfl
@[simp] theorem Dev.cnt_set (d : Dev) (f : Fld) (v : Nat) : (d.set f v).cnt = d.cnt := rfl
@[simp] theorem Dev.pwr_set (d : Dev) (f : Fld) (v : Nat) : (d.set f v).pwr = d.pwr := rfl
@[simp] theorem Dev.thm_set (d : Dev) (f : Fld) (v : Nat) : (d.set f v).thm = d.thm := rfl
@[simp] theorem Dev.sec_set (d : Dev) (f : Fld) (v : Nat) : (d.set f v).sec = d.sec := rfl
@[simp] theorem Dev.bist_set (d : Dev) (f : Fld) (v : Nat) : (d.set f v).bist = d.bist := rfl
@[simp] theorem Dev.boot_set (d : Dev) (f : Fld) (v : Nat) : (d.set f v).boot = d.boot := rfl
@[simp] theorem Dev.up_set (d : Dev) (f : Fld) (v : Nat) : (d.set f v).up = d.up := rfl
@[simp] theorem Dev.reads_set (d : Dev) (f : Fld) (v : Nat) : (d.set f v).reads = d.reads := rfl
@[simp] theorem Dev.ur_set (d : Dev) (f : Fld) (v : Nat) : (d.set f v).ur = d.ur := rfl
@[simp] theorem Dev.pol_set (d : Dev) (f : Fld) (v : Nat) : (d.set f v).pol = d.pol := rfl
@[simp] theorem Dev.errLog_set (d : Dev) (f : Fld) (v : Nat) : (d.set f v).errLog = d.errLog := rfl
@[simp] theorem Dev.holders_set (d : Dev) (f : Fld) (v : Nat) : (d.set f v).holders = d.holders := rfl

@[simp] theorem Dev.freeCtr_flag (d : Dev) (f : Fld) (b : Bool) : (d.flag f b).freeCtr = d.freeCtr := rfl
@[simp] theorem Dev.eng_flag (d : Dev) (f : Fld) (b : Bool) : (d.flag f b).eng = d.eng := rfl
@[simp] theorem Dev.cl_flag (d : Dev) (f : Fld) (b : Bool) : (d.flag f b).cl = d.cl := rfl
@[simp] theorem Dev.dram_flag (d : Dev) (f : Fld) (b : Bool) : (d.flag f b).dram = d.dram := rfl
@[simp] theorem Dev.flowS_flag (d : Dev) (f : Fld) (b : Bool) : (d.flag f b).flowS = d.flowS := rfl
@[simp] theorem Dev.cellS_flag (d : Dev) (f : Fld) (b : Bool) : (d.flag f b).cellS = d.cellS := rfl
@[simp] theorem Dev.locS_flag (d : Dev) (f : Fld) (b : Bool) : (d.flag f b).locS = d.locS := rfl
@[simp] theorem Dev.sharedS_flag (d : Dev) (f : Fld) (b : Bool) : (d.flag f b).sharedS = d.sharedS := rfl
@[simp] theorem Dev.ctr_flag (d : Dev) (f : Fld) (b : Bool) : (d.flag f b).ctr = d.ctr := rfl
@[simp] theorem Dev.lane_flag (d : Dev) (f : Fld) (b : Bool) : (d.flag f b).lane = d.lane := rfl
@[simp] theorem Dev.port_flag (d : Dev) (f : Fld) (b : Bool) : (d.flag f b).port = d.port := rfl
@[simp] theorem Dev.oct_flag (d : Dev) (f : Fld) (b : Bool) : (d.flag f b).oct = d.oct := rfl
@[simp] theorem Dev.tl_flag (d : Dev) (f : Fld) (b : Bool) : (d.flag f b).tl = d.tl := rfl
@[simp] theorem Dev.time_flag (d : Dev) (f : Fld) (b : Bool) : (d.flag f b).time = d.time := rfl
@[simp] theorem Dev.loop_flag (d : Dev) (f : Fld) (b : Bool) : (d.flag f b).loop = d.loop := rfl
@[simp] theorem Dev.chain_flag (d : Dev) (f : Fld) (b : Bool) : (d.flag f b).chain = d.chain := rfl
@[simp] theorem Dev.weir_flag (d : Dev) (f : Fld) (b : Bool) : (d.flag f b).weir = d.weir := rfl
@[simp] theorem Dev.fab_flag (d : Dev) (f : Fld) (b : Bool) : (d.flag f b).fab = d.fab := rfl
@[simp] theorem Dev.q_flag (d : Dev) (f : Fld) (b : Bool) : (d.flag f b).q = d.q := rfl
@[simp] theorem Dev.host_flag (d : Dev) (f : Fld) (b : Bool) : (d.flag f b).host = d.host := rfl
@[simp] theorem Dev.mem_flag (d : Dev) (f : Fld) (b : Bool) : (d.flag f b).mem = d.mem := rfl
@[simp] theorem Dev.cnt_flag (d : Dev) (f : Fld) (b : Bool) : (d.flag f b).cnt = d.cnt := rfl
@[simp] theorem Dev.pwr_flag (d : Dev) (f : Fld) (b : Bool) : (d.flag f b).pwr = d.pwr := rfl
@[simp] theorem Dev.thm_flag (d : Dev) (f : Fld) (b : Bool) : (d.flag f b).thm = d.thm := rfl
@[simp] theorem Dev.sec_flag (d : Dev) (f : Fld) (b : Bool) : (d.flag f b).sec = d.sec := rfl
@[simp] theorem Dev.bist_flag (d : Dev) (f : Fld) (b : Bool) : (d.flag f b).bist = d.bist := rfl
@[simp] theorem Dev.boot_flag (d : Dev) (f : Fld) (b : Bool) : (d.flag f b).boot = d.boot := rfl
@[simp] theorem Dev.up_flag (d : Dev) (f : Fld) (b : Bool) : (d.flag f b).up = d.up := rfl
@[simp] theorem Dev.reads_flag (d : Dev) (f : Fld) (b : Bool) : (d.flag f b).reads = d.reads := rfl
@[simp] theorem Dev.ur_flag (d : Dev) (f : Fld) (b : Bool) : (d.flag f b).ur = d.ur := rfl
@[simp] theorem Dev.pol_flag (d : Dev) (f : Fld) (b : Bool) : (d.flag f b).pol = d.pol := rfl
@[simp] theorem Dev.errLog_flag (d : Dev) (f : Fld) (b : Bool) : (d.flag f b).errLog = d.errLog := rfl
@[simp] theorem Dev.holders_flag (d : Dev) (f : Fld) (b : Bool) : (d.flag f b).holders = d.holders := rfl

@[simp] theorem Dev.freeCtr_setI (d : Dev) (f : Fld) (i : Int) : (d.setI f i).freeCtr = d.freeCtr := rfl
@[simp] theorem Dev.eng_setI (d : Dev) (f : Fld) (i : Int) : (d.setI f i).eng = d.eng := rfl
@[simp] theorem Dev.cl_setI (d : Dev) (f : Fld) (i : Int) : (d.setI f i).cl = d.cl := rfl
@[simp] theorem Dev.dram_setI (d : Dev) (f : Fld) (i : Int) : (d.setI f i).dram = d.dram := rfl
@[simp] theorem Dev.flowS_setI (d : Dev) (f : Fld) (i : Int) : (d.setI f i).flowS = d.flowS := rfl
@[simp] theorem Dev.cellS_setI (d : Dev) (f : Fld) (i : Int) : (d.setI f i).cellS = d.cellS := rfl
@[simp] theorem Dev.locS_setI (d : Dev) (f : Fld) (i : Int) : (d.setI f i).locS = d.locS := rfl
@[simp] theorem Dev.sharedS_setI (d : Dev) (f : Fld) (i : Int) : (d.setI f i).sharedS = d.sharedS := rfl
@[simp] theorem Dev.ctr_setI (d : Dev) (f : Fld) (i : Int) : (d.setI f i).ctr = d.ctr := rfl
@[simp] theorem Dev.lane_setI (d : Dev) (f : Fld) (i : Int) : (d.setI f i).lane = d.lane := rfl
@[simp] theorem Dev.port_setI (d : Dev) (f : Fld) (i : Int) : (d.setI f i).port = d.port := rfl
@[simp] theorem Dev.oct_setI (d : Dev) (f : Fld) (i : Int) : (d.setI f i).oct = d.oct := rfl
@[simp] theorem Dev.tl_setI (d : Dev) (f : Fld) (i : Int) : (d.setI f i).tl = d.tl := rfl
@[simp] theorem Dev.time_setI (d : Dev) (f : Fld) (i : Int) : (d.setI f i).time = d.time := rfl
@[simp] theorem Dev.loop_setI (d : Dev) (f : Fld) (i : Int) : (d.setI f i).loop = d.loop := rfl
@[simp] theorem Dev.chain_setI (d : Dev) (f : Fld) (i : Int) : (d.setI f i).chain = d.chain := rfl
@[simp] theorem Dev.weir_setI (d : Dev) (f : Fld) (i : Int) : (d.setI f i).weir = d.weir := rfl
@[simp] theorem Dev.fab_setI (d : Dev) (f : Fld) (i : Int) : (d.setI f i).fab = d.fab := rfl
@[simp] theorem Dev.q_setI (d : Dev) (f : Fld) (i : Int) : (d.setI f i).q = d.q := rfl
@[simp] theorem Dev.host_setI (d : Dev) (f : Fld) (i : Int) : (d.setI f i).host = d.host := rfl
@[simp] theorem Dev.mem_setI (d : Dev) (f : Fld) (i : Int) : (d.setI f i).mem = d.mem := rfl
@[simp] theorem Dev.cnt_setI (d : Dev) (f : Fld) (i : Int) : (d.setI f i).cnt = d.cnt := rfl
@[simp] theorem Dev.pwr_setI (d : Dev) (f : Fld) (i : Int) : (d.setI f i).pwr = d.pwr := rfl
@[simp] theorem Dev.thm_setI (d : Dev) (f : Fld) (i : Int) : (d.setI f i).thm = d.thm := rfl
@[simp] theorem Dev.sec_setI (d : Dev) (f : Fld) (i : Int) : (d.setI f i).sec = d.sec := rfl
@[simp] theorem Dev.bist_setI (d : Dev) (f : Fld) (i : Int) : (d.setI f i).bist = d.bist := rfl
@[simp] theorem Dev.boot_setI (d : Dev) (f : Fld) (i : Int) : (d.setI f i).boot = d.boot := rfl
@[simp] theorem Dev.up_setI (d : Dev) (f : Fld) (i : Int) : (d.setI f i).up = d.up := rfl
@[simp] theorem Dev.reads_setI (d : Dev) (f : Fld) (i : Int) : (d.setI f i).reads = d.reads := rfl
@[simp] theorem Dev.ur_setI (d : Dev) (f : Fld) (i : Int) : (d.setI f i).ur = d.ur := rfl
@[simp] theorem Dev.pol_setI (d : Dev) (f : Fld) (i : Int) : (d.setI f i).pol = d.pol := rfl
@[simp] theorem Dev.errLog_setI (d : Dev) (f : Fld) (i : Int) : (d.setI f i).errLog = d.errLog := rfl
@[simp] theorem Dev.holders_setI (d : Dev) (f : Fld) (i : Int) : (d.setI f i).holders = d.holders := rfl

@[simp] theorem Dev.freeCtr_inc (d : Dev) (f : Fld) (n : Nat) : (d.inc f n).freeCtr = d.freeCtr := rfl
@[simp] theorem Dev.eng_inc (d : Dev) (f : Fld) (n : Nat) : (d.inc f n).eng = d.eng := rfl
@[simp] theorem Dev.cl_inc (d : Dev) (f : Fld) (n : Nat) : (d.inc f n).cl = d.cl := rfl
@[simp] theorem Dev.dram_inc (d : Dev) (f : Fld) (n : Nat) : (d.inc f n).dram = d.dram := rfl
@[simp] theorem Dev.flowS_inc (d : Dev) (f : Fld) (n : Nat) : (d.inc f n).flowS = d.flowS := rfl
@[simp] theorem Dev.cellS_inc (d : Dev) (f : Fld) (n : Nat) : (d.inc f n).cellS = d.cellS := rfl
@[simp] theorem Dev.locS_inc (d : Dev) (f : Fld) (n : Nat) : (d.inc f n).locS = d.locS := rfl
@[simp] theorem Dev.sharedS_inc (d : Dev) (f : Fld) (n : Nat) : (d.inc f n).sharedS = d.sharedS := rfl
@[simp] theorem Dev.ctr_inc (d : Dev) (f : Fld) (n : Nat) : (d.inc f n).ctr = d.ctr := rfl
@[simp] theorem Dev.lane_inc (d : Dev) (f : Fld) (n : Nat) : (d.inc f n).lane = d.lane := rfl
@[simp] theorem Dev.port_inc (d : Dev) (f : Fld) (n : Nat) : (d.inc f n).port = d.port := rfl
@[simp] theorem Dev.oct_inc (d : Dev) (f : Fld) (n : Nat) : (d.inc f n).oct = d.oct := rfl
@[simp] theorem Dev.tl_inc (d : Dev) (f : Fld) (n : Nat) : (d.inc f n).tl = d.tl := rfl
@[simp] theorem Dev.time_inc (d : Dev) (f : Fld) (n : Nat) : (d.inc f n).time = d.time := rfl
@[simp] theorem Dev.loop_inc (d : Dev) (f : Fld) (n : Nat) : (d.inc f n).loop = d.loop := rfl
@[simp] theorem Dev.chain_inc (d : Dev) (f : Fld) (n : Nat) : (d.inc f n).chain = d.chain := rfl
@[simp] theorem Dev.weir_inc (d : Dev) (f : Fld) (n : Nat) : (d.inc f n).weir = d.weir := rfl
@[simp] theorem Dev.fab_inc (d : Dev) (f : Fld) (n : Nat) : (d.inc f n).fab = d.fab := rfl
@[simp] theorem Dev.q_inc (d : Dev) (f : Fld) (n : Nat) : (d.inc f n).q = d.q := rfl
@[simp] theorem Dev.host_inc (d : Dev) (f : Fld) (n : Nat) : (d.inc f n).host = d.host := rfl
@[simp] theorem Dev.mem_inc (d : Dev) (f : Fld) (n : Nat) : (d.inc f n).mem = d.mem := rfl
@[simp] theorem Dev.cnt_inc (d : Dev) (f : Fld) (n : Nat) : (d.inc f n).cnt = d.cnt := rfl
@[simp] theorem Dev.pwr_inc (d : Dev) (f : Fld) (n : Nat) : (d.inc f n).pwr = d.pwr := rfl
@[simp] theorem Dev.thm_inc (d : Dev) (f : Fld) (n : Nat) : (d.inc f n).thm = d.thm := rfl
@[simp] theorem Dev.sec_inc (d : Dev) (f : Fld) (n : Nat) : (d.inc f n).sec = d.sec := rfl
@[simp] theorem Dev.bist_inc (d : Dev) (f : Fld) (n : Nat) : (d.inc f n).bist = d.bist := rfl
@[simp] theorem Dev.boot_inc (d : Dev) (f : Fld) (n : Nat) : (d.inc f n).boot = d.boot := rfl
@[simp] theorem Dev.up_inc (d : Dev) (f : Fld) (n : Nat) : (d.inc f n).up = d.up := rfl
@[simp] theorem Dev.reads_inc (d : Dev) (f : Fld) (n : Nat) : (d.inc f n).reads = d.reads := rfl
@[simp] theorem Dev.ur_inc (d : Dev) (f : Fld) (n : Nat) : (d.inc f n).ur = d.ur := rfl
@[simp] theorem Dev.pol_inc (d : Dev) (f : Fld) (n : Nat) : (d.inc f n).pol = d.pol := rfl
@[simp] theorem Dev.errLog_inc (d : Dev) (f : Fld) (n : Nat) : (d.inc f n).errLog = d.errLog := rfl
@[simp] theorem Dev.holders_inc (d : Dev) (f : Fld) (n : Nat) : (d.inc f n).holders = d.holders := rfl

@[simp] theorem Dev.freeCtr_orF (d : Dev) (f : Fld) (m : Nat) : (d.orF f m).freeCtr = d.freeCtr := rfl
@[simp] theorem Dev.eng_orF (d : Dev) (f : Fld) (m : Nat) : (d.orF f m).eng = d.eng := rfl
@[simp] theorem Dev.cl_orF (d : Dev) (f : Fld) (m : Nat) : (d.orF f m).cl = d.cl := rfl
@[simp] theorem Dev.dram_orF (d : Dev) (f : Fld) (m : Nat) : (d.orF f m).dram = d.dram := rfl
@[simp] theorem Dev.flowS_orF (d : Dev) (f : Fld) (m : Nat) : (d.orF f m).flowS = d.flowS := rfl
@[simp] theorem Dev.cellS_orF (d : Dev) (f : Fld) (m : Nat) : (d.orF f m).cellS = d.cellS := rfl
@[simp] theorem Dev.locS_orF (d : Dev) (f : Fld) (m : Nat) : (d.orF f m).locS = d.locS := rfl
@[simp] theorem Dev.sharedS_orF (d : Dev) (f : Fld) (m : Nat) : (d.orF f m).sharedS = d.sharedS := rfl
@[simp] theorem Dev.ctr_orF (d : Dev) (f : Fld) (m : Nat) : (d.orF f m).ctr = d.ctr := rfl
@[simp] theorem Dev.lane_orF (d : Dev) (f : Fld) (m : Nat) : (d.orF f m).lane = d.lane := rfl
@[simp] theorem Dev.port_orF (d : Dev) (f : Fld) (m : Nat) : (d.orF f m).port = d.port := rfl
@[simp] theorem Dev.oct_orF (d : Dev) (f : Fld) (m : Nat) : (d.orF f m).oct = d.oct := rfl
@[simp] theorem Dev.tl_orF (d : Dev) (f : Fld) (m : Nat) : (d.orF f m).tl = d.tl := rfl
@[simp] theorem Dev.time_orF (d : Dev) (f : Fld) (m : Nat) : (d.orF f m).time = d.time := rfl
@[simp] theorem Dev.loop_orF (d : Dev) (f : Fld) (m : Nat) : (d.orF f m).loop = d.loop := rfl
@[simp] theorem Dev.chain_orF (d : Dev) (f : Fld) (m : Nat) : (d.orF f m).chain = d.chain := rfl
@[simp] theorem Dev.weir_orF (d : Dev) (f : Fld) (m : Nat) : (d.orF f m).weir = d.weir := rfl
@[simp] theorem Dev.fab_orF (d : Dev) (f : Fld) (m : Nat) : (d.orF f m).fab = d.fab := rfl
@[simp] theorem Dev.q_orF (d : Dev) (f : Fld) (m : Nat) : (d.orF f m).q = d.q := rfl
@[simp] theorem Dev.host_orF (d : Dev) (f : Fld) (m : Nat) : (d.orF f m).host = d.host := rfl
@[simp] theorem Dev.mem_orF (d : Dev) (f : Fld) (m : Nat) : (d.orF f m).mem = d.mem := rfl
@[simp] theorem Dev.cnt_orF (d : Dev) (f : Fld) (m : Nat) : (d.orF f m).cnt = d.cnt := rfl
@[simp] theorem Dev.pwr_orF (d : Dev) (f : Fld) (m : Nat) : (d.orF f m).pwr = d.pwr := rfl
@[simp] theorem Dev.thm_orF (d : Dev) (f : Fld) (m : Nat) : (d.orF f m).thm = d.thm := rfl
@[simp] theorem Dev.sec_orF (d : Dev) (f : Fld) (m : Nat) : (d.orF f m).sec = d.sec := rfl
@[simp] theorem Dev.bist_orF (d : Dev) (f : Fld) (m : Nat) : (d.orF f m).bist = d.bist := rfl
@[simp] theorem Dev.boot_orF (d : Dev) (f : Fld) (m : Nat) : (d.orF f m).boot = d.boot := rfl
@[simp] theorem Dev.up_orF (d : Dev) (f : Fld) (m : Nat) : (d.orF f m).up = d.up := rfl
@[simp] theorem Dev.reads_orF (d : Dev) (f : Fld) (m : Nat) : (d.orF f m).reads = d.reads := rfl
@[simp] theorem Dev.ur_orF (d : Dev) (f : Fld) (m : Nat) : (d.orF f m).ur = d.ur := rfl
@[simp] theorem Dev.pol_orF (d : Dev) (f : Fld) (m : Nat) : (d.orF f m).pol = d.pol := rfl
@[simp] theorem Dev.errLog_orF (d : Dev) (f : Fld) (m : Nat) : (d.orF f m).errLog = d.errLog := rfl
@[simp] theorem Dev.holders_orF (d : Dev) (f : Fld) (m : Nat) : (d.orF f m).holders = d.holders := rfl

@[simp] theorem Dev.regs_bump (d : Dev) (n k : Nat) : (d.bump n k).regs = d.regs := rfl
@[simp] theorem Dev.freeCtr_bump (d : Dev) (n k : Nat) : (d.bump n k).freeCtr = d.freeCtr := rfl
@[simp] theorem Dev.eng_bump (d : Dev) (n k : Nat) : (d.bump n k).eng = d.eng := rfl
@[simp] theorem Dev.cl_bump (d : Dev) (n k : Nat) : (d.bump n k).cl = d.cl := rfl
@[simp] theorem Dev.dram_bump (d : Dev) (n k : Nat) : (d.bump n k).dram = d.dram := rfl
@[simp] theorem Dev.flowS_bump (d : Dev) (n k : Nat) : (d.bump n k).flowS = d.flowS := rfl
@[simp] theorem Dev.cellS_bump (d : Dev) (n k : Nat) : (d.bump n k).cellS = d.cellS := rfl
@[simp] theorem Dev.locS_bump (d : Dev) (n k : Nat) : (d.bump n k).locS = d.locS := rfl
@[simp] theorem Dev.sharedS_bump (d : Dev) (n k : Nat) : (d.bump n k).sharedS = d.sharedS := rfl
@[simp] theorem Dev.lane_bump (d : Dev) (n k : Nat) : (d.bump n k).lane = d.lane := rfl
@[simp] theorem Dev.port_bump (d : Dev) (n k : Nat) : (d.bump n k).port = d.port := rfl
@[simp] theorem Dev.oct_bump (d : Dev) (n k : Nat) : (d.bump n k).oct = d.oct := rfl
@[simp] theorem Dev.tl_bump (d : Dev) (n k : Nat) : (d.bump n k).tl = d.tl := rfl
@[simp] theorem Dev.time_bump (d : Dev) (n k : Nat) : (d.bump n k).time = d.time := rfl
@[simp] theorem Dev.loop_bump (d : Dev) (n k : Nat) : (d.bump n k).loop = d.loop := rfl
@[simp] theorem Dev.chain_bump (d : Dev) (n k : Nat) : (d.bump n k).chain = d.chain := rfl
@[simp] theorem Dev.weir_bump (d : Dev) (n k : Nat) : (d.bump n k).weir = d.weir := rfl
@[simp] theorem Dev.fab_bump (d : Dev) (n k : Nat) : (d.bump n k).fab = d.fab := rfl
@[simp] theorem Dev.q_bump (d : Dev) (n k : Nat) : (d.bump n k).q = d.q := rfl
@[simp] theorem Dev.host_bump (d : Dev) (n k : Nat) : (d.bump n k).host = d.host := rfl
@[simp] theorem Dev.mem_bump (d : Dev) (n k : Nat) : (d.bump n k).mem = d.mem := rfl
@[simp] theorem Dev.cnt_bump (d : Dev) (n k : Nat) : (d.bump n k).cnt = d.cnt := rfl
@[simp] theorem Dev.pwr_bump (d : Dev) (n k : Nat) : (d.bump n k).pwr = d.pwr := rfl
@[simp] theorem Dev.thm_bump (d : Dev) (n k : Nat) : (d.bump n k).thm = d.thm := rfl
@[simp] theorem Dev.sec_bump (d : Dev) (n k : Nat) : (d.bump n k).sec = d.sec := rfl
@[simp] theorem Dev.bist_bump (d : Dev) (n k : Nat) : (d.bump n k).bist = d.bist := rfl
@[simp] theorem Dev.boot_bump (d : Dev) (n k : Nat) : (d.bump n k).boot = d.boot := rfl
@[simp] theorem Dev.up_bump (d : Dev) (n k : Nat) : (d.bump n k).up = d.up := rfl
@[simp] theorem Dev.reads_bump (d : Dev) (n k : Nat) : (d.bump n k).reads = d.reads := rfl
@[simp] theorem Dev.ur_bump (d : Dev) (n k : Nat) : (d.bump n k).ur = d.ur := rfl
@[simp] theorem Dev.pol_bump (d : Dev) (n k : Nat) : (d.bump n k).pol = d.pol := rfl
@[simp] theorem Dev.errLog_bump (d : Dev) (n k : Nat) : (d.bump n k).errLog = d.errLog := rfl
@[simp] theorem Dev.holders_bump (d : Dev) (n k : Nat) : (d.bump n k).holders = d.holders := rfl

@[simp] theorem Dev.regs_onE (d : Dev) (e : Nat) (f : EngSt → EngSt) : (d.onE e f).regs = d.regs := rfl
@[simp] theorem Dev.freeCtr_onE (d : Dev) (e : Nat) (f : EngSt → EngSt) : (d.onE e f).freeCtr = d.freeCtr := rfl
@[simp] theorem Dev.cl_onE (d : Dev) (e : Nat) (f : EngSt → EngSt) : (d.onE e f).cl = d.cl := rfl
@[simp] theorem Dev.dram_onE (d : Dev) (e : Nat) (f : EngSt → EngSt) : (d.onE e f).dram = d.dram := rfl
@[simp] theorem Dev.flowS_onE (d : Dev) (e : Nat) (f : EngSt → EngSt) : (d.onE e f).flowS = d.flowS := rfl
@[simp] theorem Dev.cellS_onE (d : Dev) (e : Nat) (f : EngSt → EngSt) : (d.onE e f).cellS = d.cellS := rfl
@[simp] theorem Dev.locS_onE (d : Dev) (e : Nat) (f : EngSt → EngSt) : (d.onE e f).locS = d.locS := rfl
@[simp] theorem Dev.sharedS_onE (d : Dev) (e : Nat) (f : EngSt → EngSt) : (d.onE e f).sharedS = d.sharedS := rfl
@[simp] theorem Dev.ctr_onE (d : Dev) (e : Nat) (f : EngSt → EngSt) : (d.onE e f).ctr = d.ctr := rfl
@[simp] theorem Dev.lane_onE (d : Dev) (e : Nat) (f : EngSt → EngSt) : (d.onE e f).lane = d.lane := rfl
@[simp] theorem Dev.port_onE (d : Dev) (e : Nat) (f : EngSt → EngSt) : (d.onE e f).port = d.port := rfl
@[simp] theorem Dev.oct_onE (d : Dev) (e : Nat) (f : EngSt → EngSt) : (d.onE e f).oct = d.oct := rfl
@[simp] theorem Dev.tl_onE (d : Dev) (e : Nat) (f : EngSt → EngSt) : (d.onE e f).tl = d.tl := rfl
@[simp] theorem Dev.time_onE (d : Dev) (e : Nat) (f : EngSt → EngSt) : (d.onE e f).time = d.time := rfl
@[simp] theorem Dev.loop_onE (d : Dev) (e : Nat) (f : EngSt → EngSt) : (d.onE e f).loop = d.loop := rfl
@[simp] theorem Dev.chain_onE (d : Dev) (e : Nat) (f : EngSt → EngSt) : (d.onE e f).chain = d.chain := rfl
@[simp] theorem Dev.weir_onE (d : Dev) (e : Nat) (f : EngSt → EngSt) : (d.onE e f).weir = d.weir := rfl
@[simp] theorem Dev.fab_onE (d : Dev) (e : Nat) (f : EngSt → EngSt) : (d.onE e f).fab = d.fab := rfl
@[simp] theorem Dev.q_onE (d : Dev) (e : Nat) (f : EngSt → EngSt) : (d.onE e f).q = d.q := rfl
@[simp] theorem Dev.host_onE (d : Dev) (e : Nat) (f : EngSt → EngSt) : (d.onE e f).host = d.host := rfl
@[simp] theorem Dev.mem_onE (d : Dev) (e : Nat) (f : EngSt → EngSt) : (d.onE e f).mem = d.mem := rfl
@[simp] theorem Dev.cnt_onE (d : Dev) (e : Nat) (f : EngSt → EngSt) : (d.onE e f).cnt = d.cnt := rfl
@[simp] theorem Dev.pwr_onE (d : Dev) (e : Nat) (f : EngSt → EngSt) : (d.onE e f).pwr = d.pwr := rfl
@[simp] theorem Dev.thm_onE (d : Dev) (e : Nat) (f : EngSt → EngSt) : (d.onE e f).thm = d.thm := rfl
@[simp] theorem Dev.sec_onE (d : Dev) (e : Nat) (f : EngSt → EngSt) : (d.onE e f).sec = d.sec := rfl
@[simp] theorem Dev.bist_onE (d : Dev) (e : Nat) (f : EngSt → EngSt) : (d.onE e f).bist = d.bist := rfl
@[simp] theorem Dev.boot_onE (d : Dev) (e : Nat) (f : EngSt → EngSt) : (d.onE e f).boot = d.boot := rfl
@[simp] theorem Dev.up_onE (d : Dev) (e : Nat) (f : EngSt → EngSt) : (d.onE e f).up = d.up := rfl
@[simp] theorem Dev.reads_onE (d : Dev) (e : Nat) (f : EngSt → EngSt) : (d.onE e f).reads = d.reads := rfl
@[simp] theorem Dev.ur_onE (d : Dev) (e : Nat) (f : EngSt → EngSt) : (d.onE e f).ur = d.ur := rfl
@[simp] theorem Dev.pol_onE (d : Dev) (e : Nat) (f : EngSt → EngSt) : (d.onE e f).pol = d.pol := rfl
@[simp] theorem Dev.errLog_onE (d : Dev) (e : Nat) (f : EngSt → EngSt) : (d.onE e f).errLog = d.errLog := rfl
@[simp] theorem Dev.holders_onE (d : Dev) (e : Nat) (f : EngSt → EngSt) : (d.onE e f).holders = d.holders := rfl

@[simp] theorem Dev.regs_onC (d : Dev) (c : Nat) (f : ClSt → ClSt) : (d.onC c f).regs = d.regs := rfl
@[simp] theorem Dev.freeCtr_onC (d : Dev) (c : Nat) (f : ClSt → ClSt) : (d.onC c f).freeCtr = d.freeCtr := rfl
@[simp] theorem Dev.eng_onC (d : Dev) (c : Nat) (f : ClSt → ClSt) : (d.onC c f).eng = d.eng := rfl
@[simp] theorem Dev.dram_onC (d : Dev) (c : Nat) (f : ClSt → ClSt) : (d.onC c f).dram = d.dram := rfl
@[simp] theorem Dev.flowS_onC (d : Dev) (c : Nat) (f : ClSt → ClSt) : (d.onC c f).flowS = d.flowS := rfl
@[simp] theorem Dev.cellS_onC (d : Dev) (c : Nat) (f : ClSt → ClSt) : (d.onC c f).cellS = d.cellS := rfl
@[simp] theorem Dev.locS_onC (d : Dev) (c : Nat) (f : ClSt → ClSt) : (d.onC c f).locS = d.locS := rfl
@[simp] theorem Dev.sharedS_onC (d : Dev) (c : Nat) (f : ClSt → ClSt) : (d.onC c f).sharedS = d.sharedS := rfl
@[simp] theorem Dev.ctr_onC (d : Dev) (c : Nat) (f : ClSt → ClSt) : (d.onC c f).ctr = d.ctr := rfl
@[simp] theorem Dev.lane_onC (d : Dev) (c : Nat) (f : ClSt → ClSt) : (d.onC c f).lane = d.lane := rfl
@[simp] theorem Dev.port_onC (d : Dev) (c : Nat) (f : ClSt → ClSt) : (d.onC c f).port = d.port := rfl
@[simp] theorem Dev.oct_onC (d : Dev) (c : Nat) (f : ClSt → ClSt) : (d.onC c f).oct = d.oct := rfl
@[simp] theorem Dev.tl_onC (d : Dev) (c : Nat) (f : ClSt → ClSt) : (d.onC c f).tl = d.tl := rfl
@[simp] theorem Dev.time_onC (d : Dev) (c : Nat) (f : ClSt → ClSt) : (d.onC c f).time = d.time := rfl
@[simp] theorem Dev.loop_onC (d : Dev) (c : Nat) (f : ClSt → ClSt) : (d.onC c f).loop = d.loop := rfl
@[simp] theorem Dev.chain_onC (d : Dev) (c : Nat) (f : ClSt → ClSt) : (d.onC c f).chain = d.chain := rfl
@[simp] theorem Dev.weir_onC (d : Dev) (c : Nat) (f : ClSt → ClSt) : (d.onC c f).weir = d.weir := rfl
@[simp] theorem Dev.fab_onC (d : Dev) (c : Nat) (f : ClSt → ClSt) : (d.onC c f).fab = d.fab := rfl
@[simp] theorem Dev.q_onC (d : Dev) (c : Nat) (f : ClSt → ClSt) : (d.onC c f).q = d.q := rfl
@[simp] theorem Dev.host_onC (d : Dev) (c : Nat) (f : ClSt → ClSt) : (d.onC c f).host = d.host := rfl
@[simp] theorem Dev.mem_onC (d : Dev) (c : Nat) (f : ClSt → ClSt) : (d.onC c f).mem = d.mem := rfl
@[simp] theorem Dev.cnt_onC (d : Dev) (c : Nat) (f : ClSt → ClSt) : (d.onC c f).cnt = d.cnt := rfl
@[simp] theorem Dev.pwr_onC (d : Dev) (c : Nat) (f : ClSt → ClSt) : (d.onC c f).pwr = d.pwr := rfl
@[simp] theorem Dev.thm_onC (d : Dev) (c : Nat) (f : ClSt → ClSt) : (d.onC c f).thm = d.thm := rfl
@[simp] theorem Dev.sec_onC (d : Dev) (c : Nat) (f : ClSt → ClSt) : (d.onC c f).sec = d.sec := rfl
@[simp] theorem Dev.bist_onC (d : Dev) (c : Nat) (f : ClSt → ClSt) : (d.onC c f).bist = d.bist := rfl
@[simp] theorem Dev.boot_onC (d : Dev) (c : Nat) (f : ClSt → ClSt) : (d.onC c f).boot = d.boot := rfl
@[simp] theorem Dev.up_onC (d : Dev) (c : Nat) (f : ClSt → ClSt) : (d.onC c f).up = d.up := rfl
@[simp] theorem Dev.reads_onC (d : Dev) (c : Nat) (f : ClSt → ClSt) : (d.onC c f).reads = d.reads := rfl
@[simp] theorem Dev.ur_onC (d : Dev) (c : Nat) (f : ClSt → ClSt) : (d.onC c f).ur = d.ur := rfl
@[simp] theorem Dev.pol_onC (d : Dev) (c : Nat) (f : ClSt → ClSt) : (d.onC c f).pol = d.pol := rfl
@[simp] theorem Dev.errLog_onC (d : Dev) (c : Nat) (f : ClSt → ClSt) : (d.onC c f).errLog = d.errLog := rfl
@[simp] theorem Dev.holders_onC (d : Dev) (c : Nat) (f : ClSt → ClSt) : (d.onC c f).holders = d.holders := rfl

@[simp] theorem Dev.regs_onL (d : Dev) (g : Nat) (f : LaneSt → LaneSt) : (d.onL g f).regs = d.regs := rfl
@[simp] theorem Dev.freeCtr_onL (d : Dev) (g : Nat) (f : LaneSt → LaneSt) : (d.onL g f).freeCtr = d.freeCtr := rfl
@[simp] theorem Dev.eng_onL (d : Dev) (g : Nat) (f : LaneSt → LaneSt) : (d.onL g f).eng = d.eng := rfl
@[simp] theorem Dev.cl_onL (d : Dev) (g : Nat) (f : LaneSt → LaneSt) : (d.onL g f).cl = d.cl := rfl
@[simp] theorem Dev.dram_onL (d : Dev) (g : Nat) (f : LaneSt → LaneSt) : (d.onL g f).dram = d.dram := rfl
@[simp] theorem Dev.flowS_onL (d : Dev) (g : Nat) (f : LaneSt → LaneSt) : (d.onL g f).flowS = d.flowS := rfl
@[simp] theorem Dev.cellS_onL (d : Dev) (g : Nat) (f : LaneSt → LaneSt) : (d.onL g f).cellS = d.cellS := rfl
@[simp] theorem Dev.locS_onL (d : Dev) (g : Nat) (f : LaneSt → LaneSt) : (d.onL g f).locS = d.locS := rfl
@[simp] theorem Dev.sharedS_onL (d : Dev) (g : Nat) (f : LaneSt → LaneSt) : (d.onL g f).sharedS = d.sharedS := rfl
@[simp] theorem Dev.ctr_onL (d : Dev) (g : Nat) (f : LaneSt → LaneSt) : (d.onL g f).ctr = d.ctr := rfl
@[simp] theorem Dev.port_onL (d : Dev) (g : Nat) (f : LaneSt → LaneSt) : (d.onL g f).port = d.port := rfl
@[simp] theorem Dev.oct_onL (d : Dev) (g : Nat) (f : LaneSt → LaneSt) : (d.onL g f).oct = d.oct := rfl
@[simp] theorem Dev.tl_onL (d : Dev) (g : Nat) (f : LaneSt → LaneSt) : (d.onL g f).tl = d.tl := rfl
@[simp] theorem Dev.time_onL (d : Dev) (g : Nat) (f : LaneSt → LaneSt) : (d.onL g f).time = d.time := rfl
@[simp] theorem Dev.loop_onL (d : Dev) (g : Nat) (f : LaneSt → LaneSt) : (d.onL g f).loop = d.loop := rfl
@[simp] theorem Dev.chain_onL (d : Dev) (g : Nat) (f : LaneSt → LaneSt) : (d.onL g f).chain = d.chain := rfl
@[simp] theorem Dev.weir_onL (d : Dev) (g : Nat) (f : LaneSt → LaneSt) : (d.onL g f).weir = d.weir := rfl
@[simp] theorem Dev.fab_onL (d : Dev) (g : Nat) (f : LaneSt → LaneSt) : (d.onL g f).fab = d.fab := rfl
@[simp] theorem Dev.q_onL (d : Dev) (g : Nat) (f : LaneSt → LaneSt) : (d.onL g f).q = d.q := rfl
@[simp] theorem Dev.host_onL (d : Dev) (g : Nat) (f : LaneSt → LaneSt) : (d.onL g f).host = d.host := rfl
@[simp] theorem Dev.mem_onL (d : Dev) (g : Nat) (f : LaneSt → LaneSt) : (d.onL g f).mem = d.mem := rfl
@[simp] theorem Dev.cnt_onL (d : Dev) (g : Nat) (f : LaneSt → LaneSt) : (d.onL g f).cnt = d.cnt := rfl
@[simp] theorem Dev.pwr_onL (d : Dev) (g : Nat) (f : LaneSt → LaneSt) : (d.onL g f).pwr = d.pwr := rfl
@[simp] theorem Dev.thm_onL (d : Dev) (g : Nat) (f : LaneSt → LaneSt) : (d.onL g f).thm = d.thm := rfl
@[simp] theorem Dev.sec_onL (d : Dev) (g : Nat) (f : LaneSt → LaneSt) : (d.onL g f).sec = d.sec := rfl
@[simp] theorem Dev.bist_onL (d : Dev) (g : Nat) (f : LaneSt → LaneSt) : (d.onL g f).bist = d.bist := rfl
@[simp] theorem Dev.boot_onL (d : Dev) (g : Nat) (f : LaneSt → LaneSt) : (d.onL g f).boot = d.boot := rfl
@[simp] theorem Dev.up_onL (d : Dev) (g : Nat) (f : LaneSt → LaneSt) : (d.onL g f).up = d.up := rfl
@[simp] theorem Dev.reads_onL (d : Dev) (g : Nat) (f : LaneSt → LaneSt) : (d.onL g f).reads = d.reads := rfl
@[simp] theorem Dev.ur_onL (d : Dev) (g : Nat) (f : LaneSt → LaneSt) : (d.onL g f).ur = d.ur := rfl
@[simp] theorem Dev.pol_onL (d : Dev) (g : Nat) (f : LaneSt → LaneSt) : (d.onL g f).pol = d.pol := rfl
@[simp] theorem Dev.errLog_onL (d : Dev) (g : Nat) (f : LaneSt → LaneSt) : (d.onL g f).errLog = d.errLog := rfl
@[simp] theorem Dev.holders_onL (d : Dev) (g : Nat) (f : LaneSt → LaneSt) : (d.onL g f).holders = d.holders := rfl

@[simp] theorem Dev.regs_onPt (d : Dev) (o p : Nat) (f : PortSt → PortSt) : (d.onPt o p f).regs = d.regs := rfl
@[simp] theorem Dev.freeCtr_onPt (d : Dev) (o p : Nat) (f : PortSt → PortSt) : (d.onPt o p f).freeCtr = d.freeCtr := rfl
@[simp] theorem Dev.eng_onPt (d : Dev) (o p : Nat) (f : PortSt → PortSt) : (d.onPt o p f).eng = d.eng := rfl
@[simp] theorem Dev.cl_onPt (d : Dev) (o p : Nat) (f : PortSt → PortSt) : (d.onPt o p f).cl = d.cl := rfl
@[simp] theorem Dev.dram_onPt (d : Dev) (o p : Nat) (f : PortSt → PortSt) : (d.onPt o p f).dram = d.dram := rfl
@[simp] theorem Dev.flowS_onPt (d : Dev) (o p : Nat) (f : PortSt → PortSt) : (d.onPt o p f).flowS = d.flowS := rfl
@[simp] theorem Dev.cellS_onPt (d : Dev) (o p : Nat) (f : PortSt → PortSt) : (d.onPt o p f).cellS = d.cellS := rfl
@[simp] theorem Dev.locS_onPt (d : Dev) (o p : Nat) (f : PortSt → PortSt) : (d.onPt o p f).locS = d.locS := rfl
@[simp] theorem Dev.sharedS_onPt (d : Dev) (o p : Nat) (f : PortSt → PortSt) : (d.onPt o p f).sharedS = d.sharedS := rfl
@[simp] theorem Dev.ctr_onPt (d : Dev) (o p : Nat) (f : PortSt → PortSt) : (d.onPt o p f).ctr = d.ctr := rfl
@[simp] theorem Dev.lane_onPt (d : Dev) (o p : Nat) (f : PortSt → PortSt) : (d.onPt o p f).lane = d.lane := rfl
@[simp] theorem Dev.oct_onPt (d : Dev) (o p : Nat) (f : PortSt → PortSt) : (d.onPt o p f).oct = d.oct := rfl
@[simp] theorem Dev.tl_onPt (d : Dev) (o p : Nat) (f : PortSt → PortSt) : (d.onPt o p f).tl = d.tl := rfl
@[simp] theorem Dev.time_onPt (d : Dev) (o p : Nat) (f : PortSt → PortSt) : (d.onPt o p f).time = d.time := rfl
@[simp] theorem Dev.loop_onPt (d : Dev) (o p : Nat) (f : PortSt → PortSt) : (d.onPt o p f).loop = d.loop := rfl
@[simp] theorem Dev.chain_onPt (d : Dev) (o p : Nat) (f : PortSt → PortSt) : (d.onPt o p f).chain = d.chain := rfl
@[simp] theorem Dev.weir_onPt (d : Dev) (o p : Nat) (f : PortSt → PortSt) : (d.onPt o p f).weir = d.weir := rfl
@[simp] theorem Dev.fab_onPt (d : Dev) (o p : Nat) (f : PortSt → PortSt) : (d.onPt o p f).fab = d.fab := rfl
@[simp] theorem Dev.q_onPt (d : Dev) (o p : Nat) (f : PortSt → PortSt) : (d.onPt o p f).q = d.q := rfl
@[simp] theorem Dev.host_onPt (d : Dev) (o p : Nat) (f : PortSt → PortSt) : (d.onPt o p f).host = d.host := rfl
@[simp] theorem Dev.mem_onPt (d : Dev) (o p : Nat) (f : PortSt → PortSt) : (d.onPt o p f).mem = d.mem := rfl
@[simp] theorem Dev.cnt_onPt (d : Dev) (o p : Nat) (f : PortSt → PortSt) : (d.onPt o p f).cnt = d.cnt := rfl
@[simp] theorem Dev.pwr_onPt (d : Dev) (o p : Nat) (f : PortSt → PortSt) : (d.onPt o p f).pwr = d.pwr := rfl
@[simp] theorem Dev.thm_onPt (d : Dev) (o p : Nat) (f : PortSt → PortSt) : (d.onPt o p f).thm = d.thm := rfl
@[simp] theorem Dev.sec_onPt (d : Dev) (o p : Nat) (f : PortSt → PortSt) : (d.onPt o p f).sec = d.sec := rfl
@[simp] theorem Dev.bist_onPt (d : Dev) (o p : Nat) (f : PortSt → PortSt) : (d.onPt o p f).bist = d.bist := rfl
@[simp] theorem Dev.boot_onPt (d : Dev) (o p : Nat) (f : PortSt → PortSt) : (d.onPt o p f).boot = d.boot := rfl
@[simp] theorem Dev.up_onPt (d : Dev) (o p : Nat) (f : PortSt → PortSt) : (d.onPt o p f).up = d.up := rfl
@[simp] theorem Dev.reads_onPt (d : Dev) (o p : Nat) (f : PortSt → PortSt) : (d.onPt o p f).reads = d.reads := rfl
@[simp] theorem Dev.ur_onPt (d : Dev) (o p : Nat) (f : PortSt → PortSt) : (d.onPt o p f).ur = d.ur := rfl
@[simp] theorem Dev.pol_onPt (d : Dev) (o p : Nat) (f : PortSt → PortSt) : (d.onPt o p f).pol = d.pol := rfl
@[simp] theorem Dev.errLog_onPt (d : Dev) (o p : Nat) (f : PortSt → PortSt) : (d.onPt o p f).errLog = d.errLog := rfl
@[simp] theorem Dev.holders_onPt (d : Dev) (o p : Nat) (f : PortSt → PortSt) : (d.onPt o p f).holders = d.holders := rfl

@[simp] theorem Dev.regs_onO (d : Dev) (o : Nat) (f : OctSt → OctSt) : (d.onO o f).regs = d.regs := rfl
@[simp] theorem Dev.freeCtr_onO (d : Dev) (o : Nat) (f : OctSt → OctSt) : (d.onO o f).freeCtr = d.freeCtr := rfl
@[simp] theorem Dev.eng_onO (d : Dev) (o : Nat) (f : OctSt → OctSt) : (d.onO o f).eng = d.eng := rfl
@[simp] theorem Dev.cl_onO (d : Dev) (o : Nat) (f : OctSt → OctSt) : (d.onO o f).cl = d.cl := rfl
@[simp] theorem Dev.dram_onO (d : Dev) (o : Nat) (f : OctSt → OctSt) : (d.onO o f).dram = d.dram := rfl
@[simp] theorem Dev.flowS_onO (d : Dev) (o : Nat) (f : OctSt → OctSt) : (d.onO o f).flowS = d.flowS := rfl
@[simp] theorem Dev.cellS_onO (d : Dev) (o : Nat) (f : OctSt → OctSt) : (d.onO o f).cellS = d.cellS := rfl
@[simp] theorem Dev.locS_onO (d : Dev) (o : Nat) (f : OctSt → OctSt) : (d.onO o f).locS = d.locS := rfl
@[simp] theorem Dev.sharedS_onO (d : Dev) (o : Nat) (f : OctSt → OctSt) : (d.onO o f).sharedS = d.sharedS := rfl
@[simp] theorem Dev.ctr_onO (d : Dev) (o : Nat) (f : OctSt → OctSt) : (d.onO o f).ctr = d.ctr := rfl
@[simp] theorem Dev.lane_onO (d : Dev) (o : Nat) (f : OctSt → OctSt) : (d.onO o f).lane = d.lane := rfl
@[simp] theorem Dev.port_onO (d : Dev) (o : Nat) (f : OctSt → OctSt) : (d.onO o f).port = d.port := rfl
@[simp] theorem Dev.tl_onO (d : Dev) (o : Nat) (f : OctSt → OctSt) : (d.onO o f).tl = d.tl := rfl
@[simp] theorem Dev.time_onO (d : Dev) (o : Nat) (f : OctSt → OctSt) : (d.onO o f).time = d.time := rfl
@[simp] theorem Dev.loop_onO (d : Dev) (o : Nat) (f : OctSt → OctSt) : (d.onO o f).loop = d.loop := rfl
@[simp] theorem Dev.chain_onO (d : Dev) (o : Nat) (f : OctSt → OctSt) : (d.onO o f).chain = d.chain := rfl
@[simp] theorem Dev.weir_onO (d : Dev) (o : Nat) (f : OctSt → OctSt) : (d.onO o f).weir = d.weir := rfl
@[simp] theorem Dev.fab_onO (d : Dev) (o : Nat) (f : OctSt → OctSt) : (d.onO o f).fab = d.fab := rfl
@[simp] theorem Dev.q_onO (d : Dev) (o : Nat) (f : OctSt → OctSt) : (d.onO o f).q = d.q := rfl
@[simp] theorem Dev.host_onO (d : Dev) (o : Nat) (f : OctSt → OctSt) : (d.onO o f).host = d.host := rfl
@[simp] theorem Dev.mem_onO (d : Dev) (o : Nat) (f : OctSt → OctSt) : (d.onO o f).mem = d.mem := rfl
@[simp] theorem Dev.cnt_onO (d : Dev) (o : Nat) (f : OctSt → OctSt) : (d.onO o f).cnt = d.cnt := rfl
@[simp] theorem Dev.pwr_onO (d : Dev) (o : Nat) (f : OctSt → OctSt) : (d.onO o f).pwr = d.pwr := rfl
@[simp] theorem Dev.thm_onO (d : Dev) (o : Nat) (f : OctSt → OctSt) : (d.onO o f).thm = d.thm := rfl
@[simp] theorem Dev.sec_onO (d : Dev) (o : Nat) (f : OctSt → OctSt) : (d.onO o f).sec = d.sec := rfl
@[simp] theorem Dev.bist_onO (d : Dev) (o : Nat) (f : OctSt → OctSt) : (d.onO o f).bist = d.bist := rfl
@[simp] theorem Dev.boot_onO (d : Dev) (o : Nat) (f : OctSt → OctSt) : (d.onO o f).boot = d.boot := rfl
@[simp] theorem Dev.up_onO (d : Dev) (o : Nat) (f : OctSt → OctSt) : (d.onO o f).up = d.up := rfl
@[simp] theorem Dev.reads_onO (d : Dev) (o : Nat) (f : OctSt → OctSt) : (d.onO o f).reads = d.reads := rfl
@[simp] theorem Dev.ur_onO (d : Dev) (o : Nat) (f : OctSt → OctSt) : (d.onO o f).ur = d.ur := rfl
@[simp] theorem Dev.pol_onO (d : Dev) (o : Nat) (f : OctSt → OctSt) : (d.onO o f).pol = d.pol := rfl
@[simp] theorem Dev.errLog_onO (d : Dev) (o : Nat) (f : OctSt → OctSt) : (d.onO o f).errLog = d.errLog := rfl
@[simp] theorem Dev.holders_onO (d : Dev) (o : Nat) (f : OctSt → OctSt) : (d.onO o f).holders = d.holders := rfl

@[simp] theorem Dev.regs_onT (d : Dev) (o : Nat) (f : TlSt → TlSt) : (d.onT o f).regs = d.regs := rfl
@[simp] theorem Dev.freeCtr_onT (d : Dev) (o : Nat) (f : TlSt → TlSt) : (d.onT o f).freeCtr = d.freeCtr := rfl
@[simp] theorem Dev.eng_onT (d : Dev) (o : Nat) (f : TlSt → TlSt) : (d.onT o f).eng = d.eng := rfl
@[simp] theorem Dev.cl_onT (d : Dev) (o : Nat) (f : TlSt → TlSt) : (d.onT o f).cl = d.cl := rfl
@[simp] theorem Dev.dram_onT (d : Dev) (o : Nat) (f : TlSt → TlSt) : (d.onT o f).dram = d.dram := rfl
@[simp] theorem Dev.flowS_onT (d : Dev) (o : Nat) (f : TlSt → TlSt) : (d.onT o f).flowS = d.flowS := rfl
@[simp] theorem Dev.cellS_onT (d : Dev) (o : Nat) (f : TlSt → TlSt) : (d.onT o f).cellS = d.cellS := rfl
@[simp] theorem Dev.locS_onT (d : Dev) (o : Nat) (f : TlSt → TlSt) : (d.onT o f).locS = d.locS := rfl
@[simp] theorem Dev.sharedS_onT (d : Dev) (o : Nat) (f : TlSt → TlSt) : (d.onT o f).sharedS = d.sharedS := rfl
@[simp] theorem Dev.ctr_onT (d : Dev) (o : Nat) (f : TlSt → TlSt) : (d.onT o f).ctr = d.ctr := rfl
@[simp] theorem Dev.lane_onT (d : Dev) (o : Nat) (f : TlSt → TlSt) : (d.onT o f).lane = d.lane := rfl
@[simp] theorem Dev.port_onT (d : Dev) (o : Nat) (f : TlSt → TlSt) : (d.onT o f).port = d.port := rfl
@[simp] theorem Dev.oct_onT (d : Dev) (o : Nat) (f : TlSt → TlSt) : (d.onT o f).oct = d.oct := rfl
@[simp] theorem Dev.time_onT (d : Dev) (o : Nat) (f : TlSt → TlSt) : (d.onT o f).time = d.time := rfl
@[simp] theorem Dev.loop_onT (d : Dev) (o : Nat) (f : TlSt → TlSt) : (d.onT o f).loop = d.loop := rfl
@[simp] theorem Dev.chain_onT (d : Dev) (o : Nat) (f : TlSt → TlSt) : (d.onT o f).chain = d.chain := rfl
@[simp] theorem Dev.weir_onT (d : Dev) (o : Nat) (f : TlSt → TlSt) : (d.onT o f).weir = d.weir := rfl
@[simp] theorem Dev.fab_onT (d : Dev) (o : Nat) (f : TlSt → TlSt) : (d.onT o f).fab = d.fab := rfl
@[simp] theorem Dev.q_onT (d : Dev) (o : Nat) (f : TlSt → TlSt) : (d.onT o f).q = d.q := rfl
@[simp] theorem Dev.host_onT (d : Dev) (o : Nat) (f : TlSt → TlSt) : (d.onT o f).host = d.host := rfl
@[simp] theorem Dev.mem_onT (d : Dev) (o : Nat) (f : TlSt → TlSt) : (d.onT o f).mem = d.mem := rfl
@[simp] theorem Dev.cnt_onT (d : Dev) (o : Nat) (f : TlSt → TlSt) : (d.onT o f).cnt = d.cnt := rfl
@[simp] theorem Dev.pwr_onT (d : Dev) (o : Nat) (f : TlSt → TlSt) : (d.onT o f).pwr = d.pwr := rfl
@[simp] theorem Dev.thm_onT (d : Dev) (o : Nat) (f : TlSt → TlSt) : (d.onT o f).thm = d.thm := rfl
@[simp] theorem Dev.sec_onT (d : Dev) (o : Nat) (f : TlSt → TlSt) : (d.onT o f).sec = d.sec := rfl
@[simp] theorem Dev.bist_onT (d : Dev) (o : Nat) (f : TlSt → TlSt) : (d.onT o f).bist = d.bist := rfl
@[simp] theorem Dev.boot_onT (d : Dev) (o : Nat) (f : TlSt → TlSt) : (d.onT o f).boot = d.boot := rfl
@[simp] theorem Dev.up_onT (d : Dev) (o : Nat) (f : TlSt → TlSt) : (d.onT o f).up = d.up := rfl
@[simp] theorem Dev.reads_onT (d : Dev) (o : Nat) (f : TlSt → TlSt) : (d.onT o f).reads = d.reads := rfl
@[simp] theorem Dev.ur_onT (d : Dev) (o : Nat) (f : TlSt → TlSt) : (d.onT o f).ur = d.ur := rfl
@[simp] theorem Dev.pol_onT (d : Dev) (o : Nat) (f : TlSt → TlSt) : (d.onT o f).pol = d.pol := rfl
@[simp] theorem Dev.errLog_onT (d : Dev) (o : Nat) (f : TlSt → TlSt) : (d.onT o f).errLog = d.errLog := rfl
@[simp] theorem Dev.holders_onT (d : Dev) (o : Nat) (f : TlSt → TlSt) : (d.onT o f).holders = d.holders := rfl

@[simp] theorem Dev.regs_onW (d : Dev) (o : Nat) (f : WeirSt → WeirSt) : (d.onW o f).regs = d.regs := rfl
@[simp] theorem Dev.freeCtr_onW (d : Dev) (o : Nat) (f : WeirSt → WeirSt) : (d.onW o f).freeCtr = d.freeCtr := rfl
@[simp] theorem Dev.eng_onW (d : Dev) (o : Nat) (f : WeirSt → WeirSt) : (d.onW o f).eng = d.eng := rfl
@[simp] theorem Dev.cl_onW (d : Dev) (o : Nat) (f : WeirSt → WeirSt) : (d.onW o f).cl = d.cl := rfl
@[simp] theorem Dev.dram_onW (d : Dev) (o : Nat) (f : WeirSt → WeirSt) : (d.onW o f).dram = d.dram := rfl
@[simp] theorem Dev.flowS_onW (d : Dev) (o : Nat) (f : WeirSt → WeirSt) : (d.onW o f).flowS = d.flowS := rfl
@[simp] theorem Dev.cellS_onW (d : Dev) (o : Nat) (f : WeirSt → WeirSt) : (d.onW o f).cellS = d.cellS := rfl
@[simp] theorem Dev.locS_onW (d : Dev) (o : Nat) (f : WeirSt → WeirSt) : (d.onW o f).locS = d.locS := rfl
@[simp] theorem Dev.sharedS_onW (d : Dev) (o : Nat) (f : WeirSt → WeirSt) : (d.onW o f).sharedS = d.sharedS := rfl
@[simp] theorem Dev.ctr_onW (d : Dev) (o : Nat) (f : WeirSt → WeirSt) : (d.onW o f).ctr = d.ctr := rfl
@[simp] theorem Dev.lane_onW (d : Dev) (o : Nat) (f : WeirSt → WeirSt) : (d.onW o f).lane = d.lane := rfl
@[simp] theorem Dev.port_onW (d : Dev) (o : Nat) (f : WeirSt → WeirSt) : (d.onW o f).port = d.port := rfl
@[simp] theorem Dev.oct_onW (d : Dev) (o : Nat) (f : WeirSt → WeirSt) : (d.onW o f).oct = d.oct := rfl
@[simp] theorem Dev.tl_onW (d : Dev) (o : Nat) (f : WeirSt → WeirSt) : (d.onW o f).tl = d.tl := rfl
@[simp] theorem Dev.time_onW (d : Dev) (o : Nat) (f : WeirSt → WeirSt) : (d.onW o f).time = d.time := rfl
@[simp] theorem Dev.loop_onW (d : Dev) (o : Nat) (f : WeirSt → WeirSt) : (d.onW o f).loop = d.loop := rfl
@[simp] theorem Dev.chain_onW (d : Dev) (o : Nat) (f : WeirSt → WeirSt) : (d.onW o f).chain = d.chain := rfl
@[simp] theorem Dev.fab_onW (d : Dev) (o : Nat) (f : WeirSt → WeirSt) : (d.onW o f).fab = d.fab := rfl
@[simp] theorem Dev.q_onW (d : Dev) (o : Nat) (f : WeirSt → WeirSt) : (d.onW o f).q = d.q := rfl
@[simp] theorem Dev.host_onW (d : Dev) (o : Nat) (f : WeirSt → WeirSt) : (d.onW o f).host = d.host := rfl
@[simp] theorem Dev.mem_onW (d : Dev) (o : Nat) (f : WeirSt → WeirSt) : (d.onW o f).mem = d.mem := rfl
@[simp] theorem Dev.cnt_onW (d : Dev) (o : Nat) (f : WeirSt → WeirSt) : (d.onW o f).cnt = d.cnt := rfl
@[simp] theorem Dev.pwr_onW (d : Dev) (o : Nat) (f : WeirSt → WeirSt) : (d.onW o f).pwr = d.pwr := rfl
@[simp] theorem Dev.thm_onW (d : Dev) (o : Nat) (f : WeirSt → WeirSt) : (d.onW o f).thm = d.thm := rfl
@[simp] theorem Dev.sec_onW (d : Dev) (o : Nat) (f : WeirSt → WeirSt) : (d.onW o f).sec = d.sec := rfl
@[simp] theorem Dev.bist_onW (d : Dev) (o : Nat) (f : WeirSt → WeirSt) : (d.onW o f).bist = d.bist := rfl
@[simp] theorem Dev.boot_onW (d : Dev) (o : Nat) (f : WeirSt → WeirSt) : (d.onW o f).boot = d.boot := rfl
@[simp] theorem Dev.up_onW (d : Dev) (o : Nat) (f : WeirSt → WeirSt) : (d.onW o f).up = d.up := rfl
@[simp] theorem Dev.reads_onW (d : Dev) (o : Nat) (f : WeirSt → WeirSt) : (d.onW o f).reads = d.reads := rfl
@[simp] theorem Dev.ur_onW (d : Dev) (o : Nat) (f : WeirSt → WeirSt) : (d.onW o f).ur = d.ur := rfl
@[simp] theorem Dev.pol_onW (d : Dev) (o : Nat) (f : WeirSt → WeirSt) : (d.onW o f).pol = d.pol := rfl
@[simp] theorem Dev.errLog_onW (d : Dev) (o : Nat) (f : WeirSt → WeirSt) : (d.onW o f).errLog = d.errLog := rfl
@[simp] theorem Dev.holders_onW (d : Dev) (o : Nat) (f : WeirSt → WeirSt) : (d.onW o f).holders = d.holders := rfl

@[simp] theorem Dev.regs_onP (d : Dev) (p : Nat) (f : PolSt → PolSt) : (d.onP p f).regs = d.regs := rfl
@[simp] theorem Dev.freeCtr_onP (d : Dev) (p : Nat) (f : PolSt → PolSt) : (d.onP p f).freeCtr = d.freeCtr := rfl
@[simp] theorem Dev.eng_onP (d : Dev) (p : Nat) (f : PolSt → PolSt) : (d.onP p f).eng = d.eng := rfl
@[simp] theorem Dev.cl_onP (d : Dev) (p : Nat) (f : PolSt → PolSt) : (d.onP p f).cl = d.cl := rfl
@[simp] theorem Dev.dram_onP (d : Dev) (p : Nat) (f : PolSt → PolSt) : (d.onP p f).dram = d.dram := rfl
@[simp] theorem Dev.flowS_onP (d : Dev) (p : Nat) (f : PolSt → PolSt) : (d.onP p f).flowS = d.flowS := rfl
@[simp] theorem Dev.cellS_onP (d : Dev) (p : Nat) (f : PolSt → PolSt) : (d.onP p f).cellS = d.cellS := rfl
@[simp] theorem Dev.locS_onP (d : Dev) (p : Nat) (f : PolSt → PolSt) : (d.onP p f).locS = d.locS := rfl
@[simp] theorem Dev.sharedS_onP (d : Dev) (p : Nat) (f : PolSt → PolSt) : (d.onP p f).sharedS = d.sharedS := rfl
@[simp] theorem Dev.ctr_onP (d : Dev) (p : Nat) (f : PolSt → PolSt) : (d.onP p f).ctr = d.ctr := rfl
@[simp] theorem Dev.lane_onP (d : Dev) (p : Nat) (f : PolSt → PolSt) : (d.onP p f).lane = d.lane := rfl
@[simp] theorem Dev.port_onP (d : Dev) (p : Nat) (f : PolSt → PolSt) : (d.onP p f).port = d.port := rfl
@[simp] theorem Dev.oct_onP (d : Dev) (p : Nat) (f : PolSt → PolSt) : (d.onP p f).oct = d.oct := rfl
@[simp] theorem Dev.tl_onP (d : Dev) (p : Nat) (f : PolSt → PolSt) : (d.onP p f).tl = d.tl := rfl
@[simp] theorem Dev.time_onP (d : Dev) (p : Nat) (f : PolSt → PolSt) : (d.onP p f).time = d.time := rfl
@[simp] theorem Dev.loop_onP (d : Dev) (p : Nat) (f : PolSt → PolSt) : (d.onP p f).loop = d.loop := rfl
@[simp] theorem Dev.chain_onP (d : Dev) (p : Nat) (f : PolSt → PolSt) : (d.onP p f).chain = d.chain := rfl
@[simp] theorem Dev.weir_onP (d : Dev) (p : Nat) (f : PolSt → PolSt) : (d.onP p f).weir = d.weir := rfl
@[simp] theorem Dev.fab_onP (d : Dev) (p : Nat) (f : PolSt → PolSt) : (d.onP p f).fab = d.fab := rfl
@[simp] theorem Dev.q_onP (d : Dev) (p : Nat) (f : PolSt → PolSt) : (d.onP p f).q = d.q := rfl
@[simp] theorem Dev.host_onP (d : Dev) (p : Nat) (f : PolSt → PolSt) : (d.onP p f).host = d.host := rfl
@[simp] theorem Dev.mem_onP (d : Dev) (p : Nat) (f : PolSt → PolSt) : (d.onP p f).mem = d.mem := rfl
@[simp] theorem Dev.cnt_onP (d : Dev) (p : Nat) (f : PolSt → PolSt) : (d.onP p f).cnt = d.cnt := rfl
@[simp] theorem Dev.pwr_onP (d : Dev) (p : Nat) (f : PolSt → PolSt) : (d.onP p f).pwr = d.pwr := rfl
@[simp] theorem Dev.thm_onP (d : Dev) (p : Nat) (f : PolSt → PolSt) : (d.onP p f).thm = d.thm := rfl
@[simp] theorem Dev.sec_onP (d : Dev) (p : Nat) (f : PolSt → PolSt) : (d.onP p f).sec = d.sec := rfl
@[simp] theorem Dev.bist_onP (d : Dev) (p : Nat) (f : PolSt → PolSt) : (d.onP p f).bist = d.bist := rfl
@[simp] theorem Dev.boot_onP (d : Dev) (p : Nat) (f : PolSt → PolSt) : (d.onP p f).boot = d.boot := rfl
@[simp] theorem Dev.up_onP (d : Dev) (p : Nat) (f : PolSt → PolSt) : (d.onP p f).up = d.up := rfl
@[simp] theorem Dev.reads_onP (d : Dev) (p : Nat) (f : PolSt → PolSt) : (d.onP p f).reads = d.reads := rfl
@[simp] theorem Dev.ur_onP (d : Dev) (p : Nat) (f : PolSt → PolSt) : (d.onP p f).ur = d.ur := rfl
@[simp] theorem Dev.errLog_onP (d : Dev) (p : Nat) (f : PolSt → PolSt) : (d.onP p f).errLog = d.errLog := rfl
@[simp] theorem Dev.holders_onP (d : Dev) (p : Nat) (f : PolSt → PolSt) : (d.onP p f).holders = d.holders := rfl

@[simp] theorem Dev.regs_onF (d : Dev) (f : FabSt → FabSt) : (d.onF f).regs = d.regs := rfl
@[simp] theorem Dev.freeCtr_onF (d : Dev) (f : FabSt → FabSt) : (d.onF f).freeCtr = d.freeCtr := rfl
@[simp] theorem Dev.eng_onF (d : Dev) (f : FabSt → FabSt) : (d.onF f).eng = d.eng := rfl
@[simp] theorem Dev.cl_onF (d : Dev) (f : FabSt → FabSt) : (d.onF f).cl = d.cl := rfl
@[simp] theorem Dev.dram_onF (d : Dev) (f : FabSt → FabSt) : (d.onF f).dram = d.dram := rfl
@[simp] theorem Dev.flowS_onF (d : Dev) (f : FabSt → FabSt) : (d.onF f).flowS = d.flowS := rfl
@[simp] theorem Dev.cellS_onF (d : Dev) (f : FabSt → FabSt) : (d.onF f).cellS = d.cellS := rfl
@[simp] theorem Dev.locS_onF (d : Dev) (f : FabSt → FabSt) : (d.onF f).locS = d.locS := rfl
@[simp] theorem Dev.sharedS_onF (d : Dev) (f : FabSt → FabSt) : (d.onF f).sharedS = d.sharedS := rfl
@[simp] theorem Dev.ctr_onF (d : Dev) (f : FabSt → FabSt) : (d.onF f).ctr = d.ctr := rfl
@[simp] theorem Dev.lane_onF (d : Dev) (f : FabSt → FabSt) : (d.onF f).lane = d.lane := rfl
@[simp] theorem Dev.port_onF (d : Dev) (f : FabSt → FabSt) : (d.onF f).port = d.port := rfl
@[simp] theorem Dev.oct_onF (d : Dev) (f : FabSt → FabSt) : (d.onF f).oct = d.oct := rfl
@[simp] theorem Dev.tl_onF (d : Dev) (f : FabSt → FabSt) : (d.onF f).tl = d.tl := rfl
@[simp] theorem Dev.time_onF (d : Dev) (f : FabSt → FabSt) : (d.onF f).time = d.time := rfl
@[simp] theorem Dev.loop_onF (d : Dev) (f : FabSt → FabSt) : (d.onF f).loop = d.loop := rfl
@[simp] theorem Dev.chain_onF (d : Dev) (f : FabSt → FabSt) : (d.onF f).chain = d.chain := rfl
@[simp] theorem Dev.weir_onF (d : Dev) (f : FabSt → FabSt) : (d.onF f).weir = d.weir := rfl
@[simp] theorem Dev.q_onF (d : Dev) (f : FabSt → FabSt) : (d.onF f).q = d.q := rfl
@[simp] theorem Dev.host_onF (d : Dev) (f : FabSt → FabSt) : (d.onF f).host = d.host := rfl
@[simp] theorem Dev.mem_onF (d : Dev) (f : FabSt → FabSt) : (d.onF f).mem = d.mem := rfl
@[simp] theorem Dev.cnt_onF (d : Dev) (f : FabSt → FabSt) : (d.onF f).cnt = d.cnt := rfl
@[simp] theorem Dev.pwr_onF (d : Dev) (f : FabSt → FabSt) : (d.onF f).pwr = d.pwr := rfl
@[simp] theorem Dev.thm_onF (d : Dev) (f : FabSt → FabSt) : (d.onF f).thm = d.thm := rfl
@[simp] theorem Dev.sec_onF (d : Dev) (f : FabSt → FabSt) : (d.onF f).sec = d.sec := rfl
@[simp] theorem Dev.bist_onF (d : Dev) (f : FabSt → FabSt) : (d.onF f).bist = d.bist := rfl
@[simp] theorem Dev.boot_onF (d : Dev) (f : FabSt → FabSt) : (d.onF f).boot = d.boot := rfl
@[simp] theorem Dev.up_onF (d : Dev) (f : FabSt → FabSt) : (d.onF f).up = d.up := rfl
@[simp] theorem Dev.reads_onF (d : Dev) (f : FabSt → FabSt) : (d.onF f).reads = d.reads := rfl
@[simp] theorem Dev.ur_onF (d : Dev) (f : FabSt → FabSt) : (d.onF f).ur = d.ur := rfl
@[simp] theorem Dev.pol_onF (d : Dev) (f : FabSt → FabSt) : (d.onF f).pol = d.pol := rfl
@[simp] theorem Dev.errLog_onF (d : Dev) (f : FabSt → FabSt) : (d.onF f).errLog = d.errLog := rfl
@[simp] theorem Dev.holders_onF (d : Dev) (f : FabSt → FabSt) : (d.onF f).holders = d.holders := rfl

@[simp] theorem Dev.regs_onMem (d : Dev) (f : MemSt → MemSt) : (d.onMem f).regs = d.regs := rfl
@[simp] theorem Dev.freeCtr_onMem (d : Dev) (f : MemSt → MemSt) : (d.onMem f).freeCtr = d.freeCtr := rfl
@[simp] theorem Dev.eng_onMem (d : Dev) (f : MemSt → MemSt) : (d.onMem f).eng = d.eng := rfl
@[simp] theorem Dev.cl_onMem (d : Dev) (f : MemSt → MemSt) : (d.onMem f).cl = d.cl := rfl
@[simp] theorem Dev.dram_onMem (d : Dev) (f : MemSt → MemSt) : (d.onMem f).dram = d.dram := rfl
@[simp] theorem Dev.flowS_onMem (d : Dev) (f : MemSt → MemSt) : (d.onMem f).flowS = d.flowS := rfl
@[simp] theorem Dev.cellS_onMem (d : Dev) (f : MemSt → MemSt) : (d.onMem f).cellS = d.cellS := rfl
@[simp] theorem Dev.locS_onMem (d : Dev) (f : MemSt → MemSt) : (d.onMem f).locS = d.locS := rfl
@[simp] theorem Dev.sharedS_onMem (d : Dev) (f : MemSt → MemSt) : (d.onMem f).sharedS = d.sharedS := rfl
@[simp] theorem Dev.ctr_onMem (d : Dev) (f : MemSt → MemSt) : (d.onMem f).ctr = d.ctr := rfl
@[simp] theorem Dev.lane_onMem (d : Dev) (f : MemSt → MemSt) : (d.onMem f).lane = d.lane := rfl
@[simp] theorem Dev.port_onMem (d : Dev) (f : MemSt → MemSt) : (d.onMem f).port = d.port := rfl
@[simp] theorem Dev.oct_onMem (d : Dev) (f : MemSt → MemSt) : (d.onMem f).oct = d.oct := rfl
@[simp] theorem Dev.tl_onMem (d : Dev) (f : MemSt → MemSt) : (d.onMem f).tl = d.tl := rfl
@[simp] theorem Dev.time_onMem (d : Dev) (f : MemSt → MemSt) : (d.onMem f).time = d.time := rfl
@[simp] theorem Dev.loop_onMem (d : Dev) (f : MemSt → MemSt) : (d.onMem f).loop = d.loop := rfl
@[simp] theorem Dev.chain_onMem (d : Dev) (f : MemSt → MemSt) : (d.onMem f).chain = d.chain := rfl
@[simp] theorem Dev.weir_onMem (d : Dev) (f : MemSt → MemSt) : (d.onMem f).weir = d.weir := rfl
@[simp] theorem Dev.fab_onMem (d : Dev) (f : MemSt → MemSt) : (d.onMem f).fab = d.fab := rfl
@[simp] theorem Dev.q_onMem (d : Dev) (f : MemSt → MemSt) : (d.onMem f).q = d.q := rfl
@[simp] theorem Dev.host_onMem (d : Dev) (f : MemSt → MemSt) : (d.onMem f).host = d.host := rfl
@[simp] theorem Dev.cnt_onMem (d : Dev) (f : MemSt → MemSt) : (d.onMem f).cnt = d.cnt := rfl
@[simp] theorem Dev.pwr_onMem (d : Dev) (f : MemSt → MemSt) : (d.onMem f).pwr = d.pwr := rfl
@[simp] theorem Dev.thm_onMem (d : Dev) (f : MemSt → MemSt) : (d.onMem f).thm = d.thm := rfl
@[simp] theorem Dev.sec_onMem (d : Dev) (f : MemSt → MemSt) : (d.onMem f).sec = d.sec := rfl
@[simp] theorem Dev.bist_onMem (d : Dev) (f : MemSt → MemSt) : (d.onMem f).bist = d.bist := rfl
@[simp] theorem Dev.boot_onMem (d : Dev) (f : MemSt → MemSt) : (d.onMem f).boot = d.boot := rfl
@[simp] theorem Dev.up_onMem (d : Dev) (f : MemSt → MemSt) : (d.onMem f).up = d.up := rfl
@[simp] theorem Dev.reads_onMem (d : Dev) (f : MemSt → MemSt) : (d.onMem f).reads = d.reads := rfl
@[simp] theorem Dev.ur_onMem (d : Dev) (f : MemSt → MemSt) : (d.onMem f).ur = d.ur := rfl
@[simp] theorem Dev.pol_onMem (d : Dev) (f : MemSt → MemSt) : (d.onMem f).pol = d.pol := rfl
@[simp] theorem Dev.errLog_onMem (d : Dev) (f : MemSt → MemSt) : (d.onMem f).errLog = d.errLog := rfl
@[simp] theorem Dev.holders_onMem (d : Dev) (f : MemSt → MemSt) : (d.onMem f).holders = d.holders := rfl

@[simp] theorem Dev.regs_onPwr (d : Dev) (f : PwrSt → PwrSt) : (d.onPwr f).regs = d.regs := rfl
@[simp] theorem Dev.freeCtr_onPwr (d : Dev) (f : PwrSt → PwrSt) : (d.onPwr f).freeCtr = d.freeCtr := rfl
@[simp] theorem Dev.eng_onPwr (d : Dev) (f : PwrSt → PwrSt) : (d.onPwr f).eng = d.eng := rfl
@[simp] theorem Dev.cl_onPwr (d : Dev) (f : PwrSt → PwrSt) : (d.onPwr f).cl = d.cl := rfl
@[simp] theorem Dev.dram_onPwr (d : Dev) (f : PwrSt → PwrSt) : (d.onPwr f).dram = d.dram := rfl
@[simp] theorem Dev.flowS_onPwr (d : Dev) (f : PwrSt → PwrSt) : (d.onPwr f).flowS = d.flowS := rfl
@[simp] theorem Dev.cellS_onPwr (d : Dev) (f : PwrSt → PwrSt) : (d.onPwr f).cellS = d.cellS := rfl
@[simp] theorem Dev.locS_onPwr (d : Dev) (f : PwrSt → PwrSt) : (d.onPwr f).locS = d.locS := rfl
@[simp] theorem Dev.sharedS_onPwr (d : Dev) (f : PwrSt → PwrSt) : (d.onPwr f).sharedS = d.sharedS := rfl
@[simp] theorem Dev.ctr_onPwr (d : Dev) (f : PwrSt → PwrSt) : (d.onPwr f).ctr = d.ctr := rfl
@[simp] theorem Dev.lane_onPwr (d : Dev) (f : PwrSt → PwrSt) : (d.onPwr f).lane = d.lane := rfl
@[simp] theorem Dev.port_onPwr (d : Dev) (f : PwrSt → PwrSt) : (d.onPwr f).port = d.port := rfl
@[simp] theorem Dev.oct_onPwr (d : Dev) (f : PwrSt → PwrSt) : (d.onPwr f).oct = d.oct := rfl
@[simp] theorem Dev.tl_onPwr (d : Dev) (f : PwrSt → PwrSt) : (d.onPwr f).tl = d.tl := rfl
@[simp] theorem Dev.time_onPwr (d : Dev) (f : PwrSt → PwrSt) : (d.onPwr f).time = d.time := rfl
@[simp] theorem Dev.loop_onPwr (d : Dev) (f : PwrSt → PwrSt) : (d.onPwr f).loop = d.loop := rfl
@[simp] theorem Dev.chain_onPwr (d : Dev) (f : PwrSt → PwrSt) : (d.onPwr f).chain = d.chain := rfl
@[simp] theorem Dev.weir_onPwr (d : Dev) (f : PwrSt → PwrSt) : (d.onPwr f).weir = d.weir := rfl
@[simp] theorem Dev.fab_onPwr (d : Dev) (f : PwrSt → PwrSt) : (d.onPwr f).fab = d.fab := rfl
@[simp] theorem Dev.q_onPwr (d : Dev) (f : PwrSt → PwrSt) : (d.onPwr f).q = d.q := rfl
@[simp] theorem Dev.host_onPwr (d : Dev) (f : PwrSt → PwrSt) : (d.onPwr f).host = d.host := rfl
@[simp] theorem Dev.mem_onPwr (d : Dev) (f : PwrSt → PwrSt) : (d.onPwr f).mem = d.mem := rfl
@[simp] theorem Dev.cnt_onPwr (d : Dev) (f : PwrSt → PwrSt) : (d.onPwr f).cnt = d.cnt := rfl
@[simp] theorem Dev.thm_onPwr (d : Dev) (f : PwrSt → PwrSt) : (d.onPwr f).thm = d.thm := rfl
@[simp] theorem Dev.sec_onPwr (d : Dev) (f : PwrSt → PwrSt) : (d.onPwr f).sec = d.sec := rfl
@[simp] theorem Dev.bist_onPwr (d : Dev) (f : PwrSt → PwrSt) : (d.onPwr f).bist = d.bist := rfl
@[simp] theorem Dev.boot_onPwr (d : Dev) (f : PwrSt → PwrSt) : (d.onPwr f).boot = d.boot := rfl
@[simp] theorem Dev.up_onPwr (d : Dev) (f : PwrSt → PwrSt) : (d.onPwr f).up = d.up := rfl
@[simp] theorem Dev.reads_onPwr (d : Dev) (f : PwrSt → PwrSt) : (d.onPwr f).reads = d.reads := rfl
@[simp] theorem Dev.ur_onPwr (d : Dev) (f : PwrSt → PwrSt) : (d.onPwr f).ur = d.ur := rfl
@[simp] theorem Dev.pol_onPwr (d : Dev) (f : PwrSt → PwrSt) : (d.onPwr f).pol = d.pol := rfl
@[simp] theorem Dev.errLog_onPwr (d : Dev) (f : PwrSt → PwrSt) : (d.onPwr f).errLog = d.errLog := rfl
@[simp] theorem Dev.holders_onPwr (d : Dev) (f : PwrSt → PwrSt) : (d.onPwr f).holders = d.holders := rfl

@[simp] theorem Dev.regs_onThm (d : Dev) (f : ThmSt → ThmSt) : (d.onThm f).regs = d.regs := rfl
@[simp] theorem Dev.freeCtr_onThm (d : Dev) (f : ThmSt → ThmSt) : (d.onThm f).freeCtr = d.freeCtr := rfl
@[simp] theorem Dev.eng_onThm (d : Dev) (f : ThmSt → ThmSt) : (d.onThm f).eng = d.eng := rfl
@[simp] theorem Dev.cl_onThm (d : Dev) (f : ThmSt → ThmSt) : (d.onThm f).cl = d.cl := rfl
@[simp] theorem Dev.dram_onThm (d : Dev) (f : ThmSt → ThmSt) : (d.onThm f).dram = d.dram := rfl
@[simp] theorem Dev.flowS_onThm (d : Dev) (f : ThmSt → ThmSt) : (d.onThm f).flowS = d.flowS := rfl
@[simp] theorem Dev.cellS_onThm (d : Dev) (f : ThmSt → ThmSt) : (d.onThm f).cellS = d.cellS := rfl
@[simp] theorem Dev.locS_onThm (d : Dev) (f : ThmSt → ThmSt) : (d.onThm f).locS = d.locS := rfl
@[simp] theorem Dev.sharedS_onThm (d : Dev) (f : ThmSt → ThmSt) : (d.onThm f).sharedS = d.sharedS := rfl
@[simp] theorem Dev.ctr_onThm (d : Dev) (f : ThmSt → ThmSt) : (d.onThm f).ctr = d.ctr := rfl
@[simp] theorem Dev.lane_onThm (d : Dev) (f : ThmSt → ThmSt) : (d.onThm f).lane = d.lane := rfl
@[simp] theorem Dev.port_onThm (d : Dev) (f : ThmSt → ThmSt) : (d.onThm f).port = d.port := rfl
@[simp] theorem Dev.oct_onThm (d : Dev) (f : ThmSt → ThmSt) : (d.onThm f).oct = d.oct := rfl
@[simp] theorem Dev.tl_onThm (d : Dev) (f : ThmSt → ThmSt) : (d.onThm f).tl = d.tl := rfl
@[simp] theorem Dev.time_onThm (d : Dev) (f : ThmSt → ThmSt) : (d.onThm f).time = d.time := rfl
@[simp] theorem Dev.loop_onThm (d : Dev) (f : ThmSt → ThmSt) : (d.onThm f).loop = d.loop := rfl
@[simp] theorem Dev.chain_onThm (d : Dev) (f : ThmSt → ThmSt) : (d.onThm f).chain = d.chain := rfl
@[simp] theorem Dev.weir_onThm (d : Dev) (f : ThmSt → ThmSt) : (d.onThm f).weir = d.weir := rfl
@[simp] theorem Dev.fab_onThm (d : Dev) (f : ThmSt → ThmSt) : (d.onThm f).fab = d.fab := rfl
@[simp] theorem Dev.q_onThm (d : Dev) (f : ThmSt → ThmSt) : (d.onThm f).q = d.q := rfl
@[simp] theorem Dev.host_onThm (d : Dev) (f : ThmSt → ThmSt) : (d.onThm f).host = d.host := rfl
@[simp] theorem Dev.mem_onThm (d : Dev) (f : ThmSt → ThmSt) : (d.onThm f).mem = d.mem := rfl
@[simp] theorem Dev.cnt_onThm (d : Dev) (f : ThmSt → ThmSt) : (d.onThm f).cnt = d.cnt := rfl
@[simp] theorem Dev.pwr_onThm (d : Dev) (f : ThmSt → ThmSt) : (d.onThm f).pwr = d.pwr := rfl
@[simp] theorem Dev.sec_onThm (d : Dev) (f : ThmSt → ThmSt) : (d.onThm f).sec = d.sec := rfl
@[simp] theorem Dev.bist_onThm (d : Dev) (f : ThmSt → ThmSt) : (d.onThm f).bist = d.bist := rfl
@[simp] theorem Dev.boot_onThm (d : Dev) (f : ThmSt → ThmSt) : (d.onThm f).boot = d.boot := rfl
@[simp] theorem Dev.up_onThm (d : Dev) (f : ThmSt → ThmSt) : (d.onThm f).up = d.up := rfl
@[simp] theorem Dev.reads_onThm (d : Dev) (f : ThmSt → ThmSt) : (d.onThm f).reads = d.reads := rfl
@[simp] theorem Dev.ur_onThm (d : Dev) (f : ThmSt → ThmSt) : (d.onThm f).ur = d.ur := rfl
@[simp] theorem Dev.pol_onThm (d : Dev) (f : ThmSt → ThmSt) : (d.onThm f).pol = d.pol := rfl
@[simp] theorem Dev.errLog_onThm (d : Dev) (f : ThmSt → ThmSt) : (d.onThm f).errLog = d.errLog := rfl
@[simp] theorem Dev.holders_onThm (d : Dev) (f : ThmSt → ThmSt) : (d.onThm f).holders = d.holders := rfl

@[simp] theorem Dev.regs_onSec (d : Dev) (f : SecSt → SecSt) : (d.onSec f).regs = d.regs := rfl
@[simp] theorem Dev.freeCtr_onSec (d : Dev) (f : SecSt → SecSt) : (d.onSec f).freeCtr = d.freeCtr := rfl
@[simp] theorem Dev.eng_onSec (d : Dev) (f : SecSt → SecSt) : (d.onSec f).eng = d.eng := rfl
@[simp] theorem Dev.cl_onSec (d : Dev) (f : SecSt → SecSt) : (d.onSec f).cl = d.cl := rfl
@[simp] theorem Dev.dram_onSec (d : Dev) (f : SecSt → SecSt) : (d.onSec f).dram = d.dram := rfl
@[simp] theorem Dev.flowS_onSec (d : Dev) (f : SecSt → SecSt) : (d.onSec f).flowS = d.flowS := rfl
@[simp] theorem Dev.cellS_onSec (d : Dev) (f : SecSt → SecSt) : (d.onSec f).cellS = d.cellS := rfl
@[simp] theorem Dev.locS_onSec (d : Dev) (f : SecSt → SecSt) : (d.onSec f).locS = d.locS := rfl
@[simp] theorem Dev.sharedS_onSec (d : Dev) (f : SecSt → SecSt) : (d.onSec f).sharedS = d.sharedS := rfl
@[simp] theorem Dev.ctr_onSec (d : Dev) (f : SecSt → SecSt) : (d.onSec f).ctr = d.ctr := rfl
@[simp] theorem Dev.lane_onSec (d : Dev) (f : SecSt → SecSt) : (d.onSec f).lane = d.lane := rfl
@[simp] theorem Dev.port_onSec (d : Dev) (f : SecSt → SecSt) : (d.onSec f).port = d.port := rfl
@[simp] theorem Dev.oct_onSec (d : Dev) (f : SecSt → SecSt) : (d.onSec f).oct = d.oct := rfl
@[simp] theorem Dev.tl_onSec (d : Dev) (f : SecSt → SecSt) : (d.onSec f).tl = d.tl := rfl
@[simp] theorem Dev.time_onSec (d : Dev) (f : SecSt → SecSt) : (d.onSec f).time = d.time := rfl
@[simp] theorem Dev.loop_onSec (d : Dev) (f : SecSt → SecSt) : (d.onSec f).loop = d.loop := rfl
@[simp] theorem Dev.chain_onSec (d : Dev) (f : SecSt → SecSt) : (d.onSec f).chain = d.chain := rfl
@[simp] theorem Dev.weir_onSec (d : Dev) (f : SecSt → SecSt) : (d.onSec f).weir = d.weir := rfl
@[simp] theorem Dev.fab_onSec (d : Dev) (f : SecSt → SecSt) : (d.onSec f).fab = d.fab := rfl
@[simp] theorem Dev.q_onSec (d : Dev) (f : SecSt → SecSt) : (d.onSec f).q = d.q := rfl
@[simp] theorem Dev.host_onSec (d : Dev) (f : SecSt → SecSt) : (d.onSec f).host = d.host := rfl
@[simp] theorem Dev.mem_onSec (d : Dev) (f : SecSt → SecSt) : (d.onSec f).mem = d.mem := rfl
@[simp] theorem Dev.cnt_onSec (d : Dev) (f : SecSt → SecSt) : (d.onSec f).cnt = d.cnt := rfl
@[simp] theorem Dev.pwr_onSec (d : Dev) (f : SecSt → SecSt) : (d.onSec f).pwr = d.pwr := rfl
@[simp] theorem Dev.thm_onSec (d : Dev) (f : SecSt → SecSt) : (d.onSec f).thm = d.thm := rfl
@[simp] theorem Dev.bist_onSec (d : Dev) (f : SecSt → SecSt) : (d.onSec f).bist = d.bist := rfl
@[simp] theorem Dev.boot_onSec (d : Dev) (f : SecSt → SecSt) : (d.onSec f).boot = d.boot := rfl
@[simp] theorem Dev.up_onSec (d : Dev) (f : SecSt → SecSt) : (d.onSec f).up = d.up := rfl
@[simp] theorem Dev.reads_onSec (d : Dev) (f : SecSt → SecSt) : (d.onSec f).reads = d.reads := rfl
@[simp] theorem Dev.ur_onSec (d : Dev) (f : SecSt → SecSt) : (d.onSec f).ur = d.ur := rfl
@[simp] theorem Dev.pol_onSec (d : Dev) (f : SecSt → SecSt) : (d.onSec f).pol = d.pol := rfl
@[simp] theorem Dev.errLog_onSec (d : Dev) (f : SecSt → SecSt) : (d.onSec f).errLog = d.errLog := rfl
@[simp] theorem Dev.holders_onSec (d : Dev) (f : SecSt → SecSt) : (d.onSec f).holders = d.holders := rfl

@[simp] theorem Dev.regs_onHost (d : Dev) (f : HostSt → HostSt) : (d.onHost f).regs = d.regs := rfl
@[simp] theorem Dev.freeCtr_onHost (d : Dev) (f : HostSt → HostSt) : (d.onHost f).freeCtr = d.freeCtr := rfl
@[simp] theorem Dev.eng_onHost (d : Dev) (f : HostSt → HostSt) : (d.onHost f).eng = d.eng := rfl
@[simp] theorem Dev.cl_onHost (d : Dev) (f : HostSt → HostSt) : (d.onHost f).cl = d.cl := rfl
@[simp] theorem Dev.dram_onHost (d : Dev) (f : HostSt → HostSt) : (d.onHost f).dram = d.dram := rfl
@[simp] theorem Dev.flowS_onHost (d : Dev) (f : HostSt → HostSt) : (d.onHost f).flowS = d.flowS := rfl
@[simp] theorem Dev.cellS_onHost (d : Dev) (f : HostSt → HostSt) : (d.onHost f).cellS = d.cellS := rfl
@[simp] theorem Dev.locS_onHost (d : Dev) (f : HostSt → HostSt) : (d.onHost f).locS = d.locS := rfl
@[simp] theorem Dev.sharedS_onHost (d : Dev) (f : HostSt → HostSt) : (d.onHost f).sharedS = d.sharedS := rfl
@[simp] theorem Dev.ctr_onHost (d : Dev) (f : HostSt → HostSt) : (d.onHost f).ctr = d.ctr := rfl
@[simp] theorem Dev.lane_onHost (d : Dev) (f : HostSt → HostSt) : (d.onHost f).lane = d.lane := rfl
@[simp] theorem Dev.port_onHost (d : Dev) (f : HostSt → HostSt) : (d.onHost f).port = d.port := rfl
@[simp] theorem Dev.oct_onHost (d : Dev) (f : HostSt → HostSt) : (d.onHost f).oct = d.oct := rfl
@[simp] theorem Dev.tl_onHost (d : Dev) (f : HostSt → HostSt) : (d.onHost f).tl = d.tl := rfl
@[simp] theorem Dev.time_onHost (d : Dev) (f : HostSt → HostSt) : (d.onHost f).time = d.time := rfl
@[simp] theorem Dev.loop_onHost (d : Dev) (f : HostSt → HostSt) : (d.onHost f).loop = d.loop := rfl
@[simp] theorem Dev.chain_onHost (d : Dev) (f : HostSt → HostSt) : (d.onHost f).chain = d.chain := rfl
@[simp] theorem Dev.weir_onHost (d : Dev) (f : HostSt → HostSt) : (d.onHost f).weir = d.weir := rfl
@[simp] theorem Dev.fab_onHost (d : Dev) (f : HostSt → HostSt) : (d.onHost f).fab = d.fab := rfl
@[simp] theorem Dev.q_onHost (d : Dev) (f : HostSt → HostSt) : (d.onHost f).q = d.q := rfl
@[simp] theorem Dev.mem_onHost (d : Dev) (f : HostSt → HostSt) : (d.onHost f).mem = d.mem := rfl
@[simp] theorem Dev.cnt_onHost (d : Dev) (f : HostSt → HostSt) : (d.onHost f).cnt = d.cnt := rfl
@[simp] theorem Dev.pwr_onHost (d : Dev) (f : HostSt → HostSt) : (d.onHost f).pwr = d.pwr := rfl
@[simp] theorem Dev.thm_onHost (d : Dev) (f : HostSt → HostSt) : (d.onHost f).thm = d.thm := rfl
@[simp] theorem Dev.sec_onHost (d : Dev) (f : HostSt → HostSt) : (d.onHost f).sec = d.sec := rfl
@[simp] theorem Dev.bist_onHost (d : Dev) (f : HostSt → HostSt) : (d.onHost f).bist = d.bist := rfl
@[simp] theorem Dev.boot_onHost (d : Dev) (f : HostSt → HostSt) : (d.onHost f).boot = d.boot := rfl
@[simp] theorem Dev.up_onHost (d : Dev) (f : HostSt → HostSt) : (d.onHost f).up = d.up := rfl
@[simp] theorem Dev.reads_onHost (d : Dev) (f : HostSt → HostSt) : (d.onHost f).reads = d.reads := rfl
@[simp] theorem Dev.ur_onHost (d : Dev) (f : HostSt → HostSt) : (d.onHost f).ur = d.ur := rfl
@[simp] theorem Dev.pol_onHost (d : Dev) (f : HostSt → HostSt) : (d.onHost f).pol = d.pol := rfl
@[simp] theorem Dev.errLog_onHost (d : Dev) (f : HostSt → HostSt) : (d.onHost f).errLog = d.errLog := rfl
@[simp] theorem Dev.holders_onHost (d : Dev) (f : HostSt → HostSt) : (d.onHost f).holders = d.holders := rfl

@[simp] theorem Dev.regs_onQ (d : Dev) (q : Nat) (f : QSt → QSt) : (d.onQ q f).regs = d.regs := rfl
@[simp] theorem Dev.freeCtr_onQ (d : Dev) (q : Nat) (f : QSt → QSt) : (d.onQ q f).freeCtr = d.freeCtr := rfl
@[simp] theorem Dev.eng_onQ (d : Dev) (q : Nat) (f : QSt → QSt) : (d.onQ q f).eng = d.eng := rfl
@[simp] theorem Dev.cl_onQ (d : Dev) (q : Nat) (f : QSt → QSt) : (d.onQ q f).cl = d.cl := rfl
@[simp] theorem Dev.dram_onQ (d : Dev) (q : Nat) (f : QSt → QSt) : (d.onQ q f).dram = d.dram := rfl
@[simp] theorem Dev.flowS_onQ (d : Dev) (q : Nat) (f : QSt → QSt) : (d.onQ q f).flowS = d.flowS := rfl
@[simp] theorem Dev.cellS_onQ (d : Dev) (q : Nat) (f : QSt → QSt) : (d.onQ q f).cellS = d.cellS := rfl
@[simp] theorem Dev.locS_onQ (d : Dev) (q : Nat) (f : QSt → QSt) : (d.onQ q f).locS = d.locS := rfl
@[simp] theorem Dev.sharedS_onQ (d : Dev) (q : Nat) (f : QSt → QSt) : (d.onQ q f).sharedS = d.sharedS := rfl
@[simp] theorem Dev.ctr_onQ (d : Dev) (q : Nat) (f : QSt → QSt) : (d.onQ q f).ctr = d.ctr := rfl
@[simp] theorem Dev.lane_onQ (d : Dev) (q : Nat) (f : QSt → QSt) : (d.onQ q f).lane = d.lane := rfl
@[simp] theorem Dev.port_onQ (d : Dev) (q : Nat) (f : QSt → QSt) : (d.onQ q f).port = d.port := rfl
@[simp] theorem Dev.oct_onQ (d : Dev) (q : Nat) (f : QSt → QSt) : (d.onQ q f).oct = d.oct := rfl
@[simp] theorem Dev.tl_onQ (d : Dev) (q : Nat) (f : QSt → QSt) : (d.onQ q f).tl = d.tl := rfl
@[simp] theorem Dev.time_onQ (d : Dev) (q : Nat) (f : QSt → QSt) : (d.onQ q f).time = d.time := rfl
@[simp] theorem Dev.loop_onQ (d : Dev) (q : Nat) (f : QSt → QSt) : (d.onQ q f).loop = d.loop := rfl
@[simp] theorem Dev.chain_onQ (d : Dev) (q : Nat) (f : QSt → QSt) : (d.onQ q f).chain = d.chain := rfl
@[simp] theorem Dev.weir_onQ (d : Dev) (q : Nat) (f : QSt → QSt) : (d.onQ q f).weir = d.weir := rfl
@[simp] theorem Dev.fab_onQ (d : Dev) (q : Nat) (f : QSt → QSt) : (d.onQ q f).fab = d.fab := rfl
@[simp] theorem Dev.host_onQ (d : Dev) (q : Nat) (f : QSt → QSt) : (d.onQ q f).host = d.host := rfl
@[simp] theorem Dev.mem_onQ (d : Dev) (q : Nat) (f : QSt → QSt) : (d.onQ q f).mem = d.mem := rfl
@[simp] theorem Dev.cnt_onQ (d : Dev) (q : Nat) (f : QSt → QSt) : (d.onQ q f).cnt = d.cnt := rfl
@[simp] theorem Dev.pwr_onQ (d : Dev) (q : Nat) (f : QSt → QSt) : (d.onQ q f).pwr = d.pwr := rfl
@[simp] theorem Dev.thm_onQ (d : Dev) (q : Nat) (f : QSt → QSt) : (d.onQ q f).thm = d.thm := rfl
@[simp] theorem Dev.sec_onQ (d : Dev) (q : Nat) (f : QSt → QSt) : (d.onQ q f).sec = d.sec := rfl
@[simp] theorem Dev.bist_onQ (d : Dev) (q : Nat) (f : QSt → QSt) : (d.onQ q f).bist = d.bist := rfl
@[simp] theorem Dev.boot_onQ (d : Dev) (q : Nat) (f : QSt → QSt) : (d.onQ q f).boot = d.boot := rfl
@[simp] theorem Dev.up_onQ (d : Dev) (q : Nat) (f : QSt → QSt) : (d.onQ q f).up = d.up := rfl
@[simp] theorem Dev.reads_onQ (d : Dev) (q : Nat) (f : QSt → QSt) : (d.onQ q f).reads = d.reads := rfl
@[simp] theorem Dev.ur_onQ (d : Dev) (q : Nat) (f : QSt → QSt) : (d.onQ q f).ur = d.ur := rfl
@[simp] theorem Dev.pol_onQ (d : Dev) (q : Nat) (f : QSt → QSt) : (d.onQ q f).pol = d.pol := rfl
@[simp] theorem Dev.errLog_onQ (d : Dev) (q : Nat) (f : QSt → QSt) : (d.onQ q f).errLog = d.errLog := rfl
@[simp] theorem Dev.holders_onQ (d : Dev) (q : Nat) (f : QSt → QSt) : (d.onQ q f).holders = d.holders := rfl

@[simp] theorem Dev.regs_respond (d : Dev) (src : Src) (v : Nat) : (d.respond src v).regs = d.regs := rfl
@[simp] theorem Dev.freeCtr_respond (d : Dev) (src : Src) (v : Nat) : (d.respond src v).freeCtr = d.freeCtr := rfl
@[simp] theorem Dev.eng_respond (d : Dev) (src : Src) (v : Nat) : (d.respond src v).eng = d.eng := rfl
@[simp] theorem Dev.cl_respond (d : Dev) (src : Src) (v : Nat) : (d.respond src v).cl = d.cl := rfl
@[simp] theorem Dev.dram_respond (d : Dev) (src : Src) (v : Nat) : (d.respond src v).dram = d.dram := rfl
@[simp] theorem Dev.flowS_respond (d : Dev) (src : Src) (v : Nat) : (d.respond src v).flowS = d.flowS := rfl
@[simp] theorem Dev.cellS_respond (d : Dev) (src : Src) (v : Nat) : (d.respond src v).cellS = d.cellS := rfl
@[simp] theorem Dev.locS_respond (d : Dev) (src : Src) (v : Nat) : (d.respond src v).locS = d.locS := rfl
@[simp] theorem Dev.sharedS_respond (d : Dev) (src : Src) (v : Nat) : (d.respond src v).sharedS = d.sharedS := rfl
@[simp] theorem Dev.ctr_respond (d : Dev) (src : Src) (v : Nat) : (d.respond src v).ctr = d.ctr := rfl
@[simp] theorem Dev.lane_respond (d : Dev) (src : Src) (v : Nat) : (d.respond src v).lane = d.lane := rfl
@[simp] theorem Dev.port_respond (d : Dev) (src : Src) (v : Nat) : (d.respond src v).port = d.port := rfl
@[simp] theorem Dev.oct_respond (d : Dev) (src : Src) (v : Nat) : (d.respond src v).oct = d.oct := rfl
@[simp] theorem Dev.tl_respond (d : Dev) (src : Src) (v : Nat) : (d.respond src v).tl = d.tl := rfl
@[simp] theorem Dev.time_respond (d : Dev) (src : Src) (v : Nat) : (d.respond src v).time = d.time := rfl
@[simp] theorem Dev.loop_respond (d : Dev) (src : Src) (v : Nat) : (d.respond src v).loop = d.loop := rfl
@[simp] theorem Dev.chain_respond (d : Dev) (src : Src) (v : Nat) : (d.respond src v).chain = d.chain := rfl
@[simp] theorem Dev.weir_respond (d : Dev) (src : Src) (v : Nat) : (d.respond src v).weir = d.weir := rfl
@[simp] theorem Dev.fab_respond (d : Dev) (src : Src) (v : Nat) : (d.respond src v).fab = d.fab := rfl
@[simp] theorem Dev.q_respond (d : Dev) (src : Src) (v : Nat) : (d.respond src v).q = d.q := rfl
@[simp] theorem Dev.host_respond (d : Dev) (src : Src) (v : Nat) : (d.respond src v).host = d.host := rfl
@[simp] theorem Dev.mem_respond (d : Dev) (src : Src) (v : Nat) : (d.respond src v).mem = d.mem := rfl
@[simp] theorem Dev.cnt_respond (d : Dev) (src : Src) (v : Nat) : (d.respond src v).cnt = d.cnt := rfl
@[simp] theorem Dev.pwr_respond (d : Dev) (src : Src) (v : Nat) : (d.respond src v).pwr = d.pwr := rfl
@[simp] theorem Dev.thm_respond (d : Dev) (src : Src) (v : Nat) : (d.respond src v).thm = d.thm := rfl
@[simp] theorem Dev.sec_respond (d : Dev) (src : Src) (v : Nat) : (d.respond src v).sec = d.sec := rfl
@[simp] theorem Dev.bist_respond (d : Dev) (src : Src) (v : Nat) : (d.respond src v).bist = d.bist := rfl
@[simp] theorem Dev.boot_respond (d : Dev) (src : Src) (v : Nat) : (d.respond src v).boot = d.boot := rfl
@[simp] theorem Dev.up_respond (d : Dev) (src : Src) (v : Nat) : (d.respond src v).up = d.up := rfl
@[simp] theorem Dev.ur_respond (d : Dev) (src : Src) (v : Nat) : (d.respond src v).ur = d.ur := rfl
@[simp] theorem Dev.pol_respond (d : Dev) (src : Src) (v : Nat) : (d.respond src v).pol = d.pol := rfl
@[simp] theorem Dev.errLog_respond (d : Dev) (src : Src) (v : Nat) : (d.respond src v).errLog = d.errLog := rfl
@[simp] theorem Dev.holders_respond (d : Dev) (src : Src) (v : Nat) : (d.respond src v).holders = d.holders := rfl

@[simp] theorem Dev.regs_unsupported (d : Dev) (src : Src) : (d.unsupported src).regs = d.regs := rfl
@[simp] theorem Dev.freeCtr_unsupported (d : Dev) (src : Src) : (d.unsupported src).freeCtr = d.freeCtr := rfl
@[simp] theorem Dev.eng_unsupported (d : Dev) (src : Src) : (d.unsupported src).eng = d.eng := rfl
@[simp] theorem Dev.cl_unsupported (d : Dev) (src : Src) : (d.unsupported src).cl = d.cl := rfl
@[simp] theorem Dev.dram_unsupported (d : Dev) (src : Src) : (d.unsupported src).dram = d.dram := rfl
@[simp] theorem Dev.flowS_unsupported (d : Dev) (src : Src) : (d.unsupported src).flowS = d.flowS := rfl
@[simp] theorem Dev.cellS_unsupported (d : Dev) (src : Src) : (d.unsupported src).cellS = d.cellS := rfl
@[simp] theorem Dev.locS_unsupported (d : Dev) (src : Src) : (d.unsupported src).locS = d.locS := rfl
@[simp] theorem Dev.sharedS_unsupported (d : Dev) (src : Src) : (d.unsupported src).sharedS = d.sharedS := rfl
@[simp] theorem Dev.ctr_unsupported (d : Dev) (src : Src) : (d.unsupported src).ctr = d.ctr := rfl
@[simp] theorem Dev.lane_unsupported (d : Dev) (src : Src) : (d.unsupported src).lane = d.lane := rfl
@[simp] theorem Dev.port_unsupported (d : Dev) (src : Src) : (d.unsupported src).port = d.port := rfl
@[simp] theorem Dev.oct_unsupported (d : Dev) (src : Src) : (d.unsupported src).oct = d.oct := rfl
@[simp] theorem Dev.tl_unsupported (d : Dev) (src : Src) : (d.unsupported src).tl = d.tl := rfl
@[simp] theorem Dev.time_unsupported (d : Dev) (src : Src) : (d.unsupported src).time = d.time := rfl
@[simp] theorem Dev.loop_unsupported (d : Dev) (src : Src) : (d.unsupported src).loop = d.loop := rfl
@[simp] theorem Dev.chain_unsupported (d : Dev) (src : Src) : (d.unsupported src).chain = d.chain := rfl
@[simp] theorem Dev.weir_unsupported (d : Dev) (src : Src) : (d.unsupported src).weir = d.weir := rfl
@[simp] theorem Dev.fab_unsupported (d : Dev) (src : Src) : (d.unsupported src).fab = d.fab := rfl
@[simp] theorem Dev.q_unsupported (d : Dev) (src : Src) : (d.unsupported src).q = d.q := rfl
@[simp] theorem Dev.host_unsupported (d : Dev) (src : Src) : (d.unsupported src).host = d.host := rfl
@[simp] theorem Dev.mem_unsupported (d : Dev) (src : Src) : (d.unsupported src).mem = d.mem := rfl
@[simp] theorem Dev.cnt_unsupported (d : Dev) (src : Src) : (d.unsupported src).cnt = d.cnt := rfl
@[simp] theorem Dev.pwr_unsupported (d : Dev) (src : Src) : (d.unsupported src).pwr = d.pwr := rfl
@[simp] theorem Dev.thm_unsupported (d : Dev) (src : Src) : (d.unsupported src).thm = d.thm := rfl
@[simp] theorem Dev.sec_unsupported (d : Dev) (src : Src) : (d.unsupported src).sec = d.sec := rfl
@[simp] theorem Dev.bist_unsupported (d : Dev) (src : Src) : (d.unsupported src).bist = d.bist := rfl
@[simp] theorem Dev.boot_unsupported (d : Dev) (src : Src) : (d.unsupported src).boot = d.boot := rfl
@[simp] theorem Dev.up_unsupported (d : Dev) (src : Src) : (d.unsupported src).up = d.up := rfl
@[simp] theorem Dev.reads_unsupported (d : Dev) (src : Src) : (d.unsupported src).reads = d.reads := rfl
@[simp] theorem Dev.pol_unsupported (d : Dev) (src : Src) : (d.unsupported src).pol = d.pol := rfl
@[simp] theorem Dev.errLog_unsupported (d : Dev) (src : Src) : (d.unsupported src).errLog = d.errLog := rfl
@[simp] theorem Dev.holders_unsupported (d : Dev) (src : Src) : (d.unsupported src).holders = d.holders := rfl

@[simp] theorem Dev.regs_onLp (d : Dev) (o j : Nat) (f : LoopSt → LoopSt) : (d.onLp o j f).regs = d.regs := rfl
@[simp] theorem Dev.freeCtr_onLp (d : Dev) (o j : Nat) (f : LoopSt → LoopSt) : (d.onLp o j f).freeCtr = d.freeCtr := rfl
@[simp] theorem Dev.eng_onLp (d : Dev) (o j : Nat) (f : LoopSt → LoopSt) : (d.onLp o j f).eng = d.eng := rfl
@[simp] theorem Dev.cl_onLp (d : Dev) (o j : Nat) (f : LoopSt → LoopSt) : (d.onLp o j f).cl = d.cl := rfl
@[simp] theorem Dev.dram_onLp (d : Dev) (o j : Nat) (f : LoopSt → LoopSt) : (d.onLp o j f).dram = d.dram := rfl
@[simp] theorem Dev.flowS_onLp (d : Dev) (o j : Nat) (f : LoopSt → LoopSt) : (d.onLp o j f).flowS = d.flowS := rfl
@[simp] theorem Dev.cellS_onLp (d : Dev) (o j : Nat) (f : LoopSt → LoopSt) : (d.onLp o j f).cellS = d.cellS := rfl
@[simp] theorem Dev.locS_onLp (d : Dev) (o j : Nat) (f : LoopSt → LoopSt) : (d.onLp o j f).locS = d.locS := rfl
@[simp] theorem Dev.sharedS_onLp (d : Dev) (o j : Nat) (f : LoopSt → LoopSt) : (d.onLp o j f).sharedS = d.sharedS := rfl
@[simp] theorem Dev.ctr_onLp (d : Dev) (o j : Nat) (f : LoopSt → LoopSt) : (d.onLp o j f).ctr = d.ctr := rfl
@[simp] theorem Dev.lane_onLp (d : Dev) (o j : Nat) (f : LoopSt → LoopSt) : (d.onLp o j f).lane = d.lane := rfl
@[simp] theorem Dev.port_onLp (d : Dev) (o j : Nat) (f : LoopSt → LoopSt) : (d.onLp o j f).port = d.port := rfl
@[simp] theorem Dev.oct_onLp (d : Dev) (o j : Nat) (f : LoopSt → LoopSt) : (d.onLp o j f).oct = d.oct := rfl
@[simp] theorem Dev.tl_onLp (d : Dev) (o j : Nat) (f : LoopSt → LoopSt) : (d.onLp o j f).tl = d.tl := rfl
@[simp] theorem Dev.time_onLp (d : Dev) (o j : Nat) (f : LoopSt → LoopSt) : (d.onLp o j f).time = d.time := rfl
@[simp] theorem Dev.chain_onLp (d : Dev) (o j : Nat) (f : LoopSt → LoopSt) : (d.onLp o j f).chain = d.chain := rfl
@[simp] theorem Dev.weir_onLp (d : Dev) (o j : Nat) (f : LoopSt → LoopSt) : (d.onLp o j f).weir = d.weir := rfl
@[simp] theorem Dev.fab_onLp (d : Dev) (o j : Nat) (f : LoopSt → LoopSt) : (d.onLp o j f).fab = d.fab := rfl
@[simp] theorem Dev.q_onLp (d : Dev) (o j : Nat) (f : LoopSt → LoopSt) : (d.onLp o j f).q = d.q := rfl
@[simp] theorem Dev.host_onLp (d : Dev) (o j : Nat) (f : LoopSt → LoopSt) : (d.onLp o j f).host = d.host := rfl
@[simp] theorem Dev.mem_onLp (d : Dev) (o j : Nat) (f : LoopSt → LoopSt) : (d.onLp o j f).mem = d.mem := rfl
@[simp] theorem Dev.cnt_onLp (d : Dev) (o j : Nat) (f : LoopSt → LoopSt) : (d.onLp o j f).cnt = d.cnt := rfl
@[simp] theorem Dev.pwr_onLp (d : Dev) (o j : Nat) (f : LoopSt → LoopSt) : (d.onLp o j f).pwr = d.pwr := rfl
@[simp] theorem Dev.thm_onLp (d : Dev) (o j : Nat) (f : LoopSt → LoopSt) : (d.onLp o j f).thm = d.thm := rfl
@[simp] theorem Dev.sec_onLp (d : Dev) (o j : Nat) (f : LoopSt → LoopSt) : (d.onLp o j f).sec = d.sec := rfl
@[simp] theorem Dev.bist_onLp (d : Dev) (o j : Nat) (f : LoopSt → LoopSt) : (d.onLp o j f).bist = d.bist := rfl
@[simp] theorem Dev.boot_onLp (d : Dev) (o j : Nat) (f : LoopSt → LoopSt) : (d.onLp o j f).boot = d.boot := rfl
@[simp] theorem Dev.up_onLp (d : Dev) (o j : Nat) (f : LoopSt → LoopSt) : (d.onLp o j f).up = d.up := rfl
@[simp] theorem Dev.reads_onLp (d : Dev) (o j : Nat) (f : LoopSt → LoopSt) : (d.onLp o j f).reads = d.reads := rfl
@[simp] theorem Dev.ur_onLp (d : Dev) (o j : Nat) (f : LoopSt → LoopSt) : (d.onLp o j f).ur = d.ur := rfl
@[simp] theorem Dev.pol_onLp (d : Dev) (o j : Nat) (f : LoopSt → LoopSt) : (d.onLp o j f).pol = d.pol := rfl
@[simp] theorem Dev.errLog_onLp (d : Dev) (o j : Nat) (f : LoopSt → LoopSt) : (d.onLp o j f).errLog = d.errLog := rfl
@[simp] theorem Dev.holders_onLp (d : Dev) (o j : Nat) (f : LoopSt → LoopSt) : (d.onLp o j f).holders = d.holders := rfl

@[simp] theorem Dev.regs_onCh (d : Dev) (o i : Nat) (f : ChainSt → ChainSt) : (d.onCh o i f).regs = d.regs := rfl
@[simp] theorem Dev.freeCtr_onCh (d : Dev) (o i : Nat) (f : ChainSt → ChainSt) : (d.onCh o i f).freeCtr = d.freeCtr := rfl
@[simp] theorem Dev.eng_onCh (d : Dev) (o i : Nat) (f : ChainSt → ChainSt) : (d.onCh o i f).eng = d.eng := rfl
@[simp] theorem Dev.cl_onCh (d : Dev) (o i : Nat) (f : ChainSt → ChainSt) : (d.onCh o i f).cl = d.cl := rfl
@[simp] theorem Dev.dram_onCh (d : Dev) (o i : Nat) (f : ChainSt → ChainSt) : (d.onCh o i f).dram = d.dram := rfl
@[simp] theorem Dev.flowS_onCh (d : Dev) (o i : Nat) (f : ChainSt → ChainSt) : (d.onCh o i f).flowS = d.flowS := rfl
@[simp] theorem Dev.cellS_onCh (d : Dev) (o i : Nat) (f : ChainSt → ChainSt) : (d.onCh o i f).cellS = d.cellS := rfl
@[simp] theorem Dev.locS_onCh (d : Dev) (o i : Nat) (f : ChainSt → ChainSt) : (d.onCh o i f).locS = d.locS := rfl
@[simp] theorem Dev.sharedS_onCh (d : Dev) (o i : Nat) (f : ChainSt → ChainSt) : (d.onCh o i f).sharedS = d.sharedS := rfl
@[simp] theorem Dev.ctr_onCh (d : Dev) (o i : Nat) (f : ChainSt → ChainSt) : (d.onCh o i f).ctr = d.ctr := rfl
@[simp] theorem Dev.lane_onCh (d : Dev) (o i : Nat) (f : ChainSt → ChainSt) : (d.onCh o i f).lane = d.lane := rfl
@[simp] theorem Dev.port_onCh (d : Dev) (o i : Nat) (f : ChainSt → ChainSt) : (d.onCh o i f).port = d.port := rfl
@[simp] theorem Dev.oct_onCh (d : Dev) (o i : Nat) (f : ChainSt → ChainSt) : (d.onCh o i f).oct = d.oct := rfl
@[simp] theorem Dev.tl_onCh (d : Dev) (o i : Nat) (f : ChainSt → ChainSt) : (d.onCh o i f).tl = d.tl := rfl
@[simp] theorem Dev.time_onCh (d : Dev) (o i : Nat) (f : ChainSt → ChainSt) : (d.onCh o i f).time = d.time := rfl
@[simp] theorem Dev.loop_onCh (d : Dev) (o i : Nat) (f : ChainSt → ChainSt) : (d.onCh o i f).loop = d.loop := rfl
@[simp] theorem Dev.weir_onCh (d : Dev) (o i : Nat) (f : ChainSt → ChainSt) : (d.onCh o i f).weir = d.weir := rfl
@[simp] theorem Dev.fab_onCh (d : Dev) (o i : Nat) (f : ChainSt → ChainSt) : (d.onCh o i f).fab = d.fab := rfl
@[simp] theorem Dev.q_onCh (d : Dev) (o i : Nat) (f : ChainSt → ChainSt) : (d.onCh o i f).q = d.q := rfl
@[simp] theorem Dev.host_onCh (d : Dev) (o i : Nat) (f : ChainSt → ChainSt) : (d.onCh o i f).host = d.host := rfl
@[simp] theorem Dev.mem_onCh (d : Dev) (o i : Nat) (f : ChainSt → ChainSt) : (d.onCh o i f).mem = d.mem := rfl
@[simp] theorem Dev.cnt_onCh (d : Dev) (o i : Nat) (f : ChainSt → ChainSt) : (d.onCh o i f).cnt = d.cnt := rfl
@[simp] theorem Dev.pwr_onCh (d : Dev) (o i : Nat) (f : ChainSt → ChainSt) : (d.onCh o i f).pwr = d.pwr := rfl
@[simp] theorem Dev.thm_onCh (d : Dev) (o i : Nat) (f : ChainSt → ChainSt) : (d.onCh o i f).thm = d.thm := rfl
@[simp] theorem Dev.sec_onCh (d : Dev) (o i : Nat) (f : ChainSt → ChainSt) : (d.onCh o i f).sec = d.sec := rfl
@[simp] theorem Dev.bist_onCh (d : Dev) (o i : Nat) (f : ChainSt → ChainSt) : (d.onCh o i f).bist = d.bist := rfl
@[simp] theorem Dev.boot_onCh (d : Dev) (o i : Nat) (f : ChainSt → ChainSt) : (d.onCh o i f).boot = d.boot := rfl
@[simp] theorem Dev.up_onCh (d : Dev) (o i : Nat) (f : ChainSt → ChainSt) : (d.onCh o i f).up = d.up := rfl
@[simp] theorem Dev.reads_onCh (d : Dev) (o i : Nat) (f : ChainSt → ChainSt) : (d.onCh o i f).reads = d.reads := rfl
@[simp] theorem Dev.ur_onCh (d : Dev) (o i : Nat) (f : ChainSt → ChainSt) : (d.onCh o i f).ur = d.ur := rfl
@[simp] theorem Dev.pol_onCh (d : Dev) (o i : Nat) (f : ChainSt → ChainSt) : (d.onCh o i f).pol = d.pol := rfl
@[simp] theorem Dev.errLog_onCh (d : Dev) (o i : Nat) (f : ChainSt → ChainSt) : (d.onCh o i f).errLog = d.errLog := rfl
@[simp] theorem Dev.holders_onCh (d : Dev) (o i : Nat) (f : ChainSt → ChainSt) : (d.onCh o i f).holders = d.holders := rfl

@[simp] theorem Dev.regs_onCnt (d : Dev) (f : CtrSt → CtrSt) : (d.onCnt f).regs = d.regs := rfl
@[simp] theorem Dev.freeCtr_onCnt (d : Dev) (f : CtrSt → CtrSt) : (d.onCnt f).freeCtr = d.freeCtr := rfl
@[simp] theorem Dev.eng_onCnt (d : Dev) (f : CtrSt → CtrSt) : (d.onCnt f).eng = d.eng := rfl
@[simp] theorem Dev.cl_onCnt (d : Dev) (f : CtrSt → CtrSt) : (d.onCnt f).cl = d.cl := rfl
@[simp] theorem Dev.dram_onCnt (d : Dev) (f : CtrSt → CtrSt) : (d.onCnt f).dram = d.dram := rfl
@[simp] theorem Dev.flowS_onCnt (d : Dev) (f : CtrSt → CtrSt) : (d.onCnt f).flowS = d.flowS := rfl
@[simp] theorem Dev.cellS_onCnt (d : Dev) (f : CtrSt → CtrSt) : (d.onCnt f).cellS = d.cellS := rfl
@[simp] theorem Dev.locS_onCnt (d : Dev) (f : CtrSt → CtrSt) : (d.onCnt f).locS = d.locS := rfl
@[simp] theorem Dev.sharedS_onCnt (d : Dev) (f : CtrSt → CtrSt) : (d.onCnt f).sharedS = d.sharedS := rfl
@[simp] theorem Dev.ctr_onCnt (d : Dev) (f : CtrSt → CtrSt) : (d.onCnt f).ctr = d.ctr := rfl
@[simp] theorem Dev.lane_onCnt (d : Dev) (f : CtrSt → CtrSt) : (d.onCnt f).lane = d.lane := rfl
@[simp] theorem Dev.port_onCnt (d : Dev) (f : CtrSt → CtrSt) : (d.onCnt f).port = d.port := rfl
@[simp] theorem Dev.oct_onCnt (d : Dev) (f : CtrSt → CtrSt) : (d.onCnt f).oct = d.oct := rfl
@[simp] theorem Dev.tl_onCnt (d : Dev) (f : CtrSt → CtrSt) : (d.onCnt f).tl = d.tl := rfl
@[simp] theorem Dev.time_onCnt (d : Dev) (f : CtrSt → CtrSt) : (d.onCnt f).time = d.time := rfl
@[simp] theorem Dev.loop_onCnt (d : Dev) (f : CtrSt → CtrSt) : (d.onCnt f).loop = d.loop := rfl
@[simp] theorem Dev.chain_onCnt (d : Dev) (f : CtrSt → CtrSt) : (d.onCnt f).chain = d.chain := rfl
@[simp] theorem Dev.weir_onCnt (d : Dev) (f : CtrSt → CtrSt) : (d.onCnt f).weir = d.weir := rfl
@[simp] theorem Dev.fab_onCnt (d : Dev) (f : CtrSt → CtrSt) : (d.onCnt f).fab = d.fab := rfl
@[simp] theorem Dev.q_onCnt (d : Dev) (f : CtrSt → CtrSt) : (d.onCnt f).q = d.q := rfl
@[simp] theorem Dev.host_onCnt (d : Dev) (f : CtrSt → CtrSt) : (d.onCnt f).host = d.host := rfl
@[simp] theorem Dev.mem_onCnt (d : Dev) (f : CtrSt → CtrSt) : (d.onCnt f).mem = d.mem := rfl
@[simp] theorem Dev.pwr_onCnt (d : Dev) (f : CtrSt → CtrSt) : (d.onCnt f).pwr = d.pwr := rfl
@[simp] theorem Dev.thm_onCnt (d : Dev) (f : CtrSt → CtrSt) : (d.onCnt f).thm = d.thm := rfl
@[simp] theorem Dev.sec_onCnt (d : Dev) (f : CtrSt → CtrSt) : (d.onCnt f).sec = d.sec := rfl
@[simp] theorem Dev.bist_onCnt (d : Dev) (f : CtrSt → CtrSt) : (d.onCnt f).bist = d.bist := rfl
@[simp] theorem Dev.boot_onCnt (d : Dev) (f : CtrSt → CtrSt) : (d.onCnt f).boot = d.boot := rfl
@[simp] theorem Dev.up_onCnt (d : Dev) (f : CtrSt → CtrSt) : (d.onCnt f).up = d.up := rfl
@[simp] theorem Dev.reads_onCnt (d : Dev) (f : CtrSt → CtrSt) : (d.onCnt f).reads = d.reads := rfl
@[simp] theorem Dev.ur_onCnt (d : Dev) (f : CtrSt → CtrSt) : (d.onCnt f).ur = d.ur := rfl
@[simp] theorem Dev.pol_onCnt (d : Dev) (f : CtrSt → CtrSt) : (d.onCnt f).pol = d.pol := rfl
@[simp] theorem Dev.errLog_onCnt (d : Dev) (f : CtrSt → CtrSt) : (d.onCnt f).errLog = d.errLog := rfl
@[simp] theorem Dev.holders_onCnt (d : Dev) (f : CtrSt → CtrSt) : (d.onCnt f).holders = d.holders := rfl

@[simp] theorem Dev.regs_onBist (d : Dev) (f : BistSt → BistSt) : (d.onBist f).regs = d.regs := rfl
@[simp] theorem Dev.freeCtr_onBist (d : Dev) (f : BistSt → BistSt) : (d.onBist f).freeCtr = d.freeCtr := rfl
@[simp] theorem Dev.eng_onBist (d : Dev) (f : BistSt → BistSt) : (d.onBist f).eng = d.eng := rfl
@[simp] theorem Dev.cl_onBist (d : Dev) (f : BistSt → BistSt) : (d.onBist f).cl = d.cl := rfl
@[simp] theorem Dev.dram_onBist (d : Dev) (f : BistSt → BistSt) : (d.onBist f).dram = d.dram := rfl
@[simp] theorem Dev.flowS_onBist (d : Dev) (f : BistSt → BistSt) : (d.onBist f).flowS = d.flowS := rfl
@[simp] theorem Dev.cellS_onBist (d : Dev) (f : BistSt → BistSt) : (d.onBist f).cellS = d.cellS := rfl
@[simp] theorem Dev.locS_onBist (d : Dev) (f : BistSt → BistSt) : (d.onBist f).locS = d.locS := rfl
@[simp] theorem Dev.sharedS_onBist (d : Dev) (f : BistSt → BistSt) : (d.onBist f).sharedS = d.sharedS := rfl
@[simp] theorem Dev.ctr_onBist (d : Dev) (f : BistSt → BistSt) : (d.onBist f).ctr = d.ctr := rfl
@[simp] theorem Dev.lane_onBist (d : Dev) (f : BistSt → BistSt) : (d.onBist f).lane = d.lane := rfl
@[simp] theorem Dev.port_onBist (d : Dev) (f : BistSt → BistSt) : (d.onBist f).port = d.port := rfl
@[simp] theorem Dev.oct_onBist (d : Dev) (f : BistSt → BistSt) : (d.onBist f).oct = d.oct := rfl
@[simp] theorem Dev.tl_onBist (d : Dev) (f : BistSt → BistSt) : (d.onBist f).tl = d.tl := rfl
@[simp] theorem Dev.time_onBist (d : Dev) (f : BistSt → BistSt) : (d.onBist f).time = d.time := rfl
@[simp] theorem Dev.loop_onBist (d : Dev) (f : BistSt → BistSt) : (d.onBist f).loop = d.loop := rfl
@[simp] theorem Dev.chain_onBist (d : Dev) (f : BistSt → BistSt) : (d.onBist f).chain = d.chain := rfl
@[simp] theorem Dev.weir_onBist (d : Dev) (f : BistSt → BistSt) : (d.onBist f).weir = d.weir := rfl
@[simp] theorem Dev.fab_onBist (d : Dev) (f : BistSt → BistSt) : (d.onBist f).fab = d.fab := rfl
@[simp] theorem Dev.q_onBist (d : Dev) (f : BistSt → BistSt) : (d.onBist f).q = d.q := rfl
@[simp] theorem Dev.host_onBist (d : Dev) (f : BistSt → BistSt) : (d.onBist f).host = d.host := rfl
@[simp] theorem Dev.mem_onBist (d : Dev) (f : BistSt → BistSt) : (d.onBist f).mem = d.mem := rfl
@[simp] theorem Dev.cnt_onBist (d : Dev) (f : BistSt → BistSt) : (d.onBist f).cnt = d.cnt := rfl
@[simp] theorem Dev.pwr_onBist (d : Dev) (f : BistSt → BistSt) : (d.onBist f).pwr = d.pwr := rfl
@[simp] theorem Dev.thm_onBist (d : Dev) (f : BistSt → BistSt) : (d.onBist f).thm = d.thm := rfl
@[simp] theorem Dev.sec_onBist (d : Dev) (f : BistSt → BistSt) : (d.onBist f).sec = d.sec := rfl
@[simp] theorem Dev.boot_onBist (d : Dev) (f : BistSt → BistSt) : (d.onBist f).boot = d.boot := rfl
@[simp] theorem Dev.up_onBist (d : Dev) (f : BistSt → BistSt) : (d.onBist f).up = d.up := rfl
@[simp] theorem Dev.reads_onBist (d : Dev) (f : BistSt → BistSt) : (d.onBist f).reads = d.reads := rfl
@[simp] theorem Dev.ur_onBist (d : Dev) (f : BistSt → BistSt) : (d.onBist f).ur = d.ur := rfl
@[simp] theorem Dev.pol_onBist (d : Dev) (f : BistSt → BistSt) : (d.onBist f).pol = d.pol := rfl
@[simp] theorem Dev.errLog_onBist (d : Dev) (f : BistSt → BistSt) : (d.onBist f).errLog = d.errLog := rfl
@[simp] theorem Dev.holders_onBist (d : Dev) (f : BistSt → BistSt) : (d.onBist f).holders = d.holders := rfl

/-- The one changed. -/
@[simp] theorem Dev.e_onE_same (d : Dev) (k : Nat) (f : EngSt → EngSt) : (d.onE k f).e k = f (d.e k) := by
  simp [Dev.onE, Dev.e, Dev.setE]

/-- Any other. -/
theorem Dev.e_onE_ne (d : Dev) {k j : Nat} (f : EngSt → EngSt) (h : k ≠ j) : (d.onE k f).e j = d.e j := by
  simp [Dev.onE, Dev.e, Dev.setE, Tbl.get_set_ne _ _ _ _ h]

/-- The one changed. -/
@[simp] theorem Dev.c_onC_same (d : Dev) (k : Nat) (f : ClSt → ClSt) : (d.onC k f).c k = f (d.c k) := by
  simp [Dev.onC, Dev.c]

/-- Any other. -/
theorem Dev.c_onC_ne (d : Dev) {k j : Nat} (f : ClSt → ClSt) (h : k ≠ j) : (d.onC k f).c j = d.c j := by
  simp [Dev.onC, Dev.c, Tbl.get_set_ne _ _ _ _ h]

/-- The one changed. -/
@[simp] theorem Dev.ln_onL_same (d : Dev) (k : Nat) (f : LaneSt → LaneSt) : (d.onL k f).ln k = f (d.ln k) := by
  simp [Dev.onL, Dev.ln]

/-- Any other. -/
theorem Dev.ln_onL_ne (d : Dev) {k j : Nat} (f : LaneSt → LaneSt) (h : k ≠ j) : (d.onL k f).ln j = d.ln j := by
  simp [Dev.onL, Dev.ln, Tbl.get_set_ne _ _ _ _ h]

/-- The one changed. -/
@[simp] theorem Dev.oc_onO_same (d : Dev) (k : Nat) (f : OctSt → OctSt) : (d.onO k f).oc k = f (d.oc k) := by
  simp [Dev.onO, Dev.oc]

/-- Any other. -/
theorem Dev.oc_onO_ne (d : Dev) {k j : Nat} (f : OctSt → OctSt) (h : k ≠ j) : (d.onO k f).oc j = d.oc j := by
  simp [Dev.onO, Dev.oc, Tbl.get_set_ne _ _ _ _ h]

/-- The one changed. -/
@[simp] theorem Dev.t_onT_same (d : Dev) (k : Nat) (f : TlSt → TlSt) : (d.onT k f).t k = f (d.t k) := by
  simp [Dev.onT, Dev.t]

/-- Any other. -/
theorem Dev.t_onT_ne (d : Dev) {k j : Nat} (f : TlSt → TlSt) (h : k ≠ j) : (d.onT k f).t j = d.t j := by
  simp [Dev.onT, Dev.t, Tbl.get_set_ne _ _ _ _ h]

/-- The one changed. -/
@[simp] theorem Dev.w_onW_same (d : Dev) (k : Nat) (f : WeirSt → WeirSt) : (d.onW k f).w k = f (d.w k) := by
  simp [Dev.onW, Dev.w]

/-- Any other. -/
theorem Dev.w_onW_ne (d : Dev) {k j : Nat} (f : WeirSt → WeirSt) (h : k ≠ j) : (d.onW k f).w j = d.w j := by
  simp [Dev.onW, Dev.w, Tbl.get_set_ne _ _ _ _ h]

/-- The one changed. -/
@[simp] theorem Dev.p_onP_same (d : Dev) (k : Nat) (f : PolSt → PolSt) : (d.onP k f).p k = f (d.p k) := by
  simp [Dev.onP, Dev.p]

/-- Any other. -/
theorem Dev.p_onP_ne (d : Dev) {k j : Nat} (f : PolSt → PolSt) (h : k ≠ j) : (d.onP k f).p j = d.p j := by
  simp [Dev.onP, Dev.p, Tbl.get_set_ne _ _ _ _ h]

/-- The one changed. -/
@[simp] theorem Dev.qp_onQ_same (d : Dev) (k : Nat) (f : QSt → QSt) : (d.onQ k f).qp k = f (d.qp k) := by
  simp [Dev.onQ, Dev.qp]

/-- Any other. -/
theorem Dev.qp_onQ_ne (d : Dev) {k j : Nat} (f : QSt → QSt) (h : k ≠ j) : (d.onQ k f).qp j = d.qp j := by
  simp [Dev.onQ, Dev.qp, Tbl.get_set_ne _ _ _ _ h]

@[simp] theorem Dev.reg_bump (d : Dev) (n k : Nat) (a : Nat) : (d.bump n k).reg a = d.reg a := rfl
@[simp] theorem Dev.get_bump (d : Dev) (n k : Nat) (fl : Fld) : (d.bump n k).get fl = d.get fl := rfl
@[simp] theorem Dev.reg_onE (d : Dev) (e : Nat) (f : EngSt → EngSt) (a : Nat) : (d.onE e f).reg a = d.reg a := rfl
@[simp] theorem Dev.get_onE (d : Dev) (e : Nat) (f : EngSt → EngSt) (fl : Fld) : (d.onE e f).get fl = d.get fl := rfl
@[simp] theorem Dev.reg_onC (d : Dev) (c : Nat) (f : ClSt → ClSt) (a : Nat) : (d.onC c f).reg a = d.reg a := rfl
@[simp] theorem Dev.get_onC (d : Dev) (c : Nat) (f : ClSt → ClSt) (fl : Fld) : (d.onC c f).get fl = d.get fl := rfl
@[simp] theorem Dev.reg_onL (d : Dev) (g : Nat) (f : LaneSt → LaneSt) (a : Nat) : (d.onL g f).reg a = d.reg a := rfl
@[simp] theorem Dev.get_onL (d : Dev) (g : Nat) (f : LaneSt → LaneSt) (fl : Fld) : (d.onL g f).get fl = d.get fl := rfl
@[simp] theorem Dev.reg_onPt (d : Dev) (o p : Nat) (f : PortSt → PortSt) (a : Nat) : (d.onPt o p f).reg a = d.reg a := rfl
@[simp] theorem Dev.get_onPt (d : Dev) (o p : Nat) (f : PortSt → PortSt) (fl : Fld) : (d.onPt o p f).get fl = d.get fl := rfl
@[simp] theorem Dev.reg_onO (d : Dev) (o : Nat) (f : OctSt → OctSt) (a : Nat) : (d.onO o f).reg a = d.reg a := rfl
@[simp] theorem Dev.get_onO (d : Dev) (o : Nat) (f : OctSt → OctSt) (fl : Fld) : (d.onO o f).get fl = d.get fl := rfl
@[simp] theorem Dev.reg_onT (d : Dev) (o : Nat) (f : TlSt → TlSt) (a : Nat) : (d.onT o f).reg a = d.reg a := rfl
@[simp] theorem Dev.get_onT (d : Dev) (o : Nat) (f : TlSt → TlSt) (fl : Fld) : (d.onT o f).get fl = d.get fl := rfl
@[simp] theorem Dev.reg_onW (d : Dev) (o : Nat) (f : WeirSt → WeirSt) (a : Nat) : (d.onW o f).reg a = d.reg a := rfl
@[simp] theorem Dev.get_onW (d : Dev) (o : Nat) (f : WeirSt → WeirSt) (fl : Fld) : (d.onW o f).get fl = d.get fl := rfl
@[simp] theorem Dev.reg_onP (d : Dev) (p : Nat) (f : PolSt → PolSt) (a : Nat) : (d.onP p f).reg a = d.reg a := rfl
@[simp] theorem Dev.get_onP (d : Dev) (p : Nat) (f : PolSt → PolSt) (fl : Fld) : (d.onP p f).get fl = d.get fl := rfl
@[simp] theorem Dev.reg_onF (d : Dev) (f : FabSt → FabSt) (a : Nat) : (d.onF f).reg a = d.reg a := rfl
@[simp] theorem Dev.get_onF (d : Dev) (f : FabSt → FabSt) (fl : Fld) : (d.onF f).get fl = d.get fl := rfl
@[simp] theorem Dev.reg_onMem (d : Dev) (f : MemSt → MemSt) (a : Nat) : (d.onMem f).reg a = d.reg a := rfl
@[simp] theorem Dev.get_onMem (d : Dev) (f : MemSt → MemSt) (fl : Fld) : (d.onMem f).get fl = d.get fl := rfl
@[simp] theorem Dev.reg_onPwr (d : Dev) (f : PwrSt → PwrSt) (a : Nat) : (d.onPwr f).reg a = d.reg a := rfl
@[simp] theorem Dev.get_onPwr (d : Dev) (f : PwrSt → PwrSt) (fl : Fld) : (d.onPwr f).get fl = d.get fl := rfl
@[simp] theorem Dev.reg_onThm (d : Dev) (f : ThmSt → ThmSt) (a : Nat) : (d.onThm f).reg a = d.reg a := rfl
@[simp] theorem Dev.get_onThm (d : Dev) (f : ThmSt → ThmSt) (fl : Fld) : (d.onThm f).get fl = d.get fl := rfl
@[simp] theorem Dev.reg_onSec (d : Dev) (f : SecSt → SecSt) (a : Nat) : (d.onSec f).reg a = d.reg a := rfl
@[simp] theorem Dev.get_onSec (d : Dev) (f : SecSt → SecSt) (fl : Fld) : (d.onSec f).get fl = d.get fl := rfl
@[simp] theorem Dev.reg_onHost (d : Dev) (f : HostSt → HostSt) (a : Nat) : (d.onHost f).reg a = d.reg a := rfl
@[simp] theorem Dev.get_onHost (d : Dev) (f : HostSt → HostSt) (fl : Fld) : (d.onHost f).get fl = d.get fl := rfl
@[simp] theorem Dev.reg_onQ (d : Dev) (q : Nat) (f : QSt → QSt) (a : Nat) : (d.onQ q f).reg a = d.reg a := rfl
@[simp] theorem Dev.get_onQ (d : Dev) (q : Nat) (f : QSt → QSt) (fl : Fld) : (d.onQ q f).get fl = d.get fl := rfl
@[simp] theorem Dev.reg_respond (d : Dev) (src : Src) (v : Nat) (a : Nat) : (d.respond src v).reg a = d.reg a := rfl
@[simp] theorem Dev.get_respond (d : Dev) (src : Src) (v : Nat) (fl : Fld) : (d.respond src v).get fl = d.get fl := rfl
@[simp] theorem Dev.reg_unsupported (d : Dev) (src : Src) (a : Nat) : (d.unsupported src).reg a = d.reg a := rfl
@[simp] theorem Dev.get_unsupported (d : Dev) (src : Src) (fl : Fld) : (d.unsupported src).get fl = d.get fl := rfl
@[simp] theorem Dev.reg_onLp (d : Dev) (o j : Nat) (f : LoopSt → LoopSt) (a : Nat) : (d.onLp o j f).reg a = d.reg a := rfl
@[simp] theorem Dev.get_onLp (d : Dev) (o j : Nat) (f : LoopSt → LoopSt) (fl : Fld) : (d.onLp o j f).get fl = d.get fl := rfl
@[simp] theorem Dev.reg_onCh (d : Dev) (o i : Nat) (f : ChainSt → ChainSt) (a : Nat) : (d.onCh o i f).reg a = d.reg a := rfl
@[simp] theorem Dev.get_onCh (d : Dev) (o i : Nat) (f : ChainSt → ChainSt) (fl : Fld) : (d.onCh o i f).get fl = d.get fl := rfl
@[simp] theorem Dev.reg_onCnt (d : Dev) (f : CtrSt → CtrSt) (a : Nat) : (d.onCnt f).reg a = d.reg a := rfl
@[simp] theorem Dev.get_onCnt (d : Dev) (f : CtrSt → CtrSt) (fl : Fld) : (d.onCnt f).get fl = d.get fl := rfl
@[simp] theorem Dev.reg_onBist (d : Dev) (f : BistSt → BistSt) (a : Nat) : (d.onBist f).reg a = d.reg a := rfl
@[simp] theorem Dev.get_onBist (d : Dev) (f : BistSt → BistSt) (fl : Fld) : (d.onBist f).get fl = d.get fl := rfl
@[simp] theorem Dev.e_setReg (d : Dev) (a v : Nat) (x : Nat) : (d.setReg a v).e x = d.e x := rfl
@[simp] theorem Dev.e_set (d : Dev) (f : Fld) (v : Nat) (x : Nat) : (d.set f v).e x = d.e x := rfl
@[simp] theorem Dev.e_flag (d : Dev) (f : Fld) (b : Bool) (x : Nat) : (d.flag f b).e x = d.e x := rfl
@[simp] theorem Dev.e_setI (d : Dev) (f : Fld) (i : Int) (x : Nat) : (d.setI f i).e x = d.e x := rfl
@[simp] theorem Dev.e_inc (d : Dev) (f : Fld) (n : Nat) (x : Nat) : (d.inc f n).e x = d.e x := rfl
@[simp] theorem Dev.e_orF (d : Dev) (f : Fld) (m : Nat) (x : Nat) : (d.orF f m).e x = d.e x := rfl
@[simp] theorem Dev.e_bump (d : Dev) (n k : Nat) (x : Nat) : (d.bump n k).e x = d.e x := rfl
@[simp] theorem Dev.e_onC (d : Dev) (c : Nat) (f : ClSt → ClSt) (x : Nat) : (d.onC c f).e x = d.e x := rfl
@[simp] theorem Dev.e_onL (d : Dev) (g : Nat) (f : LaneSt → LaneSt) (x : Nat) : (d.onL g f).e x = d.e x := rfl
@[simp] theorem Dev.e_onPt (d : Dev) (o p : Nat) (f : PortSt → PortSt) (x : Nat) : (d.onPt o p f).e x = d.e x := rfl
@[simp] theorem Dev.e_onO (d : Dev) (o : Nat) (f : OctSt → OctSt) (x : Nat) : (d.onO o f).e x = d.e x := rfl
@[simp] theorem Dev.e_onT (d : Dev) (o : Nat) (f : TlSt → TlSt) (x : Nat) : (d.onT o f).e x = d.e x := rfl
@[simp] theorem Dev.e_onW (d : Dev) (o : Nat) (f : WeirSt → WeirSt) (x : Nat) : (d.onW o f).e x = d.e x := rfl
@[simp] theorem Dev.e_onP (d : Dev) (p : Nat) (f : PolSt → PolSt) (x : Nat) : (d.onP p f).e x = d.e x := rfl
@[simp] theorem Dev.e_onF (d : Dev) (f : FabSt → FabSt) (x : Nat) : (d.onF f).e x = d.e x := rfl
@[simp] theorem Dev.e_onMem (d : Dev) (f : MemSt → MemSt) (x : Nat) : (d.onMem f).e x = d.e x := rfl
@[simp] theorem Dev.e_onPwr (d : Dev) (f : PwrSt → PwrSt) (x : Nat) : (d.onPwr f).e x = d.e x := rfl
@[simp] theorem Dev.e_onThm (d : Dev) (f : ThmSt → ThmSt) (x : Nat) : (d.onThm f).e x = d.e x := rfl
@[simp] theorem Dev.e_onSec (d : Dev) (f : SecSt → SecSt) (x : Nat) : (d.onSec f).e x = d.e x := rfl
@[simp] theorem Dev.e_onHost (d : Dev) (f : HostSt → HostSt) (x : Nat) : (d.onHost f).e x = d.e x := rfl
@[simp] theorem Dev.e_onQ (d : Dev) (q : Nat) (f : QSt → QSt) (x : Nat) : (d.onQ q f).e x = d.e x := rfl
@[simp] theorem Dev.e_respond (d : Dev) (src : Src) (v : Nat) (x : Nat) : (d.respond src v).e x = d.e x := rfl
@[simp] theorem Dev.e_unsupported (d : Dev) (src : Src) (x : Nat) : (d.unsupported src).e x = d.e x := rfl
@[simp] theorem Dev.e_onLp (d : Dev) (o j : Nat) (f : LoopSt → LoopSt) (x : Nat) : (d.onLp o j f).e x = d.e x := rfl
@[simp] theorem Dev.e_onCh (d : Dev) (o i : Nat) (f : ChainSt → ChainSt) (x : Nat) : (d.onCh o i f).e x = d.e x := rfl
@[simp] theorem Dev.e_onCnt (d : Dev) (f : CtrSt → CtrSt) (x : Nat) : (d.onCnt f).e x = d.e x := rfl
@[simp] theorem Dev.e_onBist (d : Dev) (f : BistSt → BistSt) (x : Nat) : (d.onBist f).e x = d.e x := rfl
@[simp] theorem Dev.c_setReg (d : Dev) (a v : Nat) (x : Nat) : (d.setReg a v).c x = d.c x := rfl
@[simp] theorem Dev.c_set (d : Dev) (f : Fld) (v : Nat) (x : Nat) : (d.set f v).c x = d.c x := rfl
@[simp] theorem Dev.c_flag (d : Dev) (f : Fld) (b : Bool) (x : Nat) : (d.flag f b).c x = d.c x := rfl
@[simp] theorem Dev.c_setI (d : Dev) (f : Fld) (i : Int) (x : Nat) : (d.setI f i).c x = d.c x := rfl
@[simp] theorem Dev.c_inc (d : Dev) (f : Fld) (n : Nat) (x : Nat) : (d.inc f n).c x = d.c x := rfl
@[simp] theorem Dev.c_orF (d : Dev) (f : Fld) (m : Nat) (x : Nat) : (d.orF f m).c x = d.c x := rfl
@[simp] theorem Dev.c_bump (d : Dev) (n k : Nat) (x : Nat) : (d.bump n k).c x = d.c x := rfl
@[simp] theorem Dev.c_onE (d : Dev) (e : Nat) (f : EngSt → EngSt) (x : Nat) : (d.onE e f).c x = d.c x := rfl
@[simp] theorem Dev.c_onL (d : Dev) (g : Nat) (f : LaneSt → LaneSt) (x : Nat) : (d.onL g f).c x = d.c x := rfl
@[simp] theorem Dev.c_onPt (d : Dev) (o p : Nat) (f : PortSt → PortSt) (x : Nat) : (d.onPt o p f).c x = d.c x := rfl
@[simp] theorem Dev.c_onO (d : Dev) (o : Nat) (f : OctSt → OctSt) (x : Nat) : (d.onO o f).c x = d.c x := rfl
@[simp] theorem Dev.c_onT (d : Dev) (o : Nat) (f : TlSt → TlSt) (x : Nat) : (d.onT o f).c x = d.c x := rfl
@[simp] theorem Dev.c_onW (d : Dev) (o : Nat) (f : WeirSt → WeirSt) (x : Nat) : (d.onW o f).c x = d.c x := rfl
@[simp] theorem Dev.c_onP (d : Dev) (p : Nat) (f : PolSt → PolSt) (x : Nat) : (d.onP p f).c x = d.c x := rfl
@[simp] theorem Dev.c_onF (d : Dev) (f : FabSt → FabSt) (x : Nat) : (d.onF f).c x = d.c x := rfl
@[simp] theorem Dev.c_onMem (d : Dev) (f : MemSt → MemSt) (x : Nat) : (d.onMem f).c x = d.c x := rfl
@[simp] theorem Dev.c_onPwr (d : Dev) (f : PwrSt → PwrSt) (x : Nat) : (d.onPwr f).c x = d.c x := rfl
@[simp] theorem Dev.c_onThm (d : Dev) (f : ThmSt → ThmSt) (x : Nat) : (d.onThm f).c x = d.c x := rfl
@[simp] theorem Dev.c_onSec (d : Dev) (f : SecSt → SecSt) (x : Nat) : (d.onSec f).c x = d.c x := rfl
@[simp] theorem Dev.c_onHost (d : Dev) (f : HostSt → HostSt) (x : Nat) : (d.onHost f).c x = d.c x := rfl
@[simp] theorem Dev.c_onQ (d : Dev) (q : Nat) (f : QSt → QSt) (x : Nat) : (d.onQ q f).c x = d.c x := rfl
@[simp] theorem Dev.c_respond (d : Dev) (src : Src) (v : Nat) (x : Nat) : (d.respond src v).c x = d.c x := rfl
@[simp] theorem Dev.c_unsupported (d : Dev) (src : Src) (x : Nat) : (d.unsupported src).c x = d.c x := rfl
@[simp] theorem Dev.c_onLp (d : Dev) (o j : Nat) (f : LoopSt → LoopSt) (x : Nat) : (d.onLp o j f).c x = d.c x := rfl
@[simp] theorem Dev.c_onCh (d : Dev) (o i : Nat) (f : ChainSt → ChainSt) (x : Nat) : (d.onCh o i f).c x = d.c x := rfl
@[simp] theorem Dev.c_onCnt (d : Dev) (f : CtrSt → CtrSt) (x : Nat) : (d.onCnt f).c x = d.c x := rfl
@[simp] theorem Dev.c_onBist (d : Dev) (f : BistSt → BistSt) (x : Nat) : (d.onBist f).c x = d.c x := rfl
@[simp] theorem Dev.count_setReg (d : Dev) (a v : Nat) (x : Nat) : (d.setReg a v).count x = d.count x := rfl
@[simp] theorem Dev.count_set (d : Dev) (f : Fld) (v : Nat) (x : Nat) : (d.set f v).count x = d.count x := rfl
@[simp] theorem Dev.count_flag (d : Dev) (f : Fld) (b : Bool) (x : Nat) : (d.flag f b).count x = d.count x := rfl
@[simp] theorem Dev.count_setI (d : Dev) (f : Fld) (i : Int) (x : Nat) : (d.setI f i).count x = d.count x := rfl
@[simp] theorem Dev.count_inc (d : Dev) (f : Fld) (n : Nat) (x : Nat) : (d.inc f n).count x = d.count x := rfl
@[simp] theorem Dev.count_orF (d : Dev) (f : Fld) (m : Nat) (x : Nat) : (d.orF f m).count x = d.count x := rfl
@[simp] theorem Dev.count_onE (d : Dev) (e : Nat) (f : EngSt → EngSt) (x : Nat) : (d.onE e f).count x = d.count x := rfl
@[simp] theorem Dev.count_onC (d : Dev) (c : Nat) (f : ClSt → ClSt) (x : Nat) : (d.onC c f).count x = d.count x := rfl
@[simp] theorem Dev.count_onL (d : Dev) (g : Nat) (f : LaneSt → LaneSt) (x : Nat) : (d.onL g f).count x = d.count x := rfl
@[simp] theorem Dev.count_onPt (d : Dev) (o p : Nat) (f : PortSt → PortSt) (x : Nat) : (d.onPt o p f).count x = d.count x := rfl
@[simp] theorem Dev.count_onO (d : Dev) (o : Nat) (f : OctSt → OctSt) (x : Nat) : (d.onO o f).count x = d.count x := rfl
@[simp] theorem Dev.count_onT (d : Dev) (o : Nat) (f : TlSt → TlSt) (x : Nat) : (d.onT o f).count x = d.count x := rfl
@[simp] theorem Dev.count_onW (d : Dev) (o : Nat) (f : WeirSt → WeirSt) (x : Nat) : (d.onW o f).count x = d.count x := rfl
@[simp] theorem Dev.count_onP (d : Dev) (p : Nat) (f : PolSt → PolSt) (x : Nat) : (d.onP p f).count x = d.count x := rfl
@[simp] theorem Dev.count_onF (d : Dev) (f : FabSt → FabSt) (x : Nat) : (d.onF f).count x = d.count x := rfl
@[simp] theorem Dev.count_onMem (d : Dev) (f : MemSt → MemSt) (x : Nat) : (d.onMem f).count x = d.count x := rfl
@[simp] theorem Dev.count_onPwr (d : Dev) (f : PwrSt → PwrSt) (x : Nat) : (d.onPwr f).count x = d.count x := rfl
@[simp] theorem Dev.count_onThm (d : Dev) (f : ThmSt → ThmSt) (x : Nat) : (d.onThm f).count x = d.count x := rfl
@[simp] theorem Dev.count_onSec (d : Dev) (f : SecSt → SecSt) (x : Nat) : (d.onSec f).count x = d.count x := rfl
@[simp] theorem Dev.count_onHost (d : Dev) (f : HostSt → HostSt) (x : Nat) : (d.onHost f).count x = d.count x := rfl
@[simp] theorem Dev.count_onQ (d : Dev) (q : Nat) (f : QSt → QSt) (x : Nat) : (d.onQ q f).count x = d.count x := rfl
@[simp] theorem Dev.count_respond (d : Dev) (src : Src) (v : Nat) (x : Nat) : (d.respond src v).count x = d.count x := rfl
@[simp] theorem Dev.count_unsupported (d : Dev) (src : Src) (x : Nat) : (d.unsupported src).count x = d.count x := rfl
@[simp] theorem Dev.count_onLp (d : Dev) (o j : Nat) (f : LoopSt → LoopSt) (x : Nat) : (d.onLp o j f).count x = d.count x := rfl
@[simp] theorem Dev.count_onCh (d : Dev) (o i : Nat) (f : ChainSt → ChainSt) (x : Nat) : (d.onCh o i f).count x = d.count x := rfl
@[simp] theorem Dev.count_onCnt (d : Dev) (f : CtrSt → CtrSt) (x : Nat) : (d.onCnt f).count x = d.count x := rfl
@[simp] theorem Dev.count_onBist (d : Dev) (f : BistSt → BistSt) (x : Nat) : (d.onBist f).count x = d.count x := rfl
@[simp] theorem Dev.p_setReg (d : Dev) (a v : Nat) (x : Nat) : (d.setReg a v).p x = d.p x := rfl
@[simp] theorem Dev.p_set (d : Dev) (f : Fld) (v : Nat) (x : Nat) : (d.set f v).p x = d.p x := rfl
@[simp] theorem Dev.p_flag (d : Dev) (f : Fld) (b : Bool) (x : Nat) : (d.flag f b).p x = d.p x := rfl
@[simp] theorem Dev.p_setI (d : Dev) (f : Fld) (i : Int) (x : Nat) : (d.setI f i).p x = d.p x := rfl
@[simp] theorem Dev.p_inc (d : Dev) (f : Fld) (n : Nat) (x : Nat) : (d.inc f n).p x = d.p x := rfl
@[simp] theorem Dev.p_orF (d : Dev) (f : Fld) (m : Nat) (x : Nat) : (d.orF f m).p x = d.p x := rfl
@[simp] theorem Dev.p_bump (d : Dev) (n k : Nat) (x : Nat) : (d.bump n k).p x = d.p x := rfl
@[simp] theorem Dev.p_onE (d : Dev) (e : Nat) (f : EngSt → EngSt) (x : Nat) : (d.onE e f).p x = d.p x := rfl
@[simp] theorem Dev.p_onC (d : Dev) (c : Nat) (f : ClSt → ClSt) (x : Nat) : (d.onC c f).p x = d.p x := rfl
@[simp] theorem Dev.p_onL (d : Dev) (g : Nat) (f : LaneSt → LaneSt) (x : Nat) : (d.onL g f).p x = d.p x := rfl
@[simp] theorem Dev.p_onPt (d : Dev) (o p : Nat) (f : PortSt → PortSt) (x : Nat) : (d.onPt o p f).p x = d.p x := rfl
@[simp] theorem Dev.p_onO (d : Dev) (o : Nat) (f : OctSt → OctSt) (x : Nat) : (d.onO o f).p x = d.p x := rfl
@[simp] theorem Dev.p_onT (d : Dev) (o : Nat) (f : TlSt → TlSt) (x : Nat) : (d.onT o f).p x = d.p x := rfl
@[simp] theorem Dev.p_onW (d : Dev) (o : Nat) (f : WeirSt → WeirSt) (x : Nat) : (d.onW o f).p x = d.p x := rfl
@[simp] theorem Dev.p_onF (d : Dev) (f : FabSt → FabSt) (x : Nat) : (d.onF f).p x = d.p x := rfl
@[simp] theorem Dev.p_onMem (d : Dev) (f : MemSt → MemSt) (x : Nat) : (d.onMem f).p x = d.p x := rfl
@[simp] theorem Dev.p_onPwr (d : Dev) (f : PwrSt → PwrSt) (x : Nat) : (d.onPwr f).p x = d.p x := rfl
@[simp] theorem Dev.p_onThm (d : Dev) (f : ThmSt → ThmSt) (x : Nat) : (d.onThm f).p x = d.p x := rfl
@[simp] theorem Dev.p_onSec (d : Dev) (f : SecSt → SecSt) (x : Nat) : (d.onSec f).p x = d.p x := rfl
@[simp] theorem Dev.p_onHost (d : Dev) (f : HostSt → HostSt) (x : Nat) : (d.onHost f).p x = d.p x := rfl
@[simp] theorem Dev.p_onQ (d : Dev) (q : Nat) (f : QSt → QSt) (x : Nat) : (d.onQ q f).p x = d.p x := rfl
@[simp] theorem Dev.p_respond (d : Dev) (src : Src) (v : Nat) (x : Nat) : (d.respond src v).p x = d.p x := rfl
@[simp] theorem Dev.p_unsupported (d : Dev) (src : Src) (x : Nat) : (d.unsupported src).p x = d.p x := rfl
@[simp] theorem Dev.p_onLp (d : Dev) (o j : Nat) (f : LoopSt → LoopSt) (x : Nat) : (d.onLp o j f).p x = d.p x := rfl
@[simp] theorem Dev.p_onCh (d : Dev) (o i : Nat) (f : ChainSt → ChainSt) (x : Nat) : (d.onCh o i f).p x = d.p x := rfl
@[simp] theorem Dev.p_onCnt (d : Dev) (f : CtrSt → CtrSt) (x : Nat) : (d.onCnt f).p x = d.p x := rfl
@[simp] theorem Dev.p_onBist (d : Dev) (f : BistSt → BistSt) (x : Nat) : (d.onBist f).p x = d.p x := rfl
@[simp] theorem Dev.ln_setReg (d : Dev) (a v : Nat) (x : Nat) : (d.setReg a v).ln x = d.ln x := rfl
@[simp] theorem Dev.ln_set (d : Dev) (f : Fld) (v : Nat) (x : Nat) : (d.set f v).ln x = d.ln x := rfl
@[simp] theorem Dev.ln_flag (d : Dev) (f : Fld) (b : Bool) (x : Nat) : (d.flag f b).ln x = d.ln x := rfl
@[simp] theorem Dev.ln_setI (d : Dev) (f : Fld) (i : Int) (x : Nat) : (d.setI f i).ln x = d.ln x := rfl
@[simp] theorem Dev.ln_inc (d : Dev) (f : Fld) (n : Nat) (x : Nat) : (d.inc f n).ln x = d.ln x := rfl
@[simp] theorem Dev.ln_orF (d : Dev) (f : Fld) (m : Nat) (x : Nat) : (d.orF f m).ln x = d.ln x := rfl
@[simp] theorem Dev.ln_bump (d : Dev) (n k : Nat) (x : Nat) : (d.bump n k).ln x = d.ln x := rfl
@[simp] theorem Dev.ln_onE (d : Dev) (e : Nat) (f : EngSt → EngSt) (x : Nat) : (d.onE e f).ln x = d.ln x := rfl
@[simp] theorem Dev.ln_onC (d : Dev) (c : Nat) (f : ClSt → ClSt) (x : Nat) : (d.onC c f).ln x = d.ln x := rfl
@[simp] theorem Dev.ln_onPt (d : Dev) (o p : Nat) (f : PortSt → PortSt) (x : Nat) : (d.onPt o p f).ln x = d.ln x := rfl
@[simp] theorem Dev.ln_onO (d : Dev) (o : Nat) (f : OctSt → OctSt) (x : Nat) : (d.onO o f).ln x = d.ln x := rfl
@[simp] theorem Dev.ln_onT (d : Dev) (o : Nat) (f : TlSt → TlSt) (x : Nat) : (d.onT o f).ln x = d.ln x := rfl
@[simp] theorem Dev.ln_onW (d : Dev) (o : Nat) (f : WeirSt → WeirSt) (x : Nat) : (d.onW o f).ln x = d.ln x := rfl
@[simp] theorem Dev.ln_onP (d : Dev) (p : Nat) (f : PolSt → PolSt) (x : Nat) : (d.onP p f).ln x = d.ln x := rfl
@[simp] theorem Dev.ln_onF (d : Dev) (f : FabSt → FabSt) (x : Nat) : (d.onF f).ln x = d.ln x := rfl
@[simp] theorem Dev.ln_onMem (d : Dev) (f : MemSt → MemSt) (x : Nat) : (d.onMem f).ln x = d.ln x := rfl
@[simp] theorem Dev.ln_onPwr (d : Dev) (f : PwrSt → PwrSt) (x : Nat) : (d.onPwr f).ln x = d.ln x := rfl
@[simp] theorem Dev.ln_onThm (d : Dev) (f : ThmSt → ThmSt) (x : Nat) : (d.onThm f).ln x = d.ln x := rfl
@[simp] theorem Dev.ln_onSec (d : Dev) (f : SecSt → SecSt) (x : Nat) : (d.onSec f).ln x = d.ln x := rfl
@[simp] theorem Dev.ln_onHost (d : Dev) (f : HostSt → HostSt) (x : Nat) : (d.onHost f).ln x = d.ln x := rfl
@[simp] theorem Dev.ln_onQ (d : Dev) (q : Nat) (f : QSt → QSt) (x : Nat) : (d.onQ q f).ln x = d.ln x := rfl
@[simp] theorem Dev.ln_respond (d : Dev) (src : Src) (v : Nat) (x : Nat) : (d.respond src v).ln x = d.ln x := rfl
@[simp] theorem Dev.ln_unsupported (d : Dev) (src : Src) (x : Nat) : (d.unsupported src).ln x = d.ln x := rfl
@[simp] theorem Dev.ln_onLp (d : Dev) (o j : Nat) (f : LoopSt → LoopSt) (x : Nat) : (d.onLp o j f).ln x = d.ln x := rfl
@[simp] theorem Dev.ln_onCh (d : Dev) (o i : Nat) (f : ChainSt → ChainSt) (x : Nat) : (d.onCh o i f).ln x = d.ln x := rfl
@[simp] theorem Dev.ln_onCnt (d : Dev) (f : CtrSt → CtrSt) (x : Nat) : (d.onCnt f).ln x = d.ln x := rfl
@[simp] theorem Dev.ln_onBist (d : Dev) (f : BistSt → BistSt) (x : Nat) : (d.onBist f).ln x = d.ln x := rfl

/-! The outcome of a command. -/

/-- A command on the part answers its effect; fuses, NV store and queue stay. -/
@[simp] theorem State.on_eq (s : State) (f : Dev → Dev) : s.on f = .next { s with dev := f s.dev } := rfl

/-- A command on the part and the fuses answers its effect; the queue stays. -/
theorem State.onV_eq (s : State) (f : Dev → Vault → Dev × Vault) :
    s.onV f = .next { s with dev := (f s.dev s.vault).1, vault := (f s.dev s.vault).2 } := rfl

end Sys2Proof.Machine
end

