-- ==== Sys2Proof/Laws/Store.lean ====
section
/-! SUPPORT. The byte stores: a read after a write, and that every memory operation keeps the canonical form. -/

namespace Sys2Proof.Machine

@[simp] theorem Store.byte_setByte_same (s : Store) (a : Nat) (b : Byte) : (s.setByte a b).byte a = b := by
  simp [Store.byte, Store.setByte]

theorem Store.byte_setByte_ne (s : Store) {a c : Nat} (b : Byte) (h : a ≠ c) : (s.setByte a b).byte c = s.byte c := by
  simp [Store.byte, Store.setByte, Tbl.get_set_ne _ _ _ _ h]

@[simp] theorem Store.syndrome_setByte (s : Store) (a i : Nat) (b : Byte) : (s.setByte a b).syndrome i = s.syndrome i := rfl

@[simp] theorem Store.byte_setSynd (s : Store) (i a : Nat) (b : Byte) : (s.setSynd i b).byte a = s.byte a := rfl

@[simp] theorem Store.syndrome_setSynd_same (s : Store) (i : Nat) (b : Byte) : (s.setSynd i b).syndrome i = b := by
  simp [Store.syndrome, Store.setSynd]

theorem Store.syndrome_setSynd_ne (s : Store) {i j : Nat} (b : Byte) (h : i ≠ j) : (s.setSynd i b).syndrome j = s.syndrome j := by
  simp [Store.syndrome, Store.setSynd, Tbl.get_set_ne _ _ _ _ h]

@[simp] theorem Store.syndrome_putBytes (l : List Byte) (s : Store) (a i : Nat) : (s.putBytes a l).syndrome i = s.syndrome i := by
  induction l generalizing s a with
  | nil => rfl
  | cons b t ih => simp [Store.putBytes, ih]

/-- A byte outside the written range keeps its value. -/
theorem Store.byte_putBytes_out (l : List Byte) (s : Store) (a c : Nat) (h : c < a ∨ a + l.length ≤ c) :
    (s.putBytes a l).byte c = s.byte c := by
  induction l generalizing s a with
  | nil => rfl
  | cons b t ih =>
    simp only [List.length_cons] at h
    rw [Store.putBytes, ih _ _ (by omega), Store.byte_setByte_ne _ _ (by omega)]

/-- A byte inside the written range is the byte written there. -/
theorem Store.byte_putBytes_in (l : List Byte) (s : Store) (a i : Nat) (h : i < l.length) :
    (s.putBytes a l).byte (a + i) = l[i] := by
  induction l generalizing s a i with
  | nil => simp at h
  | cons b t ih =>
    cases i with
    | zero => rw [Store.putBytes, Store.byte_putBytes_out _ _ _ _ (by omega)]; simp
    | succ i =>
      rw [Store.putBytes, show a + (i + 1) = a + 1 + i by omega, ih _ _ _ (by simpa using h)]
      simp

theorem Store.bytes_putBytes (l : List Byte) (s : Store) (a : Nat) : (s.putBytes a l).bytes a l.length = l := by
  induction l generalizing s a with
  | nil => rfl
  | cons b t ih =>
    simp only [List.length_cons, Store.bytes, Store.putBytes, ih]
    rw [Store.byte_putBytes_out _ _ _ _ (by omega), Store.byte_setByte_same]

/-- A word just written whole. -/
theorem Store.raw_putWord (s : Store) (i v : Nat) : (s.putWord i v).raw i = v % 2 ^ 64 := by
  have h : (s.putWord i v).bytes (8 * i) 8 = (s.putBytes (8 * i) (bytesLE v 8)).bytes (8 * i) 8 := rfl
  have h8 := Store.bytes_putBytes (bytesLE v 8) s (8 * i)
  rw [length_bytesLE] at h8
  rw [Store.raw, h, h8, leNat_bytesLE]
  norm_num

@[simp] theorem Store.syndrome_putWord_same (s : Store) (i v : Nat) : (s.putWord i v).syndrome i = 0 := by
  simp [Store.putWord]

set_option maxRecDepth 20000 in
/-- R283: no column code is 0, so a clean word is corrected nowhere. -/
theorem colCodes_zero : colCodes.findIdx? (· == 0) = none := by decide

/-- R283: a clean word is delivered as stored. -/
theorem corrected_zero (v : Nat) : corrected 0 v = v := by
  unfold corrected
  rw [colCodes_zero]

theorem readingOf_zero : readingOf 0 = .clean := rfl

/-- One read of a word whose syndrome is 0. -/
theorem Store.read_clean (s : Store) (i : Nat) (h : s.syndrome i = 0) : s.read i = (s.raw i, .clean) := by
  have h0 : (0 : Byte).toNat = 0 := rfl
  unfold Store.read
  rw [h, h0, corrected_zero, readingOf_zero]

/-- R284: a full-word write is read back as written and clean. -/
theorem Store.read_putWord (s : Store) (i v : Nat) : (s.putWord i v).read i = (v % 2 ^ 64, .clean) := by
  have h := Store.read_clean (s.putWord i v) i (Store.syndrome_putWord_same s i v)
  rwa [Store.raw_putWord] at h

theorem Store.bytes_congr {s t : Store} (n a : Nat) (h : ∀ i, i < n → s.byte (a + i) = t.byte (a + i)) : s.bytes a n = t.bytes a n := by
  induction n generalizing a with
  | zero => rfl
  | succ n ih =>
    have h0 := h 0 (by omega)
    simp only [Nat.add_zero] at h0
    rw [Store.bytes, Store.bytes, h0, ih]
    intro i hi
    have := h (i + 1) (by omega)
    rwa [show a + (i + 1) = a + 1 + i by omega] at this

/-- Another word is not touched by a write of word i. -/
theorem Store.read_putWord_ne (s : Store) {i j : Nat} (v : Nat) (h : i ≠ j) : (s.putWord i v).read j = s.read j := by
  have hb : (s.putWord i v).bytes (8 * j) 8 = s.bytes (8 * j) 8 := by
    apply Store.bytes_congr
    intro k hk
    rw [Store.putWord, Store.byte_setSynd, Store.byte_putBytes_out]
    rw [length_bytesLE]
    omega
  have hs : (s.putWord i v).syndrome j = s.syndrome j := by
    rw [Store.putWord, Store.syndrome_setSynd_ne _ _ h, Store.syndrome_putBytes]
  simp only [Store.read, Store.raw, hb, hs]

/-! The canonical form. -/

theorem Store.wf_iff (s : Store) : s.wf = true ↔ Memory.wf s.data = true ∧ Memory.wf s.synd = true := by simp [Store.wf]

theorem Store.wf_setByte {s : Store} (h : s.wf = true) (a : Nat) (b : Byte) : (s.setByte a b).wf = true := by
  rw [Store.wf_iff] at h ⊢
  exact ⟨Tbl.wf_set (fun _ => Store.unlisted) h.1 a b, h.2⟩

theorem Store.wf_setSynd {s : Store} (h : s.wf = true) (i : Nat) (b : Byte) : (s.setSynd i b).wf = true := by
  rw [Store.wf_iff] at h ⊢
  exact ⟨h.1, Tbl.wf_set (fun _ => Store.unlisted) h.2 i b⟩

theorem Store.wf_putBytes {s : Store} (h : s.wf = true) (a : Nat) (l : List Byte) : (s.putBytes a l).wf = true := by
  induction l generalizing s a with
  | nil => exact h
  | cons b t ih => exact ih (Store.wf_setByte h a b) (a + 1)

theorem Store.wf_putWord {s : Store} (h : s.wf = true) (i v : Nat) : (s.putWord i v).wf = true :=
  Store.wf_setSynd (Store.wf_putBytes h _ _) i 0

theorem Store.wf_poisonWord {s : Store} (h : s.wf = true) (i v : Nat) : (s.poisonWord i v).wf = true :=
  Store.wf_setSynd (Store.wf_putBytes h _ _) i 0xFF

theorem Store.wf_merge {s : Store} (h : s.wf = true) (i o n v : Nat) : (s.merge i o n v).wf = true := by
  unfold Store.merge
  split
  · split
    all_goals first
      | exact Store.wf_putWord h _ _
      | exact Store.wf_poisonWord h _ _

theorem Store.wf_clear {s : Store} (h : s.wf = true) (lo hi : Nat) : (s.clear lo hi).wf = true := by
  rw [Store.wf_iff] at h ⊢
  exact ⟨Tbl.wf_filter _ _ h.1, Tbl.wf_filter _ _ h.2⟩

/-- The memory of reset lists nothing. -/
theorem Store.wf_empty : ({} : Store).wf = true := rfl

end Sys2Proof.Machine
end

