-- ==== Sys2Proof/Laws/Engine.lean ====
section
/-! SUPPORT. What the shared operations of the engines do: the issue of an instruction, registers, exception entry. -/

namespace Sys2Proof.Machine

@[simp] theorem EngSt.r_zero (x : EngSt) : x.r 0 = 0 := rfl

@[simp] theorem EngSt.w_zero (x : EngSt) (v : DWord) : x.w 0 v = x := rfl

/-- A register just written; g0 keeps reading zero. -/
theorem EngSt.r_w (x : EngSt) (n m : Nat) (v : DWord) : (x.w n v).r m = if n = m ∧ m ≠ 0 then v else x.r m := by
  by_cases hm : m = 0
  · subst hm
    simp
  · by_cases hn : n = 0
    · subst hn
      simp [Ne.symm hm]
    · by_cases h : n = m
      · subst h
        simp [EngSt.r, EngSt.w, hn]
      · simp [EngSt.r, EngSt.w, hn, hm, h, Tbl.get_set_ne _ _ _ _ h]

/-- A read of a clean word of a space: the word as stored, no error, nothing changed. -/
theorem Dev.readWord_clean (d : Dev) (sp : Space) (c e i : Nat) (h : (d.store sp).syndrome (sp.word c e i) = 0) :
    d.readWord sp c e i = ((d.store sp).raw (sp.word c e i), false, d) := by
  simp [Dev.readWord, Store.read_clean _ _ h, Dev.countEcc]

/-- What the issue of an instruction does when the engine can issue: f runs in the engine's next E-cycle, with E_PC at the pc. -/
theorem Dev.issue_eq {d : Dev} {e : Nat} (h : d.canIssue e) (f : Nat → Dev → Dev) :
    d.issue e f = f (d.issueAt e) (d.onE e fun x => { x with lastPc := (d.e e).pc }) := by
  obtain ⟨hr, hw, hd, hp, hc⟩ := h
  unfold Dev.issue
  rw [if_pos ⟨hr, hw⟩, hd]
  dsimp only
  rw [if_neg (by omega)]
  have hs : (d.onE e fun x => { x with lastPc := (d.e e).pc }).store .loc = d.locS := rfl
  rw [Dev.readWord_clean]
  · rfl
  · rw [hs]
    exact hc

/-- Two writes of one engine are the second, where the first is not the reset record. -/
theorem Dev.setE_setE (d : Dev) (e : Nat) {x : EngSt} (y : EngSt) (h : x ≠ EngSt.reset) : (d.setE e x).setE e y = d.setE e y := by
  simp [Dev.setE, Tbl.set_set _ _ _ _ h]

theorem EngSt.ne_reset {x : EngSt} (h : x.st ≠ .halted) : x ≠ EngSt.reset := fun e => h (by rw [e]; rfl)

@[simp] theorem Dev.e_setE_same (d : Dev) (e : Nat) (x : EngSt) : (d.setE e x).e e = x := by simp [Dev.e, Dev.setE]

theorem Dev.e_setE_ne (d : Dev) {e k : Nat} (x : EngSt) (h : e ≠ k) : (d.setE e x).e k = d.e k := by
  simp [Dev.e, Dev.setE, Tbl.get_set_ne _ _ _ _ h]

theorem Dev.onE_eq (d : Dev) (e : Nat) (f : EngSt → EngSt) : d.onE e f = d.setE e (f (d.e e)) := rfl

/-- Two changes of one engine are one, where the first does not leave it HALTED. -/
theorem Dev.onE_onE (d : Dev) (e : Nat) (f g : EngSt → EngSt) (h : (f (d.e e)).st ≠ .halted) :
    (d.onE e f).onE e g = d.setE e (g (f (d.e e))) := by
  rw [Dev.onE_eq, Dev.onE_eq, Dev.e_setE_same, Dev.setE_setE _ _ _ (EngSt.ne_reset h)]

@[simp] theorem EngSt.st_w (x : EngSt) (n : Nat) (v : DWord) : (x.w n v).st = x.st := by
  unfold EngSt.w
  split <;> rfl

/-- An instruction that writes one register: what it does to the part when the engine can issue. -/
theorem Dev.compute_eq {d : Dev} {e : Nat} (h : d.canIssue e) (gd n : Nat) (v : EngSt → DWord) :
    d.compute e gd n v = d.setE e (((({ d.e e with lastPc := (d.e e).pc } : EngSt).w gd (v { d.e e with lastPc := (d.e e).pc })).next
      (d.issueAt e) n)) := by
  unfold Dev.compute
  rw [Dev.issue_eq h, Dev.onE_onE]
  simp [h.1]

/-- R210 to R212: an exception of a running or waiting engine with EXL = 0: the entry, and nothing else. -/
theorem Dev.except_eq (d : Dev) (e vec det : Nat) (epc ev : DWord) (start : Nat) (h : (d.e e).st ≠ .halted) (hx : (d.e e).exl = false) :
    d.except e vec det epc ev start = d.entry e ((d.e e).entered vec det epc ev start) := by
  unfold Dev.except
  dsimp only
  have h1 : ((d.bump (Ctr.cluster (e / 8) 8)).e e) = d.e e := rfl
  have h2 : ((d.bump (Ctr.cluster (e / 8) 8)).onE e fun x => { x with lastVec := vec, lastDet := det, lastEval := ev }).e e =
      { d.e e with lastVec := vec, lastDet := det, lastEval := ev } := by rw [Dev.onE_eq, Dev.e_setE_same, h1]
  rw [if_neg (by rw [h2]; simp [hx]), Dev.onE_onE _ _ _ _ (by rw [h1]; exact h)]
  rfl

end Sys2Proof.Machine
end

