-- ==== Sys2Proof/Laws/Ops.lean ====
section
/-! SUPPORT. What the shared operations that stand before a command's own effect can do: events of a polder, gated register accesses, and
requests served by their target. -/

namespace Sys2Proof.Machine

/-- R306, R370: an event takes place in a polder that works. -/
theorem Dev.live_of_awake {d : Dev} {p : Nat} (h : d.awake p = true) (f : Dev → Dev) : d.live p f = f d := by simp [Dev.live, h]

/-- R306, R370: and in no other. -/
theorem Dev.live_of_asleep {d : Dev} {p : Nat} (h : d.awake p = false) (f : Dev → Dev) : d.live p f = d := by simp [Dev.live, h]

/-- R394: a write whose target takes it has its effect. -/
theorem Dev.gate_of_open {d : Dev} {a : Nat} (h : d.barred a = none) (src : Src) (f : Dev → Dev) : d.gate src a f = f d := by
  simp [Dev.gate, h]

/-- R394: any other is logged. -/
theorem Dev.gate_of_barred {d : Dev} {a c : Nat} (h : d.barred a = some c) (src : Src) (f : Dev → Dev) :
    d.gate src a f = d.logAccess src c a := by simp [Dev.gate, h]

/-- R394: a read whose target takes it answers with its value. -/
theorem Dev.gateRead_of_open {d : Dev} {a : Nat} (h : d.barred a = none) (src : Src) (f : Dev → Nat × Dev) :
    d.gateRead src a f = (f d).2.respond src (f d).1 := by simp [Dev.gateRead, h]

/-- R394: any other is logged and reads 0. -/
theorem Dev.gateRead_of_barred {d : Dev} {a c : Nat} (h : d.barred a = some c) (src : Src) (f : Dev → Nat × Dev) :
    d.gateRead src a f = (d.logAccess src c a).respond src 0 := by simp [Dev.gateRead, h]

/-- R215: without a request there is nothing to serve. -/
theorem Dev.serve_of_none {d : Dev} {e ch cmd : Nat} (h : d.req e ch cmd .sent = none) (f : Nat → Dev → Dev × Option (Nat × Nat)) :
    d.serve e ch cmd f = d := by simp [Dev.serve, h]

/-- R218: a request whose target takes none is answered with the status that says so. -/
theorem Dev.serve_of_refusal {d : Dev} {e ch cmd st : Nat} {r : Req} (h : d.req e ch cmd .sent = some r) (k : d.refusal r = some st)
    (f : Nat → Dev → Dev × Option (Nat × Nat)) : d.serve e ch cmd f = d.answer e ch cmd .sent st := by simp [Dev.serve, h, k]

/-- R215, R217: any other is answered with what its effect gives. -/
theorem Dev.serve_of_reply {d x : Dev} {e ch cmd st v : Nat} {r : Req} (h : d.req e ch cmd .sent = some r) (k : d.refusal r = none)
    (f : Nat → Dev → Dev × Option (Nat × Nat)) (hf : f r.op.toNat d = (x, some (st, v))) :
    d.serve e ch cmd f = x.answer e ch cmd .sent st v := by simp [Dev.serve, h, k, hf]

/-- R215: or is taken up, to be answered later. -/
theorem Dev.serve_of_taken {d x : Dev} {e ch cmd : Nat} {r : Req} (h : d.req e ch cmd .sent = some r) (k : d.refusal r = none)
    (f : Nat → Dev → Dev × Option (Nat × Nat)) (hf : f r.op.toNat d = (x, none)) :
    d.serve e ch cmd f = x.onReq e ch cmd .sent fun r => { r with phase := .taken } := by simp [Dev.serve, h, k, hf]

end Sys2Proof.Machine
end

