-- ==== Sys2Proof/WellFormed.lean ====
section
/-! DEFINITION. Which commands are well formed: what an event carries has the shape of what the part measures or receives. Every
other operand is bounded by its type. The step does not ask for it: a statement may. -/

namespace Sys2Proof

/-- A lane word: 128 codes, two of the spare, three rising thresholds (R37, R43). -/
def LaneWord.wf (w : LaneWord) : Bool :=
  w.x.length == 128 && w.spare.length == 2 && match w.thr with
    | [a, b, c] => decide (a < b ∧ b < c)
    | _ => false

/-- An instant of the time base: 48 bits of seconds and less than a second of 1/65,536 ps (R111). -/
def Instant.wf (x : Instant) : Bool := decide (x.sec < 2 ^ 48 ∧ x.sub < 10 ^ 12 * 65536)

/-- A self-test result names the eight lanes of an octet or none (R374). -/
def BistResult.wf (x : BistResult) : Bool := x.lanes.length == 0 || x.lanes.length == 8

/-- A BAR2 access stays inside the window, and a write inside the Max Payload Size (R382). -/
def B2Op.wf (off : Nat) : B2Op → Bool
  | .read len => decide (1 ≤ len.val ∧ off + len.val ≤ 2 ^ 34)
  | .write l => decide (1 ≤ l.length ∧ l.length ≤ 512 ∧ off + l.length ≤ 2 ^ 34)

/-- A command is well formed. -/
def Instr.wf : Instr → Bool
  | .updatePoint ⟨_, ws⟩ | .calWindowEnd _ ws | .fadeEnd ⟨_, ws⟩ | .lmsUpdate _ ws | .mseBlockEnd _ ws
  | .loopbackSlip ⟨_, ws⟩ | .patternSync ⟨_, ws⟩ | .patErrRead _ _ _ ws | .eyeScanEnd _ ws => ws.all LaneWord.wf
  | .markerSend _ ⟨ks, caps⟩ _ => (ks.length == 16384 || ks.length == 0) && caps.length == 8 && caps.all Instant.wf
  | .markerReceive _ m => m.tap.wf
  | .codewordDecode _ _ r => r.length == 544
  | .innerBlockDecode _ llr => llr.length == 136 && llr.all fun x => decide (-32 ≤ x ∧ x ≤ 31)
  | .maskBlockEnd _ pwr => pwr.length == 16
  | .detection _ dets _ => decide (dets.length ≤ 5) && dets.all fun t => t.res.length == 16 * (16 * 2 ^ t.sf.val) + 32
  | .ldpcBlockRelease _ ch => ch.length == 512 && ch.all fun x => decide (-32 ≤ x ∧ x ≤ 31)
  | .weirTick _ ins => ins.length == 20
  | .thermalScan r => r.length == 176
  | .bistTestEnd _ x => x.wf
  | .bar2Access off op => op.wf off.toNat
  | .bootRomStart _ l => l.all fun x => x.2.2.wf
  | .add .. | .sub .. | .and .. | .or .. | .xor .. | .nor ..
  | .andn .. | .seq .. | .sne .. | .slt .. | .sltu .. | .sle ..
  | .sleu .. | .sll .. | .srl .. | .sra .. | .rol .. | .clz ..
  | .ctz .. | .popc .. | .addi .. | .andi .. | .ori .. | .xori ..
  | .slti .. | .sltiu .. | .seqi .. | .insh1 .. | .insh2 .. | .insh3 ..
  | .slli .. | .srli .. | .srai .. | .extF .. | .extsF .. | .insF ..
  | .mul .. | .mulhs .. | .mulhu .. | .mulhsu .. | .addb .. | .subb ..
  | .addbs .. | .subbs .. | .addbu .. | .subbu .. | .avgbu .. | .absdb ..
  | .minbu .. | .maxbu .. | .minbs .. | .maxbs .. | .sadb .. | .ceqb ..
  | .cgtbu .. | .selb .. | .macuu .. | .macss .. | .macsu .. | .macsss ..
  | .mulpuu .. | .mulpss .. | .ldB .. | .ldBu .. | .ldH .. | .ldHu ..
  | .ldW .. | .ldWu .. | .ldD .. | .stB .. | .stH .. | .stW ..
  | .stD .. | .aadd .. | .aswap .. | .aand .. | .aor .. | .axor ..
  | .acas .. | .bz .. | .bnz .. | .j .. | .jal .. | .jr ..
  | .jalr .. | .mfsy .. | .mtsy .. | .eret .. | .trap .. | .ewait ..
  | .halt .. | .csend .. | .crecv .. | .channelClose .. | .interruptEntry .. | .watchdogExpiry ..
  | .timerExpiry .. | .ewaitWake .. | .crecvWake .. | .channelReply .. | .illegalInstruction .. | .instructionFetchFault ..
  | .freqWindowEnd .. | .elasticSwitch .. | .elasticSlip .. | .cdrLockSet .. | .cdrLockClear .. | .losSet ..
  | .losClear .. | .calCoefWrite .. | .calFreeze .. | .calUnfreeze .. | .repairRequest ..
  | .spareTakeover .. | .repairRelease .. | .ffeTapWrite .. | .swapRequest ..
  | .lmsCtrlWrite .. | .txFfeWrite .. | .pdPageSelect .. | .pdEntryWrite .. | .trainStart .. | .trainStop ..
  | .localReadySet .. | .localReadyClear .. | .trainLimitExpiry .. | .trainRequest .. | .trainResend .. | .trainingMessageReceive ..
  | .lanePowerRequest .. | .lanePowerTransitionEnd .. | .loopbackSelect .. | .loopbackEngage .. 
  | .eyeScanStart .. | .eyeScanAbort .. | .captureEnable .. | .captureMark ..
  | .captureRewind .. | .captureTrigger .. | .capturePageStart .. | .captureWordDrop .. | .modeCommit .. | .modeBoundary ..
  | .fecSnapshot .. | .berWindowEnd .. | .timeStep .. | .timeSetCommit .. | .timeSetLoad ..
  | .ppsInEdge .. | .ppsOutPulse .. | .ppsOutEnd .. | .todSend .. | .todReceive .. | .timeReadLatch ..
  | .txtsPop .. | .tscStart .. | .tscDone .. | .modemEnable .. | .modemDisable .. | .tlLaneChange ..
  | .gaspCommand .. | .wardenGasp .. | .muteClear .. | .delimiterMiss .. | .headerDecision .. 
  | .frameResult .. | .searchReady .. | .rxPop .. | .txFrameQueue .. | .txFrameStart .. | .txFrameEnd ..
  | .frameIngress .. | .lookupServe .. | .schedulerDecision .. | .frameEgress .. | .agePromotion .. | .portFlush ..
  | .schedCommit .. | .schedChamberBoundary .. | .schedIndAccess .. | .schedIndDone .. | .reclaimStart .. | .reclaimDone ..
  | .hashKeyWrite .. | .gaugeCrossing .. | .flInstall .. | .installCommit .. | .flLookup .. | .flRead ..
  | .flModify .. | .flRelease .. | .flRemove .. | .flowRemoveComplete .. | .flEnq .. | .puntPop ..
  | .puntPopComplete .. | .puntDispose .. | .schedRead .. | .schedWrite .. | .spillWrite .. | .spillFetch ..
  | .modeSet .. | .lCtrlWrite .. | .dwInit .. | .targetWrite .. | .integLoStage .. | .integPreset ..
  | .rcDataRead .. | .rcDataWrite .. | .weirSnap .. | .weirMode .. | .weirTarget .. | .weirPreset ..
  | .rcClear .. | .scanStart .. | .scanStop .. | .scanModeChange .. | .scanMaskWrite .. | .chainConfigWrite ..
  | .refSelect .. | .refSettled .. | .refFail .. | .outputEnableWrite .. | .heaterDropout .. | .heaterRegulation ..
  | .refCalStart .. | .refCalDone .. | .registerWrite .. | .readClear .. | .dmaCopy .. | .dmaCopyDone ..
  | .ctrRead .. | .regRead .. | .regWrite .. | .regAccessArrive .. | .imgHalt .. | .imgDrain ..
  | .imgDrainDone .. | .imgLoad .. | .imgLoadDone .. | .imgStart .. | .imgState .. | .regionWrite ..
  | .dramGrant .. | .refresh .. | .mr4Read .. | .rewrite .. | .rewriteDone .. | .scrubRead ..
  | .eccTestAccess .. | .scrubLogPop .. | .sourceLevelChange .. | .swpendWrite .. | .swclrWrite .. | .hostClaim ..
  | .hostEoi .. | .targetFlush .. | .counterGroupClear .. | .counterReadLatch .. | .counterSnapshot .. | .dumpEnable ..
  | .dumpDisable .. | .dumpLatch .. | .dumpNow .. | .dumpRecordDone .. | .profileRequest .. | .polderRequest ..
  | .polderEntry .. | .drainEnd .. | .drainTimeout .. | .polderExit .. | .entryAbandon .. | .dramIdleTimeout ..
  | .dramDemand .. | .dramWakeDone .. | .padRelease .. | .acctModeWrite .. | .pwrChRequest .. | .pwrChPark ..
  | .pwrChStatus .. | .pwrChRelease .. | .thmChRead .. | .thmChCap .. | .pfailAssert .. | .autoGasp ..
  | .autoNvRecord .. | .pfailClear .. | .sensorInclude .. | .throttleStep .. | .forcedStop .. | .forcedStopRun ..
  | .sentinelRead .. | .lcToManufacture .. | .secRandom .. | .keyLoad .. | .keyClear .. | .rrCheck ..
  | .lcAdvance .. | .rollbackSet .. | .fuseWrite .. | .trngHealthFail .. | .secretDestruction .. | .nvRead ..
  | .nvWrite .. | .nvRecord .. | .nvDataLoRead .. | .nvDataHiRead .. | .nvDataHiWrite .. | .tapReset ..
  | .extest .. | .samplePreload .. | .idcode .. | .bypass .. | .dbgChal .. | .dbgResp ..
  | .dbgRespChecked .. | .dbgStatus .. | .dbgLock .. | .dbgHold .. | .dbgNop .. | .dbgRegRead ..
  | .dbgRegWrite .. | .dbgEngHalt .. | .dbgEngResume .. | .dbgEngStep .. | .dbgEngRegRead .. | .dbgEngRegWrite ..
  | .dbgStoreRead .. | .dbgStoreWrite .. | .dbgFuseStage .. | .dbgFuseWrite .. | .bistMem .. | .bistLbist ..
  | .bistAnalog .. | .bistAon .. | .bistStatus .. | .fuseRepairs .. | .sqDoorbell .. | .cqHeadWrite ..
  | .queueEnable .. | .queueDisable .. | .hostFrameDelivery .. | .hostFrameInject .. | .queueTimerExpiry .. | .queueStop ..
  | .d3hotEntry .. | .d0Entry .. | .pmeResend .. | .errLogPop .. | .coldReset .. | .warmReset ..
  | .functionReset .. | .polderReset .. | .polderResetDone .. | .healthyKick .. | .healthyTimeout .. | .ddrTrainStart ..
  | .ddrTrainDone .. | .smbTempMax .. | .smbTempSent .. | .smbTempEngine .. | .smbProfile .. | .smbHealth ..
  | .smbBootErr .. | .smbVcore .. | .vcoreRequestChange .. | .pcieLinkUp .. | .configurationRequest .. | .trngOutputResume ..
  | .dbgCommandComplete .. => true

end Sys2Proof
end

