-- ==== Sys2Proof/Tests/Slice0.lean ====
section
/-! SUPPORT. Tests of the model: an ill-formed command for each check of WellFormed, values taken from the spec's own figures, and for
every statement with hypotheses states and operands that meet them. -/

section

open Sys2Proof Sys2Proof.Machine

set_option Elab.async false

/-! WellFormed: each check refuses an ill-formed command. -/

/-- A lane word whose thresholds do not rise, and one that is well formed. -/
def badWord : LaneWord := ⟨List.replicate 128 0, [0, 0], [0, 0, 1]⟩
def goodWord : LaneWord := ⟨List.replicate 128 0, [0, 0], [0, 1, 2]⟩

theorem test_wf_updatePoint : Instr.wf (.updatePoint ⟨0, [goodWord, badWord]⟩) = false := by decide +kernel
theorem test_wf_calWindowEnd : Instr.wf (.calWindowEnd 0 [⟨[], [0, 0], [0, 1, 2]⟩]) = false := by decide
theorem test_wf_fadeEnd : Instr.wf (.fadeEnd ⟨0, [⟨List.replicate 128 0, [0], [0, 1, 2]⟩]⟩) = false := by decide +kernel
theorem test_wf_lmsUpdate : Instr.wf (.lmsUpdate 0 [⟨List.replicate 128 0, [0, 0], [0, 1]⟩]) = false := by decide +kernel
theorem test_wf_markerSend : Instr.wf (.markerSend 0 ⟨[], List.replicate 7 ⟨0, 0⟩⟩ 25) = false := by decide
theorem test_wf_markerReceive : Instr.wf (.markerReceive 0 ⟨0, 0, 0, ⟨2 ^ 48, 0⟩, 25, false, false⟩) = false := by decide
theorem test_wf_codewordDecode : Instr.wf (.codewordDecode 0 0 (List.replicate 543 0)) = false := by decide +kernel
theorem test_wf_innerBlockDecode : Instr.wf (.innerBlockDecode 0 (List.replicate 136 32)) = false := by decide +kernel
theorem test_wf_maskBlockEnd : Instr.wf (.maskBlockEnd 0 [0]) = false := by decide
theorem test_wf_detection : Instr.wf (.detection 0 [⟨0, [], 0, 0, 0, false⟩] ⟨0, 0⟩) = false := by decide
theorem test_wf_ldpcBlockRelease : Instr.wf (.ldpcBlockRelease 0 (List.replicate 511 0)) = false := by decide +kernel
theorem test_wf_weirTick : Instr.wf (.weirTick 0 []) = false := by decide
theorem test_wf_thermalScan : Instr.wf (.thermalScan []) = false := by decide
theorem test_wf_bistTestEnd : Instr.wf (.bistTestEnd 0 ⟨true, 0, 0, 0, [(0, 0)]⟩) = false := by decide
theorem test_wf_bar2Access : Instr.wf (.bar2Access 0 (.read 0)) = false := by decide
theorem test_wf_bootRomStart : Instr.wf (.bootRomStart ⟨true, true, []⟩ [(0, 0, ⟨true, 0, 0, 0, [(0, 0)]⟩)]) = false := by decide
theorem test_wf_good : Instr.wf (.lmsUpdate 0 [goodWord]) = true := by decide +kernel

/-! For every statement that has hypotheses, states and operands that meet them, clause by clause. The states are the part after reset with a
few registers or records set. -/

/-- The part after reset. -/
def w0 : Dev := {}

/-- A machine with an empty queue around a part. -/
def st (d : Dev) : State := { dev := d }

/-- The part with one request of engine e to a target. -/
def asked (d : Dev) (e ch cmd op : Nat) (tgt : Nat := 48) (ph : Phase := .sent) (aux : Nat := 0) : Dev :=
  d.onE e fun x => { x with reqs := [{ chan := ch, cmd := cmd, op := BitVec.ofNat 64 op, tgt := tgt, epoch := d.epoch tgt, phase := ph, aux := aux }] }

/-- The part with engine e as given. -/
def engD (e : Nat) (x : EngSt) : Dev := w0.onE e fun _ => x

/-- An engine that runs. -/
def runs : EngSt := { st := .running }

/-- A training message with the record of lane 7 alone (R73): its sequence number, preset, command, response, readiness and the readiness it has
seen. -/
def trnMsg (seq preset cmd rsp ready seen : Nat) : BitVec 256 :=
  BitVec.ofNat 256 (2 ^ 248 + 2 ^ 240 + seq * 2 ^ 27 + preset * 2 ^ 25 + cmd * 2 ^ 15 + rsp * 2 ^ 12 + ready * 2 + seen)

/-- The arrival of a marker at a lane. -/
def mark (w : Nat) : MarkerArrival := ⟨BitVec.ofNat 64 w, 0, 5, ⟨1, 2⟩, 30, true, false⟩

/-- Log-likelihood ratios of an inner block that no test pattern decodes. -/
def llrBad : List Int :=
  (List.range 136).map fun i => if i = 0 ∨ i = 2 ∨ i = 14 ∨ i = 45 then -1 else if i = 1 ∨ i = 47 then 31 else -31

/-- A message of R114 with its CRC. -/
def todGood : List (BitVec 8) := [0xA5, 1, 1, 2, 3, 4, 5, 6, 37, 0, 3, 193]

/-- The part with the modem of octet 31 running. -/
def tl : Dev := (w0.set (R.TL_CTRL.EN 31) 1).set (R.LPWR_STATUS.TX_STATE 248) 0

/-- A correlator whose last four symbol decisions agree. -/
def det (m : Int) : TlDetect := ⟨0, (List.range 288).map fun k => if k % 64 = 16 then 1 else 0, 0, 0, m, false⟩

theorem heard_det : agree (detSymbols (det 127) txFirReset 1) = true := by decide +kernel

theorem heard_at {g : Nat} (h : g = 1) : agree (detSymbols (det 127) txFirReset g) = true := h ▸ heard_det

theorem noGasp (r : Nat) : (none : Option TlCur) ≠ some (.gasp r) := nofun

theorem permitted_text {x : EngSt} {a : DWord} {n : Nat} (h : a.toNat % n = 0 ∧ regionOf a = .text ∧ x.task = false) : Permitted x a n :=
  ⟨h.1, by rw [h.2.1]; exact h.2.2⟩

theorem permitted_data {x : EngSt} {a : DWord} {n : Nat} (h : a.toNat % n = 0 ∧ regionOf a = .data ∧
    (x.task = true → x.winLBase * 4096 ≤ a.toNat ∧ a.toNat < x.winLLimit * 4096)) : Permitted x a n := ⟨h.1, by rw [h.2.1]; exact h.2.2⟩

theorem permitted_shared {x : EngSt} {a : DWord} {n : Nat} (h : a.toNat % n = 0 ∧ regionOf a = .shared ∧
    (x.task = true → x.winSBase * 4096 ≤ a.toNat - 0x10000000 ∧ a.toNat - 0x10000000 < x.winSLimit * 4096)) : Permitted x a n :=
  ⟨h.1, by rw [h.2.1]; exact h.2.2⟩

theorem clean_of {d : Dev} {sp : Space} (h : (d.store sp).synd = []) : d.clean sp := fun w => by unfold Store.syndrome; rw [h]; rfl

/-- The part with flow f's context. -/
def ctxD (f : Nat) (x : Ctx) : Dev := w0.putCtx f {} x

/-- CTRL of a valid flow in a state. -/
def ctl (state : Nat) : Nat := 2 ^ 31 + state * 2 ^ 28

/-- A request to the fabric. -/
def fabAsk (d : Dev) (cmd op : Nat) (ph : Phase := .sent) (ch : Nat := 0x10) : Dev := asked d 95 ch cmd op 32 ph

/-- The part with the hash key written 0. -/
def keyed : Dev := { w0 with regs := (List.range 8).map fun i => (A.HASH_KEY i, 0) }

/-- A frame of 64 bytes with its FCS, and its arrival. -/
def frm : List Byte := List.replicate 60 7 ++ [148, 37, 17, 201]
def arr (l : List Byte) : RxFrame := ⟨l, true, (0, 0), false, false, 0, 5, none⟩

/-- The part in NORMAL with the flow that the frame's key hits. -/
def hit : Dev := (keyed.putCtx 401264 {} { digest := 25984116008526045925653710812, ctrl := ctl 1 }).set R.FL_CTRL.RUN 1

/-- The path of flow f to port 0. -/
def path (d : Dev) (f : Nat) : Dev :=
  ((((d.onN 0 0 fun n => { n with kids := [[0], [], [], []] }).onN 1 0 fun n => { n with valid := true, kids := [[5], [], [], []] }).onN 2 5
    fun n => { n with valid := true, age := 4, kids := [[f], [], [], []] }).onN 3 f fun n => { n with valid := true, parent := 5 }).set
      (R.PORT_STATUS.STATE 0 0) 3

/-- The part with a frame of one cell queued for flow 7, its path open. -/
def queued : Dev := path ((w0.putCtx 7 {} { ctrl := ctl 1, onchip := 1 }).onF fun x => { x with links := [(0, 2 ^ 22)] }) 7

theorem asks_of {d : Dev} {e ch cmd op : Nat}
    (h : ((d.req e ch cmd .sent).any fun r => (d.refusal r).isNone && r.op.toNat == op) = true) : d.Asks e ch cmd op := by
  cases hr : d.req e ch cmd .sent with
  | none => simp [hr] at h
  | some r =>
    simp only [hr, Option.any_some, Bool.and_eq_true, beq_iff_eq, Option.isNone_iff_eq_none] at h
    exact ⟨r, hr, h.1, h.2⟩

theorem asks_taken {d : Dev} {e ch cmd op : Nat} (h : ((d.req e ch cmd .taken).all fun r => r.op.toNat == op) = true) :
    ∀ r, d.req e ch cmd .taken = some r → r.op.toNat = op := by
  intro r hr
  simpa [hr] using h

/-- The hashes, under a key of zeros, of a key record of zeros and of the frame's key record. -/
theorem hashes_zero {d : Dev} {l : List Byte}
    (h : d.hashKey 0 = 0 ∧ d.hashKey 2 = 0 ∧ d.hashKey 4 = 0 ∧ d.hashKey 6 = 0 ∧ l = List.replicate 64 0) :
    d.hashes l = (5676907769629108917, 5676907769629108917) := by
  simp [Dev.hashes, h, sipHash, sipWord, sipRound, leWords, leNat]

theorem hashes_frm {d : Dev} {l : List Byte}
    (h : d.hashKey 0 = 0 ∧ d.hashKey 2 = 0 ∧ d.hashKey 4 = 0 ∧ d.hashKey 6 = 0 ∧
      l = List.replicate 58 0 ++ [25, 129] ++ List.replicate 4 0) :
    d.hashes l = (6049898453931231196, 6049898453931231196) := by
  simp [Dev.hashes, h, sipHash, sipWord, sipRound, leWords, leNat, List.replicate]

theorem hashes_ipf {d : Dev} {l : List Byte}
    (h : d.hashKey 0 = 0 ∧ d.hashKey 2 = 0 ∧ d.hashKey 4 = 0 ∧ d.hashKey 6 = 0 ∧
      l = [0, 1] ++ List.replicate 56 0 ++ [25, 129] ++ List.replicate 4 0) :
    d.hashes l = (4405178082052460611, 4405178082052460611) := by
  simp [Dev.hashes, h, sipHash, sipWord, sipRound, leWords, leNat, List.replicate]

/-- The first cell of an IPv4 frame, and the flow it hits, which cuts through to port 0. -/
def ipf : List Byte := [1, 2, 3, 4, 5, 6, 7, 8, 9, 10, 11, 12, 8, 0, 69, 0, 0, 242, 0, 0, 0, 0, 64, 17] ++ List.replicate 228 0 ++ [52, 3, 113, 66]
def cuts : Dev :=
  (((path (keyed.putCtx 737548 {} { digest := 18920095795187461814398144579, ctrl := ctl 1 + 2 ^ 26 }) 737548).set R.FL_CTRL.RUN 1).set
    (R.PORT_CFG.CT_IN 0) 1).set (R.PORT_CFG.CSUM_CHK 0) 0

/-- What the decision at port 0 picks there. -/
def picked : Pick × Dev := (((queued.onF fun x => { x with cyc := max x.cyc 0 }).pickPort 0 0).get (by decide +kernel))

/-- The drain of cluster 0 taken up, its engines idle. -/
def drains : Dev := asked w0 90 0x206 1 0xFF 36 .taken

theorem drains_idle (k : Nat) (hk : k < 8) (q : Req) (h : q ∈ (drains.e (8 * 0 + k)).reqs) : q.chan = 0x206 := by
  have hd : ∀ k < 8, (drains.e (8 * 0 + k)).reqs = [] := by decide +kernel
  rw [hd k hk] at h
  exact absurd h (by simp)

/-- The start of cluster 0's engines, each halted with an image. -/
def starts : Dev := asked ((List.range 8).foldl (fun d k => d.onE k fun x => { x with image := some 64 }) w0) 90 0x206 3 0xFF 36

theorem starts_ready (k : Nat) (hk : k < 8) : (starts.e (8 * 0 + k)).st = .halted ∧ (starts.e (8 * 0 + k)).image.isSome = true := by
  revert k; decide +kernel

/-- An image signed with the key of slot 7, its vault, and its load, at DRAM address 4096, into the engines of cluster 0, taken up. The signatures here
are made from the message: their key is chosen last. -/
def listed (a : Nat) (l : List Byte) : Store := { data := (l.zipIdx a).filterMap fun (x : Byte × Nat) => if x.1 = 0 then none else some (x.2, x.1) }

def img : List Byte :=
  [1, 0, 76, 78, 1, 0, 0, 0, 0, 0, 255, 15, 64, 0, 0, 0, 64, 0, 0, 0, 64, 0, 0, 0, 64, 0, 0, 0, 0, 16, 0, 0, 0, 0, 0, 0, 7, 0, 0, 0, 7] ++ List.replicate 87 0
    ++ List.replicate 64 2 ++ List.replicate 64 2 ++ List.replicate 64 3 ++ bytesLE 1795040341680589306093529516854924832609680296734775861581700947899692842056089481384925191754314699838472545163387199473545640332217771531501741153341209941367179155456761283874876207387484500349407953737854643281982452776877214262182928004438685322317064647625862358888505672665559029890106395217239958232334748649947424666269985925597201158876923657547187024251655169893796970452324389295328018413487931241648429350994122528480638743353606575996772698599177055 256

def knows : Vault :=
  { life := 2, keys := [(7, some 38290338252912094816837511566229003221235625390585081622311299690169417608559807532745550074086456995437272424089465)] }

def loads : Dev := asked (({ w0 with dram := listed 4096 img }).set R.MEM_STATUS.USABLE 1) 90 0x206 2 0x10000FF 36 .taken

/-- The token for the transition from 1 to 2 by slot 1, and for that from 2 to 5 by slot 7. -/
def token12 : State :=
  { dev := asked { w0 with sharedS := listed 0 ([1, 0, 67, 76, 1, 2, 1, 0, 77, 0, 0, 0, 0, 0, 0, 0, 1] ++ List.replicate 47 0 ++ bytesLE 1741246252823012345176453922003611256569839977988910865396609607949198846763318602558308246687222008369648843884365870810076482032441733603919264483448405943160699514448615673245983825291640067732432687949682721967614895877806177743982346488433036602364913288039068614496163280142418220473167676691999251630620412061502269221533381363288758317532235906388482140697936421518867838442605557034303912262556969973043304591474654872434414907313307261925351256560473157 192) } 0 0x202 4 0 48
    vault := { life := 1, keys := [(1, some 27951183162300763347162265030166223747206843140104258900043531019629030411371408812851552545200168888739378097038298)], serial := some 77 } }

def token25 : State :=
  { dev := asked { w0 with sharedS := listed 0 ([1, 0, 67, 76, 2, 5, 7, 0, 77, 0, 0, 0, 0, 0, 0, 0, 0] ++ List.replicate 47 0 ++ bytesLE 1762744644534484461158968496914548578357229539482838804553006801291496026831356714894975001295951502509136888928441111167068016954290147467687829883039766944433907274930057819351380895756786552851450020398570230850117045519392997815404607008523008741698839671102754212160608362614696644755405103517451448617451918317119325699078475696996212532699614617808154575933731679184364817853996021599922017354874839297082512018116745243489415229873763974628216487492277861 192) } 0 0x202 4 0 48
    vault := { life := 2, keys := [(7, some 2576152773101069479682752834423074432032246672368821558811621981955904845827467612303522075873340975645626882006123)], serial := some 77 } }

/-- A response for level 2 by debug slot 0 to a challenge in state 4, with its vault. -/
def answers (lv k : Nat) : List Byte :=
  [BitVec.ofNat 8 lv, BitVec.ofNat 8 k, 0, 0] ++ bytesLE 919829526309207918531962763536085243141505911297715107047212972807023057016274430025713075112765020695338475060924607270968717820286813861400685056872110012757892783304974350940848344410800257888181407466776112326781335415804447701027283460677761527382885460243094226314528691672459094163018359055292020577822203536284121708413559273633442077731760110303147411464680532767209548875324221770058534662194213017494393781321174580894321982639042952570733313976295265 192
def challenged (lv k life : Nat) (keys : Tbl (Option Nat)) : State :=
  { dev := { w0.set R.DBG_STATUS.FAILS 7 with sec := { nonce := [0, 2, 3, 4], resp := some (answers lv k) } }, vault := { life := life, keys := keys, serial := some 77 } }
def knownKey : Nat := 1378227813847744408001665066895776339880120343165376213444681192211730251389513990823088572700062936588985188798207

/-- The same with a signature of zeros, for level 1. -/
def unsigned : List Byte := (answers 1 0).take 100 ++ List.replicate 96 0
def wrong : State :=
  { dev := { w0 with sec := { nonce := [0, 2, 3, 4], resp := some unsigned } }, vault := { life := 2, keys := [(8, some knownKey)], serial := some 77 } }

theorem four {p : Nat → Prop} (h : ∀ i : Fin 4, p (32 + i)) (q : Nat) (a : 32 ≤ q) (b : q ≤ 35) : p q := by
  have := h ⟨q - 32, by omega⟩
  rwa [show 32 + (q - 32) = q by omega] at this

/-- The part with a syndrome at the last word of the flow store. -/
def synd (n : Nat) (d : Dev := w0) : Dev := { d with flowS := { synd := [(8388607, BitVec.ofNat 8 n)] } }

/-- REWRITE_ADDR and ECCT_ADDR at the last word. -/
def lastWord : Dev := (((w0.setReg A.REWRITE_ADDR_LO 0xFFFFFFFF).set R.REWRITE_ADDR_HI.INDEX 3).setReg A.ECCT_ADDR_LO 0xFFFFFFFF).set R.ECCT_ADDR_HI.INDEX 3

/-- The scrubber of the flow store on, at word 5, which has a syndrome. -/
def scrubs (n : Nat) : Dev :=
  { w0.set R.SCRUB_CTRL.EN 15 with flowS := { synd := [(8388606, BitVec.ofNat 8 n)] }, mem := { w0.mem with scrub := [(1, 8388606)] } }

/-- A counter dump record in hand, one region that covers the record or none, and the registers of the ring. -/
def record : DumpRec := ⟨7, 0, 0, 0, 0, 1, 0, [(8191, 9)]⟩
def dumps (base : Nat) : Dev :=
  { ((((w0.set R.MEM_STATUS.USABLE 1).set (R.REGION_USE.USE 15) 4).set (R.REGION_LIMIT.MIB 15) 1024).set R.CTR_CTRL.SIZE 1).set
      R.DUMP_BASE_LO.ADDR base with cnt := { w0.cnt with dump := some record } }

/-- The sources 500 and 499 claimable by the host at priority 15, source 499 masked. -/
def claims : Dev :=
  (((w0.set (R.SWPEND.SW 15) (2 ^ 20 + 2 ^ 19)).set (R.TGT_EN.EN 8 15) (2 ^ 20)).setReg (A.PRIO 62) 0xF0000).set (R.TGT_STATUS.DEPTH 8) 0

theorem claims_best (m : Fin 512) : m ≠ 0 → claims.claimable 8 m = true → claims.prio m < claims.prio 500 ∨ (claims.prio m = claims.prio 500 ∧ 500 ≤ m) := by
  revert m; decide +kernel

/-- A running transition, and the part with one. -/
def turning (exits entries : List (Nat × Nat)) (cur : Option (Nat × Nat)) (wake : Option Nat) : Trans :=
  { req := {}, pre := [], exits := exits, entries := entries, cur := cur, wake := wake }
def moving (t : Trans) (d : Dev := w0) : Dev := { d with pwr := { d.pwr with run := some t } }

theorem eight {p : Nat → Prop} (h : ∀ i : Fin 8, p i) (q : Nat) (a : q < 8) : p q := h ⟨q, a⟩

/-- A FUSE command for a field with the first byte of its value, under a vault. -/
def fuseAsk (f val : Nat) (v : Vault) : State :=
  { dev := asked (w0.hubWrite 0 0 [(f, false), (0, false), (val, false)]) 0 0x202 6 0 48, vault := v }

theorem lastKey (f j : Nat) (e : f = 0x12) (h : 2 ≤ j ∧ j ≤ 7) (n : j ≠ f - 16) :
    ({ life := 3, keys := [(2, some 1)] } : Vault).usable j = false := by
  subst e
  have : ∀ j < 8, j ≠ 2 → ({ life := 3, keys := [(2, some 1)] } : Vault).usable j = false := by decide +kernel
  exact this j (by omega) n

/-- A reset request of 16 bytes with a MAC, RRK loaded. -/
def requestAsk (l mac : List Byte) : State :=
  { dev := asked { w0 with sharedS := listed 0 (l ++ List.replicate 9 0 ++ mac), sec := { rrk := some [1] } } 0 0x202 3 0 48 }

/-- The MACs of three requests under the key 1. -/
def reqMac0 : List Byte := bytesLE 297965796728460352374646819078431321203 16

def reqMac1 : List Byte := bytesLE 146289650653056011486390453703569426857 16

def reqMac2 : List Byte := bytesLE 307340937726161858259083332447673655491 16

/-- A flash directory with one slot, valid, its image at 4096, and an image for the wardens signed with the key of slot 7, with its vault. -/
def bootDir : List Byte :=
  bytesLE 0x43440001 4 ++ List.replicate 4 0 ++ bytesLE 7 4 ++ bytesLE 1 4 ++ bytesLE 4096 4 ++ List.replicate 5 0 ++ [1] ++ List.replicate 226 0 ++
    [12, 18, 176, 79]

def wardenImg : List Byte :=
  [1, 0, 76, 78, 1, 0, 0, 0, 2, 0, 0, 8, 64, 0, 0, 0, 64] ++ List.replicate 23 0 ++ [7] ++ List.replicate 87 0 ++ List.replicate 64 4 ++ bytesLE 712408539653693261572395080263692022079894907319677894393759808695568252275425485586829452576308888866547426333838003036077447323063564310750697756527759897558776071168847192840384464783087720071905784141388390732504049419063787138705635649936567378328237334910284542707183596911055983571046825563219336615852339471568143770371252091990654039872492775246527009139266226262633442301776501714401366864691987849031720301494023395894186424460510413133226809605010246 256

def flash (img : List Byte) : Flash := { responds := true, sfdp := true, runs := [(0, bootDir), (4096, img)] }

def knowsWarden : Vault :=
  { life := 2, keys := [(7, some 32625328666304814536796791795606127978708969753831311034827944896390110797878912403403479404644842392552240919395204)] }

/-- The part with queue pair 63 enabled and a submission waiting. -/
def ready63 (dir : Nat) : Dev :=
  ((((w0.set (R.Q_CTRL.EN 63) 1).set (R.Q_CTRL.DIR 63) dir).set (R.Q_CTRL.SQ_SIZE 63) 4).set (R.Q_CTRL.CQ_SIZE 63) 4).set (R.Q_SQ_TAIL.IDX 63) 1

/-- The part with the DRAM open to BAR2. -/
def open2 : Dev :=
  ((((w0.set R.HOST_CTRL.BAR2_EN 1).set R.MEM_CFG.EN 1).set R.MEM_STATUS.USABLE 1).set (R.REGION_USE.USE 15) 16).set (R.REGION_LIMIT.MIB 15) 1024

/-! Values of the spec. -/

/-- The worked example of 00_scope.md: the register block of lane 5 of octet O13, global lane 109, starts at 0x011A_A000. -/
theorem test_lane_block : A.LOS_CTRL 109 - A.LOS_CTRL 0 = 0x11AA000 - 0x1000000 := by decide +kernel

/-- The worked example of 07_neloc_isa.md: eight lanes 0x40 against eight lanes 0x38 make a sum of differences of 64. -/
theorem test_sadb : (match exec (.sadb 0 10 4 5 0xFF) (st (engD 0 ((runs.w 4 0x4040404040404040).w 5 0x3838383838383838))) with
    | .next t => (t.dev.e 0).r 10 | _ => 0) = 64 := by decide +kernel

/-- The worked example of 04_line_fec_framing.md: the receive timestamp of a frame 1,234,567 symbols after its marker. -/
theorem test_receive_timestamp :
    (((((w0.set (R.MODE_ACTIVE.LANE_MODE 13) 2).set R.TB_RATE.RATE 3000).set (R.TS_ADJ_RX.ADJ 13 5) 2140).onL 109 fun x =>
      { x with tmRx := { sec := 1734512000, ps := 512345678901, sub := 0 } }).frameStamp 109 1234567 false) = (1734512000, 512351149019) := by decide +kernel
theorem witness_StepTakesFront :
    ∃ s : State, s.pending = [] :=
  ⟨st w0, rfl⟩

theorem witness_AluResult :
    (∃ (e : EngId) (s : State), s.dev.canIssue e) ∧
    (∃ f : DWord → Nat, (∃ v i, i < f v) ∧ ∃ v, f v < 64) :=
  ⟨⟨95, st (engD 95 { runs with pc := 0xFFFC }), by decide +kernel, by decide +kernel, by decide +kernel, by decide +kernel⟩,
   ⟨fun v => v.toNat % 64, ⟨1, 0, by decide⟩, 63, by decide⟩⟩

theorem witness_ByteLanes :
    ∃ (e : EngId) (s : State), s.dev.canIssue e :=
  ⟨0, st (engD 0 runs), by decide +kernel, by decide +kernel, by decide +kernel, by decide +kernel⟩

theorem witness_LoadResult :
    (∃ (e : EngId) (s : State), s.dev.canIssue e ∧ let x := s.dev.e e; Permitted x 0x3FFFF 1 ∧ s.dev.cleanAt e 0x3FFFF) ∧
    (∃ (e : EngId) (s : State), s.dev.canIssue e ∧ let x := s.dev.e e; Permitted x 0xFFFE 2 ∧ s.dev.cleanAt e 0xFFFE) ∧
    (∃ (e : EngId) (s : State), s.dev.canIssue e ∧ let x := s.dev.e e; Permitted x 0x10FFC 4 ∧ s.dev.cleanAt e 0x10FFC) ∧
    (∃ (e : EngId) (s : State), s.dev.canIssue e ∧ let x := s.dev.e e; Permitted x 0x103FFFF8 8 ∧ s.dev.cleanAt e 0x103FFFF8) :=
  ⟨⟨95, st (engD 95 runs), ⟨by decide +kernel, by decide +kernel, by decide +kernel, by decide +kernel⟩, permitted_data (by decide +kernel), rfl⟩,
   ⟨95, st (engD 95 runs), ⟨by decide +kernel, by decide +kernel, by decide +kernel, by decide +kernel⟩, permitted_text (by decide +kernel), rfl⟩,
   ⟨0, st (engD 0 { runs with task := true }), ⟨by decide +kernel, by decide +kernel, by decide +kernel, by decide +kernel⟩, permitted_data (by decide +kernel), rfl⟩,
   ⟨0, st (engD 0 { runs with task := true, winSLimit := 1024 }), ⟨by decide +kernel, by decide +kernel, by decide +kernel, by decide +kernel⟩, permitted_shared (by decide +kernel), rfl⟩⟩

theorem witness_StoreResult :
    (∃ (e : EngId) (s : State), s.dev.canIssue e ∧ let x := s.dev.e e; Permitted x 0x3FFFF 1 ∧ s.dev.cleanAt e 0x3FFFF) ∧
    (∃ (e : EngId) (s : State), s.dev.canIssue e ∧ let x := s.dev.e e; Permitted x 0xFFFE 2 ∧ s.dev.cleanAt e 0xFFFE) ∧
    (∃ (e : EngId) (s : State), s.dev.canIssue e ∧ let x := s.dev.e e; Permitted x 0x10000FFC 4 ∧ s.dev.cleanAt e 0x10000FFC) ∧
    (∃ (e : EngId) (s : State), s.dev.canIssue e ∧ let x := s.dev.e e; Permitted x 0x10000 8) :=
  ⟨⟨95, st (engD 95 runs), ⟨by decide +kernel, by decide +kernel, by decide +kernel, by decide +kernel⟩, permitted_data (by decide +kernel), rfl⟩,
   ⟨95, st (engD 95 runs), ⟨by decide +kernel, by decide +kernel, by decide +kernel, by decide +kernel⟩, permitted_text (by decide +kernel), rfl⟩,
   ⟨0, st (engD 0 { runs with task := true }), ⟨by decide +kernel, by decide +kernel, by decide +kernel, by decide +kernel⟩, permitted_shared (by decide +kernel), rfl⟩,
   ⟨0, st (engD 0 { runs with task := true }), ⟨by decide +kernel, by decide +kernel, by decide +kernel, by decide +kernel⟩, permitted_data (by decide +kernel)⟩⟩

theorem witness_AtomicResult :
    (∃ (e : EngId) (ga : GReg) (s : State), s.dev.canIssue e ∧ let x := s.dev.e e; let a := x.r ga; Permitted x a 4 ∧ regionOf a = .shared ∧ s.dev.cleanAt e a) ∧
    (∃ (e : EngId) (ga : GReg) (s : State), s.dev.canIssue e ∧ let x := s.dev.e e; let a := x.r ga; Permitted x a 8 ∧ regionOf a = .shared ∧ s.dev.cleanAt e a) :=
  ⟨⟨0, 31, st (engD 0 { runs with task := true, g := [(31, 0x10000FFC)] }), ⟨by decide +kernel, by decide +kernel, by decide +kernel, by decide +kernel⟩, permitted_shared (by decide +kernel), by decide +kernel, rfl⟩,
   ⟨95, 31, st (engD 95 { runs with g := [(31, 0x103FFFF8)] }), ⟨by decide +kernel, by decide +kernel, by decide +kernel, by decide +kernel⟩, permitted_shared (by decide +kernel), by decide +kernel, rfl⟩⟩

theorem witness_AccessTrap :
    (∃ (e : EngId) (ga : GReg) (imm : BitVec 16) (s : State), s.dev.canIssue e ∧ let x := s.dev.e e; let a := x.r ga + imm.signExtend 64; x.exl = false ∧ x.task = true ∧ a.toNat < 0x10000) ∧
    (∃ (e : EngId) (ga : GReg) (imm : BitVec 16) (s : State), s.dev.canIssue e ∧ let x := s.dev.e e; let a := x.r ga + imm.signExtend 64; x.exl = false ∧ x.task = true ∧ 0x10000 ≤ a.toNat ∧ a.toNat < 0x40000 ∧ (a.toNat < x.winLBase * 4096 ∨ x.winLLimit * 4096 ≤ a.toNat)) ∧
    (∃ (e : EngId) (ga : GReg) (imm : BitVec 16) (s : State), s.dev.canIssue e ∧ let x := s.dev.e e; let a := x.r ga + imm.signExtend 64; x.exl = false ∧ x.task = true ∧ 0x10000000 ≤ a.toNat ∧ a.toNat < 0x10400000 ∧ (a.toNat - 0x10000000 < x.winSBase * 4096 ∨ x.winSLimit * 4096 ≤ a.toNat - 0x10000000)) ∧
    (∃ (e : EngId) (ga : GReg) (imm : BitVec 16) (s : State), s.dev.canIssue e ∧ let x := s.dev.e e; let a := x.r ga + imm.signExtend 64; x.exl = false ∧ 0x40000 ≤ a.toNat ∧ (a.toNat < 0x10000000 ∨ 0x10400000 ≤ a.toNat)) ∧
    (∃ (e : EngId) (ga : GReg) (imm : BitVec 16) (s : State), s.dev.canIssue e ∧ let x := s.dev.e e; let a := x.r ga + imm.signExtend 64; x.exl = false ∧ ∃ n, x.task = false ∧ a.toNat % n ≠ 0 ∧ (a.toNat < 0x40000 ∨ (0x10000000 ≤ a.toNat ∧ a.toNat < 0x10400000))) :=
  ⟨⟨0, 31, 0xFFFF, st (engD 0 { runs with task := true, g := [(31, 0x10000)] }), ⟨by decide +kernel, by decide +kernel, by decide +kernel, by decide +kernel⟩, by decide +kernel, by decide +kernel, by decide +kernel⟩,
   ⟨0, 31, 0xFFFF, st (engD 0 { runs with task := true, g := [(31, 0x11001)] }), ⟨by decide +kernel, by decide +kernel, by decide +kernel, by decide +kernel⟩, by decide +kernel, by decide +kernel, by decide +kernel, by decide +kernel, by decide +kernel⟩,
   ⟨0, 31, 0xFFFF, st (engD 0 { runs with task := true, g := [(31, 0x10001001)] }), ⟨by decide +kernel, by decide +kernel, by decide +kernel, by decide +kernel⟩, by decide +kernel, by decide +kernel, by decide +kernel, by decide +kernel, by decide +kernel⟩,
   ⟨0, 31, 0xFFFF, st (engD 0 { runs with g := [(31, 0x10400001)] }), ⟨by decide +kernel, by decide +kernel, by decide +kernel, by decide +kernel⟩, by decide +kernel, by decide +kernel, by decide +kernel⟩,
   ⟨0, 31, 0xFFFF, st (engD 0 { runs with g := [(31, 0x10400000)] }), ⟨by decide +kernel, by decide +kernel, by decide +kernel, by decide +kernel⟩, by decide +kernel, 2, by decide +kernel, by decide +kernel, by decide +kernel⟩⟩

theorem witness_JumpResult :
    (∃ (e : EngId) (ga : GReg) (s : State), s.dev.canIssue e ∧ let x := s.dev.e e; GoodPc (x.r ga) ∧ x.r ga ≠ 0) ∧
    (∃ (e : EngId) (ga : GReg) (s : State), s.dev.canIssue e ∧ let x := s.dev.e e; ¬ GoodPc (x.r ga) ∧ x.exl = false ∧ x.r ga ≠ 0) ∧
    (∃ (e : EngId) (off : BitVec 26) (ga : GReg) (imm : BitVec 16) (s : State), s.dev.canIssue e ∧ let x := s.dev.e e; GoodPc (x.pc.setWidth 64 + 4 * off.signExtend 64) ∧ GoodPc (x.pc.setWidth 64 + 4 * imm.signExtend 64) ∧ x.r ga = 0) ∧
    (∃ (e : EngId) (off : BitVec 26) (ga : GReg) (imm : BitVec 16) (s : State), s.dev.canIssue e ∧ let x := s.dev.e e; ¬ GoodPc (x.pc.setWidth 64 + 4 * off.signExtend 64) ∧ ¬ GoodPc (x.pc.setWidth 64 + 4 * imm.signExtend 64) ∧ x.exl = false ∧ x.r ga = 0) :=
  ⟨⟨95, 31, st (engD 95 { runs with g := [(31, 0xFFFC)] }), ⟨by decide +kernel, by decide +kernel, by decide +kernel, by decide +kernel⟩, by decide +kernel, by decide +kernel⟩,
   ⟨95, 31, st (engD 95 { runs with g := [(31, 0x10000)] }), ⟨by decide +kernel, by decide +kernel, by decide +kernel, by decide +kernel⟩, by decide +kernel, by decide +kernel, by decide +kernel⟩,
   ⟨0, 0x3FFFFFF, 31, 0xFFFF, st (engD 0 { runs with pc := 4 }), ⟨by decide +kernel, by decide +kernel, by decide +kernel, by decide +kernel⟩, by decide +kernel, by decide +kernel, by decide +kernel⟩,
   ⟨0, 0x3FFFFFF, 31, 0xFFFF, st (engD 0 runs), ⟨by decide +kernel, by decide +kernel, by decide +kernel, by decide +kernel⟩, by decide +kernel, by decide +kernel, by decide +kernel, by decide +kernel⟩⟩

theorem witness_SystemResult_1 :
    (∃ (e : EngId) (s : State), s.dev.canIssue e ∧ let x := s.dev.e e; x.exl = false) ∧
    (∃ (e : EngId) (s : State), s.dev.canIssue e ∧ let x := s.dev.e e; x.exl = true) ∧
    (∃ (e : EngId) (s : State), s.dev.canIssue e ∧ let x := s.dev.e e; x.task = false ∧ ¬ GoodPc x.epc ∧ x.exl = false) ∧
    (∃ (e : EngId) (s : State), s.dev.canIssue e ∧ let x := s.dev.e e; x.task = false ∧ ¬ GoodPc x.epc ∧ x.exl = true) ∧
    (∃ (e : EngId) (s : State), s.dev.canIssue e ∧ let x := s.dev.e e; x.task = false ∧ GoodPc x.epc) ∧
    (∃ (e : EngId) (s : State), s.dev.canIssue e ∧ let x := s.dev.e e; x.task = false) ∧
    (∃ (e : EngId) (s : State), s.dev.canIssue e ∧ let x := s.dev.e e; x.task = true ∧ x.exl = false) ∧
    (∃ (e : EngId) (n : Fin 64) (s : State), s.dev.canIssue e ∧ let x := s.dev.e e; let There : Prop := n.val ∈ [0, 1, 2, 3, 4, 5, 6, 7, 9, 10, 11, 12, 13, 14, 16] ∨ (32 ≤ n.val ∧ n.val < 40) ∨ (n.val ∈ [40, 41, 42] ∧ 88 ≤ e.val); ¬ There ∧ x.exl = false) ∧
    (∃ (e : EngId) (n : Fin 64) (s : State), s.dev.canIssue e ∧ let x := s.dev.e e; let There : Prop := n.val ∈ [0, 1, 2, 3, 4, 5, 6, 7, 9, 10, 11, 12, 13, 14, 16] ∨ (32 ≤ n.val ∧ n.val < 40) ∨ (n.val ∈ [40, 41, 42] ∧ 88 ≤ e.val); ¬ There ∧ x.exl = false) :=
  ⟨⟨0, st (engD 0 runs), ⟨by decide +kernel, by decide +kernel, by decide +kernel, by decide +kernel⟩, (by first | decide +kernel | (dsimp only; decide +kernel))⟩,
   ⟨0, st (engD 0 { runs with exl := true }), ⟨by decide +kernel, by decide +kernel, by decide +kernel, by decide +kernel⟩, (by first | decide +kernel | (dsimp only; decide +kernel))⟩,
   ⟨0, st (engD 0 { runs with epc := 0x10000 }), ⟨by decide +kernel, by decide +kernel, by decide +kernel, by decide +kernel⟩, by decide +kernel, by decide +kernel, by decide +kernel⟩,
   ⟨0, st (engD 0 { runs with epc := 2, exl := true }), ⟨by decide +kernel, by decide +kernel, by decide +kernel, by decide +kernel⟩, by decide +kernel, by decide +kernel, by decide +kernel⟩,
   ⟨0, st (engD 0 { runs with epc := 0xFFFC }), ⟨by decide +kernel, by decide +kernel, by decide +kernel, by decide +kernel⟩, by decide +kernel, by decide +kernel⟩,
   ⟨0, st (engD 0 runs), ⟨by decide +kernel, by decide +kernel, by decide +kernel, by decide +kernel⟩, (by first | decide +kernel | (dsimp only; decide +kernel))⟩,
   ⟨0, st (engD 0 { runs with task := true }), ⟨by decide +kernel, by decide +kernel, by decide +kernel, by decide +kernel⟩, by decide +kernel, by decide +kernel⟩,
   ⟨95, 63, st (engD 95 runs), ⟨by decide +kernel, by decide +kernel, by decide +kernel, by decide +kernel⟩, by decide +kernel, by decide +kernel⟩,
   ⟨95, 8, st (engD 95 runs), ⟨by decide +kernel, by decide +kernel, by decide +kernel, by decide +kernel⟩, by decide +kernel, by decide +kernel⟩⟩

theorem witness_SystemResult_2 :
    (∃ (e : EngId) (n : Fin 64) (s : State), s.dev.canIssue e ∧ let x := s.dev.e e; let There : Prop := n.val ∈ [0, 1, 2, 3, 4, 5, 6, 7, 9, 10, 11, 12, 13, 14, 16] ∨ (32 ≤ n.val ∧ n.val < 40) ∨ (n.val ∈ [40, 41, 42] ∧ 88 ≤ e.val); let TaskReads : Prop := n.val ∈ [0, 1, 2, 9, 12, 16] ∨ (32 ≤ n.val ∧ n.val < 40); There ∧ x.task = true ∧ x.exl = false ∧ ¬ TaskReads) ∧
    (∃ (e : EngId) (n : Fin 64) (s : State), s.dev.canIssue e ∧ let x := s.dev.e e; let There : Prop := n.val ∈ [0, 1, 2, 3, 4, 5, 6, 7, 9, 10, 11, 12, 13, 14, 16] ∨ (32 ≤ n.val ∧ n.val < 40) ∨ (n.val ∈ [40, 41, 42] ∧ 88 ≤ e.val); let TaskWrites : Prop := n.val = 12 ∨ (32 ≤ n.val ∧ n.val < 40); There ∧ x.task = true ∧ x.exl = false ∧ ¬ TaskWrites) ∧
    (∃ (e : EngId) (n : Fin 64) (s : State), s.dev.canIssue e ∧ let x := s.dev.e e; let There : Prop := n.val ∈ [0, 1, 2, 3, 4, 5, 6, 7, 9, 10, 11, 12, 13, 14, 16] ∨ (32 ≤ n.val ∧ n.val < 40) ∨ (n.val ∈ [40, 41, 42] ∧ 88 ≤ e.val); let TaskReads : Prop := n.val ∈ [0, 1, 2, 9, 12, 16] ∨ (32 ≤ n.val ∧ n.val < 40); There ∧ (x.task = true → TaskReads) ∧ n.val = 0) ∧
    (∃ (e : EngId) (n : Fin 64) (s : State), s.dev.canIssue e ∧ let x := s.dev.e e; let There : Prop := n.val ∈ [0, 1, 2, 3, 4, 5, 6, 7, 9, 10, 11, 12, 13, 14, 16] ∨ (32 ≤ n.val ∧ n.val < 40) ∨ (n.val ∈ [40, 41, 42] ∧ 88 ≤ e.val); let TaskReads : Prop := n.val ∈ [0, 1, 2, 9, 12, 16] ∨ (32 ≤ n.val ∧ n.val < 40); There ∧ (x.task = true → TaskReads) ∧ n.val = 1) ∧
    (∃ (e : EngId) (n : Fin 64) (s : State), s.dev.canIssue e ∧ let x := s.dev.e e; let There : Prop := n.val ∈ [0, 1, 2, 3, 4, 5, 6, 7, 9, 10, 11, 12, 13, 14, 16] ∨ (32 ≤ n.val ∧ n.val < 40) ∨ (n.val ∈ [40, 41, 42] ∧ 88 ≤ e.val); let TaskReads : Prop := n.val ∈ [0, 1, 2, 9, 12, 16] ∨ (32 ≤ n.val ∧ n.val < 40); There ∧ (x.task = true → TaskReads) ∧ n.val = 2) ∧
    (∃ (e : EngId) (n : Fin 64) (s : State), s.dev.canIssue e ∧ let x := s.dev.e e; let There : Prop := n.val ∈ [0, 1, 2, 3, 4, 5, 6, 7, 9, 10, 11, 12, 13, 14, 16] ∨ (32 ≤ n.val ∧ n.val < 40) ∨ (n.val ∈ [40, 41, 42] ∧ 88 ≤ e.val); let TaskReads : Prop := n.val ∈ [0, 1, 2, 9, 12, 16] ∨ (32 ≤ n.val ∧ n.val < 40); There ∧ (x.task = true → TaskReads) ∧ n.val = 3) ∧
    (∃ (e : EngId) (n : Fin 64) (s : State), s.dev.canIssue e ∧ let x := s.dev.e e; let There : Prop := n.val ∈ [0, 1, 2, 3, 4, 5, 6, 7, 9, 10, 11, 12, 13, 14, 16] ∨ (32 ≤ n.val ∧ n.val < 40) ∨ (n.val ∈ [40, 41, 42] ∧ 88 ≤ e.val); let TaskReads : Prop := n.val ∈ [0, 1, 2, 9, 12, 16] ∨ (32 ≤ n.val ∧ n.val < 40); There ∧ (x.task = true → TaskReads) ∧ n.val = 4) ∧
    (∃ (e : EngId) (n : Fin 64) (s : State), s.dev.canIssue e ∧ let x := s.dev.e e; let There : Prop := n.val ∈ [0, 1, 2, 3, 4, 5, 6, 7, 9, 10, 11, 12, 13, 14, 16] ∨ (32 ≤ n.val ∧ n.val < 40) ∨ (n.val ∈ [40, 41, 42] ∧ 88 ≤ e.val); let TaskReads : Prop := n.val ∈ [0, 1, 2, 9, 12, 16] ∨ (32 ≤ n.val ∧ n.val < 40); There ∧ (x.task = true → TaskReads) ∧ n.val = 5) ∧
    (∃ (e : EngId) (n : Fin 64) (s : State), s.dev.canIssue e ∧ let x := s.dev.e e; let There : Prop := n.val ∈ [0, 1, 2, 3, 4, 5, 6, 7, 9, 10, 11, 12, 13, 14, 16] ∨ (32 ≤ n.val ∧ n.val < 40) ∨ (n.val ∈ [40, 41, 42] ∧ 88 ≤ e.val); let TaskReads : Prop := n.val ∈ [0, 1, 2, 9, 12, 16] ∨ (32 ≤ n.val ∧ n.val < 40); There ∧ (x.task = true → TaskReads) ∧ n.val = 6) :=
  ⟨⟨0, 3, st (engD 0 { runs with task := true }), ⟨by decide +kernel, by decide +kernel, by decide +kernel, by decide +kernel⟩, by decide +kernel, by decide +kernel, by decide +kernel, by decide +kernel⟩,
   ⟨0, 14, st (engD 0 { runs with task := true }), ⟨by decide +kernel, by decide +kernel, by decide +kernel, by decide +kernel⟩, by decide +kernel, by decide +kernel, by decide +kernel, by decide +kernel⟩,
   ⟨0, 0, st (engD 0 { runs with task := true }), ⟨by decide +kernel, by decide +kernel, by decide +kernel, by decide +kernel⟩, by decide +kernel, by decide +kernel, by decide +kernel⟩,
   ⟨95, 1, st (engD 95 runs), ⟨by decide +kernel, by decide +kernel, by decide +kernel, by decide +kernel⟩, by decide +kernel, by decide +kernel, by decide +kernel⟩,
   ⟨0, 2, st (engD 0 { runs with task := true }), ⟨by decide +kernel, by decide +kernel, by decide +kernel, by decide +kernel⟩, by decide +kernel, by decide +kernel, by decide +kernel⟩,
   ⟨95, 3, st (engD 95 runs), ⟨by decide +kernel, by decide +kernel, by decide +kernel, by decide +kernel⟩, by decide +kernel, by decide +kernel, by decide +kernel⟩,
   ⟨95, 4, st (engD 95 runs), ⟨by decide +kernel, by decide +kernel, by decide +kernel, by decide +kernel⟩, by decide +kernel, by decide +kernel, by decide +kernel⟩,
   ⟨95, 5, st (engD 95 runs), ⟨by decide +kernel, by decide +kernel, by decide +kernel, by decide +kernel⟩, by decide +kernel, by decide +kernel, by decide +kernel⟩,
   ⟨95, 6, st (engD 95 runs), ⟨by decide +kernel, by decide +kernel, by decide +kernel, by decide +kernel⟩, by decide +kernel, by decide +kernel, by decide +kernel⟩⟩

theorem witness_SystemResult_3 :
    (∃ (e : EngId) (n : Fin 64) (s : State), s.dev.canIssue e ∧ let x := s.dev.e e; let There : Prop := n.val ∈ [0, 1, 2, 3, 4, 5, 6, 7, 9, 10, 11, 12, 13, 14, 16] ∨ (32 ≤ n.val ∧ n.val < 40) ∨ (n.val ∈ [40, 41, 42] ∧ 88 ≤ e.val); let TaskReads : Prop := n.val ∈ [0, 1, 2, 9, 12, 16] ∨ (32 ≤ n.val ∧ n.val < 40); There ∧ (x.task = true → TaskReads) ∧ n.val = 7) ∧
    (∃ (e : EngId) (n : Fin 64) (s : State), s.dev.canIssue e ∧ let x := s.dev.e e; let There : Prop := n.val ∈ [0, 1, 2, 3, 4, 5, 6, 7, 9, 10, 11, 12, 13, 14, 16] ∨ (32 ≤ n.val ∧ n.val < 40) ∨ (n.val ∈ [40, 41, 42] ∧ 88 ≤ e.val); let TaskReads : Prop := n.val ∈ [0, 1, 2, 9, 12, 16] ∨ (32 ≤ n.val ∧ n.val < 40); There ∧ (x.task = true → TaskReads) ∧ n.val = 9) ∧
    (∃ (e : EngId) (n : Fin 64) (s : State), s.dev.canIssue e ∧ let x := s.dev.e e; let There : Prop := n.val ∈ [0, 1, 2, 3, 4, 5, 6, 7, 9, 10, 11, 12, 13, 14, 16] ∨ (32 ≤ n.val ∧ n.val < 40) ∨ (n.val ∈ [40, 41, 42] ∧ 88 ≤ e.val); let TaskReads : Prop := n.val ∈ [0, 1, 2, 9, 12, 16] ∨ (32 ≤ n.val ∧ n.val < 40); There ∧ (x.task = true → TaskReads) ∧ n.val = 10) ∧
    (∃ (e : EngId) (n : Fin 64) (s : State), s.dev.canIssue e ∧ let x := s.dev.e e; let There : Prop := n.val ∈ [0, 1, 2, 3, 4, 5, 6, 7, 9, 10, 11, 12, 13, 14, 16] ∨ (32 ≤ n.val ∧ n.val < 40) ∨ (n.val ∈ [40, 41, 42] ∧ 88 ≤ e.val); let TaskReads : Prop := n.val ∈ [0, 1, 2, 9, 12, 16] ∨ (32 ≤ n.val ∧ n.val < 40); There ∧ (x.task = true → TaskReads) ∧ n.val = 11) ∧
    (∃ (e : EngId) (n : Fin 64) (s : State), s.dev.canIssue e ∧ let x := s.dev.e e; let There : Prop := n.val ∈ [0, 1, 2, 3, 4, 5, 6, 7, 9, 10, 11, 12, 13, 14, 16] ∨ (32 ≤ n.val ∧ n.val < 40) ∨ (n.val ∈ [40, 41, 42] ∧ 88 ≤ e.val); let TaskReads : Prop := n.val ∈ [0, 1, 2, 9, 12, 16] ∨ (32 ≤ n.val ∧ n.val < 40); There ∧ (x.task = true → TaskReads) ∧ (n.val = 12 ∨ n.val = 41)) ∧
    (∃ (e : EngId) (n : Fin 64) (s : State), s.dev.canIssue e ∧ let x := s.dev.e e; let There : Prop := n.val ∈ [0, 1, 2, 3, 4, 5, 6, 7, 9, 10, 11, 12, 13, 14, 16] ∨ (32 ≤ n.val ∧ n.val < 40) ∨ (n.val ∈ [40, 41, 42] ∧ 88 ≤ e.val); let TaskReads : Prop := n.val ∈ [0, 1, 2, 9, 12, 16] ∨ (32 ≤ n.val ∧ n.val < 40); There ∧ (x.task = true → TaskReads) ∧ n.val = 13) ∧
    (∃ (e : EngId) (n : Fin 64) (s : State), s.dev.canIssue e ∧ let x := s.dev.e e; let There : Prop := n.val ∈ [0, 1, 2, 3, 4, 5, 6, 7, 9, 10, 11, 12, 13, 14, 16] ∨ (32 ≤ n.val ∧ n.val < 40) ∨ (n.val ∈ [40, 41, 42] ∧ 88 ≤ e.val); let TaskReads : Prop := n.val ∈ [0, 1, 2, 9, 12, 16] ∨ (32 ≤ n.val ∧ n.val < 40); There ∧ (x.task = true → TaskReads) ∧ n.val = 14) ∧
    (∃ (e : EngId) (n : Fin 64) (s : State), s.dev.canIssue e ∧ let x := s.dev.e e; let There : Prop := n.val ∈ [0, 1, 2, 3, 4, 5, 6, 7, 9, 10, 11, 12, 13, 14, 16] ∨ (32 ≤ n.val ∧ n.val < 40) ∨ (n.val ∈ [40, 41, 42] ∧ 88 ≤ e.val); let TaskReads : Prop := n.val ∈ [0, 1, 2, 9, 12, 16] ∨ (32 ≤ n.val ∧ n.val < 40); There ∧ (x.task = true → TaskReads) ∧ n.val = 16) ∧
    (∃ (e : EngId) (n : Fin 64) (s : State), s.dev.canIssue e ∧ let x := s.dev.e e; let There : Prop := n.val ∈ [0, 1, 2, 3, 4, 5, 6, 7, 9, 10, 11, 12, 13, 14, 16] ∨ (32 ≤ n.val ∧ n.val < 40) ∨ (n.val ∈ [40, 41, 42] ∧ 88 ≤ e.val); let TaskReads : Prop := n.val ∈ [0, 1, 2, 9, 12, 16] ∨ (32 ≤ n.val ∧ n.val < 40); There ∧ (x.task = true → TaskReads) ∧ 32 ≤ n.val ∧ n.val < 40) :=
  ⟨⟨95, 7, st (engD 95 runs), ⟨by decide +kernel, by decide +kernel, by decide +kernel, by decide +kernel⟩, by decide +kernel, by decide +kernel, by decide +kernel⟩,
   ⟨0, 9, st (engD 0 { runs with task := true }), ⟨by decide +kernel, by decide +kernel, by decide +kernel, by decide +kernel⟩, by decide +kernel, by decide +kernel, by decide +kernel⟩,
   ⟨95, 10, st (engD 95 runs), ⟨by decide +kernel, by decide +kernel, by decide +kernel, by decide +kernel⟩, by decide +kernel, by decide +kernel, by decide +kernel⟩,
   ⟨95, 11, st (engD 95 runs), ⟨by decide +kernel, by decide +kernel, by decide +kernel, by decide +kernel⟩, by decide +kernel, by decide +kernel, by decide +kernel⟩,
   ⟨95, 41, st (engD 95 runs), ⟨by decide +kernel, by decide +kernel, by decide +kernel, by decide +kernel⟩, by decide +kernel, by decide +kernel, by decide +kernel⟩,
   ⟨95, 13, st (engD 95 runs), ⟨by decide +kernel, by decide +kernel, by decide +kernel, by decide +kernel⟩, by decide +kernel, by decide +kernel, by decide +kernel⟩,
   ⟨95, 14, st (engD 95 runs), ⟨by decide +kernel, by decide +kernel, by decide +kernel, by decide +kernel⟩, by decide +kernel, by decide +kernel, by decide +kernel⟩,
   ⟨0, 16, st (engD 0 { runs with task := true }), ⟨by decide +kernel, by decide +kernel, by decide +kernel, by decide +kernel⟩, by decide +kernel, by decide +kernel, by decide +kernel⟩,
   ⟨0, 39, st (engD 0 { runs with task := true }), ⟨by decide +kernel, by decide +kernel, by decide +kernel, by decide +kernel⟩, by decide +kernel, by decide +kernel, by decide +kernel, by decide +kernel⟩⟩

theorem witness_SystemResult_4 :
    (∃ (e : EngId) (n : Fin 64) (s : State), s.dev.canIssue e ∧ let x := s.dev.e e; let There : Prop := n.val ∈ [0, 1, 2, 3, 4, 5, 6, 7, 9, 10, 11, 12, 13, 14, 16] ∨ (32 ≤ n.val ∧ n.val < 40) ∨ (n.val ∈ [40, 41, 42] ∧ 88 ≤ e.val); let TaskReads : Prop := n.val ∈ [0, 1, 2, 9, 12, 16] ∨ (32 ≤ n.val ∧ n.val < 40); There ∧ (x.task = true → TaskReads) ∧ n.val = 40) ∧
    (∃ (e : EngId) (n : Fin 64) (s : State), s.dev.canIssue e ∧ let x := s.dev.e e; let There : Prop := n.val ∈ [0, 1, 2, 3, 4, 5, 6, 7, 9, 10, 11, 12, 13, 14, 16] ∨ (32 ≤ n.val ∧ n.val < 40) ∨ (n.val ∈ [40, 41, 42] ∧ 88 ≤ e.val); let TaskReads : Prop := n.val ∈ [0, 1, 2, 9, 12, 16] ∨ (32 ≤ n.val ∧ n.val < 40); There ∧ (x.task = true → TaskReads) ∧ n.val = 42) ∧
    (∃ (e : EngId) (n : Fin 64) (s : State), s.dev.canIssue e ∧ let x := s.dev.e e; let There : Prop := n.val ∈ [0, 1, 2, 3, 4, 5, 6, 7, 9, 10, 11, 12, 13, 14, 16] ∨ (32 ≤ n.val ∧ n.val < 40) ∨ (n.val ∈ [40, 41, 42] ∧ 88 ≤ e.val); let TaskWrites : Prop := n.val = 12 ∨ (32 ≤ n.val ∧ n.val < 40); There ∧ (x.task = true → TaskWrites)) ∧
    (∃ (e : EngId) (n : Fin 64) (s : State), s.dev.canIssue e ∧ let x := s.dev.e e; let There : Prop := n.val ∈ [0, 1, 2, 3, 4, 5, 6, 7, 9, 10, 11, 12, 13, 14, 16] ∨ (32 ≤ n.val ∧ n.val < 40) ∨ (n.val ∈ [40, 41, 42] ∧ 88 ≤ e.val); let TaskWrites : Prop := n.val = 12 ∨ (32 ≤ n.val ∧ n.val < 40); There ∧ (x.task = true → TaskWrites) ∧ n.val = 2) ∧
    (∃ (e : EngId) (n : Fin 64) (s : State), s.dev.canIssue e ∧ let x := s.dev.e e; let There : Prop := n.val ∈ [0, 1, 2, 3, 4, 5, 6, 7, 9, 10, 11, 12, 13, 14, 16] ∨ (32 ≤ n.val ∧ n.val < 40) ∨ (n.val ∈ [40, 41, 42] ∧ 88 ≤ e.val); let TaskWrites : Prop := n.val = 12 ∨ (32 ≤ n.val ∧ n.val < 40); There ∧ (x.task = true → TaskWrites) ∧ n.val = 3) ∧
    (∃ (e : EngId) (n : Fin 64) (s : State), s.dev.canIssue e ∧ let x := s.dev.e e; let There : Prop := n.val ∈ [0, 1, 2, 3, 4, 5, 6, 7, 9, 10, 11, 12, 13, 14, 16] ∨ (32 ≤ n.val ∧ n.val < 40) ∨ (n.val ∈ [40, 41, 42] ∧ 88 ≤ e.val); let TaskWrites : Prop := n.val = 12 ∨ (32 ≤ n.val ∧ n.val < 40); There ∧ (x.task = true → TaskWrites) ∧ n.val = 4) ∧
    (∃ (e : EngId) (n : Fin 64) (s : State), s.dev.canIssue e ∧ let x := s.dev.e e; let There : Prop := n.val ∈ [0, 1, 2, 3, 4, 5, 6, 7, 9, 10, 11, 12, 13, 14, 16] ∨ (32 ≤ n.val ∧ n.val < 40) ∨ (n.val ∈ [40, 41, 42] ∧ 88 ≤ e.val); let TaskWrites : Prop := n.val = 12 ∨ (32 ≤ n.val ∧ n.val < 40); There ∧ (x.task = true → TaskWrites) ∧ n.val = 7) ∧
    (∃ (e : EngId) (n : Fin 64) (s : State), s.dev.canIssue e ∧ let x := s.dev.e e; let There : Prop := n.val ∈ [0, 1, 2, 3, 4, 5, 6, 7, 9, 10, 11, 12, 13, 14, 16] ∨ (32 ≤ n.val ∧ n.val < 40) ∨ (n.val ∈ [40, 41, 42] ∧ 88 ≤ e.val); let TaskWrites : Prop := n.val = 12 ∨ (32 ≤ n.val ∧ n.val < 40); There ∧ (x.task = true → TaskWrites) ∧ n.val = 10) ∧
    (∃ (e : EngId) (n : Fin 64) (s : State), s.dev.canIssue e ∧ let x := s.dev.e e; let There : Prop := n.val ∈ [0, 1, 2, 3, 4, 5, 6, 7, 9, 10, 11, 12, 13, 14, 16] ∨ (32 ≤ n.val ∧ n.val < 40) ∨ (n.val ∈ [40, 41, 42] ∧ 88 ≤ e.val); let TaskWrites : Prop := n.val = 12 ∨ (32 ≤ n.val ∧ n.val < 40); There ∧ (x.task = true → TaskWrites) ∧ n.val = 11) :=
  ⟨⟨88, 40, st (engD 88 runs), ⟨by decide +kernel, by decide +kernel, by decide +kernel, by decide +kernel⟩, by decide +kernel, by decide +kernel, by decide +kernel⟩,
   ⟨95, 42, st (engD 95 runs), ⟨by decide +kernel, by decide +kernel, by decide +kernel, by decide +kernel⟩, by decide +kernel, by decide +kernel, by decide +kernel⟩,
   ⟨95, 0, st (engD 95 runs), ⟨by decide +kernel, by decide +kernel, by decide +kernel, by decide +kernel⟩, by decide +kernel, by decide +kernel⟩,
   ⟨95, 2, st (engD 95 runs), ⟨by decide +kernel, by decide +kernel, by decide +kernel, by decide +kernel⟩, by decide +kernel, by decide +kernel, by decide +kernel⟩,
   ⟨95, 3, st (engD 95 runs), ⟨by decide +kernel, by decide +kernel, by decide +kernel, by decide +kernel⟩, by decide +kernel, by decide +kernel, by decide +kernel⟩,
   ⟨95, 4, st (engD 95 runs), ⟨by decide +kernel, by decide +kernel, by decide +kernel, by decide +kernel⟩, by decide +kernel, by decide +kernel, by decide +kernel⟩,
   ⟨95, 7, st (engD 95 runs), ⟨by decide +kernel, by decide +kernel, by decide +kernel, by decide +kernel⟩, by decide +kernel, by decide +kernel, by decide +kernel⟩,
   ⟨95, 10, st (engD 95 runs), ⟨by decide +kernel, by decide +kernel, by decide +kernel, by decide +kernel⟩, by decide +kernel, by decide +kernel, by decide +kernel⟩,
   ⟨95, 11, st (engD 95 runs), ⟨by decide +kernel, by decide +kernel, by decide +kernel, by decide +kernel⟩, by decide +kernel, by decide +kernel, by decide +kernel⟩⟩

theorem witness_SystemResult_5 :
    (∃ (e : EngId) (n : Fin 64) (s : State), s.dev.canIssue e ∧ let x := s.dev.e e; let There : Prop := n.val ∈ [0, 1, 2, 3, 4, 5, 6, 7, 9, 10, 11, 12, 13, 14, 16] ∨ (32 ≤ n.val ∧ n.val < 40) ∨ (n.val ∈ [40, 41, 42] ∧ 88 ≤ e.val); let TaskWrites : Prop := n.val = 12 ∨ (32 ≤ n.val ∧ n.val < 40); There ∧ (x.task = true → TaskWrites) ∧ n.val = 12) ∧
    (∃ (e : EngId) (n : Fin 64) (s : State), s.dev.canIssue e ∧ let x := s.dev.e e; let There : Prop := n.val ∈ [0, 1, 2, 3, 4, 5, 6, 7, 9, 10, 11, 12, 13, 14, 16] ∨ (32 ≤ n.val ∧ n.val < 40) ∨ (n.val ∈ [40, 41, 42] ∧ 88 ≤ e.val); let TaskWrites : Prop := n.val = 12 ∨ (32 ≤ n.val ∧ n.val < 40); There ∧ (x.task = true → TaskWrites) ∧ n.val = 13) ∧
    (∃ (e : EngId) (n : Fin 64) (s : State), s.dev.canIssue e ∧ let x := s.dev.e e; let There : Prop := n.val ∈ [0, 1, 2, 3, 4, 5, 6, 7, 9, 10, 11, 12, 13, 14, 16] ∨ (32 ≤ n.val ∧ n.val < 40) ∨ (n.val ∈ [40, 41, 42] ∧ 88 ≤ e.val); let TaskWrites : Prop := n.val = 12 ∨ (32 ≤ n.val ∧ n.val < 40); There ∧ (x.task = true → TaskWrites) ∧ n.val = 14) ∧
    (∃ (e : EngId) (n : Fin 64) (s : State), s.dev.canIssue e ∧ let x := s.dev.e e; let There : Prop := n.val ∈ [0, 1, 2, 3, 4, 5, 6, 7, 9, 10, 11, 12, 13, 14, 16] ∨ (32 ≤ n.val ∧ n.val < 40) ∨ (n.val ∈ [40, 41, 42] ∧ 88 ≤ e.val); let TaskWrites : Prop := n.val = 12 ∨ (32 ≤ n.val ∧ n.val < 40); There ∧ (x.task = true → TaskWrites) ∧ 32 ≤ n.val ∧ n.val < 40) ∧
    (∃ (e : EngId) (n : Fin 64) (s : State), s.dev.canIssue e ∧ let x := s.dev.e e; let There : Prop := n.val ∈ [0, 1, 2, 3, 4, 5, 6, 7, 9, 10, 11, 12, 13, 14, 16] ∨ (32 ≤ n.val ∧ n.val < 40) ∨ (n.val ∈ [40, 41, 42] ∧ 88 ≤ e.val); let TaskWrites : Prop := n.val = 12 ∨ (32 ≤ n.val ∧ n.val < 40); There ∧ (x.task = true → TaskWrites) ∧ n.val = 41) :=
  ⟨⟨0, 12, st (engD 0 { runs with task := true }), ⟨by decide +kernel, by decide +kernel, by decide +kernel, by decide +kernel⟩, by decide +kernel, by decide +kernel, by decide +kernel⟩,
   ⟨95, 13, st (engD 95 runs), ⟨by decide +kernel, by decide +kernel, by decide +kernel, by decide +kernel⟩, by decide +kernel, by decide +kernel, by decide +kernel⟩,
   ⟨95, 14, st (engD 95 runs), ⟨by decide +kernel, by decide +kernel, by decide +kernel, by decide +kernel⟩, by decide +kernel, by decide +kernel, by decide +kernel⟩,
   ⟨0, 32, st (engD 0 { runs with task := true }), ⟨by decide +kernel, by decide +kernel, by decide +kernel, by decide +kernel⟩, by decide +kernel, by decide +kernel, by decide +kernel, by decide +kernel⟩,
   ⟨88, 41, st (engD 88 runs), ⟨by decide +kernel, by decide +kernel, by decide +kernel, by decide +kernel⟩, by decide +kernel, by decide +kernel, by decide +kernel⟩⟩

theorem witness_ExceptionEntry :
    (∃ (e : EngId) (w : BitVec 32) (s : State), let x := s.dev.e e; s.dev.canIssue e ∧ nelocRun e w.toNat = none ∧ x.exl = false) ∧
    (∃ (e : EngId) (s : State), let x := s.dev.e e; x.st = .running ∧ s.dev.clAwake e = true ∧ s.dev.entryDue e = none ∧ 0xFFFC < x.pc.toNat ∧ x.exl = false) ∧
    (∃ (e : EngId) (s : State), let x := s.dev.e e; x.st = .running ∧ s.dev.clAwake e = true ∧ s.dev.entryDue e = none ∧ x.pc.toNat ≤ 0xFFFC ∧ (s.dev.readWord .loc (e / 8) (e % 8) (x.pc.toNat / 8)).2.1 = true ∧ x.exl = false) ∧
    (∃ (e : EngId) (w : BitVec 32) (s : State), let x := s.dev.e e; s.dev.canIssue e ∧ nelocRun e w.toNat = none ∧ x.exl = true) :=
  ⟨⟨95, 0xFFFFFFFF, st (engD 95 runs), ⟨by decide +kernel, by decide +kernel, by decide +kernel, by decide +kernel⟩, rfl, by decide +kernel⟩,
   ⟨95, st (engD 95 { runs with pc := 0x10000 }), by decide +kernel, by decide +kernel, by decide +kernel, by decide +kernel, by decide +kernel⟩,
   ⟨95, st { engD 95 { runs with pc := 0xFFF8 } with locS := { synd := [(32768 * 95 + 8191, 3)] } }, by decide +kernel, by decide +kernel, by decide +kernel, by decide +kernel, by decide +kernel, by decide +kernel⟩,
   ⟨95, 0xFFFFFFFF, st (engD 95 { runs with exl := true }), ⟨by decide +kernel, by decide +kernel, by decide +kernel, by decide +kernel⟩, rfl, by decide +kernel⟩⟩

theorem witness_EngineEvents :
    (∃ (e : EngId) (s : State), let x := s.dev.e e; let i := s.dev.issueAt e; 88 ≤ e.val ∧ (x.st = .running ∨ x.st = .waiting) ∧ s.dev.clAwake e = true ∧ x.ie = true ∧ x.exl = false ∧ s.dev.line (e - 88) = true ∧ (x.wdogEn = true → i < x.wdogStart + 2 ^ x.wdogExp)) ∧
    (∃ (e : EngId) (s : State), let x := s.dev.e e; (x.st = .running ∨ x.st = .waiting) ∧ s.dev.clAwake e = true ∧ x.wdogEn = true ∧ x.wdogMissed = false ∧ x.exl = false) ∧
    (∃ (e : EngId) (s : State), let x := s.dev.e e; (x.st = .running ∨ x.st = .waiting) ∧ s.dev.clAwake e = true ∧ x.wdogEn = true ∧ x.wdogMissed = true) ∧
    (∃ (e : EngId) (s : State), let x := s.dev.e e; ∃ n, x.timerAt = some n ∧ s.dev.clAwake e = true) ∧
    (∃ (e : EngId) (ga : GReg) (s : State), let x := s.dev.e e; let i := s.dev.issueAt e; s.dev.canIssue e ∧ let v := s.dev.evpend e i &&& x.r ga; v ≠ 0) ∧
    (∃ (e : EngId) (ga : GReg) (s : State), let x := s.dev.e e; let i := s.dev.issueAt e; s.dev.canIssue e ∧ let v := s.dev.evpend e i &&& x.r ga; v = 0) ∧
    (∃ (e : EngId) (gd : GReg) (s : State), let x := s.dev.e e; let i := s.dev.issueAt e; ∃ (m : DWord), x.st = .waiting ∧ x.wait = some (.event gd m) ∧ s.dev.clAwake e = true ∧ s.dev.entryDue e = none ∧ s.dev.evpend e i &&& m ≠ 0) :=
  ⟨⟨95, st (((((engD 95 { runs with ie := true }).set (R.SWPEND.SW 15) 0x80000000).set (R.TGT_EN.EN 7 15) 0x80000000).setReg (A.PRIO 63) 0x70000000).set (R.THRESH.THR 7) 6), by decide +kernel, by decide +kernel, by decide +kernel, by decide +kernel, by decide +kernel, by decide +kernel, by decide +kernel⟩,
   ⟨95, st (engD 95 { runs with st := .waiting }), by decide +kernel, by decide +kernel, by decide +kernel, by decide +kernel, by decide +kernel⟩,
   ⟨95, st (engD 95 { runs with wdogMissed := true }), by decide +kernel, by decide +kernel, by decide +kernel, by decide +kernel⟩,
   ⟨95, st (engD 95 { runs with timerAt := some 0 }), 0, by decide +kernel, by decide +kernel⟩,
   ⟨95, 31, st (engD 95 { runs with g := [(31, 0xFFFFFFFFFFFFFFFF)], timerExp := true }), ⟨by decide +kernel, by decide +kernel, by decide +kernel, by decide +kernel⟩, (by first | decide +kernel | (dsimp only; decide +kernel))⟩,
   ⟨95, 31, st (engD 95 { runs with g := [(31, 0)] }), ⟨by decide +kernel, by decide +kernel, by decide +kernel, by decide +kernel⟩, (by first | decide +kernel | (dsimp only; decide +kernel))⟩,
   ⟨95, 0, st (engD 95 { st := .waiting, wait := some (.event 0 0xFFFFFFFFFFFFFFFF), timerExp := true }), 0xFFFFFFFFFFFFFFFF, by decide +kernel, by decide +kernel, by decide +kernel, by decide +kernel, by decide +kernel⟩⟩

theorem witness_ChannelSend :
    (∃ (e : EngId) (ch : Fin 1024) (cmd : Fin 64) (s : State), s.dev.canIssue e ∧ ch.val < 8 ∧ cmd.val = 0 ∧ let m := 8 * (e.val / 8) + ch.val; let k := ((s.dev.e m).mbox.filter (·.chan == e.val % 8)).length; k < 8) ∧
    (∃ (e : EngId) (ch : Fin 1024) (cmd : Fin 64) (s : State), s.dev.canIssue e ∧ ch.val < 8 ∧ cmd.val = 0 ∧ let m := 8 * (e.val / 8) + ch.val; let k := ((s.dev.e m).mbox.filter (·.chan == e.val % 8)).length; 8 ≤ k) ∧
    (∃ (e : EngId) (ch : Fin 1024) (cmd : Fin 64) (s : State), s.dev.canIssue e ∧ let x := s.dev.e e; 8 ≤ ch.val ∧ chanFault x e ch cmd false = none ∧ let k := (x.reqs.filter (·.chan == ch.val)).length + (x.replies.filter (·.chan == ch.val)).length; k < 8) ∧
    (∃ (e : EngId) (ch : Fin 1024) (cmd : Fin 64) (s : State), s.dev.canIssue e ∧ let x := s.dev.e e; 8 ≤ ch.val ∧ chanFault x e ch cmd false = none ∧ let k := (x.reqs.filter (·.chan == ch.val)).length + (x.replies.filter (·.chan == ch.val)).length; 8 ≤ k) ∧
    (∃ (e : EngId) (ch : Fin 1024) (cmd : Fin 64) (s : State), s.dev.canIssue e ∧ let x := s.dev.e e; x.exl = false ∧ ∃ f, chanFault x e ch cmd false = some f) ∧
    (∃ (e : EngId) (s : State), s.dev.canIssue e ∧ let x := s.dev.e e; x.task = false) ∧
    (∃ (e : EngId) (ch : Fin 1024) (s : State), s.dev.canIssue e ∧ 8 ≤ ch.val ∧ ch.val < 16) ∧
    (∃ (e : EngId) (ch : Fin 1024) (s : State), s.dev.canIssue e ∧ let x := s.dev.e e; x.task = true ∧ 8 ≤ ch.val ∧ ch.val ∉ [0x10, 0x11, 0x12, 0x14]) ∧
    (∃ (e : EngId) (o : Oct) (ch : Fin 1024) (cmd : Fin 64) (s : State), s.dev.canIssue e ∧ 88 ≤ e.val ∧ (s.dev.e e).task = false ∧ cmd.val = 1 ∧ ∃ (k : Nat), k ∈ [0, 1, 2, 4] ∧ ch.val = 0x100 + 8 * o + k) :=
  ⟨⟨95, 7, 0, st (engD 95 { runs with mbox := List.replicate 7 ⟨7, 0, false, 0⟩ }), ⟨by decide +kernel, by decide +kernel, by decide +kernel, by decide +kernel⟩, by decide +kernel, by decide +kernel, (by first | decide +kernel | (dsimp only; decide +kernel))⟩,
   ⟨95, 7, 0, st (engD 95 { runs with mbox := List.replicate 8 ⟨7, 0, false, 0⟩ }), ⟨by decide +kernel, by decide +kernel, by decide +kernel, by decide +kernel⟩, by decide +kernel, by decide +kernel, (by first | decide +kernel | (dsimp only; decide +kernel))⟩,
   ⟨95, 0x14, 0, st (engD 95 { runs with replies := List.replicate 7 ⟨0x14, 0, false, 0⟩ }), ⟨by decide +kernel, by decide +kernel, by decide +kernel, by decide +kernel⟩, by decide +kernel, by decide +kernel, (by first | decide +kernel | (dsimp only; decide +kernel))⟩,
   ⟨95, 0x14, 0, st (engD 95 { runs with replies := List.replicate 8 ⟨0x14, 0, false, 0⟩ }), ⟨by decide +kernel, by decide +kernel, by decide +kernel, by decide +kernel⟩, by decide +kernel, by decide +kernel, (by first | decide +kernel | (dsimp only; decide +kernel))⟩,
   ⟨95, 15, 0, st (engD 95 runs), ⟨by decide +kernel, by decide +kernel, by decide +kernel, by decide +kernel⟩, by decide +kernel, (4, 1, 15), by decide +kernel⟩,
   ⟨95, st (engD 95 runs), ⟨by decide +kernel, by decide +kernel, by decide +kernel, by decide +kernel⟩, (by first | decide +kernel | (dsimp only; decide +kernel))⟩,
   ⟨95, 15, st (engD 95 runs), ⟨by decide +kernel, by decide +kernel, by decide +kernel, by decide +kernel⟩, by decide +kernel, by decide +kernel⟩,
   ⟨0, 0x13, st (engD 0 { runs with task := true }), ⟨by decide +kernel, by decide +kernel, by decide +kernel, by decide +kernel⟩, by decide +kernel, by decide +kernel, by decide +kernel⟩,
   ⟨95, 31, 0x1FC, 1, st (engD 95 runs), ⟨by decide +kernel, by decide +kernel, by decide +kernel, by decide +kernel⟩, by decide +kernel, by decide +kernel, by decide +kernel, 4, by decide +kernel, by decide +kernel⟩⟩

theorem witness_ChannelReceive :
    (∃ (e : EngId) (ch : Fin 1024) (s : State), let x := s.dev.e e; let i := s.dev.issueAt e; let k := ch.val - 0x100; s.dev.canIssue e ∧ chanFault x e ch 0 true = none ∧ (octNotice ch = true → s.dev.holder (k / 8) (k % 8) = none ∨ s.dev.holder (k / 8) (k % 8) = some (e.val - 88)) ∧ ∃ w rest, x.wordsOn ch i = w :: rest) ∧
    (∃ (e : EngId) (ch : Fin 1024) (s : State), let x := s.dev.e e; let i := s.dev.issueAt e; let k := ch.val - 0x100; s.dev.canIssue e ∧ chanFault x e ch 0 true = none ∧ (octNotice ch = true → s.dev.holder (k / 8) (k % 8) = none ∨ s.dev.holder (k / 8) (k % 8) = some (e.val - 88)) ∧ x.wordsOn ch i = [] ∧ (s.dev.get (R.CL_MODE.MODE (e / 8)) = 0 ∨ (chanKind ch = .request ∧ (x.reqs.filter (·.chan == ch.val)) = [] ∧ (x.replies.filter (·.chan == ch.val)) = []))) ∧
    (∃ (e : EngId) (ch : Fin 1024) (s : State), let x := s.dev.e e; let i := s.dev.issueAt e; let k := ch.val - 0x100; s.dev.canIssue e ∧ chanFault x e ch 0 true = none ∧ (octNotice ch = true → s.dev.holder (k / 8) (k % 8) = none ∨ s.dev.holder (k / 8) (k % 8) = some (e.val - 88)) ∧ x.wordsOn ch i = [] ∧ s.dev.get (R.CL_MODE.MODE (e / 8)) ≠ 0 ∧ (chanKind ch = .request → (x.reqs.filter (·.chan == ch.val)) ≠ [] ∨ (x.replies.filter (·.chan == ch.val)) ≠ [])) ∧
    (∃ (e : EngId) (ch : Fin 1024) (s : State), let x := s.dev.e e; let k := ch.val - 0x100; s.dev.canIssue e ∧ chanFault x e ch 0 true = none ∧ octNotice ch = true ∧ s.dev.holder (k / 8) (k % 8) ≠ none ∧ s.dev.holder (k / 8) (k % 8) ≠ some (e.val - 88)) ∧
    (∃ (e : EngId) (s : State), let x := s.dev.e e; s.dev.canIssue e ∧ x.exl = false) ∧
    (∃ (e : EngId) (ch : Fin 1024) (cmd : Fin 64) (s : State), let x := s.dev.e e; cmd.val ≠ 0 ∧ chanFault x e ch 0 true = none ∧ (¬ (cmd.val = 1 ∧ octNotice ch = true))) ∧
    (∃ (e : EngId) (gd : GReg) (ga : GReg) (ch : Fin 1024) (s : State), let x := s.dev.e e; let i := s.dev.issueAt e; ∃ w rest n, x.st = .waiting ∧ x.wait = some (.word gd ga ch n) ∧ s.dev.clAwake e = true ∧ s.dev.entryDue e = none ∧ let j := max i (((x.mboxFrom ch).head?.map (·.at_)).getD 0); x.wordsOn ch j = w :: rest) ∧
    (∃ (e : EngId) (ch : Fin 1024) (r : Req) (s : State), (s.dev.e e).reqs.find? (·.chan == ch.val) = some r ∧ r.phase = .answered ∧ r.epoch = s.dev.epoch r.tgt) ∧
    (∃ (e : EngId) (ch : Fin 1024) (r : Req) (s : State), (s.dev.e e).reqs.find? (·.chan == ch.val) = some r ∧ r.phase = .sent ∧ r.epoch = s.dev.epoch r.tgt ∧ ∃ why, s.dev.barredPolder r.tgt = some why) ∧
    (∃ (e : EngId) (ch : Fin 1024) (r : Req) (s : State), (s.dev.e e).reqs.find? (·.chan == ch.val) = some r ∧ r.phase = .answered ∧ r.epoch ≠ s.dev.epoch r.tgt) :=
  ⟨⟨95, 7, st (engD 95 { runs with mbox := [⟨7, 9, true, 0⟩] }), ⟨by decide +kernel, by decide +kernel, by decide +kernel, by decide +kernel⟩, by decide +kernel, by decide +kernel, ⟨7, 9, true, 0⟩, [], by decide +kernel⟩,
   ⟨95, 7, st ((engD 95 { runs with mbox := [⟨7, 9, true, 1⟩] }).set (R.CL_MODE.MODE 11) 0), ⟨by decide +kernel, by decide +kernel, by decide +kernel, by decide +kernel⟩, by decide +kernel, by decide +kernel, by decide +kernel, by decide +kernel⟩,
   ⟨95, 7, st ((engD 95 runs).set (R.CL_MODE.MODE 11) 1), ⟨by decide +kernel, by decide +kernel, by decide +kernel, by decide +kernel⟩, by decide +kernel, by decide +kernel, by decide +kernel, by decide +kernel, by decide +kernel⟩,
   ⟨95, 0x1FC, st { engD 95 runs with holders := [(252, 7)] }, ⟨by decide +kernel, by decide +kernel, by decide +kernel, by decide +kernel⟩, by decide +kernel, by decide +kernel, by decide +kernel, by decide +kernel⟩,
   ⟨95, st (engD 95 runs), ⟨by decide +kernel, by decide +kernel, by decide +kernel, by decide +kernel⟩, by decide +kernel⟩,
   ⟨95, 7, 1, st w0, by decide +kernel, by decide +kernel, by decide +kernel⟩,
   ⟨95, 31, 30, 7, st (engD 95 { st := .waiting, wait := some (.word 31 30 7 0), mbox := [⟨7, 9, true, 5⟩] }), ⟨7, 9, true, 5⟩, [], 0, by decide +kernel, by decide +kernel, by decide +kernel, by decide +kernel, (by first | decide +kernel | (dsimp only; decide +kernel))⟩,
   ⟨95, 0x14, { chan := 0x14, cmd := 0, op := 0, tgt := 48, epoch := 0, phase := .answered }, st (engD 95 { st := .running, reqs := [{ chan := 0x14, cmd := 0, op := 0, tgt := 48, epoch := 0, phase := .answered }] }), by decide +kernel, by decide +kernel, by decide +kernel⟩,
   ⟨95, 0x14, { chan := 0x14, cmd := 0, op := 0, tgt := 32, epoch := 0, phase := .sent }, st ((engD 95 { st := .running, reqs := [{ chan := 0x14, cmd := 0, op := 0, tgt := 32, epoch := 0, phase := .sent }] }).onP 32 fun x => { x with test := true }), by decide +kernel, by decide +kernel, by decide +kernel, 3, by decide +kernel⟩,
   ⟨95, 0x14, { chan := 0x14, cmd := 0, op := 0, tgt := 48, epoch := 0, phase := .answered }, st ((engD 95 { st := .running, reqs := [{ chan := 0x14, cmd := 0, op := 0, tgt := 48, epoch := 0, phase := .answered }] }).setReg (A.EPOCH 12) 1), by decide +kernel, by decide +kernel, by decide +kernel⟩⟩

theorem witness_LaneJudgements :
    (∃ (g : Lane) (dep : Int) (s : State), s.dev.awake (g / 8) = true ∧ let d := s.dev; let o := g.val / 8; d.on (R.LAT_RX.VALID g) = true ∧ d.on (R.LAT_RX.ELASTIC g) = false ∧ d.get (R.MODE_ACTIVE.TIMING o) = 0 ∧ 50000 < dep.natAbs) ∧
    (∃ (g : Lane) (dep : Int) (s : State), s.dev.awake (g / 8) = true ∧ dep.natAbs ≤ 50000) ∧
    (∃ (g : Lane) (s : State), s.dev.awake (g / 8) = true ∧ let d := s.dev; (d.ln g).freqBad = true) ∧
    (∃ (g : Lane) (s : State), s.dev.awake (g / 8) = true ∧ let d := s.dev; d.on (R.LAT_RX.ELASTIC g) = true) ∧
    (∃ (g : Lane) (n : Nat) (s : State), s.dev.awake (g / 8) = true ∧ let d := s.dev; d.rxState g = 0 ∧ 32 * n < 65536) ∧
    (∃ (g : Lane) (n : Nat) (s : State), s.dev.awake (g / 8) = true ∧ let d := s.dev; d.on (R.RX_STATUS.CDR_LOCK g) = true ∧ 65536 < 16 * n) ∧
    (∃ (g : Lane) (n : Nat) (s : State), s.dev.awake (g / 8) = true ∧ let d := s.dev; d.on (R.RX_STATUS.LOS g) = false ∧ n < 16 * d.get (R.LOS_CTRL.THR g)) ∧
    (∃ (g : Lane) (n : Nat) (s : State), s.dev.awake (g / 8) = true ∧ let d := s.dev; d.rxState g ≠ 2 ∧ 16 * (d.get (R.LOS_CTRL.THR g) + d.get (R.LOS_CTRL.HYST g)) < n) :=
  ⟨⟨255, 50001, st (w0 |>.set (R.LAT_RX.VALID 255) 1 |>.set (R.MODE_ACTIVE.TIMING 31) 0), by decide +kernel, by decide +kernel, by decide +kernel, by decide +kernel, by decide +kernel⟩,
   ⟨255, -50000, st w0, by decide +kernel, by decide +kernel⟩,
   ⟨255, st (w0 |>.onL 255 fun x => { x with freqBad := true }), by decide +kernel, (by first | decide +kernel | (dsimp only; decide +kernel))⟩,
   ⟨255, st (w0 |>.set (R.LAT_RX.ELASTIC 255) 1), by decide +kernel, (by first | decide +kernel | (dsimp only; decide +kernel))⟩,
   ⟨255, 2047, st (w0 |>.set (R.LPWR_STATUS.RX_STATE 255) 0), by decide +kernel, by decide +kernel, by decide +kernel⟩,
   ⟨255, 4097, st (w0 |>.set (R.RX_STATUS.CDR_LOCK 255) 1), by decide +kernel, by decide +kernel, by decide +kernel⟩,
   ⟨255, 16, st (w0 |>.set (R.RX_STATUS.LOS 255) 0 |>.set (R.LOS_CTRL.THR 255) 16), by decide +kernel, by decide +kernel, by decide +kernel⟩,
   ⟨255, 65535, st (w0 |>.set (R.LPWR_STATUS.RX_STATE 255) 1), by decide +kernel, by decide +kernel, by decide +kernel⟩⟩

theorem witness_CalibrationControl :
    (∃ (g : Lane) (j : Fin 65) (s : State), let d := s.dev; d.barred (A.CAL_COEF g j) = none ∧ d.cal g = 0) ∧
    (∃ (g : Lane) (j : Fin 65) (s : State), let d := s.dev; d.barred (A.CAL_COEF g j) = none ∧ d.cal g ≠ 0) ∧
    (∃ (g : Lane) (s : State), let d := s.dev; d.awake (g / 8) = true ∧ d.cal g ≠ 0 ∧ ((d.ln g).winOpen = true → (d.ln g).winPts + 1 < d.winLen g)) ∧
    (∃ (g : Lane) (s : State), let d := s.dev; d.barred (A.CAL_CTRL g) = none ∧ d.cal g ≠ 0) ∧
    (∃ (g : Lane) (s : State), let d := s.dev; d.barred (A.CAL_CTRL g) = none ∧ d.cal g = 4) ∧
    (∃ (g : Lane) (s : State), let d := s.dev; d.barred (A.CAL_CTRL g) = none ∧ d.cal g ≠ 4) ∧
    (∃ (g : Lane) (s : State), let d := s.dev; d.barred (A.CAL_CTRL g) = none ∧ d.cal g = 0) ∧
    (∃ (g : Lane) (s : State), let d := s.dev; d.awake (g / 8) = true ∧ (d.ln g).winOpen = true ∧ d.winLen g ≤ (d.ln g).winPts + 1 ∧ (d.cal g = 1 ∨ d.cal g = 2) ∧ (d.ln g).winLos = true ∧ (d.ln g).pend = []) ∧
    (∃ (g : Lane) (ws : List LaneWord) (s : State), let d := s.dev; let m := d.rxWords g ws; d.awake (g / 8) = true ∧ (d.ln g).winOpen = true ∧ d.winLen g ≤ (d.ln g).winPts + 1 ∧ d.cal g ≠ 0 ∧ m.lanePasses g (m.included g) = true) :=
  ⟨⟨255, 64, st (w0 |>.set (R.CAL_STATUS.STATE 255) 0), by decide +kernel, by decide +kernel⟩,
   ⟨255, 64, st (w0 |>.set (R.CAL_STATUS.STATE 255) 4), by decide +kernel, by decide +kernel⟩,
   ⟨255, st (w0 |>.set (R.CAL_STATUS.STATE 255) 1 |>.set (R.SPARE_STATUS.MODE 255) 3 |>.onL 255 fun x => { x with pend := [(64, 0xFFFFFFFF)] }), by decide +kernel, by decide +kernel, by decide +kernel⟩,
   ⟨255, st (w0 |>.set (R.CAL_STATUS.STATE 255) 4), by decide +kernel, by decide +kernel⟩,
   ⟨255, st (w0 |>.set (R.CAL_STATUS.STATE 255) 4), by decide +kernel, by decide +kernel⟩,
   ⟨255, st (w0 |>.set (R.CAL_STATUS.STATE 255) 0), by decide +kernel, by decide +kernel⟩,
   ⟨255, st (w0 |>.set (R.CAL_STATUS.STATE 255) 0), by decide +kernel, by decide +kernel⟩,
   ⟨255, st (w0 |>.set (R.CAL_STATUS.STATE 255) 2 |>.onL 255 fun x => { x with winOpen := true, winPts := 2 ^ 20, winLos := true }), by decide +kernel, by decide +kernel, by decide +kernel, by decide +kernel, by decide +kernel, by decide +kernel⟩,
   ⟨255, [], st (w0 |>.set (R.CAL_STATUS.STATE 255) 3 |>.onL 255 fun x => { x with winOpen := true, winPts := 2 ^ 20, winLos := false, acc := { n := [(0, 3), (1, 1), (2, 2), (3, 2)] } }), by decide +kernel, by decide +kernel, by decide +kernel, by decide +kernel, by decide +kernel⟩⟩

theorem witness_SpareRepair :
    (∃ (g : Lane) (v : BitVec 32) (s : State), let d := s.dev; d.barred (A.SPARE_CTRL g) = none ∧ d.on (R.SPARE_STATUS.FUSED g) = false ∧ ((d.ln g).rep = .none ∨ (d.ln g).rep = .release ∨ (d.ln g).rep = .returning ∨ d.get (R.SPARE_STATUS.SLICE g) ≠ getBits v.toNat 13 8)) ∧
    (∃ (g : Lane) (v : BitVec 32) (s : State), let d := s.dev; d.barred (A.SPARE_CTRL g) = none ∧ d.on (R.SPARE_STATUS.FUSED g) = false ∧ (d.ln g).rep ≠ .none ∧ (d.ln g).rep ≠ .release ∧ (d.ln g).rep ≠ .returning ∧ d.get (R.SPARE_STATUS.SLICE g) = getBits v.toNat 13 8) ∧
    (∃ (g : Lane) (s : State), let d := s.dev; d.barred (A.SPARE_CTRL g) = none ∧ d.on (R.SPARE_STATUS.FUSED g) = false ∧ (d.ln g).rep = .inService ∧ (d.ln g).served.isSome = true) ∧
    (∃ (g : Lane) (s : State), let d := s.dev; d.barred (A.SPARE_CTRL g) = none ∧ d.on (R.SPARE_STATUS.FUSED g) = true) ∧
    (∃ (g : Lane) (s : State), let d := s.dev; d.awake (g / 8) = true ∧ (d.ln g).rep = .ready) :=
  ⟨⟨255, 0xFFFFFFFF, st (w0 |>.onL 255 fun x => { x with rep := .returning }), by decide +kernel, by decide +kernel, by decide +kernel⟩,
   ⟨255, 0xFFFFFFFF, st (w0 |>.set (R.SPARE_STATUS.SLICE 255) 63 |>.onL 255 fun x => { x with rep := .inService, served := some 63 }), by decide +kernel, by decide +kernel, by decide +kernel, by decide +kernel, by decide +kernel, by decide +kernel⟩,
   ⟨255, st (w0 |>.onL 255 fun x => { x with rep := .inService, served := some 63 }), by decide +kernel, by decide +kernel, by decide +kernel, by decide +kernel⟩,
   ⟨255, st (w0 |>.set (R.SPARE_STATUS.FUSED 255) 1), by decide +kernel, by decide +kernel⟩,
   ⟨255, st (w0 |>.onL 255 fun x => { x with rep := .ready }), by decide +kernel, by decide +kernel⟩⟩

theorem witness_TapBanks_1 :
    (∃ (g : Lane) (b : Bool) (t : Fin 48) (s : State), let d := s.dev; let f := if b then R.FFE_B.COEF g t else R.FFE_A.COEF g t; d.barred f.addr = none ∧ d.on (R.FFE_STATUS.FADING g) = false ∧ d.on (R.FFE_STATUS.ACTIVE g) ≠ b) ∧
    (∃ (g : Lane) (b : Bool) (t : Fin 48) (v : BitVec 32) (s : State), let d := s.dev; let f := if b then R.FFE_B.COEF g t else R.FFE_A.COEF g t; d.barred f.addr = none ∧ (d.on (R.FFE_STATUS.FADING g) = true ∨ d.on (R.FFE_STATUS.ACTIVE g) = b) ∧ d.get f = v.toNat % 1024) ∧
    (∃ (g : Lane) (b : Bool) (t : Fin 48) (v : BitVec 32) (s : State), let d := s.dev; let f := if b then R.FFE_B.COEF g t else R.FFE_A.COEF g t; d.barred f.addr = none ∧ (d.on (R.FFE_STATUS.FADING g) = true ∨ d.on (R.FFE_STATUS.ACTIVE g) = b) ∧ d.get f ≠ v.toNat % 1024) ∧
    (∃ (g : Lane) (b : Bool) (t : Fin 48) (s : State), let d := s.dev; let f := if b then R.FFE_B.COEF g t else R.FFE_A.COEF g t; d.barred f.addr = none ∧ d.barred (A.FFE_CTRL g) = none) ∧
    (∃ (g : Lane) (v : BitVec 32) (s : State), let d := s.dev; let b := getBits v.toNat 8 8; let act := d.get (R.FFE_STATUS.ACTIVE g); let fading := d.on (R.FFE_STATUS.FADING g); d.barred (A.FFE_BANK_SEL g) = none ∧ d.rxState g = 0 ∧ fading = false ∧ b = act) ∧
    (∃ (g : Lane) (v : BitVec 32) (s : State), let d := s.dev; let b := getBits v.toNat 8 8; let act := d.get (R.FFE_STATUS.ACTIVE g); let fading := d.on (R.FFE_STATUS.FADING g); d.barred (A.FFE_BANK_SEL g) = none ∧ d.rxState g = 0 ∧ fading = false ∧ b ≠ act) :=
  ⟨⟨255, true, 47, st w0, by decide +kernel, by decide +kernel, by decide +kernel⟩,
   ⟨255, true, 47, 0x400, st (w0 |>.set (R.FFE_STATUS.FADING 255) 1), by decide +kernel, by decide +kernel, by decide +kernel⟩,
   ⟨255, true, 47, 0x3FF, st (w0 |>.set (R.FFE_STATUS.ACTIVE 255) 1), by decide +kernel, by decide +kernel, by decide +kernel⟩,
   ⟨255, true, 47, st (w0 |>.set (R.FFE_STATUS.ACTIVE 255) 1), by decide +kernel, by decide +kernel⟩,
   ⟨255, 0, st (w0 |>.set (R.LPWR_STATUS.RX_STATE 255) 0), by decide +kernel, by decide +kernel, by decide +kernel, by decide +kernel⟩,
   ⟨255, 0x100, st (w0 |>.set (R.LPWR_STATUS.RX_STATE 255) 0), by decide +kernel, by decide +kernel, by decide +kernel, by decide +kernel⟩⟩

theorem witness_TapBanks_2 :
    (∃ (g : Lane) (v : BitVec 32) (s : State), let d := s.dev; let b := getBits v.toNat 8 8; let act := d.get (R.FFE_STATUS.ACTIVE g); let fading := d.on (R.FFE_STATUS.FADING g); d.barred (A.FFE_BANK_SEL g) = none ∧ d.rxState g = 0 ∧ fading = true ∧ b = act) ∧
    (∃ (g : Lane) (v : BitVec 32) (s : State), let d := s.dev; let b := getBits v.toNat 8 8; let act := d.get (R.FFE_STATUS.ACTIVE g); let fading := d.on (R.FFE_STATUS.FADING g); d.barred (A.FFE_BANK_SEL g) = none ∧ d.rxState g = 0 ∧ fading = true ∧ b ≠ act) ∧
    (∃ (g : Lane) (v : BitVec 32) (s : State), let d := s.dev; let b := getBits v.toNat 8 8; let act := d.get (R.FFE_STATUS.ACTIVE g); d.barred (A.FFE_BANK_SEL g) = none ∧ d.rxState g ≠ 0 ∧ b = act) ∧
    (∃ (g : Lane) (v : BitVec 32) (s : State), let d := s.dev; let b := getBits v.toNat 8 8; let act := d.get (R.FFE_STATUS.ACTIVE g); d.barred (A.FFE_BANK_SEL g) = none ∧ d.rxState g ≠ 0 ∧ b ≠ act) ∧
    (∃ (g : Lane) (s : State), let d := s.dev; let fading := d.on (R.FFE_STATUS.FADING g); d.awake (g / 8) = true ∧ fading = true ∧ d.on (R.FFE_STATUS.SWAP_HELD g) = true) ∧
    (∃ (g : Lane) (s : State), let d := s.dev; let fading := d.on (R.FFE_STATUS.FADING g); d.awake (g / 8) = true ∧ fading = true ∧ d.on (R.FFE_STATUS.SWAP_HELD g) = false) :=
  ⟨⟨255, 0, st (w0 |>.set (R.LPWR_STATUS.RX_STATE 255) 0 |>.set (R.FFE_STATUS.FADING 255) 1), by decide +kernel, by decide +kernel, by decide +kernel, by decide +kernel⟩,
   ⟨255, 0x100, st (w0 |>.set (R.LPWR_STATUS.RX_STATE 255) 0 |>.set (R.FFE_STATUS.FADING 255) 1), by decide +kernel, by decide +kernel, by decide +kernel, by decide +kernel⟩,
   ⟨255, 0, st (w0 |>.set (R.LPWR_STATUS.RX_STATE 255) 1), by decide +kernel, by decide +kernel, by decide +kernel⟩,
   ⟨255, 0x100, st (w0 |>.set (R.LPWR_STATUS.RX_STATE 255) 2), by decide +kernel, by decide +kernel, by decide +kernel⟩,
   ⟨255, st (w0 |>.set (R.FFE_STATUS.FADING 255) 1 |>.set (R.FFE_STATUS.SWAP_HELD 255) 1), by decide +kernel, by decide +kernel, by decide +kernel⟩,
   ⟨255, st (w0 |>.set (R.FFE_STATUS.FADING 255) 1), by decide +kernel, by decide +kernel, by decide +kernel⟩⟩

theorem witness_LmsSupervision :
    (∃ (g : Lane) (s : State), let d := s.dev; d.awake (g / 8) = true ∧ d.on (R.LMS_STATUS.FROZEN g) = true) ∧
    (∃ (g : Lane) (s : State), let d := s.dev; d.awake (g / 8) = true ∧ d.on (R.LMS_STATUS.FROZEN g) = false) ∧
    (∃ (g : Lane) (s : State), let d := s.dev; d.awake (g / 8) = true ∧ d.cal g ≠ 0) ∧
    (∃ (g : Lane) (s : State), let d := s.dev; d.barred (A.LMS_CTRL g) = none) :=
  ⟨⟨255, st (w0 |>.set (R.LMS_STATUS.FROZEN 255) 1), by decide +kernel, by decide +kernel⟩,
   ⟨255, st (w0 |>.set (R.LMS_STATUS.FROZEN 255) 0), by decide +kernel, by decide +kernel⟩,
   ⟨255, st (w0 |>.set (R.CAL_STATUS.STATE 255) 1), by decide +kernel, by decide +kernel⟩,
   ⟨255, st w0, (by first | decide +kernel | (dsimp only; decide +kernel))⟩⟩

theorem witness_TransmitTaps :
    (∃ (g : Lane) (s : State), let d := s.dev; d.barred (A.TX_FFE g) = none) ∧
    (∃ (g : Lane) (s : State), let d := s.dev; d.barred (A.PD_CTRL g) = none) ∧
    (∃ (g : Lane) (page : Bool) (i : Fin 64) (s : State), let d := s.dev; let entry := if page then R.PD_P1.CORR g i else R.PD_P0.CORR g i; d.barred entry.addr = none) :=
  ⟨⟨255, st w0, (by first | decide +kernel | (dsimp only; decide +kernel))⟩,
   ⟨255, st w0, (by first | decide +kernel | (dsimp only; decide +kernel))⟩,
   ⟨255, true, 63, st w0, (by first | decide +kernel | (dsimp only; decide +kernel))⟩⟩

theorem witness_Training_1 :
    (∃ (g : Lane) (s : State), let d := s.dev; d.barred (A.TRN_CTRL g) = none ∧ d.trn g = 0) ∧
    (∃ (g : Lane) (s : State), let d := s.dev; d.barred (A.TRN_CTRL g) = none ∧ d.trn g ≠ 0) ∧
    (∃ (g : Lane) (s : State), let d := s.dev; d.barred (A.TRN_CTRL g) = none ∧ d.trn g = 1) ∧
    (∃ (g : Lane) (s : State), let d := s.dev; d.barred (A.TRN_CTRL g) = none ∧ d.trn g = 2) ∧
    (∃ (g : Lane) (s : State), let d := s.dev; d.awake (g / 8) = true ∧ (d.trn g = 1 ∨ d.trn g = 2)) ∧
    (∃ (g : Lane) (s : State), let d := s.dev; d.barred (A.TRN_REQ g) = none ∧ d.on (R.TRN_STATUS.REQ_PEND g) = true) ∧
    (∃ (g : Lane) (s : State), let d := s.dev; d.barred (A.TRN_REQ g) = none ∧ d.on (R.TRN_STATUS.REQ_PEND g) = false) ∧
    (∃ (g : Lane) (s : State), let d := s.dev; d.awake (g / 8) = true ∧ d.on (R.TRN_STATUS.REQ_PEND g) = true ∧ (d.ln g).reqSent = true ∧ (d.ln g).resendOff = false ∧ d.get (R.TRN_STATUS.RETRY_CNT g) < d.get (R.TRN_CTRL.RETRIES g)) :=
  ⟨⟨255, st w0, by decide +kernel, by decide +kernel⟩,
   ⟨255, st (w0 |>.set (R.TRN_STATUS.STATE 255) 4), by decide +kernel, by decide +kernel⟩,
   ⟨255, st (w0 |>.set (R.TRN_STATUS.STATE 255) 1), by decide +kernel, by decide +kernel⟩,
   ⟨255, st (w0 |>.set (R.TRN_STATUS.STATE 255) 2), by decide +kernel, by decide +kernel⟩,
   ⟨255, st (w0 |>.set (R.TRN_STATUS.STATE 255) 2), by decide +kernel, by decide +kernel⟩,
   ⟨255, st (w0 |>.set (R.TRN_STATUS.REQ_PEND 255) 1), by decide +kernel, by decide +kernel⟩,
   ⟨255, st w0, by decide +kernel, by decide +kernel⟩,
   ⟨255, st (w0 |>.set (R.TRN_STATUS.REQ_PEND 255) 1 |>.set (R.TRN_STATUS.RETRY_CNT 255) 6 |>.set (R.TRN_CTRL.RETRIES 255) 7 |>.onL 255 fun x => { x with reqSent := true }), by decide +kernel, by decide +kernel, by decide +kernel, by decide +kernel, by decide +kernel⟩⟩

theorem witness_Training_2 :
    (∃ (g : Lane) (s : State), let d := s.dev; d.awake (g / 8) = true ∧ d.on (R.TRN_STATUS.REQ_PEND g) = true ∧ (d.ln g).reqSent = true ∧ (d.ln g).resendOff = false ∧ d.get (R.TRN_CTRL.RETRIES g) ≤ d.get (R.TRN_STATUS.RETRY_CNT g)) ∧
    (∃ (o : Oct) (m : BitVec 256) (s : State), s.dev.awake o = true ∧ let fld (k w : Nat) : Nat := m.toNat / 2 ^ (256 - k - w) % 2 ^ w; fld 0 8 ≠ 1) ∧
    (∃ (o : Oct) (l : Fin 8) (m : BitVec 256) (s : State), s.dev.awake o = true ∧ let d := s.dev; let g := 8 * o.val + l.val; let fld (k w : Nat) : Nat := m.toNat / 2 ^ (256 - k - w) % 2 ^ w; let f (k w : Nat) : Nat := fld (16 + 30 * l.val + k) w; fld 0 8 = 1 ∧ fld 8 8 = 2 ^ (7 - l.val) ∧ d.trn g = 1 ∧ f 0 3 ≠ 0 ∧ f 0 3 ≠ (d.ln g).rspSeq ∧ f 3 2 = 1) ∧
    (∃ (o : Oct) (l : Fin 8) (m : BitVec 256) (s : State), s.dev.awake o = true ∧ let d := s.dev; let g := 8 * o.val + l.val; let fld (k w : Nat) : Nat := m.toNat / 2 ^ (256 - k - w) % 2 ^ w; let f (k w : Nat) : Nat := fld (16 + 30 * l.val + k) w; let main := d.get (R.TX_FFE.MAIN g); fld 0 8 = 1 ∧ fld 8 8 = 2 ^ (7 - l.val) ∧ d.trn g = 1 ∧ f 0 3 ≠ 0 ∧ f 0 3 ≠ (d.ln g).rspSeq ∧ f 3 2 = 0 ∧ f 5 10 = 0b0000010000 ∧ 15 ≤ main) ∧
    (∃ (o : Oct) (l : Fin 8) (m : BitVec 256) (s : State), s.dev.awake o = true ∧ let d := s.dev; let g := 8 * o.val + l.val; let fld (k w : Nat) : Nat := m.toNat / 2 ^ (256 - k - w) % 2 ^ w; let f (k w : Nat) : Nat := fld (16 + 30 * l.val + k) w; fld 0 8 = 1 ∧ fld 8 8 = 2 ^ (7 - l.val) ∧ d.trn g = 1 ∧ f 0 3 ≠ 0 ∧ f 0 3 = (d.ln g).rspSeq) ∧
    (∃ (o : Oct) (l : Fin 8) (m : BitVec 256) (s : State), s.dev.awake o = true ∧ let d := s.dev; let g := 8 * o.val + l.val; let fld (k w : Nat) : Nat := m.toNat / 2 ^ (256 - k - w) % 2 ^ w; let f (k w : Nat) : Nat := fld (16 + 30 * l.val + k) w; fld 0 8 = 1 ∧ fld 8 8 = 2 ^ (7 - l.val) ∧ d.trn g = 1 ∧ f 0 3 = 0 ∧ d.on (R.TRN_STATUS.REQ_PEND g) = true ∧ f 15 3 ≠ 0 ∧ f 15 3 = d.get (R.TRN_REQ.SEQ g)) ∧
    (∃ (o : Oct) (l : Fin 8) (m : BitVec 256) (s : State), s.dev.awake o = true ∧ let d := s.dev; let g := 8 * o.val + l.val; let fld (k w : Nat) : Nat := m.toNat / 2 ^ (256 - k - w) % 2 ^ w; let f (k w : Nat) : Nat := fld (16 + 30 * l.val + k) w; fld 0 8 = 1 ∧ fld 8 8 = 2 ^ (7 - l.val) ∧ d.trn g = 2 ∧ d.on (R.TRN_STATUS.SEEN_SENT g) = true ∧ f 28 1 = 1 ∧ f 29 1 = 1) ∧
    (∃ (o : Oct) (l : Fin 8) (m : BitVec 256) (s : State), s.dev.awake o = true ∧ let d := s.dev; let g := 8 * o.val + l.val; let fld (k w : Nat) : Nat := m.toNat / 2 ^ (256 - k - w) % 2 ^ w; let f (k w : Nat) : Nat := fld (16 + 30 * l.val + k) w; fld 0 8 = 1 ∧ fld 8 8 = 2 ^ (7 - l.val) ∧ d.trn g = 3 ∧ f 28 1 = 0) :=
  ⟨⟨255, st (w0 |>.set (R.TRN_STATUS.REQ_PEND 255) 1 |>.set (R.TRN_STATUS.RETRY_CNT 255) 7 |>.set (R.TRN_CTRL.RETRIES 255) 7 |>.onL 255 fun x => { x with reqSent := true }), by decide +kernel, by decide +kernel, by decide +kernel, by decide +kernel, by decide +kernel⟩,
   ⟨31, 0, st w0, by decide +kernel, (by first | decide +kernel | (dsimp only; decide +kernel))⟩,
   ⟨31, 7, trnMsg 3 1 0 0 0 0, st (w0 |>.set (R.TRN_STATUS.STATE 255) 1), by decide +kernel, by decide +kernel, by decide +kernel, by decide +kernel, by decide +kernel, by decide +kernel, by decide +kernel⟩,
   ⟨31, 7, trnMsg 3 0 0x10 0 0 0, st (w0 |>.set (R.TRN_STATUS.STATE 255) 1 |>.set (R.TX_FFE.MAIN 255) 15), by decide +kernel, by decide +kernel, by decide +kernel, by decide +kernel, by decide +kernel, by decide +kernel, by decide +kernel, by decide +kernel, by decide +kernel⟩,
   ⟨31, 7, trnMsg 3 0 0 0 0 0, st (w0 |>.set (R.TRN_STATUS.STATE 255) 1 |>.onL 255 fun x => { x with rspSeq := 3 }), by decide +kernel, by decide +kernel, by decide +kernel, by decide +kernel, by decide +kernel, by decide +kernel⟩,
   ⟨31, 7, trnMsg 0 0 0 7 0 0, st (w0 |>.set (R.TRN_STATUS.STATE 255) 1 |>.set (R.TRN_STATUS.REQ_PEND 255) 1 |>.set (R.TRN_REQ.SEQ 255) 7), by decide +kernel, by decide +kernel, by decide +kernel, by decide +kernel, by decide +kernel, by decide +kernel, by decide +kernel, by decide +kernel⟩,
   ⟨31, 7, trnMsg 0 0 0 0 1 1, st (w0 |>.set (R.TRN_STATUS.STATE 255) 2 |>.set (R.TRN_STATUS.SEEN_SENT 255) 1), by decide +kernel, by decide +kernel, by decide +kernel, by decide +kernel, by decide +kernel, by decide +kernel, by decide +kernel⟩,
   ⟨31, 7, trnMsg 0 0 0 0 0 0, st (w0 |>.set (R.TRN_STATUS.STATE 255) 3), by decide +kernel, by decide +kernel, by decide +kernel, by decide +kernel, by decide +kernel⟩⟩

theorem witness_LanePowerAndLoopback :
    (∃ (g : Lane) (s : State), let d := s.dev; d.barred (A.PWR_CTRL g) = none) ∧
    (∃ (g : Lane) (a : Fin 3) (b : Fin 3) (s : State), let d := s.dev; d.awake (g / 8) = true ∧ d.on (R.LPWR_STATUS.BUSY g) = true ∧ (d.ln g).pwrTo = (a.val, b.val) ∧ (d.ln g).pwrNext = none ∧ (b.val = 0 → d.rxState g ≠ 0 → d.on (R.RX_STATUS.CDR_LOCK g) = true ∨ d.on (R.RX_STATUS.LOS g) = true)) ∧
    (∃ (g : Lane) (s : State), let d := s.dev; d.barred (A.LB_CTRL g) = none) ∧
    (∃ (g : Lane) (s : State), let d := s.dev; let mode := d.get (R.LB_CTRL.MODE g); d.awake (g / 8) = true ∧ d.txState g = 0 ∧ d.rxState g = 0 ∧ mode ≠ d.get (R.LB_STATUS.ACTIVE g)) ∧
    (∃ (g : Lane) (s : State), let d := s.dev; d.awake (g / 8) = true ∧ (d.txState g ≠ 0 ∨ d.rxState g ≠ 0)) ∧
    (∃ (g : Lane) (ws : List LaneWord) (s : State), let d := s.dev; let m := d.rxWords g ws; d.awake (g / 8) = true ∧ d.get (R.LB_STATUS.ACTIVE g) = 3 ∧ d.get (R.MODE_ACTIVE.TIMING (g / 8)) = 1 ∧ ((m.ln g).rx.far.length = 0 ∨ 4 ≤ (m.ln g).rx.far.length)) ∧
    (∃ (g : Lane) (s : State), let d := s.dev; d.awake (g / 8) = true ∧ (d.get (R.LB_STATUS.ACTIVE g) ≠ 3 ∨ d.get (R.MODE_ACTIVE.TIMING (g / 8)) = 0)) ∧
    (∃ (g : Lane) (ws : List LaneWord) (s : State), let d := s.dev; let m := d.rxWords g ws; d.awake (g / 8) = true ∧ d.get (R.PAT_CTRL.CHK g) ≠ 0 ∧ 64 ≤ (m.ln g).rx.chkRun) ∧
    (∃ (g : Lane) (s : State), let d := s.dev; d.barred (A.PAT_ERR g) = none) :=
  ⟨⟨255, st w0, (by first | decide +kernel | (dsimp only; decide +kernel))⟩,
   ⟨255, 2, 0, st (w0 |>.set (R.LPWR_STATUS.BUSY 255) 1 |>.onL 255 fun x => { x with pwrTo := (2, 0) }), by decide +kernel, by decide +kernel, by decide +kernel, by decide +kernel, by decide +kernel⟩,
   ⟨255, st w0, (by first | decide +kernel | (dsimp only; decide +kernel))⟩,
   ⟨255, st (w0 |>.set (R.LPWR_STATUS.TX_STATE 255) 0 |>.set (R.LPWR_STATUS.RX_STATE 255) 0 |>.set (R.LB_CTRL.MODE 255) 3), by decide +kernel, by decide +kernel, by decide +kernel, by decide +kernel⟩,
   ⟨255, st (w0 |>.set (R.LPWR_STATUS.TX_STATE 255) 0 |>.set (R.LPWR_STATUS.RX_STATE 255) 1), by decide +kernel, by decide +kernel⟩,
   ⟨255, [], st (w0 |>.set (R.LB_STATUS.ACTIVE 255) 3 |>.set (R.MODE_ACTIVE.TIMING 31) 1), by decide +kernel, by decide +kernel, by decide +kernel, by decide +kernel⟩,
   ⟨255, st (w0 |>.set (R.LB_STATUS.ACTIVE 255) 2 |>.set (R.MODE_ACTIVE.TIMING 31) 1), by decide +kernel, by decide +kernel⟩,
   ⟨255, [], st (w0 |>.set (R.PAT_CTRL.CHK 255) 3 |>.onL 255 fun x => { x with rx := { x.rx with chkRun := 64 } }), by decide +kernel, by decide +kernel, by decide +kernel⟩,
   ⟨255, st w0, (by first | decide +kernel | (dsimp only; decide +kernel))⟩⟩

theorem witness_EyeScanAndCapture_1 :
    (∃ (g : Lane) (v : BitVec 32) (s : State), let d := s.dev; d.barred (A.EYE_CTRL g) = none ∧ bit v.toNat 30 = false) ∧
    (∃ (g : Lane) (v : BitVec 32) (s : State), let d := s.dev; d.barred (A.EYE_CTRL g) = none ∧ bit v.toNat 31 = false ∧ d.scanning g = true) ∧
    (∃ (g : Lane) (v : BitVec 32) (s : State), let d := s.dev; d.barred (A.EYE_CTRL g) = none ∧ bit v.toNat 31 = false ∧ d.scanning g = false) ∧
    (∃ (g : Lane) (ws : List LaneWord) (s : State), let d := s.dev; let m := (d.rxWords g ws).ln g; d.awake (g / 8) = true ∧ d.spareMode g = 2 ∧ 2 ^ m.rx.eyeSet.2.2 ≤ m.rx.eyeN) ∧
    (∃ (g : Lane) (v : BitVec 32) (s : State), let d := s.dev; let n := v.toNat; d.barred (A.CAP_CTRL g) = none ∧ d.on (R.CAP_CTRL.EN g) = false ∧ getBits n 30 28 = 0) ∧
    (∃ (g : Lane) (v : BitVec 32) (s : State), let d := s.dev; let n := v.toNat; d.barred (A.CAP_CTRL g) = none ∧ d.on (R.CAP_CTRL.EN g) = true ∧ bit n 31 = true ∧ getBits n 29 28 = 0) ∧
    (∃ (g : Lane) (v : BitVec 32) (s : State), let d := s.dev; let n := v.toNat; d.barred (A.CAP_CTRL g) = none ∧ d.on (R.CAP_CTRL.EN g) = true ∧ bit n 31 = true ∧ bit n 30 = false ∧ bit n 28 = false) :=
  ⟨⟨255, 0x80000000, st w0, by decide +kernel, by decide +kernel⟩,
   ⟨255, 0x40000000, st (w0 |>.set (R.EYE_STATUS.RESULT 255) 1 |>.set (R.SPARE_STATUS.MODE 255) 2), by decide +kernel, by decide +kernel, by decide +kernel⟩,
   ⟨255, 0x40000000, st (w0 |>.set (R.EYE_STATUS.RESULT 255) 2), by decide +kernel, by decide +kernel, by decide +kernel⟩,
   ⟨255, [], st (w0 |>.set (R.SPARE_STATUS.MODE 255) 2 |>.onL 255 fun x => { x with rx := { x.rx with eyeN := 2 ^ 20 } }), by decide +kernel, by decide +kernel, by decide +kernel⟩,
   ⟨255, 0x80000000, st w0, by decide +kernel, by decide +kernel, by decide +kernel⟩,
   ⟨255, 0xC0000000, st (w0 |>.set (R.CAP_CTRL.EN 255) 1), by decide +kernel, by decide +kernel, by decide +kernel, by decide +kernel⟩,
   ⟨255, 0xA0000000, st (w0 |>.set (R.CAP_CTRL.EN 255) 1), by decide +kernel, by decide +kernel, by decide +kernel, by decide +kernel, by decide +kernel⟩⟩

theorem witness_EyeScanAndCapture_2 :
    (∃ (g : Lane) (k : Fin 5) (s : State), let d := s.dev; let c := (d.ln g).cap; let running := d.on (R.CAP_STATUS.RUNNING g); d.awake (g / 8) = true ∧ running = true ∧ (bit c.trigSel k = true ∨ k.val = 4)) ∧
    (∃ (g : Lane) (s : State), let d := s.dev; let c := (d.ln g).cap; let running := d.on (R.CAP_STATUS.RUNNING g); d.awake (g / 8) = true ∧ running = true ∧ c.left = some 0) ∧
    (∃ (g : Lane) (s : State), let d := s.dev; let c := (d.ln g).cap; let running := d.on (R.CAP_STATUS.RUNNING g); d.awake (g / 8) = true ∧ running = true ∧ c.left ≠ some 0) ∧
    (∃ (g : Lane) (s : State), let d := s.dev; let c := (d.ln g).cap; let wr := d.get (R.CAP_WR.PAGE g); let running := d.on (R.CAP_STATUS.RUNNING g); d.awake (g / 8) = true ∧ running = true ∧ d.admits 1 (c.base + 4096 * wr) 4096 = true ∧ c.base % 4096 = 0) ∧
    (∃ (g : Lane) (s : State), let d := s.dev; let c := (d.ln g).cap; let wr := d.get (R.CAP_WR.PAGE g); let running := d.on (R.CAP_STATUS.RUNNING g); d.awake (g / 8) = true ∧ running = true ∧ d.admits 1 (c.base + 4096 * wr) 4096 = false) ∧
    (∃ (g : Lane) (s : State), let d := s.dev; let running := d.on (R.CAP_STATUS.RUNNING g); d.awake (g / 8) = true ∧ running = true) :=
  ⟨⟨255, 4, st (w0 |>.set (R.CAP_STATUS.RUNNING 255) 1), by decide +kernel, by decide +kernel, by decide +kernel⟩,
   ⟨255, st (w0 |>.set (R.CAP_STATUS.RUNNING 255) 1 |>.onL 255 fun x => { x with cap := { left := some 0 } }), by decide +kernel, by decide +kernel, by decide +kernel⟩,
   ⟨255, st (w0 |>.set (R.CAP_STATUS.RUNNING 255) 1 |>.onL 255 fun x => { x with cap := { left := some 1 } }), by decide +kernel, by decide +kernel, by decide +kernel⟩,
   ⟨255, st (w0 |>.set (R.CAP_STATUS.RUNNING 255) 1 |>.set (R.CAP_WR.PAGE 255) 15 |>.set R.MEM_STATUS.USABLE 8 |>.set (R.REGION_USE.USE 15) 2 |>.set (R.REGION_LIMIT.MIB 15) 1 |>.onL 255 fun x => { x with cap := { base := 983040 } }), by decide +kernel, by decide +kernel, by decide +kernel, by decide +kernel⟩,
   ⟨255, st (w0 |>.set (R.CAP_STATUS.RUNNING 255) 1), by decide +kernel, by decide +kernel, by decide +kernel⟩,
   ⟨255, st (w0 |>.set (R.CAP_STATUS.RUNNING 255) 1), by decide +kernel, by decide +kernel⟩⟩

theorem witness_OctetMode :
    (∃ (o : Oct) (v : BitVec 32) (s : State), let d := s.dev; d.barred (A.MODE_COMMIT o) = none ∧ bit v.toNat 0 = true) ∧
    (∃ (o : Oct) (s : State), let d := s.dev; let free := ∀ l, l < 8 → (d.txState (8 * o + l) = 2 ∧ d.rxState (8 * o + l) = 2) ∨ d.portState o (d.slotOf o l) = 0; d.awake o = true ∧ d.on (R.MODE_COMMIT.PENDING o) = true ∧ free) ∧
    (∃ (o : Oct) (s : State), let d := s.dev; let free := ∀ l, l < 8 → (d.txState (8 * o + l) = 2 ∧ d.rxState (8 * o + l) = 2) ∨ d.portState o (d.slotOf o l) = 0; d.awake o = true ∧ (d.on (R.MODE_COMMIT.PENDING o) = false ∨ ¬ free)) :=
  ⟨⟨31, 1, st w0, by decide +kernel, by decide +kernel⟩,
   ⟨31, st (w0 |>.set (R.MODE_COMMIT.PENDING 31) 1), by decide +kernel, by decide +kernel, by decide +kernel⟩,
   ⟨31, st w0, by decide +kernel, by decide +kernel⟩⟩

theorem witness_AlignmentMarkers :
    (∃ (o : Oct) (s : State), let d := s.dev; d.awake o = true ∧ (d.oc o).pll = false) ∧
    (∃ (o : Oct) (s : State), let d := s.dev; let i := (d.oc o).mkTx; d.awake o = true ∧ (d.oc o).pll = true ∧ i < 34) ∧
    (∃ (g : Lane) (m : MarkerArrival) (s : State), let d := s.dev; let w := m.word.toNat; let x := d.ln g; d.awake (g / 8) = true ∧ markerValid w = true ∧ d.mlock g = false ∧ d.trn g = 3 ∧ (∃ k, x.mkIndex = some k ∧ getBits w 32 27 = (k + 1) % 34)) ∧
    (∃ (g : Lane) (m : MarkerArrival) (s : State), let d := s.dev; let w := m.word.toNat; let x := d.ln g; d.awake (g / 8) = true ∧ markerValid w = false ∧ d.mlock g = true ∧ x.mkMiss < 2) ∧
    (∃ (g : Lane) (m : MarkerArrival) (s : State), let d := s.dev; let w := m.word.toNat; let x := d.ln g; d.awake (g / 8) = true ∧ markerValid w = false ∧ d.mlock g = true ∧ x.mkMiss = 2 ∧ d.portState (g / 8) (d.laneSlot g) ≠ 0) ∧
    (∃ (g : Lane) (m : MarkerArrival) (s : State), let d := s.dev; let w := m.word.toNat; d.awake (g / 8) = true ∧ markerValid w = true ∧ d.mlock g = true ∧ d.portState (g / 8) (d.laneSlot g) = 1 ∧ getBits w 39 37 ≠ g % 8) :=
  ⟨⟨31, st w0, by decide +kernel, by decide +kernel⟩,
   ⟨31, st (w0 |>.onO 31 fun x => { x with mkTx := 33, pll := true }), by decide +kernel, by decide +kernel, by decide +kernel⟩,
   ⟨255, mark 16382438342911852644, st (w0 |>.set (R.TRN_STATUS.STATE 255) 3 |>.onL 255 fun x => { x with mkIndex := some 33 }), by decide +kernel, by decide +kernel, by decide +kernel, by decide +kernel, ⟨33, by decide +kernel, by decide +kernel⟩⟩,
   ⟨255, mark 0, st (w0 |>.set (R.RX_STATUS.MARKER_LOCK 255) 1 |>.onL 255 fun x => { x with mkMiss := 1 }), by decide +kernel, by decide +kernel, by decide +kernel, by decide +kernel⟩,
   ⟨255, mark 0, st (w0 |>.set (R.RX_STATUS.MARKER_LOCK 255) 1 |>.set (R.PORT_STATUS.STATE 31 0) 4 |>.onL 255 fun x => { x with mkMiss := 2 }), by decide +kernel, by decide +kernel, by decide +kernel, by decide +kernel, by decide +kernel⟩,
   ⟨255, mark 16382437381510266898, st (w0 |>.set (R.RX_STATUS.MARKER_LOCK 255) 1 |>.set (R.PORT_STATUS.STATE 31 0) 1), by decide +kernel, by decide +kernel, by decide +kernel, by decide +kernel, by decide +kernel⟩⟩

theorem witness_FecCounts :
    (∃ (o : Oct) (p : Slot) (r : List (BitVec 10)) (s : State), let d := s.dev; let fix := rsErrors (r.map (·.toNat)); d.awake o = true ∧ d.portUp o p = true ∧ ∃ l, fix = some l) ∧
    (∃ (o : Oct) (p : Slot) (r : List (BitVec 10)) (s : State), let d := s.dev; let x := d.pt o p; let fix := rsErrors (r.map (·.toNat)); d.awake o = true ∧ d.portUp o p = true ∧ fix = none ∧ x.uncRun < 15) ∧
    (∃ (o : Oct) (p : Slot) (r : List (BitVec 10)) (s : State), let d := s.dev; let x := d.pt o p; let fix := rsErrors (r.map (·.toNat)); d.awake o = true ∧ d.portUp o p = true ∧ fix = none ∧ x.uncRun = 15) ∧
    (∃ (g : Lane) (s : State), let d := s.dev; let c := g.val / 8; d.awake c = true ∧ (d.laneMode g = 0 ∨ d.rxState g ≠ 0)) ∧
    (∃ (g : Lane) (llr : List Int) (s : State), let d := s.dev; let hit := chase llr; let c := g.val / 8; d.awake c = true ∧ ∃ w, hit = some w ∧ d.laneMode g ≠ 0 ∧ d.rxState g = 0) ∧
    (∃ (g : Lane) (llr : List Int) (s : State), let d := s.dev; let hit := chase llr; let c := g.val / 8; d.awake c = true ∧ hit = none ∧ d.laneMode g ≠ 0 ∧ d.rxState g = 0) ∧
    (∃ (g : Lane) (s : State), let d := s.dev; let gp := d.laneSlot g; let c := g.val / 8; d.awake c = true ∧ d.portUp c gp = true) ∧
    (∃ (g : Lane) (s : State), let d := s.dev; let gp := d.laneSlot g; let c := g.val / 8; d.awake c = true ∧ d.portUp c gp = false) ∧
    (∃ (o : Oct) (p : Slot) (v : BitVec 32) (s : State), let d := s.dev; d.barred (A.FEC_SNAP o) = none ∧ p.val % d.portWidth o = 0 ∧ bit v.toNat p = true) :=
  ⟨⟨31, 0, List.replicate 15 1, st (w0 |>.set (R.PORT_STATUS.STATE 31 0) 3), by decide +kernel, by decide +kernel, (List.range 15).map (·, 1), by decide +kernel⟩,
   ⟨31, 0, List.replicate 16 1, st (w0 |>.set (R.PORT_STATUS.STATE 31 0) 3 |>.onPt 31 0 fun x => { x with uncRun := 14 }), by decide +kernel, by decide +kernel, by decide +kernel, by decide +kernel⟩,
   ⟨31, 0, List.replicate 16 1, st (w0 |>.set (R.PORT_STATUS.STATE 31 0) 3 |>.onPt 31 0 fun x => { x with uncRun := 15 }), by decide +kernel, by decide +kernel, by decide +kernel, by decide +kernel⟩,
   ⟨255, st (w0 |>.set (R.MODE_ACTIVE.LANE_MODE 31) 2 |>.set (R.LPWR_STATUS.RX_STATE 255) 1), by decide +kernel, by decide +kernel⟩,
   ⟨255, List.replicate 136 (-32), st (w0 |>.set (R.MODE_ACTIVE.LANE_MODE 31) 2 |>.set (R.LPWR_STATUS.RX_STATE 255) 0), by decide +kernel, List.replicate 136 false, by decide +kernel, by decide +kernel, by decide +kernel⟩,
   ⟨255, llrBad, st (w0 |>.set (R.MODE_ACTIVE.LANE_MODE 31) 1 |>.set (R.LPWR_STATUS.RX_STATE 255) 0), by decide +kernel, by decide +kernel, by decide +kernel, by decide +kernel⟩,
   ⟨255, st (w0 |>.set (R.PORT_STATUS.STATE 31 0) 3), by decide +kernel, by decide +kernel⟩,
   ⟨255, st w0, by decide +kernel, by decide +kernel⟩,
   ⟨31, 0, 1, st w0, by decide +kernel, by decide +kernel, by decide +kernel⟩⟩

theorem witness_TimeBase_1 :
    (∃ (s : State), let d := s.dev; d.barred A.TB_STEP = none) ∧
    (∃ (s : State), let d := s.dev; d.barred A.TB_CTRL = none) ∧
    (∃ (s : State), let d := s.dev; let x := d.time; ∃ a b, x.setVal = some (a, b) ∧ x.setDue = true) ∧
    (∃ (fall : Bool) (s : State), let d := s.dev; d.on R.PPS_CTRL.IN_FALL = fall) ∧
    (∃ (fall : Bool) (s : State), let d := s.dev; d.on R.PPS_CTRL.IN_FALL ≠ fall) ∧
    (∃ (s : State), let d := s.dev; d.barred A.TB_SEC_LO = none) ∧
    (∃ (s : State), let d := s.dev; let x := d.time; s.pending = [] ∧ d.get R.TB_RATE.RATE = 0 ∧ x.setDue = false ∧ x.stepPend = none ∧ x.ps < 10 ^ 12 ∧ x.sec < 2 ^ 48 - 1 ∧ x.frac < 2 ^ 24) ∧
    (∃ (s : State), let d := s.dev; d.on R.PPS_CTRL.OUT_EN = true ∧ d.ppsDue = true) :=
  ⟨⟨st w0, (by first | decide +kernel | (dsimp only; decide +kernel))⟩,
   ⟨st w0, (by first | decide +kernel | (dsimp only; decide +kernel))⟩,
   ⟨st { w0 with time := { setVal := some (2 ^ 48, 0), setDue := true } }, 2 ^ 48, 0, by decide +kernel, by decide +kernel⟩,
   ⟨true, st (w0 |>.set R.PPS_CTRL.IN_FALL 1), (by first | decide +kernel | (dsimp only; decide +kernel))⟩,
   ⟨true, st w0, (by first | decide +kernel | (dsimp only; decide +kernel))⟩,
   ⟨st w0, (by first | decide +kernel | (dsimp only; decide +kernel))⟩,
   ⟨st { w0 with time := { sec := 2 ^ 48 - 2, ps := 10 ^ 12 - 1, frac := 2 ^ 24 - 1 } }, by decide +kernel, by decide +kernel, by decide +kernel, by decide +kernel, by decide +kernel, by decide +kernel, by decide +kernel⟩,
   ⟨st (w0 |>.set R.PPS_CTRL.OUT_EN 1), by decide +kernel, by decide +kernel⟩⟩

theorem witness_TimeBase_2 :
    (∃ (s : State), let d := s.dev; d.on R.PPS_CTRL.OUT_EN = false ∨ d.ppsDue = false) ∧
    (∃ (s : State), let d := s.dev; let x := d.time; ∃ sec, x.ppsSec = some sec ∧ d.on R.TOD_CTRL.OUT_EN = true) ∧
    (∃ (msg : List (BitVec 8)), let good := msg.length = 12 ∧ msg.take 2 = [0xA5, 0x01] ∧ crc8 (beNat (msg.take 11)) 88 = beNat (msg.drop 11); good) ∧
    (∃ (msg : List (BitVec 8)), let good := msg.length = 12 ∧ msg.take 2 = [0xA5, 0x01] ∧ crc8 (beNat (msg.take 11)) 88 = beNat (msg.drop 11); ¬ good) ∧
    (∃ (o : Oct) (s : State), let d := s.dev; d.barred (A.TXTS_0 o) = none ∧ (d.oc o).txts = []) ∧
    (∃ (o : Oct) (s : State), let d := s.dev; d.barred (A.TXTS_0 o) = none ∧ ∃ e r, (d.oc o).txts = e :: r ∧ e.slot < 8) ∧
    (∃ (g : Lane) (s : State), let d := s.dev; let c := g.val / 8; let l := g.val % 8; d.barred (A.TSC_CTRL c l) = none) ∧
    (∃ (g : Lane) (s : State), let d := s.dev; let c := g.val / 8; d.awake c = true ∧ (d.ln g).tscRun = true) :=
  ⟨⟨st (w0 |>.set R.PPS_CTRL.OUT_EN 0), (by first | decide +kernel | (dsimp only; decide +kernel))⟩,
   ⟨st ({ w0 with time := { ppsSec := some (2 ^ 48) } }.set R.TOD_CTRL.OUT_EN 1), 2 ^ 48, by decide +kernel, by decide +kernel⟩,
   ⟨todGood, (by first | decide +kernel | (dsimp only; decide +kernel))⟩,
   ⟨[], (by first | decide +kernel | (dsimp only; decide +kernel))⟩,
   ⟨31, st w0, by decide +kernel, by decide +kernel⟩,
   ⟨31, st (w0 |>.onO 31 fun x => { x with txts := [⟨7, true, 1, 2, 3⟩] }), by decide +kernel, ⟨7, true, 1, 2, 3⟩, [], by decide +kernel, by decide +kernel⟩,
   ⟨255, st w0, (by first | decide +kernel | (dsimp only; decide +kernel))⟩,
   ⟨255, st (w0 |>.onL 255 fun x => { x with tscRun := true }), by decide +kernel, by decide +kernel⟩⟩

theorem witness_ModemControl_1 :
    (∃ (o : Oct) (v : BitVec 32) (s : State), let d := s.dev; let same := v.toNat % 8 = d.get (R.TL_CTRL.LANE o); d.barred (A.TL_CTRL o) = none ∧ d.on (R.TL_CTRL.EN o) = false ∧ same ∧ bit v.toNat 7 = false ∧ d.tlLaneOk o = true ∧ d.tlRx o = 0) ∧
    (∃ (o : Oct) (v : BitVec 32) (s : State), let d := s.dev; let x := d.t o; d.barred (A.TL_CTRL o) = none ∧ d.on (R.TL_CTRL.EN o) = true ∧ d.tlRx o = 3 ∧ x.rxq.length < 4 ∧ bit v.toNat 7 = false) ∧
    (∃ (o : Oct) (s : State), let d := s.dev; d.barred (A.TL_CTRL o) = none ∧ d.on (R.TL_CTRL.EN o) = true) ∧
    (∃ (o : Oct) (v : BitVec 32) (s : State), let d := s.dev; let same := v.toNat % 8 = d.get (R.TL_CTRL.LANE o); d.barred (A.TL_CTRL o) = none ∧ d.on (R.TL_CTRL.EN o) = true ∧ bit v.toNat 31 = true ∧ ¬ same ∧ (d.ln (8 * o + v.toNat % 8)).tscRun = false ∧ d.rxState (8 * o + v.toNat % 8) ≠ 2) ∧
    (∃ (o : Oct) (v : BitVec 32) (s : State), let d := s.dev; let idle (p : Nat) := (d.t p).gaspReq = none ∧ ∀ r, (d.t p).cur ≠ some (.gasp r); let same := v.toNat % 8 = d.get (R.TL_CTRL.LANE o); d.barred (A.TL_CTRL o) = none ∧ d.on (R.TL_CTRL.EN o) = true ∧ bit v.toNat 31 = true ∧ same ∧ d.tlLaneOk o = true ∧ idle o) ∧
    (∃ (o : Oct) (s : State), let d := s.dev; d.barred (A.TL_CTRL o) = none) :=
  ⟨⟨31, 0, st (w0 |>.set (R.TL_CTRL.EN 31) 0 |>.set (R.LPWR_STATUS.TX_STATE 248) 0), by decide +kernel, by decide +kernel, by decide +kernel, by decide +kernel, by decide +kernel, by decide +kernel⟩,
   ⟨31, 0, st (w0 |>.set (R.TL_CTRL.EN 31) 1 |>.set (R.TL_STATUS.RX_STATE 31) 3 |>.onT 31 fun x => { x with rxq := List.replicate 3 ⟨0, 0, 0, 0, 0⟩ }), by decide +kernel, by decide +kernel, by decide +kernel, by decide +kernel, by decide +kernel⟩,
   ⟨31, st (w0 |>.set (R.TL_CTRL.EN 31) 1), by decide +kernel, by decide +kernel⟩,
   ⟨31, 0x80000007, st (w0 |>.set (R.TL_CTRL.EN 31) 1 |>.set (R.TL_STATUS.RX_STATE 31) 2 |>.set (R.LPWR_STATUS.RX_STATE 255) 0), by decide +kernel, by decide +kernel, by decide +kernel, by decide +kernel, by decide +kernel, by decide +kernel⟩,
   ⟨31, 0x80000000, st (w0 |>.set (R.TL_CTRL.EN 31) 1 |>.set (R.LPWR_STATUS.TX_STATE 248) 0), by decide +kernel, by decide +kernel, by decide +kernel, by decide +kernel, by decide +kernel, ⟨by decide +kernel, noGasp⟩⟩,
   ⟨31, st (w0 |>.set (R.TL_CTRL.EN 31) 1), (by first | decide +kernel | (dsimp only; decide +kernel))⟩⟩

theorem witness_ModemControl_2 :
    (∃ (o : Oct) (s : State), let d := s.dev; d.awake o = true ∧ d.tlRuns o = true ∧ d.tlRx o = 0) ∧
    (∃ (o : Oct) (s : State), let d := s.dev; d.awake o = true ∧ d.tlRuns o = false ∧ d.tlRx o ≠ 0) ∧
    (∃ (e : EngId) (op : Nat) (s : State), s.dev.Asks e 0x205 0 op) ∧
    (∃ (o : Oct) (s : State), let d := s.dev; d.awake o = true ∧ d.on (R.MASK_CTRL.EN o) = false) ∧
    (∃ (o : Oct) (s : State), let d := s.dev; let x := d.t o; d.awake o = true ∧ d.on (R.MASK_CTRL.EN o) = true ∧ (∀ r, x.cur ≠ some (.gasp r))) :=
  ⟨⟨31, st (tl |>.set (R.TL_STATUS.RX_STATE 31) 0), by decide +kernel, by decide +kernel, by decide +kernel⟩,
   ⟨31, st (w0 |>.set (R.TL_STATUS.RX_STATE 31) 3), by decide +kernel, by decide +kernel, by decide +kernel⟩,
   ⟨95, 1, st ((asked w0 95 0x205 0 1)), asks_of (by decide +kernel)⟩,
   ⟨31, st (w0 |>.set (R.MASK_CTRL.EN 31) 0), by decide +kernel, by decide +kernel⟩,
   ⟨31, st (w0 |>.set (R.MASK_CTRL.EN 31) 1), by decide +kernel, by decide +kernel, noGasp⟩⟩

theorem witness_TidelineReception_1 :
    (∃ (o : Oct) (c : TlDetect) (cur : Int) (gain : Nat) (s : State), s.dev.awake o = true ∧ s.dev.tlRuns o = true ∧ let d := s.dev; let x := d.t o; let k := c.sf; let m := c.metric; let heard := agree (detSymbols c txFirReset (if d.agcFrozen o then x.gain else gain)); let hit := -128 ≤ m ∧ m ≤ 127 ∧ d.detThr o k ≤ m ∧ heard = true ∧ c.near = false ∧ -128 ≤ cur ∧ cur ≤ 127; hit ∧ d.tlRx o = 1 ∧ x.wait = false) ∧
    (∃ (o : Oct) (c : TlDetect) (cur : Int) (gain : Nat) (s : State), s.dev.awake o = true ∧ s.dev.tlRuns o = true ∧ let d := s.dev; let x := d.t o; let k := c.sf; let m := c.metric; let heard := agree (detSymbols c txFirReset (if d.agcFrozen o then x.gain else gain)); let hit := -128 ≤ m ∧ m ≤ 127 ∧ d.detThr o k ≤ m ∧ heard = true ∧ c.near = false ∧ -128 ≤ cur ∧ cur ≤ 127; hit ∧ d.tlRx o = 1 ∧ x.wait = true ∧ x.held = none) ∧
    (∃ (o : Oct) (c : TlDetect) (cur : Int) (gain : Nat) (s : State), s.dev.awake o = true ∧ s.dev.tlRuns o = true ∧ let d := s.dev; let x := d.t o; let k := c.sf; let m := c.metric; let heard := agree (detSymbols c txFirReset (if d.agcFrozen o then x.gain else gain)); let hit := -128 ≤ m ∧ m ≤ 127 ∧ d.detThr o k ≤ m ∧ heard = true ∧ c.near = false ∧ -128 ≤ cur ∧ cur ≤ 127; hit ∧ d.tlRx o = 2 ∧ cur < m) ∧
    (∃ (o : Oct) (c : TlDetect) (cur : Int) (gain : Nat) (s : State), s.dev.awake o = true ∧ s.dev.tlRuns o = true ∧ let d := s.dev; let x := d.t o; let k := c.sf; let m := c.metric; let heard := agree (detSymbols c txFirReset (if d.agcFrozen o then x.gain else gain)); let hit := -128 ≤ m ∧ m ≤ 127 ∧ d.detThr o k ≤ m ∧ heard = true ∧ c.near = false ∧ -128 ≤ cur ∧ cur ≤ 127; hit ∧ d.tlRx o = 3 ∧ cur + 4 * d.get (R.TL_CTRL.CAPTURE o) < m) ∧
    (∃ (o : Oct) (c : TlDetect) (cur : Int) (gain : Nat) (s : State), s.dev.awake o = true ∧ s.dev.tlRuns o = true ∧ let d := s.dev; let x := d.t o; let k := c.sf; let m := c.metric; let heard := agree (detSymbols c txFirReset (if d.agcFrozen o then x.gain else gain)); let hit := -128 ≤ m ∧ m ≤ 127 ∧ d.detThr o k ≤ m ∧ heard = true ∧ c.near = false ∧ -128 ≤ cur ∧ cur ≤ 127; hit ∧ ((d.tlRx o = 2 ∧ m ≤ cur) ∨ (d.tlRx o = 3 ∧ m ≤ cur + 4 * d.get (R.TL_CTRL.CAPTURE o)))) ∧
    (∃ (o : Oct) (c : TlDetect) (gain : Nat) (s : State), s.dev.awake o = true ∧ s.dev.tlRuns o = true ∧ let d := s.dev; let x := d.t o; let k := c.sf; let m := c.metric; let heard := agree (detSymbols c txFirReset (if d.agcFrozen o then x.gain else gain)); (heard = false ∨ (m < d.detThr o k ∧ -128 ≤ m ∧ m ≤ 127))) ∧
    (∃ (o : Oct) (s : State), s.dev.awake o = true ∧ s.dev.tlRuns o = true ∧ let d := s.dev; let x := d.t o; d.tlRx o = 1 ∧ x.wait = true ∧ x.held = none) ∧
    (∃ (o : Oct) (c : TlDetect) (s : State), s.dev.awake o = true ∧ s.dev.tlRuns o = true ∧ let d := s.dev; let x := d.t o; let k := c.sf; let m := c.metric; d.tlRx o = 1 ∧ x.wait = true ∧ x.held = some (k.val, (m % 256).toNat)) ∧
    (∃ (o : Oct) (signs : BitVec 8) (s : State), s.dev.awake o = true ∧ s.dev.tlRuns o = true ∧ let d := s.dev; d.tlRx o = 2 ∧ 2 ≤ popCount (signs.toNat ^^^ 0b10110010) 8) ∧
    (∃ (o : Oct) (signs : BitVec 8) (s : State), s.dev.awake o = true ∧ s.dev.tlRuns o = true ∧ let d := s.dev; d.tlRx o = 2 ∧ popCount (signs.toNat ^^^ 0b10110010) 8 ≤ 1) :=
  ⟨⟨31, det 127, 0, 1, st (tl |>.set (R.TL_STATUS.RX_STATE 31) 1), by decide +kernel, by decide +kernel, ⟨by decide, by decide, by decide +kernel, heard_at (by decide +kernel), rfl, by decide, by decide⟩, by decide +kernel, by decide +kernel⟩,
   ⟨31, det 127, 0, 1, st (tl |>.set (R.TL_STATUS.RX_STATE 31) 1 |>.onT 31 fun x => { x with wait := true }), by decide +kernel, by decide +kernel, ⟨by decide, by decide, by decide +kernel, heard_at (by decide +kernel), rfl, by decide, by decide⟩, by decide +kernel, by decide +kernel, by decide +kernel⟩,
   ⟨31, det 127, 126, 1, st (tl |>.set (R.TL_STATUS.RX_STATE 31) 2), by decide +kernel, by decide +kernel, ⟨by decide, by decide, by decide +kernel, heard_at (by decide +kernel), rfl, by decide, by decide⟩, by decide +kernel, by decide +kernel⟩,
   ⟨31, det 127, -128, 1, st (tl |>.set (R.TL_STATUS.RX_STATE 31) 3), by decide +kernel, by decide +kernel, ⟨by decide, by decide, by decide +kernel, heard_at (by decide +kernel), rfl, by decide, by decide⟩, by decide +kernel, by decide +kernel⟩,
   ⟨31, det 127, 127, 1, st (tl |>.set (R.TL_STATUS.RX_STATE 31) 2), by decide +kernel, by decide +kernel, ⟨by decide, by decide, by decide +kernel, heard_at (by decide +kernel), rfl, by decide, by decide⟩, by decide +kernel⟩,
   ⟨31, ⟨4, [], 0, 0, -128, false⟩, 1, st (tl), by decide +kernel, by decide +kernel, .inl (by decide +kernel)⟩,
   ⟨31, st (tl |>.set (R.TL_STATUS.RX_STATE 31) 1 |>.onT 31 fun x => { x with wait := true }), by decide +kernel, by decide +kernel, by decide +kernel, by decide +kernel, by decide +kernel⟩,
   ⟨31, det 127, st (tl |>.set (R.TL_STATUS.RX_STATE 31) 1 |>.onT 31 fun x => { x with wait := true, held := some (0, 127) }), by decide +kernel, by decide +kernel, by decide +kernel, by decide +kernel, by decide +kernel⟩,
   ⟨31, 0b10110001, st (tl |>.set (R.TL_STATUS.RX_STATE 31) 2), by decide +kernel, by decide +kernel, by decide +kernel, by decide +kernel⟩,
   ⟨31, 0b10110011, st (tl |>.set (R.TL_STATUS.RX_STATE 31) 2), by decide +kernel, by decide +kernel, by decide +kernel, by decide +kernel⟩⟩

theorem witness_TidelineReception_2 :
    (∃ (o : Oct) (s : State), s.dev.awake o = true ∧ s.dev.tlRuns o = true ∧ let d := s.dev; let x := d.t o; d.tlRx o = 2 ∧ x.delim = false) ∧
    (∃ (o : Oct) (h : BitVec 32) (s : State), s.dev.awake o = true ∧ s.dev.tlRuns o = true ∧ let d := s.dev; let x := d.t o; let passes := crc8 (h.toNat / 256) 24 = h.toNat % 256 ∧ h.toNat / 2 ^ 29 = d.get (R.TL_STATUS.CUR_SF o); d.tlRx o = 2 ∧ x.delim = true ∧ ¬ passes) ∧
    (∃ (o : Oct) (h : BitVec 32) (s : State), s.dev.awake o = true ∧ s.dev.tlRuns o = true ∧ let d := s.dev; let x := d.t o; let passes := crc8 (h.toNat / 256) 24 = h.toNat % 256 ∧ h.toNat / 2 ^ 29 = d.get (R.TL_STATUS.CUR_SF o); d.tlRx o = 2 ∧ x.delim = true ∧ passes ∧ bit h.toNat 24 = true) ∧
    (∃ (o : Oct) (h : BitVec 32) (s : State), s.dev.awake o = true ∧ s.dev.tlRuns o = true ∧ let d := s.dev; let x := d.t o; let a := h.toNat / 4096 % 4096; let passes := crc8 (h.toNat / 256) 24 = h.toNat % 256 ∧ h.toNat / 2 ^ 29 = d.get (R.TL_STATUS.CUR_SF o); let mine := a = d.get (R.TL_ADDR.ADDR o) ∨ a = 0xFFF ∨ d.on (R.TL_CTRL.ACCEPT_ALL o) = true; d.tlRx o = 2 ∧ x.delim = true ∧ passes ∧ bit h.toNat 24 = false ∧ mine) ∧
    (∃ (o : Oct) (h : BitVec 32) (s : State), s.dev.awake o = true ∧ s.dev.tlRuns o = true ∧ let d := s.dev; let x := d.t o; let a := h.toNat / 4096 % 4096; let passes := crc8 (h.toNat / 256) 24 = h.toNat % 256 ∧ h.toNat / 2 ^ 29 = d.get (R.TL_STATUS.CUR_SF o); let mine := a = d.get (R.TL_ADDR.ADDR o) ∨ a = 0xFFF ∨ d.on (R.TL_CTRL.ACCEPT_ALL o) = true; d.tlRx o = 2 ∧ x.delim = true ∧ passes ∧ bit h.toNat 24 = false ∧ ¬ mine) ∧
    (∃ (o : Oct) (s : State), s.dev.awake o = true ∧ s.dev.tlRuns o = true ∧ let d := s.dev; let x := d.t o; let len := x.header / 2 ^ 25 % 8 + 1; d.tlRx o = 3 ∧ x.blocks.length < len) ∧
    (∃ (o : Oct) (crc : BitVec 32) (s : State), s.dev.awake o = true ∧ s.dev.tlRuns o = true ∧ let d := s.dev; let x := d.t o; let len := x.header / 2 ^ 25 % 8 + 1; let bits := x.blocks.foldl (fun v b => v * 2 ^ 256 + b.1.toNat) 0; d.tlRx o = 3 ∧ x.blocks.length = len ∧ x.rxq.length < 4 ∧ crc32 bits (256 * len) ≠ crc.toNat) ∧
    (∃ (o : Oct) (crc : BitVec 32) (s : State), s.dev.awake o = true ∧ s.dev.tlRuns o = true ∧ let d := s.dev; let x := d.t o; let len := x.header / 2 ^ 25 % 8 + 1; let bits := x.blocks.foldl (fun v b => v * 2 ^ 256 + b.1.toNat) 0; d.tlRx o = 3 ∧ x.blocks.length = len ∧ x.rxq.length < 4 ∧ crc32 bits (256 * len) = crc.toNat ∧ bits / 2 ^ (256 * len - 8) = 2) ∧
    (∃ (o : Oct) (crc : BitVec 32) (s : State), s.dev.awake o = true ∧ s.dev.tlRuns o = true ∧ let d := s.dev; let x := d.t o; let len := x.header / 2 ^ 25 % 8 + 1; let bits := x.blocks.foldl (fun v b => v * 2 ^ 256 + b.1.toNat) 0; d.tlRx o = 3 ∧ x.blocks.length = len ∧ crc32 bits (256 * len) = crc.toNat ∧ (bits / 2 ^ (256 * len - 8) = 0 ∨ (5 ≤ bits / 2 ^ (256 * len - 8) ∧ bits / 2 ^ (256 * len - 8) < 128))) :=
  ⟨⟨31, st (tl |>.set (R.TL_STATUS.RX_STATE 31) 2), by decide +kernel, by decide +kernel, by decide +kernel, by decide +kernel⟩,
   ⟨31, 0, st (tl |>.set (R.TL_STATUS.RX_STATE 31) 2 |>.set (R.TL_STATUS.CUR_SF 31) 4 |>.onT 31 fun x => { x with delim := true }), by decide +kernel, by decide +kernel, by decide +kernel, by decide +kernel, by decide +kernel⟩,
   ⟨31, 2165454230, st (tl |>.set (R.TL_STATUS.RX_STATE 31) 2 |>.set (R.TL_STATUS.CUR_SF 31) 4 |>.onT 31 fun x => { x with delim := true }), by decide +kernel, by decide +kernel, by decide +kernel, by decide +kernel, by decide +kernel, by decide +kernel⟩,
   ⟨31, 2164258073, st (tl |>.set (R.TL_STATUS.RX_STATE 31) 2 |>.set (R.TL_STATUS.CUR_SF 31) 4 |>.onT 31 fun x => { x with delim := true }), by decide +kernel, by decide +kernel, by decide +kernel, by decide +kernel, by decide +kernel, by decide +kernel, by decide +kernel⟩,
   ⟨31, 2148677117, st (tl |>.set (R.TL_STATUS.RX_STATE 31) 2 |>.set (R.TL_STATUS.CUR_SF 31) 4 |>.onT 31 fun x => { x with delim := true }), by decide +kernel, by decide +kernel, by decide +kernel, by decide +kernel, by decide +kernel, by decide +kernel, by decide +kernel⟩,
   ⟨31, st (tl |>.set (R.TL_STATUS.RX_STATE 31) 3), by decide +kernel, by decide +kernel, by decide +kernel, by decide +kernel⟩,
   ⟨31, 0, st (tl |>.set (R.TL_STATUS.RX_STATE 31) 3 |>.onT 31 fun x => { x with blocks := [(5, true)] }), by decide +kernel, by decide +kernel, by decide +kernel, by decide +kernel, by decide +kernel, by decide +kernel⟩,
   ⟨31, 2423780918, st (tl |>.set (R.TL_STATUS.RX_STATE 31) 3 |>.onT 31 fun x => { x with blocks := [(BitVec.ofNat 256 (2 ^ 249), true)] }), by decide +kernel, by decide +kernel, by decide +kernel, by decide +kernel, by decide +kernel, by decide +kernel, by decide +kernel⟩,
   ⟨31, 2725198835, st (tl |>.set (R.TL_STATUS.RX_STATE 31) 3 |>.onT 31 fun x => { x with blocks := [(5, true)] }), by decide +kernel, by decide +kernel, by decide +kernel, by decide +kernel, by decide +kernel, by decide +kernel⟩⟩

theorem witness_TidelineQueues :
    (∃ (o : Oct) (s : State), let d := s.dev; d.barred (A.RX_POP o) = none) ∧
    (∃ (o : Oct) (s : State), let d := s.dev; let x := d.t o; let ty := d.reg (A.TX_BUF o 0) / 2 ^ 24; let kept := ty = 0 ∨ ty = 1 ∨ (5 ≤ ty ∧ ty < 0x80); d.barred (A.TX_DESC o) = none ∧ x.txq.length < 2 ∧ ¬ kept) ∧
    (∃ (o : Oct) (s : State), let d := s.dev; let x := d.t o; let ty := d.reg (A.TX_BUF o 0) / 2 ^ 24; let kept := ty = 0 ∨ ty = 1 ∨ (5 ≤ ty ∧ ty < 0x80); d.barred (A.TX_DESC o) = none ∧ (2 ≤ x.txq.length ∨ kept)) ∧
    (∃ (o : Oct) (s : State), let d := s.dev; let x := d.t o; d.awake o = true ∧ d.tlRuns o = true ∧ x.cur = none ∧ ∃ r, x.gaspReq = some r ∧ r < 16) ∧
    (∃ (o : Oct) (s : State), let d := s.dev; let x := d.t o; d.awake o = true ∧ d.tlRuns o = true ∧ x.cur = none ∧ x.gaspReq = none ∧ d.on (R.TL_STATUS.MUTED o) = true) ∧
    (∃ (o : Oct) (s : State), let d := s.dev; let x := d.t o; let quiet := d.on (R.TL_STATUS.MUTED o) = false; d.awake o = true ∧ d.tlRuns o = true ∧ x.cur = none ∧ x.gaspReq = none ∧ quiet ∧ (d.oc o).trnDue = true) ∧
    (∃ (o : Oct) (s : State), let d := s.dev; let x := d.t o; let quiet := d.on (R.TL_STATUS.MUTED o) = false; d.awake o = true ∧ d.tlRuns o = true ∧ x.cur = none ∧ x.gaspReq = none ∧ quiet ∧ (d.oc o).trnDue = false ∧ x.txq ≠ []) ∧
    (∃ (o : Oct) (s : State), let d := s.dev; let x := d.t o; d.awake o = true ∧ d.tlRuns o = true ∧ x.cur = some .soft) ∧
    (∃ (o : Oct) (s : State), let d := s.dev; let x := d.t o; d.awake o = true ∧ d.tlRuns o = true ∧ x.cur ≠ none ∧ x.cur ≠ some .soft) :=
  ⟨⟨31, st w0, (by first | decide +kernel | (dsimp only; decide +kernel))⟩,
   ⟨31, st ((w0.setReg (A.TX_BUF 31 0) 0x80000000).onT 31 fun x => { x with txq := [⟨3, 5⟩] }), by decide +kernel, by decide +kernel, by decide +kernel⟩,
   ⟨31, st ((w0.setReg (A.TX_BUF 31 0) 0x7F000000).onT 31 fun x => { x with txq := [⟨3, 5⟩] }), by decide +kernel, by decide +kernel⟩,
   ⟨31, st (tl |>.onT 31 fun x => { x with gaspReq := some 15 }), by decide +kernel, by decide +kernel, by decide +kernel, 15, by decide +kernel, by decide +kernel⟩,
   ⟨31, st (tl |>.set (R.TL_STATUS.MUTED 31) 1), by decide +kernel, by decide +kernel, by decide +kernel, by decide +kernel, by decide +kernel⟩,
   ⟨31, st (tl |>.onO 31 fun x => { x with trnDue := true }), by decide +kernel, by decide +kernel, by decide +kernel, by decide +kernel, by decide +kernel, by decide +kernel⟩,
   ⟨31, st (tl |>.onT 31 fun x => { x with txq := [⟨3, 5⟩] }), by decide +kernel, by decide +kernel, by decide +kernel, by decide +kernel, by decide +kernel, by decide +kernel, by decide +kernel⟩,
   ⟨31, st (tl |>.onT 31 fun x => { x with cur := some .soft }), by decide +kernel, by decide +kernel, by decide +kernel⟩,
   ⟨31, st (tl |>.onT 31 fun x => { x with cur := some (.gasp 2) }), by decide +kernel, by decide +kernel, by decide +kernel, by decide +kernel⟩⟩

theorem witness_FlowCommands_1 :
    (∃ (e : EngId) (op : Nat) (f : Nat) (g : Nat) (s : State), s.dev.clean .flow ∧ s.dev.clean .shared ∧ f < 2 ^ 20 ∧ let d := s.dev; let b := d.block e op; let num (j n : Nat) := leNat (((b 16).drop j).take n); let h := d.hashes ((b 16).take 64); let new := (d.lookup h).1 = none ∧ ∀ j ∈ d.fab.inst, j.flow / 4 = bucketOf h → (Ctx.ofWords j.words).digest ≠ digestOf h; new ∧ d.Asks e 0x10 0 op ∧ d.req e 0x10 0 .taken = none ∧ d.freeWay (bucketOf h) = some g ∧ d.nodeValid 2 (num 64 4 % 2 ^ 18) = true) ∧
    (∃ (e : EngId) (op : Nat) (f : Nat) (s : State), s.dev.clean .flow ∧ s.dev.clean .shared ∧ f < 2 ^ 20 ∧ let d := s.dev; let b := d.block e op; let h := d.hashes ((b 16).take 64); let new := (d.lookup h).1 = none ∧ ∀ j ∈ d.fab.inst, j.flow / 4 = bucketOf h → (Ctx.ofWords j.words).digest ≠ digestOf h; ¬ new ∧ s.dev.Asks e 0x10 0 op) ∧
    (∃ (e : EngId) (op : Nat) (f : Nat) (s : State), s.dev.clean .flow ∧ s.dev.clean .shared ∧ f < 2 ^ 20 ∧ let d := s.dev; let b := d.block e op; let h := d.hashes ((b 16).take 64); let new := (d.lookup h).1 = none ∧ ∀ j ∈ d.fab.inst, j.flow / 4 = bucketOf h → (Ctx.ofWords j.words).digest ≠ digestOf h; new ∧ d.freeWay (bucketOf h) = none ∧ s.dev.Asks e 0x10 0 op) ∧
    (∃ (e : EngId) (op : Nat) (f : Nat) (g : Nat) (s : State), s.dev.clean .flow ∧ s.dev.clean .shared ∧ f < 2 ^ 20 ∧ let d := s.dev; let b := d.block e op; let num (j n : Nat) := leNat (((b 16).drop j).take n); let h := d.hashes ((b 16).take 64); let new := (d.lookup h).1 = none ∧ ∀ j ∈ d.fab.inst, j.flow / 4 = bucketOf h → (Ctx.ofWords j.words).digest ≠ digestOf h; new ∧ d.freeWay (bucketOf h) = some g ∧ d.nodeValid 2 (num 64 4 % 2 ^ 18) = false ∧ s.dev.Asks e 0x10 0 op) ∧
    (∃ (e : EngId) (f : Nat) (i : Inst) (s : State), s.dev.clean .flow ∧ s.dev.clean .shared ∧ f < 2 ^ 20 ∧ let d := s.dev; d.awake 32 = true ∧ d.fab.inst.find? (·.eng == e.val) = some i ∧ i.flow = f ∧ i.words.length = 8 ∧ i.parent < 2 ^ 18 ∧ (d.req e 0x10 0 .taken).isSome = true) ∧
    (∃ (e : EngId) (op : Nat) (f : Nat) (s : State), s.dev.clean .flow ∧ s.dev.clean .shared ∧ f < 2 ^ 20 ∧ let d := s.dev; let b := d.block e op; ∃ r, (d.lookup (d.hashes (b 8))).1 = r ∧ s.dev.Asks e 0x10 1 op) ∧
    (∃ (e : EngId) (op : Nat) (f : Nat) (s : State), s.dev.clean .flow ∧ s.dev.clean .shared ∧ f < 2 ^ 20 ∧ let d := s.dev; let valid (f : Nat) := (d.peekCtx f).valid = true; op % 2 ^ 20 = f ∧ valid f ∧ s.dev.Asks e 0x10 2 op) ∧
    (∃ (e : EngId) (op : Nat) (f : Nat) (s : State), s.dev.clean .flow ∧ s.dev.clean .shared ∧ f < 2 ^ 20 ∧ let d := s.dev; let valid (f : Nat) := (d.peekCtx f).valid = true; op % 2 ^ 20 = f ∧ ¬ valid f ∧ s.dev.Asks e 0x10 2 op) ∧
    (∃ (e : EngId) (op : Nat) (f : Nat) (s : State), s.dev.clean .flow ∧ s.dev.clean .shared ∧ f < 2 ^ 20 ∧ let d := s.dev; let valid (f : Nat) := (d.peekCtx f).valid = true; op % 2 ^ 20 = f ∧ valid f ∧ (d.peekCtx f).state = 2 ∧ s.dev.Asks e 0x10 4 op) :=
  ⟨⟨95, 0, 0, 502484, st (fabAsk (keyed.onN 2 0 fun n => { n with valid := true }) 0 0), clean_of (by decide +kernel), clean_of (by decide +kernel), by decide +kernel, (by rw [hashes_zero] <;> decide +kernel), asks_of (by decide +kernel), by decide +kernel, (by rw [hashes_zero] <;> decide +kernel), by decide +kernel⟩,
   ⟨95, 0, 0, st (fabAsk (keyed.putCtx 502487 {} { digest := 24382133200815319854640130741, ctrl := ctl 1 }) 0 0), clean_of (by decide +kernel), clean_of (by decide +kernel), by decide +kernel, (by rw [hashes_zero] <;> decide +kernel), asks_of (by decide +kernel)⟩,
   ⟨95, 0, 0, st (fabAsk ((List.range 4).foldl (fun d k => d.onN 3 (502484 + k) fun n => { n with valid := true }) keyed) 0 0), clean_of (by decide +kernel), clean_of (by decide +kernel), by decide +kernel, (by rw [hashes_zero] <;> decide +kernel), (by rw [hashes_zero] <;> decide +kernel), asks_of (by decide +kernel)⟩,
   ⟨95, 0, 0, 502484, st (fabAsk keyed 0 0), clean_of (by decide +kernel), clean_of (by decide +kernel), by decide +kernel, (by rw [hashes_zero] <;> decide +kernel), (by rw [hashes_zero] <;> decide +kernel), by decide +kernel, asks_of (by decide +kernel)⟩,
   ⟨95, 1048575, ⟨95, 1048575, List.replicate 8 0, 2 ^ 18 - 1, 0, 1⟩, st (fabAsk (w0.onF fun x => { x with inst := [⟨95, 1048575, List.replicate 8 0, 2 ^ 18 - 1, 0, 1⟩] }) 0 0 .taken), clean_of (by decide +kernel), clean_of (by decide +kernel), by decide +kernel, by decide +kernel, by decide +kernel, by decide +kernel, by decide +kernel, by decide +kernel, by decide +kernel⟩,
   ⟨95, 0, 1048575, st (fabAsk keyed 1 0), clean_of (by decide +kernel), clean_of (by decide +kernel), by decide +kernel, none, (by rw [hashes_zero] <;> decide +kernel), asks_of (by decide +kernel)⟩,
   ⟨95, 1048575, 1048575, st (fabAsk (ctxD 1048575 { ctrl := ctl 1 }) 2 1048575), clean_of (by decide +kernel), clean_of (by decide +kernel), by decide +kernel, by decide +kernel, by decide +kernel, asks_of (by decide +kernel)⟩,
   ⟨95, 1048575, 1048575, st (fabAsk w0 2 1048575), clean_of (by decide +kernel), clean_of (by decide +kernel), by decide +kernel, by decide +kernel, by decide +kernel, asks_of (by decide +kernel)⟩,
   ⟨95, 1048575, 1048575, st (fabAsk (ctxD 1048575 { ctrl := ctl 2 }) 4 1048575), clean_of (by decide +kernel), clean_of (by decide +kernel), by decide +kernel, by decide +kernel, by decide +kernel, by decide +kernel, asks_of (by decide +kernel)⟩⟩

theorem witness_FlowCommands_2 :
    (∃ (e : EngId) (op : Nat) (f : Nat) (s : State), s.dev.clean .flow ∧ s.dev.clean .shared ∧ f < 2 ^ 20 ∧ let d := s.dev; let valid (f : Nat) := (d.peekCtx f).valid = true; op % 2 ^ 20 = f ∧ valid f ∧ (d.peekCtx f).state ≠ 2 ∧ s.dev.Asks e 0x10 4 op) ∧
    (∃ (e : EngId) (op : Nat) (f : Nat) (s : State), s.dev.clean .flow ∧ s.dev.clean .shared ∧ f < 2 ^ 20 ∧ let d := s.dev; let valid (f : Nat) := (d.peekCtx f).valid = true; op % 2 ^ 20 = f ∧ ¬ valid f ∧ s.dev.Asks e 0x10 4 op) ∧
    (∃ (e : EngId) (op : Nat) (f : Nat) (s : State), s.dev.clean .flow ∧ s.dev.clean .shared ∧ f < 2 ^ 20 ∧ let d := s.dev; let valid (f : Nat) := (d.peekCtx f).valid = true; op % 2 ^ 20 = f ∧ ¬ valid f ∧ s.dev.Asks e 0x10 5 op) ∧
    (∃ (e : EngId) (op : Nat) (f : Nat) (s : State), s.dev.clean .flow ∧ s.dev.clean .shared ∧ f < 2 ^ 20 ∧ let d := s.dev; let valid (f : Nat) := (d.peekCtx f).valid = true; op % 2 ^ 20 = f ∧ valid f ∧ bit op 20 = false ∧ s.dev.Asks e 0x10 5 op) ∧
    (∃ (e : EngId) (op : Nat) (f : Nat) (s : State), s.dev.clean .flow ∧ s.dev.clean .shared ∧ f < 2 ^ 20 ∧ let d := s.dev; let valid (f : Nat) := (d.peekCtx f).valid = true; op % 2 ^ 20 = f ∧ valid f ∧ bit op 20 = true ∧ s.dev.Asks e 0x10 5 op) ∧
    (∃ (e : EngId) (op : Nat) (f : Nat) (s : State), s.dev.clean .flow ∧ s.dev.clean .shared ∧ f < 2 ^ 20 ∧ let d := s.dev; let b := d.block e op; let mod (j n : Nat) := leNat (((b 4).drop j).take n); let valid (f : Nat) := (d.peekCtx f).valid = true; ¬ valid (mod 0 4 % 2 ^ 20) ∧ s.dev.Asks e 0x10 3 op) ∧
    (∃ (e : EngId) (op : Nat) (f : Nat) (s : State), s.dev.clean .flow ∧ s.dev.clean .shared ∧ f < 2 ^ 20 ∧ let d := s.dev; let b := d.block e op; let mod (j n : Nat) := leNat (((b 4).drop j).take n); let valid (f : Nat) := (d.peekCtx f).valid = true; mod 0 4 % 2 ^ 20 = f ∧ valid f ∧ s.dev.Asks e 0x10 3 op) ∧
    (∃ (e : EngId) (f : Nat) (x : Ctx) (s : State), s.dev.clean .flow ∧ s.dev.clean .shared ∧ f < 2 ^ 20 ∧ let d := s.dev; d.awake 32 = true ∧ d.peekCtx f = x ∧ x.valid = true ∧ x.state = 3 ∧ x.onchip = 0 ∧ x.sCount = 0 ∧ (∀ e ∈ d.fab.stage, e.1 ≠ f)) ∧
    (∃ (e : EngId) (op : Nat) (f : Nat) (x : Ctx) (s : State), s.dev.clean .flow ∧ s.dev.clean .shared ∧ f < 2 ^ 20 ∧ let d := s.dev; let b := d.block e op; leNat ((b 2).take 4) % 2 ^ 20 = f ∧ d.peekCtx f = x ∧ x.valid = false ∧ s.dev.Asks e 0x10 6 op) :=
  ⟨⟨95, 1048575, 1048575, st (fabAsk (ctxD 1048575 { ctrl := ctl 3 }) 4 1048575), clean_of (by decide +kernel), clean_of (by decide +kernel), by decide +kernel, by decide +kernel, by decide +kernel, by decide +kernel, asks_of (by decide +kernel)⟩,
   ⟨95, 1048575, 1048575, st (fabAsk w0 4 1048575), clean_of (by decide +kernel), clean_of (by decide +kernel), by decide +kernel, by decide +kernel, by decide +kernel, asks_of (by decide +kernel)⟩,
   ⟨95, 1048575, 1048575, st (fabAsk w0 5 1048575), clean_of (by decide +kernel), clean_of (by decide +kernel), by decide +kernel, by decide +kernel, by decide +kernel, asks_of (by decide +kernel)⟩,
   ⟨95, 1048575, 1048575, st (fabAsk (ctxD 1048575 { ctrl := ctl 1 }) 5 1048575), clean_of (by decide +kernel), clean_of (by decide +kernel), by decide +kernel, by decide +kernel, by decide +kernel, by decide +kernel, asks_of (by decide +kernel)⟩,
   ⟨95, 2097151, 1048575, st (fabAsk (ctxD 1048575 { ctrl := ctl 1 }) 5 2097151), clean_of (by decide +kernel), clean_of (by decide +kernel), by decide +kernel, by decide +kernel, by decide +kernel, by decide +kernel, asks_of (by decide +kernel)⟩,
   ⟨95, 0, 0, st (fabAsk w0 3 0), clean_of (by decide +kernel), clean_of (by decide +kernel), by decide +kernel, by decide +kernel, asks_of (by decide +kernel)⟩,
   ⟨95, 0, 0, st (fabAsk (ctxD 0 { ctrl := ctl 2 }) 3 0), clean_of (by decide +kernel), clean_of (by decide +kernel), by decide +kernel, by decide +kernel, by decide +kernel, asks_of (by decide +kernel)⟩,
   ⟨95, 1048575, { ctrl := ctl 3 }, st (ctxD 1048575 { ctrl := ctl 3 }), clean_of (by decide +kernel), clean_of (by decide +kernel), by decide +kernel, by decide +kernel, by decide +kernel, by decide +kernel, by decide +kernel, by decide +kernel, by decide +kernel, by decide +kernel⟩,
   ⟨95, 0, 0, {}, st (fabAsk w0 6 0), clean_of (by decide +kernel), clean_of (by decide +kernel), by decide +kernel, by decide +kernel, by decide +kernel, by decide +kernel, asks_of (by decide +kernel)⟩⟩

theorem witness_FlowCommands_3 :
    (∃ (e : EngId) (op : Nat) (f : Nat) (x : Ctx) (s : State), s.dev.clean .flow ∧ s.dev.clean .shared ∧ f < 2 ^ 20 ∧ let d := s.dev; let b := d.block e op; let hd := bit (leNat (((b 2).drop 6).take 1)) 0; leNat ((b 2).take 4) % 2 ^ 20 = f ∧ d.peekCtx f = x ∧ x.valid = true ∧ hd = true ∧ x.state ≠ 2 ∧ s.dev.Asks e 0x10 6 op) ∧
    (∃ (e : EngId) (op : Nat) (f : Nat) (x : Ctx) (s : State), s.dev.clean .flow ∧ s.dev.clean .shared ∧ f < 2 ^ 20 ∧ let d := s.dev; let b := d.block e op; let len := max 64 (min 10240 (leNat (((b 2).drop 4).take 2))); let body := (((b ((16 + len - 4 + 7) / 8)).drop 16).take (len - 4)); let frame := body ++ bytesLE (fcsOf body) 4; let hd := bit (leNat (((b 2).drop 6).take 1)) 0; let n := (len + 255) / 256; leNat ((b 2).take 4) % 2 ^ 20 = f ∧ d.peekCtx f = x ∧ x.valid = true ∧ (hd = true → x.state = 2 ∧ d.barredPath f = none) ∧ (hd = false → d.fate f x n = .link) ∧ x.onchip + n < 2 ^ 21 ∧ ∃ cells, (d.storeFrame 2 frame).1 = some cells ∧ s.dev.Asks e 0x10 6 op) ∧
    (∃ (e : EngId) (op : Nat) (f : Nat) (x : Ctx) (s : State), s.dev.clean .flow ∧ s.dev.clean .shared ∧ f < 2 ^ 20 ∧ let d := s.dev; let b := d.block e op; let len := max 64 (min 10240 (leNat (((b 2).drop 4).take 2))); let body := (((b ((16 + len - 4 + 7) / 8)).drop 16).take (len - 4)); let frame := body ++ bytesLE (fcsOf body) 4; let hd := bit (leNat (((b 2).drop 6).take 1)) 0; let n := (len + 255) / 256; leNat ((b 2).take 4) % 2 ^ 20 = f ∧ d.peekCtx f = x ∧ x.valid = true ∧ (hd = true → x.state = 2 ∧ d.barredPath f = none) ∧ (hd = false → d.fate f x n = .link) ∧ x.onchip + n < 2 ^ 21 ∧ (d.storeFrame 2 frame).1 = none ∧ s.dev.Asks e 0x10 6 op) ∧
    (∃ (e : EngId) (op : Nat) (f : Nat) (x : Ctx) (s : State), s.dev.clean .flow ∧ s.dev.clean .shared ∧ f < 2 ^ 20 ∧ let d := s.dev; let b := d.block e op; let len := max 64 (min 10240 (leNat (((b 2).drop 4).take 2))); let hd := bit (leNat (((b 2).drop 6).take 1)) 0; let n := (len + 255) / 256; leNat ((b 2).take 4) % 2 ^ 20 = f ∧ d.peekCtx f = x ∧ x.valid = true ∧ hd = false ∧ ∃ c q, d.fate f x n = .drop c q ∧ s.dev.Asks e 0x10 6 op) ∧
    (∃ (e : EngId) (op : Nat) (s : State), s.dev.clean .flow ∧ let d := s.dev; let c := min 6 (op % 8); let fill := d.get (R.PUNT_STATUS.FILL c); d.fabTest = false ∧ 0 < fill ∧ s.dev.Asks e 0x11 0 op) ∧
    (∃ (e : EngId) (op : Nat) (s : State), s.dev.clean .flow ∧ let d := s.dev; let c := min 6 (op % 8); let fill := d.get (R.PUNT_STATUS.FILL c); d.fabTest = false ∧ fill = 0 ∧ d.fabMode = 1 ∧ s.dev.Asks e 0x11 0 op) ∧
    (∃ (e : EngId) (op : Nat) (s : State), s.dev.clean .flow ∧ let d := s.dev; let c := min 6 (op % 8); let fill := d.get (R.PUNT_STATUS.FILL c); d.fabTest = false ∧ fill = 0 ∧ d.fabMode ≠ 1 ∧ d.Asks e 0x11 0 op ∧ d.req e 0x11 0 .taken = none) ∧
    (∃ (e : EngId) (op : Nat) (s : State), s.dev.clean .flow ∧ let d := s.dev; let c := min 6 (op % 8); let fill := d.get (R.PUNT_STATUS.FILL c); d.fabTest = false ∧ ∃ r, d.req e 0x11 0 .taken = some r ∧ r.op.toNat = op ∧ 0 < fill) ∧
    (∃ (e : EngId) (op : Nat) (s : State), s.dev.clean .flow ∧ let d := s.dev; let c := min 6 (op % 8); let fill := d.get (R.PUNT_STATUS.FILL c); d.fabTest = false ∧ fill = 0 ∧ ∃ r, d.req e 0x11 0 .taken = some r ∧ r.op.toNat = op) :=
  ⟨⟨95, 0, 0, { ctrl := ctl 1 }, st (fabAsk ((ctxD 0 { ctrl := ctl 1 }).hubWrite 11 0 [(2 ^ 48, false)]) 6 0), clean_of (by decide +kernel), clean_of (by decide +kernel), by decide +kernel, by decide +kernel, by decide +kernel, by decide +kernel, by decide +kernel, by decide +kernel, asks_of (by decide +kernel)⟩,
   ⟨95, 0, 0, { ctrl := ctl 2 }, st (fabAsk ((path (ctxD 0 { ctrl := ctl 2 }) 0).hubWrite 11 0 [(2 ^ 48, false)]) 6 0), clean_of (by decide +kernel), clean_of (by decide +kernel), by decide +kernel, by decide +kernel, by decide +kernel, by decide +kernel, by decide +kernel, by decide +kernel, by decide +kernel, [0], by decide +kernel, asks_of (by decide +kernel)⟩,
   ⟨95, 0, 0, { ctrl := ctl 2 }, st (fabAsk (((path (ctxD 0 { ctrl := ctl 2 }) 0).hubWrite 11 0 [(2 ^ 48, false)]).onF fun x => { x with banks := (List.range 256).map (·, { fresh := 4096 }) }) 6 0), clean_of (by decide +kernel), clean_of (by decide +kernel), by decide +kernel, by decide +kernel, by decide +kernel, by decide +kernel, by decide +kernel, by decide +kernel, by decide +kernel, by decide +kernel, asks_of (by decide +kernel)⟩,
   ⟨95, 0, 0, { ctrl := ctl 1 }, st (fabAsk (ctxD 0 { ctrl := ctl 1 }) 6 0), clean_of (by decide +kernel), clean_of (by decide +kernel), by decide +kernel, by decide +kernel, by decide +kernel, by decide +kernel, by decide +kernel, 17, none, by decide +kernel, asks_of (by decide +kernel)⟩,
   ⟨95, 7, st (fabAsk (w0.set (R.PUNT_STATUS.FILL 6) 1) 0 7 .sent 0x11), clean_of (by decide +kernel), by decide +kernel, by decide +kernel, asks_of (by decide +kernel)⟩,
   ⟨95, 7, st (fabAsk (w0.set R.FL_CTRL.RUN 1) 0 7 .sent 0x11), clean_of (by decide +kernel), by decide +kernel, by decide +kernel, by decide +kernel, asks_of (by decide +kernel)⟩,
   ⟨95, 7, st (fabAsk w0 0 7 .sent 0x11), clean_of (by decide +kernel), by decide +kernel, by decide +kernel, by decide +kernel, asks_of (by decide +kernel), by decide +kernel⟩,
   ⟨95, 7, st (fabAsk (w0.set (R.PUNT_STATUS.FILL 6) 1) 0 7 .taken 0x11), clean_of (by decide +kernel), by decide +kernel, { chan := 0x11, cmd := 0, op := 7, tgt := 32, epoch := 0, phase := .taken }, by decide +kernel, by decide +kernel, by decide +kernel⟩,
   ⟨95, 7, st (fabAsk w0 0 7 .taken 0x11), clean_of (by decide +kernel), by decide +kernel, by decide +kernel, { chan := 0x11, cmd := 0, op := 7, tgt := 32, epoch := 0, phase := .taken }, by decide +kernel, by decide +kernel⟩⟩

theorem witness_FlowCommands_4 :
    (∃ (e : EngId) (op : Nat) (s : State), s.dev.clean .flow ∧ let d := s.dev; let h := op % 2 ^ 20; let held := (Tbl.get Held.none d.fab.held h).st = 1; ¬ held ∧ d.Asks e 0x11 1 op) ∧
    (∃ (e : EngId) (op : Nat) (s : State), s.dev.clean .flow ∧ let d := s.dev; let h := op % 2 ^ 20; let held := (Tbl.get Held.none d.fab.held h).st = 1; held ∧ op / 2 ^ 20 % 8 = 0 ∧ s.dev.Asks e 0x11 1 op) ∧
    (∃ (e : EngId) (op : Nat) (s : State), s.dev.clean .flow ∧ let d := s.dev; let h := op % 2 ^ 20; let held := (Tbl.get Held.none d.fab.held h).st = 1; held ∧ ∃ f, op / 2 ^ 32 % 2 ^ 20 = f ∧ (op / 2 ^ 20 % 8 = 1 ∨ op / 2 ^ 20 % 8 = 2) ∧ let x := d.peekCtx f; x.valid = false ∧ s.dev.Asks e 0x11 1 op) ∧
    (∃ (e : EngId) (op : Nat) (s : State), s.dev.clean .flow ∧ let d := s.dev; let h := op % 2 ^ 20; let held := (Tbl.get Held.none d.fab.held h).st = 1; held ∧ ∃ f, op / 2 ^ 32 % 2 ^ 20 = f ∧ (op / 2 ^ 20 % 8 = 1 ∨ op / 2 ^ 20 % 8 = 2) ∧ let x := d.peekCtx f; let two := op / 2 ^ 20 % 8 = 2; x.valid = true ∧ two ∧ x.state ≠ 2 ∧ s.dev.Asks e 0x11 1 op) ∧
    (∃ (e : EngId) (op : Nat) (s : State), s.dev.clean .flow ∧ let d := s.dev; let h := op % 2 ^ 20; let held := (Tbl.get Held.none d.fab.held h).st = 1; let cells := d.frameCells h 64; held ∧ ∃ f, op / 2 ^ 32 % 2 ^ 20 = f ∧ (op / 2 ^ 20 % 8 = 1 ∨ op / 2 ^ 20 % 8 = 2) ∧ let x := d.peekCtx f; let two := op / 2 ^ 20 % 8 = 2; x.valid = true ∧ (two → x.state = 2 ∧ d.barredPath f = none) ∧ (¬ two → d.fate f x cells.length = .link) ∧ x.onchip + cells.length < 2 ^ 21 ∧ s.dev.Asks e 0x11 1 op) ∧
    (∃ (e : EngId) (op : Nat) (s : State), s.dev.clean .flow ∧ let d := s.dev; let h := op % 2 ^ 20; let held := (Tbl.get Held.none d.fab.held h).st = 1; let q := op / 2 ^ 32 % 64; held ∧ 3 ≤ op / 2 ^ 20 % 8 ∧ let takes := d.on (R.Q_CTRL.EN q) = true ∧ d.on (R.Q_CTRL.DIR q) = false ∧ (d.qp q).hold.length < d.get (R.Q_CTRL.HOLD_LIM q); takes ∧ s.dev.Asks e 0x11 1 op) ∧
    (∃ (e : EngId) (op : Nat) (s : State), s.dev.clean .flow ∧ let d := s.dev; let h := op % 2 ^ 20; let held := (Tbl.get Held.none d.fab.held h).st = 1; let q := op / 2 ^ 32 % 64; held ∧ 3 ≤ op / 2 ^ 20 % 8 ∧ let takes := d.on (R.Q_CTRL.EN q) = true ∧ d.on (R.Q_CTRL.DIR q) = false ∧ (d.qp q).hold.length < d.get (R.Q_CTRL.HOLD_LIM q); ¬ takes ∧ s.dev.Asks e 0x11 1 op) :=
  ⟨⟨95, 1048575, st (fabAsk w0 1 1048575 .sent 0x11), clean_of (by decide +kernel), by decide +kernel, asks_of (by decide +kernel)⟩,
   ⟨95, 1048575, st (fabAsk (w0.onF fun x => { x with held := [(1048575, { st := 1 })] }) 1 1048575 .sent 0x11), clean_of (by decide +kernel), by decide +kernel, by decide +kernel, asks_of (by decide +kernel)⟩,
   ⟨95, 4503595333451781, st (fabAsk (w0.onF fun x => { x with held := [(5, { st := 1 })] }) 1 4503595333451781 .sent 0x11), clean_of (by decide +kernel), by decide +kernel, 1048575, by decide +kernel, by decide +kernel, by decide +kernel, asks_of (by decide +kernel)⟩,
   ⟨95, 4503595334500357, st (fabAsk ((ctxD 1048575 { ctrl := ctl 1 }).onF fun x => { x with held := [(5, { st := 1 })] }) 1 4503595334500357 .sent 0x11), clean_of (by decide +kernel), by decide +kernel, 1048575, by decide +kernel, by decide +kernel, by decide +kernel, by decide +kernel, by decide +kernel, asks_of (by decide +kernel)⟩,
   ⟨95, 4503595334500357, st (fabAsk ((path (ctxD 1048575 { ctrl := ctl 2 }) 1048575).onF fun x => { x with held := [(5, { st := 1 })] }) 1 4503595334500357 .sent 0x11), clean_of (by decide +kernel), by decide +kernel, 1048575, by decide +kernel, by decide +kernel, by decide +kernel, by decide +kernel, by decide +kernel, by decide +kernel, asks_of (by decide +kernel)⟩,
   ⟨95, 270586085381, st (fabAsk ((((w0.onF fun x => { x with held := [(5, { st := 1 })] }).set (R.Q_CTRL.EN 63) 1).set (R.Q_CTRL.DIR 63) 0).set (R.Q_CTRL.HOLD_LIM 63) 1) 1 270586085381 .sent 0x11), clean_of (by decide +kernel), by decide +kernel, by decide +kernel, by decide +kernel, asks_of (by decide +kernel)⟩,
   ⟨95, 270586085381, st (fabAsk (w0.onF fun x => { x with held := [(5, { st := 1 })] }) 1 270586085381 .sent 0x11), clean_of (by decide +kernel), by decide +kernel, by decide +kernel, by decide +kernel, asks_of (by decide +kernel)⟩⟩

theorem witness_Scheduling_1 :
    (∃ (now : Nat) (p : Oct) (sl : Slot) (s : State), s.dev.clean .flow ∧ s.dev.clean .shared ∧ let d := s.dev; let port := 8 * p.val + sl.val; let d1 := d.toCycle now; d.awake 32 = true ∧ d1.pickPort d1.fab.cyc port = none) ∧
    (∃ (now : Nat) (p : Oct) (sl : Slot) (s : State), s.dev.clean .flow ∧ s.dev.clean .shared ∧ let d := s.dev; let port := 8 * p.val + sl.val; let d1 := d.toCycle now; d.awake 32 = true ∧ ∃ pick x, d1.pickPort d1.fab.cyc port = some (pick, x) ∧ (d.peekCtx pick.flow).valid = true) ∧
    (∃ (i : Nat) (now : Nat) (lvl : Fin 4) (s : State), s.dev.clean .flow ∧ s.dev.clean .shared ∧ let d := s.dev; let d1 := d.toCycle now; let n := d1.node lvl i; let up := d1.node (lvl - 1) n.parent; d.awake 32 = true ∧ i < 2 ^ 20 ∧ let ages := 1 ≤ lvl.val ∧ n.band ≠ 0 ∧ n.promoted = false ∧ up.age ≠ 0 ∧ up.age * 1600 ≤ n.aged ∧ d1.eligible d1.fab.cyc lvl i = true; ages ∧ n.parent < 2 ^ 18 ∧ up.kids.length = 4) ∧
    (∃ (i : Nat) (now : Nat) (lvl : Fin 4) (s : State), s.dev.clean .flow ∧ s.dev.clean .shared ∧ let d := s.dev; let d1 := d.toCycle now; let n := d1.node lvl i; let up := d1.node (lvl - 1) n.parent; d.awake 32 = true ∧ i < 2 ^ 20 ∧ let ages := 1 ≤ lvl.val ∧ n.band ≠ 0 ∧ n.promoted = false ∧ up.age ≠ 0 ∧ up.age * 1600 ≤ n.aged ∧ d1.eligible d1.fab.cyc lvl i = true; ¬ ages) ∧
    (∃ (s : State), s.dev.clean .flow ∧ s.dev.clean .shared ∧ let d := s.dev; d.awake 32 = true ∧ ∃ (j : BitVec 18), ∃ (l : Fin 3), ∃ qb age kids, (d.node l j.toNat).pend = some (qb, age, kids) ∧ d.atBoundary l j.toNat = true) ∧
    (∃ (s : State), s.dev.clean .flow ∧ s.dev.clean .shared ∧ let d := s.dev; d.awake 32 = true ∧ ∃ (j : BitVec 18), ∃ (l : Fin 3), d.atBoundary l j.toNat = false) ∧
    (∃ (s : State), s.dev.clean .flow ∧ s.dev.clean .shared ∧ let d := s.dev; d.awake 32 = true ∧ ∃ a data, d.fab.ind = some (a, data) ∧ bit a 30 = false) ∧
    (∃ (s : State), s.dev.clean .flow ∧ s.dev.clean .shared ∧ let d := s.dev; d.awake 32 = true ∧ ∃ a data, d.fab.ind = some (a, data) ∧ bit a 30 = true) ∧
    (∃ (s : State), s.dev.clean .flow ∧ s.dev.clean .shared ∧ let d := s.dev; d.awake 32 = true ∧ d.fab.ind = none) ∧
    (∃ (e : EngId) (op : Nat) (s : State), s.dev.clean .flow ∧ s.dev.clean .shared ∧ let d := s.dev; let l := min 2 (op / 2 ^ 20 % 4); let k := clampIndex l (op % 2 ^ 18); d.nodeValid l k = true ∧ s.dev.Asks e 0x12 2 op) :=
  ⟨⟨0, 0, 0, st w0, clean_of (by decide +kernel), clean_of (by decide +kernel), by decide +kernel, by decide +kernel⟩,
   ⟨0, 0, 0, st queued, clean_of (by decide +kernel), clean_of (by decide +kernel), by decide +kernel, picked.1, picked.2, by decide +kernel, by decide +kernel⟩,
   ⟨7, 0, 3, st ((queued.onN 3 7 fun n => { n with aged := 6400 })), clean_of (by decide +kernel), clean_of (by decide +kernel), by decide +kernel, by decide +kernel, by decide +kernel, by decide +kernel, by decide +kernel⟩,
   ⟨7, 0, 3, st ((queued.onN 3 7 fun n => { n with aged := 6399 })), clean_of (by decide +kernel), clean_of (by decide +kernel), by decide +kernel, by decide +kernel, (by first | decide +kernel | (dsimp only; decide +kernel))⟩,
   ⟨st ((w0.onN 2 5 fun n => { n with pend := some ([1, 2, 3, 4], 6, []) })), clean_of (by decide +kernel), clean_of (by decide +kernel), by decide +kernel, 5, 2, [1, 2, 3, 4], 6, [], by decide +kernel, by decide +kernel⟩,
   ⟨st ((queued.onN 2 5 fun n => { n with pend := some ([1, 2, 3, 4], 6, []), turn := [true, true, true, true] })), clean_of (by decide +kernel), clean_of (by decide +kernel), by decide +kernel, 5, 2, by decide +kernel⟩,
   ⟨st ((w0.onF fun x => { x with ind := some (0x20005, []) })), clean_of (by decide +kernel), clean_of (by decide +kernel), by decide +kernel, 0x20005, [], by decide +kernel, by decide +kernel⟩,
   ⟨st ((w0.onF fun x => { x with ind := some (0x40200005, [1, 2]) })), clean_of (by decide +kernel), clean_of (by decide +kernel), by decide +kernel, 0x40200005, [1, 2], by decide +kernel, by decide +kernel⟩,
   ⟨st w0, clean_of (by decide +kernel), clean_of (by decide +kernel), by decide +kernel, by decide +kernel⟩,
   ⟨95, 2097157, st (fabAsk queued 2 2097157 .sent 0x12), clean_of (by decide +kernel), clean_of (by decide +kernel), by decide +kernel, asks_of (by decide +kernel)⟩⟩

theorem witness_Scheduling_2 :
    (∃ (e : EngId) (op : Nat) (s : State), s.dev.clean .flow ∧ s.dev.clean .shared ∧ let d := s.dev; let l := min 2 (op / 2 ^ 20 % 4); let k := clampIndex l (op % 2 ^ 18); d.nodeValid l k = false ∧ s.dev.Asks e 0x12 2 op) ∧
    (∃ (v : BitVec 32) (s : State), s.dev.clean .flow ∧ s.dev.clean .shared ∧ let d := s.dev; d.barred A.SCHED_COMMIT = none ∧ let l := min 2 (getBits v.toNat 21 20); let k := clampIndex l (getBits v.toNat 17 0); bit v.toNat 31 = true ∧ d.nodeValid l k = true) ∧
    (∃ (v : BitVec 32) (s : State), s.dev.clean .flow ∧ s.dev.clean .shared ∧ let d := s.dev; d.barred A.SCHED_COMMIT = none ∧ let l := min 2 (getBits v.toNat 21 20); let k := clampIndex l (getBits v.toNat 17 0); (bit v.toNat 31 = false ∨ d.nodeValid l k = false)) ∧
    (∃ (e : EngId) (op : Nat) (s : State), s.dev.clean .flow ∧ s.dev.clean .shared ∧ let d := s.dev; let rec_ (l k : Nat) (st : Bool) := (d.nodeRecord l k st); let l := op / 2 ^ 20 % 4; let k := clampIndex l (op % 2 ^ 20); (∀ j, j < 7 → (rec_ l k (bit op 29)).getD j 0 < 2 ^ 32) ∧ s.dev.Asks e 0x12 0 op) ∧
    (∃ (e : EngId) (op : Nat) (v0 : Nat) (s : State), s.dev.clean .flow ∧ s.dev.clean .shared ∧ let d := s.dev; let w (k : Nat) := leNat (((d.block e op 4).drop (4 * k)).take 4); let l := w 0 / 2 ^ 20 % 4; let k := clampIndex l (w 0 % 2 ^ 20); let o := d.node l k; let parent := clampIndex (l - 1) (v0 % 2 ^ 18); w 1 = v0 ∧ (if l = 0 then d.nodeValid 0 k = true else o.valid = true ∧ parent = o.parent ∧ (l = 3 ∨ bit v0 31 = true)) ∧ s.dev.Asks e 0x12 1 op) ∧
    (∃ (e : EngId) (op : Nat) (s : State), s.dev.clean .flow ∧ s.dev.clean .shared ∧ let d := s.dev; let w (k : Nat) := leNat (((d.block e op 4).drop (4 * k)).take 4); let l := w 0 / 2 ^ 20 % 4; let k := clampIndex l (w 0 % 2 ^ 20); let parent := clampIndex (l - 1) (w 1 % 2 ^ 18); let moves := l ≠ 0 ∧ parent ≠ (d.node l k).parent; (moves ∧ d.backlog l k = true) ∧ s.dev.Asks e 0x12 1 op) ∧
    (∃ (e : EngId) (op : Nat) (s : State), s.dev.clean .flow ∧ s.dev.clean .shared ∧ let d := s.dev; let w (k : Nat) := leNat (((d.block e op 4).drop (4 * k)).take 4); let l := w 0 / 2 ^ 20 % 4; let k := clampIndex l (w 0 % 2 ^ 20); let parent := clampIndex (l - 1) (w 1 % 2 ^ 18); let moves := l ≠ 0 ∧ parent ≠ (d.node l k).parent; (l = 0 ∧ d.nodeValid 0 k = false ∨ moves ∧ d.backlog l k = false ∧ d.nodeValid (l - 1) parent = false) ∧ s.dev.Asks e 0x12 1 op) ∧
    (∃ (v : BitVec 32) (s : State), s.dev.clean .flow ∧ s.dev.clean .shared ∧ let d := s.dev; d.barred A.SCHED_IND = none ∧ bit v.toNat 31 = true ∧ d.on R.SCHED_IND_STATUS.BUSY = false) ∧
    (∃ (v : BitVec 32) (s : State), s.dev.clean .flow ∧ s.dev.clean .shared ∧ let d := s.dev; d.barred A.SCHED_IND = none ∧ (bit v.toNat 31 = false ∨ d.on R.SCHED_IND_STATUS.BUSY = true)) :=
  ⟨⟨95, 2359295, st (fabAsk queued 2 2359295 .sent 0x12), clean_of (by decide +kernel), clean_of (by decide +kernel), by decide +kernel, asks_of (by decide +kernel)⟩,
   ⟨0x80200005, st queued, clean_of (by decide +kernel), clean_of (by decide +kernel), by decide +kernel, by decide +kernel, by decide +kernel⟩,
   ⟨0x80200006, st queued, clean_of (by decide +kernel), clean_of (by decide +kernel), by decide +kernel, (by first | decide +kernel | (dsimp only; decide +kernel))⟩,
   ⟨95, 2097157, st (fabAsk queued 0 2097157 .sent 0x12), clean_of (by decide +kernel), clean_of (by decide +kernel), by decide +kernel, asks_of (by decide +kernel)⟩,
   ⟨95, 0, 0x80000000, st (fabAsk (queued.hubWrite 11 0 [(2 ^ 63 + 2097157, false)]) 1 0 .sent 0x12), clean_of (by decide +kernel), clean_of (by decide +kernel), by decide +kernel, by decide +kernel, asks_of (by decide +kernel)⟩,
   ⟨95, 0, st (fabAsk (queued.hubWrite 11 0 [(2 ^ 63 + 2 ^ 32 + 2097157, false)]) 1 0 .sent 0x12), clean_of (by decide +kernel), clean_of (by decide +kernel), by decide +kernel, asks_of (by decide +kernel)⟩,
   ⟨95, 0, st (fabAsk (w0.hubWrite 11 0 [(2 ^ 63 + 2 ^ 32 + 2097157, false)]) 1 0 .sent 0x12), clean_of (by decide +kernel), clean_of (by decide +kernel), by decide +kernel, asks_of (by decide +kernel)⟩,
   ⟨0x80000000, st w0, clean_of (by decide +kernel), clean_of (by decide +kernel), by decide +kernel, by decide +kernel, by decide +kernel⟩,
   ⟨0x80000000, st (w0 |>.set R.SCHED_IND_STATUS.BUSY 1), clean_of (by decide +kernel), clean_of (by decide +kernel), by decide +kernel, by decide +kernel⟩⟩

theorem witness_Frames_1 :
    (∃ (o : Oct) (wait : Nat) (s : State), s.dev.clean .flow ∧ s.dev.clean .cell ∧ let d := s.dev; d.awake 32 = true ∧ d.awake o = true ∧ wait ≤ 8) ∧
    (∃ (o : Oct) (wait : Nat) (s : State), s.dev.clean .flow ∧ s.dev.clean .cell ∧ let d := s.dev; d.awake 32 = true ∧ d.awake o = true ∧ 8 < wait) ∧
    (∃ (o : Oct) (p : Slot) (fr : RxFrame) (s : State), s.dev.clean .flow ∧ s.dev.clean .cell ∧ let d := s.dev; let port := 8 * o.val + p.val; d.awake 32 = true ∧ d.awake o = true ∧ d.nodeValid 0 port = true ∧ fr.badBank = none ∧ fr.done = true ∧ d.rxOpen port = none ∧ fr.full = true) ∧
    (∃ (o : Oct) (p : Slot) (fr : RxFrame) (s : State), s.dev.clean .flow ∧ s.dev.clean .cell ∧ let d := s.dev; let port := 8 * o.val + p.val; d.awake 32 = true ∧ d.awake o = true ∧ d.nodeValid 0 port = true ∧ fr.badBank = none ∧ fr.done = true ∧ d.rxOpen port = none ∧ fr.full = false ∧ d.fabMode = 0) ∧
    (∃ (o : Oct) (p : Slot) (fr : RxFrame) (s : State), s.dev.clean .flow ∧ s.dev.clean .cell ∧ let d := s.dev; let port := 8 * o.val + p.val; d.awake 32 = true ∧ d.awake o = true ∧ d.nodeValid 0 port = true ∧ fr.badBank = none ∧ fr.done = true ∧ d.rxOpen port = none ∧ fr.full = false ∧ (d.fabMode = 1 ∨ d.fabMode = 3) ∧ fr.bytes.length < 64) ∧
    (∃ (o : Oct) (p : Slot) (fr : RxFrame) (s : State), s.dev.clean .flow ∧ s.dev.clean .cell ∧ let d := s.dev; let port := 8 * o.val + p.val; let parsed := parseFrame fr.bytes; let ctl := d.isControl parsed fr.bytes; let h := d.hashes (keyRecord fr.bytes parsed port (d.get (R.PORT_CFG.KEY_SEL port))); let hit := ((d.lookup h).1.map fun g => (g, d.peekCtx g)).filter (·.2.valid); d.awake 32 = true ∧ d.awake o = true ∧ d.nodeValid 0 port = true ∧ fr.badBank = none ∧ fr.done = true ∧ d.rxOpen port = none ∧ fr.full = false ∧ (d.fabMode = 1 ∨ d.fabMode = 3) ∧ 64 ≤ fr.bytes.length ∧ fr.bytes.length ≤ d.get (R.PORT_CTRL.MAX_FRAME o) ∧ d.route port ctl parsed hit = .dropped) ∧
    (∃ (o : Oct) (p : Slot) (fr : RxFrame) (f : Nat) (x : Ctx) (s : State), s.dev.clean .flow ∧ s.dev.clean .cell ∧ let d := s.dev; let port := 8 * o.val + p.val; let parsed := parseFrame fr.bytes; let n := (fr.bytes.length + 255) / 256; let ctl := d.isControl parsed fr.bytes; let h := d.hashes (keyRecord fr.bytes parsed port (d.get (R.PORT_CFG.KEY_SEL port))); let hit := ((d.lookup h).1.map fun g => (g, d.peekCtx g)).filter (·.2.valid); d.awake 32 = true ∧ d.awake o = true ∧ d.nodeValid 0 port = true ∧ fr.badBank = none ∧ fr.done = true ∧ d.rxOpen port = none ∧ fr.full = false ∧ (d.fabMode = 1 ∨ d.fabMode = 3) ∧ 64 ≤ fr.bytes.length ∧ fr.bytes.length ≤ d.get (R.PORT_CTRL.MAX_FRAME o) ∧ d.route port ctl parsed hit = .flow f x ∧ f < 2 ^ 20 ∧ ∃ c q, d.fate f x n = .drop c q) ∧
    (∃ (o : Oct) (p : Slot) (fr : RxFrame) (f : Nat) (x : Ctx) (s : State), s.dev.clean .flow ∧ s.dev.clean .cell ∧ let d := s.dev; let port := 8 * o.val + p.val; let parsed := parseFrame fr.bytes; let n := (fr.bytes.length + 255) / 256; let ctl := d.isControl parsed fr.bytes; let h := d.hashes (keyRecord fr.bytes parsed port (d.get (R.PORT_CFG.KEY_SEL port))); let hit := ((d.lookup h).1.map fun g => (g, d.peekCtx g)).filter (·.2.valid); let cls := if x.ctrlClass || ctl then 1 else 0; d.awake 32 = true ∧ d.awake o = true ∧ d.nodeValid 0 port = true ∧ fr.badBank = none ∧ fr.done = true ∧ d.rxOpen port = none ∧ fr.full = false ∧ (d.fabMode = 1 ∨ d.fabMode = 3) ∧ 64 ≤ fr.bytes.length ∧ fr.bytes.length ≤ d.get (R.PORT_CTRL.MAX_FRAME o) ∧ d.route port ctl parsed hit = .flow f x ∧ f < 2 ^ 20 ∧ d.fate f x n = .link ∧ (d.allocCells cls n).1.length < n) ∧
    (∃ (o : Oct) (p : Slot) (fr : RxFrame) (f : Nat) (x : Ctx) (s : State), s.dev.clean .flow ∧ s.dev.clean .cell ∧ let d := s.dev; let port := 8 * o.val + p.val; let parsed := parseFrame fr.bytes; let n := (fr.bytes.length + 255) / 256; let ctl := d.isControl parsed fr.bytes; let h := d.hashes (keyRecord fr.bytes parsed port (d.get (R.PORT_CFG.KEY_SEL port))); let hit := ((d.lookup h).1.map fun g => (g, d.peekCtx g)).filter (·.2.valid); let cls := if x.ctrlClass || ctl then 1 else 0; let sound := fr.cut = false ∧ (∀ c ∈ (d.pt o p).badCw, c < fr.cw.1 ∨ fr.cw.2 < c) ∧ fcsOk fr.bytes = true; d.awake 32 = true ∧ d.awake o = true ∧ d.nodeValid 0 port = true ∧ fr.badBank = none ∧ fr.done = true ∧ d.rxOpen port = none ∧ fr.full = false ∧ (d.fabMode = 1 ∨ d.fabMode = 3) ∧ 64 ≤ fr.bytes.length ∧ fr.bytes.length ≤ d.get (R.PORT_CTRL.MAX_FRAME o) ∧ d.route port ctl parsed hit = .flow f x ∧ f < 2 ^ 20 ∧ sound ∧ x.onchip + n < 2 ^ 21 ∧ d.fate f x n = .link ∧ (d.allocCells cls n).1.length = n) ∧
    (∃ (o : Oct) (p : Slot) (fr : RxFrame) (s : State), s.dev.clean .flow ∧ s.dev.clean .cell ∧ let d := s.dev; let port := 8 * o.val + p.val; let parsed := parseFrame fr.bytes; let ctl := d.isControl parsed fr.bytes; let h := d.hashes (keyRecord fr.bytes parsed port (d.get (R.PORT_CFG.KEY_SEL port))); let hit := ((d.lookup h).1.map fun g => (g, d.peekCtx g)).filter (·.2.valid); let sound := fr.cut = false ∧ (∀ c ∈ (d.pt o p).badCw, c < fr.cw.1 ∨ fr.cw.2 < c) ∧ fcsOk fr.bytes = true; d.awake 32 = true ∧ d.awake o = true ∧ d.nodeValid 0 port = true ∧ fr.badBank = none ∧ fr.done = true ∧ d.rxOpen port = none ∧ fr.full = false ∧ (d.fabMode = 1 ∨ d.fabMode = 3) ∧ 64 ≤ fr.bytes.length ∧ fr.bytes.length ≤ d.get (R.PORT_CTRL.MAX_FRAME o) ∧ ∃ r c, d.route port ctl parsed hit = .punt r ∧ d.puntRing h.1 = some (c, false) ∧ d.on (R.PUNT_CFG.EN c) = true ∧ d.ringFill c < d.ringSize c ∧ sound ∧ ∃ cells, (d.storeFrame (if ctl || hit.any (·.2.ctrlClass) then 1 else 0) fr.bytes).1 = some cells) :=
  ⟨⟨0, 8, st w0, clean_of (by decide +kernel), clean_of (by decide +kernel), by decide +kernel, by decide +kernel, by decide +kernel⟩,
   ⟨0, 9, st w0, clean_of (by decide +kernel), clean_of (by decide +kernel), by decide +kernel, by decide +kernel, by decide +kernel⟩,
   ⟨31, 0, { arr frm with full := true }, st w0, clean_of (by decide +kernel), clean_of (by decide +kernel), by decide +kernel, by decide +kernel, by decide +kernel, by decide +kernel, by decide +kernel, by decide +kernel, by decide +kernel⟩,
   ⟨0, 0, arr frm, st w0, clean_of (by decide +kernel), clean_of (by decide +kernel), by decide +kernel, by decide +kernel, by decide +kernel, by decide +kernel, by decide +kernel, by decide +kernel, by decide +kernel, by decide +kernel⟩,
   ⟨0, 0, arr (frm.take 63), st hit, clean_of (by decide +kernel), clean_of (by decide +kernel), by decide +kernel, by decide +kernel, by decide +kernel, by decide +kernel, by decide +kernel, by decide +kernel, by decide +kernel, by decide +kernel, by decide +kernel⟩,
   ⟨0, 0, arr frm, st (hit.putCtx 401264 (hit.peekCtx 401264) { hit.peekCtx 401264 with ctrl := ctl 1 + 2 ^ 20 }), clean_of (by decide +kernel), clean_of (by decide +kernel), by decide +kernel, by decide +kernel, by decide +kernel, by decide +kernel, by decide +kernel, by decide +kernel, by decide +kernel, by decide +kernel, by decide +kernel, by decide +kernel, (by rw [hashes_frm] <;> decide +kernel)⟩,
   ⟨0, 0, arr frm, 401264, hit.peekCtx 401264, st hit, clean_of (by decide +kernel), clean_of (by decide +kernel), by decide +kernel, by decide +kernel, by decide +kernel, by decide +kernel, by decide +kernel, by decide +kernel, by decide +kernel, by decide +kernel, by decide +kernel, by decide +kernel, (by rw [hashes_frm] <;> decide +kernel), by decide +kernel, 17, none, by decide +kernel⟩,
   ⟨0, 0, arr frm, 401264, hit.peekCtx 401264, st (((path hit 401264).onF fun x => { x with banks := (List.range 256).map (·, { fresh := 4096 }) })), clean_of (by decide +kernel), clean_of (by decide +kernel), by decide +kernel, by decide +kernel, by decide +kernel, by decide +kernel, by decide +kernel, by decide +kernel, by decide +kernel, by decide +kernel, by decide +kernel, by decide +kernel, (by rw [hashes_frm] <;> decide +kernel), by decide +kernel, by decide +kernel, by decide +kernel⟩,
   ⟨0, 0, arr frm, 401264, hit.peekCtx 401264, st (path hit 401264), clean_of (by decide +kernel), clean_of (by decide +kernel), by decide +kernel, by decide +kernel, by decide +kernel, by decide +kernel, by decide +kernel, by decide +kernel, by decide +kernel, by decide +kernel, by decide +kernel, by decide +kernel, (by rw [hashes_frm] <;> decide +kernel), by decide +kernel, ⟨rfl, by decide +kernel, by decide +kernel⟩, by decide +kernel, by decide +kernel, by decide +kernel⟩,
   ⟨0, 0, arr frm, st ((((keyed.onE 0 fun _ => runs).set R.FL_CTRL.RUN 1).set (R.PUNT_CFG.EN 0) 1)), clean_of (by decide +kernel), clean_of (by decide +kernel), by decide +kernel, by decide +kernel, by decide +kernel, by decide +kernel, by decide +kernel, by decide +kernel, by decide +kernel, by decide +kernel, by decide +kernel, by decide +kernel, prMISS, 0, (by rw [hashes_frm] <;> decide +kernel), (by rw [hashes_frm] <;> decide +kernel), by decide +kernel, by decide +kernel, ⟨rfl, by decide +kernel, by decide +kernel⟩, [0], (by rw [hashes_frm] <;> decide +kernel)⟩⟩

theorem witness_Frames_2 :
    (∃ (o : Oct) (p : Slot) (fr : RxFrame) (s : State), s.dev.clean .flow ∧ s.dev.clean .cell ∧ let d := s.dev; let port := 8 * o.val + p.val; d.awake 32 = true ∧ d.awake o = true ∧ d.nodeValid 0 port = true ∧ fr.badBank = none ∧ fr.done = false ∧ (fr.full = true ∨ d.fabMode = 0 ∨ (d.rxOpen port).isSome = true)) ∧
    (∃ (o : Oct) (p : Slot) (fr : RxFrame) (f : Nat) (x : Ctx) (s : State), s.dev.clean .flow ∧ s.dev.clean .cell ∧ let d := s.dev; let port := 8 * o.val + p.val; let parsed := parseFrame fr.bytes; let ctl := d.isControl parsed fr.bytes; let h := d.hashes (keyRecord fr.bytes parsed port (d.get (R.PORT_CFG.KEY_SEL port))); let hit := ((d.lookup h).1.map fun g => (g, d.peekCtx g)).filter (·.2.valid); let cls := if x.ctrlClass || ctl then 1 else 0; d.awake 32 = true ∧ d.awake o = true ∧ d.nodeValid 0 port = true ∧ fr.badBank = none ∧ fr.done = false ∧ fr.full = false ∧ (d.fabMode = 1 ∨ d.fabMode = 3) ∧ d.rxOpen port = none ∧ fr.bytes.length = 256 ∧ d.route port ctl parsed hit = .flow f x ∧ f < 2 ^ 20 ∧ d.qualifies port f x parsed = true ∧ d.fate f x 1 = .link ∧ (d.allocCells cls 1).1.length = 1) ∧
    (∃ (o : Oct) (p : Slot) (fr : RxFrame) (f : Nat) (x : Ctx) (s : State), s.dev.clean .flow ∧ s.dev.clean .cell ∧ let d := s.dev; let port := 8 * o.val + p.val; let sound := fr.cut = false ∧ (∀ c ∈ (d.pt o p).badCw, c < fr.cw.1 ∨ fr.cw.2 < c) ∧ fcsOk fr.bytes = true; d.awake 32 = true ∧ d.awake o = true ∧ d.nodeValid 0 port = true ∧ fr.badBank = none ∧ fr.done = true ∧ ∃ r, d.rxOpen port = some r ∧ r.dead = false ∧ r.flow = f ∧ f < 2 ^ 20 ∧ x = d.peekCtx f ∧ x.valid = true ∧ sound ∧ fr.bytes.length ≤ r.max ∧ r.sel = false ∧ x.onchip + (fr.bytes.length - 256 + 255) / 256 < 2 ^ 21 ∧ ∃ cells, (d.storeFrame (descClass (d.desc r.first)) (fr.bytes.drop 256)).1 = some cells) ∧
    (∃ (o : Oct) (p : Slot) (s : State), s.dev.clean .flow ∧ s.dev.clean .cell ∧ let d := s.dev; let port := 8 * o.val + p.val; d.awake 32 = true ∧ Tbl.get [] d.fab.egr port = []) ∧
    (∃ (o : Oct) (p : Slot) (s : State), s.dev.clean .flow ∧ s.dev.clean .cell ∧ let d := s.dev; let port := 8 * o.val + p.val; d.awake 32 = true ∧ ∃ g rest, Tbl.get [] d.fab.egr port = g :: rest ∧ g.open_ = true) ∧
    (∃ (o : Oct) (p : Slot) (s : State), s.dev.clean .flow ∧ s.dev.clean .cell ∧ let d := s.dev; let port := 8 * o.val + p.val; d.awake 32 = true ∧ ∃ g rest, Tbl.get [] d.fab.egr port = g :: rest ∧ g.open_ = false ∧ let cells := d.walk g.first g.cells; cells.any (fun c => bit (d.link c) 21) = false) ∧
    (∃ (o : Oct) (p : Slot) (s : State), s.dev.clean .flow ∧ s.dev.clean .cell ∧ let d := s.dev; let port := 8 * o.val + p.val; d.awake 32 = true ∧ ∃ g rest, Tbl.get [] d.fab.egr port = g :: rest ∧ g.open_ = false ∧ let cells := d.walk g.first g.cells; cells.any (fun c => bit (d.link c) 21) = true) ∧
    (∃ (o : Oct) (p : Slot) (s : State), s.dev.clean .flow ∧ s.dev.clean .cell ∧ let d := s.dev; let port := 8 * o.val + p.val; d.awake 32 = true ∧ d.nodeValid 0 port = true ∧ ((d.p o).test = true ∨ d.portUp o p = false)) ∧
    (∃ (o : Oct) (p : Slot) (s : State), s.dev.clean .flow ∧ s.dev.clean .cell ∧ let d := s.dev; let port := 8 * o.val + p.val; d.awake 32 = true ∧ d.nodeValid 0 port = true ∧ (d.p o).test = false ∧ d.portUp o p = true) :=
  ⟨⟨0, 0, ⟨frm, false, (0, 0), false, false, 0, 5, none⟩, st w0, clean_of (by decide +kernel), clean_of (by decide +kernel), by decide +kernel, by decide +kernel, by decide +kernel, by decide +kernel, by decide +kernel, by decide +kernel⟩,
   ⟨0, 0, ⟨ipf, false, (0, 0), false, false, 0, 5, none⟩, 737548, cuts.peekCtx 737548, st cuts, clean_of (by decide +kernel), clean_of (by decide +kernel), by decide +kernel, by decide +kernel, by decide +kernel, by decide +kernel, by decide +kernel, by decide +kernel, by decide +kernel, by decide +kernel, by decide +kernel, (by rw [hashes_ipf] <;> decide +kernel), by decide +kernel, by decide +kernel, by decide +kernel, by decide +kernel⟩,
   ⟨0, 0, arr frm, 7, { ctrl := ctl 1, onchip := 1 }, st ((ctxD 7 { ctrl := ctl 1, onchip := 1 }).onF fun x => { x with rx := [(0, some ⟨7, 0, 0, 1, 260, 9728, false, false⟩)] }), clean_of (by decide +kernel), clean_of (by decide +kernel), by decide +kernel, by decide +kernel, by decide +kernel, by decide +kernel, by decide +kernel, ⟨7, 0, 0, 1, 260, 9728, false, false⟩, by decide +kernel, by decide +kernel, by decide +kernel, by decide +kernel, by decide +kernel, by decide +kernel, ⟨rfl, by decide +kernel, by decide +kernel⟩, by decide +kernel, by decide +kernel, by decide +kernel, [], by decide +kernel⟩,
   ⟨0, 0, st w0, clean_of (by decide +kernel), clean_of (by decide +kernel), by decide +kernel, by decide +kernel⟩,
   ⟨0, 0, st ((w0.onF fun x => { x with egr := [(0, [⟨7, 0, 1, 64, true, false⟩])] })), clean_of (by decide +kernel), clean_of (by decide +kernel), by decide +kernel, ⟨7, 0, 1, 64, true, false⟩, [], by decide +kernel, by decide +kernel⟩,
   ⟨0, 0, st ((w0.onF fun x => { x with egr := [(0, [⟨7, 0, 1, 64, false, false⟩])] })), clean_of (by decide +kernel), clean_of (by decide +kernel), by decide +kernel, ⟨7, 0, 1, 64, false, false⟩, [], by decide +kernel, by decide +kernel, (by first | decide +kernel | (dsimp only; decide +kernel))⟩,
   ⟨0, 0, st ((w0.onF fun x => { x with links := [(0, 2 ^ 21)], egr := [(0, [⟨7, 0, 1, 64, false, false⟩])] })), clean_of (by decide +kernel), clean_of (by decide +kernel), by decide +kernel, ⟨7, 0, 1, 64, false, false⟩, [], by decide +kernel, by decide +kernel, (by first | decide +kernel | (dsimp only; decide +kernel))⟩,
   ⟨0, 0, st w0, clean_of (by decide +kernel), clean_of (by decide +kernel), by decide +kernel, by decide +kernel, by decide +kernel⟩,
   ⟨0, 0, st (w0 |>.set (R.PORT_STATUS.STATE 0 0) 3), clean_of (by decide +kernel), clean_of (by decide +kernel), by decide +kernel, by decide +kernel, by decide +kernel, by decide +kernel⟩⟩

theorem witness_PoolSpillGauge_1 :
    (∃ (s : State), s.dev.clean .flow ∧ s.dev.clean .cell ∧ let d := s.dev; d.barred A.FL_CTRL = none) ∧
    (∃ (w : Fin 8) (s : State), s.dev.clean .flow ∧ s.dev.clean .cell ∧ let d := s.dev; d.barred (A.HASH_KEY w) = none) ∧
    (∃ (s : State), s.dev.clean .flow ∧ s.dev.clean .cell ∧ let d := s.dev; d.awake 32 = true ∧ d.on R.FL_STATUS.RECLAIM_BUSY = true) ∧
    (∃ (s : State), s.dev.clean .flow ∧ s.dev.clean .cell ∧ let d := s.dev; d.awake 32 = true ∧ d.on R.FL_STATUS.RECLAIM_BUSY = false) ∧
    (∃ (s : State), s.dev.clean .flow ∧ s.dev.clean .cell ∧ let d := s.dev; d.awake 32 = true ∧ d.fab.stage = []) ∧
    (∃ (f : Nat) (s : State), s.dev.clean .flow ∧ s.dev.clean .cell ∧ let d := s.dev; d.awake 32 = true ∧ ∃ c n rest, d.fab.stage = (f, c, n) :: rest ∧ d.dramActive = false) ∧
    (∃ (f : Nat) (s : State), s.dev.clean .flow ∧ s.dev.clean .cell ∧ let d := s.dev; d.awake 32 = true ∧ ∃ c n rest, d.fab.stage = (f, c, n) :: rest ∧ d.clean .dram ∧ d.dramActive = true ∧ f < 2 ^ 20 ∧ let x := d.peekCtx f; x.valid = false) ∧
    (∃ (f : Nat) (s : State), s.dev.clean .flow ∧ s.dev.clean .cell ∧ let d := s.dev; d.awake 32 = true ∧ ∃ c n rest, d.fab.stage = (f, c, n) :: rest ∧ d.clean .dram ∧ d.dramActive = true ∧ f < 2 ^ 20 ∧ let x := d.peekCtx f; x.valid = true ∧ x.newChunks n ≤ d.get R.SPILL_CHUNKS.FREE ∧ x.sCount + n < 2 ^ 28) :=
  ⟨⟨st w0, clean_of (by decide +kernel), clean_of (by decide +kernel), (by first | decide +kernel | (dsimp only; decide +kernel))⟩,
   ⟨7, st w0, clean_of (by decide +kernel), clean_of (by decide +kernel), (by first | decide +kernel | (dsimp only; decide +kernel))⟩,
   ⟨st (w0 |>.set R.FL_STATUS.RECLAIM_BUSY 1), clean_of (by decide +kernel), clean_of (by decide +kernel), by decide +kernel, by decide +kernel⟩,
   ⟨st w0, clean_of (by decide +kernel), clean_of (by decide +kernel), by decide +kernel, by decide +kernel⟩,
   ⟨st w0, clean_of (by decide +kernel), clean_of (by decide +kernel), by decide +kernel, by decide +kernel⟩,
   ⟨1048575, st (((w0.onF fun x => { x with stage := [(1048575, 0, 1)] }).setPolder 47 1)), clean_of (by decide +kernel), clean_of (by decide +kernel), by decide +kernel, 0, 1, [], by decide +kernel, by decide +kernel⟩,
   ⟨1048575, st ((w0.onF fun x => { x with stage := [(1048575, 0, 1)] })), clean_of (by decide +kernel), clean_of (by decide +kernel), by decide +kernel, 0, 1, [], by decide +kernel, clean_of (by decide +kernel), by decide +kernel, by decide +kernel, (by first | decide +kernel | (dsimp only; decide +kernel))⟩,
   ⟨1048575, st ((((ctxD 1048575 { ctrl := ctl 1, sCount := 2 ^ 28 - 2 }).onF fun x => { x with stage := [(1048575, 0, 1)] }).set R.SPILL_CHUNKS.FREE 1)), clean_of (by decide +kernel), clean_of (by decide +kernel), by decide +kernel, 0, 1, [], by decide +kernel, clean_of (by decide +kernel), by decide +kernel, by decide +kernel, by decide +kernel, by decide +kernel, by decide +kernel⟩⟩

theorem witness_PoolSpillGauge_2 :
    (∃ (f : Nat) (s : State), s.dev.clean .flow ∧ s.dev.clean .cell ∧ let d := s.dev; d.awake 32 = true ∧ ∃ c n rest, d.fab.stage = (f, c, n) :: rest ∧ d.clean .dram ∧ d.dramActive = true ∧ f < 2 ^ 20 ∧ let x := d.peekCtx f; x.valid = true ∧ d.get R.SPILL_CHUNKS.FREE < x.newChunks n) ∧
    (∃ (f : Nat) (s : State), s.dev.clean .flow ∧ s.dev.clean .cell ∧ let d := s.dev; d.awake 32 = true ∧ d.clean .dram ∧ d.dramActive = true ∧ f < 2 ^ 20 ∧ d.fab.fetchQ.head? = some f ∧ (d.peekCtx f).valid = true ∧ let x := d.peekCtx f; let n := min (15 - x.sHead % 16) x.sCount; x.wants = true ∧ x.sHead % 16 < 15 ∧ (d.allocCells 3 n).1.length = n) ∧
    (∃ (f : Nat) (s : State), s.dev.clean .flow ∧ s.dev.clean .cell ∧ let d := s.dev; d.awake 32 = true ∧ d.clean .dram ∧ d.dramActive = true ∧ f < 2 ^ 20 ∧ d.fab.fetchQ.head? = some f ∧ (d.peekCtx f).valid = true ∧ let x := d.peekCtx f; x.wants = false) ∧
    (∃ (f : Nat) (s : State), s.dev.clean .flow ∧ s.dev.clean .cell ∧ let d := s.dev; d.awake 32 = true ∧ f < 2 ^ 20 ∧ (d.fab.fetchQ.head? ≠ some f ∨ d.dramActive = false)) ∧
    (∃ (g : Fin 64) (s : State), s.dev.clean .flow ∧ s.dev.clean .cell ∧ let d := s.dev; d.awake 32 = true ∧ d.on (R.GAUGE_SRC.EN g) = false) ∧
    (∃ (g : Fin 64) (s : State), s.dev.clean .flow ∧ s.dev.clean .cell ∧ let d := s.dev; let lvl := d.get (R.GAUGE_LVL.LEVEL g); let val := d.gaugeValue g; let above := d.on (R.GAUGE_STAT.ABOVE g); d.awake 32 = true ∧ d.on (R.GAUGE_SRC.EN g) = true ∧ above = false ∧ lvl ≤ val) ∧
    (∃ (g : Fin 64) (s : State), s.dev.clean .flow ∧ s.dev.clean .cell ∧ let d := s.dev; let lvl := d.get (R.GAUGE_LVL.LEVEL g); let val := d.gaugeValue g; let above := d.on (R.GAUGE_STAT.ABOVE g); d.awake 32 = true ∧ d.on (R.GAUGE_SRC.EN g) = true ∧ above = true ∧ val + 2 ^ d.get (R.GAUGE_SRC.HYST_EXP g) < lvl) :=
  ⟨⟨1048575, st (((ctxD 1048575 { ctrl := ctl 1 }).onF fun x => { x with stage := [(1048575, 0, 1)] })), clean_of (by decide +kernel), clean_of (by decide +kernel), by decide +kernel, 0, 1, [], by decide +kernel, clean_of (by decide +kernel), by decide +kernel, by decide +kernel, by decide +kernel, by decide +kernel⟩,
   ⟨1048575, st (((ctxD 1048575 { ctrl := ctl 1 + 2 ^ 22, sCount := 1, sHead := 14, allow := 1 }).onF fun x => { x with fetchQ := [1048575] })), clean_of (by decide +kernel), clean_of (by decide +kernel), by decide +kernel, clean_of (by decide +kernel), by decide +kernel, by decide +kernel, by decide +kernel, by decide +kernel, by decide +kernel, by decide +kernel, by decide +kernel⟩,
   ⟨1048575, st (((ctxD 1048575 { ctrl := ctl 1, sCount := 1, allow := 1 }).onF fun x => { x with fetchQ := [1048575] })), clean_of (by decide +kernel), clean_of (by decide +kernel), by decide +kernel, clean_of (by decide +kernel), by decide +kernel, by decide +kernel, by decide +kernel, by decide +kernel, (by first | decide +kernel | (dsimp only; decide +kernel))⟩,
   ⟨1048575, st w0, clean_of (by decide +kernel), clean_of (by decide +kernel), by decide +kernel, by decide +kernel, by decide +kernel⟩,
   ⟨63, st w0, clean_of (by decide +kernel), clean_of (by decide +kernel), by decide +kernel, by decide +kernel⟩,
   ⟨63, st (w0 |>.set (R.GAUGE_SRC.EN 63) 1), clean_of (by decide +kernel), clean_of (by decide +kernel), by decide +kernel, by decide +kernel, by decide +kernel, by decide +kernel⟩,
   ⟨63, st (w0 |>.set (R.GAUGE_SRC.EN 63) 1 |>.set (R.GAUGE_SRC.SRC 63) 6 |>.set (R.GAUGE_STAT.ABOVE 63) 1 |>.set (R.GAUGE_LVL.LEVEL 63) 2), clean_of (by decide +kernel), clean_of (by decide +kernel), by decide +kernel, by decide +kernel, by decide +kernel, by decide +kernel⟩⟩

theorem witness_LoopCommands :
    (∃ (o : Oct) (s : State), let d := s.dev; d.barred (A.RC_DATA o) = none) ∧
    (w0.barred (A.MODE_SET 31) = none ∧ w0.barred (A.L_CTRL 31 19) = none ∧ w0.barred (A.TARGET 31 19) = none ∧ w0.barred (A.INTEG_LO 31 19) = none ∧ w0.barred (A.INTEG_HI 31 19) = none) ∧
    (∀ k : Fin 5, (asked w0 87 0x23 k 77 31).Asks 87 (weirChan 87 31) k 77 ∧ (asked w0 87 0x23 k 77 31).req 87 0x23 k .taken = none) ∧
    (∀ k : Fin 5, (asked w0 95 507 k 77 31).Asks 95 (weirChan 95 31) k 77 ∧ (asked w0 95 507 k 77 31).req 95 507 k .taken = none) :=
  ⟨⟨31, st (w0 |>.set (R.RC_ADDR.ADDR 31) 32767), (by first | decide +kernel | (dsimp only; decide +kernel))⟩,
   by decide +kernel,
   fun k => ⟨asks_of (by revert k; decide +kernel), by revert k; decide +kernel⟩,
   fun k => ⟨asks_of (by revert k; decide +kernel), by revert k; decide +kernel⟩⟩

theorem witness_LoopTick :
    (∃ (o : Oct) (s : State), s.dev.awake o = true ∧ let d := s.dev; d.polder o = 3) ∧
    (∃ (o : Oct) (s : State), s.dev.awake o = true ∧ s.dev.polder o ≠ 3) ∧
    (∃ (o : Oct) (j : Fin 20) (s : State), s.dev.awake o = true ∧ let d := s.dev; let w := d.w o; let n := w.tick; w.ops = [] ∧ d.due o j n = false ∧ s.dev.polder o ≠ 3) ∧
    (∃ (o : Oct) (j : Fin 20) (s : State), s.dev.awake o = true ∧ let d := s.dev; let w := d.w o; let n := w.tick; let x := d.lp o j; let alone := w.ops = [] ∧ d.due o j n = true ∧ d.on (R.L_CTRL.DW_EN o j) = false ∧ x.dwOff = false ∧ x.preset = none; alone ∧ d.lmode o j = 0 ∧ d.get (R.L_CTRL.MODE o j) = 0 ∧ s.dev.polder o ≠ 3) ∧
    (∃ (o : Oct) (ins : List (List (BitVec 14))) (j : Fin 20) (s : State), s.dev.awake o = true ∧ let d := s.dev; let w := d.w o; let n := w.tick; let x := d.lp o j; let alone := w.ops = [] ∧ d.due o j n = true ∧ d.on (R.L_CTRL.DW_EN o j) = false ∧ x.dwOff = false ∧ x.preset = none; let y := (d.edgeTick o ins).measure o j; alone ∧ d.lmode o j = 1 ∧ y = none ∧ s.dev.polder o ≠ 3) ∧
    (∃ (o : Oct) (ins : List (List (BitVec 14))) (j : Fin 20) (s : State), s.dev.awake o = true ∧ let d := s.dev; let w := d.w o; let n := w.tick; let x := d.lp o j; let alone := w.ops = [] ∧ d.due o j n = true ∧ d.on (R.L_CTRL.DW_EN o j) = false ∧ x.dwOff = false ∧ x.preset = none; let y := (d.edgeTick o ins).measure o j; ∃ m, alone ∧ d.lmode o j = 1 ∧ d.get (R.L_CTRL.MODE o j) = 1 ∧ y = some m ∧ d.on (R.L_CTRL.RC_EN o j) = false ∧ d.on (R.L_CTRL.BUMPLESS o j) = false ∧ x.r = d.getI (R.TARGET.T o j) * 256 ∧ x.v = 0 ∧ s.dev.polder o ≠ 3) ∧
    (∃ (o : Oct) (j : Fin 20) (s : State), s.dev.awake o = true ∧ let d := s.dev; let w := d.w o; ∃ v, w.ops = [.reg 0x10 v] ∧ getBits v 31 30 = 0 ∧ bit v 29 = true ∧ bit v j = true ∧ s.dev.polder o ≠ 3) ∧
    (∃ (o : Oct) (s : State), s.dev.awake o = true ∧ let d := s.dev; let w := d.w o; let n := w.tick; ∃ (e : EngId), ∃ ch, ∃ k, ∃ op, w.ops = [.req e ch k op] ∧ w.owed = [] ∧ (∀ r, d.req e ch k .taken = some r → r.op.toNat = op) ∧ (∀ l ∈ reqLoops k op, d.due o l n = true) ∧ s.dev.polder o ≠ 3) ∧
    (∃ (o : Oct) (s : State), s.dev.awake o = true ∧ let d := s.dev; let w := d.w o; let n := w.tick; ∃ (e : EngId), ∃ ch, ∃ k, ∃ op, w.ops = [.req e ch k op] ∧ w.owed = [] ∧ (∀ r, d.req e ch k .taken = some r → r.op.toNat = op) ∧ (∃ l ∈ reqLoops k op, d.due o l n = false) ∧ s.dev.polder o ≠ 3) ∧
    (∃ (o : Oct) (j : Fin 20) (s : State), s.dev.awake o = true ∧ let d := s.dev; let w := d.w o; ∃ (e : EngId), ∃ ch, ∃ k, ∃ op, w.ops = [.req e ch k op] ∧ w.owed = [] ∧ (∀ r, d.req e ch k .taken = some r → r.op.toNat = op) ∧ k = 2 ∧ min 19 (op % 32) = j.val ∧ s.dev.polder o ≠ 3) :=
  ⟨⟨31, st ((w0.setPolder 31 3)), by decide +kernel, (by first | decide +kernel | (dsimp only; decide +kernel))⟩,
   ⟨31, st (w0.onW 31 fun w => { w with tick := 2 ^ 32 - 1, ops := [.mem 3 4] }), by decide +kernel, by decide +kernel⟩,
   ⟨31, 19, st ((w0.set (R.L_CTRL.RDIV_EXP 31 19) 15).onW 31 fun w => { w with tick := 32767 }), by decide +kernel, by decide +kernel, by decide +kernel, by decide +kernel⟩,
   ⟨31, 19, st (((w0.set (R.MAN_RATE.VAL 31 19) 500).set (R.MAN_OUT.VAL 31 19) 0xFFFFFF).onLp 31 19 fun x => { x with o := 7 }), by decide +kernel, by decide +kernel, by decide +kernel, by decide +kernel, by decide +kernel⟩,
   ⟨31, [], 19, st (w0 |>.set (R.L_STATUS.MODE 31 19) 1 |>.set (R.L_CTRL.MODE 31 19) 1), by decide +kernel, by decide +kernel, by decide +kernel, by decide +kernel, by decide +kernel⟩,
   ⟨31, [], 19, st (w0 |>.set (R.L_CTRL.BUMPLESS 31 19) 0 |>.set (R.L_STATUS.MODE 31 19) 1 |>.set (R.L_CTRL.MODE 31 19) 1 |>.set (R.KP.M 31 19) 65535 |>.set (R.CH_VALUE.VALID 31 19) 1 |>.set (R.CH_VALUE.VALUE 31 19) 0xFFFFFB), by decide +kernel, -5, by decide +kernel, by decide +kernel, by decide +kernel, by decide +kernel, by decide +kernel, by decide +kernel, by decide +kernel, by decide +kernel, by decide +kernel⟩,
   ⟨31, 19, st ((w0.set (R.PARK.VAL 31 19) 9).onW 31 fun w => { w with ops := [.reg 0x10 0x20080000] }), by decide +kernel, 0x20080000, by decide +kernel, by decide +kernel, by decide +kernel, by decide +kernel, by decide +kernel⟩,
   ⟨31, st ((asked w0 87 0x23 2 0x50000000013 31 .taken).onW 31 fun w => { w with ops := [.req 87 0x23 2 0x50000000013] }), by decide +kernel, 87, 0x23, 2, 0x50000000013, by decide +kernel, by decide +kernel, asks_taken (by decide +kernel), by decide +kernel, by decide +kernel⟩,
   ⟨31, st (((asked w0 87 0x23 2 0x50000000013 31 .taken).set (R.L_CTRL.RDIV_EXP 31 19) 15).onW 31 fun w => { w with tick := 1, ops := [.req 87 0x23 2 0x50000000013] }), by decide +kernel, 87, 0x23, 2, 0x50000000013, by decide +kernel, by decide +kernel, asks_taken (by decide +kernel), by decide +kernel, by decide +kernel⟩,
   ⟨31, 19, st ((asked w0 87 0x23 2 0x50000000013 31 .taken).onW 31 fun w => { w with ops := [.req 87 0x23 2 0x50000000013] }), by decide +kernel, 87, 0x23, 2, 0x50000000013, by decide +kernel, by decide +kernel, asks_taken (by decide +kernel), by decide +kernel, by decide +kernel, by decide +kernel⟩⟩

theorem witness_AnalogEdge_1 :
    (∃ (o : Oct) (s : State), let d := s.dev; let w := d.w o; d.barred (A.AE_CTRL o) = none ∧ d.on (R.AE_CTRL.SCAN_EN o) = false ∧ w.cal = false) ∧
    (∃ (o : Oct) (s : State), let d := s.dev; let w := d.w o; d.barred (A.AE_CTRL o) = none ∧ d.on (R.AE_CTRL.SCAN_EN o) = false ∧ w.cal = true) ∧
    (∃ (o : Oct) (s : State), let d := s.dev; d.barred (A.AE_CTRL o) = none ∧ d.on (R.AE_CTRL.SCAN_EN o) = true) ∧
    (∃ (o : Oct) (s : State), let d := s.dev; d.barred (A.AE_CTRL o) = none) ∧
    (∃ (o : Oct) (v : BitVec 32) (s : State), let d := s.dev; let nv := v.toNat; let ref := d.get (R.AE_CTRL.REF_SEL o); d.barred (A.AE_CTRL o) = none ∧ min 2 (getBits nv 25 24) ≠ ref) ∧
    (∃ (o : Oct) (s : State), let d := s.dev; d.barred (A.AE_SCAN_MASK o) = none) ∧
    (∃ (o : Oct) (i : Fin 20) (s : State), let d := s.dev; d.barred (A.CH_CFG o i) = none) ∧
    (∃ (o : Oct) (s : State), let d := s.dev; d.barred (A.AE_OUT_CTRL o) = none) ∧
    (∃ (o : Oct) (s : State), let d := s.dev; d.awake o = true ∧ d.on (R.AE_STATUS.REF_SETTLED o) = false) :=
  ⟨⟨31, st w0, by decide +kernel, by decide +kernel, by decide +kernel⟩,
   ⟨31, st (w0.onW 31 fun w => { w with cal := true }), by decide +kernel, by decide +kernel, by decide +kernel⟩,
   ⟨31, st (w0 |>.set (R.AE_CTRL.SCAN_EN 31) 1), by decide +kernel, by decide +kernel⟩,
   ⟨31, st w0, (by first | decide +kernel | (dsimp only; decide +kernel))⟩,
   ⟨31, 0xFFFFFFFF, st w0, by decide +kernel, by decide +kernel⟩,
   ⟨31, st w0, (by first | decide +kernel | (dsimp only; decide +kernel))⟩,
   ⟨31, 19, st w0, (by first | decide +kernel | (dsimp only; decide +kernel))⟩,
   ⟨31, st w0, (by first | decide +kernel | (dsimp only; decide +kernel))⟩,
   ⟨31, st (w0 |>.set (R.AE_STATUS.REF_SETTLED 31) 0), by decide +kernel, by decide +kernel⟩⟩

theorem witness_AnalogEdge_2 :
    (∃ (o : Oct) (s : State), let d := s.dev; d.awake o = true ∧ d.on (R.AE_STATUS.REF_SETTLED o) = true) ∧
    (∃ (o : Oct) (h : Fin 16) (s : State), let d := s.dev; d.awake o = true ∧ bit (d.get (R.AE_DROPOUT.LIVE o)) h = false) ∧
    (∃ (o : Oct) (h : Fin 16) (s : State), let d := s.dev; d.awake o = true ∧ bit (d.get (R.AE_DROPOUT.LIVE o)) h = true) ∧
    (∃ (o : Oct) (s : State), let d := s.dev; d.awake o = true) ∧
    (∃ (o : Oct) (s : State), let d := s.dev; let w := d.w o; d.awake o = true ∧ w.cal = false) ∧
    (∃ (o : Oct) (range : Bool) (z : Int) (f : Int) (s : State), let d := s.dev; let w := d.w o; let ref := d.get (R.AE_CTRL.REF_SEL o); d.awake o = true ∧ w.cal = true ∧ let passes := (range = true ∨ ref = 0) ∧ (z - 8192 * 1024).natAbs ≤ 512 * 1024 ∧ (f - z - 6144 * 1024).natAbs ≤ 768 * 1024; ¬ passes) ∧
    (∃ (o : Oct) (range : Bool) (z : Int) (f : Int) (s : State), let d := s.dev; let w := d.w o; let ref := d.get (R.AE_CTRL.REF_SEL o); d.awake o = true ∧ w.cal = true ∧ let passes := (range = true ∨ ref = 0) ∧ (z - 8192 * 1024).natAbs ≤ 512 * 1024 ∧ (f - z - 6144 * 1024).natAbs ≤ 768 * 1024; passes) ∧
    (∃ (o : Oct) (s : State), let d := s.dev; let w := d.w o; d.barred (A.AE_CAL_CTRL o) = none ∧ w.cal = true) ∧
    (∃ (o : Oct) (s : State), let d := s.dev; let w := d.w o; d.barred (A.AE_CAL_CTRL o) = none ∧ w.cal = false) :=
  ⟨⟨31, st (w0 |>.set (R.AE_STATUS.REF_SETTLED 31) 1), by decide +kernel, by decide +kernel⟩,
   ⟨31, 15, st w0, by decide +kernel, by decide +kernel⟩,
   ⟨31, 15, st (w0 |>.set (R.AE_DROPOUT.LIVE 31) 0x8000), by decide +kernel, by decide +kernel⟩,
   ⟨31, st w0, (by first | decide +kernel | (dsimp only; decide +kernel))⟩,
   ⟨31, st w0, by decide +kernel, by decide +kernel⟩,
   ⟨31, false, 8911872, 14679040, st ((w0.set (R.AE_CTRL.REF_SEL 31) 1).onW 31 fun w => { w with cal := true }), by decide +kernel, by decide +kernel, (by first | decide +kernel | (dsimp only; decide +kernel))⟩,
   ⟨31, true, 8911872, 14679040, st (w0.onW 31 fun w => { w with cal := true }), by decide +kernel, by decide +kernel, (by first | decide +kernel | (dsimp only; decide +kernel))⟩,
   ⟨31, st (w0.onW 31 fun w => { w with cal := true }), by decide +kernel, by decide +kernel⟩,
   ⟨31, st w0, by decide +kernel, by decide +kernel⟩⟩

theorem witness_RegisterAccess_1 :
    (∃ (off : BitVec 26) (whole : Bool), let a := off.toNat; whole = false ∨ a % 4 ≠ 0) ∧
    (∃ (off : BitVec 26) (whole : Bool), let a := off.toNat; whole = false ∨ a % 4 ≠ 0) ∧
    (∃ (off : BitVec 26) (s : State), let d := s.dev; let a := off.toNat; ∃ c, a % 4 = 0 ∧ d.barred a = some c) ∧
    (∃ (off : BitVec 26) (s : State), let d := s.dev; let a := off.toNat; ∃ c, a % 4 = 0 ∧ d.barred a = some c) ∧
    (∃ (off : BitVec 26) (s : State), let d := s.dev; let a := off.toNat; a % 4 = 0 ∧ d.barred a = none ∧ RegMap.find a = none ∧ RegMap.isPhy a = false) ∧
    (∃ (off : BitVec 26) (s : State), let d := s.dev; let a := off.toNat; a % 4 = 0 ∧ d.barred a = none ∧ RegMap.find a = none ∧ RegMap.isPhy a = false) ∧
    (∃ (g : Lane) (s : State), let d := s.dev; d.barred (A.LOS_CTRL g) = none) ∧
    (∃ (k : Fin 64) (s : State), let d := s.dev; d.barred (A.GAUGE_STAT k) = none) ∧
    (∃ (e : EngId) (r : Req) (s : State), let d := s.dev; (d.e e).reqs.find? (fun q => q.chan == 0x15 && q.phase != .answered) = some r ∧ r.phase = .taken ∧ r.epoch ≠ d.epoch r.tgt) :=
  ⟨⟨0x3FFFFFC, false, (by first | decide +kernel | (dsimp only; decide +kernel))⟩,
   ⟨0x3FFFFFD, true, (by first | decide +kernel | (dsimp only; decide +kernel))⟩,
   ⟨0x1000000, st (w0.onP 0 fun x => { x with inReset := true }), 4, by decide +kernel, by decide +kernel⟩,
   ⟨0x1000000, st (w0.onP 0 fun x => { x with test := true }), 3, by decide +kernel, by decide +kernel⟩,
   ⟨0x3FFFFFC, st w0, by decide +kernel, by decide +kernel, by decide +kernel, by decide +kernel⟩,
   ⟨0xC10000, st w0, by decide +kernel, by decide +kernel, by decide +kernel, by decide +kernel⟩,
   ⟨255, st w0, (by first | decide +kernel | (dsimp only; decide +kernel))⟩,
   ⟨63, st w0, (by first | decide +kernel | (dsimp only; decide +kernel))⟩,
   ⟨87, { chan := 0x15, cmd := 0, op := 0x13FFFFC, tgt := 31, epoch := 0, phase := .taken }, st ((asked w0 87 0x15 0 0x13FFFFC 31 .taken).bumpEpoch 31), rfl, by decide +kernel, by decide +kernel⟩⟩

theorem witness_RegisterAccess_2 :
    (∃ (e : EngId) (r : Req) (s : State), let d := s.dev; (d.e e).reqs.find? (fun q => q.chan == 0x15 && q.phase != .answered) = some r ∧ r.phase = .taken ∧ let b := r.op.toNat % 2 ^ 26 / 4 * 4; r.epoch = d.epoch r.tgt ∧ ∃ c, d.barred b = some c) ∧
    (∃ (e : EngId) (r : Req) (s : State), let d := s.dev; (d.e e).reqs.find? (fun q => q.chan == 0x15 && q.phase != .answered) = some r ∧ r.phase = .taken ∧ let b := r.op.toNat % 2 ^ 26 / 4 * 4; r.epoch = d.epoch r.tgt ∧ d.barred b = none ∧ r.cmd = 0) ∧
    (∃ (e : EngId) (r : Req) (s : State), let d := s.dev; (d.e e).reqs.find? (fun q => q.chan == 0x15 && q.phase != .answered) = some r ∧ r.phase = .taken ∧ let b := r.op.toNat % 2 ^ 26 / 4 * 4; r.epoch = d.epoch r.tgt ∧ d.barred b = none ∧ r.cmd = 1) ∧
    (∀ n : Fin 2, ∃ r, (asked w0 56 0x15 n 0x1020000 1).req 56 0x15 n .sent = some r ∧ ¬ r.op.toNat % 2 ^ 26 / 4 * 4 < 0x1020000) ∧
    (∀ n : Fin 2, ∃ r, (asked w0 56 0x15 n 0x101FFFF 0).req 56 0x15 n .sent = some r ∧ 0x1000000 ≤ r.op.toNat % 2 ^ 26 / 4 * 4 ∧ r.op.toNat % 2 ^ 26 / 4 * 4 < 0x1020000 ∧ (asked w0 56 0x15 n 0x101FFFF 0).req 56 0x15 n .taken = none) ∧
    (∀ n : Fin 2, ∃ r, (asked w0 0 0x15 n 0xFFFFFF 0).req 0 0x15 n .sent = some r ∧ 0xC10000 ≤ r.op.toNat % 2 ^ 26 / 4 * 4 ∧ r.op.toNat % 2 ^ 26 / 4 * 4 < 0x1000000) ∧
    (∀ n : Fin 2, ∃ r, (asked w0 0 0x15 n 0x1400000 0).req 0 0x15 n .sent = some r ∧ 0x1400000 ≤ r.op.toNat % 2 ^ 26 / 4 * 4) ∧
    (∀ n : Fin 2, ∃ r, (asked w0 0 0x15 n 0xC0FFFF 0).req 0 0x15 n .sent = some r ∧ r.op.toNat % 2 ^ 26 / 4 * 4 < 0xC10000 ∧ (asked w0 0 0x15 n 0xC0FFFF 0).req 0 0x15 n .taken = none) :=
  ⟨⟨87, { chan := 0x15, cmd := 0, op := 0x13FFFFC, tgt := 31, epoch := 0, phase := .taken }, st ((asked w0 87 0x15 0 0x13FFFFC 31 .taken).onP 31 fun x => { x with test := true }), rfl, by decide +kernel, by decide +kernel, 3, by decide +kernel⟩,
   ⟨87, { chan := 0x15, cmd := 0, op := 0x13FFFFC, tgt := 31, epoch := 0, phase := .taken }, st (asked w0 87 0x15 0 0x13FFFFC 31 .taken), rfl, by decide +kernel, by decide +kernel, by decide +kernel, by decide +kernel⟩,
   ⟨87, { chan := 0x15, cmd := 1, op := 0xFFFFFFFF00000000, tgt := 33, epoch := 0, phase := .taken }, st (asked w0 87 0x15 1 0xFFFFFFFF00000000 33 .taken), rfl, by decide +kernel, by decide +kernel, by decide +kernel, by decide +kernel⟩,
   by decide +kernel,
   by decide +kernel,
   by decide +kernel,
   by decide +kernel,
   by decide +kernel⟩

theorem witness_CopyAndCounters :
    (∃ (e : EngId) (op : Nat) (s : State), s.dev.clean .shared ∧ let d := s.dev; let b := d.block e op 4; let num (j n : Nat) := leNat ((b.drop j).take n); let len := max 1 (min 1048576 (num 16 4)); let out (dram : Bool) (a : Nat) := (if dram then d.usable else 4194304) < a + len; let ends := out (bit (num 20 4) 0) (num 0 8) ∨ out (bit (num 20 4) 1) (num 8 8); ends ∧ s.dev.Asks e 0x13 0 op) ∧
    (∃ (e : EngId) (op : Nat) (s : State), s.dev.clean .shared ∧ let d := s.dev; let b := d.block e op 4; let num (j n : Nat) := leNat ((b.drop j).take n); let len := max 1 (min 1048576 (num 16 4)); let out (dram : Bool) (a : Nat) := (if dram then d.usable else 4194304) < a + len; let ends := out (bit (num 20 4) 0) (num 0 8) ∨ out (bit (num 20 4) 1) (num 8 8); let barred (dram : Bool) (a : Nat) := dram = true ∧ e.val < 88 ∧ d.admits useDma a len = false; let refused := barred (bit (num 20 4) 0) (num 0 8) ∨ barred (bit (num 20 4) 1) (num 8 8); ¬ ends ∧ refused ∧ s.dev.Asks e 0x13 0 op) ∧
    (∃ (e : EngId) (op : Nat) (s : State), s.dev.clean .shared ∧ let d := s.dev; let b := d.block e op 4; let num (j n : Nat) := leNat ((b.drop j).take n); let len := max 1 (min 1048576 (num 16 4)); let out (dram : Bool) (a : Nat) := (if dram then d.usable else 4194304) < a + len; let ends := out (bit (num 20 4) 0) (num 0 8) ∨ out (bit (num 20 4) 1) (num 8 8); let barred (dram : Bool) (a : Nat) := dram = true ∧ e.val < 88 ∧ d.admits useDma a len = false; let refused := barred (bit (num 20 4) 0) (num 0 8) ∨ barred (bit (num 20 4) 1) (num 8 8); ¬ ends ∧ ¬ refused ∧ d.Asks e 0x13 0 op ∧ d.req e 0x13 0 .taken = none) ∧
    (∃ (e : EngId) (r : Req) (s : State), s.dev.clean .shared ∧ let d := s.dev; let x := CopyDesc.unpack r.aux; let bound (dram : Bool) := if dram then d.usable else 4194304; d.clean .dram ∧ d.dramActive = true ∧ d.req e 0x13 0 .taken = some r ∧ x.src + x.len ≤ bound x.srcDram ∧ x.dst + x.len ≤ bound x.dstDram) ∧
    (∃ (e : EngId) (r : Req) (s : State), s.dev.clean .shared ∧ let d := s.dev; let x := CopyDesc.unpack r.aux; d.req e 0x13 0 .taken = some r ∧ x.srcDram = true ∧ d.dramActive = true ∧ (∃ i, i < x.len ∧ d.dram.syndrome ((x.src + i) / 8) = 0xFF)) ∧
    (∃ (e : EngId) (r : Req) (s : State), s.dev.clean .shared ∧ let d := s.dev; let x := CopyDesc.unpack r.aux; d.dramActive = true ∧ d.req e 0x13 0 .taken = some r ∧ 0 < x.len) ∧
    (∃ (s : State), s.dev.clean .shared ∧ let d := s.dev; d.dramActive = false) ∧
    (∃ (e : EngId) (op : Nat) (s : State), s.dev.clean .shared ∧ let d := s.dev; let first := op % 8192; let may := (∀ q, d.req e 0x14 0 .sent = some q → q.task = false) ∨ bit (d.reg A.CTR_PERM) (first / 256) = true; may ∧ s.dev.Asks e 0x14 0 op) ∧
    (∃ (e : EngId) (op : Nat) (s : State), s.dev.clean .shared ∧ let d := s.dev; let first := op % 8192; let may := (∀ q, d.req e 0x14 0 .sent = some q → q.task = false) ∨ bit (d.reg A.CTR_PERM) (first / 256) = true; ¬ may ∧ s.dev.Asks e 0x14 0 op) :=
  ⟨⟨95, 0, st (asked (w0.hubWrite 11 0 [(4194304, false), (0, false), (1, false), (0, false)]) 95 0x13 0 0 48), clean_of (by decide +kernel), by decide +kernel, asks_of (by decide +kernel)⟩,
   ⟨87, 0, st (asked ((w0.hubWrite 10 0 [(0, false), (0, false), (2 ^ 32 + 1, false), (0, false)]).set R.MEM_STATUS.USABLE 1) 87 0x13 0 0 48), clean_of (by decide +kernel), by decide +kernel, by decide +kernel, asks_of (by decide +kernel)⟩,
   ⟨95, 0, st (asked (w0.hubWrite 11 0 [(4194303, false), (0, false), (1, false), (0, false)]) 95 0x13 0 0 48), clean_of (by decide +kernel), by decide +kernel, by decide +kernel, asks_of (by decide +kernel), by decide +kernel⟩,
   ⟨95, { chan := 0x13, cmd := 0, op := 0, tgt := 48, epoch := 0, phase := .taken, aux := CopyDesc.pack ⟨0, 4194303, 1, false, false⟩ }, st (asked w0 95 0x13 0 0 48 .taken (CopyDesc.pack ⟨0, 4194303, 1, false, false⟩)), clean_of (by decide +kernel), clean_of (by decide +kernel), by decide +kernel, rfl, by decide +kernel, by decide +kernel⟩,
   ⟨95, { chan := 0x13, cmd := 0, op := 0, tgt := 48, epoch := 0, phase := .taken, aux := CopyDesc.pack ⟨0, 0, 8, true, false⟩ }, st ({ asked w0 95 0x13 0 0 48 .taken (CopyDesc.pack ⟨0, 0, 8, true, false⟩) with dram := w0.dram.poisonWord 0 1 }), clean_of (by decide +kernel), rfl, by decide +kernel, by decide +kernel, ⟨7, by decide +kernel, by decide +kernel⟩⟩,
   ⟨95, { chan := 0x13, cmd := 0, op := 0, tgt := 48, epoch := 0, phase := .taken, aux := CopyDesc.pack ⟨0, 0, 8, true, false⟩ }, st (asked w0 95 0x13 0 0 48 .taken (CopyDesc.pack ⟨0, 0, 8, true, false⟩)), clean_of (by decide +kernel), by decide +kernel, rfl, by decide +kernel⟩,
   ⟨st (w0.setPolder 47 1), clean_of (by decide +kernel), (by first | decide +kernel | (dsimp only; decide +kernel))⟩,
   ⟨95, 2097151, st ((asked w0 95 0x14 0 2097151 48).setReg A.CTR_PERM 0x80000000), clean_of (by decide +kernel), Or.inr (by decide +kernel), asks_of (by decide +kernel)⟩,
   ⟨95, 2097151, st ((asked w0 95 0x14 0 2097151 48).onE 95 fun x => { x with reqs := x.reqs.map fun q => { q with task := true } }), clean_of (by decide +kernel), fun h => h.elim (fun h => absurd (h _ rfl) (by decide +kernel)) (fun h => absurd h (by decide +kernel)), asks_of (by decide +kernel)⟩⟩

theorem witness_EngineImages_1 :
    (∃ (e : EngId) (op : Nat) (s : State), s.dev.Asks e 0x206 0 op) ∧
    (∃ (e : EngId) (op : Nat) (s : State), let d := s.dev; d.Asks e 0x206 1 op ∧ d.req e 0x206 1 .taken = none) ∧
    (∃ (e : EngId) (op : Nat) (r : Req) (s : State), let d := s.dev; let c := min 11 (op / 256 % 16); d.req e 0x206 1 .taken = some r ∧ r.op.toNat = op ∧ (∀ k q, k < 8 → q ∈ (d.e (8 * c + k)).reqs → q.chan = 0x206)) ∧
    (∃ (e : EngId) (op : Nat) (r : Req) (s : State), let d := s.dev; let c := min 11 (op / 256 % 16); d.req e 0x206 1 .taken = some r ∧ r.op.toNat = op ∧ ∃ k q, k < 8 ∧ q ∈ (d.e (8 * c + k)).reqs ∧ q.chan ≠ 0x206) ∧
    (∃ (e : EngId) (op : Nat) (s : State), let d := s.dev; let c := min 11 (op / 256 % 16); let named (k : Nat) : Prop := k < 8 ∧ bit op k = true; let st (k : Nat) := (d.e (8 * c + k)).st; let own := c = 11 ∧ (bit op 0 = true ∨ ∃ k, named k ∧ e.val = 88 + k); let still := (∀ k, k < 8 → st k = .halted ∨ st k = .fault) ∧ (d.c c).drained = true; (own ∨ ¬ still) ∧ s.dev.Asks e 0x206 2 op) ∧
    (∃ (e : EngId) (op : Nat) (s : State), let d := s.dev; let c := min 11 (op / 256 % 16); let addr := op / 65536 % 2 ^ 33 * 16; let named (k : Nat) : Prop := k < 8 ∧ bit op k = true; let st (k : Nat) := (d.e (8 * c + k)).st; let own := c = 11 ∧ (bit op 0 = true ∨ ∃ k, named k ∧ e.val = 88 + k); let still := (∀ k, k < 8 → st k = .halted ∨ st k = .fault) ∧ (d.c c).drained = true; ¬ own ∧ still ∧ d.usable < addr + 128 ∧ s.dev.Asks e 0x206 2 op) ∧
    (∃ (e : EngId) (op : Nat) (s : State), let d := s.dev; let c := min 11 (op / 256 % 16); let addr := op / 65536 % 2 ^ 33 * 16; let named (k : Nat) : Prop := k < 8 ∧ bit op k = true; let st (k : Nat) := (d.e (8 * c + k)).st; let own := c = 11 ∧ (bit op 0 = true ∨ ∃ k, named k ∧ e.val = 88 + k); let still := (∀ k, k < 8 → st k = .halted ∨ st k = .fault) ∧ (d.c c).drained = true; ¬ own ∧ still ∧ addr + 128 ≤ d.usable ∧ d.Asks e 0x206 2 op ∧ d.req e 0x206 2 .taken = none) :=
  ⟨⟨90, 0xBFF, st (asked w0 90 0x206 0 0xBFF 47), asks_of (by decide +kernel)⟩,
   ⟨90, 0xFF, st (asked w0 90 0x206 1 0xFF 36), asks_of (by decide +kernel), by decide +kernel⟩,
   ⟨90, 0xFF, { chan := 0x206, cmd := 1, op := 0xFF, tgt := 36, epoch := 0, phase := .taken }, st drains, rfl, by decide +kernel, fun k q hk hq => drains_idle k hk q hq⟩,
   ⟨90, 0xFF, { chan := 0x206, cmd := 1, op := 0xFF, tgt := 36, epoch := 0, phase := .taken }, st (drains.onE 7 fun x => { x with reqs := [{ chan := 0x13, cmd := 0, op := 0, tgt := 47, epoch := 0, phase := .sent }] }), rfl, by decide +kernel, 7, { chan := 0x13, cmd := 0, op := 0, tgt := 47, epoch := 0, phase := .sent }, by decide +kernel, by decide +kernel, by decide +kernel⟩,
   ⟨90, 0xB01, st (asked w0 90 0x206 2 0xB01 48), .inl ⟨by decide +kernel, .inl (by decide +kernel)⟩, asks_of (by decide +kernel)⟩,
   ⟨90, 0xFFFFFFFF00FF, st (asked ((w0.onC 0 fun x => { x with drained := true }).set R.MEM_STATUS.USABLE 1) 90 0x206 2 0xFFFFFFFF00FF 36), fun h => absurd h.1 (by decide +kernel), ⟨by decide +kernel, by decide +kernel⟩, by decide +kernel, asks_of (by decide +kernel)⟩,
   ⟨90, 0xFF, st (asked ((w0.onC 0 fun x => { x with drained := true }).set R.MEM_STATUS.USABLE 1) 90 0x206 2 0xFF 36), fun h => absurd h.1 (by decide +kernel), ⟨by decide +kernel, by decide +kernel⟩, by decide +kernel, asks_of (by decide +kernel), by decide +kernel⟩⟩

theorem witness_EngineImages_2 :
    (∃ (e : EngId) (op : Nat) (r : Req) (s : State), let d := s.dev; let c := min 11 (op / 256 % 16); let addr := op / 65536 % 2 ^ 33 * 16; d.clean .dram ∧ d.dramActive = true ∧ d.req e 0x206 2 .taken = some r ∧ r.op.toNat = op ∧ let head := d.dram.bytes addr 128; let h := imgHead head; h.fits c = true ∧ d.usable < addr + 128 + h.body + 256) ∧
    (∃ (s : State), let d := s.dev; d.dramActive = false) ∧
    (∃ (e : EngId) (op : Nat) (s : State), let d := s.dev; let c := min 11 (op / 256 % 16); let named (k : Nat) : Prop := k < 8 ∧ bit op k = true; let st (k : Nat) := (d.e (8 * c + k)).st; let own := c = 11 ∧ (bit op 0 = true ∨ ∃ k, named k ∧ e.val = 88 + k); ¬ own ∧ (∀ k, named k → st k = .halted ∧ (d.e (8 * c + k)).image.isSome = true) ∧ s.dev.Asks e 0x206 3 op) ∧
    (∃ (e : EngId) (op : Nat) (s : State), let d := s.dev; let c := min 11 (op / 256 % 16); let named (k : Nat) : Prop := k < 8 ∧ bit op k = true; let st (k : Nat) := (d.e (8 * c + k)).st; let own := c = 11 ∧ (bit op 0 = true ∨ ∃ k, named k ∧ e.val = 88 + k); (own ∨ (∃ k, named k ∧ (st k ≠ .halted ∨ (d.e (8 * c + k)).image = none))) ∧ s.dev.Asks e 0x206 3 op) ∧
    ((asked w0 90 0x206 4 0xBFF 47).Asks 90 0x206 4 0xBFF) ∧
    (loads.clean .dram ∧ loads.dramActive = true ∧ loads.req 90 0x206 2 .taken = some { chan := 0x206, cmd := 2, op := 0x10000FF, tgt := 36, epoch := 0, phase := .taken } ∧ (imgHead (loads.dram.bytes 4096 128)).fits 0 = true ∧ (imgHead (loads.dram.bytes 4096 128)).body = 192 ∧ 4096 + 128 + 192 + 256 ≤ loads.usable) ∧
    (({} : Vault).verify (loads.dram.bytes 4096 128) (loads.dram.bytes 4224 192) (loads.dram.bytes 4416 256) 0 = .inl 2) :=
  ⟨⟨90, 0x10000FF, { chan := 0x206, cmd := 2, op := 0x10000FF, tgt := 36, epoch := 0, phase := .taken }, st (loads.set R.MEM_STATUS.USABLE 0), clean_of (by decide +kernel), by decide +kernel, rfl, by decide +kernel, by decide +kernel, by decide +kernel⟩,
   ⟨st (w0.setPolder 47 1), (by first | decide +kernel | (dsimp only; decide +kernel))⟩,
   ⟨90, 0xFF, st starts, fun h => absurd h.1 (by decide +kernel), fun k h => starts_ready k h.1, asks_of (by decide +kernel)⟩,
   ⟨90, 0x80, st (asked w0 90 0x206 3 0x80 36), .inr ⟨7, ⟨by decide +kernel, by decide +kernel⟩, .inr (by decide +kernel)⟩, asks_of (by decide +kernel)⟩,
   asks_of (by decide +kernel),
   ⟨clean_of (by decide +kernel), by decide +kernel, by decide +kernel, by decide +kernel, by decide +kernel, by decide +kernel⟩,
   by decide +kernel⟩

theorem witness_MemoryIntegrity_1 :
    (∃ (k : Fin 16) (s : State), let d := s.dev; let spilling := d.on R.SPILL_CTRL.EN = true ∨ d.get R.SPILL_STATUS.CELLS ≠ 0; d.barred (A.REGION_BASE k) = none ∧ ¬ spilling) ∧
    (∃ (k : Fin 16) (v : BitVec 32) (s : State), let d := s.dev; let nv := v.toNat; let spilling := d.on R.SPILL_CTRL.EN = true ∨ d.get R.SPILL_STATUS.CELLS ≠ 0; let use := d.setReg (A.REGION_USE k) (nv % 32); let lo := d.get R.SPILL_BASE.ADDR * 1024; let lost := ∃ m, lo ≤ m ∧ m < lo + d.get R.SPILL_CTRL.SIZE_GIB * 1024 ∧ d.spillMiB m = true ∧ use.spillMiB m = false; d.barred (A.REGION_USE k) = none ∧ spilling ∧ ¬ lost) ∧
    (∃ (k : Fin 16) (v : BitVec 32) (s : State), let d := s.dev; let nv := v.toNat; let spilling := d.on R.SPILL_CTRL.EN = true ∨ d.get R.SPILL_STATUS.CELLS ≠ 0; let use := d.setReg (A.REGION_USE k) (nv % 32); let lo := d.get R.SPILL_BASE.ADDR * 1024; let lost := ∃ m, lo ≤ m ∧ m < lo + d.get R.SPILL_CTRL.SIZE_GIB * 1024 ∧ d.spillMiB m = true ∧ use.spillMiB m = false; d.barred (A.REGION_USE k) = none ∧ spilling ∧ lost) ∧
    (∃ (c : Fin 32) (s : State), let d := s.dev; let g := Tbl.get GrantSt.reset d.mem.grant c; d.dramActive = true ∧ d.on R.MEM_CFG.EN = true ∧ d.step 47 < g.used) ∧
    (∃ (k : Fin 16) (c : Fin 32) (wait : List DramReq) (s : State), let d := s.dev; let g := Tbl.get GrantSt.reset d.mem.grant c; let oldest (k : Nat) := wait.find? (·.order == k); let four := (oldest 4).isSome = true ∧ (7 ≤ g.w4 ∨ 6 ≤ g.w4 ∧ (oldest 5).isSome = true ∧ g.w5 = 6); d.dramActive = true ∧ d.on R.MEM_CFG.EN = true ∧ g.used ≤ d.step 47 ∧ four) ∧
    (∃ (k : Fin 16) (c : Fin 32) (wait : List DramReq) (s : State), let d := s.dev; let g := Tbl.get GrantSt.reset d.mem.grant c; let oldest (k : Nat) := wait.find? (·.order == k); let four := (oldest 4).isSome = true ∧ (7 ≤ g.w4 ∨ 6 ≤ g.w4 ∧ (oldest 5).isSome = true ∧ g.w5 = 6); let five := (oldest 5).isSome = true ∧ 7 ≤ g.w5; d.dramActive = true ∧ d.on R.MEM_CFG.EN = true ∧ g.used ≤ d.step 47 ∧ ¬ four ∧ five) ∧
    (∃ (k : Fin 16) (c : Fin 32) (wait : List DramReq) (s : State), let d := s.dev; let g := Tbl.get GrantSt.reset d.mem.grant c; let oldest (k : Nat) := wait.find? (·.order == k); let four := (oldest 4).isSome = true ∧ (7 ≤ g.w4 ∨ 6 ≤ g.w4 ∧ (oldest 5).isSome = true ∧ g.w5 = 6); let five := (oldest 5).isSome = true ∧ 7 ≤ g.w5; d.dramActive = true ∧ d.on R.MEM_CFG.EN = true ∧ g.used ≤ d.step 47 ∧ ¬ four ∧ ¬ five ∧ ∃ k, 1 ≤ k ∧ k ≤ 7 ∧ (oldest k).isSome = true ∧ (∀ j, 1 ≤ j → j < k → oldest j = none)) ∧
    (∃ (wait : List DramReq) (s : State), let d := s.dev; d.dramActive = true ∧ d.on R.MEM_CFG.EN = true ∧ wait = []) :=
  ⟨⟨15, st w0, by decide +kernel, by decide +kernel⟩,
   ⟨15, 1, st (w0 |>.set R.SPILL_CTRL.EN 1 |>.set R.SPILL_CTRL.SIZE_GIB 0), by decide +kernel, by decide +kernel, fun h => h.elim fun m h => absurd (Nat.lt_of_le_of_lt h.1 h.2.1) (by decide +kernel)⟩,
   ⟨15, 0, st (w0 |>.set R.SPILL_CTRL.EN 1 |>.set R.SPILL_CTRL.SIZE_GIB 1 |>.set R.MEM_STATUS.USABLE 1 |>.set (R.REGION_USE.USE 15) 31 |>.set (R.REGION_LIMIT.MIB 15) 1024 |>.set (R.REGION_BASE.MIB 15) 1023), by decide +kernel, by decide +kernel, ⟨1023, by decide +kernel, by decide +kernel, by decide +kernel, by decide +kernel⟩⟩,
   ⟨31, st ({ (w0.set R.MEM_CFG.EN 1).set (R.CAP.STEP 47) 0 with mem := { w0.mem with grant := [(31, { used := 1 })] } }), by decide +kernel, by decide +kernel, by decide +kernel⟩,
   ⟨15, 31, [.refresh, .bar2], st ({ w0.set R.MEM_CFG.EN 1 with mem := { w0.mem with grant := [(31, { w4 := 7 })] } }), by decide +kernel, by decide +kernel, by decide +kernel, by decide +kernel⟩,
   ⟨15, 31, [.refresh, .dump], st ({ w0.set R.MEM_CFG.EN 1 with mem := { w0.mem with grant := [(31, { w5 := 7 })] } }), by decide +kernel, by decide +kernel, by decide +kernel, by decide +kernel, by decide +kernel⟩,
   ⟨1, 31, [.refresh], st (w0 |>.set R.MEM_CFG.EN 1), by decide +kernel, by decide +kernel, by decide +kernel, by decide +kernel, by decide +kernel, 1, by decide +kernel, by decide +kernel, by decide +kernel, fun j a b => absurd a (by omega)⟩,
   ⟨[], st (w0 |>.set R.MEM_CFG.EN 1), by decide +kernel, by decide +kernel, by decide +kernel⟩⟩

theorem witness_MemoryIntegrity_2 :
    (∃ (s : State), let d := s.dev; d.dramActive = false ∨ d.on R.MEM_CFG.EN = false) ∧
    (∃ (s : State), let d := s.dev; d.dramActive = false ∨ d.on R.MEM_CFG.EN = false ∨ d.on R.MEM_STATUS.SELF_REF = true) ∧
    (∃ (s : State), let d := s.dev; d.dramActive = true ∧ d.on R.MEM_CFG.EN = true ∧ d.on R.MEM_STATUS.SELF_REF = false) ∧
    (∃ (v : BitVec 32) (s : State), let d := s.dev; let nv := v.toNat; let lo := d.get R.SPILL_BASE.ADDR * 1024; let fabric := d.barredPolder 32 = none ∧ ∀ q, 32 ≤ q → q ≤ 35 → d.polder q ≤ 1; let at_ (lo hi : Nat) := min (hi % 4 * 2 ^ 32 + lo) 8388607; d.barred A.REWRITE_CTRL = none ∧ d.on R.REWRITE_CTRL.BUSY = false ∧ let w := at_ (d.reg A.REWRITE_ADDR_LO) (d.get R.REWRITE_ADDR_HI.INDEX); nv % 8 = 1 ∧ fabric ∧ d.flowS.syndrome w = 0) ∧
    (∃ (v : BitVec 32) (i : Nat) (s : State), let d := s.dev; let nv := v.toNat; let lo := d.get R.SPILL_BASE.ADDR * 1024; let fabric := d.barredPolder 32 = none ∧ ∀ q, 32 ≤ q → q ≤ 35 → d.polder q ≤ 1; let at_ (lo hi : Nat) := min (hi % 4 * 2 ^ 32 + lo) 8388607; let one (w : Nat) := i < 64 ∧ d.flowS.syndrome w = BitVec.ofNat 8 (colCodes.getD i 0); d.barred A.REWRITE_CTRL = none ∧ d.on R.REWRITE_CTRL.BUSY = false ∧ let w := at_ (d.reg A.REWRITE_ADDR_LO) (d.get R.REWRITE_ADDR_HI.INDEX); nv % 8 = 1 ∧ fabric ∧ one w) ∧
    (∃ (v : BitVec 32) (s : State), let d := s.dev; let nv := v.toNat; let lo := d.get R.SPILL_BASE.ADDR * 1024; let fabric := d.barredPolder 32 = none ∧ ∀ q, 32 ≤ q → q ≤ 35 → d.polder q ≤ 1; let at_ (lo hi : Nat) := min (hi % 4 * 2 ^ 32 + lo) 8388607; let bad (w : Nat) := readingOf (d.flowS.syndrome w).toNat = .uncorrectable; d.barred A.REWRITE_CTRL = none ∧ d.on R.REWRITE_CTRL.BUSY = false ∧ let w := at_ (d.reg A.REWRITE_ADDR_LO) (d.get R.REWRITE_ADDR_HI.INDEX); nv % 8 = 1 ∧ fabric ∧ bad w) ∧
    (∃ (v : BitVec 32) (s : State), let d := s.dev; let nv := v.toNat; let lo := d.get R.SPILL_BASE.ADDR * 1024; let fabric := d.barredPolder 32 = none ∧ ∀ q, 32 ≤ q → q ≤ 35 → d.polder q ≤ 1; let at_ (lo hi : Nat) := min (hi % 4 * 2 ^ 32 + lo) 8388607; d.barred A.REWRITE_CTRL = none ∧ d.on R.REWRITE_CTRL.BUSY = false ∧ let w := at_ (d.reg A.REWRITE_ADDR_LO) (d.get R.REWRITE_ADDR_HI.INDEX); nv % 8 = 1 ∧ fabric ∧ d.flowS.syndrome w = 0xFF) ∧
    (∃ (v : BitVec 32) (s : State), let d := s.dev; let nv := v.toNat; d.barred A.REWRITE_CTRL = none ∧ d.on R.REWRITE_CTRL.BUSY = false ∧ nv % 8 = 1 ∧ d.barredPolder 32 ≠ none) :=
  ⟨⟨st w0, (by first | decide +kernel | (dsimp only; decide +kernel))⟩,
   ⟨st w0, (by first | decide +kernel | (dsimp only; decide +kernel))⟩,
   ⟨st (w0 |>.set R.MEM_CFG.EN 1), by decide +kernel, by decide +kernel, by decide +kernel⟩,
   ⟨1, st (synd 0 lastWord), by decide +kernel, by decide +kernel, by decide +kernel, ⟨by decide +kernel, four (by decide +kernel)⟩, by decide +kernel⟩,
   ⟨1, 63, st (synd (colCodes.getD 63 0) lastWord), by decide +kernel, by decide +kernel, by decide +kernel, ⟨by decide +kernel, four (by decide +kernel)⟩, ⟨by decide +kernel, by decide +kernel⟩⟩,
   ⟨1, st (synd 3 lastWord), by decide +kernel, by decide +kernel, by decide +kernel, ⟨by decide +kernel, four (by decide +kernel)⟩, (by decide +kernel : readingOf 3 = .uncorrectable)⟩,
   ⟨1, st (synd 255 lastWord), by decide +kernel, by decide +kernel, by decide +kernel, ⟨by decide +kernel, four (by decide +kernel)⟩, by decide +kernel⟩,
   ⟨1, st (w0.onP 32 fun x => { x with inReset := true }), by decide +kernel, by decide +kernel, by decide +kernel, by decide +kernel⟩⟩

theorem witness_MemoryIntegrity_3 :
    (∃ (v : BitVec 32) (s : State), let d := s.dev; let nv := v.toNat; d.barred A.REWRITE_CTRL = none ∧ d.on R.REWRITE_CTRL.BUSY = false ∧ nv % 8 = 0 ∧ d.barredPolder 47 = none ∧ d.polder 47 = 1) ∧
    (∃ (s : State), let d := s.dev; d.mem.rw = none ∨ d.dramActive = false) ∧
    (∃ (s : State), let d := s.dev; ∃ w, d.mem.rw = some w ∧ d.dramActive = true) ∧
    (∃ (v : BitVec 32) (s : State), let d := s.dev; let nv := v.toNat; let fabric := d.barredPolder 32 = none ∧ ∀ q, 32 ≤ q → q ≤ 35 → d.polder q ≤ 1; d.barred A.ECCT_CTRL = none ∧ d.on R.ECCT_CTRL.BUSY = false ∧ let may := s.vault.life ∈ [0, 1, 4] ∨ (s.vault.life ∈ [2, 3] ∧ d.get R.DBG_STATUS.LEVEL = 2); may ∧ fabric ∧ nv % 8 = 1 ∧ bit nv 27 = true) ∧
    (∃ (v : BitVec 32) (s : State), let d := s.dev; let nv := v.toNat; let fabric := d.barredPolder 32 = none ∧ ∀ q, 32 ≤ q → q ≤ 35 → d.polder q ≤ 1; d.barred A.ECCT_CTRL = none ∧ d.on R.ECCT_CTRL.BUSY = false ∧ let may := s.vault.life ∈ [0, 1, 4] ∨ (s.vault.life ∈ [2, 3] ∧ d.get R.DBG_STATUS.LEVEL = 2); may ∧ fabric ∧ nv % 8 = 1 ∧ bit nv 27 = false) ∧
    (∃ (s : State), let d := s.dev; d.barred A.ECCT_CTRL = none ∧ d.on R.ECCT_CTRL.BUSY = false ∧ let may := s.vault.life ∈ [0, 1, 4] ∨ (s.vault.life ∈ [2, 3] ∧ d.get R.DBG_STATUS.LEVEL = 2); ¬ may) ∧
    (∃ (s : State), let d := s.dev; ∃ (sp : Fin 5), sp = 2 ∨ bit (d.get R.SCRUB_CTRL.EN) sp = false) ∧
    (∃ (s : State), let d := s.dev; let w := Tbl.get 0 d.mem.scrub 1; bit (d.get R.SCRUB_CTRL.EN) 1 = true ∧ (∀ q, 32 ≤ q → q ≤ 35 → d.awake q = true) ∧ w < 8388607 ∧ d.flowS.syndrome w = 0) :=
  ⟨⟨0, st (w0.setPolder 47 1), by decide +kernel, by decide +kernel, by decide +kernel, by decide +kernel, by decide +kernel⟩,
   ⟨st w0, (by first | decide +kernel | (dsimp only; decide +kernel))⟩,
   ⟨st ({ w0 with mem := { w0.mem with rw := some 8388607 } }), 8388607, by decide +kernel, by decide +kernel⟩,
   ⟨0x08000001, st (synd 0 lastWord), by decide +kernel, by decide +kernel, .inl (by decide +kernel), ⟨by decide +kernel, four (by decide +kernel)⟩, by decide +kernel, by decide +kernel⟩,
   ⟨1, { dev := (synd 0 lastWord).set R.DBG_STATUS.LEVEL 2, vault := { life := 3 } }, by decide +kernel, by decide +kernel, .inr ⟨by decide +kernel, by decide +kernel⟩, ⟨by decide +kernel, four (by decide +kernel)⟩, by decide +kernel, by decide +kernel⟩,
   ⟨{ dev := w0, vault := { life := 5 } }, by decide +kernel, by decide +kernel, (by first | decide +kernel | (dsimp only; decide +kernel))⟩,
   ⟨st w0, 2, (by first | decide +kernel | (dsimp only; decide +kernel))⟩,
   ⟨st (scrubs 0), by decide +kernel, four (by decide +kernel), by decide +kernel, by decide +kernel⟩⟩

theorem witness_MemoryIntegrity_4 :
    (∃ (i : Nat) (s : State), let d := s.dev; let one (w : Nat) := i < 64 ∧ d.flowS.syndrome w = BitVec.ofNat 8 (colCodes.getD i 0); let w := Tbl.get 0 d.mem.scrub 1; bit (d.get R.SCRUB_CTRL.EN) 1 = true ∧ (∀ q, 32 ≤ q → q ≤ 35 → d.awake q = true) ∧ w < 8388607 ∧ one w ∧ d.on R.SCRUB_CTRL.FIX_CE = true) ∧
    (∃ (i : Nat) (s : State), let d := s.dev; let one (w : Nat) := i < 64 ∧ d.flowS.syndrome w = BitVec.ofNat 8 (colCodes.getD i 0); let w := Tbl.get 0 d.mem.scrub 1; bit (d.get R.SCRUB_CTRL.EN) 1 = true ∧ (∀ q, 32 ≤ q → q ≤ 35 → d.awake q = true) ∧ w < 8388607 ∧ one w) ∧
    (∃ (s : State), let d := s.dev; let bad (w : Nat) := readingOf (d.flowS.syndrome w).toNat = .uncorrectable; let w := Tbl.get 0 d.mem.scrub 1; bit (d.get R.SCRUB_CTRL.EN) 1 = true ∧ (∀ q, 32 ≤ q → q ≤ 35 → d.awake q = true) ∧ w < 8388607 ∧ bad w) ∧
    (∃ (s : State), let d := s.dev; let bad (w : Nat) := readingOf (d.flowS.syndrome w).toNat = .uncorrectable; let w := Tbl.get 0 d.mem.scrub 1; bit (d.get R.SCRUB_CTRL.EN) 1 = true ∧ (∀ q, 32 ≤ q → q ≤ 35 → d.awake q = true) ∧ w < 8388607 ∧ bad w ∧ d.mem.log.length < 16) ∧
    (∃ (s : State), let d := s.dev; let w := Tbl.get 0 d.mem.scrub 1; bit (d.get R.SCRUB_CTRL.EN) 1 = true ∧ (∀ q, 32 ≤ q → q ≤ 35 → d.awake q = true) ∧ w < 8388607 ∧ d.flowS.syndrome w = 0xFF) ∧
    (∃ (s : State), let d := s.dev; d.barred A.SCRUB_LOG_0 = none ∧ d.mem.log = []) ∧
    (∃ (s : State), let d := s.dev; d.barred A.SCRUB_LOG_0 = none ∧ ∃ x w r, d.mem.log = (x, w) :: r ∧ w < 2 ^ 34) ∧
    (bit ((w0.set R.SCRUB_CTRL.EN 13).get (R.SCRUB_CTRL.EN)) 1 = false) :=
  ⟨⟨63, st (scrubs (colCodes.getD 63 0)), by decide +kernel, four (by decide +kernel), by decide +kernel, ⟨by decide +kernel, by decide +kernel⟩, by decide +kernel⟩,
   ⟨0, st (scrubs 7), by decide +kernel, four (by decide +kernel), by decide +kernel, ⟨by decide +kernel, by decide +kernel⟩⟩,
   ⟨st (scrubs 3), by decide +kernel, four (by decide +kernel), by decide +kernel, (by decide +kernel : readingOf 3 = .uncorrectable)⟩,
   ⟨st (scrubs 3), by decide +kernel, four (by decide +kernel), by decide +kernel, (by decide +kernel : readingOf 3 = .uncorrectable), by decide +kernel⟩,
   ⟨st (scrubs 255), by decide +kernel, four (by decide +kernel), by decide +kernel, by decide +kernel⟩,
   ⟨st w0, by decide +kernel, by decide +kernel⟩,
   ⟨st ({ w0 with mem := { w0.mem with log := [(7, 17179869183)] } }), by decide +kernel, 7, 17179869183, [], by decide +kernel, by decide +kernel⟩,
   by decide +kernel⟩

theorem witness_Interrupts_1 :
    (∃ (n : Fin 512) (s : State), let d := s.dev; let wakes := bit (d.reg (A.WAKE_EN (n / 32))) (n % 32) = true; ¬ wakes) ∧
    (∃ (s : State), let d := s.dev; let up := (d.p 48).inReset = false ∧ (d.p 48).test = false ∧ d.polder 48 ≠ 2; up) ∧
    (∃ (s : State), let d := s.dev; ∃ (o : Oct), (d.p o).inReset = false ∧ (d.p o).test = false ∧ d.polder o ≠ 2) ∧
    (∃ (w : Fin 16) (s : State), let d := s.dev; d.barred (A.SWPEND w) = none) ∧
    (∃ (w : Fin 16) (s : State), let d := s.dev; d.barred (A.SWCLR w) = none) ∧
    (∃ (n : Fin 512) (s : State), let d := s.dev; d.barred A.HOST_CLAIM = none ∧ n ≠ 0 ∧ d.depth 8 < 16 ∧ d.claimable 8 n = true ∧ (∀ m : Fin 512, m ≠ 0 → d.claimable 8 m = true → d.prio m < d.prio n ∨ (d.prio m = d.prio n ∧ n ≤ m))) :=
  ⟨⟨511, st w0, (by first | decide +kernel | (dsimp only; decide +kernel))⟩,
   ⟨st (w0 |>.set R.DEV_EVT.EVT 63), ⟨by decide +kernel, by decide +kernel, by decide +kernel⟩⟩,
   ⟨st (w0 |>.set (R.TIMING_EVT.LANE 31) 128), 31, by decide +kernel, by decide +kernel, by decide +kernel⟩,
   ⟨15, st w0, (by first | decide +kernel | (dsimp only; decide +kernel))⟩,
   ⟨15, st w0, (by first | decide +kernel | (dsimp only; decide +kernel))⟩,
   ⟨500, st claims, by decide +kernel, by decide +kernel, by decide +kernel, by decide +kernel, claims_best⟩⟩

theorem witness_Interrupts_2 :
    (∃ (s : State), let d := s.dev; d.barred A.HOST_CLAIM = none ∧ (∀ m : Fin 512, m ≠ 0 → d.claimable 8 m = false) ∧ d.on (R.TGT_STATUS.LINE_SEEN 8) = true) ∧
    (∃ (s : State), let d := s.dev; d.barred A.HOST_CLAIM = none ∧ (∀ m : Fin 512, m ≠ 0 → d.claimable 8 m = false) ∧ d.on (R.TGT_STATUS.LINE_SEEN 8) = false) ∧
    (∃ (s : State), let d := s.dev; d.barred A.HOST_EOI = none ∧ d.depth 8 = 0) ∧
    (∃ (s : State), let d := s.dev; d.barred A.HOST_EOI = none ∧ 0 < d.depth 8 ∧ d.depth 8 ≤ 16) ∧
    (∃ (t : Fin 9) (s : State), let d := s.dev; d.barred (A.TGT_CTRL t) = none ∧ d.depth t ≤ 16) :=
  ⟨⟨st (w0 |>.set (R.TGT_STATUS.LINE_SEEN 8) 1), by decide +kernel, by decide +kernel, by decide +kernel⟩,
   ⟨st (w0 |>.set (R.TGT_STATUS.LINE_SEEN 8) 0), by decide +kernel, by decide +kernel, by decide +kernel⟩,
   ⟨st w0, by decide +kernel, by decide +kernel⟩,
   ⟨st (w0 |>.set (R.TGT_STATUS.DEPTH 8) 16), by decide +kernel, by decide +kernel, by decide +kernel⟩,
   ⟨8, st (w0 |>.set (R.TGT_STATUS.DEPTH 8) 16), by decide +kernel, by decide +kernel⟩⟩

theorem witness_Counters_1 :
    (∃ (s : State), let d := s.dev; d.barred A.CTR_CLEAR = none) ∧
    (∃ (n : Fin 8192) (s : State), let d := s.dev; d.barred (A.CNT_LO n) = none) ∧
    (∃ (s : State), let d := s.dev; d.barred A.CTR_CTRL = none) ∧
    (∃ (v : BitVec 32) (s : State), let d := s.dev; let nv := v.toNat; d.barred A.CTR_CTRL = none ∧ d.on R.CTR_CTRL.DUMP_EN = false ∧ bit nv 30 = false) ∧
    (∃ (v : BitVec 32) (s : State), let d := s.dev; let nv := v.toNat; d.barred A.CTR_CTRL = none ∧ d.on R.CTR_CTRL.DUMP_EN = true ∧ bit nv 30 = false) ∧
    (∃ (v : BitVec 32) (s : State), let d := s.dev; let nv := v.toNat; d.barred A.CTR_CTRL = none ∧ bit nv 31 = false) ∧
    (∃ (v : BitVec 32) (s : State), let d := s.dev; let nv := v.toNat; let c := d.cnt; d.barred A.CTR_CTRL = none ∧ d.on R.CTR_CTRL.DUMP_EN = false ∧ bit nv 31 = true ∧ c.dump = none) ∧
    (∃ (v : BitVec 32) (s : State), let d := s.dev; let nv := v.toNat; let c := d.cnt; d.barred A.CTR_CTRL = none ∧ d.on R.CTR_CTRL.DUMP_EN = true ∧ bit nv 31 = true ∧ c.dump = none) ∧
    (∃ (v : BitVec 32) (s : State), let d := s.dev; let nv := v.toNat; let c := d.cnt; d.barred A.CTR_CTRL = none ∧ d.on R.CTR_CTRL.DUMP_EN = true ∧ bit nv 31 = true ∧ c.dump ≠ none) :=
  ⟨⟨st w0, (by first | decide +kernel | (dsimp only; decide +kernel))⟩,
   ⟨8191, st (w0 |>.set R.CTR_CTRL.READ_SRC 1), (by first | decide +kernel | (dsimp only; decide +kernel))⟩,
   ⟨st w0, (by first | decide +kernel | (dsimp only; decide +kernel))⟩,
   ⟨0, st (w0 |>.set R.CTR_CTRL.DUMP_EN 0), by decide +kernel, by decide +kernel, by decide +kernel⟩,
   ⟨0, st (w0 |>.set R.CTR_CTRL.DUMP_EN 1), by decide +kernel, by decide +kernel, by decide +kernel⟩,
   ⟨0, st (w0 |>.set R.CTR_CTRL.DUMP_EN 1), by decide +kernel, by decide +kernel⟩,
   ⟨0x80000000, st (w0 |>.set R.CTR_CTRL.DUMP_EN 0), by decide +kernel, by decide +kernel, by decide +kernel, by decide +kernel⟩,
   ⟨0x80000000, st (w0 |>.set R.CTR_CTRL.DUMP_EN 1), by decide +kernel, by decide +kernel, by decide +kernel, by decide +kernel⟩,
   ⟨0x80000000, st ({ w0.set R.CTR_CTRL.DUMP_EN 1 with cnt := { w0.cnt with dump := some record } }), by decide +kernel, by decide +kernel, by decide +kernel, by decide +kernel⟩⟩

theorem witness_Counters_2 :
    (∃ (s : State), let d := s.dev; let c := d.cnt; d.on R.CTR_CTRL.DUMP_EN = true ∧ c.dump = none) ∧
    (∃ (s : State), let d := s.dev; let c := d.cnt; d.on R.CTR_CTRL.DUMP_EN = true ∧ c.dump ≠ none) ∧
    (∃ (s : State), let d := s.dev; d.on R.CTR_CTRL.DUMP_EN = false) ∧
    (∃ (s : State), let d := s.dev; let c := d.cnt; c.dump = none) ∧
    (∃ (r : DumpRec) (s : State), let d := s.dev; let c := d.cnt; let wr := d.get R.DUMP_WR.REC; let a := d.get R.DUMP_BASE_HI.ADDR * 2 ^ 32 + d.get R.DUMP_BASE_LO.ADDR * 4096 + 69632 * wr; c.dump = some r ∧ d.dramActive = true ∧ d.admits 2 a 69632 = true ∧ c.full = false) ∧
    (∃ (r : DumpRec) (s : State), let d := s.dev; let c := d.cnt; let wr := d.get R.DUMP_WR.REC; let a := d.get R.DUMP_BASE_HI.ADDR * 2 ^ 32 + d.get R.DUMP_BASE_LO.ADDR * 4096 + 69632 * wr; c.dump = some r ∧ d.dramActive = true ∧ d.admits 2 a 69632 = true ∧ c.full = true ∧ wr = d.get R.DUMP_RD.REC) ∧
    (∃ (r : DumpRec) (s : State), let d := s.dev; let c := d.cnt; let wr := d.get R.DUMP_WR.REC; let a := d.get R.DUMP_BASE_HI.ADDR * 2 ^ 32 + d.get R.DUMP_BASE_LO.ADDR * 4096 + 69632 * wr; c.dump = some r ∧ d.dramActive = true ∧ d.admits 2 a 69632 = false) ∧
    (∃ (r : DumpRec) (s : State), let d := s.dev; let c := d.cnt; c.dump = some r ∧ d.dramActive = false) :=
  ⟨⟨st (w0 |>.set R.CTR_CTRL.DUMP_EN 1), by decide +kernel, by decide +kernel⟩,
   ⟨st ({ w0.set R.CTR_CTRL.DUMP_EN 1 with cnt := { w0.cnt with dump := some record } }), by decide +kernel, by decide +kernel⟩,
   ⟨st (w0 |>.set R.CTR_CTRL.DUMP_EN 0), (by first | decide +kernel | (dsimp only; decide +kernel))⟩,
   ⟨st w0, (by first | decide +kernel | (dsimp only; decide +kernel))⟩,
   ⟨record, st (dumps 262127), rfl, by decide +kernel, by decide +kernel, by decide +kernel⟩,
   ⟨record, st ({ dumps 0 with cnt := { (dumps 0).cnt with full := true } }), rfl, by decide +kernel, by decide +kernel, by decide +kernel, by decide +kernel⟩,
   ⟨record, st (dumps 262128), rfl, by decide +kernel, by decide +kernel⟩,
   ⟨record, st ((dumps 0).setPolder 47 1), rfl, by decide +kernel⟩⟩

theorem witness_PowerTransitions_1 :
    (∃ (t : Trans) (s : State), let d := s.dev; d.barred A.PWR_REQ = none ∧ d.pwr.run = some t) ∧
    (∃ (v : BitVec 32) (p : Fin 48) (s : State), let d := s.dev; let nv := v.toNat; d.barred A.PWR_REQ = none ∧ d.pwr.run = none ∧ d.polder p ≤ 1 ∧ getBits nv 29 28 = 3) ∧
    (∃ (v : BitVec 32) (s : State), let d := s.dev; let nv := v.toNat; d.barred A.PWR_REQ = none ∧ d.pwr.run = none ∧ d.pwr.next = none ∧ 48 ≤ getBits nv 21 16) ∧
    (∃ (v : BitVec 32) (p : Fin 48) (s : State), let d := s.dev; let nv := v.toNat; d.barred A.PWR_REQ = none ∧ d.pwr.run = none ∧ p.val < 32 ∧ getBits nv 21 16 = p.val ∧ getBits nv 13 12 = 2 ∧ d.polder p = 0) ∧
    (∃ (p : Fin 48) (t : Trans) (st : Nat) (rest : List (Nat × Nat)) (s : State), let d := s.dev; let calm := d.pwr.next = none ∧ t.wake = none; let enters := d.pwr.run = some t ∧ calm ∧ t.exits = [] ∧ t.cur = none ∧ t.restore = none ∧ t.entries = (p.val, st) :: rest ∧ (d.p p).test = false; let deep := p.val < 32 ∧ (∀ l, l < 8 → d.get (R.LPWR_STATUS.TX_STATE (8 * p + l)) = 2 ∧ d.get (R.LPWR_STATUS.RX_STATE (8 * p + l)) = 2) ∧ bit (d.reg A.DBG_HOLD_LO) p = false; enters ∧ deep ∧ st = 2 ∧ d.on (R.WEIR_STATUS.PARKED p) = true) ∧
    (∃ (p : Fin 48) (t : Trans) (st : Nat) (rest : List (Nat × Nat)) (s : State), let d := s.dev; let calm := d.pwr.next = none ∧ t.wake = none; let enters := d.pwr.run = some t ∧ calm ∧ t.exits = [] ∧ t.cur = none ∧ t.restore = none ∧ t.entries = (p.val, st) :: rest ∧ (d.p p).test = false; let deep := p.val < 32 ∧ (∀ l, l < 8 → d.get (R.LPWR_STATUS.TX_STATE (8 * p + l)) = 2 ∧ d.get (R.LPWR_STATUS.RX_STATE (8 * p + l)) = 2) ∧ bit (d.reg A.DBG_HOLD_LO) p = false; enters ∧ deep ∧ st = 1) ∧
    (∃ (p : Fin 48) (t : Trans) (st : Nat) (rest : List (Nat × Nat)) (s : State), let d := s.dev; let calm := d.pwr.next = none ∧ t.wake = none; let enters := d.pwr.run = some t ∧ calm ∧ t.exits = [] ∧ t.cur = none ∧ t.restore = none ∧ t.entries = (p.val, st) :: rest ∧ (d.p p).test = false; enters ∧ d.entryCause t p st = none ∧ st = 2) ∧
    (∃ (p : Fin 48) (t : Trans) (st : Nat) (rest : List (Nat × Nat)) (s : State), let d := s.dev; let calm := d.pwr.next = none ∧ t.wake = none; let enters := d.pwr.run = some t ∧ calm ∧ t.exits = [] ∧ t.cur = none ∧ t.restore = none ∧ t.entries = (p.val, st) :: rest ∧ (d.p p).test = false; enters ∧ d.entryCause t p st = none ∧ st = 1 ∧ p.val ≠ 47) :=
  ⟨⟨turning [] [] none none, st (moving (turning [] [] none none)), by decide +kernel, rfl⟩,
   ⟨0x30000000, 47, st w0, by decide +kernel, by decide +kernel, by decide +kernel, by decide +kernel⟩,
   ⟨0x003F0000, st w0, by decide +kernel, by decide +kernel, by decide +kernel, by decide +kernel⟩,
   ⟨0x001F2000, 31, st w0, by decide +kernel, by decide +kernel, by decide +kernel, by decide +kernel, by decide +kernel, by decide +kernel⟩,
   ⟨31, turning [] [(31, 2)] none none, 2, [], st (moving (turning [] [(31, 2)] none none) (w0.set (R.WEIR_STATUS.PARKED 31) 1)), ⟨rfl, ⟨rfl, rfl⟩, rfl, rfl, rfl, rfl, by decide +kernel⟩, ⟨by decide +kernel, eight (by decide +kernel), by decide +kernel⟩, by decide +kernel, by decide +kernel⟩,
   ⟨31, turning [] [(31, 1)] none none, 1, [], st (moving (turning [] [(31, 1)] none none)), ⟨rfl, ⟨rfl, rfl⟩, rfl, rfl, rfl, rfl, by decide +kernel⟩, ⟨by decide +kernel, eight (by decide +kernel), by decide +kernel⟩, by decide +kernel⟩,
   ⟨31, turning [] [(31, 2)] none none, 2, [], st (moving (turning [] [(31, 2)] none none) (w0.set (R.WEIR_STATUS.PARKED 31) 1)), ⟨rfl, ⟨rfl, rfl⟩, rfl, rfl, rfl, rfl, by decide +kernel⟩, by decide +kernel, by decide +kernel⟩,
   ⟨31, turning [] [(31, 1)] none none, 1, [], st (moving (turning [] [(31, 1)] none none)), ⟨rfl, ⟨rfl, rfl⟩, rfl, rfl, rfl, rfl, by decide +kernel⟩, by decide +kernel, by decide +kernel, by decide +kernel⟩⟩

theorem witness_PowerTransitions_2 :
    (∃ (p : Fin 48) (t : Trans) (st : Nat) (rest : List (Nat × Nat)) (s : State), let d := s.dev; let calm := d.pwr.next = none ∧ t.wake = none; let enters := d.pwr.run = some t ∧ calm ∧ t.exits = [] ∧ t.cur = none ∧ t.restore = none ∧ t.entries = (p.val, st) :: rest ∧ (d.p p).test = false; enters ∧ st = 2 ∧ ∃ c, d.entryCause t p st = some c ∧ t.down = []) ∧
    (∃ (p : Fin 48) (t : Trans) (st : Nat) (rest : List (Nat × Nat)) (s : State), let d := s.dev; let calm := d.pwr.next = none ∧ t.wake = none; let enters := d.pwr.run = some t ∧ calm ∧ t.exits = [] ∧ t.cur = none ∧ t.restore = none ∧ t.entries = (p.val, st) :: rest ∧ (d.p p).test = false; enters ∧ st = 2 ∧ 36 ≤ p.val ∧ p.val ≤ 42 ∧ t.down = [] ∧ (∃ k, k < 8 ∧ (d.e (8 * (p - 36) + k)).st = .running)) ∧
    (∃ (p : Fin 48) (t : Trans) (old : Nat) (s : State), let d := s.dev; let calm := d.pwr.next = none ∧ t.wake = none; d.pwr.run = some t ∧ t.cur = some (p.val, old) ∧ calm ∧ (d.clBusy p = false ∨ (d.p p).forced = true)) ∧
    (∃ (p : Fin 48) (t : Trans) (old : Nat) (s : State), let d := s.dev; let calm := d.pwr.next = none ∧ t.wake = none; d.pwr.run = some t ∧ t.cur = some (p.val, old) ∧ calm ∧ d.clBusy p = true ∧ (d.p p).forced = false) ∧
    (∃ (p : Fin 48) (t : Trans) (old : Nat) (s : State), let d := s.dev; d.pwr.run = some t ∧ t.cur = some (p.val, old) ∧ d.pwr.next = none) ∧
    (∃ (p : Fin 48) (t : Trans) (old : Nat) (s : State), let d := s.dev; d.pwr.run = some t ∧ t.cur = some (p.val, old) ∧ d.pwr.next = none ∧ t.restore = none ∧ ∃ w, t.wake = some w ∧ w < 8) ∧
    (∃ (p : Fin 48) (t : Trans) (st : Nat) (rest : List (Nat × Nat)) (s : State), let d := s.dev; d.pwr.run = some t ∧ t.restore = none ∧ t.exits = (p.val, st) :: rest ∧ let breaks := t.req.polder.isSome = true ∧ d.exitBreaks p = true; (d.p p).forced = false ∧ ¬ breaks) ∧
    (∃ (p : Fin 48) (t : Trans) (st : Nat) (rest : List (Nat × Nat)) (s : State), let d := s.dev; d.pwr.run = some t ∧ t.restore = none ∧ t.exits = (p.val, st) :: rest ∧ let breaks := t.req.polder.isSome = true ∧ d.exitBreaks p = true; (d.p p).forced = false ∧ breaks ∧ rest = [] ∧ t.entries = [] ∧ t.cur = none ∧ d.pwr.next = none) :=
  ⟨⟨31, turning [] [(31, 2)] none none, 2, [], st (moving (turning [] [(31, 2)] none none) (w0.set (R.LPWR_STATUS.TX_STATE 248) 0)), ⟨rfl, ⟨rfl, rfl⟩, rfl, rfl, rfl, rfl, by decide +kernel⟩, by decide +kernel, 0, by decide +kernel, by decide +kernel⟩,
   ⟨42, turning [] [(42, 2)] none none, 2, [], st ((moving (turning [] [(42, 2)] none none)).onE 55 fun x => { x with st := .running }), ⟨rfl, ⟨rfl, rfl⟩, rfl, rfl, rfl, rfl, by decide +kernel⟩, by decide +kernel, by decide +kernel, by decide +kernel, by decide +kernel, ⟨7, by decide +kernel, by decide +kernel⟩⟩,
   ⟨31, turning [] [] (some (31, 1)) none, 1, st (moving (turning [] [] (some (31, 1)) none)), rfl, by decide +kernel, ⟨rfl, rfl⟩, by decide +kernel⟩,
   ⟨42, turning [] [] (some (42, 1)) none, 1, st ((moving (turning [] [] (some (42, 1)) none)).onE 55 fun x => { x with st := .loading }), rfl, by decide +kernel, ⟨rfl, rfl⟩, by decide +kernel, by decide +kernel⟩,
   ⟨47, turning [] [] (some (47, 0)) none, 0, st (moving (turning [] [] (some (47, 0)) none)), rfl, by decide +kernel, by decide +kernel⟩,
   ⟨31, turning [] [] (some (31, 1)) (some 2), 1, st (moving (turning [] [] (some (31, 1)) (some 2))), rfl, by decide +kernel, by decide +kernel, by decide +kernel, 2, by decide +kernel, by decide +kernel⟩,
   ⟨31, turning [(31, 1)] [] none none, 1, [], st (moving (turning [(31, 1)] [] none none)), rfl, by decide +kernel, by decide +kernel, by decide +kernel, by decide +kernel⟩,
   ⟨31, { turning [(31, 0)] [] none none with req := { polder := some (31, 0) } }, 0, [], st ((moving { turning [(31, 0)] [] none none with req := { polder := some (31, 0) } }).setPolder 46 2), rfl, by decide +kernel, by decide +kernel, by decide +kernel, ⟨by decide +kernel, by decide +kernel⟩, by decide +kernel, by decide +kernel, by decide +kernel, by decide +kernel⟩⟩

theorem witness_PowerTransitions_3 :
    (∃ (p : Fin 48) (t : Trans) (st : Nat) (rest : List (Nat × Nat)) (s : State), let d := s.dev; d.pwr.run = some t ∧ t.restore = none ∧ t.exits = (p.val, st) :: rest ∧ (d.p p).forced = true ∧ d.on (R.READ.HOT p) = true ∧ rest = [] ∧ t.entries = [] ∧ t.cur = none ∧ d.pwr.next = none) ∧
    (∃ (p : Fin 48) (t : Trans) (st : Nat) (rest : List (Nat × Nat)) (s : State), let d := s.dev; d.pwr.run = some t ∧ t.restore = some ((p.val, st) :: rest)) ∧
    (∃ (s : State), let d := s.dev; let quiet := d.get R.SPILL_STATUS.CELLS = 0 ∧ d.fab.stage = [] ∧ d.cnt.dump = none ∧ (∀ e, e ∈ d.eng → ∀ r, r ∈ e.2.reqs → r.chan = 0x13 → r.phase ≠ .taken) ∧ bit (d.reg A.DBG_HOLD_HI) 15 = false; d.pwr.run = none ∧ d.get R.PWR_STATUS.PROFILE = 2 ∧ d.polder 47 = 0 ∧ quiet ∧ d.barredPolder 47 = none) ∧
    (∃ (s : State), let d := s.dev; d.pwr.run = none ∧ d.get R.PWR_STATUS.PROFILE = 2 ∧ d.polder 47 = 0 ∧ d.get R.SPILL_STATUS.CELLS ≠ 0) ∧
    (∃ (s : State), let d := s.dev; d.pwr.run = none ∧ d.get R.PWR_STATUS.PROFILE ≠ 2) ∧
    (∃ (s : State), let d := s.dev; d.polder 47 = 1) ∧
    (∃ (s : State), let d := s.dev; d.polder 47 ≠ 1) ∧
    (∃ (s : State), let d := s.dev; d.pwr.demand = true ∧ d.polder 47 = 4) :=
  ⟨⟨47, turning [(47, 0)] [] none none, 0, [], st (((moving (turning [(47, 0)] [] none none)).onP 47 fun x => { x with forced := true }).set (R.READ.HOT 47) 1), rfl, by decide +kernel, by decide +kernel, by decide +kernel, by decide +kernel, by decide +kernel, by decide +kernel, by decide +kernel, by decide +kernel⟩,
   ⟨31, { turning [] [] none none with restore := some [(31, 1)] }, 1, [], st (moving { turning [] [] none none with restore := some [(31, 1)] }), rfl, by decide +kernel⟩,
   ⟨st (w0 |>.set R.PWR_STATUS.PROFILE 2), by decide +kernel, by decide +kernel, by decide +kernel, ⟨by decide +kernel, by decide +kernel, by decide +kernel, by decide +kernel, by decide +kernel⟩, by decide +kernel⟩,
   ⟨st (w0 |>.set R.PWR_STATUS.PROFILE 2 |>.set R.SPILL_STATUS.CELLS 1), by decide +kernel, by decide +kernel, by decide +kernel, by decide +kernel⟩,
   ⟨st w0, by decide +kernel, by decide +kernel⟩,
   ⟨st (w0.setPolder 47 1), (by first | decide +kernel | (dsimp only; decide +kernel))⟩,
   ⟨st w0, (by first | decide +kernel | (dsimp only; decide +kernel))⟩,
   ⟨st ({ w0.setPolder 47 4 with pwr := { w0.pwr with demand := true } }), by decide +kernel, by decide +kernel⟩⟩

theorem witness_PowerServices_1 :
    (∃ (s : State), let d := s.dev; d.barred A.PAD_HOLD = none) ∧
    (∃ (s : State), let d := s.dev; d.barred A.PAD_HOLD_DRAM = none) ∧
    (∃ (s : State), let d := s.dev; d.barred A.PWR_CFG = none) ∧
    (∃ (e : EngId) (op : Nat) (s : State), let d := s.dev; d.Asks e 0x200 0 op) ∧
    (∃ (e : EngId) (op : Nat) (s : State), s.dev.Asks e 0x200 1 op) ∧
    (∃ (e : EngId) (op : Nat) (s : State), s.dev.Asks e 0x200 2 op) ∧
    (∃ (e : EngId) (op : Nat) (s : State), s.dev.Asks e 0x200 3 op) :=
  ⟨⟨st w0, (by first | decide +kernel | (dsimp only; decide +kernel))⟩,
   ⟨st w0, (by first | decide +kernel | (dsimp only; decide +kernel))⟩,
   ⟨st w0, (by first | decide +kernel | (dsimp only; decide +kernel))⟩,
   ⟨95, 0xFFFFFFFFFFFFFFFF, st (asked w0 95 0x200 0 0xFFFFFFFFFFFFFFFF 48), asks_of (by decide +kernel)⟩,
   ⟨95, 0xFFFFFFFFFFFFFFFF, st (asked w0 95 0x200 1 0xFFFFFFFFFFFFFFFF 48), asks_of (by decide +kernel)⟩,
   ⟨95, 0xFFFFFFFFFFFFFFFF, st (asked w0 95 0x200 2 0xFFFFFFFFFFFFFFFF 48), asks_of (by decide +kernel)⟩,
   ⟨95, 0xFFFFFFFFFFFFFFFF, st (asked w0 95 0x200 3 0xFFFFFFFFFFFFFFFF 48), asks_of (by decide +kernel)⟩⟩

theorem witness_PowerServices_2 :
    (∃ (e : EngId) (op : Nat) (s : State), s.dev.Asks e 0x201 0 op) ∧
    (∃ (e : EngId) (op : Nat) (s : State), s.dev.Asks e 0x201 1 op) ∧
    (∃ (s : State), let d := s.dev; let late := d.pwr.pfAt.isSome = true; late ∧ d.pwr.pfGasp = false) ∧
    (∃ (s : State), let d := s.dev; let late := d.pwr.pfAt.isSome = true; ¬ late ∨ d.pwr.pfGasp = true) ∧
    (∃ (s : State), let d := s.dev; let late := d.pwr.pfAt.isSome = true; late ∧ d.pwr.pfRec = false) ∧
    (∃ (s : State), let d := s.dev; let late := d.pwr.pfAt.isSome = true; ¬ late ∨ d.pwr.pfRec = true) :=
  ⟨⟨95, 0xFFFFFFFFFFFFFFFF, st (asked w0 95 0x201 0 0xFFFFFFFFFFFFFFFF 48), asks_of (by decide +kernel)⟩,
   ⟨95, 0xFFFFFFFFFFFFFFFF, st (asked w0 95 0x201 1 0xFFFFFFFFFFFFFFFF 48), asks_of (by decide +kernel)⟩,
   ⟨st ({ w0 with pwr := { w0.pwr with pfAt := some 0 } }), by decide +kernel, by decide +kernel⟩,
   ⟨st w0, (by first | decide +kernel | (dsimp only; decide +kernel))⟩,
   ⟨st ({ w0 with pwr := { w0.pwr with pfAt := some 0 } }), by decide +kernel, by decide +kernel⟩,
   ⟨st ({ w0 with pwr := { w0.pwr with pfAt := some 0, pfRec := true } }), (by first | decide +kernel | (dsimp only; decide +kernel))⟩⟩

theorem witness_ThermalControl_1 :
    (∃ (s : State), let d := s.dev; d.on R.THM_CTRL.EN = false) ∧
    (∃ (s : State), let d := s.dev; d.on R.THM_CTRL.EN = true) ∧
    (∃ (n : Fin 176) (s : State), let d := s.dev; d.barred (A.SCFG n) = none ∧ d.on (R.SCFG.EXCL n) = true) ∧
    (∃ (p : Fin 48) (s : State), let d := s.dev; let guard (f : Nat → Fld) : Bool := d.on (f p) || (decide (p.val < 32) && (d.on (f (48 + 2 * p)) || d.on (f (49 + 2 * p)) || d.on (f (112 + 2 * p)) || d.on (f (113 + 2 * p)))); let hot : Prop := guard R.READ.HOT = true ∨ guard R.READ.RATE_HI = true; let step := d.get (R.CAP.STEP p); hot ∧ d.get (R.CAP.FLOOR p) < step) ∧
    (∃ (p : Fin 48) (s : State), let d := s.dev; let guard (f : Nat → Fld) : Bool := d.on (f p) || (decide (p.val < 32) && (d.on (f (48 + 2 * p)) || d.on (f (49 + 2 * p)) || d.on (f (112 + 2 * p)) || d.on (f (113 + 2 * p)))); let hot : Prop := guard R.READ.HOT = true ∨ guard R.READ.RATE_HI = true; let step := d.get (R.CAP.STEP p); hot ∧ step ≤ d.get (R.CAP.FLOOR p)) ∧
    (∃ (p : Fin 48) (s : State), let d := s.dev; let guard (f : Nat → Fld) : Bool := d.on (f p) || (decide (p.val < 32) && (d.on (f (48 + 2 * p)) || d.on (f (49 + 2 * p)) || d.on (f (112 + 2 * p)) || d.on (f (113 + 2 * p)))); let hot : Prop := guard R.READ.HOT = true ∨ guard R.READ.RATE_HI = true; let step := d.get (R.CAP.STEP p); ¬ hot ∧ step < 15) ∧
    (∃ (p : Fin 48) (s : State), let d := s.dev; let guard (f : Nat → Fld) : Bool := d.on (f p) || (decide (p.val < 32) && (d.on (f (48 + 2 * p)) || d.on (f (49 + 2 * p)) || d.on (f (112 + 2 * p)) || d.on (f (113 + 2 * p)))); let hot : Prop := guard R.READ.HOT = true ∨ guard R.READ.RATE_HI = true; let step := d.get (R.CAP.STEP p); ¬ hot ∧ step = 15) ∧
    (∃ (p : Fin 48) (s : State), let d := s.dev; d.on (R.CAP.STOP_PEND p) = false ∨ (d.p p).prep = true ∨ (d.p p).inReset = true) ∧
    (∃ (p : Fin 48) (s : State), let d := s.dev; d.on (R.CAP.STOP_PEND p) = true ∧ (d.p p).prep = false ∧ (d.p p).inReset = false ∧ d.polder p ≠ 2) :=
  ⟨⟨st (w0 |>.set R.THM_CTRL.EN 0), (by first | decide +kernel | (dsimp only; decide +kernel))⟩,
   ⟨st (w0 |>.set R.THM_CTRL.EN 1), (by first | decide +kernel | (dsimp only; decide +kernel))⟩,
   ⟨175, st (w0 |>.set (R.SCFG.EXCL 175) 1), by decide +kernel, by decide +kernel⟩,
   ⟨31, st (w0 |>.set (R.READ.HOT 175) 1 |>.set (R.CAP.STEP 31) 15 |>.set (R.CAP.FLOOR 31) 14), by decide +kernel, by decide +kernel⟩,
   ⟨47, st (w0 |>.set (R.READ.RATE_HI 47) 1 |>.set (R.CAP.STEP 47) 15 |>.set (R.CAP.FLOOR 47) 15), by decide +kernel, by decide +kernel⟩,
   ⟨47, st (w0 |>.set (R.CAP.STEP 47) 14), by decide +kernel, by decide +kernel⟩,
   ⟨47, st (w0 |>.set (R.CAP.STEP 47) 15), by decide +kernel, by decide +kernel⟩,
   ⟨47, st w0, (by first | decide +kernel | (dsimp only; decide +kernel))⟩,
   ⟨47, st (w0.set (R.CAP.STOP_PEND 47) 1), by decide +kernel, by decide +kernel, by decide +kernel, by decide +kernel⟩⟩

theorem witness_ThermalControl_2 :
    (∃ (p : Fin 48) (s : State), let d := s.dev; d.on (R.CAP.STOP_PEND p) = true ∧ (d.p p).prep = false ∧ (d.p p).inReset = false ∧ d.polder p = 2) ∧
    (∃ (p : Fin 48) (s : State), let d := s.dev; d.on (R.CAP.STOP_PEND p) = true ∧ (d.p p).prep = false ∧ (d.p p).inReset = false ∧ d.polder p ≤ 1 ∧ p.val < 32 ∧ d.pwr.run = none ∧ (∀ q, d.testRun q = none)) ∧
    (∃ (p : Fin 48) (t : Trans) (s : State), let d := s.dev; d.pwr.run = some t ∧ (d.p p).prep = true ∧ t.res = 5 ∧ t.who = some p.val ∧ p.val < 32 ∧ d.polder p ≤ 1 ∧ d.pwr.next = none) ∧
    (∃ (p : Fin 48) (t : Trans) (s : State), let d := s.dev; d.pwr.run = some t ∧ (d.p p).prep = true ∧ t.res = 5 ∧ t.who = some p.val) ∧
    (∃ (p : Fin 48) (s : State), let d := s.dev; d.pwr.run = none ∨ (d.p p).prep = false) ∧
    (∃ (rs : List Int) (s : State), let d := s.dev; let above : Nat := rs.countP fun y => decide (((16 * d.get R.SENT_CTRL.TRIP : Nat) : Int) ≤ y); ∃ r0 r1 r2 r3, rs = [r0, r1, r2, r3] ∧ (∀ y, y ∈ rs → -2048 ≤ y ∧ y ≤ 2047) ∧ above < 2) ∧
    (∃ (rs : List Int) (s : State), let d := s.dev; let above : Nat := rs.countP fun y => decide (((16 * d.get R.SENT_CTRL.TRIP : Nat) : Int) ≤ y); ∃ r0 r1 r2 r3, rs = [r0, r1, r2, r3] ∧ (∀ y, y ∈ rs → -2048 ≤ y ∧ y ≤ 2047) ∧ 2 ≤ above ∧ d.thm.trips < 3) ∧
    (∃ (rs : List Int) (s : State), let d := s.dev; let above : Nat := rs.countP fun y => decide (((16 * d.get R.SENT_CTRL.TRIP : Nat) : Int) ≤ y); ∃ r0 r1 r2 r3, rs = [r0, r1, r2, r3] ∧ (∀ y, y ∈ rs → -2048 ≤ y ∧ y ≤ 2047) ∧ 2 ≤ above ∧ d.thm.trips = 3 ∧ d.thm.tripped = false) :=
  ⟨⟨47, st ((w0.set (R.CAP.STOP_PEND 47) 1).setPolder 47 2), by decide +kernel, by decide +kernel, by decide +kernel, by decide +kernel⟩,
   ⟨31, st ((w0.set (R.CAP.STOP_PEND 31) 1).setPolder 31 1), by decide +kernel, by decide +kernel, by decide +kernel, by decide +kernel, by decide +kernel, by decide +kernel, fun _ => rfl⟩,
   ⟨31, { turning [] [] none none with res := 5, who := some 31 }, st ((moving { turning [] [] none none with res := 5, who := some 31 }).onP 31 fun x => { x with prep := true }), rfl, by decide +kernel, by decide +kernel, by decide +kernel, by decide +kernel, by decide +kernel, by decide +kernel⟩,
   ⟨47, { turning [] [] none none with res := 5, who := some 47 }, st ((moving { turning [] [] none none with res := 5, who := some 47 }).onP 47 fun x => { x with prep := true }), rfl, by decide +kernel, by decide +kernel, by decide +kernel⟩,
   ⟨47, st w0, (by first | decide +kernel | (dsimp only; decide +kernel))⟩,
   ⟨[1920, 1919, -2048, 2047], st (w0 |>.set R.SENT_CTRL.TRIP 127), 1920, 1919, -2048, 2047, rfl, by decide +kernel, by decide +kernel⟩,
   ⟨[1920, 1920, 1919, -2048], st (w0 |>.set R.SENT_CTRL.TRIP 120), 1920, 1920, 1919, -2048, rfl, by decide +kernel, by decide +kernel, by decide +kernel⟩,
   ⟨[1920, 1920, 1919, -2048], st ({ w0.set R.SENT_CTRL.TRIP 120 with thm := { w0.thm with trips := 3 } }), 1920, 1920, 1919, -2048, rfl, by decide +kernel, by decide +kernel, by decide +kernel, by decide +kernel⟩⟩

theorem witness_LifeCycleAndFuses_1 :
    (∃ (s : State), s.dev.clean .shared ∧ let d := s.dev; let v := s.vault; let mfg := d.get R.DBG_STATUS.LEVEL = 2 ∧ v.life = 0 ∧ (v.key 0).isSome = true ∧ v.next = none; mfg) ∧
    (∃ (s : State), s.dev.clean .shared ∧ let d := s.dev; let v := s.vault; let mfg := d.get R.DBG_STATUS.LEVEL = 2 ∧ v.life = 0 ∧ (v.key 0).isSome = true ∧ v.next = none; ¬ mfg) ∧
    (∃ (e : EngId) (op : Nat) (s : State), s.dev.clean .shared ∧ let d := s.dev; let v := s.vault; let own (k : Nat) : Prop := 2 ≤ k ∧ k ≤ 7; let t := d.block e op 32; let x := blk t 5 1; let k := blk t 6 1; let sig := (t.drop 64).take 96; let authorised := (v.life = 1 ∧ x = 2 ∧ k ≤ 1 ∧ v.serial.isSome = true) ∨ (v.life = 2 ∧ x = 3 ∧ own k) ∨ (v.life = 2 ∧ x = 4 ∧ k ≤ 7) ∨ (v.life = 3 ∧ x = 4 ∧ own k) ∨ (x = 5 ∧ ((v.life = 1 ∨ v.life = 4) ∧ k ≤ 1 ∨ v.life = 2 ∧ k ≤ 7 ∨ v.life = 3 ∧ own k)); let good := blk t 4 1 = v.life ∧ authorised ∧ blk t 8 8 = v.serialNo.toNat ∧ v.usable k = true ∧ v.key k = some (keyHash sig) ∧ signatureOk sig ((t.drop 160).take 96) (t.take 64) = true ∧ v.next = none; good ∧ s.dev.Asks e 0x202 4 op) ∧
    (∃ (e : EngId) (op : Nat) (s : State), s.dev.clean .shared ∧ let d := s.dev; let v := s.vault; let own (k : Nat) : Prop := 2 ≤ k ∧ k ≤ 7; let t := d.block e op 32; let x := blk t 5 1; let k := blk t 6 1; let sig := (t.drop 64).take 96; let authorised := (v.life = 1 ∧ x = 2 ∧ k ≤ 1 ∧ v.serial.isSome = true) ∨ (v.life = 2 ∧ x = 3 ∧ own k) ∨ (v.life = 2 ∧ x = 4 ∧ k ≤ 7) ∨ (v.life = 3 ∧ x = 4 ∧ own k) ∨ (x = 5 ∧ ((v.life = 1 ∨ v.life = 4) ∧ k ≤ 1 ∨ v.life = 2 ∧ k ≤ 7 ∨ v.life = 3 ∧ own k)); let good := blk t 4 1 = v.life ∧ authorised ∧ blk t 8 8 = v.serialNo.toNat ∧ v.usable k = true ∧ v.key k = some (keyHash sig) ∧ signatureOk sig ((t.drop 160).take 96) (t.take 64) = true ∧ v.next = none; ¬ good ∧ s.dev.Asks e 0x202 4 op) ∧
    (∃ (e : EngId) (op : Nat) (s : State), s.dev.clean .shared ∧ let d := s.dev; let b := d.block e op 8; let f := blk b 0 1; let reserved := f = 14 ∨ f = 15 ∨ 0x1A < f; reserved ∧ s.dev.Asks e 0x202 6 op) ∧
    (∃ (e : EngId) (op : Nat) (s : State), s.dev.clean .shared ∧ let d := s.dev; let v := s.vault; let b := d.block e op 8; let f := blk b 0 1; let reserved := f = 14 ∨ f = 15 ∨ 0x1A < f; let allowed := (f ≤ 1 ∨ f = 8 ∨ f = 13) ∧ v.life ≤ 1 ∨ ((2 ≤ f ∧ f ≤ 7) ∨ (9 ≤ f ∧ f ≤ 12)) ∧ v.life = 2 ∨ ((0x12 ≤ f ∧ f ≤ 0x17) ∨ f = 0x19 ∨ f = 0x1A) ∧ (v.life = 2 ∨ v.life = 3); ¬ reserved ∧ ¬ allowed ∧ s.dev.Asks e 0x202 6 op) ∧
    (∃ (e : EngId) (op : Nat) (s : State), s.dev.clean .shared ∧ let d := s.dev; let v := s.vault; let b := d.block e op 8; let f := blk b 0 1; let allowed := (f ≤ 1 ∨ f = 8 ∨ f = 13) ∧ v.life ≤ 1 ∨ ((2 ≤ f ∧ f ≤ 7) ∨ (9 ≤ f ∧ f ≤ 12)) ∧ v.life = 2 ∨ ((0x12 ≤ f ∧ f ≤ 0x17) ∨ f = 0x19 ∨ f = 0x1A) ∧ (v.life = 2 ∨ v.life = 3); let fused := (f ≤ 10 ∧ (v.key f).isSome = true) ∨ (f = 11 ∧ v.oik.isSome = true) ∨ (f = 12 ∧ v.policy.isSome = true) ∨ (f = 13 ∧ v.serial.isSome = true) ∨ (16 ≤ f ∧ f - 16 ∈ v.revoked); allowed ∧ fused ∧ s.dev.Asks e 0x202 6 op) ∧
    (∃ (e : EngId) (op : Nat) (s : State), s.dev.clean .shared ∧ let d := s.dev; let v := s.vault; let own (k : Nat) : Prop := 2 ≤ k ∧ k ≤ 7; let b := d.block e op 8; let f := blk b 0 1; let allowed := (f ≤ 1 ∨ f = 8 ∨ f = 13) ∧ v.life ≤ 1 ∨ ((2 ≤ f ∧ f ≤ 7) ∨ (9 ≤ f ∧ f ≤ 12)) ∧ v.life = 2 ∨ ((0x12 ≤ f ∧ f ≤ 0x17) ∨ f = 0x19 ∨ f = 0x1A) ∧ (v.life = 2 ∨ v.life = 3); let fused := (f ≤ 10 ∧ (v.key f).isSome = true) ∨ (f = 11 ∧ v.oik.isSome = true) ∨ (f = 12 ∧ v.policy.isSome = true) ∨ (f = 13 ∧ v.serial.isSome = true) ∨ (16 ≤ f ∧ f - 16 ∈ v.revoked); let last := v.life = 3 ∧ 0x12 ≤ f ∧ f ≤ 0x17 ∧ ∀ j, own j → j ≠ f - 16 → v.usable j = false; allowed ∧ ¬ fused ∧ last ∧ s.dev.Asks e 0x202 6 op) ∧
    (∃ (e : EngId) (op : Nat) (s : State), s.dev.clean .shared ∧ let d := s.dev; let v := s.vault; let own (k : Nat) : Prop := 2 ≤ k ∧ k ≤ 7; let b := d.block e op 8; let f := blk b 0 1; let allowed := (f ≤ 1 ∨ f = 8 ∨ f = 13) ∧ v.life ≤ 1 ∨ ((2 ≤ f ∧ f ≤ 7) ∨ (9 ≤ f ∧ f ≤ 12)) ∧ v.life = 2 ∨ ((0x12 ≤ f ∧ f ≤ 0x17) ∨ f = 0x19 ∨ f = 0x1A) ∧ (v.life = 2 ∨ v.life = 3); let fused := (f ≤ 10 ∧ (v.key f).isSome = true) ∨ (f = 11 ∧ v.oik.isSome = true) ∨ (f = 12 ∧ v.policy.isSome = true) ∨ (f = 13 ∧ v.serial.isSome = true) ∨ (16 ≤ f ∧ f - 16 ∈ v.revoked); let last := v.life = 3 ∧ 0x12 ≤ f ∧ f ≤ 0x17 ∧ ∀ j, own j → j ≠ f - 16 → v.usable j = false; allowed ∧ ¬ fused ∧ ¬ last ∧ s.dev.Asks e 0x202 6 op) :=
  ⟨⟨{ dev := w0.set R.DBG_STATUS.LEVEL 2, vault := { keys := [(0, some 1)] } }, clean_of (by decide +kernel), (by first | decide +kernel | (dsimp only; decide +kernel))⟩,
   ⟨st w0, clean_of (by decide +kernel), (by first | decide +kernel | (dsimp only; decide +kernel))⟩,
   ⟨0, 0, token25, clean_of (by decide +kernel), by decide +kernel, asks_of (by decide +kernel)⟩,
   ⟨0, 0, st (asked w0 0 0x202 4 0 48), clean_of (by decide +kernel), fun h => absurd h.2.1 (by decide +kernel), asks_of (by decide +kernel)⟩,
   ⟨0, 0, fuseAsk 0x1B 0 {}, clean_of (by decide +kernel), by decide +kernel, asks_of (by decide +kernel)⟩,
   ⟨0, 0, fuseAsk 13 0 { life := 2 }, clean_of (by decide +kernel), (by decide +kernel), (by decide +kernel), asks_of (by decide +kernel)⟩,
   ⟨0, 0, fuseAsk 10 0 { life := 2, keys := [(10, some 1)] }, clean_of (by decide +kernel), by decide +kernel, by decide +kernel, asks_of (by decide +kernel)⟩,
   ⟨0, 0, fuseAsk 0x12 0 { life := 3, keys := [(2, some 1)] }, clean_of (by decide +kernel), by decide +kernel, by decide +kernel, ⟨by decide +kernel, by decide +kernel, by decide +kernel, fun j h n => lastKey _ j (by decide +kernel) h n⟩, asks_of (by decide +kernel)⟩,
   ⟨0, 0, fuseAsk 11 0 { life := 2 }, clean_of (by decide +kernel), by decide +kernel, by decide +kernel, fun h => absurd h.1 (by decide +kernel), asks_of (by decide +kernel)⟩⟩

theorem witness_LifeCycleAndFuses_2 :
    (∃ (e : EngId) (op : Nat) (s : State), s.dev.clean .shared ∧ let d := s.dev; let v := s.vault; let n := op % 128; let up := v.rollback < n ∧ n ≤ 64 ∧ n ≤ d.sec.rollImg ∧ 1 ≤ v.life ∧ v.life ≤ 3; up ∧ s.dev.Asks e 0x202 5 op) ∧
    (∃ (e : EngId) (op : Nat) (s : State), s.dev.clean .shared ∧ let d := s.dev; let v := s.vault; let n := op % 128; let up := v.rollback < n ∧ n ≤ 64 ∧ n ≤ d.sec.rollImg ∧ 1 ≤ v.life ∧ v.life ≤ 3; ¬ up ∧ s.dev.Asks e 0x202 5 op) ∧
    (∃ (e : EngId) (op : Nat) (s : State), s.dev.clean .shared ∧ let d := s.dev; d.sec.rrk = none ∧ s.dev.Asks e 0x202 3 op) ∧
    (∃ (e : EngId) (op : Nat) (s : State), s.dev.clean .shared ∧ let d := s.dev; let p := d.block e op 4; let mac (key : List Byte) : Prop := (hmac384 key (p.take 16)).take 16 = (p.drop 16).take 16; ∃ key, d.sec.rrk = some key ∧ ¬ mac key ∧ s.dev.Asks e 0x202 3 op) ∧
    (∃ (e : EngId) (op : Nat) (s : State), s.dev.clean .shared ∧ let d := s.dev; let v := s.vault; let p := d.block e op 4; let cnt := beNat ((p.drop 3).take 4); let mac (key : List Byte) : Prop := (hmac384 key (p.take 16)).take 16 = (p.drop 16).take 16; ∃ key, d.sec.rrk = some key ∧ mac key ∧ cnt ≤ v.rrCount ∧ s.dev.Asks e 0x202 3 op) ∧
    (∃ (e : EngId) (op : Nat) (s : State), s.dev.clean .shared ∧ let d := s.dev; let v := s.vault; let p := d.block e op 4; let cnt := beNat ((p.drop 3).take 4); let mac (key : List Byte) : Prop := (hmac384 key (p.take 16)).take 16 = (p.drop 16).take 16; ∃ key, d.sec.rrk = some key ∧ mac key ∧ v.rrCount < cnt ∧ (1 < blk p 1 1 ∨ 31 < blk p 2 1) ∧ s.dev.Asks e 0x202 3 op) ∧
    (∃ (e : EngId) (op : Nat) (s : State), s.dev.clean .shared ∧ let d := s.dev; let v := s.vault; let p := d.block e op 4; let cnt := beNat ((p.drop 3).take 4); let mac (key : List Byte) : Prop := (hmac384 key (p.take 16)).take 16 = (p.drop 16).take 16; ∃ key, d.sec.rrk = some key ∧ mac key ∧ v.rrCount < cnt ∧ blk p 1 1 ≤ 1 ∧ blk p 2 1 ≤ 31 ∧ s.dev.Asks e 0x202 3 op) ∧
    (∃ (s : State), s.dev.clean .shared ∧ let v := s.vault; (v.life = 4 ∨ v.life = 5) ∧ v.life ∉ v.wiped) ∧
    (∃ (s : State), s.dev.clean .shared ∧ let v := s.vault; (v.life < 4 ∨ v.life ∈ v.wiped)) :=
  ⟨⟨0, 64, { dev := asked { w0 with sec := { rollImg := 64 } } 0 0x202 5 64 48, vault := { life := 3, rollback := 63 } }, clean_of (by decide +kernel), by decide +kernel, asks_of (by decide +kernel)⟩,
   ⟨0, 65, st (asked w0 0 0x202 5 65 48), clean_of (by decide +kernel), by decide +kernel, asks_of (by decide +kernel)⟩,
   ⟨0, 0, st (asked w0 0 0x202 3 0 48), clean_of (by decide +kernel), by decide +kernel, asks_of (by decide +kernel)⟩,
   ⟨0, 0, requestAsk [0, 1, 31, 0, 0, 0, 1] [], clean_of (by decide +kernel), [1], rfl, fun h => absurd h (by decide +kernel), asks_of (by decide +kernel)⟩,
   ⟨0, 0, requestAsk [0, 1, 31, 0, 0, 0, 0] reqMac0, clean_of (by decide +kernel), [1], rfl, by decide +kernel, by decide +kernel, asks_of (by decide +kernel)⟩,
   ⟨0, 0, requestAsk [0, 2, 31, 0, 0, 0, 1] reqMac2, clean_of (by decide +kernel), [1], rfl, by decide +kernel, by decide +kernel, by decide +kernel, asks_of (by decide +kernel)⟩,
   ⟨0, 0, requestAsk [0, 1, 31, 0, 0, 0, 1] reqMac1, clean_of (by decide +kernel), [1], rfl, by decide +kernel, by decide +kernel, by decide +kernel, by decide +kernel, asks_of (by decide +kernel)⟩,
   ⟨{ dev := w0, vault := { life := 5 } }, clean_of (by decide +kernel), by decide +kernel, by decide +kernel⟩,
   ⟨{ dev := w0, vault := { life := 5, wiped := [5] } }, clean_of (by decide +kernel), (by first | decide +kernel | (dsimp only; decide +kernel))⟩⟩

theorem witness_KeysAndRecords_1 :
    (∃ (e : EngId) (op : Nat) (s : State), s.dev.clean .shared ∧ (∀ w, s.vault.nv.syndrome w = 0) ∧ let d := s.dev; let w := d.get R.NV_ADDR.WORD; s.dev.Asks e 0x202 1 op) ∧
    (∃ (e : EngId) (op : Nat) (s : State), s.dev.clean .shared ∧ (∀ w, s.vault.nv.syndrome w = 0) ∧ let d := s.dev; let w := d.get R.NV_ADDR.WORD; s.dev.Asks e 0x202 2 op) ∧
    (∃ (s : State), s.dev.clean .shared ∧ (∀ w, s.vault.nv.syndrome w = 0)) ∧
    (∃ (e : EngId) (op : Nat) (s : State), s.dev.clean .shared ∧ (∀ w, s.vault.nv.syndrome w = 0) ∧ let d := s.dev; let w := d.get R.NV_ADDR.WORD; d.sec.trngBad = false ∧ d.Asks e 0x202 0 op) ∧
    (∃ (e : EngId) (op : Nat) (s : State), s.dev.clean .shared ∧ (∀ w, s.vault.nv.syndrome w = 0) ∧ let d := s.dev; let w := d.get R.NV_ADDR.WORD; d.sec.trngBad = true ∧ d.Asks e 0x202 0 op) ∧
    (∃ (s : State), s.dev.clean .shared ∧ (∀ w, s.vault.nv.syndrome w = 0) ∧ let d := s.dev; let w := d.get R.NV_ADDR.WORD; d.sec.trngBad = false) ∧
    (∃ (s : State), s.dev.clean .shared ∧ (∀ w, s.vault.nv.syndrome w = 0) ∧ let d := s.dev; let w := d.get R.NV_ADDR.WORD; d.sec.trngBad = true) ∧
    (∃ (e : EngId) (op : Nat) (s : State), s.dev.clean .shared ∧ (∀ w, s.vault.nv.syndrome w = 0) ∧ let d := s.dev; let w := d.get R.NV_ADDR.WORD; d.Asks e 0x204 0 op) :=
  ⟨⟨95, 0, st (asked w0 95 0x202 1 0 48), clean_of (by decide +kernel), fun _ => rfl, asks_of (by decide +kernel)⟩,
   ⟨95, 0, st (asked w0 95 0x202 2 0 48), clean_of (by decide +kernel), fun _ => rfl, asks_of (by decide +kernel)⟩,
   ⟨st w0, clean_of (by decide +kernel), fun _ => rfl⟩,
   ⟨95, 0, st (asked w0 95 0x202 0 0 48), clean_of (by decide +kernel), fun _ => rfl, by decide +kernel, asks_of (by decide +kernel)⟩,
   ⟨95, 0, st (asked { w0 with sec := { trngBad := true } } 95 0x202 0 0 48), clean_of (by decide +kernel), fun _ => rfl, by decide +kernel, asks_of (by decide +kernel)⟩,
   ⟨st w0, clean_of (by decide +kernel), fun _ => rfl, (by first | decide +kernel | (dsimp only; decide +kernel))⟩,
   ⟨st ({ w0 with sec := { trngBad := true } }), clean_of (by decide +kernel), fun _ => rfl, (by first | decide +kernel | (dsimp only; decide +kernel))⟩,
   ⟨95, 8191, st (asked w0 95 0x204 0 8191 48), clean_of (by decide +kernel), fun _ => rfl, asks_of (by decide +kernel)⟩⟩

theorem witness_KeysAndRecords_2 :
    (∃ (e : EngId) (op : Nat) (s : State), s.dev.clean .shared ∧ (∀ w, s.vault.nv.syndrome w = 0) ∧ let d := s.dev; let fst := op % 8192; let w := d.get R.NV_ADDR.WORD; fst < 1032 ∧ d.Asks e 0x204 1 op) ∧
    (∃ (e : EngId) (op : Nat) (s : State), s.dev.clean .shared ∧ (∀ w, s.vault.nv.syndrome w = 0) ∧ let d := s.dev; let fst := op % 8192; let w := d.get R.NV_ADDR.WORD; 1032 ≤ fst ∧ d.Asks e 0x204 1 op) ∧
    (∃ (e : EngId) (op : Nat) (s : State), s.dev.clean .shared ∧ (∀ w, s.vault.nv.syndrome w = 0) ∧ let d := s.dev; let fst := op % 8192; let n := min (getBits op 28 16 + 1) (8192 - fst); let b (n : Nat) := d.block e op n; let t := blk (b 8) 0 1; let w := d.get R.NV_ADDR.WORD; (t = 1 ∨ 128 ≤ t) ∧ d.Asks e 0x204 2 op) ∧
    (∃ (e : EngId) (op : Nat) (s : State), s.dev.clean .shared ∧ (∀ w, s.vault.nv.syndrome w = 0) ∧ let d := s.dev; let fst := op % 8192; let n := min (getBits op 28 16 + 1) (8192 - fst); let b (n : Nat) := d.block e op n; let t := blk (b 8) 0 1; let w := d.get R.NV_ADDR.WORD; t ≠ 1 ∧ t < 128 ∧ d.Asks e 0x204 2 op) ∧
    (∃ (s : State), s.dev.clean .shared ∧ (∀ w, s.vault.nv.syndrome w = 0) ∧ let d := s.dev; let w := d.get R.NV_ADDR.WORD; d.barred A.NV_DATA_LO = none) ∧
    (∃ (s : State), s.dev.clean .shared ∧ (∀ w, s.vault.nv.syndrome w = 0) ∧ let d := s.dev; let w := d.get R.NV_ADDR.WORD; d.barred A.NV_DATA_HI = none) ∧
    (∃ (s : State), s.dev.clean .shared ∧ (∀ w, s.vault.nv.syndrome w = 0) ∧ let d := s.dev; let w := d.get R.NV_ADDR.WORD; d.sec.nvFree ≤ d.up) ∧
    (∃ (s : State), s.dev.clean .shared ∧ (∀ w, s.vault.nv.syndrome w = 0) ∧ let d := s.dev; let w := d.get R.NV_ADDR.WORD; d.up < d.sec.nvFree) :=
  ⟨⟨95, 1031, st (asked w0 95 0x204 1 1031 48), clean_of (by decide +kernel), fun _ => rfl, by decide +kernel, asks_of (by decide +kernel)⟩,
   ⟨95, 1032, st (asked w0 95 0x204 1 1032 48), clean_of (by decide +kernel), fun _ => rfl, by decide +kernel, asks_of (by decide +kernel)⟩,
   ⟨95, 0, st (asked (w0.hubWrite 11 0 [(128, false)]) 95 0x204 2 0 48), clean_of (by decide +kernel), fun _ => rfl, by decide +kernel, asks_of (by decide +kernel)⟩,
   ⟨95, 0, st (asked (w0.hubWrite 11 0 [(127, false)]) 95 0x204 2 0 48), clean_of (by decide +kernel), fun _ => rfl, by decide +kernel, by decide +kernel, asks_of (by decide +kernel)⟩,
   ⟨st w0, clean_of (by decide +kernel), fun _ => rfl, (by first | decide +kernel | (dsimp only; decide +kernel))⟩,
   ⟨st w0, clean_of (by decide +kernel), fun _ => rfl, (by first | decide +kernel | (dsimp only; decide +kernel))⟩,
   ⟨st (w0 |>.set R.NV_ADDR.WORD 8191), clean_of (by decide +kernel), fun _ => rfl, (by first | decide +kernel | (dsimp only; decide +kernel))⟩,
   ⟨st ({ w0 with sec := { nvFree := 1 } }), clean_of (by decide +kernel), fun _ => rfl, (by first | decide +kernel | (dsimp only; decide +kernel))⟩⟩

theorem witness_DebugPort_1 :
    (∃ (s : State), let d := s.dev; let v := s.vault; let level := d.get R.DBG_STATUS.LEVEL; let scan := level = 2 ∧ (v.life = 0 ∨ v.life = 1 ∨ v.life = 4); scan) ∧
    (∃ (s : State), let d := s.dev; let v := s.vault; let level := d.get R.DBG_STATUS.LEVEL; let scan := level = 2 ∧ (v.life = 0 ∨ v.life = 1 ∨ v.life = 4); ¬ scan) ∧
    (∃ (s : State), let d := s.dev; let v := s.vault; let level := d.get R.DBG_STATUS.LEVEL; let scan := level = 2 ∧ (v.life = 0 ∨ v.life = 1 ∨ v.life = 4); ¬ scan) ∧
    (∃ (s : State), let d := s.dev; let v := s.vault; v.life = 5 ∨ d.sec.trngBad = true) ∧
    (∃ (s : State), let d := s.dev; let v := s.vault; v.life ≠ 5 ∧ d.sec.trngBad = false) ∧
    (∃ (s : State), let v := s.vault; v.life = 5) ∧
    (∃ (s : State), let v := s.vault; v.life ≠ 5) ∧
    (∃ (s : State), let d := s.dev; d.sec.resp = none) ∧
    (∃ (l : List Byte) (s : State), let d := s.dev; d.sec.resp = some l) :=
  ⟨⟨st (w0 |>.set R.DBG_STATUS.LEVEL 2), (by first | decide +kernel | (dsimp only; decide +kernel))⟩,
   ⟨st (w0 |>.set R.DBG_STATUS.LEVEL 0), (by first | decide +kernel | (dsimp only; decide +kernel))⟩,
   ⟨st (w0 |>.set R.DBG_STATUS.LEVEL 1), (by first | decide +kernel | (dsimp only; decide +kernel))⟩,
   ⟨st ({ w0 with sec := { trngBad := true } }), (by first | decide +kernel | (dsimp only; decide +kernel))⟩,
   ⟨st w0, by decide +kernel, by decide +kernel⟩,
   ⟨{ dev := w0, vault := { life := 5 } }, (by first | decide +kernel | (dsimp only; decide +kernel))⟩,
   ⟨st w0, (by first | decide +kernel | (dsimp only; decide +kernel))⟩,
   ⟨st w0, (by first | decide +kernel | (dsimp only; decide +kernel))⟩,
   ⟨answers 2 0, st ({ w0 with sec := { resp := some (answers 2 0) } }), rfl⟩⟩

theorem witness_DebugPort_2 :
    (∃ (l : List Byte) (s : State), let d := s.dev; d.sec.resp = some l ∧ d.on R.DBG_STATUS.LOCKOUT = true) ∧
    (∃ (l : List Byte) (s : State), let d := s.dev; let v := s.vault; let k := blk l 1 1; let slotOk := k ≤ 2 ∧ v.usable (8 + k) = true; let fails := d.get R.DBG_STATUS.FAILS; d.sec.resp = some l ∧ d.on R.DBG_STATUS.LOCKOUT = false ∧ fails ≤ 7 ∧ ¬ slotOk) ∧
    (∃ (l : List Byte) (s : State), let d := s.dev; let v := s.vault; let lv := blk l 0 1; let k := blk l 1 1; let slotOk := k ≤ 2 ∧ v.usable (8 + k) = true; let allowed := (v.life = 2 ∧ 1 ≤ lv ∧ lv ≤ 2) ∨ (v.life = 3 ∧ 1 ≤ k ∧ (lv = 1 ∨ (lv = 2 ∧ bit v.pol 0 = true))) ∨ (v.life = 4 ∧ ((k = 0 ∧ lv = 2) ∨ (1 ≤ k ∧ lv = 1))); let fails := d.get R.DBG_STATUS.FAILS; d.sec.resp = some l ∧ d.on R.DBG_STATUS.LOCKOUT = false ∧ fails ≤ 7 ∧ slotOk ∧ ¬ allowed) ∧
    (∃ (l : List Byte) (s : State), let d := s.dev; let v := s.vault; let lv := blk l 0 1; let k := blk l 1 1; let key := (l.drop 4).take 96; let slotOk := k ≤ 2 ∧ v.usable (8 + k) = true; let allowed := (v.life = 2 ∧ 1 ≤ lv ∧ lv ≤ 2) ∨ (v.life = 3 ∧ 1 ≤ k ∧ (lv = 1 ∨ (lv = 2 ∧ bit v.pol 0 = true))) ∨ (v.life = 4 ∧ ((k = 0 ∧ lv = 2) ∨ (1 ≤ k ∧ lv = 1))); let hashOk := v.key (8 + k) = some (keyHash key); let fails := d.get R.DBG_STATUS.FAILS; d.sec.resp = some l ∧ d.on R.DBG_STATUS.LOCKOUT = false ∧ fails ≤ 7 ∧ slotOk ∧ allowed ∧ ¬ hashOk) ∧
    (∃ (l : List Byte) (s : State), let d := s.dev; let v := s.vault; let lv := blk l 0 1; let k := blk l 1 1; let key := (l.drop 4).take 96; let slotOk := k ≤ 2 ∧ v.usable (8 + k) = true; let allowed := (v.life = 2 ∧ 1 ≤ lv ∧ lv ≤ 2) ∨ (v.life = 3 ∧ 1 ≤ k ∧ (lv = 1 ∨ (lv = 2 ∧ bit v.pol 0 = true))) ∨ (v.life = 4 ∧ ((k = 0 ∧ lv = 2) ∨ (1 ≤ k ∧ lv = 1))); let hashOk := v.key (8 + k) = some (keyHash key); let sigOk := signatureOk key ((l.drop 100).take 96) ((d.challenge v).1 ++ l.take 2) = true; let fails := d.get R.DBG_STATUS.FAILS; d.sec.resp = some l ∧ d.on R.DBG_STATUS.LOCKOUT = false ∧ fails ≤ 7 ∧ slotOk ∧ allowed ∧ hashOk ∧ ¬ sigOk) ∧
    (∃ (l : List Byte) (s : State), let d := s.dev; let v := s.vault; let lv := blk l 0 1; let k := blk l 1 1; let key := (l.drop 4).take 96; let slotOk := k ≤ 2 ∧ v.usable (8 + k) = true; let allowed := (v.life = 2 ∧ 1 ≤ lv ∧ lv ≤ 2) ∨ (v.life = 3 ∧ 1 ≤ k ∧ (lv = 1 ∨ (lv = 2 ∧ bit v.pol 0 = true))) ∨ (v.life = 4 ∧ ((k = 0 ∧ lv = 2) ∨ (1 ≤ k ∧ lv = 1))); let hashOk := v.key (8 + k) = some (keyHash key); let sigOk := signatureOk key ((l.drop 100).take 96) ((d.challenge v).1 ++ l.take 2) = true; let fails := d.get R.DBG_STATUS.FAILS; d.sec.resp = some l ∧ d.on R.DBG_STATUS.LOCKOUT = false ∧ fails ≤ 7 ∧ slotOk ∧ allowed ∧ hashOk ∧ sigOk) ∧
    (∃ (s : State), let d := s.dev; let level := d.get R.DBG_STATUS.LEVEL; level = 2) ∧
    (∃ (s : State), let d := s.dev; let level := d.get R.DBG_STATUS.LEVEL; level ≠ 2) :=
  ⟨⟨answers 2 0, st ({ w0.set R.DBG_STATUS.LOCKOUT 1 with sec := { resp := some (answers 2 0) } }), rfl, by decide +kernel⟩,
   ⟨answers 2 0, challenged 2 0 4 [], rfl, by decide +kernel, by decide +kernel, by decide +kernel⟩,
   ⟨answers 2 0, challenged 2 0 3 [(8, some knownKey)], rfl, by decide +kernel, by decide +kernel, by decide +kernel, by decide +kernel⟩,
   ⟨answers 2 0, challenged 2 0 4 [(8, some 1)], rfl, by decide +kernel, by decide +kernel, by decide +kernel, by decide +kernel, by decide +kernel⟩,
   ⟨unsigned, wrong, rfl, by decide +kernel, by decide +kernel, by decide +kernel, by decide +kernel, by decide +kernel, by decide +kernel⟩,
   ⟨answers 2 0, challenged 2 0 4 [(8, some knownKey)], rfl, by decide +kernel, by decide +kernel, by decide +kernel, by decide +kernel, by decide +kernel, by decide +kernel⟩,
   ⟨st (w0 |>.set R.DBG_STATUS.LEVEL 2), (by first | decide +kernel | (dsimp only; decide +kernel))⟩,
   ⟨st (w0 |>.set R.DBG_STATUS.LEVEL 1), (by first | decide +kernel | (dsimp only; decide +kernel))⟩⟩

theorem witness_DebugAccess_1 :
    (∃ (s : State), s.dev.clean .loc ∧ s.dev.clean .shared ∧ let d := s.dev; let level := d.get R.DBG_STATUS.LEVEL; 1 ≤ level) ∧
    (∃ (addr : BitVec 32) (s : State), s.dev.clean .loc ∧ s.dev.clean .shared ∧ let d := s.dev; let a := addr.toNat; let level := d.get R.DBG_STATUS.LEVEL; 1 ≤ level ∧ (2 ^ 26 ≤ a ∨ a % 4 ≠ 0)) ∧
    (∃ (addr : BitVec 32) (s : State), s.dev.clean .loc ∧ s.dev.clean .shared ∧ let d := s.dev; let a := addr.toNat; let level := d.get R.DBG_STATUS.LEVEL; 1 ≤ level ∧ (2 ^ 26 ≤ a ∨ a % 4 ≠ 0) ∧ level = 2) ∧
    (∃ (addr : BitVec 32) (s : State), s.dev.clean .loc ∧ s.dev.clean .shared ∧ let d := s.dev; let a := addr.toNat; let level := d.get R.DBG_STATUS.LEVEL; 1 ≤ level ∧ a < 2 ^ 26 ∧ a % 4 = 0 ∧ d.barred a = none) ∧
    (∃ (addr : BitVec 32) (s : State), s.dev.clean .loc ∧ s.dev.clean .shared ∧ let d := s.dev; let a := addr.toNat; let level := d.get R.DBG_STATUS.LEVEL; 1 ≤ level ∧ a < 2 ^ 26 ∧ a % 4 = 0 ∧ d.barred a = none ∧ isPllLock a = false) ∧
    (∃ (addr : BitVec 32) (s : State), s.dev.clean .loc ∧ s.dev.clean .shared ∧ let d := s.dev; let a := addr.toNat; let level := d.get R.DBG_STATUS.LEVEL; 1 ≤ level ∧ a < 2 ^ 26 ∧ a % 4 = 0 ∧ d.barred a = none ∧ level = 2 ∧ d.sec.busy = none) ∧
    (∃ (addr : BitVec 32) (s : State), s.dev.clean .loc ∧ s.dev.clean .shared ∧ let d := s.dev; let a := addr.toNat; let level := d.get R.DBG_STATUS.LEVEL; 1 ≤ level ∧ a < 2 ^ 26 ∧ a % 4 = 0 ∧ ∃ c, d.barred a = some c) ∧
    (∃ (addr : BitVec 32) (s : State), s.dev.clean .loc ∧ s.dev.clean .shared ∧ let d := s.dev; let a := addr.toNat; let level := d.get R.DBG_STATUS.LEVEL; 1 ≤ level ∧ a < 2 ^ 26 ∧ a % 4 = 0 ∧ ∃ c, d.barred a = some c ∧ level = 2) ∧
    (∃ (sel : BitVec 8) (s : State), s.dev.clean .loc ∧ s.dev.clean .shared ∧ let d := s.dev; let level := d.get R.DBG_STATUS.LEVEL; let named := sel.toNat / 16 < 12; level = 2 ∧ ¬ named) ∧
    (∃ (sel : BitVec 8) (s : State), s.dev.clean .loc ∧ s.dev.clean .shared ∧ let d := s.dev; let level := d.get R.DBG_STATUS.LEVEL; let named := sel.toNat / 16 < 12; let there := named ∧ d.barredPolder (clPolder (sel.toNat / 16)) = none; level = 2 ∧ there) :=
  ⟨⟨st (w0 |>.set R.DBG_STATUS.LEVEL 1), clean_of (by decide +kernel), clean_of (by decide +kernel), (by first | decide +kernel | (dsimp only; decide +kernel))⟩,
   ⟨0x4000000, st (w0 |>.set R.DBG_STATUS.LEVEL 1), clean_of (by decide +kernel), clean_of (by decide +kernel), by decide +kernel, by decide +kernel⟩,
   ⟨0x4000000, st (w0 |>.set R.DBG_STATUS.LEVEL 2), clean_of (by decide +kernel), clean_of (by decide +kernel), by decide +kernel, by decide +kernel, by decide +kernel⟩,
   ⟨0x3FFFFFC, st (w0 |>.set R.DBG_STATUS.LEVEL 1), clean_of (by decide +kernel), clean_of (by decide +kernel), by decide +kernel, by decide +kernel, by decide +kernel, by decide +kernel⟩,
   ⟨0x3FFFFFC, st (w0 |>.set R.DBG_STATUS.LEVEL 1), clean_of (by decide +kernel), clean_of (by decide +kernel), by decide +kernel, by decide +kernel, by decide +kernel, by decide +kernel, by decide +kernel⟩,
   ⟨0x3FFFFFC, st (w0 |>.set R.DBG_STATUS.LEVEL 2), clean_of (by decide +kernel), clean_of (by decide +kernel), by decide +kernel, by decide +kernel, by decide +kernel, by decide +kernel, by decide +kernel, by decide +kernel⟩,
   ⟨0x1000000, st ((w0.set R.DBG_STATUS.LEVEL 1).onP 0 fun x => { x with test := true }), clean_of (by decide +kernel), clean_of (by decide +kernel), by decide +kernel, by decide +kernel, by decide +kernel, 3, by decide +kernel⟩,
   ⟨0x1000000, st ((w0.set R.DBG_STATUS.LEVEL 2).onP 0 fun x => { x with test := true }), clean_of (by decide +kernel), clean_of (by decide +kernel), by decide +kernel, by decide +kernel, by decide +kernel, 3, by decide +kernel, by decide +kernel⟩,
   ⟨0xC0, st (w0 |>.set R.DBG_STATUS.LEVEL 2), clean_of (by decide +kernel), clean_of (by decide +kernel), by decide +kernel, by decide +kernel⟩,
   ⟨0xB7, st (w0 |>.set R.DBG_STATUS.LEVEL 2), clean_of (by decide +kernel), clean_of (by decide +kernel), by decide +kernel, by decide +kernel⟩⟩

theorem witness_DebugAccess_2 :
    (∃ (sel : BitVec 8) (s : State), s.dev.clean .loc ∧ s.dev.clean .shared ∧ let d := s.dev; let level := d.get R.DBG_STATUS.LEVEL; let e := 8 * (sel.toNat / 16) + sel.toNat % 8; let named := sel.toNat / 16 < 12; let there := named ∧ d.barredPolder (clPolder (sel.toNat / 16)) = none; let st := (d.e e).st; level = 2 ∧ there ∧ st = .halted) ∧
    (∃ (sel : BitVec 8) (s : State), s.dev.clean .loc ∧ s.dev.clean .shared ∧ let d := s.dev; let level := d.get R.DBG_STATUS.LEVEL; let e := 8 * (sel.toNat / 16) + sel.toNat % 8; let named := sel.toNat / 16 < 12; let there := named ∧ d.barredPolder (clPolder (sel.toNat / 16)) = none; let st := (d.e e).st; level = 2 ∧ there ∧ st ≠ .halted) ∧
    (∃ (sel : BitVec 8) (s : State), s.dev.clean .loc ∧ s.dev.clean .shared ∧ let d := s.dev; let level := d.get R.DBG_STATUS.LEVEL; let e := 8 * (sel.toNat / 16) + sel.toNat % 8; let named := sel.toNat / 16 < 12; let there := named ∧ d.barredPolder (clPolder (sel.toNat / 16)) = none; let st := (d.e e).st; level = 2 ∧ there ∧ st = .halted ∧ (d.runEngine e).canIssue e ∧ ∃ (gd : GReg) (ga : GReg) (gb : GReg), d.wordAtPc e = gd.val * 2 ^ 21 + ga.val * 2 ^ 16 + gb.val * 2 ^ 11) ∧
    (∃ (sel : BitVec 8) (addr : BitVec 32) (s : State), s.dev.clean .loc ∧ s.dev.clean .shared ∧ let d := s.dev; let a := addr.toNat; let level := d.get R.DBG_STATUS.LEVEL; let e := 8 * (sel.toNat / 16) + sel.toNat % 8; let named := sel.toNat / 16 < 12; let there := named ∧ d.barredPolder (clPolder (sel.toNat / 16)) = none; let st := (d.e e).st; level = 2 ∧ there ∧ st = .halted ∧ a < 32) ∧
    (∃ (sel : BitVec 8) (addr : BitVec 32) (s : State), s.dev.clean .loc ∧ s.dev.clean .shared ∧ let d := s.dev; let a := addr.toNat; let level := d.get R.DBG_STATUS.LEVEL; let e := 8 * (sel.toNat / 16) + sel.toNat % 8; let named := sel.toNat / 16 < 12; let there := named ∧ d.barredPolder (clPolder (sel.toNat / 16)) = none; let st := (d.e e).st; level = 2 ∧ there ∧ st = .halted ∧ a = 32) ∧
    (∃ (sel : BitVec 8) (addr : BitVec 32) (s : State), s.dev.clean .loc ∧ s.dev.clean .shared ∧ let d := s.dev; let a := addr.toNat; let level := d.get R.DBG_STATUS.LEVEL; let e := 8 * (sel.toNat / 16) + sel.toNat % 8; let named := sel.toNat / 16 < 12; let there := named ∧ d.barredPolder (clPolder (sel.toNat / 16)) = none; let st := (d.e e).st; let listed := a ≤ 71 ∨ (73 ≤ a ∧ a ≤ 78) ∨ a = 80 ∨ (96 ≤ a ∧ a ≤ 103) ∨ (88 ≤ e ∧ 104 ≤ a ∧ a ≤ 106); let engReg := a ≤ 32 ∨ (64 ≤ a ∧ listed); level = 2 ∧ there ∧ st = .halted ∧ ¬ engReg) ∧
    (∃ (sel : BitVec 8) (addr : BitVec 32) (s : State), s.dev.clean .loc ∧ s.dev.clean .shared ∧ let d := s.dev; let a := addr.toNat; let level := d.get R.DBG_STATUS.LEVEL; let e := 8 * (sel.toNat / 16) + sel.toNat % 8; let named := sel.toNat / 16 < 12; let there := named ∧ d.barredPolder (clPolder (sel.toNat / 16)) = none; let st := (d.e e).st; let listed := a ≤ 71 ∨ (73 ≤ a ∧ a ≤ 78) ∨ a = 80 ∨ (96 ≤ a ∧ a ≤ 103) ∨ (88 ≤ e ∧ 104 ≤ a ∧ a ≤ 106); let engReg := a ≤ 32 ∨ (64 ≤ a ∧ listed); level = 2 ∧ there ∧ st = .halted ∧ 64 ≤ a ∧ engReg) ∧
    (∃ (sel : BitVec 8) (addr : BitVec 32) (s : State), s.dev.clean .loc ∧ s.dev.clean .shared ∧ let d := s.dev; let a := addr.toNat; let level := d.get R.DBG_STATUS.LEVEL; let named := sel.toNat / 16 < 12; let there := named ∧ d.barredPolder (clPolder (sel.toNat / 16)) = none; let mapped := a % 8 = 0 ∧ regionOf (BitVec.ofNat 64 a) ≠ .outside; level = 2 ∧ there ∧ ¬ mapped) ∧
    (∃ (sel : BitVec 8) (addr : BitVec 32) (s : State), s.dev.clean .loc ∧ s.dev.clean .shared ∧ let d := s.dev; let a := addr.toNat; let level := d.get R.DBG_STATUS.LEVEL; let named := sel.toNat / 16 < 12; let there := named ∧ d.barredPolder (clPolder (sel.toNat / 16)) = none; let mapped := a % 8 = 0 ∧ regionOf (BitVec.ofNat 64 a) ≠ .outside; level = 2 ∧ there ∧ mapped) ∧
    (∃ (sel : BitVec 8) (s : State), s.dev.clean .loc ∧ s.dev.clean .shared ∧ let d := s.dev; let level := d.get R.DBG_STATUS.LEVEL; let e := 8 * (sel.toNat / 16) + sel.toNat % 8; let named := sel.toNat / 16 < 12; let there := named ∧ d.barredPolder (clPolder (sel.toNat / 16)) = none; let st := (d.e e).st; 1 ≤ level ∧ there ∧ st ≠ .halted) :=
  ⟨⟨0xB7, st (w0 |>.set R.DBG_STATUS.LEVEL 2), clean_of (by decide +kernel), clean_of (by decide +kernel), by decide +kernel, by decide +kernel, by decide +kernel⟩,
   ⟨0xB7, st ((w0.set R.DBG_STATUS.LEVEL 2).onE 95 fun _ => runs), clean_of (by decide +kernel), clean_of (by decide +kernel), by decide +kernel, by decide +kernel, by decide +kernel⟩,
   ⟨0xB7, st (w0 |>.set R.DBG_STATUS.LEVEL 2), clean_of (by decide +kernel), clean_of (by decide +kernel), by decide +kernel, by decide +kernel, by decide +kernel, ⟨by decide +kernel, by decide +kernel, by decide +kernel, by decide +kernel⟩, 0, 0, 0, by decide +kernel⟩,
   ⟨0xB7, 31, st (w0 |>.set R.DBG_STATUS.LEVEL 2), clean_of (by decide +kernel), clean_of (by decide +kernel), by decide +kernel, by decide +kernel, by decide +kernel, by decide +kernel⟩,
   ⟨0xB7, 32, st (w0 |>.set R.DBG_STATUS.LEVEL 2), clean_of (by decide +kernel), clean_of (by decide +kernel), by decide +kernel, by decide +kernel, by decide +kernel, by decide +kernel⟩,
   ⟨0xB7, 128, st (w0 |>.set R.DBG_STATUS.LEVEL 2), clean_of (by decide +kernel), clean_of (by decide +kernel), by decide +kernel, by decide +kernel, by decide +kernel, by decide +kernel⟩,
   ⟨0xB7, 104, st (w0 |>.set R.DBG_STATUS.LEVEL 2), clean_of (by decide +kernel), clean_of (by decide +kernel), by decide +kernel, by decide +kernel, by decide +kernel, by decide +kernel, by decide +kernel⟩,
   ⟨0xB7, 1, st (w0 |>.set R.DBG_STATUS.LEVEL 2), clean_of (by decide +kernel), clean_of (by decide +kernel), by decide +kernel, by decide +kernel, by decide +kernel⟩,
   ⟨0xB7, 0, st (w0 |>.set R.DBG_STATUS.LEVEL 2), clean_of (by decide +kernel), clean_of (by decide +kernel), by decide +kernel, by decide +kernel, by decide +kernel⟩,
   ⟨0xB7, st ((w0.set R.DBG_STATUS.LEVEL 1).onE 95 fun _ => runs), clean_of (by decide +kernel), clean_of (by decide +kernel), by decide +kernel, by decide +kernel, by decide +kernel⟩⟩

theorem witness_DebugAccess_3 :
    (∃ (sel : BitVec 8) (addr : BitVec 32) (s : State), s.dev.clean .loc ∧ s.dev.clean .shared ∧ let d := s.dev; let a := addr.toNat; let level := d.get R.DBG_STATUS.LEVEL; let e := 8 * (sel.toNat / 16) + sel.toNat % 8; let named := sel.toNat / 16 < 12; let there := named ∧ d.barredPolder (clPolder (sel.toNat / 16)) = none; let st := (d.e e).st; 1 ≤ level ∧ there ∧ st = .halted ∧ a < 32) ∧
    (∃ (sel : BitVec 8) (addr : BitVec 32) (s : State), s.dev.clean .loc ∧ s.dev.clean .shared ∧ let d := s.dev; let a := addr.toNat; let level := d.get R.DBG_STATUS.LEVEL; let e := 8 * (sel.toNat / 16) + sel.toNat % 8; let named := sel.toNat / 16 < 12; let there := named ∧ d.barredPolder (clPolder (sel.toNat / 16)) = none; let st := (d.e e).st; 1 ≤ level ∧ there ∧ st = .halted ∧ a = 32) ∧
    (∃ (sel : BitVec 8) (addr : BitVec 32) (s : State), s.dev.clean .loc ∧ s.dev.clean .shared ∧ let d := s.dev; let a := addr.toNat; let level := d.get R.DBG_STATUS.LEVEL; let e := 8 * (sel.toNat / 16) + sel.toNat % 8; let named := sel.toNat / 16 < 12; let there := named ∧ d.barredPolder (clPolder (sel.toNat / 16)) = none; let st := (d.e e).st; let listed := a ≤ 71 ∨ (73 ≤ a ∧ a ≤ 78) ∨ a = 80 ∨ (96 ≤ a ∧ a ≤ 103) ∨ (88 ≤ e ∧ 104 ≤ a ∧ a ≤ 106); let engReg := a ≤ 32 ∨ (64 ≤ a ∧ listed); 1 ≤ level ∧ there ∧ st = .halted ∧ ¬ engReg) ∧
    (∃ (sel : BitVec 8) (addr : BitVec 32) (s : State), s.dev.clean .loc ∧ s.dev.clean .shared ∧ let d := s.dev; let a := addr.toNat; let level := d.get R.DBG_STATUS.LEVEL; let e := 8 * (sel.toNat / 16) + sel.toNat % 8; let named := sel.toNat / 16 < 12; let there := named ∧ d.barredPolder (clPolder (sel.toNat / 16)) = none; let st := (d.e e).st; let listed := a ≤ 71 ∨ (73 ≤ a ∧ a ≤ 78) ∨ a = 80 ∨ (96 ≤ a ∧ a ≤ 103) ∨ (88 ≤ e ∧ 104 ≤ a ∧ a ≤ 106); let engReg := a ≤ 32 ∨ (64 ≤ a ∧ listed); 1 ≤ level ∧ there ∧ st = .halted ∧ 64 ≤ a ∧ engReg) ∧
    (∃ (sel : BitVec 8) (addr : BitVec 32) (s : State), s.dev.clean .loc ∧ s.dev.clean .shared ∧ let d := s.dev; let a := addr.toNat; let level := d.get R.DBG_STATUS.LEVEL; let named := sel.toNat / 16 < 12; let there := named ∧ d.barredPolder (clPolder (sel.toNat / 16)) = none; let mapped := a % 8 = 0 ∧ regionOf (BitVec.ofNat 64 a) ≠ .outside; 1 ≤ level ∧ there ∧ ¬ mapped) ∧
    (∃ (sel : BitVec 8) (addr : BitVec 32) (s : State), s.dev.clean .loc ∧ s.dev.clean .shared ∧ let d := s.dev; let a := addr.toNat; let level := d.get R.DBG_STATUS.LEVEL; let named := sel.toNat / 16 < 12; let there := named ∧ d.barredPolder (clPolder (sel.toNat / 16)) = none; let mapped := a % 8 = 0 ∧ regionOf (BitVec.ofNat 64 a) ≠ .outside; let text := regionOf (BitVec.ofNat 64 a) = .text; 1 ≤ level ∧ there ∧ mapped ∧ (level = 2 ∨ ¬ text)) ∧
    (∃ (sel : BitVec 8) (addr : BitVec 32) (s : State), s.dev.clean .loc ∧ s.dev.clean .shared ∧ let d := s.dev; let a := addr.toNat; let level := d.get R.DBG_STATUS.LEVEL; let named := sel.toNat / 16 < 12; let there := named ∧ d.barredPolder (clPolder (sel.toNat / 16)) = none; let mapped := a % 8 = 0 ∧ regionOf (BitVec.ofNat 64 a) ≠ .outside; let text := regionOf (BitVec.ofNat 64 a) = .text; level = 1 ∧ there ∧ mapped ∧ text) ∧
    (∃ (sel : BitVec 8) (s : State), s.dev.clean .loc ∧ s.dev.clean .shared ∧ let d := s.dev; let level := d.get R.DBG_STATUS.LEVEL; let named := sel.toNat / 16 < 12; level = 2 ∧ named ∧ ∃ c, d.barredPolder (clPolder (sel.toNat / 16)) = some c) ∧
    (∃ (s : State), s.dev.clean .loc ∧ s.dev.clean .shared ∧ let d := s.dev; let v := s.vault; let level := d.get R.DBG_STATUS.LEVEL; level = 2 ∧ 2 ≤ v.life) ∧
    (∃ (addr : BitVec 32) (s : State), s.dev.clean .loc ∧ s.dev.clean .shared ∧ let d := s.dev; let v := s.vault; let a := addr.toNat; let level := d.get R.DBG_STATUS.LEVEL; level = 2 ∧ v.life ≤ 1 ∧ 11 < a % 16) :=
  ⟨⟨0xB7, 31, st (w0 |>.set R.DBG_STATUS.LEVEL 1), clean_of (by decide +kernel), clean_of (by decide +kernel), by decide +kernel, by decide +kernel, by decide +kernel, by decide +kernel⟩,
   ⟨0xB7, 32, st (w0 |>.set R.DBG_STATUS.LEVEL 1), clean_of (by decide +kernel), clean_of (by decide +kernel), by decide +kernel, by decide +kernel, by decide +kernel, by decide +kernel⟩,
   ⟨0xB7, 128, st (w0 |>.set R.DBG_STATUS.LEVEL 1), clean_of (by decide +kernel), clean_of (by decide +kernel), by decide +kernel, by decide +kernel, by decide +kernel, by decide +kernel⟩,
   ⟨0xB7, 104, st (w0 |>.set R.DBG_STATUS.LEVEL 1), clean_of (by decide +kernel), clean_of (by decide +kernel), by decide +kernel, by decide +kernel, by decide +kernel, by decide +kernel, by decide +kernel⟩,
   ⟨0xB7, 1, st (w0 |>.set R.DBG_STATUS.LEVEL 1), clean_of (by decide +kernel), clean_of (by decide +kernel), by decide +kernel, by decide +kernel, by decide +kernel⟩,
   ⟨0xB7, 0, st (w0 |>.set R.DBG_STATUS.LEVEL 2), clean_of (by decide +kernel), clean_of (by decide +kernel), by decide +kernel, by decide +kernel, by decide +kernel, by decide +kernel⟩,
   ⟨0xB7, 0, st (w0 |>.set R.DBG_STATUS.LEVEL 1), clean_of (by decide +kernel), clean_of (by decide +kernel), by decide +kernel, by decide +kernel, by decide +kernel, by decide +kernel⟩,
   ⟨0x07, st ((w0.set R.DBG_STATUS.LEVEL 2).onP 36 fun x => { x with test := true }), clean_of (by decide +kernel), clean_of (by decide +kernel), by decide +kernel, by decide +kernel, 3, by decide +kernel⟩,
   ⟨{ dev := w0.set R.DBG_STATUS.LEVEL 2, vault := { life := 2 } }, clean_of (by decide +kernel), clean_of (by decide +kernel), by decide +kernel, by decide +kernel⟩,
   ⟨15, st (w0 |>.set R.DBG_STATUS.LEVEL 2), clean_of (by decide +kernel), clean_of (by decide +kernel), by decide +kernel, by decide +kernel, by decide +kernel⟩⟩

theorem witness_DebugAccess_4 :
    (∃ (addr : BitVec 32) (s : State), s.dev.clean .loc ∧ s.dev.clean .shared ∧ let d := s.dev; let v := s.vault; let a := addr.toNat; let level := d.get R.DBG_STATUS.LEVEL; level = 2 ∧ v.life ≤ 1 ∧ a % 16 ≤ 11) ∧
    (∃ (addr : BitVec 32) (s : State), s.dev.clean .loc ∧ s.dev.clean .shared ∧ let d := s.dev; let v := s.vault; let a := addr.toNat; let level := d.get R.DBG_STATUS.LEVEL; let field := v.fuseDetail (a % 256); level = 2 ∧ v.life ≤ 1 ∧ ∃ x, field = some x) ∧
    (∃ (addr : BitVec 32) (s : State), s.dev.clean .loc ∧ s.dev.clean .shared ∧ let d := s.dev; let v := s.vault; let a := addr.toNat; let level := d.get R.DBG_STATUS.LEVEL; let field := v.fuseDetail (a % 256); level = 2 ∧ v.life ≤ 1 ∧ field = none) ∧
    (∃ (s : State), s.dev.clean .loc ∧ s.dev.clean .shared ∧ let d := s.dev; d.sec.busy = none) ∧
    (∃ (s : State), s.dev.clean .loc ∧ s.dev.clean .shared ∧ let d := s.dev; ∃ x, d.sec.busy = some x) ∧
    (∃ d : Dev, d.clean .loc ∧ d.clean .shared ∧ d.get R.DBG_STATUS.LEVEL = 1 ∧ d.sec.busy.isSome = true) ∧
    (∃ d : Dev, d.clean .loc ∧ d.clean .shared ∧ d.get R.DBG_STATUS.LEVEL = 1 ∧ 1 < 2 ∧ d.sec.busy = none) ∧
    (∃ d : Dev, d.clean .loc ∧ d.clean .shared ∧ d.get R.DBG_STATUS.LEVEL = 0) :=
  ⟨⟨11, st (w0 |>.set R.DBG_STATUS.LEVEL 2), clean_of (by decide +kernel), clean_of (by decide +kernel), by decide +kernel, by decide +kernel, by decide +kernel⟩,
   ⟨14, st (w0 |>.set R.DBG_STATUS.LEVEL 2), clean_of (by decide +kernel), clean_of (by decide +kernel), by decide +kernel, by decide +kernel, 4, by decide +kernel⟩,
   ⟨0, st (w0 |>.set R.DBG_STATUS.LEVEL 2), clean_of (by decide +kernel), clean_of (by decide +kernel), by decide +kernel, by decide +kernel, by decide +kernel⟩,
   ⟨st w0, clean_of (by decide +kernel), clean_of (by decide +kernel), (by first | decide +kernel | (dsimp only; decide +kernel))⟩,
   ⟨st ({ w0 with sec := { busy := some (0, 9) } }), clean_of (by decide +kernel), clean_of (by decide +kernel), (0, 9), rfl⟩,
   ⟨{ w0.set R.DBG_STATUS.LEVEL 1 with sec := { busy := some (0, 9) } }, clean_of (by decide +kernel), clean_of (by decide +kernel), by decide +kernel, by decide +kernel⟩,
   ⟨w0.set R.DBG_STATUS.LEVEL 1, clean_of (by decide +kernel), clean_of (by decide +kernel), by decide +kernel, by decide +kernel, by decide +kernel⟩,
   ⟨w0.set R.DBG_STATUS.LEVEL 0, clean_of (by decide +kernel), clean_of (by decide +kernel), by decide +kernel⟩⟩

theorem witness_HostQueues_1 :
    (∃ (q : Fin 64) (s : State), s.dev.clean .cell ∧ let d := s.dev; d.barred (A.Q_SQ_TAIL q) = none) ∧
    (∃ (q : Fin 64) (s : State), s.dev.clean .cell ∧ let d := s.dev; d.barred (A.Q_CQ_HEAD q) = none) ∧
    (∃ (q : Fin 64) (s : State), s.dev.clean .cell ∧ let d := s.dev; d.barred (A.Q_CTRL q) = none ∧ d.on (R.Q_CTRL.EN q) = true) ∧
    (∃ (q : Fin 64) (s : State), s.dev.clean .cell ∧ let d := s.dev; d.barred (A.Q_CTRL q) = none ∧ d.on (R.Q_CTRL.EN q) = false) ∧
    (∃ (q : Fin 64) (s : State), s.dev.clean .cell ∧ let d := s.dev; d.barred (A.Q_CTRL q) = none) ∧
    (∃ (q : Fin 64) (h : Nat) (rest : List Nat) (s : State), s.dev.clean .cell ∧ let d := s.dev; let cq := 2 ^ d.get (R.Q_CTRL.CQ_SIZE q); let head := d.get (R.Q_SQ_HEAD.IDX q); let tail := d.get (R.Q_CQ_TAIL.IDX q); let ready (dir : Bool) := d.on (R.Q_CTRL.EN q) = true ∧ d.on (R.Q_CTRL.DIR q) = dir ∧ d.on (R.Q_STATUS.STOPPED q) = false ∧ d.get R.HOST_STATUS.PSTATE = 0 ∧ head ≠ d.get (R.Q_SQ_TAIL.IDX q) ∧ (tail + 1) % cq ≠ d.get (R.Q_CQ_HEAD.IDX q); let fits := d.get (R.Q_CTRL.SQ_SIZE q) ≤ 12 ∧ d.get (R.Q_CTRL.CQ_SIZE q) ≤ 12; d.awake 32 = true ∧ ready false ∧ fits ∧ (d.qp q).hold = h :: rest) ∧
    (∃ (q : Fin 64) (h : Nat) (rest : List Nat) (s : State), s.dev.clean .cell ∧ let d := s.dev; let cq := 2 ^ d.get (R.Q_CTRL.CQ_SIZE q); let head := d.get (R.Q_SQ_HEAD.IDX q); let tail := d.get (R.Q_CQ_TAIL.IDX q); let ready (dir : Bool) := d.on (R.Q_CTRL.EN q) = true ∧ d.on (R.Q_CTRL.DIR q) = dir ∧ d.on (R.Q_STATUS.STOPPED q) = false ∧ d.get R.HOST_STATUS.PSTATE = 0 ∧ head ≠ d.get (R.Q_SQ_TAIL.IDX q) ∧ (tail + 1) % cq ≠ d.get (R.Q_CQ_HEAD.IDX q); d.awake 32 = true ∧ ready false ∧ (d.qp q).hold = h :: rest) ∧
    (∃ (q : Fin 64) (s : State), s.dev.clean .cell ∧ let d := s.dev; let cq := 2 ^ d.get (R.Q_CTRL.CQ_SIZE q); let head := d.get (R.Q_SQ_HEAD.IDX q); let tail := d.get (R.Q_CQ_TAIL.IDX q); let ready (dir : Bool) := d.on (R.Q_CTRL.EN q) = true ∧ d.on (R.Q_CTRL.DIR q) = dir ∧ d.on (R.Q_STATUS.STOPPED q) = false ∧ d.get R.HOST_STATUS.PSTATE = 0 ∧ head ≠ d.get (R.Q_SQ_TAIL.IDX q) ∧ (tail + 1) % cq ≠ d.get (R.Q_CQ_HEAD.IDX q); ((d.qp q).hold = [] ∨ ¬ ready false ∨ d.awake 32 = false)) ∧
    (∃ (q : Fin 64) (s : State), s.dev.clean .cell ∧ let d := s.dev; let cq := 2 ^ d.get (R.Q_CTRL.CQ_SIZE q); let head := d.get (R.Q_SQ_HEAD.IDX q); let tail := d.get (R.Q_CQ_TAIL.IDX q); let ready (dir : Bool) := d.on (R.Q_CTRL.EN q) = true ∧ d.on (R.Q_CTRL.DIR q) = dir ∧ d.on (R.Q_STATUS.STOPPED q) = false ∧ d.get R.HOST_STATUS.PSTATE = 0 ∧ head ≠ d.get (R.Q_SQ_TAIL.IDX q) ∧ (tail + 1) % cq ≠ d.get (R.Q_CQ_HEAD.IDX q); ¬ ready true) :=
  ⟨⟨63, st w0, clean_of (by decide +kernel), (by first | decide +kernel | (dsimp only; decide +kernel))⟩,
   ⟨63, st w0, clean_of (by decide +kernel), (by first | decide +kernel | (dsimp only; decide +kernel))⟩,
   ⟨63, st (w0 |>.set (R.Q_CTRL.EN 63) 1), clean_of (by decide +kernel), by decide +kernel, by decide +kernel⟩,
   ⟨63, st (w0 |>.set (R.Q_CTRL.EN 63) 0), clean_of (by decide +kernel), by decide +kernel, by decide +kernel⟩,
   ⟨63, st w0, clean_of (by decide +kernel), (by first | decide +kernel | (dsimp only; decide +kernel))⟩,
   ⟨63, 9, [], st ((ready63 0).onQ 63 fun x => { x with hold := [9] }), clean_of (by decide +kernel), by decide +kernel, by decide +kernel, by decide +kernel, by decide +kernel⟩,
   ⟨63, 9, [], st ((ready63 0).onQ 63 fun x => { x with hold := [9] }), clean_of (by decide +kernel), by decide +kernel, by decide +kernel, by decide +kernel⟩,
   ⟨63, st w0, clean_of (by decide +kernel), (by first | decide +kernel | (dsimp only; decide +kernel))⟩,
   ⟨63, st w0, clean_of (by decide +kernel), (by first | decide +kernel | (dsimp only; decide +kernel))⟩⟩

theorem witness_HostQueues_2 :
    (∃ (q : Fin 64) (fr : FrameRead) (s : State), s.dev.clean .cell ∧ let d := s.dev; let cq := 2 ^ d.get (R.Q_CTRL.CQ_SIZE q); let head := d.get (R.Q_SQ_HEAD.IDX q); let tail := d.get (R.Q_CQ_TAIL.IDX q); let ready (dir : Bool) := d.on (R.Q_CTRL.EN q) = true ∧ d.on (R.Q_CTRL.DIR q) = dir ∧ d.on (R.Q_STATUS.STOPPED q) = false ∧ d.get R.HOST_STATUS.PSTATE = 0 ∧ head ≠ d.get (R.Q_SQ_TAIL.IDX q) ∧ (tail + 1) % cq ≠ d.get (R.Q_CQ_HEAD.IDX q); ready true ∧ fr = none) ∧
    (∃ (q : Fin 64) (fr : FrameRead) (s : State), s.dev.clean .cell ∧ let d := s.dev; let cq := 2 ^ d.get (R.Q_CTRL.CQ_SIZE q); let head := d.get (R.Q_SQ_HEAD.IDX q); let tail := d.get (R.Q_CQ_TAIL.IDX q); let ready (dir : Bool) := d.on (R.Q_CTRL.EN q) = true ∧ d.on (R.Q_CTRL.DIR q) = dir ∧ d.on (R.Q_STATUS.STOPPED q) = false ∧ d.get R.HOST_STATUS.PSTATE = 0 ∧ head ≠ d.get (R.Q_SQ_TAIL.IDX q) ∧ (tail + 1) % cq ≠ d.get (R.Q_CQ_HEAD.IDX q); let fits := d.get (R.Q_CTRL.SQ_SIZE q) ≤ 12 ∧ d.get (R.Q_CTRL.CQ_SIZE q) ≤ 12; ready true ∧ fits ∧ fr = none) ∧
    (∃ (q : Fin 64) (fr : FrameRead) (s : State), s.dev.clean .cell ∧ let d := s.dev; let cq := 2 ^ d.get (R.Q_CTRL.CQ_SIZE q); let head := d.get (R.Q_SQ_HEAD.IDX q); let tail := d.get (R.Q_CQ_TAIL.IDX q); let ready (dir : Bool) := d.on (R.Q_CTRL.EN q) = true ∧ d.on (R.Q_CTRL.DIR q) = dir ∧ d.on (R.Q_STATUS.STOPPED q) = false ∧ d.get R.HOST_STATUS.PSTATE = 0 ∧ head ≠ d.get (R.Q_SQ_TAIL.IDX q) ∧ (tail + 1) % cq ≠ d.get (R.Q_CQ_HEAD.IDX q); let fits := d.get (R.Q_CTRL.SQ_SIZE q) ≤ 12 ∧ d.get (R.Q_CTRL.CQ_SIZE q) ≤ 12; ready true ∧ fits ∧ ∃ l b, fr = some l ∧ d.barredPolder 32 = some b) ∧
    (∃ (q : Fin 64) (entry : BitVec 256) (fr : FrameRead) (s : State), s.dev.clean .cell ∧ let d := s.dev; let cq := 2 ^ d.get (R.Q_CTRL.CQ_SIZE q); let head := d.get (R.Q_SQ_HEAD.IDX q); let tail := d.get (R.Q_CQ_TAIL.IDX q); let x := bytesLE entry.toNat 32; let ready (dir : Bool) := d.on (R.Q_CTRL.EN q) = true ∧ d.on (R.Q_CTRL.DIR q) = dir ∧ d.on (R.Q_STATUS.STOPPED q) = false ∧ d.get R.HOST_STATUS.PSTATE = 0 ∧ head ≠ d.get (R.Q_SQ_TAIL.IDX q) ∧ (tail + 1) % cq ≠ d.get (R.Q_CQ_HEAD.IDX q); let fits := d.get (R.Q_CTRL.SQ_SIZE q) ≤ 12 ∧ d.get (R.Q_CTRL.CQ_SIZE q) ≤ 12; ready true ∧ fits ∧ let len := max 64 (min 10240 (blk x 12 2)); ∃ l, fr = some l ∧ d.barredPolder 32 = none ∧ let out := d.enqueue (blk x 8 4 % 2 ^ 20) (bit (blk x 8 4) 24) ((l ++ List.replicate (len - 4) 0).take (len - 4)); out.2.1 = 2) ∧
    (∃ (q : Fin 64) (entry : BitVec 256) (fr : FrameRead) (s : State), s.dev.clean .cell ∧ let d := s.dev; let cq := 2 ^ d.get (R.Q_CTRL.CQ_SIZE q); let head := d.get (R.Q_SQ_HEAD.IDX q); let tail := d.get (R.Q_CQ_TAIL.IDX q); let x := bytesLE entry.toNat 32; let ready (dir : Bool) := d.on (R.Q_CTRL.EN q) = true ∧ d.on (R.Q_CTRL.DIR q) = dir ∧ d.on (R.Q_STATUS.STOPPED q) = false ∧ d.get R.HOST_STATUS.PSTATE = 0 ∧ head ≠ d.get (R.Q_SQ_TAIL.IDX q) ∧ (tail + 1) % cq ≠ d.get (R.Q_CQ_HEAD.IDX q); let fits := d.get (R.Q_CTRL.SQ_SIZE q) ≤ 12 ∧ d.get (R.Q_CTRL.CQ_SIZE q) ≤ 12; ready true ∧ fits ∧ let len := max 64 (min 10240 (blk x 12 2)); ∃ l, fr = some l ∧ d.barredPolder 32 = none ∧ let out := d.enqueue (blk x 8 4 % 2 ^ 20) (bit (blk x 8 4) 24) ((l ++ List.replicate (len - 4) 0).take (len - 4)); out.2.1 ≠ 2) ∧
    (∃ (q : Fin 64) (s : State), s.dev.clean .cell ∧ let d := s.dev; (d.qp q).timer = true) ∧
    (∃ (q : Fin 64) (s : State), s.dev.clean .cell ∧ let d := s.dev; (d.qp q).timer = false) ∧
    (∃ (q : Fin 64) (s : State), s.dev.clean .cell ∧ let d := s.dev; d.on (R.Q_CTRL.EN q) = false) ∧
    (∃ (q : Fin 64) (s : State), s.dev.clean .cell ∧ let d := s.dev; d.on (R.Q_CTRL.EN q) = true) :=
  ⟨⟨63, none, st (ready63 1), clean_of (by decide +kernel), by decide +kernel, by decide +kernel⟩,
   ⟨63, none, st (ready63 1), clean_of (by decide +kernel), by decide +kernel, by decide +kernel, by decide +kernel⟩,
   ⟨63, some [1], st ((ready63 1).onP 32 fun x => { x with inReset := true }), clean_of (by decide +kernel), by decide +kernel, by decide +kernel, [1], 4, by decide +kernel, by decide +kernel⟩,
   ⟨63, 0, some [1], st (((path (((ready63 1)).putCtx 0 {} { ctrl := ctl 1 }) 0).onF fun x => { x with banks := (List.range 256).map (·, { fresh := 4096 }) })), clean_of (by decide +kernel), by decide +kernel, by decide +kernel, [1], by decide +kernel, by decide +kernel, (by first | decide +kernel | (dsimp only; decide +kernel))⟩,
   ⟨63, 0, some [1], st (ready63 1), clean_of (by decide +kernel), by decide +kernel, by decide +kernel, [1], by decide +kernel, by decide +kernel, (by first | decide +kernel | (dsimp only; decide +kernel))⟩,
   ⟨63, st (w0.onQ 63 fun x => { x with timer := true }), clean_of (by decide +kernel), (by first | decide +kernel | (dsimp only; decide +kernel))⟩,
   ⟨63, st w0, clean_of (by decide +kernel), (by first | decide +kernel | (dsimp only; decide +kernel))⟩,
   ⟨63, st (w0 |>.set (R.Q_CTRL.EN 63) 0), clean_of (by decide +kernel), (by first | decide +kernel | (dsimp only; decide +kernel))⟩,
   ⟨63, st (w0 |>.set (R.Q_CTRL.EN 63) 1), clean_of (by decide +kernel), (by first | decide +kernel | (dsimp only; decide +kernel))⟩⟩

theorem witness_HostFunction_1 :
    (∃ (off : BitVec 34) (n : Fin 4097) (s : State), let d := s.dev; let a := d.get R.BAR2_PAGE.BASE * 2 ^ 30 + off.toNat; let on := d.on R.HOST_CTRL.BAR2_EN = true ∧ d.on R.MEM_CFG.EN = true; ¬ on ∨ d.usable < a + n.val) ∧
    (∃ (off : BitVec 34) (l : List (Option Byte)) (s : State), let d := s.dev; let a := d.get R.BAR2_PAGE.BASE * 2 ^ 30 + off.toNat; let on := d.on R.HOST_CTRL.BAR2_EN = true ∧ d.on R.MEM_CFG.EN = true; ¬ on ∨ d.usable < a + l.length) ∧
    (∃ (off : BitVec 34) (n : Fin 4097) (s : State), let d := s.dev; let a := d.get R.BAR2_PAGE.BASE * 2 ^ 30 + off.toNat; let on := d.on R.HOST_CTRL.BAR2_EN = true ∧ d.on R.MEM_CFG.EN = true; let covered (len : Nat) : Prop := ∃ k, k < 16 ∧ bit (d.get (R.REGION_USE.USE k)) 4 = true ∧ d.get (R.REGION_BASE.MIB k) * 2 ^ 20 ≤ a ∧ a + len ≤ min (d.get (R.REGION_LIMIT.MIB k) * 2 ^ 20) d.usable; on ∧ a + n.val ≤ d.usable ∧ ¬ covered n.val) ∧
    (∃ (off : BitVec 34) (l : List (Option Byte)) (s : State), let d := s.dev; let a := d.get R.BAR2_PAGE.BASE * 2 ^ 30 + off.toNat; let on := d.on R.HOST_CTRL.BAR2_EN = true ∧ d.on R.MEM_CFG.EN = true; let covered (len : Nat) : Prop := ∃ k, k < 16 ∧ bit (d.get (R.REGION_USE.USE k)) 4 = true ∧ d.get (R.REGION_BASE.MIB k) * 2 ^ 20 ≤ a ∧ a + len ≤ min (d.get (R.REGION_LIMIT.MIB k) * 2 ^ 20) d.usable; on ∧ a + l.length ≤ d.usable ∧ ¬ covered l.length) ∧
    (∃ (off : BitVec 34) (n : Fin 4097) (s : State), let d := s.dev; let a := d.get R.BAR2_PAGE.BASE * 2 ^ 30 + off.toNat; let on := d.on R.HOST_CTRL.BAR2_EN = true ∧ d.on R.MEM_CFG.EN = true; let covered (len : Nat) : Prop := ∃ k, k < 16 ∧ bit (d.get (R.REGION_USE.USE k)) 4 = true ∧ d.get (R.REGION_BASE.MIB k) * 2 ^ 20 ≤ a ∧ a + len ≤ min (d.get (R.REGION_LIMIT.MIB k) * 2 ^ 20) d.usable; ∃ code, on ∧ a + n.val ≤ d.usable ∧ covered n.val ∧ d.barredPolder 47 = some code) ∧
    (∃ (off : BitVec 34) (l : List (Option Byte)) (s : State), let d := s.dev; let a := d.get R.BAR2_PAGE.BASE * 2 ^ 30 + off.toNat; let on := d.on R.HOST_CTRL.BAR2_EN = true ∧ d.on R.MEM_CFG.EN = true; let covered (len : Nat) : Prop := ∃ k, k < 16 ∧ bit (d.get (R.REGION_USE.USE k)) 4 = true ∧ d.get (R.REGION_BASE.MIB k) * 2 ^ 20 ≤ a ∧ a + len ≤ min (d.get (R.REGION_LIMIT.MIB k) * 2 ^ 20) d.usable; ∃ code, on ∧ a + l.length ≤ d.usable ∧ covered l.length ∧ d.barredPolder 47 = some code) ∧
    (∃ (off : BitVec 34) (n : Fin 4097) (s : State), let d := s.dev; let a := d.get R.BAR2_PAGE.BASE * 2 ^ 30 + off.toNat; let on := d.on R.HOST_CTRL.BAR2_EN = true ∧ d.on R.MEM_CFG.EN = true; let covered (len : Nat) : Prop := ∃ k, k < 16 ∧ bit (d.get (R.REGION_USE.USE k)) 4 = true ∧ d.get (R.REGION_BASE.MIB k) * 2 ^ 20 ≤ a ∧ a + len ≤ min (d.get (R.REGION_LIMIT.MIB k) * 2 ^ 20) d.usable; let may (len : Nat) := on ∧ a + len ≤ d.usable ∧ covered len ∧ d.barredPolder 47 = none; may n.val ∧ d.polder 47 = 0) ∧
    (∃ (off : BitVec 34) (l : List (Option Byte)) (s : State), let d := s.dev; let a := d.get R.BAR2_PAGE.BASE * 2 ^ 30 + off.toNat; let on := d.on R.HOST_CTRL.BAR2_EN = true ∧ d.on R.MEM_CFG.EN = true; let covered (len : Nat) : Prop := ∃ k, k < 16 ∧ bit (d.get (R.REGION_USE.USE k)) 4 = true ∧ d.get (R.REGION_BASE.MIB k) * 2 ^ 20 ≤ a ∧ a + len ≤ min (d.get (R.REGION_LIMIT.MIB k) * 2 ^ 20) d.usable; let may (len : Nat) := on ∧ a + len ≤ d.usable ∧ covered len ∧ d.barredPolder 47 = none; may l.length ∧ d.polder 47 = 0) :=
  ⟨⟨0, 8, st w0, (by first | decide +kernel | (dsimp only; decide +kernel))⟩,
   ⟨0, [some 1], st w0, (by first | decide +kernel | (dsimp only; decide +kernel))⟩,
   ⟨0, 8, st (open2.set (R.REGION_USE.USE 15) 0), by decide +kernel, by decide +kernel, by decide +kernel⟩,
   ⟨0, [some 1], st (open2.set (R.REGION_USE.USE 15) 0), by decide +kernel, by decide +kernel, by decide +kernel⟩,
   ⟨0, 8, st (open2.onP 47 fun x => { x with test := true }), 3, by decide +kernel, by decide +kernel, ⟨15, by decide +kernel, by decide +kernel, by decide +kernel, by decide +kernel⟩, by decide +kernel⟩,
   ⟨0, [some 1], st (open2.onP 47 fun x => { x with test := true }), 3, by decide +kernel, by decide +kernel, ⟨15, by decide +kernel, by decide +kernel, by decide +kernel, by decide +kernel⟩, by decide +kernel⟩,
   ⟨0, 8, st open2, ⟨by decide +kernel, by decide +kernel, ⟨15, by decide +kernel, by decide +kernel, by decide +kernel, by decide +kernel⟩, by decide +kernel⟩, by decide +kernel⟩,
   ⟨0, [some 1], st open2, ⟨by decide +kernel, by decide +kernel, ⟨15, by decide +kernel, by decide +kernel, by decide +kernel, by decide +kernel⟩, by decide +kernel⟩, by decide +kernel⟩⟩

theorem witness_HostFunction_2 :
    (∃ (off : BitVec 34) (l : List (Option Byte)) (s : State), let d := s.dev; let a := d.get R.BAR2_PAGE.BASE * 2 ^ 30 + off.toNat; let on := d.on R.HOST_CTRL.BAR2_EN = true ∧ d.on R.MEM_CFG.EN = true; let covered (len : Nat) : Prop := ∃ k, k < 16 ∧ bit (d.get (R.REGION_USE.USE k)) 4 = true ∧ d.get (R.REGION_BASE.MIB k) * 2 ^ 20 ≤ a ∧ a + len ≤ min (d.get (R.REGION_LIMIT.MIB k) * 2 ^ 20) d.usable; let may (len : Nat) := on ∧ a + len ≤ d.usable ∧ covered len ∧ d.barredPolder 47 = none; may l.length ∧ d.polder 47 ≠ 0) ∧
    (∃ (off : BitVec 34) (n : Fin 4097) (s : State), let d := s.dev; let a := d.get R.BAR2_PAGE.BASE * 2 ^ 30 + off.toNat; let on := d.on R.HOST_CTRL.BAR2_EN = true ∧ d.on R.MEM_CFG.EN = true; let covered (len : Nat) : Prop := ∃ k, k < 16 ∧ bit (d.get (R.REGION_USE.USE k)) 4 = true ∧ d.get (R.REGION_BASE.MIB k) * 2 ^ 20 ≤ a ∧ a + len ≤ min (d.get (R.REGION_LIMIT.MIB k) * 2 ^ 20) d.usable; let may (len : Nat) := on ∧ a + len ≤ d.usable ∧ covered len ∧ d.barredPolder 47 = none; may n.val ∧ d.polder 47 ≠ 0) ∧
    (∃ (off : BitVec 34) (n : Fin 4097) (s : State), let d := s.dev; let a := d.get R.BAR2_PAGE.BASE * 2 ^ 30 + off.toNat; let on := d.on R.HOST_CTRL.BAR2_EN = true ∧ d.on R.MEM_CFG.EN = true; let covered (len : Nat) : Prop := ∃ k, k < 16 ∧ bit (d.get (R.REGION_USE.USE k)) 4 = true ∧ d.get (R.REGION_BASE.MIB k) * 2 ^ 20 ≤ a ∧ a + len ≤ min (d.get (R.REGION_LIMIT.MIB k) * 2 ^ 20) d.usable; let may (len : Nat) := on ∧ a + len ≤ d.usable ∧ covered len ∧ d.barredPolder 47 = none; may n.val ∧ d.polder 47 = 0 ∧ d.clean .dram) ∧
    (∃ (off : BitVec 34) (n : Fin 4097) (s : State), let d := s.dev; let a := d.get R.BAR2_PAGE.BASE * 2 ^ 30 + off.toNat; let on := d.on R.HOST_CTRL.BAR2_EN = true ∧ d.on R.MEM_CFG.EN = true; let covered (len : Nat) : Prop := ∃ k, k < 16 ∧ bit (d.get (R.REGION_USE.USE k)) 4 = true ∧ d.get (R.REGION_BASE.MIB k) * 2 ^ 20 ≤ a ∧ a + len ≤ min (d.get (R.REGION_LIMIT.MIB k) * 2 ^ 20) d.usable; let may (len : Nat) := on ∧ a + len ≤ d.usable ∧ covered len ∧ d.barredPolder 47 = none; may n.val ∧ d.polder 47 = 0 ∧ (∃ w, a / 8 ≤ w ∧ w * 8 < a + n.val ∧ d.dram.syndrome w = 0xFF) ∧ 0 < n.val) ∧
    (∃ (off : BitVec 34) (l : List (Option Byte)) (s : State), let d := s.dev; let a := d.get R.BAR2_PAGE.BASE * 2 ^ 30 + off.toNat; let on := d.on R.HOST_CTRL.BAR2_EN = true ∧ d.on R.MEM_CFG.EN = true; let covered (len : Nat) : Prop := ∃ k, k < 16 ∧ bit (d.get (R.REGION_USE.USE k)) 4 = true ∧ d.get (R.REGION_BASE.MIB k) * 2 ^ 20 ≤ a ∧ a + len ≤ min (d.get (R.REGION_LIMIT.MIB k) * 2 ^ 20) d.usable; let may (len : Nat) := on ∧ a + len ≤ d.usable ∧ covered len ∧ d.barredPolder 47 = none; may l.length ∧ d.polder 47 = 0 ∧ d.clean .dram) ∧
    (∃ (off : BitVec 34) (n : Fin 4097) (s : State), let d := s.dev; let a := d.get R.BAR2_PAGE.BASE * 2 ^ 30 + off.toNat; let on := d.on R.HOST_CTRL.BAR2_EN = true ∧ d.on R.MEM_CFG.EN = true; let covered (len : Nat) : Prop := ∃ k, k < 16 ∧ bit (d.get (R.REGION_USE.USE k)) 4 = true ∧ d.get (R.REGION_BASE.MIB k) * 2 ^ 20 ≤ a ∧ a + len ≤ min (d.get (R.REGION_LIMIT.MIB k) * 2 ^ 20) d.usable; let may (len : Nat) := on ∧ a + len ≤ d.usable ∧ covered len ∧ d.barredPolder 47 = none; may n.val ∧ d.polder 47 = 1) ∧
    (∃ (s : State), let d := s.dev; let pstate := d.get R.HOST_STATUS.PSTATE; pstate = 0) ∧
    (∃ (s : State), let d := s.dev; let pstate := d.get R.HOST_STATUS.PSTATE; pstate = 3) :=
  ⟨⟨0, [some 1], st (open2.setPolder 47 1), ⟨by decide +kernel, by decide +kernel, ⟨15, by decide +kernel, by decide +kernel, by decide +kernel, by decide +kernel⟩, by decide +kernel⟩, by decide +kernel⟩,
   ⟨0, 8, st (open2.setPolder 47 4), ⟨by decide +kernel, by decide +kernel, ⟨15, by decide +kernel, by decide +kernel, by decide +kernel, by decide +kernel⟩, by decide +kernel⟩, by decide +kernel⟩,
   ⟨0, 8, st open2, ⟨by decide +kernel, by decide +kernel, ⟨15, by decide +kernel, by decide +kernel, by decide +kernel, by decide +kernel⟩, by decide +kernel⟩, by decide +kernel, clean_of (by decide +kernel)⟩,
   ⟨0, 8, st ({ open2 with dram := open2.dram.poisonWord 0 1 }), ⟨by decide +kernel, by decide +kernel, ⟨15, by decide +kernel, by decide +kernel, by decide +kernel, by decide +kernel⟩, by decide +kernel⟩, by decide +kernel, ⟨0, by decide +kernel, by decide +kernel, by decide +kernel⟩, by decide +kernel⟩,
   ⟨0, [some 1], st open2, ⟨by decide +kernel, by decide +kernel, ⟨15, by decide +kernel, by decide +kernel, by decide +kernel, by decide +kernel⟩, by decide +kernel⟩, by decide +kernel, clean_of (by decide +kernel)⟩,
   ⟨0, 8, st (open2.setPolder 47 1), ⟨by decide +kernel, by decide +kernel, ⟨15, by decide +kernel, by decide +kernel, by decide +kernel, by decide +kernel⟩, by decide +kernel⟩, by decide +kernel⟩,
   ⟨st w0, (by first | decide +kernel | (dsimp only; decide +kernel))⟩,
   ⟨st (w0 |>.set R.HOST_STATUS.PSTATE 3), (by first | decide +kernel | (dsimp only; decide +kernel))⟩⟩

theorem witness_HostFunction_3 :
    (∃ (s : State), let d := s.dev; let pstate := d.get R.HOST_STATUS.PSTATE; pstate ≠ 0) ∧
    (∃ (s : State), let d := s.dev; let pstate := d.get R.HOST_STATUS.PSTATE; pstate ≠ 3) ∧
    (∃ (s : State), let d := s.dev; let pstate := d.get R.HOST_STATUS.PSTATE; pstate = 3 ∧ d.on R.HOST_STATUS.PME_STATUS = true ∧ d.host.pmeEn = true) ∧
    (∃ (s : State), let d := s.dev; let pstate := d.get R.HOST_STATUS.PSTATE; pstate ≠ 3 ∨ d.on R.HOST_STATUS.PME_STATUS = false ∨ d.host.pmeEn = false) ∧
    (∃ (s : State), let d := s.dev; d.barred A.ERR_LOG_0 = none ∧ ∃ e t, d.errLog = e :: t) ∧
    (∃ (s : State), let d := s.dev; d.barred A.ERR_LOG_0 = none ∧ d.errLog = []) ∧
    (∃ (s : State), let d := s.dev; d.host.ready = false) ∧
    (∃ (s : State), let d := s.dev; d.host.ready = true) :=
  ⟨⟨st (w0 |>.set R.HOST_STATUS.PSTATE 3), (by first | decide +kernel | (dsimp only; decide +kernel))⟩,
   ⟨st w0, (by first | decide +kernel | (dsimp only; decide +kernel))⟩,
   ⟨st ({ (w0.set R.HOST_STATUS.PSTATE 3).set R.HOST_STATUS.PME_STATUS 1 with host := { w0.host with pmeEn := true } }), by decide +kernel, by decide +kernel, by decide +kernel⟩,
   ⟨st w0, (by first | decide +kernel | (dsimp only; decide +kernel))⟩,
   ⟨st ({ w0 with errLog := [(1, 2)] }), by decide +kernel, (1, 2), [], by decide +kernel⟩,
   ⟨st w0, by decide +kernel, by decide +kernel⟩,
   ⟨st w0, (by first | decide +kernel | (dsimp only; decide +kernel))⟩,
   ⟨st ({ w0 with host := { w0.host with ready := true } }), (by first | decide +kernel | (dsimp only; decide +kernel))⟩⟩

theorem witness_Resets :
    (∃ (s : State), let v := s.vault; v.spares = [] ∧ v.cals = [] ∧ v.aeCals = []) ∧
    (∃ (w : Option (Src × BitVec 32)) (s : State), let d := s.dev; let open_ := d.barred A.RST_CTRL = none; (w = none ∨ open_)) ∧
    (∃ (val : BitVec 32) (p : Fin 48) (s : State), let d := s.dev; let pol := p.val; let open_ := d.barred A.RST_CTRL = none; let busy := d.on R.RST_STATUS.BUSY = true ∨ d.pwr.run.isSome = true; open_ ∧ min 47 (val.toNat % 64) = pol ∧ busy) ∧
    (∃ (val : BitVec 32) (p : Fin 48) (s : State), let d := s.dev; let group (k : Nat) : List Nat := if 32 ≤ k ∧ k < 36 then [32, 33, 34, 35] else [k]; let pol := p.val; let open_ := d.barred A.RST_CTRL = none; let busy := d.on R.RST_STATUS.BUSY = true ∨ d.pwr.run.isSome = true; let test := ∃ k, k ∈ group pol ∧ ((d.p k).test = true ∨ (d.testRun k).isSome = true); open_ ∧ min 47 (val.toNat % 64) = pol ∧ ¬ busy ∧ test) ∧
    (∃ (val : BitVec 32) (p : Fin 48) (s : State), let d := s.dev; let group (k : Nat) : List Nat := if 32 ≤ k ∧ k < 36 then [32, 33, 34, 35] else [k]; let pol := p.val; let open_ := d.barred A.RST_CTRL = none; let busy := d.on R.RST_STATUS.BUSY = true ∨ d.pwr.run.isSome = true; let test := ∃ k, k ∈ group pol ∧ ((d.p k).test = true ∨ (d.testRun k).isSome = true); let shut := ∃ k, k ∈ group pol ∧ (d.polder k = 2 ∨ (d.p k).closed = true ∨ (d.p k).inReset = true); open_ ∧ min 47 (val.toNat % 64) = pol ∧ ¬ busy ∧ ¬ test ∧ shut) ∧
    (∃ (val : BitVec 32) (p : Fin 48) (s : State), let d := s.dev; let group (k : Nat) : List Nat := if 32 ≤ k ∧ k < 36 then [32, 33, 34, 35] else [k]; let pol := p.val; let open_ := d.barred A.RST_CTRL = none; let busy := d.on R.RST_STATUS.BUSY = true ∨ d.pwr.run.isSome = true; let test := ∃ k, k ∈ group pol ∧ ((d.p k).test = true ∨ (d.testRun k).isSome = true); let shut := ∃ k, k ∈ group pol ∧ (d.polder k = 2 ∨ (d.p k).closed = true ∨ (d.p k).inReset = true); let dram := pol = 47 → d.get R.SPILL_STATUS.CELLS = 0 ∧ d.fab.stage = [] ∧ d.cnt.dump = none ∧ d.on R.MEM_STATUS.SELF_REF = true ∧ ∀ e, e ∈ d.eng → ∀ r, r ∈ e.2.reqs → r.chan = 0x13 → r.phase ≠ .taken; open_ ∧ min 47 (val.toNat % 64) = pol ∧ ¬ busy ∧ ¬ test ∧ ¬ shut ∧ ¬ dram) ∧
    (∃ (val : BitVec 32) (p : Fin 48) (s : State), let d := s.dev; let group (k : Nat) : List Nat := if 32 ≤ k ∧ k < 36 then [32, 33, 34, 35] else [k]; let pol := p.val; let open_ := d.barred A.RST_CTRL = none; let busy := d.on R.RST_STATUS.BUSY = true ∨ d.pwr.run.isSome = true; let test := ∃ k, k ∈ group pol ∧ ((d.p k).test = true ∨ (d.testRun k).isSome = true); let shut := ∃ k, k ∈ group pol ∧ (d.polder k = 2 ∨ (d.p k).closed = true ∨ (d.p k).inReset = true); let dram := pol = 47 → d.get R.SPILL_STATUS.CELLS = 0 ∧ d.fab.stage = [] ∧ d.cnt.dump = none ∧ d.on R.MEM_STATUS.SELF_REF = true ∧ ∀ e, e ∈ d.eng → ∀ r, r ∈ e.2.reqs → r.chan = 0x13 → r.phase ≠ .taken; open_ ∧ min 47 (val.toNat % 64) = pol ∧ ¬ busy ∧ ¬ test ∧ ¬ shut ∧ dram) ∧
    (∃ (s : State), let d := s.dev; d.on R.RST_STATUS.BUSY = false) ∧
    (∃ (s : State), let d := s.dev; d.on R.RST_STATUS.BUSY = true) ∧
    (∃ (p : Fin 48) (s : State), let d := s.dev; let pol := p.val; d.on R.RST_STATUS.BUSY = true ∧ d.get R.RST_STATUS.POLDER = pol ∧ d.thm.tripped = false) :=
  ⟨⟨st w0, by decide +kernel, by decide +kernel, by decide +kernel⟩,
   ⟨none, st w0, (by first | decide +kernel | (dsimp only; decide +kernel))⟩,
   ⟨31, 31, st (w0 |>.set R.RST_STATUS.BUSY 1), by decide +kernel, by decide +kernel, by decide +kernel⟩,
   ⟨31, 31, st (w0.onP 31 fun x => { x with test := true }), by decide +kernel, by decide +kernel, by decide +kernel, by decide +kernel⟩,
   ⟨31, 31, st (w0.setPolder 31 2), by decide +kernel, by decide +kernel, by decide +kernel, by decide +kernel, by decide +kernel⟩,
   ⟨47, 47, st (w0 |>.set R.SPILL_STATUS.CELLS 1), by decide +kernel, by decide +kernel, by decide +kernel, by decide +kernel, by decide +kernel, by decide +kernel⟩,
   ⟨31, 31, st w0, by decide +kernel, by decide +kernel, by decide +kernel, by decide +kernel, by decide +kernel, by decide +kernel⟩,
   ⟨st w0, (by first | decide +kernel | (dsimp only; decide +kernel))⟩,
   ⟨st (w0 |>.set R.RST_STATUS.BUSY 1), (by first | decide +kernel | (dsimp only; decide +kernel))⟩,
   ⟨31, st (w0 |>.set R.RST_STATUS.BUSY 1 |>.set R.RST_STATUS.POLDER 31), by decide +kernel, by decide +kernel, by decide +kernel⟩⟩

theorem witness_StartUp_1 :
    (∃ (s : State), let d := s.dev; d.boot.romDone = true ∨ d.thm.tripped = true) ∧
    (∃ (s : State), let d := s.dev; let go := d.boot.romDone = false ∧ d.thm.tripped = false; go) ∧
    (∃ (s : State), let d := s.dev; let v := s.vault; let go := d.boot.romDone = false ∧ d.thm.tripped = false; go ∧ v.life = 5) ∧
    (∃ (fl : Flash) (s : State), let d := s.dev; let v := s.vault; let go := d.boot.romDone = false ∧ d.thm.tripped = false; go ∧ v.life ≠ 5 ∧ fl.responds = false) ∧
    (∃ (fl : Flash) (s : State), let d := s.dev; let v := s.vault; let byte (a : Nat) : Byte := flashByte fl.runs a; let bytes (a n : Nat) : List Byte := (List.range n).map fun i => byte (a + i); let valid (a : Nat) : Prop := blk (bytes a 256) 0 4 = 0x43440001 ∧ blk (bytes a 256) 252 4 = fcsOf (bytes a 252); let go := d.boot.romDone = false ∧ d.thm.tripped = false; go ∧ v.life ≠ 5 ∧ fl.responds = true ∧ ¬ valid 0 ∧ ¬ valid 0x10000) ∧
    (∃ (fl : Flash) (s : State), let d := s.dev; let v := s.vault; let byte (a : Nat) : Byte := flashByte fl.runs a; let bytes (a n : Nat) : List Byte := (List.range n).map fun i => byte (a + i); let valid (a : Nat) : Prop := blk (bytes a 256) 0 4 = 0x43440001 ∧ blk (bytes a 256) 252 4 = fcsOf (bytes a 252); let go := d.boot.romDone = false ∧ d.thm.tripped = false; let at_ := blk (bytes 0 256) 16 4; let head := bytes at_ 128; let m := imgHead head; let only := valid 0 ∧ ¬ valid 0x10000 ∧ blk (bytes 0 256) 12 4 = 1 ∧ bit (blk (bytes 0 256) 25 1) 0 = true; go ∧ v.life = 2 ∧ getBits v.pol 3 1 = 0 ∧ fl.responds = true ∧ only ∧ let n := if m.fits 11 then m.body else 0; ∃ x, v.verify head (bytes (at_ + 128) n) (bytes (at_ + 128 + n) 256) 11 = .inl x) ∧
    (∃ (fl : Flash) (s : State), let d := s.dev; let v := s.vault; let byte (a : Nat) : Byte := flashByte fl.runs a; let bytes (a n : Nat) : List Byte := (List.range n).map fun i => byte (a + i); let valid (a : Nat) : Prop := blk (bytes a 256) 0 4 = 0x43440001 ∧ blk (bytes a 256) 252 4 = fcsOf (bytes a 252); let go := d.boot.romDone = false ∧ d.thm.tripped = false; let at_ := blk (bytes 0 256) 16 4; let head := bytes at_ 128; let m := imgHead head; let only := valid 0 ∧ ¬ valid 0x10000 ∧ blk (bytes 0 256) 12 4 = 1 ∧ bit (blk (bytes 0 256) 25 1) 0 = true; go ∧ v.life = 2 ∧ getBits v.pol 3 1 = 0 ∧ fl.responds = true ∧ only ∧ let n := if m.fits 11 then m.body else 0; ∃ y, v.verify head (bytes (at_ + 128) n) (bytes (at_ + 128 + n) 256) 11 = .inr y) ∧
    (∃ (s : State), let d := s.dev; let train := d.on R.MEM_CFG.EN = false ∧ d.polder 47 = 0 ∧ d.barredPolder 47 = none; d.barred A.DDR_TRAIN = none ∧ train) ∧
    (∃ (s : State), let d := s.dev; let train := d.on R.MEM_CFG.EN = false ∧ d.polder 47 = 0 ∧ d.barredPolder 47 = none; d.barred A.DDR_TRAIN = none ∧ ¬ train) :=
  ⟨⟨st ({ w0 with boot := { w0.boot with romDone := true } }), (by first | decide +kernel | (dsimp only; decide +kernel))⟩,
   ⟨st w0, (by first | decide +kernel | (dsimp only; decide +kernel))⟩,
   ⟨{ dev := w0, vault := { life := 5 } }, by decide +kernel, by decide +kernel⟩,
   ⟨{ responds := false, sfdp := false, runs := [] }, st w0, by decide +kernel, by decide +kernel, by decide +kernel⟩,
   ⟨{ responds := true, sfdp := false, runs := [] }, st w0, by decide +kernel, by decide +kernel, by decide +kernel, by decide +kernel, by decide +kernel⟩,
   ⟨flash [], { dev := w0, vault := knowsWarden }, by decide +kernel, by decide +kernel, by decide +kernel, by decide +kernel, by decide +kernel, 1, (by first | decide +kernel | (dsimp only; decide +kernel))⟩,
   ⟨flash wardenImg, { dev := w0, vault := knowsWarden }, by decide +kernel, by decide +kernel, by decide +kernel, by decide +kernel, by decide +kernel, List.replicate 64 4, (by first | decide +kernel | (dsimp only; decide +kernel))⟩,
   ⟨st w0, by decide +kernel, by decide +kernel⟩,
   ⟨st (w0 |>.set R.MEM_CFG.EN 1), by decide +kernel, by decide +kernel⟩⟩

theorem witness_StartUp_2 :
    (∃ (s : State), let d := s.dev; d.on R.DDR_TRAIN_STATUS.BUSY = false) ∧
    (∃ (s : State), let d := s.dev; d.on R.DDR_TRAIN_STATUS.BUSY = true) ∧
    (∃ (s : State), let d := s.dev; d.barred A.HEALTHY_CTRL = none) ∧
    (∃ (s : State), let d := s.dev; let tops (l : List Int) (t : Int) : Prop := t ∈ l ∧ ∀ x, x ∈ l → x ≤ t; let read (lo n : Nat) : List Int := ((List.range n).map (lo + ·)).filterMap fun k => if d.senUsed k then some (d.getI (R.READ.TEMP k)) else none; ∃ t, tops (read 0 176) t) ∧
    (∃ (s : State), let d := s.dev; let tops (l : List Int) (t : Int) : Prop := t ∈ l ∧ ∀ x, x ∈ l → x ≤ t; let sents := [d.getI (R.SENT_READ.TEMP 0), d.getI (R.SENT_READ.TEMP 1), d.getI (R.SENT_READ.TEMP 2), d.getI (R.SENT_READ.TEMP 3)]; ∃ t, tops sents t) ∧
    (∃ (s : State), let d := s.dev; let tops (l : List Int) (t : Int) : Prop := t ∈ l ∧ ∀ x, x ∈ l → x ≤ t; let read (lo n : Nat) : List Int := ((List.range n).map (lo + ·)).filterMap fun k => if d.senUsed k then some (d.getI (R.READ.TEMP k)) else none; ∃ t, tops (read 48 64) t) ∧
    (∃ (s : State), let d := s.dev; let read (lo n : Nat) : List Int := ((List.range n).map (lo + ·)).filterMap fun k => if d.senUsed k then some (d.getI (R.READ.TEMP k)) else none; read 0 176 = []) ∧
    (∃ (s : State), let d := s.dev; let read (lo n : Nat) : List Int := ((List.range n).map (lo + ·)).filterMap fun k => if d.senUsed k then some (d.getI (R.READ.TEMP k)) else none; read 48 64 = []) :=
  ⟨⟨st w0, (by first | decide +kernel | (dsimp only; decide +kernel))⟩,
   ⟨st (w0 |>.set R.DDR_TRAIN_STATUS.BUSY 1), (by first | decide +kernel | (dsimp only; decide +kernel))⟩,
   ⟨st w0, (by first | decide +kernel | (dsimp only; decide +kernel))⟩,
   ⟨st (w0 |>.set (R.READ.VALID 100) 1 |>.set (R.READ.TEMP 100) 5), 5, (by first | decide +kernel | (dsimp only; decide +kernel))⟩,
   ⟨st w0, 0, (by first | decide +kernel | (dsimp only; decide +kernel))⟩,
   ⟨st (w0 |>.set (R.READ.VALID 100) 1 |>.set (R.READ.TEMP 100) 5), 5, (by first | decide +kernel | (dsimp only; decide +kernel))⟩,
   ⟨st w0, (by first | decide +kernel | (dsimp only; decide +kernel))⟩,
   ⟨st w0, (by first | decide +kernel | (dsimp only; decide +kernel))⟩⟩

theorem witness_EngineImages_signed :
    knows.verify (loads.dram.bytes 4096 128) (loads.dram.bytes 4224 192) (loads.dram.bytes 4416 256) 0 = .inr ((img.drop 128).take 192) := by
  decide +kernel

theorem witness_SelfTest_1 : ∃ (src : Src) (e : EngId) (val : BitVec 32) (s : State),
    let d := s.dev
    let life := s.vault.life
    let trg (w : Nat) : Nat := min (w % 64) 48
    let ln (w : Nat) : Option Nat := if bit w 20 then some (getBits w 18 16) else none
    let deep (g : Nat) : Prop := d.get (R.LPWR_STATUS.TX_STATE g) = 2 ∧ d.get (R.LPWR_STATUS.RX_STATE g) = 2
    let bad (k w : Nat) (dbg : Prop) : Nat → Prop
      | 1 => ¬ ((life = 0 ∧ dbg) ∨ life = 1 ∨ life = 2 ∨ life = 4 ∨ (life = 3 ∧ k ≠ 3))
      | 2 => (d.testRun (trg w)).isSome = true ∨ (trg w < 32 ∧ (k = 1 ∨ k = 2) ∧ 8 ≤ d.octTests)
      | 3 => 1 < d.polder (trg w) ∨ (d.p (trg w)).closed = true ∨ (d.p (trg w)).inReset = true
      | 4 => (trg w < 32 ∧ ln w = none ∧ ¬ ((∀ l, l < 8 → deep (8 * trg w + l)) ∧ d.on (R.WEIR_STATUS.PARKED (trg w)) = true)) ∨
          (∃ l, trg w < 32 ∧ ln w = some l ∧ ¬ (deep (8 * trg w + l) ∧ (d.get (R.TRN_STATUS.STATE (8 * trg w + l)) = 0 ∨ d.get (R.TRN_STATUS.STATE (8 * trg w + l)) = 4) ∧
            d.get (R.LB_CTRL.MODE (8 * trg w + l)) = 0 ∧ d.on (R.CAP_CTRL.EN (8 * trg w + l)) = false)) ∨
          (32 ≤ trg w ∧ trg w < 36 ∧ (d.on R.FL_CTRL.RUN = true ∨ d.on R.FL_STATUS.RECLAIM_BUSY = true)) ∨
          (36 ≤ trg w ∧ trg w < 47 ∧ ¬ ((d.c (trg w - 36)).drained = true ∧ ∀ n, n < 8 → (d.e (8 * (trg w - 36) + n)).st = .halted ∨ (d.e (8 * (trg w - 36) + n)).st = .fault)) ∨
          (trg w = 47 ∧ (d.on R.MEM_CFG.EN = true ∨ d.on R.MEM_STATUS.SELF_REF = false ∨ d.get R.SPILL_STATUS.CELLS ≠ 0))
      | _ => (k ≤ 1 ∧ trg w = 48) ∨ (k = 2 ∧ 32 ≤ trg w ∧ trg w ≠ 47) ∨ (k = 3 ∧ trg w ≠ 48) ∨ ((ln w).isSome = true ∧ (k ≠ 2 ∨ 32 ≤ trg w)) ∨
          (k = 3 ∧ ¬ (dbg ∧ ∀ n, n < 8 → (d.e (88 + n)).st = .halted))
    let refused (k w : Nat) (dbg : Prop) (n : Nat) : Prop := 1 ≤ n ∧ n ≤ 5 ∧ bad k w dbg n ∧ ∀ m, 1 ≤ m → m < n → ¬ bad k w dbg m
    ∃ j, refused 0 val.toNat (src = .dbg) j :=
  ⟨.host, 95, 47, { dev := w0, vault := { life := 5 } }, 1, ⟨by decide, by decide, by show ¬ _; decide +kernel, fun m a b => absurd a (by omega)⟩⟩

theorem witness_SelfTest_2 : ∃ (src : Src) (e : EngId) (val : BitVec 32) (s : State),
    let d := s.dev
    let life := s.vault.life
    let trg (w : Nat) : Nat := min (w % 64) 48
    let ln (w : Nat) : Option Nat := if bit w 20 then some (getBits w 18 16) else none
    let deep (g : Nat) : Prop := d.get (R.LPWR_STATUS.TX_STATE g) = 2 ∧ d.get (R.LPWR_STATUS.RX_STATE g) = 2
    let bad (k w : Nat) (dbg : Prop) : Nat → Prop
      | 1 => ¬ ((life = 0 ∧ dbg) ∨ life = 1 ∨ life = 2 ∨ life = 4 ∨ (life = 3 ∧ k ≠ 3))
      | 2 => (d.testRun (trg w)).isSome = true ∨ (trg w < 32 ∧ (k = 1 ∨ k = 2) ∧ 8 ≤ d.octTests)
      | 3 => 1 < d.polder (trg w) ∨ (d.p (trg w)).closed = true ∨ (d.p (trg w)).inReset = true
      | 4 => (trg w < 32 ∧ ln w = none ∧ ¬ ((∀ l, l < 8 → deep (8 * trg w + l)) ∧ d.on (R.WEIR_STATUS.PARKED (trg w)) = true)) ∨
          (∃ l, trg w < 32 ∧ ln w = some l ∧ ¬ (deep (8 * trg w + l) ∧ (d.get (R.TRN_STATUS.STATE (8 * trg w + l)) = 0 ∨ d.get (R.TRN_STATUS.STATE (8 * trg w + l)) = 4) ∧
            d.get (R.LB_CTRL.MODE (8 * trg w + l)) = 0 ∧ d.on (R.CAP_CTRL.EN (8 * trg w + l)) = false)) ∨
          (32 ≤ trg w ∧ trg w < 36 ∧ (d.on R.FL_CTRL.RUN = true ∨ d.on R.FL_STATUS.RECLAIM_BUSY = true)) ∨
          (36 ≤ trg w ∧ trg w < 47 ∧ ¬ ((d.c (trg w - 36)).drained = true ∧ ∀ n, n < 8 → (d.e (8 * (trg w - 36) + n)).st = .halted ∨ (d.e (8 * (trg w - 36) + n)).st = .fault)) ∨
          (trg w = 47 ∧ (d.on R.MEM_CFG.EN = true ∨ d.on R.MEM_STATUS.SELF_REF = false ∨ d.get R.SPILL_STATUS.CELLS ≠ 0))
      | _ => (k ≤ 1 ∧ trg w = 48) ∨ (k = 2 ∧ 32 ≤ trg w ∧ trg w ≠ 47) ∨ (k = 3 ∧ trg w ≠ 48) ∨ ((ln w).isSome = true ∧ (k ≠ 2 ∨ 32 ≤ trg w)) ∨
          (k = 3 ∧ ¬ (dbg ∧ ∀ n, n < 8 → (d.e (88 + n)).st = .halted))
    let ok (k w : Nat) (dbg : Prop) : Prop := ∀ m, 1 ≤ m → m ≤ 5 → ¬ bad k w dbg m
    ok 0 val.toNat (src = .dbg) :=
  ⟨.host, 95, 47, { dev := w0.set R.MEM_STATUS.SELF_REF 1, vault := { life := 1 } }, fun m a b => by
    obtain rfl | rfl | rfl | rfl | rfl : m = 1 ∨ m = 2 ∨ m = 3 ∨ m = 4 ∨ m = 5 := by omega
    · show ¬ ¬ _; decide +kernel
    · show ¬ (_ ∨ _); decide +kernel
    · show ¬ (_ ∨ _ ∨ _); decide +kernel
    · rintro (⟨h, _⟩ | ⟨l, h, _⟩ | ⟨_, h, _⟩ | ⟨_, h, _⟩ | ⟨_, h⟩) <;> revert h <;> decide +kernel
    · show ¬ (_ ∨ _ ∨ _ ∨ _ ∨ _); decide +kernel⟩

theorem witness_SelfTest_3 : ∃ (e : EngId) (op : Nat) (s : State),
    let d := s.dev
    let life := s.vault.life
    let trg (w : Nat) : Nat := min (w % 64) 48
    let ln (w : Nat) : Option Nat := if bit w 20 then some (getBits w 18 16) else none
    let deep (g : Nat) : Prop := d.get (R.LPWR_STATUS.TX_STATE g) = 2 ∧ d.get (R.LPWR_STATUS.RX_STATE g) = 2
    let bad (k w : Nat) (dbg : Prop) : Nat → Prop
      | 1 => ¬ ((life = 0 ∧ dbg) ∨ life = 1 ∨ life = 2 ∨ life = 4 ∨ (life = 3 ∧ k ≠ 3))
      | 2 => (d.testRun (trg w)).isSome = true ∨ (trg w < 32 ∧ (k = 1 ∨ k = 2) ∧ 8 ≤ d.octTests)
      | 3 => 1 < d.polder (trg w) ∨ (d.p (trg w)).closed = true ∨ (d.p (trg w)).inReset = true
      | 4 => (trg w < 32 ∧ ln w = none ∧ ¬ ((∀ l, l < 8 → deep (8 * trg w + l)) ∧ d.on (R.WEIR_STATUS.PARKED (trg w)) = true)) ∨
          (∃ l, trg w < 32 ∧ ln w = some l ∧ ¬ (deep (8 * trg w + l) ∧ (d.get (R.TRN_STATUS.STATE (8 * trg w + l)) = 0 ∨ d.get (R.TRN_STATUS.STATE (8 * trg w + l)) = 4) ∧
            d.get (R.LB_CTRL.MODE (8 * trg w + l)) = 0 ∧ d.on (R.CAP_CTRL.EN (8 * trg w + l)) = false)) ∨
          (32 ≤ trg w ∧ trg w < 36 ∧ (d.on R.FL_CTRL.RUN = true ∨ d.on R.FL_STATUS.RECLAIM_BUSY = true)) ∨
          (36 ≤ trg w ∧ trg w < 47 ∧ ¬ ((d.c (trg w - 36)).drained = true ∧ ∀ n, n < 8 → (d.e (8 * (trg w - 36) + n)).st = .halted ∨ (d.e (8 * (trg w - 36) + n)).st = .fault)) ∨
          (trg w = 47 ∧ (d.on R.MEM_CFG.EN = true ∨ d.on R.MEM_STATUS.SELF_REF = false ∨ d.get R.SPILL_STATUS.CELLS ≠ 0))
      | _ => (k ≤ 1 ∧ trg w = 48) ∨ (k = 2 ∧ 32 ≤ trg w ∧ trg w ≠ 47) ∨ (k = 3 ∧ trg w ≠ 48) ∨ ((ln w).isSome = true ∧ (k ≠ 2 ∨ 32 ≤ trg w)) ∨
          (k = 3 ∧ ¬ (dbg ∧ ∀ n, n < 8 → (d.e (88 + n)).st = .halted))
    let refused (k w : Nat) (dbg : Prop) (n : Nat) : Prop := 1 ≤ n ∧ n ≤ 5 ∧ bad k w dbg n ∧ ∀ m, 1 ≤ m → m < n → ¬ bad k w dbg m
    let word := op % 2 ^ 26
    getBits op 25 24 = 0 ∧ d.Asks e 0x203 0 op ∧ ∃ j, refused 0 word False j :=
  ⟨95, 47, { dev := asked w0 95 0x203 0 47 48, vault := { life := 5 } }, by decide +kernel, asks_of (by decide +kernel), 1, ⟨by decide, by decide, by show ¬ _; decide +kernel, fun m a b => absurd a (by omega)⟩⟩

theorem witness_SelfTest_4 : ∃ (e : EngId) (op : Nat) (s : State),
    let d := s.dev
    let life := s.vault.life
    let trg (w : Nat) : Nat := min (w % 64) 48
    let ln (w : Nat) : Option Nat := if bit w 20 then some (getBits w 18 16) else none
    let deep (g : Nat) : Prop := d.get (R.LPWR_STATUS.TX_STATE g) = 2 ∧ d.get (R.LPWR_STATUS.RX_STATE g) = 2
    let bad (k w : Nat) (dbg : Prop) : Nat → Prop
      | 1 => ¬ ((life = 0 ∧ dbg) ∨ life = 1 ∨ life = 2 ∨ life = 4 ∨ (life = 3 ∧ k ≠ 3))
      | 2 => (d.testRun (trg w)).isSome = true ∨ (trg w < 32 ∧ (k = 1 ∨ k = 2) ∧ 8 ≤ d.octTests)
      | 3 => 1 < d.polder (trg w) ∨ (d.p (trg w)).closed = true ∨ (d.p (trg w)).inReset = true
      | 4 => (trg w < 32 ∧ ln w = none ∧ ¬ ((∀ l, l < 8 → deep (8 * trg w + l)) ∧ d.on (R.WEIR_STATUS.PARKED (trg w)) = true)) ∨
          (∃ l, trg w < 32 ∧ ln w = some l ∧ ¬ (deep (8 * trg w + l) ∧ (d.get (R.TRN_STATUS.STATE (8 * trg w + l)) = 0 ∨ d.get (R.TRN_STATUS.STATE (8 * trg w + l)) = 4) ∧
            d.get (R.LB_CTRL.MODE (8 * trg w + l)) = 0 ∧ d.on (R.CAP_CTRL.EN (8 * trg w + l)) = false)) ∨
          (32 ≤ trg w ∧ trg w < 36 ∧ (d.on R.FL_CTRL.RUN = true ∨ d.on R.FL_STATUS.RECLAIM_BUSY = true)) ∨
          (36 ≤ trg w ∧ trg w < 47 ∧ ¬ ((d.c (trg w - 36)).drained = true ∧ ∀ n, n < 8 → (d.e (8 * (trg w - 36) + n)).st = .halted ∨ (d.e (8 * (trg w - 36) + n)).st = .fault)) ∨
          (trg w = 47 ∧ (d.on R.MEM_CFG.EN = true ∨ d.on R.MEM_STATUS.SELF_REF = false ∨ d.get R.SPILL_STATUS.CELLS ≠ 0))
      | _ => (k ≤ 1 ∧ trg w = 48) ∨ (k = 2 ∧ 32 ≤ trg w ∧ trg w ≠ 47) ∨ (k = 3 ∧ trg w ≠ 48) ∨ ((ln w).isSome = true ∧ (k ≠ 2 ∨ 32 ≤ trg w)) ∨
          (k = 3 ∧ ¬ (dbg ∧ ∀ n, n < 8 → (d.e (88 + n)).st = .halted))
    let ok (k w : Nat) (dbg : Prop) : Prop := ∀ m, 1 ≤ m → m ≤ 5 → ¬ bad k w dbg m
    let word := op % 2 ^ 26
    getBits op 25 24 = 0 ∧ d.Asks e 0x203 0 op ∧ ok 0 word False :=
  ⟨95, 47, { dev := asked (w0.set R.MEM_STATUS.SELF_REF 1) 95 0x203 0 47 48, vault := { life := 1 } }, by decide +kernel, asks_of (by decide +kernel), fun m a b => by
    obtain rfl | rfl | rfl | rfl | rfl : m = 1 ∨ m = 2 ∨ m = 3 ∨ m = 4 ∨ m = 5 := by omega
    · show ¬ ¬ _; decide +kernel
    · show ¬ (_ ∨ _); decide +kernel
    · show ¬ (_ ∨ _ ∨ _); decide +kernel
    · rintro (⟨h, _⟩ | ⟨l, h, _⟩ | ⟨_, h, _⟩ | ⟨_, h, _⟩ | ⟨_, h⟩) <;> revert h <;> decide +kernel
    · show ¬ (_ ∨ _ ∨ _ ∨ _ ∨ _); decide +kernel⟩

theorem witness_SelfTest_5 : ∃ (val : BitVec 32) (tgt : Fin 49) (s : State),
    let d := s.dev
    let t := tgt.val
    d.testRun t = none :=
  ⟨0, 48, st w0, by decide +kernel⟩

theorem witness_SelfTest_6 : ∃ (val : BitVec 32) (tgt : Fin 49) (r : BistRun) (s : State),
    let d := s.dev
    let t := tgt.val
    d.testRun t = some r :=
  ⟨0, 48, { subset := 3, lane := none, eng := none, start := 0 }, st { w0 with bist := { w0.bist with run := [(48, some { subset := 3, lane := none, eng := none, start := 0 })] } }, rfl⟩

theorem witness_SelfTest_7 : ∃ (val : BitVec 32) (tgt : Fin 49) (r : BistRun) (s : State),
    let d := s.dev
    let soft := d.bist.soft.length
    let t := tgt.val
    let run := d.testRun t = some r ∧ r.eng = none
    run ∧ r.subset = 0 ∧ soft ≤ 512 :=
  ⟨0, 35, { subset := 0, lane := none, eng := none, start := 0 }, st { w0 with bist := { w0.bist with run := [(35, some { subset := 0, lane := none, eng := none, start := 0 })] } }, ⟨rfl, rfl⟩, by decide +kernel, by decide +kernel⟩

theorem witness_SelfTest_8 : ∃ (val : BitVec 32) (tgt : Fin 49) (r : BistRun) (s : State),
    let d := s.dev
    let t := tgt.val
    let run := d.testRun t = some r ∧ r.eng = none
    run ∧ (r.subset = 1 ∨ r.subset = 3) :=
  ⟨0, 46, { subset := 1, lane := none, eng := none, start := 0 }, st { w0 with bist := { w0.bist with run := [(46, some { subset := 1, lane := none, eng := none, start := 0 })] } }, ⟨rfl, rfl⟩, by decide +kernel⟩

theorem witness_SelfTest_9 : ∃ (val : BitVec 32) (tgt : Fin 49) (r : BistRun) (s : State),
    let d := s.dev
    let t := tgt.val
    let run := d.testRun t = some r ∧ r.eng = none
    run ∧ r.lane = none ∧ t < 47 ∧ (t < 32 ∨ 36 ≤ t) ∧ r.subset ≤ 2 :=
  ⟨0, 46, { subset := 2, lane := none, eng := none, start := 0 }, st { w0 with bist := { w0.bist with run := [(46, some { subset := 2, lane := none, eng := none, start := 0 })] } }, ⟨rfl, rfl⟩, rfl, by decide +kernel, by decide +kernel, by decide +kernel⟩

theorem witness_SelfTest_10 : ∃ (val : BitVec 32) (tgt : Fin 49) (x : BistResult) (r : BistRun) (s : State),
    let d := s.dev
    let t := tgt.val
    let run := d.testRun t = some r ∧ r.eng = none
    let found (l : Nat) := x.lanes.getD l (0, 0)
    let clean (l m : Nat) : Prop := (found l).1 = 0 ∧ (found l).2.toNat &&& m = 0
    run ∧ r.subset = 2 ∧ t < 32 ∧ s.vault.spares = [] ∧ ∃ l, r.lane = some l ∧ l < 8 ∧ clean l 0xC0 :=
  ⟨0, 31, ⟨true, 0, 0, 0, List.replicate 8 (0, 0)⟩, { subset := 2, lane := some 7, eng := none, start := 0 }, st { w0 with bist := { w0.bist with run := [(31, some { subset := 2, lane := some 7, eng := none, start := 0 })] } }, ⟨rfl, rfl⟩, rfl, by decide +kernel, rfl, 7, rfl, by decide +kernel, by decide +kernel⟩

theorem witness_SelfTest_11 : ∃ (val : BitVec 32) (tgt : Fin 49) (x : BistResult) (r : BistRun) (s : State),
    let d := s.dev
    let t := tgt.val
    let run := d.testRun t = some r ∧ r.eng = none
    let found (l : Nat) := x.lanes.getD l (0, 0)
    let clean (l m : Nat) : Prop := (found l).1 = 0 ∧ (found l).2.toNat &&& m = 0
    run ∧ r.subset = 2 ∧ t < 32 ∧ s.vault.spares = [] ∧ ∃ l, r.lane = some l ∧ l < 8 ∧ ¬ clean l 0xC0 :=
  ⟨0, 31, ⟨true, 0, 0, 0, List.replicate 8 (0, 0x40)⟩, { subset := 2, lane := some 7, eng := none, start := 0 }, st { w0 with bist := { w0.bist with run := [(31, some { subset := 2, lane := some 7, eng := none, start := 0 })] } }, ⟨rfl, rfl⟩, rfl, by decide +kernel, rfl, 7, rfl, by decide +kernel, by decide +kernel⟩

theorem witness_SelfTest_12 : ∃ (val : BitVec 32) (tgt : Fin 49) (x : BistResult) (r : BistRun) (s : State),
    let d := s.dev
    let t := tgt.val
    let run := d.testRun t = some r ∧ r.eng = none
    let found (l : Nat) := x.lanes.getD l (0, 0)
    let mask (l : Nat) : Nat := if l = 0 then 0xFE else 0xD2
    let clean (l m : Nat) : Prop := (found l).1 = 0 ∧ (found l).2.toNat &&& m = 0
    run ∧ r.subset = 2 ∧ t < 32 ∧ s.vault.spares = [] ∧ r.lane = none ∧ ∀ l, l < 8 → clean l (mask l) :=
  ⟨0, 31, ⟨true, 0, 0, 0, List.replicate 8 (0, 0)⟩, { subset := 2, lane := none, eng := none, start := 0 }, st { w0 with bist := { w0.bist with run := [(31, some { subset := 2, lane := none, eng := none, start := 0 })] } }, ⟨rfl, rfl⟩, rfl, by decide +kernel, rfl, rfl, by decide +kernel⟩

theorem witness_SelfTest_13 : ∃ (val : BitVec 32) (tgt : Fin 49) (x : BistResult) (r : BistRun) (s : State),
    let d := s.dev
    let t := tgt.val
    let run := d.testRun t = some r ∧ r.eng = none
    let found (l : Nat) := x.lanes.getD l (0, 0)
    let mask (l : Nat) : Nat := if l = 0 then 0xFE else 0xD2
    let clean (l m : Nat) : Prop := (found l).1 = 0 ∧ (found l).2.toNat &&& m = 0
    run ∧ r.subset = 2 ∧ t < 32 ∧ s.vault.spares = [] ∧ r.lane = none ∧ ∃ l, l < 8 ∧ ¬ clean l (mask l) :=
  ⟨0, 31, ⟨true, 0, 0, 0, List.replicate 8 (0, 0x02)⟩, { subset := 2, lane := none, eng := none, start := 0 }, st { w0 with bist := { w0.bist with run := [(31, some { subset := 2, lane := none, eng := none, start := 0 })] } }, ⟨rfl, rfl⟩, rfl, by decide +kernel, rfl, rfl, 7, by decide +kernel, by decide +kernel⟩

theorem witness_SelfTest_14 : ∃ (e : EngId) (val : BitVec 32) (op : Nat) (tgt : Fin 49) (r : BistRun) (s : State),
    let d := s.dev
    let cmd (k : Nat) (w : Via) : Instr := if k = 0 then .bistMem w else if k = 1 then .bistLbist w else if k = 2 then .bistAnalog w else .bistAon w
    let t := tgt.val
    ∃ q, d.testRun t = some r ∧ r.eng = some e.val ∧ 88 ≤ e.val ∧ (d.e e).reqs = [q] ∧ q.chan = 0x203 ∧ q.cmd = 0 ∧ q.phase = .taken ∧ q.tgt = 48 ∧ min (q.op.toNat % 64) 48 = t :=
  ⟨95, 0, 0, 47, { subset := 0, lane := none, eng := some 95, start := 0 }, st { (asked w0 95 0x203 0 47 48 .taken) with bist := { (asked w0 95 0x203 0 47 48 .taken).bist with run := [(47, some { subset := 0, lane := none, eng := some 95, start := 0 })] } }, { chan := 0x203, cmd := 0, op := 47, tgt := 48, epoch := 0, phase := .taken }, rfl, rfl, by decide +kernel, rfl, rfl, rfl, rfl, rfl, by decide +kernel⟩

theorem witness_SelfTest_15 : ∃ (e : EngId) (op : Nat) (s : State),
    let d := s.dev
    d.Asks e 0x203 1 op :=
  ⟨95, 48, st (asked w0 95 0x203 1 48 48), asks_of (by decide +kernel)⟩

theorem witness_SelfTest_16 : ∃ (e : EngId) (op : Nat) (s : State),
    let d := s.dev
    let life := s.vault.life
    life ≤ 1 ∧ d.Asks e 0x203 2 op :=
  ⟨95, 0, st (asked w0 95 0x203 2 0 48), by decide +kernel, asks_of (by decide +kernel)⟩

theorem witness_SelfTest_17 : ∃ (e : EngId) (op : Nat) (s : State),
    let d := s.dev
    let life := s.vault.life
    2 ≤ life ∧ d.Asks e 0x203 2 op :=
  ⟨95, 0, { dev := asked w0 95 0x203 2 0 48, vault := { life := 2 } }, by decide +kernel, asks_of (by decide +kernel)⟩

/-- A part in the field whose pending transition to RETURNED has still to be applied. -/
def pendingReturn : State := { vault := { life := 3, next := some 4, rollback := 64, policy := some 0x17, revoked := [10] }, pending := [.coldReset] }

theorem witness_StepKeepsVault : ∃ s t : State, s.vault.Lawful ∧ step s = .next t ∧ s.vault.next = some t.vault.life :=
  ⟨pendingReturn, _, ⟨by decide, fun n h => by cases h; exact .inl rfl, by decide, by decide, by decide, by decide⟩, rfl, by decide +kernel⟩

end
end

section
/-! Engine instructions that compute one register: from the command to the register rule, and the bits and lanes of the values it writes
(spec/07, R200 to R204). -/

open Sys2Proof

namespace Sys2Proof.Machine

/-! From the command to the rule of its result. -/

@[simp] theorem EngSt.pc_w (x : EngSt) (n : Nat) (v : DWord) : (x.w n v).pc = x.pc := by
  unfold EngSt.w
  split <;> rfl

theorem EngSt.w_lastPc (x : EngSt) (pc : Word) (n : Nat) (v : DWord) :
    ({ x with lastPc := pc } : EngSt).w n v = { x.w n v with lastPc := pc } := by
  unfold EngSt.w
  split <;> rfl

/-- An instruction whose effect is `Dev.compute` of v', where v' does not read the E_PC that the issue writes, and gives v. -/
theorem computes_of_exec {c : Instr} {e gd n : Nat} {v v' : EngSt → DWord}
    (hc : ∀ s, exec c s = s.on fun d => d.compute e gd n v') (hv : ∀ x, v' x = v x := by exact fun _ => rfl)
    (hpc : ∀ x pc, v' { x with lastPc := pc } = v' x := by exact fun _ _ => rfl) : Computes c e gd n v := by
  intro s hs
  rw [Makes, hc, State.on, Dev.compute_eq hs, hpc, hv, EngSt.w_lastPc]
  simp only [EngSt.next, EngSt.done, EngSt.pc_w]

/-! Comparisons, shifts and products (R200 to R202). -/

theorem boolD_eq_ite (p : Prop) [Decidable p] : boolD (decide p) = if p then 1 else 0 := by
  by_cases h : p <;> simp [boolD, h]

theorem boolD_beq (a b : DWord) : boolD (a == b) = if a = b then 1 else 0 := boolD_eq_ite _

theorem boolD_bne (a b : DWord) : boolD (a != b) = if a = b then 0 else 1 := by
  by_cases h : a = b <;> simp [boolD, h]

theorem toInt_sext16 (i : BitVec 16) : (sext16 i).toInt = i.toInt := BitVec.toInt_signExtend_of_le (by omega)

theorem shiftLeft_eq_ofNat (a : DWord) (k : Nat) : a <<< k = BitVec.ofNat 64 (a.toNat * 2 ^ k) := by
  apply BitVec.eq_of_toNat_eq
  simp [Nat.shiftLeft_eq]

theorem ushiftRight_eq_ofNat (a : DWord) (k : Nat) : a >>> k = BitVec.ofNat 64 (a.toNat / 2 ^ k) := by
  apply BitVec.eq_of_toNat_eq
  rw [BitVec.toNat_ushiftRight, Nat.shiftRight_eq_div_pow, BitVec.toNat_ofNat,
    Nat.mod_eq_of_lt (Nat.lt_of_le_of_lt (Nat.div_le_self _ _) a.isLt)]

theorem sshiftRight_eq_ofInt (a : DWord) (k : Nat) : a.sshiftRight k = BitVec.ofInt 64 (a.toInt / 2 ^ k) := by
  rw [BitVec.sshiftRight, Int.shiftRight_eq_div_pow]
  simp

theorem rotateLeft_shCount (a b : DWord) :
    a.rotateLeft (shCount b) = a <<< (b.toNat % 64) ||| a >>> (64 - b.toNat % 64) := by
  simp [shCount, BitVec.rotateLeft, BitVec.rotateLeftAux]

theorem mul_eq_ofNat (a b : DWord) : a * b = BitVec.ofNat 64 (a.toNat * b.toNat) := rfl

theorem highPart_eq (p : Int) : highPart p = BitVec.ofInt 64 (p / 2 ^ 64) := by
  rw [highPart, Int.fdiv_eq_ediv_of_nonneg _ (by norm_num)]

theorem highPart_natCast (p : Nat) : highPart p = BitVec.ofNat 64 (p / 2 ^ 64) := by
  rw [highPart_eq, ← BitVec.ofInt_natCast]
  norm_cast

/-! Counts of bits (R200). -/

/-- The leading zeros of bits n - 1 to 0: so many bits from the top are 0, and the next one, if there is one, is 1. -/
theorem leadZeros_spec (v : DWord) (n : Nat) :
    leadZeros v n ≤ n ∧ (∀ i, i < leadZeros v n → v.getLsbD (n - 1 - i) = false) ∧
      (leadZeros v n < n → v.getLsbD (n - 1 - leadZeros v n) = true) := by
  induction n with
  | zero => simp [leadZeros]
  | succ n ih =>
    obtain ⟨hle, hzero, hone⟩ := ih
    by_cases hb : v.getLsbD n = true
    · simp [leadZeros, hb]
    · rw [Bool.not_eq_true] at hb
      have hs : leadZeros v (n + 1) = leadZeros v n + 1 := by simp [leadZeros, hb]
      rw [hs]
      refine ⟨by omega, fun i hi => ?_, fun h => ?_⟩
      · cases i with
        | zero => exact hb
        | succ i => rw [show n + 1 - 1 - (i + 1) = n - 1 - i by omega]; exact hzero i (by omega)
      · rw [show n + 1 - 1 - (leadZeros v n + 1) = n - 1 - leadZeros v n by omega]
        exact hone (by omega)

/-- The trailing zeros of the k bits from bit i upward: so many bits are 0, and the next one, if there is one, is 1. -/
theorem trailZeros_spec (v : DWord) (i k : Nat) :
    trailZeros v i k ≤ k ∧ (∀ j, j < trailZeros v i k → v.getLsbD (i + j) = false) ∧
      (trailZeros v i k < k → v.getLsbD (i + trailZeros v i k) = true) := by
  induction k generalizing i with
  | zero => simp [trailZeros]
  | succ k ih =>
    obtain ⟨hle, hzero, hone⟩ := ih (i + 1)
    by_cases hb : v.getLsbD i = true
    · simp [trailZeros, hb]
    · rw [Bool.not_eq_true] at hb
      have hs : trailZeros v i (k + 1) = trailZeros v (i + 1) k + 1 := by simp [trailZeros, hb]
      rw [hs]
      refine ⟨by omega, fun j hj => ?_, fun h => ?_⟩
      · cases j with
        | zero => exact hb
        | succ j => rw [show i + (j + 1) = i + 1 + j by omega]; exact hzero j (by omega)
      · rw [show i + (trailZeros v (i + 1) k + 1) = i + 1 + trailZeros v (i + 1) k by omega]
        exact hone (by omega)

theorem popCount_eq_countP (v n : Nat) : popCount v n = (List.range n).countP fun i => v.testBit i := by
  induction n with
  | zero => rfl
  | succ n ih =>
    rw [popCount, ih, bit_eq_testBit, List.range_succ, List.countP_append]
    cases h : v.testBit n <;> simp [h]

/-! Bit fields (R201). -/

/-- The field of LEN bits at POS ends with its last bit, or at bit 63. -/
theorem add_fieldLen_succ (pos lenM1 : Fin 64) : pos.val + fieldLen pos (lenM1 + 1) = min (pos.val + lenM1.val) 63 + 1 := by
  unfold fieldLen
  omega

/-- The field of LEN bits at POS, bit by bit. -/
theorem testBit_field (v : DWord) (pos len i : Nat) :
    (v.toNat / 2 ^ pos % 2 ^ fieldLen pos len).testBit i = (decide (i < fieldLen pos len) && v.getLsbD (pos + i)) := by
  rw [Nat.testBit_mod_two_pow, Nat.testBit_div_two_pow, Nat.add_comm, BitVec.testBit_toNat]

/-- The two's complement reading of w bits, taken to 64 bits, is their sign extension. -/
theorem ofInt_toS (w u : Nat) (hu : u < 2 ^ w) : BitVec.ofInt 64 (toS w u) = (BitVec.ofNat w u).signExtend 64 := by
  rw [BitVec.signExtend, BitVec.toInt_eq_toNat_cond, BitVec.toNat_ofNat, Nat.mod_eq_of_lt hu, toS]
  norm_cast

section Fields
variable {pos len last i : Nat} (hlast : pos + fieldLen pos len = last + 1) (hi : i < 64)
include hlast hi

theorem getLsbD_extField (v : DWord) :
    (extField v pos len).getLsbD i = (decide (pos + i ≤ last) && v.getLsbD (pos + i)) := by
  have hin : i < fieldLen pos len ↔ pos + i ≤ last := by omega
  rw [extField, BitVec.getLsbD_ofNat, testBit_field]
  simp only [hi, hin, decide_true, Bool.true_and]

theorem getLsbD_extsField (v : DWord) (hpos : pos ≤ last) : (extsField v pos len).getLsbD i = v.getLsbD (min (pos + i) last) := by
  have hbit : ∀ k, pos + k ≤ last →
      (BitVec.ofNat (fieldLen pos len) (v.toNat / 2 ^ pos % 2 ^ fieldLen pos len)).getLsbD k = v.getLsbD (pos + k) := by
    intro k hk
    rw [BitVec.getLsbD_ofNat, testBit_field]
    simp [show k < fieldLen pos len by omega]
  rw [extsField, ofInt_toS _ _ (Nat.mod_lt _ (Nat.two_pow_pos _)), BitVec.getLsbD_signExtend, BitVec.msb_eq_getLsbD_last]
  simp only [hi, decide_true, Bool.true_and]
  split
  next h => rw [hbit i (by omega), Nat.min_eq_left (by omega)]
  next h => rw [hbit _ (by omega), Nat.min_eq_right (by omega), show pos + (fieldLen pos len - 1) = last by omega]

theorem getLsbD_insField (g v : DWord) (hpos : pos ≤ last) :
    (insField g v pos len).getLsbD i = if pos ≤ i ∧ i ≤ last then v.getLsbD (i - pos) else g.getLsbD i := by
  rw [insField, BitVec.getLsbD_ofNat, show pos + fieldLen pos len - 1 = last by omega, testBit_putBits _ _ _ _ _ hpos]
  simp [hi, BitVec.testBit_toNat]

end Fields

theorem getLsbD_insHalf (k : Nat) (v : DWord) (imm : BitVec 16) {i : Nat} (hi : i < 64) :
    (insHalf k v imm).getLsbD i = if 16 * k ≤ i ∧ i < 16 * k + 16 then imm.getLsbD (i - 16 * k) else v.getLsbD i := by
  have hlast : i ≤ 16 * k + 15 ↔ i < 16 * k + 16 := by omega
  rw [insHalf, BitVec.getLsbD_ofNat, testBit_putBits _ _ _ _ _ (by omega)]
  simp [hi, hlast, BitVec.testBit_toNat]

end Sys2Proof.Machine

open Sys2Proof.Machine

/-- Settles O3: each instruction is `Dev.compute` of a value (`computes_of_exec`), and the value is the one stated. -/
theorem aluResult : Obligations.AluResult := by
  refine ⟨fun e gd ga gb => ?alu, fun e gd ga => ?count, fun e gd ga imm sh => ?imm, fun e gd ga pos lenM1 imm => ?field,
    fun e gd ga gb => ?mul⟩
  case alu =>
    -- add to andn are written as stated; then seq to sleu, whose flag is 1 or 0; then the shifts and the rotation.
    exact ⟨computes_of_exec fun _ => rfl,
      computes_of_exec fun _ => rfl,
      computes_of_exec fun _ => rfl,
      computes_of_exec fun _ => rfl,
      computes_of_exec fun _ => rfl,
      computes_of_exec fun _ => rfl,
      computes_of_exec fun _ => rfl,
      computes_of_exec (fun _ => rfl) fun x => boolD_beq (x.r ga) (x.r gb),
      computes_of_exec (fun _ => rfl) fun x => boolD_bne (x.r ga) (x.r gb),
      computes_of_exec (fun _ => rfl) fun x => boolD_eq_ite ((x.r ga).toInt < (x.r gb).toInt),
      computes_of_exec (fun _ => rfl) fun x => boolD_eq_ite ((x.r ga).toNat < (x.r gb).toNat),
      computes_of_exec (fun _ => rfl) fun x => boolD_eq_ite ((x.r ga).toInt ≤ (x.r gb).toInt),
      computes_of_exec (fun _ => rfl) fun x => boolD_eq_ite ((x.r ga).toNat ≤ (x.r gb).toNat),
      computes_of_exec (fun _ => rfl) fun x => shiftLeft_eq_ofNat (x.r ga) (shCount (x.r gb)),
      computes_of_exec (fun _ => rfl) fun x => ushiftRight_eq_ofNat (x.r ga) (shCount (x.r gb)),
      computes_of_exec (fun _ => rfl) fun x => sshiftRight_eq_ofInt (x.r ga) (shCount (x.r gb)),
      computes_of_exec (fun _ => rfl) fun x => rotateLeft_shCount (x.r ga) (x.r gb)⟩
  case count =>
    refine ⟨⟨fun v => leadZeros v 64, computes_of_exec fun _ => rfl, fun v => leadZeros_spec v 64⟩,
      ⟨fun v => trailZeros v 0 64, computes_of_exec fun _ => rfl, fun v => ?_⟩,
      computes_of_exec (fun _ => rfl) fun x => congrArg (BitVec.ofNat 64) (popCount_eq_countP (x.r ga).toNat 64)⟩
    simpa using trailZeros_spec v 0 64
  case imm =>
    -- The four arithmetic and logic immediates; then slti, sltiu, seqi; then the shifts.
    exact ⟨computes_of_exec fun _ => rfl,
      computes_of_exec fun _ => rfl,
      computes_of_exec fun _ => rfl,
      computes_of_exec fun _ => rfl,
      computes_of_exec (fun _ => rfl) fun x => toInt_sext16 imm ▸ boolD_eq_ite ((x.r ga).toInt < (sext16 imm).toInt),
      computes_of_exec (fun _ => rfl) fun x => boolD_eq_ite ((x.r ga).toNat < (sext16 imm).toNat),
      computes_of_exec (fun _ => rfl) fun x => boolD_beq (x.r ga) (sext16 imm),
      computes_of_exec (fun _ => rfl) fun x => shiftLeft_eq_ofNat (x.r ga) sh,
      computes_of_exec (fun _ => rfl) fun x => ushiftRight_eq_ofNat (x.r ga) sh,
      computes_of_exec (fun _ => rfl) fun x => sshiftRight_eq_ofInt (x.r ga) sh⟩
  case field =>
    have hlast := add_fieldLen_succ pos lenM1
    have hpos : pos.val ≤ min (pos.val + lenM1.val) 63 := by omega
    exact ⟨⟨fun v => extField v pos (lenM1 + 1), computes_of_exec fun _ => rfl,
        fun v i hi => getLsbD_extField hlast hi v⟩,
      ⟨fun v => extsField v pos (lenM1 + 1), computes_of_exec fun _ => rfl,
        fun v i hi => getLsbD_extsField hlast hi v hpos⟩,
      ⟨fun g v => insField g v pos (lenM1 + 1), computes_of_exec fun _ => rfl,
        fun g v i hi => getLsbD_insField hlast hi g v hpos⟩,
      fun k v => insHalf k v imm, computes_of_exec fun _ => rfl,
      computes_of_exec fun _ => rfl, computes_of_exec fun _ => rfl,
      fun k v i _ _ hi => getLsbD_insHalf k v imm hi⟩
  case mul =>
    exact ⟨computes_of_exec (fun _ => rfl) fun x => mul_eq_ofNat (x.r ga) (x.r gb),
      computes_of_exec (fun _ => rfl) fun x => highPart_eq ((x.r ga).toInt * (x.r gb).toInt),
      computes_of_exec (fun _ => rfl) fun x => by exact_mod_cast highPart_natCast ((x.r ga).toNat * (x.r gb).toNat),
      computes_of_exec (fun _ => rfl) fun x => highPart_eq ((x.r ga).toInt * ((x.r gb).toNat : Int))⟩

end

section
/-! Byte lanes and lane pairs (spec/07, R203, R204): the fields written one after another, and the values written there. -/

open Sys2Proof

namespace Sys2Proof.Machine

/-! Fields of one width written one after another. -/

/-- The fields of w bits with numbers below n for which p holds replaced by those of x, lowest first. -/
def putFields (w : Nat) (p : Nat → Bool) (x : Nat → Nat) (v n : Nat) : Nat :=
  (List.range n).foldl (fun v i => if p i then putBits v (w * i + (w - 1)) (w * i) (x i) else v) v

theorem putFields_succ (w : Nat) (p : Nat → Bool) (x : Nat → Nat) (v n : Nat) :
    putFields w p x v (n + 1) =
      if p n then putBits (putFields w p x v n) (w * n + (w - 1)) (w * n) (x n) else putFields w p x v n := by
  simp [putFields, List.range_succ]

/-- Field j after the writes: the one written there, if one was, else the old one. -/
theorem getBits_putFields {w : Nat} (hw : 0 < w) (p : Nat → Bool) (x : Nat → Nat) (v n j : Nat) :
    getBits (putFields w p x v n) (w * j + (w - 1)) (w * j) =
      if j < n ∧ p j = true then x j % 2 ^ w else getBits v (w * j + (w - 1)) (w * j) := by
  induction n with
  | zero => simp [putFields]
  | succ n ih =>
    have hwidth : w * n + (w - 1) + 1 - w * n = w := by omega
    rw [putFields_succ]
    by_cases hp : p n = true
    · rw [if_pos hp]
      rcases Nat.lt_trichotomy j n with h | rfl | h
      · have hwn : w * (j + 1) ≤ w * n := Nat.mul_le_mul_left w h
        rw [getBits_putBits_ne _ _ _ _ _ _ (by omega) (.inl (by rw [Nat.mul_succ] at hwn; omega)), ih]
        simp [h, Nat.lt_succ_of_lt h]
      · rw [getBits_putBits_same _ _ _ _ (by omega), hwidth]
        simp [hp]
      · have hwn : w * (n + 1) ≤ w * j := Nat.mul_le_mul_left w h
        rw [getBits_putBits_ne _ _ _ _ _ _ (by omega) (.inr (by rw [Nat.mul_succ] at hwn; omega)), ih]
        simp [show ¬ j < n by omega, show ¬ j < n + 1 by omega]
    · rw [if_neg hp, ih]
      by_cases h : j = n
      · simp [h, hp]
      · simp [show j < n + 1 ↔ j < n by omega]

/-- The fields written lie below bit w·m, so a value of that width keeps it. -/
theorem putFields_lt {w m n : Nat} (hw : 0 < w) (hn : n ≤ m) (p : Nat → Bool) (x : Nat → Nat) {v : Nat} (hv : v < 2 ^ (w * m)) :
    putFields w p x v n < 2 ^ (w * m) := by
  induction n with
  | zero => simpa [putFields] using hv
  | succ n ih =>
    have hwm : w * (n + 1) ≤ w * m := Nat.mul_le_mul_left w hn
    rw [putFields_succ]
    split
    · exact putBits_lt (by omega) (by rw [Nat.mul_succ] at hwm; omega) (ih (by omega))
    · exact ih (by omega)

/-! The lanes of a result. -/

theorem laneU_eq_getBits (v : DWord) (i : Nat) : laneU v i = getBits v.toNat (8 * i + (8 - 1)) (8 * i) := by
  rw [getBits, show 8 * i + (8 - 1) + 1 - 8 * i = 8 by omega]
  rfl

theorem half_eq_getBits (v : DWord) (j : Nat) : v.toNat / 2 ^ (16 * j) % 65536 = getBits v.toNat (16 * j + (16 - 1)) (16 * j) := by
  rw [getBits, show 16 * j + (16 - 1) + 1 - 16 * j = 16 by omega]
  rfl

theorem laneU_lt (v : DWord) (i : Nat) : laneU v i < 256 := Nat.mod_lt _ (by norm_num)

/-- The w-bit form of an integer is its residue. -/
theorem ofS_mod (w : Nat) (i : Int) : ((ofS w i % 2 ^ w : Nat) : Int) = i % 2 ^ w := by
  have hpos : (0 : Int) < 2 ^ w := by positivity
  rw [Int.natCast_emod, ofS, Int.toNat_of_nonneg (Int.emod_nonneg _ hpos.ne')]
  push_cast
  exact Int.emod_emod_of_dvd _ (dvd_refl _)

theorem toNat_mapLanes (d : DWord) (mask : BitVec 8) (f : Nat → Int) :
    (mapLanes d mask f).toNat = putFields 8 mask.getLsbD (fun i => ofS 8 (f i)) d.toNat 8 := by
  rw [mapLanes, BitVec.toNat_ofNat]
  exact Nat.mod_eq_of_lt (putFields_lt (m := 8) (by norm_num) le_rfl _ _ d.isLt)

theorem laneU_mapLanes (d : DWord) (mask : BitVec 8) (f : Nat → Int) {i : Nat} (hi : i < 8) :
    (laneU (mapLanes d mask f) i : Int) = if mask.getLsbD i then f i % 256 else (laneU d i : Int) := by
  rw [laneU_eq_getBits, toNat_mapLanes, getBits_putFields (by norm_num), ← laneU_eq_getBits]
  by_cases h : mask.getLsbD i = true
  · rw [if_pos ⟨hi, h⟩, if_pos h]
    exact ofS_mod 8 (f i)
  · rw [if_neg (by simp [h]), if_neg h]

theorem toNat_mapPairs (d : DWord) (mask : BitVec 8) (f : Nat → Int → Int) :
    (mapPairs d mask f).toNat = putFields 16 (fun j => mask.getLsbD (2 * j) || mask.getLsbD (2 * j + 1))
      (fun j => ofS 16 (f j (toS 16 (d.toNat / 2 ^ (16 * j) % 65536)))) d.toNat 4 := by
  rw [mapPairs, BitVec.toNat_ofNat]
  exact Nat.mod_eq_of_lt (putFields_lt (m := 4) (by norm_num) le_rfl _ _ d.isLt)

theorem half_mapPairs (d : DWord) (mask : BitVec 8) (f : Nat → Int → Int) {j : Nat} (hj : j < 4) :
    (((mapPairs d mask f).toNat / 2 ^ (16 * j) % 65536 : Nat) : Int) =
      if mask.getLsbD (2 * j) = true ∨ mask.getLsbD (2 * j + 1) = true then f j (toS 16 (d.toNat / 2 ^ (16 * j) % 65536)) % 65536
      else ((d.toNat / 2 ^ (16 * j) % 65536 : Nat) : Int) := by
  rw [half_eq_getBits, toNat_mapPairs, getBits_putFields (by norm_num), ← half_eq_getBits]
  by_cases h : mask.getLsbD (2 * j) = true ∨ mask.getLsbD (2 * j + 1) = true
  · rw [if_pos ⟨hj, by simpa using h⟩, if_pos h]
    exact ofS_mod 16 _
  · rw [if_neg (by simpa [hj] using h), if_neg h]

/-! Signed readings and limits. -/

/-- A byte read signed. -/
def byteS (n : Nat) : Int := if n < 128 then n else (n : Int) - 256

/-- A 16-bit lane read signed. -/
def halfS (n : Nat) : Int := if n < 32768 then n else (n : Int) - 65536

theorem toS_eight (n : Nat) : toS 8 n = byteS n := by
  simp only [toS, byteS, show 2 * n < 2 ^ 8 ↔ n < 128 by omega]
  norm_num

theorem toS_sixteen (n : Nat) : toS 16 n = halfS n := by
  simp only [toS, halfS, show 2 * n < 2 ^ 16 ↔ n < 32768 by omega]
  norm_num

theorem laneS_eq (v : DWord) (i : Nat) : laneS v i = byteS (laneU v i) := toS_eight _

theorem clampI_eq_max_min {lo hi : Int} (i : Int) (h : lo ≤ hi) : clampI lo hi i = max lo (min hi i) := by
  unfold clampI
  split
  · omega
  · split <;> omega

/-! From the command to the lanes of its result. -/

/-- R203: the lanes of gd that the command c of engine e leaves: f of the lanes of ga, gb and gd, or the old lane where the mask bit is 0. -/
def LaneResult (c : Instr) (e gd ga gb : Nat) (mask : BitVec 8) (f : (a b d : Nat) → Int) : Prop :=
  ∃ g : (a b d : DWord) → DWord, Computes c e gd 1 (fun x => g (x.r ga) (x.r gb) (x.r gd)) ∧
    ∀ a b d i, i < 8 → (laneU (g a b d) i : Int) =
      if mask.getLsbD i then f (laneU a i) (laneU b i) (laneU d i) % 256 else (laneU d i : Int)

theorem laneResult_of_exec {c : Instr} {e gd ga gb : Nat} {mask : BitVec 8} {f : (a b d : Nat) → Int} {F : EngSt → Nat → Int}
    (hc : ∀ s, exec c s = s.on fun d => d.compute e gd 1 fun x => mapLanes (x.r gd) mask (F x))
    (hF : ∀ x i, F x i = f (laneU (x.r ga) i) (laneU (x.r gb) i) (laneU (x.r gd) i) := by exact fun _ _ => rfl)
    (hpc : ∀ (x : EngSt) pc, F { x with lastPc := pc } = F x := by exact fun _ _ => rfl) :
    LaneResult c e gd ga gb mask f :=
  ⟨fun a b d => mapLanes d mask fun i => f (laneU a i) (laneU b i) (laneU d i),
    computes_of_exec hc (fun x => congrArg (mapLanes (x.r gd) mask) (funext (hF x)))
      fun x pc => congrArg (mapLanes (x.r gd) mask) (hpc x pc),
    fun _ _ d _ hi => laneU_mapLanes d mask _ hi⟩

/-- R204: the 16-bit lanes of gd that the command c of engine e leaves: f of the old lane read signed and the sum of the unmasked lane
products under the readings ra and rb, or the old lane where both mask bits are 0. -/
def PairResult (c : Instr) (e gd ga gb : Nat) (mask : BitVec 8) (ra rb : Nat → Int) (f : (h p : Int) → Int) : Prop :=
  ∃ g : (a b d : DWord) → DWord, Computes c e gd 2 (fun x => g (x.r ga) (x.r gb) (x.r gd)) ∧
    ∀ a b d j, j < 4 → (((g a b d).toNat / 2 ^ (16 * j) % 65536 : Nat) : Int) =
      if mask.getLsbD (2 * j) = true ∨ mask.getLsbD (2 * j + 1) = true then
        f (halfS (d.toNat / 2 ^ (16 * j) % 65536))
          (pairProduct (fun v i => ra (laneU v i)) (fun v i => rb (laneU v i)) a b mask j) % 65536
      else ((d.toNat / 2 ^ (16 * j) % 65536 : Nat) : Int)

theorem pairResult_of_exec {c : Instr} {e gd ga gb : Nat} {mask : BitVec 8} {ra rb : Nat → Int} {f : (h p : Int) → Int}
    {la lb : DWord → Nat → Int} {F : Int → Int → Int}
    (hc : ∀ s, exec c s = s.on fun d => d.compute e gd 2 fun x =>
      mapPairs (x.r gd) mask fun j h => F h (pairProduct la lb (x.r ga) (x.r gb) mask j))
    (ha : ∀ v i, la v i = ra (laneU v i)) (hb : ∀ v i, lb v i = rb (laneU v i)) (hF : ∀ h p, F h p = f h p) :
    PairResult c e gd ga gb mask ra rb f := by
  obtain rfl : la = fun v i => ra (laneU v i) := funext fun v => funext (ha v)
  obtain rfl : lb = fun v i => rb (laneU v i) := funext fun v => funext (hb v)
  obtain rfl : F = f := funext fun h => funext (hF h)
  refine ⟨fun a b d => mapPairs d mask fun j h => F h (pairProduct _ _ a b mask j), computes_of_exec hc, fun a b d j hj => ?_⟩
  rw [half_mapPairs d mask _ hj, toS_sixteen]

theorem sumAbs_eq_sum (a b : DWord) (mask : BitVec 8) : sumAbs a b mask =
    ((List.range 8).map fun i => if mask.getLsbD i then ((laneU a i : Int) - laneU b i).natAbs else 0).sum := by
  rw [sumAbs, List.sum_eq_foldl, List.foldl_map]
  congr 1
  funext n i
  split <;> rfl

end Sys2Proof.Machine

open Sys2Proof.Machine

/-- Settles O4: a byte-lane instruction writes the unmasked lanes of gd and no other (`laneU_mapLanes`), a pair product the 16-bit lanes
with a mask bit set (`half_mapPairs`); the value of each lane is the one stated. -/
theorem byteLanes : Obligations.ByteLanes := by
  refine ⟨?lanes, fun e gd ga gb mask => ⟨?sad, ?pairs⟩⟩
  case lanes =>
    intro e gd ga gb mask Lanes sg
    have lanes {c f} : LaneResult c e gd ga gb mask f → Lanes c f := id
    clear_value Lanes
    exact ⟨lanes <| laneResult_of_exec fun _ => rfl,
      lanes <| laneResult_of_exec fun _ => rfl,
      lanes <| laneResult_of_exec (fun _ => rfl) fun x i => by rw [clampI_eq_max_min _ (by norm_num), laneS_eq, laneS_eq]; rfl,
      lanes <| laneResult_of_exec (fun _ => rfl) fun x i => by rw [clampI_eq_max_min _ (by norm_num), laneS_eq, laneS_eq]; rfl,
      lanes <| laneResult_of_exec (fun _ => rfl) fun x i => by rw [clampI_eq_max_min _ (by norm_num), max_eq_right (by omega)],
      lanes <| laneResult_of_exec (fun _ => rfl) fun x i => by
        have ha := laneU_lt (x.r ga) i
        rw [clampI_eq_max_min _ (by norm_num), min_eq_right (by omega)],
      lanes <| laneResult_of_exec (fun _ => rfl) fun x i => by push_cast; rfl,
      lanes <| laneResult_of_exec (fun _ => rfl) fun x i => by omega,
      lanes <| laneResult_of_exec fun _ => rfl,
      lanes <| laneResult_of_exec fun _ => rfl,
      lanes <| laneResult_of_exec (fun _ => rfl) fun x i => by rw [laneS_eq, laneS_eq]; rfl,
      lanes <| laneResult_of_exec (fun _ => rfl) fun x i => by rw [laneS_eq, laneS_eq]; rfl,
      lanes <| laneResult_of_exec fun _ => rfl,
      lanes <| laneResult_of_exec fun _ => rfl,
      lanes <| laneResult_of_exec fun _ => rfl⟩
  case sad =>
    exact computes_of_exec (fun _ => rfl) fun x => congrArg (x.r gd + BitVec.ofNat 64 ·) (sumAbs_eq_sum (x.r ga) (x.r gb) mask)
  case pairs =>
    intro sg sh pair half Pairs un
    have pairs {c ra rb f} : PairResult c e gd ga gb mask ra rb f → Pairs c ra rb f := id
    clear_value Pairs
    have unsigned : ∀ v i, laneUI v i = laneU v i := fun _ _ => rfl
    exact ⟨pairs <| pairResult_of_exec (F := fun h p => h + p) (fun _ => rfl) unsigned unsigned fun _ _ => rfl,
      pairs <| pairResult_of_exec (F := fun h p => h + p) (fun _ => rfl) laneS_eq laneS_eq fun _ _ => rfl,
      pairs <| pairResult_of_exec (F := fun h p => h + p) (fun _ => rfl) laneS_eq unsigned fun _ _ => rfl,
      pairs <| pairResult_of_exec (F := fun h p => clampI (-32768) 32767 (h + p)) (fun _ => rfl) laneS_eq laneS_eq
        fun h p => clampI_eq_max_min (h + p) (by norm_num),
      pairs <| pairResult_of_exec (F := fun _ p => p) (fun _ => rfl) unsigned unsigned fun _ _ => rfl,
      pairs <| pairResult_of_exec (F := fun _ p => p) (fun _ => rfl) laneS_eq laneS_eq fun _ _ => rfl⟩

end

section
/-! Branches and jumps (spec/07, R195, R207): where they go, and the entry a bad target makes. -/

open Sys2Proof

namespace Sys2Proof.Machine

theorem goodTarget_iff (t : DWord) : goodTarget t = true ↔ GoodPc t := by simp [goodTarget, GoodPc]

/-! The part while an instruction runs. -/

/-- Engine x while its instruction runs: E_PC at the pc. -/
def EngSt.issued (x : EngSt) : EngSt := { x with lastPc := x.pc }

/-- The part while engine e's instruction runs. -/
def Dev.issued (d : Dev) (e : Nat) : Dev := d.onE e fun _ => (d.e e).issued

@[simp] theorem Dev.e_issued (d : Dev) (e : Nat) : (d.issued e).e e = (d.e e).issued := Dev.e_setE_same ..

theorem makes_of_issue {c : Instr} {s : State} {e : Nat} {g : Nat → Dev → Dev} (hs : s.dev.canIssue e)
    (hc : exec c s = s.on fun d => d.issue e g) : Makes c s (g (s.dev.issueAt e) (s.dev.issued e)) := by
  rw [Makes, hc, State.on, Dev.issue_eq hs]
  rfl

/-- A change of the engine while its instruction runs leaves one write of the engine. -/
theorem Dev.onE_issued {d : Dev} {e : Nat} (hs : d.canIssue e) (f : EngSt → EngSt) :
    (d.issued e).onE e f = d.setE e (f (d.e e).issued) :=
  Dev.onE_onE _ _ _ _ (by simp [EngSt.issued, hs.1])

theorem Dev.entry_issued {d : Dev} {e : Nat} (hs : d.canIssue e) (y : EngSt) : (d.issued e).entry e y = d.entry e y :=
  Dev.setE_setE (d.bump (Ctr.cluster (e / 8) 8)) e y (EngSt.ne_reset (by simp [EngSt.issued, hs.1]))

/-- R210 to R212: an exception of the instruction that runs, with EXL = 0. -/
theorem Dev.faulting_issued {d : Dev} {e : Nat} (hs : d.canIssue e) (hx : (d.e e).exl = false) (vec det : Nat) (ev : DWord) (i : Nat) :
    (d.issued e).faulting e vec det ev i = d.entry e ((d.e e).issued.entered vec det ((d.e e).pc.setWidth 64) ev i) := by
  rw [Dev.faulting, Dev.except_eq _ _ _ _ _ _ _ (by simp [EngSt.issued, hs.1]) (by simpa [EngSt.issued] using hx),
    Dev.entry_issued hs, Dev.pc64, Dev.e_issued]
  rfl

/-! From the command to where it goes. -/

/-- R207: in s the command c of engine e goes to t in three E-cycles and leaves the engine's record y; where t is a bad target and EXL = 0
it takes ADDRESS instead. -/
def Jumps (c : Instr) (s : State) (e : Nat) (t : DWord) (y : EngSt) : Prop :=
  (GoodPc t → Makes c s (s.dev.setE e ((s.dev.e e).done y (s.dev.issueAt e) 3 (t.setWidth 32)))) ∧
  (¬ GoodPc t → (s.dev.e e).exl = false →
    Makes c s (s.dev.entry e ((s.dev.e e).issued.entered 6 4 ((s.dev.e e).pc.setWidth 64) t (s.dev.issueAt e))))

section Jumps
variable {c : Instr} {s : State} {e : Nat} (hs : s.dev.canIssue e)
include hs

/-- The two ways of a jump to t that changes the engine's record to y. -/
theorem jumps_of_makes {t : DWord} {f : EngSt → EngSt} {y : EngSt} (h : Makes c s ((s.dev.issued e).jumpTo e (s.dev.issueAt e) 3 t f))
    (hf : f (s.dev.e e).issued = { y with lastPc := (s.dev.e e).pc }) : Jumps c s e t y := by
  unfold Dev.jumpTo at h
  refine ⟨fun ht => ?_, fun ht hx => ?_⟩
  · rw [if_pos ((goodTarget_iff t).2 ht), Dev.onE_issued hs, hf] at h
    exact h
  · rw [if_neg (ht ∘ (goodTarget_iff t).1), Dev.faulting_issued hs hx] at h
    exact h

/-- An unconditional jump: the target and the change are functions of the engine before it. -/
theorem jumps_of_exec {t : EngSt → DWord} {f : EngSt → EngSt} {u : DWord} {y : EngSt}
    (hc : exec c s = s.on fun d => d.issue e fun i d => d.jumpTo e i 3 (t (d.e e)) f)
    (ht : t (s.dev.e e).issued = u) (hf : f (s.dev.e e).issued = { y with lastPc := (s.dev.e e).pc }) : Jumps c s e u y := by
  have h := makes_of_issue hs hc
  rw [Dev.e_issued, ht] at h
  exact jumps_of_makes hs h hf

/-- A branch whose condition holds is a jump. -/
theorem jumps_of_branch {p : EngSt → Bool} {imm : BitVec 16} (hc : exec c s = s.on fun d => d.branch e p imm)
    (hp : p (s.dev.e e).issued = true) : Jumps c s e (relTarget (s.dev.e e) (sext16 imm)) (s.dev.e e) := by
  have h := makes_of_issue hs hc
  rw [Dev.e_issued, if_pos hp] at h
  exact jumps_of_makes hs h rfl

/-- A branch whose condition fails goes on in one E-cycle. -/
theorem falls_of_branch {p : EngSt → Bool} {imm : BitVec 16} (hc : exec c s = s.on fun d => d.branch e p imm)
    (hp : p (s.dev.e e).issued = false) :
    Makes c s (s.dev.setE e ((s.dev.e e).done (s.dev.e e) (s.dev.issueAt e) 1 ((s.dev.e e).pc + 4))) := by
  have h := makes_of_issue hs hc
  rw [Dev.e_issued, if_neg (by simp [hp]), Dev.onE_issued hs] at h
  exact h

end Jumps

/-- R207: the link register takes the address of the next word. -/
theorem EngSt.link_issued (x : EngSt) (n : Nat) :
    x.issued.w n ((x.issued.pc + 4).setWidth 64) = { x.w n ((x.pc + 4).setWidth 64) with lastPc := x.pc } :=
  EngSt.w_lastPc ..

end Sys2Proof.Machine

open Sys2Proof.Machine

/-- Settles O9: the jumps are one rule (`jumps_of_exec`), a taken branch is a jump, and the operand's value decides which branch is taken. -/
theorem jumpResult : Obligations.JumpResult := by
  intro e ga gd imm off s hs x i rel link Goes Falls
  have goes {c t y} : Jumps c s e t y → Goes c t y := id
  clear_value Goes
  exact ⟨goes (jumps_of_exec hs (t := fun x => relTarget x (off.signExtend 64)) rfl rfl rfl),
    goes (jumps_of_exec hs (t := fun x => relTarget x (off.signExtend 64)) rfl rfl (EngSt.link_issued x 31)),
    goes (jumps_of_exec hs (t := fun x => x.r ga) rfl rfl rfl),
    goes (jumps_of_exec hs (t := fun x => x.r ga) rfl rfl (EngSt.link_issued x gd)),
    fun h => ⟨goes (jumps_of_branch hs rfl (beq_iff_eq.2 h)), falls_of_branch hs rfl (bne_eq_false_iff_eq.2 h)⟩,
    fun h => ⟨goes (jumps_of_branch hs rfl (bne_iff_ne.2 h)), falls_of_branch hs rfl (beq_eq_false_iff_ne.2 h)⟩⟩

end

section
/-! The step: the queue, the E-cycle of an empty queue, and what a step can do to the fuses and the NV store (spec/13, R340 to R355). -/

open Sys2Proof

namespace Sys2Proof.Machine

/-! The E-cycle of an empty queue. -/

/-- What every step of a fold leaves as it was, the fold leaves as it was. -/
theorem foldl_keeps {α β γ : Type} (p : α → γ) {f : α → β → α} (h : ∀ a b, p (f a b) = p a) (l : List β) (a : α) :
    p (l.foldl f a) = p a := by
  induction l generalizing a with
  | nil => rfl
  | cons b t ih => exact (ih _).trans (h a b)

theorem Dev.up_withTime (d : Dev) (x : TimeSt) : ({ d with time := x } : Dev).up = d.up := rfl

theorem Dev.up_advanceTime (d : Dev) : d.advanceTime.up = d.up := by
  unfold Dev.advanceTime
  extract_lets num q exact
  split
  rename_i n x hx
  have hd : ((n, x) : Nat × Dev).2.up = d.up := by
    rw [← hx, apply_ite Prod.snd, apply_ite Dev.up]
    exact ite_self _
  rw [Dev.up_withTime]
  exact hd

theorem Dev.up_putTime (d : Dev) (sec ps frac : Nat) : (d.putTime sec ps frac).up = d.up := rfl

theorem Dev.up_stepTime (d : Dev) (i : Int) : (d.stepTime i).up = d.up := by rw [Dev.stepTime, Dev.up_putTime]

theorem Dev.up_loadTime (d : Dev) : d.loadTime.up = d.up := by
  unfold Dev.loadTime
  split
  · simp -implicitDefEqProofs only [Dev.up_set, Dev.up_putTime, apply_ite Dev.up, ite_self]
  · rfl

theorem Dev.up_tickTime (d : Dev) : d.tickTime.up = d.up := by
  unfold Dev.tickTime
  extract_lets d1
  have h1 : d1.up = d.up := d.up_advanceTime
  split
  · rw [Dev.up_loadTime, h1]
  · split
    · rw [Dev.up_withTime, Dev.up_stepTime, h1]
    · exact h1

theorem Dev.up_tickCluster (d : Dev) (c : Nat) : (d.tickCluster c).up = d.up := by
  unfold Dev.tickCluster
  split <;> rfl

theorem Dev.up_acctTick (d : Dev) (p : Nat) : (d.acctTick p).up = d.up := by
  unfold Dev.acctTick
  dsimp only
  split
  · split <;> simp -implicitDefEqProofs
  · split <;> simp -implicitDefEqProofs
  · split <;> simp -implicitDefEqProofs
  · rfl

/-- One E-cycle of the part is counted. -/
theorem Dev.up_tick (d : Dev) : d.tick.up = d.up + 1 := by
  have h : ((List.range 12).foldl Dev.tickCluster { d.tickTime with up := d.tickTime.up + 1 }).up = d.up + 1 := by
    rw [foldl_keeps Dev.up Dev.up_tickCluster, Dev.up_tickTime]
  rw [Dev.tick, Dev.tickAcct]
  split
  · exact h
  · exact (foldl_keeps Dev.up Dev.up_acctTick _ _).trans h

theorem up_nvStore (d : Dev) (v : Vault) (x : DWord) : (nvStore d v x).1.up = d.up := by
  unfold nvStore
  dsimp only
  split <;> simp -implicitDefEqProofs [Dev.nvBusy, Dev.incW]

theorem up_nvResume (d : Dev) (v : Vault) : (nvResume d v).1.up = d.up := by
  unfold nvResume
  split
  · split
    · rfl
    · exact up_nvStore _ _ _
  · rfl

/-! What one command may do to the fuses and the NV store. -/

/-- From v to w a command has kept the fuses lawful, undone none, and left the life-cycle state or moved it to the pending one. -/
def Vault.Forward (v w : Vault) : Prop := v.Lawful → w.Lawful ∧ w.After v ∧ (w.life = v.life ∨ v.next = some w.life)

theorem Vault.After.refl (v : Vault) : v.After v := ⟨fun _ _ h => h, fun _ h => h, fun _ h => h, fun _ h => h, le_rfl, le_rfl, id⟩

theorem Vault.Forward.refl (v : Vault) : v.Forward v := fun h => ⟨h, .refl v, .inl rfl⟩

/-- The NV store written after a change of the fuses. -/
theorem Vault.Forward.store {v w : Vault} (h : v.Forward w) {t : Store} (ht : w.nv.wf = true → t.wf = true) : v.Forward { w with nv := t } := by
  intro hv
  obtain ⟨hl, ha, hm⟩ := h hv
  exact ⟨{ hl with nv := ht hl.nv }, { ha with }, hm⟩

/-- Words written one after the other keep the store canonical. -/
theorem Store.wf_foldl_putWord {s : Store} (h : s.wf = true) (a x : Nat → Nat) (l : List Nat) :
    (l.foldl (fun t i => t.putWord (a i) (x i)) s).wf = true := by
  induction l generalizing s with
  | nil => exact h
  | cons i t ih => exact ih (Store.wf_putWord h _ _)

/-- R353: a record appended after a change of the fuses. -/
theorem Vault.Forward.append {v w : Vault} (h : v.Forward w) (d : Dev) (area type : Nat) (data : List Byte) :
    v.Forward (nvAppend d w area type data).2 :=
  h.store fun hw => Store.wf_foldl_putWord hw _ _ _

/-! The shapes of the commands that reach the fuses. -/

theorem forward_serveV {d : Dev} {v : Vault} {e ch cmd : Nat} {f : Nat → Dev → Vault → (Dev × Vault) × Option (Nat × Nat)}
    (h : ∀ op d, v.Forward (f op d v).1.2) : v.Forward (d.serveV v e ch cmd f).2 := by
  unfold Dev.serveV
  split
  · exact .refl v
  · split
    · exact .refl v
    · have := h (‹Req›).op.toNat d
      split
      all_goals
        rename_i hf
        rw [hf] at this
        exact this

theorem forward_serveBlockV {d : Dev} {v : Vault} {e ch cmd : Nat} {n : Nat → Nat}
    {f : List Byte → Nat → Dev → Vault → (Dev × Vault) × Option (Nat × Nat)} (h : ∀ l op d, v.Forward (f l op d v).1.2) :
    v.Forward (d.serveBlockV v e ch cmd n f).2 := by
  unfold Dev.serveBlockV
  refine forward_serveV fun op d => ?_
  dsimp only
  split
  · exact .refl v
  · exact h _ _ _

theorem forward_gateV {d : Dev} {v : Vault} {src : Src} {a : Nat} {f : Dev → Vault → Dev × Vault} (h : v.Forward (f d v).2) :
    v.Forward (d.gateV v src a f).2 := by
  unfold Dev.gateV
  split
  · exact h
  · exact .refl v

/-! The NV store. -/

theorem forward_nvChRead (d : Dev) (v : Vault) (e : Nat) : v.Forward (nvChRead d v e).2 :=
  forward_serveV fun _ _ => .refl v

theorem forward_nvChWrite (d : Dev) (v : Vault) (e : Nat) : v.Forward (nvChWrite d v e).2 := by
  refine forward_serveBlockV fun l op d => ?_
  dsimp only
  split
  · exact .refl v
  · exact (Vault.Forward.refl v).store fun hw => Store.wf_foldl_putWord hw _ _ _

theorem forward_nvChRecord (d : Dev) (v : Vault) (e : Nat) : v.Forward (nvChRecord d v e).2 := by
  refine forward_serveBlockV fun l op d => ?_
  dsimp only
  split
  · exact (Vault.Forward.refl v).append _ _ _ _
  · exact .refl v

theorem forward_nvStore (d : Dev) (v : Vault) (x : DWord) : v.Forward (nvStore d v x).2 := by
  unfold nvStore
  dsimp only
  split
  · exact (Vault.Forward.refl v).store fun hw => Store.wf_putWord hw _ _
  · exact .refl v

theorem forward_nvDataHiWrite (d : Dev) (v : Vault) (x : Nat) : v.Forward (nvDataHiWrite d v x).2 := by
  unfold nvDataHiWrite
  dsimp only
  split
  · exact .refl v
  · exact forward_nvStore _ _ _

theorem forward_nvResume (d : Dev) (v : Vault) : v.Forward (nvResume d v).2 := by
  unfold nvResume
  split
  · split
    · exact .refl v
    · exact forward_nvStore _ _ _
  · exact .refl v

theorem forward_thermTrip (d : Dev) (v : Vault) : v.Forward (thermTrip d v).2 := (Vault.Forward.refl v).append _ _ _ _

theorem forward_sentinels (d : Dev) (v : Vault) (r : List Int) : v.Forward (sentinels d v r).2 := by
  unfold sentinels
  extract_lets
  split
  · exact forward_thermTrip _ v
  · exact .refl v

theorem forward_autoRecord (d : Dev) (v : Vault) : v.Forward (autoRecord d v).2 := by
  unfold autoRecord
  split
  · exact (Vault.Forward.refl v).append _ _ _ _
  · exact .refl v

theorem forward_dbgChecked (d : Dev) (v : Vault) : v.Forward (dbgChecked d v).2 := by
  unfold dbgChecked
  split
  · exact .refl v
  · dsimp only
    split
    · exact (Vault.Forward.refl v).append _ _ _ _
    · split
      · exact .refl v
      · split
        · exact (Vault.Forward.refl v).append _ _ _ _
        · exact .refl v

theorem forward_secRrCheck (d : Dev) (v : Vault) (e : Nat) : v.Forward (secRrCheck d v e).2 := by
  refine forward_serveBlockV fun l op d => ?_
  split
  · exact .refl v
  · exact (Vault.Forward.refl v).store fun hw => Store.wf_putWord hw _ _

/-! The life cycle (R340 to R343). -/

theorem lifeEdge_le {a n : Nat} (h : lifeEdge a n) : a ≤ n ∧ n ≤ 5 := by
  unfold lifeEdge at h
  split at h
  case h_6 => exact h.elim
  all_goals omega

/-- R341: the slots that authorise a transition are those of one the life cycle has. -/
theorem lifeEdge_of_lcSlots {a n k : Nat} (h : k ∈ lcSlots a n) : lifeEdge a n := by
  unfold lcSlots at h
  split at h
  · rename_i h5
    obtain ⟨rfl, h1, h4⟩ := h5
    interval_cases a <;> simp [lifeEdge]
  · split at h
    · rename_i hc
      simp [hc, lifeEdge]
    · split at h
      · rename_i hc
        simp [hc, lifeEdge]
      · split at h
        · rename_i hc
          simp [hc, lifeEdge]
        · split at h
          · rename_i hc
            simp [hc, lifeEdge]
          · simp at h

/-- R342: an accepted transition blows its fuses and logs it. -/
theorem forward_lcAdvance (d : Dev) {v : Vault} {n : Nat} (slot : Nat) (h : lifeEdge v.life n) : v.Forward (lcAdvance d v n slot).2 := by
  have hn : v.Forward { v with next := some n } := fun hv =>
    ⟨{ hv with next := fun m hm => by cases hm; exact h }, { Vault.After.refl v with }, .inl rfl⟩
  exact hn.append _ _ _ _

theorem forward_secAdvance (d : Dev) (v : Vault) (e : Nat) : v.Forward (secAdvance d v e).2 := by
  refine forward_serveBlockV fun l op d => ?_
  split
  · rename_i h
    simp only [Vault.tokenOk, Bool.and_eq_true, List.contains_iff_mem] at h
    exact forward_lcAdvance d _ (lifeEdge_of_lcSlots h.1.1.1.1.1.1.2)
  · exact .refl v

theorem forward_lcCtrl (d : Dev) (v : Vault) (src : Src) (x : Nat) : v.Forward (lcCtrl d v src x).2 := by
  unfold lcCtrl
  split
  · rename_i h
    exact forward_lcAdvance d _ (by rw [h.2.2.1]; rfl)
  · exact .refl v

/-- R341: LC_TO_MFG. -/
theorem forward_lcToManufacture (d : Dev) (v : Vault) :
    v.Forward (if d.get R.DBG_STATUS.LEVEL = 2 then lcCtrl d v .dbg 1 else (d, v)).2 := by
  split
  · exact forward_lcCtrl _ _ _ _
  · exact .refl v

/-- R342: a pending transition takes effect. -/
theorem forward_applyLife (v : Vault) : v.Forward v.applyLife.1 := by
  intro hv
  cases hn : v.next with
  | none =>
    have e : v.applyLife.1 = { v with next := none } := by simp [Vault.applyLife, hn]
    rw [e]
    exact ⟨{ hv with next := by simp }, { Vault.After.refl v with }, .inl rfl⟩
  | some n =>
    have e : v.applyLife.1 = { v with life := n, next := none } := by simp [Vault.applyLife, hn]
    obtain ⟨hle, h5⟩ := lifeEdge_le (hv.next n hn)
    rw [e]
    exact ⟨{ hv with life := h5, next := by simp }, { Vault.After.refl v with life := hle }, .inr rfl⟩

/-- R343: the destruction of the owner's secrets. -/
theorem forward_destroy (v : Vault) : v.Forward v.destroy := by
  intro hv
  unfold Vault.destroy
  split
  · refine ⟨{ hv with slots := fun k hk => ?_, nv := Store.wf_clear (Store.wf_clear hv.nv _ _) _ _ },
      { Vault.After.refl v with revoked := fun k hk => List.mem_append_left _ hk, dead := fun _ => rfl }, .inl rfl⟩
    rcases List.mem_append.1 hk with hk | hk
    · exact hv.slots k hk
    · have hk' := List.mem_of_mem_filter hk
      split at hk' <;> simp at hk' <;> omega
  · exact ⟨hv, .refl v, .inl rfl⟩

/-! Fuses (R344, R345, R350). -/

theorem policyOf_lawful (x : Nat) : policyOf x < 32 ∧ getBits (policyOf x) 3 1 ≤ 3 := by
  unfold policyOf
  refine ⟨putBits_lt (n := 5) (by omega) (by omega) (Nat.mod_lt _ (by omega)), ?_⟩
  rw [getBits_putBits_same _ _ _ _ (by omega)]
  exact (Nat.mod_le _ _).trans (min_le_left _ _)

/-- R345: a field that exists names a revocation fuse of a slot that exists. -/
theorem revokeSlot_le {f : Nat} {l : List Nat} (h : fieldStates f = some l) : revokeSlot f ≤ 10 := by
  by_contra hf
  have : fieldStates f = none := by
    unfold revokeSlot at hf
    unfold fieldStates
    simp only [show ¬ f ≤ 0x01 by omega, show ¬ f ≤ 0x07 by omega, show ¬ f = 0x08 by omega, show ¬ (f = 0x09 ∨ f = 0x0A) by omega,
      show ¬ (f = 0x0B ∨ f = 0x0C) by omega, show ¬ f = 0x0D by omega, show ¬ (f = 0x10 ∨ f = 0x11) by omega,
      show ¬ (0x12 ≤ f ∧ f ≤ 0x17) by omega, show ¬ f = 0x18 by omega, show ¬ (f = 0x19 ∨ f = 0x1A) by omega, if_false]
  simp [this] at h

/-- R345: a field is blown only where it exists and is not fused yet. -/
theorem Vault.fusable_of_fuseDetail {v : Vault} {f : Nat} (h : v.fuseDetail f = none) :
    (∃ l, fieldStates f = some l) ∧ v.fused f = false := by
  unfold Vault.fuseDetail at h
  split at h
  · cases h
  · rename_i l hl
    split at h
    · cases h
    · split at h
      · cases h
      · rename_i hf
        exact ⟨⟨l, hl⟩, by simpa using hf⟩

/-- R344, R345: a field that is not fused yet takes its value, and every other keeps its own. -/
theorem forward_blow {v : Vault} {f : Nat} (l : List Byte) (h : v.fuseDetail f = none) : v.Forward (v.blow f l) := by
  obtain ⟨⟨st, hst⟩, hf⟩ := Vault.fusable_of_fuseDetail h
  intro hv
  unfold Vault.fused at hf
  unfold Vault.blow
  split
  · rename_i hc
    rw [if_pos hc] at hf
    refine ⟨{ hv with }, { Vault.After.refl v with key := fun k x hx => ?_ }, .inl rfl⟩
    have hk : f ≠ k := by
      rintro rfl
      rw [hx] at hf
      cases hf
    rw [Vault.key, Tbl.get_set_ne _ _ _ _ hk]
    exact hx
  · rename_i hc1
    rw [if_neg hc1] at hf
    split
    · exact ⟨{ hv with }, { Vault.After.refl v with }, .inl rfl⟩
    · rename_i hc2
      rw [if_neg hc2] at hf
      split
      · rename_i hc
        rw [if_pos hc] at hf
        refine ⟨{ hv with policy := policyOf_lawful _ }, { Vault.After.refl v with policy := fun p hp => ?_ }, .inl rfl⟩
        rw [hp] at hf
        cases hf
      · rename_i hc3
        rw [if_neg hc3] at hf
        split
        · rename_i hc
          rw [if_pos hc] at hf
          refine ⟨{ hv with }, { Vault.After.refl v with serial := fun p hp => ?_ }, .inl rfl⟩
          rw [hp] at hf
          cases hf
        · refine ⟨{ hv with slots := fun k hk => ?_ }, { Vault.After.refl v with revoked := fun k hk => List.mem_append_left _ hk }, .inl rfl⟩
          rcases List.mem_append.1 hk with hk | hk
          · exact hv.slots k hk
          · rw [List.mem_singleton.1 hk]
            exact revokeSlot_le hst

theorem forward_fuseWrite (d : Dev) (v : Vault) (f : Nat) (l : List Byte) : v.Forward (fuseWrite d v f l).1.2 := by
  unfold fuseWrite
  split
  · exact .refl v
  · rename_i h
    exact (forward_blow l h).append _ _ _ _

theorem forward_secFuse (d : Dev) (v : Vault) (e : Nat) : v.Forward (secFuse d v e).2 := by
  refine forward_serveBlockV fun l op d => ?_
  have h := forward_fuseWrite d v (blk l 0 1) (l.drop 16)
  split
  all_goals
    rename_i hx
    rw [hx] at h
    exact h

theorem forward_secRollback (d : Dev) (v : Vault) (e : Nat) : v.Forward (secRollback d v e).2 := by
  refine forward_serveV fun op d => ?_
  dsimp only
  split
  · rename_i h
    have hr : v.Forward { v with rollback := op % 128 } := fun hv =>
      ⟨{ hv with rollback := h.2.1 }, { Vault.After.refl v with rollback := h.1.le }, .inl rfl⟩
    exact hr.append _ _ _ _
  · exact .refl v

/-- R377: spares and repairs are no part of what the invariant speaks of. -/
theorem forward_fuseRepairs (d : Dev) (v : Vault) : v.Forward (fuseRepairs d v).1.2 := by
  have hs : ∀ (l : List Nat) (w : Vault), v.Forward w →
      v.Forward (l.foldl (fun v g => { v with spares := Tbl.set 0 v.spares g (d.get (R.SPARE_STATUS.SLICE g) + 1) }) w) := by
    intro l
    induction l with
    | nil => exact fun _ h => h
    | cons g t ih =>
      refine fun w h => ih _ fun hv => ?_
      obtain ⟨hl, ha, hm⟩ := h hv
      exact ⟨{ hl with }, { ha with }, hm⟩
  intro hv
  obtain ⟨hl, ha, hm⟩ := hs ((List.range 256).filter fun g => d.get (R.SPARE_STATUS.MODE g) == 3 && !d.on (R.SPARE_STATUS.FUSED g)) v (.refl v) hv
  exact ⟨{ hl with }, { ha with }, hm⟩

/-! Resets and start-up. -/

theorem forward_warmReset (d : Dev) (v : Vault) (cause : Nat) : v.Forward (warmReset d v cause).2 := forward_applyLife v

theorem forward_rstCtrl (d : Dev) (v : Vault) (x : Nat) : v.Forward (rstCtrl d v x).2 := by
  unfold rstCtrl
  split
  · exact forward_warmReset _ _ _
  · dsimp only
    split <;> exact .refl v

/-- R394, R397, R398: a gated write of RST_CTRL. -/
theorem forward_rstCtrlWrite (d : Dev) (v : Vault) (src : Src) (x : Nat) :
    v.Forward (d.gateV v src A.RST_CTRL fun d v => rstCtrl d v x).2 := forward_gateV (forward_rstCtrl d v x)

theorem forward_bootRom (d : Dev) (v : Vault) (fl : Flash) (bist : List (Fin 49 × Fin 4 × BistResult)) : v.Forward (bootRom d v fl bist).2 := by
  unfold bootRom
  split
  · exact .refl v
  · dsimp only
    split
    · exact forward_destroy v
    · split
      · exact forward_destroy v
      · split <;> exact forward_destroy v

/-! Register writes and debug commands. -/

/-- R392: of the registers, RST_CTRL, LC_CTRL and NV_DATA_HI reach the fuses and the NV store. -/
theorem forward_busWrite (d : Dev) (v : Vault) (src : Src) (a x : Nat) : v.Forward (busWrite d v src a x).2 := by
  unfold busWrite
  cases RegMap.find a with
  | none =>
    dsimp only
    split <;> exact .refl v
  | some row =>
    dsimp only
    by_cases h1 : a = A.RST_CTRL
    · rw [if_pos h1]
      exact forward_rstCtrl _ _ _
    · rw [if_neg h1]
      by_cases h2 : a = A.LC_CTRL
      · rw [if_pos h2]
        exact forward_lcCtrl _ _ _ _
      · rw [if_neg h2]
        by_cases h3 : a = A.NV_DATA_HI
        · rw [if_pos h3]
          exact forward_nvDataHiWrite _ _ _
        · rw [if_neg h3]
          exact .refl v

theorem forward_regWrite (d : Dev) (v : Vault) (src : Src) (a : Nat) (whole : Bool) (x : Nat) :
    v.Forward (regWrite d v src a whole x).2 := by
  unfold regWrite
  split
  · split
    · exact forward_busWrite _ _ _ _ _
    · exact .refl v
  · exact .refl v

theorem forward_regArrive (d : Dev) (v : Vault) (e : EngId) : v.Forward (regArrive d v e).2 := by
  unfold regArrive
  split
  · exact .refl v
  · split
    · exact .refl v
    · dsimp only
      split
      · exact .refl v
      · split
        · exact .refl v
        · split
          · exact .refl v
          · exact forward_busWrite _ _ _ _ _

/-- R359: a debug command moves the fuses as its effect does. -/
theorem forward_dbgAccess {lv : Nat} {f : Dev → Vault → DbgOut} {v : Vault} (h : ∀ d, v.Forward (f d v).1.2) (d : Dev) :
    v.Forward (dbgAccess lv f d v).2 := by
  have key (d : Dev) : v.Forward (if d.dbgLevel < lv then dbgRet d v dbgDenied else f d v).1.2 := by
    split
    · exact .refl v
    · exact h d
  unfold dbgAccess
  by_cases h0 : d.dbgLevel = 0
  · rw [if_pos h0]
    exact .refl v
  · rw [if_neg h0]
    by_cases hb : d.sec.busy.isNone
    · dsimp only
      rw [if_pos hb]
      exact key _
    · dsimp only
      rw [if_neg hb]
      exact .refl v

theorem forward_dbgRegRead (a : Nat) (d : Dev) (v : Vault) : v.Forward (dbgRegRead a d v).1.2 := by
  unfold dbgRegRead
  split
  · split <;> exact .refl v
  · exact .refl v

theorem forward_dbgRegWrite (a x : Nat) (d : Dev) (v : Vault) : v.Forward (dbgRegWrite a x d v).1.2 := by
  unfold dbgRegWrite
  split
  · split
    · exact .refl v
    · exact forward_busWrite _ _ _ _ _
  · exact .refl v

/-- R359: a command on an engine moves the fuses as its effect does. -/
theorem forward_onSel {sel : Nat} {f : Nat → Dev → Vault → DbgOut} {v : Vault} (h : ∀ e d, v.Forward (f e d v).1.2) (d : Dev) :
    v.Forward (onSel sel f d v).1.2 := by
  unfold onSel
  split
  · exact .refl v
  · split
    · exact .refl v
    · exact h _ _

theorem forward_dbgHalt (sel : Nat) (d : Dev) (v : Vault) : v.Forward (dbgHalt sel d v).1.2 := forward_onSel (fun _ _ => .refl v) d

theorem forward_dbgResume (sel : Nat) (d : Dev) (v : Vault) : v.Forward (dbgResume sel d v).1.2 := forward_onSel (fun _ _ => .refl v) d

theorem forward_dbgStep (sel : Nat) (d : Dev) (v : Vault) : v.Forward (dbgStep sel d v).1.2 := by
  refine forward_onSel (fun e d => ?_) d
  split <;> exact .refl v

theorem forward_dbgEngRead (sel a : Nat) (d : Dev) (v : Vault) : v.Forward (dbgEngRead sel a d v).1.2 := by
  refine forward_onSel (fun e d => ?_) d
  split_ifs <;> exact .refl v

theorem forward_dbgEngWrite (sel a x : Nat) (d : Dev) (v : Vault) : v.Forward (dbgEngWrite sel a x d v).1.2 := by
  refine forward_onSel (fun e d => ?_) d
  dsimp only
  split_ifs <;> exact .refl v

/-- R359: a command on a store word moves the fuses as its effect does. -/
theorem forward_dbgStore {sel a : Nat} {f : Nat → Space → Nat → Dev → Vault → DbgOut} {v : Vault}
    (h : ∀ e sp w d, v.Forward (f e sp w d v).1.2) (d : Dev) : v.Forward (dbgStore sel a f d v).1.2 := by
  refine forward_onSel (fun e d => ?_) d
  dsimp only
  split
  · exact .refl v
  · split
    · exact .refl v
    · exact h _ _ _ _

theorem forward_dbgStoreRead (sel a : Nat) (d : Dev) (v : Vault) : v.Forward (dbgStoreRead sel a d v).1.2 :=
  forward_dbgStore (fun _ _ _ _ => .refl v) d

theorem forward_dbgStoreWrite (sel a x : Nat) (d : Dev) (v : Vault) : v.Forward (dbgStoreWrite sel a x d v).1.2 :=
  forward_dbgStore (fun _ _ _ _ => .refl v) d

/-- R359: a command for BLANK and MANUFACTURE moves the fuses as its effect does. -/
theorem forward_dbgFuse {f : Dev → Vault → DbgOut} {v : Vault} (h : ∀ d, v.Forward (f d v).1.2) (d : Dev) : v.Forward (dbgFuse f d v).1.2 := by
  unfold dbgFuse
  split
  · exact h d
  · exact .refl v

theorem forward_dbgFuseStage (a x : Nat) (d : Dev) (v : Vault) : v.Forward (dbgFuseStage a x d v).1.2 := by
  refine forward_dbgFuse (fun d => ?_) d
  split <;> exact .refl v

theorem forward_dbgFuseWrite (a : Nat) (d : Dev) (v : Vault) : v.Forward (dbgFuseWrite a d v).1.2 := by
  refine forward_dbgFuse (fun d => ?_) d
  have h := forward_fuseWrite d v (a % 256) (d.sec.stage.flatMap fun w => bytesLE w.toNat 4)
  split
  all_goals
    rename_i hx
    rw [hx] at h
    exact h

theorem forward_fuseRepairsReply (d : Dev) (v : Vault) (e : Nat) :
    v.Forward (d.serveV v e 0x203 2 fun _ d v =>
      if v.life = 0 ∨ v.life = 1 then
        let (x, n) := fuseRepairs d v
        (x, some (stOK, n))
      else repV d v stRefused 1).2 := by
  refine forward_serveV fun op d => ?_
  split
  · exact forward_fuseRepairs d v
  · exact .refl v

/-! Every command. -/

/-- A command on the part and the fuses moves them forward as its effect does. -/
theorem forward_onV {c : Instr} {s : State} {f : Dev → Vault → Dev × Vault} (h : ∀ (d : Dev) (v : Vault), v.Forward (f d v).2)
    (hc : exec c s = s.onV f) : ∃ d w, exec c s = .next { s with dev := d, vault := w } ∧ s.vault.Forward w := ⟨_, _, hc.trans rfl, h _ _⟩

/-- And so does a debug command. -/
theorem forward_debug {c : Instr} {s : State} {lv : Nat} {f : Dev → Vault → DbgOut} (h : ∀ (d : Dev) (v : Vault), v.Forward (f d v).1.2)
    (hc : exec c s = s.onV (dbgAccess lv f)) : ∃ d w, exec c s = .next { s with dev := d, vault := w } ∧ s.vault.Forward w :=
  forward_onV (fun d v => forward_dbgAccess (h · v) d) hc

/-- A command completes, keeps the queue, and moves the fuses forward only. -/
theorem exec_forward (c : Instr) (s : State) : ∃ d w, exec c s = .next { s with dev := d, vault := w } ∧ s.vault.Forward w := by
  cases c with
  | nvRead e => exact forward_onV (f := fun d v => nvChRead d v e) (fun _ _ => forward_nvChRead _ _ _) rfl
  | nvWrite e => exact forward_onV (f := fun d v => nvChWrite d v e) (fun _ _ => forward_nvChWrite _ _ _) rfl
  | nvRecord e => exact forward_onV (f := fun d v => nvChRecord d v e) (fun _ _ => forward_nvChRecord _ _ _) rfl
  | nvDataHiWrite val => exact forward_onV (f := fun d v => nvDataHiWrite d v val.toNat) (fun _ _ => forward_nvDataHiWrite _ _ _) rfl
  | fuseRepairs e => exact forward_onV (fun _ _ => forward_fuseRepairsReply _ _ _) rfl
  | sentinelRead r0 r1 r2 r3 => exact forward_onV (f := fun d v => sentinels d v [r0, r1, r2, r3]) (fun _ _ => forward_sentinels _ _ _) rfl
  | autoNvRecord => exact forward_onV (f := autoRecord) (fun _ _ => forward_autoRecord _ _) rfl
  | lcToManufacture => exact forward_onV (fun _ _ => forward_lcToManufacture _ _) rfl
  | rrCheck e => exact forward_onV (f := fun d v => secRrCheck d v e) (fun _ _ => forward_secRrCheck _ _ _) rfl
  | lcAdvance e => exact forward_onV (f := fun d v => secAdvance d v e) (fun _ _ => forward_secAdvance _ _ _) rfl
  | rollbackSet e => exact forward_onV (f := fun d v => secRollback d v e) (fun _ _ => forward_secRollback _ _ _) rfl
  | fuseWrite e => exact forward_onV (f := fun d v => secFuse d v e) (fun _ _ => forward_secFuse _ _ _) rfl
  | secretDestruction => exact forward_onV (f := fun d v => (d, v.destroy)) (fun _ _ => forward_destroy _) rfl
  | coldReset => exact forward_onV (f := coldReset) (fun _ _ => forward_applyLife _) rfl
  | warmReset w =>
    cases w with
    | none => exact forward_onV (f := fun d v => warmReset d v 1) (fun _ _ => forward_warmReset _ _ _) rfl
    | some w =>
      exact forward_onV (f := fun d v => d.gateV v w.1 A.RST_CTRL fun d v => rstCtrl d v (putBit w.2.toNat 30 true))
        (fun _ _ => forward_rstCtrlWrite _ _ _ _) rfl
  | polderReset src val =>
    exact forward_onV (f := fun d v => d.gateV v src A.RST_CTRL fun d v => rstCtrl d v (putBits val.toNat 31 30 2))
      (fun _ _ => forward_rstCtrlWrite _ _ _ _) rfl
  | bootRomStart fl bist => exact forward_onV (f := fun d v => bootRom d v fl bist) (fun _ _ => forward_bootRom _ _ _ _) rfl
  | registerWrite src off whole val =>
    exact forward_onV (f := fun d v => regWrite d v src off.toNat whole val.toNat)
      (fun _ _ => forward_regWrite _ _ _ _ _ _) rfl
  | regAccessArrive e => exact forward_onV (f := fun d v => regArrive d v e) (fun _ _ => forward_regArrive _ _ _) rfl
  | dbgRespChecked => exact forward_onV (f := dbgChecked) (fun _ _ => forward_dbgChecked _ _) rfl
  | dbgNop => exact forward_debug (f := fun d v => dbgRet d v dbgOk) (fun _ v => .refl v) rfl
  | dbgRegRead addr => exact forward_debug (f := dbgRegRead addr.toNat) (fun _ _ => forward_dbgRegRead _ _ _) rfl
  | dbgRegWrite addr data => exact forward_debug (f := dbgRegWrite addr.toNat data.toNat) (fun _ _ => forward_dbgRegWrite _ _ _ _) rfl
  | dbgEngHalt sel => exact forward_debug (f := dbgHalt sel.toNat) (fun _ _ => forward_dbgHalt _ _ _) rfl
  | dbgEngResume sel => exact forward_debug (f := dbgResume sel.toNat) (fun _ _ => forward_dbgResume _ _ _) rfl
  | dbgEngStep sel => exact forward_debug (f := dbgStep sel.toNat) (fun _ _ => forward_dbgStep _ _ _) rfl
  | dbgEngRegRead sel addr => exact forward_debug (f := dbgEngRead sel.toNat addr.toNat) (fun _ _ => forward_dbgEngRead _ _ _ _) rfl
  | dbgEngRegWrite sel addr data => exact forward_debug (f := dbgEngWrite sel.toNat addr.toNat data.toNat) (fun _ _ => forward_dbgEngWrite _ _ _ _ _) rfl
  | dbgStoreRead sel addr => exact forward_debug (f := dbgStoreRead sel.toNat addr.toNat) (fun _ _ => forward_dbgStoreRead _ _ _ _) rfl
  | dbgStoreWrite sel addr data => exact forward_debug (f := dbgStoreWrite sel.toNat addr.toNat data.toNat) (fun _ _ => forward_dbgStoreWrite _ _ _ _ _) rfl
  | dbgFuseStage addr data => exact forward_debug (f := dbgFuseStage addr.toNat data.toNat) (fun _ _ => forward_dbgFuseStage _ _ _ _) rfl
  | dbgFuseWrite addr => exact forward_debug (f := dbgFuseWrite addr.toNat) (fun _ _ => forward_dbgFuseWrite _ _ _) rfl
  | schedCommit w =>
    cases w with
    | reg src val => exact ⟨_, _, rfl, .refl _⟩
    | chan e => exact ⟨_, _, rfl, .refl _⟩
  | _ => exact ⟨_, _, rfl, .refl _⟩

/-- A step moves the fuses forward only, whether a command runs or an E-cycle passes. -/
theorem step_forward {s t : State} (h : step s = .next t) : s.vault.Forward t.vault := by
  unfold step at h
  split at h
  · obtain ⟨d, w, he, hf⟩ := exec_forward ‹Instr› { s with pending := ‹List Instr› }
    rw [he] at h
    cases h
    exact hf
  · cases h
    exact forward_nvResume _ _

end Sys2Proof.Machine

open Sys2Proof.Machine

/-- Settles O1: with the queue empty the step is `tickV`, whose E-cycle is counted (`Dev.up_tick`) and which a held NV write leaves counted. -/
theorem stepTakesFront : Obligations.StepTakesFront := by
  refine ⟨fun c s rest => rfl, fun s hs => ?_⟩
  have h : step s = s.onV tickV := by
    unfold step
    rw [hs]
  refine ⟨{ s with dev := (tickV s.dev s.vault).1, vault := (tickV s.dev s.vault).2 }, h, hs, ?_⟩
  exact (up_nvResume _ _).trans (Dev.up_tick _)

/-- Settles O2: every command is a change of the part and the fuses (`exec_forward`). -/
theorem commandsKeepQueue : Obligations.CommandsKeepQueue := by
  intro c s
  obtain ⟨d, w, he, -⟩ := exec_forward c s
  exact ⟨_, he, rfl, trivial⟩

/-- Settles O56: nothing has been fused and nothing written. -/
theorem resetLawful : Obligations.ResetLawful :=
  ⟨by decide, by simp [State.reset], by decide, by decide, by simp [State.reset], rfl⟩

/-- Settles O57: the step moves the fuses forward only (`step_forward`). -/
theorem stepKeepsVault : Obligations.StepKeepsVault := fun _ _ hs h => (step_forward h hs).1

/-- Settles O58: the step moves the fuses forward only (`step_forward`). -/
theorem fusesOnlyForward : Obligations.FusesOnlyForward := fun _ _ hs h => (step_forward h hs).2

end

section
/-! Engine loads, stores and atomics (spec/07, R190 to R194, R205, R206): the bytes of a word, where an engine address lies, and what a permitted
access of a clean word does. -/

open Sys2Proof

namespace Sys2Proof.Machine

/-! The bytes of a word. -/

theorem pow_256 (k : Nat) : 256 ^ k = 2 ^ (8 * k) := by
  rw [pow_mul]
  norm_num

theorem getElem_bytesLE (v n i : Nat) (h : i < (bytesLE v n).length) : (bytesLE v n)[i] = BitVec.ofNat 8 (v / 256 ^ i) := by
  induction n generalizing v i with
  | zero => simp [bytesLE] at h
  | succ n ih =>
    cases i with
    | zero => simp [bytesLE]
    | succ i => simp [bytesLE, ih, Nat.div_div_eq_div_mul, pow_succ']

theorem leNat_append (l m : List Byte) : leNat (l ++ m) = leNat l + 256 ^ l.length * leNat m := by
  induction l with
  | nil => simp [leNat]
  | cons b t ih =>
    simp only [List.cons_append, leNat, ih, List.length_cons, pow_succ]
    ring

@[simp] theorem Store.length_bytes (s : Store) (a n : Nat) : (s.bytes a n).length = n := by
  induction n generalizing a with
  | zero => rfl
  | succ n ih => simp [Store.bytes, ih]

theorem Store.bytes_add (s : Store) (a m n : Nat) : s.bytes a (m + n) = s.bytes a m ++ s.bytes (a + m) n := by
  induction m generalizing a with
  | zero => simp [Store.bytes]
  | succ m ih => rw [Nat.succ_add, Store.bytes, Store.bytes, ih, List.cons_append, Nat.add_right_comm, Nat.add_assoc]

theorem Store.leNat_bytes_lt (s : Store) (a n : Nat) : leNat (s.bytes a n) < 256 ^ n := by
  have h := leNat_lt (s.bytes a n)
  rwa [Store.length_bytes] at h

/-- Bytes inside one word are a field of that word. -/
theorem Store.leNat_bytes_of_word (s : Store) {c n : Nat} (h : c % 8 + n ≤ 8) :
    leNat (s.bytes c n) = s.raw (c / 8) / 2 ^ (8 * (c % 8)) % 2 ^ (8 * n) := by
  have h8 : 8 = c % 8 + (n + (8 - c % 8 - n)) := by omega
  have hc : 8 * (c / 8) + c % 8 = c := Nat.div_add_mod c 8
  have hlo := s.leNat_bytes_lt (8 * (c / 8)) (c % 8)
  have hn := s.leNat_bytes_lt c n
  rw [Store.raw, h8, Store.bytes_add, Store.bytes_add, leNat_append, leNat_append, Store.length_bytes, Store.length_bytes, ← h8, hc,
    pow_mul, pow_mul, show 2 ^ 8 = 256 from rfl, Nat.add_mul_div_left _ _ (by positivity), Nat.div_eq_of_lt hlo, Nat.zero_add,
    Nat.add_mul_mod_self_left, Nat.mod_eq_of_lt hn]

theorem Store.byte_eq_raw (s : Store) (c : Nat) : s.byte c = BitVec.ofNat 8 (s.raw (c / 8) / 256 ^ (c % 8)) := by
  have h := s.leNat_bytes_of_word (c := c) (n := 1) (by omega)
  apply BitVec.eq_of_toNat_eq
  rw [BitVec.toNat_ofNat]
  simpa [Store.bytes, leNat, pow_mul] using h

/-- Every byte after a word has been written whole. -/
theorem Store.byte_putWord (s : Store) (i v c : Nat) :
    (s.putWord i v).byte c = if c / 8 = i then BitVec.ofNat 8 (v / 256 ^ (c % 8)) else s.byte c := by
  rw [Store.putWord, Store.byte_setSynd]
  split
  · subst i
    have hk : c % 8 < (bytesLE v 8).length := by rw [length_bytesLE]; omega
    have h := Store.byte_putBytes_in (bytesLE v 8) s (8 * (c / 8)) (c % 8) hk
    rwa [Nat.div_add_mod, getElem_bytesLE] at h
  · apply Store.byte_putBytes_out
    rw [length_bytesLE]
    omega

theorem Store.syndrome_putWord (s : Store) (i v w : Nat) : (s.putWord i v).syndrome w = if w = i then 0 else s.syndrome w := by
  split
  · subst w
    exact Store.syndrome_putWord_same s i v
  · rw [Store.putWord, Store.syndrome_setSynd_ne _ _ (by omega), Store.syndrome_putBytes]

/-- Byte k of a word of which n bytes from o on have been replaced. -/
theorem ofNat_putBits_div (w v : Nat) {o n : Nat} (k : Nat) (hn : 0 < n) :
    BitVec.ofNat 8 (putBits w (8 * (o + n) - 1) (8 * o) v / 256 ^ k) =
      if o ≤ k ∧ k < o + n then BitVec.ofNat 8 (v / 256 ^ (k - o)) else BitVec.ofNat 8 (w / 256 ^ k) := by
  apply BitVec.eq_of_getLsbD_eq
  intro i hi
  simp only [pow_256]
  rw [BitVec.getLsbD_ofNat, Nat.testBit_div_two_pow, testBit_putBits _ _ _ _ _ (by omega)]
  split
  · rw [if_pos (by omega), BitVec.getLsbD_ofNat, Nat.testBit_div_two_pow]
    congr 2
    omega
  · rw [if_neg (by omega), BitVec.getLsbD_ofNat, Nat.testBit_div_two_pow]

/-! The address map (R190, R191). -/

/-- The sizes of an access. -/
abbrev AccessSize (n : Nat) : Prop := n = 1 ∨ n = 2 ∨ n = 4 ∨ n = 8

theorem wordAt_space (e : Nat) (a : DWord) : (wordAt a).1 = (cellOf e a).1 := by
  unfold wordAt cellOf
  split <;> rfl

/-- The word of the store that holds an address of engine e. -/
theorem wordAt_word (e : Nat) (a : DWord) : (wordAt a).1.word (e / 8) (e % 8) (wordAt a).2 = (cellOf e a).2 / 8 := by
  unfold wordAt cellOf
  split
  · simp only [Space.word]
    omega
  · simp only [Space.word]
    omega

theorem regionOf_shared {a : DWord} (h : regionOf a = .shared) : 0x10000000 ≤ a.toNat ∧ a.toNat < 0x10400000 := by
  unfold regionOf at h
  split_ifs at h
  assumption

theorem cellOf_mod (e : Nat) (a : DWord) : (cellOf e a).2 % 8 = a.toNat % 8 := by
  unfold cellOf
  split
  · have := regionOf_shared ‹_›
    dsimp only
    omega
  · dsimp only
    omega

/-- R191: an aligned access stays inside one word. -/
theorem access_in_word {a : DWord} {n : Nat} (hn : AccessSize n) (ha : a.toNat % n = 0) : a.toNat % 8 + n ≤ 8 := by
  rcases hn with rfl | rfl | rfl | rfl <;> omega

/-- R190, R191, R196: a permitted access meets no exception before it reaches a store; an atomic only in the shared store. -/
theorem accessFault_of_permitted {x : EngSt} {a : DWord} {n : Nat} {atomic : Bool} (h : Permitted x a n)
    (hs : atomic = true → regionOf a = .shared) : accessFault x a n atomic = none := by
  obtain ⟨ha, hw⟩ := h
  unfold accessFault
  cases hr : regionOf a with
  | text =>
    rw [hr] at hw hs
    simp [hw, ha]
    simpa using hs
  | data =>
    rw [hr] at hw hs
    simp only [ha]
    cases hx : x.task <;> simp_all
  | shared =>
    rw [hr] at hw hs
    simp only [ha]
    cases hx : x.task <;> simp_all
  | outside =>
    rw [hr] at hw
    exact hw.elim

/-! What an access reads and writes. -/

/-- R191: the bytes read are a field of the word read. -/
theorem Dev.memAt_eq (d : Dev) (e : Nat) {a : DWord} {n : Nat} (hn : AccessSize n) (ha : a.toNat % n = 0) :
    d.memAt e n a = (d.store (cellOf e a).1).raw ((cellOf e a).2 / 8) / 2 ^ (8 * (a.toNat % 8)) % 2 ^ (8 * n) := by
  rw [Dev.memAt, Store.leNat_bytes_of_word, cellOf_mod]
  rw [cellOf_mod]
  exact access_in_word hn ha

theorem Dev.memAt_lt (d : Dev) (e n : Nat) (a : DWord) : d.memAt e n a < 2 ^ (8 * n) := by
  rw [← pow_256]
  exact Store.leNat_bytes_lt _ _ _

/-- A read of the clean word that holds an address. -/
theorem Dev.readWord_at {d : Dev} {e : Nat} {a : DWord} (h : d.cleanAt e a) :
    d.readWord (wordAt a).1 (e / 8) (e % 8) (wordAt a).2 = ((d.store (cellOf e a).1).raw ((cellOf e a).2 / 8), false, d) := by
  rw [Dev.readWord_clean _ _ _ _ _ (by rw [wordAt_word, wordAt_space e]; exact h), wordAt_word, wordAt_space e]

/-- Only the low n bytes of a value are stored. -/
theorem StoredAt.of_mod {s t : Store} {e n v : Nat} {a : DWord} (h : StoredAt s t e n a (v % 2 ^ (8 * n))) : StoredAt s t e n a v := by
  obtain ⟨hb, ho, hsy⟩ := h
  refine ⟨fun i hi => (hb i hi).trans ?_, ho, hsy⟩
  apply BitVec.eq_of_getLsbD_eq
  intro k hk
  rw [pow_256, BitVec.getLsbD_ofNat, BitVec.getLsbD_ofNat, Nat.testBit_div_two_pow, Nat.testBit_div_two_pow, Nat.testBit_mod_two_pow]
  simp [show k + 8 * i < 8 * n by omega]

/-- A whole aligned word written. -/
theorem Store.storedAt_putWord (s : Store) (e : Nat) {a : DWord} (v : Nat) (ha : a.toNat % 8 = 0) :
    StoredAt s (s.putWord ((cellOf e a).2 / 8) v) e 8 a v := by
  have hc := cellOf_mod e a
  refine ⟨fun i hi => ?_, fun b hb => ?_, fun w => Store.syndrome_putWord _ _ _ _⟩
  · rw [Store.byte_putWord, if_pos (by omega)]
    congr 3
    omega
  · rw [Store.byte_putWord, if_neg (by omega)]

/-- A part of a clean word merged. -/
theorem Store.storedAt_merge (s : Store) (e : Nat) {a : DWord} {n : Nat} (v : Nat) (hn : 0 < n) (ha : a.toNat % 8 + n ≤ 8)
    (hs : s.syndrome ((cellOf e a).2 / 8) = 0) : StoredAt s (s.merge ((cellOf e a).2 / 8) (a.toNat % 8) n v) e n a v := by
  have hc := cellOf_mod e a
  have hm : s.merge ((cellOf e a).2 / 8) (a.toNat % 8) n v =
      s.putWord ((cellOf e a).2 / 8) (putBits (s.raw ((cellOf e a).2 / 8)) (8 * (a.toNat % 8 + n) - 1) (8 * (a.toNat % 8)) v) := by
    simp only [Store.merge, Store.read_clean _ _ hs]
  rw [hm]
  refine ⟨fun i hi => ?_, fun b hb => ?_, fun w => Store.syndrome_putWord _ _ _ _⟩
  · rw [Store.byte_putWord, if_pos (by omega), ofNat_putBits_div _ _ _ hn, if_pos (by omega)]
    congr 3
    omega
  · rw [Store.byte_putWord]
    split
    · rename_i h
      rw [ofNat_putBits_div _ _ _ hn, if_neg (by omega), Store.byte_eq_raw s b, h]
    · rfl

theorem Dev.putWord_at (d : Dev) (e : Nat) (a : DWord) (v : Nat) : d.putWord (wordAt a).1 (e / 8) (e % 8) (wordAt a).2 v =
    d.setStore (cellOf e a).1 ((d.store (cellOf e a).1).putWord ((cellOf e a).2 / 8) v) := by
  rw [Dev.putWord, wordAt_word, wordAt_space e]

/-- R191, R284: n low bytes merged into the word that holds an address: the whole word, or a part of a clean one. -/
theorem Dev.mergeWord_at (d : Dev) (e : Nat) {a : DWord} {n : Nat} (v : Nat) (hn : AccessSize n) (ha : a.toNat % n = 0)
    (hs : n < 8 → d.cleanAt e a) : ∃ t, StoredAt (d.store (cellOf e a).1) t e n a v ∧
      d.mergeWord (wordAt a).1 (e / 8) (e % 8) (wordAt a).2 (a.toNat % 8) n v = d.setStore (cellOf e a).1 t := by
  unfold Dev.mergeWord
  split
  · subst n
    exact ⟨_, Store.storedAt_putWord _ e v ha, d.putWord_at e a v⟩
  · refine ⟨_, Store.storedAt_merge _ e v (by omega) (access_in_word hn ha) (hs (by omega)), ?_⟩
    rw [wordAt_word, wordAt_space e]

/-! The part while an access runs. -/

@[simp] theorem Dev.store_setE (d : Dev) (e : Nat) (x : EngSt) (sp : Space) : (d.setE e x).store sp = d.store sp := by cases sp <;> rfl

@[simp] theorem Dev.store_issued (d : Dev) (e : Nat) (sp : Space) : (d.issued e).store sp = d.store sp := Dev.store_setE ..

theorem Dev.setStore_issued (d : Dev) (e : Nat) (sp : Space) (t : Store) : (d.issued e).setStore sp t = (d.setStore sp t).issued e := by
  cases sp <;> rfl

theorem Dev.e_setStore (d : Dev) (sp : Space) (t : Store) (e : Nat) : (d.setStore sp t).e e = d.e e := by cases sp <;> rfl

theorem Dev.cleanAt_issued {d : Dev} {e : Nat} {a : DWord} (h : d.cleanAt e a) (k : Nat) : (d.issued k).cleanAt e a := by
  rw [Dev.cleanAt, Dev.store_issued]
  exact h

/-- A change of the engine, after a store has been changed, while its instruction runs. -/
theorem Dev.onE_setStore_issued {d : Dev} {e : Nat} (hs : d.canIssue e) (sp : Space) (t : Store) (f : EngSt → EngSt) :
    ((d.issued e).setStore sp t).onE e f = (d.setStore sp t).setE e (f (d.e e).issued) := by
  have he := d.e_setStore sp t e
  rw [Dev.setStore_issued, Dev.issued, Dev.onE_onE _ _ _ _ (by simp [he, EngSt.issued, hs.1]), he]

theorem EngSt.r_issued (x : EngSt) (n : Nat) : x.issued.r n = x.r n := rfl

/-- R192: the time of the next instruction. -/
theorem accessTime_end (e i n : Nat) (a : DWord) : i + accessTime e i a n = accessEnd e i n a := by
  unfold accessTime accessEnd slotAt
  split <;> omega

theorem accessEnd_shared {a : DWord} (h : regionOf a = .shared) (e i m n : Nat) : accessEnd e i m a = accessEnd e i n a := by
  simp [accessEnd, h]

/-- Engine x at the end of an access that issued in E-cycle i. -/
theorem EngSt.next_access (x : EngSt) (e i n gd : Nat) (a : DWord) (v : DWord) : (x.issued.w gd v).next i (accessTime e i a n) =
    { x.w gd v with pc := x.pc + 4, ready := accessEnd e i n a, lastPc := x.pc } := by
  rw [EngSt.issued, EngSt.w_lastPc, EngSt.next, accessTime_end]
  simp only [EngSt.pc_w]

/-! Loads (R205). -/

theorem extendLoad_signed {n v : Nat} (h : v < 2 ^ (8 * n)) : extendLoad true n v = (BitVec.ofNat (8 * n) v).signExtend 64 := by
  rw [extendLoad, if_pos rfl, ofInt_toS _ _ h]

/-- R191, R192, R205: a permitted load of a clean word. -/
theorem makes_of_load {c : Instr} {s : State} {e gd n : Nat} {signed : Bool} {addr : EngSt → DWord} (hs : s.dev.canIssue e)
    (hc : exec c s = s.on fun d => d.load e gd signed n addr) (hn : AccessSize n) (hx : addr (s.dev.e e).issued = addr (s.dev.e e))
    (hp : Permitted (s.dev.e e) (addr (s.dev.e e)) n) (hw : s.dev.cleanAt e (addr (s.dev.e e))) :
    Makes c s (s.dev.setE e { (s.dev.e e).w gd (extendLoad signed n (s.dev.memAt e n (addr (s.dev.e e)))) with
      pc := (s.dev.e e).pc + 4, ready := accessEnd e (s.dev.issueAt e) 2 (addr (s.dev.e e)), lastPc := (s.dev.e e).pc }) := by
  have h := makes_of_issue hs hc
  have hf : accessFault (s.dev.e e).issued (addr (s.dev.e e)) n false = none := accessFault_of_permitted hp (by simp)
  simp only [Dev.e_issued, hx, hf, Dev.readWord_at (Dev.cleanAt_issued hw e), Dev.store_issued, Bool.false_eq_true, if_false] at h
  rwa [Dev.onE_issued hs, EngSt.next_access, ← Dev.memAt_eq _ _ hn hp.1] at h

/-! Stores (R205). -/

/-- R191, R192, R205: a permitted store; a partial one of a clean word. -/
theorem makes_of_store {c : Instr} {s : State} {e gd n : Nat} {addr : EngSt → DWord} (hs : s.dev.canIssue e)
    (hc : exec c s = s.on fun d => d.storeOp e gd n addr) (hn : AccessSize n) (hx : addr (s.dev.e e).issued = addr (s.dev.e e))
    (hp : Permitted (s.dev.e e) (addr (s.dev.e e)) n) (hw : n < 8 → s.dev.cleanAt e (addr (s.dev.e e))) :
    ∃ t, StoredAt (s.dev.store (cellOf e (addr (s.dev.e e))).1) t e n (addr (s.dev.e e)) ((s.dev.e e).r gd).toNat ∧
      Makes c s ((s.dev.setStore (cellOf e (addr (s.dev.e e))).1 t).setE e { s.dev.e e with
        pc := (s.dev.e e).pc + 4, ready := accessEnd e (s.dev.issueAt e) 1 (addr (s.dev.e e)), lastPc := (s.dev.e e).pc }) := by
  have h := makes_of_issue hs hc
  have hf : accessFault (s.dev.e e).issued (addr (s.dev.e e)) n false = none := accessFault_of_permitted hp (by simp)
  obtain ⟨t, ht, hm⟩ := (s.dev.issued e).mergeWord_at e ((s.dev.e e).r gd).toNat hn hp.1 fun h => Dev.cleanAt_issued (hw h) e
  rw [Dev.store_issued] at ht
  refine ⟨t, ht, ?_⟩
  have key : Makes c s (((s.dev.issued e).setStore (cellOf e (addr (s.dev.e e))).1 t).onE e
      fun x => x.next (s.dev.issueAt e) (accessTime e (s.dev.issueAt e) (addr (s.dev.e e)) 1)) := by
    rw [← hm]
    simp only [Dev.e_issued, hx, hf, EngSt.r_issued] at h
    by_cases h8 : n = 8
    · rw [if_pos h8] at h
      rwa [Dev.mergeWord, if_pos h8]
    · rw [if_neg h8] at h
      simp only [Dev.readWord_at (Dev.cleanAt_issued (hw (by omega)) e), Bool.false_eq_true, if_false] at h
      exact h
  rw [Dev.onE_setStore_issued hs, EngSt.next, accessTime_end] at key
  exact key

/-! Atomics (R206). -/

/-- R192, R206: a permitted atomic on a clean word of the shared store. -/
theorem makes_of_atomic {c : Instr} {s : State} {e gd ga gb n : Nat} {w32 : Bool} {f : Nat → Nat → Nat → Option Nat}
    (hs : s.dev.canIssue e) (hc : exec c s = s.on fun d => d.atomic e gd ga gb w32 f) (hn : (if w32 then 4 else 8) = n)
    (hp : Permitted (s.dev.e e) ((s.dev.e e).r ga) n) (hr : regionOf ((s.dev.e e).r ga) = .shared)
    (hw : s.dev.cleanAt e ((s.dev.e e).r ga)) :
    let x := s.dev.e e
    let old := s.dev.memAt e n (x.r ga)
    let y : EngSt := { x.w gd (BitVec.ofNat 64 old) with
      pc := x.pc + 4, ready := accessEnd e (s.dev.issueAt e) 0 (x.r ga), lastPc := x.pc }
    match f old ((x.r gb).toNat % 256 ^ n) ((x.r gd).toNat % 256 ^ n) with
    | some v => ∃ t : Store, StoredAt s.dev.sharedS t e n (x.r ga) v ∧ Makes c s ((s.dev.setStore .shared t).setE e y)
    | none => Makes c s (s.dev.setE e y) := by
  intro x old y
  have hn8 : AccessSize n := by
    subst n
    cases w32
    · exact .inr (.inr (.inr rfl))
    · exact .inr (.inr (.inl rfl))
  have hsp : (cellOf e (x.r ga)).1 = .shared := by
    unfold cellOf
    rw [if_pos hr]
  have hf : accessFault x.issued (x.r ga) n true = none := accessFault_of_permitted hp fun _ => hr
  have hy (i : Nat) : (x.issued.w gd (BitVec.ofNat 64 old)).next i (accessTime e i (x.r ga) 1) =
      { x.w gd (BitVec.ofNat 64 old) with pc := x.pc + 4, ready := accessEnd e i 0 (x.r ga), lastPc := x.pc } := by
    rw [EngSt.next_access, accessEnd_shared hr e i 1 0]
  have hx : s.dev.e e = x := rfl
  have hold : _ = old := (s.dev.memAt_eq e hn8 hp.1).symm
  have h := makes_of_issue hs hc
  rw [hx, ← pow_256, ← pow_256] at hold
  rw [hx] at hw
  simp only [hn, Dev.e_issued, hx, EngSt.r_issued, hf, Dev.readWord_at (Dev.cleanAt_issued hw e), Dev.store_issued, Bool.false_eq_true, if_false,
    hold, ← pow_256] at h
  cases hv : f old ((x.r gb).toNat % 256 ^ n) ((x.r gd).toNat % 256 ^ n) with
  | none =>
    simp only [hv] at h
    rwa [Dev.onE_issued hs, hx, hy] at h
  | some v =>
    obtain ⟨t, ht, hm⟩ := (s.dev.issued e).mergeWord_at e (v % 256 ^ n) hn8 hp.1 fun _ => Dev.cleanAt_issued hw e
    rw [pow_256, Dev.store_issued, hx, hsp] at ht
    rw [hx] at hm
    refine ⟨t, ht.of_mod, ?_⟩
    simp only [hv, hm] at h
    rwa [hsp, Dev.onE_setStore_issued hs, hx, hy] at h

end Sys2Proof.Machine

open Sys2Proof.Machine

/-- Settles O5: each load is one rule (`makes_of_load`), whose extension is a sign extension or none. -/
theorem loadResult : Obligations.LoadResult := by
  intro e gd ga imm Loads
  have signed {c n} (hn : AccessSize n) (hc : ∀ s, exec c s = s.on fun d => d.load e gd true n fun x => x.r ga + sext16 imm) :
      Loads c n fun v => (BitVec.ofNat (8 * n) v).signExtend 64 := by
    intro s hs x a hp hw
    have h := makes_of_load hs (hc s) hn rfl hp hw
    rwa [extendLoad_signed] at h
    exact s.dev.memAt_lt e n a
  have unsigned {c n} (hn : AccessSize n) (hc : ∀ s, exec c s = s.on fun d => d.load e gd false n fun x => x.r ga + sext16 imm) :
      Loads c n fun v => BitVec.ofNat 64 v := fun s hs hp hw => makes_of_load hs (hc s) hn rfl hp hw
  clear_value Loads
  exact ⟨signed (.inl rfl) fun _ => rfl, unsigned (.inl rfl) fun _ => rfl, signed (.inr (.inl rfl)) fun _ => rfl,
    unsigned (.inr (.inl rfl)) fun _ => rfl, signed (.inr (.inr (.inl rfl))) fun _ => rfl, unsigned (.inr (.inr (.inl rfl))) fun _ => rfl,
    unsigned (.inr (.inr (.inr rfl))) fun _ => rfl⟩

/-- Settles O6: each store is one rule (`makes_of_store`). -/
theorem storeResult : Obligations.StoreResult := by
  intro e gd ga imm Stores
  have stores {c n} (hn : AccessSize n) (hc : ∀ s, exec c s = s.on fun d => d.storeOp e gd n fun x => x.r ga + sext16 imm) :
      Stores c n := fun s hs hp hw => makes_of_store hs (hc s) hn rfl hp hw
  clear_value Stores
  exact ⟨stores (.inl rfl) fun _ => rfl, stores (.inr (.inl rfl)) fun _ => rfl, stores (.inr (.inr (.inl rfl))) fun _ => rfl,
    stores (.inr (.inr (.inr rfl))) fun _ => rfl⟩

/-- Settles O7: each atomic is one rule (`makes_of_atomic`). -/
theorem atomicResult : Obligations.AtomicResult := by
  intro e gd ga gb w32 n Atomic
  have atomics {c f} (hc : ∀ s, exec c s = s.on fun d => d.atomic e gd ga gb w32 f) : Atomic c f :=
    fun s hs hp hr hw => makes_of_atomic hs (hc s) rfl hp hr hw
  clear_value Atomic
  exact ⟨atomics fun _ => rfl, atomics fun _ => rfl, atomics fun _ => rfl, atomics fun _ => rfl, atomics fun _ => rfl,
    atomics fun _ => rfl⟩

end

section
/-! System instructions and the exceptions of an instruction (spec/07, R195, R196, R208, R210 to R213), and what the dispatch controller leaves of
the engines (spec/11). -/

open Sys2Proof

namespace Sys2Proof.Machine

/-! From what a command makes to what it gives. -/

theorem Makes.gives {c : Instr} {s : State} {d : Dev} {p : State → Prop} (h : Makes c s d) (hp : p { s with dev := d }) : Gives c s p :=
  ⟨_, h, rfl, hp⟩

/-- A command on the part makes its effect. -/
theorem makes_of_on {c : Instr} {s : State} {f : Dev → Dev} (hc : exec c s = s.on f) : Makes c s (f s.dev) := hc

/-! Operations that the engines' records are no part of. -/

/-- The part with the table of engines replaced. -/
def Dev.withEng (d : Dev) (g : Tbl EngSt) : Dev := { d with eng := g }

/-- An operation that neither reads nor writes the engines. -/
def EngFree (f : Dev → Dev) : Prop := ∀ d g, f (d.withEng g) = (f d).withEng g

theorem Dev.setE_eq_withEng (d : Dev) (e : Nat) (x : EngSt) : d.setE e x = d.withEng (Tbl.set EngSt.reset d.eng e x) := rfl

theorem Dev.withEng_eng (d : Dev) : d.withEng d.eng = d := rfl

theorem Dev.eng_withEng (d : Dev) (g : Tbl EngSt) : (d.withEng g).eng = g := rfl

theorem EngFree.eng {f : Dev → Dev} (h : EngFree f) (d : Dev) : (f d).eng = d.eng := by
  have h1 := h d d.eng
  rw [Dev.withEng_eng] at h1
  rw [h1, Dev.eng_withEng]

theorem EngFree.e {f : Dev → Dev} (h : EngFree f) (d : Dev) (e : Nat) : (f d).e e = d.e e := by rw [Dev.e, Dev.e, h.eng]

theorem EngFree.setE {f : Dev → Dev} (h : EngFree f) (d : Dev) (e : Nat) (x : EngSt) : f (d.setE e x) = (f d).setE e x := by
  rw [Dev.setE_eq_withEng, h, Dev.setE_eq_withEng, h.eng]

theorem EngFree.foldl {β : Type} {f : Dev → β → Dev} (h : ∀ b, EngFree fun d => f d b) (l : List β) : EngFree fun d => l.foldl f d := by
  induction l with
  | nil => exact fun _ _ => rfl
  | cons b t ih =>
    intro d g
    exact (congrArg (t.foldl f) (h b d g)).trans (ih _ _)

@[simp] theorem Dev.reg_withEng (d : Dev) (g : Tbl EngSt) (a : Nat) : (d.withEng g).reg a = d.reg a := rfl
@[simp] theorem Dev.get_withEng (d : Dev) (g : Tbl EngSt) (f : Fld) : (d.withEng g).get f = d.get f := rfl
@[simp] theorem Dev.on_withEng (d : Dev) (g : Tbl EngSt) (f : Fld) : (d.withEng g).on f = d.on f := rfl
@[simp] theorem Dev.setReg_withEng (d : Dev) (g : Tbl EngSt) (a v : Nat) : (d.withEng g).setReg a v = (d.setReg a v).withEng g := rfl
@[simp] theorem Dev.set_withEng (d : Dev) (g : Tbl EngSt) (f : Fld) (v : Nat) : (d.withEng g).set f v = (d.set f v).withEng g := rfl
@[simp] theorem Dev.flag_withEng (d : Dev) (g : Tbl EngSt) (f : Fld) (b : Bool) : (d.withEng g).flag f b = (d.flag f b).withEng g := rfl
@[simp] theorem Dev.inc_withEng (d : Dev) (g : Tbl EngSt) (f : Fld) (n : Nat) : (d.withEng g).inc f n = (d.inc f n).withEng g := rfl
@[simp] theorem Dev.onHost_withEng (d : Dev) (g : Tbl EngSt) (f : HostSt → HostSt) : (d.withEng g).onHost f = (d.onHost f).withEng g := rfl
@[simp] theorem Dev.line_withEng (d : Dev) (g : Tbl EngSt) (t : Nat) : (d.withEng g).line t = d.line t := rfl
@[simp] theorem Dev.best_withEng (d : Dev) (g : Tbl EngSt) (t : Nat) : (d.withEng g).best t = d.best t := rfl
@[simp] theorem Dev.depth_withEng (d : Dev) (g : Tbl EngSt) (t : Nat) : (d.withEng g).depth t = d.depth t := rfl
@[simp] theorem Dev.prio_withEng (d : Dev) (g : Tbl EngSt) (n : Nat) : (d.withEng g).prio n = d.prio n := rfl
@[simp] theorem Dev.intaOpen_withEng (d : Dev) (g : Tbl EngSt) : (d.withEng g).intaOpen = d.intaOpen := rfl
@[simp] theorem Dev.setClaimed_withEng (d : Dev) (g : Tbl EngSt) (n : Nat) (b : Bool) :
    (d.withEng g).setClaimed n b = (d.setClaimed n b).withEng g := rfl

theorem engFree_refreshLine (t : Nat) : EngFree fun d => d.refreshLine t := by
  intro d g
  unfold Dev.refreshLine
  cases hl : d.line t <;> simp -implicitDefEqProofs [hl]

theorem engFree_syncInta : EngFree Dev.syncInta := by
  intro d g
  unfold Dev.syncInta
  cases hl : d.intaOpen <;> simp -implicitDefEqProofs [hl]

theorem engFree_refreshLines : EngFree Dev.refreshLines := fun d g =>
  (congrArg Dev.syncInta (EngFree.foldl engFree_refreshLine _ d g)).trans (engFree_syncInta _ g)

@[simp] theorem Dev.refreshLines_withEng (d : Dev) (g : Tbl EngSt) : (d.withEng g).refreshLines = d.refreshLines.withEng g :=
  engFree_refreshLines d g

/-- R300: what a claim returns and does. -/
theorem Dev.claim_withEng (d : Dev) (g : Tbl EngSt) (t : Nat) :
    (d.withEng g).claim t = ((d.claim t).1, (d.claim t).2.withEng g) := by
  unfold Dev.claim
  dsimp only
  rw [Dev.best_withEng]
  by_cases hn : d.best t ≠ 0
  · simp -implicitDefEqProofs only [if_pos hn, Dev.depth_withEng, Dev.setClaimed_withEng, Dev.prio_withEng, Dev.setReg_withEng, Dev.set_withEng,
      Dev.reg_withEng, Dev.refreshLines_withEng]
  · simp -implicitDefEqProofs only [if_neg hn, Dev.on_withEng]
    by_cases hs : d.on (R.TGT_STATUS.LINE_SEEN t) = true
    · simp -implicitDefEqProofs only [if_pos hs, Dev.set_withEng, Dev.inc_withEng]
    · simp -implicitDefEqProofs only [if_neg hs]

theorem engFree_eoi (t : Nat) : EngFree fun d => d.eoi t := by
  intro d g
  unfold Dev.eoi
  dsimp only
  rw [Dev.depth_withEng]
  by_cases hk : d.depth t = 0
  · simp -implicitDefEqProofs only [if_pos hk, Dev.set_withEng]
  · simp -implicitDefEqProofs only [if_neg hk, Dev.get_withEng, Dev.setClaimed_withEng, Dev.setReg_withEng, Dev.set_withEng,
      Dev.refreshLines_withEng]

/-- The stack entries of target t released and cleared. -/
def Dev.popAll (d : Dev) (t : Nat) : Dev := (List.range (d.depth t)).foldl
  (fun d i => (d.setClaimed (d.get (R.STACK.SOURCE t i)) false).setReg (A.STACK t i) 0) d

theorem Dev.flushTarget_eq (d : Dev) (t : Nat) : d.flushTarget t = ((d.popAll t).set (R.TGT_STATUS.DEPTH t) 0).refreshLines := rfl

theorem engFree_flushTarget (t : Nat) : EngFree fun d => d.flushTarget t := by
  intro d g
  have hp : (d.withEng g).popAll t = (d.popAll t).withEng g := EngFree.foldl (fun _ _ _ => rfl) (List.range (d.depth t)) d g
  simp -implicitDefEqProofs only [Dev.flushTarget_eq, hp, Dev.set_withEng, Dev.refreshLines_withEng]

/-! An exception in a handler, and a stop (R188, R212, R303). -/

/-- R188, R303: a stopped engine; a warden's stack is flushed beside it. -/
theorem Dev.e_stopEngine (d : Dev) (e : Nat) (st : EState) : (d.stopEngine e st).e e = { d.e e with st := st, wait := none } := by
  have h : ((d.onE e fun x => { x with st := st, wait := none }).onC (e / 8) fun c => { c with drained := false }).e e =
      { d.e e with st := st, wait := none } := Dev.e_onE_same d e fun x => { x with st := st, wait := none }
  unfold Dev.stopEngine
  dsimp only
  split
  · rw [(engFree_flushTarget (e - 88)).e, h]
  · exact h

/-- R212: an exception other than INTERRUPT in a handler sends the engine to FAULT. -/
theorem Dev.e_except_exl (d : Dev) (e : Nat) {vec : Nat} (det : Nat) (epc ev : DWord) (start : Nat) (hx : (d.e e).exl = true) (hv : vec ≠ 7) :
    (d.except e vec det epc ev start).e e =
      { d.e e with lastVec := vec, lastDet := det, lastEval := ev, st := .fault, wait := none } := by
  have h1 : ((d.bump (Ctr.cluster (e / 8) 8)).onE e fun x => { x with lastVec := vec, lastDet := det, lastEval := ev }).e e =
      { d.e e with lastVec := vec, lastDet := det, lastEval := ev } :=
    Dev.e_onE_same (d.bump (Ctr.cluster (e / 8) 8)) e fun x => { x with lastVec := vec, lastDet := det, lastEval := ev }
  unfold Dev.except
  dsimp only
  rw [if_pos (by rw [h1]; simp [hx, hv]), Dev.e_stopEngine, h1]

/-- R212: an instruction that meets an exception in a handler. -/
theorem gives_fault {c : Instr} {s : State} {e vec det : Nat} {epc ev : DWord} {start : Nat}
    (h : Makes c s ((s.dev.issued e).except e vec det epc ev start)) (hx : (s.dev.e e).exl = true) (hv : vec ≠ 7) :
    Gives c s fun t => (t.dev.e e).st = .fault ∧ (t.dev.e e).lastVec = vec ∧ (t.dev.e e).lastDet = det ∧ (t.dev.e e).g = (s.dev.e e).g ∧
      (t.dev.e e).pc = (s.dev.e e).pc := by
  have he := (s.dev.issued e).e_except_exl e det epc ev start (by rw [Dev.e_issued]; exact hx) hv
  rw [Dev.e_issued] at he
  refine h.gives ?_
  dsimp only
  rw [he]
  exact ⟨rfl, rfl, rfl, rfl, rfl⟩

/-- R210 to R212: an exception with EXL = 0 whose saved pc is any address. -/
theorem Dev.except_issued {d : Dev} {e : Nat} (hs : d.canIssue e) (hx : (d.e e).exl = false) (vec det : Nat) (epc ev : DWord) (start : Nat) :
    (d.issued e).except e vec det epc ev start = d.entry e ((d.e e).issued.entered vec det epc ev start) := by
  rw [Dev.except_eq _ _ _ _ _ _ _ (by simp [EngSt.issued, hs.1]) (by simpa [EngSt.issued] using hx), Dev.entry_issued hs, Dev.e_issued]

/-! Halt: the stack of a warden is flushed (R188, R303). -/

/-- A field with numerals for its bits has them in the word. -/
theorem Fld.ok_of_ble {f : Fld} (h : (Nat.ble f.lo f.hi && Nat.ble (f.hi + 1) 32) = true) : f.ok := by
  simpa using h

/-- Two fields that share no bit. -/
def Fld.apart (f g : Fld) : Prop := f.addr ≠ g.addr ∨ g.hi < f.lo ∨ f.hi < g.lo

theorem Dev.get_set_apart (d : Dev) {f g : Fld} (v : Nat) (hf : f.ok) (h : f.apart g) : (d.set f v).get g = d.get g :=
  h.elim (Dev.get_set_reg d f g v) (Dev.get_set_bits d f g v hf)

/-- A field that no request line touches: it is in no TGT_STATUS, or below LINE_SEEN. -/
def Fld.offLine (f : Fld) : Prop := ∀ t, A.TGT_STATUS t = f.addr → f.hi < 30

theorem Dev.get_refreshLine (d : Dev) (t : Nat) {f : Fld} (hf : f.offLine) : (d.refreshLine t).get f = d.get f := by
  have happ : ∀ b, 30 ≤ b → Fld.apart ⟨A.TGT_STATUS t, b, b⟩ f := fun b hb => by
    by_cases h : A.TGT_STATUS t = f.addr
    · exact .inr (.inl (Nat.lt_of_lt_of_le (hf t h) hb))
    · exact .inl h
  have hline : (d.flag (R.TGT_STATUS.LINE t) (d.line t)).get f = d.get f :=
    Dev.get_set_apart d _ (Fld.ok_of_ble rfl) (happ 31 (by norm_num))
  unfold Dev.refreshLine
  dsimp only
  by_cases hl : d.line t = true
  · rw [if_pos hl, Dev.get_set_apart _ _ (Fld.ok_of_ble rfl) (f := R.TGT_STATUS.LINE_SEEN t) (happ 30 (by norm_num)), hline]
  · rw [if_neg hl, hline]

theorem Dev.get_syncInta (d : Dev) (f : Fld) : d.syncInta.get f = d.get f := by
  unfold Dev.syncInta
  by_cases h : d.intaOpen = true
  · rw [if_pos h, Dev.get_onHost]
  · rw [if_neg h]

theorem Dev.get_refreshLines (d : Dev) {f : Fld} (hf : f.offLine) : d.refreshLines.get f = d.get f := by
  rw [Dev.refreshLines, Dev.get_syncInta]
  generalize List.range 9 = l
  induction l generalizing d with
  | nil => rfl
  | cons t l ih => rw [List.foldl_cons, ih, Dev.get_refreshLine _ _ hf]

theorem Dev.depth_flushTarget (d : Dev) (t : Nat) : (d.flushTarget t).depth t = 0 := by
  rw [Dev.flushTarget_eq, Dev.depth, Dev.get_refreshLines _ fun _ _ => (by decide : 20 < 30), Dev.get_set_same _ _ _ (Fld.ok_of_ble rfl)]
  rfl

end Sys2Proof.Machine
end

section
/-! The system registers (spec/07, R196, R208): which exist, who may use them, what a read returns and a write leaves; claim and end of interrupt as
an engine makes them. -/

open Sys2Proof

namespace Sys2Proof.Machine

/-! Which system registers there are (R196). -/

/-- System register n exists on engine e. -/
def SyThere (e n : Nat) : Prop :=
  n ∈ [0, 1, 2, 3, 4, 5, 6, 7, 9, 10, 11, 12, 13, 14, 16] ∨ (32 ≤ n ∧ n < 40) ∨ (n ∈ [40, 41, 42] ∧ 88 ≤ e)

/-- A task may write system register n, or read it. -/
def SyTask (n : Nat) : (write : Bool) → Prop
  | true => n = 12 ∨ (32 ≤ n ∧ n < 40)
  | false => n ∈ [0, 1, 2, 9, 12, 16] ∨ (32 ≤ n ∧ n < 40)

theorem syThere_iff (e n : Nat) : SyThere e n ↔ (!syListed n || (syWarden n && decide (e < 88))) = false := by
  simp only [SyThere, syListed, syWarden, List.mem_cons, List.not_mem_nil, or_false, List.contains_eq_mem, Bool.or_eq_false_iff,
    Bool.not_eq_false', Bool.or_eq_true, Bool.and_eq_false_iff, decide_eq_true_eq, decide_eq_false_iff_not]
  omega

theorem syTask_iff (n : Nat) (write : Bool) : SyTask n write ↔ (if write then syTaskWrite n else syTaskRead n) = true := by
  cases write <;> simp [SyTask, syTaskWrite, syTaskRead, or_assoc]

theorem syFault_missing {e n : Nat} (x : EngSt) (write : Bool) (h : ¬ SyThere e n) : syFault x e n write = some (1, 0, 0) := by
  rw [syThere_iff, Bool.not_eq_false] at h
  rw [syFault, if_pos h]
  rfl

theorem syFault_private {e n : Nat} {x : EngSt} {write : Bool} (h : SyThere e n) (ht : x.task = true) (hw : ¬ SyTask n write) :
    syFault x e n write = some (2, 4, 0) := by
  rw [syTask_iff] at hw
  rw [syFault, if_neg (by rw [(syThere_iff e n).1 h]; simp), if_pos (by rw [ht]; simpa using hw)]
  rfl

theorem syFault_none {e n : Nat} {x : EngSt} {write : Bool} (h : SyThere e n) (hw : x.task = true → SyTask n write) :
    syFault x e n write = none := by
  rw [syTask_iff] at hw
  rw [syFault, if_neg (by rw [(syThere_iff e n).1 h]; simp), if_neg (by simpa using hw)]

/-! What a read returns and a write leaves (R196). -/

theorem EngSt.wordsOn_issued (x : EngSt) (ch i : Nat) : x.issued.wordsOn ch i = x.wordsOn ch i := rfl

theorem Dev.issued_eq_withEng (d : Dev) (e : Nat) : d.issued e = d.withEng (Tbl.set EngSt.reset d.eng e (d.e e).issued) := rfl

theorem Dev.line_issued (d : Dev) (e t : Nat) : (d.issued e).line t = d.line t := rfl

/-- R226: the events sampled do not read E_PC. -/
theorem Dev.evpend_issued (d : Dev) (e i : Nat) : (d.issued e).evpend e i = d.evpend e i := by
  simp -implicitDefEqProofs only [Dev.evpend, Dev.e_issued, Dev.line_issued, EngSt.wordsOn_issued]
  rfl

theorem clampN_eq {lo hi : Nat} (v : Nat) (h : lo ≤ hi) : clampN lo hi v = max lo (min hi v) := by
  unfold clampN
  split
  · omega
  · split <;> omega

/-- R187, R196: the bits of STATUS that engine e has, of a value written. -/
theorem statusMask_eq (e : Nat) (v : DWord) : statusMask e (v.setWidth 3) = BitVec.ofNat 3
    (4 * (if v.getLsbD 2 then 1 else 0) + 2 * (if v.getLsbD 1 && decide (88 ≤ e) then 1 else 0) +
      if v.getLsbD 0 && decide (e < 56) then 1 else 0) := by
  have hv : v.setWidth 3 = BitVec.ofNat 3 (4 * (v.getLsbD 2).toNat + 2 * (v.getLsbD 1).toNat + (v.getLsbD 0).toNat) := by
    apply BitVec.eq_of_getLsbD_eq
    intro i hi
    rw [BitVec.getLsbD_setWidth, BitVec.getLsbD_ofNat]
    interval_cases i <;> cases v.getLsbD 0 <;> cases v.getLsbD 1 <;> cases v.getLsbD 2 <;> decide
  rw [statusMask, roleOf, hv]
  rcases (by omega : e < 56 ∨ (56 ≤ e ∧ e < 88) ∨ 88 ≤ e) with h | ⟨h, h'⟩ | h
  · have h' : ¬ 88 ≤ e := by omega
    simp only [h, if_true, decide_true, h', decide_false]
    cases v.getLsbD 0 <;> cases v.getLsbD 1 <;> cases v.getLsbD 2 <;> decide
  · have h1 : ¬ e < 56 := by omega
    have h2 : ¬ 88 ≤ e := by omega
    simp only [h', h1, h2, if_true, if_false, decide_false]
    cases v.getLsbD 0 <;> cases v.getLsbD 1 <;> cases v.getLsbD 2 <;> decide
  · have h1 : ¬ e < 56 := by omega
    have h2 : ¬ e < 88 := by omega
    simp only [h, h1, h2, if_false, decide_true, decide_false]
    cases v.getLsbD 0 <;> cases v.getLsbD 1 <;> cases v.getLsbD 2 <;> decide

theorem roleCode_eq (e : Nat) : (roleOf e).code * 256 = if e < 56 then 0 else if e < 88 then 256 else 512 := by
  unfold roleOf
  split
  · rfl
  · split <;> rfl

theorem Dev.syRead_issued (d : Dev) (e n i : Nat) : (d.issued e).syRead e n i = d.syRead e n i := by
  simp -implicitDefEqProofs only [Dev.syRead, Dev.e_issued, Dev.evpend_issued]
  rfl

theorem Dev.syRead_id (d : Dev) (e i : Nat) :
    d.syRead e 0 i = BitVec.ofNat 64 ((if e < 56 then 0 else if e < 88 then 256 else 512) + 16 * (e / 8) + e % 8) := by
  rw [← roleCode_eq, Nat.mul_comm 16]
  rfl

theorem Dev.syRead_cause (d : Dev) (e i : Nat) : d.syRead e 5 i = BitVec.ofNat 64 (256 * (d.e e).det + (d.e e).vec) := by
  rw [Nat.mul_comm 256]
  rfl

theorem Dev.syRead_timer (d : Dev) (e i : Nat) : d.syRead e 10 i = BitVec.ofNat 64 (((d.e e).timerAt.map (· - i)).getD 0) := by
  have h : d.syRead e 10 i = match (d.e e).timerAt with | some t => BitVec.ofNat 64 (t - i) | none => 0 := rfl
  rw [h]
  cases (d.e e).timerAt <;> rfl

theorem Dev.syRead_wdog (d : Dev) (e i : Nat) :
    d.syRead e 11 i = BitVec.ofNat 64 ((if (d.e e).wdogEn then 2147483648 else 0) + (d.e e).wdogExp) := by
  have h : d.syRead e 11 i = BitVec.ofNat 64 (b2n (d.e e).wdogEn * 2 ^ 31 + (d.e e).wdogExp) := rfl
  rw [h]
  cases (d.e e).wdogEn <;> rfl

theorem Dev.syRead_winL (d : Dev) (e i : Nat) : d.syRead e 13 i = BitVec.ofNat 64 (65536 * (d.e e).winLLimit + (d.e e).winLBase) := by
  rw [Nat.mul_comm 65536]
  rfl

theorem Dev.syRead_winS (d : Dev) (e i : Nat) : d.syRead e 14 i = BitVec.ofNat 64 (65536 * (d.e e).winSLimit + (d.e e).winSBase) := by
  rw [Nat.mul_comm 65536]
  rfl

theorem Dev.syRead_scratch (d : Dev) (e i : Nat) {n : Nat} (h : 32 ≤ n) (h' : n < 40) : d.syRead e n i = Tbl.get 0 (d.e e).scratch n := by
  interval_cases n <;> rfl

section
variable (x : EngSt) (e i : Nat) (v : DWord)

theorem EngSt.syWrite_status : x.syWrite e 2 i v = x.setStatus (statusMask e (v.setWidth 3)) := rfl

theorem EngSt.syWrite_wdog : x.syWrite e 11 i v = { x with
    wdogEn := v.getLsbD 31, wdogExp := max 10 (min 30 (v.toNat % 32)),
    wdogStart := if v.getLsbD 31 && !x.wdogEn then i else x.wdogStart } := by
  have h : x.syWrite e 11 i v = { x with
    wdogEn := bit v.toNat 31, wdogExp := clampN 10 30 (v.toNat % 32),
    wdogStart := if bit v.toNat 31 && !x.wdogEn then i else x.wdogStart } := rfl
  rw [h, clampN_eq _ (by norm_num), bit_eq_testBit, BitVec.testBit_toNat]

theorem EngSt.syWrite_winL : x.syWrite e 13 i v = { x with
    winLBase := max 16 (min 63 (v.toNat % 64)),
    winLLimit := max (max 17 (min 64 (v.toNat / 65536 % 128))) (max 16 (min 63 (v.toNat % 64)) + 1) } := by
  have h : x.syWrite e 13 i v = { x with
    winLBase := clampN 16 63 (v.toNat % 64),
    winLLimit := max (clampN 17 64 (v.toNat / 65536 % 128)) (clampN 16 63 (v.toNat % 64) + 1) } := rfl
  rw [h, clampN_eq _ (by norm_num), clampN_eq _ (by norm_num)]

theorem EngSt.syWrite_winS : x.syWrite e 14 i v = { x with
    winSBase := v.toNat % 1024,
    winSLimit := max (max 1 (min 1024 (v.toNat / 65536 % 2048))) (v.toNat % 1024 + 1) } := by
  have h : x.syWrite e 14 i v = { x with
    winSBase := v.toNat % 1024,
    winSLimit := max (clampN 1 1024 (v.toNat / 65536 % 2048)) (v.toNat % 1024 + 1) } := rfl
  rw [h, clampN_eq _ (by norm_num)]

theorem EngSt.syWrite_scratch {n : Nat} (h : 32 ≤ n) (h' : n < 40) : x.syWrite e n i v = { x with scratch := Tbl.set 0 x.scratch n v } := by
  interval_cases n <;> rfl

/-- R196: a read-only register ignores a write. -/
theorem EngSt.syWrite_ro {n : Nat} (h : n ∈ [0, 1, 5, 6, 9, 16, 40, 42]) : x.syWrite e n i v = x := by
  simp only [List.mem_cons, List.not_mem_nil, or_false] at h
  rcases h with rfl | rfl | rfl | rfl | rfl | rfl | rfl | rfl <;> rfl

end

/-! Accesses to the system registers (R208). -/

theorem EngFree.issued {f : Dev → Dev} (h : EngFree f) (d : Dev) (e : Nat) : f (d.issued e) = (f d).issued e := by
  rw [Dev.issued_eq_withEng, h, Dev.issued_eq_withEng, h.eng, h.e]

theorem Dev.eng_claim (d : Dev) (t : Nat) : (d.claim t).2.eng = d.eng :=
  (congrArg (fun p => p.2.eng) (d.claim_withEng d.eng t)).trans (Dev.eng_withEng ..)

theorem Dev.e_claim (d : Dev) (t e : Nat) : (d.claim t).2.e e = d.e e := by rw [Dev.e, Dev.eng_claim, Dev.e]

theorem Dev.claim_issued (d : Dev) (e t : Nat) : (d.issued e).claim t = ((d.claim t).1, (d.claim t).2.issued e) := by
  rw [Dev.issued_eq_withEng, Dev.claim_withEng, Dev.issued_eq_withEng, Dev.eng_claim, Dev.e_claim]

/-- A change of an engine that runs, after the issue of its instruction. -/
theorem Dev.onE_issued_running {d : Dev} {e : Nat} (hr : (d.e e).st = .running) (f : EngSt → EngSt) :
    (d.issued e).onE e f = d.setE e (f (d.e e).issued) :=
  Dev.onE_onE _ _ _ _ (by simp [EngSt.issued, hr])

/-- R212: the exception an instruction takes in place of its effect. -/
def Dev.raises (d : Dev) (e vec det : Nat) : Dev :=
  d.entry e ((d.e e).issued.entered vec det ((d.e e).pc.setWidth 64) 0 (d.issueAt e))

section
variable {e : EngId} {gd ga : GReg} {n : Fin 64} {s : State} (hs : s.dev.canIssue e)
include hs

theorem makes_mfsy_fault {vec det : Nat} (hx : (s.dev.e e).exl = false)
    (hf : syFault (s.dev.e e).issued e n false = some (vec, det, 0)) : Makes (.mfsy e gd n) s (s.dev.raises e vec det) := by
  have h := makes_of_issue (c := .mfsy e gd n) hs rfl
  rw [Dev.e_issued, hf] at h
  dsimp only at h
  rw [Dev.faulting_issued hs hx] at h
  exact h

theorem makes_mtsy_fault {vec det : Nat} (hx : (s.dev.e e).exl = false)
    (hf : syFault (s.dev.e e).issued e n true = some (vec, det, 0)) : Makes (.mtsy e n ga) s (s.dev.raises e vec det) := by
  have h := makes_of_issue (c := .mtsy e n ga) hs rfl
  rw [Dev.e_issued, hf] at h
  dsimp only at h
  rw [Dev.faulting_issued hs hx] at h
  exact h

theorem makes_mfsy (hf : syFault (s.dev.e e).issued e n false = none) (h40 : n.val ≠ 40) :
    Makes (.mfsy e gd n) s (s.dev.setE e ((s.dev.e e).done ((s.dev.e e).w gd (s.dev.syRead e n (s.dev.issueAt e))) (s.dev.issueAt e) 1
      ((s.dev.e e).pc + 4))) := by
  have h := makes_of_issue (c := .mfsy e gd n) hs rfl
  rw [Dev.e_issued, hf] at h
  dsimp only at h
  rw [if_neg h40, Dev.syRead_issued, Dev.onE_issued hs] at h
  rw [EngSt.issued, EngSt.w_lastPc] at h
  simpa only [EngSt.next, EngSt.done, EngSt.pc_w] using h

/-- R300, R208: an engine's claim. -/
theorem makes_mfsy_claim (hf : syFault (s.dev.e e).issued e n false = none) (h40 : n.val = 40) :
    Makes (.mfsy e gd n) s ((s.dev.claim (e - 88)).2.setE e ((s.dev.e e).done
      ((s.dev.e e).w gd (BitVec.ofNat 64 (s.dev.claim (e - 88)).1)) (s.dev.issueAt e) 4 ((s.dev.e e).pc + 4))) := by
  have h := makes_of_issue (c := .mfsy e gd n) hs rfl
  rw [Dev.e_issued, hf] at h
  dsimp only at h
  rw [if_pos h40, Dev.claim_issued] at h
  dsimp only at h
  rw [Dev.onE_issued_running (by rw [Dev.e_claim]; exact hs.1), Dev.e_claim, EngSt.issued, EngSt.w_lastPc] at h
  simpa only [EngSt.next, EngSt.done, EngSt.pc_w] using h

/-- A write leaves the record y, apart from the pc and the time of the next instruction. -/
theorem makes_mtsy (hf : syFault (s.dev.e e).issued e n true = none) (h41 : n.val ≠ 41) {y : EngSt}
    (hy : (s.dev.e e).issued.syWrite e n (s.dev.issueAt e) ((s.dev.e e).r ga) = { y with lastPc := (s.dev.e e).pc })
    (hpc : y.pc = (s.dev.e e).pc) : Makes (.mtsy e n ga) s (s.dev.setE e ((s.dev.e e).done y (s.dev.issueAt e) 1 ((s.dev.e e).pc + 4))) := by
  have h := makes_of_issue (c := .mtsy e n ga) hs rfl
  rw [Dev.e_issued, hf] at h
  dsimp only at h
  have hr : (s.dev.e e).issued.r ga = (s.dev.e e).r ga := rfl
  rw [if_neg h41, Dev.onE_issued hs, hr, hy, EngSt.next, hpc] at h
  exact h

/-- R301, R208: an engine's end of interrupt. -/
theorem makes_mtsy_eoi (hf : syFault (s.dev.e e).issued e n true = none) (h41 : n.val = 41) :
    Makes (.mtsy e n ga) s ((s.dev.eoi (e - 88)).setE e ((s.dev.e e).done (s.dev.e e) (s.dev.issueAt e) 1 ((s.dev.e e).pc + 4))) := by
  have h := makes_of_issue (c := .mtsy e n ga) hs rfl
  rw [Dev.e_issued, hf] at h
  dsimp only at h
  rw [if_pos h41, (engFree_eoi _).issued] at h
  rw [Dev.onE_issued_running (by rw [(engFree_eoi _).e]; exact hs.1), (engFree_eoi _).e] at h
  exact h

end

/-! Halt (R188, R208, R303). -/

/-- From d to d' registers and the record of the host change, and nothing else. -/
def Dev.RegsHost (d d' : Dev) : Prop := ∃ r h, d' = { d with regs := r, host := h }

theorem Dev.RegsHost.refl (d : Dev) : d.RegsHost d := ⟨d.regs, d.host, rfl⟩

section
variable {d d' : Dev} (hd : d.RegsHost d')
include hd

theorem Dev.RegsHost.setReg (a v : Nat) : d.RegsHost (d'.setReg a v) := by
  obtain ⟨r, h, rfl⟩ := hd
  exact ⟨_, _, rfl⟩

theorem Dev.RegsHost.set (f : Fld) (v : Nat) : d.RegsHost (d'.set f v) := hd.setReg _ _

theorem Dev.RegsHost.onHost (g : HostSt → HostSt) : d.RegsHost (d'.onHost g) := by
  obtain ⟨r, h, rfl⟩ := hd
  exact ⟨_, _, rfl⟩

theorem Dev.RegsHost.foldl {β : Type} {f : Dev → β → Dev} (hf : ∀ d' b, d.RegsHost d' → d.RegsHost (f d' b)) (l : List β) :
    d.RegsHost (l.foldl f d') :=
  List.foldlRecOn (motive := d.RegsHost) l f hd fun d' h b _ => hf d' b h

theorem Dev.RegsHost.refreshLines : d.RegsHost d'.refreshLines := by
  have hline : ∀ (d' : Dev) (t : Nat), d.RegsHost d' → d.RegsHost (d'.refreshLine t) := fun d' t h => by
    unfold Dev.refreshLine
    dsimp only
    split
    · exact (h.set _ _).set _ _
    · exact h.set _ _
  unfold Dev.refreshLines Dev.syncInta
  split
  · exact (hd.foldl hline _).onHost _
  · exact hd.foldl hline _

end

theorem Dev.regsHost_flushTarget (d : Dev) (t : Nat) : d.RegsHost (d.flushTarget t) :=
  (((Dev.RegsHost.refl d).foldl (fun _ _ h => (h.setReg _ _).setReg _ _) _).set _ _).refreshLines

theorem Dev.RegsHost.c {d d' : Dev} (hd : d.RegsHost d') (k : Nat) : d'.c k = d.c k := by
  obtain ⟨r, h, rfl⟩ := hd
  rfl

/-- R223: a stop needs a new DRAIN. -/
theorem Dev.drained_stopEngine (d : Dev) (e : Nat) (st : EState) : ((d.stopEngine e st).c (e / 8)).drained = false := by
  have h : (((d.onE e fun x => { x with st := st, wait := none }).onC (e / 8) fun c => { c with drained := false }).c (e / 8)).drained = false := by
    rw [Dev.c_onC_same]
  unfold Dev.stopEngine
  dsimp only
  split
  · rw [(Dev.regsHost_flushTarget _ _).c, h]
  · exact h

theorem Dev.depth_stopEngine (d : Dev) {e : Nat} (st : EState) (h : 88 ≤ e) : (d.stopEngine e st).depth (e - 88) = 0 := by
  unfold Dev.stopEngine
  dsimp only
  rw [if_pos h, Dev.depth_flushTarget]

end Sys2Proof.Machine

open Sys2Proof.Machine

/-- Settles O10: trap, eret and halt case by case; every access to a system register is a fault (`syFault_missing`, `syFault_private`) or, by its
number, the read, claim, write or end of interrupt stated. -/
theorem systemResult : Obligations.SystemResult := by
  refine ⟨?control, ?registers⟩
  case control =>
    intro e code s hs x i z Faults
    have hpriv : ∀ {c : Instr}, x.exl = false → Makes c s ((s.dev.issued e).faulting e vPrivilege 1 0 i) →
        Makes c s (s.dev.entry e (z.entered 2 1 (x.pc.setWidth 64) 0 i)) := fun hx h => by
      rw [Dev.faulting_issued hs hx] at h
      exact h
    have htrap := makes_of_issue (c := .trap e code) hs rfl
    have heret := makes_of_issue (c := .eret e) hs rfl
    have hhalt := makes_of_issue (c := .halt e) hs rfl
    rw [Dev.e_issued] at heret hhalt
    rw [Dev.pc64, Dev.e_issued] at htrap
    have hjump : x.task = false → Makes (.eret e) s ((s.dev.issued e).jumpTo e i 3 x.epc fun x => x.setStatus x.estatus) := fun ht => by
      rwa [if_neg (show ¬ x.issued.task = true by simpa [EngSt.issued] using ht)] at heret
    have hjumps : x.task = false → Jumps (.eret e) s e x.epc (x.setStatus x.estatus) := fun ht => jumps_of_makes hs (hjump ht) rfl
    refine ⟨fun hx => ?_, fun hx => gives_fault htrap hx (by decide), fun ht hp hx => (hjumps ht).2 hp hx, fun ht hp hx => ?_,
      fun ht hp => (hjumps ht).1 hp, fun ht => ?_, fun ht hx => ⟨hpriv hx ?_, hpriv hx ?_⟩⟩
    · rw [Dev.except_issued hs hx] at htrap
      exact htrap
    · have h := hjump ht
      rw [Dev.jumpTo, if_neg (hp ∘ (goodTarget_iff _).1)] at h
      exact gives_fault h hx (by decide)
    · rw [if_neg (show ¬ x.issued.task = true by simpa [EngSt.issued] using ht), Dev.onE_issued hs] at hhalt
      refine hhalt.gives ?_
      dsimp only
      rw [Dev.e_stopEngine, Dev.e_setE_same]
      exact ⟨rfl, rfl, rfl, rfl, Dev.drained_stopEngine .., Dev.depth_stopEngine _ _⟩
    · rwa [if_pos (show x.issued.task = true from ht)] at heret
    · rwa [if_pos (show x.issued.task = true from ht)] at hhalt
  case registers =>
    intro e gd ga n s hs x i v w z Reads Writes There TaskReads TaskWrites Illegal Private
    refine ⟨fun hn hx => ⟨makes_mfsy_fault hs hx (syFault_missing _ _ hn), makes_mtsy_fault hs hx (syFault_missing _ _ hn)⟩,
      fun hn ht hx => ⟨fun hr => makes_mfsy_fault hs hx (syFault_private hn ht hr), fun hw => makes_mtsy_fault hs hx (syFault_private hn ht hw)⟩,
      fun hn hr => ?_, fun hn hw => ?_⟩
    · have hf : syFault x.issued e n false = none := syFault_none hn hr
      have reads : ∀ {y}, n.val ≠ 40 → s.dev.syRead e n i = y → Reads y := fun h40 hy => hy ▸ makes_mfsy hs hf h40
      have hread : ∀ {k : Nat} {y : DWord}, s.dev.syRead e k i = y → k ≠ 40 → n.val = k → Reads y := fun hy h40 hn =>
        reads (hn ▸ h40) (hn ▸ hy)
      clear_value Reads
      exact ⟨hread (s.dev.syRead_id e i) (by decide), hread rfl (by decide), hread rfl (by decide), hread rfl (by decide),
        hread rfl (by decide), hread (s.dev.syRead_cause e i) (by decide), hread rfl (by decide), hread rfl (by decide),
        hread rfl (by decide), hread (s.dev.syRead_timer e i) (by decide), hread (s.dev.syRead_wdog e i) (by decide),
        fun h => h.elim (hread rfl (by decide)) (hread rfl (by decide)), hread (s.dev.syRead_winL e i) (by decide),
        hread (s.dev.syRead_winS e i) (by decide), hread rfl (by decide),
        fun h1 h2 => reads (by omega) (s.dev.syRead_scratch e i h1 h2), fun h40 => makes_mfsy_claim hs hf h40, hread rfl (by decide)⟩
    · intro mode
      have hf : syFault x.issued e n true = none := syFault_none hn hw
      have hmode : mode v = statusMask e (v.setWidth 3) := (statusMask_eq e v).symm
      have writes : ∀ {y : EngSt}, n.val ≠ 41 → x.issued.syWrite e n i v = { y with lastPc := x.pc } → y.pc = x.pc → Writes y :=
        fun h41 hy hpc => makes_mtsy hs hf h41 hy hpc
      have hwrite : ∀ {k : Nat} {y : EngSt}, x.issued.syWrite e k i v = { y with lastPc := x.pc } → y.pc = x.pc → k ≠ 41 →
        n.val = k → Writes y := fun hy hpc h41 hn => writes (hn ▸ h41) (hn ▸ hy) hpc
      clear_value Writes mode
      rw [hmode]
      refine ⟨fun h => writes ?_ (x.issued.syWrite_ro e i v h) rfl, hwrite (x.issued.syWrite_status e i v) rfl (by decide), hwrite rfl rfl (by decide), hwrite rfl rfl (by decide),
        hwrite rfl rfl (by decide), hwrite rfl rfl (by decide), hwrite (x.issued.syWrite_wdog e i v) rfl (by decide), hwrite rfl rfl (by decide),
        hwrite (x.issued.syWrite_winL e i v) rfl (by decide), hwrite (x.issued.syWrite_winS e i v) rfl (by decide),
        fun h1 h2 => writes (by omega) (x.issued.syWrite_scratch e i v h1 h2) rfl,
        fun h41 => makes_mtsy_eoi hs hf h41⟩
      intro h41
      rw [h41] at h
      exact absurd h (by decide)

end

section
/-! Exceptions before an instruction and events between instructions (spec/07, R188, R194, R195, R210 to R213, R226 to R228). -/

open Sys2Proof

namespace Sys2Proof.Machine

/-! Fetch (R194, R195). -/

@[simp] theorem Dev.e_memEvt (d : Dev) (m k : Nat) : (d.memEvt m).e k = d.e k := rfl

theorem Dev.e_countEcc (d : Dev) (sp : Space) (c e idx : Nat) (r : Reading) (k : Nat) : (d.countEcc sp c e idx r).e k = d.e k := by
  cases r <;> cases sp <;>
    simp -implicitDefEqProofs only [Dev.countEcc, apply_ite (fun d => Dev.e d k), ite_self, Dev.e_setReg, Dev.e_inc, Dev.e_bump, Dev.e_memEvt]

theorem Dev.e_readWord (d : Dev) (sp : Space) (c e i k : Nat) : (d.readWord sp c e i).2.2.e k = d.e k := Dev.e_countEcc ..

theorem Dev.pc64_issued (d : Dev) (e : Nat) : (d.issued e).pc64 e = d.pc64 e := by
  rw [Dev.pc64, Dev.e_issued]
  rfl

/-- An exception of the engine that issues, with EXL = 0. -/
theorem Dev.faulting_running {d : Dev} {e : Nat} (hr : (d.e e).st = .running) (hx : (d.e e).exl = false) (vec det : Nat) (ev : DWord) (i : Nat) :
    d.faulting e vec det ev i = d.entry e ((d.e e).entered vec det ((d.e e).pc.setWidth 64) ev i) := by
  rw [Dev.faulting, Dev.except_eq _ _ _ _ _ _ _ (by simp [hr]) hx, Dev.pc64]

section
variable {d : Dev} {e : Nat} (hr : (d.e e).st = .running) (hw : d.clAwake e = true) (hd : d.entryDue e = none)
include hr hw hd

/-- R194: a fetch of a poisoned word. -/
theorem Dev.issue_poisoned (hp : (d.e e).pc.toNat ≤ 0xFFFC) (hb : (d.readWord .loc (e / 8) (e % 8) ((d.e e).pc.toNat / 8)).2.1 = true)
    (f : Nat → Dev → Dev) : d.issue e f =
      ((d.issued e).readWord .loc (e / 8) (e % 8) ((d.e e).pc.toNat / 8)).2.2.faulting e vPoison 1 (d.pc64 e) (d.issueAt e) := by
  unfold Dev.issue
  rw [if_pos ⟨hr, hw⟩, hd]
  dsimp only
  have hb' : ((d.issued e).readWord .loc (e / 8) (e % 8) ((d.e e).pc.toNat / 8)).2.1 = true := by
    rw [Dev.readWord, Dev.store_issued]
    exact hb
  rw [if_neg (by omega)]
  change (if ((d.issued e).readWord .loc (e / 8) (e % 8) ((d.e e).pc.toNat / 8)).2.1 = true then
    Dev.faulting ((d.issued e).readWord .loc (e / 8) (e % 8) ((d.e e).pc.toNat / 8)).2.2 e vPoison 1
      (Dev.pc64 ((d.issued e).readWord .loc (e / 8) (e % 8) ((d.e e).pc.toNat / 8)).2.2 e) (d.issueAt e) else f _ _) = _
  rw [if_pos hb', Dev.pc64, Dev.e_readWord, Dev.e_issued]
  rfl

end

/-- R194, R210: the fetch of a poisoned word leaves the pc in EVAL. -/
theorem gives_poisonedFetch {e : EngId} {s : State} (hr : (s.dev.e e).st = .running) (hw : s.dev.clAwake e = true)
    (hd : s.dev.entryDue e = none) (hp : (s.dev.e e).pc.toNat ≤ 0xFFFC)
    (hb : (s.dev.readWord .loc (e / 8) (e % 8) ((s.dev.e e).pc.toNat / 8)).2.1 = true) (hx : (s.dev.e e).exl = false) :
    Gives (.instructionFetchFault e) s fun t => (t.dev.e e).eval = (s.dev.e e).pc.setWidth 64 := by
  have h : Makes (.instructionFetchFault e) s (Neloc.fetchFault e s.dev) := makes_of_on rfl
  unfold Neloc.fetchFault at h
  dsimp only at h
  rw [if_pos (by rw [hb]; simp), Dev.issue_poisoned hr hw hd hp hb,
    Dev.faulting_running (by rw [Dev.e_readWord, Dev.e_issued]; exact hr) (by rw [Dev.e_readWord, Dev.e_issued]; exact hx),
    Dev.e_readWord, Dev.e_issued] at h
  refine h.gives ?_
  dsimp only
  rw [Dev.entry, Dev.e_setE_same]
  rfl

/-- What O11 says of EVAL: a poisoned word is fetched at pc 0 only. -/
theorem pc_eq_zero_of_exceptionEntry (h : Obligations.ExceptionEntry) {e : EngId} {s : State} (hr : (s.dev.e e).st = .running)
    (hw : s.dev.clAwake e = true) (hd : s.dev.entryDue e = none) (hp : (s.dev.e e).pc.toNat ≤ 0xFFFC)
    (hb : (s.dev.readWord .loc (e / 8) (e % 8) ((s.dev.e e).pc.toNat / 8)).2.1 = true) (hx : (s.dev.e e).exl = false) :
    (s.dev.e e).pc.setWidth 64 = (0 : DWord) := by
  obtain ⟨-, -, hpoison, -⟩ := h e 0 s
  obtain ⟨t, ht, -, hstate⟩ := hpoison hr hw hd hp hb hx
  obtain ⟨u, hu, -, hfetch⟩ := gives_poisonedFetch hr hw hd hp hb hx
  have htu : t = u := Host.Outcome.next.inj (ht.symm.trans hu)
  rw [← hfetch, ← htu, hstate]
  rfl

/-- Engine 95 about to fetch the word at 0xFFF8, which is poisoned. -/
def poisonedFetch : State := { dev :=
  { Dev.onE {} 95 fun _ => { st := .running, pc := 0xFFF8 } with locS := { synd := [(Space.loc.word 11 7 8191, 3)] } } }

/-! Events between instructions (R188, R211 to R213, R226 to R228). -/

/-- The part as the watchdog period of engine e ends. -/
def Dev.barked (d : Dev) (e : Nat) : Dev :=
  let t := (d.e e).wdogStart + 2 ^ (d.e e).wdogExp
  ((d.bump (Ctr.cluster (e / 8) 9)).reach e t).onE e fun x => { x with wdogStart := t, wdogMissed := true }

theorem Dev.e_barked (d : Dev) (e : Nat) :
    (d.barked e).e e = { d.e e with wdogStart := (d.e e).wdogStart + 2 ^ (d.e e).wdogExp, wdogMissed := true } :=
  Dev.e_onE_same ((d.bump (Ctr.cluster (e / 8) 9)).reach e ((d.e e).wdogStart + 2 ^ (d.e e).wdogExp)) e
    fun x => { x with wdogStart := (d.e e).wdogStart + 2 ^ (d.e e).wdogExp, wdogMissed := true }

theorem Dev.watchdog_first {d : Dev} {e : Nat} (hm : (d.e e).wdogMissed = false) : d.watchdog e =
    (d.barked e).except e vWatchdog 0 ((d.barked e).pc64 e) 0 (max ((d.barked e).issueAt e) ((d.e e).wdogStart + 2 ^ (d.e e).wdogExp)) := by
  unfold Dev.watchdog
  dsimp only
  rw [hm]
  rfl

theorem Dev.watchdog_second {d : Dev} {e : Nat} (hm : (d.e e).wdogMissed = true) : d.watchdog e =
    ((d.barked e).onE e fun x => { x with lastVec := vWatchdog, lastDet := 0, lastEval := 0 }).stopEngine e .fault := by
  unfold Dev.watchdog
  dsimp only
  rw [hm]
  rfl

/-- R211: with no WATCHDOG due, a warden's request line makes INTERRUPT due. -/
theorem Dev.entryDue_interrupt {d : Dev} {e : Nat} (hw : (d.e e).wdogEn = true → d.issueAt e < (d.e e).wdogStart + 2 ^ (d.e e).wdogExp)
    (he : 88 ≤ e) (hi : (d.e e).ie = true) (hx : (d.e e).exl = false) (hl : d.line (e - 88) = true) : d.entryDue e = some vInterrupt := by
  unfold Dev.entryDue
  dsimp only
  rw [if_neg, if_pos (by simp [he, hi, hx, hl])]
  simpa using hw

/-- R227: a wait that ends with no exception due. -/
theorem Dev.wake_eq {d : Dev} {e : Nat} (hw : d.clAwake e = true) (hd : d.entryDue e = none) (f : Dev → Dev) : d.wake e f = f d := by
  rw [Dev.wake, if_neg (by simp [hw]), hd]

end Sys2Proof.Machine

open Sys2Proof.Machine

/-- Refutes O11: a fetch of a poisoned word at pc 0xFFF8 leaves EVAL = 0xFFF8, the faulting address (R210), where the statement has 0. -/
theorem not_exceptionEntry : ¬ Obligations.ExceptionEntry := fun h =>
  absurd (pc_eq_zero_of_exceptionEntry h (e := 95) (s := poisonedFetch) (by decide +kernel) (by decide +kernel) (by decide +kernel)
    (by decide +kernel) (by decide +kernel) (by decide +kernel)) (by decide +kernel)

/-- Settles O12: the events between instructions, each by its rule: `entryDue_interrupt`, `watchdog_first` and `watchdog_second`, the timer, and the
wait for an event with its end (`wake_eq`). -/
theorem engineEvents : Obligations.EngineEvents := by
  refine ⟨fun e s => ?between, fun e gd ga s => ?wait⟩
  case between =>
    intro x i
    refine ⟨fun he hr hw hi hx hl hd => ?_, fun hr hw hen => ?_, fun n hn hw => ?_⟩
    · have h : Makes (.interruptEntry e) s (Neloc.interruptEntry e s.dev) := makes_of_on rfl
      have hc : 88 ≤ e.val ∧ (x.st = .running ∨ x.st = .waiting) ∧ s.dev.clAwake e ∧ x.ie ∧ !x.exl ∧ s.dev.line (e - 88) :=
        ⟨he, hr, hw, hi, by simp [hx], hl⟩
      unfold Neloc.interruptEntry at h
      dsimp only at h
      rw [if_pos hc, Dev.entryDue_interrupt hd he hi hx hl] at h
      have hst : x.st ≠ .halted := by rcases hr with hr | hr <;> simp [hr]
      rw [← Dev.except_eq s.dev e 7 0 _ _ _ hst hx]
      exact h
    · intro t0
      have h : Makes (.watchdogExpiry e) s (s.dev.watchdog e) := by
        have h : Makes (.watchdogExpiry e) s (Neloc.watchdogExpiry e s.dev) := makes_of_on rfl
        unfold Neloc.watchdogExpiry at h
        dsimp only at h
        rwa [if_pos ⟨hr, hw, hen⟩] at h
      refine ⟨fun hm hx => ?_, fun hm => ?_⟩
      · have hst : ((s.dev.barked e).e e).st ≠ .halted := by
          rw [Dev.e_barked]
          rcases hr with hr | hr <;> simp [show (s.dev.e e).st = _ from hr]
        rw [Dev.watchdog_first hm, Dev.except_eq _ _ _ _ _ _ _ hst (by rw [Dev.e_barked]; exact hx), Dev.pc64, Dev.e_barked] at h
        refine h.gives ?_
        dsimp only
        rw [Dev.entry, Dev.e_setE_same]
        exact ⟨rfl, rfl, rfl, rfl, rfl, rfl, rfl, rfl, rfl, rfl, rfl, rfl⟩
      · rw [Dev.watchdog_second hm] at h
        refine h.gives ?_
        dsimp only
        rw [Dev.e_stopEngine, Dev.e_onE_same, Dev.e_barked]
        exact ⟨rfl, rfl, rfl⟩
    · have h : Makes (.timerExpiry e) s ((s.dev.reach e n).onE e fun x => { x with timerAt := none, timerExp := true }) := by
        have h : Makes (.timerExpiry e) s (Neloc.timerExpiry e s.dev) := makes_of_on rfl
        unfold Neloc.timerExpiry at h
        rw [show (s.dev.e e).timerAt = some n from hn] at h
        dsimp only at h
        rwa [if_pos hw] at h
      refine h.gives ?_
      dsimp only
      rw [Dev.e_onE_same]
      exact ⟨rfl, rfl⟩
  case wait =>
    intro x i
    refine ⟨fun hs => ?_, fun m hst hwt hw hd hv => ?_⟩
    · intro v
      have h := makes_of_issue (c := .ewait e gd ga) hs rfl
      rw [Dev.e_issued, Dev.evpend_issued, show (s.dev.e e).issued.r ga = x.r ga from rfl] at h
      dsimp only at h
      refine ⟨fun hv => ?_, fun hv => ?_⟩
      · rw [if_pos (show (s.dev.evpend e (s.dev.issueAt e) &&& x.r ga != 0) = true from bne_iff_ne.2 hv), Dev.onE_issued hs, EngSt.issued, EngSt.w_lastPc] at h
        simpa only [EngSt.next, EngSt.done, EngSt.pc_w] using h
      · rw [if_neg (show ¬ (s.dev.evpend e (s.dev.issueAt e) &&& x.r ga != 0) = true from fun h => bne_iff_ne.1 h hv), Dev.onE_issued hs] at h
        refine h.gives ?_
        dsimp only
        rw [Dev.e_setE_same]
        exact ⟨rfl, rfl, rfl, rfl⟩
    · have h : Makes (.ewaitWake e) s (Neloc.ewaitWake e s.dev) := makes_of_on rfl
      unfold Neloc.ewaitWake at h
      dsimp only at h
      rw [show (s.dev.e e).st = .waiting from hst, show (s.dev.e e).wait = some (.event gd m) from hwt] at h
      dsimp only at h
      rw [if_pos (bne_iff_ne.2 hv), Dev.wake_eq hw hd] at h
      rw [Dev.onE_eq] at h
      simpa only [EngSt.next, EngSt.pc_w] using h

end

section
/-! The hardware channels (spec/07, R214 to R222): what is open to whom, csend, crecv and the arrival of replies. -/

open Sys2Proof

namespace Sys2Proof.Machine

/-! Which commands are open (R214). -/

/-- R214: the commands a role may send on a channel in system mode are those below this number. -/
def Role.cmds (r : Role) (ch : Nat) : Nat :=
  if ch < 8 then 1
  else if ch = 0x10 ∧ r ≠ .keeper then 7 else if ch = 0x11 ∧ r ≠ .keeper then 2
  else if ch = 0x12 ∧ r ≠ .keeper then 3 else if ch = 0x13 ∨ ch = 0x14 then 1
  else if ch = 0x15 ∧ r ≠ .flow then 2 else if ch = 0x23 ∧ r = .keeper then 5
  else if r ≠ .warden then 0
  else if 0x100 ≤ ch ∧ ch < 0x200 ∧ ch % 8 = 3 then 5
  else if ch = 0x200 then 4 else if ch = 0x201 then 2 else if ch = 0x202 then 7 else if ch = 0x203 ∨ ch = 0x204 then 3
  else if ch = 0x205 then 1 else if ch = 0x206 then 5 else 0

theorem roleOf_cases (e : Nat) :
    (e < 56 ∧ roleOf e = .flow) ∨ ((56 ≤ e ∧ e < 88) ∧ roleOf e = .keeper) ∨ (88 ≤ e ∧ roleOf e = .warden) := by
  unfold roleOf
  rcases (by omega : e < 56 ∨ (56 ≤ e ∧ e < 88) ∨ 88 ≤ e) with h | h | h
  · simp [h]
  · simp [h, show ¬ e < 56 by omega]
  · simp [h, show ¬ e < 56 by omega, show ¬ e < 88 by omega]

/-- R214: the table of commands, by kind of channel and role. -/
theorem Role.cmds_eq (r : Role) (ch : Nat) :
    r.cmds ch = if chanKind ch ≠ .reserved ∧ chanOpen r ch = true then chanCmds ch else 0 := by
  have low : ∀ ch < 0x25, ∀ r ∈ [Role.flow, .keeper, .warden], r.cmds ch =
      if chanKind ch ≠ .reserved ∧ chanOpen r ch = true then chanCmds ch else 0 := by decide
  have high : ∀ k < 7, ∀ r ∈ [Role.flow, .keeper, .warden], r.cmds (0x200 + k) =
      if chanKind (0x200 + k) ≠ .reserved ∧ chanOpen r (0x200 + k) = true then chanCmds (0x200 + k) else 0 := by decide
  have hr : r ∈ [Role.flow, .keeper, .warden] := by cases r <;> decide
  rcases (by omega : ch < 0x25 ∨ (0x25 ≤ ch ∧ ch < 0x100) ∨ (0x100 ≤ ch ∧ ch < 0x200) ∨ (0x200 ≤ ch ∧ ch < 0x207) ∨ 0x207 ≤ ch)
    with h | h | h | h | h
  · exact low ch h r hr
  · cases r <;> simp (disch := omega) [Role.cmds, chanKind, if_pos, if_neg]
  · rcases (by omega : ch % 8 = 3 ∨ (ch % 8 ≠ 3 ∧ ch % 8 ≤ 4) ∨ 4 < ch % 8) with h8 | h8 | h8 <;>
      cases r <;> simp (disch := omega) [Role.cmds, chanKind, chanOpen, chanCmds, if_pos, if_neg]
  · obtain ⟨k, rfl⟩ := Nat.exists_eq_add_of_le h.1
    exact high k (by omega) r hr
  · cases r <;> simp (disch := omega) [Role.cmds, chanKind, if_pos, if_neg]

/-- R210, R214: a command in system mode is open exactly below the number its role has on the channel. -/
theorem chanFault_send_iff {x : EngSt} (e ch cmd : Nat) (ht : x.task = false) :
    chanFault x e ch cmd false = none ↔ cmd < (roleOf e).cmds ch := by
  rw [Role.cmds_eq, chanFault]
  by_cases hk : chanKind ch = .reserved
  · simp [hk]
  · by_cases ho : chanOpen (roleOf e) ch = true <;> simp [hk, ho, ht]

theorem chanKind_reserved {ch : Nat} (h : 8 ≤ ch) (h' : ch < 16) : chanKind ch = .reserved := by
  simp (disch := omega) [chanKind, if_neg]

theorem chanFault_reserved (x : EngSt) (e cmd : Nat) (recv : Bool) {ch : Nat} (h : 8 ≤ ch) (h' : ch < 16) :
    chanFault x e ch cmd recv = some (4, 1, BitVec.ofNat 64 ch) := if_pos (chanKind_reserved h h')

theorem chanFault_task_ne {x : EngSt} (e cmd : Nat) (recv : Bool) {ch : Nat} (ht : x.task = true) (h : 8 ≤ ch)
    (hc : ch ∉ [0x10, 0x11, 0x12, 0x14]) : chanFault x e ch cmd recv ≠ none := by
  have hopen : chanTask ch = false := by
    rw [chanTask, decide_eq_false (by omega), Bool.false_or]
    simpa using hc
  unfold chanFault
  dsimp only
  by_cases hk : chanKind ch = .reserved
  · simp [hk]
  · simp [hk, ht, hopen]

theorem chanFault_mbox {x : EngSt} (e : Nat) {ch : Nat} (h : ch < 8) : chanFault x e ch 0 false = none := by
  have ho : ∀ r, chanOpen r ch = true := fun r => if_pos h
  simp [chanFault, chanKind, h, ho, chanTask, chanCmds]

/-- R210, R214: a crecv with a command the channel has not. -/
theorem chanFault_recv_cmd {x : EngSt} {e ch cmd : Nat} (h0 : cmd ≠ 0) (hopen : chanFault x e ch 0 true = none)
    (h1 : ¬ (cmd = 1 ∧ octNotice ch = true)) : chanFault x e ch cmd true = some (4, 3, BitVec.ofNat 64 ch) := by
  simp only [chanFault, if_true, true_or] at hopen ⊢
  rw [if_neg (fun h => h.elim h0 h1 : ¬ (cmd = 0 ∨ (cmd = 1 ∧ octNotice ch = true)))]
  split_ifs at hopen ⊢
  rfl

end Sys2Proof.Machine
end

section
/-! csend, crecv and the arrival of replies on the hardware channels (spec/07, R214 to R222). -/

open Sys2Proof

namespace Sys2Proof.Machine

theorem roleOf_ne_keeper (e : Nat) : roleOf e ≠ .keeper ↔ e < 56 ∨ 88 ≤ e := by
  rcases roleOf_cases e with ⟨h, hr⟩ | ⟨h, hr⟩ | ⟨h, hr⟩ <;> simp [hr] <;> omega

theorem roleOf_ne_flow (e : Nat) : roleOf e ≠ .flow ↔ 56 ≤ e := by
  rcases roleOf_cases e with ⟨h, hr⟩ | ⟨h, hr⟩ | ⟨h, hr⟩ <;> simp [hr] <;> omega

theorem roleOf_keeper (e : Nat) : roleOf e = .keeper ↔ 56 ≤ e ∧ e < 88 := by
  rcases roleOf_cases e with ⟨h, hr⟩ | ⟨h, hr⟩ | ⟨h, hr⟩ <;> simp [hr] <;> omega

theorem roleOf_ne_warden (e : Nat) : roleOf e ≠ .warden ↔ e < 88 := by
  rcases roleOf_cases e with ⟨h, hr⟩ | ⟨h, hr⟩ | ⟨h, hr⟩ <;> simp [hr] <;> omega

theorem octNotice_of_mem {o k ch : Nat} (ho : o < 32) (hk : k ∈ [0, 1, 2, 4]) (hch : ch = 0x100 + 8 * o + k) : octNotice ch = true := by
  simp only [List.mem_cons, List.not_mem_nil, or_false] at hk
  have hkind : chanKind ch = .notice := by simp (disch := omega) [chanKind, if_pos, if_neg]
  simp [octNotice, hkind]
  omega

/-- R214: a warden in system mode may close an octet's notice channel. -/
theorem chanFault_close {x : EngSt} {e ch : Nat} (hn : octNotice ch = true) (he : 88 ≤ e) (ht : x.task = false) :
    chanFault x e ch 1 true = none := by
  have hr : roleOf e = .warden := by simp (disch := omega) [roleOf, if_neg]
  obtain ⟨hrange, hkind⟩ : (0x100 ≤ ch ∧ ch < 0x200) ∧ chanKind ch = .notice := by simpa [octNotice] using hn
  have ho : chanOpen .warden ch = true := by simp (disch := omega) [chanOpen, if_neg]
  simp [chanFault, hkind, hr, ho, ht, hn]

/-! csend (R215, R218, R221). -/

section
variable (d : Dev) (e : Nat)

theorem Dev.issue_issued {d : Dev} {e : Nat} (h : d.canIssue e) (f : Nat → Dev → Dev) : d.issue e f = f (d.issueAt e) (d.issued e) :=
  Dev.issue_eq h f

theorem Dev.e_onE (k : Nat) (f : EngSt → EngSt) (j : Nat) : (d.onE k f).e j = if k = j then f (d.e j) else d.e j := by
  by_cases h : k = j
  · rw [if_pos h, ← h, Dev.e_onE_same]
  · rw [if_neg h, Dev.e_onE_ne _ _ h]

theorem Dev.mbox_issued (m : Nat) : ((d.issued e).e m).mbox = (d.e m).mbox := by
  rw [Dev.issued, Dev.e_onE]
  split
  · next h => rw [h]; rfl
  · rfl

theorem Dev.epoch_issued (p : Nat) : (d.issued e).epoch p = d.epoch p := by
  rw [Dev.epoch, Dev.issued_eq_withEng, Dev.reg_withEng, Dev.epoch]

theorem Dev.barredPolder_issued (p : Nat) : (d.issued e).barredPolder p = d.barredPolder p := by
  rw [Dev.issued_eq_withEng]
  unfold Dev.barredPolder
  rfl

theorem Dev.holder_issued (o k : Nat) : (d.issued e).holder o k = d.holder o k := rfl

theorem Dev.chmode_issued : (d.issued e).chmode e = d.chmode e := rfl

end

@[simp] theorem EngSt.mbox_w (x : EngSt) (n : Nat) (v : DWord) : (x.w n v).mbox = x.mbox := by
  unfold EngSt.w
  split <;> rfl

@[simp] theorem EngSt.reqs_w (x : EngSt) (n : Nat) (v : DWord) : (x.w n v).reqs = x.reqs := by
  unfold EngSt.w
  split <;> rfl

/-- R215: engine e as its csend goes on with success: gd has 0. -/
theorem Dev.e_sent {d : Dev} {e : Nat} {pc : Word} (hpc : (d.e e).pc = pc) (gd i : Nat) :
    let y := (d.onE e fun x => (x.w gd 0).next i 4).e e
    y.ready = i + 4 ∧ y.pc = pc + 4 ∧ (0 < gd → y.r gd = 0) := by
  dsimp only
  rw [Dev.e_onE_same]
  refine ⟨rfl, by rw [EngSt.next, EngSt.pc_w, hpc], fun h => ?_⟩
  have hr : (((d.e e).w gd 0).next i 4).r gd = ((d.e e).w gd 0).r gd := rfl
  rw [hr, EngSt.r_w, if_pos ⟨rfl, by omega⟩]

/-- R215: a csend that finds its channel full. -/
theorem Dev.onE_full {d : Dev} {e : Nat} (hs : d.canIssue e) (gd : Nat) (v : DWord) (i n : Nat) :
    ((d.issued e).onE e fun x => (x.w gd v).next i n) = d.setE e ((d.e e).done ((d.e e).w gd v) i n ((d.e e).pc + 4)) := by
  rw [Dev.onE_issued hs, EngSt.issued, EngSt.w_lastPc]
  simp only [EngSt.next, EngSt.done, EngSt.pc_w]

/-- The part with warden number v - 1 as the holder of the channel in entry k, or none for v = 0. -/
def Dev.withHolder (d : Dev) (k v : Nat) : Dev := { d with holders := Tbl.set 0 d.holders k v }

theorem Dev.e_withHolder (d : Dev) (k v e : Nat) : (d.withHolder k v).e e = d.e e := rfl

theorem Dev.holder_withHolder_none (d : Dev) (o k : Nat) : (d.withHolder (8 * o + k) 0).holder o k = none := by
  simp [Dev.holder, Dev.withHolder]

theorem Dev.holder_withHolder_some (d : Dev) (o k w : Nat) : (d.withHolder (8 * o + k) (w + 1)).holder o k = some w := by
  simp [Dev.holder, Dev.withHolder]

theorem Dev.holder_withHolder_ne (d : Dev) {n p j : Nat} (v : Nat) (h : n ≠ 8 * p + j) : (d.withHolder n v).holder p j = d.holder p j := by
  rw [Dev.holder, Dev.withHolder, Tbl.get_set_ne _ _ _ _ h, Dev.holder]

theorem Dev.holder_onE (d : Dev) (e : Nat) (f : EngSt → EngSt) (o k : Nat) : (d.onE e f).holder o k = d.holder o k := rfl

/-- R216: an engine that receives v with a tag. -/
theorem EngSt.received_issued (x : EngSt) (gd ga i n : Nat) (v tag : DWord) :
    x.issued.received gd ga i n v tag = x.done ((x.w gd v).w ga tag) i n (x.pc + 4) := by
  have hw : x.issued.w gd v = { x.w gd v with lastPc := x.pc } := EngSt.w_lastPc ..
  rw [EngSt.received, hw, EngSt.w_lastPc]
  simp only [EngSt.next, EngSt.done, EngSt.pc_w]

theorem replyWord_zero (st : Nat) : replyWord st 0 = BitVec.ofNat 64 (st * 2 ^ 60) := by rw [replyWord, Nat.zero_mod, Nat.add_zero]

/-- R218: a request sent in the target's present epoch is answered where its target is barred. -/
theorem Dev.refusal_of_epoch {d : Dev} {r : Req} (h : r.epoch = d.epoch r.tgt) :
    d.refusal r = match d.barredPolder r.tgt with | some 3 => some 9 | some _ => some 10 | none => none := by
  rw [Dev.refusal, h, if_neg (by simp)]
  rfl

/-- R218: a request as it is sent in the target's present epoch. -/
theorem Dev.sentReq_of_epoch {d : Dev} {r : Req} (h : r.epoch = d.epoch r.tgt) :
    d.sentReq r = if r.chan = 0x15 then r else match d.barredPolder r.tgt with
      | none => r
      | some 3 => { r with phase := .answered, rep := BitVec.ofNat 64 (9 * 2 ^ 60) }
      | some _ => { r with phase := .answered, rep := BitVec.ofNat 64 (10 * 2 ^ 60) } := by
  rw [Dev.sentReq, Dev.refusal_of_epoch h]
  split
  · rfl
  · rcases d.barredPolder r.tgt with _ | _ | _ | _ | _ | n <;> simp only [replyWord_zero]

end Sys2Proof.Machine

open Sys2Proof.Machine

/-- Settles O13: what is open is a table by kind and role (`Role.cmds_eq`); a csend that is open goes on with 0 or 1 in gd (`e_sent`, `onE_full`),
and the close of a notice channel changes the one entry of its holder. -/
theorem channelSend : Obligations.ChannelSend := by
  refine ⟨fun e gd ga ch cmd s hs => ?send, ?close⟩
  case send =>
    intro x i Sent full
    have h : Makes (.csend e gd ga ch cmd) s (s.dev.csend e gd ga ch cmd) := makes_of_on rfl
    rw [Dev.csend, Dev.issue_issued hs, Dev.e_issued] at h
    dsimp only at h
    have hr : ∀ n, x.issued.r n = x.r n := fun _ => rfl
    have hfault : chanFault x.issued e ch cmd false = chanFault x e ch cmd false := rfl
    rw [hfault, hr] at h
    refine ⟨fun hch hcmd => ?_, fun hch hf => ?_, fun hx f hf => ?_, fun ht => ?_,
      chanFault_reserved x e cmd false, chanFault_task_ne e cmd false⟩
    · intro m k
      have hm : e.val / 8 * 8 + ch.val = m := by omega
      rw [hcmd, chanFault_mbox e hch] at h
      dsimp only at h
      rw [if_pos hch, hm, EngSt.mboxFrom, Dev.mbox_issued] at h
      refine ⟨fun hk => ?_, fun hk => ?_⟩
      · rw [if_neg (Nat.not_le.2 hk)] at h
        refine h.gives ⟨?_, Dev.e_sent ?_ gd i⟩
        · dsimp only
          rw [Dev.e_onE, Dev.e_onE_same, ← Dev.mbox_issued s.dev e m]
          split
          · exact EngSt.mbox_w ..
          · rfl
        · rw [Dev.e_onE]
          split <;> rw [Dev.e_issued] <;> rfl
      · rw [if_pos hk, Dev.onE_full hs] at h
        exact h
    · intro k tgt r no q
      have hcred : x.issued.credits ch = k := rfl
      rw [hf] at h
      dsimp only at h
      rw [if_neg (by omega), hcred] at h
      refine ⟨fun hk => ?_, fun hk => ?_⟩
      · rw [if_neg (Nat.not_le.2 hk)] at h
        have hq : (s.dev.issued e).sentReq { r with epoch := (s.dev.issued e).epoch tgt } = q := by
          rw [Dev.epoch_issued, Dev.sentReq_of_epoch (Dev.epoch_issued ..).symm, Dev.barredPolder_issued] <;> rfl
        refine h.gives ⟨?_, Dev.e_sent ?_ gd i⟩
        · dsimp only
          rw [Dev.e_onE_same, Dev.e_onE_same, Dev.e_issued, ← hq]
          exact EngSt.reqs_w ..
        · rw [Dev.e_onE_same, Dev.e_issued]
          rfl
      · rw [if_pos hk, Dev.onE_full hs] at h
        exact h
    · rw [hf] at h
      dsimp only at h
      rw [Dev.faulting_issued hs hx] at h
      exact h
    · intro cmds
      have hcmds : (roleOf e).cmds ch = cmds := by
        simp only [Role.cmds, roleOf_ne_keeper, roleOf_ne_flow, roleOf_keeper, roleOf_ne_warden]
        rfl
      rw [chanFault_send_iff e ch cmd ht, hcmds]
  case close =>
    intro e gd ga o ch cmd s hs he ht hcmd k hk hch x
    have h : Makes (.channelClose e gd ga ch cmd) s (s.dev.crecv e gd ga ch 1 true) := by
      rw [← hcmd]
      exact makes_of_on rfl
    have hoct : ch.val - 0x100 = 8 * o.val + k ∧ k < 8 := by
      simp only [List.mem_cons, List.not_mem_nil, or_false] at hk
      omega
    have hnotice : octNotice ch = true := octNotice_of_mem o.isLt hk hch
    have hfault : chanFault x.issued e ch 1 true = none := chanFault_close hnotice he ht
    rw [Dev.crecv, Dev.issue_issued hs, Dev.e_issued] at h
    dsimp only at h
    rw [hfault] at h
    dsimp only at h
    rw [if_pos rfl, hoct.1, show (8 * o.val + k) / 8 = o by omega, show (8 * o.val + k) % 8 = k by omega, Dev.holder_issued] at h
    refine h.gives ?_
    dsimp only
    have hown : (do let a ← some (e - 88); pure a.val) = some (e.val - 88) := by
      have hsub : (e - 88).val = e.val - 88 := Fin.sub_val_of_le he
      simpa using hsub
    rw [hown]
    by_cases hh : s.dev.holder o k = some (e.val - 88)
    · rw [if_pos hh]
      change (_ → Dev.holder ((((s.dev.issued e).withHolder (8 * o + k) 0)).onE e _) o k = none) ∧ _
      refine ⟨fun _ => ?_, fun h => absurd hh h, fun p j hp hj => ?_, ?_⟩
      · rw [Dev.holder_onE, Dev.holder_withHolder_none]
      · exact Dev.holder_withHolder_ne (s.dev.issued e) 0 (show 8 * o.val + k ≠ 8 * p + j by omega)
      · rw [Dev.e_onE_same, ← EngSt.received_issued, ← Dev.e_issued]
        rfl
    · rw [if_neg hh]
      refine ⟨fun h => absurd h hh, fun _ => rfl, fun p j hp hj => rfl, ?_⟩
      rw [Dev.e_onE_same, ← EngSt.received_issued, ← Dev.e_issued]

end

section
/-! crecv, its wait and its wake, and the arrival of replies (spec/07, R214, R216 to R218, R287). -/

open Sys2Proof

namespace Sys2Proof.Machine

theorem Dev.e_parityError (d : Dev) (n k : Nat) : (d.parityError n).e k = d.e k := by
  simp -implicitDefEqProofs only [Dev.parityError, Dev.e_bump, Dev.e_memEvt, Dev.e_inc]

theorem Dev.holder_set (d : Dev) (f : Fld) (v o k : Nat) : (d.set f v).holder o k = d.holder o k := rfl

theorem Dev.holder_bump (d : Dev) (n m o k : Nat) : (d.bump n m).holder o k = d.holder o k := rfl

theorem Dev.holder_checkWord (d : Dev) (ch : Nat) (p : Bool) (o k : Nat) : (d.checkWord ch p).holder o k = d.holder o k := by
  unfold Dev.checkWord Dev.parityError Dev.memEvt Dev.orF Dev.inc
  split
  · rw [Dev.holder_bump, Dev.holder_set, Dev.holder_set]
  · rfl

theorem Dev.e_checkWord (d : Dev) (ch : Nat) (p : Bool) (k : Nat) : (d.checkWord ch p).e k = d.e k := by
  unfold Dev.checkWord
  split
  · exact d.e_parityError 2 k
  · rfl

/-- The tag of a word taken from a channel. -/
theorem checked_tag (w : QWord) (ch : Nat) (p : Bool) :
    (if (w.checked ch p).poison then (2 : DWord) else 0) = if w.poison = true ∨ (p = false ∧ chanKind ch ≠ .request) then 2 else 0 := by
  by_cases hk : chanKind ch = .request <;> cases hw : w.poison <;> cases p <;> simp [QWord.checked, hk, hw]

theorem EngSt.dropWord_issued (x : EngSt) (ch : Nat) : x.issued.dropWord ch = { x.dropWord ch with lastPc := x.pc } := by
  unfold EngSt.dropWord
  split <;> rfl

theorem EngSt.take_issued (x : EngSt) (gd ga ch i n : Nat) (w : QWord) :
    x.issued.take gd ga ch i n w =
      { (x.dropWord ch).received gd ga i n w.word (if w.poison then 2 else 0) with lastPc := x.pc } := by
  have hg : ({ x.dropWord ch with lastPc := x.pc } : EngSt).w gd w.word = { (x.dropWord ch).w gd w.word with lastPc := x.pc } :=
    EngSt.w_lastPc ..
  rw [EngSt.take, EngSt.dropWord_issued, EngSt.received, hg, EngSt.w_lastPc]
  rfl

/-- R214: the part as a crecv that may take a word leaves the holder of its channel. -/
def Dev.hold (d : Dev) (e ch : Nat) : Dev := if octNotice ch then d.withHolder (ch - 0x100) (e - 88 + 1) else d

theorem Dev.e_hold (d : Dev) (e ch k : Nat) : (d.hold e ch).e k = d.e k := by
  unfold Dev.hold
  split <;> rfl

theorem Dev.chmode_hold (d : Dev) (e ch k : Nat) : (d.hold e ch).chmode k = d.chmode k := by
  unfold Dev.hold
  split <;> rfl

theorem Dev.holder_hold (d : Dev) (e : Nat) {ch : Nat} (h : octNotice ch = true) :
    (d.hold e ch).holder ((ch - 0x100) / 8) ((ch - 0x100) % 8) = some (e - 88) := by
  have hk : ch - 0x100 = 8 * ((ch - 0x100) / 8) + (ch - 0x100) % 8 := (Nat.div_add_mod _ 8).symm
  rw [Dev.hold, if_pos h]
  conv_lhs => rw [show d.withHolder (ch - 0x100) (e - 88 + 1) = d.withHolder (8 * ((ch - 0x100) / 8) + (ch - 0x100) % 8) (e - 88 + 1) by rw [← hk]]
  exact Dev.holder_withHolder_some ..

section
variable {e : EngId} {gd ga : GReg} {ch : Fin 1024} {p : Bool} {s : State} (hs : s.dev.canIssue e)
include hs

/-- R214, R216: a crecv on an open channel that no other warden holds. -/
theorem makes_crecv (hf : chanFault (s.dev.e e) e ch 0 true = none)
    (hh : octNotice ch = true → s.dev.holder ((ch.val - 0x100) / 8) ((ch.val - 0x100) % 8) = none ∨
      s.dev.holder ((ch.val - 0x100) / 8) ((ch.val - 0x100) % 8) = some (e.val - 88)) :
    Makes (.crecv e gd ga ⟨ch, p⟩) s (match (s.dev.e e).wordsOn ch (s.dev.issueAt e) with
      | w :: _ => (((s.dev.issued e).hold e ch).checkWord ch p).onE e fun x => x.take gd ga ch (s.dev.issueAt e) 2 (w.checked ch p)
      | [] =>
        if s.dev.get (R.CL_MODE.MODE (e / 8)) = 0 ∨ (chanKind ch = .request ∧ (s.dev.e e).credits ch = 0) then
          ((s.dev.issued e).hold e ch).onE e fun x => x.received gd ga (s.dev.issueAt e) 2 0 1
        else ((s.dev.issued e).hold e ch).onE e fun x => { x with st := .waiting, wait := some (.word gd ga ch 0), ready := s.dev.issueAt e }) := by
  have h : Makes (.crecv e gd ga ⟨ch, p⟩) s (s.dev.crecv e gd ga ch 0 p) := makes_of_on rfl
  rw [Dev.crecv, Dev.issue_issued hs, Dev.e_issued] at h
  dsimp only at h
  rw [show chanFault (s.dev.e e).issued e ch 0 true = none from hf] at h
  dsimp only at h
  have hmine : ¬ (octNotice ch = true ∧ ((s.dev.issued e).holder ((ch.val - 0x100) / 8) ((ch.val - 0x100) % 8)).any (· != e.val - 88) = true) := by
    rintro ⟨hn, ha⟩
    rw [Dev.holder_issued] at ha
    rcases hh hn with hh | hh <;> simp [hh] at ha
  rw [if_neg (by decide), if_neg hmine] at h
  have hmode : ((s.dev.issued e).hold e ch).chmode e = s.dev.get (R.CL_MODE.MODE (e / 8)) := Dev.chmode_hold ..
  rw [← hmode]
  exact h

/-- R214: a crecv on an octet's notice channel that another warden holds. -/
theorem makes_crecv_held (hf : chanFault (s.dev.e e) e ch 0 true = none) (hn : octNotice ch = true)
    (h1 : s.dev.holder ((ch.val - 0x100) / 8) ((ch.val - 0x100) % 8) ≠ none)
    (h2 : s.dev.holder ((ch.val - 0x100) / 8) ((ch.val - 0x100) % 8) ≠ some (e.val - 88)) :
    Makes (.crecv e gd ga ⟨ch, p⟩) s ((s.dev.issued e).onE e fun x => x.received gd ga (s.dev.issueAt e) 2 0 1) := by
  have h : Makes (.crecv e gd ga ⟨ch, p⟩) s (s.dev.crecv e gd ga ch 0 p) := makes_of_on rfl
  have hother : octNotice ch = true ∧ ((s.dev.issued e).holder ((ch.val - 0x100) / 8) ((ch.val - 0x100) % 8)).any (· != e.val - 88) = true := by
    refine ⟨hn, ?_⟩
    rw [Dev.holder_issued]
    obtain ⟨w, hw⟩ := Option.ne_none_iff_exists'.1 h1
    rw [hw] at h2 ⊢
    simpa using h2
  rw [Dev.crecv, Dev.issue_issued hs, Dev.e_issued] at h
  dsimp only at h
  rw [show chanFault (s.dev.e e).issued e ch 0 true = none from hf] at h
  dsimp only at h
  rwa [if_neg (by decide), if_pos hother] at h

/-- R210, R214: a crecv that is not open. -/
theorem makes_crecv_refused (hx : (s.dev.e e).exl = false) {c : Instr} {ch cmd : Nat} (hc : exec c s = s.on fun d => d.crecv e gd ga ch cmd p)
    {g : Nat × Nat × DWord} (hf : chanFault (s.dev.e e) e ch cmd true = some g) : Makes c s
      (s.dev.entry e ((s.dev.e e).issued.entered g.1 g.2.1 ((s.dev.e e).pc.setWidth 64) g.2.2 (s.dev.issueAt e))) := by
  have h : Makes c s (s.dev.crecv e gd ga ch cmd p) := makes_of_on hc
  rw [Dev.crecv, Dev.issue_issued hs, Dev.e_issued] at h
  dsimp only at h
  rw [show chanFault (s.dev.e e).issued e ch cmd true = some g from hf] at h
  dsimp only at h
  rwa [Dev.faulting_issued hs hx] at h

end

/-- What a command gives, it gives in a weaker form. -/
theorem gives_mono {c : Instr} {s : State} {p q : State → Prop} (h : Gives c s p) (hpq : ∀ t, p t → q t) : Gives c s q := by
  obtain ⟨t, ht, hq, hp⟩ := h
  exact ⟨t, ht, hq, hpq t hp⟩

/-- R216, R287: the word w arrives as the reply to engine e's oldest request on a channel. -/
def Dev.pushReply (d : Dev) (e ch : Nat) (parity : Bool) (w : DWord) (marked : Bool) : Dev :=
  (if parity then d else d.parityError 2).onE e fun x =>
    { x with reqs := x.reqs.eraseP (·.chan == ch), replies := x.replies ++ [⟨ch, w, !parity || marked, 0⟩] }

theorem Dev.e_pushReply (d : Dev) (e ch : Nat) (parity : Bool) (w : DWord) (marked : Bool) : (d.pushReply e ch parity w marked).e e =
    { d.e e with reqs := (d.e e).reqs.eraseP (·.chan == ch), replies := (d.e e).replies ++ [⟨ch, w, !parity || marked, 0⟩] } := by
  have he : (if parity then d else d.parityError 2).e e = d.e e := by
    split
    · rfl
    · exact d.e_parityError 2 e
  rw [Dev.pushReply, Dev.e_onE_same, he]

section
variable {d : Dev} {e ch : Nat} {r : Req} {p : Bool} (hr : (d.e e).reqs.find? (·.chan == ch) = some r)
include hr

theorem Dev.deliver_answered (hp : r.phase = .answered) (he : r.epoch = d.epoch r.tgt) :
    d.deliver e ch p = d.pushReply e ch p r.rep r.poison := by
  rw [Dev.deliver, hr]
  dsimp only
  rw [if_neg (not_not.2 he), hp]
  rfl

theorem Dev.deliver_refused {st : Nat} (hp : r.phase = .sent) (he : r.epoch = d.epoch r.tgt) (hb : d.refusal r = some st) :
    d.deliver e ch p = d.pushReply e ch p (replyWord st 0) false := by
  rw [Dev.deliver, hr]
  dsimp only
  rw [if_neg (not_not.2 he), hp, hb]
  rfl

theorem Dev.deliver_stale (hp : r.phase = .answered) (he : r.epoch ≠ d.epoch r.tgt) :
    d.deliver e ch p = ((d.inc (R.CL_STALE.COUNT (e / 8))).bump (Ctr.cluster (e / 8) 10)).pushReply e ch p (replyWord stTargetReset 0) false := by
  rw [Dev.deliver, hr]
  dsimp only
  rw [if_pos he, if_pos hp]
  rfl

end

theorem EngSt.credits_eq_zero (x : EngSt) (ch : Nat) :
    x.credits ch = 0 ↔ x.reqs.filter (·.chan == ch) = [] ∧ x.replies.filter (·.chan == ch) = [] := by
  rw [EngSt.credits, Nat.add_eq_zero_iff, List.length_eq_zero_iff, List.length_eq_zero_iff]

end Sys2Proof.Machine

open Sys2Proof.Machine

/-- Settles O14: a crecv is refused, held back or open (`makes_crecv`), its wake takes the word that arrived, and every reply arrives by
`pushReply`. -/
theorem channelReceive : Obligations.ChannelReceive := by
  refine ⟨fun e gd ga ch cmd p s => ?receive, fun e ch r s hr => ?reply⟩
  case receive =>
    intro x i k tag
    refine ⟨fun hs hf hh => ?_, fun hs hf hn h1 h2 => ?_, fun hs hx => ?_, fun h0 hf h1 => chanFault_recv_cmd h0 hf h1,
      fun w rest n hst hwt hwk hd => ?_⟩
    · intro Holds
      have h := makes_crecv (gd := gd) (ga := ga) (p := p) hs hf hh
      have holds : ∀ t : State, (∀ o k, t.dev.holder o k = ((s.dev.issued e).hold e ch).holder o k) → Holds t := fun t ht hn => by
        rw [ht, Dev.holder_hold _ _ hn]
      have hheld : ((s.dev.issued e).hold e ch).e e = x.issued := by rw [Dev.e_hold, Dev.e_issued]
      refine ⟨fun w rest hw => ?_, fun hw => ⟨fun hnone => ?_, fun hmode hwait => ?_⟩⟩
      · rw [hw] at h
        refine h.gives ⟨?_, holds _ fun _ _ => ?_⟩
        · dsimp only
          rw [Dev.e_onE_same, Dev.e_checkWord, hheld, EngSt.take_issued, checked_tag]
          rfl
        · exact Dev.holder_checkWord ..
      · rw [hw] at h
        dsimp only at h
        rw [if_pos (hnone.imp_right fun ⟨h1, h2⟩ => ⟨h1, (x.credits_eq_zero ch).2 h2⟩)] at h
        refine h.gives ⟨?_, holds _ fun _ _ => rfl⟩
        dsimp only
        rw [Dev.e_onE_same, hheld, EngSt.received_issued]
      · rw [hw] at h
        dsimp only at h
        rw [if_neg] at h
        · refine h.gives ?_
          dsimp only
          rw [Dev.e_onE_same, hheld]
          exact ⟨rfl, rfl, rfl, rfl, holds _ fun _ _ => rfl⟩
        · rintro (h | ⟨h1, h2⟩)
          · exact hmode h
          · obtain ⟨h2, h3⟩ := (x.credits_eq_zero ch).1 h2
            exact (hwait h1).elim (· h2) (· h3)
    · have h := makes_crecv_held (gd := gd) (ga := ga) (p := p) hs hf hn h1 (by simpa using h2)
      rw [Dev.onE_issued hs, EngSt.received_issued] at h
      exact h
    · exact ⟨fun g hg => makes_crecv_refused hs hx (p := p) rfl hg, fun g hg => makes_crecv_refused hs hx (p := true) rfl hg⟩
    · intro j hw
      have h : Makes (.crecvWake ⟨e, p⟩) s (Neloc.crecvWake e p s.dev) := makes_of_on rfl
      unfold Neloc.crecvWake at h
      dsimp only at h
      rw [show (s.dev.e e).st = .waiting from hst, show (s.dev.e e).wait = some (.word gd ga ch n) from hwt] at h
      dsimp only at h
      rw [show (s.dev.e e).wordsOn ch _ = _ from hw] at h
      dsimp only at h
      rw [Dev.wake_eq hwk hd] at h
      refine h.gives ?_
      dsimp only
      rw [Dev.e_onE_same, Dev.e_checkWord, EngSt.take, checked_tag]
      rfl
  case reply =>
    intro x After
    have hdel : ∀ p, Makes (.channelReply e ch p) s (s.dev.deliver e ch p) := fun p =>
      makes_of_on (f := fun d => d.deliver e ch p) rfl
    have arrives : ∀ {d : Dev} {p w marked}, d.e e = x → Makes (.channelReply e ch p) s (d.pushReply e ch p w marked) →
        Gives (.channelReply e ch p) s fun t => After (!p || marked) w t ∧ t.dev = d.pushReply e ch p w marked := fun {d p w marked} hx h => by
      refine h.gives ⟨?_, rfl⟩
      change ((d.pushReply e ch p w marked).e e).replies = _ ∧ ((d.pushReply e ch p w marked).e e).reqs = _ ∧ ((d.pushReply e ch p w marked).e e).g = _
      rw [Dev.e_pushReply, hx]
      exact ⟨rfl, rfl, rfl⟩
    refine ⟨fun hp he => ⟨?_, ?_⟩, fun hp he why hb => ?_, fun hp he => ?_⟩
    · have h := hdel true
      rw [Dev.deliver_answered hr hp he] at h
      exact gives_mono (arrives rfl h) fun t ht => ht.1
    · have h := hdel false
      rw [Dev.deliver_answered hr hp he] at h
      exact gives_mono (arrives rfl h) fun t ht => ht.1
    · have h := hdel true
      have hst : s.dev.refusal r = some (if why = 3 then 9 else 10) := by
        rw [Dev.refusal_of_epoch he, hb]
        by_cases h3 : why = 3 <;> simp [h3]
      rw [Dev.deliver_refused hr hp he hst, replyWord_zero] at h
      exact gives_mono (arrives rfl h) fun t ht => ht.1
    · have h := hdel true
      rw [Dev.deliver_stale hr hp he, replyWord_zero] at h
      refine gives_mono (arrives ?_ h) fun t ht => ⟨ht.1, ?_⟩
      · rw [Dev.e_bump, Dev.e_inc]
      · rw [ht.2]
        rw [Dev.pushReply, if_pos rfl, Dev.get_onE, Dev.get_bump, Dev.get_inc_same _ _ _ (Fld.ok_of_ble rfl)]

end

section
/-! Frames and fields: what a chain of register, lane, octet and engine updates leaves unchanged, and what a field reads after it. -/

open Sys2Proof

namespace Sys2Proof.Machine

/-! Fields (R9, R10). -/

/-- Two addresses at different offsets from one base. -/
theorem ne_of_offset {a b base i j : Nat} (ha : a = base + i) (hb : b = base + j) (h : Nat.beq i j = false) : a ≠ b := by
  have := Nat.ne_of_beq_eq_false h
  omega

/-- Two fields at offsets from one base: in different registers, or with no bit in common. -/
theorem Fld.apart_of_offset {f g : Fld} {base i j : Nat} (hf : f.addr = base + i) (hg : g.addr = base + j)
    (h : (!Nat.beq i j || Nat.blt g.hi f.lo || Nat.blt f.hi g.lo) = true) : f.apart g := by
  simp only [Bool.or_eq_true, Bool.not_eq_true', Nat.blt_eq] at h
  rcases h with (h | h) | h
  · exact .inl (ne_of_offset hf hg h)
  · exact .inr (.inl h)
  · exact .inr (.inr h)

section
variable (d : Dev) (f g : Fld) (v n : Nat) (b : Bool)

theorem Dev.on_eq : d.on f = (d.get f != 0) := rfl

theorem Dev.on_set_apart (hf : f.ok) (h : f.apart g) : (d.set f v).on g = d.on g := by rw [Dev.on, Dev.get_set_apart d v hf h, Dev.on]

theorem Dev.get_flag_apart (hf : f.ok) (h : f.apart g) : (d.flag f b).get g = d.get g := Dev.get_set_apart d _ hf h

theorem Dev.on_flag_apart (hf : f.ok) (h : f.apart g) : (d.flag f b).on g = d.on g := Dev.on_set_apart d f g _ hf h

theorem Dev.get_inc_apart (hf : f.ok) (h : f.apart g) : (d.inc f n).get g = d.get g := Dev.get_set_apart d _ hf h

theorem Dev.on_inc_apart (hf : f.ok) (h : f.apart g) : (d.inc f n).on g = d.on g := Dev.on_set_apart d f g _ hf h

theorem Dev.get_flag_same (hf : f.ok) (hw : f.hi = f.lo) : (d.flag f b).get f = b2n b := by
  have w : f.width = 1 := by
    unfold Fld.width
    omega
  rw [Dev.flag, Dev.get_set_same d f _ hf, w]
  cases b <;> rfl

theorem Dev.on_set_same (hf : f.ok) : (d.set f v).on f = (v % 2 ^ f.width != 0) := by rw [Dev.on, Dev.get_set_same d f v hf]

/-- A one-bit field has the value 1 or 0. -/
theorem Dev.get_bit (h : f.hi = f.lo) : d.get f = b2n (d.on f) := by
  have hlt := d.get_lt f
  have w : f.width = 1 := by
    unfold Fld.width
    omega
  rw [w] at hlt
  unfold Dev.on
  rcases (by omega : d.get f = 0 ∨ d.get f = 1) with h | h <;> rw [h] <;> rfl

end

/-! A software write to a register (R10, R392). -/

/-- What a write of v leaves in field f of a register that holds old. -/
def RegField.put (f : RegField) (v old : Nat) : Nat :=
  match f.acc with
  | .rw | .rws => f.clamp (getBits v f.hi f.lo)
  | .ro | .rc => getBits old f.hi f.lo
  | .wo => 0
  | .w1c => getBits old f.hi f.lo &&& (2 ^ (f.hi + 1 - f.lo) - 1 - getBits v f.hi f.lo)
  | .w1s => getBits old f.hi f.lo ||| getBits v f.hi f.lo

theorem RegField.write_eq (f : RegField) (v old acc : Nat) : f.write v old acc = putBits acc f.hi f.lo (f.put v old) := rfl

/-- Fields of 32 bits that share none. -/
abbrev RegRow.tidy (r : RegRow) : Prop :=
  (∀ f ∈ r.fields, f.lo ≤ f.hi ∧ f.hi < 32) ∧ r.fields.Pairwise fun f g => f.hi < g.lo ∨ g.hi < f.lo

/-- The writes to other fields leave a field. -/
theorem getBits_foldl_write {f : RegField} (v old : Nat) (l : List RegField) (hl : ∀ g ∈ l, g.lo ≤ g.hi ∧ (f.hi < g.lo ∨ g.hi < f.lo))
    (acc : Nat) : getBits (l.foldl (fun acc g => g.write v old acc) acc) f.hi f.lo = getBits acc f.hi f.lo := by
  induction l generalizing acc with
  | nil => rfl
  | cons g l ih =>
    obtain ⟨hok, hd⟩ := hl g (.head _)
    rw [List.foldl_cons, ih (fun g h => hl g (.tail _ h)), RegField.write_eq, getBits_putBits_ne _ _ _ _ _ _ hok hd]

/-- The value of a field after a write to the register. -/
theorem RegRow.getBits_merge {r : RegRow} (ht : r.tidy) {f : RegField} (hf : f ∈ r.fields) (old v : Nat) :
    getBits (r.merge old v) f.hi f.lo = f.put v old % 2 ^ (f.hi + 1 - f.lo) := by
  obtain ⟨hok, hpw⟩ := ht
  obtain ⟨l₁, l₂, hl⟩ := List.append_of_mem hf
  rw [RegRow.merge, hl, List.foldl_append, List.foldl_cons]
  rw [hl, List.pairwise_append, List.pairwise_cons] at hpw
  obtain ⟨-, ⟨hafter, -⟩, -⟩ := hpw
  rw [getBits_foldl_write v old l₂ fun g hg => ⟨(hok g (by rw [hl]; simp [hg])).1, hafter g hg⟩, RegField.write_eq,
    getBits_putBits_same _ _ _ _ (hok f hf).1]

section
variable (d : Dev) {row : RegRow} (ht : row.tidy) {f : Fld} (k : Nat)
include ht

/-- A field after a software write to its register. -/
theorem Dev.get_sw {acc : Acc} {rst : Nat} {lim : Lim} (hf : row.fields[k]? = some ⟨f.hi, f.lo, acc, rst, lim⟩) (v : Nat) :
    (d.sw row f.addr v).get f = RegField.put ⟨f.hi, f.lo, acc, rst, lim⟩ v (d.reg f.addr) % 2 ^ f.width := by
  have hm := List.mem_of_getElem? hf
  rw [Dev.sw, Dev.get_setReg_same _ _ _ (ht.1 _ hm).2]
  exact RegRow.getBits_merge ht hm _ _

/-- A field that takes every value. -/
theorem Dev.get_sw_any {rst : Nat} (hf : row.fields[k]? = some ⟨f.hi, f.lo, .rw, rst, .any⟩) (v : Nat) :
    (d.sw row f.addr v).get f = getBits v f.hi f.lo := by
  rw [Dev.get_sw d ht k hf]
  exact Nat.mod_eq_of_lt (getBits_lt _ _ _)

/-- A field that takes a range of values: the nearest of it (R12). -/
theorem Dev.get_sw_range {rst lo hi : Nat} (hf : row.fields[k]? = some ⟨f.hi, f.lo, .rw, rst, .range lo hi⟩) (hlo : lo ≤ hi)
    (hhi : hi < 2 ^ f.width) (v : Nat) : (d.sw row f.addr v).get f = max lo (min hi (getBits v f.hi f.lo)) := by
  have hput : RegField.put ⟨f.hi, f.lo, .rw, rst, .range lo hi⟩ v (d.reg f.addr) = max lo (min hi (getBits v f.hi f.lo)) := clampN_eq _ hlo
  rw [Dev.get_sw d ht k hf, hput]
  exact Nat.mod_eq_of_lt (by omega)

/-- A field that only hardware changes. -/
theorem Dev.get_sw_ro {rst : Nat} {lim : Lim} (hf : row.fields[k]? = some ⟨f.hi, f.lo, .ro, rst, lim⟩) (v : Nat) :
    (d.sw row f.addr v).get f = d.get f := by
  rw [Dev.get_sw d ht k hf]
  exact Nat.mod_eq_of_lt (getBits_lt _ _ _)

end

section
variable (d : Dev) (row : RegRow) (a v : Nat)

theorem Dev.get_sw_ne {f : Fld} (h : a ≠ f.addr) : (d.sw row a v).get f = d.get f := Dev.get_setReg_ne d _ f h

theorem Dev.on_sw_ne {f : Fld} (h : a ≠ f.addr) : (d.sw row a v).on f = d.on f := by rw [Dev.on, Dev.get_sw_ne d row a v h, Dev.on]

theorem Dev.reg_sw_ne {b : Nat} (h : a ≠ b) : (d.sw row a v).reg b = d.reg b := Dev.reg_setReg_ne d _ h

@[simp] theorem Dev.ln_sw (g : Nat) : (d.sw row a v).ln g = d.ln g := rfl

@[simp] theorem Dev.e_sw (e : Nat) : (d.sw row a v).e e = d.e e := rfl

end

/-! Registers alone. -/

namespace RegsOnly
variable {d d' : Dev} {l : List Nat}

theorem refl (d : Dev) (l : List Nat) : RegsOnly d d l := ⟨rfl, fun _ _ => rfl⟩

theorem frame (h : RegsOnly d d' l) : ∃ r, d' = { d with regs := r } := ⟨_, h.1⟩

theorem of_frame (hf : ∃ r, d' = { d with regs := r }) (hr : ∀ a, a ∉ l → d'.reg a = d.reg a) : RegsOnly d d' l := by
  obtain ⟨r, rfl⟩ := hf
  exact ⟨rfl, hr⟩

/-- A write to the register listed at place k. -/
theorem setReg (h : RegsOnly d d' l) {a v : Nat} (k : Nat) (hk : l[k]? = some a) : RegsOnly d (d'.setReg a v) l := by
  have ha : a ∈ l := List.mem_of_getElem? hk
  refine of_frame ?_ fun b hb => ?_
  · obtain ⟨r, rfl⟩ := h.frame
    exact ⟨_, rfl⟩
  · rw [Dev.reg_setReg_ne d' _ (fun e : a = b => hb (e ▸ ha)), h.2 b hb]

theorem sw (h : RegsOnly d d' l) {row : RegRow} {a v : Nat} (k : Nat) (hk : l[k]? = some a) : RegsOnly d (d'.sw row a v) l :=
  h.setReg k hk

theorem set (h : RegsOnly d d' l) {f : Fld} {v : Nat} (k : Nat) (hk : l[k]? = some f.addr) : RegsOnly d (d'.set f v) l :=
  h.setReg k hk

theorem flag (h : RegsOnly d d' l) {f : Fld} {b : Bool} (k : Nat) (hk : l[k]? = some f.addr) : RegsOnly d (d'.flag f b) l :=
  h.setReg k hk

theorem inc (h : RegsOnly d d' l) {f : Fld} {n : Nat} (k : Nat) (hk : l[k]? = some f.addr) : RegsOnly d (d'.inc f n) l :=
  h.setReg k hk

theorem orF (h : RegsOnly d d' l) {f : Fld} {m : Nat} (k : Nat) (hk : l[k]? = some f.addr) : RegsOnly d (d'.orF f m) l :=
  h.setReg k hk

theorem ite {c : Prop} [Decidable c] {x y : Dev} (hx : c → RegsOnly d x l) (hy : ¬ c → RegsOnly d y l) : RegsOnly d (if c then x else y) l := by
  split
  · next h => exact hx h
  · next h => exact hy h

theorem mono (h : RegsOnly d d' l) {l' : List Nat} (hl : l ⊆ l') : RegsOnly d d' l' := ⟨h.1, fun a ha => h.2 a fun hm => ha (hl hm)⟩

end RegsOnly

/-! Registers, lanes and engines. -/

namespace LanesOnly
variable {d d' : Dev} {l : List Nat}

theorem of_frame (hf : ∃ r n e, d' = { d with regs := r, lane := n, eng := e }) (hr : ∀ a, a ∉ l → d'.reg a = d.reg a) : LanesOnly d d' l := by
  obtain ⟨r, n, e, rfl⟩ := hf
  exact ⟨rfl, hr⟩

theorem frame (h : LanesOnly d d' l) : ∃ r n e, d' = { d with regs := r, lane := n, eng := e } := ⟨_, _, _, h.1⟩

theorem refl (d : Dev) (l : List Nat) : LanesOnly d d l := ⟨rfl, fun _ _ => rfl⟩

/-- A write to the register listed at place k. -/
theorem setReg (h : LanesOnly d d' l) {a v : Nat} (k : Nat) (hk : l[k]? = some a) : LanesOnly d (d'.setReg a v) l := by
  have ha : a ∈ l := List.mem_of_getElem? hk
  refine of_frame ?_ fun b hb => ?_
  · obtain ⟨r, n, e, rfl⟩ := h.frame
    exact ⟨_, _, _, rfl⟩
  · rw [Dev.reg_setReg_ne d' _ (fun e : a = b => hb (e ▸ ha)), h.2 b hb]

theorem sw (h : LanesOnly d d' l) {row : RegRow} {a v : Nat} (k : Nat) (hk : l[k]? = some a) : LanesOnly d (d'.sw row a v) l :=
  h.setReg k hk

theorem set (h : LanesOnly d d' l) {f : Fld} {v : Nat} (k : Nat) (hk : l[k]? = some f.addr) : LanesOnly d (d'.set f v) l :=
  h.setReg k hk

theorem flag (h : LanesOnly d d' l) {f : Fld} {b : Bool} (k : Nat) (hk : l[k]? = some f.addr) : LanesOnly d (d'.flag f b) l :=
  h.setReg k hk

theorem inc (h : LanesOnly d d' l) {f : Fld} {n : Nat} (k : Nat) (hk : l[k]? = some f.addr) : LanesOnly d (d'.inc f n) l :=
  h.setReg k hk

theorem orF (h : LanesOnly d d' l) {f : Fld} {m : Nat} (k : Nat) (hk : l[k]? = some f.addr) : LanesOnly d (d'.orF f m) l :=
  h.setReg k hk

theorem onL (h : LanesOnly d d' l) {g : Nat} {f : LaneSt → LaneSt} : LanesOnly d (d'.onL g f) l := by
  refine of_frame ?_ fun b hb => h.2 b hb
  obtain ⟨r, n, e, rfl⟩ := h.frame
  exact ⟨_, _, _, rfl⟩

theorem onE (h : LanesOnly d d' l) {k : Nat} {f : EngSt → EngSt} : LanesOnly d (d'.onE k f) l := by
  refine of_frame ?_ fun b hb => h.2 b hb
  obtain ⟨r, n, e, rfl⟩ := h.frame
  exact ⟨_, _, _, rfl⟩

theorem notice (h : LanesOnly d d' l) {o k code i : Nat} : LanesOnly d (d'.notice o k code i) l := by
  unfold Dev.notice
  split <;> exact h.onE

theorem laneNotice (h : LanesOnly d d' l) {g code : Nat} : LanesOnly d (d'.laneNotice g code) l := h.notice

theorem ite {c : Prop} [Decidable c] {x y : Dev} (hx : c → LanesOnly d x l) (hy : ¬ c → LanesOnly d y l) : LanesOnly d (if c then x else y) l := by
  split
  · next h => exact hx h
  · next h => exact hy h

end LanesOnly

theorem RegsOnly.lanes {d d' : Dev} {l : List Nat} (h : RegsOnly d d' l) : LanesOnly d d' l := by
  obtain ⟨r, rfl⟩ := h.frame
  exact LanesOnly.of_frame ⟨r, d.lane, d.eng, rfl⟩ h.2

/-! Notices (R214, R222). -/

section
variable (d : Dev) (o k code i : Nat)

theorem Dev.notice_frame : ∃ e, d.notice o k code i = { d with eng := e } := by
  unfold Dev.notice
  split <;> exact ⟨_, rfl⟩

@[simp] theorem Dev.reg_notice (a : Nat) : (d.notice o k code i).reg a = d.reg a := by
  obtain ⟨e, h⟩ := d.notice_frame o k code i
  rw [h]
  rfl

@[simp] theorem Dev.get_notice (f : Fld) : (d.notice o k code i).get f = d.get f := by rw [Dev.get, Dev.reg_notice, Dev.get]

@[simp] theorem Dev.on_notice (f : Fld) : (d.notice o k code i).on f = d.on f := by rw [Dev.on, Dev.get_notice, Dev.on]

@[simp] theorem Dev.ln_notice (g : Nat) : (d.notice o k code i).ln g = d.ln g := by
  obtain ⟨e, h⟩ := d.notice_frame o k code i
  rw [h]
  rfl

@[simp] theorem Dev.reg_laneNotice (g a : Nat) : (d.laneNotice g code).reg a = d.reg a := Dev.reg_notice ..

@[simp] theorem Dev.get_laneNotice (g : Nat) (f : Fld) : (d.laneNotice g code).get f = d.get f := Dev.get_notice ..

@[simp] theorem Dev.on_laneNotice (g : Nat) (f : Fld) : (d.laneNotice g code).on f = d.on f := Dev.on_notice ..

@[simp] theorem Dev.ln_laneNotice (g j : Nat) : (d.laneNotice g code).ln j = d.ln j := Dev.ln_notice ..

@[simp] theorem Dev.on_onL (g : Nat) (f : LaneSt → LaneSt) (fl : Fld) : (d.onL g f).on fl = d.on fl := rfl

@[simp] theorem Dev.on_bump (n m : Nat) (fl : Fld) : (d.bump n m).on fl = d.on fl := rfl

/-- R222: a notice to an engine with room for it and none lost. -/
theorem Dev.notices_noticeTo {d : Dev} {e ch code i : Nat} (hn : ((d.e e).notices.filter (·.chan == ch)).length < 32) (hl : (d.e e).lost = [])
    (hc : code < 256) (hi : i < 256) :
    ((d.noticeTo e ch code i).e e).notices = (d.e e).notices ++ [{ chan := ch, word := BitVec.ofNat 64 (256 * code + i) }] := by
  have hw : (if ([] : List Nat).contains ch then 2 ^ 59 else 0) + code % 256 * 256 + i % 256 = 256 * code + i := by
    rw [if_neg (by simp), Nat.mod_eq_of_lt hc, Nat.mod_eq_of_lt hi]
    omega
  rw [Dev.noticeTo, Dev.e_onE_same, if_neg (Nat.not_le.2 hn), hl]
  dsimp only
  rw [hw]

/-- A notice sent from a part with the holders and the engines of d. -/
theorem notified_notice {d d' : Dev} {o k code i : Nat} (hh : d'.holders = d.holders) (he : d'.eng = d.eng) (hc : code < 256) (hi : i < 256) :
    Notified d (d'.notice o k code i) o k code i := by
  have hhold : d'.holder o k = d.holder o k := by rw [Dev.holder, hh, Dev.holder]
  have hengs : ∀ e, d'.e e = d.e e := fun e => by rw [Dev.e, he, Dev.e]
  unfold Notified Dev.notice
  rw [hhold]
  cases d.holder o k with
  | none =>
    intro e ch hn hl
    have h := Dev.notices_noticeTo (d := d') (by rw [hengs]; exact hn) (by rw [hengs]; exact hl) hc hi
    rwa [hengs] at h
  | some w =>
    intro e ch hn hl
    have h := Dev.notices_noticeTo (d := d') (by rw [hengs]; exact hn) (by rw [hengs]; exact hl) hc hi
    rwa [hengs] at h

end

/-! From the command to its effect where its polder works and its target takes it (R306, R370, R394). -/

theorem makes_of_live {c : Instr} {s : State} {p : Nat} {f : Dev → Dev} (hc : exec c s = s.on fun d => d.live p f)
    (h : s.dev.awake p = true) : Makes c s (f s.dev) := by
  rw [← Dev.live_of_awake h f]
  exact hc

theorem makes_of_gate {c : Instr} {s : State} {src : Src} {a : Nat} {f : Dev → Dev} (hc : exec c s = s.on fun d => d.gate src a f)
    (h : s.dev.barred a = none) : Makes c s (f s.dev) := by
  rw [← Dev.gate_of_open h src f]
  exact hc

end Sys2Proof.Machine
end

section
/-! The receive half of a lane (spec/01, spec/02): frequency, lock and loss judgements, calibration, the spare slice, the tap banks and the LMS. -/

open Sys2Proof

namespace Sys2Proof.Machine

theorem Dev.bit_orF_same (d : Dev) (f : Fld) {i : Nat} (hf : f.ok) (hi : i < f.width) : bit ((d.orF f (2 ^ i)).get f) i = true := by
  rw [Dev.get_orF_same d f _ hf, bit_eq_testBit, Nat.testBit_mod_two_pow]
  simp [hi]

theorem Dev.bump_set (d : Dev) (f : Fld) (v n k : Nat) : (d.set f v).bump n k = (d.bump n k).set f v := rfl

end Sys2Proof.Machine

open Sys2Proof.Machine

/-- Settles O15. -/
theorem laneJudgements : Obligations.LaneJudgements := by
  intro g dep n s ha d o
  refine ⟨fun hv he ht hdep => ?_, fun hdep => ?_, fun hb => ?_, fun he => ?_, fun hr hn => ?_, fun hl hn => ?_, fun hl hn => ?_, fun hr hn => ?_⟩
  · have h := makes_of_live (c := .freqWindowEnd g dep) rfl ha
    unfold Dev.freqWindow at h
    rwa [if_pos ⟨hv, by simp [show s.dev.on (R.LAT_RX.ELASTIC g) = false from he], ht, hdep⟩] at h
  · have h := makes_of_live (c := .freqWindowEnd g dep) rfl ha
    unfold Dev.freqWindow at h
    rwa [if_neg fun hc => by omega] at h
  · have h := makes_of_live (c := .elasticSwitch g) rfl ha
    unfold Dev.elasticSwitch at h
    rw [if_pos hb] at h
    have hevt : ∀ f : Fld, f.addr = A.LAT_RX g → (R.TIMING_EVT.LANE o).apart f := fun f hf => by
      refine .inl ?_
      rw [hf]
      simp only [R.TIMING_EVT.LANE, A.TIMING_EVT, A.LAT_RX, laneBase, octBase]
      omega
    refine h.gives ⟨?_, ?_, ?_, ?_, ?_⟩
    · simp -implicitDefEqProofs (disch := first | exact Fld.ok_of_ble rfl | exact Fld.apart_of_offset rfl rfl rfl | exact hevt _ rfl) only [Dev.on_onL, Dev.orF, Dev.on_set_apart, Dev.on_set_same]
      rfl
    · simp -implicitDefEqProofs (disch := first | exact Fld.ok_of_ble rfl | exact Fld.apart_of_offset rfl rfl rfl | exact hevt _ rfl) only [Dev.on_onL, Dev.orF, Dev.on_set_apart, Dev.on_set_same]
      rfl
    · dsimp only
      rw [Dev.get_onL]
      exact Dev.bit_orF_same _ _ (Fld.ok_of_ble rfl) (Nat.mod_lt _ (by norm_num))
    · dsimp only
      rw [Dev.ln_onL_same]
    · dsimp only
      exact LanesOnly.onL (.orF (.set (.set (.refl _ _) 0 rfl) 0 rfl) 1 rfl)
  · have h := makes_of_live (c := .elasticSlip g) rfl ha
    rwa [if_pos he] at h
  · have h := makes_of_live (c := .cdrLockSet g n) rfl ha
    rw [if_pos ⟨by simp [Dev.cdrRuns, show s.dev.rxState g = 0 from hr], hn⟩] at h
    exact h.gives ⟨Dev.on_set_same _ _ _ (Fld.ok_of_ble rfl), RegsOnly.set (.refl _ _) 0 rfl⟩
  · have h := makes_of_live (c := .cdrLockClear g n) rfl ha
    rw [if_pos hn, Dev.cdrClear, if_pos hl, Dev.bump_set] at h
    exact h.gives ⟨Dev.on_set_same _ _ _ (Fld.ok_of_ble rfl), RegsOnly.set (.refl _ _) 0 rfl⟩
  · have h := makes_of_live (c := .losSet g n) rfl ha
    rw [if_pos hn, Dev.losSet, if_neg (by simp [show s.dev.on (R.RX_STATUS.LOS g) = false from hl]), Dev.bump_set] at h
    refine h.gives ?_
    dsimp only
    rw [Dev.ln_onL_same]
    exact ⟨Dev.on_set_same _ _ _ (Fld.ok_of_ble rfl), rfl, rfl, LanesOnly.onL (.set (.refl (d.bump (Ctr.lane g 0)) _) 0 rfl)⟩
  · have h := makes_of_live (c := .losClear g n) rfl ha
    rw [if_pos ⟨hr, hn⟩] at h
    exact h.gives ⟨Dev.on_set_same _ _ _ (Fld.ok_of_ble rfl), RegsOnly.set (.refl _ _) 0 rfl⟩

end

section
/-! The spare slice of a lane (spec/02, R49 to R52, R85). -/

open Sys2Proof

namespace Sys2Proof.Machine

theorem Dev.scanning_eq {d d' : Dev} {g : Nat} (hl : d'.ln g = d.ln g) (hm : d'.get (R.SPARE_STATUS.MODE g) = d.get (R.SPARE_STATUS.MODE g)) :
    d'.scanning g = d.scanning g := by
  rw [Dev.scanning, Dev.spareMode, hl, hm, Dev.scanning, Dev.spareMode]

/-- R51: what the start of a repair leaves. -/
theorem Dev.startRepair_spec (d : Dev) (g : Nat) {s : Nat} (hs : s < 64) :
    (d.startRepair g s).get (R.SPARE_STATUS.MODE g) = 3 ∧ (d.startRepair g s).get (R.SPARE_STATUS.SLICE g) = s ∧
      (d.startRepair g s).on (R.SPARE_STATUS.TAKEOVER_PEND g) = true ∧ ((d.startRepair g s).ln g).rep = .step1 ∧
      (d.scanning g = true → (d.startRepair g s).get (R.EYE_STATUS.RESULT g) = 3 ∧ (d.startRepair g s).scanning g = false) := by
  have hmod : s % 2 ^ (R.SPARE_STATUS.SLICE g).width = s := Nat.mod_eq_of_lt hs
  unfold Dev.startRepair
  dsimp only
  refine ⟨?_, ?_, ?_, ?_, fun hscan => ⟨?_, ?_⟩⟩
  · simp -implicitDefEqProofs (disch := first | exact Fld.ok_of_ble rfl | exact Fld.apart_of_offset rfl rfl rfl) only
      [Dev.get_onL, Dev.get_set_apart, Dev.get_set_same]
    rfl
  · simp -implicitDefEqProofs (disch := first | exact Fld.ok_of_ble rfl | exact Fld.apart_of_offset rfl rfl rfl) only
      [Dev.get_onL, Dev.get_set_apart, Dev.get_set_same, hmod]
  · simp -implicitDefEqProofs (disch := first | exact Fld.ok_of_ble rfl | exact Fld.apart_of_offset rfl rfl rfl) only [Dev.on_onL, Dev.on_set_same]
    rfl
  · rw [Dev.ln_onL_same]
  · rw [if_pos hscan]
    unfold Dev.endScan
    simp -implicitDefEqProofs (disch := first | exact Fld.ok_of_ble rfl | exact Fld.apart_of_offset rfl rfl rfl) only
      [Dev.get_onL, Dev.get_set_apart, Dev.get_set_same, Dev.get_laneNotice]
    rfl
  · rw [if_pos hscan]
    unfold Dev.endScan Dev.scanning Dev.spareMode
    simp -implicitDefEqProofs (disch := first | exact Fld.ok_of_ble rfl | exact Fld.apart_of_offset rfl rfl rfl) only
      [Dev.get_onL, Dev.get_set_apart, Dev.get_set_same, Dev.ln_onL_same, Dev.ln_set, Dev.ln_laneNotice]
    rfl

theorem LanesOnly.startRepair {d d' : Dev} {g : Nat} (hd : LanesOnly d d' [A.SPARE_CTRL g, A.SPARE_STATUS g]) (h : d'.scanning g = false) (s : Nat) :
    LanesOnly d (d'.startRepair g s) [A.SPARE_CTRL g, A.SPARE_STATUS g] := by
  unfold Dev.startRepair
  dsimp only
  rw [if_neg (by rw [h]; simp)]
  exact LanesOnly.onL (.set (.set (.set hd 1 rfl) 1 rfl) 1 rfl)

theorem tidy_SPARE_CTRL : Row.SPARE_CTRL.tidy := by decide

theorem getBits_putBit_ne (v : Nat) {i hi lo : Nat} (b : Bool) (h : i < lo ∨ hi < i) : getBits (putBit v i b) hi lo = getBits v hi lo :=
  getBits_putBits_ne _ _ _ _ _ _ (Nat.le_refl _) (by omega)

theorem getBits_putBit_same (v i : Nat) (b : Bool) : getBits (putBit v i b) i i = b2n b := by
  rw [putBit, getBits_putBits_same _ _ _ _ (Nat.le_refl _), Nat.add_sub_cancel_left]
  cases b <;> rfl

/-! A write to SPARE_CTRL (R51, R52). -/

section
variable (d : Dev) (g v : Nat)

/-- The part after the write itself. -/
def Dev.spareWritten : Dev := d.sw Row.SPARE_CTRL (A.SPARE_CTRL g) v

theorem Dev.spareWritten_slice : (d.spareWritten g v).get (R.SPARE_CTRL.REPAIR_SLICE g) = getBits v 13 8 :=
  Dev.get_sw_any d tidy_SPARE_CTRL (f := R.SPARE_CTRL.REPAIR_SLICE g) 1 rfl v

theorem Dev.spareWritten_en (b : Bool) : (d.spareWritten g (putBit v 0 b)).on (R.SPARE_CTRL.REPAIR_EN g) = b := by
  have h : (d.spareWritten g (putBit v 0 b)).get (R.SPARE_CTRL.REPAIR_EN g) = getBits (putBit v 0 b) 0 0 :=
    Dev.get_sw_any d tidy_SPARE_CTRL (f := R.SPARE_CTRL.REPAIR_EN g) 3 rfl (putBit v 0 b)
  rw [Dev.on, h, getBits_putBit_same]
  cases b <;> rfl

theorem Dev.get_spareWritten {f : Fld} (h : A.SPARE_CTRL g ≠ f.addr) : (d.spareWritten g v).get f = d.get f := Dev.get_sw_ne d _ _ _ h

theorem Dev.on_spareWritten {f : Fld} (h : A.SPARE_CTRL g ≠ f.addr) : (d.spareWritten g v).on f = d.on f := Dev.on_sw_ne d _ _ _ h

theorem Dev.spareCtrl_eq : d.spareCtrl g v =
    if d.on (R.SPARE_STATUS.FUSED g) then
      ((d.spareWritten g v).set (R.SPARE_CTRL.REPAIR_EN g) (d.get (R.SPARE_CTRL.REPAIR_EN g))).set (R.SPARE_CTRL.REPAIR_SLICE g)
        (d.get (R.SPARE_CTRL.REPAIR_SLICE g))
    else if (d.spareWritten g v).on (R.SPARE_CTRL.REPAIR_EN g) then
      if ((d.ln g).rep ≠ .none ∧ (d.ln g).rep ≠ .release ∧ (d.ln g).rep ≠ .returning) ∧ d.get (R.SPARE_STATUS.SLICE g) = getBits v 13 8 then
        d.spareWritten g v
      else (d.spareWritten g v).startRepair g (getBits v 13 8)
    else if (d.ln g).rep ≠ .none ∧ (d.ln g).rep ≠ .release ∧ (d.ln g).rep ≠ .returning then (d.spareWritten g v).stopRepair g
    else d.spareWritten g v := by
  have hslice := d.spareWritten_slice g v
  have hfused : (d.spareWritten g v).on (R.SPARE_STATUS.FUSED g) = d.on (R.SPARE_STATUS.FUSED g) :=
    Dev.on_spareWritten d g v (ne_of_offset rfl rfl rfl)
  have hst : (d.spareWritten g v).get (R.SPARE_STATUS.SLICE g) = d.get (R.SPARE_STATUS.SLICE g) :=
    Dev.get_spareWritten d g v (ne_of_offset rfl rfl rfl)
  unfold Dev.spareWritten at *
  unfold Dev.spareCtrl
  dsimp only
  rw [hfused, hslice, hst, Dev.ln_sw]
  simp only [decide_eq_true_eq]

end

end Sys2Proof.Machine

open Sys2Proof.Machine

/-- Settles O17: a write to SPARE_CTRL has the four ways of `spareCtrl_eq`; a request that starts a repair leaves what `startRepair_spec` says. -/
theorem spareRepair : Obligations.SpareRepair := by
  intro g src v s d
  have hslice : ∀ b, getBits (putBit v.toNat 0 b) 13 8 = getBits v.toNat 13 8 := fun b => getBits_putBit_ne _ b (by norm_num)
  refine ⟨fun hb => ⟨fun hf hrep => ?_, fun hf h1 h2 h3 hs => ?_, fun hf hrep hserved => ?_, fun hf => ?_⟩, fun ha hrep => ?_⟩
  · have h := makes_of_gate (c := .repairRequest src g v) rfl hb
    have hbusy : ¬ (((d.ln g).rep ≠ .none ∧ (d.ln g).rep ≠ .release ∧ (d.ln g).rep ≠ .returning) ∧
        d.get (R.SPARE_STATUS.SLICE g) = getBits v.toNat 13 8) := fun ⟨⟨h1, h2, h3⟩, h4⟩ =>
      hrep.elim h1 fun hrep => hrep.elim h2 fun hrep => hrep.elim h3 fun hrep => hrep h4
    have hscan : (d.spareWritten g (putBit v.toNat 0 true)).scanning g = d.scanning g :=
      Dev.scanning_eq (Dev.ln_sw ..) (Dev.get_spareWritten d g _ (ne_of_offset rfl rfl rfl))
    rw [Dev.spareCtrl_eq, hf, if_neg Bool.false_ne_true, Dev.spareWritten_en, if_pos rfl, hslice, if_neg hbusy] at h
    obtain ⟨hmode, hsl, hpend, hstep, hres⟩ := (d.spareWritten g (putBit v.toNat 0 true)).startRepair_spec g (getBits_lt v.toNat 13 8)
    refine h.gives ⟨hmode, hsl, hpend, hstep, fun hn => ?_, fun hn => hres (hscan.trans hn)⟩
    exact LanesOnly.startRepair (.sw (.refl _ _) 0 rfl) (hscan.trans hn) _
  · have h := makes_of_gate (c := .repairRequest src g v) rfl hb
    rw [Dev.spareCtrl_eq, hf, if_neg Bool.false_ne_true, Dev.spareWritten_en, if_pos rfl, hslice, if_pos ⟨⟨h1, h2, h3⟩, hs⟩] at h
    exact h.gives (RegsOnly.sw (.refl _ _) 0 rfl)
  · have h := makes_of_gate (c := .repairRelease src g v) rfl hb
    have hbusy : (d.ln g).rep ≠ .none ∧ (d.ln g).rep ≠ .release ∧ (d.ln g).rep ≠ .returning := by simp [hrep]
    obtain ⟨k, hk⟩ := Option.isSome_iff_exists.1 hserved
    rw [Dev.spareCtrl_eq, hf, if_neg Bool.false_ne_true, Dev.spareWritten_en, if_neg Bool.false_ne_true, if_pos hbusy, Dev.stopRepair] at h
    have hln : ((d.spareWritten g (putBit v.toNat 0 false)).set (R.SPARE_STATUS.TAKEOVER_PEND g) 0).ln g = d.ln g := by
      rw [Dev.ln_set, Dev.spareWritten, Dev.ln_sw]
    rw [hln, hk] at h
    refine h.gives ?_
    dsimp only
    rw [Dev.ln_onL_same, Dev.ln_set, hln]
    refine ⟨rfl, rfl, ?_⟩
    simp -implicitDefEqProofs (disch := first | exact Fld.ok_of_ble rfl | exact Fld.apart_of_offset rfl rfl rfl) only
      [Dev.on_onL, Dev.on_set_apart, Dev.on_set_same]
    rfl
  · have h := makes_of_gate (c := .repairRequest src g v) rfl hb
    rw [Dev.spareCtrl_eq, if_pos hf] at h
    refine h.gives ⟨?_, ?_, by rw [Dev.lane_set, Dev.lane_set, Dev.spareWritten, Dev.sw, Dev.lane_setReg]⟩
    · simp -implicitDefEqProofs (disch := first | exact Fld.ok_of_ble rfl | exact Fld.apart_of_offset rfl rfl rfl) only
        [Dev.get_set_apart, Dev.get_set_same]
      exact Nat.mod_eq_of_lt (d.get_lt _)
    · simp -implicitDefEqProofs (disch := exact Fld.ok_of_ble rfl) only [Dev.get_set_same]
      exact Nat.mod_eq_of_lt (d.get_lt _)
  · have h := makes_of_live (c := .spareTakeover g) rfl ha
    rw [Dev.takeover, if_pos hrep] at h
    refine h.gives ⟨?_, ?_, ?_, ?_, ?_⟩
    · dsimp only
      rw [Dev.ln_laneNotice, Dev.ln_bump, Dev.ln_onL_same]
    · dsimp only
      rw [Dev.ln_laneNotice, Dev.ln_bump, Dev.ln_onL_same]
    · simp -implicitDefEqProofs (disch := first | exact Fld.ok_of_ble rfl | exact Fld.apart_of_offset rfl rfl rfl) only
        [Dev.on_laneNotice, Dev.on_bump, Dev.on_onL, Dev.on_set_apart, Dev.on_set_same]
      rfl
    · simp -implicitDefEqProofs (disch := exact Fld.ok_of_ble rfl) only
        [Dev.on_laneNotice, Dev.on_bump, Dev.on_onL, Dev.on_set_same]
      rfl
    · refine notified_notice ?_ ?_ (by norm_num) (by omega)
      · simp -implicitDefEqProofs only [Dev.holders_bump, Dev.holders_onL, Dev.holders_set]
        rfl
      · simp -implicitDefEqProofs only [Dev.eng_bump, Dev.eng_onL, Dev.eng_set]
        rfl

end

section
/-! The tap banks and the LMS of a lane (spec/02, R54 to R57, R62 to R64). -/

open Sys2Proof

namespace Sys2Proof.Machine

/-! The freeze of the LMS (R63). -/

section
variable (d : Dev) (g : Nat)

/-- The freeze causes shown, before FROZEN. -/
def Dev.lmsCauses : Dev :=
  ((d.flag (R.LMS_STATUS.BY_FADE g) (d.on (R.FFE_STATUS.FADING g))).flag (R.LMS_STATUS.BY_CAL g) ([calHold, calStarved, calFrozen].contains (d.cal g))).flag
    (R.LMS_STATUS.BY_SW g) (!d.on (R.LMS_CTRL.EN g))

/-- The LMS of lane g is frozen by one of its causes. -/
def Dev.lmsFrozen : Bool :=
  d.on (R.FFE_STATUS.FADING g) || [calHold, calStarved, calFrozen].contains (d.cal g) || !d.on (R.LMS_CTRL.EN g) || d.on (R.LMS_STATUS.DIVERGED g)

theorem Dev.lmsSync_eq : d.lmsSync g =
    if d.lmsFrozen g then ((d.lmsCauses g).flag (R.LMS_STATUS.FROZEN g) true).onL g fun x => { x with rx := { x.rx with grad := {} } }
    else (d.lmsCauses g).flag (R.LMS_STATUS.FROZEN g) false := by
  have hdiv : (d.lmsCauses g).on (R.LMS_STATUS.DIVERGED g) = d.on (R.LMS_STATUS.DIVERGED g) := by
    unfold Dev.lmsCauses
    simp -implicitDefEqProofs (disch := first | exact Fld.ok_of_ble rfl | exact Fld.apart_of_offset rfl rfl rfl) only [Dev.on_flag_apart]
  have h : d.lmsSync g = if d.on (R.FFE_STATUS.FADING g) || [calHold, calStarved, calFrozen].contains (d.cal g) || !d.on (R.LMS_CTRL.EN g) ||
      (d.lmsCauses g).on (R.LMS_STATUS.DIVERGED g) then ((d.lmsCauses g).flag (R.LMS_STATUS.FROZEN g) (d.on (R.FFE_STATUS.FADING g) || [calHold, calStarved, calFrozen].contains (d.cal g) || !d.on (R.LMS_CTRL.EN g) ||
      (d.lmsCauses g).on (R.LMS_STATUS.DIVERGED g))).onL g fun x => { x with rx := { x.rx with grad := {} } } else (d.lmsCauses g).flag (R.LMS_STATUS.FROZEN g) (d.on (R.FFE_STATUS.FADING g) || [calHold, calStarved, calFrozen].contains (d.cal g) || !d.on (R.LMS_CTRL.EN g) ||
      (d.lmsCauses g).on (R.LMS_STATUS.DIVERGED g)) := rfl
  rw [h, hdiv]
  change (if d.lmsFrozen g = true then ((d.lmsCauses g).flag (R.LMS_STATUS.FROZEN g) (d.lmsFrozen g)).onL g _
    else (d.lmsCauses g).flag (R.LMS_STATUS.FROZEN g) (d.lmsFrozen g)) = _
  cases d.lmsFrozen g
  · simp only [Bool.false_eq_true, if_false]
  · simp only [if_true]

/-- No field beside the three causes and FROZEN changes. -/
theorem Dev.get_lmsSync {f : Fld} (h1 : (R.LMS_STATUS.BY_FADE g).apart f) (h2 : (R.LMS_STATUS.BY_CAL g).apart f) (h3 : (R.LMS_STATUS.BY_SW g).apart f)
    (h4 : (R.LMS_STATUS.FROZEN g).apart f) : (d.lmsSync g).get f = d.get f := by
  have hc : (d.lmsCauses g).get f = d.get f := by
    simp -implicitDefEqProofs (disch := first | exact Fld.ok_of_ble rfl | assumption) only [Dev.lmsCauses, Dev.get_flag_apart]
  rw [Dev.lmsSync_eq]
  split
  · rw [Dev.get_onL, Dev.get_flag_apart _ _ _ _ (Fld.ok_of_ble rfl) h4, hc]
  · rw [Dev.get_flag_apart _ _ _ _ (Fld.ok_of_ble rfl) h4, hc]

theorem Dev.on_lmsSync {f : Fld} (h1 : (R.LMS_STATUS.BY_FADE g).apart f) (h2 : (R.LMS_STATUS.BY_CAL g).apart f) (h3 : (R.LMS_STATUS.BY_SW g).apart f)
    (h4 : (R.LMS_STATUS.FROZEN g).apart f) : (d.lmsSync g).on f = d.on f := by rw [Dev.on, Dev.get_lmsSync d g h1 h2 h3 h4, Dev.on]

theorem Dev.frozen_lmsSync : (d.lmsSync g).on (R.LMS_STATUS.FROZEN g) = d.lmsFrozen g := by
  rw [Dev.lmsSync_eq]
  split
  · rename_i h
    rw [Dev.on_onL, Dev.on_flag_same _ _ _ (Fld.ok_of_ble rfl) rfl, h]
  · rename_i h
    rw [Dev.on_flag_same _ _ _ (Fld.ok_of_ble rfl) rfl, Bool.eq_false_iff.2 h]

theorem Dev.byFade_lmsSync : (d.lmsSync g).on (R.LMS_STATUS.BY_FADE g) = d.on (R.FFE_STATUS.FADING g) := by
  rw [Dev.lmsSync_eq, Dev.lmsCauses]
  split <;> simp -implicitDefEqProofs (disch := first | exact Fld.ok_of_ble rfl | exact Fld.apart_of_offset rfl rfl rfl) only
    [Dev.on_onL, Dev.on_flag_apart] <;> exact Dev.on_flag_same _ _ _ (Fld.ok_of_ble rfl) rfl

theorem Dev.bySw_lmsSync : (d.lmsSync g).on (R.LMS_STATUS.BY_SW g) = !d.on (R.LMS_CTRL.EN g) := by
  rw [Dev.lmsSync_eq, Dev.lmsCauses]
  split <;> simp -implicitDefEqProofs (disch := first | exact Fld.ok_of_ble rfl | exact Fld.apart_of_offset rfl rfl rfl) only
    [Dev.on_onL, Dev.on_flag_apart] <;> exact Dev.on_flag_same _ _ _ (Fld.ok_of_ble rfl) rfl

theorem Dev.ln_lmsSync : ∃ rx, (d.lmsSync g).ln g = { d.ln g with rx } := by
  have hc : ((d.lmsCauses g).flag (R.LMS_STATUS.FROZEN g) true).ln g = d.ln g := by simp -implicitDefEqProofs only [Dev.lmsCauses, Dev.flag, Dev.ln_set]
  rw [Dev.lmsSync_eq]
  split
  · exact ⟨{ (d.ln g).rx with grad := {} }, by rw [Dev.ln_onL_same, hc]⟩
  · exact ⟨(d.ln g).rx, by simp -implicitDefEqProofs only [Dev.lmsCauses, Dev.flag, Dev.ln_set]⟩

theorem Dev.holders_lmsSync : (d.lmsSync g).holders = d.holders := by
  rw [Dev.lmsSync_eq, Dev.lmsCauses]
  split <;> simp -implicitDefEqProofs only [Dev.flag, Dev.holders_onL, Dev.holders_set]

theorem Dev.eng_lmsSync : (d.lmsSync g).eng = d.eng := by
  rw [Dev.lmsSync_eq, Dev.lmsCauses]
  split <;> simp -implicitDefEqProofs only [Dev.flag, Dev.eng_onL, Dev.eng_set]

theorem LanesOnly.lmsSync {d d' : Dev} {l : List Nat} {g : Nat} (h : LanesOnly d d' l) (k : Nat) (hk : l[k]? = some (A.LMS_STATUS g)) :
    LanesOnly d (d'.lmsSync g) l := by
  have hc := ((h.flag (f := R.LMS_STATUS.BY_FADE g) (b := d'.on (R.FFE_STATUS.FADING g)) k hk).flag (f := R.LMS_STATUS.BY_CAL g)
    (b := [calHold, calStarved, calFrozen].contains (d'.cal g)) k hk).flag (f := R.LMS_STATUS.BY_SW g) (b := !d'.on (R.LMS_CTRL.EN g)) k hk
  rw [Dev.lmsSync_eq]
  exact .ite (fun _ => .onL (hc.flag k hk)) fun _ => hc.flag k hk

end

/-! The lane words of a lane's data path. -/

section
variable (d : Dev) (g : Nat) (ws : List LaneWord)

theorem Dev.rxWords_frame : ∃ n t, d.rxWords g ws = { d with lane := n, tl := t } := by
  unfold Dev.rxWords Dev.tlWords
  split
  · exact ⟨_, _, rfl⟩
  · dsimp only
    split <;> split <;> exact ⟨_, _, rfl⟩

theorem Dev.ln_rxWords : ∃ rx acc tx, (d.rxWords g ws).ln g = { d.ln g with rx, acc, tx } := by
  have hword : ∀ (c : RxCfg) (x : LaneSt) w, ∃ rx acc tx, c.lane x w = { x with rx, acc, tx } := fun c x w => by
    unfold RxCfg.lane
    dsimp only
    split
    · exact ⟨_, _, _, rfl⟩
    · split
      · exact ⟨_, _, _, rfl⟩
      · split <;> exact ⟨_, _, _, rfl⟩
  have hwords : ∀ (c : RxCfg) (l : List LaneWord) (x y : LaneSt), (∃ rx acc tx, y = { x with rx, acc, tx }) →
      ∃ rx acc tx, l.foldl c.lane y = { x with rx, acc, tx } := fun c l => by
    induction l with
    | nil => exact fun x y h => h
    | cons w l ih =>
      rintro x _ ⟨rx, acc, tx, rfl⟩
      obtain ⟨rx', acc', tx', h⟩ := hword c { x with rx, acc, tx } w
      exact ih x _ ⟨rx', acc', tx', h⟩
  have htl : ∀ ws, (d.tlWords g ws).ln g = d.ln g := fun ws => by
    unfold Dev.tlWords
    split <;> rfl
  unfold Dev.rxWords
  split
  · exact ⟨_, _, _, rfl⟩
  · dsimp only
    split
    · exact ⟨_, _, _, htl _⟩
    · rw [Dev.ln_onL_same, htl]
      exact hwords _ _ _ _ ⟨_, _, _, rfl⟩

theorem Dev.holders_rxWords : (d.rxWords g ws).holders = d.holders := by
  obtain ⟨n, t, h⟩ := d.rxWords_frame g ws
  rw [h]

theorem Dev.eng_rxWords : (d.rxWords g ws).eng = d.eng := by
  obtain ⟨n, t, h⟩ := d.rxWords_frame g ws
  rw [h]

theorem Dev.reg_rxWords (a : Nat) : (d.rxWords g ws).reg a = d.reg a := by
  obtain ⟨n, t, h⟩ := d.rxWords_frame g ws
  rw [h]; rfl

theorem Dev.get_rxWords (f : Fld) : (d.rxWords g ws).get f = d.get f := by rw [Dev.get, Dev.reg_rxWords, Dev.get]

theorem Dev.on_rxWords (f : Fld) : (d.rxWords g ws).on f = d.on f := by rw [Dev.on, Dev.get_rxWords, Dev.on]

end

end Sys2Proof.Machine
end

section
/-! The tap banks and the LMS of a lane (spec/02, R54 to R57, R62 to R64). -/

open Sys2Proof

namespace Sys2Proof.Machine

theorem tidy_FFE_BANK_SEL : Row.FFE_BANK_SEL.tidy := by decide

theorem tidy_LMS_CTRL : Row.LMS_CTRL.tidy := by decide

/-! A write to a tap or a cursor (R54). -/

section
variable (d : Dev) (g v : Nat)

/-- A cursor of FFE_CTRL takes x if its bank accepts writes. -/
def Dev.cursorWritten (b : Bool) (f : Fld) (x : Nat) : Dev :=
  if d.on (R.FFE_STATUS.FADING g) ∨ d.on (R.FFE_STATUS.ACTIVE g) = b then
    if d.get f = x then d else d.set (R.FFE_STATUS.ACTIVE_WR g) 1
  else d.set f x

theorem Dev.ffeCtrl_eq : d.ffeCtrl g v = (d.cursorWritten g false (R.FFE_CTRL.CURSOR_A g) (min (getBits v 13 8) 47)).cursorWritten g true
    (R.FFE_CTRL.CURSOR_B g) (min (getBits v 21 16) 47) := rfl

/-- What a cursor write leaves of another field. -/
theorem Dev.get_cursorWritten_apart (b : Bool) {f : Fld} (x : Nat) {k : Fld} (hf : f.ok) (h : f.apart k)
    (hw : (R.FFE_STATUS.ACTIVE_WR g).apart k) : (d.cursorWritten g b f x).get k = d.get k := by
  unfold Dev.cursorWritten
  split
  · split
    · rfl
    · exact Dev.get_set_apart _ _ (Fld.ok_of_ble rfl) hw
  · exact Dev.get_set_apart _ _ hf h

theorem Dev.on_cursorWritten_apart (b : Bool) {f : Fld} (x : Nat) {k : Fld} (hf : f.ok) (h : f.apart k)
    (hw : (R.FFE_STATUS.ACTIVE_WR g).apart k) : (d.cursorWritten g b f x).on k = d.on k := by
  rw [Dev.on, Dev.get_cursorWritten_apart _ _ _ _ hf h hw, Dev.on]

/-- ACTIVE_WR stays set. -/
theorem Dev.activeWr_cursorWritten (b : Bool) {f : Fld} (x : Nat) (hf : f.ok) (h : f.apart (R.FFE_STATUS.ACTIVE_WR g))
    (hd : d.on (R.FFE_STATUS.ACTIVE_WR g) = true) : (d.cursorWritten g b f x).on (R.FFE_STATUS.ACTIVE_WR g) = true := by
  unfold Dev.cursorWritten
  split
  · split
    · exact hd
    · rw [Dev.on_set_same _ _ _ (Fld.ok_of_ble rfl)]; rfl
  · rw [Dev.on_set_apart _ _ _ _ hf h, hd]

/-- R54: a bank that accepts writes takes the value; another does not, and shows a write of a different one. -/
theorem Dev.cursorWritten_spec (b : Bool) {f : Fld} {x : Nat} (hf : f.ok) (h : (R.FFE_STATUS.ACTIVE_WR g).apart f) (hx : x < 2 ^ f.width) :
    (d.on (R.FFE_STATUS.FADING g) = false ∧ d.on (R.FFE_STATUS.ACTIVE g) ≠ b → (d.cursorWritten g b f x).get f = x) ∧
    (¬ (d.on (R.FFE_STATUS.FADING g) = false ∧ d.on (R.FFE_STATUS.ACTIVE g) ≠ b) → (d.cursorWritten g b f x).get f = d.get f ∧
      (d.get f ≠ x → (d.cursorWritten g b f x).on (R.FFE_STATUS.ACTIVE_WR g) = true)) := by
  unfold Dev.cursorWritten
  refine ⟨fun ⟨h1, h2⟩ => ?_, fun hn => ?_⟩
  · rw [if_neg (by simp [h1, h2]), Dev.get_set_same _ _ _ hf, Nat.mod_eq_of_lt hx]
  · have hc : d.on (R.FFE_STATUS.FADING g) = true ∨ d.on (R.FFE_STATUS.ACTIVE g) = b := by
      by_cases hfade : d.on (R.FFE_STATUS.FADING g) = true
      · exact .inl hfade
      · exact .inr (by_contra fun hb => hn ⟨Bool.eq_false_iff.2 hfade, hb⟩)
    rw [if_pos hc]
    split
    · exact ⟨rfl, fun hne => absurd ‹_› hne⟩
    · exact ⟨Dev.get_set_apart _ _ (Fld.ok_of_ble rfl) h, fun _ => by rw [Dev.on_set_same _ _ _ (Fld.ok_of_ble rfl)]; rfl⟩

theorem RegsOnly.cursorWritten {d d' : Dev} {l : List Nat} {g : Nat} (h : RegsOnly d d' l) (b : Bool) {f : Fld} (x : Nat) (i j : Nat)
    (hi : l[i]? = some f.addr) (hj : l[j]? = some (A.FFE_STATUS g)) : RegsOnly d (d'.cursorWritten g b f x) l :=
  .ite (fun _ => .ite (fun _ => h) fun _ => h.set j hj) fun _ => h.set i hi

/-- The addresses of the taps of both banks and of FFE_STATUS. -/
theorem ffeTap_apart (b : Bool) (t : Fin 48) (f : Fld) (hf : f.addr = A.FFE_STATUS g) :
    f.apart (if b then R.FFE_B.COEF g t else R.FFE_A.COEF g t) := by
  refine .inl ?_
  rw [hf]
  cases b <;> simp only [R.FFE_A.COEF, R.FFE_B.COEF, A.FFE_A, A.FFE_B, A.FFE_STATUS, if_true, if_false, Bool.false_eq_true] <;> omega

/-! A fade (R55 to R57). -/

theorem Dev.fading_startFade (b k : Nat) : (d.startFade g b k).on (R.FFE_STATUS.FADING g) = true := by
  unfold Dev.startFade
  rw [Dev.on_lmsSync _ _ (.inl (ne_of_offset rfl rfl rfl)) (.inl (ne_of_offset rfl rfl rfl)) (.inl (ne_of_offset rfl rfl rfl)) (.inl (ne_of_offset rfl rfl rfl))]
  simp -implicitDefEqProofs (disch := first | exact Fld.ok_of_ble rfl | exact Fld.apart_of_offset rfl rfl rfl) only
    [Dev.on_onL, Dev.on_set_apart, Dev.on_set_same]
  rfl

theorem Dev.get_startFade_apart (b k : Nat) {f : Fld} (ha : A.LMS_STATUS g ≠ f.addr) (h1 : (R.FFE_STATUS.FADING g).apart f)
    (h2 : (R.FFE_STATUS.TARGET g).apart f) : (d.startFade g b k).get f = d.get f := by
  unfold Dev.startFade
  rw [Dev.get_lmsSync _ _ (.inl ha) (.inl ha) (.inl ha) (.inl ha), Dev.get_onL, Dev.get_set_apart _ _ (Fld.ok_of_ble rfl) h2,
    Dev.get_set_apart _ _ (Fld.ok_of_ble rfl) h1]

theorem Dev.target_startFade {b : Nat} (k : Nat) (hb : b < 2) : (d.startFade g b k).get (R.FFE_STATUS.TARGET g) = b := by
  have ha : A.LMS_STATUS g ≠ (R.FFE_STATUS.TARGET g).addr := ne_of_offset rfl rfl rfl
  unfold Dev.startFade
  rw [Dev.get_lmsSync _ _ (.inl ha) (.inl ha) (.inl ha) (.inl ha), Dev.get_onL, Dev.get_set_same _ _ _ (Fld.ok_of_ble rfl)]
  exact Nat.mod_eq_of_lt hb

theorem Dev.fadeK_startFade (b k : Nat) : ((d.startFade g b k).ln g).fadeK = k := by
  unfold Dev.startFade
  obtain ⟨rx, h⟩ := Dev.ln_lmsSync (((d.set (R.FFE_STATUS.FADING g) 1).set (R.FFE_STATUS.TARGET g) b).onL g fun x =>
    { x with fadeK := k, rx := { x.rx with fadeAt := 0 } }) g
  rw [h, Dev.ln_onL_same]

/-- The LMS is frozen by the fade. -/
theorem Dev.frozen_startFade (b k : Nat) : (d.startFade g b k).on (R.LMS_STATUS.BY_FADE g) = true ∧
    (d.startFade g b k).on (R.LMS_STATUS.FROZEN g) = true := by
  have h := d.fading_startFade g b k
  unfold Dev.startFade at h ⊢
  rw [Dev.on_lmsSync _ _ (.inl (ne_of_offset rfl rfl rfl)) (.inl (ne_of_offset rfl rfl rfl)) (.inl (ne_of_offset rfl rfl rfl)) (.inl (ne_of_offset rfl rfl rfl))] at h
  rw [Dev.byFade_lmsSync, Dev.frozen_lmsSync, Dev.lmsFrozen, h]
  exact ⟨rfl, rfl⟩

end

/-! The end of a block of the mean squared error (R64). -/

section
variable (d : Dev) (g : Nat)

/-- The run of error blocks above the threshold with the block that ends. -/
def Dev.mseRuns : Nat :=
  if decide (d.get (R.LMS_MSE.ALARM_THR g) < min (d.ln g).rx.mse 65535) && !(d.ln g).blkLos then (d.ln g).mseRun + 1 else 0

/-- The block shown and the next begun. -/
def Dev.mseShown : Dev :=
  ((d.set (R.LMS_MSE.MSE g) (min (d.ln g).rx.mse 65535)).laneNotice g 6).onL g fun x =>
    { x with mseRun := min 4 (d.mseRuns g), blkLos := d.on (R.RX_STATUS.LOS g), rx := { x.rx with sse := 0, sseN := 0 } }

theorem Dev.mseBlock_eq (h : d.cal g ≠ calHold) : d.mseBlock g =
    if 4 ≤ d.mseRuns g ∧ (!(d.mseShown g).on (R.LMS_STATUS.DIVERGED g)) = true then
      (((d.mseShown g).set (R.LMS_STATUS.DIVERGED g) 1).lmsSync g).laneNotice g 7
    else d.mseShown g := by
  rw [Dev.mseBlock, if_neg h]
  rfl

theorem Dev.diverged_mseShown : (d.mseShown g).on (R.LMS_STATUS.DIVERGED g) = d.on (R.LMS_STATUS.DIVERGED g) := by
  rw [Dev.mseShown, Dev.on_onL, Dev.on_laneNotice, Dev.on_set_apart _ _ _ _ (Fld.ok_of_ble rfl) (.inl (ne_of_offset rfl rfl rfl))]

theorem Dev.mse_mseBlock (h : d.cal g ≠ calHold) : (d.mseBlock g).get (R.LMS_MSE.MSE g) = min (d.ln g).rx.mse 65535 := by
  have hs : (d.mseShown g).get (R.LMS_MSE.MSE g) = min (d.ln g).rx.mse 65535 := by
    rw [Dev.mseShown, Dev.get_onL, Dev.get_laneNotice, Dev.get_set_same _ _ _ (Fld.ok_of_ble rfl)]
    exact Nat.mod_eq_of_lt (show _ < 65536 by omega)
  have ha : A.LMS_STATUS g ≠ (R.LMS_MSE.MSE g).addr := ne_of_offset rfl rfl rfl
  rw [Dev.mseBlock_eq d g h]
  split
  · rw [Dev.get_laneNotice, Dev.get_lmsSync _ _ (.inl ha) (.inl ha) (.inl ha) (.inl ha), Dev.get_set_apart _ _ (Fld.ok_of_ble rfl) (.inl ha), hs]
  · exact hs

/-- R64: the fourth consecutive block above the threshold. -/
theorem Dev.diverged_mseBlock (h : d.cal g ≠ calHold) (hr : d.mseRuns g = 4) : (d.mseBlock g).on (R.LMS_STATUS.DIVERGED g) = true ∧
    (d.on (R.LMS_STATUS.DIVERGED g) = false → (d.mseBlock g).on (R.LMS_STATUS.FROZEN g) = true) := by
  rw [Dev.mseBlock_eq d g h, hr, Dev.diverged_mseShown]
  cases hd : d.on (R.LMS_STATUS.DIVERGED g)
  · have hon : ((d.mseShown g).set (R.LMS_STATUS.DIVERGED g) 1).on (R.LMS_STATUS.DIVERGED g) = true := by
      rw [Dev.on_set_same _ _ _ (Fld.ok_of_ble rfl)]; rfl
    rw [if_pos ⟨Nat.le_refl _, rfl⟩, Dev.on_laneNotice, Dev.on_lmsSync _ _ (Fld.apart_of_offset rfl rfl rfl) (Fld.apart_of_offset rfl rfl rfl)
      (Fld.apart_of_offset rfl rfl rfl) (Fld.apart_of_offset rfl rfl rfl), Dev.on_laneNotice, Dev.frozen_lmsSync, Dev.lmsFrozen, hon]
    exact ⟨rfl, fun _ => by simp⟩
  · rw [if_neg (by simp)]
    exact ⟨(d.diverged_mseShown g).trans hd, fun hf => absurd hf (by simp)⟩

/-- A block with a loss of signal counts as none. -/
theorem Dev.mseRun_mseBlock (h : d.cal g ≠ calHold) (hr : d.mseRuns g = 0) : ((d.mseBlock g).ln g).mseRun = 0 ∧
    (d.mseBlock g).on (R.LMS_STATUS.DIVERGED g) = d.on (R.LMS_STATUS.DIVERGED g) := by
  rw [Dev.mseBlock_eq d g h, if_neg (by omega)]
  refine ⟨?_, d.diverged_mseShown g⟩
  rw [Dev.mseShown, Dev.ln_onL_same]
  show min 4 (d.mseRuns g) = 0
  omega

end

theorem getBits_ne_zero (v i : Nat) : (getBits v i i != 0) = bit v i := by
  have h : getBits v i i = v / 2 ^ i % 2 := by rw [getBits, Nat.add_sub_cancel_left, Nat.pow_one]
  rw [h, bit]
  rcases Nat.mod_two_eq_zero_or_one (v / 2 ^ i) with h | h <;> rw [h] <;> rfl

/-! A write to FFE_BANK_SEL (R56). -/

section
variable (d : Dev) (g v : Nat)

theorem Dev.bankSel_eq : d.bankSel g v =
    (d.sw Row.FFE_BANK_SEL (A.FFE_BANK_SEL g) v).swapRequest g (getBits v 8 8) (max 4 (min 16 (v % 32))) := by
  have hsel : (d.sw Row.FFE_BANK_SEL (A.FFE_BANK_SEL g) v).get (R.FFE_BANK_SEL.SEL g) = getBits v 8 8 :=
    Dev.get_sw_any d tidy_FFE_BANK_SEL (f := R.FFE_BANK_SEL.SEL g) 0 rfl v
  have hk : (d.sw Row.FFE_BANK_SEL (A.FFE_BANK_SEL g) v).get (R.FFE_BANK_SEL.FADE_K g) = max 4 (min 16 (getBits v 4 0)) :=
    Dev.get_sw_range d tidy_FFE_BANK_SEL (f := R.FFE_BANK_SEL.FADE_K g) 1 rfl (by norm_num) (by norm_num [R.FFE_BANK_SEL.FADE_K, Fld.width]) v
  have hbits : getBits v 4 0 = v % 32 := by rw [getBits, Nat.pow_zero, Nat.div_one]; rfl
  unfold Dev.bankSel
  dsimp only
  rw [hsel, hk, hbits]

end

/-- A fold whose steps keep a value keeps it. -/
theorem foldl_keeps_mem {α β γ : Type} (p : α → γ) {f : α → β → α} (l : List β) (h : ∀ b ∈ l, ∀ a, p (f a b) = p a) (a : α) :
    p (l.foldl f a) = p a := by
  induction l generalizing a with
  | nil => rfl
  | cons b t ih => exact (ih (fun b hb => h b (.tail _ hb)) _).trans (h b (.head _) a)

/-! The LMS (R62, R64). -/

section
variable (d : Dev) (g : Nat)

theorem Dev.get_lmsStep {f k : Fld} (signed : Bool) (lo hi i : Int) (hf : f.ok) (h : f.apart k) (ht : (R.LMS_STATUS.TAP_LIMIT g).apart k) :
    (d.lmsStep g f signed lo hi i).get k = d.get k := by
  have htap : ((d.set (R.LMS_STATUS.TAP_LIMIT g) 1).laneNotice g 8).get k = d.get k := by
    rw [Dev.get_laneNotice, Dev.get_set_apart _ _ (Fld.ok_of_ble rfl) ht]
  unfold Dev.lmsStep Dev.setI
  dsimp only
  rw [Dev.get_set_apart _ _ hf h]
  simp only [apply_ite (fun e : Dev => e.get k), htap, ite_self]

/-- R62: an update steps parameters and sets TAP_LIMIT; UPDATES counts it. -/
theorem Dev.updates_lmsUpdate (h : d.on (R.LMS_STATUS.FROZEN g) = false) :
    (d.lmsUpdate g).get (R.LMS_STATUS.UPDATES g) = (d.get (R.LMS_STATUS.UPDATES g) + 1) % 65536 ∧ ((d.lmsUpdate g).ln g).rx.grad = {} := by
  have htaps : ∀ t < 48, ∀ b : Bool, (if b then R.FFE_B.COEF g t else R.FFE_A.COEF g t).ok ∧
      (if b then R.FFE_B.COEF g t else R.FFE_A.COEF g t).apart (R.LMS_STATUS.UPDATES g) := fun t ht b => by
    have hA : (R.FFE_A.COEF g t).addr ≠ (R.LMS_STATUS.UPDATES g).addr := by
      simp only [R.FFE_A.COEF, R.LMS_STATUS.UPDATES, A.FFE_A, A.LMS_STATUS]; omega
    have hB : (R.FFE_B.COEF g t).addr ≠ (R.LMS_STATUS.UPDATES g).addr := by
      simp only [R.FFE_B.COEF, R.LMS_STATUS.UPDATES, A.FFE_B, A.LMS_STATUS]; omega
    cases b
    · exact ⟨Fld.ok_of_ble rfl, .inl hA⟩
    · exact ⟨Fld.ok_of_ble rfl, .inl hB⟩
  unfold Dev.lmsUpdate
  rw [h, if_neg Bool.false_ne_true]
  dsimp only
  refine ⟨?_, by rw [Dev.ln_onL_same]⟩
  rw [Dev.get_onL, Dev.incW, Dev.get_set_same _ _ _ (Fld.ok_of_ble rfl)]
  simp -implicitDefEqProofs (disch := first | exact Fld.ok_of_ble rfl | exact Fld.apart_of_offset rfl rfl rfl) only
    [apply_ite (fun e : Dev => e.get (R.LMS_STATUS.UPDATES g)), Dev.get_lmsStep, ite_self]
  rw [foldl_keeps_mem (fun e : Dev => e.get (R.LMS_STATUS.UPDATES g))]
  · rfl
  · intro t ht e
    have ht := List.mem_range.1 ht
    refine (apply_ite (fun e : Dev => e.get (R.LMS_STATUS.UPDATES g)) _ _ _).trans ?_
    rw [Dev.get_lmsStep _ _ _ _ _ _ (htaps t ht _).1 (htaps t ht _).2 (Fld.apart_of_offset rfl rfl rfl), ite_self]

end

end Sys2Proof.Machine

open Sys2Proof.Machine

/-- Settles O18. -/
theorem tapBanks : Obligations.TapBanks := by
  refine ⟨fun g src b t v s => ?_, fun g src v ws s => ?_⟩
  · intro d f hbar
    have hexec : exec (.ffeTapWrite src g (some (b, t)) v) s = s.on fun d => d.gate src f.addr fun d => d.ffeTap g b t v.toNat := by
      cases b <;> rfl
    have h := makes_of_gate hexec hbar
    have hok : f.ok := by cases b <;> exact Fld.ok_of_ble rfl
    have hw : v.toNat % 1024 < 2 ^ f.width := by cases b <;> exact Nat.mod_lt _ (by norm_num)
    unfold Dev.ffeTap at h
    refine ⟨fun hfade hact => ?_, fun hbusy => ⟨fun heq => ?_, fun hne => ?_⟩, fun hbar => ?_⟩
    · rw [if_neg (by simp [show s.dev.on (R.FFE_STATUS.FADING g) = false from hfade, show s.dev.on (R.FFE_STATUS.ACTIVE g) ≠ b from hact])] at h
      refine h.gives ⟨?_, RegsOnly.set (.refl _ _) 0 rfl⟩
      dsimp only
      rw [Dev.get_set_same _ _ _ hok, Nat.mod_eq_of_lt hw]
    · rwa [if_pos hbusy, if_pos heq] at h
    · rw [if_pos hbusy, if_neg hne] at h
      refine h.gives ⟨?_, ?_, RegsOnly.set (.refl _ _) 0 rfl⟩
      · dsimp only
        rw [Dev.on_set_same _ _ _ (Fld.ok_of_ble rfl)]; rfl
      · dsimp only
        rw [Dev.get_set_apart _ _ (Fld.ok_of_ble rfl) (ffeTap_apart g b t _ rfl)]
    · have h := makes_of_gate (c := .ffeTapWrite src g none v) rfl hbar
      rw [Dev.ffeCtrl_eq] at h
      have hx : ∀ n, min n 47 < 64 := fun n => by omega
      have ha : min (getBits v.toNat 13 8) 47 = min 47 (v.toNat / 256 % 64) := Nat.min_comm _ _
      have hz : min (getBits v.toNat 21 16) 47 = min 47 (v.toNat / 65536 % 64) := Nat.min_comm _ _
      obtain ⟨hA, hA'⟩ := d.cursorWritten_spec g false (f := R.FFE_CTRL.CURSOR_A g) (Fld.ok_of_ble rfl) (Fld.apart_of_offset rfl rfl rfl)
        (hx (getBits v.toNat 13 8))
      obtain ⟨hB, hB'⟩ := (d.cursorWritten g false (R.FFE_CTRL.CURSOR_A g) (min (getBits v.toNat 13 8) 47)).cursorWritten_spec g true
        (f := R.FFE_CTRL.CURSOR_B g) (Fld.ok_of_ble rfl) (Fld.apart_of_offset rfl rfl rfl) (hx (getBits v.toNat 21 16))
      have hkeepA : ∀ e : Dev, ∀ x, (e.cursorWritten g true (R.FFE_CTRL.CURSOR_B g) x).get (R.FFE_CTRL.CURSOR_A g) = e.get (R.FFE_CTRL.CURSOR_A g) :=
        fun e x => Dev.get_cursorWritten_apart e g true x (Fld.ok_of_ble rfl) (Fld.apart_of_offset rfl rfl rfl) (Fld.apart_of_offset rfl rfl rfl)
      have hkeepB : ∀ x, (d.cursorWritten g false (R.FFE_CTRL.CURSOR_A g) x).get (R.FFE_CTRL.CURSOR_B g) = d.get (R.FFE_CTRL.CURSOR_B g) :=
        fun x => Dev.get_cursorWritten_apart d g false x (Fld.ok_of_ble rfl) (Fld.apart_of_offset rfl rfl rfl) (Fld.apart_of_offset rfl rfl rfl)
      have hfade : ∀ x, (d.cursorWritten g false (R.FFE_CTRL.CURSOR_A g) x).on (R.FFE_STATUS.FADING g) = d.on (R.FFE_STATUS.FADING g) :=
        fun x => Dev.on_cursorWritten_apart d g false x (Fld.ok_of_ble rfl) (Fld.apart_of_offset rfl rfl rfl) (Fld.apart_of_offset rfl rfl rfl)
      have hact : ∀ x, (d.cursorWritten g false (R.FFE_CTRL.CURSOR_A g) x).on (R.FFE_STATUS.ACTIVE g) = d.on (R.FFE_STATUS.ACTIVE g) :=
        fun x => Dev.on_cursorWritten_apart d g false x (Fld.ok_of_ble rfl) (Fld.apart_of_offset rfl rfl rfl) (Fld.apart_of_offset rfl rfl rfl)
      rw [hfade, hact] at hB hB'
      rw [hkeepB] at hB'
      rw [ha] at h hA hA' hB hB'
      rw [hz] at h hB hB'
      refine h.gives ?_
      intro fits a z
      refine ⟨fun hf => (hkeepA _ _).trans (hA hf), fun hf => ⟨(hkeepA _ _).trans (hA' hf).1, fun hne => ?_⟩, hB, hB', ?_⟩
      · exact Dev.activeWr_cursorWritten _ _ _ _ (Fld.ok_of_ble rfl) (Fld.apart_of_offset rfl rfl rfl) ((hA' hf).2 hne)
      · exact ((RegsOnly.refl _ _).cursorWritten false _ 0 1 rfl rfl).cursorWritten true _ 0 1 rfl rfl
  · intro d b k act drop fading
    have hb2 : b < 2 := getBits_lt _ _ _
    have hk32 : k < 32 := by omega
    refine ⟨fun hbar => ?_, fun hawake hfading => ?_⟩
    · have h := makes_of_gate (c := .swapRequest src g v) rfl hbar
      rw [Dev.bankSel_eq] at h
      set e := d.sw Row.FFE_BANK_SEL (A.FFE_BANK_SEL g) v.toNat with he
      have hreg : RegsOnly d e [A.FFE_BANK_SEL g, A.FFE_STATUS g] := RegsOnly.sw (.refl _ _) 0 rfl
      have hrx : e.rxState g = d.rxState g := Dev.get_sw_ne _ _ _ _ (ne_of_offset rfl rfl rfl)
      have hst : ∀ f : Fld, f.addr = A.FFE_STATUS g → e.get f = d.get f := fun f hf =>
        Dev.get_sw_ne _ _ _ _ (by rw [hf]; exact ne_of_offset rfl rfl rfl)
      have hact : e.get (R.FFE_STATUS.ACTIVE g) = act := hst _ rfl
      have hdrop : e.get (R.FFE_STATUS.DROP_CNT g) = drop := hst _ rfl
      have hfad : e.on (R.FFE_STATUS.FADING g) = fading := by rw [Dev.on, hst _ rfl]; rfl
      have hinc : (e.inc (R.FFE_STATUS.DROP_CNT g)).get (R.FFE_STATUS.DROP_CNT g) = min 65535 (drop + 1) := by
        rw [Dev.get_inc_same _ _ _ (Fld.ok_of_ble rfl), hdrop]; rfl
      have hinc' : (e.inc (R.FFE_STATUS.DROP_CNT g)).get (R.FFE_STATUS.ACTIVE g) = act := by
        rw [Dev.get_inc_apart _ _ _ _ (Fld.ok_of_ble rfl) (Fld.apart_of_offset rfl rfl rfl), hact]
      unfold Dev.swapRequest at h
      dsimp only at h
      rw [hrx, hact, hfad] at h
      refine ⟨fun h0 hf hba => ?_, fun h0 hf hba => ?_, fun h0 hf hba => ?_, fun h0 hf hba => ?_, fun h0 hba => ?_, fun h0 hba => ?_⟩
      · rw [if_neg (not_not.2 h0), if_pos (by rw [hf]; rfl), if_pos hba] at h
        exact h.gives ⟨hinc, hinc', hreg.inc 1 rfl⟩
      · rw [if_neg (not_not.2 h0), if_pos (by rw [hf]; rfl), if_neg hba] at h
        exact h.gives ⟨Dev.fading_startFade .., Dev.target_startFade _ _ _ hb2,
          (Dev.get_startFade_apart _ _ _ _ (ne_of_offset rfl rfl rfl) (Fld.apart_of_offset rfl rfl rfl) (Fld.apart_of_offset rfl rfl rfl)).trans hact,
          Dev.fadeK_startFade .., Dev.frozen_startFade ..⟩
      · rw [if_neg (not_not.2 h0), if_neg (by rw [hf]; simp), if_pos hba] at h
        refine h.gives ⟨?_, ?_, ?_, ((hreg.set 1 rfl).set 1 rfl).set 1 rfl⟩
        · simp -implicitDefEqProofs (disch := first | exact Fld.ok_of_ble rfl | exact Fld.apart_of_offset rfl rfl rfl) only
            [Dev.on_set_apart, Dev.on_set_same]
          rfl
        · simp -implicitDefEqProofs (disch := first | exact Fld.ok_of_ble rfl | exact Fld.apart_of_offset rfl rfl rfl) only
            [Dev.get_set_apart, Dev.get_set_same]
          exact Nat.mod_eq_of_lt hb2
        · dsimp only
          rw [Dev.get_set_same _ _ _ (Fld.ok_of_ble rfl)]
          exact Nat.mod_eq_of_lt hk32
      · rw [if_neg (not_not.2 h0), if_neg (by rw [hf]; simp), if_neg hba] at h
        refine h.gives ⟨?_, ?_, (hreg.inc 1 rfl).set 1 rfl⟩
        · dsimp only
          rw [Dev.get_set_apart _ _ (Fld.ok_of_ble rfl) (Fld.apart_of_offset rfl rfl rfl), hinc]
        · dsimp only
          rw [Dev.on_set_same _ _ _ (Fld.ok_of_ble rfl)]
          rfl
      · rw [if_pos h0, if_pos hba] at h
        exact h.gives ⟨hinc, hinc', hreg.inc 1 rfl⟩
      · rw [if_pos h0, if_neg hba] at h
        refine h.gives ⟨?_, (hreg.set 1 rfl).set 1 rfl⟩
        simp -implicitDefEqProofs (disch := first | exact Fld.ok_of_ble rfl | exact Fld.apart_of_offset rfl rfl rfl) only
          [Dev.get_set_apart, Dev.get_set_same]
        exact Nat.mod_eq_of_lt hb2
    · have h := makes_of_live (c := .fadeEnd ⟨g, ws⟩) (f := fun d => (d.rxWords g ws).fadeEnd g) rfl hawake
      set e := d.rxWords g ws with he
      have hget : ∀ f, e.get f = d.get f := fun f => Dev.get_rxWords d g ws f
      have hon : ∀ f, e.on f = d.on f := fun f => Dev.on_rxWords d g ws f
      have ht2 : d.get (R.FFE_STATUS.TARGET g) < 2 := d.get_lt _
      have hh2 : d.get (R.FFE_STATUS.HELD_BANK g) < 2 := d.get_lt _
      unfold Dev.fadeEnd at h
      dsimp only at h
      rw [hon, if_pos hfading, hget] at h
      set e' := e.set (R.FFE_STATUS.ACTIVE g) (d.get (R.FFE_STATUS.TARGET g)) with he'
      have hgetS : ∀ f : Fld, (R.FFE_STATUS.ACTIVE g).apart f → e'.get f = d.get f := fun f hf => by
        rw [he', Dev.get_set_apart _ _ (Fld.ok_of_ble rfl) hf, hget]
      have hactive : e'.get (R.FFE_STATUS.ACTIVE g) = d.get (R.FFE_STATUS.TARGET g) := by
        rw [he', Dev.get_set_same _ _ _ (Fld.ok_of_ble rfl)]
        exact Nat.mod_eq_of_lt ht2
      have hheld : e'.on (R.FFE_STATUS.SWAP_HELD g) = d.on (R.FFE_STATUS.SWAP_HELD g) := by
        rw [Dev.on, hgetS _ (Fld.apart_of_offset rfl rfl rfl)]; rfl
      rw [hheld, hgetS _ (Fld.apart_of_offset rfl rfl rfl), hgetS _ (Fld.apart_of_offset rfl rfl rfl)] at h
      have ha : ∀ f : Fld, f.addr = A.FFE_STATUS g → A.LMS_STATUS g ≠ f.addr := fun f hf => by rw [hf]; exact ne_of_offset rfl rfl rfl
      refine ⟨fun hs => ?_, fun hs => ?_⟩
      · rw [if_pos hs] at h
        refine h.gives ⟨?_, Dev.fading_startFade .., Dev.target_startFade _ _ _ hh2, Dev.fadeK_startFade .., ?_⟩
        · dsimp only
          rw [Dev.get_startFade_apart _ _ _ _ (ha _ rfl) (Fld.apart_of_offset rfl rfl rfl) (Fld.apart_of_offset rfl rfl rfl),
            Dev.get_set_apart _ _ (Fld.ok_of_ble rfl) (Fld.apart_of_offset rfl rfl rfl), hactive]
        · dsimp only
          rw [Dev.on, Dev.get_startFade_apart _ _ _ _ (ha _ rfl) (Fld.apart_of_offset rfl rfl rfl) (Fld.apart_of_offset rfl rfl rfl),
            Dev.get_set_same _ _ _ (Fld.ok_of_ble rfl)]
          rfl
      · rw [if_neg (by rw [hs]; simp)] at h
        have hoff : (e'.set (R.FFE_STATUS.FADING g) 0).on (R.FFE_STATUS.FADING g) = false := by
          rw [Dev.on_set_same _ _ _ (Fld.ok_of_ble rfl)]; rfl
        refine h.gives ⟨?_, ?_, ?_, ?_⟩
        · dsimp only
          rw [Dev.get_laneNotice, Dev.get_lmsSync _ _ (.inl (ha _ rfl)) (.inl (ha _ rfl)) (.inl (ha _ rfl)) (.inl (ha _ rfl)),
            Dev.get_set_apart _ _ (Fld.ok_of_ble rfl) (Fld.apart_of_offset rfl rfl rfl), hactive]
        · dsimp only
          rw [Dev.on_laneNotice, Dev.on_lmsSync _ _ (.inl (ha _ rfl)) (.inl (ha _ rfl)) (.inl (ha _ rfl)) (.inl (ha _ rfl)), hoff]
        · dsimp only
          rw [Dev.on_laneNotice, Dev.byFade_lmsSync, hoff]
        · refine notified_notice ?_ ?_ (by norm_num) (by omega)
          · rw [Dev.holders_lmsSync, Dev.holders_set, he', Dev.holders_set, he, Dev.holders_rxWords]
          · rw [Dev.eng_lmsSync, Dev.eng_set, he', Dev.eng_set, he, Dev.eng_rxWords]
/-- Settles O19. -/
theorem lmsSupervision : Obligations.LmsSupervision := by
  intro g src v ws s d n
  have hget : ∀ f, (d.rxWords g ws).get f = d.get f := fun f => Dev.get_rxWords d g ws f
  have hon : ∀ f, (d.rxWords g ws).on f = d.on f := fun f => Dev.on_rxWords d g ws f
  refine ⟨fun ha => ⟨fun hf => ?_, fun hf => ?_, fun hc => ?_⟩, fun hb => ?_⟩
  · have h := makes_of_live (c := .lmsUpdate g ws) rfl ha
    rwa [Dev.lmsUpdate, if_pos ((hon _).trans hf)] at h
  · have h := makes_of_live (c := .lmsUpdate g ws) rfl ha
    have hu := (d.rxWords g ws).updates_lmsUpdate g ((hon _).trans hf)
    rw [hget] at hu
    exact h.gives hu
  · have h := makes_of_live (c := .mseBlockEnd g ws) rfl ha
    obtain ⟨rx, acc, tx, hln⟩ := Dev.ln_rxWords d g ws
    have hcal : (d.rxWords g ws).cal g = d.cal g := hget _
    have hrun : ((d.rxWords g ws).ln g).mseRun = (d.ln g).mseRun := by rw [hln]
    have hlos : ((d.rxWords g ws).ln g).blkLos = (d.ln g).blkLos := by rw [hln]
    have hc : (d.rxWords g ws).cal g ≠ calHold := by rw [hcal]; exact hc
    have hmax : min ((d.rxWords g ws).ln g).rx.mse 65535 = min n 65535 := rfl
    refine h.gives ⟨Dev.mse_mseBlock _ _ hc, fun hthr hb hr => ?_, fun hb => ?_⟩
    · have hm := Dev.diverged_mseBlock _ _ hc (by rw [Dev.mseRuns, hget, hlos, hrun, hb, hr, hmax, decide_eq_true hthr]; rfl)
      rw [hon] at hm
      exact hm
    · have hm := Dev.mseRun_mseBlock _ _ hc (by rw [Dev.mseRuns, hlos, hb, Bool.not_true, Bool.and_false]; rfl)
      rw [hon] at hm
      exact hm
  · have h := makes_of_gate (c := .lmsCtrlWrite src g v) rfl hb
    unfold Dev.lmsCtrl at h
    have hen : (d.sw Row.LMS_CTRL (A.LMS_CTRL g) v.toNat).on (R.LMS_CTRL.EN g) = bit v.toNat 0 := by
      have hg : (d.sw Row.LMS_CTRL (A.LMS_CTRL g) v.toNat).get (R.LMS_CTRL.EN g) = getBits v.toNat 0 0 :=
        Dev.get_sw_any d tidy_LMS_CTRL (f := R.LMS_CTRL.EN g) 6 rfl v.toNat
      rw [Dev.on, hg, getBits_ne_zero]
    have hdiv : (((d.sw Row.LMS_CTRL (A.LMS_CTRL g) v.toNat).set (R.LMS_STATUS.DIVERGED g) 0).onL g fun x => { x with mseRun := 0 }).on
        (R.LMS_CTRL.EN g) = bit v.toNat 0 := by
      rw [Dev.on_onL, Dev.on_set_apart _ _ _ _ (Fld.ok_of_ble rfl) (.inl (ne_of_offset rfl rfl rfl)), hen]
    refine h.gives ⟨?_, ?_, ?_, ?_, LanesOnly.lmsSync (.onL (.set (.sw (.refl _ _) 0 rfl) 1 rfl)) 1 rfl⟩
    · dsimp only
      rw [Dev.on_lmsSync _ _ (Fld.apart_of_offset rfl rfl rfl) (Fld.apart_of_offset rfl rfl rfl) (Fld.apart_of_offset rfl rfl rfl)
        (Fld.apart_of_offset rfl rfl rfl), Dev.on_onL, Dev.on_set_same _ _ _ (Fld.ok_of_ble rfl)]
      rfl
    · dsimp only
      rw [Dev.on_lmsSync _ _ (.inl (ne_of_offset rfl rfl rfl)) (.inl (ne_of_offset rfl rfl rfl)) (.inl (ne_of_offset rfl rfl rfl))
        (.inl (ne_of_offset rfl rfl rfl)), hdiv]
    · dsimp only
      rw [Dev.bySw_lmsSync, hdiv]
    · obtain ⟨rx, hl⟩ := Dev.ln_lmsSync (((d.sw Row.LMS_CTRL (A.LMS_CTRL g) v.toNat).set (R.LMS_STATUS.DIVERGED g) 0).onL g fun x =>
        { x with mseRun := 0 }) g
      dsimp only
      rw [hl, Dev.ln_onL_same]

end

section
/-! The transmit taps and the predistortion table of a lane (spec/03, R69, R71). -/

open Sys2Proof

namespace Sys2Proof.Machine

theorem ofS_lt (w : Nat) (i : Int) : ofS w i < 2 ^ w := by
  have hp : (0 : Int) < 2 ^ w := by positivity
  have h1 := Int.emod_nonneg i hp.ne'
  have h2 := Int.emod_lt_of_pos i hp
  rw [ofS]
  zify
  omega

theorem toS_ofS {w : Nat} {i : Int} (h1 : -(2 ^ w : Int) ≤ 2 * i) (h2 : 2 * i < 2 ^ w) : toS w (ofS w i) = i := by
  have hp : (0 : Int) < 2 ^ w := by positivity
  have hn : ((ofS w i : Nat) : Int) = i % 2 ^ w := by rw [ofS, Int.toNat_of_nonneg (Int.emod_nonneg _ hp.ne')]
  have hlt : 2 * ofS w i < 2 ^ w ↔ 2 * (i % 2 ^ w) < 2 ^ w := by rw [← hn]; norm_cast
  rw [toS, if_congr hlt rfl rfl, hn]
  by_cases hi : 0 ≤ i
  · rw [Int.emod_eq_of_lt hi (by omega), if_pos h2]
  · have hm : i % 2 ^ w = i + 2 ^ w := by
      rw [← Int.add_emod_right, Int.emod_eq_of_lt (by omega) (by omega)]
    rw [hm, if_neg (by omega)]
    omega

theorem ofS_toS {w n : Nat} (h : n < 2 ^ w) : ofS w (toS w n) = n := by
  have hn : (n : Int) % 2 ^ w = n := by exact_mod_cast congrArg Nat.cast (Nat.mod_eq_of_lt h)
  rw [ofS, toS]
  split
  · rw [hn, Int.toNat_natCast]
  · rw [Int.sub_emod_right, hn, Int.toNat_natCast]

theorem clampI_eq {lo hi : Int} (i : Int) (h : lo ≤ hi) : clampI lo hi i = max lo (min hi i) := by
  rw [clampI]
  split
  · omega
  · split <;> omega

/-! The word of the taps (R69). -/

/-- Taps that the fields of TX_FFE hold. -/
structure Taps.Fits (t : Taps) : Prop where
  pre2 : -16 ≤ t.pre2 ∧ t.pre2 < 16
  pre1 : -32 ≤ t.pre1 ∧ t.pre1 < 32
  main : 0 ≤ t.main ∧ t.main < 128
  post1 : -32 ≤ t.post1 ∧ t.post1 < 32
  post2 : -16 ≤ t.post2 ∧ t.post2 < 16

theorem tapsWord_lt (t : Taps) : tapsWord t < 2 ^ 29 := by
  have h1 := ofS_lt 5 t.pre2
  have h2 := ofS_lt 6 t.pre1
  have h3 := ofS_lt 7 t.main
  have h4 := ofS_lt 6 t.post1
  have h5 := ofS_lt 5 t.post2
  rw [tapsWord]
  omega

/-- The fields of the word of the taps. -/
theorem getBits_tapsWord (t : Taps) : getBits (tapsWord t) 28 24 = ofS 5 t.pre2 ∧ getBits (tapsWord t) 23 18 = ofS 6 t.pre1 ∧
    getBits (tapsWord t) 17 11 = ofS 7 t.main ∧ getBits (tapsWord t) 10 5 = ofS 6 t.post1 ∧ getBits (tapsWord t) 4 0 = ofS 5 t.post2 := by
  have h1 := ofS_lt 5 t.pre2
  have h2 := ofS_lt 6 t.pre1
  have h3 := ofS_lt 7 t.main
  have h4 := ofS_lt 6 t.post1
  have h5 := ofS_lt 5 t.post2
  rw [tapsWord]
  generalize ofS 5 t.pre2 = a at *
  generalize ofS 6 t.pre1 = b at *
  generalize ofS 7 t.main = c at *
  generalize ofS 6 t.post1 = e at *
  generalize ofS 5 t.post2 = f at *
  simp only [getBits]
  norm_num at *
  omega

theorem ofS_seven {i : Int} (h : 0 ≤ i ∧ i < 128) : ofS 7 i = i.toNat := by
  rw [ofS]
  norm_num
  omega

/-- The word of the taps a word holds is the word without its reserved bits. -/
theorem tapsWord_tapsOf (v : Nat) : tapsWord (tapsOf v) = getBits v 28 0 := by
  have hmain : ofS 7 ((getBits v 17 11 : Nat) : Int) = getBits v 17 11 := by
    rw [ofS_seven ⟨by positivity, by exact_mod_cast getBits_lt v 17 11⟩, Int.toNat_natCast]
  rw [tapsWord, tapsOf]
  dsimp only
  rw [ofS_toS (getBits_lt v 28 24), ofS_toS (getBits_lt v 23 18), hmain, ofS_toS (getBits_lt v 10 5), ofS_toS (getBits_lt v 4 0)]
  simp only [getBits]
  norm_num
  omega

theorem tapsOf_tapsWord {t : Taps} (h : t.Fits) : tapsOf (tapsWord t) = t := by
  obtain ⟨h1, h2, h3, h4, h5⟩ := getBits_tapsWord t
  rw [tapsOf, h1, h2, h3, h4, h5, toS_ofS (by have := h.pre2; norm_num; omega) (by have := h.pre2; norm_num; omega),
    toS_ofS (by have := h.pre1; norm_num; omega) (by have := h.pre1; norm_num; omega), ofS_seven h.main, Int.toNat_of_nonneg h.main.1,
    toS_ofS (by have := h.post1; norm_num; omega) (by have := h.post1; norm_num; omega),
    toS_ofS (by have := h.post2; norm_num; omega) (by have := h.post2; norm_num; omega)]

theorem toS_mem {w n : Nat} (h : n < 2 ^ w) : -(2 ^ w : Int) ≤ 2 * toS w n ∧ 2 * toS w n < 2 ^ w := by
  have hp : ((2 ^ w : Nat) : Int) = 2 ^ w := by norm_cast
  rw [toS]
  split <;> omega

theorem tapsOf_fits (v : Nat) : (tapsOf v).Fits := by
  have h1 := toS_mem (getBits_lt v 28 24)
  have h2 := toS_mem (getBits_lt v 23 18)
  have h3 := getBits_lt v 17 11
  have h4 := toS_mem (getBits_lt v 10 5)
  have h5 := toS_mem (getBits_lt v 4 0)
  norm_num at h1 h2 h3 h4 h5
  constructor <;> dsimp only [tapsOf] <;> omega

/-- The magnitudes of the side taps after the clamp leave at least 16 of 64. -/
theorem clampTaps_fits (t : Taps) : (clampTaps t).Fits := by
  have h1 := clampI_mem t.pre2 (lo := -8) (hi := 8) (by norm_num)
  have h2 := clampI_mem t.pre1 (lo := -16) (hi := 16) (by norm_num)
  have h4 := clampI_mem t.post1 (lo := -16) (hi := 16) (by norm_num)
  have h5 := clampI_mem t.post2 (lo := -8) (hi := 8) (by norm_num)
  rw [clampTaps]
  dsimp only [sideSum]
  generalize clampI (-8) 8 t.pre2 = a at *
  generalize clampI (-16) 16 t.pre1 = b at *
  generalize clampI (-16) 16 t.post1 = c at *
  generalize clampI (-8) 8 t.post2 = e at *
  have h3 := clampI_mem (clampI 16 64 t.main) (lo := 16) (hi := 64 - (a.natAbs + b.natAbs + c.natAbs + e.natAbs)) (by omega)
  constructor <;> dsimp only <;> omega

/-- R69: a write leaves the taps clamped, and FFE_CLAMP tells that they are not those written. -/
theorem clampTaps_eq_iff (v : Nat) : clampTaps (tapsOf v) = tapsOf v ↔ tapsWord (clampTaps (tapsOf v)) = getBits v 28 0 := by
  refine ⟨fun h => by rw [h, tapsWord_tapsOf], fun h => ?_⟩
  have ht := congrArg tapsOf (h.trans (tapsWord_tapsOf v).symm)
  rwa [tapsOf_tapsWord (clampTaps_fits _), tapsOf_tapsWord (tapsOf_fits v)] at ht

/-- The tap of MAIN after the clamp, as a number. -/
theorem clampTaps_main (t : Taps) {n : Nat} (h : t.main = n) : ((clampTaps t).main).toNat =
    max 16 (min (64 - ((clampTaps t).pre2.natAbs + (clampTaps t).pre1.natAbs + (clampTaps t).post1.natAbs + (clampTaps t).post2.natAbs)) n) := by
  have h1 := clampI_mem t.pre2 (lo := -8) (hi := 8) (by norm_num)
  have h2 := clampI_mem t.pre1 (lo := -16) (hi := 16) (by norm_num)
  have h4 := clampI_mem t.post1 (lo := -16) (hi := 16) (by norm_num)
  have h5 := clampI_mem t.post2 (lo := -8) (hi := 8) (by norm_num)
  rw [clampTaps]
  dsimp only [sideSum]
  generalize clampI (-8) 8 t.pre2 = a at *
  generalize clampI (-16) 16 t.pre1 = b at *
  generalize clampI (-16) 16 t.post1 = c at *
  generalize clampI (-8) 8 t.post2 = e at *
  rw [clampI_eq _ (by omega), clampI_eq _ (by norm_num), h]
  omega

theorem tidy_PD_CTRL : Row.PD_CTRL.tidy := by decide

/-- The register after a write to TX_FFE. -/
theorem Dev.reg_txFfe (d : Dev) (g v : Nat) : (d.txFfe g v).reg (A.TX_FFE g) = tapsWord (clampTaps (tapsOf v)) := by
  have hw : (d.setReg (A.TX_FFE g) (tapsWord (clampTaps (tapsOf v)))).reg (A.TX_FFE g) = tapsWord (clampTaps (tapsOf v)) := by
    rw [Dev.reg_setReg_same, Nat.mod_eq_of_lt (Nat.lt_trans (tapsWord_lt _) (by norm_num))]
  unfold Dev.txFfe
  dsimp only
  split
  · exact hw
  · rw [Dev.reg_set_ne (a := A.TX_FFE g) _ (R.TX_STATUS.FFE_CLAMP g) _ (ne_of_offset rfl rfl rfl), hw]

end Sys2Proof.Machine

open Sys2Proof.Machine

/-- Settles O20. -/
theorem transmitTaps : Obligations.TransmitTaps := by
  intro g src page i v s d n entry
  refine ⟨fun hb => ?_, fun hb => ?_, fun hb => ?_⟩
  · have h := makes_of_gate (c := .txFfeWrite src g v) rfl hb
    obtain ⟨h1, h2, h3, h4, h5⟩ := getBits_tapsWord (clampTaps (tapsOf v.toNat))
    have hreg := Dev.reg_txFfe s.dev g v.toNat
    have hfit := clampTaps_fits (tapsOf v.toNat)
    have hget : ∀ f : Fld, f.addr = A.TX_FFE g → (s.dev.txFfe g v.toNat).get f = getBits (tapsWord (clampTaps (tapsOf v.toNat))) f.hi f.lo :=
      fun f hf => by rw [Dev.get, hf, hreg]
    have hI : ∀ f : Fld, ∀ i : Int, f.addr = A.TX_FFE g → getBits (tapsWord (clampTaps (tapsOf v.toNat))) f.hi f.lo = ofS f.width i →
        -(2 ^ f.width : Int) ≤ 2 * i → 2 * i < 2 ^ f.width → (s.dev.txFfe g v.toNat).getI f = i := fun f i hf hv hlo hhi => by
      rw [Dev.getI, hget f hf, hv, toS_ofS hlo hhi]
    refine h.gives ?_
    intro lim side u
    have hpre2 : lim 5 28 24 8 = (clampTaps (tapsOf v.toNat)).pre2 := (clampI_eq _ (by norm_num)).symm
    have hpre1 : lim 6 23 18 16 = (clampTaps (tapsOf v.toNat)).pre1 := (clampI_eq _ (by norm_num)).symm
    have hpost1 : lim 6 10 5 16 = (clampTaps (tapsOf v.toNat)).post1 := (clampI_eq _ (by norm_num)).symm
    have hpost2 : lim 5 4 0 8 = (clampTaps (tapsOf v.toNat)).post2 := (clampI_eq _ (by norm_num)).symm
    refine ⟨?_, ?_, ?_, ?_, ?_, ?_, ?_⟩
    · rw [hpre2]
      exact hI _ _ rfl h1 (by have := hfit.pre2; norm_num [R.TX_FFE.PRE2, Fld.width]; omega) (by have := hfit.pre2; norm_num [R.TX_FFE.PRE2, Fld.width]; omega)
    · rw [hpre1]
      exact hI _ _ rfl h2 (by have := hfit.pre1; norm_num [R.TX_FFE.PRE1, Fld.width]; omega) (by have := hfit.pre1; norm_num [R.TX_FFE.PRE1, Fld.width]; omega)
    · have hm := clampTaps_main (tapsOf v.toNat) (n := getBits v.toNat 17 11) rfl
      have hw : (s.dev.txFfe g v.toNat).get (R.TX_FFE.MAIN g) = ofS 7 (clampTaps (tapsOf v.toNat)).main := (hget _ rfl).trans h3
      rw [ofS_seven hfit.main, hm, ← hpre2, ← hpre1, ← hpost1, ← hpost2] at hw
      exact hw
    · rw [hpost1]
      exact hI _ _ rfl h4 (by have := hfit.post1; norm_num [R.TX_FFE.POST1, Fld.width]; omega) (by have := hfit.post1; norm_num [R.TX_FFE.POST1, Fld.width]; omega)
    · rw [hpost2]
      exact hI _ _ rfl h5 (by have := hfit.post2; norm_num [R.TX_FFE.POST2, Fld.width]; omega) (by have := hfit.post2; norm_num [R.TX_FFE.POST2, Fld.width]; omega)
    · rw [show u.reg (A.TX_FFE g) = _ from hreg, show getBits n 28 0 = getBits v.toNat 28 0 from rfl]
      have hbits : getBits (tapsWord (clampTaps (tapsOf v.toNat))) 28 0 = tapsWord (clampTaps (tapsOf v.toNat)) := by
        rw [getBits, Nat.pow_zero, Nat.div_one, Nat.mod_eq_of_lt (tapsWord_lt _)]
      rw [hbits, Ne, ← clampTaps_eq_iff]
      have hset : (s.dev.setReg (A.TX_FFE g) (tapsWord (clampTaps (tapsOf v.toNat)))).on (R.TX_STATUS.FFE_CLAMP g) = d.on (R.TX_STATUS.FFE_CLAMP g) := by
        rw [Dev.on, Dev.get_setReg_ne (a := A.TX_FFE g) _ _ _ (ne_of_offset rfl rfl rfl)]; rfl
      show (s.dev.txFfe g v.toNat).on _ = true ↔ _
      unfold Dev.txFfe
      dsimp only
      split
      · rename_i hc
        rw [hset]
        exact ⟨.inl, fun ho => ho.resolve_right (not_not.2 hc)⟩
      · rename_i hc
        rw [Dev.on_set_same _ _ _ (Fld.ok_of_ble rfl)]
        exact ⟨fun _ => .inr hc, fun _ => rfl⟩
    · show RegsOnly d (s.dev.txFfe g v.toNat) _
      unfold Dev.txFfe
      dsimp only
      exact .ite (fun _ => .setReg (.refl _ _) 0 rfl) fun _ => .set (.setReg (.refl _ _) 0 rfl) 1 rfl
  · have h := makes_of_gate (c := .pdPageSelect src g v) rfl hb
    have hpage : (d.sw Row.PD_CTRL (A.PD_CTRL g) n).get (R.PD_CTRL.PAGE g) = getBits n 0 0 :=
      Dev.get_sw_any d tidy_PD_CTRL (f := R.PD_CTRL.PAGE g) 1 rfl n
    have hen : (d.sw Row.PD_CTRL (A.PD_CTRL g) n).get (R.PD_CTRL.EN g) = getBits n 1 1 :=
      Dev.get_sw_any d tidy_PD_CTRL (f := R.PD_CTRL.EN g) 0 rfl n
    unfold Dev.pdCtrl at h
    refine h.gives ⟨?_, ?_, ?_, RegsOnly.set (.sw (.refl _ _) 0 rfl) 1 rfl⟩
    · dsimp only
      rw [Dev.on_set_apart _ _ _ _ (Fld.ok_of_ble rfl) (.inl (ne_of_offset rfl rfl rfl)), Dev.on, hpage, getBits_ne_zero]
    · dsimp only
      rw [Dev.on_set_apart _ _ _ _ (Fld.ok_of_ble rfl) (.inl (ne_of_offset rfl rfl rfl)), Dev.on, hen, getBits_ne_zero]
    · dsimp only
      rw [Dev.on, Dev.get_set_same _ _ _ (Fld.ok_of_ble rfl), hpage, show (R.TX_STATUS.PD_PAGE g).width = 0 + 1 - 0 from rfl, Nat.mod_eq_of_lt (getBits_lt n 0 0), getBits_ne_zero]
  · have hexec : exec (.pdEntryWrite src g page i v) s = s.on fun d => d.gate src entry.addr fun d => d.pdEntry g page i v.toNat := by
      cases page <;> rfl
    have h := makes_of_gate hexec hb
    have hok : entry.ok := by cases page <;> exact Fld.ok_of_ble rfl
    have hw : entry.width = 8 := by cases page <;> rfl
    have hap : (R.TX_STATUS.PD_WR_IGN g).apart entry := by
      refine .inl ?_
      cases page <;> simp only [entry, R.TX_STATUS.PD_WR_IGN, R.PD_P0.CORR, R.PD_P1.CORR, A.PD_P0, A.PD_P1, A.TX_STATUS, if_true, if_false, Bool.false_eq_true] <;> omega
    unfold Dev.pdEntry at h
    split
    · rename_i hp
      rw [if_pos hp] at h
      refine h.gives ⟨?_, ?_, RegsOnly.set (.refl _ _) 0 rfl⟩
      · dsimp only
        rw [Dev.get_set_apart _ _ (Fld.ok_of_ble rfl) hap]
      · dsimp only
        rw [Dev.on_set_same _ _ _ (Fld.ok_of_ble rfl)]; rfl
    · rename_i hp
      rw [if_neg hp] at h
      refine h.gives ⟨?_, RegsOnly.set (.refl _ _) 0 rfl⟩
      dsimp only
      rw [Dev.get_set_same _ _ _ hok, hw]; rfl

end

section
/-! Requests of the engines as their targets take them up (spec/07, R215 to R219). -/

open Sys2Proof

namespace Sys2Proof.Machine

/-- An element that turns from one kind to another is the first of the other kind where none was. -/
theorem find?_modifyFirst {α : Type} {p q : α → Bool} {f : α → α} {l : List α} {a : α} (hp : l.find? p = some a) (hq : l.find? q = none)
    (hf : q (f a) = true) : (modifyFirst p f l).find? q = some (f a) := by
  induction l with
  | nil => simp at hp
  | cons b t ih =>
    have hb : q b = false := by
      have := List.find?_eq_none.1 hq b (.head _)
      simpa using this
    have hq' : t.find? q = none := by rwa [List.find?_cons_of_neg (by simp [hb])] at hq
    rw [modifyFirst]
    by_cases hpb : p b = true
    · rw [List.find?_cons_of_pos hpb, Option.some.injEq] at hp
      rw [if_pos hpb, hp, List.find?_cons_of_pos hf]
    · rw [List.find?_cons_of_neg hpb] at hp
      rw [if_neg hpb, List.find?_cons_of_neg (by simp [hb]), ih hp hq']

theorem Dev.e_onReq_same (d : Dev) (e ch cmd : Nat) (ph : Phase) (f : Req → Req) : (d.onReq e ch cmd ph f).e e =
    { d.e e with reqs := modifyFirst (fun r => r.chan == ch && r.cmd == cmd && r.phase == ph) f (d.e e).reqs } := Dev.e_onE_same d e _

/-- R215: a request taken up is the first one so. -/
theorem Dev.req_taken {d : Dev} {e ch cmd : Nat} {r : Req} (h : d.req e ch cmd .sent = some r) (hn : d.req e ch cmd .taken = none) :
    (d.onReq e ch cmd .sent fun r => { r with phase := .taken }).req e ch cmd .taken = some { r with phase := .taken } := by
  have hr := List.find?_some h
  rw [Dev.req, Dev.e_onReq_same]
  refine find?_modifyFirst h hn ?_
  simp only [Bool.and_eq_true] at hr ⊢
  exact ⟨hr.1, rfl⟩

theorem Dev.answered_answer {d x : Dev} {e : Nat} (he : (x.e e).reqs = (d.e e).reqs) (ch cmd : Nat) (ph : Phase) (st v : Nat) :
    Answered d (x.answer e ch cmd ph st v) e ch cmd ph st v := by
  rw [Answered, Dev.answer, Dev.e_onReq_same, he]
  rfl

/-- A request served at once. -/
theorem serves_of_reply {c : Instr} {s : State} {e ch cmd op st v : Nat} {f : Nat → Dev → Dev × Option (Nat × Nat)} {p : Dev → Prop} {x : Dev}
    (hc : exec c s = s.on fun d => d.serve e ch cmd f) (hf : f op s.dev = (x, some (st, v))) (he : (x.e e).reqs = (s.dev.e e).reqs)
    (hp : p (x.answer e ch cmd .sent st v)) : Serves c s e ch cmd op st v p := by
  rintro ⟨r, hr, hn, rfl⟩
  rw [State.on, Dev.serve_of_reply hr hn f hf] at hc
  exact ⟨_, hc, rfl, Dev.answered_answer he ch cmd .sent st v, hp⟩

/-- A request taken up. -/
theorem makes_of_taken {c : Instr} {s : State} {e ch cmd op : Nat} {f : Nat → Dev → Dev × Option (Nat × Nat)} {x : Dev}
    (hc : exec c s = s.on fun d => d.serve e ch cmd f) (ha : s.dev.Asks e ch cmd op) (hf : f op s.dev = (x, none)) :
    Makes c s (x.onReq e ch cmd .sent fun r => { r with phase := .taken }) := by
  obtain ⟨r, hr, hn, rfl⟩ := ha
  rwa [State.on, Dev.serve_of_taken hr hn f hf] at hc

end Sys2Proof.Machine
end


section
/-! The commands of the photonic loops (spec/08, R231, R246, R251). -/

open Sys2Proof

namespace Sys2Proof.Machine

/-- A bit set is an or with its power of two. -/
theorem putBit_true (v i : Nat) : putBit v i true = v ||| 2 ^ i := by
  refine Nat.eq_of_testBit_eq fun j => ?_
  rw [putBit, testBit_putBits _ _ _ _ _ (Nat.le_refl i), Nat.testBit_or, Nat.testBit_two_pow]
  by_cases h : i = j
  · subst h
    simp
  · have hj : ¬ (i ≤ j ∧ j ≤ i) := by omega
    simp [h, hj]

theorem weirChan_eq {e : EngId} {o : Oct} (h : e.val = 56 + o ∨ 88 ≤ e.val) : ¬ (roleOf e = .keeper ∧ e.val ≠ keeperOf o) := by
  rintro ⟨hk, hne⟩
  unfold keeperOf at hne
  have := roleOf_cases e
  rw [hk] at this
  simp at this
  omega

/-- R251: a request of an engine that may ask waits for the tick. -/
theorem Dev.weirReq_eq (d : Dev) {e : EngId} {o : Oct} (h : e.val = 56 + o ∨ 88 ≤ e.val) (k : Nat) :
    d.weirReq e o k = d.serve e (weirChan e o) k fun op d => (d.latch o (.req e (weirChan e o) k op), none) :=
  if_neg (weirChan_eq h)

/-- What a request taken up leaves. -/
theorem gives_weirReq {c : Instr} {s : State} {e : EngId} {o : Oct} {k op : Nat} (hc : exec c s = s.on fun d => d.weirReq e o k)
    (h : e.val = 56 + o ∨ 88 ≤ e.val) (ha : s.dev.Asks e (weirChan e o) k op) (hn : s.dev.req e (weirChan e o) k .taken = none) :
    Gives c s fun t => (t.dev.w o).ops = (s.dev.w o).ops ++ [.req e (weirChan e o) k op] ∧
      (∃ r, t.dev.req e (weirChan e o) k .taken = some r ∧ r.op.toNat = op) ∧ t.dev.regs = s.dev.regs ∧ t.dev.loop = s.dev.loop := by
  have hc' : exec c s = s.on fun d => d.serve e (weirChan e o) k fun op d => (d.latch o (.req e (weirChan e o) k op), none) := by
    rw [hc]
    exact congrArg s.on (funext fun d => d.weirReq_eq h k)
  have hm := makes_of_taken hc' ha rfl
  obtain ⟨r, hr, -, hop⟩ := ha
  refine hm.gives ⟨?_, ⟨_, Dev.req_taken (d := s.dev.latch o (.req e (weirChan e o) k op)) hr hn, hop⟩, rfl, rfl⟩
  have hw := congrArg WeirSt.ops (Dev.w_onW_same s.dev o fun w => { w with ops := w.ops ++ [.req e (weirChan e o) k op] })
  exact hw

theorem ofNat_ofS (w : Nat) (i : Int) : BitVec.ofNat w (ofS w i) = BitVec.ofInt w i := by
  refine BitVec.eq_of_toNat_eq ?_
  rw [BitVec.toNat_ofNat, Nat.mod_eq_of_lt (ofS_lt w i), BitVec.toNat_ofInt, ofS]
  norm_cast

theorem Dev.w_set (d : Dev) (f : Fld) (v o : Nat) : (d.set f v).w o = d.w o := rfl

theorem Dev.rcRead_eq (d : Dev) (o : Nat) : d.rcRead o =
    (ofS 32 (d.rcWord o (d.get (R.RC_ADDR.ADDR o))), d.set (R.RC_ADDR.ADDR o) (d.get (R.RC_ADDR.ADDR o) + 1)) := rfl

theorem Dev.rcDataWrite_eq (d : Dev) (o v : Nat) : d.rcDataWrite o v =
    (d.latch o (.mem (d.get (R.RC_ADDR.ADDR o)) v)).set (R.RC_ADDR.ADDR o) (d.get (R.RC_ADDR.ADDR o) + 1) := rfl

theorem Dev.rcAddr_set (d : Dev) (o v : Nat) : (d.set (R.RC_ADDR.ADDR o) v).get (R.RC_ADDR.ADDR o) = v % 32768 := by
  rw [Dev.get_set_same _ _ _ (Fld.ok_of_ble rfl)]
  norm_num [R.RC_ADDR.ADDR, Fld.width]

/-- A read answers its source alone. -/
theorem RegsOnly.respond {d d' : Dev} {l : List Nat} (h : RegsOnly d d' l) (src : Src) (v : Nat) :
    RegsOnly { d with reads := (d'.respond src v).reads } (d'.respond src v) l := by
  obtain ⟨r, rfl⟩ := h.frame
  exact ⟨rfl, h.2⟩

end Sys2Proof.Machine

open Sys2Proof.Machine

/-- Settles O35. -/
theorem loopCommands : Obligations.LoopCommands := by
  intro src e o j v op s d w a Waits Asked
  have hwait : ∀ {c : Instr} {addr off x : Nat}, (exec c s = s.on fun d => d.gate src addr fun d => d.weirLatch o off x) → Waits c addr off x :=
    fun hc hb => makes_of_gate hc hb
  have hasked : ∀ {c : Instr} {k : Nat}, (exec c s = s.on fun d => d.weirReq e o k) → Asked c k := fun hc h ha hn => gives_weirReq hc h ha hn
  have hdw : putBit v.toNat 19 true = (v ||| 0x80000#32).toNat := by rw [putBit_true, BitVec.toNat_or]; rfl
  refine ⟨hwait rfl, hwait rfl, ?_, hwait rfl, hwait rfl, hwait rfl, fun hb => ⟨?_, ?_⟩, hasked rfl, hasked rfl, hasked rfl, hasked rfl, hasked rfl⟩
  · rw [← hdw]
    exact hwait rfl
  · have h : Makes (.rcDataRead src o) s (s.dev.gateRead src (A.RC_DATA o) fun d => d.rcRead o) :=
      makes_of_on (f := fun d => d.gateRead src (A.RC_DATA o) fun d => d.rcRead o) rfl
    rw [Dev.gateRead_of_open hb] at h
    rw [Dev.rcRead_eq] at h
    refine h.gives ⟨?_, ?_, RegsOnly.respond (.set (.refl _ _) 0 rfl) src _⟩
    · have hmod : a % 32768 = a := Nat.mod_eq_of_lt (d.get_lt _)
      dsimp only [Dev.respond]
      rw [Tbl.get_set_same, Dev.rcWord, show s.dev.get (R.RC_ADDR.ADDR o) = a from rfl, hmod]
      exact ofNat_ofS 32 _
    · dsimp only
      rw [Dev.get_respond]
      exact Dev.rcAddr_set ..
  · have h := makes_of_gate (c := .rcDataWrite src o v) rfl hb
    have hw := Dev.w_onW_same s.dev o fun w => { w with ops := w.ops ++ [.mem a v.toNat] }
    rw [Dev.rcDataWrite_eq] at h
    refine h.gives ⟨?_, ?_, ?_, ?_⟩
    · dsimp only
      rw [Dev.w_set]
      exact congrArg WeirSt.ops hw
    · dsimp only
      rw [Dev.w_set]
      have hmem := congrArg WeirSt.mem hw
      exact hmem
    · dsimp only
      exact Dev.rcAddr_set ..
    · dsimp only
      rw [Dev.weir_set]
      exact RegsOnly.set (.refl _ _) 0 rfl

end

section
/-! What the fabric's work on flows and cells leaves alone: every record but its own and the stores, and every register of the octets (spec/06). -/

open Sys2Proof

namespace Sys2Proof.Machine

/-- From d to d' nothing changes but the fabric, the protected stores, the event counters, the free values drawn, the summary of
device events, and registers between the BIST block and the octet blocks of R14. -/
def FabStep (d d' : Dev) : Prop :=
  (∃ regs fab dram flowS cellS locS sharedS ctr freeCtr, d' = { d with regs, fab, dram, flowS, cellS, locS, sharedS, ctr, freeCtr }) ∧
    ∀ a, a ≠ 0x33400 ∧ a < 0x80000 ∨ 0x1000000 ≤ a → d'.reg a = d.reg a

namespace FabStep
variable {d d' : Dev}

theorem refl (d : Dev) : FabStep d d := ⟨⟨_, _, _, _, _, _, _, _, _, rfl⟩, fun _ _ => rfl⟩

theorem trans {e : Dev} (h : FabStep d d') (h' : FabStep d' e) : FabStep d e := by
  obtain ⟨⟨r, f, s1, s2, s3, s4, s5, c, n, rfl⟩, hr⟩ := h
  obtain ⟨⟨r', f', t1, t2, t3, t4, t5, c', n', rfl⟩, hr'⟩ := h'
  exact ⟨⟨_, _, _, _, _, _, _, _, _, rfl⟩, fun a ha => (hr' a ha).trans (hr a ha)⟩

/-- A change of the fabric, the stores and the counters alone. -/
theorem of_regs (h : ∃ fab dram flowS cellS locS sharedS ctr freeCtr, d' = { d with fab, dram, flowS, cellS, locS, sharedS, ctr, freeCtr }) : FabStep d d' := by
  obtain ⟨_, _, _, _, _, _, _, _, rfl⟩ := h
  exact ⟨⟨_, _, _, _, _, _, _, _, _, rfl⟩, fun _ _ => rfl⟩

theorem reg (h : FabStep d d') {a : Nat} (ha : a ≠ 0x33400 ∧ a < 0x80000 ∨ 0x1000000 ≤ a) : d'.reg a = d.reg a := h.2 a ha

theorem get (h : FabStep d d') {f : Fld} (ha : f.addr ≠ 0x33400 ∧ f.addr < 0x80000 ∨ 0x1000000 ≤ f.addr) : d'.get f = d.get f := by rw [Dev.get, h.reg ha, Dev.get]

theorem on (h : FabStep d d') {f : Fld} (ha : f.addr ≠ 0x33400 ∧ f.addr < 0x80000 ∨ 0x1000000 ≤ f.addr) : d'.on f = d.on f := by rw [Dev.on, h.get ha, Dev.on]

theorem e (h : FabStep d d') (k : Nat) : d'.e k = d.e k := by obtain ⟨⟨_, _, _, _, _, _, _, _, _, rfl⟩, -⟩ := h; rfl
theorem ln (h : FabStep d d') (k : Nat) : d'.ln k = d.ln k := by obtain ⟨⟨_, _, _, _, _, _, _, _, _, rfl⟩, -⟩ := h; rfl
theorem oc (h : FabStep d d') (k : Nat) : d'.oc k = d.oc k := by obtain ⟨⟨_, _, _, _, _, _, _, _, _, rfl⟩, -⟩ := h; rfl
theorem pt (h : FabStep d d') (k p : Nat) : d'.pt k p = d.pt k p := by obtain ⟨⟨_, _, _, _, _, _, _, _, _, rfl⟩, -⟩ := h; rfl
theorem holders (h : FabStep d d') : d'.holders = d.holders := by obtain ⟨⟨_, _, _, _, _, _, _, _, _, rfl⟩, -⟩ := h; rfl
theorem eng (h : FabStep d d') : d'.eng = d.eng := by obtain ⟨⟨_, _, _, _, _, _, _, _, _, rfl⟩, -⟩ := h; rfl

theorem foldl {α : Type} {f : Dev → α → Dev} (hf : ∀ x a, FabStep x (f x a)) (l : List α) (d : Dev) : FabStep d (l.foldl f d) := by
  induction l generalizing d with
  | nil => exact refl d
  | cons a l ih => exact (hf d a).trans (ih _)

theorem setReg (h : FabStep d d') {a v : Nat} (ha : a = 0x33400 ∨ 0x80000 ≤ a ∧ a < 0x1000000) : FabStep d (d'.setReg a v) :=
  h.trans ⟨⟨_, _, _, _, _, _, _, _, _, rfl⟩, fun b hb => Dev.reg_setReg_ne d' v (by omega)⟩

theorem set (h : FabStep d d') {f : Fld} {v : Nat} (ha : f.addr = 0x33400 ∨ 0x80000 ≤ f.addr ∧ f.addr < 0x1000000) : FabStep d (d'.set f v) := h.setReg ha

theorem inc (h : FabStep d d') {f : Fld} {n : Nat} (ha : f.addr = 0x33400 ∨ 0x80000 ≤ f.addr ∧ f.addr < 0x1000000) : FabStep d (d'.inc f n) := h.set ha

theorem orF (h : FabStep d d') {f : Fld} {m : Nat} (ha : f.addr = 0x33400 ∨ 0x80000 ≤ f.addr ∧ f.addr < 0x1000000) : FabStep d (d'.orF f m) := h.set ha

theorem bump (h : FabStep d d') {n k : Nat} : FabStep d (d'.bump n k) := h.trans (of_regs ⟨_, _, _, _, _, _, _, _, rfl⟩)

theorem onF (h : FabStep d d') {f : FabSt → FabSt} : FabStep d (d'.onF f) := h.trans (of_regs ⟨_, _, _, _, _, _, _, _, rfl⟩)

theorem setStore (h : FabStep d d') {sp : Space} {s : Store} : FabStep d (d'.setStore sp s) :=
  h.trans (of_regs (by cases sp <;> exact ⟨_, _, _, _, _, _, _, _, rfl⟩))

theorem putWord (h : FabStep d d') {sp : Space} {c e i v : Nat} : FabStep d (d'.putWord sp c e i v) := h.setStore

theorem ite {c : Prop} [Decidable c] {x y : Dev} (hx : FabStep d x) (hy : FabStep d y) : FabStep d (if c then x else y) := by
  split
  · exact hx
  · exact hy

theorem memEvt (h : FabStep d d') {m : Nat} : FabStep d (d'.memEvt m) := h.orF (.inr ⟨Nat.le_of_ble_eq_true rfl, Nat.le_of_ble_eq_true rfl⟩)

theorem setLink (h : FabStep d d') {c v : Nat} : FabStep d (d'.setLink c v) := h.onF

theorem onN (h : FabStep d d') {l i : Nat} {f : Node → Node} : FabStep d (d'.onN l i f) := h.onF

theorem dropFrame (h : FabStep d d') {cause : Nat} {port : Option Nat} (hc : cause ≤ 256) : FabStep d (d'.dropFrame cause port) := by
  have h1 : FabStep d ((d'.inc (R.DROP.COUNT (cause - 1))).bump (Ctr.drop cause)) := (h.inc (by
    show 0x108004 + (cause - 1) * 4 = _ ∨ _ ≤ 0x108004 + (cause - 1) * 4 ∧ 0x108004 + (cause - 1) * 4 < _
    omega)).bump
  unfold Dev.dropFrame
  cases port with
  | none => exact h1
  | some p => exact h1.bump

theorem syncPool (h : FabStep d d') : FabStep d d'.syncPool := h.set (.inr ⟨Nat.le_of_ble_eq_true rfl, Nat.le_of_ble_eq_true rfl⟩)

theorem freeCell (h : FabStep d d') {c : Nat} : FabStep d (d'.freeCell c) := by
  unfold Dev.freeCell
  refine ite h (syncPool (ite ?_ (set ?_ ?_)))
  · exact (h.onF).set (.inr ⟨Nat.le_of_ble_eq_true rfl, Nat.le_of_ble_eq_true rfl⟩)
  · exact (h.onF).set (.inr ⟨Nat.le_of_ble_eq_true rfl, Nat.le_of_ble_eq_true rfl⟩)
  · generalize Tbl.get 0 d'.fab.cls c - 1 = k
    unfold bermUse
    split <;> exact .inr ⟨Nat.le_of_ble_eq_true rfl, Nat.le_of_ble_eq_true rfl⟩

theorem freeCells (h : FabStep d d') {l : List Nat} : FabStep d (d'.freeCells l) := h.trans (foldl (fun x _ => (refl x).freeCell) l d')

theorem countEcc (h : FabStep d d') {sp : Space} {c e i : Nat} {r : Reading} (hc : c ≤ 64) (he : e ≤ 64) : FabStep d (d'.countEcc sp c e i r) := by
  have hs : sp.code ≤ 4 := by cases sp <;> decide
  have hlog : ∀ {x : Dev} (a b : Nat), FabStep d x → FabStep d ((x.setReg (A.ECC_LAST_LO sp.code) a).setReg (A.ECC_LAST_HI sp.code) b) :=
    fun a b hx => (hx.setReg (by show 0x8020C + sp.code * 32 = _ ∨ _ ≤ 0x8020C + sp.code * 32 ∧ 0x8020C + sp.code * 32 < _; omega)).setReg (by show 0x80210 + sp.code * 32 = _ ∨ _ ≤ 0x80210 + sp.code * 32 ∧ 0x80210 + sp.code * 32 < _; omega)
  have hce : FabStep d (d'.inc (R.ECC_CE.COUNT sp.code)) := h.inc (by show 0x80200 + sp.code * 32 = _ ∨ _ ≤ 0x80200 + sp.code * 32 ∧ 0x80200 + sp.code * 32 < _; omega)
  have hue : FabStep d (d'.inc (R.ECC_UE.COUNT sp.code)) := h.inc (by show 0x80204 + sp.code * 32 = _ ∨ _ ≤ 0x80204 + sp.code * 32 ∧ 0x80204 + sp.code * 32 < _; omega)
  have hloc : ∀ {x : Dev}, FabStep d x → FabStep d (x.inc (R.E_ECC.CE c e)) ∧ FabStep d (x.inc (R.E_ECC.UE c e)) := fun hx =>
    ⟨hx.inc (by show 0x20010C + c * 65536 + e * 32 = _ ∨ _ ≤ 0x20010C + c * 65536 + e * 32 ∧ 0x20010C + c * 65536 + e * 32 < _; omega), hx.inc (by show 0x20010C + c * 65536 + e * 32 = _ ∨ _ ≤ 0x20010C + c * 65536 + e * 32 ∧ 0x20010C + c * 65536 + e * 32 < _; omega)⟩
  have hsh : ∀ {x : Dev}, FabStep d x → FabStep d (x.inc (R.CL_SH_ECC.CE c)) ∧ FabStep d (x.inc (R.CL_SH_ECC.UE c)) := fun hx =>
    ⟨hx.inc (by show 0x200008 + c * 65536 = _ ∨ _ ≤ 0x200008 + c * 65536 ∧ 0x200008 + c * 65536 < _; omega), hx.inc (by show 0x200008 + c * 65536 = _ ∨ _ ≤ 0x200008 + c * 65536 ∧ 0x200008 + c * 65536 < _; omega)⟩
  unfold Dev.countEcc
  dsimp only
  cases r with
  | clean => exact h
  | single =>
    have hm : ∀ {p : Prop} [Decidable p] {x : Dev}, FabStep d x → FabStep d (if p then x.memEvt 4 else x) := fun hx => ite hx.memEvt hx
    cases sp
    case loc => exact (hloc (hm (hlog _ _ hce).bump)).1
    case shared => exact (hsh (hm (hlog _ _ hce).bump)).1
    all_goals exact hm (hlog _ _ hce).bump
  | uncorrectable =>
    cases sp
    case loc => exact (hloc (hlog _ _ hue).bump.memEvt).2
    case shared => exact (hsh (hlog _ _ hue).bump.memEvt).2.bump
    all_goals exact (hlog _ _ hue).bump.memEvt
  | poisoned => exact (h.inc (by show 0x80208 + sp.code * 32 = _ ∨ _ ≤ 0x80208 + sp.code * 32 ∧ 0x80208 + sp.code * 32 < _; omega)).bump.memEvt

theorem readWord (h : FabStep d d') {sp : Space} {i : Nat} : FabStep d (d'.readWord sp 0 0 i).2.2 := h.countEcc (by norm_num) (by norm_num)

theorem putCtx (h : FabStep d d') {f : Nat} {x y : Ctx} : FabStep d (d'.putCtx f x y) :=
  h.trans (onF (foldl (fun e _ => ite (refl e) (refl e).putWord) _ _))

theorem leaveParent (h : FabStep d d') {l i : Nat} : FabStep d (d'.leaveParent l i) := by
  unfold Dev.leaveParent
  exact h.onN

theorem dropList (h : FabStep d d') {l : List Nat} {cause port : Nat} (hc : cause ≤ 256) : FabStep d (d'.dropList l cause port) :=
  h.trans (freeCells (foldl (fun x _ => (refl x).dropFrame hc) _ _))

theorem listParity (h : FabStep d d') {b : Bool} : FabStep d (d'.listParity b) :=
  ((h.inc (by cases b <;> exact .inr ⟨Nat.le_of_ble_eq_true rfl, Nat.le_of_ble_eq_true rfl⟩)).memEvt.bump).orF (.inl rfl)

theorem dropOnchip (h : FabStep d d') {f : Nat} {x : Ctx} {cause : Nat} {bad : Option (Nat × Bool)} (hc : cause ≤ 256) :
    FabStep d (d'.dropOnchip f x cause bad).1 := by
  unfold Dev.dropOnchip
  dsimp only
  dsimp only [Dev.cutRx, Dev.killRx, Dev.unstage]
  refine onF (onF ?_)
  split
  · exact (h.dropList hc).listParity
  · exact h.dropList hc

theorem emptyRegion (h : FabStep d d') : FabStep d d'.emptyRegion := ite ((h.onF).set (.inr ⟨Nat.le_of_ble_eq_true rfl, Nat.le_of_ble_eq_true rfl⟩)) h

theorem discardFrom (h : FabStep d d') {x : Ctx} {k : Nat} : FabStep d (d'.discardFrom x k).1 := by
  unfold Dev.discardFrom
  dsimp only
  split
  · exact h
  · have hd : ∀ n v, FabStep d ((((d'.inc R.SPILL_LOST.COUNT n).bump 7188 n).memEvt 128).set R.SPILL_STATUS.CELLS v).emptyRegion :=
      fun n v => emptyRegion (((h.inc (.inr ⟨Nat.le_of_ble_eq_true rfl, Nat.le_of_ble_eq_true rfl⟩)).bump.memEvt).set (.inr ⟨Nat.le_of_ble_eq_true rfl, Nat.le_of_ble_eq_true rfl⟩))
    split
    · exact (hd _ _).freeCells
    · exact hd _ _

theorem clearFlow (h : FabStep d d') {f : Nat} : FabStep d (d'.clearFlow f) := by
  have h1 : FabStep d (((List.range 8).foldl (fun d w => d.putWord .flow 0 0 (8 * f + w) 0) d').onF fun x => x.request f false) :=
    h.trans (onF (foldl (fun e _ => (refl e).putWord) _ _))
  unfold Dev.clearFlow
  dsimp only
  split
  · exact ((h1.leaveParent.onN).set (.inr ⟨Nat.le_of_ble_eq_true rfl, Nat.le_of_ble_eq_true rfl⟩)).bump
  · exact h1

theorem retire (h : FabStep d d') {f w : Nat} {x : Ctx} : FabStep d (d'.retire f w x) := by
  have h1 : FabStep d (if (d'.node 3 f).valid then ((d'.dropOnchip f x dcREMOVE_FLUSH).1.discardTail (d'.dropOnchip f x dcREMOVE_FLUSH).2).1 else d') :=
    ite (discardFrom (h.dropOnchip (by decide))) h
  exact ((h1.setReg (.inr ⟨Nat.le_of_ble_eq_true rfl, Nat.le_of_ble_eq_true rfl⟩)).setReg (.inr ⟨Nat.le_of_ble_eq_true rfl, Nat.le_of_ble_eq_true rfl⟩)).clearFlow

theorem ctxWords (h : FabStep d d') {f w n : Nat} : FabStep d (d'.ctxWords f w n).2 := by
  induction n generalizing d' w with
  | zero => exact h
  | succ n ih =>
    have hr : FabStep d (d'.readWord .flow 0 0 (8 * f + w)).2.2 := h.readWord
    unfold Dev.ctxWords
    dsimp only
    split
    · exact ih (putWord ((hr.setReg (.inr ⟨Nat.le_of_ble_eq_true rfl, Nat.le_of_ble_eq_true rfl⟩)).setReg (.inr ⟨Nat.le_of_ble_eq_true rfl, Nat.le_of_ble_eq_true rfl⟩)))
    · split
      · exact hr.retire
      · exact ih hr

theorem ctx (h : FabStep d d') {f : Nat} : FabStep d (d'.ctx f).2 := by
  unfold Dev.ctx
  exact h.ctxWords

theorem ctFail (h : FabStep d d') {port : Nat} {r : RxFr} {cause : Nat} (hc : cause ≤ 256) : FabStep d (d'.ctFail port r cause) := by
  unfold Dev.ctFail
  dsimp only
  refine ite h.onF (ite (onF (setLink h.onF)) ?_)
  have hx := (h.onF (f := fun s => { s with rx := Tbl.set none s.rx port none })).ctx (f := r.flow)
  split
  · next d1 he =>
    rw [he] at hx
    exact (dropFrame hx hc).freeCells
  · next x d1 he =>
    rw [he] at hx
    exact ((dropFrame hx hc).putCtx).freeCells

theorem cutFrames (h : FabStep d d') {port : Nat} : FabStep d (d'.cutFrames port) := by
  unfold Dev.cutFrames
  split
  · exact h.ctFail (by decide)
  · exact h

end FabStep

end Sys2Proof.Machine
end

section
/-! The ports and the mode of an octet (spec/01, R31 to R34; spec/04, R104, R105, R110). -/

open Sys2Proof

namespace Sys2Proof.Machine

theorem octBase_le (o : Nat) : 0x1000000 ≤ octBase o := Nat.le_add_right _ _

theorem laneBase_le (g : Nat) : 0x1000000 ≤ laneBase g := Nat.le_trans (octBase_le (g / 8)) (Nat.le_add_right _ _)

/-! A port that changes its state. -/

section
variable (d : Dev) (o p st : Nat)

/-- The fields a change of state sets, before its notice. -/
def Dev.portEntered : Dev :=
  (((d.set (R.PORT_STATUS.STATE o p) st).flag (R.PORT_STATUS.UP o p) (st == 3)).set (R.PORT_STATUS.MISWIRE o p) 0)

/-- A change of state in the order of the model: fields, fabric, port record, the port source. -/
theorem Dev.setPort_eq : d.setPort o p st = if d.portState o p = st then d else
    (((if st = 3 then ((d.portEntered o p st).onF fun f => { f with flushed := f.flushed.filter (· != 8 * o + p) }) else d.portEntered o p st).onPt o p fun x =>
      if st = 3 then { x with skews := none, uncRun := 0, half := false, cwNo := 0, badCw := [] } else { x with skews := none, uncRun := 0 }).orF
        (R.PORT_CHG.SLOT o) (2 ^ p)).notice o 1 1 p := rfl

variable {o p st}

theorem Dev.reg_setPort {a : Nat} (h1 : A.PORT_STATUS o p ≠ a) (h2 : A.PORT_CHG o ≠ a) : (d.setPort o p st).reg a = d.reg a := by
  have he : (d.portEntered o p st).reg a = d.reg a := by
    rw [Dev.portEntered, Dev.reg_set_ne (a := a) _ (R.PORT_STATUS.MISWIRE o p) _ h1, Dev.flag, Dev.reg_set_ne (a := a) _ (R.PORT_STATUS.UP o p) _ h1,
      Dev.reg_set_ne (a := a) _ (R.PORT_STATUS.STATE o p) _ h1]
  rw [Dev.setPort_eq]
  split
  · rfl
  · rw [Dev.reg_notice, Dev.orF, Dev.reg_set_ne (a := a) _ (R.PORT_CHG.SLOT o) _ h2, Dev.reg_onPt]
    split
    · rw [Dev.reg_onF, he]
    · exact he

theorem Dev.oct_setPort : (d.setPort o p st).oct = d.oct := by
  have hn : ∀ e : Dev, (e.notice o 1 1 p).oct = e.oct := fun e => by
    obtain ⟨x, h⟩ := Dev.notice_frame e o 1 1 p
    rw [h]
  rw [Dev.setPort_eq]
  split
  · rfl
  · rw [hn, Dev.orF, Dev.oct_set, Dev.oct_onPt]
    split <;> simp -implicitDefEqProofs only [Dev.oct_onF, Dev.portEntered, Dev.flag, Dev.oct_set]

theorem Dev.lane_setPort : (d.setPort o p st).lane = d.lane := by
  have hn : ∀ e : Dev, (e.notice o 1 1 p).lane = e.lane := fun e => by
    obtain ⟨x, h⟩ := Dev.notice_frame e o 1 1 p
    rw [h]
  rw [Dev.setPort_eq]
  split
  · rfl
  · rw [hn, Dev.orF, Dev.lane_set, Dev.lane_onPt]
    split <;> simp -implicitDefEqProofs only [Dev.lane_onF, Dev.portEntered, Dev.flag, Dev.lane_set]

/-- PORT_CHG lies below the octets. -/
theorem portChg_ne {a : Nat} (ho : o < 32) (ha : 0x1000000 ≤ a) : A.PORT_CHG o ≠ a := by
  simp only [A.PORT_CHG]
  omega

theorem Dev.portState_setPort (ho : o < 32) (hs : st < 8) : (d.setPort o p st).portState o p = st := by
  have hne : A.PORT_CHG o ≠ (R.PORT_STATUS.STATE o p).addr := portChg_ne ho (Nat.le_trans (octBase_le o) (by simp only [R.PORT_STATUS.STATE, A.PORT_STATUS]; omega))
  have he : (d.portEntered o p st).get (R.PORT_STATUS.STATE o p) = st := by
    rw [Dev.portEntered]
    simp -implicitDefEqProofs (disch := first | exact Fld.ok_of_ble rfl | exact Fld.apart_of_offset (base := octBase o + 0x10020 + p * 4) (i := 0) (j := 0) rfl rfl rfl) only
      [Dev.get_set_apart, Dev.get_flag_apart, Dev.get_set_same]
    exact Nat.mod_eq_of_lt hs
  rw [Dev.portState, Dev.setPort_eq]
  split
  · next h => exact h
  · rw [Dev.get_notice, Dev.orF, Dev.get_set_apart _ _ (Fld.ok_of_ble rfl) (.inl hne), Dev.get_onPt]
    split
    · rw [Dev.get_onF, he]
    · exact he

end

/-- A fold whose step for b makes P b true and keeps it for the others, under an invariant, makes it true for all. -/
theorem foldl_establishes {α β : Type} {P : β → α → Prop} {I : α → Prop} {f : α → β → α} (l : List β) (hI : ∀ a, ∀ b ∈ l, I a → I (f a b))
    (hest : ∀ a, ∀ b ∈ l, I a → P b (f a b)) (hkeep : ∀ a, ∀ b ∈ l, ∀ c, c ≠ b → I a → P c a → P c (f a b)) (a : α) (ha : I a) :
    I (l.foldl f a) ∧ (∀ c, P c a → P c (l.foldl f a)) ∧ ∀ b ∈ l, P b (l.foldl f a) := by
  classical
  induction l generalizing a with
  | nil => exact ⟨ha, fun _ h => h, by simp⟩
  | cons b t ih =>
    obtain ⟨h1, h2, h3⟩ := ih (fun a c hc => hI a c (.tail _ hc)) (fun a c hc => hest a c (.tail _ hc)) (fun a c hc => hkeep a c (.tail _ hc)) (f a b)
      (hI a b (.head _) ha)
    refine ⟨h1, fun c hc => h2 c ?_, fun c hc => ?_⟩
    · by_cases hcb : c = b
      · exact hcb ▸ hest a b (.head _) ha
      · exact hkeep a b (.head _) c hcb ha hc
    · rcases List.mem_cons.1 hc with rfl | hc
      · exact h2 _ (hest a _ (.head _) ha)
      · exact h3 c hc

/-! The exit of a port to DOWN (R104). -/

section
variable (d : Dev) {o p : Nat} (ho : o < 32)

theorem Dev.portDown_eq : d.portDown o p = if d.portState o p = 0 then d else
    ((((d.cutFrames (8 * o + p)).setPort o p 0).inc (R.PORT_STATUS.DOWN_CNT o p)).bump (Ctr.oct o 10)).forgetData o p := rfl

theorem Dev.reg_forgetData (a : Nat) : (d.forgetData o p).reg a = d.reg a := by
  unfold Dev.forgetData
  refine foldl_keeps (fun e : Dev => e.reg a) (fun e g => ?_) _ d
  exact Dev.reg_onL ..

theorem Dev.oct_forgetData : (d.forgetData o p).oct = d.oct := by
  unfold Dev.forgetData
  refine foldl_keeps (fun e : Dev => e.oct) (fun e g => ?_) _ d
  exact Dev.oct_onL ..

include ho

theorem Dev.reg_portDown {a : Nat} (ha : 0x1000000 ≤ a) (h1 : A.PORT_STATUS o p ≠ a) : (d.portDown o p).reg a = d.reg a := by
  rw [Dev.portDown_eq]
  split
  · rfl
  · rw [Dev.reg_forgetData, Dev.reg_bump, Dev.inc, Dev.reg_set_ne (a := a) _ (R.PORT_STATUS.DOWN_CNT o p) _ h1,
      Dev.reg_setPort _ h1 (portChg_ne ho ha), (FabStep.refl d).cutFrames.reg (Or.inr ha)]

theorem Dev.portState_portDown : (d.portDown o p).portState o p = 0 := by
  rw [Dev.portDown_eq]
  split
  · next h => exact h
  · have hs := (d.cutFrames (8 * o + p)).portState_setPort (p := p) (st := 0) ho (by norm_num)
    rw [Dev.portState, Dev.get, Dev.reg_forgetData, Dev.reg_bump]
    exact (Dev.get_inc_apart _ _ _ _ (Fld.ok_of_ble rfl) (Fld.apart_of_offset (base := octBase o + 0x10020 + p * 4) (i := 0) (j := 0) rfl rfl rfl)).trans hs

omit ho

theorem Dev.oct_portDown : (d.portDown o p).oct = d.oct := by
  have hc : (d.cutFrames (8 * o + p)).oct = d.oct := by
    obtain ⟨⟨_, _, _, _, _, _, _, _, _, h⟩, -⟩ := (FabStep.refl d).cutFrames (port := 8 * o + p)
    rw [h]
  rw [Dev.portDown_eq]
  split
  · rfl
  · rw [Dev.oct_forgetData, Dev.oct_bump, Dev.inc, Dev.oct_set, Dev.oct_setPort, hc]

end

/-! The boundary at which a mode becomes active (R33, R34, R105). -/

section
variable (d : Dev) (o : Nat)

/-- Every port of the octet goes DOWN. -/
def Dev.portsDown : Dev := (d.slots o).foldl (fun d p => d.portDown o p) d

/-- The pending mode taken over. -/
def Dev.modeTaken (m : Nat) : Dev :=
  ((d.setReg (A.MODE_ACTIVE o) (putBits m 3 2 (fecOf (getBits m 1 0)))).flag (R.MODE_COMMIT.REPLACED o)
    (getBits m 3 2 ≠ fecOf (getBits m 1 0))).set (R.MODE_COMMIT.PENDING o) 0

/-- The slots of the new split. -/
def Dev.slotsCleared : Dev :=
  (List.range 8).foldl (fun d p => if p % d.portWidth o = 0 then d.onPt o p fun x => { x with fifo := [] } else d.clearSlot o p) d

/-- A lane at the boundary, in a lane mode. -/
def Dev.laneReset (mode l : Nat) : Dev :=
  let d := (d.newBerLimit o l).onL (8 * o + l) fun x =>
    { x with inData := false, ber := 0, dfePend := if mode = 0 then x.dfePend else none, dfeOn := x.dfeOn && mode == 0 }
  if mode = 0 then d else d.set (R.DFE_CTRL.EN (8 * o + l)) 0

theorem Dev.modeBoundary_eq : d.modeBoundary o = if d.on (R.MODE_COMMIT.PENDING o) ∧ d.modeFree o then
    (List.range 8).foldl (fun e l => e.laneReset o (getBits ((d.portsDown o).oc o).modePend 1 0) l)
      (((d.portsDown o).modeTaken o ((d.portsDown o).oc o).modePend).slotsCleared o)
    else d := rfl

theorem Dev.mem_slots {p : Nat} : p ∈ d.slots o ↔ p < 8 ∧ p % d.portWidth o = 0 := by
  rw [Dev.slots, List.mem_filter, List.mem_range, beq_iff_eq]

variable {o} (ho : o < 32)

include ho in
theorem Dev.reg_portsDown {a : Nat} (ha : 0x1000000 ≤ a) (h : ∀ p < 8, A.PORT_STATUS o p ≠ a) : (d.portsDown o).reg a = d.reg a :=
  foldl_keeps_mem (fun e : Dev => e.reg a) _ (fun p hp e => e.reg_portDown ho ha (h p ((d.mem_slots o).1 hp).1)) d

theorem Dev.oct_portsDown : (d.portsDown o).oct = d.oct := foldl_keeps_mem (fun e : Dev => e.oct) _ (fun _ _ e => e.oct_portDown) d

include ho in
theorem Dev.portState_portsDown {p : Nat} (hp : p < 8) (hs : p % d.portWidth o = 0) : (d.portsDown o).portState o p = 0 := by
  refine (foldl_establishes (P := fun p (e : Dev) => e.portState o p = 0) (I := fun _ => True) (d.slots o) (fun _ _ _ _ => trivial)
    (fun e p _ _ => e.portState_portDown ho) (fun e b _ c hcb _ hc => ?_) d trivial).2.2 p ((d.mem_slots o).2 ⟨hp, hs⟩)
  rw [Dev.portState, Dev.get, Dev.reg_portDown _ ho (Nat.le_trans (octBase_le o) (by simp only [R.PORT_STATUS.STATE, A.PORT_STATUS]; omega))
    (by simp only [R.PORT_STATUS.STATE, A.PORT_STATUS]; omega)]
  exact hc

/-- A register that a filter of the table by offset keeps. -/
theorem Tbl.get_filter {α : Type} (v : α) {q : Nat → Bool} (t : Tbl α) {k : Nat} (hk : q k = true) :
    Tbl.get v (t.filter fun e => q e.1) k = Tbl.get v t k := by
  induction t with
  | nil => rfl
  | cons e t ih =>
    obtain ⟨a, x⟩ := e
    by_cases ha : a = k
    · subst ha
      simp only [List.filter_cons, hk, if_true, Tbl.get]
    · by_cases hq : q a = true
      · simp only [List.filter_cons, hq, if_true, Tbl.get, if_neg ha]
        exact ih
      · simp only [List.filter_cons, if_neg hq, Tbl.get, if_neg ha]
        exact ih

theorem Dev.reg_clearSlot {p a : Nat} (h : a < A.CW_LO o p ∨ A.CW_LO o p + 0x80 ≤ a) (h1 : A.PORT_STATUS o p ≠ a) :
    (d.clearSlot o p).reg a = d.reg a := by
  unfold Dev.clearSlot
  dsimp only
  rw [Dev.reg_onPt, Dev.reg_setReg_ne _ _ h1]
  refine congrArg BitVec.toNat (Tbl.get_filter (q := fun a => !(decide (A.CW_LO o p ≤ a) && decide (a < A.CW_LO o p + 0x80))) _ _ ?_)
  rcases h with h | h <;> simp <;> omega

theorem Dev.portState_clearSlot (p : Nat) : (d.clearSlot o p).portState o p = 0 := by
  unfold Dev.clearSlot Dev.portState
  dsimp only
  rw [Dev.get_onPt]
  refine (Dev.get_setReg_same _ _ (R.PORT_STATUS.STATE o p) (Fld.ok_of_ble (f := R.PORT_STATUS.STATE o p) rfl).2).trans ?_
  rw [getBits, Nat.zero_div, Nat.zero_mod]

/-- One slot of the new split. -/
theorem Dev.reg_slotsCleared {a : Nat} (h : a < octBase o + 0x10100 ∨ octBase o + 0x10500 ≤ a) (h1 : ∀ p < 8, A.PORT_STATUS o p ≠ a) :
    (d.slotsCleared o).reg a = d.reg a := by
  refine foldl_keeps_mem (fun e : Dev => e.reg a) _ (fun p hp e => ?_) d
  have hp := List.mem_range.1 hp
  split
  · rfl
  · exact e.reg_clearSlot (by simp only [A.CW_LO]; omega) (h1 p hp)

theorem Dev.portState_slotsCleared {p : Nat} (hp : p < 8) (h : d.portState o p = 0) : (d.slotsCleared o).portState o p = 0 := by
  refine List.foldlRecOn (motive := fun e : Dev => e.portState o p = 0) _ _ h fun e he q hq => ?_
  have hq := List.mem_range.1 hq
  split
  · exact he
  · by_cases hqp : q = p
    · exact hqp ▸ e.portState_clearSlot q
    · have hne : A.PORT_STATUS o q ≠ A.PORT_STATUS o p := by simp only [A.PORT_STATUS]; omega
      rw [Dev.portState, Dev.get]
      have hr : (e.clearSlot o q).reg (R.PORT_STATUS.STATE o p).addr = e.reg (R.PORT_STATUS.STATE o p).addr :=
        e.reg_clearSlot (by simp only [A.CW_LO, R.PORT_STATUS.STATE, A.PORT_STATUS]; omega) hne
      rw [hr]
      exact he

/-! The lanes at the boundary. -/

variable (mode l : Nat)

theorem Dev.reg_laneReset {a : Nat} (h1 : A.BER_LIMIT o l ≠ a) (h2 : A.DFE_CTRL (8 * o + l) ≠ a) : (d.laneReset o mode l).reg a = d.reg a := by
  have hb : (d.newBerLimit o l).reg a = d.reg a := by
    rw [Dev.newBerLimit, Dev.reg_set_ne (a := a) _ (R.BER_LIMIT.COUNT o l) _ h1]
  unfold Dev.laneReset
  dsimp only
  split
  · rw [Dev.reg_onL, hb]
  · rw [Dev.reg_set_ne (a := a) _ (R.DFE_CTRL.EN (8 * o + l)) _ h2, Dev.reg_onL, hb]

theorem Dev.inData_laneReset : ((d.laneReset o mode l).ln (8 * o + l)).inData = false := by
  unfold Dev.laneReset
  dsimp only
  split
  · rw [Dev.ln_onL_same]
  · rw [Dev.ln_set, Dev.ln_onL_same]

theorem Dev.ln_laneReset_ne {c : Nat} (h : c ≠ l) : (d.laneReset o mode l).ln (8 * o + c) = d.ln (8 * o + c) := by
  have hne : 8 * o + l ≠ 8 * o + c := by omega
  unfold Dev.laneReset
  dsimp only
  split
  · rw [Dev.ln_onL_ne _ _ hne, Dev.newBerLimit, Dev.ln_set]
  · rw [Dev.ln_set, Dev.ln_onL_ne _ _ hne, Dev.newBerLimit, Dev.ln_set]

theorem laneBase_eq {o l : Nat} (hl : l < 8) : laneBase (8 * o + l) = octBase o + l * 0x2000 := by
  have h1 : (8 * o + l) / 8 = o := by omega
  have h2 : (8 * o + l) % 8 = l := by omega
  rw [laneBase, h1, h2]

theorem Dev.berLimit_laneReset (hl : l < 8) : (d.laneReset o mode l).get (R.BER_LIMIT.COUNT o l) =
    berLimit (d.get (R.MODE_ACTIVE.LANE_MODE o)) (d.get (R.PORT_CTRL.BER_SHIFT o)) := by
  have hlim : ∀ m s, berLimit m s < 2 ^ (R.BER_LIMIT.COUNT o l).width := fun m s => by
    refine Nat.lt_of_le_of_lt (Nat.div_le_self _ _) ?_
    norm_num [R.BER_LIMIT.COUNT, Fld.width]
    split
    · norm_num
    · split <;> norm_num
  have hb : (d.newBerLimit o l).get (R.BER_LIMIT.COUNT o l) = berLimit (d.get (R.MODE_ACTIVE.LANE_MODE o)) (d.get (R.PORT_CTRL.BER_SHIFT o)) := by
    rw [Dev.newBerLimit, Dev.get_set_same _ _ _ (Fld.ok_of_ble rfl), Nat.mod_eq_of_lt (hlim _ _)]
  have hne : (R.DFE_CTRL.EN (8 * o + l)).addr ≠ (R.BER_LIMIT.COUNT o l).addr := by
    simp only [R.DFE_CTRL.EN, A.DFE_CTRL, R.BER_LIMIT.COUNT, A.BER_LIMIT, laneBase_eq hl]
    omega
  unfold Dev.laneReset
  dsimp only
  split
  · rw [Dev.get_onL, hb]
  · rw [Dev.get_set_apart _ _ (Fld.ok_of_ble rfl) (.inl hne), Dev.get_onL, hb]

end

theorem getBits_one_zero (m : Nat) : getBits m 1 0 = m % 4 := by
  rw [getBits, Nat.pow_zero, Nat.div_one]
  rfl

/-! The mode taken over. -/

section
variable (d : Dev) (o m : Nat)

theorem Dev.reg_modeTaken {a : Nat} (h1 : A.MODE_ACTIVE o ≠ a) (h2 : A.MODE_COMMIT o ≠ a) : (d.modeTaken o m).reg a = d.reg a := by
  rw [Dev.modeTaken, Dev.reg_set_ne (a := a) _ (R.MODE_COMMIT.PENDING o) _ h2, Dev.flag, Dev.reg_set_ne (a := a) _ (R.MODE_COMMIT.REPLACED o) _ h2,
    Dev.reg_setReg_ne (b := a) _ _ h1]

/-- A field of MODE_ACTIVE beside FEC_MODE is that of the pending word. -/
theorem Dev.get_modeTaken {f : Fld} (ha : f.addr = A.MODE_ACTIVE o) (hf : f.hi < 32) (h : f.hi < 2 ∨ 3 < f.lo) :
    (d.modeTaken o m).get f = getBits m f.hi f.lo := by
  have hne : A.MODE_COMMIT o ≠ f.addr := by rw [ha]; exact ne_of_offset (base := octBase o) rfl rfl rfl
  rw [Dev.modeTaken, Dev.get_set_apart _ _ (Fld.ok_of_ble rfl) (.inl hne), Dev.get_flag_apart _ _ _ _ (Fld.ok_of_ble rfl) (.inl hne), ← ha,
    Dev.get_setReg_same _ _ _ hf, getBits_putBits_ne _ _ _ _ _ _ (by norm_num) h]

theorem Dev.fecMode_modeTaken : (d.modeTaken o m).get (R.MODE_ACTIVE.FEC_MODE o) = fecOf (m % 4) := by
  have hne : A.MODE_COMMIT o ≠ (R.MODE_ACTIVE.FEC_MODE o).addr := ne_of_offset (base := octBase o) rfl rfl rfl
  rw [Dev.modeTaken, Dev.get_set_apart _ _ (Fld.ok_of_ble rfl) (.inl hne), Dev.get_flag_apart _ _ _ _ (Fld.ok_of_ble rfl) (.inl hne), getBits_one_zero]
  refine (Dev.get_setReg_same _ _ (R.MODE_ACTIVE.FEC_MODE o) (Fld.ok_of_ble (f := R.MODE_ACTIVE.FEC_MODE o) rfl).2).trans ?_
  refine (getBits_putBits_same m 3 2 _ (by norm_num)).trans (Nat.mod_eq_of_lt ?_)
  unfold fecOf
  split <;> norm_num

theorem Dev.modeCommit_modeTaken : (d.modeTaken o m).on (R.MODE_COMMIT.PENDING o) = false ∧
    (d.modeTaken o m).on (R.MODE_COMMIT.REPLACED o) = decide (getBits m 3 2 ≠ fecOf (m % 4)) := by
  rw [Dev.modeTaken, getBits_one_zero]
  refine ⟨?_, ?_⟩
  · rw [Dev.on_set_same _ _ _ (Fld.ok_of_ble rfl)]
    rfl
  · rw [Dev.on_set_apart _ _ _ _ (Fld.ok_of_ble rfl) (Fld.apart_of_offset (base := octBase o) rfl rfl rfl), Dev.on_flag_same _ _ _ (Fld.ok_of_ble rfl) rfl]

/-- R33: the boundary that the statement calls free. -/
theorem Dev.modeFree_iff : d.modeFree o = true ↔
    ∀ l, l < 8 → (d.txState (8 * o + l) = 2 ∧ d.rxState (8 * o + l) = 2) ∨ d.portState o (d.slotOf o l) = 0 := by
  have hslot : ∀ l, l < 8 → d.laneSlot (8 * o + l) = d.slotOf o l := fun l hl => by
    have h1 : (8 * o + l) / 8 = o := by omega
    have h2 : (8 * o + l) % 8 = l := by omega
    rw [Dev.laneSlot, h1, h2]
  rw [Dev.modeFree, lanesOf, List.all_map, List.all_eq_true]
  refine forall_congr' fun l => ?_
  rw [List.mem_range]
  refine forall_congr' fun hl => ?_
  simp only [Function.comp, Bool.or_eq_true, Bool.and_eq_true, beq_iff_eq, hslot l hl]

end

/-! What the boundary leaves. -/

section
variable (d : Dev) {o : Nat} (ho : o < 32)

/-- The octet after the pending mode was taken over and its slots renewed. -/
def Dev.modeEntered (o : Nat) : Dev := ((d.portsDown o).modeTaken o (d.oc o).modePend).slotsCleared o

theorem Dev.modeBoundary_free (hp : d.on (R.MODE_COMMIT.PENDING o) = true) (hf : d.modeFree o = true) : d.modeBoundary o =
    (List.range 8).foldl (fun e l => e.laneReset o ((d.oc o).modePend % 4) l) (d.modeEntered o) := by
  have hoc : (d.portsDown o).oc o = d.oc o := by rw [Dev.oc, Dev.oct_portsDown, Dev.oc]
  rw [Dev.modeBoundary_eq, if_pos ⟨hp, hf⟩, hoc, getBits_one_zero]
  rfl

/-- A register of the octet that no lane's part of the boundary writes. -/
theorem Dev.reg_lanesReset (e : Dev) (m : Nat) {a : Nat} (h : ∀ l < 8, A.BER_LIMIT o l ≠ a ∧ A.DFE_CTRL (8 * o + l) ≠ a) :
    ((List.range 8).foldl (fun e l => e.laneReset o m l) e).reg a = e.reg a :=
  foldl_keeps_mem (fun e : Dev => e.reg a) _ (fun l hl e => e.reg_laneReset m l (h l (List.mem_range.1 hl)).1 (h l (List.mem_range.1 hl)).2) e

/-- Offsets at which a lane's part writes. -/
theorem laneReset_ne {a i : Nat} (ha : a = octBase o + i) (hi : 0x10000 ≤ i) (hb : i < 0x10514 ∨ 0x10600 ≤ i) :
    ∀ l < 8, A.BER_LIMIT o l ≠ a ∧ A.DFE_CTRL (8 * o + l) ≠ a := fun l hl => by
  simp only [A.BER_LIMIT, A.DFE_CTRL, laneBase_eq hl]
  omega

include ho in
theorem Dev.get_modeEntered {f : Fld} {i : Nat} (ha : f.addr = octBase o + i) (hi : 0x10010 ≤ i) (hb : i < 0x10020 ∨ 0x10600 ≤ i) :
    (d.modeEntered o).get f = d.get f := by
  have hp : ∀ p < 8, A.PORT_STATUS o p ≠ f.addr := fun p hp => by simp only [A.PORT_STATUS]; omega
  rw [Dev.get, Dev.modeEntered, Dev.reg_slotsCleared _ (by omega) hp, Dev.reg_modeTaken _ _ _ (by simp only [A.MODE_ACTIVE]; omega)
    (by simp only [A.MODE_COMMIT]; omega), Dev.reg_portsDown _ ho (Nat.le_trans (octBase_le o) (by omega)) hp, Dev.get]

theorem Dev.get_modeEntered_mode {f : Fld} (ha : f.addr = A.MODE_ACTIVE o ∨ f.addr = A.MODE_COMMIT o) :
    (d.modeEntered o).get f = ((d.portsDown o).modeTaken o (d.oc o).modePend).get f := by
  have hr : f.addr < octBase o + 0x10100 := by
    rcases ha with h | h <;> rw [h] <;> simp only [A.MODE_ACTIVE, A.MODE_COMMIT] <;> omega
  have hp : ∀ p < 8, A.PORT_STATUS o p ≠ f.addr := fun p hp => by
    rcases ha with h | h <;> rw [h] <;> simp only [A.PORT_STATUS, A.MODE_ACTIVE, A.MODE_COMMIT] <;> omega
  rw [Dev.get, Dev.modeEntered, Dev.reg_slotsCleared _ (.inl hr) hp, Dev.get]

/-- R105, R110: the lanes after the boundary. -/
theorem Dev.lanesReset_spec (e : Dev) (m : Nat) {l : Nat} (hl : l < 8) :
    (((List.range 8).foldl (fun e l => e.laneReset o m l) e).ln (8 * o + l)).inData = false ∧
      ((List.range 8).foldl (fun e l => e.laneReset o m l) e).get (R.BER_LIMIT.COUNT o l) =
        berLimit (e.get (R.MODE_ACTIVE.LANE_MODE o)) (e.get (R.PORT_CTRL.BER_SHIFT o)) := by
  have hmode := laneReset_ne (o := o) (a := A.MODE_ACTIVE o) (i := 0x10008) rfl (by norm_num) (by norm_num)
  have hctrl := laneReset_ne (o := o) (a := A.PORT_CTRL o) (i := 0x10010) rfl (by norm_num) (by norm_num)
  refine (foldl_establishes (P := fun l (x : Dev) => l < 8 → (x.ln (8 * o + l)).inData = false ∧ x.get (R.BER_LIMIT.COUNT o l) =
      berLimit (e.get (R.MODE_ACTIVE.LANE_MODE o)) (e.get (R.PORT_CTRL.BER_SHIFT o)))
    (I := fun x : Dev => x.get (R.MODE_ACTIVE.LANE_MODE o) = e.get (R.MODE_ACTIVE.LANE_MODE o) ∧
      x.get (R.PORT_CTRL.BER_SHIFT o) = e.get (R.PORT_CTRL.BER_SHIFT o)) (List.range 8) (fun x l hl hI => ?_) (fun x l hl hI _ => ?_)
    (fun x b hb c hcb hI hc hc8 => ?_) e ⟨rfl, rfl⟩).2.2 l (List.mem_range.2 hl) hl
  · have hl := List.mem_range.1 hl
    refine ⟨Eq.trans ?_ hI.1, Eq.trans ?_ hI.2⟩
    · rw [Dev.get, Dev.reg_laneReset (a := (R.MODE_ACTIVE.LANE_MODE o).addr) _ _ _ (hmode l hl).1 (hmode l hl).2, Dev.get]
    · rw [Dev.get, Dev.reg_laneReset (a := (R.PORT_CTRL.BER_SHIFT o).addr) _ _ _ (hctrl l hl).1 (hctrl l hl).2, Dev.get]
  · have hl := List.mem_range.1 hl
    rw [Dev.berLimit_laneReset _ _ _ hl, hI.1, hI.2]
    exact ⟨Dev.inData_laneReset .., rfl⟩
  · have hb := List.mem_range.1 hb
    rw [Dev.ln_laneReset_ne _ _ _ hcb, Dev.get, Dev.reg_laneReset _ _ _ ?_ ?_]
    · exact hc hc8
    · simp only [A.BER_LIMIT, R.BER_LIMIT.COUNT]; omega
    · simp only [A.BER_LIMIT, R.BER_LIMIT.COUNT, A.DFE_CTRL, laneBase_eq hb]; omega

end

theorem Dev.oc_set (d : Dev) (f : Fld) (v o : Nat) : (d.set f v).oc o = d.oc o := rfl

end Sys2Proof.Machine

open Sys2Proof.Machine

/-- Settles O24: the boundary takes the ports DOWN, the mode over, the slots and the lanes anew, and each part keeps what the others wrote. -/
theorem octetMode : Obligations.OctetMode := by
  intro o src v s d m free
  have hfree : d.modeFree o = true ↔ free := d.modeFree_iff o
  refine ⟨fun hb hv => ?_, fun ha => ⟨fun hp hf => ?_, fun hn => ?_⟩⟩
  · have h := makes_of_gate (c := .modeCommit src o v) rfl hb
    rw [Dev.modeCommit, if_pos hv] at h
    refine h.gives ⟨?_, ?_, ?_⟩
    · dsimp only
      rw [Dev.oc_set, Dev.oc_onO_same]
    · dsimp only
      rw [Dev.on_set_same _ _ _ (Fld.ok_of_ble rfl)]
      rfl
    · dsimp only
      rw [Dev.reg_set_ne (a := A.MODE_ACTIVE o) _ (R.MODE_COMMIT.PENDING o) _ (ne_of_offset (base := octBase o) rfl rfl rfl), Dev.reg_onO]
  · have h := makes_of_live (c := .modeBoundary o) rfl ha
    rw [Dev.modeBoundary_free _ hp (hfree.2 hf)] at h
    have ho : o.val < 32 := o.isLt
    have hmode := laneReset_ne (o := o) (a := A.MODE_ACTIVE o) (i := 0x10008) rfl (by norm_num) (by norm_num)
    have hcommit := laneReset_ne (o := o) (a := A.MODE_COMMIT o) (i := 0x10004) rfl (by norm_num) (by norm_num)
    have hact : ∀ f : Fld, f.addr = A.MODE_ACTIVE o → ((List.range 8).foldl (fun e l => e.laneReset o (m % 4) l) (d.modeEntered o)).get f =
        ((d.portsDown o).modeTaken o m).get f := fun f hf => by
      rw [Dev.get, Dev.reg_lanesReset _ _ (by rw [hf]; exact hmode)]
      exact d.get_modeEntered_mode (.inl hf)
    have hcom : ∀ f : Fld, f.addr = A.MODE_COMMIT o → ((List.range 8).foldl (fun e l => e.laneReset o (m % 4) l) (d.modeEntered o)).on f =
        ((d.portsDown o).modeTaken o m).on f := fun f hf => by
      rw [Dev.on, Dev.get, Dev.reg_lanesReset _ _ (by rw [hf]; exact hcommit)]
      exact congrArg (· != 0) (d.get_modeEntered_mode (.inr hf))
    obtain ⟨hpend, hrep⟩ := (d.portsDown o).modeCommit_modeTaken o m
    have hlane : (d.modeEntered o).get (R.MODE_ACTIVE.LANE_MODE o) = m % 4 := by
      rw [d.get_modeEntered_mode (.inl rfl), Dev.get_modeTaken _ _ _ rfl (Fld.ok_of_ble (f := R.MODE_ACTIVE.LANE_MODE o) rfl).2 (by simp [R.MODE_ACTIVE.LANE_MODE])]
      exact getBits_one_zero m
    refine h.gives ?_
    intro u
    refine ⟨?_, ?_, ?_, ?_, ?_, ?_, fun p hp8 hs => ?_, fun l hl => ?_⟩
    · refine (hact _ rfl).trans ?_
      rw [← d.get_modeEntered_mode (.inl rfl)]
      exact hlane
    · exact (hact _ rfl).trans (Dev.fecMode_modeTaken ..)
    · exact (hact _ rfl).trans (Dev.get_modeTaken _ _ _ rfl (Fld.ok_of_ble (f := R.MODE_ACTIVE.SPLIT o) rfl).2 (by simp [R.MODE_ACTIVE.SPLIT]))
    · have ht : u.get (R.MODE_ACTIVE.TIMING o) = getBits m 8 8 :=
        (hact _ rfl).trans (Dev.get_modeTaken _ _ _ rfl (Fld.ok_of_ble (f := R.MODE_ACTIVE.TIMING o) rfl).2 (by simp [R.MODE_ACTIVE.TIMING]))
      rw [Dev.on, ht, getBits_ne_zero]
    · exact (hcom _ rfl).trans hpend
    · exact (hcom _ rfl).trans hrep
    · have hst := Dev.portState_slotsCleared ((d.portsDown o).modeTaken o m) (o := o) hp8 (by
        rw [Dev.portState, Dev.get, Dev.reg_modeTaken _ _ _ ?_ ?_]
        · exact d.portState_portsDown ho hp8 hs
        · simp only [R.PORT_STATUS.STATE, A.PORT_STATUS, A.MODE_ACTIVE]; omega
        · simp only [R.PORT_STATUS.STATE, A.PORT_STATUS, A.MODE_COMMIT]; omega)
      show Dev.portState _ o p = 0
      rw [Dev.portState, Dev.get, Dev.reg_lanesReset _ _ (laneReset_ne (i := 0x10020 + p * 4) (by
        simp only [R.PORT_STATUS.STATE, A.PORT_STATUS]; omega) (by omega) (by omega))]
      exact hst
    · obtain ⟨h1, h2⟩ := Dev.lanesReset_spec (o := o) (d.modeEntered o) (m % 4) hl
      refine ⟨h1, h2.trans ?_⟩
      rw [hlane, d.get_modeEntered ho (f := R.PORT_CTRL.BER_SHIFT o) (i := 0x10010) rfl (by norm_num) (by norm_num)]
      rfl
  · have h := makes_of_live (c := .modeBoundary o) rfl ha
    rw [Dev.modeBoundary, if_neg] at h
    · exact h
    · rintro ⟨hp, hf⟩
      exact hn.elim (fun hn => by simp [show s.dev.on _ = false from hn] at hp) fun hn => hn (hfree.1 hf)

end

section
/-! The Tideline modem of an octet: what its work leaves alone, and its parts one by one (spec/05). -/

open Sys2Proof

namespace Sys2Proof.Machine

theorem Dev.t_set (d : Dev) (f : Fld) (v o : Nat) : (d.set f v).t o = d.t o := rfl
theorem Dev.t_bump (d : Dev) (n k o : Nat) : (d.bump n k).t o = d.t o := rfl
theorem Dev.t_onO (d : Dev) (k : Nat) (f : OctSt → OctSt) (o : Nat) : (d.onO k f).t o = d.t o := rfl
theorem Dev.on_onO (d : Dev) (k : Nat) (f : OctSt → OctSt) (x : Fld) : (d.onO k f).on x = d.on x := rfl
theorem Dev.on_onT (d : Dev) (k : Nat) (f : TlSt → TlSt) (x : Fld) : (d.onT k f).on x = d.on x := rfl
theorem Dev.oc_onT (d : Dev) (k : Nat) (f : TlSt → TlSt) (o : Nat) : (d.onT k f).oc o = d.oc o := rfl
theorem Dev.oc_bump (d : Dev) (n k o : Nat) : (d.bump n k).oc o = d.oc o := rfl

theorem Dev.t_notice (d : Dev) (o k code i p : Nat) : (d.notice o k code i).t p = d.t p := by
  obtain ⟨x, h⟩ := d.notice_frame o k code i
  rw [h]; rfl

/-! The frame of one modem. -/

/-- From d to d' nothing changes but octet o's modem: its record, its registers but TL_CTRL, the octet's record, engines and counters. -/
def TlStep (o : Nat) (d d' : Dev) : Prop :=
  (∃ regs oct tl eng ctr, d' = { d with regs, oct, tl, eng, ctr }) ∧
    (∀ a, a < octBase o + 0x14004 ∨ octBase o + 0x15000 ≤ a → d'.reg a = d.reg a) ∧ ∀ p, p ≠ o → d'.t p = d.t p

namespace TlStep
variable {o : Nat} {d d' : Dev}

theorem refl (d : Dev) : TlStep o d d := ⟨⟨_, _, _, _, _, rfl⟩, fun _ _ => rfl, fun _ _ => rfl⟩

theorem trans {e : Dev} (h : TlStep o d d') (h' : TlStep o d' e) : TlStep o d e := by
  obtain ⟨⟨r, x, t, g, c, rfl⟩, hr, ht⟩ := h
  obtain ⟨⟨r', x', t', g', c', rfl⟩, hr', ht'⟩ := h'
  exact ⟨⟨_, _, _, _, _, rfl⟩, fun a ha => (hr' a ha).trans (hr a ha), fun p hp => (ht' p hp).trans (ht p hp)⟩

theorem set (h : TlStep o d d') {f : Fld} {v : Nat} (hf : octBase o + 0x14004 ≤ f.addr ∧ f.addr < octBase o + 0x15000) : TlStep o d (d'.set f v) :=
  h.trans ⟨⟨_, _, _, _, _, rfl⟩, fun a ha => Dev.reg_set_ne (a := a) d' f v (by omega), fun _ _ => rfl⟩

theorem onT (h : TlStep o d d') {f : TlSt → TlSt} : TlStep o d (d'.onT o f) :=
  h.trans ⟨⟨_, _, _, _, _, rfl⟩, fun _ _ => rfl, fun _ hp => Dev.t_onT_ne d' f (Ne.symm hp)⟩

theorem onO (h : TlStep o d d') {k : Nat} {f : OctSt → OctSt} : TlStep o d (d'.onO k f) :=
  h.trans ⟨⟨_, _, _, _, _, rfl⟩, fun _ _ => rfl, fun _ _ => rfl⟩

theorem bump (h : TlStep o d d') {n k : Nat} : TlStep o d (d'.bump n k) := h.trans ⟨⟨_, _, _, _, _, rfl⟩, fun _ _ => rfl, fun _ _ => rfl⟩

theorem notice (h : TlStep o d d') {p k code i : Nat} : TlStep o d (d'.notice p k code i) := by
  obtain ⟨x, hx⟩ := d'.notice_frame p k code i
  exact h.trans (by rw [hx]; exact ⟨⟨_, _, _, _, _, rfl⟩, fun _ _ => rfl, fun _ _ => rfl⟩)

theorem ite {c : Prop} [Decidable c] {x y : Dev} (hx : TlStep o d x) (hy : TlStep o d y) : TlStep o d (if c then x else y) := by
  split
  · exact hx
  · exact hy

/-- A field of TL_STATUS. -/
theorem status (h : TlStep o d d') {f : Fld} {v : Nat} (hf : f.addr = A.TL_STATUS o) : TlStep o d (d'.set f v) :=
  h.set (by rw [hf]; simp only [A.TL_STATUS]; omega)

theorem tlCount (h : TlStep o d d') {k n : Nat} (hk : k < 256) : TlStep o d (d'.tlCount o k n) :=
  h.set (by simp only [R.TLC.COUNT, A.TLC]; omega)

theorem tlTxState (h : TlStep o d d') : TlStep o d (d'.tlTxState o) := h.status rfl

theorem setRxq (h : TlStep o d d') {l : List TlRx} : TlStep o d (d'.setRxq o l) := h.onT.status rfl

theorem queueRx (h : TlStep o d d') {st : Nat} : TlStep o d (d'.queueRx o st) :=
  ite (h.tlCount (by norm_num)) h.setRxq.notice

theorem toSearch (h : TlStep o d d') : TlStep o d (d'.toSearch o) := onT ((h.status rfl).status rfl)

theorem toUnconf (h : TlStep o d d') {sf m g : Nat} : TlStep o d (d'.toUnconf o sf m g) := by
  unfold Dev.toUnconf Dev.flag
  dsimp only
  exact onT ((((h.status rfl).status rfl).status rfl).status rfl)

theorem agcSettle (h : TlStep o d d') : TlStep o d (d'.agcSettle o) := ite (onT (h.status rfl)) h

theorem cutFrame (h : TlStep o d d') : TlStep o d (d'.cutFrame o) := by
  unfold Dev.cutFrame
  split
  · exact h
  · next c _ =>
    dsimp only
    refine tlTxState ?_
    cases c
    case train => exact (((h.tlCount (by norm_num)).onT).status rfl).onO
    all_goals exact ((h.tlCount (by norm_num)).onT).status rfl

theorem gaspStart (h : TlStep o d d') {r : Nat} : TlStep o d (d'.gaspStart o r) := ite h.cutFrame.onT h

theorem tlStop (h : TlStep o d d') : TlStep o d (d'.tlStop o) := by
  have h1 : TlStep o d (if d'.tlRx o = 3 then (d'.tlCount o 3).queueRx o 3 else if d'.tlRx o = 2 then d'.tlCount o 3 else d') :=
    ite (h.tlCount (by norm_num)).queueRx (ite (h.tlCount (by norm_num)) h)
  exact ((((h1.toSearch).status rfl).onT).cutFrame.onT).tlTxState

theorem tlStart (h : TlStep o d d') : TlStep o d (d'.tlStart o) := ite (h.toSearch.onT).tlTxState h

/-! What it keeps. -/

theorem ln (h : TlStep o d d') (g : Nat) : d'.ln g = d.ln g := by obtain ⟨⟨_, _, _, _, _, rfl⟩, -⟩ := h; rfl
theorem up (h : TlStep o d d') : d'.up = d.up := by obtain ⟨⟨_, _, _, _, _, rfl⟩, -⟩ := h; rfl
theorem pol (h : TlStep o d d') : d'.pol = d.pol := by obtain ⟨⟨_, _, _, _, _, rfl⟩, -⟩ := h; rfl
theorem holders (h : TlStep o d d') : d'.holders = d.holders := by obtain ⟨⟨_, _, _, _, _, rfl⟩, -⟩ := h; rfl

theorem reg (h : TlStep o d d') {a : Nat} (ha : a < octBase o + 0x14004 ∨ octBase o + 0x15000 ≤ a) : d'.reg a = d.reg a := h.2.1 a ha

theorem get (h : TlStep o d d') {f : Fld} (ha : f.addr < octBase o + 0x14004 ∨ octBase o + 0x15000 ≤ f.addr) : d'.get f = d.get f := by
  rw [Dev.get, h.reg ha, Dev.get]

/-- TL_CTRL of every octet. -/
theorem tlCtrl (h : TlStep o d d') (p : Nat) : d'.reg (A.TL_CTRL p) = d.reg (A.TL_CTRL p) := by
  refine h.reg ?_
  simp only [A.TL_CTRL, octBase]
  omega

theorem tlLane (h : TlStep o d d') (p : Nat) : d'.tlLane p = d.tlLane p := by
  have hr := h.tlCtrl p
  rw [Dev.tlLane, Dev.get, show (R.TL_CTRL.LANE p).addr = A.TL_CTRL p from rfl, hr]
  rfl

theorem tlRuns (h : TlStep o d d') (p : Nat) : d'.tlRuns p = d.tlRuns p := by
  have hr := h.tlCtrl p
  have hlane : d.tlLane p = 8 * p + d.get (R.TL_CTRL.LANE p) := rfl
  have hl8 : d.get (R.TL_CTRL.LANE p) < 8 := d.get_lt _
  have hpow : d'.reg (A.LPWR_STATUS (d.tlLane p)) = d.reg (A.LPWR_STATUS (d.tlLane p)) := by
    refine h.reg ?_
    rw [hlane]
    simp only [A.LPWR_STATUS, laneBase_eq hl8, octBase]
    omega
  have hst : ∀ f : Fld, f.addr = A.LPWR_STATUS (d.tlLane p) → d'.get f = d.get f := fun f hf => by rw [Dev.get, hf, hpow, ← hf, Dev.get]
  have hen : d'.on (R.TL_CTRL.EN p) = d.on (R.TL_CTRL.EN p) := by rw [Dev.on, Dev.get, show (R.TL_CTRL.EN p).addr = A.TL_CTRL p from rfl, hr]; rfl
  unfold Dev.tlRuns Dev.tlLaneOk
  dsimp only
  rw [hen, h.tlLane, h.ln, Dev.txState, Dev.rxState, hst _ rfl, hst _ rfl, Dev.txState, Dev.rxState]

theorem awake (h : TlStep o d d') (p : Nat) (hp : p < 64) : d'.awake p = d.awake p := by
  have hpol : ∀ q < 64, d'.polder q = d.polder q := fun q hq => by
    have hr : d'.reg (A.POLDER_STATE (q / 8)) = d.reg (A.POLDER_STATE (q / 8)) := h.reg (by simp only [A.POLDER_STATE, octBase]; omega)
    rw [Dev.polder, hr, Dev.polder]
  have hpow : ∀ q < 64, d'.powered q = d.powered q := fun q hq => by rw [Dev.powered, hpol q hq, h.pol, Dev.powered]
  unfold Dev.awake
  rw [hpow p hp]
  split
  · rw [hpol _ (by omega)]
  · split
    · simp only [List.all_cons, List.all_nil, hpow 32 (by norm_num), hpow 33 (by norm_num), hpow 34 (by norm_num), hpow 35 (by norm_num)]
    · rfl

end TlStep

/-! The parts of the modem's work: registers and record. -/

theorem tlc_ne_status (o k : Nat) : A.TLC o k ≠ A.TL_STATUS o := by simp only [A.TLC, A.TL_STATUS]; omega

theorem tlc_ne {o k j : Nat} (h : k ≠ j) : A.TLC o k ≠ A.TLC o j := by simp only [A.TLC]; omega

theorem status_ne_tlc (o k : Nat) : A.TL_STATUS o ≠ A.TLC o k := (tlc_ne_status o k).symm

section
variable (d : Dev) (o : Nat) {f : Fld}

theorem Dev.get_tlCount {k : Nat} (n : Nat) (h : A.TLC o k ≠ f.addr) : (d.tlCount o k n).get f = d.get f :=
  Dev.get_inc_apart _ _ _ _ (Fld.ok_of_ble rfl) (.inl h)

theorem Dev.get_tlCount_same (k n : Nat) : (d.tlCount o k n).get (R.TLC.COUNT o k) = min (2 ^ 32 - 1) (d.get (R.TLC.COUNT o k) + n) :=
  Dev.get_inc_same _ _ _ (Fld.ok_of_ble rfl)

theorem Dev.t_tlCount (k n p : Nat) : (d.tlCount o k n).t p = d.t p := by rw [Dev.tlCount, Dev.inc, Dev.t_set]

theorem Dev.t_tlTxState (p : Nat) : (d.tlTxState o).t p = d.t p := by rw [Dev.tlTxState, Dev.t_set]

theorem Dev.get_tlTxState (h : (R.TL_STATUS.TX_STATE o).apart f) : (d.tlTxState o).get f = d.get f :=
  Dev.get_set_apart _ _ (Fld.ok_of_ble rfl) h

theorem Dev.t_setRxq (l : List TlRx) : (d.setRxq o l).t o = { d.t o with rxq := l } := by
  rw [Dev.setRxq, Dev.t_set, Dev.t_onT_same]

theorem Dev.get_setRxq (l : List TlRx) (h : (R.TL_STATUS.RX_FILL o).apart f) : (d.setRxq o l).get f = d.get f := by
  rw [Dev.setRxq, Dev.get_set_apart _ _ (Fld.ok_of_ble rfl) h, Dev.get_onT]

/-- The descriptor of the frame in reception, with a status. -/
def Dev.rxDescriptor (status : Nat) : TlRx :=
  ⟨status, (d.t o).header, d.get (R.TL_STATUS.CUR_METRIC o),
    (List.range (d.t o).blocks.length).foldl (fun v i => v + b2n (((d.t o).blocks.getD i (0, false)).2) * 2 ^ i) 0,
    if status = 0 then (d.t o).blocks.foldl (fun v b => v * 2 ^ 256 + b.1.toNat) 0 else 0⟩

theorem Dev.queueRx_eq (status : Nat) : d.queueRx o status = if 4 ≤ (d.t o).rxq.length then d.tlCount o 10 else
    (d.setRxq o ((d.t o).rxq ++ [d.rxDescriptor o status])).notice o 2 1 0 := rfl

theorem Dev.t_queueRx (status : Nat) : (d.queueRx o status).t o =
    if 4 ≤ (d.t o).rxq.length then d.t o else { d.t o with rxq := (d.t o).rxq ++ [d.rxDescriptor o status] } := by
  rw [Dev.queueRx_eq]
  split
  · rw [Dev.t_tlCount]
  · rw [Dev.t_notice, Dev.t_setRxq]

theorem Dev.get_queueRx (status : Nat) (h : A.TLC o 10 ≠ f.addr) (h' : (R.TL_STATUS.RX_FILL o).apart f) : (d.queueRx o status).get f = d.get f := by
  rw [Dev.queueRx_eq]
  split
  · rw [Dev.get_tlCount _ _ _ h]
  · rw [Dev.get_notice, Dev.get_setRxq _ _ _ h']

theorem Dev.t_toSearch : (d.toSearch o).t o =
    { d.t o with wait := true, held := none, header := 0, blocks := [], agcAt := none, delim := false } := by
  rw [Dev.toSearch, Dev.t_onT_same, Dev.t_set, Dev.t_set]

theorem Dev.get_toSearch (h : (R.TL_STATUS.RX_STATE o).apart f) (h' : (R.TL_STATUS.AGC_FROZEN o).apart f) : (d.toSearch o).get f = d.get f := by
  rw [Dev.toSearch, Dev.get_onT, Dev.get_set_apart _ _ (Fld.ok_of_ble rfl) h', Dev.get_set_apart _ _ (Fld.ok_of_ble rfl) h]

theorem Dev.tlRx_toSearch : (d.toSearch o).tlRx o = 1 := by
  rw [Dev.tlRx, Dev.toSearch, Dev.get_onT, Dev.get_set_apart _ _ (Fld.ok_of_ble rfl) (Fld.apart_of_offset rfl rfl rfl),
    Dev.get_set_same _ _ _ (Fld.ok_of_ble rfl)]
  rfl

/-- R145: a frame cut short is gone; the receiver does not notice. -/
theorem Dev.t_cutFrame : ∃ q, (d.cutFrame o).t o = { d.t o with cur := none, txq := q } := by
  unfold Dev.cutFrame
  split
  · next h => exact ⟨(d.t o).txq, by rw [← h]⟩
  · next c h =>
    dsimp only
    rw [Dev.t_tlTxState]
    cases c
    case train => exact ⟨_, by rw [Dev.trnMsg, Dev.t_onO, Dev.t_set, Dev.t_onT_same, Dev.t_tlCount]⟩
    all_goals exact ⟨_, by rw [Dev.t_set, Dev.t_onT_same, Dev.t_tlCount]⟩

theorem Dev.get_cutFrame (h : A.TLC o 12 ≠ f.addr) (h1 : (R.TL_STATUS.TX_FILL o).apart f) (h2 : (R.TL_STATUS.TX_STATE o).apart f) :
    (d.cutFrame o).get f = d.get f := by
  unfold Dev.cutFrame
  split
  · rfl
  · next c _ =>
    dsimp only
    rw [Dev.get_tlTxState _ _ h2]
    cases c
    case train => rw [Dev.trnMsg, Dev.get_onO, Dev.get_set_apart _ _ (Fld.ok_of_ble rfl) h1, Dev.get_onT, Dev.get_tlCount _ _ _ h]
    all_goals rw [Dev.get_set_apart _ _ (Fld.ok_of_ble rfl) h1, Dev.get_onT, Dev.get_tlCount _ _ _ h]

/-- No gasp waits or is under way. -/
def Dev.noGasp : Prop := (d.t o).gaspReq = none ∧ ∀ r, (d.t o).cur ≠ some (.gasp r)

/-- R144: a gasp that starts. -/
theorem Dev.gaspStart_of_idle (r : Nat) (hr : d.tlRuns o = true) (hi : d.noGasp o) :
    d.gaspStart o r = (d.cutFrame o).onT o fun x => { x with gaspReq := some r } := by
  obtain ⟨h1, h2⟩ := hi
  have hbusy : ((d.t o).gaspReq.isSome || match (d.t o).cur with | some (.gasp _) => true | _ => false) = false := by
    rw [h1, Option.isSome_none, Bool.false_or]
    split
    · next r h => exact absurd h (h2 r)
    · rfl
  unfold Dev.gaspStart
  dsimp only
  rw [if_pos]
  refine ⟨hr, ?_⟩
  rw [Bool.not_eq_true']
  exact hbusy

theorem Dev.gaspStart_cases (r : Nat) : d.gaspStart o r = (d.cutFrame o).onT o (fun x => { x with gaspReq := some r }) ∨ d.gaspStart o r = d :=
  ite_eq_or_eq ..

theorem Dev.t_gaspStart (r : Nat) (hr : d.tlRuns o = true) (hi : d.noGasp o) :
    ((d.gaspStart o r).t o).gaspReq = some r ∧ ((d.gaspStart o r).t o).cur = none := by
  obtain ⟨q, hq⟩ := d.t_cutFrame o
  rw [d.gaspStart_of_idle o r hr hi, Dev.t_onT_same, hq]
  exact ⟨rfl, rfl⟩

theorem Dev.get_gaspStart (r : Nat) (h : A.TLC o 12 ≠ f.addr) (h1 : (R.TL_STATUS.TX_FILL o).apart f) (h2 : (R.TL_STATUS.TX_STATE o).apart f) :
    (d.gaspStart o r).get f = d.get f := by
  rcases d.gaspStart_cases o r with e | e <;> rw [e]
  rw [Dev.get_onT, Dev.get_cutFrame _ _ h h1 h2]

/-- A gasp command keeps every record without a frame in progress. -/
theorem Dev.cur_gaspStart (r : Nat) (h : (d.t o).cur = none) : ((d.gaspStart o r).t o).cur = none := by
  obtain ⟨q, hq⟩ := d.t_cutFrame o
  rcases d.gaspStart_cases o r with e | e <;> rw [e]
  · rw [Dev.t_onT_same, hq]
  · exact h

/-! The modem stops and runs (R139). -/

/-- A reception in progress is counted and described. -/
def Dev.rxAbandoned : Dev := if d.tlRx o = 3 then (d.tlCount o 3).queueRx o 3 else if d.tlRx o = 2 then d.tlCount o 3 else d

theorem Dev.tlStop_eq : d.tlStop o = ((((((d.rxAbandoned o).toSearch o).set (R.TL_STATUS.RX_STATE o) 0).onT o fun x => { x with wait := false }).cutFrame o).onT o
    fun x => { x with gaspReq := none }).tlTxState o := rfl

theorem Dev.t_tlStop : ((d.tlStop o).t o).cur = none ∧ ((d.tlStop o).t o).gaspReq = none ∧ ((d.tlStop o).t o).rxq = ((d.rxAbandoned o).t o).rxq := by
  obtain ⟨q, hq⟩ := ((((d.rxAbandoned o).toSearch o).set (R.TL_STATUS.RX_STATE o) 0).onT o fun x => { x with wait := false }).t_cutFrame o
  rw [Dev.tlStop_eq, Dev.t_tlTxState, Dev.t_onT_same, hq, Dev.t_onT_same, Dev.t_set, Dev.t_toSearch]
  exact ⟨rfl, rfl, rfl⟩

theorem Dev.tlRx_tlStop : (d.tlStop o).tlRx o = 0 := by
  rw [Dev.tlRx, Dev.tlStop_eq, Dev.get_tlTxState _ _ (Fld.apart_of_offset rfl rfl rfl), Dev.get_onT,
    Dev.get_cutFrame _ _ (tlc_ne_status o 12) (Fld.apart_of_offset rfl rfl rfl) (Fld.apart_of_offset rfl rfl rfl), Dev.get_onT,
    Dev.get_set_same _ _ _ (Fld.ok_of_ble rfl)]
  rfl

/-- A counter of R147 beside those of cut and lost frames. -/
theorem Dev.tlc_tlStop {k : Nat} (h : k ≠ 12) : (d.tlStop o).get (R.TLC.COUNT o k) = (d.rxAbandoned o).get (R.TLC.COUNT o k) := by
  have hs : ∀ f : Fld, f.addr = A.TL_STATUS o → f.apart (R.TLC.COUNT o k) := fun f hf => .inl (by rw [hf]; exact status_ne_tlc o k)
  rw [Dev.tlStop_eq, Dev.get_tlTxState _ _ (hs _ rfl), Dev.get_onT, Dev.get_cutFrame _ _ (tlc_ne h.symm) (hs _ rfl) (hs _ rfl), Dev.get_onT,
    Dev.get_set_apart _ _ (Fld.ok_of_ble rfl) (hs _ rfl), Dev.get_toSearch _ _ (hs _ rfl) (hs _ rfl)]

theorem Dev.abandoned_rxAbandoned (h : d.tlRx o = 2 ∨ d.tlRx o = 3) :
    (d.rxAbandoned o).get (R.TLC.COUNT o 3) = min (2 ^ 32 - 1) (d.get (R.TLC.COUNT o 3) + 1) := by
  unfold Dev.rxAbandoned
  rcases h with h | h
  · rw [if_neg (by omega), if_pos h, Dev.get_tlCount_same]
  · rw [if_pos h, Dev.get_queueRx (f := R.TLC.COUNT o 3) _ _ _ (tlc_ne (show (10 : Nat) ≠ 3 by norm_num)) (.inl (status_ne_tlc o 3)), Dev.get_tlCount_same]

/-- R139: the modem starts from OFF. -/
theorem Dev.tlStart_eq : d.tlStart o = if d.tlRuns o ∧ d.tlRx o = 0 then ((d.toSearch o).onT o fun x => { x with wait := false }).tlTxState o else d := rfl

theorem Dev.tlRx_tlStart (hr : d.tlRuns o = true) (h0 : d.tlRx o = 0) : (d.tlStart o).tlRx o = 1 := by
  rw [Dev.tlStart_eq, if_pos ⟨hr, h0⟩, Dev.tlRx, Dev.get_tlTxState _ _ (Fld.apart_of_offset rfl rfl rfl), Dev.get_onT]
  exact Dev.tlRx_toSearch d o

theorem Dev.t_tlStart : ((d.tlStart o).t o).cur = (d.t o).cur ∧ ((d.tlStart o).t o).gaspReq = (d.t o).gaspReq ∧
    ((d.tlStart o).t o).rxq = (d.t o).rxq ∧ ((d.tlStart o).t o).txq = (d.t o).txq := by
  rw [Dev.tlStart_eq]
  split
  · rw [Dev.t_tlTxState, Dev.t_onT_same, Dev.t_toSearch]
    exact ⟨rfl, rfl, rfl, rfl⟩
  · exact ⟨rfl, rfl, rfl, rfl⟩

theorem Dev.get_tlStart (h : (R.TL_STATUS.RX_STATE o).apart f) (h1 : (R.TL_STATUS.AGC_FROZEN o).apart f) (h2 : (R.TL_STATUS.TX_STATE o).apart f) :
    (d.tlStart o).get f = d.get f := by
  rw [Dev.tlStart_eq]
  split
  · rw [Dev.get_tlTxState _ _ h2, Dev.get_onT, Dev.get_toSearch _ _ h h1]
  · rfl

end

end Sys2Proof.Machine
end

section
/-! The control of a Tideline modem (spec/05, R123, R128, R139, R144). -/

open Sys2Proof

namespace Sys2Proof.Machine

theorem tidy_TL_CTRL : Row.TL_CTRL.tidy := by decide

theorem bit_putBit_ne (v : Nat) {i j : Nat} (b : Bool) (h : i ≠ j) : bit (putBit v i b) j = bit v j := by
  rw [bit_eq_testBit, putBit, testBit_putBits _ _ _ _ _ (Nat.le_refl _), if_neg (by omega), bit_eq_testBit]

theorem bit_putBit_same (v i : Nat) (b : Bool) : bit (putBit v i b) i = b := by
  rw [← getBits_ne_zero, getBits_putBit_same]
  cases b <;> rfl

theorem Dev.t_setReg (d : Dev) (a v o : Nat) : (d.setReg a v).t o = d.t o := rfl

/-! A write to TL_CTRL. -/

section
variable (d : Dev) (o v : Nat)

/-- The register written. -/
def Dev.tlWritten : Dev := d.sw Row.TL_CTRL (A.TL_CTRL o) v

theorem Dev.en_tlWritten : (d.tlWritten o v).on (R.TL_CTRL.EN o) = bit v 31 := by
  have h : (d.tlWritten o v).get (R.TL_CTRL.EN o) = getBits v 31 31 := Dev.get_sw_any d tidy_TL_CTRL (f := R.TL_CTRL.EN o) 0 rfl v
  rw [Dev.on, h, getBits_ne_zero]

theorem Dev.lane_tlWritten : (d.tlWritten o v).get (R.TL_CTRL.LANE o) = v % 8 := by
  have h : (d.tlWritten o v).get (R.TL_CTRL.LANE o) = getBits v 2 0 := Dev.get_sw_any d tidy_TL_CTRL (f := R.TL_CTRL.LANE o) 5 rfl v
  rw [h, getBits, Nat.pow_zero, Nat.div_one]
  rfl

theorem Dev.get_tlWritten {f : Fld} (h : A.TL_CTRL o ≠ f.addr) : (d.tlWritten o v).get f = d.get f := Dev.get_sw_ne d _ _ _ h

theorem Dev.t_tlWritten (p : Nat) : (d.tlWritten o v).t p = d.t p := by rw [Dev.tlWritten, Dev.sw, Dev.t_setReg]

/-- R123: lane l of the octet lets the modem run. -/
def Dev.laneLets (l : Nat) : Bool :=
  !(d.txState (8 * o + l) == 2 && d.rxState (8 * o + l) == 2) && !(d.ln (8 * o + l)).tscRun

theorem Dev.tlRuns_tlWritten : (d.tlWritten o v).tlRuns o = (bit v 31 && d.laneLets o (v % 8)) := by
  have hl : v % 8 < 8 := Nat.mod_lt _ (by norm_num)
  have hne : ∀ f : Fld, f.addr = A.LPWR_STATUS (8 * o + v % 8) → A.TL_CTRL o ≠ f.addr := fun f hf => by
    rw [hf]
    simp only [A.TL_CTRL, A.LPWR_STATUS, laneBase_eq hl]
    omega
  have htl : (d.tlWritten o v).tlLane o = 8 * o + v % 8 := by rw [Dev.tlLane, Dev.lane_tlWritten]
  have hln : (d.tlWritten o v).ln (8 * o + v % 8) = d.ln (8 * o + v % 8) := Dev.ln_sw ..
  unfold Dev.tlRuns Dev.tlLaneOk Dev.laneLets
  dsimp only
  rw [Dev.en_tlWritten, htl, hln, Dev.txState, Dev.rxState, Dev.get_tlWritten _ _ _ (hne _ rfl), Dev.get_tlWritten _ _ _ (hne _ rfl), Dev.txState, Dev.rxState]

/-- The orders MUTE_CLR and GASP of the word written. -/
def Dev.tlUnmuted : Dev := if bit v 6 then (d.set (R.TL_STATUS.MUTED o) 0).tlTxState o else d

def Dev.tlOrders : Dev := if bit v 7 then (d.tlUnmuted o v).gaspStart o 1 else d.tlUnmuted o v

theorem Dev.tlCtrl_eq : d.tlCtrl o v = ((if d.on (R.TL_CTRL.EN o) ∧ (!(d.tlWritten o v).on (R.TL_CTRL.EN o) ∨ (d.tlWritten o v).get (R.TL_CTRL.LANE o) ≠
    d.get (R.TL_CTRL.LANE o)) then (d.tlWritten o v).tlStop o else d.tlWritten o v).tlStart o).tlOrders o v := rfl

/-- What the write leaves before its orders. -/
theorem Dev.tlCtrl_stop (hen : d.on (R.TL_CTRL.EN o) = true) (h : bit v 31 = false ∨ v % 8 ≠ d.get (R.TL_CTRL.LANE o)) :
    d.tlCtrl o v = (((d.tlWritten o v).tlStop o).tlStart o).tlOrders o v := by
  rw [Dev.tlCtrl_eq, Dev.en_tlWritten, Dev.lane_tlWritten, if_pos]
  exact ⟨hen, h.imp_left fun h => by rw [h]; rfl⟩

theorem Dev.tlCtrl_keep (h : d.on (R.TL_CTRL.EN o) = false ∨ (bit v 31 = true ∧ v % 8 = d.get (R.TL_CTRL.LANE o))) :
    d.tlCtrl o v = ((d.tlWritten o v).tlStart o).tlOrders o v := by
  rw [Dev.tlCtrl_eq, Dev.en_tlWritten, Dev.lane_tlWritten, if_neg]
  rintro ⟨hen, hc⟩
  rcases h with h | ⟨h, hl⟩
  · simp [h] at hen
  · rcases hc with hc | hc
    · simp [h] at hc
    · exact hc hl

variable {o v} {f : Fld}

theorem Dev.t_tlUnmuted (p : Nat) : (d.tlUnmuted o v).t p = d.t p := by
  unfold Dev.tlUnmuted
  split
  · rw [Dev.t_tlTxState, Dev.t_set]
  · rfl

theorem TlStep.tlUnmuted {d d' : Dev} (h : TlStep o d d') : TlStep o d (d'.tlUnmuted o v) := ite (h.status rfl).tlTxState h

theorem TlStep.tlOrders {d d' : Dev} (h : TlStep o d d') : TlStep o d (d'.tlOrders o v) := ite h.tlUnmuted.gaspStart h.tlUnmuted

theorem Dev.get_tlUnmuted (hm : (R.TL_STATUS.MUTED o).apart f) (h2 : (R.TL_STATUS.TX_STATE o).apart f) : (d.tlUnmuted o v).get f = d.get f := by
  unfold Dev.tlUnmuted
  split
  · rw [Dev.get_tlTxState _ _ h2, Dev.get_set_apart _ _ (Fld.ok_of_ble rfl) hm]
  · rfl

theorem Dev.get_tlOrders (hm : (R.TL_STATUS.MUTED o).apart f) (h : A.TLC o 12 ≠ f.addr) (h1 : (R.TL_STATUS.TX_FILL o).apart f)
    (h2 : (R.TL_STATUS.TX_STATE o).apart f) : (d.tlOrders o v).get f = d.get f := by
  unfold Dev.tlOrders
  split
  · rw [Dev.get_gaspStart _ _ _ h h1 h2, Dev.get_tlUnmuted _ hm h2]
  · exact Dev.get_tlUnmuted _ hm h2

theorem Dev.tlRx_tlOrders : (d.tlOrders o v).tlRx o = d.tlRx o :=
  Dev.get_tlOrders d (Fld.apart_of_offset rfl rfl rfl) (tlc_ne_status o 12) (Fld.apart_of_offset rfl rfl rfl) (Fld.apart_of_offset rfl rfl rfl)

theorem Dev.t_tlOrders (h : bit v 7 = false) : (d.tlOrders o v).t o = d.t o := by
  rw [Dev.tlOrders, h, if_neg Bool.false_ne_true, Dev.t_tlUnmuted]

theorem Dev.cur_tlOrders (h : (d.t o).cur = none) : ((d.tlOrders o v).t o).cur = none := by
  unfold Dev.tlOrders
  split
  · exact Dev.cur_gaspStart _ _ _ (by rwa [Dev.t_tlUnmuted])
  · rwa [Dev.t_tlUnmuted]

/-- R128: MUTE_CLR ends the muting. -/
theorem Dev.muted_tlOrders (h : bit v 6 = true) : (d.tlOrders o v).on (R.TL_STATUS.MUTED o) = false := by
  have hu : (d.tlUnmuted o v).on (R.TL_STATUS.MUTED o) = false := by
    rw [Dev.tlUnmuted, if_pos h, Dev.on, Dev.get_tlTxState _ _ (Fld.apart_of_offset rfl rfl rfl), Dev.get_set_same _ _ _ (Fld.ok_of_ble rfl)]
    rfl
  unfold Dev.tlOrders
  split
  · rw [Dev.on, Dev.get_gaspStart _ _ _ (tlc_ne_status o 12) (Fld.apart_of_offset rfl rfl rfl) (Fld.apart_of_offset rfl rfl rfl)]
    exact hu
  · exact hu

/-- Without a modem that runs no gasp starts. -/
theorem Dev.t_tlOrders_idle (h : d.tlRuns o = false) : (d.tlOrders o v).t o = d.t o := by
  have hr : (d.tlUnmuted o v).tlRuns o = false := ((TlStep.refl d).tlUnmuted.tlRuns o).trans h
  unfold Dev.tlOrders
  split
  · rw [Dev.gaspStart, if_neg (by rw [hr]; simp), Dev.t_tlUnmuted]
  · rw [Dev.t_tlUnmuted]

end

/-! The whole device gasps (R144, R328). -/

section
variable (d : Dev) (us r p : Nat)

theorem Dev.noteGasp_cases : (∃ x f, d.noteGasp us = (d.set R.PFAIL_STATUS.GASP_US x).onPwr f) ∨ d.noteGasp us = d := by
  unfold Dev.noteGasp
  split
  · exact .inl ⟨_, _, rfl⟩
  · exact .inr rfl

theorem Dev.t_noteGasp : (d.noteGasp us).t p = d.t p := by
  rcases d.noteGasp_cases us with ⟨x, f, h⟩ | h <;> rw [h]
  rw [Dev.t, Dev.t, Dev.tl_onPwr, Dev.tl_set]

theorem Dev.reg_noteGasp {a : Nat} (h : A.PFAIL_STATUS ≠ a) : (d.noteGasp us).reg a = d.reg a := by
  rcases d.noteGasp_cases us with ⟨x, f, e⟩ | e <;> rw [e]
  rw [Dev.reg_onPwr, Dev.reg_set_ne (a := a) d R.PFAIL_STATUS.GASP_US x h]

theorem Dev.e_noteGasp (k : Nat) : (d.noteGasp us).e k = d.e k := by
  rcases d.noteGasp_cases us with ⟨x, f, h⟩ | h <;> rw [h]
  rw [Dev.e_onPwr, Dev.e_set]

theorem Dev.ln_noteGasp (k : Nat) : (d.noteGasp us).ln k = d.ln k := by
  rcases d.noteGasp_cases us with ⟨x, f, h⟩ | h <;> rw [h]
  rw [Dev.ln_onPwr, Dev.ln_set]

theorem Dev.pol_noteGasp : (d.noteGasp us).pol = d.pol := by
  rcases d.noteGasp_cases us with ⟨x, f, h⟩ | h <;> rw [h]
  rw [Dev.pol_onPwr, Dev.pol_set]

end

/-- Whether a modem runs follows from its octet's registers and its lanes. -/
theorem Dev.tlRuns_congr {d d' : Dev} (hr : ∀ a, 0x1000000 ≤ a → d'.reg a = d.reg a) (hl : ∀ g, d'.ln g = d.ln g) (p : Nat) :
    d'.tlRuns p = d.tlRuns p := by
  have hc : d'.reg (A.TL_CTRL p) = d.reg (A.TL_CTRL p) := hr _ (Nat.le_trans (octBase_le p) (Nat.le_add_right _ _))
  have hen : d'.on (R.TL_CTRL.EN p) = d.on (R.TL_CTRL.EN p) := by rw [Dev.on, Dev.get, show (R.TL_CTRL.EN p).addr = A.TL_CTRL p from rfl, hc]; rfl
  have htl : d'.tlLane p = d.tlLane p := by rw [Dev.tlLane, Dev.get, show (R.TL_CTRL.LANE p).addr = A.TL_CTRL p from rfl, hc]; rfl
  have hst : ∀ g : Nat, ∀ f : Fld, f.addr = A.LPWR_STATUS g → d'.get f = d.get f := fun g f hf => by
    rw [Dev.get, hf, hr (A.LPWR_STATUS g) (Nat.le_trans (laneBase_le g) (Nat.le_add_right _ _)), ← hf, Dev.get]
  unfold Dev.tlRuns Dev.tlLaneOk
  dsimp only
  rw [hen, htl, hl, Dev.txState, Dev.rxState, hst _ _ rfl, hst _ _ rfl, Dev.txState, Dev.rxState]

/-- Whether a polder works follows from the polders' states. -/
theorem Dev.awake_congr {d d' : Dev} (hr : ∀ w, d'.reg (A.POLDER_STATE w) = d.reg (A.POLDER_STATE w)) (hp : d'.pol = d.pol) (p : Nat) :
    d'.awake p = d.awake p := by
  have hpol : ∀ q, d'.polder q = d.polder q := fun q => by rw [Dev.polder, hr, Dev.polder]
  have hpow : ∀ q, d'.powered q = d.powered q := fun q => by rw [Dev.powered, hpol, hp, Dev.powered]
  unfold Dev.awake
  simp only [hpol, hpow, List.all_cons, List.all_nil]

/-- R144: of the octets whose modem runs without a gasp, each starts one; the others' records stay. -/
theorem Dev.gaspOctets_spec (d : Dev) (r n : Nat) (hn : n ≤ 32) :
    let u := (List.range n).foldl (fun d o => d.live o fun d => d.gaspStart o r) d
    (∀ p < n, d.awake p = true → d.tlRuns p = true → d.noGasp p → (u.t p).gaspReq = some r ∧ (u.t p).cur = none) ∧
      (∀ p, n ≤ p → u.t p = d.t p) ∧ (∀ p < 32, u.awake p = d.awake p) ∧ ∀ p, u.tlRuns p = d.tlRuns p := by
  induction n with
  | zero => exact ⟨fun p hp => absurd hp (Nat.not_lt_zero p), fun _ _ => rfl, fun _ _ => rfl, fun _ => rfl⟩
  | succ n ih =>
    obtain ⟨h1, h2, h3, h4⟩ := ih (by omega)
    rw [List.range_succ, List.foldl_append]
    intro u
    set e := (List.range n).foldl (fun d o => d.live o fun d => d.gaspStart o r) d with he
    have hu : u = if e.awake n then e.gaspStart n r else e := rfl
    have hstep : TlStep n e u := by
      rw [hu]
      exact .ite (TlStep.refl e).gaspStart (.refl e)
    refine ⟨fun p hp ha hr hi => ?_, fun p hp => (hstep.2.2 p (by omega)).trans (h2 p (by omega)),
      fun p hp => (hstep.awake p (by omega)).trans (h3 p hp), fun p => (hstep.tlRuns p).trans (h4 p)⟩
    rcases Nat.lt_succ_iff_lt_or_eq.1 hp with hp | rfl
    · rw [hstep.2.2 p (by omega)]
      exact h1 p hp ha hr hi
    · rw [hu, h3 p (by omega), if_pos ha]
      refine e.t_gaspStart p r ((h4 p).trans hr) ?_
      rw [Dev.noGasp, h2 p (Nat.le_refl p)]
      exact hi

theorem Dev.e_cutFrame (d : Dev) (o k : Nat) : (d.cutFrame o).e k = d.e k := by
  unfold Dev.cutFrame
  split
  · rfl
  · next c _ =>
    dsimp only
    rw [Dev.tlTxState, Dev.e_set]
    cases c
    case train => rw [Dev.trnMsg, Dev.e_onO, Dev.e_set, Dev.e_onT, Dev.tlCount, Dev.inc, Dev.e_set]
    all_goals rw [Dev.e_set, Dev.e_onT, Dev.tlCount, Dev.inc, Dev.e_set]

theorem Dev.e_gaspAll (d : Dev) (r k : Nat) : (d.gaspAll r).e k = d.e k := by
  refine foldl_keeps_mem (fun x : Dev => x.e k) _ (fun o _ x => ?_) d
  dsimp only [Dev.live]
  split
  · rcases x.gaspStart_cases o r with h | h <;> rw [h]
    rw [Dev.e_onT, Dev.e_cutFrame]
  · rfl

/-! A block of the mask monitor (R128). -/

section
variable (d : Dev) (o : Nat) (pwr : List Int)

/-- The powers shown. -/
def Dev.maskShown : Dev := (List.range 16).foldl (fun d b => d.setI (R.MASK_PWR.PWR o b) (clampI (-128) 127 (pwr.getD b (-128)))) d

theorem Dev.setI_get {f k : Fld} (i : Int) (hf : f.ok) (h : f.apart k) : (d.setI f i).get k = d.get k := Dev.get_set_apart _ _ hf h

theorem Dev.getI_setI {f : Fld} {i : Int} (hf : f.ok) (h1 : -(2 ^ f.width : Int) ≤ 2 * i) (h2 : 2 * i < 2 ^ f.width) : (d.setI f i).getI f = i := by
  rw [Dev.getI, Dev.setI, Dev.get_set_same _ _ _ hf, Nat.mod_eq_of_lt (ofS_lt _ _), toS_ofS h1 h2]

theorem Dev.getI_congr {d d' : Dev} {f : Fld} (h : d'.get f = d.get f) : d'.getI f = d.getI f := by rw [Dev.getI, h, Dev.getI]

theorem maskPwr_addr (b : Nat) : (R.MASK_PWR.PWR o b).addr = octBase o + 0x14340 + b * 4 := rfl

theorem Dev.get_maskShown {k : Fld} (h : ∀ b < 16, (R.MASK_PWR.PWR o b).addr ≠ k.addr) : (d.maskShown o pwr).get k = d.get k :=
  foldl_keeps_mem (fun e : Dev => e.get k) _ (fun b hb e => e.setI_get _ (Fld.ok_of_ble rfl) (.inl (h b (List.mem_range.1 hb)))) d

theorem Dev.t_maskShown (p : Nat) : (d.maskShown o pwr).t p = d.t p := foldl_keeps_mem (fun e : Dev => e.t p) _ (fun b _ e => by rw [Dev.setI, Dev.t_set]) d

theorem Dev.getI_maskShown {b : Nat} (hb : b < 16) : (d.maskShown o pwr).getI (R.MASK_PWR.PWR o b) = clampI (-128) 127 (pwr.getD b (-128)) := by
  refine (foldl_establishes (P := fun b (e : Dev) => e.getI (R.MASK_PWR.PWR o b) = clampI (-128) 127 (pwr.getD b (-128))) (I := fun _ => True) (List.range 16)
    (fun _ _ _ _ => trivial) (fun e b _ _ => ?_) (fun e b _ c hcb _ hc => ?_) d trivial).2.2 b (List.mem_range.2 hb)
  · have hm := clampI_mem (pwr.getD b (-128)) (lo := -128) (hi := 127) (by norm_num)
    generalize clampI (-128) 127 (pwr.getD b (-128)) = i at hm ⊢
    refine Dev.getI_setI e (Fld.ok_of_ble rfl) ?_ ?_ <;> norm_num [R.MASK_PWR.PWR, Fld.width] <;> omega
  · refine (Dev.getI_congr (e.setI_get _ (Fld.ok_of_ble rfl) (.inl ?_))).trans hc
    rw [maskPwr_addr, maskPwr_addr]
    omega

/-- R128: bin b is above its limit: the transmitter is muted. -/
def Dev.maskViolated (b : Nat) : Dev :=
  ((((((d.set (R.TL_STATUS.MUTED o) 1).set (R.MASK_CTRL.VIOL_BIN o) b).cutFrame o).tlCount o 13).tlTxState o).notice o 2 3 b)

theorem Dev.get_maskViolated (b : Nat) {k : Fld} (hs : A.TL_STATUS o ≠ k.addr) (hm : A.MASK_CTRL o ≠ k.addr) (h1 : A.TLC o 12 ≠ k.addr)
    (h2 : A.TLC o 13 ≠ k.addr) : (d.maskViolated o b).get k = d.get k := by
  rw [Dev.maskViolated, Dev.get_notice, Dev.get_tlTxState _ _ (.inl hs), Dev.get_tlCount _ _ _ h2, Dev.get_cutFrame _ _ h1 (.inl hs) (.inl hs),
    Dev.get_set_apart _ _ (Fld.ok_of_ble rfl) (.inl hm), Dev.get_set_apart _ _ (Fld.ok_of_ble rfl) (.inl hs)]

theorem Dev.maskViolated_spec {b : Nat} (hb : b < 16) : (d.maskViolated o b).on (R.TL_STATUS.MUTED o) = true ∧
    (d.maskViolated o b).get (R.MASK_CTRL.VIOL_BIN o) = b ∧ ((d.maskViolated o b).t o).cur = none ∧
    (d.maskViolated o b).get (R.TLC.COUNT o 13) = min (2 ^ 32 - 1) (d.get (R.TLC.COUNT o 13) + 1) := by
  have hms : A.MASK_CTRL o ≠ A.TL_STATUS o := ne_of_offset (base := octBase o) rfl rfl rfl
  have hmt : ∀ k, A.MASK_CTRL o ≠ A.TLC o k := fun k => by simp only [A.MASK_CTRL, A.TLC]; omega
  have hs : ∀ k : Nat, ∀ f : Fld, f.addr = A.TL_STATUS o → f.apart (R.TLC.COUNT o k) := fun k f hf => .inl (by rw [hf]; exact status_ne_tlc o k)
  refine ⟨?_, ?_, ?_, ?_⟩
  · rw [Dev.on, Dev.maskViolated, Dev.get_notice, Dev.get_tlTxState _ _ (Fld.apart_of_offset rfl rfl rfl), Dev.get_tlCount _ _ _ (tlc_ne_status o 13),
      Dev.get_cutFrame _ _ (tlc_ne_status o 12) (Fld.apart_of_offset rfl rfl rfl) (Fld.apart_of_offset rfl rfl rfl),
      Dev.get_set_apart _ _ (Fld.ok_of_ble rfl) (.inl hms), Dev.get_set_same _ _ _ (Fld.ok_of_ble rfl)]
    rfl
  · rw [Dev.maskViolated, Dev.get_notice, Dev.get_tlTxState (f := R.MASK_CTRL.VIOL_BIN o) _ _ (.inl hms.symm), Dev.get_tlCount (f := R.MASK_CTRL.VIOL_BIN o) _ _ _ (hmt 13).symm,
      Dev.get_cutFrame (f := R.MASK_CTRL.VIOL_BIN o) _ _ (hmt 12).symm (.inl hms.symm) (.inl hms.symm), Dev.get_set_same _ _ _ (Fld.ok_of_ble rfl)]
    exact Nat.mod_eq_of_lt hb
  · obtain ⟨q, hq⟩ := ((d.set (R.TL_STATUS.MUTED o) 1).set (R.MASK_CTRL.VIOL_BIN o) b).t_cutFrame o
    rw [Dev.maskViolated, Dev.t_notice, Dev.t_tlTxState, Dev.t_tlCount, hq]
  · rw [Dev.maskViolated, Dev.get_notice, Dev.get_tlTxState _ _ (hs 13 _ rfl), Dev.get_tlCount_same,
      Dev.get_cutFrame (f := R.TLC.COUNT o 13) _ _ (tlc_ne (show (12 : Nat) ≠ 13 by norm_num)) (hs 13 _ rfl) (hs 13 _ rfl),
      Dev.get_set_apart _ _ (Fld.ok_of_ble rfl) (.inl (hmt 13)), Dev.get_set_apart _ _ (Fld.ok_of_ble rfl) (hs 13 _ rfl)]

theorem Dev.maskBlock_eq (h : d.on (R.MASK_CTRL.EN o) = true) : d.maskBlock o pwr =
    match (List.range 16).find? fun b => decide ((d.maskShown o pwr).getI (R.MASK_LIM.LIM o b) < clampI (-128) 127 (pwr.getD b (-128))) with
    | some b =>
      if (match ((d.maskShown o pwr).t o).cur with | some (.gasp _) => true | _ => false) then d.maskShown o pwr
      else (d.maskShown o pwr).maskViolated o b
    | none => d.maskShown o pwr := by
  unfold Dev.maskBlock
  rw [h, if_neg (by simp)]
  rfl

/-- The first bin above its limit decides. -/
theorem Dev.maskBlock_none (h : d.on (R.MASK_CTRL.EN o) = true)
    (hn : ∀ b < 16, ¬ d.getI (R.MASK_LIM.LIM o b) < clampI (-128) 127 (pwr.getD b (-128))) : d.maskBlock o pwr = d.maskShown o pwr := by
  have hlim : ∀ b < 16, (d.maskShown o pwr).getI (R.MASK_LIM.LIM o b) = d.getI (R.MASK_LIM.LIM o b) := fun b hb =>
    Dev.getI_congr (d.get_maskShown o pwr fun c _ => by rw [maskPwr_addr]; simp only [R.MASK_LIM.LIM, A.MASK_LIM]; omega)
  have hf : (List.range 16).find? (fun b => decide ((d.maskShown o pwr).getI (R.MASK_LIM.LIM o b) < clampI (-128) 127 (pwr.getD b (-128)))) = none := by
    rw [List.find?_eq_none]
    intro b hb
    have hb := List.mem_range.1 hb
    rw [hlim b hb]
    simpa using hn b hb
  rw [Dev.maskBlock_eq d o pwr h, hf]

theorem Dev.maskBlock_some (h : d.on (R.MASK_CTRL.EN o) = true) (hg : ∀ r, (d.t o).cur ≠ some (.gasp r)) {b : Nat} (hb : b < 16)
    (ha : d.getI (R.MASK_LIM.LIM o b) < clampI (-128) 127 (pwr.getD b (-128)))
    (hn : ∀ c < b, ¬ d.getI (R.MASK_LIM.LIM o c) < clampI (-128) 127 (pwr.getD c (-128))) :
    d.maskBlock o pwr = (d.maskShown o pwr).maskViolated o b := by
  have hlim : ∀ b < 16, (d.maskShown o pwr).getI (R.MASK_LIM.LIM o b) = d.getI (R.MASK_LIM.LIM o b) := fun b hb =>
    Dev.getI_congr (d.get_maskShown o pwr fun c _ => by rw [maskPwr_addr]; simp only [R.MASK_LIM.LIM, A.MASK_LIM]; omega)
  have hf : (List.range 16).find? (fun b => decide ((d.maskShown o pwr).getI (R.MASK_LIM.LIM o b) < clampI (-128) 127 (pwr.getD b (-128)))) = some b := by
    rw [List.find?_range_eq_some]
    refine ⟨by rw [hlim b hb]; exact decide_eq_true ha, List.mem_range.2 hb, fun c hc => ?_⟩
    rw [hlim c (by omega)]
    simpa using hn c hc
  have hgasp : (match ((d.maskShown o pwr).t o).cur with | some (.gasp _) => true | _ => false) = false := by
    rw [Dev.t_maskShown]
    split
    · next r e => exact absurd e (hg r)
    · rfl
  rw [Dev.maskBlock_eq d o pwr h, hf]
  dsimp only
  rw [if_neg]
  rw [Bool.not_eq_true]
  exact hgasp

end

end Sys2Proof.Machine

open Sys2Proof.Machine

/-- Settles O28: a write to TL_CTRL stops the modem or keeps it, starts it where it may run, and then carries out its orders. -/
theorem modemControl : Obligations.ModemControl := by
  intro o src v e op pwr s d x idle same aband
  have hlow : ∀ i b, 3 ≤ i → putBit v.toNat i b % 8 = v.toNat % 8 := fun i b hi => by
    have h : ∀ n, getBits n 2 0 = n % 8 := fun n => by rw [getBits, Nat.pow_zero, Nat.div_one]; rfl
    rw [← h, ← h]
    exact getBits_putBit_ne _ b (by omega)
  have hne : ∀ f : Fld, f.addr = A.TL_STATUS o → A.TL_CTRL o ≠ f.addr := fun f hf => by rw [hf]; exact ne_of_offset (base := octBase o) rfl rfl rfl
  have hrx : ∀ v, (d.tlWritten o v).tlRx o = d.tlRx o := fun v => Dev.get_tlWritten _ _ _ (hne _ rfl)
  have htlc : ∀ v, (d.tlWritten o v).get (R.TLC.COUNT o 3) = d.get (R.TLC.COUNT o 3) := fun v =>
    Dev.get_tlWritten _ _ _ (by simp only [A.TL_CTRL, R.TLC.COUNT, A.TLC]; omega)
  have hs3 : ∀ f : Fld, f.addr = A.TL_STATUS o → f.apart (R.TLC.COUNT o 3) := fun f hf => .inl (by rw [hf]; exact status_ne_tlc o 3)
  have hlets : d.tlLaneOk o = d.laneLets o (d.get (R.TL_CTRL.LANE o)) := rfl
  have hen' : ∀ {u : Dev} {v}, TlStep o (d.tlWritten o v) u → u.on (R.TL_CTRL.EN o) = bit v 31 := fun hu => by
    rw [← Dev.en_tlWritten d o, Dev.on, Dev.get, show (R.TL_CTRL.EN o).addr = A.TL_CTRL o from rfl, hu.tlCtrl]
    rfl
  have hstop : ∀ v, bit v 31 = false → ((d.tlWritten o v).tlStop o).tlStart o = (d.tlWritten o v).tlStop o := fun v hv => by
    rw [Dev.tlStart_eq, if_neg]
    rw [(TlStep.refl (d.tlWritten o v)).tlStop.tlRuns, Dev.tlRuns_tlWritten, hv]
    simp
  have hcount : ∀ v, d.tlRx o = 2 ∨ d.tlRx o = 3 → ((d.tlWritten o v).tlStop o).get (R.TLC.COUNT o 3) = min (2 ^ 32 - 1) (aband + 1) := fun v hd => by
    rw [Dev.tlc_tlStop _ _ (by norm_num), Dev.abandoned_rxAbandoned _ _ (by rwa [hrx]), htlc]
  refine ⟨fun hb => ⟨fun hen hs h7 hok h0 => ?_, fun hen h3 hq h7 => ?_, fun hen => ?_, fun hen h31 hs hts hr2 => ?_, fun hen h31 hs hok hi => ?_, ?_⟩,
    fun ha => ⟨fun hr h0 => ?_, fun hr h0 => ?_⟩, ?_, fun ha hm => ?_, fun ha hm hg => ?_⟩
  · have h := makes_of_gate (c := .modemEnable o (some (src, v))) (f := fun d => d.tlCtrl o (putBit v.toNat 31 true)) rfl hb
    rw [Dev.tlCtrl_keep _ _ _ (.inl hen)] at h
    have hruns : (d.tlWritten o (putBit v.toNat 31 true)).tlRuns o = true := by
      rw [Dev.tlRuns_tlWritten, bit_putBit_same, hlow _ _ (by norm_num), show v.toNat % 8 = _ from hs, ← hlets, hok]
      rfl
    have hstep : TlStep o (d.tlWritten o (putBit v.toNat 31 true)) (((d.tlWritten o (putBit v.toNat 31 true)).tlStart o).tlOrders o (putBit v.toNat 31 true)) :=
      (TlStep.refl _).tlStart.tlOrders
    have ht := Dev.t_tlOrders (o := o) (v := putBit v.toNat 31 true) ((d.tlWritten o (putBit v.toNat 31 true)).tlStart o)
      (by rw [bit_putBit_ne _ _ (by norm_num), h7])
    obtain ⟨-, -, hrxq, htxq⟩ := (d.tlWritten o (putBit v.toNat 31 true)).t_tlStart o
    refine h.gives ⟨?_, ?_, ?_, ?_⟩
    · dsimp only
      rw [Dev.tlRx_tlOrders, Dev.tlRx_tlStart _ _ hruns ((hrx _).trans h0)]
    · exact (hen' hstep).trans (bit_putBit_same _ _ _)
    · dsimp only
      rw [ht, hrxq, Dev.t_tlWritten]
    · dsimp only
      rw [ht, htxq, Dev.t_tlWritten]
  · have h := makes_of_gate (c := .modemDisable o (some (src, v))) (f := fun d => d.tlCtrl o (putBit v.toNat 31 false)) rfl hb
    rw [Dev.tlCtrl_stop _ _ _ hen (.inl (bit_putBit_same _ _ _)), hstop _ (bit_putBit_same _ _ _)] at h
    obtain ⟨hcur, -, hrxq⟩ := (d.tlWritten o (putBit v.toNat 31 false)).t_tlStop o
    have ht := Dev.t_tlOrders (o := o) (v := putBit v.toNat 31 false) ((d.tlWritten o (putBit v.toNat 31 false)).tlStop o)
      (by rw [bit_putBit_ne _ _ (by norm_num), h7])
    refine h.gives ⟨?_, ?_, ?_, ((d.tlWritten o (putBit v.toNat 31 false)).tlCount o 3).rxDescriptor o 3, ?_, rfl, ?_⟩
    · dsimp only
      rw [Dev.tlRx_tlOrders, Dev.tlRx_tlStop]
    · dsimp only
      rw [Dev.get_tlOrders _ (hs3 _ rfl) (tlc_ne (show (12 : Nat) ≠ 3 by norm_num)) (hs3 _ rfl) (hs3 _ rfl), hcount _ (.inr h3)]
    · dsimp only
      rw [ht, hcur]
    · dsimp only
      rw [ht, hrxq, Dev.rxAbandoned, if_pos ((hrx _).trans h3), Dev.t_queueRx, Dev.t_tlCount, Dev.t_tlWritten, if_neg (Nat.not_le.2 hq)]
    · rw [Dev.rxDescriptor, Dev.t_tlCount, Dev.t_tlWritten]
  · have h := makes_of_gate (c := .modemDisable o (some (src, v))) (f := fun d => d.tlCtrl o (putBit v.toNat 31 false)) rfl hb
    rw [Dev.tlCtrl_stop _ _ _ hen (.inl (bit_putBit_same _ _ _)), hstop _ (bit_putBit_same _ _ _)] at h
    obtain ⟨hcur, hreq, -⟩ := (d.tlWritten o (putBit v.toNat 31 false)).t_tlStop o
    have hidle : ((d.tlWritten o (putBit v.toNat 31 false)).tlStop o).tlRuns o = false := by
      rw [(TlStep.refl (d.tlWritten o (putBit v.toNat 31 false))).tlStop.tlRuns, Dev.tlRuns_tlWritten, bit_putBit_same]
      rfl
    have ht := Dev.t_tlOrders_idle (o := o) (v := putBit v.toNat 31 false) _ hidle
    have hstep : TlStep o (d.tlWritten o (putBit v.toNat 31 false)) (((d.tlWritten o (putBit v.toNat 31 false)).tlStop o).tlOrders o (putBit v.toNat 31 false)) :=
      (TlStep.refl _).tlStop.tlOrders
    refine h.gives ⟨?_, (hen' hstep).trans (bit_putBit_same _ _ _), ?_, ?_⟩
    · dsimp only
      rw [Dev.tlRx_tlOrders, Dev.tlRx_tlStop]
    · dsimp only
      rw [ht, hcur]
    · dsimp only
      rw [ht, hreq]
  · have h := makes_of_gate (c := .tlLaneChange src o v) (f := fun d => d.tlCtrl o v.toNat) rfl hb
    rw [Dev.tlCtrl_stop _ _ _ hen (.inr hs)] at h
    have hruns : (d.tlWritten o v.toNat).tlRuns o = true := by
      have hr : (d.rxState (8 * o + v.toNat % 8) == 2) = false := by simpa using hr2
      rw [Dev.tlRuns_tlWritten, h31, Dev.laneLets, hr, hts, Bool.and_false]
      rfl
    have hstop' : TlStep o (d.tlWritten o v.toNat) ((d.tlWritten o v.toNat).tlStop o) := (TlStep.refl _).tlStop
    obtain ⟨hcur, -, -⟩ := (d.tlWritten o v.toNat).t_tlStop o
    obtain ⟨hcur', -, -, -⟩ := ((d.tlWritten o v.toNat).tlStop o).t_tlStart o
    refine h.gives ⟨?_, ?_, ?_, fun hd => ?_⟩
    · dsimp only
      rw [Dev.tlRx_tlOrders, Dev.tlRx_tlStart _ _ ((hstop'.tlRuns o).trans hruns) (Dev.tlRx_tlStop _ _)]
    · rw [← Dev.lane_tlWritten d o v.toNat, Dev.get, show (R.TL_CTRL.LANE o).addr = A.TL_CTRL o from rfl, hstop'.tlStart.tlOrders.tlCtrl]
      rfl
    · exact Dev.cur_tlOrders _ (hcur'.trans hcur)
    · dsimp only
      rw [Dev.get_tlOrders _ (hs3 _ rfl) (tlc_ne (show (12 : Nat) ≠ 3 by norm_num)) (hs3 _ rfl) (hs3 _ rfl),
        Dev.get_tlStart _ _ (hs3 _ rfl) (hs3 _ rfl) (hs3 _ rfl), hcount _ hd]
  · have h := makes_of_gate (c := .gaspCommand src o v) (f := fun d => d.tlCtrl o (putBit v.toNat 7 true)) rfl hb
    have hb31 : bit (putBit v.toNat 7 true) 31 = true := by rw [bit_putBit_ne _ _ (by norm_num), h31]
    rw [Dev.tlCtrl_keep _ _ _ (.inr ⟨hb31, (hlow _ _ (by norm_num)).trans hs⟩), Dev.tlOrders, if_pos (bit_putBit_same _ _ _)] at h
    have hstep : TlStep o (d.tlWritten o (putBit v.toNat 7 true)) (((d.tlWritten o (putBit v.toNat 7 true)).tlStart o).tlUnmuted o (putBit v.toNat 7 true)) :=
      (TlStep.refl _).tlStart.tlUnmuted
    have hruns : (d.tlWritten o (putBit v.toNat 7 true)).tlRuns o = true := by
      rw [Dev.tlRuns_tlWritten, hb31, hlow _ _ (by norm_num), show v.toNat % 8 = _ from hs, ← hlets, hok]
      rfl
    obtain ⟨hcur, hreq, -, -⟩ := (d.tlWritten o (putBit v.toNat 7 true)).t_tlStart o
    have hi' : (((d.tlWritten o (putBit v.toNat 7 true)).tlStart o).tlUnmuted o (putBit v.toNat 7 true)).noGasp o := by
      rw [Dev.noGasp, Dev.t_tlUnmuted, hcur, hreq, Dev.t_tlWritten]
      exact hi
    exact h.gives (Dev.t_gaspStart _ _ _ ((hstep.tlRuns o).trans hruns) hi')
  · have h := makes_of_gate (c := .muteClear src o v) (f := fun d => d.tlCtrl o (putBit v.toNat 6 true)) rfl hb
    rw [Dev.tlCtrl_eq] at h
    exact h.gives (Dev.muted_tlOrders _ (bit_putBit_same _ _ _))
  · have h := makes_of_live (c := .modemEnable o none) (f := fun d => d.tlFollow o) rfl ha
    rw [Dev.tlFollow, if_pos hr] at h
    exact h.gives (Dev.tlRx_tlStart _ _ hr h0)
  · have h := makes_of_live (c := .modemDisable o none) (f := fun d => d.tlFollow o) rfl ha
    rw [Dev.tlFollow, if_neg (by rw [hr]; simp), if_pos h0] at h
    exact h.gives ⟨Dev.tlRx_tlStop _ _, (Dev.t_tlStop _ _).1⟩
  · have hus : ∀ p, ((d.noteGasp d.pfailUs).t p) = d.t p := fun p => d.t_noteGasp _ p
    refine serves_of_reply (x := (d.noteGasp d.pfailUs).gaspAll (op % 2)) rfl rfl ?_ ?_
    · rw [Dev.e_gaspAll, Dev.e_noteGasp]
    · intro q hq haq hr hi
      have hreg : ∀ a, 0x1000000 ≤ a → (d.noteGasp d.pfailUs).reg a = d.reg a := fun a ha => d.reg_noteGasp _ (by simp only [A.PFAIL_STATUS]; omega)
      have haw := Dev.awake_congr (d := d) (d' := d.noteGasp d.pfailUs) (fun w => d.reg_noteGasp _ (by simp only [A.PFAIL_STATUS, A.POLDER_STATE]; omega))
        (d.pol_noteGasp _) q
      have hru := Dev.tlRuns_congr hreg (fun g => d.ln_noteGasp _ g) q
      have hspec := ((d.noteGasp d.pfailUs).gaspOctets_spec (op % 2) 32 (Nat.le_refl _)).1 q hq (haw.trans haq) (hru.trans hr) (by
        rw [Dev.noGasp, hus]
        exact hi)
      exact hspec
  · have h := makes_of_live (c := .maskBlockEnd o pwr) rfl ha
    rwa [Dev.maskBlock, show s.dev.on (R.MASK_CTRL.EN o) = false from hm, if_pos (by rfl)] at h
  · have h := makes_of_live (c := .maskBlockEnd o pwr) rfl ha
    have hp : ∀ b, max (-128) (min 127 (pwr.getD b (-128))) = clampI (-128) 127 (pwr.getD b (-128)) := fun b => (clampI_eq _ (by norm_num)).symm
    have hshow : ∀ b, b < 16 → ((d.maskShown o pwr).getI (R.MASK_PWR.PWR o b)) = clampI (-128) 127 (pwr.getD b (-128)) := fun b hb => d.getI_maskShown o pwr hb
    have hkeep : ∀ f : Fld, f.addr = A.TL_STATUS o ∨ f.addr = A.TLC o 13 → (d.maskShown o pwr).get f = d.get f := fun f hf => d.get_maskShown o pwr fun b hb => by
      rw [maskPwr_addr]
      rcases hf with hf | hf <;> rw [hf] <;> simp only [A.TL_STATUS, A.TLC] <;> omega
    refine h.gives ?_
    intro p above
    by_cases hall : ∀ b < 16, ¬ above b
    · have he : d.maskBlock o pwr = d.maskShown o pwr := d.maskBlock_none o pwr hm fun b hb => by rw [← hp]; exact hall b hb
      rw [show s.dev.maskBlock o pwr = _ from he]
      refine ⟨fun b hb => (hshow b hb).trans (hp b).symm, fun _ => ⟨?_, ?_⟩, fun b hb hab _ => absurd hab (hall b hb)⟩
      · rw [Dev.on, hkeep _ (.inl rfl)]; rfl
      · dsimp only
        rw [Dev.t_maskShown]
    · classical
      have hex : ∃ b, b < 16 ∧ above b := by simpa using hall
      have hfirst : ∀ b, b < 16 → above b → (∀ c, c < b → ¬ above c) → s.dev.maskBlock o pwr = (d.maskShown o pwr).maskViolated o b :=
        fun b hb hab hn => d.maskBlock_some o pwr hm hg hb (by rw [← hp]; exact hab) fun c hc => by rw [← hp]; exact hn c hc
      refine ⟨fun b hb => ?_, fun hn => absurd hn hall, fun b hb hab hn => ?_⟩
      · obtain ⟨hb', hab'⟩ := Nat.find_spec hex
        rw [hfirst _ hb' hab' fun c hc hac => Nat.find_min hex hc ⟨Nat.lt_trans hc hb', hac⟩]
        have hne : ∀ a, a = A.TL_STATUS o ∨ a = A.MASK_CTRL o ∨ a = A.TLC o 12 ∨ a = A.TLC o 13 → a ≠ (R.MASK_PWR.PWR o b).addr := fun a ha => by
          rw [maskPwr_addr]
          rcases ha with rfl | rfl | rfl | rfl <;> simp only [A.TL_STATUS, A.MASK_CTRL, A.TLC] <;> omega
        refine (Dev.getI_congr ((d.maskShown o pwr).get_maskViolated o _ (hne _ (by simp)) (hne _ (by simp)) (hne _ (by simp)) (hne _ (by simp)))).trans ?_
        exact (hshow b hb).trans (hp b).symm
      · obtain ⟨h1, h2, h3, h4⟩ := (d.maskShown o pwr).maskViolated_spec o hb
        rw [hfirst b hb hab hn]
        rw [hkeep _ (.inr rfl)] at h4
        exact ⟨h1, h2, h3, h4⟩

end

section
/-! The queues and the transmitter of a Tideline modem (spec/05, R141, R144, R145). -/

open Sys2Proof

namespace Sys2Proof.Machine

theorem tidy_TX_DESC : Row.TX_DESC.tidy := by decide

theorem crc8_lt (v n : Nat) : crc8 v n < 256 := by
  refine List.foldlRecOn (motive := fun c => c < 256) _ _ (by norm_num) fun c hc i _ => ?_
  have h : c * 2 % 256 < 2 ^ 8 := Nat.mod_lt _ (by norm_num)
  dsimp only
  split
  · exact Nat.xor_lt_two_pow h (by norm_num)
  · exact h

/-- The GASP bit of a header (R135). -/
theorem bit_headerWord (sf mod len gasp addr seq : Nat) (ha : addr < 2 ^ 12) (hs : seq < 16) (hg : gasp < 2) :
    bit (headerWord sf mod len gasp addr seq) 24 = (gasp == 1) := by
  have hc := crc8_lt (sf * 2 ^ 21 + mod * 2 ^ 20 + len * 2 ^ 17 + gasp * 2 ^ 16 + addr * 16 + seq) 24
  rw [headerWord]
  generalize crc8 (sf * 2 ^ 21 + mod * 2 ^ 20 + len * 2 ^ 17 + gasp * 2 ^ 16 + addr * 16 + seq) 24 = c at hc ⊢
  rw [bit]
  have h : ((sf * 2 ^ 21 + mod * 2 ^ 20 + len * 2 ^ 17 + gasp * 2 ^ 16 + addr * 16 + seq) * 256 + c) / 2 ^ 24 % 2 = gasp := by omega
  rw [h]

section
variable (d : Dev) (o : Nat)

/-! The transmitter (R145). -/

/-- A frame starts with its settings captured. -/
def Dev.txGo (c : TlCur) (h : Nat) (f : List Nat) (depth : Nat) : Dev :=
  (d.onT o fun x => { x with cur := some c, header_tx := h, depth := depth, fir := f }).tlTxState o

theorem Dev.t_txGo (c : TlCur) (h : Nat) (f : List Nat) (depth : Nat) :
    (d.txGo o c h f depth).t o = { d.t o with cur := some c, header_tx := h, depth := depth, fir := f } := by
  rw [Dev.txGo, Dev.t_tlTxState, Dev.t_onT_same]

theorem Dev.oc_txGo (c : TlCur) (h : Nat) (f : List Nat) (depth k : Nat) : (d.txGo o c h f depth).oc k = d.oc k := by
  rw [Dev.txGo, Dev.tlTxState, Dev.oc_set, Dev.oc_onT]

theorem Dev.txState_txGo (c : Nat) (h : Nat) (f : List Nat) (depth : Nat) : (d.txGo o (.gasp c) h f depth).get (R.TL_STATUS.TX_STATE o) = 2 := by
  rw [Dev.txGo, Dev.tlTxState, Dev.get_set_same _ _ _ (Fld.ok_of_ble rfl), Dev.t_onT_same]
  rfl

/-! A write to TX_DESC with GO (R145). -/

theorem Dev.t_sw (row : RegRow) (a v k : Nat) : (d.sw row a v).t k = d.t k := rfl

/-- The frame a write of v queues. -/
def Dev.txNew (v : Nat) : TlTx :=
  ⟨(d.sw Row.TX_DESC (A.TX_DESC o) v).reg (A.TX_DESC o),
    (d.sw Row.TX_DESC (A.TX_DESC o) v).txBuf o ((d.sw Row.TX_DESC (A.TX_DESC o) v).get (R.TX_DESC.LEN o) + 1)⟩

theorem Dev.txNew_field {k hi lo rst : Nat} (hk : Row.TX_DESC.fields[k]? = some ⟨hi, lo, .rw, rst, .any⟩) (v : Nat) :
    getBits (d.txNew o v).desc hi lo = getBits v hi lo := by
  have h := Dev.get_sw_any d tidy_TX_DESC (f := ⟨A.TX_DESC o, hi, lo⟩) k hk v
  dsimp only [Dev.get] at h
  dsimp only [Dev.txNew]
  exact h

def Dev.txTyped (d : Dev) (o : Nat) : Bool := d.reg (A.TX_BUF o 0) / 2 ^ 24 == 1 || typeReserved (d.reg (A.TX_BUF o 0) / 2 ^ 24)

def Dev.txBusy (d : Dev) (o : Nat) : Dev := if decide (2 ≤ (d.t o).txq.length) then d.set (R.TX_DESC.BUSY o) 1 else d

theorem Dev.txDesc_eq {v : Nat} (hv : bit v 31 = true) : d.txDesc o v =
    if decide (2 ≤ (d.t o).txq.length) || d.txTyped o then
      if d.txTyped o then (d.txBusy o).set (R.TX_DESC.TYPE_REJ o) 1 else d.txBusy o
    else ((d.sw Row.TX_DESC (A.TX_DESC o) v).onT o fun x => { x with txq := x.txq ++ [d.txNew o v] }).set (R.TL_STATUS.TX_FILL o)
      (((d.sw Row.TX_DESC (A.TX_DESC o) v).onT o fun x => { x with txq := x.txq ++ [d.txNew o v] }).t o).txq.length :=
  if_pos hv

theorem Dev.txDesc_queued {v : Nat} (hlen : (d.t o).txq.length < 2) (hk : ¬ d.txTyped o = true) (hv : bit v 31 = true) :
    ((d.txDesc o v).t o).txq = (d.t o).txq ++ [d.txNew o v] ∧ (d.txDesc o v).get (R.TL_STATUS.TX_FILL o) = (d.t o).txq.length + 1 := by
  have hacc : ¬ (decide (2 ≤ (d.t o).txq.length) || d.txTyped o) = true := by
    rw [Bool.or_eq_true, decide_eq_true_eq]
    exact fun h => h.elim (by omega) hk
  have ht : (((d.sw Row.TX_DESC (A.TX_DESC o) v).onT o fun x => { x with txq := x.txq ++ [d.txNew o v] }).t o).txq = (d.t o).txq ++ [d.txNew o v] := by
    rw [Dev.t_onT_same, Dev.t_sw]
  rw [Dev.txDesc_eq d o hv, if_neg hacc, Dev.t_set, Dev.get_set_same _ _ _ (Fld.ok_of_ble rfl), ht]
  refine ⟨rfl, ?_⟩
  rw [List.length_append, List.length_singleton]
  refine Nat.mod_eq_of_lt ?_
  have : (R.TL_STATUS.TX_FILL o).width = 4 := rfl
  rw [this]
  omega

theorem Dev.txDesc_refused {v : Nat} (h : 2 ≤ (d.t o).txq.length ∨ d.txTyped o = true) (hv : bit v 31 = true) :
    (d.txDesc o v).tl = d.tl ∧ (2 ≤ (d.t o).txq.length → (d.txDesc o v).on (R.TX_DESC.BUSY o) = true) ∧
    (d.txTyped o = true → (d.txDesc o v).on (R.TX_DESC.TYPE_REJ o) = true) ∧ RegsOnly d (d.txDesc o v) [A.TX_DESC o] := by
  have hrefused : (decide (2 ≤ (d.t o).txq.length) || d.txTyped o) = true := by simpa using h
  have hbusy : RegsOnly d (d.txBusy o) [A.TX_DESC o] := .ite (fun _ => .set (.refl _ _) 0 rfl) fun _ => .refl _ _
  rw [Dev.txDesc_eq d o hv, if_pos hrefused]
  refine ⟨?_, fun hfull => ?_, fun hrej => ?_, .ite (fun _ => .set hbusy 0 rfl) fun _ => hbusy⟩
  · simp -implicitDefEqProofs only [Dev.txBusy, apply_ite Dev.tl, Dev.tl_set, ite_self]
  · have hon : (d.txBusy o).on (R.TX_DESC.BUSY o) = true := by
      rw [Dev.txBusy, if_pos (decide_eq_true hfull), Dev.on_set_same _ _ _ (Fld.ok_of_ble rfl)]
      rfl
    split
    · rw [Dev.on_set_apart _ _ _ _ (Fld.ok_of_ble rfl) (.inr (.inr (by norm_num [R.TX_DESC.BUSY, R.TX_DESC.TYPE_REJ]))), hon]
    · exact hon
  · rw [if_pos hrej, Dev.on_set_same _ _ _ (Fld.ok_of_ble rfl)]
    rfl

section
variable (hr : d.tlRuns o = true) (hc : (d.t o).cur = none)
include hr hc

theorem Dev.txStart_gasp {r : Nat} (hq : (d.t o).gaspReq = some r) : ∃ w depth, d.txStart o =
    (d.txGo o (.gasp r) (headerWord w 0 0 1 (d.get (R.TL_ADDR.ADDR o)) r) txFirReset depth).onT o fun x => { x with gaspReq := none } := by
  refine ⟨d.get (R.TL_TX_CTRL.GASP_SF o), d.get (R.TL_TX_CTRL.DEPTH o), ?_⟩
  unfold Dev.txStart
  dsimp only
  rw [if_neg (by simp [hr, hc]), hq]
  rfl

variable (hq : (d.t o).gaspReq = none)
include hq

theorem Dev.txStart_muted (hm : d.on (R.TL_STATUS.MUTED o) = true) : d.txStart o = d := by
  unfold Dev.txStart
  dsimp only
  rw [if_neg (by simp [hr, hc]), hq]
  dsimp only
  rw [if_pos hm]

variable (hm : d.on (R.TL_STATUS.MUTED o) = false)
include hm

theorem Dev.txStart_train (ht : (d.oc o).trnDue = true) : ∃ (w : Nat) (fir : List Nat) (depth : Nat) (f : TlSt → TlSt), d.txStart o =
    ((d.onO o fun x => { x with trnDue := false }).txGo o (.train (d.trnMessage o)) w fir depth).onT o f ∧ ∀ x, (f x).cur = x.cur ∧ (f x).txq = x.txq := by
  unfold Dev.txStart
  dsimp only
  rw [if_neg (by simp [hr, hc]), hq]
  dsimp only
  rw [if_neg (by rw [hm]; exact Bool.false_ne_true), if_pos ht]
  exact ⟨_, _, _, fun x => { x with trnCount := (x.trnCount + 1) % 16 }, rfl, fun _ => ⟨rfl, rfl⟩⟩

theorem Dev.txStart_soft (ht : (d.oc o).trnDue = false) (hne : (d.t o).txq ≠ []) : ∃ w fir depth, d.txStart o = d.txGo o .soft w fir depth := by
  obtain ⟨f, fs, hf⟩ := List.exists_cons_of_ne_nil hne
  unfold Dev.txStart
  dsimp only
  rw [if_neg (by simp [hr, hc]), hq]
  dsimp only
  rw [if_neg (by rw [hm]; exact Bool.false_ne_true), if_neg (by rw [ht]; exact Bool.false_ne_true), hf]
  exact ⟨_, _, _, rfl⟩

end

/-- R75: what a message sent tells its lanes; the modem is no part of it. -/
theorem Dev.trnSent_keeps (m : BitVec 256) (k : Nat) : (d.trnSent o m).t o = d.t o ∧ (d.trnSent o m).get (R.TLC.COUNT o k) = d.get (R.TLC.COUNT o k) := by
  refine List.foldlRecOn (motive := fun e : Dev => e.t o = d.t o ∧ e.get (R.TLC.COUNT o k) = d.get (R.TLC.COUNT o k)) _ _ ⟨rfl, rfl⟩ fun e he l hl => ?_
  have hl := List.mem_range.1 hl
  have hne : (R.TRN_STATUS.SEEN_SENT (8 * o + l)).addr ≠ (R.TLC.COUNT o k).addr := by
    simp only [R.TRN_STATUS.SEEN_SENT, A.TRN_STATUS, R.TLC.COUNT, A.TLC, laneBase_eq hl]
    omega
  have hset : ∀ c : Prop, ∀ _ : Decidable c, ((if c then e.set (R.TRN_STATUS.SEEN_SENT (8 * o + l)) 1 else e).t o = d.t o) ∧
      (if c then e.set (R.TRN_STATUS.SEEN_SENT (8 * o + l)) 1 else e).get (R.TLC.COUNT o k) = d.get (R.TLC.COUNT o k) := fun c _ => by
    split
    · rw [Dev.t_set, Dev.get_set_apart _ _ (Fld.ok_of_ble rfl) (.inl hne)]
      exact he
    · exact he
  have hmsg : ∀ c : Prop, ∀ _ : Decidable c, ∀ e : Dev, e.t o = d.t o ∧ e.get (R.TLC.COUNT o k) = d.get (R.TLC.COUNT o k) →
      (if c then e.trnMsg o else e).t o = d.t o ∧ (if c then e.trnMsg o else e).get (R.TLC.COUNT o k) = d.get (R.TLC.COUNT o k) := fun c _ e he => by
    split
    · rw [Dev.trnMsg, Dev.t_onO, Dev.get_onO]
      exact he
    · exact he
  dsimp only
  split
  · exact he
  · exact hmsg _ _ _ (hset _ _)

/-- R145: the end of a frame. -/
theorem Dev.txEnd_spec {c : TlCur} (hc : (d.t o).cur = some c) : ((d.txEnd o).t o).cur = none ∧
    ((d.txEnd o).t o).txq = (if c = .soft then (d.t o).txq.tail else (d.t o).txq) ∧
    (d.txEnd o).get (R.TLC.COUNT o 11) = min (2 ^ 32 - 1) (d.get (R.TLC.COUNT o 11) + 1) := by
  have hs : ∀ f : Fld, f.addr = A.TL_STATUS o → f.apart (R.TLC.COUNT o 11) := fun f hf => .inl (by rw [hf]; exact status_ne_tlc o 11)
  have hbase : ∀ q n : Nat, ∀ (e : Dev), e = (((((d.tlCount o 11).bump (Ctr.oct o 3)).onT o fun x =>
      { x with cur := none, txq := if c = .soft then x.txq.tail else x.txq }).set (R.TL_STATUS.TX_FILL o) n).tlTxState o) →
      (e.t o).cur = none ∧ (e.t o).txq = (if c = .soft then (d.t o).txq.tail else (d.t o).txq) ∧
        e.get (R.TLC.COUNT o 11) = min (2 ^ 32 - 1) (d.get (R.TLC.COUNT o 11) + 1) := by
    rintro q n _ rfl
    rw [Dev.t_tlTxState, Dev.t_set, Dev.t_onT_same, Dev.t_bump, Dev.t_tlCount, Dev.get_tlTxState _ _ (hs _ rfl),
      Dev.get_set_apart _ _ (Fld.ok_of_ble rfl) (hs _ rfl), Dev.get_onT, Dev.get_bump, Dev.get_tlCount_same]
    exact ⟨rfl, rfl, rfl⟩
  unfold Dev.txEnd
  rw [hc]
  dsimp only
  cases c
  case train m =>
    obtain ⟨h1, h2⟩ := Dev.trnSent_keeps ((((((d.tlCount o 11).bump (Ctr.oct o 3)).onT o fun x =>
      { x with cur := none, txq := if TlCur.train m = .soft then x.txq.tail else x.txq }).set (R.TL_STATUS.TX_FILL o) _).tlTxState o)) o m 11
    dsimp only
    rw [h1, h2]
    exact hbase 0 _ _ rfl
  all_goals exact hbase 0 _ _ rfl

end

end Sys2Proof.Machine

open Sys2Proof.Machine

/-- Settles O30. -/
theorem tidelineQueues : Obligations.TidelineQueues := by
  intro o src v s d x ty kept quiet
  have hkept : d.txTyped o = true ↔ kept := by
    simp only [Dev.txTyped, typeReserved, Bool.or_eq_true, beq_iff_eq, decide_eq_true_eq]
    constructor
    · rintro (h | h | h)
      · exact .inr (.inl h)
      · exact .inl h
      · exact .inr (.inr h)
    · rintro (h | h | h)
      · exact .inr (.inl h)
      · exact .inl h
      · exact .inr (.inr h)
  refine ⟨fun hb => ?_, fun hb => ⟨fun hlen hk => ?_, fun hrej => ?_⟩, fun ha hr => ⟨fun hc => ⟨fun r hq hr16 => ?_, fun hq hm => ?_, fun hq hm ht => ?_, fun hq hm ht hne => ?_⟩,
    fun hc => ?_, fun hc hs => ?_⟩⟩
  · have h := makes_of_gate (c := .rxPop src o) (f := fun d => d.rxPop o 1) rfl hb
    rw [Dev.rxPop, if_pos (by decide)] at h
    refine h.gives ⟨?_, ?_, ?_⟩
    · dsimp only
      rw [Dev.t_setRxq]
    · dsimp only
      rw [Dev.setRxq, Dev.get_set_same _ _ _ (Fld.ok_of_ble rfl)]
      rfl
    · dsimp only
      rw [Dev.t_setRxq]
  · have h := makes_of_gate (c := .txFrameQueue src o v) (f := fun d => d.txDesc o (putBit v.toNat 31 true)) rfl hb
    obtain ⟨h1, h2⟩ := d.txDesc_queued o hlen (fun e => hk (hkept.1 e)) (bit_putBit_same v.toNat 31 true)
    exact h.gives ⟨⟨_, h1, (d.txNew_field o (k := 4) rfl _).trans (getBits_putBit_ne _ _ (.inr (by norm_num))),
      (d.txNew_field o (k := 5) rfl _).trans (getBits_putBit_ne _ _ (.inr (by norm_num)))⟩, h2⟩
  · have h := makes_of_gate (c := .txFrameQueue src o v) (f := fun d => d.txDesc o (putBit v.toNat 31 true)) rfl hb
    obtain ⟨h1, h2, h3, h4⟩ := d.txDesc_refused o (hrej.imp_right hkept.2) (bit_putBit_same v.toNat 31 true)
    exact h.gives ⟨h1, h2, fun hk => h3 (hkept.2 hk), h4⟩
  · have h := makes_of_live (c := .txFrameStart o) (f := fun d => d.txStart o) rfl ha
    obtain ⟨w, depth, he⟩ := d.txStart_gasp o hr hc hq
    rw [he] at h
    refine h.gives ⟨?_, ?_, ?_, ?_⟩
    · dsimp only
      rw [Dev.t_onT_same, Dev.t_txGo]
    · dsimp only
      rw [Dev.t_onT_same]
    · dsimp only
      rw [Dev.get_onT]
      exact Dev.txState_txGo ..
    · dsimp only
      rw [Dev.t_onT_same, Dev.t_txGo]
      exact bit_headerWord _ _ _ _ _ _ (Dev.get_lt ..) hr16 (by norm_num)
  · have h := makes_of_live (c := .txFrameStart o) (f := fun d => d.txStart o) rfl ha
    rwa [d.txStart_muted o hr hc hq hm] at h
  · have h := makes_of_live (c := .txFrameStart o) (f := fun d => d.txStart o) rfl ha
    obtain ⟨w, fir, depth, f, he, hf⟩ := d.txStart_train o hr hc hq hm ht
    rw [he] at h
    refine h.gives ⟨?_, ?_, ?_⟩
    · dsimp only
      rw [Dev.t_onT_same, (hf _).1, Dev.t_txGo]
    · dsimp only
      rw [Dev.oc_onT, Dev.oc_txGo, Dev.oc_onO_same]
    · dsimp only
      rw [Dev.t_onT_same, (hf _).2, Dev.t_txGo, Dev.t_onO]
  · have h := makes_of_live (c := .txFrameStart o) (f := fun d => d.txStart o) rfl ha
    obtain ⟨w, fir, depth, he⟩ := d.txStart_soft o hr hc hq hm ht hne
    rw [he] at h
    refine h.gives ⟨?_, ?_⟩
    · dsimp only
      rw [Dev.t_txGo]
    · dsimp only
      rw [Dev.t_txGo]
  · have h := makes_of_live (c := .txFrameEnd o) (f := fun d => if d.tlRuns o then d.txEnd o else d) rfl ha
    rw [if_pos hr] at h
    obtain ⟨h1, h2, h3⟩ := d.txEnd_spec o hc
    rw [if_pos rfl] at h2
    exact h.gives ⟨h1, h2, h3⟩
  · have h := makes_of_live (c := .txFrameEnd o) (f := fun d => if d.tlRuns o then d.txEnd o else d) rfl ha
    obtain ⟨c, hc⟩ := Option.ne_none_iff_exists'.1 hc
    rw [if_pos hr] at h
    obtain ⟨h1, h2, h3⟩ := d.txEnd_spec o hc
    rw [if_neg (fun e => hs (by rw [hc, e]))] at h2
    exact h.gives ⟨h1, h2, h3⟩

end

section
/-! Reception of a Tideline frame, from detection to its result (spec/05, R130 to R143). -/

open Sys2Proof

namespace Sys2Proof.Machine

theorem makes_of_tlLive {c : Instr} {s : State} {o : Oct} {f : Dev → Dev} (hc : exec c s = s.on fun d => d.tlLive o f) (ha : s.dev.awake o = true)
    (hr : s.dev.tlRuns o = true) : Makes c s (f s.dev) := by
  have h := makes_of_live (f := fun d => if d.tlRuns o then f d else d) hc ha
  rwa [if_pos hr] at h

section
variable (d : Dev) (o : Nat)

/-! The parts of reception. -/

theorem Dev.get_toUnconf {f : Fld} (sf m g : Nat) (h : A.TL_STATUS o ≠ f.addr) : (d.toUnconf o sf m g).get f = d.get f := by
  unfold Dev.toUnconf
  dsimp only
  rw [Dev.get_onT, Dev.get_set_reg _ _ _ _ h, Dev.get_set_reg _ _ _ _ h, Dev.flag, Dev.get_set_reg _ _ _ _ h, Dev.get_set_reg _ _ _ _ h]

/-- R139: what the receiver holds once it has turned to a signal of spreading factor sf and metric m. -/
theorem Dev.toUnconf_spec {sf m : Nat} (g : Nat) (hsf : sf < 8) (hm : m < 256) :
    (d.toUnconf o sf m g).tlRx o = 2 ∧ (d.toUnconf o sf m g).get (R.TL_STATUS.CUR_SF o) = sf ∧
    (d.toUnconf o sf m g).get (R.TL_STATUS.CUR_METRIC o) = m ∧
    (d.toUnconf o sf m g).on (R.TL_STATUS.AGC_FROZEN o) = !decide (2 ≤ d.tlRx o) ∧
    (d.toUnconf o sf m g).t o = { d.t o with wait := false, held := none, header := 0, blocks := [], delim := false, gain := g, agcAt := if decide (2 ≤ d.tlRx o) then some (d.up + 15625) else none } := by
  unfold Dev.toUnconf
  dsimp only
  refine ⟨?_, ?_, ?_, ?_, ?_⟩
  · rw [Dev.tlRx, Dev.get_onT, Dev.get_set_apart _ _ (Fld.ok_of_ble rfl) (Fld.apart_of_offset rfl rfl rfl),
      Dev.get_set_apart _ _ (Fld.ok_of_ble rfl) (Fld.apart_of_offset rfl rfl rfl), Dev.get_flag_apart _ _ _ _ (Fld.ok_of_ble rfl) (Fld.apart_of_offset rfl rfl rfl),
      Dev.get_set_same _ _ _ (Fld.ok_of_ble rfl)]
    rfl
  · rw [Dev.get_onT, Dev.get_set_apart _ _ (Fld.ok_of_ble rfl) (Fld.apart_of_offset rfl rfl rfl), Dev.get_set_same _ _ _ (Fld.ok_of_ble rfl)]
    exact Nat.mod_eq_of_lt hsf
  · rw [Dev.get_onT, Dev.get_set_same _ _ _ (Fld.ok_of_ble rfl)]
    exact Nat.mod_eq_of_lt hm
  · rw [Dev.on_onT, Dev.on_set_apart _ _ _ _ (Fld.ok_of_ble rfl) (Fld.apart_of_offset rfl rfl rfl),
      Dev.on_set_apart _ _ _ _ (Fld.ok_of_ble rfl) (Fld.apart_of_offset rfl rfl rfl), Dev.on_flag_same _ _ _ (Fld.ok_of_ble rfl) rfl]
    rfl
  · rw [Dev.t_onT_same, Dev.t_set, Dev.t_set, Dev.flag, Dev.t_set, Dev.t_set, Dev.up_set, Dev.up_set, Dev.tlRx]

theorem Dev.took_toUnconf {e : Dev} {sf : Nat} (m : Int) (g : Nat) (hsf : sf < 8) (hrx : e.tlRx o = d.tlRx o) (hup : e.up = d.up) (h0 : d.tlRx o ≠ 0) :
    (e.toUnconf o sf (ofS 8 m) g).tlRx o = 2 ∧ (e.toUnconf o sf (ofS 8 m) g).get (R.TL_STATUS.CUR_SF o) = sf ∧
    ((e.toUnconf o sf (ofS 8 m) g).get (R.TL_STATUS.CUR_METRIC o) : Int) = m % 256 ∧ ((e.toUnconf o sf (ofS 8 m) g).t o).wait = false ∧
    ((e.toUnconf o sf (ofS 8 m) g).t o).held = none ∧ ((e.toUnconf o sf (ofS 8 m) g).t o).delim = false ∧
    if d.tlRx o = 1 then (e.toUnconf o sf (ofS 8 m) g).on (R.TL_STATUS.AGC_FROZEN o) = true
    else (e.toUnconf o sf (ofS 8 m) g).on (R.TL_STATUS.AGC_FROZEN o) = false ∧ ((e.toUnconf o sf (ofS 8 m) g).t o).agcAt = some (d.up + 15625) := by
  have hm : ofS 8 m < 256 := ofS_lt 8 m
  have hmi : (ofS 8 m : Int) = m % 256 := Int.toNat_of_nonneg (Int.emod_nonneg _ (by norm_num))
  obtain ⟨h1, h2, h3, h4, h5⟩ := e.toUnconf_spec o g hsf hm
  rw [h3, h4, h5, hrx, hup]
  refine ⟨h1, h2, hmi, rfl, rfl, rfl, ?_⟩
  split
  · next h => rw [h]; rfl
  · rw [decide_eq_true (show 2 ≤ d.tlRx o by omega)]
    exact ⟨rfl, by simp only [if_true]⟩

theorem Dev.agcSettle_cases : d.agcSettle o = (d.set (R.TL_STATUS.AGC_FROZEN o) 1).onT o (fun x => { x with agcAt := none }) ∨ d.agcSettle o = d :=
  ite_eq_or_eq ..

theorem Dev.get_agcSettle {f : Fld} (h : (R.TL_STATUS.AGC_FROZEN o).apart f) : (d.agcSettle o).get f = d.get f := by
  rcases d.agcSettle_cases o with e | e <;> rw [e]
  rw [Dev.get_onT, Dev.get_set_apart _ _ (Fld.ok_of_ble rfl) h]

/-- R139: a false start is counted, and the receiver searches again. -/
theorem Dev.falseStart_spec : (d.falseStart o).tlRx o = 1 ∧ (d.falseStart o).get (R.TLC.COUNT o 4) = min (2 ^ 32 - 1) (d.get (R.TLC.COUNT o 4) + 1) := by
  rw [Dev.falseStart, Dev.get_toSearch (f := R.TLC.COUNT o 4) _ _ (.inl (status_ne_tlc o 4)) (.inl (status_ne_tlc o 4)), Dev.get_bump, Dev.get_tlCount_same]
  exact ⟨Dev.tlRx_toSearch .., rfl⟩

/-- R144: a gasp heard is recorded. -/
theorem Dev.gaspHeard (h : BitVec 32) :
    let e := (((((((d.set (R.GASP_RX.VALID o) 1).set (R.GASP_RX.REASON o) (getBits h.toNat 11 8)).set (R.GASP_RX.SF o) (getBits h.toNat 31 29)).set (R.GASP_RX.ADDR o)
      (getBits h.toNat 23 12)).inc (R.GASP_RX.COUNT o)).bump (Ctr.oct o 4)).notice o 2 2 0).toSearch o
    e.tlRx o = 1 ∧ e.on (R.GASP_RX.VALID o) = true ∧ e.get (R.GASP_RX.ADDR o) = h.toNat / 4096 % 4096 ∧ e.get (R.GASP_RX.REASON o) = h.toNat / 256 % 16 ∧
      e.get (R.GASP_RX.COUNT o) = min 255 (d.get (R.GASP_RX.COUNT o) + 1) := by
  have hs : ∀ (e : Dev) (f : Fld), f.addr = A.GASP_RX o → (e.toSearch o).get f = e.get f := fun e f hf =>
    e.get_toSearch o (.inl (by rw [hf]; exact ne_of_offset rfl rfl rfl)) (.inl (by rw [hf]; exact ne_of_offset rfl rfl rfl))
  dsimp only
  refine ⟨Dev.tlRx_toSearch .., ?_, ?_, ?_, ?_⟩
  · rw [Dev.on, hs _ _ rfl, Dev.get_notice, Dev.get_bump, Dev.get_inc_apart _ _ _ _ (Fld.ok_of_ble rfl) (Fld.apart_of_offset rfl rfl rfl),
      Dev.get_set_apart _ _ (Fld.ok_of_ble rfl) (Fld.apart_of_offset rfl rfl rfl), Dev.get_set_apart _ _ (Fld.ok_of_ble rfl) (Fld.apart_of_offset rfl rfl rfl),
      Dev.get_set_apart _ _ (Fld.ok_of_ble rfl) (Fld.apart_of_offset rfl rfl rfl), Dev.get_set_same _ _ _ (Fld.ok_of_ble rfl)]
    rfl
  · rw [hs _ _ rfl, Dev.get_notice, Dev.get_bump, Dev.get_inc_apart _ _ _ _ (Fld.ok_of_ble rfl) (Fld.apart_of_offset rfl rfl rfl),
      Dev.get_set_same _ _ _ (Fld.ok_of_ble rfl)]
    exact Nat.mod_mod_of_dvd _ (dvd_refl _)
  · rw [hs _ _ rfl, Dev.get_notice, Dev.get_bump, Dev.get_inc_apart _ _ _ _ (Fld.ok_of_ble rfl) (Fld.apart_of_offset rfl rfl rfl),
      Dev.get_set_apart _ _ (Fld.ok_of_ble rfl) (Fld.apart_of_offset rfl rfl rfl), Dev.get_set_apart _ _ (Fld.ok_of_ble rfl) (Fld.apart_of_offset rfl rfl rfl),
      Dev.get_set_same _ _ _ (Fld.ok_of_ble rfl)]
    exact Nat.mod_mod_of_dvd _ (dvd_refl _)
  · rw [hs _ _ rfl, Dev.get_notice, Dev.get_bump, Dev.get_inc_same _ _ _ (Fld.ok_of_ble rfl),
      Dev.get_set_apart _ _ (Fld.ok_of_ble rfl) (Fld.apart_of_offset rfl rfl rfl), Dev.get_set_apart _ _ (Fld.ok_of_ble rfl) (Fld.apart_of_offset rfl rfl rfl),
      Dev.get_set_apart _ _ (Fld.ok_of_ble rfl) (Fld.apart_of_offset rfl rfl rfl), Dev.get_set_apart _ _ (Fld.ok_of_ble rfl) (Fld.apart_of_offset rfl rfl rfl)]
    rfl

/-! Detection: one correlator. -/

/-- The correlator's last four symbol decisions agree (R131). -/
def Dev.heard (c : TlDetect) (gain : Nat) : Bool := agree (detSymbols c txFirReset (if d.agcFrozen o then (d.t o).gain else gain))

theorem Dev.detection_none {c : TlDetect} {cur : Int} {gain : Nat}
    (h : d.heard o c gain = false ∨ (c.metric < d.detThr o c.sf ∧ -128 ≤ c.metric ∧ c.metric ≤ 127)) : d.detection o [c] cur gain = d := by
  unfold Dev.detection
  dsimp only
  have hl : (agree (detSymbols c txFirReset (if d.agcFrozen o then (d.t o).gain else gain)) && decide (d.detThr o c.sf ≤ clampI (-128) 127 c.metric)) = false := by
    rcases h with h | ⟨h, h1, h2⟩
    · rw [Dev.heard] at h
      rw [h, Bool.false_and]
    · rw [clampI_eq _ (by norm_num), min_eq_right h2, max_eq_right h1, decide_eq_false (by omega), Bool.and_false]
  rw [List.filter_cons_of_neg (by rw [hl]; simp)]
  rfl

/-- What a detection that reaches its threshold does, by the receiver's state. -/
theorem Dev.detection_eq {c : TlDetect} {cur : Int} {gain : Nat} (h1 : -128 ≤ c.metric) (h2 : c.metric ≤ 127) (hthr : d.detThr o c.sf ≤ c.metric)
    (hh : d.heard o c gain = true) (hn : c.near = false) (h3 : -128 ≤ cur) (h4 : cur ≤ 127) (h0 : d.tlRx o ≠ 0) :
    d.detection o [c] cur gain =
      let g := if d.agcFrozen o then (d.t o).gain else gain
      let m := ofS 8 c.metric
      if d.tlRx o = 1 then
        if (d.t o).wait then
          match (d.t o).held with
          | none => d.onT o fun x => { x with held := some (c.sf.val, m) }
          | some (hs, hm) => (d.tlCount o 6).onT o fun x =>
            { x with held := some ((betterDetect (hs, toS 8 hm) (c.sf.val, c.metric)).1, ofS 8 (betterDetect (hs, toS 8 hm) (c.sf.val, c.metric)).2) }
        else d.toUnconf o c.sf.val m g
      else if d.tlRx o = 2 then
        if 0 < c.metric - cur then (d.tlCount o 5).toUnconf o c.sf.val m g else d.tlCount o 6
      else if 4 * (d.get (R.TL_CTRL.CAPTURE o) : Int) < c.metric - cur then
        ((d.tlCount o 2).queueRx o 2).toUnconf o c.sf.val m g
      else d.tlCount o 6 := by
  have hm : clampI (-128) 127 c.metric = c.metric := by rw [clampI_eq _ (by norm_num), min_eq_right h2, max_eq_right h1]
  have hc : clampI (-128) 127 cur = cur := by rw [clampI_eq _ (by norm_num), min_eq_right h4, max_eq_right h3]
  rw [Dev.heard] at hh
  unfold Dev.detection
  dsimp only
  rw [List.filter_cons_of_pos (by rw [hh, hn, hm, decide_eq_true hthr]; simp), List.filter_nil, List.map_cons, List.map_nil, hm, hc]
  dsimp only
  rw [if_neg h0]
  rfl

/-! The result of a frame. -/

/-- The payload received, first bit most significant. -/
def Dev.rxBits : Nat := (d.t o).blocks.foldl (fun v b => v * 2 ^ 256 + b.1.toNat) 0

theorem Dev.rxBits_def : (d.t o).blocks.foldl (fun v b => v * 2 ^ 256 + b.1.toNat) 0 = d.rxBits o := rfl

theorem Dev.frameResult_bad {crc : BitVec 32} {n : Nat} (hn : n = getBits (d.t o).header 27 25 + 1) (h3 : d.tlRx o = 3)
    (hl : (d.t o).blocks.length = n) (hc : crc32 (d.rxBits o) (256 * n) ≠ crc.toNat) :
    d.frameResult o crc = (((d.tlCount o 1).bump (Ctr.oct o 1)).queueRx o 1).toSearch o := by
  subst hn
  unfold Dev.frameResult
  dsimp only
  rw [if_pos ⟨h3, hl⟩, Dev.rxBits_def, if_neg hc]

theorem Dev.frameResult_ok {crc : BitVec 32} {n : Nat} (hn : n = getBits (d.t o).header 27 25 + 1) (h3 : d.tlRx o = 3)
    (hl : (d.t o).blocks.length = n) (hc : crc32 (d.rxBits o) (256 * n) = crc.toNat) (hty : d.rxBits o / 2 ^ (256 * n - 8) ≠ 1) :
    d.frameResult o crc = (if typeReserved (d.rxBits o / 2 ^ (256 * n - 8)) then ((d.tlCount o 0).bump (Ctr.oct o 0)).tlCount o 8
      else ((d.tlCount o 0).bump (Ctr.oct o 0)).queueRx o 0).toSearch o := by
  subst hn
  unfold Dev.frameResult
  dsimp only
  rw [if_pos ⟨h3, hl⟩, Dev.rxBits_def, if_pos hc, if_neg (fun h => hty h.1)]
  simp only [hty, false_or]

end

end Sys2Proof.Machine

open Sys2Proof.Machine

/-- Settles O29. -/
theorem tidelineReception : Obligations.TidelineReception := by
  intro o c cur gain signs h ch crc s ha hr d x k m code heard n took hit a passes mine len bits
  have hk : k.val < 8 := by omega
  have hdet := makes_of_tlLive (c := .detection o [c] ⟨cur, gain⟩) (f := fun d => d.detection o [c] cur gain) rfl ha hr
  have htc : ∀ (i n : Nat) (f : Fld), f.addr = A.TL_STATUS o → (d.tlCount o i n).get f = d.get f := fun i n f hf =>
    Dev.get_tlCount _ _ _ (by rw [hf]; exact tlc_ne_status o i)
  have hsf : getBits h.toNat 31 29 = h.toNat / 2 ^ 29 := Nat.mod_eq_of_lt (by norm_num; omega)
  have hhdr : d.tlRx o = 2 → x.delim = true → ¬ (d.tlRx o ≠ 2 ∨ (!(d.t o).delim) = true) := fun h1 h2 => by
    rw [show (d.t o).delim = true from h2]
    simpa using h1
  have hpass : passes → ¬ (crc8 (h.toNat / 256) 24 ≠ h.toNat % 256 ∨ h.toNat / 2 ^ 29 ≠ d.get (R.TL_STATUS.CUR_SF o)) := fun ⟨h1, h2⟩ hn =>
    hn.elim (fun hn => hn h1) fun hn => hn h2
  have hmine_iff : ¬ (getBits h.toNat 23 12 ≠ d.get (R.TL_ADDR.ADDR o) ∧ getBits h.toNat 23 12 ≠ 0xFFF ∧ (!d.on (R.TL_CTRL.ACCEPT_ALL o)) = true) ↔ mine := by
    have : getBits h.toNat 23 12 = a := rfl
    rw [this]
    simp only [mine, Bool.not_eq_true', not_and_or, not_not, Bool.not_eq_false]
  have hres : ∀ (e : Dev) (i : Nat), (e.toSearch o).get (R.TLC.COUNT o i) = e.get (R.TLC.COUNT o i) := fun e i =>
    e.get_toSearch o (.inl (status_ne_tlc o i)) (.inl (status_ne_tlc o i))
  have hlen : len = getBits (d.t o).header 27 25 + 1 := rfl
  refine ⟨fun ⟨h1, h2, h3, h4, h5, h6, h7⟩ => ?_, fun hno => ?_, fun hrx hw => ⟨fun hh => ?_, fun hh => ?_⟩, fun hrx => ⟨fun hp => ?_, fun hp => ?_, fun hp => ?_⟩,
    fun hrx hd => ⟨fun hp => ?_, fun hp hb => ?_, fun hp hb hmine => ?_, fun hp hb hmine => ?_⟩, fun hrx => ⟨fun hl => ?_, fun hl hq hc => ?_, fun hl hq hc ht => ?_, fun hl hc ht => ?_⟩⟩
  · have heq := d.detection_eq o h1 h2 h3 h4 h5 h6 h7
    dsimp only at heq
    refine ⟨fun hrx hw => ?_, fun hrx hw hh => ?_, fun hrx hlt => ?_, fun hrx hlt => ?_, fun hle => ?_⟩
    · rw [heq (by omega), if_pos hrx, if_neg (by rw [hw]; exact Bool.false_ne_true)] at hdet
      exact hdet.gives (d.took_toUnconf o m _ hk rfl rfl (by omega))
    · rw [heq (by omega), if_pos hrx, if_pos hw, hh] at hdet
      exact hdet
    · rw [heq (by omega), if_neg (by omega), if_pos hrx, if_pos (by omega)] at hdet
      refine hdet.gives ⟨d.took_toUnconf o m _ hk (htc 5 1 _ rfl) ((TlStep.refl d).tlCount (by norm_num)).up (by omega), ?_⟩
      dsimp only
      rw [Dev.get_toUnconf _ _ _ _ _ (status_ne_tlc o 5), Dev.get_tlCount_same]
    · rw [heq (by omega), if_neg (by omega), if_neg (by omega), if_pos (by omega)] at hdet
      refine hdet.gives ⟨d.took_toUnconf o m _ hk ?_ ((TlStep.refl d).tlCount (by norm_num)).queueRx.up (by omega), ?_⟩
      · rw [Dev.tlRx, Dev.get_queueRx _ _ _ (tlc_ne_status o 10) (Fld.apart_of_offset rfl rfl rfl), htc 2 1 _ rfl, Dev.tlRx]
      · dsimp only
        rw [Dev.get_toUnconf _ _ _ _ _ (status_ne_tlc o 2), Dev.get_queueRx (f := R.TLC.COUNT o 2) _ _ _ (tlc_ne (show (10 : Nat) ≠ 2 by norm_num)) (.inl (status_ne_tlc o 2)),
          Dev.get_tlCount_same]
    · have hr : d.detection o [c] cur gain = d.tlCount o 6 := by
        rw [heq (by omega), if_neg (by omega)]
        rcases hle with ⟨hrx, hle⟩ | ⟨hrx, hle⟩
        · rw [if_pos hrx, if_neg (by omega)]
        · rw [if_neg (by omega), if_neg (by omega)]
      rw [hr] at hdet
      exact hdet.gives ⟨Dev.get_tlCount_same .., RegsOnly.set (.refl _ _) 0 rfl⟩
  · rwa [d.detection_none o hno] at hdet
  · have hs := makes_of_tlLive (c := .searchReady o) (f := fun d => d.searchReady o) rfl ha hr
    rw [Dev.searchReady, if_pos ⟨hrx, hw⟩, hh] at hs
    exact hs
  · have hs := makes_of_tlLive (c := .searchReady o) (f := fun d => d.searchReady o) rfl ha hr
    rw [Dev.searchReady, if_pos ⟨hrx, hw⟩, hh] at hs
    exact hs.gives (d.took_toUnconf o m _ hk rfl rfl (by omega))
  · have hs := makes_of_tlLive (c := .delimiterMiss o signs) (f := fun d => d.delimiter o signs) rfl ha hr
    rw [Dev.delimiter, if_neg (not_not.2 hrx), if_pos (by omega)] at hs
    obtain ⟨h1, h2⟩ := (d.agcSettle o).falseStart_spec o
    rw [Dev.get_agcSettle (f := R.TLC.COUNT o 4) _ _ (.inl (status_ne_tlc o 4))] at h2
    exact hs.gives ⟨h1, h2⟩
  · have hs := makes_of_tlLive (c := .delimiterMiss o signs) (f := fun d => d.delimiter o signs) rfl ha hr
    rw [Dev.delimiter, if_neg (not_not.2 hrx), if_neg (by omega)] at hs
    refine hs.gives ⟨?_, ?_⟩
    · dsimp only
      rw [Dev.tlRx, Dev.get_onT, Dev.get_agcSettle _ _ (Fld.apart_of_offset rfl rfl rfl)]
      exact hrx
    · dsimp only
      rw [Dev.t_onT_same]
  · have hs := makes_of_tlLive (c := .headerDecision o h) (f := fun d => d.headerDecision o h) rfl ha hr
    rwa [Dev.headerDecision, if_pos (.inr (by rw [show (d.t o).delim = false from hp]; rfl))] at hs
  · have hs := makes_of_tlLive (c := .headerDecision o h) (f := fun d => d.headerDecision o h) rfl ha hr
    rw [Dev.headerDecision, if_neg (hhdr hrx hd)] at hs
    dsimp only at hs
    rw [if_pos (by rw [hsf]; exact not_and_or.1 hp)] at hs
    obtain ⟨h1, h2⟩ := d.falseStart_spec o
    exact hs.gives ⟨h1, h2⟩
  · have hs := makes_of_tlLive (c := .headerDecision o h) (f := fun d => d.headerDecision o h) rfl ha hr
    rw [Dev.headerDecision, if_neg (hhdr hrx hd)] at hs
    dsimp only at hs
    rw [if_neg (by rw [hsf]; exact hpass hp), if_pos hb] at hs
    exact hs.gives (d.gaspHeard o h)
  · have hs := makes_of_tlLive (c := .headerDecision o h) (f := fun d => d.headerDecision o h) rfl ha hr
    rw [Dev.headerDecision, if_neg (hhdr hrx hd)] at hs
    dsimp only at hs
    rw [if_neg (by rw [hsf]; exact hpass hp), if_neg (by rw [hb]; exact Bool.false_ne_true), if_neg (hmine_iff.2 hmine)] at hs
    refine hs.gives ⟨?_, ?_, ?_⟩
    · dsimp only
      rw [Dev.tlRx, Dev.get_onT, Dev.get_set_same _ _ _ (Fld.ok_of_ble rfl)]
      rfl
    · dsimp only
      rw [Dev.t_onT_same]
    · dsimp only
      rw [Dev.t_onT_same]
  · have hs := makes_of_tlLive (c := .headerDecision o h) (f := fun d => d.headerDecision o h) rfl ha hr
    rw [Dev.headerDecision, if_neg (hhdr hrx hd)] at hs
    dsimp only at hs
    rw [if_neg (by rw [hsf]; exact hpass hp), if_neg (by rw [hb]; exact Bool.false_ne_true), if_pos (not_not.1 (mt hmine_iff.1 hmine))] at hs
    refine hs.gives ⟨Dev.tlRx_toSearch .., ?_⟩
    dsimp only
    rw [Dev.get_toSearch (f := R.TLC.COUNT o 7) _ _ (.inl (status_ne_tlc o 7)) (.inl (status_ne_tlc o 7)), Dev.get_tlCount_same]
  · have hs := makes_of_tlLive (c := .ldpcBlockRelease o ch) (f := fun d => d.ldpcRelease o ch) rfl ha hr
    rw [Dev.ldpcRelease, if_pos ⟨hrx, hl⟩] at hs
    refine hs.gives ⟨?_, ?_⟩
    · dsimp only
      rw [Dev.t_onT_same]
      split
      · rfl
      · rw [Dev.t_tlCount]
    · dsimp only
      rw [Dev.get_onT]
      split
      · rfl
      · rw [Dev.get_tlCount_same]
  · have hs := makes_of_tlLive (c := .frameResult o crc) (f := fun d => d.frameResult o crc) rfl ha hr
    rw [d.frameResult_bad o hlen hrx hl hc] at hs
    refine hs.gives ⟨Dev.tlRx_toSearch .., ?_, ((d.tlCount o 1).bump (Ctr.oct o 1)).rxDescriptor o 1, ?_, ?_, ?_⟩
    · dsimp only
      rw [hres, Dev.get_queueRx (f := R.TLC.COUNT o 1) _ _ _ (tlc_ne (show (10 : Nat) ≠ 1 by norm_num)) (.inl (status_ne_tlc o 1)), Dev.get_bump, Dev.get_tlCount_same]
    · dsimp only
      rw [Dev.t_toSearch, Dev.t_queueRx, Dev.t_bump, Dev.t_tlCount, if_neg (Nat.not_le.2 hq)]
    · rfl
    · dsimp only [Dev.rxDescriptor]
      rw [Dev.t_bump, Dev.t_tlCount]
  · have hs := makes_of_tlLive (c := .frameResult o crc) (f := fun d => d.frameResult o crc) rfl ha hr
    have hty : d.rxBits o / 2 ^ (256 * len - 8) = 2 := ht
    rw [d.frameResult_ok o hlen hrx hl hc (by omega), hty, if_neg (by decide)] at hs
    refine hs.gives ⟨Dev.tlRx_toSearch .., ?_, ((d.tlCount o 0).bump (Ctr.oct o 0)).rxDescriptor o 0, ?_, ?_, ?_, ?_⟩
    · dsimp only
      rw [hres, Dev.get_queueRx (f := R.TLC.COUNT o 0) _ _ _ (tlc_ne (show (10 : Nat) ≠ 0 by norm_num)) (.inl (status_ne_tlc o 0)), Dev.get_bump, Dev.get_tlCount_same]
    · dsimp only
      rw [Dev.t_toSearch, Dev.t_queueRx, Dev.t_bump, Dev.t_tlCount, if_neg (Nat.not_le.2 hq)]
    · rfl
    · dsimp only [Dev.rxDescriptor]
      rw [Dev.t_bump, Dev.t_tlCount]
    · dsimp only [Dev.rxDescriptor]
      rw [Dev.t_bump, Dev.t_tlCount, if_pos rfl]
  · have hs := makes_of_tlLive (c := .frameResult o crc) (f := fun d => d.frameResult o crc) rfl ha hr
    have hty : d.rxBits o / 2 ^ (256 * len - 8) = 0 ∨ (5 ≤ d.rxBits o / 2 ^ (256 * len - 8) ∧ d.rxBits o / 2 ^ (256 * len - 8) < 128) := ht
    have hres8 : typeReserved (d.rxBits o / 2 ^ (256 * len - 8)) = true := by
      rw [typeReserved, Bool.or_eq_true, beq_iff_eq, decide_eq_true_eq]
      exact hty
    rw [d.frameResult_ok o hlen hrx hl hc (by omega), if_pos hres8] at hs
    refine hs.gives ⟨Dev.tlRx_toSearch .., ?_, ?_, ?_⟩
    · dsimp only
      rw [hres, Dev.get_tlCount (f := R.TLC.COUNT o 0) _ _ _ (tlc_ne (show (8 : Nat) ≠ 0 by norm_num)), Dev.get_bump, Dev.get_tlCount_same]
    · dsimp only
      rw [hres, Dev.get_tlCount_same, Dev.get_bump, Dev.get_tlCount (f := R.TLC.COUNT o 8) _ _ _ (tlc_ne (show (0 : Nat) ≠ 8 by norm_num))]
    · dsimp only
      rw [Dev.t_toSearch, Dev.t_tlCount, Dev.t_bump, Dev.t_tlCount]

end

section
/-! The FEC statistics of ports and lanes (spec/04, R95, R98, R108 to R110). -/

open Sys2Proof

namespace Sys2Proof.Machine

theorem satAdd_min (top v n : Nat) : satAdd top v n = min top (v + n) := by
  rw [satAdd]
  split <;> omega

section
variable (d : Dev) (o p : Nat)

theorem Dev.pt_onPt_same (f : PortSt → PortSt) : (d.onPt o p f).pt o p = f (d.pt o p) := Tbl.get_set_same ..

theorem Dev.pt_onPt_ne {q : Nat} (f : PortSt → PortSt) (h : q ≠ p) : (d.onPt o q f).pt o p = d.pt o p :=
  Tbl.get_set_ne _ _ _ _ (by omega)

theorem Dev.pt_set (f : Fld) (v : Nat) : (d.set f v).pt o p = d.pt o p := rfl

theorem Dev.pt_bump (n k : Nat) : (d.bump n k).pt o p = d.pt o p := rfl

theorem Dev.pt_onL (g : Nat) (f : LaneSt → LaneSt) : (d.onL g f).pt o p = d.pt o p := rfl

theorem Dev.portStep_ne_zero (h : d.portUp o p = true) : d.portState o p = 3 := beq_iff_eq.1 h

/-! A codeword (R93 to R95). -/

/-- The frame of R110: errors of a lane are counted. -/
theorem Dev.berErrors_cases (g n : Nat) :
    d.berErrors g n = ((d.bump (Ctr.lane g 2) n).onL g fun x => { x with ber := x.ber + n }) ∨ d.berErrors g n = d.bump (Ctr.lane g 2) n := ite_eq_or_eq ..

theorem Dev.pt_symbolFixed (i v q : Nat) : (d.symbolFixed o p i v).pt o q = d.pt o q := by
  unfold Dev.symbolFixed
  dsimp only
  rcases Dev.berErrors_cases ((d.inc (R.SYM_ERR.COUNT o (p + laneOfSymbol (d.portWidth o) i)) 1).bump (Ctr.lane (8 * o + (p + laneOfSymbol (d.portWidth o) i)) 3) 1)
    (8 * o + (p + laneOfSymbol (d.portWidth o) i)) (popCount v 10) with h | h <;> rw [h]
  · rw [Dev.pt_onL, Dev.pt_bump, Dev.pt_bump, Dev.inc, Dev.pt_set]
  · rw [Dev.pt_bump, Dev.pt_bump, Dev.inc, Dev.pt_set]

/-- A codeword is taken: the other of its pair is next. -/
def Dev.cwTaken (dsc : List Bool) : Dev := d.onPt o p fun x => { x with half := !(d.pt o p).half, cwNo := x.cwNo + 1, dsc }

/-- What a codeword with its errors found counts at its port. -/
def Dev.cwFound (dsc : List Bool) (blks : List Blk) (k : Nat) : Dev :=
  (d.cwTaken o p dsc).onPt o p fun x =>
    { x with cw := satAdd (2 ^ 64 - 1) x.cw 1, corr := satAdd (2 ^ 64 - 1) x.corr (if k = 0 then 0 else 1), sym := satAdd (2 ^ 64 - 1) x.sym k,
             hist := Tbl.set 0 x.hist k (satAdd (2 ^ 32 - 1) (Tbl.get 0 x.hist k) 1), uncRun := 0, blks }

/-- What an uncorrectable codeword counts. -/
def Dev.cwLost (dsc : List Bool) : Dev :=
  (d.cwTaken o p dsc).onPt o p fun x =>
    { x with cw := satAdd (2 ^ 64 - 1) x.cw 1, uncorr := satAdd (2 ^ 32 - 1) x.uncorr 1, uncRun := x.uncRun + 1, blks := List.replicate 80 errorBlk,
             badCw := x.badCw ++ [x.cwNo - 1] }

theorem Dev.codeword_found {r : List Nat} {l : List (Nat × Nat)} (hu : d.portUp o p = true) (hf : rsErrors r = some l) : ∃ dsc blks,
    d.codeword o p r = l.foldl (fun e x => e.symbolFixed o p (2 * x.1 + b2n (d.pt o p).half) x.2) (d.cwFound o p dsc blks l.length) := by
  refine ⟨(messageBlks (d.pt o p).dsc (fixErrors r l)).2, (messageBlks (d.pt o p).dsc (fixErrors r l)).1, ?_⟩
  unfold Dev.codeword
  dsimp only
  rw [if_neg (by rw [hu]; exact Bool.false_ne_true), hf]
  rfl

theorem Dev.codeword_lost {r : List Nat} (hu : d.portUp o p = true) (hf : rsErrors r = none) : ∃ dsc, d.codeword o p r =
    if 16 ≤ ((d.cwLost o p dsc).pt o p).uncRun then ((d.cwLost o p dsc).portDown o p).set (R.PORT_STATUS.HI_SER o p) 1 else d.cwLost o p dsc := by
  refine ⟨(messageBlks (d.pt o p).dsc (fixErrors r [])).2, ?_⟩
  unfold Dev.codeword
  dsimp only
  rw [if_neg (by rw [hu]; exact Bool.false_ne_true), hf]
  rfl

theorem Dev.pt_codeword_found {r : List Nat} {l : List (Nat × Nat)} (hu : d.portUp o p = true) (hf : rsErrors r = some l) : ∃ dsc blks,
    (d.codeword o p r).pt o p = (d.cwFound o p dsc blks l.length).pt o p := by
  obtain ⟨dsc, blks, h⟩ := d.codeword_found o p hu hf
  exact ⟨dsc, blks, by rw [h]; exact foldl_keeps (fun e : Dev => e.pt o p) (fun e x => e.pt_symbolFixed o p _ _ p) l _⟩

theorem Dev.pt_cwLost (dsc : List Bool) : ((d.cwLost o p dsc).pt o p).cw = min (2 ^ 64 - 1) ((d.pt o p).cw + 1) ∧
    ((d.cwLost o p dsc).pt o p).uncorr = min (2 ^ 32 - 1) ((d.pt o p).uncorr + 1) ∧ ((d.cwLost o p dsc).pt o p).uncRun = (d.pt o p).uncRun + 1 ∧
    ((d.cwLost o p dsc).pt o p).corr = (d.pt o p).corr ∧ ((d.cwLost o p dsc).pt o p).sym = (d.pt o p).sym ∧
    ((d.cwLost o p dsc).pt o p).hist = (d.pt o p).hist ∧ ((d.cwLost o p dsc).pt o p).half = (!(d.pt o p).half) ∧
    ((d.cwLost o p dsc).pt o p).blks = List.replicate 80 errorBlk := by
  simp -implicitDefEqProofs only [Dev.cwLost, Dev.cwTaken, Dev.pt_onPt_same, satAdd_min, and_self]

theorem Dev.pt_cwFound (dsc : List Bool) (blks : List Blk) (k : Nat) : ((d.cwFound o p dsc blks k).pt o p).cw = min (2 ^ 64 - 1) ((d.pt o p).cw + 1) ∧
    ((d.cwFound o p dsc blks k).pt o p).corr = (if k = 0 then min (2 ^ 64 - 1) (d.pt o p).corr else min (2 ^ 64 - 1) ((d.pt o p).corr + 1)) ∧
    ((d.cwFound o p dsc blks k).pt o p).sym = min (2 ^ 64 - 1) ((d.pt o p).sym + k) ∧
    ((d.cwFound o p dsc blks k).pt o p).uncorr = (d.pt o p).uncorr ∧ ((d.cwFound o p dsc blks k).pt o p).uncRun = 0 ∧
    ((d.cwFound o p dsc blks k).pt o p).half = (!(d.pt o p).half) ∧
    Tbl.get 0 ((d.cwFound o p dsc blks k).pt o p).hist k = min (2 ^ 32 - 1) (Tbl.get 0 (d.pt o p).hist k + 1) := by
  simp -implicitDefEqProofs only [Dev.cwFound, Dev.cwTaken, Dev.pt_onPt_same, satAdd_min, Tbl.get_set_same, true_and, and_true]
  split <;> rfl

/-! A snapshot (R109). -/

/-- The seven counts of a slot, copied. -/
def Dev.snapCounts (x : PortSt) : Dev :=
  ((((((d.set (R.CW_LO.COUNT o p) x.cw).set (R.CW_HI.COUNT o p) (x.cw / 2 ^ 32)).set (R.CORR_LO.COUNT o p) x.corr).set (R.CORR_HI.COUNT o p) (x.corr / 2 ^ 32)).set
    (R.UNCORR.COUNT o p) x.uncorr).set (R.SYM_LO.COUNT o p) x.sym).set (R.SYM_HI.COUNT o p) (x.sym / 2 ^ 32)

/-- Its histogram, copied. -/
def Dev.snapHist (x : PortSt) : Dev := (List.range 16).foldl (fun d k => d.set (R.HIST.COUNT o p k) (Tbl.get 0 x.hist k)) d

theorem Dev.snapSlot_cases (b : Bool) : d.snapSlot o p b = if b then
    ((d.snapCounts o p (d.pt o p)).snapHist o p (d.pt o p)).onPt o p fun x => { x with cw := 0, corr := 0, uncorr := 0, sym := 0, hist := [] }
    else (d.snapCounts o p (d.pt o p)).snapHist o p (d.pt o p) := rfl

theorem Dev.pt_snapRegs (x : PortSt) (q : Nat) : ((d.snapCounts o p x).snapHist o p x).pt o q = d.pt o q := by
  have h : ∀ e : Dev, (e.snapHist o p x).pt o q = e.pt o q := fun e => foldl_keeps (fun e : Dev => e.pt o q) (fun e k => e.pt_set o q _ _) _ e
  rw [h, Dev.snapCounts, Dev.pt_set, Dev.pt_set, Dev.pt_set, Dev.pt_set, Dev.pt_set, Dev.pt_set, Dev.pt_set]

theorem Dev.reg_snapHist (x : PortSt) {a : Nat} (h : ∀ k < 16, A.HIST o p k ≠ a) : (d.snapHist o p x).reg a = d.reg a :=
  foldl_keeps_mem (fun e : Dev => e.reg a) _ (fun k hk e => Dev.reg_set_ne (a := a) e (R.HIST.COUNT o p k) _ (h k (List.mem_range.1 hk))) d

omit d in
/-- Two registers of the counts of a slot. -/
theorem slotRegs_apart {o p : Nat} {f g : Fld} {i j : Nat} (hf : f.addr = octBase o + i + p * 128) (hg : g.addr = octBase o + j + p * 128)
    (h : Nat.beq i j = false) : f.apart g := by
  have := Nat.ne_of_beq_eq_false h
  exact .inl (by omega)

/-- The registers of the counts of slot p. -/
theorem Dev.reg_snapSlot (b : Bool) {a : Nat} (h : a < A.CW_LO o p ∨ A.CW_LO o p + 0x80 ≤ a) : (d.snapSlot o p b).reg a = d.reg a := by
  have hc : ((d.snapCounts o p (d.pt o p)).snapHist o p (d.pt o p)).reg a = d.reg a := by
    simp only [A.CW_LO] at h
    rw [Dev.reg_snapHist _ _ _ _ fun k hk => by simp only [A.HIST]; omega, Dev.snapCounts,
      Dev.reg_set_ne (a := a) _ (R.SYM_HI.COUNT o p) _ (by simp only [R.SYM_HI.COUNT, A.SYM_HI]; omega),
      Dev.reg_set_ne (a := a) _ (R.SYM_LO.COUNT o p) _ (by simp only [R.SYM_LO.COUNT, A.SYM_LO]; omega),
      Dev.reg_set_ne (a := a) _ (R.UNCORR.COUNT o p) _ (by simp only [R.UNCORR.COUNT, A.UNCORR]; omega),
      Dev.reg_set_ne (a := a) _ (R.CORR_HI.COUNT o p) _ (by simp only [R.CORR_HI.COUNT, A.CORR_HI]; omega),
      Dev.reg_set_ne (a := a) _ (R.CORR_LO.COUNT o p) _ (by simp only [R.CORR_LO.COUNT, A.CORR_LO]; omega),
      Dev.reg_set_ne (a := a) _ (R.CW_HI.COUNT o p) _ (by simp only [R.CW_HI.COUNT, A.CW_HI]; omega),
      Dev.reg_set_ne (a := a) _ (R.CW_LO.COUNT o p) _ (by simp only [R.CW_LO.COUNT, A.CW_LO]; omega)]
  rw [Dev.snapSlot_cases]
  split
  · rw [Dev.reg_onPt, hc]
  · exact hc

theorem Dev.pt_snapSlot_ne (b : Bool) {q : Nat} (h : q ≠ p) : (d.snapSlot o q b).pt o p = d.pt o p := by
  rw [Dev.snapSlot_cases]
  split
  · rw [Dev.pt_onPt_ne _ _ _ _ h, Dev.pt_snapRegs]
  · rw [Dev.pt_snapRegs]

/-- What the snapshot of slot p shows. -/
def Dev.shows (x : PortSt) : Prop :=
  d.get (R.CW_LO.COUNT o p) = x.cw % 2 ^ 32 ∧ d.get (R.CW_HI.COUNT o p) = x.cw / 2 ^ 32 % 2 ^ 32 ∧ d.get (R.CORR_LO.COUNT o p) = x.corr % 2 ^ 32 ∧
  d.get (R.UNCORR.COUNT o p) = x.uncorr % 2 ^ 32 ∧ d.get (R.SYM_LO.COUNT o p) = x.sym % 2 ^ 32 ∧
  ∀ h, h < 16 → d.get (R.HIST.COUNT o p h) = Tbl.get 0 x.hist h % 2 ^ 32

theorem Dev.shows_congr {e : Dev} {x : PortSt} (h : ∀ a, A.CW_LO o p ≤ a → a < A.CW_LO o p + 0x80 → e.reg a = d.reg a) (hs : d.shows o p x) : e.shows o p x := by
  obtain ⟨h1, h2, h3, h4, h5, h6⟩ := hs
  have hg : ∀ f : Fld, A.CW_LO o p ≤ f.addr → f.addr < A.CW_LO o p + 0x80 → e.get f = d.get f := fun f h1 h2 => by rw [Dev.get, h _ h1 h2, Dev.get]
  refine ⟨(hg _ ?_ ?_).trans h1, (hg _ ?_ ?_).trans h2, (hg _ ?_ ?_).trans h3, (hg _ ?_ ?_).trans h4, (hg _ ?_ ?_).trans h5, fun k hk => (hg _ ?_ ?_).trans (h6 k hk)⟩ <;>
  simp only [R.CW_LO.COUNT, R.CW_HI.COUNT, R.CORR_LO.COUNT, R.UNCORR.COUNT, R.SYM_LO.COUNT, R.HIST.COUNT, A.CW_LO, A.CW_HI, A.CORR_LO, A.UNCORR, A.SYM_LO, A.HIST] <;>
  omega

theorem Dev.shows_snapSlot (b : Bool) : (d.snapSlot o p b).shows o p (d.pt o p) := by
  have hfold : ∀ e : Dev, ∀ k ∈ List.range 16, (e.snapHist o p (d.pt o p)).get (R.HIST.COUNT o p k) = Tbl.get 0 (d.pt o p).hist k % 2 ^ 32 := fun e =>
    (foldl_establishes (P := fun k (e : Dev) => e.get (R.HIST.COUNT o p k) = Tbl.get 0 (d.pt o p).hist k % 2 ^ 32) (I := fun _ => True) (List.range 16)
      (fun _ _ _ _ => trivial) (fun e k _ _ => Dev.get_set_same _ _ _ (Fld.ok_of_ble rfl))
      (fun e k _ c hc _ h => (Dev.get_set_apart _ _ (Fld.ok_of_ble rfl) (.inl (by simp only [R.HIST.COUNT, A.HIST]; omega))).trans h) e trivial).2.2
  have hbase : ((d.snapCounts o p (d.pt o p)).snapHist o p (d.pt o p)).shows o p (d.pt o p) := by
    have hh : ∀ f : Fld, f.addr < octBase o + 0x10120 + p * 128 → ∀ e : Dev, (e.snapHist o p (d.pt o p)).get f = e.get f := fun f hf e => by
      rw [Dev.get, Dev.reg_snapHist _ _ _ _ fun k _ => by simp only [A.HIST]; omega, Dev.get]
    refine ⟨?_, ?_, ?_, ?_, ?_, fun k hk => hfold _ k (List.mem_range.2 hk)⟩ <;>
    rw [hh _ (by simp only [R.CW_LO.COUNT, R.CW_HI.COUNT, R.CORR_LO.COUNT, R.UNCORR.COUNT, R.SYM_LO.COUNT, A.CW_LO, A.CW_HI, A.CORR_LO, A.UNCORR, A.SYM_LO]; omega),
      Dev.snapCounts] <;>
    simp -implicitDefEqProofs (disch := first | exact Fld.ok_of_ble rfl | exact slotRegs_apart (o := o) (p := p) rfl rfl rfl) only
      [Dev.get_set_apart, Dev.get_set_same] <;>
    rfl
  rw [Dev.snapSlot_cases]
  split
  · exact Dev.shows_congr _ o p (fun _ _ _ => Dev.reg_onPt ..) hbase
  · exact hbase

/-- Slot p of a snapshot that asks for it. -/
theorem Dev.fecSnap_spec {v : Nat} (hp : p < 8) (hs : p % d.portWidth o = 0) (hv : bit v p = true) :
    (d.fecSnap o v).shows o p (d.pt o p) ∧
    if bit v 8 then ((d.fecSnap o v).pt o p).cw = 0 ∧ ((d.fecSnap o v).pt o p).uncorr = 0 ∧ ((d.fecSnap o v).pt o p).sym = 0 ∧
      ((d.fecSnap o v).pt o p).hist = [] else (d.fecSnap o v).pt o p = d.pt o p := by
  obtain ⟨l, r, hl⟩ := List.append_of_mem ((d.mem_slots o).2 ⟨hp, hs⟩)
  have hnd : (l ++ p :: r).Nodup := hl ▸ List.nodup_range.filter _
  have hpl : ∀ q ∈ l, q ≠ p := fun q hq e => (List.nodup_append.1 hnd).2.2 q hq p (.head _) e
  have hpr : ∀ q ∈ r, q ≠ p := fun q hq e => (List.nodup_cons.1 (List.nodup_append.1 hnd).2.1).1 (e ▸ hq)
  have hpt : ∀ k : List Nat, (∀ q ∈ k, q ≠ p) → ∀ e : Dev, (k.foldl (fun d q => if bit v q then d.snapSlot o q (bit v 8) else d) e).pt o p = e.pt o p := fun k hk e =>
    foldl_keeps_mem (fun e : Dev => e.pt o p) k (fun q hq e => by split; exacts [e.pt_snapSlot_ne o p _ (hk q hq), rfl]) e
  have hreg : ∀ e : Dev, ∀ a, A.CW_LO o p ≤ a → a < A.CW_LO o p + 0x80 →
      (r.foldl (fun d q => if bit v q then d.snapSlot o q (bit v 8) else d) e).reg a = e.reg a := fun e a h1 h2 =>
    foldl_keeps_mem (fun e : Dev => e.reg a) r (fun q hq e => by
      have := hpr q hq
      split
      · exact e.reg_snapSlot o q _ (by simp only [A.CW_LO] at h1 h2 ⊢; omega)
      · rfl) e
  rw [Dev.fecSnap, hl, List.foldl_append, List.foldl_cons, if_pos hv, hpt r hpr]
  have h0 := hpt l hpl d
  generalize l.foldl (fun d q => if bit v q then d.snapSlot o q (bit v 8) else d) d = e at h0 ⊢
  refine ⟨Dev.shows_congr _ o p (hreg _) (h0 ▸ e.shows_snapSlot o p (bit v 8)), ?_⟩
  rw [e.snapSlot_cases]
  split
  · rw [Dev.pt_onPt_same]
    exact ⟨rfl, rfl, rfl, rfl⟩
  · rw [Dev.pt_snapRegs, h0]

/-! Inner blocks and windows of a lane (R98, R110). -/

variable (g : Nat)

theorem Dev.get_berErrors (n : Nat) (f : Fld) : (d.berErrors g n).get f = d.get f := by
  rcases d.berErrors_cases g n with h | h <;> rw [h]
  · rw [Dev.get_onL, Dev.get_bump]
  · rw [Dev.get_bump]

theorem Dev.rx_berErrors (n : Nat) : ((d.berErrors g n).ln g).rx = (d.ln g).rx := by
  rcases d.berErrors_cases g n with h | h <;> rw [h]
  · rw [Dev.ln_onL_same, Dev.ln_bump]
  · rw [Dev.ln_bump]

/-- The 128 bits an inner block passes on. -/
def Dev.innerPass (l : List Bool) : Dev := d.onL g fun x => { x with rx := { x.rx with inner := l.take 128 } }

section
variable {llr : List Int} (hm : d.laneMode g ≠ 0) (hx : ¬ d.rxState g ≠ 0)
include hm hx

theorem Dev.innerBlock_found {w : List Bool} (h : chase llr = some w) : d.innerBlock g llr =
    ((((d.innerPass g w).inc (R.INNER_CORR.COUNT (g / 8) (g % 8)) (hamming (hard llr) w)).bump (Ctr.lane g 4) (hamming (hard llr) w)).berErrors g
      (hamming (hard llr) w)) := by
  unfold Dev.innerBlock
  dsimp only
  rw [if_neg (not_or.2 ⟨hm, hx⟩), h]
  rfl

theorem Dev.innerBlock_failed (h : chase llr = none) : d.innerBlock g llr = (d.innerPass g (hard llr)).inc (R.INNER_FAIL.COUNT (g / 8) (g % 8)) := by
  unfold Dev.innerBlock
  dsimp only
  rw [if_neg (not_or.2 ⟨hm, hx⟩), h]
  rfl

end

theorem Dev.berWindow_down (h : d.portUp (g / 8) (d.laneSlot g) = false) : d.berWindow g = d := if_neg (by rw [h]; exact Bool.false_ne_true)

theorem Dev.berWindow_up (h : d.portUp (g / 8) (d.laneSlot g) = true) : d.berWindow g =
    ((if decide (d.get (R.BER_LIMIT.COUNT (g / 8) (g % 8)) < (d.ln g).ber) && d.on (R.PORT_CTRL.BER_EN (g / 8)) then
      (d.set (R.BER_CNT.COUNT (g / 8) (g % 8)) (min (d.ln g).ber (2 ^ 32 - 1))).set (R.PORT_STATUS.BER_ALARM (g / 8) (d.laneSlot g)) 1
      else d.set (R.BER_CNT.COUNT (g / 8) (g % 8)) (min (d.ln g).ber (2 ^ 32 - 1))).newBerLimit (g / 8) (g % 8)).onL g fun x => { x with ber := 0 } := if_pos h

end

end Sys2Proof.Machine

open Sys2Proof.Machine

/-- Settles O26. -/
theorem fecCounts : Obligations.FecCounts := by
  intro o p g src v r llr s d x fix hit up1 gp c j
  have hoc : octBase (g.val / 8) = octBase c := rfl
  have hj : j = g.val % 8 := rfl
  have hgp' : d.laneSlot g = gp := rfl
  have hgp : gp < 8 := Nat.lt_of_le_of_lt (Nat.div_mul_le_self _ _) (Nat.mod_lt _ (by norm_num))
  refine ⟨fun ha hu => ⟨fun l hf => ?_, fun hf hn => ?_, fun hf hn => ?_⟩, fun ha => ⟨fun hq => ?_, fun w hw hm hx => ?_, fun hw hm hx => ?_, fun hu => ?_, fun hu => ?_⟩,
    fun hb hp hv => ?_⟩
  · have h := makes_of_live (c := .codewordDecode o p r) (f := fun d => d.codeword o p (r.map (·.toNat))) rfl ha
    obtain ⟨dsc, blks, hpt⟩ := d.pt_codeword_found o p hu hf
    refine h.gives ?_
    dsimp only
    rw [hpt]
    exact d.pt_cwFound o p dsc blks l.length
  · have h := makes_of_live (c := .codewordDecode o p r) (f := fun d => d.codeword o p (r.map (·.toNat))) rfl ha
    obtain ⟨dsc, hl⟩ := d.codeword_lost o p hu hf
    obtain ⟨h1, h2, h3, h4, h5, h6, h7, h8⟩ := d.pt_cwLost o p dsc
    rw [hl, if_neg (by rw [h3]; show ¬ 16 ≤ x.uncRun + 1; omega)] at h
    exact h.gives ⟨h1, h2, h3, h4, h5, h6, h7, h8, rfl, rfl⟩
  · have h := makes_of_live (c := .codewordDecode o p r) (f := fun d => d.codeword o p (r.map (·.toNat))) rfl ha
    obtain ⟨dsc, hl⟩ := d.codeword_lost o p hu hf
    obtain ⟨-, -, h3, -⟩ := d.pt_cwLost o p dsc
    have hn : (d.pt o p).uncRun = 15 := hn
    rw [hl, if_pos (by rw [h3, hn])] at h
    refine h.gives ⟨?_, ?_⟩
    · dsimp only
      rw [Dev.portState, Dev.get_set_apart _ _ (Fld.ok_of_ble rfl) (Fld.apart_of_offset (base := octBase o + 0x10020 + p * 4) (i := 0) (j := 0) rfl rfl rfl)]
      exact (d.cwLost o p dsc).portState_portDown o.isLt
    · dsimp only
      rw [Dev.on_set_same _ _ _ (Fld.ok_of_ble rfl)]
      rfl
  · have h := makes_of_live (c := .innerBlockDecode g llr) (f := fun d => d.innerBlock g llr) rfl ha
    rwa [Dev.innerBlock, if_pos hq] at h
  · have h := makes_of_live (c := .innerBlockDecode g llr) (f := fun d => d.innerBlock g llr) rfl ha
    rw [d.innerBlock_found g hm (not_not.2 hx) hw] at h
    refine h.gives ⟨?_, ?_⟩
    · dsimp only
      rw [Dev.get_berErrors, Dev.get_bump, Dev.get_inc_same _ _ _ (Fld.ok_of_ble rfl), Dev.innerPass, Dev.get_onL]
      rfl
    · dsimp only
      rw [Dev.rx_berErrors, Dev.ln_bump, Dev.inc, Dev.ln_set, Dev.innerPass, Dev.ln_onL_same]
  · have h := makes_of_live (c := .innerBlockDecode g llr) (f := fun d => d.innerBlock g llr) rfl ha
    rw [d.innerBlock_failed g hm (not_not.2 hx) hw] at h
    refine h.gives ⟨?_, ?_, ?_⟩
    · dsimp only
      rw [Dev.get_inc_same _ _ _ (Fld.ok_of_ble rfl), Dev.innerPass, Dev.get_onL]
      rfl
    · dsimp only
      rw [Dev.inc, Dev.ln_set, Dev.innerPass, Dev.ln_onL_same]
    · exact LanesOnly.inc (.onL (.refl _ _)) 0 rfl
  · have h := makes_of_live (c := .berWindowEnd g) (f := fun d => d.berWindow g) rfl ha
    rw [d.berWindow_up g hu] at h
    refine h.gives ⟨?_, ?_, ?_⟩
    · dsimp only
      rw [Dev.get_onL, Dev.newBerLimit, Dev.get_set_apart _ _ (Fld.ok_of_ble rfl)
        (Or.inl (ne_of_offset (base := octBase (g / 8) + g % 8 * 32) (i := 0x10514) (j := 0x10510) (by simp only [R.BER_LIMIT.COUNT, A.BER_LIMIT]; omega)
          (by simp only [R.BER_CNT.COUNT, A.BER_CNT, c, j]; omega) rfl))]
      have hcnt : (d.set (R.BER_CNT.COUNT (g / 8) (g % 8)) (min (d.ln g).ber (2 ^ 32 - 1))).get (R.BER_CNT.COUNT c j) = min (d.ln g).ber (2 ^ 32 - 1) := by
        rw [Dev.get_set_same _ _ _ (Fld.ok_of_ble rfl)]
        exact Nat.mod_eq_of_lt (Nat.lt_of_le_of_lt (Nat.min_le_right _ _) (by norm_num [R.BER_CNT.COUNT, Fld.width]))
      split
      · rw [Dev.get_set_apart _ _ (Fld.ok_of_ble rfl) (Or.inl (by simp only [R.PORT_STATUS.BER_ALARM, A.PORT_STATUS, R.BER_CNT.COUNT, A.BER_CNT]; omega)), hcnt]
      · exact hcnt
    · dsimp only
      rw [Dev.ln_onL_same]
    · dsimp only
      rw [Dev.on_onL, Dev.newBerLimit, Dev.on_set_apart _ _ _ _ (Fld.ok_of_ble rfl)
        (Or.inl (by simp only [R.BER_LIMIT.COUNT, A.BER_LIMIT, R.PORT_STATUS.BER_ALARM, A.PORT_STATUS]; omega))]
      split
      · next h =>
        rw [Dev.on_set_same _ _ _ (Fld.ok_of_ble rfl), h, Bool.or_true]
        rfl
      · next h =>
        rw [Dev.on_set_apart _ _ _ _ (Fld.ok_of_ble rfl) (Or.inl (by simp only [R.PORT_STATUS.BER_ALARM, A.PORT_STATUS, R.BER_CNT.COUNT, A.BER_CNT]; omega)),
          Bool.eq_false_iff.2 h, Bool.or_false]
  · have h := makes_of_live (c := .berWindowEnd g) (f := fun d => d.berWindow g) rfl ha
    rwa [d.berWindow_down g hu] at h
  · have h := makes_of_gate (c := .fecSnapshot src o v) (f := fun d => d.fecSnap o v.toNat) rfl hb
    obtain ⟨⟨h1, h2, h3, h4, h5, h6⟩, h7⟩ := d.fecSnap_spec o p p.isLt hp hv
    exact h.gives ⟨h1, h2, h3, h4, h5, h6, h7⟩

end

section
/-! The calibration states of a lane and its marker lock (spec/02, R47). -/

open Sys2Proof

namespace Sys2Proof.Machine

/-! The calibration state entered, and the marker lock. -/

section
variable (d : Dev) (g : Nat)

/-- The state entered and its notices, before the freeze causes follow. -/
def Dev.calEntered (s : Nat) : Dev :=
  let d1 := (d.set (R.CAL_STATUS.STATE g) s).flag (R.CAL_STATUS.STARVED g) (s == calStarved)
  let d2 := if d.cal g = calStarved then d1.laneNotice g 2 else d1
  if s = calStarved then (d2.set (R.CAL_STATUS.STARVED_SEEN g) 1).laneNotice g 1 else d2

theorem Dev.setCal_eq (s : Nat) : d.setCal g s = if d.cal g = s then d else (d.calEntered g s).lmsSync g := rfl

theorem LanesOnly.calEntered {d d' : Dev} {g : Nat} {l : List Nat} (h : LanesOnly d d' l) {s : Nat} (k : Nat) (hk : l[k]? = some (A.CAL_STATUS g)) :
    LanesOnly d (d'.calEntered g s) l := by
  have h1 : LanesOnly d ((d'.set (R.CAL_STATUS.STATE g) s).flag (R.CAL_STATUS.STARVED g) (s == calStarved)) l := (h.set k hk).flag k hk
  have h2 : LanesOnly d (if d'.cal g = calStarved then ((d'.set (R.CAL_STATUS.STATE g) s).flag (R.CAL_STATUS.STARVED g) (s == calStarved)).laneNotice g 2
    else (d'.set (R.CAL_STATUS.STATE g) s).flag (R.CAL_STATUS.STARVED g) (s == calStarved)) l := .ite (fun _ => h1.laneNotice) fun _ => h1
  exact .ite (fun _ => (h2.set k hk).laneNotice) fun _ => h2

theorem LanesOnly.setCal {d d' : Dev} {g : Nat} {l : List Nat} (h : LanesOnly d d' l) {s : Nat} (k j : Nat) (hk : l[k]? = some (A.CAL_STATUS g))
    (hj : l[j]? = some (A.LMS_STATUS g)) : LanesOnly d (d'.setCal g s) l :=
  .ite (fun _ => h) fun _ => (h.calEntered k hk).lmsSync j hj

theorem Dev.ln_calEntered (s k : Nat) : (d.calEntered g s).ln k = d.ln k := by
  unfold Dev.calEntered
  dsimp only
  split <;> split <;> simp -implicitDefEqProofs only [Dev.ln_laneNotice, Dev.flag, Dev.ln_set]

theorem Dev.ln_setCal (s : Nat) : ∃ rx, (d.setCal g s).ln g = { d.ln g with rx } := by
  rw [Dev.setCal_eq]
  split
  · exact ⟨_, rfl⟩
  · obtain ⟨rx, h⟩ := (d.calEntered g s).ln_lmsSync g
    exact ⟨rx, by rw [h, Dev.ln_calEntered]⟩

/-- R47: what a rise or fall of MARKER_LOCK does to the calibration of its lane. -/
def Dev.calOnLock (s : Nat) (b : Bool) : Dev :=
  if s = calStarved then d.dropWindow g
  else if (s = calAcquire ∧ b) ∨ (s = calTrack ∧ !b) then (d.dropWindow g).setCal g (d.calByLock g) else d

theorem Dev.setMlock_eq (b : Bool) : d.setMlock g b = if d.mlock g = b then d else
    (d.flag (R.RX_STATUS.MARKER_LOCK g) b).calOnLock g ((d.flag (R.RX_STATUS.MARKER_LOCK g) b).cal g) b := rfl

theorem LanesOnly.calOnLock {d d' : Dev} {g : Nat} {l : List Nat} (h : LanesOnly d d' l) {s : Nat} {b : Bool} (k j : Nat)
    (hk : l[k]? = some (A.CAL_STATUS g)) (hj : l[j]? = some (A.LMS_STATUS g)) : LanesOnly d (d'.calOnLock g s b) l :=
  .ite (fun _ => h.onL) fun _ => .ite (fun _ => (h.onL).setCal k j hk hj) fun _ => h

theorem Dev.ln_calOnLock (s : Nat) (b : Bool) : ∃ w v rx, (d.calOnLock g s b).ln g = { d.ln g with winOpen := w, visit := v, rx } := by
  unfold Dev.calOnLock
  split
  · exact ⟨_, _, _, Dev.ln_onL_same ..⟩
  · split
    · obtain ⟨rx, h⟩ := (d.dropWindow g).ln_setCal g (d.calByLock g)
      exact ⟨_, _, rx, by rw [h, Dev.dropWindow, Dev.ln_onL_same]⟩
    · exact ⟨_, _, _, rfl⟩

/-- The registers a change of the marker lock may touch. -/
def lockRegs (g : Nat) : List Nat := [A.RX_STATUS g, A.CAL_STATUS g, A.LMS_STATUS g]

theorem LanesOnly.setMlock (b : Bool) : LanesOnly d (d.setMlock g b) (lockRegs g) :=
  .ite (fun _ => .refl _ _) fun _ => ((LanesOnly.refl d (lockRegs g)).flag 0 rfl).calOnLock 1 2 rfl rfl

theorem Dev.ln_setMlock (b : Bool) : ∃ w v rx, (d.setMlock g b).ln g = { d.ln g with winOpen := w, visit := v, rx } := by
  rw [Dev.setMlock_eq]
  split
  · exact ⟨_, _, _, rfl⟩
  · obtain ⟨w, v, rx, h⟩ := (d.flag (R.RX_STATUS.MARKER_LOCK g) b).ln_calOnLock g ((d.flag (R.RX_STATUS.MARKER_LOCK g) b).cal g) b
    exact ⟨w, v, rx, by rw [h, Dev.flag, Dev.ln_set]⟩

theorem Dev.mlock_setMlock (b : Bool) : (d.setMlock g b).mlock g = b := by
  have hne : A.RX_STATUS g ∉ [A.CAL_STATUS g, A.LMS_STATUS g] := by
    simp only [List.mem_cons, List.not_mem_nil, or_false, not_or]
    exact ⟨ne_of_offset (base := laneBase g) rfl rfl rfl, ne_of_offset (base := laneBase g) rfl rfl rfl⟩
  rw [Dev.setMlock_eq]
  split
  · next h => exact h
  · have hr := ((LanesOnly.refl (d.flag (R.RX_STATUS.MARKER_LOCK g) b) [A.CAL_STATUS g, A.LMS_STATUS g]).calOnLock (g := g)
      (s := (d.flag (R.RX_STATUS.MARKER_LOCK g) b).cal g) (b := b) 0 1 rfl rfl).2 _ hne
    rw [Dev.mlock, Dev.on, Dev.get, show (R.RX_STATUS.MARKER_LOCK g).addr = A.RX_STATUS g from rfl, hr]
    exact Dev.on_flag_same d (R.RX_STATUS.MARKER_LOCK g) b (Fld.ok_of_ble rfl) rfl

/-- A register outside the receive half of the lanes is untouched by the marker lock. -/
theorem Dev.reg_setMlock (b : Bool) {a : Nat} (h : ∀ r ∈ lockRegs g, r ≠ a) : (d.setMlock g b).reg a = d.reg a :=
  (LanesOnly.setMlock d g b).2 a fun ha => h a ha rfl

end

end Sys2Proof.Machine
end

section
/-! The alignment markers of an octet, sent and received (spec/04, R99 to R104). -/

open Sys2Proof

namespace Sys2Proof.Machine

theorem Dev.get_congr {d e : Dev} {f : Fld} (h : e.reg f.addr = d.reg f.addr) : e.get f = d.get f := by rw [Dev.get, h, Dev.get]

theorem Dev.on_congr {d e : Dev} {f : Fld} (h : e.reg f.addr = d.reg f.addr) : e.on f = d.on f := by rw [Dev.on, Dev.get_congr h, Dev.on]

/-! The latencies of a lane, as the port reaches UP. -/

/-- The entry of the receive latency of lane k: the timing mode, the skew, the count of cycles and a late capture. -/
def Dev.latRxWritten (d : Dev) (k plesio skew count : Nat) (late : Bool) : Dev :=
  ((((d.set (R.LAT_RX.VALID k) (1 - plesio)).set (R.LAT_RX.ELASTIC k) plesio).set (R.LAT_RX.DESKEW k) skew).flag (R.LAT_RX.APT_LATE k) late).set
    (R.LAT_RX.RX_L k) count

/-- The entry of the transmit latency of lane k. -/
def Dev.latTxWritten (d : Dev) (k : Nat) (late : Bool) : Dev :=
  ((d.set (R.LAT_TX.VALID k) 1).flag (R.LAT_TX.APT_LATE k) late).set (R.LAT_TX.TX_L k) 48

theorem Dev.writeLat_eq (d : Dev) (k s : Nat) : d.writeLat k s =
    (((d.latRxWritten k (d.get (R.MODE_ACTIVE.TIMING (k / 8))) s (if d.laneMode k = 0 then 150 else if d.laneMode k = 1 then 190 else 286)
      (d.ln k).aptRx).latTxWritten k (d.ln k).aptTx).newBerLimit (k / 8) (k % 8)).onL k fun x => { x with freqBad := false, ber := 0 } := rfl

/-! What the state machine of a port leaves of a lane's marker search. -/

/-- From d to d' the marker lock of lane g, its search and its count of bit errors stay. -/
def MarkKeep (g : Nat) (d d' : Dev) : Prop :=
  (∀ a, a = A.RX_STATUS g ∨ a = A.BIP_ERR (g / 8) (g % 8) → d'.reg a = d.reg a) ∧ (d'.ln g).mkIndex = (d.ln g).mkIndex ∧ (d'.ln g).mkMiss = (d.ln g).mkMiss

namespace MarkKeep
variable {g : Nat} {d d' : Dev}

theorem refl (d : Dev) : MarkKeep g d d := ⟨fun _ _ => rfl, rfl, rfl⟩

theorem trans {e : Dev} (h : MarkKeep g d d') (h' : MarkKeep g d' e) : MarkKeep g d e := by
  obtain ⟨hr, hi, hm⟩ := h
  obtain ⟨hr', hi', hm'⟩ := h'
  exact ⟨fun a ha => (hr' a ha).trans (hr a ha), hi'.trans hi, hm'.trans hm⟩

theorem ite {c : Prop} [Decidable c] {x y : Dev} (hx : MarkKeep g d x) (hy : MarkKeep g d y) : MarkKeep g d (if c then x else y) := by
  split
  · exact hx
  · exact hy

theorem set (h : MarkKeep g d d') {f : Fld} {v : Nat} (h1 : f.addr ≠ A.RX_STATUS g) (h2 : f.addr ≠ A.BIP_ERR (g / 8) (g % 8)) : MarkKeep g d (d'.set f v) :=
  h.trans ⟨fun a ha => Dev.reg_set_ne (a := a) d' f v (by rintro rfl; exact ha.elim h1 h2), rfl, rfl⟩

theorem onL (h : MarkKeep g d d') {k : Nat} {f : LaneSt → LaneSt} (hf : ∀ x, (f x).mkIndex = x.mkIndex ∧ (f x).mkMiss = x.mkMiss) : MarkKeep g d (d'.onL k f) := by
  refine h.trans ⟨fun _ _ => rfl, ?_⟩
  by_cases hk : k = g
  · subst hk
    rw [Dev.ln_onL_same]
    exact hf _
  · rw [Dev.ln_onL_ne _ _ hk]
    exact ⟨rfl, rfl⟩

theorem onPt (h : MarkKeep g d d') {o p : Nat} {f : PortSt → PortSt} : MarkKeep g d (d'.onPt o p f) := h.trans ⟨fun _ _ => rfl, rfl, rfl⟩

/-- A field of a PORT_STATUS register. -/
theorem status (h : MarkKeep g d d') {o p : Nat} {f : Fld} {v : Nat} (hp : p < 8) (hf : f.addr = A.PORT_STATUS o p) : MarkKeep g d (d'.set f v) :=
  h.set (by rw [hf]; simp only [A.PORT_STATUS, A.RX_STATUS, laneBase, octBase]; omega) (by rw [hf]; simp only [A.PORT_STATUS, A.BIP_ERR, octBase]; omega)

theorem setPort (h : MarkKeep g d d') {o p st : Nat} (ho : o < 32) (hp : p < 8) : MarkKeep g d (d'.setPort o p st) := by
  refine h.trans ⟨fun a ha => Dev.reg_setPort d' ?_ (portChg_ne ho ?_), ?_⟩
  · rcases ha with rfl | rfl
    · simp only [A.PORT_STATUS, A.RX_STATUS, laneBase, octBase]; omega
    · simp only [A.PORT_STATUS, A.BIP_ERR, octBase]; omega
  · rcases ha with rfl | rfl
    · simp only [A.RX_STATUS, laneBase, octBase]; omega
    · simp only [A.BIP_ERR, octBase]; omega
  · simp only [Dev.ln, Dev.lane_setPort, and_self]

theorem fab (h : MarkKeep g d d') {e : Dev} (hf : FabStep d' e) : MarkKeep g d e := by
  refine h.trans ⟨fun a ha => hf.reg ?_, ?_⟩
  · rcases ha with rfl | rfl
    · simp only [A.RX_STATUS, laneBase, octBase]; omega
    · simp only [A.BIP_ERR, octBase]; omega
  · rw [hf.ln]
    exact ⟨rfl, rfl⟩

theorem bump (h : MarkKeep g d d') {n k : Nat} : MarkKeep g d (d'.bump n k) := h.trans ⟨fun _ _ => rfl, rfl, rfl⟩

theorem forgetData (h : MarkKeep g d d') {o p : Nat} : MarkKeep g d (d'.forgetData o p) :=
  List.foldlRecOn (motive := fun e => MarkKeep g d e) _ _ h fun _ he _ _ => he.onL fun _ => ⟨rfl, rfl⟩

theorem incStatus (h : MarkKeep g d d') {o p n : Nat} {f : Fld} (hp : p < 8) (hf : f.addr = A.PORT_STATUS o p) : MarkKeep g d (d'.inc f n) :=
  h.status hp hf

theorem portDown (h : MarkKeep g d d') {o p : Nat} (ho : o < 32) (hp : p < 8) : MarkKeep g d (d'.portDown o p) := by
  rw [Dev.portDown]
  exact ite h (forgetData (bump (incStatus (setPort (fab h (.cutFrames (.refl _))) ho hp) hp rfl)))

theorem writeLat (h : MarkKeep g d d') {k s : Nat} : MarkKeep g d (d'.writeLat k s) := by
  have hrx : ∀ {e : Dev} {f : Fld} {v : Nat}, f.addr = A.LAT_RX k → MarkKeep g d e → MarkKeep g d (e.set f v) := fun hf he => he.set
    (by rw [hf]; simp only [A.LAT_RX, A.RX_STATUS, laneBase, octBase]; omega) (by rw [hf]; simp only [A.LAT_RX, A.BIP_ERR, laneBase, octBase]; omega)
  have htx : ∀ {e : Dev} {f : Fld} {v : Nat}, f.addr = A.LAT_TX k → MarkKeep g d e → MarkKeep g d (e.set f v) := fun hf he => he.set
    (by rw [hf]; simp only [A.LAT_TX, A.RX_STATUS, laneBase, octBase]; omega) (by rw [hf]; simp only [A.LAT_TX, A.BIP_ERR, laneBase, octBase]; omega)
  have hl : ∀ (p c : Nat) (b1 b2 : Bool), MarkKeep g d ((d'.latRxWritten k p s c b1).latTxWritten k b2) := fun p c b1 b2 =>
    htx rfl (htx rfl (htx rfl (hrx rfl (hrx rfl (hrx rfl (hrx rfl (hrx rfl h)))))))
  rw [Dev.writeLat_eq]
  refine onL (set (hl _ _ _ _) ?_ ?_) fun x => ⟨rfl, rfl⟩
  · simp only [R.BER_LIMIT.COUNT, A.BER_LIMIT, A.RX_STATUS, laneBase, octBase]; omega
  · simp only [R.BER_LIMIT.COUNT, A.BER_LIMIT, A.BIP_ERR, octBase]; omega

theorem portStep (h : MarkKeep g d d') {o p : Nat} (ho : o < 32) (hp : p < 8) : MarkKeep g d (d'.portStep o p) := by
  have hm : ∀ b : Bool, MarkKeep g d (d'.flag (R.PORT_STATUS.MISWIRE o p) b) := fun b => h.status hp rfl
  exact ite (ite (h.setPort ho hp) h) (ite (ite ((hm _).setPort ho hp) (hm _)) h)

theorem portSkew (h : MarkKeep g d d') {o p : Nat} (ho : o < 32) (hp : p < 8) : MarkKeep g d (d'.portSkew o p) := by
  have hfail : MarkKeep g d ((d'.setPort o p 1).set (R.PORT_STATUS.DESKEW_FAIL o p) 1) := (h.setPort ho hp).status hp rfl
  unfold Dev.portSkew
  dsimp only
  refine ite (ite (ite hfail ?_) (ite (ite h ((h.portDown ho hp).status hp rfl)) h)) h
  split
  · exact h.onPt
  · refine ite hfail (setPort ?_ ho hp)
    exact List.foldlRecOn (motive := fun e => MarkKeep g d e) _ _ h fun e he k _ => he.writeLat

theorem mlock (h : MarkKeep g d d') : d'.mlock g = d.mlock g := by
  rw [Dev.mlock, Dev.on, Dev.get, h.1 (R.RX_STATUS.MARKER_LOCK g).addr (.inl rfl)]
  rfl

theorem bip (h : MarkKeep g d d') : d'.get (R.BIP_ERR.COUNT (g / 8) (g % 8)) = d.get (R.BIP_ERR.COUNT (g / 8) (g % 8)) := by
  rw [Dev.get, h.1 (R.BIP_ERR.COUNT (g / 8) (g % 8)).addr (.inr rfl)]
  rfl

end MarkKeep

/-! The ports at a marker position. -/

section
variable (d : Dev) {o p : Nat} (ho : o < 32)

theorem Dev.portWidth_pos : 0 < d.portWidth o := by
  have h : d.get (R.MODE_ACTIVE.SPLIT o) < 4 := d.get_lt _
  rw [Dev.portWidth]
  exact Nat.div_pos (Nat.le_trans (Nat.pow_le_pow_right (by norm_num) (Nat.le_of_lt_succ h)) (by norm_num)) (Nat.two_pow_pos _)

theorem Dev.slotOf_lt (l : Nat) (hl : l < 8) : d.slotOf o l < 8 := Nat.lt_of_le_of_lt (Nat.div_mul_le_self _ _) hl

theorem Dev.mem_portLanes_laneSlot (g : Nat) : g ∈ d.portLanes (g / 8) (d.laneSlot g) := by
  have hpos := d.portWidth_pos (o := g / 8)
  have hdm := Nat.div_add_mod' (g % 8) (d.portWidth (g / 8))
  have hlt := Nat.mod_lt (g % 8) hpos
  refine List.mem_map.2 ⟨g % 8 % d.portWidth (g / 8), List.mem_range.2 hlt, ?_⟩
  rw [Dev.laneSlot, Dev.slotOf]
  omega

theorem Dev.get_portDown_low {f : Fld} (h0 : d.portState o p ≠ 0) :
    (d.portDown o p).get f = (((d.cutFrames (8 * o + p)).setPort o p 0).inc (R.PORT_STATUS.DOWN_CNT o p)).get f := by
  rw [Dev.portDown_eq, if_neg h0, Dev.get, Dev.reg_forgetData, Dev.reg_bump, Dev.get]

theorem Dev.get_setPort_status {f : Fld} {st : Nat} (ho : o < 32) (hf : f.addr = A.PORT_STATUS o p) (h0 : d.portState o p ≠ st) :
    (d.setPort o p st).get f = (d.portEntered o p st).get f := by
  have hne : A.PORT_CHG o ≠ f.addr := by rw [hf]; exact portChg_ne ho (Nat.le_trans (octBase_le o) (by simp only [A.PORT_STATUS]; omega))
  rw [Dev.setPort_eq, if_neg h0, Dev.get_notice, Dev.orF, Dev.get_set_apart _ _ (Fld.ok_of_ble rfl) (.inl hne), Dev.get_onPt]
  split
  · rw [Dev.get_onF]
  · rfl

/-- R104: what a port that exits to DOWN shows. -/
theorem Dev.portDown_shows (ho : o < 32) (h0 : d.portState o p ≠ 0) : (d.portDown o p).on (R.PORT_STATUS.UP o p) = false ∧
    (d.portDown o p).get (R.PORT_STATUS.DOWN_CNT o p) = min 255 (d.get (R.PORT_STATUS.DOWN_CNT o p) + 1) := by
  have hcut : ∀ f : Fld, f.addr = A.PORT_STATUS o p → (d.cutFrames (8 * o + p)).get f = d.get f := fun f hf =>
    (FabStep.refl d).cutFrames.get (Or.inr (Nat.le_trans (octBase_le o) (by rw [hf]; simp only [A.PORT_STATUS]; omega)))
  have hs : (d.cutFrames (8 * o + p)).portState o p ≠ 0 := by rw [Dev.portState, hcut _ rfl]; exact h0
  constructor
  · rw [Dev.on, d.get_portDown_low h0,
      Dev.get_inc_apart _ _ _ _ (Fld.ok_of_ble rfl) (Fld.apart_of_offset (base := octBase o + 0x10020 + p * 4) (i := 0) (j := 0) rfl rfl rfl),
      Dev.get_setPort_status _ ho rfl hs, Dev.portEntered,
      Dev.get_set_apart _ _ (Fld.ok_of_ble rfl) (Fld.apart_of_offset (base := octBase o + 0x10020 + p * 4) (i := 0) (j := 0) rfl rfl rfl),
      Dev.get_flag_same _ _ _ (Fld.ok_of_ble rfl) rfl]
    rfl
  · rw [d.get_portDown_low h0, Dev.get_inc_same _ _ _ (Fld.ok_of_ble rfl), Dev.get_setPort_status _ ho rfl hs, Dev.portEntered,
      Dev.get_set_apart _ _ (Fld.ok_of_ble rfl) (Fld.apart_of_offset (base := octBase o + 0x10020 + p * 4) (i := 0) (j := 0) rfl rfl rfl),
      Dev.get_flag_apart _ _ _ _ (Fld.ok_of_ble rfl) (Fld.apart_of_offset (base := octBase o + 0x10020 + p * 4) (i := 0) (j := 0) rfl rfl rfl),
      Dev.get_set_apart _ _ (Fld.ok_of_ble rfl) (Fld.apart_of_offset (base := octBase o + 0x10020 + p * 4) (i := 0) (j := 0) rfl rfl rfl), hcut _ rfl]
    rfl

include ho in
theorem Dev.portLanes_portDown (q : Nat) : (d.portDown o p).portLanes o q = d.portLanes o q := by
  have h : (d.portDown o p).get (R.MODE_ACTIVE.SPLIT o) = d.get (R.MODE_ACTIVE.SPLIT o) := by
    rw [Dev.get, d.reg_portDown ho (Nat.le_trans (octBase_le o) (by simp only [R.MODE_ACTIVE.SPLIT, A.MODE_ACTIVE]; omega))
      (by simp only [R.MODE_ACTIVE.SPLIT, A.MODE_ACTIVE, A.PORT_STATUS]; omega), Dev.get]
  rw [Dev.portLanes, Dev.portWidth, h, ← Dev.portWidth, ← Dev.portLanes]

/-- R104: no lane of a port that went DOWN counts as having entered DATA. -/
theorem Dev.inData_forgetData {k : Nat} (hk : k ∈ d.portLanes o p) : ((d.forgetData o p).ln k).inData = false := by
  refine (foldl_establishes (P := fun k (e : Dev) => (e.ln k).inData = false) (I := fun _ => True) (d.portLanes o p) (fun _ _ _ _ => trivial)
    (fun e b _ _ => by rw [Dev.ln_onL_same]) (fun e b _ c hcb _ hc => by rw [Dev.ln_onL_ne _ _ hcb.symm]; exact hc) d trivial).2.2 k hk

include ho in
theorem Dev.inData_portDown (h0 : d.portState o p ≠ 0) {k : Nat} (hk : k ∈ d.portLanes o p) : ((d.portDown o p).ln k).inData = false := by
  have hs : ((((d.cutFrames (8 * o + p)).setPort o p 0).inc (R.PORT_STATUS.DOWN_CNT o p)).bump (Ctr.oct o 10)).get (R.MODE_ACTIVE.SPLIT o) =
      d.get (R.MODE_ACTIVE.SPLIT o) := by
    have hne : A.PORT_STATUS o p ≠ A.MODE_ACTIVE o := by simp only [A.MODE_ACTIVE, A.PORT_STATUS]; omega
    have hle : 0x1000000 ≤ A.MODE_ACTIVE o := Nat.le_trans (octBase_le o) (by simp only [A.MODE_ACTIVE]; omega)
    rw [Dev.get_bump, Dev.get_inc_apart _ _ _ _ (Fld.ok_of_ble rfl) (.inl hne), Dev.get, Dev.reg_setPort (a := (R.MODE_ACTIVE.SPLIT o).addr) _ hne (portChg_ne ho hle),
      (FabStep.refl d).cutFrames.reg (a := (R.MODE_ACTIVE.SPLIT o).addr) (Or.inr hle), Dev.get]
  rw [Dev.portDown_eq, if_neg h0]
  refine Dev.inData_forgetData _ ?_
  rwa [Dev.portLanes, Dev.portWidth, hs, ← Dev.portWidth, ← Dev.portLanes]

theorem Dev.portSkew_of_down (h : d.portState o p = 0) : d.portSkew o p = d := by
  unfold Dev.portSkew
  dsimp only
  rw [h]
  split
  · rfl
  · rfl

theorem Dev.portStep_of_down (h : d.portState o p = 0) {k : Nat} (hk : k ∈ d.portLanes o p) (hd : (d.ln k).inData = false) : d.portStep o p = d := by
  unfold Dev.portStep
  dsimp only
  rw [if_pos h, if_neg]
  rw [List.all_eq_true]
  intro hall
  have := hall k hk
  rw [hd, Bool.and_false] at this
  exact Bool.false_ne_true this

end

theorem Dev.portLanes_onL (d : Dev) (k : Nat) (f : LaneSt → LaneSt) (o p : Nat) : (d.onL k f).portLanes o p = d.portLanes o p := rfl

/-- R102: a locked lane of another port shows as MISWIRE. -/
theorem Dev.portStep_miswired (d : Dev) {o p k : Nat} (h : d.portState o p = 1) (hk : k ∈ d.portLanes o p) (hl : d.mlock k = true)
    (hb : (d.ln k).mkBad = true) : d.portStep o p = d.flag (R.PORT_STATUS.MISWIRE o p) true := by
  have hany : ((d.portLanes o p).any fun g => d.mlock g && (d.ln g).mkBad) = true := List.any_eq_true.2 ⟨k, hk, by rw [hl, hb]; rfl⟩
  unfold Dev.portStep
  dsimp only
  rw [if_neg (by omega), if_pos h, hany]
  rfl

/-- The registers of the marker lock lie in the blocks of the lanes. -/
theorem lockRegs_ne_oct {g a : Nat} (ha : octBase (g / 8) + 0x10000 ≤ a) : ∀ r ∈ lockRegs g, r ≠ a := by
  intro r hr
  simp only [lockRegs, List.mem_cons, List.not_mem_nil, or_false, A.RX_STATUS, A.CAL_STATUS, A.LMS_STATUS, laneBase] at hr
  omega

/-! A marker position of one lane (R102). -/

section
variable (d : Dev) {g : Nat} {m : MarkerArrival}

/-- The bit errors a valid marker shows on a locked lane, counted. -/
def Dev.bipCounted (d : Dev) (g : Nat) (m : MarkerArrival) : Dev :=
  let bips := popCount (getBits m.word.toNat 26 19 ^^^ m.parity.toNat) 8
  if d.mlock g ∧ bips ≠ 0 then (d.inc (R.BIP_ERR.COUNT (g / 8) (g % 8)) bips).bump (Ctr.lane g 5) bips else d

theorem Dev.markerLane_valid (hv : markerValid m.word.toNat = true) : ∃ F : LaneSt → LaneSt,
    (∀ x, (F x).mkIndex = some (getBits m.word.toNat 32 27) ∧ (getBits m.word.toNat 39 37 ≠ g % 8 → (F x).mkBad = true)) ∧
    d.markerLane g m = if (!((d.bipCounted g m).onL g F).mlock g) = true ∧ ((d.bipCounted g m).onL g F).trn g = trnData ∧
        ((d.ln g).mkIndex.any fun i => getBits m.word.toNat 32 27 = (i + 1) % 34) = true
      then ((d.bipCounted g m).onL g F).setMlock g true else (d.bipCounted g m).onL g F := by
  unfold Dev.markerLane
  dsimp only
  rw [if_pos hv]
  exact ⟨_, fun x => ⟨rfl, fun h => decide_eq_true (.inl h)⟩, rfl⟩

theorem Dev.markerLane_lock (hv : markerValid m.word.toNat = true) (hm : d.mlock g = false) (ht : d.trn g = 3) {k : Nat} (hk : (d.ln g).mkIndex = some k)
    (hi : getBits m.word.toNat 32 27 = (k + 1) % 34) : ∃ F : LaneSt → LaneSt, (∀ x, (F x).mkIndex = some (getBits m.word.toNat 32 27)) ∧
    d.markerLane g m = (d.onL g F).setMlock g true := by
  obtain ⟨F, hF, h⟩ := d.markerLane_valid hv (g := g)
  have hb : d.bipCounted g m = d := if_neg (by rw [hm]; simp)
  rw [hb, if_pos ⟨by rw [Dev.mlock, Dev.on_onL, ← Dev.mlock, hm]; rfl, by rw [Dev.trn, Dev.get_onL]; exact ht, by rw [hk, Option.any_some, decide_eq_true hi]⟩] at h
  exact ⟨F, fun x => (hF x).1, h⟩

theorem Dev.bipCounted_cases : d.bipCounted g m = d ∨
    ∃ n, d.bipCounted g m = (d.inc (R.BIP_ERR.COUNT (g / 8) (g % 8)) n).bump (Ctr.lane g 5) n := by
  unfold Dev.bipCounted
  dsimp only
  split
  · exact .inr ⟨_, rfl⟩
  · exact .inl rfl

theorem Dev.reg_bipCounted {a : Nat} (h : A.BIP_ERR (g / 8) (g % 8) ≠ a) : (d.bipCounted g m).reg a = d.reg a := by
  rcases d.bipCounted_cases (g := g) (m := m) with e | ⟨n, e⟩ <;> rw [e]
  rw [Dev.reg_bump, Dev.inc, Dev.reg_set_ne (a := a) _ (R.BIP_ERR.COUNT (g / 8) (g % 8)) _ h]

theorem Dev.ln_bipCounted (k : Nat) : (d.bipCounted g m).ln k = d.ln k := by
  rcases d.bipCounted_cases (g := g) (m := m) with e | ⟨n, e⟩ <;> rw [e]
  rw [Dev.ln_bump, Dev.inc, Dev.ln_set]

/-- A position without a valid marker on a locked lane. -/
def Dev.markMissed (d : Dev) (g : Nat) : Dev :=
  ((d.inc (R.BIP_ERR.COUNT (g / 8) (g % 8))).bump (Ctr.lane g 5)).onL g fun x => { x with mkMiss := x.mkMiss + 1 }

theorem Dev.markerLane_missed (hv : markerValid m.word.toNat = false) (hm : d.mlock g = true) : d.markerLane g m =
    if 3 ≤ (d.ln g).mkMiss + 1 then (((d.markMissed g).setMlock g false).portDown (g / 8) ((d.markMissed g).laneSlot g)).onL g fun x => { x with mkIndex := none }
    else d.markMissed g := by
  unfold Dev.markerLane
  dsimp only
  rw [if_neg (by rw [hv]; exact Bool.false_ne_true), if_pos hm]
  rfl

theorem Dev.reg_markMissed {a : Nat} (h : A.BIP_ERR (g / 8) (g % 8) ≠ a) : (d.markMissed g).reg a = d.reg a := by
  rw [Dev.markMissed, Dev.reg_onL, Dev.reg_bump, Dev.inc, Dev.reg_set_ne (a := a) _ (R.BIP_ERR.COUNT (g / 8) (g % 8)) _ h]

theorem Dev.markerReceive_eq : d.markerReceive g m = if d.portState (g / 8) (d.laneSlot g) ≤ 1 then (d.markerLane g m).portStep (g / 8) (d.laneSlot g)
    else (d.markerLane g m).portSkew (g / 8) (d.laneSlot g) := rfl

theorem Dev.markKeep_markerReceive (hg : g < 256) : MarkKeep g (d.markerLane g m) (d.markerReceive g m) := by
  have hp : d.laneSlot g < 8 := d.slotOf_lt _ (Nat.mod_lt _ (by norm_num))
  exact .ite ((MarkKeep.refl _).portStep (by omega) hp) ((MarkKeep.refl _).portSkew (by omega) hp)

end

/-! Markers sent (R99, R100, R116). -/

/-- A marker's bytes around its body. -/
theorem markerBody_fields {b c : Nat} (hb : b < 2 ^ 32) (hc : c < 256) : getBits (0xE35A1C * 2 ^ 40 + b * 2 ^ 8 + c) 63 40 = 0xE35A1C ∧
    getBits (0xE35A1C * 2 ^ 40 + b * 2 ^ 8 + c) 39 8 = b ∧ getBits (0xE35A1C * 2 ^ 40 + b * 2 ^ 8 + c) 7 0 = c ∧
    getBits (0xE35A1C * 2 ^ 40 + b * 2 ^ 8 + c) 39 37 = b / 2 ^ 29 ∧ getBits (0xE35A1C * 2 ^ 40 + b * 2 ^ 8 + c) 36 35 = b / 2 ^ 27 % 4 ∧
    getBits (0xE35A1C * 2 ^ 40 + b * 2 ^ 8 + c) 34 33 = b / 2 ^ 25 % 4 ∧ getBits (0xE35A1C * 2 ^ 40 + b * 2 ^ 8 + c) 32 27 = b / 2 ^ 19 % 64 ∧
    getBits (0xE35A1C * 2 ^ 40 + b * 2 ^ 8 + c) 18 8 = b % 2048 := by
  norm_num [getBits] at hb ⊢
  omega

/-- The fields of a marker. -/
theorem markerWord_fields {lane split mode index : Nat} (bip : Nat) (hl : lane < 8) (hs : split < 4) (hm : mode < 4) (hi : index < 64) :
    getBits (markerWord lane split mode index bip) 63 40 = 0xE35A1C ∧ getBits (markerWord lane split mode index bip) 39 37 = lane ∧
    getBits (markerWord lane split mode index bip) 36 35 = split ∧ getBits (markerWord lane split mode index bip) 34 33 = mode ∧
    getBits (markerWord lane split mode index bip) 32 27 = index ∧ getBits (markerWord lane split mode index bip) 18 8 = 0 ∧
    markerValid (markerWord lane split mode index bip) = true ∧ markerWord lane split mode index bip < 2 ^ 64 := by
  obtain ⟨b, hbody⟩ : ∃ b, b = lane * 2 ^ 29 + split * 2 ^ 27 + mode * 2 ^ 25 + index * 2 ^ 19 + bip % 256 * 2 ^ 11 := ⟨_, rfl⟩
  have hw : markerWord lane split mode index bip = 0xE35A1C * 2 ^ 40 + b * 2 ^ 8 + crc8 b 32 := by rw [hbody]; rfl
  have hb8 := Nat.mod_lt bip (show 0 < 256 by norm_num)
  have hc := crc8_lt b 32
  have hb : b < 2 ^ 32 := by norm_num at hbody ⊢; omega
  obtain ⟨h1, h2, h3, h4, h5, h6, h7, h8⟩ := markerBody_fields hb hc
  rw [hw, h1, h4, h5, h6, h7, h8, markerValid, h1, h2, h3, beq_self_eq_true, Bool.and_true]
  norm_num at hbody hb ⊢
  refine ⟨by omega, by omega, by omega, by omega, by omega, by decide, by omega⟩

section
variable (d : Dev) (o : Nat)

/-- R99: the periods the ports of octet o send, and the state after them. -/
def Dev.periods (cap : Nat) : List (List Bool) × Dev :=
  (d.slots o).foldl (fun (s : List (List Bool) × Dev) p =>
    let (l, d) := s.2.portPeriod o p cap
    (s.1 ++ l, d)) ([], d)

theorem Dev.periods_frame (cap : Nat) : ∃ p, (d.periods o cap).2 = { d with port := p } := by
  refine List.foldlRecOn (motive := fun s : List (List Bool) × Dev => ∃ p, s.2 = { d with port := p }) _ _ ⟨_, rfl⟩ fun s hs q _ => ?_
  obtain ⟨p, hp⟩ := hs
  dsimp only [Dev.portPeriod]
  rw [hp]
  exact ⟨_, rfl⟩

/-- From d to d' ports, lanes, octet records and the TX_STATUS of octet o change. -/
def TxStep (o : Nat) (d d' : Dev) : Prop :=
  (∃ r l p c, d' = { d with regs := r, lane := l, port := p, oct := c }) ∧ ∀ a, (∀ l < 8, A.TX_STATUS (8 * o + l) ≠ a) → d'.reg a = d.reg a

theorem TxStep.onL {d d' : Dev} {o : Nat} (h : TxStep o d d') {k : Nat} {f : LaneSt → LaneSt} : TxStep o d (d'.onL k f) := by
  obtain ⟨⟨r, n, p, c, rfl⟩, hr⟩ := h
  exact ⟨⟨_, _, _, _, rfl⟩, fun a ha => (Dev.reg_onL ..).trans (hr a ha)⟩

theorem TxStep.set {d d' : Dev} {o : Nat} (h : TxStep o d d') {l : Nat} (hl : l < 8) {f : Fld} {v : Nat} (hf : f.addr = A.TX_STATUS (8 * o + l)) :
    TxStep o d (d'.set f v) := by
  obtain ⟨⟨r, n, p, c, rfl⟩, hr⟩ := h
  exact ⟨⟨_, _, _, _, rfl⟩, fun a ha => (Dev.reg_set_ne (a := a) _ f v (by rw [hf]; exact ha l hl)).trans (hr a ha)⟩

theorem TxStep.txWords {d d' : Dev} {o : Nat} (h : TxStep o d d') {l : Nat} (hl : l < 8) (bits : List Bool) (ks : List Nat) :
    TxStep o d (d'.txWords (8 * o + l) bits ks) := by
  unfold Dev.txWords
  dsimp only
  exact onL (set h.onL hl rfl)

theorem Dev.oct_txWords (k : Nat) (bits : List Bool) (ks : List Nat) : (d.txWords k bits ks).oct = d.oct := by
  unfold Dev.txWords
  dsimp only
  rw [Dev.oct_onL, Dev.inc, Dev.oct_set, Dev.oct_onL]

theorem TxStep.periods (cap : Nat) : TxStep o d (d.periods o cap).2 := by
  obtain ⟨p, hp⟩ := d.periods_frame o cap
  rw [hp]
  exact ⟨⟨_, _, _, _, rfl⟩, fun _ _ => rfl⟩

/-- R116: the time of the marker of lane l, where the lane sends its port's data. -/
def Dev.markStamped (caps : List Instant) (temp : Int) (l : Nat) : Dev :=
  if d.txSource (8 * o + l) = .port then
    d.onL (8 * o + l) fun x => { x with tmTx := d.tmOf (8 * o + l) (caps.getD l ⟨0, 0⟩) (d.getI (R.TSC_TX.DELAY o l)) temp, stepTx := d.time.steps }
  else d

/-- The markers of index i, one per lane. -/
def Dev.markersOut (i : Nat) (bip : Nat → Nat) : Dev :=
  d.onO o fun x => { x with mkTx := (i + 1) % 34, mkOut := (List.range 8).map fun l => BitVec.ofNat 64 (markerWord l (d.get (R.MODE_ACTIVE.SPLIT o)) (d.get (R.MODE_ACTIVE.LANE_MODE o)) i (bip l)) }

theorem Dev.markerSend_eq (ks : List Nat) (caps : List Instant) (temp : Int) (hp : (d.oc o).pll = true) : ∃ e bip, TxStep o d e ∧ e.oct = d.oct ∧
    d.markerSend o ks caps temp = (List.range 8).foldl (fun e l => e.markStamped o caps temp l) (e.markersOut o (e.oc o).mkTx bip) := by
  obtain ⟨cap, hcap⟩ : ∃ cap, cap = 256 * ks.length - if (d.oc o).mkOut = [] then 0 else 64 := ⟨_, rfl⟩
  have hstep : ∀ w : Nat → List Bool, TxStep o d ((List.range 8).foldl (fun e l => e.txWords (8 * o + l) (w l) ks) (d.periods o cap).2) ∧
      ((List.range 8).foldl (fun e l => e.txWords (8 * o + l) (w l) ks) (d.periods o cap).2).oct = d.oct := fun w => by
    refine List.foldlRecOn (motive := fun e : Dev => TxStep o d e ∧ e.oct = d.oct) _ _ ⟨TxStep.periods d o cap, ?_⟩ fun e he l hl => ⟨he.1.txWords (List.mem_range.1 hl) _ _, ?_⟩
    · obtain ⟨p, hp⟩ := d.periods_frame o cap
      rw [hp]
    · rw [Dev.oct_txWords]
      exact he.2
  obtain ⟨h1, h2⟩ := hstep fun l => (match (d.oc o).mkOut[l]? with | some w => markerBits w | none => []) ++ (d.periods o cap).1.getD l []
  refine ⟨_, fun l => bipOf ((d.periods o cap).1.getD l []), h1, h2, ?_⟩
  unfold Dev.markerSend
  dsimp only
  rw [if_neg (by rw [hp]; simp), ← hcap]
  rfl

/-- The fields of lane k's registers that its transmit source and its time stamp rest on. -/
theorem TxStep.source {d d' : Dev} {o : Nat} (h : TxStep o d d') (k : Nat) : d'.txSource k = d.txSource k := by
  have hg : ∀ f : Fld, f.addr < laneBase k + 0x1700 → laneBase k + 0x1300 ≤ f.addr → d'.get f = d.get f := fun f h1 h2 => by
    rw [Dev.get, h.2, Dev.get]
    intro l hl
    simp only [A.TX_STATUS, laneBase, octBase] at h1 h2 ⊢
    omega
  have h1 : d'.txState k = d.txState k := hg _ (by simp only [R.LPWR_STATUS.TX_STATE, A.LPWR_STATUS]; omega) (by simp only [R.LPWR_STATUS.TX_STATE, A.LPWR_STATUS]; omega)
  have h2 : d'.get (R.LB_STATUS.ACTIVE k) = d.get (R.LB_STATUS.ACTIVE k) :=
    hg _ (by simp only [R.LB_STATUS.ACTIVE, A.LB_STATUS]; omega) (by simp only [R.LB_STATUS.ACTIVE, A.LB_STATUS]; omega)
  have h3 : d'.trn k = d.trn k := hg _ (by simp only [R.TRN_STATUS.STATE, A.TRN_STATUS]; omega) (by simp only [R.TRN_STATUS.STATE, A.TRN_STATUS]; omega)
  have h4 : d'.get (R.PAT_CTRL.GEN k) = d.get (R.PAT_CTRL.GEN k) :=
    hg _ (by simp only [R.PAT_CTRL.GEN, A.PAT_CTRL]; omega) (by simp only [R.PAT_CTRL.GEN, A.PAT_CTRL]; omega)
  rw [Dev.txSource, h1, h2, h3, h4, Dev.txSource]

theorem TxStep.oct {d d' : Dev} {o : Nat} (h : TxStep o d d') {a : Nat} (h1 : octBase o + 0x10000 ≤ a) (h2 : a < octBase o + 0x20000) : d'.reg a = d.reg a := by
  refine h.2 a fun l hl => ?_
  simp only [A.TX_STATUS, laneBase_eq hl]
  omega

theorem TxStep.getI {d d' : Dev} {o : Nat} (h : TxStep o d d') {f : Fld} (h1 : octBase o + 0x10000 ≤ f.addr) (h2 : f.addr < octBase o + 0x20000) : d'.getI f = d.getI f := by
  rw [Dev.getI, Dev.get, h.oct h1 h2, Dev.getI, Dev.get]

theorem TxStep.tmOf {d d' : Dev} {o : Nat} (h : TxStep o d d') {l : Nat} (hl : l < 8) (t : Instant) (x temp : Int) :
    d'.tmOf (8 * o + l) t x temp = d.tmOf (8 * o + l) t x temp := by
  have hg : ∀ f : Fld, f.addr = A.TSC_STATUS o l → d'.getI f = d.getI f := fun f hf =>
    h.getI (by rw [hf]; simp only [A.TSC_STATUS]; omega) (by rw [hf]; simp only [A.TSC_STATUS]; omega)
  have ho : (8 * o + l) / 8 = o := by omega
  have hm : (8 * o + l) % 8 = l := by omega
  rw [Dev.tmOf, Dev.tmOf, ho, hm, hg _ rfl, hg _ rfl]

theorem TxStep.onO {d d' : Dev} {o : Nat} (h : TxStep o d d') {k : Nat} {f : OctSt → OctSt} : TxStep o d (d'.onO k f) := by
  obtain ⟨⟨r, n, p, c, rfl⟩, hr⟩ := h
  exact ⟨⟨_, _, _, _, rfl⟩, fun a ha => (Dev.reg_onO ..).trans (hr a ha)⟩

theorem TxStep.time {d d' : Dev} {o : Nat} (h : TxStep o d d') : d'.time = d.time := by
  obtain ⟨⟨_, _, _, _, rfl⟩, -⟩ := h
  rfl

/-- Every lane that sends its port's data has its time. -/
theorem Dev.markStamped_all {d e : Dev} {o : Nat} (h : TxStep o d e) (caps : List Instant) (temp : Int) :
    ((List.range 8).foldl (fun e l => e.markStamped o caps temp l) e).oct = e.oct ∧ ∀ l < 8, d.txSource (8 * o + l) = .port →
      (((List.range 8).foldl (fun e l => e.markStamped o caps temp l) e).ln (8 * o + l)).stepTx = d.time.steps ∧
      (((List.range 8).foldl (fun e l => e.markStamped o caps temp l) e).ln (8 * o + l)).tmTx =
        d.tmOf (8 * o + l) (caps.getD l ⟨0, 0⟩) (d.getI (R.TSC_TX.DELAY o l)) temp := by
  have hstep : ∀ e : Dev, ∀ l, TxStep o d e → TxStep o d (e.markStamped o caps temp l) ∧ (e.markStamped o caps temp l).oct = e.oct := fun e l h => by
    unfold Dev.markStamped
    split
    · exact ⟨h.onL, Dev.oct_onL ..⟩
    · exact ⟨h, rfl⟩
  obtain ⟨-, -, hall⟩ := foldl_establishes (P := fun l (e : Dev) => d.txSource (8 * o + l) = .port → (e.ln (8 * o + l)).stepTx = d.time.steps ∧
      (e.ln (8 * o + l)).tmTx = d.tmOf (8 * o + l) (caps.getD l ⟨0, 0⟩) (d.getI (R.TSC_TX.DELAY o l)) temp) (I := TxStep o d)
    (f := fun e l => e.markStamped o caps temp l) (List.range 8) (fun e l _ he => (hstep e l he).1)
    (fun e l hl he hs => by
      have hl := List.mem_range.1 hl
      rw [Dev.markStamped, if_pos ((he.source _).trans hs), Dev.ln_onL_same, he.time, he.tmOf hl,
        he.getI (f := R.TSC_TX.DELAY o l) (by simp only [R.TSC_TX.DELAY, A.TSC_TX]; omega) (by simp only [R.TSC_TX.DELAY, A.TSC_TX]; omega)]
      exact ⟨rfl, rfl⟩)
    (fun e l _ c hcl he hc hs => by
      have hne : 8 * o + l ≠ 8 * o + c := by omega
      rw [Dev.markStamped]
      split
      · rw [Dev.ln_onL_ne _ _ hne]
        exact hc hs
      · exact hc hs) e h
  exact ⟨List.foldlRecOn (motive := fun x : Dev => TxStep o d x ∧ x.oct = e.oct) _ _ ⟨h, rfl⟩ (fun x hx l _ => ⟨(hstep x l hx.1).1, (hstep x l hx.1).2.trans hx.2⟩) |>.2,
    fun l hl => hall l (List.mem_range.2 hl)⟩

end

end Sys2Proof.Machine

open Sys2Proof.Machine

/-- Settles O25. -/
theorem alignmentMarkers : Obligations.AlignmentMarkers := by
  intro o ks caps temp g m s d i w x bip
  have hg := g.isLt
  have ho : g.val / 8 < 32 := by omega
  have hp8 : d.laneSlot g < 8 := d.slotOf_lt _ (Nat.mod_lt _ (by norm_num))
  have hmr := fun ha => makes_of_live (c := .markerReceive g m) (s := s) (p := g / 8) (f := fun d => d.markerReceive g m) rfl ha
  have hkeep := d.markKeep_markerReceive (m := m) hg
  have hbiprx : A.BIP_ERR (g / 8) (g % 8) ≠ A.RX_STATUS g := by simp only [A.BIP_ERR, A.RX_STATUS, laneBase, octBase]; omega
  have hstat : A.BIP_ERR (g / 8) (g % 8) ≠ A.PORT_STATUS (g / 8) (d.laneSlot g) := by simp only [A.BIP_ERR, A.PORT_STATUS, octBase]; omega
  refine ⟨fun ha hp => ?_, fun ha hp hi => ?_, fun ha => ⟨fun hv hm ht ⟨k, hk, hidx⟩ => ?_, fun hv hm hn => ?_, fun hv hm hn hps => ?_, fun hv hm hps hl => ?_⟩⟩
  · have h := makes_of_live (c := .markerSend o ⟨ks, caps⟩ temp) (f := fun d => d.markerSend o ks caps temp) rfl ha
    rwa [Dev.markerSend, if_pos (by rw [show (s.dev.oc o).pll = false from hp]; rfl)] at h
  · have h := makes_of_live (c := .markerSend o ⟨ks, caps⟩ temp) (f := fun d => d.markerSend o ks caps temp) rfl ha
    obtain ⟨e, bip, he, hoct, heq⟩ := d.markerSend_eq o ks caps temp hp
    have hie : (e.oc o).mkTx = i := by rw [Dev.oc, hoct]; rfl
    have hst : TxStep o d (e.markersOut o i bip) := he.onO
    have hmode : ∀ f : Fld, f.addr = A.MODE_ACTIVE o → e.get f = d.get f := fun f hf => by
      rw [Dev.get, he.oct (by rw [hf]; simp only [A.MODE_ACTIVE]; omega) (by rw [hf]; simp only [A.MODE_ACTIVE]; omega), Dev.get]
    obtain ⟨hoc, hall⟩ := Dev.markStamped_all hst caps temp
    rw [heq, hie] at h
    have hout : (((List.range 8).foldl (fun e l => e.markStamped o caps temp l) (e.markersOut o i bip)).oc o) = (e.markersOut o i bip).oc o := by
      rw [Dev.oc, hoc, Dev.oc]
    refine h.gives ⟨?_, fun l hl => ?_⟩
    · dsimp only
      rw [hout, Dev.markersOut, Dev.oc_onO_same]
    · obtain ⟨h1, h2, h3, h4, h5, h6, h7, h8⟩ := markerWord_fields (lane := l) (split := d.get (R.MODE_ACTIVE.SPLIT o)) (mode := d.get (R.MODE_ACTIVE.LANE_MODE o))
        (index := i) (bip l) hl (d.get_lt _) (d.get_lt _) (by omega)
      have hk : (((e.markersOut o i bip).oc o).mkOut.getD l 0 : DWord).toNat = markerWord l (d.get (R.MODE_ACTIVE.SPLIT o)) (d.get (R.MODE_ACTIVE.LANE_MODE o)) i (bip l) := by
        rw [Dev.markersOut, Dev.oc_onO_same]
        dsimp only
        rw [hmode _ rfl, hmode _ rfl, List.getD_eq_getElem _ _ (by rw [List.length_map, List.length_range]; exact hl), List.getElem_map, List.getElem_range,
          BitVec.toNat_ofNat, Nat.mod_eq_of_lt h8]
      dsimp only
      rw [hout, hk]
      exact ⟨h1, h2, h3, h4, h5, h6, h7, hall l hl⟩
  · have h := hmr ha
    obtain ⟨F, hF, he⟩ := d.markerLane_lock hv hm ht hk hidx
    rw [he] at hkeep
    obtain ⟨w', v, rx, hln⟩ := (d.onL g F).ln_setMlock g true
    refine h.gives ⟨?_, ?_, ?_⟩
    · exact hkeep.mlock.trans (Dev.mlock_setMlock ..)
    · refine hkeep.2.1.trans ?_
      rw [hln, Dev.ln_onL_same]
      exact hF _
    · refine hkeep.bip.trans ?_
      rw [Dev.get, Dev.reg_setMlock]
      · rfl
      · exact lockRegs_ne_oct (by simp only [R.BIP_ERR.COUNT, A.BIP_ERR]; omega)
  · have h := hmr ha
    rw [d.markerLane_missed hv hm, if_neg (by show ¬ 3 ≤ x.mkMiss + 1; omega)] at hkeep
    refine h.gives ⟨?_, ?_, ?_, ?_⟩
    · refine hkeep.mlock.trans ?_
      rw [Dev.mlock, Dev.on, Dev.get, Dev.reg_markMissed (a := (R.RX_STATUS.MARKER_LOCK g).addr) d hbiprx]
      exact hm
    · refine hkeep.2.2.trans ?_
      rw [Dev.markMissed, Dev.ln_onL_same]
      rfl
    · refine hkeep.2.1.trans ?_
      rw [Dev.markMissed, Dev.ln_onL_same]
      rfl
    · refine hkeep.bip.trans ?_
      rw [Dev.markMissed, Dev.get_onL, Dev.get_bump, Dev.get_inc_same _ _ _ (Fld.ok_of_ble rfl)]
      rfl
  · have h := hmr ha
    obtain ⟨e, he⟩ : ∃ e, e = (d.markMissed g).setMlock g false := ⟨_, rfl⟩
    have hreg : ∀ a, octBase (g / 8) + 0x10000 ≤ a → A.BIP_ERR (g / 8) (g % 8) ≠ a → e.reg a = d.reg a := fun a h1 h2 => by
      rw [he, Dev.reg_setMlock _ _ _ (lockRegs_ne_oct h1), d.reg_markMissed h2]
    have hps' : e.portState (g / 8) (d.laneSlot g) ≠ 0 := by
      rw [Dev.portState, Dev.get_congr (hreg _ (by simp only [R.PORT_STATUS.STATE, A.PORT_STATUS]; omega) hstat)]
      exact hps
    have hsplit : ∀ e' : Dev, e'.reg (A.MODE_ACTIVE (g / 8)) = d.reg (A.MODE_ACTIVE (g / 8)) → e'.portWidth (g / 8) = d.portWidth (g / 8) := fun e' he' => by
      rw [Dev.portWidth, Dev.get, show (R.MODE_ACTIVE.SPLIT (g.val / 8)).addr = A.MODE_ACTIVE (g / 8) from rfl, he']
      rfl
    have hbipmode : A.BIP_ERR (g / 8) (g % 8) ≠ A.MODE_ACTIVE (g / 8) := by simp only [A.BIP_ERR, A.MODE_ACTIVE]; omega
    have hslot : (d.markMissed g).laneSlot g = d.laneSlot g := by
      rw [Dev.laneSlot, Dev.slotOf, hsplit _ (d.reg_markMissed hbipmode), Dev.laneSlot, Dev.slotOf]
    have hlanes : g.val ∈ e.portLanes (g / 8) (d.laneSlot g) := by
      rw [Dev.portLanes, hsplit _ (hreg _ (by simp only [A.MODE_ACTIVE]; omega) hbipmode), ← Dev.portLanes]
      exact d.mem_portLanes_laneSlot g
    have hmiss : d.markerLane g m = (e.portDown (g / 8) (d.laneSlot g)).onL g fun x => { x with mkIndex := none } := by
      rw [d.markerLane_missed hv hm, if_pos (by show 3 ≤ x.mkMiss + 1; omega), hslot, he]
    have hdown : (d.markerLane g m).portState (g / 8) (d.laneSlot g) = 0 := by
      rw [hmiss, Dev.portState, Dev.get_onL]
      exact e.portState_portDown ho
    have hrec : d.markerReceive g m = d.markerLane g m := by
      rw [Dev.markerReceive_eq, Dev.portSkew_of_down _ hdown, Dev.portStep_of_down (k := g) _ hdown ?_ ?_, ite_self]
      · rw [hmiss, Dev.portLanes_onL, Dev.portLanes_portDown _ ho]
        exact hlanes
      · rw [hmiss, Dev.ln_onL_same]
        exact e.inData_portDown ho hps' hlanes
    rw [hrec, hmiss] at h
    obtain ⟨hup, hcnt⟩ := e.portDown_shows ho hps'
    refine h.gives ⟨?_, ?_, ?_, ?_⟩
    · have hk : MarkKeep g e ((e.portDown (g / 8) (d.laneSlot g))) := (MarkKeep.refl e).portDown ho hp8
      refine hk.mlock.trans ?_
      rw [he, Dev.mlock_setMlock]
    · exact e.portState_portDown ho
    · exact hup
    · refine hcnt.trans ?_
      rw [Dev.get_congr (hreg _ (by simp only [R.PORT_STATUS.DOWN_CNT, A.PORT_STATUS]; omega) hstat)]
  · have h := hmr ha
    obtain ⟨F, hF, he⟩ := d.markerLane_valid (g := g) hv
    have hmk : ((d.bipCounted g m).onL g F).mlock g = true := by
      rw [Dev.mlock, Dev.on, Dev.get_onL, Dev.get, Dev.reg_bipCounted (a := (R.RX_STATUS.MARKER_LOCK g).addr) d hbiprx]
      exact hm
    rw [hmk, if_neg (by simp)] at he
    have hst : ((d.bipCounted g m).onL g F).portState (g / 8) (d.laneSlot g) = 1 := by
      rw [Dev.portState, Dev.get_onL, Dev.get, Dev.reg_bipCounted (a := (R.PORT_STATUS.STATE (g / 8) (d.laneSlot g)).addr) d hstat]
      exact hps
    have hmem : g.val ∈ ((d.bipCounted g m).onL g F).portLanes (g / 8) (d.laneSlot g) := by
      rw [Dev.portLanes_onL, Dev.portLanes, Dev.portWidth, Dev.get, Dev.reg_bipCounted (a := (R.MODE_ACTIVE.SPLIT (g / 8)).addr) d
        (by simp only [R.MODE_ACTIVE.SPLIT, A.BIP_ERR, A.MODE_ACTIVE]; omega), ← Dev.get, ← Dev.portWidth, ← Dev.portLanes]
      exact d.mem_portLanes_laneSlot g
    have hbad : (((d.bipCounted g m).onL g F).ln g).mkBad = true := by
      rw [Dev.ln_onL_same]
      exact (hF _).2 hl
    rw [Dev.markerReceive_eq, if_pos (by rw [hps]), he, Dev.portStep_miswired _ hst hmem hmk hbad] at h
    refine h.gives ⟨?_, ?_⟩
    · exact Dev.on_flag_same _ _ _ (Fld.ok_of_ble rfl) rfl
    · refine (Dev.get_flag_apart _ _ _ _ (Fld.ok_of_ble rfl) (Fld.apart_of_offset (base := octBase (g / 8) + 0x10020 + d.laneSlot g * 4) (i := 0) (j := 0) rfl rfl rfl)).trans hst

end

section
/-! The slice calibration of a lane: coefficient writes, freeze and unfreeze, windows (spec/02, R42 to R50). -/

open Sys2Proof

namespace Sys2Proof.Machine

theorem tidy_CAL_CTRL : Row.CAL_CTRL.tidy := by decide

/-! What the calibration of a lane leaves alone. -/

/-- The fields the judgement of a window turns on, as offset and bits in the lane's block: RESUME, STATE, STARVED, STARVED_SEEN, PASS_RUN, UPDATES, MARKER_LOCK. -/
def calOffsets : List (Nat × Nat × Nat) := [(0x10, 23, 20), (0x18, 2, 0), (0x18, 3, 3), (0x18, 4, 4), (0x18, 11, 8), (0x18, 31, 16), (0x0, 4, 4)]

def calFields (g : Nat) : List Fld := calOffsets.map fun x => ⟨laneBase g + x.1, x.2.1, x.2.2⟩

/-- From d to d' the fields of calFields keep their values. -/
def CalKeep (g : Nat) (d d' : Dev) : Prop := ∀ f ∈ calFields g, d'.get f = d.get f

/-- R44: the three coefficients of entry s go one step each, where they are enabled. -/
def Dev.coefStep (d : Dev) (g s : Nat) (x : Int) (n : Nat) (y : Int) : Dev :=
  let d := if d.on (R.CAL_CTRL.OFS_EN g) then d.setI (R.CAL_COEF.OFFSET g s) (clampI (-512) 511 (d.getI (R.CAL_COEF.OFFSET g s) + x)) else d
  let d := if d.on (R.CAL_CTRL.GAIN_EN g) then d.set (R.CAL_COEF.GAIN g s) n else d
  if d.on (R.CAL_CTRL.SKEW_EN g) then d.setI (R.CAL_COEF.SKEW g s) (clampI (-512) 511 (d.getI (R.CAL_COEF.SKEW g s) + y)) else d

theorem Dev.calUpdate_cases (d : Dev) (g : Nat) (inc : List (Nat × Nat)) (s at_ : Nat) : d.calUpdate g inc s at_ = d ∨
    ∃ x n y, d.calUpdate g inc s at_ = d.draw.2.coefStep g s x n y ∨ d.calUpdate g inc s at_ = d.coefStep g s x n y := by
  unfold Dev.calUpdate
  extract_lets a x refs ref shift gain ofsStep gStep
  by_cases h : refs.isEmpty = true
  · exact .inl (if_pos h)
  · rw [if_neg h]
    refine .inr ?_
    by_cases hx : x.spread = 0
    · rw [if_pos hx]
      exact ⟨_, _, _, .inl rfl⟩
    · rw [if_neg hx]
      exact ⟨_, _, _, .inr rfl⟩

/-- From d to d' the coefficients of lane g and its pending writes stay. -/
def CoefKeep (g : Nat) (d d' : Dev) : Prop := (∀ k, k < 65 → d'.reg (A.CAL_COEF g k) = d.reg (A.CAL_COEF g k)) ∧ (d'.ln g).pend = (d.ln g).pend

namespace CalKeep
variable {g : Nat} {d d' : Dev}

theorem refl (d : Dev) : CalKeep g d d := fun _ _ => rfl

theorem of_regs (h : CalKeep g d d') {e : Dev} (he : ∀ a, e.reg a = d'.reg a) : CalKeep g d e := fun f hf => by
  rw [Dev.get_congr (he f.addr), h f hf]

theorem trans {e : Dev} (h : CalKeep g d d') (h' : CalKeep g d' e) : CalKeep g d e := fun f hf => (h' f hf).trans (h f hf)

theorem ite {c : Prop} [Decidable c] {x y : Dev} (hx : CalKeep g d x) (hy : CalKeep g d y) : CalKeep g d (if c then x else y) := by
  split
  · exact hx
  · exact hy

/-- A field of the lane's block beside those of calFields. -/
theorem set (h : CalKeep g d d') {f : Fld} {v : Nat} (i : Nat) (hf : f.addr = laneBase g + i) (ho : f.ok)
    (ha : (calOffsets.all fun x => !Nat.beq i x.1 || Nat.blt x.2.1 f.lo || Nat.blt f.hi x.2.2) = true) : CalKeep g d (d'.set f v) := fun x hx => by
  obtain ⟨y, hy, rfl⟩ := List.mem_map.1 hx
  rw [Dev.get_set_apart _ _ ho (Fld.apart_of_offset hf rfl (List.all_eq_true.1 ha y hy))]
  exact h _ hx

/-- A coefficient. -/
theorem setCoef (h : CalKeep g d d') {v s : Nat} : CalKeep g d (d'.setReg (A.CAL_COEF g s) v) := fun x hx => by
  obtain ⟨y, hy, rfl⟩ := List.mem_map.1 hx
  have hlt : y.1 < 0x100 := by
    simp only [calOffsets, List.mem_cons, List.not_mem_nil, or_false] at hy
    rcases hy with rfl | rfl | rfl | rfl | rfl | rfl | rfl <;> norm_num
  rw [Dev.get_congr (Dev.reg_setReg_ne _ _ (by simp only [A.CAL_COEF]; omega))]
  exact h _ hx

theorem onL (h : CalKeep g d d') {k : Nat} {f : LaneSt → LaneSt} : CalKeep g d (d'.onL k f) := h.of_regs fun _ => Dev.reg_onL ..

theorem laneNotice (h : CalKeep g d d') {k c : Nat} : CalKeep g d (d'.laneNotice k c) := h.of_regs fun _ => Dev.reg_laneNotice ..

theorem markSuspect (h : CalKeep g d d') {s : Nat} : CalKeep g d (d'.markSuspect g s) :=
  .ite h (.laneNotice (.set (.ite (h.set 0x304 rfl (Fld.ok_of_ble rfl) rfl) (.ite (h.set 0x1C rfl (Fld.ok_of_ble rfl) rfl) (h.set 0x20 rfl (Fld.ok_of_ble rfl) rfl))) 0x18 rfl (Fld.ok_of_ble rfl) rfl))

theorem calPops (h : CalKeep g d d') {s : Nat} : CalKeep g d (d'.calPops g s) := .ite h (.ite h h.markSuspect)

theorem coefStep (h : CalKeep g d d') {s n : Nat} {x y : Int} : CalKeep g d (d'.coefStep g s x n y) := by
  have h1 : CalKeep g d (if d'.on (R.CAL_CTRL.OFS_EN g) then
      d'.setI (R.CAL_COEF.OFFSET g s) (clampI (-512) 511 (d'.getI (R.CAL_COEF.OFFSET g s) + x)) else d') := .ite h.setCoef h
  have h2 := ite (c := (if d'.on (R.CAL_CTRL.OFS_EN g) then
      d'.setI (R.CAL_COEF.OFFSET g s) (clampI (-512) 511 (d'.getI (R.CAL_COEF.OFFSET g s) + x)) else d').on (R.CAL_CTRL.GAIN_EN g) = true)
    (show CalKeep g d (Dev.set _ (R.CAL_COEF.GAIN g s) n) from h1.setCoef) h1
  exact .ite h2.setCoef h2

theorem calUpdate (h : CalKeep g d d') {inc : List (Nat × Nat)} {s at_ : Nat} : CalKeep g d (d'.calUpdate g inc s at_) := by
  rcases d'.calUpdate_cases g inc s at_ with e | ⟨x, n, y, e | e⟩ <;> rw [e]
  · exact h
  · exact (h.of_regs (e := d'.draw.2) fun _ => rfl).coefStep
  · exact h.coefStep

theorem calSlice (h : CalKeep g d d') {inc : List (Nat × Nat)} {s at_ : Nat} : CalKeep g d (d'.calSlice g inc s at_) :=
  .ite h (.ite h.markSuspect (.ite (h.set 0x18 rfl (Fld.ok_of_ble rfl) rfl) h.calUpdate))

theorem endVisit (h : CalKeep g d d') : CalKeep g d (d'.endVisit g) := by
  unfold Dev.endVisit
  dsimp only
  have h1 : CalKeep g d (if decide (2 * ((List.range 4).foldl (fun t v => t + (((d'.ln g).acc.of (d'.ln g).xslice).mean v - ((d'.ln g).acc.of 64).mean v)) 0).abs > 4 ∨ ((((d'.ln g).acc.of (d'.ln g).xslice).spread - ((d'.ln g).acc.of 64).spread).abs * 256 > ((d'.ln g).acc.of 64).spread.abs)) then d'.inc (R.SPARE_STATUS.XCHK_FAILS g) else d') := .ite (h.set 0x304 rfl (Fld.ok_of_ble rfl) rfl) h
  have h2 := h1.markSuspect (s := (d'.ln g).xslice)
  exact .ite (.set (.onL (.ite h2 h1)) 0x304 rfl (Fld.ok_of_ble rfl) rfl) (.onL (.ite h2 h1))

theorem spareIdle (h : CalKeep g d d') : CalKeep g d (d'.spareIdle g) := .onL (h.set 0x304 rfl (Fld.ok_of_ble rfl) rfl)

theorem repairWindow (h : CalKeep g d d') : CalKeep g d (d'.repairWindow g) := by
  unfold Dev.repairWindow
  split
  · exact h.onL
  · exact (onL (h.set 0x0 rfl (Fld.ok_of_ble rfl) rfl)).spareIdle
  · exact h

theorem sparePoint (h : CalKeep g d d') : CalKeep g d (d'.sparePoint g) :=
  .ite h.onL (.ite h (.ite (h.set 0x304 rfl (Fld.ok_of_ble rfl) rfl).onL (.ite ((h.set 0x304 rfl (Fld.ok_of_ble rfl) rfl).set 0x304 rfl (Fld.ok_of_ble rfl) rfl) (.ite h.spareIdle h))))

theorem startWindow (h : CalKeep g d d') : CalKeep g d (d'.startWindow g) := h.onL

theorem applyPending (h : CalKeep g d d') : CalKeep g d (d'.applyPending g) := by
  have h1 : CalKeep g d ((d'.ln g).pend.foldl (fun d w => d.putCoef g w.1 w.2) d') :=
    List.foldlRecOn (motive := CalKeep g d) _ _ h fun e he w _ => he.setCoef
  exact .onL (h1.set 0x18 rfl (Fld.ok_of_ble rfl) rfl)

end CalKeep

namespace CoefKeep
variable {g : Nat} {d d' : Dev}

theorem refl (d : Dev) : CoefKeep g d d := ⟨fun _ _ => rfl, rfl⟩

theorem trans {e : Dev} (h : CoefKeep g d d') (h' : CoefKeep g d' e) : CoefKeep g d e := by
  obtain ⟨hr, hp⟩ := h
  obtain ⟨hr', hp'⟩ := h'
  exact ⟨fun k hk => (hr' k hk).trans (hr k hk), hp'.trans hp⟩

theorem ite {c : Prop} [Decidable c] {x y : Dev} (hx : CoefKeep g d x) (hy : CoefKeep g d y) : CoefKeep g d (if c then x else y) := by
  split
  · exact hx
  · exact hy

theorem setReg (h : CoefKeep g d d') {a v : Nat} (i : Nat) (ha : a = laneBase g + i)
    (hi : (Nat.blt i 0x100 || Nat.ble 0x204 i) = true) : CoefKeep g d (d'.setReg a v) := by
  simp only [Bool.or_eq_true, Nat.blt_eq, Nat.ble_eq] at hi
  exact h.trans ⟨fun k hk => Dev.reg_setReg_ne d' v (by simp only [A.CAL_COEF]; omega), rfl⟩

theorem set (h : CoefKeep g d d') {f : Fld} {v : Nat} (i : Nat) (hf : f.addr = laneBase g + i)
    (hi : (Nat.blt i 0x100 || Nat.ble 0x204 i) = true) : CoefKeep g d (d'.set f v) := h.setReg i hf hi

theorem onL (h : CoefKeep g d d') {f : LaneSt → LaneSt} (hf : ∀ x, (f x).pend = x.pend) : CoefKeep g d (d'.onL g f) :=
  h.trans ⟨fun _ _ => Dev.reg_onL .., by rw [Dev.ln_onL_same]; exact hf _⟩

theorem laneNotice (h : CoefKeep g d d') {k c : Nat} : CoefKeep g d (d'.laneNotice k c) :=
  h.trans ⟨fun _ _ => Dev.reg_laneNotice .., by rw [Dev.ln_laneNotice]⟩

theorem setCal (h : CoefKeep g d d') {s : Nat} : CoefKeep g d (d'.setCal g s) := by
  obtain ⟨rx, hl⟩ := d'.ln_setCal g s
  refine h.trans ⟨fun k hk => ((LanesOnly.refl d' [A.CAL_STATUS g, A.LMS_STATUS g]).setCal 0 1 rfl rfl).2 _ ?_, by rw [hl]⟩
  simp only [A.CAL_COEF, A.CAL_STATUS, A.LMS_STATUS, List.mem_cons, List.not_mem_nil, or_false]
  omega

theorem dropWindow (h : CoefKeep g d d') : CoefKeep g d (d'.dropWindow g) := h.onL fun _ => rfl

theorem markSuspect (h : CoefKeep g d d') {s : Nat} : CoefKeep g d (d'.markSuspect g s) :=
  .ite h (.laneNotice (.set (.ite (h.set 0x304 rfl rfl) (.ite (h.set 0x1C rfl rfl) (h.set 0x20 rfl rfl))) 0x18 rfl rfl))

theorem calPops (h : CoefKeep g d d') {s : Nat} : CoefKeep g d (d'.calPops g s) := .ite h (.ite h h.markSuspect)

theorem spareIdle (h : CoefKeep g d d') : CoefKeep g d (d'.spareIdle g) := .onL (h.set 0x304 rfl rfl) fun _ => rfl

theorem repairWindow (h : CoefKeep g d d') : CoefKeep g d (d'.repairWindow g) := by
  unfold Dev.repairWindow
  split
  · exact h.onL fun _ => rfl
  · refine spareIdle (onL (h.set 0x0 rfl rfl) ?_)
    exact fun _ => rfl
  · exact h

theorem sparePoint (h : CoefKeep g d d') : CoefKeep g d (d'.sparePoint g) :=
  .ite (h.onL fun _ => rfl) (.ite h (.ite ((h.set 0x304 rfl rfl).onL fun _ => rfl) (.ite ((h.set 0x304 rfl rfl).set 0x304 rfl rfl) (.ite h.spareIdle h))))

theorem startWindow (h : CoefKeep g d d') : CoefKeep g d (d'.startWindow g) := h.onL fun _ => rfl

end CoefKeep

/-! The state entered. -/

section
variable (d : Dev) (g : Nat)

theorem Dev.get_calStatus_lmsSync {f : Fld} (hf : f.addr = A.CAL_STATUS g) : (d.lmsSync g).get f = d.get f := by
  have hne : ∀ k : Fld, k.addr = A.LMS_STATUS g → k.apart f := fun k hk => .inl (by rw [hk, hf]; exact ne_of_offset (base := laneBase g) rfl rfl rfl)
  exact Dev.get_lmsSync _ _ (hne _ rfl) (hne _ rfl) (hne _ rfl) (hne _ rfl)

/-- What the state entered leaves of CAL_STATUS beside the state and its two flags. -/
theorem Dev.get_setCal {f : Fld} (s : Nat) (hf : f.addr = A.CAL_STATUS g) (h : 4 < f.lo) : (d.setCal g s).get f = d.get f := by
  have h1 : (R.CAL_STATUS.STATE g).apart f := .inr (.inr (by show 2 < f.lo; omega))
  have h2 : (R.CAL_STATUS.STARVED g).apart f := .inr (.inr (by show 3 < f.lo; omega))
  have h3 : (R.CAL_STATUS.STARVED_SEEN g).apart f := .inr (.inr (by show 4 < f.lo; omega))
  have hbase : ((d.set (R.CAL_STATUS.STATE g) s).flag (R.CAL_STATUS.STARVED g) (s == calStarved)).get f = d.get f := by
    rw [Dev.get_flag_apart _ _ _ _ (Fld.ok_of_ble rfl) h2, Dev.get_set_apart _ _ (Fld.ok_of_ble rfl) h1]
  rw [Dev.setCal_eq]
  split
  · rfl
  · rw [Dev.get_calStatus_lmsSync _ _ hf, Dev.calEntered]
    split <;> split <;> simp -implicitDefEqProofs only [Dev.get_laneNotice, Dev.get_set_apart _ _ (Fld.ok_of_ble rfl) h3, hbase]

theorem Dev.cal_setCal {s : Nat} (hs : s < 8) : (d.setCal g s).cal g = s := by
  have hbase : ((d.set (R.CAL_STATUS.STATE g) s).flag (R.CAL_STATUS.STARVED g) (s == calStarved)).get (R.CAL_STATUS.STATE g) = s := by
    rw [Dev.get_flag_apart _ _ _ _ (Fld.ok_of_ble rfl) (Fld.apart_of_offset rfl rfl rfl), Dev.get_set_same _ _ _ (Fld.ok_of_ble rfl)]
    exact Nat.mod_eq_of_lt hs
  have hseen : ∀ e : Dev, (e.set (R.CAL_STATUS.STARVED_SEEN g) 1).get (R.CAL_STATUS.STATE g) = e.get (R.CAL_STATUS.STATE g) := fun e =>
    Dev.get_set_apart _ _ (Fld.ok_of_ble rfl) (Fld.apart_of_offset rfl rfl rfl)
  rw [Dev.cal, Dev.setCal_eq]
  split
  · next h => exact h
  · rw [Dev.get_calStatus_lmsSync _ _ rfl, Dev.calEntered]
    split <;> split <;> simp -implicitDefEqProofs only [Dev.get_laneNotice, hseen, hbase]

/-- R47: a lane that enters STARVED shows it. -/
theorem Dev.starved_setCal (h : d.cal g ≠ 3) : (d.setCal g 3).on (R.CAL_STATUS.STARVED g) = true ∧ (d.setCal g 3).on (R.CAL_STATUS.STARVED_SEEN g) = true := by
  have hst : ∀ f : Fld, f.addr = A.CAL_STATUS g → (d.setCal g 3).on f = (d.calEntered g 3).on f := fun f hf => by
    rw [Dev.setCal_eq, if_neg h, Dev.on, Dev.get_calStatus_lmsSync _ _ hf, Dev.on]
  have he : ∃ e : Dev, d.calEntered g 3 = (e.set (R.CAL_STATUS.STARVED_SEEN g) 1).laneNotice g 1 ∧ e.on (R.CAL_STATUS.STARVED g) = true := by
    refine ⟨if d.cal g = calStarved then ((d.set (R.CAL_STATUS.STATE g) 3).flag (R.CAL_STATUS.STARVED g) true).laneNotice g 2
      else (d.set (R.CAL_STATUS.STATE g) 3).flag (R.CAL_STATUS.STARVED g) true, rfl, ?_⟩
    rw [if_neg (show ¬ d.cal g = calStarved from h)]
    exact Dev.on_flag_same _ _ _ (Fld.ok_of_ble rfl) rfl
  obtain ⟨e, he, hon⟩ := he
  rw [hst _ rfl, hst _ rfl, he, Dev.on_laneNotice, Dev.on_laneNotice, Dev.on_set_apart _ _ _ _ (Fld.ok_of_ble rfl) (Fld.apart_of_offset rfl rfl rfl),
    Dev.on_set_same _ _ _ (Fld.ok_of_ble rfl)]
  exact ⟨hon, rfl⟩

/-! Windows. -/

omit d g in
theorem LanesOnly.sparePoint {d d' : Dev} {g : Nat} {l : List Nat} (h : LanesOnly d d' l) (k : Nat) (hk : l[k]? = some (A.SPARE_STATUS g)) :
    LanesOnly d (d'.sparePoint g) l :=
  .ite (fun _ => h.onL) fun _ => .ite (fun _ => h) fun _ => .ite (fun _ => (h.set k hk).onL) fun _ =>
    .ite (fun _ => (h.set k hk).set k hk) fun _ => .ite (fun _ => (h.set k hk).onL) fun _ => h

/-- After the judgement of a window: the takeover moves on, what waits is applied, and the next window starts. -/
def Dev.windowNext : Dev := (((d.repairWindow g).applyPending g).sparePoint g).startWindow g

theorem CalKeep.windowNext {d d' : Dev} {g : Nat} (h : CalKeep g d d') : CalKeep g d (d'.windowNext g) := h.repairWindow.applyPending.sparePoint.startWindow

theorem Dev.windowEnd_eq (h0 : d.cal g ≠ 0) (ho : (d.ln g).winOpen = true) (hl : d.winLen g ≤ (d.ln g).winPts + 1) :
    d.windowEnd g = (d.judgeWindow g).windowNext g := by
  unfold Dev.windowEnd
  dsimp only
  rw [if_neg]
  · rfl
  · rw [ho]
    rintro (h | h | h)
    · exact h0 h
    · exact Bool.false_ne_true h
    · omega

/-- R48: what waits is applied: the list is empty, and with none waiting no coefficient changes. -/
theorem Dev.pend_applyPending : ((d.applyPending g).ln g).pend = [] := by
  unfold Dev.applyPending
  dsimp only
  rw [Dev.ln_onL_same]

theorem Dev.applyPending_none (h : (d.ln g).pend = []) : ∃ F : LaneSt → LaneSt, d.applyPending g = (d.set (R.CAL_STATUS.WR_PENDING g) 0).onL g F := by
  unfold Dev.applyPending
  dsimp only
  rw [h, List.foldl_nil]
  exact ⟨_, rfl⟩

theorem Dev.coef_applyPending (h : (d.ln g).pend = []) (k : Nat) (hk : k < 65) : (d.applyPending g).reg (A.CAL_COEF g k) = d.reg (A.CAL_COEF g k) := by
  obtain ⟨F, e⟩ := d.applyPending_none g h
  rw [e, Dev.reg_onL]
  exact ((CoefKeep.refl d).set 0x18 rfl rfl).1 k hk

/-- What the update point does to the window's place: nothing. -/
theorem Dev.ln_sparePoint : ∃ r q v, (d.sparePoint g).ln g = { d.ln g with rep := r, scanReq := q, visit := v } := by
  unfold Dev.sparePoint Dev.spareIdle
  dsimp only
  split
  · exact ⟨_, _, _, Dev.ln_onL_same ..⟩
  · split
    · exact ⟨_, _, _, rfl⟩
    · split
      · refine ⟨(d.ln g).rep, false, false, (Dev.ln_onL_same ..).trans ?_⟩
        rw [Dev.ln_set]
      · split
        · exact ⟨_, _, _, by rw [Dev.ln_set, Dev.ln_set]⟩
        · split
          · exact ⟨_, _, _, by rw [Dev.ln_onL_same, Dev.ln_set]⟩
          · exact ⟨_, _, _, rfl⟩

theorem Dev.ln_startWindow : ((d.startWindow g).ln g).winOpen = true ∧ ((d.startWindow g).ln g).winPts = 0 ∧ ((d.startWindow g).ln g).pend = (d.ln g).pend := by
  unfold Dev.startWindow
  dsimp only
  rw [Dev.ln_onL_same]
  exact ⟨rfl, rfl, rfl⟩

theorem Dev.ln_windowNext : ((d.windowNext g).ln g).winOpen = true ∧ ((d.windowNext g).ln g).winPts = 0 ∧ ((d.windowNext g).ln g).pend = [] := by
  obtain ⟨h1, h2, h3⟩ := (((d.repairWindow g).applyPending g).sparePoint g).ln_startWindow g
  obtain ⟨r, q, v, h⟩ := ((d.repairWindow g).applyPending g).ln_sparePoint g
  rw [h] at h3
  exact ⟨h1, h2, h3.trans (Dev.pend_applyPending ..)⟩

theorem Dev.coef_windowNext (h : (d.ln g).pend = []) (k : Nat) (hk : k < 65) : (d.windowNext g).reg (A.CAL_COEF g k) = d.reg (A.CAL_COEF g k) := by
  have h1 := (CoefKeep.refl d).repairWindow (g := g)
  have h2 := (d.repairWindow g).coef_applyPending g (h1.2.trans h) k hk
  exact ((((CoefKeep.refl ((d.repairWindow g).applyPending g)).sparePoint).startWindow).1 k hk).trans (h2.trans (h1.1 k hk))

/-- The averages of a window, kept for the next. -/
def Dev.measured : Dev :=
  d.onL g fun x => { x with prevSpread := some ((d.ln g).acc.avg (d.included g) SliceStat.spread),
                            ref := (List.range 4).map fun v => (d.ln g).acc.avg (d.included g) (·.mean v) }

/-- R46: the passing window counted, and its slices marked by their populations. -/
def Dev.passed : Dev :=
  let e := (List.range 64).foldl (fun d s => d.calPops g s) ((d.measured g).inc (R.CAL_STATUS.PASS_RUN g))
  if ((d.measured g).spareAt g).isSome then e.calPops g 64 else e

/-- The slices updated, and the visit of the spare ended, at the end of a passing window. -/
def Dev.updatedSlices (inc : List (Nat × Nat)) (sp : Option Nat) : Dev :=
  match sp with
  | some a => ((List.range 64).foldl (fun d s => d.calSlice g inc s s) d).calSlice g inc 64 a
  | none => (List.range 64).foldl (fun d s => d.calSlice g inc s s) d

theorem Dev.judgeWindow_eq : d.judgeWindow g =
    if !d.lanePasses g (d.included g) then
      if d.cal g = calStarved ∨ d.cal g = calFrozen then (d.measured g).set (R.CAL_STATUS.PASS_RUN g) 0
      else ((d.measured g).set (R.CAL_STATUS.PASS_RUN g) 0).setCal g calStarved
    else if d.cal g = calStarved then
      if (d.passed g).get (R.CAL_CTRL.RESUME g) ≤ (d.passed g).get (R.CAL_STATUS.PASS_RUN g) then (d.passed g).setCal g ((d.passed g).calByLock g) else d.passed g
    else if d.cal g = calFrozen then d.passed g
    else if ((d.measured g).ln g).visit then
      (((d.passed g).updatedSlices g (d.included g) ((d.measured g).spareAt g)).incW (R.CAL_STATUS.UPDATES g)).endVisit g
    else ((d.passed g).updatedSlices g (d.included g) ((d.measured g).spareAt g)).incW (R.CAL_STATUS.UPDATES g) := rfl

/-- An update point at which no window ends. -/
theorem Dev.updatePoint_eq (h0 : d.cal g ≠ 0) (hw : (d.ln g).winOpen = true → (d.ln g).winPts + 1 < d.winLen g) : ∃ F : LaneSt → LaneSt,
    (∀ x, (F x).winPts = x.winPts + 1 ∧ (F x).winOpen = x.winOpen ∧ (F x).pend = x.pend) ∧
    d.updatePoint g = if (d.ln g).winOpen then ((d.applyPending g).sparePoint g).onL g F else ((d.applyPending g).sparePoint g).startWindow g := by
  unfold Dev.updatePoint
  dsimp only
  rw [if_neg (show ¬ d.cal g = calHold from h0), if_neg (fun ⟨h1, h2⟩ => absurd (hw h1) (by omega))]
  refine ⟨_, ?_, rfl⟩
  exact fun x => ⟨rfl, rfl, rfl⟩

theorem Dev.applyPending_eq : d.applyPending g = (((d.ln g).pend.foldl (fun d w => d.putCoef g w.1 w.2) d).set (R.CAL_STATUS.WR_PENDING g) 0).onL g
    fun x => { x with pend := [], dfeOn := x.dfePend.getD x.dfeOn, dfePend := none } := rfl

theorem Dev.ln_applyPending : ∃ o, (d.applyPending g).ln g = { d.ln g with pend := [], dfeOn := o, dfePend := none } := by
  have h : ∀ l : List (Nat × Word), ((l.foldl (fun d w => d.putCoef g w.1 w.2) d).set (R.CAL_STATUS.WR_PENDING g) 0).ln g = d.ln g := fun l => by
    rw [Dev.ln_set]
    exact foldl_keeps (fun e : Dev => e.ln g) (fun e w => Dev.ln_setReg e _ _ g) l d
  rw [Dev.applyPending_eq, Dev.ln_onL_same, h]
  exact ⟨_, rfl⟩

/-- An update point at which no window ends: what its record and its registers show. -/
theorem Dev.updatePoint_spec (h0 : d.cal g ≠ 0) (hw : (d.ln g).winOpen = true → (d.ln g).winPts + 1 < d.winLen g) :
    ((d.updatePoint g).ln g).pend = [] ∧ ((d.updatePoint g).ln g).winOpen = true ∧
    ((d.updatePoint g).ln g).winPts = (if (d.ln g).winOpen then (d.ln g).winPts + 1 else 0) ∧
    ∀ a, A.SPARE_STATUS g ≠ a → (d.updatePoint g).reg a = (d.applyPending g).reg a := by
  obtain ⟨F, hF, he⟩ := d.updatePoint_eq g h0 hw
  obtain ⟨o, ha⟩ := d.ln_applyPending g
  obtain ⟨r, q, v, hs⟩ := (d.applyPending g).ln_sparePoint g
  have hreg : ∀ a, A.SPARE_STATUS g ≠ a → ((d.applyPending g).sparePoint g).reg a = (d.applyPending g).reg a := fun a hne =>
    (LanesOnly.sparePoint (LanesOnly.refl _ [A.SPARE_STATUS g]) 0 rfl).2 a (by rw [List.mem_singleton]; exact hne.symm)
  rw [he]
  by_cases ho : (d.ln g).winOpen = true
  · rw [if_pos ho, if_pos ho, Dev.ln_onL_same]
    obtain ⟨h1, h2, h3⟩ := hF (((d.applyPending g).sparePoint g).ln g)
    rw [hs, ha] at h1 h2 h3
    rw [hs, ha]
    refine ⟨h3, h2.trans ho, h1, fun a hne => ?_⟩
    rw [Dev.reg_onL, hreg a hne]
  · rw [if_neg ho, if_neg ho]
    obtain ⟨h1, h2, h3⟩ := ((d.applyPending g).sparePoint g).ln_startWindow g
    rw [hs, ha] at h3
    refine ⟨h3, h1, h2, fun a hne => ?_⟩
    rw [Dev.startWindow, Dev.reg_onL, hreg a hne]

theorem Dev.winLen_rxWords (ws : List LaneWord) : (d.rxWords g ws).winLen g = d.winLen g := by
  rw [Dev.winLen, Dev.cal, Dev.mlock, Dev.get_rxWords, Dev.on_rxWords, Dev.get_rxWords, Dev.get_rxWords, Dev.winLen, Dev.cal, Dev.mlock]

theorem Dev.applyPending_one {j : Nat} {v : Word} (h : (d.ln g).pend = [(j, v)]) : (d.applyPending g).reg (A.CAL_COEF g j) = v.toNat % 2 ^ 32 := by
  unfold Dev.applyPending
  dsimp only
  rw [h, List.foldl_cons, List.foldl_nil, Dev.reg_onL, Dev.reg_set_ne (a := A.CAL_COEF g j) _ (R.CAL_STATUS.WR_PENDING g) _
    (by simp only [R.CAL_STATUS.WR_PENDING, A.CAL_STATUS, A.CAL_COEF]; omega), Dev.putCoef, Dev.reg_setReg_same]

theorem Dev.wrPending_applyPending : (d.applyPending g).on (R.CAL_STATUS.WR_PENDING g) = false := by
  unfold Dev.applyPending
  dsimp only
  rw [Dev.on_onL, Dev.on_set_same _ _ _ (Fld.ok_of_ble rfl)]
  rfl

/-! The judgement of a window. -/

omit d g in
theorem CalKeep.field {g : Nat} {d d' : Dev} (h : CalKeep g d d') {f : Fld} (hf : f ∈ calFields g) : d'.get f = d.get f := h f hf

section
variable {d g} {d' : Dev} (h : CalKeep g d d')
include h

theorem CalKeep.state : d'.cal g = d.cal g := h (R.CAL_STATUS.STATE g) (by simp [calFields, calOffsets, R.CAL_STATUS.STATE, A.CAL_STATUS])
theorem CalKeep.starved : d'.on (R.CAL_STATUS.STARVED g) = d.on (R.CAL_STATUS.STARVED g) := by
  rw [Dev.on, h (R.CAL_STATUS.STARVED g) (by simp [calFields, calOffsets, R.CAL_STATUS.STARVED, A.CAL_STATUS]), Dev.on]
theorem CalKeep.seen : d'.on (R.CAL_STATUS.STARVED_SEEN g) = d.on (R.CAL_STATUS.STARVED_SEEN g) := by
  rw [Dev.on, h (R.CAL_STATUS.STARVED_SEEN g) (by simp [calFields, calOffsets, R.CAL_STATUS.STARVED_SEEN, A.CAL_STATUS]), Dev.on]
theorem CalKeep.passRun : d'.get (R.CAL_STATUS.PASS_RUN g) = d.get (R.CAL_STATUS.PASS_RUN g) :=
  h _ (by simp [calFields, calOffsets, R.CAL_STATUS.PASS_RUN, A.CAL_STATUS])
theorem CalKeep.updates : d'.get (R.CAL_STATUS.UPDATES g) = d.get (R.CAL_STATUS.UPDATES g) :=
  h _ (by simp [calFields, calOffsets, R.CAL_STATUS.UPDATES, A.CAL_STATUS])
theorem CalKeep.resume : d'.get (R.CAL_CTRL.RESUME g) = d.get (R.CAL_CTRL.RESUME g) :=
  h _ (by simp [calFields, calOffsets, R.CAL_CTRL.RESUME, A.CAL_CTRL])
theorem CalKeep.mlock : d'.mlock g = d.mlock g := by
  rw [Dev.mlock, Dev.on, h (R.RX_STATUS.MARKER_LOCK g) (by simp [calFields, calOffsets, R.RX_STATUS.MARKER_LOCK, A.RX_STATUS]), Dev.mlock, Dev.on]

end

theorem CoefKeep.measured : CoefKeep g d (d.measured g) := by
  refine CoefKeep.onL (CoefKeep.refl d) ?_
  exact fun _ => rfl

/-- R45: a window with a loss of signal fails. -/
theorem Dev.judgeWindow_fails (hc : d.cal g = 1 ∨ d.cal g = 2) (hl : (d.ln g).winLos = true) : (d.judgeWindow g).cal g = 3 ∧
    (d.judgeWindow g).on (R.CAL_STATUS.STARVED g) = true ∧ (d.judgeWindow g).on (R.CAL_STATUS.STARVED_SEEN g) = true ∧
    (d.judgeWindow g).get (R.CAL_STATUS.PASS_RUN g) = 0 ∧ CoefKeep g d (d.judgeWindow g) := by
  have hfail : d.lanePasses g (d.included g) = false := by
    rw [Dev.lanePasses, hl]
    rfl
  have he : d.judgeWindow g = ((d.measured g).set (R.CAL_STATUS.PASS_RUN g) 0).setCal g 3 := by
    rw [Dev.judgeWindow_eq, hfail, if_pos (by rfl), if_neg (by rw [calStarved, calFrozen]; omega)]
    rfl
  have hcal : ((d.measured g).set (R.CAL_STATUS.PASS_RUN g) 0).cal g = d.cal g := by
    rw [Dev.cal, Dev.get_set_apart _ _ (Fld.ok_of_ble rfl) (Fld.apart_of_offset rfl rfl rfl), Dev.measured, Dev.get_onL, Dev.cal]
  obtain ⟨h1, h2⟩ := ((d.measured g).set (R.CAL_STATUS.PASS_RUN g) 0).starved_setCal g (by rw [hcal]; omega)
  rw [he]
  refine ⟨Dev.cal_setCal _ _ (by norm_num), h1, h2, ?_, ?_⟩
  · rw [Dev.get_setCal _ _ _ rfl (by norm_num [R.CAL_STATUS.PASS_RUN]), Dev.get_set_same _ _ _ (Fld.ok_of_ble rfl)]
    rfl
  · exact ((CoefKeep.measured d g).set 0x18 rfl rfl).setCal

theorem CalKeep.passed : CalKeep g ((d.measured g).inc (R.CAL_STATUS.PASS_RUN g)) (d.passed g) := by
  have h : CalKeep g ((d.measured g).inc (R.CAL_STATUS.PASS_RUN g)) ((List.range 64).foldl (fun d s => d.calPops g s) ((d.measured g).inc (R.CAL_STATUS.PASS_RUN g))) :=
    List.foldlRecOn (motive := CalKeep g _) _ _ (CalKeep.refl _) fun e he s _ => he.calPops
  exact .ite h.calPops h

theorem CoefKeep.passed : CoefKeep g d (d.passed g) := by
  have h0 : CoefKeep g d ((d.measured g).inc (R.CAL_STATUS.PASS_RUN g)) := (CoefKeep.measured d g).set 0x18 rfl rfl
  have h : CoefKeep g d ((List.range 64).foldl (fun d s => d.calPops g s) ((d.measured g).inc (R.CAL_STATUS.PASS_RUN g))) :=
    List.foldlRecOn (motive := CoefKeep g d) _ _ h0 fun e he s _ => he.calPops
  exact .ite h.calPops h

/-- The fields beside PASS_RUN once a passing window is counted. -/
theorem Dev.get_counted {f : Fld} (h : (R.CAL_STATUS.PASS_RUN g).apart f) : ((d.measured g).inc (R.CAL_STATUS.PASS_RUN g)).get f = d.get f := by
  rw [Dev.get_inc_apart _ _ _ _ (Fld.ok_of_ble rfl) h, Dev.measured, Dev.get_onL]

theorem Dev.cal_passed : (d.passed g).cal g = d.cal g := (CalKeep.passed d g).state.trans (d.get_counted g (Fld.apart_of_offset rfl rfl rfl))

theorem Dev.passRun_passed : (d.passed g).get (R.CAL_STATUS.PASS_RUN g) = min 15 (d.get (R.CAL_STATUS.PASS_RUN g) + 1) := by
  rw [(CalKeep.passed d g).passRun, Dev.get_inc_same _ _ _ (Fld.ok_of_ble rfl), Dev.measured, Dev.get_onL]
  rfl

section
variable (hp : d.lanePasses g (d.included g) = true)
include hp

theorem Dev.judgeWindow_updates (hc : d.cal g = 1 ∨ d.cal g = 2) : (d.judgeWindow g).cal g = d.cal g ∧
    (d.judgeWindow g).get (R.CAL_STATUS.PASS_RUN g) = min 15 (d.get (R.CAL_STATUS.PASS_RUN g) + 1) ∧
    (d.judgeWindow g).get (R.CAL_STATUS.UPDATES g) = (d.get (R.CAL_STATUS.UPDATES g) + 1) % 65536 := by
  have hslices : ∀ sp, CalKeep g (d.passed g) ((d.passed g).updatedSlices g (d.included g) sp) := fun sp => by
    have h : CalKeep g (d.passed g) ((List.range 64).foldl (fun e s => e.calSlice g (d.included g) s s) (d.passed g)) :=
      List.foldlRecOn (motive := CalKeep g _) _ _ (CalKeep.refl _) fun e he s _ => he.calSlice
    unfold Dev.updatedSlices
    split
    · exact h.calSlice
    · exact h
  have hsp := hslices ((d.measured g).spareAt g)
  have hk : CalKeep g (((d.passed g).updatedSlices g (d.included g) ((d.measured g).spareAt g)).incW (R.CAL_STATUS.UPDATES g)) (d.judgeWindow g) := by
    rw [Dev.judgeWindow_eq, hp, if_neg (by simp), if_neg (by rw [calStarved]; omega), if_neg (by rw [calFrozen]; omega)]
    exact .ite (CalKeep.refl _).endVisit (CalKeep.refl _)
  refine ⟨?_, ?_, ?_⟩
  · rw [hk.state, Dev.cal, Dev.incW, Dev.get_set_apart _ _ (Fld.ok_of_ble rfl) (Fld.apart_of_offset rfl rfl rfl), ← Dev.cal, hsp.state, Dev.cal_passed]
  · rw [hk.passRun, Dev.incW, Dev.get_set_apart _ _ (Fld.ok_of_ble rfl) (Fld.apart_of_offset rfl rfl rfl), hsp.passRun, Dev.passRun_passed]
  · rw [hk.updates, Dev.incW, Dev.get_set_same _ _ _ (Fld.ok_of_ble rfl), hsp.updates, (CalKeep.passed d g).updates,
      Dev.get_counted _ _ (Fld.apart_of_offset rfl rfl rfl)]
    rfl

theorem Dev.cal_judgeWindow_starved (hc : d.cal g = 3) : (d.judgeWindow g).cal g =
    if min 15 (d.get (R.CAL_STATUS.PASS_RUN g) + 1) < d.get (R.CAL_CTRL.RESUME g) then 3 else if d.mlock g then 2 else 1 := by
  have hlock : (d.passed g).mlock g = d.mlock g := by
    rw [(CalKeep.passed d g).mlock, Dev.mlock, Dev.on, d.get_counted g (Fld.apart_of_offset rfl rfl rfl)]
    rfl
  rw [Dev.judgeWindow_eq, hp, if_neg (by simp), if_pos (show d.cal g = calStarved from hc), Dev.passRun_passed, (CalKeep.passed d g).resume,
    d.get_counted g (Fld.apart_of_offset rfl rfl rfl), Dev.calByLock, hlock]
  by_cases h : min 15 (d.get (R.CAL_STATUS.PASS_RUN g) + 1) < d.get (R.CAL_CTRL.RESUME g)
  · rw [if_neg (by omega), if_pos h, Dev.cal_passed, hc]
  · rw [if_pos (by omega), if_neg h, Dev.cal_setCal _ _ (by split <;> norm_num [calTrack, calAcquire])]
    rfl

theorem Dev.judgeWindow_frozen (hc : d.cal g = 4) : (d.judgeWindow g).cal g = 4 ∧
    (d.judgeWindow g).get (R.CAL_STATUS.PASS_RUN g) = min 15 (d.get (R.CAL_STATUS.PASS_RUN g) + 1) ∧ CoefKeep g d (d.judgeWindow g) := by
  have he : d.judgeWindow g = d.passed g := by
    rw [Dev.judgeWindow_eq, hp, if_neg (by simp), if_neg (by rw [hc]; decide), if_pos (show d.cal g = calFrozen from hc)]
  rw [he]
  exact ⟨(d.cal_passed g).trans hc, d.passRun_passed g, CoefKeep.passed d g⟩

end

/-! A write to CAL_CTRL (R47). -/

def Dev.calWritten (v : Nat) : Dev := d.sw Row.CAL_CTRL (A.CAL_CTRL g) v

theorem Dev.calCtrl_eq (v : Nat) : d.calCtrl g v = if (d.calWritten g v).cal g = calHold then d.calWritten g v
    else if !(d.calWritten g v).on (R.CAL_CTRL.EN g) then
      if (d.calWritten g v).cal g = calFrozen then d.calWritten g v else ((d.calWritten g v).dropWindow g).setCal g calFrozen
    else if (d.calWritten g v).cal g = calFrozen then ((d.calWritten g v).dropWindow g).setCal g ((d.calWritten g v).calByLock g)
    else d.calWritten g v := rfl

theorem Dev.on_calWritten (v : Nat) (b : Bool) : (d.calWritten g (putBit v 0 b)).on (R.CAL_CTRL.EN g) = b := by
  have h : (d.calWritten g (putBit v 0 b)).get (R.CAL_CTRL.EN g) = getBits (putBit v 0 b) 0 0 :=
    Dev.get_sw_any d tidy_CAL_CTRL (f := R.CAL_CTRL.EN g) 8 rfl (putBit v 0 b)
  rw [Dev.on, h, getBits_putBit_same]
  cases b <;> rfl

theorem Dev.get_calWritten (v : Nat) {f : Fld} (h : A.CAL_CTRL g ≠ f.addr) : (d.calWritten g v).get f = d.get f := Dev.get_sw_ne d _ _ _ h

/-- The state entered leaves CAL_CTRL and the receive status of its lane. -/
theorem Dev.on_setCal {f : Fld} (s : Nat) (h1 : A.CAL_STATUS g ≠ f.addr) (h2 : A.LMS_STATUS g ≠ f.addr) : (d.setCal g s).on f = d.on f :=
  Dev.on_congr (((LanesOnly.refl d [A.CAL_STATUS g, A.LMS_STATUS g]).setCal 0 1 rfl rfl).2 _ (by
    simp only [List.mem_cons, List.not_mem_nil, or_false, not_or]
    exact ⟨h1.symm, h2.symm⟩))

end

end Sys2Proof.Machine

open Sys2Proof.Machine

/-- Settles O16. -/
theorem calibrationControl : Obligations.CalibrationControl := by
  constructor
  · intro g src j v ws s d
    refine ⟨fun hb => ⟨fun h0 => ?_, fun h0 => ?_⟩, fun ha h0 hw => ?_, fun hb => ⟨fun h0 => ?_, fun h4 => ?_, fun h4 => ?_, fun h0 => ?_⟩⟩
    · have h := makes_of_gate (c := .calCoefWrite src g j v) (f := fun d => d.writeCoef g j v) rfl hb
      rwa [Dev.writeCoef, if_pos (show d.cal g = calHold from h0)] at h
    · have h := makes_of_gate (c := .calCoefWrite src g j v) (f := fun d => d.writeCoef g j v) rfl hb
      rw [Dev.writeCoef, if_neg (show ¬ d.cal g = calHold from h0)] at h
      have hl : LanesOnly d (d.set (R.CAL_STATUS.WR_PENDING g) 1) [A.CAL_STATUS g] := .set (.refl _ _) 0 rfl
      refine h.gives ⟨?_, ?_, ?_⟩
      · dsimp only
        rw [Dev.on_onL, Dev.on_set_same _ _ _ (Fld.ok_of_ble rfl)]
        rfl
      · dsimp only
        rw [Dev.ln_onL_same, Dev.ln_set]
      · dsimp only
        exact hl.onL
    · have h := makes_of_live (c := .updatePoint ⟨g, ws⟩) (f := fun d => (d.rxWords g ws).updatePoint g) rfl ha
      obtain ⟨rx, acc, tx, hm⟩ := d.ln_rxWords g ws
      have hlen : (d.rxWords g ws).winLen g = d.winLen g := Dev.winLen_rxWords ..
      obtain ⟨h1, h2, h3, h4⟩ := (d.rxWords g ws).updatePoint_spec g (by rw [Dev.cal, Dev.get_rxWords]; exact h0) (by rw [hlen, hm]; exact hw)
      rw [hm] at h3
      refine h.gives ⟨fun hp => ?_, h1, ?_, h2, h3⟩
      · dsimp only
        have hp' : ((d.rxWords g ws).ln g).pend = [(j.val, v)] := by rw [hm]; exact hp
        rw [h4 _ (by simp only [A.SPARE_STATUS, A.CAL_COEF]; omega), Dev.applyPending_one _ _ hp', Nat.mod_eq_of_lt v.isLt]
      · dsimp only
        rw [Dev.on_congr (h4 (R.CAL_STATUS.WR_PENDING g).addr (ne_of_offset (base := laneBase g) rfl rfl rfl))]
        exact Dev.wrPending_applyPending ..
    · have h := makes_of_gate (c := .calFreeze src g v) (f := fun d => d.calCtrl g (putBit v.toNat 0 false)) rfl hb
      have hen := d.on_calWritten g v.toNat false
      have hcal : (d.calWritten g (putBit v.toNat 0 false)).cal g = d.cal g := Dev.get_calWritten _ _ _ (ne_of_offset rfl rfl rfl)
      have hkeep : CoefKeep g d (d.calWritten g (putBit v.toNat 0 false)) := (CoefKeep.refl d).setReg 0x10 rfl rfl
      rw [Dev.calCtrl_eq, hcal, if_neg (show ¬ d.cal g = calHold from h0), hen, if_pos (show (!false) = true from rfl)] at h
      split at h
      · next h4 => exact h.gives ⟨hcal.trans h4, hen, hkeep.1⟩
      · refine h.gives ⟨Dev.cal_setCal _ _ (by norm_num [calFrozen]), ?_, hkeep.dropWindow.setCal.1⟩
        dsimp only
        rw [Dev.on_setCal _ _ _ (ne_of_offset rfl rfl rfl) (ne_of_offset rfl rfl rfl), Dev.dropWindow, Dev.on_onL, hen]
    · have h := makes_of_gate (c := .calUnfreeze src g v) (f := fun d => d.calCtrl g (putBit v.toNat 0 true)) rfl hb
      have hen := d.on_calWritten g v.toNat true
      have hcal : (d.calWritten g (putBit v.toNat 0 true)).cal g = d.cal g := Dev.get_calWritten _ _ _ (ne_of_offset rfl rfl rfl)
      have hlock : (d.calWritten g (putBit v.toNat 0 true)).mlock g = d.mlock g := by
        rw [Dev.mlock, Dev.on, Dev.get_calWritten _ _ _ (ne_of_offset rfl rfl rfl)]
        rfl
      rw [Dev.calCtrl_eq, hcal, if_neg (by rw [h4]; decide), hen, if_neg (show ¬ (!true) = true by simp), if_pos (show d.cal g = calFrozen from h4), Dev.calByLock, hlock] at h
      obtain ⟨rx, hln⟩ := ((d.calWritten g (putBit v.toNat 0 true)).dropWindow g).ln_setCal g (if d.mlock g then calTrack else calAcquire)
      refine h.gives ⟨Dev.cal_setCal _ _ (by split <;> norm_num [calTrack, calAcquire]), ?_, ?_⟩
      · dsimp only
        rw [Dev.on_setCal _ _ _ (ne_of_offset rfl rfl rfl) (ne_of_offset rfl rfl rfl), Dev.dropWindow, Dev.on_onL, hen]
      · dsimp only
        rw [hln, Dev.dropWindow, Dev.ln_onL_same]
    · have h := makes_of_gate (c := .calUnfreeze src g v) (f := fun d => d.calCtrl g (putBit v.toNat 0 true)) rfl hb
      have hen := d.on_calWritten g v.toNat true
      have hcal : (d.calWritten g (putBit v.toNat 0 true)).cal g = d.cal g := Dev.get_calWritten _ _ _ (ne_of_offset rfl rfl rfl)
      rw [Dev.calCtrl_eq, hcal, hen, if_neg (show ¬ (!true) = true by simp), if_neg (show ¬ d.cal g = calFrozen from h4), ite_self] at h
      exact h.gives ⟨hcal, hen⟩
    · have h := makes_of_gate (c := .calFreeze src g v) (f := fun d => d.calCtrl g (putBit v.toNat 0 false)) rfl hb
      have hcal : (d.calWritten g (putBit v.toNat 0 false)).cal g = d.cal g := Dev.get_calWritten _ _ _ (ne_of_offset rfl rfl rfl)
      rw [Dev.calCtrl_eq, hcal, if_pos (show d.cal g = calHold from h0)] at h
      exact h.gives (hcal.trans h0)
  · intro g ws s d m run ha ho hl
    refine ⟨fun hc hlos hp => ?_, fun h0 hpass => ?_⟩
    · have h := makes_of_live (c := .calWindowEnd g ws) (f := fun d => (d.rxWords g ws).windowEnd g) rfl ha
      obtain ⟨rx, acc, tx, hm⟩ := d.ln_rxWords g ws
      have hcal : m.cal g = d.cal g := Dev.get_rxWords ..
      have h0 : m.cal g ≠ 0 := by rw [hcal]; omega
      rw [m.windowEnd_eq g h0 (by rw [hm]; exact ho) (by rw [Dev.winLen_rxWords, hm]; exact hl)] at h
      obtain ⟨hj, hst, hseen, hrun, hco⟩ := m.judgeWindow_fails g (by omega) (by rw [hm]; exact hlos)
      have hk := (CalKeep.refl (m.judgeWindow g)).windowNext (g := g)
      obtain ⟨hw1, hw2, -⟩ := (m.judgeWindow g).ln_windowNext g
      refine h.gives ⟨(hk.state).trans hj, (hk.starved).trans hst, (hk.seen).trans hseen, (hk.passRun).trans hrun, hw1, hw2, fun k hk65 => ?_⟩
      dsimp only
      rw [Dev.coef_windowNext _ _ (by rw [hco.2, hm]; exact hp) k hk65, hco.1 k hk65, Dev.reg_rxWords]
    · have h := makes_of_live (c := .calWindowEnd g ws) (f := fun d => (d.rxWords g ws).windowEnd g) rfl ha
      obtain ⟨rx, acc, tx, hm⟩ := d.ln_rxWords g ws
      have hcal : m.cal g = d.cal g := Dev.get_rxWords ..
      rw [m.windowEnd_eq g (by rw [hcal]; exact h0) (by rw [hm]; exact ho) (by rw [Dev.winLen_rxWords, hm]; exact hl)] at h
      have hk := (CalKeep.refl (m.judgeWindow g)).windowNext (g := g)
      have hrun : min 15 (m.get (R.CAL_STATUS.PASS_RUN g) + 1) = run := by rw [Dev.get_rxWords]
      refine h.gives ⟨fun hc => ?_, fun hc => ?_, fun hc => ?_, (m.judgeWindow g).ln_windowNext g⟩
      · obtain ⟨h1, h2, h3⟩ := m.judgeWindow_updates g hpass (by rw [hcal]; exact hc)
        rw [hrun] at h2
        rw [Dev.get_rxWords] at h3
        exact ⟨(hk.state).trans (h1.trans hcal), (hk.passRun).trans h2, (hk.updates).trans h3⟩
      · refine hk.state.trans ?_
        rw [m.cal_judgeWindow_starved g hpass (hcal.trans hc), hrun, Dev.get_rxWords, Dev.mlock, Dev.on_rxWords]
      · obtain ⟨h1, h2, h3⟩ := m.judgeWindow_frozen g hpass (hcal.trans hc)
        rw [hrun] at h2
        refine ⟨hk.state.trans h1, hk.passRun.trans h2, fun hp k hk65 => ?_⟩
        dsimp only
        rw [Dev.coef_windowNext _ _ (by rw [h3.2, hm]; exact hp) k hk65, h3.1 k hk65, Dev.reg_rxWords]

end

section
/-! The records of the NV store: what a record written reads back as (R353, R354). -/

open Sys2Proof

namespace Sys2Proof.Machine

/-! Bytes and words. -/

theorem bytesLE_leNat (l : List Byte) : bytesLE (leNat l) l.length = l := by
  induction l with
  | nil => rfl
  | cons b t ih =>
    have hb := b.isLt
    rw [List.length_cons, bytesLE, leNat, show (b.toNat + 256 * leNat t) / 256 = leNat t by omega, ih]
    congr 1
    apply BitVec.eq_of_toNat_eq
    simp only [BitVec.toNat_ofNat]
    omega

/-- A list cut into pieces of n bytes and put together again. -/
theorem flatMap_pieces (l : List Byte) (n k : Nat) : (List.range k).flatMap (fun i => (l.drop (n * i)).take n) = l.take (n * k) := by
  induction k with
  | zero => rw [Nat.mul_zero, List.take_zero]; rfl
  | succ k ih => rw [List.range_succ, List.flatMap_append, ih, Nat.mul_succ, List.take_add, List.flatMap_singleton]

theorem blk_append_left {l m : List Byte} {i n : Nat} (h : i + n ≤ l.length) : blk (l ++ m) i n = blk l i n := by
  rw [blk, blk, List.drop_append_of_le_length (by omega), List.take_append_of_le_length (by rw [List.length_drop]; omega)]

theorem blk_append_right {l m : List Byte} {i n : Nat} (h : l.length = i) : blk (l ++ m) i n = blk m 0 n := by
  rw [blk, blk, ← h, List.drop_left, List.drop_zero]

theorem blk_bytesLE (x n : Nat) : blk (bytesLE x n) 0 n = x % 256 ^ n := by
  rw [blk, List.drop_zero, List.take_of_length_le (length_bytesLE x n).le, leNat_bytesLE]

theorem blk_lt (l : List Byte) (i n : Nat) : blk l i n < 256 ^ n :=
  Nat.lt_of_lt_of_le (leNat_lt _) (Nat.pow_le_pow_right (by decide) (List.length_take_le _ _))

/-! Words written one after another. -/

theorem Store.raw_putWord_ne (s : Store) {i j : Nat} (v : Nat) (h : i ≠ j) : (s.putWord i v).raw j = s.raw j := by
  have hb : (s.putWord i v).bytes (8 * j) 8 = s.bytes (8 * j) 8 := by
    refine Store.bytes_congr _ _ fun k hk => ?_
    rw [Store.byte_putWord, if_neg (by omega)]
  rw [Store.raw, hb, Store.raw]

/-- The n words from a on, word i with value x i. -/
def Store.putWords (s : Store) (a n : Nat) (x : Nat → Nat) : Store := (List.range n).foldl (fun st i => st.putWord (a + i) (x i)) s

variable (s : Store) (a n : Nat) (x : Nat → Nat)

theorem Store.putWords_succ : s.putWords a (n + 1) x = (s.putWords a n x).putWord (a + n) (x n) := by
  rw [Store.putWords, List.range_succ, List.foldl_concat, Store.putWords]

theorem Store.read_putWords (i : Nat) (h : i < n) : (s.putWords a n x).read (a + i) = (x i % 2 ^ 64, .clean) := by
  induction n with
  | zero => omega
  | succ n ih =>
    rw [Store.putWords_succ]
    by_cases hi : i = n
    · rw [hi, Store.read_putWord]
    · rw [Store.read_putWord_ne _ _ (by omega), ih (by omega)]

theorem Store.read_putWords_ne {j : Nat} (h : j < a ∨ a + n ≤ j) : (s.putWords a n x).read j = s.read j := by
  induction n with
  | zero => rfl
  | succ n ih => rw [Store.putWords_succ, Store.read_putWord_ne _ _ (by omega), ih (by omega)]

theorem Store.raw_putWords (i : Nat) (h : i < n) : (s.putWords a n x).raw (a + i) = x i % 2 ^ 64 := by
  induction n with
  | zero => omega
  | succ n ih =>
    rw [Store.putWords_succ]
    by_cases hi : i = n
    · rw [hi, Store.raw_putWord]
    · rw [Store.raw_putWord_ne _ _ (by omega), ih (by omega)]

theorem Store.raw_putWords_ne {j : Nat} (h : j < a ∨ a + n ≤ j) : (s.putWords a n x).raw j = s.raw j := by
  induction n with
  | zero => rfl
  | succ n ih => rw [Store.putWords_succ, Store.raw_putWord_ne _ _ (by omega), ih (by omega)]

/-! Record slots. -/

variable (v : Vault) (k : Nat) (l : List Byte)

/-- The vault with the 64 bytes l in record slot k. -/
def Vault.putSlot : Vault := { v with nv := v.nv.putWords (8 * k) 8 fun i => blk l (8 * i) 8 }

theorem Vault.slot_putSlot (h : l.length = 64) : (v.putSlot k l).slot k = l := by
  have hw (i : Nat) (hi : i ∈ List.range 8) : bytesLE ((v.putSlot k l).nv.read (8 * k + i)).1 8 = (l.drop (8 * i)).take 8 := by
    have hl : ((l.drop (8 * i)).take 8).length = 8 := by
      have := List.mem_range.1 hi
      rw [List.length_take, List.length_drop]
      omega
    have hr : (v.putSlot k l).nv.read (8 * k + i) = _ := Store.read_putWords _ _ _ _ i (List.mem_range.1 hi)
    have hm : blk l (8 * i) 8 % 2 ^ 64 = blk l (8 * i) 8 := Nat.mod_eq_of_lt (blk_lt l (8 * i) 8)
    have hlb := bytesLE_leNat ((l.drop (8 * i)).take 8)
    rw [hl] at hlb
    rw [hr, hm, blk, hlb]
  rw [Vault.slot, List.flatMap_congr hw, flatMap_pieces, List.take_of_length_le h.le]

theorem Vault.slot_putSlot_ne {j : Nat} (h : j ≠ k) : (v.putSlot k l).slot j = v.slot j := by
  refine List.flatMap_congr fun i hi => ?_
  have := List.mem_range.1 hi
  have hr : (v.putSlot k l).nv.read (8 * j + i) = v.nv.read (8 * j + i) := Store.read_putWords_ne _ _ _ _ (by omega)
  rw [hr]

theorem crcByte_lt {c : Nat} (b : Byte) (h : c < 2 ^ 32) : crcByte c b < 2 ^ 32 := by
  have hb : b.toNat < 2 ^ 32 := by have := b.isLt; omega
  unfold crcByte
  refine List.foldlRecOn (motive := fun c => c < 2 ^ 32) _ _ (Nat.xor_lt_two_pow h hb) fun c hc _ _ => ?_
  split
  · exact Nat.xor_lt_two_pow (by omega) (by decide)
  · omega

theorem fcsOf_lt : fcsOf l < 2 ^ 32 :=
  Nat.xor_lt_two_pow (List.foldlRecOn (motive := fun c => c < 2 ^ 32) _ _ (by decide) fun _ hc b _ => crcByte_lt b hc) (by decide)

/-- R353: the slot after the newest of an area. -/
def Vault.freeSlot (area : Nat) : Nat := 64 * area + (v.newest area).elim 0 (fun b => (b.1 + 1) % 64)

/-- R353: the 60 bytes of a record before its CRC. -/
def recordBody (d : Dev) (v : Vault) (type : Nat) (data : List Byte) : List Byte :=
  bytesLE type 4 ++ bytesLE (v.seq + 1) 4 ++ bytesLE (d.time.ps + d.time.sec % 2 ^ 24 * 2 ^ 40) 8 ++ ((data ++ List.replicate 44 0).take 44)

theorem length_recordBody (d : Dev) (type : Nat) (data : List Byte) : (recordBody d v type data).length = 60 := by
  simp [recordBody]

theorem nvAppend_eq (d : Dev) (area type : Nat) (data : List Byte) : nvAppend d v area type data =
    (d.nvBusy 8, v.putSlot (v.freeSlot area) (recordBody d v type data ++ bytesLE (fcsOf (recordBody d v type data)) 4)) := rfl

theorem recorded_nvAppend (d : Dev) (area : Nat) {type : Nat} {data : List Byte} (ht : type < 2 ^ 32) (hd : data.length ≤ 44) :
    Recorded v (nvAppend d v area type data).2 area type data := by
  have hb := length_recordBody v d type data
  have hs : (nvAppend d v area type data).2.slot (v.freeSlot area) = recordBody d v type data ++ bytesLE (fcsOf (recordBody d v type data)) 4 := by
    rw [nvAppend_eq, Vault.slot_putSlot _ _ _ (by rw [List.length_append, hb, length_bytesLE])]
  have ha : ((nvAppend d v area type data).2.slot (v.freeSlot area)).take 60 = recordBody d v type data := by
    rw [hs, ← hb, List.take_left]
  refine ⟨?_, ?_, ?_, ?_, fun i _ hi => Vault.slot_putSlot_ne _ _ _ hi⟩
  · show blk ((nvAppend d v area type data).2.slot (v.freeSlot area)) 0 4 = type
    rw [hs, blk_append_left (by omega), recordBody, List.append_assoc, List.append_assoc, blk_append_left (by simp), blk_bytesLE,
      Nat.mod_eq_of_lt (by simpa using ht)]
  · show blk ((nvAppend d v area type data).2.slot (v.freeSlot area)) 4 4 = _
    rw [hs, blk_append_left (by omega), recordBody, List.append_assoc, List.append_assoc, blk_append_right (by simp), blk_append_left (by simp),
      blk_bytesLE]
    norm_num
  · show blk ((nvAppend d v area type data).2.slot (v.freeSlot area)) 60 4 = fcsOf (((nvAppend d v area type data).2.slot (v.freeSlot area)).take 60)
    rw [ha, hs, blk_append_right hb, blk_bytesLE, Nat.mod_eq_of_lt (by simpa using fcsOf_lt _)]
  · show (((nvAppend d v area type data).2.slot (v.freeSlot area)).drop 16).take data.length = data
    have hp : (bytesLE type 4 ++ bytesLE (v.seq + 1) 4 ++ bytesLE (d.time.ps + d.time.sec % 2 ^ 24 * 2 ^ 40) 8).length = 16 := by simp
    rw [hs, recordBody, List.append_assoc, ← hp, List.drop_left, List.take_append_of_le_length (by simp; omega), List.take_take,
      Nat.min_eq_left hd, List.take_append_of_le_length le_rfl, List.take_length]

end Sys2Proof.Machine
end

section
/-! The debug port: challenge, levels, lockout, session end and DBG_HOLD (R356 to R361). -/

open Sys2Proof

namespace Sys2Proof.Machine

/-! The challenge. -/

variable (d : Dev) (v : Vault)

/-- The nonce drawn anew. -/
def Dev.drawNonce : List DWord × Dev :=
  (List.range 4).foldl (fun (x : List DWord × Dev) _ => (x.1 ++ [x.2.draw.1], x.2.draw.2)) ([], d)

theorem Dev.nonce_eq : d.nonce = if d.sec.nonce.length = 4 then (d.sec.nonce, d)
    else (d.drawNonce.1, d.drawNonce.2.onSec fun s => { s with nonce := d.drawNonce.1 }) := rfl

theorem Dev.drawNonce_spec : d.drawNonce.1.length = 4 ∧ ∃ n, d.drawNonce.2 = { d with freeCtr := n } := ⟨rfl, _, rfl⟩

/-- Drawing the nonce changes nothing but the nonce and the count of draws. -/
theorem Dev.nonce_spec : ∃ l n, l.length = 4 ∧ d.nonce = (l, { d with sec := { d.sec with nonce := l }, freeCtr := n }) ∧
    (d.sec.nonce.length = 4 → l = d.sec.nonce) := by
  by_cases h : d.sec.nonce.length = 4
  · exact ⟨d.sec.nonce, d.freeCtr, h, by rw [Dev.nonce_eq, if_pos h], fun _ => rfl⟩
  · obtain ⟨hl, n, hn⟩ := d.drawNonce_spec
    exact ⟨_, n, hl, by rw [Dev.nonce_eq, if_neg h, hn]; rfl, fun h' => absurd h' h⟩

theorem Dev.challenge_eq : d.challenge v = (d.nonce.1.flatMap (fun x => bytesLE x.toNat 8) ++ bytesLE v.serialNo.toNat 8 ++ bytesLE v.life 1
    ++ bytesLE (d.nonce.2.get R.DBG_STATUS.FAILS) 1 ++ List.replicate 22 0, d.nonce.2) := rfl

/-- R357: the challenge: nonce, serial number, life-cycle state and failures. -/
theorem Dev.challenge_spec : ∃ l n, l.length = 4 ∧ (d.sec.nonce.length = 4 → l = d.sec.nonce) ∧
    d.challenge v = (l.flatMap (fun x => bytesLE x.toNat 8) ++ bytesLE v.serialNo.toNat 8 ++ bytesLE v.life 1
      ++ bytesLE (d.get R.DBG_STATUS.FAILS) 1 ++ List.replicate 22 0, { d with sec := { d.sec with nonce := l }, freeCtr := n }) := by
  obtain ⟨l, n, hl, hn, hk⟩ := d.nonce_spec
  refine ⟨l, n, hl, hk, ?_⟩
  rw [Dev.challenge_eq, hn]
  rfl

/-- Zero bytes at the high end add nothing. -/
theorem leNat_append_zeros (l : List Byte) (n : Nat) : leNat (l ++ List.replicate n 0) = leNat l := by
  have hz : leNat (List.replicate n 0) = 0 := by
    induction n with
    | zero => rfl
    | succ n ih => rw [List.replicate_succ, leNat, ih]; rfl
  rw [leNat_append, hz, Nat.mul_zero, Nat.add_zero]

/-! The check of a response. -/

variable (l : List Byte)

/-- R357: the part with its response judged: the result is shown, and nonce and response are gone. -/
def Dev.judged (r : Nat) : Dev := ((d.challenge v).2.set R.DBG_STATUS.LAST_RESULT r).onSec fun s => { s with resp := none, nonce := [] }

/-- R357: the level asked for is granted. -/
def Dev.levelGranted : Dev := ((d.set R.DBG_STATUS.LEVEL (blk l 0 1)).set R.DBG_STATUS.SLOT (blk l 1 1 + 1)).set R.DBG_STATUS.FAILS 0

/-- R357: one failure more. -/
def Dev.failCounted : Dev := (d.set R.DBG_STATUS.FAILS (d.get R.DBG_STATUS.FAILS + 1)).orF R.SEC_EVT.EVT 4

/-- R357: what the response l to the port's challenge comes to. -/
def Dev.verdict : Nat := (d.challenge v).2.respResult v (d.challenge v).1 l

variable {d v l}

theorem dbgChecked_none (h : d.sec.resp = none) : dbgChecked d v = (d, v) := by
  unfold dbgChecked
  rw [h]

theorem dbgChecked_some (h : d.sec.resp = some l) : dbgChecked d v =
    if d.verdict v l = 1 then nvAppend (((d.judged v (d.verdict v l)).levelGranted l).orF R.SEC_EVT.EVT 2) v 0 0x13 (l.take 2)
    else if d.verdict v l = 6 then (d.judged v (d.verdict v l), v)
    else if (d.judged v (d.verdict v l)).get R.DBG_STATUS.FAILS + 1 = 8 then
      nvAppend (((d.judged v (d.verdict v l)).failCounted.set R.DBG_STATUS.LOCKOUT 1).orF R.SEC_EVT.EVT 8) v 0 0x14
        (bytesLE ((d.judged v (d.verdict v l)).get R.DBG_STATUS.FAILS + 1) 1)
    else ((d.judged v (d.verdict v l)).failCounted, v) := by
  unfold dbgChecked
  rw [h] <;> rfl

variable (d v)

theorem Dev.judged_spec (r : Nat) : ∃ n, d.judged v r = { d.set R.DBG_STATUS.LAST_RESULT r with sec := { d.sec with resp := none, nonce := [] }, freeCtr := n } := by
  obtain ⟨l, n, _, _, hc⟩ := d.challenge_spec v
  refine ⟨n, ?_⟩
  rw [Dev.judged, hc]
  rfl

theorem Dev.reg_judged (r a : Nat) : (d.judged v r).reg a = (d.set R.DBG_STATUS.LAST_RESULT r).reg a := by
  obtain ⟨n, h⟩ := d.judged_spec v r
  rw [h]
  rfl

theorem Dev.get_judged (r : Nat) {f : Fld} (h : R.DBG_STATUS.LAST_RESULT.apart f) : (d.judged v r).get f = d.get f := by
  rw [Dev.get_congr (Dev.reg_judged d v r f.addr), Dev.get_set_apart _ _ (Fld.ok_of_ble rfl) h]

theorem Dev.get_judged_result (r : Nat) : (d.judged v r).get R.DBG_STATUS.LAST_RESULT = r % 16 := by
  rw [Dev.get_congr (Dev.reg_judged d v r _), Dev.get_set_same _ _ _ (Fld.ok_of_ble rfl)]
  rfl

/-- After the judgement: the response and the nonce are gone. -/
theorem Dev.sec_judged (r : Nat) : (d.judged v r).sec.resp = none ∧ (d.judged v r).sec.nonce = [] := by
  obtain ⟨n, h⟩ := d.judged_spec v r
  rw [h]
  exact ⟨rfl, rfl⟩

theorem Dev.locked_challenge : (d.challenge v).2.on R.DBG_STATUS.LOCKOUT = d.on R.DBG_STATUS.LOCKOUT := by
  obtain ⟨l, n, _, _, hc⟩ := d.challenge_spec v
  rw [hc]
  rfl

variable (l)

/-- R361: the levels a slot may have in a life-cycle state. -/
def Vault.Allows (k lv : Nat) : Prop :=
  (v.life = 2 ∧ 1 ≤ lv ∧ lv ≤ 2) ∨ (v.life = 3 ∧ 1 ≤ k ∧ (lv = 1 ∨ (lv = 2 ∧ bit v.pol 0 = true))) ∨
    (v.life = 4 ∧ ((k = 0 ∧ lv = 2) ∨ (1 ≤ k ∧ lv = 1)))

theorem Vault.dbgAllows_iff (k lv : Nat) : v.dbgAllows k lv = true ↔ v.Allows k lv := by
  unfold Vault.dbgAllows Vault.Allows
  split
  · rename_i h; simp [h]
  · rename_i h; simp [h]
  · rename_i h
    by_cases hk : k = 0
    · simp [h, hk]
    · simp [h, hk]; omega
  · rename_i h2 h3 h4
    constructor
    · exact fun h => absurd h Bool.false_ne_true
    · rintro (⟨h, _⟩ | ⟨h, _⟩ | ⟨h, _⟩)
      · exact absurd h h2
      · exact absurd h h3
      · exact absurd h h4

/-- R357: slot k of debug keys can be used. -/
def Vault.SlotOk (k : Nat) : Prop := k ≤ 2 ∧ v.usable (8 + k) = true

/-- R357: the signature of the response l to the port's challenge holds. -/
def Dev.SigOk : Prop := signatureOk ((l.drop 4).take 96) ((l.drop 100).take 96) ((d.challenge v).1 ++ l.take 2) = true

theorem Dev.verdict_eq : d.verdict v l =
    if d.on R.DBG_STATUS.LOCKOUT then 6
    else if 2 < blk l 1 1 ∨ !v.usable (8 + blk l 1 1) then 4
    else if !v.dbgAllows (blk l 1 1) (blk l 0 1) then 5
    else if v.key (8 + blk l 1 1) ≠ some (keyHash ((l.drop 4).take 96)) then 3
    else if !signatureOk ((l.drop 4).take 96) ((l.drop 100).take 96) ((d.challenge v).1 ++ l.take 2) then 2
    else 1 := by
  rw [Dev.verdict, Dev.respResult, Dev.locked_challenge]

theorem Dev.verdict_le : 1 ≤ d.verdict v l ∧ d.verdict v l ≤ 6 := by
  rw [Dev.verdict_eq]
  split_ifs <;> decide

variable {d v l}

theorem Dev.verdict_locked (h : d.on R.DBG_STATUS.LOCKOUT = true) : d.verdict v l = 6 := by rw [Dev.verdict_eq, if_pos h]

/-- R357: the verdict while the port is not locked, cause by cause. -/
theorem Dev.verdict_open (h : d.on R.DBG_STATUS.LOCKOUT = false) :
    (¬ v.SlotOk (blk l 1 1) → d.verdict v l = 4) ∧
    (v.SlotOk (blk l 1 1) → ¬ v.Allows (blk l 1 1) (blk l 0 1) → d.verdict v l = 5) ∧
    (v.SlotOk (blk l 1 1) → v.Allows (blk l 1 1) (blk l 0 1) → v.key (8 + blk l 1 1) ≠ some (keyHash ((l.drop 4).take 96)) → d.verdict v l = 3) ∧
    (v.SlotOk (blk l 1 1) → v.Allows (blk l 1 1) (blk l 0 1) → v.key (8 + blk l 1 1) = some (keyHash ((l.drop 4).take 96)) → ¬ d.SigOk v l → d.verdict v l = 2) ∧
    (v.SlotOk (blk l 1 1) → v.Allows (blk l 1 1) (blk l 0 1) → v.key (8 + blk l 1 1) = some (keyHash ((l.drop 4).take 96)) → d.SigOk v l → d.verdict v l = 1) := by
  have hs : (2 < blk l 1 1 ∨ (!v.usable (8 + blk l 1 1)) = true) ↔ ¬ v.SlotOk (blk l 1 1) := by
    rw [Vault.SlotOk, not_and_or, Nat.not_le, Bool.not_eq_true', Bool.not_eq_true]
  have ha : ((!v.dbgAllows (blk l 1 1) (blk l 0 1)) = true) ↔ ¬ v.Allows (blk l 1 1) (blk l 0 1) := by
    rw [← Vault.dbgAllows_iff, Bool.not_eq_true', Bool.not_eq_true]
  have hg : ((!signatureOk ((l.drop 4).take 96) ((l.drop 100).take 96) ((d.challenge v).1 ++ l.take 2)) = true) ↔ ¬ d.SigOk v l := by
    rw [Dev.SigOk, Bool.not_eq_true', Bool.not_eq_true]
  rw [Dev.verdict_eq, if_neg (Bool.eq_false_iff.1 h)]
  refine ⟨fun h1 => ?_, fun h1 h2 => ?_, fun h1 h2 h3 => ?_, fun h1 h2 h3 h4 => ?_, fun h1 h2 h3 h4 => ?_⟩
  · rw [if_pos (hs.2 h1)]
  · rw [if_neg (mt hs.1 (not_not.2 h1)), if_pos (ha.2 h2)]
  · rw [if_neg (mt hs.1 (not_not.2 h1)), if_neg (mt ha.1 (not_not.2 h2)), if_pos h3]
  · rw [if_neg (mt hs.1 (not_not.2 h1)), if_neg (mt ha.1 (not_not.2 h2)), if_neg (not_not.2 h3), if_pos (hg.2 h4)]
  · rw [if_neg (mt hs.1 (not_not.2 h1)), if_neg (mt ha.1 (not_not.2 h2)), if_neg (not_not.2 h3), if_neg (mt hg.1 (not_not.2 h4))]

theorem Dev.get_judged_verdict : (d.judged v (d.verdict v l)).get R.DBG_STATUS.LAST_RESULT = d.verdict v l := by
  rw [Dev.get_judged_result, Nat.mod_eq_of_lt (by have := (Dev.verdict_le d v l).2; omega)]

theorem Dev.get_failCounted {f : Fld} (h1 : R.DBG_STATUS.FAILS.apart f) (h2 : A.SEC_EVT ≠ f.addr) : d.failCounted.get f = d.get f := by
  rw [Dev.failCounted, Dev.orF, Dev.get_set_reg _ _ _ _ h2, Dev.get_set_apart _ _ (Fld.ok_of_ble rfl) h1]

theorem Dev.fails_failCounted (h : d.get R.DBG_STATUS.FAILS ≤ 7) : d.failCounted.get R.DBG_STATUS.FAILS = d.get R.DBG_STATUS.FAILS + 1 := by
  have hw : R.DBG_STATUS.FAILS.width = 4 := rfl
  rw [Dev.failCounted, Dev.orF, Dev.get_set_reg _ R.SEC_EVT.EVT R.DBG_STATUS.FAILS _ (by decide), Dev.get_set_same _ _ _ (Fld.ok_of_ble rfl), hw,
    Nat.mod_eq_of_lt (by omega)]

theorem Dev.bit_orF (d : Dev) {f : Fld} (hf : f.ok) (m : Nat) {i : Nat} (hi : i < f.width) :
    bit ((d.orF f m).get f) i = (bit (d.get f) i || bit m i) := by
  rw [Dev.get_orF_same _ _ _ hf, bit_eq_testBit, bit_eq_testBit, bit_eq_testBit, Nat.testBit_mod_two_pow, Nat.testBit_or, decide_eq_true hi, Bool.true_and]

theorem Dev.event_failCounted : bit (d.failCounted.get R.SEC_EVT.EVT) 2 = true := by
  rw [Dev.failCounted, Dev.bit_orF _ (Fld.ok_of_ble rfl) _ (by decide), show bit 4 2 = true from rfl, Bool.or_true]

/-- R357: the port locks. -/
def Dev.portLocked (d : Dev) : Dev := (d.set R.DBG_STATUS.LOCKOUT 1).orF R.SEC_EVT.EVT 8

theorem Dev.get_portLocked {f : Fld} (h1 : R.DBG_STATUS.LOCKOUT.apart f) (h2 : A.SEC_EVT ≠ f.addr) : d.portLocked.get f = d.get f := by
  rw [Dev.portLocked, Dev.orF, Dev.get_set_reg _ _ _ _ h2, Dev.get_set_apart _ _ (Fld.ok_of_ble rfl) h1]

theorem Dev.locked_portLocked : d.portLocked.on R.DBG_STATUS.LOCKOUT = true := by
  rw [Dev.portLocked, Dev.orF, Dev.on, Dev.get_set_reg _ _ _ _ (by decide), Dev.get_set_same _ _ _ (Fld.ok_of_ble rfl)]
  rfl

theorem Dev.event_portLocked {i : Nat} (hi : i < 8) : bit (d.portLocked.get R.SEC_EVT.EVT) i = (bit (d.get R.SEC_EVT.EVT) i || bit 8 i) := by
  rw [Dev.portLocked, Dev.bit_orF _ (Fld.ok_of_ble rfl) _ hi, Dev.get_set_reg _ _ _ _ (by decide)]

theorem Dev.sec_portLocked : d.portLocked.sec = d.sec := by rw [Dev.portLocked, Dev.sec_orF, Dev.sec_set]

theorem Dev.sec_failCounted : d.failCounted.sec = d.sec := by rw [Dev.failCounted, Dev.sec_orF, Dev.sec_set]

variable (d) in
theorem Dev.get_nvBusy (n : Nat) (f : Fld) : (d.nvBusy n).get f = d.get f := rfl

variable (d) in
theorem Dev.keys_nvBusy (n : Nat) : (d.nvBusy n).sec.resp = d.sec.resp ∧ (d.nvBusy n).sec.nonce = d.sec.nonce := ⟨rfl, rfl⟩

theorem gives_of_onV {c : Instr} {s : State} {f : Dev → Vault → Dev × Vault} {d : Dev} {v : Vault} {p : State → Prop} (hc : exec c s = s.onV f)
    (h : f s.dev s.vault = (d, v)) (hp : p { s with dev := d, vault := v }) : Gives c s p :=
  ⟨{ s with dev := d, vault := v }, by rw [hc, State.onV, h], rfl, hp⟩

/-- R357: what a response that is refused for any cause but LOCKOUT leaves. -/
theorem gives_failed {s : State} {n : Nat} (hr : s.dev.sec.resp = some l) (hv : s.dev.verdict s.vault l = n) (h1 : n ≠ 1) (h6 : n ≠ 6)
    (hl : s.dev.on R.DBG_STATUS.LOCKOUT = false) (hf : s.dev.get R.DBG_STATUS.FAILS ≤ 7) :
    Gives .dbgRespChecked s fun u => (u.dev.get R.DBG_STATUS.LAST_RESULT = n ∧ u.dev.sec.resp = none ∧ u.dev.sec.nonce = []) ∧
      u.dev.get R.DBG_STATUS.FAILS = s.dev.get R.DBG_STATUS.FAILS + 1 ∧
      u.dev.get R.DBG_STATUS.LEVEL = s.dev.get R.DBG_STATUS.LEVEL ∧ bit (u.dev.get R.SEC_EVT.EVT) 2 = true ∧
      (s.dev.get R.DBG_STATUS.FAILS = 7 → u.dev.on R.DBG_STATUS.LOCKOUT = true ∧ bit (u.dev.get R.SEC_EVT.EVT) 3 = true ∧
        Recorded s.vault u.vault 0 0x14 (bytesLE 8 1)) ∧
      (s.dev.get R.DBG_STATUS.FAILS < 7 → u.dev.on R.DBG_STATUS.LOCKOUT = false ∧ u.vault = s.vault) := by
  obtain ⟨j, hj⟩ : ∃ j, j = s.dev.judged s.vault n := ⟨_, rfl⟩
  have hjf : j.get R.DBG_STATUS.FAILS = s.dev.get R.DBG_STATUS.FAILS := hj ▸ Dev.get_judged _ _ _ (.inr (by decide))
  have hjr : j.get R.DBG_STATUS.LAST_RESULT = n := by rw [hj, ← hv, Dev.get_judged_verdict]
  have hjl : j.get R.DBG_STATUS.LEVEL = s.dev.get R.DBG_STATUS.LEVEL := hj ▸ Dev.get_judged _ _ _ (.inr (by decide))
  have hjk : j.on R.DBG_STATUS.LOCKOUT = false := by
    rw [← hl, Dev.on, Dev.on, hj, Dev.get_judged _ _ _ (.inr (by decide))]
  obtain ⟨hs, hn⟩ : j.sec.resp = none ∧ j.sec.nonce = [] := hj ▸ Dev.sec_judged _ _ _
  have he := dbgChecked_some (v := s.vault) hr
  rw [hv, if_neg h1, if_neg h6, ← hj, hjf] at he
  have hfr := (Dev.fails_failCounted (d := j) (by omega)).trans (by rw [hjf])
  have hr' := (Dev.get_failCounted (d := j) (f := R.DBG_STATUS.LAST_RESULT) (.inr (by decide)) (by decide)).trans hjr
  have hl' := (Dev.get_failCounted (d := j) (f := R.DBG_STATUS.LEVEL) (.inr (by decide)) (by decide)).trans hjl
  by_cases h7 : s.dev.get R.DBG_STATUS.FAILS = 7
  · rw [if_pos (by omega), h7, ← Dev.portLocked, nvAppend_eq] at he
    have hrec := recorded_nvAppend s.vault j.failCounted.portLocked 0 (type := 0x14) (data := bytesLE 8 1) (by decide) (by decide)
    rw [nvAppend_eq] at hrec
    obtain ⟨k, hk⟩ : ∃ k, k = j.failCounted.portLocked.nvBusy 8 := ⟨_, rfl⟩
    have hk0 : ∀ f, k.get f = j.failCounted.portLocked.get f := fun f => by rw [hk, Dev.get_nvBusy]
    have hks : k.sec.resp = none ∧ k.sec.nonce = [] := by
      obtain ⟨h1, h2⟩ := Dev.keys_nvBusy j.failCounted.portLocked 8
      rw [hk, h1, h2, Dev.sec_portLocked, Dev.sec_failCounted]
      exact ⟨hs, hn⟩
    have hk1 : k.get R.DBG_STATUS.LAST_RESULT = n := (hk0 _).trans ((Dev.get_portLocked (.inr (by decide)) (by decide)).trans hr')
    have hk2 : k.get R.DBG_STATUS.FAILS = _ := (hk0 _).trans ((Dev.get_portLocked (.inr (by decide)) (by decide)).trans hfr)
    have hk3 : k.get R.DBG_STATUS.LEVEL = _ := (hk0 _).trans ((Dev.get_portLocked (.inr (by decide)) (by decide)).trans hl')
    have hk4 : bit (k.get R.SEC_EVT.EVT) 2 = true := by rw [hk0, Dev.event_portLocked (by decide), Dev.event_failCounted, Bool.true_or]
    have hk5 : bit (k.get R.SEC_EVT.EVT) 3 = true := by rw [hk0, Dev.event_portLocked (by decide), show bit 8 3 = true from rfl, Bool.or_true]
    have hk6 : k.on R.DBG_STATUS.LOCKOUT = true := by rw [Dev.on, hk0, ← Dev.on, Dev.locked_portLocked]
    rw [← hk] at he
    exact gives_of_onV (f := dbgChecked) rfl he ⟨⟨hk1, hks⟩, hk2, hk3, hk4, fun _ => ⟨hk6, hk5, hrec⟩, fun h => by omega⟩
  · rw [if_neg (by omega)] at he
    have hlf : j.failCounted.on R.DBG_STATUS.LOCKOUT = false := by rw [← hjk, Dev.on, Dev.on, Dev.get_failCounted (.inr (by decide)) (by decide)]
    have hev := Dev.event_failCounted (d := j)
    rw [← Dev.sec_failCounted] at hs hn
    generalize j.failCounted = k at *
    exact gives_of_onV (f := dbgChecked) rfl he ⟨⟨hr', hs, hn⟩, hfr, hl', hev, fun h => absurd h h7, fun _ => ⟨hlf, rfl⟩⟩

theorem Dev.get_levelGranted {f : Fld} (h1 : R.DBG_STATUS.LEVEL.apart f) (h2 : R.DBG_STATUS.SLOT.apart f) (h3 : R.DBG_STATUS.FAILS.apart f) :
    (d.levelGranted l).get f = d.get f := by
  rw [Dev.levelGranted, Dev.get_set_apart _ _ (Fld.ok_of_ble rfl) h3, Dev.get_set_apart _ _ (Fld.ok_of_ble rfl) h2,
    Dev.get_set_apart _ _ (Fld.ok_of_ble rfl) h1]

/-- R357: what a granted level shows. -/
theorem Dev.levelGranted_shows : (d.levelGranted l).get R.DBG_STATUS.LEVEL = blk l 0 1 % 2 ^ 2 ∧
    (d.levelGranted l).get R.DBG_STATUS.SLOT = (blk l 1 1 + 1) % 2 ^ 2 ∧ (d.levelGranted l).get R.DBG_STATUS.FAILS = 0 := by
  have h1 : R.DBG_STATUS.LEVEL.width = 2 := rfl
  have h2 : R.DBG_STATUS.SLOT.width = 2 := rfl
  refine ⟨?_, ?_, ?_⟩
  · rw [Dev.levelGranted, Dev.get_set_apart _ _ (Fld.ok_of_ble rfl) (.inr (by decide)), Dev.get_set_apart _ _ (Fld.ok_of_ble rfl) (.inr (by decide)),
      Dev.get_set_same _ _ _ (Fld.ok_of_ble rfl), h1]
  · rw [Dev.levelGranted, Dev.get_set_apart _ _ (Fld.ok_of_ble rfl) (.inr (by decide)), Dev.get_set_same _ _ _ (Fld.ok_of_ble rfl), h2]
  · rw [Dev.levelGranted, Dev.get_set_same _ _ _ (Fld.ok_of_ble rfl), Nat.zero_mod]

theorem Dev.sec_levelGranted : (d.levelGranted l).sec = d.sec := by rw [Dev.levelGranted, Dev.sec_set, Dev.sec_set, Dev.sec_set]

/-- R357: what a response that is granted leaves. -/
theorem gives_granted {s : State} (hr : s.dev.sec.resp = some l) (hv : s.dev.verdict s.vault l = 1) (hk : blk l 1 1 ≤ 2) (hlv : blk l 0 1 ≤ 2) :
    Gives .dbgRespChecked s fun u => (u.dev.get R.DBG_STATUS.LAST_RESULT = 1 ∧ u.dev.sec.resp = none ∧ u.dev.sec.nonce = []) ∧
      u.dev.get R.DBG_STATUS.LEVEL = blk l 0 1 ∧ u.dev.get R.DBG_STATUS.SLOT = blk l 1 1 + 1 ∧ u.dev.get R.DBG_STATUS.FAILS = 0 ∧
      bit (u.dev.get R.SEC_EVT.EVT) 1 = true ∧ Recorded s.vault u.vault 0 0x13 (l.take 2) := by
  have he := dbgChecked_some (v := s.vault) hr
  rw [hv, if_pos rfl] at he
  have hres : (s.dev.judged s.vault 1).get R.DBG_STATUS.LAST_RESULT = 1 := by
    have := Dev.get_judged_verdict (d := s.dev) (v := s.vault) (l := l)
    rwa [hv] at this
  have hsec := Dev.sec_judged s.dev s.vault 1
  generalize s.dev.judged s.vault 1 = j at he hres hsec
  obtain ⟨h1, h2, h3⟩ := Dev.levelGranted_shows (d := j) (l := l)
  have h4 := (Dev.get_levelGranted (d := j) (l := l) (f := R.DBG_STATUS.LAST_RESULT) (.inr (by decide)) (.inr (by decide)) (.inr (by decide))).trans hres
  rw [← Dev.sec_levelGranted (l := l)] at hsec
  generalize j.levelGranted l = g at he h1 h2 h3 h4 hsec
  have ho : ∀ f : Fld, A.SEC_EVT ≠ f.addr → (g.orF R.SEC_EVT.EVT 2).get f = g.get f := fun f hf => by rw [Dev.orF, Dev.get_set_reg _ _ _ _ hf]
  have hev : bit ((g.orF R.SEC_EVT.EVT 2).get R.SEC_EVT.EVT) 1 = true := by
    rw [Dev.bit_orF _ (Fld.ok_of_ble rfl) _ (by decide), show bit 2 1 = true from rfl, Bool.or_true]
  rw [← ho _ (by decide)] at h1 h2 h3 h4
  rw [← Dev.sec_orF g R.SEC_EVT.EVT 2] at hsec
  generalize g.orF R.SEC_EVT.EVT 2 = m at he h1 h2 h3 h4 hsec hev
  have hrec := recorded_nvAppend s.vault m 0 (type := 0x13) (data := l.take 2) (by decide) ((List.length_take_le 2 l).trans (by decide))
  rw [nvAppend_eq] at he hrec
  obtain ⟨h5, h6⟩ := m.keys_nvBusy 8
  rw [← h5, ← h6] at hsec
  rw [← Dev.get_nvBusy m 8] at h1 h2 h3 h4 hev
  generalize m.nvBusy 8 = k at he h1 h2 h3 h4 hsec hev
  exact gives_of_onV (f := dbgChecked) rfl he ⟨⟨h4, hsec⟩, h1.trans (Nat.mod_eq_of_lt (by omega)), h2.trans (Nat.mod_eq_of_lt (by omega)), h3, hev, hrec⟩

/-- R357: a response to a locked port. -/
theorem gives_locked {s : State} (hr : s.dev.sec.resp = some l) (hl : s.dev.on R.DBG_STATUS.LOCKOUT = true) :
    Gives .dbgRespChecked s fun u => (u.dev.get R.DBG_STATUS.LAST_RESULT = 6 ∧ u.dev.sec.resp = none ∧ u.dev.sec.nonce = []) ∧ u.vault = s.vault ∧
      RegsOnly { s.dev with sec := u.dev.sec, freeCtr := u.dev.freeCtr } u.dev [A.DBG_STATUS] := by
  have hv := Dev.verdict_locked (v := s.vault) (l := l) hl
  have he := dbgChecked_some (v := s.vault) hr
  rw [hv, if_neg (by decide), if_pos rfl] at he
  have hres : (s.dev.judged s.vault 6).get R.DBG_STATUS.LAST_RESULT = 6 := by
    have := Dev.get_judged_verdict (d := s.dev) (v := s.vault) (l := l)
    rwa [hv] at this
  have hsec := Dev.sec_judged s.dev s.vault 6
  have hreg : RegsOnly { s.dev with sec := (s.dev.judged s.vault 6).sec, freeCtr := (s.dev.judged s.vault 6).freeCtr } (s.dev.judged s.vault 6)
      [A.DBG_STATUS] := by
    obtain ⟨n, h⟩ := s.dev.judged_spec s.vault 6
    rw [h]
    exact (RegsOnly.refl _ _).set 0 rfl
  generalize s.dev.judged s.vault 6 = j at he hres hsec hreg
  exact gives_of_onV (f := dbgChecked) rfl he ⟨⟨hres, hsec⟩, rfl, hreg⟩

/-- R357: any response that waits is answered, with a new nonce to follow. -/
theorem dbgChecked_shows (hr : d.sec.resp = some l) : (dbgChecked d v).1.get R.DBG_STATUS.LAST_RESULT = d.verdict v l ∧
    (dbgChecked d v).1.sec.resp = none ∧ (dbgChecked d v).1.sec.nonce = [] := by
  have hres := Dev.get_judged_verdict (d := d) (v := v) (l := l)
  have hsec := Dev.sec_judged d v (d.verdict v l)
  rw [dbgChecked_some hr]
  generalize d.judged v (d.verdict v l) = j at hres hsec
  have hf : j.failCounted.get R.DBG_STATUS.LAST_RESULT = d.verdict v l := (Dev.get_failCounted (.inr (by decide)) (by decide)).trans hres
  split_ifs
  · rw [nvAppend_eq]
    obtain ⟨h5, h6⟩ := ((j.levelGranted l).orF R.SEC_EVT.EVT 2).keys_nvBusy 8
    rw [Dev.get_nvBusy, h5, h6, Dev.orF, Dev.get_set_reg _ _ _ _ (by decide), Dev.sec_set, Dev.sec_levelGranted,
      Dev.get_levelGranted (.inr (by decide)) (.inr (by decide)) (.inr (by decide))]
    exact ⟨hres, hsec⟩
  · exact ⟨hres, hsec⟩
  · rw [← Dev.portLocked, nvAppend_eq]
    obtain ⟨h5, h6⟩ := j.failCounted.portLocked.keys_nvBusy 8
    rw [Dev.get_nvBusy, h5, h6, Dev.get_portLocked (.inr (by decide)) (by decide), Dev.sec_portLocked, Dev.sec_failCounted]
    exact ⟨hf, hsec⟩
  · rw [Dev.sec_failCounted]
    exact ⟨hf, hsec⟩

/-! The TAP instructions (R356, R358, R360). -/

theorem Dev.dbgChal_open (h : v.life ≠ 5) (ht : d.sec.trngBad = false) : d.dbgChal v = (d.challenge v).2.tap 0x10 (leNat (d.challenge v).1) := by
  rw [Dev.dbgChal, Dev.chalOpen, ht, if_pos (by simpa using h)]

/-- R357: a response that waits is kept. -/
theorem SecSt.resp_kept (x : SecSt) (l : List Byte) : (if x.resp.isSome then x else { x with resp := some l }).resp = some (x.resp.getD l) := by
  rcases h : x.resp with _ | r
  · rfl
  · exact h

theorem Dev.dbgChal_closed (h : v.life = 5 ∨ d.sec.trngBad = true) : d.dbgChal v = d.bypass := by
  rw [Dev.dbgChal, Dev.chalOpen, if_neg]
  rcases h with h | h <;> simp [h]

variable (d) in
theorem Dev.get_tap (n x : Nat) (f : Fld) : (d.tap n x).get f = d.get f := rfl

variable (d) in
theorem Dev.reg_tap (n x a : Nat) : (d.tap n x).reg a = d.reg a := rfl

theorem RegsOnly.tap {e : Dev} {l : List Nat} (h : RegsOnly d e l) (n x : Nat) : RegsOnly (d.tap n x) (e.tap n x) l := by
  obtain ⟨hf, hr⟩ := h
  refine ⟨?_, hr⟩
  rw [hf]
  rfl

/-- R358: the registers of a session that has ended. -/
theorem Dev.endSession_spec (n : Nat) : (d.endSession n).get R.DBG_STATUS.LEVEL = levelReset n ∧ (d.endSession n).get R.DBG_STATUS.SLOT = 0 ∧
    (d.endSession n).get R.DBG_STATUS.FAILS = d.get R.DBG_STATUS.FAILS ∧ (d.endSession n).reg A.DBG_HOLD_LO = 0 ∧
    (d.endSession n).reg A.DBG_HOLD_HI = 0 ∧ RegsOnly d (d.endSession n) [A.DBG_STATUS, A.DBG_HOLD_LO, A.DBG_HOLD_HI] := by
  have hw : R.DBG_STATUS.LEVEL.width = 2 := rfl
  have hl : levelReset n < 2 ^ 2 := by
    rw [levelReset]
    split <;> decide
  refine ⟨?_, ?_, ?_, ?_, ?_, ((((RegsOnly.refl d _).set 0 rfl).set 0 rfl).setReg 1 rfl).setReg 2 rfl⟩
  · rw [Dev.endSession, Dev.get_setReg_ne _ _ _ (by decide), Dev.get_setReg_ne _ _ _ (by decide), Dev.get_set_apart _ _ (Fld.ok_of_ble rfl) (.inr (by decide)),
      Dev.get_set_same _ _ _ (Fld.ok_of_ble rfl), hw, Nat.mod_eq_of_lt hl]
  · rw [Dev.endSession, Dev.get_setReg_ne _ _ _ (by decide), Dev.get_setReg_ne _ _ _ (by decide), Dev.get_set_same _ _ _ (Fld.ok_of_ble rfl), Nat.zero_mod]
  · rw [Dev.endSession, Dev.get_setReg_ne _ _ _ (by decide), Dev.get_setReg_ne _ _ _ (by decide), Dev.get_set_apart _ _ (Fld.ok_of_ble rfl) (.inr (by decide)),
      Dev.get_set_apart _ _ (Fld.ok_of_ble rfl) (.inr (by decide))]
  · rw [Dev.endSession, Dev.reg_setReg_ne _ _ (by decide), Dev.reg_setReg_same, Nat.zero_mod]
  · rw [Dev.endSession, Dev.reg_setReg_same, Nat.zero_mod]

end Sys2Proof.Machine

open Sys2Proof.Machine

/-- Settles O49. -/
theorem debugPort : Obligations.DebugPort := by
  intro pins shift r l m s d v tap level scan lv k key slotOk allowed hashOk sigOk fails result failed
  refine ⟨makes_of_on (c := .tapReset) (f := fun d => d.tap 2 0) rfl, fun h => ?_, fun h => ?_, makes_of_on (c := .idcode) (f := fun d => d.tap 2 (d.reg A.ID)) rfl, makes_of_on (c := .bypass) (f := Dev.bypass) rfl, fun h => ?_,
    fun h ht => ?_, fun h => ?_, fun h => ?_, fun h => ?_, fun h => ⟨?_, fun hl => gives_locked h hl, fun hl hf => ?_⟩,
    makes_of_on (c := .dbgStatus) (f := fun d => d.tap 0x12 (d.reg A.DBG_STATUS)) rfl, makes_of_on (c := .dbgLock false) (f := fun d => d.tap 0x15 0) rfl, ?_,
    fun h => ?_, fun h => ?_⟩
  · have ho : d.scanOpen v = true := by
      obtain ⟨h2, hv⟩ := h
      have hm : v.life ∈ [0, 1, 4] := by simpa using hv
      rw [Dev.scanOpen, Dev.dbgLevel, show d.get R.DBG_STATUS.LEVEL = 2 from h2, List.contains_iff_mem.2 hm]
      rfl
    have hb : ∀ n, d.boundary v n pins shift = tap { d with sec := { d.sec with bscan := shift } } n pins := fun n => by
      rw [Dev.boundary, if_pos ho]
      rfl
    exact ⟨hb 0 ▸ makes_of_on (c := .extest pins shift) (f := fun d => d.boundary s.vault 0 pins shift) rfl,
      hb 1 ▸ makes_of_on (c := .samplePreload pins shift) (f := fun d => d.boundary s.vault 1 pins shift) rfl⟩
  · have ho : ¬ d.scanOpen v = true := by
      have h' : ¬ (d.get R.DBG_STATUS.LEVEL = 2 ∧ (v.life = 0 ∨ v.life = 1 ∨ v.life = 4)) := h
      rw [Dev.scanOpen, Dev.dbgLevel, Bool.and_eq_true, beq_iff_eq, List.contains_iff_mem]
      simpa using h'
    have hb : ∀ n, d.boundary v n pins shift = tap d 0xFF 0 := fun n => by
      rw [Dev.boundary, if_neg ho]
      rfl
    exact ⟨hb 0 ▸ makes_of_on (c := .extest pins shift) (f := fun d => d.boundary s.vault 0 pins shift) rfl,
      hb 1 ▸ makes_of_on (c := .samplePreload pins shift) (f := fun d => d.boundary s.vault 1 pins shift) rfl⟩
  · have hm := makes_of_on (c := .dbgChal) (s := s) (f := fun d => d.dbgChal s.vault) rfl
    rwa [Dev.dbgChal_closed h] at hm
  · have hm := makes_of_on (c := .dbgChal) (s := s) (f := fun d => d.dbgChal s.vault) rfl
    obtain ⟨n, c, hn, hk, hc⟩ := d.challenge_spec v
    rw [Dev.dbgChal_open h ht, hc, leNat_append_zeros] at hm
    exact hm.gives ⟨rfl, hn, hk, rfl, rfl⟩
  · have hm := makes_of_on (c := .dbgResp r) (s := s) (f := fun d => d.dbgResp s.vault r.toNat) rfl
    rwa [Dev.dbgResp, if_pos h] at hm
  · have hm := makes_of_on (c := .dbgResp r) (s := s) (f := fun d => d.dbgResp s.vault r.toNat) rfl
    rw [Dev.dbgResp, if_neg h] at hm
    exact hm.gives ⟨SecSt.resp_kept _ _, rfl⟩
  · show s.onV dbgChecked = _
    rw [State.onV, dbgChecked_none h]
  · obtain ⟨h1, h2⟩ := dbgChecked_shows (v := v) h
    exact gives_of_onV (f := dbgChecked) rfl rfl ⟨h1 ▸ (Dev.verdict_le d v l).1, h1 ▸ (Dev.verdict_le d v l).2, h2⟩
  · obtain ⟨v4, v5, v3, v2, v1⟩ := Dev.verdict_open (v := v) (l := l) hl
    refine ⟨fun h4 => gives_failed h (v4 h4) (by decide) (by decide) hl hf, fun h4 h5 => gives_failed h (v5 h4 h5) (by decide) (by decide) hl hf,
      fun h4 h5 h3 => gives_failed h (v3 h4 h5 h3) (by decide) (by decide) hl hf,
      fun h4 h5 h3 h2 => gives_failed h (v2 h4 h5 h3 h2) (by decide) (by decide) hl hf, fun h4 h5 h3 h2 => ?_⟩
    refine gives_granted h (v1 h4 h5 h3 h2) h4.1 ?_
    show lv ≤ 2
    simp only [allowed] at h5
    omega
  · have hm := makes_of_on (c := .dbgLock true) (s := s) (f := fun d => (d.endSession s.vault.life).tap 0x15 0) rfl
    obtain ⟨h1, h2, h3, h4, h5, h6⟩ := d.endSession_spec v.life
    generalize s.dev.endSession s.vault.life = e at hm h1 h2 h3 h4 h5 h6
    have ht := h6.tap 0x15 0
    rw [← e.get_tap 0x15 0] at h1 h2 h3
    rw [← e.reg_tap 0x15 0] at h4 h5
    generalize e.tap 0x15 0 = u at hm h1 h2 h3 h4 h5 ht
    exact hm.gives ⟨h1, h2, h3, h4, h5, ht⟩
  · have hm := makes_of_on (c := .dbgHold m) (s := s) (f := fun d => d.dbgHold m.toNat) rfl
    rw [Dev.dbgHold, Dev.dbgLevel, if_pos h] at hm
    refine hm.gives ⟨?_, ?_, ((RegsOnly.refl _ _).setReg 0 rfl).setReg 1 rfl⟩
    · rw [Dev.reg_setReg_ne _ _ (by decide), Dev.reg_setReg_same, Nat.mod_mod]
    · have := m.isLt
      rw [Dev.reg_setReg_same, Nat.mod_eq_of_lt (by omega)]
  · have hm := makes_of_on (c := .dbgHold m) (s := s) (f := fun d => d.dbgHold m.toNat) rfl
    rwa [Dev.dbgHold, Dev.dbgLevel, if_neg h] at hm

end

section
/-! Argument blocks in clean stores, and requests whose effect reaches the fuses or the NV store (R219, R284). -/

open Sys2Proof

namespace Sys2Proof.Machine

/-! Reads of clean words. -/

section
variable {d : Dev}

theorem Dev.hubRead_clean (h : d.clean .shared) (c off n : Nat) : d.hubRead c off n = ((d.hubRead c off n).1, false, d) := by
  induction n with
  | zero => rfl
  | succ n ih =>
    rw [Dev.hubRead, ih]
    dsimp only
    rw [Dev.readWord_clean _ _ _ _ _ (h _)]
    rfl

/-- A request with an argument block, in a clean store. -/
theorem serves_of_block {c : Instr} {s : State} {e ch cmd n op st v : Nat} {f : List Byte → Nat → Dev → Dev × Option (Nat × Nat)} {p : Dev → Prop}
    {x : Dev} (hcl : s.dev.clean .shared) (hc : exec c s = s.on fun d => d.serveBlock e ch cmd n f)
    (hf : f (s.dev.block e op n) op s.dev = (x, some (st, v))) (he : (x.e e).reqs = (s.dev.e e).reqs)
    (hp : p (x.answer e ch cmd .sent st v)) : Serves c s e ch cmd op st v p := by
  refine serves_of_reply hc ?_ he hp
  rw [Dev.hubRead_clean hcl]
  exact hf

end

/-! Requests that reach the vault. -/

section
variable {c : Instr} {s : State} {e ch cmd op st y : Nat} {x : Dev} {w : Vault} {p : State → Prop}

theorem gives_of_replyV {f : Nat → Dev → Vault → (Dev × Vault) × Option (Nat × Nat)} (hc : exec c s = s.onV fun d v => d.serveV v e ch cmd f)
    (ha : s.dev.Asks e ch cmd op) (hf : f op s.dev s.vault = ((x, w), some (st, y))) (he : (x.e e).reqs = (s.dev.e e).reqs)
    (hp : Answered s.dev (x.answer e ch cmd .sent st y) e ch cmd .sent st y → p { s with dev := x.answer e ch cmd .sent st y, vault := w }) :
    Gives c s p := by
  obtain ⟨r, hr, hn, rfl⟩ := ha
  refine gives_of_onV hc ?_ (hp (Dev.answered_answer he ch cmd .sent st y))
  rw [Dev.serveV, hr]
  dsimp only
  rw [hn]
  dsimp only
  rw [hf]

theorem gives_of_blockV {n : Nat → Nat} {f : List Byte → Nat → Dev → Vault → (Dev × Vault) × Option (Nat × Nat)} (hcl : s.dev.clean .shared)
    (hc : exec c s = s.onV fun d v => d.serveBlockV v e ch cmd n f) (ha : s.dev.Asks e ch cmd op)
    (hf : f (s.dev.block e op (n op)) op s.dev s.vault = ((x, w), some (st, y))) (he : (x.e e).reqs = (s.dev.e e).reqs)
    (hp : Answered s.dev (x.answer e ch cmd .sent st y) e ch cmd .sent st y → p { s with dev := x.answer e ch cmd .sent st y, vault := w }) :
    Gives c s p := by
  refine gives_of_replyV hc ha ?_ he hp
  rw [Dev.hubRead_clean hcl]
  exact hf

end

end Sys2Proof.Machine
end

section
/-! RRK, random numbers and the NV channel (R346, R347, R353 to R355). -/

open Sys2Proof

namespace Sys2Proof.Machine

/-! Random numbers. -/

section
variable (d : Dev) (e k : Nat)

/-- A RANDOM request that waits for output. -/
def randomWaits (q : Req) : Bool := q.chan == 0x202 && q.cmd == 0 && q.phase == .taken

theorem Dev.randomDone_none (h : d.req e 0x202 0 .taken = none) : d.randomDone e = d := by
  unfold Dev.randomDone Dev.finish
  rw [h]

theorem Dev.randomDone_some {r : Req} (h : d.req e 0x202 0 .taken = some r) :
    d.randomDone e = d.draw.2.answer e 0x202 0 .taken stOK (d.draw.1.toNat % 2 ^ 32) := by
  unfold Dev.randomDone Dev.finish
  rw [h]

/-- Where the first of some requests is answered, one less waits. -/
theorem length_filter_modifyFirst {α : Type} {q : α → Bool} {f : α → α} (hf : ∀ a, q (f a) = false) (l : List α) :
    ((modifyFirst q f l).filter q).length = (l.filter q).length - 1 := by
  induction l with
  | nil => rfl
  | cons a t ih =>
    rw [modifyFirst]
    by_cases h : q a = true
    · rw [if_pos h, List.filter_cons_of_neg (by simp [hf]), List.filter_cons_of_pos h]
      rfl
    · rw [if_neg h, List.filter_cons_of_neg h, List.filter_cons_of_neg h, ih]

theorem Dev.req_eq_none_iff : d.req e 0x202 0 .taken = none ↔ ((d.e e).reqs.filter randomWaits).length = 0 := by
  rw [List.length_eq_zero_iff, List.filter_eq_nil_iff, Dev.req, List.find?_eq_none]
  rfl

theorem Dev.randomDone_frame : ∃ n g, d.randomDone e = { d with freeCtr := n, eng := g } := by
  rcases h : d.req e 0x202 0 .taken with _ | r
  · exact ⟨_, _, d.randomDone_none e h⟩
  · exact ⟨_, _, d.randomDone_some e h⟩

theorem Dev.e_randomDone_ne (h : k ≠ e) : (d.randomDone k).e e = d.e e := by
  rcases hr : d.req k 0x202 0 .taken with _ | r
  · rw [d.randomDone_none k hr]
  · rw [d.randomDone_some k hr, Dev.answer, Dev.onReq, Dev.e_onE, if_neg h]
    rfl

/-- R347: one waiting RANDOM less. -/
theorem Dev.waiting_randomDone : (((d.randomDone k).e e).reqs.filter randomWaits).length =
    ((d.e e).reqs.filter randomWaits).length - if k = e then 1 else 0 := by
  by_cases hk : k = e
  · subst hk
    rw [if_pos rfl]
    rcases hr : d.req k 0x202 0 .taken with _ | r
    · rw [d.randomDone_none k hr, (d.req_eq_none_iff k).1 hr]
    · rw [d.randomDone_some k hr, Dev.answer, Dev.e_onReq_same]
      exact length_filter_modifyFirst (fun a => by simp [randomWaits]) _
  · rw [d.e_randomDone_ne e k hk, if_neg hk, Nat.sub_zero]

/-- R347: the engines of a list complete one waiting RANDOM each. -/
theorem Dev.waiting_randomDones (l : List Nat) : (((l.foldl Dev.randomDone d).e e).reqs.filter randomWaits).length =
    ((d.e e).reqs.filter randomWaits).length - l.count e := by
  induction l generalizing d with
  | nil => rfl
  | cons k t ih =>
    rw [List.foldl_cons, ih, Dev.waiting_randomDone, List.count_cons, beq_eq_decide]
    by_cases hk : k = e <;> simp [hk, Nat.sub_sub, Nat.add_comm]

theorem Dev.e_randomDones {l : List Nat} (h : e ∉ l) : (l.foldl Dev.randomDone d).e e = d.e e := by
  refine List.foldlRecOn (motive := fun x : Dev => x.e e = d.e e) _ _ rfl fun x hx k hk => ?_
  have hne : k ≠ e := by
    rintro rfl
    exact h hk
  rw [Dev.e_randomDone_ne x e k hne, hx]

theorem Dev.randomDones_frame (l : List Nat) : ∃ n g, l.foldl Dev.randomDone d = { d with freeCtr := n, eng := g } := by
  refine List.foldlRecOn (motive := fun x : Dev => ∃ n g, x = { d with freeCtr := n, eng := g }) _ _ ⟨_, _, rfl⟩ fun x hx k _ => ?_
  obtain ⟨n, g, rfl⟩ := hx
  obtain ⟨n', g', h⟩ := Dev.randomDone_frame { d with freeCtr := n, eng := g } k
  exact ⟨n', g', h⟩

/-- R347: eight requests of each warden. -/
def randomTurns : List Nat := (List.range 64).map fun i => 88 + i / 8

theorem count_randomTurns {e : Nat} (h : 88 ≤ e) (h' : e < 96) : randomTurns.count e = 8 := by
  interval_cases e <;> decide

theorem le_of_mem_randomTurns {e : Nat} (h : e ∈ randomTurns) : 88 ≤ e := by
  obtain ⟨i, _, rfl⟩ := List.mem_map.1 h
  exact Nat.le_add_right _ _

theorem Dev.trngResume_bad (h : d.sec.trngBad = true) : d.trngResume = randomTurns.foldl Dev.randomDone (d.onSec fun s => { s with trngBad := false }) := by
  rw [Dev.trngResume, if_pos h, randomTurns, List.foldl_map]

end

/-- R215: a request taken up waits. -/
theorem exists_find?_modifyFirst {α : Type} {p q : α → Bool} {f : α → α} {l : List α} {a : α} (hp : l.find? p = some a) (hf : ∀ a, p a = true → q (f a) = true) :
    ∃ b, (modifyFirst p f l).find? q = some b := by
  induction l with
  | nil => exact absurd hp (by simp)
  | cons c t ih =>
    rw [modifyFirst]
    by_cases hc : p c = true
    · rw [if_pos hc, List.find?_cons_of_pos (hf c hc)]
      exact ⟨_, rfl⟩
    · rw [List.find?_cons_of_neg hc] at hp
      rw [if_neg hc]
      by_cases hq : q c = true
      · exact ⟨c, List.find?_cons_of_pos hq⟩
      · rw [List.find?_cons_of_neg hq]
        exact ih hp

theorem Dev.exists_req_taken {d : Dev} {e ch cmd : Nat} {r : Req} (h : d.req e ch cmd .sent = some r) :
    ∃ q, (d.onReq e ch cmd .sent fun r => { r with phase := .taken }).req e ch cmd .taken = some q := by
  rw [Dev.req, Dev.e_onReq_same]
  refine exists_find?_modifyFirst h fun a ha => ?_
  simp only [Bool.and_eq_true] at ha ⊢
  exact ⟨ha.1, rfl⟩

/-! The NV channel. -/

section
variable (d : Dev) (v : Vault)

/-- The offset of an argument block is a multiple of 64 inside the shared store. -/
theorem opOffset_spec (op : Nat) : opOffset op % 8 = 0 ∧ opOffset op / 8 < 524288 := by
  have h : getBits op 63 42 < 2 ^ 22 := getBits_lt op 63 42
  rw [opOffset]
  omega

/-- R193: the word i places after byte offset off of cluster c's shared store, wrapped. -/
def sharedWord (c off i : Nat) : Nat := 524288 * c + (off / 8 + i) % 524288

theorem sharedWord_succ (c off i : Nat) : sharedWord c (off + 8) i = sharedWord c off (i + 1) := by
  rw [sharedWord, sharedWord, Nat.add_div_right _ (by norm_num), Nat.add_assoc, Nat.add_comm 1 i]

theorem Dev.hubWrite_cons (c off x : Nat) (t : List (Nat × Bool)) : d.hubWrite c off ((x, false) :: t) =
    ({ d with sharedS := d.sharedS.putWord (sharedWord c off 0) x } : Dev).hubWrite c (off + 8) t := by
  rw [Dev.hubWrite, sharedWord, Nat.add_zero, Nat.mul_comm]
  rfl

theorem Dev.hubWrite_frame (c off : Nat) {l : List (Nat × Bool)} (hl : ∀ x ∈ l, x.2 = false) : ∃ s, d.hubWrite c off l = { d with sharedS := s } := by
  induction l generalizing d off with
  | nil => exact ⟨_, rfl⟩
  | cons a t ih =>
    obtain ⟨x, b⟩ := a
    obtain rfl : b = false := hl (x, b) (.head _)
    obtain ⟨s, hs⟩ := ih { d with sharedS := d.sharedS.putWord (sharedWord c off 0) x } (off + 8) fun y hy => hl y (.tail _ hy)
    exact ⟨s, by rw [Dev.hubWrite_cons, hs]⟩

theorem Dev.raw_hubWrite_ne (c off : Nat) {l : List (Nat × Bool)} (hl : ∀ x ∈ l, x.2 = false) {j : Nat} (hj : ∀ i < l.length, sharedWord c off i ≠ j) :
    (d.hubWrite c off l).sharedS.raw j = d.sharedS.raw j := by
  induction l generalizing d off with
  | nil => rfl
  | cons a t ih =>
    obtain ⟨x, b⟩ := a
    obtain rfl : b = false := hl (x, b) (.head _)
    rw [Dev.hubWrite_cons, ih _ _ (fun y hy => hl y (.tail _ hy)) fun i hi => by
      rw [sharedWord_succ]; exact hj _ (Nat.succ_lt_succ hi)]
    exact Store.raw_putWord_ne _ _ (hj 0 (Nat.succ_pos _))

/-- R193: the words written by a hub agent, at most a store of them. -/
theorem Dev.raw_hubWrite (c off : Nat) {l : List (Nat × Bool)} (hl : ∀ x ∈ l, x.2 = false) (hn : l.length ≤ 524288) (i : Nat) (hi : i < l.length) :
    (d.hubWrite c off l).sharedS.raw (sharedWord c off i) = l[i].1 % 2 ^ 64 := by
  induction l generalizing d off i with
  | nil => exact absurd hi (Nat.not_lt_zero _)
  | cons a t ih =>
    obtain ⟨x, b⟩ := a
    obtain rfl : b = false := hl (x, b) (.head _)
    have ht : ∀ y ∈ t, y.2 = false := fun y hy => hl y (.tail _ hy)
    rw [List.length_cons] at hn hi
    rw [Dev.hubWrite_cons]
    cases i with
    | zero =>
      rw [Dev.raw_hubWrite_ne _ _ _ ht fun i hi => by rw [sharedWord_succ, sharedWord, sharedWord]; omega]
      exact Store.raw_putWord _ _ _
    | succ i =>
      rw [← sharedWord_succ, ih _ _ ht (by omega) i (by omega)]
      rfl

theorem RegsOnly.onSec {d e : Dev} {l : List Nat} (h : RegsOnly d e l) (f : SecSt → SecSt) : RegsOnly (d.onSec f) (e.onSec f) l := by
  obtain ⟨hf, hr⟩ := h
  refine ⟨?_, hr⟩
  rw [hf]
  rfl

/-- R355: the words READ returns. -/
def nvWords (v : Vault) (w n : Nat) : List (Nat × Bool) := (List.range n).map fun i => (v.nv.raw (w + i), false)

theorem getElem_nvWords (w n i : Nat) (h : i < (nvWords v w n).length) : (nvWords v w n)[i] = (v.nv.raw (w + i), false) := by
  simp [nvWords]

/-- R355: a word read, and the words read before it. -/
def nvReadOne (v : Vault) (w : Nat) (x : List (Nat × Bool) × Dev) (i : Nat) : List (Nat × Bool) × Dev :=
  (x.1 ++ [((x.2.nvRead v (w + i)).1, false)], (x.2.nvRead v (w + i)).2)

/-- R355: READ as it is served. -/
def nvReadServed (e op : Nat) (d : Dev) (v : Vault) : (Dev × Vault) × Option (Nat × Nat) :=
  repV (((List.range (nvRange op).2).foldl (nvReadOne v (nvRange op).1) ([], d)).2.hubWrite (e / 8) (opOffset op)
    ((List.range (nvRange op).2).foldl (nvReadOne v (nvRange op).1) ([], d)).1) v stOK

theorem nvChRead_eq (e : Nat) : nvChRead d v e = d.serveV v e 0x204 0 (nvReadServed e) := rfl

theorem nvReadServed_clean (hv : ∀ w, v.nv.syndrome w = 0) (e op : Nat) :
    nvReadServed e op d v = ((d.hubWrite (e / 8) (opOffset op) (nvWords v (nvRange op).1 (nvRange op).2), v), some (0, 0)) := by
  have hw : ∀ w n, (List.range n).foldl (nvReadOne v w) ([], d) = (nvWords v w n, d) := fun w n => by
    induction n with
    | zero => rfl
    | succ n ih =>
      rw [List.range_succ, List.foldl_concat, ih, nvWords, nvWords, List.range_succ, List.map_append, nvReadOne, Dev.nvRead, Store.read_clean _ _ (hv _)]
      rfl
  rw [nvReadServed, hw]
  rfl

/-- R355: WRITE as it is served. -/
def nvWriteServed (l : List Byte) (op : Nat) (d : Dev) (v : Vault) : (Dev × Vault) × Option (Nat × Nat) :=
  if (nvRange op).1 < 1032 then repV d v stRefused
  else repV (d.nvBusy (nvRange op).2) { v with nv := v.nv.putWords (nvRange op).1 (nvRange op).2 fun i => blk l (8 * i) 8 } stOK

theorem nvChWrite_eq (e : Nat) : nvChWrite d v e = d.serveBlockV v e 0x204 1 (fun op => (nvRange op).2) nvWriteServed := rfl

/-- R328: a power-fail record is noted. -/
def Dev.pfNoted (d : Dev) (t : Nat) : Dev := if t = 1 ∧ d.pwr.pfAt.isSome then d.onPwr fun p => { p with pfRec := true } else d

/-- R355: RECORD as it is served. -/
def nvRecordServed (l : List Byte) (_ : Nat) (d : Dev) (v : Vault) : (Dev × Vault) × Option (Nat × Nat) :=
  if blk l 0 1 = 1 ∨ 128 ≤ blk l 0 1 then
    repV (nvAppend (d.pfNoted (blk l 0 1)) v 1 (blk l 0 1) ((l.drop 16).take 44)).1
      (nvAppend (d.pfNoted (blk l 0 1)) v 1 (blk l 0 1) ((l.drop 16).take 44)).2 stOK ((v.seq + 1) % 2 ^ 32)
  else repV d v stRefused

theorem nvChRecord_eq (e : Nat) : nvChRecord d v e = d.serveBlockV v e 0x204 2 (fun _ => 8) nvRecordServed := rfl

theorem nvRecordServed_taken (l : List Byte) (op : Nat) (h : blk l 0 1 = 1 ∨ 128 ≤ blk l 0 1) : nvRecordServed l op d v =
    (nvAppend (d.pfNoted (blk l 0 1)) v 1 (blk l 0 1) ((l.drop 16).take 44), some (0, (v.seq + 1) % 2 ^ 32)) := by
  rw [nvRecordServed, if_pos h]
  generalize nvAppend (d.pfNoted (blk l 0 1)) v 1 (blk l 0 1) ((l.drop 16).take 44) = r
  rfl

theorem Vault.putSlot_frame (k : Nat) (l : List Byte) : v.putSlot k l = { v with nv := (v.putSlot k l).nv } := rfl

theorem Dev.reg_nvBusy (n a : Nat) : (d.nvBusy n).reg a = d.reg a := rfl

theorem Dev.on_nvBusy (n : Nat) (f : Fld) : (d.nvBusy n).on f = d.on f := rfl

theorem Dev.e_nvBusy (n k : Nat) : (d.nvBusy n).e k = d.e k := rfl

theorem exec_nvRecord (e : EngId) (s : State) : exec (.nvRecord e) s = s.onV fun d v => d.serveBlockV v e 0x204 2 (fun _ => 8) nvRecordServed :=
  (show exec (.nvRecord e) s = s.onV fun d v => nvChRecord d v e from rfl).trans (congrArg s.onV (funext₂ fun d v => nvChRecord_eq d v e))

theorem Dev.eng_pfNoted (t : Nat) : (d.pfNoted t).eng = d.eng := by
  rw [Dev.pfNoted]
  split <;> rfl

/-- R355: a read of a clean word. -/
theorem Dev.nvDataLo_clean (hv : ∀ w, v.nv.syndrome w = 0) : d.nvDataLo v = (v.nv.raw (d.get R.NV_ADDR.WORD) % 2 ^ 32,
    d.onSec fun s => { s with nvWord := BitVec.ofNat 64 (v.nv.raw (d.get R.NV_ADDR.WORD)) }) := by
  rw [Dev.nvDataLo, Dev.nvRead, Store.read_clean _ _ (hv _)]

/-- A read by src of a register whose target takes it. -/
theorem makes_of_gateRead {c : Instr} {s : State} {src : Src} {a n : Nat} {x : Dev} {f : Dev → Nat × Dev}
    (hc : exec c s = s.on fun d => d.gateRead src a f) (hb : s.dev.barred a = none) (hf : f s.dev = (n, x)) : Makes c s (x.respond src n) := by
  have h := makes_of_on hc
  rwa [Dev.gateRead_of_open hb, hf] at h

theorem Dev.reads_respond (src : Src) (n : Nat) : (Tbl.get 0 (d.respond src n).reads (srcKey src)).toNat = n % 2 ^ 32 := by
  rw [Dev.respond, Tbl.get_set_same, BitVec.toNat_ofNat]

/-- R355: a word stored while no word write is in progress. -/
theorem Dev.nvDataHiWrite_idle (x : BitVec 32) (h : d.sec.nvFree ≤ d.up) : nvDataHiWrite d v x.toNat =
    nvStore (d.setReg A.NV_DATA_HI x.toNat) v (BitVec.ofNat 64 (x.toNat * 2 ^ 32 + d.reg A.NV_DATA_LO)) := by
  have hx : x.toNat % 2 ^ 32 = x.toNat := Nat.mod_eq_of_lt x.isLt
  have hb : ¬ (d.setReg A.NV_DATA_HI x.toNat).nvIsBusy = true := by
    rw [Dev.nvIsBusy, decide_eq_true_iff]
    exact Nat.not_lt.2 h
  rw [nvDataHiWrite, hx]
  rw [if_neg hb, Dev.reg_setReg_ne _ _ (by decide)]

theorem Dev.nvDataHiWrite_busy (x : BitVec 32) (h : d.up < d.sec.nvFree) : nvDataHiWrite d v x.toNat =
    ((d.setReg A.NV_DATA_HI x.toNat).onSec fun s => { s with nvWait := s.nvWait ++ [BitVec.ofNat 64 (x.toNat * 2 ^ 32 + d.reg A.NV_DATA_LO)] }, v) := by
  have hx : x.toNat % 2 ^ 32 = x.toNat := Nat.mod_eq_of_lt x.isLt
  have hb : (d.setReg A.NV_DATA_HI x.toNat).nvIsBusy = true := by
    rw [Dev.nvIsBusy, decide_eq_true_iff]
    exact h
  rw [nvDataHiWrite, hx]
  rw [if_pos hb, Dev.reg_setReg_ne _ _ (by decide)]

/-- R355: NV_ADDR goes on by one word. -/
theorem Dev.nvAddr_incW : (d.incW R.NV_ADDR.WORD).get R.NV_ADDR.WORD = (d.get R.NV_ADDR.WORD + 1) % 8192 := Dev.get_set_same _ _ _ (Fld.ok_of_ble rfl)

end

end Sys2Proof.Machine

open Sys2Proof.Machine

/-- Settles O48. -/
theorem keysAndRecords : Obligations.KeysAndRecords := by
  intro e op src x s hcl hnv d v fst n b t w back moved waits
  refine ⟨serves_of_block hcl rfl rfl rfl rfl, serves_of_reply rfl rfl rfl rfl, ?_, fun ht ha => ?_, fun ht ha => ?_, fun ht => ?_, fun ht => ?_, fun ha => ?_,
    fun hf ha => ?_, fun hf ha => ?_, fun h1 ha => ?_, fun h1 h2 ha => ?_, fun hb => ?_, fun hb => ?_, fun hb => ?_, fun hb => ?_⟩
  · have h := makes_of_on (c := .trngHealthFail) (s := s) (f := fun d => (d.orF R.SEC_EVT.EVT 64).onSec fun x => { x with trngBad := true }) rfl
    have hbit : bit ((s.dev.orF R.SEC_EVT.EVT 64).get R.SEC_EVT.EVT) 6 = true := by
      rw [Dev.bit_orF _ (Fld.ok_of_ble rfl) _ (by decide), show bit 64 6 = true from rfl, Bool.or_true]
    have hreg := ((RegsOnly.refl s.dev [A.SEC_EVT]).orF (f := R.SEC_EVT.EVT) (m := 64) 0 rfl).onSec fun x => { x with trngBad := true }
    generalize s.dev.orF R.SEC_EVT.EVT 64 = y at h hbit hreg
    exact h.gives ⟨hbit, hreg⟩
  · obtain ⟨r, hr, hn, rfl⟩ := ha
    have h := makes_of_on (c := .secRandom e) (s := s) (f := fun d => d.secRandom e) rfl
    rw [Dev.secRandom, Dev.serve_of_reply hr hn _ (by
      rw [if_neg (by rw [show s.dev.sec.trngBad = false from ht]; exact Bool.false_ne_true)] <;> rfl)] at h
    exact h.gives ⟨_, Nat.mod_lt _ (by norm_num), Dev.answered_answer rfl _ _ _ _ _, rfl⟩
  · have h := makes_of_taken (c := .secRandom e) rfl ha (by exact if_pos ht)
    obtain ⟨r, hr, -, -⟩ := ha
    exact h.gives ⟨Dev.exists_req_taken hr, rfl⟩
  · have h := makes_of_on (c := .trngOutputResume) (s := s) (f := Dev.trngResume) rfl
    rwa [Dev.trngResume, if_neg (by rw [show s.dev.sec.trngBad = false from ht]; exact Bool.false_ne_true)] at h
  · have h := makes_of_on (c := .trngOutputResume) (s := s) (f := Dev.trngResume) rfl
    rw [Dev.trngResume_bad _ ht] at h
    obtain ⟨c, g, hf⟩ := Dev.randomDones_frame (s.dev.onSec fun s => { s with trngBad := false }) randomTurns
    have hw := fun k => Dev.waiting_randomDones (s.dev.onSec fun s => { s with trngBad := false }) k randomTurns
    have he := fun k hk => Dev.e_randomDones (s.dev.onSec fun s => { s with trngBad := false }) k (l := randomTurns) hk
    generalize randomTurns.foldl Dev.randomDone _ = u at h hf hw he
    refine h.gives ⟨by rw [hf]; rfl, by rw [hf]; rfl, fun h8 hq => ?_, fun h8 => he _ fun hm => absurd (le_of_mem_randomTurns hm) (by omega)⟩
    rw [Dev.req_eq_none_iff, hw, count_randomTurns h8 e.isLt]
    exact Nat.sub_eq_zero_of_le hq
  · have hl : (nvWords v fst n).length = n := by rw [nvWords, List.length_map, List.length_range]
    have hp : ∀ x ∈ nvWords v fst n, x.2 = false := fun x hx => by
      obtain ⟨i, -, rfl⟩ := List.mem_map.1 hx
      rfl
    obtain ⟨m, hm⟩ := d.hubWrite_frame (e / 8) (opOffset op) hp
    have hraw := d.raw_hubWrite (e / 8) (opOffset op) hp (by omega)
    rw [hm] at hraw
    refine gives_of_replyV (c := .nvRead e) (f := nvReadServed e) (x := { d with sharedS := m }) (w := v) rfl ha
      ((nvReadServed_clean d v hnv e op).trans (congrArg (fun y => ((y, v), some (0, 0))) hm)) rfl
      fun h => ⟨h, rfl, rfl, fun i hi => ?_⟩
    refine (hraw i (by omega)).trans ?_
    rw [getElem_nvWords]
    exact Nat.mod_eq_of_lt (Store.leNat_bytes_lt _ _ _)
  · exact gives_of_blockV (c := .nvWrite e) (n := fun op => (nvRange op).2) (f := nvWriteServed) hcl rfl ha (if_pos hf) rfl fun h => ⟨h, rfl⟩
  · refine gives_of_blockV (c := .nvWrite e) (n := fun op => (nvRange op).2) (f := nvWriteServed) hcl rfl ha (if_neg (Nat.not_lt.2 hf)) rfl
      fun h => ⟨h, rfl, fun i hi => ?_, fun i hi => Store.raw_putWords_ne _ _ _ _ hi⟩
    exact (Store.raw_putWords _ _ _ _ i hi).trans (Nat.mod_eq_of_lt (blk_lt _ _ _))
  · have hrec := recorded_nvAppend v (d.pfNoted t) 1 (type := t) (data := ((b 8).drop 16).take 44) (lt_trans (blk_lt _ _ _) (by norm_num)) (List.length_take_le _ _)
    have he : ((nvAppend (d.pfNoted t) v 1 t (((b 8).drop 16).take 44)).1.e e).reqs = (d.e e).reqs := by
      rw [nvAppend_eq, Dev.e_nvBusy, Dev.e, Dev.eng_pfNoted, Dev.e]
    have hv : (nvAppend (d.pfNoted t) v 1 t (((b 8).drop 16).take 44)).2 = { v with nv := (nvAppend (d.pfNoted t) v 1 t (((b 8).drop 16).take 44)).2.nv } := by
      rw [nvAppend_eq]
      exact Vault.putSlot_frame _ _ _
    have hf : nvRecordServed (b 8) op d v = ((nvAppend (d.pfNoted t) v 1 t (((b 8).drop 16).take 44)), some (0, (v.seq + 1) % 2 ^ 32)) := nvRecordServed_taken d v (b 8) op h1
    generalize nvAppend (d.pfNoted t) v 1 t (((b 8).drop 16).take 44) = r at hrec he hv hf
    obtain ⟨y, u⟩ := r
    exact gives_of_blockV (c := .nvRecord e) (n := fun _ => 8) hcl (exec_nvRecord e s) ha hf he fun h => ⟨h, hv, hrec⟩
  · have hf : nvRecordServed (b 8) op d v = ((d, v), some (13, 0)) := if_neg (not_or.2 ⟨h1, Nat.not_le.2 h2⟩)
    exact gives_of_blockV (c := .nvRecord e) (n := fun _ => 8) hcl (exec_nvRecord e s) ha hf rfl fun h => ⟨h, rfl⟩
  · have h := makes_of_gateRead (c := .nvDataLoRead src) (f := fun d => d.nvDataLo s.vault) rfl hb (Dev.nvDataLo_clean d v hnv)
    generalize s.vault.nv.raw (s.dev.get R.NV_ADDR.WORD) = r at h
    refine h.gives ?_
    exact ⟨(Dev.reads_respond _ _ _).trans (Nat.mod_mod _ _), rfl, rfl, rfl⟩
  · have h := makes_of_gateRead (c := .nvDataHiRead src) (f := Dev.nvDataHi) rfl hb rfl
    have hlt := s.dev.sec.nvWord.isLt
    have hm := d.nvAddr_incW
    have hr := (RegsOnly.refl d [A.NV_ADDR]).set (f := R.NV_ADDR.WORD) (v := d.get R.NV_ADDR.WORD + 1) 0 rfl
    rw [← Dev.incW] at hr
    generalize hu : s.dev.incW R.NV_ADDR.WORD = u at h hm hr
    refine h.gives ⟨?_, hm, rfl, hr.respond src _⟩
    exact (Dev.reads_respond _ _ _).trans (Nat.mod_eq_of_lt (by omega))
  · have h := Dev.nvDataHiWrite_idle d v x hb
    obtain ⟨y, hy⟩ : ∃ y, y = (s.dev.setReg A.NV_DATA_HI x.toNat).incW R.NV_ADDR.WORD := ⟨_, rfl⟩
    have hw : (s.dev.setReg A.NV_DATA_HI x.toNat).get R.NV_ADDR.WORD = w := Dev.get_setReg_ne _ _ _ (by decide)
    have hm : y.get R.NV_ADDR.WORD = (w + 1) % 8192 := by rw [hy, Dev.nvAddr_incW, hw]
    have hx : y.reg A.NV_DATA_HI = x.toNat := by
      rw [hy, Dev.incW, Dev.reg_set_ne (a := A.NV_DATA_HI) _ R.NV_ADDR.WORD _ (by decide), Dev.reg_setReg_same, Nat.mod_eq_of_lt x.isLt]
    have hd : y.on R.NV_STATUS.DENIED = s.dev.on R.NV_STATUS.DENIED := by
      rw [hy, Dev.incW, Dev.on_congr (Dev.reg_set_ne (a := A.NV_STATUS) _ R.NV_ADDR.WORD _ (by decide)), Dev.on_congr (Dev.reg_setReg_ne _ _ (by decide))]
    rw [nvStore, hw, ← hy] at h
    by_cases hs : 1032 ≤ w
    · rw [if_pos (by rw [nvSoft, decide_eq_true_iff]; exact ⟨hs, Dev.get_lt _ _⟩), BitVec.toNat_ofNat,
        Nat.mod_eq_of_lt (by have := x.isLt; have := d.reg_lt A.NV_DATA_LO; omega)] at h
      rw [← y.get_nvBusy 1] at hm
      rw [← y.reg_nvBusy 1] at hx
      rw [← y.on_nvBusy 1] at hd
      generalize y.nvBusy 1 = z at h hm hx hd
      exact gives_of_onV (c := .nvDataHiWrite x) (f := fun d v => nvDataHiWrite d v x.toNat) rfl h ⟨hm, hx, fun _ => ⟨rfl, hd⟩, fun hw => absurd hw (by omega)⟩
    · rw [if_neg (by rw [nvSoft, decide_eq_true_iff]; exact fun h => hs h.1)] at h
      rw [← Dev.get_set_reg y R.NV_STATUS.DENIED _ 1 (by decide)] at hm
      rw [← Dev.reg_set_ne (a := A.NV_DATA_HI) y R.NV_STATUS.DENIED 1 (by decide)] at hx
      have hon : (y.set R.NV_STATUS.DENIED 1).on R.NV_STATUS.DENIED = true := by
        rw [Dev.on_set_same _ _ _ (Fld.ok_of_ble rfl)]
        rfl
      generalize y.set R.NV_STATUS.DENIED 1 = z at h hm hx hon
      exact gives_of_onV (c := .nvDataHiWrite x) (f := fun d v => nvDataHiWrite d v x.toNat) rfl h ⟨hm, hx, fun hw => absurd hw hs, fun _ => ⟨rfl, hon⟩⟩
  · have h := Dev.nvDataHiWrite_busy d v x hb
    have hr : (s.dev.setReg A.NV_DATA_HI x.toNat).reg A.NV_ADDR = s.dev.reg A.NV_ADDR := Dev.reg_setReg_ne _ _ (by decide)
    have hs : (s.dev.setReg A.NV_DATA_HI x.toNat).sec = s.dev.sec := Dev.sec_setReg _ _ _
    generalize s.dev.setReg A.NV_DATA_HI x.toNat = y at h hr hs
    refine gives_of_onV (c := .nvDataHiWrite x) (f := fun d v => nvDataHiWrite d v x.toNat) rfl h ⟨rfl, hr, ?_⟩
    show y.sec.nvWait ++ _ = _
    rw [hs]

end

section
/-! The dispatch controller: request lines and the claimable set (R297 to R303). -/

open Sys2Proof

namespace Sys2Proof.Machine

/-! What the request lines depend on. -/

/-- From d to d' nothing changes that the claimable set of a target depends on. -/
def LineSame (d d' : Dev) : Prop :=
  (∀ a, 0x30100 ≤ a → a < 0x32000 → (∀ t, A.TGT_STATUS t ≠ a) → d'.reg a = d.reg a) ∧ ∀ t, d'.depth t = d.depth t

namespace LineSame
variable {d d' : Dev}

theorem refl (d : Dev) : LineSame d d := ⟨fun _ _ _ _ => rfl, fun _ => rfl⟩

theorem trans {e : Dev} (h : LineSame d d') (h' : LineSame d' e) : LineSame d e :=
  ⟨fun a h1 h2 h3 => (h'.1 a h1 h2 h3).trans (h.1 a h1 h2 h3), fun t => (h'.2 t).trans (h.2 t)⟩

theorem get (h : LineSame d d') {f : Fld} (h1 : 0x30100 ≤ f.addr) (h2 : f.addr < 0x32000) (h3 : ∀ t, A.TGT_STATUS t ≠ f.addr) : d'.get f = d.get f :=
  Dev.get_congr (h.1 _ h1 h2 h3)

variable (h : LineSame d d')
include h

theorem level {n : Nat} (hn : n < 512) : d'.level n = d.level n := by
  rw [Dev.level, h.get (by show 0x30100 ≤ 0x30200 + _; omega) (by show 0x30200 + n / 32 * 4 < _; omega) fun t => by
    show 0x31044 + t * 256 ≠ 0x30200 + n / 32 * 4; omega, Dev.level]

theorem swPend {n : Nat} (hn : n < 512) : d'.swPend n = d.swPend n := by
  rw [Dev.swPend, h.get (by show 0x30100 ≤ 0x30280 + _; omega) (by show 0x30280 + n / 32 * 4 < _; omega) fun t => by
    show 0x31044 + t * 256 ≠ 0x30280 + n / 32 * 4; omega, Dev.swPend]

theorem pendWord {w : Nat} (hw : w < 16) : d'.pendWord w = d.pendWord w := by
  rw [Dev.pendWord, h.get (by show 0x30100 ≤ 0x30200 + _; omega) (by show 0x30200 + w * 4 < _; omega) fun t => by
    show 0x31044 + t * 256 ≠ 0x30200 + w * 4; omega, h.get (by show 0x30100 ≤ 0x30280 + _; omega) (by show 0x30280 + w * 4 < _; omega) fun t => by
    show 0x31044 + t * 256 ≠ 0x30280 + w * 4; omega, Dev.pendWord]

theorem prio {n : Nat} (hn : n < 512) : d'.prio n = d.prio n := by
  rw [Dev.prio, h.1 (A.PRIO (n / 8)) (by show 0x30100 ≤ 0x30100 + _; omega) (by show 0x30100 + n / 8 * 4 < _; omega) fun t => by
    show 0x31044 + t * 256 ≠ 0x30100 + n / 8 * 4; omega, Dev.prio]

theorem runPrio {t : Nat} (ht : t < 9) : d'.runPrio t = d.runPrio t := by
  have hd : d.depth t < 2 ^ 5 := d.get_lt _
  rw [Dev.runPrio, h.2 t, h.get (by show 0x30100 ≤ 0x31080 + t * 256 + _; omega) (by show 0x31080 + t * 256 + (d.depth t - 1) * 4 < _; omega) fun k => by
    show 0x31044 + k * 256 ≠ 0x31080 + t * 256 + (d.depth t - 1) * 4; omega, Dev.runPrio]

theorem enabled {t w : Nat} (ht : t < 9) (hw : w < 16) : d'.get (R.TGT_EN.EN t w) = d.get (R.TGT_EN.EN t w) :=
  h.get (by show 0x30100 ≤ 0x31000 + t * 256 + _; omega) (by show 0x31000 + t * 256 + w * 4 < _; omega) fun k => by
    show 0x31044 + k * 256 ≠ 0x31000 + t * 256 + w * 4; omega

theorem claimed {w : Nat} (hw : w < 16) : d'.get (R.CLAIMED.CLAIMED w) = d.get (R.CLAIMED.CLAIMED w) :=
  h.get (by show 0x30100 ≤ 0x30300 + _; omega) (by show 0x30300 + w * 4 < _; omega) fun k => by
    show 0x31044 + k * 256 ≠ 0x30300 + w * 4; omega

theorem thresh {t : Nat} (ht : t < 9) : d'.get (R.THRESH.THR t) = d.get (R.THRESH.THR t) :=
  h.get (by show 0x30100 ≤ 0x31040 + t * 256; omega) (by show 0x31040 + t * 256 < _; omega) fun k => by
    show 0x31044 + k * 256 ≠ 0x31040 + t * 256; omega

theorem claimable {t n : Nat} (ht : t < 9) (hn : n < 512) : d'.claimable t n = d.claimable t n := by
  rw [Dev.claimable, Dev.pending, h.level hn, h.swPend hn, h.enabled ht (by omega), h.claimed (by omega), h.thresh ht, h.prio hn, h.runPrio ht,
    Dev.claimable, Dev.pending]

theorem claimables {t : Nat} (ht : t < 9) : d'.claimables t = d.claimables t := by
  refine List.flatMap_congr fun w hw => ?_
  rw [h.pendWord (List.mem_range.1 hw)]
  split
  · rfl
  · refine List.filter_congr fun n hn => ?_
    obtain ⟨i, hi, rfl⟩ := List.mem_map.1 hn
    rw [List.mem_range] at hi hw
    exact h.claimable ht (by omega)

end LineSame

/-! The claimable set and the source it picks (R300). -/

section
variable (d : Dev) (t : Nat)

/-- A claimable source is pending. -/
theorem Dev.pendWord_of_claimable {n : Nat} (h : d.claimable t n = true) : d.pendWord (n / 32) ≠ 0 := by
  intro h0
  have hb : bit (d.pendWord (n / 32)) (n % 32) = d.pending n := by
    rw [Dev.pendWord, bit_eq_testBit, Nat.testBit_or, ← bit_eq_testBit, ← bit_eq_testBit]
    rfl
  have hz : bit 0 (n % 32) = false := by rw [bit_eq_testBit, Nat.zero_testBit]
  rw [h0, hz] at hb
  simp [Dev.claimable, ← hb] at h

theorem Dev.mem_claimables {n : Nat} : n ∈ d.claimables t ↔ n < 512 ∧ d.claimable t n = true := by
  simp only [Dev.claimables, List.mem_flatMap, List.mem_range]
  constructor
  · rintro ⟨w, hw, h⟩
    split at h
    · simp at h
    · obtain ⟨h, hc⟩ := List.mem_filter.1 h
      obtain ⟨i, hi, rfl⟩ := List.mem_map.1 h
      rw [List.mem_range] at hi
      exact ⟨by omega, hc⟩
  · rintro ⟨hn, hc⟩
    refine ⟨n / 32, by omega, ?_⟩
    rw [if_neg (d.pendWord_of_claimable t hc)]
    exact List.mem_filter.2 ⟨List.mem_map.2 ⟨n % 32, List.mem_range.2 (by omega), by omega⟩, hc⟩

theorem Dev.claimables_sorted : (d.claimables t).Pairwise (· < ·) := by
  have hword : ∀ {w n}, n ∈ (if d.pendWord w = 0 then [] else ((List.range 32).map (32 * w + ·)).filter fun n => d.claimable t n) →
      32 * w ≤ n ∧ n < 32 * w + 32 := fun h => by
    split at h
    · simp at h
    · obtain ⟨i, hi, rfl⟩ := List.mem_map.1 (List.mem_filter.1 h).1
      rw [List.mem_range] at hi
      omega
  refine List.pairwise_flatMap.2 ⟨fun w _ => ?_, List.pairwise_lt_range.imp fun {w w'} hw x hx y hy => ?_⟩
  · split
    · exact .nil
    · exact (List.pairwise_map.2 (List.pairwise_lt_range.imp fun h => by omega)).filter _
  · have h1 := hword hx
    have h2 := hword hy
    omega

/-- One claimable source against the best so far. -/
def Dev.better (d : Dev) (b n : Nat) : Nat := if b = 0 ∨ d.prio b < d.prio n then n else b

theorem Dev.best_eq : d.best t = (d.claimables t).foldl d.better 0 := rfl

variable {d t}

theorem Dev.better_cases (d : Dev) (b n : Nat) : d.better b n = n ∨ d.better b n = b := by
  unfold Dev.better
  split
  · exact .inl rfl
  · exact .inr rfl

theorem Dev.best_eq_zero (h : ∀ m < 512, m ≠ 0 → d.claimable t m = false) : d.best t = 0 := by
  rw [Dev.best_eq]
  refine List.foldlRecOn (motive := fun b => b = 0) _ _ rfl fun b hb m hm => ?_
  obtain ⟨hm, hc⟩ := (d.mem_claimables t).1 hm
  have hm0 : m = 0 := by
    by_contra hne
    rw [h m hm hne] at hc
    exact Bool.noConfusion hc
  obtain h | h := d.better_cases b m
  · rw [h, hm0]
  · rw [h, hb]

/-- The source of highest priority, the lowest number among equals, is the best. -/
theorem Dev.best_eq_of {n : Nat} (hn : n < 512) (h0 : n ≠ 0) (hc : d.claimable t n = true)
    (hmax : ∀ m < 512, m ≠ 0 → d.claimable t m = true → d.prio m < d.prio n ∨ (d.prio m = d.prio n ∧ n ≤ m)) : d.best t = n := by
  obtain ⟨l1, l2, hl⟩ := List.append_of_mem ((d.mem_claimables t).2 ⟨hn, hc⟩)
  have hsort := d.claimables_sorted t
  have hmem : ∀ m, m ∈ l1 ++ n :: l2 → m < 512 ∧ d.claimable t m = true := fun m hm => (d.mem_claimables t).1 (hl ▸ hm)
  rw [hl, List.pairwise_append] at hsort
  rw [Dev.best_eq, hl, List.foldl_append, List.foldl_cons]
  have hbefore : l1.foldl d.better 0 = 0 ∨ d.prio (l1.foldl d.better 0) < d.prio n := by
    refine List.foldlRecOn (motive := fun b => b = 0 ∨ d.prio b < d.prio n) _ _ (.inl rfl) fun b hb m hm => ?_
    obtain h | h := d.better_cases b m
    · rw [h]
      by_cases hm0 : m = 0
      · exact .inl hm0
      · obtain ⟨hm5, hmc⟩ := hmem m (List.mem_append_left _ hm)
        exact .inr ((hmax m hm5 hm0 hmc).resolve_right fun h => Nat.not_le_of_lt (hsort.2.2 m hm n (.head _)) h.2)
    · rwa [h]
  have hat : d.better (l1.foldl d.better 0) n = n := if_pos hbefore
  rw [hat]
  refine List.foldlRecOn (motive := fun b => b = n) _ _ rfl fun b hb m hm => ?_
  obtain ⟨hm5, hmc⟩ := hmem m (List.mem_append_right _ (.tail _ hm))
  have hm0 : m ≠ 0 := Nat.ne_of_gt (Nat.lt_of_le_of_lt (Nat.zero_le n) ((List.pairwise_cons.1 hsort.2.1).1 m hm))
  have hle := hmax m hm5 hm0 hmc
  subst hb
  exact if_neg (by omega)

end

theorem LineSame.best {d d' : Dev} (h : LineSame d d') {t : Nat} (ht : t < 9) : d'.best t = d.best t := by
  rw [Dev.best_eq, Dev.best_eq, h.claimables ht]
  have hl : ∀ n ∈ d.claimables t, n < 512 := fun n hn => ((d.mem_claimables t).1 hn).1
  generalize d.claimables t = l at hl
  have key : ∀ b < 512, l.foldl d'.better b = l.foldl d.better b := by
    induction l with
    | nil => exact fun _ _ => rfl
    | cons n l ih =>
      intro b hb
      have hn := hl n (.head _)
      have hstep : d'.better b n = d.better b n := by rw [Dev.better, h.prio hb, h.prio hn, Dev.better]
      rw [List.foldl_cons, List.foldl_cons, hstep]
      refine ih (fun m hm => hl m (.tail _ hm)) _ ?_
      obtain h | h := d.better_cases b n <;> omega
  exact key 0 (by decide)

theorem LineSame.line {d d' : Dev} (h : LineSame d d') {t : Nat} (ht : t < 9) : d'.line t = d.line t := by
  rw [Dev.line, h.best ht, Dev.line]

/-! The request lines follow. -/

theorem Dev.reg_refreshLine (d : Dev) (t : Nat) {a : Nat} (h : ∀ k, A.TGT_STATUS k ≠ a) : (d.refreshLine t).reg a = d.reg a := by
  have hl : (d.flag (R.TGT_STATUS.LINE t) (d.line t)).reg a = d.reg a := Dev.reg_set_ne d _ _ (h t)
  unfold Dev.refreshLine
  dsimp only
  split
  · rw [Dev.reg_set_ne _ (R.TGT_STATUS.LINE_SEEN t) _ (h t), hl]
  · exact hl

theorem Dev.reg_syncInta (d : Dev) (a : Nat) : d.syncInta.reg a = d.reg a := by
  unfold Dev.syncInta
  split <;> rfl

theorem Dev.reg_refreshLines (d : Dev) {a : Nat} (h : ∀ k, A.TGT_STATUS k ≠ a) : d.refreshLines.reg a = d.reg a := by
  rw [Dev.refreshLines, Dev.reg_syncInta]
  exact List.foldlRecOn (motive := fun e : Dev => e.reg a = d.reg a) _ _ rfl fun e he t _ => (e.reg_refreshLine t h).trans he

theorem Dev.depth_refreshLines (d : Dev) (t : Nat) : d.refreshLines.depth t = d.depth t :=
  d.get_refreshLines fun _ _ => (by decide : 20 < 30)

theorem lineSame_refreshLine (d : Dev) (t : Nat) : LineSame d (d.refreshLine t) :=
  ⟨fun _ _ _ h => d.reg_refreshLine t h, fun _ => d.get_refreshLine t fun _ _ => (by decide : 20 < 30)⟩

theorem lineSame_refreshLines (d : Dev) : LineSame d d.refreshLines :=
  ⟨fun _ _ _ h => d.reg_refreshLines h, fun t => d.depth_refreshLines t⟩

theorem Dev.on_syncInta (d : Dev) (f : Fld) : d.syncInta.on f = d.on f := by rw [Dev.on, Dev.get_syncInta, Dev.on]

theorem Dev.line_refreshLine_same (d : Dev) (t : Nat) : (d.refreshLine t).on (R.TGT_STATUS.LINE t) = d.line t := by
  have hl : (d.flag (R.TGT_STATUS.LINE t) (d.line t)).on (R.TGT_STATUS.LINE t) = d.line t := Dev.on_flag_same d _ _ (Fld.ok_of_ble rfl) rfl
  unfold Dev.refreshLine
  dsimp only
  split
  · rw [Dev.on_set_apart _ (R.TGT_STATUS.LINE_SEEN t) (R.TGT_STATUS.LINE t) _ (Fld.ok_of_ble rfl) (.inr (.inr (show 30 < 31 by decide))), hl]
  · exact hl

theorem Dev.on_refreshLine_ne (d : Dev) {t : Nat} {f : Fld} (h : A.TGT_STATUS t ≠ f.addr) : (d.refreshLine t).on f = d.on f := by
  have hl : (d.flag (R.TGT_STATUS.LINE t) (d.line t)).on f = d.on f := Dev.on_flag_apart d _ f _ (Fld.ok_of_ble rfl) (.inl h)
  unfold Dev.refreshLine
  dsimp only
  split
  · rw [Dev.on_set_apart _ (R.TGT_STATUS.LINE_SEEN t) _ _ (Fld.ok_of_ble rfl) (.inl h), hl]
  · exact hl

theorem tgtStatus_ne {t k : Nat} (h : t ≠ k) : A.TGT_STATUS t ≠ A.TGT_STATUS k := by
  simp only [A.TGT_STATUS]
  omega

/-- R298: after a change every request line is what its claimable set says. -/
def LinesFollow (d : Dev) : Prop := ∀ k < 9, d.on (R.TGT_STATUS.LINE k) = d.line k

theorem linesFollow_refreshLines (d : Dev) : LinesFollow d.refreshLines := by
  intro k hk
  rw [(lineSame_refreshLines d).line hk, Dev.refreshLines, Dev.on_syncInta]
  refine (foldl_establishes (P := fun k (e : Dev) => k < 9 → e.on (R.TGT_STATUS.LINE k) = d.line k) (I := LineSame d) (List.range 9)
    (fun e t _ he => he.trans (lineSame_refreshLine e t)) (fun e t _ he ht => (e.line_refreshLine_same t).trans (he.line ht))
    (fun e t _ c hct _ hc hc9 => (e.on_refreshLine_ne (f := R.TGT_STATUS.LINE c) (tgtStatus_ne hct.symm)).trans (hc hc9)) d (.refl d)).2.2 k
    (List.mem_range.2 hk) hk

/-- LINE_SEEN is untouched where the line is not asserted. -/
theorem Dev.lineSeen_refreshLines (d : Dev) {t : Nat} (ht : t < 9) (h : d.line t = false) :
    d.refreshLines.on (R.TGT_STATUS.LINE_SEEN t) = d.on (R.TGT_STATUS.LINE_SEEN t) := by
  rw [Dev.refreshLines, Dev.on_syncInta]
  refine (List.foldlRecOn (motive := fun e : Dev => LineSame d e ∧ e.on (R.TGT_STATUS.LINE_SEEN t) = d.on (R.TGT_STATUS.LINE_SEEN t)) _ _
    ⟨.refl d, rfl⟩ fun e he k _ => ⟨he.1.trans (lineSame_refreshLine e k), ?_⟩).2
  by_cases hk : k = t
  · subst hk
    rw [← he.2, Dev.refreshLine, he.1.line ht, h]
    exact Dev.on_flag_apart e (R.TGT_STATUS.LINE k) (R.TGT_STATUS.LINE_SEEN k) _ (Fld.ok_of_ble rfl) (.inr (.inl (show 30 < 31 by decide)))
  · exact (e.on_refreshLine_ne (f := R.TGT_STATUS.LINE_SEEN t) (tgtStatus_ne hk)).trans he.2

/-! Words of bits. -/

section
variable (d : Dev) {i : Nat} (hi : i < 32)
include hi

theorem Dev.bit_get_word (a : Nat) : bit (d.get ⟨a, 31, 0⟩) i = bit (d.reg a) i := by
  rw [Dev.get, bit_eq_testBit, bit_eq_testBit, testBit_getBits]
  simp [hi]

theorem Dev.bit_setReg_same (a v : Nat) : bit ((d.setReg a v).reg a) i = bit v i := by
  rw [Dev.reg_setReg_same, bit_eq_testBit, bit_eq_testBit, Nat.testBit_mod_two_pow, decide_eq_true hi, Bool.true_and]

theorem Dev.bit_putBit_word (a : Nat) {j : Nat} (b : Bool) (c : Nat) :
    bit ((d.setReg a (putBit (d.reg a) j b)).reg c) i = if a = c ∧ j = i then b else bit (d.reg c) i := by
  by_cases ha : a = c
  · subst ha
    rw [Dev.bit_setReg_same d hi]
    by_cases hj : j = i
    · subst hj
      rw [bit_putBit_same, if_pos ⟨rfl, rfl⟩]
    · rw [bit_putBit_ne _ _ hj, if_neg fun h => hj h.2]
  · rw [Dev.reg_setReg_ne d _ ha, if_neg fun h => ha h.1]

end

/-- The claimed bit of source n. -/
def Dev.claimedBit (d : Dev) (n : Nat) : Bool := bit (d.get (R.CLAIMED.CLAIMED (n / 32))) (n % 32)

theorem Dev.claimedBit_eq (d : Dev) (n : Nat) : d.claimedBit n = bit (d.reg (A.CLAIMED (n / 32))) (n % 32) :=
  d.bit_get_word (Nat.mod_lt _ (by decide)) _

theorem Dev.swPend_eq (d : Dev) (n : Nat) : d.swPend n = bit (d.reg (A.SWPEND (n / 32))) (n % 32) :=
  d.bit_get_word (Nat.mod_lt _ (by decide)) _

theorem Dev.level_eq (d : Dev) (n : Nat) : d.level n = bit (d.reg (A.LEVEL (n / 32))) (n % 32) :=
  d.bit_get_word (Nat.mod_lt _ (by decide)) _

theorem same_source {x n m : Nat} : x + n / 32 * 4 = x + m / 32 * 4 ∧ n % 32 = m % 32 ↔ m = n := by omega

theorem Dev.claimedBit_setClaimed (d : Dev) (n m : Nat) (b : Bool) : (d.setClaimed n b).claimedBit m = if m = n then b else d.claimedBit m := by
  rw [Dev.claimedBit_eq, Dev.setClaimed, Dev.bit_putBit_word d (Nat.mod_lt _ (by decide)), Dev.claimedBit_eq, A.CLAIMED, A.CLAIMED, if_congr same_source rfl rfl]

theorem LineSame.claimedBit {d d' : Dev} (h : LineSame d d') {n : Nat} (hn : n < 512) : d'.claimedBit n = d.claimedBit n :=
  congrArg (bit · (n % 32)) (h.claimed (by omega))

/-! A pump transition touches no register of the dispatch controller (R319, R325). -/

/-- From d to d' the pumping station's record and registers of the power block change, and nothing else. -/
def PwrStep (d d' : Dev) : Prop := (∀ a, 0x10600 ≤ a → d'.reg a = d.reg a) ∧ d' = { d with regs := d'.regs, pwr := d'.pwr }

namespace PwrStep
variable {d d' : Dev}

theorem refl (d : Dev) : PwrStep d d := ⟨fun _ _ => rfl, rfl⟩

theorem setReg (h : PwrStep d d') {a v : Nat} (ha : a < 0x10600) : PwrStep d (d'.setReg a v) := by
  obtain ⟨hr, hd⟩ := h
  refine ⟨fun b hb => (Dev.reg_setReg_ne d' v (show a ≠ b by omega)).trans (hr b hb), ?_⟩
  rw [hd]
  rfl

theorem set (h : PwrStep d d') {f : Fld} {v : Nat} (ha : f.addr < 0x10600) : PwrStep d (d'.set f v) := h.setReg ha

theorem onPwr (h : PwrStep d d') (f : PwrSt → PwrSt) : PwrStep d (d'.onPwr f) := by
  obtain ⟨hr, hd⟩ := h
  refine ⟨hr, ?_⟩
  rw [hd]
  rfl

theorem acctEntry (h : PwrStep d d') (p res who : Nat) (done : Bool) : PwrStep d (d'.acctEntry p res who done) := by
  unfold Dev.acctEntry
  split
  · exact h
  · next hp =>
    have ha : A.ACCT_3 p < 0x10600 := by simp only [A.ACCT_3]; omega
    split
    · exact h.setReg ha
    · exact h.setReg ha

theorem startTrans (h : PwrStep d d') (r : PReq) : PwrStep d (d'.startTrans r) := by
  have h' : PwrStep d (if r.halts then d'.set R.PWR_STATUS.PREV (d'.get R.PWR_STATUS.PROFILE) else d') := by
    split
    · exact h.set (by decide)
    · exact h
  exact (h'.set (by decide)).onPwr _

theorem foldl {β : Type} (h : PwrStep d d') {f : Dev → β → Dev} (l : List β) (hf : ∀ e b, PwrStep d e → PwrStep d (f e b)) :
    PwrStep d (l.foldl f d') :=
  List.foldlRecOn (motive := PwrStep d) l f h fun e he b _ => hf e b he

theorem ite {c : Prop} [Decidable c] {x y : Dev} (hx : PwrStep d x) (hy : PwrStep d y) : PwrStep d (if c then x else y) := by
  split
  · exact hx
  · exact hy

theorem endTrans (h : PwrStep d d') (t : Trans) : PwrStep d (d'.endTrans t) := by
  unfold Dev.endTrans
  extract_lets who d1 d2 d3 d4 kept d5 d6 d7 d8 d9
  have h3 : PwrStep d d3 := (((((h.onPwr _).set (by decide)).set (by decide)).set (by decide)).set (by decide)).set (by decide)
  have h4 : PwrStep d d4 := by
    dsimp only [d4]
    split
    · exact h3.set (by decide)
    · exact h3
  have h5 : PwrStep d d5 := h4.foldl _ fun e b he => .ite (he.acctEntry ..) (he.acctEntry ..)
  have h6 : PwrStep d d6 := h5.foldl _ fun e b he => he.acctEntry ..
  have h7 : PwrStep d d7 := h6.set (by decide)
  have h8 : PwrStep d d8 := h7.set (by decide)
  have h9 : PwrStep d d9 := .ite (.ite (.ite h8 (h8.onPwr _)) h7) (h6.set (by decide))
  clear_value d9
  split
  · exact ((h9.set (by decide)).onPwr _).startTrans _
  · exact h9

theorem checkTrans (h : PwrStep d d') : PwrStep d d'.checkTrans := by
  unfold Dev.checkTrans
  split
  · exact h
  · exact .ite h (h.endTrans _)

theorem settleTrans (h : PwrStep d d') : PwrStep d d'.settleTrans := h.checkTrans.checkTrans

theorem wakeSource (h : PwrStep d d') (n : Nat) : PwrStep d (d'.wakeSource n) := by
  unfold Dev.wakeSource
  split
  · exact h
  · split
    · split
      · exact h.onPwr _
      · exact h
    · split
      · exact ((h.set (by decide)).startTrans _).settleTrans
      · exact h

theorem lineSame (h : PwrStep d d') : LineSame d d' :=
  ⟨fun a ha _ _ => h.1 a (by omega), fun t => Dev.get_congr (h.1 _ (by simp only [R.TGT_STATUS.DEPTH, A.TGT_STATUS]; omega))⟩

theorem linesFollow (h : PwrStep d d') (hd : LinesFollow d) : LinesFollow d' := fun k hk => by
  rw [h.lineSame.line hk, ← hd k hk]
  exact Dev.on_congr (h.1 _ (by simp only [R.TGT_STATUS.LINE, A.TGT_STATUS]; omega))

end PwrStep

end Sys2Proof.Machine
end

section
/-! The commands of the dispatch controller (spec/11, R293, R295 to R304). -/

open Sys2Proof

namespace Sys2Proof.Machine

/-! Levels (R293, R295). -/

theorem Dev.bit_swWord (d : Dev) {w i : Nat} (hi : i < 32) : bit (d.get (R.SWPEND.SW w)) i = bit (d.reg (A.SWPEND w)) i := d.bit_get_word hi _

theorem Dev.level_setLevel (d : Dev) (n : Nat) (b : Bool) {m : Nat} (hm : m < 512) : (d.setLevel n b).level m = if m = n then b else d.level m := by
  rw [Dev.setLevel, (lineSame_refreshLines _).level hm, Dev.level_eq, Dev.bit_putBit_word d (Nat.mod_lt _ (by decide)), Dev.level_eq, A.LEVEL, A.LEVEL,
    if_congr same_source rfl rfl]

theorem Dev.regsHost_setLevel (d : Dev) (n : Nat) (b : Bool) : d.RegsHost (d.setLevel n b) := ((Dev.RegsHost.refl d).setReg _ _).refreshLines

theorem Dev.reg_setLevel_pwr (d : Dev) (n : Nat) (b : Bool) {a : Nat} (h : a < 0x30000) : (d.setLevel n b).reg a = d.reg a := by
  rw [Dev.setLevel, Dev.reg_refreshLines _ fun k => by simp only [A.TGT_STATUS]; omega, Dev.reg_setReg_ne _ _ (by simp only [A.LEVEL]; omega)]

theorem Dev.pwrStep_sourceChange (d : Dev) (n : Nat) : PwrStep (d.setLevel n (d.sourceLevel n)) (d.sourceChange n) := by
  unfold Dev.sourceChange
  exact .ite ((PwrStep.refl _).wakeSource n) (.refl _)

/-- R325: a source whose rise does not wake. -/
theorem Dev.sourceChange_of_not_wakes {d : Dev} {n : Nat} (hn : n < 512) (h : ¬ bit (d.reg (A.WAKE_EN (n / 32))) (n % 32) = true) :
    d.sourceChange n = d.setLevel n (d.sourceLevel n) := by
  have hw : (d.setLevel n (d.sourceLevel n)).wakeSource n = d.setLevel n (d.sourceLevel n) := by
    rw [Dev.wakeSource, d.reg_setLevel_pwr n _ (by simp only [A.WAKE_EN]; omega), if_pos (by simpa using h)]
  unfold Dev.sourceChange
  dsimp only
  rw [hw, ite_self]

/-- R293: the level of a source whose polder works is its condition. -/
theorem Dev.sourceLevel_of_up {d : Dev} {n q : Nat} (hq : polderGroup (sourcePolder n) = [q]) (hr : (d.p q).inReset = false)
    (ht : (d.p q).test = false) (hp : d.polder q ≠ 2) : d.sourceLevel n = d.condition n := by
  unfold Dev.sourceLevel
  dsimp only
  rw [hq, if_neg (by simp [hr, ht]), if_neg (by simpa using hp)]

theorem and_ne_zero_iff {a b : Nat} {k : Nat} (ha : a < 2 ^ k) (hk : k ≤ 32) :
    (a &&& b != 0) = true ↔ ∃ i, i < 32 ∧ bit a i = true ∧ bit b i = true := by
  rw [bne_iff_ne]
  constructor
  · intro h
    obtain ⟨i, hi⟩ := Nat.exists_testBit_of_ne_zero h
    rw [Nat.testBit_and, Bool.and_eq_true] at hi
    refine ⟨i, ?_, by rw [bit_eq_testBit]; exact hi.1, by rw [bit_eq_testBit]; exact hi.2⟩
    by_contra hc
    rw [Nat.testBit_lt_two_pow (Nat.lt_of_lt_of_le ha (Nat.pow_le_pow_right (by decide) (by omega)))] at hi
    exact Bool.noConfusion hi.1
  · rintro ⟨i, -, h1, h2⟩ h
    have := congrArg (Nat.testBit · i) h
    rw [bit_eq_testBit] at h1 h2
    simp [Nat.testBit_and, h1, h2] at this

theorem Dev.condition_host (d : Dev) :
    d.condition 469 = true ↔ ∃ i, i < 32 ∧ bit (d.get R.HOST_EVT.EVT) i = true ∧ bit (d.get R.HOST_IRQ_EN.EN) i = true :=
  and_ne_zero_iff (d.get_lt _) (by decide)

theorem Dev.condition_oct (d : Dev) {o k : Nat} (ho : o < 32) (hk : k < 12) : d.condition (12 * o + k + 1) = d.octSource o (k + 1) := by
  unfold Dev.condition
  rw [if_neg (by omega), if_pos (by omega), show (12 * o + k + 1 - 1) / 12 = o by omega, show (12 * o + k + 1 - 1) % 12 + 1 = k + 1 by omega]

theorem sourcePolder_oct {o k : Nat} (ho : o < 32) (hk : k < 12) : polderGroup (sourcePolder (12 * o + k + 1)) = [o] := by
  rw [sourcePolder, if_pos (by omega), show (12 * o + k + 1 - 1) / 12 = o by omega, polderGroup, if_neg (by omega)]

/-- R295: the timing events of an octet's lanes. -/
theorem Dev.octSource_timing (d : Dev) (o : Nat) :
    d.octSource o 5 = true ↔ d.get (R.TIMING_EVT.LANE o) ≠ 0 ∧ bit (d.reg (A.OCT_EN o)) 17 = true := by
  have h : d.octSource o 5 = ((bit (d.reg (A.OCT_EN o)) 17 && (List.range 8).any fun i => bit (d.get (R.TIMING_EVT.LANE o)) i) || false) := rfl
  have hlt : d.get (R.TIMING_EVT.LANE o) < 2 ^ 8 := d.get_lt _
  have hany : ((List.range 8).any fun i => bit (d.get (R.TIMING_EVT.LANE o)) i) = true ↔ d.get (R.TIMING_EVT.LANE o) ≠ 0 := by
    generalize d.get (R.TIMING_EVT.LANE o) = x at hlt
    rw [List.any_eq_true]
    constructor
    · rintro ⟨i, -, hi⟩ rfl
      rw [bit_eq_testBit, Nat.zero_testBit] at hi
      exact Bool.noConfusion hi
    · intro h
      obtain ⟨i, hi⟩ := Nat.exists_testBit_of_ne_zero h
      refine ⟨i, List.mem_range.2 ?_, by rw [bit_eq_testBit]; exact hi⟩
      by_contra hc
      rw [Nat.testBit_lt_two_pow (Nat.lt_of_lt_of_le hlt (Nat.pow_le_pow_right (by decide) (by omega)))] at hi
      exact Bool.noConfusion hi
  rw [h, Bool.or_false, Bool.and_eq_true, hany, and_comm]

/-! Software pending bits (R299). -/

theorem bit_sourceMask : ∀ w < 16, ∀ i < 32, bit (sourceMask w) i = decide (1 ≤ 32 * w + i ∧ 32 * w + i ≤ 500) := by decide

section
variable (d : Dev) {w i : Nat} (hw : w < 16) (hi : i < 32)
include hw hi

theorem Dev.bit_swPendWrite (v : Nat) : bit ((d.swPendWrite w v).get (R.SWPEND.SW w)) i =
    (bit (d.get (R.SWPEND.SW w)) i || (bit v i && decide (1 ≤ 32 * w + i ∧ 32 * w + i ≤ 500))) := by
  have hstep : PwrStep ((d.setReg (A.SWPEND w) (d.reg (A.SWPEND w) ||| (v &&& sourceMask w))).refreshLines) (d.swPendWrite w v) :=
    PwrStep.foldl (.refl _) _ fun e b he => .ite (he.wakeSource _) he
  rw [Dev.bit_swWord _ hi, hstep.1 _ (by simp only [A.SWPEND]; omega), Dev.reg_refreshLines _ fun k => by simp only [A.TGT_STATUS, A.SWPEND]; omega,
    Dev.bit_setReg_same _ hi, ← bit_sourceMask w hw i hi, Dev.bit_swWord _ hi]
  simp only [bit_eq_testBit, Nat.testBit_or, Nat.testBit_and]

theorem Dev.bit_swClrWrite (v : Nat) : bit ((d.swClrWrite w v).get (R.SWPEND.SW w)) i = (bit (d.get (R.SWPEND.SW w)) i && !bit v i) := by
  rw [Dev.bit_swWord _ hi, Dev.swClrWrite, Dev.reg_refreshLines _ fun k => by simp only [A.TGT_STATUS, A.SWPEND]; omega,
    Dev.bit_setReg_same _ hi, Dev.bit_swWord _ hi]
  have hx : 2 ^ 32 - 1 - v % 2 ^ 32 = 2 ^ 32 - (v % 2 ^ 32 + 1) := by omega
  rw [bit_eq_testBit, Nat.testBit_and, hx, Nat.testBit_two_pow_sub_succ (Nat.mod_lt _ (by decide)), Nat.testBit_mod_two_pow]
  simp only [bit_eq_testBit, hi, decide_true, Bool.true_and]

end

theorem Dev.linesFollow_swPendWrite (d : Dev) (w v : Nat) : LinesFollow (d.swPendWrite w v) :=
  (PwrStep.foldl (.refl _) _ fun _ _ he => .ite (he.wakeSource _) he).linesFollow (linesFollow_refreshLines _)

/-! Claim (R300). -/

/-- Target t has claimed source n: the request lines still to follow. -/
def Dev.claimPushed (d : Dev) (t n : Nat) : Dev :=
  let k := d.depth t
  let d' := d.setClaimed n true
  let d' := d'.setReg (A.STACK t k) (2 ^ 31 + n * 16 + d.prio n)
  let d' := d'.set (R.TGT_STATUS.DEPTH t) (k + 1)
  let d' := d'.setReg (A.SWPEND (n / 32)) (putBit (d'.reg (A.SWPEND (n / 32))) (n % 32) false)
  d'.set (R.TGT_STATUS.LINE_SEEN t) 0

theorem Dev.claim_of_best {d : Dev} {t n : Nat} (h : d.best t = n) (h0 : n ≠ 0) : d.claim t = (n, (d.claimPushed t n).refreshLines) := by
  subst h
  unfold Dev.claim
  exact if_pos h0

theorem Dev.claim_spurious {d : Dev} {t : Nat} (h : d.best t = 0) (hs : d.on (R.TGT_STATUS.LINE_SEEN t) = true) :
    d.claim t = (511, (d.set (R.TGT_STATUS.LINE_SEEN t) 0).inc (R.SPUR_CNT.COUNT t)) := by
  unfold Dev.claim
  dsimp only
  rw [h, if_neg (by decide), if_pos hs]

theorem Dev.claim_nothing {d : Dev} {t : Nat} (h : d.best t = 0) (hs : d.on (R.TGT_STATUS.LINE_SEEN t) = false) : d.claim t = (0, d) := by
  unfold Dev.claim
  dsimp only
  rw [h, if_neg (by decide), if_neg (by rw [hs]; decide)]

section
variable (d : Dev) {t n : Nat} (ht : t < 9) (hn : n < 512) (hk : d.depth t < 16)

theorem Dev.prio_lt (d : Dev) (n : Nat) : d.prio n < 16 := by
  have h : 4 * (n % 8) + 3 + 1 - 4 * (n % 8) = 4 := by omega
  rw [Dev.prio, getBits, h]
  exact Nat.mod_lt _ (by decide)

theorem Dev.reg_claimPushed {a : Nat} (h1 : A.CLAIMED (n / 32) ≠ a) (h2 : A.STACK t (d.depth t) ≠ a) (h3 : A.TGT_STATUS t ≠ a)
    (h4 : A.SWPEND (n / 32) ≠ a) : (d.claimPushed t n).reg a = d.reg a := by
  unfold Dev.claimPushed
  dsimp only
  rw [Dev.reg_set_ne _ (R.TGT_STATUS.LINE_SEEN t) _ h3, Dev.reg_setReg_ne _ _ h4, Dev.reg_set_ne _ (R.TGT_STATUS.DEPTH t) _ h3,
    Dev.reg_setReg_ne _ _ h2, Dev.setClaimed, Dev.reg_setReg_ne _ _ h1]

include ht hn hk

omit ht in
theorem Dev.claimedBit_claimPushed (m : Nat) (hm : m < 512) : (d.claimPushed t n).claimedBit m = if m = n then true else d.claimedBit m := by
  rw [← d.claimedBit_setClaimed, Dev.claimedBit_eq, Dev.claimedBit_eq]
  unfold Dev.claimPushed
  dsimp only
  rw [Dev.reg_set_ne _ (R.TGT_STATUS.LINE_SEEN t) _ (by simp only [R.TGT_STATUS.LINE_SEEN, A.TGT_STATUS, A.CLAIMED]; omega),
    Dev.reg_setReg_ne _ _ (by simp only [A.SWPEND, A.CLAIMED]; omega),
    Dev.reg_set_ne _ (R.TGT_STATUS.DEPTH t) _ (by simp only [R.TGT_STATUS.DEPTH, A.TGT_STATUS, A.CLAIMED]; omega),
    Dev.reg_setReg_ne _ _ (by simp only [A.STACK, A.CLAIMED]; omega)]

theorem Dev.swPend_claimPushed (m : Nat) (hm : m < 512) : (d.claimPushed t n).swPend m = if m = n then false else d.swPend m := by
  rw [Dev.swPend_eq, Dev.swPend_eq]
  unfold Dev.claimPushed
  dsimp only
  rw [Dev.reg_set_ne _ (R.TGT_STATUS.LINE_SEEN t) _ (by simp only [R.TGT_STATUS.LINE_SEEN, A.TGT_STATUS, A.SWPEND]; omega),
    Dev.bit_putBit_word _ (Nat.mod_lt _ (by decide)), A.SWPEND, A.SWPEND, if_congr same_source rfl rfl,
    Dev.reg_set_ne _ (R.TGT_STATUS.DEPTH t) _ (by simp only [R.TGT_STATUS.DEPTH, A.TGT_STATUS]; omega),
    Dev.reg_setReg_ne _ _ (by simp only [A.STACK]; omega), Dev.setClaimed, Dev.reg_setReg_ne _ _ (by simp only [A.CLAIMED]; omega)]

omit ht in
theorem Dev.depth_claimPushed : (d.claimPushed t n).depth t = d.depth t + 1 := by
  unfold Dev.claimPushed
  dsimp only
  rw [Dev.depth, Dev.get_set_apart _ (f := R.TGT_STATUS.LINE_SEEN t) (g := R.TGT_STATUS.DEPTH t) _ (Fld.ok_of_ble rfl)
      (.inr (.inl (show 20 < 30 by decide))),
    Dev.get_setReg_ne _ _ (R.TGT_STATUS.DEPTH t) (by simp only [R.TGT_STATUS.DEPTH, A.TGT_STATUS, A.SWPEND]; omega),
    Dev.get_set_same _ (R.TGT_STATUS.DEPTH t) _ (Fld.ok_of_ble rfl)]
  exact Nat.mod_eq_of_lt (show d.depth t + 1 < 2 ^ 5 by omega)

theorem Dev.top_claimPushed : (d.claimPushed t n).reg (A.STACK t (d.depth t)) = 2 ^ 31 + n * 16 + d.prio n := by
  have hp := d.prio_lt n
  unfold Dev.claimPushed
  dsimp only
  rw [Dev.reg_set_ne _ (R.TGT_STATUS.LINE_SEEN t) _ (by simp only [R.TGT_STATUS.LINE_SEEN, A.TGT_STATUS, A.STACK]; omega),
    Dev.reg_setReg_ne _ _ (by simp only [A.SWPEND, A.STACK]; omega),
    Dev.reg_set_ne _ (R.TGT_STATUS.DEPTH t) _ (by simp only [R.TGT_STATUS.DEPTH, A.TGT_STATUS, A.STACK]; omega), Dev.reg_setReg_same]
  exact Nat.mod_eq_of_lt (by omega)

theorem Dev.source_claimPushed : (d.claimPushed t n).get (R.STACK.SOURCE t (d.depth t)) = n := by
  have hp := d.prio_lt n
  have h : (d.claimPushed t n).get (R.STACK.SOURCE t (d.depth t)) = getBits ((d.claimPushed t n).reg (A.STACK t (d.depth t))) 12 4 := rfl
  rw [h, d.top_claimPushed ht hn hk, getBits]
  omega

theorem Dev.runPrio_claimPushed : (d.claimPushed t n).runPrio t = d.prio n := by
  have hp := d.prio_lt n
  have h : (d.claimPushed t n).get (R.STACK.PRIO t (d.depth t)) = getBits ((d.claimPushed t n).reg (A.STACK t (d.depth t))) 3 0 := rfl
  rw [Dev.runPrio, d.depth_claimPushed hn hk, if_neg (Nat.succ_ne_zero _), Nat.add_sub_cancel, h, d.top_claimPushed ht hn hk, getBits]
  omega

omit ht hn hk in
theorem Dev.lineSeen_claimPushed : (d.claimPushed t n).on (R.TGT_STATUS.LINE_SEEN t) = false := by
  unfold Dev.claimPushed
  dsimp only
  rw [Dev.on_set_same _ _ _ (Fld.ok_of_ble rfl)]
  rfl

/-- What t can still claim outranks the claim, and was claimable before. -/
theorem Dev.claimable_claimPushed (hc : d.claimable t n = true) {m : Nat} (hm : m < 512) (h : (d.claimPushed t n).claimable t m = true) :
    d.claimable t m = true ∧ d.prio n < d.prio m := by
  have hreg : ∀ a, 0x30100 ≤ a → a < 0x31080 → (∀ k, A.TGT_STATUS k ≠ a) → A.CLAIMED (n / 32) ≠ a → A.SWPEND (n / 32) ≠ a →
      (d.claimPushed t n).reg a = d.reg a := fun a _ h2 h3 h4 h5 =>
    d.reg_claimPushed h4 (by simp only [A.STACK]; omega) (h3 t) h5
  have hprio : (d.claimPushed t n).prio m = d.prio m := by
    rw [Dev.prio, hreg (A.PRIO (m / 8)) (by simp only [A.PRIO]; omega) (by simp only [A.PRIO]; omega)
      (fun k => by simp only [A.TGT_STATUS, A.PRIO]; omega) (by simp only [A.CLAIMED, A.PRIO]; omega) (by simp only [A.SWPEND, A.PRIO]; omega), Dev.prio]
  have hen : (d.claimPushed t n).get (R.TGT_EN.EN t (m / 32)) = d.get (R.TGT_EN.EN t (m / 32)) := Dev.get_congr <| d.reg_claimPushed
    (by simp only [R.TGT_EN.EN, A.TGT_EN, A.CLAIMED]; omega) (by simp only [R.TGT_EN.EN, A.TGT_EN, A.STACK]; omega)
    (by simp only [R.TGT_EN.EN, A.TGT_EN, A.TGT_STATUS]; omega) (by simp only [R.TGT_EN.EN, A.TGT_EN, A.SWPEND]; omega)
  have hthr : (d.claimPushed t n).get (R.THRESH.THR t) = d.get (R.THRESH.THR t) := Dev.get_congr <| d.reg_claimPushed
    (by simp only [R.THRESH.THR, A.THRESH, A.CLAIMED]; omega) (by simp only [R.THRESH.THR, A.THRESH, A.STACK]; omega)
    (by simp only [R.THRESH.THR, A.THRESH, A.TGT_STATUS]; omega) (by simp only [R.THRESH.THR, A.THRESH, A.SWPEND]; omega)
  have hlev : (d.claimPushed t n).level m = d.level m := by
    rw [Dev.level_eq, Dev.level_eq, hreg _ (by simp only [A.LEVEL]; omega) (by simp only [A.LEVEL]; omega)
      (fun k => by simp only [A.TGT_STATUS, A.LEVEL]; omega) (by simp only [A.CLAIMED, A.LEVEL]; omega) (by simp only [A.SWPEND, A.LEVEL]; omega)]
  have hcl : bit ((d.claimPushed t n).get (R.CLAIMED.CLAIMED (m / 32))) (m % 32) = if m = n then true else d.claimedBit m :=
    d.claimedBit_claimPushed hn hk m hm
  rw [Dev.claimable, Dev.pending, hlev, d.swPend_claimPushed ht hn hk m hm, hen, hcl, hthr, hprio, d.runPrio_claimPushed ht hn hk] at h
  by_cases hmn : m = n
  · rw [if_pos hmn, if_pos hmn] at h
    simp at h
  · rw [if_neg hmn, if_neg hmn] at h
    simp only [Dev.claimable, Dev.claimedBit, Dev.pending, Bool.and_eq_true, decide_eq_true_eq] at h hc ⊢
    exact ⟨⟨h.1, Nat.lt_trans hc.2 h.2⟩, h.2⟩

theorem Dev.line_claimPushed (hc : d.claimable t n = true)
    (hmax : ∀ m < 512, m ≠ 0 → d.claimable t m = true → d.prio m < d.prio n ∨ (d.prio m = d.prio n ∧ n ≤ m)) : (d.claimPushed t n).line t = false := by
  rw [Dev.line, Dev.best_eq_zero fun m hm h0 => ?_]
  · rfl
  · by_contra h
    obtain ⟨h1, h2⟩ := d.claimable_claimPushed ht hn hk hc hm (by simpa using h)
    have := hmax m hm h0 h1
    omega

end

/-- R300: a claim of source n by target t. -/
theorem Dev.claim_spec (d : Dev) {t n : Nat} (ht : t < 9) (hn : n < 512) (h0 : n ≠ 0) (hk : d.depth t < 16) (hc : d.claimable t n = true)
    (hmax : ∀ m < 512, m ≠ 0 → d.claimable t m = true → d.prio m < d.prio n ∨ (d.prio m = d.prio n ∧ n ≤ m)) :
    ∃ x, d.claim t = (n, x) ∧ x.claimedBit n = true ∧ (∀ m < 512, m ≠ n → x.claimedBit m = d.claimedBit m) ∧ x.swPend n = false ∧
      x.depth t = d.depth t + 1 ∧ x.get (R.STACK.SOURCE t (d.depth t)) = n ∧ x.runPrio t = d.prio n ∧
      x.on (R.TGT_STATUS.LINE_SEEN t) = false ∧ LinesFollow x := by
  have hX : LineSame (d.claimPushed t n) (d.claimPushed t n).refreshLines := lineSame_refreshLines _
  have hline := Dev.lineSeen_refreshLines _ ht (d.line_claimPushed ht hn hk hc hmax)
  have hsource := hX.get (f := R.STACK.SOURCE t (d.depth t)) (by simp only [R.STACK.SOURCE, A.STACK]; omega)
    (by simp only [R.STACK.SOURCE, A.STACK]; omega) fun k => by simp only [R.STACK.SOURCE, A.STACK, A.TGT_STATUS]; omega
  refine ⟨_, Dev.claim_of_best (d.best_eq_of hn h0 hc hmax) h0, ?_, fun m hm hne => ?_, ?_, ?_, ?_, ?_, ?_, linesFollow_refreshLines _⟩
  · rw [hX.claimedBit hn, d.claimedBit_claimPushed hn hk n hn, if_pos rfl]
  · rw [hX.claimedBit hm, d.claimedBit_claimPushed hn hk m hm, if_neg hne]
  · rw [hX.swPend hn, d.swPend_claimPushed ht hn hk n hn, if_pos rfl]
  · rw [hX.2 t, d.depth_claimPushed hn hk]
  · rw [hsource, d.source_claimPushed ht hn hk]
  · rw [hX.runPrio ht, d.runPrio_claimPushed ht hn hk]
  · rw [hline, d.lineSeen_claimPushed]

/-- R300: a claim that finds its source gone. -/
theorem Dev.claim_spurious_spec (d : Dev) {t : Nat} (h : d.best t = 0) (hs : d.on (R.TGT_STATUS.LINE_SEEN t) = true) :
    ∃ x, d.claim t = (511, x) ∧ x.on (R.TGT_STATUS.LINE_SEEN t) = false ∧
      x.get (R.SPUR_CNT.COUNT t) = min 65535 (d.get (R.SPUR_CNT.COUNT t) + 1) ∧ RegsOnly d x [A.TGT_STATUS t, A.SPUR_CNT t] := by
  have hne : A.TGT_STATUS t ≠ A.SPUR_CNT t := by simp only [A.TGT_STATUS, A.SPUR_CNT]; omega
  refine ⟨_, Dev.claim_spurious h hs, ?_, ?_, ((RegsOnly.refl _ _).set 0 rfl).inc 1 rfl⟩
  · rw [Dev.on_inc_apart _ (R.SPUR_CNT.COUNT t) (R.TGT_STATUS.LINE_SEEN t) _ (Fld.ok_of_ble rfl) (.inl hne.symm),
      Dev.on_set_same _ _ _ (Fld.ok_of_ble rfl)]
    rfl
  · rw [Dev.get_inc_same _ (R.SPUR_CNT.COUNT t) _ (Fld.ok_of_ble rfl), Dev.get_set_reg _ (R.TGT_STATUS.LINE_SEEN t) (R.SPUR_CNT.COUNT t) _ hne]
    rfl

/-! End of interrupt and flush (R301, R303). -/

/-- The top entry of target t's stack popped and its source released: the request lines still to follow. -/
def Dev.popped (d : Dev) (t : Nat) : Dev :=
  let k := d.depth t
  let n := d.get (R.STACK.SOURCE t (k - 1))
  ((d.setClaimed n false).setReg (A.STACK t (k - 1)) 0).set (R.TGT_STATUS.DEPTH t) (k - 1)

theorem Dev.eoi_of_pos {d : Dev} {t : Nat} (h : 0 < d.depth t) : d.eoi t = (d.popped t).refreshLines := by
  unfold Dev.eoi
  exact if_neg (Nat.ne_of_gt h)

theorem Dev.eoi_empty {d : Dev} {t : Nat} (h : d.depth t = 0) : d.eoi t = d.set (R.TGT_STATUS.EOI_EMPTY t) 1 := by
  unfold Dev.eoi
  exact if_pos h

theorem Dev.source_lt (d : Dev) (t i : Nat) : d.get (R.STACK.SOURCE t i) < 512 := d.get_lt _

section
variable (d : Dev) {t : Nat} (ht : t < 9) (hk : d.depth t ≤ 16)
include ht hk

omit ht in
theorem Dev.depth_popped : (d.popped t).depth t = d.depth t - 1 := by
  unfold Dev.popped
  dsimp only
  rw [Dev.depth, Dev.get_set_same _ (R.TGT_STATUS.DEPTH t) _ (Fld.ok_of_ble rfl)]
  exact Nat.mod_eq_of_lt (show d.depth t - 1 < 2 ^ 5 by omega)

omit hk in
theorem Dev.claimedBit_popped : (d.popped t).claimedBit (d.get (R.STACK.SOURCE t (d.depth t - 1))) = false := by
  have hn := d.source_lt t (d.depth t - 1)
  have h := d.claimedBit_setClaimed (d.get (R.STACK.SOURCE t (d.depth t - 1))) (d.get (R.STACK.SOURCE t (d.depth t - 1))) false
  rw [if_pos rfl] at h
  rw [← h, Dev.claimedBit_eq, Dev.claimedBit_eq]
  unfold Dev.popped
  dsimp only
  rw [Dev.reg_set_ne _ (R.TGT_STATUS.DEPTH t) _ (by simp only [R.TGT_STATUS.DEPTH, A.TGT_STATUS, A.CLAIMED]; omega),
    Dev.reg_setReg_ne _ _ (by simp only [A.STACK, A.CLAIMED]; omega)]

omit ht in
theorem Dev.stack_popped {i : Nat} (hi : i + 1 < d.depth t) : (d.popped t).reg (A.STACK t i) = d.reg (A.STACK t i) := by
  have hn := d.source_lt t (d.depth t - 1)
  unfold Dev.popped
  dsimp only
  rw [Dev.reg_set_ne _ (R.TGT_STATUS.DEPTH t) _ (by simp only [R.TGT_STATUS.DEPTH, A.TGT_STATUS, A.STACK]; omega),
    Dev.reg_setReg_ne _ _ (by simp only [A.STACK]; omega), Dev.setClaimed, Dev.reg_setReg_ne _ _ (by simp only [A.CLAIMED, A.STACK]; omega)]

omit ht in
/-- R303: every source on the stack is released. -/
theorem Dev.claimedBit_popAll {i : Nat} (hi : i < d.depth t) : (d.popAll t).claimedBit (d.get (R.STACK.SOURCE t i)) = false := by
  have key : ∀ k ≤ d.depth t, let e := (List.range k).foldl (fun d i => (d.setClaimed (d.get (R.STACK.SOURCE t i)) false).setReg (A.STACK t i) 0) d
      (∀ j, k ≤ j → j < d.depth t → e.reg (A.STACK t j) = d.reg (A.STACK t j)) ∧ ∀ j < k, e.claimedBit (d.get (R.STACK.SOURCE t j)) = false := by
    intro k
    induction k with
    | zero => exact fun _ => ⟨fun _ _ _ => rfl, fun j hj => absurd hj (Nat.not_lt_zero j)⟩
    | succ k ih =>
      intro hk'
      obtain ⟨h1, h2⟩ := ih (by omega)
      rw [List.range_succ, List.foldl_append, List.foldl_cons, List.foldl_nil]
      generalize (List.range k).foldl _ d = e at h1 h2
      have hsrc : e.get (R.STACK.SOURCE t k) = d.get (R.STACK.SOURCE t k) := Dev.get_congr (h1 k (Nat.le_refl k) (by omega))
      have hn := d.source_lt t k
      rw [hsrc]
      refine ⟨fun j hj hj' => ?_, fun j hj => ?_⟩
      · rw [Dev.reg_setReg_ne _ _ (by simp only [A.STACK]; omega), Dev.setClaimed, Dev.reg_setReg_ne _ _ (by simp only [A.CLAIMED, A.STACK]; omega)]
        exact h1 j (by omega) hj'
      · have hm := d.source_lt t j
        have hset := e.claimedBit_setClaimed (d.get (R.STACK.SOURCE t k)) (d.get (R.STACK.SOURCE t j)) false
        rw [Dev.claimedBit_eq, Dev.reg_setReg_ne _ _ (by simp only [A.STACK, A.CLAIMED]; omega), ← Dev.claimedBit_eq, hset]
        split
        · rfl
        · next hne => exact h2 j (by
            by_contra hc
            exact hne (by rw [show j = k by omega]))
  exact (key (d.depth t) (Nat.le_refl _)).2 i hi

end

/-- R301: an end of interrupt by target t. -/
theorem Dev.eoi_spec (d : Dev) {t : Nat} (ht : t < 9) (hpos : 0 < d.depth t) (hk : d.depth t ≤ 16) :
    (d.eoi t).depth t = d.depth t - 1 ∧ (d.eoi t).claimedBit (d.get (R.STACK.SOURCE t (d.depth t - 1))) = false ∧ LinesFollow (d.eoi t) ∧
      ∀ i, i + 1 < d.depth t → (d.eoi t).reg (A.STACK t i) = d.reg (A.STACK t i) := by
  have hX : LineSame (d.popped t) (d.popped t).refreshLines := lineSame_refreshLines _
  rw [Dev.eoi_of_pos hpos]
  refine ⟨?_, ?_, linesFollow_refreshLines _, fun i hi => ?_⟩
  · rw [hX.2 t, d.depth_popped hk]
  · rw [hX.claimedBit (d.source_lt t _), d.claimedBit_popped ht]
  · rw [Dev.reg_refreshLines _ fun k => by simp only [A.STACK, A.TGT_STATUS]; omega, d.stack_popped hk hi]

theorem Dev.claimedBit_flushTarget (d : Dev) {t : Nat} (hk : d.depth t ≤ 16) {i : Nat} (hi : i < d.depth t) :
    (d.flushTarget t).claimedBit (d.get (R.STACK.SOURCE t i)) = false := by
  have hn := d.source_lt t i
  rw [Dev.flushTarget_eq, (lineSame_refreshLines _).claimedBit hn, Dev.claimedBit_eq,
    Dev.reg_set_ne _ (R.TGT_STATUS.DEPTH t) _ (by simp only [R.TGT_STATUS.DEPTH, A.TGT_STATUS, A.CLAIMED]; omega), ← Dev.claimedBit_eq]
  exact d.claimedBit_popAll hk hi

theorem Dev.tgtCtrl_flush (d : Dev) (t v : Nat) : d.tgtCtrl t (putBit v 0 true) = d.flushTarget t := by
  rw [Dev.tgtCtrl, if_pos (bit_putBit_same v 0 true)]

end Sys2Proof.Machine

open Sys2Proof.Machine

/-- Settles O42: the request lines follow every change (`linesFollow_refreshLines`), and each command writes the bits of its sources alone. -/
theorem interrupts : Obligations.Interrupts := by
  intro src n w v t s d lines claimed sw back wakes up
  refine ⟨?level, ?levelOnly, ?conditions, ?octets, ?pend, ?clear, ?claim, ?eoi, ?flush⟩
  case level =>
    refine (makes_of_on (c := .sourceLevelChange n) (f := fun d => d.sourceChange n) rfl).gives ⟨?_, ?_, fun hw => ?_⟩
    · exact ((d.pwrStep_sourceChange n).lineSame.level n.isLt).trans ((d.level_setLevel n _ n.isLt).trans (if_pos rfl))
    · exact fun k => (d.pwrStep_sourceChange n).linesFollow (linesFollow_refreshLines _) k k.isLt
    · have h := d.regsHost_setLevel n (d.sourceLevel n)
      obtain ⟨r, x, h⟩ := h
      show (d.sourceChange n).pwr = d.pwr
      rw [Dev.sourceChange_of_not_wakes n.isLt hw, h]
  case levelOnly =>
    intro hw
    have h := makes_of_on (c := .sourceLevelChange n) (s := s) (f := fun d => d.sourceChange n) rfl
    rw [Dev.sourceChange_of_not_wakes n.isLt hw] at h
    refine h.gives ⟨(d.level_setLevel n _ n.isLt).trans (if_pos rfl), fun m hm => (d.level_setLevel n _ m.isLt).trans (if_neg fun e => hm (Fin.ext e)),
      fun k => linesFollow_refreshLines _ k k.isLt, ?_⟩
    obtain ⟨r, x, h⟩ := d.regsHost_setLevel n (d.sourceLevel n)
    show d.setLevel n (d.sourceLevel n) = { d with regs := (d.setLevel n (d.sourceLevel n)).regs, host := (d.setLevel n (d.sourceLevel n)).host }
    rw [h]
  case conditions =>
    rintro ⟨hr, ht, hp⟩
    refine ⟨Dev.sourceLevel_of_up (n := 500) rfl hr ht hp, Dev.sourceLevel_of_up (n := 0) rfl hr ht hp, ?_⟩
    rw [Dev.sourceLevel_of_up (n := 469) rfl hr ht hp]
    exact d.condition_host
  case octets =>
    intro o hr ht hp
    refine ⟨?_, ?_⟩
    · rw [Dev.sourceLevel_of_up (sourcePolder_oct (k := 4) o.isLt (by decide)) hr ht hp, Dev.condition_oct d o.isLt (by decide)]
      exact d.octSource_timing o
    · rw [Dev.sourceLevel_of_up (sourcePolder_oct (k := 10) o.isLt (by decide)) hr ht hp, Dev.condition_oct d o.isLt (by decide)]
      rfl
  case pend =>
    intro hb
    exact (makes_of_gate (c := .swpendWrite src w v) rfl hb).gives ⟨fun k => d.linesFollow_swPendWrite w _ k k.isLt,
      fun i hi => d.bit_swPendWrite w.isLt hi _⟩
  case clear =>
    intro hb
    exact (makes_of_gate (c := .swclrWrite src w v) rfl hb).gives ⟨fun k => linesFollow_refreshLines _ k k.isLt,
      fun i hi => d.bit_swClrWrite w.isLt hi _⟩
  case claim =>
    intro hb
    have hclaim : ∀ {m x}, d.claim 8 = (m, x) → Makes .hostClaim s (x.respond .host m) := fun h => makes_of_gateRead (f := fun d => d.hostClaim .host) rfl hb h
    refine ⟨fun h0 hk hc hmax => ?_, fun hnone => ?_⟩
    · have hn0 : n.val ≠ 0 := fun h => h0 (Fin.ext h)
      have hmax' : ∀ m < 512, m ≠ 0 → d.claimable 8 m = true → d.prio m < d.prio n ∨ (d.prio m = d.prio n ∧ n.val ≤ m) :=
        fun m hm hm0 hmc => hmax ⟨m, hm⟩ (fun h => hm0 (congrArg Fin.val h)) hmc
      obtain ⟨x, hx, hself, hothers, hsw, hdepth, hsource, hrun, hseen, hlines⟩ := d.claim_spec (by decide) n.isLt hn0 hk hc hmax'
      exact (hclaim hx).gives ⟨(Dev.reads_respond _ _ _).trans (Nat.mod_eq_of_lt (by omega)), hself,
        fun m hm => hothers m m.isLt fun e => hm (Fin.ext e), hsw, hdepth, hsource, hrun, hseen, fun k => hlines k k.isLt⟩
    · have hbest : d.best 8 = 0 := Dev.best_eq_zero fun m hm hm0 => hnone ⟨m, hm⟩ fun h => hm0 (congrArg Fin.val h)
      refine ⟨fun hs => ?_, fun hs => ?_⟩
      · obtain ⟨x, hx, hseen, hcount, hregs⟩ := d.claim_spurious_spec hbest hs
        refine (hclaim hx).gives ⟨Dev.reads_respond _ _ _, hseen, hcount, ?_, hregs.2⟩
        obtain ⟨r, rfl⟩ := hregs.frame
        rfl
      · exact (hclaim (Dev.claim_nothing hbest hs)).gives ⟨Dev.reads_respond _ _ _, rfl⟩
  case eoi =>
    intro hb
    have h := makes_of_gate (c := .hostEoi) (f := fun d => d.eoi 8) rfl hb
    refine ⟨fun h0 => ?_, fun hpos hk => ?_⟩
    · rw [Dev.eoi_empty h0] at h
      refine h.gives ⟨?_, (RegsOnly.refl _ _).set 0 rfl⟩
      exact Dev.on_set_same d (R.TGT_STATUS.EOI_EMPTY 8) 1 (Fld.ok_of_ble rfl)
    · obtain ⟨hdepth, hfree, hlines, hrest⟩ := d.eoi_spec (by decide) hpos hk
      exact h.gives ⟨hdepth, hfree, fun k => hlines k k.isLt, hrest⟩
  case flush =>
    intro hb hk
    have h := makes_of_gate (c := .targetFlush src t v) rfl hb
    rw [Dev.tgtCtrl_flush] at h
    exact h.gives ⟨d.depth_flushTarget t, fun k => linesFollow_refreshLines _ k k.isLt, fun i hi => d.claimedBit_flushTarget hk hi⟩

end

section
/-! Event counters (spec/11, R306, R309 to R311): the control register, a dump record in memory. -/

open Sys2Proof

namespace Sys2Proof.Machine

/-! Whole words written to the DRAM. -/

/-- Pieces of m bytes put together: piece k. -/
theorem take_drop_flatMap {f : Nat → List Byte} {m : Nat} (hf : ∀ i, (f i).length = m) {n k : Nat} (hk : k < n) :
    (((List.range n).flatMap f).drop (m * k)).take m = f k := by
  have hlen : ∀ j, ((List.range j).flatMap f).length = m * j := fun j => by
    induction j with
    | zero => rfl
    | succ j ih => rw [List.range_succ, List.flatMap_append, List.length_append, ih, List.flatMap_singleton, hf, Nat.mul_succ]
  obtain ⟨r, rfl⟩ := Nat.exists_eq_add_of_lt hk
  rw [Nat.add_right_comm, List.range_add, List.range_succ, List.flatMap_append, List.flatMap_append, List.append_assoc, List.flatMap_singleton,
    List.drop_left' (hlen k), List.take_left' (hf k)]

theorem Store.bytes_sub {s : Store} {a : Nat} {l : List Byte} (h : s.bytes a l.length = l) {i n : Nat} (hi : i + n ≤ l.length) :
    leNat (s.bytes (a + i) n) = blk l i n := by
  have hl : l.length = i + (n + (l.length - i - n)) := by omega
  rw [blk, ← h]
  rw [hl, Store.bytes_add, Store.bytes_add, List.drop_left' (Store.length_bytes ..), List.take_left' (Store.length_bytes ..)]

theorem Store.bytes_putWord (s : Store) (i : Nat) {l : List Byte} (hl : l.length = 8) : (s.putWord i (leNat l)).bytes (8 * i) 8 = l := by
  have h : (s.putWord i (leNat l)).bytes (8 * i) 8 = (s.putBytes (8 * i) (bytesLE (leNat l) 8)).bytes (8 * i) 8 := rfl
  have hb := bytesLE_leNat l
  have hp := Store.bytes_putBytes l s (8 * i)
  rw [hl] at hb hp
  rw [h, hb, hp]

/-- R279: whole words written to the DRAM. -/
theorem Dev.putBytesN_dram (d : Dev) {a : Nat} (l : List Byte) (n : Nat) (ha : a % 8 = 0) (hl : l.length % 8 = 0) (hn : l.length ≤ n) :
    ∃ st, d.putBytesN .dram 0 0 a n l = { d with dram := st } ∧ st.bytes a l.length = l ∧
      ∀ b, b < a ∨ a + l.length ≤ b → st.byte b = d.dram.byte b := by
  induction n generalizing d a l with
  | zero =>
    obtain rfl : l = [] := List.eq_nil_of_length_eq_zero (by omega)
    exact ⟨d.dram, rfl, rfl, fun _ _ => rfl⟩
  | succ n ih =>
    cases l with
    | nil => exact ⟨d.dram, rfl, rfl, fun _ _ => rfl⟩
    | cons b l =>
      have h8 : 8 ≤ (b :: l).length := by
        rw [List.length_cons] at hl ⊢
        omega
      have hk : min (8 - a % 8) (b :: l).length = 8 := by omega
      generalize b :: l = m at *
      obtain ⟨st, hst, hin, hout⟩ := ih { d with dram := d.dram.putWord (a / 8) (leNat (m.take 8)) } (a := a + 8) (m.drop 8) (by omega)
        (by rw [List.length_drop]; omega) (by rw [List.length_drop]; omega)
      rw [List.length_drop] at hin hout
      have htake : (m.take 8).length = 8 := by rw [List.length_take]; omega
      have hword : st.bytes a 8 = m.take 8 := by
        have h1 := d.dram.bytes_putWord (a / 8) htake
        rw [show 8 * (a / 8) = a by omega] at h1
        rw [← h1]
        exact Store.bytes_congr _ _ fun i hi => hout _ (.inl (by omega))
      refine ⟨st, ?_, ?_, fun c hc => ?_⟩
      · have hput : ∀ (x : List Byte), x = m → d.putBytesN .dram 0 0 a (n + 1) x = if x = [] then d else
            (d.putPart .dram 0 0 (a / 8) (a % 8) (min (8 - a % 8) x.length) (leNat (x.take (min (8 - a % 8) x.length)))).putBytesN .dram 0 0
              (a + min (8 - a % 8) x.length) n (x.drop (min (8 - a % 8) x.length)) := fun x _ => by
          cases x <;> rfl
        have hne : m ≠ [] := fun h => by rw [h] at h8; exact absurd h8 (by decide)
        rw [hput m rfl, if_neg hne, hk]
        exact hst
      · have hm : m.length = 8 + (m.length - 8) := by omega
        have hcat := List.take_append_drop 8 m
        rw [hm, Store.bytes_add, hword, hin, hcat]
      · rw [hout c (by omega), Store.byte_putWord, if_neg (by omega)]

theorem Dev.putBytes_dram (d : Dev) {a : Nat} (l : List Byte) (ha : a % 8 = 0) (hl : l.length % 8 = 0) :
    ∃ st, d.putBytes .dram 0 0 a l = { d with dram := st } ∧ st.bytes a l.length = l ∧ ∀ b, b < a ∨ a + l.length ≤ b → st.byte b = d.dram.byte b :=
  d.putBytesN_dram l l.length ha hl (Nat.le_refl _)

/-! A dump record. -/

theorem DumpRec.bytes_eq (r : DumpRec) : r.bytes = bytesLE r.no 8 ++ (bytesLE (r.ps + r.sec % 2 ^ 24 * 2 ^ 40) 8 ++ (bytesLE r.flags 4 ++ (bytesLE r.skipped 4
    ++ (bytesLE r.interval 4 ++ (bytesLE r.perm 4 ++ (List.replicate 4064 0 ++
      (List.range 8192).flatMap fun n => bytesLE (Tbl.get (0 : DWord) r.ctr n).toNat 8)))))) := by
  simp only [DumpRec.bytes, List.append_assoc]

theorem length_counters (c : Tbl DWord) (n : Nat) : ((List.range n).flatMap fun n => bytesLE (Tbl.get (0 : DWord) c n).toNat 8).length = 8 * n := by
  induction n with
  | zero => rfl
  | succ n ih => rw [List.range_succ, List.flatMap_append, List.length_append, ih, List.flatMap_singleton, length_bytesLE, Nat.mul_succ]

theorem DumpRec.length_bytes (r : DumpRec) : r.bytes.length = 69632 := by
  simp only [DumpRec.bytes_eq, List.length_append, length_bytesLE, List.length_replicate, length_counters]

theorem DumpRec.blk_no (r : DumpRec) : blk r.bytes 0 8 = r.no % 2 ^ 64 := by
  rw [DumpRec.bytes_eq, blk_append_left (by rw [length_bytesLE]), blk_bytesLE]
  rfl

theorem blk_append_add {l m : List Byte} {i j n : Nat} (h : l.length = i) : blk (l ++ m) (i + j) n = blk m j n := by
  rw [blk, blk, ← h, ← List.drop_drop, List.drop_left]

theorem DumpRec.blk_counter (r : DumpRec) {k : Nat} (hk : k < 8192) : blk r.bytes (4096 + 8 * k) 8 = (Tbl.get (0 : DWord) r.ctr k).toNat := by
  have h : 4096 + 8 * k = 8 + (8 + (4 + (4 + (4 + (4 + (4064 + 8 * k)))))) := by omega
  rw [DumpRec.bytes_eq, h, blk_append_add (length_bytesLE ..), blk_append_add (length_bytesLE ..), blk_append_add (length_bytesLE ..),
    blk_append_add (length_bytesLE ..), blk_append_add (length_bytesLE ..), blk_append_add (length_bytesLE ..), blk_append_add (List.length_replicate ..),
    blk, take_drop_flatMap (fun i => length_bytesLE _ _) hk, leNat_bytesLE]
  exact Nat.mod_eq_of_lt (BitVec.isLt _)

/-! Clears and latches (R306, R309, R311). -/

theorem Tbl.get_filter_out {α : Type} (v : α) {q : Nat → Bool} (t : Tbl α) {k : Nat} (hk : q k = false) :
    Tbl.get v (t.filter fun e => q e.1) k = v := by
  induction t with
  | nil => rfl
  | cons e t ih =>
    obtain ⟨a, x⟩ := e
    by_cases ha : q a = true
    · rw [List.filter_cons_of_pos (p := fun e : Nat × α => q e.1) ha]
      have hne : a ≠ k := fun h => by rw [h, hk] at ha; exact Bool.noConfusion ha
      have hcons : Tbl.get v ((a, x) :: t.filter fun e => q e.1) k = Tbl.get v (t.filter fun e => q e.1) k := if_neg hne
      rw [hcons, ih]
    · rw [List.filter_cons_of_neg (p := fun e : Nat × α => q e.1) ha, ih]

theorem bit_zero (i : Nat) : bit 0 i = false := by rw [bit_eq_testBit, Nat.zero_testBit]

theorem Dev.count_ctrClear (d : Dev) (m k : Nat) : (d.ctrClear m).count k = if bit m (k / 256) = true then 0 else d.count k := by
  unfold Dev.ctrClear
  split
  · next h => rw [h, bit_zero, if_neg Bool.false_ne_true]
  · cases hb : bit m (k / 256) with
    | true => exact Tbl.get_filter_out (q := fun a => !bit m (a / 256)) 0 d.ctr (by rw [hb]; rfl)
    | false => exact Tbl.get_filter (q := fun a => !bit m (a / 256)) 0 d.ctr (by rw [hb]; rfl)

theorem Dev.regs_ctrClear (d : Dev) (m : Nat) : (d.ctrClear m).regs = d.regs := by
  unfold Dev.ctrClear
  split <;> rfl

/-- The record a latch takes. -/
def Dev.dumpTaken (d : Dev) (now : Bool) : DumpRec :=
  { no := d.cnt.next, sec := d.time.sec, ps := d.time.ps,
    flags := b2n (decide (0 < d.cnt.skipped)) + 2 * b2n now + 4 * b2n d.cnt.cleared,
    skipped := d.cnt.skipped, interval := d.get R.CTR_CTRL.INTERVAL, perm := d.reg A.CTR_PERM, ctr := d.ctr }

theorem Dev.dumpLatch_free {d : Dev} (h : d.cnt.dump = none) (now : Bool) : d.dumpLatch now = (d.set R.DUMP_STATUS.BUSY 1).onCnt fun c =>
    { c with dump := some (d.dumpTaken now), next := c.next + 1, skipped := 0, cleared := false } := by
  unfold Dev.dumpLatch
  rw [if_neg (by rw [h]; exact Bool.false_ne_true)]
  rfl

theorem Dev.dumpLatch_busy {d : Dev} (h : d.cnt.dump ≠ none) (now : Bool) : d.dumpLatch now =
    (d.inc R.DUMP_STATUS.SKIPPED).onCnt fun c => { c with skipped := c.skipped + 1 } :=
  if_pos (Option.isSome_iff_ne_none.2 h)

theorem dumpFlags (a b c : Bool) : bit (b2n a + 2 * b2n b + 4 * b2n c) 1 = b ∧ bit (b2n a + 2 * b2n b + 4 * b2n c) 0 = a ∧
    bit (b2n a + 2 * b2n b + 4 * b2n c) 2 = c := by
  revert a b c
  decide

theorem Dev.cnt_onCnt (d : Dev) (f : CtrSt → CtrSt) : (d.onCnt f).cnt = f d.cnt := rfl

theorem Dev.dumpLatch_keeps (d : Dev) (now : Bool) : (d.dumpLatch now).cnt.snap = d.cnt.snap ∧ (d.dumpLatch now).ctr = d.ctr ∧
    ∀ a, A.DUMP_STATUS ≠ a → (d.dumpLatch now).reg a = d.reg a := by
  by_cases h : d.cnt.dump = none
  · rw [Dev.dumpLatch_free h, Dev.cnt_onCnt, Dev.cnt_set, Dev.ctr_onCnt, Dev.ctr_set]
    refine ⟨rfl, rfl, fun a ha => ?_⟩
    rw [Dev.reg_onCnt]
    exact Dev.reg_set_ne d R.DUMP_STATUS.BUSY 1 ha
  · rw [Dev.dumpLatch_busy h, Dev.cnt_onCnt, Dev.cnt_inc, Dev.ctr_onCnt, Dev.ctr_inc]
    refine ⟨rfl, rfl, fun a ha => ?_⟩
    rw [Dev.reg_onCnt]
    exact Dev.reg_set_ne d R.DUMP_STATUS.SKIPPED _ ha

/-! The control register (R311). -/

theorem tidy_CTR_CTRL : Row.CTR_CTRL.tidy := by decide

/-- CTR_CTRL written, SIZE only while DUMP_EN = 0; sn is the snapshot then. -/
def Dev.ctrWritten (d : Dev) (v : Nat) (sn : Tbl DWord) : Dev :=
  (d.sw Row.CTR_CTRL A.CTR_CTRL (if d.on R.CTR_CTRL.DUMP_EN then putBits v 17 14 (d.get R.CTR_CTRL.SIZE) else v)).onCnt fun c => { c with snap := sn }

/-- The ring emptied as dumps start. -/
def Dev.dumpsStarted (d : Dev) : Dev :=
  ((d.setReg A.DUMP_WR 0).setReg A.DUMP_RD 0).onCnt fun c => { c with next := 0, skipped := 0, cleared := false, full := false }

section
variable (d : Dev) (v : Nat) (sn : Tbl DWord)

theorem getBits_kept {v x hi lo : Nat} (c : Prop) [Decidable c] (h : hi < 14 ∨ 17 < lo) :
    getBits (if c then putBits v 17 14 x else v) hi lo = getBits v hi lo := by
  split
  · exact getBits_putBits_ne _ _ _ _ _ _ (by decide) h
  · rfl

theorem bit_kept {v x i : Nat} (c : Prop) [Decidable c] (h : 17 < i) : bit (if c then putBits v 17 14 x else v) i = bit v i := by
  have hb : ∀ y, bit y i = (getBits y i i == 1) := fun y => by rw [bit, getBits, Nat.add_sub_cancel_left, Nat.pow_one]
  rw [hb, hb, getBits_kept c (.inr h)]

theorem Dev.on_ctrWritten : (d.ctrWritten v sn).on R.CTR_CTRL.DUMP_EN = bit v 31 := by
  have h : ∀ w, (d.sw Row.CTR_CTRL A.CTR_CTRL w).get R.CTR_CTRL.DUMP_EN = getBits w 31 31 := Dev.get_sw_any d tidy_CTR_CTRL (f := R.CTR_CTRL.DUMP_EN) 0 rfl
  have hb := getBits_kept (v := v) (x := d.get R.CTR_CTRL.SIZE) (hi := 31) (lo := 31) (d.on R.CTR_CTRL.DUMP_EN = true) (.inr (by decide))
  rw [Dev.on, Dev.ctrWritten, Dev.get_onCnt, h, hb, bit, getBits]
  have : v / 2 ^ 31 % 2 ^ (31 + 1 - 31) < 2 := Nat.mod_lt _ (by decide)
  rcases (by omega : v / 2 ^ 31 % 2 ^ (31 + 1 - 31) = 0 ∨ v / 2 ^ 31 % 2 ^ (31 + 1 - 31) = 1) with h | h
  · rw [h, show v / 2 ^ 31 % 2 = 0 from h]; rfl
  · rw [h, show v / 2 ^ 31 % 2 = 1 from h]; rfl

theorem Dev.size_ctrWritten : (d.ctrWritten v sn).get R.CTR_CTRL.SIZE =
    max 1 (min 12 (if d.on R.CTR_CTRL.DUMP_EN then d.get R.CTR_CTRL.SIZE else getBits v 17 14)) := by
  have h : ∀ w, (d.sw Row.CTR_CTRL A.CTR_CTRL w).get R.CTR_CTRL.SIZE = max 1 (min 12 (getBits w 17 14)) := Dev.get_sw_range d tidy_CTR_CTRL (f := R.CTR_CTRL.SIZE) 4 rfl (by decide) (by decide)
  rw [Dev.ctrWritten, Dev.get_onCnt, h]
  split
  · have hs : d.get R.CTR_CTRL.SIZE % 2 ^ (17 + 1 - 14) = d.get R.CTR_CTRL.SIZE := Nat.mod_eq_of_lt (d.get_lt R.CTR_CTRL.SIZE)
    have hb := getBits_putBits_same v 17 14 (d.get R.CTR_CTRL.SIZE) (by decide)
    rw [hs] at hb
    exact congrArg (fun x => max 1 (min 12 x)) hb
  · rfl

theorem Dev.interval_ctrWritten : (d.ctrWritten v sn).get R.CTR_CTRL.INTERVAL = max 1 (min 10000 (getBits v 13 0)) := by
  have h : ∀ w, (d.sw Row.CTR_CTRL A.CTR_CTRL w).get R.CTR_CTRL.INTERVAL = max 1 (min 10000 (getBits w 13 0)) := Dev.get_sw_range d tidy_CTR_CTRL (f := R.CTR_CTRL.INTERVAL) 5 rfl (by decide) (by decide)
  rw [Dev.ctrWritten, Dev.get_onCnt, h]
  exact congrArg (fun x => max 1 (min 10000 x)) (getBits_kept _ (.inl (by decide)))

theorem Dev.reg_ctrWritten {a : Nat} (h : A.CTR_CTRL ≠ a) : (d.ctrWritten v sn).reg a = d.reg a := by
  rw [Dev.ctrWritten, Dev.reg_onCnt, Dev.reg_sw_ne d _ _ _ h]

theorem Dev.onCnt_snap (d : Dev) : (d.onCnt fun c => { c with snap := d.cnt.snap }) = d := rfl

/-- R311: what a write to CTR_CTRL does. -/
theorem Dev.ctrCtrl_eq : ∃ sn, (bit v 29 = true → sn = d.ctr) ∧ d.ctrCtrl v =
    (let x := if d.on R.CTR_CTRL.DUMP_EN = false ∧ bit v 31 = true then (d.ctrWritten v sn).dumpsStarted else d.ctrWritten v sn
     if bit v 30 = true ∧ bit v 31 = true then x.dumpLatch true else x) := by
  have hrest : ∀ (y : Dev) (w : Nat), y.on R.CTR_CTRL.DUMP_EN = bit v 31 → bit w 30 = bit v 30 →
      (let x := if (!d.on R.CTR_CTRL.DUMP_EN) = true ∧ y.on R.CTR_CTRL.DUMP_EN = true then y.dumpsStarted else y
       if bit w 30 = true ∧ x.on R.CTR_CTRL.DUMP_EN = true then x.dumpLatch true else x) =
      (let x := if d.on R.CTR_CTRL.DUMP_EN = false ∧ bit v 31 = true then y.dumpsStarted else y
       if bit v 30 = true ∧ bit v 31 = true then x.dumpLatch true else x) := by
    intro y w hy hw
    have hst : y.dumpsStarted.on R.CTR_CTRL.DUMP_EN = y.on R.CTR_CTRL.DUMP_EN := Dev.on_congr <| by
      rw [Dev.dumpsStarted, Dev.reg_onCnt, Dev.reg_setReg_ne _ _ (by decide), Dev.reg_setReg_ne _ _ (by decide)]
    dsimp only
    simp only [hw, hy, Bool.not_eq_true']
    by_cases hon : d.on R.CTR_CTRL.DUMP_EN = false ∧ bit v 31 = true
    · rw [if_pos hon, hst, hy]
    · rw [if_neg hon, hy]
  have h30 := bit_kept (v := v) (x := d.get R.CTR_CTRL.SIZE) (i := 30) (d.on R.CTR_CTRL.DUMP_EN = true) (by decide)
  have h29 := bit_kept (v := v) (x := d.get R.CTR_CTRL.SIZE) (i := 29) (d.on R.CTR_CTRL.DUMP_EN = true) (by decide)
  unfold Dev.ctrCtrl
  extract_lets on w x y z
  have hon : on = d.on R.CTR_CTRL.DUMP_EN := rfl
  have hz : z = if (!on) = true ∧ y.on R.CTR_CTRL.DUMP_EN = true then y.dumpsStarted else y := rfl
  have hctr : x.ctr = d.ctr := Dev.ctr_setReg ..
  have hw : ∀ sn, (x.onCnt fun c => { c with snap := sn }) = d.ctrWritten v sn := fun sn => rfl
  have hself := x.onCnt_snap
  have hy : y = if bit w 29 = true then x.onCnt fun c => { c with snap := x.ctr } else x := rfl
  clear_value z y x
  rw [hz]
  by_cases hs : bit w 29 = true
  · rw [if_pos hs, hctr, hw] at hy
    exact ⟨d.ctr, fun _ => rfl, by rw [hy, hon]; exact hrest _ w (d.on_ctrWritten v d.ctr) h30⟩
  · rw [if_neg hs, ← hself, hw] at hy
    exact ⟨x.cnt.snap, fun h => absurd (h29.trans h) hs, by rw [hy, hon]; exact hrest _ w (d.on_ctrWritten v x.cnt.snap) h30⟩

end

end Sys2Proof.Machine
end

section
/-! The commands of the event counters (spec/11, R306, R309 to R311). -/

open Sys2Proof

namespace Sys2Proof.Machine

/-! A record completed (R311). -/

theorem any_congr_mem {α : Type} {l : List α} {f g : α → Bool} (h : ∀ x ∈ l, f x = g x) : l.any f = l.any g := by
  induction l with
  | nil => rfl
  | cons x l ih => rw [List.any_cons, List.any_cons, h x (.head _), ih fun y hy => h y (.tail _ hy)]

theorem Dev.admits_congr {d d' : Dev} (h : ∀ a, 0x80000 ≤ a → a < 0x80200 → d'.reg a = d.reg a) (u a len : Nat) : d'.admits u a len = d.admits u a len := by
  have hreg : ∀ f : Fld, 0x80000 ≤ f.addr → f.addr < 0x80200 → d'.get f = d.get f := fun f h1 h2 => Dev.get_congr (h _ h1 h2)
  refine any_congr_mem fun k hk => ?_
  have hk := List.mem_range.1 hk
  have h1 : d'.get (R.REGION_USE.USE k) = d.get (R.REGION_USE.USE k) := hreg _ (by simp only [R.REGION_USE.USE, A.REGION_USE]; omega) (by simp only [R.REGION_USE.USE, A.REGION_USE]; omega)
  have h2 : d'.get (R.REGION_BASE.MIB k) = d.get (R.REGION_BASE.MIB k) := hreg _ (by simp only [R.REGION_BASE.MIB, A.REGION_BASE]; omega) (by simp only [R.REGION_BASE.MIB, A.REGION_BASE]; omega)
  have h3 : d'.get (R.REGION_LIMIT.MIB k) = d.get (R.REGION_LIMIT.MIB k) := hreg _ (by simp only [R.REGION_LIMIT.MIB, A.REGION_LIMIT]; omega) (by simp only [R.REGION_LIMIT.MIB, A.REGION_LIMIT]; omega)
  have h4 : d'.usable = d.usable := by
    unfold Dev.usable
    rw [hreg R.MEM_STATUS.USABLE (by decide) (by decide)]
  rw [h1, h2, h3, h4]

/-- The record taken off the pages: no latch waits. -/
def Dev.dumpClosed (d : Dev) : Dev := (d.set R.DUMP_STATUS.BUSY 0).onCnt fun c => { c with dump := none }

/-- The oldest record given up for the next. -/
def Dev.dumpOverrun (d : Dev) (n : Nat) : Dev := (d.set R.DUMP_STATUS.OVERRUN 1).set R.DUMP_RD.REC ((d.get R.DUMP_RD.REC + 1) % n)

/-- Record r written at address a as number wr of n. -/
def Dev.dumpWritten (d : Dev) (r : DumpRec) (a wr n : Nat) : Dev :=
  let d := d.putBytes .dram 0 0 a r.bytes
  let wr := (wr + 1) % n
  let d := (d.set R.DUMP_WR.REC wr).setReg A.DUMP_LATCH (r.no % 2 ^ 32)
  (d.orF R.DEV_EVT.EVT 4).onCnt fun c => { c with full := wr == d.get R.DUMP_RD.REC }

/-- The address of record wr. -/
def Dev.dumpAddr (d : Dev) : Nat := d.get R.DUMP_BASE_HI.ADDR * 2 ^ 32 + d.get R.DUMP_BASE_LO.ADDR * 4096 + 69632 * d.get R.DUMP_WR.REC

section
variable (d : Dev)

theorem Dev.reg_dumpClosed {a : Nat} (h : A.DUMP_STATUS ≠ a) : d.dumpClosed.reg a = d.reg a := by
  rw [Dev.dumpClosed, Dev.reg_onCnt]
  exact Dev.reg_set_ne d R.DUMP_STATUS.BUSY 0 h

theorem Dev.admits_dumpClosed (u a len : Nat) : d.dumpClosed.admits u a len = d.admits u a len :=
  Dev.admits_congr (fun b _ h => d.reg_dumpClosed (by simp only [A.DUMP_STATUS]; omega)) _ _ _

theorem Dev.busy_dumpClosed : d.dumpClosed.on R.DUMP_STATUS.BUSY = false := by
  rw [Dev.dumpClosed, Dev.on, Dev.get_onCnt, ← Dev.on, Dev.on_set_same _ _ _ (Fld.ok_of_ble rfl)]
  rfl

variable {d} {r : DumpRec} (hr : d.cnt.dump = some r) (ha : d.dramActive = true)

theorem Dev.dumpDone_none (h : d.cnt.dump = none) : d.dumpDone = d := by
  unfold Dev.dumpDone
  rw [h]

include hr

theorem Dev.dumpDone_idle (h : d.dramActive = false) : d.dumpDone = d.demand := by
  unfold Dev.dumpDone
  rw [hr]
  exact if_pos (by rw [h]; rfl)

include ha

theorem Dev.dumpDone_refused (h : d.admits 2 d.dumpAddr 69632 = false) : d.dumpDone = d.dumpClosed.regionViol.orF R.DEV_EVT.EVT 8 := by
  unfold Dev.dumpDone
  rw [hr]
  dsimp only
  rw [if_neg (by rw [ha]; decide)]
  exact if_pos (by
    have h' := d.admits_dumpClosed 2 d.dumpAddr 69632
    rw [h] at h'
    rw [Bool.not_eq_true']
    exact h')

theorem Dev.dumpDone_admitted (h : d.admits 2 d.dumpAddr 69632 = true) : d.dumpDone =
    (if (d.dumpClosed.cnt.full && d.get R.DUMP_WR.REC == d.dumpClosed.get R.DUMP_RD.REC) = true then d.dumpClosed.dumpOverrun (2 ^ d.get R.CTR_CTRL.SIZE)
      else d.dumpClosed).dumpWritten r d.dumpAddr (d.get R.DUMP_WR.REC) (2 ^ d.get R.CTR_CTRL.SIZE) := by
  unfold Dev.dumpDone
  rw [hr]
  dsimp only
  rw [if_neg (by rw [ha]; decide)]
  exact if_neg (by
    have h' := d.admits_dumpClosed 2 d.dumpAddr 69632
    rw [h] at h'
    rw [Bool.not_eq_true', Bool.not_eq_false]
    exact h')

end

/-- R311: what a record written leaves. -/
theorem Dev.dumpWritten_spec (d : Dev) (r : DumpRec) {a : Nat} (wr n : Nat) (ha : a % 8 = 0) :
    (d.dumpWritten r a wr n).reg A.DUMP_LATCH = r.no % 2 ^ 32 ∧ (d.dumpWritten r a wr n).get R.DUMP_WR.REC = (wr + 1) % n % 4096 ∧
      bit ((d.dumpWritten r a wr n).get R.DEV_EVT.EVT) 2 = true ∧ (d.dumpWritten r a wr n).cnt.dump = d.cnt.dump ∧
      (∀ b, b = A.DUMP_STATUS ∨ b = A.DUMP_RD → (d.dumpWritten r a wr n).reg b = d.reg b) ∧
      (d.dumpWritten r a wr n).dram.bytes a 69632 = r.bytes ∧
      ∀ b, b < a ∨ a + 69632 ≤ b → (d.dumpWritten r a wr n).dram.byte b = d.dram.byte b := by
  obtain ⟨st, hst, hin, hout⟩ := d.putBytes_dram r.bytes ha (by rw [DumpRec.length_bytes])
  rw [DumpRec.length_bytes] at hin hout
  unfold Dev.dumpWritten
  dsimp only
  rw [hst]
  generalize hd : ({ d with dram := st } : Dev) = x
  have hreg : ∀ b, x.reg b = d.reg b := fun b => by rw [← hd]; rfl
  have hcnt : x.cnt = d.cnt := by rw [← hd]
  have hdram : x.dram = st := by rw [← hd]
  refine ⟨?_, ?_, ?_, ?_, fun b hb => ?_, ?_, ?_⟩
  · rw [Dev.reg_onCnt, Dev.orF, Dev.reg_set_ne _ R.DEV_EVT.EVT _ (by decide), Dev.reg_setReg_same, Nat.mod_mod]
  · rw [Dev.get_onCnt, Dev.orF, Dev.get_set_reg _ R.DEV_EVT.EVT R.DUMP_WR.REC _ (by decide), Dev.get_setReg_ne _ _ R.DUMP_WR.REC (by decide),
      Dev.get_set_same _ _ _ (Fld.ok_of_ble rfl)]
    rfl
  · rw [Dev.get_onCnt, Dev.bit_orF _ (Fld.ok_of_ble rfl) _ (by decide), show bit 4 2 = true from rfl, Bool.or_true]
  · rw [Dev.cnt_onCnt, Dev.cnt_orF, Dev.cnt_setReg, Dev.cnt_set, hcnt]
  · have h1 : A.DEV_EVT ≠ b := by rcases hb with rfl | rfl <;> decide
    have h2 : A.DUMP_LATCH ≠ b := by rcases hb with rfl | rfl <;> decide
    have h3 : A.DUMP_WR ≠ b := by rcases hb with rfl | rfl <;> decide
    rw [Dev.reg_onCnt, Dev.orF, Dev.reg_set_ne _ R.DEV_EVT.EVT _ h1, Dev.reg_setReg_ne _ _ h2, Dev.reg_set_ne _ R.DUMP_WR.REC _ h3, hreg]
  · rw [Dev.dram_onCnt, Dev.dram_orF, Dev.dram_setReg, Dev.dram_set, hdram, hin]
  · rw [Dev.dram_onCnt, Dev.dram_orF, Dev.dram_setReg, Dev.dram_set, hdram]
    exact hout

theorem Dev.dumpAddr_aligned (d : Dev) : d.dumpAddr % 8 = 0 := by
  unfold Dev.dumpAddr
  omega

/-- R311: the words of a record in the DRAM. -/
theorem DumpRec.in_dram {r : DumpRec} {st : Store} {a : Nat} (h : st.bytes a 69632 = r.bytes) :
    leNat (st.bytes a 8) = r.no % 2 ^ 64 ∧ ∀ k, k < 8192 → leNat (st.bytes (a + 4096 + 8 * k) 8) = (Tbl.get (0 : DWord) r.ctr k).toNat := by
  have hl : st.bytes a r.bytes.length = r.bytes := by rw [r.length_bytes, h]
  refine ⟨?_, fun k hk => ?_⟩
  · have h0 := Store.bytes_sub (n := 8) (i := 0) hl (by rw [r.length_bytes]; decide)
    rw [r.blk_no] at h0
    exact h0
  · have h0 := Store.bytes_sub (n := 8) (i := 4096 + 8 * k) hl (by rw [r.length_bytes]; omega)
    rw [r.blk_counter hk, ← Nat.add_assoc] at h0
    exact h0

/-! Latches (R311). -/

/-- R311: from the part d a latch has been taken. -/
def DumpDue (d x : Dev) (now : Bool) : Prop := ∃ q, x.cnt.dump = some q ∧ q.no = d.cnt.next ∧ (∀ k, Tbl.get 0 q.ctr k = d.count k) ∧
  q.skipped = d.cnt.skipped ∧ bit q.flags 1 = now ∧ bit q.flags 0 = decide (0 < d.cnt.skipped) ∧ bit q.flags 2 = d.cnt.cleared ∧
  x.cnt.next = d.cnt.next + 1 ∧ x.cnt.skipped = 0 ∧ x.on R.DUMP_STATUS.BUSY = true

theorem Dev.dumpLatch_due {d : Dev} (h : d.cnt.dump = none) (now : Bool) : DumpDue d (d.dumpLatch now) now := by
  obtain ⟨h1, h0, h2⟩ := dumpFlags (decide (0 < d.cnt.skipped)) now d.cnt.cleared
  unfold DumpDue
  rw [Dev.dumpLatch_free h, Dev.cnt_onCnt, Dev.cnt_set]
  refine ⟨d.dumpTaken now, rfl, rfl, fun k => rfl, rfl, h1, h0, h2, rfl, rfl, ?_⟩
  rw [Dev.on, Dev.get_onCnt, ← Dev.on, Dev.on_set_same _ _ _ (Fld.ok_of_ble rfl)]
  rfl

theorem Dev.dumpLatch_skips {d : Dev} (h : d.cnt.dump ≠ none) (now : Bool) :
    (d.dumpLatch now).cnt = { d.cnt with skipped := d.cnt.skipped + 1 } ∧
      (d.dumpLatch now).get R.DUMP_STATUS.SKIPPED = min 65535 (d.get R.DUMP_STATUS.SKIPPED + 1) := by
  rw [Dev.dumpLatch_busy h, Dev.cnt_onCnt, Dev.cnt_inc, Dev.get_onCnt, Dev.get_inc_same _ _ _ (Fld.ok_of_ble rfl)]
  exact ⟨rfl, rfl⟩

theorem Dev.regsOnly_dumpLatch (d : Dev) (now : Bool) : RegsOnly { d with cnt := (d.dumpLatch now).cnt } (d.dumpLatch now) [A.DUMP_STATUS] := by
  refine ⟨?_, fun a ha => (d.dumpLatch_keeps now).2.2 a fun h => ha (h ▸ .head _)⟩
  by_cases h : d.cnt.dump = none
  · rw [Dev.dumpLatch_free h]
    rfl
  · rw [Dev.dumpLatch_busy h]
    rfl

/-! The control register (R311). -/

section
variable (d : Dev) (v : Nat)

/-- R311: after a write to CTR_CTRL: no record taken or lost unless DUMP_NOW acts. -/
theorem Dev.ctrCtrl_quiet (h : ¬ (bit v 30 = true ∧ bit v 31 = true)) (h' : ¬ (d.on R.CTR_CTRL.DUMP_EN = false ∧ bit v 31 = true)) :
    ∃ sn, d.ctrCtrl v = d.ctrWritten v sn := by
  obtain ⟨sn, -, hx⟩ := d.ctrCtrl_eq v
  rw [if_neg h'] at hx
  exact ⟨sn, hx.trans (if_neg h)⟩

theorem Dev.ctrCtrl_starts (h : ¬ (bit v 30 = true ∧ bit v 31 = true)) (h' : d.on R.CTR_CTRL.DUMP_EN = false ∧ bit v 31 = true) :
    ∃ sn, d.ctrCtrl v = (d.ctrWritten v sn).dumpsStarted := by
  obtain ⟨sn, -, hx⟩ := d.ctrCtrl_eq v
  rw [if_pos h'] at hx
  exact ⟨sn, hx.trans (if_neg h)⟩

theorem Dev.ctrCtrl_latches (h : bit v 30 = true ∧ bit v 31 = true) : ∃ sn, d.ctrCtrl v =
    (if d.on R.CTR_CTRL.DUMP_EN = false then (d.ctrWritten v sn).dumpsStarted else d.ctrWritten v sn).dumpLatch true := by
  obtain ⟨sn, -, hx⟩ := d.ctrCtrl_eq v
  refine ⟨sn, (hx.trans (if_pos h)).trans ?_⟩
  by_cases hon : d.on R.CTR_CTRL.DUMP_EN = false
  · rw [if_pos ⟨hon, h.2⟩, if_pos hon]
  · rw [if_neg fun h => hon h.1, if_neg hon]

/-- R309: a snapshot. -/
theorem Dev.snap_ctrCtrl (h : bit v 29 = true) : (d.ctrCtrl v).cnt.snap = d.ctr ∧ (d.ctrCtrl v).ctr = d.ctr := by
  obtain ⟨sn, hsn, hx⟩ := d.ctrCtrl_eq v
  have hw : ∀ y, y = d.ctrWritten v sn ∨ y = (d.ctrWritten v sn).dumpsStarted → y.cnt.snap = d.ctr ∧ y.ctr = d.ctr := by
    have hw : (d.ctrWritten v sn).cnt.snap = d.ctr ∧ (d.ctrWritten v sn).ctr = d.ctr := by
      rw [Dev.ctrWritten, Dev.cnt_onCnt, Dev.ctr_onCnt, Dev.sw, Dev.ctr_setReg]
      exact ⟨hsn h, rfl⟩
    rintro y (rfl | rfl)
    · exact hw
    · rw [Dev.dumpsStarted, Dev.cnt_onCnt, Dev.ctr_onCnt, Dev.cnt_setReg, Dev.cnt_setReg, Dev.ctr_setReg, Dev.ctr_setReg]
      exact hw
  rw [hx]
  dsimp only
  generalize hy : (if d.on R.CTR_CTRL.DUMP_EN = false ∧ bit v 31 = true then (d.ctrWritten v sn).dumpsStarted else d.ctrWritten v sn) = y
  obtain ⟨h1, h2⟩ := hw y (by rw [← hy]; split; exacts [.inr rfl, .inl rfl])
  obtain ⟨h3, h4, -⟩ := y.dumpLatch_keeps true
  split
  · exact ⟨h3.trans h1, h4.trans h2⟩
  · exact ⟨h1, h2⟩

variable (sn : Tbl DWord)

theorem Dev.cnt_ctrWritten : (d.ctrWritten v sn).cnt = { d.cnt with snap := sn } := by
  rw [Dev.ctrWritten, Dev.cnt_onCnt, Dev.sw, Dev.cnt_setReg]

theorem Dev.count_ctrWritten (k : Nat) : (d.ctrWritten v sn).count k = d.count k := by
  rw [Dev.count, Dev.ctrWritten, Dev.ctr_onCnt, Dev.sw, Dev.ctr_setReg, Dev.count]

theorem Dev.cnt_dumpsStarted : d.dumpsStarted.cnt = { d.cnt with next := 0, skipped := 0, cleared := false, full := false } := by
  rw [Dev.dumpsStarted, Dev.cnt_onCnt, Dev.cnt_setReg, Dev.cnt_setReg]

theorem Dev.count_dumpsStarted (k : Nat) : d.dumpsStarted.count k = d.count k := by
  rw [Dev.count, Dev.dumpsStarted, Dev.ctr_onCnt, Dev.ctr_setReg, Dev.ctr_setReg, Dev.count]

theorem Dev.reg_dumpsStarted_ring : d.dumpsStarted.reg A.DUMP_WR = 0 ∧ d.dumpsStarted.reg A.DUMP_RD = 0 := by
  rw [Dev.dumpsStarted, Dev.reg_onCnt, Dev.reg_onCnt, Dev.reg_setReg_same, Dev.reg_setReg_ne _ _ (by decide), Dev.reg_setReg_same]
  exact ⟨rfl, rfl⟩

theorem Dev.get_dumpsStarted {f : Fld} (h1 : A.DUMP_WR ≠ f.addr) (h2 : A.DUMP_RD ≠ f.addr) : d.dumpsStarted.get f = d.get f := by
  rw [Dev.dumpsStarted, Dev.get_onCnt, Dev.get_setReg_ne _ _ _ h2, Dev.get_setReg_ne _ _ _ h1]

theorem Dev.on_dumpsStarted {f : Fld} (h1 : A.DUMP_WR ≠ f.addr) (h2 : A.DUMP_RD ≠ f.addr) : d.dumpsStarted.on f = d.on f := by
  rw [Dev.on, d.get_dumpsStarted h1 h2, Dev.on]

end

/-- What a latch leaves depends on the counters and their record alone. -/
theorem DumpDue.congr {d d' x : Dev} {now : Bool} (h : DumpDue d' x now) (hn : d'.cnt.next = d.cnt.next) (hs : d'.cnt.skipped = d.cnt.skipped)
    (hc : d'.cnt.cleared = d.cnt.cleared) (hk : ∀ k, d'.count k = d.count k) : DumpDue d x now := by
  unfold DumpDue at h
  rw [hn, hs, hc] at h
  simp only [hk] at h
  exact h

/-! What the commands leave (R309, R311). -/

section
variable (d : Dev) (v : Nat)

theorem Dev.ctrCtrl_enable (hoff : d.on R.CTR_CTRL.DUMP_EN = false) (h31 : bit v 31 = true) (h30 : bit v 30 = false) :
    (d.ctrCtrl v).on R.CTR_CTRL.DUMP_EN = true ∧ (d.ctrCtrl v).reg A.DUMP_WR = 0 ∧ (d.ctrCtrl v).reg A.DUMP_RD = 0 ∧ (d.ctrCtrl v).cnt.next = 0 ∧
      (d.ctrCtrl v).cnt.dump = d.cnt.dump ∧ (d.ctrCtrl v).get R.CTR_CTRL.SIZE = max 1 (min 12 (getBits v 17 14)) ∧
      (d.ctrCtrl v).get R.CTR_CTRL.INTERVAL = max 1 (min 10000 (getBits v 13 0)) := by
  obtain ⟨sn, h⟩ := d.ctrCtrl_starts v (by rw [h30]; exact fun h => Bool.false_ne_true h.1) ⟨hoff, h31⟩
  obtain ⟨hwr, hrd⟩ := (d.ctrWritten v sn).reg_dumpsStarted_ring
  have hsize := d.size_ctrWritten v sn
  rw [hoff, if_neg Bool.false_ne_true] at hsize
  rw [h, hwr, hrd, Dev.cnt_dumpsStarted, Dev.cnt_ctrWritten, Dev.on_dumpsStarted _ (by decide) (by decide), Dev.on_ctrWritten,
    Dev.get_dumpsStarted _ (by decide) (by decide), hsize, Dev.get_dumpsStarted _ (by decide) (by decide), Dev.interval_ctrWritten]
  exact ⟨h31, rfl, rfl, rfl, rfl, rfl, rfl⟩

theorem Dev.ctrCtrl_disable (h31 : bit v 31 = false) :
    (d.ctrCtrl v).on R.CTR_CTRL.DUMP_EN = false ∧ (d.ctrCtrl v).cnt.dump = d.cnt.dump ∧ (d.ctrCtrl v).get R.CTR_CTRL.SIZE =
      max 1 (min 12 (if d.on R.CTR_CTRL.DUMP_EN then d.get R.CTR_CTRL.SIZE else getBits v 17 14)) := by
  obtain ⟨sn, h⟩ := d.ctrCtrl_quiet v (by rw [h31]; exact fun h => Bool.false_ne_true h.2) (by rw [h31]; exact fun h => Bool.false_ne_true h.2)
  rw [h, Dev.on_ctrWritten, Dev.cnt_ctrWritten, Dev.size_ctrWritten]
  exact ⟨h31, rfl, rfl⟩

theorem Dev.ctrCtrl_stays (hon : d.on R.CTR_CTRL.DUMP_EN = true) (h31 : bit v 31 = true) (h30 : bit v 30 = false) :
    (d.ctrCtrl v).on R.CTR_CTRL.DUMP_EN = true ∧ (d.ctrCtrl v).reg A.DUMP_WR = d.reg A.DUMP_WR ∧ (d.ctrCtrl v).reg A.DUMP_RD = d.reg A.DUMP_RD ∧
      (d.ctrCtrl v).cnt.next = d.cnt.next ∧ (d.ctrCtrl v).cnt.dump = d.cnt.dump := by
  obtain ⟨sn, h⟩ := d.ctrCtrl_quiet v (by rw [h30]; exact fun h => Bool.false_ne_true h.1) (by rw [hon]; exact fun h => Bool.false_ne_true h.1.symm)
  rw [h, Dev.on_ctrWritten, Dev.cnt_ctrWritten, Dev.reg_ctrWritten _ _ _ (by decide), Dev.reg_ctrWritten _ _ _ (by decide)]
  exact ⟨h31, rfl, rfl, rfl, rfl⟩

variable (h30 : bit v 30 = true) (h31 : bit v 31 = true)
include h30 h31

theorem Dev.ctrCtrl_firstNow (hoff : d.on R.CTR_CTRL.DUMP_EN = false) (hn : d.cnt.dump = none) :
    ∃ q, (d.ctrCtrl v).cnt.dump = some q ∧ q.no = 0 ∧ bit q.flags 1 = true ∧ (d.ctrCtrl v).cnt.next = 1 ∧ ∀ k, Tbl.get 0 q.ctr k = d.count k := by
  obtain ⟨sn, h⟩ := d.ctrCtrl_latches v ⟨h30, h31⟩
  rw [if_pos hoff] at h
  have hc : (d.ctrWritten v sn).dumpsStarted.cnt = { d.cnt with snap := sn, next := 0, skipped := 0, cleared := false, full := false } := by
    rw [Dev.cnt_dumpsStarted, Dev.cnt_ctrWritten]
  have hk : ∀ k, (d.ctrWritten v sn).dumpsStarted.count k = d.count k := fun k => by rw [Dev.count_dumpsStarted, Dev.count_ctrWritten]
  generalize (d.ctrWritten v sn).dumpsStarted = x at *
  obtain ⟨q, hq, hno, hctr, -, h1, -, -, hnext, -⟩ := x.dumpLatch_due (by rw [hc]; exact hn) true
  rw [hc] at hno hnext
  rw [h]
  exact ⟨q, hq, hno, h1, hnext, fun k => (hctr k).trans (hk k)⟩

theorem Dev.ctrCtrl_now (hon : d.on R.CTR_CTRL.DUMP_EN = true) (hn : d.cnt.dump = none) : DumpDue d (d.ctrCtrl v) true := by
  obtain ⟨sn, h⟩ := d.ctrCtrl_latches v ⟨h30, h31⟩
  rw [if_neg (by rw [hon]; exact fun h => Bool.false_ne_true h.symm)] at h
  have hc := d.cnt_ctrWritten v sn
  have hk := d.count_ctrWritten v sn
  generalize d.ctrWritten v sn = x at *
  rw [h]
  exact (x.dumpLatch_due (by rw [hc]; exact hn) true).congr (by rw [hc]) (by rw [hc]) (by rw [hc]) hk

theorem Dev.ctrCtrl_skips (hon : d.on R.CTR_CTRL.DUMP_EN = true) (hn : d.cnt.dump ≠ none) :
    (d.ctrCtrl v).cnt = { d.cnt with skipped := d.cnt.skipped + 1, snap := (d.ctrCtrl v).cnt.snap } ∧
      (d.ctrCtrl v).get R.DUMP_STATUS.SKIPPED = min 65535 (d.get R.DUMP_STATUS.SKIPPED + 1) := by
  obtain ⟨sn, h⟩ := d.ctrCtrl_latches v ⟨h30, h31⟩
  rw [if_neg (by rw [hon]; exact fun h => Bool.false_ne_true h.symm)] at h
  have hc := d.cnt_ctrWritten v sn
  have hg : (d.ctrWritten v sn).get R.DUMP_STATUS.SKIPPED = d.get R.DUMP_STATUS.SKIPPED := Dev.get_congr (d.reg_ctrWritten v sn (by decide))
  generalize d.ctrWritten v sn = x at *
  obtain ⟨h1, h2⟩ := Dev.dumpLatch_skips (d := x) (by rw [hc]; exact hn) true
  rw [h, h1, h2, hg, hc]
  exact ⟨rfl, rfl⟩

end

/-! A record done (R311). -/

section
variable {d : Dev} {r : DumpRec} (hr : d.cnt.dump = some r) (ha : d.dramActive = true)

theorem Dev.cnt_dumpClosed (d : Dev) : d.dumpClosed.cnt = { d.cnt with dump := none } := by
  rw [Dev.dumpClosed, Dev.cnt_onCnt, Dev.cnt_set]

theorem Dev.dram_dumpClosed (d : Dev) : d.dumpClosed.dram = d.dram := by
  rw [Dev.dumpClosed, Dev.dram_onCnt, Dev.dram_set]

include hr ha

theorem Dev.dumpDone_stored (hadm : d.admits 2 d.dumpAddr 69632 = true) (hfull : d.cnt.full = false) :
    d.dumpDone.reg A.DUMP_LATCH = r.no % 2 ^ 32 ∧ d.dumpDone.get R.DUMP_WR.REC = (d.get R.DUMP_WR.REC + 1) % 2 ^ d.get R.CTR_CTRL.SIZE % 4096 ∧
      d.dumpDone.get R.DUMP_RD.REC = d.get R.DUMP_RD.REC ∧ bit (d.dumpDone.get R.DEV_EVT.EVT) 2 = true ∧ d.dumpDone.cnt.dump = none ∧
      d.dumpDone.on R.DUMP_STATUS.BUSY = false ∧ leNat (d.dumpDone.dram.bytes d.dumpAddr 8) = r.no % 2 ^ 64 ∧
      (∀ k, k < 8192 → leNat (d.dumpDone.dram.bytes (d.dumpAddr + 4096 + 8 * k) 8) = (Tbl.get (0 : DWord) r.ctr k).toNat) ∧
      ∀ b, b < d.dumpAddr ∨ d.dumpAddr + 69632 ≤ b → d.dumpDone.dram.byte b = d.dram.byte b := by
  have h := Dev.dumpDone_admitted hr ha hadm
  rw [if_neg (by rw [Dev.cnt_dumpClosed, hfull]; exact Bool.false_ne_true)] at h
  obtain ⟨hlatch, hwr, hevt, hdump, hregs, hin, hout⟩ :=
    d.dumpClosed.dumpWritten_spec r (d.get R.DUMP_WR.REC) (2 ^ d.get R.CTR_CTRL.SIZE) d.dumpAddr_aligned
  rw [← h] at hlatch hwr hevt hdump hregs hin hout
  obtain ⟨hno, hctr⟩ := DumpRec.in_dram hin
  rw [Dev.cnt_dumpClosed] at hdump
  rw [Dev.dram_dumpClosed] at hout
  refine ⟨hlatch, hwr, ?_, hevt, hdump, ?_, hno, hctr, hout⟩
  · rw [Dev.get_congr (f := R.DUMP_RD.REC) (hregs A.DUMP_RD (.inr rfl)), Dev.get_congr (f := R.DUMP_RD.REC) (d.reg_dumpClosed (by decide))]
  · rw [Dev.on_congr (f := R.DUMP_STATUS.BUSY) (hregs A.DUMP_STATUS (.inl rfl)), d.busy_dumpClosed]

theorem Dev.dumpDone_overrun (hadm : d.admits 2 d.dumpAddr 69632 = true) (hfull : d.cnt.full = true)
    (hwr : d.get R.DUMP_WR.REC = d.get R.DUMP_RD.REC) : d.dumpDone.on R.DUMP_STATUS.OVERRUN = true ∧
      d.dumpDone.get R.DUMP_RD.REC = (d.get R.DUMP_WR.REC + 1) % 2 ^ d.get R.CTR_CTRL.SIZE % 4096 := by
  have h := Dev.dumpDone_admitted hr ha hadm
  have hrd : d.dumpClosed.get R.DUMP_RD.REC = d.get R.DUMP_RD.REC := Dev.get_congr (d.reg_dumpClosed (by decide))
  rw [hwr, if_pos (by rw [Dev.cnt_dumpClosed, hfull, hrd]; simp)] at h
  obtain ⟨-, -, -, -, hregs, -, -⟩ :=
    (d.dumpClosed.dumpOverrun (2 ^ d.get R.CTR_CTRL.SIZE)).dumpWritten_spec r (d.get R.DUMP_RD.REC) (2 ^ d.get R.CTR_CTRL.SIZE) d.dumpAddr_aligned
  rw [← h] at hregs
  rw [Dev.on_congr (f := R.DUMP_STATUS.OVERRUN) (hregs A.DUMP_STATUS (.inl rfl)), Dev.get_congr (f := R.DUMP_RD.REC) (hregs A.DUMP_RD (.inr rfl)),
    Dev.dumpOverrun, Dev.on_set_apart _ R.DUMP_RD.REC R.DUMP_STATUS.OVERRUN _ (Fld.ok_of_ble rfl) (.inl (by decide)),
    Dev.on_set_same _ _ _ (Fld.ok_of_ble rfl), Dev.get_set_same _ _ _ (Fld.ok_of_ble rfl), hrd, hwr]
  exact ⟨rfl, rfl⟩

theorem Dev.dumpDone_lost (hadm : d.admits 2 d.dumpAddr 69632 = false) : bit (d.dumpDone.get R.DEV_EVT.EVT) 3 = true ∧ d.dumpDone.dram = d.dram ∧
    d.dumpDone.cnt.dump = none ∧ d.dumpDone.get R.DUMP_WR.REC = d.get R.DUMP_WR.REC := by
  rw [Dev.dumpDone_refused hr ha hadm]
  refine ⟨?_, ?_, ?_, ?_⟩
  · rw [Dev.bit_orF _ (Fld.ok_of_ble rfl) _ (by decide), show bit 8 3 = true from rfl, Bool.or_true]
  · rw [Dev.dram_orF, Dev.regionViol, Dev.dram_bump, Dev.memEvt, Dev.dram_orF, Dev.dram_inc, Dev.dram_dumpClosed]
  · rw [Dev.cnt_orF, Dev.regionViol, Dev.cnt_bump, Dev.memEvt, Dev.cnt_orF, Dev.cnt_inc, Dev.cnt_dumpClosed]
  · rw [Dev.orF, Dev.get_set_reg _ R.DEV_EVT.EVT R.DUMP_WR.REC _ (by decide), Dev.regionViol, Dev.get_bump, Dev.memEvt, Dev.orF,
      Dev.get_set_reg _ R.MEM_EVT.EVT R.DUMP_WR.REC _ (by decide), Dev.get_inc_apart _ R.REGION_VIOL.COUNT R.DUMP_WR.REC _ (Fld.ok_of_ble rfl) (.inl (by decide)),
      Dev.get_congr (f := R.DUMP_WR.REC) (d.reg_dumpClosed (by decide))]

end

theorem Dev.demand_keeps (d : Dev) : d.demand.cnt = d.cnt ∧ d.demand.dram = d.dram := by
  have hp : ∀ p st, (d.setPolder p st).cnt = d.cnt ∧ (d.setPolder p st).dram = d.dram := fun _ _ => ⟨rfl, rfl⟩
  unfold Dev.demand
  split
  · dsimp only
    rw [Dev.cnt_onPwr, Dev.cnt_orF, Dev.dram_onPwr, Dev.dram_orF]
    exact hp 47 4
  · exact ⟨rfl, rfl⟩

/-- R309: counter n latched for a requester. -/
theorem Dev.latchCtr_spec (d : Dev) (src : Src) (n : Nat) : Tbl.get none (d.latchCtr src n).cnt.shadow (srcKey src) = some (n, d.ctrValue src n) := by
  rw [Dev.latchCtr, Dev.cnt_onCnt]
  dsimp only
  rw [Tbl.get_set_same]

end Sys2Proof.Machine

open Sys2Proof.Machine

/-- Settles O43: a write to CTR_CTRL by what its bits start (`ctrCtrl_eq`), a latch by whether a record waits, a record by where it goes. -/
theorem counters : Obligations.Counters := by
  intro src n v r s d nv c due skip wr a
  have hctrl : ∀ {i w}, exec i s = s.on (fun d => d.gate src A.CTR_CTRL fun d => d.ctrCtrl w) → d.barred A.CTR_CTRL = none → Makes i s (d.ctrCtrl w) :=
    fun hc hb => makes_of_gate hc hb
  have hset : ∀ i, bit (putBit nv i true) i = true := fun i => bit_putBit_same nv i true
  have hkept : ∀ {i j b}, i ≠ j → bit (putBit nv i b) j = bit nv j := fun h => bit_putBit_ne nv _ h
  have hfield : ∀ {i hi lo b}, i < lo ∨ hi < i → getBits (putBit nv i b) hi lo = getBits nv hi lo := fun h => getBits_putBit_ne nv _ h
  refine ⟨?clear, ?read, fun hb => ⟨?snapshot, ?enable, ?disable, ?stays, ?off, ?first, ?now⟩, ?latch, ?quiet, ?none, ?done, ?idle⟩
  case clear =>
    intro hb
    exact (makes_of_gate (c := .counterGroupClear src v) rfl hb).gives ⟨d.count_ctrClear nv, d.regs_ctrClear nv⟩
  case read =>
    intro hb
    exact (makes_of_gateRead (c := .counterReadLatch src n) (f := fun d => d.cntLo src n) rfl hb rfl).gives
      ⟨(Dev.reads_respond _ _ _).trans (Nat.mod_mod _ _), d.latchCtr_spec src n, rfl, rfl⟩
  case snapshot =>
    exact (hctrl (i := .counterSnapshot src v) rfl hb).gives (d.snap_ctrCtrl _ (hset 29))
  case enable =>
    intro hoff h30
    have h := d.ctrCtrl_enable (putBit nv 31 true) hoff (hset 31) ((hkept (by decide)).trans h30)
    rw [hfield (.inr (by decide)), hfield (.inr (by decide))] at h
    exact (hctrl (i := .dumpEnable src v) rfl hb).gives h
  case disable =>
    obtain ⟨hen, hdump, hsize⟩ := d.ctrCtrl_disable (putBit nv 31 false) (bit_putBit_same nv 31 false)
    refine (hctrl (i := .dumpDisable src v) rfl hb).gives ⟨hen, hdump, fun hon h1 h2 => hsize.trans ?_⟩
    rw [if_pos hon]
    omega
  case stays =>
    intro hon h30
    exact (hctrl (i := .dumpEnable src v) rfl hb).gives (d.ctrCtrl_stays _ hon (hset 31) ((hkept (by decide)).trans h30))
  case off =>
    intro h31
    obtain ⟨hen, hdump, -⟩ := d.ctrCtrl_disable (putBit nv 30 true) ((hkept (by decide)).trans h31)
    exact (hctrl (i := .dumpNow src v) rfl hb).gives ⟨hen, hdump⟩
  case first =>
    intro hoff h31 hn
    exact (hctrl (i := .dumpNow src v) rfl hb).gives (d.ctrCtrl_firstNow _ (hset 30) ((hkept (by decide)).trans h31) hoff hn)
  case now =>
    intro hon h31
    have h31 := (hkept (i := 30) (b := true) (by decide)).trans h31
    exact ⟨fun hn => (hctrl (i := .dumpNow src v) rfl hb).gives (d.ctrCtrl_now _ (hset 30) h31 hon hn),
      fun hn => (hctrl (i := .dumpNow src v) rfl hb).gives (d.ctrCtrl_skips _ (hset 30) h31 hon hn)⟩
  case latch =>
    intro hon
    have h := makes_of_on (c := .dumpLatch) (s := s) (f := fun d => if d.on R.CTR_CTRL.DUMP_EN then d.dumpLatch false else d) rfl
    rw [if_pos hon] at h
    refine ⟨fun hn => h.gives ⟨Dev.dumpLatch_due hn false, d.regsOnly_dumpLatch false⟩, fun hn => ?_⟩
    obtain ⟨h1, h2⟩ := Dev.dumpLatch_skips hn false
    have h3 : (d.dumpLatch false).cnt = { d.cnt with skipped := d.cnt.skipped + 1, snap := (d.dumpLatch false).cnt.snap } := by rw [h1]
    exact h.gives ⟨⟨h3, h2⟩, d.regsOnly_dumpLatch false⟩
  case quiet =>
    intro hoff
    have h := makes_of_on (c := .dumpLatch) (s := s) (f := fun d => if d.on R.CTR_CTRL.DUMP_EN then d.dumpLatch false else d) rfl
    rwa [if_neg (by rw [show s.dev.on R.CTR_CTRL.DUMP_EN = false from hoff]; exact Bool.false_ne_true)] at h
  case none =>
    intro hn
    have h := makes_of_on (c := .dumpRecordDone) (s := s) (f := fun d => d.dumpDone) rfl
    rwa [Dev.dumpDone_none hn] at h
  case done =>
    intro hr ha
    have h := makes_of_on (c := .dumpRecordDone) (s := s) (f := fun d => d.dumpDone) rfl
    exact ⟨fun hadm hfull => h.gives (Dev.dumpDone_stored hr ha hadm hfull), fun hadm hfull hwr => h.gives (Dev.dumpDone_overrun hr ha hadm hfull hwr),
      fun hadm => h.gives (Dev.dumpDone_lost hr ha hadm)⟩
  case idle =>
    intro hr ha
    have h := makes_of_on (c := .dumpRecordDone) (s := s) (f := fun d => d.dumpDone) rfl
    rw [Dev.dumpDone_idle hr ha] at h
    exact h.gives d.demand_keeps

end

section
/-! Life-cycle transitions, fuses, rollback and reset requests (spec/13, R341 to R346, R349 to R351). -/

open Sys2Proof

namespace Sys2Proof.Machine

/-! Transitions (R341, R342). -/

theorem mem_lcSlots (a x k : Nat) : k ∈ lcSlots a x ↔ (a = 1 ∧ x = 2 ∧ k ≤ 1) ∨ (a = 2 ∧ x = 3 ∧ 2 ≤ k ∧ k ≤ 7) ∨ (a = 2 ∧ x = 4 ∧ k ≤ 7) ∨
    (a = 3 ∧ x = 4 ∧ 2 ≤ k ∧ k ≤ 7) ∨ (x = 5 ∧ ((a = 1 ∨ a = 4) ∧ k ≤ 1 ∨ a = 2 ∧ k ≤ 7 ∨ a = 3 ∧ 2 ≤ k ∧ k ≤ 7)) := by
  unfold lcSlots
  split_ifs with h1 h2 h3 h4 h5
  · obtain ⟨rfl, ha1, ha4⟩ := h1
    interval_cases a <;> simp [imgSlots] <;> omega
  · simp; omega
  · simp; omega
  · simp; omega
  · simp; omega
  · simp; omega

/-- R341: what a token needs. -/
def Vault.TokenGood (v : Vault) (t : List Byte) : Prop :=
  blk t 4 1 = v.life ∧ blk t 6 1 ∈ lcSlots v.life (blk t 5 1) ∧ (v.life = 1 → blk t 5 1 = 2 → v.serial.isSome = true) ∧
    blk t 8 8 = v.serialNo.toNat ∧ v.usable (blk t 6 1) = true ∧ v.key (blk t 6 1) = some (keyHash ((t.drop 64).take 96)) ∧
    signatureOk ((t.drop 64).take 96) ((t.drop 160).take 96) (t.take 64) = true ∧ v.next = none

/-- R341: who authorises what, in one table. -/
theorem authorised_iff (a x k : Nat) (p : Prop) : ((a = 1 ∧ x = 2 ∧ k ≤ 1 ∧ p) ∨ (a = 2 ∧ x = 3 ∧ 2 ≤ k ∧ k ≤ 7) ∨ (a = 2 ∧ x = 4 ∧ k ≤ 7) ∨
    (a = 3 ∧ x = 4 ∧ 2 ≤ k ∧ k ≤ 7) ∨ (x = 5 ∧ ((a = 1 ∨ a = 4) ∧ k ≤ 1 ∨ a = 2 ∧ k ≤ 7 ∨ a = 3 ∧ 2 ≤ k ∧ k ≤ 7))) ↔
    k ∈ lcSlots a x ∧ (a = 1 → x = 2 → p) := by
  rw [mem_lcSlots]
  by_cases hp : p
  · simp only [hp, and_true, implies_true]
  · simp only [hp, and_false, false_or, imp_false]
    refine ⟨fun h => ⟨.inr h, fun ha hx => ?_⟩, fun ⟨h, hn⟩ => h.resolve_left fun h => hn h.1 h.2.1⟩
    subst ha hx
    omega

theorem Vault.tokenOk_iff (v : Vault) (t : List Byte) : v.tokenOk t = true ↔ v.TokenGood t := by
  unfold Vault.tokenOk Vault.TokenGood
  simp only [Bool.and_eq_true, beq_iff_eq, List.contains_eq_mem, decide_eq_true_eq, Bool.or_eq_true, bne_iff_ne, ne_eq, Option.isNone_iff_eq_none, and_assoc,
    or_assoc, imp_iff_not_or]

theorem lcAdvance_eq (d : Dev) (v : Vault) (to_ slot : Nat) : lcAdvance d v to_ slot =
    ((((d.nvBusy 8).orF R.SEC_EVT.EVT 16).endSession v.life).onSec fun s => { s with rrk := none },
      (nvAppend d { v with next := some to_ } 0 0x10 (bytesLE v.life 1 ++ bytesLE to_ 1 ++ bytesLE slot 1 ++ bytesLE v.serialNo.toNat 8)).2) := rfl

/-- R342: a transition accepted. -/
theorem lcAdvance_spec (d : Dev) (v : Vault) (to_ slot : Nat) : ∃ x w, lcAdvance d v to_ slot = (x, w) ∧ w = { v with next := some to_, nv := w.nv } ∧
    Recorded v w 0 0x10 (bytesLE v.life 1 ++ bytesLE to_ 1 ++ bytesLE slot 1 ++ bytesLE v.serialNo.toNat 8) ∧ bit (x.get R.SEC_EVT.EVT) 4 = true ∧
    x.sec.rrk = none ∧ x.get R.DBG_STATUS.LEVEL = levelReset v.life ∧ x.get R.DBG_STATUS.SLOT = 0 ∧ x.reg A.DBG_HOLD_LO = 0 ∧ x.reg A.DBG_HOLD_HI = 0 ∧
    RegsOnly { d with sec := x.sec } x [A.SEC_EVT, A.DBG_STATUS, A.DBG_HOLD_LO, A.DBG_HOLD_HI] := by
  have hrec := recorded_nvAppend { v with next := some to_ } d 0 (type := 0x10)
    (data := bytesLE v.life 1 ++ bytesLE to_ 1 ++ bytesLE slot 1 ++ bytesLE v.serialNo.toNat 8) (by decide) (by simp)
  have hv : (nvAppend d { v with next := some to_ } 0 0x10 (bytesLE v.life 1 ++ bytesLE to_ 1 ++ bytesLE slot 1 ++ bytesLE v.serialNo.toNat 8)).2 =
      { v with next := some to_,
               nv := (nvAppend d { v with next := some to_ } 0 0x10 (bytesLE v.life 1 ++ bytesLE to_ 1 ++ bytesLE slot 1 ++ bytesLE v.serialNo.toNat 8)).2.nv } :=
    Vault.putSlot_frame { v with next := some to_ } _ _
  rw [lcAdvance_eq]
  generalize (nvAppend d { v with next := some to_ } 0 0x10 (bytesLE v.life 1 ++ bytesLE to_ 1 ++ bytesLE slot 1 ++ bytesLE v.serialNo.toNat 8)).2 = w at hrec hv ⊢
  refine ⟨_, w, rfl, hv, hrec, ?_⟩
  have hevt : bit (((d.nvBusy 8).orF R.SEC_EVT.EVT 16).get R.SEC_EVT.EVT) 4 = true := by
    rw [Dev.bit_orF _ (Fld.ok_of_ble rfl) _ (by decide), show bit 16 4 = true from rfl, Bool.or_true]
  have hregs : RegsOnly (d.nvBusy 8) ((d.nvBusy 8).orF R.SEC_EVT.EVT 16) [A.SEC_EVT] := (RegsOnly.refl _ _).orF 0 rfl
  generalize (d.nvBusy 8).orF R.SEC_EVT.EVT 16 = y at hevt hregs
  obtain ⟨hlevel, hslot, -, hlo, hhi, hend⟩ := y.endSession_spec v.life
  have hevt' : (y.endSession v.life).get R.SEC_EVT.EVT = y.get R.SEC_EVT.EVT := Dev.get_congr (hend.2 _ (by decide))
  generalize y.endSession v.life = z at hlevel hslot hlo hhi hend hevt'
  refine ⟨by rw [Dev.get_onSec, hevt']; exact hevt, rfl, hlevel, hslot, hlo, hhi, ?_, fun a ha => ?_⟩
  · obtain ⟨r, rfl⟩ := hend.frame
    obtain ⟨r, rfl⟩ := hregs.frame
    rfl
  · rw [List.mem_cons, not_or] at ha
    exact (hend.2 a ha.2).trans (hregs.2 a (by simpa using ha.1))

/-! Fuses (R345). -/

section
variable (v : Vault) (f : Nat)

/-- R345: a FIELD that names no fuses. -/
def ReservedField : Prop := f = 14 ∨ f = 15 ∨ 0x1A < f

/-- R345: the state permits the field. -/
def Vault.FieldAllowed : Prop := (f ≤ 1 ∨ f = 8 ∨ f = 13) ∧ v.life ≤ 1 ∨ ((2 ≤ f ∧ f ≤ 7) ∨ (9 ≤ f ∧ f ≤ 12)) ∧ v.life = 2 ∨
  ((0x12 ≤ f ∧ f ≤ 0x17) ∨ f = 0x19 ∨ f = 0x1A) ∧ (v.life = 2 ∨ v.life = 3)

/-- R345: the field is fused already. -/
def Vault.FieldFused : Prop := (f ≤ 10 ∧ (v.key f).isSome = true) ∨ (f = 11 ∧ v.oik.isSome = true) ∨ (f = 12 ∧ v.policy.isSome = true) ∨
  (f = 13 ∧ v.serial.isSome = true) ∨ (16 ≤ f ∧ f - 16 ∈ v.revoked)

/-- R345: the last owner image slot would go. -/
def Vault.FieldLast : Prop := v.life = 3 ∧ 0x12 ≤ f ∧ f ≤ 0x17 ∧ ∀ j, 2 ≤ j ∧ j ≤ 7 → j ≠ f - 16 → v.usable j = false

/-- R345: the states that permit a field, in brief. -/
theorem fieldStates_low : ∀ f ≤ 0x1A, fieldStates f = if f = 14 ∨ f = 15 then none else some
    (if f ≤ 1 ∨ f = 8 ∨ f = 13 then [0, 1] else if f ≤ 12 then [2] else if f ≤ 0x11 ∨ f = 0x18 then [] else [2, 3]) := by decide

theorem fieldStates_reserved (h : ReservedField f) : fieldStates f = none := by
  unfold ReservedField at h
  by_cases hf : f ≤ 0x1A
  · rw [fieldStates_low f hf, if_pos (by omega)]
  · rw [fieldStates, if_neg (by omega), if_neg (by omega), if_neg (by omega), if_neg (by omega), if_neg (by omega), if_neg (by omega),
      if_neg (by omega), if_neg (by omega), if_neg (by omega), if_neg (by omega)]

theorem fieldStates_some (h : ¬ ReservedField f) : ∃ l, fieldStates f = some l ∧ (l.contains v.life = true ↔ v.FieldAllowed f) := by
  unfold ReservedField at h
  refine ⟨_, (fieldStates_low f (by omega)).trans (if_neg (by omega)), ?_⟩
  rw [List.contains_iff_mem]
  unfold Vault.FieldAllowed
  by_cases h1 : f ≤ 1 ∨ f = 8 ∨ f = 13
  · rw [if_pos h1, List.mem_pair]
    omega
  · rw [if_neg h1]
    by_cases h2 : f ≤ 12
    · rw [if_pos h2, List.mem_singleton]
      omega
    · rw [if_neg h2]
      by_cases h3 : f ≤ 0x11 ∨ f = 0x18
      · rw [if_pos h3]
        exact ⟨fun h => absurd h List.not_mem_nil, fun h => by omega⟩
      · rw [if_neg h3, List.mem_pair]
        omega

theorem Vault.fused_iff (h : v.FieldAllowed f) : v.fused f = true ↔ v.FieldFused f := by
  unfold Vault.FieldAllowed at h
  unfold Vault.fused Vault.FieldFused revokeSlot
  split_ifs with h1 h2 h3 h4
  · have : ¬ (f = 11) ∧ ¬ (f = 12) ∧ ¬ (f = 13) ∧ ¬ (16 ≤ f) := by omega
    simp [h1, this]
  · simp [h2]
  · simp [h3]
  · simp [h4]
  · have : ¬ (f ≤ 10) ∧ 16 ≤ f := by omega
    simp [this, h2, h3, h4]

theorem Vault.lastOwner_iff : v.lastOwner f = true ↔ v.FieldLast f := by
  have hall : ([2, 3, 4, 5, 6, 7].all fun k => k == revokeSlot f || !v.usable k) = true ↔ ∀ j, 2 ≤ j ∧ j ≤ 7 → j ≠ f - 16 → v.usable j = false := by
    have hm : ∀ j, j ∈ [2, 3, 4, 5, 6, 7] ↔ 2 ≤ j ∧ j ≤ 7 := fun j => by simp; omega
    rw [List.all_eq_true]
    refine forall_congr' fun j => ?_
    rw [hm, Bool.or_eq_true, beq_iff_eq, Bool.not_eq_true', revokeSlot, ← or_iff_not_imp_left]
  unfold Vault.lastOwner Vault.FieldLast
  rw [Bool.and_eq_true, Bool.and_eq_true, hall, beq_iff_eq, decide_eq_true_iff, and_assoc, and_assoc]

theorem Vault.fuseDetail_reserved (h : ReservedField f) : v.fuseDetail f = some 4 := by
  unfold Vault.fuseDetail
  rw [fieldStates_reserved f h]

theorem Vault.fuseDetail_eq (h : ¬ ReservedField f) : v.fuseDetail f =
    (open Classical in if ¬ v.FieldAllowed f then some 1 else if v.fused f = true then some 2 else if v.lastOwner f = true then some 3 else none) := by
  obtain ⟨l, hl, hc⟩ := fieldStates_some v f h
  unfold Vault.fuseDetail
  rw [hl]
  dsimp only
  by_cases ha : v.FieldAllowed f
  · rw [if_neg (by rw [hc.2 ha]; decide), if_neg (not_not.2 ha)]
  · rw [if_pos (by rw [Bool.not_eq_true', ← Bool.not_eq_true, hc]; exact ha), if_pos ha]

variable {v f}

theorem Vault.FieldAllowed.not_reserved (h : v.FieldAllowed f) : ¬ ReservedField f := by
  unfold Vault.FieldAllowed at h
  unfold ReservedField
  omega

theorem Vault.fuseDetail_state (h : ¬ ReservedField f) (ha : ¬ v.FieldAllowed f) : v.fuseDetail f = some 1 := by
  rw [v.fuseDetail_eq f h, if_pos ha]

theorem Vault.fuseDetail_fused (ha : v.FieldAllowed f) (hf : v.FieldFused f) : v.fuseDetail f = some 2 := by
  rw [v.fuseDetail_eq f ha.not_reserved, if_neg (not_not.2 ha), if_pos ((v.fused_iff f ha).2 hf)]

theorem Vault.fuseDetail_last (ha : v.FieldAllowed f) (hf : ¬ v.FieldFused f) (hl : v.FieldLast f) : v.fuseDetail f = some 3 := by
  rw [v.fuseDetail_eq f ha.not_reserved, if_neg (not_not.2 ha), if_neg (mt (v.fused_iff f ha).1 hf), if_pos ((v.lastOwner_iff f).2 hl)]

theorem Vault.fuseDetail_none (ha : v.FieldAllowed f) (hf : ¬ v.FieldFused f) (hl : ¬ v.FieldLast f) : v.fuseDetail f = none := by
  rw [v.fuseDetail_eq f ha.not_reserved, if_neg (not_not.2 ha), if_neg (mt (v.fused_iff f ha).1 hf), if_neg (mt (v.lastOwner_iff f).1 hl)]

end

theorem policyOf_spec (x : Nat) : policyOf x < 32 ∧ bit (policyOf x) 0 = bit x 0 ∧ bit (policyOf x) 4 = bit x 4 ∧
    getBits (policyOf x) 3 1 = min 3 (getBits x 3 1) := by
  unfold policyOf
  refine ⟨putBits_lt (n := 5) (by decide) (by decide) (Nat.mod_lt _ (by decide)), ?_, ?_, ?_⟩
  · rw [bit_eq_testBit, testBit_putBits _ _ _ _ _ (by decide), Nat.testBit_mod_two_pow (x := x) (j := 5), bit_eq_testBit]
    rfl
  · rw [bit_eq_testBit, testBit_putBits _ _ _ _ _ (by decide), Nat.testBit_mod_two_pow (x := x) (j := 5), bit_eq_testBit]
    rfl
  · rw [getBits_putBits_same _ _ _ _ (by decide)]
    exact Nat.mod_eq_of_lt (by omega)

/-- R345: what a field's fuses become. -/
theorem Vault.blow_spec (v : Vault) {f : Nat} (l : List Byte) (hf : f ≤ 13 ∨ 16 ≤ f) :
    (f ≤ 10 → v.blow f l = { v with keys := (v.blow f l).keys } ∧ ∀ j, (v.blow f l).key j = if j = f then some (blk l 0 48) else v.key j) ∧
    (f = 11 → v.blow f l = { v with oik := some (l.take 32) }) ∧
    (f = 12 → v.blow f l = { v with policy := some (policyOf (blk l 0 1)) }) ∧
    (f = 13 → v.blow f l = { v with serial := some (BitVec.ofNat 64 (blk l 0 8)) }) ∧
    (16 ≤ f → v.blow f l = { v with revoked := v.revoked ++ [f - 16] }) := by
  refine ⟨fun h => ?_, ?_, ?_, ?_, fun h => ?_⟩
  · rw [Vault.blow, if_pos h]
    refine ⟨rfl, fun j => ?_⟩
    by_cases hj : j = f
    · rw [if_pos hj, hj, Vault.key, Tbl.get_set_same]
    · rw [if_neg hj, Vault.key, Tbl.get_set_ne _ _ _ _ (Ne.symm hj), Vault.key]
  · rintro rfl
    rfl
  · rintro rfl
    rfl
  · rintro rfl
    rfl
  · rw [Vault.blow, if_neg (by omega), if_neg (by omega), if_neg (by omega), if_neg (by omega)]
    rfl

/-- R345: a field's fuses beside a store of records. -/
theorem Vault.blown_spec {v w : Vault} {f : Nat} {l : List Byte} (hf : f ≤ 13 ∨ 16 ≤ f) (hw : w = { v.blow f l with nv := w.nv }) :
    (f ≤ 10 → w = { v with keys := w.keys, nv := w.nv } ∧ ∀ j, w.key j = if j = f then some (blk l 0 48) else v.key j) ∧
    (f = 11 → w = { v with oik := some (l.take 32), nv := w.nv }) ∧
    (f = 12 → w = { v with policy := some (policyOf (blk l 0 1)), nv := w.nv }) ∧
    (f = 13 → w = { v with serial := some (BitVec.ofNat 64 (blk l 0 8)), nv := w.nv }) ∧
    (16 ≤ f → w = { v with revoked := v.revoked ++ [f - 16], nv := w.nv }) := by
  obtain ⟨hkeys, hoik, hpol, hser, hrev⟩ := v.blow_spec l hf
  have hk : w.keys = (v.blow f l).keys := by
    have h := congrArg Vault.keys hw
    exact h
  refine ⟨fun h => ⟨?_, fun j => ?_⟩, fun h => ?_, fun h => ?_, fun h => ?_, fun h => ?_⟩
  · rw [hk]
    exact hw.trans (congrArg (fun x : Vault => { x with nv := w.nv }) (hkeys h).1)
  · rw [Vault.key, hk, ← (hkeys h).2 j, Vault.key]
  · exact hw.trans (congrArg (fun x : Vault => { x with nv := w.nv }) (hoik h))
  · exact hw.trans (congrArg (fun x : Vault => { x with nv := w.nv }) (hpol h))
  · exact hw.trans (congrArg (fun x : Vault => { x with nv := w.nv }) (hser h))
  · exact hw.trans (congrArg (fun x : Vault => { x with nv := w.nv }) (hrev h))

theorem Vault.nv_blow (v : Vault) (f : Nat) (l : List Byte) : (v.blow f l).nv = v.nv := by
  unfold Vault.blow
  split_ifs <;> rfl

/-- A record appended depends on the store alone. -/
theorem Recorded.congr {v v' w : Vault} {area type : Nat} {data : List Byte} (h : Recorded v' w area type data) (hv : v'.nv = v.nv) :
    Recorded v w area type data := by
  have hs : v'.slot = v.slot := by
    funext k
    rw [Vault.slot, hv, Vault.slot]
  have hq : v'.slotSeq = v.slotSeq := by
    funext k
    rw [Vault.slotSeq, hs, Vault.slotSeq]
  have hn : v'.newest = v.newest := by
    funext a
    rw [Vault.newest, hq, Vault.newest]
  unfold Recorded Vault.seq at h
  rwa [hn, hs] at h

theorem bytesLE_one (n : Nat) : bytesLE n 1 = [BitVec.ofNat 8 n] := rfl

theorem nvAppend_frame (d : Dev) (v : Vault) (area type : Nat) (data : List Byte) :
    (nvAppend d v area type data).1 = d.nvBusy 8 ∧ (nvAppend d v area type data).2 = { v with nv := (nvAppend d v area type data).2.nv } := ⟨rfl, rfl⟩

/-! Answers that change nothing else. -/

theorem regsOnly_answer (d : Dev) (l : List Nat) (e ch cmd : Nat) (ph : Phase) (st y : Nat) :
    RegsOnly { d with eng := (d.answer e ch cmd ph st y).eng } (d.answer e ch cmd ph st y) l := ⟨rfl, fun _ _ => rfl⟩

/-- A refusal on the security channel. -/
theorem gives_of_refusedBlock {c : Instr} {s : State} {e cmd op det : Nat} {n : Nat → Nat} {f : List Byte → Nat → Dev → Vault → (Dev × Vault) × Option (Nat × Nat)}
    (hcl : s.dev.clean .shared) (hc : exec c s = s.onV fun d v => d.serveBlockV v e 0x202 cmd n f) (ha : s.dev.Asks e 0x202 cmd op) (hcmd : cmd ≠ 3)
    (hf : f (s.dev.block e op (n op)) op s.dev s.vault = ((s.dev, s.vault), some (13, det))) :
    Gives c s fun u => Answered s.dev u.dev e 0x202 cmd .sent 13 det ∧ u.vault = s.vault ∧
      RegsOnly { s.dev with eng := u.dev.eng } u.dev (if cmd = 3 then [A.SEC_EVT] else []) ∧ (cmd = 3 → bit (u.dev.get R.SEC_EVT.EVT) 5 = true) :=
  gives_of_blockV hcl hc ha hf rfl fun h => ⟨h, rfl, regsOnly_answer _ _ _ _ _ _ _ _, fun h => absurd h hcmd⟩

/-! Fuse writes (R345). -/

theorem fuseWrite_refused {d : Dev} {v : Vault} {f det : Nat} {l : List Byte} (h : v.fuseDetail f = some det) : fuseWrite d v f l = ((d, v), some det) := by
  unfold fuseWrite
  rw [h]

theorem fuseWrite_done {d : Dev} {v : Vault} {f : Nat} {l : List Byte} (h : v.fuseDetail f = none) :
    fuseWrite d v f l = (nvAppend d (v.blow f l) 0 0x12 (bytesLE f 1), none) := by
  unfold fuseWrite
  rw [h]

/-- R345: FUSE_WRITE served. -/
def fuseServed (l : List Byte) (_ : Nat) (d : Dev) (v : Vault) : (Dev × Vault) × Option (Nat × Nat) :=
  match fuseWrite d v (blk l 0 1) (l.drop 16) with
  | (x, none) => (x, some (stOK, 0))
  | (x, some det) => (x, some (stRefused, det))

theorem exec_fuseWrite (e : EngId) (s : State) : exec (.fuseWrite e) s = s.onV fun d v => d.serveBlockV v e 0x202 6 (fun _ => 8) fuseServed := rfl

theorem fuseServed_refused {d : Dev} {v : Vault} {det : Nat} {l : List Byte} (op : Nat) (h : v.fuseDetail (blk l 0 1) = some det) :
    fuseServed l op d v = ((d, v), some (13, det)) := by
  rw [fuseServed, fuseWrite_refused h] <;> rfl

theorem fuseServed_done {d : Dev} {v : Vault} {l : List Byte} (op : Nat) (h : v.fuseDetail (blk l 0 1) = none) :
    fuseServed l op d v = (nvAppend d (v.blow (blk l 0 1) (l.drop 16)) 0 0x12 [BitVec.ofNat 8 (blk l 0 1)], some (0, 0)) := by
  rw [fuseServed, fuseWrite_done h, bytesLE_one]
  generalize nvAppend d (v.blow (blk l 0 1) (l.drop 16)) 0 0x12 [BitVec.ofNat 8 (blk l 0 1)] = r
  rfl

/-! Reset requests (R351). -/

theorem beNat_lt (l : List Byte) : beNat l < 256 ^ l.length := by
  have key : ∀ (l : List Byte) (v n : Nat), v < n → l.foldl (fun v b => v * 256 + b.toNat) v < n * 256 ^ l.length := by
    intro l
    induction l with
    | nil => exact fun v n h => by simpa using h
    | cons b t ih =>
      intro v n h
      have hb := b.isLt
      have h1 := ih (v * 256 + b.toNat) (n * 256) (by omega)
      rwa [Nat.mul_assoc, ← Nat.pow_succ'] at h1
  simpa [beNat] using key l 0 1 (by decide)

theorem Vault.rrCount_putWord (v : Vault) {n : Nat} (h : n < 256 ^ 4) : Vault.rrCount { v with nv := v.nv.putWord 1024 n } = n := by
  rw [Vault.rrCount, Store.read_putWord]
  dsimp only
  omega

/-- R351: RR_CHECK served. -/
def rrServed (l : List Byte) (_ : Nat) (d : Dev) (v : Vault) : (Dev × Vault) × Option (Nat × Nat) :=
  match rrDetail d v l with
  | some x => repV (d.orF R.SEC_EVT.EVT 32) v stRefused x
  | none => repV (d.nvBusy 1) { v with nv := v.nv.putWord 1024 (beNat ((l.drop 3).take 4)) } stOK

theorem exec_rrCheck (e : EngId) (s : State) : exec (.rrCheck e) s = s.onV fun d v => d.serveBlockV v e 0x202 3 (fun _ => 4) rrServed := rfl

theorem rrServed_refused {d : Dev} {v : Vault} {det : Nat} {l : List Byte} (op : Nat) (h : rrDetail d v l = some det) :
    rrServed l op d v = ((d.orF R.SEC_EVT.EVT 32, v), some (13, det)) := by
  rw [rrServed, h] <;> rfl

theorem rrServed_done {d : Dev} {v : Vault} {l : List Byte} (op : Nat) (h : rrDetail d v l = none) :
    rrServed l op d v = ((d.nvBusy 1, { v with nv := v.nv.putWord 1024 (beNat ((l.drop 3).take 4)) }), some (0, 0)) := by
  rw [rrServed, h] <;> rfl

section
variable {d : Dev} {v : Vault} {l key : List Byte}

theorem rrDetail_none (h : d.sec.rrk = none) : rrDetail d v l = some 1 := by
  unfold rrDetail
  rw [h]

theorem rrDetail_some (h : d.sec.rrk = some key) : rrDetail d v l =
    if (hmac384 key (l.take 16)).take 16 ≠ (l.drop 16).take 16 then some 2
    else if beNat ((l.drop 3).take 4) ≤ v.rrCount then some 3
    else if 1 < blk l 1 1 ∨ 31 < blk l 2 1 then some 4
    else none := by
  unfold rrDetail
  rw [h]

end

/-- A refused reset request. -/
theorem gives_of_rrRefused {s : State} {e : EngId} {op det : Nat} (hcl : s.dev.clean .shared) (h : rrDetail s.dev s.vault (s.dev.block e op 4) = some det)
    (ha : s.dev.Asks e 0x202 3 op) : Gives (.rrCheck e) s fun u => Answered s.dev u.dev e 0x202 3 .sent 13 det ∧ u.vault = s.vault ∧
      RegsOnly { s.dev with eng := u.dev.eng } u.dev (if 3 = 3 then [A.SEC_EVT] else []) ∧ (3 = 3 → bit (u.dev.get R.SEC_EVT.EVT) 5 = true) := by
  have hf := rrServed_refused (d := s.dev) op h
  have hevt : bit ((s.dev.orF R.SEC_EVT.EVT 32).get R.SEC_EVT.EVT) 5 = true := by
    rw [Dev.bit_orF _ (Fld.ok_of_ble rfl) _ (by decide), show bit 32 5 = true from rfl, Bool.or_true]
  have hregs : RegsOnly s.dev (s.dev.orF R.SEC_EVT.EVT 32) [A.SEC_EVT] := (RegsOnly.refl _ _).orF 0 rfl
  have he : (s.dev.orF R.SEC_EVT.EVT 32).eng = s.dev.eng := Dev.eng_orF ..
  generalize s.dev.orF R.SEC_EVT.EVT 32 = x at hf hevt hregs he
  refine gives_of_blockV (n := fun _ => 4) hcl (exec_rrCheck e s) ha hf (by rw [Dev.e, he, Dev.e])
    fun h => ⟨h, rfl, ?_, fun _ => hevt⟩
  obtain ⟨r, rfl⟩ := hregs.frame
  exact ⟨rfl, hregs.2⟩

/-! Secrets destroyed (R343). -/

theorem Vault.destroy_due {v : Vault} (h : v.life = 4 ∨ v.life = 5) (hw : v.life ∉ v.wiped) : v.destroy =
    { v with oik := some (List.replicate 32 0xFF), oikDead := true,
             revoked := v.revoked ++ ([2, 3, 4, 5, 6, 7, 9, 10] ++ if v.life = 5 then [0, 1, 8] else []).filter (!v.revoked.contains ·),
             nv := (v.nv.clear 0x2040 0x10000).clear 0x2000 0x2008, wiped := v.wiped ++ [v.life] } := by
  unfold Vault.destroy
  exact if_pos ⟨h, by simpa using hw⟩

theorem Vault.destroy_not_due {v : Vault} (h : v.life < 4 ∨ v.life ∈ v.wiped) : v.destroy = v := by
  unfold Vault.destroy
  refine if_neg fun hc => ?_
  have hw : v.life ∉ v.wiped := by simpa using hc.2
  have := hc.1
  rcases h with h | h
  · omega
  · exact hw h

/-- A slot on the list is revoked, already or now. -/
theorem mem_revoked {l m : List Nat} {j : Nat} (h : j ∈ m) : j ∈ l ++ m.filter (!l.contains ·) := by
  by_cases hj : j ∈ l
  · exact List.mem_append_left _ hj
  · exact List.mem_append_right _ (List.mem_filter.2 ⟨h, by simpa using hj⟩)

theorem Store.byte_clear (s : Store) (lo hi i : Nat) : (s.clear lo hi).byte i = if lo ≤ i ∧ i < hi then 0 else s.byte i := by
  by_cases h : lo ≤ i ∧ i < hi
  · rw [if_pos h]
    exact Tbl.get_filter_out (q := fun a => !decide (lo ≤ a ∧ a < hi)) _ _ (by simp [h])
  · rw [if_neg h]
    exact Tbl.get_filter (q := fun a => !decide (lo ≤ a ∧ a < hi)) _ _ (by rw [decide_eq_false h]; rfl)

/-! Transitions served (R341, R342). -/

/-- R342: from s a transition has been accepted. -/
def Advanced (s u : State) (to_ slot : Nat) : Prop := u.vault = { s.vault with next := some to_, nv := u.vault.nv } ∧
  Recorded s.vault u.vault 0 0x10 (bytesLE s.vault.life 1 ++ bytesLE to_ 1 ++ bytesLE slot 1 ++ bytesLE s.vault.serialNo.toNat 8) ∧
  bit (u.dev.get R.SEC_EVT.EVT) 4 = true ∧ u.dev.sec.rrk = none ∧ u.dev.get R.DBG_STATUS.LEVEL = (if s.vault.life ≤ 1 then 2 else 0) ∧
  u.dev.get R.DBG_STATUS.SLOT = 0 ∧ u.dev.reg A.DBG_HOLD_LO = 0 ∧ u.dev.reg A.DBG_HOLD_HI = 0 ∧
  RegsOnly { s.dev with sec := u.dev.sec, eng := u.dev.eng } u.dev [A.SEC_EVT, A.DBG_STATUS, A.DBG_HOLD_LO, A.DBG_HOLD_HI]

/-- R341: LC_ADVANCE served. -/
def advanceServed (l : List Byte) (_ : Nat) (d : Dev) (v : Vault) : (Dev × Vault) × Option (Nat × Nat) :=
  if v.tokenOk l then
    let (d, v) := lcAdvance d v (blk l 5 1) (blk l 6 1)
    repV d v stOK
  else repV d v stRefused

theorem exec_lcAdvance (e : EngId) (s : State) : exec (.lcAdvance e) s = s.onV fun d v => d.serveBlockV v e 0x202 4 (fun _ => 32) advanceServed := rfl

theorem gives_advance {s : State} {e : EngId} {op : Nat} (hcl : s.dev.clean .shared) (hok : s.vault.tokenOk (s.dev.block e op 32) = true)
    (ha : s.dev.Asks e 0x202 4 op) : Gives (.lcAdvance e) s fun u => Answered s.dev u.dev e 0x202 4 .sent 0 0 ∧
      Advanced s u (blk (s.dev.block e op 32) 5 1) (blk (s.dev.block e op 32) 6 1) := by
  obtain ⟨x, w, h, hw, hrec, hevt, hrrk, hlevel, hslot, hlo, hhi, hregs⟩ := lcAdvance_spec s.dev s.vault (blk (s.dev.block e op 32) 5 1) (blk (s.dev.block e op 32) 6 1)
  have hf : advanceServed (s.dev.block e op 32) op s.dev s.vault = ((x, w), some (0, 0)) := by
    rw [advanceServed, if_pos hok, h]
    rfl
  obtain ⟨r, hx⟩ := hregs.frame
  refine gives_of_blockV (n := fun _ => 32) hcl (exec_lcAdvance e s) ha hf (by rw [Dev.e, hx, Dev.e]) fun h => ⟨h, hw, hrec, hevt, hrrk, hlevel, hslot, hlo, hhi, ?_, hregs.2⟩
  rw [hx]
  rfl

/-- R341: LC_CTRL written over the debug port. -/
def manufactureServed (d : Dev) (v : Vault) : Dev × Vault := if d.get R.DBG_STATUS.LEVEL = 2 then lcCtrl d v .dbg 1 else (d, v)

theorem manufactureServed_done {d : Dev} {v : Vault} (h1 : d.get R.DBG_STATUS.LEVEL = 2) (h2 : v.life = 0) (h3 : (v.key 0).isSome = true) (h4 : v.next = none) :
    manufactureServed d v = lcAdvance d v 1 0 := by
  rw [manufactureServed, if_pos h1, lcCtrl]
  exact if_pos ⟨rfl, rfl, h2, h3, by rw [h4]; rfl⟩

theorem manufactureServed_ignored {d : Dev} {v : Vault} (h : ¬ (d.get R.DBG_STATUS.LEVEL = 2 ∧ v.life = 0 ∧ (v.key 0).isSome = true ∧ v.next = none)) :
    manufactureServed d v = (d, v) := by
  rw [manufactureServed]
  split
  · next h1 =>
    rw [lcCtrl]
    exact if_neg fun hc => h ⟨h1, hc.2.2.1, hc.2.2.2.1, Option.isNone_iff_eq_none.1 hc.2.2.2.2⟩
  · rfl

/-! Rollback (R350). -/

/-- R350: ROLLBACK_SET served. -/
def rollbackServed (op : Nat) (d : Dev) (v : Vault) : (Dev × Vault) × Option (Nat × Nat) :=
  let n := op % 128
  if v.rollback < n ∧ n ≤ 64 ∧ n ≤ d.sec.rollImg ∧ 1 ≤ v.life ∧ v.life ≤ 3 then
    let (d, v) := nvAppend d { v with rollback := n } 0 0x11 (bytesLE v.rollback 1 ++ bytesLE n 1)
    repV d v stOK
  else repV d v stRefused

theorem rollbackServed_done {op : Nat} {d : Dev} {v : Vault}
    (h : v.rollback < op % 128 ∧ op % 128 ≤ 64 ∧ op % 128 ≤ d.sec.rollImg ∧ 1 ≤ v.life ∧ v.life ≤ 3) :
    rollbackServed op d v = (nvAppend d { v with rollback := op % 128 } 0 0x11 (bytesLE v.rollback 1 ++ bytesLE (op % 128) 1), some (0, 0)) := by
  unfold rollbackServed
  dsimp only
  rw [if_pos h]
  generalize nvAppend d { v with rollback := op % 128 } 0 0x11 (bytesLE v.rollback 1 ++ bytesLE (op % 128) 1) = r
  rfl

end Sys2Proof.Machine

open Sys2Proof.Machine

/-- Settles O47: a token, a fuse write and a reset request by the checks of the spec in their order. -/
theorem lifeCycleAndFuses : Obligations.LifeCycleAndFuses := by
  intro e op s hcl d v own advanced mfg t x k sig authorised good b f val reserved allowed fused last n up p cnt mac refused done
  have hgood : good ↔ v.tokenOk t = true := by
    rw [Vault.tokenOk_iff, Vault.TokenGood, ← and_assoc (a := blk t 6 1 ∈ _), ← authorised_iff]
  refine ⟨?mfg, ?notMfg, ?good, ?bad, ?reserved, ?state, ?fused, ?last, ?blown, ?up, ?notUp, ?noKey, ?reset, ?wiped, ?kept⟩
  case mfg =>
    rintro ⟨h1, h2, h3, h4⟩
    obtain ⟨x, w, h, hw, hrec, hevt, hrrk, hlevel, hslot, hlo, hhi, hregs⟩ := lcAdvance_spec d v 1 0
    obtain ⟨r, hx⟩ := hregs.frame
    refine gives_of_onV (c := .lcToManufacture) (f := manufactureServed) rfl ((manufactureServed_done h1 h2 h3 h4).trans h)
      ⟨hw, hrec, hevt, hrrk, hlevel, hslot, hlo, hhi, ?_, hregs.2⟩
    show x = { d with regs := x.regs, sec := x.sec, eng := x.eng }
    rw [hx]
  case notMfg =>
    intro h
    have hexec : exec .lcToManufacture s = s.onV manufactureServed := rfl
    rw [hexec, State.onV, manufactureServed_ignored h]
  case good =>
    intro hg ha
    exact gives_advance hcl (hgood.1 hg) ha
  case bad =>
    intro hg ha
    exact gives_of_refusedBlock (n := fun _ => 32) hcl (exec_lcAdvance e s) ha (by decide) (if_neg (mt hgood.2 hg))
  case reserved =>
    intro h ha
    exact gives_of_refusedBlock (n := fun _ => 8) hcl (exec_fuseWrite e s) ha (by decide) (fuseServed_refused op (v.fuseDetail_reserved f h))
  case state =>
    intro h h' ha
    exact gives_of_refusedBlock (n := fun _ => 8) hcl (exec_fuseWrite e s) ha (by decide) (fuseServed_refused op (v.fuseDetail_state h h'))
  case fused =>
    intro h h' ha
    exact gives_of_refusedBlock (n := fun _ => 8) hcl (exec_fuseWrite e s) ha (by decide) (fuseServed_refused op (Vault.fuseDetail_fused h h'))
  case last =>
    intro h h' hl ha
    exact gives_of_refusedBlock (n := fun _ => 8) hcl (exec_fuseWrite e s) ha (by decide)
      (fuseServed_refused op (Vault.fuseDetail_last h h' ⟨hl.1, hl.2.1, hl.2.2.1, fun j h1 => hl.2.2.2 j h1⟩))
  case blown =>
    intro h h' hl ha
    have hs : fuseServed b op d v = _ := fuseServed_done (d := d) op (Vault.fuseDetail_none h h' fun hl' => hl hl')
    have hf13 : f ≤ 13 ∨ 16 ≤ f := by
      have := Vault.FieldAllowed.not_reserved h
      unfold ReservedField at this
      omega
    have hrec := (recorded_nvAppend (v.blow f val) d 0 (type := 0x12) (data := [BitVec.ofNat 8 f]) (by decide) (show 1 ≤ 44 by decide)).congr (v.nv_blow f val)
    obtain ⟨h1, h2⟩ := nvAppend_frame d (v.blow f val) 0 0x12 [BitVec.ofNat 8 f]
    obtain ⟨hp1, hp2, hp3, hp4⟩ := policyOf_spec (blk val 0 1)
    change fuseServed b op d v = (nvAppend d (v.blow f val) 0 0x12 [BitVec.ofNat 8 f], some (0, 0)) at hs
    generalize nvAppend d (v.blow f val) 0 0x12 [BitVec.ofNat 8 f] = r at hs hrec h1 h2
    obtain ⟨y, w⟩ := r
    obtain rfl : y = d.nvBusy 8 := h1
    obtain ⟨hkeys, hoik, hpol, hser, hrev⟩ := Vault.blown_spec hf13 h2
    exact gives_of_blockV (n := fun _ => 8) hcl (exec_fuseWrite e s) ha hs rfl fun h => ⟨h, hrec, hkeys, hoik,
      fun hf => ⟨_, hp1, hp2, hp3, hp4, hpol hf⟩, hser, hrev⟩
  case up =>
    intro h ha
    have hrec := recorded_nvAppend { v with rollback := n } d 0 (type := 0x11) (data := bytesLE v.rollback 1 ++ bytesLE n 1) (by decide) (by simp)
    obtain ⟨h1, h2⟩ := nvAppend_frame d { v with rollback := n } 0 0x11 (bytesLE v.rollback 1 ++ bytesLE n 1)
    have hf : rollbackServed op d v = _ := rollbackServed_done h
    change rollbackServed op d v = (nvAppend d { v with rollback := n } 0 0x11 (bytesLE v.rollback 1 ++ bytesLE n 1), some (0, 0)) at hf
    generalize nvAppend d { v with rollback := n } 0 0x11 (bytesLE v.rollback 1 ++ bytesLE n 1) = r at hrec h1 h2 hf
    obtain ⟨x, w⟩ := r
    obtain rfl : x = d.nvBusy 8 := h1
    exact gives_of_replyV (c := .rollbackSet e) (f := rollbackServed) rfl ha hf rfl fun h => ⟨h, h2, hrec⟩
  case notUp =>
    intro h ha
    exact gives_of_replyV (c := .rollbackSet e) (f := rollbackServed) (x := d) (w := v) (st := 13) (y := 0) rfl ha (if_neg h) rfl
      fun h => ⟨h, rfl, regsOnly_answer _ _ _ _ _ _ _ _, fun h => absurd h (by decide)⟩
  case noKey =>
    intro h ha
    exact gives_of_rrRefused hcl (rrDetail_none h) ha
  case reset =>
    intro key hk
    have hd := rrDetail_some (v := v) (l := p) hk
    refine ⟨fun hm ha => gives_of_rrRefused hcl (hd.trans (if_pos hm)) ha, fun hm hc ha => ?_, fun hm hc hp ha => ?_, fun hm hc h1 h2 ha => ?_⟩
    · rw [if_neg (not_not.2 hm), if_pos hc] at hd
      exact gives_of_rrRefused hcl hd ha
    · rw [if_neg (not_not.2 hm), if_neg (Nat.not_le.2 hc), if_pos hp] at hd
      exact gives_of_rrRefused hcl hd ha
    · rw [if_neg (not_not.2 hm), if_neg (Nat.not_le.2 hc), if_neg (by omega)] at hd
      have hlt : cnt < 256 ^ 4 := Nat.lt_of_lt_of_le (beNat_lt _) (Nat.pow_le_pow_right (by decide) (List.length_take_le _ _))
      have hr := v.rrCount_putWord hlt
      have hread : ∀ w, w ≠ 1024 → (v.nv.putWord 1024 cnt).read w = v.nv.read w := fun w hw => Store.read_putWord_ne _ _ (Ne.symm hw)
      have hs := rrServed_done op hd
      change rrServed p op d v = ((d.nvBusy 1, { v with nv := v.nv.putWord 1024 cnt }), some (0, 0)) at hs
      generalize v.nv.putWord 1024 cnt = m at hr hread hs
      exact gives_of_blockV (n := fun _ => 4) hcl (exec_rrCheck e s) ha hs rfl fun h => ⟨h, rfl, hr, rfl, hread⟩
  case wiped =>
    intro h hw
    have hf : (d, v.destroy) = (d, _) := congrArg (Prod.mk d) (Vault.destroy_due h hw)
    refine gives_of_onV (c := .secretDestruction) (f := fun d v => (d, v.destroy)) rfl hf ⟨rfl, rfl, rfl, rfl, List.mem_append_right _ (.head _),
      fun j hj => mem_revoked (List.mem_append_left _ ?_), fun h5 j hj => mem_revoked ?_, fun i => ?_⟩
    · have hj' : (2 ≤ j ∧ j ≤ 7) ∨ j = 9 ∨ j = 10 := hj
      simp only [List.mem_cons, List.not_mem_nil, or_false]
      omega
    · rw [if_pos h5]
      simp only [List.cons_append, List.nil_append, List.mem_cons, List.not_mem_nil, or_false]
      omega
    · refine (Store.byte_clear ..).trans ?_
      rw [Store.byte_clear]
      split_ifs <;> first | rfl | omega
  case kept =>
    intro h
    have hexec : exec .secretDestruction s = s.onV fun d v => (d, v.destroy) := rfl
    rw [hexec, State.onV, Vault.destroy_not_due h]
end

section
/-! Frames in the cells: taking cells, writing them, linking a frame, and reading it back from clean cells (spec/06, R157 to R166). -/

open Sys2Proof

namespace Sys2Proof.Machine

namespace FabStep
variable {d d' : Dev}

theorem qp (h : FabStep d d') (k : Nat) : d'.qp k = d.qp k := by obtain ⟨⟨_, _, _, _, _, _, _, _, _, rfl⟩, -⟩ := h; rfl
theorem host (h : FabStep d d') : d'.host = d.host := by obtain ⟨⟨_, _, _, _, _, _, _, _, _, rfl⟩, -⟩ := h; rfl

theorem bermUse_addr (c : Nat) : 0x80000 ≤ (bermUse c).addr ∧ (bermUse c).addr < 0x1000000 := by
  unfold bermUse
  split <;> exact ⟨Nat.le_of_ble_eq_true rfl, Nat.le_of_ble_eq_true rfl⟩

theorem allocCell (h : FabStep d d') {c cell : Nat} {e : Dev} (he : d'.allocCell c = some (cell, e)) : FabStep d e := by
  unfold Dev.allocCell at he
  split at he
  · cases he
  · split at he
    · cases he
    · next n x _ =>
      cases he
      refine syncPool (ite ?_ (set ?_ (.inr (bermUse_addr _)))) <;>
        exact ((h.trans (of_regs (d' := { d' with fab := _ }) ⟨_, _, _, _, _, _, _, _, rfl⟩))).set (.inr ⟨Nat.le_of_ble_eq_true rfl, Nat.le_of_ble_eq_true rfl⟩)

theorem allocCells (h : FabStep d d') {c n : Nat} : FabStep d (d'.allocCells c n).2 := by
  induction n generalizing d' with
  | zero => exact h
  | succ n ih =>
    rw [Dev.allocCells]
    split
    · exact h
    · next he => exact ih (h.allocCell he)

theorem fillCells (h : FabStep d d') {cells : List Nat} {l : List Byte} : FabStep d (d'.fillCells cells l) := by
  induction cells generalizing d' l with
  | nil => exact h
  | cons c t ih =>
    rw [Dev.fillCells]
    refine ih ?_
    have hw : ∀ (ws : List Nat) (y : Dev × Nat), FabStep d y.1 →
        FabStep d (ws.foldl (fun (x : Dev × Nat) w => (x.1.putWord .cell 0 0 x.2 w, x.2 + 1)) y).1 := by
      intro ws
      induction ws with
      | nil => exact fun _ hy => hy
      | cons w ws ih => exact fun y hy => ih _ (by dsimp only; exact hy.putWord)
    exact hw _ (d', 32 * c) h

theorem storeFrame (h : FabStep d d') {c : Nat} {l : List Byte} : FabStep d (d'.storeFrame c l).2 := by
  unfold Dev.storeFrame
  dsimp only
  split
  · exact h.allocCells.freeCells
  · exact h.allocCells.fillCells

theorem linkCells (h : FabStep d d') {sof done : Bool} {l : List Nat} : FabStep d (d'.linkCells sof done l) := by
  induction l generalizing d' sof with
  | nil => exact h
  | cons c t ih =>
    cases t with
    | nil => exact h.setLink
    | cons n t => exact ih h.setLink

theorem setDesc (h : FabStep d d') {c v : Nat} : FabStep d (d'.setDesc c v) := h.onF

theorem draw (h : FabStep d d') : FabStep d d'.draw.2 := h.trans (of_regs ⟨_, _, _, _, _, _, _, _, rfl⟩)

theorem linkHead (h : FabStep d d') {x : Ctx} {a b n : Nat} : FabStep d (d'.linkHead x a b n).1 := by
  unfold Dev.linkHead
  split
  · exact h
  · exact h.setLink

theorem linkTail (h : FabStep d d') {x : Ctx} {a b n : Nat} : FabStep d (d'.linkTail x a b n).1 := by
  unfold Dev.linkTail
  split
  · exact h
  · exact h.setLink

theorem joinFlow (h : FabStep d d') {f len : Nat} {x : Ctx} {spill : Bool} {cells : List Nat} : FabStep d (d'.joinFlow f x spill cells len) := by
  unfold Dev.joinFlow
  dsimp only
  split
  · split
    · exact h.onF.bump.bump.putCtx
    · exact h.onF.bump.putCtx
  · exact h.linkTail.putCtx

theorem getWords (h : FabStep d d') {sp : Space} {w n : Nat} : FabStep d (d'.getWords sp 0 0 w n).2.2 := by
  induction n with
  | zero => exact h
  | succ n ih =>
    rw [Dev.getWords]
    dsimp only
    exact ih.readWord

theorem getBytes (h : FabStep d d') {sp : Space} {a n : Nat} : FabStep d (d'.getBytes sp 0 0 a n).2.2 := by
  unfold Dev.getBytes
  split
  · exact h
  · exact h.getWords

theorem frameData (h : FabStep d d') {cells : List Nat} {n : Nat} : FabStep d (d'.frameData cells n).2.2 := by
  induction cells generalizing d' n with
  | nil => exact h
  | cons c t ih => exact ih h.getBytes

theorem unhold (h : FabStep d d') {c : Nat} : FabStep d (d'.unhold c) := h.onF

end FabStep

/-- R174, R185: no admission verdict has a drop cause beyond those of the counters. -/
theorem Dev.barredPath_cause {d : Dev} {f c : Nat} {q : Option Nat} (h : d.barredPath f = some (c, q)) : c ≤ 256 := by
  unfold Dev.barredPath at h
  split at h
  · cases h; decide
  · split_ifs at h <;> cases h <;> decide

theorem Dev.fate_cause {d : Dev} {f n c : Nat} {x : Ctx} {q : Option Nat} (h : d.fate f x n = .drop c q) : c ≤ 256 := by
  unfold Dev.fate at h
  split at h
  · next hb =>
    cases h
    exact Dev.barredPath_cause hb
  · split_ifs at h <;> cases h <;> decide

theorem FabStep.enqueue (d : Dev) (f : Nat) (hd : Bool) (body : List Byte) : FabStep d (d.enqueue f hd body).1 := by
  have h1 := (FabStep.refl d).ctx (f := f)
  unfold Dev.enqueue
  split
  · next he => rw [he] at h1; exact h1
  · next he =>
    rw [he] at h1
    extract_lets l finish
    have hfin : ∀ (y : Dev) b, FabStep d y → FabStep d (finish y b).1 := by
      intro y b hy
      have h2 := hy.storeFrame (c := clEng) (l := l)
      simp only [finish]
      split
      · next hs => rw [hs] at h2; exact h2
      · next hs =>
        rw [hs] at h2
        split
        · exact h2.draw.linkCells.setDesc.linkHead.putCtx
        · exact h2.draw.linkCells.setDesc.joinFlow
    clear_value finish
    split
    · exact h1
    · split
      · next hb =>
        refine h1.dropFrame ?_
        split at hb
        · exact Dev.barredPath_cause hb
        · cases hb
      · split
        · exact hfin _ _ h1
        · split
          · next hf => exact h1.dropFrame (Dev.fate_cause hf)
          · exact hfin _ _ h1

/-! Reads of clean words. -/

section
variable {d : Dev} {sp : Space}

theorem Dev.getWords_clean (h : d.clean sp) (c e w n : Nat) : d.getWords sp c e w n = ((d.getWords sp c e w n).1, false, d) := by
  induction n with
  | zero => rfl
  | succ n ih =>
    rw [Dev.getWords, ih]
    dsimp only
    rw [Dev.readWord_clean _ _ _ _ _ (h _)]
    rfl

theorem Dev.getBytes_clean (h : d.clean sp) (c e a n : Nat) : d.getBytes sp c e a n = ((d.getBytes sp c e a n).1, false, d) := by
  unfold Dev.getBytes
  split
  · rfl
  · rw [Dev.getWords_clean h]

theorem Dev.length_getWords (d : Dev) (sp : Space) (c e w n : Nat) : (d.getWords sp c e w n).1.length = 8 * n := by
  induction n with
  | zero => rfl
  | succ n ih =>
    rw [Dev.getWords]
    dsimp only
    rw [List.length_append, ih, length_bytesLE]
    omega

theorem Dev.length_getBytes (d : Dev) (sp : Space) (c e a n : Nat) : (d.getBytes sp c e a n).1.length = n := by
  unfold Dev.getBytes
  split
  · next h => exact h.symm
  · dsimp only
    rw [List.length_take, List.length_drop, Dev.length_getWords]
    omega

theorem Dev.frameData_clean (h : d.clean .cell) (cells : List Nat) (n : Nat) : d.frameData cells n = ((d.frameData cells n).1, false, d) := by
  induction cells generalizing n with
  | nil => rfl
  | cons c t ih =>
    rw [Dev.frameData, Dev.getBytes_clean h]
    dsimp only
    rw [ih]
    rfl

theorem Dev.length_frameData (d : Dev) (cells : List Nat) (n : Nat) : (d.frameData cells n).1.length ≤ n := by
  induction cells generalizing d n with
  | nil => exact Nat.zero_le n
  | cons c t ih =>
    rw [Dev.frameData]
    dsimp only
    rw [List.length_append, Dev.length_getBytes]
    refine (Nat.add_le_add_left (ih _ _) _).trans ?_
    omega

end

end Sys2Proof.Machine
end

section
/-! The DMA queue pairs of the host: settings, deliveries, injections and signals (spec/15, R386 to R391). -/

open Sys2Proof

namespace Sys2Proof.Machine

theorem tidy_Q_CTRL : Row.Q_CTRL.tidy := by decide

/-- Two fields at different offsets of one block of a repeated register, or with no bit in common. -/
theorem Fld.apart_of_row {f g : Fld} {k i j : Nat} (hf : f.addr = i + k) (hg : g.addr = j + k)
    (h : (!Nat.beq i j || Nat.blt g.hi f.lo || Nat.blt f.hi g.lo) = true) : f.apart g :=
  Fld.apart_of_offset (hf.trans (Nat.add_comm ..)) (hg.trans (Nat.add_comm ..)) h

/-- A field written leaves another one; both facts in one, as simp discharges them. -/
theorem Dev.get_set_other (d : Dev) {f g : Fld} (v : Nat) (h : f.ok ∧ f.apart g) : (d.set f v).get g = d.get g := Dev.get_set_apart d v h.1 h.2

theorem Dev.on_set_other (d : Dev) {f g : Fld} (v : Nat) (h : f.ok ∧ f.apart g) : (d.set f v).on g = d.on g := by
  rw [Dev.on, Dev.get_set_other d v h, Dev.on]

theorem Dev.get_inc_other (d : Dev) {f g : Fld} (n : Nat) (h : f.ok ∧ f.apart g) : (d.inc f n).get g = d.get g := Dev.get_set_other d _ h

/-- Stated so that the kernel is not asked to compare the two parts. -/
theorem Dev.get_onQ_eq (d : Dev) (q : Nat) (f : QSt → QSt) (fl : Fld) : (d.onQ q f).get fl = d.get fl := by rw [Dev.get, Dev.reg_onQ, Dev.get]

theorem Dev.on_onQ_eq (d : Dev) (q : Nat) (f : QSt → QSt) (fl : Fld) : (d.onQ q f).on fl = d.on fl := by rw [Dev.on, Dev.get_onQ_eq, Dev.on]

theorem Dev.qp_set (d : Dev) (f : Fld) (v k : Nat) : (d.set f v).qp k = d.qp k := by rw [Dev.qp, Dev.q_set, Dev.qp]

/-! A queue stopped (R391). -/

/-- The frames of a list held for a queue dropped. -/
def Dev.dropHeld (d : Dev) (l : List Nat) : Dev := l.foldl (fun d h => (d.unhold h).freeCells (d.frameCells h 64)) d

theorem FabStep.dropHeld (d : Dev) (l : List Nat) : FabStep d (d.dropHeld l) :=
  FabStep.foldl (fun x _ => ((FabStep.refl x).unhold).freeCells) l d

/-- The registers of the host's rings are none of the fabric's. -/
theorem FabStep.ring (k : Nat) {q i : Nat} (hq : q < 64) (h : k = i + q * 64) (hi : (Nat.ble 0x41000 i && Nat.blt i 0x41040) = true) :
    k ≠ 0x33400 ∧ k < 0x80000 ∨ 0x1000000 ≤ k := by
  rw [Bool.and_eq_true, Nat.ble_eq, Nat.blt_eq] at hi
  omega

section
variable (d : Dev) (q : Nat)

theorem Dev.on_set_zero (f : Fld) (h : f.ok) : (d.set f 0).on f = false := by
  rw [Dev.on_set_same _ _ _ h, Nat.zero_mod]
  rfl

theorem Dev.get_set_zero (f : Fld) (h : f.ok) : (d.set f 0).get f = 0 := by rw [Dev.get_set_same _ _ _ h, Nat.zero_mod]

/-- The ring indices, STOPPED, SIGNAL and EN of queue q cleared. -/
def Dev.ringsCleared : Dev :=
  ((((((d.set (R.Q_SQ_TAIL.IDX q) 0).set (R.Q_SQ_HEAD.IDX q) 0).set (R.Q_CQ_TAIL.IDX q) 0).set (R.Q_CQ_HEAD.IDX q) 0).set (R.Q_STATUS.STOPPED q) 0).set
    (R.Q_STATUS.SIGNAL q) 0).set (R.Q_CTRL.EN q) 0

/-- What the frames held for queue q leave in DROPS. -/
def Dev.heldCounted : Dev := ((d.dropHeld (d.qp q).hold).inc (R.Q_STATUS.DROPS q) (d.qp q).hold.length).onQ q fun _ => QSt.reset

theorem Dev.stopQueue_eq : d.stopQueue q = (d.heldCounted q).ringsCleared q := rfl

theorem Dev.ringsCleared_cleared : (d.ringsCleared q).on (R.Q_CTRL.EN q) = false ∧ (d.ringsCleared q).get (R.Q_SQ_TAIL.IDX q) = 0 ∧
    (d.ringsCleared q).get (R.Q_SQ_HEAD.IDX q) = 0 ∧ (d.ringsCleared q).get (R.Q_CQ_TAIL.IDX q) = 0 ∧ (d.ringsCleared q).get (R.Q_CQ_HEAD.IDX q) = 0 ∧
    (d.ringsCleared q).on (R.Q_STATUS.STOPPED q) = false ∧ (d.ringsCleared q).on (R.Q_STATUS.SIGNAL q) = false := by
  unfold Dev.ringsCleared
  refine ⟨Dev.on_set_zero _ _ (Fld.ok_of_ble rfl), ?_, ?_, ?_, ?_, ?_, ?_⟩
  all_goals simp (disch := exact ⟨Fld.ok_of_ble rfl, Fld.apart_of_row rfl rfl rfl⟩) only [Dev.get_set_other, Dev.on_set_other]
  · exact Dev.get_set_zero _ _ (Fld.ok_of_ble rfl)
  · exact Dev.get_set_zero _ _ (Fld.ok_of_ble rfl)
  · exact Dev.get_set_zero _ _ (Fld.ok_of_ble rfl)
  · exact Dev.get_set_zero _ _ (Fld.ok_of_ble rfl)
  · exact Dev.on_set_zero _ _ (Fld.ok_of_ble rfl)
  · exact Dev.on_set_zero _ _ (Fld.ok_of_ble rfl)

theorem Dev.ringsCleared_kept : (d.ringsCleared q).get (R.Q_STATUS.DROPS q) = d.get (R.Q_STATUS.DROPS q) ∧
    (d.ringsCleared q).on (R.Q_CTRL.DIR q) = d.on (R.Q_CTRL.DIR q) ∧ (d.ringsCleared q).get (R.Q_CTRL.HOLD_LIM q) = d.get (R.Q_CTRL.HOLD_LIM q) := by
  unfold Dev.ringsCleared
  refine ⟨?_, ?_, ?_⟩ <;>
    simp (disch := exact ⟨Fld.ok_of_ble rfl, Fld.apart_of_row rfl rfl rfl⟩) only [Dev.get_set_other, Dev.on_set_other]

theorem Dev.qp_ringsCleared (k : Nat) : (d.ringsCleared q).qp k = d.qp k := by
  unfold Dev.ringsCleared
  rw [Dev.qp_set, Dev.qp_set, Dev.qp_set, Dev.qp_set, Dev.qp_set, Dev.qp_set, Dev.qp_set]

theorem Dev.heldCounted_spec (hq : q < 64) : (d.heldCounted q).get (R.Q_STATUS.DROPS q) =
      min 65535 (d.get (R.Q_STATUS.DROPS q) + (d.qp q).hold.length) ∧ (d.heldCounted q).on (R.Q_CTRL.DIR q) = d.on (R.Q_CTRL.DIR q) ∧
    (d.heldCounted q).get (R.Q_CTRL.HOLD_LIM q) = d.get (R.Q_CTRL.HOLD_LIM q) ∧ (d.heldCounted q).qp q = {} := by
  have hf := FabStep.dropHeld d (d.qp q).hold
  unfold Dev.heldCounted
  refine ⟨?_, ?_, ?_, Dev.qp_onQ_same ..⟩
  · rw [Dev.get_onQ_eq, Dev.get_inc_same _ _ _ (Fld.ok_of_ble rfl), hf.get (FabStep.ring _ hq rfl rfl), show (R.Q_STATUS.DROPS q).width = 16 from rfl]
    norm_num
  · rw [Dev.on_onQ_eq, Dev.on, Dev.get_inc_other _ _ ⟨Fld.ok_of_ble rfl, Fld.apart_of_row rfl rfl rfl⟩]
    exact hf.on (FabStep.ring _ hq rfl rfl)
  · rw [Dev.get_onQ_eq, Dev.get_inc_other _ _ ⟨Fld.ok_of_ble rfl, Fld.apart_of_row rfl rfl rfl⟩]
    exact hf.get (FabStep.ring _ hq rfl rfl)

end

/-! Completions (R386, R389). -/

/-- The bytes of a completion as its fields lie in it. -/
theorem Cpl.bytes_spec (c : Cpl) (b : Bool) : (c.bytes b).length = 32 ∧ blk (c.bytes b) 0 4 = c.cookie % 2 ^ 32 ∧ blk (c.bytes b) 4 2 = c.len % 2 ^ 16 ∧
    blk (c.bytes b) 6 1 = c.status % 2 ^ 8 ∧ blk (c.bytes b) 7 1 = (b2n b + 2 * b2n c.poison + 4 * b2n c.trunc + 8 * b2n c.stepped) % 2 ^ 8 ∧
    blk (c.bytes b) 16 1 = c.reason % 2 ^ 8 ∧ blk (c.bytes b) 17 1 = c.port % 2 ^ 8 := by
  have hb : c.bytes b = bytesLE c.cookie 4 ++ (bytesLE c.len 2 ++ (bytesLE c.status 1 ++
      (bytesLE (b2n b + 2 * b2n c.poison + 4 * b2n c.trunc + 8 * b2n c.stepped) 1 ++ (bytesLE c.time 8 ++ (bytesLE c.reason 1 ++ (bytesLE c.port 1 ++
        (bytesLE 0 2 ++ (bytesLE c.hit 4 ++ bytesLE 0 8)))))))) := by simp only [Cpl.bytes, List.append_assoc]
  have hfirst : ∀ (v n : Nat) (m : List Byte), blk (bytesLE v n ++ m) 0 n = v % 256 ^ n := fun v n m => by
    rw [blk_append_left (by rw [length_bytesLE, Nat.zero_add]), blk_bytesLE]
  have hskip : ∀ (v n j k : Nat) (m : List Byte), blk (bytesLE v n ++ m) (n + j) k = blk m j k := fun v n j k m => blk_append_add (length_bytesLE ..)
  rw [hb]
  refine ⟨by simp only [List.length_append, length_bytesLE], hfirst .., ?_, ?_, ?_, ?_, ?_⟩
  · exact (hskip _ 4 0 2 _).trans (hfirst ..)
  · exact (hskip _ 4 2 1 _).trans ((hskip _ 2 0 1 _).trans (hfirst ..))
  · exact (hskip _ 4 3 1 _).trans ((hskip _ 2 1 1 _).trans ((hskip _ 1 0 1 _).trans (hfirst ..)))
  · exact (hskip _ 4 12 1 _).trans ((hskip _ 2 10 1 _).trans ((hskip _ 1 9 1 _).trans ((hskip _ 1 8 1 _).trans ((hskip _ 8 0 1 _).trans (hfirst ..)))))
  · exact (hskip _ 4 13 1 _).trans ((hskip _ 2 11 1 _).trans ((hskip _ 1 10 1 _).trans ((hskip _ 1 9 1 _).trans ((hskip _ 8 1 1 _).trans
      ((hskip _ 1 0 1 _).trans (hfirst ..))))))

section
variable (d : Dev) (q : Nat)

theorem Dev.signalQueue_spec : (d.signalQueue q).on (R.Q_STATUS.SIGNAL q) = true ∧ ((d.signalQueue q).qp q) = { d.qp q with u := 0, timer := false } ∧
    (∀ f : Fld, (R.Q_STATUS.SIGNAL q).apart f → (d.signalQueue q).get f = d.get f) ∧ (d.signalQueue q).host = d.host ∧
    (d.signalQueue q).fab = d.fab ∧ (d.signalQueue q).cellS = d.cellS := by
  unfold Dev.signalQueue
  refine ⟨?_, ?_, fun f hf => ?_, ?_, ?_, ?_⟩
  · rw [Dev.on_onQ_eq, Dev.on_set_same _ _ _ (Fld.ok_of_ble rfl)]
    rfl
  · rw [Dev.qp_onQ_same, Dev.qp_set]
  · rw [Dev.get_onQ_eq, Dev.get_set_apart _ _ (Fld.ok_of_ble rfl) hf]
  · rw [Dev.host_onQ, Dev.host_set]
  · rw [Dev.fab_onQ, Dev.fab_set]
  · rw [Dev.cellS_onQ, Dev.cellS_set]

theorem Dev.countDone_eq : d.countDone q = if d.get (R.Q_MOD.COUNT q) ≤ (d.qp q).u + 1 then
    (d.onQ q fun s => { s with u := (d.qp q).u + 1, timer := true }).signalQueue q else d.onQ q fun s => { s with u := (d.qp q).u + 1, timer := true } := rfl

theorem Dev.countDone_spec : (d.get (R.Q_MOD.COUNT q) ≤ (d.qp q).u + 1 → (d.countDone q).on (R.Q_STATUS.SIGNAL q) = true ∧
      (d.countDone q).qp q = { d.qp q with u := 0, timer := false }) ∧
    ((d.qp q).u + 1 < d.get (R.Q_MOD.COUNT q) → (d.countDone q).on (R.Q_STATUS.SIGNAL q) = d.on (R.Q_STATUS.SIGNAL q) ∧
      (d.countDone q).qp q = { d.qp q with u := (d.qp q).u + 1, timer := true }) ∧
    (∀ f : Fld, (R.Q_STATUS.SIGNAL q).apart f → (d.countDone q).get f = d.get f) ∧ (d.countDone q).host = d.host ∧
    (d.countDone q).fab = d.fab ∧ (d.countDone q).cellS = d.cellS := by
  have hq : (d.onQ q fun s => { s with u := (d.qp q).u + 1, timer := true }).qp q = { d.qp q with u := (d.qp q).u + 1, timer := true } := Dev.qp_onQ_same ..
  obtain ⟨hon, hqp, hget, hhost, hfab, hcell⟩ := (d.onQ q fun s => { s with u := (d.qp q).u + 1, timer := true }).signalQueue_spec q
  rw [Dev.countDone_eq]
  split
  · next h => exact ⟨fun _ => ⟨hon, hqp.trans (by rw [hq])⟩, fun h' => absurd h (Nat.not_le.2 h'), fun f hf => (hget f hf).trans (Dev.get_onQ_eq ..), hhost, hfab, hcell⟩
  · next h => exact ⟨fun h' => absurd h' h, fun _ => ⟨Dev.on_onQ_eq .., hq⟩, fun f _ => Dev.get_onQ_eq .., rfl, rfl, rfl⟩

end

/-- Queue pair q of x stands as that of d: its registers, its count toward a signal and its lap. -/
structure RingSame (d x : Dev) (q : Nat) : Prop where
  reg : ∀ a, 0x41000 + q * 64 ≤ a → a < 0x41040 + q * 64 → x.reg a = d.reg a
  u : (x.qp q).u = (d.qp q).u
  lap : (x.qp q).lap = (d.qp q).lap

theorem RingSame.get {d x : Dev} {q : Nat} (h : RingSame d x q) {f : Fld} {i : Nat} (hf : f.addr = i + q * 64)
    (hi : (Nat.ble 0x41000 i && Nat.blt i 0x41040) = true) : x.get f = d.get f := by
  rw [Bool.and_eq_true, Nat.ble_eq, Nat.blt_eq] at hi
  rw [Dev.get, h.reg _ (by omega) (by omega), Dev.get]

theorem RingSame.refl (d : Dev) (q : Nat) : RingSame d d q := ⟨fun _ _ _ => rfl, rfl, rfl⟩

theorem RingSame.of_fab {d x : Dev} {q : Nat} (hq : q < 64) (h : FabStep d x) : RingSame d x q :=
  ⟨fun a ha hb => h.reg (by omega), by rw [h.qp], by rw [h.qp]⟩

section
variable (d : Dev) (q : Nat) (c : Cpl) (wrs : List (Nat × List Byte))

/-- The rings advance and the completion is due to be written: all of a completion but its count toward a signal. -/
def Dev.advanced : Dev :=
  (((d.onHost fun h => { h with wrs := wrs ++ [(d.reg (A.Q_CQ_BASE_HI q) * 2 ^ 32 + d.reg (A.Q_CQ_BASE_LO q) + 32 * d.get (R.Q_CQ_TAIL.IDX q),
      c.bytes ((d.qp q).lap % 2 == 0))] }).set (R.Q_SQ_HEAD.IDX q) ((d.get (R.Q_SQ_HEAD.IDX q) + 1) % d.sqLen q)).set (R.Q_CQ_TAIL.IDX q)
    ((d.get (R.Q_CQ_TAIL.IDX q) + 1) % d.cqLen q)).onQ q
    fun s => { s with lap := if (d.get (R.Q_CQ_TAIL.IDX q) + 1) % d.cqLen q = 0 then s.lap + 1 else s.lap }

theorem Dev.get_onHost_eq (f : HostSt → HostSt) (fl : Fld) : (d.onHost f).get fl = d.get fl := by rw [Dev.get, Dev.reg_onHost, Dev.get]

theorem Dev.complete_eq : d.complete q c wrs = (d.advanced q c wrs).countDone q := by
  unfold Dev.complete Dev.advanced Dev.sqLen Dev.cqLen
  dsimp only
  rw [Dev.get_set_other _ _ ⟨Fld.ok_of_ble rfl, Fld.apart_of_row rfl rfl rfl⟩, Dev.get_onHost_eq, Dev.get_onHost_eq, Dev.get_onHost_eq]

theorem Dev.advanced_spec (hs : d.get (R.Q_CTRL.SQ_SIZE q) ≤ 12) (hc : d.get (R.Q_CTRL.CQ_SIZE q) ≤ 12) :
    (d.advanced q c wrs).get (R.Q_SQ_HEAD.IDX q) = (d.get (R.Q_SQ_HEAD.IDX q) + 1) % d.sqLen q ∧
    (d.advanced q c wrs).get (R.Q_CQ_TAIL.IDX q) = (d.get (R.Q_CQ_TAIL.IDX q) + 1) % d.cqLen q := by
  have hlt : ∀ (n k : Nat), k ≤ 12 → n % 2 ^ k % 2 ^ 12 = n % 2 ^ k := fun n k hk =>
    Nat.mod_eq_of_lt (Nat.lt_of_lt_of_le (Nat.mod_lt _ (Nat.two_pow_pos k)) (Nat.pow_le_pow_right (by decide) hk))
  unfold Dev.advanced
  constructor
  · rw [Dev.get_onQ_eq, Dev.get_set_other _ _ ⟨Fld.ok_of_ble rfl, Fld.apart_of_row rfl rfl rfl⟩, Dev.get_set_same _ _ _ (Fld.ok_of_ble rfl)]
    exact hlt _ _ hs
  · rw [Dev.get_onQ_eq, Dev.get_set_same _ _ _ (Fld.ok_of_ble rfl)]
    exact hlt _ _ hc

theorem Dev.advanced_kept : (d.advanced q c wrs).host.wrs = wrs ++ [(d.reg (A.Q_CQ_BASE_HI q) * 2 ^ 32 + d.reg (A.Q_CQ_BASE_LO q) +
      32 * d.get (R.Q_CQ_TAIL.IDX q), c.bytes ((d.qp q).lap % 2 == 0))] ∧
    (d.advanced q c wrs).qp q = { d.qp q with lap := if (d.get (R.Q_CQ_TAIL.IDX q) + 1) % d.cqLen q = 0 then (d.qp q).lap + 1 else (d.qp q).lap } ∧
    (d.advanced q c wrs).get (R.Q_MOD.COUNT q) = d.get (R.Q_MOD.COUNT q) ∧ (d.advanced q c wrs).on (R.Q_STATUS.SIGNAL q) = d.on (R.Q_STATUS.SIGNAL q) ∧
    (d.advanced q c wrs).fab = d.fab ∧ (d.advanced q c wrs).cellS = d.cellS := by
  unfold Dev.advanced
  refine ⟨?_, ?_, ?_, ?_, ?_, ?_⟩
  · rw [Dev.host_onQ, Dev.host_set, Dev.host_set, Dev.onHost]
  · rw [Dev.qp_onQ_same, Dev.qp_set, Dev.qp_set, Dev.qp, Dev.q_onHost, Dev.qp]
  · rw [Dev.get_onQ_eq, Dev.get_set_other _ _ ⟨Fld.ok_of_ble rfl, Fld.apart_of_row rfl rfl rfl⟩,
      Dev.get_set_other _ _ ⟨Fld.ok_of_ble rfl, Fld.apart_of_row rfl rfl rfl⟩, Dev.get_onHost_eq]
  · rw [Dev.on_onQ_eq, Dev.on_set_other _ _ ⟨Fld.ok_of_ble rfl, Fld.apart_of_row rfl rfl rfl⟩,
      Dev.on_set_other _ _ ⟨Fld.ok_of_ble rfl, Fld.apart_of_row rfl rfl rfl⟩, Dev.on, Dev.get_onHost_eq, Dev.on]
  · rw [Dev.fab_onQ, Dev.fab_set, Dev.fab_set, Dev.fab_onHost]
  · rw [Dev.cellS_onQ, Dev.cellS_set, Dev.cellS_set, Dev.cellS_onHost]

/-- What a completion always leaves. -/
theorem Dev.complete_keeps : ((d.complete q c wrs).qp q).hold = (d.qp q).hold ∧ (d.complete q c wrs).fab = d.fab ∧ (d.complete q c wrs).cellS = d.cellS := by
  obtain ⟨-, hqp, -, -, hfab, hcell⟩ := d.advanced_kept q c wrs
  obtain ⟨hsig, hcnt, -, -, hfab', hcell'⟩ := (d.advanced q c wrs).countDone_spec q
  rw [Dev.complete_eq]
  refine ⟨?_, hfab'.trans hfab, hcell'.trans hcell⟩
  rcases Nat.lt_or_ge ((d.advanced q c wrs).qp q).u.succ ((d.advanced q c wrs).get (R.Q_MOD.COUNT q)) with h | h
  · rw [(hcnt h).2, hqp]
  · rw [(hsig h).2, hqp]

end

/-- R386, R389: queue q of a part whose ring stands as that of d completes. -/
theorem RingSame.complete {d x : Dev} {q : Nat} (h : RingSame d x q) (c : Cpl) (wrs : List (Nat × List Byte))
    (hs : d.get (R.Q_CTRL.SQ_SIZE q) ≤ 12) (hc : d.get (R.Q_CTRL.CQ_SIZE q) ≤ 12) :
    (x.complete q c wrs).host.wrs = wrs ++ [(d.reg (A.Q_CQ_BASE_HI q) * 2 ^ 32 + d.reg (A.Q_CQ_BASE_LO q) + 32 * d.get (R.Q_CQ_TAIL.IDX q),
      c.bytes ((d.qp q).lap % 2 == 0))] ∧
    (x.complete q c wrs).get (R.Q_SQ_HEAD.IDX q) = (d.get (R.Q_SQ_HEAD.IDX q) + 1) % 2 ^ d.get (R.Q_CTRL.SQ_SIZE q) ∧
    (x.complete q c wrs).get (R.Q_CQ_TAIL.IDX q) = (d.get (R.Q_CQ_TAIL.IDX q) + 1) % 2 ^ d.get (R.Q_CTRL.CQ_SIZE q) ∧
    (d.get (R.Q_MOD.COUNT q) ≤ (d.qp q).u + 1 → (x.complete q c wrs).on (R.Q_STATUS.SIGNAL q) = true ∧ ((x.complete q c wrs).qp q).u = 0 ∧
      ((x.complete q c wrs).qp q).timer = false) ∧
    ((d.qp q).u + 1 < d.get (R.Q_MOD.COUNT q) → (x.complete q c wrs).on (R.Q_STATUS.SIGNAL q) = d.on (R.Q_STATUS.SIGNAL q) ∧
      ((x.complete q c wrs).qp q).u = (d.qp q).u + 1 ∧ ((x.complete q c wrs).qp q).timer = true) ∧
    ((x.complete q c wrs).qp q).lap = (d.qp q).lap + (if (d.get (R.Q_CQ_TAIL.IDX q) + 1) % 2 ^ d.get (R.Q_CTRL.CQ_SIZE q) = 0 then 1 else 0) := by
  have hss : x.get (R.Q_CTRL.SQ_SIZE q) = d.get (R.Q_CTRL.SQ_SIZE q) := h.get rfl rfl
  have hcs : x.get (R.Q_CTRL.CQ_SIZE q) = d.get (R.Q_CTRL.CQ_SIZE q) := h.get rfl rfl
  have hh : x.get (R.Q_SQ_HEAD.IDX q) = d.get (R.Q_SQ_HEAD.IDX q) := h.get rfl rfl
  have ht : x.get (R.Q_CQ_TAIL.IDX q) = d.get (R.Q_CQ_TAIL.IDX q) := h.get rfl rfl
  have hm : x.get (R.Q_MOD.COUNT q) = d.get (R.Q_MOD.COUNT q) := h.get rfl rfl
  have hsg : x.on (R.Q_STATUS.SIGNAL q) = d.on (R.Q_STATUS.SIGNAL q) := by rw [Dev.on, h.get (i := 0x41028) rfl rfl, Dev.on]
  have hhi : x.reg (A.Q_CQ_BASE_HI q) = d.reg (A.Q_CQ_BASE_HI q) := h.reg _ (by rw [A.Q_CQ_BASE_HI]; omega) (by rw [A.Q_CQ_BASE_HI]; omega)
  have hlo : x.reg (A.Q_CQ_BASE_LO q) = d.reg (A.Q_CQ_BASE_LO q) := h.reg _ (by rw [A.Q_CQ_BASE_LO]; omega) (by rw [A.Q_CQ_BASE_LO]; omega)
  obtain ⟨hhead, htail⟩ := x.advanced_spec q c wrs (hss ▸ hs) (hcs ▸ hc)
  obtain ⟨hw, hqp, hco, hsi, -, -⟩ := x.advanced_kept q c wrs
  obtain ⟨hsig, hcnt, hget, hhost, -, -⟩ := (x.advanced q c wrs).countDone_spec q
  rw [Dev.sqLen, hss, hh] at hhead
  rw [Dev.cqLen, hcs, ht] at htail hqp
  rw [hhi, hlo, ht, h.lap] at hw
  have hu : ((x.advanced q c wrs).qp q).u = (d.qp q).u := by rw [hqp]; exact h.u
  rw [hco, hm, hu] at hsig hcnt
  rw [Dev.complete_eq]
  generalize x.advanced q c wrs = y at *
  refine ⟨by rw [hhost, hw], (hget _ (Fld.apart_of_row rfl rfl rfl)).trans hhead, (hget _ (Fld.apart_of_row rfl rfl rfl)).trans htail, fun hn => ?_,
    fun hn => ?_, ?_⟩
  · obtain ⟨h1, h2⟩ := hsig hn
    exact ⟨h1, by rw [h2], by rw [h2]⟩
  · obtain ⟨h1, h2⟩ := hcnt hn
    exact ⟨h1.trans (hsi.trans hsg), by rw [h2], by rw [h2]⟩
  · have hlap : (y.qp q).lap = (d.qp q).lap + (if (d.get (R.Q_CQ_TAIL.IDX q) + 1) % 2 ^ d.get (R.Q_CTRL.CQ_SIZE q) = 0 then 1 else 0) := by
      rw [hqp]
      dsimp only
      rw [h.lap]
      split <;> rfl
    rcases Nat.lt_or_ge ((d.qp q).u + 1) (d.get (R.Q_MOD.COUNT q)) with hn | hn
    · rw [(hcnt hn).2]
      exact hlap
    · rw [(hsig hn).2]
      exact hlap

end Sys2Proof.Machine
end

section
/-! Writes to the registers of a queue pair, its deliveries and its injections (spec/15, R386 to R391). -/

open Sys2Proof

namespace Sys2Proof.Machine

/-! Writes to a queue's registers (R386, R391, R392). -/

section
variable (d : Dev) (q v : Nat)

theorem Dev.sqDoorbell_spec : (d.sqDoorbell q v).get (R.Q_SQ_TAIL.IDX q) = min (v % 4096) (2 ^ d.get (R.Q_CTRL.SQ_SIZE q) - 1) ∧
    RegsOnly d (d.sqDoorbell q v) [A.Q_SQ_TAIL q] := by
  refine ⟨?_, (RegsOnly.refl d _).set 0 rfl⟩
  rw [Dev.sqDoorbell, Dev.get_set_same _ _ _ (Fld.ok_of_ble rfl)]
  exact Nat.mod_eq_of_lt (Nat.lt_of_le_of_lt (Nat.min_le_left _ _) (Nat.mod_lt _ (by decide)))

theorem Dev.cqHead_spec : (d.cqHead q v).get (R.Q_CQ_HEAD.IDX q) = min (v % 4096) (2 ^ d.get (R.Q_CTRL.CQ_SIZE q) - 1) ∧
    RegsOnly d (d.cqHead q v) [A.Q_CQ_HEAD q] := by
  refine ⟨?_, (RegsOnly.refl d _).set 0 rfl⟩
  rw [Dev.cqHead, Dev.get_set_same _ _ _ (Fld.ok_of_ble rfl)]
  exact Nat.mod_eq_of_lt (Nat.lt_of_le_of_lt (Nat.min_le_left _ _) (Nat.mod_lt _ (by decide)))

theorem Dev.qCtrl_enable : d.qCtrl q (putBit v 31 true) = if d.on (R.Q_CTRL.EN q) then d else d.sw Row.Q_CTRL (A.Q_CTRL q) (putBit v 31 true) := by
  rw [Dev.qCtrl, bit_putBit_same, if_pos rfl]

theorem Dev.qCtrl_disable : d.qCtrl q (putBit v 31 false) =
    (if d.on (R.Q_CTRL.EN q) then d else d.sw Row.Q_CTRL (A.Q_CTRL q) (putBit v 31 false)).stopQueue q := by
  rw [Dev.qCtrl, bit_putBit_same, if_neg Bool.false_ne_true]

/-- The fields of Q_CTRL after a software write. -/
theorem Dev.qWritten_spec (w : Nat) : (d.sw Row.Q_CTRL (A.Q_CTRL q) w).on (R.Q_CTRL.EN q) = bit w 31 ∧ (d.sw Row.Q_CTRL (A.Q_CTRL q) w).on (R.Q_CTRL.DIR q) = bit w 30 ∧
    (d.sw Row.Q_CTRL (A.Q_CTRL q) w).get (R.Q_CTRL.GROUP q) = min 6 (getBits w 29 27) ∧
    (d.sw Row.Q_CTRL (A.Q_CTRL q) w).get (R.Q_CTRL.SQ_SIZE q) = max 4 (min 12 (getBits w 23 20)) ∧
    (d.sw Row.Q_CTRL (A.Q_CTRL q) w).get (R.Q_CTRL.CQ_SIZE q) = max 4 (min 12 (getBits w 19 16)) ∧
    (d.sw Row.Q_CTRL (A.Q_CTRL q) w).get (R.Q_CTRL.HOLD_LIM q) = max 1 (w % 2 ^ 16) := by
  have hen : (d.sw Row.Q_CTRL (A.Q_CTRL q) w).get (R.Q_CTRL.EN q) = getBits w 31 31 := Dev.get_sw_any d tidy_Q_CTRL (f := R.Q_CTRL.EN q) 0 rfl w
  have hdir : (d.sw Row.Q_CTRL (A.Q_CTRL q) w).get (R.Q_CTRL.DIR q) = getBits w 30 30 := Dev.get_sw_any d tidy_Q_CTRL (f := R.Q_CTRL.DIR q) 1 rfl w
  have hgr : (d.sw Row.Q_CTRL (A.Q_CTRL q) w).get (R.Q_CTRL.GROUP q) = max 0 (min 6 (getBits w 29 27)) :=
    Dev.get_sw_range d tidy_Q_CTRL (f := R.Q_CTRL.GROUP q) 2 rfl (by decide) (by norm_num [R.Q_CTRL.GROUP, Fld.width]) w
  have hlim : (d.sw Row.Q_CTRL (A.Q_CTRL q) w).get (R.Q_CTRL.HOLD_LIM q) = max 1 (min 65535 (getBits w 15 0)) :=
    Dev.get_sw_range d tidy_Q_CTRL (f := R.Q_CTRL.HOLD_LIM q) 5 rfl (by decide) (by norm_num [R.Q_CTRL.HOLD_LIM, Fld.width]) w
  refine ⟨?_, ?_, by rw [hgr, Nat.zero_max],
    Dev.get_sw_range d tidy_Q_CTRL (f := R.Q_CTRL.SQ_SIZE q) 3 rfl (by decide) (by norm_num [R.Q_CTRL.SQ_SIZE, Fld.width]) w,
    Dev.get_sw_range d tidy_Q_CTRL (f := R.Q_CTRL.CQ_SIZE q) 4 rfl (by decide) (by norm_num [R.Q_CTRL.CQ_SIZE, Fld.width]) w, ?_⟩
  · rw [Dev.on, hen, getBits_ne_zero]
  · rw [Dev.on, hdir, getBits_ne_zero]
  · have hw : getBits w 15 0 = w % 2 ^ 16 := by rw [getBits]; norm_num
    rw [hlim, hw]
    have := Nat.mod_lt w (show 0 < 2 ^ 16 by decide)
    omega

end

/-! Requests of a queue (R387 to R389). -/

theorem Dev.queueRuns_iff (d : Dev) (q : Nat) (dir : Bool) : d.queueRuns q dir = true ↔ d.on (R.Q_CTRL.EN q) = true ∧ d.on (R.Q_CTRL.DIR q) = dir ∧
    d.on (R.Q_STATUS.STOPPED q) = false ∧ d.get R.HOST_STATUS.PSTATE = 0 ∧ d.get (R.Q_SQ_HEAD.IDX q) ≠ d.get (R.Q_SQ_TAIL.IDX q) ∧
    (d.get (R.Q_CQ_TAIL.IDX q) + 1) % 2 ^ d.get (R.Q_CTRL.CQ_SIZE q) ≠ d.get (R.Q_CQ_HEAD.IDX q) := by
  simp only [Dev.queueRuns, Dev.sqReady, Dev.cqFull, Dev.cqLen, Bool.and_eq_true, Bool.not_eq_true', beq_iff_eq, bne_iff_ne, beq_eq_false_iff_ne, and_assoc, ne_eq]

/-- The flags of a completion. -/
theorem completion_flags : ∀ b p t s : Bool, bit ((b2n b + 2 * b2n p + 4 * b2n t + 8 * b2n s) % 2 ^ 8) 0 = b ∧
    bit ((b2n b + 2 * b2n p + 4 * b2n t + 8 * b2n s) % 2 ^ 8) 1 = p ∧ bit ((b2n b + 2 * b2n p + 4 * b2n t + 8 * b2n s) % 2 ^ 8) 2 = t := by decide

section
variable {d : Dev} {q : Nat}

/-- The part once the frame h held for queue q has left its cells. -/
def Dev.unheld (d : Dev) (q h : Nat) (rest : List Nat) : Dev :=
  ((d.unhold h).onQ q fun s => { s with hold := rest }).freeCells (d.frameCells h 64)

theorem Dev.qp_unheld (h : Nat) (rest : List Nat) : (d.unheld q h rest).qp q = { d.qp q with hold := rest } := by
  rw [Dev.unheld, (FabStep.refl _).freeCells.qp, Dev.qp_onQ_same]
  rfl

theorem RingSame.unheld (hq : q < 64) (h : Nat) (rest : List Nat) : RingSame d (d.unheld q h rest) q := by
  refine ⟨fun a ha hb => ?_, by rw [Dev.qp_unheld], by rw [Dev.qp_unheld]⟩
  rw [Dev.unheld, (FabStep.refl _).freeCells.reg (by omega), Dev.reg_onQ, (FabStep.refl d).unhold.reg (by omega)]

/-- The completion of a delivery of frame h, its bytes l, to a buffer of room bytes. -/
def Dev.delivery (d : Dev) (h : Nat) (x l : List Byte) : Cpl :=
  { cookie := blk x 16 4, len := l.length, poison := false, trunc := decide (clampN 256 16384 (blk x 8 4) < l.length), stepped := bit (d.desc h) 103,
    time := getBits (d.desc h) 63 0, reason := (Tbl.get Held.none d.fab.held h).reason, port := descPort (d.desc h),
    hit := (Tbl.get Held.none d.fab.held h).hit }

theorem Dev.deliverFrame_eq (hcl : d.clean .cell) (hr : d.queueRuns q false = true) {h : Nat} {rest : List Nat} (hh : (d.qp q).hold = h :: rest)
    (x : List Byte) : d.deliverFrame q x = (d.unheld q h rest).complete q (d.delivery h x (d.frameData (d.frameCells h 64) (descLen (d.desc h))).1)
      [(blk x 0 8, (d.frameData (d.frameCells h 64) (descLen (d.desc h))).1.take (clampN 256 16384 (blk x 8 4)))] := by
  unfold Dev.deliverFrame
  rw [hr, hh]
  dsimp only
  rw [Dev.frameData_clean hcl]
  rfl

theorem Dev.deliverFrame_idle (h : (d.qp q).hold = [] ∨ d.queueRuns q false = false) (x : List Byte) : d.deliverFrame q x = d := by
  unfold Dev.deliverFrame
  rcases h with h | h <;> rw [h]
  cases d.queueRuns q false <;> rfl

/-- Port numbers fit their byte. -/
theorem descPort_lt (v : Nat) : descPort v < 2 ^ 8 := getBits_lt v 111 104

theorem Dev.length_frame_lt (d : Dev) (l : List Nat) (v : Nat) : (d.frameData l (descLen v)).1.length < 2 ^ 16 :=
  Nat.lt_of_le_of_lt (d.length_frameData l _) (Nat.lt_of_lt_of_le (getBits_lt v 127 114) (Nat.pow_le_pow_right (by decide) (by decide)))

/-- The completion of an injection of len bytes with a status. -/
def injection (x : List Byte) (st : Nat) : Cpl := { cookie := blk x 16 4, len := clampN 64 10240 (blk x 12 2), status := st }

theorem Dev.injectFrame_idle (h : d.queueRuns q true = false) (x : List Byte) (fr : FrameRead) : d.injectFrame q x fr = d := by
  rw [Dev.injectFrame, h]
  rfl

theorem Dev.injectFrame_poisoned (h : d.queueRuns q true = true) (x : List Byte) : d.injectFrame q x none = d.complete q (injection x stPoison) [] := by
  rw [Dev.injectFrame, h]
  rfl

theorem Dev.injectFrame_barred (h : d.queueRuns q true = true) {b : Nat} (hb : d.barredPolder 32 = some b) (x l : List Byte) :
    d.injectFrame q x (some l) = d.complete q (injection x (if b = 3 then stTestBusy else stTargetReset)) [] := by
  rw [Dev.injectFrame, h, if_neg (show ¬(!true) = true from Bool.false_ne_true)]
  dsimp only
  rw [hb]
  split
  · next he =>
    cases he
    rfl
  · next hn he =>
    cases he
    rw [if_neg fun e => hn (by rw [e])]
    rfl
  · next he => cases he

theorem Dev.injectFrame_open (h : d.queueRuns q true = true) (hb : d.barredPolder 32 = none) (x l : List Byte) :
    d.injectFrame q x (some l) = if (d.enqueue (blk x 8 4 % 2 ^ 20) (bit (blk x 8 4) 24)
        ((l ++ List.replicate (clampN 64 10240 (blk x 12 2) - 4) 0).take (clampN 64 10240 (blk x 12 2) - 4))).2.1 = stNoCell then d
      else (d.enqueue (blk x 8 4 % 2 ^ 20) (bit (blk x 8 4) 24)
        ((l ++ List.replicate (clampN 64 10240 (blk x 12 2) - 4) 0).take (clampN 64 10240 (blk x 12 2) - 4))).1.complete q
          (injection x (d.enqueue (blk x 8 4 % 2 ^ 20) (bit (blk x 8 4) 24)
            ((l ++ List.replicate (clampN 64 10240 (blk x 12 2) - 4) 0).take (clampN 64 10240 (blk x 12 2) - 4))).2.1) [] := by
  rw [Dev.injectFrame, h, if_neg (show ¬(!true) = true from Bool.false_ne_true)]
  dsimp only
  rw [hb]
  rfl

end

/-! The timer and a failed request (R389 to R391). -/

section
variable (d : Dev)

theorem Dev.raisePme_spec : d.raisePme.on R.HOST_STATUS.PME_STATUS = true ∧ (∀ a, a ≠ A.HOST_STATUS → d.raisePme.reg a = d.reg a) ∧
    (∀ k, d.raisePme.qp k = d.qp k) := by
  unfold Dev.raisePme
  split
  · next h => exact ⟨h, fun _ _ => rfl, fun _ => rfl⟩
  · have hon : (d.set R.HOST_STATUS.PME_STATUS 1).on R.HOST_STATUS.PME_STATUS = true := by
      rw [Dev.on_set_same _ _ _ (Fld.ok_of_ble rfl)]
      rfl
    have hreg : ∀ a, a ≠ A.HOST_STATUS → (d.set R.HOST_STATUS.PME_STATUS 1).reg a = d.reg a := fun a ha => Dev.reg_set_ne (a := a) _ R.HOST_STATUS.PME_STATUS _ fun e => ha e.symm
    have hqp : ∀ k, (d.set R.HOST_STATUS.PME_STATUS 1).qp k = d.qp k := Dev.qp_set d _ _
    generalize d.set R.HOST_STATUS.PME_STATUS 1 = y at *
    dsimp only
    split
    · refine ⟨?_, fun a ha => ?_, fun k => ?_⟩
      · rw [Dev.on, Dev.get_onHost_eq]
        exact hon
      · rw [Dev.reg_onHost, hreg a ha]
      · rw [Dev.qp, Dev.q_onHost]
        exact hqp k
    · exact ⟨hon, hreg, hqp⟩

theorem Dev.noteWork_spec : (d.get R.HOST_STATUS.PSTATE = 3 → d.noteWork.on R.HOST_STATUS.PME_STATUS = true) ∧
    (∀ a, a ≠ A.HOST_STATUS → d.noteWork.reg a = d.reg a) ∧ (∀ k, d.noteWork.qp k = d.qp k) := by
  obtain ⟨h1, h2, h3⟩ := d.raisePme_spec
  unfold Dev.noteWork
  split
  · exact ⟨fun _ => h1, h2, h3⟩
  · next h => exact ⟨fun h' => absurd h' h, fun _ _ => rfl, fun _ => rfl⟩

theorem Dev.timerExpiry_spec {q : Nat} (h : (d.qp q).timer = true) : (d.timerExpiry q).on (R.Q_STATUS.SIGNAL q) = true ∧ ((d.timerExpiry q).qp q).u = 0 ∧
    ((d.timerExpiry q).qp q).timer = false ∧ (d.get R.HOST_STATUS.PSTATE = 3 → (d.timerExpiry q).on R.HOST_STATUS.PME_STATUS = true) := by
  obtain ⟨hon, hqp, hget, -, -, -⟩ := d.signalQueue_spec q
  obtain ⟨hpme, hreg, hq⟩ := (d.signalQueue q).noteWork_spec
  have hne : A.Q_STATUS q ≠ A.HOST_STATUS := by
    show 0x41028 + q * 64 ≠ 0x40004
    omega
  rw [Dev.timerExpiry, if_pos h]
  refine ⟨?_, by rw [hq, hqp], by rw [hq, hqp], fun hp => hpme ?_⟩
  · rw [Dev.on, Dev.get, show (R.Q_STATUS.SIGNAL q).addr = A.Q_STATUS q from rfl, hreg _ hne]
    exact hon
  · rw [hget R.HOST_STATUS.PSTATE (.inl hne)]
    exact hp

theorem Dev.queueStop_spec {q : Nat} (h : d.on (R.Q_CTRL.EN q) = true) : (d.queueStop q).on (R.Q_STATUS.STOPPED q) = true ∧
    bit ((d.queueStop q).get R.HOST_EVT.EVT) 6 = true ∧ RegsOnly d (d.queueStop q) [A.Q_STATUS q, A.HOST_EVT] := by
  have hne : A.HOST_EVT ≠ A.Q_STATUS q := by
    show 0x40008 ≠ 0x41028 + q * 64
    omega
  rw [Dev.queueStop, if_pos h]
  refine ⟨?_, Dev.bit_orF_same (i := 6) _ R.HOST_EVT.EVT (Fld.ok_of_ble rfl) (by decide), ((RegsOnly.refl d _).set 0 rfl).orF 1 rfl⟩
  rw [Dev.orF, Dev.on_set_apart _ _ _ _ (Fld.ok_of_ble rfl) (.inl hne), Dev.on_set_same _ _ _ (Fld.ok_of_ble rfl)]
  rfl

end

end Sys2Proof.Machine
end

section
/-! The host's queue pairs: the obligation assembled (spec/15). -/

open Sys2Proof

namespace Sys2Proof.Machine

theorem Dev.stopQueue_spec (d : Dev) {q : Nat} (hq : q < 64) : (d.stopQueue q).on (R.Q_CTRL.EN q) = false ∧ (d.stopQueue q).get (R.Q_SQ_TAIL.IDX q) = 0 ∧
    (d.stopQueue q).get (R.Q_SQ_HEAD.IDX q) = 0 ∧ (d.stopQueue q).get (R.Q_CQ_TAIL.IDX q) = 0 ∧ (d.stopQueue q).get (R.Q_CQ_HEAD.IDX q) = 0 ∧
    (d.stopQueue q).on (R.Q_STATUS.STOPPED q) = false ∧ (d.stopQueue q).on (R.Q_STATUS.SIGNAL q) = false ∧ (d.stopQueue q).qp q = {} ∧
    (d.stopQueue q).get (R.Q_STATUS.DROPS q) = min 65535 (d.get (R.Q_STATUS.DROPS q) + (d.qp q).hold.length) ∧
    (d.stopQueue q).on (R.Q_CTRL.DIR q) = d.on (R.Q_CTRL.DIR q) ∧ (d.stopQueue q).get (R.Q_CTRL.HOLD_LIM q) = d.get (R.Q_CTRL.HOLD_LIM q) := by
  obtain ⟨h1, h2, h3, h4, h5, h6, h7⟩ := (d.heldCounted q).ringsCleared_cleared q
  obtain ⟨k1, k2, k3⟩ := (d.heldCounted q).ringsCleared_kept q
  obtain ⟨g1, g2, g3, g4⟩ := d.heldCounted_spec q hq
  rw [Dev.stopQueue_eq]
  exact ⟨h1, h2, h3, h4, h5, h6, h7, (Dev.qp_ringsCleared ..).trans g4, k1.trans g1, k2.trans g2, k3.trans g3⟩

/-- What a completion of queue q of d looks like in u: the conditions of R386 and R389 that every status shares. -/
structure Completed (d u : Dev) (q : Nat) (wrs : List (Nat × List Byte)) (c : Cpl) : Prop where
  wrs : u.host.wrs = wrs ++ [(d.reg (A.Q_CQ_BASE_HI q) * 2 ^ 32 + d.reg (A.Q_CQ_BASE_LO q) + 32 * d.get (R.Q_CQ_TAIL.IDX q),
    c.bytes ((d.qp q).lap % 2 == 0))]
  head : u.get (R.Q_SQ_HEAD.IDX q) = (d.get (R.Q_SQ_HEAD.IDX q) + 1) % 2 ^ d.get (R.Q_CTRL.SQ_SIZE q)
  tail : u.get (R.Q_CQ_TAIL.IDX q) = (d.get (R.Q_CQ_TAIL.IDX q) + 1) % 2 ^ d.get (R.Q_CTRL.CQ_SIZE q)
  signals : d.get (R.Q_MOD.COUNT q) ≤ (d.qp q).u + 1 → u.on (R.Q_STATUS.SIGNAL q) = true ∧ (u.qp q).u = 0 ∧ (u.qp q).timer = false
  counts : (d.qp q).u + 1 < d.get (R.Q_MOD.COUNT q) → u.on (R.Q_STATUS.SIGNAL q) = d.on (R.Q_STATUS.SIGNAL q) ∧ (u.qp q).u = (d.qp q).u + 1 ∧
    (u.qp q).timer = true
  lap : (u.qp q).lap = (d.qp q).lap + (if (d.get (R.Q_CQ_TAIL.IDX q) + 1) % 2 ^ d.get (R.Q_CTRL.CQ_SIZE q) = 0 then 1 else 0)

theorem RingSame.completed {d x : Dev} {q : Nat} (h : RingSame d x q) (c : Cpl) (wrs : List (Nat × List Byte))
    (hf : d.get (R.Q_CTRL.SQ_SIZE q) ≤ 12 ∧ d.get (R.Q_CTRL.CQ_SIZE q) ≤ 12) : Completed d (x.complete q c wrs) q wrs c := by
  obtain ⟨h1, h2, h3, h4, h5, h6⟩ := h.complete c wrs hf.1 hf.2
  exact ⟨h1, h2, h3, h4, h5, h6⟩

/-- The same, with the bytes of the completion spelt out. -/
theorem Completed.entry {d u : Dev} {q : Nat} {wrs : List (Nat × List Byte)} {c : Cpl} {x : List Byte} (h : Completed d u q wrs c)
    {n st : Nat} (hk : c.cookie = blk x 16 4) (hn : c.len = n) (hl : n < 2 ^ 16) (hst : c.status % 256 = st) : u.host.wrs = wrs ++ [(d.reg (A.Q_CQ_BASE_HI q) * 2 ^ 32 + d.reg (A.Q_CQ_BASE_LO q) +
      32 * d.get (R.Q_CQ_TAIL.IDX q), c.bytes ((d.qp q).lap % 2 == 0))] ∧ (c.bytes ((d.qp q).lap % 2 == 0)).length = 32 ∧
    blk (c.bytes ((d.qp q).lap % 2 == 0)) 0 4 = blk x 16 4 ∧ blk (c.bytes ((d.qp q).lap % 2 == 0)) 4 2 = n ∧
    blk (c.bytes ((d.qp q).lap % 2 == 0)) 6 1 = st ∧
    bit (blk (c.bytes ((d.qp q).lap % 2 == 0)) 7 1) 0 = decide ((d.qp q).lap % 2 = 0) ∧
    u.get (R.Q_SQ_HEAD.IDX q) = (d.get (R.Q_SQ_HEAD.IDX q) + 1) % 2 ^ d.get (R.Q_CTRL.SQ_SIZE q) ∧
    u.get (R.Q_CQ_TAIL.IDX q) = (d.get (R.Q_CQ_TAIL.IDX q) + 1) % 2 ^ d.get (R.Q_CTRL.CQ_SIZE q) ∧
    (d.get (R.Q_MOD.COUNT q) ≤ (d.qp q).u + 1 → u.on (R.Q_STATUS.SIGNAL q) = true ∧ (u.qp q).u = 0 ∧ (u.qp q).timer = false) ∧
    ((d.qp q).u + 1 < d.get (R.Q_MOD.COUNT q) → u.on (R.Q_STATUS.SIGNAL q) = d.on (R.Q_STATUS.SIGNAL q) ∧ (u.qp q).u = (d.qp q).u + 1 ∧
      (u.qp q).timer = true) ∧
    (u.qp q).lap = (d.qp q).lap + (if (d.get (R.Q_CQ_TAIL.IDX q) + 1) % 2 ^ d.get (R.Q_CTRL.CQ_SIZE q) = 0 then 1 else 0) := by
  obtain ⟨hlen, hcook, hle, hs, hfl, -, -⟩ := c.bytes_spec ((d.qp q).lap % 2 == 0)
  refine ⟨h.wrs, hlen, ?_, (hle.trans (Nat.mod_eq_of_lt (hn.symm ▸ hl))).trans hn, hs.trans hst, ?_, h.head, h.tail, h.signals, h.counts, h.lap⟩
  · rw [hcook, hk]
    exact Nat.mod_eq_of_lt (blk_lt x 16 4)
  · rw [hfl, (completion_flags _ _ _ _).1]
    exact beq_eq_decide ..

theorem Dev.qp_sw (d : Dev) (row : RegRow) (a v k : Nat) : (d.sw row a v).qp k = d.qp k := by rw [Dev.sw, Dev.qp, Dev.q_setReg, Dev.qp]

theorem putBit_mod (v : Nat) (b : Bool) : putBit v 31 b % 2 ^ 16 = v % 2 ^ 16 := by
  have h := getBits_putBit_ne v (i := 31) (hi := 15) (lo := 0) b (.inr (by decide))
  rwa [getBits, getBits, pow_zero, Nat.div_one, Nat.div_one] at h

theorem Makes.congr {c : Instr} {s : State} {x y : Dev} (h : Makes c s x) (he : x = y) : Makes c s y := he ▸ h

end Sys2Proof.Machine

open Sys2Proof.Machine

/-- Settles O52: the ring's registers, completions and counts of a queue pair, by the part a request leaves. -/
theorem hostQueues : Obligations.HostQueues := by
  unfold Obligations.HostQueues
  intro src q val entry fr h rest s hcl
  extract_lets d v sq cq head tail x ready count place completed data room fits
  have hq := q.isLt
  have hready : ∀ b, ready b ↔ d.queueRuns q b = true := fun b => (d.queueRuns_iff q b).symm
  have hruns : ∀ b, ¬ ready b → d.queueRuns q b = false := fun b hb => by
    rw [hready] at hb
    exact eq_false_of_ne_true hb
  have hroom : clampN 256 16384 (blk x 8 4) = room := clampN_eq _ (by decide)
  refine ⟨fun hb => ?_, fun hb => ?_, fun hb => ⟨fun hen => ?_, fun hen => ?_, ?_⟩, fun ha hr hf hh => ?_, fun ha hr hh => ?_, fun hn => ?_, fun hr => ?_,
    fun hr hfr => ?_, fun hr hf => ?_, fun ht => ?_, fun ht => ?_, fun hen => ?_, fun hen => ?_⟩
  · have hm := makes_of_gate (c := .sqDoorbell src q val) (f := fun d => d.sqDoorbell q val.toNat) rfl hb
    exact hm.gives (d.sqDoorbell_spec q v)
  · have hm := makes_of_gate (c := .cqHeadWrite src q val) (f := fun d => d.cqHead q val.toNat) rfl hb
    exact hm.gives (d.cqHead_spec q v)
  · have hm := makes_of_gate (c := .queueEnable src q val) (f := fun d => d.qCtrl q (putBit val.toNat 31 true)) rfl hb
    have he : d.qCtrl q (putBit val.toNat 31 true) = d := by rw [Dev.qCtrl_enable, if_pos hen]
    exact he ▸ hm
  · have hm := makes_of_gate (c := .queueEnable src q val) (f := fun d => d.qCtrl q (putBit val.toNat 31 true)) rfl hb
    have he : d.qCtrl q (putBit val.toNat 31 true) = d.sw Row.Q_CTRL (A.Q_CTRL q) (putBit v 31 true) := by
      rw [Dev.qCtrl_enable, if_neg (by rw [hen]; exact Bool.false_ne_true)]
    have hspec := d.qWritten_spec q (putBit v 31 true)
    rw [bit_putBit_same, bit_putBit_ne _ _ (by decide), getBits_putBit_ne _ _ (.inr (by decide)), getBits_putBit_ne _ _ (.inr (by decide)),
      getBits_putBit_ne _ _ (.inr (by decide))] at hspec
    obtain ⟨h1, h2, h3, h4, h5, h6⟩ := hspec
    exact (he ▸ hm).gives ⟨h1, h2, h3, h4, h5, h6.trans (congrArg (max 1) (putBit_mod v true)), (RegsOnly.refl d _).sw 0 rfl⟩
  · have hm := makes_of_gate (c := .queueDisable src q val) (f := fun d => d.qCtrl q (putBit val.toNat 31 false)) rfl hb
    have he := d.qCtrl_disable q v
    by_cases hen : d.on (R.Q_CTRL.EN q) = true
    · rw [if_pos hen] at he
      obtain ⟨h1, h2, h3, h4, h5, h6, h7, h8, h9, h10, h11⟩ := d.stopQueue_spec hq
      exact (he ▸ hm).gives ⟨h1, h2, h3, h4, h5, h6, h7, h8, h9, fun _ => ⟨h10, h11⟩⟩
    · rw [if_neg hen] at he
      obtain ⟨h1, h2, h3, h4, h5, h6, h7, h8, h9, -, -⟩ := (d.sw Row.Q_CTRL (A.Q_CTRL q) (putBit v 31 false)).stopQueue_spec hq
      have hdr : (d.sw Row.Q_CTRL (A.Q_CTRL q) (putBit v 31 false)).get (R.Q_STATUS.DROPS q) = d.get (R.Q_STATUS.DROPS q) :=
        Dev.get_sw_ne _ _ _ _ (show 0x41000 + q.val * 64 ≠ 0x41028 + q.val * 64 by omega)
      rw [hdr, Dev.qp_sw] at h9
      exact (he ▸ hm).gives ⟨h1, h2, h3, h4, h5, h6, h7, h8, h9, fun h => absurd h hen⟩
  · have hm := makes_of_live (c := .hostFrameDelivery q entry) (f := fun d => d.deliverFrame q x) rfl ha
    rw [Dev.deliverFrame_eq hcl ((hready _).1 hr) hh] at hm
    have hc := (RingSame.unheld (d := d) hq h rest).completed (d.delivery h x data) [(blk x 0 8, data.take (clampN 256 16384 (blk x 8 4)))] hf
    obtain ⟨hhold, -, -⟩ := (d.unheld q h rest).complete_keeps q (d.delivery h x data) [(blk x 0 8, data.take (clampN 256 16384 (blk x 8 4)))]
    obtain ⟨-, -, -, -, hfl, hre, hpo⟩ := (d.delivery h x data).bytes_spec ((d.qp q).lap % 2 == 0)
    have hlast : ((d.unheld q h rest).qp q).hold = rest := by rw [Dev.qp_unheld]
    refine hm.gives ⟨⟨_, hroom ▸ hc.entry rfl rfl (d.length_frame_lt _ _) rfl, ?_, ?_, hre, hpo.trans (Nat.mod_eq_of_lt (descPort_lt _))⟩, hhold.trans hlast⟩
    · rw [hfl, (completion_flags _ _ _ _).2.2, ← hroom]
      rfl
    · rw [hfl, (completion_flags _ _ _ _).2.1]
      rfl
  · have hm := makes_of_live (c := .hostFrameDelivery q entry) (f := fun d => d.deliverFrame q x) rfl ha
    rw [Dev.deliverFrame_eq hcl ((hready _).1 hr) hh] at hm
    refine hm.gives (((d.unheld q h rest).complete_keeps q _ _).1.trans ?_)
    rw [Dev.qp_unheld]
  · by_cases ha : d.awake 32 = true
    · have hm := makes_of_live (c := .hostFrameDelivery q entry) (f := fun d => d.deliverFrame q x) rfl ha
      rwa [Dev.deliverFrame_idle] at hm
      rcases hn with hn | hn | hn
      · exact .inl hn
      · exact .inr (hruns _ hn)
      · exact absurd ha (by rw [hn]; exact Bool.false_ne_true)
    · exact makes_of_on (c := .hostFrameDelivery q entry) (f := fun d => d.liveFab fun d => d.deliverFrame q x) rfl |>.congr (Dev.live_of_asleep (eq_false_of_ne_true ha) _)
  · have hm := makes_of_on (c := .hostFrameInject q entry fr) (s := s) (f := fun d => d.injectFrame q x fr) rfl
    rwa [Dev.injectFrame_idle (hruns _ hr)] at hm
  · have hm := makes_of_on (c := .hostFrameInject q entry fr) (s := s) (f := fun d => d.injectFrame q x fr) rfl
    rw [hfr, Dev.injectFrame_poisoned ((hready _).1 hr)] at hm
    rw [hfr]
    exact hm.gives (d.complete_keeps q _ _).2
  · have hlen : clampN 64 10240 (blk x 12 2) = max 64 (min 10240 (blk x 12 2)) := clampN_eq _ (by decide)
    have hlt : max 64 (min 10240 (blk x 12 2)) < 2 ^ 16 := by omega
    have hm := makes_of_on (c := .hostFrameInject q entry fr) (s := s) (f := fun d => d.injectFrame q x fr) rfl
    refine ⟨fun hfr => ?_, fun l b hfr hb => ?_, fun l hfr hb => ?_⟩
    · rw [hfr, Dev.injectFrame_poisoned ((hready _).1 hr)] at hm
      rw [hfr]
      exact hm.gives ⟨⟨_, ((RingSame.refl d q).completed (injection x stPoison) [] hf).entry rfl hlen hlt rfl⟩, (d.complete_keeps q _ _).2⟩
    · rw [hfr, Dev.injectFrame_barred ((hready _).1 hr) hb] at hm
      rw [hfr]
      have hst : ∀ p : Prop, [Decidable p] → (if p then stTestBusy else stTargetReset) % 256 = if p then 9 else 10 := fun p _ => by split <;> rfl
      have he := ((RingSame.refl d q).completed (injection x (if b = 3 then stTestBusy else stTargetReset)) [] hf).entry (x := x) rfl hlen hlt (hst (b = 3))
      exact hm.gives ⟨⟨_, he⟩, (d.complete_keeps q _ _).2⟩
    · rw [hfr, Dev.injectFrame_open ((hready _).1 hr) hb, hlen] at hm
      rw [hfr]
      have hfab := FabStep.enqueue d (blk x 8 4 % 2 ^ 20) (bit (blk x 8 4) 24)
        ((l ++ List.replicate (max 64 (min 10240 (blk x 12 2)) - 4) 0).take (max 64 (min 10240 (blk x 12 2)) - 4))
      generalize d.enqueue (blk x 8 4 % 2 ^ 20) (bit (blk x 8 4) 24)
        ((l ++ List.replicate (max 64 (min 10240 (blk x 12 2)) - 4) 0).take (max 64 (min 10240 (blk x 12 2)) - 4)) = out at *
      refine ⟨fun ho => ?_, fun ho => ?_⟩
      · rwa [if_pos (show out.2.1 = stNoCell from ho)] at hm
      · rw [if_neg (show ¬ out.2.1 = stNoCell from ho)] at hm
        exact hm.gives ⟨⟨_, ((RingSame.of_fab hq hfab).completed (injection x out.2.1) [] hf).entry rfl hlen hlt rfl⟩, (out.1.complete_keeps q _ _).2⟩
  · exact (makes_of_on (c := .queueTimerExpiry q) (s := s) (f := fun d => d.timerExpiry q) rfl).gives (d.timerExpiry_spec ht)
  · have hm := makes_of_on (c := .queueTimerExpiry q) (s := s) (f := fun d => d.timerExpiry q) rfl
    rwa [Dev.timerExpiry, if_neg (by rw [ht]; exact Bool.false_ne_true)] at hm
  · have hm := makes_of_on (c := .queueStop q) (s := s) (f := fun d => d.queueStop q) rfl
    rwa [Dev.queueStop, if_neg (by rw [hen]; exact Bool.false_ne_true)] at hm
  · exact (makes_of_on (c := .queueStop q) (s := s) (f := fun d => d.queueStop q) rfl).gives (d.queueStop_spec hen)
end

section
/-! BAR2: bytes written to the DRAM one enable at a time, and reads that find poison (spec/15, R382, R383). -/

open Sys2Proof

namespace Sys2Proof.Machine

/-! Bytes written where they are enabled (R279). -/

/-- The clean store t is s with the enabled bytes of l written from address a on. -/
structure EnabledPut (s : Store) (a : Nat) (l : List (Option Byte)) (t : Store) : Prop where
  clean : ∀ w, t.syndrome w = 0
  byte : ∀ i, t.byte i = if a ≤ i then (l.getD (i - a) none).getD (s.byte i) else s.byte i

namespace EnabledPut
variable {s t u : Store} {a : Nat} {l m : List (Option Byte)}

theorem nil (h : ∀ w, s.syndrome w = 0) : EnabledPut s a [] s := ⟨h, fun i => by rw [List.getD_nil]; split <;> rfl⟩

theorem append (h : EnabledPut s a l t) (h' : EnabledPut t (a + l.length) m u) : EnabledPut s a (l ++ m) u := by
  refine ⟨h'.clean, fun i => ?_⟩
  rw [h'.byte, h.byte]
  by_cases hi : i < a + l.length
  · rw [if_neg (Nat.not_le.2 hi)]
    split
    · rw [List.getD_append _ _ _ _ (by omega)]
    · rfl
  · have hout : l.getD (i - a) none = none := List.getD_eq_default _ _ (by omega)
    rw [if_pos (Nat.not_lt.1 hi), if_pos (by omega), List.getD_append_right _ _ _ _ (by omega), if_pos (by omega), hout, Option.getD_none, Nat.sub_sub]

/-- One enabled byte merged into a clean word. -/
theorem merge (h : ∀ w, s.syndrome w = 0) (b : Byte) : EnabledPut s a [some b] (s.merge (a / 8) (a % 8) 1 b.toNat) := by
  have hm : s.merge (a / 8) (a % 8) 1 b.toNat = s.putWord (a / 8) (putBits (s.raw (a / 8)) (8 * (a % 8 + 1) - 1) (8 * (a % 8)) b.toNat) := by
    simp only [Store.merge, Store.read_clean _ _ (h _)]
  rw [hm]
  refine ⟨fun w => by rw [Store.syndrome_putWord, h, ite_self], fun i => ?_⟩
  rw [Store.byte_putWord]
  by_cases hi : i = a
  · subst hi
    rw [if_pos rfl, if_pos (Nat.le_refl _), ofNat_putBits_div _ _ _ Nat.one_pos, if_pos (by omega), Nat.sub_self, Nat.sub_self, pow_zero, Nat.div_one,
      BitVec.ofNat_toNat, BitVec.setWidth_eq]
    rfl
  · have hr : (if a ≤ i then ([some b].getD (i - a) none).getD (s.byte i) else s.byte i) = s.byte i := by
      split
      · rw [List.getD_eq_default _ _ (by rw [List.length_singleton]; omega), Option.getD_none]
      · rfl
    rw [hr]
    split
    · next hw => rw [ofNat_putBits_div _ _ _ Nat.one_pos, if_neg (by omega), Store.byte_eq_raw s i, hw]
    · rfl

/-- A whole word of enabled bytes. -/
theorem word (h : ∀ w, s.syndrome w = 0) (ha : a % 8 = 0) (hl : l.length = 8) (hall : l.all (·.isSome) = true) :
    EnabledPut s a l (s.putWord (a / 8) (leNat (l.map (·.getD 0)))) := by
  refine ⟨fun w => by rw [Store.syndrome_putWord, h, ite_self], fun i => ?_⟩
  rw [Store.byte_putWord]
  by_cases hw : i / 8 = a / 8
  · have hk : i % 8 < l.length := by omega
    have hlen : i % 8 < (bytesLE (leNat (l.map (·.getD 0))) 8).length := by rw [length_bytesLE]; omega
    have hb := bytesLE_leNat (l.map (·.getD 0))
    rw [List.length_map, hl] at hb
    rw [if_pos hw, if_pos (by omega), show i - a = i % 8 by omega, ← getElem_bytesLE _ _ _ hlen, List.getD_eq_getElem _ _ hk]
    have hsome : (l[i % 8]).isSome = true := List.all_eq_true.1 hall _ (List.getElem_mem hk)
    obtain ⟨b, hsb⟩ := Option.isSome_iff_exists.1 hsome
    have hget : (bytesLE (leNat (l.map (·.getD 0))) 8)[i % 8] = (l.map (·.getD 0))[i % 8]'(by rw [List.length_map]; exact hk) := by
      congr 1
    rw [hget, List.getElem_map, hsb]
    rfl
  · rw [if_neg hw]
    split
    · rw [List.getD_eq_default _ _ (by omega), Option.getD_none]
    · rfl

end EnabledPut

section
variable {d : Dev}

theorem Dev.putEnabled_clean (h : d.clean .dram) (a : Nat) (l : List (Option Byte)) :
    ∃ t, d.putEnabled a l = { d with dram := t } ∧ EnabledPut d.dram a l t := by
  induction l generalizing d a with
  | nil => exact ⟨d.dram, rfl, .nil h⟩
  | cons b l ih =>
    have hb : ∃ t, (match b with | some b => d.putPart .dram 0 0 (a / 8) (a % 8) 1 b.toNat | none => d) = { d with dram := t } ∧
        EnabledPut d.dram a [b] t := by
      cases b with
      | none => exact ⟨d.dram, rfl, h, fun i => by
          have hn : [(none : Option Byte)].getD (i - a) none = none := by cases i - a <;> rfl
          rw [hn]
          split <;> rfl⟩
      | some b =>
        refine ⟨_, ?_, EnabledPut.merge h b⟩
        dsimp only
        rw [Dev.putPart, if_neg (by decide), Dev.readWord_clean _ _ _ _ _ (h _)]
        rfl
    obtain ⟨t, ht, hput⟩ := hb
    obtain ⟨u, hu, hput'⟩ := ih (d := { d with dram := t }) hput.clean (a + 1)
    refine ⟨u, ?_, hput.append hput'⟩
    exact (congrArg (fun x : Dev => x.putEnabled (a + 1) l) ht).trans hu

theorem Dev.bar2Put_clean (h : d.clean .dram) (a n : Nat) (l : List (Option Byte)) (hn : l.length ≤ n) :
    ∃ t, d.bar2Put a n l = { d with dram := t } ∧ EnabledPut d.dram a l t := by
  induction n generalizing d a l with
  | zero =>
    obtain rfl : l = [] := List.eq_nil_of_length_eq_zero (by omega)
    exact ⟨d.dram, rfl, .nil h⟩
  | succ n ih =>
    cases l with
    | nil => exact ⟨d.dram, rfl, .nil h⟩
    | cons b l =>
      have hstep : ∀ k, k = min (8 - a % 8) (b :: l).length → ∃ t, (if k = 8 ∧ ((b :: l).take k).all (·.isSome) then
          d.putWord .dram 0 0 (a / 8) (leNat (((b :: l).take k).map (·.getD 0))) else d.putEnabled a ((b :: l).take k)) = { d with dram := t } ∧
          EnabledPut d.dram a ((b :: l).take k) t := by
        intro k hk
        split
        · next hc => exact ⟨_, rfl, EnabledPut.word h (by omega) (by rw [List.length_take]; omega) hc.2⟩
        · exact Dev.putEnabled_clean h a _
      obtain ⟨t, ht, hput⟩ := hstep _ rfl
      have hpos : 0 < min (8 - a % 8) (b :: l).length := by rw [List.length_cons]; omega
      have hlen : ((b :: l).take (min (8 - a % 8) (b :: l).length)).length = min (8 - a % 8) (b :: l).length := by rw [List.length_take]; omega
      obtain ⟨u, hu, hput'⟩ := ih (d := { d with dram := t }) hput.clean (a + min (8 - a % 8) (b :: l).length)
        ((b :: l).drop (min (8 - a % 8) (b :: l).length)) (by rw [List.length_drop]; omega)
      refine ⟨u, ?_, ?_⟩
      · rw [Dev.bar2Put]
        · exact (congrArg (fun x : Dev => x.bar2Put (a + min (8 - a % 8) (b :: l).length) n _) ht).trans hu
        · exact fun he => List.cons_ne_nil _ _ he
      · have hall := hput.append (u := u) (m := (b :: l).drop (min (8 - a % 8) (b :: l).length)) (by rw [hlen]; exact hput')
        rwa [List.take_append_drop] at hall

end

/-! Reads and their errors (R282, R284). -/

theorem Dev.dram_memEvt (d : Dev) (m : Nat) : (d.memEvt m).dram = d.dram := Dev.dram_orF ..

theorem Dev.dram_countEcc (d : Dev) (sp : Space) (c e idx : Nat) (r : Reading) : (d.countEcc sp c e idx r).dram = d.dram := by
  cases r <;> cases sp <;>
    simp -implicitDefEqProofs only [Dev.countEcc, apply_ite Dev.dram, ite_self, Dev.dram_setReg, Dev.dram_inc, Dev.dram_bump, Dev.dram_memEvt]

section
variable (d : Dev) (w n : Nat)

theorem Dev.dram_getWords : (d.getWords .dram 0 0 w n).2.2.dram = d.dram := by
  induction n with
  | zero => rfl
  | succ n ih =>
    rw [Dev.getWords]
    dsimp only
    rw [Dev.readWord]
    dsimp only
    rw [Dev.dram_countEcc, ih]

/-- R283: a poisoned word among those read marks the data. -/
theorem Dev.getWords_poisoned {i : Nat} (hi : i < n) (hp : d.dram.syndrome (w + i) = 0xFF) : (d.getWords .dram 0 0 w n).2.1 = true := by
  induction n with
  | zero => omega
  | succ n ih =>
    rw [Dev.getWords]
    dsimp only
    rw [Bool.or_eq_true]
    rcases Nat.lt_succ_iff_lt_or_eq.1 hi with hlt | rfl
    · exact .inl (ih hlt)
    · refine .inr ?_
      have hr : ((d.getWords .dram 0 0 w i).2.2.dram.read (w + i)).2 = .poisoned := by
        rw [d.dram_getWords, Store.read, hp]
        rfl
      show (((d.getWords .dram 0 0 w i).2.2.dram.read (w + i)).2 == .poisoned || ((d.getWords .dram 0 0 w i).2.2.dram.read (w + i)).2 == .uncorrectable) = true
      rw [hr]
      rfl

theorem Dev.dram_getBytes (a : Nat) : (d.getBytes .dram 0 0 a n).2.2.dram = d.dram := by
  unfold Dev.getBytes
  split
  · rfl
  · exact d.dram_getWords _ _

theorem Dev.getBytes_poisoned {a k : Nat} (hn : 0 < n) (hk : a / 8 ≤ k) (hk' : k * 8 < a + n) (hp : d.dram.syndrome k = 0xFF) :
    (d.getBytes .dram 0 0 a n).2.1 = true := by
  unfold Dev.getBytes
  rw [if_neg (by omega)]
  refine d.getWords_poisoned _ _ (i := k - a / 8) (by omega) ?_
  rwa [Nat.add_sub_cancel' hk]

end

namespace FabStep
variable {d d' : Dev}

theorem putPart (h : FabStep d d') {sp : Space} {i o n v : Nat} : FabStep d (d'.putPart sp 0 0 i o n v) := by
  have hr : FabStep d (if n = 8 then d' else (d'.readWord sp 0 0 i).2.2) := ite h h.readWord
  unfold Dev.putPart Dev.mergeWord
  generalize (if n = 8 then d' else (d'.readWord sp 0 0 i).2.2) = x at *
  exact ite hr.putWord hr.setStore

theorem putEnabled (h : FabStep d d') {a : Nat} {l : List (Option Byte)} : FabStep d (d'.putEnabled a l) := by
  induction l generalizing d' a with
  | nil => exact h
  | cons b l ih =>
    refine ih (d' := match b with | some b => d'.putPart .dram 0 0 (a / 8) (a % 8) 1 b.toNat | none => d') ?_
    cases b with
    | none => exact h
    | some b => exact h.putPart

theorem bar2Put (h : FabStep d d') {a n : Nat} {l : List (Option Byte)} : FabStep d (d'.bar2Put a n l) := by
  induction n generalizing d' a l with
  | zero => exact h
  | succ n ih =>
    cases l with
    | nil => exact h
    | cons b l => exact ih (ite h.putWord h.putEnabled)

end FabStep

/-! The outcomes of a BAR2 access (R382, R383, R394). -/

section
variable (d : Dev) (code off : Nat)

theorem Dev.logErr_spec : bit ((d.logErr 1 0 0 code off).get R.HOST_EVT.EVT) 0 = true ∧ (d.logErr 1 0 0 code off).dram = d.dram ∧
    (d.logErr 1 0 0 code off).host = d.host ∧
    (d.errLog.length < 16 → (d.logErr 1 0 0 code off).errLog = d.errLog ++ [(2 ^ 31 + 2 ^ 28 + code * 2 ^ 24, off % 2 ^ 32)]) := by
  have hb : bit ((d.orF R.HOST_EVT.EVT (2 ^ 0)).get R.HOST_EVT.EVT) 0 = true := Dev.bit_orF_same d R.HOST_EVT.EVT (Fld.ok_of_ble rfl) (by decide)
  have hdr : (d.orF R.HOST_EVT.EVT (2 ^ 0)).dram = d.dram := Dev.dram_orF ..
  have hh : (d.orF R.HOST_EVT.EVT (2 ^ 0)).host = d.host := Dev.host_orF ..
  have he : (d.orF R.HOST_EVT.EVT (2 ^ 0)).errLog = d.errLog := Dev.errLog_orF ..
  unfold Dev.logErr
  rw [show (1 : Nat) = 2 ^ 0 from rfl]
  generalize d.orF R.HOST_EVT.EVT (2 ^ 0) = x at *
  dsimp only
  rw [he]
  split
  · next hl =>
    refine ⟨?_, ?_, ?_, fun h => absurd hl (Nat.not_le.2 h)⟩
    · rw [Dev.get_inc_apart _ R.ERR_LOG_STATUS.OVF R.HOST_EVT.EVT _ (Fld.ok_of_ble rfl) (.inl (by decide))]
      exact hb
    · rw [Dev.dram_inc, hdr]
    · rw [Dev.host_inc, hh]
  · refine ⟨hb, hdr, hh, fun _ => ?_⟩
    norm_num

/-- An access answered Unsupported Request. -/
def Dev.bar2Refused : Dev := (d.logErr 1 0 0 code off).bar2Done 2

theorem Dev.bar2Done_spec (st : Nat) (l : List Byte) : (d.bar2Done st l).host.b2.st = st ∧ (d.bar2Done st l).dram = d.dram ∧
    (d.bar2Done st l).host.b2wait = d.host.b2wait ∧ (∀ f, (d.bar2Done st l).get f = d.get f) ∧ (d.bar2Done st l).errLog = d.errLog := by
  unfold Dev.bar2Done
  exact ⟨rfl, rfl, rfl, fun f => Dev.get_onHost_eq .., rfl⟩

theorem Dev.bar2Refused_spec : (d.bar2Refused code off).host.b2.st = 2 ∧ (d.bar2Refused code off).dram = d.dram ∧
    bit ((d.bar2Refused code off).get R.HOST_EVT.EVT) 0 = true ∧
    (d.errLog.length < 16 → (d.bar2Refused code off).errLog = d.errLog ++ [(2 ^ 31 + 2 ^ 28 + code * 2 ^ 24, off % 2 ^ 32)]) := by
  obtain ⟨hb, hd, -, hl⟩ := d.logErr_spec code off
  obtain ⟨h1, h2, -, h4, h5⟩ := (d.logErr 1 0 0 code off).bar2Done_spec 2 []
  unfold Dev.bar2Refused
  exact ⟨h1, h2.trans hd, by rw [h4]; exact hb, fun h => h5.trans (hl h)⟩

end

end Sys2Proof.Machine
end

section
/-! A BAR2 access from its checks to its completion (spec/15, R382, R383, R316). -/

open Sys2Proof

namespace Sys2Proof.Machine

section
variable (d : Dev) (off : Nat) (op : B2Op)

/-- The request a BAR2 access makes. -/
def Dev.b2Req : B2Req := { off := off, page := d.get R.BAR2_PAGE.BASE * 2 ^ 30, op := op }

variable {d off op}

theorem Dev.bar2_closed (h : ¬ (d.on R.HOST_CTRL.BAR2_EN = true ∧ d.on R.MEM_CFG.EN = true) ∨ d.usable < (d.b2Req off op).addr + (d.b2Req off op).len) :
    d.bar2 off op = d.bar2Refused 6 off := by
  unfold Dev.bar2
  refine if_pos ?_
  rcases h with h | h
  · cases h1 : d.on R.HOST_CTRL.BAR2_EN with
    | false => exact .inl rfl
    | true =>
      cases h2 : d.on R.MEM_CFG.EN with
      | false => exact .inr (.inl rfl)
      | true => exact absurd ⟨h1, h2⟩ h
  · exact .inr (.inr h)

section
variable (hon : d.on R.HOST_CTRL.BAR2_EN = true ∧ d.on R.MEM_CFG.EN = true) (hu : (d.b2Req off op).addr + (d.b2Req off op).len ≤ d.usable)
include hon hu

theorem Dev.bar2_open : d.bar2 off op = if !d.admits useBar2 (d.b2Req off op).addr (d.b2Req off op).len then d.regionViol.bar2Refused 5 off
    else match d.barredPolder 47 with
      | some c => d.bar2Refused c off
      | none => if d.dramActive then d.bar2Run (d.b2Req off op) else d.demand.onHost fun h => { h with b2wait := h.b2wait ++ [d.b2Req off op] } := by
  obtain ⟨h1, h2⟩ := hon
  unfold Dev.bar2
  refine (if_neg ?_).trans rfl
  rw [h1, h2]
  rintro (h | h | h)
  · cases h
  · cases h
  · exact absurd hu (Nat.not_le.2 h)

theorem Dev.bar2_uncovered (ha : d.admits useBar2 (d.b2Req off op).addr (d.b2Req off op).len = false) :
    d.bar2 off op = d.regionViol.bar2Refused 5 off := by
  rw [Dev.bar2_open hon hu, ha]
  rfl

variable (ha : d.admits useBar2 (d.b2Req off op).addr (d.b2Req off op).len = true)
include ha

theorem Dev.bar2_barred {c : Nat} (hb : d.barredPolder 47 = some c) : d.bar2 off op = d.bar2Refused c off := by
  rw [Dev.bar2_open hon hu, ha, hb]
  rfl

theorem Dev.bar2_runs (hb : d.barredPolder 47 = none) (hp : d.polder 47 = 0) : d.bar2 off op = d.bar2Run (d.b2Req off op) := by
  have hact : d.dramActive = true := by rw [Dev.dramActive, hp]; rfl
  rw [Dev.bar2_open hon hu, ha, hb, hact]
  rfl

theorem Dev.bar2_waits (hb : d.barredPolder 47 = none) (hp : d.polder 47 ≠ 0) :
    d.bar2 off op = d.demand.onHost fun h => { h with b2wait := h.b2wait ++ [d.b2Req off op] } := by
  have hact : d.dramActive = false := by rw [Dev.dramActive]; exact beq_eq_false_iff_ne.2 hp
  rw [Dev.bar2_open hon hu, ha, hb, hact]
  rfl

end

end

section
variable (d : Dev)

/-- R276: one region covers the extent and admits BAR2. -/
theorem Dev.admits_iff (u a len : Nat) : d.admits u a len = true ↔ ∃ k, k < 16 ∧ bit (d.get (R.REGION_USE.USE k)) u = true ∧
    d.get (R.REGION_BASE.MIB k) * 2 ^ 20 ≤ a ∧ a + len ≤ min (d.get (R.REGION_LIMIT.MIB k) * 2 ^ 20) d.usable := by
  simp only [Dev.admits, List.any_eq_true, List.mem_range, Bool.and_eq_true, decide_eq_true_eq, and_assoc]

theorem Dev.regionViol_keeps : d.regionViol.dram = d.dram ∧ d.regionViol.errLog = d.errLog := by
  unfold Dev.regionViol
  constructor
  · rw [Dev.dram_bump, Dev.dram_memEvt, Dev.dram_inc]
  · rw [Dev.errLog_bump, Dev.memEvt, Dev.errLog_orF, Dev.errLog_inc]

theorem Dev.host_demand : d.demand.host = d.host := by
  unfold Dev.demand
  split
  · dsimp only
    rw [Dev.host_onPwr, Dev.host_orF, Dev.setPolder, Dev.host_setReg]
  · rfl

/-! The state of a polder (R314). -/

theorem Dev.polder_congr {d d' : Dev} {k : Nat} (h : d'.reg (A.POLDER_STATE (k / 8)) = d.reg (A.POLDER_STATE (k / 8))) : d'.polder k = d.polder k := by
  rw [Dev.polder, h, Dev.polder]

theorem Dev.polder_setPolder_same (p : Nat) {st : Nat} (h : st < 8) : (d.setPolder p st).polder p = st := by
  rw [Dev.polder, Dev.setPolder, Dev.reg_setReg_same, getBits_mod _ 32 _ _ (by omega), getBits_putBits_same _ _ _ _ (by omega),
    show 4 * (p % 8) + 2 + 1 - 4 * (p % 8) = 3 by omega]
  exact Nat.mod_eq_of_lt h

theorem Dev.polder_setPolder_ne {p k : Nat} (st : Nat) (h : p ≠ k) : (d.setPolder p st).polder k = d.polder k := by
  by_cases hw : p / 8 = k / 8
  · rw [Dev.polder, Dev.setPolder, ← hw, Dev.reg_setReg_same, getBits_mod _ 32 _ _ (by omega), getBits_putBits_ne _ _ _ _ _ _ (by omega) (by omega), Dev.polder, hw]
  · refine Dev.polder_congr (Dev.reg_setReg_ne _ _ ?_)
    show 0x10040 + p / 8 * 4 ≠ 0x10040 + k / 8 * 4
    omega

/-- R316: a demand on a DRAM in IDLE starts its return. -/
theorem Dev.demand_idle (h : d.polder 47 = 1) : d.demand.polder 47 = 4 ∧ bit (d.demand.get R.PWR_EVT.EVT) 4 = true := by
  have hp := d.polder_setPolder_same 47 (st := 4) (by decide)
  rw [Dev.demand, if_pos h]
  generalize d.setPolder 47 4 = y at *
  dsimp only
  rw [Dev.get_onPwr]
  refine ⟨?_, Dev.bit_orF_same (i := 4) _ R.PWR_EVT.EVT (Fld.ok_of_ble rfl) (by decide)⟩
  rw [← hp]
  refine Dev.polder_congr ?_
  rw [Dev.reg_onPwr, Dev.orF, Dev.reg_set_ne _ R.PWR_EVT.EVT _ (by decide)]

end

/-! What a BAR2 access leaves. -/

section
variable (d : Dev) (r : B2Req)

theorem Dev.bar2Run_read {n : Fin 4097} (h : r.op = .read n) : d.bar2Run r = if (d.getBytes .dram 0 0 r.addr n).2.1
    then ((d.getBytes .dram 0 0 r.addr n).2.2.logErr 1 0 0 8 r.off).bar2Done 3 (d.getBytes .dram 0 0 r.addr n).1
    else (d.getBytes .dram 0 0 r.addr n).2.2.bar2Done 1 (d.getBytes .dram 0 0 r.addr n).1 := by
  rw [Dev.bar2Run, h]

theorem Dev.bar2Run_write {l : List (Option Byte)} (h : r.op = .write l) : d.bar2Run r = (d.bar2Put r.addr l.length l).bar2Done 1 := by
  rw [Dev.bar2Run, h]

theorem Dev.bar2Run_done : ((d.bar2Run r).host.b2.st = 1 ∨ ((d.bar2Run r).host.b2.st = 3 ∧ ∃ n, r.op = .read n)) ∧ (d.bar2Run r).host.b2wait = d.host.b2wait := by
  cases h : r.op with
  | read n =>
    have hf := (FabStep.refl d).getBytes (sp := .dram) (a := r.addr) (n := n)
    rw [Dev.bar2Run_read d r h]
    generalize d.getBytes .dram 0 0 r.addr n = x at *
    split
    · obtain ⟨-, -, hh, -⟩ := x.2.2.logErr_spec 8 r.off
      obtain ⟨h1, -, h3, -, -⟩ := (x.2.2.logErr 1 0 0 8 r.off).bar2Done_spec 3 x.1
      exact ⟨.inr ⟨h1, n, rfl⟩, by rw [h3, hh, hf.host]⟩
    · obtain ⟨h1, -, h3, -, -⟩ := x.2.2.bar2Done_spec 1 x.1
      exact ⟨.inl h1, by rw [h3, hf.host]⟩
  | write l =>
    obtain ⟨h1, -, h3, -, -⟩ := (d.bar2Put r.addr l.length l).bar2Done_spec 1 []
    rw [Dev.bar2Run_write d r h]
    exact ⟨.inl h1, by rw [h3, (FabStep.refl d).bar2Put.host]⟩

/-- R383: a read that finds poison. -/
theorem Dev.bar2Run_poisoned {n : Fin 4097} {k : Nat} (h : r.op = .read n) (hn : 0 < n.val) (hk : r.addr / 8 ≤ k) (hk' : k * 8 < r.addr + n)
    (hp : d.dram.syndrome k = 0xFF) : (d.bar2Run r).host.b2.st = 3 ∧ (d.bar2Run r).dram = d.dram ∧
      bit ((d.bar2Run r).get R.HOST_EVT.EVT) 0 = true := by
  have hb := d.getBytes_poisoned n.val hn hk hk' hp
  have hd := d.dram_getBytes n r.addr
  rw [Dev.bar2Run_read d r h, if_pos hb]
  generalize d.getBytes .dram 0 0 r.addr n = x at *
  obtain ⟨h1, h2, -, -⟩ := x.2.2.logErr_spec 8 r.off
  obtain ⟨g1, g2, -, g4, -⟩ := (x.2.2.logErr 1 0 0 8 r.off).bar2Done_spec 3 x.1
  exact ⟨g1, (g2.trans h2).trans hd, by rw [g4]; exact h1⟩

end

section
variable {d : Dev} (hcl : d.clean .dram)
include hcl

/-- R284: words of a clean store read are the store's bytes. -/
theorem Dev.getWords_bytes (w n : Nat) : (d.getWords .dram 0 0 w n).1 = d.dram.bytes (8 * w) (8 * n) := by
  induction n with
  | zero => rfl
  | succ n ih =>
    have hraw : bytesLE (d.dram.raw (w + n)) 8 = d.dram.bytes (8 * (w + n)) 8 := by
      have h := bytesLE_leNat (d.dram.bytes (8 * (w + n)) 8)
      rwa [Store.length_bytes] at h
    rw [Dev.getWords, Dev.getWords_clean hcl]
    dsimp only
    rw [Dev.readWord_clean _ _ _ _ _ (hcl _), ih]
    dsimp only
    rw [Nat.mul_succ, Store.bytes_add, ← Nat.mul_add]
    exact congrArg _ hraw

theorem Dev.getBytes_bytes (a n : Nat) : d.getBytes .dram 0 0 a n = (d.dram.bytes a n, false, d) := by
  rw [Dev.getBytes_clean hcl]
  refine congrArg (fun l => (l, false, d)) ?_
  unfold Dev.getBytes
  split
  · next h => rw [h]; rfl
  · dsimp only
    rw [Dev.getWords_bytes hcl]
    have hlen : 8 * ((a % 8 + n + 7) / 8) = a % 8 + (n + (8 * ((a % 8 + n + 7) / 8) - (a % 8 + n))) := by omega
    rw [hlen, Store.bytes_add, List.drop_left' (Store.length_bytes ..), show 8 * (a / 8) + a % 8 = a by omega, Store.bytes_add,
      List.take_left' (Store.length_bytes ..)]

end

end Sys2Proof.Machine
end

section
/-! The host's function: its interrupt line, its power states and its reset (spec/15, R381, R384, R390, R397). -/

open Sys2Proof

namespace Sys2Proof.Machine

/-! The interrupt controller's own registers, and INTA. -/

/-- From d to d' nothing changes but registers of the interrupt controller and the INTA message. -/
def IntStep (d d' : Dev) : Prop :=
  (∃ regs inta, d' = { d with regs, host := { d.host with inta } }) ∧ ∀ a, a < 0x30000 ∨ 0x32000 ≤ a → d'.reg a = d.reg a

namespace IntStep
variable {d d' : Dev}

theorem refl (d : Dev) : IntStep d d := ⟨⟨_, _, rfl⟩, fun _ _ => rfl⟩

theorem trans {e : Dev} (h : IntStep d d') (h' : IntStep d' e) : IntStep d e := by
  obtain ⟨⟨r, i, rfl⟩, hr⟩ := h
  obtain ⟨⟨r', i', rfl⟩, hr'⟩ := h'
  exact ⟨⟨_, _, rfl⟩, fun a ha => (hr' a ha).trans (hr a ha)⟩

theorem setReg (h : IntStep d d') {a v : Nat} (h1 : 0x30000 ≤ a) (h2 : a < 0x32000) : IntStep d (d'.setReg a v) :=
  h.trans ⟨⟨_, _, rfl⟩, fun b hb => Dev.reg_setReg_ne d' v (by omega)⟩

theorem set (h : IntStep d d') {f : Fld} {v : Nat} (h1 : 0x30000 ≤ f.addr) (h2 : f.addr < 0x32000) : IntStep d (d'.set f v) := h.setReg h1 h2

theorem get (h : IntStep d d') {f : Fld} (ha : f.addr < 0x30000 ∨ 0x32000 ≤ f.addr) : d'.get f = d.get f := Dev.get_congr (h.2 _ ha)

theorem on (h : IntStep d d') {f : Fld} (ha : f.addr < 0x30000 ∨ 0x32000 ≤ f.addr) : d'.on f = d.on f := Dev.on_congr (h.2 _ ha)

theorem qp (h : IntStep d d') (k : Nat) : d'.qp k = d.qp k := by obtain ⟨⟨_, _, rfl⟩, -⟩ := h; rfl

theorem host (h : IntStep d d') : d'.host.b2wait = d.host.b2wait ∧ d'.host.intDis = d.host.intDis ∧ d'.host.pmeEn = d.host.pmeEn := by
  obtain ⟨⟨_, _, rfl⟩, -⟩ := h
  exact ⟨rfl, rfl, rfl⟩

theorem syncInta (h : IntStep d d') : IntStep d d'.syncInta := by
  unfold Dev.syncInta
  split
  · exact h.trans ⟨⟨_, _, rfl⟩, fun _ _ => rfl⟩
  · exact h

theorem foldl {α : Type} {f : Dev → α → Dev} (l : List α) (hf : ∀ x, ∀ a ∈ l, IntStep x (f x a)) (d : Dev) : IntStep d (l.foldl f d) := by
  induction l generalizing d with
  | nil => exact refl d
  | cons a l ih => exact (hf d a (.head _)).trans (ih (fun x b hb => hf x b (.tail _ hb)) _)

theorem refreshLine (h : IntStep d d') {t : Nat} (ht : t < 9) : IntStep d (d'.refreshLine t) := by
  have h1 : 0x30000 ≤ (R.TGT_STATUS.LINE t).addr := by show 0x30000 ≤ 0x31044 + t * 256; omega
  have h2 : (R.TGT_STATUS.LINE t).addr < 0x32000 := by show 0x31044 + t * 256 < 0x32000; omega
  unfold Dev.refreshLine
  dsimp only
  split
  · exact (h.set h1 h2).set h1 h2
  · exact h.set h1 h2

theorem refreshLines (h : IntStep d d') : IntStep d d'.refreshLines :=
  h.trans (foldl _ (fun x _ ht => (refl x).refreshLine (List.mem_range.1 ht)) d').syncInta

theorem flushTarget (h : IntStep d d') {t : Nat} (ht : t < 9) : IntStep d (d'.flushTarget t) := by
  have hd : d'.depth t < 2 ^ 5 := d'.get_lt _
  unfold Dev.flushTarget
  refine h.trans (refreshLines (set (foldl _ (fun x i hi => ?_) d') (by show 0x30000 ≤ 0x31044 + t * 256; omega)
    (by show 0x31044 + t * 256 < 0x32000; omega)))
  have hn := x.source_lt t i
  have hi := List.mem_range.1 hi
  refine setReg (setReg (refl x) ?_ ?_) ?_ ?_
  · show 0x30000 ≤ 0x30300 + _
    omega
  · show 0x30300 + x.get (R.STACK.SOURCE t i) / 32 * 4 < _
    omega
  · show 0x30000 ≤ 0x31080 + t * 256 + i * 4
    omega
  · show 0x31080 + t * 256 + i * 4 < 0x32000
    omega

end IntStep

section
variable (d : Dev)

/-- R384: where INTA may be sent it follows the request line of the host. -/
theorem Dev.syncInta_open (h : d.intaOpen = true) : d.syncInta.host.inta = d.on (R.TGT_STATUS.LINE 8) := by
  rw [Dev.syncInta, if_pos h]
  rfl

theorem Dev.intaOpen_iff : d.intaOpen = true ↔ d.get R.HOST_STATUS.PSTATE = 0 ∧ d.on R.HOST_STATUS.LINK_UP = true ∧ d.host.intDis = false := by
  simp only [Dev.intaOpen, Bool.and_eq_true, beq_iff_eq, Bool.not_eq_true', and_assoc]

end

/-! Every queue stopped (R391, R397). -/

section
variable (d : Dev) {q : Nat}

theorem Dev.reg_ringsCleared {a : Nat} (h : a < 0x41000 + q * 64 ∨ 0x41040 + q * 64 ≤ a) : (d.ringsCleared q).reg a = d.reg a := by
  have hne : ∀ i, 0x41000 ≤ i → i < 0x41040 → i + q * 64 ≠ a := fun i h1 h2 => by omega
  have hs : ∀ (f : Fld) (i v : Nat) (x : Dev), f.addr = i + q * 64 → 0x41000 ≤ i → i < 0x41040 → (x.set f v).reg a = x.reg a :=
    fun f i v x hf h1 h2 => Dev.reg_set_ne x f v (by rw [hf]; exact hne i h1 h2)
  unfold Dev.ringsCleared
  rw [hs (R.Q_CTRL.EN q) 0x41000 _ _ rfl (by decide) (by decide), hs (R.Q_STATUS.SIGNAL q) 0x41028 _ _ rfl (by decide) (by decide),
    hs (R.Q_STATUS.STOPPED q) 0x41028 _ _ rfl (by decide) (by decide), hs (R.Q_CQ_HEAD.IDX q) 0x41020 _ _ rfl (by decide) (by decide),
    hs (R.Q_CQ_TAIL.IDX q) 0x4101C _ _ rfl (by decide) (by decide), hs (R.Q_SQ_HEAD.IDX q) 0x41018 _ _ rfl (by decide) (by decide),
    hs (R.Q_SQ_TAIL.IDX q) 0x41014 _ _ rfl (by decide) (by decide)]

theorem Dev.reg_stopQueue {a : Nat} (ha : 0x40000 ≤ a) (ha' : a < 0x42000) (h : a < 0x41000 + q * 64 ∨ 0x41040 + q * 64 ≤ a) :
    (d.stopQueue q).reg a = d.reg a := by
  rw [Dev.stopQueue_eq, Dev.reg_ringsCleared _ h, Dev.heldCounted, Dev.reg_onQ, Dev.inc, Dev.reg_set_ne _ (R.Q_STATUS.DROPS q) _ (by
    show 0x41028 + q * 64 ≠ a
    omega)]
  exact (FabStep.dropHeld d _).reg (by omega)

theorem Dev.qp_stopQueue_ne {k : Nat} (h : q ≠ k) : (d.stopQueue q).qp k = d.qp k := by
  rw [Dev.stopQueue_eq, Dev.qp_ringsCleared, Dev.heldCounted, Dev.qp_onQ_ne _ _ h, Dev.inc, Dev.qp_set]
  exact (FabStep.dropHeld d _).qp k

theorem Dev.host_stopQueue : (d.stopQueue q).host = d.host := by
  rw [Dev.stopQueue_eq, Dev.ringsCleared, Dev.host_set, Dev.host_set, Dev.host_set, Dev.host_set, Dev.host_set, Dev.host_set, Dev.host_set,
    Dev.heldCounted, Dev.host_onQ, Dev.host_inc]
  exact (FabStep.dropHeld d _).host

end

/-- Queue q stands as a reset leaves it. -/
structure QueueReset (d : Dev) (q : Nat) : Prop where
  en : d.on (R.Q_CTRL.EN q) = false
  qp : d.qp q = {}
  head : d.get (R.Q_SQ_HEAD.IDX q) = 0
  tail : d.get (R.Q_CQ_TAIL.IDX q) = 0

theorem QueueReset.congr {d d' : Dev} {q : Nat} (h : QueueReset d q) (hr : ∀ a, 0x41000 + q * 64 ≤ a → a < 0x41040 + q * 64 → d'.reg a = d.reg a)
    (hq : d'.qp q = d.qp q) : QueueReset d' q := by
  refine ⟨(Dev.on_congr (hr _ ?_ ?_)).trans h.en, hq.trans h.qp, (Dev.get_congr (hr _ ?_ ?_)).trans h.head, (Dev.get_congr (hr _ ?_ ?_)).trans h.tail⟩
  · show _ ≤ 0x41000 + q * 64; omega
  · show 0x41000 + q * 64 < _; omega
  · show _ ≤ 0x41018 + q * 64; omega
  · show 0x41018 + q * 64 < _; omega
  · show _ ≤ 0x4101C + q * 64; omega
  · show 0x4101C + q * 64 < _; omega

/-- R397: every queue stopped. -/
def Dev.allStopped (d : Dev) : Dev := (List.range 64).foldl Dev.stopQueue d

theorem Dev.allStopped_spec (d : Dev) : (∀ q < 64, QueueReset d.allStopped q) ∧ d.allStopped.host = d.host ∧
    ∀ a, 0x40000 ≤ a → a < 0x41000 → d.allStopped.reg a = d.reg a := by
  refine ⟨fun q hq => ?_, foldl_keeps (fun x : Dev => x.host) (fun x _ => x.host_stopQueue) _ d, fun a h1 h2 =>
    foldl_keeps_mem (fun x : Dev => x.reg a) (List.range 64) (fun q _ x => x.reg_stopQueue h1 (by omega) (.inl (by omega))) d⟩
  refine (foldl_establishes (P := fun q x => q < 64 → QueueReset x q) (I := fun _ => True) (List.range 64) (fun _ _ _ _ => trivial) (fun x q hq _ _ => ?_)
    (fun x q hq k hk _ h hk' => ?_) d trivial).2.2 q (List.mem_range.2 hq) hq
  · obtain ⟨h1, -, h2, h3, -, -, -, h4, -⟩ := x.stopQueue_spec (List.mem_range.1 hq)
    exact ⟨h1, h4, h2, h3⟩
  · have hq := List.mem_range.1 hq
    exact (h hk').congr (fun a h1 h2 => x.reg_stopQueue (by omega) (by omega) (by omega)) (x.qp_stopQueue_ne (Ne.symm hk))

/-! The function reset (R397). -/

/-- BAR2_PAGE and the host's own state cleared, the queues stopped. -/
def Dev.functionCleared (d : Dev) : Dev :=
  (d.allStopped.onHost fun h => { h with intDis := false, pmeEn := false, b2wait := [], inta := false, retry := false }).setReg A.BAR2_PAGE 0

/-- What becomes of HOST_STATUS. -/
def Dev.functionStatus (d : Dev) (lost : Bool) : Dev :=
  if lost then d.setReg A.HOST_STATUS 0 else (d.set R.HOST_STATUS.PSTATE 0).set R.HOST_STATUS.PME_STATUS 0

theorem Dev.functionReset_eq (d : Dev) (lost : Bool) : d.functionReset lost =
    ((d.functionCleared.functionStatus lost).orF R.HOST_EVT.EVT (if lost then 2 else 8)).flushTarget 8 := rfl

section
variable (d : Dev) (lost : Bool)

theorem Dev.functionCleared_spec : d.functionCleared.reg A.BAR2_PAGE = 0 ∧ d.functionCleared.host.b2wait = [] ∧ d.functionCleared.host.intDis = false ∧
    d.functionCleared.host.pmeEn = false ∧ d.functionCleared.reg A.HOST_STATUS = d.reg A.HOST_STATUS ∧ ∀ q < 64, QueueReset d.functionCleared q := by
  obtain ⟨hq, hh, hr⟩ := d.allStopped_spec
  unfold Dev.functionCleared
  generalize d.allStopped = x at *
  refine ⟨?_, ?_, ?_, ?_, ?_, fun q hk => (hq q hk).congr (fun a h1 h2 => ?_) ?_⟩
  · rw [Dev.reg_setReg_same]
    rfl
  · rw [Dev.host_setReg, Dev.onHost]
  · rw [Dev.host_setReg, Dev.onHost]
  · rw [Dev.host_setReg, Dev.onHost]
  · rw [Dev.reg_setReg_ne _ _ (by decide), Dev.reg_onHost]
    exact hr _ (by decide) (by decide)
  · rw [Dev.reg_setReg_ne _ _ (by show 0x40020 ≠ a; omega), Dev.reg_onHost]
  · rw [Dev.qp, Dev.q_setReg, Dev.q_onHost, Dev.qp]

theorem Dev.functionStatus_spec : (d.functionStatus lost).get R.HOST_STATUS.PSTATE = 0 ∧
    (lost = false → (d.functionStatus lost).on R.HOST_STATUS.LINK_UP = d.on R.HOST_STATUS.LINK_UP) ∧
    (lost = true → (d.functionStatus lost).on R.HOST_STATUS.LINK_UP = false) ∧ (∀ a, a ≠ A.HOST_STATUS → (d.functionStatus lost).reg a = d.reg a) ∧
    (d.functionStatus lost).host = d.host ∧ ∀ k, (d.functionStatus lost).qp k = d.qp k := by
  cases lost with
  | true =>
    have hg : ∀ f : Fld, f.addr = A.HOST_STATUS → f.hi < 32 → (d.setReg A.HOST_STATUS 0).get f = 0 := fun f hf hh => by
      rw [← hf, Dev.get_setReg_same _ _ _ hh, getBits, Nat.zero_div, Nat.zero_mod]
    refine ⟨hg R.HOST_STATUS.PSTATE rfl (by decide), nofun, fun _ => ?_, fun a ha => Dev.reg_setReg_ne _ _ (Ne.symm ha), Dev.host_setReg .., fun k => ?_⟩
    · show (d.setReg A.HOST_STATUS 0).on R.HOST_STATUS.LINK_UP = false
      rw [Dev.on, hg R.HOST_STATUS.LINK_UP rfl (by decide)]
      rfl
    · show (d.setReg A.HOST_STATUS 0).qp k = d.qp k
      rw [Dev.qp, Dev.q_setReg, Dev.qp]
  | false =>
    have he : d.functionStatus false = (d.set R.HOST_STATUS.PSTATE 0).set R.HOST_STATUS.PME_STATUS 0 := rfl
    rw [he]
    refine ⟨?_, fun _ => ?_, nofun, fun a ha => ?_, ?_, fun k => by rw [Dev.qp_set, Dev.qp_set]⟩
    · rw [Dev.get_set_apart _ (f := R.HOST_STATUS.PME_STATUS) (g := R.HOST_STATUS.PSTATE) _ (Fld.ok_of_ble rfl) (.inr (by decide)),
        Dev.get_set_zero _ _ (Fld.ok_of_ble rfl)]
    · rw [Dev.on_set_apart _ R.HOST_STATUS.PME_STATUS R.HOST_STATUS.LINK_UP _ (Fld.ok_of_ble rfl) (.inr (by decide)),
        Dev.on_set_apart _ R.HOST_STATUS.PSTATE R.HOST_STATUS.LINK_UP _ (Fld.ok_of_ble rfl) (.inr (by decide))]
    · rw [Dev.reg_set_ne _ R.HOST_STATUS.PME_STATUS _ (Ne.symm ha), Dev.reg_set_ne _ R.HOST_STATUS.PSTATE _ (Ne.symm ha)]
    · rw [Dev.host_set, Dev.host_set]

theorem Dev.functionReset_spec : (d.functionReset lost).reg A.BAR2_PAGE = 0 ∧ (d.functionReset lost).host.b2wait = [] ∧
    (d.functionReset lost).host.intDis = false ∧ (d.functionReset lost).host.pmeEn = false ∧ (d.functionReset lost).get (R.TGT_STATUS.DEPTH 8) = 0 ∧
    (d.functionReset lost).get R.HOST_STATUS.PSTATE = 0 ∧
    (lost = false → bit ((d.functionReset lost).get R.HOST_EVT.EVT) 3 = true ∧ (d.functionReset lost).on R.HOST_STATUS.LINK_UP = d.on R.HOST_STATUS.LINK_UP) ∧
    (lost = true → bit ((d.functionReset lost).get R.HOST_EVT.EVT) 1 = true ∧ (d.functionReset lost).on R.HOST_STATUS.LINK_UP = false) ∧
    ∀ q < 64, QueueReset (d.functionReset lost) q := by
  obtain ⟨c1, c2, c3, c4, c5, c6⟩ := d.functionCleared_spec
  obtain ⟨s1, s2, s3, s4, s5, s6⟩ := d.functionCleared.functionStatus_spec lost
  have hl : d.functionCleared.on R.HOST_STATUS.LINK_UP = d.on R.HOST_STATUS.LINK_UP := Dev.on_congr c5
  rw [hl] at s2
  rw [Dev.functionReset_eq]
  have h1 : ∀ q < 64, QueueReset (d.functionCleared.functionStatus lost) q := fun q hq => (c6 q hq).congr (fun a ha hb => s4 a (by
    show a ≠ 0x40004
    omega)) (s6 q)
  have hb : (d.functionCleared.functionStatus lost).reg A.BAR2_PAGE = 0 := (s4 _ (by decide)).trans c1
  rw [← s5] at c2 c3 c4
  generalize d.functionCleared.functionStatus lost = x at *
  have h8 : bit ((x.orF R.HOST_EVT.EVT 8).get R.HOST_EVT.EVT) 3 = true := Dev.bit_orF_same (i := 3) _ R.HOST_EVT.EVT (Fld.ok_of_ble rfl) (by decide)
  have h2 : bit ((x.orF R.HOST_EVT.EVT 2).get R.HOST_EVT.EVT) 1 = true := Dev.bit_orF_same (i := 1) _ R.HOST_EVT.EVT (Fld.ok_of_ble rfl) (by decide)
  have hreg : ∀ m a, a ≠ A.HOST_EVT → (x.orF R.HOST_EVT.EVT m).reg a = x.reg a := fun m a ha => Dev.reg_set_ne _ R.HOST_EVT.EVT _ (Ne.symm ha)
  have hhost : ∀ m, (x.orF R.HOST_EVT.EVT m).host = x.host := fun m => Dev.host_orF ..
  have hqp : ∀ m k, (x.orF R.HOST_EVT.EVT m).qp k = x.qp k := fun m k => by rw [Dev.orF, Dev.qp_set]
  have hm : ∃ m, m = if lost then 2 else 8 := ⟨_, rfl⟩
  obtain ⟨m, hm⟩ := hm
  rw [← hm]
  replace hreg := hreg m
  replace hhost := hhost m
  replace hqp := hqp m
  have hev : (lost = false → bit ((x.orF R.HOST_EVT.EVT m).get R.HOST_EVT.EVT) 3 = true) ∧ (lost = true → bit ((x.orF R.HOST_EVT.EVT m).get R.HOST_EVT.EVT) 1 = true) := by
    rw [hm]
    exact ⟨fun h => by rw [h]; exact h8, fun h => by rw [h]; exact h2⟩
  clear h8 h2
  generalize x.orF R.HOST_EVT.EVT m = y at *
  have hf := (IntStep.refl y).flushTarget (t := 8) (by decide)
  obtain ⟨f1, f2, f3⟩ := hf.host
  have hs : ∀ f : Fld, f.addr = A.HOST_STATUS → (y.flushTarget 8).get f = x.get f := fun f hfa =>
    (hf.get (by rw [hfa]; exact .inr (by decide))).trans (Dev.get_congr (hreg _ (by rw [hfa]; decide)))
  have hson : ∀ f : Fld, f.addr = A.HOST_STATUS → (y.flushTarget 8).on f = x.on f := fun f hfa => by rw [Dev.on, hs f hfa, Dev.on]
  have hev' : (y.flushTarget 8).get R.HOST_EVT.EVT = y.get R.HOST_EVT.EVT := hf.get (.inr (by decide))
  refine ⟨((hf.2 _ (.inr (by decide))).trans (hreg _ (by decide))).trans hb, by rw [f1, hhost, c2], by rw [f2, hhost, c3], by rw [f3, hhost, c4],
    y.depth_flushTarget 8, (hs R.HOST_STATUS.PSTATE rfl).trans s1, fun h => ⟨by rw [hev']; exact hev.1 h, (hson R.HOST_STATUS.LINK_UP rfl).trans (s2 h)⟩,
    fun h => ⟨by rw [hev']; exact hev.2 h, (hson R.HOST_STATUS.LINK_UP rfl).trans (s3 h)⟩, fun q hq => (h1 q hq).congr (fun a ha hb => ?_) ?_⟩
  · exact (hf.2 a (.inr (by omega))).trans (hreg a (by show a ≠ 0x40008; omega))
  · rw [hf.qp, hqp]

end

end Sys2Proof.Machine
end

section
/-! PME, the link, configuration requests and the error log, and the host's function assembled (spec/15). -/

open Sys2Proof

namespace Sys2Proof.Machine

/-! Work for a host in D3hot (R390). -/

section
variable (d : Dev)

theorem Dev.queueWork_iff (q : Nat) : d.queueWork q = true ↔ d.on (R.Q_CTRL.EN q) = true ∧ (0 < (d.qp q).u ∨ d.on (R.Q_STATUS.SIGNAL q) = true ∨ (d.qp q).hold ≠ [] ∨
    (d.on (R.Q_CTRL.DIR q) = true ∧ d.get (R.Q_SQ_HEAD.IDX q) ≠ d.get (R.Q_SQ_TAIL.IDX q) ∧
      (d.get (R.Q_CQ_TAIL.IDX q) + 1) % 2 ^ d.get (R.Q_CTRL.CQ_SIZE q) = d.get (R.Q_CQ_HEAD.IDX q))) := by
  simp only [Dev.queueWork, Dev.sqReady, Dev.cqFull, Dev.cqLen, Bool.and_eq_true, Bool.or_eq_true, Bool.not_eq_true', decide_eq_true_eq, bne_iff_ne,
    beq_iff_eq, List.isEmpty_eq_false_iff, ne_eq, and_assoc, or_assoc]

theorem Dev.queueWork_congr {d d' : Dev} (hr : ∀ a, 0x41000 ≤ a → a < 0x42000 → d'.reg a = d.reg a) (hq : ∀ k, d'.qp k = d.qp k) {q : Nat} (h : q < 64) :
    d'.queueWork q = d.queueWork q := by
  have hs : RingSame d d' q := ⟨fun a h1 h2 => hr a (by omega) (by omega), by rw [hq], by rw [hq]⟩
  have hon : ∀ f : Fld, d'.get f = d.get f → d'.on f = d.on f := fun f hf => by rw [Dev.on, hf, Dev.on]
  have h1 : d'.on (R.Q_CTRL.EN q) = d.on (R.Q_CTRL.EN q) := hon _ (hs.get rfl rfl)
  have h2 : d'.on (R.Q_STATUS.SIGNAL q) = d.on (R.Q_STATUS.SIGNAL q) := hon _ (hs.get rfl rfl)
  have h3 : d'.on (R.Q_CTRL.DIR q) = d.on (R.Q_CTRL.DIR q) := hon _ (hs.get rfl rfl)
  have h4 : d'.get (R.Q_SQ_HEAD.IDX q) = d.get (R.Q_SQ_HEAD.IDX q) := hs.get rfl rfl
  have h5 : d'.get (R.Q_SQ_TAIL.IDX q) = d.get (R.Q_SQ_TAIL.IDX q) := hs.get rfl rfl
  have h6 : d'.get (R.Q_CQ_TAIL.IDX q) = d.get (R.Q_CQ_TAIL.IDX q) := hs.get rfl rfl
  have h7 : d'.get (R.Q_CTRL.CQ_SIZE q) = d.get (R.Q_CTRL.CQ_SIZE q) := hs.get rfl rfl
  have h8 : d'.get (R.Q_CQ_HEAD.IDX q) = d.get (R.Q_CQ_HEAD.IDX q) := hs.get rfl rfl
  rw [Bool.eq_iff_iff, Dev.queueWork_iff, Dev.queueWork_iff, h1, h2, h3, h4, h5, h6, h7, h8, hq]

theorem Dev.raisePme_sent (h : d.on R.HOST_STATUS.PME_STATUS = false) (he : d.host.pmeEn = true) : d.raisePme.host.pmeSent = d.host.pmeSent + 1 := by
  have hh : (d.set R.HOST_STATUS.PME_STATUS 1).host = d.host := Dev.host_set ..
  rw [Dev.raisePme, if_neg (by rw [h]; exact Bool.false_ne_true)]
  generalize d.set R.HOST_STATUS.PME_STATUS 1 = y at *
  dsimp only
  rw [if_pos (by rw [hh]; exact he), Dev.onHost]
  dsimp only
  rw [hh]

theorem Dev.get_raisePme {f : Fld} (h : R.HOST_STATUS.PME_STATUS.apart f) : d.raisePme.get f = d.get f := by
  unfold Dev.raisePme
  split
  · rfl
  · have hf : (d.set R.HOST_STATUS.PME_STATUS 1).get f = d.get f := Dev.get_set_apart _ _ (Fld.ok_of_ble rfl) h
    generalize d.set R.HOST_STATUS.PME_STATUS 1 = y at *
    dsimp only
    split
    · rw [Dev.get_onHost_eq, hf]
    · exact hf

/-- The part in D3hot, before its work is told. -/
def Dev.inD3 : Dev := (d.set R.HOST_STATUS.PSTATE 3).orF R.HOST_EVT.EVT 16

theorem Dev.inD3_spec : d.inD3.get R.HOST_STATUS.PSTATE = 3 ∧ bit (d.inD3.get R.HOST_EVT.EVT) 4 = true ∧
    d.inD3.on R.HOST_STATUS.PME_STATUS = d.on R.HOST_STATUS.PME_STATUS ∧ d.inD3.host = d.host ∧
    (∀ a, 0x41000 ≤ a → a < 0x42000 → d.inD3.reg a = d.reg a) ∧ ∀ k, d.inD3.qp k = d.qp k := by
  unfold Dev.inD3
  refine ⟨?_, Dev.bit_orF_same (i := 4) _ R.HOST_EVT.EVT (Fld.ok_of_ble rfl) (by decide), ?_, ?_, fun a h1 h2 => ?_, fun k => ?_⟩
  · rw [Dev.orF, Dev.get_set_apart _ (f := R.HOST_EVT.EVT) (g := R.HOST_STATUS.PSTATE) _ (Fld.ok_of_ble rfl) (.inl (by decide)),
      Dev.get_set_same _ _ _ (Fld.ok_of_ble rfl)]
    rfl
  · rw [Dev.orF, Dev.on_set_apart _ R.HOST_EVT.EVT R.HOST_STATUS.PME_STATUS _ (Fld.ok_of_ble rfl) (.inl (by decide)),
      Dev.on_set_apart _ R.HOST_STATUS.PSTATE R.HOST_STATUS.PME_STATUS _ (Fld.ok_of_ble rfl) (.inr (by decide))]
  · rw [Dev.host_orF, Dev.host_set]
  · rw [Dev.orF, Dev.reg_set_ne _ R.HOST_EVT.EVT _ (by show 0x40008 ≠ a; omega), Dev.reg_set_ne _ R.HOST_STATUS.PSTATE _ (by show 0x40004 ≠ a; omega)]
  · rw [Dev.orF, Dev.qp_set, Dev.qp_set]

theorem Dev.d3Entry_eq (h : d.get R.HOST_STATUS.PSTATE = 0) : d.d3Entry = if (List.range 64).any d.queueWork then d.inD3.raisePme else d.inD3 := by
  obtain ⟨-, -, -, -, hr, hq⟩ := d.inD3_spec
  have hw : (List.range 64).any d.inD3.queueWork = (List.range 64).any d.queueWork :=
    any_congr_mem fun q hk => Dev.queueWork_congr hr hq (List.mem_range.1 hk)
  rw [Dev.d3Entry, if_pos h, ← hw]
  rfl

theorem Dev.d3Entry_spec (h : d.get R.HOST_STATUS.PSTATE = 0) : d.d3Entry.get R.HOST_STATUS.PSTATE = 3 ∧ bit (d.d3Entry.get R.HOST_EVT.EVT) 4 = true ∧
    ((List.range 64).any d.queueWork = true → d.d3Entry.on R.HOST_STATUS.PME_STATUS = true ∧
      (d.on R.HOST_STATUS.PME_STATUS = false → d.host.pmeEn = true → d.d3Entry.host.pmeSent = d.host.pmeSent + 1)) ∧
    ((List.range 64).any d.queueWork = false → d.d3Entry.on R.HOST_STATUS.PME_STATUS = d.on R.HOST_STATUS.PME_STATUS ∧ d.d3Entry.host = d.host) := by
  obtain ⟨h1, h2, h3, h4, -, -⟩ := d.inD3_spec
  rw [d.d3Entry_eq h]
  generalize d.inD3 = y at *
  split
  · next hw =>
    refine ⟨?_, ?_, fun _ => ⟨y.raisePme_spec.1, fun hp he => ?_⟩, fun hn => absurd hw (by rw [hn]; exact Bool.false_ne_true)⟩
    · rw [y.get_raisePme (f := R.HOST_STATUS.PSTATE) (.inr (by decide))]
      exact h1
    · rw [y.get_raisePme (f := R.HOST_EVT.EVT) (.inl (by decide))]
      exact h2
    · rw [y.raisePme_sent (h3.trans hp) (by rw [h4]; exact he), h4]
  · next hw => exact ⟨h1, h2, fun hn => absurd hn hw, fun _ => ⟨h3, h4⟩⟩

/-! D0, the link and configuration requests (R381, R384, R390). -/

theorem Dev.get_syncInta_eq (f : Fld) : d.syncInta.get f = d.get f := Dev.get_congr (d.reg_syncInta _)

theorem Dev.q_syncInta : d.syncInta.q = d.q := by
  unfold Dev.syncInta
  split
  · exact Dev.q_onHost ..
  · rfl

/-- The part back in D0, before its interrupt line is told. -/
def Dev.inD0 : Dev := (d.set R.HOST_STATUS.PSTATE 0).orF R.HOST_EVT.EVT 32

theorem Dev.inD0_spec : d.inD0.get R.HOST_STATUS.PSTATE = 0 ∧ bit (d.inD0.get R.HOST_EVT.EVT) 5 = true ∧ d.inD0.q = d.q ∧ d.inD0.host = d.host ∧
    d.inD0.on R.HOST_STATUS.LINK_UP = d.on R.HOST_STATUS.LINK_UP ∧ d.inD0.on (R.TGT_STATUS.LINE 8) = d.on (R.TGT_STATUS.LINE 8) := by
  unfold Dev.inD0
  refine ⟨?_, Dev.bit_orF_same (i := 5) _ R.HOST_EVT.EVT (Fld.ok_of_ble rfl) (by decide), ?_, ?_, ?_, ?_⟩
  · rw [Dev.orF, Dev.get_set_apart _ (f := R.HOST_EVT.EVT) (g := R.HOST_STATUS.PSTATE) _ (Fld.ok_of_ble rfl) (.inl (by decide)),
      Dev.get_set_same _ _ _ (Fld.ok_of_ble rfl), Nat.zero_mod]
  · rw [Dev.q_orF, Dev.q_set]
  · rw [Dev.host_orF, Dev.host_set]
  · rw [Dev.orF, Dev.on_set_apart _ R.HOST_EVT.EVT R.HOST_STATUS.LINK_UP _ (Fld.ok_of_ble rfl) (.inl (by decide)),
      Dev.on_set_apart _ R.HOST_STATUS.PSTATE R.HOST_STATUS.LINK_UP _ (Fld.ok_of_ble rfl) (.inr (by decide))]
  · rw [Dev.orF, Dev.on_set_apart _ R.HOST_EVT.EVT (R.TGT_STATUS.LINE 8) _ (Fld.ok_of_ble rfl) (.inl (by decide)),
      Dev.on_set_apart _ R.HOST_STATUS.PSTATE (R.TGT_STATUS.LINE 8) _ (Fld.ok_of_ble rfl) (.inl (by decide))]

theorem Dev.d0Entry_spec (h : d.get R.HOST_STATUS.PSTATE = 3) : d.d0Entry.get R.HOST_STATUS.PSTATE = 0 ∧ bit (d.d0Entry.get R.HOST_EVT.EVT) 5 = true ∧
    d.d0Entry.q = d.q ∧ (d.on R.HOST_STATUS.LINK_UP = true → d.host.intDis = false → d.d0Entry.host.inta = d.on (R.TGT_STATUS.LINE 8)) := by
  have he : d.d0Entry = d.inD0.syncInta := by
    rw [Dev.d0Entry, if_pos h]
    rfl
  obtain ⟨h1, h2, h3, h4, h5, h6⟩ := d.inD0_spec
  rw [he]
  generalize d.inD0 = y at *
  refine ⟨by rw [y.get_syncInta_eq]; exact h1, by rw [y.get_syncInta_eq]; exact h2, y.q_syncInta.trans h3, fun hl hi => ?_⟩
  rw [y.syncInta_open (y.intaOpen_iff.2 ⟨h1, h5.trans hl, by rw [h4]; exact hi⟩), h6]

/-- The link up at a speed and width, before the interrupt line is told. -/
def Dev.linked (speed width : Nat) : Dev :=
  (((d.set R.HOST_STATUS.LINK_UP 1).set R.HOST_STATUS.SPEED speed).set R.HOST_STATUS.WIDTH width).orF R.HOST_EVT.EVT 4

theorem Dev.linked_spec {speed width : Nat} (hs : speed < 8) (hw : width < 16) : (d.linked speed width).on R.HOST_STATUS.LINK_UP = true ∧
    (d.linked speed width).get R.HOST_STATUS.SPEED = speed ∧ (d.linked speed width).get R.HOST_STATUS.WIDTH = width ∧
    bit ((d.linked speed width).get R.HOST_EVT.EVT) 2 = true ∧ (d.linked speed width).get R.HOST_STATUS.PSTATE = d.get R.HOST_STATUS.PSTATE ∧
    (d.linked speed width).host = d.host ∧ (d.linked speed width).on (R.TGT_STATUS.LINE 8) = d.on (R.TGT_STATUS.LINE 8) := by
  unfold Dev.linked
  have hev : ∀ (x : Dev) (f : Fld), A.HOST_EVT ≠ f.addr → (x.orF R.HOST_EVT.EVT 4).get f = x.get f := fun x f hf =>
    Dev.get_set_apart _ _ (Fld.ok_of_ble rfl) (.inl hf)
  have hl : ∀ (x : Dev) (v : Nat) (f : Fld), R.HOST_STATUS.LINK_UP.apart f → (x.set R.HOST_STATUS.LINK_UP v).get f = x.get f := fun x v f hf =>
    Dev.get_set_apart _ _ (Fld.ok_of_ble rfl) hf
  have hsp : ∀ (x : Dev) (v : Nat) (f : Fld), R.HOST_STATUS.SPEED.apart f → (x.set R.HOST_STATUS.SPEED v).get f = x.get f := fun x v f hf =>
    Dev.get_set_apart _ _ (Fld.ok_of_ble rfl) hf
  have hwd : ∀ (x : Dev) (v : Nat) (f : Fld), R.HOST_STATUS.WIDTH.apart f → (x.set R.HOST_STATUS.WIDTH v).get f = x.get f := fun x v f hf =>
    Dev.get_set_apart _ _ (Fld.ok_of_ble rfl) hf
  refine ⟨?_, ?_, ?_, Dev.bit_orF_same (i := 2) _ R.HOST_EVT.EVT (Fld.ok_of_ble rfl) (by decide), ?_, ?_, ?_⟩
  · rw [Dev.on, hev _ R.HOST_STATUS.LINK_UP (by decide), hwd _ _ R.HOST_STATUS.LINK_UP (.inr (by decide)), hsp _ _ R.HOST_STATUS.LINK_UP (.inr (by decide)),
      ← Dev.on, Dev.on_set_same _ _ _ (Fld.ok_of_ble rfl)]
    rfl
  · rw [hev _ R.HOST_STATUS.SPEED (by decide), hwd _ _ R.HOST_STATUS.SPEED (.inr (by decide)), Dev.get_set_same _ _ _ (Fld.ok_of_ble rfl)]
    exact Nat.mod_eq_of_lt hs
  · rw [hev _ R.HOST_STATUS.WIDTH (by decide), Dev.get_set_same _ _ _ (Fld.ok_of_ble rfl)]
    exact Nat.mod_eq_of_lt hw
  · rw [hev _ R.HOST_STATUS.PSTATE (by decide), hwd _ _ R.HOST_STATUS.PSTATE (.inr (by decide)), hsp _ _ R.HOST_STATUS.PSTATE (.inr (by decide)),
      hl _ _ R.HOST_STATUS.PSTATE (.inr (by decide))]
  · rw [Dev.host_orF, Dev.host_set, Dev.host_set, Dev.host_set]
  · rw [Dev.on, hev _ (R.TGT_STATUS.LINE 8) (by decide), hwd _ _ (R.TGT_STATUS.LINE 8) (.inl (by decide)), hsp _ _ (R.TGT_STATUS.LINE 8) (.inl (by decide)),
      hl _ _ (R.TGT_STATUS.LINE 8) (.inl (by decide)), Dev.on]

theorem Dev.linkUp_spec {speed width : Nat} (hs : speed < 8) (hw : width < 16) : (d.linkUp speed width).on R.HOST_STATUS.LINK_UP = true ∧
    (d.linkUp speed width).get R.HOST_STATUS.SPEED = speed ∧ (d.linkUp speed width).get R.HOST_STATUS.WIDTH = width ∧
    bit ((d.linkUp speed width).get R.HOST_EVT.EVT) 2 = true ∧
    (d.get R.HOST_STATUS.PSTATE = 0 → d.host.intDis = false → (d.linkUp speed width).host.inta = d.on (R.TGT_STATUS.LINE 8)) := by
  have he : d.linkUp speed width = (d.linked speed width).syncInta := rfl
  obtain ⟨h1, h2, h3, h4, h5, h6, h7⟩ := d.linked_spec hs hw
  rw [he]
  generalize d.linked speed width = y at *
  refine ⟨(y.on_syncInta _).trans h1, (y.get_syncInta_eq _).trans h2, (y.get_syncInta_eq _).trans h3, by rw [y.get_syncInta_eq]; exact h4, fun hp hi => ?_⟩
  rw [y.syncInta_open (y.intaOpen_iff.2 ⟨h5.trans hp, h1, by rw [h6]; exact hi⟩), h7]

end

end Sys2Proof.Machine
end

section
/-! The host's function assembled (spec/15). -/

open Sys2Proof

namespace Sys2Proof.Machine

section
variable (d : Dev)

theorem Dev.config_early (h : d.host.ready = false) (r : CfgReq) : d.config r = { d with host := { d.host with retry := true } } := by
  rw [Dev.config, h]
  rfl

theorem Dev.config_other (h : d.host.ready = true) : d.config .other = { d with host := { d.host with retry := false } } := by
  rw [Dev.config, h]
  rfl

theorem Dev.config_command (h : d.host.ready = true) (b : Bool) : d.config (.command b) =
    ({ d with host := { d.host with retry := false, intDis := b } } : Dev).syncInta := by
  rw [Dev.config, h]
  rfl

theorem Dev.config_pmcsr (h : d.host.ready = true) (b c : Bool) : d.config (.pmcsr b c) =
    if c then ({ d with host := { d.host with pmeEn := b, retry := false } } : Dev).set R.HOST_STATUS.PME_STATUS 0
    else { d with host := { d.host with pmeEn := b, retry := false } } := by
  rw [Dev.config, h]
  rfl

theorem Dev.regs_syncInta : d.syncInta.regs = d.regs ∧ d.syncInta.host.intDis = d.host.intDis ∧ d.syncInta.host.retry = d.host.retry := by
  unfold Dev.syncInta
  split
  · exact ⟨rfl, rfl, rfl⟩
  · exact ⟨rfl, rfl, rfl⟩

theorem Dev.command_spec (b : Bool) : (({ d with host := { d.host with retry := false, intDis := b } } : Dev).syncInta).host.intDis = b ∧
    (({ d with host := { d.host with retry := false, intDis := b } } : Dev).syncInta).host.retry = false ∧
    (({ d with host := { d.host with retry := false, intDis := b } } : Dev).syncInta).regs = d.regs ∧
    (d.get R.HOST_STATUS.PSTATE = 0 → d.on R.HOST_STATUS.LINK_UP = true → b = false →
      (({ d with host := { d.host with retry := false, intDis := b } } : Dev).syncInta).host.inta = d.on (R.TGT_STATUS.LINE 8)) := by
  have hp : ∀ f, ({ d with host := { d.host with retry := false, intDis := b } } : Dev).get f = d.get f := fun _ => rfl
  have ho : ∀ f, ({ d with host := { d.host with retry := false, intDis := b } } : Dev).on f = d.on f := fun _ => rfl
  have hi : ({ d with host := { d.host with retry := false, intDis := b } } : Dev).host.intDis = b := rfl
  have ht : ({ d with host := { d.host with retry := false, intDis := b } } : Dev).host.retry = false := rfl
  have hr : ({ d with host := { d.host with retry := false, intDis := b } } : Dev).regs = d.regs := rfl
  generalize ({ d with host := { d.host with retry := false, intDis := b } } : Dev) = y at *
  obtain ⟨h1, h2, h3⟩ := y.regs_syncInta
  refine ⟨h2.trans hi, h3.trans ht, h1.trans hr, fun h1 h2 h3 => ?_⟩
  rw [y.syncInta_open (y.intaOpen_iff.2 ⟨(hp _).trans h1, (ho _).trans h2, hi.trans h3⟩), ho]

theorem Dev.pmcsr_spec (b c : Bool) (h : d.host.ready = true) : (d.config (.pmcsr b c)).host = { d.host with pmeEn := b, retry := false } ∧
    (d.config (.pmcsr b c)).on R.HOST_STATUS.PME_STATUS = (d.on R.HOST_STATUS.PME_STATUS && !c) ∧
    RegsOnly { d with host := (d.config (.pmcsr b c)).host } (d.config (.pmcsr b c)) [A.HOST_STATUS] := by
  have hh : (d.config (.pmcsr b c)).host = { d.host with pmeEn := b, retry := false } := by
    rw [d.config_pmcsr h]
    split
    · rw [Dev.host_set]
    · rfl
  refine ⟨hh, ?_, ?_⟩
  · have ho : ({ d with host := { d.host with pmeEn := b, retry := false } } : Dev).on R.HOST_STATUS.PME_STATUS = d.on R.HOST_STATUS.PME_STATUS := by
      rw [Dev.on, Dev.get, Dev.reg]
      rfl
    rw [d.config_pmcsr h]
    cases c with
    | true => rw [if_pos rfl, Dev.on_set_zero _ _ (Fld.ok_of_ble rfl), Bool.not_true, Bool.and_false]
    | false => rw [if_neg Bool.false_ne_true, ho, Bool.not_false, Bool.and_true]
  · rw [hh, d.config_pmcsr h]
    exact RegsOnly.ite (fun _ => (RegsOnly.refl _ _).set 0 rfl) fun _ => RegsOnly.refl _ _

end

end Sys2Proof.Machine

open Sys2Proof.Machine

/-- Settles O53: a BAR2 access by its checks in turn, the PME and link commands, the queues a function reset stops, and configuration requests. -/
theorem hostFunction : Obligations.HostFunction := by
  unfold Obligations.HostFunction
  intro src off n l kind speed width b c s
  extract_lets d a ur rd wr on covered may line work pstate
  have hcov : ∀ len, covered len ↔ d.admits useBar2 a len = true := fun len => (d.admits_iff useBar2 a len).symm
  have hnot : ∀ len, ¬ covered len → d.admits useBar2 a len = false := fun len h => by
    rw [hcov] at h
    exact eq_false_of_ne_true h
  have hrd := makes_of_on (c := rd) (s := s) (f := fun d => d.bar2 off.toNat (.read n)) rfl
  have hwr := makes_of_on (c := wr) (s := s) (f := fun d => d.bar2 off.toNat (.write l)) rfl
  have hviol : ∀ {i : Instr}, Makes i s (d.regionViol.bar2Refused 5 off.toNat) → ur i 5 := fun h => by
    obtain ⟨h1, h2, h3, h4⟩ := d.regionViol.bar2Refused_spec 5 off.toNat
    obtain ⟨k1, k2⟩ := d.regionViol_keeps
    rw [k2] at h4
    exact h.gives ⟨h1, h2.trans k1, h3, h4⟩
  have hur : ∀ {i : Instr} {k : Nat}, Makes i s (d.bar2Refused k off.toNat) → ur i k := fun h => h.gives (d.bar2Refused_spec _ off.toNat)
  have hrun : ∀ {op : B2Op} {len : Nat}, (d.b2Req off.toNat op).len = len → may len → d.polder 47 = 0 → d.bar2 off.toNat op = d.bar2Run (d.b2Req off.toNat op) := by
    rintro op len rfl ⟨h1, h2, h3, h4⟩ h5
    exact Dev.bar2_runs h1 h2 ((hcov _).1 h3) h4 h5
  have hwait : ∀ {op : B2Op} {len : Nat}, (d.b2Req off.toNat op).len = len → may len → d.polder 47 ≠ 0 →
      d.bar2 off.toNat op = d.demand.onHost fun h => { h with b2wait := h.b2wait ++ [d.b2Req off.toNat op] } := by
    rintro op len rfl ⟨h1, h2, h3, h4⟩ h5
    exact Dev.bar2_waits h1 h2 ((hcov _).1 h3) h4 h5
  have hreq : ∀ op, d.b2Req off.toNat op = { off := off.toNat, page := a - off.toNat, op := op } := fun op => by
    rw [Dev.b2Req, show a - off.toNat = d.get R.BAR2_PAGE.BASE * 2 ^ 30 from Nat.add_sub_cancel ..]
  have hqueued : ∀ {i : Instr} {op : B2Op}, Makes i s (d.demand.onHost fun h => { h with b2wait := h.b2wait ++ [d.b2Req off.toNat op] }) →
      Gives i s fun u => u.dev.host.b2wait = d.host.b2wait ++ [{ off := off.toNat, page := a - off.toNat, op := op }] ∧ u.dev.dram = d.dram ∧
        u.dev.host.b2 = d.host.b2 ∧ (d.polder 47 = 1 → u.dev.polder 47 = 4 ∧ bit (u.dev.get R.PWR_EVT.EVT) 4 = true) := fun {i op} h => by
    have hh := d.host_demand
    have hdr := d.demand_keeps.2
    have hid := d.demand_idle
    generalize d.demand = y at *
    refine h.gives ⟨?_, hdr, ?_, fun hp => ⟨(hid hp).1, ?_⟩⟩
    · rw [Dev.onHost]
      dsimp only
      rw [hh, hreq]
    · rw [Dev.onHost]
      dsimp only
      rw [hh]
    · rw [Dev.get_onHost_eq]
      exact (hid hp).2
  refine ⟨fun h => hur (hrd.congr (Dev.bar2_closed (op := .read n) (h.imp id id))), fun h => hur (hwr.congr (Dev.bar2_closed (op := .write l) (h.imp id id))),
    fun h1 h2 h3 => hviol (hrd.congr (Dev.bar2_uncovered (op := .read n) h1 h2 (hnot _ h3))), fun h1 h2 h3 => hviol (hwr.congr (Dev.bar2_uncovered (op := .write l) h1 h2 (hnot _ h3))),
    fun c h1 h2 h3 h4 => hur (hrd.congr (Dev.bar2_barred (op := .read n) h1 h2 ((hcov _).1 h3) h4)),
    fun c h1 h2 h3 h4 => hur (hwr.congr (Dev.bar2_barred (op := .write l) h1 h2 ((hcov _).1 h3) h4)), fun hm hp => ?_, fun hm hp => ?_, fun hm hp => ?_, fun hm hp => ?_,
    fun hm hp hcl => ?_, fun hm hp hpo hn => ?_, fun hm hp hcl => ?_, fun hm hp => ?_, fun hp => ?_, fun hp => ?_, fun hp => ?_, fun hp => ?_,
    fun hp hon he => ?_, fun hp => ?_, fun hb e t => ?_, ?_, ?_, fun hr k => ?_, fun hr => ?_⟩
  · obtain ⟨h1, h2⟩ := d.bar2Run_done (d.b2Req off.toNat (.read n))
    exact (hrd.congr (hrun rfl hm hp)).gives ⟨h1.imp id And.left, h2⟩
  · obtain ⟨h1, h2⟩ := d.bar2Run_done (d.b2Req off.toNat (.write l))
    exact (hwr.congr (hrun rfl hm hp)).gives ⟨h1.resolve_right fun ⟨_, k, hk⟩ => (by cases hk), h2⟩
  · exact gives_mono (hqueued (hwr.congr (hwait rfl hm hp))) fun _ h => ⟨h.1, h.2.1⟩
  · exact gives_mono (hqueued (hrd.congr (hwait rfl hm hp))) fun _ h => ⟨h.1, h.2.1⟩
  · refine (hrd.congr (hrun rfl hm hp)).congr ?_
    rw [d.bar2Run_read _ rfl, Dev.getBytes_bytes hcl, if_neg Bool.false_ne_true]
    rfl
  · obtain ⟨w, hw1, hw2, hw3⟩ := hpo
    exact (hrd.congr (hrun rfl hm hp)).gives (d.bar2Run_poisoned _ rfl hn hw1 hw2 hw3)
  · obtain ⟨t, ht, hput⟩ := Dev.bar2Put_clean hcl a l.length l (Nat.le_refl _)
    have he : d.bar2Run (d.b2Req off.toNat (.write l)) = ({ d with dram := t } : Dev).bar2Done 1 := (d.bar2Run_write _ rfl).trans (congrArg (fun x : Dev => x.bar2Done 1) ht)
    obtain ⟨h1, h2, -⟩ := ({ d with dram := t } : Dev).bar2Done_spec 1 []
    refine ((hwr.congr (hrun rfl hm hp)).congr he).gives ⟨h1, fun w => ?_, fun i _ => ?_, fun i hi => ?_⟩
    · exact (congrArg (fun x : Store => x.syndrome w) h2).trans (hput.clean w)
    · refine (congrArg (fun x : Store => x.byte (a + i)) h2).trans ((hput.byte _).trans ?_)
      rw [if_pos (Nat.le_add_right ..), Nat.add_sub_cancel_left]
    · refine (congrArg (fun x : Store => x.byte i) h2).trans ((hput.byte _).trans ?_)
      split
      · rw [List.getD_eq_default _ _ (by omega), Option.getD_none]
      · rfl
  · exact gives_mono (hqueued (hrd.congr (hwait rfl hm (by rw [hp]; decide)))) fun _ ⟨h1, _, h3, h4⟩ => ⟨h1, (h4 hp).1, (h4 hp).2, h3⟩
  · have hm := makes_of_on (c := .d3hotEntry) (s := s) (f := Dev.d3Entry) rfl
    have hwork : work ↔ (List.range 64).any d.queueWork = true := by
      simp only [List.any_eq_true, List.mem_range, Dev.queueWork_iff]
      rfl
    obtain ⟨h1, h2, h3, h4⟩ := d.d3Entry_spec hp
    refine hm.gives ⟨h1, h2, fun hw => h3 (hwork.1 hw), fun hw => h4 (eq_false_of_ne_true fun h => hw (hwork.2 h))⟩
  · exact (makes_of_on (c := .d0Entry) (s := s) (f := Dev.d0Entry) rfl).gives (d.d0Entry_spec hp)
  · exact (makes_of_on (c := .d3hotEntry) (s := s) (f := Dev.d3Entry) rfl).congr (if_neg hp)
  · exact (makes_of_on (c := .d0Entry) (s := s) (f := Dev.d0Entry) rfl).congr (if_neg hp)
  · exact (makes_of_on (c := .pmeResend) (s := s) (f := Dev.pmeResend) rfl).congr (if_pos ⟨hp, hon, he⟩)
  · refine (makes_of_on (c := .pmeResend) (s := s) (f := Dev.pmeResend) rfl).congr (if_neg ?_)
    rintro ⟨h1, h2, h3⟩
    rcases hp with h | h | h
    · exact h h1
    · exact Bool.false_ne_true (h.symm.trans h2)
    · exact Bool.false_ne_true (h.symm.trans h3)
  · refine ⟨fun hl => ?_, fun hl => ?_⟩
    · have hm := makes_of_gateRead (c := .errLogPop src) (s := s) (f := Dev.errPop) (n := e.1) (x := { d.setReg A.ERR_LOG_1 e.2 with errLog := t }) rfl hb
        (by rw [Dev.errPop, hl])
      refine hm.gives ⟨Dev.reads_respond .., ?_, rfl⟩
      exact Dev.reg_setReg_same d A.ERR_LOG_1 e.2
    · have hm := makes_of_gateRead (c := .errLogPop src) (s := s) (f := Dev.errPop) (n := 0) (x := d) rfl hb (by rw [Dev.errPop, hl])
      exact hm.gives ⟨Dev.reads_respond .., rfl⟩
  · obtain ⟨h1, h2, h3, h4, h5, h6, h7, h8, h9⟩ := d.functionReset_spec (decide (kind.val ≠ 3))
    refine (makes_of_on (c := .functionReset kind) (s := s) (f := fun d => d.functionReset (decide (kind.val ≠ 3))) rfl).gives
      ⟨h1, h2, h3, h4, h5, h6, fun hk => h7 (decide_eq_false fun h => h hk), fun hk => h8 (decide_eq_true hk), fun q => ?_⟩
    obtain ⟨q1, q2, q3, q4⟩ := h9 q q.isLt
    exact ⟨q1, q2, q3, q4⟩
  · have hs := speed.isLt
    have hw : 2 ^ width.val < 16 := Nat.pow_lt_pow_right (a := 2) (by decide) width.isLt
    exact (makes_of_on (c := .pcieLinkUp speed width) (s := s) (f := fun d => d.linkUp (speed + 1) (2 ^ width.val)) rfl).gives (d.linkUp_spec (by omega) hw)
  · exact (makes_of_on (c := .configurationRequest k) (s := s) (f := fun d => d.config k) rfl).congr (d.config_early hr k)
  · refine ⟨(makes_of_on (c := .configurationRequest .other) (s := s) (f := fun d => d.config .other) rfl).congr (d.config_other hr),
      ((makes_of_on (c := .configurationRequest (.command b)) (s := s) (f := fun d => d.config (.command b)) rfl).congr (d.config_command hr b)).gives
        (d.command_spec b),
      (makes_of_on (c := .configurationRequest (.pmcsr b c)) (s := s) (f := fun d => d.config (.pmcsr b c)) rfl).gives (d.pmcsr_spec b c hr)⟩
end

section
/-! Resets of the whole part: what fuse load, PORST_N and a warm reset change (spec/15, R397). -/

open Sys2Proof

namespace Sys2Proof.Machine

/-! Registers, polders and lanes under a reset. -/

/-- From d to d' nothing changes but registers that p admits, polders, lanes and the free values drawn. -/
def ResetStep (p : Nat → Prop) (d d' : Dev) : Prop :=
  (∃ regs pol lane freeCtr, d' = { d with regs, pol, lane, freeCtr }) ∧ ∀ a, ¬ p a → d'.reg a = d.reg a

namespace ResetStep
variable {p : Nat → Prop} {d d' : Dev}

theorem refl (d : Dev) : ResetStep p d d := ⟨⟨_, _, _, _, rfl⟩, fun _ _ => rfl⟩

theorem trans {e : Dev} (h : ResetStep p d d') (h' : ResetStep p d' e) : ResetStep p d e := by
  obtain ⟨⟨r, q, l, c, rfl⟩, hr⟩ := h
  obtain ⟨⟨r', q', l', c', rfl⟩, hr'⟩ := h'
  exact ⟨⟨_, _, _, _, rfl⟩, fun a ha => (hr' a ha).trans (hr a ha)⟩

theorem mono {p' : Nat → Prop} (h : ResetStep p d d') (hp : ∀ a, p a → p' a) : ResetStep p' d d' := ⟨h.1, fun a ha => h.2 a fun h => ha (hp a h)⟩

theorem setReg (h : ResetStep p d d') {a v : Nat} (ha : p a) : ResetStep p d (d'.setReg a v) :=
  h.trans ⟨⟨_, _, _, _, rfl⟩, fun _ hb => Dev.reg_setReg_ne d' v fun e => hb (e ▸ ha)⟩

theorem set (h : ResetStep p d d') {f : Fld} {v : Nat} (ha : p f.addr) : ResetStep p d (d'.set f v) := h.setReg ha

theorem onP (h : ResetStep p d d') {k : Nat} {f : PolSt → PolSt} : ResetStep p d (d'.onP k f) := h.trans ⟨⟨_, _, _, _, rfl⟩, fun _ _ => rfl⟩

theorem onL (h : ResetStep p d d') {k : Nat} {f : LaneSt → LaneSt} : ResetStep p d (d'.onL k f) := h.trans ⟨⟨_, _, _, _, rfl⟩, fun _ _ => rfl⟩

theorem foldl {α : Type} {f : Dev → α → Dev} (l : List α) (hf : ∀ x, ∀ a ∈ l, ResetStep p x (f x a)) (d : Dev) : ResetStep p d (l.foldl f d) := by
  induction l generalizing d with
  | nil => exact refl d
  | cons a l ih => exact (hf d a (.head _)).trans (ih (fun x b hb => hf x b (.tail _ hb)) _)

theorem get (h : ResetStep p d d') {f : Fld} (hf : ¬ p f.addr) : d'.get f = d.get f := Dev.get_congr (h.2 _ hf)

theorem on (h : ResetStep p d d') {f : Fld} (hf : ¬ p f.addr) : d'.on f = d.on f := Dev.on_congr (h.2 _ hf)

end ResetStep

/-! Fuse load (R41, R52, R155, R267). -/

section
variable {d d' : Dev} (v : Vault)

/-- The registers of the octets. -/
abbrev inOctets (a : Nat) : Prop := 0x1000000 ≤ a

theorem ResetStep.fusedEdge (h : ResetStep inOctets d d') (o : Nat) : ResetStep inOctets d (d'.fusedEdge v o) := by
  refine h.trans (foldl _ (fun x e _ => ?_) d')
  split
  · exact (refl x).setReg (Nat.le_trans (octBase_le o) (by rw [A.AE_CAL, Nat.add_assoc]; exact Nat.le_add_right ..))
  · exact refl x

theorem ResetStep.fusedCal (h : ResetStep inOctets d d') (g : Nat) : ResetStep inOctets d (d'.fusedCal v g) := by
  refine h.trans (foldl _ (fun x e _ => ?_) d')
  split
  · exact (refl x).setReg (Nat.le_trans (laneBase_le g) (by rw [A.CAL_COEF, Nat.add_assoc]; exact Nat.le_add_right ..))
  · exact refl x

theorem ResetStep.fusedSpare (h : ResetStep inOctets d d') (g : Nat) : ResetStep inOctets d (d'.fusedSpare v g) := by
  have hl : ∀ i, inOctets (laneBase g + i) := fun i => Nat.le_trans (laneBase_le g) (Nat.le_add_right ..)
  unfold Dev.fusedSpare
  split
  · exact h
  · exact (((((((h.set (hl _)).set (hl _)).set (hl _)).set (hl _)).set (hl _)).set (hl _))).onL

theorem ResetStep.fusedLane (h : ResetStep inOctets d d') (g : Nat) : ResetStep inOctets d (d'.fusedLane v g) := (h.fusedCal v g).fusedSpare v g

end

section
variable (d : Dev) (v : Vault) (applied : Bool) (cause : Nat)

/-- The registers of HASH_KEY. -/
abbrev inHashKey (a : Nat) : Prop := ∃ w < 8, a = A.HASH_KEY w

theorem ResetStep.drawHashKey : ResetStep inHashKey d d.drawHashKey := by
  refine foldl _ (fun x w hw => ?_) d
  exact ((refl x).trans ⟨⟨_, _, _, _, rfl⟩, fun _ _ => rfl⟩ : ResetStep inHashKey x x.draw.2).setReg ⟨w, List.mem_range.1 hw, rfl⟩

/-- The status registers fuse load writes. -/
def Dev.fuseStatus : Dev :=
  (((d.flag R.RST_CAUSE.LC_APPLIED applied).set R.RST_CAUSE.CAUSE cause).set R.DBG_STATUS.LEVEL (levelReset v.life)).set R.REPAIR_COUNT.FUSED v.repairs

/-- The octets after fuse load. -/
def Dev.fuseOctets : Dev := (List.range 256).foldl (fun d g => d.fusedLane v g) ((List.range 32).foldl (fun d o => d.fusedEdge v o) d)

theorem Dev.loadFuses_eq : d.loadFuses v applied cause = ((d.fuseStatus v applied cause).fuseOctets v).drawHashKey := rfl

theorem ResetStep.fuseOctets : ResetStep inOctets d (d.fuseOctets v) :=
  ((foldl _ (fun x o _ => (refl x).fusedEdge v o) d)).trans (foldl _ (fun x g _ => (refl x).fusedLane v g) _)

theorem ResetStep.fuseStatus : ResetStep (fun a => a = A.RST_CAUSE ∨ a = A.DBG_STATUS ∨ a = A.REPAIR_COUNT) d (d.fuseStatus v applied cause) :=
  (((((refl d).set (f := R.RST_CAUSE.LC_APPLIED) (.inl rfl)).set (.inl rfl)).set (.inr (.inl rfl))).set (.inr (.inr rfl)))

theorem ResetStep.loadFuses : ResetStep (fun a => a = A.RST_CAUSE ∨ a = A.DBG_STATUS ∨ a = A.REPAIR_COUNT ∨ 0x100000 ≤ a) d (d.loadFuses v applied cause) := by
  rw [Dev.loadFuses_eq]
  refine ((ResetStep.fuseStatus d v applied cause).mono ?_).trans (((ResetStep.fuseOctets _ v).mono ?_).trans ((ResetStep.drawHashKey _).mono ?_))
  · rintro a (h | h | h)
    · exact .inl h
    · exact .inr (.inl h)
    · exact .inr (.inr (.inl h))
  · exact fun a h => .inr (.inr (.inr (Nat.le_trans (by decide) h)))
  · rintro _ ⟨w, -, rfl⟩
    exact .inr (.inr (.inr (by show 0x100000 ≤ 0x100010 + _; omega)))

theorem Dev.fuseStatus_spec : (d.fuseStatus v applied cause).on R.RST_CAUSE.LC_APPLIED = applied ∧
    (d.fuseStatus v applied cause).get R.RST_CAUSE.CAUSE = cause % 4 ∧ (d.fuseStatus v applied cause).get R.DBG_STATUS.LEVEL = (if v.life ≤ 1 then 2 else 0) ∧
    ∀ f : Fld, f.addr = A.DBG_STATUS → 1 < f.lo → (d.fuseStatus v applied cause).get f = d.get f := by
  have h4 : ∀ (x : Dev) (f : Fld), A.REPAIR_COUNT ≠ f.addr → (x.set R.REPAIR_COUNT.FUSED v.repairs).get f = x.get f := fun x f hf =>
    Dev.get_set_apart _ _ (Fld.ok_of_ble rfl) (.inl hf)
  have h3 : ∀ (x : Dev) (f : Fld), R.DBG_STATUS.LEVEL.apart f → (x.set R.DBG_STATUS.LEVEL (levelReset v.life)).get f = x.get f := fun x f hf =>
    Dev.get_set_apart _ _ (Fld.ok_of_ble rfl) hf
  have h2 : ∀ (x : Dev) (f : Fld), R.RST_CAUSE.CAUSE.apart f → (x.set R.RST_CAUSE.CAUSE cause).get f = x.get f := fun x f hf =>
    Dev.get_set_apart _ _ (Fld.ok_of_ble rfl) hf
  have h1 : ∀ (x : Dev) (f : Fld), R.RST_CAUSE.LC_APPLIED.apart f → (x.set R.RST_CAUSE.LC_APPLIED (b2n applied)).get f = x.get f := fun x f hf =>
    Dev.get_set_apart _ _ (Fld.ok_of_ble rfl) hf
  unfold Dev.fuseStatus Dev.flag
  refine ⟨?_, ?_, ?_, fun f hf hlo => ?_⟩
  · rw [Dev.on, h4 _ R.RST_CAUSE.LC_APPLIED (by decide), h3 _ R.RST_CAUSE.LC_APPLIED (.inl (by decide)), h2 _ R.RST_CAUSE.LC_APPLIED (.inr (by decide)),
      Dev.get_set_same _ _ _ (Fld.ok_of_ble rfl)]
    cases applied <;> rfl
  · rw [h4 _ R.RST_CAUSE.CAUSE (by decide), h3 _ R.RST_CAUSE.CAUSE (.inl (by decide)), Dev.get_set_same _ _ _ (Fld.ok_of_ble rfl)]
    rfl
  · rw [h4 _ R.DBG_STATUS.LEVEL (by decide), Dev.get_set_same _ _ _ (Fld.ok_of_ble rfl), levelReset]
    split <;> rfl
  · rw [h4 _ _ (by rw [hf]; decide), h3 _ _ (.inr (.inr hlo)), h2 _ _ (.inl (by rw [hf]; decide)), h1 _ _ (.inl (by rw [hf]; decide))]

theorem Dev.loadFuses_spec (hc : cause < 4) : (d.loadFuses v applied cause).on R.RST_CAUSE.LC_APPLIED = applied ∧
    (d.loadFuses v applied cause).get R.RST_CAUSE.CAUSE = cause ∧ (d.loadFuses v applied cause).get R.DBG_STATUS.LEVEL = (if v.life ≤ 1 then 2 else 0) ∧
    ∀ f : Fld, f.addr = A.DBG_STATUS → 1 < f.lo → (d.loadFuses v applied cause).get f = d.get f := by
  obtain ⟨h1, h2, h3, h4⟩ := d.fuseStatus_spec v applied cause
  have hg : ∀ f : Fld, f.addr < 0x100000 → (d.loadFuses v applied cause).get f = (d.fuseStatus v applied cause).get f := fun f hf => by
    rw [Dev.loadFuses_eq, (ResetStep.drawHashKey _).get fun ⟨w, _, hw⟩ => by
      rw [hw] at hf
      exact absurd hf (by show ¬ 0x100010 + _ < _; omega)]
    exact (ResetStep.fuseOctets _ v).get fun h => absurd (Nat.lt_of_lt_of_le hf (by decide : 0x100000 ≤ 0x1000000)) (Nat.not_lt.2 h)
  refine ⟨?_, ?_, ?_, fun f hf hlo => ?_⟩
  · rw [Dev.on, hg R.RST_CAUSE.LC_APPLIED (by decide)]
    exact h1
  · rw [hg R.RST_CAUSE.CAUSE (by decide), h2, Nat.mod_eq_of_lt hc]
  · rw [hg R.DBG_STATUS.LEVEL (by decide)]
    exact h3
  · rw [hg f (by rw [hf]; decide), h4 f hf hlo]

theorem Dev.fuseOctets_blank (h1 : v.spares = []) (h2 : v.cals = []) (h3 : v.aeCals = []) : d.fuseOctets v = d := by
  have he : ∀ (x : Dev) o, x.fusedEdge v o = x := fun x o => by rw [Dev.fusedEdge, h3]; rfl
  have hl : ∀ (x : Dev) g, x.fusedLane v g = x := fun x g => by
    rw [Dev.fusedLane, Dev.fusedCal, h2, Dev.fusedSpare, h1]
    rfl
  have hfold : ∀ (l : List Nat) (f : Dev → Nat → Dev) (x : Dev), (∀ x a, f x a = x) → l.foldl f x = x := fun l f x hf => by
    induction l generalizing x with
    | nil => rfl
    | cons a l ih => rw [List.foldl_cons, hf, ih]
  rw [Dev.fuseOctets, hfold _ _ _ he, hfold _ _ _ hl]

end

end Sys2Proof.Machine
end

section
/-! Epochs, the states of the polders, and what a warm reset keeps (spec/15, R397, R399). -/

open Sys2Proof

namespace Sys2Proof.Machine

/-! Epochs (R399). -/

section
variable (d : Dev)

theorem Dev.epoch_congr {d d' : Dev} {k : Nat} (h : d'.reg (A.EPOCH (k / 4)) = d.reg (A.EPOCH (k / 4))) : d'.epoch k = d.epoch k := by
  rw [Dev.epoch, h, Dev.epoch]

theorem Dev.epoch_bumpEpoch_same (p : Nat) : (d.bumpEpoch p).epoch p = (d.epoch p + 1) % 256 := by
  rw [Dev.epoch, Dev.bumpEpoch, Dev.reg_setReg_same, getBits_mod _ 32 _ _ (by omega), getBits_putBits_same _ _ _ _ (by omega),
    show 8 * (p % 4) + 7 + 1 - 8 * (p % 4) = 8 by omega, show 2 ^ 8 = 256 from rfl]

theorem Dev.epoch_bumpEpoch_ne {p k : Nat} (h : p ≠ k) : (d.bumpEpoch p).epoch k = d.epoch k := by
  by_cases hw : p / 4 = k / 4
  · rw [Dev.epoch, Dev.bumpEpoch, ← hw, Dev.reg_setReg_same, getBits_mod _ 32 _ _ (by omega), getBits_putBits_ne _ _ _ _ _ _ (by omega) (by omega), Dev.epoch, hw]
  · refine Dev.epoch_congr (Dev.reg_setReg_ne _ _ ?_)
    show 0x40 + p / 4 * 4 ≠ 0x40 + k / 4 * 4
    omega

theorem Dev.epoch_bumpEpochs {l : List Nat} (hl : l.Nodup) (k : Nat) :
    (l.foldl Dev.bumpEpoch d).epoch k = if k ∈ l then (d.epoch k + 1) % 256 else d.epoch k := by
  induction l generalizing d with
  | nil => rfl
  | cons p l ih =>
    obtain ⟨hp, hl⟩ := List.nodup_cons.1 hl
    rw [List.foldl_cons, ih _ hl]
    by_cases hk : p = k
    · subst hk
      rw [if_neg hp, if_pos (.head _), Dev.epoch_bumpEpoch_same]
    · rw [Dev.epoch_bumpEpoch_ne _ hk]
      simp only [List.mem_cons, Ne.symm hk, false_or]

theorem ResetStep.bumpEpochs (l : List Nat) (hl : ∀ k ∈ l, k < 49) : ResetStep (fun a => 0x40 ≤ a ∧ a < 0x74) d (l.foldl Dev.bumpEpoch d) :=
  foldl _ (fun x p hp => (refl x).setReg (by
    have := hl p hp
    show 0x40 ≤ 0x40 + p / 4 * 4 ∧ 0x40 + p / 4 * 4 < 0x74
    omega)) d

/-! Polders held in reset (R398). -/

theorem Dev.polder_onP (k : Nat) (f : PolSt → PolSt) (p : Nat) : (d.onP k f).polder p = d.polder p := Dev.polder_congr (Dev.reg_onP ..)

theorem Dev.p_setPolder (k st p : Nat) : (d.setPolder k st).p p = d.p p := by rw [Dev.setPolder, Dev.p_setReg]

/-- The polders of a list put into a state, each record changed by f. -/
def Dev.putPolders (d : Dev) (l : List Nat) (st : Nat) (f : PolSt → PolSt) : Dev := l.foldl (fun d p => (d.setPolder p st).onP p f) d

theorem Dev.putPolders_spec {l : List Nat} (hl : l.Nodup) {st : Nat} (hs : st < 8) (f : PolSt → PolSt) (k : Nat) :
    (d.putPolders l st f).polder k = (if k ∈ l then st else d.polder k) ∧ (d.putPolders l st f).p k = (if k ∈ l then f (d.p k) else d.p k) := by
  induction l generalizing d with
  | nil => exact ⟨rfl, rfl⟩
  | cons p l ih =>
    obtain ⟨hp, hl⟩ := List.nodup_cons.1 hl
    have he : d.putPolders (p :: l) st f = ((d.setPolder p st).onP p f).putPolders l st f := rfl
    obtain ⟨h1, h2⟩ := ih ((d.setPolder p st).onP p f) hl
    rw [he, h1, h2, Dev.polder_onP]
    by_cases hk : p = k
    · subst hk
      rw [if_neg hp, if_neg hp, if_pos (.head _), if_pos (.head _), Dev.polder_setPolder_same _ _ hs, Dev.p_onP_same, Dev.p_setPolder]
      exact ⟨rfl, rfl⟩
    · rw [Dev.polder_setPolder_ne _ _ hk, Dev.p_onP_ne _ _ hk, Dev.p_setPolder]
      simp only [List.mem_cons, Ne.symm hk, false_or, and_self]

theorem ResetStep.putPolders (l : List Nat) (st : Nat) (f : PolSt → PolSt) (hl : ∀ k ∈ l, k < 48) :
    ResetStep (fun a => 0x10040 ≤ a ∧ a < 0x10058) d (d.putPolders l st f) :=
  foldl _ (fun x p hp => ((refl x).setReg (by
    have := hl p hp
    show 0x10040 ≤ 0x10040 + p / 8 * 4 ∧ 0x10040 + p / 8 * 4 < 0x10058
    omega)).onP) d

end

/-! The warm reset (R397). -/

section
variable (d : Dev)

/-- The part with what a warm reset keeps. -/
def Dev.warmBase : Dev :=
  { regs := d.regs.filter (fun e => warmKeeps e.1), freeCtr := d.freeCtr, up := d.up, dram := if d.get R.MEM_CFG.KEEP_SR = 1 then d.dram else {},
    time := { d.time with ppsOut := false, ppsSec := none }, thm := { tripped := d.thm.tripped },
    bist := { soft := d.bist.soft }, pwr := { vcore := d.pwr.vcore }, mem := { lapAt := d.up } }

/-- The fields of x that a warm reset of d carries over: KEEP_SR, TRIP, and the DRAM in self-refresh. -/
def Dev.warmMemory (x : Dev) : Dev :=
  let x := (x.set R.MEM_CFG.KEEP_SR (d.get R.MEM_CFG.KEEP_SR)).set R.SENT_CTRL.TRIP (d.get R.SENT_CTRL.TRIP)
  if d.get R.MEM_CFG.KEEP_SR = 1 then (x.set R.MEM_STATUS.KEPT 1).set R.MEM_STATUS.SELF_REF 1 else x

/-- The failures of the debug port and the repairs that a warm reset of d carries over. -/
def Dev.warmDebug (x : Dev) : Dev :=
  ((x.set R.DBG_STATUS.FAILS (d.get R.DBG_STATUS.FAILS)).set R.DBG_STATUS.LOCKOUT (d.get R.DBG_STATUS.LOCKOUT)).set R.REPAIR_COUNT.SOFT
    (d.get R.REPAIR_COUNT.SOFT)

/-- The status of the tests that a warm reset of d breaks off. -/
def Dev.warmTests (x : Dev) : Dev :=
  (d.bist.run.filter fun r => decide (r.1 < 49)).foldl (fun n r => (n.setReg (A.T_STATUS r.1) (d.reg (A.T_STATUS r.1))).set (R.T_STATUS.STATE r.1) 4) x

/-- The polders of a part that a sentinel trip holds. -/
def Dev.warmTrip (x : Dev) : Dev := if d.thm.tripped then x.putPolders (List.range 48) 5 fun _ => { inReset := true } else x

theorem warmReset_eq (v : Vault) (c : Nat) : warmReset d v c =
    ((d.warmTrip (d.warmTests (d.warmDebug (d.warmMemory ((List.range 49).foldl Dev.bumpEpoch d.warmBase))))).loadFuses v.applyLife.1 v.applyLife.2 c,
      v.applyLife.1) := rfl

theorem Dev.reg_warmBase {a : Nat} (h : warmKeeps a = true) : d.warmBase.reg a = d.reg a :=
  congrArg BitVec.toNat (Tbl.get_filter (q := warmKeeps) (RegMap.reset a) d.regs h)

theorem Dev.reg_warmBase_out {a : Nat} (h : warmKeeps a = false) : d.warmBase.reg a = (RegMap.reset a).toNat :=
  congrArg BitVec.toNat (Tbl.get_filter_out (q := warmKeeps) (RegMap.reset a) d.regs h)

variable (x : Dev)

theorem ResetStep.warmMemory : ResetStep (fun a => a = A.MEM_CFG ∨ a = A.SENT_CTRL ∨ a = A.MEM_STATUS) x (d.warmMemory x) := by
  have h := ((refl (p := fun a => a = A.MEM_CFG ∨ a = A.SENT_CTRL ∨ a = A.MEM_STATUS) x).set (f := R.MEM_CFG.KEEP_SR) (v := d.get R.MEM_CFG.KEEP_SR)
    (.inl rfl)).set (f := R.SENT_CTRL.TRIP) (v := d.get R.SENT_CTRL.TRIP) (.inr (.inl rfl))
  unfold Dev.warmMemory
  dsimp only
  split
  · exact (h.set (.inr (.inr rfl))).set (.inr (.inr rfl))
  · exact h

theorem ResetStep.warmDebug : ResetStep (fun a => a = A.DBG_STATUS ∨ a = A.REPAIR_COUNT) x (d.warmDebug x) :=
  (((refl x).set (.inl rfl)).set (.inl rfl)).set (.inr rfl)

theorem ResetStep.warmTests : ResetStep (fun a => 0x60100 ≤ a ∧ a < 0x60410) x (d.warmTests x) := by
  refine foldl _ (fun y r hr => ?_) x
  have hlt : r.1 < 49 := by simpa using (List.mem_filter.1 hr).2
  have ha : 0x60100 ≤ A.T_STATUS r.1 ∧ A.T_STATUS r.1 < 0x60410 := by
    show 0x60100 ≤ 0x60100 + r.1 * 16 ∧ 0x60100 + r.1 * 16 < 0x60410
    omega
  exact ((refl y).setReg ha).set ha

theorem ResetStep.warmTrip : ResetStep (fun a => 0x10040 ≤ a ∧ a < 0x10058) x (d.warmTrip x) := by
  unfold Dev.warmTrip
  split
  · exact ResetStep.putPolders _ _ _ _ fun k hk => List.mem_range.1 hk
  · exact refl x

end

end Sys2Proof.Machine
end

section
/-! What PORST_N and a warm reset leave (spec/15, R397). -/

open Sys2Proof

namespace Sys2Proof.Machine

section
variable (d x : Dev)

theorem Dev.warmMemory_kept (h : d.get R.MEM_CFG.KEEP_SR = 1) : (d.warmMemory x).on R.MEM_STATUS.KEPT = true ∧ (d.warmMemory x).on R.MEM_STATUS.SELF_REF = true := by
  unfold Dev.warmMemory
  rw [if_pos h]
  constructor
  · rw [Dev.on_set_apart _ R.MEM_STATUS.SELF_REF R.MEM_STATUS.KEPT _ (Fld.ok_of_ble rfl) (.inr (by decide)), Dev.on_set_same _ _ _ (Fld.ok_of_ble rfl)]
    rfl
  · rw [Dev.on_set_same _ _ _ (Fld.ok_of_ble rfl)]
    rfl

theorem Dev.warmDebug_kept : (d.warmDebug x).get R.DBG_STATUS.FAILS = d.get R.DBG_STATUS.FAILS ∧
    (d.warmDebug x).get R.DBG_STATUS.LOCKOUT = d.get R.DBG_STATUS.LOCKOUT := by
  unfold Dev.warmDebug
  constructor
  · rw [Dev.get_set_apart _ (f := R.REPAIR_COUNT.SOFT) (g := R.DBG_STATUS.FAILS) _ (Fld.ok_of_ble rfl) (.inl (by decide)),
      Dev.get_set_apart _ (f := R.DBG_STATUS.LOCKOUT) (g := R.DBG_STATUS.FAILS) _ (Fld.ok_of_ble rfl) (.inr (by decide)),
      Dev.get_set_same _ _ _ (Fld.ok_of_ble rfl)]
    exact Nat.mod_eq_of_lt (d.get_lt _)
  · rw [Dev.get_set_apart _ (f := R.REPAIR_COUNT.SOFT) (g := R.DBG_STATUS.LOCKOUT) _ (Fld.ok_of_ble rfl) (.inl (by decide)),
      Dev.get_set_same _ _ _ (Fld.ok_of_ble rfl)]
    exact Nat.mod_eq_of_lt (d.get_lt _)

end

section
variable (d : Dev) (v : Vault) (c : Nat)

/-- The part between the epochs and fuse load. -/
def Dev.warmed : Dev := d.warmTrip (d.warmTests (d.warmDebug (d.warmMemory ((List.range 49).foldl Dev.bumpEpoch d.warmBase))))

/-- The part a warm reset leaves. -/
def Dev.warmDone : Dev := d.warmed.loadFuses v.applyLife.1 v.applyLife.2 c

theorem warmReset_eq_done : warmReset d v c = (d.warmDone v c, v.applyLife.1) := rfl

theorem ResetStep.warmDone : ResetStep (fun a => a = A.RST_CAUSE ∨ 0x10000 ≤ a) ((List.range 49).foldl Dev.bumpEpoch d.warmBase) (d.warmDone v c) := by
  unfold Dev.warmDone Dev.warmed
  refine ((ResetStep.warmMemory d _).mono ?_).trans (((ResetStep.warmDebug d _).mono ?_).trans (((ResetStep.warmTests d _).mono ?_).trans
    (((ResetStep.warmTrip d _).mono ?_).trans ((ResetStep.loadFuses _ _ _ _).mono ?_))))
  · rintro a (rfl | rfl | rfl) <;> exact .inr (by decide)
  · rintro a (rfl | rfl) <;> exact .inr (by decide)
  · exact fun a h => .inr (by omega)
  · exact fun a h => .inr (by omega)
  · rintro a (h | rfl | rfl | h)
    · exact .inl h
    · exact .inr (by decide)
    · exact .inr (by decide)
    · exact .inr (by omega)

/-- Every record but registers, polders and lanes is as the base has it. -/
theorem Dev.warmDone_frame : ∃ regs pol lane freeCtr, d.warmDone v c = { d.warmBase with regs, pol, lane, freeCtr } :=
  (((ResetStep.bumpEpochs d.warmBase (List.range 49) fun _ hk => List.mem_range.1 hk).mono (p' := fun _ => True) fun _ _ => trivial).trans
    ((ResetStep.warmDone d v c).mono fun _ _ => trivial)).1

theorem Dev.epoch_warmDone {q : Nat} (hq : q < 49) : (d.warmDone v c).epoch q = (d.epoch q + 1) % 256 := by
  have ha : 0x40 ≤ A.EPOCH (q / 4) ∧ A.EPOCH (q / 4) < 0x74 := by
    show 0x40 ≤ 0x40 + q / 4 * 4 ∧ 0x40 + q / 4 * 4 < 0x74
    omega
  have hb : d.warmBase.epoch q = d.epoch q := Dev.epoch_congr (d.reg_warmBase (by
    unfold warmKeeps
    rw [decide_eq_true ha, Bool.or_true]))
  have he := d.warmBase.epoch_bumpEpochs (List.nodup_range (n := 49)) q
  rw [if_pos (List.mem_range.2 hq), hb] at he
  rw [← he]
  refine Dev.epoch_congr ((ResetStep.warmDone d v c).2 _ ?_)
  rintro (h | h)
  · rw [h] at ha
    exact absurd ha (by decide)
  · omega

theorem Dev.scratch_warmDone {i : Nat} (hi : i < 8) : (d.warmDone v c).reg (A.SCRATCH i) = d.reg (A.SCRATCH i) := by
  have ha : 0x200 ≤ A.SCRATCH i ∧ A.SCRATCH i < 0x220 := by
    show 0x200 ≤ 0x200 + i * 4 ∧ 0x200 + i * 4 < 0x220
    omega
  have hb : d.warmBase.reg (A.SCRATCH i) = d.reg (A.SCRATCH i) := d.reg_warmBase (by
    unfold warmKeeps
    rw [decide_eq_true ha, Bool.or_true, Bool.true_or])
  rw [← hb, ← (ResetStep.bumpEpochs d.warmBase (List.range 49) fun _ hk => List.mem_range.1 hk).2 (A.SCRATCH i) (by omega)]
  refine (ResetStep.warmDone d v c).2 _ ?_
  rintro (h | h)
  · rw [h] at ha
    exact absurd ha (by decide)
  · omega

variable {c} (hc : c < 4)

include hc in
/-- A status register is as the debug port's fields left it. -/
theorem Dev.get_warmDone_debug {f : Fld} (hf : f.addr = A.DBG_STATUS) (hlo : 1 < f.lo) : (d.warmDone v c).get f =
    (d.warmDebug (d.warmMemory ((List.range 49).foldl Dev.bumpEpoch d.warmBase))).get f := by
  obtain ⟨-, -, -, h⟩ := d.warmed.loadFuses_spec v.applyLife.1 v.applyLife.2 c hc
  unfold Dev.warmDone
  rw [h f hf hlo, Dev.warmed, (ResetStep.warmTrip d _).get (by rw [hf]; decide), (ResetStep.warmTests d _).get (by rw [hf]; decide)]

theorem Dev.kept_warmDone (hk : d.get R.MEM_CFG.KEEP_SR = 1) : (d.warmDone v c).on R.MEM_STATUS.KEPT = true ∧
    (d.warmDone v c).on R.MEM_STATUS.SELF_REF = true := by
  obtain ⟨h1, h2⟩ := d.warmMemory_kept ((List.range 49).foldl Dev.bumpEpoch d.warmBase) hk
  have hfr : ∀ f : Fld, f.addr = A.MEM_STATUS → (d.warmDone v c).on f = (d.warmMemory ((List.range 49).foldl Dev.bumpEpoch d.warmBase)).on f := fun f hf => by
    unfold Dev.warmDone Dev.warmed
    rw [(ResetStep.loadFuses _ _ _ _).on (by rw [hf]; decide), (ResetStep.warmTrip d _).on (by rw [hf]; decide),
      (ResetStep.warmTests d _).on (by rw [hf]; decide), (ResetStep.warmDebug d _).on (by rw [hf]; decide)]
  exact ⟨(hfr R.MEM_STATUS.KEPT rfl).trans h1, (hfr R.MEM_STATUS.SELF_REF rfl).trans h2⟩

theorem Dev.pol_loadFuses (x : Dev) (w : Vault) (b : Bool) : (x.loadFuses w b c).pol = x.pol := by
  have hedge : ∀ (y : Dev) o, (y.fusedEdge w o).pol = y.pol := fun y o => by
    refine foldl_keeps Dev.pol (fun y e => ?_) _ _
    split
    · exact Dev.pol_setReg ..
    · rfl
  have hcal : ∀ (y : Dev) g, (y.fusedCal w g).pol = y.pol := fun y g => by
    refine foldl_keeps Dev.pol (fun y e => ?_) _ _
    split
    · exact Dev.pol_setReg ..
    · rfl
  have hspare : ∀ (y : Dev) g, (y.fusedSpare w g).pol = y.pol := fun y g => by
    unfold Dev.fusedSpare
    split
    · rfl
    · rw [Dev.pol_onL, Dev.pol_set, Dev.pol_set, Dev.pol_set, Dev.pol_set, Dev.pol_set, Dev.pol_set]
  have hlane : ∀ (y : Dev) g, (y.fusedLane w g).pol = y.pol := fun y g => (hspare _ g).trans (hcal y g)
  have hkey : ∀ y : Dev, y.drawHashKey.pol = y.pol := fun y => foldl_keeps Dev.pol
    (fun y k => show (y.draw.2.setReg (A.HASH_KEY k) (y.draw.1.toNat % 2 ^ 32)).pol = y.pol from (Dev.pol_setReg ..).trans rfl) _ _
  rw [Dev.loadFuses_eq, hkey, Dev.fuseOctets, foldl_keeps Dev.pol hlane, foldl_keeps Dev.pol hedge, Dev.fuseStatus, Dev.pol_set, Dev.pol_set, Dev.pol_set,
    Dev.pol_flag]

/-- The polders before those of a tripped part are taken into reset. -/
theorem Dev.pol_warmTests : (d.warmTests (d.warmDebug (d.warmMemory ((List.range 49).foldl Dev.bumpEpoch d.warmBase)))).pol = [] := by
  have h1 : ∀ x : Dev, (d.warmMemory x).pol = x.pol := fun x => by
    unfold Dev.warmMemory
    dsimp only
    split
    · rw [Dev.pol_set, Dev.pol_set, Dev.pol_set, Dev.pol_set]
    · rw [Dev.pol_set, Dev.pol_set]
  have h2 : ∀ x : Dev, (d.warmDebug x).pol = x.pol := fun x => by rw [Dev.warmDebug, Dev.pol_set, Dev.pol_set, Dev.pol_set]
  have h3 : ∀ x : Dev, (d.warmTests x).pol = x.pol := fun x => foldl_keeps Dev.pol (fun y r => by rw [Dev.pol_set, Dev.pol_setReg]) _ _
  have h4 : ∀ x : Dev, ((List.range 49).foldl Dev.bumpEpoch x).pol = x.pol := fun x => foldl_keeps Dev.pol (fun y p => Dev.pol_setReg ..) _ _
  rw [h3, h2, h1, h4]
  rfl

theorem Dev.polder_warmDone {p : Nat} (hp : p < 48) : (d.thm.tripped = true → (d.warmDone v c).polder p = 5 ∧ ((d.warmDone v c).p p).inReset = true) ∧
    (d.thm.tripped = false → (d.warmDone v c).polder p = 0 ∧ ((d.warmDone v c).p p).inReset = false) := by
  have ha : 0x10040 ≤ A.POLDER_STATE (p / 8) ∧ A.POLDER_STATE (p / 8) < 0x10058 := by
    show 0x10040 ≤ 0x10040 + p / 8 * 4 ∧ 0x10040 + p / 8 * 4 < 0x10058
    omega
  have hload : (d.warmDone v c).polder p = d.warmed.polder p := Dev.polder_congr ((ResetStep.loadFuses _ _ _ _).2 _ (by
    rintro (h | h | h | h)
    · rw [h] at ha; exact absurd ha (by decide)
    · rw [h] at ha; exact absurd ha (by decide)
    · rw [h] at ha; exact absurd ha (by decide)
    · omega))
  have hpl : (d.warmDone v c).p p = d.warmed.p p := by rw [Dev.p, Dev.warmDone, Dev.pol_loadFuses, Dev.p]
  have hpol := d.pol_warmTests
  have hbase : (d.warmTests (d.warmDebug (d.warmMemory ((List.range 49).foldl Dev.bumpEpoch d.warmBase)))).polder p = d.warmBase.polder p := Dev.polder_congr (by
    rw [(ResetStep.warmTests d _).2 _ (by omega), (ResetStep.warmDebug d _).2 _ (by
        rintro (h | h) <;> rw [h] at ha <;> exact absurd ha (by decide)), (ResetStep.warmMemory d _).2 _ (by
        rintro (h | h | h) <;> rw [h] at ha <;> exact absurd ha (by decide))]
    exact (ResetStep.bumpEpochs _ _ fun _ hk => List.mem_range.1 hk).2 _ (by omega))
  rw [hload, hpl, Dev.warmed]
  generalize d.warmTests (d.warmDebug (d.warmMemory ((List.range 49).foldl Dev.bumpEpoch d.warmBase))) = x at *
  refine ⟨fun ht => ?_, fun ht => ?_⟩
  · obtain ⟨h1, h2⟩ := x.putPolders_spec (List.nodup_range (n := 48)) (st := 5) (by decide) (fun _ => { inReset := true }) p
    rw [Dev.warmTrip, if_pos ht, h1, h2, if_pos (List.mem_range.2 hp), if_pos (List.mem_range.2 hp)]
    exact ⟨rfl, rfl⟩
  · rw [Dev.warmTrip, if_neg (by rw [ht]; exact Bool.false_ne_true), hbase]
    refine ⟨?_, ?_⟩
    · have hr : RegMap.reset (A.POLDER_STATE (p / 8)) = 0 := by
        have hk : p / 8 < 6 := by omega
        generalize p / 8 = k at hk
        revert k
        decide
      have hw : warmKeeps (A.POLDER_STATE (p / 8)) = false := by
        have hk : p / 8 < 6 := by omega
        generalize p / 8 = k at hk
        revert k
        decide
      rw [Dev.polder, d.reg_warmBase_out hw, hr]
      rw [getBits, show BitVec.toNat (0 : Word) = 0 from rfl, Nat.zero_div, Nat.zero_mod]
    · rw [Dev.p, hpol]
      rfl

end

section
variable (d : Dev) (v : Vault)

theorem coldReset_eq : coldReset d v = (({ freeCtr := d.freeCtr, up := d.up } : Dev).loadFuses v.applyLife.1 v.applyLife.2 0, v.applyLife.1) := rfl

/-- With no repair fused and no calibration record every register but those of fuse load and HASH_KEY has its reset value. -/
theorem coldReset_blank (h1 : v.spares = []) (h2 : v.cals = []) (h3 : v.aeCals = []) {a : Nat}
    (ha : a ≠ A.RST_CAUSE ∧ a ≠ A.DBG_STATUS ∧ a ≠ A.REPAIR_COUNT) (hk : ∀ k, k < 8 → a ≠ A.HASH_KEY k) :
    (coldReset d v).1.reg a = (RegMap.reset a).toNat := by
  obtain ⟨k1, k2, k3⟩ := ha
  rw [coldReset_eq]
  dsimp only
  rw [Dev.loadFuses_eq, Dev.fuseOctets_blank _ v.applyLife.1 h1 h2 h3, (ResetStep.drawHashKey _).2 a fun ⟨w, hw, he⟩ => hk w hw he,
    (ResetStep.fuseStatus _ _ _ _).2 a (by rintro (h | h | h) <;> contradiction)]
  rfl

end

end Sys2Proof.Machine
end

section
/-! The blocks of a polder after its reset, and the registers that a reset of one polder leaves alone (spec/15, R398, R399). -/

open Sys2Proof

namespace Sys2Proof.Machine

/-! Registers set back. -/

section
variable (d : Dev) (sel : Nat → Bool)

theorem Dev.reg_clearRegs_out {a : Nat} (h : sel a = false) : (d.clearRegs sel).reg a = d.reg a :=
  congrArg BitVec.toNat (Tbl.get_filter (q := fun a => !sel a) (RegMap.reset a) d.regs (by rw [h]; rfl))

theorem Dev.reg_clearRegs_in {a : Nat} (h : sel a = true) : (d.clearRegs sel).reg a = (RegMap.reset a).toNat :=
  congrArg BitVec.toNat (Tbl.get_filter_out (q := fun a => !sel a) (RegMap.reset a) d.regs (by rw [h]; rfl))

end

/-! Frames of an octet (R188). -/

namespace FabStep
variable {d d' : Dev}

theorem octetFrames (h : FabStep d d') (o : Nat) : FabStep d (d'.octetFrames o) := by
  refine h.trans (foldl (fun x port => ?_) _ d')
  dsimp only
  refine FabStep.trans (onF ?_) (foldl (fun z g => ?_) _ _)
  · split
    · exact (refl x).ctFail (by decide)
    · exact refl x
  · exact (((refl z).dropFrame (by decide)).freeCells).onF

end FabStep

/-- R260: the reference of an octet no longer settled, registers below the octets stay. -/
theorem Dev.reg_unsettle (d : Dev) (o : Nat) {a : Nat} (ha : a < 0x1000000) : (d.unsettle o).reg a = d.reg a := by
  have ho : ∀ i, octBase o + i ≠ a := fun i => Nat.ne_of_gt (Nat.lt_of_lt_of_le ha (Nat.le_trans (octBase_le o) (Nat.le_add_right ..)))
  refine (foldl_keeps (fun x : Dev => x.reg a) (fun x i => ?_) _ _).trans (Dev.reg_set_ne _ (R.AE_STATUS.REF_SETTLED o) _ (ho _))
  have h1 : ((x.onCh o i fun c => { c with n := 0, cut := x.arriveNow o, cic := {}, hist := [], age := 0 }).clrF (R.AE_STATUS.VALID o) (2 ^ i)).reg a =
      x.reg a := (Dev.reg_set_ne _ (R.AE_STATUS.VALID o) _ (ho _)).trans (Dev.reg_onCh ..)
  exact (Dev.reg_setReg_ne _ _ (by rw [A.CH_VALUE, Nat.add_assoc]; exact ho _)).trans h1

/-! The registers below the blocks of R14. -/

/-- From d to d' no register of the chip's control, power and interrupt blocks changes but PAD_HOLD and PAD_HOLD_DRAM. -/
def LowKept (d d' : Dev) : Prop := ∀ a, a < 0x33000 → a ≠ A.PAD_HOLD → a ≠ A.PAD_HOLD_DRAM → d'.reg a = d.reg a

namespace LowKept
variable {d d' : Dev}

theorem refl (d : Dev) : LowKept d d := fun _ _ _ _ => rfl

theorem trans {e : Dev} (h : LowKept d d') (h' : LowKept d' e) : LowKept d e := fun a h1 h2 h3 => (h' a h1 h2 h3).trans (h a h1 h2 h3)

theorem of_regs (h : d'.regs = d.regs) : LowKept d d' := fun a _ _ _ => by rw [Dev.reg, h, Dev.reg]

theorem setReg (h : LowKept d d') {a v : Nat} (ha : 0x33000 ≤ a) : LowKept d (d'.setReg a v) := fun b h1 h2 h3 =>
  (Dev.reg_setReg_ne d' v (by omega)).trans (h b h1 h2 h3)

theorem set (h : LowKept d d') {f : Fld} {v : Nat} (ha : 0x33000 ≤ f.addr) : LowKept d (d'.set f v) := h.setReg ha

theorem foldl {α : Type} {f : Dev → α → Dev} (l : List α) (hf : ∀ x a, LowKept x (f x a)) (d : Dev) : LowKept d (l.foldl f d) := by
  induction l generalizing d with
  | nil => exact refl d
  | cons a l ih => exact (hf d a).trans (ih _)

theorem clearRegs (h : LowKept d d') {sel : Nat → Bool} (hs : ∀ a < 0x33000, sel a = false) : LowKept d (d'.clearRegs sel) := fun a h1 h2 h3 =>
  (d'.reg_clearRegs_out sel (hs a h1)).trans (h a h1 h2 h3)

end LowKept

section
variable (d : Dev) (v : Vault)

theorem Dev.low_of_reset {p : Nat → Prop} {d' : Dev} (h : ResetStep p d d') (hp : ∀ a < 0x33000, ¬ p a) : LowKept d d' := fun a h1 _ _ => h.2 a (hp a h1)

/-- The octet's records set back. -/
def Dev.octetForgotten (o : Nat) : Dev :=
  { d with
    lane := Tbl.outside d.lane (8 * o) (8 * o + 8), port := Tbl.outside d.port (8 * o) (8 * o + 8),
    oct := Tbl.del o d.oct, tl := Tbl.del o d.tl, weir := Tbl.del o d.weir,
    loop := Tbl.outside d.loop (20 * o) (20 * o + 20), chain := Tbl.outside d.chain (20 * o) (20 * o + 20) }

theorem LowKept.octetForgotten (o : Nat) : LowKept d (d.octetForgotten o) := of_regs rfl

/-- The octet's records and registers set back, before fuse load. -/
def Dev.octetCleared (o : Nat) : Dev :=
  ((d.octetFrames o).clearRegs fun a => decide (0x1000000 + 0x20000 * o ≤ a ∧ a < 0x1000000 + 0x20000 * (o + 1))).octetForgotten o

/-- The octet's lanes and analog edge after fuse load. -/
def Dev.octetFused (o : Nat) : Dev := (lanesOf o).foldl (fun d g => d.fusedLane v g) ((d.octetCleared o).fusedEdge v o)

theorem Dev.resetOctet_eq (o : Nat) : d.resetOctet v o = (((d.octetFused v o).clrF R.PAD_HOLD.OCT (2 ^ o)).startPeriod o).unsettle o := rfl

theorem LowKept.octetFused (o : Nat) : LowKept d (d.octetFused v o) := by
  have h1 : LowKept d (d.octetFrames o) := fun a h1 _ _ => ((FabStep.refl d).octetFrames o).reg (.inl ⟨by omega, by omega⟩)
  have h2 : LowKept d (d.octetCleared o) := (h1.clearRegs (sel := fun a => decide (0x1000000 + 0x20000 * o ≤ a ∧ a < 0x1000000 + 0x20000 * (o + 1)))
    fun a ha => decide_eq_false (by omega)).trans (LowKept.octetForgotten _ o)
  refine h2.trans (Dev.low_of_reset _ (((ResetStep.refl _).fusedEdge v o).trans (ResetStep.foldl _ (fun x g _ => (ResetStep.refl x).fusedLane v g) _)) ?_)
  intro a ha h
  exact absurd (Nat.lt_of_lt_of_le ha (by decide)) (Nat.not_lt.2 h)

theorem LowKept.resetOctet (o : Nat) : LowKept d (d.resetOctet v o) := by
  rw [Dev.resetOctet_eq]
  refine ((LowKept.octetFused d v o).trans ?_).trans fun a h1 _ _ => Dev.reg_unsettle _ o (by omega)
  have h : LowKept (d.octetFused v o) ((d.octetFused v o).clrF R.PAD_HOLD.OCT (2 ^ o)) := fun a _ h2 _ => Dev.reg_set_ne _ R.PAD_HOLD.OCT _ (Ne.symm h2)
  exact h.trans (of_regs rfl)

/-- R316: the pads of an octet that is reset are no longer held. -/
theorem Dev.pads_resetOctet {o : Nat} (ho : o < 32) : bit ((d.resetOctet v o).get R.PAD_HOLD.OCT) o = false := by
  have hu : ((((d.octetFused v o).clrF R.PAD_HOLD.OCT (2 ^ o)).startPeriod o).unsettle o).get R.PAD_HOLD.OCT =
      ((d.octetFused v o).clrF R.PAD_HOLD.OCT (2 ^ o)).get R.PAD_HOLD.OCT :=
    Dev.get_congr ((Dev.reg_unsettle _ o (by decide)).trans (Dev.reg_onW ..))
  have hw : R.PAD_HOLD.OCT.width = 32 := rfl
  have hlt : 2 ^ o < 2 ^ 32 := Nat.pow_lt_pow_right (by decide) ho
  rw [Dev.resetOctet_eq, hu, Dev.clrF, Dev.get_set_same _ _ _ (Fld.ok_of_ble rfl), hw, Nat.mod_eq_of_lt hlt, bit_eq_testBit, Nat.testBit_mod_two_pow,
    Nat.testBit_and, Nat.sub_sub, Nat.add_comm 1, Nat.testBit_two_pow_sub_succ hlt, Nat.testBit_two_pow_self, Bool.not_true, Bool.and_false, Bool.and_false,
    Bool.and_false]

/-- The cluster's records and stores set back. -/
def Dev.clusterForgotten (c : Nat) : Dev :=
  { d with
    eng := Tbl.outside d.eng (8 * c) (8 * c + 8), cl := Tbl.del c d.cl,
    locS := d.locS.clear (8 * c * 262144) ((8 * c + 8) * 262144),
    sharedS := d.sharedS.clear (c * 4194304) ((c + 1) * 4194304) }

theorem LowKept.clusterForgotten (c : Nat) : LowKept d (d.clusterForgotten c) := of_regs rfl

theorem Dev.resetCluster_eq (c : Nat) : d.resetCluster c =
    (d.clearRegs fun a => decide (0x200000 + 0x10000 * c ≤ a ∧ a < 0x200000 + 0x10000 * (c + 1))).clusterForgotten c := rfl

theorem LowKept.resetCluster (c : Nat) : LowKept d (d.resetCluster c) := by
  rw [Dev.resetCluster_eq]
  exact ((LowKept.refl d).clearRegs (sel := fun a => decide (0x200000 + 0x10000 * c ≤ a ∧ a < 0x200000 + 0x10000 * (c + 1)))
    fun a ha => decide_eq_false (by omega)).trans (LowKept.clusterForgotten _ c)

/-- Flows and cells forgotten. -/
def Dev.cellsForgotten : Dev := { d with fab := FabSt.reset, flowS := {}, cellS := {} }

/-- With them the frames held for the host. -/
def Dev.fabricForgotten : Dev := (List.range 64).foldl (fun d q => d.onQ q fun x => { x with hold := [] }) d.cellsForgotten

theorem LowKept.fabricForgotten : LowKept d d.fabricForgotten := by
  have h : LowKept d d.cellsForgotten := of_regs rfl
  exact h.trans (foldl _ (fun x q => of_regs (Dev.regs_onQ x q _)) _)

theorem Dev.resetFabric_eq : d.resetFabric = (d.clearRegs fun a => decide (0x100000 ≤ a ∧ a < 0x200000)).fabricForgotten.drawHashKey := rfl

theorem LowKept.resetFabric : LowKept d d.resetFabric := by
  have h1 : LowKept d (d.clearRegs fun a => decide (0x100000 ≤ a ∧ a < 0x200000)) := (LowKept.refl d).clearRegs fun a ha => decide_eq_false (by omega)
  rw [Dev.resetFabric_eq]
  refine (h1.trans (LowKept.fabricForgotten _)).trans (Dev.low_of_reset _ (ResetStep.drawHashKey _) ?_)
  rintro a ha ⟨w, -, rfl⟩
  exact absurd ha (by show ¬ 0x100010 + w * 4 < _; omega)

/-- The DRAM polder's registers set back, KEEP_SR kept and the DRAM in self-refresh. -/
def Dev.dramCleared : Dev :=
  ((d.clearRegs fun a => decide (0x80000 ≤ a ∧ a < 0x100000 ∨ 0x800000 ≤ a ∧ a < 0xA00000)).set R.MEM_CFG.KEEP_SR (d.get R.MEM_CFG.KEEP_SR)).set
    R.MEM_STATUS.SELF_REF 1

theorem Dev.resetDram_eq : d.resetDram = (d.dramCleared.setReg A.PAD_HOLD_DRAM 0).onMem fun _ => { lapAt := d.dramCleared.up } := rfl

theorem LowKept.resetDram : LowKept d d.resetDram := by
  have h1 : LowKept d d.dramCleared := (((LowKept.refl d).clearRegs fun a ha => decide_eq_false (by omega)).set (by decide)).set (by decide)
  rw [Dev.resetDram_eq]
  generalize d.dramCleared = x at *
  exact fun a h2 h3 h4 => (Dev.reg_onMem ..).trans ((Dev.reg_setReg_ne _ _ (Ne.symm h4)).trans (h1 a h2 h3 h4))

/-- R285: the DRAM stays in self-refresh and must be trained again. -/
theorem Dev.status_resetDram : d.resetDram.on R.MEM_STATUS.SELF_REF = true ∧ d.resetDram.on R.MEM_STATUS.TRAINED = false := by
  have hr : (d.clearRegs fun a => decide (0x80000 ≤ a ∧ a < 0x100000 ∨ 0x800000 ≤ a ∧ a < 0xA00000)).get R.MEM_STATUS.TRAINED = 0 := by
    rw [Dev.get, show R.MEM_STATUS.TRAINED.addr = A.MEM_STATUS from rfl, Dev.reg_clearRegs_in _ _ (by decide)]
    decide
  have h : d.dramCleared.on R.MEM_STATUS.SELF_REF = true ∧ d.dramCleared.on R.MEM_STATUS.TRAINED = false := by
    unfold Dev.dramCleared
    generalize (d.clearRegs fun a => decide (0x80000 ≤ a ∧ a < 0x100000 ∨ 0x800000 ≤ a ∧ a < 0xA00000)) = y at *
    constructor
    · rw [Dev.on_set_same _ _ _ (Fld.ok_of_ble rfl)]
      rfl
    · rw [Dev.on_set_apart _ R.MEM_STATUS.SELF_REF R.MEM_STATUS.TRAINED _ (Fld.ok_of_ble rfl) (.inr (by decide)),
        Dev.on_set_apart _ R.MEM_CFG.KEEP_SR R.MEM_STATUS.TRAINED _ (Fld.ok_of_ble rfl) (.inl (by decide)), Dev.on, hr]
      rfl
  rw [Dev.resetDram_eq]
  generalize d.dramCleared = x at *
  have hon : ∀ f : Fld, f.addr = A.MEM_STATUS → ((x.setReg A.PAD_HOLD_DRAM 0).onMem fun _ => { lapAt := x.up }).on f = x.on f := fun f hf =>
    Dev.on_congr ((Dev.reg_onMem ..).trans (Dev.reg_setReg_ne _ _ (by rw [hf]; decide)))
  exact ⟨(hon R.MEM_STATUS.SELF_REF rfl).trans h.1, (hon R.MEM_STATUS.TRAINED rfl).trans h.2⟩

end

end Sys2Proof.Machine
end

section
/-! A polder reset: its refusals, what it leaves in its polder, and its release (spec/15, R398). -/

open Sys2Proof

namespace Sys2Proof.Machine

/-! The blocks of a polder (R398, R399). -/

theorem nodup_resetGroup (p : Nat) : (resetGroup p).Nodup := by
  unfold resetGroup
  split
  · decide
  · exact List.nodup_singleton p

theorem resetGroup_lt {p k : Nat} (hp : p < 48) (hk : k ∈ resetGroup p) : k < 48 := by
  unfold resetGroup at hk
  split at hk
  · simp only [List.mem_cons, List.not_mem_nil, or_false] at hk
    omega
  · rw [List.mem_singleton] at hk
    omega

section
variable (d : Dev) (v : Vault)

/-- The blocks of polder p set back. -/
def Dev.blocksCleared (p : Nat) : Dev :=
  if p < 32 then d.resetOctet v p else if p < 36 then d.resetFabric else if p < 47 then d.resetCluster (p - 36) else d.resetDram

theorem LowKept.blocksCleared (p : Nat) : LowKept d (d.blocksCleared v p) := by
  unfold Dev.blocksCleared
  split
  · exact LowKept.resetOctet d v p
  · split
    · exact LowKept.resetFabric d
    · split
      · exact LowKept.resetCluster d _
      · exact LowKept.resetDram d

theorem Dev.resetBlocks_eq {p : Nat} (hp : p < 48) : d.resetBlocks v p =
    ((resetGroup p).foldl Dev.bumpEpoch (d.blocksCleared v p)).dropTaken (resetGroup p) := by
  unfold Dev.resetBlocks Dev.blocksCleared resetGroup
  by_cases h1 : p < 32
  · rw [if_pos h1, if_pos h1, if_neg (by omega)]
    rfl
  · by_cases h2 : p < 36
    · rw [if_neg h1, if_neg h1, if_pos h2, if_pos h2, if_pos (by omega)]
    · by_cases h3 : p < 47
      · rw [if_neg h1, if_neg h1, if_neg h2, if_neg h2, if_pos h3, if_pos h3, if_neg (by omega)]
        rfl
      · obtain rfl : p = 47 := by omega
        rfl

theorem Dev.e_dropTaken (l : List Nat) {k : Nat} (h : d.e k = {}) : (d.dropTaken l).e k = {} := by
  have hg : ∀ (t : Tbl EngSt) (f : Req → Req), Tbl.get EngSt.reset t k = {} → Tbl.get EngSt.reset (t.map fun e => (e.1, { e.2 with reqs := e.2.reqs.map f })) k = {} := by
    intro t f
    induction t with
    | nil => exact fun h => h
    | cons e t ih =>
      intro ht
      by_cases he : e.1 = k
      · have h1 : Tbl.get EngSt.reset (e :: t) k = e.2 := if_pos he
        rw [List.map_cons]
        refine (if_pos he : Tbl.get EngSt.reset ((e.1, { e.2 with reqs := e.2.reqs.map f }) :: _) k = _).trans ?_
        rw [← h1, ht]
        rfl
      · have h1 : Tbl.get EngSt.reset (e :: t) k = Tbl.get EngSt.reset t k := if_neg he
        rw [List.map_cons]
        exact (if_neg he : Tbl.get EngSt.reset ((e.1, { e.2 with reqs := e.2.reqs.map f }) :: _) k = _).trans (ih (h1.symm.trans ht))
  exact hg d.eng _ h

/-! What is left of a cluster (R188). -/

theorem Tbl.get_outside_in {α : Type} (x : α) (t : Tbl α) {lo hi k : Nat} (h1 : lo ≤ k) (h2 : k < hi) : Tbl.get x (Tbl.outside t lo hi) k = x :=
  Tbl.get_filter_out (q := fun k => !decide (lo ≤ k ∧ k < hi)) x t (by rw [decide_eq_true ⟨h1, h2⟩]; rfl)

theorem Dev.e_resetCluster (c : Nat) {k : Nat} (hk : k < 8) : (d.resetCluster c).e (8 * c + k) = {} := Tbl.get_outside_in _ _ (by omega) (by omega)

theorem Dev.locS_resetCluster (c : Nat) {k a : Nat} (hk : k < 8) (ha : a < 262144) : (d.resetCluster c).locS.byte (262144 * (8 * c + k) + a) = 0 :=
  Tbl.get_outside_in _ _ (by omega) (by omega)

/-! Acceptance and refusal. -/

theorem Dev.resetRefusal_congr {d z : Dev} (hr : ∀ a, a ≠ A.RST_CTRL → z.reg a = d.reg a) (h : z = { d with regs := z.regs }) (p : Nat) :
    z.resetRefusal p = d.resetRefusal p := by
  have hon : ∀ f : Fld, f.addr ≠ A.RST_CTRL → z.on f = d.on f := fun f hf => Dev.on_congr (hr _ hf)
  have hpol : ∀ k, z.polder k = d.polder k := fun k => Dev.polder_congr (hr _ (by show 0x10040 + _ ≠ 0x14; omega))
  have hp : ∀ k, z.p k = d.p k := fun k => by rw [h]; rfl
  have ht : ∀ k, z.testRun k = d.testRun k := fun k => by rw [h]; rfl
  have hw : z.pwr = d.pwr := by rw [h]
  have hq : z.dramQuiet = d.dramQuiet := by
    have h1 : z.get R.SPILL_STATUS.CELLS = d.get R.SPILL_STATUS.CELLS := Dev.get_congr (hr _ (by decide))
    have h2 : z.fab = d.fab := by rw [h]
    have h3 : z.cnt = d.cnt := by rw [h]
    have h4 : z.eng = d.eng := by rw [h]
    rw [Dev.dramQuiet, h1, h2, h3, h4, Dev.dramQuiet]
  unfold Dev.resetRefusal
  rw [hon R.RST_STATUS.BUSY (by decide), hon R.MEM_STATUS.SELF_REF (by decide), hw, hq]
  simp only [hpol, hp, ht]

section
variable (p : Nat)

/-- The conditions of a refusal, as the statement of R398 has them. -/
theorem Dev.resetRefusal_busy (h : d.on R.RST_STATUS.BUSY = true ∨ d.pwr.run.isSome = true) : d.resetRefusal p = some 2 := by
  unfold Dev.resetRefusal
  exact if_pos h

variable (hb : ¬ (d.on R.RST_STATUS.BUSY = true ∨ d.pwr.run.isSome = true))
include hb

theorem Dev.resetRefusal_test (h : ∃ k, k ∈ resetGroup p ∧ ((d.p k).test = true ∨ (d.testRun k).isSome = true)) : d.resetRefusal p = some 3 := by
  unfold Dev.resetRefusal
  refine (if_neg hb).trans (if_pos ?_)
  simpa only [List.any_eq_true, Bool.or_eq_true] using h

variable (ht : ¬ ∃ k, k ∈ resetGroup p ∧ ((d.p k).test = true ∨ (d.testRun k).isSome = true))
include ht

theorem Dev.resetRefusal_idle : d.resetRefusal p = if (resetGroup p).any fun q => d.polder q == 2 || (d.p q).closed || (d.p q).inReset then some 4
    else if p = 47 ∧ !(d.dramQuiet && d.on R.MEM_STATUS.SELF_REF) then some 5 else none := by
  unfold Dev.resetRefusal
  refine (if_neg hb).trans (if_neg ?_)
  simpa only [List.any_eq_true, Bool.or_eq_true] using ht

theorem Dev.resetRefusal_shut (h : ∃ k, k ∈ resetGroup p ∧ (d.polder k = 2 ∨ (d.p k).closed = true ∨ (d.p k).inReset = true)) :
    d.resetRefusal p = some 4 := by
  rw [d.resetRefusal_idle p hb ht, if_pos]
  simpa only [List.any_eq_true, Bool.or_eq_true, beq_iff_eq, or_assoc] using h

variable (hs : ¬ ∃ k, k ∈ resetGroup p ∧ (d.polder k = 2 ∨ (d.p k).closed = true ∨ (d.p k).inReset = true))
include hs

theorem Dev.resetRefusal_open : d.resetRefusal p = if p = 47 ∧ !(d.dramQuiet && d.on R.MEM_STATUS.SELF_REF) then some 5 else none := by
  rw [d.resetRefusal_idle p hb ht, if_neg]
  simpa only [List.any_eq_true, Bool.or_eq_true, beq_iff_eq, or_assoc] using hs

end

theorem Dev.dramQuiet_iff : (d.dramQuiet && d.on R.MEM_STATUS.SELF_REF) = true ↔ d.get R.SPILL_STATUS.CELLS = 0 ∧ d.fab.stage = [] ∧ d.cnt.dump = none ∧
    d.on R.MEM_STATUS.SELF_REF = true ∧ ∀ e, e ∈ d.eng → ∀ r, r ∈ e.2.reqs → r.chan = 0x13 → r.phase ≠ .taken := by
  simp only [Dev.dramQuiet, Bool.and_eq_true, beq_iff_eq, List.isEmpty_iff, Option.isNone_iff_eq_none, Bool.not_eq_true', not_exists,
    Bool.eq_false_iff, ne_eq, List.any_eq_true, not_and, and_assoc]
  constructor
  · rintro ⟨h1, h2, h3, h4, h5⟩
    exact ⟨h1, h2, h3, h5, fun e he r hr hc hp => h4 e he r hr hc hp⟩
  · rintro ⟨h1, h2, h3, h5, h4⟩
    exact ⟨h1, h2, h3, fun e he r hr hc hp => h4 e he r hr hc hp, h5⟩

end

end Sys2Proof.Machine
end

section
/-! Polder resets assembled (spec/15, R398). -/

open Sys2Proof

namespace Sys2Proof.Machine

theorem tidy_RST_CTRL : Row.RST_CTRL.tidy := by decide

section
variable (d : Dev) (v : Vault) (p : Nat)

/-- The part with a reset of polder p begun. -/
def Dev.resetBegun : Dev := ((d.set R.RST_STATUS.POLDER p).set R.RST_STATUS.BUSY 1).set R.RST_STATUS.RESULT 0

/-- The part with the blocks of polder p set back. -/
def Dev.resetDone : Dev := (d.resetBegun p).resetBlocks v p

theorem Dev.polderReset_refused {n : Nat} (h : d.resetRefusal p = some n) : d.polderReset v p = (d.set R.RST_STATUS.POLDER p).set R.RST_STATUS.RESULT n := by
  rw [Dev.polderReset, h]

theorem Dev.polderReset_accepted (h : d.resetRefusal p = none) : d.polderReset v p =
    (d.resetDone v p).putPolders (resetGroup p) 5 fun _ => { closed := true, inReset := true } := by
  rw [Dev.polderReset, h]
  rfl

theorem Dev.resetBegun_spec (hp : p < 64) : (d.resetBegun p).on R.RST_STATUS.BUSY = true ∧ (d.resetBegun p).get R.RST_STATUS.POLDER = p ∧
    ∀ a, a ≠ A.RST_STATUS → (d.resetBegun p).reg a = d.reg a := by
  unfold Dev.resetBegun
  refine ⟨?_, ?_, fun a ha => ?_⟩
  · rw [Dev.on_set_apart _ R.RST_STATUS.RESULT R.RST_STATUS.BUSY _ (Fld.ok_of_ble rfl) (.inr (by decide)), Dev.on_set_same _ _ _ (Fld.ok_of_ble rfl)]
    rfl
  · rw [Dev.get_set_apart _ (f := R.RST_STATUS.RESULT) (g := R.RST_STATUS.POLDER) _ (Fld.ok_of_ble rfl) (.inr (by decide)),
      Dev.get_set_apart _ (f := R.RST_STATUS.BUSY) (g := R.RST_STATUS.POLDER) _ (Fld.ok_of_ble rfl) (.inr (by decide)),
      Dev.get_set_same _ _ _ (Fld.ok_of_ble rfl)]
    exact Nat.mod_eq_of_lt hp
  · rw [Dev.reg_set_ne _ R.RST_STATUS.RESULT _ (Ne.symm ha), Dev.reg_set_ne _ R.RST_STATUS.BUSY _ (Ne.symm ha), Dev.reg_set_ne _ R.RST_STATUS.POLDER _ (Ne.symm ha)]

theorem Dev.reg_dropTaken (l : List Nat) (a : Nat) : (d.dropTaken l).reg a = d.reg a := rfl

theorem Dev.bumps_frame (l : List Nat) : ∃ r, l.foldl Dev.bumpEpoch d = { d with regs := r } := by
  induction l generalizing d with
  | nil => exact ⟨_, rfl⟩
  | cons p l ih =>
    obtain ⟨r, hr⟩ := ih (d.bumpEpoch p)
    exact ⟨r, hr⟩

theorem Dev.putPolders_frame (l : List Nat) (st : Nat) (f : PolSt → PolSt) : ∃ r q, d.putPolders l st f = { d with regs := r, pol := q } := by
  induction l generalizing d with
  | nil => exact ⟨_, _, rfl⟩
  | cons p l ih =>
    obtain ⟨r, q, hr⟩ := ih ((d.setPolder p st).onP p f)
    exact ⟨r, q, hr⟩

variable {p} (hp : p < 48)
include hp

/-- The registers of the blocks set back are those the blocks' own reset leaves, but for the epochs. -/
theorem Dev.reg_resetDone {a : Nat} (ha : a < 0x40 ∨ 0x74 ≤ a) : (d.resetDone v p).reg a = ((d.resetBegun p).blocksCleared v p).reg a := by
  rw [Dev.resetDone, Dev.resetBlocks_eq _ _ hp, Dev.reg_dropTaken]
  exact (ResetStep.bumpEpochs _ _ fun k hk => Nat.lt_of_lt_of_le (resetGroup_lt hp hk) (by decide)).2 a (by omega)

theorem Dev.status_resetDone : (d.resetDone v p).on R.RST_STATUS.BUSY = true ∧ (d.resetDone v p).get R.RST_STATUS.POLDER = p := by
  obtain ⟨h1, h2, -⟩ := d.resetBegun_spec p (Nat.lt_of_lt_of_le hp (by decide))
  have hr : (d.resetDone v p).reg A.RST_STATUS = (d.resetBegun p).reg A.RST_STATUS :=
    (d.reg_resetDone v hp (.inl (by decide))).trans (LowKept.blocksCleared _ v p _ (by decide) (by decide) (by decide))
  exact ⟨(Dev.on_congr (f := R.RST_STATUS.BUSY) hr).trans h1, (Dev.get_congr (f := R.RST_STATUS.POLDER) hr).trans h2⟩

theorem Dev.polder_resetDone {k : Nat} (hk : k < 48) : (d.resetDone v p).polder k = d.polder k := by
  have ha : 0x10040 ≤ A.POLDER_STATE (k / 8) ∧ A.POLDER_STATE (k / 8) < 0x10058 := by
    show 0x10040 ≤ 0x10040 + k / 8 * 4 ∧ 0x10040 + k / 8 * 4 < 0x10058
    omega
  obtain ⟨-, -, h3⟩ := d.resetBegun_spec p (Nat.lt_of_lt_of_le hp (by decide))
  have hne : ∀ b, b < 0x10040 → A.POLDER_STATE (k / 8) ≠ b := fun b hb => by omega
  exact Dev.polder_congr ((d.reg_resetDone v hp (.inr (by omega))).trans
    ((LowKept.blocksCleared _ v p _ (by omega) (hne _ (by decide)) (hne _ (by decide))).trans (h3 _ (hne _ (by decide)))))

theorem Dev.epoch_resetDone {k : Nat} (hk : k < 48) : (d.resetDone v p).epoch k = if k ∈ resetGroup p then (d.epoch k + 1) % 256 else d.epoch k := by
  have ha : 0x40 ≤ A.EPOCH (k / 4) ∧ A.EPOCH (k / 4) < 0x74 := by
    show 0x40 ≤ 0x40 + k / 4 * 4 ∧ 0x40 + k / 4 * 4 < 0x74
    omega
  obtain ⟨-, -, h3⟩ := d.resetBegun_spec p (Nat.lt_of_lt_of_le hp (by decide))
  have hne : ∀ b, b < 0x40 ∨ 0x74 ≤ b → A.EPOCH (k / 4) ≠ b := fun b hb => by omega
  have hb : ((d.resetBegun p).blocksCleared v p).epoch k = d.epoch k := Dev.epoch_congr
    ((LowKept.blocksCleared _ v p _ (by omega) (hne _ (.inr (by decide))) (hne _ (.inr (by decide)))).trans (h3 _ (hne _ (.inl (by decide)))))
  rw [Dev.resetDone, Dev.resetBlocks_eq _ _ hp, ← hb, ← Dev.epoch_bumpEpochs _ (nodup_resetGroup p)]
  exact Dev.epoch_congr (Dev.reg_dropTaken ..)

end

section
variable (d : Dev) (v : Vault) {p : Nat} (hp : p < 48)
include hp

/-- R398: a polder held in reset. -/
theorem Dev.polderReset_holds (h : d.resetRefusal p = none) : (d.polderReset v p).on R.RST_STATUS.BUSY = true ∧
    (d.polderReset v p).get R.RST_STATUS.POLDER = p ∧
    (∀ k, k ∈ resetGroup p → (d.polderReset v p).polder k = 5 ∧ ((d.polderReset v p).p k).inReset = true ∧ ((d.polderReset v p).p k).closed = true ∧
      (d.polderReset v p).epoch k = (d.epoch k + 1) % 256) ∧
    (∀ k, k < 48 → k ∉ resetGroup p → (d.polderReset v p).polder k = d.polder k ∧ (d.polderReset v p).epoch k = d.epoch k) := by
  obtain ⟨h1, h2⟩ := d.status_resetDone v hp
  have h3 := fun k hk => d.polder_resetDone v hp (k := k) hk
  have h4 := fun k hk => d.epoch_resetDone v hp (k := k) hk
  rw [d.polderReset_accepted v p h]
  generalize d.resetDone v p = x at *
  have hput := x.putPolders_spec (nodup_resetGroup p) (st := 5) (by decide) fun _ => { closed := true, inReset := true }
  have hfr := ResetStep.putPolders x (resetGroup p) 5 (fun _ => { closed := true, inReset := true }) fun k hk => resetGroup_lt hp hk
  generalize x.putPolders (resetGroup p) 5 (fun _ => { closed := true, inReset := true }) = u at *
  have hep : ∀ k, k < 48 → u.epoch k = x.epoch k := fun k hk => Dev.epoch_congr (hfr.2 _ (by
    show ¬ (0x10040 ≤ 0x40 + k / 4 * 4 ∧ _)
    omega))
  refine ⟨(hfr.on (f := R.RST_STATUS.BUSY) (by decide)).trans h1, (hfr.get (f := R.RST_STATUS.POLDER) (by decide)).trans h2, fun k hk => ?_, fun k hk hn => ?_⟩
  · obtain ⟨g1, g2⟩ := hput k
    rw [if_pos hk] at g1 g2
    refine ⟨g1, by rw [g2], by rw [g2], ?_⟩
    rw [hep k (resetGroup_lt hp hk), h4 k (resetGroup_lt hp hk), if_pos hk]
  · obtain ⟨g1, -⟩ := hput k
    rw [if_neg hn] at g1
    refine ⟨g1.trans (h3 k hk), ?_⟩
    rw [hep k hk, h4 k hk, if_neg hn]

/-- What a register that only the blocks' own reset touches reads. -/
theorem Dev.reg_polderReset (h : d.resetRefusal p = none) {a : Nat} (h1 : a < 0x40 ∨ 0x74 ≤ a) (h2 : a < 0x10040 ∨ 0x10058 ≤ a) :
    (d.polderReset v p).reg a = ((d.resetBegun p).blocksCleared v p).reg a := by
  rw [d.polderReset_accepted v p h]
  exact ((ResetStep.putPolders _ _ _ _ fun k hk => resetGroup_lt hp hk).2 a (by omega)).trans (d.reg_resetDone v hp h1)

theorem Dev.octet_polderReset (h : d.resetRefusal p = none) (ho : p < 32) : bit ((d.polderReset v p).get R.PAD_HOLD.OCT) p = false := by
  rw [Dev.get_congr (d.reg_polderReset v hp h (.inr (by decide)) (.inl (by decide))), Dev.blocksCleared, if_pos ho]
  exact Dev.pads_resetOctet _ v ho

theorem Dev.dram_polderReset (h : d.resetRefusal p = none) (ho : p = 47) : (d.polderReset v p).on R.MEM_STATUS.SELF_REF = true ∧
    (d.polderReset v p).on R.MEM_STATUS.TRAINED = false := by
  have hb : (d.resetBegun p).blocksCleared v p = (d.resetBegun p).resetDram := by
    subst ho
    rfl
  have hr : (d.polderReset v p).reg A.MEM_STATUS = (d.resetBegun p).resetDram.reg A.MEM_STATUS := by
    rw [← hb]
    exact d.reg_polderReset v hp h (.inr (by decide)) (.inr (by decide))
  obtain ⟨h1, h2⟩ := (d.resetBegun p).status_resetDram
  exact ⟨(Dev.on_congr (f := R.MEM_STATUS.SELF_REF) hr).trans h1, (Dev.on_congr (f := R.MEM_STATUS.TRAINED) hr).trans h2⟩

theorem Dev.cluster_polderReset (h : d.resetRefusal p = none) (h1 : 36 ≤ p) (h2 : p < 47) {k : Nat} (hk : k < 8) :
    (d.polderReset v p).e (8 * (p - 36) + k) = {} ∧ ∀ a, a < 262144 → (d.polderReset v p).locS.byte (262144 * (8 * (p - 36) + k) + a) = 0 := by
  have hb : (d.resetBegun p).blocksCleared v p = (d.resetBegun p).resetCluster (p - 36) := by
    rw [Dev.blocksCleared, if_neg (by omega), if_neg (by omega), if_pos h2]
  have he := (d.resetBegun p).e_resetCluster (p - 36) hk
  have hl := fun a ha => (d.resetBegun p).locS_resetCluster (p - 36) hk (a := a) ha
  rw [← hb] at he hl
  rw [d.polderReset_accepted v p h, Dev.resetDone, Dev.resetBlocks_eq _ _ hp]
  generalize (d.resetBegun p).blocksCleared v p = y at *
  obtain ⟨r, hr⟩ := y.bumps_frame (resetGroup p)
  have he' : ((resetGroup p).foldl Dev.bumpEpoch y).e (8 * (p - 36) + k) = {} := by rw [hr]; exact he
  have hl' : ∀ a, a < 262144 → ((resetGroup p).foldl Dev.bumpEpoch y).locS.byte (262144 * (8 * (p - 36) + k) + a) = 0 := by rw [hr]; exact hl
  generalize (resetGroup p).foldl Dev.bumpEpoch y = z at *
  have he2 := z.e_dropTaken (resetGroup p) he'
  have hl2 : (z.dropTaken (resetGroup p)).locS = z.locS := rfl
  rw [← hl2] at hl'
  generalize z.dropTaken (resetGroup p) = w at *
  obtain ⟨r, q, hw⟩ := w.putPolders_frame (resetGroup p) 5 fun _ => { closed := true, inReset := true }
  rw [hw]
  exact ⟨he2, hl'⟩

end

end Sys2Proof.Machine
end

section
/-! The obligation on resets (spec/15, R397, R398). -/

open Sys2Proof

namespace Sys2Proof.Machine

section
variable (d : Dev) (v : Vault)

theorem Dev.gateV_of_open {src : Src} {a : Nat} {f : Dev → Vault → Dev × Vault} (h : d.barred a = none) : d.gateV v src a f = f d v := by
  rw [Dev.gateV, h]

/-- R342, R357: what fuse load shows of a pending transition. -/
theorem Vault.applyLife_eq : v.applyLife = ({ v with life := v.next.getD v.life, next := none }, v.next.isSome) := rfl

/-- A write of RST_CTRL with WARM = 1 is a warm reset. -/
theorem rstCtrl_warm (x : Nat) : rstCtrl d v (putBit x 30 true) = warmReset d v 2 := by
  rw [rstCtrl, bit_putBit_same, if_pos rfl]

/-- The part with POLDER of a write of RST_CTRL taken over. -/
def Dev.resetAsked (x : Nat) : Dev := d.sw Row.RST_CTRL A.RST_CTRL x

theorem Dev.reg_resetAsked (x : Nat) {a : Nat} (h : a ≠ A.RST_CTRL) : (d.resetAsked x).reg a = d.reg a := Dev.reg_sw_ne _ _ _ _ (Ne.symm h)

theorem Dev.setReg_frame (a x : Nat) : d.setReg a x = { d with regs := (d.setReg a x).regs } := rfl

theorem Dev.resetAsked_frame (x : Nat) : d.resetAsked x = { d with regs := (d.resetAsked x).regs } := by
  rw [Dev.resetAsked, Dev.sw]
  exact d.setReg_frame _ _

theorem Dev.get_resetAsked (x : Nat) : (d.resetAsked x).get R.RST_CTRL.POLDER = min 47 (getBits x 5 0) := by
  rw [Dev.resetAsked, show A.RST_CTRL = R.RST_CTRL.POLDER.addr from rfl, Dev.get_sw_range _ tidy_RST_CTRL 2 rfl (by decide) (by decide)]
  exact Nat.zero_max _

/-- R398: a write of RST_CTRL with GO = 1 and WARM = 0 asks for a reset of the polder it names. -/
theorem rstCtrl_go {x p : Nat} (hp : min 47 (x % 64) = p) :
    rstCtrl d v (putBits x 31 30 2) = ((d.resetAsked (putBits x 31 30 2)).polderReset v p, v) := by
  have hb : getBits (putBits x 31 30 2) 31 30 = 2 := getBits_putBits_same x 31 30 2 (by decide)
  have h30 : bit (putBits x 31 30 2) 30 = false := by
    simp only [getBits] at hb
    simp only [bit, beq_eq_false_iff_ne]
    omega
  have h31 : bit (putBits x 31 30 2) 31 = true := by
    simp only [getBits] at hb
    simp only [bit, beq_iff_eq]
    omega
  have h5 : getBits (putBits x 31 30 2) 5 0 = x % 64 := (getBits_putBits_ne x 31 30 2 5 0 (by decide) (.inl (by decide))).trans (by simp [getBits])
  rw [rstCtrl, h30, if_neg Bool.false_ne_true, h31, if_pos rfl]
  rw [show d.sw Row.RST_CTRL A.RST_CTRL (putBits x 31 30 2) = d.resetAsked (putBits x 31 30 2) from rfl, Dev.get_resetAsked, h5, hp]

theorem Dev.resetRefusal_resetAsked (x p : Nat) : (d.resetAsked x).resetRefusal p = d.resetRefusal p :=
  Dev.resetRefusal_congr (fun _ ha => d.reg_resetAsked x ha) (d.resetAsked_frame x) p

/-! The release of a polder (R398, step 5). -/

/-- The part with polder p out of reset, unless a trip holds it. -/
def Dev.released (p : Nat) : Dev := if d.thm.tripped then d else d.putPolders (resetGroup p) 0 fun x => { x with closed := false, inReset := false }

/-- The part with the event of octet p noted. -/
def Dev.releaseNoted (p : Nat) : Dev := if p < 32 then d.orF (R.OPWR_EVT.EVT p) 2 else d

/-- The part with the reset reported as done. -/
def Dev.resetReported : Dev := (d.set R.RST_STATUS.RESULT 1).set R.RST_STATUS.BUSY 0

theorem Dev.polderResetDone_busy (h : d.on R.RST_STATUS.BUSY = true) :
    d.polderResetDone = ((d.released (d.get R.RST_STATUS.POLDER)).releaseNoted (d.get R.RST_STATUS.POLDER)).resetReported := by
  rw [Dev.polderResetDone, if_pos h]
  rfl

theorem Dev.resetReported_spec : d.resetReported.on R.RST_STATUS.BUSY = false ∧ d.resetReported.get R.RST_STATUS.RESULT = 1 ∧
    (∀ a, a ≠ A.RST_STATUS → d.resetReported.reg a = d.reg a) ∧ ∀ k, d.resetReported.p k = d.p k := by
  unfold Dev.resetReported
  refine ⟨?_, ?_, fun a ha => ?_, fun k => by rw [Dev.p_set, Dev.p_set]⟩
  · rw [Dev.on_set_same _ _ _ (Fld.ok_of_ble rfl)]
    rfl
  · rw [Dev.get_set_apart _ (f := R.RST_STATUS.BUSY) (g := R.RST_STATUS.RESULT) _ (Fld.ok_of_ble rfl) (.inr (by decide)),
      Dev.get_set_same _ _ _ (Fld.ok_of_ble rfl)]
    rfl
  · rw [Dev.reg_set_ne _ R.RST_STATUS.BUSY _ (Ne.symm ha), Dev.reg_set_ne _ R.RST_STATUS.RESULT _ (Ne.symm ha)]

theorem Dev.releaseNoted_spec (p : Nat) : (p < 32 → bit ((d.releaseNoted p).get (R.OPWR_EVT.EVT p)) 1 = true) ∧
    (∀ a, a < 0x33000 → (d.releaseNoted p).reg a = d.reg a) ∧ ∀ k, (d.releaseNoted p).p k = d.p k := by
  unfold Dev.releaseNoted
  split
  next h =>
    refine ⟨fun _ => ?_, fun a ha => Dev.reg_setReg_ne _ _ ?_, fun k => rfl⟩
    · rw [Dev.bit_orF _ (f := R.OPWR_EVT.EVT p) (Fld.ok_of_ble rfl) 2 (i := 1) (show 1 < 1 + 1 - 0 by decide), Bool.or_eq_true]
      exact .inr rfl
    show 0x3300C + p * 16 ≠ a
    omega
  next h => exact ⟨fun hp => absurd hp h, fun _ _ => rfl, fun _ => rfl⟩

end

section
variable (d : Dev)

theorem Dev.released_tripped (p : Nat) (h : d.thm.tripped = true) : d.released p = d := by rw [Dev.released, if_pos h]

/-- R398 step 5: a polder released. -/
theorem Dev.polderResetDone_spec (h : d.on R.RST_STATUS.BUSY = true) : d.polderResetDone.on R.RST_STATUS.BUSY = false ∧
    d.polderResetDone.get R.RST_STATUS.RESULT = 1 ∧ (d.thm.tripped = true → ∀ k, k < 49 → d.polderResetDone.polder k = d.polder k) ∧
    ∀ p, d.get R.RST_STATUS.POLDER = p → (p < 32 → bit (d.polderResetDone.get (R.OPWR_EVT.EVT p)) 1 = true) ∧
      (d.thm.tripped = false → p < 48 → ∀ k, k ∈ resetGroup p →
        d.polderResetDone.polder k = 0 ∧ (d.polderResetDone.p k).inReset = false ∧ (d.polderResetDone.p k).closed = false) := by
  rw [Dev.polderResetDone_busy d h]
  generalize d.get R.RST_STATUS.POLDER = p
  have hput : d.thm.tripped = false → ∀ k, k ∈ resetGroup p →
      (d.released p).polder k = 0 ∧ ((d.released p).p k).inReset = false ∧ ((d.released p).p k).closed = false := fun ht k hk => by
    obtain ⟨h1, h2⟩ := d.putPolders_spec (nodup_resetGroup p) (st := 0) (by decide) (fun x => { x with closed := false, inReset := false }) k
    rw [if_pos hk] at h1 h2
    rw [Dev.released, if_neg (by rw [ht]; exact Bool.false_ne_true), h1, h2]
    exact ⟨rfl, rfl, rfl⟩
  have htrip : d.thm.tripped = true → d.released p = d := d.released_tripped p
  generalize d.released p = x at *
  obtain ⟨n1, n2, n3⟩ := x.releaseNoted_spec p
  generalize x.releaseNoted p = y at *
  obtain ⟨r1, r2, r3, r4⟩ := y.resetReported_spec
  generalize y.resetReported = u at *
  have hpol : ∀ k, k < 49 → u.polder k = x.polder k := fun k hk => Dev.polder_congr (by
    have hlt : A.POLDER_STATE (k / 8) < 0x33000 ∧ A.POLDER_STATE (k / 8) ≠ A.RST_STATUS := by
      show 0x10040 + k / 8 * 4 < 0x33000 ∧ 0x10040 + k / 8 * 4 ≠ 0x18
      omega
    exact (r3 _ hlt.2).trans (n2 _ hlt.1))
  refine ⟨r1, r2, fun ht k hk => ?_, ?_⟩
  · rw [hpol k hk, htrip ht]
  · rintro _ rfl
    refine ⟨fun hp => ?_, fun ht hp k hk => ?_⟩
    · rw [Dev.get_congr (d := y) (r3 _ (by show 0x3300C + p * 16 ≠ 0x18; omega))]
      exact n1 hp
    · rw [hpol k (Nat.lt_of_lt_of_le (resetGroup_lt hp hk) (by decide)), r4, n3]
      exact hput ht k hk

end

/-! The clauses of the obligation. -/

section
variable (d : Dev) (v : Vault)

/-- R397: the records that PORST_N clears. -/
theorem coldReset_records : (coldReset d v).1.eng = [] ∧ (coldReset d v).1.ctr = [] ∧ (coldReset d v).1.dram = {} ∧ (coldReset d v).1.locS = {} ∧
    (coldReset d v).1.sharedS = {} ∧ (coldReset d v).1.time = {} ∧ (coldReset d v).1.sec = {} ∧ (coldReset d v).1.bist = {} ∧
    (coldReset d v).1.fab = {} := by
  rw [coldReset_eq]
  dsimp only
  obtain ⟨⟨regs, pol, lane, ctr, hr⟩, -⟩ := ResetStep.loadFuses ({ freeCtr := d.freeCtr, up := d.up } : Dev) v.applyLife.1 v.applyLife.2 0
  rw [hr]
  exact ⟨rfl, rfl, rfl, rfl, rfl, rfl, rfl, rfl, rfl⟩

/-- R397: the records after a warm reset. -/
theorem warmDone_records (c : Nat) : (d.warmDone v c).time.sec = d.time.sec ∧ (d.warmDone v c).time.ps = d.time.ps ∧
    (d.warmDone v c).bist.soft = d.bist.soft ∧ (d.warmDone v c).bist.run = [] ∧ (d.warmDone v c).sec = {} ∧ (d.warmDone v c).ctr = [] ∧
    (d.warmDone v c).thm.tripped = d.thm.tripped ∧ (d.warmDone v c).eng = [] ∧ (d.warmDone v c).locS = {} ∧
    (d.warmDone v c).dram = if d.get R.MEM_CFG.KEEP_SR = 1 then d.dram else {} := by
  obtain ⟨regs, pol, lane, ctr, hr⟩ := d.warmDone_frame v c
  rw [hr]
  exact ⟨rfl, rfl, rfl, rfl, rfl, rfl, rfl, rfl, rfl, rfl⟩

/-- R357: the debug port after a warm reset. -/
theorem warmDone_debug {c : Nat} (hc : c < 4) : (d.warmDone v c).get R.DBG_STATUS.FAILS = d.get R.DBG_STATUS.FAILS ∧
    (d.warmDone v c).on R.DBG_STATUS.LOCKOUT = d.on R.DBG_STATUS.LOCKOUT := by
  obtain ⟨h1, h2⟩ := d.warmDebug_kept (d.warmMemory ((List.range 49).foldl Dev.bumpEpoch d.warmBase))
  refine ⟨(d.get_warmDone_debug v hc (f := R.DBG_STATUS.FAILS) rfl (by decide)).trans h1, ?_⟩
  rw [Dev.on, d.get_warmDone_debug v hc (f := R.DBG_STATUS.LOCKOUT) rfl (by decide), h2, Dev.on]

/-- A warm reset, as an access of RST_CTRL or SYSRST_N asks for it. -/
theorem gives_warmReset {w : Option (Src × BitVec 32)} {s : State} (hw : w = none ∨ s.dev.barred A.RST_CTRL = none) {p : State → Prop}
    (h : p { s with dev := s.dev.warmDone s.vault (if w.isSome then 2 else 1), vault := s.vault.applyLife.1 }) : Gives (.warmReset w) s p := by
  cases w with
  | none => exact gives_of_onV (f := fun d v => warmReset d v 1) rfl (warmReset_eq_done _ _ _) h
  | some w =>
    have hopen : s.dev.barred A.RST_CTRL = none := hw.resolve_left (Option.some_ne_none w)
    refine gives_of_onV (f := fun d v => d.gateV v w.1 A.RST_CTRL fun d v => rstCtrl d v (putBit w.2.toNat 30 true)) rfl ?_ h
    exact (Dev.gateV_of_open _ _ hopen).trans ((rstCtrl_warm ..).trans (warmReset_eq_done _ _ _))

/-- A write of RST_CTRL with GO = 1 that is admitted. -/
theorem gives_polderReset {src : Src} {val : BitVec 32} {s : State} {k : Nat} (hopen : s.dev.barred A.RST_CTRL = none) (hk : min 47 (val.toNat % 64) = k)
    {p : State → Prop} (h : p { s with dev := (s.dev.resetAsked (putBits val.toNat 31 30 2)).polderReset s.vault k }) :
    Gives (.polderReset src val) s p := by
  refine gives_of_onV (f := fun d v => d.gateV v src A.RST_CTRL fun d v => rstCtrl d v (putBits val.toNat 31 30 2)) rfl ?_ h
  exact (Dev.gateV_of_open _ _ hopen).trans (rstCtrl_go _ _ hk)

/-- R398: a refused reset. -/
theorem resetAsked_refused (x : Nat) {k n : Nat} (hk : k < 64) (hn : n < 8) (h : d.resetRefusal k = some n) :
    ((d.resetAsked x).polderReset v k).get R.RST_STATUS.RESULT = n ∧ ((d.resetAsked x).polderReset v k).get R.RST_STATUS.POLDER = k ∧
      RegsOnly d ((d.resetAsked x).polderReset v k) [A.RST_CTRL, A.RST_STATUS] := by
  have hr := fun a (ha : a ≠ A.RST_CTRL) => d.reg_resetAsked x ha
  have hf := d.resetAsked_frame x
  rw [Dev.polderReset_refused _ _ _ ((d.resetRefusal_resetAsked x k).trans h)]
  generalize d.resetAsked x = z at *
  refine ⟨?_, ?_, ?_⟩
  · rw [Dev.get_set_same _ _ _ (Fld.ok_of_ble rfl)]
    exact Nat.mod_eq_of_lt hn
  · rw [Dev.get_set_apart _ (f := R.RST_STATUS.RESULT) (g := R.RST_STATUS.POLDER) _ (Fld.ok_of_ble rfl) (.inr (by decide)),
      Dev.get_set_same _ _ _ (Fld.ok_of_ble rfl)]
    exact Nat.mod_eq_of_lt hk
  · have h0 : RegsOnly d z [A.RST_CTRL, A.RST_STATUS] := ⟨hf, fun a ha => hr a fun h => ha (h ▸ .head _)⟩
    exact (h0.set (f := R.RST_STATUS.POLDER) 1 rfl).set (f := R.RST_STATUS.RESULT) 1 rfl

theorem gives_refused {src : Src} {val : BitVec 32} {s : State} {k n : Nat} (hopen : s.dev.barred A.RST_CTRL = none) (hk : min 47 (val.toNat % 64) = k)
    (h48 : k < 48) (hn : n < 8) (h : s.dev.resetRefusal k = some n) : Gives (.polderReset src val) s fun u => u.dev.get R.RST_STATUS.RESULT = n ∧
      u.dev.get R.RST_STATUS.POLDER = k ∧ RegsOnly s.dev u.dev [A.RST_CTRL, A.RST_STATUS] := by
  have hr := resetAsked_refused s.dev s.vault (putBits val.toNat 31 30 2) (Nat.lt_of_lt_of_le h48 (by decide)) hn h
  refine gives_polderReset hopen hk ?_
  exact hr

end

end Sys2Proof.Machine

open Sys2Proof.Machine

/-- Settles O54: a reset builds the part anew from what it keeps, and the loading of the fuses and the group of a polder touch registers of their own. -/
theorem resets : Obligations.Resets := by
  unfold Obligations.Resets
  intro src val p q i w s
  extract_lets d v applied group pol go open_ busy test shut dram refused
  have hgroup : ∀ k, group k = resetGroup k := fun _ => rfl
  have happ : ∀ (x : Dev) (c : Nat), c < 4 → applied { s with dev := x.loadFuses v.applyLife.1 v.applyLife.2 c, vault := v.applyLife.1 } ∧
      (x.loadFuses v.applyLife.1 v.applyLife.2 c).get R.RST_CAUSE.CAUSE = c := fun x c hc => by
    obtain ⟨h1, h2, h3, -⟩ := x.loadFuses_spec v.applyLife.1 v.applyLife.2 c hc
    exact ⟨⟨rfl, h1, h3⟩, h2⟩
  have hpol : pol < 48 := p.isLt
  clear_value pol
  refine ⟨?_, fun h1 h2 h3 => ?_, fun hw => ?_, fun hopen hk => ⟨fun hb => ?_, fun hb ht => ?_, fun hb ht hs => ?_, fun hb ht hs hd => ?_,
    fun hb ht hs hd => ?_⟩, fun hb => ?_, fun hb => ?_, fun hb hp ht => ?_⟩
  · refine gives_of_onV (f := coldReset) rfl (coldReset_eq _ _) ?_
    obtain ⟨ha, hc⟩ := happ { freeCtr := d.freeCtr, up := d.up } 0 (by decide)
    exact ⟨ha, hc, coldReset_records d v⟩
  · refine gives_of_onV (f := coldReset) rfl rfl fun a ha hk => ?_
    simp only [List.mem_cons, List.not_mem_nil, or_false, not_or] at ha
    exact coldReset_blank d v h1 h2 h3 ha hk
  · refine gives_warmReset hw ?_
    have hc : (if w.isSome then 2 else 1) < 4 := by split <;> decide
    generalize (if w.isSome then 2 else 1) = c at *
    obtain ⟨ha, hcause⟩ := happ d.warmed c hc
    obtain ⟨r1, r2, r3, r4, r5, r6, r7, r8, r9, r10⟩ := warmDone_records d v c
    obtain ⟨g1, g2⟩ := warmDone_debug d v hc
    obtain ⟨p1, p2⟩ := d.polder_warmDone v (c := c) hpol
    have he := d.epoch_warmDone v c q.isLt
    have hsc := d.scratch_warmDone v c i.isLt
    have hk1 := d.kept_warmDone v (c := c)
    change applied { s with dev := d.warmDone v c, vault := v.applyLife.1 } at ha
    change (d.warmDone v c).get R.RST_CAUSE.CAUSE = c at hcause
    change applied { s with dev := d.warmDone v c, vault := v.applyLife.1 } ∧ (d.warmDone v c).get R.RST_CAUSE.CAUSE = c ∧ _
    generalize d.warmDone v c = x at *
    exact ⟨ha, hcause, he, hsc, r1, r2, g1, g2, r3, r4, r5, r6, r7, r8, r9,
      fun hk => ⟨r10.trans (if_pos hk), hk1 hk⟩, fun hk => r10.trans (if_neg (by rw [hk]; decide)), p1, p2⟩
  · exact gives_refused hopen hk hpol (by decide) (d.resetRefusal_busy pol hb)
  · exact gives_refused hopen hk hpol (by decide) (d.resetRefusal_test pol hb ht)
  · exact gives_refused hopen hk hpol (by decide) (d.resetRefusal_shut pol hb ht hs)
  · refine gives_refused hopen hk hpol (by decide) ?_
    rw [d.resetRefusal_open pol hb ht hs, if_pos]
    rw [Bool.not_eq_true', ← Bool.not_eq_true, d.dramQuiet_iff]
    exact Classical.not_imp.1 hd
  · refine gives_polderReset hopen hk ?_
    have hnone : (d.resetAsked (putBits val.toNat 31 30 2)).resetRefusal pol = none := by
      rw [d.resetRefusal_resetAsked, d.resetRefusal_open pol hb ht hs, if_neg]
      rw [Bool.not_eq_true', ← Bool.not_eq_true, d.dramQuiet_iff, not_and, not_not]
      exact hd
    have hpo : ∀ k, (d.resetAsked (putBits val.toNat 31 30 2)).polder k = d.polder k := fun k =>
      Dev.polder_congr (d.reg_resetAsked _ (by show 0x10040 + _ ≠ 0x14; omega))
    have hep : ∀ k, (d.resetAsked (putBits val.toNat 31 30 2)).epoch k = d.epoch k := fun k =>
      Dev.epoch_congr (d.reg_resetAsked _ (by show 0x40 + _ ≠ 0x14; omega))
    generalize d.resetAsked (putBits val.toNat 31 30 2) = z at *
    obtain ⟨b1, b2, b3, b4⟩ := z.polderReset_holds v hpol hnone
    refine ⟨rfl, b1, b2, fun k hk => ?_, fun k hk => ?_, z.octet_polderReset v hpol hnone, fun h1 h2 k hk => z.cluster_polderReset v hpol hnone h1 h2 hk,
      z.dram_polderReset v hpol hnone⟩
    · rw [← hep k]
      exact b3 k hk
    · rw [← hep k, ← hpo k]
      exact b4 k k.isLt hk
  · have hsame : d.polderResetDone = d := by rw [Dev.polderResetDone, if_neg (by rw [hb]; exact Bool.false_ne_true)]
    exact hsame ▸ makes_of_on (c := .polderResetDone) (s := s) (f := Dev.polderResetDone) rfl
  · obtain ⟨h1, h2, h3, -⟩ := d.polderResetDone_spec hb
    exact (makes_of_on (c := .polderResetDone) (s := s) (f := Dev.polderResetDone) rfl).gives ⟨h1, h2, rfl, fun ht k => h3 ht k k.isLt⟩
  · obtain ⟨h1, h2, -, h4⟩ := d.polderResetDone_spec hb
    obtain ⟨h5, h6⟩ := h4 _ hp
    exact (makes_of_on (c := .polderResetDone) (s := s) (f := Dev.polderResetDone) rfl).gives ⟨h1, h2, h5, h6 ht hpol⟩

end

section
/-! Marked bytes put into a store (spec/10, R279, R284). -/

open Sys2Proof

namespace Sys2Proof.Machine

/-- The store t is s with the bytes of l from address a on; of the other bytes only those in a word that was written in part may differ. -/
structure Wrote (s t : Store) (a : Nat) (l : List Byte) : Prop where
  inside : ∀ i, i < l.length → t.byte (a + i) = l.getD i 0
  outside : ∀ j, j / 8 < a / 8 ∨ (a + l.length + 7) / 8 ≤ j / 8 → t.byte j = s.byte j

theorem Store.byte_poisonWord (s : Store) (i v c : Nat) : (s.poisonWord i v).byte c = (s.putWord i v).byte c := rfl

namespace Wrote
variable {s t u : Store} {a : Nat} {l m : List Byte}

theorem nil : Wrote s s a [] := ⟨fun _ h => absurd h (Nat.not_lt_zero _), fun _ _ => rfl⟩

theorem append (h : Wrote s t a l) (h' : Wrote t u (a + l.length) m) (ha : (a + l.length) % 8 = 0) (hl : l ≠ []) : Wrote s u a (l ++ m) := by
  have hpos : 0 < l.length := List.length_pos_iff.2 hl
  refine ⟨fun i hi => ?_, fun j hj => ?_⟩
  · rw [List.length_append] at hi
    by_cases hil : i < l.length
    · rw [h'.outside _ (.inl (by omega)), h.inside i hil, List.getD_append _ _ _ _ hil]
    · have hin := h'.inside (i - l.length) (by omega)
      rw [show a + l.length + (i - l.length) = a + i by omega] at hin
      rw [hin, List.getD_append_right _ _ _ _ (by omega)]
  · rw [List.length_append] at hj
    rw [h'.outside j (by omega), h.outside j (by omega)]

theorem congr {t' : Store} (h : Wrote s t a l) (ht : ∀ i, t'.byte i = t.byte i) : Wrote s t' a l :=
  ⟨fun i hi => (ht _).trans (h.inside i hi), fun j hj => (ht _).trans (h.outside j hj)⟩

theorem congr_left {s' : Store} (h : Wrote s t a l) (hs : ∀ i, s'.byte i = s.byte i) : Wrote s' t a l :=
  ⟨h.inside, fun j hj => (h.outside j hj).trans (hs j).symm⟩

/-- A word merged onto any other. -/
theorem word (s : Store) (a : Nat) {l : List Byte} (hl : l ≠ []) (ha : a % 8 + l.length ≤ 8) (w : Nat) :
    Wrote s (s.putWord (a / 8) (putBits w (8 * (a % 8 + l.length) - 1) (8 * (a % 8)) (leNat l))) a l := by
  have hpos : 0 < l.length := List.length_pos_iff.2 hl
  refine ⟨fun i hi => ?_, fun j hj => ?_⟩
  · have hb : (bytesLE (leNat l) l.length)[i]'(by rw [length_bytesLE]; exact hi) = l[i] := by
      congr 1
      exact bytesLE_leNat l
    rw [Store.byte_putWord, if_pos (by omega), ofNat_putBits_div _ _ _ hpos, if_pos (by omega), show (a + i) % 8 - a % 8 = i by omega,
      List.getD_eq_getElem _ _ hi, ← hb, getElem_bytesLE]
  · rw [Store.byte_putWord, if_neg (by omega)]

theorem merge (s : Store) (a : Nat) {l : List Byte} (hl : l ≠ []) (ha : a % 8 + l.length ≤ 8) :
    Wrote s (s.merge (a / 8) (a % 8) l.length (leNat l)) a l := by
  refine (word s a hl ha (s.read (a / 8)).1).congr fun i => ?_
  unfold Store.merge
  dsimp only
  split <;> rfl

/-- A whole word written. -/
theorem whole (s : Store) (a : Nat) {l : List Byte} (hl : l.length = 8) (ha : a % 8 = 0) : Wrote s (s.putWord (a / 8) (leNat l)) a l := by
  refine ⟨fun i hi => ?_, fun j hj => ?_⟩
  · have hb : (bytesLE (leNat l) l.length)[i]'(by rw [length_bytesLE]; exact hi) = l[i] := by
      congr 1
      exact bytesLE_leNat l
    rw [Store.byte_putWord, if_pos (by omega), show (a + i) % 8 = i by omega, List.getD_eq_getElem _ _ hi, ← hb, getElem_bytesLE]
  · rw [Store.byte_putWord, if_neg (by omega)]

end Wrote

/-! Stores of the other spaces. -/

theorem Dev.store_setStore (d : Dev) (sp sp' : Space) (t : Store) : (d.setStore sp t).store sp' = if sp' = sp then t else d.store sp' := by
  cases sp <;> cases sp' <;> rfl

theorem Dev.store_setReg (d : Dev) (a v : Nat) (sp : Space) : (d.setReg a v).store sp = d.store sp := by cases sp <;> rfl

theorem Dev.store_set (d : Dev) (f : Fld) (v : Nat) (sp : Space) : (d.set f v).store sp = d.store sp := Dev.store_setReg ..

theorem Dev.store_inc (d : Dev) (f : Fld) (sp : Space) : (d.inc f).store sp = d.store sp := by cases sp <;> rfl

theorem Dev.store_bump (d : Dev) (k : Nat) (sp : Space) : (d.bump k).store sp = d.store sp := by cases sp <;> rfl

theorem Dev.store_memEvt (d : Dev) (m : Nat) (sp : Space) : (d.memEvt m).store sp = d.store sp := Dev.store_setReg ..

theorem Dev.store_countEcc (d : Dev) (sp sp' : Space) (c e idx : Nat) (r : Reading) : (d.countEcc sp c e idx r).store sp' = d.store sp' := by
  unfold Dev.countEcc
  dsimp only
  cases r with
  | clean => rfl
  | single =>
    cases sp <;> simp only [apply_ite (Dev.store · sp'), Dev.store_inc, Dev.store_bump, Dev.store_memEvt, Dev.store_setReg, ite_self]
  | uncorrectable => cases sp <;> dsimp only <;> simp only [Dev.store_inc, Dev.store_bump, Dev.store_memEvt, Dev.store_setReg]
  | poisoned => simp only [Dev.store_inc, Dev.store_bump, Dev.store_memEvt]

theorem Dev.store_readWord (d : Dev) (sp sp' : Space) (c e idx : Nat) : (d.readWord sp c e idx).2.2.store sp' = d.store sp' := d.store_countEcc ..

theorem Space.word_add (sp : Space) (c e i : Nat) : sp.word c e i = sp.word c e 0 + i := by
  cases sp <;> simp [Space.word]

section
variable (d : Dev) (sp : Space) (c e : Nat)

theorem Dev.store_mergeWord_ne {sp' : Space} (h : sp' ≠ sp) (i o n v : Nat) : (d.mergeWord sp c e i o n v).store sp' = d.store sp' := by
  unfold Dev.mergeWord Dev.putWord
  split <;> rw [Dev.store_setStore, if_neg h]

theorem Dev.store_putPart_ne {sp' : Space} (h : sp' ≠ sp) (i o n v : Nat) : (d.putPart sp c e i o n v).store sp' = d.store sp' := by
  unfold Dev.putPart
  rw [Dev.store_mergeWord_ne _ _ _ _ h]
  split
  · rfl
  · exact d.store_readWord ..

theorem Dev.putPart_wrote (a : Nat) {l : List Byte} (hl : l ≠ []) (ha : a % 8 + l.length ≤ 8) :
    Wrote (d.store sp) ((d.putPart sp c e (a / 8) (a % 8) l.length (leNat l)).store sp) (8 * sp.word c e 0 + a) l := by
  have h1 : sp.word c e (a / 8) = (8 * sp.word c e 0 + a) / 8 := by rw [Space.word_add]; omega
  have h2 : a % 8 = (8 * sp.word c e 0 + a) % 8 := by omega
  unfold Dev.putPart Dev.mergeWord Dev.putWord
  split
  next h8 =>
    rw [Dev.store_setStore, if_pos rfl, h1]
    exact Wrote.whole _ _ h8 (by omega)
  next h8 =>
    rw [Dev.store_setStore, if_pos rfl, Dev.store_readWord, h1, h2]
    exact Wrote.merge _ _ hl (by omega)

/-- A word marked as poisoned keeps its bytes. -/
theorem Dev.byte_marked (i j : Nat) : ((d.putWordP sp c e i ((d.store sp).raw (sp.word c e i)) true).store sp).byte j = (d.store sp).byte j := by
  rw [Dev.putWordP, if_pos rfl, Dev.store_setStore, if_pos rfl, Store.byte_poisonWord, Store.byte_putWord]
  split
  next h => rw [← h, ← Store.byte_eq_raw]
  next h => rfl

theorem Dev.store_putWordP_ne {sp' : Space} (h : sp' ≠ sp) (i v : Nat) (b : Bool) : (d.putWordP sp c e i v b).store sp' = d.store sp' := by
  rw [Dev.putWordP, Dev.store_setStore, if_neg h]

/-- The part with a word marked as poisoned if one of the bytes put into it was. -/
def Dev.remarked (i : Nat) (b : Bool) : Dev := if b then d.putWordP sp c e i ((d.store sp).raw (sp.word c e i)) true else d

theorem Dev.putMarkedN_step (a n : Nat) {l : List (Byte × Bool)} (hl : l ≠ []) {k : Nat} (hk : k = min (8 - a % 8) l.length) :
    d.putMarkedN sp c e a (n + 1) l = ((d.putPart sp c e (a / 8) (a % 8) k (leNat ((l.take k).map (·.1)))).remarked sp c e (a / 8)
      ((l.take k).any (·.2))).putMarkedN sp c e (a + k) n (l.drop k) := by
  subst hk
  cases l with
  | nil => exact absurd rfl hl
  | cons b t => rfl

theorem Dev.putMarkedN_nil (a n : Nat) : d.putMarkedN sp c e a n [] = d := by
  cases n <;> rfl

theorem Dev.store_remarked_ne {sp' : Space} (h : sp' ≠ sp) (i : Nat) (b : Bool) : (d.remarked sp c e i b).store sp' = d.store sp' := by
  unfold Dev.remarked
  split
  · exact d.store_putWordP_ne sp c e h ..
  · rfl

theorem Dev.byte_remarked (i : Nat) (b : Bool) (j : Nat) : ((d.remarked sp c e i b).store sp).byte j = (d.store sp).byte j := by
  unfold Dev.remarked
  split
  · exact d.byte_marked ..
  · rfl

theorem Dev.store_putMarkedN_ne {sp' : Space} (h : sp' ≠ sp) (a n : Nat) (l : List (Byte × Bool)) :
    (d.putMarkedN sp c e a n l).store sp' = d.store sp' := by
  induction n generalizing d a l with
  | zero => rfl
  | succ n ih =>
    by_cases hl : l = []
    · rw [hl, Dev.putMarkedN_nil]
    · rw [Dev.putMarkedN_step _ _ _ _ _ _ hl rfl, ih, Dev.store_remarked_ne _ _ _ _ h, Dev.store_putPart_ne _ _ _ _ h]

/-- The bytes put, whatever their marks. -/
theorem Dev.putMarkedN_wrote (a n : Nat) (l : List (Byte × Bool)) (hn : l.length ≤ n) :
    Wrote (d.store sp) ((d.putMarkedN sp c e a n l).store sp) (8 * sp.word c e 0 + a) (l.map (·.1)) := by
  induction n generalizing d a l with
  | zero => rw [List.eq_nil_of_length_eq_zero (Nat.le_zero.1 hn)]; exact Wrote.nil
  | succ n ih =>
    by_cases hl : l = []
    · rw [hl, Dev.putMarkedN_nil]
      exact Wrote.nil
    · have hpos : 0 < l.length := List.length_pos_iff.2 hl
      obtain ⟨k, hk⟩ : ∃ k, k = min (8 - a % 8) l.length := ⟨_, rfl⟩
      have hlen : ((l.take k).map (·.1)).length = k := by
        rw [List.length_map, List.length_take]
        omega
      have hne : (l.take k).map (·.1) ≠ [] := List.length_pos_iff.1 (by omega)
      have h1 := d.putPart_wrote sp c e a hne (by omega)
      rw [hlen] at h1
      have h2 := h1.congr (Dev.byte_remarked _ sp c e (a / 8) ((l.take k).any (·.2)))
      rw [Dev.putMarkedN_step _ _ _ _ _ _ hl hk]
      generalize Dev.remarked _ sp c e (a / 8) ((l.take k).any (·.2)) = z at *
      have hmap : l.map (·.1) = (l.take k).map (·.1) ++ (l.drop k).map (·.1) := by rw [← List.map_append, List.take_append_drop]
      by_cases hd : l.drop k = []
      · rw [hmap, hd, Dev.putMarkedN_nil, List.map_nil, List.append_nil]
        exact h2
      · have hkl : k < l.length := Nat.lt_of_not_le fun h => hd (List.drop_eq_nil_iff.2 h)
        have h4 := ih z (a + k) (l.drop k) (by rw [List.length_drop]; omega)
        rw [hmap]
        refine h2.append (by rw [hlen, Nat.add_assoc]; exact h4) (by rw [hlen]; omega) hne

end

end Sys2Proof.Machine
end

section
/-! Images put into the stores of a cluster, or wiped from them (spec/07, R223, R225). -/

open Sys2Proof

namespace Sys2Proof.Machine

namespace FabStep
variable {d d' : Dev}

theorem putPartAt (h : FabStep d d') {sp : Space} {c e i o n v : Nat} (hc : c ≤ 64) (he : e ≤ 64) : FabStep d (d'.putPart sp c e i o n v) := by
  have hr : FabStep d (if n = 8 then d' else (d'.readWord sp c e i).2.2) := ite h (h.countEcc hc he)
  unfold Dev.putPart Dev.mergeWord
  generalize (if n = 8 then d' else (d'.readWord sp c e i).2.2) = x at *
  exact ite hr.putWord hr.setStore

theorem remarked (h : FabStep d d') {sp : Space} {c e i : Nat} {b : Bool} : FabStep d (d'.remarked sp c e i b) := ite h.setStore h

theorem putMarkedN (h : FabStep d d') {sp : Space} {c e a n : Nat} {l : List (Byte × Bool)} (hc : c ≤ 64) (he : e ≤ 64) :
    FabStep d (d'.putMarkedN sp c e a n l) := by
  induction n generalizing d' a l with
  | zero => exact h
  | succ n ih =>
    by_cases hl : l = []
    · rw [hl, Dev.putMarkedN_nil]
      exact h
    · rw [Dev.putMarkedN_step _ _ _ _ _ _ hl rfl]
      exact ih (h.putPartAt hc he).remarked

theorem onEng (h : FabStep d d') (g : Tbl EngSt) : FabStep { d with eng := g } { d' with eng := g } := by
  obtain ⟨⟨r, f, s1, s2, s3, s4, s5, c, n, rfl⟩, hr⟩ := h
  exact ⟨⟨r, f, s1, s2, s3, s4, s5, c, n, rfl⟩, hr⟩

end FabStep

/-- From d to d' nothing changes but what a fabric step may change, and the images of engines. -/
def ImageStep (d d' : Dev) : Prop :=
  FabStep { d with eng := d'.eng } d' ∧ ∀ j, d'.e j = { d.e j with image := (d'.e j).image }

namespace ImageStep
variable {d d' : Dev}

theorem refl (d : Dev) : ImageStep d d := ⟨FabStep.refl d, fun _ => rfl⟩

theorem trans {e : Dev} (h : ImageStep d d') (h' : ImageStep d' e) : ImageStep d e := by
  obtain ⟨h1, h2⟩ := h
  obtain ⟨g1, g2⟩ := h'
  exact ⟨(h1.onEng e.eng).trans g1, fun j => by rw [g2, h2]⟩

theorem of_fab (h : FabStep d d') : ImageStep d d' := by
  have he : d'.eng = d.eng := h.eng
  refine ⟨by rw [he]; exact h, fun j => ?_⟩
  rw [h.e]

theorem image (d : Dev) (k : Nat) (i : Option Word) : ImageStep d (d.onE k fun x => { x with image := i }) := by
  refine ⟨FabStep.refl _, fun j => ?_⟩
  by_cases hj : k = j
  · subst hj
    rw [Dev.e_onE_same]
  · rw [Dev.e_onE_ne _ _ hj]

theorem foldl {α : Type} {f : Dev → α → Dev} (l : List α) (hf : ∀ x, ∀ a ∈ l, ImageStep x (f x a)) (d : Dev) : ImageStep d (l.foldl f d) := by
  induction l generalizing d with
  | nil => exact refl d
  | cons a l ih => exact (hf d a (.head _)).trans (ih (fun x b hb => hf x b (.tail _ hb)) _)

theorem reg (h : ImageStep d d') {a : Nat} (ha : a ≠ 0x33400 ∧ a < 0x80000 ∨ 0x1000000 ≤ a) : d'.reg a = d.reg a := h.1.reg ha

end ImageStep

section
variable (d : Dev) (h : ImgHead) (c : Nat) (p : List (Byte × Bool))

/-- The text and the data of an image put into the local store of engine k of cluster c. -/
def Dev.imageLoaded (k : Nat) : Dev :=
  (d.putMarkedN .loc c k 0 ((p.take h.text).length + 1) (p.take h.text)).putMarkedN .loc c k 0x10000
    (((p.drop (pad64 h.text)).take h.data).length + 1) ((p.drop (pad64 h.text)).take h.data)

/-- Engine k of cluster c with an image. -/
def Dev.imageAt (k : Nat) : Dev := (d.imageLoaded h c p k).onE (8 * c + k) fun x => { x with image := some (BitVec.ofNat 32 h.entry) }

theorem Dev.placeImage_eq (mask : Nat) : d.placeImage h c mask p =
    ((List.range 8).foldl (fun d k => if bit mask k then d.imageAt h c p k else d) d).putMarkedN .shared c 0 h.ofs
      (((p.drop (pad64 h.text + pad64 h.data)).take h.shared).length + 1) ((p.drop (pad64 h.text + pad64 h.data)).take h.shared) := rfl

theorem ImageStep.imageAt {k : Nat} (hc : c ≤ 64) (hk : k ≤ 64) : ImageStep d (d.imageAt h c p k) :=
  (of_fab (((FabStep.refl d).putMarkedN hc hk).putMarkedN hc hk)).trans (ImageStep.image _ _ _)

theorem Dev.locS_imageAt (k : Nat) : (d.imageAt h c p k).locS = (d.imageLoaded h c p k).locS := rfl

/-- Bytes j to j + n - 1 of the store of engine k of cluster c are those of l from i on. -/
def holdsAt (s : Store) (c k j n : Nat) (l : List Byte) (i : Nat) : Prop :=
  ∀ m, m < n → i + m < l.length → s.byte (262144 * (8 * c + k) + j + m) = l.getD (i + m) 0

theorem getD_drop_take {l : List Byte} {i n m : Nat} (hm : m < n) : ((l.drop i).take n).getD m 0 = l.getD (i + m) 0 := by
  rw [List.getD_eq_getElem?_getD, List.getElem?_take, if_pos hm, List.getElem?_drop, List.getD_eq_getElem?_getD]

variable (ht : h.text ≤ 65536) (hd : h.data ≤ 196608)
include ht hd

theorem Dev.imageLoaded_spec (k : Nat) :
    holdsAt (d.imageLoaded h c p k).locS c k 0 h.text (p.map (·.1)) 0 ∧
    holdsAt (d.imageLoaded h c p k).locS c k 65536 h.data (p.map (·.1)) (pad64 h.text) ∧
    ∀ j, j / 262144 ≠ 8 * c + k → (d.imageLoaded h c p k).locS.byte j = d.locS.byte j := by
  have h1 := d.putMarkedN_wrote .loc c k 0 ((p.take h.text).length + 1) (p.take h.text) (Nat.le_succ _)
  have hl1 : (p.take h.text).length ≤ h.text := by rw [List.length_take]; omega
  have hl2 : ((p.drop (pad64 h.text)).take h.data).length ≤ h.data := by rw [List.length_take]; omega
  unfold Dev.imageLoaded
  generalize d.putMarkedN .loc c k 0 ((p.take h.text).length + 1) (p.take h.text) = y at *
  have h2 := y.putMarkedN_wrote .loc c k 0x10000 (((p.drop (pad64 h.text)).take h.data).length + 1) ((p.drop (pad64 h.text)).take h.data) (Nat.le_succ _)
  generalize y.putMarkedN .loc c k 0x10000 (((p.drop (pad64 h.text)).take h.data).length + 1) ((p.drop (pad64 h.text)).take h.data) = z at *
  obtain ⟨i1, o1⟩ := h1
  obtain ⟨i2, o2⟩ := h2
  have hw : Space.word .loc c k 0 = (8 * c + k) * 32768 := Nat.add_zero _
  change ∀ i, i < _ → y.locS.byte _ = _ at i1
  change ∀ i, i < _ → z.locS.byte _ = _ at i2
  change ∀ j, _ → y.locS.byte j = d.locS.byte j at o1
  change ∀ j, _ → z.locS.byte j = y.locS.byte j at o2
  rw [List.length_map, hw] at i1 o1 i2 o2
  refine ⟨fun m hm hl => ?_, fun m hm hl => ?_, fun j hj => ?_⟩
  · rw [List.length_map] at hl
    have := i1 m (by rw [List.length_take]; omega)
    rw [o2 _ (by omega), show 262144 * (8 * c + k) + 0 + m = 8 * ((8 * c + k) * 32768) + 0 + m by omega, this, List.map_take]
    exact getD_drop_take (l := p.map (·.1)) (i := 0) hm
  · rw [List.length_map] at hl
    have := i2 m (by rw [List.length_take, List.length_drop]; omega)
    rw [show 262144 * (8 * c + k) + 65536 + m = 8 * ((8 * c + k) * 32768) + 0x10000 + m by omega, this, List.map_take, List.map_drop]
    exact getD_drop_take hm
  · rw [o2 j (by omega), o1 j (by omega)]

/-- What an image put into the store of engine k of cluster c leaves of the others. -/
theorem Dev.imageAt_ne {k j : Nat} (hj : k ≠ j) (hc : c ≤ 64) (hk : k ≤ 64) : (d.imageAt h c p k).e (8 * c + j) = d.e (8 * c + j) ∧
    ∀ i, i / 262144 = 8 * c + j → (d.imageAt h c p k).locS.byte i = d.locS.byte i := by
  refine ⟨?_, fun i hi => ?_⟩
  · rw [Dev.imageAt, Dev.e_onE_ne _ _ (by omega)]
    exact (((FabStep.refl d).putMarkedN hc hk).putMarkedN hc hk).e _
  · rw [Dev.locS_imageAt]
    exact (d.imageLoaded_spec h c p ht hd k).2.2 i (by omega)

omit ht hd in
theorem Dev.image_imageAt (k : Nat) : ((d.imageAt h c p k).e (8 * c + k)).image = some (BitVec.ofNat 32 h.entry) := by
  rw [Dev.imageAt, Dev.e_onE_same]

/-- The image put into the stores of the engines of l that the mask names. -/
def Dev.imagesAt (mask : Nat) (l : List Nat) : Dev := l.foldl (fun d k => if bit mask k then d.imageAt h c p k else d) d

theorem Dev.imagesAt_ne (mask : Nat) (l : List Nat) {j : Nat} (hj : j ∉ l) (hc : c ≤ 64) (hl : ∀ k ∈ l, k ≤ 64) :
    (d.imagesAt h c p mask l).e (8 * c + j) = d.e (8 * c + j) ∧
    ∀ i, i / 262144 = 8 * c + j → (d.imagesAt h c p mask l).locS.byte i = d.locS.byte i := by
  unfold Dev.imagesAt
  induction l generalizing d with
  | nil => exact ⟨rfl, fun _ _ => rfl⟩
  | cons a l ih =>
    rw [List.mem_cons, not_or] at hj
    obtain ⟨h1, h2⟩ := ih (if bit mask a then d.imageAt h c p a else d) hj.2 fun k hk => hl k (.tail _ hk)
    rw [List.foldl_cons, h1]
    obtain ⟨g1, g2⟩ := d.imageAt_ne h c p ht hd (Ne.symm hj.1) hc (hl a (.head _))
    split
    next hb =>
      rw [if_pos hb] at h2
      exact ⟨g1, fun i hi => (h2 i hi).trans (g2 i hi)⟩
    next hb =>
      rw [if_neg hb] at h2
      exact ⟨rfl, h2⟩

omit ht hd in
theorem holdsAt.congr {s t : Store} {k j n i : Nat} {l : List Byte} (hs : holdsAt s c k j n l i) (hn : j + n ≤ 262144)
    (h : ∀ i, i / 262144 = 8 * c + k → t.byte i = s.byte i) : holdsAt t c k j n l i :=
  fun m hm hl => (h _ (by omega)).trans (hs m hm hl)

/-- R223: what the engines named hold. -/
theorem Dev.imagesAt_spec (mask : Nat) (l : List Nat) (hl : l.Nodup) (hc : c ≤ 64) (h64 : ∀ k ∈ l, k ≤ 64) {k : Nat} (hk : k ∈ l) (hb : bit mask k = true) :
    ((d.imagesAt h c p mask l).e (8 * c + k)).image = some (BitVec.ofNat 32 h.entry) ∧
    holdsAt (d.imagesAt h c p mask l).locS c k 0 h.text (p.map (·.1)) 0 ∧
    holdsAt (d.imagesAt h c p mask l).locS c k 65536 h.data (p.map (·.1)) (pad64 h.text) := by
  induction l generalizing d with
  | nil => cases hk
  | cons a l ih =>
    obtain ⟨ha, hl⟩ := List.nodup_cons.1 hl
    rcases List.mem_cons.1 hk with rfl | hk
    · have he : d.imagesAt h c p mask (k :: l) = (d.imageAt h c p k).imagesAt h c p mask l := by
        rw [Dev.imagesAt, List.foldl_cons, if_pos hb, Dev.imagesAt]
      obtain ⟨h1, h2⟩ := (d.imageAt h c p k).imagesAt_ne h c p ht hd mask l ha hc fun k hk => h64 k (.tail _ hk)
      obtain ⟨g1, g2, -⟩ := d.imageLoaded_spec h c p ht hd k
      rw [he, h1]
      exact ⟨d.image_imageAt h c p k, g1.congr c (by omega) h2, g2.congr c (by omega) h2⟩
    · exact ih (if bit mask a then d.imageAt h c p a else d) hl (fun k hk => h64 k (.tail _ hk)) hk

omit ht hd in
theorem ImageStep.imagesAt (mask : Nat) (l : List Nat) (hc : c ≤ 64) (hl : ∀ k ∈ l, k ≤ 64) : ImageStep d (d.imagesAt h c p mask l) := by
  refine ImageStep.foldl l (fun x a ha => ?_) d
  split
  · exact ImageStep.imageAt _ _ _ _ hc (hl a ha)
  · exact ImageStep.refl _

/-- R223: an image placed. -/
theorem Dev.placeImage_spec (mask : Nat) (hc : c ≤ 64) : ImageStep d (d.placeImage h c mask p) ∧
    (∀ k, k < 8 → bit mask k = true → ((d.placeImage h c mask p).e (8 * c + k)).image = some (BitVec.ofNat 32 h.entry) ∧
      holdsAt (d.placeImage h c mask p).locS c k 0 h.text (p.map (·.1)) 0 ∧
      holdsAt (d.placeImage h c mask p).locS c k 65536 h.data (p.map (·.1)) (pad64 h.text)) ∧
    ∀ i, i < h.shared → pad64 h.text + pad64 h.data + i < p.length →
      (d.placeImage h c mask p).sharedS.byte (4194304 * c + h.ofs + i) = (p.map (·.1)).getD (pad64 h.text + pad64 h.data + i) 0 := by
  have h64 : ∀ k ∈ List.range 8, k ≤ 64 := fun k hk => by
    have := List.mem_range.1 hk
    omega
  have h1 := ImageStep.imagesAt d h c p mask (List.range 8) hc h64
  have h2 := fun k (hk : k < 8) hb => d.imagesAt_spec h c p ht hd mask _ List.nodup_range hc h64 (List.mem_range.2 hk) hb
  rw [Dev.placeImage_eq, ← Dev.imagesAt]
  generalize d.imagesAt h c p mask (List.range 8) = y at *
  have hf := (FabStep.refl y).putMarkedN (sp := .shared) (c := c) (e := 0) (a := h.ofs)
    (n := ((p.drop (pad64 h.text + pad64 h.data)).take h.shared).length + 1) (l := (p.drop (pad64 h.text + pad64 h.data)).take h.shared) hc (by decide)
  have hs := y.store_putMarkedN_ne .shared c 0 (sp' := .loc) (by decide) h.ofs
    (((p.drop (pad64 h.text + pad64 h.data)).take h.shared).length + 1) ((p.drop (pad64 h.text + pad64 h.data)).take h.shared)
  obtain ⟨hw, -⟩ := y.putMarkedN_wrote .shared c 0 h.ofs (((p.drop (pad64 h.text + pad64 h.data)).take h.shared).length + 1)
    ((p.drop (pad64 h.text + pad64 h.data)).take h.shared) (Nat.le_succ _)
  generalize y.putMarkedN .shared c 0 h.ofs (((p.drop (pad64 h.text + pad64 h.data)).take h.shared).length + 1)
    ((p.drop (pad64 h.text + pad64 h.data)).take h.shared) = z at *
  change z.locS = y.locS at hs
  refine ⟨h1.trans (ImageStep.of_fab hf), fun k hk hb => ?_, fun i hi hl => ?_⟩
  · rw [hf.e, hs]
    exact h2 k hk hb
  · have := hw i (by rw [List.length_map, List.length_take, List.length_drop]; omega)
    rw [List.map_take, List.map_drop, getD_drop_take hi] at this
    rw [← this]
    change z.sharedS.byte _ = z.sharedS.byte _
    congr 1
    show _ = 8 * (c * 524288 + 0) + h.ofs + i
    omega

end

end Sys2Proof.Machine
end

section
/-! Images wiped, and the record of a verification (spec/07, R223; spec/13, R349). -/

open Sys2Proof

namespace Sys2Proof.Machine

section
variable (d : Dev) (c : Nat)

/-- The store of engine k of cluster c cleared, its image gone. -/
def Dev.wipedAt (k : Nat) : Dev :=
  ({ d with locS := d.locS.clear ((8 * c + k) * 262144) ((8 * c + k + 1) * 262144) }).onE (8 * c + k) fun x => { x with image := none }

/-- The engines of l that the mask names wiped. -/
def Dev.wiped (mask : Nat) (l : List Nat) : Dev := l.foldl (fun d k => if bit mask k then d.wipedAt c k else d) d

/-- The shared store of cluster c cleared. -/
def Dev.sharedWiped : Dev := { d with sharedS := d.sharedS.clear (c * 4194304) ((c + 1) * 4194304) }

theorem Dev.wipeImage_eq (mask : Nat) : d.wipeImage c mask = (d.wiped c mask (List.range 8)).sharedWiped c := rfl

theorem ImageStep.wipedAt (k : Nat) : ImageStep d (d.wipedAt c k) :=
  (ImageStep.of_fab (FabStep.of_regs ⟨_, _, _, _, _, _, _, _, rfl⟩)).trans (ImageStep.image _ _ _)

theorem ImageStep.wiped (mask : Nat) (l : List Nat) : ImageStep d (d.wiped c mask l) := by
  refine ImageStep.foldl l (fun x a _ => ?_) d
  split
  · exact ImageStep.wipedAt _ _ _
  · exact ImageStep.refl _

/-- Nothing is left in the store of engine k of cluster c, nor an image. -/
def blankAt (k : Nat) : Prop := (d.e (8 * c + k)).image = none ∧ ∀ i, i < 262144 → d.locS.byte (262144 * (8 * c + k) + i) = 0

theorem Dev.blankAt_wipedAt (k : Nat) : blankAt (d.wipedAt c k) c k := by
  refine ⟨by rw [Dev.wipedAt, Dev.e_onE_same], fun i hi => ?_⟩
  show (d.locS.clear _ _).byte _ = 0
  rw [Store.byte_clear, if_pos (by omega)]

theorem Dev.blankAt_keeps {k : Nat} (h : blankAt d c k) (j : Nat) : blankAt (d.wipedAt c j) c k := by
  obtain ⟨h1, h2⟩ := h
  refine ⟨?_, fun i hi => ?_⟩
  · by_cases hj : j = k
    · rw [hj, Dev.wipedAt, Dev.e_onE_same]
    · rw [Dev.wipedAt, Dev.e_onE_ne _ _ (by omega)]
      exact h1
  · show (d.locS.clear _ _).byte _ = 0
    rw [Store.byte_clear, h2 i hi, ite_self]

theorem Dev.blankAt_wiped (mask : Nat) (l : List Nat) {k : Nat} (h : blankAt d c k ∨ k ∈ l ∧ bit mask k = true) : blankAt (d.wiped c mask l) c k := by
  unfold Dev.wiped
  induction l generalizing d with
  | nil => exact h.resolve_right fun h => nomatch h.1
  | cons a l ih =>
    refine ih (if bit mask a then d.wipedAt c a else d) ?_
    rcases h with h | ⟨h, hb⟩
    · left
      split
      · exact d.blankAt_keeps c h a
      · exact h
    · rcases List.mem_cons.1 h with rfl | h
      · rw [if_pos hb]
        exact .inl (d.blankAt_wipedAt c k)
      · exact .inr ⟨h, hb⟩

/-- R223: an image wiped. -/
theorem Dev.wipeImage_spec (mask : Nat) : ImageStep d (d.wipeImage c mask) ∧ (d.wipeImage c mask).regs = d.regs ∧
    (∀ k, k < 8 → bit mask k = true → blankAt (d.wipeImage c mask) c k) ∧
    ∀ i, i < 4194304 → (d.wipeImage c mask).sharedS.byte (4194304 * c + i) = 0 := by
  have hregs : ∀ (l : List Nat) (d : Dev), (d.wiped c mask l).regs = d.regs := fun l d => by
    unfold Dev.wiped
    induction l generalizing d with
    | nil => rfl
    | cons a l ih =>
      rw [List.foldl_cons, ih]
      split <;> rfl
  have h1 := ImageStep.wiped d c mask (List.range 8)
  have h2 := fun k (hk : k < 8) hb => d.blankAt_wiped c mask (List.range 8) (k := k) (.inr ⟨List.mem_range.2 hk, hb⟩)
  have h3 := hregs (List.range 8) d
  rw [Dev.wipeImage_eq]
  generalize d.wiped c mask (List.range 8) = y at *
  refine ⟨h1.trans (ImageStep.of_fab (FabStep.of_regs ⟨_, _, _, _, _, _, _, _, rfl⟩)), h3, h2, fun i hi => ?_⟩
  show (y.sharedS.clear _ _).byte _ = 0
  rw [Store.byte_clear, if_pos (by omega)]

variable (key : Nat)

theorem Dev.verifyLast_none : d.verifyLast key c none = d.setReg A.VERIFY_LAST (2 ^ 31 + 2 ^ 30 * 0 + 2 ^ 24 * 0 + 2 ^ 16 * (key % 16) + 2 ^ 12 * c) := rfl

/-- What a refused image shows before it is counted. -/
def Dev.refusalShown (x : Nat) : Dev := d.setReg A.VERIFY_LAST (2 ^ 31 + 2 ^ 30 * 1 + 2 ^ 24 * x + 2 ^ 16 * (key % 16) + 2 ^ 12 * c)

theorem Dev.verifyLast_some (x : Nat) : d.verifyLast key c (some x) = ((d.refusalShown c key x).inc R.VERIFY_FAILS.COUNT).orF R.SEC_EVT.EVT 1 := rfl

theorem Dev.verifyLast_regs (x : Option Nat) : RegsOnly d (d.verifyLast key c x) [A.VERIFY_LAST, A.VERIFY_FAILS, A.SEC_EVT] := by
  cases x with
  | none =>
    rw [Dev.verifyLast_none]
    exact (RegsOnly.refl _ _).setReg 0 rfl
  | some x =>
    rw [Dev.verifyLast_some]
    exact RegsOnly.orF (RegsOnly.inc ((RegsOnly.refl _ _).setReg 0 rfl) 1 rfl) 2 rfl

/-- R349: what a refused image shows. -/
theorem Dev.verifyLast_shows (x : Nat) (hc : c < 16) :
    (d.verifyLast key c (some x)).get R.VERIFY_FAILS.COUNT = min (2 ^ 32 - 1) (d.get R.VERIFY_FAILS.COUNT + 1) ∧
    (d.verifyLast key c (some x)).get R.VERIFY_LAST.DETAIL = x % 16 := by
  rw [Dev.verifyLast_some]
  constructor
  · rw [Dev.orF, Dev.get_set_apart _ (f := R.SEC_EVT.EVT) (g := R.VERIFY_FAILS.COUNT) _ (Fld.ok_of_ble rfl) (.inl (by decide)),
      Dev.get_inc_same _ _ _ (Fld.ok_of_ble rfl), Dev.refusalShown, Dev.get_setReg_ne _ _ R.VERIFY_FAILS.COUNT (by decide)]
    rfl
  · rw [Dev.orF, Dev.get_set_apart _ (f := R.SEC_EVT.EVT) (g := R.VERIFY_LAST.DETAIL) _ (Fld.ok_of_ble rfl) (.inl (by decide)),
      Dev.get_inc_apart _ (f := R.VERIFY_FAILS.COUNT) (g := R.VERIFY_LAST.DETAIL) _ (Fld.ok_of_ble rfl) (.inl (by decide)), Dev.refusalShown,
      show A.VERIFY_LAST = R.VERIFY_LAST.DETAIL.addr from rfl, Dev.get_setReg_same _ _ R.VERIFY_LAST.DETAIL (by decide)]
    show (2 ^ 31 + 2 ^ 30 * 1 + 2 ^ 24 * x + 2 ^ 16 * (key % 16) + 2 ^ 12 * c) / 2 ^ 24 % 2 ^ 4 = x % 16
    omega

end

end Sys2Proof.Machine
end

section
/-! What setting a polder's blocks back leaves alone (spec/15, R188, R398). -/

open Sys2Proof

namespace Sys2Proof.Machine

/-- From d to d' nothing changes but registers that p admits, the records of lanes, octets, engines, clusters, fabric, stores, queue pairs, polders
and memory, the counters and the free values drawn. -/
def BlockStep (p : Nat → Prop) (d d' : Dev) : Prop :=
  (∃ regs freeCtr eng cl dram flowS cellS locS sharedS ctr lane port oct tl loop chain weir fab q mem pol, d' =
    { d with regs, freeCtr, eng, cl, dram, flowS, cellS, locS, sharedS, ctr, lane, port, oct, tl, loop, chain, weir, fab, q, mem, pol }) ∧
  ∀ a, ¬ p a → d'.reg a = d.reg a

/-- The registers that setting blocks back may change. -/
def inBlocks (a : Nat) : Prop := a = 0x33400 ∨ a = A.PAD_HOLD ∨ a = A.PAD_HOLD_DRAM ∨ (0x40 ≤ a ∧ a < 0x74) ∨ 0x80000 ≤ a

namespace BlockStep
variable {p : Nat → Prop} {d d' : Dev}

theorem refl (d : Dev) : BlockStep p d d := ⟨⟨_, _, _, _, _, _, _, _, _, _, _, _, _, _, _, _, _, _, _, _, _, rfl⟩, fun _ _ => rfl⟩

theorem trans {e : Dev} (h : BlockStep p d d') (h' : BlockStep p d' e) : BlockStep p d e := by
  obtain ⟨⟨_, _, _, _, _, _, _, _, _, _, _, _, _, _, _, _, _, _, _, _, _, rfl⟩, hr⟩ := h
  obtain ⟨⟨_, _, _, _, _, _, _, _, _, _, _, _, _, _, _, _, _, _, _, _, _, rfl⟩, hr'⟩ := h'
  exact ⟨⟨_, _, _, _, _, _, _, _, _, _, _, _, _, _, _, _, _, _, _, _, _, rfl⟩, fun a ha => (hr' a ha).trans (hr a ha)⟩

theorem mono {p' : Nat → Prop} (h : BlockStep p d d') (hp : ∀ a, p a → p' a) : BlockStep p' d d' := ⟨h.1, fun a ha => h.2 a fun h => ha (hp a h)⟩

theorem of_records (h : ∃ freeCtr eng cl dram flowS cellS locS sharedS ctr lane port oct tl loop chain weir fab q mem pol, d' =
    { d with freeCtr, eng, cl, dram, flowS, cellS, locS, sharedS, ctr, lane, port, oct, tl, loop, chain, weir, fab, q, mem, pol }) : BlockStep p d d' := by
  obtain ⟨_, _, _, _, _, _, _, _, _, _, _, _, _, _, _, _, _, _, _, _, rfl⟩ := h
  exact ⟨⟨_, _, _, _, _, _, _, _, _, _, _, _, _, _, _, _, _, _, _, _, _, rfl⟩, fun _ _ => rfl⟩

theorem of_fab (h : FabStep d d') (hp : ∀ a, a = 0x33400 ∨ 0x80000 ≤ a → p a) : BlockStep p d d' := by
  obtain ⟨⟨_, _, _, _, _, _, _, _, _, rfl⟩, hr⟩ := h
  exact ⟨⟨_, _, _, _, _, _, _, _, _, _, _, _, _, _, _, _, _, _, _, _, _, rfl⟩, fun a ha => hr a (.inl (by
    have : ¬ (a = 0x33400 ∨ 0x80000 ≤ a) := fun h => ha (hp a h)
    omega))⟩

theorem of_reset {p' : Nat → Prop} (h : ResetStep p' d d') (hp : ∀ a, p' a → p a) : BlockStep p d d' := by
  obtain ⟨⟨_, _, _, _, rfl⟩, hr⟩ := h
  exact ⟨⟨_, _, _, _, _, _, _, _, _, _, _, _, _, _, _, _, _, _, _, _, _, rfl⟩, fun a ha => hr a fun h => ha (hp a h)⟩

theorem setReg (h : BlockStep p d d') {a v : Nat} (ha : p a) : BlockStep p d (d'.setReg a v) :=
  h.trans ⟨⟨_, _, _, _, _, _, _, _, _, _, _, _, _, _, _, _, _, _, _, _, _, rfl⟩, fun _ hb => Dev.reg_setReg_ne d' v fun e => hb (e ▸ ha)⟩

theorem set (h : BlockStep p d d') {f : Fld} {v : Nat} (ha : p f.addr) : BlockStep p d (d'.set f v) := h.setReg ha

theorem clearRegs (h : BlockStep p d d') {sel : Nat → Bool} (hs : ∀ a, sel a = true → p a) : BlockStep p d (d'.clearRegs sel) :=
  h.trans ⟨⟨_, _, _, _, _, _, _, _, _, _, _, _, _, _, _, _, _, _, _, _, _, rfl⟩, fun a ha =>
    d'.reg_clearRegs_out sel (eq_false_of_ne_true fun h => ha (hs a h))⟩

theorem onCh (h : BlockStep p d d') {o i : Nat} {f : ChainSt → ChainSt} : BlockStep p d (d'.onCh o i f) :=
  h.trans (of_records ⟨_, _, _, _, _, _, _, _, _, _, _, _, _, _, _, _, _, _, _, _, rfl⟩)

theorem onW (h : BlockStep p d d') {o : Nat} {f : WeirSt → WeirSt} : BlockStep p d (d'.onW o f) :=
  h.trans (of_records ⟨_, _, _, _, _, _, _, _, _, _, _, _, _, _, _, _, _, _, _, _, rfl⟩)

theorem onQ (h : BlockStep p d d') {q : Nat} {f : QSt → QSt} : BlockStep p d (d'.onQ q f) :=
  h.trans (of_records ⟨_, _, _, _, _, _, _, _, _, _, _, _, _, _, _, _, _, _, _, _, rfl⟩)

theorem onP (h : BlockStep p d d') {q : Nat} {f : PolSt → PolSt} : BlockStep p d (d'.onP q f) :=
  h.trans (of_records ⟨_, _, _, _, _, _, _, _, _, _, _, _, _, _, _, _, _, _, _, _, rfl⟩)

theorem onE (h : BlockStep p d d') {e : Nat} {f : EngSt → EngSt} : BlockStep p d (d'.onE e f) :=
  h.trans (of_records ⟨_, _, _, _, _, _, _, _, _, _, _, _, _, _, _, _, _, _, _, _, rfl⟩)

theorem onL (h : BlockStep p d d') {g : Nat} {f : LaneSt → LaneSt} : BlockStep p d (d'.onL g f) :=
  h.trans (of_records ⟨_, _, _, _, _, _, _, _, _, _, _, _, _, _, _, _, _, _, _, _, rfl⟩)

theorem foldl {α : Type} {f : Dev → α → Dev} (l : List α) (hf : ∀ x, ∀ a ∈ l, BlockStep p x (f x a)) (d : Dev) : BlockStep p d (l.foldl f d) := by
  induction l generalizing d with
  | nil => exact refl d
  | cons a l ih => exact (hf d a (.head _)).trans (ih (fun x b hb => hf x b (.tail _ hb)) _)

theorem ite {c : Prop} [Decidable c] {x y : Dev} (hx : BlockStep p d x) (hy : BlockStep p d y) : BlockStep p d (if c then x else y) := by
  split
  · exact hx
  · exact hy

theorem reg (h : BlockStep p d d') {a : Nat} (ha : ¬ p a) : d'.reg a = d.reg a := h.2 a ha

theorem get (h : BlockStep p d d') {f : Fld} (hf : ¬ p f.addr) : d'.get f = d.get f := Dev.get_congr (h.2 _ hf)

theorem on (h : BlockStep p d d') {f : Fld} (hf : ¬ p f.addr) : d'.on f = d.on f := Dev.on_congr (h.2 _ hf)

/-- The records a block's reset leaves. -/
theorem kept (h : BlockStep p d d') : d'.boot = d.boot ∧ d'.host = d.host ∧ d'.bist = d.bist ∧ d'.up = d.up ∧ d'.thm = d.thm := by
  obtain ⟨⟨_, _, _, _, _, _, _, _, _, _, _, _, _, _, _, _, _, _, _, _, _, rfl⟩, -⟩ := h
  exact ⟨rfl, rfl, rfl, rfl, rfl⟩

end BlockStep

section
variable (d : Dev) (v : Vault)

theorem BlockStep.unsettle (o : Nat) : BlockStep inBlocks d (d.unsettle o) := by
  have hin : ∀ i, inBlocks (octBase o + i) := fun i =>
    .inr (.inr (.inr (.inr (Nat.le_trans (Nat.le_of_ble_eq_true rfl) (Nat.le_trans (octBase_le o) (Nat.le_add_right ..))))))
  unfold Dev.unsettle Dev.clearChains
  refine ((refl d).set (hin _)).trans (foldl _ (fun x i _ => ?_) _)
  exact ((refl x).onCh.set (hin _)).setReg (by rw [A.CH_VALUE, Nat.add_assoc]; exact hin _)

theorem BlockStep.resetOctet (o : Nat) : BlockStep inBlocks d (d.resetOctet v o) := by
  have hoct : ∀ a, inOctets a → inBlocks a := fun a h => .inr (.inr (.inr (.inr (Nat.le_trans (Nat.le_of_ble_eq_true rfl) h))))
  have h1 : BlockStep inBlocks d (d.octetFrames o) := of_fab ((FabStep.refl d).octetFrames o) fun a h => h.imp id fun h => .inr (.inr (.inr h))
  have h2 : BlockStep inBlocks d (d.octetCleared o) := (h1.clearRegs (sel := fun a => decide (0x1000000 + 0x20000 * o ≤ a ∧ a < 0x1000000 + 0x20000 * (o + 1)))
    fun a ha => hoct a (by have := of_decide_eq_true ha; show _ ≤ _; omega)).trans (of_records ⟨_, _, _, _, _, _, _, _, _, _, _, _, _, _, _, _, _, _, _, _, rfl⟩)
  have h3 : BlockStep inBlocks d (d.octetFused v o) :=
    h2.trans (of_reset (((ResetStep.refl _).fusedEdge v o).trans (ResetStep.foldl _ (fun x g _ => (ResetStep.refl x).fusedLane v g) _)) hoct)
  rw [Dev.resetOctet_eq]
  exact ((h3.set (f := R.PAD_HOLD.OCT) (.inr (.inl rfl))).onW).trans (BlockStep.unsettle _ o)

theorem BlockStep.resetCluster (c : Nat) : BlockStep inBlocks d (d.resetCluster c) := by
  rw [Dev.resetCluster_eq]
  exact ((refl d).clearRegs (sel := fun a => decide (0x200000 + 0x10000 * c ≤ a ∧ a < 0x200000 + 0x10000 * (c + 1)))
    fun a ha => .inr (.inr (.inr (.inr (by have := of_decide_eq_true ha; omega))))).trans (of_records ⟨_, _, _, _, _, _, _, _, _, _, _, _, _, _, _, _, _, _, _, _, rfl⟩)

theorem BlockStep.resetFabric : BlockStep inBlocks d d.resetFabric := by
  have h1 : BlockStep inBlocks d (d.clearRegs fun a => decide (0x100000 ≤ a ∧ a < 0x200000)) := (refl d).clearRegs
    fun a ha => .inr (.inr (.inr (.inr (by have := of_decide_eq_true ha; omega))))
  have h2 : ∀ x : Dev, BlockStep inBlocks x x.fabricForgotten := fun x =>
    trans (d' := x.cellsForgotten) (of_records ⟨_, _, _, _, _, _, _, _, _, _, _, _, _, _, _, _, _, _, _, _, rfl⟩) (foldl _ (fun y q _ => (refl y).onQ) _)
  rw [Dev.resetFabric_eq]
  refine (h1.trans (h2 _)).trans (of_reset (ResetStep.drawHashKey _) ?_)
  rintro a ⟨w, -, rfl⟩
  exact .inr (.inr (.inr (.inr (by show _ ≤ 0x100010 + w * 4; omega))))

theorem BlockStep.resetDram : BlockStep inBlocks d d.resetDram := by
  have h1 : BlockStep inBlocks d d.dramCleared := (((refl d).clearRegs fun a ha =>
    .inr (.inr (.inr (.inr (by have := of_decide_eq_true ha; omega))))).set (f := R.MEM_CFG.KEEP_SR) (.inr (.inr (.inr (.inr (Nat.le_of_ble_eq_true rfl)))))).set
      (f := R.MEM_STATUS.SELF_REF) (.inr (.inr (.inr (.inr (Nat.le_of_ble_eq_true rfl)))))
  rw [Dev.resetDram_eq]
  generalize d.dramCleared = x at *
  exact (h1.setReg (a := A.PAD_HOLD_DRAM) (.inr (.inr (.inl rfl)))).trans (of_records ⟨_, _, _, _, _, _, _, _, _, _, _, _, _, _, _, _, _, _, _, _, rfl⟩)

theorem BlockStep.blocksCleared (q : Nat) : BlockStep inBlocks d (d.blocksCleared v q) :=
  ite (resetOctet d v q) (ite (resetFabric d) (ite (resetCluster d _) (resetDram d)))

/-- Setting the blocks of a polder back. -/
theorem BlockStep.resetBlocks {q : Nat} (hq : q < 48) : BlockStep inBlocks d (d.resetBlocks v q) := by
  rw [Dev.resetBlocks_eq d v hq]
  refine ((blocksCleared d v q).trans (of_reset (ResetStep.bumpEpochs _ _ fun k hk => Nat.lt_of_lt_of_le (resetGroup_lt hq hk) (by decide)) ?_)).trans
    (of_records ⟨_, _, _, _, _, _, _, _, _, _, _, _, _, _, _, _, _, _, _, _, rfl⟩)
  exact fun a ha => .inr (.inr (.inr (.inl ha)))

end

end Sys2Proof.Machine
end

section
/-! What a self-test leaves alone (spec/14, R369, R372). -/

open Sys2Proof

namespace Sys2Proof.Machine

/-- The registers that a self-test may change. -/
def inTests (a : Nat) : Prop := inBlocks a ∨ 0x60000 ≤ a ∧ a < 0x70000

/-- From d to d' nothing changes but what setting blocks back may change, the registers of self-test, and its record. -/
def TestStep (d d' : Dev) : Prop := BlockStep inTests { d with bist := d'.bist } d'

namespace TestStep
variable {d d' : Dev}

theorem of_block (h : BlockStep inTests d d') : TestStep d d' := by
  obtain ⟨⟨_, _, _, _, _, _, _, _, _, _, _, _, _, _, _, _, _, _, _, _, _, rfl⟩, hr⟩ := h
  exact ⟨⟨_, _, _, _, _, _, _, _, _, _, _, _, _, _, _, _, _, _, _, _, _, rfl⟩, hr⟩

theorem of_blocks (h : BlockStep inBlocks d d') : TestStep d d' := of_block (h.mono fun _ h => .inl h)

theorem refl (d : Dev) : TestStep d d := BlockStep.refl d

theorem trans {e : Dev} (h : TestStep d d') (h' : TestStep d' e) : TestStep d e := by
  obtain ⟨⟨_, _, _, _, _, _, _, _, _, _, _, _, _, _, _, _, _, _, _, _, _, h⟩, hr⟩ := h
  obtain ⟨⟨_, _, _, _, _, _, _, _, _, _, _, _, _, _, _, _, _, _, _, _, _, h'⟩, hr'⟩ := h'
  exact ⟨⟨_, _, _, _, _, _, _, _, _, _, _, _, _, _, _, _, _, _, _, _, _, by rw [h', h]⟩, fun a ha => (hr' a ha).trans (hr a ha)⟩

theorem onBist (h : TestStep d d') {f : BistSt → BistSt} : TestStep d (d'.onBist f) := h.trans (BlockStep.refl _)

theorem setReg (h : TestStep d d') {a v : Nat} (ha : inTests a) : TestStep d (d'.setReg a v) := h.trans (of_block ((BlockStep.refl _).setReg ha))

theorem set (h : TestStep d d') {f : Fld} {v : Nat} (ha : inTests f.addr) : TestStep d (d'.set f v) := h.setReg ha

theorem onP (h : TestStep d d') {k : Nat} {f : PolSt → PolSt} : TestStep d (d'.onP k f) := h.trans (of_block (BlockStep.refl _).onP)

theorem onE (h : TestStep d d') {k : Nat} {f : EngSt → EngSt} : TestStep d (d'.onE k f) := h.trans (of_block (BlockStep.refl _).onE)

theorem onL (h : TestStep d d') {k : Nat} {f : LaneSt → LaneSt} : TestStep d (d'.onL k f) := h.trans (of_block (BlockStep.refl _).onL)

theorem foldl {α : Type} {f : Dev → α → Dev} (l : List α) (hf : ∀ x, ∀ a ∈ l, TestStep x (f x a)) (d : Dev) : TestStep d (l.foldl f d) := by
  induction l generalizing d with
  | nil => exact refl d
  | cons a l ih => exact (hf d a (.head _)).trans (ih (fun x b hb => hf x b (.tail _ hb)) _)

theorem ite {c : Prop} [Decidable c] {x y : Dev} (hx : TestStep d x) (hy : TestStep d y) : TestStep d (if c then x else y) := by
  split
  · exact hx
  · exact hy

theorem reg (h : TestStep d d') {a : Nat} (ha : ¬ inTests a) : d'.reg a = d.reg a := h.2 a ha

theorem kept (h : TestStep d d') : d'.boot = d.boot ∧ d'.host = d.host ∧ d'.up = d.up ∧ d'.thm = d.thm := by
  obtain ⟨h1, h2, -, h3, h4⟩ := BlockStep.kept h
  exact ⟨h1, h2, h3, h4⟩

end TestStep

/-- The registers of self-test. -/
theorem inTests_of {a : Nat} (h : 0x60000 ≤ a ∧ a < 0x70000) : inTests a := .inr h

theorem inTests_status {t : Nat} (ht : t < 49) : inTests (A.T_STATUS t) := .inr (by show _ ≤ 0x60100 + t * 16 ∧ 0x60100 + t * 16 < _; omega)

theorem inTests_sig {t : Nat} (ht : t < 49) : inTests (A.T_SIG_LO t) ∧ inTests (A.T_SIG_HI t) ∧ inTests (A.T_TIME t) :=
  ⟨.inr (by show _ ≤ 0x60104 + t * 16 ∧ 0x60104 + t * 16 < _; omega), .inr (by show _ ≤ 0x60108 + t * 16 ∧ 0x60108 + t * 16 < _; omega),
    .inr (by show _ ≤ 0x6010C + t * 16 ∧ 0x6010C + t * 16 < _; omega)⟩

theorem inTests_high {a : Nat} (h : 0x80000 ≤ a) : inTests a := .inl (.inr (.inr (.inr (.inr h))))

theorem inTests_mode (c : Nat) : inTests (A.CL_MODE c) := inTests_high (by show _ ≤ 0x200000 + c * 65536; omega)

theorem laneAt_high {a g : Nat} (h : laneAt a = some g) : 0x1000000 ≤ a := by
  unfold laneAt at h
  split at h
  next h1 => exact h1.1
  next => cases h

section
variable {d d' : Dev} (v : Vault)

theorem TestStep.bistBusy (h : TestStep d d') {t : Nat} {b : Bool} : TestStep d (d'.bistBusy t b) := by
  unfold Dev.bistBusy
  refine h.setReg (inTests_of ?_)
  split <;> exact ⟨by decide, by decide⟩

theorem TestStep.busyPunts (h : TestStep d d') : TestStep d d'.busyPunts := h.trans (foldl _ (fun x _ _ => (refl x).onE) _)

/-- The test of target t noted as running. -/
def Dev.testNoted (d : Dev) (t : Nat) (r : BistRun) : Dev :=
  (((((d.onBist fun b => { b with run := Tbl.set none b.run t (some r) }).set (R.T_STATUS.STATE t) 1).set (R.T_STATUS.SUBSET t) r.subset).set
    (R.T_STATUS.SCOPE t) (b2n r.lane.isSome)).set (R.T_STATUS.LANE t) (r.lane.getD 0)).bistBusy t true

/-- The target t taken out of service as a whole. -/
def Dev.targetHeld (d : Dev) (t : Nat) : Dev :=
  let d := d.onP t fun p => { p with test := true }
  let d := if 32 ≤ t ∧ t < 36 then d.busyPunts else d
  let d := if t < 32 then d.onW t fun w => { w with drive := 0, code := [], pads := none } else d
  if 36 ≤ t ∧ t < 47 then d.set (R.CL_MODE.MODE (t - 36)) 2 else d

/-- The registers kept over a test of target t, or of one lane of it. -/
def Dev.testSaved (d : Dev) (t : Nat) (lane : Option Nat) : Tbl Word :=
  match lane with
  | some l => d.regs.filter fun e => laneAt e.1 == some (8 * t + l)
  | none => if 36 ≤ t ∧ t < 47 then [(A.CL_MODE (t - 36), BitVec.ofNat 32 (d.reg (A.CL_MODE (t - 36))))] else []

theorem Dev.bistStart_eq (d : Dev) (t subset : Nat) (lane eng : Option Nat) : d.bistStart t subset lane eng =
    match lane with
    | some _ => d.testNoted t { subset := subset, lane := lane, eng := eng, start := d.up, saved := d.testSaved t lane }
    | none => (d.testNoted t { subset := subset, lane := lane, eng := eng, start := d.up, saved := d.testSaved t lane }).targetHeld t := by
  cases lane <;> rfl

theorem TestStep.testNoted (h : TestStep d d') {t : Nat} (ht : t < 49) {r : BistRun} : TestStep d (d'.testNoted t r) := by
  unfold Dev.testNoted
  exact ((((h.onBist.set (inTests_status ht)).set (inTests_status ht)).set (inTests_status ht)).set (inTests_status ht)).bistBusy

theorem TestStep.targetHeld (h : TestStep d d') {t : Nat} : TestStep d (d'.targetHeld t) := by
  have h2 : TestStep d (if 32 ≤ t ∧ t < 36 then (d'.onP t fun p => { p with test := true }).busyPunts else d'.onP t fun p => { p with test := true }) :=
    ite h.onP.busyPunts h.onP
  unfold Dev.targetHeld
  dsimp only
  generalize (if 32 ≤ t ∧ t < 36 then (d'.onP t fun p => { p with test := true }).busyPunts else d'.onP t fun p => { p with test := true }) = x at *
  have h3 : TestStep d (if t < 32 then x.onW t fun w => { w with drive := 0, code := [], pads := none } else x) :=
    ite (h2.trans (of_block (BlockStep.refl _).onW)) h2
  exact ite (h3.set (inTests_mode _)) h3

theorem TestStep.bistStart (h : TestStep d d') {t : Nat} (ht : t < 49) {subset : Nat} {lane eng : Option Nat} : TestStep d (d'.bistStart t subset lane eng) := by
  rw [Dev.bistStart_eq]
  cases lane with
  | none => exact (h.testNoted ht).targetHeld
  | some l => exact h.testNoted ht

/-- The registers kept over a test set again. -/
theorem TestStep.bistReinit (h : TestStep d d') {t : Nat} (ht : t < 49) {r : BistRun} : TestStep d (d'.bistReinit v t r) := by
  unfold Dev.bistReinit
  cases r.lane with
  | some l =>
    dsimp only
    have h1 : TestStep d (d'.clearRegs fun a => laneAt a == some (8 * t + l)) := h.trans (of_block ((BlockStep.refl _).clearRegs fun a ha =>
      inTests_high (Nat.le_trans (by decide) (laneAt_high (beq_iff_eq.1 ha)))))
    have h2 := h1.trans (foldl (f := fun d e => match RegMap.find e.1 with | some row => d.setReg e.1 (row.rwOnly e.2.toNat) | none => d)
      (r.saved.filter fun e => laneAt e.1 == some (8 * t + l)) (fun x e he => by
        have ha := laneAt_high (beq_iff_eq.1 (List.mem_filter.1 he).2)
        split
        · exact (refl x).setReg (inTests_high (Nat.le_trans (by decide) ha))
        · exact refl x) _)
    exact h2.onL.trans (of_block (BlockStep.of_reset ((ResetStep.refl _).fusedSpare v _) fun a ha => inTests_high (Nat.le_trans (by decide) ha)))
  | none =>
    dsimp only
    split
    · exact h
    · have h1 : TestStep d (d'.resetBlocks v t) := h.trans (of_blocks (BlockStep.resetBlocks _ v (by omega)))
      refine h1.trans (foldl _ (fun x e he => ?_) _)
      rw [beq_iff_eq.1 (List.mem_filter.1 he).2]
      exact (refl x).setReg (inTests_mode _)

theorem TestStep.bistEnd (h : TestStep d d') {t : Nat} (ht : t < 49) {r : BistRun} {state : Nat} : TestStep d (d'.bistEnd v t r state) := by
  have h1 := h.bistReinit v ht (r := r)
  unfold Dev.bistEnd
  generalize d'.bistReinit v t r = x at *
  have h2 := h1.onP (k := t) (f := fun p => { p with test := false }) |>.onBist (f := fun b => { b with run := Tbl.set none b.run t none })
  dsimp only
  generalize (x.onP t fun p => { p with test := false }).onBist (fun b => { b with run := Tbl.set none b.run t none }) = y at *
  have h3 := (h2.bistBusy (t := t) (b := false) |>.set (f := R.T_STATUS.STATE t) (v := state) (inTests_status ht)).setReg
    (v := min (2 ^ 32 - 1) ((y.up - r.start) / 2000)) (inTests_sig ht).2.2
  split
  · exact h3
  · exact h3.onE

theorem TestStep.softRepair (h : TestStep d d') {t : Nat} (ht : t < 49) {x : BistResult} : TestStep d (d'.softRepair t x).1 := by
  have h1 := h.onBist (f := fun b => { b with soft := b.soft ++ List.replicate (min x.repaired (512 - d'.bist.soft.length)) (t, false) })
  unfold Dev.softRepair
  dsimp only
  generalize d'.onBist (fun b => { b with soft := b.soft ++ List.replicate (min x.repaired (512 - d'.bist.soft.length)) (t, false) }) = y at *
  exact ((h1.set (inTests_of ⟨by decide, by decide⟩)).set (inTests_status ht)).set (inTests_status ht)

theorem TestStep.laneResult (h : TestStep d d') {g : Nat} (hg : g < 256) {alone : Bool} {fail res : Nat} : TestStep d (d'.laneResult v g alone fail res).1 := by
  have ha : ∀ i, i < 16 → inTests (0x61000 + g * 16 + i) := fun i hi => inTests_of (by omega)
  unfold Dev.laneResult
  exact ((h.setReg (a := A.SLICE_FAIL_LO g) (ha 0 (by decide))).setReg (a := A.SLICE_FAIL_HI g) (by
    have := ha 4 (by decide)
    rwa [Nat.add_right_comm] at this)).setReg (a := A.SLICE_RES g) (by
    have := ha 8 (by decide)
    rwa [Nat.add_right_comm] at this)

/-- The results of lane l of octet t. -/
def Dev.laneShown (d : Dev) (t : Nat) (alone : Bool) (x : BistResult) (l : Nat) : Dev × Bool :=
  d.laneResult v (8 * t + l) alone (x.lanes.getD l (0, 0)).1.toNat (x.lanes.getD l (0, 0)).2.toNat

/-- The results of the lanes ls of octet t, with those before them. -/
def lanesShown (t : Nat) (x : BistResult) (ls : List Nat) (p : Dev × Bool) : Dev × Bool :=
  ls.foldl (fun p l => ((p.1.laneShown v t false x l).1, p.2 && (p.1.laneShown v t false x l).2)) p

theorem Dev.analogResult_none {t : Nat} (ht : t < 32) {r : BistRun} (hr : r.lane = none) (x : BistResult) :
    d.analogResult v t r x = lanesShown v t x (List.range 8) (d, true) := by
  rw [Dev.analogResult, if_neg (by omega), hr]
  rfl

theorem TestStep.lanesShown {t : Nat} (ht : t < 32) {x : BistResult} (ls : List Nat) (hl : ∀ l ∈ ls, l < 8) {p : Dev × Bool} (h : TestStep d p.1) :
    TestStep d (Machine.lanesShown v t x ls p).1 := by
  unfold Machine.lanesShown
  induction ls generalizing p with
  | nil => exact h
  | cons l ls ih =>
    refine ih (fun k hk => hl k (.tail _ hk)) (p := ((p.1.laneShown v t false x l).1, _)) ?_
    have := hl l (.head _)
    exact h.laneResult v (by omega)

theorem Dev.bist_testNoted (t : Nat) (r : BistRun) : (d.testNoted t r).bist = { d.bist with run := Tbl.set none d.bist.run t (some r) } := by
  unfold Dev.testNoted Dev.bistBusy
  rw [Dev.bist_setReg, Dev.bist_set, Dev.bist_set, Dev.bist_set, Dev.bist_set]
  rfl

theorem Dev.bist_targetHeld (t : Nat) : (d.targetHeld t).bist = d.bist := by
  have hp : ∀ x : Dev, x.busyPunts.bist = x.bist := fun x => by
    unfold Dev.busyPunts
    generalize List.range 96 = l
    exact foldl_keeps (fun y : Dev => y.bist) (fun y e => Dev.bist_onE ..) l x
  unfold Dev.targetHeld
  dsimp only
  rw [apply_ite Dev.bist, apply_ite Dev.bist, apply_ite Dev.bist, Dev.bist_set, apply_ite Dev.bist, apply_ite Dev.bist, Dev.bist_onW, apply_ite Dev.bist,
    hp, Dev.bist_onP]
  simp only [ite_self]

/-- The test that has started. -/
theorem Dev.testRun_bistStart (t subset : Nat) (lane eng : Option Nat) : (d.bistStart t subset lane eng).testRun t =
    some { subset := subset, lane := lane, eng := eng, start := d.up, saved := d.testSaved t lane } := by
  rw [Dev.testRun, Dev.bistStart_eq]
  cases lane with
  | none => rw [Dev.bist_targetHeld, Dev.bist_testNoted, Tbl.get_set_same]
  | some l => rw [Dev.bist_testNoted, Tbl.get_set_same]

/-- A test the ROM runs (R378). -/
theorem TestStep.bistBoot (h : TestStep d d') {t subset : Nat} (ht : t < 49) {x : BistResult} : TestStep d (d'.bistBoot v t subset x) := by
  unfold Dev.bistBoot
  split
  swap
  · exact h
  have h1 := h.bistStart (subset := subset) (lane := none) (eng := none) ht
  have hrun : ∀ r, (d'.bistStart t subset none none).testRun t = some r → r.lane = none := fun r hr => by
    rw [Dev.testRun_bistStart] at hr
    cases hr
    rfl
  generalize d'.bistStart t subset none none = y at *
  unfold Dev.bistTestEnd
  cases hr : y.testRun t with
  | none => exact h1
  | some r =>
    dsimp only
    refine TestStep.bistEnd v ?_ ht
    split
    · exact h1.softRepair ht
    · by_cases h32 : t < 32
      · rw [Dev.analogResult_none v h32 (hrun r hr)]
        exact TestStep.lanesShown v h32 _ (fun l hl => List.mem_range.1 hl) h1
      · rw [Dev.analogResult, if_pos (by omega)]
        exact h1
    · exact (h1.setReg (inTests_sig ht).1).setReg (inTests_sig ht).2.1

end

end Sys2Proof.Machine
end

section
/-! The boot ROM (spec/15, R402 to R404). -/

open Sys2Proof

namespace Sys2Proof.Machine

/-! Engines set running (R188, R212). -/

/-- The engines of l start, each at what g says of it. -/
def Dev.startAt (d : Dev) (g : EngSt → Nat) (l : List Nat) : Dev := l.foldl (fun d k => (d.onE k fun x => x.setPc (g x)).runEngine k) d

section
variable (d : Dev) (g : EngSt → Nat)

theorem Dev.startAt_frame (l : List Nat) : ∃ eng, d.startAt g l = { d with eng } := by
  unfold Dev.startAt
  induction l generalizing d with
  | nil => exact ⟨_, rfl⟩
  | cons k l ih =>
    obtain ⟨eng, h⟩ := ih ((d.onE k fun x => x.setPc (g x)).runEngine k)
    exact ⟨eng, h⟩

theorem Dev.e_startAt_out {l : List Nat} {j : Nat} (h : j ∉ l) : (d.startAt g l).e j = d.e j := by
  unfold Dev.startAt
  induction l generalizing d with
  | nil => rfl
  | cons k l ih =>
    rw [List.mem_cons, not_or] at h
    rw [List.foldl_cons, ih _ h.2, Dev.runEngine, Dev.e_onE_ne _ _ (Ne.symm h.1), Dev.e_onE_ne _ _ (Ne.symm h.1)]

/-- An engine that starts. -/
theorem Dev.e_startAt {l : List Nat} (hl : l.Nodup) {j : Nat} (h : j ∈ l) :
    ∃ i, (d.startAt g l).e j = { (d.e j).setPc (g (d.e j)) with st := .running, ready := i, wdogStart := i, wdogMissed := false } := by
  induction l generalizing d with
  | nil => cases h
  | cons k l ih =>
    obtain ⟨hk, hl⟩ := List.nodup_cons.1 hl
    rcases List.mem_cons.1 h with rfl | hm
    · refine ⟨(d.onE j fun x => x.setPc (g x)).issueAt j, ?_⟩
      have hout := ((d.onE j fun x => x.setPc (g x)).runEngine j).e_startAt_out g hk
      exact hout.trans ((Dev.e_onE_same _ _ _).trans (by rw [Dev.e_onE_same]))
    · have hne : k ≠ j := fun h => hk (h ▸ hm)
      obtain ⟨i, hi⟩ := ih ((d.onE k fun x => x.setPc (g x)).runEngine k) hl hm
      have he : ((d.onE k fun x => x.setPc (g x)).runEngine k).e j = d.e j := (Dev.e_onE_ne _ _ hne).trans (Dev.e_onE_ne _ _ hne)
      rw [he] at hi
      exact ⟨i, hi⟩

end

/-! What the ROM's steps keep. -/

/-- From d to d' the records of start-up and of the host, BOOT_ERR and STEP are kept. -/
def RomKept (d d' : Dev) : Prop := d'.boot = d.boot ∧ d'.host = d.host ∧ d'.reg A.BOOT_ERR = d.reg A.BOOT_ERR ∧
  d'.get R.BOOT_STATUS.STEP = d.get R.BOOT_STATUS.STEP

namespace RomKept
variable {d d' : Dev}

theorem refl (d : Dev) : RomKept d d := ⟨rfl, rfl, rfl, rfl⟩

theorem trans {e : Dev} (h : RomKept d d') (h' : RomKept d' e) : RomKept d e := by
  obtain ⟨h1, h2, h3, h4⟩ := h
  obtain ⟨g1, g2, g3, g4⟩ := h'
  exact ⟨g1.trans h1, g2.trans h2, g3.trans h3, g4.trans h4⟩

theorem of_test (h : TestStep d d') : RomKept d d' := by
  obtain ⟨h1, h2, -, -⟩ := h.kept
  have hn : ∀ a, a < 0x108 → 0x80 ≤ a → ¬ inTests a := fun a h1 h2 h => by
    rcases h with (h | h | h | h | h) | h
    · omega
    · exact absurd h1 (by rw [h]; decide)
    · exact absurd h1 (by rw [h]; decide)
    · omega
    · omega
    · omega
  exact ⟨h1, h2, h.reg (hn _ (by decide) (by decide)), Dev.get_congr (f := R.BOOT_STATUS.STEP) (h.reg (hn _ (by decide) (by decide)))⟩

theorem of_image (h : ImageStep d d') : RomKept d d' := by
  have hr := fun a ha => h.reg (a := a) ha
  obtain ⟨⟨⟨_, _, _, _, _, _, _, _, _, hf⟩, -⟩, -⟩ := h
  exact ⟨by rw [hf], by rw [hf], hr _ (.inl ⟨by decide, by decide⟩), Dev.get_congr (f := R.BOOT_STATUS.STEP) (hr _ (.inl ⟨by decide, by decide⟩))⟩

theorem onSec (d : Dev) (f : SecSt → SecSt) : RomKept d (d.onSec f) := ⟨Dev.boot_onSec .., Dev.host_onSec .., Dev.reg_onSec .., Dev.get_congr (Dev.reg_onSec ..)⟩

theorem of_eng (d : Dev) (eng : Tbl EngSt) : RomKept d { d with eng } := ⟨rfl, rfl, rfl, Dev.get_congr rfl⟩

theorem of_regs {l : List Nat} (h : RegsOnly d d' l) (h1 : A.BOOT_ERR ∉ l) (h2 : A.BOOT_STATUS ∉ l) : RomKept d d' := by
  obtain ⟨hf, hr⟩ := h
  exact ⟨by rw [hf], by rw [hf], hr _ h1, Dev.get_congr (f := R.BOOT_STATUS.STEP) (hr _ h2)⟩

theorem foldl {α : Type} {f : Dev → α → Dev} (l : List α) (hf : ∀ x, ∀ a ∈ l, RomKept x (f x a)) (d : Dev) : RomKept d (l.foldl f d) := by
  induction l generalizing d with
  | nil => exact refl d
  | cons a l ih => exact (hf d a (.head _)).trans (ih (fun x b hb => hf x b (.tail _ hb)) _)

end RomKept

/-! One entry tried (R349, R403). -/

section
variable (d : Dev) (v : Vault) (fl : List (Nat × List Byte)) (ofs : Nat)

/-- The header of the image at an offset. -/
def romHead : ImgHead := imgHead (flashBytes fl ofs 128)

/-- The verdict on the image at an offset. -/
def romVerdict : Nat ⊕ List Byte :=
  v.verify (flashBytes fl ofs 128) (flashBytes fl (ofs + 128) (if (romHead fl ofs).fits 11 then (romHead fl ofs).body else 0))
    (flashBytes fl (ofs + 128 + (if (romHead fl ofs).fits 11 then (romHead fl ofs).body else 0)) 256) 11

/-- The part with the image refused. -/
def Dev.romRefused (x : Nat) : Dev := (d.wipeImage 11 255).verifyLast (romHead fl ofs).key 11 (some x)

/-- The part with the image put into the stores of the wardens. -/
def Dev.romPlaced (p : List Byte) : Dev :=
  ((d.placeImage (romHead fl ofs) 11 255 (p.map (·, false))).verifyLast (romHead fl ofs).key 11 none).onSec fun s => { s with rollImg := (romHead fl ofs).rollback }

theorem tryEntry_eq : tryEntry d v fl ofs = match romVerdict v fl ofs with
    | .inl x => (d.romRefused fl ofs x, some x)
    | .inr p => (d.romPlaced fl ofs p, none) := rfl

/-- A verdict that accepts rests on a header that fits. -/
theorem fits_of_verify {v : Vault} {head body sig p : List Byte} {c : Nat} (h : v.verify head body sig c = .inr p) : (imgHead head).fits c = true := by
  by_contra hf
  rw [Bool.not_eq_true] at hf
  have he : v.earlyCheck (imgHead head) c sig = some 1 := by rw [Vault.earlyCheck, hf]; rfl
  unfold Vault.verify at h
  simp only [he] at h
  cases h

theorem ImgHead.fits_sizes {h : ImgHead} {c : Nat} (hf : h.fits c = true) : h.text ≤ 65536 ∧ h.data ≤ 196608 ∧ h.shared ≤ 4194304 ∧
    h.ofs + h.shared ≤ 4194304 := by
  simp only [ImgHead.fits, Bool.and_eq_true, decide_eq_true_eq] at hf
  obtain ⟨⟨⟨⟨-, h1⟩, h2⟩, h3⟩, h4⟩ := hf
  exact ⟨h1, h2, h3, h4⟩

theorem RomKept.romRefused (x : Nat) : RomKept d (d.romRefused fl ofs x) :=
  (of_image (d.wipeImage_spec 11 255).1).trans (of_regs (Dev.verifyLast_regs _ 11 (romHead fl ofs).key (some x)) (by decide) (by decide))

theorem RomKept.romPlaced {p : List Byte} (ht : (romHead fl ofs).text ≤ 65536) (hd : (romHead fl ofs).data ≤ 196608) : RomKept d (d.romPlaced fl ofs p) := by
  have h := (of_image (d.placeImage_spec (romHead fl ofs) 11 (p.map (·, false)) ht hd 255 (by decide)).1).trans
    (of_regs (Dev.verifyLast_regs _ 11 (romHead fl ofs).key none) (by decide) (by decide))
  unfold Dev.romPlaced
  generalize (d.placeImage (romHead fl ofs) 11 255 (p.map (·, false))).verifyLast (romHead fl ofs).key 11 none = y at *
  exact h.trans (onSec y _)

/-- The wardens set running on the image of entry i of directory copy. -/
def Dev.wardensStart (copy i : Nat) : Dev :=
  ((d.set R.BOOT_STATUS.DIR copy).set R.BOOT_STATUS.ENTRY i).startAt (fun x => (x.image.getD 0).toNat) ((List.range 8).map (88 + ·))

theorem Dev.startAt_range (g : EngSt → Nat) : (List.range 8).foldl (fun d k => (d.onE (88 + k) fun x => x.setPc (g x)).runEngine (88 + k)) d =
    d.startAt g ((List.range 8).map (88 + ·)) := by
  rw [Dev.startAt, List.foldl_map]

/-- The definition's equation for an entry, with the wardens' start written as the model has it. -/
theorem tryEntries_entry (copy i : Nat) (t : List (Nat × Nat × Nat)) (n : Nat) : tryEntries d v fl ((copy, i, ofs) :: t) n =
    match tryEntry d v fl ofs with
    | (d, some x) => tryEntries d v fl t x
    | (d, none) =>
      let d := (d.set R.BOOT_STATUS.DIR copy).set R.BOOT_STATUS.ENTRY i
      ((List.range 8).foldl (fun d k => (d.onE (88 + k) fun x => x.setPc (x.image.getD 0).toNat).runEngine (88 + k)) d, none) := by
  delta tryEntries
  rfl

theorem tryEntries_step (copy i : Nat) (t : List (Nat × Nat × Nat)) (n : Nat) : tryEntries d v fl ((copy, i, ofs) :: t) n =
    match tryEntry d v fl ofs with
    | (d, some x) => tryEntries d v fl t x
    | (d, none) => (d.wardensStart copy i, none) := by
  rw [tryEntries_entry]
  generalize tryEntry d v fl ofs = z
  obtain ⟨y, o⟩ := z
  cases o with
  | some x => rfl
  | none =>
    dsimp only
    rw [Dev.startAt_range, Dev.wardensStart]

theorem tryEntries_cons (copy i : Nat) (t : List (Nat × Nat × Nat)) (n : Nat) : tryEntries d v fl ((copy, i, ofs) :: t) n =
    match romVerdict v fl ofs with
    | .inl x => tryEntries (d.romRefused fl ofs x) v fl t x
    | .inr p => ((d.romPlaced fl ofs p).wardensStart copy i, none) := by
  rw [tryEntries_step, tryEntry_eq]
  cases romVerdict v fl ofs with
  | inl x => rfl
  | inr p => rfl

theorem RomKept.wardensStart (copy i : Nat) : RomKept d (d.wardensStart copy i) := by
  have h1 : RomKept d ((d.set R.BOOT_STATUS.DIR copy).set R.BOOT_STATUS.ENTRY i) := by
    refine ⟨by rw [Dev.boot_set, Dev.boot_set], by rw [Dev.host_set, Dev.host_set], ?_, ?_⟩
    · rw [Dev.reg_set_ne _ R.BOOT_STATUS.ENTRY _ (by decide), Dev.reg_set_ne _ R.BOOT_STATUS.DIR _ (by decide)]
    · rw [Dev.get_set_apart _ (f := R.BOOT_STATUS.ENTRY) (g := R.BOOT_STATUS.STEP) _ (Fld.ok_of_ble rfl) (.inr (by decide)),
        Dev.get_set_apart _ (f := R.BOOT_STATUS.DIR) (g := R.BOOT_STATUS.STEP) _ (Fld.ok_of_ble rfl) (.inr (by decide))]
  unfold Dev.wardensStart
  generalize (d.set R.BOOT_STATUS.DIR copy).set R.BOOT_STATUS.ENTRY i = y at *
  obtain ⟨eng, he⟩ := y.startAt_frame (fun x => (x.image.getD 0).toNat) ((List.range 8).map (88 + ·))
  rw [he]
  exact h1.trans (of_eng y eng)

theorem RomKept.tryEntries (l : List (Nat × Nat × Nat)) (n : Nat) : RomKept d (Machine.tryEntries d v fl l n).1 := by
  induction l generalizing d n with
  | nil => exact refl d
  | cons e t ih =>
    obtain ⟨copy, i, ofs⟩ := e
    rw [tryEntries_cons]
    cases hv : romVerdict v fl ofs with
    | inl x => exact (RomKept.romRefused d fl ofs x).trans (ih _ _)
    | inr p =>
      obtain ⟨ht, hd, -, -⟩ := ImgHead.fits_sizes (fits_of_verify hv)
      exact (RomKept.romPlaced d fl ofs ht hd).trans (RomKept.wardensStart _ _ _)

end

/-! The ROM's run (R404). -/

section
variable (d : Dev)

theorem Dev.bootHalt_spec {cause : Nat} (hc : cause < 8) (det : Nat) : (d.bootHalt cause det).on R.BOOT_ERR.HALTED = true ∧
    (d.bootHalt cause det).get R.BOOT_ERR.CAUSE = cause ∧ (d.bootHalt cause det).get R.BOOT_ERR.DETAIL = det % 16 ∧
    RegsOnly d (d.bootHalt cause det) [A.BOOT_ERR] := by
  unfold Dev.bootHalt
  refine ⟨?_, ?_, ?_, ?_⟩
  · rw [Dev.on_set_apart _ R.BOOT_ERR.DETAIL R.BOOT_ERR.HALTED _ (Fld.ok_of_ble rfl) (.inr (by decide)),
      Dev.on_set_apart _ R.BOOT_ERR.CAUSE R.BOOT_ERR.HALTED _ (Fld.ok_of_ble rfl) (.inr (by decide)), Dev.on_set_same _ _ _ (Fld.ok_of_ble rfl)]
    rfl
  · rw [Dev.get_set_apart _ (f := R.BOOT_ERR.DETAIL) (g := R.BOOT_ERR.CAUSE) _ (Fld.ok_of_ble rfl) (.inr (by decide)),
      Dev.get_set_same _ _ _ (Fld.ok_of_ble rfl)]
    exact Nat.mod_eq_of_lt hc
  · rw [Dev.get_set_same _ _ _ (Fld.ok_of_ble rfl)]
    rfl
  · exact (((RegsOnly.refl d _).set 0 rfl).set 0 rfl).set 0 rfl

/-- The ROM's first three steps. -/
def Dev.romBegun : Dev := ({ d with boot := { d.boot with romDone := true } }.set R.BOOT_STATUS.STEP 3).onHost fun h => { h with ready := true }

theorem Dev.romBegun_spec : d.romBegun.boot.romDone = true ∧ d.romBegun.host = { d.host with ready := true } ∧ d.romBegun.eng = d.eng ∧
    d.romBegun.get R.BOOT_STATUS.STEP = 3 ∧ d.romBegun.reg A.BOOT_ERR = d.reg A.BOOT_ERR := by
  refine ⟨?_, ?_, ?_, ?_, ?_⟩
  · rw [Dev.romBegun, Dev.boot_onHost, Dev.boot_set]
  · rw [Dev.romBegun, Dev.onHost, Dev.host_set]
  · rw [Dev.romBegun, Dev.eng_onHost, Dev.eng_set]
  · rw [Dev.romBegun, Dev.get_onHost_eq, Dev.get_set_same _ _ _ (Fld.ok_of_ble rfl)]
    rfl
  · rw [Dev.romBegun, Dev.reg_onHost, Dev.reg_set_ne _ R.BOOT_STATUS.STEP _ (by decide)]
    rfl

/-- The part with the directory copy noted. -/
def Dev.romDir (copy : Nat) (dir : List Byte) : Dev := (d.set R.BOOT_STATUS.DIR copy).onHost fun h => { h with subsys := blk dir 8 4 }

theorem bootRom_eq {d : Dev} (h1 : d.boot.romDone = false) (h2 : d.thm.tripped = false) (v : Vault) (fl : Flash) (res : List (Fin 49 × Fin 4 × BistResult)) :
    bootRom d v fl res = if v.life = 5 then (d.romBegun.bootHalt 4, v.destroy) else if !fl.responds then (d.romBegun.bootHalt 3, v.destroy) else
      match dirOrder (flashBytes fl.runs 0 256) (flashBytes fl.runs 0x10000 256) with
      | [] => ((d.romBegun.flag R.BOOT_STATUS.SFDP fl.sfdp).bootHalt 1, v.destroy)
      | (copy, dir) :: t => (bootImage ((d.romBegun.flag R.BOOT_STATUS.SFDP fl.sfdp).romDir copy dir) v.destroy fl.runs res ((copy, dir) :: t), v.destroy) := by
  have hlife : v.destroy.life = v.life := by
    unfold Vault.destroy
    split <;> rfl
  rw [bootRom, if_neg (by rw [h1, h2]; simp)]
  dsimp only
  rw [hlife]
  rfl

end

end Sys2Proof.Machine
end

section
/-! The obligation on start-up (spec/15, R401 to R404; spec/16, R409, R418). -/

open Sys2Proof

namespace Sys2Proof.Machine

/-! Self-test and the image (R404, steps 4 and 5). -/

section
variable (d : Dev) (v : Vault) (fl : List (Nat × List Byte)) (res : List (Fin 49 × Fin 4 × BistResult)) (dirs : List (Nat × List Byte))

/-- The tests of the ROM run. -/
def Dev.romTested (l : List Nat) : Dev := l.foldl (fun d s => (List.range 49).foldl (fun d t => d.bistBoot v t s (bootResult res t s)) d) d

/-- The part as step 5 begins. -/
def Dev.romStep5 : Dev := ((d.set R.BOOT_STATUS.STEP 4).romTested v res (bootSubsets v)).set R.BOOT_STATUS.STEP 5

/-- The entries of the directories, in the order they are tried. -/
def romEntries : List (Nat × Nat × Nat) := dirs.flatMap fun e => (bootEntries e.2).map fun x => (e.1, x.1, x.2)

theorem bootImage_eq : bootImage d v fl res dirs = match tryEntries (d.romStep5 v res) v fl (romEntries dirs) 0 with
    | (d, none) => d
    | (d, some det) => d.bootHalt 2 det := rfl

theorem RomKept.romTested (l : List Nat) : RomKept d (d.romTested v res l) :=
  foldl _ (fun x _ _ => of_test (TestStep.foldl (List.range 49) (fun y _ ht => (TestStep.refl y).bistBoot v (List.mem_range.1 ht)) x)) d

theorem Dev.step_spec (n : Nat) : (d.set R.BOOT_STATUS.STEP n).boot = d.boot ∧ (d.set R.BOOT_STATUS.STEP n).host = d.host ∧
    (d.set R.BOOT_STATUS.STEP n).reg A.BOOT_ERR = d.reg A.BOOT_ERR ∧ (d.set R.BOOT_STATUS.STEP n).get R.BOOT_STATUS.STEP = n % 16 := by
  refine ⟨Dev.boot_set .., Dev.host_set .., Dev.reg_set_ne _ R.BOOT_STATUS.STEP _ (by decide), ?_⟩
  rw [Dev.get_set_same _ _ _ (Fld.ok_of_ble rfl)]
  rfl

theorem Dev.romStep5_spec : (d.romStep5 v res).boot = d.boot ∧ (d.romStep5 v res).host = d.host ∧ (d.romStep5 v res).reg A.BOOT_ERR = d.reg A.BOOT_ERR ∧
    (d.romStep5 v res).get R.BOOT_STATUS.STEP = 5 := by
  obtain ⟨h1, h2, h3, -⟩ := d.step_spec 4
  unfold Dev.romStep5
  generalize d.set R.BOOT_STATUS.STEP 4 = y at *
  obtain ⟨g1, g2, g3, -⟩ := RomKept.romTested y v res (bootSubsets v)
  generalize y.romTested v res (bootSubsets v) = z at *
  obtain ⟨k1, k2, k3, k4⟩ := z.step_spec 5
  exact ⟨k1.trans (g1.trans h1), k2.trans (g2.trans h2), k3.trans (g3.trans h3), k4⟩

/-- What the ROM's last two steps leave. -/
theorem bootImage_spec : (bootImage d v fl res dirs).boot = d.boot ∧ (bootImage d v fl res dirs).host = d.host ∧
    (bootImage d v fl res dirs).get R.BOOT_STATUS.STEP = 5 := by
  obtain ⟨h1, h2, -, h4⟩ := d.romStep5_spec v res
  rw [bootImage_eq]
  generalize d.romStep5 v res = y at *
  obtain ⟨g1, g2, -, g4⟩ := RomKept.tryEntries y v fl (romEntries dirs) 0
  generalize tryEntries y v fl (romEntries dirs) 0 = z at *
  obtain ⟨z, o⟩ := z
  cases o with
  | none => exact ⟨g1.trans h1, g2.trans h2, g4.trans h4⟩
  | some det =>
    obtain ⟨-, -, -, hf, hr⟩ := z.bootHalt_spec (cause := 2) (by decide) det
    dsimp only at *
    refine ⟨by rw [hf]; exact g1.trans h1, by rw [hf]; exact g2.trans h2, ?_⟩
    rw [Dev.get_congr (f := R.BOOT_STATUS.STEP) (hr _ (by decide))]
    exact g4.trans h4

end

section
variable (d : Dev)

/-- A halt right after the first steps. -/
theorem Dev.romBegun_halt {cause : Nat} (hc : cause < 8) {y : Dev} (hy : RegsOnly d.romBegun y [A.BOOT_STATUS]) :
    (y.bootHalt cause).on R.BOOT_ERR.HALTED = true ∧ (y.bootHalt cause).get R.BOOT_ERR.CAUSE = cause ∧ (y.bootHalt cause).boot.romDone = true ∧
    (y.bootHalt cause).host.ready = true ∧ (y.bootHalt cause).eng = d.eng ∧
    (y.bootHalt cause).get R.BOOT_STATUS.STEP = y.get R.BOOT_STATUS.STEP := by
  obtain ⟨h1, h2, h3, -, -⟩ := d.romBegun_spec
  obtain ⟨hf, -⟩ := hy
  obtain ⟨g1, g2, -, gf, gr⟩ := y.bootHalt_spec hc 0
  refine ⟨g1, g2, ?_, ?_, ?_, Dev.get_congr (f := R.BOOT_STATUS.STEP) (gr _ (by decide))⟩
  · rw [gf, hf]
    exact h1
  · rw [gf, hf]
    show d.romBegun.host.ready = true
    rw [h2]
  · rw [gf, hf]
    exact h3

/-- The part with SFDP shown. -/
def Dev.romSfdp (b : Bool) : Dev := d.romBegun.flag R.BOOT_STATUS.SFDP b

theorem Dev.romSfdp_spec (b : Bool) : RegsOnly d.romBegun (d.romSfdp b) [A.BOOT_STATUS] ∧ (d.romSfdp b).get R.BOOT_STATUS.STEP = 3 ∧
    (d.romSfdp b).on R.BOOT_STATUS.SFDP = b := by
  obtain ⟨-, -, -, h4, -⟩ := d.romBegun_spec
  unfold Dev.romSfdp
  generalize d.romBegun = y at *
  refine ⟨(RegsOnly.refl _ _).flag 0 rfl, ?_, ?_⟩
  · rw [Dev.flag, Dev.get_set_apart _ (f := R.BOOT_STATUS.SFDP) (g := R.BOOT_STATUS.STEP) _ (Fld.ok_of_ble rfl) (.inr (by decide))]
    exact h4
  · rw [Dev.flag, Dev.on_set_same _ _ _ (Fld.ok_of_ble rfl)]
    cases b <;> rfl

theorem dirOrder_none {a b : List Byte} (h1 : dirValid a = false) (h2 : dirValid b = false) : dirOrder a b = [] := by
  rw [dirOrder, h1, h2]

theorem dirOrder_first {a b : List Byte} (h1 : dirValid a = true) (h2 : dirValid b = false) : dirOrder a b = [(0, a)] := by
  rw [dirOrder, h1, h2]

theorem dirValid_iff (l : List (Nat × List Byte)) (a : Nat) : dirValid (flashBytes l a 256) = true ↔
    blk (flashBytes l a 256) 0 4 = 0x43440001 ∧ blk (flashBytes l a 256) 252 4 = fcsOf (flashBytes l a 252) := by
  have ht : (flashBytes l a 256).take 252 = flashBytes l a 252 := by
    rw [flashBytes, ← List.map_take, List.take_range, flashBytes]
    rfl
  rw [dirValid, Bool.and_eq_true, beq_iff_eq, beq_iff_eq, ht]

end

section
variable {d : Dev} {v : Vault} {fl : Flash} {res : List (Fin 49 × Fin 4 × BistResult)} (hrom : d.boot.romDone = false) (htrip : d.thm.tripped = false)
include hrom htrip

/-- R404: every run of the ROM. -/
theorem bootRom_runs : (bootRom d v fl res).1.boot.romDone = true ∧ (bootRom d v fl res).1.host.ready = true ∧
    3 ≤ (bootRom d v fl res).1.get R.BOOT_STATUS.STEP ∧
    ((bootRom d v fl res).1.on R.BOOT_ERR.HALTED = false → (bootRom d v fl res).1.get R.BOOT_STATUS.STEP = 5) := by
  have hhalt : ∀ {cause : Nat} (_ : cause < 8) {y : Dev} (_ : RegsOnly d.romBegun y [A.BOOT_STATUS]) (_ : y.get R.BOOT_STATUS.STEP = 3) (u : Dev) (_ : u = y.bootHalt cause),
      u.boot.romDone = true ∧ u.host.ready = true ∧ 3 ≤ u.get R.BOOT_STATUS.STEP ∧ (u.on R.BOOT_ERR.HALTED = false → u.get R.BOOT_STATUS.STEP = 5) := by
    rintro cause hc y hy h3 u rfl
    obtain ⟨h1, -, g1, g2, -, g3⟩ := d.romBegun_halt hc hy
    exact ⟨g1, g2, by rw [g3, h3], fun h => by rw [h1] at h; cases h⟩
  rw [bootRom_eq hrom htrip]
  split
  · obtain ⟨-, -, -, h4, -⟩ := d.romBegun_spec
    exact hhalt (cause := 4) (by decide) (RegsOnly.refl _ _) h4 _ rfl
  split
  · obtain ⟨-, -, -, h4, -⟩ := d.romBegun_spec
    exact hhalt (cause := 3) (by decide) (RegsOnly.refl _ _) h4 _ rfl
  obtain ⟨hs1, hs2, -⟩ := d.romSfdp_spec fl.sfdp
  split
  · exact hhalt (cause := 1) (by decide) hs1 hs2 _ rfl
  next copy dir t _ =>
    obtain ⟨g1, g2, g3⟩ := bootImage_spec ((d.romSfdp fl.sfdp).romDir copy dir) v.destroy fl.runs res ((copy, dir) :: t)
    obtain ⟨h1, h2, -⟩ := d.romBegun_spec
    have hb : ((d.romSfdp fl.sfdp).romDir copy dir).boot.romDone = true ∧ ((d.romSfdp fl.sfdp).romDir copy dir).host.ready = true := by
      obtain ⟨hf, -⟩ := hs1
      generalize d.romSfdp fl.sfdp = y at *
      rw [Dev.romDir]
      refine ⟨by rw [Dev.boot_onHost, Dev.boot_set, hf]; exact h1, ?_⟩
      rw [Dev.onHost, Dev.host_set, hf]
      show d.romBegun.host.ready = true
      rw [h2]
    refine ⟨?_, ?_, ?_, fun _ => g3⟩
    · exact (congrArg BootSt.romDone g1).trans hb.1
    · exact (congrArg HostSt.ready g2).trans hb.2
    · show 3 ≤ (bootImage ((d.romSfdp fl.sfdp).romDir copy dir) v.destroy fl.runs res ((copy, dir) :: t)).get R.BOOT_STATUS.STEP
      rw [g3]
      decide

end

end Sys2Proof.Machine
end

section
/-! The ROM with one image, and the commands beside it (spec/15, R401 to R404; spec/16, R409, R418). -/

open Sys2Proof

namespace Sys2Proof.Machine

/-! The wardens' image. -/

section
variable (d : Dev)

theorem Vault.destroy_owned {v : Vault} (h : v.life = 2) : v.destroy = v := by
  rw [Vault.destroy, if_neg]
  rintro ⟨h1, -⟩
  omega

theorem bootSubsets_none {v : Vault} (h : v.life = 2) (hp : getBits v.pol 3 1 = 0) : bootSubsets v = [] := by
  rw [bootSubsets, h]
  show [[], [0], [0, 1], [3, 0, 1, 2]].getD (getBits v.pol 3 1) [] = []
  rw [hp]
  rfl

theorem romEntries_one {dir : List Byte} (h1 : blk dir 12 4 = 1) (h2 : bit (blk dir 25 1) 0 = true) : romEntries [(0, dir)] = [(0, 0, blk dir 16 4)] := by
  have hb : bootEntries dir = [(0, blk dir 16 4)] := by
    rw [bootEntries, h1, show List.range (clampN 1 14 1) = [0] from rfl, List.filter_cons_of_pos (p := fun i => bit (blk dir (16 + 16 * i + 9) 1) 0) h2]
    rfl
  rw [romEntries, List.flatMap_cons, hb]
  rfl

/-- The state at which the wardens' image is tried. -/
theorem Dev.romStep5_plain (v : Vault) (res : List (Fin 49 × Fin 4 × BistResult)) (h : bootSubsets v = []) :
    d.romStep5 v res = (d.set R.BOOT_STATUS.STEP 4).set R.BOOT_STATUS.STEP 5 := by
  rw [Dev.romStep5, h]
  rfl

theorem Dev.get_eng (eng : Tbl EngSt) (f : Fld) : ({ d with eng } : Dev).get f = d.get f := rfl

theorem Dev.on_eng (eng : Tbl EngSt) (f : Fld) : ({ d with eng } : Dev).on f = d.on f := rfl

/-- What the wardens are after their start. -/
theorem Dev.wardensStart_spec (copy i : Nat) : (d.wardensStart copy i).get R.BOOT_STATUS.DIR = copy % 2 ∧ (d.wardensStart copy i).get R.BOOT_STATUS.ENTRY = i % 16 ∧
    (d.wardensStart copy i).on R.BOOT_STATUS.SFDP = d.on R.BOOT_STATUS.SFDP ∧ (d.wardensStart copy i).sec = d.sec ∧ (d.wardensStart copy i).locS = d.locS ∧
    ∀ k, k < 8 → ((d.wardensStart copy i).e (88 + k)).st = .running ∧
      ((d.wardensStart copy i).e (88 + k)).pc = BitVec.ofNat 32 (((d.e (88 + k)).image.getD 0).toNat / 4 * 4) := by
  have hregs : ((d.set R.BOOT_STATUS.DIR copy).set R.BOOT_STATUS.ENTRY i).get R.BOOT_STATUS.DIR = copy % 2 ∧
      ((d.set R.BOOT_STATUS.DIR copy).set R.BOOT_STATUS.ENTRY i).get R.BOOT_STATUS.ENTRY = i % 16 ∧
      ((d.set R.BOOT_STATUS.DIR copy).set R.BOOT_STATUS.ENTRY i).on R.BOOT_STATUS.SFDP = d.on R.BOOT_STATUS.SFDP := by
    refine ⟨?_, ?_, ?_⟩
    · rw [Dev.get_set_apart _ (f := R.BOOT_STATUS.ENTRY) (g := R.BOOT_STATUS.DIR) _ (Fld.ok_of_ble rfl) (.inr (by decide)), Dev.get_set_same _ _ _ (Fld.ok_of_ble rfl)]
      rfl
    · rw [Dev.get_set_same _ _ _ (Fld.ok_of_ble rfl)]
      rfl
    · rw [Dev.on_set_apart _ R.BOOT_STATUS.ENTRY R.BOOT_STATUS.SFDP _ (Fld.ok_of_ble rfl) (.inr (by decide)),
        Dev.on_set_apart _ R.BOOT_STATUS.DIR R.BOOT_STATUS.SFDP _ (Fld.ok_of_ble rfl) (.inr (by decide))]
  have hsec : ((d.set R.BOOT_STATUS.DIR copy).set R.BOOT_STATUS.ENTRY i).sec = d.sec := by rw [Dev.sec_set, Dev.sec_set]
  have hloc : ((d.set R.BOOT_STATUS.DIR copy).set R.BOOT_STATUS.ENTRY i).locS = d.locS := by rw [Dev.locS_set, Dev.locS_set]
  have he : ∀ k, ((d.set R.BOOT_STATUS.DIR copy).set R.BOOT_STATUS.ENTRY i).e k = d.e k := fun k => by rw [Dev.e_set, Dev.e_set]
  unfold Dev.wardensStart
  generalize (d.set R.BOOT_STATUS.DIR copy).set R.BOOT_STATUS.ENTRY i = y at *
  obtain ⟨eng, hf⟩ := y.startAt_frame (fun x => (x.image.getD 0).toNat) ((List.range 8).map (88 + ·))
  have hst := fun (k : Nat) (hk : k < 8) => y.e_startAt (fun x => (x.image.getD 0).toNat) (l := (List.range 8).map (88 + ·)) (j := 88 + k) (by decide)
    (List.mem_map.2 ⟨k, List.mem_range.2 hk, rfl⟩)
  generalize y.startAt (fun x => (x.image.getD 0).toNat) ((List.range 8).map (88 + ·)) = u at *
  obtain ⟨g1, g2, g3⟩ := hregs
  refine ⟨?_, ?_, ?_, ?_, ?_, fun k hk => ?_⟩
  · rw [hf, Dev.get_eng, g1]
  · rw [hf, Dev.get_eng, g2]
  · rw [hf, Dev.on_eng, g3]
  · rw [hf, hsec]
  · rw [hf, hloc]
  · obtain ⟨i, hi⟩ := hst k hk
    rw [hi, he]
    exact ⟨rfl, rfl⟩

/-- The image of the wardens in their stores. -/
theorem Dev.romPlaced_spec (fl : List (Nat × List Byte)) (ofs : Nat) (p : List Byte) (ht : (romHead fl ofs).text ≤ 65536) (hd : (romHead fl ofs).data ≤ 196608) :
    (d.romPlaced fl ofs p).sec.rollImg = (romHead fl ofs).rollback ∧ (d.romPlaced fl ofs p).on R.BOOT_STATUS.SFDP = d.on R.BOOT_STATUS.SFDP ∧
    ∀ k, k < 8 → ((d.romPlaced fl ofs p).e (88 + k)).image = some (BitVec.ofNat 32 (romHead fl ofs).entry) ∧
      ∀ i, i < (romHead fl ofs).text → i < p.length → (d.romPlaced fl ofs p).locS.byte (262144 * (88 + k) + i) = p.getD i 0 := by
  obtain ⟨h1, h2, -⟩ := d.placeImage_spec (romHead fl ofs) 11 (p.map (·, false)) ht hd 255 (by decide)
  have hp : (p.map (·, false)).map (·.1) = p := by rw [List.map_map]; exact List.map_id _
  rw [hp] at h2
  have hmask : ∀ k, k < 8 → bit 255 k = true := by decide
  have hsf := Dev.on_congr (f := R.BOOT_STATUS.SFDP) (h1.reg (a := A.BOOT_STATUS) (.inl ⟨by decide, by decide⟩))
  unfold Dev.romPlaced
  generalize d.placeImage (romHead fl ofs) 11 255 (p.map (·, false)) = y at *
  obtain ⟨g1, g2⟩ := y.verifyLast_regs 11 (romHead fl ofs).key none
  generalize y.verifyLast (romHead fl ofs).key 11 none = z at *
  have hon : z.on R.BOOT_STATUS.SFDP = d.on R.BOOT_STATUS.SFDP := (Dev.on_congr (f := R.BOOT_STATUS.SFDP) (g2 A.BOOT_STATUS (by decide))).trans hsf
  refine ⟨rfl, (Dev.on_congr (f := R.BOOT_STATUS.SFDP) (Dev.reg_onSec ..)).trans hon, fun k hk => ?_⟩
  obtain ⟨k1, k2, -⟩ := h2 k hk (hmask k hk)
  have he : (z.onSec fun s => { s with rollImg := (romHead fl ofs).rollback }).e (88 + k) = y.e (88 + k) := by
    rw [Dev.e_onSec, g1]
    rfl
  have hl : (z.onSec fun s => { s with rollImg := (romHead fl ofs).rollback }).locS = y.locS := by
    rw [Dev.locS_onSec, g1]
  rw [he, hl]
  refine ⟨k1, fun i hi hlen => ?_⟩
  have := k2 i hi (by omega)
  rw [Nat.zero_add] at this
  exact this

end

end Sys2Proof.Machine
end

section
/-! The obligation on start-up (spec/15, R401 to R404; spec/16, R409, R418). -/

open Sys2Proof

namespace Sys2Proof.Machine

section
variable (d : Dev)

/-- R404: the ROM with one valid directory and one entry. -/
theorem bootRom_one {d : Dev} (h1 : d.boot.romDone = false) (h2 : d.thm.tripped = false) {v : Vault} {fl : Flash} (res : List (Fin 49 × Fin 4 × BistResult))
    (hlife : v.life = 2) (hresp : fl.responds = true) (hA : dirValid (flashBytes fl.runs 0 256) = true)
    (hB : dirValid (flashBytes fl.runs 0x10000 256) = false) (hn : blk (flashBytes fl.runs 0 256) 12 4 = 1)
    (hb : bit (blk (flashBytes fl.runs 0 256) 25 1) 0 = true) :
    bootRom d v fl res = match romVerdict v fl.runs (blk (flashBytes fl.runs 0 256) 16 4) with
      | .inl x => ((((((d.romSfdp fl.sfdp).romDir 0 (flashBytes fl.runs 0 256)).romStep5 v res).romRefused fl.runs (blk (flashBytes fl.runs 0 256) 16 4) x).bootHalt 2 x), v)
      | .inr p => ((((((d.romSfdp fl.sfdp).romDir 0 (flashBytes fl.runs 0 256)).romStep5 v res).romPlaced fl.runs (blk (flashBytes fl.runs 0 256) 16 4) p).wardensStart 0 0), v) := by
  rw [bootRom_eq h1 h2, if_neg (by omega), hresp, Bool.not_true, if_neg Bool.false_ne_true, dirOrder_first hA hB, Vault.destroy_owned hlife]
  dsimp only
  rw [bootImage_eq, romEntries_one hn hb, tryEntries_cons]
  rw [show d.romBegun.flag R.BOOT_STATUS.SFDP fl.sfdp = d.romSfdp fl.sfdp from rfl]
  cases romVerdict v fl.runs (blk (flashBytes fl.runs 0 256) 16 4) with
  | inl x => rfl
  | inr p => rfl

/-- The ROM as its fifth step begins, with one directory. -/
theorem Dev.romReady_spec (v : Vault) (b : Bool) (dir : List Byte) (res : List (Fin 49 × Fin 4 × BistResult)) (hv : bootSubsets v = []) :
    (((d.romSfdp b).romDir 0 dir).romStep5 v res).boot.romDone = true ∧ (((d.romSfdp b).romDir 0 dir).romStep5 v res).host.ready = true ∧
    (((d.romSfdp b).romDir 0 dir).romStep5 v res).host.subsys = blk dir 8 4 ∧ (((d.romSfdp b).romDir 0 dir).romStep5 v res).get R.BOOT_STATUS.STEP = 5 ∧
    (((d.romSfdp b).romDir 0 dir).romStep5 v res).on R.BOOT_STATUS.SFDP = b := by
  obtain ⟨h1, h2, -⟩ := d.romBegun_spec
  obtain ⟨⟨hf, -⟩, -, h3⟩ := d.romSfdp_spec b
  obtain ⟨g1, g2, -, g4⟩ := ((d.romSfdp b).romDir 0 dir).romStep5_spec v res
  have hon : (((d.romSfdp b).romDir 0 dir).romStep5 v res).on R.BOOT_STATUS.SFDP = b := by
    rw [Dev.romStep5_plain _ _ _ hv, Dev.on_set_apart _ R.BOOT_STATUS.STEP R.BOOT_STATUS.SFDP _ (Fld.ok_of_ble rfl) (.inr (by decide)),
      Dev.on_set_apart _ R.BOOT_STATUS.STEP R.BOOT_STATUS.SFDP _ (Fld.ok_of_ble rfl) (.inr (by decide)), Dev.romDir, Dev.on, Dev.get_onHost_eq, ← Dev.on,
      Dev.on_set_apart _ R.BOOT_STATUS.DIR R.BOOT_STATUS.SFDP _ (Fld.ok_of_ble rfl) (.inr (by decide))]
    exact h3
  have hh : ((d.romSfdp b).romDir 0 dir).host = { d.romBegun.host with subsys := blk dir 8 4 } ∧ ((d.romSfdp b).romDir 0 dir).boot = d.romBegun.boot := by
    generalize d.romSfdp b = y at *
    rw [Dev.romDir, Dev.onHost, Dev.host_set, Dev.boot_set]
    rw [hf]
    exact ⟨rfl, rfl⟩
  rw [g1, g2, hh.1, hh.2, h2]
  exact ⟨h1, rfl, rfl, g4, hon⟩

/-! DRAM training. -/

/-- What the end of a training shows. -/
def Dev.trainShown (fail mr8 : Nat) : Dev :=
  (d.setReg A.DDR_TRAIN_STATUS ((if fail = 0 then 2 ^ 30 else 2 ^ 29) + mr8 % 256)).setReg A.DDR_TRAIN_FAIL fail

theorem Dev.ddrTrainDone_busy (h : d.on R.DDR_TRAIN_STATUS.BUSY = true) (fail mr8 : Nat) :
    d.ddrTrainDone fail mr8 = if fail = 0 then (d.trainShown fail mr8).set R.MEM_STATUS.TRAINED 1 else d.trainShown fail mr8 := by
  rw [Dev.ddrTrainDone, if_pos h]
  rfl

theorem Dev.trainShown_spec {fail mr8 : Nat} (hf : fail < 2 ^ 32) (hm : mr8 < 256) :
    (d.trainShown fail mr8).on R.DDR_TRAIN_STATUS.BUSY = false ∧ (d.trainShown fail mr8).on R.DDR_TRAIN_STATUS.DONE = decide (fail = 0) ∧
    (d.trainShown fail mr8).on R.DDR_TRAIN_STATUS.FAIL = decide (fail ≠ 0) ∧ (d.trainShown fail mr8).get R.DDR_TRAIN_STATUS.MR8 = mr8 ∧
    (d.trainShown fail mr8).reg A.DDR_TRAIN_FAIL = fail ∧ RegsOnly d (d.trainShown fail mr8) [A.DDR_TRAIN_STATUS, A.DDR_TRAIN_FAIL, A.MEM_STATUS] := by
  have hr : (d.trainShown fail mr8).reg A.DDR_TRAIN_STATUS = (if fail = 0 then 2 ^ 30 else 2 ^ 29) + mr8 := by
    rw [Dev.trainShown, Dev.reg_setReg_ne _ _ (by decide), Dev.reg_setReg_same, Nat.mod_eq_of_lt hm]
    refine Nat.mod_eq_of_lt ?_
    split <;> omega
  have hg : ∀ f : Fld, f.addr = A.DDR_TRAIN_STATUS → (d.trainShown fail mr8).get f = getBits ((if fail = 0 then 2 ^ 30 else 2 ^ 29) + mr8) f.hi f.lo :=
    fun f h => by rw [Dev.get, h, hr]
  refine ⟨?_, ?_, ?_, ?_, ?_, ?_⟩
  · rw [Dev.on, hg R.DDR_TRAIN_STATUS.BUSY rfl]
    show (((if fail = 0 then 2 ^ 30 else 2 ^ 29) + mr8) / 2 ^ 31 % 2 ^ 1 != 0) = false
    rw [bne_eq_false_iff_eq]
    split <;> omega
  · rw [Dev.on, hg R.DDR_TRAIN_STATUS.DONE rfl]
    show (((if fail = 0 then 2 ^ 30 else 2 ^ 29) + mr8) / 2 ^ 30 % 2 ^ 1 != 0) = decide (fail = 0)
    by_cases h : fail = 0
    · rw [if_pos h, decide_eq_true h, bne_iff_ne]
      omega
    · rw [if_neg h, decide_eq_false h, bne_eq_false_iff_eq]
      omega
  · rw [Dev.on, hg R.DDR_TRAIN_STATUS.FAIL rfl]
    show (((if fail = 0 then 2 ^ 30 else 2 ^ 29) + mr8) / 2 ^ 29 % 2 ^ 1 != 0) = decide (fail ≠ 0)
    by_cases h : fail = 0
    · rw [if_pos h, decide_eq_false (not_not.2 h), bne_eq_false_iff_eq]
      omega
    · rw [if_neg h, decide_eq_true h, bne_iff_ne]
      omega
  · rw [hg R.DDR_TRAIN_STATUS.MR8 rfl]
    show ((if fail = 0 then 2 ^ 30 else 2 ^ 29) + mr8) / 2 ^ 0 % 2 ^ 8 = mr8
    split <;> omega
  · rw [Dev.trainShown, Dev.reg_setReg_same]
    exact Nat.mod_eq_of_lt hf
  · exact ((RegsOnly.refl _ _).setReg 0 rfl).setReg 1 rfl

/-! The SMBus. -/

/-- The highest of a list with a first element. -/
theorem foldl_max_eq {t : Int} (a : Int) (l : List Int) (hm : t ∈ a :: l) (ht : ∀ x, x ∈ a :: l → x ≤ t) : l.foldl max a = t := by
  have hge : ∀ (l : List Int) (a : Int), a ≤ l.foldl max a ∧ (∀ x ∈ l, x ≤ l.foldl max a) ∧ (l.foldl max a = a ∨ l.foldl max a ∈ l) := by
    intro l
    induction l with
    | nil => exact fun a => ⟨Int.le_refl _, fun _ h => absurd h List.not_mem_nil, Or.inl rfl⟩
    | cons b l ih =>
      intro a
      obtain ⟨h1, h2, h3⟩ := ih (max a b)
      rw [List.foldl_cons]
      refine ⟨Int.le_trans (Int.le_max_left ..) h1, fun x hx => ?_, ?_⟩
      · rcases List.mem_cons.1 hx with rfl | hx
        · exact Int.le_trans (Int.le_max_right ..) h1
        · exact h2 x hx
      · rcases h3 with h3 | h3
        · rw [h3]
          rcases max_choice a b with h | h
          · exact .inl h
          · rw [h]
            exact .inr (.head _)
        · exact .inr (.tail _ h3)
  obtain ⟨h1, h2, h3⟩ := hge l a
  refine Int.le_antisymm ?_ ?_
  · rcases h3 with h3 | h3
    · rw [h3]
      exact ht a (.head _)
    · exact ht _ (.tail _ h3)
  · rcases List.mem_cons.1 hm with rfl | hm
    · exact h1
    · exact h2 t hm

/-- R418: the highest of some temperatures. -/
theorem Dev.smbMax_spec {t : Int} {l : List Int} (hm : t ∈ l) (ht : ∀ x, x ∈ l → x ≤ t) : d.smbMax l = { d with boot := { d.boot with smb := (t % 65536).toNat } } := by
  cases l with
  | nil => cases hm
  | cons a l =>
    rw [Dev.smbMax, foldl_max_eq a l hm ht]
    rfl

theorem filterMap_used (p : Nat → Bool) (f : Nat → Int) (l : List Nat) : (l.filterMap fun k => if p k then some (f k) else none) = (l.filter p).map f := by
  induction l with
  | nil => rfl
  | cons a l ih =>
    rw [List.filterMap_cons]
    cases h : p a with
    | true => rw [if_pos rfl, ih, List.filter_cons_of_pos h, List.map_cons]
    | false =>
      rw [if_neg Bool.false_ne_true, ih, List.filter_cons_of_neg (by rw [h]; exact Bool.false_ne_true)]

end

end Sys2Proof.Machine

end

section
/-! The obligation on start-up, assembled (spec/15, R401 to R404; spec/16, R409, R418). -/

open Sys2Proof

namespace Sys2Proof.Machine

section
variable (d : Dev)

theorem Dev.get_boot (b : BootSt) (f : Fld) : ({ d with boot := b } : Dev).get f = d.get f := rfl

theorem Dev.on_boot (b : BootSt) (f : Fld) : ({ d with boot := b } : Dev).on f = d.on f := rfl

/-- What the end of a training leaves. -/
theorem Dev.ddrTrainDone_spec (h : d.on R.DDR_TRAIN_STATUS.BUSY = true) {fail mr8 : Nat} (hf : fail < 2 ^ 32) (hm : mr8 < 256) :
    (d.ddrTrainDone fail mr8).on R.DDR_TRAIN_STATUS.BUSY = false ∧ (d.ddrTrainDone fail mr8).on R.DDR_TRAIN_STATUS.DONE = decide (fail = 0) ∧
    (d.ddrTrainDone fail mr8).on R.DDR_TRAIN_STATUS.FAIL = decide (fail ≠ 0) ∧ (d.ddrTrainDone fail mr8).get R.DDR_TRAIN_STATUS.MR8 = mr8 ∧
    (d.ddrTrainDone fail mr8).reg A.DDR_TRAIN_FAIL = fail ∧
    (d.ddrTrainDone fail mr8).on R.MEM_STATUS.TRAINED = (d.on R.MEM_STATUS.TRAINED || decide (fail = 0)) ∧
    RegsOnly d (d.ddrTrainDone fail mr8) [A.DDR_TRAIN_STATUS, A.DDR_TRAIN_FAIL, A.MEM_STATUS] := by
  obtain ⟨h1, h2, h3, h4, h5, h6⟩ := d.trainShown_spec hf hm
  have h7 : (d.trainShown fail mr8).on R.MEM_STATUS.TRAINED = d.on R.MEM_STATUS.TRAINED := by
    rw [Dev.trainShown, Dev.on, Dev.get_setReg_ne _ _ _ (by decide), Dev.get_setReg_ne _ _ _ (by decide), ← Dev.on]
  rw [d.ddrTrainDone_busy h]
  generalize d.trainShown fail mr8 = y at *
  by_cases hz : fail = 0
  · rw [if_pos hz, decide_eq_true hz] at *
    have hk : ∀ f : Fld, f.addr ≠ A.MEM_STATUS → (y.set R.MEM_STATUS.TRAINED 1).get f = y.get f := fun f hf =>
      Dev.get_set_apart _ (f := R.MEM_STATUS.TRAINED) _ (Fld.ok_of_ble rfl) (.inl (Ne.symm hf))
    refine ⟨?_, ?_, ?_, ?_, ?_, ?_, h6.set 2 rfl⟩
    · rw [Dev.on, hk _ (by decide), ← Dev.on, h1]
    · rw [Dev.on, hk _ (by decide), ← Dev.on, h2]
    · rw [Dev.on, hk _ (by decide), ← Dev.on, h3]
    · rw [hk _ (by decide), h4]
    · rw [Dev.reg_set_ne _ R.MEM_STATUS.TRAINED _ (by decide), h5]
    · rw [Dev.on_set_same _ _ _ (Fld.ok_of_ble rfl), Bool.or_true]
      rfl
  · rw [if_neg hz, decide_eq_false hz] at *
    exact ⟨h1, h2, h3, h4, h5, by rw [h7, Bool.or_false], h6⟩

/-- R409: a step of VDD_CORE. -/
theorem Dev.vcoreChange_spec (mv : Nat) :
    (d.vcoreChange mv).pwr.vcore = max (d.pwr.vcore - 10) (min (d.pwr.vcore + 10) (max 600 (min 750 mv))) ∧
    d.vcoreChange mv = { d with pwr := { d.pwr with vcore := (d.vcoreChange mv).pwr.vcore, alert := d.pwr.alert || decide ((d.vcoreChange mv).pwr.vcore ≠ d.pwr.vcore) } } := by
  have hn : clampN (d.pwr.vcore - 10) (d.pwr.vcore + 10) (clampN 600 750 mv) = max (d.pwr.vcore - 10) (min (d.pwr.vcore + 10) (max 600 (min 750 mv))) := by
    rw [clampN_eq _ (by omega), clampN_eq _ (by decide)]
  unfold Dev.vcoreChange
  rw [hn]
  generalize max (d.pwr.vcore - 10) (min (d.pwr.vcore + 10) (max 600 (min 750 mv))) = n
  by_cases h : n = d.pwr.vcore
  · dsimp only
    rw [if_pos h]
    refine ⟨h.symm, ?_⟩
    rw [decide_eq_false (fun h => h rfl), Bool.or_false]
  · dsimp only
    rw [if_neg h]
    refine ⟨rfl, ?_⟩
    rw [Dev.onPwr]
    dsimp only
    rw [decide_eq_true h, Bool.or_true]

theorem tidy_HEALTHY_CTRL : Row.HEALTHY_CTRL.tidy := by decide

/-- The part with a kick noted. -/
def Dev.kicked : Dev := { d with boot := { d.boot with kick := true } }

theorem Dev.healthyCtrl_kick (x : Nat) (h : bit x 30 = true) : d.healthyCtrl x = (d.sw Row.HEALTHY_CTRL A.HEALTHY_CTRL x).kicked := by
  rw [Dev.healthyCtrl, if_pos h]
  rfl

theorem Dev.kicked_of_regs {y : Dev} {l : List Nat} (h : RegsOnly d y l) : RegsOnly d.kicked y.kicked l := by
  obtain ⟨hf, hr⟩ := h
  rw [hf]
  exact ⟨rfl, hr⟩

theorem Dev.healthy_kicked : d.kicked.healthy = d.on R.HEALTHY_CTRL.EN := by
  rw [Dev.healthy, Dev.kicked, Dev.on_boot, Bool.and_true]

/-- What a write to HEALTHY_CTRL leaves in it. -/
theorem Dev.healthySw_spec (x : Nat) : (d.sw Row.HEALTHY_CTRL A.HEALTHY_CTRL x).on R.HEALTHY_CTRL.EN = bit x 31 ∧
    (d.sw Row.HEALTHY_CTRL A.HEALTHY_CTRL x).get R.HEALTHY_CTRL.TIMEOUT = max 1 (x % 256) ∧
    RegsOnly d (d.sw Row.HEALTHY_CTRL A.HEALTHY_CTRL x) [A.HEALTHY_CTRL] := by
  refine ⟨?_, ?_, (RegsOnly.refl _ _).sw 0 rfl⟩
  · rw [Dev.on, show A.HEALTHY_CTRL = R.HEALTHY_CTRL.EN.addr from rfl, Dev.get_sw_any d tidy_HEALTHY_CTRL 0 rfl]
    show (x / 2 ^ 31 % 2 ^ 1 != 0) = (x / 2 ^ 31 % 2 == 1)
    rw [Nat.pow_one]
    rcases Nat.mod_two_eq_zero_or_one (x / 2 ^ 31) with h | h <;> rw [h] <;> rfl
  · rw [show A.HEALTHY_CTRL = R.HEALTHY_CTRL.TIMEOUT.addr from rfl, Dev.get_sw_range d tidy_HEALTHY_CTRL 2 rfl (by decide) (by decide)]
    show max 1 (min 255 (x / 2 ^ 0 % 2 ^ 8)) = max 1 (x % 256)
    omega

/-- R401: a kick. -/
theorem Dev.healthyKick_spec (x : Nat) : (d.healthyCtrl (putBit x 30 true)).healthy = bit x 31 ∧
    (d.healthyCtrl (putBit x 30 true)).get R.HEALTHY_CTRL.TIMEOUT = max 1 (x % 256) ∧
    RegsOnly d.kicked (d.healthyCtrl (putBit x 30 true)) [A.HEALTHY_CTRL] := by
  obtain ⟨h1, h2, h3⟩ := d.healthySw_spec (putBit x 30 true)
  rw [d.healthyCtrl_kick _ (bit_putBit_same ..)]
  generalize d.sw Row.HEALTHY_CTRL A.HEALTHY_CTRL (putBit x 30 true) = y at *
  refine ⟨?_, ?_, d.kicked_of_regs h3⟩
  · rw [Dev.healthy_kicked, h1, bit_putBit_ne _ _ (by decide)]
  · rw [Dev.kicked, Dev.get_boot, h2]
    have := getBits_putBit_ne x (i := 30) (hi := 7) (lo := 0) true (.inr (by decide))
    simp only [getBits] at this
    omega

end

end Sys2Proof.Machine

open Sys2Proof.Machine

/-- Settles O55: the ROM's steps keep what they show until it halts or starts the wardens; the other commands are single updates. -/
theorem startUp : Obligations.StartUp := by
  unfold Obligations.StartUp
  intro src fl res val fail mr8 mv s
  extract_lets d v boot byte bytes valid halts go at_ head m only brec smb word tops sents read train
  have hboot : ∀ {p : State → Prop}, p { s with dev := (bootRom d v fl res).1, vault := (bootRom d v fl res).2 } → Gives boot s p :=
    fun h => gives_of_onV (f := fun d v => bootRom d v fl res) rfl rfl h
  have hvalid : ∀ a, valid a ↔ dirValid (flashBytes fl.runs a 256) = true := fun a => (dirValid_iff fl.runs a).symm
  have hhalt : ∀ {cause : Nat} (_ : cause < 8) {y : Dev} (_ : RegsOnly d.romBegun y [A.BOOT_STATUS]), bootRom d v fl res = (y.bootHalt cause, v.destroy) →
      halts cause := fun hc y hy he => by
    refine hboot ?_
    rw [he]
    obtain ⟨h1, h2, h3, h4, h5, -⟩ := d.romBegun_halt hc hy
    exact ⟨h1, h2, h3, h4, h5⟩
  have hcan : (bit (putBit val.toNat 31 true) 31 ∧ !d.on R.MEM_CFG.EN ∧ d.dramActive ∧ (d.barredPolder 47).isNone) ↔ train := by
    rw [bit_putBit_same, Bool.not_eq_true', Dev.dramActive, beq_iff_eq, Option.isNone_iff_eq_none]
    exact ⟨fun h => h.2, fun h => ⟨rfl, h⟩⟩
  have hused : ∀ lo n, read lo n = (((List.range n).map (lo + ·)).filter d.senUsed).map d.temp := fun lo n => filterMap_used _ _ _
  have hall : (List.range 176).map (0 + ·) = List.range 176 := by
    simp only [Nat.zero_add, List.map_id']
  refine ⟨fun h => ?_, fun hg => ?_, fun hg hl => ?_, fun hg hl hr => ?_, fun hg hl hr hA hB => ?_, fun hg hl hp hr ho => ?_, fun hopen => ⟨fun ht => ?_, fun ht => ?_⟩,
    fun hb => ?_, fun hb => ?_, fun hopen => ?_, ?_, fun t ht => ?_, fun t ht => ?_, fun t ht => ?_, fun he => ?_, fun he => ?_, ?_, ?_, ?_, ?_, ?_⟩
  · show s.onV (fun d v => bootRom d v fl res) = .next s
    rw [State.onV, bootRom, if_pos h]
  · exact hboot (bootRom_runs hg.1 hg.2)
  · refine hhalt (cause := 4) (by decide) (RegsOnly.refl _ _) ?_
    rw [bootRom_eq hg.1 hg.2, if_pos hl]
  · refine hhalt (cause := 3) (by decide) (RegsOnly.refl _ _) ?_
    rw [bootRom_eq hg.1 hg.2, if_neg hl, hr, Bool.not_false, if_pos rfl]
  · refine hhalt (cause := 1) (by decide) (d.romSfdp_spec fl.sfdp).1 ?_
    rw [bootRom_eq hg.1 hg.2, if_neg hl, hr, Bool.not_true, if_neg Bool.false_ne_true,
      dirOrder_none (eq_false_of_ne_true fun h => hA ((hvalid 0).2 h)) (eq_false_of_ne_true fun h => hB ((hvalid 0x10000).2 h))]
    rfl
  · obtain ⟨hA, hB, hn, hbit⟩ := ho
    have hone := bootRom_one hg.1 hg.2 res hl hr ((hvalid 0).1 hA) (eq_false_of_ne_true fun h => hB ((hvalid 0x10000).2 h)) hn hbit
    obtain ⟨k1, k2, k3, k4, k5⟩ := d.romReady_spec v fl.sfdp (flashBytes fl.runs 0 256) res (bootSubsets_none hl hp)
    generalize ((d.romSfdp fl.sfdp).romDir 0 (flashBytes fl.runs 0 256)).romStep5 v res = y at *
    refine ⟨fun x hx => hboot ?_, fun p hx => hboot ?_⟩
    · have hv : romVerdict v fl.runs (blk (flashBytes fl.runs 0 256) 16 4) = .inl x := hx
      rw [hv] at hone
      rw [hone]
      obtain ⟨h1, h2, h3, -⟩ := (y.romRefused fl.runs (blk (flashBytes fl.runs 0 256) 16 4) x).bootHalt_spec (cause := 2) (by decide) x
      exact ⟨h1, h2, h3, rfl⟩
    · have hv : romVerdict v fl.runs (blk (flashBytes fl.runs 0 256) 16 4) = .inr p := hx
      rw [hv] at hone
      rw [hone]
      obtain ⟨ht, hd, -, -⟩ := ImgHead.fits_sizes (fits_of_verify hx)
      obtain ⟨p1, p2, p3⟩ := y.romPlaced_spec fl.runs (blk (flashBytes fl.runs 0 256) 16 4) p ht hd
      obtain ⟨g1, g2, g3, g4⟩ := RomKept.romPlaced y fl.runs (blk (flashBytes fl.runs 0 256) 16 4) (p := p) ht hd
      dsimp only
      generalize y.romPlaced fl.runs (blk (flashBytes fl.runs 0 256) 16 4) p = z at *
      obtain ⟨w1, w2, w3, w4, w5, w6⟩ := z.wardensStart_spec 0 0
      obtain ⟨q1, q2, q3, q4⟩ := RomKept.wardensStart z 0 0
      generalize z.wardensStart 0 0 = u at *
      refine ⟨rfl, ?_, q4.trans (g4.trans k4), w1, w2, w3.trans (p2.trans k5), ?_, ?_, ?_, fun k hk => ?_⟩
      · show u.boot.romDone = true
        rw [q1, g1, k1]
      · show u.sec.rollImg = _
        rw [w4, p1]
        rfl
      · show u.host.ready = true
        rw [q2, g2, k2]
      · show u.host.subsys = _
        rw [q2, g2, k3]
        rfl
      · obtain ⟨e1, e2⟩ := w6 k hk
        obtain ⟨i1, i2⟩ := p3 k hk
        rw [i1] at e2
        refine ⟨e1, ?_, fun i hi hlen => ?_⟩
        · refine e2.trans ?_
          have hlt : (romHead fl.runs (blk (flashBytes fl.runs 0 256) 16 4)).entry < 2 ^ 32 := blk_lt _ _ _
          show BitVec.ofNat 32 ((BitVec.ofNat 32 _).toNat / 4 * 4) = _
          rw [BitVec.toNat_ofNat, Nat.mod_eq_of_lt hlt]
          rfl
        · show u.locS.byte _ = _
          rw [w5]
          exact i2 i hi hlen
  · refine (makes_of_gate (c := .ddrTrainStart src val) (s := s) (f := fun d => d.ddrTrain (putBit val.toNat 31 true)) rfl hopen).gives ?_
    have he : d.ddrTrain (putBit val.toNat 31 true) = d.setReg A.DDR_TRAIN_STATUS (2 ^ 31) := by
      rw [Dev.ddrTrain, if_pos (hcan.2 ht)]
    show (d.ddrTrain (putBit val.toNat 31 true)).reg A.DDR_TRAIN_STATUS = 2 ^ 31 ∧ RegsOnly d (d.ddrTrain (putBit val.toNat 31 true)) [A.DDR_TRAIN_STATUS]
    rw [he]
    exact ⟨Dev.reg_setReg_same .., (RegsOnly.refl _ _).setReg 0 rfl⟩
  · have hsame : d.ddrTrain (putBit val.toNat 31 true) = d := by rw [Dev.ddrTrain, if_neg (fun h => ht (hcan.1 h))]
    exact hsame ▸ makes_of_gate (c := .ddrTrainStart src val) (s := s) (f := fun d => d.ddrTrain (putBit val.toNat 31 true)) rfl hopen
  · have hsame : d.ddrTrainDone fail.toNat mr8.toNat = d := by rw [Dev.ddrTrainDone, if_neg (by rw [hb]; exact Bool.false_ne_true)]
    exact hsame ▸ makes_of_on (c := .ddrTrainDone fail mr8) (s := s) (f := fun d => d.ddrTrainDone fail.toNat mr8.toNat) rfl
  · have hz : (fail.toNat = 0) = (fail = 0) := propext ⟨fun h => BitVec.eq_of_toNat_eq h, fun h => by rw [h]; rfl⟩
    have hspec := d.ddrTrainDone_spec hb fail.isLt mr8.isLt
    simp only [ne_eq, hz] at hspec
    exact (makes_of_on (c := .ddrTrainDone fail mr8) (s := s) (f := fun d => d.ddrTrainDone fail.toNat mr8.toNat) rfl).gives hspec
  · exact (makes_of_gate (c := .healthyKick src val) (s := s) (f := fun d => d.healthyCtrl (putBit val.toNat 30 true)) rfl hopen).gives (d.healthyKick_spec val.toNat)
  · refine (makes_of_on (c := .healthyTimeout) (s := s) (f := fun d => { d with boot := { d.boot with kick := false } }) rfl).gives ⟨?_, rfl⟩
    exact Bool.and_false _
  · rw [hused, hall] at ht
    have he : d.smbTempMax = { d with boot := { d.boot with smb := word t } } := d.smbMax_spec ht.1 ht.2
    exact (makes_of_on (c := .smbTempMax) (s := s) (f := Dev.smbTempMax) rfl).congr he
  · have he : d.smbTempSent = { d with boot := { d.boot with smb := word t } } := d.smbMax_spec ht.1 ht.2
    exact (makes_of_on (c := .smbTempSent) (s := s) (f := Dev.smbTempSent) rfl).congr he
  · rw [hused] at ht
    have he : d.smbTempEngine = { d with boot := { d.boot with smb := word t } } := d.smbMax_spec ht.1 ht.2
    exact (makes_of_on (c := .smbTempEngine) (s := s) (f := Dev.smbTempEngine) rfl).congr he
  · rw [hused, hall] at he
    refine (makes_of_on (c := .smbTempMax) (s := s) (f := Dev.smbTempMax) rfl).gives ?_
    show d.smbTempMax.regs = d.regs
    rw [Dev.smbTempMax, he]
    rfl
  · rw [hused] at he
    refine (makes_of_on (c := .smbTempEngine) (s := s) (f := Dev.smbTempEngine) rfl).gives ?_
    show d.smbTempEngine.regs = d.regs
    rw [Dev.smbTempEngine, he]
    rfl
  · exact makes_of_on (c := .smbProfile) (s := s) (f := Dev.smbProfile) rfl
  · have he : d.smbHealth = { d with boot := { d.boot with smb := d.get R.BOOT_STATUS.STEP * 16 + d.get R.PFAIL_STATUS.LIVE * 8 + (if d.thm.tripped then 4 else 0) + d.get R.BOOT_ERR.HALTED * 2 + d.get R.HEALTHY_CTRL.EN } } := by
      rw [Dev.smbHealth, Dev.smbReply]
      cases d.thm.tripped <;> rfl
    exact (makes_of_on (c := .smbHealth) (s := s) (f := Dev.smbHealth) rfl).congr he
  · exact makes_of_on (c := .smbBootErr) (s := s) (f := Dev.smbBootErr) rfl
  · exact makes_of_on (c := .smbVcore) (s := s) (f := Dev.smbVcore) rfl
  · refine (makes_of_on (c := .vcoreRequestChange mv) (s := s) (f := fun d => d.vcoreChange mv.toNat) rfl).gives ?_
    exact d.vcoreChange_spec mv.toNat

end

section
/-! Engines changed one after another (spec/07, R188, R223). -/

open Sys2Proof

namespace Sys2Proof.Machine

section
variable (d : Dev)

/-- The engines of l that q picks changed by f. -/
def Dev.onEs (q : EngSt → Prop) [DecidablePred q] (f : EngSt → EngSt) (l : List Nat) : Dev := l.foldl (fun d k => if q (d.e k) then d.onE k f else d) d

theorem Dev.onEs_frame (q : EngSt → Prop) [DecidablePred q] (f : EngSt → EngSt) (l : List Nat) : ∃ eng, d.onEs q f l = { d with eng } := by
  unfold Dev.onEs
  induction l generalizing d with
  | nil => exact ⟨_, rfl⟩
  | cons k l ih =>
    obtain ⟨eng, h⟩ := ih (if q (d.e k) then d.onE k f else d)
    rw [List.foldl_cons, h]
    split <;> exact ⟨_, rfl⟩

theorem Dev.e_onEs (q : EngSt → Prop) [DecidablePred q] (f : EngSt → EngSt) {l : List Nat} (hl : l.Nodup) (j : Nat) :
    (d.onEs q f l).e j = if j ∈ l ∧ q (d.e j) then f (d.e j) else d.e j := by
  unfold Dev.onEs
  induction l generalizing d with
  | nil => rw [if_neg (fun h => absurd h.1 List.not_mem_nil)]; rfl
  | cons k l ih =>
    obtain ⟨hk, hl⟩ := List.nodup_cons.1 hl
    have he : (if q (d.e k) then d.onE k f else d).e j = if k = j ∧ q (d.e j) then f (d.e j) else d.e j := by
      by_cases hj : k = j
      · subst hj
        by_cases hq : q (d.e k)
        · rw [if_pos hq, if_pos ⟨rfl, hq⟩, Dev.e_onE_same]
        · rw [if_neg hq, if_neg (fun h : k = k ∧ _ => hq h.2)]
      · rw [if_neg (fun h : k = j ∧ _ => hj h.1)]
        split
        · exact Dev.e_onE_ne d f hj
        · rfl
    rw [List.foldl_cons, ih _ hl, he]
    by_cases hj : k = j
    · subst hj
      rw [if_neg fun h => hk h.1]
      by_cases hq : q (d.e k)
      · rw [if_pos ⟨rfl, hq⟩, if_pos ⟨.head _, hq⟩]
      · rw [if_neg fun h => hq h.2, if_neg fun h => hq h.2]
    · rw [if_neg fun h : k = j ∧ _ => hj h.1]
      have hm : j ∈ k :: l ↔ j ∈ l := ⟨fun h => (List.mem_cons.1 h).resolve_left fun h => hj h.symm, .tail _⟩
      simp only [hm]

/-- An engine that IMG HALT names. -/
def EngSt.haltOf (x : EngSt) : EngSt := if [EState.running, .waiting, .fault].contains x.st then { x with st := .halted, wait := none } else x

theorem EngSt.haltOf_haltOf (x : EngSt) : x.haltOf.haltOf = x.haltOf := by
  by_cases h : [EState.running, .waiting, .fault].contains x.st = true
  · have hx : x.haltOf = { x with st := .halted, wait := none } := if_pos h
    rw [hx]
    rfl
  · have hx : x.haltOf = x := if_neg h
    rw [hx, hx]

theorem EngSt.reqs_haltOf (x : EngSt) : x.haltOf.reqs = x.reqs := by
  unfold EngSt.haltOf
  split <;> rfl

theorem EngSt.st_haltOf (x : EngSt) : x.haltOf.st = if x.st = .loading then .loading else .halted := by
  unfold EngSt.haltOf
  cases h : x.st <;> simp [h]

theorem Dev.e_stopEngine_eq (k : Nat) (st : EState) (j : Nat) : (d.stopEngine k st).e j = if k = j then { d.e j with st := st, wait := none } else d.e j := by
  have h : ((d.onE k fun x => { x with st := st, wait := none }).onC (k / 8) fun c => { c with drained := false }).e j =
      if k = j then { d.e j with st := st, wait := none } else d.e j :=
    Dev.e_onE d k (fun x => { x with st := st, wait := none }) j
  unfold Dev.stopEngine
  dsimp only
  split
  · rw [(engFree_flushTarget (k - 88)).e, h]
  · exact h

theorem Dev.e_haltEngine (k j : Nat) : (d.haltEngine k).e j = if k = j then (d.e j).haltOf else d.e j := by
  unfold Dev.haltEngine EngSt.haltOf
  by_cases hj : k = j
  · subst hj
    rw [if_pos rfl]
    split
    · rw [Dev.e_stopEngine_eq, if_pos rfl]
    · rfl
  · rw [if_neg hj]
    split
    · rw [Dev.e_stopEngine_eq, if_neg hj]
    · rfl

theorem Dev.e_haltEngines (l : List Nat) (j : Nat) : (l.foldl Dev.haltEngine d).e j = if j ∈ l then (d.e j).haltOf else d.e j := by
  induction l generalizing d with
  | nil => rfl
  | cons k l ih =>
    rw [List.foldl_cons, ih, Dev.e_haltEngine]
    by_cases hj : k = j
    · subst hj
      rw [if_pos rfl, EngSt.haltOf_haltOf, ite_self, if_pos (.head _)]
    · rw [if_neg hj]
      have hm : j ∈ k :: l ↔ j ∈ l := ⟨fun h => (List.mem_cons.1 h).resolve_left fun h => hj h.symm, .tail _⟩
      simp only [hm]

end

/-! The engines an operand names (R223). -/

theorem imgCluster_eq (op : Nat) : imgCluster op = min 11 (op / 256 % 16) := by
  rw [imgCluster, Nat.min_comm]
  rfl

theorem mem_imgEngines {op j : Nat} : j ∈ imgEngines op ↔ ∃ k, (k < 8 ∧ bit op k = true) ∧ j = 8 * imgCluster op + k := by
  simp only [imgEngines, List.mem_map, List.mem_filter, List.mem_range]
  exact ⟨fun ⟨k, h, e⟩ => ⟨k, h, e.symm⟩, fun ⟨k, h, e⟩ => ⟨k, h, e.symm⟩⟩

theorem nodup_imgEngines (op : Nat) : (imgEngines op).Nodup :=
  (List.nodup_range.filter _).map fun _ _ h => Nat.add_left_cancel h

theorem named_mem {op k : Nat} (hk : k < 8) : 8 * imgCluster op + k ∈ imgEngines op ↔ bit op k = true := by
  rw [mem_imgEngines]
  constructor
  · rintro ⟨j, ⟨-, hb⟩, he⟩
    rwa [Nat.add_left_cancel he]
  · exact fun hb => ⟨k, ⟨hk, hb⟩, rfl⟩

/-- Digits to the base 8 read back. -/
theorem digits8 (f : Nat → Nat) (hf : ∀ k, f k < 8) (n : Nat) : (List.range n).foldl (fun v k => v + f k * 8 ^ k) 0 < 8 ^ n ∧
    ∀ k, k < n → (List.range n).foldl (fun v k => v + f k * 8 ^ k) 0 / 8 ^ k % 8 = f k := by
  induction n with
  | zero => exact ⟨Nat.one_pos, fun _ h => absurd h (Nat.not_lt_zero _)⟩
  | succ n ih =>
    obtain ⟨h1, h2⟩ := ih
    rw [List.range_succ, List.foldl_append, List.foldl_cons, List.foldl_nil]
    generalize (List.range n).foldl (fun v k => v + f k * 8 ^ k) 0 = v at *
    have hpos : 0 < 8 ^ n := Nat.pow_pos (by decide)
    refine ⟨?_, fun k hk => ?_⟩
    · calc v + f n * 8 ^ n < 8 ^ n + 7 * 8 ^ n := Nat.add_lt_add_of_lt_of_le h1 (Nat.mul_le_mul_right _ (Nat.le_of_lt_succ (hf n)))
        _ = 8 ^ (n + 1) := by ring
    · rcases Nat.lt_succ_iff_lt_or_eq.1 hk with hk | rfl
      · obtain ⟨j, rfl⟩ := Nat.exists_eq_add_of_lt hk
        have he : v + f (k + j + 1) * 8 ^ (k + j + 1) = v + 8 ^ k * (8 * (f (k + j + 1) * 8 ^ j)) := by ring
        rw [he, Nat.add_mul_div_left _ _ (Nat.pow_pos (by decide)), Nat.add_mul_mod_self_left]
        exact h2 k hk
      · rw [Nat.mul_comm, Nat.add_mul_div_left _ _ hpos, Nat.div_eq_of_lt h1, Nat.zero_add, Nat.mod_eq_of_lt (hf k)]

theorem imgOwn_iff {e op : Nat} : imgOwn e op = true ↔ imgCluster op = 11 ∧ (bit op 0 = true ∨ ∃ k, (k < 8 ∧ bit op k = true) ∧ e = 88 + k) := by
  simp only [imgOwn, Bool.and_eq_true, Bool.or_eq_true, beq_iff_eq, List.contains_iff_mem]
  refine and_congr_right fun hc => or_congr ?_ ?_
  · have h := named_mem (op := op) (k := 0) (by decide)
    rwa [hc] at h
  · rw [mem_imgEngines, hc]

end Sys2Proof.Machine
end

section
/-! The IMG commands (spec/07, R188, R223, R225; spec/13, R348, R349). -/

open Sys2Proof

namespace Sys2Proof.Machine

/-! Marked bytes of clean words. -/

section
variable {d : Dev} (hcl : d.clean .dram)
include hcl

/-- The bytes of some clean words, none of them marked. -/
theorem Dev.getMarked_words (a n : Nat) : ((List.range n).foldl (fun (l, d) i =>
    let (v, bad, d) := d.readWord .dram 0 0 (a + i)
    let d := if ([] : List Nat).contains i then d.parityError 2 else d
    let bad := bad || ([] : List Nat).contains i
    (l ++ (bytesLE v 8).map (·, bad), d)) (([] : List (Byte × Bool)), d)) = ((d.dram.bytes (8 * a) (8 * n)).map (·, false), d) := by
  induction n with
  | zero => rfl
  | succ n ih =>
    have hraw : bytesLE (d.dram.raw (a + n)) 8 = d.dram.bytes (8 * (a + n)) 8 := by
      have h := bytesLE_leNat (d.dram.bytes (8 * (a + n)) 8)
      rwa [Store.length_bytes] at h
    rw [List.range_succ, List.foldl_append, ih, List.foldl_cons, List.foldl_nil]
    dsimp only
    rw [Dev.readWord_clean d .dram 0 0 (a + n) (hcl _)]
    dsimp only
    rw [Nat.mul_succ, Store.bytes_add, List.map_append, ← Nat.mul_add]
    show (_ ++ (bytesLE (d.dram.raw (a + n)) 8).map (·, false), d) = _
    rw [hraw]

theorem Dev.getMarked_bytes (a n : Nat) : d.getMarked [] .dram 0 0 a n = ((d.dram.bytes a n).map (·, false), d) := by
  unfold Dev.getMarked
  by_cases h : n = 0
  · subst h
    rfl
  · rw [if_neg h]
    have hw := Dev.getMarked_words hcl (a / 8) ((a % 8 + n + 7) / 8)
    dsimp only at hw ⊢
    rw [hw]
    dsimp only
    refine congrArg (fun l => (l, d)) ?_
    rw [← List.map_drop, ← List.map_take]
    refine congrArg _ ?_
    have hlen : 8 * ((a % 8 + n + 7) / 8) = a % 8 + (n + (8 * ((a % 8 + n + 7) / 8) - (a % 8 + n))) := by omega
    rw [hlen, Store.bytes_add, List.drop_left' (Store.length_bytes ..), show 8 * (a / 8) + a % 8 = a by omega, Store.bytes_add,
      List.take_left' (Store.length_bytes ..)]

end

/-! A plaintext is no longer than the text (R349). -/

theorem length_ctrMode (rk : List (List Nat)) (iv : List Byte) (n c : Nat) (l : List Byte) : (ctrMode rk iv n c l).length ≤ l.length := by
  induction n generalizing c l with
  | zero => exact Nat.zero_le _
  | succ n ih =>
    rw [ctrMode]
    have h := ih (c + 1) (l.drop 16)
    rw [List.length_drop] at h
    rw [List.length_append, List.length_zipWith, List.length_take]
    omega

theorem length_of_verify {v : Vault} {head body sig p : List Byte} {c : Nat} (h : v.verify head body sig c = .inr p) : p.length ≤ body.length := by
  unfold Vault.verify at h
  dsimp only at h
  split at h
  · cases h
  · split at h
    · cases h
    · split at h
      · split at h
        · cases h
          exact length_ctrMode ..
        · cases h
      · cases h
        exact Nat.le_refl _

theorem verify_unfit {v : Vault} {head body sig : List Byte} {c : Nat} (h : (imgHead head).fits c = false) : v.verify head body sig c = .inl 1 := by
  have he : v.earlyCheck (imgHead head) c sig = some 1 := by rw [Vault.earlyCheck, h]; rfl
  unfold Vault.verify
  simp only [he]

/-! Requests answered and finished. -/

section
variable (d : Dev)

/-- Answering a request changes the requests of an engine alone. -/
theorem Dev.e_answer_frame (e ch cmd : Nat) (ph : Phase) (st v k : Nat) : ∃ reqs, (d.answer e ch cmd ph st v).e k = { d.e k with reqs } := by
  rw [Dev.answer, Dev.onReq, Dev.e_onE]
  split <;> exact ⟨_, rfl⟩

theorem Dev.answer_frame (e ch cmd : Nat) (ph : Phase) (st v : Nat) : ∃ eng, d.answer e ch cmd ph st v = { d with eng } := ⟨_, rfl⟩

/-- R215: what a request taken up earlier is completed with. -/
theorem Dev.finish_taken {e ch cmd : Nat} {r : Req} (h : d.req e ch cmd .taken = some r) (f : Req → Dev → Dev × (Nat × Nat)) :
    d.finish e ch cmd f = (f r d).1.answer e ch cmd .taken (f r d).2.1 (f r d).2.2 := by
  rw [Dev.finish, h]

end

/-! The effects of IMG. -/

section
variable (d : Dev)

/-- The engines an operand names as their load begins. -/
def Dev.loadBegun (op : Nat) : Dev := d.onEs (fun x => x.st = .halted) (fun x => { x with st := .loading }) (imgEngines op)

/-- The engines an operand names as their load has ended. -/
def Dev.loadEnded (op : Nat) : Dev := d.onEs (fun x => x.st = .loading) (fun x => { x with st := .halted }) (imgEngines op)

/-- The queues of the engines of cluster c emptied. -/
def Dev.queuesEmptied (c : Nat) : Dev :=
  ((List.range 8).map (8 * c + ·)).foldl (fun d k => d.onE k fun x => { x with replies := x.replies.filter (·.chan == 0x206), notices := [], mbox := [] }) d

/-- No reply is outstanding in cluster c but those of IMG. -/
def Dev.drainFree (c : Nat) : Bool := !(((List.range 8).map (8 * c + ·)).any fun k => (d.e k).reqs.any (·.chan != 0x206))

theorem Dev.imgDrainDone_taken {e : Nat} {r : Req} (h : d.req e 0x206 1 .taken = some r) : d.imgDrainDone e =
    if d.drainFree (imgCluster r.op.toNat) then
      ((d.queuesEmptied (imgCluster r.op.toNat)).onC (imgCluster r.op.toNat) fun x => { x with drained := true }).answer e 0x206 1 .taken stOK 0
    else d := by
  unfold Dev.imgDrainDone Dev.drainFree
  rw [h]
  dsimp only
  cases ((List.range 8).map (8 * imgCluster r.op.toNat + ·)).any fun k => (d.e k).reqs.any (·.chan != 0x206) with
  | true => rfl
  | false =>
    rw [if_neg Bool.false_ne_true, Dev.finish_taken _ h]
    rfl

/-- The cluster of an operand stands still and is drained (R223). -/
def Dev.imgReady (op : Nat) : Bool :=
  (List.range 8).all (fun k => [EState.halted, .fault].contains (d.e (8 * imgCluster op + k)).st) && (d.c (imgCluster op)).drained

theorem Dev.imgReady_iff (op : Nat) : d.imgReady op = true ↔ (∀ k, k < 8 → (d.e (8 * imgCluster op + k)).st = .halted ∨ (d.e (8 * imgCluster op + k)).st = .fault) ∧
    (d.c (imgCluster op)).drained = true := by
  simp only [Dev.imgReady, Bool.and_eq_true, List.all_eq_true, List.mem_range, List.contains_iff_mem, List.mem_cons, List.not_mem_nil, or_false]

/-- What IMG LOAD does. -/
def Dev.imgLoadOf (e op : Nat) : Dev × Option (Nat × Nat) :=
  if imgOwn e op ∨ !d.imgReady op then rep d stBadState
  else if d.usable < imgAddr op + 128 then rep d stBadAddr
  else ((d.loadBegun op).demand, none)

theorem Dev.imgLoad_eq (e : Nat) : d.imgLoad e = d.serve e 0x206 2 fun op d => d.imgLoadOf e op := rfl

/-- What IMG START does. -/
def Dev.imgStartOf (e op : Nat) : Dev × Option (Nat × Nat) :=
  if imgOwn e op ∨ (imgEngines op).any (fun k => (d.e k).st != .halted || (d.e k).image.isNone) then rep d stBadState
  else rep (d.startAt (fun x => if getBits op 31 16 = 0 then (x.image.getD 0).toNat else getBits op 31 16) (imgEngines op)) stOK

theorem Dev.imgStart_eq (e : Nat) : d.imgStart e = d.serve e 0x206 3 fun op d => d.imgStartOf e op := rfl

/-- The end of an accepted load. -/
def Dev.imageAccepted (h : ImgHead) (op : Nat) (p : List (Byte × Bool)) : Dev := (d.placeImage h (imgCluster op) (op % 256) p).verifyLast h.key (imgCluster op) none

/-- The end of a refused load. -/
def Dev.imageRefused (h : ImgHead) (op x : Nat) : Dev := (d.wipeImage (imgCluster op) (op % 256)).verifyLast h.key (imgCluster op) (some x)

variable {d} in
/-- R349: a load from clean DRAM ends. -/
theorem Dev.imgLoadDone_clean (hcl : d.clean .dram) (ha : d.dramActive = true) (v : Vault) {e : Nat} {r : Req} (h : d.req e 0x206 2 .taken = some r) {op : Nat}
    (hop : r.op.toNat = op) {hd : ImgHead} (hhd : imgHead (d.dram.bytes (imgAddr op) 128) = hd) {n : Nat} (hn : (if hd.fits (imgCluster op) then hd.body else 0) = n) :
    d.imgLoadDone v e =
      if hd.fits (imgCluster op) ∧ d.usable < imgAddr op + 128 + hd.body + 256 then (d.loadEnded op).answer e 0x206 2 .taken stBadAddr 0
      else match v.verify (d.dram.bytes (imgAddr op) 128) (d.dram.bytes (imgAddr op + 128) n)
          (d.dram.bytes (imgAddr op + 128 + n) (if hd.fits (imgCluster op) then 256 else 0)) (imgCluster op) with
        | .inr p => ((d.loadEnded op).imageAccepted hd op (p.zip ((d.dram.bytes (imgAddr op + 128) n).map fun _ => false))).answer e 0x206 2 .taken stOK 0
        | .inl x => ((d.loadEnded op).imageRefused hd op x).answer e 0x206 2 .taken stRefused 0 := by
  have hf := d.onEs_frame (fun x => x.st = .loading) (fun x => { x with st := .halted }) (imgEngines op)
  have hdram : (d.loadEnded op).dram = d.dram := by
    obtain ⟨eng, he⟩ := hf
    rw [Dev.loadEnded, he]
  have hus : (d.loadEnded op).usable = d.usable := by
    obtain ⟨eng, he⟩ := hf
    rw [Dev.loadEnded, he]
    rfl
  have hcl' : (d.loadEnded op).clean .dram := fun w => by
    show (d.loadEnded op).dram.syndrome w = 0
    rw [hdram]
    exact hcl w
  unfold Dev.imgLoadDone
  rw [h]
  dsimp only
  rw [ha, Bool.not_true, if_neg Bool.false_ne_true, Dev.finish_taken _ h]
  rw [hop]
  rw [show ((imgEngines op).foldl (fun d k => if (d.e k).st = .loading then d.onE k fun x => { x with st := .halted } else d) d) = d.loadEnded op from rfl]
  rw [Dev.getBytes_bytes hcl']
  dsimp only
  rw [hdram, hhd, hus, hn]
  rw [Dev.getMarked_bytes hcl']
  dsimp only
  rw [Dev.getBytes_bytes hcl', hdram]
  dsimp only
  have hm : ((d.dram.bytes (imgAddr op + 128) n).map (·, false)).map (·.1) = d.dram.bytes (imgAddr op + 128) n := by rw [List.map_map]; exact List.map_id _
  have hm2 : ((d.dram.bytes (imgAddr op + 128) n).map (·, false)).map (·.2) = (d.dram.bytes (imgAddr op + 128) n).map fun _ => false := by rw [List.map_map]; rfl
  rw [hm, hm2]
  split
  · rfl
  · cases v.verify (d.dram.bytes (imgAddr op) 128) (d.dram.bytes (imgAddr op + 128) n)
          (d.dram.bytes (imgAddr op + 128 + n) (if hd.fits (imgCluster op) then 256 else 0)) (imgCluster op) <;> rfl

end

end Sys2Proof.Machine
end

section
/-! The obligation on engine images (spec/07, R188, R223, R225). -/

open Sys2Proof

namespace Sys2Proof.Machine

section
variable (d : Dev)

theorem Dev.e_queuesEmptied (c : Nat) {k : Nat} (hk : k < 8) : (d.queuesEmptied c).e (8 * c + k) =
    { d.e (8 * c + k) with replies := (d.e (8 * c + k)).replies.filter (·.chan == 0x206), notices := [], mbox := [] } := by
  have h := d.e_onEs (fun _ => True) (fun x => { x with replies := x.replies.filter (·.chan == 0x206), notices := [], mbox := [] })
    (l := (List.range 8).map (8 * c + ·)) (List.nodup_range.map fun _ _ h => Nat.add_left_cancel h) (8 * c + k)
  rw [if_pos ⟨List.mem_map.2 ⟨k, List.mem_range.2 hk, rfl⟩, trivial⟩] at h
  exact h

theorem Dev.reqs_queuesEmptied (c e : Nat) : ((d.queuesEmptied c).e e).reqs = (d.e e).reqs := by
  have h := d.e_onEs (fun _ => True) (fun x => { x with replies := x.replies.filter (·.chan == 0x206), notices := [], mbox := [] })
    (l := (List.range 8).map (8 * c + ·)) (List.nodup_range.map fun _ _ h => Nat.add_left_cancel h) e
  have hq : (d.queuesEmptied c).e e = _ := h
  rw [hq]
  split <;> rfl

theorem Dev.drainFree_iff (c : Nat) : d.drainFree c = true ↔ ∀ k q, k < 8 → q ∈ (d.e (8 * c + k)).reqs → q.chan = 0x206 := by
  simp only [Dev.drainFree, Bool.not_eq_true', List.any_eq_false, List.mem_map, List.mem_range, Bool.not_eq_true, bne_eq_false_iff_eq,
    forall_exists_index, and_imp, forall_apply_eq_imp_iff₂]
  exact ⟨fun h k q hk hq => h k hk q hq, fun h k hk q hq => h k q hk hq⟩

/-- The engines an operand names as their load has begun or ended. -/
theorem Dev.st_loadBegun (op : Nat) {k : Nat} (hk : k < 8) (hb : bit op k = true) (hs : (d.e (8 * imgCluster op + k)).st = .halted) :
    ((d.loadBegun op).e (8 * imgCluster op + k)).st = .loading := by
  rw [Dev.loadBegun, d.e_onEs _ _ (nodup_imgEngines op), if_pos ⟨(named_mem hk).2 hb, hs⟩]

theorem Dev.st_loadEnded (op : Nat) {k : Nat} (hk : k < 8) (hb : bit op k = true) (hs : (d.e (8 * imgCluster op + k)).st = .loading) :
    ((d.loadEnded op).e (8 * imgCluster op + k)).st = .halted := by
  rw [Dev.loadEnded, d.e_onEs _ _ (nodup_imgEngines op), if_pos ⟨(named_mem hk).2 hb, hs⟩]

theorem Dev.reqs_onEs {q : EngSt → Prop} [DecidablePred q] {f : EngSt → EngSt} (hf : ∀ x, (f x).reqs = x.reqs) {l : List Nat} (hl : l.Nodup) (e : Nat) :
    ((d.onEs q f l).e e).reqs = (d.e e).reqs := by
  rw [d.e_onEs _ _ hl]
  split
  · exact hf _
  · rfl

theorem Dev.demand_frame : ∃ regs pwr, d.demand = { d with regs, pwr } := by
  have h1 : ∀ (x : Dev) p st f m g, ∃ regs pwr, ((x.setPolder p st).orF f m).onPwr g = { x with regs, pwr } := fun x p st f m g => ⟨_, _, rfl⟩
  unfold Dev.demand
  split
  · exact h1 d 47 4 R.PWR_EVT.EVT 16 _
  · exact ⟨_, _, rfl⟩

theorem Dev.e_demand (k : Nat) : d.demand.e k = d.e k := by
  obtain ⟨r, p, h⟩ := d.demand_frame
  rw [h]
  rfl

/-- The states of the engines of a cluster, a digit each (R223). -/
def Dev.imgStates (op : Nat) : Nat := (List.range 8).foldl (fun v k => v + (d.e (8 * imgCluster op + k)).st.code * 8 ^ k) 0

theorem Dev.imgStates_digit (op : Nat) {k : Nat} (hk : k < 8) : d.imgStates op / 8 ^ k % 8 = (d.e (8 * imgCluster op + k)).st.code :=
  (digits8 (fun k => (d.e (8 * imgCluster op + k)).st.code) (fun k => by
    generalize (d.e (8 * imgCluster op + k)).st = x
    cases x <;> decide) 8).2 k hk

/-- The cluster with its queues emptied, and so drained. -/
def Dev.clusterDrained (c : Nat) : Dev := (d.queuesEmptied c).onC c fun x => { x with drained := true }

theorem Dev.clusterDrained_spec (c : Nat) : (∀ e, ((d.clusterDrained c).e e).reqs = (d.e e).reqs) ∧ ((d.clusterDrained c).c c).drained = true ∧
    ∀ k, k < 8 → ((d.clusterDrained c).e (8 * c + k)).notices = [] ∧ ((d.clusterDrained c).e (8 * c + k)).mbox = [] ∧
      ∀ q ∈ ((d.clusterDrained c).e (8 * c + k)).replies, q.chan = 0x206 := by
  have h1 := d.reqs_queuesEmptied c
  have h2 := fun k (hk : k < 8) => d.e_queuesEmptied c hk
  unfold Dev.clusterDrained
  generalize d.queuesEmptied c = y at *
  have he : ∀ j, (y.onC c fun x => { x with drained := true }).e j = y.e j := fun j => Dev.e_onC ..
  refine ⟨fun e => by rw [he, h1], by rw [Dev.c_onC_same], fun k hk => ?_⟩
  rw [he, h2 k hk]
  exact ⟨rfl, rfl, fun q hq => beq_iff_eq.1 (List.mem_filter.1 hq).2⟩

theorem RegsOnly.engine {y u : Dev} {l : List Nat} (h : RegsOnly y u l) (j : Nat) : u.e j = y.e j := by
  obtain ⟨r, rfl⟩ := h.frame
  rfl

theorem RegsOnly.stores {y u : Dev} {l : List Nat} (h : RegsOnly y u l) : u.locS = y.locS ∧ u.sharedS = y.sharedS := by
  obtain ⟨r, rfl⟩ := h.frame
  exact ⟨rfl, rfl⟩

theorem Dev.reg_of_regs {x y : Dev} (h : x.regs = y.regs) (a : Nat) : x.reg a = y.reg a := by rw [Dev.reg, h, Dev.reg]

theorem bit_mod256 (op : Nat) {k : Nat} (hk : k < 8) : bit (op % 256) k = bit op k := by
  rw [bit_eq_testBit, bit_eq_testBit, show (256 : Nat) = 2 ^ 8 from rfl, Nat.testBit_mod_two_pow, decide_eq_true hk, Bool.true_and]

/-- R223, R349: an accepted load. -/
theorem Dev.imageAccepted_spec {h : ImgHead} {op : Nat} (hf : h.fits (imgCluster op) = true) (p : List (Byte × Bool)) :
    (∀ j, (d.imageAccepted h op p).e j = { d.e j with image := ((d.imageAccepted h op p).e j).image }) ∧
    (∀ k, k < 8 → bit op k = true →
      ((d.imageAccepted h op p).e (8 * imgCluster op + k)).image = some (BitVec.ofNat 32 h.entry) ∧
      holdsAt (d.imageAccepted h op p).locS (imgCluster op) k 0 h.text (p.map (·.1)) 0 ∧
      holdsAt (d.imageAccepted h op p).locS (imgCluster op) k 65536 h.data (p.map (·.1)) (pad64 h.text)) ∧
    ∀ i, i < h.shared → pad64 h.text + pad64 h.data + i < p.length →
      (d.imageAccepted h op p).sharedS.byte (4194304 * imgCluster op + h.ofs + i) = (p.map (·.1)).getD (pad64 h.text + pad64 h.data + i) 0 := by
  have hc : imgCluster op ≤ 64 := Nat.le_trans (Nat.min_le_right ..) (by decide)
  obtain ⟨ht, hd, -, -⟩ := ImgHead.fits_sizes hf
  obtain ⟨⟨-, h1⟩, h2, h3⟩ := d.placeImage_spec h (imgCluster op) p ht hd (op % 256) hc
  unfold Dev.imageAccepted
  generalize d.placeImage h (imgCluster op) (op % 256) p = y at *
  have he := (y.verifyLast_regs (imgCluster op) h.key none).engine
  have hl := (y.verifyLast_regs (imgCluster op) h.key none).stores
  generalize y.verifyLast h.key (imgCluster op) none = u at *
  refine ⟨fun j => by rw [he]; exact h1 j, fun k hk hb => ?_, fun i hi hlen => ?_⟩
  · rw [he, hl.1]
    exact h2 k hk ((bit_mod256 op hk).trans hb)
  · rw [hl.2]
    exact h3 i hi hlen

/-- R223, R349: a refused load. -/
theorem Dev.imageRefused_spec (h : ImgHead) (op x : Nat) :
    (∀ j, (d.imageRefused h op x).e j = { d.e j with image := ((d.imageRefused h op x).e j).image }) ∧
    (d.imageRefused h op x).get R.VERIFY_FAILS.COUNT = min (2 ^ 32 - 1) (d.get R.VERIFY_FAILS.COUNT + 1) ∧
    (d.imageRefused h op x).get R.VERIFY_LAST.DETAIL = x % 16 ∧
    (∀ k, k < 8 → bit op k = true → blankAt (d.imageRefused h op x) (imgCluster op) k) ∧
    ∀ i, i < 4194304 → (d.imageRefused h op x).sharedS.byte (4194304 * imgCluster op + i) = 0 := by
  have hc : imgCluster op < 16 := Nat.lt_of_le_of_lt (Nat.min_le_right ..) (by decide)
  obtain ⟨⟨-, h1⟩, hr, h2, h3⟩ := d.wipeImage_spec (imgCluster op) (op % 256)
  unfold Dev.imageRefused
  have hcount : (d.wipeImage (imgCluster op) (op % 256)).get R.VERIFY_FAILS.COUNT = d.get R.VERIFY_FAILS.COUNT :=
    Dev.get_congr (Dev.reg_of_regs hr _)
  generalize d.wipeImage (imgCluster op) (op % 256) = y at *
  have he := (y.verifyLast_regs (imgCluster op) h.key (some x)).engine
  have hl := (y.verifyLast_regs (imgCluster op) h.key (some x)).stores
  obtain ⟨g1, g2⟩ := y.verifyLast_shows (imgCluster op) h.key x hc
  generalize y.verifyLast h.key (imgCluster op) (some x) = u at *
  refine ⟨fun j => by rw [he]; exact h1 j, by rw [g1, hcount], g2, fun k hk hb => ?_, fun i hi => ?_⟩
  · have := h2 k hk ((bit_mod256 op hk).trans hb)
    rw [blankAt] at this ⊢
    rwa [he, hl.1]
  · rw [hl.2]
    exact h3 i hi

theorem Dev.get_answer (e ch cmd : Nat) (ph : Phase) (st v : Nat) (f : Fld) : (d.answer e ch cmd ph st v).get f = d.get f := rfl

/-- A word address with its low bits cleared (R195). -/
theorem ofNat_aligned (x : Word) : BitVec.ofNat 32 (x.toNat / 4 * 4) = x &&& ~~~3#32 := by
  have h : (~~~3#32).toNat = (2 ^ 30 - 1) <<< 2 := rfl
  apply BitVec.eq_of_toNat_eq
  rw [BitVec.toNat_ofNat, BitVec.toNat_and, Nat.mod_eq_of_lt (Nat.lt_of_le_of_lt (Nat.div_mul_le_self ..) x.isLt), h]
  have hx : x.toNat / 4 * 4 = x.toNat >>> 2 <<< 2 := by rw [Nat.shiftRight_eq_div_pow, Nat.shiftLeft_eq]
  rw [hx]
  apply Nat.eq_of_testBit_eq
  intro i
  rw [Nat.testBit_and, Nat.testBit_shiftLeft, Nat.testBit_shiftRight, Nat.testBit_shiftLeft, Nat.testBit_two_pow_sub_one]
  by_cases h2 : 2 ≤ i
  · rw [decide_eq_true h2, Nat.add_sub_cancel' h2, Bool.true_and, Bool.true_and]
    by_cases h30 : i - 2 < 30
    · rw [decide_eq_true h30, Bool.and_true]
    · have hlt : x.toNat < 2 ^ i := Nat.lt_of_lt_of_le x.isLt (Nat.pow_le_pow_right (by decide) (by omega))
      rw [Nat.testBit_lt_two_pow hlt, Bool.false_and]
  · rw [decide_eq_false h2, Bool.false_and, Bool.false_and, Bool.and_false]

end

end Sys2Proof.Machine

open Sys2Proof.Machine

/-- Settles O40: what the engines named become, by what each IMG command does to one of them. -/
theorem engineImages : Obligations.EngineImages := by
  unfold Obligations.EngineImages
  intro e op r s
  extract_lets d c addr named st own still head hd n body sig n2
  have hc : imgCluster op = c := imgCluster_eq op
  have hown : imgOwn e.val op = true ↔ own := by
    rw [imgOwn_iff, hc]
  have hstill : d.imgReady op = true ↔ still := by
    rw [d.imgReady_iff, hc]
  have hc64 : c ≤ 64 := Nat.le_trans (Nat.min_le_left ..) (by decide)
  have hmem : ∀ {k}, k < 8 → (8 * c + k ∈ imgEngines op ↔ bit op k = true) := fun hk => by
    rw [← hc]
    exact named_mem hk
  refine ⟨?_, ?_, fun ha hn => ?_, fun hr hop => ⟨fun hq => ?_, fun k q hk hq hch => ?_⟩, fun h => ?_, fun ho hs hu => ?_, fun ho hs hu ha hn => ?_,
    fun hcl hact hr hop => ?_, fun hact => ?_, fun ho hall => ?_, fun h => ?_⟩
  · refine serves_of_reply (f := fun op d => rep ((imgEngines op).foldl Dev.haltEngine d) stOK) rfl rfl ?_ fun k hk => ?_
    · rw [Dev.e_haltEngines]
      split
      · exact EngSt.reqs_haltOf _
      · rfl
    · obtain ⟨reqs, he⟩ := Dev.e_answer_frame ((imgEngines op).foldl Dev.haltEngine d) e 0x206 0 .sent 0 0 (8 * c + k)
      rw [he]
      show (((imgEngines op).foldl Dev.haltEngine d).e (8 * c + k)).st = _
      rw [Dev.e_haltEngines, if_pos ((hmem hk.1).2 hk.2)]
      exact EngSt.st_haltOf _
  · refine ⟨d.imgStates op, fun k hk => (d.imgStates_digit op hk).trans (by rw [hc]), ?_⟩
    exact serves_of_reply (x := d) (f := fun op d => rep d stOK (d.imgStates op)) rfl rfl rfl ⟨rfl, rfl⟩
  · refine (makes_of_taken (c := .imgDrain e) (s := s) (f := fun _ d => (d, none)) rfl ha rfl).gives ?_
    obtain ⟨q, hq, -, hqo⟩ := ha
    exact ⟨_, Dev.req_taken hq hn, hqo⟩
  · have he := d.imgDrainDone_taken hr
    rw [hop, hc, if_pos ((d.drainFree_iff c).2 hq)] at he
    rw [← Dev.clusterDrained] at he
    obtain ⟨h1, h2, h3⟩ := d.clusterDrained_spec c
    generalize d.clusterDrained c = y at *
    have hm := (makes_of_on (c := .imgDrainDone e) (s := s) (f := fun d => d.imgDrainDone e) rfl).congr he
    refine hm.gives ?_
    refine ⟨Dev.answered_answer (h1 e) .., h2, fun k hk => ?_⟩
    obtain ⟨reqs, hf⟩ := y.e_answer_frame e 0x206 1 .taken stOK 0 (8 * c + k)
    rw [hf]
    exact h3 k hk
  · have he := d.imgDrainDone_taken hr
    rw [hop, hc, if_neg fun h => hch ((d.drainFree_iff c).1 h k q hk hq)] at he
    exact (makes_of_on (c := .imgDrainDone e) (s := s) (f := fun d => d.imgDrainDone e) rfl).congr he
  · refine serves_of_reply (x := d) (f := fun op d => d.imgLoadOf e op) rfl ?_ rfl ⟨rfl, rfl⟩
    show d.imgLoadOf e op = _
    rw [Dev.imgLoadOf, if_pos]
    · rfl
    · rw [hown, Bool.not_eq_true', ← Bool.not_eq_true, hstill]
      exact h
  · refine serves_of_reply (x := d) (f := fun op d => d.imgLoadOf e op) rfl ?_ rfl rfl
    show d.imgLoadOf e op = _
    rw [Dev.imgLoadOf, if_neg, if_pos (show d.usable < imgAddr op + 128 from hu)]
    · rfl
    · rw [hown, Bool.not_eq_true', ← Bool.not_eq_true, hstill, not_or, not_not]
      exact ⟨ho, hs⟩
  · have hf : d.imgLoadOf e op = ((d.loadBegun op).demand, none) := by
      rw [Dev.imgLoadOf, if_neg, if_neg (Nat.not_lt.2 (show imgAddr op + 128 ≤ d.usable from hu))]
      rw [hown, Bool.not_eq_true', ← Bool.not_eq_true, hstill, not_or, not_not]
      exact ⟨ho, hs⟩
    have hm := makes_of_taken (c := .imgLoad e) (s := s) (f := fun op d => d.imgLoadOf e op) rfl ha hf
    have hst := fun k hk hb => d.st_loadBegun op (k := k) hk hb
    have hreqs : ∀ k, ((d.loadBegun op).demand.e k).reqs = (d.e k).reqs := fun k => by
      rw [Dev.e_demand]
      exact d.reqs_onEs (q := fun x => x.st = .halted) (f := fun x => { x with st := .loading }) (fun _ => rfl) (nodup_imgEngines op) k
    have hdem := (d.loadBegun op).e_demand
    generalize (d.loadBegun op).demand = y at *
    refine hm.gives ⟨?_, fun k hk hs => ?_⟩
    · obtain ⟨q, hq, -, hqo⟩ := ha
      refine ⟨_, Dev.req_taken (d := y) (r := q) ?_ ?_, hqo⟩
      · rw [Dev.req, hreqs]
        exact hq
      · rw [Dev.req, hreqs]
        exact hn
    · have h1 := hst k hk.1 hk.2 (by rw [hc]; exact hs)
      rw [hc, ← hdem] at h1
      obtain ⟨reqs, hr⟩ : ∃ reqs, (y.onReq e 0x206 2 .sent fun r => { r with phase := .taken }).e (8 * c + k) = { y.e (8 * c + k) with reqs } := by
        rw [Dev.onReq, Dev.e_onE]
        split <;> exact ⟨_, rfl⟩
      rw [hr]
      exact h1
  · have he := Dev.imgLoadDone_clean hcl hact s.vault hr hop (hd := hd) (n := n) rfl (by rw [hc])
    have hm := (makes_of_on (c := .imgLoadDone e) (s := s) (f := fun d => d.imgLoadDone s.vault e) rfl).congr he
    rw [hc] at hm
    have hload := fun k hk hb => d.st_loadEnded op (k := k) hk hb
    have hreqs := d.reqs_onEs (q := fun x => x.st = .loading) (f := fun x => { x with st := .halted }) (fun _ => rfl) (nodup_imgEngines op)
    rw [← Dev.loadEnded] at hreqs
    obtain ⟨eng, hfr⟩ : ∃ eng, d.loadEnded op = { d with eng } := d.onEs_frame _ _ _
    refine ⟨fun hf hbig => ?_, fun hfit => ⟨fun p hp => ?_, fun x hx => ?_⟩⟩
    · rw [if_pos (show hd.fits c = true ∧ d.usable < imgAddr op + 128 + hd.body + 256 from ⟨hf, hbig⟩)] at hm
      have hl : (d.loadEnded op).locS = d.locS ∧ (d.loadEnded op).sharedS = d.sharedS := by
        rw [hfr]
        exact ⟨rfl, rfl⟩
      generalize d.loadEnded op = y at *
      refine hm.gives ⟨Dev.answered_answer (hreqs e) .., hl.1, hl.2, fun k hk hs => ?_⟩
      obtain ⟨reqs, hr⟩ := y.e_answer_frame e 0x206 2 .taken stBadAddr 0 (8 * c + k)
      rw [hr]
      have h1 := hload k hk.1 hk.2 (by rw [hc]; exact hs)
      rwa [hc] at h1
    · have hft : hd.fits c = true := fits_of_verify hp
      have hft' : hd.fits (imgCluster op) = true := by rw [hc]; exact hft
      have hver : s.vault.verify (d.dram.bytes (imgAddr op) 128) (d.dram.bytes (imgAddr op + 128) n)
          (d.dram.bytes (imgAddr op + 128 + n) (if hd.fits c = true then 256 else 0)) c = .inr p := hp
      rw [if_neg (show ¬ (hd.fits c = true ∧ d.usable < imgAddr op + 128 + hd.body + 256) from fun h => absurd h.2 (Nat.not_lt.2 (hfit hft))), hver] at hm
      dsimp only at hm
      have hlen : p.length ≤ ((d.dram.bytes (imgAddr op + 128) n).map fun _ => false).length := by
        rw [List.length_map]
        exact length_of_verify hp
      have hzip : (p.zip ((d.dram.bytes (imgAddr op + 128) n).map fun _ => false)).map (·.1) = p := List.map_fst_zip hlen
      have hzl : (p.zip ((d.dram.bytes (imgAddr op + 128) n).map fun _ => false)).length = p.length := by rw [List.length_zip]; omega
      obtain ⟨a1, a2, a3⟩ := (d.loadEnded op).imageAccepted_spec hft' (p.zip ((d.dram.bytes (imgAddr op + 128) n).map fun _ => false))
      rw [hzip] at a2 a3
      rw [hzl] at a3
      rw [hc] at a2 a3
      generalize (d.loadEnded op).imageAccepted hd op (p.zip ((d.dram.bytes (imgAddr op + 128) n).map fun _ => false)) = u at *
      have hru : (u.e e).reqs = (d.e e).reqs := by
        rw [a1]
        exact hreqs e
      refine hm.gives ⟨Dev.answered_answer hru .., fun k hk => ?_, a3⟩
      obtain ⟨reqs, hr⟩ := u.e_answer_frame e 0x206 2 .taken stOK 0 (8 * c + k)
      obtain ⟨b1, b2, b3⟩ := a2 k hk.1 hk.2
      rw [hr]
      refine ⟨b1, fun i hi hl => ?_, fun i hi hl => b3 i hi hl, fun hs => ?_⟩
      · have := b2 i hi (by omega)
        rw [Nat.zero_add] at this
        exact this
      · have h1 := hload k hk.1 hk.2 (by rw [hc]; exact hs)
        rw [hc] at h1
        show (u.e (8 * c + k)).st = .halted
        rw [a1]
        exact h1
    · have hver : s.vault.verify (d.dram.bytes (imgAddr op) 128) (d.dram.bytes (imgAddr op + 128) n)
          (d.dram.bytes (imgAddr op + 128 + n) (if hd.fits c = true then 256 else 0)) c = .inl x := hx
      rw [if_neg (show ¬ (hd.fits c = true ∧ d.usable < imgAddr op + 128 + hd.body + 256) from fun h => absurd h.2 (Nat.not_lt.2 (hfit h.1))), hver] at hm
      dsimp only at hm
      obtain ⟨a1, a2, a3, a4, a5⟩ := (d.loadEnded op).imageRefused_spec hd op x
      have hcount : (d.loadEnded op).get R.VERIFY_FAILS.COUNT = d.get R.VERIFY_FAILS.COUNT := by rw [hfr, Dev.get_eng]
      rw [hcount] at a2
      rw [hc] at a4 a5
      generalize (d.loadEnded op).imageRefused hd op x = u at *
      have hru : (u.e e).reqs = (d.e e).reqs := by
        rw [a1]
        exact hreqs e
      refine hm.gives ⟨Dev.answered_answer hru .., ?_, ?_, fun k hk => ?_, a5⟩
      · rw [Dev.get_answer, a2]
      · rw [Dev.get_answer, a3]
      · obtain ⟨reqs, hr⟩ := u.e_answer_frame e 0x206 2 .taken stRefused 0 (8 * c + k)
        obtain ⟨b1, b2⟩ := a4 k hk.1 hk.2
        rw [hr]
        refine ⟨b1, fun hs => ?_, b2⟩
        have h1 := hload k hk.1 hk.2 (by rw [hc]; exact hs)
        rw [hc] at h1
        show (u.e (8 * c + k)).st = .halted
        rw [a1]
        exact h1
  · refine (makes_of_on (c := .imgLoadDone e) (s := s) (f := fun d => d.imgLoadDone s.vault e) rfl).gives ?_
    obtain ⟨regs, pwr, hdem⟩ := d.demand_frame
    have he : d.imgLoadDone s.vault e = d ∨ d.imgLoadDone s.vault e = d.demand := by
      unfold Dev.imgLoadDone
      split
      · exact .inl rfl
      · rw [hact, Bool.not_false, if_pos rfl]
        exact .inr rfl
    show (d.imgLoadDone s.vault e).eng = d.eng ∧ (d.imgLoadDone s.vault e).locS = d.locS ∧ (d.imgLoadDone s.vault e).sharedS = d.sharedS
    rcases he with he | he
    · rw [he]
      exact ⟨rfl, rfl, rfl⟩
    · rw [he, hdem]
      exact ⟨rfl, rfl, rfl⟩
  · have hf : d.imgStartOf e op = rep (d.startAt (fun x => if n2 = 0 then (x.image.getD 0).toNat else n2) (imgEngines op)) stOK := by
      rw [Dev.imgStartOf, if_neg]
      · rfl
      · rw [hown, not_or]
        refine ⟨ho, ?_⟩
        rw [List.any_eq_true]
        rintro ⟨j, hj, hb⟩
        obtain ⟨k, hk, rfl⟩ := mem_imgEngines.1 hj
        obtain ⟨h1, h2⟩ := hall k hk
        rw [hc] at hb
        rw [show (d.e (8 * c + k)).st = .halted from h1] at hb
        simp only [bne_self_eq_false, Bool.false_or, Option.isNone_iff_eq_none] at hb
        rw [hb] at h2
        cases h2
    have hstart := fun j hj => d.e_startAt (fun x => if n2 = 0 then (x.image.getD 0).toNat else n2) (nodup_imgEngines op) (j := j) hj
    have hout := fun j hj => d.e_startAt_out (fun x => if n2 = 0 then (x.image.getD 0).toNat else n2) (l := imgEngines op) (j := j) hj
    generalize d.startAt (fun x => if n2 = 0 then (x.image.getD 0).toNat else n2) (imgEngines op) = y at *
    have hreqs : (y.e e).reqs = (d.e e).reqs := by
      by_cases hj : e.val ∈ imgEngines op
      · obtain ⟨i, hi⟩ := hstart _ hj
        rw [hi]
        rfl
      · rw [hout _ hj]
    refine serves_of_reply (x := y) (f := fun op d => d.imgStartOf e op) rfl hf hreqs fun k hk => ?_
    obtain ⟨reqs, hr⟩ := y.e_answer_frame e 0x206 3 .sent 0 0 (8 * c + k)
    obtain ⟨i, hi⟩ := hstart _ ((hmem hk.1).2 hk.2)
    rw [hr, hi]
    refine ⟨rfl, ?_⟩
    show BitVec.ofNat 32 ((if n2 = 0 then ((d.e (8 * c + k)).image.getD 0).toNat else n2) / 4 * 4) = (if n2 = 0 then (d.e (8 * c + k)).image.getD 0 else BitVec.ofNat 32 n2) &&& ~~~3#32
    split
    · exact ofNat_aligned _
    · have h2 := ofNat_aligned (BitVec.ofNat 32 n2)
      rwa [BitVec.toNat_ofNat, Nat.mod_eq_of_lt (Nat.lt_trans (Nat.mod_lt _ (by decide)) (by decide))] at h2
  · refine serves_of_reply (x := d) (f := fun op d => d.imgStartOf e op) rfl ?_ rfl ⟨rfl, fun k hk => ?_⟩
    · show d.imgStartOf e op = _
      rw [Dev.imgStartOf, if_pos]
      · rfl
      · rw [hown]
        refine h.imp id ?_
        rintro ⟨k, hk, hb⟩
        rw [List.any_eq_true]
        refine ⟨8 * c + k, (hmem hk.1).2 hk.2, ?_⟩
        rw [Bool.or_eq_true, bne_iff_ne, Option.isNone_iff_eq_none]
        exact hb
    · obtain ⟨reqs, hr⟩ := d.e_answer_frame e 0x206 3 .sent 6 0 (8 * c + k)
      rw [hr]

end
